-- ==== Sys2Proof/Word.lean ====
section
/-!
DEFINITION. Word.lean: the part's word, byte and bytes, and the place of a field in a register (R3, R14).
-/

namespace Sys2Proof

/-- A register word (R3). -/
abbrev Word := BitVec 32

/-- A byte of a line, of host memory or of a flash image. -/
abbrev Byte := BitVec 8

/-- Bytes in the order of the line or of rising addresses. -/
abbrev Bytes := List Byte

/-- The place of a register field: the byte offset of its register, its lowest bit and its width (R14). -/
structure Field where
  off : Nat
  lo  : Nat
  w   : Nat
  deriving DecidableEq, Repr

end Sys2Proof
end

