-- ==== Sys2Proof/Syntax.lean ====
section
/-!
DEFINITION. Syntax.lean: the commands of the OX4, one constructor per row of spec/opcode_table.json, and the operand
types they carry. Indices are bounded by type: channels 0 to 3, functions 0 to 15, global rings 0 to 431.
-/

namespace Sys2Proof

/-- Where a register access comes from: PCIe to PF0, a VF aperture, SMBus, or an image record (R394). -/
inductive BusSrc where
  | pcie
  | vf (f : Fin 16)
  | smbus
  | image
  deriving DecidableEq, Repr, Inhabited

/-- The address space of a register access: PF0 BAR0, PF0 BAR2, or the aperture of VF f (R111). -/
inductive Space where
  | bar0
  | bar2
  | vf (f : Fin 16)
  deriving DecidableEq, Repr, Inhabited

/-- The register pairs of which a read of the low half latches the high half (R53). -/
inductive HrtPair where
  | now | snap | cap | left
  deriving DecidableEq, Repr, Inhabited

/-- One Hearth copy (R33, "The voted Hearth"): HT64 time, 32-bit fraction, HRT_RATE, HRT_ERA, slew remainder in
units of 2^-32 mt. -/
structure Machine.HCopy where
  t    : Nat := 0
  frac : Nat := 0
  rate : Int := 0
  era  : Nat := 0
  left : Int := 0
  deriving DecidableEq, Repr, Inhabited

/-- A PCIe Configuration Request (R88, R104, R110, R111): a read at a byte offset, or a write of Command, of MSI-X control, of
Device Control (payload and read-request size codes, Enable Relaxed Ordering), of Link Control (ASPM, Common Clock
Configuration), of a base address (0 BAR0/1, 1 BAR2/3, 2 the VF BAR0/1 of SR-IOV), of the System Page Size, or of the two AER
status registers, whose bits a 1 clears. -/
inductive CfgReq where
  | read (off : Nat)
  | command (mse bme : Bool)
  | msix (en mask : Bool)
  | devctl (mps mrrs : Fin 6) (relax : Bool)
  | linkctl (aspm : Fin 4) (common : Bool)
  | bar (k : Fin 3) (x : BitVec 64)
  | pageSize (x : Word)
  | aer (unc cor : Word)
  deriving DecidableEq, Repr, Inhabited

/-- Why a channel link goes down (R158). -/
inductive LinkCause where
  | blockLock | hiBer | localFault
  deriving DecidableEq, Repr, Inhabited

/-- What a channel receives (R159, R169): an express frame, a start or continuation mPacket (frame code, fragment count,
whether more follow, whether its mCRC is good), or another start delimiter. -/
inductive MPkt where
  | express
  | start (frame : Fin 4) (more mcrcOk : Bool)
  | cont (frame frag : Fin 4) (more mcrcOk : Bool)
  | other
  deriving DecidableEq, Repr, Inhabited

/-- A received IEC 60958 subframe (R306, R307): its 24 audio bits, validity and channel-status bits, and whether it showed
a biphase violation or a parity error. -/
structure IecSub where
  audio : BitVec 24 := 0
  v     : Bool := false
  c     : Bool := false
  bad   : Bool := false
  deriving DecidableEq, Repr, Inhabited

/-- A port frame on the wire (R300, R306): the received bits of a serial frame, first bit most significant; or an IEC frame
sent, one received (whether it began with preamble B, subframes A and B), or both. -/
inductive SapWire where
  | serial (v : Nat)
  | iec (tx : Bool) (rx : Option (Bool × IecSub × IecSub))
  deriving DecidableEq, Repr, Inhabited

/-- What a Guyline transaction met on the line (R349, R350): a RESET went through; a READ did, with the bytes and the CRC that
the device sent; no presence; a collision; a line that stays low; the status byte of a WRITE. -/
inductive GlEnd where
  | ok
  | read (data : Bytes) (crc : BitVec 16)
  | noPresence
  | collision
  | busLow
  | status (b : Byte)
  deriving DecidableEq, Repr, Inhabited

/-- How a module I2C transaction ended (R371). -/
inductive I2cEnd where
  | ok (data : Bytes)
  | noModule | nackAddr | nackData | timeout | stuck
  deriving DecidableEq, Repr, Inhabited

/-- What uses a cell of packet memory (chapter 10): a frame or nothing, the staging cell of an audio channel (output where
true), the play-out or packet cell of a lifeline channel, the payload of the next Pegline slot, of the next mirror frame, the
data of the running compression job. The queue SRAM of a channel is no cell, but comes to the same (Table 18.6). -/
inductive Buf where
  | frame
  | audio (out : Bool) (k : Fin 64)
  | lifeline (c : Fin 16)
  | slot
  | mirror
  | cmp
  | queue (n : Fin 4)
  deriving DecidableEq, Repr, Inhabited

/-- An error that has come into a stored word of packet memory (R217): its cell and what uses it, its word, whether it is a
double-bit error, and its syndrome. Every read of the cell finds it until the cell is written. -/
structure Upset where
  buf    : Buf := .frame
  cell   : Nat := 0
  word   : Fin 32 := 0
  double : Bool := false
  syn    : BitVec 8 := 0
  deriving DecidableEq, Repr, Inhabited

/-- What the PCS says of a frame or mPacket (Table 7.2 check 1, Table 7.4): delivered without an error block and with a valid
terminate; errored blocks, and FEC codewords corrected and not correctable, since the one before. And whether the frame's bytes
overflowed the channel's ingress buffer while they waited for bank-slots (R227). -/
structure Pcs where
  ok     : Bool := true
  ovf    : Bool := false
  blocks : Nat := 0
  corr   : Nat := 0
  uncorr : Nat := 0
  deriving DecidableEq, Repr, Inhabited

/-- A step of TXFLTn (R157): asserted, asserted for 2 consecutive frames, inactive again. -/
inductive FltStep where
  | rise | held | fall
  deriving DecidableEq, Repr, Inhabited

/-- A step of TXFLTn at channel n (R157). -/
structure TxFlt where
  n    : Fin 4
  step : FltStep
  deriving DecidableEq, Repr, Inhabited

/-- The PCS of channel n reaches good state, or (held) has held it for UP_FR frames (R158). -/
structure PcsGood where
  n    : Fin 4
  held : Bool
  deriving DecidableEq, Repr, Inhabited

/-- What has become of a bank's refreshes since the last such command (R219): how many owed ones have been paid, and then in how
many of its refresh slots guaranteed work has run. -/
structure Refresh where
  bank  : Fin 4
  paid  : Nat
  taken : Nat
  deriving DecidableEq, Repr, Inhabited

/-- A scrub read that falls due (R220): the errors that have come into packet memory, and whether the bank has an idle slot. -/
structure ScrubRead where
  ups  : List Upset
  idle : Bool
  deriving DecidableEq, Repr, Inhabited

/-- The output word of a gate engine's copy (R198). -/
structure Machine.GateWord where
  gates : Nat := 0xFF
  hold  : Bool := false
  cal   : Bool := false
  entry : Nat := 0
  bank  : Option Nat := none
  deriving DecidableEq, Repr, Inhabited

/-- A mote of a frame: 2^20 motes make a frame (R33). -/
abbrev Mote := Fin 1048576

/-- An event of channel n at mote m. -/
structure ChanAt where
  n : Fin 4
  m : Mote
  deriving DecidableEq, Repr, Inhabited

/-- The commands. Where a comment names an operand it is the command's own; a command that an event of the outside or of
time brings carries the mote of the frame at which it comes, where that matters (assumption log 2). First the commands with
operands, in the order of spec/opcode_table.json, then those without. -/
inductive Instr where
  /-- A write of v at byte offset off of an address space; narrow: not a single aligned 32-bit write (R3, R5, R394).
  -/
  | registerWrite (sp : Space) (narrow : Bool) (off : Nat) (v : Word)
  /-- A read at byte offset off, an RCLR read among them (R3, R6, R394). -/
  | rclrRead (sp : Space) (narrow : Bool) (off : Nat)
  /-- The next frame event, with the levels of the 16 GPI pins sampled at it (R34, R365). -/
  | frameEvent (gpi : BitVec 16)
  /-- Copy k of the Hearth is found holding x (R40). -/
  | hearthVoteFix (k : Fin 3) (x : Machine.HCopy)
  /-- The three copies of the Hearth are found all different (R40). -/
  | hearthFault (a : Machine.HCopy) (b : Machine.HCopy) (c : Machine.HCopy)
  /-- A write of HRT_RATE (R42). -/
  | hrtRateWrite (src : BusSrc) (v : Word)
  /-- A write of HRT_ADJ_CTRL with GO, its MODE and SLEW_PPM (R43). -/
  | adjGo (src : BusSrc) (slew : Bool) (ppm : Fin 512)
  /-- HRT_CTRL.SRC is written (R47, Table 2.5). -/
  | srcWrite (new : Fin 4)
  /-- HRT_CTRL.HOST_LOCK is written (R47). -/
  | hostLockWrite (b : Bool)
  /-- An active PPS_IN edge at mote m of the frame (R48). -/
  | ppsEdge (m : Mote)
  /-- HRT_SNAP_CTRL.TAKE is written at mote m (R52). -/
  | snapTake (m : Mote)
  /-- A read at mote m of the low half of a register pair (R53). -/
  | hrtNowRead (p : HrtPair) (m : Mote)
  /-- A write of CLK_MCLK_A_DEN (b false) or CLK_MCLK_B_DEN (b true) (R29). -/
  | mclkDenWrite (src : BusSrc) (b : Bool) (den : Word)
  /-- Conversion k of the frame gives this code, or the sag conversion that follows it (R55, R231, Table 3.1). -/
  | adcConversion (k : Fin 8) (sag : Bool) (code : Int)
  /-- LOSS_N samples below LOSS at mote m (R65). -/
  | feedLoss (m : Mote)
  /-- A dying-gasp copy falls due (R67). -/
  | gaspCopyDue (m : Mote)
  /-- RAT_BIV_TIMER_HI is written (R74). -/
  | bivTimerWrite (hi : Word)
  /-- The Hearth reaches RAT_BIV_TIMER at mote m (R74). -/
  | wakeTimer (m : Mote)
  /-- A write of RAT_RET_DATA (R68). -/
  | retDataWrite (src : BusSrc) (v : Word)
  /-- OTP has been read: its tag key if one is fused, and whether tags are required (R84, R94). -/
  | otpDone (key : Option Bytes) (requireTag : Bool)
  /-- The rails of domain k pass their monitors (R83). -/
  | railGood (k : Fin 7)
  /-- Both slot headers and the calibration page have been read (R96). -/
  | findDone (slotA : Bytes) (slotB : Bytes) (cal : Bytes)
  /-- A candidate slot has been streamed (R95). -/
  | verifyDone (image : Bytes)
  /-- The PCIe link comes up, with the partner's SPEED and WIDTH codes (R108). -/
  | hifLinkUp (speed : Fin 8) (width : Fin 8)
  /-- A Configuration Request to function f (R88, R110). -/
  | configRequest (f : Fin 16) (q : CfgReq)
  /-- Initiate Function Level Reset of function f (R118). -/
  | flr (f : Fin 16)
  /-- VF Enable is set, with NumVFs num (R123). -/
  | vfEnable (num : Fin 16)
  /-- The HIF_VF_HOLD bit of VF f is set (R118). -/
  | vfHoldSet (f : Fin 16)
  /-- The HIF_VF_HOLD bit of VF f is cleared (R123). -/
  | vfHoldClear (f : Fin 16)
  /-- A write of HIF_FNf_QP, AUD or MISC (R114). -/
  | fnAssign (src : BusSrc) (f : Fin 16) (which : Fin 3) (x : Word)
  /-- The Kennel of function f ends (R120). -/
  | kennelDone (f : Fin 16) (m : Mote)
  /-- A read completion for a payload or an orphan (R121). -/
  | completion (tag : Nat) (data : Bytes)
  /-- The completion timeout of a read (R106). -/
  | cplTimeout (tag : Nat)
  /-- A poisoned completion of a read (R106). -/
  | poisoned (tag : Nat)
  /-- A write of INT_FN0_MASK (f = 0) or of VF_INT_MASK (R116). -/
  | intMaskWrite (f : Fin 16) (x : BitVec 21)
  /-- Function f moves to D3hot or to D0 (R125). -/
  | dstateChange (f : Fin 16) (d3 : Bool)
  /-- A request to the aperture of VF f while its Memory Space Enable is 0 (R112). -/
  | unsupportedRequest (f : Fin 16)
  /-- A doorbell write of x to slot s of function f (R127). -/
  | doorbell (f : Fin 16) (slot : Fin 417) (x : Word)
  /-- A MBX_BASE_LO doorbell of function f (R128). -/
  | mbxBaseLo (f : Fin 16) (x : BitVec 30)
  /-- A MBX_BASE_HI doorbell of function f (R128). -/
  | mbxBaseHi (f : Fin 16) (x : BitVec 30)
  /-- A MBX_RESET doorbell of function f (R128). -/
  | mbxReset (f : Fin 16) (x : BitVec 30)
  /-- A descriptor read returns (R130). -/
  | descFetch (tag : Nat) (data : Bytes)
  /-- A descriptor fetch fails (R131). -/
  | fetchFail (tag : Nat) (timedOut : Bool)
  /-- A descriptor tag frees for a waiting ring (R132). -/
  | tagWaitEnd (ring : Fin 432)
  /-- A coalescing gap ends (R135). -/
  | coalExpiry (ring : Fin 432) (m : Mote)
  /-- A launch time arrives at mote m (R138). -/
  | launchDue (m : Mote)
  /-- A frame has waited for STALL_BUDGET (R141). -/
  | stallExpiry (ring : Fin 432) (m : Mote)
  /-- An audio buffer reaches its half point (R144). -/
  | audioHalfPoint (ring : Fin 432)
  /-- An audio buffer reaches its full point (R144). -/
  | audioFullPoint (ring : Fin 432)
  /-- The next mailbox descriptor of function f, with command NOP, or a code that the mailbox does not know, is
  executed (R149). -/
  | nop (f : Fin 16)
  /-- The next mailbox descriptor of function f, with command RING_SETUP, is executed (R149). -/
  | ringSetup (f : Fin 16)
  /-- The next mailbox descriptor of function f, with command RING_ENABLE, is executed (R149). -/
  | ringEnable (f : Fin 16)
  /-- The next mailbox descriptor of function f, with command RING_DISABLE, is executed (R149). -/
  | ringDisable (f : Fin 16)
  /-- The next mailbox descriptor of function f, with command RING_QUERY, is executed (R149). -/
  | ringQuery (f : Fin 16)
  /-- The next mailbox descriptor of function f, with command TIME, is executed (R149). -/
  | time (f : Fin 16)
  /-- The next mailbox descriptor of function f, with command RESOURCES, is executed (R149). -/
  | resources (f : Fin 16)
  /-- A stopping ring has returned every begun descriptor (R150). -/
  | ringQuiescence (ring : Fin 432)
  /-- A request on a PRQ line for one burst of a ring (R151). -/
  | prqRequest (line : Fin 16) (ring : Fin 432) (m : Mote)
  /-- A written DMA_PRQ_MAPk takes effect (R152). -/
  | prqMapApply (line : Fin 16)
  /-- DMA_RING_SEL is written (R126). -/
  | ringSelWrite (ring : Fin 432)
  /-- A STARTING channel is ready (R156). -/
  | channelOn (n : Fin 4)
  /-- A stopping channel reaches quiescence (R156). -/
  | channelStopped (n : Fin 4)
  /-- A module is inserted (R157). -/
  | modIn (n : Fin 4)
  /-- A module is removed (R157). -/
  | modOut (n : Fin 4)
  /-- A module has been present for INSERT_FR frames (R157). -/
  | moduleSettled (n : Fin 4)
  /-- TXFLTn moves, or has been asserted for 2 frames (R157). -/
  | txFault (x : TxFlt)
  /-- FAULT_RETRY is written (R157). -/
  | faultRetry (n : Fin 4) (src : BusSrc)
  /-- The PCS of a channel reaches good state, or has held it for UP_FR frames (R158). -/
  | linkUp (x : PcsGood)
  /-- The channel link goes down (R158). -/
  | linkDown (n : Fin 4) (cause : LinkCause)
  /-- A frame or mPacket is received on channel n, its delimiter at mote m (R159, R169). -/
  | rxFrame (n : Fin 4) (m : Mote) (pkt : MPkt) (pcs : Pcs) (data : Bytes)
  /-- A frame received in BIVOUAC-LISTEN (R172). -/
  | patternWake (data : Bytes)
  /-- Half the advertised pause time has elapsed (R165). -/
  | pauseRefresh (n : Fin 4) (m : Mote)
  /-- The measure falls to LO (R165). -/
  | xoffEnd (n : Fin 4)
  /-- A PAUSE frame is received (R166). -/
  | pauseRx (n : Fin 4) (quanta : BitVec 16) (m : Mote)
  /-- A PFC frame is received (R166). -/
  | pfcRx (n : Fin 4) (vec : BitVec 8) (quanta : List (BitVec 16)) (m : Mote)
  /-- The received pause time of priority k, or that of a PAUSE frame (8), expires (R166). -/
  | pauseEnd (n : Fin 4) (k : Fin 9) (m : Mote)
  /-- The next frame of channel n starts, its delimiter at mote m; ups: errors that have come into packet memory (R186, R217,
  R386). -/
  | txFrameStart (n : Fin 4) (ups : List Upset) (m : Mote)
  /-- The frame on the wire of channel n ends at mote m (R138). -/
  | txFrameEnd (n : Fin 4) (m : Mote)
  /-- CHn_PREEMPT_CFG.EN is written 1 (R167). -/
  | preemptEnable (n : Fin 4)
  /-- CHn_PREEMPT_CFG.EN is written 0 (R167). -/
  | preemptDisable (n : Fin 4)
  /-- The verify timer of a channel expires (R167). -/
  | verifyTimer (x : ChanAt)
  /-- A verify mPacket is received (R167). -/
  | verifyRx (n : Fin 4)
  /-- A respond mPacket is received (R167). -/
  | respondRx (n : Fin 4)
  /-- A read of CHn_PTP_TXTS0 (R164). -/
  | txts0Read (n : Fin 4)
  /-- A write of word k of classifier entry i (R182). -/
  | clsEntryWrite (masked : Bool) (ix : Fin 4096) (k : Fin 16) (x : Word)
  /-- A write of the CTRL word of classifier entry i (R182). -/
  | clsCommit (masked : Bool) (ix : Fin 4096) (ctrl : Word)
  /-- The Hearth reaches the start of a gate-list entry (R190). -/
  | gateEntryStart (n : Fin 4) (m : Mote)
  /-- Recalibration begins in a CAL window (R192). -/
  | calRecalStart (n : Fin 4) (m : Mote)
  /-- A lane recalibration completes (R192). -/
  | calRecalEnd (n : Fin 4)
  /-- CHn_GATE_CTRL.COMMIT is written (R195). -/
  | gateCommit (n : Fin 4)
  /-- CHn_GATE_CTRL.CANCEL is written (R194). -/
  | gateCancel (n : Fin 4)
  /-- The start time of an ARMED engine arrives (R194). -/
  | gateListStart (n : Fin 4) (m : Mote)
  /-- The swap time arrives (R196). -/
  | gateSwap (n : Fin 4) (m : Mote)
  /-- CHn_GATE_CTRL.EN is written 0 (R194). -/
  | gateDisable (n : Fin 4)
  /-- Copy k of a gate engine is found with another output word w (R198). -/
  | gateVoteFix (n : Fin 4) (k : Fin 3) (w : Machine.GateWord)
  /-- The three copies of a gate engine all differ (R198). -/
  | gateNomaj (n : Fin 4)
  /-- A write of word k of stream entry s (R211). -/
  | freEntryWrite (src : BusSrc) (st : Fin 1024) (k : Fin 7) (x : Word)
  /-- A write of word 7 of stream entry s (R211). -/
  | freCommit (st : Fin 1024) (ctrl : Word)
  /-- RESET_FR frame events without a passed frame (R208). -/
  | recovReset (st : Fin 1024)
  /-- Owed refreshes of a bank are paid, then slots taken; where the owed count reaches 8 the refresh is forced (R219). -/
  | refreshForced (x : Refresh)
  /-- A scrub cell falls due at mote m (R220). -/
  | scrubCellDue (x : ScrubRead) (m : Mote)
  /-- PMC_CTRL.CHECK is written, with CHECK_CH (R222). -/
  | admissionCheck (ch : Fin 8)
  /-- 8,000 fr have passed without a recalibration of a lane: 0 to 3 uplinks, 4 and 5 Pegline chain A and B, 6 Leash
  (R230). -/
  | recalForced (lane : Fin 7) (m : Mote)
  /-- Slot s begins (R236). -/
  | pegSlotStart (slot : Fin 64)
  /-- A copy of a slot frame arrives on channel A or B at era-extended time t (R241). -/
  | pegSlotReceive (chB : Bool) (t : Int) (symOk : Bool) (data : Bytes)
  /-- An expected slot ends with no good copy (R242). -/
  | pegSlotMiss (slot : Fin 64)
  /-- A whole message of node n waits for its ring (R252). -/
  | msgDeliver (n : Fin 32)
  /-- ACK_RND rounds without an acknowledgment from node dest (R250). -/
  | msgAckTimeout (dest : Fin 32)
  /-- PEG_SPARE_CTRL.CLAIM is written with SLOT s (R254). -/
  | spareClaim (slot : Fin 64)
  /-- PEG_SPARE_CTRL.RELEASE is written with SLOT s (R254). -/
  | spareRelease (slot : Fin 64)
  /-- A spare slot has carried no good frame for 32 rounds (R255). -/
  | spareLapse (slot : Fin 64)
  /-- A probe is received on port p at mote m; turn: the turnaround time of the echo (R269). -/
  | probeReceive (p : Fin 2) (seq : Nat) (turn : Nat) (m : Mote)
  /-- An echo is received on port p (R270). -/
  | echoReceive (p : Fin 2) (seq : Nat) (down : Option (Nat × Nat)) (turn : Nat) (m : Mote)
  /-- A mirror frame is received (R277). -/
  | mirrorReceive (symOk : Bool) (data : Bytes) (m : Mote)
  /-- The lease expires at mote m (R286). -/
  | leaseExpiry (m : Mote)
  /-- LSH_HOLD_IN changes to level b (R290). -/
  | holdInChange (b : Bool)
  /-- A STARTING port is valid (R298). -/
  | sapPortOn (p : Fin 8)
  /-- A tick of port p, or of the speaker (p = 8), at mote m (R298, R314). -/
  | sapTick (p : Fin 9) (m : Mote)
  /-- A slave port has seen 4 whole frames (R299). -/
  | sapLock (p : Fin 8)
  /-- No FS edge within 4 tick periods (R299). -/
  | sapLockLost (p : Fin 8)
  /-- A port frame of len bits, the wrong length, with bits v (R310). -/
  | partialFrame (p : Fin 8) (len : Nat) (v : Nat)
  /-- A stopping port reaches quiescence (R311). -/
  | sapStopped (p : Fin 8)
  /-- A STARTING audio channel, input where `inp`, has its port ON (R301). -/
  | sapChannelOn (inp : Bool) (k : Fin 64)
  /-- A channel's fade-out ends, an input's where `inp` (R312). -/
  | fadeDone (inp : Bool) (k : Fin 64)
  /-- An IEC 60958 receiver locks (R307). -/
  | iecLock (p : Fin 8)
  /-- An IEC 60958 receiver misses 3 preambles (R307). -/
  | iecLockLost (p : Fin 8)
  /-- A received block ends (R307). -/
  | iecBlockEnd (p : Fin 8)
  /-- A bridge switch reaches 1.8 A; the diagnostic current in mA (R315). -/
  | spkTrip (high : Bool) (legN : Bool) (diag : Nat) (m : Mote)
  /-- The amplifier reaches deg degrees (R315). -/
  | spkThermalTrip (deg : Int)
  /-- The amplifier cools to deg degrees (R315). -/
  | spkThermalRelease (deg : Int)
  /-- Lifeline channel c, or the event template (16), is checked on STARTING (R321). -/
  | llbChannelStart (c : Fin 17)
  /-- The packet of channel c is due (R323). -/
  | llbPacketDue (c : Fin 16)
  /-- A media packet of channel who, or an event frame (16), has not begun in time (R325). -/
  | llbTxDrop (who : Fin 17)
  /-- A CH0 frame that matches channel c (R326). -/
  | llbRxPacket (c : Fin 16) (data : Bytes)
  /-- SILENT_RND rounds without a good packet (R328). -/
  | rxSilent (c : Fin 16)
  /-- A stopping lifeline channel or template reaches quiescence (R331). -/
  | llbStopped (c : Fin 17)
  /-- A block is done; upset: how often its encoding failed the proof (R338). -/
  | cmpBlockDone (upset : Fin 3)
  /-- Guyline GO with OP RESET and the fields INCR, FN and LEN (R351). -/
  | glReset (incr : Bool) (fn : Fin 256) (len : Fin 128)
  /-- Guyline GO with OP SEARCH and the fields INCR, FN and LEN (R354). -/
  | glSearch (incr : Bool) (fn : Fin 256) (len : Fin 128)
  /-- Guyline GO with OP READ and the fields INCR, FN and LEN (R349). -/
  | glRead (incr : Bool) (fn : Fin 256) (len : Fin 128)
  /-- Guyline GO with OP WRITE and the fields INCR, FN and LEN (R352). -/
  | glWrite (incr : Bool) (fn : Fin 256) (len : Fin 128)
  /-- A Guyline transaction ends (R351). -/
  | glDone (e : GlEnd)
  /-- A search pass ends: presence, and the read-back bit pairs of its 96 positions (R354). -/
  | glSearchPass (present : Bool) (subs : List (Bool × Bool))
  /-- REMIND_S seconds with input i active (R366). -/
  | gpiRemind (ix : Fin 16)
  /-- A write of w to FLD_GPI_LATCH (R367). -/
  | gpiLatchClear (w : BitVec 16)
  /-- FLD_GPO.OUT is written v (R368). -/
  | gpoWrite (v : BitVec 8)
  /-- SMBus command 0x01 (R370). -/
  | smbSetAddr (pecOk : Bool) (a : Nat)
  /-- SMBus command 0x02 (R370). -/
  | smbRegRead (pecOk : Bool)
  /-- SMBus command 0x03 (R370). -/
  | smbRegWrite (pecOk : Bool) (v : Word)
  /-- SMBus command 0x10 (R370). -/
  | smbStatusRead (pecOk : Bool)
  /-- SMBus command 0x20 (R370). -/
  | smbColdReset (pecOk : Bool) (key : Byte)
  /-- SMBus command 0x21 (R370). -/
  | smbWarmReset (pecOk : Bool) (key : Byte)
  /-- SMBus command 0x22 (R370). -/
  | smbWake (pecOk : Bool) (key : Byte)
  /-- A write of FLD_MI2Cm_CMD with GO (R371). -/
  | mi2cGo (port : Fin 2) (v : Word)
  /-- A module I2C transaction ends (R371). -/
  | mi2cDone (port : Fin 2) (e : I2cEnd)
  /-- A write of FLD_QSPI_CMD with GO (R372). -/
  | qspiGo (v : Word)
  /-- A flash command completes (R372). -/
  | qspiDone (data : Bytes)
  /-- The table word at offset off fails parity (R387). -/
  | tableParityError (off : Nat)
  /-- A loopback test ends with the RESULT code res (R377). -/
  | loopbackEnd (res : Fin 4)
  /-- A lane has stayed unlocked for 8 fr (R380). -/
  | laneFenceTimeout (n : Fin 4) (m : Mote)
  /-- SHD_FENCE_CTRL.FENCE is written for channel n (R380). -/
  | fence (n : Fin 4)
  /-- The wire and queues of a fencing channel are clear (R380). -/
  | fenceComplete (n : Fin 4)
  /-- SHD_FENCE_CTRL.LIFT is written for channel n (R382). -/
  | lift (n : Fin 4)
  /-- The frame event after LIFT (R382). -/
  | liftApply (n : Fin 4)
  /-- SHD_REPORT_CTRL.TAKE is written at mote m (R391). -/
  | reportTake (m : Mote)
  /-- Pegline chain lane A or B loses 8b/10b sync (R270). -/
  | pegLaneSyncLost (chB : Bool)
  /-- Pegline chain lane A or B gains 8b/10b sync (R269). -/
  | pegLaneSyncGained (chB : Bool)
  /-- Remote-fault ordered sets begin to arrive (R158). -/
  | remoteFaultReceived (n : Fin 4)
  /-- Remote-fault ordered sets stop arriving (R158). -/
  | remoteFaultCleared (n : Fin 4)
  /-- LOSn changes to level b (R157). -/
  | losChange (n : Fin 4) (b : Bool)
  /-- The synthesiser of uplink lane n loses lock at mote m (R380). -/
  | laneUnlock (n : Fin 4) (m : Mote)
  /-- The synthesiser of uplink lane n regains lock (R382). -/
  | laneRelock (n : Fin 4)
  /-- A port frame passes on the wire (R300). -/
  | sapWireFrame (p : Fin 8) (w : SapWire)
  /-- XREF is lost (R30). -/
  | xrefLoss
  /-- The first second of held operation ends (R31). -/
  | heldBound
  /-- XREF has been back for RETURN_RND rounds (R32). -/
  | xrefReturned
  /-- CLK reaches lock again (R32). -/
  | xrefBack
  /-- The pending jump is applied (R43). -/
  | jumpApply
  /-- The pending slew starts (R43). -/
  | slewApply
  /-- The last CLK of a slew (R43). -/
  | slewDone
  /-- HRT_CTRL.LOAD is written 1 (R45). -/
  | load
  /-- The pending load is written into the copies (R45). -/
  | loadApply
  /-- HRT_CTRL.FAULT_CLR is written 1 (R47). -/
  | faultClr
  /-- HRT_HOST_WDOG frames without a rate or GO write (R47). -/
  | hostWdog
  /-- HRT_HOLD_LIMIT frames in HOLDOVER (R47). -/
  | holdExpired
  /-- MISS seconds without an edge (R47). -/
  | ppsMiss
  /-- The PPS_OUT width count expires (R49). -/
  | ppsOutEnd
  /-- The FSYNC_OUT width count expires (R50). -/
  | fsyncOutEnd
  /-- The first dying-gasp copy completes (R67). -/
  | gaspSent
  /-- REF_HOLD_FR frames after HOST_PWR_EN fell (R72). -/
  | refoutStop
  /-- REF_DELAY_FR frames after HOST_PWR_EN rose (R72). -/
  | refoutStart
  /-- RAT_CTRL.BIV_REQ is written 1 (R74). -/
  | bivReq
  /-- The restore to LIFELINE is applied (R75). -/
  | wakeRestoreApply
  /-- A read of RAT_RET_DATA (R68). -/
  | retDataRead
  /-- VDD_AON fails or POR_N is low (R76). -/
  | powerOnReset
  /-- VDD_AON good for 1 ms with POR_N high (R82). -/
  | porEnd
  /-- The PLL locks (R82). -/
  | pllLock
  /-- SYS_RESET_N has been low for 1 us (R76). -/
  | sysResetN
  /-- SYS_RESET_N rises (R77). -/
  | sysResetRelease
  /-- RST_CTRL.COLD is written with the key (R77). -/
  | cold
  /-- RST_CTRL.WARM is written with the key (R77). -/
  | warm
  /-- The 1 fr of a cold reset ends (R76). -/
  | coldResetEnd
  /-- The 1 fr of a warm reset ends (R84). -/
  | warmEnd
  /-- The next timed step of POWER_UP (R85). -/
  | powerUpStep
  /-- PMEM initialisation completes (R85). -/
  | pmemInitDone
  /-- The calibration page and the records have been applied (R97). -/
  | applyDone
  /-- The boot admission sum completes (R98). -/
  | admitDone
  /-- ROM defaults are loaded (R101). -/
  | defaultsDone
  /-- The frame event after ADMIT or DEFAULTS (R89). -/
  | bootDone
  /-- RST_CTRL.RELEASE is written 1 (R102). -/
  | release
  /-- The frame event after RELEASE (R102). -/
  | holdExit
  /-- PERST_N is asserted (R109). -/
  | perstAssert
  /-- PERST_N is released (R107). -/
  | perstRelease
  /-- REFOUT has run for 8 fr (R107). -/
  | refoutReady
  /-- The PCIe link goes down (R109). -/
  | hifLinkDown
  /-- A hot reset is received (R109). -/
  | hotReset
  /-- HIF_CTRL.LINK_EN is written from 1 to 0 (R109). -/
  | linkEnClear
  /-- VF Enable is cleared (R118). -/
  | vfEnableClear
  /-- The latent-error check of the recovering streams (R209). -/
  | latentCheck
  /-- PEG_SCHED_CTRL.COMMIT is written (R244). -/
  | pegSchedCommit
  /-- PEG_SCHED_CTRL.CANCEL is written (R244). -/
  | pegSchedCancel
  /-- The swap time of a schedule bank arrives (R245). -/
  | pegSchedSwap
  /-- A claim backoff ends (R254). -/
  | claimBackoffEnd
  /-- Pegline passes from STARTING to ON (R256). -/
  | pegOn
  /-- Pegline reaches quiescence (R256). -/
  | pegStopped
  /-- The listen timer expires (R262). -/
  | listenTimeout
  /-- No response to 16 cold-start frames (R261). -/
  | coldstartTimeout
  /-- The end of slot 63 (R267). -/
  | syncRoundCompute
  /-- A ring break is seen (R272). -/
  | ringBreak
  /-- The ring is whole again (R272). -/
  | ringHeal
  /-- The first idle position of the Leash lane with a mirror frame due (R278). -/
  | mirrorSend
  /-- The mirror lane is up (R276). -/
  | laneUp
  /-- The mirror lane is down (R276). -/
  | laneDown
  /-- The device becomes eligible (R284). -/
  | leashEligible
  /-- The device ceases to be eligible (R288). -/
  | leashIneligible
  /-- Two frame events in CLAIMING without a yield (R291). -/
  | leashTake
  /-- LSH_CTRL.RELEASE is written 1 (R292). -/
  | leashRelease
  /-- A Leash backoff expires (R290). -/
  | backoffEnd
  /-- The lease line disagrees with the mirror lane for GUARD_FR frames (R293). -/
  | lineFault
  /-- LSH_HOLD_IN has stayed low for GUARD_FR frames in Bivouac (R295). -/
  | wakeLease
  /-- SPK_CTRL.EN is written 1 (R316). -/
  | spkEnable
  /-- SPK_CTRL.EN is written 0 (R316). -/
  | spkDisable
  /-- A speaker ramp completes (R316). -/
  | spkRampDone
  /-- 800 fr after a trip (R316). -/
  | spkRetry
  /-- 8,000 fr of clean play (R316). -/
  | spkRecovered
  /-- SPK_CTRL.FAULT_CLR is written 1 (R316). -/
  | spkFaultClr
  /-- VSPK falls below 4.10 V (R406). -/
  | vspkLow
  /-- VSPK rises above 4.30 V (R406). -/
  | vspkGood
  /-- An event frame copy is due (R330). -/
  | evCopyDue
  /-- The engine takes the next job, of OP 0 (R336). -/
  | cmpCompressStatic
  /-- The engine takes the next job, of OP 1 (R336). -/
  | cmpCompressDynamic
  /-- The engine takes the next job, of OP 2 (R340). -/
  | cmpDecompress
  /-- The engine takes the next job, of OP 3 (R345). -/
  | cmpSave
  /-- The engine takes the next job, of OP 4 (R345). -/
  | cmpRestore
  /-- A job ends (R341). -/
  | cmpJobEnd
  /-- A running job stops at a block boundary (R342). -/
  | cmpJobStop
  /-- The engine reaches quiescence (R344). -/
  | cmpStopped
  /-- A Guyline backoff ends (R350). -/
  | glBackoffEnd
  /-- An attach pulse on the Guyline: a low of 12 to 28 gt that this device did not drive (R347, R353). -/
  | glAttach
  /-- The OX4 starts a search by itself (R353). -/
  | autoSearch
  /-- FLD_CELL_CTRL.SAG_START is written (R361). -/
  | sagStart
  /-- A due automatic sag test starts (R361). -/
  | sagAutoStart
  /-- PREP ends (R361). -/
  | sagLoadOn
  /-- LOAD ends (R361). -/
  | sagLoadOff
  /-- RECOVER ends (R362). -/
  | sagCompute
  /-- The life record is written (R361). -/
  | sagDone
  /-- FLD_CELL_CTRL.SAG_ABORT is written (R361). -/
  | sagAbort
  /-- 512 fr of a test have passed (R363). -/
  | sagCheck
  /-- FLD_CELL_CTRL.EOL_CLR is written (R360). -/
  | eolClr
  /-- The SMBus clock has been held low for 25 to 35 ms (R369). -/
  | smbClockLow
  /-- The TAP instruction BYPASS is loaded (R374). -/
  | tapBypass
  /-- The TAP instruction IDCODE is loaded (R374). -/
  | tapIdcode
  /-- The TAP instruction SAMPLE/PRELOAD is loaded (R374). -/
  | tapSamplePreload
  /-- The TAP instruction EXTEST is loaded (R374). -/
  | tapExtest
  /-- The TAP instruction CLAMP is loaded (R374). -/
  | tapClamp
  /-- The TAP instruction HIGHZ is loaded (R374). -/
  | tapHighz
  /-- DECAY_SF superframes have passed (R378). -/
  | bucketDecay
  /-- LB_SF superframes have passed (R377). -/
  | loopbackStart
  deriving DecidableEq, Repr

end Sys2Proof
end

