-- ==== Sys2Proof/Decode.lean ====
section
/-!
DEFINITION. Decode.lean: the commands that words spell. spec/opcode_table.json gives no row of this block any bits (every
row's list of fields is empty): its commands come from buses, pins, lines and time, not from encoded words.
-/

namespace Sys2Proof

/-- The command that the word w of nbits bits spells: none, as no row of the table has bits. -/
def decodeTableWord (_nbits _w : Nat) : Option Instr := none

end Sys2Proof
end

