-- ==== Sys2Proof/Config.lean ====
section
/-!
DEFINITION. Config.lean: what the spec leaves open. Every constant here is opaque: no body, so that a statement about
it holds for every value (notes/assumptions rows name each).
-/

namespace Sys2Proof.Config

/-- The 64-bit die identity, distinct for every OX4 made (GLB_DIE_ID field table). -/
opaque dieId : BitVec 64

/-- The free values: the n-th value that the spec leaves to chance or to the implementation. State.dev.freeIx counts
them; nothing is known of any of them (assumption log 3). -/
opaque free : Nat → Nat

/-- Where capability k of a function stands in its configuration space, as byte offset: 0 PM, 1 PCI Express, 2 MSI-X, 3 AER,
4 ARI, 5 SR-IOV; PF0 or a VF (assumption log 66). -/
opaque capAt : (vf : Bool) → (k : Nat) → Nat

/-! ### The compression engine (chapter 16) -/

/-- The matches that OP op finds in a block, given the window: (0, byte) a literal, (length, distance) a match (R336). -/
opaque cmpTokens : (op : Nat) → (win block : List (BitVec 8)) → List (Nat × Nat)

/-- The dynamic-table encoding of matches after the three header bits of its block (R336). -/
opaque cmpDynamic : List (Nat × Nat) → List Bool

/-- Byte i of the LENS area of a saved decompression context that stands inside a header whose bits do not fit BITBUF. -/
opaque blobLens : List Bool → Nat → BitVec 4

/-- The header bits that such an area and BITBUF stand for. -/
opaque blobBits : List Nat → List Bool → List Bool

end Sys2Proof.Config
end

