-- ==== Sys2Proof/Machine/Regs.lean ====
section
/-!
DEFINITION. Machine/Regs.lean: the fields of every register of PF0 BAR0, each where its field table places it
(the block chapters of spec/, and Table 19.2 for the offsets). `X.F` is field F of register X; for an array of
registers the indices are arguments, in the order of the register's name. `X.addr` is the register's byte offset.
`INT_VF_VIEWf` takes f - 1.
-/

namespace Sys2Proof.Machine

/-! ### GLB (chapter 19) -/

def GLB_ID.addr : Nat := 0x0
def GLB_ID.STEP : Field := ⟨GLB_ID.addr, 0, 16⟩
def GLB_ID.DEVICE : Field := ⟨GLB_ID.addr, 16, 16⟩
def GLB_BADWR.addr : Nat := 0x4
def GLB_BADWR.COUNT : Field := ⟨GLB_BADWR.addr, 0, 32⟩
def GLB_BADWR_INFO.addr : Nat := 0x8
def GLB_BADWR_INFO.OFFSET : Field := ⟨GLB_BADWR_INFO.addr, 0, 22⟩
def GLB_BADWR_INFO.SRC : Field := ⟨GLB_BADWR_INFO.addr, 22, 2⟩
def GLB_BADWR_INFO.FN : Field := ⟨GLB_BADWR_INFO.addr, 24, 4⟩
def GLB_DIE_ID_LO.addr : Nat := 0xC
def GLB_DIE_ID_LO.ID : Field := ⟨GLB_DIE_ID_LO.addr, 0, 32⟩
def GLB_DIE_ID_HI.addr : Nat := 0x10
def GLB_DIE_ID_HI.ID : Field := ⟨GLB_DIE_ID_HI.addr, 0, 32⟩
def GLB_SCRATCH.addr : Nat := 0x14
def GLB_SCRATCH.DATA : Field := ⟨GLB_SCRATCH.addr, 0, 32⟩

/-! ### CLK (chapter 02) -/

def CLK_CTRL.addr : Nat := 0x4000
def CLK_CTRL.REFOUT_EN : Field := ⟨CLK_CTRL.addr, 0, 1⟩
def CLK_CTRL.MCLK_A_EN : Field := ⟨CLK_CTRL.addr, 1, 1⟩
def CLK_CTRL.MCLK_B_EN : Field := ⟨CLK_CTRL.addr, 2, 1⟩
def CLK_STATUS.addr : Nat := 0x4004
def CLK_STATUS.PLL_LOCK : Field := ⟨CLK_STATUS.addr, 0, 1⟩
def CLK_STATUS.XREF_LOST : Field := ⟨CLK_STATUS.addr, 1, 1⟩
def CLK_STATUS.HELD : Field := ⟨CLK_STATUS.addr, 2, 1⟩
def CLK_STATUS.RELOCKING : Field := ⟨CLK_STATUS.addr, 3, 1⟩
def CLK_STATUS.LANE_LOCK : Field := ⟨CLK_STATUS.addr, 4, 4⟩
def CLK_STATUS.PEG_LANE_LOCK : Field := ⟨CLK_STATUS.addr, 8, 1⟩
def CLK_STATUS.LSH_LANE_LOCK : Field := ⟨CLK_STATUS.addr, 9, 1⟩
def CLK_STATUS.REFOUT_ON : Field := ⟨CLK_STATUS.addr, 10, 1⟩
def CLK_STATUS.MCLK_LOCK : Field := ⟨CLK_STATUS.addr, 11, 2⟩
def CLK_EVENT.addr : Nat := 0x4008
def CLK_EVENT.XREF_LOSS : Field := ⟨CLK_EVENT.addr, 0, 1⟩
def CLK_EVENT.XREF_BACK : Field := ⟨CLK_EVENT.addr, 1, 1⟩
def CLK_EVENT.HELD_BOUND : Field := ⟨CLK_EVENT.addr, 2, 1⟩
def CLK_EVENT.LANE_UNLOCK : Field := ⟨CLK_EVENT.addr, 3, 1⟩
def CLK_XMON_CFG.addr : Nat := 0x400C
def CLK_XMON_CFG.LOSS_US : Field := ⟨CLK_XMON_CFG.addr, 0, 8⟩
def CLK_XMON_CFG.RETURN_RND : Field := ⟨CLK_XMON_CFG.addr, 8, 8⟩
def CLK_XMON_CFG.SLEW_PPR : Field := ⟨CLK_XMON_CFG.addr, 16, 4⟩
def CLK_MCLK_A_NUM.addr : Nat := 0x4020
def CLK_MCLK_A_NUM.NUM : Field := ⟨CLK_MCLK_A_NUM.addr, 0, 16⟩
def CLK_MCLK_A_DEN.addr : Nat := 0x4024
def CLK_MCLK_A_DEN.DEN : Field := ⟨CLK_MCLK_A_DEN.addr, 0, 24⟩
def CLK_MCLK_B_NUM.addr : Nat := 0x4028
def CLK_MCLK_B_NUM.NUM : Field := ⟨CLK_MCLK_B_NUM.addr, 0, 16⟩
def CLK_MCLK_B_DEN.addr : Nat := 0x402C
def CLK_MCLK_B_DEN.DEN : Field := ⟨CLK_MCLK_B_DEN.addr, 0, 24⟩

/-! ### HRT (chapter 02) -/

def HRT_CTRL.addr : Nat := 0x8000
def HRT_CTRL.SRC : Field := ⟨HRT_CTRL.addr, 0, 2⟩
def HRT_CTRL.HOST_LOCK : Field := ⟨HRT_CTRL.addr, 2, 1⟩
def HRT_CTRL.LOAD : Field := ⟨HRT_CTRL.addr, 3, 1⟩
def HRT_CTRL.FAULT_CLR : Field := ⟨HRT_CTRL.addr, 4, 1⟩
def HRT_STATUS.addr : Nat := 0x8004
def HRT_STATUS.STATE : Field := ⟨HRT_STATUS.addr, 0, 3⟩
def HRT_STATUS.VALID : Field := ⟨HRT_STATUS.addr, 3, 1⟩
def HRT_STATUS.TRACEABLE : Field := ⟨HRT_STATUS.addr, 4, 1⟩
def HRT_STATUS.XREF_LOST : Field := ⟨HRT_STATUS.addr, 5, 1⟩
def HRT_STATUS.SLEWING : Field := ⟨HRT_STATUS.addr, 6, 1⟩
def HRT_STATUS.LOAD_PENDING : Field := ⟨HRT_STATUS.addr, 7, 1⟩
def HRT_STATUS.ADJ_PENDING : Field := ⟨HRT_STATUS.addr, 8, 1⟩
def HRT_STATUS.RATE_CLAMPED : Field := ⟨HRT_STATUS.addr, 9, 1⟩
def HRT_EVENT.addr : Nat := 0x8008
def HRT_EVENT.STATE_CHG : Field := ⟨HRT_EVENT.addr, 0, 1⟩
def HRT_EVENT.HEARTH_FAULT : Field := ⟨HRT_EVENT.addr, 1, 1⟩
def HRT_EVENT.VOTE_FIX : Field := ⟨HRT_EVENT.addr, 2, 1⟩
def HRT_EVENT.STEPPED : Field := ⟨HRT_EVENT.addr, 3, 1⟩
def HRT_EVENT.HOLD_EXPIRED : Field := ⟨HRT_EVENT.addr, 4, 1⟩
def HRT_EVENT.SRC_CONFLICT : Field := ⟨HRT_EVENT.addr, 5, 1⟩
def HRT_EVENT.RATE_CLAMP : Field := ⟨HRT_EVENT.addr, 6, 1⟩
def HRT_EVENT.ERA_WRAP : Field := ⟨HRT_EVENT.addr, 7, 1⟩
def HRT_EVENT.PPS_MISS : Field := ⟨HRT_EVENT.addr, 8, 1⟩
def HRT_EVENT.SLEW_DONE : Field := ⟨HRT_EVENT.addr, 9, 1⟩
def HRT_EVENT.HOST_WDOG : Field := ⟨HRT_EVENT.addr, 10, 1⟩
def HRT_NOW_LO.addr : Nat := 0x8010
def HRT_NOW_LO.NOW : Field := ⟨HRT_NOW_LO.addr, 0, 32⟩
def HRT_NOW_HI.addr : Nat := 0x8014
def HRT_NOW_HI.NOW : Field := ⟨HRT_NOW_HI.addr, 0, 32⟩
def HRT_RATE.addr : Nat := 0x8018
def HRT_RATE.RATE : Field := ⟨HRT_RATE.addr, 0, 32⟩
def HRT_ADJ_LO.addr : Nat := 0x8020
def HRT_ADJ_LO.ADJ : Field := ⟨HRT_ADJ_LO.addr, 0, 32⟩
def HRT_ADJ_HI.addr : Nat := 0x8024
def HRT_ADJ_HI.ADJ : Field := ⟨HRT_ADJ_HI.addr, 0, 16⟩
def HRT_ADJ_CTRL.addr : Nat := 0x8028
def HRT_ADJ_CTRL.GO : Field := ⟨HRT_ADJ_CTRL.addr, 0, 1⟩
def HRT_ADJ_CTRL.MODE : Field := ⟨HRT_ADJ_CTRL.addr, 1, 1⟩
def HRT_ADJ_CTRL.SLEW_PPM : Field := ⟨HRT_ADJ_CTRL.addr, 2, 9⟩
def HRT_SLEW_LEFT_LO.addr : Nat := 0x802C
def HRT_SLEW_LEFT_LO.LEFT : Field := ⟨HRT_SLEW_LEFT_LO.addr, 0, 32⟩
def HRT_SLEW_LEFT_HI.addr : Nat := 0x8030
def HRT_SLEW_LEFT_HI.LEFT : Field := ⟨HRT_SLEW_LEFT_HI.addr, 0, 16⟩
def HRT_LOAD_LO.addr : Nat := 0x8038
def HRT_LOAD_LO.LOAD : Field := ⟨HRT_LOAD_LO.addr, 0, 32⟩
def HRT_LOAD_HI.addr : Nat := 0x803C
def HRT_LOAD_HI.LOAD : Field := ⟨HRT_LOAD_HI.addr, 0, 32⟩
def HRT_ERA.addr : Nat := 0x8040
def HRT_ERA.ERA : Field := ⟨HRT_ERA.addr, 0, 4⟩
def HRT_VOTE_CNT.addr : Nat := 0x8044
def HRT_VOTE_CNT.FIX_A : Field := ⟨HRT_VOTE_CNT.addr, 0, 8⟩
def HRT_VOTE_CNT.FIX_B : Field := ⟨HRT_VOTE_CNT.addr, 8, 8⟩
def HRT_VOTE_CNT.FIX_C : Field := ⟨HRT_VOTE_CNT.addr, 16, 8⟩
def HRT_VOTE_CNT.NOMAJ : Field := ⟨HRT_VOTE_CNT.addr, 24, 8⟩
def HRT_HOST_WDOG.addr : Nat := 0x8048
def HRT_HOST_WDOG.FRAMES : Field := ⟨HRT_HOST_WDOG.addr, 0, 16⟩
def HRT_HOLD_LIMIT.addr : Nat := 0x804C
def HRT_HOLD_LIMIT.FRAMES : Field := ⟨HRT_HOLD_LIMIT.addr, 0, 32⟩
def HRT_PPS_IN_CFG.addr : Nat := 0x8050
def HRT_PPS_IN_CFG.EN : Field := ⟨HRT_PPS_IN_CFG.addr, 0, 1⟩
def HRT_PPS_IN_CFG.EDGE : Field := ⟨HRT_PPS_IN_CFG.addr, 1, 1⟩
def HRT_PPS_IN_CFG.MISS : Field := ⟨HRT_PPS_IN_CFG.addr, 4, 4⟩
def HRT_PPS_IN_CFG.COMP : Field := ⟨HRT_PPS_IN_CFG.addr, 16, 16⟩
def HRT_PPS_CAP_LO.addr : Nat := 0x8054
def HRT_PPS_CAP_LO.CAP : Field := ⟨HRT_PPS_CAP_LO.addr, 0, 32⟩
def HRT_PPS_CAP_HI.addr : Nat := 0x8058
def HRT_PPS_CAP_HI.CAP : Field := ⟨HRT_PPS_CAP_HI.addr, 0, 32⟩
def HRT_PPS_SERVO.addr : Nat := 0x805C
def HRT_PPS_SERVO.PG : Field := ⟨HRT_PPS_SERVO.addr, 0, 4⟩
def HRT_PPS_SERVO.FG : Field := ⟨HRT_PPS_SERVO.addr, 4, 4⟩
def HRT_PPS_SERVO.JUMP_MT : Field := ⟨HRT_PPS_SERVO.addr, 8, 20⟩
def HRT_PPS_LOCKWIN.addr : Nat := 0x8060
def HRT_PPS_LOCKWIN.WIN : Field := ⟨HRT_PPS_LOCKWIN.addr, 0, 20⟩
def HRT_PPS_ERR.addr : Nat := 0x8064
def HRT_PPS_ERR.E : Field := ⟨HRT_PPS_ERR.addr, 0, 32⟩
def HRT_PPS_OUT_CFG.addr : Nat := 0x8068
def HRT_PPS_OUT_CFG.EN : Field := ⟨HRT_PPS_OUT_CFG.addr, 0, 1⟩
def HRT_PPS_OUT_CFG.POL : Field := ⟨HRT_PPS_OUT_CFG.addr, 1, 1⟩
def HRT_PPS_OUT_CFG.WIDTH_FR : Field := ⟨HRT_PPS_OUT_CFG.addr, 2, 12⟩
def HRT_PPS_OUT_COMP.addr : Nat := 0x806C
def HRT_PPS_OUT_COMP.COMP : Field := ⟨HRT_PPS_OUT_COMP.addr, 0, 32⟩
def HRT_FSYNC_CFG.addr : Nat := 0x8070
def HRT_FSYNC_CFG.EN : Field := ⟨HRT_FSYNC_CFG.addr, 0, 1⟩
def HRT_FSYNC_CFG.POL : Field := ⟨HRT_FSYNC_CFG.addr, 1, 1⟩
def HRT_FSYNC_CFG.WIDTH_CLK : Field := ⟨HRT_FSYNC_CFG.addr, 2, 12⟩
def HRT_SNAP_CTRL.addr : Nat := 0x8074
def HRT_SNAP_CTRL.TAKE : Field := ⟨HRT_SNAP_CTRL.addr, 0, 1⟩
def HRT_SNAP_LO.addr : Nat := 0x8078
def HRT_SNAP_LO.SNAP : Field := ⟨HRT_SNAP_LO.addr, 0, 32⟩
def HRT_SNAP_HI.addr : Nat := 0x807C
def HRT_SNAP_HI.SNAP : Field := ⟨HRT_SNAP_HI.addr, 0, 32⟩

/-! ### RAT (chapter 03) -/

def RAT_CTRL.addr : Nat := 0xC000
def RAT_CTRL.CEIL : Field := ⟨RAT_CTRL.addr, 0, 3⟩
def RAT_CTRL.BIV_REQ : Field := ⟨RAT_CTRL.addr, 4, 1⟩
def RAT_CTRL.BIV_MODE : Field := ⟨RAT_CTRL.addr, 5, 1⟩
def RAT_CTRL.BIV_PMEM_OFF : Field := ⟨RAT_CTRL.addr, 6, 1⟩
def RAT_STATUS.addr : Nat := 0xC004
def RAT_STATUS.TIER : Field := ⟨RAT_STATUS.addr, 0, 3⟩
def RAT_STATUS.TARGET : Field := ⟨RAT_STATUS.addr, 3, 3⟩
def RAT_STATUS.PHASE : Field := ⟨RAT_STATUS.addr, 6, 2⟩
def RAT_STATUS.CAP_FEED : Field := ⟨RAT_STATUS.addr, 8, 3⟩
def RAT_STATUS.CAP_THERM : Field := ⟨RAT_STATUS.addr, 11, 3⟩
def RAT_STATUS.CAP_LOSS : Field := ⟨RAT_STATUS.addr, 14, 3⟩
def RAT_STATUS.CAP_HEARTH : Field := ⟨RAT_STATUS.addr, 17, 1⟩
def RAT_STATUS.LOSS : Field := ⟨RAT_STATUS.addr, 18, 1⟩
def RAT_STATUS.RECOVERING : Field := ⟨RAT_STATUS.addr, 19, 1⟩
def RAT_STATUS.DWELL : Field := ⟨RAT_STATUS.addr, 20, 8⟩
def RAT_STATUS.BIV_CAUSE : Field := ⟨RAT_STATUS.addr, 28, 2⟩
def RAT_EVENT.addr : Nat := 0xC008
def RAT_EVENT.TIER_ANNOUNCE : Field := ⟨RAT_EVENT.addr, 0, 1⟩
def RAT_EVENT.TIER_DONE : Field := ⟨RAT_EVENT.addr, 1, 1⟩
def RAT_EVENT.STEP_CANCEL : Field := ⟨RAT_EVENT.addr, 2, 1⟩
def RAT_EVENT.FEED_LOSS : Field := ⟨RAT_EVENT.addr, 3, 1⟩
def RAT_EVENT.FEED_RETURN : Field := ⟨RAT_EVENT.addr, 4, 1⟩
def RAT_EVENT.THERM_CAP : Field := ⟨RAT_EVENT.addr, 5, 1⟩
def RAT_EVENT.CELL_LOW : Field := ⟨RAT_EVENT.addr, 6, 1⟩
def RAT_EVENT.WAKE : Field := ⟨RAT_EVENT.addr, 7, 1⟩
def RAT_EVENT.WAKE_HELD : Field := ⟨RAT_EVENT.addr, 8, 1⟩
def RAT_EVENT.OFF_ACCESS : Field := ⟨RAT_EVENT.addr, 9, 1⟩
def RAT_EVENT.GASP_SENT : Field := ⟨RAT_EVENT.addr, 10, 1⟩
def RAT_EVENT.GASP_SKIPPED : Field := ⟨RAT_EVENT.addr, 11, 1⟩
def RAT_EVENT.LOSS_RECORD : Field := ⟨RAT_EVENT.addr, 12, 1⟩
def RAT_DOM_STATUS.addr : Nat := 0xC00C
def RAT_DOM_STATUS.PD_ON : Field := ⟨RAT_DOM_STATUS.addr, 0, 7⟩
def RAT_DOM_STATUS.PMEM_SR : Field := ⟨RAT_DOM_STATUS.addr, 7, 1⟩
def RAT_DOM_STATUS.LANE_ON : Field := ⟨RAT_DOM_STATUS.addr, 8, 4⟩
def RAT_DOM_STATUS.PEG_LANES_ON : Field := ⟨RAT_DOM_STATUS.addr, 12, 1⟩
def RAT_DOM_STATUS.LSH_LANE_ON : Field := ⟨RAT_DOM_STATUS.addr, 13, 1⟩
def RAT_THR_FULL.addr : Nat := 0xC010
def RAT_THR_FULL.ENTER : Field := ⟨RAT_THR_FULL.addr, 0, 12⟩
def RAT_THR_FULL.HOLD : Field := ⟨RAT_THR_FULL.addr, 16, 12⟩
def RAT_THR_TRIM.addr : Nat := 0xC014
def RAT_THR_TRIM.ENTER : Field := ⟨RAT_THR_TRIM.addr, 0, 12⟩
def RAT_THR_TRIM.HOLD : Field := ⟨RAT_THR_TRIM.addr, 16, 12⟩
def RAT_THR_LEAN.addr : Nat := 0xC018
def RAT_THR_LEAN.ENTER : Field := ⟨RAT_THR_LEAN.addr, 0, 12⟩
def RAT_THR_LEAN.HOLD : Field := ⟨RAT_THR_LEAN.addr, 16, 12⟩
def RAT_THR_LOSS.addr : Nat := 0xC01C
def RAT_THR_LOSS.LOSS : Field := ⟨RAT_THR_LOSS.addr, 0, 12⟩
def RAT_THR_LOSS.RETURN : Field := ⟨RAT_THR_LOSS.addr, 16, 12⟩
def RAT_THR_LOSS.LOSS_N : Field := ⟨RAT_THR_LOSS.addr, 28, 4⟩
def RAT_THERM.addr : Nat := 0xC020
def RAT_THERM.TRIM_C : Field := ⟨RAT_THERM.addr, 0, 7⟩
def RAT_THERM.LEAN_C : Field := ⟨RAT_THERM.addr, 7, 7⟩
def RAT_THERM.LIFE_C : Field := ⟨RAT_THERM.addr, 14, 7⟩
def RAT_THERM.DEEP_C : Field := ⟨RAT_THERM.addr, 21, 7⟩
def RAT_THERM.HYST : Field := ⟨RAT_THERM.addr, 28, 4⟩
def RAT_DWELL.addr : Nat := 0xC024
def RAT_DWELL.DWELL_SF : Field := ⟨RAT_DWELL.addr, 0, 8⟩
def RAT_DWELL.FEED_RET_SF : Field := ⟨RAT_DWELL.addr, 8, 8⟩
def RAT_DWELL.FILT : Field := ⟨RAT_DWELL.addr, 16, 4⟩
def RAT_CELL_THR.addr : Nat := 0xC028
def RAT_CELL_THR.LISTEN_MV : Field := ⟨RAT_CELL_THR.addr, 0, 16⟩
def RAT_CELL_THR.DEEP_MV : Field := ⟨RAT_CELL_THR.addr, 16, 16⟩
def RAT_CELL_FLOOR.addr : Nat := 0xC02C
def RAT_CELL_FLOOR.MIN_MV : Field := ⟨RAT_CELL_FLOOR.addr, 0, 16⟩
def RAT_HOST_CFG.addr : Nat := 0xC030
def RAT_HOST_CFG.REF_DELAY_FR : Field := ⟨RAT_HOST_CFG.addr, 0, 16⟩
def RAT_HOST_CFG.REF_HOLD_FR : Field := ⟨RAT_HOST_CFG.addr, 16, 8⟩
def RAT_CHG.addr : Nat := 0xC034
def RAT_CHG.EN : Field := ⟨RAT_CHG.addr, 0, 1⟩
def RAT_CHG.LEVEL : Field := ⟨RAT_CHG.addr, 1, 1⟩
def RAT_CHG.INHIBIT : Field := ⟨RAT_CHG.addr, 2, 3⟩
def RAT_GASP_CFG.addr : Nat := 0xC038
def RAT_GASP_CFG.EN : Field := ⟨RAT_GASP_CFG.addr, 0, 1⟩
def RAT_GASP_CFG.COPIES : Field := ⟨RAT_GASP_CFG.addr, 1, 4⟩
def RAT_GASP_CFG.GATE_BYPASS : Field := ⟨RAT_GASP_CFG.addr, 5, 1⟩
def RAT_GASP_TPLk.addr (k : Nat) : Nat := 0xC040 + 0x4 * k
def RAT_GASP_TPLk.BYTES (k : Nat) : Field := ⟨RAT_GASP_TPLk.addr k, 0, 32⟩
def RAT_BIV_CFG.addr : Nat := 0xC080
def RAT_BIV_CFG.WAKE_PAT : Field := ⟨RAT_BIV_CFG.addr, 0, 1⟩
def RAT_BIV_CFG.WAKE_GPI : Field := ⟨RAT_BIV_CFG.addr, 1, 1⟩
def RAT_BIV_CFG.WAKE_TIMER : Field := ⟨RAT_BIV_CFG.addr, 2, 1⟩
def RAT_BIV_CFG.WAKE_LEASE : Field := ⟨RAT_BIV_CFG.addr, 3, 1⟩
def RAT_BIV_CFG.WAKE_SMB : Field := ⟨RAT_BIV_CFG.addr, 4, 1⟩
def RAT_BIV_CFG.GPI_MASK : Field := ⟨RAT_BIV_CFG.addr, 16, 16⟩
def RAT_BIV_TIMER_LO.addr : Nat := 0xC084
def RAT_BIV_TIMER_LO.TIME : Field := ⟨RAT_BIV_TIMER_LO.addr, 0, 32⟩
def RAT_BIV_TIMER_HI.addr : Nat := 0xC088
def RAT_BIV_TIMER_HI.TIME : Field := ⟨RAT_BIV_TIMER_HI.addr, 0, 32⟩
def RAT_WAKE_SRC.addr : Nat := 0xC08C
def RAT_WAKE_SRC.SRC : Field := ⟨RAT_WAKE_SRC.addr, 0, 7⟩
def RAT_WAKE_SRC.COUNT : Field := ⟨RAT_WAKE_SRC.addr, 16, 16⟩
def RAT_RIDE.addr : Nat := 0xC090
def RAT_RIDE.MS : Field := ⟨RAT_RIDE.addr, 0, 32⟩
def RAT_OFFACC.addr : Nat := 0xC094
def RAT_OFFACC.COUNT : Field := ⟨RAT_OFFACC.addr, 0, 16⟩
def RAT_OFFACC.DOMAIN : Field := ⟨RAT_OFFACC.addr, 16, 3⟩
def RAT_TIER_CNT.addr : Nat := 0xC098
def RAT_TIER_CNT.DOWN : Field := ⟨RAT_TIER_CNT.addr, 0, 16⟩
def RAT_TIER_CNT.UP : Field := ⟨RAT_TIER_CNT.addr, 16, 16⟩
def RAT_LOSS_CNT.addr : Nat := 0xC09C
def RAT_LOSS_CNT.LOSSES : Field := ⟨RAT_LOSS_CNT.addr, 0, 16⟩
def RAT_RET_ADDR.addr : Nat := 0xC0A0
def RAT_RET_ADDR.WORD : Field := ⟨RAT_RET_ADDR.addr, 2, 14⟩
def RAT_RET_DATA.addr : Nat := 0xC0A4
def RAT_RET_DATA.DATA : Field := ⟨RAT_RET_DATA.addr, 0, 32⟩
def RAT_BIV_DROP.addr : Nat := 0xC0A8
def RAT_BIV_DROP.FRAMES : Field := ⟨RAT_BIV_DROP.addr, 0, 32⟩

/-! ### RST (chapter 04) -/

def RST_CTRL.addr : Nat := 0x10000
def RST_CTRL.WARM : Field := ⟨RST_CTRL.addr, 0, 1⟩
def RST_CTRL.COLD : Field := ⟨RST_CTRL.addr, 1, 1⟩
def RST_CTRL.RELEASE : Field := ⟨RST_CTRL.addr, 2, 1⟩
def RST_CTRL.KEY : Field := ⟨RST_CTRL.addr, 8, 8⟩
def RST_CAUSE.addr : Nat := 0x10004
def RST_CAUSE.LAST : Field := ⟨RST_CAUSE.addr, 0, 6⟩
def RST_CAUSE.COUNT : Field := ⟨RST_CAUSE.addr, 16, 16⟩
def RST_BOOT_STATUS.addr : Nat := 0x10008
def RST_BOOT_STATUS.STATE : Field := ⟨RST_BOOT_STATUS.addr, 0, 4⟩
def RST_BOOT_STATUS.SLOT : Field := ⟨RST_BOOT_STATUS.addr, 4, 2⟩
def RST_BOOT_STATUS.CFG_DEFAULTED : Field := ⟨RST_BOOT_STATUS.addr, 6, 1⟩
def RST_BOOT_STATUS.HOLD : Field := ⟨RST_BOOT_STATUS.addr, 7, 1⟩
def RST_BOOT_STATUS.TAG_CHECKED : Field := ⟨RST_BOOT_STATUS.addr, 8, 1⟩
def RST_BOOT_STATUS.TAG_UNCHECKED : Field := ⟨RST_BOOT_STATUS.addr, 9, 1⟩
def RST_BOOT_STATUS.CAL_SRC : Field := ⟨RST_BOOT_STATUS.addr, 10, 2⟩
def RST_BOOT_STATUS.OVERBOOK : Field := ⟨RST_BOOT_STATUS.addr, 12, 1⟩
def RST_BOOT_STATUS.REJ_IN_CAL : Field := ⟨RST_BOOT_STATUS.addr, 13, 1⟩
def RST_BOOT_STATUS.RAIL_WAIT : Field := ⟨RST_BOOT_STATUS.addr, 16, 7⟩
def RST_BOOT_STATUS.XREF_WAIT : Field := ⟨RST_BOOT_STATUS.addr, 23, 1⟩
def RST_BOOT_GEN.addr : Nat := 0x1000C
def RST_BOOT_GEN.GEN : Field := ⟨RST_BOOT_GEN.addr, 0, 32⟩
def RST_SLOT_A.addr : Nat := 0x10010
def RST_SLOT_A.RESULT : Field := ⟨RST_SLOT_A.addr, 0, 4⟩
def RST_SLOT_A.FAIL_REC : Field := ⟨RST_SLOT_A.addr, 16, 16⟩
def RST_SLOT_B.addr : Nat := 0x10014
def RST_SLOT_B.RESULT : Field := ⟨RST_SLOT_B.addr, 0, 4⟩
def RST_SLOT_B.FAIL_REC : Field := ⟨RST_SLOT_B.addr, 16, 16⟩
def RST_SLOT_A_GEN.addr : Nat := 0x10018
def RST_SLOT_A_GEN.GEN : Field := ⟨RST_SLOT_A_GEN.addr, 0, 32⟩
def RST_SLOT_B_GEN.addr : Nat := 0x1001C
def RST_SLOT_B_GEN.GEN : Field := ⟨RST_SLOT_B_GEN.addr, 0, 32⟩
def RST_BOOT_TIME.addr : Nat := 0x10020
def RST_BOOT_TIME.FR : Field := ⟨RST_BOOT_TIME.addr, 0, 16⟩
def RST_BOOT_REJ.addr : Nat := 0x10024
def RST_BOOT_REJ.COUNT : Field := ⟨RST_BOOT_REJ.addr, 0, 16⟩
def RST_BOOT_REJ.FIRST_REC : Field := ⟨RST_BOOT_REJ.addr, 16, 16⟩
def RST_EVENT.addr : Nat := 0x10028
def RST_EVENT.BOOT_DONE : Field := ⟨RST_EVENT.addr, 0, 1⟩
def RST_EVENT.BOOT_REJECT : Field := ⟨RST_EVENT.addr, 1, 1⟩
def RST_EVENT.DEFAULTED : Field := ⟨RST_EVENT.addr, 2, 1⟩
def RST_EVENT.CAL_DEFAULT : Field := ⟨RST_EVENT.addr, 3, 1⟩
def RST_EVENT.OVERBOOK : Field := ⟨RST_EVENT.addr, 4, 1⟩
def RST_EVENT.RST_IGNORED : Field := ⟨RST_EVENT.addr, 5, 1⟩
def RST_OTP.addr : Nat := 0x1002C
def RST_OTP.KEY_PROG : Field := ⟨RST_OTP.addr, 0, 1⟩
def RST_OTP.REQUIRE_TAG : Field := ⟨RST_OTP.addr, 1, 1⟩

/-! ### HIF (chapter 05) -/

def HIF_CTRL.addr : Nat := 0x14000
def HIF_CTRL.LINK_EN : Field := ⟨HIF_CTRL.addr, 0, 1⟩
def HIF_CTRL.MAX_SPEED : Field := ⟨HIF_CTRL.addr, 1, 2⟩
def HIF_CTRL.MAX_WIDTH : Field := ⟨HIF_CTRL.addr, 3, 3⟩
def HIF_CTRL.ASPM_L1 : Field := ⟨HIF_CTRL.addr, 6, 1⟩
def HIF_STATUS.addr : Nat := 0x14004
def HIF_STATUS.DL_UP : Field := ⟨HIF_STATUS.addr, 0, 1⟩
def HIF_STATUS.SPEED : Field := ⟨HIF_STATUS.addr, 1, 3⟩
def HIF_STATUS.WIDTH : Field := ⟨HIF_STATUS.addr, 4, 3⟩
def HIF_STATUS.PERST : Field := ⟨HIF_STATUS.addr, 7, 1⟩
def HIF_STATUS.REFOUT_READY : Field := ⟨HIF_STATUS.addr, 8, 1⟩
def HIF_STATUS.VF_ENABLE : Field := ⟨HIF_STATUS.addr, 9, 1⟩
def HIF_STATUS.NUMVFS : Field := ⟨HIF_STATUS.addr, 10, 4⟩
def HIF_STATUS.PF0_DSTATE : Field := ⟨HIF_STATUS.addr, 14, 2⟩
def HIF_STATUS.CRS : Field := ⟨HIF_STATUS.addr, 16, 1⟩
def HIF_EVENT.addr : Nat := 0x14008
def HIF_EVENT.LINK_UP : Field := ⟨HIF_EVENT.addr, 0, 1⟩
def HIF_EVENT.LINK_DOWN : Field := ⟨HIF_EVENT.addr, 1, 1⟩
def HIF_EVENT.PERST : Field := ⟨HIF_EVENT.addr, 2, 1⟩
def HIF_EVENT.HOT_RESET : Field := ⟨HIF_EVENT.addr, 3, 1⟩
def HIF_EVENT.PF_FLR : Field := ⟨HIF_EVENT.addr, 4, 1⟩
def HIF_EVENT.VF_FLR : Field := ⟨HIF_EVENT.addr, 5, 1⟩
def HIF_EVENT.KENNEL_DONE : Field := ⟨HIF_EVENT.addr, 6, 1⟩
def HIF_EVENT.ASSIGN_REFUSED : Field := ⟨HIF_EVENT.addr, 7, 1⟩
def HIF_EVENT.PERST_EARLY : Field := ⟨HIF_EVENT.addr, 8, 1⟩
def HIF_EVENT.CPL_TIMEOUT : Field := ⟨HIF_EVENT.addr, 9, 1⟩
def HIF_EVENT.POISONED : Field := ⟨HIF_EVENT.addr, 10, 1⟩
def HIF_EVENT.VF_ENABLE_CHG : Field := ⟨HIF_EVENT.addr, 11, 1⟩
def HIF_EVENT.DSTATE_CHG : Field := ⟨HIF_EVENT.addr, 12, 1⟩
def HIF_SUBSYS.addr : Nat := 0x1400C
def HIF_SUBSYS.SSVID : Field := ⟨HIF_SUBSYS.addr, 0, 16⟩
def HIF_SUBSYS.SSID : Field := ⟨HIF_SUBSYS.addr, 16, 16⟩
def HIF_VF_STATE.addr : Nat := 0x14010
def HIF_VF_STATE.VF : Field := ⟨HIF_VF_STATE.addr, 0, 30⟩
def HIF_VF_STATE.PF0 : Field := ⟨HIF_VF_STATE.addr, 30, 2⟩
def HIF_VF_HOLD.addr : Nat := 0x14014
def HIF_VF_HOLD.HOLD : Field := ⟨HIF_VF_HOLD.addr, 1, 15⟩
def HIF_KENNEL_STAT.addr : Nat := 0x14018
def HIF_KENNEL_STAT.FN : Field := ⟨HIF_KENNEL_STAT.addr, 0, 4⟩
def HIF_KENNEL_STAT.CAUSE : Field := ⟨HIF_KENNEL_STAT.addr, 4, 4⟩
def HIF_KENNEL_STAT.FR : Field := ⟨HIF_KENNEL_STAT.addr, 8, 12⟩
def HIF_KENNEL_CNT.addr : Nat := 0x1401C
def HIF_KENNEL_CNT.CAUSES : Field := ⟨HIF_KENNEL_CNT.addr, 0, 16⟩
def HIF_KENNEL_DROP.addr : Nat := 0x14020
def HIF_KENNEL_DROP.FRAMES : Field := ⟨HIF_KENNEL_DROP.addr, 0, 32⟩
def HIF_EPOCHk.addr (k : Nat) : Nat := 0x14024 + 0x4 * k
def HIF_EPOCHk.EPOCH (k : Nat) : Field := ⟨HIF_EPOCHk.addr k, 0, 32⟩
def HIF_TAGS.addr : Nat := 0x14034
def HIF_TAGS.READS_OUT : Field := ⟨HIF_TAGS.addr, 0, 9⟩
def HIF_TAGS.ORPHANS : Field := ⟨HIF_TAGS.addr, 16, 9⟩
def HIF_DESC_INFLIGHT.addr : Nat := 0x14038
def HIF_DESC_INFLIGHT.COUNT : Field := ⟨HIF_DESC_INFLIGHT.addr, 0, 16⟩
def HIF_CTO_CNT.addr : Nat := 0x1403C
def HIF_CTO_CNT.COUNT : Field := ⟨HIF_CTO_CNT.addr, 0, 16⟩
def HIF_POISON_CNT.addr : Nat := 0x14040
def HIF_POISON_CNT.COUNT : Field := ⟨HIF_POISON_CNT.addr, 0, 16⟩
def HIF_UR_CNT.addr : Nat := 0x14044
def HIF_UR_CNT.COUNT : Field := ⟨HIF_UR_CNT.addr, 0, 16⟩
def HIF_FNf_QP.addr (f : Nat) : Nat := 0x14100 + 0x10 * f
def HIF_FNf_QP.BASE (f : Nat) : Field := ⟨HIF_FNf_QP.addr f, 0, 7⟩
def HIF_FNf_QP.COUNT (f : Nat) : Field := ⟨HIF_FNf_QP.addr f, 16, 8⟩
def HIF_FNf_AUD.addr (f : Nat) : Nat := 0x14104 + 0x10 * f
def HIF_FNf_AUD.OUT_BASE (f : Nat) : Field := ⟨HIF_FNf_AUD.addr f, 0, 6⟩
def HIF_FNf_AUD.OUT_CNT (f : Nat) : Field := ⟨HIF_FNf_AUD.addr f, 8, 7⟩
def HIF_FNf_AUD.IN_BASE (f : Nat) : Field := ⟨HIF_FNf_AUD.addr f, 16, 6⟩
def HIF_FNf_AUD.IN_CNT (f : Nat) : Field := ⟨HIF_FNf_AUD.addr f, 24, 7⟩
def HIF_FNf_MISC.addr (f : Nat) : Nat := 0x14108 + 0x10 * f
def HIF_FNf_MISC.CMP_BASE (f : Nat) : Field := ⟨HIF_FNf_MISC.addr f, 0, 4⟩
def HIF_FNf_MISC.CMP_CNT (f : Nat) : Field := ⟨HIF_FNf_MISC.addr f, 4, 5⟩
def HIF_FNf_MISC.PEG_BASE (f : Nat) : Field := ⟨HIF_FNf_MISC.addr f, 12, 4⟩
def HIF_FNf_MISC.PEG_CNT (f : Nat) : Field := ⟨HIF_FNf_MISC.addr f, 16, 5⟩
def HIF_FNf_MISC.RD_TAGS (f : Nat) : Field := ⟨HIF_FNf_MISC.addr f, 24, 8⟩

/-! ### DMA (chapter 06) -/

def DMA_CFG.addr : Nat := 0x18000
def DMA_CFG.STALL_BUDGET : Field := ⟨DMA_CFG.addr, 0, 16⟩
def DMA_STATUS.addr : Nat := 0x18004
def DMA_STATUS.PRQ_PEND : Field := ⟨DMA_STATUS.addr, 0, 16⟩
def DMA_STATUS.BUSY : Field := ⟨DMA_STATUS.addr, 16, 1⟩
def DMA_EVENT.addr : Nat := 0x18008
def DMA_EVENT.RING_ERR : Field := ⟨DMA_EVENT.addr, 0, 1⟩
def DMA_EVENT.DB_BAD : Field := ⟨DMA_EVENT.addr, 1, 1⟩
def DMA_EVENT.NOTOWN : Field := ⟨DMA_EVENT.addr, 2, 1⟩
def DMA_EVENT.RX_STALL_DROP : Field := ⟨DMA_EVENT.addr, 3, 1⟩
def DMA_EVENT.RX_NODESC_DROP : Field := ⟨DMA_EVENT.addr, 4, 1⟩
def DMA_EVENT.PRQ_OVF : Field := ⟨DMA_EVENT.addr, 5, 1⟩
def DMA_EVENT.MBX_DUP : Field := ⟨DMA_EVENT.addr, 6, 1⟩
def DMA_EVENT.TAG_WAIT : Field := ⟨DMA_EVENT.addr, 7, 1⟩
def DMA_EVENT.DISABLE_DROP : Field := ⟨DMA_EVENT.addr, 8, 1⟩
def DMA_RING_ERR.addr : Nat := 0x1800C
def DMA_RING_ERR.RING : Field := ⟨DMA_RING_ERR.addr, 0, 9⟩
def DMA_RING_ERR.CAUSE : Field := ⟨DMA_RING_ERR.addr, 9, 2⟩
def DMA_RING_ERR.FN : Field := ⟨DMA_RING_ERR.addr, 12, 4⟩
def DMA_RESV.addr : Nat := 0x18010
def DMA_RESV.BANK_SLOTS : Field := ⟨DMA_RESV.addr, 0, 17⟩
def DMA_PRQ_MAPk.addr (k : Nat) : Nat := 0x18040 + 0x4 * k
def DMA_PRQ_MAPk.SRC (k : Nat) : Field := ⟨DMA_PRQ_MAPk.addr k, 0, 6⟩
def DMA_PRQ_MAPk.BURST (k : Nat) : Field := ⟨DMA_PRQ_MAPk.addr k, 6, 3⟩
def DMA_PRQ_MAPk.EN (k : Nat) : Field := ⟨DMA_PRQ_MAPk.addr k, 9, 1⟩
def DMA_PRQ_OVF_CNT.addr : Nat := 0x18080
def DMA_PRQ_OVF_CNT.COUNT : Field := ⟨DMA_PRQ_OVF_CNT.addr, 0, 16⟩
def DMA_PRQ_OVF_CNT.LINE : Field := ⟨DMA_PRQ_OVF_CNT.addr, 16, 4⟩
def DMA_PRQ_LAT_MAX.addr : Nat := 0x18084
def DMA_PRQ_LAT_MAX.CLK : Field := ⟨DMA_PRQ_LAT_MAX.addr, 0, 16⟩
def DMA_FNf_DTAGS.addr (f : Nat) : Nat := 0x18100 + 0x4 * f
def DMA_FNf_DTAGS.QUOTA (f : Nat) : Field := ⟨DMA_FNf_DTAGS.addr f, 0, 16⟩
def DMA_RX_STALL_DROP.addr : Nat := 0x18180
def DMA_RX_STALL_DROP.COUNT : Field := ⟨DMA_RX_STALL_DROP.addr, 0, 32⟩
def DMA_RX_NODESC_DROP.addr : Nat := 0x18184
def DMA_RX_NODESC_DROP.COUNT : Field := ⟨DMA_RX_NODESC_DROP.addr, 0, 32⟩
def DMA_DISABLE_DROP.addr : Nat := 0x18188
def DMA_DISABLE_DROP.COUNT : Field := ⟨DMA_DISABLE_DROP.addr, 0, 32⟩
def DMA_DB_BAD_CNT.addr : Nat := 0x1818C
def DMA_DB_BAD_CNT.COUNT : Field := ⟨DMA_DB_BAD_CNT.addr, 0, 32⟩
def DMA_NOTOWN_CNT.addr : Nat := 0x18190
def DMA_NOTOWN_CNT.COUNT : Field := ⟨DMA_NOTOWN_CNT.addr, 0, 32⟩
def DMA_FETCH_ERR_CNT.addr : Nat := 0x18194
def DMA_FETCH_ERR_CNT.COUNT : Field := ⟨DMA_FETCH_ERR_CNT.addr, 0, 32⟩
def DMA_MBX_DUP_CNT.addr : Nat := 0x18198
def DMA_MBX_DUP_CNT.COUNT : Field := ⟨DMA_MBX_DUP_CNT.addr, 0, 32⟩
def DMA_TAG_WAIT_CNT.addr : Nat := 0x1819C
def DMA_TAG_WAIT_CNT.COUNT : Field := ⟨DMA_TAG_WAIT_CNT.addr, 0, 32⟩
def DMA_RING_SEL.addr : Nat := 0x181C0
def DMA_RING_SEL.RING : Field := ⟨DMA_RING_SEL.addr, 0, 9⟩
def DMA_RING_VIEW0.addr : Nat := 0x181C4
def DMA_RING_VIEW0.PROD : Field := ⟨DMA_RING_VIEW0.addr, 0, 16⟩
def DMA_RING_VIEW0.CONS : Field := ⟨DMA_RING_VIEW0.addr, 16, 16⟩
def DMA_RING_VIEW1.addr : Nat := 0x181C8
def DMA_RING_VIEW1.STATE : Field := ⟨DMA_RING_VIEW1.addr, 0, 3⟩
def DMA_RING_VIEW1.ERR : Field := ⟨DMA_RING_VIEW1.addr, 3, 1⟩
def DMA_RING_VIEW1.SIZE : Field := ⟨DMA_RING_VIEW1.addr, 4, 3⟩
def DMA_RING_VIEW1.FN : Field := ⟨DMA_RING_VIEW1.addr, 8, 4⟩
def DMA_RING_VIEW1.BASE_LO : Field := ⟨DMA_RING_VIEW1.addr, 12, 20⟩
def DMA_RING_VIEW2.addr : Nat := 0x181CC
def DMA_RING_VIEW2.BASE_HI : Field := ⟨DMA_RING_VIEW2.addr, 0, 32⟩
def DMA_RING_VIEW3.addr : Nat := 0x181D0
def DMA_RING_VIEW3.VEC : Field := ⟨DMA_RING_VIEW3.addr, 0, 8⟩
def DMA_RING_VIEW3.COAL : Field := ⟨DMA_RING_VIEW3.addr, 8, 8⟩
def DMA_RING_VIEW3.EARLY_WB : Field := ⟨DMA_RING_VIEW3.addr, 16, 1⟩
def DMA_RING_VIEW3.CYCLIC : Field := ⟨DMA_RING_VIEW3.addr, 17, 1⟩
def DMA_RING_VIEW3.DIR : Field := ⟨DMA_RING_VIEW3.addr, 18, 1⟩
def DMA_RING_VIEW3.DEST : Field := ⟨DMA_RING_VIEW3.addr, 19, 3⟩
def DMA_RING_VIEW3.CYCLE_LEN_M1 : Field := ⟨DMA_RING_VIEW3.addr, 22, 6⟩

/-! ### CHn (chapter 07, 08) -/

def CHn_CTRL.addr (n : Nat) : Nat := 0x20000 + 0x4000 * n
def CHn_CTRL.EN (n : Nat) : Field := ⟨CHn_CTRL.addr n, 0, 1⟩
def CHn_CTRL.RATE (n : Nat) : Field := ⟨CHn_CTRL.addr n, 1, 1⟩
def CHn_CTRL.FEC (n : Nat) : Field := ⟨CHn_CTRL.addr n, 2, 2⟩
def CHn_CTRL.LOOP (n : Nat) : Field := ⟨CHn_CTRL.addr n, 4, 2⟩
def CHn_CTRL.FCS_STRIP (n : Nat) : Field := ⟨CHn_CTRL.addr n, 6, 1⟩
def CHn_CTRL.FEC_DOWN (n : Nat) : Field := ⟨CHn_CTRL.addr n, 7, 1⟩
def CHn_STATUS.addr (n : Nat) : Nat := 0x20004 + 0x4000 * n
def CHn_STATUS.RUN (n : Nat) : Field := ⟨CHn_STATUS.addr n, 0, 3⟩
def CHn_STATUS.LINK (n : Nat) : Field := ⟨CHn_STATUS.addr n, 3, 1⟩
def CHn_STATUS.BLOCK_LOCK (n : Nat) : Field := ⟨CHn_STATUS.addr n, 4, 1⟩
def CHn_STATUS.HI_BER (n : Nat) : Field := ⟨CHn_STATUS.addr n, 5, 1⟩
def CHn_STATUS.LOCAL_FAULT (n : Nat) : Field := ⟨CHn_STATUS.addr n, 6, 1⟩
def CHn_STATUS.REMOTE_FAULT (n : Nat) : Field := ⟨CHn_STATUS.addr n, 7, 1⟩
def CHn_STATUS.MOD_PRESENT (n : Nat) : Field := ⟨CHn_STATUS.addr n, 8, 1⟩
def CHn_STATUS.LOS (n : Nat) : Field := ⟨CHn_STATUS.addr n, 9, 1⟩
def CHn_STATUS.TX_FAULT (n : Nat) : Field := ⟨CHn_STATUS.addr n, 10, 1⟩
def CHn_STATUS.TXDIS (n : Nat) : Field := ⟨CHn_STATUS.addr n, 11, 1⟩
def CHn_STATUS.FENCED (n : Nat) : Field := ⟨CHn_STATUS.addr n, 12, 1⟩
def CHn_STATUS.RATE_NOW (n : Nat) : Field := ⟨CHn_STATUS.addr n, 13, 1⟩
def CHn_STATUS.RX_PAUSED (n : Nat) : Field := ⟨CHn_STATUS.addr n, 14, 1⟩
def CHn_STATUS.XOFF (n : Nat) : Field := ⟨CHn_STATUS.addr n, 15, 1⟩
def CHn_STATUS.PFC_RX_PAUSED (n : Nat) : Field := ⟨CHn_STATUS.addr n, 16, 8⟩
def CHn_STATUS.PFC_XOFF (n : Nat) : Field := ⟨CHn_STATUS.addr n, 24, 8⟩
def CHn_EVENT.addr (n : Nat) : Nat := 0x20008 + 0x4000 * n
def CHn_EVENT.LINK_UP (n : Nat) : Field := ⟨CHn_EVENT.addr n, 0, 1⟩
def CHn_EVENT.LINK_DOWN (n : Nat) : Field := ⟨CHn_EVENT.addr n, 1, 1⟩
def CHn_EVENT.MOD_IN (n : Nat) : Field := ⟨CHn_EVENT.addr n, 2, 1⟩
def CHn_EVENT.MOD_OUT (n : Nat) : Field := ⟨CHn_EVENT.addr n, 3, 1⟩
def CHn_EVENT.TX_FAULT (n : Nat) : Field := ⟨CHn_EVENT.addr n, 4, 1⟩
def CHn_EVENT.HI_BER (n : Nat) : Field := ⟨CHn_EVENT.addr n, 5, 1⟩
def CHn_EVENT.REMOTE_FAULT (n : Nat) : Field := ⟨CHn_EVENT.addr n, 6, 1⟩
def CHn_EVENT.VERIFY_OK (n : Nat) : Field := ⟨CHn_EVENT.addr n, 7, 1⟩
def CHn_EVENT.VERIFY_FAIL (n : Nat) : Field := ⟨CHn_EVENT.addr n, 8, 1⟩
def CHn_EVENT.STAT_HALF (n : Nat) : Field := ⟨CHn_EVENT.addr n, 9, 1⟩
def CHn_EVENT.WAKE_MATCH (n : Nat) : Field := ⟨CHn_EVENT.addr n, 10, 1⟩
def CHn_EVENT.XOFF_START (n : Nat) : Field := ⟨CHn_EVENT.addr n, 11, 1⟩
def CHn_EVENT.STOPPED (n : Nat) : Field := ⟨CHn_EVENT.addr n, 12, 1⟩
def CHn_EVENT.TS_OVERWRITE (n : Nat) : Field := ⟨CHn_EVENT.addr n, 13, 1⟩
def CHn_MAX_LEN.addr (n : Nat) : Nat := 0x2000C + 0x4000 * n
def CHn_MAX_LEN.MAX (n : Nat) : Field := ⟨CHn_MAX_LEN.addr n, 0, 14⟩
def CHn_MAC_LO.addr (n : Nat) : Nat := 0x20010 + 0x4000 * n
def CHn_MAC_LO.ADDR (n : Nat) : Field := ⟨CHn_MAC_LO.addr n, 0, 32⟩
def CHn_MAC_HI.addr (n : Nat) : Nat := 0x20014 + 0x4000 * n
def CHn_MAC_HI.ADDR (n : Nat) : Field := ⟨CHn_MAC_HI.addr n, 0, 16⟩
def CHn_MOD_CFG.addr (n : Nat) : Nat := 0x20018 + 0x4000 * n
def CHn_MOD_CFG.INSERT_FR (n : Nat) : Field := ⟨CHn_MOD_CFG.addr n, 0, 16⟩
def CHn_MOD_CFG.FORCE_TXDIS (n : Nat) : Field := ⟨CHn_MOD_CFG.addr n, 16, 1⟩
def CHn_MOD_CFG.FAULT_RETRY (n : Nat) : Field := ⟨CHn_MOD_CFG.addr n, 17, 1⟩
def CHn_MOD_CFG.IGNORE_ABS (n : Nat) : Field := ⟨CHn_MOD_CFG.addr n, 18, 1⟩
def CHn_LINK_CFG.addr (n : Nat) : Nat := 0x2001C + 0x4000 * n
def CHn_LINK_CFG.UP_FR (n : Nat) : Field := ⟨CHn_LINK_CFG.addr n, 0, 8⟩
def CHn_TS_LAT10.addr (n : Nat) : Nat := 0x20020 + 0x4000 * n
def CHn_TS_LAT10.TX (n : Nat) : Field := ⟨CHn_TS_LAT10.addr n, 0, 16⟩
def CHn_TS_LAT10.RX (n : Nat) : Field := ⟨CHn_TS_LAT10.addr n, 16, 16⟩
def CHn_TS_LAT25.addr (n : Nat) : Nat := 0x20024 + 0x4000 * n
def CHn_TS_LAT25.TX (n : Nat) : Field := ⟨CHn_TS_LAT25.addr n, 0, 16⟩
def CHn_TS_LAT25.RX (n : Nat) : Field := ⟨CHn_TS_LAT25.addr n, 16, 16⟩
def CHn_PTP_CFG.addr (n : Nat) : Nat := 0x20028 + 0x4000 * n
def CHn_PTP_CFG.L2 (n : Nat) : Field := ⟨CHn_PTP_CFG.addr n, 0, 1⟩
def CHn_PTP_CFG.UDP4 (n : Nat) : Field := ⟨CHn_PTP_CFG.addr n, 1, 1⟩
def CHn_PTP_TXTS0.addr (n : Nat) : Nat := 0x20030 + 0x4000 * n
def CHn_PTP_TXTS0.SEC_LO (n : Nat) : Field := ⟨CHn_PTP_TXTS0.addr n, 0, 32⟩
def CHn_PTP_TXTS1.addr (n : Nat) : Nat := 0x20034 + 0x4000 * n
def CHn_PTP_TXTS1.SEC_HI (n : Nat) : Field := ⟨CHn_PTP_TXTS1.addr n, 0, 16⟩
def CHn_PTP_TXTS1.SUBNS (n : Nat) : Field := ⟨CHn_PTP_TXTS1.addr n, 16, 16⟩
def CHn_PTP_TXTS2.addr (n : Nat) : Nat := 0x20038 + 0x4000 * n
def CHn_PTP_TXTS2.NS (n : Nat) : Field := ⟨CHn_PTP_TXTS2.addr n, 0, 32⟩
def CHn_PTP_TXTS3.addr (n : Nat) : Nat := 0x2003C + 0x4000 * n
def CHn_PTP_TXTS3.SEQ_ID (n : Nat) : Field := ⟨CHn_PTP_TXTS3.addr n, 0, 16⟩
def CHn_PTP_TXTS3.MSG_TYPE (n : Nat) : Field := ⟨CHn_PTP_TXTS3.addr n, 16, 4⟩
def CHn_PTP_TXTS3.VALID (n : Nat) : Field := ⟨CHn_PTP_TXTS3.addr n, 20, 1⟩
def CHn_PTP_TXTS3.OVERWRITTEN (n : Nat) : Field := ⟨CHn_PTP_TXTS3.addr n, 21, 1⟩
def CHn_PAUSE_CFG.addr (n : Nat) : Nat := 0x20040 + 0x4000 * n
def CHn_PAUSE_CFG.MODE (n : Nat) : Field := ⟨CHn_PAUSE_CFG.addr n, 0, 2⟩
def CHn_PAUSE_CFG.RX_HONOR (n : Nat) : Field := ⟨CHn_PAUSE_CFG.addr n, 2, 1⟩
def CHn_PAUSE_CFG.RX_IGNORE (n : Nat) : Field := ⟨CHn_PAUSE_CFG.addr n, 8, 8⟩
def CHn_PAUSE_CFG.PFC_TX (n : Nat) : Field := ⟨CHn_PAUSE_CFG.addr n, 16, 8⟩
def CHn_PAUSE_WM.addr (n : Nat) : Nat := 0x20044 + 0x4000 * n
def CHn_PAUSE_WM.HI (n : Nat) : Field := ⟨CHn_PAUSE_WM.addr n, 0, 16⟩
def CHn_PAUSE_WM.LO (n : Nat) : Field := ⟨CHn_PAUSE_WM.addr n, 16, 16⟩
def CHn_PAUSE_QUANTA.addr (n : Nat) : Nat := 0x20048 + 0x4000 * n
def CHn_PAUSE_QUANTA.TX_QUANTA (n : Nat) : Field := ⟨CHn_PAUSE_QUANTA.addr n, 0, 16⟩
def CHn_PFC_WMk.addr (n : Nat) (k : Nat) : Nat := 0x20060 + 0x4000 * n + 0x4 * k
def CHn_PFC_WMk.HI (n : Nat) (k : Nat) : Field := ⟨CHn_PFC_WMk.addr n k, 0, 16⟩
def CHn_PFC_WMk.LO (n : Nat) (k : Nat) : Field := ⟨CHn_PFC_WMk.addr n k, 16, 16⟩
def CHn_PREEMPT_CFG.addr (n : Nat) : Nat := 0x20080 + 0x4000 * n
def CHn_PREEMPT_CFG.EN (n : Nat) : Field := ⟨CHn_PREEMPT_CFG.addr n, 0, 1⟩
def CHn_PREEMPT_CFG.VERIFY_DIS (n : Nat) : Field := ⟨CHn_PREEMPT_CFG.addr n, 1, 1⟩
def CHn_PREEMPT_CFG.ADD_FRAG (n : Nat) : Field := ⟨CHn_PREEMPT_CFG.addr n, 2, 2⟩
def CHn_PREEMPT_CFG.VERIFY_MS (n : Nat) : Field := ⟨CHn_PREEMPT_CFG.addr n, 4, 7⟩
def CHn_PREEMPT_CFG.TC_PMAC (n : Nat) : Field := ⟨CHn_PREEMPT_CFG.addr n, 16, 8⟩
def CHn_PREEMPT_STATUS.addr (n : Nat) : Nat := 0x20084 + 0x4000 * n
def CHn_PREEMPT_STATUS.VERIFY (n : Nat) : Field := ⟨CHn_PREEMPT_STATUS.addr n, 0, 3⟩
def CHn_PREEMPT_STATUS.ACTIVE (n : Nat) : Field := ⟨CHn_PREEMPT_STATUS.addr n, 3, 1⟩
def CHn_PREEMPT_STATUS.HOLD (n : Nat) : Field := ⟨CHn_PREEMPT_STATUS.addr n, 4, 1⟩
def CHn_PREEMPT_STATUS.ATTEMPTS (n : Nat) : Field := ⟨CHn_PREEMPT_STATUS.addr n, 5, 2⟩
def CHn_WAKE_CFG.addr (n : Nat) : Nat := 0x20100 + 0x4000 * n
def CHn_WAKE_CFG.EN (n : Nat) : Field := ⟨CHn_WAKE_CFG.addr n, 0, 4⟩
def CHn_WAKE_CFG.REPORT (n : Nat) : Field := ⟨CHn_WAKE_CFG.addr n, 4, 1⟩
def CHn_WAKE_CFG.MATCHES (n : Nat) : Field := ⟨CHn_WAKE_CFG.addr n, 16, 8⟩
def CHn_WAKE_f_CFG.addr (n : Nat) (f : Nat) : Nat := 0x20110 + 0x4000 * n + 0x20 * f
def CHn_WAKE_f_CFG.OFFSET (n : Nat) (f : Nat) : Field := ⟨CHn_WAKE_f_CFG.addr n f, 0, 8⟩
def CHn_WAKE_f_CFG.CHECK (n : Nat) (f : Nat) : Field := ⟨CHn_WAKE_f_CFG.addr n f, 16, 16⟩
def CHn_WAKE_f_MASKk.addr (n : Nat) (f : Nat) (k : Nat) : Nat := 0x20114 + 0x4000 * n + 0x20 * f + 0x4 * k
def CHn_WAKE_f_MASKk.MASK (n : Nat) (f : Nat) (k : Nat) : Field := ⟨CHn_WAKE_f_MASKk.addr n f k, 0, 32⟩
def CHn_STAT_HALF0.addr (n : Nat) : Nat := 0x20200 + 0x4000 * n
def CHn_STAT_HALF0.HALF (n : Nat) : Field := ⟨CHn_STAT_HALF0.addr n, 0, 32⟩
def CHn_STAT_HALF1.addr (n : Nat) : Nat := 0x20204 + 0x4000 * n
def CHn_STAT_HALF1.HALF (n : Nat) : Field := ⟨CHn_STAT_HALF1.addr n, 0, 16⟩
def CHn_STATi.addr (n : Nat) (i : Nat) : Nat := 0x20400 + 0x4000 * n + 0x4 * i
def CHn_STATi.COUNT (n : Nat) (i : Nat) : Field := ⟨CHn_STATi.addr n i, 0, 32⟩
def CHn_GATE_CTRL.addr (n : Nat) : Nat := 0x20600 + 0x4000 * n
def CHn_GATE_CTRL.EN (n : Nat) : Field := ⟨CHn_GATE_CTRL.addr n, 0, 1⟩
def CHn_GATE_CTRL.COMMIT (n : Nat) : Field := ⟨CHn_GATE_CTRL.addr n, 1, 1⟩
def CHn_GATE_CTRL.CANCEL (n : Nat) : Field := ⟨CHn_GATE_CTRL.addr n, 2, 1⟩
def CHn_GATE_CTRL.BOOT_BANK (n : Nat) : Field := ⟨CHn_GATE_CTRL.addr n, 3, 1⟩
def CHn_GATE_STATUS.addr (n : Nat) : Nat := 0x20604 + 0x4000 * n
def CHn_GATE_STATUS.RUN (n : Nat) : Field := ⟨CHn_GATE_STATUS.addr n, 0, 3⟩
def CHn_GATE_STATUS.GSTATE (n : Nat) : Field := ⟨CHn_GATE_STATUS.addr n, 3, 2⟩
def CHn_GATE_STATUS.OPER_BANK (n : Nat) : Field := ⟨CHn_GATE_STATUS.addr n, 5, 1⟩
def CHn_GATE_STATUS.HAVE_LIST (n : Nat) : Field := ⟨CHn_GATE_STATUS.addr n, 6, 1⟩
def CHn_GATE_STATUS.CAL_ACTIVE (n : Nat) : Field := ⟨CHn_GATE_STATUS.addr n, 7, 1⟩
def CHn_GATE_STATUS.GATES (n : Nat) : Field := ⟨CHn_GATE_STATUS.addr n, 8, 8⟩
def CHn_GATE_STATUS.ENTRY (n : Nat) : Field := ⟨CHn_GATE_STATUS.addr n, 16, 10⟩
def CHn_GATE_STATUS.HOLD (n : Nat) : Field := ⟨CHn_GATE_STATUS.addr n, 26, 1⟩
def CHn_GATE_EVENT.addr (n : Nat) : Nat := 0x20608 + 0x4000 * n
def CHn_GATE_EVENT.COMMIT_DONE (n : Nat) : Field := ⟨CHn_GATE_EVENT.addr n, 0, 1⟩
def CHn_GATE_EVENT.SWAPPED (n : Nat) : Field := ⟨CHn_GATE_EVENT.addr n, 1, 1⟩
def CHn_GATE_EVENT.VOTE_FIX (n : Nat) : Field := ⟨CHn_GATE_EVENT.addr n, 2, 1⟩
def CHn_GATE_EVENT.FALLBACK_ENTER (n : Nat) : Field := ⟨CHn_GATE_EVENT.addr n, 3, 1⟩
def CHn_GATE_EVENT.SWAP_DEFERRED (n : Nat) : Field := ⟨CHn_GATE_EVENT.addr n, 4, 1⟩
def CHn_GATE_FALLBACK.addr (n : Nat) : Nat := 0x2060C + 0x4000 * n
def CHn_GATE_FALLBACK.GATES (n : Nat) : Field := ⟨CHn_GATE_FALLBACK.addr n, 0, 8⟩
def CHn_GATE_Bb_BASE_LO.addr (n : Nat) (b : Nat) : Nat := 0x20610 + 0x4000 * n + 0x10 * b
def CHn_GATE_Bb_BASE_LO.BASE (n : Nat) (b : Nat) : Field := ⟨CHn_GATE_Bb_BASE_LO.addr n b, 0, 32⟩
def CHn_GATE_Bb_BASE_HI.addr (n : Nat) (b : Nat) : Nat := 0x20614 + 0x4000 * n + 0x10 * b
def CHn_GATE_Bb_BASE_HI.BASE (n : Nat) (b : Nat) : Field := ⟨CHn_GATE_Bb_BASE_HI.addr n b, 0, 32⟩
def CHn_GATE_Bb_CYCLE.addr (n : Nat) (b : Nat) : Nat := 0x20618 + 0x4000 * n + 0x10 * b
def CHn_GATE_Bb_CYCLE.CYCLE (n : Nat) (b : Nat) : Field := ⟨CHn_GATE_Bb_CYCLE.addr n b, 0, 32⟩
def CHn_GATE_Bb_LEN.addr (n : Nat) (b : Nat) : Nat := 0x2061C + 0x4000 * n + 0x10 * b
def CHn_GATE_Bb_LEN.LEN (n : Nat) (b : Nat) : Field := ⟨CHn_GATE_Bb_LEN.addr n b, 0, 11⟩
def CHn_GATE_SWAP_T_LO.addr (n : Nat) : Nat := 0x20630 + 0x4000 * n
def CHn_GATE_SWAP_T_LO.T (n : Nat) : Field := ⟨CHn_GATE_SWAP_T_LO.addr n, 0, 32⟩
def CHn_GATE_SWAP_T_HI.addr (n : Nat) : Nat := 0x20634 + 0x4000 * n
def CHn_GATE_SWAP_T_HI.T (n : Nat) : Field := ⟨CHn_GATE_SWAP_T_HI.addr n, 0, 32⟩
def CHn_GATE_VOTE.addr (n : Nat) : Nat := 0x20638 + 0x4000 * n
def CHn_GATE_VOTE.FIX_A (n : Nat) : Field := ⟨CHn_GATE_VOTE.addr n, 0, 8⟩
def CHn_GATE_VOTE.FIX_B (n : Nat) : Field := ⟨CHn_GATE_VOTE.addr n, 8, 8⟩
def CHn_GATE_VOTE.FIX_C (n : Nat) : Field := ⟨CHn_GATE_VOTE.addr n, 16, 8⟩
def CHn_GATE_VOTE.NOMAJ (n : Nat) : Field := ⟨CHn_GATE_VOTE.addr n, 24, 8⟩
def CHn_GATE_COMMIT_STAT.addr (n : Nat) : Nat := 0x2063C + 0x4000 * n
def CHn_GATE_COMMIT_STAT.RESULT (n : Nat) : Field := ⟨CHn_GATE_COMMIT_STAT.addr n, 0, 4⟩
def CHn_GATE_COMMIT_STAT.BANK (n : Nat) : Field := ⟨CHn_GATE_COMMIT_STAT.addr n, 4, 1⟩
def CHn_GATE_COMMIT_STAT.BAD_ENTRY (n : Nat) : Field := ⟨CHn_GATE_COMMIT_STAT.addr n, 16, 10⟩
def CHn_TCk_CFG.addr (n : Nat) (k : Nat) : Nat := 0x20640 + 0x4000 * n + 0x4 * k
def CHn_TCk_CFG.GUAR (n : Nat) (k : Nat) : Field := ⟨CHn_TCk_CFG.addr n k, 0, 1⟩
def CHn_TCk_CFG.GUARD (n : Nat) (k : Nat) : Field := ⟨CHn_TCk_CFG.addr n k, 1, 1⟩
def CHn_TCk_CFG.STALE_FR (n : Nat) (k : Nat) : Field := ⟨CHn_TCk_CFG.addr n k, 16, 12⟩

/-! ### CLS (chapter 08) -/

def CLS_CTRL.addr : Nat := 0x30000
def CLS_CTRL.EXACT_EN : Field := ⟨CLS_CTRL.addr, 0, 1⟩
def CLS_CTRL.MASKED_EN : Field := ⟨CLS_CTRL.addr, 1, 1⟩
def CLS_STATUS.addr : Nat := 0x30004
def CLS_STATUS.STAGE_EX : Field := ⟨CLS_STATUS.addr, 0, 12⟩
def CLS_STATUS.STAGE_EX_DIRTY : Field := ⟨CLS_STATUS.addr, 12, 1⟩
def CLS_STATUS.STAGE_MK : Field := ⟨CLS_STATUS.addr, 16, 8⟩
def CLS_STATUS.STAGE_MK_DIRTY : Field := ⟨CLS_STATUS.addr, 24, 1⟩
def CLS_EVENT.addr : Nat := 0x30008
def CLS_EVENT.ENTRY_REJ : Field := ⟨CLS_EVENT.addr, 0, 1⟩
def CLS_EVENT.STAGE_LOST : Field := ⟨CLS_EVENT.addr, 1, 1⟩
def CLS_EVENT.FOLLOW_STEER : Field := ⟨CLS_EVENT.addr, 2, 1⟩
def CLS_EVENT.FOLLOW_DROP : Field := ⟨CLS_EVENT.addr, 3, 1⟩
def CLS_EVENT.HOST_BAD : Field := ⟨CLS_EVENT.addr, 4, 1⟩
def CLS_PCP_MAP.addr : Nat := 0x3000C
def CLS_PCP_MAP.TC_P : Field := ⟨CLS_PCP_MAP.addr, 0, 24⟩
def CLS_PCP_MAP.UNTAGGED : Field := ⟨CLS_PCP_MAP.addr, 24, 3⟩
def CLS_PROFILEs.addr (s : Nat) : Nat := 0x30010 + 0x4 * s
def CLS_PROFILEs.FIELDS (s : Nat) : Field := ⟨CLS_PROFILEs.addr s, 0, 8⟩
def CLS_DEFAULTs.addr (s : Nat) : Nat := 0x30030 + 0x4 * s
def CLS_DEFAULTs.ACTION0 (s : Nat) : Field := ⟨CLS_DEFAULTs.addr s, 0, 32⟩
def CLS_MISS_CNT.addr : Nat := 0x30048
def CLS_MISS_CNT.COUNT : Field := ⟨CLS_MISS_CNT.addr, 0, 32⟩
def CLS_FOLLOW_CNT.addr : Nat := 0x3004C
def CLS_FOLLOW_CNT.COUNT : Field := ⟨CLS_FOLLOW_CNT.addr, 0, 32⟩
def CLS_FOLLOW_DROP.addr : Nat := 0x30050
def CLS_FOLLOW_DROP.COUNT : Field := ⟨CLS_FOLLOW_DROP.addr, 0, 32⟩
def CLS_ENTRY_REJ.addr : Nat := 0x30054
def CLS_ENTRY_REJ.COUNT : Field := ⟨CLS_ENTRY_REJ.addr, 0, 32⟩
def CLS_HOST_BAD.addr : Nat := 0x30058
def CLS_HOST_BAD.COUNT : Field := ⟨CLS_HOST_BAD.addr, 0, 32⟩
def CLS_STAGE_LOST.addr : Nat := 0x3005C
def CLS_STAGE_LOST.COUNT : Field := ⟨CLS_STAGE_LOST.addr, 0, 32⟩

/-! ### FRE (chapter 09) -/

def FRE_CTRL.addr : Nat := 0x38000
def FRE_CTRL.EN : Field := ⟨FRE_CTRL.addr, 0, 1⟩
def FRE_STATUS.addr : Nat := 0x38004
def FRE_STATUS.STAGE : Field := ⟨FRE_STATUS.addr, 0, 10⟩
def FRE_STATUS.STAGE_DIRTY : Field := ⟨FRE_STATUS.addr, 10, 1⟩
def FRE_STATUS.GRID_OK : Field := ⟨FRE_STATUS.addr, 11, 1⟩
def FRE_STATUS.HOLDER : Field := ⟨FRE_STATUS.addr, 12, 1⟩
def FRE_EVENT.addr : Nat := 0x38008
def FRE_EVENT.ENTRY_REJ : Field := ⟨FRE_EVENT.addr, 0, 1⟩
def FRE_EVENT.STAGE_LOST : Field := ⟨FRE_EVENT.addr, 1, 1⟩
def FRE_EVENT.ROGUE : Field := ⟨FRE_EVENT.addr, 2, 1⟩
def FRE_EVENT.RECOV_RESET : Field := ⟨FRE_EVENT.addr, 3, 1⟩
def FRE_EVENT.LATENT : Field := ⟨FRE_EVENT.addr, 4, 1⟩
def FRE_EVENT.GEN_DROP : Field := ⟨FRE_EVENT.addr, 5, 1⟩
def FRE_EVENT.TAKEOVER : Field := ⟨FRE_EVENT.addr, 6, 1⟩
def FRE_EVENT.GRID_LOST : Field := ⟨FRE_EVENT.addr, 7, 1⟩
def FRE_CFG.addr : Nat := 0x3800C
def FRE_CFG.TAKEOVER_SKIP : Field := ⟨FRE_CFG.addr, 0, 16⟩
def FRE_CFG.LATENT_SF : Field := ⟨FRE_CFG.addr, 16, 8⟩
def FRE_ENTRY_REJ.addr : Nat := 0x38010
def FRE_ENTRY_REJ.COUNT : Field := ⟨FRE_ENTRY_REJ.addr, 0, 32⟩
def FRE_STAGE_LOST.addr : Nat := 0x38014
def FRE_STAGE_LOST.COUNT : Field := ⟨FRE_STAGE_LOST.addr, 0, 32⟩
def FRE_LAST_ROGUE.addr : Nat := 0x38018
def FRE_LAST_ROGUE.STREAM : Field := ⟨FRE_LAST_ROGUE.addr, 0, 10⟩
def FRE_LAST_ROGUE.SEQ : Field := ⟨FRE_LAST_ROGUE.addr, 16, 16⟩

/-! ### PMC (chapter 10) -/

def PMC_CTRL.addr : Nat := 0x40000
def PMC_CTRL.SCRUB_EN : Field := ⟨PMC_CTRL.addr, 0, 1⟩
def PMC_CTRL.CHECK : Field := ⟨PMC_CTRL.addr, 1, 1⟩
def PMC_CTRL.CHECK_CH : Field := ⟨PMC_CTRL.addr, 2, 3⟩
def PMC_STATUS.addr : Nat := 0x40004
def PMC_STATUS.INIT_DONE : Field := ⟨PMC_STATUS.addr, 0, 1⟩
def PMC_STATUS.SELF_REFRESH : Field := ⟨PMC_STATUS.addr, 1, 1⟩
def PMC_STATUS.SCRUB_BEHIND : Field := ⟨PMC_STATUS.addr, 2, 1⟩
def PMC_STATUS.CHECK_BUSY : Field := ⟨PMC_STATUS.addr, 3, 1⟩
def PMC_STATUS.LAST_RESULT : Field := ⟨PMC_STATUS.addr, 4, 2⟩
def PMC_STATUS.LAST_SRC : Field := ⟨PMC_STATUS.addr, 6, 3⟩
def PMC_STATUS.LAST_CH : Field := ⟨PMC_STATUS.addr, 9, 2⟩
def PMC_EVENT.addr : Nat := 0x40008
def PMC_EVENT.OVERBOOK : Field := ⟨PMC_EVENT.addr, 0, 1⟩
def PMC_EVENT.CHECK_DONE : Field := ⟨PMC_EVENT.addr, 1, 1⟩
def PMC_EVENT.ECC_CE : Field := ⟨PMC_EVENT.addr, 2, 1⟩
def PMC_EVENT.ECC_UE : Field := ⟨PMC_EVENT.addr, 3, 1⟩
def PMC_EVENT.SCRUB_PASS : Field := ⟨PMC_EVENT.addr, 4, 1⟩
def PMC_EVENT.SCRUB_LATE : Field := ⟨PMC_EVENT.addr, 5, 1⟩
def PMC_EVENT.REF_FORCED : Field := ⟨PMC_EVENT.addr, 6, 1⟩
def PMC_EVENT.RECAL_FORCED : Field := ⟨PMC_EVENT.addr, 7, 1⟩
def PMC_EVENT.BE_XOFF : Field := ⟨PMC_EVENT.addr, 8, 1⟩
def PMC_EVENT.BE_DROP : Field := ⟨PMC_EVENT.addr, 9, 1⟩
def PMC_ADMIT_LIMIT.addr : Nat := 0x4000C
def PMC_ADMIT_LIMIT.PCT : Field := ⟨PMC_ADMIT_LIMIT.addr, 0, 7⟩
def PMC_ADMIT_LIMIT.LIMIT : Field := ⟨PMC_ADMIT_LIMIT.addr, 14, 18⟩
def PMC_ADMITTED.addr : Nat := 0x40010
def PMC_ADMITTED.SLOTS : Field := ⟨PMC_ADMITTED.addr, 0, 20⟩
def PMC_LAST_SUM.addr : Nat := 0x40014
def PMC_LAST_SUM.SLOTS : Field := ⟨PMC_LAST_SUM.addr, 0, 20⟩
def PMC_SHORTFALL.addr : Nat := 0x40018
def PMC_SHORTFALL.SLOTS : Field := ⟨PMC_SHORTFALL.addr, 0, 20⟩
def PMC_TERM_CHn.addr (n : Nat) : Nat := 0x40020 + 0x4 * n
def PMC_TERM_CHn.SLOTS (n : Nat) : Field := ⟨PMC_TERM_CHn.addr n, 0, 17⟩
def PMC_TERM_PEG.addr : Nat := 0x40030
def PMC_TERM_PEG.SLOTS : Field := ⟨PMC_TERM_PEG.addr, 0, 17⟩
def PMC_GUAR_LATCH.addr : Nat := 0x40034
def PMC_GUAR_LATCH.GUAR : Field := ⟨PMC_GUAR_LATCH.addr, 0, 32⟩
def PMC_BG_RESV.addr : Nat := 0x40038
def PMC_BG_RESV.SLOTS : Field := ⟨PMC_BG_RESV.addr, 0, 17⟩
def PMC_BE_LIMIT.addr : Nat := 0x4003C
def PMC_BE_LIMIT.UNITS : Field := ⟨PMC_BE_LIMIT.addr, 0, 14⟩
def PMC_BE_WM.addr : Nat := 0x40040
def PMC_BE_WM.HI : Field := ⟨PMC_BE_WM.addr, 0, 14⟩
def PMC_BE_WM.LO : Field := ⟨PMC_BE_WM.addr, 16, 14⟩
def PMC_SCRUB_CFG.addr : Nat := 0x40044
def PMC_SCRUB_CFG.PASS_H : Field := ⟨PMC_SCRUB_CFG.addr, 0, 5⟩
def PMC_SCRUB_STAT.addr : Nat := 0x40048
def PMC_SCRUB_STAT.POS : Field := ⟨PMC_SCRUB_STAT.addr, 0, 17⟩
def PMC_SCRUB_STAT.PASSES : Field := ⟨PMC_SCRUB_STAT.addr, 17, 15⟩
def PMC_ECC_CE.addr : Nat := 0x4004C
def PMC_ECC_CE.COUNT : Field := ⟨PMC_ECC_CE.addr, 0, 32⟩
def PMC_ECC_UE.addr : Nat := 0x40050
def PMC_ECC_UE.COUNT : Field := ⟨PMC_ECC_UE.addr, 0, 32⟩
def PMC_ECC_DROP.addr : Nat := 0x40054
def PMC_ECC_DROP.COUNT : Field := ⟨PMC_ECC_DROP.addr, 0, 32⟩
def PMC_ECC_LOG.addr : Nat := 0x40058
def PMC_ECC_LOG.CELL : Field := ⟨PMC_ECC_LOG.addr, 0, 17⟩
def PMC_ECC_LOG.WORD : Field := ⟨PMC_ECC_LOG.addr, 17, 5⟩
def PMC_ECC_LOG.UE : Field := ⟨PMC_ECC_LOG.addr, 22, 1⟩
def PMC_ECC_LOG.SRC : Field := ⟨PMC_ECC_LOG.addr, 23, 1⟩
def PMC_ECC_SYN.addr : Nat := 0x4005C
def PMC_ECC_SYN.SYNDROME : Field := ⟨PMC_ECC_SYN.addr, 0, 8⟩
def PMC_REF_FORCED.addr : Nat := 0x40060
def PMC_REF_FORCED.COUNT : Field := ⟨PMC_REF_FORCED.addr, 0, 32⟩
def PMC_REF_OWED_MAX.addr : Nat := 0x40064
def PMC_REF_OWED_MAX.OWED : Field := ⟨PMC_REF_OWED_MAX.addr, 0, 4⟩
def PMC_RECAL_FORCED.addr : Nat := 0x40068
def PMC_RECAL_FORCED.LANES : Field := ⟨PMC_RECAL_FORCED.addr, 0, 28⟩
def PMC_FREE_CELLS.addr : Nat := 0x4006C
def PMC_FREE_CELLS.CELLS : Field := ⟨PMC_FREE_CELLS.addr, 0, 18⟩
def PMC_BE_CELLS.addr : Nat := 0x40070
def PMC_BE_CELLS.CELLS : Field := ⟨PMC_BE_CELLS.addr, 0, 18⟩

/-! ### PEG (chapter 11, 12) -/

def PEG_CFG.addr : Nat := 0x48000
def PEG_CFG.EN : Field := ⟨PEG_CFG.addr, 0, 1⟩
def PEG_CFG.MODE : Field := ⟨PEG_CFG.addr, 1, 1⟩
def PEG_CFG.NODE_ID : Field := ⟨PEG_CFG.addr, 2, 5⟩
def PEG_CFG.SOLO_OK : Field := ⟨PEG_CFG.addr, 7, 1⟩
def PEG_CFG.RING : Field := ⟨PEG_CFG.addr, 8, 1⟩
def PEG_STATUS.addr : Nat := 0x48004
def PEG_STATUS.RUN : Field := ⟨PEG_STATUS.addr, 0, 3⟩
def PEG_STATUS.MODE_NOW : Field := ⟨PEG_STATUS.addr, 3, 1⟩
def PEG_STATUS.LANE_A_UP : Field := ⟨PEG_STATUS.addr, 4, 1⟩
def PEG_STATUS.LANE_B_UP : Field := ⟨PEG_STATUS.addr, 5, 1⟩
def PEG_EVENT.addr : Nat := 0x48008
def PEG_EVENT.SCHED_DONE : Field := ⟨PEG_EVENT.addr, 0, 1⟩
def PEG_EVENT.SCHED_SWAPPED : Field := ⟨PEG_EVENT.addr, 1, 1⟩
def PEG_EVENT.CLAIM_WON : Field := ⟨PEG_EVENT.addr, 2, 1⟩
def PEG_EVENT.CLAIM_COLL : Field := ⟨PEG_EVENT.addr, 3, 1⟩
def PEG_EVENT.SPARE_CHG : Field := ⟨PEG_EVENT.addr, 4, 1⟩
def PEG_EVENT.MSG_NOACK : Field := ⟨PEG_EVENT.addr, 5, 1⟩
def PEG_EVENT.DUP_RX : Field := ⟨PEG_EVENT.addr, 6, 1⟩
def PEG_EVENT.AB_MISMATCH : Field := ⟨PEG_EVENT.addr, 7, 1⟩
def PEG_EVENT.SLOT_MISS : Field := ⟨PEG_EVENT.addr, 8, 1⟩
def PEG_EVENT.FLOW_DROP : Field := ⟨PEG_EVENT.addr, 9, 1⟩
def PEG_CHAIN_CFG.addr : Nat := 0x4800C
def PEG_CHAIN_CFG.GUARD : Field := ⟨PEG_CHAIN_CFG.addr, 0, 12⟩
def PEG_SCHED_CTRL.addr : Nat := 0x48010
def PEG_SCHED_CTRL.COMMIT : Field := ⟨PEG_SCHED_CTRL.addr, 0, 1⟩
def PEG_SCHED_CTRL.CANCEL : Field := ⟨PEG_SCHED_CTRL.addr, 1, 1⟩
def PEG_SCHED_CTRL.BOOT_BANK : Field := ⟨PEG_SCHED_CTRL.addr, 2, 1⟩
def PEG_SCHED_STAT.addr : Nat := 0x48014
def PEG_SCHED_STAT.RESULT : Field := ⟨PEG_SCHED_STAT.addr, 0, 4⟩
def PEG_SCHED_STAT.OPER_BANK : Field := ⟨PEG_SCHED_STAT.addr, 4, 1⟩
def PEG_SCHED_STAT.PENDING : Field := ⟨PEG_SCHED_STAT.addr, 5, 1⟩
def PEG_SCHED_STAT.BAD_SLOT : Field := ⟨PEG_SCHED_STAT.addr, 6, 6⟩
def PEG_SCHED_SWAP_LO.addr : Nat := 0x48018
def PEG_SCHED_SWAP_LO.T : Field := ⟨PEG_SCHED_SWAP_LO.addr, 0, 32⟩
def PEG_SCHED_SWAP_HI.addr : Nat := 0x4801C
def PEG_SCHED_SWAP_HI.T : Field := ⟨PEG_SCHED_SWAP_HI.addr, 0, 32⟩
def PEG_MSG_CFG.addr : Nat := 0x48020
def PEG_MSG_CFG.ACK_RND : Field := ⟨PEG_MSG_CFG.addr, 0, 4⟩
def PEG_MSG_CFG.RETRIES : Field := ⟨PEG_MSG_CFG.addr, 4, 4⟩
def PEG_FLOW_CFG.addr : Nat := 0x48024
def PEG_FLOW_CFG.QLIM : Field := ⟨PEG_FLOW_CFG.addr, 0, 8⟩
def PEG_FLOW_CFG.MAX_LEN : Field := ⟨PEG_FLOW_CFG.addr, 16, 14⟩
def PEG_MSG_ROUTEk.addr (k : Nat) : Nat := 0x48030 + 0x4 * k
def PEG_MSG_ROUTEk.RING (k : Nat) : Field := ⟨PEG_MSG_ROUTEk.addr k, 0, 32⟩
def PEG_MSG_ROUTE_EN.addr : Nat := 0x48040
def PEG_MSG_ROUTE_EN.EN : Field := ⟨PEG_MSG_ROUTE_EN.addr, 0, 32⟩
def PEG_SPARE_CTRL.addr : Nat := 0x48044
def PEG_SPARE_CTRL.SLOT : Field := ⟨PEG_SPARE_CTRL.addr, 0, 6⟩
def PEG_SPARE_CTRL.CLAIM : Field := ⟨PEG_SPARE_CTRL.addr, 8, 1⟩
def PEG_SPARE_CTRL.RELEASE : Field := ⟨PEG_SPARE_CTRL.addr, 9, 1⟩
def PEG_SPARE_CTRL.RESULT : Field := ⟨PEG_SPARE_CTRL.addr, 10, 2⟩
def PEG_SPARE_OWNk.addr (k : Nat) : Nat := 0x48080 + 0x4 * k
def PEG_SPARE_OWNk.OWN (k : Nat) : Field := ⟨PEG_SPARE_OWNk.addr k, 0, 32⟩
def PEG_TX_FRAMES.addr : Nat := 0x480C0
def PEG_TX_FRAMES.COUNT : Field := ⟨PEG_TX_FRAMES.addr, 0, 32⟩
def PEG_RX_GOOD_A.addr : Nat := 0x480C4
def PEG_RX_GOOD_A.COUNT : Field := ⟨PEG_RX_GOOD_A.addr, 0, 32⟩
def PEG_RX_GOOD_B.addr : Nat := 0x480C8
def PEG_RX_GOOD_B.COUNT : Field := ⟨PEG_RX_GOOD_B.addr, 0, 32⟩
def PEG_RX_CRC_A.addr : Nat := 0x480CC
def PEG_RX_CRC_A.COUNT : Field := ⟨PEG_RX_CRC_A.addr, 0, 32⟩
def PEG_RX_CRC_B.addr : Nat := 0x480D0
def PEG_RX_CRC_B.COUNT : Field := ⟨PEG_RX_CRC_B.addr, 0, 32⟩
def PEG_RX_HDR.addr : Nat := 0x480D4
def PEG_RX_HDR.COUNT : Field := ⟨PEG_RX_HDR.addr, 0, 32⟩
def PEG_RX_TIME.addr : Nat := 0x480D8
def PEG_RX_TIME.COUNT : Field := ⟨PEG_RX_TIME.addr, 0, 32⟩
def PEG_SLOT_MISS.addr : Nat := 0x480DC
def PEG_SLOT_MISS.COUNT : Field := ⟨PEG_SLOT_MISS.addr, 0, 32⟩
def PEG_AB_MISMATCH.addr : Nat := 0x480E0
def PEG_AB_MISMATCH.COUNT : Field := ⟨PEG_AB_MISMATCH.addr, 0, 32⟩
def PEG_ASM_ERR.addr : Nat := 0x480E4
def PEG_ASM_ERR.COUNT : Field := ⟨PEG_ASM_ERR.addr, 0, 32⟩
def PEG_FLOW_DROP.addr : Nat := 0x480E8
def PEG_FLOW_DROP.COUNT : Field := ⟨PEG_FLOW_DROP.addr, 0, 32⟩
def PEG_MSG_RETX.addr : Nat := 0x480EC
def PEG_MSG_RETX.COUNT : Field := ⟨PEG_MSG_RETX.addr, 0, 32⟩
def PEG_MSG_NOACK.addr : Nat := 0x480F0
def PEG_MSG_NOACK.COUNT : Field := ⟨PEG_MSG_NOACK.addr, 0, 32⟩
def PEG_DUP_RX.addr : Nat := 0x480F4
def PEG_DUP_RX.COUNT : Field := ⟨PEG_DUP_RX.addr, 0, 32⟩
def PEG_MSG_REJ.addr : Nat := 0x480F8
def PEG_MSG_REJ.COUNT : Field := ⟨PEG_MSG_REJ.addr, 0, 32⟩
def PEG_CLAIM_COLL.addr : Nat := 0x480FC
def PEG_CLAIM_COLL.COUNT : Field := ⟨PEG_CLAIM_COLL.addr, 0, 32⟩
def PEG_SYNC_CFG.addr : Nat := 0x48100
def PEG_SYNC_CFG.MIN_VALS : Field := ⟨PEG_SYNC_CFG.addr, 0, 4⟩
def PEG_SYNC_CFG.CS_EN : Field := ⟨PEG_SYNC_CFG.addr, 4, 1⟩
def PEG_SYNC_CFG.REF_EN : Field := ⟨PEG_SYNC_CFG.addr, 5, 1⟩
def PEG_SYNC_CFG.FN_ELIG : Field := ⟨PEG_SYNC_CFG.addr, 6, 1⟩
def PEG_SYNC_CFG.LOSS_RND : Field := ⟨PEG_SYNC_CFG.addr, 8, 8⟩
def PEG_SYNC_CFG.RATE_SHIFT : Field := ⟨PEG_SYNC_CFG.addr, 16, 3⟩
def PEG_SYNC_CFG.OFF_PPM : Field := ⟨PEG_SYNC_CFG.addr, 20, 9⟩
def PEG_SYNC_WIN.addr : Nat := 0x48104
def PEG_SYNC_WIN.W : Field := ⟨PEG_SYNC_WIN.addr, 0, 14⟩
def PEG_SYNC_BUSDLY.addr : Nat := 0x48108
def PEG_SYNC_BUSDLY.DLY : Field := ⟨PEG_SYNC_BUSDLY.addr, 0, 12⟩
def PEG_SYNC_STATUS.addr : Nat := 0x48110
def PEG_SYNC_STATUS.STATE : Field := ⟨PEG_SYNC_STATUS.addr, 0, 3⟩
def PEG_SYNC_STATUS.REF : Field := ⟨PEG_SYNC_STATUS.addr, 3, 1⟩
def PEG_SYNC_STATUS.FIRST : Field := ⟨PEG_SYNC_STATUS.addr, 4, 1⟩
def PEG_SYNC_STATUS.ROLE : Field := ⟨PEG_SYNC_STATUS.addr, 5, 1⟩
def PEG_SYNC_STATUS.GRID : Field := ⟨PEG_SYNC_STATUS.addr, 6, 1⟩
def PEG_SYNC_STATUS.RING_OK : Field := ⟨PEG_SYNC_STATUS.addr, 7, 1⟩
def PEG_SYNC_STATUS.REF_CH : Field := ⟨PEG_SYNC_STATUS.addr, 8, 1⟩
def PEG_SYNC_STATUS.WEAK : Field := ⟨PEG_SYNC_STATUS.addr, 9, 1⟩
def PEG_SYNC_STATUS.LONE_FAULT : Field := ⟨PEG_SYNC_STATUS.addr, 10, 1⟩
def PEG_SYNC_STATUS.CS_COUNT : Field := ⟨PEG_SYNC_STATUS.addr, 11, 5⟩
def PEG_SYNC_STATUS.NO_CORR : Field := ⟨PEG_SYNC_STATUS.addr, 16, 8⟩
def PEG_SYNC_EVENT.addr : Nat := 0x48114
def PEG_SYNC_EVENT.SYNC_ENTER : Field := ⟨PEG_SYNC_EVENT.addr, 0, 1⟩
def PEG_SYNC_EVENT.SYNC_LOST : Field := ⟨PEG_SYNC_EVENT.addr, 1, 1⟩
def PEG_SYNC_EVENT.SYNC_WEAK : Field := ⟨PEG_SYNC_EVENT.addr, 2, 1⟩
def PEG_SYNC_EVENT.LONE : Field := ⟨PEG_SYNC_EVENT.addr, 3, 1⟩
def PEG_SYNC_EVENT.COLDSTART : Field := ⟨PEG_SYNC_EVENT.addr, 4, 1⟩
def PEG_SYNC_EVENT.RING_BREAK : Field := ⟨PEG_SYNC_EVENT.addr, 5, 1⟩
def PEG_SYNC_EVENT.RING_HEAL : Field := ⟨PEG_SYNC_EVENT.addr, 6, 1⟩
def PEG_SYNC_EVENT.RATE_LIMIT : Field := ⟨PEG_SYNC_EVENT.addr, 7, 1⟩
def PEG_SYNC_EVENT.FIRST_CONFLICT : Field := ⟨PEG_SYNC_EVENT.addr, 8, 1⟩
def PEG_SYNC_EVENT.SCHED_MISMATCH : Field := ⟨PEG_SYNC_EVENT.addr, 9, 1⟩
def PEG_SYNC_EVENT.INTEG_REJ : Field := ⟨PEG_SYNC_EVENT.addr, 10, 1⟩
def PEG_SYNC_EVENT.ROLE_CHG : Field := ⟨PEG_SYNC_EVENT.addr, 11, 1⟩
def PEG_SYNC_OFFSET.addr : Nat := 0x48118
def PEG_SYNC_OFFSET.VALUE : Field := ⟨PEG_SYNC_OFFSET.addr, 0, 32⟩
def PEG_SYNC_RATE.addr : Nat := 0x4811C
def PEG_SYNC_RATE.VALUE : Field := ⟨PEG_SYNC_RATE.addr, 0, 32⟩
def PEG_SYNC_NVALS.addr : Nat := 0x48120
def PEG_SYNC_NVALS.OFF_N : Field := ⟨PEG_SYNC_NVALS.addr, 0, 4⟩
def PEG_SYNC_NVALS.K : Field := ⟨PEG_SYNC_NVALS.addr, 4, 2⟩
def PEG_SYNC_NVALS.RATE_N : Field := ⟨PEG_SYNC_NVALS.addr, 6, 4⟩
def PEG_SYNC_SCHED_CRC.addr : Nat := 0x48124
def PEG_SYNC_SCHED_CRC.CRC : Field := ⟨PEG_SYNC_SCHED_CRC.addr, 0, 32⟩
def PEG_SYNC_DEVk.addr (k : Nat) : Nat := 0x48140 + 0x4 * k
def PEG_SYNC_DEVk.D (k : Nat) : Field := ⟨PEG_SYNC_DEVk.addr k, 0, 32⟩
def PEG_DLY_A.addr : Nat := 0x48160
def PEG_DLY_A.MT : Field := ⟨PEG_DLY_A.addr, 0, 24⟩
def PEG_DLY_A.FN : Field := ⟨PEG_DLY_A.addr, 24, 5⟩
def PEG_DLY_A.VALID : Field := ⟨PEG_DLY_A.addr, 31, 1⟩
def PEG_DLY_B.addr : Nat := 0x48164
def PEG_DLY_B.MT : Field := ⟨PEG_DLY_B.addr, 0, 24⟩
def PEG_DLY_B.FN : Field := ⟨PEG_DLY_B.addr, 24, 5⟩
def PEG_DLY_B.VALID : Field := ⟨PEG_DLY_B.addr, 31, 1⟩
def PEG_LINK_P0.addr : Nat := 0x48168
def PEG_LINK_P0.MT : Field := ⟨PEG_LINK_P0.addr, 0, 24⟩
def PEG_LINK_P0.FN : Field := ⟨PEG_LINK_P0.addr, 24, 5⟩
def PEG_LINK_P0.VALID : Field := ⟨PEG_LINK_P0.addr, 31, 1⟩
def PEG_LINK_P1.addr : Nat := 0x4816C
def PEG_LINK_P1.MT : Field := ⟨PEG_LINK_P1.addr, 0, 24⟩
def PEG_LINK_P1.FN : Field := ⟨PEG_LINK_P1.addr, 24, 5⟩
def PEG_LINK_P1.VALID : Field := ⟨PEG_LINK_P1.addr, 31, 1⟩
def PEG_SYNC_LOSS.addr : Nat := 0x48180
def PEG_SYNC_LOSS.COUNT : Field := ⟨PEG_SYNC_LOSS.addr, 0, 32⟩
def PEG_SYNC_OUTLIER.addr : Nat := 0x48184
def PEG_SYNC_OUTLIER.COUNT : Field := ⟨PEG_SYNC_OUTLIER.addr, 0, 32⟩
def PEG_SYNC_NOCORR.addr : Nat := 0x48188
def PEG_SYNC_NOCORR.COUNT : Field := ⟨PEG_SYNC_NOCORR.addr, 0, 32⟩
def PEG_INTEG_REJ.addr : Nat := 0x4818C
def PEG_INTEG_REJ.COUNT : Field := ⟨PEG_INTEG_REJ.addr, 0, 32⟩
def PEG_SCHED_MISMATCH.addr : Nat := 0x48190
def PEG_SCHED_MISMATCH.COUNT : Field := ⟨PEG_SCHED_MISMATCH.addr, 0, 32⟩
def PEG_CS_SENT.addr : Nat := 0x48194
def PEG_CS_SENT.COUNT : Field := ⟨PEG_CS_SENT.addr, 0, 32⟩
def PEG_ECHO_MISS.addr : Nat := 0x48198
def PEG_ECHO_MISS.COUNT : Field := ⟨PEG_ECHO_MISS.addr, 0, 32⟩

/-! ### LSH (chapter 13) -/

def LSH_CTRL.addr : Nat := 0x50000
def LSH_CTRL.EN : Field := ⟨LSH_CTRL.addr, 0, 1⟩
def LSH_CTRL.RELEASE : Field := ⟨LSH_CTRL.addr, 1, 1⟩
def LSH_CFG.addr : Nat := 0x50004
def LSH_CFG.LEASE_FR : Field := ⟨LSH_CFG.addr, 0, 11⟩
def LSH_CFG.GUARD_FR : Field := ⟨LSH_CFG.addr, 12, 8⟩
def LSH_CFG.RANK : Field := ⟨LSH_CFG.addr, 20, 1⟩
def LSH_HEALTH.addr : Nat := 0x50008
def LSH_HEALTH.MIN : Field := ⟨LSH_HEALTH.addr, 0, 8⟩
def LSH_HEALTH.FLOOR : Field := ⟨LSH_HEALTH.addr, 8, 8⟩
def LSH_STATUS.addr : Nat := 0x5000C
def LSH_STATUS.STATE : Field := ⟨LSH_STATUS.addr, 0, 3⟩
def LSH_STATUS.RUN : Field := ⟨LSH_STATUS.addr, 3, 3⟩
def LSH_STATUS.HOLD_OUT : Field := ⟨LSH_STATUS.addr, 6, 1⟩
def LSH_STATUS.HOLD_IN : Field := ⟨LSH_STATUS.addr, 7, 1⟩
def LSH_STATUS.LANE_UP : Field := ⟨LSH_STATUS.addr, 8, 1⟩
def LSH_STATUS.PEER_PRESENT : Field := ⟨LSH_STATUS.addr, 9, 1⟩
def LSH_STATUS.PEER_HOLDING : Field := ⟨LSH_STATUS.addr, 10, 1⟩
def LSH_STATUS.PEER_HEALTHY : Field := ⟨LSH_STATUS.addr, 11, 1⟩
def LSH_STATUS.PEER_RANK : Field := ⟨LSH_STATUS.addr, 12, 1⟩
def LSH_STATUS.CFG_MATCH : Field := ⟨LSH_STATUS.addr, 13, 1⟩
def LSH_STATUS.ROLE_MATCH : Field := ⟨LSH_STATUS.addr, 14, 1⟩
def LSH_STATUS.ELIGIBLE : Field := ⟨LSH_STATUS.addr, 15, 1⟩
def LSH_STATUS.HEALTH : Field := ⟨LSH_STATUS.addr, 16, 8⟩
def LSH_STATUS.PEER_HEALTH : Field := ⟨LSH_STATUS.addr, 24, 8⟩
def LSH_EVENT.addr : Nat := 0x50010
def LSH_EVENT.TAKEN : Field := ⟨LSH_EVENT.addr, 0, 1⟩
def LSH_EVENT.RELEASED : Field := ⟨LSH_EVENT.addr, 1, 1⟩
def LSH_EVENT.LAPSING : Field := ⟨LSH_EVENT.addr, 2, 1⟩
def LSH_EVENT.CLAIM_YIELD : Field := ⟨LSH_EVENT.addr, 3, 1⟩
def LSH_EVENT.DUAL_HOLD : Field := ⟨LSH_EVENT.addr, 4, 1⟩
def LSH_EVENT.LANE_DOWN : Field := ⟨LSH_EVENT.addr, 5, 1⟩
def LSH_EVENT.LANE_UP : Field := ⟨LSH_EVENT.addr, 6, 1⟩
def LSH_EVENT.LINE_FAULT : Field := ⟨LSH_EVENT.addr, 7, 1⟩
def LSH_EVENT.CFG_MISMATCH : Field := ⟨LSH_EVENT.addr, 8, 1⟩
def LSH_EVENT.ROLE_MISMATCH : Field := ⟨LSH_EVENT.addr, 9, 1⟩
def LSH_EVENT.SEQ_STALE : Field := ⟨LSH_EVENT.addr, 10, 1⟩
def LSH_EVENT.PEER_RELEASED : Field := ⟨LSH_EVENT.addr, 11, 1⟩
def LSH_EXPIRY_LO.addr : Nat := 0x50014
def LSH_EXPIRY_LO.T : Field := ⟨LSH_EXPIRY_LO.addr, 0, 32⟩
def LSH_EXPIRY_HI.addr : Nat := 0x50018
def LSH_EXPIRY_HI.T : Field := ⟨LSH_EXPIRY_HI.addr, 0, 32⟩
def LSH_PEER_RENEW_LO.addr : Nat := 0x5001C
def LSH_PEER_RENEW_LO.T : Field := ⟨LSH_PEER_RENEW_LO.addr, 0, 32⟩
def LSH_PEER_RENEW_HI.addr : Nat := 0x50020
def LSH_PEER_RENEW_HI.T : Field := ⟨LSH_PEER_RENEW_HI.addr, 0, 32⟩
def LSH_TAKE_T_LO.addr : Nat := 0x50024
def LSH_TAKE_T_LO.T : Field := ⟨LSH_TAKE_T_LO.addr, 0, 32⟩
def LSH_TAKE_T_HI.addr : Nat := 0x50028
def LSH_TAKE_T_HI.T : Field := ⟨LSH_TAKE_T_HI.addr, 0, 32⟩
def LSH_PEER_GEN.addr : Nat := 0x5002C
def LSH_PEER_GEN.VALUE : Field := ⟨LSH_PEER_GEN.addr, 0, 32⟩
def LSH_PEER_CFG.addr : Nat := 0x50030
def LSH_PEER_CFG.BYTES : Field := ⟨LSH_PEER_CFG.addr, 0, 32⟩
def LSH_PEER_SCHED_CRC.addr : Nat := 0x50034
def LSH_PEER_SCHED_CRC.VALUE : Field := ⟨LSH_PEER_SCHED_CRC.addr, 0, 32⟩
def LSH_PEER_ALARM.addr : Nat := 0x50038
def LSH_PEER_ALARM.ALARMS : Field := ⟨LSH_PEER_ALARM.addr, 0, 17⟩
def LSH_SEQ_AGE.addr : Nat := 0x5003C
def LSH_SEQ_AGE.FR : Field := ⟨LSH_SEQ_AGE.addr, 0, 16⟩
def LSH_TAKES.addr : Nat := 0x50080
def LSH_TAKES.COUNT : Field := ⟨LSH_TAKES.addr, 0, 32⟩
def LSH_RELEASES.addr : Nat := 0x50084
def LSH_RELEASES.COUNT : Field := ⟨LSH_RELEASES.addr, 0, 32⟩
def LSH_YIELDS.addr : Nat := 0x50088
def LSH_YIELDS.COUNT : Field := ⟨LSH_YIELDS.addr, 0, 32⟩
def LSH_DUAL_HOLD.addr : Nat := 0x5008C
def LSH_DUAL_HOLD.COUNT : Field := ⟨LSH_DUAL_HOLD.addr, 0, 32⟩
def LSH_RX_FRAMES.addr : Nat := 0x50090
def LSH_RX_FRAMES.COUNT : Field := ⟨LSH_RX_FRAMES.addr, 0, 32⟩
def LSH_RX_ERR.addr : Nat := 0x50094
def LSH_RX_ERR.COUNT : Field := ⟨LSH_RX_ERR.addr, 0, 32⟩
def LSH_LANE_DOWN.addr : Nat := 0x50098
def LSH_LANE_DOWN.COUNT : Field := ⟨LSH_LANE_DOWN.addr, 0, 32⟩
def LSH_LAPSES.addr : Nat := 0x5009C
def LSH_LAPSES.COUNT : Field := ⟨LSH_LAPSES.addr, 0, 32⟩

/-! ### SHD (chapter 18) -/

def SHD_CTRL.addr : Nat := 0x54000
def SHD_CTRL.LB_EN : Field := ⟨SHD_CTRL.addr, 0, 1⟩
def SHD_CTRL.SWEEP_EN : Field := ⟨SHD_CTRL.addr, 1, 1⟩
def SHD_CTRL.RETIRE_EN : Field := ⟨SHD_CTRL.addr, 2, 1⟩
def SHD_STATUS.addr : Nat := 0x54004
def SHD_STATUS.SCORE : Field := ⟨SHD_STATUS.addr, 0, 8⟩
def SHD_STATUS.WORST : Field := ⟨SHD_STATUS.addr, 8, 5⟩
def SHD_STATUS.TEST_BUSY : Field := ⟨SHD_STATUS.addr, 13, 1⟩
def SHD_STATUS.TEST_LANE : Field := ⟨SHD_STATUS.addr, 14, 2⟩
def SHD_EVENT.addr : Nat := 0x54008
def SHD_EVENT.FAULT_NEW : Field := ⟨SHD_EVENT.addr, 0, 1⟩
def SHD_EVENT.CH_FAULT : Field := ⟨SHD_EVENT.addr, 1, 1⟩
def SHD_EVENT.SCORE_LOW : Field := ⟨SHD_EVENT.addr, 2, 1⟩
def SHD_EVENT.SCORE_OK : Field := ⟨SHD_EVENT.addr, 3, 1⟩
def SHD_EVENT.LB_FAIL : Field := ⟨SHD_EVENT.addr, 4, 1⟩
def SHD_EVENT.TABLE_ERR : Field := ⟨SHD_EVENT.addr, 5, 1⟩
def SHD_EVENT.RETIRE : Field := ⟨SHD_EVENT.addr, 6, 1⟩
def SHD_EVENT.LIFT_DONE : Field := ⟨SHD_EVENT.addr, 7, 1⟩
def SHD_EVENT.LIFT_REFUSED : Field := ⟨SHD_EVENT.addr, 8, 1⟩
def SHD_EVENT.REPORT_READY : Field := ⟨SHD_EVENT.addr, 9, 1⟩
def SHD_FAULT.addr : Nat := 0x5400C
def SHD_FAULT.FAULT : Field := ⟨SHD_FAULT.addr, 0, 22⟩
def SHD_FAULT_NEW.addr : Nat := 0x54010
def SHD_FAULT_NEW.FAULT : Field := ⟨SHD_FAULT_NEW.addr, 0, 22⟩
def SHD_CFG.addr : Nat := 0x54014
def SHD_CFG.DECAY_SF : Field := ⟨SHD_CFG.addr, 0, 8⟩
def SHD_CFG.LB_SF : Field := ⟨SHD_CFG.addr, 8, 8⟩
def SHD_CFG.SWEEP_SF : Field := ⟨SHD_CFG.addr, 16, 8⟩
def SHD_CFG.WEAR_LIM : Field := ⟨SHD_CFG.addr, 24, 8⟩
def SHD_WT0.addr : Nat := 0x54020
def SHD_WT0.WT : Field := ⟨SHD_WT0.addr, 0, 32⟩
def SHD_WT1.addr : Nat := 0x54024
def SHD_WT1.WT : Field := ⟨SHD_WT1.addr, 0, 32⟩
def SHD_WT2.addr : Nat := 0x54028
def SHD_WT2.WT : Field := ⟨SHD_WT2.addr, 0, 32⟩
def SHD_WT3.addr : Nat := 0x5402C
def SHD_WT3.WT : Field := ⟨SHD_WT3.addr, 0, 32⟩
def SHD_WT4.addr : Nat := 0x54030
def SHD_WT4.WT : Field := ⟨SHD_WT4.addr, 0, 32⟩
def SHD_PENj.addr (j : Nat) : Nat := 0x54040 + 0x4 * j
def SHD_PENj.PEN (j : Nat) : Field := ⟨SHD_PENj.addr j, 0, 32⟩
def SHD_FENCE_CTRL.addr : Nat := 0x54060
def SHD_FENCE_CTRL.FENCE : Field := ⟨SHD_FENCE_CTRL.addr, 0, 4⟩
def SHD_FENCE_CTRL.LIFT : Field := ⟨SHD_FENCE_CTRL.addr, 4, 4⟩
def SHD_FENCE_STAT.addr : Nat := 0x54064
def SHD_FENCE_STAT.CH : Field := ⟨SHD_FENCE_STAT.addr, 0, 32⟩
def SHD_FENCE_RPTn_T_LO.addr (n : Nat) : Nat := 0x54080 + 0x10 * n
def SHD_FENCE_RPTn_T_LO.T (n : Nat) : Field := ⟨SHD_FENCE_RPTn_T_LO.addr n, 0, 32⟩
def SHD_FENCE_RPTn_T_HI.addr (n : Nat) : Nat := 0x54084 + 0x10 * n
def SHD_FENCE_RPTn_T_HI.T (n : Nat) : Field := ⟨SHD_FENCE_RPTn_T_HI.addr n, 0, 32⟩
def SHD_FENCE_RPTn_TX.addr (n : Nat) : Nat := 0x54088 + 0x10 * n
def SHD_FENCE_RPTn_TX.TX_DROPS (n : Nat) : Field := ⟨SHD_FENCE_RPTn_TX.addr n, 0, 32⟩
def SHD_FENCE_RPTn_RX.addr (n : Nat) : Nat := 0x5408C + 0x10 * n
def SHD_FENCE_RPTn_RX.RX_DROPS (n : Nat) : Field := ⟨SHD_FENCE_RPTn_RX.addr n, 0, 16⟩
def SHD_FENCE_RPTn_RX.CAUSES (n : Nat) : Field := ⟨SHD_FENCE_RPTn_RX.addr n, 16, 7⟩
def SHD_LB_RESULT.addr : Nat := 0x540D0
def SHD_LB_RESULT.RESULT : Field := ⟨SHD_LB_RESULT.addr, 0, 16⟩
def SHD_LB_RESULT.TESTS : Field := ⟨SHD_LB_RESULT.addr, 16, 16⟩
def SHD_RETIRED.addr : Nat := 0x540D4
def SHD_RETIRED.COUNT : Field := ⟨SHD_RETIRED.addr, 0, 7⟩
def SHD_RETIRED.OVER : Field := ⟨SHD_RETIRED.addr, 7, 1⟩
def SHD_RETIRED.LAST : Field := ⟨SHD_RETIRED.addr, 8, 17⟩
def SHD_TBL_ERR.addr : Nat := 0x540D8
def SHD_TBL_ERR.WINDOW : Field := ⟨SHD_TBL_ERR.addr, 0, 4⟩
def SHD_TBL_ERR.WORD : Field := ⟨SHD_TBL_ERR.addr, 4, 16⟩
def SHD_TBL_ERR.COUNT : Field := ⟨SHD_TBL_ERR.addr, 24, 8⟩
def SHD_REPORT_CTRL.addr : Nat := 0x540DC
def SHD_REPORT_CTRL.TAKE : Field := ⟨SHD_REPORT_CTRL.addr, 0, 1⟩
def SHD_REPORTw.addr (w : Nat) : Nat := 0x540E0 + 0x4 * w
def SHD_REPORTw.WORD (w : Nat) : Field := ⟨SHD_REPORTw.addr w, 0, 32⟩

/-! ### SAP (chapter 14) -/

def SAPp_CTRL.addr (p : Nat) : Nat := 0x58000 + 0x80 * p
def SAPp_CTRL.EN (p : Nat) : Field := ⟨SAPp_CTRL.addr p, 0, 1⟩
def SAPp_CTRL.MASTER (p : Nat) : Field := ⟨SAPp_CTRL.addr p, 1, 1⟩
def SAPp_CTRL.GUARDED (p : Nat) : Field := ⟨SAPp_CTRL.addr p, 2, 1⟩
def SAPp_CTRL.IEC (p : Nat) : Field := ⟨SAPp_CTRL.addr p, 3, 1⟩
def SAPp_CTRL.TXD_HIZ (p : Nat) : Field := ⟨SAPp_CTRL.addr p, 4, 1⟩
def SAPp_FMT.addr (p : Nat) : Nat := 0x58004 + 0x80 * p
def SAPp_FMT.FORMAT (p : Nat) : Field := ⟨SAPp_FMT.addr p, 0, 2⟩
def SAPp_FMT.SLOTS (p : Nat) : Field := ⟨SAPp_FMT.addr p, 2, 5⟩
def SAPp_FMT.SLOT_BITS (p : Nat) : Field := ⟨SAPp_FMT.addr p, 7, 2⟩
def SAPp_FMT.WORD_M1 (p : Nat) : Field := ⟨SAPp_FMT.addr p, 9, 5⟩
def SAPp_FMT.RATE (p : Nat) : Field := ⟨SAPp_FMT.addr p, 14, 3⟩
def SAPp_FMT.BCLK_EDGE (p : Nat) : Field := ⟨SAPp_FMT.addr p, 17, 1⟩
def SAPp_FMT.FS_INV (p : Nat) : Field := ⟨SAPp_FMT.addr p, 18, 1⟩
def SAPp_FMT.FS_LONG (p : Nat) : Field := ⟨SAPp_FMT.addr p, 19, 1⟩
def SAPp_FMT.DELAY (p : Nat) : Field := ⟨SAPp_FMT.addr p, 20, 1⟩
def SAPp_FADE.addr (p : Nat) : Nat := 0x58008 + 0x80 * p
def SAPp_FADE.FADE_MS (p : Nat) : Field := ⟨SAPp_FADE.addr p, 0, 7⟩
def SAPp_STATUS.addr (p : Nat) : Nat := 0x5800C + 0x80 * p
def SAPp_STATUS.RUN (p : Nat) : Field := ⟨SAPp_STATUS.addr p, 0, 3⟩
def SAPp_STATUS.LOCKED (p : Nat) : Field := ⟨SAPp_STATUS.addr p, 3, 1⟩
def SAPp_STATUS.ALIGN_LOST (p : Nat) : Field := ⟨SAPp_STATUS.addr p, 4, 1⟩
def SAPp_STATUS.CFG_BAD (p : Nat) : Field := ⟨SAPp_STATUS.addr p, 5, 1⟩
def SAPp_STATUS.FILL (p : Nat) : Field := ⟨SAPp_STATUS.addr p, 6, 3⟩
def SAPp_STATUS.BCLK_DIV (p : Nat) : Field := ⟨SAPp_STATUS.addr p, 9, 9⟩
def SAPp_EVENT.addr (p : Nat) : Nat := 0x58010 + 0x80 * p
def SAPp_EVENT.UNDERRUN (p : Nat) : Field := ⟨SAPp_EVENT.addr p, 0, 1⟩
def SAPp_EVENT.OVERRUN (p : Nat) : Field := ⟨SAPp_EVENT.addr p, 1, 1⟩
def SAPp_EVENT.SLIP (p : Nat) : Field := ⟨SAPp_EVENT.addr p, 2, 1⟩
def SAPp_EVENT.PARTIAL (p : Nat) : Field := ⟨SAPp_EVENT.addr p, 3, 1⟩
def SAPp_EVENT.ALIGN_LOST (p : Nat) : Field := ⟨SAPp_EVENT.addr p, 4, 1⟩
def SAPp_EVENT.CFG_BAD (p : Nat) : Field := ⟨SAPp_EVENT.addr p, 5, 1⟩
def SAPp_EVENT.LOCK_LOST (p : Nat) : Field := ⟨SAPp_EVENT.addr p, 6, 1⟩
def SAPp_EVENT.LOCK (p : Nat) : Field := ⟨SAPp_EVENT.addr p, 7, 1⟩
def SAPp_EVENT.ERASURE (p : Nat) : Field := ⟨SAPp_EVENT.addr p, 8, 1⟩
def SAPp_EVENT.CS_CHANGE (p : Nat) : Field := ⟨SAPp_EVENT.addr p, 9, 1⟩
def SAPp_EVENT.IEC_ERR (p : Nat) : Field := ⟨SAPp_EVENT.addr p, 10, 1⟩
def SAPp_EVENT.STOPPED (p : Nat) : Field := ⟨SAPp_EVENT.addr p, 11, 1⟩
def SAPp_EVENT.SLOT_CONFLICT (p : Nat) : Field := ⟨SAPp_EVENT.addr p, 12, 1⟩
def SAPp_SLIP.addr (p : Nat) : Nat := 0x58014 + 0x80 * p
def SAPp_SLIP.DROP (p : Nat) : Field := ⟨SAPp_SLIP.addr p, 0, 16⟩
def SAPp_SLIP.REPEAT (p : Nat) : Field := ⟨SAPp_SLIP.addr p, 16, 16⟩
def SAPp_ERR.addr (p : Nat) : Nat := 0x58018 + 0x80 * p
def SAPp_ERR.PARTIAL (p : Nat) : Field := ⟨SAPp_ERR.addr p, 0, 16⟩
def SAPp_ERR.IEC_ERR (p : Nat) : Field := ⟨SAPp_ERR.addr p, 16, 16⟩
def SAPp_XRUN.addr (p : Nat) : Nat := 0x5801C + 0x80 * p
def SAPp_XRUN.UNDER (p : Nat) : Field := ⟨SAPp_XRUN.addr p, 0, 16⟩
def SAPp_XRUN.OVER (p : Nat) : Field := ⟨SAPp_XRUN.addr p, 16, 16⟩
def SAPp_ERASE.addr (p : Nat) : Nat := 0x58020 + 0x80 * p
def SAPp_ERASE.ROUNDS (p : Nat) : Field := ⟨SAPp_ERASE.addr p, 0, 16⟩
def SAP_OMAPk.addr (k : Nat) : Nat := 0x58400 + 0x4 * k
def SAP_OMAPk.EN (k : Nat) : Field := ⟨SAP_OMAPk.addr k, 0, 1⟩
def SAP_OMAPk.SRC (k : Nat) : Field := ⟨SAP_OMAPk.addr k, 1, 2⟩
def SAP_OMAPk.PORT (k : Nat) : Field := ⟨SAP_OMAPk.addr k, 3, 4⟩
def SAP_OMAPk.SLOT (k : Nat) : Field := ⟨SAP_OMAPk.addr k, 7, 4⟩
def SAP_OMAPk.CONT (k : Nat) : Field := ⟨SAP_OMAPk.addr k, 11, 2⟩
def SAP_OMAPk.CODEC (k : Nat) : Field := ⟨SAP_OMAPk.addr k, 13, 2⟩
def SAP_OMAPk.VCH (k : Nat) : Field := ⟨SAP_OMAPk.addr k, 15, 6⟩
def SAP_OMAPk.RUN (k : Nat) : Field := ⟨SAP_OMAPk.addr k, 21, 3⟩
def SAP_OMAPk.FADE (k : Nat) : Field := ⟨SAP_OMAPk.addr k, 24, 2⟩
def SAP_IMAPk.addr (k : Nat) : Nat := 0x58500 + 0x4 * k
def SAP_IMAPk.EN (k : Nat) : Field := ⟨SAP_IMAPk.addr k, 0, 1⟩
def SAP_IMAPk.SRC (k : Nat) : Field := ⟨SAP_IMAPk.addr k, 1, 2⟩
def SAP_IMAPk.PORT (k : Nat) : Field := ⟨SAP_IMAPk.addr k, 3, 4⟩
def SAP_IMAPk.SLOT (k : Nat) : Field := ⟨SAP_IMAPk.addr k, 7, 4⟩
def SAP_IMAPk.CONT (k : Nat) : Field := ⟨SAP_IMAPk.addr k, 11, 2⟩
def SAP_IMAPk.CODEC (k : Nat) : Field := ⟨SAP_IMAPk.addr k, 13, 2⟩
def SAP_IMAPk.VCH (k : Nat) : Field := ⟨SAP_IMAPk.addr k, 15, 6⟩
def SAP_IMAPk.RUN (k : Nat) : Field := ⟨SAP_IMAPk.addr k, 21, 3⟩
def SAP_IMAPk.FADE (k : Nat) : Field := ⟨SAP_IMAPk.addr k, 24, 2⟩
def SAP_OUNDER_LO.addr : Nat := 0x58600
def SAP_OUNDER_LO.CH : Field := ⟨SAP_OUNDER_LO.addr, 0, 32⟩
def SAP_OUNDER_HI.addr : Nat := 0x58604
def SAP_OUNDER_HI.CH : Field := ⟨SAP_OUNDER_HI.addr, 0, 32⟩
def SAP_IOVER_LO.addr : Nat := 0x58608
def SAP_IOVER_LO.CH : Field := ⟨SAP_IOVER_LO.addr, 0, 32⟩
def SAP_IOVER_HI.addr : Nat := 0x5860C
def SAP_IOVER_HI.CH : Field := ⟨SAP_IOVER_HI.addr, 0, 32⟩
def SAP_VOICE_LAW.addr : Nat := 0x58610
def SAP_VOICE_LAW.LAW : Field := ⟨SAP_VOICE_LAW.addr, 0, 1⟩
def SAP_IECq_CFG.addr (q : Nat) : Nat := 0x58700 + 0x80 * q
def SAP_IECq_CFG.TX_EN (q : Nat) : Field := ⟨SAP_IECq_CFG.addr q, 0, 1⟩
def SAP_IECq_CFG.RX_EN (q : Nat) : Field := ⟨SAP_IECq_CFG.addr q, 1, 1⟩
def SAP_IECq_CFG.V_TX (q : Nat) : Field := ⟨SAP_IECq_CFG.addr q, 2, 1⟩
def SAP_IECq_CFG.CS_CRC (q : Nat) : Field := ⟨SAP_IECq_CFG.addr q, 3, 1⟩
def SAP_IECq_CFG.RX_V_ERASE (q : Nat) : Field := ⟨SAP_IECq_CFG.addr q, 4, 1⟩
def SAP_IECq_CS_TXk.addr (q : Nat) (k : Nat) : Nat := 0x58704 + 0x80 * q + 0x4 * k
def SAP_IECq_CS_TXk.BYTES (q : Nat) (k : Nat) : Field := ⟨SAP_IECq_CS_TXk.addr q k, 0, 32⟩
def SAP_IECq_CS_RXAk.addr (q : Nat) (k : Nat) : Nat := 0x5871C + 0x80 * q + 0x4 * k
def SAP_IECq_CS_RXAk.BYTES (q : Nat) (k : Nat) : Field := ⟨SAP_IECq_CS_RXAk.addr q k, 0, 32⟩
def SAP_IECq_CS_RXBk.addr (q : Nat) (k : Nat) : Nat := 0x58734 + 0x80 * q + 0x4 * k
def SAP_IECq_CS_RXBk.BYTES (q : Nat) (k : Nat) : Field := ⟨SAP_IECq_CS_RXBk.addr q k, 0, 32⟩

/-! ### SPK (chapter 14) -/

def SPK_CTRL.addr : Nat := 0x60000
def SPK_CTRL.EN : Field := ⟨SPK_CTRL.addr, 0, 1⟩
def SPK_CTRL.FAULT_CLR : Field := ⟨SPK_CTRL.addr, 1, 1⟩
def SPK_CFG.addr : Nat := 0x60004
def SPK_CFG.RATE : Field := ⟨SPK_CFG.addr, 0, 2⟩
def SPK_CFG.VOL : Field := ⟨SPK_CFG.addr, 2, 7⟩
def SPK_CFG.MUTE : Field := ⟨SPK_CFG.addr, 9, 1⟩
def SPK_CFG.RAMP_MS : Field := ⟨SPK_CFG.addr, 10, 7⟩
def SPK_STATUS.addr : Nat := 0x60008
def SPK_STATUS.RUN : Field := ⟨SPK_STATUS.addr, 0, 3⟩
def SPK_STATUS.STATE : Field := ⟨SPK_STATUS.addr, 3, 3⟩
def SPK_STATUS.FAULT : Field := ⟨SPK_STATUS.addr, 6, 1⟩
def SPK_STATUS.KIND : Field := ⟨SPK_STATUS.addr, 7, 3⟩
def SPK_STATUS.TRIPS : Field := ⟨SPK_STATUS.addr, 10, 3⟩
def SPK_STATUS.HOT : Field := ⟨SPK_STATUS.addr, 13, 1⟩
def SPK_STATUS.TIER_MUTED : Field := ⟨SPK_STATUS.addr, 14, 1⟩
def SPK_EVENT.addr : Nat := 0x6000C
def SPK_EVENT.TRIP : Field := ⟨SPK_EVENT.addr, 0, 1⟩
def SPK_EVENT.RETRY : Field := ⟨SPK_EVENT.addr, 1, 1⟩
def SPK_EVENT.RECOVERED : Field := ⟨SPK_EVENT.addr, 2, 1⟩
def SPK_EVENT.FAULT : Field := ⟨SPK_EVENT.addr, 3, 1⟩
def SPK_EVENT.STOPPED : Field := ⟨SPK_EVENT.addr, 4, 1⟩
def SPK_TRIP_CNT.addr : Nat := 0x60010
def SPK_TRIP_CNT.LOAD : Field := ⟨SPK_TRIP_CNT.addr, 0, 8⟩
def SPK_TRIP_CNT.GND : Field := ⟨SPK_TRIP_CNT.addr, 8, 8⟩
def SPK_TRIP_CNT.SUPPLY : Field := ⟨SPK_TRIP_CNT.addr, 16, 8⟩
def SPK_TRIP_CNT.THERMAL : Field := ⟨SPK_TRIP_CNT.addr, 24, 8⟩
def SPK_TEMP.addr : Nat := 0x60014
def SPK_TEMP.DEG : Field := ⟨SPK_TEMP.addr, 0, 8⟩

/-! ### LLB (chapter 15) -/

def LLB_CTRL.addr : Nat := 0x64000
def LLB_CTRL.EN : Field := ⟨LLB_CTRL.addr, 0, 1⟩
def LLB_CTRL.EV_EN : Field := ⟨LLB_CTRL.addr, 1, 1⟩
def LLB_CFG.addr : Nat := 0x64004
def LLB_CFG.TC : Field := ⟨LLB_CFG.addr, 0, 3⟩
def LLB_CFG.EV_TC : Field := ⟨LLB_CFG.addr, 3, 3⟩
def LLB_CFG.SEND_ALWAYS : Field := ⟨LLB_CFG.addr, 6, 1⟩
def LLB_CFG.EV_COPIES : Field := ⟨LLB_CFG.addr, 8, 2⟩
def LLB_CFG.HB_SF : Field := ⟨LLB_CFG.addr, 16, 8⟩
def LLB_EV_MASK.addr : Nat := 0x64008
def LLB_EV_MASK.MASK : Field := ⟨LLB_EV_MASK.addr, 0, 7⟩
def LLB_STATUS.addr : Nat := 0x6400C
def LLB_STATUS.RUN : Field := ⟨LLB_STATUS.addr, 0, 3⟩
def LLB_STATUS.EV_RUN : Field := ⟨LLB_STATUS.addr, 3, 3⟩
def LLB_STATUS.SENDING : Field := ⟨LLB_STATUS.addr, 6, 1⟩
def LLB_STATUS.BAD_CH : Field := ⟨LLB_STATUS.addr, 7, 5⟩
def LLB_STATUS.ACTIVE : Field := ⟨LLB_STATUS.addr, 16, 16⟩
def LLB_EVENT.addr : Nat := 0x64010
def LLB_EVENT.TPL_BAD : Field := ⟨LLB_EVENT.addr, 0, 1⟩
def LLB_EVENT.CONFLICT : Field := ⟨LLB_EVENT.addr, 1, 1⟩
def LLB_EVENT.RESYNC : Field := ⟨LLB_EVENT.addr, 2, 1⟩
def LLB_EVENT.RX_SILENT : Field := ⟨LLB_EVENT.addr, 3, 1⟩
def LLB_EVENT.RX_BACK : Field := ⟨LLB_EVENT.addr, 4, 1⟩
def LLB_EVENT.TX_DROP : Field := ⟨LLB_EVENT.addr, 5, 1⟩
def LLB_EVENT.EV_LOST : Field := ⟨LLB_EVENT.addr, 6, 1⟩
def LLB_CH_EN.addr : Nat := 0x64014
def LLB_CH_EN.EN : Field := ⟨LLB_CH_EN.addr, 0, 16⟩
def LLB_CH_RUN0.addr : Nat := 0x64018
def LLB_CH_RUN0.RUN : Field := ⟨LLB_CH_RUN0.addr, 0, 24⟩
def LLB_CH_RUN1.addr : Nat := 0x6401C
def LLB_CH_RUN1.RUN : Field := ⟨LLB_CH_RUN1.addr, 0, 24⟩
def LLB_EV_SEQ.addr : Nat := 0x64020
def LLB_EV_SEQ.NEXT : Field := ⟨LLB_EV_SEQ.addr, 0, 16⟩
def LLB_EV_SENT.addr : Nat := 0x64024
def LLB_EV_SENT.COUNT : Field := ⟨LLB_EV_SENT.addr, 0, 32⟩
def LLB_EV_LOST.addr : Nat := 0x64028
def LLB_EV_LOST.COUNT : Field := ⟨LLB_EV_LOST.addr, 0, 32⟩

/-! ### CMP (chapter 16) -/

def CMP_CTRL.addr : Nat := 0x68000
def CMP_CTRL.EN : Field := ⟨CMP_CTRL.addr, 0, 1⟩
def CMP_STATUS.addr : Nat := 0x68004
def CMP_STATUS.RUN : Field := ⟨CMP_STATUS.addr, 0, 3⟩
def CMP_STATUS.AVAIL : Field := ⟨CMP_STATUS.addr, 3, 1⟩
def CMP_STATUS.BUSY : Field := ⟨CMP_STATUS.addr, 4, 1⟩
def CMP_STATUS.CUR_CTX : Field := ⟨CMP_STATUS.addr, 5, 4⟩
def CMP_STATUS.CUR_FN : Field := ⟨CMP_STATUS.addr, 9, 4⟩
def CMP_EVENT.addr : Nat := 0x68008
def CMP_EVENT.FALLBACK : Field := ⟨CMP_EVENT.addr, 0, 1⟩
def CMP_EVENT.HARD_FAIL : Field := ⟨CMP_EVENT.addr, 1, 1⟩
def CMP_EVENT.JOB_ABORT : Field := ⟨CMP_EVENT.addr, 2, 1⟩
def CMP_EVENT.DATA_ERR : Field := ⟨CMP_EVENT.addr, 3, 1⟩
def CMP_EVENT.OUT_FULL : Field := ⟨CMP_EVENT.addr, 4, 1⟩
def CMP_EVENT.CTX_LOST : Field := ⟨CMP_EVENT.addr, 5, 1⟩
def CMP_CTX_STATE.addr : Nat := 0x6800C
def CMP_CTX_STATE.STATE : Field := ⟨CMP_CTX_STATE.addr, 0, 32⟩
def CMP_LAST_FB.addr : Nat := 0x68010
def CMP_LAST_FB.CTX : Field := ⟨CMP_LAST_FB.addr, 0, 4⟩
def CMP_LAST_FB.FN : Field := ⟨CMP_LAST_FB.addr, 4, 4⟩
def CMP_LAST_FB_OFS.addr : Nat := 0x68014
def CMP_LAST_FB_OFS.OFS : Field := ⟨CMP_LAST_FB_OFS.addr, 0, 32⟩
def CMP_JOBS.addr : Nat := 0x68040
def CMP_JOBS.COUNT : Field := ⟨CMP_JOBS.addr, 0, 32⟩
def CMP_BLOCKS.addr : Nat := 0x68044
def CMP_BLOCKS.COUNT : Field := ⟨CMP_BLOCKS.addr, 0, 32⟩
def CMP_FALLBACK.addr : Nat := 0x68048
def CMP_FALLBACK.COUNT : Field := ⟨CMP_FALLBACK.addr, 0, 32⟩
def CMP_HARD.addr : Nat := 0x6804C
def CMP_HARD.COUNT : Field := ⟨CMP_HARD.addr, 0, 32⟩
def CMP_ABORTS.addr : Nat := 0x68050
def CMP_ABORTS.COUNT : Field := ⟨CMP_ABORTS.addr, 0, 32⟩
def CMP_DATA_ERR.addr : Nat := 0x68054
def CMP_DATA_ERR.COUNT : Field := ⟨CMP_DATA_ERR.addr, 0, 32⟩

/-! ### FLD (chapter 17) -/

def FLD_EVENT.addr : Nat := 0x70000
def FLD_EVENT.GL_DONE : Field := ⟨FLD_EVENT.addr, 0, 1⟩
def FLD_EVENT.GL_ATTACH : Field := ⟨FLD_EVENT.addr, 1, 1⟩
def FLD_EVENT.GL_DISTURBED : Field := ⟨FLD_EVENT.addr, 2, 1⟩
def FLD_EVENT.CELL_NEW : Field := ⟨FLD_EVENT.addr, 3, 1⟩
def FLD_EVENT.CELL_GONE : Field := ⟨FLD_EVENT.addr, 4, 1⟩
def FLD_EVENT.CELL_EOL : Field := ⟨FLD_EVENT.addr, 5, 1⟩
def FLD_EVENT.SAG_DONE : Field := ⟨FLD_EVENT.addr, 6, 1⟩
def FLD_EVENT.SAG_ABORT : Field := ⟨FLD_EVENT.addr, 7, 1⟩
def FLD_EVENT.REC_BAD : Field := ⟨FLD_EVENT.addr, 8, 1⟩
def FLD_EVENT.GPI_CHG : Field := ⟨FLD_EVENT.addr, 9, 1⟩
def FLD_EVENT.GPI_STORM : Field := ⟨FLD_EVENT.addr, 10, 1⟩
def FLD_EVENT.GPI_STORM_END : Field := ⟨FLD_EVENT.addr, 11, 1⟩
def FLD_EVENT.GPI_REMIND : Field := ⟨FLD_EVENT.addr, 12, 1⟩
def FLD_EVENT.QSPI_DONE : Field := ⟨FLD_EVENT.addr, 15, 1⟩
def FLD_GL_CTRL.addr : Nat := 0x70010
def FLD_GL_CTRL.GO : Field := ⟨FLD_GL_CTRL.addr, 0, 1⟩
def FLD_GL_CTRL.OP : Field := ⟨FLD_GL_CTRL.addr, 1, 2⟩
def FLD_GL_CTRL.INCR : Field := ⟨FLD_GL_CTRL.addr, 3, 1⟩
def FLD_GL_CTRL.FN : Field := ⟨FLD_GL_CTRL.addr, 8, 8⟩
def FLD_GL_CTRL.LEN : Field := ⟨FLD_GL_CTRL.addr, 16, 7⟩
def FLD_GL_CFG.addr : Nat := 0x70014
def FLD_GL_CFG.RETRIES : Field := ⟨FLD_GL_CFG.addr, 0, 2⟩
def FLD_GL_CFG.AUTO : Field := ⟨FLD_GL_CFG.addr, 2, 1⟩
def FLD_GL_CFG.SHARED : Field := ⟨FLD_GL_CFG.addr, 3, 1⟩
def FLD_GL_CFG.PROG_MS : Field := ⟨FLD_GL_CFG.addr, 4, 8⟩
def FLD_GL_ADDR.addr : Nat := 0x70018
def FLD_GL_ADDR.ADDR : Field := ⟨FLD_GL_ADDR.addr, 0, 16⟩
def FLD_GL_TIDk.addr (k : Nat) : Nat := 0x7001C + 0x4 * k
def FLD_GL_TIDk.TID (k : Nat) : Field := ⟨FLD_GL_TIDk.addr k, 0, 32⟩
def FLD_GL_STATUS.addr : Nat := 0x70028
def FLD_GL_STATUS.BUSY : Field := ⟨FLD_GL_STATUS.addr, 0, 1⟩
def FLD_GL_STATUS.RESULT : Field := ⟨FLD_GL_STATUS.addr, 1, 4⟩
def FLD_GL_STATUS.PRESENT : Field := ⟨FLD_GL_STATUS.addr, 5, 1⟩
def FLD_GL_STATUS.DISTURBED : Field := ⟨FLD_GL_STATUS.addr, 6, 1⟩
def FLD_GL_STATUS.OVERFLOW : Field := ⟨FLD_GL_STATUS.addr, 7, 1⟩
def FLD_GL_STATUS.COUNT : Field := ⟨FLD_GL_STATUS.addr, 8, 7⟩
def FLD_GL_STATUS.LAST_DISC : Field := ⟨FLD_GL_STATUS.addr, 16, 7⟩
def FLD_GL_CNT.addr : Nat := 0x7002C
def FLD_GL_CNT.CRC_FAIL : Field := ⟨FLD_GL_CNT.addr, 0, 8⟩
def FLD_GL_CNT.COLL : Field := ⟨FLD_GL_CNT.addr, 8, 8⟩
def FLD_GL_CNT.ATTACH : Field := ⟨FLD_GL_CNT.addr, 16, 8⟩
def FLD_GL_CNT.ABANDON : Field := ⟨FLD_GL_CNT.addr, 24, 8⟩
def FLD_CELL_CTRL.addr : Nat := 0x70040
def FLD_CELL_CTRL.SAG_START : Field := ⟨FLD_CELL_CTRL.addr, 0, 1⟩
def FLD_CELL_CTRL.SAG_ABORT : Field := ⟨FLD_CELL_CTRL.addr, 1, 1⟩
def FLD_CELL_CTRL.EOL_CLR : Field := ⟨FLD_CELL_CTRL.addr, 2, 1⟩
def FLD_CELL_CTRL.AUTO_SAG : Field := ⟨FLD_CELL_CTRL.addr, 3, 1⟩
def FLD_CELL_STATUS.addr : Nat := 0x70044
def FLD_CELL_STATUS.PRESENT : Field := ⟨FLD_CELL_STATUS.addr, 0, 1⟩
def FLD_CELL_STATUS.REC_OK : Field := ⟨FLD_CELL_STATUS.addr, 1, 1⟩
def FLD_CELL_STATUS.MULTI : Field := ⟨FLD_CELL_STATUS.addr, 2, 1⟩
def FLD_CELL_STATUS.EOL : Field := ⟨FLD_CELL_STATUS.addr, 3, 1⟩
def FLD_CELL_STATUS.EOL_C : Field := ⟨FLD_CELL_STATUS.addr, 4, 1⟩
def FLD_CELL_STATUS.EOL_ESR : Field := ⟨FLD_CELL_STATUS.addr, 5, 1⟩
def FLD_CELL_STATUS.EOL_CYC : Field := ⟨FLD_CELL_STATUS.addr, 6, 1⟩
def FLD_CELL_STATUS.SAG_STATE : Field := ⟨FLD_CELL_STATUS.addr, 7, 3⟩
def FLD_CELL_STATUS.SAG_RESULT : Field := ⟨FLD_CELL_STATUS.addr, 10, 4⟩
def FLD_CELL_IDk.addr (k : Nat) : Nat := 0x70048 + 0x4 * k
def FLD_CELL_IDk.VALUE (k : Nat) : Field := ⟨FLD_CELL_IDk.addr k, 0, 32⟩
def FLD_CELL_RATED_C.addr : Nat := 0x70054
def FLD_CELL_RATED_C.VALUE : Field := ⟨FLD_CELL_RATED_C.addr, 0, 32⟩
def FLD_CELL_RATED_ESR.addr : Nat := 0x70058
def FLD_CELL_RATED_ESR.VALUE : Field := ⟨FLD_CELL_RATED_ESR.addr, 0, 32⟩
def FLD_CELL_RATED_CYC.addr : Nat := 0x7005C
def FLD_CELL_RATED_CYC.VALUE : Field := ⟨FLD_CELL_RATED_CYC.addr, 0, 32⟩
def FLD_CELL_RATED_MV.addr : Nat := 0x70060
def FLD_CELL_RATED_MV.VALUE : Field := ⟨FLD_CELL_RATED_MV.addr, 0, 32⟩
def FLD_CELL_C.addr : Nat := 0x70064
def FLD_CELL_C.VALUE : Field := ⟨FLD_CELL_C.addr, 0, 32⟩
def FLD_CELL_ESR.addr : Nat := 0x70068
def FLD_CELL_ESR.VALUE : Field := ⟨FLD_CELL_ESR.addr, 0, 32⟩
def FLD_CELL_CYCLES.addr : Nat := 0x7006C
def FLD_CELL_CYCLES.VALUE : Field := ⟨FLD_CELL_CYCLES.addr, 0, 32⟩
def FLD_CELL_LAST_T.addr : Nat := 0x70070
def FLD_CELL_LAST_T.VALUE : Field := ⟨FLD_CELL_LAST_T.addr, 0, 32⟩
def FLD_CELL_CFG.addr : Nat := 0x70074
def FLD_CELL_CFG.CYCLE_DROP_MV : Field := ⟨FLD_CELL_CFG.addr, 0, 16⟩
def FLD_CELL_CFG.CYC_PEND : Field := ⟨FLD_CELL_CFG.addr, 16, 8⟩
def FLD_SAG_CFG.addr : Nat := 0x70078
def FLD_SAG_CFG.LOAD_MOHM : Field := ⟨FLD_SAG_CFG.addr, 0, 16⟩
def FLD_SAG_CFG.PERIOD_H : Field := ⟨FLD_SAG_CFG.addr, 16, 8⟩
def FLD_SAG_CFG.ISTEP_MA : Field := ⟨FLD_SAG_CFG.addr, 24, 8⟩
def FLD_SAG_WIN.addr : Nat := 0x7007C
def FLD_SAG_WIN.START_MIN : Field := ⟨FLD_SAG_WIN.addr, 0, 11⟩
def FLD_SAG_WIN.LEN_MIN : Field := ⟨FLD_SAG_WIN.addr, 16, 11⟩
def FLD_SAG_READY.addr : Nat := 0x70080
def FLD_SAG_READY.READY_MV : Field := ⟨FLD_SAG_READY.addr, 0, 16⟩
def FLD_SAG_V0.addr : Nat := 0x70084
def FLD_SAG_V0.VALUE : Field := ⟨FLD_SAG_V0.addr, 0, 32⟩
def FLD_SAG_VA.addr : Nat := 0x70088
def FLD_SAG_VA.VALUE : Field := ⟨FLD_SAG_VA.addr, 0, 32⟩
def FLD_SAG_VB.addr : Nat := 0x7008C
def FLD_SAG_VB.VALUE : Field := ⟨FLD_SAG_VB.addr, 0, 32⟩
def FLD_GPI_LEVEL.addr : Nat := 0x700C0
def FLD_GPI_LEVEL.RAW : Field := ⟨FLD_GPI_LEVEL.addr, 0, 16⟩
def FLD_GPI_LEVEL.DEB : Field := ⟨FLD_GPI_LEVEL.addr, 16, 16⟩
def FLD_GPI_LATCH.addr : Nat := 0x700C4
def FLD_GPI_LATCH.LATCH : Field := ⟨FLD_GPI_LATCH.addr, 0, 16⟩
def FLD_GPI_CHG.addr : Nat := 0x700C8
def FLD_GPI_CHG.CHG : Field := ⟨FLD_GPI_CHG.addr, 0, 16⟩
def FLD_GPI_CHG.STORM : Field := ⟨FLD_GPI_CHG.addr, 16, 16⟩
def FLD_GPI_CFG.addr : Nat := 0x700CC
def FLD_GPI_CFG.INVERT : Field := ⟨FLD_GPI_CFG.addr, 0, 16⟩
def FLD_GPI_CFG.LATCH_EN : Field := ⟨FLD_GPI_CFG.addr, 16, 16⟩
def FLD_GPI_STORM_CFG.addr : Nat := 0x700D0
def FLD_GPI_STORM_CFG.LIMIT : Field := ⟨FLD_GPI_STORM_CFG.addr, 0, 8⟩
def FLD_GPI_STORM_CFG.QUIET_S : Field := ⟨FLD_GPI_STORM_CFG.addr, 8, 4⟩
def FLD_GPI_STORM_CFG.REMIND_S : Field := ⟨FLD_GPI_STORM_CFG.addr, 16, 8⟩
def FLD_GPI_DEBk.addr (k : Nat) : Nat := 0x700D4 + 0x4 * k
def FLD_GPI_DEBk.DEB_MS (k : Nat) : Field := ⟨FLD_GPI_DEBk.addr k, 0, 32⟩
def FLD_GPI_STORM_CNT.addr : Nat := 0x700E4
def FLD_GPI_STORM_CNT.COUNT : Field := ⟨FLD_GPI_STORM_CNT.addr, 0, 16⟩
def FLD_GPO.addr : Nat := 0x700F0
def FLD_GPO.OUT : Field := ⟨FLD_GPO.addr, 0, 8⟩
def FLD_GPO.LEVEL : Field := ⟨FLD_GPO.addr, 8, 8⟩
def FLD_GPO.DRIVEN : Field := ⟨FLD_GPO.addr, 16, 1⟩
def FLD_GL_BUFk.addr (k : Nat) : Nat := 0x70100 + 0x4 * k
def FLD_GL_BUFk.BYTES (k : Nat) : Field := ⟨FLD_GL_BUFk.addr k, 0, 32⟩
def FLD_MI2Cm_CMD.addr (m : Nat) : Nat := 0x70180 + 0x10 * m
def FLD_MI2Cm_CMD.GO (m : Nat) : Field := ⟨FLD_MI2Cm_CMD.addr m, 0, 1⟩
def FLD_MI2Cm_CMD.PORT (m : Nat) : Field := ⟨FLD_MI2Cm_CMD.addr m, 1, 1⟩
def FLD_MI2Cm_CMD.DEV (m : Nat) : Field := ⟨FLD_MI2Cm_CMD.addr m, 2, 1⟩
def FLD_MI2Cm_CMD.DIR (m : Nat) : Field := ⟨FLD_MI2Cm_CMD.addr m, 3, 1⟩
def FLD_MI2Cm_CMD.SPEED (m : Nat) : Field := ⟨FLD_MI2Cm_CMD.addr m, 4, 1⟩
def FLD_MI2Cm_CMD.OFFSET (m : Nat) : Field := ⟨FLD_MI2Cm_CMD.addr m, 8, 8⟩
def FLD_MI2Cm_CMD.LEN (m : Nat) : Field := ⟨FLD_MI2Cm_CMD.addr m, 16, 8⟩
def FLD_MI2Cm_CMD.RESULT (m : Nat) : Field := ⟨FLD_MI2Cm_CMD.addr m, 24, 4⟩
def FLD_QSPI_CMD.addr : Nat := 0x701A0
def FLD_QSPI_CMD.GO : Field := ⟨FLD_QSPI_CMD.addr, 0, 1⟩
def FLD_QSPI_CMD.KIND : Field := ⟨FLD_QSPI_CMD.addr, 1, 2⟩
def FLD_QSPI_CMD.DIR : Field := ⟨FLD_QSPI_CMD.addr, 3, 1⟩
def FLD_QSPI_CMD.LANES : Field := ⟨FLD_QSPI_CMD.addr, 4, 2⟩
def FLD_QSPI_CMD.ABYTES : Field := ⟨FLD_QSPI_CMD.addr, 6, 2⟩
def FLD_QSPI_CMD.OPCODE : Field := ⟨FLD_QSPI_CMD.addr, 8, 8⟩
def FLD_QSPI_CMD.DUMMY : Field := ⟨FLD_QSPI_CMD.addr, 16, 4⟩
def FLD_QSPI_CMD.LEN : Field := ⟨FLD_QSPI_CMD.addr, 20, 9⟩
def FLD_QSPI_ADDR.addr : Nat := 0x701A4
def FLD_QSPI_ADDR.ADDR : Field := ⟨FLD_QSPI_ADDR.addr, 0, 32⟩
def FLD_QSPI_CFG.addr : Nat := 0x701A8
def FLD_QSPI_CFG.DIV : Field := ⟨FLD_QSPI_CFG.addr, 0, 2⟩
def FLD_QSPI_CFG.CAL_LOCK : Field := ⟨FLD_QSPI_CFG.addr, 2, 1⟩
def FLD_QSPI_CFG.SLOT_LOCK : Field := ⟨FLD_QSPI_CFG.addr, 3, 1⟩
def FLD_QSPI_CFG.RESULT : Field := ⟨FLD_QSPI_CFG.addr, 8, 4⟩
def FLD_SMB_STATUS.addr : Nat := 0x701C0
def FLD_SMB_STATUS.ADDR : Field := ⟨FLD_SMB_STATUS.addr, 0, 7⟩
def FLD_SMB_STATUS.ERR : Field := ⟨FLD_SMB_STATUS.addr, 16, 8⟩
def FLD_MI2Cm_DATAk.addr (m : Nat) (k : Nat) : Nat := 0x70200 + 0x80 * m + 0x4 * k
def FLD_MI2Cm_DATAk.DATA (m : Nat) (k : Nat) : Field := ⟨FLD_MI2Cm_DATAk.addr m k, 0, 32⟩
def FLD_QSPI_DATAk.addr (k : Nat) : Nat := 0x70300 + 0x4 * k
def FLD_QSPI_DATAk.DATA (k : Nat) : Field := ⟨FLD_QSPI_DATAk.addr k, 0, 32⟩
def FLD_GL_ID.addr (j : Nat) (k : Nat) : Nat := 0x70400 + 0xC * j + 0x4 * k
def FLD_GL_ID.ID (j : Nat) (k : Nat) : Field := ⟨FLD_GL_ID.addr j k, 0, 32⟩

/-! ### MON (chapter 03) -/

def MON_VSCALE.addr : Nat := 0x78000
def MON_VSCALE.PER_CODE : Field := ⟨MON_VSCALE.addr, 0, 20⟩
def MON_ISCALE.addr : Nat := 0x78004
def MON_ISCALE.PER_CODE : Field := ⟨MON_ISCALE.addr, 0, 20⟩
def MON_CSCALE.addr : Nat := 0x78008
def MON_CSCALE.PER_CODE : Field := ⟨MON_CSCALE.addr, 0, 20⟩
def MON_FEED_V.addr : Nat := 0x78010
def MON_FEED_V.FILT : Field := ⟨MON_FEED_V.addr, 0, 12⟩
def MON_FEED_V.RAW : Field := ⟨MON_FEED_V.addr, 16, 12⟩
def MON_FEED_I.addr : Nat := 0x78014
def MON_FEED_I.VALUE : Field := ⟨MON_FEED_I.addr, 0, 16⟩
def MON_FEED_P.addr : Nat := 0x78018
def MON_FEED_P.VALUE : Field := ⟨MON_FEED_P.addr, 0, 24⟩
def MON_CELL_V.addr : Nat := 0x7801C
def MON_CELL_V.VALUE : Field := ⟨MON_CELL_V.addr, 0, 16⟩
def MON_TEMP.addr : Nat := 0x78020
def MON_TEMP.temps : Field := ⟨MON_TEMP.addr, 0, 32⟩
def MON_TEMP_MAX.addr : Nat := 0x78024
def MON_TEMP_MAX.QDEG : Field := ⟨MON_TEMP_MAX.addr, 0, 12⟩

/-! ### INT (chapter 05) -/

def INT_FN0_STATUS.addr : Nat := 0x80000
def INT_FN0_STATUS.BLOCK : Field := ⟨INT_FN0_STATUS.addr, 0, 21⟩
def INT_FN0_MASK.addr : Nat := 0x80004
def INT_FN0_MASK.MASK : Field := ⟨INT_FN0_MASK.addr, 0, 21⟩
def INT_FN0_VECk.addr (k : Nat) : Nat := 0x80010 + 0x4 * k
def INT_FN0_VECk.VEC (k : Nat) : Field := ⟨INT_FN0_VECk.addr k, 0, 32⟩
def INT_FN0_VEC5.addr : Nat := 0x80024
def INT_FN0_VEC5.VEC : Field := ⟨INT_FN0_VEC5.addr, 0, 8⟩
def INT_VF_SUM.addr : Nat := 0x80030
def INT_VF_SUM.PENDING : Field := ⟨INT_VF_SUM.addr, 1, 15⟩
def INT_VF_VIEWf.addr (f : Nat) : Nat := 0x80104 + 0x4 * f
def INT_VF_VIEWf.STATUS (f : Nat) : Field := ⟨INT_VF_VIEWf.addr f, 0, 4⟩
def INT_VF_VIEWf.MASK (f : Nat) : Field := ⟨INT_VF_VIEWf.addr f, 4, 4⟩

end Sys2Proof.Machine
end

