-- ==== Sys2Proof/Machine/RegTable.lean ====
section
/-!
DEFINITION. Machine/RegTable.lean: every register of PF0 BAR0 below 0x20_0000 as a row: its offset, its array
dimensions (count, stride), and its fields with type, reset value, Keep code and legal range (R3 to R9, the field tables
of the block chapters, Table 19.2). A bit that no field covers is reserved (R4).
-/

namespace Sys2Proof.Machine

/-- The access type of a field (R3, R6). -/
inductive Ty where
  | rw | ro | w1c | w1s | wo | rclr
  deriving DecidableEq, Repr

/-- The Keep code of a field (R9). -/
inductive Keep where
  | n | w | wb | a | i
  deriving DecidableEq, Repr

/-- One field of a row: place, type, reset value, Keep code and the range a write must keep (R5). -/
structure FieldRow where
  lo    : Nat
  w     : Nat
  ty    : Ty
  reset : Nat
  keep  : Keep
  min   : Nat
  max   : Nat
  deriving DecidableEq, Repr

/-- One row of the register index. -/
structure RegRow where
  off    : Nat
  dims   : List (Nat × Nat)
  fields : List FieldRow
  deriving DecidableEq, Repr

/-- A field whose every value is legal. -/
def fld (lo w : Nat) (ty : Ty) (reset : Nat) (keep : Keep) : FieldRow := ⟨lo, w, ty, reset, keep, 0, 2 ^ w - 1⟩

/-- A field whose legal values are min to max. -/
def flr (lo w : Nat) (ty : Ty) (reset : Nat) (keep : Keep) (min max : Nat) : FieldRow := ⟨lo, w, ty, reset, keep, min, max⟩

/-- Rows of GLB. -/
def glbRows : List RegRow := [
  /- GLB_ID -/ ⟨0x0, [], [fld 0 16 .ro 0xB1 .n,
     fld 16 16 .ro 0x4C7 .n]⟩,
  /- GLB_BADWR -/ ⟨0x4, [], [fld 0 32 .rclr 0 .w]⟩,
  /- GLB_BADWR_INFO -/ ⟨0x8, [], [fld 0 22 .ro 0 .w,
     fld 22 2 .ro 0 .w,
     fld 24 4 .ro 0 .w]⟩,
  /- GLB_DIE_ID_LO -/ ⟨0xC, [], [fld 0 32 .ro 0 .n]⟩,
  /- GLB_DIE_ID_HI -/ ⟨0x10, [], [fld 0 32 .ro 0 .n]⟩,
  /- GLB_SCRATCH -/ ⟨0x14, [], [fld 0 32 .rw 0 .a]⟩]

/-- Rows of CLK. -/
def clkRows : List RegRow := [
  /- CLK_CTRL -/ ⟨0x4000, [], [fld 0 1 .rw 0 .n,
     fld 1 1 .rw 0 .i,
     fld 2 1 .rw 0 .i]⟩,
  /- CLK_STATUS -/ ⟨0x4004, [], [fld 0 1 .ro 0 .n,
     fld 1 1 .ro 0 .n,
     fld 2 1 .ro 0 .n,
     fld 3 1 .ro 0 .n,
     fld 4 4 .ro 0 .n,
     fld 8 1 .ro 0 .n,
     fld 9 1 .ro 0 .n,
     fld 10 1 .ro 0 .n,
     fld 11 2 .ro 0 .n]⟩,
  /- CLK_EVENT -/ ⟨0x4008, [], [fld 0 1 .w1c 0 .a,
     fld 1 1 .w1c 0 .a,
     fld 2 1 .w1c 0 .a,
     fld 3 1 .w1c 0 .a]⟩,
  /- CLK_XMON_CFG -/ ⟨0x400C, [], [flr 0 8 .rw 1 .i 1 255,
     flr 8 8 .rw 5 .i 1 255,
     flr 16 4 .rw 2 .i 1 8]⟩,
  /- CLK_MCLK_A_NUM -/ ⟨0x4020, [], [flr 0 16 .rw 3 .i 1 65535]⟩,
  /- CLK_MCLK_A_DEN -/ ⟨0x4024, [], [fld 0 24 .rw 0x80 .i]⟩,
  /- CLK_MCLK_B_NUM -/ ⟨0x4028, [], [flr 0 16 .rw 0x1B9 .i 1 65535]⟩,
  /- CLK_MCLK_B_DEN -/ ⟨0x402C, [], [fld 0 24 .rw 0x5000 .i]⟩]

/-- Rows of HRT, part 0. -/
def hrtRows0 : List RegRow := [
  /- HRT_CTRL -/ ⟨0x8000, [], [fld 0 2 .rw 0 .i,
     fld 2 1 .rw 0 .w,
     fld 3 1 .w1s 0 .n,
     fld 4 1 .wo 0 .n]⟩,
  /- HRT_STATUS -/ ⟨0x8004, [], [fld 0 3 .ro 0 .n,
     fld 3 1 .ro 1 .n,
     fld 4 1 .ro 0 .n,
     fld 5 1 .ro 0 .n,
     fld 6 1 .ro 0 .n,
     fld 7 1 .ro 0 .n,
     fld 8 1 .ro 0 .n,
     fld 9 1 .ro 0 .n]⟩,
  /- HRT_EVENT -/ ⟨0x8008, [], [fld 0 1 .w1c 0 .a,
     fld 1 1 .w1c 0 .a,
     fld 2 1 .w1c 0 .a,
     fld 3 1 .w1c 0 .a,
     fld 4 1 .w1c 0 .a,
     fld 5 1 .w1c 0 .a,
     fld 6 1 .w1c 0 .a,
     fld 7 1 .w1c 0 .a,
     fld 8 1 .w1c 0 .a,
     fld 9 1 .w1c 0 .a,
     fld 10 1 .w1c 0 .a]⟩,
  /- HRT_NOW_LO -/ ⟨0x8010, [], [fld 0 32 .ro 0 .a]⟩,
  /- HRT_NOW_HI -/ ⟨0x8014, [], [fld 0 32 .ro 0 .a]⟩,
  /- HRT_RATE -/ ⟨0x8018, [], [fld 0 32 .rw 0 .a]⟩,
  /- HRT_ADJ_LO -/ ⟨0x8020, [], [fld 0 32 .rw 0 .n]⟩,
  /- HRT_ADJ_HI -/ ⟨0x8024, [], [fld 0 16 .rw 0 .n]⟩,
  /- HRT_ADJ_CTRL -/ ⟨0x8028, [], [fld 0 1 .w1s 0 .n,
     fld 1 1 .rw 0 .w,
     flr 2 9 .rw 0x64 .i 1 500]⟩,
  /- HRT_SLEW_LEFT_LO -/ ⟨0x802C, [], [fld 0 32 .ro 0 .n]⟩,
  /- HRT_SLEW_LEFT_HI -/ ⟨0x8030, [], [fld 0 16 .ro 0 .n]⟩,
  /- HRT_LOAD_LO -/ ⟨0x8038, [], [fld 0 32 .rw 0 .n]⟩,
  /- HRT_LOAD_HI -/ ⟨0x803C, [], [fld 0 32 .rw 0 .n]⟩,
  /- HRT_ERA -/ ⟨0x8040, [], [fld 0 4 .rw 0 .a]⟩,
  /- HRT_VOTE_CNT -/ ⟨0x8044, [], [fld 0 8 .rclr 0 .w,
     fld 8 8 .rclr 0 .w,
     fld 16 8 .rclr 0 .w,
     fld 24 8 .rclr 0 .w]⟩,
  /- HRT_HOST_WDOG -/ ⟨0x8048, [], [flr 0 16 .rw 0x1F40 .i 16 65535]⟩,
  /- HRT_HOLD_LIMIT -/ ⟨0x804C, [], [fld 0 32 .rw 0x1B77400 .i]⟩,
  /- HRT_PPS_IN_CFG -/ ⟨0x8050, [], [fld 0 1 .rw 0 .i,
     fld 1 1 .rw 0 .i,
     flr 4 4 .rw 2 .i 1 15,
     fld 16 16 .rw 0 .i]⟩,
  /- HRT_PPS_CAP_LO -/ ⟨0x8054, [], [fld 0 32 .ro 0 .n]⟩,
  /- HRT_PPS_CAP_HI -/ ⟨0x8058, [], [fld 0 32 .ro 0 .n]⟩]

/-- Rows of HRT, part 1. -/
def hrtRows1 : List RegRow := [
  /- HRT_PPS_SERVO -/ ⟨0x805C, [], [flr 0 4 .rw 1 .i 0 8,
     flr 4 4 .rw 2 .i 0 8,
     flr 8 20 .rw 0x20000 .i 1 1048575]⟩,
  /- HRT_PPS_LOCKWIN -/ ⟨0x8060, [], [flr 0 20 .rw 0x2000 .i 1 1048575]⟩,
  /- HRT_PPS_ERR -/ ⟨0x8064, [], [fld 0 32 .ro 0 .n]⟩,
  /- HRT_PPS_OUT_CFG -/ ⟨0x8068, [], [fld 0 1 .rw 0 .i,
     fld 1 1 .rw 0 .i,
     flr 2 12 .rw 0x320 .i 1 4000]⟩,
  /- HRT_PPS_OUT_COMP -/ ⟨0x806C, [], [fld 0 32 .rw 0 .i]⟩,
  /- HRT_FSYNC_CFG -/ ⟨0x8070, [], [fld 0 1 .rw 0 .i,
     fld 1 1 .rw 0 .i,
     flr 2 12 .rw 0x100 .i 1 4095]⟩,
  /- HRT_SNAP_CTRL -/ ⟨0x8074, [], [fld 0 1 .w1s 0 .n]⟩,
  /- HRT_SNAP_LO -/ ⟨0x8078, [], [fld 0 32 .ro 0 .n]⟩,
  /- HRT_SNAP_HI -/ ⟨0x807C, [], [fld 0 32 .ro 0 .n]⟩]

/-- Rows of HRT. -/
def hrtRows : List RegRow := hrtRows0 ++ hrtRows1

/-- Rows of RAT, part 0. -/
def ratRows0 : List RegRow := [
  /- RAT_CTRL -/ ⟨0xC000, [], [flr 0 3 .rw 0 .a 0 3,
     fld 4 1 .w1s 0 .a,
     fld 5 1 .rw 0 .a,
     fld 6 1 .rw 0 .a]⟩,
  /- RAT_STATUS -/ ⟨0xC004, [], [fld 0 3 .ro 2 .n,
     fld 3 3 .ro 2 .n,
     fld 6 2 .ro 0 .n,
     fld 8 3 .ro 0 .n,
     fld 11 3 .ro 0 .n,
     fld 14 3 .ro 0 .n,
     fld 17 1 .ro 0 .n,
     fld 18 1 .ro 0 .n,
     fld 19 1 .ro 0 .n,
     fld 20 8 .ro 0 .n,
     fld 28 2 .ro 0 .n]⟩,
  /- RAT_EVENT -/ ⟨0xC008, [], [fld 0 1 .w1c 0 .a,
     fld 1 1 .w1c 0 .a,
     fld 2 1 .w1c 0 .a,
     fld 3 1 .w1c 0 .a,
     fld 4 1 .w1c 0 .a,
     fld 5 1 .w1c 0 .a,
     fld 6 1 .w1c 0 .a,
     fld 7 1 .w1c 0 .a,
     fld 8 1 .w1c 0 .a,
     fld 9 1 .w1c 0 .a,
     fld 10 1 .w1c 0 .a,
     fld 11 1 .w1c 0 .a,
     fld 12 1 .w1c 0 .a]⟩,
  /- RAT_DOM_STATUS -/ ⟨0xC00C, [], [fld 0 7 .ro 1 .n,
     fld 7 1 .ro 0 .n,
     fld 8 4 .ro 0 .n,
     fld 12 1 .ro 0 .n,
     fld 13 1 .ro 0 .n]⟩,
  /- RAT_THR_FULL -/ ⟨0xC010, [], [fld 0 12 .rw 0x41A .i,
     fld 16 12 .rw 0x3E8 .i]⟩,
  /- RAT_THR_TRIM -/ ⟨0xC014, [], [fld 0 12 .rw 0x3B6 .i,
     fld 16 12 .rw 0x384 .i]⟩,
  /- RAT_THR_LEAN -/ ⟨0xC018, [], [fld 0 12 .rw 0x352 .i,
     fld 16 12 .rw 0x320 .i]⟩,
  /- RAT_THR_LOSS -/ ⟨0xC01C, [], [fld 0 12 .rw 0x190 .i,
     fld 16 12 .rw 0x258 .i,
     flr 28 4 .rw 3 .i 1 15]⟩,
  /- RAT_THERM -/ ⟨0xC020, [], [fld 0 7 .rw 0x64 .i,
     fld 7 7 .rw 0x69 .i,
     fld 14 7 .rw 0x6E .i,
     fld 21 7 .rw 0x76 .i,
     flr 28 4 .rw 5 .i 1 15]⟩,
  /- RAT_DWELL -/ ⟨0xC024, [], [flr 0 8 .rw 0x10 .i 1 255,
     flr 8 8 .rw 0x50 .i 1 255,
     flr 16 4 .rw 4 .i 0 8]⟩,
  /- RAT_CELL_THR -/ ⟨0xC028, [], [fld 0 16 .rw 0x1F40 .i,
     fld 16 16 .rw 0x1B58 .i]⟩,
  /- RAT_CELL_FLOOR -/ ⟨0xC02C, [], [fld 0 16 .rw 0x1770 .i]⟩,
  /- RAT_HOST_CFG -/ ⟨0xC030, [], [flr 0 16 .rw 0x50 .i 1 65535,
     flr 16 8 .rw 8 .i 1 255]⟩,
  /- RAT_CHG -/ ⟨0xC034, [], [fld 0 1 .rw 1 .i,
     fld 1 1 .ro 0 .n,
     fld 2 3 .ro 0 .n]⟩,
  /- RAT_GASP_CFG -/ ⟨0xC038, [], [fld 0 1 .rw 0 .i,
     flr 1 4 .rw 3 .i 1 8,
     fld 5 1 .rw 1 .i]⟩,
  /- RAT_GASP_TPLk -/ ⟨0xC040, [(15, 0x4)], [fld 0 32 .rw 0 .i]⟩,
  /- RAT_BIV_CFG -/ ⟨0xC080, [], [fld 0 1 .rw 1 .a,
     fld 1 1 .rw 0 .a,
     fld 2 1 .rw 0 .a,
     fld 3 1 .rw 1 .a,
     fld 4 1 .rw 1 .a,
     fld 16 16 .rw 0 .a]⟩,
  /- RAT_BIV_TIMER_LO -/ ⟨0xC084, [], [fld 0 32 .rw 0 .a]⟩,
  /- RAT_BIV_TIMER_HI -/ ⟨0xC088, [], [fld 0 32 .rw 0 .a]⟩,
  /- RAT_WAKE_SRC -/ ⟨0xC08C, [], [fld 0 7 .ro 0 .a,
     fld 16 16 .ro 0 .a]⟩]

/-- Rows of RAT, part 1. -/
def ratRows1 : List RegRow := [
  /- RAT_RIDE -/ ⟨0xC090, [], [fld 0 32 .ro 0 .a]⟩,
  /- RAT_OFFACC -/ ⟨0xC094, [], [fld 0 16 .rclr 0 .a,
     fld 16 3 .ro 0 .a]⟩,
  /- RAT_TIER_CNT -/ ⟨0xC098, [], [fld 0 16 .rclr 0 .a,
     fld 16 16 .rclr 0 .a]⟩,
  /- RAT_LOSS_CNT -/ ⟨0xC09C, [], [fld 0 16 .rclr 0 .a]⟩,
  /- RAT_RET_ADDR -/ ⟨0xC0A0, [], [fld 2 14 .rw 0 .a]⟩,
  /- RAT_RET_DATA -/ ⟨0xC0A4, [], [fld 0 32 .rw 0 .a]⟩,
  /- RAT_BIV_DROP -/ ⟨0xC0A8, [], [fld 0 32 .rclr 0 .a]⟩]

/-- Rows of RAT. -/
def ratRows : List RegRow := ratRows0 ++ ratRows1

/-- Rows of RST. -/
def rstRows : List RegRow := [
  /- RST_CTRL -/ ⟨0x10000, [], [fld 0 1 .wo 0 .n,
     fld 1 1 .wo 0 .n,
     fld 2 1 .wo 0 .n,
     fld 8 8 .wo 0 .n]⟩,
  /- RST_CAUSE -/ ⟨0x10004, [], [fld 0 6 .ro 1 .a,
     fld 16 16 .ro 0 .a]⟩,
  /- RST_BOOT_STATUS -/ ⟨0x10008, [], [fld 0 4 .ro 1 .n,
     fld 4 2 .ro 0 .n,
     fld 6 1 .ro 0 .n,
     fld 7 1 .ro 0 .n,
     fld 8 1 .ro 0 .n,
     fld 9 1 .ro 0 .n,
     fld 10 2 .ro 0 .n,
     fld 12 1 .ro 0 .n,
     fld 13 1 .ro 0 .n,
     fld 16 7 .ro 0 .n,
     fld 23 1 .ro 0 .n]⟩,
  /- RST_BOOT_GEN -/ ⟨0x1000C, [], [fld 0 32 .ro 0 .n]⟩,
  /- RST_SLOT_A -/ ⟨0x10010, [], [fld 0 4 .ro 0 .n,
     fld 16 16 .ro 0xFFFF .n]⟩,
  /- RST_SLOT_B -/ ⟨0x10014, [], [fld 0 4 .ro 0 .n,
     fld 16 16 .ro 0xFFFF .n]⟩,
  /- RST_SLOT_A_GEN -/ ⟨0x10018, [], [fld 0 32 .ro 0 .n]⟩,
  /- RST_SLOT_B_GEN -/ ⟨0x1001C, [], [fld 0 32 .ro 0 .n]⟩,
  /- RST_BOOT_TIME -/ ⟨0x10020, [], [fld 0 16 .ro 0 .n]⟩,
  /- RST_BOOT_REJ -/ ⟨0x10024, [], [fld 0 16 .ro 0 .n,
     fld 16 16 .ro 0xFFFF .n]⟩,
  /- RST_EVENT -/ ⟨0x10028, [], [fld 0 1 .w1c 0 .a,
     fld 1 1 .w1c 0 .a,
     fld 2 1 .w1c 0 .a,
     fld 3 1 .w1c 0 .a,
     fld 4 1 .w1c 0 .a,
     fld 5 1 .w1c 0 .a]⟩,
  /- RST_OTP -/ ⟨0x1002C, [], [fld 0 1 .ro 0 .n,
     fld 1 1 .ro 0 .n]⟩]

/-- Rows of HIF. -/
def hifRows : List RegRow := [
  /- HIF_CTRL -/ ⟨0x14000, [], [fld 0 1 .rw 1 .i,
     fld 1 2 .rw 3 .i,
     flr 3 3 .rw 4 .i 1 4,
     fld 6 1 .rw 1 .i]⟩,
  /- HIF_STATUS -/ ⟨0x14004, [], [fld 0 1 .ro 0 .n,
     fld 1 3 .ro 0 .n,
     fld 4 3 .ro 0 .n,
     fld 7 1 .ro 1 .n,
     fld 8 1 .ro 0 .n,
     fld 9 1 .ro 0 .n,
     fld 10 4 .ro 0 .n,
     fld 14 2 .ro 0 .n,
     fld 16 1 .ro 0 .n]⟩,
  /- HIF_EVENT -/ ⟨0x14008, [], [fld 0 1 .w1c 0 .w,
     fld 1 1 .w1c 0 .w,
     fld 2 1 .w1c 0 .w,
     fld 3 1 .w1c 0 .w,
     fld 4 1 .w1c 0 .w,
     fld 5 1 .w1c 0 .w,
     fld 6 1 .w1c 0 .w,
     fld 7 1 .w1c 0 .w,
     fld 8 1 .w1c 0 .w,
     fld 9 1 .w1c 0 .w,
     fld 10 1 .w1c 0 .w,
     fld 11 1 .w1c 0 .w,
     fld 12 1 .w1c 0 .w]⟩,
  /- HIF_SUBSYS -/ ⟨0x1400C, [], [fld 0 16 .rw 0x1F3C .i,
     fld 16 16 .rw 0 .i]⟩,
  /- HIF_VF_STATE -/ ⟨0x14010, [], [fld 0 30 .ro 0 .n,
     fld 30 2 .ro 1 .n]⟩,
  /- HIF_VF_HOLD -/ ⟨0x14014, [], [fld 1 15 .rw 0 .w]⟩,
  /- HIF_KENNEL_STAT -/ ⟨0x14018, [], [fld 0 4 .ro 0 .w,
     fld 4 4 .ro 0 .w,
     fld 8 12 .ro 0 .w]⟩,
  /- HIF_KENNEL_CNT -/ ⟨0x1401C, [], [fld 0 16 .rclr 0 .w]⟩,
  /- HIF_KENNEL_DROP -/ ⟨0x14020, [], [fld 0 32 .rclr 0 .w]⟩,
  /- HIF_EPOCHk -/ ⟨0x14024, [(4, 0x4)], [fld 0 32 .ro 0 .n]⟩,
  /- HIF_TAGS -/ ⟨0x14034, [], [fld 0 9 .ro 0 .n,
     fld 16 9 .ro 0 .n]⟩,
  /- HIF_DESC_INFLIGHT -/ ⟨0x14038, [], [fld 0 16 .ro 0 .n]⟩,
  /- HIF_CTO_CNT -/ ⟨0x1403C, [], [fld 0 16 .rclr 0 .w]⟩,
  /- HIF_POISON_CNT -/ ⟨0x14040, [], [fld 0 16 .rclr 0 .w]⟩,
  /- HIF_UR_CNT -/ ⟨0x14044, [], [fld 0 16 .rclr 0 .w]⟩,
  /- HIF_FNf_QP -/ ⟨0x14100, [(16, 0x10)], [fld 0 7 .rw 0 .i,
     flr 16 8 .rw 0 .i 0 128]⟩,
  /- HIF_FNf_AUD -/ ⟨0x14104, [(16, 0x10)], [fld 0 6 .rw 0 .i,
     flr 8 7 .rw 0 .i 0 64,
     fld 16 6 .rw 0 .i,
     fld 24 7 .rw 0 .i]⟩,
  /- HIF_FNf_MISC -/ ⟨0x14108, [(16, 0x10)], [fld 0 4 .rw 0 .i,
     flr 4 5 .rw 0 .i 0 16,
     fld 12 4 .rw 0 .i,
     flr 16 5 .rw 0 .i 0 16,
     fld 24 8 .rw 0x10 .i]⟩]

/-- Rows of DMA, part 0. -/
def dmaRows0 : List RegRow := [
  /- DMA_CFG -/ ⟨0x18000, [], [flr 0 16 .rw 0x1062 .i 1 65535]⟩,
  /- DMA_STATUS -/ ⟨0x18004, [], [fld 0 16 .ro 0 .n,
     fld 16 1 .ro 0 .n]⟩,
  /- DMA_EVENT -/ ⟨0x18008, [], [fld 0 1 .w1c 0 .w,
     fld 1 1 .w1c 0 .w,
     fld 2 1 .w1c 0 .w,
     fld 3 1 .w1c 0 .w,
     fld 4 1 .w1c 0 .w,
     fld 5 1 .w1c 0 .w,
     fld 6 1 .w1c 0 .w,
     fld 7 1 .w1c 0 .w,
     fld 8 1 .w1c 0 .w]⟩,
  /- DMA_RING_ERR -/ ⟨0x1800C, [], [fld 0 9 .ro 0 .w,
     fld 9 2 .ro 0 .w,
     fld 12 4 .ro 0 .w]⟩,
  /- DMA_RESV -/ ⟨0x18010, [], [flr 0 17 .rw 0x4000 .i 0 65536]⟩,
  /- DMA_PRQ_MAPk -/ ⟨0x18040, [(16, 0x4)], [fld 0 6 .rw 1 .i,
     flr 6 3 .rw 2 .i 0 4,
     fld 9 1 .rw 1 .i]⟩,
  /- DMA_PRQ_OVF_CNT -/ ⟨0x18080, [], [fld 0 16 .rclr 0 .w,
     fld 16 4 .ro 0 .w]⟩,
  /- DMA_PRQ_LAT_MAX -/ ⟨0x18084, [], [fld 0 16 .rclr 0 .w]⟩,
  /- DMA_FNf_DTAGS -/ ⟨0x18100, [(16, 0x4)], [flr 0 16 .rw 0x800 .i 0 32768]⟩,
  /- DMA_RX_STALL_DROP -/ ⟨0x18180, [], [fld 0 32 .rclr 0 .w]⟩,
  /- DMA_RX_NODESC_DROP -/ ⟨0x18184, [], [fld 0 32 .rclr 0 .w]⟩,
  /- DMA_DISABLE_DROP -/ ⟨0x18188, [], [fld 0 32 .rclr 0 .w]⟩,
  /- DMA_DB_BAD_CNT -/ ⟨0x1818C, [], [fld 0 32 .rclr 0 .w]⟩,
  /- DMA_NOTOWN_CNT -/ ⟨0x18190, [], [fld 0 32 .rclr 0 .w]⟩,
  /- DMA_FETCH_ERR_CNT -/ ⟨0x18194, [], [fld 0 32 .rclr 0 .w]⟩,
  /- DMA_MBX_DUP_CNT -/ ⟨0x18198, [], [fld 0 32 .rclr 0 .w]⟩,
  /- DMA_TAG_WAIT_CNT -/ ⟨0x1819C, [], [fld 0 32 .rclr 0 .w]⟩,
  /- DMA_RING_SEL -/ ⟨0x181C0, [], [flr 0 9 .rw 0 .n 0 431]⟩,
  /- DMA_RING_VIEW0 -/ ⟨0x181C4, [], [fld 0 16 .ro 0 .n,
     fld 16 16 .ro 0 .n]⟩,
  /- DMA_RING_VIEW1 -/ ⟨0x181C8, [], [fld 0 3 .ro 0 .n,
     fld 3 1 .ro 0 .n,
     fld 4 3 .ro 0 .n,
     fld 8 4 .ro 0 .n,
     fld 12 20 .ro 0 .n]⟩]

/-- Rows of DMA, part 1. -/
def dmaRows1 : List RegRow := [
  /- DMA_RING_VIEW2 -/ ⟨0x181CC, [], [fld 0 32 .ro 0 .n]⟩,
  /- DMA_RING_VIEW3 -/ ⟨0x181D0, [], [fld 0 8 .ro 0 .n,
     fld 8 8 .ro 0 .n,
     fld 16 1 .ro 0 .n,
     fld 17 1 .ro 0 .n,
     fld 18 1 .ro 0 .n,
     fld 19 3 .ro 0 .n,
     fld 22 6 .ro 0 .n]⟩]

/-- Rows of DMA. -/
def dmaRows : List RegRow := dmaRows0 ++ dmaRows1

/-- Rows of CHn, part 0. -/
def chRows0 : List RegRow := [
  /- CHn_CTRL -/ ⟨0x20000, [(4, 0x4000)], [fld 0 1 .rw 0 .i,
     fld 1 1 .rw 1 .i,
     flr 2 2 .rw 0 .i 0 2,
     flr 4 2 .rw 0 .i 0 1,
     fld 6 1 .rw 0 .i,
     fld 7 1 .rw 0 .i]⟩,
  /- CHn_STATUS -/ ⟨0x20004, [(4, 0x4000)], [fld 0 3 .ro 0 .n,
     fld 3 1 .ro 0 .n,
     fld 4 1 .ro 0 .n,
     fld 5 1 .ro 0 .n,
     fld 6 1 .ro 0 .n,
     fld 7 1 .ro 0 .n,
     fld 8 1 .ro 0 .n,
     fld 9 1 .ro 0 .n,
     fld 10 1 .ro 0 .n,
     fld 11 1 .ro 1 .n,
     fld 12 1 .ro 0 .n,
     fld 13 1 .ro 0 .n,
     fld 14 1 .ro 0 .n,
     fld 15 1 .ro 0 .n,
     fld 16 8 .ro 0 .n,
     fld 24 8 .ro 0 .n]⟩,
  /- CHn_EVENT -/ ⟨0x20008, [(4, 0x4000)], [fld 0 1 .w1c 0 .w,
     fld 1 1 .w1c 0 .w,
     fld 2 1 .w1c 0 .w,
     fld 3 1 .w1c 0 .w,
     fld 4 1 .w1c 0 .w,
     fld 5 1 .w1c 0 .w,
     fld 6 1 .w1c 0 .w,
     fld 7 1 .w1c 0 .w,
     fld 8 1 .w1c 0 .w,
     fld 9 1 .w1c 0 .w,
     fld 10 1 .w1c 0 .w,
     fld 11 1 .w1c 0 .w,
     fld 12 1 .w1c 0 .w,
     fld 13 1 .w1c 0 .w]⟩,
  /- CHn_MAX_LEN -/ ⟨0x2000C, [(4, 0x4000)], [flr 0 14 .rw 0x5F2 .i 1518 9216]⟩,
  /- CHn_MAC_LO -/ ⟨0x20010, [(4, 0x4000)], [fld 0 32 .rw 0 .i]⟩,
  /- CHn_MAC_HI -/ ⟨0x20014, [(4, 0x4000)], [fld 0 16 .rw 0 .i]⟩,
  /- CHn_MOD_CFG -/ ⟨0x20018, [(4, 0x4000)], [flr 0 16 .rw 0x960 .i 1 65535,
     fld 16 1 .rw 0 .i,
     fld 17 1 .wo 0 .n,
     fld 18 1 .rw 0 .i]⟩,
  /- CHn_LINK_CFG -/ ⟨0x2001C, [(4, 0x4000)], [flr 0 8 .rw 8 .i 1 255]⟩,
  /- CHn_TS_LAT10 -/ ⟨0x20020, [(4, 0x4000)], [fld 0 16 .rw 0 .i,
     fld 16 16 .rw 0 .i]⟩,
  /- CHn_TS_LAT25 -/ ⟨0x20024, [(4, 0x4000)], [fld 0 16 .rw 0 .i,
     fld 16 16 .rw 0 .i]⟩,
  /- CHn_PTP_CFG -/ ⟨0x20028, [(4, 0x4000)], [fld 0 1 .rw 1 .i,
     fld 1 1 .rw 1 .i]⟩,
  /- CHn_PTP_TXTS0 -/ ⟨0x20030, [(4, 0x4000)], [fld 0 32 .ro 0 .n]⟩,
  /- CHn_PTP_TXTS1 -/ ⟨0x20034, [(4, 0x4000)], [fld 0 16 .ro 0 .n,
     fld 16 16 .ro 0 .n]⟩,
  /- CHn_PTP_TXTS2 -/ ⟨0x20038, [(4, 0x4000)], [fld 0 32 .ro 0 .n]⟩,
  /- CHn_PTP_TXTS3 -/ ⟨0x2003C, [(4, 0x4000)], [fld 0 16 .ro 0 .n,
     fld 16 4 .ro 0 .n,
     fld 20 1 .ro 0 .n,
     fld 21 1 .ro 0 .n]⟩,
  /- CHn_PAUSE_CFG -/ ⟨0x20040, [(4, 0x4000)], [flr 0 2 .rw 0 .i 0 2,
     fld 2 1 .rw 1 .i,
     fld 8 8 .rw 0 .i,
     fld 16 8 .rw 0 .i]⟩,
  /- CHn_PAUSE_WM -/ ⟨0x20044, [(4, 0x4000)], [fld 0 16 .rw 0x1000 .i,
     fld 16 16 .rw 0x800 .i]⟩,
  /- CHn_PAUSE_QUANTA -/ ⟨0x20048, [(4, 0x4000)], [flr 0 16 .rw 0xFFFF .i 1 65535]⟩,
  /- CHn_PFC_WMk -/ ⟨0x20060, [(4, 0x4000), (8, 0x4)], [fld 0 16 .rw 0x400 .i,
     fld 16 16 .rw 0x200 .i]⟩,
  /- CHn_PREEMPT_CFG -/ ⟨0x20080, [(4, 0x4000)], [fld 0 1 .rw 0 .i,
     fld 1 1 .rw 0 .i,
     fld 2 2 .rw 0 .i,
     flr 4 7 .rw 0xA .i 1 127,
     fld 16 8 .rw 0 .i]⟩]

/-- Rows of CHn, part 1. -/
def chRows1 : List RegRow := [
  /- CHn_PREEMPT_STATUS -/ ⟨0x20084, [(4, 0x4000)], [fld 0 3 .ro 0 .n,
     fld 3 1 .ro 0 .n,
     fld 4 1 .ro 0 .n,
     fld 5 2 .ro 0 .n]⟩,
  /- CHn_WAKE_CFG -/ ⟨0x20100, [(4, 0x4000)], [fld 0 4 .rw 0 .a,
     fld 4 1 .rw 0 .a,
     fld 16 8 .ro 0 .a]⟩,
  /- CHn_WAKE_f_CFG -/ ⟨0x20110, [(4, 0x4000), (4, 0x20)], [fld 0 8 .rw 0 .a,
     fld 16 16 .rw 0 .a]⟩,
  /- CHn_WAKE_f_MASKk -/ ⟨0x20114, [(4, 0x4000), (4, 0x20), (4, 0x4)], [fld 0 32 .rw 0 .a]⟩,
  /- CHn_STAT_HALF0 -/ ⟨0x20200, [(4, 0x4000)], [fld 0 32 .w1c 0 .w]⟩,
  /- CHn_STAT_HALF1 -/ ⟨0x20204, [(4, 0x4000)], [fld 0 16 .w1c 0 .w]⟩,
  /- CHn_STATi -/ ⟨0x20400, [(4, 0x4000), (48, 0x4)], [fld 0 32 .ro 0 .w]⟩,
  /- CHn_GATE_CTRL -/ ⟨0x20600, [(4, 0x4000)], [fld 0 1 .rw 0 .i,
     fld 1 1 .w1s 0 .n,
     fld 2 1 .wo 0 .n,
     fld 3 1 .rw 0 .i]⟩,
  /- CHn_GATE_STATUS -/ ⟨0x20604, [(4, 0x4000)], [fld 0 3 .ro 0 .n,
     fld 3 2 .ro 0 .n,
     fld 5 1 .ro 0 .n,
     fld 6 1 .ro 0 .n,
     fld 7 1 .ro 0 .n,
     fld 8 8 .ro 0xFF .n,
     fld 16 10 .ro 0 .n,
     fld 26 1 .ro 0 .n]⟩,
  /- CHn_GATE_EVENT -/ ⟨0x20608, [(4, 0x4000)], [fld 0 1 .w1c 0 .w,
     fld 1 1 .w1c 0 .w,
     fld 2 1 .w1c 0 .w,
     fld 3 1 .w1c 0 .w,
     fld 4 1 .w1c 0 .w]⟩,
  /- CHn_GATE_FALLBACK -/ ⟨0x2060C, [(4, 0x4000)], [fld 0 8 .rw 0xFF .i]⟩,
  /- CHn_GATE_Bb_BASE_LO -/ ⟨0x20610, [(4, 0x4000), (2, 0x10)], [fld 0 32 .rw 0 .i]⟩,
  /- CHn_GATE_Bb_BASE_HI -/ ⟨0x20614, [(4, 0x4000), (2, 0x10)], [fld 0 32 .rw 0 .i]⟩,
  /- CHn_GATE_Bb_CYCLE -/ ⟨0x20618, [(4, 0x4000), (2, 0x10)], [fld 0 32 .rw 0x800000 .i]⟩,
  /- CHn_GATE_Bb_LEN -/ ⟨0x2061C, [(4, 0x4000), (2, 0x10)], [fld 0 11 .rw 0 .i]⟩,
  /- CHn_GATE_SWAP_T_LO -/ ⟨0x20630, [(4, 0x4000)], [fld 0 32 .ro 0 .n]⟩,
  /- CHn_GATE_SWAP_T_HI -/ ⟨0x20634, [(4, 0x4000)], [fld 0 32 .ro 0 .n]⟩,
  /- CHn_GATE_VOTE -/ ⟨0x20638, [(4, 0x4000)], [fld 0 8 .rclr 0 .w,
     fld 8 8 .rclr 0 .w,
     fld 16 8 .rclr 0 .w,
     fld 24 8 .rclr 0 .w]⟩,
  /- CHn_GATE_COMMIT_STAT -/ ⟨0x2063C, [(4, 0x4000)], [fld 0 4 .ro 0 .n,
     fld 4 1 .ro 0 .n,
     fld 16 10 .ro 0 .n]⟩,
  /- CHn_TCk_CFG -/ ⟨0x20640, [(4, 0x4000), (8, 0x4)], [fld 0 1 .rw 0 .i,
     fld 1 1 .rw 0 .i,
     fld 16 12 .rw 0 .i]⟩]

/-- Rows of CHn. -/
def chRows : List RegRow := chRows0 ++ chRows1

/-- Rows of CLS. -/
def clsRows : List RegRow := [
  /- CLS_CTRL -/ ⟨0x30000, [], [fld 0 1 .rw 1 .i,
     fld 1 1 .rw 1 .i]⟩,
  /- CLS_STATUS -/ ⟨0x30004, [], [fld 0 12 .ro 0 .n,
     fld 12 1 .ro 0 .n,
     fld 16 8 .ro 0 .n,
     fld 24 1 .ro 0 .n]⟩,
  /- CLS_EVENT -/ ⟨0x30008, [], [fld 0 1 .w1c 0 .w,
     fld 1 1 .w1c 0 .w,
     fld 2 1 .w1c 0 .w,
     fld 3 1 .w1c 0 .w,
     fld 4 1 .w1c 0 .w]⟩,
  /- CLS_PCP_MAP -/ ⟨0x3000C, [], [fld 0 24 .rw 0xFAC688 .i,
     fld 24 3 .rw 0 .i]⟩,
  /- CLS_PROFILEs -/ ⟨0x30010, [(6, 0x4)], [fld 0 8 .rw 0x85 .i]⟩,
  /- CLS_DEFAULTs -/ ⟨0x30030, [(6, 0x4)], [fld 0 32 .rw 2 .i]⟩,
  /- CLS_MISS_CNT -/ ⟨0x30048, [], [fld 0 32 .rclr 0 .w]⟩,
  /- CLS_FOLLOW_CNT -/ ⟨0x3004C, [], [fld 0 32 .rclr 0 .w]⟩,
  /- CLS_FOLLOW_DROP -/ ⟨0x30050, [], [fld 0 32 .rclr 0 .w]⟩,
  /- CLS_ENTRY_REJ -/ ⟨0x30054, [], [fld 0 32 .rclr 0 .w]⟩,
  /- CLS_HOST_BAD -/ ⟨0x30058, [], [fld 0 32 .rclr 0 .w]⟩,
  /- CLS_STAGE_LOST -/ ⟨0x3005C, [], [fld 0 32 .rclr 0 .w]⟩]

/-- Rows of FRE. -/
def freRows : List RegRow := [
  /- FRE_CTRL -/ ⟨0x38000, [], [fld 0 1 .rw 1 .i]⟩,
  /- FRE_STATUS -/ ⟨0x38004, [], [fld 0 10 .ro 0 .n,
     fld 10 1 .ro 0 .n,
     fld 11 1 .ro 0 .n,
     fld 12 1 .ro 0 .n]⟩,
  /- FRE_EVENT -/ ⟨0x38008, [], [fld 0 1 .w1c 0 .w,
     fld 1 1 .w1c 0 .w,
     fld 2 1 .w1c 0 .w,
     fld 3 1 .w1c 0 .w,
     fld 4 1 .w1c 0 .w,
     fld 5 1 .w1c 0 .w,
     fld 6 1 .w1c 0 .w,
     fld 7 1 .w1c 0 .w]⟩,
  /- FRE_CFG -/ ⟨0x3800C, [], [fld 0 16 .rw 0x20 .i,
     flr 16 8 .rw 8 .i 1 255]⟩,
  /- FRE_ENTRY_REJ -/ ⟨0x38010, [], [fld 0 32 .rclr 0 .w]⟩,
  /- FRE_STAGE_LOST -/ ⟨0x38014, [], [fld 0 32 .rclr 0 .w]⟩,
  /- FRE_LAST_ROGUE -/ ⟨0x38018, [], [fld 0 10 .ro 0 .w,
     fld 16 16 .ro 0 .w]⟩]

/-- Rows of PMC, part 0. -/
def pmcRows0 : List RegRow := [
  /- PMC_CTRL -/ ⟨0x40000, [], [fld 0 1 .rw 1 .i,
     fld 1 1 .w1s 0 .n,
     flr 2 3 .rw 4 .n 0 4]⟩,
  /- PMC_STATUS -/ ⟨0x40004, [], [fld 0 1 .ro 0 .n,
     fld 1 1 .ro 0 .n,
     fld 2 1 .ro 0 .n,
     fld 3 1 .ro 0 .n,
     fld 4 2 .ro 0 .n,
     fld 6 3 .ro 0 .n,
     fld 9 2 .ro 0 .n]⟩,
  /- PMC_EVENT -/ ⟨0x40008, [], [fld 0 1 .w1c 0 .w,
     fld 1 1 .w1c 0 .w,
     fld 2 1 .w1c 0 .w,
     fld 3 1 .w1c 0 .w,
     fld 4 1 .w1c 0 .w,
     fld 5 1 .w1c 0 .w,
     fld 6 1 .w1c 0 .w,
     fld 7 1 .w1c 0 .w,
     fld 8 1 .w1c 0 .w,
     fld 9 1 .w1c 0 .w]⟩,
  /- PMC_ADMIT_LIMIT -/ ⟨0x4000C, [], [flr 0 7 .rw 0x5A .i 70 95,
     fld 14 18 .ro 0x37CCC .n]⟩,
  /- PMC_ADMITTED -/ ⟨0x40010, [], [fld 0 20 .ro 0 .n]⟩,
  /- PMC_LAST_SUM -/ ⟨0x40014, [], [fld 0 20 .ro 0 .n]⟩,
  /- PMC_SHORTFALL -/ ⟨0x40018, [], [fld 0 20 .ro 0 .n]⟩,
  /- PMC_TERM_CHn -/ ⟨0x40020, [(4, 0x4)], [fld 0 17 .ro 0 .n]⟩,
  /- PMC_TERM_PEG -/ ⟨0x40030, [], [fld 0 17 .ro 0 .n]⟩,
  /- PMC_GUAR_LATCH -/ ⟨0x40034, [], [fld 0 32 .ro 0 .n]⟩,
  /- PMC_BG_RESV -/ ⟨0x40038, [], [flr 0 17 .rw 0x4000 .i 16384 32768]⟩,
  /- PMC_BE_LIMIT -/ ⟨0x4003C, [], [flr 0 14 .rw 0x3800 .i 1 16383]⟩,
  /- PMC_BE_WM -/ ⟨0x40040, [], [fld 0 14 .rw 0x3000 .i,
     fld 16 14 .rw 0x2800 .i]⟩,
  /- PMC_SCRUB_CFG -/ ⟨0x40044, [], [flr 0 5 .rw 6 .i 1 24]⟩,
  /- PMC_SCRUB_STAT -/ ⟨0x40048, [], [fld 0 17 .ro 0 .n,
     fld 17 15 .ro 0 .w]⟩,
  /- PMC_ECC_CE -/ ⟨0x4004C, [], [fld 0 32 .rclr 0 .w]⟩,
  /- PMC_ECC_UE -/ ⟨0x40050, [], [fld 0 32 .rclr 0 .w]⟩,
  /- PMC_ECC_DROP -/ ⟨0x40054, [], [fld 0 32 .rclr 0 .w]⟩,
  /- PMC_ECC_LOG -/ ⟨0x40058, [], [fld 0 17 .ro 0 .w,
     fld 17 5 .ro 0 .w,
     fld 22 1 .ro 0 .w,
     fld 23 1 .ro 0 .w]⟩,
  /- PMC_ECC_SYN -/ ⟨0x4005C, [], [fld 0 8 .ro 0 .w]⟩]

/-- Rows of PMC, part 1. -/
def pmcRows1 : List RegRow := [
  /- PMC_REF_FORCED -/ ⟨0x40060, [], [fld 0 32 .rclr 0 .w]⟩,
  /- PMC_REF_OWED_MAX -/ ⟨0x40064, [], [fld 0 4 .rclr 0 .w]⟩,
  /- PMC_RECAL_FORCED -/ ⟨0x40068, [], [fld 0 28 .rclr 0 .w]⟩,
  /- PMC_FREE_CELLS -/ ⟨0x4006C, [], [fld 0 18 .ro 0 .n]⟩,
  /- PMC_BE_CELLS -/ ⟨0x40070, [], [fld 0 18 .ro 0 .n]⟩]

/-- Rows of PMC. -/
def pmcRows : List RegRow := pmcRows0 ++ pmcRows1

/-- Rows of PEG, part 0. -/
def pegRows0 : List RegRow := [
  /- PEG_CFG -/ ⟨0x48000, [], [fld 0 1 .rw 0 .i,
     fld 1 1 .rw 0 .i,
     fld 2 5 .rw 0 .i,
     fld 7 1 .rw 0 .i,
     fld 8 1 .rw 0 .i]⟩,
  /- PEG_STATUS -/ ⟨0x48004, [], [fld 0 3 .ro 0 .n,
     fld 3 1 .ro 0 .n,
     fld 4 1 .ro 0 .n,
     fld 5 1 .ro 0 .n]⟩,
  /- PEG_EVENT -/ ⟨0x48008, [], [fld 0 1 .w1c 0 .w,
     fld 1 1 .w1c 0 .w,
     fld 2 1 .w1c 0 .w,
     fld 3 1 .w1c 0 .w,
     fld 4 1 .w1c 0 .w,
     fld 5 1 .w1c 0 .w,
     fld 6 1 .w1c 0 .w,
     fld 7 1 .w1c 0 .w,
     fld 8 1 .w1c 0 .w,
     fld 9 1 .w1c 0 .w]⟩,
  /- PEG_CHAIN_CFG -/ ⟨0x4800C, [], [flr 0 12 .rw 0x12C .i 242 4000]⟩,
  /- PEG_SCHED_CTRL -/ ⟨0x48010, [], [fld 0 1 .w1s 0 .n,
     fld 1 1 .wo 0 .n,
     fld 2 1 .rw 0 .i]⟩,
  /- PEG_SCHED_STAT -/ ⟨0x48014, [], [fld 0 4 .ro 0 .n,
     fld 4 1 .ro 0 .n,
     fld 5 1 .ro 0 .n,
     fld 6 6 .ro 0 .n]⟩,
  /- PEG_SCHED_SWAP_LO -/ ⟨0x48018, [], [fld 0 32 .rw 0 .n]⟩,
  /- PEG_SCHED_SWAP_HI -/ ⟨0x4801C, [], [fld 0 32 .rw 0 .n]⟩,
  /- PEG_MSG_CFG -/ ⟨0x48020, [], [flr 0 4 .rw 4 .i 1 15,
     flr 4 4 .rw 7 .i 1 14]⟩,
  /- PEG_FLOW_CFG -/ ⟨0x48024, [], [flr 0 8 .rw 0x20 .i 1 255,
     flr 16 14 .rw 0x5F2 .i 64 9216]⟩,
  /- PEG_MSG_ROUTEk -/ ⟨0x48030, [(4, 0x4)], [fld 0 32 .rw 0 .i]⟩,
  /- PEG_MSG_ROUTE_EN -/ ⟨0x48040, [], [fld 0 32 .rw 0 .i]⟩,
  /- PEG_SPARE_CTRL -/ ⟨0x48044, [], [fld 0 6 .rw 0 .n,
     fld 8 1 .w1s 0 .n,
     fld 9 1 .wo 0 .n,
     fld 10 2 .ro 0 .n]⟩,
  /- PEG_SPARE_OWNk -/ ⟨0x48080, [(16, 0x4)], [fld 0 32 .ro 0 .n]⟩,
  /- PEG_TX_FRAMES -/ ⟨0x480C0, [], [fld 0 32 .rclr 0 .w]⟩,
  /- PEG_RX_GOOD_A -/ ⟨0x480C4, [], [fld 0 32 .rclr 0 .w]⟩,
  /- PEG_RX_GOOD_B -/ ⟨0x480C8, [], [fld 0 32 .rclr 0 .w]⟩,
  /- PEG_RX_CRC_A -/ ⟨0x480CC, [], [fld 0 32 .rclr 0 .w]⟩,
  /- PEG_RX_CRC_B -/ ⟨0x480D0, [], [fld 0 32 .rclr 0 .w]⟩,
  /- PEG_RX_HDR -/ ⟨0x480D4, [], [fld 0 32 .rclr 0 .w]⟩]

/-- Rows of PEG, part 1. -/
def pegRows1 : List RegRow := [
  /- PEG_RX_TIME -/ ⟨0x480D8, [], [fld 0 32 .rclr 0 .w]⟩,
  /- PEG_SLOT_MISS -/ ⟨0x480DC, [], [fld 0 32 .rclr 0 .w]⟩,
  /- PEG_AB_MISMATCH -/ ⟨0x480E0, [], [fld 0 32 .rclr 0 .w]⟩,
  /- PEG_ASM_ERR -/ ⟨0x480E4, [], [fld 0 32 .rclr 0 .w]⟩,
  /- PEG_FLOW_DROP -/ ⟨0x480E8, [], [fld 0 32 .rclr 0 .w]⟩,
  /- PEG_MSG_RETX -/ ⟨0x480EC, [], [fld 0 32 .rclr 0 .w]⟩,
  /- PEG_MSG_NOACK -/ ⟨0x480F0, [], [fld 0 32 .rclr 0 .w]⟩,
  /- PEG_DUP_RX -/ ⟨0x480F4, [], [fld 0 32 .rclr 0 .w]⟩,
  /- PEG_MSG_REJ -/ ⟨0x480F8, [], [fld 0 32 .rclr 0 .w]⟩,
  /- PEG_CLAIM_COLL -/ ⟨0x480FC, [], [fld 0 32 .rclr 0 .w]⟩,
  /- PEG_SYNC_CFG -/ ⟨0x48100, [], [flr 0 4 .rw 2 .i 1 8,
     fld 4 1 .rw 1 .i,
     fld 5 1 .rw 0 .i,
     fld 6 1 .rw 0 .i,
     flr 8 8 .rw 0x10 .i 4 255,
     flr 16 3 .rw 1 .i 0 4,
     flr 20 9 .rw 0x1F4 .i 100 500]⟩,
  /- PEG_SYNC_WIN -/ ⟨0x48104, [], [fld 0 14 .rw 0x20C5 .i]⟩,
  /- PEG_SYNC_BUSDLY -/ ⟨0x48108, [], [fld 0 12 .rw 0 .i]⟩,
  /- PEG_SYNC_STATUS -/ ⟨0x48110, [], [fld 0 3 .ro 0 .n,
     fld 3 1 .ro 0 .n,
     fld 4 1 .ro 0 .n,
     fld 5 1 .ro 0 .n,
     fld 6 1 .ro 0 .n,
     fld 7 1 .ro 0 .n,
     fld 8 1 .ro 0 .n,
     fld 9 1 .ro 0 .n,
     fld 10 1 .ro 0 .n,
     fld 11 5 .ro 0 .n,
     fld 16 8 .ro 0 .n]⟩,
  /- PEG_SYNC_EVENT -/ ⟨0x48114, [], [fld 0 1 .w1c 0 .w,
     fld 1 1 .w1c 0 .w,
     fld 2 1 .w1c 0 .w,
     fld 3 1 .w1c 0 .w,
     fld 4 1 .w1c 0 .w,
     fld 5 1 .w1c 0 .w,
     fld 6 1 .w1c 0 .w,
     fld 7 1 .w1c 0 .w,
     fld 8 1 .w1c 0 .w,
     fld 9 1 .w1c 0 .w,
     fld 10 1 .w1c 0 .w,
     fld 11 1 .w1c 0 .w]⟩,
  /- PEG_SYNC_OFFSET -/ ⟨0x48118, [], [fld 0 32 .ro 0 .n]⟩,
  /- PEG_SYNC_RATE -/ ⟨0x4811C, [], [fld 0 32 .ro 0 .n]⟩,
  /- PEG_SYNC_NVALS -/ ⟨0x48120, [], [fld 0 4 .ro 0 .n,
     fld 4 2 .ro 0 .n,
     fld 6 4 .ro 0 .n]⟩,
  /- PEG_SYNC_SCHED_CRC -/ ⟨0x48124, [], [fld 0 32 .ro 0 .n]⟩,
  /- PEG_SYNC_DEVk -/ ⟨0x48140, [(8, 0x4)], [fld 0 32 .ro 0x80000000 .n]⟩]

/-- Rows of PEG, part 2. -/
def pegRows2 : List RegRow := [
  /- PEG_DLY_A -/ ⟨0x48160, [], [fld 0 24 .ro 0 .n,
     fld 24 5 .ro 0 .n,
     fld 31 1 .ro 0 .n]⟩,
  /- PEG_DLY_B -/ ⟨0x48164, [], [fld 0 24 .ro 0 .n,
     fld 24 5 .ro 0 .n,
     fld 31 1 .ro 0 .n]⟩,
  /- PEG_LINK_P0 -/ ⟨0x48168, [], [fld 0 24 .ro 0 .n,
     fld 24 5 .ro 0 .n,
     fld 31 1 .ro 0 .n]⟩,
  /- PEG_LINK_P1 -/ ⟨0x4816C, [], [fld 0 24 .ro 0 .n,
     fld 24 5 .ro 0 .n,
     fld 31 1 .ro 0 .n]⟩,
  /- PEG_SYNC_LOSS -/ ⟨0x48180, [], [fld 0 32 .rclr 0 .w]⟩,
  /- PEG_SYNC_OUTLIER -/ ⟨0x48184, [], [fld 0 32 .rclr 0 .w]⟩,
  /- PEG_SYNC_NOCORR -/ ⟨0x48188, [], [fld 0 32 .rclr 0 .w]⟩,
  /- PEG_INTEG_REJ -/ ⟨0x4818C, [], [fld 0 32 .rclr 0 .w]⟩,
  /- PEG_SCHED_MISMATCH -/ ⟨0x48190, [], [fld 0 32 .rclr 0 .w]⟩,
  /- PEG_CS_SENT -/ ⟨0x48194, [], [fld 0 32 .rclr 0 .w]⟩,
  /- PEG_ECHO_MISS -/ ⟨0x48198, [], [fld 0 32 .rclr 0 .w]⟩]

/-- Rows of PEG. -/
def pegRows : List RegRow := pegRows0 ++ pegRows1 ++ pegRows2

/-- Rows of LSH, part 0. -/
def lshRows0 : List RegRow := [
  /- LSH_CTRL -/ ⟨0x50000, [], [fld 0 1 .rw 0 .i,
     fld 1 1 .wo 0 .n]⟩,
  /- LSH_CFG -/ ⟨0x50004, [], [flr 0 11 .rw 0x140 .i 16 2000,
     flr 12 8 .rw 0x40 .i 8 255,
     fld 20 1 .rw 0 .i]⟩,
  /- LSH_HEALTH -/ ⟨0x50008, [], [fld 0 8 .rw 0xA0 .i,
     fld 8 8 .rw 0x40 .i]⟩,
  /- LSH_STATUS -/ ⟨0x5000C, [], [fld 0 3 .ro 0 .n,
     fld 3 3 .ro 0 .n,
     fld 6 1 .ro 0 .n,
     fld 7 1 .ro 0 .n,
     fld 8 1 .ro 0 .n,
     fld 9 1 .ro 0 .n,
     fld 10 1 .ro 0 .n,
     fld 11 1 .ro 0 .n,
     fld 12 1 .ro 0 .n,
     fld 13 1 .ro 0 .n,
     fld 14 1 .ro 0 .n,
     fld 15 1 .ro 0 .n,
     fld 16 8 .ro 0 .n,
     fld 24 8 .ro 0 .n]⟩,
  /- LSH_EVENT -/ ⟨0x50010, [], [fld 0 1 .w1c 0 .a,
     fld 1 1 .w1c 0 .a,
     fld 2 1 .w1c 0 .a,
     fld 3 1 .w1c 0 .a,
     fld 4 1 .w1c 0 .a,
     fld 5 1 .w1c 0 .a,
     fld 6 1 .w1c 0 .a,
     fld 7 1 .w1c 0 .a,
     fld 8 1 .w1c 0 .a,
     fld 9 1 .w1c 0 .a,
     fld 10 1 .w1c 0 .a,
     fld 11 1 .w1c 0 .a]⟩,
  /- LSH_EXPIRY_LO -/ ⟨0x50014, [], [fld 0 32 .ro 0 .a]⟩,
  /- LSH_EXPIRY_HI -/ ⟨0x50018, [], [fld 0 32 .ro 0 .a]⟩,
  /- LSH_PEER_RENEW_LO -/ ⟨0x5001C, [], [fld 0 32 .ro 0 .a]⟩,
  /- LSH_PEER_RENEW_HI -/ ⟨0x50020, [], [fld 0 32 .ro 0 .a]⟩,
  /- LSH_TAKE_T_LO -/ ⟨0x50024, [], [fld 0 32 .ro 0 .a]⟩,
  /- LSH_TAKE_T_HI -/ ⟨0x50028, [], [fld 0 32 .ro 0 .a]⟩,
  /- LSH_PEER_GEN -/ ⟨0x5002C, [], [fld 0 32 .ro 0 .n]⟩,
  /- LSH_PEER_CFG -/ ⟨0x50030, [], [fld 0 32 .ro 0 .n]⟩,
  /- LSH_PEER_SCHED_CRC -/ ⟨0x50034, [], [fld 0 32 .ro 0 .n]⟩,
  /- LSH_PEER_ALARM -/ ⟨0x50038, [], [fld 0 17 .ro 0 .n]⟩,
  /- LSH_SEQ_AGE -/ ⟨0x5003C, [], [fld 0 16 .ro 0xFFFF .n]⟩,
  /- LSH_TAKES -/ ⟨0x50080, [], [fld 0 32 .rclr 0 .a]⟩,
  /- LSH_RELEASES -/ ⟨0x50084, [], [fld 0 32 .rclr 0 .a]⟩,
  /- LSH_YIELDS -/ ⟨0x50088, [], [fld 0 32 .rclr 0 .a]⟩,
  /- LSH_DUAL_HOLD -/ ⟨0x5008C, [], [fld 0 32 .rclr 0 .a]⟩]

/-- Rows of LSH, part 1. -/
def lshRows1 : List RegRow := [
  /- LSH_RX_FRAMES -/ ⟨0x50090, [], [fld 0 32 .rclr 0 .a]⟩,
  /- LSH_RX_ERR -/ ⟨0x50094, [], [fld 0 32 .rclr 0 .a]⟩,
  /- LSH_LANE_DOWN -/ ⟨0x50098, [], [fld 0 32 .rclr 0 .a]⟩,
  /- LSH_LAPSES -/ ⟨0x5009C, [], [fld 0 32 .rclr 0 .a]⟩]

/-- Rows of LSH. -/
def lshRows : List RegRow := lshRows0 ++ lshRows1

/-- Rows of SHD, part 0. -/
def shdRows0 : List RegRow := [
  /- SHD_CTRL -/ ⟨0x54000, [], [fld 0 1 .rw 1 .i,
     fld 1 1 .rw 1 .i,
     fld 2 1 .rw 1 .i]⟩,
  /- SHD_STATUS -/ ⟨0x54004, [], [fld 0 8 .ro 0xFF .a,
     fld 8 5 .ro 0 .a,
     fld 13 1 .ro 0 .n,
     fld 14 2 .ro 0 .n]⟩,
  /- SHD_EVENT -/ ⟨0x54008, [], [fld 0 1 .w1c 0 .a,
     fld 1 1 .w1c 0 .a,
     fld 2 1 .w1c 0 .a,
     fld 3 1 .w1c 0 .a,
     fld 4 1 .w1c 0 .a,
     fld 5 1 .w1c 0 .a,
     fld 6 1 .w1c 0 .a,
     fld 7 1 .w1c 0 .a,
     fld 8 1 .w1c 0 .a,
     fld 9 1 .w1c 0 .a]⟩,
  /- SHD_FAULT -/ ⟨0x5400C, [], [fld 0 22 .ro 0 .n]⟩,
  /- SHD_FAULT_NEW -/ ⟨0x54010, [], [fld 0 22 .w1c 0 .a]⟩,
  /- SHD_CFG -/ ⟨0x54014, [], [flr 0 8 .rw 0x40 .i 1 255,
     flr 8 8 .rw 0x40 .i 1 255,
     flr 16 8 .rw 8 .i 1 255,
     flr 24 8 .rw 0x20 .i 1 64]⟩,
  /- SHD_WT0 -/ ⟨0x54020, [], [fld 0 32 .rw 0x10302878 .i]⟩,
  /- SHD_WT1 -/ ⟨0x54024, [], [fld 0 32 .rw 0x10102040 .i]⟩,
  /- SHD_WT2 -/ ⟨0x54028, [], [fld 0 32 .rw 0x10080820 .i]⟩,
  /- SHD_WT3 -/ ⟨0x5402C, [], [fld 0 32 .rw 0x18200108 .i]⟩,
  /- SHD_WT4 -/ ⟨0x54030, [], [fld 0 32 .rw 0x4012004 .i]⟩,
  /- SHD_PENj -/ ⟨0x54040, [(5, 0x4)], [fld 0 32 .ro 0 .a]⟩,
  /- SHD_FENCE_CTRL -/ ⟨0x54060, [], [fld 0 4 .wo 0 .n,
     fld 4 4 .wo 0 .n]⟩,
  /- SHD_FENCE_STAT -/ ⟨0x54064, [], [fld 0 32 .ro 0 .w]⟩,
  /- SHD_FENCE_RPTn_T_LO -/ ⟨0x54080, [(4, 0x10)], [fld 0 32 .ro 0 .w]⟩,
  /- SHD_FENCE_RPTn_T_HI -/ ⟨0x54084, [(4, 0x10)], [fld 0 32 .ro 0 .w]⟩,
  /- SHD_FENCE_RPTn_TX -/ ⟨0x54088, [(4, 0x10)], [fld 0 32 .ro 0 .w]⟩,
  /- SHD_FENCE_RPTn_RX -/ ⟨0x5408C, [(4, 0x10)], [fld 0 16 .ro 0 .w,
     fld 16 7 .ro 0 .w]⟩,
  /- SHD_LB_RESULT -/ ⟨0x540D0, [], [fld 0 16 .ro 0 .w,
     fld 16 16 .ro 0 .w]⟩,
  /- SHD_RETIRED -/ ⟨0x540D4, [], [fld 0 7 .ro 0 .a,
     fld 7 1 .ro 0 .a,
     fld 8 17 .ro 0 .a]⟩]

/-- Rows of SHD, part 1. -/
def shdRows1 : List RegRow := [
  /- SHD_TBL_ERR -/ ⟨0x540D8, [], [fld 0 4 .ro 0 .w,
     fld 4 16 .ro 0 .w,
     fld 24 8 .rclr 0 .w]⟩,
  /- SHD_REPORT_CTRL -/ ⟨0x540DC, [], [fld 0 1 .w1s 0 .n]⟩,
  /- SHD_REPORTw -/ ⟨0x540E0, [(8, 0x4)], [fld 0 32 .ro 0 .a]⟩]

/-- Rows of SHD. -/
def shdRows : List RegRow := shdRows0 ++ shdRows1

/-- Rows of SAP. -/
def sapRows : List RegRow := [
  /- SAPp_CTRL -/ ⟨0x58000, [(8, 0x80)], [fld 0 1 .rw 0 .i,
     fld 1 1 .rw 1 .i,
     fld 2 1 .rw 1 .i,
     fld 3 1 .rw 0 .i,
     fld 4 1 .rw 0 .i]⟩,
  /- SAPp_FMT -/ ⟨0x58004, [(8, 0x80)], [fld 0 2 .rw 0 .i,
     flr 2 5 .rw 2 .i 1 16,
     fld 7 2 .rw 3 .i,
     flr 9 5 .rw 0x17 .i 7 31,
     flr 14 3 .rw 4 .i 0 5,
     fld 17 1 .rw 0 .i,
     fld 18 1 .rw 0 .i,
     fld 19 1 .rw 0 .i,
     fld 20 1 .rw 0 .i]⟩,
  /- SAPp_FADE -/ ⟨0x58008, [(8, 0x80)], [flr 0 7 .rw 2 .i 1 64]⟩,
  /- SAPp_STATUS -/ ⟨0x5800C, [(8, 0x80)], [fld 0 3 .ro 0 .n,
     fld 3 1 .ro 0 .n,
     fld 4 1 .ro 0 .n,
     fld 5 1 .ro 0 .n,
     fld 6 3 .ro 0 .n,
     fld 9 9 .ro 0 .n]⟩,
  /- SAPp_EVENT -/ ⟨0x58010, [(8, 0x80)], [fld 0 1 .w1c 0 .w,
     fld 1 1 .w1c 0 .w,
     fld 2 1 .w1c 0 .w,
     fld 3 1 .w1c 0 .w,
     fld 4 1 .w1c 0 .w,
     fld 5 1 .w1c 0 .w,
     fld 6 1 .w1c 0 .w,
     fld 7 1 .w1c 0 .w,
     fld 8 1 .w1c 0 .w,
     fld 9 1 .w1c 0 .w,
     fld 10 1 .w1c 0 .w,
     fld 11 1 .w1c 0 .w,
     fld 12 1 .w1c 0 .w]⟩,
  /- SAPp_SLIP -/ ⟨0x58014, [(8, 0x80)], [fld 0 16 .rclr 0 .w,
     fld 16 16 .rclr 0 .w]⟩,
  /- SAPp_ERR -/ ⟨0x58018, [(8, 0x80)], [fld 0 16 .rclr 0 .w,
     fld 16 16 .rclr 0 .w]⟩,
  /- SAPp_XRUN -/ ⟨0x5801C, [(8, 0x80)], [fld 0 16 .rclr 0 .w,
     fld 16 16 .rclr 0 .w]⟩,
  /- SAPp_ERASE -/ ⟨0x58020, [(8, 0x80)], [fld 0 16 .rclr 0 .w]⟩,
  /- SAP_OMAPk -/ ⟨0x58400, [(64, 0x4)], [fld 0 1 .rw 0 .i,
     flr 1 2 .rw 0 .i 0 2,
     flr 3 4 .rw 0 .i 0 8,
     fld 7 4 .rw 0 .i,
     flr 11 2 .rw 0 .i 0 2,
     flr 13 2 .rw 0 .i 0 2,
     fld 15 6 .rw 0 .i,
     fld 21 3 .ro 0 .n,
     fld 24 2 .ro 0 .n]⟩,
  /- SAP_IMAPk -/ ⟨0x58500, [(64, 0x4)], [fld 0 1 .rw 0 .i,
     flr 1 2 .rw 0 .i 0 2,
     flr 3 4 .rw 0 .i 0 7,
     fld 7 4 .rw 0 .i,
     flr 11 2 .rw 0 .i 0 2,
     flr 13 2 .rw 0 .i 0 2,
     fld 15 6 .rw 0 .i,
     fld 21 3 .ro 0 .n,
     fld 24 2 .ro 0 .n]⟩,
  /- SAP_OUNDER_LO -/ ⟨0x58600, [], [fld 0 32 .w1c 0 .w]⟩,
  /- SAP_OUNDER_HI -/ ⟨0x58604, [], [fld 0 32 .w1c 0 .w]⟩,
  /- SAP_IOVER_LO -/ ⟨0x58608, [], [fld 0 32 .w1c 0 .w]⟩,
  /- SAP_IOVER_HI -/ ⟨0x5860C, [], [fld 0 32 .w1c 0 .w]⟩,
  /- SAP_VOICE_LAW -/ ⟨0x58610, [], [fld 0 1 .rw 0 .i]⟩,
  /- SAP_IECq_CFG -/ ⟨0x58700, [(2, 0x80)], [fld 0 1 .rw 0 .i,
     fld 1 1 .rw 0 .i,
     fld 2 1 .rw 0 .i,
     fld 3 1 .rw 0 .i,
     fld 4 1 .rw 0 .i]⟩,
  /- SAP_IECq_CS_TXk -/ ⟨0x58704, [(2, 0x80), (6, 0x4)], [fld 0 32 .rw 0 .i]⟩,
  /- SAP_IECq_CS_RXAk -/ ⟨0x5871C, [(2, 0x80), (6, 0x4)], [fld 0 32 .ro 0 .n]⟩,
  /- SAP_IECq_CS_RXBk -/ ⟨0x58734, [(2, 0x80), (6, 0x4)], [fld 0 32 .ro 0 .n]⟩]

/-- Rows of SPK. -/
def spkRows : List RegRow := [
  /- SPK_CTRL -/ ⟨0x60000, [], [fld 0 1 .rw 0 .i,
     fld 1 1 .wo 0 .n]⟩,
  /- SPK_CFG -/ ⟨0x60004, [], [flr 0 2 .rw 2 .i 0 2,
     fld 2 7 .rw 0x18 .i,
     fld 9 1 .rw 0 .i,
     flr 10 7 .rw 0xA .i 1 64]⟩,
  /- SPK_STATUS -/ ⟨0x60008, [], [fld 0 3 .ro 0 .n,
     fld 3 3 .ro 0 .n,
     fld 6 1 .ro 0 .a,
     fld 7 3 .ro 0 .a,
     fld 10 3 .ro 0 .a,
     fld 13 1 .ro 0 .n,
     fld 14 1 .ro 0 .a]⟩,
  /- SPK_EVENT -/ ⟨0x6000C, [], [fld 0 1 .w1c 0 .a,
     fld 1 1 .w1c 0 .a,
     fld 2 1 .w1c 0 .a,
     fld 3 1 .w1c 0 .a,
     fld 4 1 .w1c 0 .a]⟩,
  /- SPK_TRIP_CNT -/ ⟨0x60010, [], [fld 0 8 .rclr 0 .a,
     fld 8 8 .rclr 0 .a,
     fld 16 8 .rclr 0 .a,
     fld 24 8 .rclr 0 .a]⟩,
  /- SPK_TEMP -/ ⟨0x60014, [], [fld 0 8 .ro 0 .n]⟩]

/-- Rows of LLB. -/
def llbRows : List RegRow := [
  /- LLB_CTRL -/ ⟨0x64000, [], [fld 0 1 .rw 0 .i,
     fld 1 1 .rw 0 .i]⟩,
  /- LLB_CFG -/ ⟨0x64004, [], [fld 0 3 .rw 7 .i,
     fld 3 3 .rw 7 .i,
     fld 6 1 .rw 0 .i,
     fld 8 2 .rw 2 .i,
     fld 16 8 .rw 8 .i]⟩,
  /- LLB_EV_MASK -/ ⟨0x64008, [], [fld 0 7 .rw 0x7F .i]⟩,
  /- LLB_STATUS -/ ⟨0x6400C, [], [fld 0 3 .ro 0 .n,
     fld 3 3 .ro 0 .n,
     fld 6 1 .ro 0 .n,
     fld 7 5 .ro 0 .n,
     fld 16 16 .ro 0 .n]⟩,
  /- LLB_EVENT -/ ⟨0x64010, [], [fld 0 1 .w1c 0 .w,
     fld 1 1 .w1c 0 .w,
     fld 2 1 .w1c 0 .w,
     fld 3 1 .w1c 0 .w,
     fld 4 1 .w1c 0 .w,
     fld 5 1 .w1c 0 .w,
     fld 6 1 .w1c 0 .w]⟩,
  /- LLB_CH_EN -/ ⟨0x64014, [], [fld 0 16 .rw 0 .i]⟩,
  /- LLB_CH_RUN0 -/ ⟨0x64018, [], [fld 0 24 .ro 0 .n]⟩,
  /- LLB_CH_RUN1 -/ ⟨0x6401C, [], [fld 0 24 .ro 0 .n]⟩,
  /- LLB_EV_SEQ -/ ⟨0x64020, [], [fld 0 16 .ro 0 .w]⟩,
  /- LLB_EV_SENT -/ ⟨0x64024, [], [fld 0 32 .rclr 0 .w]⟩,
  /- LLB_EV_LOST -/ ⟨0x64028, [], [fld 0 32 .rclr 0 .w]⟩]

/-- Rows of CMP. -/
def cmpRows : List RegRow := [
  /- CMP_CTRL -/ ⟨0x68000, [], [fld 0 1 .rw 0 .i]⟩,
  /- CMP_STATUS -/ ⟨0x68004, [], [fld 0 3 .ro 0 .n,
     fld 3 1 .ro 0 .n,
     fld 4 1 .ro 0 .n,
     fld 5 4 .ro 0 .n,
     fld 9 4 .ro 0 .n]⟩,
  /- CMP_EVENT -/ ⟨0x68008, [], [fld 0 1 .w1c 0 .w,
     fld 1 1 .w1c 0 .w,
     fld 2 1 .w1c 0 .w,
     fld 3 1 .w1c 0 .w,
     fld 4 1 .w1c 0 .w,
     fld 5 1 .w1c 0 .w]⟩,
  /- CMP_CTX_STATE -/ ⟨0x6800C, [], [fld 0 32 .ro 0 .n]⟩,
  /- CMP_LAST_FB -/ ⟨0x68010, [], [fld 0 4 .ro 0 .w,
     fld 4 4 .ro 0 .w]⟩,
  /- CMP_LAST_FB_OFS -/ ⟨0x68014, [], [fld 0 32 .ro 0 .w]⟩,
  /- CMP_JOBS -/ ⟨0x68040, [], [fld 0 32 .rclr 0 .w]⟩,
  /- CMP_BLOCKS -/ ⟨0x68044, [], [fld 0 32 .rclr 0 .w]⟩,
  /- CMP_FALLBACK -/ ⟨0x68048, [], [fld 0 32 .rclr 0 .w]⟩,
  /- CMP_HARD -/ ⟨0x6804C, [], [fld 0 32 .rclr 0 .w]⟩,
  /- CMP_ABORTS -/ ⟨0x68050, [], [fld 0 32 .rclr 0 .w]⟩,
  /- CMP_DATA_ERR -/ ⟨0x68054, [], [fld 0 32 .rclr 0 .w]⟩]

/-- Rows of FLD, part 0. -/
def fldRows0 : List RegRow := [
  /- FLD_EVENT -/ ⟨0x70000, [], [fld 0 1 .w1c 0 .a,
     fld 1 1 .w1c 0 .a,
     fld 2 1 .w1c 0 .a,
     fld 3 1 .w1c 0 .a,
     fld 4 1 .w1c 0 .a,
     fld 5 1 .w1c 0 .a,
     fld 6 1 .w1c 0 .a,
     fld 7 1 .w1c 0 .a,
     fld 8 1 .w1c 0 .a,
     fld 9 1 .w1c 0 .a,
     fld 10 1 .w1c 0 .a,
     fld 11 1 .w1c 0 .a,
     fld 12 1 .w1c 0 .a,
     fld 13 1 .w1c 0 .a,
     fld 14 1 .w1c 0 .a,
     fld 15 1 .w1c 0 .a]⟩,
  /- FLD_GL_CTRL -/ ⟨0x70010, [], [fld 0 1 .w1s 0 .n,
     fld 1 2 .rw 0 .n,
     fld 3 1 .rw 0 .n,
     fld 8 8 .rw 0 .n,
     fld 16 7 .rw 1 .n]⟩,
  /- FLD_GL_CFG -/ ⟨0x70014, [], [fld 0 2 .rw 3 .i,
     fld 2 1 .rw 1 .i,
     fld 3 1 .rw 1 .i,
     flr 4 8 .rw 0xA .i 1 255]⟩,
  /- FLD_GL_ADDR -/ ⟨0x70018, [], [fld 0 16 .rw 0 .n]⟩,
  /- FLD_GL_TIDk -/ ⟨0x7001C, [(3, 0x4)], [fld 0 32 .rw 0 .n]⟩,
  /- FLD_GL_STATUS -/ ⟨0x70028, [], [fld 0 1 .ro 0 .n,
     fld 1 4 .ro 0 .n,
     fld 5 1 .ro 0 .n,
     fld 6 1 .ro 0 .n,
     fld 7 1 .ro 0 .n,
     fld 8 7 .ro 0 .n,
     fld 16 7 .ro 0x7F .n]⟩,
  /- FLD_GL_CNT -/ ⟨0x7002C, [], [fld 0 8 .rclr 0 .w,
     fld 8 8 .rclr 0 .w,
     fld 16 8 .rclr 0 .w,
     fld 24 8 .rclr 0 .w]⟩,
  /- FLD_CELL_CTRL -/ ⟨0x70040, [], [fld 0 1 .w1s 0 .n,
     fld 1 1 .wo 0 .n,
     fld 2 1 .wo 0 .n,
     fld 3 1 .rw 1 .i]⟩,
  /- FLD_CELL_STATUS -/ ⟨0x70044, [], [fld 0 1 .ro 0 .a,
     fld 1 1 .ro 0 .a,
     fld 2 1 .ro 0 .a,
     fld 3 1 .ro 0 .a,
     fld 4 1 .ro 0 .a,
     fld 5 1 .ro 0 .a,
     fld 6 1 .ro 0 .a,
     fld 7 3 .ro 0 .n,
     fld 10 4 .ro 0 .a]⟩,
  /- FLD_CELL_IDk -/ ⟨0x70048, [(3, 0x4)], [fld 0 32 .ro 0 .a]⟩,
  /- FLD_CELL_RATED_C -/ ⟨0x70054, [], [fld 0 32 .ro 0 .a]⟩,
  /- FLD_CELL_RATED_ESR -/ ⟨0x70058, [], [fld 0 32 .ro 0 .a]⟩,
  /- FLD_CELL_RATED_CYC -/ ⟨0x7005C, [], [fld 0 32 .ro 0 .a]⟩,
  /- FLD_CELL_RATED_MV -/ ⟨0x70060, [], [fld 0 32 .ro 0 .a]⟩,
  /- FLD_CELL_C -/ ⟨0x70064, [], [fld 0 32 .ro 0 .a]⟩,
  /- FLD_CELL_ESR -/ ⟨0x70068, [], [fld 0 32 .ro 0 .a]⟩,
  /- FLD_CELL_CYCLES -/ ⟨0x7006C, [], [fld 0 32 .ro 0 .a]⟩,
  /- FLD_CELL_LAST_T -/ ⟨0x70070, [], [fld 0 32 .ro 0 .a]⟩,
  /- FLD_CELL_CFG -/ ⟨0x70074, [], [fld 0 16 .rw 0x3E8 .i,
     fld 16 8 .ro 0 .a]⟩,
  /- FLD_SAG_CFG -/ ⟨0x70078, [], [flr 0 16 .rw 0x7D0 .i 100 65535,
     flr 16 8 .rw 0xA8 .i 1 255,
     fld 24 8 .rw 0x32 .i]⟩]

/-- Rows of FLD, part 1. -/
def fldRows1 : List RegRow := [
  /- FLD_SAG_WIN -/ ⟨0x7007C, [], [flr 0 11 .rw 0x78 .i 0 1439,
     flr 16 11 .rw 0x78 .i 1 1440]⟩,
  /- FLD_SAG_READY -/ ⟨0x70080, [], [fld 0 16 .rw 0x2EE0 .i]⟩,
  /- FLD_SAG_V0 -/ ⟨0x70084, [], [fld 0 32 .ro 0 .a]⟩,
  /- FLD_SAG_VA -/ ⟨0x70088, [], [fld 0 32 .ro 0 .a]⟩,
  /- FLD_SAG_VB -/ ⟨0x7008C, [], [fld 0 32 .ro 0 .a]⟩,
  /- FLD_GPI_LEVEL -/ ⟨0x700C0, [], [fld 0 16 .ro 0 .n,
     fld 16 16 .ro 0 .n]⟩,
  /- FLD_GPI_LATCH -/ ⟨0x700C4, [], [fld 0 16 .w1c 0 .a]⟩,
  /- FLD_GPI_CHG -/ ⟨0x700C8, [], [fld 0 16 .w1c 0 .a,
     fld 16 16 .ro 0 .n]⟩,
  /- FLD_GPI_CFG -/ ⟨0x700CC, [], [fld 0 16 .rw 0 .i,
     fld 16 16 .rw 0xFFFF .i]⟩,
  /- FLD_GPI_STORM_CFG -/ ⟨0x700D0, [], [flr 0 8 .rw 0x40 .i 2 255,
     flr 8 4 .rw 4 .i 1 15,
     fld 16 8 .rw 0 .i]⟩,
  /- FLD_GPI_DEBk -/ ⟨0x700D4, [(4, 0x4)], [fld 0 32 .rw 0x14141414 .i]⟩,
  /- FLD_GPI_STORM_CNT -/ ⟨0x700E4, [], [fld 0 16 .rclr 0 .a]⟩,
  /- FLD_GPO -/ ⟨0x700F0, [], [fld 0 8 .rw 0 .i,
     fld 8 8 .ro 0xFF .n,
     fld 16 1 .ro 0 .n]⟩,
  /- FLD_GL_BUFk -/ ⟨0x70100, [(16, 0x4)], [fld 0 32 .rw 0 .n]⟩,
  /- FLD_MI2Cm_CMD -/ ⟨0x70180, [(2, 0x10)], [fld 0 1 .w1s 0 .n,
     fld 1 1 .rw 0 .n,
     fld 2 1 .rw 0 .n,
     fld 3 1 .rw 0 .n,
     fld 4 1 .rw 1 .i,
     fld 8 8 .rw 0 .n,
     flr 16 8 .rw 1 .n 1 128,
     fld 24 4 .ro 0 .n]⟩,
  /- FLD_QSPI_CMD -/ ⟨0x701A0, [], [fld 0 1 .w1s 0 .n,
     flr 1 2 .rw 0 .n 0 2,
     fld 3 1 .rw 0 .n,
     flr 4 2 .rw 0 .n 0 2,
     flr 6 2 .rw 0 .n 0 2,
     fld 8 8 .rw 0 .n,
     fld 16 4 .rw 0 .n,
     flr 20 9 .rw 0 .n 0 256]⟩,
  /- FLD_QSPI_ADDR -/ ⟨0x701A4, [], [fld 0 32 .rw 0 .n]⟩,
  /- FLD_QSPI_CFG -/ ⟨0x701A8, [], [fld 0 2 .rw 0 .i,
     fld 2 1 .rw 1 .a,
     fld 3 1 .rw 1 .a,
     fld 8 4 .ro 0 .n]⟩,
  /- FLD_SMB_STATUS -/ ⟨0x701C0, [], [fld 0 7 .ro 0x58 .a,
     fld 16 8 .rclr 0 .a]⟩,
  /- FLD_MI2Cm_DATAk -/ ⟨0x70200, [(2, 0x80), (32, 0x4)], [fld 0 32 .rw 0 .n]⟩]

/-- Rows of FLD, part 2. -/
def fldRows2 : List RegRow := [
  /- FLD_QSPI_DATAk -/ ⟨0x70300, [(64, 0x4)], [fld 0 32 .rw 0 .n]⟩,
  /- FLD_GL_ID -/ ⟨0x70400, [(64, 0xC), (3, 0x4)], [fld 0 32 .ro 0 .n]⟩]

/-- Rows of FLD. -/
def fldRows : List RegRow := fldRows0 ++ fldRows1 ++ fldRows2

/-- Rows of MON. -/
def monRows : List RegRow := [
  /- MON_VSCALE -/ ⟨0x78000, [], [flr 0 20 .rw 0xBEBC .i 1 1048575]⟩,
  /- MON_ISCALE -/ ⟨0x78004, [], [flr 0 20 .rw 0x7A .i 1 1048575]⟩,
  /- MON_CSCALE -/ ⟨0x78008, [], [flr 0 20 .rw 0x1313 .i 1 1048575]⟩,
  /- MON_FEED_V -/ ⟨0x78010, [], [fld 0 12 .ro 0 .n,
     fld 16 12 .ro 0 .n]⟩,
  /- MON_FEED_I -/ ⟨0x78014, [], [fld 0 16 .ro 0 .n]⟩,
  /- MON_FEED_P -/ ⟨0x78018, [], [fld 0 24 .ro 0 .n]⟩,
  /- MON_CELL_V -/ ⟨0x7801C, [], [fld 0 16 .ro 0 .n]⟩,
  /- MON_TEMP -/ ⟨0x78020, [], [fld 0 32 .ro 0 .n]⟩,
  /- MON_TEMP_MAX -/ ⟨0x78024, [], [fld 0 12 .ro 0 .n]⟩]

/-- Rows of INT. -/
def intRows : List RegRow := [
  /- INT_FN0_STATUS -/ ⟨0x80000, [], [fld 0 21 .w1c 0 .n]⟩,
  /- INT_FN0_MASK -/ ⟨0x80004, [], [fld 0 21 .rw 0x1FFFFF .n]⟩,
  /- INT_FN0_VECk -/ ⟨0x80010, [(5, 0x4)], [fld 0 32 .rw 0 .n]⟩,
  /- INT_FN0_VEC5 -/ ⟨0x80024, [], [fld 0 8 .rw 0 .n]⟩,
  /- INT_VF_SUM -/ ⟨0x80030, [], [fld 1 15 .ro 0 .n]⟩,
  /- INT_VF_VIEWf -/ ⟨0x80104, [(15, 0x4)], [fld 0 4 .ro 0 .n,
     fld 4 4 .ro 0xF .n]⟩]

/-- The rows of the block span that holds offset o (Table 19.1). -/
def blockRows (o : Nat) : List RegRow :=
  match o / 0x4000 with
  | 0 => glbRows
  | 1 => clkRows
  | 2 => hrtRows
  | 3 => ratRows
  | 4 => rstRows
  | 5 => hifRows
  | 6 | 7 => dmaRows
  | 8 | 9 | 10 | 11 => chRows
  | 12 | 13 => clsRows
  | 14 | 15 => freRows
  | 16 | 17 => pmcRows
  | 18 | 19 => pegRows
  | 20 => lshRows
  | 21 => shdRows
  | 22 | 23 => sapRows
  | 24 => spkRows
  | 25 => llbRows
  | 26 | 27 => cmpRows
  | 28 | 29 => fldRows
  | 30 | 31 => monRows
  | 32 => intRows
  | _ => []

/-- Does the array of dimensions ds, whose first register lies r bytes below, hold a register here? -/
def dimsHit : List (Nat × Nat) → Nat → Bool
  | [], r => r == 0
  | (c, st) :: ds, r => decide (r / st < c) && dimsHit ds (r % st)

/-- The row of the register at offset o, if Table 19.2 lists one (R392). -/
def rowAt (o : Nat) : Option RegRow :=
  (blockRows o).find? fun r => decide (r.off ≤ o) && dimsHit r.dims (o - r.off)

/-- The 32-bit value that the reset values of a row compose. -/
def RegRow.resetVal (r : RegRow) : Nat := r.fields.foldl (fun a f => a + f.reset * 2 ^ f.lo) 0

end Sys2Proof.Machine
end

