-- ==== Sys2Proof/Machine/State.lean ====
section
/-!
DEFINITION. Machine/State.lean: the state of the OX4 as plain data. Registers and table windows of PF0 BAR0 are one
sparse word file (`Dev.regs`): a word it does not list reads as its reset value. What the spec gives the part beyond its
registers stands in one structure per chapter.
-/

namespace Sys2Proof.Machine

/-- What a Pegline line carries: on a bus the levels of the half bits, in a chain the code groups, each an octet and whether it
is a K group (R234). -/
inductive PegLine where
  | levels (hs : List Bool)
  | groups (gs : List (Bool × Byte))
  deriving DecidableEq, Repr, Inhabited

/-- What the part puts out in a command: the answer to a read, host traffic, frames on a wire, lane and bus traffic. -/
inductive Out where
  | read (v : Word)
  | cfgRetry
  | unsupported
  | msix (f vec addr data : Nat)
  | memRead (f tag addr len : Nat)
  | hostWrite (f addr : Nat) (bs : Bytes) (relaxed : Bool)
  /-- A frame in the express form leaves a channel. -/
  | tx (ch : Nat) (bs : Bytes)
  /-- A preemptable mPacket leaves a channel: SMD and fragment count, whether more follow (it ends with an mCRC), frame bytes
  (R168). -/
  | mpacket (ch : Nat) (pkt : MPkt) (bs : Bytes)
  /-- A frame or mPacket whose block stream goes back to the own receiver, the line being idle (LOOP = 1, R155): the
  era-extended time of its delimiter. -/
  | looped (ch : Nat) (pkt : MPkt) (t : Nat) (bs : Bytes)
  /-- A verify or respond mPacket that goes back so. -/
  | loopedMark (ch : Nat) (respond : Bool)
  | verify (ch : Nat)
  | respond (ch : Nat)
  | probe (port seq node : Nat)
  | echo (port seq : Nat) (fn : Option Nat) (turn down : Nat)
  /-- A slot frame leaves on a channel, from its action point t on, in era-extended mt (R236); a bus driver is enabled 512 mt
  earlier, and disabled at the end (R234). -/
  | peg (chB : Bool) (t : Nat) (line : PegLine)
  /-- A mirror frame: its code groups, each an octet and whether it is a K group (R277). -/
  | mirror (gs : List (Bool × Byte))
  /-- A frame goes on along the chain: the time of its K27.7 (R235). -/
  | pegFwd (chB : Bool) (t : Nat) (line : PegLine)
  /-- A frame of a serial port on the wire: the slots that TXD drives and the bits; of a master also FS in each BCLK period
  from the first data bit on, and whether data change on the rising edge of BCLK (R297). -/
  | sap (p len drive v : Nat) (clocks : Option (Nat × Bool))
  | iec (p : Nat) (block : Bool) (a b : Nat)
  | spk (x : Int)
  | qspi (cmd addr : Nat) (bs : Bytes)
  /-- A read of flash by the boot sequencer: opcode, offset and length (R86, R90). -/
  | flashRead (cmd addr len : Nat)
  | mi2c (m cmd : Nat) (bs : Bytes)
  /-- A Guyline transaction or a search pass begins: the bytes it sends after its reset, and the times in which it pulls the line
  low up to the end of what the device answers, from and to in gt after its start (R347). -/
  | guyline (op : Nat) (bs : Bytes) (lows : List (Nat × Nat))
  /-- The lows of a search pass behind its command byte: the sub-slots and the direction written at each position (R354). -/
  | glPass (lows : List (Nat × Nat))
  | glRelease
  /-- A report through AER by function f: an advisory non-fatal error, poisoned or not completed in time (R106). -/
  | aer (f : Nat) (poisoned : Bool)
  | idcode (v : Nat)
  | smb (ack : Bool) (v : Nat)
  deriving DecidableEq, Repr, Inhabited

/-! ### Frames, motes and the Hearth (chapter 02) -/

/-- An adjustment that waits for its frame event: by software (the offset is read from HRT_ADJ when it is applied) or by
the hardware servo with its own mode and offset (R43, R46, R48). -/
inductive Adj where
  | none
  | sw
  | hw (slew : Bool) (offset : Int)
  deriving DecidableEq, Repr, Inhabited

/-- The Hearth beyond its registers: the three copies and the counts of Table 2.5. -/
structure Hearth where
  a           : HCopy := {}
  b           : HCopy := {}
  c           : HCopy := {}
  /-- The Hearth counts only from the first PLL lock (Table 4.4). -/
  running     : Bool := false
  adj         : Adj := .none
  /-- A frame event later than the write of GO has come (R43). -/
  adjArmed    : Bool := false
  /-- A frame event later than the write of LOAD has come (R45). -/
  loadArmed   : Bool := false
  /-- Slew advance per CLK in units of 2^-32 mt, signed; 0 when no slew runs (R43). -/
  slewInc     : Int := 0
  /-- Slew rate in ppm of the hardware's adjustment; none for software's (R43, R268). -/
  adjPpm      : Option Nat := none
  /-- A load by Pegline that waits: what it adds to the Hearth, in mt (R263, R45). -/
  loadHw      : Option Int := none
  /-- A load has been applied since FAULT was entered (Table 2.5). -/
  loadedSince : Bool := false
  /-- Consecutive good rounds or edges towards LOCKED (Table 2.5). -/
  acqRun      : Nat := 0
  havePrev    : Bool := false
  ePrev       : Int := 0
  /-- Frames since the last host write of HRT_RATE or GO (Table 2.5). -/
  wdogFr      : Nat := 0
  /-- Frames in HOLDOVER (R47). -/
  holdFr      : Nat := 0
  /-- Frames since the last PPS edge (R47). -/
  ppsFr       : Nat := 0
  /-- The source under which the discipline state stands (R415). -/
  srcStands   : Nat := 0
  /-- CLK counted since the Hearth first ran: the grid on which pulses are placed (R49, R50). -/
  clk         : Nat := 0
  /-- PPS_OUT (R49): a pulse is due or active; the CLK of its edge, and how far it lies behind its frame event; frame events
  left of its width, and the CLK at which it ends once they have come; its edge was placed before its second event. -/
  ppsOn       : Bool := false
  ppsAt       : Nat := 0
  ppsDelay    : Nat := 0
  ppsLeft     : Nat := 0
  ppsEnd      : Option Nat := none
  ppsEarly    : Bool := false
  /-- FSYNC_OUT (R50): a pulse is due or active; the CLK of its edge and the CLK at which it ends. -/
  fsyncOn     : Bool := false
  fsyncAt     : Nat := 0
  fsyncEnd    : Nat := 0
  /-- HELD_BOUND has been raised for this held operation, or RELOCKING has begun (R31, R416). -/
  heldBound   : Bool := false
  /-- MCLK dividers as applied by the last DEN write (R29). -/
  mclkA       : Nat × Nat := (3, 128)
  mclkB       : Nat × Nat := (441, 20480)
  deriving DecidableEq, Repr, Inhabited

/-! ### Rations, tiers and Bivouac (chapter 03) -/

/-- The Ration controller beyond its registers. -/
structure Rat where
  /-- Sums and sample counts of the frame in progress (R56). -/
  sumV      : Nat := 0
  nV        : Nat := 0
  sumI      : Nat := 0
  nI        : Nat := 0
  /-- The filters of R57, in µV, µA and mW, and whether each has taken its first value. -/
  filtV     : Int := 0
  filtI     : Int := 0
  filtP     : Int := 0
  hasV     : Bool := false
  hasI     : Bool := false
  hasP     : Bool := false
  /-- Consecutive low FEED_VSENSE samples (R65). -/
  lowRun    : Nat := 0
  /-- Tier of the announced step (R60). -/
  announced : Nat := 2
  bootFirst : Bool := true
  /-- Latest readings of S0 to S3 in quarters of a degree (R57). -/
  temps     : List Int := [0, 0, 0, 0]
  /-- Cell voltages at the last superframe events, newest first, in mV (R69). -/
  cellHist  : List Nat := []
  sfLoss    : Nat := 0
  pUw       : Nat := 0
  /-- Dying gasp: copies still to queue, era-extended time at which the next falls due, whether one has left (R67). -/
  gaspLeft  : Nat := 0
  gaspNext  : Nat := 0
  gaspOut   : Bool := false
  /-- Losses since power-on (Table 3.6), era-extended frame of the last one, and whether its cap has passed 3 (R71). -/
  losses    : Nat := 0
  lossFr    : Nat := 0
  cellLow   : Bool := false
  hostPwr   : Bool := false
  /-- Frames since HOST_PWR_EN rose or fell while a REFOUT change waits (R72). -/
  refUp     : Option Nat := none
  refDown   : Option Nat := none
  /-- Lowest cell reading of the feed loss in effect, in mV (R68). -/
  cellMin   : Nat := 0
  /-- The present frame event is a superframe event, evaluated (R59, R75). -/
  sfEv      : Bool := false
  /-- Packet memory was retained when the restore in progress began (R75). -/
  wakeKept  : Bool := false
  /-- Frame events since the wake of a restore, one in the CLK of the wake among them (R75); none when no restore runs. -/
  wakeFr    : Option Nat := none
  /-- The cause of the announced Bivouac entry, as RAT_STATUS.BIV_CAUSE codes it. -/
  bivWhy    : Nat := 0
  /-- The armed wake time, once RAT_BIV_TIMER_HI has been written (R74). -/
  timer     : Option Nat := none
  /-- The controller's RAT_STATUS while a reset shows the register's reset value until the boot ends (R79, R11). -/
  shadow    : Option Nat := none
  deriving DecidableEq, Repr, Inhabited

/-! ### Reset, boot and the image (chapter 04) -/

/-- A device reset (Table 4.1), in order of severity. -/
inductive ResetKind where
  | warm | cold | por
  deriving DecidableEq, Repr, Inhabited

/-- The boot sequencer beyond the RST registers. -/
structure Boot where
  /-- The reset or boot in progress (R77); none in operation. -/
  kind      : Option ResetKind := some .por
  /-- The boot is that of a Bivouac wake with PMEM off (R75). -/
  wakeBoot  : Bool := false
  /-- A reset is asserted (Table 4.1). -/
  asserted  : Bool := true
  porLow    : Bool := true
  sysLow    : Bool := false
  pllOnce   : Bool := false
  /-- Next step of POWER_UP (R85): 0 PD1, 1 PD2, 2 PD3 PD5 and PD4, 3 REFOUT_EN, 4 none. -/
  step      : Nat := 0
  /-- CLK (`Hearth.clk`) from which the interval to the next step counts: that of the step before (R85). -/
  stepClk   : Nat := 0
  /-- Frames since tP (R87). -/
  frames    : Nat := 0
  /-- Rails of PD0 to PD6 good (R83). -/
  rails     : List Bool := List.replicate 7 false
  /-- Key and flags read from OTP (R94). -/
  otpKey    : Bytes := []
  /-- Headers and calibration page read in FIND, and the slot image that VERIFY passed (R95 to R99). -/
  hdrA      : Bytes := []
  hdrB      : Bytes := []
  calPage   : Bytes := []
  cands     : List Nat := []
  image     : Bytes := []
  /-- APPLY: the CLK in which it began, and the words of the page and of the image that it has been through (R97). -/
  applyClk  : Nat := 0
  applied   : Nat := 0
  /-- ADMIT or DEFAULTS has ended; RUN or HOLD follows at the next frame event (Table 4.4). -/
  ready     : Bool := false
  release   : Bool := false
  /-- A frame event has come since `ready` or `release`. -/
  due       : Bool := false
  deriving DecidableEq, Repr, Inhabited

/-! ### Host interface and rings (chapters 05 and 06) -/

/-- One MSI-X table entry (R111, R116); masked at reset as PCIe specifies. -/
structure MsixEnt where
  addr   : Nat := 0
  data   : Nat := 0
  masked : Bool := true
  deriving DecidableEq, Repr, Inhabited

/-- One function, 0 for PF0 (chapter 05): its configuration space as far as the part acts on it, its MSI-X table and
pending bits, the VF registers of a VF, its mailbox set-up, and its Kennel. -/
structure Fn where
  bme      : Bool := false
  mse      : Bool := false
  relax    : Bool := true
  msixEn   : Bool := false
  msixMask : Bool := false
  d3       : Bool := false
  mps      : Nat := 128
  mrrs     : Nat := 512
  /-- The status registers of its AER capability: uncorrectable and correctable errors (R106). -/
  aerUnc   : Nat := 0
  aerCor   : Nat := 0
  table    : List (Nat × MsixEnt) := []
  pba      : List Nat := []
  vfStatus : Nat := 0
  vfMask   : Nat := 15
  vfVec    : Nat := 0
  /-- MBX_BASE_LO held (R128). -/
  mbxLo    : Option Nat := none
  /-- SEQ, RES0 and RES1 of the last accepted command (R148). -/
  last     : Option (Nat × Nat × Nat) := none
  /-- Kennel: the CLK (`Hearth.clk`) of t0, the cause code, whether the cause names all functions (R118, R120). -/
  kT0      : Nat := 0
  kCause   : Nat := 0
  kAll     : Bool := false
  deriving DecidableEq, Repr, Inhabited

/-- A fetched descriptor that the part has not returned (R130 to R134): its eight dwords, the payload pieces that have
arrived, and how far it has come. -/
structure Desc where
  w     : List Nat := [0, 0, 0, 0, 0, 0, 0, 0]
  /-- Era-extended time of its fetch (R138). -/
  t     : Nat := 0
  begun : Bool := false
  done  : Bool := false
  /-- TX: its frame has entered packet memory. -/
  entered : Bool := false
  /-- Payload bytes still to arrive, and the pieces (offset, bytes) that have. -/
  need  : Nat := 0
  got   : List (Nat × Bytes) := []
  /-- Bytes moved so far (audio), half and full points seen, PASS (R143, R144). -/
  pos   : Nat := 0
  half  : Bool := false
  full  : Bool := false
  pass  : Nat := 0
  /-- Time of the tick at which its first sample passed (R304). -/
  sampT : Option Nat := none
  deriving DecidableEq, Repr, Inhabited

/-- What the classifier and the FRE decided for a frame, stored with it (R183, R213). -/
structure Decision where
  kind    : Nat := 2
  mask    : Nat := 0
  tc      : Nat := 0
  fn      : Nat := 0
  qp      : Nat := 0
  frer    : Bool := false
  stream  : Nat := 0
  follow  : Bool := false
  partner : Nat := 0
  flow    : Nat := 0
  hit     : Bool := false
  index   : Nat := 0x1FFF
  gen     : Nat := 0
  /-- GEN of the stream at the FRE decision; none when no stream acted. -/
  sgen    : Option Nat := none
  deriving DecidableEq, Repr, Inhabited

/-- A frame in packet memory, destination address to FCS, with what is stored beside it. Copies of one frame share its
`id` and its cells. -/
structure Frm where
  id     : Nat := 0
  data   : Bytes := []
  /-- 0 to 3 CH0 to CH3, 4 Pegline, 5 host TX, 6 the part itself. -/
  src    : Nat := 0
  tc     : Nat := 0
  dec    : Decision := {}
  cells  : List Nat := []
  guar   : Bool := false
  /-- Receive stamp, and whether it is valid. -/
  ts     : Nat := 0
  tsOk   : Bool := false
  /-- Era-extended frame in which it was queued (R187). -/
  qFr    : Nat := 0
  launch : Option Nat := none
  /-- TX ring and count of the SOP descriptor, and the number of descriptors (R138). -/
  host   : Option (Nat × Nat × Nat) := none
  tsReq  : Bool := false
  /-- Function and epoch that own it, for host frames (chapter 05, "The Kennel"). -/
  fn     : Option (Nat × Nat) := none
  poison : Bool := false
  /-- A dying-gasp copy (R67). -/
  gasp   : Bool := false
  /-- A lifeline channel's packet (k), or an event copy (16): R325, R336. -/
  llb    : Option Nat := none
  deriving DecidableEq, Repr, Inhabited

/-- A frame that waits for, or fills, descriptors of an RX ring (R140, R141). -/
structure RxItem where
  frm   : Frm := {}
  off   : Nat := 0
  /-- Descriptors filled so far. -/
  n     : Nat := 0
  /-- Time at which its stall budget ends, once it has found no descriptor. -/
  stall : Option Nat := none
  deriving DecidableEq, Repr, Inhabited

/-- One ring (R126): set-up, counts and state. `cons` counts the descriptors that are returned; CONS adds those begun. -/
structure Ring where
  /-- Table 4.10 code; for a mailbox 0 UNSET, 2 set. -/
  st      : Nat := 0
  err     : Bool := false
  base    : Nat := 0
  size    : Nat := 0
  vec     : Nat := 0
  coal    : Nat := 0
  earlyWb : Bool := false
  cyclic  : Bool := false
  dir     : Bool := false
  dest    : Nat := 0
  cycM1   : Nat := 0
  prod    : Nat := 0
  cons    : Nat := 0
  /-- Fetch stopped at a descriptor with OWN = 0 (R130). -/
  notOwn  : Bool := false
  tagWait : Bool := false
  taken   : List Desc := []
  rxq     : List RxItem := []
  /-- Time of the last message, and whether one waits for the end of the gap (R135). -/
  msgAt   : Option Nat := none
  msgWait : Bool := false
  /-- No descriptor has been used since the ring started (R143). -/
  fresh   : Bool := true
  /-- A mailbox that MBX_RESET has reached: it fetches no more and returns to UNSET behind what it has fetched (R128). -/
  closing : Bool := false
  deriving DecidableEq, Repr, Inhabited

/-- What an outstanding host read is for. -/
inductive Use where
  /-- n descriptors of a ring. -/
  | desc (ring n : Nat)
  /-- Bytes off to off + len - 1 of the payload of the descriptor of count cnt. -/
  | pay (ring cnt off len : Nat)
  /-- Nothing any more: its ring has stopped, or its descriptor has been returned. -/
  | void
  deriving DecidableEq, Repr, Inhabited

/-- An outstanding host read (R115, R121). -/
structure Rd where
  tag    : Nat := 0
  fn     : Nat := 0
  epoch  : Nat := 0
  orphan : Bool := false
  use    : Use := .desc 0 0
  deriving DecidableEq, Repr, Inhabited

/-- A payload read that waits to be issued. -/
structure Want where
  ring : Nat := 0
  cnt  : Nat := 0
  off  : Nat := 0
  addr : Nat := 0
  len  : Nat := 0
  deriving DecidableEq, Repr, Inhabited

/-- A payload or audio write that waits: its function is not able to issue it (R125), or a request line paces its ring (R151). -/
structure OutW where
  ring    : Nat := 0
  fn      : Nat := 0
  addr    : Nat := 0
  bs      : Bytes := []
  relaxed : Bool := true
  deriving DecidableEq, Repr, Inhabited

/-- Pending requests of a PRQ line: the ring of each and the time of the request, oldest first (R151, R152); the map written
but not yet in force, and the requests raised since that write. -/
structure Prq where
  q     : List (Nat × Nat) := []
  map   : Option Nat := none
  later : List (Nat × Nat) := []
  deriving DecidableEq, Repr, Inhabited

/-- The host interface and the DMA engine beyond their registers. -/
structure HostIf where
  fns      : List Fn := List.replicate 16 {}
  rings    : List (Nat × Ring) := []
  reads    : List Rd := []
  wants    : List Want := []
  outq     : List OutW := []
  prq      : List Prq := List.replicate 16 {}
  /-- Map in force of each PRQ line. -/
  prqMap   : List Nat := (List.range 16).map fun k => 0x281 + k
  /-- Ring last served within each function's round-robin (R132), PRQ line last served (R152), function whose mailbox was
  served last (R147). -/
  rr       : List Nat := List.replicate 16 431
  prqLast  : Nat := 15
  mbxLast  : Nat := 15
  perstLow : Bool := true
  /-- PERST_N has been seen released while PD4 is powered (R107). -/
  released : Bool := false
  /-- Frames for which REFOUT has run (R107). -/
  refFr    : Nat := 0
  subsys   : Nat := 0x1F3C
  aspm     : Bool := true
  /-- PF0's base addresses, the VF BAR0/1 and the System Page Size of SR-IOV, Link Control: ASPM and Common Clock (R111). -/
  bar0     : Nat := 0
  bar2     : Nat := 0
  vfBar    : Nat := 0
  pageSz   : Nat := 1
  linkCtl  : Nat := 0
  commonCk : Bool := false
  nextId   : Nat := 1
  deriving DecidableEq, Repr, Inhabited

/-! ### Channels (chapter 07) -/

/-- What is on a channel's wire. -/
inductive WireKind where
  | express | pmac | pause | pfc | verify | respond
  deriving DecidableEq, Repr, Inhabited

/-- A frame on the wire: the frame, its kind, bytes of it sent in earlier mPackets, the delimiter of its first mPacket
(stamp) and of the present one, whether the Hearth was valid at the stamp (R41), the frame code of a preemptable frame and its
mPackets that have ended (R168). -/
structure Wire where
  kind   : WireKind := .express
  frm    : Frm := {}
  sent   : Nat := 0
  first  : Nat := 0
  start  : Nat := 0
  tsOk   : Bool := false
  code   : Fin 4 := 0
  frags  : Nat := 0
  deriving DecidableEq, Repr, Inhabited

/-- A preemptable frame in reassembly (R169): frame code, fragment count expected next, bytes, the receive stamp of its first
fragment and its validity (R163), the decision once 128 B are there (R180), the cells it holds and whether one was missing
(R160). -/
structure Asm where
  frame : Fin 4 := 0
  frag  : Fin 4 := 0
  data  : Bytes := []
  ts    : Nat := 0
  tsOk  : Bool := false
  dec   : Option Decision := none
  cells : List Nat := []
  ovf   : Bool := false
  deriving DecidableEq, Repr, Inhabited

/-- One copy of a gate engine (R194, R198). Times are era-extended. -/
structure GateCopy where
  st    : Nat := 0
  oper  : Option Nat := none
  pend  : Option Nat := none
  /-- The bank last operational, for the choice of the admin bank when the engine has forgotten it (R188, R382). -/
  last  : Option Nat := none
  /-- Start of the first cycle of the running list, or S while ARMED. -/
  start : Nat := 0
  /-- Swap time while SWAP_PENDING. -/
  swapT : Nat := 0
  /-- T was moved under R62. -/
  late  : Bool := false
  entry : Nat := 0
  /-- When the entry in progress ends. -/
  endT  : Nat := 0
  gates : Nat := 0xFF
  hold  : Bool := false
  cal   : Bool := false
  /-- The operational or pending list comes from a commit whose T has not arrived (R195). -/
  commit : Bool := false
  deriving DecidableEq, Repr, Inhabited

/-- A channel beyond its registers. -/
structure Chan where
  queues   : List (List Frm) := List.replicate 8 []
  cur      : Option Wire := none
  /-- The preempted frame that waits to be resumed (R168). -/
  pre      : Option Wire := none
  /-- Frames sent ahead of the queues: dying-gasp copies (R67, R186). -/
  expq     : List Frm := []
  /-- Ends of received pause times, priorities 0 to 7 and then PAUSE (R166); times of the last pause or PFC frame sent for
  classes 0 to 7 and then the link (R165). -/
  pauseT   : List Nat := List.replicate 9 0
  xoffT    : List Nat := List.replicate 9 0
  /-- Pause and PFC frames that wait for the wire: enable vector and time. -/
  ctlq     : List (WireKind × Nat × Nat) := []
  modIn    : Bool := false
  modFr    : Nat := 0
  /-- The module has been present for INSERT_FR frames (R157). -/
  modOk    : Bool := false
  /-- TXFLTn and LOSn as they stand at the pin; frame events at which TXFLTn has been asserted without a break (R157). -/
  txflt    : Bool := false
  los      : Bool := false
  fltFr    : Nat := 0
  /-- Frame events for which the PCS has held good state (R158). -/
  goodFr   : Option Nat := none
  /-- The preemptable frame in reassembly, and the frame code of an mPacket sequence that is counted and passed over
  (R159, R169). -/
  asm      : Option Asm := none
  asmSkip  : Option (Fin 4) := none
  /-- Pause asserted by the best-effort condition: classes 0 to 7 and, bit 8, the link (R228); classes whose own measure
  asserts PFC (R165). -/
  beOn     : Nat := 0
  pfcOwn   : Nat := 0
  /-- CLK (`Hearth.clk`) at which the verify timer expires (Table 7.3); frame code of the next preemptable frame (R168). -/
  verT     : Option Nat := none
  smd      : Fin 4 := 0
  /-- Verify or respond mPackets to send (Table 7.3). -/
  mpq      : List WireKind := []
  /-- Configuration read at STARTING: RATE, FEC, LOOP, FCS_STRIP (R155). -/
  rate     : Nat := 1
  fec      : Nat := 0
  /-- The FEC that the PCS uses: FEC_DOWN takes the place of FEC = 2 at 10G (R155). -/
  fecNow   : Nat := 0
  loop     : Nat := 0
  strip    : Bool := false
  /-- PTP stamp words that a TXTS0 read latches (R164). -/
  ptp      : List Nat := [0, 0, 0]
  /-- A fence waits for the wire to end (Table 18.4). -/
  fencing  : Bool := false
  /-- Era-extended time of LANE_UNLOCK (Table 18.3); frames since the lane's last recalibration (R230). -/
  unlockT  : Option Nat := none
  recalFr  : Nat := 0
  recal    : Bool := false
  /-- A forced recalibration waits for the frame on the wire (R230). -/
  recalDue : Bool := false
  /-- Gate engine copies, the commit in flight, and the time each class's gate last closed, in frames. -/
  ga       : GateCopy := {}
  gb       : GateCopy := {}
  gc       : GateCopy := {}
  closedFr : List (Option Nat) := List.replicate 8 none
  deriving DecidableEq, Repr, Inhabited

/-! ### Classifier, FRE and packet memory (chapters 08 to 10) -/

/-- A staging buffer (R182, R211): entry index, its words, whether words were written since the load. -/
structure Stage where
  idx   : Nat := 0
  held  : Bool := false
  dirty : Bool := false
  w     : List Nat := []
  deriving DecidableEq, Repr, Inhabited

/-- What the FRE keeps for a stream beyond its words: frame events since the last pass (R208), counts since the last
latent check (R210), the last slot and round stamped (Table 9.2), the value mirrored from the partner (R206). -/
structure Strm where
  idleFr : Nat := 0
  p      : Nat := 0
  dd     : Nat := 0
  lastGt : Option Nat := none
  mirror : Option Nat := none
  /-- A number has been stamped since the last frame event (R280). -/
  stamp  : Bool := false
  deriving DecidableEq, Repr, Inhabited

/-- The classifier and FRE beyond their registers and windows. -/
structure Tables where
  ex      : Stage := {}
  msk     : Stage := {}
  fre     : Stage := {}
  streams : List (Nat × Strm) := []
  /-- Superframe events since the last latent check (R209). -/
  latentN : Nat := 0
  deriving DecidableEq, Repr, Inhabited

/-- A cell that the Kennel purge frees (R120): the CLK (`Hearth.clk`) from which it is free, the function whose Kennel it is,
and whether a best-effort frame held it. -/
structure Purge where
  clk  : Nat := 0
  cell : Nat := 0
  fn   : Nat := 0
  be   : Bool := false
  deriving DecidableEq, Repr, Inhabited

/-- Packet memory beyond its registers. -/
structure Pmem where
  /-- Cells that the Kennel purge has still to free, in order: the CLK at which each is free (R120). -/
  purge    : List Purge := []
  /-- Cells poisoned (R217) and retired (R386). -/
  poison   : List Nat := []
  retired  : List Nat := []
  /-- Errors that stand in stored words (R217). -/
  upsets   : List Upset := []
  /-- Frames still held (by id) that PMC_ECC_DROP has counted (R218), and those of which a copy has been sent (R184). -/
  eccSeen  : List Nat := []
  sentIds  : List Nat := []
  /-- Credits in force and left (R221, R224). -/
  dmaCred  : Nat := 16384
  bgCred   : Nat := 16384
  dmaLeft  : Nat := 16384
  bgLeft   : Nat := 16384
  /-- Owed refreshes of the banks (R219). -/
  owed     : List Nat := [0, 0, 0, 0]
  /-- Start of the scrub pass, and its PASS_H (R220). -/
  passT    : Nat := 0
  passH    : Nat := 6
  /-- The cell at which the scrub stands, through self-refresh too (R220). -/
  scrubPos : Nat := 0
  beXoff   : Bool := false
  /-- Cell and word of the last 16 corrected errors of the scrub, and the worn cells not retired (R385, R386). -/
  wear     : List (Nat × Nat) := []
  worn     : List Nat := []
  deriving DecidableEq, Repr, Inhabited
/-! ### Pegline (chapters 11 and 12) -/

/-- A good copy of the slot in progress (R241). -/
structure PegCopy where
  w0   : Nat := 0
  data : Bytes := []
  /-- Era-extended time of its start delimiter or K27.7. -/
  ts   : Nat := 0
  deriving DecidableEq, Repr, Inhabited

/-- A frame or message in reassembly (R247, R251). -/
structure PegAsm where
  src  : Nat := 0
  flow : Nat := 0
  data : Bytes := []
  ts   : Nat := 0
  seq  : Nat := 0
  syn  : Bool := false
  path : Nat := 0
  deriving DecidableEq, Repr, Inhabited

/-- A message taken from a TX ring and not returned (R250). -/
structure PegMsg where
  ring : Nat := 0
  cnt  : Nat := 0
  dest : Nat := 0
  path : Nat := 3
  data : Bytes := []
  seq  : Nat := 0
  syn  : Bool := false
  /-- Bytes of the present transmission sent, transmissions made, repeats made. -/
  off  : Nat := 0
  txs  : Nat := 0
  reps : Nat := 0
  /-- Round index in which its LAST segment was sent. -/
  sent : Option Nat := none
  /-- The round in which a repeat may begin (R250). -/
  after : Nat := 0
  deriving DecidableEq, Repr, Inhabited

/-- A whole message that waits for its RX ring (R252), with its cells and the end of its stall budget once it found no
descriptor. -/
structure PegIn where
  ring  : Nat := 0
  node  : Nat := 0
  data  : Bytes := []
  seq   : Nat := 0
  path  : Nat := 0
  ts    : Nat := 0
  cells : List Nat := []
  stall : Option Nat := none
  /-- Its descriptor is filled, and bytes of it still wait to be written (R151): it is not yet delivered. -/
  wrote : Bool := false
  deriving DecidableEq, Repr, Inhabited

/-- Delay measurement on one port (R269, R270). -/
structure PegPort where
  seq    : Nat := 0
  sentAt : Nat := 0
  wait   : Bool := false
  rtts   : List Int := []
  deriving DecidableEq, Repr, Inhabited

/-- Pegline beyond its registers. -/
structure Peg where
  /-- Frames queued for flows, oldest first, with their flow; bytes of the head frame already sent, per flow. -/
  flowq    : List (Nat × Frm) := []
  segOff   : List (Nat × Nat) := []
  asm      : List PegAsm := []
  /-- Sources and flows of which a discarded frame's further segments are passed over (R247). -/
  skip     : List (Nat × Nat) := []
  oper     : Option Nat := none
  pend     : Option Nat := none
  last     : Option Nat := none
  swapT    : Nat := 0
  /-- Slots of the operational bank that a parity error has emptied (Table 18.5). -/
  badSlots : List Nat := []
  /-- The slot in progress, the frame at which its round began, whether this device sends in it, its copies. -/
  slot     : Nat := 0
  round    : Nat := 0
  active   : Bool := false
  sending  : Bool := false
  copyA    : Option PegCopy := none
  copyB    : Option PegCopy := none
  seenA    : Bool := false
  seenB    : Bool := false
  used     : Bool := false
  /-- Claim check (Table 11.6): paths read back matching, and a collision seen. -/
  clOk     : Nat := 0
  clBad    : Bool := false
  clFrame  : Bytes := []
  /-- Rounds since the last good frame in each slot (R255). -/
  silent   : List Nat := List.replicate 64 0
  /-- Spare claim (Table 11.6): 0 IDLE, 1 SEND, 2 CHECK, 3 WAIT; its slot and backoff in rounds. -/
  claim    : Nat := 0
  claimS   : Nat := 0
  backoff  : Nat := 0
  /-- Messages: next SEQ and SYN due per destination, messages held, accepted SEQ per sender, acknowledgements due. -/
  nextSeq  : List Nat := List.replicate 32 0
  synDue   : List Bool := List.replicate 32 true
  msgs     : List PegMsg := []
  msgAsm   : List PegAsm := []
  inbox    : List PegIn := []
  lastRx   : List (Option Nat) := List.replicate 32 none
  ackDue   : List Nat := []
  rrRing   : Nat := 0
  /-- Synchronisation: frames on the listen timer, first round of cold-start frames, deviations of this round and the
  last (SYNC rank, deviation), senders that carried REF, a response received, base and total rate. -/
  listenFr : Nat := 0
  csFrom   : Nat := 0
  /-- Offset values used in the last correction (Table 12.1, NVALS). -/
  sentN    : Nat := 0
  dev      : List (Nat × Int) := []
  prev     : List (Nat × Int) := []
  refs     : List Nat := []
  firstSrc : Option Nat := none
  resp     : Bool := false
  /-- Time at which a REF frame was last heard while listening (R263). -/
  refHeard : Option Nat := none
  /-- An integration waits for its load (R263). -/
  loading  : Bool := false
  base     : Int := 0
  total    : Int := 0
  ports    : List PegPort := [{}, {}]
  /-- Consecutive rounds in which the first node's frame was missing on A, on B, and arrived on both (R272). -/
  ringA    : Nat := 0
  ringB    : Nat := 0
  ringBoth : Nat := 0
  gotA     : Bool := false
  gotB     : Bool := false
  recalA   : Nat := 0
  recalB   : Nat := 0
  /-- Voice samples: taken in this round and the last, by Pegline voice channel; received for the next round and playing
  in this one; none is an erasure (R248). -/
  vTake    : List (Nat × Bytes) := []
  vSend    : List (Nat × Bytes) := []
  vNext    : List (Nat × List (Option Byte)) := []
  vPlay    : List (Nat × List (Option Byte)) := []
  deriving DecidableEq, Repr, Inhabited
/-! ### Leash (chapter 13) -/

/-- The Leash logic beyond its registers. -/
structure Leash where
  /-- Frame events since the own release or the eligibility start, of a low LSH_HOLD_IN, and since the partner's last
  renewal (R289). -/
  relEv    : Nat := 0
  lowEv    : Nat := 0
  renewEv  : Nat := 0
  /-- Frame events since a renewal was received, if one was (R293). -/
  renewAge : Option Nat := none
  /-- LSH_HOLD_IN has been low since the eligibility start; the lane has been up since then (R291). -/
  lowAll   : Bool := true
  everUp   : Bool := false
  peerRel  : Bool := false
  /-- Era-extended frame at which the backoff ends (R290). -/
  backoff  : Option Nat := none
  /-- Era-extended lease expiry. -/
  expiry   : Nat := 0
  /-- Frame events spent in CLAIMING. -/
  claimEv  : Nat := 0
  /-- The partner's last STATUS. -/
  pClaim   : Bool := false
  pElig    : Bool := false
  pNode    : Nat := 0
  /-- Frame events since the last good frame. -/
  goodFr   : Nat := 65535
  /-- Frame events of a high line without CLAIM or HOLDING (R293). -/
  highIdle : Nat := 0
  /-- SEQ counts of the three types, and the frames due: type and payload. -/
  seqTx    : List Nat := [0, 0, 0]
  txq      : List (Nat × Bytes) := []
  lastSt   : Bytes := []
  /-- Consecutive STATE frames that did not match (R294). -/
  cfgBad   : Nat := 0
  roleBad  : Nat := 0
  /-- LSH_HOLD_IN fell during Bivouac (R295). -/
  bivFall  : Bool := false
  /-- renew_ok as decided at the last STATUS due event (R285). -/
  renew    : Bool := false
  /-- The lane's recalibration (R230, R276): frame events since the last one or since power-up, one due behind the frames of a
  superframe event, and the era-extended end of one in progress. -/
  recalFr  : Nat := 0
  recalDue : Bool := false
  recalTo  : Nat := 0
  deriving DecidableEq, Repr, Inhabited

/-! ### Voice ports and the speaker (chapter 14) -/

/-- A sample: its linear value, left-justified in 32 bits, and the G.711 code it came as (law 0 linear, 1 A-law,
2 µ-law), which passes unchanged where no gain acts on it (R302, R305). -/
structure Smp where
  x    : Int := 0
  law  : Nat := 0
  code : Nat := 0
  deriving DecidableEq, Repr, Inhabited

/-- A consumer of Pegline voice (R308): the round it is in, consecutive erased rounds, the codes handed over for this
round, those of the last good round, and the law they follow. -/
structure Era where
  rd   : Option Nat := none
  er   : Nat := 0
  cur  : List Nat := []
  good : List Nat := []
  law  : Nat := 1
  deriving DecidableEq, Repr, Inhabited

/-- A sample staged in a channel's cell: its bytes, the count and PASS of the descriptor whose first sample it is, and
the time of its tick (input). -/
structure Staged where
  bs   : Bytes := []
  mark : Option (Nat × Nat) := none
  t    : Nat := 0
  deriving DecidableEq, Repr, Inhabited

/-- An audio channel beyond its map register (R301 to R312). -/
structure AudCh where
  /-- The map read at STARTING. -/
  map  : Nat := 0
  /-- Gain gPos / gLen; the FADE field of the map says which way it moves. -/
  gPos : Nat := 0
  gLen : Nat := 1
  cell : List Staged := []
  /-- The last linear sample. -/
  last : Int := 0
  /-- A partial frame's fade runs; underrun or overrun has been entered. -/
  dip  : Bool := false
  xrun : Bool := false
  /-- START_T, era-extended, until the first sample has passed (R304). -/
  hold : Option Nat := none
  era  : Era := {}
  /-- Time since which a burst has been needed (R303). -/
  need : Option Nat := none
  deriving DecidableEq, Repr, Inhabited

/-- A port beyond its registers (R297 to R311). A frame of the slip buffers is one 32-bit left-justified word per slot;
in the input buffer none stands for a damaged IEC frame in GUARDED mode. -/
structure SapPort where
  /-- SAPp_CTRL and SAPp_FMT as read at STARTING. -/
  ctrl   : Nat := 0
  fmt    : Nat := 0
  /-- Index of the last tick. -/
  tick   : Nat := 0
  outQ   : List (List Nat) := []
  outLast : List Nat := []
  inQ    : List (Option (List Nat)) := []
  inLast : Option (List Nat) := none
  /-- The last frame written to the input buffer (R307). -/
  inPrev : List Nat := []
  /-- Bits of the present frame, by the port's own counters, that have been sent or received: count and value. -/
  txRest : Nat × Nat := (0, 0)
  rxRest : Nat × Nat := (0, 0)
  /-- IEC 60958: transmit frame of the block and status latched at its start; status bits received in this block. -/
  txIdx  : Nat := 0
  csTx   : Bytes := []
  csA    : List Bool := []
  csB    : List Bool := []
  deriving DecidableEq, Repr, Inhabited

/-- The voice ports. -/
structure Sap where
  outs  : List AudCh := List.replicate 64 {}
  ins   : List AudCh := List.replicate 64 {}
  ports : List SapPort := List.replicate 8 {}
  /-- A step into Bivouac is announced: every channel fades out (R313). -/
  biv   : Bool := false
  /-- SAP_VOICE_LAW.LAW as it stood at the last round event (R308). -/
  law   : Bool := false
  deriving DecidableEq, Repr, Inhabited

/-- The service speaker beyond its registers (R314 to R317, R406). -/
structure Spk where
  /-- Frame events since the present state or wait began. -/
  fr    : Nat := 0
  /-- Gain at which the ramp began. -/
  gN    : Nat := 0
  gD    : Nat := 1
  /-- Ramp length in frames. -/
  rLen  : Nat := 80
  /-- VOL gain: from, to, and the position of its ramp in ticks (units of 2^-24). -/
  vFrom : Nat := 0
  vTo   : Nat := 0
  vPos  : Nat := 0
  vLen  : Nat := 0
  /-- SPK_CFG.RATE as read at STARTING, and the index of the last tick. -/
  rate  : Nat := 2
  tick  : Nat := 0
  /-- VSPK is below its threshold. -/
  low   : Bool := false
  /-- Clean play has been reported since the ramp completed. -/
  clean : Bool := false
  deriving DecidableEq, Repr, Inhabited

/-! ### The lifeline bridge (chapter 15) -/

/-- A bridge channel beyond its template, registers and counters. -/
structure LlbCh where
  act    : Bool := false
  /-- The next packet carries the marker bit (R323). -/
  mark   : Bool := true
  /-- First round of the last packet built, and of the packet in build when the channel was stopped (R331). -/
  lastR  : Option Nat := none
  build  : Option Nat := none
  /-- Samples to send: era-extended frame and code. -/
  tx     : List (Nat × Nat) := []
  /-- Pegline voice consumed (R322), with the place in its ramp-in. -/
  era    : Era := {}
  eraUp  : Option Nat := none
  /-- Receive: learned SSRC, last accepted numbers, consecutive LATE or EARLY packets, anchor (timestamp, frame). -/
  ssrc   : Option Nat := none
  seqs   : List Nat := []
  off    : Nat := 0
  anchor : Option (Nat × Nat) := none
  /-- Play-out: codes by frame, the last good packet, samples concealed since one arrived in time, ramp-in position. -/
  buf    : List (Nat × Nat) := []
  good   : List Nat := []
  conc   : Option Nat := none
  ramp   : Option Nat := none
  /-- Fade of 16 samples after the channel ceased to be active. -/
  fade   : Option Nat := none
  play   : Smp := {}
  /-- Rounds since the last good packet, and whether the channel is silent (R328). -/
  quiet  : Nat := 0
  silent : Bool := false
  /-- A start that waits for VCH_TX has raised CONFLICT (R322). -/
  conf   : Bool := false
  deriving DecidableEq, Repr, Inhabited

/-- An event with copies still to send (R330). -/
structure LlbEv where
  body : Bytes := []
  copy : Nat := 0
  left : Nat := 0
  due  : Nat := 0
  deriving DecidableEq, Repr, Inhabited

structure Llb where
  chs : List LlbCh := List.replicate 16 {}
  evq : List LlbEv := []
  deriving DecidableEq, Repr, Inhabited

/-! ### Compression (chapter 16) -/

/-- A context (R335, Table 16.4). `bits` holds the undecoded input bits, oldest first, trailer bytes among them; `win` the
history, newest last. -/
structure CmpCtx where
  st      : Nat := 0
  wrap    : Nat := 0
  tin     : Nat := 0
  tout    : Nat := 0
  check   : Nat := 0
  win     : Bytes := []
  winPos  : Nat := 0
  phase   : Nat := 0
  bfinal  : Bool := false
  btype   : Nat := 0
  bits    : List Bool := []
  copyLen : Nat := 0
  copyDist : Nat := 0
  lens    : List Nat := []
  deriving DecidableEq, Repr, Inhabited

/-- The running job (R334 to R342): its descriptor's fields, input asked for, arrived and not yet consumed, counts, output
bits that do not fill a byte, why it must stop (0 Kennel, 1 tier, 2 disable), the status with which it ends, and the counts at
its last block boundary. -/
structure CmpJob where
  ring   : Nat := 0
  cnt    : Nat := 0
  fn     : Nat := 0
  op     : Nat := 0
  wrap   : Nat := 0
  first  : Bool := false
  last   : Bool := false
  src    : Nat := 0
  srcLen : Nat := 0
  dst    : Nat := 0
  dstLen : Nat := 0
  asked  : Nat := 0
  pieces : List (Nat × Bytes) := []
  have_  : Nat := 0
  inp    : Bytes := []
  used   : Nat := 0
  made   : Nat := 0
  blocks : Nat := 0
  vf     : Bool := false
  strEnd : Bool := false
  obits  : List Bool := []
  stop   : Option Nat := none
  fin    : Option Nat := none
  bUsed  : Nat := 0
  bMade  : Nat := 0
  deriving DecidableEq, Repr, Inhabited

/-- The compression engine: 16 contexts, the running job, the ring last served. -/
structure Cmp where
  ctx  : List CmpCtx := List.replicate 16 {}
  job  : Option CmpJob := none
  last : Nat := 399
  deriving DecidableEq, Repr, Inhabited

/-! ### Field interfaces (chapter 17) -/

/-- Who asked for a Guyline transaction: software, an automatic search, a reading of record i (0 rated, 1 copy A, 2 copy B),
the life-record write, a sag check. -/
inductive GlWho where
  | soft | search | record (i : Nat) | life | check
  deriving DecidableEq, Repr, Inhabited

/-- A Guyline transaction (R350, R351): its owner and kind, attempts made beyond the first, start of the present attempt,
whether it waits for a backoff and how long in frames, or for the line to have been high for 1 ms, abandoned passes in a row,
what a WRITE writes, the bytes sent after the reset, FN and ADDR, how many bytes are read back, and for an incremental search
last and prev at its start. -/
structure Gl where
  who   : GlWho := .soft
  op    : Nat := 0
  tries : Nat := 0
  start : Nat := 0
  wait  : Option Nat := none
  idle  : Bool := false
  aband : Nat := 0
  data  : Bytes := []
  bs    : Bytes := []
  head  : Bytes := []
  rd    : Nat := 0
  from_ : Option (Nat × Nat) := none
  deriving DecidableEq, Repr, Inhabited

/-- One alarm input (R364 to R366). -/
structure Gpi where
  prev   : Bool := false
  deb    : Bool := false
  stable : Nat := 0
  edges  : Nat := 0
  last   : Nat := 0
  storm  : Bool := false
  /-- Era-extended frame in which it became active. -/
  act    : Option Nat := none
  deriving DecidableEq, Repr, Inhabited

/-- The sag test beyond its registers (R361, R362): frames in the present state, sums and counts of the frame in progress
and of the last 8 frames (cell in µV, feed in µA), V0 and I0, the first 8 frames of LOAD, VB, low samples, failed checks, and
frames since the last check. -/
structure Sag where
  fr    : Nat := 0
  cur   : Nat × Nat := (0, 0)
  curI  : Nat × Nat := (0, 0)
  hist  : List (Nat × Nat) := []
  histI : List (Nat × Nat) := []
  v0    : Nat := 0
  i0    : Nat := 0
  va    : Nat × Nat := (0, 0)
  vb    : Nat := 0
  low   : Nat := 0
  fails : Nat := 0
  chk   : Nat := 0
  deriving DecidableEq, Repr, Inhabited

/-- What overrides the pins (R374). -/
inductive TapMode where
  | none | boundary | highz
  deriving DecidableEq, Repr, Inhabited

/-- The field block beyond its registers. -/
structure Fld where
  /-- Guyline: the transaction on the line, a search that gives way between passes, transactions that wait. -/
  gl     : Option Gl := none
  held   : Option Gl := none
  glq    : List GlWho := []
  /-- Since when the line has been high, in era-extended mt, as far as this device's own use tells (R350). -/
  glUp   : Nat := 0
  /-- The identity of the last pass (R354). -/
  prev   : Nat := 0
  /-- Frames left until each automatic search, and the frame in which the records are read after a take (R353). -/
  autoIn : List Nat := []
  recIn  : Option Nat := none
  /-- The records read so far (R357), the copy taken and its SEQ, whether the rated record is good. -/
  recs   : List (Option Bytes) := []
  takenB : Bool := true
  seq    : Option Nat := none
  ratedOk : Bool := false
  /-- CYC_PEND as added to the life record on its way. -/
  cycIn  : Nat := 0
  sag    : Sag := {}
  gpis   : List Gpi := List.replicate 16 {}
  /-- Levels of GPI0 to GPI15 as last sampled. -/
  gpiIn  : Nat := 0
  /-- SMBus REG_ADDR (R370). -/
  smbReg : Nat := 0
  /-- Levels of SMB_ADDR1 and SMB_ADDR0 (bits 1 and 0), strapped on the board: no command drives them (R369). -/
  smbPins : BitVec 2 := 0
  /-- TAP instruction and what it does to the pins. -/
  tap    : TapMode := .none
  deriving DecidableEq, Repr, Inhabited
/-! ### The Sheepdog (chapter 18) -/

/-- The Sheepdog beyond its registers; the buckets stand in SHD_PEN (R378). -/
structure Shd where
  /-- Superframe indices of the last decay step and the last loopback start; the lane tested last; the frame in which the
  running test began (R376, R377). -/
  decayed : Option Nat := none
  tested  : Option Nat := none
  turn    : Nat := 3
  testFr  : Nat := 0
  /-- LIFT written per channel, and whether a frame event has come since (R382). -/
  lift    : List Bool := [false, false, false, false]
  armed   : List Bool := [false, false, false, false]
  /-- Frame events of a channel ON with its link down; of Pegline out of sync (Table 18.2). -/
  downFr  : List Nat := [0, 0, 0, 0]
  noSync  : Nat := 0
  /-- The score has been computed since the last BOOT_DONE (R379). -/
  fresh   : Bool := true
  /-- Since the last TAKE: parity errors, lowest score, superframes below MIN (R391). -/
  errs    : Nat := 0
  minScore : Nat := 255
  lowSf   : Nat := 0
  deriving DecidableEq, Repr, Inhabited


/-- The device: its 32-bit registers by address (a register not listed holds its reset word), the retention memory, what the
last command sent out, the index of the next free value, and each block's own state. -/
structure Dev where
  regs : List (Nat × Word) := []
  /-- What words of a domain that is off went on showing when its functions stopped (R58). -/
  frozen : List (Nat × Word) := []
  /-- The high halves of register pairs as the last read of the low half latched them, by the offset of the high half
  (R53); a pair not listed has latched 0. -/
  latch : List (Nat × Word) := []
  sram : List (Nat × Word) := []
  outs : List Out := []
  freeIx : Nat := 0
  hearth : Hearth := {}
  rat : Rat := {}
  boot : Boot := {}
  host : HostIf := {}
  chan : List Chan := List.replicate 4 {}
  tab : Tables := {}
  pm : Pmem := {}
  peg : Peg := {}
  lsh : Leash := {}
  sap : Sap := {}
  spk : Spk := {}
  llb : Llb := {}
  cmp : Cmp := {}
  fld : Fld := {}
  shd : Shd := {}
  deriving DecidableEq, Repr, Inhabited

/-- The block: the device, and the commands that wait, first in, first out. -/
structure State where
  dev     : Dev := {}
  pending : List Instr := []
  deriving DecidableEq, Repr, Inhabited

/-- Faults: none. The spec gives every command an effect, so nothing raises a fault (safe: nothing is hidden behind one). -/
inductive Fault where
  deriving DecidableEq, Repr

/-- Refusals. -/
inductive Refusal where
  /-- The dispatcher raises it for a command without a meaning: none is left. Safe. -/
  | notModelled (mnemonic : String)
  deriving DecidableEq, Repr

/-- The part before power is good: every register at its reset value (Table 19.2), every domain off, no command waiting. -/
def State.reset : State := {}

end Sys2Proof.Machine
end

