-- ==== Sys2Proof/Machine/Ops.lean ====
section
/-!
DEFINITION. Machine/Ops.lean: the named operations over registers, tables, retention SRAM, counters, events, free values
and outputs that every family uses.
-/

namespace Sys2Proof.Machine

/-! ### Sparse files -/

/-- The value of key k in a sparse file whose unlisted entries read as dflt. -/
def cellRead {α : Type} (dflt : Nat → α) : List (Nat × α) → Nat → α
  | [], k => dflt k
  | (a, v) :: m, k => if k = a then v else cellRead dflt m k

/-- The file without key k. -/
def cellDrop {α : Type} : List (Nat × α) → Nat → List (Nat × α)
  | [], _ => []
  | (a, w) :: m, k => if k = a then cellDrop m k else (a, w) :: cellDrop m k

/-- Put v at key k, which the file does not hold, before the first key above k. -/
def cellPut {α : Type} : List (Nat × α) → Nat → α → List (Nat × α)
  | [], k, v => [(k, v)]
  | (a, w) :: m, k, v => if k < a then (k, v) :: (a, w) :: m else (a, w) :: cellPut m k v

/-- Write v at key k, keeping keys rising and listing no entry equal to its default. -/
def cellWrite {α : Type} [DecidableEq α] (dflt : Nat → α) (m : List (Nat × α)) (k : Nat) (v : α) : List (Nat × α) :=
  if v = dflt k then cellDrop m k else cellPut (cellDrop m k) k v

/-- Every key of the file lies above k. -/
def cellsAbove {α : Type} (k : Nat) : List (Nat × α) → Bool
  | [] => true
  | (a, _) :: m => decide (k < a) && cellsAbove k m

/-- The canonical form: keys strictly rising, no entry equal to what an unlisted key reads as. -/
def cellsWf {α : Type} [DecidableEq α] (dflt : Nat → α) : List (Nat × α) → Bool
  | [] => true
  | (a, v) :: m => decide (v ≠ dflt a) && cellsAbove a m && cellsWf dflt m

/-! ### Registers -/

/-- The reset word at offset o: the composed reset values of its row, with those that differ inside an array
(Table 19.2: HIF_FN0, DMA_PRQ_MAP) and the die identity; 0 in the table windows and at reserved offsets (R392, R395). -/
def resetWord (o : Nat) : Word :=
  if 0x200000 ≤ o then 0
  else if o = 0x14100 then 0x00800000#32
  else if o = 0x14104 then 0x40004000#32
  else if o = 0x14108 then 0x00100100#32
  else if 0x18040 ≤ o ∧ o < 0x18080 then BitVec.ofNat 32 (0x281 + (o - 0x18040) / 4)
  else if o = 0xC then Config.dieId.setWidth 32
  else if o = 0x10 then (Config.dieId >>> 32).setWidth 32
  else match rowAt o with
    | some r => BitVec.ofNat 32 r.resetVal
    | none => 0

/-- The word of PF0 BAR0 at byte offset o as the part holds it. -/
def Dev.word (d : Dev) (o : Nat) : Nat := (cellRead resetWord d.regs o).toNat

/-- Set the word at offset o. -/
def Dev.setWord (d : Dev) (o v : Nat) : Dev := { d with regs := cellWrite resetWord d.regs o (BitVec.ofNat 32 v) }

/-- The bits lo to lo + w - 1 of x. -/
def bits (x lo w : Nat) : Nat := x / 2 ^ lo % 2 ^ w

/-- x with its bits lo to lo + w - 1 replaced by the low bits of v. -/
def setBits (x lo w v : Nat) : Nat := x % 2 ^ lo + (v % 2 ^ w) * 2 ^ lo + x / 2 ^ (lo + w) * 2 ^ (lo + w)

/-- The value of a field. -/
def Dev.rd (d : Dev) (f : Field) : Nat := bits (d.word f.off) f.lo f.w

/-- Fields that share no bit. -/
def Field.apart (f g : Field) : Bool :=
  g.off != f.off || (decide (g.lo + g.w ≤ 32) && (decide (g.lo + g.w ≤ f.lo) || decide (f.lo + f.w ≤ g.lo)))

/-- Set a field; the other bits of its register stand. -/
def Dev.wr (d : Dev) (f : Field) (v : Nat) : Dev := d.setWord f.off (setBits (d.word f.off) f.lo f.w v)

/-- A field of one bit is 1. -/
def Dev.on (d : Dev) (f : Field) : Bool := d.rd f != 0

/-- Set a one-bit field from a truth value. -/
def Dev.wrB (d : Dev) (f : Field) (b : Bool) : Dev := d.wr f (if b then 1 else 0)

/-- The domain that holds the register at o (Table 19.1). -/
def domOf (o : Nat) : Nat :=
  match o / 0x4000 with
  | 0 | 1 | 2 | 3 | 4 | 20 | 28 | 29 | 30 | 31 => 0
  | 5 => 4
  | 16 | 17 => 2
  | 22 | 23 | 24 => 5
  | 26 | 27 => 6
  | _ => 1

/-- Raise an event: set its W1C bit (Table 0.2). -/
def Dev.ev (d : Dev) (f : Field) : Dev := d.wr f 1

/-- Raise an event when c holds. -/
def Dev.evIf (d : Dev) (c : Bool) (f : Field) : Dev := if c then d.ev f else d

/-- Add n to a saturating counter (R7). -/
def Dev.sat (d : Dev) (f : Field) (n : Nat := 1) : Dev := d.wr f (min (d.rd f + n) (2 ^ f.w - 1))

/-- Add n to a wrapping counter (R7). -/
def Dev.wrap (d : Dev) (f : Field) (n : Nat := 1) : Dev := d.wr f (d.rd f + n)

/-- Apply an operation when c holds. -/
def Dev.when (d : Dev) (c : Bool) (f : Dev → Dev) : Dev := if c then f d else d

/-- Bit n of x. -/
def bit (x n : Nat) : Bool := x / 2 ^ n % 2 == 1

/-- x with bit n set to b. -/
def putBit (x n : Nat) (b : Bool) : Nat := setBits x n 1 (if b then 1 else 0)

/-- Bit n of a field. -/
def Dev.bitOf (d : Dev) (f : Field) (n : Nat) : Bool := bit (d.rd f) n

/-- Set bit n of a field. -/
def Dev.putBitOf (d : Dev) (f : Field) (n : Nat) (b : Bool) : Dev := d.wr f (putBit (d.rd f) n b)

/-- The signed value of the low w bits of x. -/
def sgn (w x : Nat) : Int := if x % 2 ^ w < 2 ^ (w - 1) then (x % 2 ^ w : Nat) else ((x % 2 ^ w : Nat) : Int) - 2 ^ w

/-- The low w bits of an integer, in two's complement. -/
def uns (w : Nat) (x : Int) : Nat := (x % 2 ^ w).toNat

/-- x limited to lo to hi. -/
def clampI (x lo hi : Int) : Int := max lo (min hi x)

/-- Apply an operation n times, for i = 0 to n - 1. -/
def forN (n : Nat) (f : Nat → Dev → Dev) (d : Dev) : Dev := (List.range n).foldl (fun d i => f i d) d

/-- A truth value as a bit. -/
def b2n (b : Bool) : Nat := if b then 1 else 0

/-! ### Free values and outputs -/

/-- Take the next free value (assumption log 3). -/
def Dev.draw (d : Dev) : Nat × Dev := (Config.free d.freeIx, { d with freeIx := d.freeIx + 1 })

/-- Append an output of the part. -/
def Dev.emit (d : Dev) (o : Out) : Dev := { d with outs := d.outs ++ [o] }

/-! ### Bytes -/

/-- n as k bytes, the least significant first (R15, R18). -/
def leBytes : Nat → Nat → Bytes
  | 0, _ => []
  | k + 1, n => BitVec.ofNat 8 n :: leBytes k (n / 256)

/-- n as k bytes, the most significant first (R16). -/
def beBytes (k n : Nat) : Bytes := (leBytes k n).reverse

/-- The number that bytes spell, the least significant first. -/
def leNat : Bytes → Nat
  | [] => 0
  | b :: bs => b.toNat + 256 * leNat bs

/-- The number that bytes spell, the most significant first. -/
def beNat (bs : Bytes) : Nat := bs.foldl (fun a b => a * 256 + b.toNat) 0

/-- Bytes o to o + n - 1. -/
def slice (bs : Bytes) (o n : Nat) : Bytes := (bs.drop o).take n

/-- The byte at o, 0 beyond the end. -/
def byteAt (bs : Bytes) (o : Nat) : Nat := ((bs.drop o).headD 0).toNat

/-- bs with the bytes from o on replaced by new. -/
def patch (bs : Bytes) (o : Nat) (new : Bytes) : Bytes := bs.take o ++ new ++ bs.drop (o + new.length)

/-! ### Check words -/

/-- One byte of the reflected CRC-32 of IEEE 802.3 (R93). -/
def crc32Byte (c : Nat) (b : Byte) : Nat :=
  (List.range 8).foldl (fun c _ => if c % 2 = 1 then (c / 2) ^^^ 0xEDB88320 else c / 2) (c ^^^ b.toNat)

/-- The CRC-32 of IEEE 802.3: reflected, initial value and final XOR all ones (R93). -/
def crc32 (bs : Bytes) : Nat := (bs.foldl crc32Byte 0xFFFFFFFF) ^^^ 0xFFFFFFFF

/-- One byte of the CRC-16 with polynomial 0x1021, most significant bit first (R171). -/
def crc16Byte (c : Nat) (b : Byte) : Nat :=
  (List.range 8).foldl (fun c _ => if c / 0x8000 % 2 = 1 then ((c * 2) % 0x10000) ^^^ 0x1021 else (c * 2) % 0x10000)
    (c ^^^ (b.toNat * 256))

/-- The CRC-16 of R171: polynomial 0x1021, initial value 0xFFFF. -/
def crc16 (bs : Bytes) : Nat := bs.foldl crc16Byte 0xFFFF

/-! ### Time -/

/-- Motes in a frame (R12). -/
def frMt : Nat := 1048576

/-- CLK in a frame (R26). -/
def frClk : Nat := 65536

/-- The voted Hearth time as HT64 (R40): the copies agree between commands, so copy A. -/
def Dev.now (d : Dev) : Nat := d.hearth.a.t

/-- The voted frame count. -/
def Dev.frame (d : Dev) : Nat := d.now / frMt

/-- The era-extended voted time in mt (R37). -/
def Dev.nowExt (d : Dev) : Nat := d.hearth.a.era * 2 ^ 64 + d.now

/-- The era-extended frame count (R37). -/
def Dev.frameExt (d : Dev) : Nat := d.nowExt / frMt

/-- The Hearth is usable (R41). -/
def Dev.valid (d : Dev) : Bool := d.on HRT_STATUS.VALID

/-! ### Refused accesses -/

/-- Where an access comes from (GLB_BADWR_INFO.SRC, R394): PCIe to PF0, PCIe to a VF aperture, SMBus, image record. -/
def srcCode : BusSrc → Nat
  | .pcie => 0 | .vf _ => 1 | .smbus => 2 | .image => 3

/-- The function of an access, for PCIe. -/
def srcFn : BusSrc → Nat
  | .vf f => f | _ => 0

/-- Count a refused access and describe it (R394). -/
def badWr (src : BusSrc) (off : Nat) (d : Dev) : Dev :=
  ((d.sat GLB_BADWR.COUNT).wr GLB_BADWR_INFO.OFFSET off).wr GLB_BADWR_INFO.SRC (srcCode src) |>.wr GLB_BADWR_INFO.FN (srcFn src)

/-! ### Domains, tier and boot -/

/-- Domain PDn is powered. -/
def Dev.pd (d : Dev) (n : Nat) : Bool := d.bitOf RAT_DOM_STATUS.PD_ON n

/-- The Ration controller's status word: RAT_STATUS, but for the time from a cold or warm reset to the end of its boot, in
which the register reads its reset value (R79). -/
def Dev.ratWord (d : Dev) : Nat := d.rat.shadow.getD (d.word RAT_STATUS.addr)

/-- A field of the controller's status. -/
def Dev.ratGet (d : Dev) (f : Field) : Nat := bits d.ratWord f.lo f.w

/-- The field is not 0. -/
def Dev.ratOn (d : Dev) (f : Field) : Bool := d.ratGet f != 0

/-- Write a field of the controller's status. -/
def Dev.ratPut (d : Dev) (f : Field) (v : Nat) : Dev :=
  match d.rat.shadow with
  | some w => { d with rat := { d.rat with shadow := some (setBits w f.lo f.w v) } }
  | none => d.wr f v

/-- The tier in force. -/
def Dev.tier (d : Dev) : Nat := d.ratGet RAT_STATUS.TIER

/-- The sequencer is in RUN or HOLD: BOOT_DONE has been raised (Table 4.4). -/
def Dev.booted (d : Dev) : Bool := d.rd RST_BOOT_STATUS.STATE == 10 || d.rd RST_BOOT_STATUS.STATE == 9

/-- The sequencer is in RUN: outputs follow the registers (R102). -/
def Dev.run (d : Dev) : Bool := d.rd RST_BOOT_STATUS.STATE == 10

/-! ### Health penalties (R378) -/

/-- The penalty of health contributor k (SHD_PEN), and its weight. -/
def Dev.pen (d : Dev) (k : Nat) : Nat := bits (d.rd (SHD_PENj.PEN (k / 4))) (8 * (k % 4)) 8
def Dev.weight (d : Dev) (k : Nat) : Nat := bits (d.word (SHD_WT0.addr + 4 * (k / 4))) (8 * (k % 4)) 8

/-- Set the penalty of contributor k. -/
def setPen (k v : Nat) (d : Dev) : Dev :=
  let f := SHD_PENj.PEN (k / 4)
  d.wr f (setBits (d.rd f) (8 * (k % 4)) 8 v)

/-- An event of contributor k (11 to 19) fills its bucket, while the Sheepdog runs. -/
def penalty (k : Nat) (d : Dev) : Dev := if d.pd 1 then setPen k (min 255 (d.pen k + d.weight k)) d else d

/-! ### Run states (Table 4.10) -/

/-- Enable written 1, with the domain on or off. -/
def runEnable (domOn : Bool) (r : Nat) : Nat :=
  match r with
  | 0 => if domOn then 1 else 0
  | 3 => 4
  | r => r

/-- Enable written 0. -/
def runDisable (r : Nat) : Nat :=
  match r with
  | 1 | 2 | 4 => 3
  | r => r

/-- Quiescence reached. -/
def runQuiet (r : Nat) : Nat :=
  match r with
  | 3 => 0
  | 4 => 1
  | r => r

/-- Start complete. -/
def runStart (r : Nat) : Nat := if r = 1 then 2 else r

/-- LIMIT for a percentage (PMC_ADMIT_LIMIT). -/
def admitLimit (pct : Nat) : Nat := 253952 * pct / 100

end Sys2Proof.Machine
end

