-- ==== Sys2Proof/Machine/ImageOps.lean ====
section
/-!
DEFINITION. Machine/ImageOps.lean: the configuration image: SHA-256 and HMAC, header, records, the slot checks of
Table 4.9 (spec/04_reset_boot_and_the_configuration_image.md, R91 to R96, R99).
-/

namespace Sys2Proof.Machine

/-! ### HMAC-SHA-256 (R94: FIPS 198-1 with SHA-256) -/

/-- The primes below 312, the first 64. -/
def shaPrimes : List Nat :=
  (List.range 312).filter fun p => decide (2 ≤ p) && (List.range 18).all fun q => decide (q < 2) || p == q || p % q != 0

/-- The largest r + s, s below 2^b, whose power e is at most x. -/
def rootFrom (e x : Nat) : Nat → Nat → Nat
  | 0, r => r
  | b + 1, r => rootFrom e x b (if (r + 2 ^ b) ^ e ≤ x then r + 2 ^ b else r)

/-- The first 32 bits of the fractional part of the root e of n (FIPS 180-4: how the standard makes its constants). -/
def rootFrac (e n : Nat) : Nat := rootFrom e (n * 2 ^ (32 * e)) 37 0 % 2 ^ 32

/-- The exclusive or of x turned right by p, turned right by q, and turned by r or, where `s`, shifted right by r. -/
def shaMix (p q r : Nat) (s : Bool) (x : BitVec 32) : BitVec 32 :=
  x.rotateRight p ^^^ x.rotateRight q ^^^ if s then x >>> r else x.rotateRight r

/-- The schedule word that comes after the sixteen at hand, and the window moved on by one. -/
def shaNext (win : List (BitVec 32)) : List (BitVec 32) :=
  win.drop 1 ++ [win.getD 0 0 + shaMix 7 18 3 true (win.getD 1 0) + win.getD 9 0 + shaMix 17 19 10 true (win.getD 14 0)]

/-- One round: the working words, the newest first, with the round's constant added to its schedule word. -/
def shaRound (v : List (BitVec 32)) (kw : BitVec 32) : List (BitVec 32) :=
  let x (i : Nat) : BitVec 32 := v.getD i 0
  let pick := x 6 ^^^ (x 4 &&& (x 5 ^^^ x 6))
  let most := (x 0 &&& (x 1 ||| x 2)) ||| (x 1 &&& x 2)
  let new := x 7 + shaMix 6 11 25 false (x 4) + pick + kw
  (new + shaMix 2 13 22 false (x 0) + most) :: v.take 3 ++ (x 3 + new) :: (v.drop 4).take 3

/-- The rounds, one for each constant, over the window of sixteen schedule words. -/
def shaRounds : List Nat → List (BitVec 32) → List (BitVec 32) → List (BitVec 32)
  | [], _, v => v
  | k :: ks, win, v => shaRounds ks (shaNext win) (shaRound v (win.getD 0 0 + BitVec.ofNat 32 k))

/-- One 64-byte block. -/
def shaBlock (v : List (BitVec 32)) (blk : Bytes) : List (BitVec 32) :=
  let win := (List.range 16).map fun k => BitVec.ofNat 32 (beNat (slice blk (4 * k) 4))
  List.zipWith (· + ·) v (shaRounds (shaPrimes.map (rootFrac 3)) win v)

/-- Blocks of k bytes, n of them. -/
def chunks (k : Nat) : Nat → Bytes → List Bytes
  | 0, _ => []
  | n + 1, bs => bs.take k :: chunks k n (bs.drop k)

/-- SHA-256. -/
def sha256 (m : Bytes) : Bytes :=
  let len := m.length
  let pad := (119 - len % 64) % 64
  let msg := m ++ [0x80] ++ List.replicate pad 0 ++ beBytes 8 (8 * len)
  let start := (shaPrimes.take 8).map fun p => BitVec.ofNat 32 (rootFrac 2 p)
  ((chunks 64 (msg.length / 64) msg).foldl shaBlock start).flatMap fun w => beBytes 4 w.toNat

/-- HMAC-SHA-256 with a key of at most 64 bytes. -/
def hmac (key m : Bytes) : Bytes :=
  let k := key ++ List.replicate (64 - key.length) 0
  sha256 (k.map (· ^^^ 0x5c) ++ sha256 (k.map (· ^^^ 0x36) ++ m))

/-! ### Header (R91) -/

/-- A little-endian u32 at offset o. -/
def u32 (bs : Bytes) (o : Nat) : Nat := leNat (slice bs o 4)

/-- A little-endian u16 at offset o. -/
def u16 (bs : Bytes) (o : Nat) : Nat := leNat (slice bs o 2)

/-- BODY_LEN. -/
def imgBody (bs : Bytes) : Nat := u32 bs 0x0C

/-- TAGGED. -/
def imgTagged (bs : Bytes) : Bool := u32 bs 0x14 % 2 == 1

/-- Total length of an image (R91). -/
def imgLen (bs : Bytes) : Nat := 64 + imgBody bs + 4 + if imgTagged bs then 32 else 0

/-- FORMAT, HDR_LEN, TARGET, FLAGS, reserved bytes and BODY_LEN keep R91; `max` is the largest total. -/
def hdrOk (max : Nat) (bs : Bytes) : Bool :=
  u16 bs 4 == 1 && u16 bs 6 == 64 && u32 bs 0x10 == 0x04C700B1 && decide (u32 bs 0x14 ≤ 1) &&
    (slice bs 0x24 24).all (· == 0) && imgBody bs % 4 == 0 && decide (imgLen bs ≤ max)

/-- The checks that FIND makes of a slot header: 0 for a candidate, else the code of Table 4.9. -/
def findCode (requireTag : Bool) (h : Bytes) : Nat :=
  if h.length < 64 ∨ u32 h 0 ≠ 0x4934584F then 3
  else if !hdrOk 4194304 h then 4
  else if u32 h 0x3C = 0 then 6
  else if u32 h 0x3C ≠ 0x5A5A0F0F then 5
  else if requireTag && !imgTagged h then 7
  else 0

/-! ### Records (R92) -/

/-- A record of an image body. -/
structure Rec where
  ty      : Nat
  flags   : Nat
  payload : Bytes
  deriving DecidableEq, Repr

/-- The records of a body up to and including END; an incomplete record ends the list with none. `n` bounds them. -/
def recsOf : Nat → Bytes → List (Option Rec)
  | 0, _ => []
  | n + 1, bs =>
    if bs = [] then []
    else if bs.length < 8 ∨ bs.length < 8 + u32 bs 4 then [none]
    else
      let r : Rec := ⟨u16 bs 0, u16 bs 2, slice bs 8 (u32 bs 4)⟩
      some r :: (if r.ty = 0xFF then [] else recsOf n (bs.drop (8 + u32 bs 4)))

/-- The little-endian words of a payload. -/
def wordsOf (p : Bytes) : List Nat := (List.range (p.length / 4)).map fun k => u32 p (4 * k)

/-- The bits of the W1S, WO and W1C fields of the register at o. -/
def actionMask (o : Nat) : Nat :=
  match rowAt o with
  | some r => (r.fields.filter fun f => f.ty == .w1s || f.ty == .wo || f.ty == .w1c).foldl
      (fun a f => a + (2 ^ f.w - 1) * 2 ^ f.lo) 0
  | none => 0

/-- A register offset that a record may name, with no action bit set (R92). -/
def recPair (o v : Nat) : Bool :=
  o % 4 == 0 && decide (o < 0x200000) && !(decide (0x10000 ≤ o) && decide (o < 0x14000)) && v &&& actionMask o == 0

/-- The pairs of a REG or CAL payload keep R92. -/
def pairsOk : List Nat → Bool
  | [] => true
  | o :: v :: ws => recPair o v && pairsOk ws
  | _ => false

/-- The triples of a REG_MASKED payload keep R92. -/
def triplesOk : List Nat → Bool
  | [] => true
  | o :: m :: v :: ws => recPair o (v &&& m) && triplesOk ws
  | _ => false

/-- The table windows that a record type may write (Table 19.3, R395). -/
def tableRange (ty : Nat) : List (Nat × Nat) :=
  match ty with
  | 0x10 => [(0x210000, 0x234000)]
  | 0x11 => [(0x280000, 0x288000)]
  | 0x12 => [(0x200000, 0x210000)]
  | 0x13 => [(0x2C0000, 0x2C0800)]
  | 0x14 => [(0x2E0000, 0x2E0880)]
  | _ => []

/-- A table record keeps R92 and R395. -/
def tableOk (ty : Nat) (p : Bytes) : Bool :=
  decide (4 ≤ p.length) && u32 p 0 % 4 == 0 &&
    (p.length == 4 ||
      (tableRange ty).any fun r => decide (r.1 ≤ 0x200000 + u32 p 0) && decide (0x200000 + u32 p 0 + (p.length - 4) ≤ r.2))

/-- One record keeps R92; `cal` for the calibration page, whose known types are CAL, PAD and END only (R99). -/
def recOk (cal : Bool) (r : Rec) : Bool :=
  decide (r.flags ≤ 1) && r.payload.length % 4 == 0 &&
    match r.ty with
    | 0x01 => !cal && pairsOk (wordsOf r.payload)
    | 0x02 => !cal && triplesOk (wordsOf r.payload)
    | 0x10 | 0x11 | 0x12 | 0x13 | 0x14 => !cal && tableOk r.ty r.payload
    | 0x20 => pairsOk (wordsOf r.payload)
    | 0xFE => true
    | 0xFF => r.payload.length == 0
    | _ => r.flags == 1

/-- The index of the first record that breaks R92 or of END when RECORDS or the body's end is wrong; none if all is well.
Where the body holds no END, the index is the last record's (DESIGN CHOICE, assumption log 64: the manual names the index of
END for a wrong RECORDS and none for an END that is missing). -/
def recFault (cal : Bool) (bs : Bytes) : Option Nat :=
  let body := slice bs 0x40 (imgBody bs)
  let rs := recsOf (imgBody bs / 8 + 1) body
  match rs.findIdx? (fun r => match r with | some r => !recOk cal r | none => true) with
  | some i => some i
  | none =>
    let used := rs.foldl (fun a r => a + match r with | some r => 8 + r.payload.length | none => 0) 0
    let ended := match rs.getLast? with | some (some r) => r.ty == 0xFF | _ => false
    if ended && used == imgBody bs && u32 bs 0x20 == rs.length then none else some (rs.length - 1)

/-- The records of an image that passed its checks. -/
def records (bs : Bytes) : List Rec := (recsOf (imgBody bs / 8 + 1) (slice bs 0x40 (imgBody bs))).filterMap id

/-- The bytes that CHECK covers (R93). -/
def covered (bs : Bytes) : Bytes := slice bs 0 0x3C ++ slice bs 0x40 (imgBody bs)

/-- CHECK matches (R93). -/
def checkOk (bs : Bytes) : Bool := u32 bs (0x40 + imgBody bs) == crc32 (covered bs)

/-- TAG matches under the key (R94). -/
def tagOk (key bs : Bytes) : Bool :=
  slice bs (0x44 + imgBody bs) 32 == hmac key (covered bs ++ slice bs (0x40 + imgBody bs) 4)

/-- The checks that VERIFY makes of a slot: its code of Table 4.9 and FAIL_REC, code 1 when it passes. -/
def verifyCode (keyProg : Bool) (key bs : Bytes) : Nat × Nat :=
  if bs.length < imgLen bs ∨ !checkOk bs then (8, 0xFFFF)
  else if imgTagged bs && keyProg && !tagOk key bs then (9, 0xFFFF)
  else match recFault false bs with
    | some i => (10, i)
    | none => (1, 0xFFFF)

/-- The calibration page is valid (R99). -/
def calOk (bs : Bytes) : Bool :=
  decide (64 ≤ bs.length) && u32 bs 0 == 0x4334584F && hdrOk 4096 bs && u32 bs 8 == 0 && !imgTagged bs &&
    u32 bs 0x3C == 0x5A5A0F0F && decide (imgLen bs ≤ bs.length) && checkOk bs && (recFault true bs).isNone

end Sys2Proof.Machine
end

