-- ==== Sys2Proof/Machine/CmpBase.lean ====
section
/-!
DEFINITION. Machine/CmpBase.lean: contexts of the compression engine and what a Kennel does to them
(spec/16_compression_engine.md, R334, R335, R342).
-/

namespace Sys2Proof.Machine

/-- Change the engine. -/
def Dev.cmpMod (d : Dev) (f : Cmp → Cmp) : Dev := { d with cmp := f d.cmp }

/-- Context k. -/
def Dev.cx (d : Dev) (k : Nat) : CmpCtx := d.cmp.ctx.getD k {}

/-- Show the context states (CMP_CTX_STATE) and the running job (CMP_STATUS). -/
def cmpSync (d : Dev) : Dev :=
  let d := d.wr CMP_CTX_STATE.STATE (((List.range 16).map fun k => (d.cx k).st * 4 ^ k).foldl (· + ·) 0)
  match d.cmp.job with
  | some j => ((d.wrB CMP_STATUS.BUSY true).wr CMP_STATUS.CUR_CTX (j.ring - 384)).wr CMP_STATUS.CUR_FN j.fn
  | none => ((d.wrB CMP_STATUS.BUSY false).wr CMP_STATUS.CUR_CTX 0).wr CMP_STATUS.CUR_FN 0

/-- Set context k. -/
def setCx (k : Nat) (c : CmpCtx) (d : Dev) : Dev :=
  cmpSync (d.cmpMod fun m => { m with ctx := m.ctx.set k c })

/-- Empty the contexts that sel names, for a Kennel or a tier step; CTX_LOST when one held a stream. -/
def cmpEmpty (sel : Nat → Bool) (d : Dev) : Dev :=
  let lost := (List.range 16).any fun k => sel k && (d.cx k).st != 0
  let d := d.cmpMod fun m => { m with ctx := ((List.range 16).zip m.ctx).map fun (k, c) => if sel k then {} else c }
  cmpSync (d.evIf lost CMP_EVENT.CTX_LOST)

/-- The running job's ring is one that mine names. -/
def Dev.cmpDraining (d : Dev) (mine : Nat → Bool) : Bool :=
  match d.cmp.job with
  | some j => mine j.ring
  | none => false

/-- The cause of highest row of Table 16.3. -/
def worse (a : Option Nat) (b : Nat) : Nat := match a with
  | some x => min x b
  | none => b

/-- The running job must stop at its next boundary. -/
def cmpStopCause (c : Nat) (d : Dev) : Dev :=
  d.cmpMod fun m => { m with job := m.job.map fun j => { j with stop := some (worse j.stop c) } }

/-- The Kennel takes the rings that mine names: their contexts empty, that of a running job at its boundary (R342). -/
def cmpKennel (mine : Nat → Bool) (d : Dev) : Dev :=
  let busy (k : Nat) : Bool := match d.cmp.job with
    | some j => j.ring == 384 + k
    | none => false
  let d := if d.cmpDraining mine then cmpStopCause 0 d else d
  cmpEmpty (fun k => mine (384 + k) && !busy k) d

end Sys2Proof.Machine
end

