-- ==== Sys2Proof/Machine/HearthOps.lean ====
section
/-!
DEFINITION. Machine/HearthOps.lean: the clock tree, the voted Hearth, its discipline states and its outputs
(spec/02_frames_motes_and_the_hearth.md, R26 to R54, R415, R416).
-/

namespace Sys2Proof.Machine

/-! ### XREF (R30 to R32, R416) -/

/-- XREF_LOST in CLK_STATUS and its copy in HRT_STATUS. -/
def setXrefLost (b : Bool) (d : Dev) : Dev := (d.wrB CLK_STATUS.XREF_LOST b).wrB HRT_STATUS.XREF_LOST b

/-- R30, R416: freeze the PLL; a loss before XREF_BACK restarts held operation. -/
def xrefLoss (d : Dev) : Dev :=
  if d.boot.pllOnce then
    let again := d.on CLK_STATUS.XREF_LOST
    let d := (setXrefLost true d).wrB CLK_STATUS.HELD true
    let d := (d.wrB CLK_STATUS.RELOCKING false).wrB CLK_STATUS.PLL_LOCK false
    let d := d.ev CLK_EVENT.XREF_LOSS
    if again then d else { d with hearth := { d.hearth with heldBound := false } }
  else d

/-- R31, R416: the first second of held operation ends; raised once. -/
def heldBound (d : Dev) : Dev :=
  if d.on CLK_STATUS.HELD && !d.hearth.heldBound then
    { d.ev CLK_EVENT.HELD_BOUND with hearth := { d.hearth with heldBound := true } }
  else d

/-- R32: the phase detector has been in its window for RETURN_RND rounds. -/
def xrefReturned (d : Dev) : Dev :=
  if d.on CLK_STATUS.HELD then d.wrB CLK_STATUS.RELOCKING true else d

/-- R32: lock is reached. -/
def xrefBack (d : Dev) : Dev :=
  if d.on CLK_STATUS.RELOCKING then
    let d := (setXrefLost false d).wrB CLK_STATUS.HELD false
    ((d.wrB CLK_STATUS.RELOCKING false).wrB CLK_STATUS.PLL_LOCK true).ev CLK_EVENT.XREF_BACK
  else d

/-- R29: a write of MCLK DEN applies the NUM/DEN pair; DEN below 8 × NUM is refused (R5). `b` names MCLK_B. -/
def mclkDen (src : BusSrc) (b : Bool) (den : Nat) (d : Dev) : Dev :=
  let fN := if b then CLK_MCLK_B_NUM.NUM else CLK_MCLK_A_NUM.NUM
  let fD := if b then CLK_MCLK_B_DEN.DEN else CLK_MCLK_A_DEN.DEN
  if den < 8 * d.rd fN || 2 ^ 24 ≤ den then badWr src fD.off d
  else
    let d' := d.wr fD den
    let pair := (d.rd fN, den)
    { d' with hearth := if b then { d'.hearth with mclkB := pair } else { d'.hearth with mclkA := pair } }

/-! ### The copies -/

/-- The same change to all three copies (R33, R43, R45). -/
def Hearth.all (h : Hearth) (f : HCopy → HCopy) : Hearth := { h with a := f h.a, b := f h.b, c := f h.c }

/-- Change the Hearth's internals. -/
def Dev.hearthMod (d : Dev) (f : Hearth → Hearth) : Dev := { d with hearth := f d.hearth }

/-- Put an era-extended time in units of mt into a copy, modulo 16 eras (R37). -/
def HCopy.put (h : HCopy) (x : Int) : HCopy :=
  let y := uns 68 x
  { h with t := y % 2 ^ 64, era := y / 2 ^ 64 }

/-- The era-extended time of a copy, in mt. -/
def HCopy.ext (h : HCopy) : Nat := h.era * 2 ^ 64 + h.t

/-- What a CLK adds to a copy, the slew apart, in units of 2^-32 mt (R33). -/
def HCopy.perClk (h : HCopy) : Int := 16 * 2 ^ 32 + h.rate

/-- What a slew of increment inc adds to a copy in n CLK: the last CLK of the slew applies what remains (R43). -/
def HCopy.slewPart (inc : Int) (n : Nat) (h : HCopy) : Int :=
  if inc = 0 then 0 else if n * inc.natAbs ≤ h.left.natAbs then n * inc else h.left

/-- n CLK of one copy (R33): 16 mt plus rate plus the slew in each, the fraction accumulated in units of 2^-32 mt. -/
def HCopy.run (inc : Int) (n : Nat) (h : HCopy) : HCopy :=
  let s := h.slewPart inc n
  let acc : Int := h.frac + n * h.perClk + s
  { h.put ((h.ext : Int) + acc / 2 ^ 32) with frac := (acc % 2 ^ 32).toNat, left := if inc = 0 then h.left else h.left - s }

/-- One CLK of one copy (R33). -/
def HCopy.clk (inc : Int) (h : HCopy) : HCopy := h.run inc 1

/-- x / y rounded up, for a divisor above 0. -/
def ceilDiv (x y : Int) : Nat := ((x + y - 1) / y).toNat

/-- The CLK in which a slew of increment inc ends. -/
def HCopy.slewClk (inc : Int) (h : HCopy) : Nat := if inc = 0 then 0 else ceilDiv h.left.natAbs inc.natAbs

/-- The number of CLK until a copy has advanced by at least mt motes (R33). -/
def HCopy.clkTo (inc : Int) (mt : Nat) (h : HCopy) : Nat :=
  let x : Int := (mt : Int) * 2 ^ 32 - h.frac
  let n := ceilDiv x (max 1 (h.perClk + inc))
  if n * inc.natAbs ≤ h.left.natAbs ∨ inc = 0 then n
  else max (h.slewClk inc) (ceilDiv (x - h.left) (max 1 h.perClk))

/-- The wrap count follows the copies (R37): HRT_ERA moves by as much as they did, and a wrap raises ERA_WRAP. A value that
software wrote to HRT_ERA, and that waits for its load, moves too, and a backward step over the wrap takes HRT_ERA back with
the copies (DEDUCED, assumption log 20: the manual speaks of the forward wrap alone). -/
def hrtPublish (eraBefore : Nat) (d : Dev) : Dev :=
  let era := d.hearth.a.era
  if era = eraBefore then d
  else
    let d := d.wr HRT_ERA.ERA (d.rd HRT_ERA.ERA + era + 16 - eraBefore % 16)
    d.evIf (era == (eraBefore + 1) % 16) HRT_EVENT.ERA_WRAP

/-- The Hearth advances by n CLK (R33). -/
def advance (n : Nat) (d : Dev) : Dev :=
  hrtPublish d.hearth.a.era (d.hearthMod fun h => { h.all (HCopy.run h.slewInc n) with clk := h.clk + n })

/-- Let the Hearth advance to mote m of the present frame, to the first CLK at or after it, if it is not there yet; a CLK that
lies in the next frame is left to FRAME_EVENT. The commands carry the mote at which they happen (assumption log 2). -/
def atMote (m : Nat) (d : Dev) : Dev :=
  let cur := d.now % frMt
  let h := d.hearth
  let n := h.a.clkTo h.slewInc (m - cur)
  if h.running && cur < m && m < frMt && (h.a.run h.slewInc n).t / frMt == d.frame then
    d.hearthMod fun h => { h.all (HCopy.run h.slewInc n) with clk := h.clk + n }
  else d

/-- Let the Hearth advance to a CLK of the present frame, if it is not there yet. -/
def atClk (k : Nat) (d : Dev) : Dev :=
  let h := d.hearth
  let n := k - h.clk
  if h.running && decide (h.clk < k) && (h.a.run h.slewInc n).t / frMt == d.frame then
    d.hearthMod fun h => { h.all (HCopy.run h.slewInc n) with clk := h.clk + n }
  else d

/-- The Hearth is at CLK k, or comes to it in the present frame. -/
def Dev.clkDue (d : Dev) (k : Nat) : Bool := decide (k ≤ (atClk k d).hearth.clk)

/-- The time of an event at mote m of the present frame, era-extended and to 1 mt (R54): m itself unless the Hearth is past
the CLK that m falls in. -/
def Dev.stampAt (d : Dev) (m : Nat) : Nat :=
  let cur := d.now % frMt
  d.frameExt * frMt + if cur ≤ m + 16 then m else cur

/-- The last CLK of a slew has come (R43). -/
def slewOver (d : Dev) : Dev :=
  if d.on HRT_STATUS.SLEWING && d.hearth.a.left == 0 then
    ((d.hearthMod fun h => { h with slewInc := 0 }).wrB HRT_STATUS.SLEWING false).ev HRT_EVENT.SLEW_DONE
  else d

/-- Let the Hearth advance to the first CLK of the next frame (R33, R34). A slew that ends on the way is done. -/
def toNextFrame (d : Dev) : Dev :=
  let h := d.hearth
  slewOver (advance (h.a.clkTo h.slewInc (frMt - d.now % frMt)) d)

/-- The boundary events that come with a frame event (R34). -/
structure Bounds where
  round      : Bool
  superframe : Bool
  second     : Bool
  deriving DecidableEq, Repr

/-- The events at a natural crossing to the era-extended frame count e (R34). -/
def boundsAt (e : Nat) : Bounds := ⟨e % 16 == 0, e % 1024 == 0, e % 8000 == 0⟩

/-- The events crossed by a forward step from e0 to e1 (R34). -/
def boundsCrossed (e0 e1 : Nat) : Bounds :=
  ⟨decide (e0 / 16 < e1 / 16), decide (e0 / 1024 < e1 / 1024), decide (e0 / 8000 < e1 / 8000)⟩

/-- The voted state of three copies, and whether a majority stands (Table 2.3). -/
def vote (a b c : HCopy) : HCopy × Bool :=
  if a = b then (a, true) else if a = c then (a, true) else if b = c then (b, true) else (a, false)

/-! ### Discipline (Table 2.5) -/

/-- Enter a discipline state: STATE_CHG at a change, TRACEABLE as R47. -/
def hrtEnter (st : Nat) (d : Dev) : Dev :=
  let old := d.rd HRT_STATUS.STATE
  let d := d.wr HRT_STATUS.STATE st
  let d := d.evIf (old != st) HRT_EVENT.STATE_CHG
  let d := if st = 2 then d.wrB HRT_STATUS.TRACEABLE true
    else if st = 3 then d else d.wrB HRT_STATUS.TRACEABLE false
  d.hearthMod fun h => { h with acqRun := 0, holdFr := 0, wdogFr := if st = 2 then 0 else h.wdogFr }

/-- The source in force (HRT_CTRL.SRC). -/
def Dev.src (d : Dev) : Nat := d.hearth.srcStands

/-- HOST_LOCK is a level: ACQUIRE under HOST passes to LOCKED while it reads 1 (Table 2.5). -/
def hostLevel (d : Dev) : Dev :=
  if d.rd HRT_STATUS.STATE == 1 && d.src == 1 && d.on HRT_CTRL.HOST_LOCK then hrtEnter 2 d else d

/-- A write of SRC acts on the discipline state (Table 2.5, R415). Table 2.5 has no row for another non-FREE source written in
ACQUIRE, and R48 clears have_prev on a jump alone: the model stays in ACQUIRE and counts its run from 0 again, and every
change of SRC clears have_prev, since the last edge was judged under another source (DESIGN CHOICE, assumption log 63). -/
def srcAct (new : Nat) (d : Dev) : Dev :=
  let old := d.hearth.srcStands
  let st := d.rd HRT_STATUS.STATE
  let d := d.hearthMod fun h => { h with srcStands := new, havePrev := if old = new then h.havePrev else false }
  if st = 4 then d
  else if new = 0 then hrtEnter 0 d
  else if st = 0 then hostLevel (hrtEnter 1 d)
  else if old ≠ new then
    if st = 1 then hostLevel (d.hearthMod fun h => { h with acqRun := 0 }) else hostLevel (hrtEnter 1 d)
  else hostLevel d

/-- Software writes HRT_CTRL.SRC; until BOOT_DONE the value acts on nothing (R415). -/
def srcWrite (new : Nat) (d : Dev) : Dev :=
  let d := d.wr HRT_CTRL.SRC new
  if d.booted then srcAct (new % 4) d else d

/-- Software writes HRT_CTRL.HOST_LOCK (Table 2.5). A record of the image is no write of the host: a 0 in it changes no
discipline state (R415). -/
def hostLockWrite (src : BusSrc) (b : Bool) (d : Dev) : Dev :=
  let d := d.wrB HRT_CTRL.HOST_LOCK b
  if b then hostLevel d
  else if src ≠ .image ∧ d.rd HRT_STATUS.STATE = 2 ∧ d.src = 1 then hrtEnter 3 d else d

/-- A host write of HRT_RATE or GO feeds the watchdog and relocks from HOLDOVER (Table 2.5). -/
def hostServo (d : Dev) : Dev :=
  let d := d.hearthMod fun h => { h with wdogFr := 0 }
  if d.rd HRT_STATUS.STATE == 3 && d.src == 1 && d.on HRT_CTRL.HOST_LOCK then hrtEnter 2 d else d

/-- Put a rate in force in all copies and show it (R33, R42). -/
def setRate (r : Int) (d : Dev) : Dev :=
  (d.wr HRT_RATE.RATE (uns 32 r)).hearthMod fun h => h.all fun c => { c with rate := r }

/-- The clamp of R42. -/
def rateMax : Int := 13743895

/-- A rate that hardware computed saturates at the clamp (R42). -/
def hwRate (r : Int) (d : Dev) : Dev :=
  let c := clampI r (-rateMax) rateMax
  let d := setRate c d
  if c = r then d.wrB HRT_STATUS.RATE_CLAMPED false
  else (d.wrB HRT_STATUS.RATE_CLAMPED true).ev HRT_EVENT.RATE_CLAMP

/-- Software writes HRT_RATE (R42, R46): an accepted rate is no hardware rate held at the clamp. -/
def rateWrite (src : BusSrc) (v : Word) (d : Dev) : Dev :=
  if d.src ≥ 2 then d.ev HRT_EVENT.SRC_CONFLICT
  else if v.toInt < -rateMax ∨ rateMax < v.toInt then badWr src HRT_RATE.addr d
  else hostServo (setRate v.toInt (d.wrB HRT_STATUS.RATE_CLAMPED false))

/-- Software writes HRT_ADJ_CTRL with GO = 1 (R43, R44, R46). Under PEGLINE or PPS the write conflicts whatever its fields;
MODE and SLEW_PPM are then judged under R5 (R46). -/
def adjGo (src : BusSrc) (slew : Bool) (ppm : Nat) (d : Dev) : Dev :=
  let conflict := decide (2 ≤ d.src)
  let d := d.evIf conflict HRT_EVENT.SRC_CONFLICT
  if ppm < 1 ∨ 500 < ppm then badWr src HRT_ADJ_CTRL.addr d
  else
    let d := (d.wrB HRT_ADJ_CTRL.MODE slew).wr HRT_ADJ_CTRL.SLEW_PPM ppm
    if conflict then d
    else if d.on HRT_ADJ_CTRL.GO then hostServo d
    else
      let d := (d.wrB HRT_ADJ_CTRL.GO true).wrB HRT_STATUS.ADJ_PENDING true
      hostServo (d.hearthMod fun h => { h with adj := .sw, adjArmed := false })

/-- The hardware servo starts an adjustment through the same path (R46, R48, R268): while GO is 1 it has no effect (R44). -/
def hwAdjust (slew : Bool) (offset : Int) (ppm : Option Nat) (d : Dev) : Dev :=
  if d.on HRT_ADJ_CTRL.GO then d else
  let d := (d.wrB HRT_ADJ_CTRL.GO true).wrB HRT_STATUS.ADJ_PENDING true
  d.hearthMod fun h => { h with adj := .hw slew offset, adjPpm := ppm, adjArmed := false }

/-- The mode and offset of the pending adjustment as read when it is applied (R43, HRT_ADJ field table). The manual reads
HRT_ADJ then and does not say which write of MODE and SLEW_PPM counts if one follows the write of GO: the model reads them
then too (DESIGN CHOICE, assumption log 63). -/
def Dev.adjValue (d : Dev) : Option (Bool × Int) :=
  match d.hearth.adj with
  | .none => none
  | .sw => some (d.on HRT_ADJ_CTRL.MODE, sgn 48 (d.rd HRT_ADJ_HI.ADJ * 2 ^ 32 + d.rd HRT_ADJ_LO.ADJ))
  | .hw slew off => some (slew, off)

/-- The pending adjustment is gone: GO clears (R43). -/
def adjDone (d : Dev) : Dev :=
  ((d.wrB HRT_ADJ_CTRL.GO false).wrB HRT_STATUS.ADJ_PENDING false).hearthMod fun h =>
    { h with adj := .none, adjPpm := none, adjArmed := false }

/-- End a running slew; its remainder stays readable (R44, R45). -/
def slewStop (d : Dev) : Dev := (d.wrB HRT_STATUS.SLEWING false).hearthMod fun h => { h with slewInc := 0 }

/-- A jump ends a running slew; the remainder of an older one is no longer shown (R44). -/
def slewCancel (d : Dev) : Dev :=
  let running := d.on HRT_STATUS.SLEWING
  (slewStop d).hearthMod fun h => h.all fun c => if running then c else { c with left := 0 }

/-- Add a signed offset to all three copies (R43). -/
def stepBy (off : Int) (d : Dev) : Dev := d.hearthMod fun h => h.all fun c => c.put ((c.ext : Int) + off)

/-- The CLK of a jump (R43): a running slew ends, the Hearth advances by its CLK and the offset, STEPPED rises. -/
def jumpCore (off : Int) (d : Dev) : Dev :=
  let era := d.hearth.a.era
  let d := slewCancel (adjDone d)
  let d := d.hearthMod fun h => { h.all (HCopy.clk 0) with clk := h.clk + 1 }
  (hrtPublish era (stepBy off d)).ev HRT_EVENT.STEPPED

/-- Start a slew of a signed offset (R43, R44). -/
def slewCore (off : Int) (d : Dev) : Dev :=
  let inc : Int := d.hearth.adjPpm.getD (d.rd HRT_ADJ_CTRL.SLEW_PPM) * 68719
  let d := (adjDone d).wrB HRT_STATUS.SLEWING true
  d.hearthMod fun h =>
    { h.all (fun c => { c with left := off * 2 ^ 32 }) with slewInc := if off < 0 then -inc else inc }

/-- A pending slew is applied after its frame event (R43). -/
def slewApply (d : Dev) : Dev :=
  match d.adjValue with
  | some (true, off) => if d.hearth.adjArmed && !d.hearth.loadArmed then slewCore off d else d
  | _ => d

/-- SLEW_DONE: the last CLK of a slew, which applies what remains, comes in the frame in progress (R43). -/
def slewDone (d : Dev) : Dev :=
  let h := d.hearth
  if d.on HRT_STATUS.SLEWING && (h.a.run h.slewInc (h.a.slewClk h.slewInc)).t / frMt == d.frame then
    slewOver (advance (h.a.slewClk h.slewInc) d)
  else d

/-- Software sets HRT_CTRL.LOAD (R45); while a load is pending the write has no effect. -/
def loadReq (d : Dev) : Dev :=
  if d.on HRT_STATUS.LOAD_PENDING then d
  else ((d.wrB HRT_CTRL.LOAD true).wrB HRT_STATUS.LOAD_PENDING true).hearthMod fun h => { h with loadArmed := false }

/-- The era-extended time that a load writes: that of HRT_LOAD and HRT_ERA, or what Pegline adds to the Hearth (R45, R263). -/
def Dev.loadTime (d : Dev) : Int :=
  match d.hearth.loadHw with
  | some off => ((d.hearth.a.clk 0).ext : Int) + off
  | none => (d.rd HRT_ERA.ERA * 2 ^ 64 + d.rd HRT_LOAD_HI.LOAD * 2 ^ 32 + d.rd HRT_LOAD_LO.LOAD : Nat)

/-- The CLK of a load (R45): its time goes into all copies, the fraction is 0, a running slew ends, an adjustment of the same
CLK is discarded. -/
def loadCore (d : Dev) : Dev :=
  let x := d.loadTime
  let hw := d.hearth.loadHw.isSome
  let d := if d.hearth.adjArmed then adjDone d else d
  let d := (d.wrB HRT_CTRL.LOAD false).wrB HRT_STATUS.LOAD_PENDING false
  let d := slewStop d
  let d := d.hearthMod fun h =>
    { h.all (fun c => { c.put x with frac := 0 }) with clk := h.clk + 1, loadArmed := false, loadHw := none, loadedSince := true }
  let d := if hw then d.wr HRT_ERA.ERA d.hearth.a.era else d
  d.ev HRT_EVENT.STEPPED

/-- Pegline asks for a load that moves the Hearth by off, through the path of R45 (R46, R263). -/
def hwLoad (off : Int) (d : Dev) : Dev :=
  (d.wrB HRT_STATUS.LOAD_PENDING true).hearthMod fun h => { h with loadHw := some off, loadArmed := false }

/-- Software writes HRT_CTRL.FAULT_CLR (Table 2.5). -/
def faultClr (d : Dev) : Dev :=
  if d.rd HRT_STATUS.STATE == 4 && d.hearth.loadedSince then
    let d := d.wrB HRT_STATUS.VALID true
    if d.src = 0 then hrtEnter 0 d else hostLevel (hrtEnter 1 d)
  else d

/-- The host watchdog expires (Table 2.5). -/
def hostWdog (d : Dev) : Dev :=
  if d.rd HRT_STATUS.STATE == 2 && d.src == 1 && decide (d.rd HRT_HOST_WDOG.FRAMES ≤ d.hearth.wdogFr) then
    (hrtEnter 3 d).ev HRT_EVENT.HOST_WDOG
  else d

/-- The holdover limit expires (Table 2.5). -/
def holdExpired (d : Dev) : Dev :=
  let lim := d.rd HRT_HOLD_LIMIT.FRAMES
  if d.rd HRT_STATUS.STATE == 3 && lim != 0 && decide (lim ≤ d.hearth.holdFr) && d.on HRT_STATUS.TRACEABLE then
    (d.wrB HRT_STATUS.TRACEABLE false).ev HRT_EVENT.HOLD_EXPIRED
  else d

/-! ### 1PPS (R48) -/

/-- Store a capture (R53). -/
def capStore (t : Nat) (d : Dev) : Dev := (d.wr HRT_PPS_CAP_LO.CAP t).wr HRT_PPS_CAP_HI.CAP (t / 2 ^ 32)

/-- The signed distance of an era-extended time from the nearest second (R48). -/
def ppsError (t : Nat) : Int :=
  let e : Int := (t % (8000 * frMt) : Nat)
  if 4000 * (frMt : Int) ≤ e then e - 8000 * frMt else e

/-- Discipline on an edge of error e (Table 2.5). -/
def ppsState (e : Int) (d : Dev) : Dev :=
  let good := decide (e.natAbs ≤ d.rd HRT_PPS_LOCKWIN.WIN)
  let st := d.rd HRT_STATUS.STATE
  if st = 2 then (if d.rd HRT_PPS_SERVO.JUMP_MT < e.natAbs then hrtEnter 3 d else d)
  else
    let d := if st = 3 then hrtEnter 1 d else d
    if d.rd HRT_STATUS.STATE == 1 then
      let run := if good then d.hearth.acqRun + 1 else 0
      if 4 ≤ run then hrtEnter 2 d else d.hearthMod fun h => { h with acqRun := run }
    else d

/-- The 1PPS servo for one edge of error e (R48). -/
def ppsServo (e : Int) (d : Dev) : Dev :=
  if d.rd HRT_PPS_SERVO.JUMP_MT < e.natAbs then
    (hwAdjust false (-e) none d).hearthMod fun h => { h with havePrev := false }
  else
    let d := if d.hearth.havePrev then
        let dd := e - d.hearth.ePrev
        hwRate (d.hearth.a.rate - ((dd * 8192).tdiv 1000).tdiv (2 ^ d.rd HRT_PPS_SERVO.FG)) d
      else d
    (hwAdjust true ((-e).tdiv (2 ^ d.rd HRT_PPS_SERVO.PG)) none d).hearthMod fun h => { h with havePrev := true, ePrev := e }

/-- An active PPS_IN edge at mote m: capture less 3 CLK and COMP, then the servo when SRC = PPS (R48). -/
def ppsEdge (m : Nat) (d : Dev) : Dev :=
  if d.on HRT_PPS_IN_CFG.EN then
    let d := atMote m d
    let ext := uns 68 ((d.nowExt : Int) - 48 - sgn 16 (d.rd HRT_PPS_IN_CFG.COMP))
    let d := (capStore (ext % 2 ^ 64) d).hearthMod fun h => { h with ppsFr := 0 }
    if d.src = 3 then
      let e := ppsError ext
      ppsServo e (ppsState e (d.wr HRT_PPS_ERR.E (uns 32 (clampI e (-(2 ^ 31 - 1)) (2 ^ 31 - 1)))))
    else d
  else d

/-- No edge for MISS seconds while LOCKED (Table 2.5). -/
def ppsMiss (d : Dev) : Dev :=
  if d.rd HRT_STATUS.STATE == 2 && d.src == 3 && decide (d.rd HRT_PPS_IN_CFG.MISS * 8000 ≤ d.hearth.ppsFr) then
    (hrtEnter 3 d).ev HRT_EVENT.PPS_MISS
  else d

/-! ### Outputs, snapshot and reads -/

/-- The edge shift of PPS_OUT in CLK (R49): COMP to the nearest CLK, halves up. -/
def ppsShiftOf (comp : Int) : Int := (comp + 8) / 16

/-- PPS_OUT is at its active level for the Hearth's part: its edge has come and its width is not over (R49). -/
def Hearth.ppsActive (h : Hearth) : Bool :=
  h.ppsOn && decide (h.ppsAt ≤ h.clk) && h.ppsEnd.all fun e => decide (h.clk < e)

/-- FSYNC_OUT is at its active level for the Hearth's part (R50). -/
def Hearth.fsyncActive (h : Hearth) : Bool := h.fsyncOn && decide (h.fsyncAt ≤ h.clk) && decide (h.clk < h.fsyncEnd)

/-- PPS_OUT may run (R49): enabled, the Hearth valid, outputs released (Table 4.3). -/
def Dev.ppsRuns (d : Dev) : Bool := d.on HRT_PPS_OUT_CFG.EN && d.valid && d.run

/-- FSYNC_OUT may run (R50): enabled, in FULL to LIFELINE, outputs released (Table 4.3). -/
def Dev.fsyncRuns (d : Dev) : Bool := d.on HRT_FSYNC_CFG.EN && decide (d.tier ≤ 3) && d.run

/-- A pulse of PPS_OUT is placed k CLK after this frame event, with WIDTH_FR frames to go after it; an output that is active
stays so, and its width count restarts (R49, R51). -/
def ppsPlace (k : Nat) (early : Bool) (d : Dev) : Dev :=
  if d.ppsRuns then
    d.hearthMod fun h => { h with ppsAt := if h.ppsActive then h.ppsAt else h.clk + k, ppsOn := true, ppsDelay := k,
                                  ppsLeft := d.rd HRT_PPS_OUT_CFG.WIDTH_FR, ppsEnd := none, ppsEarly := early }
  else d

/-- The shift s of PPS_OUT in CLK (R49). -/
def Dev.ppsShift (d : Dev) : Int := ppsShiftOf (sgn 32 (d.rd HRT_PPS_OUT_COMP.COMP))

/-- A second event starts PPS_OUT 1 + s CLK later. An edge that lies before it (s below -1) was placed at the frame event
before, counting the CLK of the frame at the rate that then held; after a step over that one it is active at once. -/
def ppsOutStart (d : Dev) : Dev := if d.hearth.ppsEarly then d else ppsPlace (1 + d.ppsShift).toNat false d

/-- The frame event before a second event places an edge that lies before the second event. -/
def ppsEarlyStart (d : Dev) : Dev :=
  let h := d.hearth
  if d.ppsShift < -1 then
    ppsPlace ((h.a.clkTo h.slewInc (frMt - d.now % frMt) : Int) + 1 + d.ppsShift).toNat true d
  else d

/-- The frame events of a pulse's width: with the last one its end is known (R49). -/
def ppsCount (d : Dev) : Dev :=
  d.hearthMod fun h =>
    if h.ppsOn then
      { h with ppsLeft := h.ppsLeft - 1
               ppsEnd := if h.ppsLeft = 1 then some (h.clk + h.ppsDelay) else h.ppsEnd }
    else h

/-- PPS_OUT_END: the width count of PPS_OUT expires in the frame in progress (R49). -/
def ppsOutEnd (d : Dev) : Dev :=
  match d.hearth.ppsEnd with
  | some e =>
    let d := atClk e d
    if e ≤ d.hearth.clk then d.hearthMod fun h => { h with ppsOn := false, ppsEnd := none } else d
  | none => d

/-- A frame event starts FSYNC_OUT 1 CLK later, for WIDTH_CLK CLK; an output that is active stays so, and its width count
restarts (R50, R51). -/
def fsyncStart (d : Dev) : Dev :=
  if d.fsyncRuns then
    d.hearthMod fun h => { h with fsyncAt := if h.fsyncActive then h.fsyncAt else h.clk + 1, fsyncOn := true,
                                  fsyncEnd := h.clk + 1 + d.rd HRT_FSYNC_CFG.WIDTH_CLK }
  else d

/-- FSYNC_OUT_END: the width count of FSYNC_OUT expires in the frame in progress (R50). -/
def fsyncEnd (d : Dev) : Dev :=
  if d.hearth.fsyncOn then
    let d := atClk d.hearth.fsyncEnd d
    if d.hearth.fsyncEnd ≤ d.hearth.clk then d.hearthMod fun h => { h with fsyncOn := false } else d
  else d

/-- HRT_SNAP_CTRL.TAKE captures the voted Hearth (R52). -/
def snapTake (m : Nat) (d : Dev) : Dev :=
  let d := atMote m d
  ((d.wr HRT_SNAP_LO.SNAP d.now).wr HRT_SNAP_HI.SNAP (d.now / 2 ^ 32)).wrB HRT_SNAP_CTRL.TAKE false

/-! ### Register pairs (R53) -/

/-- The words that hardware shows as they stand in the CLK of the read: the voted Hearth, and the remainder of a slew,
rounded toward zero (HRT_SLEW_LEFT). -/
def Dev.liveWord (d : Dev) (o : Nat) : Nat :=
  if o = HRT_NOW_LO.addr then d.now % 2 ^ 32
  else if o = HRT_NOW_HI.addr then d.now / 2 ^ 32
  else if o = HRT_SLEW_LEFT_LO.addr then uns 48 (d.hearth.a.left.tdiv (2 ^ 32)) % 2 ^ 32
  else if o = HRT_SLEW_LEFT_HI.addr then uns 48 (d.hearth.a.left.tdiv (2 ^ 32)) / 2 ^ 32
  else d.word o

/-- The high half of the pair whose low half is at o: the pairs of R53, those of the Leash (chapter 13), the swap time of a
gate engine (CHn_GATE_SWAP_T) and the time of a fence report (SHD_FENCE_RPTn). -/
def pairHigh (o : Nat) : Option Nat :=
  if o = HRT_NOW_LO.addr then some HRT_NOW_HI.addr
  else if o = HRT_SNAP_LO.addr then some HRT_SNAP_HI.addr
  else if o = HRT_PPS_CAP_LO.addr then some HRT_PPS_CAP_HI.addr
  else if o = HRT_SLEW_LEFT_LO.addr then some HRT_SLEW_LEFT_HI.addr
  else if o = LSH_EXPIRY_LO.addr then some LSH_EXPIRY_HI.addr
  else if o = LSH_PEER_RENEW_LO.addr then some LSH_PEER_RENEW_HI.addr
  else if o = LSH_TAKE_T_LO.addr then some LSH_TAKE_T_HI.addr
  else ((List.range 4).find? fun n => o == CHn_GATE_SWAP_T_LO.addr n || o == SHD_FENCE_RPTn_T_LO.addr n).map fun n =>
    if o = CHn_GATE_SWAP_T_LO.addr n then CHn_GATE_SWAP_T_HI.addr n else SHD_FENCE_RPTn_T_HI.addr n

/-- The high half of a pair: a read of it returns what the last read of the low half latched (R53). -/
def isPairHigh (o : Nat) : Bool :=
  [HRT_NOW_HI.addr, HRT_SNAP_HI.addr, HRT_PPS_CAP_HI.addr, HRT_SLEW_LEFT_HI.addr, LSH_EXPIRY_HI.addr,
    LSH_PEER_RENEW_HI.addr, LSH_TAKE_T_HI.addr].contains o ||
    (List.range 4).any fun n => o == CHn_GATE_SWAP_T_HI.addr n || o == SHD_FENCE_RPTn_T_HI.addr n

/-- What the high half at o has latched. -/
def Dev.latched (d : Dev) (o : Nat) : Nat := (cellRead (fun _ => 0#32) d.latch o).toNat

/-- A read of the low half of a pair latches its high half in the same CLK (R53). -/
def pairLatch (o : Nat) (d : Dev) : Dev :=
  match pairHigh o with
  | some hi => { d with latch := cellWrite (fun _ => 0#32) d.latch hi (BitVec.ofNat 32 (d.liveWord hi)) }
  | none => d

/-- The low half of a pair of R53. -/
def pairLow : HrtPair → Nat
  | .now => HRT_NOW_LO.addr
  | .snap => HRT_SNAP_LO.addr
  | .cap => HRT_PPS_CAP_LO.addr
  | .left => HRT_SLEW_LEFT_LO.addr

/-- A read of the low half of a register pair returns it and latches the high half (R53). -/
def pairRead (p : HrtPair) (m : Nat) (d : Dev) : Dev :=
  let d := atMote m d
  pairLatch (pairLow p) (d.emit (.read (BitVec.ofNat 32 (d.liveWord (pairLow p)))))

/-- What the Hearth does at a frame event: pending adjustments and loads become due (R43, R45), the frame counts of
Table 2.5 run, PPS_OUT counts its width, the pulses of this event are placed. -/
def hrtFrame (b : Bounds) (d : Dev) : Dev :=
  let st := d.rd HRT_STATUS.STATE
  let load := d.on HRT_STATUS.LOAD_PENDING
  let d := d.hearthMod fun h => { h with
    adjArmed := decide (h.adj ≠ .none)
    loadArmed := load
    wdogFr := h.wdogFr + 1
    holdFr := if st = 3 then h.holdFr + 1 else h.holdFr
    ppsFr := h.ppsFr + 1 }
  let d := ppsCount (fsyncStart d)
  let d := if b.second then ppsOutStart d else d
  let d := d.hearthMod fun h => { h with ppsEarly := false }
  if (d.frameExt + 1) % 8000 = 0 then ppsEarlyStart d else d

/-! ### PTP form (R38) -/

/-- Seconds, nanoseconds and sub-nanoseconds (2^-16 ns) of an era-extended time in mt (R38). -/
def ptpOf (t : Nat) : Nat × Nat × Nat :=
  let e := t / frMt
  let full := (t % frMt) * 125000
  (e / 8000, e % 8000 * 125000 + full / 1048576, full % 1048576 / 16)

/-- An HT32 stamp of a time (R35). -/
def ht32 (t : Nat) : Nat := t % 2 ^ 32

/-- Extend an HT32 value by a reference in era-extended mt (R36). -/
def extend32 (ref ht : Nat) : Int :=
  let rf := ref / frMt
  let diff : Int := (((ht / frMt : Nat) : Int) - ((rf % 4096 : Nat) : Int)) % 4096
  let diff := if 2048 ≤ diff then diff - 4096 else diff
  ((rf : Int) + diff) * frMt + (ht % frMt : Nat)

end Sys2Proof.Machine
end

