-- ==== Sys2Proof/Machine/RationOps.lean ====
section
/-!
DEFINITION. Machine/RationOps.lean: measuring the feed, the caps of the Ration controller, the loss record, ride-through,
the charger, off-domain accesses and retention SRAM (spec/03_rations_tiers_and_bivouac.md, R55 to R75).
-/

namespace Sys2Proof.Machine

/-- Change the Ration controller's internals. -/
def Dev.ratMod (d : Dev) (f : Rat → Rat) : Dev := { d with rat := f d.rat }

/-! ### Measuring (R55 to R57) -/

/-- A FEED_VSENSE sample of code c: it joins the frame's sum and the run of low samples (R56, R65). -/
def sampleV (c : Nat) (d : Dev) : Dev :=
  let low := decide (c * d.rd MON_VSCALE.PER_CODE < d.rd RAT_THR_LOSS.LOSS * 100000)
  (d.wr MON_FEED_V.RAW c).ratMod fun r =>
    { r with sumV := r.sumV + c, nV := r.nV + 1, lowRun := if low then r.lowRun + 1 else 0 }

/-- A FEED_ISENSE sample of code c (R56). -/
def sampleI (c : Nat) (d : Dev) : Dev := d.ratMod fun r => { r with sumI := r.sumI + c, nI := r.nI + 1 }

/-- A CELL_VSENSE sample of code c: MON_CELL_V in mV (R56), whose field keeps the low 16 bits (DESIGN CHOICE, assumption log
65). The lowest reading of a feed loss is kept for its record (R68). -/
def sampleCell (c : Nat) (d : Dev) : Dev :=
  let d := d.wr MON_CELL_V.VALUE (c * d.rd MON_CSCALE.PER_CODE / 1000)
  if d.ratOn RAT_STATUS.LOSS then d.ratMod fun r => { r with cellMin := min r.cellMin (d.rd MON_CELL_V.VALUE) } else d

/-- A sag test is in PREP, LOAD or RECOVER (R361). -/
def Dev.sagOn (d : Dev) : Bool := decide (1 ≤ d.rd FLD_CELL_STATUS.SAG_STATE ∧ d.rd FLD_CELL_STATUS.SAG_STATE ≤ 3)

/-- The highest of the latest readings, in quarters of a degree (R57). -/
def tempMax (ts : List Int) : Int := ts.foldl max (ts.headD 0)

/-- A temperature reading in quarters of a degree, of the sensor that the frame count names (R55, R57). MON_TEMP shows it in
whole degrees, the fraction cut towards zero (DESIGN CHOICE, assumption log 65). -/
def sampleTemp (q : Int) (d : Dev) : Dev :=
  let k := d.frame % 4
  let ts := d.rat.temps.set k q
  let d := d.wr MON_TEMP.temps (setBits (d.rd MON_TEMP.temps) (8 * k) 8 (uns 8 (q.tdiv 4)))
  (d.wr MON_TEMP_MAX.QDEG (uns 12 (tempMax ts))).ratMod fun r => { r with temps := ts }

/-- Conversion k of a frame (Table 3.1), begun when the Hearth's advance reaches mote k × 131,072 (R55). -/
def adcConv (k : Nat) (code : Int) (d : Dev) : Dev :=
  if d.hearth.running then
    let d := atMote (k * 131072) d
    if k = 0 ∨ k = 2 ∨ k = 4 then sampleV code.toNat d
    else if k = 6 then sampleCell code.toNat d
    else if k = 7 then sampleTemp code d
    else sampleI code.toNat d
  else d

/-- One step of a filter (R57): the first value after power-on is taken as it is. -/
def filterStep (have1 : Bool) (shift : Nat) (f x : Int) : Int := if have1 then f + (x - f).tdiv (2 ^ shift) else x

/-- The per-frame values and filters at the end of a frame (R56, R57). A filtered value wider than its MON field shows its low
bits there (DESIGN CHOICE, assumption log 65); decisions use the filter itself. -/
def feedFilter (d : Dev) : Dev :=
  let r := d.rat
  let sh := d.rd RAT_DWELL.FILT
  let v : Int := (r.sumV * d.rd MON_VSCALE.PER_CODE / r.nV : Nat)
  let i : Int := (r.sumI * d.rd MON_ISCALE.PER_CODE / r.nI : Nat)
  let p : Int := (v * i).tdiv 1000000000
  let r := if r.nV = 0 then r else { r with filtV := filterStep r.hasV sh r.filtV v, hasV := true }
  let r := if r.nI = 0 then r else { r with filtI := filterStep r.hasI sh r.filtI i, hasI := true }
  let r := if r.nV = 0 ∨ r.nI = 0 then r else { r with filtP := filterStep r.hasP sh r.filtP p, hasP := true }
  let d := { d with rat := { r with sumV := 0, nV := 0, sumI := 0, nI := 0 } }
  let d := d.wr MON_FEED_V.FILT (r.filtV.tdiv 100000).toNat
  (d.wr MON_FEED_I.VALUE (r.filtI.tdiv 1000).toNat).wr MON_FEED_P.VALUE r.filtP.toNat

/-- The filtered feed voltage in 0.1 V (R57, R59). -/
def Dev.feedV (d : Dev) : Nat := (d.rat.filtV.tdiv 100000).toNat

/-- The filtered feed power in mW (R57). -/
def Dev.feedP (d : Dev) : Nat := d.rat.filtP.toNat

/-! ### The caps (R59) -/

/-- The feed cap: the first of FULL, TRIM, LEAN whose threshold holds, against HOLD when the last cap was no worse. -/
def feedCap (d : Dev) : Nat :=
  let prev := d.ratGet RAT_STATUS.CAP_FEED
  let v := d.feedV
  let ok (t : Nat) (enter hold : Nat) : Bool := if prev ≤ t then decide (hold ≤ v) else decide (enter ≤ v)
  if ok 0 (d.rd RAT_THR_FULL.ENTER) (d.rd RAT_THR_FULL.HOLD) then 0
  else if ok 1 (d.rd RAT_THR_TRIM.ENTER) (d.rd RAT_THR_TRIM.HOLD) then 1
  else if ok 2 (d.rd RAT_THR_LEAN.ENTER) (d.rd RAT_THR_LEAN.HOLD) then 2
  else 3

/-- The thermal cap with its release hysteresis. -/
def thermCap (d : Dev) : Nat :=
  let prev := d.ratGet RAT_STATUS.CAP_THERM
  let t : Int := (tempMax d.rat.temps).tdiv 4
  let step (cap code : Nat) (f : Field) : Nat :=
    let lim : Int := if code ≤ prev then (d.rd f : Int) - d.rd RAT_THERM.HYST else d.rd f
    if lim ≤ t then code else cap
  step (step (step (step 0 1 RAT_THERM.TRIM_C) 2 RAT_THERM.LEAN_C) 3 RAT_THERM.LIFE_C) 5 RAT_THERM.DEEP_C

/-- The loss cap: LIFELINE, and below the cell thresholds LISTEN and DEEP. -/
def lossCap (d : Dev) : Nat :=
  if d.ratOn RAT_STATUS.LOSS then
    if d.rd MON_CELL_V.VALUE ≤ d.rd RAT_CELL_THR.DEEP_MV then 5
    else if d.rd MON_CELL_V.VALUE ≤ d.rd RAT_CELL_THR.LISTEN_MV then 4 else 3
  else 0

/-- The cap of a software request for Bivouac. -/
def bivCap (d : Dev) : Nat := if d.on RAT_CTRL.BIV_REQ then 4 + d.rd RAT_CTRL.BIV_MODE else 0

/-- The cap of an invalid Hearth (R41). -/
def hearthCap (d : Dev) : Nat := if d.valid then 0 else 2

/-- The caps that stand without the software request. -/
def otherCaps (d : Dev) : Nat := max (d.rd RAT_CTRL.CEIL) (max (feedCap d) (max (thermCap d) (max (lossCap d) (hearthCap d))))

/-- The target of an evaluation (R59). -/
def tierTarget (d : Dev) : Nat := max (otherCaps d) (bivCap d)

/-- Which cause a Bivouac target has: 1 request, 2 cell, 3 thermal, 0 none (RAT_STATUS.BIV_CAUSE): the highest of the three
caps, of equal ones the thermal cap before the cell and the cell before the request (DESIGN CHOICE, assumption log 65). -/
def bivCause (d : Dev) : Nat :=
  let t := max (thermCap d) (max (lossCap d) (bivCap d))
  if t < 4 then 0 else if thermCap d = t then 3 else if lossCap d = t then 2 else 1

/-! ### Retention SRAM and the loss record (R68) -/

/-- A word of retention SRAM by word address. -/
def Dev.ramWord (d : Dev) (k : Nat) : Nat := (cellRead (fun _ => 0) d.sram k).toNat

/-- Write a word of retention SRAM. -/
def Dev.ramSet (d : Dev) (k v : Nat) : Dev := { d with sram := cellWrite (fun _ => 0) d.sram k (BitVec.ofNat 32 v) }

/-- Words a to a + n - 1 of retention SRAM as bytes. -/
def ramBytes (d : Dev) (n : Nat) : Bytes := (List.range n).flatMap fun k => leBytes 4 (d.ramWord k)

/-- Set bits lo to lo + w - 1 of word k of the loss record. -/
def recField (k lo w v : Nat) (d : Dev) : Dev := d.ramSet k (setBits (d.ramWord k) lo w v)

/-- Rewrite the CRC of the loss record (Table 3.6, offset 0x3C). -/
def recSeal (d : Dev) : Dev := d.ramSet 15 (crc32 (ramBytes d 15))

/-- Set a bit of FLAGS of the loss record and rewrite it (R67, R68). -/
def recFlag (n : Nat) (d : Dev) : Dev := recSeal (d.ramSet 4 (putBit (d.ramWord 4) (8 + n) true))

/-- Give up the dying gasp: GASP_SKIPPED, FLAGS bit 1 (R67). -/
def gaspSkip (d : Dev) : Dev :=
  (recFlag 1 (d.ev RAT_EVENT.GASP_SKIPPED)).ratMod fun r => { r with gaspLeft := 0 }

/-- A read of RAT_RET_DATA returns the addressed word and advances the address (RAT_RET_ADDR field table). -/
def retRead (d : Dev) : Dev :=
  let k := d.rd RAT_RET_ADDR.WORD
  (d.wr RAT_RET_ADDR.WORD (k + 1)).emit (.read (BitVec.ofNat 32 (d.ramWord k)))

/-- A write of RAT_RET_DATA: refused in the loss-record area, and the address advances in either case. -/
def retWrite (src : BusSrc) (v : Word) (d : Dev) : Dev :=
  let k := d.rd RAT_RET_ADDR.WORD
  let d := if k < 16 then badWr src RAT_RET_DATA.addr d else d.ramSet k v.toNat
  d.wr RAT_RET_ADDR.WORD (k + 1)

/-! ### Ride-through (R69) -/

/-- Capacitance in mF: that of the last sag test, or the rated value (R69). -/
def capMf (d : Dev) : Nat := if d.rd FLD_CELL_C.VALUE = 0 then d.rd FLD_CELL_RATED_C.VALUE else d.rd FLD_CELL_C.VALUE

/-- The ride-through estimate of R69; `first` for the one at the loss. -/
def rideUpdate (first : Bool) (d : Dev) : Dev :=
  let c : Int := capMf d
  let v : Int := d.rd MON_CELL_V.VALUE
  let vmin : Int := d.rd RAT_CELL_FLOOR.MIN_MV
  let v8 : Int := (d.rat.cellHist.getD 7 0 : Nat)
  let e := (c * (v * v - vmin * vmin)).tdiv 2
  let p : Int :=
    if first then (d.feedP : Int) * 1000
    else if 8 ≤ d.rat.sfLoss ∧ v < v8 then (c * v * (v8 - v)).tdiv 1024
    else d.rat.pUw
  let p := max p 220000
  let ms := if v ≤ vmin then 0 else min (e.tdiv p) 4294967295
  (d.wr RAT_RIDE.MS ms.toNat).ratMod fun r => { r with pUw := p.toNat }

/-- While a loss lasts: the lowest cell voltage goes into the record once per superframe, and the ride estimate is
recomputed (R68, R69). -/
def lossSuperframe (d : Dev) : Dev :=
  let v := d.rd MON_CELL_V.VALUE
  let low := d.rat.cellMin
  let d := d.ratMod fun r => { r with sfLoss := r.sfLoss + 1 }
  let d := rideUpdate false d
  let d := d.ratMod fun r => { r with cellHist := v :: r.cellHist.take 8 }
  if low < bits (d.ramWord 12) 0 16 then recSeal (recField 12 0 16 low d) else recSeal d

/-! ### Charger (R73) -/

/-- CHG_EN and RAT_CHG: high exactly when enabled, no loss and no sag test. -/
def chgUpdate (d : Dev) : Dev :=
  let en := d.on RAT_CHG.EN
  let loss := d.ratOn RAT_STATUS.LOSS
  let sag := d.sagOn
  let lvl := en && !loss && !sag && !(d.boot.asserted && d.boot.kind != some .warm)
  (d.wrB RAT_CHG.LEVEL lvl).wr RAT_CHG.INHIBIT
    ((if loss then 1 else 0) + (if sag then 2 else 0) + (if en then 0 else 4))

/-! ### Off-domain accesses (R58) -/

/-- An action part dropped because its domain is off: counted in RAT_OFFACC with the domain, OFF_ACCESS raised. -/
def offAccess (pd : Nat) (d : Dev) : Dev :=
  ((d.sat RAT_OFFACC.COUNT).wr RAT_OFFACC.DOMAIN pd).ev RAT_EVENT.OFF_ACCESS

/-- A W1S, WO or W1C action of domain pd: it acts when the domain is powered, else R58 drops it. -/
def action (pd : Nat) (f : Dev → Dev) (d : Dev) : Dev := if d.pd pd then f d else offAccess pd d

/-! ### REFOUT (R28, R72) -/

/-- A step up that powers PD4 is announced (R72). -/
def Dev.hostDue (d : Dev) : Bool := d.ratGet RAT_STATUS.PHASE == 2 && decide (d.rat.announced ≤ 2)

/-- REF_HOLD_FR frames after HOST_PWR_EN fell: REFOUT_EN clears, and PD4 goes off unless a step up that powers it is announced
meanwhile (DEDUCED, assumption log 24). -/
def refStop (d : Dev) : Dev :=
  match d.rat.refDown with
  | some n =>
    if d.rd RAT_HOST_CFG.REF_HOLD_FR ≤ n then
      let d := (d.wrB CLK_CTRL.REFOUT_EN false).ratMod fun r => { r with refDown := none }
      if d.hostDue then d
      else { d.putBitOf RAT_DOM_STATUS.PD_ON 4 false with host := { d.host with released := false } }
    else d
  | none => d

/-- REF_DELAY_FR frames after HOST_PWR_EN rose, its Reset value in the boot that powered PD4, REFOUT_EN is set (R72, R85). -/
def refStart (d : Dev) : Dev :=
  match d.rat.refUp with
  | some n =>
    if (if d.boot.step = 3 then d.clkDue (d.boot.stepClk + 80 * frClk) else decide (d.rd RAT_HOST_CFG.REF_DELAY_FR ≤ n)) then
      let d := (d.wrB CLK_CTRL.REFOUT_EN true).ratMod fun r => { r with refUp := none }
      { d with boot := { d.boot with step := 4 } }
    else d
  | none => d

/-- HOST_PWR_EN changes: the REFOUT count of the other edge is dropped (R72). -/
def hostPower (b : Bool) (d : Dev) : Dev :=
  if d.rat.hostPwr = b then d
  else d.ratMod fun r => { r with hostPwr := b, refUp := if b then some 0 else none, refDown := if b then none else some 0 }

/-- Frame counts of the Ration controller. -/
def ratFrame (d : Dev) : Dev :=
  d.ratMod fun r => { r with refUp := r.refUp.map (· + 1), refDown := r.refDown.map (· + 1),
                             wakeFr := r.wakeFr.map (· + 1) }

/-- Software sets RAT_CTRL.BIV_REQ (R74). -/
def bivReq (d : Dev) : Dev := d.wrB RAT_CTRL.BIV_REQ true

/-- The dying-gasp template as bytes (R67). -/
def gaspTemplate (d : Dev) : Bytes := (List.range 15).flatMap fun k => leBytes 4 (d.rd (RAT_GASP_TPLk.BYTES k))

/-- The template check of R67. -/
def gaspTplOk (t : Bytes) : Bool :=
  byteAt t 12 == 0x88 && byteAt t 13 == 0x09 && byteAt t 14 == 0x03 && byteAt t 17 == 0

/-- The dying-gasp frame: the Dying Gasp flag forced, the FCS appended (R67). -/
def gaspFrame (d : Dev) : Bytes :=
  let t := gaspTemplate d
  let t := patch t 16 [BitVec.ofNat 8 (putBit (byteAt t 16) 1 true)]
  t ++ leBytes 4 (crc32 t)

end Sys2Proof.Machine
end

