-- ==== Sys2Proof/Machine/PmcOps.lean ====
section
/-!
DEFINITION. Machine/PmcOps.lean: packet memory, admission and background work
(spec/10_packet_memory_and_admission.md, R216 to R232).
-/

namespace Sys2Proof.Machine

/-- Channel n. -/
def Dev.ch (d : Dev) (n : Nat) : Chan := d.chan.getD n {}

/-- Change channel n. -/
def Dev.chMod (d : Dev) (n : Nat) (g : Chan → Chan) : Dev := { d with chan := d.chan.modify n g }

/-- Change packet memory's internals. -/
def Dev.pmMod (d : Dev) (g : Pmem → Pmem) : Dev := { d with pm := g d.pm }

/-! ### Cells (R216) -/

/-- Cells of packet memory. -/
def cellCount : Nat := 131072

/-- Cells that L bytes take (R216). -/
def cellsFor (l : Nat) : Nat := (l + 255) / 256

/-- The frame of a wire. -/
def wireFrm : Option Wire → List Frm
  | some w => [w.frm]
  | none => []

/-- Every frame copy held in packet memory. -/
def Dev.held (d : Dev) : List Frm :=
  (d.chan.flatMap fun c => c.queues.flatMap id ++ c.expq ++ wireFrm c.cur ++ wireFrm c.pre) ++
  (d.host.rings.flatMap fun r => r.2.rxq.map (·.frm)) ++ (d.peg.flowq.map (·.2))

/-- The cells of frames in reassembly (R160). -/
def Dev.asmCells (d : Dev) : List Nat :=
  d.chan.flatMap fun c => match c.asm with
    | some a => a.cells
    | none => []

/-- One copy of each frame held. -/
def Dev.frames (d : Dev) : List Frm :=
  d.held.foldl (fun a x => if a.any (fun y => y.id == x.id) then a else a ++ [x]) []

/-- What the Kennel purge has not yet freed (R120). -/
def Dev.purging (d : Dev) : List Purge := d.pm.purge.filter fun p => decide (d.hearth.clk < p.clk)

/-- The cells held by frames, whole or in reassembly, by messages that wait for their ring (R252), or not yet freed by a purge. -/
def Dev.cellsHeld (d : Dev) : List Nat :=
  d.frames.flatMap (·.cells) ++ d.asmCells ++ d.peg.inbox.flatMap (·.cells) ++ d.purging.map (·.cell)

/-- The n lowest cells that no frame holds and that are not retired, searched among the first `fuel` cells from k. -/
def pickCells (used : List Nat) : Nat → Nat → Nat → List Nat
  | 0, _, _ => []
  | fuel + 1, k, n =>
    if n = 0 ∨ cellCount ≤ k then []
    else if used.contains k then pickCells used fuel (k + 1) n
    else k :: pickCells used fuel (k + 1) (n - 1)

/-- Cells for a frame of L bytes that holds some already, if enough are free (R159 check 8, R160). The free-list order is the
model's choice. -/
def Dev.allocMore (d : Dev) (have_ : List Nat) (l : Nat) : Option (List Nat) :=
  let used := d.cellsHeld ++ d.pm.retired ++ have_
  let n := cellsFor l - have_.length
  let cs := pickCells used (used.length + n) 0 n
  if cs.length = n then some (have_ ++ cs) else none

/-- Cells for a frame of L bytes. -/
def Dev.alloc (d : Dev) (l : Nat) : Option (List Nat) := d.allocMore [] l

/-- Cells are written whole: what stood in them is gone, errors too (R216). -/
def writeCells (cs : List Nat) (d : Dev) : Dev :=
  d.pmMod fun p => { p with upsets := p.upsets.filter fun u => !(u.buf == .frame && cs.contains u.cell) }

/-- Cells held by best-effort frames (R227). -/
def Dev.beCells (d : Dev) : Nat :=
  ((d.frames.filter fun x => !x.guar).map fun x => x.cells.length).foldl (· + ·) 0 + (d.purging.filter (·.be)).length

/-- A worn cell that no frame holds is retired, or stays in use beyond 64 (R386). -/
def retireCell (k : Nat) (d : Dev) : Dev :=
  let d := d.pmMod fun p => { p with worn := p.worn.filter (· != k) }
  if d.pm.retired.length < 64 then
    let d := d.pmMod fun p => { p with retired := p.retired ++ [k] }
    ((d.wr SHD_RETIRED.COUNT d.pm.retired.length).wr SHD_RETIRED.LAST k).ev SHD_EVENT.RETIRE
  else d.wrB SHD_RETIRED.OVER true

/-- Retire the worn cells that are free (R386). -/
def retireWorn (d : Dev) : Dev :=
  if d.on SHD_CTRL.RETIRE_EN && !d.pm.worn.isEmpty then
    let held := d.cellsHeld
    (d.pm.worn.filter fun k => !held.contains k).foldl (fun d k => retireCell k d) d
  else d

/-- Publish the cell counts; freed cells lose their poison (R218) and worn ones are retired (R386); the best-effort
watermark (R228). -/
def pmemSync (d : Dev) : Dev :=
  let d := retireWorn (d.pmMod fun p => { p with
    purge := d.purging
    bgLeft := p.bgLeft - 8 * (p.purge.length - d.purging.length) })
  let held := d.cellsHeld
  let be := d.beCells
  let d := d.wr PMC_FREE_CELLS.CELLS (cellCount - d.pm.retired.length - held.length)
  let d := d.wr PMC_BE_CELLS.CELLS be
  let d := d.pmMod fun p => { p with
    poison := p.poison.filter fun k => held.contains k
    upsets := p.upsets.filter fun u => !(u.buf == .frame && p.poison.contains u.cell && !held.contains u.cell)
    eccSeen := p.eccSeen.filter fun i => d.frames.any fun x => x.id == i
    sentIds := p.sentIds.filter fun i => d.frames.any fun x => x.id == i }
  if !d.pm.beXoff && decide (d.rd PMC_BE_WM.HI * 8 ≤ be) then
    (d.ev PMC_EVENT.BE_XOFF).pmMod fun p => { p with beXoff := true }
  else if d.pm.beXoff && decide (be ≤ d.rd PMC_BE_WM.LO * 8) then d.pmMod fun p => { p with beXoff := false }
  else d

/-- The latched GUAR bit of class k of channel n (R225). -/
def Dev.guar (d : Dev) (n k : Nat) : Bool := d.bitOf PMC_GUAR_LATCH.GUAR (8 * n + k)

/-- R227: a best-effort frame of n cells would pass the limit. -/
def Dev.beFull (d : Dev) (n : Nat) : Bool := decide (d.rd PMC_BE_LIMIT.UNITS * 8 < d.beCells + n)

/-- The frames xs of function f, already out of every queue, are purged (R119, R120): each cell that no other frame holds is
free 32 CLK after the one before it, from the CLK after the present one or behind a purge that runs. Each frame counts. -/
def purgeFrames (f : Nat) (xs : List Frm) (d : Dev) : Dev :=
  let held := d.cellsHeld
  let cs := xs.foldl (fun a x => a ++ (x.cells.filter fun k => !held.contains k && !(a.any fun y => y.1 == k)).map
    fun k => (k, !x.guar)) []
  let from_ := (d.purging.map (·.clk)).foldl max (d.hearth.clk + 1)
  let ps := ((List.range cs.length).zip cs).map fun (i, k, be) =>
    ({ clk := from_ + 32 * (i + 1), cell := k, fn := f, be := be } : Purge)
  pmemSync ((d.pmMod fun p => { p with purge := p.purge ++ ps }).sat HIF_KENNEL_DROP.FRAMES xs.length)

/-! ### ECC (R217, R218) -/

/-- Log an error of a cell (R217): its word, syndrome, kind and reader. -/
def eccLog (cell word syn : Nat) (ue scrub : Bool) (d : Dev) : Dev :=
  let d := (d.wr PMC_ECC_LOG.CELL cell).wr PMC_ECC_LOG.WORD word
  let d := (d.wrB PMC_ECC_LOG.UE ue).wrB PMC_ECC_LOG.SRC scrub
  let d := d.wr PMC_ECC_SYN.SYNDROME syn
  if ue then penalty 14 ((d.sat PMC_ECC_UE.COUNT).ev PMC_EVENT.ECC_UE)
  else penalty 13 ((d.sat PMC_ECC_CE.COUNT).ev PMC_EVENT.ECC_CE)

/-- Poison a cell that a frame holds. -/
def poisonCell (cell : Nat) (d : Dev) : Dev :=
  if d.cellsHeld.contains cell && !d.pm.poison.contains cell then
    d.pmMod fun p => { p with poison := p.poison ++ [cell] } else d

/-- A frame holds a poisoned cell. -/
def Dev.poisoned (d : Dev) (x : Frm) : Bool := x.cells.any fun k => d.pm.poison.contains k

/-- A frame is lost to a poisoned cell: counted once, however many copies of it there are (R218). -/
def eccDrop (x : Frm) (d : Dev) : Dev :=
  if d.pm.eccSeen.contains x.id then d
  else (d.sat PMC_ECC_DROP.COUNT).pmMod fun p => { p with eccSeen := p.eccSeen ++ [x.id] }

/-- Errors come into stored words. -/
def upsetsCome (us : List Upset) (d : Dev) : Dev := d.pmMod fun p => { p with upsets := p.upsets ++ us }

/-- Cell k is read (R217): each error that stands in it is logged, a double-bit error poisons it. -/
def cellRead1 (scrub : Bool) (k : Nat) (d : Dev) : Dev :=
  (d.pm.upsets.filter fun u => u.buf == .frame && u.cell == k).foldl (fun d u =>
    let d := eccLog k u.word.val u.syn.toNat u.double scrub d
    if u.double then poisonCell k d else d) d

/-- The cells of a frame are read. -/
def readFrm (x : Frm) (d : Dev) : Dev := if d.pm.upsets.isEmpty then d else x.cells.foldl (fun d k => cellRead1 false k d) d

/-- A buffer that is not a frame's is read and freed (R217, R218): its errors are logged, an uncorrectable one loses it. -/
def bufRead (b : Buf) (d : Dev) : Bool × Dev :=
  let us := d.pm.upsets.filter fun u => u.buf == b
  if us.isEmpty then (false, d)
  else
    let d := us.foldl (fun d u => eccLog u.cell u.word.val u.syn.toNat u.double false d) d
    let d := d.pmMod fun p => { p with upsets := p.upsets.filter fun u => u.buf != b }
    if us.any (·.double) then (true, d.sat PMC_ECC_DROP.COUNT) else (false, d)

/-! ### Refresh (R219) and credits (R221) -/

/-- A refresh slot of bank b is taken by guaranteed work: the refresh is owed; where 8 are owed, one is forced ahead of
everything (R219). -/
def refreshOwe (b : Nat) (d : Dev) : Dev :=
  let n := d.pm.owed.getD b 0 + 1
  let d := d.wr PMC_REF_OWED_MAX.OWED (max (d.rd PMC_REF_OWED_MAX.OWED) n)
  if n < 8 then d.pmMod fun p => { p with owed := p.owed.set b n }
  else penalty 18 (((d.pmMod fun p => { p with owed := p.owed.set b 7 }).sat PMC_REF_FORCED.COUNT).ev PMC_EVENT.REF_FORCED)

/-- Bank b has paid some owed refreshes, and then guaranteed work has taken `taken` of its slots (R219). In self-refresh the
memory refreshes itself. -/
def refreshForced (b paid taken : Nat) (d : Dev) : Dev :=
  if d.pd 2 && !d.on RAT_DOM_STATUS.PMEM_SR then
    let d := d.pmMod fun p => { p with owed := p.owed.set b (p.owed.getD b 0 - paid) }
    (List.range taken).foldl (fun d _ => refreshOwe b d) d
  else d

/-! ### Scrub (R220) -/

/-- Motes of PASS_H hours. -/
def passMt (h : Nat) : Nat := h * 28800000 * frMt

/-- The due time of cell k of the pass in progress. -/
def Dev.scrubDue (d : Dev) (k : Nat) : Nat := d.pm.passT + k * passMt d.pm.passH / cellCount

/-- The scrub runs: enabled, the memory initialised, powered and not in self-refresh. -/
def Dev.scrubRuns (d : Dev) : Bool :=
  d.on PMC_CTRL.SCRUB_EN && d.on PMC_STATUS.INIT_DONE && !d.on RAT_DOM_STATUS.PMEM_SR && d.pd 2

/-- The scrub stands at cell k. -/
def scrubAt (k : Nat) (d : Dev) : Dev := (d.pmMod fun p => { p with scrubPos := k }).wr PMC_SCRUB_STAT.POS k

/-- The scrub starts a pass at cell 0 at era-extended time t. -/
def scrubPass (t : Nat) (d : Dev) : Dev :=
  scrubAt 0 (d.pmMod fun p => { p with passT := t, passH := d.rd PMC_SCRUB_CFG.PASS_H })

/-- The scrub starts afresh (R220). -/
def scrubStart (d : Dev) : Dev := scrubPass d.nowExt d

/-- The end of a pass (R220): a late one is followed at once, another when its time is over. -/
def scrubPassEnd (d : Dev) : Dev :=
  let due := d.pm.passT + passMt d.pm.passH
  let late := decide (due < d.nowExt)
  let d := ((d.evIf late PMC_EVENT.SCRUB_LATE).ev PMC_EVENT.SCRUB_PASS).wrap PMC_SCRUB_STAT.PASSES
  scrubPass (if late then d.nowExt else due) (d.wrB PMC_STATUS.SCRUB_BEHIND false)

/-- A corrected error found by the scrub: the second at one place marks the cell worn (R385). -/
def wearNote (cell word : Nat) (d : Dev) : Dev :=
  if d.pm.wear.contains (cell, word) then
    retireWorn (d.pmMod fun p => { p with worn := if p.worn.contains cell then p.worn else p.worn ++ [cell] })
  else d.pmMod fun p => { p with wear := p.wear.drop (p.wear.length + 1 - 16) ++ [(cell, word)] }

/-- The scrub reads cell k (R220): corrected words are written back, a free cell with a double-bit error is written with
zeros. -/
def scrubRead (k : Nat) (d : Dev) : Dev :=
  let us := d.pm.upsets.filter fun u => u.buf == .frame && u.cell == k
  let d := cellRead1 true k d
  let d := d.pmMod fun p => { p with upsets := p.upsets.filter fun u =>
    !(u.buf == .frame && u.cell == k && (!u.double || !p.poison.contains k)) }
  pmemSync ((us.filter fun u => !u.double).foldl (fun d u => wearNote k u.word.val d) d)

/-- A scrub cell has fallen due: it is read in the next idle slot, and waits where there is none (R220). -/
def scrubCell (us : List Upset) (idle : Bool) (m : Nat) (d : Dev) : Dev :=
  let d := upsetsCome us (atMote m d)
  let k := d.pm.scrubPos
  if d.scrubRuns && decide (d.scrubDue k ≤ d.nowExt) then
    if !idle then d.wrB PMC_STATUS.SCRUB_BEHIND true
    else
      let d := scrubRead k d
      if k + 1 < cellCount then
        (scrubAt (k + 1) d).wrB PMC_STATUS.SCRUB_BEHIND (decide (d.scrubDue (k + 1) ≤ d.nowExt))
      else scrubPassEnd d
  else d

/-- Credits are refilled at a frame event (R221); a purge that runs shows how far it has come; a scrub cell that fell due and
was not read shows the scrub behind (R220). -/
def creditRefill (d : Dev) : Dev :=
  let d := (if d.pm.purge.isEmpty then d else pmemSync d).pmMod fun p => { p with dmaLeft := p.dmaCred, bgLeft := p.bgCred }
  if d.scrubRuns && decide (d.scrubDue d.pm.scrubPos < d.nowExt) then d.wrB PMC_STATUS.SCRUB_BEHIND true else d

/-! ### What a frame that is gone leaves (R184, R213) -/

/-- Offset of word k of exact entry i, or of masked entry i. -/
def entOff (mk : Bool) (i k : Nat) : Nat := if mk then 0x230000 + 64 * i + 4 * k else 0x210000 + 32 * i + 4 * k

/-- Index of the CTRL word, and of ACTION0. -/
def ctrlIdx (mk : Bool) : Nat := if mk then 15 else 7
def actIdx (mk : Bool) : Nat := if mk then 10 else 5

/-- The CTRL word of an entry. -/
def Dev.entCtrl (d : Dev) (mk : Bool) (i : Nat) : Nat := d.word (entOff mk i (ctrlIdx mk))

/-- The HITS counter of entry k (R184); RETIRED is the word after it. -/
def hitsOff (k : Nat) : Nat := 0x238000 + 8 * k

/-- Add one to a 32-bit saturating counter word. -/
def satWord (o n : Nat) (d : Dev) : Dev := d.setWord o (min (d.word o + n) 0xFFFFFFFF)

/-- A frame leaves packet memory: RETIRED counts it when its entry has changed since (R184), and that of its stream
(R213). -/
def retireFrame (x : Frm) (d : Dev) : Dev :=
  let q := x.dec
  let d := if q.hit then
      let mk := decide (4096 ≤ q.index)
      let i := if mk then q.index - 4096 else q.index
      if bits (d.entCtrl mk i) 8 8 = q.gen then d else satWord (hitsOff q.index + 4) 1 d
    else d
  match q.sgen with
  | some g => if bits (d.word (0x280000 + 32 * q.stream + 28)) 8 8 = g then d else satWord (0x290000 + 64 * q.stream + 32) 1 d
  | none => d

/-- A copy of the frame is still held somewhere. -/
def Dev.stillHeld (d : Dev) (x : Frm) : Bool := d.held.any fun y => y.id == x.id

/-- A copy of a frame has left packet memory, sent (to a channel, a host ring or Pegline) or dropped. RETIRED judges a frame of
which some copy was sent once the last has left (R184, R213); the cell counts follow (R160). -/
def leave (sent : Bool) (x : Frm) (d : Dev) : Dev :=
  let sent := sent || d.pm.sentIds.contains x.id
  pmemSync <|
    if d.stillHeld x then
      if sent && !d.pm.sentIds.contains x.id then d.pmMod fun p => { p with sentIds := p.sentIds ++ [x.id] } else d
    else if sent then retireFrame x d else d

/-- DMA work on n cells within the credit uses it up; beyond it the work is best effort (R153, R221, R226). -/
def dmaWork (n : Nat) (d : Dev) : Dev := d.pmMod fun p => { p with dmaLeft := p.dmaLeft - 8 * n }

/-! ### Admission (R222 to R225) -/

/-- Word k of a gate-list window entry e of bank b of channel n (R188). -/
def Dev.gateWord (d : Dev) (n b e k : Nat) : Nat := d.word (0x200000 + n * 0x4000 + b * 0x2000 + 8 * e + 4 * k)

/-- The entries 0 to LEN - 1 of a bank: interval, gates, operation (R188). -/
def Dev.gateList (d : Dev) (n b : Nat) : List (Nat × Nat × Nat) :=
  (List.range (d.rd (CHn_GATE_Bb_LEN.LEN n b))).map fun e =>
    let w := d.gateWord n b e 1
    (d.gateWord n b e 0, bits w 0 8, bits w 8 2)

/-- One cycle laid out as R189 says: (start within the cycle, length, gates, operation) of each entry that runs. -/
def layCycle (cyc : Nat) : Nat → List (Nat × Nat × Nat) → List (Nat × Nat × Nat × Nat)
  | _, [] => []
  | t, (i, g, o) :: es =>
    if cyc ≤ t then []
    else
      let len := if es.isEmpty then cyc - t else min i (cyc - t)
      (t, len, g, o) :: layCycle cyc (t + i) es

/-- Line bytes per frame at a rate code (R223). -/
def rateBytes (r : Nat) : Nat := if r = 0 then 156250 else 390625

/-- Mt of one cycle covered by entries whose gates meet the guaranteed classes. -/
def openMt (lay : List (Nat × Nat × Nat × Nat)) (guar : Nat) : Nat :=
  (lay.map fun (_, len, g, o) => if o ≠ 3 ∧ g &&& guar ≠ 0 then len else 0).foldl (· + ·) 0

/-- The gate term of R223. -/
def gateTerm (cyc openT rate : Nat) : Nat :=
  let w := if cyc < 1048576 then openT * ((1048576 + cyc - 1) / cyc) else openT
  (min w 1048576 * rateBytes rate * 16 + 88080383) / 88080384

/-- GUAR bits of a channel as its registers stand. -/
def Dev.guarBits (d : Dev) (n : Nat) : Nat :=
  (List.range 8).foldl (fun a k => a + if d.on (CHn_TCk_CFG.GUAR n k) then 2 ^ k else 0) 0

/-- The term of channel n with bank b, with given guaranteed classes. -/
def Dev.chTerm (d : Dev) (n b guar : Nat) : Nat :=
  let cyc := d.rd (CHn_GATE_Bb_CYCLE.CYCLE n b)
  gateTerm cyc (openMt (layCycle cyc 0 (d.gateList n b)) guar) (d.rd (CHn_CTRL.RATE n))

/-- The Pegline term of R223 from the payload and path counts of the 64 slots. -/
def pegTerm (slots : List (Nat × Nat)) : Nat :=
  let cost (t : Nat) : Nat := let (p, n) := slots.getD (t % 64) (0, 0); 16 * ((p + 255) / 256) * n
  (List.range 64).foldl (fun a s => max a (cost s + cost (s + 1) + cost (s + 2) + cost (s + 3))) 0

/-- The result of an evaluation (R223). -/
structure Admission where
  terms  : List Nat
  peg    : Nat
  total  : Nat
  limit  : Nat
  passed : Bool
  deriving DecidableEq, Repr

/-- The admission sum: banks gives each channel's bank and guaranteed classes in the evaluated configuration. -/
def admission (banks : List (Option (Nat × Nat))) (slots : List (Nat × Nat)) (d : Dev) : Admission :=
  let terms := (List.range 4).map fun n =>
    match banks.getD n none with
    | some (b, g) => d.chTerm n b g
    | none => 0
  let peg := pegTerm slots
  let total := terms.foldl (· + ·) 0 + peg + 512 + 512 + d.rd DMA_RESV.BANK_SLOTS + d.rd PMC_BG_RESV.SLOTS
  let limit := admitLimit (d.rd PMC_ADMIT_LIMIT.PCT)
  ⟨terms, peg, total, limit, decide (total ≤ limit)⟩

/-- Report an evaluation (R224): source 0 boot, 1 gate commit, 2 Pegline commit, 3 CHECK. -/
def admitReport (a : Admission) (src ch : Nat) (d : Dev) : Dev :=
  let d := d.wr PMC_LAST_SUM.SLOTS a.total
  let d := forN 4 (fun n d => d.wr (PMC_TERM_CHn.SLOTS n) (a.terms.getD n 0)) d
  let d := d.wr PMC_TERM_PEG.SLOTS a.peg
  let d := (d.wr PMC_STATUS.LAST_RESULT (if a.passed then 1 else 2)).wr PMC_STATUS.LAST_SRC src
  let d := d.wr PMC_STATUS.LAST_CH ch
  if a.passed then d.wr PMC_SHORTFALL.SLOTS 0
  else (d.wr PMC_SHORTFALL.SLOTS (a.total - a.limit)).ev PMC_EVENT.OVERBOOK

/-- What a commit that passes takes (R224): the sum, the GUAR bits of the given channels, the credits. -/
def admitTake (a : Admission) (chans : List (Nat × Nat)) (d : Dev) : Dev :=
  let d := d.wr PMC_ADMITTED.SLOTS a.total
  let d := chans.foldl (fun d (n, g) => d.wr PMC_GUAR_LATCH.GUAR (setBits (d.rd PMC_GUAR_LATCH.GUAR) (8 * n) 8 g)) d
  d.pmMod fun p => { p with dmaCred := d.rd DMA_RESV.BANK_SLOTS, bgCred := d.rd PMC_BG_RESV.SLOTS }

/-- The latched GUAR bits of channel n. -/
def Dev.guarLatch (d : Dev) (n : Nat) : Nat := bits (d.rd PMC_GUAR_LATCH.GUAR) (8 * n) 8

/-- The banks of the configuration in force: the operational bank of each gate engine with its latched classes. -/
def Dev.bankNow (d : Dev) (n : Nat) : Option (Nat × Nat) := (d.ch n).ga.oper.map fun b => (b, d.guarLatch n)

/-- The admin bank of channel n (R188): the one neither operational nor pending; with neither
in use, the bank last operational, else BOOT_BANK (assumption log 12). -/
def Dev.adminBank (d : Dev) (n : Nat) : Nat :=
  let g := (d.ch n).ga
  if g.oper = some 0 ∨ g.pend = some 0 then 1
  else if g.oper = some 1 ∨ g.pend = some 1 then 0
  else g.last.getD (d.rd (CHn_GATE_CTRL.BOOT_BANK n))

/-- The evaluated banks with channel n's bank replaced by its admin bank and its GUAR bits as they stand. -/
def Dev.banksWith (d : Dev) (n : Nat) : List (Option (Nat × Nat)) :=
  (List.range 4).map fun k => if k = n then some (d.adminBank n, d.guarBits n) else d.bankNow k

/-- PMC_CTRL.CHECK (R222, R224). -/
def admissionCheck (ch : Nat) (slots : List (Nat × Nat)) (d : Dev) : Dev :=
  let d := d.wr PMC_CTRL.CHECK_CH ch
  let a := admission (d.banksWith ch) slots d
  (admitReport a 3 (if ch < 4 then ch else 0) d).ev PMC_EVENT.CHECK_DONE

end Sys2Proof.Machine
end

