-- ==== Sys2Proof/Machine/HostOps.lean ====
section
/-!
DEFINITION. Machine/HostOps.lean: functions, interrupts, ring assignment, resets of the host interface and the Kennel
(spec/05_host_interface_and_the_kennel.md, R104 to R125).
-/

namespace Sys2Proof.Machine

/-! ### Functions -/

/-- Function f. -/
def Dev.fn (d : Dev) (f : Nat) : Fn := d.host.fns.getD f {}

/-- Change the host interface's internals. -/
def Dev.hostMod (d : Dev) (g : HostIf → HostIf) : Dev := { d with host := g d.host }

/-- Change function f. -/
def Dev.fnMod (d : Dev) (f : Nat) (g : Fn → Fn) : Dev :=
  d.hostMod fun h => { h with fns := h.fns.modify f g }

/-- State of function f (Table 5.6): 0 DISABLED, 1 ACTIVE, 2 KENNEL, 3 HELD. -/
def Dev.fnState (d : Dev) (f : Nat) : Nat :=
  if f = 0 then d.rd HIF_VF_STATE.PF0 else bits (d.rd HIF_VF_STATE.VF) (2 * (f - 1)) 2

/-- Set the state of function f (HIF_VF_STATE). -/
def setFnState (f s : Nat) (d : Dev) : Dev :=
  if f = 0 then d.wr HIF_VF_STATE.PF0 s
  else d.wr HIF_VF_STATE.VF (setBits (d.rd HIF_VF_STATE.VF) (2 * (f - 1)) 2 s)

/-- The epoch of function f. -/
def Dev.epoch (d : Dev) (f : Nat) : Nat := bits (d.rd (HIF_EPOCHk.EPOCH (f / 4))) (8 * (f % 4)) 8

/-- Increment the epoch of function f modulo 256 (R118). -/
def bumpEpoch (f : Nat) (d : Dev) : Dev :=
  let r := HIF_EPOCHk.EPOCH (f / 4)
  d.wr r (setBits (d.rd r) (8 * (f % 4)) 8 (d.epoch f + 1))

/-- HIF_VF_HOLD of VF f. -/
def Dev.holdOf (d : Dev) (f : Nat) : Bool := f != 0 && bit (d.rd HIF_VF_HOLD.HOLD) (f - 1)

/-- VF f is enabled: VF Enable set and its number within NumVFs (Table 5.6). -/
def Dev.vfEnabled (d : Dev) (f : Nat) : Bool :=
  d.on HIF_STATUS.VF_ENABLE && decide (f ≤ d.rd HIF_STATUS.NUMVFS)

/-- Function f issues requests and sends messages: ACTIVE, in D0, Bus Master Enable set, link up (R116, R119, R125). -/
def Dev.fnLive (d : Dev) (f : Nat) : Bool :=
  d.fnState f == 1 && !(d.fn f).d3 && (d.fn f).bme && d.on HIF_STATUS.DL_UP

/-! ### MSI-X (R116) -/

/-- Entry v of an MSI-X table. -/
def Fn.ent (f : Fn) (v : Nat) : MsixEnt := cellRead (fun _ => {}) f.table v

/-- Send the message of vector v of function f, hold it in the PBA, or drop it (R116). -/
def msixSend (f v : Nat) (d : Dev) : Dev :=
  let g := d.fn f
  if g.msixEn && d.fnLive f then
    if g.msixMask || (g.ent v).masked then
      d.fnMod f fun g => { g with pba := if g.pba.contains v then g.pba else g.pba ++ [v] }
    else d.emit (.msix f v (g.ent v).addr (g.ent v).data)
  else d

/-- Send the held messages of function f that are no longer masked. -/
def msixUnmask (f : Nat) (d : Dev) : Dev :=
  let g := d.fn f
  let due := g.pba.filter fun v => !(g.msixMask || (g.ent v).masked)
  if g.msixEn && d.fnLive f then
    let d := d.fnMod f fun g => { g with pba := g.pba.filter fun v => !due.contains v }
    due.foldl (fun d v => msixSend f v d) d
  else d

/-- A write of dword k of MSI-X table entry v of function f. -/
def msixTableWrite (f v k : Nat) (x : Nat) (d : Dev) : Dev :=
  let e := (d.fn f).ent v
  let e := match k with
    | 0 => { e with addr := setBits e.addr 0 32 x }
    | 1 => { e with addr := setBits e.addr 32 32 x }
    | 2 => { e with data := x }
    | _ => { e with masked := bit x 0 }
  msixUnmask f (d.fnMod f fun g => { g with table := cellWrite (fun _ => {}) g.table v e })

/-- PF0 vector of block b (INT_FN0_VEC). -/
def Dev.blockVec (d : Dev) (b : Nat) : Nat := bits (d.rd (INT_FN0_VECk.VEC (b / 4))) (8 * (b % 4)) 8

/-- Block b's event registers changed from 0 to 1 somewhere (R116). -/
def blockEvent (b : Nat) (d : Dev) : Dev :=
  if d.bitOf INT_FN0_STATUS.BLOCK b then d
  else
    let d := d.putBitOf INT_FN0_STATUS.BLOCK b true
    if d.bitOf INT_FN0_MASK.MASK b then d else msixSend 0 (d.blockVec b) d

/-- Hardware sets bit n of VF_STATUS of VF f (R116, R117): 0 DROP, 1 STALL, 2 FLR_DONE, 3 FENCE_SEEN. PF0 has none. -/
def vfEvent (f n : Nat) (d : Dev) : Dev :=
  if f = 0 || bit (d.fn f).vfStatus n then d
  else
    let d := d.fnMod f fun g => { g with vfStatus := putBit g.vfStatus n true }
    if bit (d.fn f).vfMask n then d else msixSend f (d.fn f).vfVec d

/-- INT_FN0_MASK written (f = 0), or VF_INT_MASK of VF f: a mask bit that falls with its status set sends a message
(R116). -/
def intMaskWrite (f x : Nat) (d : Dev) : Dev :=
  if f = 0 then
    let old := d.rd INT_FN0_MASK.MASK
    let d := d.wr INT_FN0_MASK.MASK x
    forN 21 (fun b d =>
      if bit old b && !bit x b && d.bitOf INT_FN0_STATUS.BLOCK b then msixSend 0 (d.blockVec b) d else d) d
  else
    let old := (d.fn f).vfMask
    let d := d.fnMod f fun g => { g with vfMask := x % 16 }
    forN 4 (fun n d =>
      if bit old n && !bit x n && bit (d.fn f).vfStatus n then msixSend f (d.fn f).vfVec d else d) d

/-! ### Rings and their owners (R113, R114) -/

/-- The kind of a global ring: 0 TX, 1 RX, 2 audio output, 3 audio input, 4 compression, 5 Pegline message, 6 mailbox. -/
def ringKind (r : Nat) : Nat :=
  if r < 128 then 0 else if r < 256 then 1 else if r < 320 then 2 else if r < 384 then 3
  else if r < 400 then 4 else if r < 416 then 5 else 6

/-- The first global ring of a kind. -/
def kindBase : Nat → Nat
  | 0 => 0 | 1 => 128 | 2 => 256 | 3 => 320 | 4 => 384 | 5 => 400 | _ => 416

/-- Base and count of a kind that function f holds (R113). -/
def Dev.range (d : Dev) (f k : Nat) : Nat × Nat :=
  match k with
  | 0 | 1 => (d.rd (HIF_FNf_QP.BASE f), d.rd (HIF_FNf_QP.COUNT f))
  | 2 => (d.rd (HIF_FNf_AUD.OUT_BASE f), d.rd (HIF_FNf_AUD.OUT_CNT f))
  | 3 => (d.rd (HIF_FNf_AUD.IN_BASE f), d.rd (HIF_FNf_AUD.IN_CNT f))
  | 4 => (d.rd (HIF_FNf_MISC.CMP_BASE f), d.rd (HIF_FNf_MISC.CMP_CNT f))
  | 5 => (d.rd (HIF_FNf_MISC.PEG_BASE f), d.rd (HIF_FNf_MISC.PEG_CNT f))
  | _ => (f, 1)

/-- The global ring of local index j of a kind of function f, if f holds it. -/
def Dev.ringOf (d : Dev) (f k j : Nat) : Option Nat :=
  let (b, n) := d.range f k
  if j < n then some (kindBase k + b + j) else none

/-- The function that holds a global ring. -/
def Dev.ringFn (d : Dev) (r : Nat) : Option Nat :=
  let k := ringKind r
  let i := r - kindBase k
  (List.range 16).find? fun f => let (b, n) := d.range f k; decide (b ≤ i ∧ i < b + n)

/-- A global ring. -/
def Dev.ring (d : Dev) (r : Nat) : Ring := cellRead (fun _ => {}) d.host.rings r

/-- Replace a global ring. -/
def Dev.setRing (d : Dev) (r : Nat) (x : Ring) : Dev :=
  d.hostMod fun h => { h with rings := cellWrite (fun _ => {}) h.rings r x }

/-- Change a global ring. -/
def Dev.ringMod (d : Dev) (r : Nat) (g : Ring → Ring) : Dev := d.setRing r (g (d.ring r))

/-- Do two ranges of rings share a ring? An empty one shares none. -/
def overlap (a b : Nat × Nat) : Bool := decide (0 < a.2 ∧ 0 < b.2 ∧ a.1 < b.1 + b.2 ∧ b.1 < a.1 + a.2)

/-- Which = 0 QP, 1 AUD, 2 MISC: the kinds whose ranges the register gives. -/
def assignKinds : Nat → List Nat
  | 0 => [0] | 1 => [2, 3] | _ => [4, 5]

/-- The rings of a kind number. -/
def kindCount : Nat → Nat
  | 0 | 1 => 128 | 2 | 3 => 64 | _ => 16

/-- R114: the ranges after a write lie within their kinds, overlap no other function's, and keep the limits of R113. -/
def assignFits (f which : Nat) (d : Dev) : Bool :=
  (assignKinds which).all (fun k =>
    let r := d.range f k
    decide (r.1 + r.2 ≤ kindCount k) &&
      (List.range 16).all (fun g => g == f || !overlap r (d.range g k))) &&
  (f == 0 || (decide ((d.range f 0).2 ≤ 64) && decide ((d.range f 2).2 + (d.range f 3).2 ≤ 64)))

/-- Every ring of a range that lies in only one of two ranges is disabled. -/
def changedOff (d : Dev) (k : Nat) (a b : Nat × Nat) : Bool :=
  (List.range (kindCount k)).all fun i =>
    let ina := decide (a.1 ≤ i ∧ i < a.1 + a.2)
    let inb := decide (b.1 ≤ i ∧ i < b.1 + b.2)
    ina == inb || (if k = 0 then (d.ring i).st == 0 && (d.ring (128 + i)).st == 0
      else (d.ring (kindBase k + i)).st == 0)

/-- The offset of the register that FN_ASSIGN writes. -/
def assignOff (f which : Nat) : Nat := 0x14100 + 0x10 * f + 4 * which

/-- R114: a write of HIF_FNf_QP, AUD or MISC is taken or refused. A write that changes only RD_TAGS is exempt from the
state condition. -/
def fnAssign (src : BusSrc) (f which x : Nat) (d : Dev) : Dev :=
  let off := assignOff f which
  let new := d.setWord off x
  let tagsOnly := which == 2 && d.word off % 2 ^ 24 == x % 2 ^ 24
  let stateOk := tagsOnly ||
    (if f = 0 then (assignKinds which).all fun k => changedOff d k (d.range 0 k) (new.range 0 k)
     else d.fnState f == 0 || d.fnState f == 3)
  if assignFits f which new && stateOk then new
  else (badWr src off d).ev HIF_EVENT.ASSIGN_REFUSED

/-! ### Configuration space (R110, R124) -/

/-- A function's configuration space returns to its defaults (R118). -/
def cfgDefault (f : Nat) (d : Dev) : Dev :=
  let d := d.fnMod f fun g => { g with bme := false, mse := false, relax := true, msixEn := false, msixMask := false,
                                       d3 := false, mps := 128, mrrs := 512, aerUnc := 0, aerCor := 0 }
  if f = 0 then
    (d.hostMod fun h => { h with bar0 := 0, bar2 := 0, vfBar := 0, pageSz := 1, linkCtl := 0, commonCk := false }).wr
      HIF_STATUS.PF0_DSTATE 0
  else d

/-- MSI-X table and PBA return to their reset contents (Table 5.8). -/
def msixClear (f : Nat) (d : Dev) : Dev := d.fnMod f fun g => { g with table := [], pba := [] }

/-- VF registers return to their reset values, except FLR_DONE (R118). -/
def vfRegsClear (f : Nat) (d : Dev) : Dev :=
  d.fnMod f fun g => { g with vfStatus := setBits 0 2 1 (bits g.vfStatus 2 1), vfMask := 15, vfVec := 0 }

/-- HIF_SUBSYS and ASPM_L1 are copied at BOOT_DONE and at the end of a conventional reset (R110, HIF_CTRL). -/
def cfgCopy (d : Dev) : Dev :=
  d.hostMod fun h => { h with subsys := d.word HIF_SUBSYS.addr, aspm := d.on HIF_CTRL.ASPM_L1 }

/-- A dword of configuration space as far as the spec fixes it: fields (lowest bit, width, value); every other bit is free. -/
abbrev CfgWord := List (Nat × Nat × Nat)

/-- The free value x with the fixed fields laid over it. -/
def CfgWord.over (w : CfgWord) (x : Nat) : Nat := w.foldl (fun x (lo, n, v) => setBits x lo n v) (x % 2 ^ 32)

/-- Bytes of a VF aperture: 32 KiB, or the System Page Size where that is larger (R111). -/
def Dev.vfSize (d : Dev) : Nat := if bit d.host.pageSz 4 then 2 ^ 16 else 2 ^ 15

/-- The low dword of a 64-bit, non-prefetchable base address of 2 ^ n bytes (R111). -/
def barLow (n x : Nat) : CfgWord := [(0, 4, 4), (4, n - 4, 0), (n, 32 - n, x / 2 ^ n)]

/-- The capabilities of a function (Table 5.2), in the table's order: the list in configuration space, then the extended. -/
def capList (f : Nat) : List Nat := if f = 0 then [0, 1, 2] else [1, 2]
def extList (f : Nat) : List Nat := if f = 0 then [3, 4, 5] else [3, 4]

/-- Where the capability behind k in a list stands; 0 for none. -/
def capNext (f k : Nat) (l : List Nat) : Nat := ((l.dropWhile (· != k)).tail.head?.map (Config.capAt (f != 0))).getD 0

/-- The first dword of capability k: its ID and the next one's place. -/
def capHead (f k : Nat) : CfgWord :=
  if k ≤ 2 then [(0, 8, [0x01, 0x10, 0x11].getD k 0), (8, 8, capNext f k (capList f))]
  else [(0, 16, [0x0001, 0x000E, 0x0010].getD (k - 3) 0), (20, 12, capNext f k (extList f))]

/-- Dword j of the PCI Express capability (Tables 5.1 and 5.2). -/
def pcieCap (f j : Nat) (d : Dev) : CfgWord :=
  let g := d.fn f
  match j with
  | 0 => capHead f 1 ++ [(20, 4, 0)]
  | 1 => [(0, 3, 2), (5, 1, 1), (15, 1, 1), (28, 1, 1)]
  | 2 => [(4, 1, b2n g.relax), (5, 3, Nat.log2 (g.mps / 128)), (11, 1, 0), (12, 3, Nat.log2 (g.mrrs / 128))]
  | 3 => if f = 0 then [(0, 4, 4), (4, 6, 4), (10, 2, if d.host.aspm then 2 else 0)] ++
      (if d.host.commonCk then [(15, 3, 4)] else []) else []
  | 4 => if f = 0 then [(0, 2, d.host.linkCtl), (6, 1, b2n d.host.commonCk), (16, 4, d.rd HIF_STATUS.SPEED),
      (20, 6, d.rd HIF_STATUS.WIDTH), (28, 1, 1), (29, 1, b2n (d.on HIF_STATUS.DL_UP))] else []
  | 9 => [(0, 4, 3), (6, 4, 0), (11, 1, 0), (12, 2, 0), (16, 2, 3)]
  | 11 => if f = 0 then [(1, 7, 15)] else []
  | _ => []

/-- Dword j of the SR-IOV capability of PF0 (R111, Table 5.2). -/
def sriovCap (j : Nat) (d : Dev) : CfgWord :=
  match j with
  | 0 => capHead 0 5
  | 1 => [(0, 1, 0)]
  | 2 => [(0, 1, b2n (d.on HIF_STATUS.VF_ENABLE))]
  | 3 => [(0, 16, 15), (16, 16, 15)]
  | 4 => [(0, 16, d.rd HIF_STATUS.NUMVFS)]
  | 5 => [(0, 16, 1), (16, 16, 1)]
  | 6 => [(16, 16, 0x04C8)]
  | 7 => [(0, 32, 0x1F)]
  | 8 => [(0, 32, d.host.pageSz)]
  | 9 => barLow (if d.vfSize = 2 ^ 16 then 16 else 15) d.host.vfBar
  | 10 => [(0, 32, d.host.vfBar / 2 ^ 32)]
  | 11 | 12 | 13 | 14 => [(0, 32, 0)]
  | _ => []

/-- Dword j of capability k of function f; none behind its end. -/
def capDword (f k j : Nat) (d : Dev) : Option CfgWord :=
  let g := d.fn f
  match k with
  | 0 => match j with
    | 0 => some (capHead f 0 ++ [(25, 2, 0), (27, 5, 0)])
    | 1 => some [(0, 2, if g.d3 then 3 else 0), (3, 1, 1)]
    | _ => none
  | 1 => if j < 15 then some (pcieCap f j d) else none
  | 2 => match j with
    | 0 => some (capHead f 2 ++ [(16, 11, if f = 0 then 255 else 31), (30, 1, b2n g.msixMask), (31, 1, b2n g.msixEn)])
    | 1 => some [(0, 32, if f = 0 then 0x8002 else 0x5000)]
    | 2 => some [(0, 32, if f = 0 then 0x9002 else 0x6000)]
    | _ => none
  | 3 => match j with
    | 0 => some (capHead f 3)
    | 1 => some [(0, 32, g.aerUnc)]
    | 4 => some [(0, 32, g.aerCor)]
    | _ => if j < 11 then some [] else none
  | 4 => if j = 0 then some (capHead f 4) else if j = 1 then some [] else none
  | _ => if j < 16 then some (sriovCap j d) else none

/-- The header dword of function f at offset o (R110, R111). -/
def headDword (f o : Nat) (d : Dev) : CfgWord :=
  match o with
  | 0x00 => [(0, 32, if f = 0 then 0x04C71F3C else 0xFFFFFFFF)]
  | 0x04 => [(0, 32, 0x100000 + (if (d.fn f).bme then 4 else 0) + (if (d.fn f).mse then 2 else 0))]
  | 0x08 => [(0, 32, 0x028000B1)]
  | 0x0C => if f = 0 then [(16, 8, 0)] else []
  | 0x10 => if f = 0 then barLow 22 d.host.bar0 else []
  | 0x14 => if f = 0 then [(0, 32, d.host.bar0 / 2 ^ 32)] else []
  | 0x18 => if f = 0 then barLow 16 d.host.bar2 else []
  | 0x1C => if f = 0 then [(0, 32, d.host.bar2 / 2 ^ 32)] else []
  | 0x20 | 0x24 | 0x30 => if f = 0 then [(0, 32, 0)] else []
  | 0x2C => [(0, 32, d.host.subsys)]
  | 0x34 => [(0, 8, ((capList f).head?.map (Config.capAt (f != 0))).getD 0)]
  | 0x3C => [(8, 8, 0)]
  | _ => []

/-- The dword of function f's configuration space at byte offset o: the header, or the capability that stands there. -/
def cfgDword (f o : Nat) (d : Dev) : CfgWord :=
  if o < 0x40 then headDword f o d
  else
    let at_ (k : Nat) : Option CfgWord :=
      let b := Config.capAt (f != 0) k
      if b ≤ o ∧ o % 4 = 0 then capDword f k ((o - b) / 4) d else none
    ((capList f ++ extList f).findSome? at_).getD []

/-- A read of configuration space (R110, Table 5.2); what the spec does not fix reads as a free value (assumption logs 3
and 66). -/
def cfgRead (f o : Nat) (d : Dev) : Dev :=
  let w := cfgDword f o d
  let (x, d) := d.draw
  d.emit (.read (BitVec.ofNat 32 (w.over x)))

/-- A Configuration Request to function f: retry status before BOOT_DONE (R88, R108), Unsupported Request where the VF is not
enabled (R110, assumption log 66), else g. -/
def cfgGate (f : Nat) (g : Dev → Dev) (d : Dev) : Dev :=
  if !d.booted then (d.wrB HIF_STATUS.CRS true).emit .cfgRetry
  else if d.fnState f = 0 then (d.sat HIF_UR_CNT.COUNT).emit .unsupported
  else g d

/-- A write of a base address: 0 BAR0/1, 1 BAR2/3, 2 the VF BAR0/1; a VF has none of its own (R111). -/
def barWrite (f k x : Nat) (d : Dev) : Dev :=
  if f ≠ 0 then d
  else match k with
    | 0 => d.hostMod fun h => { h with bar0 := x / 2 ^ 22 * 2 ^ 22 }
    | 1 => d.hostMod fun h => { h with bar2 := x / 2 ^ 16 * 2 ^ 16 }
    | _ => d.hostMod fun h => { h with vfBar := x / 2 ^ 15 * 2 ^ 15 }

/-- What a Configuration Request does. -/
def cfgTake (f : Nat) (q : CfgReq) (d : Dev) : Dev :=
  match q with
  | .read o => cfgRead f o d
  | .command mse bme => d.fnMod f fun g => { g with mse := mse, bme := bme }
  | .msix en mask => msixUnmask f (d.fnMod f fun g => { g with msixEn := en, msixMask := mask })
  | .devctl mps mrrs relax => d.fnMod f fun g => { g with mps := 128 * 2 ^ mps.val, mrrs := 128 * 2 ^ mrrs.val, relax := relax }
  | .linkctl aspm common => if f = 0 then d.hostMod fun h => { h with linkCtl := aspm, commonCk := common } else d
  | .bar k x => barWrite f k x.toNat d
  | .pageSize x => if f = 0 then d.hostMod fun h => { h with pageSz := x.toNat } else d
  | .aer unc cor => d.fnMod f fun g => { g with aerUnc := g.aerUnc &&& (2 ^ 32 - 1 ^^^ unc.toNat),
                                                aerCor := g.aerCor &&& (2 ^ 32 - 1 ^^^ cor.toNat) }

/-- A configuration request, with retry status during boot (R88, R108). -/
def configRequest (f : Nat) (q : CfgReq) (d : Dev) : Dev := cfgGate f (cfgTake f q) d

/-- An advisory non-fatal error of function f (R106): in AER's status registers, and reported. -/
def aerAdvise (f : Nat) (poisoned : Bool) (d : Dev) : Dev :=
  (d.fnMod f fun g => { g with aerUnc := putBit g.aerUnc (if poisoned then 12 else 14) true
                               aerCor := putBit g.aerCor 13 true }).emit (.aer f poisoned)

/-! ### Reads and orphans -/

/-- Publish the read and tag counts (HIF_TAGS, HIF_DESC_INFLIGHT). -/
def tagSync (d : Dev) : Dev :=
  let rs := d.host.reads
  let infl := d.host.rings.foldl (fun a (r : Nat × Ring) => a + r.2.taken.length) 0
  ((d.wr HIF_TAGS.READS_OUT rs.length).wr HIF_TAGS.ORPHANS (rs.filter (·.orphan)).length).wr HIF_DESC_INFLIGHT.COUNT infl

/-- R121: every outstanding read of function f becomes an orphan; payload reads and writes not yet issued are dropped. -/
def orphanReads (f : Nat) (d : Dev) : Dev :=
  let mine (r : Nat) : Bool := d.ringFn r == some f
  tagSync <| d.hostMod fun h => { h with
    reads := h.reads.map fun r => if r.fn = f then { r with orphan := true } else r
    wants := h.wants.filter fun w => !mine w.ring
    outq := h.outq.filter fun w => w.fn != f }

/-! ### The Kennel (R118 to R122) -/

/-- CONS (R126): the descriptors consumed, which are those returned and those begun behind them. A cyclic ring gives none
back. -/
def Ring.consumed (x : Ring) : Nat :=
  if x.cyclic then x.cons else (x.cons + (x.taken.takeWhile (·.begun)).length) % 65536

/-- A ring of a Kennel function: disabled without write-back; counts are kept for the set-up that follows (R119, R150). -/
def Ring.off (r : Ring) : Ring := { r with st := 0, taken := [], rxq := [], notOwn := false, tagWait := false,
                                           msgWait := false, fresh := true, cons := r.consumed }

/-- Rings that function f holds, its mailbox among them. -/
def Dev.ringsOf (d : Dev) (f : Nat) : List Nat := (d.host.rings.map (·.1)).filter fun r => d.ringFn r == some f

/-- A frame belongs to function f. -/
def Frm.of (f : Nat) (x : Frm) : Bool :=
  match x.fn with
  | some (g, _) => g == f
  | none => false

/-- Take the frames of function f out of the queues of every channel and give them to the purge (R119); a frame on the wire,
a preempted one among them, completes. -/
def purgeQueues (f : Nat) (d : Dev) : Dev :=
  let gone := d.chan.flatMap fun c => c.queues.flatMap fun q => q.filter (Frm.of f)
  purgeFrames f gone { d with chan := d.chan.map fun (c : Chan) =>
    { c with queues := c.queues.map fun (q : List Frm) => q.filter fun x => !x.of f } }

/-- Disable the rings of function f and purge the frames that waited for them (R119). -/
def purgeRings (f : Nat) (d : Dev) : Dev :=
  let rs := d.ringsOf f
  let gone := rs.flatMap fun r => (d.ring r).rxq.map (·.frm)
  purgeFrames f gone (rs.foldl (fun d r => d.ringMod r Ring.off) d)

/-- Messages left after those of rings that `mine` names are gone: the first behind a gap in a destination's numbers carries
SYN, so that another function's message is not refused (R122, R250, R251); with the destinations whose gap is still open. -/
def msgsWithout (mine : List Nat) : List PegMsg → List Nat → List PegMsg × List Nat
  | [], gap => ([], gap)
  | m :: ms, gap =>
    if mine.contains m.ring then msgsWithout mine ms (m.dest :: gap)
    else
      let (rest, g) := msgsWithout mine ms (gap.filter (· != m.dest))
      ({ m with syn := m.syn || gap.contains m.dest } :: rest, g)

/-- Remove the flow frames of function f and the Pegline messages of its rings (R119); a gap that this leaves in the numbers to
a destination is bridged by SYN (assumption log 66). -/
def purgePeg (f : Nat) (mine : List Nat) (d : Dev) : Dev :=
  let gone := (d.peg.flowq.filter fun x => x.2.of f).map (·.2)
  let p := d.peg
  let (msgs, gap) := msgsWithout mine p.msgs []
  purgeFrames f gone { d with peg := { p with
      flowq := p.flowq.filter fun x => !x.2.of f
      segOff := p.segOff.filter fun (s : Nat × Nat) => !((p.flowq.find? fun (x : Nat × Frm) => x.1 == s.1).any fun (x : Nat × Frm) => x.2.of f)
      msgs := msgs
      synDue := gap.foldl (fun a n => a.set n true) p.synDue
      inbox := p.inbox.filter fun m => !mine.contains m.ring } }

/-- Entry of ACTIVE function f into the Kennel with a cause (R118, R119). -/
def kennelOne (f cause : Nat) (all : Bool) (d : Dev) : Dev :=
  if d.fnState f = 1 then
    let mine := d.ringsOf f
    let d := setFnState f 2 (bumpEpoch f d)
    let d := vfRegsClear f (msixClear f (if f = 0 ∧ cause = 5 then d else cfgDefault f d))
    let d := purgeRings f (purgeQueues f (orphanReads f d))
    let d := d.fnMod f fun g => { g with mbxLo := none, last := none, kT0 := d.hearth.clk, kCause := cause, kAll := all }
    tagSync (cmpKennel (fun r => mine.contains r) (purgePeg f mine d))
  else d

/-- A cause for one function (Table 5.6). -/
def kennelCause (f cause : Nat) (d : Dev) : Dev :=
  if d.fnState f = 1 ∨ d.fnState f = 2 then kennelOne f cause false (d.sat HIF_KENNEL_CNT.CAUSES) else d

/-- A cause for all functions (R118): counted once. -/
def kennelAll (cause : Nat) (d : Dev) : Dev :=
  forN 16 (fun f d => kennelOne f cause true d) (d.sat HIF_KENNEL_CNT.CAUSES)

/-- VF Enable is cleared (Table 5.6): every ACTIVE VF enters the Kennel, a HELD one is DISABLED. -/
def vfEnableOff (cause : Nat) (all : Bool) (d : Dev) : Dev :=
  let was := d.on HIF_STATUS.VF_ENABLE
  let d := (d.wrB HIF_STATUS.VF_ENABLE false).wr HIF_STATUS.NUMVFS 0
  let d := d.evIf was HIF_EVENT.VF_ENABLE_CHG
  forN 15 (fun k d =>
    let f := k + 1
    if d.fnState f = 3 then setFnState f 0 d else kennelOne f cause all d) d

/-- INT_FN0_MASK and INT_FN0_VEC return to their reset values (Table 5.8). -/
def intReset (d : Dev) : Dev :=
  forN 6 (fun k d => d.wr (INT_FN0_VECk.VEC k) 0) (d.wr INT_FN0_MASK.MASK 0x1FFFFF)

/-- MSI-X tables and VF interrupt registers of every function (Table 5.8). -/
def allFnClear (d : Dev) : Dev := forN 16 (fun f d => vfRegsClear f (msixClear f d)) d

/-- The link goes down: events and status. -/
def linkOff (d : Dev) : Dev :=
  let up := d.on HIF_STATUS.DL_UP
  (((d.wrB HIF_STATUS.DL_UP false).wr HIF_STATUS.SPEED 0).wr HIF_STATUS.WIDTH 0).evIf up HIF_EVENT.LINK_DOWN

/-- A conventional reset of the host interface (R109, Table 5.8). -/
def convReset (d : Dev) : Dev :=
  let d := linkOff d
  let d := kennelAll 4 d
  let d := vfEnableOff 4 true d
  intReset (allFnClear (cfgDefault 0 d))

/-- PERST_N asserted (R109). -/
def perstAssert (d : Dev) : Dev :=
  let d := d.hostMod fun h => { h with perstLow := true }
  if d.pd 4 && !d.on HIF_STATUS.PERST then
    convReset (((d.wrB HIF_STATUS.PERST true).ev HIF_EVENT.PERST).hostMod fun h => { h with released := false })
  else d

/-- The release of PERST_N is seen (R107): the conventional reset ends; too early without REFOUT_READY. -/
def perstSeen (d : Dev) : Dev :=
  let d := cfgCopy ((d.wrB HIF_STATUS.PERST false).hostMod fun h => { h with released := true })
  d.evIf (!d.on HIF_STATUS.REFOUT_READY) HIF_EVENT.PERST_EARLY

/-- PERST_N released (R107): read only while PD4 is powered. -/
def perstRelease (d : Dev) : Dev :=
  let d := d.hostMod fun h => { h with perstLow := false }
  if d.pd 4 && d.on HIF_STATUS.PERST then perstSeen d else d

/-- PD4 powers and PERST_N is read: released, the release is seen now; asserted, that is (R107, R109). -/
def pd4On (d : Dev) : Dev := if d.host.perstLow then perstAssert d else perstSeen d

/-- REFOUT has run 8 fr without a stop (R107). -/
def refoutReady (d : Dev) : Dev :=
  if d.on CLK_STATUS.REFOUT_ON && decide (8 ≤ d.host.refFr) then d.wrB HIF_STATUS.REFOUT_READY true else d

/-- REFOUT stops (R28, R109): the link goes down, which is a conventional reset. -/
def refoutLost (d : Dev) : Dev :=
  let d := (d.wrB HIF_STATUS.REFOUT_READY false).hostMod fun h => { h with refFr := 0 }
  if d.on HIF_STATUS.DL_UP then cfgCopy (convReset d) else d

/-- The link trains and the data link comes up (R108): code s for 2.5 to 16 GT/s, w lanes. -/
def hifLinkUp (s w : Nat) (d : Dev) : Dev :=
  if d.pd 4 && !d.on HIF_STATUS.PERST && d.on HIF_STATUS.REFOUT_READY && d.on HIF_CTRL.LINK_EN && !d.on HIF_STATUS.DL_UP then
    let d := d.wrB HIF_STATUS.DL_UP true
    let d := d.wr HIF_STATUS.SPEED (min s (d.rd HIF_CTRL.MAX_SPEED + 1))
    (d.wr HIF_STATUS.WIDTH (min w (d.rd HIF_CTRL.MAX_WIDTH))).ev HIF_EVENT.LINK_UP
  else d

/-- A link-down (R109). -/
def hifLinkDown (d : Dev) : Dev := if d.on HIF_STATUS.DL_UP then cfgCopy (convReset d) else d

/-- A hot reset (R109). -/
def hotReset (d : Dev) : Dev :=
  if d.on HIF_STATUS.DL_UP then cfgCopy (convReset (d.ev HIF_EVENT.HOT_RESET)) else d

/-- HIF_CTRL.LINK_EN written from 1 to 0 (R109). -/
def linkEnClear (d : Dev) : Dev :=
  let d := d.wrB HIF_CTRL.LINK_EN false
  if d.on HIF_STATUS.DL_UP then cfgCopy (convReset d) else d

/-- FLR of function f (R118, Table 5.6, Table 5.8). -/
def fnReset (f : Nat) (d : Dev) : Dev :=
  if f = 0 then
    let d := kennelAll 3 (d.ev HIF_EVENT.PF_FLR)
    let d := vfEnableOff 3 true d
    intReset (allFnClear (cfgDefault 0 d))
  else if d.fnState f = 3 then vfEvent f 2 (cfgDefault f (d.ev HIF_EVENT.VF_FLR))
  else if d.fnState f = 0 then d
  else kennelCause f 0 (d.ev HIF_EVENT.VF_FLR)

/-- A VF becomes ACTIVE, or HELD where it is held (Table 5.6). -/
def vfOn (f : Nat) (d : Dev) : Dev :=
  if d.fnState f = 0 then
    if d.holdOf f then setFnState f 3 d
    else ((d.ringsOf f).foldl (fun d r => d.ringMod r Ring.off) (setFnState f 1 (cfgDefault f d)))
  else d

/-- SR-IOV VF Enable is set with NumVFs (Table 5.6). -/
def vfEnable (num : Nat) (d : Dev) : Dev :=
  let num := min num 15
  let chg := !d.on HIF_STATUS.VF_ENABLE || d.rd HIF_STATUS.NUMVFS != num
  let d := ((d.wrB HIF_STATUS.VF_ENABLE true).wr HIF_STATUS.NUMVFS num).evIf chg HIF_EVENT.VF_ENABLE_CHG
  forN 15 (fun k d => if k + 1 ≤ num then vfOn (k + 1) d else d) d

/-- SR-IOV VF Enable is cleared: no Kennel of all functions, so FN names each VF (DESIGN CHOICE, assumption log 66). -/
def vfEnableClear (d : Dev) : Dev :=
  if d.on HIF_STATUS.VF_ENABLE then vfEnableOff 2 false (d.sat HIF_KENNEL_CNT.CAUSES) else d

/-- HIF_VF_HOLD bit f set (Table 5.6). -/
def vfHoldSet (f : Nat) (d : Dev) : Dev :=
  if f = 0 then d
  else
    let was := d.holdOf f
    let d := d.putBitOf HIF_VF_HOLD.HOLD (f - 1) true
    if was then d else kennelCause f 1 d

/-- HIF_VF_HOLD bit f cleared (Table 5.6). -/
def vfHoldClear (f : Nat) (d : Dev) : Dev :=
  if f = 0 then d
  else
    let d := d.putBitOf HIF_VF_HOLD.HOLD (f - 1) false
    if d.fnState f = 3 then setFnState f (if d.vfEnabled f then 1 else 0) d else d

/-- A frame of function f is on some wire, or was preempted there (R119). -/
def wireHolds (f : Nat) (d : Dev) : Bool := d.chan.any fun c => (wireFrm c.cur ++ wireFrm c.pre).any (Frm.of f)

/-- The CLK at which the Kennel of function f ends if no wire and no job holds it: the CLK after the last step (R120). -/
def Dev.kennelEnd (d : Dev) (f : Nat) : Nat :=
  ((d.pm.purge.filter fun p => p.fn == f).map (·.clk)).foldl max ((d.fn f).kT0 + 1) + 1

/-- The last step of Table 5.5 has completed (R120): the purge, the frame on the wire and a running job have ended. -/
def kennelDone (f m : Nat) (d : Dev) : Dev :=
  let d := atMote m d
  if d.fnState f = 2 && decide (d.kennelEnd f ≤ d.hearth.clk) && !wireHolds f d &&
     !d.cmpDraining (fun r => d.ringFn r == some f) then
    let d := pmemSync d
    let g := d.fn f
    let d := d.wr HIF_KENNEL_STAT.FN (if g.kAll then 0 else f)
    let d := d.wr HIF_KENNEL_STAT.CAUSE g.kCause
    let d := d.wr HIF_KENNEL_STAT.FR (min ((d.hearth.clk - g.kT0 + 65535) / 65536) 4095)
    let d := setFnState f (if d.holdOf f then 3 else if f != 0 && !d.vfEnabled f then 0 else 1) d
    vfEvent f 2 (d.ev HIF_EVENT.KENNEL_DONE)
  else d

/-- A function moves between D0 and D3hot (R125). -/
def dstateChange (f : Nat) (d3 : Bool) (d : Dev) : Dev :=
  if (d.fn f).d3 = d3 then d
  else
    let d := (d.fnMod f fun g => { g with d3 := d3 }).ev HIF_EVENT.DSTATE_CHG
    if f = 0 then d.wr HIF_STATUS.PF0_DSTATE (if d3 then 3 else 0) else d

/-- The aperture of VF f answers with Unsupported Request: Memory Space Enable 0, or held as if it were; a VF that is not
enabled has none (R112, Table 5.6). -/
def Dev.closedVf (d : Dev) (f : Nat) : Bool :=
  f != 0 && (!(d.fn f).mse || d.fnState f == 3 || d.fnState f == 0)

/-- The function's aperture works: ACTIVE with Memory Space Enable 1 (Table 5.6, R112). -/
def Dev.aperture (d : Dev) (f : Nat) : Bool := d.fnState f == 1 && (d.fn f).mse

/-- A request to the aperture of VF f (R112, Table 5.6): Unsupported Request where it is closed; nothing before BOOT_DONE
(R88). -/
def unsupportedRequest (f : Nat) (d : Dev) : Dev :=
  if d.booted && d.closedVf f then (d.sat HIF_UR_CNT.COUNT).emit .unsupported else d

/-- Host-side frame counts (R107). -/
def hostFrame (d : Dev) : Dev :=
  if d.on CLK_STATUS.REFOUT_ON then d.hostMod fun h => { h with refFr := h.refFr + 1 } else d

/-- Copies of VF registers in the INT block (INT_VF_SUM, INT_VF_VIEW). -/
def vfViews (d : Dev) : Dev :=
  forN 15 (fun k d =>
    let g := d.fn (k + 1)
    let d := d.wr (INT_VF_VIEWf.STATUS k) g.vfStatus
    let d := d.wr (INT_VF_VIEWf.MASK k) g.vfMask
    d.putBitOf INT_VF_SUM.PENDING k ((List.range 4).any fun n => bit g.vfStatus n && !bit g.vfMask n)) d

end Sys2Proof.Machine
end

