-- ==== Sys2Proof/Machine/RingOps.lean ====
section
/-!
DEFINITION. Machine/RingOps.lean: descriptor rings, doorbells, fetch, write-back, messages and the receive side of host
rings (spec/06_descriptor_rings_and_dma.md, R126 to R144, R150).
-/

namespace Sys2Proof.Machine

/-! ### Descriptors -/

/-- Dword k of a descriptor. -/
def Desc.dw (x : Desc) (k : Nat) : Nat := x.w.getD k 0

/-- Set bits lo to lo + n - 1 of dword k. -/
def Desc.put (x : Desc) (k lo n v : Nat) : Desc := { x with w := x.w.set k (setBits (x.dw k) lo n v) }

/-- The buffer address (dwords 0 and 1). -/
def Desc.addr (x : Desc) : Nat := x.dw 0 + x.dw 1 * 2 ^ 32

/-- Finish a descriptor with a status code (Table 6.2): its write-back fields are written whole, 0 where there is nothing to
say (R133). `ch` is the egress channel of a TX descriptor (Table 6.3). -/
def Desc.finish (status ch : Nat) (x : Desc) : Desc :=
  { x with w := [x.dw 0, x.dw 1, x.dw 2, x.dw 3, 0, 0, status + ch * 2 ^ 8, x.dw 7], begun := true, done := true }

/-- Descriptors that a ring of SIZE holds (R126). -/
def ringLen (size : Nat) : Nat := 2 ^ (6 + size)

/-- The host address of the descriptor for count c (R126). -/
def Ring.at (r : Ring) (c : Nat) : Nat := r.base + c % ringLen r.size * 32

/-- The first dword that hardware writes back (Tables 6.3 to 6.8): 3 for receive formats, else 4. -/
def wbFirst (kind : Nat) (dir : Bool) : Nat := if kind = 1 ∨ (kind = 5 ∧ dir) then 3 else 4

/-- Little-endian bytes of dwords a to b - 1. -/
def Desc.bytes (x : Desc) (a b : Nat) : Bytes := (List.range (b - a)).flatMap fun i => leBytes 4 (x.dw (a + i))

/-- A write to the memory of function f: suppressed in the Kennel (R119), and not issued while the function issues no request
(R125). -/
def hostWrite (f addr : Nat) (bs : Bytes) (relaxed : Bool) (d : Dev) : Dev :=
  if d.fnLive f then d.emit (.hostWrite f addr bs (relaxed && (d.fn f).relax)) else d

/-- The pieces of len bytes at addr: (address, offset, length), of at most mx bytes, none crossing 4 KiB (Table 5.1, R151). -/
def reqChunks (mx : Nat) : Nat → Nat → Nat → Nat → List (Nat × Nat × Nat)
  | 0, _, _, _ => []
  | fuel + 1, addr, off, len =>
    if len = 0 then []
    else
      let n := min len (min mx (4096 - addr % 4096))
      (addr, off, n) :: reqChunks mx fuel (addr + n) (off + n) (len - n)

/-- A payload write of function f, in pieces of at most Max Payload Size (Table 5.1). -/
def payWrite (f addr : Nat) (bs : Bytes) (relaxed : Bool) (d : Dev) : Dev :=
  (reqChunks (max 1 (min (d.fn f).mps 512)) (bs.length + 1) addr 0 bs.length).foldl
    (fun d (a, o, n) => hostWrite f a (slice bs o n) relaxed d) d

/-- The request source of a ring's reads, or of its writes, where that source paces it (Table 6.10). -/
def paceSource (write : Bool) (r : Nat) : Option Nat :=
  match ringKind r with
  | 4 => some (if write then 0x13 else 0x12)
  | 5 => some (if write then 0x15 else 0x14)
  | _ => none

/-- An enabled line in force serves a source (R150, R151). -/
def Dev.prqFor (d : Dev) (src : Nat) : Bool := d.host.prqMap.any fun m => bits m 0 6 == src && bit m 9

/-- The reads, or the writes, of ring r are paced by a request line (R151). -/
def Dev.paced (d : Dev) (write : Bool) (r : Nat) : Bool :=
  match paceSource write r with
  | some s => d.prqFor s
  | none => false

/-- A payload write for ring r: it waits while its function issues no request (R125) or a line paces it (R151), and behind
earlier writes of its ring. -/
def hostOut (r f addr : Nat) (bs : Bytes) (d : Dev) : Dev :=
  if d.fnState f = 1 ∧ !bs.isEmpty ∧ (!d.fnLive f ∨ d.paced true r ∨ d.host.outq.any fun w => w.ring == r) then
    d.hostMod fun h => { h with outq := h.outq ++ [{ ring := r, fn := f, addr := addr, bs := bs }] }
  else payWrite f addr bs true d

/-- Writes of ring r wait. -/
def Dev.outWaits (d : Dev) (r : Nat) : Bool := d.host.outq.any fun w => w.ring == r

/-! ### Messages (R135) -/

/-- The coalescing gap in mt. -/
def Ring.gap (r : Ring) : Nat := r.coal * 2048 * 16

/-- A message of ring r falls due (R135). -/
def ringMsg (r : Nat) (d : Dev) : Dev :=
  let x := d.ring r
  match d.ringFn r with
  | none => d
  | some f =>
    match x.msgAt with
    | some t =>
      if x.coal ≠ 0 ∧ d.nowExt < t + x.gap then d.setRing r { x with msgWait := true }
      else msixSend f x.vec (d.setRing r { x with msgAt := some d.nowExt, msgWait := false })
    | none => msixSend f x.vec (d.setRing r { x with msgAt := some d.nowExt, msgWait := false })

/-- The coalescing gap ends: the merged message is sent (R135). -/
def coalExpiry (r m : Nat) (d : Dev) : Dev :=
  let d := atMote m d
  let x := d.ring r
  match x.msgAt with
  | some t =>
    if x.msgWait ∧ t + x.gap ≤ d.nowExt then
      match d.ringFn r with
      | some f => msixSend f x.vec (d.setRing r { x with msgAt := some d.nowExt, msgWait := false })
      | none => d
    else d
  | none => d

/-! ### Return (R133, R134) -/

/-- Return every finished descriptor at the front of the ring: all write-back fields first, then the dword 7s in ring
order, then a message for each that asks for one. The ring waits while its function issues no request (R125) and behind its
payload writes (R105). -/
def retire (r : Nat) (d : Dev) : Dev :=
  let x := d.ring r
  match d.ringFn r with
  | none => d
  | some f =>
    let fin := x.taken.takeWhile (·.done)
    if fin.isEmpty || (d.fnState f == 1 && !d.fnLive f) || d.outWaits r then d
    else
      let a := wbFirst (ringKind r) x.dir
      let idx := (List.range fin.length).zip fin
      let d := idx.foldl (fun d (i, y) => hostWrite f (x.at (x.cons + i) + 4 * a) (y.bytes a 7) false d) d
      let d := idx.foldl (fun d (i, y) =>
        hostWrite f (x.at (x.cons + i) + 28) (leBytes 4 (setBits (y.dw 7) 31 1 0)) false d) d
      let d := d.setRing r { x with taken := x.taken.drop fin.length, cons := (x.cons + fin.length) % 65536 }
      let d := (fin.filter fun y => bit (y.dw 7) 30).foldl (fun d _ => ringMsg r d) d
      tagSync d

/-- Finish the n descriptors from count c of a ring with a status and, for a TX ring, an egress channel, and return what is
at the front. -/
def finishOn (ch r c n status : Nat) (d : Dev) : Dev :=
  let x := d.ring r
  let o := (c + 65536 - x.cons) % 65536
  retire r (d.setRing r { x with taken :=
    ((List.range x.taken.length).zip x.taken).map fun (i, y) => if o ≤ i ∧ i < o + n then y.finish status ch else y })

/-- The egress channel of a TX ring that names one (CFG2 DEST); else 0 (assumption log 67). -/
def Ring.chan (x : Ring) : Nat := x.dest - 1

/-- The same, with the channel that the ring names. -/
def finishRun (r c n status : Nat) (d : Dev) : Dev := finishOn (d.ring r).chan r c n status d

/-- What is left to read for the descriptors of ring r whose counts `of` names is withdrawn: reads not issued, and the data
of those on the way. -/
def withdraw (r : Nat) (of : Nat → Bool) (d : Dev) : Dev :=
  d.hostMod fun h => { h with
    wants := h.wants.filter fun w => !(w.ring == r && of w.cnt)
    reads := h.reads.map fun x => match x.use with
      | .pay q c _ _ => if q = r ∧ of c then { x with use := .void } else x
      | _ => x }

/-! ### Read issue (R115, R130, R132) -/

/-- The read quota of a function: 0 means 256 (HIF_FNf_MISC). -/
def Dev.rdQuota (d : Dev) (f : Nat) : Nat := let q := d.rd (HIF_FNf_MISC.RD_TAGS f); if q = 0 then 256 else q

/-- A read tag is free within the quota and the device-wide limit (R115). -/
def Dev.tagFree (d : Dev) (f : Nat) : Bool :=
  decide (d.host.reads.length < 256) && decide ((d.host.reads.filter fun r => r.fn == f).length < d.rdQuota f)

/-- The lowest tag not in use. -/
def Dev.newTag (d : Dev) : Nat :=
  ((List.range 257).find? fun t => !(d.host.reads.any fun r => r.tag == t)).getD 0

/-- Issue a host read for function f. -/
def issue (f addr len : Nat) (u : Use) (d : Dev) : Dev :=
  let t := d.newTag
  let d := d.hostMod fun h => { h with reads := h.reads ++ [{ tag := t, fn := f, epoch := d.epoch f, use := u }] }
  tagSync (d.emit (.memRead f t addr len))

/-- Descriptors in use or on the way for the functions that p names (R132). -/
def Dev.dtags (d : Dev) (p : Nat → Bool) : Nat :=
  ((d.host.rings.filter fun r => (d.ringFn r.1).any p).map fun r => r.2.taken.length).foldl (· + ·) 0 +
  (d.host.reads.map fun r => match r.use with
    | .desc _ n => if p r.fn && !r.orphan then n else 0
    | _ => 0).foldl (· + ·) 0

/-- Descriptor tags free for function f: within its quota and the device's 32,768 (R132). -/
def Dev.dtagRoom (d : Dev) (f : Nat) : Nat :=
  min (d.rd (DMA_FNf_DTAGS.QUOTA f) - d.dtags (· == f)) (32768 - d.dtags fun _ => true)

/-- Descriptors between CONS and PROD that have not been fetched (R126, R130). -/
def Ring.toFetch (x : Ring) : Nat :=
  if x.cyclic then x.cycM1 + 1 - x.taken.length
  else (x.prod + 65536 - x.consumed) % 65536 - (x.taken.length - (x.taken.takeWhile (·.begun)).length)

/-- A descriptor read of the ring is outstanding. -/
def Dev.fetching (d : Dev) (r : Nat) : Bool :=
  d.host.reads.any fun x => !x.orphan && (match x.use with | .desc q _ => q == r | _ => false)

/-- Try to issue a descriptor read for a ring (R130, R132). -/
def fetchRing (r : Nat) (d : Dev) : Dev :=
  match d.ringFn r with
  | none => d
  | some f =>
    let x := d.ring r
    let c := (x.cons + x.taken.length) % 65536
    let avail := x.toFetch
    if x.st ≠ 2 ∨ x.closing ∨ x.notOwn ∨ avail = 0 ∨ d.fetching r ∨ !d.fnLive f then d
    else
      let i := c % ringLen x.size
      let room := d.dtagRoom f
      let n := min (min avail (min 256 (d.fn f).mrrs / 32)) (min (ringLen x.size - i) (128 - i % 128))
      if room = 0 then
        if x.tagWait then d
        else ((d.setRing r { x with tagWait := true }).sat DMA_TAG_WAIT_CNT.COUNT).ev DMA_EVENT.TAG_WAIT
      else if d.tagFree f then
        issue f (x.at c) (32 * min n room) (.desc r (min n room)) (d.setRing r { x with tagWait := false })
      else d

/-- The best-effort limit is reached, and the payload is that of a best-effort frame of a TX ring (R227). Whether a frame that the
classifier decides (DEST = 0) is best effort is known only once it is read (assumption log 68). -/
def Dev.beHolds (d : Dev) (w : Want) : Bool :=
  let x := d.ring w.ring
  let i := (w.cnt + 65536 - x.cons) % 65536
  let sop := ((x.taken.take (i + 1)).filter fun y => bit (y.dw 2) 16).getLastD {}
  ringKind w.ring == 0 && x.dest != 0 && d.beFull 1 && !d.guar (x.dest - 1) (bits (sop.dw 2) 21 3)

/-- Issue waiting payload reads that no line paces, in order, while tags are free (R115, R151). -/
def issueWants : Nat → Dev → Dev
  | 0, d => d
  | n + 1, d =>
    match d.host.wants.find? (fun w => !d.paced false w.ring && !d.beHolds w && (match d.ringFn w.ring with
        | some f => d.tagFree f && d.fnLive f
        | none => false)) with
    | none => d
    | some w =>
      let f := (d.ringFn w.ring).getD 0
      let d := d.hostMod fun h => { h with wants := h.wants.erase w }
      issueWants n (issue f w.addr w.len (.pay w.ring w.cnt w.off w.len) d)

/-- Want the len bytes from offset off of the buffer of the descriptor of count c. -/
def wantPayload (r c addr off len : Nat) (d : Dev) : Dev :=
  let f := (d.ringFn r).getD 0
  let mx := max 1 (min (d.fn f).mrrs 512)
  let ws := (reqChunks mx (len + 1) addr off len).map fun (a, o, n) => ({ ring := r, cnt := c, off := o, addr := a, len := n } : Want)
  d.hostMod fun h => { h with wants := h.wants ++ ws }

/-! ### Ring states (R150) -/

/-- The ring has begun no descriptor that is not returned, and no frame waits. -/
def Ring.quiet (x : Ring) : Bool := x.taken.all (fun y => !y.begun) && x.rxq.isEmpty

/-- Reads of ring r that are on the way fetch nothing any more, and what waited for it is not issued (R150). -/
def ringForget (r : Nat) (d : Dev) : Dev :=
  d.hostMod fun h => { h with
    wants := h.wants.filter fun w => w.ring != r
    reads := h.reads.map fun x => match x.use with
      | .desc q _ => if q = r then { x with use := .void } else x
      | .pay q _ _ _ => if q = r then { x with use := .void } else x
      | .void => x }

/-- Fetched descriptors not begun are released; OFF, or a new start if an enable is pending (R150). -/
def ringQuiesce (r : Nat) (d : Dev) : Dev :=
  let x := d.ring r
  if (x.st = 3 ∨ x.st = 4) ∧ x.quiet then
    let again := x.st == 4
    let d := d.setRing r { x with st := if again then 1 else 0, taken := [], notOwn := false, tagWait := false,
                                  fresh := true, err := if again then false else x.err }
    tagSync (ringMsg r (ringForget r d))
  else d

/-- STARTING passes to ON (R150); an audio ring waits for its line. -/
def ringStart (audioOk : Bool) (r : Nat) (d : Dev) : Dev :=
  let x := d.ring r
  if x.st = 1 ∧ (audioOk ∨ (ringKind r ≠ 2 ∧ ringKind r ≠ 3)) then
    d.setRing r { x with st := 2, fresh := true, err := false } else d

/-- The rings of function f fetch in round-robin order after the one last served (R132). -/
def pumpFn (f : Nat) (d : Dev) : Dev :=
  let rs := d.ringsOf f
  let last := d.host.rr.getD f 431
  let order := rs.filter (fun r => last < r) ++ rs.filter (fun r => r ≤ last)
  order.foldl (fun d r =>
    let d' := fetchRing r d
    if d'.host.reads.length = d.host.reads.length then d' else d'.hostMod fun h => { h with rr := h.rr.set f r }) d

/-- Rings in STARTING that wait for nothing become ON (R150); payload reads are served, then each function's rings. -/
def pump (d : Dev) : Dev :=
  let d := (d.host.rings.map (·.1)).foldl (fun d r => ringStart false r d) d
  forN 16 pumpFn (issueWants d.host.wants.length d)

/-! ### Receive into a host ring (R139 to R142) -/

/-- A receive buffer keeps the rule of R139. -/
def rxDescOk (y : Desc) : Bool :=
  let l := bits (y.dw 2) 0 16
  y.addr % 64 == 0 && decide (256 ≤ l ∧ l ≤ 16384) && l % 64 == 0 && bits (y.dw 2) 16 16 == 0 && bits (y.dw 7) 16 14 == 0

/-- The receive fields of one descriptor (Table 6.4); SRC is 0 for a frame from a host ring (DESIGN CHOICE, assumption log
67). -/
def rxFields (x : Frm) (bytes : Nat) (sop eop : Bool) (status : Nat) (y : Desc) : Desc :=
  let d3 := bytes + (if sop then 2 ^ 16 else 0) + (if eop then 2 ^ 17 else 0) + x.tc * 2 ^ 18 +
    (if x.src < 5 then x.src * 2 ^ 21 else 0) + (if sop && x.tsOk then 2 ^ 24 else 0)
  let ts := if sop then x.ts % 2 ^ 64 else 0
  let d6 := status + (if x.dec.hit then 2 ^ 4 else 0) + x.dec.index * 2 ^ 5 + x.dec.gen * 2 ^ 18
  { y with w := [y.dw 0, y.dw 1, y.dw 2, d3, ts % 2 ^ 32, ts / 2 ^ 32, d6, y.dw 7], begun := true, done := true }

/-- Finish the descriptors that a frame filled: the filled ones carry their bytes in `pos` (R134, R141). -/
def rxFinish (x : Frm) (status : Nat) (ys : List Desc) : List Desc :=
  let idx := (List.range ys.length).filter fun i => let y := ys.getD i {}; y.begun && !y.done
  let first := idx.headD 0
  let last := idx.getLastD 0
  ((List.range ys.length).zip ys).map fun (i, y) =>
    if y.begun && !y.done then rxFields x y.pos (i == first) (i == last) status y else y

/-- Drop the frame at the head of an RX ring (R141, R142): filled descriptors return DISCARD. `kind` 0 stall, 1 ring
disable, 2 a poisoned cell (R218). -/
def rxDrop (kind r : Nat) (d : Dev) : Dev :=
  let x := d.ring r
  match x.rxq, d.ringFn r with
  | it :: rest, some f =>
    let d := d.setRing r { x with taken := rxFinish it.frm 1 x.taken, rxq := rest }
    let d := match kind with
      | 0 =>
        let d := if it.n = 0 then (d.sat DMA_RX_NODESC_DROP.COUNT).ev DMA_EVENT.RX_NODESC_DROP
          else (d.sat DMA_RX_STALL_DROP.COUNT).ev DMA_EVENT.RX_STALL_DROP
        vfEvent f 1 d
      | 1 => (d.sat DMA_DISABLE_DROP.COUNT).ev DMA_EVENT.DISABLE_DROP
      | _ => eccDrop it.frm d
    retire r d
  | _, _ => d

/-- Descriptors that could take more of a frame are still to come: produced, and not met unowned (R141). -/
def Ring.awaits (x : Ring) : Bool := decide (0 < x.toFetch) && !x.notOwn

/-- Fill descriptors of ring r with the frame at the head of its queue until it is whole or none is left (R140, R141). A
frame that has outstayed its budget on the strength of a doorbell is dropped where that leaves it without one (R142). A whole
frame has left packet memory (R184). -/
def rxFill : Nat → Nat → Dev → Dev
  | 0, _, d => d
  | fuel + 1, r, d =>
    let x := d.ring r
    match x.rxq, d.ringFn r with
    | it :: rest, some f =>
      if it.frm.data.length ≤ it.off then
        let d := d.setRing r { x with taken := rxFinish it.frm 0 x.taken, rxq := rest }
        rxFill fuel r (leave true it.frm (retire r d))
      else
        match x.taken.findIdx? (fun y => !y.begun) with
        | none =>
          if x.awaits then d
          else match it.stall with
            | some dl => if dl < d.nowExt then rxFill fuel r (rxDrop 0 r d) else d
            | none =>
              let dl := d.nowExt + d.rd DMA_CFG.STALL_BUDGET * 16
              d.setRing r { x with rxq := { it with stall := some dl } :: rest }
        | some i =>
          let y := x.taken.getD i {}
          let d := readFrm it.frm d
          if d.poisoned it.frm then rxFill fuel r (rxDrop 2 r d)
          else if rxDescOk y then
            let n := min (bits (y.dw 2) 0 16) (it.frm.data.length - it.off)
            let d := hostOut r f y.addr (slice it.frm.data it.off n) (dmaWork (cellsFor n) d)
            rxFill fuel r (d.setRing r { x with
              taken := x.taken.set i { y with begun := true, pos := n }
              rxq := { it with off := it.off + n, n := it.n + 1 } :: rest })
          else
            let bad := (rxFields { it.frm with dec := {}, tsOk := false, ts := 0 } 0 false false 5 y)
            rxFill fuel r (retire r (d.setRing r { x with taken := x.taken.set i bad }))
    | _, _ => d

/-- Let the ring's queue move as far as it can. -/
def rxPump (r : Nat) (d : Dev) : Dev :=
  let x := d.ring r
  if x.st = 2 then pmemSync (rxFill (2 * (x.rxq.length + x.taken.length) + 2) r d) else d

/-- The stall budget of the frame at the head of ring r ends (R141); a doorbell that has come in time and whose descriptors
are still to be read lets it continue (R142). -/
def stallExpiry (r m : Nat) (d : Dev) : Dev :=
  let d := atMote m d
  match (d.ring r).rxq with
  | it :: _ =>
    match it.stall with
    | some dl => if dl ≤ d.nowExt ∧ !(d.ring r).awaits then pmemSync (rxPump r (rxDrop 0 r d)) else d
    | none => d
  | [] => d

/-- A frame joins the queue of an RX ring (R140). -/
def rxQueue (r : Nat) (x : Frm) (d : Dev) : Dev :=
  rxPump r (pmemSync (d.ringMod r fun y => { y with rxq := y.rxq ++ [{ frm := x }] }))

/-! ### Doorbells (R127, R128) -/

/-- A bad doorbell. -/
def dbBad (d : Dev) : Dev := (d.sat DMA_DB_BAD_CNT.COUNT).ev DMA_EVENT.DB_BAD

/-- The global ring of doorbell slot s of function f (Table 5.4). -/
def Dev.slotRing (d : Dev) (f s : Nat) : Option Nat :=
  let q := if f = 0 then 128 else 64
  let a := 2 * q
  let na := if f = 0 then 128 else 64
  let c := a + na
  if s < q then d.ringOf f 0 s
  else if s < a then d.ringOf f 1 (s - q)
  else if s < c then
    let j := s - a
    let outs := (d.range f 2).2
    if j < outs then d.ringOf f 2 j else d.ringOf f 3 (j - outs)
  else if s < c + 16 then d.ringOf f 4 (s - c)
  else if s < c + 32 then d.ringOf f 5 (s - c - 16)
  else if s = c + 32 then some (416 + f) else none

/-- Slot of the mailbox of function f. -/
def mbxSlot (f : Nat) : Nat := if f = 0 then 416 else 224

/-- A PROD doorbell (R127): value x on slot s of function f. -/
def doorbellProd (f s x : Nat) (d : Dev) : Dev :=
  match d.slotRing f s with
  | none => dbBad d
  | some r =>
    let y := d.ring r
    if bits x 16 16 ≠ 0 ∨ ringLen y.size < (x % 65536 + 65536 - y.consumed) % 65536 then dbBad d
    else pump (d.setRing r { y with prod := x % 65536, notOwn := false })

/-- MBX_BASE_LO (R128). -/
def mbxBaseLo (f x : Nat) (d : Dev) : Dev :=
  if (d.ring (416 + f)).st ≠ 0 then dbBad d else d.fnMod f fun g => { g with mbxLo := some (bits x 0 30) }

/-- MBX_BASE_HI (R128). -/
def mbxBaseHi (f x : Nat) (d : Dev) : Dev :=
  match (d.fn f).mbxLo with
  | none => dbBad d
  | some lo =>
    if (d.ring (416 + f)).st ≠ 0 ∨ 6 < bits x 22 3 then dbBad d
    else
      let d := d.fnMod f fun g => { g with mbxLo := none }
      d.setRing (416 + f) { st := 2, base := lo * 4096 + bits x 0 22 * 2 ^ 42, size := bits x 22 3, vec := bits x 25 5 }

/-- A mailbox that closes and holds no fetched command is UNSET (R128). -/
def mbxUnset (f : Nat) (d : Dev) : Dev :=
  let x := d.ring (416 + f)
  if x.closing && x.taken.isEmpty then tagSync ((d.fnMod f fun g => { g with last := none }).setRing (416 + f) {}) else d

/-- MBX_RESET (R128): what has been fetched completes, then the mailbox is UNSET; commands not yet fetched are dropped. -/
def mbxReset (f x : Nat) (d : Dev) : Dev :=
  if bits x 0 30 ≠ 0 then dbBad d
  else
    let d := ringForget (416 + f) (d.fnMod f fun g => { g with mbxLo := none })
    mbxUnset f (d.ringMod (416 + f) fun y => { y with closing := true })

/-- The slot is that of a cyclic audio ring, whose doorbells have no effect and are not counted (R127). -/
def Dev.cyclicSlot (d : Dev) (f s : Nat) : Bool := (d.slotRing f s).any fun r => (d.ring r).cyclic

/-- A doorbell write of word x to slot s of function f (Table 6.1). -/
def doorbell (f s x : Nat) (d : Dev) : Dev :=
  if !d.aperture f then unsupportedRequest f d
  else if d.cyclicSlot f s then d
  else
    match bits x 30 2 with
    | 0 => doorbellProd f s x d
    | 1 => if s = mbxSlot f then mbxBaseLo f x d else dbBad d
    | 2 => if s = mbxSlot f then mbxBaseHi f x d else dbBad d
    | _ => if s = mbxSlot f then mbxReset f x d else dbBad d

/-! ### Ring view (DMA_RING_SEL) -/

/-- The two view words that RING_QUERY returns. -/
def ringView (r : Nat) (d : Dev) : Nat × Nat :=
  let x := d.ring r
  (x.prod + x.consumed * 2 ^ 16,
   x.st + (if x.err then 8 else 0) + x.size * 16 + (d.ringFn r).getD 0 * 2 ^ 8 + bits x.base 12 20 * 2 ^ 12)

/-- A write of DMA_RING_SEL captures the view (DMA_RING_SEL field table). -/
def ringSelWrite (r : Nat) (d : Dev) : Dev :=
  let x := d.ring r
  let (v0, v1) := ringView r d
  let d := (d.wr DMA_RING_SEL.RING r).setWord DMA_RING_VIEW0.addr v0
  let d := (d.setWord DMA_RING_VIEW1.addr v1).setWord DMA_RING_VIEW2.addr (x.base / 2 ^ 32)
  d.setWord DMA_RING_VIEW3.addr (x.vec + x.coal * 2 ^ 8 + (if x.earlyWb then 2 ^ 16 else 0) +
    (if x.cyclic then 2 ^ 17 else 0) + (if x.dir then 2 ^ 18 else 0) + x.dest * 2 ^ 19 + x.cycM1 * 2 ^ 22)

end Sys2Proof.Machine
end

