-- ==== Sys2Proof/Machine/CmpOps.lean ====
section
/-!
DEFINITION. Machine/CmpOps.lean: the compression engine (spec/16_compression_engine.md, R333 to R346): DEFLATE, wrappers,
jobs, proof and fallback, decompression, context blobs.
-/

namespace Sys2Proof.Machine

/-! ### Bits -/

/-- The low n bits of v, the lowest first. -/
def bitsOf (n v : Nat) : List Bool := (List.range n).map fun i => bit v i

/-- The number that bits spell, the first lowest. -/
def natOf : List Bool → Nat
  | [] => 0
  | b :: bs => (if b then 1 else 0) + 2 * natOf bs

/-- The whole bytes that bits fill, and the bits left over; the first bit is bit 0 of its byte. -/
def packBits : Nat → List Bool → Bytes × List Bool
  | 0, bs => ([], bs)
  | fuel + 1, bs =>
    if bs.length < 8 then ([], bs)
    else
      let (r, t) := packBits fuel (bs.drop 8)
      (BitVec.ofNat 8 (natOf (bs.take 8)) :: r, t)

/-- The bits of bytes. -/
def unpack (bs : Bytes) : List Bool := bs.flatMap fun b => bitsOf 8 b.toNat

/-- Bits that fill n bits up to a byte. -/
def padBits (n : Nat) : List Bool := List.replicate ((8 - n % 8) % 8) false

/-! ### Codes (RFC 1951) -/

/-- Base value and extra bits of length symbol 257 + i. -/
def lenTab : List (Nat × Nat) :=
  [(3, 0), (4, 0), (5, 0), (6, 0), (7, 0), (8, 0), (9, 0), (10, 0), (11, 1), (13, 1), (15, 1), (17, 1), (19, 2), (23, 2),
   (27, 2), (31, 2), (35, 3), (43, 3), (51, 3), (59, 3), (67, 4), (83, 4), (99, 4), (115, 4), (131, 5), (163, 5), (195, 5),
   (227, 5), (258, 0)]

/-- Base value and extra bits of distance symbol i. -/
def distTab : List (Nat × Nat) :=
  [(1, 0), (2, 0), (3, 0), (4, 0), (5, 1), (7, 1), (9, 2), (13, 2), (17, 3), (25, 3), (33, 4), (49, 4), (65, 5), (97, 5),
   (129, 6), (193, 6), (257, 7), (385, 7), (513, 8), (769, 8), (1025, 9), (1537, 9), (2049, 10), (3073, 10), (4097, 11),
   (6145, 11), (8193, 12), (12289, 12), (16385, 13), (24577, 13)]

/-- Code lengths of the fixed tables: 288 literal and length symbols, then 32 distances. -/
def fixedLens : List Nat :=
  List.replicate 144 8 ++ List.replicate 112 9 ++ List.replicate 24 7 ++ List.replicate 8 8 ++ List.replicate 32 5

/-- The order in which code-length code lengths are sent. -/
def clOrder : List Nat := [16, 17, 18, 0, 8, 7, 9, 6, 10, 5, 11, 4, 12, 3, 13, 2, 14, 1, 15]

/-- What reading one symbol gives. -/
inductive Sym where
  | need
  | bad
  | got (s : Nat) (rest : List Bool)

/-- Read one symbol of the canonical code with these lengths: at length n the code so far is `code`, the first code of that
length `first`. -/
def readSym (lens : List Nat) : Nat → Nat → Nat → Nat → List Bool → Sym
  | 0, _, _, _, _ => .bad
  | fuel + 1, n, code, first, bs =>
    match bs with
    | [] => .need
    | b :: rest =>
      let code := 2 * code + (if b then 1 else 0)
      let first := 2 * first
      let here := (List.range lens.length).filter fun i => lens.getD i 0 == n + 1
      if first ≤ code ∧ code < first + here.length then .got (here.getD (code - first) 0) rest
      else readSym lens fuel (n + 1) code (first + here.length) rest

/-- A set of code lengths is no larger than its code space, and fills it but for a single code (R340). -/
def lensOk (lens : List Nat) : Bool :=
  let sum := (lens.map fun l => if l = 0 then 0 else 2 ^ (15 - l)).foldl (· + ·) 0
  let n := (lens.filter (· != 0)).length
  decide (sum = 2 ^ 15) || decide (n ≤ 1)

/-! ### Fixed encoding of matches (R336) -/

/-- The canonical code of symbol s, most significant bit first. -/
def symBits (lens : List Nat) (s : Nat) : List Bool :=
  let l := lens.getD s 0
  let below := (List.range l).foldl (fun c n => 2 * (c + (lens.filter fun x => x == n && n != 0).length)) 0
  let code := below + ((List.range s).filter fun i => lens.getD i 0 == l).length
  (bitsOf l code).reverse

/-- The symbol of a table whose range holds v, with its extra bits. -/
def tabFind (tab : List (Nat × Nat)) (v : Nat) : Nat × List Bool :=
  let i := (tab.takeWhile fun t => decide (t.1 ≤ v)).length - 1
  let t := tab.getD i (0, 0)
  (i, bitsOf t.2 (v - t.1))

/-- The fixed-table encoding of matches, with the end-of-block symbol. -/
def fixedBits (ts : List (Nat × Nat)) : List Bool :=
  let lit := fixedLens.take 288
  (ts.flatMap fun (l, x) =>
    if l = 0 then symBits lit x
    else
      let (s, e) := tabFind lenTab l
      let (t, f) := tabFind distTab x
      symBits lit (257 + s) ++ e ++ (bitsOf 5 t).reverse ++ f) ++ symBits lit 256

/-- The encoding of a block for OP op (R336): with its three header bits. -/
def encodeBlock (op : Nat) (final : Bool) (win block : Bytes) : List Bool :=
  let ts := Config.cmpTokens op win block
  let fx := [final, true, false] ++ fixedBits ts
  let dy := [final, false, true] ++ Config.cmpDynamic ts
  if op = 1 ∧ dy.length ≤ fx.length then dy else fx

/-! ### The decoder (R340, R341) -/

/-- What one step of the decoder does: waits for input, fails, or goes on, putting out a byte or not and ending a block or
the stream or not. -/
inductive Inf where
  | need
  | bad
  | go (c : CmpCtx) (out : Option Byte) (block : Bool) (fin : Bool)

/-- Drop the bits up to the next byte of input. -/
def alignBits (bs : List Bool) : List Bool := bs.drop (bs.length % 8)

/-- The last n bytes. -/
def lastN (n : Nat) (bs : Bytes) : Bytes := bs.drop (bs.length - n)

/-- Adler-32 over further bytes. -/
def adler (c : Nat) (bs : Bytes) : Nat :=
  let (a, b) := bs.foldl (fun (a, b) x => let a := (a + x.toNat) % 65521; (a, (b + a) % 65521)) (c % 65536, c / 65536)
  a + b * 65536

/-- The check value of a wrapper over further bytes (R337). -/
def checkOn (wrap c : Nat) (bs : Bytes) : Nat :=
  match wrap with
  | 1 => adler c bs
  | 2 => (bs.foldl crc32Byte (c ^^^ 0xFFFFFFFF)) ^^^ 0xFFFFFFFF
  | _ => 0

/-- A context after the bytes bs of uncompressed data: window, position, check value. -/
def CmpCtx.data (c : CmpCtx) (bs : Bytes) : CmpCtx :=
  { c with win := lastN 32768 (c.win ++ bs), winPos := (c.winPos + bs.length) % 32768, check := checkOn c.wrap c.check bs }

/-- The first zero byte at or after offset o: the offset behind it. -/
def zeroAt : Nat → Bytes → Nat → Option Nat
  | 0, _, _ => none
  | fuel + 1, bs, o => if bs.length ≤ o then none else if byteAt bs o = 0 then some (o + 1) else zeroAt fuel bs (o + 1)

/-- The length of a whole gzip header: none when more bytes are needed (R340, Table 16.1). -/
def gzipHeader (bs : Bytes) : Option Nat :=
  if bs.length < 10 then none
  else
    let flg := byteAt bs 3
    let extra := if bit flg 2 then (if bs.length < 12 then none else some (12 + leNat (slice bs 10 2))) else some 10
    let name := extra.bind fun o => if bit flg 3 then zeroAt (bs.length + 1) bs o else some o
    let comm := name.bind fun o => if bit flg 4 then zeroAt (bs.length + 1) bs o else some o
    comm.bind fun o =>
      let e := if bit flg 1 then o + 2 else o
      if bs.length < e then none else some e

/-- A gzip header's fields and its FHCRC are right. -/
def gzipOk (bs : Bytes) (n : Nat) : Bool :=
  slice bs 0 3 == [0x1F, 0x8B, 8] && byteAt bs 3 < 32 &&
    (!bit (byteAt bs 3) 1 || leNat (slice bs (n - 2) 2) == crc32 (bs.take (n - 2)) % 65536)

/-- A prefix of a gzip header is wrong already. -/
def gzipBad (bs : Bytes) : Bool :=
  (bs.take 3) != ([0x1F, 0x8B, 8] : Bytes).take (min bs.length 3) || decide (4 ≤ bs.length ∧ 32 ≤ byteAt bs 3)

/-- The wrapper header (phase 0). -/
def infHeader (c : CmpCtx) : Inf :=
  match c.wrap with
  | 0 => .go { c with phase := 1 } none false false
  | 1 =>
    if c.bits.length < 16 then .need
    else
      let v := natOf (c.bits.take 16)
      let cmf := v % 256
      let flg := v / 256
      if cmf % 16 = 8 ∧ cmf / 16 ≤ 7 ∧ (cmf * 256 + flg) % 31 = 0 ∧ bit flg 5 = false then
        .go { c with phase := 1, bits := c.bits.drop 16 } none false false
      else .bad
  | _ =>
    let bs := (packBits c.bits.length c.bits).1
    if gzipBad bs then .bad
    else match gzipHeader bs with
      | none => .need
      | some n => if gzipOk bs n then .go { c with phase := 1, bits := c.bits.drop (8 * n) } none false false else .bad

/-- Read n code lengths with the code-length code cl, after those read. -/
def readLens (cl : List Nat) : Nat → Nat → List Nat → List Bool → Option (Option (List Nat × List Bool))
  | 0, _, _, _ => some none
  | fuel + 1, n, acc, bs =>
    if n ≤ acc.length then (if acc.length = n then some (some (acc, bs)) else some none)
    else match readSym cl 7 0 0 0 bs with
      | .need => none
      | .bad => some none
      | .got s rest =>
        if s < 16 then readLens cl fuel n (acc ++ [s]) rest
        else
          let (k, base, v) := match s with
            | 16 => (2, 3, acc.getLast?)
            | 17 => (3, 3, some 0)
            | _ => (7, 11, some 0)
          if rest.length < k then none
          else match v with
            | none => some none
            | some v => readLens cl fuel n (acc ++ List.replicate (base + natOf (rest.take k)) v) (rest.drop k)

/-- The header of a dynamic block (phase 3): none needs more bits, some none is invalid. -/
def dynHeader (bs : List Bool) : Option (Option (List Nat × List Bool)) :=
  if bs.length < 14 then none
  else
    let hlit := 257 + natOf (bs.take 5)
    let hdist := 1 + natOf ((bs.drop 5).take 5)
    let hclen := 4 + natOf ((bs.drop 10).take 4)
    if bs.length < 14 + 3 * hclen then none
    else
      let sent := (List.range hclen).map fun i => natOf ((bs.drop (14 + 3 * i)).take 3)
      let cl := (List.range 19).map fun s => sent.getD (clOrder.findIdx (· == s)) 0
      if 286 < hlit ∨ !lensOk cl then some none
      else match readLens cl 321 (hlit + hdist) [] (bs.drop (14 + 3 * hclen)) with
        | none => none
        | some none => some none
        | some (some (ls, rest)) =>
          let lit := ls.take hlit ++ List.replicate (288 - hlit) 0
          let dis := ls.drop hlit ++ List.replicate (32 - hdist) 0
          if lensOk lit && lensOk dis && lit.getD 256 0 != 0 then some (some (lit ++ dis, rest)) else some none

/-- A block ends: the trailer follows a final block. -/
def blockEnd (c : CmpCtx) : CmpCtx :=
  if c.bfinal then { c with phase := 5, bits := alignBits c.bits, lens := [] } else { c with phase := 1, lens := [] }

/-- A byte is decoded. -/
def infByte (b : Byte) (c : CmpCtx) : CmpCtx := { c.data [b] with tout := c.tout + 1 }

/-- One symbol or copied byte of a compressed block (phase 4). -/
def infSymbol (c : CmpCtx) : Inf :=
  if c.copyLen ≠ 0 then
    let b := c.win.getD (c.win.length - c.copyDist) 0
    let c := infByte b c
    .go { c with copyLen := c.copyLen - 1, copyDist := if c.copyLen = 1 then 0 else c.copyDist } (some b) false false
  else match readSym (c.lens.take 288) 15 0 0 0 c.bits with
    | .need => .need
    | .bad => .bad
    | .got s rest =>
      if s < 256 then
        let b := BitVec.ofNat 8 s
        .go (infByte b { c with bits := rest }) (some b) false false
      else if s = 256 then .go (blockEnd { c with bits := rest }) none true false
      else if 285 < s then .bad
      else
        let (base, k) := lenTab.getD (s - 257) (0, 0)
        if rest.length < k then .need
        else match readSym (c.lens.drop 288) 15 0 0 0 (rest.drop k) with
          | .need => .need
          | .bad => .bad
          | .got t rest2 =>
            if 29 < t then .bad
            else
              let (dbase, j) := distTab.getD t (0, 0)
              if rest2.length < j then .need
              else
                let dist := dbase + natOf (rest2.take j)
                if c.win.length < dist then .bad
                else .go { c with bits := rest2.drop j, copyLen := base + natOf (rest.take k), copyDist := dist } none false false

/-- The trailer (phase 5): the check value, and for gzip the size. -/
def infTrailer (c : CmpCtx) : Inf :=
  let n := match c.wrap with
    | 0 => 0
    | 1 => 32
    | _ => 64
  if c.bits.length < n then .need
  else
    let bs := (packBits 8 (c.bits.take n)).1
    let ok := match c.wrap with
      | 0 => true
      | 1 => beNat bs == c.check
      | _ => leNat (bs.take 4) == c.check && leNat (bs.drop 4) == c.tout % 2 ^ 32
    if ok then .go { c with bits := c.bits.drop n } none false true else .bad

/-- One step of the decoder. -/
def infStep (c : CmpCtx) : Inf :=
  match c.phase with
  | 0 => infHeader c
  | 1 =>
    if c.bits.length < 3 then .need
    else
      let f := c.bits.getD 0 false
      let t := natOf ((c.bits.drop 1).take 2)
      let c := { c with bfinal := f, btype := t, bits := c.bits.drop 3 }
      match t with
      | 0 => .go { c with phase := 2, bits := alignBits c.bits, copyLen := 0 } none false false
      | 1 => .go { c with phase := 4, lens := fixedLens } none false false
      | 2 => .go { c with phase := 3 } none false false
      | _ => .bad
  | 2 =>
    if c.copyLen = 0 then
      if c.bits.length < 32 then .need
      else
        let l := natOf (c.bits.take 16)
        let n := natOf ((c.bits.drop 16).take 16)
        let c := { c with bits := c.bits.drop 32 }
        if l + n ≠ 65535 then .bad
        else if l = 0 then .go (blockEnd c) none true false else .go { c with copyLen := l } none false false
    else if c.bits.length < 8 then .need
    else
      let b := BitVec.ofNat 8 (natOf (c.bits.take 8))
      let c : CmpCtx := { infByte b { c with bits := c.bits.drop 8 } with copyLen := c.copyLen - 1 }
      if c.copyLen = 0 then .go (blockEnd c) (some b) true false else .go c (some b) false false
  | 3 =>
    match dynHeader c.bits with
    | none => .need
    | some none => .bad
    | some (some (ls, rest)) => .go { c with phase := 4, lens := ls, bits := rest } none false false
  | 4 => infSymbol c
  | _ => infTrailer c

/-- Decode one block from its bits, for the proof of R338: the bytes put out when its end is met, and the bits left. -/
def infBlock : Nat → CmpCtx → List Byte → Option (List Byte × List Bool)
  | 0, _, _ => none
  | fuel + 1, c, acc =>
    match infStep c with
    | .need => none
    | .bad => none
    | .go c out block _ =>
      let acc := match out with
        | some b => b :: acc
        | none => acc
      if block then some (acc.reverse, c.bits) else infBlock fuel c acc

/-- The independent decoder finds exactly the block in its encoding (R338). -/
def proven (win block : Bytes) (enc : List Bool) : Bool :=
  match infBlock (2 * block.length + 8) { st := 2, win := win, phase := 1, bits := enc } [] with
  | some (out, rest) => out == block && rest.isEmpty
  | none => false

/-! ### Jobs (R334, R335, R339, R343) -/

/-- Context of a compression ring. -/
def ctxOf (r : Nat) : Nat := r - 384

/-- The fields of a compression descriptor (Table 6.6). -/
def cmpJobOf (r cnt fn : Nat) (y : Desc) : CmpJob :=
  let a := y.dw 4
  { ring := r, cnt := cnt, fn := fn, op := bits a 24 3, wrap := bits a 27 2, first := bit a 29, last := bit a 30,
    src := y.dw 0 + y.dw 1 * 2 ^ 32, srcLen := bits a 0 24, dst := y.dw 2 + y.dw 3 * 2 ^ 32, dstLen := bits (y.dw 5) 0 24 }

/-- The fields keep Table 6.6 (check 1 of Table 16.2). -/
def cmpFieldsOk (j : CmpJob) (y : Desc) : Bool :=
  decide (j.op ≤ 4) && j.wrap != 3 && !bit (y.dw 4) 31 && bits (y.dw 5) 24 8 == 0 && bits (y.dw 7) 16 14 == 0 &&
    (match j.op with
     | 3 => j.dstLen == 34816
     | 4 => j.srcLen == 34816
     | _ => decide (1 ≤ j.srcLen))

/-- The job passes Table 16.2. -/
def Dev.cmpAccept (d : Dev) (j : CmpJob) (y : Desc) : Bool :=
  let c := d.cx (ctxOf j.ring)
  cmpFieldsOk j y &&
    (match j.op with
     | 0 | 1 => j.first || (c.st == 1 && c.wrap == j.wrap)
     | 2 => j.first || (c.st == 2 && c.wrap == j.wrap)
     | _ => true)

/-- Compression jobs are available (R343). -/
def Dev.cmpAvail (d : Dev) : Bool := d.on CMP_STATUS.AVAIL

/-- The next job: of the ring after the last served, in ascending order with wrap, among rings that are ON and have a
fetched job not begun (R334). -/
def Dev.nextJob (d : Dev) : Option (Nat × Nat × Desc) :=
  let rs := (List.range 16).map fun i => 384 + (d.cmp.last - 384 + 1 + i) % 16
  rs.findSome? fun r =>
    let x := d.ring r
    if x.st = 2 then
      match x.taken.findIdx? (fun y => !y.begun) with
      | some i => some (r, (x.cons + i) % 65536, x.taken.getD i {})
      | none => none
    else none

/-- Write back a job's descriptor (Table 6.6): status, counts, flags. -/
def cmpWriteBack (r cnt status used made blocks : Nat) (vf strEnd : Bool) (d : Dev) : Dev :=
  let x := d.ring r
  let o := (cnt + 65536 - x.cons) % 65536
  let d := d.setRing r { x with taken := x.taken.modify o fun y =>
    let y := (y.put 4 0 24 used).put 5 0 24 made
    { y with w := y.w.set 6 (status + (if vf then 16 else 0) + (if strEnd then 32 else 0) + min blocks 65535 * 2 ^ 16)
             begun := true, done := true } }
  ringQuiesce r (retire r (withdraw r (· == cnt) (d.sat CMP_JOBS.COUNT)))

/-- A job that is returned without running (R335, R343). -/
def cmpReturn (r cnt status : Nat) (d : Dev) : Dev :=
  let d := if status = 6 then (d.sat CMP_ABORTS.COUNT).ev CMP_EVENT.JOB_ABORT else d
  cmpWriteBack r cnt status 0 0 0 false false d

/-- Ask for the next input of a job, up to n bytes. -/
def cmpAsk (n : Nat) (d : Dev) : Dev :=
  match d.cmp.job with
  | none => d
  | some j =>
    let n := min n (j.srcLen - j.asked)
    if n = 0 then d
    else wantPayload j.ring j.cnt (j.src + j.asked) j.asked n
      (d.cmpMod fun m => { m with job := some { j with asked := j.asked + n } })

/-- The wrapper header of a compression stream (Table 16.1). -/
def wrapHeader (wrap : Nat) : Bytes :=
  match wrap with
  | 1 => [0x78, 0x9C]
  | 2 => [0x1F, 0x8B, 8, 0, 0, 0, 0, 0, 0, 0xFF]
  | _ => []

/-- The wrapper trailer (R337). -/
def wrapTrailer (c : CmpCtx) : Bytes :=
  match c.wrap with
  | 1 => beBytes 4 c.check
  | 2 => leBytes 4 c.check ++ leBytes 4 (c.tin % 2 ^ 32)
  | _ => []

/-- A context at the start of a stream (R335). -/
def cxFirst (op wrap : Nat) : CmpCtx := { st := if op = 2 then 2 else 1, wrap := wrap, check := if wrap = 1 then 1 else 0 }

/-- Write bytes of a job's output behind what it has made, up to DST_LEN; tells whether all of them fit. -/
def cmpPut (j : CmpJob) (bs : Bytes) (d : Dev) : CmpJob × Bool × Dev :=
  let n := min bs.length (j.dstLen - j.made)
  let d := if n = 0 then d else hostOut j.ring j.fn (j.dst + j.made) (bs.take n) d
  ({ j with made := j.made + n }, n == bs.length, d)

/-- Put job j in the engine. -/
def setJob (j : CmpJob) (d : Dev) : Dev := cmpSync (d.cmpMod fun m => { m with job := some j })

/-! ### Context blobs (R345) -/

/-- The window area: the byte at WIN_POS - 1 the newest. -/
def blobWin (c : CmpCtx) : Bytes :=
  let f := c.win.length
  let p := c.winPos
  if p < f then c.win.drop (f - p) ++ List.replicate (32768 - f) 0 ++ c.win.take (f - p)
  else List.replicate (p - f) 0 ++ c.win ++ List.replicate (32768 - p) 0

/-- The blob of a context (Table 16.4). In the trailer the held bytes stand in TRL; header bits that do not fit BITBUF
stand in the LENS area. -/
def blobOf (c : CmpCtx) : Bytes :=
  let trl := if c.phase = 5 then (packBits 8 c.bits).1 else []
  let pend := if c.phase = 5 then [] else c.bits
  let long := decide (63 < pend.length)
  let buf := pend.take 63
  let lens := if long then (List.range 320).map fun i => (Config.blobLens pend i).toNat
    else c.lens ++ List.replicate (320 - c.lens.length) 0
  let head := leBytes 4 0x5A34584F ++ leBytes 2 1 ++ leBytes 1 c.st ++ leBytes 1 c.wrap ++ leBytes 8 c.tin ++ leBytes 8 c.tout ++
    leBytes 4 c.check ++ leBytes 2 c.win.length ++ leBytes 2 c.winPos ++ leBytes 1 c.phase ++
    leBytes 1 ((if c.bfinal then 1 else 0) + 2 * c.btype) ++ leBytes 1 buf.length ++ leBytes 1 trl.length ++
    leBytes 2 c.copyLen ++ leBytes 2 c.copyDist ++ leBytes 8 (natOf buf) ++ trl ++ List.replicate (8 - trl.length) 0 ++
    List.replicate 200 0 ++ lens.map (BitVec.ofNat 8) ++ List.replicate 1468 0
  let win := blobWin c
  head ++ leBytes 4 (crc32 (head ++ win)) ++ win

/-- The fields of a blob lie in their ranges and agree with STATE (R345). -/
def blobOk (b : Bytes) : Bool :=
  let f (o n : Nat) : Nat := leNat (slice b o n)
  let zero (o n : Nat) : Bool := (slice b o n).all (· == 0)
  let st := f 6 1
  let ph := f 0x20 1
  let lenOk := (slice b 0x100 320).all fun x => x.toNat < 16
  let nb := f 0x22 1
  let nt := f 0x23 1
  let cl := f 0x24 2
  let cd := f 0x26 2
  b.length == 34816 && f 0 4 == 0x5A34584F && f 4 2 == 1 && f 0x7FC 4 == crc32 (b.take 0x7FC ++ b.drop 0x800) &&
    decide (st ≤ 2) && decide (f 7 1 ≤ 2) && decide (f 0x1C 2 ≤ 32768) && decide (f 0x1E 2 ≤ 32767) && decide (ph ≤ 5) &&
    decide (f 0x21 1 < 8) && decide (nb ≤ 63) && decide (nt ≤ 7) && decide (f 0x28 8 < 2 ^ nb) && zero (0x30 + nt) (8 - nt) &&
    zero 0x38 200 && zero 0x240 1468 && lenOk &&
    (match st with
     | 0 => zero 8 0xF8 && zero 0x100 320 && zero 0x800 32768
     | 1 => zero 0x20 24 && zero 0x100 320
     | _ => decide (cd ≤ 32768) && (ph == 5 || nt == 0) && (ph != 5 || nb == 0) && (ph == 2 || decide (cl ≤ 258)) &&
        (ph == 4 || cd == 0) && (ph == 2 || ph == 4 || cl == 0))

/-- The context of a blob. -/
def blobCtx (b : Bytes) : CmpCtx :=
  let f (o n : Nat) : Nat := leNat (slice b o n)
  let lens := (slice b 0x100 320).map (·.toNat)
  let buf := bitsOf (f 0x22 1) (f 0x28 8)
  let ph := f 0x20 1
  let p := f 0x1E 2
  let w := b.drop 0x800
  let bits := if ph = 5 then unpack (slice b 0x30 (f 0x23 1))
    else if (ph = 0 ∨ ph = 3) ∧ lens.any (· != 0) then Config.blobBits lens buf else buf
  { st := f 6 1, wrap := f 7 1, tin := f 8 8, tout := f 0x10 8, check := f 0x18 4,
    win := lastN (f 0x1C 2) (w.drop p ++ w.take p), winPos := p, phase := ph,
    bfinal := bit (f 0x21 1) 0, btype := f 0x21 1 / 2 % 4, bits := bits, copyLen := f 0x24 2, copyDist := f 0x26 2,
    lens := if ph = 4 then lens else [] }

/-! ### Running a job -/

/-- A job is accepted and begins (R335): a new stream clears its context, a compression stream puts out its header, a save
writes its blob, the others ask for input. -/
def cmpBegin (j : CmpJob) (d : Dev) : Dev :=
  let k := ctxOf j.ring
  let x := d.ring j.ring
  let d := d.setRing j.ring { x with taken := x.taken.modify ((j.cnt + 65536 - x.cons) % 65536) fun y => { y with begun := true } }
  let d := d.cmpMod fun m => { m with last := j.ring }
  match j.op with
  | 3 =>
    let (_, _, d) := cmpPut j (blobOf (d.cx k)) d
    setJob { j with used := 34816, made := 34816, fin := some 0 } d
  | 4 => cmpAsk 34816 (setJob j d)
  | op =>
    let d := if j.first then setCx k (cxFirst op j.wrap) d else d
    if op ≠ 2 ∧ j.first then
      let h := wrapHeader j.wrap
      let (j, ok, d) := cmpPut j h d
      if ok then cmpAsk 32768 (setJob { j with bMade := j.made } (setCx k { d.cx k with tout := (d.cx k).tout + h.length } d))
      else setJob { j with fin := some 7 } (setCx k {} d)
    else cmpAsk 32768 (setJob j d)

/-- The engine takes its next job if that job's OP is op (R334, R335, R343, R344). -/
def cmpTake (op : Nat) (d : Dev) : Dev :=
  if d.rd CMP_STATUS.RUN ≠ 2 ∨ d.cmp.job.isSome then d
  else match d.nextJob with
    | none => d
    | some (r, cnt, y) =>
      let j := cmpJobOf r cnt ((d.ringFn r).getD 0) y
      if j.op ≠ op ∧ j.op ≤ 4 then d
      else if !d.cmpAvail then cmpReturn r cnt 6 (d.cmpMod fun m => { m with last := r })
      else if d.cmpAccept j y then cmpBegin j d
      else cmpReturn r cnt 5 (d.cmpMod fun m => { m with last := r })

/-- Input of the running job arrives. -/
def cmpData (r cnt off : Nat) (bs : Bytes) (d : Dev) : Dev :=
  match d.cmp.job with
  | some j =>
    if j.ring = r ∧ j.cnt = cnt then
      let ps := j.pieces ++ [(off, bs)]
      let rec absorb : Nat → Nat → Bytes → List (Nat × Bytes) → Nat × Bytes × List (Nat × Bytes)
        | 0, h, i, ps => (h, i, ps)
        | n + 1, h, i, ps =>
          match ps.find? (fun p => p.1 == h && !p.2.isEmpty) with
          | some p => absorb n (h + p.2.length) (i ++ p.2) (ps.erase p)
          | none => (h, i, ps)
      let (h, i, ps) := absorb ps.length j.have_ j.inp ps
      d.cmpMod fun m => { m with job := some { j with pieces := ps, have_ := h, inp := i } }
    else d
  | none => d

/-- A stored block at a bit position (R338). -/
def storedBits (final : Bool) (at_ : Nat) (block : Bytes) : List Bool :=
  [final, false, false] ++ padBits (at_ + 3) ++ bitsOf 16 block.length ++ bitsOf 16 (65535 - block.length) ++ unpack block

/-- The output of a compression job ends after its last block (R337): padding and trailer, or the empty stored block. -/
def jobTail (last : Bool) (c : CmpCtx) (bs : List Bool) : List Bool :=
  if last then bs ++ padBits bs.length ++ unpack (wrapTrailer c) else bs ++ storedBits false bs.length []

/-- A compressed block is done (R336 to R339): it counts as emitted once its last bits are written. `upset` 0 leaves the encoder's output alone, 1 breaks it, 2 breaks the
stored copy as well. -/
def cmpBlock (j : CmpJob) (upset : Nat) (d : Dev) : Dev :=
  let k := ctxOf j.ring
  let c := d.cx k
  let n := min 32768 (j.srcLen - j.used)
  if j.inp.length < n ∨ n = 0 then d
  else
    let block := j.inp.take n
    let whole := j.used + n == j.srcLen
    let final := j.last && whole
    let enc := encodeBlock j.op final c.win block
    let ok := upset == 0 && proven c.win block enc
    let d := if ok then d
      else
        let d := penalty 16 ((d.sat CMP_FALLBACK.COUNT).ev CMP_EVENT.FALLBACK)
        ((d.wr CMP_LAST_FB.CTX k).wr CMP_LAST_FB.FN j.fn).wr CMP_LAST_FB_OFS.OFS (c.tin % 2 ^ 32)
    let j := { j with vf := j.vf || !ok }
    if upset = 2 then
      setJob { j with fin := some 6 } (setCx k {} (penalty 17 ((d.sat CMP_HARD.COUNT).ev CMP_EVENT.HARD_FAIL)))
    else
      let c := { c.data block with tin := c.tin + n }
      let out := j.obits ++ (if ok then enc else storedBits final j.obits.length block)
      let (bytes, rest) := packBits out.length out
      let (j1, fits, d) := cmpPut j bytes d
      let done (j : CmpJob) : CmpJob := { j with inp := j.inp.drop n, used := j.used + n, blocks := j.blocks + 1 }
      if !fits then setJob { j1 with fin := some 7 } (setCx k {} d)
      else if whole then
        let (tail, _) := packBits 300 (jobTail j.last c rest)
        let (j2, fits, d) := cmpPut j1 tail d
        if fits then
          let c := { c with tout := c.tout + bytes.length + tail.length }
          setJob { done j2 with obits := [], fin := some 0 } (setCx k (if final then {} else c) (d.sat CMP_BLOCKS.COUNT))
        else if rest.isEmpty || decide (j1.made < j1.dstLen) then
          setJob { done j2 with fin := some 7 } (setCx k {} (d.sat CMP_BLOCKS.COUNT))
        else setJob { j2 with fin := some 7 } (setCx k {} d)
      else
        let j := done j1
        let j := { j with obits := rest, bUsed := j.used, bMade := j.made }
        cmpAsk 32768 (setJob j (setCx k { c with tout := c.tout + bytes.length } (d.sat CMP_BLOCKS.COUNT)))

/-- How a run of the decoder to the next boundary ended. -/
inductive Ran where
  | starved | bad | stream
  | full (block : Bool)
  | boundary (block : Bool)
  deriving DecidableEq, Repr

/-- Run the decoder to a block boundary (R341): the end of a block, or a multiple of 32,768 bytes consumed or produced. -/
def infRun : Nat → CmpCtx → Bytes → Nat → Nat → Nat → List Byte → Ran × CmpCtx × Bytes × Nat × Nat × List Byte
  | 0, c, inp, used, made, _, acc => (.starved, c, inp, used, made, acc)
  | fuel + 1, c, inp, used, made, room, acc =>
    match infStep c with
    | .bad => (.bad, c, inp, used, made, acc)
    | .need =>
      (match inp with
       | [] => (.starved, c, inp, used, made, acc)
       | b :: rest =>
         let c := { c with bits := c.bits ++ bitsOf 8 b.toNat, tin := c.tin + 1 }
         if (used + 1) % 32768 = 0 then (.boundary false, c, rest, used + 1, made, acc)
         else infRun fuel c rest (used + 1) made room acc)
    | .go c out block fin =>
      let (made, room, acc) := match out with
        | some b => (made + 1, room - 1, b :: acc)
        | none => (made, room, acc)
      if fin then (.stream, c, inp, used, made, acc)
      else if out.isSome ∧ room = 0 then (.full block, c, inp, used, made, acc)
      else if block then (.boundary true, c, inp, used, made, acc)
      else if out.isSome ∧ made % 32768 = 0 then (.boundary false, c, inp, used, made, acc)
      else infRun fuel c inp used made room acc

/-- A decompression job runs to its next boundary or its end (R340, R341). -/
def cmpInflate (j : CmpJob) (d : Dev) : Dev :=
  let k := ctxOf j.ring
  if j.inp.isEmpty ∧ j.used < j.srcLen then d
  else if j.dstLen ≤ j.made then setJob { j with fin := some 7 } d
  else
    let (how, c, inp, used, made, acc) := infRun 400000 (d.cx k) j.inp j.used j.made (j.dstLen - j.made) []
    let (_, _, d) := cmpPut j acc.reverse d
    let j := { j with inp := inp, used := used, made := made }
    let ended : Bool := match how with
      | .boundary b | .full b => b
      | _ => false
    let j := { j with blocks := j.blocks + (if ended then 1 else 0) }
    let d := if ended then d.sat CMP_BLOCKS.COUNT else d
    let more (j : CmpJob) : Dev := cmpAsk 32768 (setJob j (setCx k c d))
    match how with
    | .bad => setJob { j with fin := some 8 } (setCx k {} d)
    | .full _ => setJob { j with fin := some 7 } (setCx k c d)
    | .stream => setJob { j with strEnd := true, fin := some 0 } (setCx k {} d)
    | .boundary _ => more { j with bUsed := used, bMade := made }
    | .starved =>
      if used < j.srcLen then more j
      else if j.last then setJob { j with fin := some 8 } (setCx k {} d)
      else setJob { j with fin := some 0 } (setCx k c d)

/-- Count how a job ended, and leave the engine free. -/
def cmpFinish (j : CmpJob) (status used made : Nat) (d : Dev) : Dev :=
  let d := match status with
    | 7 => d.ev CMP_EVENT.OUT_FULL
    | 8 => (d.sat CMP_DATA_ERR.COUNT).ev CMP_EVENT.DATA_ERR
    | 6 | 2 => (d.sat CMP_ABORTS.COUNT).ev CMP_EVENT.JOB_ABORT
    | _ => d
  cmpSync (cmpWriteBack j.ring j.cnt status used made j.blocks j.vf j.strEnd (d.cmpMod fun m => { m with job := none }))

/-- A block boundary of the running job has been reached and nothing has been taken in behind it, or no input for the rest of
the block will come (R342). -/
def Dev.cmpAtBoundary (d : Dev) (j : CmpJob) : Bool :=
  (j.bUsed == j.used && j.bMade == j.made) ||
    !((d.host.wants.any fun w => w.ring == j.ring && w.cnt == j.cnt) || (d.host.reads.any fun x => match x.use with
      | .pay q c _ _ => q == j.ring && c == j.cnt
      | _ => false))

/-- A running job ends early with a status, its counts those of the last boundary; its context is EMPTY (Table 16.3). -/
def cmpCut (j : CmpJob) (status : Nat) (d : Dev) : Dev := cmpFinish j status j.bUsed j.bMade (setCx (ctxOf j.ring) {} d)

/-- A running job stops at its boundary for its cause (R342, Table 16.3): contexts that a Kennel or a tier step empties raise
CTX_LOST. -/
def cmpJobStop (d : Dev) : Dev :=
  match d.cmp.job with
  | none => d
  | some j =>
    match j.stop with
    | none => d
    | some 0 =>
      cmpSync (cmpEmpty (fun k => k == ctxOf j.ring) (d.cmpMod fun m => { m with job := none }))
    | some c =>
      if j.op = 3 ∨ j.op = 4 ∨ j.fin.isSome ∨ !d.cmpAtBoundary j then d
      else cmpCut j 6 (if c = 1 then cmpEmpty (fun k => k == ctxOf j.ring) d else d)

/-- The data of the running job are lost: it ends at once (R342). -/
def cmpLost (j : CmpJob) (d : Dev) : Dev := if j.stop = some 0 then cmpJobStop d else cmpCut j 2 d

/-- A block of the running job is done (R336, R338, R341). -/
def cmpBlockDone (upset : Nat) (d : Dev) : Dev :=
  match d.cmp.job with
  | some j =>
    if j.fin.isSome then d
    else
      let (lost, d) := bufRead .cmp d
      if lost then cmpLost j d
      else match j.op with
        | 0 | 1 => cmpBlock j upset d
        | 2 => cmpInflate j d
        | _ => d
  | none => d

/-- The running job has reached its end (R335 to R341, R345); a restore replaces the context or is refused. -/
def cmpJobEnd (d : Dev) : Dev :=
  match d.cmp.job with
  | none => d
  | some j =>
    if j.stop = some 0 then d
    else if j.op = 4 ∧ j.fin = none then
      if j.inp.length < 34816 then d
      else
        let ok := blobOk j.inp
        let d := setCx (ctxOf j.ring) (if ok then blobCtx j.inp else {}) d
        cmpFinish j (if ok then 0 else 8) 34816 34816 d
    else match j.fin with
      | some st => cmpFinish j st j.used j.made d
      | none => d

/-- A payload read of the running job failed, or its data came poisoned (R342). -/
def cmpFetchErr (r cnt : Nat) (d : Dev) : Dev :=
  match d.cmp.job with
  | some j => if j.ring = r ∧ j.cnt = cnt then cmpLost j d else d
  | none => d

/-- Jobs fetched while compression is not available return ABORT (R343). -/
def cmpRefuseFetched (d : Dev) : Dev :=
  if d.cmpAvail then d
  else
    (List.range 16).foldl (fun d k =>
      let r := 384 + k
      let x := d.ring r
      if x.st = 2 then
        (List.range x.taken.length).foldl (fun d i =>
          if (x.taken.getD i {}).begun then d else cmpReturn r ((x.cons + i) % 65536) 6 d) d
      else d) d

/-! ### Enable, domain and tier (R343, R344) -/

/-- CMP_CTRL.EN is written. -/
def cmpEn (b : Bool) (d : Dev) : Dev :=
  let d := d.wrB CMP_CTRL.EN b
  let r := d.rd CMP_STATUS.RUN
  let n := if b then runEnable (d.pd 6) r else runDisable r
  let d := d.wr CMP_STATUS.RUN n
  if n = 3 ∧ r ≠ 3 then cmpStopCause 2 d else d

/-- The stopping engine has no job running (R344). -/
def cmpStopped (d : Dev) : Dev :=
  if d.cmp.job.isNone then d.wr CMP_STATUS.RUN (runQuiet (d.rd CMP_STATUS.RUN)) else d

/-- The announce of a step that removes compression (R342, R343). -/
def cmpAnnounce (d : Dev) : Dev := cmpRefuseFetched (cmpStopCause 1 (d.wrB CMP_STATUS.AVAIL false))

/-- Its apply: PD6 goes off, every context becomes EMPTY; a job still running ends with it. -/
def cmpGone (d : Dev) : Dev :=
  let d := cmpEmpty (fun _ => true) (cmpJobStop d)
  (d.wr CMP_STATUS.RUN 0).wrB CMP_STATUS.AVAIL false

/-- PD6 is powered: compression is available, and an enable held pending starts the engine. -/
def cmpPowered (d : Dev) : Dev :=
  let d := d.wrB CMP_STATUS.AVAIL true
  if d.on CMP_CTRL.EN then d.wr CMP_STATUS.RUN (runEnable true (d.rd CMP_STATUS.RUN)) else d

end Sys2Proof.Machine
end

