-- ==== Sys2Proof/Machine/AudioOps.lean ====
section
/-!
DEFINITION. Machine/AudioOps.lean: samples, G.711, gains and Pegline erasures
(spec/14_voice_ports_and_the_service_speaker.md, R302, R305, R308, R309).
-/

namespace Sys2Proof.Machine

/-! ### G.711 (R305) -/

/-- The number of the thresholds a (rising) that v exceeds. -/
def segOf (a : List Nat) (v : Nat) : Nat := (a.takeWhile fun t => decide (t < v)).length

/-- A-law code of a 16-bit sample: from its 13 most significant bits, with the even-bit inversion. -/
def alawEnc (x : Int) : Nat :=
  let p := x / 8
  let neg := decide (p < 0)
  let m := (if p < 0 then -p - 1 else p).toNat
  let s := segOf [0x1F, 0x3F, 0x7F, 0xFF, 0x1FF, 0x3FF, 0x7FF, 0xFFF] m
  let q := if s < 2 then m / 2 % 16 else m / 2 ^ s % 16
  ((min s 7) * 16 + (if 8 ≤ s then 15 else q)) ^^^ (if neg then 0x55 else 0xD5)

/-- The 16-bit value of an A-law code. -/
def alawDec (c : Nat) : Int :=
  let a := c ^^^ 0x55
  let t := a % 16 * 16
  let s := a / 16 % 8
  let v := if s = 0 then t + 8 else (t + 0x108) * 2 ^ (s - 1)
  if 128 ≤ a then (v : Int) else -(v : Int)

/-- µ-law code of a 16-bit sample: from its 14 most significant bits, with the bit inversion. -/
def ulawEnc (x : Int) : Nat :=
  let p := x / 4
  let neg := decide (p < 0)
  let m := min 8159 (if p < 0 then -p else p).toNat + 33
  let s := segOf [0x3F, 0x7F, 0xFF, 0x1FF, 0x3FF, 0x7FF, 0xFFF, 0x1FFF] m
  (if 8 ≤ s then 0x7F else s * 16 + m / 2 ^ (s + 1) % 16) ^^^ (if neg then 0x7F else 0xFF)

/-- The 16-bit value of a µ-law code. -/
def ulawDec (c : Nat) : Int :=
  let u := 255 - c % 256
  let t := (u % 16 * 8 + 0x84) * 2 ^ (u / 16 % 8)
  if 128 ≤ u then 0x84 - (t : Int) else (t : Int) - 0x84

/-- The silence code of law 1 (A) or 2 (µ). -/
def silenceCode (law : Nat) : Nat := if law = 1 then 0xD5 else 0xFF

/-- A 16-bit sample in law 1 or 2. -/
def encLaw (law : Nat) (x : Int) : Nat := if law = 1 then alawEnc x else ulawEnc x

/-- The 16-bit value of a code. -/
def decLaw (law c : Nat) : Int := if law = 1 then alawDec c else ulawDec c

/-! ### Samples -/

/-- A linear sample, left-justified in 32 bits. -/
def Smp.lin (x : Int) : Smp := { x := x }

/-- A G.711 code. -/
def Smp.ofCode (law c : Nat) : Smp := { x := decLaw law c * 65536, law := law, code := c }

/-- Silence. -/
def Smp.zero : Smp := {}

/-- The code of a sample in a law: unchanged when it came as one, else encoded from its linear value (R302, R305). A
linear zero is the silence code. -/
def Smp.enc (law : Nat) (s : Smp) : Nat :=
  if s.law = law then s.code else encLaw law (s.x / 65536)

/-- A sample with gain n / k: unchanged at full gain (R305). -/
def Smp.scale (n k : Nat) (s : Smp) : Smp := if k ≤ n then s else Smp.lin ((s.x * (n : Int)).tdiv (max k 1 : Nat))

/-- The 32-bit slot word of a sample: the code of a companded slot, else its w most significant bits (R302, R305). -/
def Smp.word (codec w : Nat) (s : Smp) : Nat :=
  if codec = 0 then uns 32 s.x / 2 ^ (32 - w) * 2 ^ (32 - w) else s.enc codec * 2 ^ 24

/-- The sample of a received slot word. -/
def Smp.ofWord (codec w x : Nat) : Smp :=
  if codec = 0 then Smp.lin (sgn 32 (x / 2 ^ (32 - w) * 2 ^ (32 - w))) else Smp.ofCode codec (x / 2 ^ 24 % 256)

/-- Bytes of a container (Table 14.4). -/
def contBytes (cont : Nat) : Nat := match cont with
  | 0 => 2
  | 1 => 4
  | _ => 1

/-- The sample in a container. -/
def Smp.ofBytes (cont codec : Nat) (bs : Bytes) : Smp :=
  match cont with
  | 0 => Smp.lin (sgn 16 (leNat bs) * 65536)
  | 1 => Smp.lin (sgn 32 (leNat bs))
  | _ => Smp.ofCode codec (leNat bs)

/-- A sample in its container; a word wider than the container is truncated to it. -/
def Smp.bytes (cont codec : Nat) (s : Smp) : Bytes :=
  match cont with
  | 0 => leBytes 2 (uns 32 s.x / 65536)
  | 1 => leBytes 4 (uns 32 s.x)
  | _ => leBytes 1 (s.enc codec)

/-! ### Gains (R309) -/

/-- A gain in motion: the FADE code (0 full, 1 fading out, 2 silent, 3 ramping in) and the place gPos of gLen. Each tick
it moves by one step of 1 / n towards silence or full gain. -/
def gainTick (n : Nat) (down : Bool) (fade : Nat) (c : AudCh) : Nat × AudCh :=
  if down then
    if fade = 2 then (2, { c with gPos := 0, gLen := n })
    else
      let c := if fade = 1 then c else { c with gPos := if fade = 0 then n else c.gPos * n / max c.gLen 1, gLen := n }
      let p := c.gPos - 1
      (if p = 0 then 2 else 1, { c with gPos := p })
  else
    if fade = 0 then (0, c)
    else
      let c := if fade = 3 then c else { c with gPos := c.gPos * n / max c.gLen 1, gLen := n }
      let p := c.gPos + 1
      (if c.gLen ≤ p then 0 else 3, { c with gPos := p })

/-! ### Pegline voice (R248, R308) -/

/-- Bring an erasure record to round r, in which Pegline handed over xs (none where it handed over nothing). Also tells
whether a newly erased round was met, and whether a good round follows an erased one. -/
def Era.enter (r law : Nat) (xs : Option (List (Option Byte))) (e : Era) : Era × Bool × Bool :=
  if e.rd = some r then (e, false, false)
  else match xs with
    | none => ({ e with rd := some r, er := 0, cur := List.replicate 16 (silenceCode law), law := law }, false, false)
    | some xs =>
      if xs.any (·.isNone) then ({ e with rd := some r, er := e.er + 1, cur := [] }, true, false)
      else
        let cs := xs.map fun b => (b.getD 0).toNat
        ({ e with rd := some r, er := 0, cur := cs, good := cs, law := law }, false, e.er != 0)

/-- The sample of frame k of the record's round: in GUARDED mode the last good round again, then faded to 0 over its 16
samples, then silence; in RAW mode silence (R308). -/
def Era.sample (guarded : Bool) (k : Nat) (e : Era) : Smp :=
  if e.er = 0 then Smp.ofCode e.law (e.cur.getD k (silenceCode e.law))
  else
    let s := Smp.ofCode e.law (e.good.getD k (silenceCode e.law))
    if !guarded then Smp.zero
    else match e.er with
      | 1 => s
      | 2 => s.scale (15 - k) 16
      | _ => Smp.zero

/-- The law of Pegline voice: 1 A-law, 2 µ-law (R308). -/
def Dev.voiceLaw (d : Dev) : Nat := if d.sap.law then 2 else 1

/-- SAP_VOICE_LAW applies from the round that begins. -/
def voiceLawTake (d : Dev) : Dev := { d with sap := { d.sap with law := d.on SAP_VOICE_LAW.LAW } }

/-- What Pegline hands over for voice channel c in this round. -/
def Dev.voiceHanded (d : Dev) (c : Nat) : Option (List (Option Byte)) :=
  (d.peg.vPlay.find? fun x => x.1 == c).map (·.2)

/-- A source puts the code of frame k of this round into voice channel c (R248, R308). -/
def voiceTake (c k code : Nat) (d : Dev) : Dev :=
  let p := d.peg
  let old := ((p.vTake.find? fun x => x.1 == c).map (·.2)).getD (List.replicate 16 (BitVec.ofNat 8 (silenceCode d.voiceLaw)))
  { d with peg := { p with
    vTake := (p.vTake.filter fun x => x.1 != c) ++ [(c, old.set k (BitVec.ofNat 8 code))] } }

end Sys2Proof.Machine
end

