-- ==== Sys2Proof/Machine/ClassOps.lean ====
section
/-!
DEFINITION. Machine/ClassOps.lean: the classifier: key, lookup, entries, staging and commit
(spec/08_classification_and_gate_schedules.md, R177 to R185).
-/

namespace Sys2Proof.Machine

/-- Change the tables' internals. -/
def Dev.tabMod (d : Dev) (g : Tables → Tables) : Dev := { d with tab := g d.tab }

/-! ### The key (R178, Table 8.2) -/

/-- The n bytes at o as a number, 0 where the frame does not carry them. -/
def beAt (bs : Bytes) (o n : Nat) : Nat := if o + n ≤ bs.length then beNat (slice bs o n) else 0

/-- An EtherType that the classifier takes for a VLAN tag. -/
def isTag (e : Nat) : Bool := e == 0x8100 || e == 0x88A8

/-- VLAN tags after the source address: 0, 1 or 2. -/
def tagCount (bs : Bytes) : Nat :=
  if isTag (beAt bs 12 2) then (if isTag (beAt bs 16 2) then 2 else 1) else 0

/-- The offset of the EtherType after at most two tags. -/
def etypeAt (bs : Bytes) : Nat := 12 + 4 * tagCount bs

/-- The fields of a frame's first 128 B (R178). -/
structure KeyFields where
  dmac  : Nat
  etype : Nat
  ipdst : Nat
  vid   : Nat
  pcp   : Nat
  vlan  : Bool
  dscp  : Nat
  ipv4  : Bool
  udp   : Bool
  port  : Nat
  deriving DecidableEq, Repr

/-- Read the key fields. -/
def keyFields (data : Bytes) : KeyFields :=
  let bs := data.take 128
  let vlan := isTag (beAt bs 12 2)
  let tci := if vlan then beAt bs 14 2 else 0
  let e := etypeAt bs
  let ip := e + 2
  let ipv4 := beAt bs e 2 == 0x0800 && beAt bs ip 1 / 16 == 4
  let ihl := beAt bs ip 1 % 16 * 4
  let udp := ipv4 && beAt bs (ip + 9) 1 == 17 && beAt bs (ip + 6) 2 % 0x2000 == 0 && decide (ip + ihl + 4 ≤ bs.length)
  { dmac := beAt bs 0 6
    etype := beAt bs e 2
    ipdst := if ipv4 then beAt bs (ip + 16) 4 else 0
    vid := tci % 4096
    pcp := tci / 8192
    vlan := vlan
    dscp := if ipv4 then beAt bs (ip + 1) 1 / 4 else 0
    ipv4 := ipv4
    udp := udp
    port := if udp then beAt bs (ip + ihl + 2) 2 else 0 }

/-- The 160-bit key as five words (Table 8.2). -/
def keyWords (k : KeyFields) (src : Nat) : List Nat :=
  [k.dmac % 2 ^ 32, k.dmac / 2 ^ 32 + k.etype * 2 ^ 16, k.ipdst,
   k.vid + k.pcp * 2 ^ 12 + b2n k.vlan * 2 ^ 15 + k.dscp * 2 ^ 16 + src * 2 ^ 22 + b2n k.ipv4 * 2 ^ 25 + b2n k.udp * 2 ^ 26,
   k.port]

/-- The key bits that each profile bit selects, per word (Table 8.2). -/
def profileMask (p : Nat) : List Nat :=
  let w (b m : Nat) : Nat := if bit p b then m else 0
  [w 0 0xFFFFFFFF, w 0 0xFFFF + w 1 0xFFFF0000, w 4 0xFFFFFFFF,
   w 2 0x8FFF + w 3 0x7000 + w 5 0x3F0000 + w 7 0x1C00000 + w 4 0x2000000 + w 6 0x4000000,
   w 6 0xFFFF]

/-- Words ANDed pairwise. -/
def andWords (a b : List Nat) : List Nat := List.zipWith (· &&& ·) a b

/-! ### Entries (Table 8.3) -/

/-- Words of a committed entry, CTRL left out. -/
def Dev.entWords (d : Dev) (mk : Bool) (i : Nat) : List Nat :=
  (List.range (ctrlIdx mk)).map fun k => d.word (entOff mk i k)

/-- The valid entries of a store, in rising index. Only listed words can hold VALID = 1. -/
def Dev.validEnts (d : Dev) (mk : Bool) : List Nat :=
  let base := if mk then 0x230000 else 0x210000
  let top := if mk then 0x234000 else 0x230000
  let st := if mk then 64 else 32
  (d.regs.filter fun c => decide (base ≤ c.1 ∧ c.1 < top) && (c.1 - base) % st == 4 * ctrlIdx mk && c.2.toNat % 2 == 1).map
    fun c => (c.1 - base) / st

/-- The decision that action words give (Table 8.4, R183); tc1 is the class of TC_FROM_PCP. -/
def actionOf (a0 a1 tc1 index gen : Nat) (hit : Bool) : Decision :=
  { kind := bits a0 0 2, mask := bits a0 2 4, tc := if bit a0 9 then tc1 else bits a0 6 3, fn := bits a0 10 4,
    qp := bits a0 14 7, frer := bit a0 21, stream := bits a0 22 10, follow := bit a1 0, partner := bits a1 1 2,
    flow := bits a1 4 8, hit := hit, index := index, gen := gen }

/-- TC of a key by CLS_PCP_MAP. -/
def Dev.pcpTc (d : Dev) (k : KeyFields) : Nat :=
  if k.vlan then bits (d.rd CLS_PCP_MAP.TC_P) (3 * k.pcp) 3 else d.rd CLS_PCP_MAP.UNTAGGED

/-- The entry that wins: exact match, then masked match (R179). -/
def Dev.winner (d : Dev) (key : List Nat) (src : Nat) : Option (Bool × Nat) :=
  let ek := andWords key (profileMask (d.rd (CLS_PROFILEs.FIELDS src)))
  let ex := if d.on CLS_CTRL.EXACT_EN then
      (d.validEnts false).find? fun i => (d.entWords false i).take 5 == ek else none
  match ex with
  | some i => some (false, i)
  | none =>
    let mk := if d.on CLS_CTRL.MASKED_EN then
        (d.validEnts true).find? fun j =>
          let w := d.entWords true j
          andWords key ((w.drop 5).take 5) == w.take 5
      else none
    mk.map fun j => (true, j)

/-- The lookup of a frame from source src (R179, R180). -/
def lookup (src : Nat) (data : Bytes) (d : Dev) : Decision × Dev :=
  let k := keyFields data
  match d.winner (keyWords k src) src with
  | some (mk, i) =>
    let w := d.entWords mk i
    let idx := if mk then 4096 + i else i
    (actionOf (w.getD (actIdx mk) 0) (w.getD (actIdx mk + 1) 0) (d.pcpTc k) idx (bits (d.entCtrl mk i) 8 8) true,
     satWord (hitsOff idx) 1 d)
  | none => (actionOf (d.rd (CLS_DEFAULTs.ACTION0 src)) 0 (d.pcpTc k) 0x1FFF 0 false, d.sat CLS_MISS_CNT.COUNT)

/-! ### Staging and commit (R181, R182) -/

/-- The staging buffer of a store. -/
def Dev.stage (d : Dev) (mk : Bool) : Stage := if mk then d.tab.msk else d.tab.ex

/-- Set a staging buffer and show it in CLS_STATUS. -/
def setStage (mk : Bool) (s : Stage) (d : Dev) : Dev :=
  if mk then ((d.tabMod fun t => { t with msk := s }).wr CLS_STATUS.STAGE_MK s.idx).wrB CLS_STATUS.STAGE_MK_DIRTY s.dirty
  else ((d.tabMod fun t => { t with ex := s }).wr CLS_STATUS.STAGE_EX s.idx).wrB CLS_STATUS.STAGE_EX_DIRTY s.dirty

/-- A write of word k (not CTRL) of entry i goes to staging (R182). -/
def clsEntryWrite (mk : Bool) (i k x : Nat) (d : Dev) : Dev :=
  let s := d.stage mk
  if s.held && s.idx == i then setStage mk { s with dirty := true, w := s.w.set k x } d
  else
    let d := if s.held && s.dirty then (d.sat CLS_STAGE_LOST.COUNT).ev CLS_EVENT.STAGE_LOST else d
    setStage mk { idx := i, held := true, dirty := true, w := (d.entWords mk i).set k x } d

/-- Action words keep the rules of R181; flowOk tells whether a Pegline flow exists. -/
def actionOk (flowOk : Nat → Bool) (a0 a1 : Nat) : Bool :=
  let kind := bits a0 0 2
  let mask := bits a0 2 4
  bits a1 3 1 == 0 && bits a1 12 20 == 0 &&
  (kind != 0 || mask != 0) &&
  (!bit a1 0 || (kind == 0 && !bit mask (bits a1 1 2))) &&
  (kind != 3 || flowOk (bits a1 4 8))

/-- Reserved key bits are 0. -/
def keyOk (w : List Nat) : Bool := bits (w.getD 3 0) 27 5 == 0 && bits (w.getD 4 0) 16 16 == 0

/-- An entry keeps the rules of R181, whatever its VALID. -/
def entryOk (flowOk : Nat → Bool) (mk : Bool) (w : List Nat) (ctrl : Nat) : Bool :=
  bits ctrl 1 7 == 0 && bits ctrl 16 16 == 0 &&
  keyOk w && actionOk flowOk (w.getD (actIdx mk) 0) (w.getD (actIdx mk + 1) 0) &&
  (!mk || (keyOk ((w.drop 5).take 5) && (w.drop 12).all (· == 0) &&
    andWords (w.take 5) ((w.drop 5).take 5) == w.take 5))

/-- A CTRL write commits the staged words of entry i, or refuses them (R181, R182). -/
def clsCommit (flowOk : Nat → Bool) (mk : Bool) (i ctrl : Nat) (d : Dev) : Dev :=
  let s := d.stage mk
  let mine := s.held && s.idx == i
  let w := if mine then s.w else d.entWords mk i
  if entryOk flowOk mk w ctrl then
    let gen := (bits (d.entCtrl mk i) 8 8 + 1) % 256
    let d := (List.range (ctrlIdx mk)).foldl (fun d k => d.setWord (entOff mk i k) (w.getD k 0)) d
    let d := d.setWord (entOff mk i (ctrlIdx mk)) (ctrl % 2 + gen * 256)
    if mine then setStage mk { s with dirty := false } d else d
  else
    let d := (d.sat CLS_ENTRY_REJ.COUNT).ev CLS_EVENT.ENTRY_REJ
    if mine then setStage mk { s with dirty := false, w := d.entWords mk i } d else d

end Sys2Proof.Machine
end

