-- ==== Sys2Proof/Machine/FreOps.lean ====
section
/-!
DEFINITION. Machine/FreOps.lean: replication and elimination
(spec/09_replication_and_elimination.md, R200 to R215).
-/

namespace Sys2Proof.Machine

/-! ### Stream words (Table 9.3) -/

/-- Offset of word k of stream s. -/
def strmOff (s k : Nat) : Nat := 0x280000 + 32 * s + 4 * k

/-- Word k of stream s. -/
def Dev.sw (d : Dev) (s k : Nat) : Nat := d.word (strmOff s k)

/-- Set a word of stream s. -/
def setSw (s k x : Nat) (d : Dev) : Dev := d.setWord (strmOff s k) x

def Dev.sMode (d : Dev) (s : Nat) : Nat := bits (d.sw s 0) 0 2
def Dev.sHost (d : Dev) (s : Nat) : Bool := bit (d.sw s 0) 2
def Dev.sPop (d : Dev) (s : Nat) : Bool := bit (d.sw s 0) 3
def Dev.sHist (d : Dev) (s : Nat) : Nat := bits (d.sw s 0) 4 6 + 1
def Dev.sValid (d : Dev) (s : Nat) : Bool := bit (d.sw s 7) 0
def Dev.takeAny (d : Dev) (s : Nat) : Bool := bit (d.sw s 7) 3
def Dev.seqNext (d : Dev) (s : Nat) : Nat := bits (d.sw s 4) 0 16
def Dev.recovSeq (d : Dev) (s : Nat) : Nat := bits (d.sw s 4) 16 16
def Dev.history (d : Dev) (s : Nat) : Nat := d.sw s 5 + d.sw s 6 * 2 ^ 32

/-- Set SEQ_NEXT. -/
def setSeqNext (s v : Nat) (d : Dev) : Dev := setSw s 4 (setBits (d.sw s 4) 0 16 v) d

/-- Set RECOV_SEQ and the history. -/
def setRecov (s v h : Nat) (d : Dev) : Dev :=
  setSw s 6 (h / 2 ^ 32) (setSw s 5 (h % 2 ^ 32) (setSw s 4 (setBits (d.sw s 4) 16 16 v) d))

/-- Set TAKE_ANY. -/
def setTakeAny (s : Nat) (b : Bool) (d : Dev) : Dev := setSw s 7 (putBit (d.sw s 7) 3 b) d

/-- What is kept for stream s beyond its words. -/
def Dev.strm (d : Dev) (s : Nat) : Strm := cellRead (fun _ => {}) d.tab.streams s

/-- Change what is kept for stream s. -/
def Dev.strmMod (d : Dev) (s : Nat) (g : Strm → Strm) : Dev :=
  d.tabMod fun t => { t with streams := cellWrite (fun _ => {}) t.streams s (g (cellRead (fun _ => {}) t.streams s)) }

/-- Add n to counter i of stream s (Table 9.5). -/
def strmCnt (s i n : Nat) (d : Dev) : Dev := satWord (0x290000 + 64 * s + 4 * i) n d

/-- Streams with a valid entry, in rising order: only listed words can hold VALID = 1. -/
def Dev.validStreams (d : Dev) : List Nat :=
  (d.regs.filter fun c => decide (0x280000 ≤ c.1 ∧ c.1 < 0x288000) && c.1 % 32 == 28 && c.2.toNat % 2 == 1).map
    fun c => (c.1 - 0x280000) / 32

/-! ### The R-TAG (R201) -/

/-- The number of a frame's R-TAG: directly before its EtherType, after its VLAN tags. -/
def rtagSeq (data : Bytes) : Option Nat :=
  let o := etypeAt data
  if beAt data o 2 = 0xF1C1 ∧ o + 6 ≤ data.length then some (beAt data (o + 4) 2) else none

/-- Replace the FCS of a frame by that of its bytes. -/
def reFcs (data : Bytes) : Bytes :=
  let b := data.take (data.length - 4)
  b ++ leBytes 4 (crc32 b)

/-- Insert an R-TAG with a number, or overwrite the number of the one present (Table 9.2). -/
def stampTag (seq : Nat) (data : Bytes) : Bytes :=
  let o := etypeAt data
  reFcs (if (rtagSeq data).isSome then patch data (o + 4) (beBytes 2 seq)
    else data.take o ++ beBytes 2 0xF1C1 ++ beBytes 2 0 ++ beBytes 2 seq ++ data.drop o)

/-- Remove the R-TAG (POP). -/
def popTag (data : Bytes) : Bytes :=
  let o := etypeAt data
  if (rtagSeq data).isSome then reFcs (data.take o ++ data.drop (o + 6)) else data

/-! ### Numbers (R203) -/

/-- Set bits of m below position n. -/
def popBelow (m n : Nat) : Nat := ((List.range n).filter fun i => bit m i).length

/-- The time-derived number of a slot of the round that starts at era-extended frame e. -/
def timeSeq (mask slot e : Nat) : Nat := (e / 16 * popBelow mask 64 + popBelow mask slot) % 65536

/-- The slot mask of stream s. -/
def Dev.slotMask (d : Dev) (s : Nat) : Nat := d.sw s 2 + d.sw s 3 * 2 ^ 32

/-- The device holds the Leash token (R206, FRE_STATUS.HOLDER). -/
def Dev.holder (d : Dev) : Bool := d.on FRE_STATUS.HOLDER

/-- Time-derived numbering is possible (R204, FRE_STATUS.GRID_OK). -/
def Dev.gridOk (d : Dev) : Bool := d.on FRE_STATUS.GRID_OK

/-! ### The decision (R202) -/

/-- What the FRE did with a frame: pass it with these bytes and this stream GEN, or drop it. -/
structure FreOut where
  pass : Bool
  data : Bytes
  sgen : Option Nat
  deriving DecidableEq, Repr

/-- A frame dropped at a generating or invalid stream. -/
def genDrop (s : Nat) (data : Bytes) (d : Dev) : FreOut × Dev :=
  (⟨false, data, some (bits (d.sw s 7) 8 8)⟩, (strmCnt s 7 1 d).ev FRE_EVENT.GEN_DROP)

/-- A frame passed. -/
def frePass (s : Nat) (data : Bytes) (d : Dev) : FreOut × Dev :=
  (⟨true, data, some (bits (d.sw s 7) 8 8)⟩, strmCnt s 0 1 d)

/-- Unseen numbers among the delta oldest bits of a history of length n (R207). -/
def lostIn (h n delta : Nat) : Nat :=
  ((List.range delta).filter fun i => !(decide (i < n) && bit h (n - 1 - i))).length

/-- Vector recovery of a frame with number seq (R207). -/
def recover (s seq : Nat) (data : Bytes) (d : Dev) : FreOut × Dev :=
  let n := d.sHist s
  let g := bits (d.sw s 7) 8 8
  let out := if d.sPop s then popTag data else data
  let passed (d : Dev) : FreOut × Dev :=
    (⟨true, out, some g⟩, (strmCnt s 0 1 d).strmMod s fun x => { x with idleFr := 0, p := x.p + 1 })
  if d.takeAny s then passed (setTakeAny s false (setRecov s seq 1 d))
  else
    let delta := sgn 16 (seq + 65536 - d.recovSeq s)
    if (n : Int) ≤ delta ∨ delta ≤ -(n : Int) then
      let d := (strmCnt s 3 1 d).ev FRE_EVENT.ROGUE
      (⟨false, data, some g⟩, (d.wr FRE_LAST_ROGUE.STREAM s).wr FRE_LAST_ROGUE.SEQ seq)
    else if delta ≤ 0 then
      let k := delta.natAbs
      if bit (d.history s) k then
        (⟨false, data, some g⟩, (strmCnt s 1 1 d).strmMod s fun x => { x with dd := x.dd + 1 })
      else passed (strmCnt s 2 1 (setRecov s (d.recovSeq s) (d.history s + 2 ^ k) d))
    else
      let k := delta.toNat
      let d := strmCnt s 4 (lostIn (d.history s) n k) d
      passed (setRecov s seq ((d.history s * 2 ^ k + 1) % 2 ^ n) d)

/-- The FRE's action on a frame of stream q.stream; slot is the Pegline slot and the era-extended frame count of its
round's start, for a frame from Pegline (Table 9.2, R203). -/
def freDecide (src : Nat) (slot : Option (Nat × Nat)) (q : Decision) (data : Bytes) (d : Dev) : FreOut × Dev :=
  let s := q.stream
  if !q.frer || !d.on FRE_CTRL.EN then (⟨true, data, none⟩, d)
  else if !d.sValid s then genDrop s data d
  else
    match d.sMode s with
    | 0 =>
      if q.kind ≠ 0 ∨ (d.sHost s && !d.holder) then genDrop s data d
      else
        let seq := d.seqNext s
        frePass s (stampTag seq data) ((setSeqNext s (seq + 1) d).strmMod s fun x => { x with stamp := true })
    | 1 =>
      match slot with
      | some (k, e) =>
        let here := e * 64 + k
        if q.kind ≠ 0 ∨ src ≠ 4 ∨ !d.gridOk ∨ !d.valid ∨ !bit (d.slotMask s) k ∨ (d.strm s).lastGt = some here then
          genDrop s data d
        else frePass s (stampTag (timeSeq (d.slotMask s) k e) data) (d.strmMod s fun x => { x with lastGt := some here })
      | none => genDrop s data d
    | _ =>
      match rtagSeq data with
      | none => (⟨false, data, some (bits (d.sw s 7) 8 8)⟩, strmCnt s 6 1 d)
      | some seq => recover s seq data d

/-! ### Staging and commit (R211, R212) -/

/-- Words 0 to 3 of stream s. -/
def Dev.strmWords (d : Dev) (s : Nat) : List Nat := (List.range 4).map fun k => d.sw s k

/-- Set the staging buffer and show it in FRE_STATUS. -/
def setFreStage (s : Stage) (d : Dev) : Dev :=
  ((d.tabMod fun t => { t with fre := s }).wr FRE_STATUS.STAGE s.idx).wrB FRE_STATUS.STAGE_DIRTY s.dirty

/-- A write of word k of stream s: 0 to 3 are staged, 4 to 6 are read-only (R211). -/
def freEntryWrite (src : BusSrc) (s k x : Nat) (d : Dev) : Dev :=
  if 4 ≤ k then badWr src (strmOff s k) d
  else
    let t := d.tab.fre
    if t.held && t.idx == s then setFreStage { t with dirty := true, w := t.w.set k x } d
    else
      let d := if t.held && t.dirty then (d.sat FRE_STAGE_LOST.COUNT).ev FRE_EVENT.STAGE_LOST else d
      setFreStage { idx := s, held := true, dirty := true, w := (d.strmWords s).set k x } d

/-- The commit rules of R211. PATHS_M2 = 3 lies outside its range (Table 9.3). -/
def strmOk (w : List Nat) (ctrl : Nat) : Bool :=
  let w0 := w.getD 0 0
  let mode := bits w0 0 2
  bits ctrl 5 3 == 0 && bits ctrl 16 16 == 0 && bits w0 24 8 == 0 && bits (w.getD 1 0) 16 16 == 0 &&
  mode != 3 && bits w0 21 2 != 3 &&
  (mode != 1 || w.getD 2 0 != 0 || w.getD 3 0 != 0) &&
  (!bit w0 2 || mode == 0) &&
  (mode == 2 || (bits w0 3 18 == 0 && !bit w0 23)) &&
  (mode != 2 || decide (1 ≤ bits w0 10 11 ∧ bits w0 10 11 ≤ 1024))

/-- Set TAKE_ANY and clear the history (R212). -/
def recovReset (s : Nat) (d : Dev) : Dev :=
  (setTakeAny s true (setRecov s (d.recovSeq s) 0 d)).strmMod s fun x => { x with idleFr := 0 }

/-- A word-7 write commits stream s, or refuses it (R205, R211, R212). -/
def freCommit (s ctrl : Nat) (d : Dev) : Dev :=
  let t := d.tab.fre
  let mine := t.held && t.idx == s
  let w := if mine then t.w else d.strmWords s
  if strmOk w ctrl then
    let changed := bits (w.getD 0 0) 0 2 ≠ d.sMode s ∨ bits (w.getD 0 0) 4 6 + 1 ≠ d.sHist s ∨ bit ctrl 2
    let gen := (bits (d.sw s 7) 8 8 + 1) % 256
    let d := (List.range 4).foldl (fun d k => setSw s k (w.getD k 0) d) d
    let d := setSw s 7 (setBits (setBits (d.sw s 7) 0 1 ctrl) 8 8 gen) d
    let d := if bit ctrl 1 then setSeqNext s (bits (w.getD 1 0) 0 16) d else d
    let d := if changed then recovReset s d else d
    if mine then setFreStage { t with dirty := false } d else d
  else
    let d := (d.sat FRE_ENTRY_REJ.COUNT).ev FRE_EVENT.ENTRY_REJ
    if mine then setFreStage { t with dirty := false, w := d.strmWords s } d else d

/-! ### Timers (R206, R208, R209) -/

/-- A recovering stream has passed no frame for RESET_FR frame events (R208). -/
def recovTimeout (s : Nat) (d : Dev) : Dev :=
  if d.sValid s && d.sMode s == 2 && !d.takeAny s && decide (bits (d.sw s 0) 10 11 ≤ (d.strm s).idleFr) then
    (strmCnt s 5 1 (setTakeAny s true d)).ev FRE_EVENT.RECOV_RESET
  else d

/-- The frame event counts for every recovering stream (R208). -/
def freFrame (d : Dev) : Dev :=
  d.validStreams.foldl (fun d s =>
    if d.sMode s == 2 && !d.takeAny s then d.strmMod s fun x => { x with idleFr := x.idleFr + 1 } else d) d

/-- The latent check of one stream (R209). -/
def latentOne (s : Nat) (d : Dev) : Dev :=
  let w0 := d.sw s 0
  if d.sMode s == 2 && bit w0 23 then
    let x := d.strm s
    if x.p = 0 then d
    else
      let want := x.p * (bits w0 21 2 + 1)
      let bad := decide ((want : Int) - x.dd > want / 4 + 2)
      let d := (setSw s 7 (putBit (d.sw s 7) 4 bad) d).strmMod s fun x => { x with p := 0, dd := 0 }
      d.evIf bad FRE_EVENT.LATENT
  else d

/-- The latent check, at every LATENT_SF-th superframe event (R209): P and D count since the previous check. -/
def latentCheck (d : Dev) : Dev :=
  if d.rat.sfEv && decide (d.rd FRE_CFG.LATENT_SF ≤ d.tab.latentN) then
    d.validStreams.foldl (fun d s => latentOne s d) (d.tabMod fun t => { t with latentN := 0 })
  else d

/-- A superframe event counts towards the next latent check (R209), while PD1 is powered. -/
def latentFrame (superframe : Bool) (d : Dev) : Dev :=
  if superframe && d.pd 1 then d.tabMod fun t => { t with latentN := t.latentN + 1 } else d

/-- The device takes the token (R206): HOST_ORIG streams resume at the mirrored value plus TAKEOVER_SKIP. -/
def takeover (d : Dev) : Dev :=
  let skip := d.rd FRE_CFG.TAKEOVER_SKIP
  (d.tab.streams.foldl (fun d (s, x) =>
    if d.sMode s == 0 && d.sHost s then
      match x.mirror with
      | some v => setSeqNext s (v + skip) d
      | none => d
    else d) d).ev FRE_EVENT.TAKEOVER

/-- GRID_OK follows the round grid and the Hearth (R204). -/
def gridUpdate (grid : Bool) (d : Dev) : Dev :=
  let ok := grid && d.valid
  let was := d.gridOk
  (d.wrB FRE_STATUS.GRID_OK ok).evIf (was && !ok) FRE_EVENT.GRID_LOST

end Sys2Proof.Machine
end

