-- ==== Sys2Proof/Machine/GateOps.lean ====
section
/-!
DEFINITION. Machine/GateOps.lean: channel statistics (R173) and the gate engines
(spec/08_classification_and_gate_schedules.md, R188 to R199).
-/

namespace Sys2Proof.Machine

/-! ### Statistics (R173, R175) -/

/-- Add k to statistics counter i of channel n: it wraps, and bit 31 passing to 1 sets its HALF bit. Frozen while the
channel is fenced or removed (R175). -/
def stat (n i : Nat) (k : Nat := 1) (d : Dev) : Dev :=
  if d.on (CHn_STATUS.FENCED n) && !(d.ch n).fencing then d
  else
    let f := CHn_STATi.COUNT n i
    let old := d.rd f
    let d := d.wr f (old + k)
    if old < 2 ^ 31 ∧ 2 ^ 31 ≤ (old + k) % 2 ^ 32 then
      let d := if i < 32 then d.putBitOf (CHn_STAT_HALF0.HALF n) i true else d.putBitOf (CHn_STAT_HALF1.HALF n) (i - 32) true
      d.ev (CHn_EVENT.STAT_HALF n)
    else d

/-! ### Lists in time (R189) -/

/-- BASE of bank b of channel n, in the era in force (assumption log 14). -/
def Dev.bankBase (d : Dev) (n b : Nat) : Nat :=
  d.hearth.a.era * 2 ^ 64 + d.rd (CHn_GATE_Bb_BASE_HI.BASE n b) * 2 ^ 32 + d.rd (CHn_GATE_Bb_BASE_LO.BASE n b)

/-- CYCLE of bank b of channel n. -/
def Dev.bankCycle (d : Dev) (n b : Nat) : Nat := d.rd (CHn_GATE_Bb_CYCLE.CYCLE n b)

/-- The first cycle start at or after t (R195): BASE itself where it lies later. -/
def firstStart (base cyc t : Nat) : Nat := if t ≤ base then base else base + (t - base + cyc - 1) / cyc * cyc

/-- The first cycle start of bank b at or after t. -/
def Dev.bankStart (d : Dev) (n b t : Nat) : Nat := firstStart (d.bankBase n b) (d.bankCycle n b) t

/-- The cycle of bank b laid out (R189). -/
def Dev.bankLay (d : Dev) (n b : Nat) : List (Nat × Nat × Nat × Nat) := layCycle (d.bankCycle n b) 0 (d.gateList n b)

/-- Index of the entry that covers position p of a cycle. -/
def coverIdx (lay : List (Nat × Nat × Nat × Nat)) (p : Nat) : Nat := (lay.filter fun x => decide (x.1 ≤ p)).length - 1

/-- Gates of an entry: a CAL entry closes all (R191). -/
def entGates (lay : List (Nat × Nat × Nat × Nat)) (e : Nat) : Nat :=
  let (_, _, g, o) := lay.getD e (0, 0, 0, 0)
  if o = 3 then 0 else g

/-- The operation of an entry: 0 SET, 1 HOLD, 2 RELEASE, 3 CAL. -/
def entOp (lay : List (Nat × Nat × Nat × Nat)) (e : Nat) : Nat := (lay.getD e (0, 0, 0, 0)).2.2.2

/-! ### Engine state (R194, R198) -/

/-- Engine n as its voted copy. -/
def Dev.gate (d : Dev) (n : Nat) : GateCopy := (d.ch n).ga

/-- The fallback gates of channel n. -/
def Dev.fbGates (d : Dev) (n : Nat) : Nat := d.rd (CHn_GATE_FALLBACK.GATES n)

/-- Publish the voted state of engine n (CHn_GATE_STATUS, CHn_PREEMPT_STATUS.HOLD). -/
def gateShow (n : Nat) (d : Dev) : Dev :=
  let g := d.gate n
  let d := (d.wr (CHn_GATE_STATUS.GSTATE n) g.st).wr (CHn_GATE_STATUS.OPER_BANK n) (g.oper.getD 0)
  let d := d.wrB (CHn_GATE_STATUS.HAVE_LIST n) g.oper.isSome
  let d := (d.wr (CHn_GATE_STATUS.GATES n) g.gates).wr (CHn_GATE_STATUS.ENTRY n) g.entry
  (d.wrB (CHn_GATE_STATUS.HOLD n) g.hold).wrB (CHn_PREEMPT_STATUS.HOLD n) (g.hold && d.on (CHn_PREEMPT_STATUS.ACTIVE n))

/-- Put a state into all three copies of engine n in frame fr, noting the gates that close (R187). -/
def setGateAt (fr n : Nat) (g : GateCopy) (d : Dev) : Dev :=
  let old := (d.gate n).gates
  gateShow n <| d.chMod n fun c => { c with
    ga := g, gb := g, gc := g
    closedFr := (List.range 8).map fun k =>
      if bit g.gates k then none
      else if bit old k then some fr else (c.closedFr.getD k none).or (some fr) }

/-- The same in the present frame. -/
def setGate (n : Nat) (g : GateCopy) (d : Dev) : Dev := setGateAt d.frameExt n g d

/-- Enter FALLBACK from another state (Table 8.5): the event, a pending swap cancelled, the hold ended. -/
def gateFallback (n : Nat) (d : Dev) : Dev :=
  let g := d.gate n
  if g.st = 0 then d
  else
    let d := d.ev (CHn_GATE_EVENT.FALLBACK_ENTER n)
    let d := if g.st = 3 then d.wr (CHn_GATE_COMMIT_STAT.RESULT n) 7 else d
    setGate n { g with
      st := 0, pend := none, entry := 0, gates := d.fbGates n, hold := false, cal := false, last := g.oper
      commit := g.commit && g.st != 3 } d

/-- Show a start or swap time. -/
def showSwapT (n t : Nat) (d : Dev) : Dev :=
  (d.wr (CHn_GATE_SWAP_T_LO.T n) t).wr (CHn_GATE_SWAP_T_HI.T n) (t / 2 ^ 32)

/-- Arm the operational bank: S is the first cycle start at or after now + 2 fr (Table 8.5). -/
def gateArm (n b : Nat) (d : Dev) : Dev :=
  let s := d.bankStart n b (d.nowExt + 2 * frMt)
  showSwapT n s (setGate n { (d.gate n) with st := 1, oper := some b, pend := none, start := s, gates := d.fbGates n } d)

/-- FALLBACK with EN = 1, VALID = 1 and an operational bank: the engine re-arms (Table 8.5: VALID returns, a fence is
lifted, a tier returns the channel). -/
def gateRearm (n : Nat) (d : Dev) : Dev :=
  match (d.gate n).oper with
  | some b =>
    if (d.gate n).st = 0 && d.on (CHn_GATE_CTRL.EN n) && d.valid && !d.on (CHn_STATUS.FENCED n) then gateArm n b d else d
  | none => d

/-- The operation of an entry acts on the hold (R170, R191). -/
def gateOp (n o : Nat) (d : Dev) : Dev :=
  if o = 1 then
    let d := if d.on (CHn_PREEMPT_STATUS.ACTIVE n) then stat n 34 1 d else d
    setGate n { (d.gate n) with hold := true } d
  else if o = 2 then setGate n { (d.gate n) with hold := false } d
  else d

/-- Where entry e of a list stands that covers time t of the run begun at s: the start and the end of its turn. -/
def turnOf (lay : List (Nat × Nat × Nat × Nat)) (s cyc t e : Nat) : Nat × Nat :=
  let (p, len, _, _) := lay.getD e (0, cyc, 0, 0)
  let c := s + (t - s) / cyc * cyc
  (c + p, c + p + len)

/-- The gates of entry e of bank b apply, from frame fr on; its turn ends at `fin`. -/
def gateApply (fr n b e fin : Nat) (d : Dev) : Dev :=
  let lay := d.bankLay n b
  setGateAt fr n { (d.gate n) with entry := e, gates := entGates lay e, cal := entOp lay e == 3, endT := fin } d

/-- Engine n is placed at the entry of bank b that covers the present time (R196, R197): its gates apply, and its operation acts
where another entry stood before (`fresh`: where any did). -/
def gatePlace (fresh : Bool) (n b : Nat) (d : Dev) : Dev :=
  let lay := d.bankLay n b
  let g := d.gate n
  let cyc := d.bankCycle n b
  let e := coverIdx lay ((d.nowExt - g.start) % cyc)
  let d' := gateApply d.frameExt n b e (turnOf lay g.start cyc d.nowExt e).2 d
  if fresh || e != g.entry then gateOp n (entOp lay e) d' else d'

/-- The entry in progress has ended: the next begin in index order, round the cycle, as far as time has come. The operation of
each acts; of those that begin in one CLK the gates of the last alone apply (R190, R191). -/
def gateRunTo (n b : Nat) : Nat → Dev → Dev
  | 0, d => d
  | fuel + 1, d =>
    let g := d.gate n
    let now := d.nowExt
    if now < g.endT then d
    else
      let lay := d.bankLay n b
      let cyc := d.bankCycle n b
      let e := coverIdx lay ((g.endT - g.start) % cyc)
      let fin := (turnOf lay g.start cyc g.endT e).2
      let d := if now < fin || (now - g.endT) / 16 != (now - fin) / 16 then gateApply (g.endT / frMt) n b e fin d
        else setGate n { g with entry := e, endT := fin } d
      gateRunTo n b fuel (gateOp n (entOp lay e) d)

/-- The Hearth has reached a gate-list entry's start (R189, R190). -/
def gateEntryStart (n m : Nat) (d : Dev) : Dev :=
  let d := atMote m d
  let g := d.gate n
  match g.oper with
  | some b => if g.st = 2 ∨ g.st = 3 then gateRunTo n b (d.nowExt + 1 - g.endT) d else d
  | none => d

/-- The list of bank b takes effect, its first cycle begun at s (Table 8.5, R196): a hold in force ends unless its entry 0 is a
HOLD. -/
def gateSwitch (n b s : Nat) (d : Dev) : Dev :=
  let d := d.ev (CHn_GATE_EVENT.SWAPPED n)
  let d := if (d.gate n).commit then d.wr (CHn_GATE_COMMIT_STAT.RESULT n) 2 else d
  let hold := (d.gate n).hold && entOp (d.bankLay n b) 0 == 1
  setGate n { (d.gate n) with
    st := 2, oper := some b, pend := none, last := some b, start := s, hold := hold, commit := false } d

/-- A list begins with entry 0 at its first cycle start s (Table 8.5, R196); entries whose start has come with it follow. -/
def gateBegin (n b s : Nat) (d : Dev) : Dev :=
  let d := gateSwitch n b s d
  let lay := d.bankLay n b
  let d := gateApply (s / frMt) n b 0 (turnOf lay s (d.bankCycle n b) s 0).2 d
  let d := gateOp n (entOp lay 0) d
  gateRunTo n b (d.nowExt + 1 - (d.gate n).endT) d

/-- ARMED and the Hearth reaches S. -/
def gateListStart (n m : Nat) (d : Dev) : Dev :=
  let d := atMote m d
  let g := d.gate n
  match g.oper with
  | some b => if g.st = 1 ∧ g.start ≤ d.nowExt then gateBegin n b g.start d else d
  | none => d

/-- A tier step is announced (R62). -/
def Dev.stepping (d : Dev) : Bool := d.ratGet RAT_STATUS.PHASE != 0

/-- The next superframe event, at which an announced step is applied (R60). -/
def Dev.nextSf (d : Dev) : Nat := (d.frameExt / 1024 + 1) * 1024 * frMt

/-- SWAP_PENDING and the Hearth reaches T (Table 8.5): the swap, or its deferral under R62. -/
def gateSwap (n m : Nat) (d : Dev) : Dev :=
  let d := atMote m d
  let g := d.gate n
  match g.pend with
  | some b =>
    if g.st = 3 ∧ g.swapT ≤ d.nowExt then
      if d.stepping then
        let t := d.bankStart n b d.nextSf
        showSwapT n t ((setGate n { g with swapT := t, late := true } d).ev (CHn_GATE_EVENT.SWAP_DEFERRED n))
      else gateBegin n b g.swapT d
    else d
  | none => d

/-! ### Commit (R195) -/

/-- A faulty entry of the first `len` entries (R195). -/
def Dev.badEntry (d : Dev) (n b len : Nat) : Option Nat :=
  (List.range len).find? fun e =>
    let i := d.gateWord n b e 0
    let w := d.gateWord n b e 1
    decide (i < 16) || bits w 10 22 != 0 || (bits w 8 2 == 3 && bits w 0 8 != 0)

/-- BAD_ENTRY of a list, if it breaks the rules of R195. -/
def Dev.listBad (d : Dev) (n b : Nat) : Option Nat :=
  let len := d.rd (CHn_GATE_Bb_LEN.LEN n b)
  let cyc := d.bankCycle n b
  if len < 1 ∨ 1024 < len ∨ cyc < 8389 ∨ 1073741824 < cyc then some 0x3FF else d.badEntry n b len

/-- Write the result of a commit of bank b (R195). -/
def commitResult (n b r bad : Nat) (d : Dev) : Dev :=
  let d := (d.wr (CHn_GATE_COMMIT_STAT.RESULT n) r).wr (CHn_GATE_COMMIT_STAT.BANK n) b
  ((d.wr (CHn_GATE_COMMIT_STAT.BAD_ENTRY n) bad).wrB (CHn_GATE_CTRL.COMMIT n) false).ev (CHn_GATE_EVENT.COMMIT_DONE n)

/-- CHn_GATE_CTRL.COMMIT (R195): the checks in the order of the rule, then admission, then acceptance. -/
def gateCommit (n : Nat) (slots : List (Nat × Nat)) (d : Dev) : Dev :=
  let b := d.adminBank n
  let g := d.gate n
  if d.rd (CHn_GATE_STATUS.RUN n) ≠ 2 || d.on (CHn_STATUS.FENCED n) then commitResult n b 8 0 d
  else if g.st = 1 ∨ g.st = 3 then commitResult n b 5 0 d
  else if !d.valid then commitResult n b 6 0 d
  else
    match d.listBad n b with
    | some e => commitResult n b 3 e d
    | none =>
      let a := admission (d.banksWith n) slots d
      let d := admitReport a 1 n d
      if !a.passed then commitResult n b 4 0 d
      else
        let d := commitResult n b 1 0 (admitTake a [(n, d.guarBits n)] d)
        let t := d.bankStart n b (d.nowExt + 2 * frMt)
        let d := showSwapT n t d
        if g.st = 0 then setGate n { g with st := 1, oper := some b, last := some b, start := t, commit := true } d
        else setGate n { g with st := 3, pend := some b, swapT := t, late := false, commit := true } d

/-- CANCEL (Table 8.5): no effect in FALLBACK or RUNNING. From ARMED the engine enters FALLBACK from another state, which
is what FALLBACK_ENTER notes. -/
def gateCancel (n : Nat) (d : Dev) : Dev :=
  let g := d.gate n
  if g.st = 1 then
    setGate n { g with st := 0, oper := none, last := g.oper, gates := d.fbGates n, commit := false }
      ((d.wr (CHn_GATE_COMMIT_STAT.RESULT n) 7).ev (CHn_GATE_EVENT.FALLBACK_ENTER n))
  else if g.st = 3 then setGate n { g with st := 2, pend := none, commit := false } (d.wr (CHn_GATE_COMMIT_STAT.RESULT n) 7)
  else d

/-- CHn_GATE_CTRL.EN written 0 (Table 8.5, R103): quiescence follows in the next CLK. -/
def gateDisable (n : Nat) (d : Dev) : Dev :=
  (gateFallback n (d.wrB (CHn_GATE_CTRL.EN n) false)).wr (CHn_GATE_STATUS.RUN n) (runDisable (d.rd (CHn_GATE_STATUS.RUN n)))

/-- CHn_GATE_CTRL.EN written 1: the engine has nothing to wait for, and is ON in the next CLK (R103, assumption log 15). -/
def gateEnable (n : Nat) (d : Dev) : Dev :=
  (d.wrB (CHn_GATE_CTRL.EN n) true).wr (CHn_GATE_STATUS.RUN n) (runEnable (d.pd 1) (d.rd (CHn_GATE_STATUS.RUN n)))

/-- CHn_GATE_FALLBACK written: it applies while the engine is in FALLBACK or ARMED. -/
def gateFbWrite (n x : Nat) (d : Dev) : Dev :=
  let d := d.wr (CHn_GATE_FALLBACK.GATES n) x
  let g := d.gate n
  if g.st = 0 ∨ g.st = 1 then setGate n { g with gates := x % 256 } d else d

/-- BOOT_DONE with EN = 1 and admission passed (Table 8.5). -/
def gateBoot (n : Nat) (d : Dev) : Dev :=
  if d.on (CHn_GATE_CTRL.EN n) && (d.gate n).st == 0 then
    let d := gateEnable n d
    let b := d.rd (CHn_GATE_CTRL.BOOT_BANK n)
    if (d.listBad n b).isNone then
      if d.valid then gateArm n b d else setGate n { (d.gate n) with oper := some b } d
    else d
  else d

/-- A jump or load moves engine n in the CLK after the step (R197). -/
def gateJump (n : Nat) (d : Dev) : Dev :=
  let g := d.gate n
  match g.oper with
  | some b =>
    if g.st = 2 ∨ g.st = 3 then
      match g.pend with
      | some p =>
        if g.swapT ≤ d.nowExt ∧ !d.stepping then gatePlace true n p (gateSwitch n p g.swapT d)
        else if d.nowExt < g.start then
          setGate n { g with st := 1, pend := none, gates := d.fbGates n, hold := false, cal := false, commit := false }
            (d.wr (CHn_GATE_COMMIT_STAT.RESULT n) 7)
        else gatePlace false n b d
      | none =>
        if d.nowExt < g.start then setGate n { g with st := 1, gates := d.fbGates n, hold := false, cal := false } d
        else gatePlace false n b d
    else d
  | none => d

/-- R62: an announced step is applied or cancelled at t: a swap that was deferred takes the first cycle start from then
on; one that falls due in that CLK takes effect in it. -/
def gateUndefer (n : Nat) (d : Dev) : Dev :=
  let g := d.gate n
  match g.pend with
  | some b =>
    if g.st = 3 ∧ g.late ∧ d.nowExt < g.swapT then
      let t := min g.swapT (d.bankStart n b d.nowExt)
      showSwapT n t (setGate n { g with swapT := t, late := false } d)
    else d
  | none => d

/-! ### Voting (R198) -/

/-- The output word of a copy. -/
def GateCopy.word (g : GateCopy) : GateWord := ⟨g.gates, g.hold, g.cal, g.entry, g.oper⟩

/-- A copy that an upset makes show w. -/
def GateCopy.upset (g : GateCopy) (w : GateWord) : GateCopy :=
  { g with gates := w.gates % 256, hold := w.hold, cal := w.cal, entry := w.entry, oper := w.bank }

/-- Two copies agree on their words, one differs: the majority is used, and its state loaded into the odd copy (R198). -/
def gateVote (n : Nat) (d : Dev) : Dev :=
  let c := d.ch n
  let fix (f : Field) (m : GateCopy) : Dev :=
    penalty 12 (((d.chMod n fun c => { c with ga := m, gb := m, gc := m }).sat f).ev (CHn_GATE_EVENT.VOTE_FIX n))
  if c.ga.word = c.gb.word ∧ c.gb.word = c.gc.word then d
  else if c.gb.word = c.gc.word then fix (CHn_GATE_VOTE.FIX_A n) c.gb
  else if c.ga.word = c.gc.word then fix (CHn_GATE_VOTE.FIX_B n) c.ga
  else fix (CHn_GATE_VOTE.FIX_C n) c.ga

/-- One copy (0 A, 1 B, 2 C) is upset to show the word w, and the copies vote. -/
def gateVoteFix (n : Nat) (k : Fin 3) (w : GateWord) (d : Dev) : Dev :=
  gateVote n <| d.chMod n fun c =>
    match k with
    | 0 => { c with ga := c.ga.upset w }
    | 1 => { c with gb := c.gb.upset w }
    | 2 => { c with gc := c.gc.upset w }

/-! ### Length-aware check (R193) -/

/-- How long class k stays open from position p of a cycle: none for ever, else mt. -/
def openFor (lay : List (Nat × Nat × Nat × Nat)) (k p : Nat) : Option Nat :=
  let e := coverIdx lay p
  let (s, len, _, _) := lay.getD e (0, 0, 0, 0)
  let isOpen (i : Nat) : Bool := bit (entGates lay i) k
  if !isOpen e then some 0
  else
    let after := (List.range lay.length).map fun i => (e + 1 + i) % lay.length
    if after.all isOpen then none
    else some ((after.takeWhile isOpen).foldl (fun a i => a + (lay.getD i (0, 0, 0, 0)).2.1) (s + len - p))

/-- Bits per ns of a rate code. -/
def gbps (r : Nat) : Nat := if r = 0 then 10 else 25

/-- A frame of L bytes of class k passes the length-aware check now (R193). -/
def Dev.guardOk (d : Dev) (n k l : Nat) : Bool :=
  let g := d.gate n
  match g.oper with
  | some b =>
    if g.st = 2 ∨ g.st = 3 then
      match openFor (d.bankLay n b) k ((d.nowExt - g.start) % d.bankCycle n b) with
      | none => true
      | some o => decide ((l + 8) * 8 * 1048576 ≤ o * 125000 * gbps (d.rd (CHn_STATUS.RATE_NOW n)))
    else true
  | none => true

/-! ### Recalibration (R192, R230) -/

/-- Time left in the CAL entry that covers now. -/
def Dev.calLeft (d : Dev) (n : Nat) : Nat :=
  let g := d.gate n
  if (g.st = 2 ∨ g.st = 3) ∧ g.cal then g.endT - d.nowExt else 0

/-- The wire of channel n is idle. -/
def Dev.wireIdle (d : Dev) (n : Nat) : Bool := (d.ch n).cur.isNone

/-- Recalibration begins in a CAL window, with the wire idle and enough time left (R192). -/
def calStart (n m : Nat) (d : Dev) : Dev :=
  let d := atMote m d
  if d.wireIdle n && d.bitOf RAT_DOM_STATUS.LANE_ON n && decide (10067 ≤ d.calLeft n) && !(d.ch n).recal then
    (d.wrB (CHn_GATE_STATUS.CAL_ACTIVE n) true).chMod n fun c => { c with recal := true }
  else d

/-- A lane recalibration completes. -/
def calEnd (n : Nat) (d : Dev) : Dev :=
  if (d.ch n).recal then
    (d.wrB (CHn_GATE_STATUS.CAL_ACTIVE n) false).chMod n fun c => { c with recal := false, recalDue := false, recalFr := 0 }
  else d

/-- One lane's field of PMC_RECAL_FORCED (lanes 0 to 3 uplinks, 4 and 5 Pegline A and B, 6 Leash). -/
def recalCount (lane : Nat) (d : Dev) : Dev :=
  let v := bits (d.rd PMC_RECAL_FORCED.LANES) (4 * lane) 4
  penalty 18
    ((d.wr PMC_RECAL_FORCED.LANES (setBits (d.rd PMC_RECAL_FORCED.LANES) (4 * lane) 4 (min (v + 1) 15))).ev PMC_EVENT.RECAL_FORCED)

end Sys2Proof.Machine
end

