-- ==== Sys2Proof/Machine/ChannelOps.lean ====
section
/-!
DEFINITION. Machine/ChannelOps.lean: modules, links, queues, pause, preemption and transmission
(spec/07_channels_mac_and_preemption.md, R154 to R176; R186, R187).
-/

namespace Sys2Proof.Machine

/-- Run state of channel n. -/
def Dev.chRun (d : Dev) (n : Nat) : Nat := d.rd (CHn_STATUS.RUN n)

/-- Channel n is fenced or removed by a tier step. -/
def Dev.fenced (d : Dev) (n : Nat) : Bool := d.on (CHn_STATUS.FENCED n)

/-! ### Leaving packet memory -/

/-- The frame carries an epoch that its function has left (R119). -/
def Dev.stale (d : Dev) (x : Frm) : Bool :=
  match x.fn with
  | some (f, e) => d.epoch f != e
  | none => false

/-- Write a frame's TX write-back fields and return its descriptors (R137, R138), once no copy is left; the result of a frame
of an older epoch is discarded (R119). -/
def hostReturn (n status : Nat) (ts : Option Nat) (x : Frm) (d : Dev) : Dev :=
  match x.host with
  | none => d
  | some (r, c, k) =>
    if d.stillHeld x || d.stale x then d
    else
      let y := d.ring r
      let o := (c + 65536 - y.cons) % 65536
      let t := ts.getD 0 % 2 ^ 64
      let taken := ((List.range y.taken.length).zip y.taken).map fun (i, z) =>
        if o ≤ i ∧ i < o + k then
          let eop := i == o + k - 1 && ts.isSome
          let w6 := status + (if eop then 16 else 0) + n * 2 ^ 8
          { z with w := [z.dw 0, z.dw 1, z.dw 2, z.dw 3, if eop then t % 2 ^ 32 else 0, if eop then t / 2 ^ 32 else 0, w6, z.dw 7],
                   begun := true, done := true }
        else z
      ringQuiesce r (retire r (d.setRing r { y with taken := taken }))

/-- A frame of channel n is dropped: counter i, descriptor status, release. -/
def dropFrame (n i status : Nat) (x : Frm) (d : Dev) : Dev :=
  let d := if i = 40 && (d.ch n).fencing then d.wrap (SHD_FENCE_RPTn_TX.TX_DROPS n) else d
  let d := if x.gasp then gaspSkip d else d
  leave false x (hostReturn n status none x (stat n i 1 d))

/-! ### Queues (R186, R187) -/

/-- Cells of frames received on channel n, of one class or of all (R165). -/
def Dev.measure (d : Dev) (n : Nat) (k : Option Nat) : Nat :=
  ((d.frames.filter fun x => x.src == n && (match k with | some k => x.tc == k | none => true)).map
    fun x => x.cells.length).foldl (· + ·) 0

/-- Queue a pause or PFC frame: enabled priorities and time. -/
def sendPause (n : Nat) (kind : WireKind) (vec quanta : Nat) (d : Dev) : Dev :=
  d.chMod n fun c => { c with ctlq := c.ctlq ++ [(kind, vec, quanta)] }

/-- Note the time of a pause or PFC frame for slots of xoffT. -/
def markXoff (n k : Nat) (d : Dev) : Dev := d.chMod n fun c => { c with xoffT := c.xoffT.set k d.nowExt }

/-- What the best-effort condition asserts on channel n (R228): bit 8 the link, bits 0 to 7 classes. -/
def Dev.beMask (d : Dev) (n : Nat) : Nat :=
  if !d.pm.beXoff then 0
  else match d.rd (CHn_PAUSE_CFG.MODE n) with
    | 1 => 256
    | 2 => d.rd (CHn_PAUSE_CFG.PFC_TX n) &&& (255 - d.guarLatch n)
    | _ => 0

/-- The classes asserted by their own measures or by the best-effort condition show in PFC_XOFF. -/
def pfcShow (n : Nat) (d : Dev) : Dev :=
  d.wr (CHn_STATUS.PFC_XOFF n) ((d.ch n).pfcOwn ||| (d.ch n).beOn % 256)

/-- R165, R228: pause or PFC begins on channel n where a measure reaches HI or the best-effort condition begins. A measure
that reaches HI sends its frame though the condition asserts already. -/
def xoffStart (n : Nat) (d : Dev) : Dev :=
  let q := d.rd (CHn_PAUSE_QUANTA.TX_QUANTA n)
  let c := d.ch n
  let be := d.beMask n
  let d' := d.chMod n fun c => { c with beOn := c.beOn ||| be }
  match d.rd (CHn_PAUSE_CFG.MODE n) with
  | 1 =>
    let on := d.on (CHn_STATUS.XOFF n)
    let own := !on && decide (d.rd (CHn_PAUSE_WM.HI n) ≤ d.measure n none)
    let d := if own then (d'.wrB (CHn_STATUS.XOFF n) true).ev (CHn_EVENT.XOFF_START n) else d'
    if own || (!on && bit be 8 && !bit c.beOn 8) then markXoff n 8 (sendPause n .pause 0 q d) else d
  | 2 =>
    let own := (List.range 8).filter fun k =>
      d.bitOf (CHn_PAUSE_CFG.PFC_TX n) k && !bit c.pfcOwn k && decide (d.rd (CHn_PFC_WMk.HI n k) ≤ d.measure n (some k))
    let new := (List.range 8).filter fun k => own.contains k || (bit be k && !bit c.pfcOwn k && !bit c.beOn k)
    let vec (ks : List Nat) : Nat := (ks.map fun k => 2 ^ k).foldl (· + ·) 0
    let d := (d'.chMod n fun c => { c with pfcOwn := c.pfcOwn ||| vec own }).evIf (!own.isEmpty) (CHn_EVENT.XOFF_START n)
    let d := pfcShow n d
    if new.isEmpty then d else sendPause n .pfc (vec new) q (new.foldl (fun d k => markXoff n k d) d)
  | _ => d

/-- Every channel looks at its measure. -/
def flowUpdate (d : Dev) : Dev := forN 4 xoffStart d

/-- MODE or the watermarks of channel n are written: what the mode no longer has ceases without a frame, and the measures are
judged anew (assumption log 68). -/
def flowWrite (n : Nat) (d : Dev) : Dev :=
  let mode := d.rd (CHn_PAUSE_CFG.MODE n)
  let d := if mode = 1 then d else d.wrB (CHn_STATUS.XOFF n) false
  let keep := if mode = 2 then d.rd (CHn_PAUSE_CFG.PFC_TX n) else 0
  let d := d.chMod n fun c => { c with pfcOwn := c.pfcOwn &&& keep, beOn := c.beOn &&& (if mode = 1 then 256 else keep) }
  flowUpdate (pfcShow n d)

/-- The measure has fallen to LO, or the best-effort condition has ended, and nothing asserts any more: pause with quanta 0
(R165, R228). -/
def xoffEnd (n : Nat) (d : Dev) : Dev :=
  let c := d.ch n
  let be := d.beMask n
  let d' := d.chMod n fun c => { c with beOn := c.beOn &&& be }
  match d.rd (CHn_PAUSE_CFG.MODE n) with
  | 1 =>
    let was := d.on (CHn_STATUS.XOFF n)
    let own := was && !decide (d.measure n none ≤ d.rd (CHn_PAUSE_WM.LO n))
    let d := d'.wrB (CHn_STATUS.XOFF n) own
    if (was || bit c.beOn 8) && !own && !bit (c.beOn &&& be) 8 then sendPause n .pause 0 0 d else d
  | 2 =>
    let own := (List.range 8).filter fun k => bit c.pfcOwn k && !decide (d.measure n (some k) ≤ d.rd (CHn_PFC_WMk.LO n k))
    let vec (ks : List Nat) : Nat := (ks.map fun k => 2 ^ k).foldl (· + ·) 0
    let fin := (List.range 8).filter fun k =>
      (bit c.pfcOwn k || bit c.beOn k) && !own.contains k && !bit (c.beOn &&& be) k
    let d := pfcShow n (d'.chMod n fun c => { c with pfcOwn := vec own })
    if fin.isEmpty then d else sendPause n .pfc (vec fin) 0 d
  | _ => d

/-- A pause time in mt: quanta × 512 bit times at the lane's rate, rounded up (R166). -/
def Dev.quantaMt (d : Dev) (n q : Nat) : Nat :=
  let g := 125000 * gbps (d.rd (CHn_STATUS.RATE_NOW n))
  (q * 512 * 1048576 + g - 1) / g

/-- Half of the advertised pause time has elapsed with the measure above LO, or the best-effort condition holding: the frame is
sent again (R165, R228). -/
def pauseRefresh (n m : Nat) (d : Dev) : Dev :=
  let d := atMote m d
  let q := d.rd (CHn_PAUSE_QUANTA.TX_QUANTA n)
  let c := d.ch n
  let due (k : Nat) : Bool := decide (c.xoffT.getD k 0 + d.quantaMt n q / 2 ≤ d.nowExt)
  match d.rd (CHn_PAUSE_CFG.MODE n) with
  | 1 =>
    let above := d.on (CHn_STATUS.XOFF n) && decide (d.rd (CHn_PAUSE_WM.LO n) < d.measure n none)
    if (above || bit (c.beOn &&& d.beMask n) 8) && due 8 then markXoff n 8 (sendPause n .pause 0 q d) else d
  | 2 =>
    let ks := (List.range 8).filter fun k =>
      ((bit c.pfcOwn k && decide (d.rd (CHn_PFC_WMk.LO n k) < d.measure n (some k))) || bit (c.beOn &&& d.beMask n) k) && due k
    if ks.isEmpty then d
    else sendPause n .pfc ((ks.map fun k => 2 ^ k).foldl (· + ·) 0) q (ks.foldl (fun d k => markXoff n k d) d)
  | _ => d

/-- Put a copy of a frame into the queue of its class on channel n (R156, R162, R187). -/
def enqueue (n : Nat) (x : Frm) (d : Dev) : Dev :=
  if d.rd (CHn_MAX_LEN.MAX n) < x.data.length then dropFrame n 43 13 x d
  else if d.fenced n || (d.ch n).fencing then dropFrame n 40 4 x d
  else if d.chRun n = 1 ∨ d.chRun n = 2 then
    let y := { x with qFr := d.frameExt }
    flowUpdate <| pmemSync <| d.chMod n fun c => { c with queues := c.queues.modify x.tc fun q => q ++ [y] }
  else dropFrame n 39 4 x d

/-- Drop every frame queued for channel n with a counter and a status. -/
def dropQueues (n i status : Nat) (d : Dev) : Dev :=
  let c := d.ch n
  let xs := c.queues.flatMap id ++ c.expq
  let d := d.chMod n fun c => { c with queues := List.replicate 8 [], expq := [], ctlq := [], mpq := [] }
  xs.foldl (fun d x => dropFrame n i status x d) d

/-- Frames with a launch time that are queued for channel n are dropped while the Hearth is invalid (R138, R199). -/
def launchDrop (n : Nat) (d : Dev) : Dev :=
  let xs := ((d.ch n).queues.flatMap id).filter (·.launch.isSome)
  if d.valid || xs.isEmpty then d
  else
    xs.foldl (fun d x => dropFrame n 39 4 x d)
      (d.chMod n fun c => { c with queues := c.queues.map fun q => q.filter (·.launch.isNone) })

/-- Stale frames of channel n are dropped at a frame event (R187). -/
def staleDrop (n : Nat) (d : Dev) : Dev :=
  forN 8 (fun k d =>
    let lim := d.rd (CHn_TCk_CFG.STALE_FR n k)
    match (d.ch n).closedFr.getD k none with
    | some fr =>
      if lim ≠ 0 ∧ fr + lim < d.frameExt then
        let old := ((d.ch n).queues.getD k []).filter fun x => decide (x.qFr + lim < d.frameExt)
        let d := d.chMod n fun c => { c with queues := c.queues.modify k fun q => q.filter fun x => !decide (x.qFr + lim < d.frameExt) }
        old.foldl (fun d x => dropFrame n 38 4 x d) d
      else d
    | none => d) d

/-! ### Module and link (R157, R158) -/

/-- The transmitter may be enabled (R157). -/
def Dev.txPermit (d : Dev) (n : Nat) : Bool :=
  ((d.ch n).modOk || d.on (CHn_MOD_CFG.IGNORE_ABS n)) && !d.on (CHn_STATUS.TX_FAULT n) && !d.on (CHn_MOD_CFG.FORCE_TXDIS n)

/-- Preemption becomes active or inactive; a hold of the gate list acts at the MAC only while it is active (R170). -/
def setActive (n : Nat) (b : Bool) (d : Dev) : Dev :=
  (d.wrB (CHn_PREEMPT_STATUS.ACTIVE n) b).wrB (CHn_PREEMPT_STATUS.HOLD n) (b && (d.gate n).hold)

/-- A verify mPacket is to be sent, and the verify timer runs for VERIFY_MS (Table 7.3): 8 fr of 65,536 CLK make 1 ms. -/
def sendVerify (n : Nat) (d : Dev) : Dev :=
  d.chMod n fun c => { c with
    mpq := c.mpq ++ [.verify]
    verT := some (d.hearth.clk + d.rd (CHn_PREEMPT_CFG.VERIFY_MS n) * 524288) }

/-- Verification begins, or is skipped (Table 7.3, INITIAL with the link up). -/
def verifyGo (n : Nat) (d : Dev) : Dev :=
  if d.rd (CHn_PREEMPT_STATUS.VERIFY n) = 1 ∧ d.on (CHn_STATUS.LINK n) then
    if d.on (CHn_PREEMPT_CFG.VERIFY_DIS n) then
      setActive n true (d.wr (CHn_PREEMPT_STATUS.VERIFY n) 5)
    else
      sendVerify n ((d.wr (CHn_PREEMPT_STATUS.VERIFY n) 2).wr (CHn_PREEMPT_STATUS.ATTEMPTS n) 1)
  else d

/-- Move the verify state (Table 7.3); the timer runs in VERIFYING only, and back in DISABLED or INITIAL no verify mPacket
waits any more. -/
def setVerify (n v : Nat) (d : Dev) : Dev :=
  let d := d.chMod n fun c => { c with
    verT := if v = 2 then c.verT else none
    mpq := if v < 2 then c.mpq.filter (· != .verify) else c.mpq }
  setActive n (v == 3 || v == 5) (d.wr (CHn_PREEMPT_STATUS.VERIFY n) v)

/-- CHn_PREEMPT_CFG.EN written 1. -/
def preemptEnable (n : Nat) (d : Dev) : Dev :=
  let d := d.wrB (CHn_PREEMPT_CFG.EN n) true
  if d.rd (CHn_PREEMPT_STATUS.VERIFY n) = 0 then verifyGo n (setVerify n 1 d) else d

/-- CHn_PREEMPT_CFG.EN written 0: no answer waits any more either. -/
def preemptDisable (n : Nat) (d : Dev) : Dev :=
  (setVerify n 0 (d.wrB (CHn_PREEMPT_CFG.EN n) false)).chMod n fun c => { c with mpq := [] }

/-- FAILED, and VERIFY_DIS or VERIFY_MS is written. -/
def preemptRetry (n : Nat) (d : Dev) : Dev :=
  if d.rd (CHn_PREEMPT_STATUS.VERIFY n) = 4 then verifyGo n (setVerify n 1 d) else d

/-- The verify timer expires at mote m. -/
def verifyTimer (n m : Nat) (d : Dev) : Dev :=
  let d := atMote m d
  let due : Bool := match (d.ch n).verT with
    | some t => decide (t ≤ d.hearth.clk)
    | none => false
  if d.rd (CHn_PREEMPT_STATUS.VERIFY n) = 2 ∧ due then
    let a := d.rd (CHn_PREEMPT_STATUS.ATTEMPTS n)
    if a < 3 then sendVerify n (d.wr (CHn_PREEMPT_STATUS.ATTEMPTS n) (a + 1))
    else (setVerify n 4 d).ev (CHn_EVENT.VERIFY_FAIL n)
  else d

/-- A verify mPacket is received: answered with EN = 1, else check 2 fails. -/
def verifyRx (n : Nat) (d : Dev) : Dev :=
  if d.on (CHn_PREEMPT_CFG.EN n) then (stat n 22 1 d).chMod n fun c => { c with mpq := c.mpq ++ [.respond] } else stat n 20 1 d

/-- A respond mPacket is received. -/
def respondRx (n : Nat) (d : Dev) : Dev :=
  if d.on (CHn_PREEMPT_CFG.EN n) then
    let d := stat n 23 1 d
    if d.rd (CHn_PREEMPT_STATUS.VERIFY n) = 2 then (setVerify n 3 d).ev (CHn_EVENT.VERIFY_OK n) else d
  else stat n 20 1 d

/-- Discard the frame in reassembly and count it (R169); its cells are free in the same CLK (R160). -/
def asmDiscard (n : Nat) (d : Dev) : Dev :=
  if (d.ch n).asm.isSome then pmemSync (stat n 19 1 (d.chMod n fun c => { c with asm := none })) else d

/-- The link of channel n goes down (R158, Table 7.3); cut tells whether the frame on the wire is cut off, and with it the frame
in reassembly, which cannot become whole any more. -/
def linkOffCh (cut : Bool) (n : Nat) (d : Dev) : Dev :=
  if d.on (CHn_STATUS.LINK n) then
    let d := stat n 44 1 ((d.wrB (CHn_STATUS.LINK n) false).ev (CHn_EVENT.LINK_DOWN n))
    let d := (if 2 ≤ d.rd (CHn_PREEMPT_STATUS.VERIFY n) then setVerify n 1 d else d).chMod n fun c => { c with mpq := [], goodFr := none }
    let c := d.ch n
    if cut then
      let xs := (wireFrm c.cur).filter (fun x => x.data.length != 0) ++ wireFrm c.pre
      let d := asmDiscard n (d.chMod n fun c => { c with cur := none, pre := none })
      xs.foldl (fun d x => dropFrame n (if c.fencing then 40 else 39) 4 x d) d
    else d
  else d

/-- The lane of channel n no longer runs: its PCS reports no block lock and no fault. -/
def pcsOff (n : Nat) (d : Dev) : Dev :=
  let d := (d.wrB (CHn_STATUS.BLOCK_LOCK n) false).wrB (CHn_STATUS.HI_BER n) false
  ((d.wrB (CHn_STATUS.LOCAL_FAULT n) false).wrB (CHn_STATUS.REMOTE_FAULT n) false).chMod n fun c => { c with goodFr := none }

/-- The lane of channel n runs: powered, and the channel out of OFF. -/
def Dev.pcsRuns (d : Dev) (n : Nat) : Bool := d.bitOf RAT_DOM_STATUS.LANE_ON n && d.chRun n != 0

/-- The module is present, or presence is assumed (R157). -/
def Dev.modHere (d : Dev) (n : Nat) : Bool := (d.ch n).modIn || d.on (CHn_MOD_CFG.IGNORE_ABS n)

/-- The PCS has reached good state: block lock, neither high BER nor a local fault. The count of UP_FR starts (R158). -/
def pcsGood (n : Nat) (d : Dev) : Dev :=
  if d.pcsRuns n && d.modHere n then
    let d := (d.wrB (CHn_STATUS.BLOCK_LOCK n) true).wrB (CHn_STATUS.HI_BER n) false
    (d.wrB (CHn_STATUS.LOCAL_FAULT n) false).chMod n fun c => { c with goodFr := c.goodFr.or (some 0) }
  else d

/-- The PCS has held good state for UP_FR frames (R158). -/
def linkUp (n : Nat) (d : Dev) : Dev :=
  let held : Bool := match (d.ch n).goodFr with
    | some k => decide (d.rd (CHn_LINK_CFG.UP_FR n) ≤ k)
    | none => false
  if d.chRun n = 2 ∧ d.pcsRuns n ∧ !d.on (CHn_STATUS.LINK n) ∧ d.modHere n ∧ held then
    verifyGo n ((d.wrB (CHn_STATUS.LINK n) true).ev (CHn_EVENT.LINK_UP n))
  else d

/-- Block lock is lost, high BER declared, or a local fault detected (R158). -/
def linkDown (n : Nat) (cause : LinkCause) (d : Dev) : Dev :=
  if d.pcsRuns n then
    let d := match cause with
      | .blockLock => d.wrB (CHn_STATUS.BLOCK_LOCK n) false
      | .hiBer => (d.wrB (CHn_STATUS.HI_BER n) true).ev (CHn_EVENT.HI_BER n)
      | .localFault => d.wrB (CHn_STATUS.LOCAL_FAULT n) true
    linkOffCh true n (d.chMod n fun c => { c with goodFr := none })
  else d

/-- CHn_STATUS shows what stands at the module's pins (R157). -/
def modShow (n : Nat) (d : Dev) : Dev :=
  (d.wrB (CHn_STATUS.MOD_PRESENT n) (d.ch n).modIn).wrB (CHn_STATUS.LOS n) (d.ch n).los

/-- A module is inserted (R157). -/
def modIn (n : Nat) (d : Dev) : Dev :=
  if (d.ch n).modIn then d
  else
    let d := if d.pd 1 then (d.wrB (CHn_STATUS.MOD_PRESENT n) true).ev (CHn_EVENT.MOD_IN n) else d
    d.chMod n fun c => { c with modIn := true, modFr := 0, modOk := false }

/-- A module is removed (R157): TXDISn is released in the same CLK, the link goes down. While PD1 is off its status and
events stand still (R58). -/
def modOut (n : Nat) (d : Dev) : Dev :=
  if (d.ch n).modIn then
    let d := if d.pd 1 then (d.wrB (CHn_STATUS.MOD_PRESENT n) false).ev (CHn_EVENT.MOD_OUT n) else d
    let d := d.chMod n fun c => { c with modIn := false, modFr := 0, modOk := false }
    if d.on (CHn_MOD_CFG.IGNORE_ABS n) then d else linkOffCh true n (d.chMod n fun c => { c with goodFr := none })
  else d

/-- The module has been present for INSERT_FR frames (R157). -/
def moduleSettled (n : Nat) (d : Dev) : Dev :=
  if (d.ch n).modIn && decide (d.rd (CHn_MOD_CFG.INSERT_FR n) ≤ (d.ch n).modFr) then
    d.chMod n fun c => { c with modOk := true } else d

/-- TXFLTn moves, or has been asserted for 2 consecutive frames, which latches the fault (R157). -/
def txFault (n : Nat) (p : FltStep) (d : Dev) : Dev :=
  match p with
  | .rise => if (d.ch n).txflt then d else d.chMod n fun c => { c with txflt := true, fltFr := 0 }
  | .fall => d.chMod n fun c => { c with txflt := false, fltFr := 0 }
  | .held =>
    if (d.ch n).txflt && decide (2 ≤ (d.ch n).fltFr) && d.pd 1 && !d.on (CHn_STATUS.TX_FAULT n) then
      (d.wrB (CHn_STATUS.TX_FAULT n) true).ev (CHn_EVENT.TX_FAULT n)
    else d

/-- FAULT_RETRY (R157): clears the latch only while TXFLTn is inactive. -/
def faultRetry (n : Nat) (d : Dev) : Dev := if (d.ch n).txflt then d else d.wrB (CHn_STATUS.TX_FAULT n) false

/-- LOSn changes level (R157): reported only. -/
def losChange (n : Nat) (b : Bool) (d : Dev) : Dev :=
  let d := d.chMod n fun c => { c with los := b }
  if d.pd 1 then modShow n d else d

/-- Remote fault begins (R158). -/
def remoteFault (n : Nat) (d : Dev) : Dev :=
  if d.on (CHn_STATUS.REMOTE_FAULT n) || !d.pcsRuns n then d
  else (d.wrB (CHn_STATUS.REMOTE_FAULT n) true).ev (CHn_EVENT.REMOTE_FAULT n)

/-- Remote fault ends (R158). -/
def remoteClear (n : Nat) (d : Dev) : Dev := d.wrB (CHn_STATUS.REMOTE_FAULT n) false

/-! ### Run states (R155, R156) -/

/-- A tier holds channel n at 10G (Table 3.4): CH0 in LEAN and LIFELINE. -/
def Dev.tier10g (d : Dev) (n : Nat) : Bool := n == 0 && decide (2 ≤ d.tier)

/-- The FEC that the PCS uses at the rate in force (R155): at 10G under RATE = 1, FEC_DOWN takes the place of FEC = 2. -/
def fecPick (n : Nat) (d : Dev) : Dev :=
  let down := d.rd (CHn_STATUS.RATE_NOW n) == 0 && (d.ch n).rate == 1 && (d.ch n).fec == 2
  let w := d.rd (CHn_CTRL.FEC_DOWN n)
  d.chMod n fun c => { c with fecNow := if down then w else c.fec }

/-- STARTING reads RATE, FEC, LOOP and FCS_STRIP (R155). -/
def chStart (n : Nat) (d : Dev) : Dev :=
  if d.chRun n = 1 then
    let d := d.wr (CHn_STATUS.RATE_NOW n) (if d.tier10g n then 0 else d.rd (CHn_CTRL.RATE n))
    fecPick n <| d.chMod n fun c => { c with
      rate := d.rd (CHn_CTRL.RATE n), fec := d.rd (CHn_CTRL.FEC n), loop := d.rd (CHn_CTRL.LOOP n)
      strip := d.on (CHn_CTRL.FCS_STRIP n) }
  else d

/-- A loopback test runs on lane n (R377). -/
def Dev.testing (d : Dev) (n : Nat) : Bool := d.on SHD_STATUS.TEST_BUSY && d.rd SHD_STATUS.TEST_LANE == n

/-- CHn_CTRL.EN written 1 (Table 4.10); a loopback test of the lane delays the start (R377). -/
def chEnable (n : Nat) (d : Dev) : Dev :=
  let d := d.wrB (CHn_CTRL.EN n) true
  let r := d.chRun n
  if r = 0 && d.testing n then d
  else
    let d := d.wr (CHn_STATUS.RUN n) (runEnable (d.pd 1 && d.pd 3) r)
    if r = 0 then chStart n d else d

/-- CHn_CTRL.EN written 0 (R156): queued frames are dropped, the hold ends, the link is down as the channel leaves ON; the
frame on the wire and the one in reassembly are finished. -/
def chDisable (n : Nat) (d : Dev) : Dev :=
  let d := d.wrB (CHn_CTRL.EN n) false
  let r := d.chRun n
  let d := d.wr (CHn_STATUS.RUN n) (runDisable r)
  if r = 1 ∨ r = 2 then
    let d := linkOffCh false n (dropQueues n 39 4 d)
    if (d.gate n).hold then setGate n { (d.gate n) with hold := false } d else d
  else d

/-- A STARTING channel's lane has locked and the module permits transmission (R156). -/
def channelOn (n : Nat) (d : Dev) : Dev :=
  if d.chRun n = 1 ∧ d.bitOf RAT_DOM_STATUS.LANE_ON n ∧ d.txPermit n then (d.putBitOf CLK_STATUS.LANE_LOCK n true).wr (CHn_STATUS.RUN n) 2 else d

/-- Quiescence (R156): the lane is in electrical idle. -/
def channelStopped (n : Nat) (d : Dev) : Dev :=
  if (d.chRun n = 3 ∨ d.chRun n = 4) ∧ (d.ch n).cur.isNone ∧ (d.ch n).pre.isNone then
    let d := pcsOff n ((d.wr (CHn_STATUS.RUN n) (runQuiet (d.chRun n))).ev (CHn_EVENT.STOPPED n))
    chStart n ((asmDiscard n d).chMod n fun c => { c with asmSkip := none })
  else d

/-! ### Received pause (R166) -/

/-- A PAUSE frame is received, its last byte at the era-extended time t. -/
def pauseAt (n q t : Nat) (d : Dev) : Dev :=
  let d := stat n 5 1 d
  if d.rd (CHn_PAUSE_CFG.MODE n) = 1 ∧ d.on (CHn_PAUSE_CFG.RX_HONOR n) then
    let d := stat n 7 q (d.wrB (CHn_STATUS.RX_PAUSED n) (q != 0))
    d.chMod n fun c => { c with pauseT := c.pauseT.set 8 (t + d.quantaMt n q) }
  else d

/-- A PFC frame is received, its last byte at the era-extended time t: enabled priorities and their times. -/
def pfcAt (n vec : Nat) (qs : List Nat) (t : Nat) (d : Dev) : Dev :=
  let d := stat n 6 1 d
  if d.rd (CHn_PAUSE_CFG.MODE n) = 2 ∧ d.on (CHn_PAUSE_CFG.RX_HONOR n) then
    forN 8 (fun k d =>
      if bit vec k && !d.bitOf (CHn_PAUSE_CFG.RX_IGNORE n) k then
        let q := qs.getD k 0
        let d := stat n 7 q (d.putBitOf (CHn_STATUS.PFC_RX_PAUSED n) k (q != 0))
        d.chMod n fun c => { c with pauseT := c.pauseT.set k (t + d.quantaMt n q) }
      else d) d
  else d

/-- The receiver of channel n works: its lane is powered, the channel ON or STOPPING, not in Bivouac (R156, R159, R172). -/
def Dev.rxLive (d : Dev) (n : Nat) : Bool :=
  d.tier != 4 && d.bitOf RAT_DOM_STATUS.LANE_ON n && (d.chRun n == 2 || d.chRun n == 3 || d.chRun n == 4)

/-- Frames from the line reach channel n: with LOOP = 1 its receiver has its own transmit stream (R155). -/
def Dev.lineIn (d : Dev) (n : Nat) : Bool := (d.ch n).loop != 1

/-- A frame or mPacket from the line is taken in: a fenced channel discards it (R381). -/
def Dev.hears (d : Dev) (n : Nat) : Bool := d.rxLive n && !d.fenced n && d.lineIn n

/-- PAUSE_RX: the frame ends at mote m. -/
def pauseRx (n q m : Nat) (d : Dev) : Dev :=
  let d := atMote m d
  if d.hears n then pauseAt n q d.nowExt d else d

/-- PFC_RX: the frame ends at mote m. -/
def pfcRx (n vec : Nat) (qs : List Nat) (m : Nat) (d : Dev) : Dev :=
  let d := atMote m d
  if d.hears n then pfcAt n vec qs d.nowExt d else d

/-- A received pause time ends: priority k, or 8 for PAUSE. -/
def pauseEnd (n k m : Nat) (d : Dev) : Dev :=
  let d := atMote m d
  if (d.ch n).pauseT.getD k 0 ≤ d.nowExt then
    if k = 8 then d.wrB (CHn_STATUS.RX_PAUSED n) false
    else if k < 8 then d.putBitOf (CHn_STATUS.PFC_RX_PAUSED n) k false else d
  else d

/-- Class k of channel n is stopped by received pause or PFC. -/
def Dev.classPaused (d : Dev) (n k : Nat) : Bool :=
  (d.on (CHn_STATUS.RX_PAUSED n) && !d.bitOf (CHn_PAUSE_CFG.RX_IGNORE n) k) || d.bitOf (CHn_STATUS.PFC_RX_PAUSED n) k

/-! ### Transmission (R167, R168, R186) -/

/-- The channel may start a frame: ON, link up, no remote fault, no recalibration, no fence. -/
def Dev.canStart (d : Dev) (n : Nat) : Bool :=
  d.chRun n == 2 && d.on (CHn_STATUS.LINK n) && !d.on (CHn_STATUS.REMOTE_FAULT n) && !(d.ch n).recal &&
  !(d.ch n).recalDue && !d.fenced n && !(d.ch n).fencing

/-- A stopping or fencing channel completes a preempted frame (R156, R381). -/
def Dev.canFinish (d : Dev) (n : Nat) : Bool :=
  (d.chRun n == 3 || d.chRun n == 4 || (d.ch n).fencing) && (d.ch n).cur.isNone && (d.ch n).pre.isSome

/-- The head of class k's queue, if it is eligible (R186). -/
def Dev.eligible (d : Dev) (n k : Nat) : Option Frm :=
  match (d.ch n).queues.getD k [] with
  | x :: _ =>
    if (match x.launch with | some t => decide (t ≤ d.nowExt) | none => true) && !d.classPaused n k &&
       bit (d.gate n).gates k && (!d.on (CHn_TCk_CFG.GUARD n k) || d.guardOk n k x.data.length) then some x else none
  | [] => none

/-- Class k is sent from the pMAC now (R167). -/
def Dev.pmacClass (d : Dev) (n k : Nat) : Bool := d.on (CHn_PREEMPT_STATUS.ACTIVE n) && d.bitOf (CHn_PREEMPT_CFG.TC_PMAC n) k

/-- The frame that starts next on an idle wire: pause and PFC, verify and respond mPackets, gasp copies, express classes,
the preempted frame, preemptable classes; the highest TC first. `expressOnly` for what may preempt: pause and PFC, gasp copies and
express classes (R168). -/
inductive Next where
  | ctl (kind : WireKind) (vec quanta : Nat)
  | exp (x : Frm)
  | queue (k : Nat) (x : Frm)
  | resume
  | nothing
  deriving DecidableEq, Repr

/-- The highest eligible class among those that keep p. -/
def Dev.bestClass (d : Dev) (n : Nat) (p : Nat → Bool) : Option (Nat × Frm) :=
  [7, 6, 5, 4, 3, 2, 1, 0].findSome? fun k => if p k then (d.eligible n k).map fun x => (k, x) else none

/-- What starts next (R165, R168, R170, R186). -/
def Dev.nextTx (d : Dev) (n : Nat) (expressOnly : Bool) : Next :=
  let c := d.ch n
  let gasp := if d.on RAT_GASP_CFG.GATE_BYPASS || bit (d.gate n).gates 7 then c.expq else []
  match c.ctlq, (if expressOnly then [] else c.mpq), gasp with
  | (k, v, q) :: _, _, _ => .ctl k v q
  | [], k :: _, _ => .ctl k 0 0
  | [], [], x :: _ => .exp x
  | [], [], [] =>
    let hold := (d.gate n).hold && d.on (CHn_PREEMPT_STATUS.ACTIVE n)
    let ok (k : Nat) : Bool := !d.pmacClass n k || (!expressOnly && !hold && c.pre.isNone)
    match d.bestClass n ok with
    | some (k, x) => .queue k x
    | none => if c.pre.isSome && !hold && !expressOnly then .resume else .nothing

/-- A pause or PFC frame (R165, Annex 31B, IEEE 802.1Q Clause 36): source address from CHn_MAC, padded, with its FCS. -/
def pauseFrame (d : Dev) (n : Nat) (kind : WireKind) (vec quanta : Nat) : Bytes :=
  let sa := leBytes 4 (d.rd (CHn_MAC_LO.ADDR n)) ++ leBytes 2 (d.rd (CHn_MAC_HI.ADDR n))
  let body := match kind with
    | .pause => beBytes 2 1 ++ beBytes 2 quanta
    | _ => beBytes 2 0x101 ++ beBytes 2 vec ++ (List.range 8).flatMap fun k => beBytes 2 (if bit vec k then quanta else 0)
  let b := beBytes 6 0x0180C2000001 ++ sa ++ beBytes 2 0x8808 ++ body
  let b := b ++ List.replicate (60 - b.length) 0
  b ++ leBytes 4 (crc32 b)

/-- Put what comes next on the wire of channel n. -/
def startNext (n : Nat) (nx : Next) (d : Dev) : Dev :=
  let t := d.nowExt
  match nx with
  | .nothing => d
  | .ctl k v q =>
    let data := if k = .pause ∨ k = .pfc then pauseFrame d n k v q else []
    d.chMod n fun c => { c with
      ctlq := if c.ctlq.isEmpty then [] else c.ctlq.drop 1
      mpq := if c.ctlq.isEmpty then c.mpq.drop 1 else c.mpq
      cur := some { kind := k, frm := { data := data }, first := t, start := t } }
  | .exp x =>
    let d' := d.chMod n fun c => { c with expq := c.expq.drop 1 }
    if d.poisoned x then dropFrame n 39 4 x (eccDrop x d')
    else d'.chMod n fun c => { c with cur := some { kind := .express, frm := x, first := t, start := t, tsOk := d.valid } }
  | .queue k x =>
    let d' := d.chMod n fun c => { c with queues := c.queues.modify k (·.drop 1) }
    if d.poisoned x then dropFrame n 39 4 x (eccDrop x d')
    else if d.pmacClass n k then
      d'.chMod n fun c => { c with
        smd := c.smd + 1, cur := some { kind := .pmac, frm := x, first := t, start := t, tsOk := d.valid, code := c.smd } }
    else d'.chMod n fun c => { c with cur := some { kind := .express, frm := x, first := t, start := t, tsOk := d.valid } }
  | .resume => d.chMod n fun c => { c with cur := c.pre.map fun w => { w with start := t }, pre := none }

/-- Bytes of the present mPacket that have left since its delimiter. -/
def Dev.sentNow (d : Dev) (n : Nat) (w : Wire) : Nat :=
  (d.nowExt - w.start) * rateBytes (d.rd (CHn_STATUS.RATE_NOW n)) / 1048576

/-- The byte now on the wire is one at which R168 lets the frame be preempted. -/
def Dev.mayPreempt (d : Dev) (n : Nat) (w : Wire) : Bool :=
  let s := d.sentNow n w
  w.kind == .pmac && decide (64 * (1 + d.rd (CHn_PREEMPT_CFG.ADD_FRAG n)) - 4 ≤ s) &&
  decide (w.sent + s + 64 ≤ w.frm.data.length)

/-- The frame that a choice takes from packet memory. -/
def Dev.nextFrm (d : Dev) (n : Nat) : Next → Option Frm
  | .exp x => some x
  | .queue _ x => some x
  | .resume => (d.ch n).pre.map (·.frm)
  | _ => none

/-- The cells of a frame are read, the first before its first byte leaves, the others after it (R217, R218). -/
def txRead (x : Option Frm) (early : Bool) (d : Dev) : Dev :=
  match x with
  | some x => if d.pm.upsets.isEmpty then d
    else (if early then x.cells.take 1 else x.cells.drop 1).foldl (fun d k => cellRead1 false k d) d
  | none => d

/-- Read the frame that comes next and put it on the wire. -/
def startRead (n : Nat) (nx : Next) (d : Dev) : Dev :=
  let x := d.nextFrm n nx
  if nx = .resume then startNext n nx d else txRead x false (startNext n nx (txRead x true d))

/-- An mPacket of the preemptable frame w ends: SMD, fragment count and bytes (R168). Its bytes go out, or back to the own
receiver with LOOP = 1 (R155). -/
def putPacket (n : Nat) (w : Wire) (more : Bool) (bs : Bytes) (d : Dev) : Dev :=
  let p := if w.frags = 0 then MPkt.start w.code more true else .cont w.code (Fin.ofNat 4 (w.frags - 1)) more true
  let d := if w.frags = 0 then d else stat n 33 1 d
  d.emit (if (d.ch n).loop = 1 then .looped n p w.start bs else .mpacket n p bs)

/-- The highest eligible queue head starts on the wire, preempting where R168 allows; us have come into packet memory. -/
def txFrameStart (n : Nat) (us : List Upset) (m : Nat) (d : Dev) : Dev :=
  let d := upsetsCome us (atMote m d)
  if d.canFinish n then startRead n .resume d
  else if !d.canStart n then d
  else
    match (d.ch n).cur with
    | none => startRead n (d.nextTx n false) d
    | some w =>
      let nx := d.nextTx n true
      if d.mayPreempt n w && d.on (CHn_PREEMPT_STATUS.ACTIVE n) && (nx != .nothing || (d.gate n).hold) then
        let s := d.sentNow n w
        let d := putPacket n w true ((w.frm.data.drop w.sent).take s) d
        let d := stat n 32 1 (d.chMod n fun c => { c with
          cur := none, pre := some { w with sent := w.sent + s, frags := w.frags + 1 } })
        startRead n nx d
      else d

/-! ### PTP stamps (R163, R164) -/

/-- messageType and sequenceId of a PTP event message (R164); the message header is IEEE 1588's (assumption log 16). -/
def Dev.ptpEvent (d : Dev) (n : Nat) (bs : Bytes) : Option (Nat × Nat) :=
  let e := etypeAt bs
  let k := keyFields bs
  let at0 (o : Nat) : Option (Nat × Nat) :=
    let mt := beAt bs o 1 % 16
    if mt ≤ 3 then some (mt, beAt bs (o + 30) 2) else none
  if k.etype = 0x88F7 ∧ d.on (CHn_PTP_CFG.L2 n) then at0 (e + 2)
  else if k.udp ∧ k.port = 319 ∧ beAt bs (e + 2) 1 % 16 = 5 ∧ d.on (CHn_PTP_CFG.UDP4 n) then at0 (e + 30)
  else none

/-- Write a transmit stamp in PTP form (R164): the words wait for the read of TXTS0. -/
def ptpStore (n t mt seq : Nat) (d : Dev) : Dev :=
  let (sec, ns, sub) := ptpOf t
  let lost := bit ((d.ch n).ptp.getD 2 0) 20
  let w3 := seq + mt * 2 ^ 16 + 2 ^ 20 + (if lost then 2 ^ 21 else 0)
  let d := (d.wr (CHn_PTP_TXTS0.SEC_LO n) sec).evIf lost (CHn_EVENT.TS_OVERWRITE n)
  d.chMod n fun c => { c with ptp := [sec / 2 ^ 32 % 2 ^ 16 + sub * 2 ^ 16, ns, w3] }

/-- A read of TXTS0 latches TXTS1 to TXTS3 and clears VALID and OVERWRITTEN (R164). -/
def txts0Read (n : Nat) (d : Dev) : Dev :=
  let p := (d.ch n).ptp
  let d := (d.setWord (CHn_PTP_TXTS1.addr n) (p.getD 0 0)).setWord (CHn_PTP_TXTS2.addr n) (p.getD 1 0)
  let d := d.setWord (CHn_PTP_TXTS3.addr n) (p.getD 2 0)
  let d := d.chMod n fun c => { c with ptp := [p.getD 0 0, p.getD 1 0, p.getD 2 0 % 2 ^ 20] }
  d.emit (.read (BitVec.ofNat 32 (d.rd (CHn_PTP_TXTS0.SEC_LO n))))

/-- TX or RX latency of the rate in force (R163). -/
def Dev.latTx (d : Dev) (n : Nat) : Nat :=
  if d.rd (CHn_STATUS.RATE_NOW n) = 0 then d.rd (CHn_TS_LAT10.TX n) else d.rd (CHn_TS_LAT25.TX n)
def Dev.latRx (d : Dev) (n : Nat) : Nat :=
  if d.rd (CHn_STATUS.RATE_NOW n) = 0 then d.rd (CHn_TS_LAT10.RX n) else d.rd (CHn_TS_LAT25.RX n)

/-- Which counter a destination address adds to: 0 unicast, 1 multicast, 2 broadcast. -/
def dmacKind (bs : Bytes) : Nat :=
  if (bs.take 6).all (· == 0xFF#8) then 2 else if byteAt bs 0 % 2 = 1 then 1 else 0

/-- A media packet of bridge channel c was sent whole (Table 15.5). -/
def llbSent (c : Nat) (d : Dev) : Dev :=
  let o := 0x2E1000 + 32 * c
  d.setWord o (min (d.word o + 1) (2 ^ 32 - 1))

/-- A frame in the express form goes out, or back to the own receiver with LOOP = 1 (R155). -/
def putTx (n : Nat) (w : Wire) (bs : Bytes) (d : Dev) : Dev :=
  d.emit (if (d.ch n).loop = 1 then .looped n .express w.start bs else .tx n bs)

/-- A verify or respond mPacket goes out, or back to the own receiver. -/
def putMark (n : Nat) (respond : Bool) (d : Dev) : Dev :=
  d.emit (if (d.ch n).loop = 1 then .loopedMark n respond else if respond then .respond n else .verify n)

/-- A forced recalibration that waited for the wire begins (R230). -/
def recalGo (n : Nat) (d : Dev) : Dev :=
  if (d.ch n).recalDue && d.wireIdle n then
    (d.wrB (CHn_GATE_STATUS.CAL_ACTIVE n) true).chMod n fun c => { c with recalDue := false, recal := true }
  else d

/-- The last byte of the frame on the wire leaves the ball (R138, R163, R193, R218). -/
def txFrameEnd (n m : Nat) (d : Dev) : Dev :=
  let d := atMote m d
  match (d.ch n).cur with
  | none => d
  | some w =>
    let x := w.frm
    let d0 := d.chMod n fun c => { c with cur := none }
    recalGo n <| match w.kind with
    | .pause => putTx n w x.data (stat n 29 1 d0)
    | .pfc => putTx n w x.data (stat n 30 1 d0)
    | .verify => putMark n false (stat n 35 1 d0)
    | .respond => putMark n true (stat n 36 1 d0)
    | k =>
      let bad := d.poisoned x
      let data := if bad then
          let l := x.data.length - 4
          x.data.take l ++ (x.data.drop l).map (fun b => ~~~ b) else x.data
      let d := if k = .pmac then putPacket n w false (data.drop w.sent) d0 else putTx n w data d0
      let d := d.when bad (eccDrop x)
      let d := stat n (26 + dmacKind x.data) 1 (stat n 25 x.data.length (stat n 24 1 d))
      let d := if k = .pmac then stat n 31 1 d else d
      let d := if x.gasp then (stat n 42 1 d).ratMod fun r => { r with gaspOut := true } else d
      let d := match x.llb with
        | some 16 => d.sat LLB_EV_SENT.COUNT
        | some c => llbSent c d
        | none => d
      let d := if !x.gasp && !bit (d.gate n).gates x.tc then stat n 37 1 d else d
      let t := w.first + d.latTx n
      let ts := if x.tsReq && w.tsOk then some t else none
      let d := match ts, d.ptpEvent n x.data with
        | some t, some (mt, seq) => ptpStore n t mt seq d
        | _, _ => d
      leave true x (hostReturn n 0 ts x d)

/-- Frame counts of a channel: module presence, transmit fault, good PCS state, recalibration (R157, R158, R230). -/
def chFrame (n : Nat) (d : Dev) : Dev :=
  staleDrop n <| d.chMod n fun c => { c with
    modFr := if c.modIn then c.modFr + 1 else 0
    fltFr := if c.txflt then c.fltFr + 1 else 0
    goodFr := c.goodFr.map (· + 1)
    recalFr := c.recalFr + 1 }

/-! ### The line -/

/-- What the lane of a channel sends between frames (R155, R158, R172, Table 18.4): nothing, idle blocks, local-fault or
remote-fault ordered sets. -/
inductive LineFill where
  | silent | idle | localFault | remoteFault
  deriving DecidableEq, Repr

/-- The fill of channel n: a fenced channel sends local fault (not a lane that a tier has gated off), a local fault is answered with
remote fault, except that a lane in loopback sends idle. -/
def Dev.lineFill (d : Dev) (n : Nat) : LineFill :=
  if !d.bitOf RAT_DOM_STATUS.LANE_ON n || (d.chRun n == 0 && d.tier != 4) then .silent
  else if (d.ch n).loop == 1 then .idle
  else if d.fenced n then .localFault
  else if d.on (CHn_STATUS.LOCAL_FAULT n) then .remoteFault
  else .idle

end Sys2Proof.Machine
end

