-- ==== Sys2Proof/Machine/LlbOps.lean ====
section
/-!
DEFINITION. Machine/LlbOps.lean: the lifeline bridge (spec/15_lifeline_bridge.md, R318 to R332).
-/

namespace Sys2Proof.Machine

/-! ### Channels and templates (R319, R321) -/

/-- Change the bridge. -/
def Dev.llbMod (d : Dev) (f : Llb → Llb) : Dev := { d with llb := f d.llb }

/-- Bridge channel c. -/
def Dev.lc (d : Dev) (c : Nat) : LlbCh := d.llb.chs.getD c {}

/-- Change bridge channel c. -/
def Dev.lcMod (d : Dev) (c : Nat) (f : LlbCh → LlbCh) : Dev := d.llbMod fun l => { l with chs := l.chs.modify c f }

/-- Byte o of template c, 16 for the event template (R319). -/
def Dev.tplByte (d : Dev) (c o : Nat) : Nat := bits (d.word (0x2E0000 + 128 * c + 4 * (o / 4))) (8 * (o % 4)) 8

/-- The CFG, RX_SSRC and RX_CFG words of template c (Table 15.2). -/
def Dev.tplCfg (d : Dev) (c : Nat) : Nat := d.word (0x2E0000 + 128 * c)
def Dev.tplSsrc (d : Dev) (c : Nat) : Nat := d.word (0x2E0004 + 128 * c)
def Dev.tplRx (d : Dev) (c : Nat) : Nat := d.word (0x2E0008 + 128 * c)

/-- Fields of CFG and RX_CFG. -/
def Dev.tplVlan (d : Dev) (c : Nat) : Bool := bit (d.tplCfg c) 1
def Dev.tplLocal (d : Dev) (c : Nat) : Bool := bit (d.tplCfg c) 2
/-- Law of the template: 1 A-law, 2 µ-law. -/
def Dev.tplLaw (d : Dev) (c : Nat) : Nat := if bit (d.tplCfg c) 3 then 2 else 1
def Dev.ptime (d : Dev) (c : Nat) : Nat := bits (d.tplCfg c) 4 4
def Dev.phaseFr (d : Dev) (c : Nat) : Nat := bits (d.tplCfg c) 8 4
def Dev.llOnly (d : Dev) (c : Nat) : Bool := bit (d.tplCfg c) 12
def Dev.vchTx (d : Dev) (c : Nat) : Nat := bits (d.tplCfg c) 13 6
def Dev.vchRx (d : Dev) (c : Nat) : Nat := bits (d.tplCfg c) 19 6
def Dev.jitRnd (d : Dev) (c : Nat) : Nat := bits (d.tplRx c) 0 4
def Dev.silentRnd (d : Dev) (c : Nat) : Nat := bits (d.tplRx c) 8 8

/-- The first n header bytes of template c. -/
def Dev.tplHdr (d : Dev) (c n : Nat) : Bytes := (List.range n).map fun i => BitVec.ofNat 8 (d.tplByte c (16 + i))

/-- Offset of the IPv4 header in the frame. -/
def Dev.ipOff (d : Dev) (c : Nat) : Nat := if d.tplVlan c then 18 else 14

/-- The tag's TPID is one that R321 takes. -/
def tpidOk (h : Bytes) : Bool := beAt h 12 2 == 0x8100 || beAt h 12 2 == 0x88A8

/-- Bytes a to b - 1 of template c are 0. -/
def Dev.tplZero (d : Dev) (c a b : Nat) : Bool := (List.range (b - a)).all fun i => d.tplByte c (a + i) == 0

/-- The checks of R321 on a channel's template. -/
def Dev.tplOk (d : Dev) (c : Nat) : Bool :=
  let h := d.tplHdr c 58
  let i := d.ipOff c
  bit (d.tplCfg c) 0 && bits (d.tplCfg c) 25 7 == 0 && bits (d.tplRx c) 4 4 == 0 && bits (d.tplRx c) 16 16 == 0 &&
    d.tplZero c 12 16 && d.tplZero c (16 + i + 40) 128 &&
    decide (1 ≤ d.ptime c ∧ d.ptime c ≤ 12) && decide (1 ≤ d.jitRnd c ∧ d.jitRnd c ≤ 8) && decide (1 ≤ d.silentRnd c) &&
    (!d.tplVlan c || tpidOk h) && beAt h (i - 2) 2 == 0x0800 && byteAt h i == 0x45 && byteAt h (i + 9) == 17 &&
    decide (62 + 16 * d.ptime c ≤ 256)

/-- The checks of R321 on the event template. -/
def Dev.evTplOk (d : Dev) : Bool :=
  let w := d.tplCfg 16
  bit w 0 && w / 4 == 0 && d.tplZero 16 4 16 && (!bit w 1 || tpidOk (d.tplHdr 16 16)) &&
    d.tplZero 16 (if bit w 1 then 32 else 28) 128

/-! ### Run states (R331) -/

/-- Run state of channel c. -/
def Dev.llbRun (d : Dev) (c : Nat) : Nat :=
  if c < 8 then bits (d.rd LLB_CH_RUN0.RUN) (3 * c) 3 else bits (d.rd LLB_CH_RUN1.RUN) (3 * (c - 8)) 3

/-- Set the run state of channel c. -/
def setLlbRun (c v : Nat) (d : Dev) : Dev :=
  if c < 8 then d.wr LLB_CH_RUN0.RUN (setBits (d.rd LLB_CH_RUN0.RUN) (3 * c) 3 v)
  else d.wr LLB_CH_RUN1.RUN (setBits (d.rd LLB_CH_RUN1.RUN) (3 * (c - 8)) 3 v)

/-- Add n to counter i of channel c (Table 15.5). -/
def llbCount (c i n : Nat) (d : Dev) : Dev :=
  let o := 0x2E1000 + 32 * c + 4 * i
  d.setWord o (min (d.word o + n) (2 ^ 32 - 1))

/-- This device holds the token: HOLDER or LAPSING (R283). -/
def Dev.holds (d : Dev) : Bool := d.rd LSH_STATUS.STATE == 3 || d.rd LSH_STATUS.STATE == 4

/-- The conditions of R323 for channel c. -/
def Dev.llbMayAct (d : Dev) (c : Nat) : Bool :=
  d.pd 1 && d.llbRun c == 2 && d.rd LLB_STATUS.RUN == 2 && d.valid && (d.tier == 3 || !d.llOnly c)

/-- A packet is in build when channel c stops: its first round (R331). -/
def Dev.buildRound (d : Dev) (c : Nat) : Nat :=
  let r := d.frameExt / 16
  r - r % max 1 (d.ptime c)

/-- Channel c becomes active, or ceases to be (R323, R331, R332): with the Hearth invalid its play-out goes through
concealment, else it fades over 16 samples. -/
def llbRefresh1 (c : Nat) (d : Dev) : Dev :=
  let x := d.lc c
  let b := d.llbMayAct c
  if b && !x.act then
    (d.putBitOf LLB_STATUS.ACTIVE c true).lcMod c fun x =>
      { x with act := true, mark := true, tx := [], ssrc := none, seqs := [], off := 0, anchor := none, buf := [],
               good := [], conc := none, ramp := none, fade := none, quiet := 0, silent := false, build := none,
               era := {}, eraUp := none }
  else if !b && x.act then
    let d := d.putBitOf LLB_STATUS.ACTIVE c false
    if d.valid then
      let stop := d.llbRun c == 3 || d.llbRun c == 4 || d.rd LLB_STATUS.RUN == 3 || d.rd LLB_STATUS.RUN == 4
      let r := d.buildRound c
      d.lcMod c fun x => { x with act := false, fade := some 0, build := if stop then some r else none }
    else d.lcMod c fun x => { x with act := false, buf := [], anchor := none }
  else d

/-- Every channel looks at the conditions of R323. -/
def llbRefresh (d : Dev) : Dev :=
  let d := forN 16 llbRefresh1 d
  d.wrB LLB_STATUS.SENDING ((d.holds || d.on LLB_CFG.SEND_ALWAYS) && d.llb.chs.any (·.act))

/-- A channel enable is written (R331). -/
def llbChEn (c : Nat) (b : Bool) (d : Dev) : Dev :=
  let d := d.putBitOf LLB_CH_EN.EN c b
  let r := d.llbRun c
  let d := if r = 0 then d.lcMod c fun x => { x with conf := false } else d
  llbRefresh (setLlbRun c (if b then runEnable (d.pd 1) r else runDisable r) d)

/-- LLB_CTRL.EN is written (R331). -/
def llbEn (b : Bool) (d : Dev) : Dev :=
  let d := d.wrB LLB_CTRL.EN b
  let r := d.rd LLB_STATUS.RUN
  llbRefresh (d.wr LLB_STATUS.RUN (if b then runEnable (d.pd 1) r else runDisable r))

/-- LLB_CTRL.EV_EN is written (R331). -/
def llbEvEn (b : Bool) (d : Dev) : Dev :=
  let d := d.wrB LLB_CTRL.EV_EN b
  let r := d.rd LLB_STATUS.EV_RUN
  d.wr LLB_STATUS.EV_RUN (if b then runEnable (d.pd 1) r else runDisable r)

/-- A SAP input channel that is ON feeds Pegline voice channel v (R322). -/
def Dev.sapFeeds (d : Dev) (v : Nat) : Bool :=
  (List.range 64).any fun k =>
    d.rd (SAP_IMAPk.RUN k) == 2 && (let m := (d.sap.ins.getD k {}).map; bits m 1 2 == 1 && bits m 15 6 == v)

/-- A start that the template refuses, of channel c or of the event frames (16): OFF, its enable cleared (R321). -/
def llbRefuse (c : Nat) (d : Dev) : Dev :=
  let d := if c = 16 then (d.wr LLB_STATUS.EV_RUN 0).wrB LLB_CTRL.EV_EN false
    else (setLlbRun c 0 d).putBitOf LLB_CH_EN.EN c false
  (d.wr LLB_STATUS.BAD_CH c).ev LLB_EVENT.TPL_BAD

/-- A channel (0 to 15) or the event template (16) in STARTING is checked: refused, held in conflict, or ON at a round
event (R321, R322, R331). -/
def llbStart (round : Bool) (c : Nat) (d : Dev) : Dev :=
  if c = 16 then
    if d.rd LLB_STATUS.EV_RUN ≠ 1 then d
    else if !d.evTplOk then llbRefuse 16 d
    else if round then d.wr LLB_STATUS.EV_RUN 2 else d
  else
    if d.llbRun c ≠ 1 then d
    else if !d.tplOk c then llbRefuse c d
    else if d.tplLocal c && d.sapFeeds (d.vchTx c) then
      if (d.lc c).conf then d else (d.lcMod c fun x => { x with conf := true }).ev LLB_EVENT.CONFLICT
    else if round then llbRefresh ((setLlbRun c 2 d).lcMod c fun x => { x with conf := false }) else d

/-- Quiescence of a channel (0 to 15), of the event frames (16) or of the bridge (17) (R331). -/
def llbStopped (c : Nat) (d : Dev) : Dev :=
  if c = 16 then
    if d.llb.evq.isEmpty then d.wr LLB_STATUS.EV_RUN (runQuiet (d.rd LLB_STATUS.EV_RUN)) else d
  else if c = 17 then
    if d.llb.chs.all (·.build.isNone) then d.wr LLB_STATUS.RUN (runQuiet (d.rd LLB_STATUS.RUN)) else d
  else if (d.lc c).build.isNone then setLlbRun c (runQuiet (d.llbRun c)) d else d

/-! ### Sending (R320, R323 to R325) -/

/-- The one's-complement sum of 16-bit words, big-endian, an odd byte padded with 0. -/
def ocSum : Bytes → Nat
  | [] => 0
  | [a] => a.toNat * 256
  | a :: b :: m => a.toNat * 256 + b.toNat + ocSum m

/-- The Internet checksum over a sum. -/
def inetSum (s : Nat) : Nat :=
  let s := s % 65536 + s / 65536
  let s := s % 65536 + s / 65536
  65535 - s

/-- The sum of the UDP pseudo header of the IPv4 header h. -/
def pseudoSum (h : Bytes) (udpLen : Nat) : Nat := ocSum (slice h 12 8) + 17 + udpLen

/-- The packet of channel c with the given codes, number, time and marker (R320), without its FCS. -/
def Dev.llbPacket (d : Dev) (c : Nat) (codes : List Nat) (seq ts : Nat) (mark : Bool) : Bytes :=
  let i := d.ipOff c
  let h := d.tplHdr c (i + 40)
  let n := codes.length
  let rtp := [0x80#8, BitVec.ofNat 8 ((if mark then 128 else 0) + (if d.tplLaw c = 1 then 8 else 0))] ++
    beBytes 2 seq ++ beBytes 4 ts ++ slice h (i + 36) 4 ++ codes.map (BitVec.ofNat 8)
  let ip0 := patch (patch (slice h i 20) 2 (beBytes 2 (40 + n) ++ [0, 0, 0x40, 0])) 10 [0, 0]
  let ip := patch ip0 10 (beBytes 2 (inetSum (ocSum ip0)))
  let udp0 := slice h (i + 20) 4 ++ beBytes 2 (20 + n) ++ [0, 0] ++ rtp
  let ck := inetSum (pseudoSum ip (20 + n) + ocSum udp0)
  h.take i ++ ip ++ patch udp0 6 (beBytes 2 (if ck = 0 then 65535 else ck))

/-- Queue a frame of the bridge on CH0 in class tc; `who` is the channel, 16 for an event copy (R325). -/
def llbSend (who tc : Nat) (bs : Bytes) (d : Dev) : Dev :=
  let data := bs ++ leBytes 4 (crc32 bs)
  let id := d.host.nextId
  let d := { d with host := { d.host with nextId := id + 1 } }
  let cells := (d.alloc data.length).getD []
  let x : Frm := { id := id, data := data, src := 6, tc := tc, cells := cells, guar := true,
                   llb := some who, dec := { kind := 0, mask := 1, tc := tc } }
  enqueue 0 x (writeCells cells d)

/-- Keep the bridge samples of the last 256 frames. -/
def keepTx (now : Nat) (xs : List (Nat × Nat)) : List (Nat × Nat) := xs.filter fun x => decide (now < x.1 + 256)

/-- A sample for era-extended frame f of channel c (R322). -/
def llbIn (c f : Nat) (s : Smp) (d : Dev) : Dev :=
  if (d.lc c).act || (d.lc c).build.isSome then
    let code := s.enc (d.tplLaw c)
    d.lcMod c fun x => { x with tx := keepTx f (x.tx.filter fun y => y.1 != f) ++ [(f, code)] }
  else d

/-- The codes of the packet of channel c whose first round is r: silence for frames without a sample (R322, R323). -/
def Dev.llbCodes (d : Dev) (c r : Nat) : List Nat :=
  (List.range (16 * d.ptime c)).map fun i =>
    (((d.lc c).tx.find? fun x => x.1 == 16 * r + i).map (·.2)).getD (silenceCode (d.tplLaw c))

/-- The round that the packet due in this frame begins with, if one is due (R323). -/
def Dev.llbDue (d : Dev) (c : Nat) : Option Nat :=
  let p := d.ptime c
  let q := d.frameExt - (d.phaseFr c + 16)
  if 0 < p ∧ 16 * p + d.phaseFr c + 16 ≤ d.frameExt ∧ q % (16 * p) = 0 then some (q / 16 - p) else none

/-- The packet of channel c falls due: it is built, numbered, and queued by the sending device (R323, R324, R331). -/
def llbPacketDue (c : Nat) (d : Dev) : Dev :=
  let x := d.lc c
  match d.llbDue c with
  | none => d
  | some r =>
    if (x.act || x.build.any fun b => decide (r ≤ b)) && x.lastR != some r then
      let bs := d.llbPacket c (d.llbCodes c r) (r / d.ptime c % 65536) (16 * r % 2 ^ 32) x.mark
      let d := d.lcMod c fun y =>
        { y with lastR := some r, mark := false, build := if y.build = some r then none else y.build }
      if d.on LLB_CFG.SEND_ALWAYS || d.holds then llbSend c (d.rd LLB_CFG.TC) bs d else d
    else d

/-- Frames after which a queued bridge frame is dropped: P rounds for media, a superframe for an event (R325). -/
def Dev.llbLimit (d : Dev) (who : Nat) : Nat := if who < 16 then 16 * d.ptime who else 1024

/-- The bridge's frames of `who` not begun in time are dropped (R325). -/
def llbTxDrop (who : Nat) (d : Dev) : Dev :=
  let old (x : Frm) : Bool := x.llb == some who && decide (x.qFr + d.llbLimit who ≤ d.frameExt)
  let xs := (d.ch 0).queues.flatMap fun q => q.filter old
  let d := d.chMod 0 fun c => { c with queues := c.queues.map fun q => q.filter fun x => !old x }
  xs.foldl (fun d x =>
    let d := if who < 16 then (llbCount who 1 1 d).ev LLB_EVENT.TX_DROP
      else (d.sat LLB_EV_LOST.COUNT).ev LLB_EVENT.EV_LOST
    leave false x d) d

/-! ### Event frames (R329, R330) -/

/-- Send the next copy of an event, while the device holds the token or for a TOKEN event. -/
def llbEvCopy (e : LlbEv) (d : Dev) : Dev :=
  if d.holds || byteAt e.body 1 == 7 then
    let vlan := bit (d.tplCfg 16) 1
    let h := d.tplHdr 16 (if vlan then 16 else 12) ++ [0x88, 0xB5] ++ patch e.body 6 [BitVec.ofNat 8 e.copy]
    llbSend 16 (d.rd LLB_CFG.EV_TC) (h ++ List.replicate (60 - h.length) 0) d
  else d

/-- An event of Table 15.4 is raised: numbered, queued, its first copy sent (R330). -/
def llbEmit (code arg0 arg1 : Nat) (d : Dev) : Dev :=
  if d.pd 1 && d.rd LLB_STATUS.EV_RUN == 2 && d.bitOf LLB_EV_MASK.MASK (code - 1) && (d.holds || code == 7) then
    let n := d.rd LLB_EV_SEQ.NEXT
    let body := [1#8, BitVec.ofNat 8 code] ++ beBytes 2 n ++
      [BitVec.ofNat 8 (d.rd PEG_CFG.NODE_ID + (if d.holds then 128 else 0)), BitVec.ofNat 8 d.tier, 0,
       BitVec.ofNat 8 ((if d.valid then 1 else 0) + (if d.on HRT_STATUS.TRACEABLE then 2 else 0))] ++
      beBytes 8 (d.now % 2 ^ 64) ++ beBytes 4 arg0 ++ beBytes 4 arg1 ++ List.replicate 8 0
    let copies := d.rd LLB_CFG.EV_COPIES
    let e : LlbEv := { body := body, copy := 0, left := copies, due := d.frameExt + 16 }
    let d := d.wr LLB_EV_SEQ.NEXT ((n + 1) % 65536)
    let d := llbEvCopy e d
    if copies = 0 then d
    else
      let full := decide (16 ≤ d.llb.evq.length)
      let d := if full then (d.sat LLB_EV_LOST.COUNT).ev LLB_EVENT.EV_LOST else d
      d.llbMod fun l => { l with evq := (if full then l.evq.drop 1 else l.evq) ++ [{ e with copy := 1 }] }
  else d

/-- The copy of the oldest event that is due is sent (R330). -/
def evCopyDue (d : Dev) : Dev :=
  match d.llb.evq.findIdx? (fun e => decide (e.due ≤ d.frameExt)) with
  | none => d
  | some i =>
    let e := d.llb.evq.getD i {}
    let d := llbEvCopy e d
    d.llbMod fun l => { l with
      evq := if e.left ≤ 1 then l.evq.eraseIdx i
        else l.evq.set i { e with copy := e.copy + 1, left := e.left - 1, due := e.due + 16 } }

/-- The HEARTBEAT of a superframe event (Table 15.4). -/
def llbHeartbeat (d : Dev) : Dev :=
  let n := d.rd LLB_CFG.HB_SF
  if n ≠ 0 ∧ d.frameExt / 1024 % n = 0 then llbEmit 1 (d.rd SHD_STATUS.SCORE) (d.rd RAT_RIDE.MS) d else d

/-! ### Receiving (R326, R327) -/

/-- The IPv4 header of a frame for the bridge: its offset, for an untagged frame or one with one tag. -/
def rxIpOff (bs : Bytes) : Option Nat :=
  if beAt bs 12 2 = 0x0800 then some 14
  else if (beAt bs 12 2 = 0x8100 ∨ beAt bs 12 2 = 0x88A8) ∧ beAt bs 16 2 = 0x0800 then some 18 else none

/-- The lowest ON channel whose addresses a frame on CH0 matches (R326). -/
def Dev.llbMatch (d : Dev) (bs : Bytes) : Option Nat :=
  match rxIpOff bs with
  | none => none
  | some i =>
    if d.pd 1 && byteAt bs i == 0x45 && byteAt bs (i + 9) == 17 && beAt bs (i + 6) 2 % 0x4000 == 0 then
      (List.range 16).find? fun c =>
        d.llbRun c == 2 &&
          (let j := d.ipOff c
           let h := d.tplHdr c (j + 22)
           slice bs (i + 16) 4 == slice h (j + 12) 4 && slice bs (i + 22) 2 == slice h (j + 20) 2)
    else none

/-- The checks of R326 on a matching packet: its UDP payload length, or none when it is bad. -/
def Dev.llbGood (d : Dev) (c : Nat) (bs : Bytes) : Option Nat :=
  let i := (rxIpOff bs).getD 14
  let ip := slice bs i 20
  let ul := beAt bs (i + 24) 2
  let udp := slice bs (i + 20) ul
  let rtp := udp.drop 8
  if inetSum (ocSum ip) = 0 ∧ 20 < ul ∧ udp.length = ul ∧ i + 20 + ul + 4 ≤ bs.length ∧
      (beAt udp 6 2 = 0 ∨ inetSum (pseudoSum ip ul + ocSum udp) = 0) ∧
      byteAt rtp 0 = 0x80 ∧ byteAt rtp 1 % 128 = (if d.tplLaw c = 1 then 8 else 0) ∧ bs.length ≤ 256 then some ul else none

/-- The first round event at least JIT_RND rounds after now (R327). -/
def Dev.anchorFrame (d : Dev) (c : Nat) : Nat :=
  let t := d.nowExt + d.jitRnd c * 16 * frMt
  (t + 16 * frMt - 1) / (16 * frMt) * 16

/-- A good packet of number seq, timestamp ts and codes xs is placed, or discarded as late, early or a duplicate (R327). -/
def llbPlace (c seq ts : Nat) (xs : List Nat) (d : Dev) : Dev :=
  let x := d.lc c
  let cur := d.frameExt
  let a := x.anchor.getD (ts, d.anchorFrame c)
  let first := a.2 + (ts + 2 ^ 32 - a.1) % 2 ^ 32
  let last := first + xs.length - 1
  let late := decide (last ≤ cur)
  let early := decide (cur + 256 < last)
  let accept (a : Nat × Nat) (d : Dev) : Dev :=
    let first := a.2 + (ts + 2 ^ 32 - a.1) % 2 ^ 32
    let d := llbCount c 2 1 d
    let d := if x.silent then llbEmit 6 (c + 256) 0 (d.ev LLB_EVENT.RX_BACK) else d
    d.lcMod c fun y => { y with
      anchor := some a, off := 0, quiet := 0, silent := false, good := xs
      seqs := (seq :: y.seqs).take 16
      buf := (y.buf.filter fun b => b.1 < first || first + xs.length ≤ b.1) ++
        (((List.range xs.length).zip xs).filter fun p => decide (cur < first + p.1)).map fun p => (first + p.1, p.2) }
  if late || early then
    let d := llbCount c (if late then 3 else 4) 1 d
    if x.off + 1 < 3 then d.lcMod c fun y => { y with off := y.off + 1 }
    else accept (ts, d.anchorFrame c) ((d.ev LLB_EVENT.RESYNC).lcMod c fun y => { y with buf := [] })
  else if x.anchor.isSome && x.seqs.contains seq then llbCount c 5 1 (d.lcMod c fun y => { y with off := 0 })
  else accept a d

/-- A frame on CH0 taken by channel c (R326). -/
def llbTake (c : Nat) (bs : Bytes) (d : Dev) : Dev :=
  match d.llbGood c bs with
  | none => llbCount c 6 1 d
  | some ul =>
    let rtp := slice bs ((rxIpOff bs).getD 14 + 28) (ul - 8)
    let ssrc := beAt rtp 8 4
    let x := d.lc c
    let want := if d.tplSsrc c ≠ 0 then some (d.tplSsrc c) else x.ssrc
    if want.isSome && want != some ssrc then llbCount c 6 1 d
    else if x.act then
      let d := d.lcMod c fun y => { y with ssrc := some ssrc, quiet := 0 }
      llbPlace c (beAt rtp 2 2) (beAt rtp 4 4) ((rtp.drop 12).map (·.toNat)) d
    else d

/-- No good packet for SILENT_RND rounds: the channel is silent (R328). -/
def llbSilent (c : Nat) (d : Dev) : Dev :=
  let x := d.lc c
  if x.act && !x.silent && decide (d.silentRnd c ≤ x.quiet) then
    llbEmit 6 c 0 ((d.ev LLB_EVENT.RX_SILENT).lcMod c fun y =>
      { y with silent := true, anchor := none, ssrc := none })
  else d

/-! ### Play-out at a frame event (R322, R327, R328, R331) -/

/-- The sample that concealment gives at its place j after a last good packet xs: it again, then over twice its length a
fade to 0, then silence (R328). -/
def concealed (law : Nat) (xs : List Nat) (j : Nat) : Smp :=
  let n := xs.length
  if n = 0 ∨ 3 * n ≤ j then Smp.zero
  else
    let s := Smp.ofCode law (xs.getD (j % n) (silenceCode law))
    if j < n then s else s.scale (3 * n - 1 - j) (2 * n)

/-- The play-out cell of channel c is read (R217, R218): its errors are logged, and the samples of each 32 B that holds an
uncorrectable one become silence. The sample of frame f lies in byte f mod 256. -/
def llbCellRead (c : Nat) (d : Dev) : Dev :=
  let b := Buf.lifeline ⟨c % 16, Nat.mod_lt _ (by decide)⟩
  let bad := (d.pm.upsets.filter fun u => u.buf == b && u.double).map (·.word.val / 4)
  let d := (bufRead b d).2
  if bad.isEmpty then d
  else d.lcMod c fun x => { x with
    buf := x.buf.map fun s => if bad.contains (s.1 % 256 / 32) then (s.1, silenceCode (d.tplLaw c)) else s }

/-- Play of channel c reaches the present frame. -/
def llbPlay (c : Nat) (d : Dev) : Dev :=
  let d := llbCellRead c d
  let x := d.lc c
  let f := d.frameExt
  let law := d.tplLaw c
  let hit := x.buf.find? fun b => b.1 == f
  let buf := x.buf.filter fun b => decide (f < b.1)
  match hit with
  | some (_, code) =>
    let ramp := if x.conc.isSome then some 1 else x.ramp
    let s := Smp.ofCode law code
    let s := match ramp with
      | some k => s.scale k 16
      | none => s
    let s := match x.fade with
      | some k => s.scale (15 - k) 16
      | none => s
    d.lcMod c fun y => { y with buf := buf, play := s, conc := none, ramp := ramp.bind fun k => if 16 ≤ k then none else some (k + 1) }
  | none =>
    if x.good.isEmpty then d.lcMod c fun y => { y with buf := buf, play := Smp.zero }
    else
      let j := x.conc.getD 0
      let n := x.good.length
      let d := if x.fade.isNone && !x.silent && (j + 1) % n == 0 then llbCount c 7 1 d else d
      let s := concealed law x.good j
      let s := match x.fade with
        | some k => s.scale (15 - k) 16
        | none => s
      d.lcMod c fun y => { y with buf := buf, play := s, conc := some (j + 1), ramp := none }

/-- The Pegline side of a LOCAL channel at a frame event: it consumes VCH_RX, with concealment, and feeds VCH_TX (R322). -/
def llbLocal (c : Nat) (d : Dev) : Dev :=
  let f := d.frameExt
  let x := d.lc c
  if d.tplLocal c && (x.act || x.build.isSome) then
    let (e, _, back) := x.era.enter (f / 16) d.voiceLaw (d.voiceHanded (d.vchRx c))
    let up := if back then some 1 else x.eraUp
    let s := e.sample true (f % 16)
    let s := match up with
      | some k => s.scale k 16
      | none => s
    let d := d.lcMod c fun y => { y with era := e, eraUp := up.bind fun k => if 16 ≤ k then none else some (k + 1) }
    let d := llbIn c f s d
    voiceTake (d.vchTx c) (f % 16) ((d.lc c).play.enc d.voiceLaw) d
  else d

/-- Channel c at a frame event. -/
def llbFrame1 (round : Bool) (c : Nat) (d : Dev) : Dev :=
  let x := d.lc c
  let d := if x.act || x.fade.isSome || (!d.valid && !x.good.isEmpty) then llbPlay c d else d
  let d := match (d.lc c).fade with
    | some k =>
      if 15 ≤ k then d.lcMod c fun y => { y with fade := none, good := [], buf := [], conc := none, play := Smp.zero }
      else d.lcMod c fun y => { y with fade := some (k + 1) }
    | none => d
  let d := llbLocal c d
  if round ∧ (d.lc c).act then d.lcMod c fun y => { y with quiet := y.quiet + 1 } else d

/-- The bridge at a frame event: starts complete at the round event, play-out, heartbeat. -/
def llbFrame (b : Bounds) (d : Dev) : Dev :=
  if d.pd 1 then
    let d := if b.round then forN 17 (llbStart true) (d.wr LLB_STATUS.RUN (runStart (d.rd LLB_STATUS.RUN))) else d
    let d := forN 16 (llbFrame1 b.round) (llbRefresh d)
    if b.superframe then llbHeartbeat d else d
  else d

/-- A Hearth step: the next packets carry the marker, and play-out resynchronises (R323, R332). -/
def llbStep (d : Dev) : Dev :=
  let any := d.llb.chs.any fun x => x.act && x.anchor.isSome
  (d.llbMod fun l => { l with chs := l.chs.map fun x => { x with mark := true, anchor := none, buf := [], tx := [], lastR := none } }).evIf
    any LLB_EVENT.RESYNC

/-- PD1 is switched off (R331): buffers discarded, everything OFF, enables kept. -/
def llbOff (d : Dev) : Dev :=
  let d := forN 16 (fun c d => setLlbRun c 0 d) d
  { ((d.wr LLB_STATUS.RUN 0).wr LLB_STATUS.EV_RUN 0).wr LLB_STATUS.ACTIVE 0 with llb := {} }

/-- PD1 is powered: every enabled channel passes through STARTING (R331). -/
def llbOn (d : Dev) : Dev :=
  let d := if d.on LLB_CTRL.EN then d.wr LLB_STATUS.RUN (runEnable true (d.rd LLB_STATUS.RUN)) else d
  let d := if d.on LLB_CTRL.EV_EN then d.wr LLB_STATUS.EV_RUN (runEnable true (d.rd LLB_STATUS.EV_RUN)) else d
  forN 16 (fun c d => if d.bitOf LLB_CH_EN.EN c then setLlbRun c (runEnable true (d.llbRun c)) d else d) d

/-- A template write acts only while its channel, or EV_EN, is OFF (R319). -/
def Dev.tplOpen (d : Dev) (c : Nat) : Bool :=
  if c < 16 then d.llbRun c == 0 else d.rd LLB_STATUS.EV_RUN == 0

end Sys2Proof.Machine
end

