-- ==== Sys2Proof/Machine/PegSyncOps.lean ====
section
/-!
DEFINITION. Machine/PegSyncOps.lean: the Pegline schedule window, roles, start-up and synchronisation
(spec/11 R243, R244; spec/12_pegline_startup_and_synchronisation.md, R257 to R274).
-/

namespace Sys2Proof.Machine

/-- Change Pegline's internals. -/
def Dev.pegMod (d : Dev) (f : Peg → Peg) : Dev := { d with peg := f d.peg }

/-! ### The schedule window (R243) -/

/-- Word k of slot s of bank b. -/
def Dev.schedWord (d : Dev) (b s k : Nat) : Nat := d.word (0x2C0000 + b * 0x400 + 16 * s + 4 * k)

/-- A schedule entry (Table 11.5). -/
structure SlotEnt where
  type    : Nat := 0
  owner   : Nat := 0
  paths   : Nat := 0
  payload : Nat := 0
  rx      : Bool := false
  voice   : Bool := false
  flow    : Nat := 0
  vbase   : Nat := 0
  vcnt    : Nat := 0
  deriving DecidableEq, Repr, Inhabited

/-- Slot s of bank b. -/
def Dev.slotEnt (d : Dev) (b s : Nat) : SlotEnt :=
  let w := d.schedWord b s 0
  let v := d.schedWord b s 1
  { type := bits w 0 2, owner := bits w 2 5, paths := bits w 7 2, payload := bits w 9 12, rx := bit w 21,
    voice := bit w 22, flow := bits w 24 8, vbase := bits v 0 6, vcnt := bits v 8 7 }

/-- This device's node number. -/
def Dev.node (d : Dev) : Nat := d.rd PEG_CFG.NODE_ID

/-- Chain mode is in use. -/
def Dev.chain (d : Dev) : Bool := d.on PEG_STATUS.MODE_NOW

/-- The operational entry of slot s; unused where no bank is operational, without paths where its parity failed
(Table 18.5). -/
def Dev.opSlot (d : Dev) (s : Nat) : SlotEnt :=
  match d.peg.oper with
  | some b => if d.peg.badSlots.contains s then { d.slotEnt b s with paths := 0 } else d.slotEnt b s
  | none => {}

/-- SYNC slots in schedule order: (slot, owner). -/
def Dev.syncSlots (d : Dev) : List (Nat × Nat) :=
  (List.range 64).filterMap fun s =>
    let e := d.opSlot s
    if e.type = 2 ∧ e.paths ≠ 0 then some (s, e.owner) else none

/-- This device owns a SYNC slot in the operational schedule. -/
def Dev.ownSync (d : Dev) : Bool := d.syncSlots.any fun x => x.2 == d.node

/-- SCHED_CRC of the operational bank (R260). -/
def Dev.schedCrc (d : Dev) : Nat :=
  match d.peg.oper with
  | some b => crc32 ((List.range 256).flatMap fun k => leBytes 4 (d.word (0x2C0000 + b * 0x400 + 4 * k)))
  | none => 0

/-- Payload and path count of each slot for the admission sum (R244). -/
def Dev.slotCosts (d : Dev) (bank : Option Nat) : List (Nat × Nat) :=
  match bank with
  | none => []
  | some b => (List.range 64).map fun s =>
    let e := d.slotEnt b s
    let carries := e.type == 3 || e.type == 1 || (e.type == 0 && (e.owner == d.node || e.rx))
    (if carries && e.paths != 0 then e.payload else 0, e.paths % 2 + e.paths / 2)

/-! ### State, grid and roles (Table 12.2, R257, R265) -/

/-- The synchronisation state. -/
def Dev.pst (d : Dev) : Nat := d.rd PEG_SYNC_STATUS.STATE

/-- Acts as FIRST or REF. -/
def Dev.isFirst (d : Dev) : Bool := d.on PEG_SYNC_STATUS.FIRST
def Dev.isRef (d : Dev) : Bool := d.on PEG_SYNC_STATUS.REF

/-- Pegline leaves sync: a LOCKED Hearth of source PEGLINE goes to HOLDOVER (R273, Table 2.5). -/
def pegLeaves (d : Dev) : Dev :=
  if d.src = 2 then
    if d.rd HRT_STATUS.STATE = 2 then hrtEnter 3 d else d.hearthMod fun h => { h with acqRun := 0 }
  else d

/-- Pegline reports sync (R273, Table 2.5). -/
def pegReports (d : Dev) : Dev :=
  if d.src = 2 then
    if d.rd HRT_STATUS.STATE = 1 then
      let n := d.hearth.acqRun + 1
      if 4 ≤ n then hrtEnter 2 d else d.hearthMod fun h => { h with acqRun := n }
    else if d.rd HRT_STATUS.STATE = 3 then (hrtEnter 1 d).hearthMod fun h => { h with acqRun := 1 }
    else d
  else d

/-- The grid is lost: frames in reassembly miss their slots, and what follows of them is passed over (R242, R247; assumption log
39); messages in reassembly are discarded. -/
def gridLost (d : Dev) : Dev :=
  (d.sat PEG_ASM_ERR.COUNT d.peg.asm.length).pegMod fun p => { p with
    asm := [], msgAsm := []
    skip := p.skip ++ (p.asm.map fun a => (a.src, a.flow)).filter fun x => !p.skip.contains x }

/-- Enter a synchronisation state; the grid is held exactly in SYNC (R265). -/
def pegEnter (st : Nat) (d : Dev) : Dev :=
  let was := d.pst
  let d := (d.wr PEG_SYNC_STATUS.STATE st).wrB PEG_SYNC_STATUS.GRID (st == 3)
  let d := gridUpdate (st == 3) d
  let d := if was = 3 ∧ st ≠ 3 then gridLost (pegLeaves d) else d
  let d := (d.wr PEG_SYNC_STATUS.NO_CORR 0).wrB PEG_SYNC_STATUS.WEAK false
  let d := if st = 3 then
      let d := (d.ev PEG_SYNC_EVENT.SYNC_ENTER).wrB PEG_SYNC_STATUS.LONE_FAULT false
      d.pegMod fun p => { p with base := d.hearth.a.rate, total := 0, prev := [] }
    else d
  let d := if st = 1 then d.pegMod fun p => { p with listenFr := 0 } else d
  let d := if st = 3 then d else d.pegMod fun p => { p with dev := [], refs := [], firstSrc := none }
  let d := d.pegMod fun p => { p with loading := false }
  if st = 4 then
    (d.ev PEG_SYNC_EVENT.LONE).wrB PEG_SYNC_STATUS.LONE_FAULT (!d.on PEG_CFG.SOLO_OK)
  else if st = 3 then d else d.wrB PEG_SYNC_STATUS.LONE_FAULT (d.on PEG_SYNC_STATUS.LONE_FAULT && st != 0)

/-- The roles that the grant and the configuration give (R257); a start as FIRST or REF leaves sync (R273). -/
def roleUpdate (d : Dev) : Dev :=
  let run := d.pst != 0
  let role := d.on PEG_SYNC_STATUS.ROLE
  let ref := run && role && !d.chain && d.on PEG_SYNC_CFG.REF_EN && d.src != 2 && d.valid
  let fst := run && role && d.chain && d.on PEG_SYNC_CFG.FN_ELIG && d.ownSync
  let chg := ref != d.isRef || fst != d.isFirst
  let begins := (ref && !d.isRef) || (fst && !d.isFirst)
  let d := ((d.wrB PEG_SYNC_STATUS.REF ref).wrB PEG_SYNC_STATUS.FIRST fst).evIf chg PEG_SYNC_EVENT.ROLE_CHG
  if begins then pegLeaves d else d

/-- Cold-start eligible (R258). -/
def Dev.csOk (d : Dev) : Bool := if d.chain then d.isFirst else d.ownSync && d.on PEG_SYNC_CFG.CS_EN

/-- HRT_STATUS.VALID fell or returned (Table 12.2). -/
def pegValid (d : Dev) : Dev :=
  let st := d.pst
  if !d.valid && decide (1 ≤ st ∧ st ≤ 4) then pegEnter 5 d
  else if d.valid && st == 5 then pegEnter 1 d else d

/-- Sync is lost (Table 12.2). -/
def pegSyncLost (d : Dev) : Dev := pegEnter 1 ((d.ev PEG_SYNC_EVENT.SYNC_LOST).sat PEG_SYNC_LOSS.COUNT)

/-- The listen timer expires (R262). -/
def listenTimeout (d : Dev) : Dev :=
  if d.pst = 1 ∧ 2048 + 16 * d.node ≤ d.peg.listenFr then
    if d.csOk then
      let d := (pegEnter 2 d).ev PEG_SYNC_EVENT.COLDSTART
      (d.wr PEG_SYNC_STATUS.CS_COUNT 0).pegMod fun p => { p with csFrom := (d.frameExt + 15) / 16, resp := false }
    else pegEnter 4 d
  else d

/-- The round after the 16th cold-start frame ends without a response (Table 12.2, R265). -/
def coldstartTimeout (d : Dev) : Dev :=
  if d.pst = 2 ∧ d.rd PEG_SYNC_STATUS.CS_COUNT = 16 ∧ d.peg.csFrom + 17 ≤ d.frameExt / 16 then pegEnter 4 d else d

/-! ### SYNC frames (R259) -/

/-- The SYNC payload that this device sends (Table 12.1). -/
def syncPayload (round : Nat) (d : Dev) : Bytes :=
  let flags := b2n d.isRef + 2 * b2n d.isFirst + 4 * b2n (d.pst == 3) + 8 * b2n (d.on HRT_STATUS.TRACEABLE) +
    16 * b2n (d.pst == 4)
  beBytes 8 round ++ [BitVec.ofNat 8 flags, BitVec.ofNat 8 d.peg.sentN, 0, 0] ++ beBytes 4 d.schedCrc ++
    beBytes 4 (d.rd PEG_SYNC_RATE.VALUE) ++ List.replicate 28 0

/-- Fields of a received SYNC payload. -/
def syncRound (p : Bytes) : Nat := beNat (p.take 8)
def syncFlag (n : Nat) (p : Bytes) : Bool := bit (byteAt p 8) n
def syncCrc (p : Bytes) : Nat := beNat (slice p 12 4)

/-- The delay register of a port: A for channel A, B for channel B. -/
def dlyMt (b : Bool) : Field := if b then PEG_DLY_B.MT else PEG_DLY_A.MT
def dlyFn (b : Bool) : Field := if b then PEG_DLY_B.FN else PEG_DLY_A.FN
def dlyOk (b : Bool) : Field := if b then PEG_DLY_B.VALID else PEG_DLY_A.VALID

/-- The delay of a port is valid for a first node (R270). -/
def Dev.dlyFor (d : Dev) (b : Bool) (n : Nat) : Option Nat :=
  if d.on (dlyOk b) && d.rd (dlyFn b) == n then some (d.rd (dlyMt b)) else none

/-- The sender's slot start in own Hearth time, from the time of the start delimiter or K27.7 (R263). -/
def Dev.syncStart (d : Dev) (b : Bool) (src sd : Nat) : Option Int :=
  if d.chain then (d.dlyFor b src).map fun x => (sd : Int) - x
  else some ((sd : Int) - 12288 - d.rd PEG_SYNC_BUSDLY.DLY)

/-- The frame that the node integrates on is its sender's deviation v of the round (R266; DEDUCED, log 31). -/
def integDev (src : Nat) (v : Int) (ref : Bool) (d : Dev) : Dev :=
  match d.syncSlots.findIdx? fun x => x.2 == src with
  | none => d
  | some k => d.pegMod fun q => { q with dev := [(k, v)], refs := if ref then [k] else [],
                                         firstSrc := if d.chain then some src else none }

/-- Integration on a fit SYNC frame (R263): the Hearth is loaded where SRC is PEGLINE, else the frame must lie within W.
`sd` is the era-extended time of its start delimiter. The node enters SYNC when the load applies (`pegLoaded`). -/
def integrate (b : Bool) (src slot sd : Nat) (p : Bytes) (d : Dev) : Dev :=
  match d.syncStart b src sd with
  | none => d
  | some st =>
    let want := syncRound p * 16 * frMt + slot * 262144
    if d.src = 2 then
      if d.on HRT_STATUS.LOAD_PENDING then d
      else integDev src 0 (syncFlag 0 p) ((hwLoad ((want : Int) - st) d).pegMod fun p => { p with loading := true })
    else if (st - want).natAbs ≤ d.rd PEG_SYNC_WIN.W then pegEnter 3 (integDev src (st - want) (syncFlag 0 p) d)
    else (d.sat PEG_INTEG_REJ.COUNT).ev PEG_SYNC_EVENT.INTEG_REJ

/-- The load that an integration waited for is applied (R263). -/
def pegLoaded (d : Dev) : Dev := if d.peg.loading then pegEnter 3 d else d

/-! ### Corrections (R266 to R268, R271) -/

/-- Insert into a sorted list. -/
def insInt (x : Int) : List Int → List Int
  | [] => [x]
  | y :: ys => if x ≤ y then x :: y :: ys else y :: insInt x ys

/-- Ascending order. -/
def sortInt (xs : List Int) : List Int := xs.foldr insInt []

/-- How many values the average drops at each end (R267). -/
def ftaK (n : Nat) (useRef : Bool) : Nat := if useRef then 0 else if 7 ≤ n then 2 else if 3 ≤ n then 1 else 0

/-- The fault-tolerant average (R267). -/
def fta (vals : List Int) (useRef : Bool) : Int :=
  let n := vals.length
  let k := ftaK n useRef
  let kept := ((sortInt vals).drop k).take (n - 2 * k)
  (kept.foldl (· + ·) 0).tdiv kept.length

/-- A round in SYNC without a correction (Table 12.2). -/
def noCorrection (d : Dev) : Dev :=
  let n := min (d.rd PEG_SYNC_STATUS.NO_CORR + 1) 255
  let d := (d.wr PEG_SYNC_STATUS.NO_CORR n).sat PEG_SYNC_NOCORR.COUNT
  let d := if n = 3 then (d.ev PEG_SYNC_EVENT.SYNC_WEAK).wrB PEG_SYNC_STATUS.WEAK true else d
  let d := if d.src = 2 ∧ d.rd HRT_STATUS.STATE = 1 then d.hearthMod fun h => { h with acqRun := 0 } else d
  if d.rd PEG_SYNC_CFG.LOSS_RND ≤ n then pegSyncLost d else d

/-- A round with a correction. -/
def withCorrection (d : Dev) : Dev := (d.wr PEG_SYNC_STATUS.NO_CORR 0).wrB PEG_SYNC_STATUS.WEAK false

/-- The Hearth follows Pegline (R268). -/
def Dev.pegSteers (d : Dev) : Bool := d.src == 2 && !d.isRef && !d.isFirst

/-- Rate part of R267. -/
def rateStep (pairs : List Int) (useRef : Bool) (minVals : Nat) (d : Dev) : Dev :=
  if minVals ≤ pairs.length ∧ pairs ≠ [] then
    let d := d.wr PEG_SYNC_NVALS.RATE_N pairs.length
    let step := -((fta pairs useRef * 4096).tdiv (2 ^ d.rd PEG_SYNC_CFG.RATE_SHIFT))
    let total := clampI (d.peg.total + clampI step (-343597) 343597) (-3435973) 3435973
    let d := (d.pegMod fun p => { p with total := total }).wr PEG_SYNC_RATE.VALUE (uns 32 total)
    let d := d.evIf (total.natAbs == 3435973) PEG_SYNC_EVENT.RATE_LIMIT
    if d.pegSteers then hwRate (d.peg.base + total) d else d
  else d

/-- The values of a round: chain, the first node's alone; bus, those of REF senders, else all (R267, R271). -/
def Dev.roundVals (d : Dev) : List (Nat × Int) :=
  let w := d.rd PEG_SYNC_WIN.W
  let inWin := d.peg.dev.filter fun x => decide (x.2.natAbs ≤ w)
  if d.chain then d.peg.dev
  else
    let refs := inWin.filter fun x => d.peg.refs.contains x.1
    if refs.isEmpty then inWin else refs

/-- Ring monitoring of one round (R272). -/
def ringRound (d : Dev) : Dev :=
  if d.chain && d.on PEG_CFG.RING && d.pst == 3 then
    let p := d.peg
    d.pegMod fun q => { q with ringA := if p.gotB && !p.gotA then p.ringA + 1 else 0
                               ringB := if p.gotA && !p.gotB then p.ringB + 1 else 0
                               ringBoth := if p.gotA && p.gotB then p.ringBoth + 1 else 0 }
  else d

/-- The first node's SYNC frame is missing on one channel for 3 rounds, or a lane lost sync (R272). -/
def ringBreak (d : Dev) : Dev :=
  if d.on PEG_CFG.RING && d.on PEG_SYNC_STATUS.RING_OK &&
     (decide (3 ≤ d.peg.ringA) || decide (3 ≤ d.peg.ringB) || !d.on PEG_STATUS.LANE_A_UP || !d.on PEG_STATUS.LANE_B_UP) then
    ((d.wrB PEG_SYNC_STATUS.RING_OK false).ev PEG_SYNC_EVENT.RING_BREAK).pegMod fun p => { p with ringBoth := 0 }
  else d

/-- It arrives on both for 3 rounds (R272). -/
def ringHeal (d : Dev) : Dev :=
  if d.on PEG_CFG.RING && !d.on PEG_SYNC_STATUS.RING_OK && decide (3 ≤ d.peg.ringBoth) then
    (d.wrB PEG_SYNC_STATUS.RING_OK true).ev PEG_SYNC_EVENT.RING_HEAL
  else d

/-- Publish the deviations of the round and count its outliers (R266). -/
def devShow (d : Dev) : Dev :=
  let d := forN 8 (fun k d =>
    d.wr (PEG_SYNC_DEVk.D k) (match d.peg.dev.find? (fun x => x.1 == k) with | some x => uns 32 x.2 | none => 0x80000000)) d
  let w := d.rd PEG_SYNC_WIN.W
  forN (if d.chain then 0 else (d.peg.dev.filter fun x => decide (w < x.2.natAbs)).length)
    (fun _ d => d.sat PEG_SYNC_OUTLIER.COUNT) d

/-- Start the next round's deviations; those of this one that were no outliers are its predecessors (R267). -/
def devNext (d : Dev) : Dev :=
  let w := d.rd PEG_SYNC_WIN.W
  d.pegMod fun p => { p with prev := p.dev.filter (fun x => decide (x.2.natAbs ≤ w)), dev := [], refs := [], resp := false, firstSrc := none, gotA := false, gotB := false }

/-- An offset correction computed in the CLK of the round event starts in the next (R268). -/
def adjNow (d : Dev) : Dev :=
  if d.frameExt % 16 = 0 ∧ d.now % frMt < 16 then d.hearthMod fun h => { h with adjArmed := true } else d

/-- The end of slot 63 (R267): corrections are computed and applied or judged. -/
def syncRoundCompute (d : Dev) : Dev :=
  if d.pst ≠ 3 then d
  else
    let own := if d.chain then none else (d.syncSlots.findIdx? fun x => x.2 == d.node)
    let d := match own with
      | some k => d.pegMod fun p => { p with dev := p.dev ++ [(k, 0)], refs := if d.isRef then p.refs ++ [k] else p.refs }
      | none => d
    let d := devShow d
    let useRef := !d.chain && d.peg.dev.any fun x => d.peg.refs.contains x.1 && decide (x.2.natAbs ≤ d.rd PEG_SYNC_WIN.W)
    let cur := d.roundVals
    let minV := if d.chain then 1 else d.rd PEG_SYNC_CFG.MIN_VALS
    let lead := d.isRef || d.isFirst
    let resp := d.peg.resp
    let prev := d.peg.prev
    let d := ringRound d
    let vals := cur.map (·.2)
    let d := ((d.wr PEG_SYNC_NVALS.OFF_N 0).wr PEG_SYNC_NVALS.K 0).wr PEG_SYNC_NVALS.RATE_N 0
    let d := d.wr PEG_SYNC_RATE.VALUE (uns 32 d.peg.total)
    let d :=
      if minV ≤ vals.length ∧ vals ≠ [] then
        let d := (d.wr PEG_SYNC_NVALS.OFF_N vals.length).wr PEG_SYNC_NVALS.K (ftaK vals.length (useRef || d.chain))
        let off := fta vals (useRef || d.chain)
        let d := d.wr PEG_SYNC_OFFSET.VALUE (uns 32 (-off))
        if d.rd PEG_SYNC_WIN.W < off.natAbs then pegSyncLost d
        else
          let d := d.pegMod fun p => { p with sentN := vals.length }
          let d := if d.pegSteers then adjNow (hwAdjust true (-off) (some (d.rd PEG_SYNC_CFG.OFF_PPM)) d) else d
          let pairs := cur.filterMap fun x => (prev.find? fun y => y.1 == x.1).map fun y => x.2 - y.2
          let d := rateStep pairs (useRef || d.chain) minV d
          if lead then (if resp then withCorrection d else noCorrection d)
          else (if d.pegSteers then pegReports else id) (withCorrection d)
      else if lead then (if resp then withCorrection d else noCorrection d)
      else noCorrection d
    devNext d

/-- A good SYNC frame of a SYNC slot's owner in SYNC: its deviation (R266, R271). -/
def syncMeasure (b : Bool) (src sd slotStart : Nat) (p : Bytes) (d : Dev) : Dev :=
  match d.syncSlots.findIdx? fun x => x.2 == src with
  | none => d
  | some k =>
    if d.chain then
      if !syncFlag 1 p || d.isFirst then d
      else
        let d := d.pegMod fun q => if b then { q with gotB := true } else { q with gotA := true }
        let old := d.peg.firstSrc
        let d := d.evIf (old.isSome && old != some src) PEG_SYNC_EVENT.FIRST_CONFLICT
        let lower := match old with | none => true | some o => decide (src < o)
        let d := if lower then d.pegMod fun q => { q with firstSrc := some src, dev := [] } else d
        match d.dlyFor b src with
        | none => d
        | some dl =>
          if d.peg.firstSrc = some src ∧ (!b ∨ d.peg.dev = []) then
            (d.wrB PEG_SYNC_STATUS.REF_CH b).pegMod fun q => { q with dev := [(k, (sd : Int) - (slotStart + dl : Nat))] }
          else d
    else
      let v : Int := (sd : Int) - (slotStart + 12288 + d.rd PEG_SYNC_BUSDLY.DLY : Nat)
      d.pegMod fun q => { q with
        dev := (q.dev.filter fun x => x.1 != k) ++ [(k, v)]
        refs := if syncFlag 0 p then q.refs ++ [k] else q.refs }

/-! ### Probes and echoes (R269, R270) -/

/-- Link register of a port: 0 P0, 1 P1. -/
def linkMt (p : Nat) : Field := if p = 0 then PEG_LINK_P0.MT else PEG_LINK_P1.MT
def linkOk (p : Nat) : Field := if p = 0 then PEG_LINK_P0.VALID else PEG_LINK_P1.VALID

/-- Port p has 8b/10b sync: lane A is P1, lane B is P0 (R234). -/
def Dev.portUp (d : Dev) (p : Nat) : Bool := if p = 0 then d.on PEG_STATUS.LANE_B_UP else d.on PEG_STATUS.LANE_A_UP

/-- Change port p. -/
def Dev.portMod (d : Dev) (p : Nat) (f : PegPort → PegPort) : Dev := d.pegMod fun q => { q with ports := q.ports.modify p f }

/-- Pegline runs in chain mode and port p has sync: probes and echoes go (R269). -/
def Dev.probes (d : Dev) (p : Nat) : Bool := d.rd PEG_STATUS.RUN != 0 && d.chain && d.portUp p

/-- A probe is sent on port p; an echo still missing is counted (R269). -/
def probeSend (p : Nat) (d : Dev) : Dev :=
  if d.probes p then
    let x := d.peg.ports.getD p {}
    let d := if x.wait then d.sat PEG_ECHO_MISS.COUNT else d
    let s := (x.seq + 1) % 256
    (d.portMod p fun x => { x with seq := s, sentAt := d.nowExt, wait := true }).emit (.probe p s d.node)
  else d

/-- A probe is received on port p with sequence s at time m: answered with an echo (R269); turn is the responder's time, an
idle position having come within 4,096 byte times. -/
def probeReceive (p s m turn : Nat) (d : Dev) : Dev :=
  let d := atMote m d
  if d.probes p && decide (turn ≤ 262144) then
    let opp := p == 1
    -- the delay for the opposite port: P0 receives channel A, P1 channel B
    let down := if d.isFirst then some (d.node, 0)
      else if d.on (dlyOk (!opp)) then some (d.rd (dlyFn (!opp)), d.rd (dlyMt (!opp)) + 768) else none
    d.emit (.echo p s (down.map (·.1)) turn ((down.map (·.2)).getD 0))
  else d

/-- An echo arrives on port p (R270). -/
def echoReceive (p s : Nat) (down : Option (Nat × Nat)) (turn m : Nat) (d : Dev) : Dev :=
  let d := atMote m d
  let x := d.peg.ports.getD p {}
  if d.probes p && x.wait && x.seq == s then
    let rtt : Int := (((d.nowExt / 8 * 8 : Nat) : Int) - (x.sentAt / 8 * 8 : Nat)) - turn
    let rtts := ((rtt :: x.rtts).take 8)
    let link := ((rtts.foldl (· + ·) 0).tdiv rtts.length).tdiv 2
    let d := d.portMod p fun x => { x with wait := false, rtts := rtts }
    let d := (d.wr (linkMt p) (uns 24 link)).wrB (linkOk p) true
    let b := p == 1
    match down with
    | some (fn, dn) => ((d.wr (dlyMt b) (uns 24 ((dn : Int) + link))).wr (dlyFn b) fn).wrB (dlyOk b) true
    | none => d.wrB (dlyOk b) false
  else d

/-- A chain lane loses 8b/10b sync: lane A (P1) or B (P0). -/
def laneLost (b : Bool) (d : Dev) : Dev :=
  let d := d.wrB (if b then PEG_STATUS.LANE_B_UP else PEG_STATUS.LANE_A_UP) false
  let p := if b then 0 else 1
  (d.wrB (linkOk p) false).portMod p fun x => { x with rtts := [], wait := false }

/-- A chain lane gains 8b/10b sync: probing begins on its port. -/
def laneGained (b : Bool) (d : Dev) : Dev :=
  if d.on RAT_DOM_STATUS.PEG_LANES_ON then d.wrB (if b then PEG_STATUS.LANE_B_UP else PEG_STATUS.LANE_A_UP) true else d

end Sys2Proof.Machine
end

