-- ==== Sys2Proof/Machine/IngressOps.lean ====
section
/-!
DEFINITION. Machine/IngressOps.lean: reception, destinations, FOLLOW and delivery
(spec/07 R155, R159 to R163, R169, R171, R172, R176; spec/08 R180, R185; spec/05 R119, R125; spec/10 R226, R227; spec/11 R246).
-/

namespace Sys2Proof.Machine

/-! ### Copies (R185) -/

/-- Channel n is fenced, or its fence is in progress. -/
def Dev.shut (d : Dev) (n : Nat) : Bool := d.fenced n || (d.ch n).fencing

/-- A copy for channel n would be queued. -/
def Dev.copyOk (d : Dev) (n : Nat) (x : Frm) : Bool :=
  decide (x.data.length ≤ d.rd (CHn_MAX_LEN.MAX n)) && !d.shut n && (d.chRun n == 1 || d.chRun n == 2)

/-- Steer a copy for fenced channel n under FOLLOW: the channel that takes it, if any, and the counts (R185). -/
def steer (n : Nat) (q : Decision) (d : Dev) : Option Nat × Dev :=
  if q.follow && d.fenced n && !(d.ch n).fencing then
    if d.shut q.partner || bit q.mask q.partner then (none, (d.sat CLS_FOLLOW_DROP.COUNT).ev CLS_EVENT.FOLLOW_DROP)
    else (some q.partner, (d.sat CLS_FOLLOW_CNT.COUNT).ev CLS_EVENT.FOLLOW_STEER)
  else (some n, d)

/-- The channels that take a copy, after steering; the copies dropped by FOLLOW take none. -/
def steerAll (q : Decision) (d : Dev) : List Nat × Dev :=
  [0, 1, 2, 3].foldl (fun (ns, d) n =>
    if bit q.mask n then
      match steer n q d with
      | (some k, d) => (ns ++ [k], d)
      | (none, d) => (ns, d)
    else (ns, d)) ([], d)

/-- A frame leaves with no copy queued anywhere: its host descriptors return DROPPED. -/
def dropWhole (x : Frm) (d : Dev) : Dev := leave false x (hostReturn 0 4 none x d)

/-- One copy on each channel of the decision (R185). Copies that can be queued are queued first, so that the descriptors
of a host frame return only when no copy is left. -/
def routeMask (x : Frm) (d : Dev) : Dev :=
  let (ns, d) := steerAll x.dec d
  if ns.isEmpty then dropWhole x d
  else
    let good := ns.filter fun n => d.copyOk n x
    let bad := ns.filter fun n => !d.copyOk n x
    bad.foldl (fun d n => enqueue n x d) (good.foldl (fun d n => enqueue n x d) d)

/-! ### Pegline flows (R246) -/

/-- The operational bank has a slot of this device that carries flow f: its STATIC slots and the spare slots it owns. -/
def Dev.flowOwned (d : Dev) (f : Nat) : Bool :=
  (List.range 64).any fun s =>
    let e := d.opSlot s
    let spare := bits (d.word (PEG_SPARE_OWNk.addr (s / 4))) (8 * (s % 4)) 8
    e.paths != 0 && e.flow == f && !e.voice &&
      ((e.type == 0 && e.owner == d.node) || (e.type == 1 && bit spare 7 && spare % 32 == d.node))

/-- A flow exists for a classifier entry (R181): the operational schedule gives this device a slot of it; before a schedule
is in force, the bank that the boot will put in force does. -/
def Dev.flowOk (d : Dev) (f : Nat) : Bool :=
  if d.peg.oper.isSome then d.flowOwned f
  else (List.range 64).any fun s =>
    let e := d.slotEnt (d.rd PEG_SCHED_CTRL.BOOT_BANK) s
    e.paths != 0 && e.flow == f && !e.voice && e.type == 0 && e.owner == d.node

/-- Pegline is STARTING or ON. -/
def Dev.pegRun (d : Dev) : Bool := d.rd PEG_STATUS.RUN == 1 || d.rd PEG_STATUS.RUN == 2

/-- A frame dropped for its flow (R246). -/
def flowDrop (x : Frm) (d : Dev) : Dev := dropWhole x ((d.sat PEG_FLOW_DROP.COUNT).ev PEG_EVENT.FLOW_DROP)

/-- A frame joins flow f (R246). -/
def flowQueue (f : Nat) (x : Frm) (d : Dev) : Dev :=
  let n := (d.peg.flowq.filter fun y => y.1 == f).length
  if d.pegRun && d.flowOwned f && decide (n < d.rd PEG_FLOW_CFG.QLIM) && decide (x.data.length ≤ d.rd PEG_FLOW_CFG.MAX_LEN) then
    flowUpdate (pmemSync (d.pegMod fun p => { p with flowq := p.flowq ++ [(f, x)] }))
  else flowDrop x d

/-! ### Host delivery (R119, R125, R185) -/

/-- What becomes of a frame for queue pair q of function f. -/
inductive HostFate where
  | ring (r : Nat)
  | kennel
  | d3
  | bad
  deriving DecidableEq, Repr

/-- The fate of a frame of decision q. -/
def Dev.hostFate (d : Dev) (q : Decision) : HostFate :=
  match d.fnState q.fn with
  | 2 => .kennel
  | 1 =>
    match d.ringOf q.fn 1 q.qp with
    | some r => if (d.ring r).st ≠ 2 then .bad else if (d.fn q.fn).d3 then .d3 else .ring r
    | none => .bad
  | _ => .bad

/-- Strip the FCS of a frame that goes to a host ring from channel n (R161). -/
def Dev.hostData (d : Dev) (x : Frm) : Bytes :=
  if x.src < 4 ∧ (d.ch x.src).strip then x.data.take (x.data.length - 4) else x.data

/-! ### Receive (Table 7.2) -/

/-- An id for a new frame. -/
def newId (d : Dev) : Nat × Dev := (d.host.nextId, d.hostMod fun h => { h with nextId := h.nextId + 1 })

/-- A frame of decision q and n cells is guaranteed (R226): a copy is in a latched guaranteed class, it is a Pegline
payload, or it is host-bound within the DMA credit. -/
def Dev.isGuar (d : Dev) (q : Decision) (cells : Nat) : Bool :=
  match q.kind with
  | 0 => (List.range 4).any fun n => bit q.mask n && d.guar n q.tc
  | 1 => decide (8 * cells ≤ d.pm.dmaLeft)
  | 3 => true
  | _ => false

/-- The ingress write of a host-bound frame is DMA work (R226). -/
def useCredit (q : Decision) (cells : Nat) (d : Dev) : Dev := if q.kind = 1 then dmaWork cells d else d

/-- A received frame that goes no further: the VF event of Table 7.5 where it was bound for a ring. -/
def rxBad (q : Decision) (vf : Bool) (d : Dev) : Dev := if vf && q.kind == 1 then vfEvent q.fn 0 d else d

/-- A counter of a receiving channel; the part counts nothing for Pegline here. -/
def rxStat (src i k : Nat) (d : Dev) : Dev := if src < 4 then stat src i k d else d

/-- Frames and octets received (Table 7.4). -/
def rxCount (src : Nat) (data : Bytes) (d : Dev) : Dev :=
  rxStat src (2 + dmacKind data) 1 (rxStat src 1 data.length (rxStat src 0 1 d))

/-- A frame that passed checks 1 to 7 from source src (0 to 3 a channel, 4 Pegline), with the decision of its lookup: FRE, checks 8
to 10, then its destination (R159, R185, R202). `slot` is its Pegline slot and round; `held` the cells it holds already, none
where one was missing (R160); `late` tells whether it overflowed the ingress buffer (R227). -/
def ingressWith (q : Decision) (src : Nat) (slot : Option (Nat × Nat)) (ts : Nat) (tsOk : Bool) (held : Option (List Nat))
    (late : Bool) (data : Bytes) (d : Dev) : Dev :=
  let (o, d) := freDecide src slot q data d
  let n := cellsFor data.length
  match held.bind fun cs => d.allocMore cs data.length with
  | none => rxBad q true (rxStat src 15 1 d)
  | some cells =>
    let guar := d.isGuar q n
    if !guar && (late || d.beFull n) then rxBad q true ((rxStat src 16 1 d).ev PMC_EVENT.BE_DROP)
    else
      let (id, d) := newId d
      let x : Frm := { id := id, data := o.data, src := src, tc := q.tc, dec := { q with sgen := o.sgen }, cells := cells,
                       guar := guar, ts := ts, tsOk := tsOk }
      let d := useCredit q n (writeCells cells d)
      match q.kind with
      | 2 => rxStat src 17 1 d
      | 1 =>
        match d.hostFate q with
        | .bad => rxBad q true (((rxStat src 17 1 d).sat CLS_HOST_BAD.COUNT).ev CLS_EVENT.HOST_BAD)
        | .kennel => (rxCount src data d).sat HIF_KENNEL_DROP.FRAMES
        | .d3 => rxBad q true (rxCount src data d)
        | .ring r =>
          let d := rxCount src data d
          if o.pass then flowUpdate (rxQueue r { x with data := (d.hostData x) } d) else d
      | k =>
        let d := rxCount src data d
        if !o.pass then d else if k = 3 then flowQueue q.flow x d else routeMask x d

/-- A whole frame from source src: its lookup, and what follows (R180). -/
def ingress (src : Nat) (slot : Option (Nat × Nat)) (ts : Nat) (tsOk : Bool) (data : Bytes) (d : Dev) : Dev :=
  let (q, d) := lookup src data d
  ingressWith q src slot ts tsOk (some []) false data d

/-- A MAC Control frame whose last byte comes at the era-extended time t (R161, R166). -/
def macControl (n t : Nat) (data : Bytes) (d : Dev) : Dev :=
  match beAt data 14 2 with
  | 1 => pauseAt n (beAt data 16 2) t d
  | 0x101 => pfcAt n (beAt data 16 2 % 256) ((List.range 8).map fun k => beAt data (18 + 2 * k) 2) t d
  | _ => stat n 8 1 d

/-- The bytes that filter f selects, if the frame holds them all (R171). -/
def Dev.wakeBytes (d : Dev) (f : Nat) (data : Bytes) : Option Bytes :=
  let off := d.rd (CHn_WAKE_f_CFG.OFFSET 0 f)
  let sel := (List.range 128).filter fun j => bit (d.rd (CHn_WAKE_f_MASKk.MASK 0 f (j / 32))) (j % 32)
  if sel.isEmpty || sel.any (fun j => decide (data.length ≤ off + j)) then none
  else some (sel.map fun j => (data.drop (off + j)).headD 0)

/-- Some wake filter of CH0 matches (R171). -/
def Dev.wakeMatch (d : Dev) (data : Bytes) : Bool :=
  (List.range 4).any fun f =>
    d.bitOf (CHn_WAKE_CFG.EN 0) f &&
      (match d.wakeBytes f data with
       | some bs => crc16 bs == d.rd (CHn_WAKE_f_CFG.CHECK 0 f)
       | none => false)

/-- The FCS of a frame is good. -/
def fcsOk (data : Bytes) : Bool :=
  data.drop (data.length - 4) == leBytes 4 (crc32 (data.take (data.length - 4)))

/-- The count of MATCHES. -/
def countMatch (d : Dev) : Dev := d.wrap (CHn_WAKE_CFG.MATCHES 0)

/-- A frame in BIVOUAC-LISTEN that passed checks 1 and 2 matches a wake filter (R171, R172). -/
def Dev.patternHit (d : Dev) (data : Bytes) : Bool :=
  d.tier == 4 && decide (64 ≤ data.length ∧ data.length ≤ d.rd (CHn_MAX_LEN.MAX 0)) && fcsOk data && d.wakeMatch data

/-- A match in another tier is reported when REPORT is 1 (R172). -/
def wakeReport (n : Nat) (data : Bytes) (d : Dev) : Dev :=
  if n = 0 ∧ d.wakeMatch data then (countMatch d).evIf (d.on (CHn_WAKE_CFG.REPORT 0)) (CHn_EVENT.WAKE_MATCH 0) else d

/-- The era-extended time at which the last of l bytes after a delimiter at t has come, at the lane's rate. -/
def Dev.endOf (d : Dev) (n t l : Nat) : Nat :=
  let rb := rateBytes (d.rd (CHn_STATUS.RATE_NOW n))
  t + (l * 1048576 + rb - 1) / rb

/-- The receive stamp of a delimiter at the era-extended time t, corrected to the ball (R163). -/
def Dev.rxStamp (d : Dev) (n t : Nat) : Nat := uns 68 ((t : Int) - d.latRx n)

/-- Checks 3 to 10 on a whole frame, which the lifeline bridge takes before check 8 (Table 7.2, R326): its decision, the time of
the delimiter of its last part, its stamp and the stamp's validity, the cells it holds. -/
def rxWhole (n t ts : Nat) (tsOk pmac late : Bool) (held : Option (List Nat)) (q : Decision) (data : Bytes) (d : Dev) : Dev :=
  let good := fcsOk data
  let l := data.length
  if l < 64 then stat n (if good then 9 else 10) 1 d
  else if d.rd (CHn_MAX_LEN.MAX n) < l then stat n (if good then 11 else 12) 1 d
  else if !good then stat n 13 1 d
  else
    let d := wakeReport n data (if pmac then stat n 18 1 d else d)
    if beAt data 12 2 = 0x8808 then macControl n t data d
    else match (if n = 0 then d.llbMatch data else none) with
      | some c => llbTake c data (rxCount n data d)
      | none => ingressWith q n none ts tsOk held late data d

/-- Store what has come of the frame in reassembly. Its lookup is issued with its 128th byte (R180); from its 65th byte it holds
cells, up to MAX_LEN and as long as there are any (R160). -/
def asmStore (n : Nat) (a : Asm) (d : Dev) : Dev :=
  let (dec, d) := match a.dec with
    | some q => (some q, d)
    | none => if 128 ≤ a.data.length then (match lookup n a.data d with | (q, d) => (some q, d)) else (none, d)
  let l := a.data.length
  let a := { a with dec := dec }
  let (a, d) := if l ≤ 64 ∨ a.ovf then (a, d)
    else if d.rd (CHn_MAX_LEN.MAX n) < l then ({ a with cells := [] }, d)
    else match d.allocMore a.cells l with
      | some cs => ({ a with cells := cs }, writeCells (cs.drop a.cells.length) d)
      | none => ({ a with cells := [], ovf := true }, d)
  pmemSync (d.chMod n fun c => { c with asm := some a })

/-- Bytes join the frame in reassembly, or complete it. -/
def asmTake (n t : Nat) (late : Bool) (a : Asm) (more : Bool) (d : Dev) : Dev :=
  if more then asmStore n a d
  else
    let (q, d) := match a.dec with
      | some q => (q, d)
      | none => lookup n a.data d
    pmemSync <| rxWhole n t a.ts a.tsOk true late (if a.ovf then none else some a.cells) q a.data
      (d.chMod n fun c => { c with asm := none })

/-- The first mPacket of a frame, or a whole one. -/
def frameStarts : MPkt → Bool
  | .express => true
  | .start .. => true
  | _ => false

/-- The rest of an mPacket sequence that has been counted is passed over, if more of it is to come (R159). -/
def passOver (n : Nat) (frame : Fin 4) (more : Bool) (d : Dev) : Dev :=
  d.chMod n fun c => { c with asmSkip := if more then some frame else none }

/-- Check 1 fails on a frame or mPacket: counted once for its sequence, and the frame that it continues is dropped. -/
def pcsBad (n : Nat) (mp : MPkt) (d : Dev) : Dev :=
  match mp with
  | .start frame more _ => passOver n frame more (stat n 14 1 (asmDiscard n d))
  | .cont frame _ more _ =>
    if (d.ch n).asmSkip = some frame then passOver n frame more d
    else pmemSync (passOver n frame more (stat n 14 1 (d.chMod n fun c => { c with asm := none })))
  | _ => stat n 14 1 d

/-- Checks 2 to 10 of a frame or mPacket whose delimiter came at the era-extended time t (Table 7.2, R169). -/
def rxChecked (n t : Nat) (tsOk late : Bool) (mp : MPkt) (bs : Bytes) (d : Dev) : Dev :=
  let ts := d.rxStamp n t
  let fin := d.endOf n t bs.length
  let pm := d.on (CHn_PREEMPT_CFG.EN n)
  match mp with
  | .express =>
    let (q, d) := lookup n bs d
    rxWhole n fin ts tsOk false late (some []) q bs d
  | .other => stat n 20 1 d
  | .start frame more crcOk =>
    if !pm then stat n 20 1 d
    else
      let d := passOver n frame false (asmDiscard n d)
      if more && !crcOk then passOver n frame true (stat n 19 1 d)
      else asmTake n fin late { frame := frame, data := bs, ts := ts, tsOk := tsOk } more d
  | .cont frame frag more crcOk =>
    if !pm then stat n 20 1 d
    else
      let d := stat n 21 1 d
      if (d.ch n).asmSkip = some frame then passOver n frame more d
      else match (d.ch n).asm with
        | none => passOver n frame more (stat n 19 1 d)
        | some a =>
          if a.frame ≠ frame ∨ a.frag ≠ frag ∨ (more && !crcOk) then passOver n frame more (asmDiscard n d)
          else asmTake n fin late { a with frag := a.frag + 1, data := a.data ++ bs } more d

/-- A frame or mPacket reaches the receiver of channel n, its delimiter at the era-extended time t (Table 7.2). A fenced channel
discards it (R381); one that comes during a recalibration fails check 1 (R230). -/
def rxTake (n t : Nat) (tsOk : Bool) (mp : MPkt) (pcs : Pcs) (bs : Bytes) (d : Dev) : Dev :=
  if !d.rxLive n then d
  else if d.fenced n then d.when (frameStarts mp) fun d => d.sat (SHD_FENCE_RPTn_RX.RX_DROPS n)
  else
    let d := if pcs.blocks = 0 then d else stat n 45 pcs.blocks d
    let d := if (d.ch n).fecNow = 0 then d else stat n 47 pcs.uncorr (stat n 46 pcs.corr d)
    if !pcs.ok || (d.ch n).recal then pcsBad n mp d else rxChecked n t tsOk pcs.ovf mp bs d

/-- RX_FRAME: from the line, its SFD or SMD at mote m. -/
def rxFrame (n m : Nat) (mp : MPkt) (pcs : Pcs) (bs : Bytes) (d : Dev) : Dev :=
  let d := atMote m d
  if d.lineIn n then rxTake n d.nowExt d.valid mp pcs bs d else d

/-- VERIFY_RX and RESPOND_RX, from the line. -/
def markRx (n : Nat) (respond : Bool) (d : Dev) : Dev :=
  if !d.hears n then d else if respond then respondRx n d else verifyRx n d

/-- With LOOP = 1 what a channel has sent comes back to its own receiver (R155). -/
def loopBack (d : Dev) : Dev :=
  d.outs.foldl (fun d o =>
    match o with
    | .looped n p t bs => rxTake n t d.valid p {} bs d
    | .loopedMark n r => if d.fenced n || !d.rxLive n then d else if r then respondRx n d else verifyRx n d
    | _ => d) d

end Sys2Proof.Machine
end

