-- ==== Sys2Proof/Machine/PegOps.lean ====
section
/-!
DEFINITION. Machine/PegOps.lean: Pegline slots, schedule, flows, voice, messages and spare slots
(spec/11_pegline_rounds_slots_and_messages.md, R235 to R256; spec/12 R259 to R265).
-/

namespace Sys2Proof.Machine

/-! ### Slots in time (R236) -/

/-- Era-extended start of the slot in progress. -/
def Dev.slotStart (d : Dev) : Nat := d.peg.round * frMt + d.peg.slot * 262144

/-- Round index of the slot in progress. -/
def Dev.roundIx (d : Dev) : Nat := d.peg.round / 16

/-- Spare ownership byte of slot s. -/
def Dev.spareByte (d : Dev) (s : Nat) : Nat := bits (d.rd (PEG_SPARE_OWNk.OWN (s / 4))) (8 * (s % 4)) 8

/-- The owner of spare slot s (R253). -/
def Dev.spareOwner (d : Dev) (s : Nat) : Option Nat :=
  let b := d.spareByte s
  if bit b 7 then some (b % 32) else none

/-- Set or clear the owner of spare slot s; a change raises SPARE_CHG. -/
def setSpare (s : Nat) (o : Option Nat) (d : Dev) : Dev :=
  let f := PEG_SPARE_OWNk.OWN (s / 4)
  let b := match o with | some n => 128 + n | none => 0
  let chg := d.spareOwner s != o
  (d.wr f (setBits (d.rd f) (8 * (s % 4)) 8 b)).evIf chg PEG_EVENT.SPARE_CHG

/-- The node that the schedule expects to send in slot s. -/
def Dev.slotOwner (d : Dev) (s : Nat) : Option Nat :=
  let e := d.opSlot s
  if e.paths = 0 then none else if e.type = 1 then d.spareOwner s else some e.owner

/-- Header word 0 (Table 11.3). -/
def Dev.header (d : Dev) (kind : Nat) (cs : Bool) : Nat :=
  kind * 2 ^ 30 + d.node * 2 ^ 25 + d.peg.slot * 2 ^ 19 + d.roundIx % 16 * 2 ^ 15 + (if cs then 2 ^ 14 else 0)

/-- A slot frame from header to check word (R237 to R240); `bad` inverts the check word (R218). -/
def Dev.slotFrame (d : Dev) (kind : Nat) (cs bad : Bool) (payload : Bytes) : Bytes :=
  let h := beBytes 4 (d.header kind cs) ++ (if d.chain then beBytes 4 (payload.length * 2 ^ 20) else [])
  let b := h ++ payload
  let c := crc32 b
  b ++ beBytes 4 (if bad then c ^^^ 0xFFFFFFFF else c)

/-- Manchester levels of bytes, most significant bit first: 0 is high then low, 1 low then high (R234). -/
def manchester (bs : Bytes) : List Bool :=
  bs.flatMap fun b => (List.range 8).flatMap fun i => let x := b.getLsbD (7 - i); [!x, x]

/-- A frame, header to check word, on the line: on a bus behind preamble 0x55 and start delimiter 0x9C (Table 11.2), in a chain
between K27.7 and K29.7 (R238). -/
def Dev.lineOf (d : Dev) (bs : Bytes) : PegLine :=
  if d.chain then .groups ([(true, 0xFB#8)] ++ bs.map (fun b => (false, b)) ++ [(true, 0xFD#8)])
  else .levels (manchester ([0x55, 0x9C] ++ bs))

/-- The action point of the slot in progress (R236). -/
def Dev.actionPoint (d : Dev) : Nat := d.slotStart + (if d.chain then 0 else 12288)

/-- Send one copy on a channel. -/
def sendCopy (chB : Bool) (bs : Bytes) (d : Dev) : Dev :=
  (d.sat PEG_TX_FRAMES.COUNT).emit (.peg chB d.actionPoint (d.lineOf bs))

/-- Send copies on the channels of PATHS; what this node sends counts as a good frame of the slot (R255). -/
def sendPaths (paths : Nat) (a b : Bytes) (d : Dev) : Dev :=
  let d := if bit paths 0 then sendCopy false a d else d
  let d := if bit paths 1 then sendCopy true b d else d
  d.pegMod fun p => { p with sending := true, silent := p.silent.set p.slot 0 }

/-! ### Data segments (R246) -/

/-- Bytes of the head frame of flow f already sent. -/
def Dev.flowOff (d : Dev) (f : Nat) : Nat := ((d.peg.segOff.find? fun x => x.1 == f).map (·.2)).getD 0

/-- Set them. -/
def setFlowOff (f n : Nat) (d : Dev) : Dev :=
  d.pegMod fun p => { p with segOff := (p.segOff.filter fun x => x.1 != f) ++ (if n = 0 then [] else [(f, n)]) }

/-- Fill what is left of a payload with segments of flow f: bytes, and whether a poisoned frame is among them. -/
def fillData : Nat → Nat → Nat → Dev → Bytes × Bool × Dev
  | 0, room, _, d => (List.replicate room 0, false, d)
  | fuel + 1, room, f, d =>
    if room < 3 then (List.replicate room 0, false, d)
    else
      match d.peg.flowq.find? (fun x => x.1 == f) with
      | none => (List.replicate room 0, false, d)
      | some y =>
        let x := y.2
        let body := x.data.take (x.data.length - 4)
        let off := d.flowOff f
        let n := min (room - 2) (body.length - off)
        let last := off + n == body.length
        let part := { x with cells := (x.cells.drop (off / 256)).take ((off + n + 255) / 256 - off / 256) }
        let d := readFrm part d
        let bad := d.poisoned part
        let d := d.when bad (eccDrop x)
        let seg := beBytes 2 ((if off = 0 then 0x8000 else 0) + (if last then 0x4000 else 0) + n) ++ slice body off n
        let d := if last then
            leave true x (hostReturn 0 0 none x (setFlowOff f 0 (d.pegMod fun p => { p with flowq := p.flowq.erase y })))
          else setFlowOff f (off + n) d
        let (rest, bad', d) := fillData fuel (room - 2 - n) f d
        (seg ++ rest, bad || bad', d)

/-- The payload of a DATA slot (R246). -/
def dataPayload (e : SlotEnt) (d : Dev) : Bytes × Bool × Dev := fillData (e.payload + 1) e.payload e.flow d

/-! ### Voice (R248) -/

/-- The silence code of the law of SAP_VOICE_LAW. -/
def Dev.silence (d : Dev) : Byte := if d.sap.law then 0xFF#8 else 0xD5#8

/-- The 16 samples of the last round of Pegline voice channel c. -/
def Dev.voiceOut (d : Dev) (c : Nat) : Bytes :=
  ((d.peg.vSend.find? fun x => x.1 == c).map (·.2)).getD (List.replicate 16 d.silence)

/-- The payload of a voice slot. -/
def voicePayload (e : SlotEnt) (d : Dev) : Bytes :=
  let v := (List.range e.vcnt).flatMap fun c => d.voiceOut (e.vbase + c)
  v ++ List.replicate (e.payload - v.length) 0

/-- The round event turns the voice buffers over. -/
def voiceRound (d : Dev) : Dev :=
  d.pegMod fun p => { p with vSend := p.vTake, vTake := [], vPlay := p.vNext, vNext := [] }

/-- Samples of channel c, for the round after that of the slot in progress: a copy may end within W after its round (R241). -/
def voiceIn (c : Nat) (xs : List (Option Byte)) (d : Dev) : Dev :=
  let put (vs : List (Nat × List (Option Byte))) := (vs.filter fun x => x.1 != c) ++ [(c, xs)]
  d.pegMod fun p => if p.round / 16 < d.frameExt / 16 then { p with vPlay := put p.vPlay } else { p with vNext := put p.vNext }

/-! ### Messages sent (R249, R250) -/

/-- Entries of an ack block. -/
def Dev.ackSlots (d : Dev) : Nat := if d.chain then 8 else 2

/-- The ack block of the next MSG slot; the nodes it names are cleared. -/
def ackBlock (d : Dev) : Bytes × Dev :=
  let n := d.ackSlots
  let ns := d.peg.ackDue.take n
  let one (k : Nat) : Bytes := beBytes 2 (0x8000 + k * 2 ^ 10 + ((d.peg.lastRx.getD k none).getD 0) * 4)
  (ns.flatMap one ++ List.replicate (2 * (n - ns.length)) 0, d.pegMod fun p => { p with ackDue := p.ackDue.drop n })

/-- A TX descriptor whose payload is whole and that is not yet a message. -/
def Dev.msgReady (d : Dev) (r : Nat) : Option (Nat × Desc) :=
  let x := d.ring r
  if 2 ≤ x.st ∧ !x.dir then
    let idx := (List.range x.taken.length).zip x.taken
    match idx.find? fun (i, y) => !y.done && !(d.peg.msgs.any fun m => m.ring == r && m.cnt == (x.cons + i) % 65536) with
    | some (i, y) => if y.begun && y.need == 0 then some ((x.cons + i) % 65536, y) else none
    | none => none
  else none

/-- The bytes of a descriptor's payload. -/
def Desc.payload (y : Desc) : Bytes :=
  ((List.range (y.got.length)).foldl (fun (acc : Bytes × Nat) _ =>
    match y.got.find? (fun g => g.1 == acc.2) with
    | some g => (acc.1 ++ g.2, acc.2 + g.2.length)
    | none => acc) ([], 0)).1

/-- Message rings in round-robin order after the one last served. -/
def Dev.msgOrder (d : Dev) : List Nat :=
  let rs := (List.range 16).map (· + 400)
  rs.filter (fun r => d.peg.rrRing < r) ++ rs.filter (fun r => r ≤ d.peg.rrRing)

/-- Take the next message, if a ring has one whose destination has fewer than 32 unacknowledged (R250). -/
def takeMsg (d : Dev) : Dev :=
  match d.msgOrder.findSome? fun r =>
      match d.msgReady r with
      | some (c, y) =>
        let dest := bits (y.dw 2) 16 5
        if (d.peg.msgs.filter fun m => m.dest == dest).length < 32 then some (r, c, y, dest) else none
      | none => none with
  | none => d
  | some (r, c, y, dest) =>
    let seq := d.peg.nextSeq.getD dest 0
    let m : PegMsg := { ring := r, cnt := c, dest := dest, path := bits (y.dw 2) 21 2, data := y.payload, seq := seq,
                        syn := d.peg.synDue.getD dest true }
    d.pegMod fun p => { p with msgs := p.msgs ++ [m], nextSeq := p.nextSeq.set dest ((seq + 1) % 256),
                               synDue := p.synDue.set dest false, rrRing := r }

/-- The next message to send a segment of: the one partly sent, else the oldest that may begin. -/
def Dev.msgNext (d : Dev) : Option Nat :=
  match d.peg.msgs.findIdx? fun m => m.sent.isNone && m.off != 0 with
  | some i => some i
  | none => d.peg.msgs.findIdx? fun m => m.sent.isNone && decide (m.after ≤ d.roundIx)

/-- Fill what is left of an MSG payload with segments: the bytes of copy A and of copy B. A repeat is counted as it begins
(R250). -/
def fillMsg : Nat → Nat → Nat → Dev → Bytes × Bytes × Dev
  | 0, room, _, d => (List.replicate room 0, List.replicate room 0, d)
  | fuel + 1, room, paths, d =>
    let pad := List.replicate room (0 : Byte)
    if room < 5 then (pad, pad, d)
    else
      let d := if d.msgNext.isSome then d else takeMsg d
      match d.msgNext with
      | none => (pad, pad, d)
      | some i =>
        let m := d.peg.msgs.getD i {}
        let n := min (room - 4) (m.data.length - m.off)
        let last := m.off + n == m.data.length
        let h := m.dest * 2 ^ 27 + m.seq * 2 ^ 19 + (if m.off = 0 then 2 ^ 18 else 0) + (if last then 2 ^ 17 else 0) +
          (if m.syn then 2 ^ 16 else 0) + n
        let seg := beBytes 4 h ++ slice m.data m.off n
        let hole := List.replicate seg.length (0 : Byte)
        let m' := { m with off := m.off + n, txs := if m.off = 0 then m.txs + 1 else m.txs,
                           sent := if last then some d.roundIx else none }
        let d := d.pegMod fun p => { p with msgs := p.msgs.set i m' }
        let d := d.when (m.off == 0 && m.reps != 0) (·.sat PEG_MSG_RETX.COUNT)
        let (a, b, d) := fillMsg fuel (room - seg.length) paths d
        let both := paths &&& m.path
        ((if bit both 0 then seg else hole) ++ a, (if bit both 1 then seg else hole) ++ b, d)

/-- Return the descriptor of a message (Table 6.7). -/
def msgReturn (status t : Nat) (m : PegMsg) (d : Dev) : Dev :=
  let x := d.ring m.ring
  let o := (m.cnt + 65536 - x.cons) % 65536
  let w6 := status + m.seq * 2 ^ 4 + min m.txs 15 * 2 ^ 12
  let taken := x.taken.modify o fun y =>
    { y with w := [y.dw 0, y.dw 1, y.dw 2, y.dw 3, t % 2 ^ 32, t / 2 ^ 32 % 2 ^ 32, w6, y.dw 7], begun := true, done := true }
  ringQuiesce m.ring (retire m.ring (d.setRing m.ring { x with taken := taken }))

/-- Return the messages that keep p with NO_ACK (R245, R250, R256): the next to their destinations carries SYN. -/
def msgNoAck (p : PegMsg → Bool) (d : Dev) : Dev :=
  let gone := d.peg.msgs.filter p
  let d := d.pegMod fun q => { q with msgs := q.msgs.filter fun m => !p m }
  gone.foldl (fun d m => msgReturn 9 0 m (d.pegMod fun q => { q with synDue := q.synDue.set m.dest true })) d

/-- Give up the messages that keep p (R250): they are counted. -/
def msgGiveUp (p : PegMsg → Bool) (d : Dev) : Dev :=
  let n := (d.peg.msgs.filter p).length
  if n = 0 then d else ((msgNoAck p d).sat PEG_MSG_NOACK.COUNT n).ev PEG_EVENT.MSG_NOACK

/-- An ack entry with SEQ a from node n (R250). -/
def msgAcked (n a : Nat) (d : Dev) : Dev :=
  let hit (m : PegMsg) : Bool := m.dest == n && decide ((a + 256 - m.seq) % 256 < 32)
  let gone := d.peg.msgs.filter hit
  let d := d.pegMod fun q => { q with msgs := q.msgs.filter fun m => !hit m }
  gone.foldl (fun d m => msgReturn 0 d.now m d) d

/-- The ack timer of a destination expires (R250): repeats begin in a round after the ACK_RND rounds (Worked example 11.2). -/
def msgAckTimeout (dest : Nat) (d : Dev) : Dev :=
  let due (m : PegMsg) : Bool := m.dest == dest && (match m.sent with
    | some r => decide (r + d.rd PEG_MSG_CFG.ACK_RND ≤ d.frameExt / 16)
    | none => false)
  if d.pst != 3 || !(d.peg.msgs.any due) then d
  else
    let mine := d.peg.msgs.filter fun m => m.dest == dest
    if d.rd PEG_MSG_CFG.RETRIES ≤ (mine.headD {}).reps then msgGiveUp (fun m => m.dest == dest) d
    else
      let begun (m : PegMsg) : Bool := m.dest == dest && (m.sent.isSome || m.off != 0)
      let first := ((mine.filterMap (·.sent)).headD 0) + d.rd PEG_MSG_CFG.ACK_RND + 1
      let again (m : PegMsg) : PegMsg :=
        if begun m then { m with off := 0, sent := none, reps := m.reps + 1, after := first } else m
      d.pegMod fun p => { p with msgs := p.msgs.map again }

/-! ### Messages received (R251, R252) -/

/-- The ring that takes messages of node n (R252). -/
def Dev.msgRing (d : Dev) (n : Nat) : Nat := 400 + bits (d.rd (PEG_MSG_ROUTEk.RING (n / 8))) (4 * (n % 8)) 4

/-- The ring takes messages now: routed, ON, RX, its function ACTIVE in D0. -/
def Dev.msgTakes (d : Dev) (n : Nat) : Bool :=
  let r := d.msgRing n
  let x := d.ring r
  d.bitOf PEG_MSG_ROUTE_EN.EN n && x.st == 2 && x.dir &&
    (match d.ringFn r with | some f => d.fnState f == 1 && !(d.fn f).d3 | none => false)

/-- The ring has a descriptor that is not begun. -/
def Dev.ringFree (d : Dev) (r : Nat) : Option Nat := (d.ring r).taken.findIdx? fun y => !y.begun

/-- A message that is not taken (R252, R125). -/
def msgRefuse (n : Nat) (d : Dev) : Dev :=
  let d := d.sat PEG_MSG_REJ.COUNT
  match d.ringFn (d.msgRing n) with
  | some f => if d.fnState f == 1 && (d.fn f).d3 then vfEvent f 0 d else d
  | none => d

/-- An acknowledgement falls due for node n. -/
def ackLater (n : Nat) (d : Dev) : Dev :=
  d.pegMod fun p => { p with ackDue := if p.ackDue.contains n then p.ackDue else p.ackDue ++ [n] }

/-- The message at the head of message ring r starts its measure where it finds no descriptor (R141, R146). -/
def msgHead (r : Nat) (d : Dev) : Dev :=
  match d.peg.inbox.find? (fun y => y.ring == r && !y.wrote) with
  | some y =>
    if y.stall.isNone && (d.ringFree r).isNone && !(d.ring r).awaits then
      let dl := d.nowExt + d.rd DMA_CFG.STALL_BUDGET * 16
      d.pegMod fun p => { p with inbox := p.inbox.map fun z => if z = y then { z with stall := some dl } else z }
    else d
  | none => d

/-- A whole message of node n arrives (R251). -/
def msgWhole (n path t : Nat) (x : PegAsm) (d : Dev) : Dev :=
  let last := d.peg.lastRx.getD n none
  let dup := match last with | some l => decide ((l + 256 - x.seq) % 256 < 32) | none => false
  let isNext := match last with | some l => x.seq == (l + 1) % 256 | none => false
  if dup then ackLater n ((d.sat PEG_DUP_RX.COUNT).ev PEG_EVENT.DUP_RX)
  else if x.syn || isNext then
    let r := d.msgRing n
    if d.peg.inbox.any fun y => y.node == n && y.seq == x.seq then d
    else match d.alloc x.data.length with
      | some cs =>
        if d.msgTakes n && !x.data.isEmpty && decide (x.data.length ≤ 4096) then
          msgHead r (pmemSync ((writeCells cs d).pegMod fun p => { p with inbox := p.inbox ++
            [{ ring := r, node := n, data := x.data, seq := x.seq, path := path, ts := t, cells := cs }] }))
        else msgRefuse n d
      | none => msgRefuse n d
  else d.sat PEG_MSG_REJ.COUNT

/-- A message RX descriptor keeps Table 6.7. -/
def msgDescOk (y : Desc) : Bool :=
  let l := bits (y.dw 2) 0 16
  y.addr % 4 == 0 && decide (64 ≤ l ∧ l ≤ 4096) && l % 4 == 0 && bits (y.dw 2) 16 16 == 0 && bits (y.dw 7) 16 14 == 0

/-- Return the descriptor at index i of ring r with the fields of dwords 3 to 6. -/
def msgFill (r i d3 t w6 : Nat) (d : Dev) : Dev :=
  let x := d.ring r
  retire r (d.setRing r { x with taken := x.taken.modify i fun y =>
    { y with w := [y.dw 0, y.dw 1, y.dw 2, d3, t % 2 ^ 32, t / 2 ^ 32 % 2 ^ 32, w6, y.dw 7], begun := true, done := true } })

/-- Messages leave the inbox; their cells are free (R252). -/
def msgOut (p : PegIn → Bool) (d : Dev) : Dev := pmemSync (d.pegMod fun q => { q with inbox := q.inbox.filter fun y => !p y })

/-- A message is delivered (R252): it leaves the inbox, becomes the last accepted, and is acknowledged. -/
def msgDone (y : PegIn) (d : Dev) : Dev :=
  ackLater y.node (msgOut (· == y) (d.pegMod fun p => { p with lastRx := p.lastRx.set y.node (some y.seq) }))

/-- The cells of a message are read for its ring (R217): one with a poisoned cell is lost (R218). -/
def msgRead (y : PegIn) (d : Dev) : Bool × Dev :=
  let x : Frm := { cells := y.cells }
  let d := readFrm x d
  (d.poisoned x, d.when (d.poisoned x) (·.sat PMC_ECC_DROP.COUNT))

/-- Messages whose last byte has been written are delivered. -/
def msgSettle (d : Dev) : Dev :=
  (d.peg.inbox.filter fun y => y.wrote && !d.outWaits y.ring).foldl (fun d y => msgDone y d) d

/-- Write the oldest waiting message of node n into its ring, if it is the head there (R141, R146, R252): it becomes delivered
and acknowledged. A descriptor that breaks its format is returned BAD_DESC and the next is used. -/
def msgDeliverGo : Nat → Nat → Dev → Dev
  | 0, _, d => d
  | fuel + 1, n, d =>
    match d.peg.inbox.find? (fun y => y.node == n && !y.wrote) with
    | none => d
    | some y =>
      if !d.msgTakes n then msgRefuse n (msgOut (· == y) d)
      else if d.peg.inbox.find? (fun z => z.ring == y.ring && !z.wrote) != some y then d
      else
        match d.ringFree y.ring, d.ringFn y.ring with
        | some i, some f =>
          let z := (d.ring y.ring).taken.getD i {}
          let (lost, d) := msgRead y d
          if lost then (msgOut (· == y) d).sat PEG_MSG_REJ.COUNT
          else if msgDescOk z then
            let k := min y.data.length (bits (z.dw 2) 0 16)
            let d := hostOut y.ring f z.addr (y.data.take k) d
            let d := msgFill y.ring i (k + n * 2 ^ 16 + y.path * 2 ^ 21) y.ts
              ((if k < y.data.length then 13 else 0) + y.seq * 2 ^ 4) d
            let d := if d.outWaits y.ring then
                d.pegMod fun p => { p with inbox := p.inbox.map fun x => if x = y then { x with wrote := true } else x }
              else msgDone y d
            msgHead y.ring d
          else msgDeliverGo fuel n (msgFill y.ring i 0 0 5 d)
        | _, _ => d

/-- MSG_DELIVER for node n. -/
def msgDeliver (n : Nat) (d : Dev) : Dev := msgDeliverGo 4097 n d

/-- The stall budget of the message at the head of a message ring ends (R141, R142). -/
def msgStall (r : Nat) (d : Dev) : Dev :=
  match d.peg.inbox.find? (fun y => y.ring == r && !y.wrote) with
  | some y =>
    match y.stall with
    | some t =>
      if t ≤ d.nowExt && (d.ringFree r).isNone && !(d.ring r).awaits then
        let d := msgOut (· == y) d
        let d := ((d.sat DMA_RX_NODESC_DROP.COUNT).ev DMA_EVENT.RX_NODESC_DROP).sat PEG_MSG_REJ.COUNT
        msgHead r (match d.ringFn r with | some f => vfEvent f 1 d | none => d)
      else d
    | none => d
  | none => d

/-- Messages that wait for a ring that stops are dropped (R142, R150, R252). -/
def msgRingStop (r : Nat) (d : Dev) : Dev :=
  let n := (d.peg.inbox.filter fun y => y.ring == r).length
  if n = 0 then d
  else msgOut (·.ring == r) (((d.sat DMA_DISABLE_DROP.COUNT n).ev DMA_EVENT.DISABLE_DROP).sat PEG_MSG_REJ.COUNT n)

/-! ### Received segments (R247, R251) -/

/-- An error of a flow's reassembly, counted once for its frame. -/
def asmErr (src f : Nat) (d : Dev) : Dev :=
  (d.sat PEG_ASM_ERR.COUNT).pegMod fun p => { p with
    asm := p.asm.filter fun a => !(a.src == src && a.flow == f)
    skip := if p.skip.contains (src, f) then p.skip else p.skip ++ [(src, f)] }

/-- Pass the rest of a counted frame over, or stop doing so. -/
def asmSkip (on : Bool) (src f : Nat) (d : Dev) : Dev :=
  d.pegMod fun p => { p with skip := if on then p.skip else p.skip.filter fun x => x != (src, f) }

/-- A whole frame from Pegline goes in (R247). -/
def pegFrameIn (src f ts : Nat) (body : Bytes) (d : Dev) : Dev :=
  let data := body ++ leBytes 4 (crc32 body)
  if data.length < 64 ∨ d.rd PEG_FLOW_CFG.MAX_LEN < data.length then asmSkip false src f (asmErr src f d)
  else ingress 4 (some (d.peg.slot, d.peg.round)) ts d.valid data d

/-- Take in the segments of a DATA payload (R247). -/
def takeData : Nat → Nat → Nat → Nat → Bytes → Dev → Dev
  | 0, _, _, _, _, d => d
  | fuel + 1, src, f, ts, p, d =>
    let h := beNat (p.take 2)
    let n := h % 0x4000
    if p.length < 2 ∨ n = 0 then d
    else
      let cur := d.peg.asm.find? fun a => a.src == src && a.flow == f
      if p.length < 2 + n then (if cur.isSome then asmErr src f d else d)
      else
        let seg := slice p 2 n
        let rest := p.drop (2 + n)
        let first := bit h 15
        let last := bit h 14
        if !first && cur.isNone then
          let d := if d.peg.skip.contains (src, f) then d else asmErr src f d
          takeData fuel src f ts rest (if last then asmSkip false src f d else d)
        else
          let d := if first && cur.isSome then asmErr src f d else d
          let d := asmSkip false src f d
          let a : PegAsm := if first then { src := src, flow := f, data := seg, ts := ts }
            else let a := cur.getD {}; { a with data := a.data ++ seg }
          let d := d.pegMod fun q => { q with asm := q.asm.filter fun y => !(y.src == src && y.flow == f) }
          let d := if last then pegFrameIn src f a.ts a.data d else d.pegMod fun q => { q with asm := q.asm ++ [a] }
          takeData fuel src f ts rest d

/-- Take in the segments of an MSG payload after its ack block (R251). -/
def takeSegs : Nat → Nat → Nat → Nat → Bytes → Dev → Dev
  | 0, _, _, _, _, d => d
  | fuel + 1, src, path, ts, p, d =>
    let h := beNat (p.take 4)
    let n := h % 0x2000
    if p.length < 4 ∨ n = 0 ∨ p.length < 4 + n then d
    else
      let seg := slice p 4 n
      let seq := bits h 19 8
      let cur := d.peg.msgAsm.find? fun a => a.src == src
      let d :=
        if bits h 27 5 ≠ d.node then d
        else
          let clear (d : Dev) : Dev := d.pegMod fun q => { q with msgAsm := q.msgAsm.filter fun a => a.src != src }
          let a : Option PegAsm :=
            if bit h 18 then some { src := src, data := seg, ts := ts, seq := seq, syn := bit h 16 }
            else match cur with
              | some a => if a.seq = seq then some { a with data := a.data ++ seg } else none
              | none => none
          match a with
          | none => clear d
          | some a => if bit h 17 then msgWhole src path ts a (clear d) else (clear d).pegMod fun q => { q with msgAsm := q.msgAsm ++ [a] }
      takeSegs fuel src path ts (p.drop (4 + n)) d

/-- Take in an MSG payload of node src (R249 to R251). -/
def takeMsgs (src path ts : Nat) (p : Bytes) (d : Dev) : Dev :=
  let k := d.ackSlots
  let d := (List.range k).foldl (fun d i =>
    let e := beNat (slice p (2 * i) 2)
    if bit e 15 && bits e 10 5 == d.node then msgAcked src (bits e 2 8) d else d) d
  takeSegs (p.length + 1) src path ts (p.drop (2 * k)) d

/-! ### A used copy (R241, R248, R253) -/

/-- Fields of a received copy. -/
def PegCopy.kind (c : PegCopy) : Nat := bits c.w0 30 2
def PegCopy.src (c : PegCopy) : Nat := bits c.w0 25 5
def PegCopy.slot (c : PegCopy) : Nat := bits c.w0 19 6
def PegCopy.rnd (c : PegCopy) : Nat := bits c.w0 15 4
def PegCopy.cs (c : PegCopy) : Bool := bit c.w0 14

/-- The slot's payload is used: the copy of channel b (R241). -/
def useCopy (b : Bool) (c : PegCopy) (d : Dev) : Dev :=
  let d := d.pegMod fun p => { p with used := true, silent := p.silent.set p.slot 0 }
  let e := d.opSlot d.peg.slot
  let d := if e.type = 1 ∧ d.spareOwner d.peg.slot ≠ some c.src then setSpare d.peg.slot (some c.src) d else d
  match c.kind with
  | 0 =>
    if !e.rx then d
    else if e.type = 0 ∧ e.voice then
      forN e.vcnt (fun k d => voiceIn (e.vbase + k) ((slice c.data (16 * k) 16).map some) d) d
    else takeData (c.data.length + 1) c.src e.flow c.ts c.data d
  | 1 =>
    if d.chain then d else syncMeasure b c.src c.ts d.slotStart c.data d
  | 2 => takeMsgs c.src ((if d.peg.copyA.isSome then 1 else 0) + (if d.peg.copyB.isSome then 2 else 0)) c.ts c.data d
  | _ => d

/-- The copy held from channel B is used: A's has failed or did not come. -/
def useHeldB (d : Dev) : Dev :=
  match d.peg.copyB with
  | some c => if d.peg.used then d else useCopy true c d
  | none => d

/-! ### Judging a copy (R241, Table 11.4) -/

/-- A received copy taken apart: word 0, LEN of word 1, payload, check word good. -/
def Dev.parseCopy (d : Dev) (bs : Bytes) : Nat × Nat × Bytes × Bool :=
  let h := if d.chain then 8 else 4
  let p := slice bs h (bs.length - h - 4)
  (beNat (bs.take 4), beNat (slice bs 4 4) / 2 ^ 20, p,
   decide (h + 4 ≤ bs.length) && beNat (bs.drop (bs.length - 4)) == crc32 (bs.take (bs.length - 4)))

/-- The frame ends where the mode says: 48 B of payload on a bus, LEN bytes in a chain (checks 2 and 3). -/
def Dev.shapeOk (d : Dev) (len : Nat) (p : Bytes) : Bool := if d.chain then p.length == len else p.length == 48

/-- KIND fits the slot type. -/
def kindFits (type kind : Nat) : Bool :=
  match type with
  | 0 => kind == 0
  | 1 => kind == 0 || kind == 3
  | 2 => kind == 1
  | _ => kind == 2

/-- Check 4 of Table 11.4 for slot s of a round with index r. -/
def Dev.hdrOk (d : Dev) (s r w0 len : Nat) (p : Bytes) : Bool :=
  let e := d.opSlot s
  let kind := bits w0 30 2
  let src := bits w0 25 5
  bits w0 19 6 == s && bits w0 15 4 == r % 16 && e.paths != 0 && kindFits e.type kind &&
  (if e.type = 1 then (match d.spareOwner s with | some o => o == src | none => true) else e.owner == src) &&
  (!d.chain || len == (if kind = 1 then 48 else if kind = 3 then 0 else e.payload)) &&
  (kind != 1 || syncRound p % 16 == bits w0 15 4)

/-- Duration of a copy from its start delimiter or K27.7 to its end, in mt (Table 11.2, R238). -/
def Dev.copyMt (d : Dev) (bs : Bytes) : Nat := if d.chain then (bs.length + 2) * 64 else (bs.length * 8 + 8) * 512

/-- Check 1 for the slot in progress: sd is the era-extended time of the delimiter. -/
def Dev.timeOk (d : Dev) (sd : Int) (bs : Bytes) : Bool :=
  let w : Int := d.rd PEG_SYNC_WIN.W
  let st : Int := d.slotStart
  decide (st - w ≤ sd) && decide (sd + d.copyMt bs ≤ st + 262144 + w)

/-- Counters of a channel. -/
def rxGood (b : Bool) : Field := if b then PEG_RX_GOOD_B.COUNT else PEG_RX_GOOD_A.COUNT
def rxCrc (b : Bool) : Field := if b then PEG_RX_CRC_B.COUNT else PEG_RX_CRC_A.COUNT

/-- A SYNC frame of another schedule (R260). -/
def schedMismatch (d : Dev) : Dev := (d.sat PEG_SCHED_MISMATCH.COUNT).ev PEG_SYNC_EVENT.SCHED_MISMATCH

/-- Fit for integration (R263): the frame has passed checks 2 and 3. -/
def Dev.fit (d : Dev) (b : Bool) (w0 len : Nat) (p : Bytes) : Bool :=
  let src := bits w0 25 5
  let s := bits w0 19 6
  bits w0 30 2 == 1 && src != d.node && d.hdrOk s (syncRound p) w0 len p && syncCrc p == d.schedCrc &&
  (bit w0 14 || syncFlag 2 p) &&
  (if d.chain then syncFlag 1 p && (d.dlyFor b src).isSome
   else syncFlag 0 p || (match d.peg.refHeard with | some t => decide (t + 16 * frMt ≤ d.nowExt) | none => true))

/-- What a good copy of the slot in progress does in SYNC. -/
def goodCopy (b : Bool) (c : PegCopy) (d : Dev) : Dev :=
  let e := d.opSlot d.peg.slot
  let d := d.sat (rxGood b)
  let mism := c.kind == 1 && syncCrc c.data != d.schedCrc
  let d := if mism then schedMismatch d else d
  let d := if !c.cs && !mism && c.kind != 3 then d.pegMod fun p => { p with resp := true } else d
  let d := if c.kind = 1 ∧ !mism ∧ d.chain then syncMeasure b c.src c.ts d.slotStart c.data d else d
  let d := d.pegMod fun p => if b then { p with copyB := some c } else { p with copyA := some c }
  let p := d.peg
  let d := match p.copyA, p.copyB with
    | some x, some y => if x.data != y.data then (d.sat PEG_AB_MISMATCH.COUNT).ev PEG_EVENT.AB_MISMATCH else d
    | _, _ => d
  if c.kind = 1 ∧ mism then d.pegMod fun p => { p with used := true, silent := p.silent.set p.slot 0 }
  else if !b then (if p.used then d else useCopy false c d)
  else if p.seenA || !bit e.paths 0 then useHeldB d else d

/-- A copy received while this node sends in the slot: the claim check (Table 11.6), or the first node's own SYNC frame
come back (R272). -/
def ownSlotCopy (b : Bool) (w0 : Nat) (good : Bool) (bs : Bytes) (d : Dev) : Dev :=
  let own := bits w0 25 5 == d.node
  let d := if d.peg.claim = 2 ∧ d.peg.claimS = d.peg.slot then
      if d.chain then (if good && own then d else d.pegMod fun p => { p with clBad := true })
      else if good && bs == d.peg.clFrame then d.pegMod fun p => { p with clOk := p.clOk ||| (if b then 2 else 1) }
      else d.pegMod fun p => { p with clBad := true }
    else d
  if d.chain && d.isFirst && good && own && bits w0 30 2 == 1 then
    d.pegMod fun q => if b then { q with gotB := true } else { q with gotA := true }
  else d

/-- R235: in chain mode a frame received, its K27.7 at t, goes out of the other port 12 byte times later. -/
def forward (b : Bool) (t w0 : Nat) (bs : Bytes) (d : Dev) : Dev :=
  let up := if b then d.on PEG_STATUS.LANE_B_UP else d.on PEG_STATUS.LANE_A_UP
  let sends := d.peg.sending && bit (d.opSlot d.peg.slot).paths (if b then 1 else 0)
  if d.chain && up && !sends && bits w0 25 5 != d.node then
    d.emit (.pegFwd b (t + 768) (d.lineOf bs)) else d

/-- The own-grid response of COLDSTART and LONE (R261). -/
def respond (d : Dev) : Dev := pegEnter 3 (d.pegMod fun p => { p with resp := true })

/-- Start-up states: integration and responses (Table 12.2, R263). -/
def startupCopy (b : Bool) (sd : Int) (w0 len : Nat) (p : Bytes) (ok4 : Bool) (d : Dev) : Dev :=
  let st := d.pst
  let src := bits w0 25 5
  let kind := bits w0 30 2
  if src = d.node then d
  else
    let mism := kind == 1 && syncCrc p != d.schedCrc
    let d := if mism then schedMismatch d else d
    let fit := d.fit b w0 len p
    let d := if kind = 1 ∧ syncFlag 0 p ∧ !mism then d.pegMod fun q => { q with refHeard := some d.nowExt } else d
    if d.peg.loading then d
    else if (st = 1 ∨ st = 4) ∧ fit then integrate b src (bits w0 19 6) (sd % 2 ^ 68).toNat p d
    else if st = 2 ∧ bit w0 14 ∧ src < d.node ∧ fit then
      let d := integrate b src (bits w0 19 6) (sd % 2 ^ 68).toNat p d
      if d.pst = 2 ∧ !d.peg.loading then pegEnter 1 d else d
    else if (st = 2 ∨ st = 4) ∧ ok4 ∧ !bit w0 14 ∧ kind ≠ 3 ∧ !mism then respond d
    else d

/-- A copy of a slot frame arrives on channel b: t is the mote of its start delimiter or K27.7, counted from the present
frame event; symOk tells whether its symbols and its end are valid (R241). -/
def slotReceive (b : Bool) (t : Int) (symOk : Bool) (bs : Bytes) (d : Dev) : Dev :=
  let run := d.rd PEG_STATUS.RUN
  if run = 0 then d
  else
    let d := atMote t.toNat d
    let sd : Int := (d.frameExt * frMt : Nat) + t
    let (w0, len, p, crcOk) := d.parseCopy bs
    let d := forward b (sd % 2 ^ 68).toNat w0 bs d
    let ok23 := symOk && crcOk && d.shapeOk len p
    let ok1 := d.timeOk sd bs
    let ok4 := d.hdrOk d.peg.slot d.roundIx w0 len p
    let c : PegCopy := { w0 := w0, data := p, ts := (sd % 2 ^ 68).toNat }
    if d.pst = 3 then
      if !d.peg.active then d
      else if d.peg.sending then ownSlotCopy b w0 (ok23 && ok1) bs d
      else
        let d := d.pegMod fun q => if b then { q with seenB := true } else { q with seenA := true }
        if ok1 && ok23 && ok4 then goodCopy b c d
        else
          let d := if !ok1 then d.sat PEG_RX_TIME.COUNT else if !ok23 then d.sat (rxCrc b) else d.sat PEG_RX_HDR.COUNT
          if b then d else useHeldB d
    else if d.pst = 0 ∨ d.pst = 5 then d
    else if ok23 then startupCopy b sd w0 len p (ok1 && ok4 && d.peg.active) d else d

/-! ### The end of a slot (R241, R242, Table 11.6) -/

/-- The schedule expects a frame in slot s (R242). -/
def Dev.expected (d : Dev) (s : Nat) : Bool :=
  let e := d.opSlot s
  e.paths != 0 && (e.type != 1 || (d.spareOwner s).isSome)

/-- An expected slot without a good copy (R242). -/
def slotMiss (s : Nat) (d : Dev) : Dev :=
  let p := d.peg
  if d.pst = 3 ∧ p.active ∧ p.slot = s ∧ !p.sending ∧ !p.used ∧ p.copyB.isNone ∧ d.expected s then
    let e := d.opSlot s
    let d := ((d.sat PEG_SLOT_MISS.COUNT).ev PEG_EVENT.SLOT_MISS).pegMod fun p => { p with used := true }
    let src := (d.slotOwner s).getD 0
    if e.type = 0 ∧ e.voice then
      if e.rx then forN e.vcnt (fun k d => voiceIn (e.vbase + k) (List.replicate 16 none) d) d else d
    else if e.type ≤ 1 then
      if e.rx && (d.peg.asm.any fun a => a.src == src && a.flow == e.flow) then asmErr src e.flow d else d
    else if e.type = 3 then d.pegMod fun p => { p with msgAsm := p.msgAsm.filter fun a => a.src != src }
    else d
  else d

/-- The claim check at the end of its slot (Table 11.6). -/
def claimCheck (d : Dev) : Dev :=
  let p := d.peg
  if p.claim = 2 ∧ p.claimS = p.slot then
    let paths := (d.opSlot p.slot).paths
    let won := !p.clBad && (d.chain || p.clOk == paths)
    if won then
      let d := (setSpare p.slot (some d.node) d).ev PEG_EVENT.CLAIM_WON
      ((d.wrB PEG_SPARE_CTRL.CLAIM false).wr PEG_SPARE_CTRL.RESULT 1).pegMod fun p => { p with claim := 0 }
    else
      let d := (d.sat PEG_CLAIM_COLL.COUNT).ev PEG_EVENT.CLAIM_COLL
      let (x, d) := d.draw
      d.pegMod fun p => { p with claim := 3, backoff := 1 + x % 8 }
  else if p.claim = 3 ∧ p.claimS = p.slot then
    if (p.copyA.isSome || p.copyB.isSome) && (d.spareOwner p.slot).isSome then
      ((d.wrB PEG_SPARE_CTRL.CLAIM false).wr PEG_SPARE_CTRL.RESULT 2).pegMod fun p => { p with claim := 0 }
    else d.pegMod fun p => { p with backoff := p.backoff - 1 }
  else d

/-- The slot in progress ends: a copy held from B is used, an expected slot without a good copy is missing, channels of PATHS
without a copy fail check 1, the rounds of silence are counted. -/
def slotEnd (d : Dev) : Dev :=
  if !d.peg.active then d
  else if d.pst ≠ 3 then d.pegMod fun p => { p with active := false }
  else
    let d := useHeldB d
    let d := slotMiss d.peg.slot d
    let p := d.peg
    let e := d.opSlot p.slot
    let exp := d.expected p.slot && !p.sending
    let d := if exp && bit e.paths 0 && !p.seenA then d.sat PEG_RX_TIME.COUNT else d
    let d := if exp && bit e.paths 1 && !p.seenB then d.sat PEG_RX_TIME.COUNT else d
    let d := claimCheck d
    d.pegMod fun q => { q with active := false,
                               silent := q.silent.modify q.slot fun n =>
                                 if q.sending || q.copyA.isSome || q.copyB.isSome then 0 else min (n + 1) 255 }

/-! ### The start of a slot (R236, R262, R264) -/

/-- A cold-start frame, or a SYNC frame in SYNC. -/
def sendSync (cs : Bool) (e : SlotEnt) (d : Dev) : Dev :=
  let f := d.slotFrame 1 cs false (syncPayload d.roundIx d)
  let d := sendPaths e.paths f f d
  if cs then
    (d.sat PEG_CS_SENT.COUNT).wr PEG_SYNC_STATUS.CS_COUNT
      (if d.pst = 2 then min (d.rd PEG_SYNC_STATUS.CS_COUNT + 1) 16 else d.rd PEG_SYNC_STATUS.CS_COUNT)
  else d

/-- What this node sends in the slot in progress, in SYNC. -/
def sendSlot (d : Dev) : Dev :=
  let s := d.peg.slot
  let e := d.opSlot s
  if e.paths = 0 then d
  else if e.type = 1 then
    if d.peg.claim = 1 ∧ d.peg.claimS = s then
      let f := d.slotFrame 3 false false (if d.chain then [] else List.replicate 48 0)
      (sendPaths e.paths f f d).pegMod fun p => { p with claim := 2, clOk := 0, clBad := false, clFrame := f }
    else if d.spareOwner s = some d.node then
      if d.peg.flowq.any (fun x => x.1 == e.flow) then
        let (lost, d) := bufRead .slot d
        let (p, bad, d) := dataPayload e d
        let f := d.slotFrame 0 false (bad || lost) p
        sendPaths e.paths f f d
      else
        let f := d.slotFrame 3 false false (if d.chain then [] else List.replicate 48 0)
        sendPaths e.paths f f d
    else d
  else if e.owner ≠ d.node then d
  else
    match e.type with
    | 0 =>
      let (lost, d) := bufRead .slot d
      let (p, bad, d) := if e.voice then (voicePayload e d, false, d) else dataPayload e d
      let f := d.slotFrame 0 false (bad || lost) p
      sendPaths e.paths f f d
    | 2 => sendSync false e d
    | _ =>
      let (lost, d) := bufRead .slot d
      let (ack, d) := ackBlock d
      let (a, b, d) := fillMsg (e.payload + 1) (e.payload - ack.length) e.paths d
      sendPaths e.paths (d.slotFrame 2 false lost (ack ++ a)) (d.slotFrame 2 false lost (ack ++ b)) d

/-- Slot s begins (R236): it lies in frame s / 4 of the round. In SYNC this node sends by the schedule; in COLDSTART and
LONE only its cold-start frames. -/
def slotBegin (s : Nat) (d : Dev) : Dev :=
  let d := slotEnd d
  let st := d.pst
  if d.rd PEG_STATUS.RUN ≠ 2 ∨ (st ≠ 2 ∧ st ≠ 3 ∧ st ≠ 4) ∨ d.frameExt % 16 ≠ s / 4 then d
  else
    let d := atMote (s % 4 * 262144) d
    let d := d.pegMod fun p => { p with slot := s, round := d.frameExt / 16 * 16, active := true, sending := false,
                                        copyA := none, copyB := none, seenA := false, seenB := false, used := false }
    if st = 3 then sendSlot d
    else
      let e := d.opSlot s
      let mine := e.type == 2 && e.paths != 0 && e.owner == d.node && d.csOk
      if st = 2 ∧ mine ∧ !d.peg.loading ∧ d.peg.csFrom ≤ d.roundIx ∧ d.rd PEG_SYNC_STATUS.CS_COUNT < 16 then sendSync true e d
      else if st = 4 ∧ mine ∧ d.roundIx % 64 = 0 then sendSync true e d
      else d

/-! ### The schedule (R243 to R245) -/

/-- The admin bank. -/
def Dev.adminSched (d : Dev) : Nat :=
  match d.peg.oper with
  | some b => 1 - b
  | none => 1 - d.rd PEG_SCHED_CTRL.BOOT_BANK

/-- A bank of the window is writable: neither operational nor pending (R243). -/
def Dev.schedFree (d : Dev) (b : Nat) : Bool := d.peg.oper != some b && d.peg.pend != some b

/-- An entry breaks a rule of LIST_BAD (R244), the SYNC counts left out. -/
def Dev.entBad (d : Dev) (b s : Nat) : Bool :=
  let e := d.slotEnt b s
  bits (d.schedWord b s 0) 23 1 != 0 || bits (d.schedWord b s 1) 6 2 != 0 || bits (d.schedWord b s 1) 15 17 != 0 ||
  d.schedWord b s 2 != 0 || d.schedWord b s 3 != 0 ||
  (!d.chain && e.paths != 0 && e.payload != 48) ||
  (d.chain && decide (4096 < 14 + e.payload + d.rd PEG_CHAIN_CFG.GUARD)) ||
  (e.voice && (e.type != 0 || e.vcnt == 0 || decide (e.payload < 16 * e.vcnt) || decide (64 < e.vbase + e.vcnt))) ||
  (e.type == 3 && decide (e.payload < 24))

/-- SYNC entries below slot s: their number and owners. -/
def Dev.syncBelow (d : Dev) (b s : Nat) : List Nat :=
  (List.range s).filterMap fun k => let e := d.slotEnt b k; if e.type = 2 then some e.owner else none

/-- The first faulty entry (R244). -/
def Dev.schedBad (d : Dev) (b : Nat) : Option Nat :=
  (List.range 64).find? fun s =>
    let e := d.slotEnt b s
    let old := d.syncBelow b s
    d.entBad b s || (e.type == 2 && (decide (8 ≤ old.length) || old.contains e.owner))

/-- The result of a commit (R244). -/
def schedResult (r bad : Nat) (d : Dev) : Dev :=
  let d := (d.wr PEG_SCHED_STAT.RESULT r).wrB PEG_SCHED_CTRL.COMMIT false
  (if r = 3 then d.wr PEG_SCHED_STAT.BAD_SLOT bad else d).ev PEG_EVENT.SCHED_DONE

/-- PEG_SCHED_CTRL.COMMIT (R244). -/
def schedCommit (d : Dev) : Dev :=
  let b := d.adminSched
  let t := d.hearth.a.era * 2 ^ 64 + d.rd PEG_SCHED_SWAP_HI.T * 2 ^ 32 + d.rd PEG_SCHED_SWAP_LO.T
  if d.peg.pend.isSome then schedResult 5 0 d
  else if !d.valid then schedResult 6 0 d
  else if t % (1024 * frMt) ≠ 0 ∨ t < d.nowExt + 2 * frMt then schedResult 8 0 d
  else if d.chain ∧ d.rd PEG_CHAIN_CFG.GUARD * 64 < 2 * d.rd PEG_SYNC_WIN.W then schedResult 9 0 d
  else
    match d.schedBad b with
    | some s => schedResult 3 s d
    | none =>
      let a := admission ((List.range 4).map d.bankNow) (d.slotCosts (some b)) d
      let d := admitReport a 2 0 d
      if a.passed then
        let d := (admitTake a [] d).pegMod fun p => { p with pend := some b, swapT := t }
        schedResult 1 0 (d.wrB PEG_SCHED_STAT.PENDING true)
      else schedResult 4 0 d

/-- PEG_SCHED_CTRL.CANCEL (R244). -/
def schedCancel (d : Dev) : Dev :=
  if d.peg.pend.isSome then
    ((d.pegMod fun p => { p with pend := none }).wrB PEG_SCHED_STAT.PENDING false).wr PEG_SCHED_STAT.RESULT 7
  else d

/-- Frames of flows that no longer exist are dropped, the others start again from their first segment (R245). -/
def reflow (d : Dev) : Dev :=
  let gone := d.peg.flowq.filter fun x => !d.flowOwned x.1
  let d := d.pegMod fun p => { p with flowq := p.flowq.filter fun x => d.flowOwned x.1, segOff := [] }
  gone.foldl (fun d x => flowDrop x.2 d) d

/-- A claim ends without its slot: Pegline stops, or a swap takes the slot's type away (assumption log 39). -/
def claimOver (d : Dev) : Dev :=
  if d.peg.claim = 0 then d
  else ((d.wrB PEG_SPARE_CTRL.CLAIM false).wr PEG_SPARE_CTRL.RESULT 3).pegMod fun p => { p with claim := 0 }

/-- Bank b becomes operational (R245). -/
def schedIn (b : Nat) (d : Dev) : Dev :=
  let was := d.peg.oper
  let keep (s : Nat) : Bool := match was with
    | some a => (d.slotEnt a s).type == 1 && (d.slotEnt b s).type == 1
    | none => false
  let d := d.pegMod fun p => { p with oper := some b, last := some b, badSlots := [], asm := [], msgAsm := [], skip := [] }
  let d := forN 64 (fun s d => if keep s then d else setSpare s none d) d
  let d := ((d.wr PEG_SCHED_STAT.OPER_BANK b).wr PEG_SYNC_SCHED_CRC.CRC d.schedCrc)
  let d := reflow d
  let d := d.when ((d.opSlot d.peg.claimS).type != 1 || (d.opSlot d.peg.claimS).paths == 0) claimOver
  let hasMsg := (List.range 64).any fun s => let e := d.opSlot s; e.type == 3 && e.paths != 0 && e.owner == d.node
  let part (m : PegMsg) : Bool := m.sent.isNone && m.off != 0
  if hasMsg then roleUpdate (d.pegMod fun p => { p with msgs := p.msgs.map fun m => if part m then { m with off := 0 } else m })
  else roleUpdate (msgNoAck part d)

/-- The swap time arrives (R245). -/
def schedSwap (d : Dev) : Dev :=
  match d.peg.pend with
  | some b =>
    if d.peg.swapT ≤ d.nowExt then
      let d := schedIn b (d.pegMod fun p => { p with pend := none })
      ((d.wrB PEG_SCHED_STAT.PENDING false).wr PEG_SCHED_STAT.RESULT 2).ev PEG_EVENT.SCHED_SWAPPED
    else d
  | none => d

/-- BOOT_DONE: the bank of BOOT_BANK is in force (R245). -/
def schedBoot (d : Dev) : Dev := schedIn (d.rd PEG_SCHED_CTRL.BOOT_BANK) d

/-- A write of word k of slot s of bank b (R243). -/
def schedWrite (src : BusSrc) (b s k x : Nat) (d : Dev) : Dev :=
  if d.schedFree b then d.setWord (0x2C0000 + b * 0x400 + 16 * s + 4 * k) x
  else badWr src (0x2C0000 + b * 0x400 + 16 * s + 4 * k) d

/-! ### Spare slots (R254, R255) -/

/-- PEG_SPARE_CTRL written with CLAIM (R254). -/
def spareClaim (s : Nat) (d : Dev) : Dev :=
  let busy := d.on PEG_SPARE_CTRL.CLAIM
  let d := d.wr PEG_SPARE_CTRL.SLOT s
  if busy then d
  else
    let e := d.opSlot s
    if d.pst = 3 ∧ e.type = 1 ∧ e.paths ≠ 0 ∧ (d.spareOwner s).isNone ∧ 33 ≤ d.peg.silent.getD s 0 then
      ((d.wrB PEG_SPARE_CTRL.CLAIM true).wr PEG_SPARE_CTRL.RESULT 0).pegMod fun p => { p with claim := 1, claimS := s }
    else d.wr PEG_SPARE_CTRL.RESULT 3

/-- The backoff of a claim ends (Table 11.6). -/
def claimBackoffEnd (d : Dev) : Dev :=
  if d.peg.claim = 3 ∧ d.peg.backoff = 0 ∧ (d.spareOwner d.peg.claimS).isNone then d.pegMod fun p => { p with claim := 1 } else d

/-- RELEASE of an owned slot (Table 11.6). -/
def spareRelease (s : Nat) (d : Dev) : Dev :=
  let d := d.wr PEG_SPARE_CTRL.SLOT s
  if d.spareOwner s = some d.node then setSpare s none d else d

/-- A spare slot has carried no good frame for 32 rounds (R255). -/
def spareLapse (s : Nat) (d : Dev) : Dev :=
  match d.spareOwner s with
  | some _ => if 32 ≤ d.peg.silent.getD s 0 then setSpare s none d else d
  | none => d

/-! ### Run state (R256) -/

/-- Pegline enters STARTING (R233, R251, R256, R262). -/
def pegStart (d : Dev) : Dev :=
  let d := d.wr PEG_STATUS.MODE_NOW (d.rd PEG_CFG.MODE)
  let d := d.pegMod fun p => { p with
    lastRx := List.replicate 32 none, synDue := List.replicate 32 true, asm := [], skip := [], msgAsm := [], ackDue := []
    silent := List.replicate 64 0, active := false, claim := 0, dev := [], prev := [], refHeard := none
    ringA := 0, ringB := 0, ringBoth := 0 }
  let d := d.wrB PEG_SYNC_STATUS.RING_OK false
  let d := forN 64 (fun s d => setSpare s none d) d
  pegValid (roleUpdate (pegEnter 1 d))

/-- PEG_CFG.EN written 1 (Table 4.10). -/
def pegEnable (d : Dev) : Dev :=
  let d := d.wrB PEG_CFG.EN true
  let r := d.rd PEG_STATUS.RUN
  let d := d.wr PEG_STATUS.RUN (runEnable (d.pd 1 && d.pd 3) r)
  if r = 0 ∧ d.rd PEG_STATUS.RUN = 1 then pegStart d else d

/-- Pegline enters STOPPING: frames for flows are dropped, messages return NO_ACK (R256). -/
def pegHalt (d : Dev) : Dev :=
  let gone := d.peg.flowq
  let d := d.pegMod fun p => { p with flowq := [], segOff := [] }
  let d := gone.foldl (fun d x => flowDrop x.2 d) d
  roleUpdate (pegEnter 0 (claimOver (msgNoAck (fun _ => true) d)))

/-- PEG_CFG.EN written 0. -/
def pegDisable (d : Dev) : Dev :=
  let d := d.wrB PEG_CFG.EN false
  let r := d.rd PEG_STATUS.RUN
  let d := d.wr PEG_STATUS.RUN (runDisable r)
  if r = 1 ∨ r = 2 then pegHalt d else d

/-- STARTING passes to ON. -/
def pegOn (d : Dev) : Dev := if d.rd PEG_STATUS.RUN = 1 then d.wr PEG_STATUS.RUN 2 else d

/-- Quiescence, at the end of the current slot. -/
def pegStopped (d : Dev) : Dev :=
  let r := d.rd PEG_STATUS.RUN
  if r = 3 ∨ r = 4 then
    let d := laneLost true (laneLost false (d.wr PEG_STATUS.RUN (runQuiet r)))
    let d := d.pegMod fun p => { p with active := false, sending := false }
    if r = 4 then pegStart d else d
  else d

/-- A round in which no grid is held: no slot carries a good frame (R255). -/
def silentRound (d : Dev) : Dev :=
  if d.pst = 3 then d else d.pegMod fun p => { p with silent := p.silent.map fun n => min (n + 1) 255 }

/-- The round event (R248, R255, R262, R269). -/
def pegRound (d : Dev) : Dev := silentRound (probeSend 1 (probeSend 0 (voiceRound d)))

/-- The frame event counts towards the listen timer (R262), and towards the recalibration of powered lanes (R230). -/
def pegFrame (d : Dev) : Dev :=
  let n (x : Nat) := if d.on RAT_DOM_STATUS.PEG_LANES_ON then x + 1 else 0
  d.pegMod fun p => { p with listenFr := p.listenFr + 1, recalA := n p.recalA, recalB := n p.recalB }

/-- The time is between slot frames of this device (R230). -/
def Dev.pegIdle (d : Dev) : Bool :=
  !(d.peg.active && d.peg.sending) || decide (d.slotStart + (14 + max (d.opSlot d.peg.slot).payload 48) * 64 ≤ d.nowExt)

end Sys2Proof.Machine
end

