-- ==== Sys2Proof/Machine/SapOps.lean ====
section
/-!
DEFINITION. Machine/SapOps.lean: voice ports, audio channels and IEC 60958
(spec/14_voice_ports_and_the_service_speaker.md, R296 to R313).
-/

namespace Sys2Proof.Machine

/-! ### Ports -/

/-- Port p, and a change of it. -/
def Dev.port (d : Dev) (p : Nat) : SapPort := d.sap.ports.getD p {}
def Dev.sapPortMod (d : Dev) (p : Nat) (f : SapPort → SapPort) : Dev :=
  { d with sap := { d.sap with ports := d.sap.ports.modify p f } }

/-- Run state of port p. -/
def Dev.sapRun (d : Dev) (p : Nat) : Nat := d.rd (SAPp_STATUS.RUN p)

/-- The sample rate of a RATE code in Hz. -/
def rateHz (r : Nat) : Nat := [8000, 16000, 32000, 44100, 48000, 96000].getD r 0

/-- Fields of SAPp_CTRL and SAPp_FMT as read at STARTING. -/
def SapPort.master (q : SapPort) : Bool := bit q.ctrl 1
def SapPort.guarded (q : SapPort) : Bool := bit q.ctrl 2
def SapPort.iec (q : SapPort) : Bool := bit q.ctrl 3
def SapPort.hiz (q : SapPort) : Bool := bit q.ctrl 4
def SapPort.format (q : SapPort) : Nat := bits q.fmt 0 2
def SapPort.slots (q : SapPort) : Nat := if q.iec then 2 else bits q.fmt 2 5
def SapPort.slotBits (q : SapPort) : Nat := if q.iec then 32 else 8 * (bits q.fmt 7 2 + 1)
def SapPort.wordBits (q : SapPort) : Nat := bits q.fmt 9 5 + 1
def SapPort.rate (q : SapPort) : Nat := bits q.fmt 14 3
def SapPort.hz (q : SapPort) : Nat := rateHz q.rate
/-- Bits of a port frame (R297). -/
def SapPort.frameBits (q : SapPort) : Nat := q.slots * q.slotBits

/-! ### Audio channels: output (dir = false) and input (dir = true) -/

/-- Audio channel k of a direction, and a change of it. -/
def Dev.ac (d : Dev) (dir : Bool) (k : Nat) : AudCh := (if dir then d.sap.ins else d.sap.outs).getD k {}
def Dev.acMod (d : Dev) (dir : Bool) (k : Nat) (f : AudCh → AudCh) : Dev :=
  if dir then { d with sap := { d.sap with ins := d.sap.ins.modify k f } }
  else { d with sap := { d.sap with outs := d.sap.outs.modify k f } }

/-- The RUN and FADE fields of a channel's map. -/
def runField (dir : Bool) (k : Nat) : Field := if dir then SAP_IMAPk.RUN k else SAP_OMAPk.RUN k
def fadeField (dir : Bool) (k : Nat) : Field := if dir then SAP_IMAPk.FADE k else SAP_OMAPk.FADE k
def enField (dir : Bool) (k : Nat) : Field := if dir then SAP_IMAPk.EN k else SAP_OMAPk.EN k
/-- The map register of a channel. -/
def Dev.mapWord (d : Dev) (dir : Bool) (k : Nat) : Nat := d.word (if dir then SAP_IMAPk.addr k else SAP_OMAPk.addr k)

/-- Fields of a map (Table 14.3). -/
def AudCh.src (c : AudCh) : Nat := bits c.map 1 2
def AudCh.port (c : AudCh) : Nat := bits c.map 3 4
def AudCh.slot (c : AudCh) : Nat := bits c.map 7 4
def AudCh.cont (c : AudCh) : Nat := bits c.map 11 2
def AudCh.codec (c : AudCh) : Nat := bits c.map 13 2
def AudCh.vch (c : AudCh) : Nat := bits c.map 15 6
/-- Bytes staged in the channel's cell. -/
def AudCh.used (c : AudCh) : Nat := (c.cell.map fun s => s.bs.length).foldl (· + ·) 0

/-- The global ring of an audio channel (R126). -/
def audRing (dir : Bool) (k : Nat) : Nat := if dir then 320 + k else 256 + k

/-- A channel is running: ON, or fading out to stop. -/
def Dev.acLive (d : Dev) (dir : Bool) (k : Nat) : Bool := decide (2 ≤ d.rd (runField dir k))

/-- The channels of a direction that are enabled or running and name port p, by their maps. -/
def Dev.acOn (d : Dev) (dir : Bool) (p : Nat) : List Nat :=
  (List.range 64).filter fun k => d.rd (runField dir k) != 0 && (d.ac dir k).port == p

/-! ### Configuration (R297, R298, R301, R302, R306, R308, R322) -/

/-- The MCLK of a rate: its enable and lock, and NUM and DEN as they stand. -/
def Dev.mclkOf (d : Dev) (rate : Nat) : Bool × Nat × Nat :=
  if rate = 3 then (d.on CLK_CTRL.MCLK_B_EN && d.bitOf CLK_STATUS.MCLK_LOCK 1, d.hearth.mclkB.1, d.hearth.mclkB.2)
  else (d.on CLK_CTRL.MCLK_A_EN && d.bitOf CLK_STATUS.MCLK_LOCK 0, d.hearth.mclkA.1, d.hearth.mclkA.2)

/-- The integer divider from MCLK to clk Hz, if the division leaves no remainder and it lies in 1 to 256 (R298). -/
def Dev.clkDiv (d : Dev) (rate clk : Nat) : Option Nat :=
  let (ok, num, den) := d.mclkOf rate
  let a := 524288000 * num
  let b := den * clk
  if ok && b != 0 && a % b == 0 && decide (1 ≤ a / b ∧ a / b ≤ 256) then some (a / b) else none

/-- The divider of an IEC rate (R306). -/
def iecDiv (rate : Nat) : Nat := match rate with
  | 2 => 3
  | 3 => 2
  | 4 => 2
  | _ => 1

/-- A channel's map fits the port q: slot, container, codec, rate (R301, R302, R306, R308, R322). -/
def acFits (q : SapPort) (c : AudCh) : Bool :=
  decide (c.slot < q.slots) && (c.src != 0 || c.cont != 2 || c.codec != 0) &&
    (!q.iec || (c.cont != 2 && c.codec == 0)) && (c.src == 0 || q.rate == 0) && (c.src != 2 || c.vch < 16)

/-- SLOTS fits FORMAT (Table 14.2). -/
def slotsOk (q : SapPort) : Bool :=
  match q.format with
  | 2 => q.slots == 4 || q.slots == 8 || q.slots == 16
  | 3 => decide (1 ≤ q.slots ∧ q.slots ≤ 16)
  | _ => q.slots == 2

/-- The divider of a valid configuration of port p (0 for a slave); none when it is invalid (R298, R306). -/
def Dev.sapDiv (d : Dev) (p : Nat) (q : SapPort) : Option Nat :=
  let fits := (d.acOn false p).all (fun k => acFits q (d.ac false k)) && (d.acOn true p).all fun k => acFits q (d.ac true k)
  if q.iec then
    if fits && decide (2 ≤ q.rate ∧ q.rate ≤ 5) && decide (q.wordBits ≤ 24) then
      match d.clkDiv q.rate (128 * q.hz) with
      | some n => if n = iecDiv q.rate then some n else none
      | none => none
    else none
  else if fits && slotsOk q && decide (q.rate ≤ 5) && decide (8 ≤ q.wordBits ∧ q.wordBits ≤ q.slotBits) then
    if q.master then d.clkDiv q.rate (q.frameBits * q.hz) else some 0
  else none

/-- Read SAPp_CTRL and SAPp_FMT, and show whether the configuration is valid (R298). -/
def sapCheck (p : Nat) (d : Dev) : Dev :=
  let d := d.sapPortMod p fun q => { q with ctrl := d.word (SAPp_CTRL.addr p), fmt := d.word (SAPp_FMT.addr p) }
  if (d.sapDiv p (d.port p)).isSome then d.wrB (SAPp_STATUS.CFG_BAD p) false
  else (d.wrB (SAPp_STATUS.CFG_BAD p) true).ev (SAPp_EVENT.CFG_BAD p)

/-- FS in BCLK period i from its active edge on, before inversion (Table 14.2). -/
def SapPort.fsHigh (q : SapPort) (i : Nat) : Bool :=
  match q.format with
  | 0 => decide (q.slotBits ≤ i)
  | 1 => decide (i < q.slotBits)
  | _ => decide (i < if bit q.fmt 19 then q.slotBits else 1)

/-- BCLK periods from the FS edge to the first data bit (Table 14.2). -/
def SapPort.fsLead (q : SapPort) : Nat :=
  match q.format with
  | 0 => 1
  | 1 => 0
  | _ => bits q.fmt 20 1

/-- FS of a frame, one bit for each BCLK period from slot 0's first data bit on, the first most significant; FS_INV inverts
it (R297). -/
def SapPort.fsLine (q : SapPort) : Nat :=
  (List.range q.frameBits).foldl (fun v j =>
    v * 2 + if (q.fsHigh ((j + q.fsLead) % q.frameBits) != bit q.fmt 18) then 1 else 0) 0

/-- What a master drives on FS and BCLK in a frame: FS, and whether data change on the rising edge, BCLK_EDGE naming the
other one for sampling (R297). -/
def SapPort.clocks (q : SapPort) : Option (Nat × Bool) := if q.master then some (q.fsLine, bit q.fmt 17) else none

/-- A write of SAPp_CTRL or SAPp_FMT while the port is STARTING (R298). -/
def sapCfgWrite (p : Nat) (d : Dev) : Dev := if d.sapRun p = 1 then sapCheck p d else d

/-- Move port p to a run state; entering STARTING reads the configuration (R298, R310). -/
def setSapRun (p r : Nat) (d : Dev) : Dev :=
  let old := d.sapRun p
  let d := d.wr (SAPp_STATUS.RUN p) r
  if r = 1 ∧ old ≠ 1 then sapCheck p (d.wrB (SAPp_STATUS.ALIGN_LOST p) false) else d

/-- SAPp_CTRL.EN is written (R311). -/
def sapEn (p : Nat) (b : Bool) (d : Dev) : Dev :=
  let d := d.wrB (SAPp_CTRL.EN p) b
  let r := d.sapRun p
  setSapRun p (if b then runEnable (d.pd 5) r else runDisable r) d

/-- Show the output buffer's fill (R300). -/
def sapFill (p : Nat) (d : Dev) : Dev := d.wr (SAPp_STATUS.FILL p) (d.port p).outQ.length

/-- Index of the tick at or before now: tick i falls at i × 8,000 × 2^20 / fs mt (R298). -/
def Dev.tickIx (d : Dev) (hz : Nat) : Nat := d.nowExt * hz / (8000 * frMt)

/-- A STARTING port with a valid configuration passes to ON, its slip buffers holding 2 frames (R298, R300). -/
def sapPortOn (p : Nat) (d : Dev) : Dev :=
  if d.sapRun p ≠ 1 ∨ d.on (SAPp_STATUS.CFG_BAD p) then d
  else
    match d.sapDiv p (d.port p) with
    | none => (d.wrB (SAPp_STATUS.CFG_BAD p) true).ev (SAPp_EVENT.CFG_BAD p)
    | some n =>
      let z := List.replicate (d.port p).slots 0
      let d := ((d.wr (SAPp_STATUS.RUN p) 2).wr (SAPp_STATUS.BCLK_DIV p) n).wrB (SAPp_STATUS.LOCKED p) false
      sapFill p <| d.sapPortMod p fun q =>
        { ctrl := q.ctrl, fmt := q.fmt, tick := d.tickIx q.hz, outQ := [z, z], outLast := z, inQ := [some z, some z],
          inLast := some z, inPrev := z }

/-- The port's receive side delivers frames: master, or locked. -/
def Dev.sapHears (d : Dev) (p : Nat) : Bool :=
  let q := d.port p
  if q.iec then d.on (SAP_IECq_CFG.RX_EN (p - 6)) && d.on (SAPp_STATUS.LOCKED p)
  else q.master || d.on (SAPp_STATUS.LOCKED p)

/-- Lock of a slave port, or of an IEC receiver (R299, R307). -/
def sapLock (iec b : Bool) (p : Nat) (d : Dev) : Dev :=
  let q := d.port p
  if decide (2 ≤ d.sapRun p) && (if iec then q.iec && (!b || d.on (SAP_IECq_CFG.RX_EN (p - 6))) else !q.iec && !q.master) &&
      d.on (SAPp_STATUS.LOCKED p) != b then
    (d.wrB (SAPp_STATUS.LOCKED p) b).ev (if b then SAPp_EVENT.LOCK p else SAPp_EVENT.LOCK_LOST p)
  else d

/-! ### Audio channel states (R301, R312) -/

/-- A start of a fade ends at full gain or silence after this many ticks (R309). -/
def fadeTicks (ms hz : Nat) : Nat := max 1 (ms * hz / 1000)

/-- Move a channel to a run state; entering STARTING reads its map (R301). -/
def setAcRun (dir : Bool) (k r : Nat) (d : Dev) : Dev :=
  let old := d.rd (runField dir k)
  let d := d.wr (runField dir k) r
  if r = 1 ∧ old ≠ 1 then d.acMod dir k fun c => { c with map := d.mapWord dir k } else d

/-- SAP_OMAPk.EN or SAP_IMAPk.EN is written (R312). -/
def acEn (dir : Bool) (k : Nat) (b : Bool) (d : Dev) : Dev :=
  let d := d.wrB (enField dir k) b
  let r := d.rd (runField dir k)
  setAcRun dir k (if b then runEnable (d.pd 5) r else runDisable r) d

/-- Two channels of a direction compete: one slot, one Pegline voice channel (inputs), or the speaker (R301). -/
def acClash (dir : Bool) (a b : AudCh) : Bool :=
  (a.port == b.port && (a.slot == b.slot || a.port == 8)) || (dir && a.src == 1 && b.src == 1 && a.vch == b.vch)

/-- Raise an event of port p; the speaker has none of these. -/
def sapEv (p : Nat) (f : Nat → Field) (d : Dev) : Dev := if p < 8 then d.ev (f p) else d

/-- The port of a channel is ON and takes it. -/
def Dev.portTakes (d : Dev) (c : AudCh) : Bool :=
  if c.port = 8 then d.rd SPK_STATUS.RUN == 2 && (c.src == 0 || d.spk.rate == 0)
  else c.port < 8 && d.sapRun c.port == 2 && acFits (d.port c.port) c

/-- A STARTING channel becomes ON with a ramp-in from gain 0 (R301, R312): of two enabled ones that compete the
lower-numbered runs, the other is in STARTING. One that is fading out keeps the place until it is quiet. -/
def sapChannelOn (dir : Bool) (k : Nat) (d : Dev) : Dev :=
  let c := d.ac dir k
  let run (j : Nat) : Nat := d.rd (runField dir j)
  if run k ≠ 1 ∨ !d.portTakes c then d
  else
    let foes := (List.range 64).filter fun j => j != k && run j != 0 && acClash dir c (d.ac dir j)
    if foes.any (fun j => decide (j < k) && run j != 3) then sapEv c.port SAPp_EVENT.SLOT_CONFLICT d
    else if foes.any (fun j => decide (3 ≤ run j)) then d
    else
      let d := (foes.filter fun j => run j == 2).foldl (fun d j =>
        setAcRun dir j 1 (sapEv c.port SAPp_EVENT.SLOT_CONFLICT (d.wr (fadeField dir j) 2))) d
      ((d.wr (runField dir k) 2).wr (fadeField dir k) 3).acMod dir k fun x =>
        { map := x.map, hold := x.hold, cell := x.cell, gPos := 0, gLen := 1 }

/-- A channel's fade-out has ended: quiescence (R312). -/
def fadeDone (dir : Bool) (k : Nat) (d : Dev) : Dev :=
  let r := d.rd (runField dir k)
  if (r = 3 ∨ r = 4) ∧ d.rd (fadeField dir k) = 2 then
    setAcRun dir k (runQuiet r) (d.acMod dir k fun c => { map := c.map, gLen := c.gLen, cell := c.cell, hold := c.hold })
  else d

/-- A port (8 the speaker) has stopped: its ON channels wait in STARTING for it, its stopping channels are quiet. -/
def acPortGone (p : Nat) (d : Dev) : Dev :=
  [false, true].foldl (fun d dir =>
    forN 64 (fun k d =>
      if d.acLive dir k && (d.ac dir k).port == p then
        let r := d.rd (runField dir k)
        setAcRun dir k (if r = 2 then 1 else runQuiet r)
          ((d.wr (fadeField dir k) 2).acMod dir k fun c => { map := c.map, cell := c.cell, hold := c.hold })
      else d) d) d

/-- Every ON channel of port p has faded out. -/
def Dev.portFaded (d : Dev) (p : Nat) : Bool :=
  [false, true].all fun dir =>
    (List.range 64).all fun k => !(d.acLive dir k && (d.ac dir k).port == p) || d.rd (fadeField dir k) == 2

/-- A stopping port reaches quiescence (R311). -/
def sapStopped (p : Nat) (d : Dev) : Dev :=
  let r := d.sapRun p
  if (r = 3 ∨ r = 4) ∧ d.portFaded p then
    let d := acPortGone p ((d.ev (SAPp_EVENT.STOPPED p)).wrB (SAPp_STATUS.LOCKED p) false)
    setSapRun p (runQuiet r) (sapFill p (d.sapPortMod p fun q => { ctrl := q.ctrl, fmt := q.fmt }))
  else d

/-! ### Slip buffers (R300) -/

/-- Count a slip. -/
def slip (f : Nat → Field) (p : Nat) (d : Dev) : Dev := (d.sat (f p)).ev (SAPp_EVENT.SLIP p)

/-- An output tick writes a frame. -/
def outWrite (p : Nat) (w : List Nat) (d : Dev) : Dev :=
  let full := decide (4 ≤ (d.port p).outQ.length)
  let d := if full then slip SAPp_SLIP.DROP p d else d
  sapFill p (d.sapPortMod p fun q => { q with outQ := (if full then q.outQ.drop 1 else q.outQ) ++ [w] })

/-- The wire reads a frame. -/
def outRead (p : Nat) (d : Dev) : List Nat × Dev :=
  match (d.port p).outQ with
  | w :: rest => (w, sapFill p (d.sapPortMod p fun q => { q with outQ := rest, outLast := w }))
  | [] => ((d.port p).outLast, slip SAPp_SLIP.REPEAT p d)

/-- The wire writes a frame; none is a damaged frame in GUARDED mode. -/
def inWrite (p : Nat) (w : Option (List Nat)) (d : Dev) : Dev :=
  let full := decide (4 ≤ (d.port p).inQ.length)
  let d := if full then slip SAPp_SLIP.DROP p d else d
  d.sapPortMod p fun q => { q with
    inQ := (if full then q.inQ.drop 1 else q.inQ) ++ [w], inPrev := w.getD q.inPrev }

/-- An input tick reads a frame. -/
def inRead (p : Nat) (d : Dev) : Option (List Nat) × Dev :=
  match (d.port p).inQ with
  | w :: rest => (w, d.sapPortMod p fun q => { q with inQ := rest, inLast := w })
  | [] => ((d.port p).inLast, slip SAPp_SLIP.REPEAT p d)

/-! ### Samples at a tick (R302 to R309) -/

/-- Where a tick takes place: the port (8 the speaker), its mode, fade length, law of stopping. -/
structure TickAt where
  p       : Nat
  guarded : Bool
  n       : Nat
  word    : Nat
  stop    : Bool

/-- Enter an underrun (output) or overrun (input) of channel k (R309). -/
def xrunEnter (dir : Bool) (p k : Nat) (d : Dev) : Dev :=
  if (d.ac dir k).xrun then d
  else
    let d := d.acMod dir k fun c => { c with xrun := true }
    let lo := if dir then SAP_IOVER_LO.CH else SAP_OUNDER_LO.CH
    let hi := if dir then SAP_IOVER_HI.CH else SAP_OUNDER_HI.CH
    let d := if k < 32 then d.putBitOf lo k true else d.putBitOf hi (k - 32) true
    if p < 8 then
      if dir then (d.sat (SAPp_XRUN.OVER p)).ev (SAPp_EVENT.OVERRUN p)
      else (d.sat (SAPp_XRUN.UNDER p)).ev (SAPp_EVENT.UNDERRUN p)
    else d

/-- The first sample of a buffer passes: SAMPLE_T of its descriptor (R304). -/
def noteSampleT (r : Nat) (mark : Option (Nat × Nat)) (t : Nat) (d : Dev) : Dev :=
  match mark with
  | none => d
  | some (cnt, pass) =>
    d.ringMod r fun x => { x with taken := x.taken.modify ((cnt + 65536 - x.cons) % 65536) fun y =>
      if y.pass = pass ∧ y.sampT = none then { y with sampT := some t } else y }

/-- Samples whose bytes lie in the 32 B from lo on, the first sample at o, become silence. -/
def silenced (cont codec lo : Nat) : Nat → List Staged → List Staged
  | _, [] => []
  | o, s :: rest =>
    (if decide (o < lo + 32) && decide (lo < o + s.bs.length) then { s with bs := Smp.zero.bytes cont codec } else s) ::
      silenced cont codec lo (o + s.bs.length) rest

/-- The cell of an audio channel is read (R217, R218): its errors are logged, and each 32 B that holds an uncorrectable one,
counted from the oldest sample held, becomes silence. -/
def audioRead (dir : Bool) (k : Nat) (d : Dev) : Dev :=
  let b := Buf.audio (!dir) ⟨k % 64, Nat.mod_lt _ (by decide)⟩
  let bad := d.pm.upsets.filter fun u => u.buf == b && u.double
  let d := (bufRead b d).2
  bad.foldl (fun d u => d.acMod dir k fun c => { c with cell := silenced c.cont c.codec (u.word.val / 4 * 32) 0 c.cell }) d

/-- The sample that an output channel plays at this tick: none when its cell is empty. The flag tells that a good Pegline
round follows an erased one. -/
def outTake (a : TickAt) (k : Nat) (d : Dev) : Option Smp × Bool × Dev :=
  let d := audioRead false k d
  let c := d.ac false k
  match c.src with
  | 0 =>
    match c.hold with
    | some t =>
      if d.nowExt < t then (some Smp.zero, false, d)
      else (match c.cell with
        | s :: rest =>
          let d := noteSampleT (audRing false k) s.mark d.now d
          (some (Smp.ofBytes c.cont c.codec s.bs), false, d.acMod false k fun c => { c with cell := rest, hold := none })
        | [] => (none, false, d))
    | none =>
      match c.cell with
      | s :: rest =>
        let d := noteSampleT (audRing false k) s.mark d.now d
        (some (Smp.ofBytes c.cont c.codec s.bs), false, d.acMod false k fun c => { c with cell := rest })
      | [] => (none, false, d)
  | 1 =>
    let (e, newEr, back) := c.era.enter (d.frameExt / 16) d.voiceLaw (d.voiceHanded c.vch)
    let d := d.acMod false k fun c => { c with era := e }
    let d := if newEr && a.p < 8 then (d.sat (SAPp_ERASE.ROUNDS a.p)).ev (SAPp_EVENT.ERASURE a.p) else d
    (some (e.sample a.guarded (d.frameExt % 16)), back, d)
  | _ => (some (if d.tplLocal (c.vch % 16) then Smp.zero else (d.lc (c.vch % 16)).play), false, d)

/-- Move the gain of a channel by one tick and show it (R309, R312). -/
def acGain (dir : Bool) (k n : Nat) (down restart : Bool) (d : Dev) : Nat × Dev :=
  let c := d.ac dir k
  let f := d.rd (fadeField dir k)
  let c := if restart then { c with gPos := 0 } else c
  let (f, c) := gainTick n down (if restart && !down then 2 else f) c
  (f, (d.wr (fadeField dir k) f).acMod dir k fun _ => c)

/-- A sample under the gain of a channel. -/
def Smp.gained (s : Smp) (fade : Nat) (c : AudCh) : Smp :=
  if fade = 0 then s else if fade = 2 then Smp.zero else s.scale c.gPos c.gLen

/-- An output channel at a tick: the sample its slot carries. -/
def outTick (a : TickAt) (k : Nat) (d : Dev) : Smp × Dev :=
  let (src, back, d) := outTake a k d
  let miss := src.isNone
  let d := if miss then xrunEnter false a.p k d else d.acMod false k fun c => { c with xrun := false }
  let c := d.ac false k
  let down := a.stop || decide (3 ≤ d.rd (runField false k)) || c.dip || (a.guarded && miss)
  let (f, d) := acGain false k a.n down back d
  let held := a.guarded && (miss || c.dip)
  let s := if held then Smp.lin c.last else src.getD Smp.zero
  let d := d.acMod false k fun c => { c with
    last := if held then c.last else s.x
    dip := c.dip && f != 2 }
  (s.gained f (d.ac false k), d)

/-- Deliver an input sample to a ring's cell, a Pegline voice channel or the bridge (R301, R308, R322). -/
def inDeliver (k : Nat) (s : Smp) (d : Dev) : Dev :=
  let c := d.ac true k
  match c.src with
  | 0 => d.acMod true k fun c => { c with cell := c.cell ++ [{ bs := s.bytes c.cont c.codec, t := d.now }], hold := none }
  | 1 => voiceTake c.vch (d.frameExt % 16) (s.enc d.voiceLaw) d
  | _ => d.when (!d.tplLocal (c.vch % 16)) (llbIn (c.vch % 16) d.frameExt s)

/-- An input channel at a tick: `w` is the port frame, none when the port is not locked or the frame is damaged. -/
def inTick (a : TickAt) (k : Nat) (w : Option (List Nat)) (d : Dev) : Dev :=
  let c := d.ac true k
  let early := match c.hold with
    | some t => decide (d.nowExt < t)
    | none => false
  let room := c.src != 0 || decide (c.used + contBytes c.cont ≤ 256)
  let miss := w.isNone
  let down := a.stop || decide (3 ≤ d.rd (runField true k)) || c.dip || (a.guarded && miss)
  let (f, d) := acGain true k a.n down (room && c.xrun && a.guarded) d
  let held := a.guarded && (miss || c.dip)
  let s := match w with
    | some ws => if held then Smp.lin c.last else Smp.ofWord c.codec a.word (ws.getD c.slot 0)
    | none => if held then Smp.lin c.last else Smp.zero
  let d := d.acMod true k fun c => { c with
    last := if held then c.last else s.x
    dip := c.dip && f != 2 }
  if early then d
  else if room then inDeliver k (s.gained f (d.ac true k)) (d.acMod true k fun c => { c with xrun := false })
  else xrunEnter true a.p k d

/-! ### Requests (R303) -/

/-- The source code of a port's PRQ line (Table 6.10). -/
def prqSource (dir : Bool) (p : Nat) : Nat := if p = 8 then 0x11 else (if dir then 9 else 1) + p

/-- The burst in bytes of the line that serves a source, if one is enabled. -/
def Dev.burstFor (d : Dev) (src : Nat) : Option Nat :=
  (d.host.prqMap.find? fun m => bits m 0 6 == src && bit m 9).map fun m => 16 * 2 ^ bits m 6 3

/-- Bytes of payload on their way to a ring's cell: reads wanted and outstanding, and requests not yet served. -/
def Dev.inFlight (d : Dev) (r burst : Nat) : Nat :=
  (d.host.wants.map fun w => if w.ring = r then w.len else 0).foldl (· + ·) 0 +
  (d.host.reads.map fun x => match x.use with
    | .pay q _ _ n => if q = r && !x.orphan then n else 0
    | _ => 0).foldl (· + ·) 0 +
  burst * (d.host.prq.map fun l => ((l.q ++ l.later).filter fun q => q.1 == r).length).foldl (· + ·) 0

/-- Channel k needs a burst: an output cell has room for a whole one, an input cell holds one (R303). -/
def Dev.needs (d : Dev) (dir : Bool) (k : Nat) : Bool :=
  let c := d.ac dir k
  match d.burstFor (prqSource dir c.port) with
  | none => false
  | some b =>
    c.src == 0 && d.acLive dir k && (d.ring (audRing dir k)).st == 2 &&
      (if dir then decide (b + d.inFlight (audRing dir k) b ≤ c.used)
       else decide (c.used + d.inFlight (audRing dir k) b + b ≤ 256))

/-- Note since when channel k has needed a burst. -/
def needNote (dir : Bool) (k : Nat) (d : Dev) : Dev :=
  let b := d.needs dir k
  d.acMod dir k fun c => { c with need := if b then some (c.need.getD d.nowExt) else none }

/-- The channel of a port and direction whose need has waited longest (R303), the lowest among equals. -/
def Dev.neediest (d : Dev) (dir : Bool) (p : Nat) : Option Nat :=
  let ks := (List.range 64).filter fun k => (d.ac dir k).port == p && (d.ac dir k).need.isSome && d.needs dir k
  ks.find? fun k => ks.all fun j => decide (((d.ac dir k).need.getD 0) ≤ ((d.ac dir j).need.getD 0))

/-! ### The tick (R298) -/

/-- Channels of a direction that run on port p. -/
def Dev.acRunning (d : Dev) (dir : Bool) (p : Nat) : List Nat :=
  (List.range 64).filter fun k => d.acLive dir k && (d.ac dir k).port == p

/-- A tick of port p at mote m: output channels fill a frame of the slip buffer, input channels take one. -/
def sapTick (p m : Nat) (d : Dev) : Dev :=
  let d := atMote m d
  let q := d.port p
  let i := d.tickIx q.hz
  if d.sapRun p < 2 ∨ q.tick = i then d
  else
    let d := d.sapPortMod p fun q => { q with tick := i }
    let a : TickAt := { p := p, guarded := q.guarded, n := fadeTicks (d.rd (SAPp_FADE.FADE_MS p)) q.hz, word := q.wordBits,
                        stop := decide (3 ≤ d.sapRun p) || d.sap.biv }
    let outs := d.acRunning false p
    let (ws, d) := outs.foldl (fun (ws, d) k =>
      let (s, d) := outTick a k d
      let c := d.ac false k
      (ws.set c.slot (s.word c.codec q.wordBits), d)) (List.replicate q.slots 0, d)
    let d := if !q.iec || d.on (SAP_IECq_CFG.TX_EN (p - 6)) then outWrite p ws d else d
    let (w, d) := if d.sapHears p then inRead p d else (none, d)
    let ins := d.acRunning true p
    let d := ins.foldl (fun d k => inTick a k w d) d
    ins.foldl (fun d k => needNote true k d) (outs.foldl (fun d k => needNote false k d) d)

/-! ### The wire (R297, R300, R306, R307, R310) -/

/-- The bits of a frame on the wire, first bit most significant. -/
def frameVal (q : SapPort) (ws : List Nat) : Nat :=
  ws.foldl (fun v w => v * 2 ^ q.slotBits + w / 2 ^ (32 - q.slotBits)) 0

/-- The slot words of a frame's bits. -/
def frameWords (q : SapPort) (v : Nat) : List Nat :=
  (List.range q.slots).map fun s => bits v ((q.slots - 1 - s) * q.slotBits) q.slotBits * 2 ^ (32 - q.slotBits)

/-- Take len bits from the output side, reading frames as the port's counter comes to them. -/
def txTake : Nat → Nat → Nat → Nat → Dev → Nat × Dev
  | 0, _, _, acc, d => (acc, d)
  | fuel + 1, p, len, acc, d =>
    if len = 0 then (acc, d)
    else
      let q := d.port p
      let (n, v) := q.txRest
      if n = 0 then
        let (ws, d) := outRead p d
        txTake fuel p len acc (d.sapPortMod p fun q => { q with txRest := (q.frameBits, frameVal q ws) })
      else
        let k := min n len
        txTake fuel p (len - k) (acc * 2 ^ k + v / 2 ^ (n - k))
          (d.sapPortMod p fun q => { q with txRest := (n - k, v % 2 ^ (n - k)) })

/-- Give received bits to the input side, which writes a frame each time its counter completes one. -/
def rxGive : Nat → Nat → Dev → Dev
  | 0, _, d => d
  | fuel + 1, p, d =>
    let q := d.port p
    let (n, v) := q.rxRest
    let t := q.frameBits
    if 0 < t ∧ t ≤ n then
      rxGive fuel p (inWrite p (some (frameWords q (v / 2 ^ (n - t)))) (d.sapPortMod p fun q => { q with rxRest := (n - t, v % 2 ^ (n - t)) }))
    else d

/-- The slots that TXD drives: all, or with TXD_HIZ those that carry an ON output channel (R297). -/
def Dev.driven (d : Dev) (p : Nat) : Nat :=
  let q := d.port p
  if q.hiz then (d.acRunning false p).foldl (fun m k => m ||| 2 ^ (d.ac false k).slot) 0 else 2 ^ q.slots - 1

/-- len bits pass on the wire of a serial port. -/
def wireBits (p len v : Nat) (d : Dev) : Dev :=
  let (out, d) := txTake (2 * len + 2) p len 0 d
  let d := d.emit (.sap p len (d.driven p) out (d.port p).clocks)
  rxGive (len + 2) p (d.sapPortMod p fun q => { q with rxRest := (q.rxRest.1 + len, q.rxRest.2 * 2 ^ len + v % 2 ^ len) })

/-- Bytes of a channel-status block, bit b of byte n being status bit 8n + b. -/
def csBytes (bs : List Bool) : Bytes :=
  (List.range 24).map fun n => BitVec.ofNat 8 ((List.range 8).foldl (fun v b => v + if bs.getD (8 * n + b) false then 2 ^ b else 0) 0)

/-- The AES3 CRCC over bytes 0 to 22: x^8 + x^4 + x^3 + x^2 + 1, initial value 0xFF, bit 0 of each byte first (R306). -/
def crcc (bs : Bytes) : Nat :=
  (bs.take 23).foldl (fun c b =>
    (List.range 8).foldl (fun c _ => if c % 2 = 1 then (c / 2) ^^^ 0xB8 else c / 2) (c ^^^ b.toNat)) 0xFF

/-- The channel status that the transmitter sends, as SAP_IECq_CS_TX and CS_CRC stand (R306). -/
def Dev.csOut (d : Dev) (q : Nat) : Bytes :=
  let bs := (List.range 6).flatMap fun k => leBytes 4 (d.rd (SAP_IECq_CS_TXk.BYTES q k))
  if d.on (SAP_IECq_CFG.CS_CRC q) then bs.set 23 (BitVec.ofNat 8 (crcc bs)) else bs

/-- Time slots 4 to 31 of a subframe as bits 0 to 27 (R306). -/
def subframe (word v c : Nat) (wordBits : Nat) : Nat :=
  let a := if wordBits ≤ 20 then word / 2 ^ 12 * 16 else word / 256
  let x := a + v * 2 ^ 24 + c * 2 ^ 26
  let ones := (List.range 27).foldl (fun n i => n + x / 2 ^ i % 2) 0
  x + ones % 2 * 2 ^ 27

/-- The transmitter sends a frame (R306). -/
def iecSend (p : Nat) (d : Dev) : Dev :=
  let k := p - 6
  let (ws, d) := outRead p d
  let d := if (d.port p).txIdx = 0 then d.sapPortMod p fun q => { q with csTx := d.csOut k } else d
  let q := d.port p
  let c := byteAt q.csTx (q.txIdx / 8) / 2 ^ (q.txIdx % 8) % 2
  let v := d.rd (SAP_IECq_CFG.V_TX k)
  (d.emit (.iec p (q.txIdx == 0) (subframe (ws.getD 0 0) v c q.wordBits) (subframe (ws.getD 1 0) v c q.wordBits))).sapPortMod p
    fun q => { q with txIdx := (q.txIdx + 1) % 192 }

/-- Damaged subframes are counted (R307). -/
def iecErr (p n : Nat) (d : Dev) : Dev := if n = 0 then d else (d.sat (SAPp_ERR.IEC_ERR p) n).ev (SAPp_EVENT.IEC_ERR p)

/-- The receiver takes a frame (R307): a damaged one is replaced by the frame before it (RAW), or fades (GUARDED). -/
def iecTake (p : Nat) (block : Bool) (a b : IecSub) (d : Dev) : Dev :=
  let erase := d.on (SAP_IECq_CFG.RX_V_ERASE (p - 6))
  let bad (s : IecSub) : Bool := s.bad || (erase && s.v)
  let n := (if bad a then 1 else 0) + (if bad b then 1 else 0)
  let d := iecErr p n d
  let d := d.sapPortMod p fun q => { q with
    csA := (if block then [] else q.csA) ++ [a.c], csB := (if block then [] else q.csB) ++ [b.c] }
  let q := d.port p
  if n = 0 then inWrite p (some [a.audio.toNat * 256, b.audio.toNat * 256]) d
  else inWrite p (if q.guarded then none else some q.inPrev) d

/-- A received block ends: its channel status is stored (R307). -/
def iecBlockEnd (p : Nat) (d : Dev) : Dev :=
  let k := p - 6
  let q := d.port p
  if d.sapHears p && q.iec && q.csA.length == 192 then
    let a := csBytes q.csA
    let b := csBytes q.csB
    let old := (List.range 6).flatMap (fun j => leBytes 4 (d.rd (SAP_IECq_CS_RXAk.BYTES k j))) ++
      (List.range 6).flatMap fun j => leBytes 4 (d.rd (SAP_IECq_CS_RXBk.BYTES k j))
    let d := forN 6 (fun j d =>
      (d.wr (SAP_IECq_CS_RXAk.BYTES k j) (leNat (slice a (4 * j) 4))).wr (SAP_IECq_CS_RXBk.BYTES k j) (leNat (slice b (4 * j) 4))) d
    let d := d.evIf (old != a ++ b) (SAPp_EVENT.CS_CHANGE p)
    let bad (x : Bytes) : Nat := if byteAt x 0 % 2 = 1 ∧ byteAt x 23 ≠ crcc x then 1 else 0
    (iecErr p (bad a + bad b) d).sapPortMod p fun q => { q with csA := [], csB := [] }
  else d

/-- A port frame passes on the wire (R297, R300, R306). -/
def sapWireFrame (p : Nat) (w : SapWire) (d : Dev) : Dev :=
  let q := d.port p
  if d.sapRun p < 2 then d
  else match w with
    | .serial v => if !q.iec && d.sapHears p then wireBits p q.frameBits v d else d
    | .iec tx rx =>
      if q.iec then
        let d := if tx && d.on (SAP_IECq_CFG.TX_EN (p - 6)) then iecSend p d else d
        match rx with
        | some (block, a, b) => if d.sapHears p then iecTake p block a b d else d
        | none => d
      else d

/-- A port frame of len bits, the wrong length, arrives at a slave (R310). -/
def partialFrame (p len v : Nat) (d : Dev) : Dev :=
  let q := d.port p
  if d.sapRun p < 2 ∨ q.iec ∨ q.master ∨ len = q.frameBits then d
  else
    let d := (d.sat (SAPp_ERR.PARTIAL p)).ev (SAPp_EVENT.PARTIAL p)
    if !d.on (SAPp_STATUS.LOCKED p) then d
    else if q.guarded then
      let (out, d) := txTake (2 * len + 2) p len 0 d
      let d := (d.emit (.sap p len (d.driven p) out none)).sapPortMod p fun q => { q with txRest := (0, 0), rxRest := (0, 0) }
      [false, true].foldl (fun d dir => (d.acRunning dir p).foldl (fun d k => d.acMod dir k fun c => { c with dip := true }) d) d
    else
      let d := wireBits p len v d
      if (d.port p).rxRest.1 / q.slotBits ≠ 0 ∧ !d.on (SAPp_STATUS.ALIGN_LOST p) then
        (d.wrB (SAPp_STATUS.ALIGN_LOST p) true).ev (SAPp_EVENT.ALIGN_LOST p)
      else d

/-! ### Domain and tier (R313, R103) -/

/-- The announce of a step into Bivouac, or its cancel: every ON channel fades out, or ramps in again. -/
def sapBiv (b : Bool) (d : Dev) : Dev := { d with sap := { d.sap with biv := b } }

/-- PD5 is switched off: ports and channels OFF, their enables kept. -/
def sapOff (d : Dev) : Dev :=
  let d := forN 8 (fun p d => (((d.wr (SAPp_STATUS.RUN p) 0).wrB (SAPp_STATUS.LOCKED p) false).wr (SAPp_STATUS.FILL p) 0)) d
  let d := [false, true].foldl (fun d dir => forN 64 (fun k d => (d.wr (runField dir k) 0).wr (fadeField dir k) 0) d) d
  { d with sap := { law := d.sap.law } }

/-- PD5 is powered: every enabled port and channel passes through STARTING. -/
def sapOn (d : Dev) : Dev :=
  let d := [false, true].foldl (fun d dir =>
    forN 64 (fun k d => if d.on (enField dir k) then setAcRun dir k (runEnable true (d.rd (runField dir k))) d else d) d) d
  forN 8 (fun p d => if d.on (SAPp_CTRL.EN p) then setSapRun p (runEnable true (d.sapRun p)) d else d) d

end Sys2Proof.Machine
end

