-- ==== Sys2Proof/Machine/DmaOps.lean ====
section
/-!
DEFINITION. Machine/DmaOps.lean: read completions, transmit frames from rings, audio bursts, request lines, ring stops and
the mailbox (spec/06_descriptor_rings_and_dma.md, R130 to R152; spec/05 R106, R121).
-/

namespace Sys2Proof.Machine

/-! ### Transmit frames (R137, R138) -/

/-- Fields of a TX descriptor (Table 6.3). -/
def Desc.len (y : Desc) : Nat := bits (y.dw 2) 0 16
def Desc.sop (y : Desc) : Bool := bit (y.dw 2) 16
def Desc.eop (y : Desc) : Bool := bit (y.dw 2) 17

/-- A TX descriptor keeps Table 6.3. -/
def txDescOk (y : Desc) : Bool :=
  decide (1 ≤ y.len ∧ y.len ≤ 16383) && bits (y.dw 2) 24 8 == 0 && bits (y.dw 7) 16 14 == 0

/-- What the descriptors not begun say: no whole frame yet, n of them to return with a status, or a frame of n. -/
inductive TxRun where
  | wait
  | bad (n status : Nat)
  | good (n : Nat)
  deriving DecidableEq, Repr

/-- A frame of n descriptors, from SOP to EOP. -/
def txWhole (ys : List Desc) (n : Nat) : TxRun :=
  if 16 < n then .bad n 13 else if (ys.take n).all txDescOk then .good n else .bad n 5

/-- The frame at the front of the descriptors not begun. -/
def txRun (ys : List Desc) : TxRun :=
  match ys with
  | [] => .wait
  | y :: rest =>
    if !y.sop then .bad 1 5
    else
      match ys.findIdx? (·.eop), (rest.findIdx? (·.sop)).map (· + 1) with
      | some e, some s => if s ≤ e then .bad s 5 else txWhole ys (e + 1)
      | some e, none => txWhole ys (e + 1)
      | none, some s => .bad s 5
      | none, none => if 16 < ys.length then .bad ys.length 13 else .wait

/-- Begin a descriptor whose payload is read whole. -/
def beginRead (r i : Nat) (d : Dev) : Dev :=
  let x := d.ring r
  let y := x.taken.getD i {}
  wantPayload r ((x.cons + i) % 65536) y.addr 0 y.len
    (d.setRing r { x with taken := x.taken.set i { y with begun := true, need := y.len } })

/-- Begin the frames of a TX ring whose descriptors have all been fetched. -/
def txScan : Nat → Nat → Dev → Dev
  | 0, _, d => d
  | fuel + 1, r, d =>
    let x := d.ring r
    match x.taken.findIdx? (fun y => !y.begun) with
    | none => d
    | some i =>
      match txRun (x.taken.drop i) with
      | .wait => d
      | .bad n st => txScan fuel r (finishRun r ((x.cons + i) % 65536) n st d)
      | .good n => txScan fuel r ((List.range n).foldl (fun d k => beginRead r (i + k) d) d)

/-- The first frame of a TX ring that is wholly read and has not entered packet memory: its index and descriptors. -/
def Ring.txReady (x : Ring) : Option (Nat × List Desc) :=
  match x.taken.findIdx? (fun y => y.begun && !y.done && !y.entered) with
  | none => none
  | some i =>
    let ys := x.taken.drop i
    let n := (ys.findIdx (·.eop)) + 1
    let run := ys.take n
    if run.all (fun y => y.begun && y.need == 0) then some (i, run) else none

/-- What becomes of the launch time of a frame (R138): the era-extended time, nothing to wait for, or a refusal. -/
inductive Launch where
  | at_ (t : Option Nat)
  | invalid
  | late
  deriving DecidableEq, Repr

/-- The launch time of a SOP descriptor, extended against its fetch (R36, R138). -/
def Dev.launchOf (d : Dev) (y : Desc) : Launch :=
  if !bit (y.dw 2) 20 then .at_ none
  else if !d.valid then .invalid
  else
    let t := extend32 y.t (y.dw 3)
    if t < (d.nowExt : Int) then .late else .at_ (some t.toNat)

/-- Channels that a decision names. -/
def maskList (m : Nat) : List Nat := [0, 1, 2, 3].filter fun n => bit m n

/-- The egress channel that a decision names for the write-back of a frame that has not been sent: the lowest (assumption
log 67). -/
def egressCh (q : Decision) : Nat := if q.kind = 0 then (maskList q.mask).headD 0 else 0

/-- A host frame goes to a ring of a function (R185). -/
def txToHost (x : Frm) (q : Decision) (d : Dev) : Dev :=
  match d.hostFate q with
  | .bad => dropWhole x (rxBad q true ((d.sat CLS_HOST_BAD.COUNT).ev CLS_EVENT.HOST_BAD))
  | .kennel => dropWhole x (d.sat HIF_KENNEL_DROP.FRAMES)
  | .d3 => dropWhole x (vfEvent q.fn 0 d)
  | .ring r => flowUpdate (rxQueue r x d)

/-- A frame of ring r enters packet memory with its decision (R138, R162, R185, R202, R226, R227). It waits where no cells
are free or the best-effort limit stands. -/
def txEnter (r i : Nat) (run : List Desc) (d : Dev) : Dev :=
  let x := d.ring r
  let y := run.headD {}
  let c := (x.cons + i) % 65536
  let f := (d.ringFn r).getD 0
  let body := run.flatMap Desc.payload
  let data := if bit (y.dw 2) 18 then body else body ++ leBytes 4 (crc32 body)
  let n := cellsFor data.length
  let direct : Decision := { kind := 0, mask := 2 ^ (x.dest - 1), tc := bits (y.dw 2) 21 3 }
  let (q, dl) := if x.dest = 0 then lookup 5 data d else (direct, d)
  match d.alloc data.length with
  | none => d
  | some cells =>
    let guar := d.isGuar q n
    if !guar && d.beFull n then d
    else
      match dl.launchOf y with
      | .invalid => finishOn (egressCh q) r c run.length 4 ((maskList (if q.kind = 0 then q.mask else 0)).foldl (fun d n => stat n 39 1 d) dl)
      | .late => finishOn (egressCh q) r c run.length 3 ((maskList (if q.kind = 0 then q.mask else 0)).foldl (fun d n => stat n 41 1 d) dl)
      | .at_ t =>
        let (o, d) := if x.dest = 0 then freDecide 5 none q data dl else (⟨true, data, none⟩, dl)
        let (id, d) := newId d
        let long := q.kind = 0 && (maskList q.mask).all fun k => decide (d.rd (CHn_MAX_LEN.MAX k) < o.data.length)
        let early := x.earlyWb && !bit (y.dw 2) 19 && !long
        let frm : Frm := { id := id, data := o.data, src := 5, tc := q.tc, dec := { q with sgen := o.sgen }, cells := cells,
                           guar := guar, launch := t, host := some (r, c, if early then 0 else run.length),
                           tsReq := bit (y.dw 2) 19, fn := some (f, d.epoch f) }
        let d := d.ringMod r fun x => { x with taken := ((List.range x.taken.length).zip x.taken).map fun (j, z) =>
          if i ≤ j ∧ j < i + run.length then { z with entered := true, got := [] } else z }
        let d := dmaWork n (writeCells cells d)
        let d := if early then finishOn (egressCh q) r c run.length 0 d else d
        if !o.pass then dropWhole frm d
        else match q.kind with
          | 0 => routeMask frm d
          | 1 => txToHost frm q d
          | 2 => dropWhole frm d
          | _ => flowQueue q.flow frm d

/-- Let the frames of a TX ring that are wholly read enter packet memory. -/
def txGo : Nat → Nat → Dev → Dev
  | 0, _, d => d
  | fuel + 1, r, d =>
    match (d.ring r).txReady with
    | none => d
    | some (i, run) =>
      let d' := txEnter r i run d
      if (d'.ring r).txReady = some (i, run) then d else txGo fuel r d'

/-- Every TX ring tries. -/
def txRetry (d : Dev) : Dev :=
  ((d.host.rings.map (·.1)).filter fun r => r < 128).foldl (fun d r => txGo ((d.ring r).taken.length + 1) r d) d

/-- A frame of ring r from count c, n descriptors long, is still held somewhere. -/
def Dev.txHeld (d : Dev) (r c n : Nat) : Bool := d.held.any fun x => x.host == some (r, c, n)

/-- Return the frames of ring r that have left packet memory another way than over a channel: into a host ring or a
Pegline slot (R138). -/
def txSweep1 (r : Nat) (d : Dev) : Dev :=
  (List.range (d.ring r).taken.length).foldl (fun d _ =>
    let x := d.ring r
    match x.taken.findIdx? (fun y => y.entered && !y.done && y.sop && true) with
    | none => d
    | some i =>
      let n := (x.taken.drop i).findIdx (·.eop) + 1
      let c := (x.cons + i) % 65536
      if d.txHeld r c n then d else ringQuiesce r (finishRun r c n 0 d)) d

/-- Every TX ring returns what has left. -/
def txSweep (d : Dev) : Dev := ((d.host.rings.map (·.1)).filter fun r => r < 128).foldl (fun d r => txSweep1 r d) d

/-! ### Audio rings (R143, R144, R303, R304) -/

/-- Direction and channel of an audio ring. -/
def audDir (r : Nat) : Bool := decide (320 ≤ r)
def audCh (r : Nat) : Nat := if r < 320 then r - 256 else r - 320

/-- The map of an audio ring's channel: as read at STARTING, or its register's while the channel is OFF (R301). -/
def Dev.audMap (d : Dev) (r : Nat) : Nat :=
  if d.rd (runField (audDir r) (audCh r)) = 0 then d.mapWord (audDir r) (audCh r) else (d.ac (audDir r) (audCh r)).map

/-- Port of an audio ring's channel. -/
def Dev.audPort (d : Dev) (r : Nat) : Nat := bits (d.audMap r) 3 4

/-- Bytes of a sample of an audio ring. -/
def Dev.audSample (d : Dev) (r : Nat) : Nat := contBytes (bits (d.audMap r) 11 2)

/-- An audio ring's port and direction have an enabled line in force (R150). -/
def Dev.audMapped (d : Dev) (r : Nat) : Bool := d.prqFor (prqSource (audDir r) (d.audPort r))

/-- Audio rings in STARTING whose line is mapped become ON. -/
def audStarts (d : Dev) : Dev :=
  pump (((d.host.rings.map (·.1)).filter fun r => ringKind r == 2 || ringKind r == 3).foldl
    (fun d r => ringStart (d.audMapped r) r d) d)

/-- An audio descriptor keeps Table 6.5; `first` for the first after the ring started. -/
def audDescOk (sample : Nat) (first : Bool) (y : Desc) : Bool :=
  y.addr % 4 == 0 && decide (16 ≤ y.len ∧ y.len ≤ 65532) && y.len % max 1 sample == 0 && bits (y.dw 2) 19 13 == 0 &&
  bits (y.dw 7) 16 14 == 0 && (first || !bit (y.dw 2) 18)

/-- Ring r stops: no further fetch; unissued payload reads of frames not begun on a wire and of audio bursts go. -/
def ringHalt (r : Nat) (d : Dev) : Dev := d.ringMod r fun x => { x with st := runDisable x.st }

/-- Frames of TX ring r that are queued, not begun on a wire. -/
def Dev.queuedOf (d : Dev) (r : Nat) (x : Frm) : Bool :=
  match x.host with
  | some (q, _, _) => q == r && !(d.chan.any fun c => (wireFrm c.cur ++ wireFrm c.pre).any fun y => y.id == x.id)
  | none => false

/-- A TX ring stops (R150): what has not begun on a wire is dropped and returned DROPPED. -/
def txStop (r : Nat) (d : Dev) : Dev :=
  let d := withdraw r (fun _ => true) d
  let xs := d.frames.filter (d.queuedOf r)
  let ids := xs.map (·.id)
  let gone (x : Frm) : Bool := ids.contains x.id
  let d := { d with
    chan := d.chan.map fun (c : Chan) => { c with queues := c.queues.map fun (q : List Frm) => q.filter fun x => !gone x }
    host := { d.host with rings := d.host.rings.map fun (q : Nat × Ring) =>
      (q.1, { q.2 with rxq := q.2.rxq.filter fun it => it.n != 0 || !gone it.frm }) }
    peg := { d.peg with flowq := d.peg.flowq.filter fun (x : Nat × Frm) => !gone x.2 } }
  let part := (((d.ring r).taken.filter fun y => y.begun && !y.done && !y.entered && y.sop)).length
  let n := xs.length + part
  let d := xs.foldl (fun d x => dropWhole x d) d
  let x := d.ring r
  let d := d.setRing r { x with taken := x.taken.map fun y => if y.begun && !y.done && !y.entered then y.finish 4 x.chan else y }
  let d := retire r d
  if n = 0 then d else (d.sat DMA_DISABLE_DROP.COUNT n).ev DMA_EVENT.DISABLE_DROP

/-- An RX ring stops: every frame that waits for it is dropped (R142, R150). -/
def rxStop (r : Nat) (d : Dev) : Dev :=
  pmemSync ((List.range (d.ring r).rxq.length).foldl (fun d _ => rxDrop 1 r d) d)

/-- The first waiting write of ring r goes out, n bytes of it. -/
def outBurst (n r : Nat) (d : Dev) : Dev :=
  match d.host.outq.find? (fun w => w.ring == r) with
  | none => d
  | some w =>
    let rest := w.bs.drop n
    let d := payWrite w.fn w.addr (w.bs.take n) w.relaxed d
    let d := d.hostMod fun h => { h with
      outq := if rest.isEmpty then h.outq.erase w
        else h.outq.map fun x => if x = w then { x with addr := x.addr + n, bs := rest } else x }
    if d.outWaits r then d else retire r d

/-- Every write that waits for ring r goes out: no request will be served for it any more. -/
def flushRing (r : Nat) (d : Dev) : Dev :=
  match d.ringFn r with
  | some f => if d.fnLive f then d.host.outq.foldl (fun d w => if w.ring = r then outBurst w.bs.length r d else d) d else d
  | none => d

/-- What follows when ring r enters STOPPING (R150). -/
def ringStopGo (r : Nat) (d : Dev) : Dev :=
  match ringKind r with
  | 0 => txStop r d
  | 1 => rxStop r d
  | 2 | 3 => d.hostMod fun h => { h with prq := h.prq.map fun l =>
      { l with q := l.q.filter fun e => e.1 != r, later := l.later.filter fun e => e.1 != r } }
  | 4 => flushRing r (if d.cmpDraining (fun q => q == r) then cmpStopCause 2 d else d)
  | 5 => msgRingStop r (msgSettle (flushRing r d))
  | _ => d

/-- Ring r is disabled: STOPPING from STARTING or ON, the pending start cancelled (Table 4.10). -/
def ringDisable (r : Nat) (d : Dev) : Dev :=
  let was := (d.ring r).st
  let d := ringHalt r d
  if was = 1 ∨ was = 2 then ringStopGo r d else d

/-- A ring stops with ERR set. -/
def ringErrStop (r : Nat) (d : Dev) : Dev := ringDisable r (d.ringMod r fun x => { x with err := true })

/-- A status write into a descriptor that stays with the part (R143, R144): it waits while its function issues no request. -/
def statusOut (r f addr : Nat) (bs : Bytes) (d : Dev) : Dev :=
  if d.fnState f = 1 ∧ (!d.fnLive f ∨ d.outWaits r) then
    d.hostMod fun h => { h with outq := h.outq ++ [{ ring := r, fn := f, addr := addr, bs := bs, relaxed := false }] }
  else hostWrite f addr bs false d

/-- A buffer write-back of an audio descriptor: dwords 4 to 6. -/
def audWords (status t pass : Nat) (half full : Bool) (y : Desc) : Desc :=
  { y with w := [y.dw 0, y.dw 1, y.dw 2, y.dw 3, t % 2 ^ 32, t / 2 ^ 32 % 2 ^ 32,
                 status + 16 * b2n half + 32 * b2n full + pass % 65536 * 2 ^ 16, y.dw 7] }

/-- Check a fetched audio descriptor at index i; the first of a started ring may carry START (R143, R304). -/
def audTake (r i : Nat) (d : Dev) : Dev :=
  let x := d.ring r
  let y := x.taken.getD i {}
  let first := x.fresh
  let d := d.setRing r { x with fresh := false, taken := x.taken.set i { y with w := y.w.set 6 0 } }
  if audDescOk (d.audSample r) first y then
    if bit (y.dw 2) 18 then
      let t := extend32 y.t (y.dw 3)
      if t < (y.t : Int) then d.ringMod r fun x => { x with taken := x.taken.modify i fun y => { y with w := y.w.set 6 3 } }
      else d.acMod (audDir r) (audCh r) fun c => { c with hold := some t.toNat }
    else d
  else if x.cyclic then
    let d := match d.ringFn r with
      | some f => statusOut r f (x.at ((x.cons + i) % 65536) + 24) (leBytes 4 5) d
      | none => d
    ringErrStop r d
  else finishRun r ((x.cons + i) % 65536) 1 5 d

/-- The descriptor that takes the next burst (R144): in cyclic mode the first that is a pass behind the ring's first one,
else the first whose bytes are not all asked for. -/
def Ring.audCur (x : Ring) : Option Nat :=
  let more (y : Desc) : Bool := !y.done && decide (y.need < y.len)
  let p := (x.taken.headD {}).pass
  match (if x.cyclic then x.taken.findIdx? (fun y => more y && y.pass != p) else none) with
  | some i => some i
  | none => x.taken.findIdx? more

/-- Samples of contiguous output bytes that have arrived go to the channel's cell. -/
def audArrive : Nat → Nat → Nat → Dev → Dev
  | 0, _, _, d => d
  | fuel + 1, r, i, d =>
    let x := d.ring r
    let y := x.taken.getD i {}
    match y.got.find? (fun g => g.1 == y.pos) with
    | none => d
    | some (o, bs) =>
      let s := max 1 (d.audSample r)
      let new := (List.range (bs.length / s)).map fun k =>
        ({ bs := slice bs (s * k) s, mark := if o = 0 ∧ k = 0 then some ((x.cons + i) % 65536, y.pass) else none } : Staged)
      let d := d.acMod false (audCh r) fun c => { c with cell := c.cell ++ new }
      let y' := { y with pos := y.pos + bs.length, got := y.got.erase (o, bs) }
      if bs.isEmpty then d else audArrive fuel r i (d.setRing r { x with taken := x.taken.set i y' })

/-- Return a stream buffer with a status, or go on behind it in cyclic mode (R144). -/
def audFull (r i status : Nat) (d : Dev) : Dev :=
  let x := d.ring r
  let y := x.taken.getD i {}
  let (t, d) := match y.sampT with
    | some t => (t, d)
    | none => d.draw
  match d.ringFn r with
  | none => d
  | some f =>
    let st := if status = 0 then bits (y.dw 6) 0 4 else status
    let y' := audWords st t (if x.cyclic then y.pass else 0) true true y
    if x.cyclic then
      let d := statusOut r f (x.at ((x.cons + i) % 65536) + 16) (y'.bytes 4 7) d
      let z : Desc := { y with w := y.w.set 6 0, need := 0, pos := 0, half := false, got := [], sampT := none,
                               pass := (y.pass + 1) % 65536 }
      let d := d.setRing r { x with taken := x.taken.set i z }
      if bit (y.dw 2) 17 || (bit (y.dw 2) 16 && !y.half) then ringMsg r d else d
    else
      let d := retire r (d.setRing r { x with taken := x.taken.set i { y' with begun := true, done := true } })
      if (bit (y.dw 2) 17 || (bit (y.dw 2) 16 && !y.half)) && !bit (y.dw 7) 30 then ringMsg r d else d

/-- The descriptor at a point: begun, with its bytes moved. -/
def Ring.audAt (x : Ring) (p : Desc → Bool) : Option Nat := x.taken.findIdx? fun y => !y.done && y.begun && p y

/-- The half point of a buffer, a whole number of samples. -/
def Desc.halfAt (s : Nat) (y : Desc) : Nat := y.len / 2 / max 1 s * max 1 s

/-- The half point of a HALF_IRQ buffer is reached (R144). -/
def audHalfPoint (r : Nat) (d : Dev) : Dev :=
  let x := d.ring r
  let s := d.audSample r
  match x.audAt (fun y => bit (y.dw 2) 16 && !y.half && decide (y.halfAt s ≤ y.pos) && decide (y.pos < y.len)), d.ringFn r with
  | some i, some f =>
    let y := x.taken.getD i {}
    let w6 := bits (y.dw 6) 0 4 + 16 + (if x.cyclic then y.pass * 2 ^ 16 else 0)
    let d := statusOut r f (x.at ((x.cons + i) % 65536) + 24) (leBytes 4 w6) d
    ringMsg r (d.setRing r { x with taken := x.taken.set i { y with half := true } })
  | _, _ => d

/-- The full point of a buffer is reached (R144). -/
def audFullPoint (r : Nat) (d : Dev) : Dev :=
  match (d.ring r).audAt (fun y => decide (y.len ≤ y.pos)) with
  | some i => pump (audFull r i 0 d)
  | none => d

/-! ### Request lines (R151, R152) -/

/-- A ring's request can be served now: a burst moves (R151). -/
def prqBurst (burst r : Nat) (d : Dev) : Option Dev :=
  let x := d.ring r
  match x.audCur, d.ringFn r with
  | some i, some f =>
    let y := x.taken.getD i {}
    let c := (x.cons + i) % 65536
    if audDir r then
      let d := audioRead true (audCh r) d
      let ch := d.ac true (audCh r)
      let s := max 1 (d.audSample r)
      let n := min (min burst (y.len - y.pos)) ch.used / s
      if n = 0 || !d.fnLive f then none
      else
        let xs := ch.cell.take n
        let bs := xs.flatMap (·.bs)
        let d := hostOut r f (y.addr + y.pos) bs d
        let d := d.acMod true (audCh r) fun c => { c with cell := c.cell.drop n }
        let y' := { y with begun := true, pos := y.pos + bs.length, need := y.pos + bs.length
                           sampT := if y.pos = 0 then xs.head?.map (·.t) else y.sampT }
        some (needNote true (audCh r) (d.setRing r { x with taken := x.taken.set i y' }))
    else if !d.fnLive f || !d.tagFree f then none
    else
      let n := min burst (y.len - y.need)
      let old := d.host.wants
      let d := d.hostMod fun h => { h with wants := [] }
      let d := wantPayload r c (y.addr + y.need) y.need n d
      let d := d.hostMod fun h => { h with wants := h.wants ++ old }
      some (issueWants d.host.wants.length (d.setRing r { x with taken := x.taken.set i { y with begun := true, need := y.need + n } }))
  | _, _ => none

/-- A burst of the reads of ring r, which a line paces: the first that waits, n bytes of it (R151). -/
def readBurst (n r : Nat) (d : Dev) : Option Dev :=
  match d.host.wants.find? (fun w => w.ring == r), d.ringFn r with
  | some w, some f =>
    if !d.fnLive f || !d.tagFree f then none
    else
      let k := min n w.len
      let d := d.hostMod fun h => { h with
        wants := if k = w.len then h.wants.erase w
          else h.wants.map fun x => if x = w then { x with off := x.off + k, addr := x.addr + k, len := x.len - k } else x }
      some (issue f w.addr k (.pay r w.cnt w.off k) d)
  | _, _ => none

/-- A burst of the writes of ring r, which a line paces. -/
def writeBurst (n r : Nat) (d : Dev) : Option Dev :=
  match d.ringFn r with
  | some f => if d.fnLive f && d.outWaits r then some (msgSettle (outBurst n r d)) else none
  | none => none

/-- A request of a line with map m for ring r moves its burst, where it can be served now (R151). -/
def moveBurst (m r : Nat) (d : Dev) : Option Dev :=
  let n := 16 * 2 ^ bits m 6 3
  match bits m 0 6 with
  | 0x12 | 0x14 => readBurst n r d
  | 0x13 | 0x15 => writeBurst n r d
  | _ => prqBurst n r d

/-- Show which lines hold requests. -/
def prqShow (d : Dev) : Dev :=
  d.wr DMA_STATUS.PRQ_PEND (((List.range 16).map fun k =>
    let l := d.host.prq.getD k {}
    if l.q.isEmpty && l.later.isEmpty then 0 else 2 ^ k).foldl (· + ·) 0)

/-- Replace the requests of line k. -/
def setPrq (k : Nat) (q : List (Nat × Nat)) (d : Dev) : Dev :=
  prqShow (d.hostMod fun h => { h with prq := h.prq.modify k fun l => { l with q := q } })

/-- The ring can be served: ON, its function ACTIVE (R152). -/
def Dev.ringLive (d : Dev) (r : Nat) : Bool :=
  (d.ring r).st == 2 && (match d.ringFn r with | some f => d.fnState f == 1 | none => false)

/-- Serve the oldest request of line k that can be served; those of a ring that is not ON are dropped (R152). -/
def prqOne (k : Nat) (d : Dev) : Dev :=
  let l := d.host.prq.getD k {}
  let q := l.q.filter fun e => d.ringLive e.1
  let d := if q.length = l.q.length then d else setPrq k q d
  let m := d.host.prqMap.getD k 0
  match q.findSome? (fun e => (moveBurst m e.1 d).map fun d' => (e, d')) with
  | some ((r, t), d) =>
    let lat := min ((d.nowExt - t) / 16) 65535
    let d := d.wr DMA_PRQ_LAT_MAX.CLK (max (d.rd DMA_PRQ_LAT_MAX.CLK) lat)
    setPrq k (q.erase (r, t)) (d.hostMod fun h => { h with prqLast := k })
  | none => d

/-- The lines are served in round-robin order, one request each in turn (R152). -/
def prqAll (d : Dev) : Dev :=
  forN 4 (fun _ d =>
    let last := d.host.prqLast
    (List.range 16).foldl (fun d i => prqOne ((last + 1 + i) % 16) d) d) d

/-- A peripheral raises a request on line k for ring r (R151, R152, R303): an audio source names the ring of the channel
that has waited longest. Behind a map that waits to take effect the request waits as well. -/
def prqRequest (k r m : Nat) (d : Dev) : Dev :=
  let d := atMote m d
  let l := d.host.prq.getD k {}
  let map := l.map.getD (d.host.prqMap.getD k 0)
  let src := bits map 0 6
  let mine := match ringKind r with
    | 2 | 3 => src == prqSource (audDir r) (d.audPort r) && d.neediest (audDir r) (d.audPort r) == some (audCh r)
    | 4 => src == 0x12 || src == 0x13
    | 5 => src == (if (d.ring r).dir then 0x15 else 0x14)
    | _ => false
  if !bit map 9 || !mine || !d.pd 1 || !d.ringLive r then d
  else if 4 ≤ l.q.length + l.later.length then
    ((d.sat DMA_PRQ_OVF_CNT.COUNT).wr DMA_PRQ_OVF_CNT.LINE k).ev DMA_EVENT.PRQ_OVF
  else if l.map.isSome then
    prqShow (d.hostMod fun h => { h with prq := h.prq.modify k fun l => { l with later := l.later ++ [(r, d.nowExt)] } })
  else prqAll (setPrq k (l.q ++ [(r, d.nowExt)]) d)

/-- A write of DMA_PRQ_MAPk waits until the line's requests are served (R152). -/
def prqMapWrite (k v : Nat) (d : Dev) : Dev :=
  d.hostMod fun h => { h with prq := h.prq.modify k fun l => { l with map := some v } }

/-- The written map of line k takes effect (R152); audio rings that wait for it start (R150). -/
def prqMapApply (k : Nat) (d : Dev) : Dev :=
  let l := d.host.prq.getD k {}
  match l.map with
  | some v =>
    if l.q.isEmpty then
      audStarts (prqAll (prqShow (d.hostMod fun h => { h with
        prqMap := h.prqMap.set k v, prq := h.prq.modify k fun l => { q := l.later } })))
    else d
  | none => d

/-- The rings after frames have moved: returns, entries that waited for room, the request lines before descriptor traffic
(R152), starts and fetches. -/
def dmaSettle (d : Dev) : Dev := pump (prqAll (txRetry (txSweep d)))

/-- Function f issues requests again (R125): what waited goes out, finished descriptors return, and its rings go on. -/
def fnResume (f : Nat) (d : Dev) : Dev :=
  if d.fnLive f then
    let free := (d.host.outq.filter fun w => w.fn == f && !d.paced true w.ring).map (·.ring)
    let d := free.foldl (fun d r => flushRing r d) d
    let d := (d.ringsOf f).foldl (fun d r => let d := retire r d; if ringKind r = 1 then rxPump r d else d) d
    dmaSettle (msgSettle d)
  else d

/-! ### Descriptor fetch (R130, R131) -/

/-- Remove the read of a tag. -/
def dropTag (t : Nat) (d : Dev) : Dev := tagSync (d.hostMod fun h => { h with reads := h.reads.filter fun x => x.tag != t })

/-- A read whose data nobody takes: an orphan, or of an epoch that its function has left (R119, R121). -/
def Dev.dead (d : Dev) (rd : Rd) : Bool := rd.orphan || d.epoch rd.fn != rd.epoch

/-- The eight dwords of a descriptor. -/
def descWords (bs : Bytes) (i : Nat) : List Nat := (List.range 8).map fun k => leNat (slice bs (32 * i + 4 * k) 4)

/-- A message TX descriptor keeps Table 6.7. -/
def msgTxOk (y : Desc) : Bool :=
  decide (1 ≤ y.len ∧ y.len ≤ 4096) && bits (y.dw 2) 21 2 != 0 && bits (y.dw 2) 23 9 == 0 && y.dw 3 == 0 && bits (y.dw 7) 16 14 == 0

/-- Begin the messages of a TX message ring. -/
def msgScan : Nat → Nat → Dev → Dev
  | 0, _, d => d
  | fuel + 1, r, d =>
    let x := d.ring r
    match x.taken.findIdx? (fun y => !y.begun) with
    | none => d
    | some i =>
      if msgTxOk (x.taken.getD i {}) then msgScan fuel r (beginRead r i d)
      else msgScan fuel r (finishRun r ((x.cons + i) % 65536) 1 5 d)

/-- What newly taken descriptors of ring r start, from index i. -/
def ringScan (r i : Nat) (d : Dev) : Dev :=
  let n := (d.ring r).taken.length
  match ringKind r with
  | 0 => txScan (n + 1) r d
  | 1 => rxPump r d
  | 2 | 3 => prqAll ((List.range (n - i)).foldl (fun d k => audTake r (i + k) d) d)
  | 4 => if d.cmpAvail then d else cmpRefuseFetched d
  | 5 => if (d.ring r).dir then msgHead r d else msgScan (n + 1) r d
  | _ => d

/-- A descriptor read returns (R130): owned descriptors are taken, an unowned one stops the fetch, or the ring in cyclic
mode (R144). -/
def descFetch (t : Nat) (bs : Bytes) (d : Dev) : Dev :=
  match d.host.reads.find? (fun x => x.tag == t) with
  | none => d
  | some rd =>
    match rd.use with
    | .pay .. => d
    | .void => dmaSettle (dropTag t d)
    | .desc r n =>
      if d.dead rd then dropTag t d
      else if bs.length ≠ 32 * n then d
      else
        let d := dropTag t d
        let x := d.ring r
        if x.st ≠ 2 then pump d
        else
          let ys := (List.range n).map fun i => ({ w := descWords bs i, t := d.nowExt } : Desc)
          let own := ys.takeWhile fun y => bit (y.dw 7) 31
          let at0 := x.taken.length
          let d := d.setRing r { x with taken := x.taken ++ own }
          let d :=
            if own.length < n then
              if x.cyclic then ringErrStop r d
              else ((d.ringMod r fun x => { x with notOwn := true }).sat DMA_NOTOWN_CNT.COUNT).ev DMA_EVENT.NOTOWN
            else d
          dmaSettle (tagSync (if (d.ring r).st = 2 then ringScan r at0 d else d))

/-- A descriptor fetch of ring r has failed (R131): cause 0 poisoned, 1 timeout. -/
def ringFail (r cause : Nat) (d : Dev) : Dev :=
  let d := ((d.wr DMA_RING_ERR.RING r).wr DMA_RING_ERR.CAUSE cause).wr DMA_RING_ERR.FN ((d.ringFn r).getD 0)
  ringErrStop r ((d.sat DMA_FETCH_ERR_CNT.COUNT).ev DMA_EVENT.RING_ERR)

/-- The descriptors of the TX frame that index o belongs to: first index, number. -/
def Ring.frameAt (x : Ring) (o : Nat) : Nat × Nat :=
  let i := (List.range (o + 1)).foldl (fun a k => if (x.taken.getD k {}).sop then k else a) 0
  (i, (x.taken.drop i).findIdx (·.eop) + 1)

/-- A payload read of the descriptor of count c of ring r has failed (R131): what needed it returns FETCH_ERR, unless it has
been returned already, and the ring goes on. -/
def payFail (r c : Nat) (d : Dev) : Dev :=
  let d := d.sat DMA_FETCH_ERR_CNT.COUNT
  let x := d.ring r
  let o := (c + 65536 - x.cons) % 65536
  if x.taken.length ≤ o ∨ (x.taken.getD o {}).done then d
  else match ringKind r with
    | 4 => cmpFetchErr r c d
    | 2 => audFull r o 2 (withdraw r (· == c) d)
    | 0 =>
      let (i, n) := x.frameAt o
      let cs := (List.range n).map fun k => (x.cons + i + k) % 65536
      finishRun r ((x.cons + i) % 65536) n 2 (withdraw r cs.contains d)
    | _ => finishRun r c 1 2 (withdraw r (· == c) d)

/-- A read fails: no data, and the fetch it belongs to fails (R106, R131). -/
def readFail (t cause : Nat) (d : Dev) : Dev :=
  match d.host.reads.find? (fun x => x.tag == t) with
  | none => d
  | some rd =>
    let d := dropTag t d
    let d := if d.dead rd then d
      else match rd.use with
        | .desc r _ => ringFail r cause d
        | .pay r c _ _ => payFail r c d
        | .void => d.sat DMA_FETCH_ERR_CNT.COUNT
    dmaSettle d

/-- The completion timeout of a read expires (R106). -/
def cplTimeout (t : Nat) (d : Dev) : Dev :=
  match d.host.reads.find? (fun x => x.tag == t) with
  | some rd => readFail t 1 (penalty 19 ((aerAdvise rd.fn false (d.sat HIF_CTO_CNT.COUNT)).ev HIF_EVENT.CPL_TIMEOUT))
  | none => d

/-- A poisoned completion arrives (R106). -/
def cplPoisoned (t : Nat) (d : Dev) : Dev :=
  match d.host.reads.find? (fun x => x.tag == t) with
  | some rd => readFail t 0 (penalty 19 ((aerAdvise rd.fn true (d.sat HIF_POISON_CNT.COUNT)).ev HIF_EVENT.POISONED))
  | none => d

/-- A descriptor fetch fails (R131). -/
def fetchFail (t : Nat) (timedOut : Bool) (d : Dev) : Dev :=
  match d.host.reads.find? (fun x => x.tag == t) with
  | some rd => match rd.use with
    | .desc .. => readFail t (if timedOut then 1 else 0) d
    | _ => d
  | none => d

/-! ### Payload (R121, R138, R144) -/

/-- Payload bytes off to off + n - 1 of the descriptor of count c of ring r arrive. -/
def payload (r c off : Nat) (bs : Bytes) (d : Dev) : Dev :=
  let x := d.ring r
  let o := (c + 65536 - x.cons) % 65536
  match ringKind r with
  | 4 => cmpData r c off bs d
  | k =>
    let y := x.taken.getD o {}
    if x.taken.length ≤ o ∨ y.done ∨ y.entered then d
    else if k = 2 then
      prqAll (audArrive (y.got.length + 2) r o (d.setRing r { x with taken := x.taken.set o { y with got := y.got ++ [(off, bs)] } }))
    else
      d.setRing r { x with taken := x.taken.set o { y with need := y.need - bs.length, got := y.got ++ [(off, bs)] } }

/-- A read completion arrives (R121): the data of an orphan are discarded and its tag retired. -/
def completion (t : Nat) (bs : Bytes) (d : Dev) : Dev :=
  match d.host.reads.find? (fun x => x.tag == t) with
  | none => d
  | some rd =>
    if d.dead rd then dmaSettle (dropTag t d)
    else match rd.use with
      | .desc .. => d
      | .void => dmaSettle (dropTag t d)
      | .pay r c off n => if bs.length = n then dmaSettle (payload r c off bs (dropTag t d)) else d

/-- A descriptor tag frees for ring r, which fetches again (R132). -/
def tagWaitEnd (r : Nat) (d : Dev) : Dev := if (d.ring r).tagWait then dmaSettle d else d

/-- Ring r has returned every descriptor it began (R150): an audio ring returns the buffer in progress first. -/
def ringQuiescence (r : Nat) (d : Dev) : Dev :=
  let x := d.ring r
  if x.st ≠ 3 ∧ x.st ≠ 4 then d
  else
    let busy := d.host.reads.any fun y => !y.orphan && (match y.use with | .pay q _ _ _ => q == r | _ => false)
    let busy := busy || d.outWaits r || d.host.wants.any fun w => w.ring == r
    let d := if (ringKind r = 2 ∨ ringKind r = 3) ∧ !busy then
        if x.cyclic then d.setRing r { x with taken := [] }
        else
          let (t, d) := match (x.taken.find? fun y => y.begun && !y.done) with
            | some y => (match y.sampT with | some t => (t, d) | none => d.draw)
            | none => (0, d)
          let s := d.audSample r
          retire r (d.setRing r { x with taken := x.taken.map fun y =>
            if y.begun && !y.done then
              { audWords (bits (y.dw 6) 0 4) t 0 (decide (y.halfAt s ≤ y.pos)) (decide (y.len ≤ y.pos)) y with done := true }
            else y })
      else d
    audStarts (ringQuiesce r d)

/-! ### The mailbox (R147 to R149) -/

/-- Results of a command: status, RES0, RES1. -/
abbrev MbxRes := Nat × Nat × Nat

/-- The ring that ARG0 selects for function f. -/
def Dev.argRing (d : Dev) (f a : Nat) : Option Nat :=
  if bits a 3 5 = 0 ∧ bits a 15 17 = 0 ∧ bits a 0 3 ≤ 5 then d.ringOf f (bits a 0 3) (bits a 8 7) else none

/-- CFG and CFG2 keep Table 6.9's rules for ring r of function f. -/
def cfgOk (f r cfg cfg2 : Nat) : Bool :=
  let k := ringKind r
  let size := bits cfg 0 4
  let cyc := bit cfg 21
  decide (size ≤ 6) && decide (bits cfg 4 8 < (if f = 0 then 256 else 32)) && (k == 0 || !bit cfg 20) &&
  (k == 2 || k == 3 || !cyc) && (k == 5 || !bit cfg 22) && bits cfg 23 9 == 0 && bits cfg2 9 23 == 0 &&
  (cyc || bits cfg2 0 6 == 0) && (!cyc || decide (bits cfg2 0 6 + 1 ≤ ringLen size)) &&
  (if k = 0 then decide (bits cfg2 6 3 ≤ 4) else bits cfg2 6 3 == 0)

/-- RING_SETUP. -/
def mbxSetup (f : Nat) (y : Desc) (d : Dev) : MbxRes × Dev :=
  match d.argRing f (y.dw 1) with
  | none => ((11, 0, 0), d)
  | some r =>
    let cfg := y.dw 4
    let cfg2 := y.dw 5
    let base := y.dw 2 + y.dw 3 * 2 ^ 32
    if base % 4096 ≠ 0 ∨ !cfgOk f r cfg cfg2 then ((11, 0, 0), d)
    else if (d.ring r).st ≠ 0 then ((12, 0, 0), d)
    else
      ((0, 0, 0), d.setRing r { base := base, size := bits cfg 0 4, vec := bits cfg 4 8, coal := bits cfg 12 8,
                                earlyWb := bit cfg 20, cyclic := bit cfg 21, dir := bit cfg 22, cycM1 := bits cfg2 0 6,
                                dest := bits cfg2 6 3 })

/-- RING_ENABLE: the result is the run state after the command; the start completes in the next CLK (R150). -/
def mbxEnable (f : Nat) (y : Desc) (d : Dev) : MbxRes × Dev :=
  match d.argRing f (y.dw 1) with
  | none => ((11, 0, 0), d)
  | some r =>
    let s := runEnable (d.pd 1) (d.ring r).st
    ((0, s, 0), audStarts (d.ringMod r fun x => { x with st := s }))

/-- RING_DISABLE. -/
def mbxDisable (f : Nat) (y : Desc) (d : Dev) : MbxRes × Dev :=
  match d.argRing f (y.dw 1) with
  | none => ((11, 0, 0), d)
  | some r => ((0, runDisable (d.ring r).st, 0), ringDisable r d)

/-- RING_QUERY. -/
def mbxQuery (f : Nat) (y : Desc) (d : Dev) : MbxRes × Dev :=
  match d.argRing f (y.dw 1) with
  | none => ((11, 0, 0), d)
  | some r => ((0, (ringView r d).1, (ringView r d).2), d)

/-- RES0 and RES1 of function f (VF_RES0, VF_RES1). -/
def Dev.res0 (d : Dev) (f : Nat) : Nat :=
  (d.range f 0).2 % 128 + (d.range f 2).2 % 128 * 2 ^ 8 + (d.range f 3).2 % 128 * 2 ^ 16
def Dev.res1 (d : Dev) (f : Nat) : Nat := (d.range f 4).2 + (d.range f 5).2 * 2 ^ 8 + d.rd (HIF_FNf_MISC.RD_TAGS f) * 2 ^ 24

/-- What an opcode does (Table 6.9); an unknown one gives BAD_ARG. -/
def mbxDo (op f : Nat) (y : Desc) (d : Dev) : MbxRes × Dev :=
  match op with
  | 0 => ((0, 0, 0), d)
  | 1 => mbxSetup f y d
  | 2 => mbxEnable f y d
  | 3 => mbxDisable f y d
  | 4 => mbxQuery f y d
  | 5 => ((0, d.now % 2 ^ 32, d.now / 2 ^ 32), d)
  | 6 => ((0, d.res0 f, d.res1 f), d)
  | _ => ((11, 0, 0), d)

/-- Return the mailbox command at index i with its results. -/
def mbxReturn (f i : Nat) (s : MbxRes) (d : Dev) : Dev :=
  let r := 416 + f
  retire r (d.ringMod r fun x => { x with taken := x.taken.modify i fun y =>
    { y with w := [y.dw 0, y.dw 1, y.dw 2, y.dw 3, s.2.1, s.2.2, s.1, y.dw 7], begun := true, done := true } })

/-- The function whose mailbox is served next: the first with a fetched command after the one served last (R147). -/
def Dev.mbxTurn (d : Dev) : Option Nat :=
  ((List.range 16).map fun i => (d.host.mbxLast + 1 + i) % 16).find? fun f =>
    d.fnState f == 1 && (d.ring (416 + f)).taken.any fun y => !y.done

/-- The mailbox of function f executes the command at its head, if it is its turn and the command is one of opcode op (R147,
R148). -/
def mailbox (op f : Nat) (d : Dev) : Dev :=
  let r := 416 + f
  match (d.ring r).taken.findIdx? (fun y => !y.done) with
  | none => d
  | some i =>
    let y := (d.ring r).taken.getD i {}
    let code := bits (y.dw 0) 0 8
    let seq := bits (y.dw 0) 8 8
    let fin (d : Dev) : Dev := dmaSettle (mbxUnset f (d.hostMod fun h => { h with mbxLast := f }))
    if d.mbxTurn ≠ some f ∨ !(code == op || (op == 0 && decide (6 < code))) then d
    else if bits (y.dw 0) 16 16 ≠ 0 ∨ bits (y.dw 7) 16 14 ≠ 0 then fin (mbxReturn f i (5, 0, 0) d)
    else
      let dup : Option (Nat × Nat) := match (d.fn f).last with
        | some (l, a, b) =>
          let n := (l + 256 - seq) % 256
          if n = 0 then some (a, b) else if n < 32 then some (0, 0) else none
        | none => none
      match dup with
      | some (a, b) => fin (mbxReturn f i (10, a, b) ((d.sat DMA_MBX_DUP_CNT.COUNT).ev DMA_EVENT.MBX_DUP))
      | none =>
        let (s, d) := mbxDo code f y d
        let d := d.fnMod f fun g => { g with last := some (seq, s.2.1, s.2.2) }
        fin (mbxReturn f i s d)

/-- The stall budget of ring r ends (R141): that of a frame, or of a Pegline message (R146). -/
def stallDue (r m : Nat) (d : Dev) : Dev := if ringKind r = 5 then msgStall r (atMote m d) else stallExpiry r m d

/-- A Configuration Write g; a function that issues requests again by it goes on (R125). -/
def resuming (f : Nat) (g : Dev → Dev) (d : Dev) : Dev := if d.fnLive f then g d else fnResume f (g d)

/-- A Configuration Request (R88, R110, R125). -/
def configTaken (f : Nat) (q : CfgReq) (d : Dev) : Dev := resuming f (configRequest f q) d

/-- The Configuration Write that moves function f between D0 and D3hot (R88, R125). -/
def dstateTaken (f : Nat) (d3 : Bool) (d : Dev) : Dev := resuming f (cfgGate f (dstateChange f d3)) d

end Sys2Proof.Machine
end

