-- ==== Sys2Proof/Machine/FieldOps.lean ====
section
/-!
DEFINITION. Machine/FieldOps.lean: Guyline, the hold-up cell, the sag test, alarm inputs, relays, module I2C, flash and the
test access port (spec/17_field_interfaces_and_the_hold_up_cell.md, R347 to R374).
-/

namespace Sys2Proof.Machine

/-- Change the field block. -/
def Dev.fldMod (d : Dev) (f : Fld → Fld) : Dev := { d with fld := f d.fld }

/-! ### Guyline transactions (R347 to R352) -/

/-- A Guyline tick in mt (R347). -/
def gtMt : Nat := 65536

/-- The identity of the hold-up cell in FLD_CELL_ID as 12 bytes. -/
def Dev.cellId (d : Dev) : Bytes := (List.range 3).flatMap fun k => beBytes 4 (d.rd (FLD_CELL_IDk.VALUE k))

/-- SELECT, an identity, FN and ADDR. -/
def glHead (id : Bytes) (fn addr : Nat) : Bytes := [0xC3#8] ++ id ++ [BitVec.ofNat 8 fn] ++ beBytes 2 addr

/-- The frame of a WRITE after its reset: the CRC runs over FN, ADDR, LEN and the data (R349). -/
def glWriteFrame (id : Bytes) (fn addr : Nat) (data : Bytes) : Bytes :=
  let body := [BitVec.ofNat 8 fn] ++ beBytes 2 addr ++ [BitVec.ofNat 8 data.length] ++ data
  [0xC3#8] ++ id ++ body ++ beBytes 2 (crc16 body)

/-- Bytes that go out before a WRITE's CRC has been sent are 17 + LEN, its CRC 2. -/
def glCrcSent (len : Nat) : Nat := (56 + 64 * (19 + len)) * gtMt

/-- The target identity of software's transactions. -/
def Dev.glTid (d : Dev) : Bytes := (List.range 3).flatMap fun k => beBytes 4 (d.rd (FLD_GL_TIDk.TID k))

/-- The data of software's WRITE. -/
def Dev.glBuf (d : Dev) (n : Nat) : Bytes :=
  ((List.range 16).flatMap fun k => leBytes 4 (d.rd (FLD_GL_BUFk.BYTES k))).take n

/-- A transaction of kind op, with the data that a WRITE writes, as the registers stand (R349, R351). -/
def Dev.glNew (d : Dev) (who : GlWho) (op : Nat) (data : Bytes) : Gl :=
  let (id, fn, addr, n) := match who with
    | .soft => (d.glTid, d.rd FLD_GL_CTRL.FN, d.rd FLD_GL_ADDR.ADDR, d.rd FLD_GL_CTRL.LEN)
    | .record i => (d.cellId, 0x4D, 0x20 * i, 32)
    | .life => (d.cellId, 0x6E, (if d.fld.takenB then 0x20 else 0x40), 0)
    | .check => (d.cellId, 0x4D, 0, 1)
    | .search => ([], 0, 0, 0)
  { who := who, op := op, data := data, head := [BitVec.ofNat 8 fn] ++ beBytes 2 addr
    bs := (match op with
      | 1 => [0xE5]
      | 2 => glHead id fn addr
      | 3 => glWriteFrame id fn addr data
      | _ => [])
    rd := (match op with
      | 2 => n + 2
      | 3 => 1
      | _ => 0) }

/-- The low of a slot that begins at gt t: its strobe, and the data window where a 0 is written (R347). -/
def slotLow (t : Nat) (b : Bool) : Nat × Nat := (t, t + if b then 1 else 5)

/-- The times, in gt from its start, in which a transaction pulls the line low: the reset pulse, the slots of the bytes sent,
most significant bit first, and the strobes of the bytes read (R347, R348). -/
def glLows (bs : Bytes) (rd : Nat) : List (Nat × Nat) :=
  let bits := (bs.flatMap fun b => (List.range 8).map fun i => bit b.toNat (7 - i)) ++ List.replicate (8 * rd) true
  (0, 40) :: ((List.range bits.length).zip bits).map fun (i, b) => slotLow (56 + 8 * i) b

/-- The lows of a search pass behind its command byte: two sub-slots and the direction written at each position (R354). -/
def passLows (id : Nat) : List (Nat × Nat) :=
  (List.range 96).flatMap fun p =>
    let t := 120 + 24 * p
    [slotLow t true, slotLow (t + 8) true, slotLow (t + 16) (bit id (95 - p))]

/-- Begin an attempt of a transaction, or a pass, on the line. -/
def glRun (g : Gl) (d : Dev) : Dev :=
  let g := { g with start := d.nowExt, wait := none, idle := false }
  ((d.wrB FLD_GL_STATUS.BUSY true).fldMod fun f => { f with gl := some g }).emit (.guyline g.op g.bs (glLows g.bs g.rd))

/-- The line is free for a transaction: with SHARED it has been high for 8 frames (R350). -/
def Dev.glReady (d : Dev) : Bool := !d.on FLD_GL_CFG.SHARED || decide (d.fld.glUp + 8 * frMt ≤ d.nowExt)

/-- A transaction begins, or waits for the line (R350). -/
def glStart (g : Gl) (d : Dev) : Dev :=
  if d.glReady then glRun g d
  else (d.wrB FLD_GL_STATUS.BUSY true).fldMod fun f => { f with gl := some { g with wait := none, idle := true } }

/-- The line is high from now on. -/
def glHigh (d : Dev) : Dev := d.fldMod fun f => { f with glUp := d.nowExt }

/-- The identity list is emptied, and no discrepancy is left (R354). -/
def searchEmpty (d : Dev) : Dev :=
  let n := d.rd FLD_GL_STATUS.COUNT
  let d := forN (3 * n) (fun i d => d.setWord (0x70400 + 4 * i) 0) d
  (d.wr FLD_GL_STATUS.COUNT 0).wr FLD_GL_STATUS.LAST_DISC 127

/-- A search starts (R354, R355): a full one empties the list. -/
def searchStart (incr : Bool) (d : Dev) : Dev :=
  let d := (d.wrB FLD_GL_STATUS.DISTURBED false).wrB FLD_GL_STATUS.OVERFLOW false
  if incr then d else searchEmpty d

/-- The whole search starts again (R350): a full one from nothing, an incremental one from where it began. -/
def searchAgain (g : Gl) (d : Dev) : Dev :=
  match g.from_ with
  | none => searchEmpty d
  | some (last, prev) => (d.wr FLD_GL_STATUS.LAST_DISC last).fldMod fun f => { f with prev := prev }

/-- The life record that the next WRITE carries (R357, R359, R360). -/
def Dev.lifeRecord (d : Dev) : Bytes :=
  let seq := match d.fld.seq with
    | some s => (s + 1) % 256
    | none => 0
  let flags := d.rd FLD_CELL_STATUS.EOL + 2 * d.rd FLD_CELL_STATUS.EOL_C + 4 * d.rd FLD_CELL_STATUS.EOL_ESR +
    8 * d.rd FLD_CELL_STATUS.EOL_CYC
  let body := [BitVec.ofNat 8 seq, BitVec.ofNat 8 flags, 0, 0] ++
    beBytes 4 (d.rd FLD_CELL_CYCLES.VALUE + d.rd FLD_CELL_CFG.CYC_PEND) ++ beBytes 4 (d.rd FLD_CELL_C.VALUE) ++
    beBytes 4 (d.rd FLD_CELL_ESR.VALUE) ++ beBytes 4 (d.rd FLD_CELL_LAST_T.VALUE) ++ List.replicate 10 0
  body ++ beBytes 2 (crc16 body)

/-- The OX4's own transaction begins (R351). -/
def glOwn (w : GlWho) (d : Dev) : Dev :=
  match w with
  | .search => glStart (d.glNew w 1 []) (searchStart false d)
  | .life =>
    if d.holds then
      let rec_ := d.lifeRecord
      glStart (d.glNew w 3 rec_) (d.fldMod fun f => { f with cycIn := d.rd FLD_CELL_CFG.CYC_PEND })
    else d
  | w => glStart (d.glNew w 2 []) d

/-- The line is free: the next waiting transaction of the OX4 begins, or the search that gave way goes on. -/
def glNext (d : Dev) : Dev :=
  if d.fld.gl.isSome then d
  else match d.fld.glq, d.fld.held with
    | w :: rest, _ => glOwn w (d.fldMod fun f => { f with glq := rest })
    | [], some g => glStart g (d.fldMod fun f => { f with held := none })
    | [], none => d

/-- A transaction of the OX4 joins the queue (R351). -/
def glQueue (w : GlWho) (d : Dev) : Dev :=
  glNext (if d.fld.glq.contains w then d else d.fldMod fun f => { f with glq := f.glq ++ [w] })

/-- The line is released and shown idle unless a search is held. -/
def glFree (d : Dev) : Dev :=
  (d.wrB FLD_GL_STATUS.BUSY d.fld.held.isSome).fldMod fun f => { f with gl := none }

/-- A software transaction ends with a result (R351). -/
def glSoftEnd (res : Nat) (d : Dev) : Dev :=
  (((d.wr FLD_GL_STATUS.RESULT res).wrB FLD_GL_CTRL.GO false).ev FLD_EVENT.GL_DONE)

/-! ### Records and end of life (R356 to R360) -/

/-- The end-of-life test (R360). -/
def eolTest (d : Dev) : Dev :=
  if !d.fld.ratedOk then d
  else
    let c := d.rd FLD_CELL_C.VALUE
    let e := d.rd FLD_CELL_ESR.VALUE
    let was := d.on FLD_CELL_STATUS.EOL
    let d := if c ≠ 0 ∧ c * 10 < d.rd FLD_CELL_RATED_C.VALUE * 7 then d.wrB FLD_CELL_STATUS.EOL_C true else d
    let d := if e ≠ 0 ∧ 2 * d.rd FLD_CELL_RATED_ESR.VALUE < e then d.wrB FLD_CELL_STATUS.EOL_ESR true else d
    let d := if d.rd FLD_CELL_RATED_CYC.VALUE < d.rd FLD_CELL_CYCLES.VALUE then d.wrB FLD_CELL_STATUS.EOL_CYC true else d
    let now := was || d.on FLD_CELL_STATUS.EOL_C || d.on FLD_CELL_STATUS.EOL_ESR || d.on FLD_CELL_STATUS.EOL_CYC
    (d.wrB FLD_CELL_STATUS.EOL now).evIf (now && !was) FLD_EVENT.CELL_EOL

/-- Clear the end-of-life bits (R360). -/
def eolClr (d : Dev) : Dev :=
  (((d.wrB FLD_CELL_STATUS.EOL false).wrB FLD_CELL_STATUS.EOL_C false).wrB FLD_CELL_STATUS.EOL_ESR false).wrB
    FLD_CELL_STATUS.EOL_CYC false

/-- A record whose CRC is right (R356). -/
def tokenOk (b : Bytes) : Bool := b.length == 32 && beAt b 30 2 == crc16 (b.take 30)

/-- The life fields of a copy are shown. -/
def showLife (b : Bytes) (d : Dev) : Dev :=
  (((d.wr FLD_CELL_CYCLES.VALUE (beAt b 4 4)).wr FLD_CELL_C.VALUE (beAt b 8 4)).wr FLD_CELL_ESR.VALUE (beAt b 12 4)).wr
    FLD_CELL_LAST_T.VALUE (beAt b 16 4)

/-- Copy a is newer than copy b (R357). -/
def newer (a b : Bytes) : Bool :=
  let x := (byteAt a 0 + 256 - byteAt b 0) % 256
  decide (1 ≤ x ∧ x ≤ 127)

/-- The three records have been read (R357, R360). -/
def recordsDone (rs : List (Option Bytes)) (d : Dev) : Dev :=
  let get (i : Nat) : Option Bytes := (rs.getD i none).bind fun b => if tokenOk b then some b else none
  let rated := (get 0).bind fun b => if byteAt b 0 = 1 then some b else none
  let d := d.fldMod fun f => { f with ratedOk := rated.isSome }
  let d := match rated with
    | some b =>
      (((d.wr FLD_CELL_RATED_MV.VALUE (beAt b 2 2)).wr FLD_CELL_RATED_C.VALUE (beAt b 4 4)).wr FLD_CELL_RATED_ESR.VALUE
        (beAt b 8 4)).wr FLD_CELL_RATED_CYC.VALUE (beAt b 12 4)
    | none => d
  let pick : Option (Bool × Bytes) := match get 1, get 2 with
    | some a, some b => if newer b a then some (true, b) else some (false, a)
    | some a, none => some (false, a)
    | none, some b => some (true, b)
    | none, none => none
  let d := match pick with
    | some (isB, b) => showLife b (d.fldMod fun f => { f with takenB := isB, seq := some (byteAt b 0) })
    | none => d.fldMod fun f => { f with takenB := true, seq := none }
  let ok := rated.isSome && pick.isSome
  let d := (d.wrB FLD_CELL_STATUS.REC_OK ok).evIf (!ok) FLD_EVENT.REC_BAD
  eolTest d

/-- Read the records of the cell (R353, R357). -/
def readRecords (d : Dev) : Dev := glQueue (.record 0) (d.fldMod fun f => { f with recs := [] })

/-- A record was read, or could not be. -/
def recordRead (i : Nat) (b : Option Bytes) (d : Dev) : Dev :=
  let rs := d.fld.recs ++ [b]
  let d := d.fldMod fun f => { f with recs := rs }
  if i < 2 then d.fldMod fun f => { f with glq := .record (i + 1) :: f.glq } else recordsDone rs d

/-- The identities listed, in order. -/
def Dev.glIds (d : Dev) : List (List Nat) :=
  (List.range (d.rd FLD_GL_STATUS.COUNT)).map fun j => (List.range 3).map fun k => d.rd (FLD_GL_ID.ID j k)

/-- A search has ended: the cell is the first identity of family 0x5C (R358). -/
def cellScan (auto : Bool) (d : Dev) : Dev :=
  match d.glIds.filter fun id => id.getD 0 0 / 2 ^ 24 == 0x5C with
  | [] => ((d.wrB FLD_CELL_STATUS.PRESENT false).wrB FLD_CELL_STATUS.MULTI false).ev FLD_EVENT.CELL_GONE
  | id :: rest =>
    let d := (d.wrB FLD_CELL_STATUS.PRESENT true).wrB FLD_CELL_STATUS.MULTI (!rest.isEmpty)
    if (List.range 3).any fun k => d.rd (FLD_CELL_IDk.VALUE k) != id.getD k 0 then
      readRecords (eolClr ((forN 3 (fun k d => d.wr (FLD_CELL_IDk.VALUE k) (id.getD k 0)) d).ev FLD_EVENT.CELL_NEW))
    else if auto then readRecords d else d

/-! ### The sag test (R361 to R363, Table 17.3) -/

/-- SAG_STATE: 0 IDLE, 1 PREP, 2 LOAD, 3 RECOVER, 4 WRITE. -/
def Dev.sagSt (d : Dev) : Nat := d.rd FLD_CELL_STATUS.SAG_STATE

/-- Change the test. -/
def Dev.sagMod (d : Dev) (f : Sag → Sag) : Dev := d.fldMod fun x => { x with sag := f x.sag }

/-- Enter a state. -/
def sagEnter (st : Nat) (d : Dev) : Dev := (d.wr FLD_CELL_STATUS.SAG_STATE st).sagMod fun s => { s with fr := 0 }

/-- The test ends in IDLE with a result. -/
def sagEnd (res : Nat) (d : Dev) : Dev :=
  (((sagEnter 0 d).wr FLD_CELL_STATUS.SAG_RESULT res).wrB FLD_CELL_CTRL.SAG_START false).sagMod fun _ => {}

/-- An abort with a result (Table 17.3): in PREP, LOAD and RECOVER only. -/
def sagAbortWith (res : Nat) (d : Dev) : Dev :=
  if d.sagOn then
    let d := (sagEnd res d).ev FLD_EVENT.SAG_ABORT
    if res = 3 then (d.ev FLD_EVENT.CELL_GONE) else d
  else d

/-- The conditions of a start (R361). -/
def Dev.sagReady (d : Dev) : Bool :=
  d.holds && d.on FLD_CELL_STATUS.REC_OK && !d.ratOn RAT_STATUS.LOSS && !d.ratOn RAT_STATUS.RECOVERING && decide (d.tier ≤ 3) &&
    decide (d.rd FLD_SAG_READY.READY_MV ≤ d.rd MON_CELL_V.VALUE)

/-- The test begins (R361). -/
def sagBegin (d : Dev) : Dev := sagEnter 1 (d.sagMod fun _ => {})

/-- SAG_START is written: refused at once when the conditions do not hold. -/
def sagStart (d : Dev) : Dev :=
  if d.on FLD_CELL_CTRL.SAG_START then d
  else
    let d := d.wrB FLD_CELL_CTRL.SAG_START true
    if d.sagSt = 0 ∧ !d.sagReady then sagEnd 9 d else d

/-- The written start takes place at a frame event. -/
def sagPending (d : Dev) : Dev :=
  if d.on FLD_CELL_CTRL.SAG_START && d.sagSt == 0 then (if d.sagReady then sagBegin d else sagEnd 9 d) else d

/-- An automatic test is due (R361): AUTO_SAG, PERIOD_H since T, and the daily window. -/
def Dev.sagDue (d : Dev) : Bool :=
  let s := d.frameExt / 8000
  let age := (s + 2 ^ 32 - d.rd FLD_CELL_LAST_T.VALUE % 2 ^ 32) % 2 ^ 32
  let min := s / 60 % 1440
  d.on FLD_CELL_CTRL.AUTO_SAG && decide (d.rd FLD_SAG_CFG.PERIOD_H * 3600 ≤ age) &&
    decide ((min + 1440 - d.rd FLD_SAG_WIN.START_MIN) % 1440 < d.rd FLD_SAG_WIN.LEN_MIN)

/-- A due automatic test starts. -/
def sagAutoStart (d : Dev) : Dev := if d.sagSt = 0 ∧ d.sagDue ∧ d.sagReady then sagBegin d else d

/-- The sum and count of windows. -/
def sumUp (xs : List (Nat × Nat)) : Nat × Nat := xs.foldl (fun a x => (a.1 + x.1, a.2 + x.2)) (0, 0)

/-- A mean, rounded towards 0. -/
def meanOf (x : Nat × Nat) : Nat := x.1 / max 1 x.2

/-- PREP ends after 8,000 frames: V0, I0, SAG_EN high. -/
def sagLoadOn (d : Dev) : Dev :=
  if d.sagSt = 1 ∧ 8000 ≤ d.fld.sag.fr then
    sagEnter 2 (d.sagMod fun s => { s with v0 := meanOf (sumUp s.hist), i0 := meanOf (sumUp s.histI) })
  else d

/-- LOAD ends after 16,000 frames: VB, SAG_EN low. -/
def sagLoadOff (d : Dev) : Dev :=
  if d.sagSt = 2 ∧ 16000 ≤ d.fld.sag.fr then sagEnter 3 (d.sagMod fun s => { s with vb := meanOf (sumUp s.hist) }) else d

/-- RECOVER ends after 8 frames: the results, stored where they are good (R362). -/
def sagCompute (d : Dev) : Dev :=
  if d.sagSt = 3 ∧ 8 ≤ d.fld.sag.fr then
    let v0 := d.fld.sag.v0
    let va := meanOf d.fld.sag.va
    let vb := d.fld.sag.vb
    let r := d.rd FLD_SAG_CFG.LOAD_MOHM
    let ia := va / r
    let im := (va + vb) / 2 / r
    if ia = 0 ∨ v0 ≤ va ∨ va ≤ vb then sagEnd 8 d
    else
      let d := ((d.wr FLD_SAG_V0.VALUE v0).wr FLD_SAG_VA.VALUE va).wr FLD_SAG_VB.VALUE vb
      let d := d.wr FLD_CELL_ESR.VALUE ((v0 - va) * 1000 / ia)
      let d := d.wr FLD_CELL_C.VALUE (im * 15992 * 125 / (va - vb))
      let d := d.wr FLD_CELL_LAST_T.VALUE (d.frameExt / 8000 % 2 ^ 32)
      let d := d.wr FLD_CELL_CFG.CYC_PEND (min (d.rd FLD_CELL_CFG.CYC_PEND + 1) 255)
      glQueue .life (sagEnter 4 (eolTest d))
  else d

/-- WRITE ends: the life record is written, or the token is not held. -/
def sagWritten (d : Dev) : Dev := if d.sagSt = 4 then (sagEnd 1 d).ev FLD_EVENT.SAG_DONE else d

/-- The WRITE state is left when its record is written or the token is gone. -/
def sagDone (d : Dev) : Dev :=
  let waiting := d.fld.glq.contains .life || (match d.fld.gl with
    | some g => g.who == .life
    | none => false)
  if d.sagSt = 4 ∧ (!d.holds ∨ !waiting) then sagWritten d else d

/-- Every 512 frames of a test the cell is read (R363). -/
def sagCheck (d : Dev) : Dev :=
  if d.sagOn ∧ 512 ≤ d.fld.sag.chk then glQueue .check (d.sagMod fun s => { s with chk := s.chk - 512 }) else d

/-- A sag conversion at a mid offset of R231: CELL_VSENSE for even k, FEED_ISENSE for odd k. -/
def sagConv (k : Nat) (code : Nat) (d : Dev) : Dev :=
  let d := atMote (k * 131072 + 65536) d
  if !d.sagOn then d
  else if k % 2 = 0 then
    let uv := code * d.rd MON_CSCALE.PER_CODE
    let low := if uv < 1000000 then d.fld.sag.low + 1 else 0
    let d := d.sagMod fun s => { s with cur := (s.cur.1 + uv, s.cur.2 + 1), low := low }
    if 4 ≤ low then sagAbortWith 3 d else d
  else d.sagMod fun s => { s with curI := (s.curI.1 + code * d.rd MON_ISCALE.PER_CODE, s.curI.2 + 1) }

/-- The test at a frame event: the windows move on, and the limits of Table 17.3 are looked at. -/
def sagFrame (d : Dev) : Dev :=
  if d.sagOn then
    let s := d.fld.sag
    let st := d.sagSt
    let i := meanOf s.curI
    let lim := d.rd FLD_SAG_CFG.ISTEP_MA * 10000
    let moved := decide (st = 2) && decide (s.curI.2 ≠ 0) && (decide (i + lim < s.i0) || decide (s.i0 + lim < i))
    let low := decide (st ≤ 2) && decide (d.rd MON_CELL_V.VALUE < d.rd RAT_CELL_THR.LISTEN_MV)
    let d := d.sagMod fun s =>
      { s with fr := s.fr + 1, chk := s.chk + 1, cur := (0, 0), curI := (0, 0),
               hist := (s.cur :: s.hist).take 8, histI := (s.curI :: s.histI).take 8,
               va := if st = 2 ∧ s.fr < 8 then (s.va.1 + s.cur.1, s.va.2 + s.cur.2) else s.va }
    if moved then sagAbortWith 5 d else if low then sagAbortWith 6 d else d
  else d

/-! ### Ends of transactions (R350 to R358) -/

/-- A transaction has ended with a result; `data` are the bytes read. -/
def glEnded (g : Gl) (res : Nat) (data : Bytes) (d : Dev) : Dev :=
  let d := glFree (if g.op = 3 ∧ (res = 1 ∨ res = 5) then d else glHigh d)
  let d := if res = 2 then d.wrB FLD_GL_STATUS.PRESENT false
    else if res = 1 ∨ res = 3 ∨ res = 5 then d.wrB FLD_GL_STATUS.PRESENT true else d
  let d := match g.who with
    | .soft =>
      let d := if g.op = 2 ∧ res = 1 then
          forN 16 (fun k d => if 4 * k < data.length then d.wr (FLD_GL_BUFk.BYTES k) (leNat (slice data (4 * k) 4)) else d) d
        else d
      let d := glSoftEnd res d
      if g.op = 1 ∧ (res = 1 ∨ res = 2) then cellScan false d else d
    | .search =>
      if res = 1 ∨ res = 2 then cellScan true d else d.when (d.on FLD_CELL_STATUS.PRESENT) readRecords
    | .record i => recordRead i (if res = 1 then some data else none) d
    | .life =>
      if res = 1 then
        let n := d.fld.cycIn
        let d := d.fldMod fun f => { f with takenB := !f.takenB, seq := some (byteAt g.data 0), cycIn := 0 }
        let d := d.wr FLD_CELL_CYCLES.VALUE (beAt g.data 4 4)
        sagDone (eolTest (d.wr FLD_CELL_CFG.CYC_PEND (d.rd FLD_CELL_CFG.CYC_PEND - n)))
      else if d.sagSt = 4 ∧ d.holds then d.fldMod fun f => { f with glq := f.glq ++ [.life] } else d
    | .check =>
      if res = 1 then d.sagMod fun s => { s with fails := 0 }
      else
        let d := d.sagMod fun s => { s with fails := s.fails + 1 }
        if 2 ≤ d.fld.sag.fails then sagAbortWith 3 d else d
  glNext d

/-- The transaction on the line comes to an end, or is tried again (R350): a collision shows only on a shared line, and one that
waits for the line ends only because the line stays low. A WRITE leaves the line high while the device programs. -/
def glDone (e : GlEnd) (d : Dev) : Dev :=
  match d.fld.gl with
  | none => d
  | some g =>
    if g.wait.isSome ∨ ((g.idle ∨ g.op = 1) ∧ e ≠ .busLow ∧ (g.idle ∨ e ≠ .collision)) then d
    else
      let again := decide (g.tries < d.rd FLD_GL_CFG.RETRIES)
      match e with
      | .collision =>
        if !d.on FLD_GL_CFG.SHARED then d
        else
          let d := glHigh (d.sat FLD_GL_CNT.COLL)
          if again then
            let (x, d) := d.draw
            d.fldMod fun f => { f with gl := some { g with tries := g.tries + 1, wait := some (8 * (1 + x % 8)) } }
          else glEnded g 4 [] d
      | .read data crc =>
        let bs := data.take (g.rd - 2)
        if g.op ≠ 2 then d
        else if bs.length = g.rd - 2 ∧ crc16 (g.head ++ bs) = crc.toNat then glEnded g 1 bs d
        else if again then glStart { g with tries := g.tries + 1 } (glHigh d)
        else glEnded g 3 [] d
      | .ok => if g.op = 0 then glEnded g 1 [] d else d
      | .status b => if g.op = 3 then glEnded g (if b = 0xA5#8 then 1 else 5) [] d else d
      | .noPresence => glEnded g 2 [] d
      | .busLow => glEnded g 8 [] d

/-- A backoff ends: the whole transaction starts again (R350). -/
def glBackoffEnd (d : Dev) : Dev :=
  match d.fld.gl with
  | some g =>
    if g.wait = some 0 then
      (if g.op = 1 then glStart { g with aband := 0 } (searchAgain g d) else glStart g d)
    else d
  | none => d

/-- GO with an OP (R351, R352). -/
def glGo (op : Nat) (d : Dev) : Dev :=
  if d.on FLD_GL_STATUS.BUSY ∨ d.on FLD_GL_CTRL.GO then d
  else
    let d := d.wrB FLD_GL_CTRL.GO true
    let n := d.rd FLD_GL_CTRL.LEN
    let bad := (op == 2 && (n == 0 || decide (64 < n))) || (op == 3 && (n == 0 || decide (32 < n)))
    if bad then glSoftEnd 9 d
    else if op = 3 ∧ !d.holds then glSoftEnd 6 d
    else
      let incr := d.on FLD_GL_CTRL.INCR
      let d := if op = 1 then searchStart incr d else d
      let g := d.glNew .soft op (if op = 3 then d.glBuf n else [])
      glStart { g with from_ := if incr then some (d.rd FLD_GL_STATUS.LAST_DISC, d.fld.prev) else none } d

/-- A software write of FLD_GL_CTRL with GO and its fields. -/
def glCommand (op : Nat) (incr : Bool) (fn len : Nat) (d : Dev) : Dev :=
  glGo op ((((d.wr FLD_GL_CTRL.OP op).wrB FLD_GL_CTRL.INCR incr).wr FLD_GL_CTRL.FN fn).wr FLD_GL_CTRL.LEN len)

/-! ### Search passes (R354, R355) -/

/-- What a pass finds: an identity and its deepest position with a 0 branch left, or an abandoned pass. -/
inductive Pass where
  | found (id : Nat) (disc : Int)
  | abandoned
  deriving DecidableEq, Repr

/-- Run a pass over the sub-slots seen at each position: the levels s0 and s1 (R354). -/
def passRun (last : Int) (prev : Nat) : List (Bool × Bool) → Nat → Nat → Int → Pass
  | [], _, id, disc => .found id disc
  | (s0, s1) :: rest, p, id, disc =>
    if s0 && s1 then .abandoned
    else if !s0 && s1 then passRun last prev rest (p + 1) (2 * id) disc
    else if s0 && !s1 then passRun last prev rest (p + 1) (2 * id + 1) disc
    else
      let b := if (p : Int) < last then bit prev (95 - p) else if (p : Int) = last then false else true
      passRun last prev rest (p + 1) (2 * id + (if b then 1 else 0)) (if b then p else disc)

/-- The CRC of an identity is good (R348). -/
def idOk (id : Nat) : Bool := crc16 ((beBytes 12 id).take 10) == id % 65536

/-- An attach pulse or an abandoned pass disturbs the search (R355). -/
def disturb (d : Dev) : Dev := (d.wrB FLD_GL_STATUS.DISTURBED true).ev FLD_EVENT.GL_DISTURBED

/-- List an identity unless it is listed already. -/
def listId (id : Nat) (d : Dev) : Dev :=
  let n := d.rd FLD_GL_STATUS.COUNT
  let ws := [id / 2 ^ 64, id / 2 ^ 32 % 2 ^ 32, id % 2 ^ 32]
  if d.glIds.contains ws ∨ 64 ≤ n then d
  else (forN 3 (fun k d => d.wr (FLD_GL_ID.ID n k) (ws.getD k 0)) d).wr FLD_GL_STATUS.COUNT (n + 1)

/-- After a pass: a waiting transaction goes first, else the next pass begins. -/
def passNext (g : Gl) (d : Dev) : Dev :=
  if d.fld.glq.isEmpty then glRun g d
  else glNext (glHigh (d.fldMod fun f => { f with gl := none, held := some g }))

/-- A search pass ends: whether a presence was seen at its reset, and the sub-slots seen (R354). -/
def glSearchPass (present : Bool) (subs : List (Bool × Bool)) (d : Dev) : Dev :=
  match d.fld.gl with
  | none => d
  | some g =>
    if g.op ≠ 1 ∨ g.wait.isSome ∨ g.idle then d
    else if !present then glEnded g 2 [] d
    else
      let d := d.wrB FLD_GL_STATUS.PRESENT true
      let l := d.rd FLD_GL_STATUS.LAST_DISC
      let last : Int := if l = 127 then -1 else l
      match passRun last d.fld.prev (subs.take 96) 0 0 (-1) with
      | .abandoned =>
        let d := disturb (d.sat FLD_GL_CNT.ABANDON)
        if 3 ≤ g.aband + 1 then glEnded g 1 [] d else passNext { g with aband := g.aband + 1 } d
      | .found id disc =>
        if subs.length < 96 then d
        else
          let d := d.emit (.glPass (passLows id))
          let d := if idOk id then listId id d else (d.sat FLD_GL_CNT.CRC_FAIL).wrB FLD_GL_STATUS.DISTURBED true
          let d := (d.fldMod fun f => { f with prev := id }).wr FLD_GL_STATUS.LAST_DISC (if disc < 0 then 127 else disc.toNat)
          let full := d.rd FLD_GL_STATUS.COUNT = 64
          if disc < 0 then glEnded { g with aband := 0 } 1 [] d
          else if full then glEnded g 1 [] (d.wrB FLD_GL_STATUS.OVERFLOW true)
          else passNext { g with aband := 0 } d

/-- An attach pulse: the line, idle or in a search, was low for 12 to 28 gt without this device (R347, R353, R355). -/
def glAttach (d : Dev) : Dev :=
  let searching := d.fld.held.isSome || (match d.fld.gl with
    | some g => g.op == 1
    | none => false)
  let idle := match d.fld.gl with
    | some g => g.wait.isSome || g.idle
    | none => true
  if !idle ∧ !searching then d
  else
    let d := glHigh ((d.ev FLD_EVENT.GL_ATTACH).fldMod fun f => { f with autoIn := f.autoIn ++ [1024] })
    if searching then disturb (d.sat FLD_GL_CNT.ATTACH) else d

/-- The OX4 starts a search by itself (R353). -/
def autoSearch (d : Dev) : Dev :=
  if d.fld.autoIn.contains 0 then
    let d := d.fldMod fun f => { f with autoIn := f.autoIn.filter (· != 0) }
    if d.on FLD_GL_CFG.AUTO then glQueue .search d else d
  else d

/-- An automatic search falls due now: BOOT_DONE, or LIFELINE applied after Bivouac (R353). -/
def autoDue (d : Dev) : Dev := d.fldMod fun f => { f with autoIn := f.autoIn ++ [0] }

/-! ### The token (R292, R352, R353, R359, R361) -/

/-- The token is released: a WRITE whose CRC has not been sent is cut, a sag test aborts, pending cycles are lost. -/
def tokenGone (d : Dev) : Dev :=
  let d := sagAbortWith 4 d
  let d := (d.wr FLD_CELL_CFG.CYC_PEND 0).fldMod fun f => { f with glq := f.glq.filter (· != .life) }
  let d := match d.fld.gl with
    | some g =>
      let off := g.wait.isSome || g.idle
      if g.op = 3 ∧ (off ∨ d.nowExt < g.start + glCrcSent g.data.length) then
        let d := glFree (if off then d else glHigh (d.emit .glRelease))
        let d := if g.who = .soft then glSoftEnd 7 d else d
        glNext d
      else d
    | none => d
  sagDone d

/-- A take sets the alarms that the partner had set (R291, R367), and the records are read in the next frame (R353). -/
def alarmMerge (alarms : Nat) (d : Dev) : Dev :=
  let d := d.wr FLD_GPI_LATCH.LATCH (d.rd FLD_GPI_LATCH.LATCH ||| alarms % 65536)
  let eol := bit alarms 16
  let d := d.evIf (eol && !d.on FLD_CELL_STATUS.EOL) FLD_EVENT.CELL_EOL
  let d := if eol then d.wrB FLD_CELL_STATUS.EOL true else d
  d.fldMod fun f => { f with recIn := some (d.frameExt + 1) }

/-- A feed return counts a cycle (R359): the record's cell voltage and its minimum in mV. -/
def returnCycle (cellMv minMv : Nat) (d : Dev) : Dev :=
  if d.holds && decide (minMv + d.rd FLD_CELL_CFG.CYCLE_DROP_MV ≤ cellMv) then
    d.wr FLD_CELL_CFG.CYC_PEND (min (d.rd FLD_CELL_CFG.CYC_PEND + 1) 255) else d

/-- Pending cycles go into the next life record that can be written (R359). -/
def cycleWrite (d : Dev) : Dev :=
  let busy := d.fld.glq.contains .life || (match d.fld.gl with
    | some g => g.who == .life
    | none => false)
  if d.rd FLD_CELL_CFG.CYC_PEND ≠ 0 ∧ d.holds ∧ d.on FLD_CELL_STATUS.PRESENT ∧ d.fld.recs.length = 3 ∧ d.sagSt = 0 ∧ d.tier < 4 ∧ !busy then
    glQueue .life d else d

/-- A transaction that waits for the line begins once the line has been high for 1 ms (R350). -/
def glIdleEnd (d : Dev) : Dev :=
  match d.fld.gl with
  | some g => if g.idle && d.glReady then glRun g d else d
  | none => d

/-- The field block at a frame event: waits of the Guyline, automatic searches, the sag test. -/
def fieldFrame (d : Dev) : Dev :=
  let d := d.fldMod fun f => { f with
    gl := f.gl.map fun g => { g with wait := g.wait.map (· - 1) }
    autoIn := f.autoIn.map (· - 1) }
  let d := glIdleEnd d
  let d := match d.fld.recIn with
    | some f =>
      if f ≤ d.frameExt then
        let d := d.fldMod fun f => { f with recIn := none }
        if d.on FLD_CELL_STATUS.PRESENT then readRecords d else d
      else d
    | none => d
  cycleWrite (sagAutoStart (sagPending (sagFrame d)))

/-! ### Alarm inputs (R364 to R367) -/

/-- Settings of an input: LIMIT, quiet time in frames, debounce time in frames. -/
structure GpiCfg where
  limit : Nat
  quiet : Nat
  deb   : Nat

/-- One input at a frame event (R364): its new state, whether it changed, entered and left STORMING. -/
def gpiStep (c : GpiCfg) (now : Nat) (second raw : Bool) (g : Gpi) : Gpi × Bool × Bool × Bool :=
  let g := if raw != g.prev then { g with edges := g.edges + 1, last := now } else g
  let g := { g with prev := raw }
  let enter := !g.storm && decide (c.limit < g.edges)
  let g := if enter then { g with storm := true } else g
  let g := if second then { g with edges := 0 } else g
  let leave := g.storm && decide (g.last + c.quiet ≤ now)
  let g := if leave then { g with storm := false, stable := 0 } else g
  if g.storm then (g, false, enter, leave)
  else if raw == g.deb then ({ g with stable := 0 }, false, enter, leave)
  else if c.deb ≤ g.stable + 1 then
    ({ g with deb := raw, stable := 0, act := if raw then some now else none }, true, enter, leave)
  else ({ g with stable := g.stable + 1 }, false, enter, leave)

/-- Bits of the inputs that satisfy a condition. -/
def gpiBits (p : Gpi → Bool) (gs : List Gpi) : Nat :=
  ((List.range gs.length).zip gs).foldl (fun n x => n + if p x.2 then 2 ^ x.1 else 0) 0

/-- The settings of input i. -/
def Dev.gpiCfg (d : Dev) (i : Nat) : GpiCfg :=
  { limit := d.rd FLD_GPI_STORM_CFG.LIMIT, quiet := d.rd FLD_GPI_STORM_CFG.QUIET_S * 8000,
    deb := bits (d.rd (FLD_GPI_DEBk.DEB_MS (i / 4))) (8 * (i % 4)) 8 * 8 }

/-- The debounced levels. -/
def Dev.gpiDeb (d : Dev) : Nat := gpiBits (·.deb) d.fld.gpis

/-- The sample of every input at a frame event (R364, R365): the inputs whose change is reported, and the device. -/
def gpiSample (second : Bool) (pins : Nat) (d : Dev) : Nat × Dev :=
  let raw := (pins ^^^ d.rd FLD_GPI_CFG.INVERT) % 65536
  let now := d.frameExt
  let rs := ((List.range 16).zip d.fld.gpis).map fun (i, g) => (i, gpiStep (d.gpiCfg i) now second (bit raw i) g)
  let pick (p : Bool × Bool × Bool → Bool) : Nat := rs.foldl (fun n x => n + if p x.2.2 then 2 ^ x.1 else 0) 0
  let chg := pick fun x => x.1
  let ent := (rs.filter fun x => x.2.2.2.1).length
  let lea := rs.any fun x => x.2.2.2.2
  let gs := rs.map fun x => x.2.1
  let d := d.fldMod fun f => { f with gpis := gs, gpiIn := pins }
  let d := (d.wr FLD_GPI_LEVEL.RAW raw).wr FLD_GPI_LEVEL.DEB d.gpiDeb
  let d := d.wr FLD_GPI_CHG.STORM (gpiBits (·.storm) gs)
  let d := if ent = 0 then d else (d.sat FLD_GPI_STORM_CNT.COUNT ent).ev FLD_EVENT.GPI_STORM
  let d := d.evIf lea FLD_EVENT.GPI_STORM_END
  if chg = 0 then (0, d)
  else
    let d := (d.wr FLD_GPI_CHG.CHG (d.rd FLD_GPI_CHG.CHG ||| chg)).ev FLD_EVENT.GPI_CHG
    let rise := chg &&& d.gpiDeb &&& d.rd FLD_GPI_CFG.LATCH_EN
    let d := d.wr FLD_GPI_LATCH.LATCH (d.rd FLD_GPI_LATCH.LATCH ||| rise)
    (chg, llbEmit 5 (d.gpiDeb + chg * 65536) 0 d)

/-- REMIND_S seconds have passed with input i active (R366). -/
def gpiRemind (i : Nat) (d : Dev) : Dev :=
  let g := d.fld.gpis.getD i {}
  let n := d.rd FLD_GPI_STORM_CFG.REMIND_S * 8000
  match g.act with
  | some a =>
    if n ≠ 0 ∧ g.deb ∧ !g.storm ∧ a < d.frameExt ∧ (d.frameExt - a) % n = 0 then
      llbEmit 5 d.gpiDeb 0 (d.ev FLD_EVENT.GPI_REMIND) else d
  | none => d

/-- A W1C write to FLD_GPI_LATCH clears bits whose input is inactive (R367). -/
def gpiLatchClear (w : Nat) (d : Dev) : Dev :=
  let keep := d.rd FLD_GPI_LATCH.LATCH
  let clear := w % 65536 &&& (65535 ^^^ d.gpiDeb)
  d.wr FLD_GPI_LATCH.LATCH (keep &&& (65535 ^^^ clear))

/-- FLD_GPO.OUT is written (R368). -/
def gpoWrite (v : Nat) (d : Dev) : Dev := d.wr FLD_GPO.OUT v

/-- The relay pins follow OUT while the token is held (R368). -/
def gpoUpdate (d : Dev) : Dev :=
  let b := d.holds && !d.boot.asserted
  (d.wrB FLD_GPO.DRIVEN b).wr FLD_GPO.LEVEL (if b then 255 ^^^ d.rd FLD_GPO.OUT else 255)

/-! ### Module I2C (R371) -/

/-- MI2Cm_DONE. -/
def mi2cEvent (m : Nat) : Field := ⟨FLD_EVENT.addr, 13 + m, 1⟩

/-- The result of a module transaction. -/
def mi2cEnd (m res : Nat) (d : Dev) : Dev :=
  ((d.wr (FLD_MI2Cm_CMD.RESULT m) res).wrB (FLD_MI2Cm_CMD.GO m) false).ev (mi2cEvent m)

/-- The data bytes of controller m. -/
def Dev.mi2cData (d : Dev) (m n : Nat) : Bytes :=
  ((List.range 32).flatMap fun k => leBytes 4 (d.rd (FLD_MI2Cm_DATAk.DATA m k))).take n

/-- GO of controller m: a cage whose module is not present for INSERT_FR ends the transaction. -/
def mi2cGo (m : Nat) (d : Dev) : Dev :=
  if d.on (FLD_MI2Cm_CMD.GO m) then d
  else
    let d := d.wrB (FLD_MI2Cm_CMD.GO m) true
    let n := 2 * m + d.rd (FLD_MI2Cm_CMD.PORT m)
    if (d.chan.getD n {}).modOk then
      d.emit (.mi2c m (d.word (FLD_MI2Cm_CMD.addr m))
        (if d.on (FLD_MI2Cm_CMD.DIR m) then d.mi2cData m (d.rd (FLD_MI2Cm_CMD.LEN m)) else []))
    else mi2cEnd m 2 d

/-- A module transaction ends. -/
def mi2cDone (m : Nat) (e : I2cEnd) (d : Dev) : Dev :=
  if !d.on (FLD_MI2Cm_CMD.GO m) then d
  else match e with
    | .ok data =>
      let n := d.rd (FLD_MI2Cm_CMD.LEN m)
      let bs := data.take n
      let d := if d.on (FLD_MI2Cm_CMD.DIR m) then d
        else forN 32 (fun k d => if 4 * k < bs.length then
            d.wr (FLD_MI2Cm_DATAk.DATA m k) (leNat (patch (leBytes 4 (d.rd (FLD_MI2Cm_DATAk.DATA m k))) 0 (slice bs (4 * k) 4)))
          else d) d
      mi2cEnd m 1 d
    | .noModule => mi2cEnd m 2 d
    | .nackAddr => mi2cEnd m 3 d
    | .nackData => mi2cEnd m 4 d
    | .timeout => mi2cEnd m 5 d
    | .stuck => mi2cEnd m 6 d

/-! ### Flash (R372, R373) -/

/-- A program or erase address lies in a locked region. -/
def Dev.qspiLocked (d : Dev) : Bool :=
  let a := d.rd FLD_QSPI_ADDR.ADDR
  let slot := d.rd RST_BOOT_STATUS.SLOT
  (d.on FLD_QSPI_CFG.CAL_LOCK && decide (0x1000 ≤ a ∧ a < 0x2000)) ||
    (d.on FLD_QSPI_CFG.SLOT_LOCK &&
      ((slot == 1 && decide (0x100000 ≤ a ∧ a < 0x500000)) || (slot == 2 && decide (0x500000 ≤ a ∧ a < 0x900000))))

/-- A flash command ends. -/
def qspiEnd (res : Nat) (d : Dev) : Dev :=
  ((d.wr FLD_QSPI_CFG.RESULT res).wrB FLD_QSPI_CMD.GO false).ev FLD_EVENT.QSPI_DONE

/-- The flash data bytes. -/
def Dev.qspiData (d : Dev) (n : Nat) : Bytes := ((List.range 64).flatMap fun k => leBytes 4 (d.rd (FLD_QSPI_DATAk.DATA k))).take n

/-- GO of the flash controller: refused before BOOT_DONE and in a locked region. -/
def qspiGo (d : Dev) : Dev :=
  if d.on FLD_QSPI_CMD.GO then d
  else
    let d := d.wrB FLD_QSPI_CMD.GO true
    if !d.booted then qspiEnd 3 d
    else if d.rd FLD_QSPI_CMD.KIND = 1 ∧ d.qspiLocked then qspiEnd 2 d
    else d.emit (.qspi (d.word FLD_QSPI_CMD.addr) (d.rd FLD_QSPI_ADDR.ADDR)
      (if d.on FLD_QSPI_CMD.DIR then d.qspiData (d.rd FLD_QSPI_CMD.LEN) else []))

/-- A flash command completes, with the bytes read. -/
def qspiDone (data : Bytes) (d : Dev) : Dev :=
  if !d.on FLD_QSPI_CMD.GO then d
  else
    let bs := data.take (d.rd FLD_QSPI_CMD.LEN)
    let d := if d.on FLD_QSPI_CMD.DIR then d
      else forN 64 (fun k d => if 4 * k < bs.length then
          d.wr (FLD_QSPI_DATAk.DATA k) (leNat (patch (leBytes 4 (d.rd (FLD_QSPI_DATAk.DATA k))) 0 (slice bs (4 * k) 4)))
        else d) d
    qspiEnd 1 d

/-! ### Test access port (R374) -/

/-- Load a TAP instruction that acts on the pins in a mode. -/
def tapLoad (t : TapMode) (d : Dev) : Dev := d.fldMod fun f => { f with tap := t }

/-- IDCODE. -/
def tapIdcode (d : Dev) : Dev := (tapLoad .none d).emit (.idcode 0x104C733D)

end Sys2Proof.Machine
end

