-- ==== Sys2Proof/Machine/LeashOps.lean ====
section
/-!
DEFINITION. Machine/LeashOps.lean: the Leash pair, the token and its lease
(spec/13_leash_pair_and_takeover.md, R275 to R295).
-/

namespace Sys2Proof.Machine

/-- Change the Leash logic's internals. -/
def Dev.lshMod (d : Dev) (f : Leash → Leash) : Dev := { d with lsh := f d.lsh }

/-- The Leash state (Table 13.5). -/
def Dev.lst (d : Dev) : Nat := d.rd LSH_STATUS.STATE

/-- LSH_CFG. -/
def Dev.leaseFr (d : Dev) : Nat := d.rd LSH_CFG.LEASE_FR
def Dev.guardFr (d : Dev) : Nat := d.rd LSH_CFG.GUARD_FR

/-! ### Eligibility and health (R284, R285) -/

/-- A step into a Bivouac tier is announced. -/
def Dev.bivAnnounced (d : Dev) : Bool := d.ratGet RAT_STATUS.PHASE != 0 && decide (4 ≤ d.rat.announced)

/-- R284. -/
def Dev.eligibleNow (d : Dev) : Bool :=
  d.on LSH_CTRL.EN && d.rd LSH_STATUS.RUN == 2 && d.run && !d.on RST_BOOT_STATUS.HOLD && decide (d.tier ≤ 3) && !d.bivAnnounced

/-- The partner is present (R285). -/
def Dev.peerPresent (d : Dev) : Bool := decide (d.lsh.goodFr < 12)

/-- The partner is healthy (R285). -/
def Dev.peerHealthy (d : Dev) : Bool :=
  d.peerPresent && d.lsh.pElig && decide (d.rd LSH_HEALTH.MIN ≤ d.rd LSH_STATUS.PEER_HEALTH)

/-- R285: the health, read now, allows this device to hold. -/
def Dev.renewOk (d : Dev) : Bool :=
  let h := d.rd SHD_STATUS.SCORE
  decide (d.rd LSH_HEALTH.MIN ≤ h) || (decide (d.rd LSH_HEALTH.FLOOR ≤ h) && !d.peerHealthy)

/-! ### Mirror frames out (R277 to R281) -/

/-- The mirror lane is powered. -/
def Dev.laneOn (d : Dev) : Bool := d.on RAT_DOM_STATUS.LSH_LANE_ON

/-- The lane carries frames of this device: powered, and not in electrical idle (Table 4.3). -/
def Dev.laneTx (d : Dev) : Bool := d.laneOn && d.run

/-- A frame falls due. -/
def mirrorDue (type : Nat) (p : Bytes) (d : Dev) : Dev :=
  if d.laneTx then d.lshMod fun l => { l with txq := l.txq ++ [(type, p)] } else d

/-- Whole frames until the lease expires. -/
def Dev.leaseLeft (d : Dev) : Nat :=
  if d.lst = 3 ∨ d.lst = 4 then (d.lsh.expiry - d.nowExt) / frMt else 0

/-- The STATUS payload (Table 13.2). -/
def statusPayload (renew released : Bool) (d : Dev) : Bytes :=
  let holding := d.lst == 3 || d.lst == 4
  let flags := d.rd LSH_CFG.RANK + 2 * b2n (d.on LSH_STATUS.ELIGIBLE) + 4 * b2n (d.lst == 2) + 8 * b2n holding +
    16 * b2n (renew && holding) + 32 * b2n released
  beBytes 8 d.now ++ beBytes 1 d.lst ++ beBytes 1 (d.rd LSH_STATUS.HEALTH) ++ beBytes 1 flags ++ beBytes 1 d.tier ++
    beBytes 2 d.leaseLeft ++ beBytes 1 d.node ++ [0]

/-- Own values that R294 compares, as Table 13.3 lays them out. -/
def Dev.gateBanks (d : Dev) : Nat :=
  ((List.range 4).map fun n => (d.rd (CHn_GATE_STATUS.OPER_BANK n) + 2 * d.rd (CHn_GATE_STATUS.HAVE_LIST n)) * 4 ^ n).foldl (· + ·) 0
def Dev.pegBanks (d : Dev) : Nat := d.rd PEG_SCHED_STAT.OPER_BANK + 2 * d.rd PEG_SCHED_STAT.PENDING
def Dev.spareTable (d : Dev) : Bytes := (List.range 64).map fun s => BitVec.ofNat 8 (d.spareByte s)

/-- The ALARMS word (Table 13.3). -/
def Dev.alarms (d : Dev) : Nat := d.rd FLD_GPI_LATCH.LATCH + 2 ^ 16 * d.rd FLD_CELL_STATUS.EOL

/-- The STATE payload (Table 13.3). -/
def statePayload (d : Dev) : Bytes :=
  beBytes 4 (d.rd RST_BOOT_GEN.GEN) ++
  beBytes 1 (d.rd RST_BOOT_STATUS.SLOT + 4 * d.rd RST_BOOT_STATUS.CFG_DEFAULTED) ++
  beBytes 1 d.gateBanks ++ beBytes 1 d.pegBanks ++ [0] ++ beBytes 4 (d.rd PEG_SYNC_SCHED_CRC.CRC) ++ beBytes 4 d.alarms ++
  beBytes 1 (d.node + 128 * b2n (d.isRef || d.isFirst)) ++ [0, 0, 0] ++ d.spareTable ++ List.replicate 12 0

/-- The SEQ payloads of a frame event (R280): at most 255 records each. -/
def seqPayloads : Nat → List (Nat × Nat) → List Bytes
  | 0, _ => []
  | fuel + 1, xs =>
    if xs.isEmpty then []
    else ((xs.take 255).flatMap fun (s, v) => beBytes 4 (s * 2 ^ 22 + v)) :: seqPayloads fuel (xs.drop 255)

/-- The lane recalibrates (R276). -/
def Dev.laneRecal (d : Dev) : Bool := decide (d.nowExt < d.lsh.recalTo)

/-- The lane begins to recalibrate: 10,067 mt, the bound of R276 (assumption log 41). -/
def laneRecalGo (d : Dev) : Dev :=
  d.lshMod fun l => { l with recalFr := 0, recalDue := false, recalTo := d.nowExt + 10067 }

/-- A mirror frame: header, payload and check word between K27.7 and K29.7 (R277); `bad` inverts the check word (R218). -/
def mirrorLine (ty seq : Nat) (bad : Bool) (p : Bytes) : List (Bool × Byte) :=
  let b := beBytes 4 (ty * 2 ^ 28 + seq * 2 ^ 16 + p.length) ++ p
  let c := crc32 b
  [(true, 0xFB#8)] ++ (b ++ beBytes 4 (if bad then c ^^^ 0xFFFFFFFF else c)).map (fun x => (false, x)) ++ [(true, 0xFD#8)]

/-- A due mirror frame is sent (R277, R278); one that falls due in a recalibration waits, and a recalibration follows the frames
of a superframe event (R276). -/
def mirrorSend (d : Dev) : Dev :=
  match d.lsh.txq with
  | (ty, p) :: rest =>
    if d.laneTx && !d.laneRecal then
      let (lost, d) := bufRead .mirror d
      let n := d.lsh.seqTx.getD (ty - 1) 0
      let d := (d.lshMod fun l => { l with txq := rest, seqTx := l.seqTx.set (ty - 1) ((n + 1) % 256) }).emit
        (.mirror (mirrorLine ty n lost p))
      d.when (rest.isEmpty && d.lsh.recalDue) laneRecalGo
    else d
  | [] => d

/-! ### Take and release (R287, R291, R292) -/

/-- Move to a state; LSH_HOLD_OUT follows it (R287). -/
def setLst (s : Nat) (d : Dev) : Dev :=
  (d.wr LSH_STATUS.STATE s).wrB LSH_STATUS.HOLD_OUT (s == 2 || s == 3 || s == 4)

/-- Holder or not: FRE_STATUS.HOLDER and the Pegline role grant (R283, R257). -/
def setHolder (b : Bool) (d : Dev) : Dev :=
  roleUpdate ((d.wrB FRE_STATUS.HOLDER b).wrB PEG_SYNC_STATUS.ROLE b)

/-- Set the lease expiry, LEASE_FR frames from now, and show it (R286, R291). -/
def setExpiry (d : Dev) : Dev :=
  let t := d.nowExt + d.leaseFr * frMt
  ((d.wr LSH_EXPIRY_LO.T (t % 2 ^ 32)).wr LSH_EXPIRY_HI.T (t / 2 ^ 32 % 2 ^ 32)).lshMod fun l => { l with expiry := t }

/-- SEQ_STALE (R291). -/
def Dev.seqStale (d : Dev) : Bool :=
  if d.lsh.lowAll then !d.lsh.everUp else decide (d.lsh.lowEv + 2 < d.lsh.goodFr)

/-- The take (R291). -/
def leashTakeNow (d : Dev) : Dev :=
  let d := setHolder true (setLst 3 d)
  let d := (takeover d).evIf d.seqStale LSH_EVENT.SEQ_STALE
  let d := alarmMerge (d.rd LSH_PEER_ALARM.ALARMS) d
  let d := setExpiry d
  let d := (d.wr LSH_TAKE_T_LO.T (d.now % 2 ^ 32)).wr LSH_TAKE_T_HI.T (d.now / 2 ^ 32)
  let d := (d.ev LSH_EVENT.TAKEN).sat LSH_TAKES.COUNT
  llbEmit 7 1 (d.rd LSH_STATUS.PEER_HEALTH) (mirrorDue 1 (statusPayload true false d) d)

/-- The release of a holder, into state s (R292). -/
def leashRelease (s : Nat) (d : Dev) : Dev :=
  let d := tokenGone (setHolder false (setLst s d))
  let d := ((d.ev LSH_EVENT.RELEASED).sat LSH_RELEASES.COUNT).lshMod fun l => { l with relEv := 0 }
  llbEmit 7 0 (d.rd LSH_STATUS.PEER_HEALTH) (mirrorDue 1 (statusPayload false true d) d)

/-- Leave the active states for state s: a holder releases. -/
def leashLeave (s : Nat) (d : Dev) : Dev := if d.lst = 3 ∨ d.lst = 4 then leashRelease s d else setLst s d

/-! ### Collisions (R290) -/

/-- Whether this device yields. -/
def Dev.yields (d : Dev) : Bool :=
  if d.lst = 2 ∧ d.on LSH_STATUS.PEER_HOLDING then true
  else if d.peerPresent then
    let a := d.rd LSH_CFG.RANK
    let b := d.rd LSH_STATUS.PEER_RANK
    if a ≠ b then decide (b < a) else if d.node ≠ d.lsh.pNode then decide (d.lsh.pNode < d.node) else true
  else d.rd LSH_CFG.RANK == 1

/-- Start the backoff of a device that yields: 4 r frames, r drawn from 1 to 8. -/
def startBackoff (d : Dev) : Dev :=
  let (x, d) := d.draw
  d.lshMod fun l => { l with backoff := some (d.frameExt + 4 * (1 + x % 8)) }

/-- A collision in CLAIMING. -/
def claimCollision (d : Dev) : Dev :=
  if d.lst = 2 ∧ d.yields then
    startBackoff (((setLst 1 d).ev LSH_EVENT.CLAIM_YIELD).sat LSH_YIELDS.COUNT)
  else d

/-- Both devices hold, as far as this one sees (R290). -/
def Dev.dualHeld (d : Dev) : Bool :=
  (d.lst == 3 || d.lst == 4) && (d.on LSH_STATUS.HOLD_IN || (d.peerPresent && d.on LSH_STATUS.PEER_HOLDING))

/-- A dual hold, at a frame event; one that this device ends by yielding is counted (R290, Table 13.5). -/
def dualHold (d : Dev) : Dev :=
  if d.dualHeld then
    let d := d.ev LSH_EVENT.DUAL_HOLD
    if d.yields then startBackoff (leashRelease 1 (d.sat LSH_DUAL_HOLD.COUNT)) else d
  else d

/-! ### Mirror frames in (R277, R280, R294) -/

/-- Show what R285 derives from the partner. -/
def peerShow (d : Dev) : Dev :=
  (d.wrB LSH_STATUS.PEER_PRESENT d.peerPresent).wrB LSH_STATUS.PEER_HEALTHY d.peerHealthy

/-- A STATUS frame of the partner. -/
def statusIn (p : Bytes) (d : Dev) : Dev :=
  let fl := byteAt p 10
  let d := (d.wr LSH_STATUS.PEER_HEALTH (byteAt p 9)).wrB LSH_STATUS.PEER_RANK (bit fl 0)
  let d := d.wrB LSH_STATUS.PEER_HOLDING (bit fl 3)
  let d := d.lshMod fun l => { l with pClaim := bit fl 2, pElig := bit fl 1, pNode := byteAt p 14 % 32 }
  let d := if bit fl 3 && bit fl 4 then
      ((d.wr LSH_PEER_RENEW_LO.T (d.now % 2 ^ 32)).wr LSH_PEER_RENEW_HI.T (d.now / 2 ^ 32)).lshMod fun l =>
        { l with renewEv := 0, renewAge := some 0, peerRel := false }
    else d
  let d := if bit fl 5 then (d.ev LSH_EVENT.PEER_RELEASED).lshMod fun l => { l with peerRel := true } else d
  peerShow (if bit fl 2 || bit fl 3 then claimCollision d else d)

/-- A SEQ frame of the partner. -/
def seqIn (p : Bytes) (d : Dev) : Dev :=
  let d := d.wr LSH_SEQ_AGE.FR 0
  (List.range (p.length / 4)).foldl (fun d k =>
    let x := beNat (slice p (4 * k) 4)
    d.strmMod (x / 2 ^ 22) fun s => { s with mirror := some (x % 65536) }) d

/-- Update a match bit: the event when it has fallen and stays 0 for 2 STATE frames (R294). -/
def matchBit (ok : Bool) (bad : Nat) (f e : Field) (d : Dev) : Nat × Dev :=
  let n := if ok then 0 else if bad = 0 && !d.on f then 0 else bad + 1
  (n, (d.wrB f ok).evIf (n == 2) e)

/-- A STATE frame of the partner (R281, R294). -/
def stateIn (p : Bytes) (d : Dev) : Dev :=
  let d := (d.wr LSH_PEER_GEN.VALUE (beNat (slice p 0 4))).wr LSH_PEER_SCHED_CRC.VALUE (beNat (slice p 8 4))
  let d := d.wr LSH_PEER_CFG.BYTES (byteAt p 4 + byteAt p 5 * 2 ^ 8 + byteAt p 6 * 2 ^ 16 + byteAt p 16 * 2 ^ 24)
  let d := d.wr LSH_PEER_ALARM.ALARMS (beNat (slice p 12 4))
  let cfg := beNat (slice p 0 4) == d.rd RST_BOOT_GEN.GEN && byteAt p 5 == d.gateBanks && byteAt p 6 == d.pegBanks &&
    beNat (slice p 8 4) == d.rd PEG_SYNC_SCHED_CRC.CRC
  let (a, d) := matchBit cfg d.lsh.cfgBad LSH_STATUS.CFG_MATCH LSH_EVENT.CFG_MISMATCH d
  let (b, d) := matchBit (slice p 20 64 == d.spareTable) d.lsh.roleBad LSH_STATUS.ROLE_MATCH LSH_EVENT.ROLE_MISMATCH d
  d.lshMod fun l => { l with cfgBad := a, roleBad := b }

/-- The lane is up: code-group sync, and a good frame within the last 12 frame events (R276). -/
def laneUp (d : Dev) : Dev :=
  if d.laneOn && d.peerPresent && !d.on LSH_STATUS.LANE_UP then
    ((d.wrB LSH_STATUS.LANE_UP true).ev LSH_EVENT.LANE_UP).lshMod fun l => { l with everUp := true }
  else d

/-- A mirror frame arrives: header to check word; symOk tells whether every code group is good (R277). -/
def mirrorReceive (m : Nat) (symOk : Bool) (bs : Bytes) (d : Dev) : Dev :=
  let d := atMote m d
  if !d.laneOn then d
  else if d.laneRecal then d.sat LSH_RX_ERR.COUNT
  else
    let h := beNat (bs.take 4)
    let ty := h / 2 ^ 28
    let len := h % 65536
    let p := slice bs 4 (bs.length - 8)
    let lenOk := if ty = 1 then len == 16 else if ty = 2 then len % 4 == 0 && decide (4 ≤ len ∧ len ≤ 1020)
      else if ty = 3 then len == 96 else false
    let ok := symOk && decide (8 ≤ bs.length) && lenOk && p.length == len &&
      beNat (bs.drop (bs.length - 4)) == crc32 (bs.take (bs.length - 4))
    if !ok then d.sat LSH_RX_ERR.COUNT
    else
      let d := laneUp (peerShow ((d.sat LSH_RX_FRAMES.COUNT).lshMod fun l => { l with goodFr := 0 }))
      if ty = 1 then statusIn p d else if ty = 2 then seqIn p d else stateIn p d

/-- The lane loses sync, or has no good frame for 12 frame events (R276). -/
def laneDown (d : Dev) : Dev :=
  if d.on LSH_STATUS.LANE_UP then
    ((d.wrB LSH_STATUS.LANE_UP false).ev LSH_EVENT.LANE_DOWN).sat LSH_LANE_DOWN.COUNT
  else d

/-! ### The state machine (Table 13.5) -/

/-- The device becomes eligible. -/
def leashEligible (d : Dev) : Dev :=
  if d.lst = 0 && d.eligibleNow then
    ((setLst 1 d).wrB LSH_STATUS.ELIGIBLE d.lsh.renew).lshMod fun l => { l with
      relEv := 0, lowEv := 0, renewEv := 0, lowAll := !d.on LSH_STATUS.HOLD_IN, everUp := d.on LSH_STATUS.LANE_UP }
  else d

/-- The device ceases to be eligible. -/
def leashOff (d : Dev) : Dev := if d.lst = 0 then d else leashLeave 0 (d.wrB LSH_STATUS.ELIGIBLE false)

/-- LEASH_INELIGIBLE. -/
def leashIneligible (d : Dev) : Dev := if d.eligibleNow then d else leashOff d

/-- Two frame events have passed in CLAIMING. -/
def leashTake (d : Dev) : Dev := if d.lst = 2 ∧ 2 ≤ d.lsh.claimEv then leashTakeNow d else d

/-- A LAPSING device reaches its expiry. -/
def leaseExpiry (m : Nat) (d : Dev) : Dev :=
  let d := atMote m d
  if d.lst = 4 ∧ d.lsh.expiry ≤ d.nowExt then leashRelease 1 d else d

/-- LSH_CTRL.RELEASE. -/
def leashReleaseWrite (d : Dev) : Dev := if d.lst = 3 ∨ d.lst = 4 then leashRelease 1 d else d

/-- LSH_HOLD_IN changes level (R289, R290, R295). -/
def holdInChange (b : Bool) (d : Dev) : Dev :=
  if d.on LSH_STATUS.HOLD_IN = b then d
  else
    let d := (d.wrB LSH_STATUS.HOLD_IN b).lshMod fun l =>
      { l with lowEv := 0, highIdle := 0, lowAll := false, bivFall := !b && decide (4 ≤ d.tier) }
    if b then claimCollision d else d

/-- A backoff has ended. -/
def backoffEnd (d : Dev) : Dev :=
  match d.lsh.backoff with
  | some t => if t ≤ d.frameExt then d.lshMod fun l => { l with backoff := none } else d
  | none => d

/-- A condition of R293 holds. Renewals keep arriving while the last one is less than 12 frame events old. -/
def Dev.lineFaulty (d : Dev) : Bool :=
  let l := d.lsh
  (!d.on LSH_STATUS.HOLD_IN && decide (d.guardFr ≤ l.lowEv) && (match l.renewAge with | some a => decide (a < 12 ∧ a < l.lowEv) | none => false)) ||
  (d.on LSH_STATUS.HOLD_IN && decide (d.guardFr ≤ l.highIdle))

/-- R293: the line and the lane disagree. -/
def lineFault (d : Dev) : Dev := d.evIf d.lineFaulty LSH_EVENT.LINE_FAULT

/-- LSH_HOLD_IN fell in Bivouac and has stayed low for GUARD_FR frames (R295). -/
def Dev.leaseWake (d : Dev) : Bool :=
  decide (4 ≤ d.tier) && d.lsh.bivFall && !d.on LSH_STATUS.HOLD_IN && decide (d.guardFr ≤ d.lsh.lowEv)

/-- R289. -/
def Dev.canClaim (d : Dev) : Bool :=
  let l := d.lsh
  d.eligibleNow && l.renew && (match l.backoff with | some t => decide (t ≤ d.frameExt) | none => true) &&
  decide (d.leaseFr + d.guardFr ≤ l.relEv) && !d.on LSH_STATUS.HOLD_IN && decide (d.guardFr ≤ l.lowEv) &&
  (l.peerRel || decide (d.leaseFr + d.guardFr ≤ l.renewEv)) &&
  !(d.peerPresent && l.pElig && !d.on LSH_STATUS.PEER_HOLDING && !d.on LSH_STATUS.PEER_RANK && d.on LSH_CFG.RANK)

/-- A STATUS due event: the health score is read and renew_ok decided (R285). -/
def healthRead (d : Dev) : Dev :=
  let ok := d.renewOk
  ((d.wr LSH_STATUS.HEALTH (d.rd SHD_STATUS.SCORE)).wrB LSH_STATUS.ELIGIBLE (d.eligibleNow && ok)).lshMod fun l =>
    { l with renew := ok }

/-- A STATUS frame falls due: a holder renews its lease, unless it has expired, or lets it lapse (R278, R286). -/
def statusDue (d : Dev) : Dev :=
  let ok := d.lsh.renew && !(d.lst == 4 && decide (d.lsh.expiry ≤ d.nowExt))
  let d :=
    if d.lst = 3 ∨ d.lst = 4 then
      if ok then setExpiry (setLst 3 d)
      else if d.lst = 3 then ((setLst 4 d).ev LSH_EVENT.LAPSING).sat LSH_LAPSES.COUNT else d
    else d
  mirrorDue 1 (statusPayload ok false d) d

/-- Streams of which SEQ_NEXT is mirrored now (R280). -/
def Dev.stamped (d : Dev) : List (Nat × Nat) :=
  (d.tab.streams.filter fun x => x.2.stamp && d.sHost x.1).map fun x => (x.1, d.seqNext x.1)

/-- The counts of a frame event (R276, R289, R291, R293, R230). -/
def leashCount (d : Dev) : Dev :=
  let low := !d.on LSH_STATUS.HOLD_IN
  let idle := d.peerPresent && !d.lsh.pClaim && !d.on LSH_STATUS.PEER_HOLDING
  let d := d.lshMod fun l => { l with
    relEv := l.relEv + 1, renewEv := l.renewEv + 1, renewAge := l.renewAge.map (· + 1), claimEv := l.claimEv + 1, goodFr := min (l.goodFr + 1) 65535
    lowEv := if low then l.lowEv + 1 else 0
    highIdle := if !low && idle then l.highIdle + 1 else 0
    recalFr := if d.laneOn then l.recalFr + 1 else 0 }
  peerShow (d.wr LSH_SEQ_AGE.FR (min (d.rd LSH_SEQ_AGE.FR + 1) 65535))

/-- The frames of a frame event: STATUS, SEQ, STATE (R278); `claims`: a claim begins with it (Table 13.5). -/
def leashSend (sf claims : Bool) (d : Dev) : Dev :=
  let d := if d.frameExt % 4 = 0 then statusDue d
    else if claims then mirrorDue 1 (statusPayload false false d) d else d
  let st := d.stamped
  let d := if d.lst = 3 ∨ d.lst = 4 then
      (seqPayloads (st.length + 1) st).foldl (fun d p => mirrorDue 2 p d) d else d
  let d := d.tabMod fun t => { t with streams := t.streams.map fun x => (x.1, { x.2 with stamp := false }) }
  let p := statePayload d
  if d.laneTx && (sf || p != d.lsh.lastSt) then
    (mirrorDue 3 p d).lshMod fun l => { l with lastSt := p, recalDue := l.recalDue || sf }
  else d

/-- The frame event of the Leash logic; `sf` for a superframe event (R288). -/
def leashFrame (sf : Bool) (d : Dev) : Dev :=
  let d := leashCount d
  let d := d.when (!d.peerPresent) laneDown
  let d := dualHold (d.when (d.on LSH_STATUS.HOLD_IN) claimCollision)
  let d := d.when (d.frameExt % 4 == 0) healthRead
  let claims := d.lst == 1 && d.canClaim
  leashSend sf claims (d.when claims fun d => (setLst 2 d).lshMod fun l => { l with claimEv := 0 })

/-- LSH_CTRL.EN written (R103, R284): STARTING passes to ON in the next CLK; STOPPING releases the token at once and is quiet in
the next CLK. -/
def leashEn (b : Bool) (d : Dev) : Dev :=
  let d := d.wrB LSH_CTRL.EN b
  let r := d.rd LSH_STATUS.RUN
  if b then d.wr LSH_STATUS.RUN (runEnable true r) else (leashOff d).wr LSH_STATUS.RUN (runDisable r)

end Sys2Proof.Machine
end

