-- ==== Sys2Proof/Machine/ShdOps.lean ====
section
/-!
DEFINITION. Machine/ShdOps.lean: the Sheepdog: fences, loopback tests, table parity, the health score and its report
(spec/18_faults_health_and_the_sheepdog.md, R375 to R391).
-/

namespace Sys2Proof.Machine

/-- Change the Sheepdog's internals. -/
def Dev.shdMod (d : Dev) (f : Shd → Shd) : Dev := { d with shd := f d.shd }

/-! ### Fences (R380 to R383) -/

/-- The cause bits of channel n (SHD_FENCE_STAT, Table 18.3). -/
def Dev.causes (d : Dev) (n : Nat) : Nat := bits (d.rd SHD_FENCE_STAT.CH) (8 * n) 7

/-- Write channel n's byte of SHD_FENCE_STAT, and FENCED with it. -/
def setCauses (n c : Nat) (fencing : Bool) (d : Dev) : Dev :=
  let d := d.wr SHD_FENCE_STAT.CH (setBits (d.rd SHD_FENCE_STAT.CH) (8 * n) 8 (c + 128 * b2n fencing))
  (d.wrB (CHn_STATUS.FENCED n) (c != 0)).chMod n fun x => { x with fencing := fencing }

/-- Channel n is fenced for a fault cause (other than SW and TIER). -/
def Dev.faultFence (d : Dev) (n : Nat) : Bool := d.causes n % 32 != 0

/-- The frame on a failed lane ends where the lane failed (R381). -/
def cutWire (n : Nat) (d : Dev) : Dev :=
  let c := d.ch n
  let xs := (wireFrm c.cur).filter (fun x => x.data.length != 0) ++ wireFrm c.pre
  xs.foldl (fun d x => dropFrame n 40 4 x d) (d.chMod n fun c => { c with cur := none, pre := none })

/-- At a fence with cause TABLE the engine forgets its operational bank (R194, R382). -/
def gateForgets (n : Nat) (d : Dev) : Dev :=
  setGate n { (d.gate n) with oper := none, last := (d.gate n).oper.or (d.gate n).last } d

/-- A cause of Table 18.3 arises on channel n (Table 18.4). -/
def fence (n cause : Nat) (d : Dev) : Dev :=
  let old := d.causes n
  let bitv := 2 ^ cause
  if old ≠ 0 then
    let d := setCauses n (putBit old cause true) (d.ch n).fencing d
    let d := d.wr (SHD_FENCE_RPTn_RX.CAUSES n) (putBit (d.rd (SHD_FENCE_RPTn_RX.CAUSES n)) cause true)
    let d := if cause = 4 then gateForgets n d else d
    if cause = 2 ∧ (d.ch n).fencing then cutWire n d else d
  else
    let d := setCauses n bitv true d
    let d := (d.wr (SHD_FENCE_RPTn_T_LO.T n) d.now).wr (SHD_FENCE_RPTn_T_HI.T n) (d.now / 2 ^ 32)
    let d := (d.wr (SHD_FENCE_RPTn_TX.TX_DROPS n) 0).wr (SHD_FENCE_RPTn_RX.CAUSES n) bitv
    let d := d.wr (SHD_FENCE_RPTn_RX.RX_DROPS n) (b2n (d.ch n).asm.isSome)
    let d := gateFallback n (d.chMod n fun c => { c with asm := none, asmSkip := none, recalDue := false })
    let d := if cause = 4 then gateForgets n d else d
    let d := if cause = 2 then cutWire n d else d
    dropQueues n 40 4 d

/-- ACTION0 of the default of source src and of every valid entry that can decide its frames (R178, R179). -/
def Dev.actionsFor (d : Dev) (src : Nat) : List Nat :=
  let key := if bit (d.rd (CLS_PROFILEs.FIELDS src)) 7 then src else 0
  d.rd (CLS_DEFAULTs.ACTION0 src) ::
    ((d.validEnts false).map (d.entWords false ·)).filterMap (fun w => if bits (w.getD 3 0) 22 3 == key then some (w.getD 5 0) else none) ++
    ((d.validEnts true).map (d.entWords true ·)).filterMap (fun w =>
      if (src &&& bits (w.getD 8 0) 22 3) == bits (w.getD 3 0) 22 3 then some (w.getD 10 0) else none)

/-- A classifier action delivers frames of source n to a queue pair of function f (R176). -/
def Dev.carriesRx (d : Dev) (n f : Nat) : Bool :=
  (d.actionsFor n).any fun a0 => bits a0 0 2 == 1 && bits a0 10 4 == f &&
    (match d.ringOf f 1 (bits a0 14 7) with | some r => (d.ring r).st != 0 | none => false)

/-- Function f has a transmit ring whose frames go to channel n: by its DEST, or by a classifier action (R176). -/
def Dev.carriesTx (d : Dev) (n f : Nat) : Bool :=
  let cls := (d.actionsFor 5).any fun a0 => bits a0 0 2 == 0 && bit (bits a0 2 4) n
  d.host.rings.any fun (r, x) => ringKind r == 0 && x.st != 0 && (x.dest == n + 1 || (x.dest == 0 && cls)) && d.ringFn r == some f

/-- The fence is complete (Table 18.4). -/
def fenceComplete (n : Nat) (d : Dev) : Dev :=
  let c := d.ch n
  if c.fencing && c.cur.isNone && c.pre.isNone && c.queues.all (·.isEmpty) && c.expq.isEmpty then
    let d := forN 15 (fun k d => if d.carriesTx n (k + 1) || d.carriesRx n (k + 1) then vfEvent (k + 1) 3 d else d) d
    (setCauses n (d.causes n) false d).evIf (d.faultFence n) SHD_EVENT.CH_FAULT
  else d

/-- No cause is left: counters, reception and the gate engine resume (R382). -/
def unfence (n : Nat) (d : Dev) : Dev := gateRearm n (setCauses n 0 false d)

/-- The last loopback result of lane k. -/
def Dev.lbResult (d : Dev) (k : Nat) : Nat := bits (d.rd SHD_LB_RESULT.RESULT) (4 * k) 2

/-- Every fault cause set allows the lift (R382). -/
def Dev.liftOk (d : Dev) (n : Nat) : Bool :=
  let c := d.causes n
  (!bit c 2 || d.bitOf CLK_STATUS.LANE_LOCK n) && (!bit c 3 || d.lbResult n == 1) && !(d.ch n).fencing

/-- SHD_FENCE_CTRL.LIFT written for channel n. -/
def liftWrite (n : Nat) (d : Dev) : Dev :=
  d.shdMod fun s => { s with lift := s.lift.set n true, armed := s.armed.set n false }

/-- A LIFT is carried out or refused at the frame event after it (R382). -/
def liftApply (n : Nat) (d : Dev) : Dev :=
  if d.shd.armed.getD n false then
    let d := d.shdMod fun s => { s with lift := s.lift.set n false, armed := s.armed.set n false }
    let c := d.causes n
    if c % 64 = 0 then d
    else if d.liftOk n then
      let d := d.ev SHD_EVENT.LIFT_DONE
      if bit c 6 then setCauses n 64 false d else unfence n d
    else d.ev SHD_EVENT.LIFT_REFUSED
  else d

/-- The tier returns channel n: its TIER bit clears (Table 18.4). -/
def tierReturn (n : Nat) (d : Dev) : Dev :=
  let c := d.causes n
  if bit c 6 then (if c = 64 then unfence n d else setCauses n (putBit c 6 false) (d.ch n).fencing d) else d

/-! ### Queue SRAM (Tables 18.3 and 18.6) -/

/-- An error stands in the queue SRAM of channel n. -/
def Dev.queueBad (d : Dev) (n : Nat) : Bool := d.pm.upsets.any fun u => u.buf == .queue (Fin.ofNat 4 n)

/-- Frames joined or left the queues of channel n since old: an error that stands there is found by its parity. -/
def queueParity (old : Dev) (n : Nat) (d : Dev) : Dev :=
  if d.queueBad n && (d.ch n).queues.map (·.map (·.id)) != (old.ch n).queues.map (·.map (·.id)) then
    fence n 1 (d.pmMod fun p => { p with upsets := p.upsets.filter fun u => u.buf != .queue (Fin.ofNat 4 n) })
  else d

/-- An operation f that may queue or dequeue frames. -/
def queueing (f : Dev → Dev) (d : Dev) : Dev := forN 4 (queueParity d) (f d)

/-! ### Lanes (Table 18.3, R377) -/

/-- The synthesiser of lane n loses lock while the lane is powered. -/
def laneUnlock (n m : Nat) (d : Dev) : Dev :=
  let d := atMote m d
  if d.bitOf RAT_DOM_STATUS.LANE_ON n && d.bitOf CLK_STATUS.LANE_LOCK n then
    ((d.putBitOf CLK_STATUS.LANE_LOCK n false).ev CLK_EVENT.LANE_UNLOCK).chMod n fun c => { c with unlockT := some d.nowExt }
  else d

/-- Lane n regains lock. -/
def laneRelock (n : Nat) (d : Dev) : Dev :=
  if d.bitOf RAT_DOM_STATUS.LANE_ON n then
    (d.putBitOf CLK_STATUS.LANE_LOCK n true).chMod n fun c => { c with unlockT := none }
  else d

/-- Lane n has stayed unlocked for 8 fr. -/
def laneFence (n m : Nat) (d : Dev) : Dev :=
  let d := atMote m d
  match (d.ch n).unlockT with
  | some t =>
    if d.bitOf RAT_DOM_STATUS.LANE_ON n && decide (t + 8 * frMt ≤ d.nowExt) then fence n 2 (d.chMod n fun c => { c with unlockT := none })
    else d
  | none => d

/-- Lane n may be tested (R377). -/
def Dev.testable (d : Dev) (n : Nat) : Bool :=
  d.bitOf RAT_DOM_STATUS.LANE_ON n && (d.chRun n == 0 || d.causes n % 64 != 0)

/-- The index of the superframe in progress. -/
def Dev.sfIx (d : Dev) : Nat := d.frameExt / 1024

/-- The frame in progress is the one of a superframe event whose index is a multiple of k; a step may bring one too (R34). -/
def Dev.sfNow (d : Dev) (k : Nat) : Bool := (d.frameExt % 1024 == 0 || d.rat.sfEv) && d.sfIx % max 1 k == 0

/-- The next lane in turn starts its test (R377). -/
def loopStart (d : Dev) : Dev :=
  if d.pd 1 && d.on SHD_CTRL.LB_EN && d.sfNow (d.rd SHD_CFG.LB_SF) && d.shd.tested != some d.sfIx && !d.on SHD_STATUS.TEST_BUSY then
    match [1, 2, 3, 4].find? fun i => d.testable ((d.shd.turn + i) % 4) with
    | some i =>
      let n := (d.shd.turn + i) % 4
      ((d.wrB SHD_STATUS.TEST_BUSY true).wr SHD_STATUS.TEST_LANE n).shdMod fun s =>
        { s with tested := some d.sfIx, turn := n, testFr := d.frameExt }
    | none => d
  else d

/-- The test ends after 1 fr with a result: 1 PASS, 2 NO_LOCK, 3 ERRORS (R377). -/
def loopEnd (res : Nat) (d : Dev) : Dev :=
  if d.on SHD_STATUS.TEST_BUSY && decide (d.shd.testFr < d.frameExt) then
    let n := d.rd SHD_STATUS.TEST_LANE
    let d := d.wrB SHD_STATUS.TEST_BUSY false
    let d := d.wr SHD_LB_RESULT.RESULT (setBits (d.rd SHD_LB_RESULT.RESULT) (4 * n) 4 res)
    let d := (d.wrap SHD_LB_RESULT.TESTS).evIf (res != 1) SHD_EVENT.LB_FAIL
    let d := if res ≠ 1 ∧ d.chRun n = 0 then fence n 3 d else d
    if d.chRun n = 0 ∧ d.on (CHn_CTRL.EN n) then chEnable n d else d
  else d

/-! ### Table parity (R387) -/

/-- The window of Table 18.5 that holds the word at PF0 BAR0 offset o: its code and the offset of its first byte. -/
def tblWindow (o : Nat) : Option (Nat × Nat) :=
  if 0x200000 ≤ o ∧ o < 0x210000 then some (3, 0x200000)
  else if 0x210000 ≤ o ∧ o < 0x230000 then some (0, 0x210000)
  else if 0x230000 ≤ o ∧ o < 0x234000 then some (1, 0x230000)
  else if 0x280000 ≤ o ∧ o < 0x288000 then some (2, 0x280000)
  else if 0x2C0000 ≤ o ∧ o < 0x2C0800 then some (4, 0x2C0000)
  else if 0x2E0000 ≤ o ∧ o < 0x2E0880 then some (5, 0x2E0000)
  else none

/-- A classifier entry whose parity failed is invalidated as a commit with VALID = 0 would (R182). -/
def clsInvalid (mk : Bool) (i : Nat) (d : Dev) : Dev :=
  let c := d.entCtrl mk i
  if bit c 0 then d.setWord (entOff mk i (ctrlIdx mk)) ((bits c 8 8 + 1) % 256 * 256) else d

/-- A gate-list word whose parity failed. -/
def gateParity (n b : Nat) (d : Dev) : Dev :=
  let g := d.gate n
  if g.oper = some b then fence n 4 d
  else if g.st = 3 ∧ g.pend = some b then gateCancel n d else d

/-- A lifeline template whose parity failed stops its channel, or the event frames, as a refused start does (R321). -/
def llbParity (c : Nat) (d : Dev) : Dev :=
  let r := if c = 16 then d.rd LLB_STATUS.EV_RUN else d.llbRun c
  if r = 0 then d else llbRefresh (llbRefuse c (if c < 16 then d.lcMod c fun x => { x with build := none } else d))

/-- A word of a table window fails parity at the sweep or a lookup (R387, Table 18.5). -/
def tableParity (o : Nat) (d : Dev) : Dev :=
  match tblWindow o with
  | none => d
  | some (w, base) =>
    if !d.pd 1 then d
    else
      let d := ((d.wr SHD_TBL_ERR.WINDOW w).wr SHD_TBL_ERR.WORD ((o - base) / 4)).sat SHD_TBL_ERR.COUNT
      let d := penalty 15 (d.ev SHD_EVENT.TABLE_ERR)
      let d := d.shdMod fun s => { s with errs := min (s.errs + 1) 65535 }
      match w with
      | 0 => clsInvalid false ((o - base) / 32) d
      | 1 => clsInvalid true ((o - base) / 64) d
      | 2 => setSw ((o - base) / 32) 7 (putBit (d.sw ((o - base) / 32) 7) 0 false) d
      | 3 => gateParity ((o - base) / 0x4000) ((o - base) / 0x2000 % 2) d
      | 4 =>
        if d.peg.oper = some ((o - base) / 0x400) then d.pegMod fun p => { p with badSlots := p.badSlots ++ [(o - base) % 0x400 / 16] }
        else d
      | _ => llbParity ((o - base) / 128) d

/-! ### Static conditions (Tables 18.2 and 18.7) -/

/-- Contributor 3 of channel n: ON, not fenced, down for at least 8,000 fr. -/
def Dev.longDown (d : Dev) (n : Nat) : Bool :=
  d.chRun n == 2 && !d.fenced n && !d.on (CHn_STATUS.LINK n) && decide (8000 ≤ d.shd.downFr.getD n 0)

/-- Pegline is ON in neither SYNC nor LONE. -/
def Dev.pegLost (d : Dev) : Bool :=
  d.rd PEG_STATUS.RUN == 2 && d.rd PEG_SYNC_STATUS.STATE != 3 && d.rd PEG_SYNC_STATUS.STATE != 4

/-- Contributor 5. -/
def Dev.pegNoSync (d : Dev) : Bool := d.pegLost && decide (1024 ≤ d.shd.noSync)

/-- Contributor 8. -/
def Dev.memWear (d : Dev) : Bool := decide (d.rd SHD_CFG.WEAR_LIM ≤ d.rd SHD_RETIRED.COUNT)

/-- The instances of static contributor k that hold (Table 18.2). -/
def Dev.statics (d : Dev) (k : Nat) : Nat :=
  match k with
  | 0 => b2n (!d.valid)
  | 1 => b2n (d.on CLK_STATUS.XREF_LOST)
  | 2 => ((List.range 4).filter d.faultFence).length
  | 3 => ((List.range 4).filter d.longDown).length
  | 4 => b2n (d.on PEG_SYNC_STATUS.LONE_FAULT)
  | 5 => b2n d.pegNoSync
  | 6 => b2n (d.on PEG_SYNC_STATUS.WEAK)
  | 7 => b2n (decide (1 ≤ d.ratGet RAT_STATUS.CAP_THERM))
  | 8 => b2n d.memWear
  | 9 => b2n (d.on SPK_STATUS.FAULT)
  | _ => b2n d.lineFaulty

/-- The word of Table 18.7. -/
def Dev.faultWord (d : Dev) : Nat :=
  b2n (!d.valid) + 2 * b2n (d.on CLK_STATUS.XREF_LOST) +
  ((List.range 4).map fun n => 2 ^ (2 + n) * b2n (d.faultFence n) + 2 ^ (6 + n) * b2n (d.longDown n)).foldl (· + ·) 0 +
  2 ^ 10 * b2n (d.on PEG_SYNC_STATUS.LONE_FAULT) + 2 ^ 11 * b2n d.pegNoSync + 2 ^ 12 * b2n (d.on PEG_SYNC_STATUS.WEAK) +
  2 ^ 13 * b2n (decide (1 ≤ d.ratGet RAT_STATUS.CAP_THERM)) + 2 ^ 14 * b2n d.memWear + 2 ^ 15 * b2n (d.on SPK_STATUS.FAULT) +
  2 ^ 16 * b2n d.lineFaulty + 2 ^ 17 * b2n (d.rd FLD_CELL_STATUS.EOL != 0) +
  2 ^ 18 * b2n (!d.on FLD_CELL_STATUS.PRESENT) + 2 ^ 19 * b2n d.dualHeld + 2 ^ 20 * b2n (decide (2 ≤ d.lsh.cfgBad)) +
  2 ^ 21 * b2n (d.ratOn RAT_STATUS.LOSS)

/-- SHD_FAULT follows its conditions; a bit that rises is set in SHD_FAULT_NEW (R389). It stands still in Bivouac. -/
def faultUpdate (d : Dev) : Dev :=
  if d.pd 1 then
    let old := d.rd SHD_FAULT.FAULT
    let new := d.faultWord
    let rise := new &&& (0x3FFFFF - old)
    let d := d.wr SHD_FAULT.FAULT new
    if rise = 0 then d else (d.wr SHD_FAULT_NEW.FAULT (d.rd SHD_FAULT_NEW.FAULT ||| rise)).ev SHD_EVENT.FAULT_NEW
  else d

/-! ### The score (R378, R379) -/

/-- Put the penalties of the static contributors into SHD_PEN, from the counts of the CLK before the frame event. -/
def staticPens (counts : List Nat) (d : Dev) : Dev :=
  forN 11 (fun k d => setPen k (min 255 (d.weight k * counts.getD k 0)) d) d

/-- The contributor with the largest penalty, the lowest index on a tie. -/
def Dev.worst (d : Dev) : Nat := (List.range 20).foldl (fun a k => if d.pen a < d.pen k then k else a) 0

/-- Score computation at a frame event. -/
def scoreCompute (counts : List Nat) (sf : Bool) (d : Dev) : Dev :=
  if d.pd 1 && d.booted then
    let d := staticPens counts d
    let total := ((List.range 20).map d.pen).foldl (· + ·) 0
    let old := d.rd SHD_STATUS.SCORE
    let new := 255 - min 255 total
    let lim := d.rd LSH_HEALTH.MIN
    let d := (d.wr SHD_STATUS.SCORE new).wr SHD_STATUS.WORST d.worst
    let d := d.evIf (decide (lim ≤ old ∧ new < lim)) SHD_EVENT.SCORE_LOW
    let d := d.evIf (decide (old < lim ∧ lim ≤ new)) SHD_EVENT.SCORE_OK
    d.shdMod fun s => { s with
      minScore := min s.minScore new
      lowSf := if sf && decide (new < lim) then min (s.lowSf + 1) (2 ^ 24 - 1) else s.lowSf }
  else d

/-- The counts of the static contributors. -/
def Dev.staticCounts (d : Dev) : List Nat := (List.range 11).map d.statics

/-- A decay step (R378). -/
def bucketDecay (d : Dev) : Dev :=
  if d.pd 1 && d.sfNow (d.rd SHD_CFG.DECAY_SF) && d.shd.decayed != some d.sfIx then
    let d := d.shdMod fun s => { s with decayed := some d.sfIx }
    forN 9 (fun i d =>
      let b := d.pen (11 + i)
      if b = 0 then d else setPen (11 + i) (b - max 1 (b / 16)) d) d
  else d

/-- The Sheepdog's frame counts. -/
def shdFrame (d : Dev) : Dev :=
  d.shdMod fun s => { s with
    armed := (List.range 4).map fun n => s.lift.getD n false
    downFr := (List.range 4).map fun n => if d.chRun n == 2 && !d.fenced n && !d.on (CHn_STATUS.LINK n) then s.downFr.getD n 0 + 1 else 0
    noSync := if d.pegLost then s.noSync + 1 else 0 }

/-! ### The report (R391) -/

/-- SHD_REPORT_CTRL.TAKE. -/
def reportTake (m : Nat) (d : Dev) : Dev :=
  let d := atMote m d
  let w0 := 1 + d.rd SHD_STATUS.SCORE * 2 ^ 8 + d.rd SHD_STATUS.WORST * 2 ^ 16 + d.tier * 2 ^ 21 + b2n d.holds * 2 ^ 24 + b2n d.valid * 2 ^ 25
  let fences := ((List.range 4).map fun n => d.causes n * 2 ^ (8 * n)).foldl (· + ·) 0
  let ws := [w0, d.rd SHD_FAULT.FAULT, d.now % 2 ^ 32, d.now / 2 ^ 32, fences, d.rd SHD_RETIRED.COUNT + d.shd.errs * 2 ^ 16,
    d.shd.minScore + d.shd.lowSf * 2 ^ 8]
  let ws := ws ++ [crc32 (ws.flatMap (leBytes 4))]
  let d := forN 8 (fun w d => d.wr (SHD_REPORTw.WORD w) (ws.getD w 0)) d
  ((d.wrB SHD_REPORT_CTRL.TAKE false).ev SHD_EVENT.REPORT_READY).shdMod fun s =>
    { s with errs := 0, minScore := d.rd SHD_STATUS.SCORE, lowSf := 0 }

/-! ### Gate votes without majority, forced recalibration (R198, R230) -/

/-- All three copies of a gate engine differ: counted, and the channel is fenced with cause GATE_VOTE. -/
def gateNoMaj (n : Nat) (d : Dev) : Dev :=
  if d.pd 1 then fence n 0 (d.sat (CHn_GATE_VOTE.NOMAJ n)) else d

/-- A lane's recalibration is forced (R230): an uplink's in a CLK in which no latched guaranteed class has its gate open, or 8 fr
late; it starts no frame until the one on the wire has ended and the recalibration is over. Pegline chain lanes A and B (4, 5)
recalibrate between slots, the Leash lane (6) between mirror frames. -/
def recalForced (lane m : Nat) (d : Dev) : Dev :=
  let d := atMote m d
  if lane < 4 then
    let age := (d.ch lane).recalFr
    let shutNow := (d.gate lane).gates &&& d.guarLatch lane == 0
    if d.pd 1 && d.bitOf RAT_DOM_STATUS.LANE_ON lane && decide (8000 ≤ age) && (shutNow || decide (8008 ≤ age)) &&
       !(d.ch lane).recal && !(d.ch lane).recalDue then
      recalGo lane (recalCount lane (d.chMod lane fun c => { c with recalDue := true }))
    else d
  else if lane < 6 then
    let due := if lane = 4 then d.peg.recalA else d.peg.recalB
    if d.on RAT_DOM_STATUS.PEG_LANES_ON && decide (8000 ≤ due) && d.pegIdle then
      recalCount lane (d.pegMod fun p => if lane = 4 then { p with recalA := 0 } else { p with recalB := 0 })
    else d
  else if d.laneOn && decide (8000 ≤ d.lsh.recalFr) && !d.laneRecal then laneRecalGo (recalCount lane d)
  else d

end Sys2Proof.Machine
end

