-- ==== Sys2Proof/Machine/SpkOps.lean ====
section
/-!
DEFINITION. Machine/SpkOps.lean: the service speaker
(spec/14_voice_ports_and_the_service_speaker.md, R314 to R317; spec/20_pins_package_and_electrical.md, R406).
-/

namespace Sys2Proof.Machine

/-- Change the speaker. -/
def Dev.spkMod (d : Dev) (f : Spk → Spk) : Dev := { d with spk := f d.spk }

/-- SPK_STATUS.STATE (Table 14.6): 0 OFF, 1 RAMP_UP, 2 PLAY, 3 RAMP_DOWN, 4 TRIPPED, 5 FAULT. -/
def Dev.spkSt (d : Dev) : Nat := d.rd SPK_STATUS.STATE

/-- The speaker's tick rate (SPK_CFG.RATE as read at STARTING). -/
def Dev.spkHz (d : Dev) : Nat := [8000, 16000, 48000].getD d.spk.rate 48000

/-- The tier powers the speaker (R317, Table 1.4). -/
def Dev.spkPower (d : Dev) : Bool := d.pd 5 && decide (d.tier ≤ 2)

/-! ### Gain (R314) -/

/-- Bisection for the largest g below 2^n more than a with g^40 × 10^vol at most 2^960. -/
def volSearch (vol : Nat) : Nat → Nat → Nat
  | 0, a => a
  | n + 1, a => if (a + 2 ^ n) ^ 40 * 10 ^ vol ≤ 2 ^ 960 then volSearch vol n (a + 2 ^ n) else volSearch vol n a

/-- −0.5 × VOL dB as a gain in units of 2^-24, rounded down (assumption log 27). -/
def volGain (vol : Nat) : Nat := volSearch vol 25 0

/-- The gain that VOL and MUTE ask for. -/
def Dev.volTarget (d : Dev) : Nat := if d.on SPK_CFG.MUTE then 0 else volGain (d.rd SPK_CFG.VOL)

/-- The VOL gain as it stands in its ramp. -/
def Spk.vol (s : Spk) : Nat :=
  if s.vLen ≤ s.vPos then s.vTo
  else ((s.vFrom : Int) + ((s.vTo : Int) - s.vFrom) * s.vPos / (s.vLen : Int)).toNat

/-- VOL or MUTE is written: the gain reaches its new value in equal steps over RAMP_MS (R314). -/
def spkVol (d : Dev) : Dev :=
  let n := fadeTicks (d.rd SPK_CFG.RAMP_MS) d.spkHz
  let t := d.volTarget
  if t = d.spk.vTo then d else d.spkMod fun s => { s with vFrom := s.vol, vTo := t, vPos := 0, vLen := n }

/-- The ramp gain of the present state as a fraction. -/
def Dev.spkGain (d : Dev) : Nat × Nat :=
  let s := d.spk
  let l := max 1 s.rLen
  let k := min s.fr l
  match d.spkSt with
  | 1 => (s.gN * l + (s.gD - s.gN) * k, s.gD * l)
  | 2 => (1, 1)
  | 3 => (s.gN * (l - k), s.gD * l)
  | _ => (0, 1)

/-! ### The protection state machine (R316, Table 14.6) -/

/-- Enter a state; a ramp begins at gain g and lasts RAMP_MS. -/
def spkEnter (st : Nat) (g : Nat × Nat) (d : Dev) : Dev :=
  (d.wr SPK_STATUS.STATE st).spkMod fun s =>
    { s with fr := 0, gN := g.1, gD := g.2, rLen := 8 * d.rd SPK_CFG.RAMP_MS, clean := false }

/-- STARTING: RATE is read, switching starts at zero signal, the gain ramps from 0 to VOL. -/
def spkBegin (d : Dev) : Dev :=
  let d := d.wr SPK_STATUS.RUN 2
  let rate := d.rd SPK_CFG.RATE
  let t := d.volTarget
  let d := d.spkMod fun s => { s with rate := rate, vTo := t, vPos := 0, vLen := 0 }
  spkEnter 1 (0, 1) (d.spkMod fun s => { s with tick := d.tickIx d.spkHz })

/-- Outputs high-impedance and OFF: the speaker's channel waits for it again. -/
def spkQuiet (d : Dev) : Dev := acPortGone 8 (spkEnter 0 (0, 1) d)

/-- SPK_CTRL.EN is written 1. -/
def spkEnable (d : Dev) : Dev :=
  let d := (d.wrB SPK_CTRL.EN true).wrB SPK_STATUS.TIER_MUTED false
  match d.spkSt with
  | 0 => if d.spkPower then spkBegin d else d
  | 3 => d.wr SPK_STATUS.RUN (runEnable true (d.rd SPK_STATUS.RUN))
  | 5 => if d.rd SPK_STATUS.RUN = 0 then d.wr SPK_STATUS.RUN 1 else d
  | _ => d

/-- SPK_CTRL.EN is written 0. -/
def spkDisable (d : Dev) : Dev :=
  let d := d.wrB SPK_CTRL.EN false
  match d.spkSt with
  | 1 | 2 => spkEnter 3 d.spkGain (d.wr SPK_STATUS.RUN 3)
  | 3 => d.wr SPK_STATUS.RUN (runDisable (d.rd SPK_STATUS.RUN))
  | 4 => spkQuiet ((d.ev SPK_EVENT.STOPPED).wr SPK_STATUS.RUN 0)
  | 5 => d.wr SPK_STATUS.RUN 0
  | _ => d

/-- A ramp completes. -/
def spkRampDone (d : Dev) : Dev :=
  if d.spk.fr < d.spk.rLen then d
  else match d.spkSt with
    | 1 => spkEnter 2 (1, 1) d
    | 3 =>
      let r := d.rd SPK_STATUS.RUN
      let d := spkQuiet ((d.ev SPK_EVENT.STOPPED).wr SPK_STATUS.RUN 0)
      if r = 4 ∧ d.spkPower then spkBegin d else d
    | _ => d

/-- The fifth trip latches the fault; fewer leave the amplifier TRIPPED. -/
def spkCountTrip (d : Dev) : Dev :=
  let n := d.rd SPK_STATUS.TRIPS + 1
  let d := d.wr SPK_STATUS.TRIPS n
  if 5 ≤ n then spkEnter 5 (0, 1) ((d.wrB SPK_STATUS.FAULT true).ev SPK_EVENT.FAULT) else spkEnter 4 (0, 1) d

/-- A trip of a kind (R315): every switch off, gain 0. -/
def spkTripped (kind : Nat) (d : Dev) : Dev :=
  let f := match kind with
    | 1 => SPK_TRIP_CNT.LOAD
    | 2 | 3 => SPK_TRIP_CNT.GND
    | 4 | 5 => SPK_TRIP_CNT.SUPPLY
    | _ => SPK_TRIP_CNT.THERMAL
  spkCountTrip (((d.wr SPK_STATUS.KIND kind).ev SPK_EVENT.TRIP).sat f)

/-- The bridge switches: states in which a trip counts (Table 14.6). -/
def Dev.spkDrives (d : Dev) : Bool := decide (1 ≤ d.spkSt ∧ d.spkSt ≤ 3) && !d.spk.low

/-- A switch reaches 1.8 A (R315): the high or low side of leg P or N, with `diag` mA in the diagonal opposite switch. -/
def spkTrip (high legN : Bool) (diag m : Nat) (d : Dev) : Dev :=
  let d := atMote m d
  if d.spkDrives then
    spkTripped (if 900 ≤ diag then 1 else (if high then 2 else 4) + (if legN then 1 else 0)) d
  else d

/-- The amplifier reaches 140 °C (R315). -/
def spkHot (deg : Int) (d : Dev) : Dev :=
  if deg < 140 then d
  else
    let d := (d.wr SPK_TEMP.DEG (uns 8 deg)).wrB SPK_STATUS.HOT true
    if 1 ≤ d.spkSt ∧ d.spkSt ≤ 3 then spkTripped 6 d else d

/-- The amplifier has cooled to 120 °C. -/
def spkCool (deg : Int) (d : Dev) : Dev :=
  if 120 < deg then d else (d.wr SPK_TEMP.DEG (uns 8 deg)).wrB SPK_STATUS.HOT false

/-- 800 frames after a trip: a retry, or a failed one while HOT. -/
def spkRetry (d : Dev) : Dev :=
  if d.spkSt = 4 ∧ 800 ≤ d.spk.fr ∧ d.on SPK_CTRL.EN then
    if d.on SPK_STATUS.HOT then spkCountTrip d else spkEnter 1 (0, 1) ((d.ev SPK_EVENT.RETRY).wr SPK_STATUS.RUN 2)
  else d

/-- 8,000 frames of clean play. -/
def spkRecovered (d : Dev) : Dev :=
  if d.spkSt = 2 ∧ 8000 ≤ d.spk.fr ∧ d.spk.clean = false then
    (((d.evIf (d.rd SPK_STATUS.TRIPS != 0) SPK_EVENT.RECOVERED)).wr SPK_STATUS.TRIPS 0).spkMod fun s => { s with clean := true }
  else d

/-- FAULT_CLR: acts in FAULT only. -/
def spkFaultClr (d : Dev) : Dev :=
  if d.spkSt = 5 then
    let d := (spkEnter 0 (0, 1) ((d.wrB SPK_STATUS.FAULT false).wr SPK_STATUS.TRIPS 0)).wr SPK_STATUS.RUN 0
    if d.on SPK_CTRL.EN ∧ d.spkPower then spkBegin d else acPortGone 8 d
  else d

/-- VSPK falls below 4.10 V, or rises above 4.30 V (R406). -/
def vspk (low : Bool) (d : Dev) : Dev := d.spkMod fun s => { s with low := low }

/-- A frame event of the speaker. -/
def spkFrame (d : Dev) : Dev := if d.pd 5 then d.spkMod fun s => { s with fr := s.fr + 1 } else d

/-! ### Ticks (R314) -/

/-- A tick of the speaker at mote m: its channel's sample under the ramp and VOL gains; discarded while the bridge is off. -/
def spkTick (m : Nat) (d : Dev) : Dev :=
  let d := atMote m d
  let i := d.tickIx d.spkHz
  if d.spkSt = 0 ∨ d.spk.tick = i then d
  else
    let d := d.spkMod fun s => { s with tick := i, vPos := s.vPos + 1 }
    let a : TickAt := { p := 8, guarded := true, n := fadeTicks (d.rd SPK_CFG.RAMP_MS) d.spkHz, word := 32, stop := d.sap.biv }
    let (s, d) := match d.acRunning false 8 with
      | k :: _ =>
        let (s, d) := outTick a k d
        (s, needNote false k d)
      | [] => (Smp.zero, d)
    if d.spkDrives then
      let g := d.spkGain
      d.emit (.spk ((s.x * (g.1 : Int) * (d.spk.vol : Int)).tdiv ((g.2 : Int) * 2 ^ 24)))
    else d

/-! ### Tiers (R317) -/

/-- The announce of a step that removes the speaker: its gain ramps to 0. -/
def spkAnnounce (d : Dev) : Dev :=
  match d.spkSt with
  | 1 | 2 => spkEnter 3 d.spkGain (d.wr SPK_STATUS.RUN 3)
  | _ => d

/-- The cancel of that step: with EN still 1 the speaker ramps up again. -/
def spkCancel (d : Dev) : Dev :=
  if d.on SPK_CTRL.EN then
    match d.spkSt with
    | 0 => if d.spkPower then spkBegin d else d
    | 3 => spkEnter 1 d.spkGain (d.wr SPK_STATUS.RUN 2)
    | _ => d
  else d

/-- The apply of that step: high-impedance, OFF, EN cleared, TIER_MUTED; a latched fault stays latched. -/
def spkRemove (d : Dev) : Dev :=
  let d := (d.wrB SPK_CTRL.EN false).wrB SPK_STATUS.TIER_MUTED true
  let d := d.wr SPK_STATUS.RUN 0
  if d.on SPK_STATUS.FAULT then d else spkQuiet d

/-- The tier powers the speaker again: a pending enable starts it (R103, R317). -/
def spkPowered (d : Dev) : Dev :=
  if d.on SPK_CTRL.EN && d.spkSt == 0 && d.spkPower then spkBegin d else d

end Sys2Proof.Machine
end

