-- ==== Sys2Proof/Machine/TierOps.lean ====
section
/-!
DEFINITION. Machine/TierOps.lean: the tier steps, Bivouac and its wake, feed loss with its record and the dying gasp
(spec/03_rations_tiers_and_bivouac.md, R59 to R75; Table 1.4).
-/

namespace Sys2Proof.Machine

/-! ### Domains and lanes (Table 1.4, R25) -/

/-- The switchable domains that a tier powers; `kept`: in Bivouac, PD2 in self-refresh, which is not off (Table 3.2). -/
def tierDoms (kept : Bool) : Nat → List Nat
  | 0 => [1, 2, 3, 4, 5, 6]
  | 1 | 2 => [1, 2, 3, 4, 5]
  | 3 => [1, 2, 3, 5]
  | 4 => if kept then [2, 3] else [3]
  | _ => if kept then [2] else []

/-- The uplink lanes that a tier powers. -/
def tierLanes : Nat → Nat
  | 0 => 0xF
  | 1 => 0x3
  | 2 | 3 | 4 => 0x1
  | _ => 0

/-- Set a bit of RAT_DOM_STATUS.PD_ON. -/
def setPd (k : Nat) (b : Bool) (d : Dev) : Dev := d.putBitOf RAT_DOM_STATUS.PD_ON k b

/-- Power the lanes of tier t; a lane that loses its power is unlocked. The Leash synthesiser locks with its lane. -/
def lanesSet (t : Nat) (d : Dev) : Dev :=
  let m := if d.pd 3 then tierLanes t else 0
  let on := d.pd 3 && decide (t ≤ 3)
  let d := (d.wr RAT_DOM_STATUS.LANE_ON m).wr CLK_STATUS.LANE_LOCK (d.rd CLK_STATUS.LANE_LOCK &&& m)
  let d := (d.wrB RAT_DOM_STATUS.LSH_LANE_ON on).wrB CLK_STATUS.LSH_LANE_LOCK on
  let d := forN 4 (fun n d => if bit m n then d else d.chMod n fun c => { c with unlockT := none }) d
  if on then d else laneDown (d.lshMod fun l => { l with txq := [] })

/-- The gate engine of channel n forgets its list (Table 4.2); the bank last in force is kept for R188. -/
def gateForget (n : Nat) (d : Dev) : Dev :=
  let g := d.gate n
  setGate n { gates := d.fbGates n, last := g.oper.or g.last } d

/-- Queued frames: those of the channels, copy by copy, and those of the Pegline flows. -/
def Dev.queuedCount (d : Dev) : Nat :=
  (d.chan.map fun c => (c.queues.map (·.length)).foldl (· + ·) 0).foldl (· + ·) d.peg.flowq.length

/-- The channel logic stops with PD1: what the pins of the module show stays. -/
def chOff (n : Nat) (d : Dev) : Dev :=
  let gasp := !(d.ch n).expq.isEmpty
  let d := gateForget n (d.when gasp gaspSkip)
  let d := pcsOff n ((d.wr (CHn_STATUS.RUN n) 0).wrB (CHn_STATUS.LINK n) false)
  d.chMod n fun c => { modIn := c.modIn, modFr := c.modFr, modOk := c.modOk, txflt := c.txflt, fltFr := c.fltFr, los := c.los, ga := c.ga, gb := c.gb,
                       gc := c.gc, closedFr := c.closedFr }

/-- Pegline is left (Table 3.4); its operational bank stands with the tables. -/
def pegOff (d : Dev) : Dev :=
  let d := laneLost true (laneLost false (roleUpdate (pegEnter 0 d)))
  { d.wr PEG_STATUS.RUN 0 with peg := { oper := d.peg.oper, last := d.peg.last } }

/-- PD1 is switched off: its functions are OFF with their enables kept, queued frames are discarded (R58, Table 3.4). -/
def coreOff (d : Dev) : Dev :=
  let d := pegOff (forN 4 chOff (llbOff d))
  let d := d.tabMod fun t => { t with ex := {}, msk := {}, fre := {} }
  let d := (d.wrB SHD_STATUS.TEST_BUSY false).shdMod fun s =>
    { s with lift := List.replicate 4 false, armed := List.replicate 4 false }
  pmemSync d

/-- PD1 has come back: what is enabled starts (R103). Nothing starts before the boot ends, nor in HOLD (R97, R101). -/
def coreStart (d : Dev) : Dev :=
  if d.run then
    let d := forN 4 (fun n d => if d.on (CHn_CTRL.EN n) then chEnable n d else d) d
    let d := forN 4 (fun n d => if d.on (CHn_GATE_CTRL.EN n) then gateEnable n d else d) d
    let d := if d.on PEG_CFG.EN then pegEnable d else d
    llbOn d
  else d

/-- Switch domain k on: what it holds starts (R63, R103). -/
def pdOn (k : Nat) (d : Dev) : Dev :=
  if d.pd k then d
  else
    let d := setPd k true { d with frozen := d.frozen.filter fun x => domOf x.1 != k }
    match k with
    | 1 => forN 4 modShow d
    | 4 => pd4On d
    | 5 => if d.run then sapOn d else d
    | 6 => if d.booted then cmpPowered d else d
    | _ => d

/-- Switch domain k off. -/
def pdOff (k : Nat) (d : Dev) : Dev :=
  if d.pd k then
    let d := match k with
      | 1 => coreOff d
      | 2 => d.wrB PMC_STATUS.INIT_DONE false
      | 4 => d.hostMod fun h => { h with released := false }
      | 5 => sapOff (if d.spkSt = 0 then d else spkRemove d)
      | 6 => cmpGone d
      | _ => d
    setPd k false d
  else d

/-- What the domains that went off between `old` and d showed before their functions stopped goes on being read (R58). -/
def freeze (old d : Dev) : Dev :=
  let gone (o : Nat) : Bool := decide (o < 0x200000) && old.pd (domOf o) && !d.pd (domOf o)
  let ws := (old.regs ++ d.regs).foldl (fun a (o, _) =>
    if gone o && old.word o != d.word o && !(a.any fun x => x.1 == o) then a ++ [(o, BitVec.ofNat 32 (old.word o))] else a) []
  { d with frozen := d.frozen ++ ws }

/-- Switch off the domains but those of ks. -/
def pdKeep (ks : List Nat) (d : Dev) : Dev := [6, 5, 4, 3, 2, 1].foldl (fun d k => if ks.contains k then d else pdOff k d) d

/-! ### Host (Table 5.8, R72) -/

/-- DMA stops as for a PF reset; PF0's configuration space waits for the next conventional reset. -/
def tierStop (d : Dev) : Dev := intReset (allFnClear (vfEnableOff 5 true (kennelAll 5 d)))

/-! ### Steps (R60, R63, Table 3.4) -/

/-- Write PHASE. -/
def setPhase (p : Nat) (d : Dev) : Dev := d.ratPut RAT_STATUS.PHASE p

/-- A step is announced for tier t. -/
def announce (phase t : Nat) (d : Dev) : Dev :=
  (setPhase phase (d.ev RAT_EVENT.TIER_ANNOUNCE)).ratMod fun r => { r with announced := t }

/-- Deferred swaps may take effect (R62). -/
def undefer (d : Dev) : Dev := forN 4 gateUndefer d

/-- TIER_ANNOUNCE of a step down to t. -/
def announceDown (t : Nat) (d : Dev) : Dev :=
  let old := d.tier
  let d := announce 1 t d
  let d := if old = 0 then cmpAnnounce d else d
  let d := if old ≤ 2 ∧ 3 ≤ t then spkAnnounce d else d
  if 4 ≤ t then
    let d := d.ratMod fun r => { r with bivWhy := bivCause d }
    if old ≤ 3 then sapBiv true (leashOff d) else d
  else d

/-- A cancelled Bivouac entry leaves every function as it was, the token apart (R60, R74, Table 3.4). -/
def cancelEntry (d : Dev) : Dev :=
  let d := (setPhase 0 (d.ev RAT_EVENT.STEP_CANCEL)).wrB RAT_CTRL.BIV_REQ false
  let d := if d.tier ≤ 3 then spkCancel (sapBiv false d) else d
  undefer (if d.tier = 0 then d.wrB CMP_STATUS.AVAIL true else d)

/-- CH0 configured at 25G changes its rate (Table 3.4). -/
def rerate (old new : Nat) (d : Dev) : Dev :=
  if decide (2 ≤ old) != decide (2 ≤ new) && (d.ch 0).rate == 1 && decide (0 < d.chRun 0) then
    fecPick 0 (((linkOffCh true 0 d).chMod 0 fun c => { c with goodFr := none }).wr (CHn_STATUS.RATE_NOW 0) (if 2 ≤ new then 0 else 1))
  else d

/-- The lanes of CH1 to CH3 that the new tier lacks are gated off: fenced with cause TIER. -/
def laneFences (old new : Nat) (d : Dev) : Dev :=
  [1, 2, 3].foldl (fun d n =>
    if bit (tierLanes old) n && !bit (tierLanes new) n then pcsOff n (linkOffCh true n (fence n 6 d)) else d) d

/-- Queued frames leave packet memory. -/
def discardQueued (d : Dev) : Dev :=
  let d := forN 4 (fun n d => d.chMod n fun c => { c with queues := List.replicate 8 [] }) d
  pmemSync (d.pegMod fun p => { p with flowq := [] })

/-- The apply of a step into Bivouac: queued frames discarded, PMEM in self-refresh or off. -/
def bivApply (new : Nat) (d : Dev) : Dev :=
  let off := new == 5 && d.on RAT_CTRL.BIV_PMEM_OFF
  let d := if d.pd 1 then discardQueued (d.sat RAT_BIV_DROP.FRAMES d.queuedCount) else d
  let d := d.ratPut RAT_STATUS.BIV_CAUSE d.rat.bivWhy
  let d := (d.wrB RAT_DOM_STATUS.PMEM_SR (!off)).wrB PMC_STATUS.SELF_REFRESH (!off)
  freeze d (sapBiv false (pdKeep (tierDoms (!off) new ++ [4]) d))

/-- TIER_DONE of a step from tier old to tier new. -/
def tierDone (new : Nat) (d : Dev) : Dev :=
  let old := d.tier
  llbEmit 2 (new + 8 * old) 0 ((d.ratPut RAT_STATUS.TIER new).ev RAT_EVENT.TIER_DONE)

/-- The apply of a step down. -/
def applyDown (new : Nat) (d : Dev) : Dev :=
  let old := d.tier
  let d := (tierDone new d).sat RAT_TIER_CNT.DOWN
  let d := if old ≤ 2 ∧ 3 ≤ new then hostPower false (tierStop d) else d
  let d := if old ≤ 2 ∧ 3 ≤ new then spkRemove d else d
  let d := if old = 0 then freeze d (pdOff 6 d) else d
  let d := rerate old new (laneFences old new d)
  let d := if 4 ≤ new then bivApply new d else d
  undefer (lanesSet new d)

/-- TIER_ANNOUNCE of a step up to t: its domains and lanes are powered (R63). -/
def announceUp (t : Nat) (d : Dev) : Dev := lanesSet t ((tierDoms true t).foldl (fun d k => pdOn k d) (announce 2 t d))

/-- The apply of a step up. -/
def applyUp (new : Nat) (d : Dev) : Dev :=
  let old := d.tier
  let d := (tierDone new d).sat RAT_TIER_CNT.UP
  let d := if 3 ≤ old ∧ new ≤ 2 then hostPower true d else d
  let d := [1, 2, 3].foldl (fun d n =>
    if bit (tierLanes new) n && !bit (tierLanes old) n then tierReturn n d else d) d
  undefer (spkPowered (rerate old new d))

/-- A step up is cancelled: what its announce powered goes off again (R60). -/
def cancelUp (d : Dev) : Dev :=
  let d := d.ev RAT_EVENT.STEP_CANCEL
  undefer (lanesSet d.tier (freeze d (pdKeep (tierDoms true d.tier) d)))

/-! ### Keep codes at a reset or a Bivouac exit (R9, Table 4.2) -/

/-- What acts on Keep codes: the device resets, and Bivouac exit with PMEM retained or off. -/
inductive KeepEv where
  | por | cold | warm | exit | exitLoad
  deriving DecidableEq, Repr

/-- A field of that code keeps its value. -/
def keeps : KeepEv → Keep → Bool
  | .por, _ => false
  | .cold, k => k == .a
  | .warm, k => k == .a || k == .w || k == .wb
  | .exit, k => k == .a || k == .wb || k == .i
  | .exitLoad, k => k == .a || k == .wb

/-- Block spans of PD0 below the windows (Table 19.1). -/
def inPd0 (o : Nat) : Bool :=
  decide (o < 0x14000) || decide (0x50000 ≤ o ∧ o < 0x54000) || decide (0x70000 ≤ o ∧ o < 0x80000)

/-- Status that hardware in PD0 goes on computing through a cold or warm reset (R11): CLK_STATUS, HRT_STATUS,
RAT_DOM_STATUS, RST_OTP and the measured values. RAT_STATUS shows its reset value (R79). -/
def livePd0 (o : Nat) : Bool :=
  [0x4004, 0x8004, 0xC00C, 0x1002C].contains o || decide (0x78010 ≤ o ∧ o < 0x78028)

/-- A table-window word keeps its value: entries at a Bivouac exit with PMEM retained, lifeline counters at a warm reset. -/
def windowKeeps (e : KeepEv) (o : Nat) : Bool :=
  if 0x2E1000 ≤ o ∧ o < 0x2E1200 then e == .warm
  else e == .exit && !(decide (0x238000 ≤ o ∧ o < 0x241000) || decide (0x290000 ≤ o ∧ o < 0x2A0000))

/-- The value that word o keeps of v. -/
def keptWord (e : KeepEv) (o v : Nat) : Nat :=
  if 0x200000 ≤ o then (if windowKeeps e o then v else 0)
  else
    match rowAt o with
    | none => v
    | some r => r.fields.foldl (fun a f =>
        let stays := keeps e f.keep || (e != .por && f.ty == .ro && inPd0 o && (livePd0 o || e == .exit || e == .exitLoad))
        setBits a f.lo f.w (if stays then bits v f.lo f.w else bits (resetWord o).toNat f.lo f.w)) 0

/-- Act on the Keep code of every field, and on the table windows. -/
def applyKeep (e : KeepEv) (d : Dev) : Dev :=
  let ws := d.regs.map fun (o, v) => (o, BitVec.ofNat 32 (keptWord e o v.toNat))
  let ls := d.latch.map fun (o, v) => (o, BitVec.ofNat 32 (keptWord e o v.toNat))
  { d with regs := ws.filter fun (o, v) => v != resetWord o, frozen := [], latch := ls.filter fun (_, v) => v != 0#32 }

/-! ### Wake and restore (R74, R75) -/

/-- A restore runs. -/
def Dev.restoring (d : Dev) : Bool := d.rat.wakeFr.isSome

/-- A Bivouac entry is announced from a tier above. -/
def Dev.entryDue (d : Dev) : Bool := d.ratGet RAT_STATUS.PHASE == 1 && decide (4 ≤ d.rat.announced) && decide (d.tier ≤ 3)

/-- The caps of the last evaluation, the request apart, still require Bivouac. -/
def Dev.capsHold (d : Dev) : Bool := decide (4 ≤ max (d.ratGet RAT_STATUS.CAP_LOSS) (d.ratGet RAT_STATUS.CAP_THERM))

/-- PD1 and PD2 at a Bivouac exit with packet memory kept: it is empty, and the tables' operational banks are shown again. -/
def coreFresh (d : Dev) : Dev :=
  let d := forN 4 gateShow ((d.wrB PMC_STATUS.INIT_DONE true).pmMod fun p => { p with poison := [] })
  let d := match d.peg.oper with
    | some b => (d.wr PEG_SCHED_STAT.OPER_BANK b).wr PEG_SYNC_SCHED_CRC.CRC d.schedCrc
    | none => d
  pmemSync d

/-- A boot begins to report itself (R84, R89, R95): state st, nothing examined. -/
def bootFresh (st : Nat) (d : Dev) : Dev :=
  let d := [RST_BOOT_STATUS.addr, RST_BOOT_GEN.addr, RST_SLOT_A.addr, RST_SLOT_B.addr, RST_SLOT_A_GEN.addr,
    RST_SLOT_B_GEN.addr, RST_BOOT_REJ.addr].foldl (fun d o => d.setWord o (resetWord o).toNat) d
  d.wr RST_BOOT_STATUS.STATE st

/-- Restoring begins (Table 3.7). With PMEM off, a boot from POWER_UP follows (R85). The exit counts in RAT_WAKE_SRC.COUNT and
the Keep codes act here, and both stand if the restore is cancelled (DESIGN CHOICE, assumption log 65). -/
def restoreBegin (d : Dev) : Dev :=
  let load := !d.on RAT_DOM_STATUS.PMEM_SR
  let d := (d.ev RAT_EVENT.WAKE).wrap RAT_WAKE_SRC.COUNT
  let d := (announce 2 3 d).ratPut RAT_STATUS.BIV_CAUSE 0
  let d := d.ratMod fun r => { r with wakeFr := some (if d.now % frMt = 0 then 1 else 0), wakeKept := !load }
  let d := applyKeep (if load then .exitLoad else .exit) d
  if load then
    let d := bootFresh 3 d
    { d with boot := { d.boot with wakeBoot := true, step := 0, stepClk := d.hearth.clk, frames := 0, ready := false, image := [], cands := [] },
             tab := {}, peg := {} }
  else
    let d := (d.wrB RAT_DOM_STATUS.PMEM_SR false).wr PMC_SCRUB_STAT.POS d.pm.scrubPos
    let d := (tierDoms true 3).foldl (fun d k => pdOn k d) d
    coreStart (lanesSet 3 (coreFresh d))

/-- An evaluation finds Bivouac required again (R75): the domains that the restore powered go off, and packet memory that the
restore took out of self-refresh goes back to it. -/
def restoreCancel (d : Dev) : Dev :=
  let sr := d.rat.wakeKept
  let d := d.ev RAT_EVENT.STEP_CANCEL
  let d := d.ratMod fun r => { r with wakeFr := none }
  let d := (setPhase 0 d).ratPut RAT_STATUS.BIV_CAUSE (bivCause d)
  let d := (d.wrB RAT_DOM_STATUS.PMEM_SR sr).wrB PMC_STATUS.SELF_REFRESH sr
  lanesSet d.tier (freeze d (pdKeep (tierDoms sr d.tier) d))

/-- The causes of R74, by their bit of RAT_WAKE_SRC. -/
def wakeEnable : Nat → Option Field
  | 0 => some RAT_BIV_CFG.WAKE_PAT
  | 2 => some RAT_BIV_CFG.WAKE_GPI
  | 3 => some RAT_BIV_CFG.WAKE_TIMER
  | 4 => some RAT_BIV_CFG.WAKE_LEASE
  | 5 => some RAT_BIV_CFG.WAKE_SMB
  | _ => none

/-- A wake event of cause k (R74). -/
def wake (k : Nat) (d : Dev) : Dev :=
  let en := match wakeEnable k with
    | some f => d.on f
    | none => true
  let inBiv := decide (4 ≤ d.tier) && !d.restoring
  if !d.booted || !en || !(d.entryDue || inBiv) || (k == 0 && d.tier != 4) then d
  else
    let d := d.wr RAT_WAKE_SRC.SRC (2 ^ k)
    let d := if k = 3 then d.wrB RAT_BIV_CFG.WAKE_TIMER false else d
    let d := d.wrB RAT_CTRL.BIV_REQ false
    if d.entryDue then cancelEntry d
    else if d.capsHold then (d.ev RAT_EVENT.WAKE_HELD).ratPut RAT_STATUS.BIV_CAUSE (bivCause d)
    else
      let d := if d.ratGet RAT_STATUS.PHASE = 1 then d.ev RAT_EVENT.STEP_CANCEL else d
      restoreBegin d

/-- WAKE_TIMER: the voted Hearth is at or after the armed time (R74). -/
def wakeTimer (m : Nat) (d : Dev) : Dev :=
  let d := atMote m d
  match d.rat.timer with
  | some t => if d.valid && decide (t ≤ d.now) then wake 3 d else d
  | none => d

/-- RAT_BIV_TIMER_HI is written: the value arms (R74). -/
def bivTimerWrite (hi : Nat) (d : Dev) : Dev :=
  (d.wr RAT_BIV_TIMER_HI.TIME hi).ratMod fun r => { r with timer := some (hi % 2 ^ 32 * 2 ^ 32 + d.rd RAT_BIV_TIMER_LO.TIME) }

/-- PATTERN_WAKE: CH0 receives a frame in LISTEN that matches a wake filter (R172, R74); the frame is lost. -/
def patternWake (data : Bytes) (d : Dev) : Dev :=
  if d.tier = 4 ∧ !d.restoring ∧ d.patternHit data then wake 0 (countMatch d) else d

/-- WAKE_LEASE (R295). -/
def wakeLease (d : Dev) : Dev :=
  if d.leaseWake then wake 4 (d.lshMod fun l => { l with bivFall := false }) else d

/-- A debounced change of the inputs ch, on one that may wake (R74). -/
def wakeGpi (ch : Nat) (d : Dev) : Dev := if ch &&& d.rd RAT_BIV_CFG.GPI_MASK ≠ 0 then wake 2 d else d

/-! ### The evaluation (R59, R60) -/

/-- Feed return (R59, R70). -/
def feedReturn (d : Dev) : Dev :=
  let d := (d.ratPut RAT_STATUS.LOSS 0).ratPut RAT_STATUS.RECOVERING 1
  let d := d.ev RAT_EVENT.FEED_RETURN
  let d := recSeal ((d.ramSet 10 (d.now % 2 ^ 32)).ramSet 11 (d.now / 2 ^ 32))
  let d := llbEmit 4 (min (d.frameExt - d.rat.lossFr) 0xFFFFFFFF) 0 d
  returnCycle (bits (d.ramWord 4) 16 16) (bits (d.ramWord 12) 0 16) d

/-- The caps of an evaluation, with the events of their rises (R59, R64, R71); the target. -/
def capsCompute (d : Dev) : Dev :=
  let fc := feedCap d
  let tc := thermCap d
  let lc := lossCap d
  let d := d.evIf (decide (d.ratGet RAT_STATUS.CAP_THERM < tc)) RAT_EVENT.THERM_CAP
  let d := if 3 < lc ∧ !d.rat.cellLow then (d.ev RAT_EVENT.CELL_LOW).ratMod fun r => { r with cellLow := true } else d
  let t := tierTarget d
  let d := ((d.ratPut RAT_STATUS.CAP_FEED fc).ratPut RAT_STATUS.CAP_THERM tc).ratPut RAT_STATUS.CAP_LOSS lc
  (d.ratPut RAT_STATUS.CAP_HEARTH (b2n (!d.valid))).ratPut RAT_STATUS.TARGET t

/-- The second half of R60, from STEADY. -/
def decideStep (d : Dev) : Dev :=
  let tier := d.tier
  let t := d.ratGet RAT_STATUS.TARGET
  let d :=
    if tier < t then announceDown t d
    else if t < tier ∧ tier ≤ 3 then
      let n := d.ratGet RAT_STATUS.DWELL + 1
      let d := d.ratPut RAT_STATUS.DWELL (min n 255)
      let need := if d.ratOn RAT_STATUS.RECOVERING then d.rd RAT_DWELL.FEED_RET_SF else d.rd RAT_DWELL.DWELL_SF
      if d.rat.bootFirst then announceUp t d
      else if need ≤ n then announceUp (tier - 1) d
      else d
    else if t = tier then d.ratPut RAT_STATUS.DWELL 0
    else d
  d.ratMod fun r => { r with bootFirst := false }

/-- The first half of R60: what was announced is applied or cancelled. -/
def settleStep (ret : Bool) (d : Dev) : Dev :=
  let t := d.ratGet RAT_STATUS.TARGET
  match d.ratGet RAT_STATUS.PHASE with
  | 1 =>
    let d :=
      if 4 ≤ d.rat.announced ∧ t < 4 then
        if d.tier ≤ 3 then cancelEntry (d.wr RAT_WAKE_SRC.SRC (if ret then 2 else 64))
        else d.ev RAT_EVENT.STEP_CANCEL
      else applyDown d.rat.announced d
    setPhase 0 (d.ratPut RAT_STATUS.DWELL 0)
  | 2 =>
    let d := if t ≤ d.rat.announced then (applyUp d.rat.announced d).ratPut RAT_STATUS.RECOVERING 0 else cancelUp d
    setPhase 0 (d.ratPut RAT_STATUS.DWELL 0)
  | _ => d

/-- The cap that forced Bivouac no longer requires it (R74); a request is left only by a wake event. -/
def capLifted (d : Dev) : Bool :=
  match d.ratGet RAT_STATUS.BIV_CAUSE with
  | 2 => decide (d.ratGet RAT_STATUS.CAP_LOSS < 4)
  | 3 => decide (d.ratGet RAT_STATUS.CAP_THERM < 4)
  | _ => false

/-- TIER_EVALUATION: the evaluation at a superframe event, at none of those of a boot (R59 to R61, R75). -/
def evaluate (d : Dev) : Dev :=
  if !d.booted || d.boot.asserted then d
  else
    let ret := d.ratOn RAT_STATUS.LOSS && decide (d.rd RAT_THR_LOSS.RETURN ≤ d.feedV)
    let d := capsCompute (d.when ret feedReturn)
    let t := d.ratGet RAT_STATUS.TARGET
    if d.restoring then (if 4 ≤ t then decideStep (restoreCancel d) else d)
    else if 4 ≤ d.tier ∧ (ret ∨ t < 4 ∨ capLifted d) then
      let d := wake (if ret then 1 else 6) d
      if d.restoring then d else decideStep (settleStep ret (d.ratPut RAT_STATUS.TARGET (tierTarget d)))
    else decideStep (settleStep ret d)

/-- WAKE_RESTORE_APPLY: LIFELINE at the first superframe event at least 32 fr after the wake and after any load (R75), a step
of the Hearth over a superframe boundary raising one too (R34).
The channels that LIFELINE lacks are fenced with cause TIER (Table 18.3). -/
def restoreApply (d : Dev) : Dev :=
  match d.rat.wakeFr with
  | some n =>
    if 33 ≤ n ∧ d.booted ∧ d.rat.sfEv ∧ d.ratGet RAT_STATUS.TARGET < 4 then
      let d := (tierDone 3 d).sat RAT_TIER_CNT.UP
      let d := d.ratMod fun r => { r with wakeFr := none }
      let d := [1, 2, 3].foldl (fun d n => fence n 6 d) d
      decideStep (autoDue (setPhase 0 (d.ratPut RAT_STATUS.DWELL 0)))
    else d
  | none => d

/-! ### Feed loss (R65 to R69) -/

/-- CH0 takes a gasp copy (R67). -/
def Dev.gaspLink (d : Dev) : Bool :=
  d.pd 1 && d.on (CHn_STATUS.LINK 0) && d.chRun 0 == 2 && !d.shut 0 && decide (d.tier ≤ 3)

/-- The template, the enable, the link, the tier and the boot allow a gasp (R67). -/
def Dev.gaspOk (d : Dev) : Bool :=
  gaspTplOk (gaspTemplate d) && d.on RAT_GASP_CFG.EN && d.gaspLink && !d.on RST_BOOT_STATUS.HOLD

/-- Queue one copy on CH0 as an express frame (R67). -/
def gaspQueue (d : Dev) : Dev :=
  let x : Frm := { data := gaspFrame d, src := 6, tc := 7, gasp := true }
  let d := d.chMod 0 fun c => { c with expq := c.expq ++ [x] }
  d.ratMod fun r => { r with gaspLeft := r.gaspLeft - 1, gaspNext := d.nowExt + frMt }

/-- The loss record as it stands at t0 (Table 3.6), its ride-through estimate and CRC still to come. -/
def lossRecord (sag : Bool) (d : Dev) : Dev :=
  let flags := 4 * b2n sag + 8 * b2n d.rat.hostPwr + 16 * b2n d.holds
  let ws := [0x4C4F5353, d.rat.losses, d.now % 2 ^ 32, d.now / 2 ^ 32,
    d.tier + flags * 2 ^ 8 + d.rd MON_CELL_V.VALUE * 2 ^ 16, d.feedP,
    d.feedV % 2 ^ 16 + uns 16 (sgn 12 (d.rd MON_TEMP_MAX.QDEG)) * 2 ^ 16, 0,
    d.fld.gpiIn + d.rd FLD_GPO.LEVEL * 2 ^ 16, 0, 0, 0, d.rd MON_CELL_V.VALUE, 0, 0, 0]
  ws.zipIdx.foldl (fun d (w, k) => d.ramSet k w) d

/-- FEED_LOSS: LOSS_N samples in a row were low (R65 to R69, Table 3.5). -/
def feedLoss (m : Nat) (d : Dev) : Dev :=
  let d := atMote m d
  if d.rd RAT_THR_LOSS.LOSS_N ≤ d.rat.lowRun ∧ !d.ratOn RAT_STATUS.LOSS then
    let d := ((d.ratPut RAT_STATUS.LOSS 1).ev RAT_EVENT.FEED_LOSS).sat RAT_LOSS_CNT.LOSSES
    let d := d.ratMod fun r => { r with losses := r.losses + 1, lossFr := d.frameExt, cellLow := false, sfLoss := 0,
                                        cellMin := d.rd MON_CELL_V.VALUE,
                                        gaspLeft := 0, gaspOut := false }
    let sag := d.sagOn
    let d := rideUpdate true (lossRecord sag d)
    let d := recSeal (d.ramSet 7 (d.rd RAT_RIDE.MS))
    let d := llbEmit 3 (d.rd RAT_RIDE.MS) (d.rd MON_CELL_V.VALUE) (sagAbortWith 2 (d.ev RAT_EVENT.LOSS_RECORD))
    if d.gaspOk then gaspQueue (d.ratMod fun r => { r with gaspLeft := d.rd RAT_GASP_CFG.COPIES }) else gaspSkip d
  else d

/-- GASP_COPY_DUE: 1 fr after the previous copy (R67). -/
def gaspCopyDue (m : Nat) (d : Dev) : Dev :=
  let d := atMote m d
  if 0 < d.rat.gaspLeft ∧ d.rat.gaspNext ≤ d.nowExt then (if d.gaspLink then gaspQueue d else gaspSkip d) else d

/-- GASP_SENT: the first copy has completed on the line (R67). -/
def gaspSent (d : Dev) : Dev :=
  if d.rat.gaspOut ∧ !bit (d.ramWord 4) 8 then recFlag 0 (d.ev RAT_EVENT.GASP_SENT) else d

/-- What the Ration controller does at a superframe event: the loss goes on (R68, R69), then the evaluation. -/
def ratSuperframe (d : Dev) : Dev :=
  let v := d.rd MON_CELL_V.VALUE
  let d := if d.ratOn RAT_STATUS.LOSS then lossSuperframe d
    else d.ratMod fun r => { r with cellHist := v :: r.cellHist.take 8 }
  evaluate d

end Sys2Proof.Machine
end

