-- ==== Sys2Proof/Machine/FrameOps.lean ====
section
/-!
DEFINITION. Machine/FrameOps.lean: the frame event and what every part does at it, the steps of the Hearth with their
catch-up events, and the vote of its copies (spec/02_frames_motes_and_the_hearth.md, R33, R34, R40 to R47).
-/

namespace Sys2Proof.Machine

/-! ### The frame event (R34) -/

/-- What the parts do at a frame event, GPI0 to GPI15 at the levels `pins`: the Hearth and the Rations first, then channels,
streams, Pegline, the alarm inputs, the tier at a superframe event, and what depends on them. -/
def frameEvent (b : Bounds) (pins : Nat) (d : Dev) : Dev :=
  let counts := d.staticCounts
  let d := hrtFrame b d
  let d := { d with boot := { d.boot with frames := d.boot.frames + 1, due := d.boot.ready || d.boot.release } }
  let d := hostFrame (ratFrame (feedFilter d))
  let d := creditRefill (latentFrame b.superframe (freFrame (forN 4 chFrame d)))
  let d := pegFrame d
  let d := if b.round then pegRound (voiceLawTake d) else d
  let (chg, d) := gpiSample b.second pins d
  let d := wakeGpi chg d
  let d := d.ratMod fun r => { r with sfEv := b.superframe }
  let d := if b.superframe then ratSuperframe d else d
  let d := leashFrame b.superframe d
  let d := fieldFrame (spkFrame (llbFrame b d))
  dmaSettle (scoreCompute counts b.superframe (shdFrame d))

/-- FRAME_EVENT: the voted frame count changes in the course of time (R33, R34). -/
def frameCome (pins : Nat) (d : Dev) : Dev :=
  if d.hearth.running then
    let d := toNextFrame d
    frameEvent (boundsAt d.frameExt) pins d
  else d

/-- One CLK (R33): the last CLK of a slew ends it, a new frame raises its event. The alarm inputs keep their levels. -/
def clkTick (d : Dev) : Dev :=
  if d.hearth.running then
    let f := d.frame
    let d := slewOver (advance 1 d)
    if d.frame ≠ f then frameEvent (boundsAt d.frameExt) d.fld.gpiIn d else d
  else d

/-! ### Jumps and loads (R34, R43, R45, R197) -/

/-- What follows a step of the Hearth from the era-extended frame e0 to e1: gate engines move, lifeline channels start afresh.
A step forward over a frame boundary raises, in the CLK after it, one event of each kind crossed. A step back raises none; the
samples of the frame that it leaves make that frame's values (R55, R56). -/
def stepped (e0 : Nat) (e1 : Int) (d : Dev) : Dev :=
  let d := llbStep (if d.pd 1 then forN 4 gateJump d else d)
  if e0 < e1 then
    let k := d.frameExt
    let d := advance 1 d
    frameEvent (boundsCrossed e0 (e1.toNat + (d.frameExt - k))) d.fld.gpiIn d
  else if e1 < e0 then feedFilter d
  else d

/-- JUMP_APPLY: the pending jump is applied after its frame event; a load of the same CLK wins (R43, R45). -/
def jumpApply (d : Dev) : Dev :=
  match d.adjValue with
  | some (false, off) =>
    if d.hearth.adjArmed && !d.hearth.loadArmed then
      stepped d.frameExt ((((d.hearth.a.clk 0).ext : Int) + off) / frMt) (jumpCore off d)
    else d
  | _ => d

/-- LOAD_APPLY: the pending load is applied after its frame event (R45, R263). -/
def loadApply (d : Dev) : Dev :=
  if d.hearth.loadArmed then stepped d.frameExt (d.loadTime / frMt) (pegLoaded (loadCore d)) else d

/-! ### The vote (R40, R41, Table 2.3) -/

/-- VALID has changed: gates go to fallback or start again, Pegline leaves or rejoins (R41). -/
def validChanged (d : Dev) : Dev :=
  roleUpdate <| (fun d => d.when (d.pd 1) llbRefresh) (pegValid (forN 4 (fun n d => if d.valid then gateRearm n d else launchDrop n (gateFallback n d)) d))

/-- The copies take the state of copy A; the registers show it (Table 2.3). -/
def takeCopyA (d : Dev) : Dev :=
  let a := d.hearth.a
  ((d.hearthMod fun h => h.all fun _ => a).wr HRT_RATE.RATE (uns 32 a.rate)).wr HRT_ERA.ERA a.era

/-- The copies disagree in this CLK: one is mended, or FAULT follows (Table 2.3, Table 2.5). `f0` is the voted frame count of
the CLK before. -/
def voteTaken (f0 : Nat) (d : Dev) : Dev :=
  let h := d.hearth
  let fix (f : Field) (m : HCopy) : Dev :=
    penalty 11 (((d.hearthMod fun h => h.all fun _ => m).sat f).ev HRT_EVENT.VOTE_FIX)
  if h.a = h.b ∧ h.b = h.c then d
  else if h.b = h.c then fix HRT_VOTE_CNT.FIX_A h.b
  else if h.a = h.c then fix HRT_VOTE_CNT.FIX_B h.a
  else if h.a = h.b then fix HRT_VOTE_CNT.FIX_C h.a
  else
    let d := penalty 11 (((takeCopyA d).sat HRT_VOTE_CNT.NOMAJ).ev HRT_EVENT.HEARTH_FAULT)
    let d := if d.rd HRT_STATUS.STATE = 4 then d
      else (hrtEnter 4 d).hearthMod fun h => { h with loadedSince := false }
    let d := validChanged ((d.wrB HRT_STATUS.VALID false).wrB HRT_STATUS.TRACEABLE false)
    if d.frame ≠ f0 then frameEvent (boundsAt d.frameExt) d.fld.gpiIn d else d

/-- HEARTH_VOTE_FIX: an upset turns copy k into x. -/
def hearthVoteFix (k : Fin 3) (x : HCopy) (d : Dev) : Dev :=
  let h := d.hearth
  if d.hearth.running ∧ h.a = h.b ∧ h.b = h.c then
    voteTaken d.frame (d.hearthMod fun h =>
      match k with
      | 0 => { h with a := x }
      | 1 => { h with b := x }
      | 2 => { h with c := x })
  else d

/-- HEARTH_FAULT: upsets turn the copies into a, b and c, all different. -/
def hearthFault (a b c : HCopy) (d : Dev) : Dev :=
  if d.hearth.running ∧ a ≠ b ∧ b ≠ c ∧ a ≠ c then
    voteTaken d.frame (d.hearthMod fun h => { h with a := a, b := b, c := c })
  else d

/-- FAULT_CLR (Table 2.5): when VALID returns, gates and Pegline start again. -/
def faultClrWrite (d : Dev) : Dev :=
  let was := d.valid
  let d := faultClr d
  if d.valid != was then validChanged d else d

end Sys2Proof.Machine
end

