-- ==== Sys2Proof/Machine/ResetOps.lean ====
section
/-!
DEFINITION. Machine/ResetOps.lean: the device resets: what starts one, what it clears and keeps, and how it ends
(spec/04_reset_boot_and_the_configuration_image.md, R76 to R79, R82 to R85; Tables 4.1, 4.2, 4.4).
-/

namespace Sys2Proof.Machine

/-- Change the boot sequencer's internals. -/
def Dev.bootMod (d : Dev) (f : Boot → Boot) : Dev := { d with boot := f d.boot }

/-- Boot state code (Table 4.4). -/
def Dev.bootSt (d : Dev) : Nat := d.rd RST_BOOT_STATUS.STATE

/-- Severity of a reset (Table 4.1). -/
def severity : ResetKind → Nat
  | .warm => 1
  | .cold => 2
  | .por => 3

/-- Severity of the reset or boot in progress; 0 in operation and in the boot of a Bivouac wake (R77). -/
def Dev.severityNow (d : Dev) : Nat := match d.boot.kind with
  | some k => severity k
  | none => 0

/-! ### What a reset does (Table 4.2) -/

/-- What the pins of a module show stays (R157). -/
def Chan.pins (c : Chan) : Chan := { modIn := c.modIn, modFr := c.modFr, modOk := c.modOk, txflt := c.txflt, fltFr := c.fltFr, los := c.los }

/-- The logic of PD1 to PD6, the Leash and the transactions of the field block start afresh; what stands on the pins, the
alarm inputs and the TAP stay. -/
def logicFresh (d : Dev) : Dev :=
  { d with
    host := { perstLow := d.host.perstLow, nextId := d.host.nextId }
    chan := d.chan.map Chan.pins
    tab := {}, pm := {}, peg := {}, lsh := {}, sap := {}, llb := {}, cmp := {}, shd := {}
    spk := { low := d.spk.low }
    fld := { gpis := d.fld.gpis, gpiIn := d.fld.gpiIn, smbReg := d.fld.smbReg, smbPins := d.fld.smbPins, tap := d.fld.tap } }

/-- The registers that show a pin go on showing it. -/
def pinsShown (e : KeepEv) (d : Dev) : Dev :=
  let hold := d.on LSH_STATUS.HOLD_IN
  let d := (applyKeep e d).wrB LSH_STATUS.HOLD_IN hold
  forN 4 modShow d

/-- Pending adjustments and loads lapse with their registers; the state, the rate and a running slew stay (R415). -/
def hearthReset (d : Dev) : Dev :=
  ((d.wrB HRT_STATUS.ADJ_PENDING false).wrB HRT_STATUS.LOAD_PENDING false).hearthMod fun h =>
    { h with adj := .none, adjArmed := false, loadArmed := false, adjPpm := none, loadHw := none, ppsOn := false,
             ppsEnd := none, fsyncOn := false, mclkA := (3, 128), mclkB := (441, 20480) }

/-- RAT_STATUS after a cold reset: LEAN, STEADY, caps and dwell 0; LOSS and RECOVERING stand (R61). -/
def coldStatus (w : Nat) : Nat :=
  let keep (f : Field) (a : Nat) : Nat := setBits a f.lo f.w (bits w f.lo f.w)
  keep RAT_STATUS.RECOVERING (keep RAT_STATUS.LOSS (resetWord RAT_STATUS.addr).toNat)

/-- What the Ration controller keeps of its status w (R61): at a warm reset all, a step or a restore that stands announced
among it, at a cold reset the losses and the measurements. -/
def ratReset (cold : Bool) (w : Nat) (d : Dev) : Dev :=
  let w := if cold then coldStatus w else w
  let d := d.ratMod fun r => { r with shadow := some w }
  if cold then
    d.ratMod fun r => { r with announced := 2, bootFirst := true, hostPwr := false, refUp := none, refDown := none, wakeFr := none }
  else d

/-- The sequencer begins a reset of kind k. -/
def bootBegin (k : ResetKind) (d : Dev) : Dev :=
  d.bootMod fun b => { kind := some k, asserted := true, porLow := b.porLow, sysLow := b.sysLow, pllOnce := b.pllOnce,
                       rails := b.rails, otpKey := b.otpKey }

/-- RST_CAUSE after a cold or warm reset. -/
def resetCause (cause : Nat) (d : Dev) : Dev := (d.wr RST_CAUSE.LAST (2 ^ cause)).wrap RST_CAUSE.COUNT

/-- A cold reset is asserted: the token is released, PD1 to PD6 are off. -/
def coldAssert (cause : Nat) (d : Dev) : Dev :=
  let d := leashOff (laneDown d)
  let d := hearthReset (ratReset true d.ratWord (pinsShown .cold d))
  let d := resetCause cause (bootBegin .cold (logicFresh d))
  lanesSet 2 ((d.wr RAT_DOM_STATUS.PD_ON 1).wrB RAT_DOM_STATUS.PMEM_SR false)

/-- A warm reset is asserted: the token is released, the domains stay; REFOUT stops, so the host link goes down (R28, R109). -/
def warmAssert (cause : Nat) (d : Dev) : Dev :=
  let d := leashOff (laneDown (linkOff d))
  let d := hearthReset (ratReset false d.ratWord (pinsShown .warm d))
  let d := resetCause cause (bootBegin .warm (logicFresh d))
  d.wr RST_BOOT_STATUS.STATE 11

/-- A reset request by register or SMBus (R77): ignored unless it is more severe than what is in progress. -/
def resetReq (k : ResetKind) (cause : Nat) (d : Dev) : Dev :=
  if severity k ≤ d.severityNow then d.ev RST_EVENT.RST_IGNORED
  else match k with
    | .warm => warmAssert cause d
    | _ => coldAssert cause d

/-- POWER_ON_RESET: every domain goes off, the Hearth restarts (Table 4.1). The rails are to be seen good again (R83). -/
def porAssert (d : Dev) : Dev :=
  let d := pinsShown .por d
  let d := logicFresh { d with sram := [], hearth := {}, rat := {} }
  let d := d.fldMod fun f => { gpiIn := f.gpiIn, tap := f.tap }
  d.bootMod fun b => { sysLow := b.sysLow }

/-- SYS_RESET_N has been low for 1 µs: a level, which holds the device in the cold reset (R76, R77). -/
def sysReset (d : Dev) : Dev :=
  let d := d.bootMod fun b => { b with sysLow := true }
  if d.boot.porLow then d else coldAssert 1 d

/-! ### How a reset ends (Table 4.4) -/

/-- POWER_UP is entered: tP (R85, R87). PERST_N is read where PD4 is powered (R107). -/
def powerUp (d : Dev) : Dev :=
  let warm := d.boot.kind == some .warm
  let d := d.bootMod fun b =>
    { b with asserted := false, step := if warm then 2 else 0, stepClk := d.hearth.clk + if warm then frClk else 0, frames := 0 }
  let d := (d.wr RST_BOOT_STATUS.STATE 3).wrB PMC_STATUS.INIT_DONE false
  if d.pd 4 then pd4On d else d

/-- The assertion of a cold reset ends: POWER_UP once the PLL runs (Table 4.4). -/
def coldEnd (d : Dev) : Dev :=
  if d.boot.pllOnce then powerUp d
  else (d.wr RST_BOOT_STATUS.STATE 2).wrB RST_BOOT_STATUS.XREF_WAIT true

/-- COLD_RESET_END: 1 fr after RST_CTRL.COLD or the SMBus command; a low SYS_RESET_N holds on. -/
def coldResetEnd (d : Dev) : Dev :=
  if d.boot.asserted && d.boot.kind == some .cold && !d.boot.sysLow then coldEnd d else d

/-- SYS_RESET_RELEASE. -/
def sysRelease (d : Dev) : Dev :=
  let held := d.boot.sysLow && d.boot.asserted && d.boot.kind == some .cold
  let d := d.bootMod fun b => { b with sysLow := false }
  if held then coldEnd d else d

/-- WARM_END: 1 fr has elapsed. -/
def warmEnd (d : Dev) : Dev := if d.bootSt = 11 then powerUp d else d

/-- POR_END: VDD_AON good for 1 ms and POR_N high (R82). The SMBus address is latched (R369); a low SYS_RESET_N then
holds the device (R77). -/
def porEnd (d : Dev) : Dev :=
  if d.boot.porLow then
    let d := d.wr FLD_SMB_STATUS.ADDR (0x58 + d.fld.smbPins.toNat)
    let d := (d.bootMod fun b => { b with porLow := false }).wr RST_BOOT_STATUS.STATE 1
    if d.boot.sysLow then coldAssert 1 d else d
  else d

/-- OTP_DONE: the tag key, if one is programmed, and REQUIRE_TAG are read (R94). -/
def otpDone (key : Option Bytes) (requireTag : Bool) (d : Dev) : Dev :=
  if d.bootSt = 1 ∧ !d.boot.porLow ∧ d.boot.kind = some .por then
    let d := (d.wrB RST_OTP.KEY_PROG key.isSome).wrB RST_OTP.REQUIRE_TAG requireTag
    let d := d.bootMod fun b => { b with otpKey := key.getD [] }
    (d.wr RST_BOOT_STATUS.STATE 2).wrB RST_BOOT_STATUS.XREF_WAIT true
  else d

/-- PLL_LOCK: POWER_UP follows; after a POR the Hearth starts (Table 4.4). -/
def pllLock (d : Dev) : Dev :=
  if d.bootSt = 2 then
    let d := (d.wrB CLK_STATUS.PLL_LOCK true).wrB RST_BOOT_STATUS.XREF_WAIT false
    powerUp ((d.hearthMod fun h => { h with running := true }).bootMod fun b => { b with pllOnce := true })
  else d

/-! ### POWER_UP (R83, R85) -/

/-- The domains that the next step powers. -/
def Dev.stepDoms (d : Dev) : List Nat :=
  match d.boot.step with
  | 0 => [1]
  | 1 => [2]
  | 2 => if d.boot.wakeBoot then [3, 5] else [3, 5, 4]
  | _ => []

/-- A read of flash by the sequencer (R86): the quad-output command with a 4-byte address. -/
def flashRead (off len : Nat) (d : Dev) : Dev := d.emit (.flashRead 0x6C off len)

/-- Flash offset of slot s (Table 4.6): 1 A, 2 B. -/
def slotOff (s : Nat) : Nat := if s = 1 then 0x100000 else 0x500000

/-- Flash offset of the calibration page (Table 4.6). -/
def calOff : Nat := 0x1000

/-- FIND is entered: it reads the headers of slot A and slot B and the whole calibration page, one command each (R86, R90). -/
def findBegin (d : Dev) : Dev :=
  flashRead calOff 4096 (flashRead (slotOff 2) 64 (flashRead (slotOff 1) 64 (d.wr RST_BOOT_STATUS.STATE 4)))

/-- POWER_UP is done: FIND follows. -/
def enterFind (d : Dev) : Dev := findBegin (d.bootMod fun b => { b with step := if b.step = 2 then 4 else b.step })

/-- The intervals of R85, in frames, from the step before to step n. -/
def stepGap : Nat → Nat
  | 1 => 1
  | 2 => 8
  | _ => 0

/-- The CLK at which the interval to the next step ends. -/
def Dev.stepDue (d : Dev) : Nat := d.boot.stepClk + stepGap d.boot.step * frClk

/-- The next step powers its domains, at CLK t. -/
def stepPower (t : Nat) (d : Dev) : Dev :=
  let ks := d.stepDoms
  let d := (d.wr RST_BOOT_STATUS.RAIL_WAIT 0).bootMod fun b => { b with stepClk := t }
  let d := ks.foldl (fun d k => pdOn k d) d
  match d.boot.step with
  | 2 =>
    let d := lanesSet (if d.boot.wakeBoot then 3 else d.tier) d
    if d.boot.wakeBoot then enterFind d
    else findBegin (hostPower true (d.bootMod fun b => { b with step := 3 }))
  | n => d.bootMod fun b => { b with step := n + 1 }

/-- A rail of the step's domains is not good yet. -/
def Dev.railsMissing (d : Dev) : List Nat := d.stepDoms.filter fun k => !d.boot.rails.getD k false

/-- The step runs, at CLK t, or waits for its rails (R83). -/
def stepTry (t : Nat) (d : Dev) : Dev :=
  if d.railsMissing.isEmpty then stepPower t d
  else d.wr RST_BOOT_STATUS.RAIL_WAIT ((d.railsMissing.map fun k => 2 ^ k).foldl (· + ·) 0)

/-- POWER_UP_STEP: the next step's time has come: PD1 at tP, PD2 1 fr after it, PD3 to PD5 8 fr after PD2 with packet memory
initialised, REFOUT_EN 80 fr after them. A step that waited for its rails, and every later one, comes later by the wait. After
a warm reset FIND follows packet memory, with REFOUT_EN if PD4 is on. -/
def powerUpStep (d : Dev) : Dev :=
  if d.boot.asserted then d
  else if d.boot.step = 3 then refStart d
  else if d.bootSt ≠ 3 || !d.clkDue d.stepDue then d
  else
    let t := d.stepDue
    let d := atClk t d
    if d.boot.step < 2 then stepTry t d
    else if d.boot.step ≠ 2 || !d.on PMC_STATUS.INIT_DONE then d
    else if d.boot.kind = some .warm then enterFind (if d.pd 4 then d.wrB CLK_CTRL.REFOUT_EN true else d)
    else stepTry t d

/-- RAIL_GOOD: the rails of domain k pass their monitors; a step that waits for them alone proceeds (R83). -/
def railGood (k : Nat) (d : Dev) : Dev :=
  let waits := d.rd RST_BOOT_STATUS.RAIL_WAIT ≠ 0
  let d := d.bootMod fun b => { b with rails := b.rails.set k true }
  if waits then stepTry d.hearth.clk d else d

/-- PMEM_INIT_DONE: every cell is zeroed, 8 fr after PD2 was powered (R85); the scrub begins its pass. -/
def pmemInitDone (d : Dev) : Dev :=
  if d.bootSt = 3 ∧ d.boot.step = 2 ∧ !d.boot.asserted ∧ !d.on PMC_STATUS.INIT_DONE ∧ d.clkDue d.stepDue then
    scrubStart (pmemSync ((atClk d.stepDue d).wrB PMC_STATUS.INIT_DONE true))
  else d

end Sys2Proof.Machine
end

