-- ==== Sys2Proof/Machine/RegOps.lean ====
section
/-!
DEFINITION. Machine/RegOps.lean: the register bus: which writes are refused, what a write or read of a register or of a table
window does in each state of its domain, and the PCIe apertures (spec/00_scope.md, R3 to R8; R58; R112;
spec/19_register_map_and_index.md, R392 to R396).
-/

namespace Sys2Proof.Machine

/-! ### Refused writes (R4, R5, R392) -/

/-- A field of a word. -/
def fieldOf (f : Field) (v : Nat) : Nat := bits v f.lo f.w

/-- Bits of a row that no field covers. -/
def RegRow.reserved (r : RegRow) : Nat :=
  (2 ^ 32 - 1) ^^^ r.fields.foldl (fun a f => a + (2 ^ f.w - 1) * 2 ^ f.lo) 0

/-- A writable field of v lies outside its range. -/
def RegRow.outside (r : RegRow) (v : Nat) : Bool :=
  r.fields.any fun f =>
    (f.ty == .rw || f.ty == .w1s || f.ty == .wo) && (decide (bits v f.lo f.w < f.min) || decide (f.max < bits v f.lo f.w))

/-- The ranges that several fields or registers set together: clocks, Rations, reset and host. -/
def crossSys (o v : Nat) (d : Dev) : Bool :=
  let entersBelow := decide (bits v 0 12 ≤ bits v 16 12)
  match o with
  | 0x4024 => decide (v < 8 * d.rd CLK_MCLK_A_NUM.NUM)
  | 0x402C => decide (v < 8 * d.rd CLK_MCLK_B_NUM.NUM)
  | 0x8018 => decide (d.src < 2) && (decide (sgn 32 v < -rateMax) || decide (rateMax < sgn 32 v))
  | 0x806C => decide (sgn 32 v < -1048575) || decide (1048575 < sgn 32 v)
  | 0xC010 | 0xC014 | 0xC018 => entersBelow
  | 0xC01C => !entersBelow || decide (bits v 16 12 = bits v 0 12)
  | 0xC020 => !(decide (bits v 0 7 < bits v 7 7) && decide (bits v 7 7 < bits v 14 7) && decide (bits v 14 7 < bits v 21 7))
  | 0xC028 => decide (bits v 0 16 ≤ bits v 16 16)
  | 0x10000 => bits v 0 2 != 0 && bits v 8 8 != 0xA5
  | 0x14000 => bits v 3 3 == 3
  | _ => false

/-- A PRQ map breaks R151: a reserved source, or a source that another enabled line holds. -/
def prqMapBad (k v : Nat) (d : Dev) : Bool :=
  decide (0x15 < bits v 0 6) ||
    (bit v 9 && bits v 0 6 != 0 &&
      (List.range 16).any fun j => j != k && d.on (DMA_PRQ_MAPk.EN j) && d.rd (DMA_PRQ_MAPk.SRC j) == bits v 0 6)

/-- The same for DMA, channels, classifier, packet memory and Pegline. -/
def crossCore (o v : Nat) (d : Dev) : Bool :=
  let r := o % 0x4000
  if 0x18040 ≤ o ∧ o < 0x18080 then prqMapBad ((o - 0x18040) / 4) v d
  else if 0x20000 ≤ o ∧ o < 0x30000 then
    (r == 0 && bits v 2 2 == 2 && bits v 1 1 == 0) ||
      ((r == 0x44 || (decide (0x60 ≤ r) && decide (r < 0x80))) && decide (bits v 0 16 ≤ bits v 16 16))
  else if 0x30030 ≤ o ∧ o < 0x30048 then bits v 0 2 == 3 || !actionOk (fun _ => true) v 0
  else match o with
    | 0x4003C => decide (v < d.rd PMC_BE_WM.HI)
    | 0x40040 => decide (bits v 0 14 ≤ bits v 16 14) || decide (d.rd PMC_BE_LIMIT.UNITS < bits v 0 14)
    | 0x48104 => decide (v < 1024) || decide (12000 < v) ||
        (d.rd PEG_STATUS.RUN != 0 && d.chain && decide (d.rd PEG_CHAIN_CFG.GUARD * 32 < v))
    | _ => false

/-- The same for the Leash, the ports and the field block. -/
def crossField (o v : Nat) : Bool :=
  if 0x58000 ≤ o ∧ o < 0x58300 then o % 0x80 == 0 && bit v 3
  else if 0x700D4 ≤ o ∧ o < 0x700E4 then (List.range 4).any fun i => bits v (8 * i) 8 == 0
  else if o = 0x70180 ∨ o = 0x70190 then
    bits v 16 8 == 0 || decide ((if bit v 3 then 8 else 128) < bits v 16 8)
  else o == 0x50008 && decide (bits v 0 8 < bits v 8 8)

/-- A 32-bit write of v at o is refused: the offset is reserved, a reserved bit is set, or a field is outside its range. -/
def regBad (o v : Nat) (d : Dev) : Bool :=
  match rowAt o with
  | none => true
  | some r => v &&& r.reserved != 0 || r.outside v || crossSys o v d || crossCore o v d || crossField o v

/-! ### What a write stores (R3, R6, R58) -/

/-- The word after a write of v: RW fields take it; W1C bits written 1 clear while the domain is on; RO, RCLR and action
fields stay. -/
def RegRow.stored (r : RegRow) (dom : Bool) (old v : Nat) : Nat :=
  r.fields.foldl (fun a f =>
    let was := bits old f.lo f.w
    let x := match f.ty with
      | .rw => bits v f.lo f.w
      | .w1c => if dom then was &&& (2 ^ f.w - 1 ^^^ bits v f.lo f.w) else was
      | .wo => 0
      | _ => was
    a + x * 2 ^ f.lo) 0

/-- The register at o takes its RW fields, and loses the W1C bits written 1. -/
def regStore (dom : Bool) (o v : Nat) (d : Dev) : Dev :=
  match rowAt o with
  | some r => d.setWord o (r.stored dom (d.word o) v)
  | none => d

/-! ### What a write starts -/

/-- Enable or disable by an EN bit. -/
def enBy (b : Bool) (on off : Dev → Dev) (d : Dev) : Dev := if b then on d else off d

/-- SRC_WRITE: the reference roles follow the source (R257). -/
def sourceWrite (new : Nat) (d : Dev) : Dev := roleUpdate (srcWrite new d)

/-- CLK and HRT. -/
def hookClk (src : BusSrc) (o v : Nat) (d : Dev) : Dev :=
  match o with
  | 0x4024 => mclkDen src false v d
  | 0x402C => mclkDen src true v d
  | 0x8000 =>
    let d := hostLockWrite src (bit v 2) (sourceWrite (bits v 0 2) d)
    let d := if bit v 3 then loadReq d else d
    if bit v 4 then faultClrWrite d else d
  | 0x8018 => rateWrite src (BitVec.ofNat 32 v) d
  | 0x8028 => if bit v 0 then adjGo src (bit v 1) (bits v 2 9) d else d
  | 0x8074 => if bit v 0 then snapTake 0 d else d
  | _ => d

/-- RAT and RST. -/
def hookRat (src : BusSrc) (o v : Nat) (d : Dev) : Dev :=
  match o with
  | 0xC000 => if bit v 4 then bivReq d else d
  | 0xC088 => bivTimerWrite v d
  | 0xC0A4 => retWrite src (BitVec.ofNat 32 v) d
  | 0x10000 =>
    let d := if bit v 2 ∧ d.bootSt = 9 ∧ !d.boot.release then d.bootMod fun b => { b with release := true, due := false } else d
    if bit v 1 then resetReq .cold 2 d else if bit v 0 then resetReq .warm 4 d else d
  | _ => d

/-- HIF: `old` is the word before the write. -/
def hookHif (o old v : Nat) (d : Dev) : Dev :=
  match o with
  | 0x14000 => if bit old 0 && !bit v 0 then linkEnClear d else d
  | 0x14014 =>
    forN 15 (fun k d =>
      if bit v (k + 1) then vfHoldSet (k + 1) d else if bit old (k + 1) then vfHoldClear (k + 1) d else d) d
  | _ => d

/-- CHn: enable, fault retry, pause, preemption, gate engine. -/
def hookCh (n r old v : Nat) (d : Dev) : Dev :=
  match r with
  | 0x000 => if d.run then enBy (bit v 0) (chEnable n) (chDisable n) d else d
  | 0x018 => if bit v 17 then faultRetry n d else d
  | 0x040 | 0x044 => flowWrite n d
  | 0x080 =>
    if bit v 0 && !bit old 0 then preemptEnable n d
    else if !bit v 0 && bit old 0 then preemptDisable n d
    else if bit v 0 then preemptRetry n d
    else d
  | 0x600 =>
    let d := if d.booted then
        if bit v 0 then (if bit old 0 then d else gateEnable n d) else gateDisable n d
      else d
    let d := if bit v 2 then gateCancel n d else d
    if bit v 1 then gateCommit n (d.slotCosts d.peg.oper) d else d
  | 0x60C => gateFbWrite n v d
  | _ => if 0x60 ≤ r ∧ r < 0x80 then flowWrite n d else d

/-- PMC, PEG and DMA. -/
def hookCore (o v : Nat) (d : Dev) : Dev :=
  match o with
  | 0x181C0 => ringSelWrite v d
  | 0x40000 => if bit v 1 then admissionCheck (bits v 2 3) (d.slotCosts d.peg.oper) d else d
  | 0x4003C | 0x40040 | 0x54000 => pmemSync d
  | 0x48000 =>
    let d := if bit v 8 then d else d.wrB PEG_SYNC_STATUS.RING_OK false
    roleUpdate (if d.run then enBy (bit v 0) pegEnable pegDisable d else d)
  | 0x48010 =>
    let d := if bit v 1 then schedCancel d else d
    if bit v 0 then schedCommit d else d
  | 0x48044 =>
    let d := if bit v 9 then spareRelease (bits v 0 6) d else d
    if bit v 8 then spareClaim (bits v 0 6) d else d
  | 0x48100 => roleUpdate d
  | 0x54060 =>
    let d := forN 4 (fun n d => if bit v n then fence n 5 d else d) d
    forN 4 (fun n d => if bit v (4 + n) then liftWrite n d else d) d
  | 0x540DC => if bit v 0 then reportTake 0 d else d
  | _ => if 0x18040 ≤ o ∧ o < 0x18080 then prqMapWrite ((o - 0x18040) / 4) v d else d

/-- LSH, LLB, CMP, SPK and the ports. -/
def hookVoice (o v : Nat) (d : Dev) : Dev :=
  match o with
  | 0x50000 =>
    let d := if d.booted then leashEn (bit v 0) d else d
    if bit v 1 then leashReleaseWrite d else d
  | 0x60000 =>
    let d := if d.run then enBy (bit v 0) spkEnable spkDisable d else d
    if bit v 1 then spkFaultClr d else d
  | 0x60004 => spkVol d
  | 0x64000 => if d.run then llbEvEn (bit v 1) (llbEn (bit v 0) d) else d
  | 0x64014 => if d.run then forN 16 (fun c d => llbChEn c (bit v c) d) d else d
  | 0x68000 => if d.booted then cmpEn (bit v 0) d else d
  | _ =>
    if 0x58000 ≤ o ∧ o < 0x58400 then
      let p := (o - 0x58000) / 0x80
      match o % 0x80 with
      | 0 => sapCfgWrite p (if d.run then sapEn p (bit v 0) d else d)
      | 4 => sapCfgWrite p d
      | _ => d
    else if 0x58400 ≤ o ∧ o < 0x58600 ∧ d.run then acEn (decide (0x58500 ≤ o)) ((o - 0x58400) / 4 % 64) (bit v 0) d
    else d

/-- FLD. -/
def hookFld (o v : Nat) (d : Dev) : Dev :=
  match o with
  | 0x70010 => if bit v 0 then glGo (bits v 1 2) d else d
  | 0x70040 =>
    let d := if bit v 2 then eolClr d else d
    let d := if bit v 1 then sagAbortWith 7 d else d
    if bit v 0 then sagStart d else d
  | 0x70180 => if bit v 0 then mi2cGo 0 d else d
  | 0x70190 => if bit v 0 then mi2cGo 1 d else d
  | 0x701A0 => if bit v 0 then qspiGo d else d
  | _ => if o = FLD_GPI_LATCH.addr then gpiLatchClear v d else d

/-- The actions of an accepted write of v over old at o, its domain on. -/
def regHook (src : BusSrc) (o old v : Nat) (d : Dev) : Dev :=
  match o / 0x4000 with
  | 1 | 2 => hookClk src o v d
  | 3 | 4 => hookRat src o v d
  | 5 => hookHif o old v d
  | 8 | 9 | 10 | 11 => hookCh ((o - 0x20000) / 0x4000) (o % 0x4000) old v d
  | 6 | 7 | 16 | 17 | 18 | 19 | 21 => hookCore o v d
  | 20 | 22 | 23 | 24 | 25 | 26 | 27 => hookVoice o v d
  | 28 | 29 => hookFld o v d
  | 32 => if o = INT_FN0_MASK.addr then intMaskWrite 0 v d else d
  | _ => d

/-- Registers whose own rule stores them: HRT_RATE (R42), RAT_RET_DATA (R68), HIF_VF_HOLD (R123), FLD_GPI_LATCH (R367),
INT_FN0_MASK (R116). -/
def ownStore (o : Nat) : Bool :=
  o == HRT_RATE.addr || o == RAT_RET_DATA.addr || o == HIF_VF_HOLD.addr || o == FLD_GPI_LATCH.addr || o == INT_FN0_MASK.addr

/-- Bank b of channel n is operational or pending (R188). -/
def Dev.bankBusy (d : Dev) (n b : Nat) : Bool := (d.ch n).ga.oper == some b || (d.ch n).ga.pend == some b

/-- A bank register of a gate bank that is not the admin bank (R188). -/
def bankClosed (o : Nat) (d : Dev) : Bool :=
  let r := o % 0x4000
  decide (0x20000 ≤ o) && decide (o < 0x30000) && decide (0x610 ≤ r) && decide (r < 0x630) &&
    d.bankBusy ((o - 0x20000) / 0x4000) ((r - 0x610) / 0x10)

/-- A write of v, not refused, to the register at o (R3, R58). -/
def regTake (src : BusSrc) (o v : Nat) (d : Dev) : Dev :=
  let dom := domOf o
  if 0x14100 ≤ o ∧ o < 0x14200 then fnAssign src ((o - 0x14100) / 0x10) (o % 0x10 / 4) v d
  else if d.pd dom then
    let old := d.word o
    regHook src o old v (if ownStore o then d else regStore true o v d)
  else
    let d := regStore false o v d
    let d := if 0x18040 ≤ o ∧ o < 0x18080 then prqMapWrite ((o - 0x18040) / 4) v d else d
    if v &&& actionMask o = 0 then d else offAccess dom d

/-! ### Table windows (Table 19.3) -/

/-- What an offset of the window range addresses. -/
inductive Win where
  | gate (n b : Nat)
  | cls (mk : Bool) (i k : Nat)
  | fre (s k : Nat)
  | sched (b s k : Nat)
  | tpl (c : Nat)
  | count
  | gap
  deriving DecidableEq, Repr

/-- The window word at offset o. -/
def winOf (o : Nat) : Win :=
  let x := o - 0x200000
  if x < 0x10000 then .gate (x / 0x4000) (x / 0x2000 % 2)
  else if x < 0x30000 then .cls false ((x - 0x10000) / 32) (x / 4 % 8)
  else if x < 0x34000 then .cls true ((x - 0x30000) / 64) (x / 4 % 16)
  else if 0x38000 ≤ x ∧ x < 0x40800 then .count
  else if 0x80000 ≤ x ∧ x < 0x88000 then .fre ((x - 0x80000) / 32) (x / 4 % 8)
  else if 0x90000 ≤ x ∧ x < 0xA0000 ∧ x / 4 % 16 < 9 then .count
  else if 0xC0000 ≤ x ∧ x < 0xC0800 then .sched ((x - 0xC0000) / 0x400) (x / 16 % 64) (x / 4 % 4)
  else if 0xE0000 ≤ x ∧ x < 0xE0880 then .tpl ((x - 0xE0000) / 128)
  else if 0xE1000 ≤ x ∧ x < 0xE1200 then .count
  else .gap

/-- A 32-bit write of v to the window word at o. -/
def windowWrite (src : BusSrc) (o v : Nat) (d : Dev) : Dev :=
  let w := winOf o
  if w = .gap then badWr src o d
  else if !d.pd 1 then offAccess 1 d
  else match w with
    | .gate n b => if d.bankBusy n b then badWr src o d else d.setWord o v
    | .cls mk i k => if k = ctrlIdx mk then clsCommit d.flowOk mk i v d else clsEntryWrite mk i k v d
    | .fre s k => if k = 7 then freCommit s v d else freEntryWrite src s k v d
    | .sched b s k => schedWrite src b s k v d
    | .tpl c => if d.tplOpen c then d.setWord o v else badWr src o d
    | _ => badWr src o d

/-! ### The bus -/

/-- A write of an assignment register that R5 refuses says so where the ranges break R114 as well. -/
def assignNote (o v : Nat) (d : Dev) : Dev :=
  let which := o % 0x10 / 4
  if 0x14100 ≤ o ∧ o < 0x14200 ∧ which < 3 ∧ !assignFits ((o - 0x14100) / 0x10) which (d.setWord o v) then
    d.ev HIF_EVENT.ASSIGN_REFUSED else d

/-- A write of v to PF0 BAR0 at the byte offset o, aligned and 32 bits wide unless narrow. A write of GO under PEGLINE or PPS
conflicts even where R5 refuses it (R46). -/
def regWrite (src : BusSrc) (narrow : Bool) (o v : Nat) (d : Dev) : Dev :=
  if narrow || o % 4 != 0 then badWr src o d
  else if 0x200000 ≤ o then windowWrite src o v d
  else if o = HRT_ADJ_CTRL.addr ∧ v % 2 = 1 ∧ 2 ≤ d.src then
    (if regBad o v d then badWr src o (d.ev HRT_EVENT.SRC_CONFLICT) else regTake src o v d)
  else if regBad o v d || bankClosed o d then badWr src o (assignNote o v d)
  else regTake src o v d

/-- What the word w of a register reads where its RO fields and counters go on showing those of `old`. -/
def RegRow.mixed (r : RegRow) (w old : Nat) : Nat :=
  r.fields.foldl (fun a f => a + bits (if f.ty == .ro || f.ty == .rclr then old else w) f.lo f.w * 2 ^ f.lo) 0

/-- The word that a read of the register at o returns (R53, R58, R392). -/
def Dev.peekWord (d : Dev) (o : Nat) : Nat :=
  if 0x200000 ≤ o then (if d.pd 1 && decide (winOf o ≠ .gap) then d.word o else 0)
  else match rowAt o with
    | none => 0
    | some r =>
      if o = RAT_RET_DATA.addr then d.ramWord (d.rd RAT_RET_ADDR.WORD)
      else if isPairHigh o then d.latched o
      else if d.pd (domOf o) then d.liveWord o
      else match d.frozen.find? fun x => x.1 == o with
        | some (_, old) => r.mixed (d.word o) old.toNat
        | none => d.word o

/-- What a read of PF0 BAR0 at byte offset o returns: the bytes of its register from o on (R3). -/
def Dev.peek (d : Dev) (o : Nat) : Nat := d.peekWord (o / 4 * 4) / 2 ^ (8 * (o % 4))

/-- The RCLR fields of the word at o read 0 from now on (R6). -/
def rclrClear (o : Nat) (d : Dev) : Dev :=
  if 0x200000 ≤ o then (if winOf o = .count then d.setWord o 0 else d)
  else match rowAt o with
    | some r =>
      let keep := r.fields.foldl (fun a f => if f.ty == .rclr then a else a + bits (d.word o) f.lo f.w * 2 ^ f.lo) 0
      if r.fields.any fun f => f.ty == .rclr then d.setWord o keep else d
    | none => d

/-- A read of PF0 BAR0 at o: a narrow read returns the bytes that it addresses, the first of them in bits 7:0, and has no side
effect; a read of a whole word has those of its register (R3, R6, R53, R164). -/
def regRead (narrow : Bool) (o : Nat) (d : Dev) : Dev :=
  let plain := d.emit (.read (BitVec.ofNat 32 (d.peek o)))
  if narrow || o % 4 != 0 then plain
  else if o = RAT_RET_DATA.addr then retRead d
  else if 0x20000 ≤ o ∧ o < 0x30000 ∧ o % 0x4000 = 0x30 ∧ d.pd 1 then txts0Read ((o - 0x20000) / 0x4000) d
  else
    let d' := pairLatch o plain
    if d.pd (if 0x200000 ≤ o then 1 else domOf o) then rclrClear o d' else d'

/-! ### The PCIe apertures (R111, R112, Table 19.4) -/

/-- One dword of an MSI-X table entry. -/
def MsixEnt.dword (e : MsixEnt) (k : Nat) : Nat :=
  match k with
  | 0 => bits e.addr 0 32
  | 1 => bits e.addr 32 32
  | 2 => e.data
  | _ => b2n e.masked

/-- A write to PF0 BAR2. -/
def bar2Write (narrow : Bool) (o v : Nat) (d : Dev) : Dev :=
  if narrow || o % 4 != 0 then badWr .pcie o d
  else if o < 0x6840 ∧ o % 64 = 0 then doorbell 0 (o / 64) v d
  else if 0x8000 ≤ o ∧ o < 0x9000 then msixTableWrite 0 ((o - 0x8000) / 16) (o / 4 % 4) v d
  else if 0x9000 ≤ o ∧ o < 0x9020 then d
  else badWr .pcie o d

/-- A write to the registers of VF f at o. -/
def vfRegWrite (f : Fin 16) (o v : Nat) (d : Dev) : Dev :=
  match o with
  | 0x4000 => if 16 ≤ v then badWr (.vf f) o d else d.fnMod f fun g => { g with vfStatus := g.vfStatus &&& (15 ^^^ v) }
  | 0x4004 => if 16 ≤ v then badWr (.vf f) o d else intMaskWrite f v d
  | 0x4008 => if 32 ≤ v then badWr (.vf f) o d else d.fnMod f fun g => { g with vfVec := v }
  | 0x400C => if v &&& 0xFF808080 = 0 then d else badWr (.vf f) o d
  | 0x4010 => if v &&& 0x00FFE0E0 = 0 then d else badWr (.vf f) o d
  | 0x4014 => if 256 ≤ v then badWr (.vf f) o d else d
  | _ => badWr (.vf f) o d

/-- A write to the aperture of VF f. -/
def vfWrite (f : Fin 16) (narrow : Bool) (o v : Nat) (d : Dev) : Dev :=
  if !d.aperture f then unsupportedRequest f d
  else if narrow || o % 4 != 0 then badWr (.vf f) o d
  else if o < 0x3840 ∧ o % 64 = 0 then doorbell f (o / 64) v d
  else if 0x5000 ≤ o ∧ o < 0x5200 then msixTableWrite f ((o - 0x5000) / 16) (o / 4 % 4) v d
  else if 0x6000 ≤ o ∧ o < 0x6004 then d
  else vfRegWrite f o v d

/-- The pending bits of 32 vectors from v on. -/
def Fn.pending (g : Fn) (v : Nat) : Nat :=
  (List.range 32).foldl (fun a i => a + if g.pba.contains (v + i) then 2 ^ i else 0) 0

/-- The word that a read of an aperture of function f returns. -/
def Dev.apertureWord (d : Dev) (f o : Nat) : Nat :=
  let g := d.fn f
  let (tbl, len, pba) := if f = 0 then (0x8000, 0x1000, 0x9000) else (0x5000, 0x200, 0x6000)
  if tbl ≤ o ∧ o < tbl + len then (g.ent ((o - tbl) / 16)).dword (o / 4 % 4)
  else if pba ≤ o ∧ o < pba + len / 128 then g.pending ((o - pba) * 8)
  else if f = 0 then 0
  else match o with
    | 0x4000 => g.vfStatus
    | 0x4004 => g.vfMask
    | 0x4008 => g.vfVec
    | 0x400C => d.res0 f
    | 0x4010 => d.res1 f
    | 0x4014 => d.epoch f
    | _ => 0

/-- What a read of an aperture at byte offset o returns: the bytes of its word from o on (R3). -/
def Dev.apertureBytes (d : Dev) (f o : Nat) : Nat := d.apertureWord f (o / 4 * 4) / 2 ^ (8 * (o % 4))

/-- REGISTER_WRITE: a write through PCIe; before BOOT_DONE none is completed (R88). -/
def busWrite (sp : Space) (narrow : Bool) (o v : Nat) (d : Dev) : Dev :=
  if !d.booted then d
  else match sp with
    | .bar0 => regWrite .pcie narrow o v d
    | .bar2 => bar2Write narrow o v d
    | .vf f => vfWrite f narrow o v d

/-- RCLR_READ: a read through PCIe. -/
def busRead (sp : Space) (narrow : Bool) (o : Nat) (d : Dev) : Dev :=
  if !d.booted then d
  else match sp with
    | .bar0 => regRead narrow o d
    | .bar2 => d.emit (.read (BitVec.ofNat 32 (d.apertureBytes 0 o)))
    | .vf f =>
      if d.closedVf f then unsupportedRequest f d
      else if d.aperture f ∨ o / 4 * 4 = 0x4000 then d.emit (.read (BitVec.ofNat 32 (d.apertureBytes f o)))
      else d.emit (.read 0)

end Sys2Proof.Machine
end

