-- ==== Sys2Proof/Machine/BootOps.lean ====
section
/-!
DEFINITION. Machine/BootOps.lean: the boot from FIND to RUN or HOLD: slot choice, application of records, admission, defaults
and the start of what the image enables (spec/04_reset_boot_and_the_configuration_image.md, R84, R89, R95 to R102).
-/

namespace Sys2Proof.Machine

/-! ### FIND and VERIFY (R95, R96) -/

/-- The RESULT, FAIL_REC and GEN fields of slot s: 1 A, 2 B. -/
def slotResult (s : Nat) : Field := if s = 1 then RST_SLOT_A.RESULT else RST_SLOT_B.RESULT
def slotFail (s : Nat) : Field := if s = 1 then RST_SLOT_A.FAIL_REC else RST_SLOT_B.FAIL_REC
def slotGen (s : Nat) : Field := if s = 1 then RST_SLOT_A_GEN.GEN else RST_SLOT_B_GEN.GEN

/-- What FIND reports of slot s with header h. -/
def findSlot (s : Nat) (h : Bytes) (d : Dev) : Dev :=
  let c := findCode (d.on RST_OTP.REQUIRE_TAG) h
  (d.wr (slotResult s) c).wr (slotGen s) (if c = 3 then 0 else u32 h 8)

/-- The candidates in the order of R96. -/
def findOrder (req : Bool) (a b : Bytes) : List Nat :=
  match findCode req a == 0, findCode req b == 0 with
  | true, true => if u32 b 8 ≤ u32 a 8 then [1, 2] else [2, 1]
  | true, false => [1]
  | false, true => [2]
  | false, false => []

/-- What a read of n bytes of flash takes: where flash does not answer, all ones (R86). -/
def flashTaken (n : Nat) (bs : Bytes) : Bytes := (bs ++ List.replicate (n - bs.length) 0xFF#8).take n

/-- VERIFY reads the first candidate slot whole, with one command (R86). -/
def verifyRead (d : Dev) : Dev :=
  match d.boot.cands with
  | s :: _ => flashRead (slotOff s) (imgLen (if s = 1 then d.boot.hdrA else d.boot.hdrB)) d
  | [] => d

/-- FIND_DONE: the headers and the calibration page have been read. -/
def findDone (hA hB cal : Bytes) (d : Dev) : Dev :=
  let hA := flashTaken 64 hA
  let hB := flashTaken 64 hB
  let cal := flashTaken 4096 cal
  if d.bootSt = 4 then
    let cands := findOrder (d.on RST_OTP.REQUIRE_TAG) hA hB
    let d := findSlot 2 hB (findSlot 1 hA d)
    let d := d.bootMod fun b => { b with hdrA := hA, hdrB := hB, calPage := cal, cands := cands, image := [] }
    verifyRead (d.wr RST_BOOT_STATUS.STATE (if cands.isEmpty then 8 else 5))
  else d

/-! ### APPLY (R97, R99) -/

/-- A register write is refused: GLB_BADWR would count it. -/
def Dev.refuses (d : Dev) (o v : Nat) : Bool :=
  (regWrite .image false o v (d.wr GLB_BADWR.COUNT 0)).rd GLB_BADWR.COUNT != 0

/-- Apply v at o from record i, of the calibration page or of the slot; a refused write is counted (R97, R99). FIRST_REC holds
the low 16 bits of the index (DESIGN CHOICE, assumption log 64). -/
def bootReg (page : Bool) (i o v : Nat) (d : Dev) : Dev :=
  if d.refuses o v then
    let d := ((regWrite .image false o v d).sat RST_BOOT_REJ.COUNT).ev RST_EVENT.BOOT_REJECT
    if d.rd RST_BOOT_REJ.FIRST_REC = 0xFFFF then
      let d := d.wr RST_BOOT_REJ.FIRST_REC i
      if page then d.wrB RST_BOOT_STATUS.REJ_IN_CAL true else d
    else d
  else regWrite .image false o v d

/-- Apply v under the mask m at o from record i (Table 4.8). -/
def bootMasked (i o m v : Nat) (d : Dev) : Dev :=
  let all := 2 ^ 32 - 1
  let old := d.peek o &&& (all ^^^ actionMask o)
  bootReg false i o ((old &&& (all ^^^ m)) ||| (v &&& m)) d

/-- What APPLY does at each word of a REG or CAL payload: at the second of a pair it writes. -/
def pairActs (page : Bool) (i : Nat) : List Nat → List (Dev → Dev)
  | o :: v :: ws => id :: bootReg page i o v :: pairActs page i ws
  | ws => ws.map fun _ => id

/-- The same for a REG_MASKED payload: at the third of a triple. -/
def tripleActs (i : Nat) : List Nat → List (Dev → Dev)
  | o :: m :: v :: ws => id :: id :: bootMasked i o m v :: tripleActs i ws
  | ws => ws.map fun _ => id

/-- The same for the data words of a table record, from offset o on. -/
def tableActs : Nat → List Nat → List (Dev → Dev)
  | _, [] => []
  | o, v :: ws => regWrite .image false o v :: tableActs (o + 4) ws

/-- What APPLY does at each word of record i, its two header words among them. `cal`: the record's CAL pairs act. -/
def recActs (page cal : Bool) (i : Nat) (r : Rec) : List (Dev → Dev) :=
  let ws := wordsOf r.payload
  let none := ws.map fun _ => (id : Dev → Dev)
  id :: id :: match r.ty with
    | 0x01 => pairActs page i ws
    | 0x02 => tripleActs i ws
    | 0x20 => if cal then pairActs page i ws else none
    | 0x10 | 0x11 | 0x12 | 0x13 | 0x14 => id :: tableActs (0x200000 + ws.getD 0 0) (ws.drop 1)
    | _ => none

/-- What APPLY does at each word of the records, the first being number i. -/
def recsActs (page cal : Bool) : Nat → List Rec → List (Dev → Dev)
  | _, [] => []
  | i, r :: rs => recActs page cal i r ++ recsActs page cal (i + 1) rs

/-- The calibration page, word by word. -/
def Dev.pageActs (d : Dev) : List (Dev → Dev) := recsActs true true 0 (records d.boot.calPage)

/-- What APPLY does, one word per CLK: the body of a valid calibration page, then the body of the image (R97, R99). -/
def Dev.applyActs (d : Dev) : List (Dev → Dev) :=
  let page := d.rd RST_BOOT_STATUS.CAL_SRC == 0
  (if page then d.pageActs else []) ++ recsActs false (!page) 0 (records d.boot.image)

/-- APPLY goes on until it has been through n words. -/
def applyTo (n : Nat) (d : Dev) : Dev :=
  let xs := (d.applyActs.take n).drop d.boot.applied
  (xs.foldl (fun d f => f d) d).bootMod fun b => { b with applied := max b.applied n }

/-- APPLY is at the word of CLK k: each word's write has taken effect in its own CLK (R97). -/
def applyCome (k : Nat) (d : Dev) : Dev := if d.bootSt = 6 then applyTo (k - d.boot.applyClk) d else d

/-- CAL_SRC, and CAL_DEFAULT where the page is not valid (R99). -/
def calSource (slotCal : Bool) (d : Dev) : Dev :=
  if calOk d.boot.calPage then d.wr RST_BOOT_STATUS.CAL_SRC 0
  else (d.ev RST_EVENT.CAL_DEFAULT).wr RST_BOOT_STATUS.CAL_SRC (if slotCal then 1 else 2)

/-- APPLY is entered. -/
def applyBegin (d : Dev) : Dev :=
  let d := calSource ((records d.boot.image).any fun r => r.ty == 0x20) d
  (d.bootMod fun b => { b with applyClk := d.hearth.clk, applied := 0 }).wr RST_BOOT_STATUS.STATE 6

/-- VERIFY_DONE: the first candidate has been read whole. Flash does not change under the sequencer, so its header is the one
that FIND read. FAIL_REC holds the low 16 bits of a record's index (DESIGN CHOICE, assumption log 64). -/
def verifyDone (bs : Bytes) (d : Dev) : Dev :=
  match d.boot.cands with
  | s :: rest =>
    let hdr := if s = 1 then d.boot.hdrA else d.boot.hdrB
    let bs := flashTaken (imgLen hdr) bs
    if d.bootSt = 5 ∧ bs.take 64 = hdr then
      let (c, bad) := verifyCode (d.on RST_OTP.KEY_PROG) d.boot.otpKey bs
      if c = 1 then
        let d := rest.foldl (fun d r => d.wr (slotResult r) 2) d
        applyBegin (d.bootMod fun b => { b with cands := [s], image := bs })
      else
        let d := (d.wr (slotResult s) c).wr (slotFail s) bad
        verifyRead ((d.bootMod fun b => { b with cands := rest }).wr RST_BOOT_STATUS.STATE (if rest.isEmpty then 8 else 5))
    else d
  | [] => d

/-- APPLY_DONE: every word has been applied. -/
def applyDone (d : Dev) : Dev :=
  if d.bootSt = 6 then
    let img := d.boot.image
    let s := d.boot.cands.headD 1
    let d := applyTo d.applyActs.length d
    let d := ((d.wr (slotResult s) 1).wr RST_BOOT_STATUS.SLOT s).wr RST_BOOT_GEN.GEN (u32 img 8)
    let key := d.on RST_OTP.KEY_PROG
    let d := (d.wrB RST_BOOT_STATUS.TAG_CHECKED (imgTagged img && key)).wrB RST_BOOT_STATUS.TAG_UNCHECKED (imgTagged img && !key)
    d.wr RST_BOOT_STATUS.STATE 7
  else d

/-- FRAME_EVENT in any boot state: APPLY reaches the CLK of the frame event first. -/
def frameTaken (pins : Nat) (d : Dev) : Dev := frameCome pins (applyCome (toNextFrame d).hearth.clk d)

/-- One CLK in any boot state. -/
def clkTaken (d : Dev) : Dev := clkTick (applyCome (d.hearth.clk + 1) d)

/-! ### ADMIT and DEFAULTS (R98, R101) -/

/-- The channels with gate engines enabled, and their GUAR bits. -/
def Dev.bootGuar (d : Dev) : List (Nat × Nat) :=
  ((List.range 4).filter fun n => d.on (CHn_GATE_CTRL.EN n)).map fun n => (n, d.guarBits n)

/-- ADMIT_DONE: the admission sum over the loaded configuration (R222). -/
def admitDone (d : Dev) : Dev :=
  if d.bootSt = 7 ∧ !d.boot.ready then
    let banks := (List.range 4).map fun n =>
      if d.on (CHn_GATE_CTRL.EN n) then some (d.rd (CHn_GATE_CTRL.BOOT_BANK n), d.guarBits n) else none
    let a := admission banks (d.slotCosts (some (d.rd PEG_SCHED_CTRL.BOOT_BANK))) d
    let d := admitReport a 0 0 d
    let d := if a.passed then admitTake a d.bootGuar d
      else ((d.wrB RST_BOOT_STATUS.OVERBOOK true).ev RST_EVENT.OVERBOOK).pmMod fun p => { p with dmaCred := 16384, bgCred := 16384 }
    d.bootMod fun b => { b with ready := true, due := false }
  else d

/-- Every I field takes its Reset value from ROM (R10, R101). -/
def romDefaults (d : Dev) : Dev :=
  let rom (o v : Nat) : Nat :=
    match rowAt o with
    | some r => (r.fields.filter fun f => f.keep == .i).foldl
        (fun a f => setBits a f.lo f.w (bits (resetWord o).toNat f.lo f.w)) v
    | none => v
  let ws := d.regs.map fun (o, v) => (o, if o < 0x200000 then BitVec.ofNat 32 (rom o v.toNat) else v)
  { d with regs := ws.filter fun (o, v) => v != resetWord o }

/-- DEFAULTS_DONE: no slot is valid; the ROM defaults are loaded, then a valid calibration page applied (R101). -/
def defaultsDone (d : Dev) : Dev :=
  if d.bootSt = 8 ∧ !d.boot.ready then
    let d := calSource false (romDefaults d)
    let d := (if calOk d.boot.calPage then d.pageActs.foldl (fun d f => f d) d else d).ev RST_EVENT.DEFAULTED
    let d := (d.wrB RST_BOOT_STATUS.CFG_DEFAULTED true).wrB RST_BOOT_STATUS.HOLD true
    d.bootMod fun b => { b with ready := true, due := false }
  else d

/-! ### RUN and HOLD (R89, R101, R102) -/

/-- What the image or software has enabled starts under R103, where its domain is on. -/
def startAll (d : Dev) : Dev :=
  let d := coreStart d
  let d := if d.pd 5 then spkPowered (sapOn d) else d
  autoDue d

/-- Engines that also run in HOLD: gates, compression, the Leash's run state. -/
def startHold (d : Dev) : Dev :=
  let d := if d.on RST_BOOT_STATUS.OVERBOOK then
      forN 4 (fun n d => if d.on (CHn_GATE_CTRL.EN n) then gateEnable n d else d) d
    else forN 4 gateBoot d
  let d := if d.pd 6 then cmpPowered d else d
  if d.on LSH_CTRL.EN then leashEn true d else d

/-- RAT_STATUS shows the controller's status again (R79). -/
def ratShow (d : Dev) : Dev :=
  match d.rat.shadow with
  | some w => (d.ratMod fun r => { r with shadow := none }).setWord RAT_STATUS.addr w
  | none => d

/-- BOOT_DONE, at the frame event after ADMIT or DEFAULTS. -/
def bootDone (d : Dev) : Dev :=
  if d.boot.ready && d.boot.due && (d.bootSt == 7 || d.bootSt == 8) then
    let d := (d.ev RST_EVENT.BOOT_DONE).wr RST_BOOT_TIME.FR d.boot.frames
    let d := d.wr RST_BOOT_STATUS.STATE (if d.on RST_BOOT_STATUS.HOLD then 9 else 10)
    let d := ratShow (d.bootMod fun b => { b with kind := none, wakeBoot := false, ready := false, due := false })
    let d := schedBoot (cfgCopy (srcAct (d.rd HRT_CTRL.SRC) d))
    let d := d.shdMod fun s => { s with fresh := true }
    let d := autoDue (startHold d)
    if d.run then startAll d else d
  else d

/-- RELEASE: noted in HOLD, elsewhere without effect (R102). -/
def release (d : Dev) : Dev :=
  if d.bootSt = 9 ∧ !d.boot.release then d.bootMod fun b => { b with release := true, due := false } else d

/-- HOLD_EXIT, at the frame event after RELEASE. -/
def holdExit (d : Dev) : Dev :=
  if d.bootSt = 9 ∧ d.boot.release ∧ d.boot.due then
    let d := d.bootMod fun b => { b with release := false, due := false }
    startAll ((d.wrB RST_BOOT_STATUS.HOLD false).wr RST_BOOT_STATUS.STATE 10)
  else d

end Sys2Proof.Machine
end

