-- ==== Sys2Proof/Machine/SmbOps.lean ====
section
/-!
DEFINITION. Machine/SmbOps.lean: the SMBus target (spec/17_field_interfaces_and_the_hold_up_cell.md, R369, R370).
-/

namespace Sys2Proof.Machine

/-- A command is not acknowledged; ERR counts it. -/
def smbNack (d : Dev) : Dev := (d.sat FLD_SMB_STATUS.ERR).emit (.smb false 0)

/-- A command is acknowledged and answers v. -/
def smbAck (v : Nat) (d : Dev) : Dev := d.emit (.smb true v)

/-- The boot has not reached FIND: OTP, PLL_WAIT, POWER_UP or WARM (Table 4.4). -/
def Dev.beforeFind (d : Dev) : Bool := d.bootSt == 1 || d.bootSt == 2 || d.bootSt == 3 || d.bootSt == 11

/-- The command runs unless its PEC fails; a part without power answers nothing (R369). -/
def smbCommand (pecOk : Bool) (f : Dev → Dev) (d : Dev) : Dev :=
  if d.boot.porLow then d
  else
    let d := applyCome d.hearth.clk d
    if pecOk then f d else smbNack d

/-- SMB_SET_ADDR. -/
def smbSetAddr (a : Nat) (d : Dev) : Dev :=
  if 0x90000 ≤ a then smbNack d else smbAck 0 (d.fldMod fun f => { f with smbReg := a })

/-- An access at o is refused in this boot state (R370). -/
def Dev.smbShut (d : Dev) (o : Nat) : Bool :=
  decide (0x90000 ≤ o) ||
    (d.beforeFind && !(decide (0x10000 ≤ o) && decide (o < 0x14000)) && !(decide (0x70000 ≤ o) && decide (o < 0x78000)))

/-- REG_ADDR advances. -/
def smbNext (d : Dev) : Dev := d.fldMod fun f => { f with smbReg := f.smbReg + 4 }

/-- SMB_REG_READ. At an address that is not aligned it returns the bytes there, without side effects (R3). -/
def smbRegRead (d : Dev) : Dev :=
  let o := d.fld.smbReg
  if d.smbShut o then smbNack d
  else if o % 4 = 0 then
    let e := regRead false o { d with outs := [] }
    let v := match e.outs.getLast? with
      | some (.read v) => v.toNat
      | _ => 0
    smbNext (smbAck v { e with outs := d.outs })
  else
    let two := d.peek (o / 4 * 4) + d.peek (o / 4 * 4 + 4) * 2 ^ 32
    smbNext (smbAck (bits two (8 * (o % 4)) 32) d)

/-- The block of o sits in PD0 (Table 19.1). -/
def smbWritable (o : Nat) : Bool :=
  decide (o < 0x14000) || (decide (0x50000 ≤ o) && decide (o < 0x54000)) || (decide (0x70000 ≤ o) && decide (o < 0x80000))

/-- SMB_REG_WRITE. -/
def smbRegWrite (v : Nat) (d : Dev) : Dev :=
  let o := d.fld.smbReg
  if d.smbShut o || !smbWritable o then smbNack d
  else smbNext (smbAck 0 (regWrite .smbus (o % 4 != 0) o v d))

/-- SMB_STATUS_READ. -/
def smbStatusRead (d : Dev) : Dev :=
  smbAck (d.bootSt + b2n (d.on RST_BOOT_STATUS.HOLD) * 2 ^ 4 + b2n (d.on RST_BOOT_STATUS.CFG_DEFAULTED) * 2 ^ 5 +
    b2n (d.ratOn RAT_STATUS.LOSS) * 2 ^ 6 + b2n d.holds * 2 ^ 7) d

/-- SMB_COLD_RESET, SMB_WARM_RESET and SMB_WAKE carry a key. -/
def smbKeyed (key : Nat) (f : Dev → Dev) (d : Dev) : Dev := if key = 0xA5 then f (smbAck 0 d) else smbNack d

/-- SMB_CLOCK_LOW: the target releases the bus. -/
def smbClockLow (d : Dev) : Dev := if d.boot.porLow then d else d.sat FLD_SMB_STATUS.ERR

end Sys2Proof.Machine
end

