-- ==== Sys2Proof/Machine/Settle.lean ====
section
/-!
DEFINITION. Machine/Settle.lean: what follows from the registers in every CLK, after whatever a command did: pin views, fault
bits, block interrupts; and the pins themselves (R28, R73, R88, R116, R157, R368, R374, R389).
-/

namespace Sys2Proof.Machine

/-! ### Views of the state -/

/-- REFOUT runs: enabled, PD4 powered, out of reset (R28). -/
def Dev.refoutRuns (d : Dev) : Bool := d.on CLK_CTRL.REFOUT_EN && d.pd 4 && !d.boot.asserted

/-- REFOUT_ON follows; a stop takes the link down (R107, R109). -/
def refoutShow (d : Dev) : Dev :=
  let was := d.on CLK_STATUS.REFOUT_ON
  let d' := d.wrB CLK_STATUS.REFOUT_ON d.refoutRuns
  if was && !d.refoutRuns then refoutLost d' else d'

/-- The audio dividers run where enabled, PD5 powered, outputs released (Table 4.3). -/
def mclkShow (d : Dev) : Dev :=
  d.wr CLK_STATUS.MCLK_LOCK
    (if d.pd 5 && d.run then b2n (d.on CLK_CTRL.MCLK_A_EN) + 2 * b2n (d.on CLK_CTRL.MCLK_B_EN) else 0)

/-- TXDISn is pulled low: channel n may transmit and its lane is not gated off (R156, R157, R400). -/
def Dev.txOn (d : Dev) (n : Nat) : Bool := d.chRun n != 0 && d.txPermit n && d.bitOf RAT_DOM_STATUS.LANE_ON n

/-- CHn_STATUS.TXDIS. -/
def txdisShow (n : Nat) (d : Dev) : Dev := d.wrB (CHn_STATUS.TXDIS n) (!d.txOn n)

/-- Media packets are queued by this device (R324). -/
def sendingShow (d : Dev) : Dev :=
  d.wrB LLB_STATUS.SENDING ((d.holds || d.on LLB_CFG.SEND_ALWAYS) && d.llb.chs.any (·.act))

/-- A DMA transfer is in progress: a host read outstanding or waiting, or a descriptor partly done (DMA_STATUS). -/
def dmaBusy (h : HostIf) : Bool :=
  !h.reads.isEmpty || !h.wants.isEmpty || !h.outq.isEmpty || h.rings.any fun r => r.2.taken.any fun x => x.begun && !x.done

/-- The chain lanes of Pegline are powered while it runs in chain mode; their synthesiser locks with them (R256; assumption log
41). -/
def pegLanesShow (d : Dev) : Dev :=
  let on := d.pd 3 && d.rd PEG_STATUS.RUN != 0 && d.chain
  (d.wrB RAT_DOM_STATUS.PEG_LANES_ON on).wrB CLK_STATUS.PEG_LANE_LOCK on

/-- Views of PD1 to PD4 registers. -/
def viewsShow (d : Dev) : Dev :=
  let d := pegLanesShow d
  let d := d.wrB HIF_STATUS.CRS (d.pd 4 && !d.booted)
  let d := if d.pd 2 then d.wr PMC_ADMIT_LIMIT.LIMIT (admitLimit (d.rd PMC_ADMIT_LIMIT.PCT)) else d
  if d.pd 1 then (vfViews (sendingShow (forN 4 txdisShow d))).wrB DMA_STATUS.BUSY (dmaBusy d.host) else d

/-! ### Block interrupts (R116) -/

/-- The event registers of each INT block (Table 19.1). -/
def eventRegs (b : Nat) : List Nat :=
  match b with
  | 0 => [0x4008]
  | 1 => [0x8008]
  | 2 => [0xC008]
  | 3 => [0x10028]
  | 4 => [0x14008]
  | 5 => [0x18008]
  | 6 | 7 | 8 | 9 => [0x20008 + 0x4000 * (b - 6), 0x20608 + 0x4000 * (b - 6)]
  | 10 => [0x30008]
  | 11 => [0x38008]
  | 12 => [0x40008]
  | 13 => [0x48008, 0x48114]
  | 14 => [0x50010]
  | 15 => [0x54008]
  | 16 => (List.range 8).map fun p => 0x58010 + 0x80 * p
  | 17 => [0x6000C]
  | 18 => [0x64010]
  | 19 => [0x68008]
  | _ => [0x70000]

/-- An event register's word: every event register resets to 0. -/
def Dev.evWord (d : Dev) (o : Nat) : Nat := (cellRead (fun _ => 0#32) d.regs o).toNat

/-- An event bit of block b has passed from 0 to 1. -/
def blockRose (old d : Dev) (b : Nat) : Bool :=
  (eventRegs b).any fun o => d.evWord o &&& (2 ^ 32 - 1 ^^^ old.evWord o) != 0

/-- The blocks with new events set their INT bits, while PD1 is on. -/
def intShow (old d : Dev) : Dev :=
  if d.pd 1 && !d.boot.asserted then forN 21 (fun b e => if blockRose old d b then blockEvent b e else e) d else d

/-- A unit that has nothing to wait for starts, or is quiescent, in the CLK after the one in which it was told to (R103): f is
its run state. -/
def runNext (f : Field) (old d : Dev) : Dev :=
  let r := d.rd f
  if d.hearth.clk = old.hearth.clk ∨ old.rd f ≠ r then d
  else if r = 1 then d.wr f 2
  else if 3 ≤ r then d.wr f (runQuiet r)
  else d

/-- The gate engines, the Leash logic and the compression engine, which stops only when its job has (R103, assumption log 15). -/
def runsShow (old d : Dev) : Dev :=
  let d := if d.pd 1 then forN 4 (fun n => runNext (CHn_GATE_STATUS.RUN n) old) d else d
  let d := runNext LSH_STATUS.RUN old d
  if d.rd CMP_STATUS.RUN = 1 then runNext CMP_STATUS.RUN old d else d

/-! ### After every command -/

/-- What follows in the CLK of a command that turned `old` into d. -/
def settle (old d : Dev) : Dev :=
  chgUpdate (gpoUpdate (intShow old (faultUpdate (viewsShow (mclkShow (refoutShow (runsShow old d)))))))

/-- A command's meaning: outputs of the command alone, its effect f, then what follows. -/
def Dev.command (d : Dev) (f : Dev → Dev) : Dev := settle d (f { d with outs := [] })

/-! ### Pins (Tables 4.3 and 20.1, R374) -/

/-- The outputs of the part (Table 20.1): Pegline bus drivers and receivers and chain lanes by channel, B where true; MCLK_B
where true. The IEC 60958 outputs are those of SAP6 and SAP7. -/
inductive Pin where
  | hostPwrEn | chgEn | holdOut | ppsOut | fsyncOut | refout | sagEn
  | gpo (n : Fin 8)
  | txdis (n : Fin 4)
  | uplinkTx (n : Fin 4)
  | pegBus (b : Bool)
  | pegBusRx (b : Bool)
  | pegLane (b : Bool)
  | lshTx | pcieTx | guyline | smbus
  | modI2c (n : Fin 4)
  | qspiCs | qspiClk | qspiIo
  | sapOut (p : Fin 8)
  | mclk (b : Bool)
  | spk
  deriving DecidableEq, Repr

/-- What a pin does: driven low or high (REFOUT: stopped or running), released, held by the test access port, in electrical
idle, high-impedance, a fail-safe receiver, in use (it carries what its function sends), or not driven at all. -/
inductive Level where
  | low | high | released | test | idle | hiz | failSafe | inUse | off
  deriving DecidableEq, Repr

/-- A push-pull level. -/
def levelOf (b : Bool) : Level := if b then .high else .low

/-- An open-drain level: low or released. -/
def drainOf (lowNow : Bool) : Level := if lowNow then .low else .released

/-- In use, or at rest at x. -/
def useOr (x : Level) (b : Bool) : Level := if b then .inUse else x

/-- Outputs follow their functions: no reset, no boot, no HOLD (R80, R89, R102). -/
def Dev.outs0 (d : Dev) : Bool := d.run && !d.boot.asserted

/-- Pegline runs in mode m (0 bus, 1 chain). -/
def Dev.pegIn (d : Dev) (m : Nat) : Bool := d.outs0 && d.pd 1 && d.rd PEG_STATUS.RUN != 0 && d.rd PEG_STATUS.MODE_NOW == m

/-- The flash pins are driven: by the sequencer in a boot, by the controller during a command (Table 4.3, R372). -/
def Dev.qspiRuns (d : Dev) : Bool := !d.boot.asserted && (!d.booted || d.on FLD_QSPI_CMD.GO)

/-- The level that the functions of the part give a pin. -/
def Dev.pinOwn (d : Dev) (p : Pin) : Level :=
  let out := d.outs0
  match p with
  | .hostPwrEn => levelOf d.rat.hostPwr
  | .chgEn => levelOf (d.on RAT_CHG.LEVEL)
  | .holdOut => levelOf (d.on LSH_STATUS.HOLD_OUT)
  | .ppsOut => levelOf (out && ((d.hearth.ppsActive && d.ppsRuns) != d.on HRT_PPS_OUT_CFG.POL))
  | .fsyncOut => levelOf (out && ((d.hearth.fsyncActive && d.fsyncRuns) != d.on HRT_FSYNC_CFG.POL))
  | .refout => levelOf (d.on CLK_STATUS.REFOUT_ON)
  | .sagEn => levelOf (d.rd FLD_CELL_STATUS.SAG_STATE == 2)
  | .gpo n => drainOf (!bit (d.rd FLD_GPO.LEVEL) n)
  | .txdis n => drainOf (d.txOn n)
  | .uplinkTx n =>
    useOr .idle (out && d.bitOf RAT_DOM_STATUS.LANE_ON n && (d.chRun n != 0 || (d.tier == 4 && n == 0)))
  | .pegBus _ => useOr .hiz (d.pegIn 0)
  | .pegBusRx _ => useOr .failSafe (d.pegIn 0)
  | .pegLane _ => useOr .idle (d.pegIn 1 && d.on RAT_DOM_STATUS.PEG_LANES_ON)
  | .lshTx => useOr .idle (out && d.on RAT_DOM_STATUS.LSH_LANE_ON && d.rd LSH_STATUS.RUN != 0)
  | .pcieTx =>
    if d.boot.asserted then .idle else if d.pd 4 then .inUse else if d.booted then .off else .idle
  | .guyline => useOr .released (out && d.on FLD_GL_STATUS.BUSY)
  | .smbus => useOr .released (!d.boot.porLow)
  | .modI2c n =>
    useOr .released (out && d.on (FLD_MI2Cm_CMD.GO (n / 2)) && d.rd (FLD_MI2Cm_CMD.PORT (n / 2)) == n % 2)
  | .qspiCs => useOr .high d.qspiRuns
  | .qspiClk => useOr .low d.qspiRuns
  | .qspiIo => useOr .hiz d.qspiRuns
  | .sapOut p => useOr .hiz (out && d.pd 5 && d.sapRun p != 0)
  | .mclk b => useOr .hiz (out && bit (d.rd CLK_STATUS.MCLK_LOCK) (b2n b))
  | .spk => useOr .hiz (out && d.pd 5 && !d.spk.low && decide (1 ≤ d.spkSt ∧ d.spkSt ≤ 3))

/-- The level of a pin: EXTEST, CLAMP and HIGHZ override every one but REFOUT, which boundary scan does not cover. -/
def Dev.pin (d : Dev) (p : Pin) : Level :=
  if p = .refout then d.pinOwn p
  else match d.fld.tap with
    | .none => d.pinOwn p
    | .boundary => .test
    | .highz => .released

/-- The state of a pin of a part without power (Tables 4.3 and 20.1). -/
def Pin.unpowered : Pin → Level
  | .gpo _ | .txdis _ | .guyline | .smbus | .modI2c _ => .released
  | .pegBus _ | .sapOut _ | .mclk _ | .spk => .hiz
  | .pegBusRx _ => .failSafe
  | _ => .off

/-- The level on a pin's line, the part powered or not: where an unpowered part does not drive it, the board's resistors hold
HOST_PWR_EN, CHG_EN, LSH_HOLD_OUT and PPS_OUT low and QSPI_CS_N high (R81). -/
def Dev.line (d : Dev) (powered : Bool) (p : Pin) : Level :=
  if powered then d.pin p
  else match p with
    | .hostPwrEn | .chgEn | .holdOut | .ppsOut => .low
    | .qspiCs => .high
    | p => p.unpowered

end Sys2Proof.Machine
end

