-- ==== Sys2Proof/Machine/Soft.lean ====
section
/-!
DEFINITION. Machine/Soft.lean: how software's own commands reach the part: through PCIe once booted (R88), in the power
domain of the register they write (R3, R58), and what a command does to the state that holds the queue.
-/

namespace Sys2Proof.Machine

/-- A request through PCIe: before BOOT_DONE none is completed (R88). -/
def ifBooted (f : Dev → Dev) (d : Dev) : Dev := if d.booted then f d else d

/-- The same for a source: SMBus and image records are not held up. -/
def softFrom (src : BusSrc) (f : Dev → Dev) (d : Dev) : Dev :=
  match src with
  | .pcie | .vf _ => ifBooted f d
  | .smbus | .image => f d

/-- Software writes an action field of a register of domain pd (R58). -/
def soft (pd : Nat) (f : Dev → Dev) : Dev → Dev := ifBooted (action pd f)

/-- Software writes v to an RW field of a register of domain pd, which g acts on while the domain is on (R58). -/
def softField (pd : Nat) (f : Field) (v : Nat) (g : Dev → Dev) : Dev → Dev :=
  ifBooted fun d => if d.pd pd then g d else d.wr f v

/-- The same for a bit. -/
def softBit (pd : Nat) (f : Field) (b : Bool) (g : Dev → Dev) : Dev → Dev :=
  ifBooted fun d => if d.pd pd then g d else d.wrB f b

/-- The same for a bit whose change g acts on. -/
def softEdge (pd : Nat) (f : Field) (b : Bool) (g : Dev → Dev) : Dev → Dev :=
  ifBooted fun d => if d.pd pd then (if d.on f = b then d else g d) else d.wrB f b

/-- The same for the HIF_VF_HOLD bit of VF f. -/
def softHold (f : Fin 16) (b : Bool) (g : Dev → Dev) : Dev → Dev :=
  ifBooted fun d => if d.pd 4 || f = 0 then g d else d.putBitOf HIF_VF_HOLD.HOLD (f.val - 1) b

/-- An enable acts in RUN; before, it is held until HOLD ends (R101, R102). -/
def inRun (f : Field) (b : Bool) (g : Dev → Dev) (d : Dev) : Dev := if d.run then g d else d.wrB f b

/-- An event inside domain pd. -/
def inDomain (pd : Nat) (f : Dev → Dev) (d : Dev) : Dev := if d.pd pd then f d else d

/-- A write to the mask register of function f (R116). -/
def maskWrite (f : Fin 16) (x : Nat) (d : Dev) : Dev :=
  if f = 0 then regWrite .pcie false INT_FN0_MASK.addr x d else vfWrite f false 0x4004 x d

/-- A mailbox doorbell of function f (R112, R128). -/
def onMailbox (f : Fin 16) (g : Dev → Dev) (d : Dev) : Dev := if d.aperture f then g d else unsupportedRequest f d

/-- LAUNCH_DUE: the launch time compares as reached from mote m on (R138). -/
def launchDue (m : Nat) (d : Dev) : Dev := atMote m d

/-- LLB_RX_PACKET: the frame is taken if it matches channel c (R326). -/
def llbReceived (c : Nat) (bs : Bytes) (d : Dev) : Dev := if d.llbMatch bs = some c then llbTake c bs d else d

/-- A command's effect on everything but the queue. -/
def State.run (s : State) (f : Dev → Dev) : Host.Outcome State Fault Refusal := .next { s with dev := s.dev.command f }

end Sys2Proof.Machine
end

