-- ==== Sys2Proof/Machine/Channels.lean ====
section
/-!
DEFINITION. Machine/Channels.lean: the meanings of the commands of the channels (chapter 7).
-/

namespace Sys2Proof.Machine

/-- CHANNEL_ON: A STARTING channel is ready (R156). -/
def execChannelOn (n : Fin 4) (s : State) : Host.Outcome State Fault Refusal := s.run (channelOn n)

/-- CHANNEL_STOPPED: A stopping channel reaches quiescence (R156). -/
def execChannelStopped (n : Fin 4) (s : State) : Host.Outcome State Fault Refusal := s.run (channelStopped n)

/-- MOD_IN: A module is inserted (R157). -/
def execModIn (n : Fin 4) (s : State) : Host.Outcome State Fault Refusal := s.run (modIn n)

/-- MOD_OUT: A module is removed (R157). -/
def execModOut (n : Fin 4) (s : State) : Host.Outcome State Fault Refusal := s.run (modOut n)

/-- MODULE_SETTLED: A module has been present for INSERT_FR frames (R157). -/
def execModuleSettled (n : Fin 4) (s : State) : Host.Outcome State Fault Refusal := s.run (moduleSettled n)

/-- TX_FAULT: TXFLTn moves, or has been asserted for 2 frames (R157). -/
def execTxFault (x : TxFlt) (s : State) : Host.Outcome State Fault Refusal := s.run (txFault x.n x.step)

/-- FAULT_RETRY: FAULT_RETRY is written (R157). -/
def execFaultRetry (n : Fin 4) (src : BusSrc) (s : State) : Host.Outcome State Fault Refusal :=
  s.run (softFrom src (action 1 (faultRetry n)))

/-- LINK_UP: The PCS reaches good state, or has held it for UP_FR frames (R158). -/
def execLinkUp (x : PcsGood) (s : State) : Host.Outcome State Fault Refusal :=
  s.run (if x.held then linkUp x.n else pcsGood x.n)

/-- LINK_DOWN: The channel link goes down (R158). -/
def execLinkDown (n : Fin 4) (cause : LinkCause) (s : State) : Host.Outcome State Fault Refusal :=
  s.run (linkDown n cause)

/-- RX_FRAME: A frame or mPacket is received on channel n, its delimiter at mote m (R159, R169). -/
def execRxFrame (n : Fin 4) (m : Mote) (pkt : MPkt) (pcs : Pcs) (data : Bytes) (s : State) :
    Host.Outcome State Fault Refusal :=
  s.run (queueing (rxFrame n m pkt pcs data))

/-- PATTERN_WAKE: A frame received in BIVOUAC-LISTEN (R172). -/
def execPatternWake (data : Bytes) (s : State) : Host.Outcome State Fault Refusal := s.run (patternWake data)

/-- PAUSE_REFRESH: Half the advertised pause time has elapsed (R165). -/
def execPauseRefresh (n : Fin 4) (m : Mote) (s : State) : Host.Outcome State Fault Refusal := s.run (pauseRefresh n m)

/-- XOFF_END: The measure falls to LO (R165). -/
def execXoffEnd (n : Fin 4) (s : State) : Host.Outcome State Fault Refusal := s.run (xoffEnd n)

/-- PAUSE_RX: A PAUSE frame is received (R166). -/
def execPauseRx (n : Fin 4) (quanta : BitVec 16) (m : Mote) (s : State) : Host.Outcome State Fault Refusal :=
  s.run (pauseRx n quanta.toNat m)

/-- PFC_RX: A PFC frame is received (R166). -/
def execPfcRx (n : Fin 4) (vec : BitVec 8) (quanta : List (BitVec 16)) (m : Mote) (s : State) :
    Host.Outcome State Fault Refusal :=
  s.run (pfcRx n vec.toNat (quanta.map (·.toNat)) m)

/-- PAUSE_END: The received pause time of priority k, or that of a PAUSE frame (8), expires (R166). -/
def execPauseEnd (n : Fin 4) (k : Fin 9) (m : Mote) (s : State) : Host.Outcome State Fault Refusal :=
  s.run (pauseEnd n k m)

/-- TX_FRAME_START: The next frame of channel n starts, its delimiter at mote m (R186, R386). -/
def execTxFrameStart (n : Fin 4) (ups : List Upset) (m : Mote) (s : State) : Host.Outcome State Fault Refusal :=
  s.run (queueing fun d => loopBack (txFrameStart n ups m d))

/-- TX_FRAME_END: The frame on the wire of channel n ends at mote m (R138). -/
def execTxFrameEnd (n : Fin 4) (m : Mote) (s : State) : Host.Outcome State Fault Refusal := s.run (queueing fun d => loopBack (txFrameEnd n m d))

/-- PREEMPT_ENABLE: CHn_PREEMPT_CFG.EN is written 1 (R167). -/
def execPreemptEnable (n : Fin 4) (s : State) : Host.Outcome State Fault Refusal :=
  s.run (softEdge 1 (CHn_PREEMPT_CFG.EN n) true (preemptEnable n))

/-- PREEMPT_DISABLE: CHn_PREEMPT_CFG.EN is written 0 (R167). -/
def execPreemptDisable (n : Fin 4) (s : State) : Host.Outcome State Fault Refusal :=
  s.run (softEdge 1 (CHn_PREEMPT_CFG.EN n) false (preemptDisable n))

/-- VERIFY_TIMER: The verify timer expires (R167). -/
def execVerifyTimer (x : ChanAt) (s : State) : Host.Outcome State Fault Refusal := s.run (verifyTimer x.n x.m)

/-- VERIFY_RX: A verify mPacket is received (R167). -/
def execVerifyRx (n : Fin 4) (s : State) : Host.Outcome State Fault Refusal := s.run (markRx n false)

/-- RESPOND_RX: A respond mPacket is received (R167). -/
def execRespondRx (n : Fin 4) (s : State) : Host.Outcome State Fault Refusal := s.run (markRx n true)

/-- TXTS0_READ: A read of CHn_PTP_TXTS0 (R164). -/
def execTxts0Read (n : Fin 4) (s : State) : Host.Outcome State Fault Refusal :=
  s.run (ifBooted (regRead false (CHn_PTP_TXTS0.addr n)))

end Sys2Proof.Machine
end

