-- ==== Sys2Proof/Machine/Clock.lean ====
section
/-!
DEFINITION. Machine/Clock.lean: the meanings of the commands of CLK and the Hearth (chapter 2).
-/

namespace Sys2Proof.Machine

/-- XREF_LOSS: XREF is lost (R30). -/
def execXrefLoss (s : State) : Host.Outcome State Fault Refusal := s.run xrefLoss

/-- HELD_BOUND: The first second of held operation ends (R31). -/
def execHeldBound (s : State) : Host.Outcome State Fault Refusal := s.run heldBound

/-- XREF_RETURNED: XREF has been back for RETURN_RND rounds (R32). -/
def execXrefReturned (s : State) : Host.Outcome State Fault Refusal := s.run xrefReturned

/-- XREF_BACK: CLK reaches lock again (R32). -/
def execXrefBack (s : State) : Host.Outcome State Fault Refusal := s.run xrefBack

/-- FRAME_EVENT: The next frame event, with the levels of the 16 GPI pins sampled at it (R34, R365). -/
def execFrameEvent (gpi : BitVec 16) (s : State) : Host.Outcome State Fault Refusal := s.run (frameTaken gpi.toNat)

/-- HEARTH_VOTE_FIX: Copy k of the Hearth is found holding x (R40). -/
def execHearthVoteFix (k : Fin 3) (x : HCopy) (s : State) : Host.Outcome State Fault Refusal :=
  s.run (hearthVoteFix k x)

/-- HEARTH_FAULT: The three copies of the Hearth are found all different (R40). -/
def execHearthFault (a : HCopy) (b : HCopy) (c : HCopy) (s : State) : Host.Outcome State Fault Refusal :=
  s.run (hearthFault a b c)

/-- HRT_RATE_WRITE: A write of HRT_RATE (R42). -/
def execHrtRateWrite (src : BusSrc) (v : Word) (s : State) : Host.Outcome State Fault Refusal :=
  s.run (softFrom src (rateWrite src v))

/-- ADJ_GO: A write of HRT_ADJ_CTRL with GO, its MODE and SLEW_PPM (R43). -/
def execAdjGo (src : BusSrc) (slew : Bool) (ppm : Fin 512) (s : State) : Host.Outcome State Fault Refusal :=
  s.run (softFrom src (adjGo src slew ppm))

/-- JUMP_APPLY: The pending jump is applied (R43). -/
def execJumpApply (s : State) : Host.Outcome State Fault Refusal := s.run jumpApply

/-- SLEW_APPLY: The pending slew starts (R43). -/
def execSlewApply (s : State) : Host.Outcome State Fault Refusal := s.run slewApply

/-- SLEW_DONE: The last CLK of a slew (R43). -/
def execSlewDone (s : State) : Host.Outcome State Fault Refusal := s.run slewDone

/-- LOAD: HRT_CTRL.LOAD is written 1 (R45). -/
def execLoad (s : State) : Host.Outcome State Fault Refusal := s.run (soft 0 loadReq)

/-- LOAD_APPLY: The pending load is written into the copies (R45). -/
def execLoadApply (s : State) : Host.Outcome State Fault Refusal := s.run loadApply

/-- FAULT_CLR: HRT_CTRL.FAULT_CLR is written 1 (R47). -/
def execFaultClr (s : State) : Host.Outcome State Fault Refusal := s.run (soft 0 faultClrWrite)

/-- SRC_WRITE: HRT_CTRL.SRC is written (R47, Table 2.5). -/
def execSrcWrite (new : Fin 4) (s : State) : Host.Outcome State Fault Refusal := s.run (soft 0 (sourceWrite new))

/-- HOST_LOCK_WRITE: HRT_CTRL.HOST_LOCK is written (R47). -/
def execHostLockWrite (b : Bool) (s : State) : Host.Outcome State Fault Refusal := s.run (soft 0 (hostLockWrite .pcie b))

/-- HOST_WDOG: HRT_HOST_WDOG frames without a rate or GO write (R47). -/
def execHostWdog (s : State) : Host.Outcome State Fault Refusal := s.run hostWdog

/-- HOLD_EXPIRED: HRT_HOLD_LIMIT frames in HOLDOVER (R47). -/
def execHoldExpired (s : State) : Host.Outcome State Fault Refusal := s.run holdExpired

/-- PPS_EDGE: An active PPS_IN edge at mote m of the frame (R48). -/
def execPpsEdge (m : Mote) (s : State) : Host.Outcome State Fault Refusal := s.run (ppsEdge m)

/-- PPS_MISS: MISS seconds without an edge (R47). -/
def execPpsMiss (s : State) : Host.Outcome State Fault Refusal := s.run ppsMiss

/-- PPS_OUT_END: The PPS_OUT width count expires (R49). -/
def execPpsOutEnd (s : State) : Host.Outcome State Fault Refusal := s.run ppsOutEnd

/-- FSYNC_OUT_END: The FSYNC_OUT width count expires (R50). -/
def execFsyncOutEnd (s : State) : Host.Outcome State Fault Refusal := s.run fsyncEnd

/-- SNAP_TAKE: HRT_SNAP_CTRL.TAKE is written at mote m (R52). -/
def execSnapTake (m : Mote) (s : State) : Host.Outcome State Fault Refusal :=
  s.run (fun d => soft 0 (snapTake 0) (atMote m d))

/-- HRT_NOW_READ: A read at mote m of the low half of a register pair (R53). -/
def execHrtNowRead (p : HrtPair) (m : Mote) (s : State) : Host.Outcome State Fault Refusal :=
  s.run (fun d => ifBooted (pairRead p 0) (atMote m d))

/-- MCLK_DEN_WRITE: A write of CLK_MCLK_A_DEN (b false) or CLK_MCLK_B_DEN (b true) (R29). -/
def execMclkDenWrite (src : BusSrc) (b : Bool) (den : Word) (s : State) : Host.Outcome State Fault Refusal :=
  s.run (softFrom src (mclkDen src b den.toNat))

end Sys2Proof.Machine
end

