-- ==== Sys2Proof/Machine/Compression.lean ====
section
/-!
DEFINITION. Machine/Compression.lean: the meanings of the commands of the compression engine (chapter 16).
-/

namespace Sys2Proof.Machine

/-- CMP_COMPRESS_STATIC: The engine takes the next job, of OP 0 (R336). -/
def execCmpCompressStatic (s : State) : Host.Outcome State Fault Refusal := s.run (cmpTake 0)

/-- CMP_COMPRESS_DYNAMIC: The engine takes the next job, of OP 1 (R336). -/
def execCmpCompressDynamic (s : State) : Host.Outcome State Fault Refusal := s.run (cmpTake 1)

/-- CMP_DECOMPRESS: The engine takes the next job, of OP 2 (R340). -/
def execCmpDecompress (s : State) : Host.Outcome State Fault Refusal := s.run (cmpTake 2)

/-- CMP_SAVE: The engine takes the next job, of OP 3 (R345). -/
def execCmpSave (s : State) : Host.Outcome State Fault Refusal := s.run (cmpTake 3)

/-- CMP_RESTORE: The engine takes the next job, of OP 4 (R345). -/
def execCmpRestore (s : State) : Host.Outcome State Fault Refusal := s.run (cmpTake 4)

/-- CMP_BLOCK_DONE: A block is done; upset: how often its encoding failed the proof (R338). -/
def execCmpBlockDone (upset : Fin 3) (s : State) : Host.Outcome State Fault Refusal := s.run (cmpBlockDone upset)

/-- CMP_JOB_END: A job ends (R341). -/
def execCmpJobEnd (s : State) : Host.Outcome State Fault Refusal := s.run cmpJobEnd

/-- CMP_JOB_STOP: A running job stops at a block boundary (R342). -/
def execCmpJobStop (s : State) : Host.Outcome State Fault Refusal := s.run cmpJobStop

/-- CMP_STOPPED: The engine reaches quiescence (R344). -/
def execCmpStopped (s : State) : Host.Outcome State Fault Refusal := s.run cmpStopped

end Sys2Proof.Machine
end

