-- ==== Sys2Proof/Machine/Field.lean ====
section
/-!
DEFINITION. Machine/Field.lean: the meanings of the commands of the field interfaces and the hold-up cell (chapter 17).
-/

namespace Sys2Proof.Machine

/-- GL_RESET: Guyline GO with OP RESET and the fields INCR, FN and LEN (R351). -/
def execGlReset (incr : Bool) (fn : Fin 256) (len : Fin 128) (s : State) : Host.Outcome State Fault Refusal :=
  s.run (soft 0 (glCommand 0 incr fn len))

/-- GL_SEARCH: Guyline GO with OP SEARCH and the fields INCR, FN and LEN (R354). -/
def execGlSearch (incr : Bool) (fn : Fin 256) (len : Fin 128) (s : State) : Host.Outcome State Fault Refusal :=
  s.run (soft 0 (glCommand 1 incr fn len))

/-- GL_READ: Guyline GO with OP READ and the fields INCR, FN and LEN (R349). -/
def execGlRead (incr : Bool) (fn : Fin 256) (len : Fin 128) (s : State) : Host.Outcome State Fault Refusal :=
  s.run (soft 0 (glCommand 2 incr fn len))

/-- GL_WRITE: Guyline GO with OP WRITE and the fields INCR, FN and LEN (R352). -/
def execGlWrite (incr : Bool) (fn : Fin 256) (len : Fin 128) (s : State) : Host.Outcome State Fault Refusal :=
  s.run (soft 0 (glCommand 3 incr fn len))

/-- GL_DONE: A Guyline transaction ends (R351). -/
def execGlDone (e : GlEnd) (s : State) : Host.Outcome State Fault Refusal := s.run (glDone e)

/-- GL_SEARCH_PASS: A search pass ends: presence, and the read-back bit pairs of its 96 positions (R354). -/
def execGlSearchPass (present : Bool) (subs : List (Bool × Bool)) (s : State) : Host.Outcome State Fault Refusal :=
  s.run (glSearchPass present subs)

/-- GL_BACKOFF_END: A Guyline backoff ends (R350). -/
def execGlBackoffEnd (s : State) : Host.Outcome State Fault Refusal := s.run glBackoffEnd

/-- GL_ATTACH: An attach pulse on the Guyline (R347, R353). -/
def execGlAttach (s : State) : Host.Outcome State Fault Refusal := s.run glAttach

/-- AUTO_SEARCH: The OX4 starts a search by itself (R353). -/
def execAutoSearch (s : State) : Host.Outcome State Fault Refusal := s.run autoSearch

/-- SAG_START: FLD_CELL_CTRL.SAG_START is written (R361). -/
def execSagStart (s : State) : Host.Outcome State Fault Refusal := s.run (soft 0 sagStart)

/-- SAG_AUTO_START: A due automatic sag test starts (R361). -/
def execSagAutoStart (s : State) : Host.Outcome State Fault Refusal := s.run sagAutoStart

/-- SAG_LOAD_ON: PREP ends (R361). -/
def execSagLoadOn (s : State) : Host.Outcome State Fault Refusal := s.run sagLoadOn

/-- SAG_LOAD_OFF: LOAD ends (R361). -/
def execSagLoadOff (s : State) : Host.Outcome State Fault Refusal := s.run sagLoadOff

/-- SAG_COMPUTE: RECOVER ends (R362). -/
def execSagCompute (s : State) : Host.Outcome State Fault Refusal := s.run sagCompute

/-- SAG_DONE: The life record is written (R361). -/
def execSagDone (s : State) : Host.Outcome State Fault Refusal := s.run sagDone

/-- SAG_ABORT: FLD_CELL_CTRL.SAG_ABORT is written (R361). -/
def execSagAbort (s : State) : Host.Outcome State Fault Refusal := s.run (soft 0 (sagAbortWith 7))

/-- SAG_CHECK: 512 fr of a test have passed (R363). -/
def execSagCheck (s : State) : Host.Outcome State Fault Refusal := s.run sagCheck

/-- EOL_CLR: FLD_CELL_CTRL.EOL_CLR is written (R360). -/
def execEolClr (s : State) : Host.Outcome State Fault Refusal := s.run (soft 0 eolClr)

/-- GPI_REMIND: REMIND_S seconds with input i active (R366). -/
def execGpiRemind (ix : Fin 16) (s : State) : Host.Outcome State Fault Refusal := s.run (gpiRemind ix)

/-- GPI_LATCH_CLEAR: A write of w to FLD_GPI_LATCH (R367). -/
def execGpiLatchClear (w : BitVec 16) (s : State) : Host.Outcome State Fault Refusal :=
  s.run (soft 0 (gpiLatchClear w.toNat))

/-- GPO_WRITE: FLD_GPO.OUT is written v (R368). -/
def execGpoWrite (v : BitVec 8) (s : State) : Host.Outcome State Fault Refusal :=
  s.run (softField 0 FLD_GPO.OUT v.toNat (gpoWrite v.toNat))

/-- SMB_SET_ADDR: SMBus command 0x01 (R370). -/
def execSmbSetAddr (pecOk : Bool) (a : Nat) (s : State) : Host.Outcome State Fault Refusal :=
  s.run (smbCommand pecOk (smbSetAddr a))

/-- SMB_REG_READ: SMBus command 0x02 (R370). -/
def execSmbRegRead (pecOk : Bool) (s : State) : Host.Outcome State Fault Refusal := s.run (smbCommand pecOk smbRegRead)

/-- SMB_REG_WRITE: SMBus command 0x03 (R370). -/
def execSmbRegWrite (pecOk : Bool) (v : Word) (s : State) : Host.Outcome State Fault Refusal :=
  s.run (smbCommand pecOk (smbRegWrite v.toNat))

/-- SMB_STATUS_READ: SMBus command 0x10 (R370). -/
def execSmbStatusRead (pecOk : Bool) (s : State) : Host.Outcome State Fault Refusal :=
  s.run (smbCommand pecOk smbStatusRead)

/-- SMB_COLD_RESET: SMBus command 0x20 (R370). -/
def execSmbColdReset (pecOk : Bool) (key : Byte) (s : State) : Host.Outcome State Fault Refusal :=
  s.run (smbCommand pecOk (smbKeyed key.toNat (resetReq .cold 3)))

/-- SMB_WARM_RESET: SMBus command 0x21 (R370). -/
def execSmbWarmReset (pecOk : Bool) (key : Byte) (s : State) : Host.Outcome State Fault Refusal :=
  s.run (smbCommand pecOk (smbKeyed key.toNat (resetReq .warm 5)))

/-- SMB_WAKE: SMBus command 0x22 (R370). -/
def execSmbWake (pecOk : Bool) (key : Byte) (s : State) : Host.Outcome State Fault Refusal :=
  s.run (smbCommand pecOk (smbKeyed key.toNat (wake 5)))

/-- SMB_CLOCK_LOW: The SMBus clock has been held low for 25 to 35 ms (R369). -/
def execSmbClockLow (s : State) : Host.Outcome State Fault Refusal := s.run smbClockLow

/-- MI2C_GO: A write of FLD_MI2Cm_CMD with GO (R371). -/
def execMi2cGo (port : Fin 2) (v : Word) (s : State) : Host.Outcome State Fault Refusal :=
  s.run (ifBooted (regWrite .pcie false (FLD_MI2Cm_CMD.addr port) (v.toNat ||| 1)))

/-- MI2C_DONE: A module I2C transaction ends (R371). -/
def execMi2cDone (port : Fin 2) (e : I2cEnd) (s : State) : Host.Outcome State Fault Refusal := s.run (mi2cDone port e)

/-- QSPI_GO: A write of FLD_QSPI_CMD with GO (R372). -/
def execQspiGo (v : Word) (s : State) : Host.Outcome State Fault Refusal :=
  s.run (ifBooted (regWrite .pcie false FLD_QSPI_CMD.addr (v.toNat ||| 1)))

/-- QSPI_DONE: A flash command completes (R372). -/
def execQspiDone (data : Bytes) (s : State) : Host.Outcome State Fault Refusal := s.run (qspiDone data)

/-- TAP_BYPASS: The TAP instruction BYPASS is loaded (R374). -/
def execTapBypass (s : State) : Host.Outcome State Fault Refusal := s.run (tapLoad .none)

/-- TAP_IDCODE: The TAP instruction IDCODE is loaded (R374). -/
def execTapIdcode (s : State) : Host.Outcome State Fault Refusal := s.run tapIdcode

/-- TAP_SAMPLE_PRELOAD: The TAP instruction SAMPLE/PRELOAD is loaded (R374). -/
def execTapSamplePreload (s : State) : Host.Outcome State Fault Refusal := s.run (tapLoad .none)

/-- TAP_EXTEST: The TAP instruction EXTEST is loaded (R374). -/
def execTapExtest (s : State) : Host.Outcome State Fault Refusal := s.run (tapLoad .boundary)

/-- TAP_CLAMP: The TAP instruction CLAMP is loaded (R374). -/
def execTapClamp (s : State) : Host.Outcome State Fault Refusal := s.run (tapLoad .boundary)

/-- TAP_HIGHZ: The TAP instruction HIGHZ is loaded (R374). -/
def execTapHighz (s : State) : Host.Outcome State Fault Refusal := s.run (tapLoad .highz)

end Sys2Proof.Machine
end

