-- ==== Sys2Proof/Machine/HostLink.lean ====
section
/-!
DEFINITION. Machine/HostLink.lean: the meanings of the commands of the host interface and the Kennel (chapter 5).
-/

namespace Sys2Proof.Machine

/-- PERST_ASSERT: PERST_N is asserted (R109). -/
def execPerstAssert (s : State) : Host.Outcome State Fault Refusal := s.run perstAssert

/-- PERST_RELEASE: PERST_N is released (R107). -/
def execPerstRelease (s : State) : Host.Outcome State Fault Refusal := s.run perstRelease

/-- REFOUT_READY: REFOUT has run for 8 fr (R107). -/
def execRefoutReady (s : State) : Host.Outcome State Fault Refusal := s.run refoutReady

/-- HIF_LINK_UP: The PCIe link comes up, with the partner's SPEED and WIDTH codes (R108). -/
def execHifLinkUp (speed : Fin 8) (width : Fin 8) (s : State) : Host.Outcome State Fault Refusal :=
  s.run (hifLinkUp speed width)

/-- HIF_LINK_DOWN: The PCIe link goes down (R109). -/
def execHifLinkDown (s : State) : Host.Outcome State Fault Refusal := s.run hifLinkDown

/-- HOT_RESET: A hot reset is received (R109). -/
def execHotReset (s : State) : Host.Outcome State Fault Refusal := s.run hotReset

/-- LINK_EN_CLEAR: HIF_CTRL.LINK_EN is written from 1 to 0 (R109). -/
def execLinkEnClear (s : State) : Host.Outcome State Fault Refusal :=
  s.run (softEdge 4 HIF_CTRL.LINK_EN false linkEnClear)

/-- CONFIG_REQUEST: A Configuration Request to function f (R88, R110). -/
def execConfigRequest (f : Fin 16) (q : CfgReq) (s : State) : Host.Outcome State Fault Refusal :=
  s.run (configTaken f q)

/-- FLR: Initiate Function Level Reset of function f (R118). -/
def execFlr (f : Fin 16) (s : State) : Host.Outcome State Fault Refusal := s.run (cfgGate f (fnReset f))

/-- VF_ENABLE: VF Enable is set, with NumVFs num (R123). -/
def execVfEnable (num : Fin 16) (s : State) : Host.Outcome State Fault Refusal := s.run (cfgGate 0 (vfEnable num))

/-- VF_ENABLE_CLEAR: VF Enable is cleared (R118). -/
def execVfEnableClear (s : State) : Host.Outcome State Fault Refusal := s.run (cfgGate 0 vfEnableClear)

/-- VF_HOLD_SET: The HIF_VF_HOLD bit of VF f is set (R118). -/
def execVfHoldSet (f : Fin 16) (s : State) : Host.Outcome State Fault Refusal := s.run (softHold f true (vfHoldSet f))

/-- VF_HOLD_CLEAR: The HIF_VF_HOLD bit of VF f is cleared (R123). -/
def execVfHoldClear (f : Fin 16) (s : State) : Host.Outcome State Fault Refusal :=
  s.run (softHold f false (vfHoldClear f))

/-- FN_ASSIGN: A write of HIF_FNf_QP, AUD or MISC (R114). -/
def execFnAssign (src : BusSrc) (f : Fin 16) (which : Fin 3) (x : Word) (s : State) :
    Host.Outcome State Fault Refusal :=
  s.run (softFrom src (regWrite src false (assignOff f which) x.toNat))

/-- KENNEL_DONE: The Kennel of function f ends (R120). -/
def execKennelDone (f : Fin 16) (m : Mote) (s : State) : Host.Outcome State Fault Refusal := s.run (kennelDone f m)

/-- COMPLETION: A read completion for a payload or an orphan (R121). -/
def execCompletion (tag : Nat) (data : Bytes) (s : State) : Host.Outcome State Fault Refusal :=
  s.run (queueing (completion tag data))

/-- CPL_TIMEOUT: The completion timeout of a read (R106). -/
def execCplTimeout (tag : Nat) (s : State) : Host.Outcome State Fault Refusal := s.run (cplTimeout tag)

/-- POISONED: A poisoned completion of a read (R106). -/
def execPoisoned (tag : Nat) (s : State) : Host.Outcome State Fault Refusal := s.run (cplPoisoned tag)

/-- INT_MASK_WRITE: A write of INT_FN0_MASK (f = 0) or of VF_INT_MASK (R116). -/
def execIntMaskWrite (f : Fin 16) (x : BitVec 21) (s : State) : Host.Outcome State Fault Refusal :=
  s.run (ifBooted (maskWrite f x.toNat))

/-- DSTATE_CHANGE: Function f moves to D3hot or to D0 (R125). -/
def execDstateChange (f : Fin 16) (d3 : Bool) (s : State) : Host.Outcome State Fault Refusal :=
  s.run (dstateTaken f d3)

/-- UNSUPPORTED_REQUEST: A request to the aperture of VF f while its Memory Space Enable is 0 (R112). -/
def execUnsupportedRequest (f : Fin 16) (s : State) : Host.Outcome State Fault Refusal := s.run (unsupportedRequest f)

end Sys2Proof.Machine
end

