-- ==== Sys2Proof/Machine/LeashPair.lean ====
section
/-!
DEFINITION. Machine/LeashPair.lean: the meanings of the commands of the Leash (chapter 13).
-/

namespace Sys2Proof.Machine

/-- MIRROR_SEND: The first idle position of the Leash lane with a mirror frame due (R278). -/
def execMirrorSend (s : State) : Host.Outcome State Fault Refusal := s.run mirrorSend

/-- MIRROR_RECEIVE: A mirror frame is received (R277). -/
def execMirrorReceive (symOk : Bool) (data : Bytes) (m : Mote) (s : State) : Host.Outcome State Fault Refusal :=
  s.run (mirrorReceive m symOk data)

/-- LANE_UP: The mirror lane is up (R276). -/
def execLaneUp (s : State) : Host.Outcome State Fault Refusal := s.run laneUp

/-- LANE_DOWN: The mirror lane is down (R276). -/
def execLaneDown (s : State) : Host.Outcome State Fault Refusal := s.run laneDown

/-- LEASH_ELIGIBLE: The device becomes eligible (R284). -/
def execLeashEligible (s : State) : Host.Outcome State Fault Refusal := s.run leashEligible

/-- LEASH_INELIGIBLE: The device ceases to be eligible (R288). -/
def execLeashIneligible (s : State) : Host.Outcome State Fault Refusal := s.run leashIneligible

/-- LEASH_TAKE: Two frame events in CLAIMING without a yield (R291). -/
def execLeashTake (s : State) : Host.Outcome State Fault Refusal := s.run leashTake

/-- LEASE_EXPIRY: The lease expires at mote m (R286). -/
def execLeaseExpiry (m : Mote) (s : State) : Host.Outcome State Fault Refusal := s.run (leaseExpiry m)

/-- LEASH_RELEASE: LSH_CTRL.RELEASE is written 1 (R292). -/
def execLeashRelease (s : State) : Host.Outcome State Fault Refusal := s.run (soft 0 leashReleaseWrite)

/-- HOLD_IN_CHANGE: LSH_HOLD_IN changes to level b (R290). -/
def execHoldInChange (b : Bool) (s : State) : Host.Outcome State Fault Refusal := s.run (holdInChange b)

/-- BACKOFF_END: A Leash backoff expires (R290). -/
def execBackoffEnd (s : State) : Host.Outcome State Fault Refusal := s.run backoffEnd

/-- LINE_FAULT: The lease line disagrees with the mirror lane for GUARD_FR frames (R293). -/
def execLineFault (s : State) : Host.Outcome State Fault Refusal := s.run lineFault

/-- WAKE_LEASE: LSH_HOLD_IN has stayed low for GUARD_FR frames in Bivouac (R295). -/
def execWakeLease (s : State) : Host.Outcome State Fault Refusal := s.run wakeLease

end Sys2Proof.Machine
end

