-- ==== Sys2Proof/Machine/Lifeline.lean ====
section
/-!
DEFINITION. Machine/Lifeline.lean: the meanings of the commands of the lifeline bridge (chapter 15).
-/

namespace Sys2Proof.Machine

/-- LLB_CHANNEL_START: Lifeline channel c, or the event template (16), is checked on STARTING (R321). -/
def execLlbChannelStart (c : Fin 17) (s : State) : Host.Outcome State Fault Refusal := s.run fun d => llbStart (d.frame % 16 == 0) c d

/-- LLB_PACKET_DUE: The packet of channel c is due (R323). -/
def execLlbPacketDue (c : Fin 16) (s : State) : Host.Outcome State Fault Refusal := s.run (queueing (llbPacketDue c))

/-- LLB_TX_DROP: A media packet of channel who, or an event frame (16), has not begun in time (R325). -/
def execLlbTxDrop (who : Fin 17) (s : State) : Host.Outcome State Fault Refusal := s.run (llbTxDrop who)

/-- LLB_RX_PACKET: A CH0 frame that matches channel c (R326). -/
def execLlbRxPacket (c : Fin 16) (data : Bytes) (s : State) : Host.Outcome State Fault Refusal :=
  s.run (llbReceived c data)

/-- RX_SILENT: SILENT_RND rounds without a good packet (R328). -/
def execRxSilent (c : Fin 16) (s : State) : Host.Outcome State Fault Refusal := s.run (llbSilent c)

/-- EV_COPY_DUE: An event frame copy is due (R330). -/
def execEvCopyDue (s : State) : Host.Outcome State Fault Refusal := s.run evCopyDue

/-- LLB_STOPPED: A stopping lifeline channel or template reaches quiescence (R331). -/
def execLlbStopped (c : Fin 17) (s : State) : Host.Outcome State Fault Refusal := s.run (llbStopped c)

end Sys2Proof.Machine
end

