-- ==== Sys2Proof/Machine/Lines.lean ====
section
/-!
DEFINITION. Machine/Lines.lean: the meanings of the commands of lane, fault and wire-frame events (R157, R158, R269, R270, R300, R380, R382).
-/

namespace Sys2Proof.Machine

/-- PEG_LANE_SYNC_LOST: Pegline chain lane A or B loses 8b/10b sync (R270). -/
def execPegLaneSyncLost (chB : Bool) (s : State) : Host.Outcome State Fault Refusal := s.run (laneLost chB)

/-- PEG_LANE_SYNC_GAINED: Pegline chain lane A or B gains 8b/10b sync (R269). -/
def execPegLaneSyncGained (chB : Bool) (s : State) : Host.Outcome State Fault Refusal := s.run (laneGained chB)

/-- REMOTE_FAULT_RECEIVED: Remote-fault ordered sets begin to arrive (R158). -/
def execRemoteFaultReceived (n : Fin 4) (s : State) : Host.Outcome State Fault Refusal := s.run (remoteFault n)

/-- REMOTE_FAULT_CLEARED: Remote-fault ordered sets stop arriving (R158). -/
def execRemoteFaultCleared (n : Fin 4) (s : State) : Host.Outcome State Fault Refusal := s.run (remoteClear n)

/-- LOS_CHANGE: LOSn changes to level b (R157). -/
def execLosChange (n : Fin 4) (b : Bool) (s : State) : Host.Outcome State Fault Refusal := s.run (losChange n b)

/-- LANE_UNLOCK: The synthesiser of uplink lane n loses lock at mote m (R380). -/
def execLaneUnlock (n : Fin 4) (m : Mote) (s : State) : Host.Outcome State Fault Refusal := s.run (laneUnlock n m)

/-- LANE_RELOCK: The synthesiser of uplink lane n regains lock (R382). -/
def execLaneRelock (n : Fin 4) (s : State) : Host.Outcome State Fault Refusal := s.run (laneRelock n)

/-- SAP_WIRE_FRAME: A port frame passes on the wire (R300). -/
def execSapWireFrame (p : Fin 8) (w : SapWire) (s : State) : Host.Outcome State Fault Refusal :=
  s.run (sapWireFrame p w)

end Sys2Proof.Machine
end

