-- ==== Sys2Proof/Machine/PacketMemory.lean ====
section
/-!
DEFINITION. Machine/PacketMemory.lean: the meanings of the commands of packet memory and admission (chapter 10).
-/

namespace Sys2Proof.Machine

/-- REFRESH_FORCED: Owed refreshes of a bank paid, then slots taken; at 8 owed one is forced (R219). -/
def execRefreshForced (x : Refresh) (s : State) : Host.Outcome State Fault Refusal :=
  s.run (refreshForced x.bank x.paid x.taken)

/-- SCRUB_CELL_DUE: A scrub cell falls due (R220). -/
def execScrubCellDue (x : ScrubRead) (m : Mote) (s : State) : Host.Outcome State Fault Refusal :=
  s.run (scrubCell x.ups x.idle m)

/-- ADMISSION_CHECK: PMC_CTRL.CHECK is written, with CHECK_CH; a reserved value of it is refused (R5, R222). -/
def execAdmissionCheck (ch : Fin 8) (s : State) : Host.Outcome State Fault Refusal :=
  s.run (soft 2 (fun d => if 4 < ch.val then badWr .pcie PMC_CTRL.addr d else admissionCheck ch (d.slotCosts d.peg.oper) d))

/-- RECAL_FORCED: 8,000 fr have passed without a recalibration of a lane: 0 to 3 uplinks, 4 and 5 Pegline chain A and
B, 6 Leash (R230). -/
def execRecalForced (lane : Fin 7) (m : Mote) (s : State) : Host.Outcome State Fault Refusal :=
  s.run (recalForced lane m)

end Sys2Proof.Machine
end

