-- ==== Sys2Proof/Machine/Pegline.lean ====
section
/-!
DEFINITION. Machine/Pegline.lean: the meanings of the commands of Pegline (chapters 11 and 12).
-/

namespace Sys2Proof.Machine

/-- PEG_SLOT_START: Slot s begins (R236). -/
def execPegSlotStart (slot : Fin 64) (s : State) : Host.Outcome State Fault Refusal := s.run (slotBegin slot)

/-- PEG_SLOT_RECEIVE: A copy of a slot frame arrives on channel A or B at era-extended time t (R241). -/
def execPegSlotReceive (chB : Bool) (t : Int) (symOk : Bool) (data : Bytes) (s : State) :
    Host.Outcome State Fault Refusal :=
  s.run (queueing (slotReceive chB t symOk data))

/-- PEG_SLOT_MISS: An expected slot ends with no good copy (R242). -/
def execPegSlotMiss (slot : Fin 64) (s : State) : Host.Outcome State Fault Refusal := s.run (slotMiss slot)

/-- MSG_DELIVER: A whole message of node n waits for its ring (R252). -/
def execMsgDeliver (n : Fin 32) (s : State) : Host.Outcome State Fault Refusal := s.run (msgDeliver n)

/-- MSG_ACK_TIMEOUT: ACK_RND rounds without an acknowledgment from node dest (R250). -/
def execMsgAckTimeout (dest : Fin 32) (s : State) : Host.Outcome State Fault Refusal := s.run (msgAckTimeout dest)

/-- PEG_SCHED_COMMIT: PEG_SCHED_CTRL.COMMIT is written (R244). -/
def execPegSchedCommit (s : State) : Host.Outcome State Fault Refusal := s.run (soft 1 schedCommit)

/-- PEG_SCHED_CANCEL: PEG_SCHED_CTRL.CANCEL is written (R244). -/
def execPegSchedCancel (s : State) : Host.Outcome State Fault Refusal := s.run (soft 1 schedCancel)

/-- PEG_SCHED_SWAP: The swap time of a schedule bank arrives (R245). -/
def execPegSchedSwap (s : State) : Host.Outcome State Fault Refusal := s.run schedSwap

/-- SPARE_CLAIM: PEG_SPARE_CTRL.CLAIM is written with SLOT s (R254). -/
def execSpareClaim (slot : Fin 64) (s : State) : Host.Outcome State Fault Refusal := s.run (soft 1 (spareClaim slot))

/-- CLAIM_BACKOFF_END: A claim backoff ends (R254). -/
def execClaimBackoffEnd (s : State) : Host.Outcome State Fault Refusal := s.run claimBackoffEnd

/-- SPARE_RELEASE: PEG_SPARE_CTRL.RELEASE is written with SLOT s (R254). -/
def execSpareRelease (slot : Fin 64) (s : State) : Host.Outcome State Fault Refusal :=
  s.run (soft 1 (spareRelease slot))

/-- SPARE_LAPSE: A spare slot has carried no good frame for 32 rounds (R255). -/
def execSpareLapse (slot : Fin 64) (s : State) : Host.Outcome State Fault Refusal := s.run (spareLapse slot)

/-- PEG_ON: Pegline passes from STARTING to ON (R256). -/
def execPegOn (s : State) : Host.Outcome State Fault Refusal := s.run pegOn

/-- PEG_STOPPED: Pegline reaches quiescence (R256). -/
def execPegStopped (s : State) : Host.Outcome State Fault Refusal := s.run pegStopped

/-- LISTEN_TIMEOUT: The listen timer expires (R262). -/
def execListenTimeout (s : State) : Host.Outcome State Fault Refusal := s.run listenTimeout

/-- COLDSTART_TIMEOUT: No response to 16 cold-start frames (R261). -/
def execColdstartTimeout (s : State) : Host.Outcome State Fault Refusal := s.run coldstartTimeout

/-- SYNC_ROUND_COMPUTE: The end of slot 63 (R267), a copy of which may still be held (R241). -/
def execSyncRoundCompute (s : State) : Host.Outcome State Fault Refusal :=
  s.run fun d => syncRoundCompute (if d.pst = 3 ∧ d.peg.active then useHeldB d else d)

/-- PROBE_RECEIVE: A probe is received on port p at mote m; turn: the turnaround time of the echo (R269). -/
def execProbeReceive (p : Fin 2) (seq : Nat) (turn : Nat) (m : Mote) (s : State) : Host.Outcome State Fault Refusal :=
  s.run (probeReceive p seq m turn)

/-- ECHO_RECEIVE: An echo is received on port p (R270). -/
def execEchoReceive (p : Fin 2) (seq : Nat) (down : Option (Nat × Nat)) (turn : Nat) (m : Mote) (s : State) :
    Host.Outcome State Fault Refusal :=
  s.run (echoReceive p seq down turn m)

/-- RING_BREAK: A ring break is seen (R272). -/
def execRingBreak (s : State) : Host.Outcome State Fault Refusal := s.run ringBreak

/-- RING_HEAL: The ring is whole again (R272). -/
def execRingHeal (s : State) : Host.Outcome State Fault Refusal := s.run ringHeal

end Sys2Proof.Machine
end

