-- ==== Sys2Proof/Machine/Rations.lean ====
section
/-!
DEFINITION. Machine/Rations.lean: the meanings of the commands of rations, tiers and Bivouac (chapter 3).
-/

namespace Sys2Proof.Machine

/-- ADC_CONVERSION: Conversion k of the frame gives this code, or the sag conversion that follows it (R55, R231, Table
3.1). -/
def execAdcConversion (k : Fin 8) (sag : Bool) (code : Int) (s : State) : Host.Outcome State Fault Refusal :=
  s.run (if sag then sagConv k code.toNat else adcConv k code)

/-- FEED_LOSS: LOSS_N samples below LOSS at mote m (R65). -/
def execFeedLoss (m : Mote) (s : State) : Host.Outcome State Fault Refusal := s.run (feedLoss m)

/-- GASP_COPY_DUE: A dying-gasp copy falls due (R67). -/
def execGaspCopyDue (m : Mote) (s : State) : Host.Outcome State Fault Refusal := s.run (gaspCopyDue m)

/-- GASP_SENT: The first dying-gasp copy completes (R67). -/
def execGaspSent (s : State) : Host.Outcome State Fault Refusal := s.run gaspSent

/-- REFOUT_STOP: REF_HOLD_FR frames after HOST_PWR_EN fell (R72). -/
def execRefoutStop (s : State) : Host.Outcome State Fault Refusal := s.run refStop

/-- REFOUT_START: REF_DELAY_FR frames after HOST_PWR_EN rose (R72). -/
def execRefoutStart (s : State) : Host.Outcome State Fault Refusal := s.run refStart

/-- BIV_REQ: RAT_CTRL.BIV_REQ is written 1 (R74). -/
def execBivReq (s : State) : Host.Outcome State Fault Refusal := s.run (soft 0 bivReq)

/-- BIV_TIMER_WRITE: RAT_BIV_TIMER_HI is written (R74). -/
def execBivTimerWrite (hi : Word) (s : State) : Host.Outcome State Fault Refusal :=
  s.run (soft 0 (bivTimerWrite hi.toNat))

/-- WAKE_TIMER: The Hearth reaches RAT_BIV_TIMER at mote m (R74). -/
def execWakeTimer (m : Mote) (s : State) : Host.Outcome State Fault Refusal := s.run (wakeTimer m)

/-- WAKE_RESTORE_APPLY: The restore to LIFELINE is applied (R75). -/
def execWakeRestoreApply (s : State) : Host.Outcome State Fault Refusal := s.run restoreApply

/-- RET_DATA_READ: A read of RAT_RET_DATA (R68). -/
def execRetDataRead (s : State) : Host.Outcome State Fault Refusal := s.run (ifBooted retRead)

/-- RET_DATA_WRITE: A write of RAT_RET_DATA (R68). -/
def execRetDataWrite (src : BusSrc) (v : Word) (s : State) : Host.Outcome State Fault Refusal :=
  s.run (softFrom src (retWrite src v))

end Sys2Proof.Machine
end

