-- ==== Sys2Proof/Machine/Registers.lean ====
section
/-!
DEFINITION. Machine/Registers.lean: the meanings of the commands of register accesses (R3 to R6, R392 to R394).
-/

namespace Sys2Proof.Machine

/-- REGISTER_WRITE: A write of v at byte offset off of an address space; narrow: not a single aligned 32-bit write
(R3, R5, R394). -/
def execRegisterWrite (sp : Space) (narrow : Bool) (off : Nat) (v : Word) (s : State) :
    Host.Outcome State Fault Refusal :=
  s.run (busWrite sp narrow off v.toNat)

/-- RCLR_READ: A read at byte offset off, an RCLR read among them (R3, R6, R394). -/
def execRclrRead (sp : Space) (narrow : Bool) (off : Nat) (s : State) : Host.Outcome State Fault Refusal :=
  s.run (busRead sp narrow off)

end Sys2Proof.Machine
end

