-- ==== Sys2Proof/Machine/Reset.lean ====
section
/-!
DEFINITION. Machine/Reset.lean: the meanings of the commands of reset and boot (chapter 4).
-/

namespace Sys2Proof.Machine

/-- POWER_ON_RESET: VDD_AON fails or POR_N is low (R76). -/
def execPowerOnReset (s : State) : Host.Outcome State Fault Refusal := s.run porAssert

/-- POR_END: VDD_AON good for 1 ms with POR_N high (R82). -/
def execPorEnd (s : State) : Host.Outcome State Fault Refusal := s.run porEnd

/-- OTP_DONE: OTP has been read: its tag key if one is fused, and whether tags are required (R84, R94). -/
def execOtpDone (key : Option Bytes) (requireTag : Bool) (s : State) : Host.Outcome State Fault Refusal :=
  s.run (otpDone key requireTag)

/-- PLL_LOCK: The PLL locks (R82). -/
def execPllLock (s : State) : Host.Outcome State Fault Refusal := s.run pllLock

/-- SYS_RESET_N: SYS_RESET_N has been low for 1 us (R76). -/
def execSysResetN (s : State) : Host.Outcome State Fault Refusal := s.run sysReset

/-- SYS_RESET_RELEASE: SYS_RESET_N rises (R77). -/
def execSysResetRelease (s : State) : Host.Outcome State Fault Refusal := s.run sysRelease

/-- COLD: RST_CTRL.COLD is written with the key (R77). -/
def execCold (s : State) : Host.Outcome State Fault Refusal := s.run (soft 0 (resetReq .cold 2))

/-- WARM: RST_CTRL.WARM is written with the key (R77). -/
def execWarm (s : State) : Host.Outcome State Fault Refusal := s.run (soft 0 (resetReq .warm 4))

/-- COLD_RESET_END: The 1 fr of a cold reset ends (R76). -/
def execColdResetEnd (s : State) : Host.Outcome State Fault Refusal := s.run coldResetEnd

/-- WARM_END: The 1 fr of a warm reset ends (R84). -/
def execWarmEnd (s : State) : Host.Outcome State Fault Refusal := s.run warmEnd

/-- RAIL_GOOD: The rails of domain k pass their monitors (R83). -/
def execRailGood (k : Fin 7) (s : State) : Host.Outcome State Fault Refusal := s.run (railGood k)

/-- POWER_UP_STEP: The next timed step of POWER_UP (R85). -/
def execPowerUpStep (s : State) : Host.Outcome State Fault Refusal := s.run powerUpStep

/-- PMEM_INIT_DONE: PMEM initialisation completes (R85). -/
def execPmemInitDone (s : State) : Host.Outcome State Fault Refusal := s.run pmemInitDone

/-- FIND_DONE: Both slot headers and the calibration page have been read (R96). -/
def execFindDone (slotA : Bytes) (slotB : Bytes) (cal : Bytes) (s : State) : Host.Outcome State Fault Refusal :=
  s.run (findDone slotA slotB cal)

/-- VERIFY_DONE: A candidate slot has been streamed (R95). -/
def execVerifyDone (image : Bytes) (s : State) : Host.Outcome State Fault Refusal := s.run (verifyDone image)

/-- APPLY_DONE: The calibration page and the records have been applied (R97). -/
def execApplyDone (s : State) : Host.Outcome State Fault Refusal := s.run applyDone

/-- ADMIT_DONE: The boot admission sum completes (R98). -/
def execAdmitDone (s : State) : Host.Outcome State Fault Refusal := s.run admitDone

/-- DEFAULTS_DONE: ROM defaults are loaded (R101). -/
def execDefaultsDone (s : State) : Host.Outcome State Fault Refusal := s.run defaultsDone

/-- BOOT_DONE: The frame event after ADMIT or DEFAULTS (R89). -/
def execBootDone (s : State) : Host.Outcome State Fault Refusal := s.run bootDone

/-- RELEASE: RST_CTRL.RELEASE is written 1 (R102). -/
def execRelease (s : State) : Host.Outcome State Fault Refusal := s.run (soft 0 release)

/-- HOLD_EXIT: The frame event after RELEASE (R102). -/
def execHoldExit (s : State) : Host.Outcome State Fault Refusal := s.run holdExit

end Sys2Proof.Machine
end

