-- ==== Sys2Proof/Machine/Rings.lean ====
section
/-!
DEFINITION. Machine/Rings.lean: the meanings of the commands of descriptor rings, the mailbox and peripheral requests (chapter 6).
-/

namespace Sys2Proof.Machine

/-- DOORBELL: A doorbell write of x to slot s of function f (R127). -/
def execDoorbell (f : Fin 16) (slot : Fin 417) (x : Word) (s : State) : Host.Outcome State Fault Refusal :=
  s.run (ifBooted (doorbell f slot x.toNat))

/-- MBX_BASE_LO: A MBX_BASE_LO doorbell of function f (R128). -/
def execMbxBaseLo (f : Fin 16) (x : BitVec 30) (s : State) : Host.Outcome State Fault Refusal :=
  s.run (ifBooted (onMailbox f (mbxBaseLo f (2 ^ 30 + x.toNat))))

/-- MBX_BASE_HI: A MBX_BASE_HI doorbell of function f (R128). -/
def execMbxBaseHi (f : Fin 16) (x : BitVec 30) (s : State) : Host.Outcome State Fault Refusal :=
  s.run (ifBooted (onMailbox f (mbxBaseHi f (2 ^ 31 + x.toNat))))

/-- MBX_RESET: A MBX_RESET doorbell of function f (R128). -/
def execMbxReset (f : Fin 16) (x : BitVec 30) (s : State) : Host.Outcome State Fault Refusal :=
  s.run (ifBooted (onMailbox f (mbxReset f (2 ^ 31 + 2 ^ 30 + x.toNat))))

/-- DESC_FETCH: A descriptor read returns (R130). -/
def execDescFetch (tag : Nat) (data : Bytes) (s : State) : Host.Outcome State Fault Refusal :=
  s.run (descFetch tag data)

/-- FETCH_FAIL: A descriptor fetch fails (R131). -/
def execFetchFail (tag : Nat) (timedOut : Bool) (s : State) : Host.Outcome State Fault Refusal :=
  s.run (fetchFail tag timedOut)

/-- TAG_WAIT_END: A descriptor tag frees for a waiting ring (R132). -/
def execTagWaitEnd (ring : Fin 432) (s : State) : Host.Outcome State Fault Refusal := s.run (tagWaitEnd ring)

/-- COAL_EXPIRY: A coalescing gap ends (R135). -/
def execCoalExpiry (ring : Fin 432) (m : Mote) (s : State) : Host.Outcome State Fault Refusal :=
  s.run (coalExpiry ring m)

/-- LAUNCH_DUE: A launch time arrives at mote m (R138). -/
def execLaunchDue (m : Mote) (s : State) : Host.Outcome State Fault Refusal := s.run (launchDue m)

/-- STALL_EXPIRY: A frame has waited for STALL_BUDGET (R141). -/
def execStallExpiry (ring : Fin 432) (m : Mote) (s : State) : Host.Outcome State Fault Refusal :=
  s.run (stallDue ring m)

/-- AUDIO_HALF_POINT: An audio buffer reaches its half point (R144). -/
def execAudioHalfPoint (ring : Fin 432) (s : State) : Host.Outcome State Fault Refusal := s.run (audHalfPoint ring)

/-- AUDIO_FULL_POINT: An audio buffer reaches its full point (R144). -/
def execAudioFullPoint (ring : Fin 432) (s : State) : Host.Outcome State Fault Refusal := s.run (audFullPoint ring)

/-- NOP: The next mailbox descriptor of function f, with command NOP, or a code that the mailbox does not know, is
executed (R149). -/
def execNop (f : Fin 16) (s : State) : Host.Outcome State Fault Refusal := s.run (mailbox 0 f)

/-- RING_SETUP: The next mailbox descriptor of function f, with command RING_SETUP, is executed (R149). -/
def execRingSetup (f : Fin 16) (s : State) : Host.Outcome State Fault Refusal := s.run (mailbox 1 f)

/-- RING_ENABLE: The next mailbox descriptor of function f, with command RING_ENABLE, is executed (R149). -/
def execRingEnable (f : Fin 16) (s : State) : Host.Outcome State Fault Refusal := s.run (mailbox 2 f)

/-- RING_DISABLE: The next mailbox descriptor of function f, with command RING_DISABLE, is executed (R149). -/
def execRingDisable (f : Fin 16) (s : State) : Host.Outcome State Fault Refusal := s.run (mailbox 3 f)

/-- RING_QUERY: The next mailbox descriptor of function f, with command RING_QUERY, is executed (R149). -/
def execRingQuery (f : Fin 16) (s : State) : Host.Outcome State Fault Refusal := s.run (mailbox 4 f)

/-- TIME: The next mailbox descriptor of function f, with command TIME, is executed (R149). -/
def execTime (f : Fin 16) (s : State) : Host.Outcome State Fault Refusal := s.run (mailbox 5 f)

/-- RESOURCES: The next mailbox descriptor of function f, with command RESOURCES, is executed (R149). -/
def execResources (f : Fin 16) (s : State) : Host.Outcome State Fault Refusal := s.run (mailbox 6 f)

/-- RING_QUIESCENCE: A stopping ring has returned every begun descriptor (R150). -/
def execRingQuiescence (ring : Fin 432) (s : State) : Host.Outcome State Fault Refusal := s.run (ringQuiescence ring)

/-- PRQ_REQUEST: A request on a PRQ line for one burst of a ring (R151). -/
def execPrqRequest (line : Fin 16) (ring : Fin 432) (m : Mote) (s : State) : Host.Outcome State Fault Refusal :=
  s.run (prqRequest line ring m)

/-- PRQ_MAP_APPLY: A written DMA_PRQ_MAPk takes effect (R152). -/
def execPrqMapApply (line : Fin 16) (s : State) : Host.Outcome State Fault Refusal := s.run (prqMapApply line)

/-- RING_SEL_WRITE: DMA_RING_SEL is written (R126). -/
def execRingSelWrite (ring : Fin 432) (s : State) : Host.Outcome State Fault Refusal :=
  s.run (softField 1 DMA_RING_SEL.RING ring (ringSelWrite ring))

end Sys2Proof.Machine
end

