-- ==== Sys2Proof/Machine/Schedules.lean ====
section
/-!
DEFINITION. Machine/Schedules.lean: the meanings of the commands of classification, gate schedules and the FRE (chapters 8 and 9).
-/

namespace Sys2Proof.Machine

/-- CLS_ENTRY_WRITE: A write of word k of classifier entry i (R182). -/
def execClsEntryWrite (masked : Bool) (ix : Fin 4096) (k : Fin 16) (x : Word) (s : State) :
    Host.Outcome State Fault Refusal :=
  s.run (soft 1 (clsEntryWrite masked ix k x.toNat))

/-- CLS_COMMIT: A write of the CTRL word of classifier entry i (R182). -/
def execClsCommit (masked : Bool) (ix : Fin 4096) (ctrl : Word) (s : State) : Host.Outcome State Fault Refusal :=
  s.run (soft 1 (fun d => clsCommit d.flowOk masked ix ctrl.toNat d))

/-- GATE_ENTRY_START: The Hearth reaches the start of a gate-list entry (R190). -/
def execGateEntryStart (n : Fin 4) (m : Mote) (s : State) : Host.Outcome State Fault Refusal :=
  s.run (gateEntryStart n m)

/-- CAL_RECAL_START: Recalibration begins in a CAL window (R192). -/
def execCalRecalStart (n : Fin 4) (m : Mote) (s : State) : Host.Outcome State Fault Refusal := s.run (calStart n m)

/-- CAL_RECAL_END: A lane recalibration completes (R192). -/
def execCalRecalEnd (n : Fin 4) (s : State) : Host.Outcome State Fault Refusal := s.run (calEnd n)

/-- GATE_COMMIT: CHn_GATE_CTRL.COMMIT is written (R195). -/
def execGateCommit (n : Fin 4) (s : State) : Host.Outcome State Fault Refusal :=
  s.run (soft 1 (fun d => gateCommit n (d.slotCosts d.peg.oper) d))

/-- GATE_CANCEL: CHn_GATE_CTRL.CANCEL is written (R194). -/
def execGateCancel (n : Fin 4) (s : State) : Host.Outcome State Fault Refusal := s.run (soft 1 (gateCancel n))

/-- GATE_LIST_START: The start time of an ARMED engine arrives (R194). -/
def execGateListStart (n : Fin 4) (m : Mote) (s : State) : Host.Outcome State Fault Refusal := s.run (gateListStart n m)

/-- GATE_SWAP: The swap time arrives (R196). -/
def execGateSwap (n : Fin 4) (m : Mote) (s : State) : Host.Outcome State Fault Refusal := s.run (gateSwap n m)

/-- GATE_DISABLE: CHn_GATE_CTRL.EN is written 0 (R194). -/
def execGateDisable (n : Fin 4) (s : State) : Host.Outcome State Fault Refusal :=
  s.run (softBit 1 (CHn_GATE_CTRL.EN n) false (gateDisable n))

/-- GATE_VOTE_FIX: Copy k of a gate engine is found with another output word (R198). -/
def execGateVoteFix (n : Fin 4) (k : Fin 3) (w : GateWord) (s : State) : Host.Outcome State Fault Refusal :=
  s.run (inDomain 1 (gateVoteFix n k w))

/-- GATE_NOMAJ: The three copies of a gate engine all differ (R198). -/
def execGateNomaj (n : Fin 4) (s : State) : Host.Outcome State Fault Refusal := s.run (gateNoMaj n)

/-- FRE_ENTRY_WRITE: A write of word k of stream entry s (R211). -/
def execFreEntryWrite (src : BusSrc) (st : Fin 1024) (k : Fin 7) (x : Word) (s : State) :
    Host.Outcome State Fault Refusal :=
  s.run (softFrom src (action 1 (freEntryWrite src st k x.toNat)))

/-- FRE_COMMIT: A write of word 7 of stream entry s (R211). -/
def execFreCommit (st : Fin 1024) (ctrl : Word) (s : State) : Host.Outcome State Fault Refusal :=
  s.run (soft 1 (freCommit st ctrl.toNat))

/-- RECOV_RESET: RESET_FR frame events without a passed frame (R208). -/
def execRecovReset (st : Fin 1024) (s : State) : Host.Outcome State Fault Refusal := s.run (recovTimeout st)

/-- LATENT_CHECK: The latent-error check of the recovering streams (R209). -/
def execLatentCheck (s : State) : Host.Outcome State Fault Refusal := s.run latentCheck

end Sys2Proof.Machine
end

