-- ==== Sys2Proof/Machine/Sheepdog.lean ====
section
/-!
DEFINITION. Machine/Sheepdog.lean: the meanings of the commands of the Sheepdog (chapter 18).
-/

namespace Sys2Proof.Machine

/-- BUCKET_DECAY: DECAY_SF superframes have passed (R378). -/
def execBucketDecay (s : State) : Host.Outcome State Fault Refusal := s.run bucketDecay

/-- TABLE_PARITY_ERROR: The table word at offset off fails parity (R387). -/
def execTableParityError (off : Nat) (s : State) : Host.Outcome State Fault Refusal := s.run (tableParity off)

/-- LOOPBACK_START: LB_SF superframes have passed (R377). -/
def execLoopbackStart (s : State) : Host.Outcome State Fault Refusal := s.run loopStart

/-- LOOPBACK_END: A loopback test ends with the RESULT code res (R377). -/
def execLoopbackEnd (res : Fin 4) (s : State) : Host.Outcome State Fault Refusal := s.run (loopEnd res)

/-- LANE_FENCE_TIMEOUT: A lane has stayed unlocked for 8 fr (R380). -/
def execLaneFenceTimeout (n : Fin 4) (m : Mote) (s : State) : Host.Outcome State Fault Refusal := s.run (laneFence n m)

/-- FENCE: SHD_FENCE_CTRL.FENCE is written for channel n (R380). -/
def execFence (n : Fin 4) (s : State) : Host.Outcome State Fault Refusal := s.run (soft 1 (fence n 5))

/-- FENCE_COMPLETE: The wire and queues of a fencing channel are clear (R380). -/
def execFenceComplete (n : Fin 4) (s : State) : Host.Outcome State Fault Refusal := s.run (fenceComplete n)

/-- LIFT: SHD_FENCE_CTRL.LIFT is written for channel n (R382). -/
def execLift (n : Fin 4) (s : State) : Host.Outcome State Fault Refusal := s.run (soft 1 (liftWrite n))

/-- LIFT_APPLY: The frame event after LIFT (R382). -/
def execLiftApply (n : Fin 4) (s : State) : Host.Outcome State Fault Refusal := s.run (liftApply n)

/-- REPORT_TAKE: SHD_REPORT_CTRL.TAKE is written at mote m (R391). -/
def execReportTake (m : Mote) (s : State) : Host.Outcome State Fault Refusal :=
  s.run (fun d => soft 1 (reportTake 0) (atMote m d))

end Sys2Proof.Machine
end

