-- ==== Sys2Proof/Machine/Voice.lean ====
section
/-!
DEFINITION. Machine/Voice.lean: the meanings of the commands of the voice ports and the service speaker (chapter 14).
-/

namespace Sys2Proof.Machine

/-- SAP_PORT_ON: A STARTING port is valid (R298). -/
def execSapPortOn (p : Fin 8) (s : State) : Host.Outcome State Fault Refusal := s.run (sapPortOn p)

/-- SAP_TICK: A tick of port p, or of the speaker (p = 8), at mote m (R298, R314). -/
def execSapTick (p : Fin 9) (m : Mote) (s : State) : Host.Outcome State Fault Refusal :=
  s.run (if p.val < 8 then sapTick p m else spkTick m)

/-- SAP_LOCK: A slave port has seen 4 whole frames (R299). -/
def execSapLock (p : Fin 8) (s : State) : Host.Outcome State Fault Refusal := s.run (sapLock false true p)

/-- SAP_LOCK_LOST: No FS edge within 4 tick periods (R299). -/
def execSapLockLost (p : Fin 8) (s : State) : Host.Outcome State Fault Refusal := s.run (sapLock false false p)

/-- PARTIAL_FRAME: A port frame of len bits, the wrong length, with bits v (R310). -/
def execPartialFrame (p : Fin 8) (len : Nat) (v : Nat) (s : State) : Host.Outcome State Fault Refusal :=
  s.run (partialFrame p len v)

/-- SAP_STOPPED: A stopping port reaches quiescence (R311). -/
def execSapStopped (p : Fin 8) (s : State) : Host.Outcome State Fault Refusal := s.run (sapStopped p)

/-- SAP_CHANNEL_ON: A STARTING audio channel has its port ON (R301). -/
def execSapChannelOn (inp : Bool) (k : Fin 64) (s : State) : Host.Outcome State Fault Refusal :=
  s.run (sapChannelOn inp k)

/-- FADE_DONE: A fade-out ends (R312). -/
def execFadeDone (inp : Bool) (k : Fin 64) (s : State) : Host.Outcome State Fault Refusal := s.run (fadeDone inp k)

/-- IEC_LOCK: An IEC 60958 receiver locks (R307). -/
def execIecLock (p : Fin 8) (s : State) : Host.Outcome State Fault Refusal := s.run (sapLock true true p)

/-- IEC_LOCK_LOST: An IEC 60958 receiver misses 3 preambles (R307). -/
def execIecLockLost (p : Fin 8) (s : State) : Host.Outcome State Fault Refusal := s.run (sapLock true false p)

/-- IEC_BLOCK_END: A received block ends (R307). -/
def execIecBlockEnd (p : Fin 8) (s : State) : Host.Outcome State Fault Refusal := s.run (iecBlockEnd p)

/-- SPK_ENABLE: SPK_CTRL.EN is written 1 (R316). -/
def execSpkEnable (s : State) : Host.Outcome State Fault Refusal :=
  s.run (softBit 5 SPK_CTRL.EN true (inRun SPK_CTRL.EN true spkEnable))

/-- SPK_DISABLE: SPK_CTRL.EN is written 0 (R316). -/
def execSpkDisable (s : State) : Host.Outcome State Fault Refusal :=
  s.run (softBit 5 SPK_CTRL.EN false (inRun SPK_CTRL.EN false spkDisable))

/-- SPK_RAMP_DONE: A speaker ramp completes (R316). -/
def execSpkRampDone (s : State) : Host.Outcome State Fault Refusal := s.run spkRampDone

/-- SPK_TRIP: A bridge switch reaches 1.8 A; the diagnostic current in mA (R315). -/
def execSpkTrip (high : Bool) (legN : Bool) (diag : Nat) (m : Mote) (s : State) : Host.Outcome State Fault Refusal :=
  s.run (spkTrip high legN diag m)

/-- SPK_THERMAL_TRIP: The amplifier reaches deg degrees (R315). -/
def execSpkThermalTrip (deg : Int) (s : State) : Host.Outcome State Fault Refusal := s.run (spkHot deg)

/-- SPK_THERMAL_RELEASE: The amplifier cools to deg degrees (R315). -/
def execSpkThermalRelease (deg : Int) (s : State) : Host.Outcome State Fault Refusal := s.run (spkCool deg)

/-- SPK_RETRY: 800 fr after a trip (R316). -/
def execSpkRetry (s : State) : Host.Outcome State Fault Refusal := s.run spkRetry

/-- SPK_RECOVERED: 8,000 fr of clean play (R316). -/
def execSpkRecovered (s : State) : Host.Outcome State Fault Refusal := s.run spkRecovered

/-- SPK_FAULT_CLR: SPK_CTRL.FAULT_CLR is written 1 (R316). -/
def execSpkFaultClr (s : State) : Host.Outcome State Fault Refusal := s.run (soft 5 spkFaultClr)

/-- VSPK_LOW: VSPK falls below 4.10 V (R406). -/
def execVspkLow (s : State) : Host.Outcome State Fault Refusal := s.run (vspk true)

/-- VSPK_GOOD: VSPK rises above 4.30 V (R406). -/
def execVspkGood (s : State) : Host.Outcome State Fault Refusal := s.run (vspk false)

end Sys2Proof.Machine
end

