-- ==== Sys2Proof/Machine/Dispatch.lean ====
section
/-!
DEFINITION. Machine/Dispatch.lean: one arm per command, each a direct call of its meaning.
-/

namespace Sys2Proof.Machine

def exec (i : Instr) (s : State) : Host.Outcome State Fault Refusal :=
  match i with
  | .registerWrite sp narrow off v => Sys2Proof.Machine.execRegisterWrite sp narrow off v s
  | .rclrRead sp narrow off => Sys2Proof.Machine.execRclrRead sp narrow off s
  | .frameEvent gpi => Sys2Proof.Machine.execFrameEvent gpi s
  | .hearthVoteFix k x => Sys2Proof.Machine.execHearthVoteFix k x s
  | .hearthFault a b c => Sys2Proof.Machine.execHearthFault a b c s
  | .hrtRateWrite src v => Sys2Proof.Machine.execHrtRateWrite src v s
  | .adjGo src slew ppm => Sys2Proof.Machine.execAdjGo src slew ppm s
  | .srcWrite new => Sys2Proof.Machine.execSrcWrite new s
  | .hostLockWrite b => Sys2Proof.Machine.execHostLockWrite b s
  | .ppsEdge m => Sys2Proof.Machine.execPpsEdge m s
  | .snapTake m => Sys2Proof.Machine.execSnapTake m s
  | .hrtNowRead p m => Sys2Proof.Machine.execHrtNowRead p m s
  | .mclkDenWrite src b den => Sys2Proof.Machine.execMclkDenWrite src b den s
  | .adcConversion k sag code => Sys2Proof.Machine.execAdcConversion k sag code s
  | .feedLoss m => Sys2Proof.Machine.execFeedLoss m s
  | .gaspCopyDue m => Sys2Proof.Machine.execGaspCopyDue m s
  | .bivTimerWrite hi => Sys2Proof.Machine.execBivTimerWrite hi s
  | .wakeTimer m => Sys2Proof.Machine.execWakeTimer m s
  | .retDataWrite src v => Sys2Proof.Machine.execRetDataWrite src v s
  | .otpDone key requireTag => Sys2Proof.Machine.execOtpDone key requireTag s
  | .railGood k => Sys2Proof.Machine.execRailGood k s
  | .findDone slotA slotB cal => Sys2Proof.Machine.execFindDone slotA slotB cal s
  | .verifyDone image => Sys2Proof.Machine.execVerifyDone image s
  | .hifLinkUp speed width => Sys2Proof.Machine.execHifLinkUp speed width s
  | .configRequest f q => Sys2Proof.Machine.execConfigRequest f q s
  | .flr f => Sys2Proof.Machine.execFlr f s
  | .vfEnable num => Sys2Proof.Machine.execVfEnable num s
  | .vfHoldSet f => Sys2Proof.Machine.execVfHoldSet f s
  | .vfHoldClear f => Sys2Proof.Machine.execVfHoldClear f s
  | .fnAssign src f which x => Sys2Proof.Machine.execFnAssign src f which x s
  | .kennelDone f m => Sys2Proof.Machine.execKennelDone f m s
  | .completion tag data => Sys2Proof.Machine.execCompletion tag data s
  | .cplTimeout tag => Sys2Proof.Machine.execCplTimeout tag s
  | .poisoned tag => Sys2Proof.Machine.execPoisoned tag s
  | .intMaskWrite f x => Sys2Proof.Machine.execIntMaskWrite f x s
  | .dstateChange f d3 => Sys2Proof.Machine.execDstateChange f d3 s
  | .unsupportedRequest f => Sys2Proof.Machine.execUnsupportedRequest f s
  | .doorbell f slot x => Sys2Proof.Machine.execDoorbell f slot x s
  | .mbxBaseLo f x => Sys2Proof.Machine.execMbxBaseLo f x s
  | .mbxBaseHi f x => Sys2Proof.Machine.execMbxBaseHi f x s
  | .mbxReset f x => Sys2Proof.Machine.execMbxReset f x s
  | .descFetch tag data => Sys2Proof.Machine.execDescFetch tag data s
  | .fetchFail tag timedOut => Sys2Proof.Machine.execFetchFail tag timedOut s
  | .tagWaitEnd ring => Sys2Proof.Machine.execTagWaitEnd ring s
  | .coalExpiry ring m => Sys2Proof.Machine.execCoalExpiry ring m s
  | .launchDue m => Sys2Proof.Machine.execLaunchDue m s
  | .stallExpiry ring m => Sys2Proof.Machine.execStallExpiry ring m s
  | .audioHalfPoint ring => Sys2Proof.Machine.execAudioHalfPoint ring s
  | .audioFullPoint ring => Sys2Proof.Machine.execAudioFullPoint ring s
  | .nop f => Sys2Proof.Machine.execNop f s
  | .ringSetup f => Sys2Proof.Machine.execRingSetup f s
  | .ringEnable f => Sys2Proof.Machine.execRingEnable f s
  | .ringDisable f => Sys2Proof.Machine.execRingDisable f s
  | .ringQuery f => Sys2Proof.Machine.execRingQuery f s
  | .time f => Sys2Proof.Machine.execTime f s
  | .resources f => Sys2Proof.Machine.execResources f s
  | .ringQuiescence ring => Sys2Proof.Machine.execRingQuiescence ring s
  | .prqRequest line ring m => Sys2Proof.Machine.execPrqRequest line ring m s
  | .prqMapApply line => Sys2Proof.Machine.execPrqMapApply line s
  | .ringSelWrite ring => Sys2Proof.Machine.execRingSelWrite ring s
  | .channelOn n => Sys2Proof.Machine.execChannelOn n s
  | .channelStopped n => Sys2Proof.Machine.execChannelStopped n s
  | .modIn n => Sys2Proof.Machine.execModIn n s
  | .modOut n => Sys2Proof.Machine.execModOut n s
  | .moduleSettled n => Sys2Proof.Machine.execModuleSettled n s
  | .txFault x => Sys2Proof.Machine.execTxFault x s
  | .faultRetry n src => Sys2Proof.Machine.execFaultRetry n src s
  | .linkUp x => Sys2Proof.Machine.execLinkUp x s
  | .linkDown n cause => Sys2Proof.Machine.execLinkDown n cause s
  | .rxFrame n m pkt pcs data => Sys2Proof.Machine.execRxFrame n m pkt pcs data s
  | .patternWake data => Sys2Proof.Machine.execPatternWake data s
  | .pauseRefresh n m => Sys2Proof.Machine.execPauseRefresh n m s
  | .xoffEnd n => Sys2Proof.Machine.execXoffEnd n s
  | .pauseRx n quanta m => Sys2Proof.Machine.execPauseRx n quanta m s
  | .pfcRx n vec quanta m => Sys2Proof.Machine.execPfcRx n vec quanta m s
  | .pauseEnd n k m => Sys2Proof.Machine.execPauseEnd n k m s
  | .txFrameStart n ups m => Sys2Proof.Machine.execTxFrameStart n ups m s
  | .txFrameEnd n m => Sys2Proof.Machine.execTxFrameEnd n m s
  | .preemptEnable n => Sys2Proof.Machine.execPreemptEnable n s
  | .preemptDisable n => Sys2Proof.Machine.execPreemptDisable n s
  | .verifyTimer x => Sys2Proof.Machine.execVerifyTimer x s
  | .verifyRx n => Sys2Proof.Machine.execVerifyRx n s
  | .respondRx n => Sys2Proof.Machine.execRespondRx n s
  | .txts0Read n => Sys2Proof.Machine.execTxts0Read n s
  | .clsEntryWrite masked ix k x => Sys2Proof.Machine.execClsEntryWrite masked ix k x s
  | .clsCommit masked ix ctrl => Sys2Proof.Machine.execClsCommit masked ix ctrl s
  | .gateEntryStart n m => Sys2Proof.Machine.execGateEntryStart n m s
  | .calRecalStart n m => Sys2Proof.Machine.execCalRecalStart n m s
  | .calRecalEnd n => Sys2Proof.Machine.execCalRecalEnd n s
  | .gateCommit n => Sys2Proof.Machine.execGateCommit n s
  | .gateCancel n => Sys2Proof.Machine.execGateCancel n s
  | .gateListStart n m => Sys2Proof.Machine.execGateListStart n m s
  | .gateSwap n m => Sys2Proof.Machine.execGateSwap n m s
  | .gateDisable n => Sys2Proof.Machine.execGateDisable n s
  | .gateVoteFix n k w => Sys2Proof.Machine.execGateVoteFix n k w s
  | .gateNomaj n => Sys2Proof.Machine.execGateNomaj n s
  | .freEntryWrite src st k x => Sys2Proof.Machine.execFreEntryWrite src st k x s
  | .freCommit st ctrl => Sys2Proof.Machine.execFreCommit st ctrl s
  | .recovReset st => Sys2Proof.Machine.execRecovReset st s
  | .refreshForced x => Sys2Proof.Machine.execRefreshForced x s
  | .scrubCellDue x m => Sys2Proof.Machine.execScrubCellDue x m s
  | .admissionCheck ch => Sys2Proof.Machine.execAdmissionCheck ch s
  | .recalForced lane m => Sys2Proof.Machine.execRecalForced lane m s
  | .pegSlotStart slot => Sys2Proof.Machine.execPegSlotStart slot s
  | .pegSlotReceive chB t symOk data => Sys2Proof.Machine.execPegSlotReceive chB t symOk data s
  | .pegSlotMiss slot => Sys2Proof.Machine.execPegSlotMiss slot s
  | .msgDeliver n => Sys2Proof.Machine.execMsgDeliver n s
  | .msgAckTimeout dest => Sys2Proof.Machine.execMsgAckTimeout dest s
  | .spareClaim slot => Sys2Proof.Machine.execSpareClaim slot s
  | .spareRelease slot => Sys2Proof.Machine.execSpareRelease slot s
  | .spareLapse slot => Sys2Proof.Machine.execSpareLapse slot s
  | .probeReceive p seq turn m => Sys2Proof.Machine.execProbeReceive p seq turn m s
  | .echoReceive p seq down turn m => Sys2Proof.Machine.execEchoReceive p seq down turn m s
  | .mirrorReceive symOk data m => Sys2Proof.Machine.execMirrorReceive symOk data m s
  | .leaseExpiry m => Sys2Proof.Machine.execLeaseExpiry m s
  | .holdInChange b => Sys2Proof.Machine.execHoldInChange b s
  | .sapPortOn p => Sys2Proof.Machine.execSapPortOn p s
  | .sapTick p m => Sys2Proof.Machine.execSapTick p m s
  | .sapLock p => Sys2Proof.Machine.execSapLock p s
  | .sapLockLost p => Sys2Proof.Machine.execSapLockLost p s
  | .partialFrame p len v => Sys2Proof.Machine.execPartialFrame p len v s
  | .sapStopped p => Sys2Proof.Machine.execSapStopped p s
  | .sapChannelOn out k => Sys2Proof.Machine.execSapChannelOn out k s
  | .fadeDone out k => Sys2Proof.Machine.execFadeDone out k s
  | .iecLock p => Sys2Proof.Machine.execIecLock p s
  | .iecLockLost p => Sys2Proof.Machine.execIecLockLost p s
  | .iecBlockEnd p => Sys2Proof.Machine.execIecBlockEnd p s
  | .spkTrip high legN diag m => Sys2Proof.Machine.execSpkTrip high legN diag m s
  | .spkThermalTrip deg => Sys2Proof.Machine.execSpkThermalTrip deg s
  | .spkThermalRelease deg => Sys2Proof.Machine.execSpkThermalRelease deg s
  | .llbChannelStart c => Sys2Proof.Machine.execLlbChannelStart c s
  | .llbPacketDue c => Sys2Proof.Machine.execLlbPacketDue c s
  | .llbTxDrop who => Sys2Proof.Machine.execLlbTxDrop who s
  | .llbRxPacket c data => Sys2Proof.Machine.execLlbRxPacket c data s
  | .rxSilent c => Sys2Proof.Machine.execRxSilent c s
  | .llbStopped c => Sys2Proof.Machine.execLlbStopped c s
  | .cmpBlockDone upset => Sys2Proof.Machine.execCmpBlockDone upset s
  | .glReset incr fn len => Sys2Proof.Machine.execGlReset incr fn len s
  | .glSearch incr fn len => Sys2Proof.Machine.execGlSearch incr fn len s
  | .glRead incr fn len => Sys2Proof.Machine.execGlRead incr fn len s
  | .glWrite incr fn len => Sys2Proof.Machine.execGlWrite incr fn len s
  | .glDone e => Sys2Proof.Machine.execGlDone e s
  | .glSearchPass present subs => Sys2Proof.Machine.execGlSearchPass present subs s
  | .gpiRemind ix => Sys2Proof.Machine.execGpiRemind ix s
  | .gpiLatchClear w => Sys2Proof.Machine.execGpiLatchClear w s
  | .gpoWrite v => Sys2Proof.Machine.execGpoWrite v s
  | .smbSetAddr pecOk a => Sys2Proof.Machine.execSmbSetAddr pecOk a s
  | .smbRegRead pecOk => Sys2Proof.Machine.execSmbRegRead pecOk s
  | .smbRegWrite pecOk v => Sys2Proof.Machine.execSmbRegWrite pecOk v s
  | .smbStatusRead pecOk => Sys2Proof.Machine.execSmbStatusRead pecOk s
  | .smbColdReset pecOk key => Sys2Proof.Machine.execSmbColdReset pecOk key s
  | .smbWarmReset pecOk key => Sys2Proof.Machine.execSmbWarmReset pecOk key s
  | .smbWake pecOk key => Sys2Proof.Machine.execSmbWake pecOk key s
  | .mi2cGo port v => Sys2Proof.Machine.execMi2cGo port v s
  | .mi2cDone port e => Sys2Proof.Machine.execMi2cDone port e s
  | .qspiGo v => Sys2Proof.Machine.execQspiGo v s
  | .qspiDone data => Sys2Proof.Machine.execQspiDone data s
  | .tableParityError off => Sys2Proof.Machine.execTableParityError off s
  | .loopbackEnd res => Sys2Proof.Machine.execLoopbackEnd res s
  | .laneFenceTimeout n m => Sys2Proof.Machine.execLaneFenceTimeout n m s
  | .fence n => Sys2Proof.Machine.execFence n s
  | .fenceComplete n => Sys2Proof.Machine.execFenceComplete n s
  | .lift n => Sys2Proof.Machine.execLift n s
  | .liftApply n => Sys2Proof.Machine.execLiftApply n s
  | .reportTake m => Sys2Proof.Machine.execReportTake m s
  | .pegLaneSyncLost chB => Sys2Proof.Machine.execPegLaneSyncLost chB s
  | .pegLaneSyncGained chB => Sys2Proof.Machine.execPegLaneSyncGained chB s
  | .remoteFaultReceived n => Sys2Proof.Machine.execRemoteFaultReceived n s
  | .remoteFaultCleared n => Sys2Proof.Machine.execRemoteFaultCleared n s
  | .losChange n b => Sys2Proof.Machine.execLosChange n b s
  | .laneUnlock n m => Sys2Proof.Machine.execLaneUnlock n m s
  | .laneRelock n => Sys2Proof.Machine.execLaneRelock n s
  | .sapWireFrame p w => Sys2Proof.Machine.execSapWireFrame p w s
  | .xrefLoss => Sys2Proof.Machine.execXrefLoss s
  | .heldBound => Sys2Proof.Machine.execHeldBound s
  | .xrefReturned => Sys2Proof.Machine.execXrefReturned s
  | .xrefBack => Sys2Proof.Machine.execXrefBack s
  | .jumpApply => Sys2Proof.Machine.execJumpApply s
  | .slewApply => Sys2Proof.Machine.execSlewApply s
  | .slewDone => Sys2Proof.Machine.execSlewDone s
  | .load => Sys2Proof.Machine.execLoad s
  | .loadApply => Sys2Proof.Machine.execLoadApply s
  | .faultClr => Sys2Proof.Machine.execFaultClr s
  | .hostWdog => Sys2Proof.Machine.execHostWdog s
  | .holdExpired => Sys2Proof.Machine.execHoldExpired s
  | .ppsMiss => Sys2Proof.Machine.execPpsMiss s
  | .ppsOutEnd => Sys2Proof.Machine.execPpsOutEnd s
  | .fsyncOutEnd => Sys2Proof.Machine.execFsyncOutEnd s
  | .gaspSent => Sys2Proof.Machine.execGaspSent s
  | .refoutStop => Sys2Proof.Machine.execRefoutStop s
  | .refoutStart => Sys2Proof.Machine.execRefoutStart s
  | .bivReq => Sys2Proof.Machine.execBivReq s
  | .wakeRestoreApply => Sys2Proof.Machine.execWakeRestoreApply s
  | .retDataRead => Sys2Proof.Machine.execRetDataRead s
  | .powerOnReset => Sys2Proof.Machine.execPowerOnReset s
  | .porEnd => Sys2Proof.Machine.execPorEnd s
  | .pllLock => Sys2Proof.Machine.execPllLock s
  | .sysResetN => Sys2Proof.Machine.execSysResetN s
  | .sysResetRelease => Sys2Proof.Machine.execSysResetRelease s
  | .cold => Sys2Proof.Machine.execCold s
  | .warm => Sys2Proof.Machine.execWarm s
  | .coldResetEnd => Sys2Proof.Machine.execColdResetEnd s
  | .warmEnd => Sys2Proof.Machine.execWarmEnd s
  | .powerUpStep => Sys2Proof.Machine.execPowerUpStep s
  | .pmemInitDone => Sys2Proof.Machine.execPmemInitDone s
  | .applyDone => Sys2Proof.Machine.execApplyDone s
  | .admitDone => Sys2Proof.Machine.execAdmitDone s
  | .defaultsDone => Sys2Proof.Machine.execDefaultsDone s
  | .bootDone => Sys2Proof.Machine.execBootDone s
  | .release => Sys2Proof.Machine.execRelease s
  | .holdExit => Sys2Proof.Machine.execHoldExit s
  | .perstAssert => Sys2Proof.Machine.execPerstAssert s
  | .perstRelease => Sys2Proof.Machine.execPerstRelease s
  | .refoutReady => Sys2Proof.Machine.execRefoutReady s
  | .hifLinkDown => Sys2Proof.Machine.execHifLinkDown s
  | .hotReset => Sys2Proof.Machine.execHotReset s
  | .linkEnClear => Sys2Proof.Machine.execLinkEnClear s
  | .vfEnableClear => Sys2Proof.Machine.execVfEnableClear s
  | .latentCheck => Sys2Proof.Machine.execLatentCheck s
  | .pegSchedCommit => Sys2Proof.Machine.execPegSchedCommit s
  | .pegSchedCancel => Sys2Proof.Machine.execPegSchedCancel s
  | .pegSchedSwap => Sys2Proof.Machine.execPegSchedSwap s
  | .claimBackoffEnd => Sys2Proof.Machine.execClaimBackoffEnd s
  | .pegOn => Sys2Proof.Machine.execPegOn s
  | .pegStopped => Sys2Proof.Machine.execPegStopped s
  | .listenTimeout => Sys2Proof.Machine.execListenTimeout s
  | .coldstartTimeout => Sys2Proof.Machine.execColdstartTimeout s
  | .syncRoundCompute => Sys2Proof.Machine.execSyncRoundCompute s
  | .ringBreak => Sys2Proof.Machine.execRingBreak s
  | .ringHeal => Sys2Proof.Machine.execRingHeal s
  | .mirrorSend => Sys2Proof.Machine.execMirrorSend s
  | .laneUp => Sys2Proof.Machine.execLaneUp s
  | .laneDown => Sys2Proof.Machine.execLaneDown s
  | .leashEligible => Sys2Proof.Machine.execLeashEligible s
  | .leashIneligible => Sys2Proof.Machine.execLeashIneligible s
  | .leashTake => Sys2Proof.Machine.execLeashTake s
  | .leashRelease => Sys2Proof.Machine.execLeashRelease s
  | .backoffEnd => Sys2Proof.Machine.execBackoffEnd s
  | .lineFault => Sys2Proof.Machine.execLineFault s
  | .wakeLease => Sys2Proof.Machine.execWakeLease s
  | .spkEnable => Sys2Proof.Machine.execSpkEnable s
  | .spkDisable => Sys2Proof.Machine.execSpkDisable s
  | .spkRampDone => Sys2Proof.Machine.execSpkRampDone s
  | .spkRetry => Sys2Proof.Machine.execSpkRetry s
  | .spkRecovered => Sys2Proof.Machine.execSpkRecovered s
  | .spkFaultClr => Sys2Proof.Machine.execSpkFaultClr s
  | .vspkLow => Sys2Proof.Machine.execVspkLow s
  | .vspkGood => Sys2Proof.Machine.execVspkGood s
  | .evCopyDue => Sys2Proof.Machine.execEvCopyDue s
  | .cmpCompressStatic => Sys2Proof.Machine.execCmpCompressStatic s
  | .cmpCompressDynamic => Sys2Proof.Machine.execCmpCompressDynamic s
  | .cmpDecompress => Sys2Proof.Machine.execCmpDecompress s
  | .cmpSave => Sys2Proof.Machine.execCmpSave s
  | .cmpRestore => Sys2Proof.Machine.execCmpRestore s
  | .cmpJobEnd => Sys2Proof.Machine.execCmpJobEnd s
  | .cmpJobStop => Sys2Proof.Machine.execCmpJobStop s
  | .cmpStopped => Sys2Proof.Machine.execCmpStopped s
  | .glBackoffEnd => Sys2Proof.Machine.execGlBackoffEnd s
  | .glAttach => Sys2Proof.Machine.execGlAttach s
  | .autoSearch => Sys2Proof.Machine.execAutoSearch s
  | .sagStart => Sys2Proof.Machine.execSagStart s
  | .sagAutoStart => Sys2Proof.Machine.execSagAutoStart s
  | .sagLoadOn => Sys2Proof.Machine.execSagLoadOn s
  | .sagLoadOff => Sys2Proof.Machine.execSagLoadOff s
  | .sagCompute => Sys2Proof.Machine.execSagCompute s
  | .sagDone => Sys2Proof.Machine.execSagDone s
  | .sagAbort => Sys2Proof.Machine.execSagAbort s
  | .sagCheck => Sys2Proof.Machine.execSagCheck s
  | .eolClr => Sys2Proof.Machine.execEolClr s
  | .smbClockLow => Sys2Proof.Machine.execSmbClockLow s
  | .tapBypass => Sys2Proof.Machine.execTapBypass s
  | .tapIdcode => Sys2Proof.Machine.execTapIdcode s
  | .tapSamplePreload => Sys2Proof.Machine.execTapSamplePreload s
  | .tapExtest => Sys2Proof.Machine.execTapExtest s
  | .tapClamp => Sys2Proof.Machine.execTapClamp s
  | .tapHighz => Sys2Proof.Machine.execTapHighz s
  | .bucketDecay => Sys2Proof.Machine.execBucketDecay s
  | .loopbackStart => Sys2Proof.Machine.execLoopbackStart s

end Sys2Proof.Machine
end

