-- ==== Sys2Proof/Machine/Step.lean ====
section
/-!
DEFINITION. Machine/Step.lean: one step takes the command at the front of the queue. On an empty queue one CLK passes.
-/

namespace Sys2Proof.Machine

/-- One step. An empty queue is a CLK in which nothing but the clock acts (DESIGN CHOICE, assumption log 1). -/
def step (s : State) : Host.Outcome State Fault Refusal :=
  match s.pending with
  | [] => .next { s with dev := s.dev.command clkTaken }
  | c :: rest => exec c { s with pending := rest }

/-- s with the command that the word spells put at the front of its queue. -/
def State.withFetchWord (s : State) (nbits w : Nat) : State :=
  match decodeTableWord nbits w with
  | some c => { s with pending := c :: s.pending }
  | none => s

end Sys2Proof.Machine
end

