-- ==== Sys2Proof/Safety.lean ====
section
/-!
DEFINITION. Safety.lean: what a safe run of the block is, in the terms that claims use: its retention memory and its registers
keep their canonical form, and the outputs that are a function of the state follow it.
-/

namespace Sys2Proof.Machine

/-- The retention SRAM (R68) in its canonical form. -/
def Memory.wf (m : List (Nat × Word)) : Bool := cellsWf (fun _ => 0#32) m

/-- The registers in their canonical form. -/
def regsWf (m : List (Nat × Word)) : Bool := cellsWf resetWord m

/-- The relays follow the token: OUT drives the pins (a relay on pulls its pin low) while it is held and no reset is
asserted; otherwise every pin is open (R368). -/
def Dev.relaysFollow (d : Dev) : Prop :=
  d.on FLD_GPO.DRIVEN = (d.holds && !d.boot.asserted) ∧
    d.rd FLD_GPO.LEVEL = (if d.holds && !d.boot.asserted then 255 ^^^ d.rd FLD_GPO.OUT else 255)

/-- The charger follows its enable, a feed loss and a sag test (R73): CHG_EN is high only while it is enabled and neither holds,
and INHIBIT tells why it is not. -/
def Dev.chargerFollows (d : Dev) : Prop :=
  d.on RAT_CHG.LEVEL =
      (d.on RAT_CHG.EN && !d.ratOn RAT_STATUS.LOSS && !d.sagOn && !(d.boot.asserted && d.boot.kind != some .warm)) ∧
    d.rd RAT_CHG.INHIBIT =
      (if d.ratOn RAT_STATUS.LOSS then 1 else 0) + (if d.sagOn then 2 else 0) + (if d.on RAT_CHG.EN then 0 else 4)

/-- REFOUT follows its enable, its domain and the resets (R28). -/
def Dev.refoutFollows (d : Dev) : Prop := d.on CLK_STATUS.REFOUT_ON = d.refoutRuns

/-- The outputs that are a function of the state follow it. -/
def Dev.settled (d : Dev) : Prop := d.relaysFollow ∧ d.chargerFollows ∧ d.refoutFollows

/-- Fields that show other state and follow it after every command. -/
def shownList : List Field :=
  [CLK_STATUS.REFOUT_ON, CLK_STATUS.MCLK_LOCK, CHn_STATUS.TXDIS 0, CHn_STATUS.TXDIS 1, CHn_STATUS.TXDIS 2,
   CHn_STATUS.TXDIS 3, LLB_STATUS.SENDING, PMC_ADMIT_LIMIT.LIMIT, DMA_STATUS.BUSY, SHD_FAULT.FAULT,
   SHD_FAULT_NEW.FAULT, SHD_EVENT.FAULT_NEW, FLD_GPO.DRIVEN, FLD_GPO.LEVEL, RAT_CHG.LEVEL, RAT_CHG.INHIBIT,
   CMP_CTX_STATE.STATE, CMP_STATUS.BUSY, CMP_STATUS.CUR_CTX, CMP_STATUS.CUR_FN, CMP_EVENT.CTX_LOST, CMP_STATUS.RUN,
   CHn_GATE_STATUS.RUN 0, CHn_GATE_STATUS.RUN 1, CHn_GATE_STATUS.RUN 2, CHn_GATE_STATUS.RUN 3, LSH_STATUS.RUN,
   RAT_DOM_STATUS.PEG_LANES_ON, CLK_STATUS.PEG_LANE_LOCK, PMC_FREE_CELLS.CELLS, PMC_BE_CELLS.CELLS, PMC_EVENT.BE_XOFF,
   SHD_RETIRED.COUNT, SHD_RETIRED.LAST, SHD_RETIRED.OVER, SHD_EVENT.RETIRE]

/-- They, and the registers that a stop of REFOUT resets, with the frames it purges: the host interface and the INT block. -/
def shownField (g : Field) : Bool :=
  g.off / 0x4000 == 5 || g.off / 0x4000 == 32 || shownList.any fun f => !Field.apart f g

/-- The registers and tables of e are those of d but for the fields of ws, which hold the values of ws; the retention SRAM is
the same. -/
def Wrote (d e : Dev) (ws : List (Field × Nat)) : Prop :=
  e.sram = d.sram ∧ (∀ x ∈ ws, e.rd x.1 = x.2) ∧
    ∀ g : Field, (∀ x ∈ ws, Field.apart x.1 g = true) → e.rd g = d.rd g

/-- Command c completes in s: it answers a next state with the same queue, whose device is e and what follows e in the same CLK
(`settle`); of the registers, tables and retention SRAM, e differs from s in the fields of ws alone; and e has P. -/
def Does (c : Instr) (s : State) (ws : List (Field × Nat)) (P : Dev → Prop) : Prop :=
  ∃ e : Dev, exec c s = .next { s with dev := settle s.dev e } ∧ Wrote s.dev e ws ∧ P e

/-- A command without such a list: its next state has device e, settled, and e has P. -/
def Ends (c : Instr) (s : State) (P : Dev → Prop) : Prop :=
  ∃ e : Dev, exec c s = .next { s with dev := settle s.dev e } ∧ P e

/-- Of the registers and tables, e differs from d in the fields of fs alone. -/
def Only (d e : Dev) (fs : List Field) : Prop := ∀ g : Field, (∀ f ∈ fs, Field.apart f g = true) → e.rd g = d.rd g

/-- Of the registers and tables, e differs from d only in those whose offset divided by 0x4000 is in bs (Table 19.1). -/
def Within (d e : Dev) (bs : List Nat) : Prop := ∀ g : Field, bs.contains (g.off / 0x4000) = false → e.rd g = d.rd g

/-- A step goes wrong: it faults or is refused. -/
def Stuck (s : State) : Prop := ∀ t, step s ≠ .next t

end Sys2Proof.Machine
end

