-- ==== Sys2Proof/Certificates/Slice0/Obligations.lean ====
section
/-!
DEFINITION. Certificates/Slice0/Obligations.lean: the statements for the provers. `Does c s ws P` (Safety.lean): command c in s
answers a next state that differs from s, in registers, tables and retention SRAM, in the fields of ws alone, before what
follows every command (`settle`). Each `Obligations.X` says what its title says.
-/

open Sys2Proof Sys2Proof.Machine

/-! ### CLK and the Hearth (spec/02) -/

/-- A write of software, of SMBus or of the image is taken: PCIe is held up until BOOT_DONE (R88). -/
abbrev Reaches (src : BusSrc) (s : State) : Prop := src = .smbus ∨ src = .image ∨ s.dev.booted = true

/-- Software's write or read is taken, in a register of domain k (R58, R88). -/
abbrev Taken (k : Nat) (s : State) : Prop := s.dev.booted = true ∧ s.dev.pd k = true

/-- A loss of XREF freezes the PLL and starts held operation; HELD_BOUND is raised once when its first second ends; a returned
XREF is relocked to; lock ends held operation. Nothing else changes. A DEN write applies the pair NUM and DEN to its
divider (R29); a DEN below 8 × NUM is refused and counted (R5, R394). A rate within ±13,743,895 takes force in all three
copies (R42); one beyond is refused (R5). Outside HOLDOVER no discipline state moves. -/
def Obligations.XrefDividersAndRate : Prop :=
  ∀ s : State,
    (s.dev.boot.pllOnce = true →
       Does .xrefLoss s
         [(CLK_STATUS.XREF_LOST, 1), (HRT_STATUS.XREF_LOST, 1), (CLK_STATUS.HELD, 1), (CLK_STATUS.RELOCKING, 0),
          (CLK_STATUS.PLL_LOCK, 0), (CLK_EVENT.XREF_LOSS, 1)]
         fun e => s.dev.on CLK_STATUS.XREF_LOST = false → e.hearth.heldBound = false) ∧
    (s.dev.on CLK_STATUS.HELD = true → s.dev.hearth.heldBound = false →
       Does .heldBound s [(CLK_EVENT.HELD_BOUND, 1)] fun e => e.hearth.heldBound = true) ∧
    (s.dev.on CLK_STATUS.HELD = true → Does .xrefReturned s [(CLK_STATUS.RELOCKING, 1)] fun e => e.hearth = s.dev.hearth) ∧
    (s.dev.on CLK_STATUS.RELOCKING = true →
       Does .xrefBack s
         [(CLK_STATUS.XREF_LOST, 0), (HRT_STATUS.XREF_LOST, 0), (CLK_STATUS.HELD, 0), (CLK_STATUS.RELOCKING, 0),
          (CLK_STATUS.PLL_LOCK, 1), (CLK_EVENT.XREF_BACK, 1)]
         fun e => e.hearth = s.dev.hearth) ∧
    (∀ (src : BusSrc) (den : Word), Reaches src s → den.toNat < 2 ^ 24 → 8 * s.dev.rd CLK_MCLK_A_NUM.NUM ≤ den.toNat →
       Does (.mclkDenWrite src false den) s
         [(CLK_MCLK_A_DEN.DEN, den.toNat)]
         fun e => e.hearth.mclkA = (s.dev.rd CLK_MCLK_A_NUM.NUM, den.toNat) ∧ e.hearth.mclkB = s.dev.hearth.mclkB) ∧
    (∀ (src : BusSrc) (den : Word), Reaches src s → den.toNat < 2 ^ 24 → 8 * s.dev.rd CLK_MCLK_B_NUM.NUM ≤ den.toNat →
       Does (.mclkDenWrite src true den) s
         [(CLK_MCLK_B_DEN.DEN, den.toNat)]
         fun e => e.hearth.mclkB = (s.dev.rd CLK_MCLK_B_NUM.NUM, den.toNat) ∧ e.hearth.mclkA = s.dev.hearth.mclkA) ∧
    (∀ (src : BusSrc) (den : Word), Reaches src s → den.toNat < 8 * s.dev.rd CLK_MCLK_A_NUM.NUM →
       Does (.mclkDenWrite src false den) s
         [(GLB_BADWR.COUNT, min (s.dev.rd GLB_BADWR.COUNT + 1) (2 ^ 32 - 1)), (GLB_BADWR_INFO.OFFSET, CLK_MCLK_A_DEN.addr),
          (GLB_BADWR_INFO.SRC, srcCode src), (GLB_BADWR_INFO.FN, srcFn src)]
         fun e => e.hearth = s.dev.hearth) ∧
    (∀ (src : BusSrc) (v : Word), Reaches src s → s.dev.src < 2 → -13743895 ≤ v.toInt → v.toInt ≤ 13743895 →
     s.dev.rd HRT_STATUS.STATE ≠ 3 →
       Does (.hrtRateWrite src v) s
         [(HRT_RATE.RATE, v.toNat), (HRT_STATUS.RATE_CLAMPED, 0)]
         fun e => e.hearth.a.rate = v.toInt ∧ e.hearth.b.rate = v.toInt ∧ e.hearth.c.rate = v.toInt ∧ e.hearth.wdogFr = 0 ∧
           e.hearth.a.t = s.dev.hearth.a.t) ∧
    (∀ (src : BusSrc) (v : Word), Reaches src s → s.dev.src < 2 → v.toInt < -13743895 ∨ 13743895 < v.toInt →
       Does (.hrtRateWrite src v) s
         [(GLB_BADWR.COUNT, min (s.dev.rd GLB_BADWR.COUNT + 1) (2 ^ 32 - 1)), (GLB_BADWR_INFO.OFFSET, HRT_RATE.addr),
          (GLB_BADWR_INFO.SRC, srcCode src), (GLB_BADWR_INFO.FN, srcFn src)]
         fun e => e.hearth = s.dev.hearth)

/-- GO holds an adjustment for the next frame event (R43); a jump or a slew that is due applies the pending value, to all
copies at once, with the CLK of the jump, or over time; the last CLK of a slew, if it falls in the frame in progress, applies what
remains and ends it. What the parts do at a step is `stepped` (R34, R197). LOAD
waits for the next frame event; then the value of HRT_LOAD and HRT_ERA goes into all three copies with fraction 0, a
running slew ends and STEPPED rises (R45). -/
def Obligations.HearthAdjustAndLoad : Prop :=
  ∀ s : State,
    (∀ (src : BusSrc) (slew : Bool) (ppm : Fin 512), Reaches src s → s.dev.src < 2 → 1 ≤ ppm.val → ppm.val ≤ 500 →
     s.dev.on HRT_ADJ_CTRL.GO = false → s.dev.rd HRT_STATUS.STATE ≠ 3 →
       Does (.adjGo src slew ppm) s
         [(HRT_ADJ_CTRL.MODE, if slew then 1 else 0), (HRT_ADJ_CTRL.SLEW_PPM, ppm.val), (HRT_ADJ_CTRL.GO, 1),
          (HRT_STATUS.ADJ_PENDING, 1)]
         fun e => e.hearth.adj = .sw ∧ e.hearth.adjArmed = false ∧ e.hearth.a = s.dev.hearth.a) ∧
    (∀ (off : Int), s.dev.adjValue = some (false, off) → s.dev.hearth.adjArmed = true → s.dev.hearth.loadArmed = false →
       Ends .jumpApply s fun e => ∃ d, e = stepped s.dev.frameExt ((((s.dev.hearth.a.clk 0).ext : Int) + off) / frMt) d ∧
         d.rd HRT_ADJ_CTRL.GO = 0 ∧ d.rd HRT_STATUS.ADJ_PENDING = 0 ∧ d.rd HRT_STATUS.SLEWING = 0 ∧
         d.rd HRT_EVENT.STEPPED = 1 ∧ d.hearth.slewInc = 0 ∧
         (d.nowExt : Int) = (((s.dev.hearth.a.clk 0).ext : Int) + off) % 2 ^ 68) ∧
    (∀ (off : Int), s.dev.adjValue = some (true, off) → s.dev.hearth.adjArmed = true → s.dev.hearth.loadArmed = false →
       Ends .slewApply s fun e => e.rd HRT_ADJ_CTRL.GO = 0 ∧ e.rd HRT_STATUS.ADJ_PENDING = 0 ∧ e.rd HRT_STATUS.SLEWING = 1 ∧
         e.hearth.a.left = off * 2 ^ 32 ∧ e.hearth.a.t = s.dev.hearth.a.t ∧ e.hearth.slewInc.natAbs = s.dev.hearth.adjPpm.getD
         (s.dev.rd HRT_ADJ_CTRL.SLEW_PPM) * 68719) ∧
    (s.dev.on HRT_STATUS.SLEWING = true → s.dev.hearth.slewInc ≠ 0 → 0 ≤ s.dev.hearth.slewInc * s.dev.hearth.a.left →
     (s.dev.hearth.a.run s.dev.hearth.slewInc (s.dev.hearth.a.slewClk s.dev.hearth.slewInc)).t / frMt = s.dev.frame →
       Ends .slewDone s fun e => e.rd HRT_STATUS.SLEWING = 0 ∧ e.rd HRT_EVENT.SLEW_DONE = 1 ∧ e.hearth.slewInc = 0 ∧
         e.hearth.a.left = 0 ∧ e.frame = s.dev.frame ∧ e.sram = s.dev.sram) ∧
    (s.dev.booted = true → s.dev.pd 0 = true → s.dev.on HRT_STATUS.LOAD_PENDING = false →
       Does .load s
         [(HRT_CTRL.LOAD, 1), (HRT_STATUS.LOAD_PENDING, 1)]
         fun e => e.hearth.loadArmed = false ∧ e.hearth.a = s.dev.hearth.a) ∧
    (s.dev.hearth.loadArmed = true → s.dev.hearth.adjArmed = false → s.dev.hearth.loadHw = none →
     s.dev.peg.loading = false →
       Ends .loadApply s fun e => ∃ d, e = stepped s.dev.frameExt (s.dev.loadTime / frMt) d ∧ Wrote s.dev d [(HRT_CTRL.LOAD, 0),
         (HRT_STATUS.LOAD_PENDING, 0), (HRT_STATUS.SLEWING, 0), (HRT_EVENT.STEPPED, 1)] ∧ d.now = s.dev.rd HRT_LOAD_HI.LOAD *
         2 ^ 32 + s.dev.rd HRT_LOAD_LO.LOAD ∧ d.hearth.a.era = s.dev.rd HRT_ERA.ERA % 16 ∧ d.hearth.a.frac = 0 ∧ d.hearth.b.t
         = d.hearth.a.t ∧ d.hearth.c.t = d.hearth.a.t)

/-- The discipline state after a write of SRC (Table 2.5; HOST_LOCK acts as a level). -/
abbrev SrcState (new : Fin 4) (s : State) : Nat :=
  let st := s.dev.rd HRT_STATUS.STATE
  let next := if st = 0 ∨ s.dev.src ≠ new.val ∧ st ≠ 1 then 1 else st
  if st = 4 then 4 else if new = 0 then 0 else if next = 1 ∧ new = 1 ∧ s.dev.on HRT_CTRL.HOST_LOCK = true then 2 else next

/-- What a lock bit, a source, a cleared fault, the host watchdog, the holdover limit and missed seconds do to the discipline
state, its event and TRACEABLE (Table 2.5, R47). -/
def Obligations.HearthDiscipline : Prop :=
  ∀ s : State,
    (∀ (b : Bool), Taken 0 s →
       Ends (.hostLockWrite b) s fun e => Within s.dev e [2] ∧ e.sram = s.dev.sram ∧ e.rd HRT_CTRL.HOST_LOCK = b2n b ∧
         e.hearth.a = s.dev.hearth.a ∧ e.rd HRT_STATUS.STATE = (if s.dev.src ≠ 1 then s.dev.rd HRT_STATUS.STATE
         else match b, s.dev.rd HRT_STATUS.STATE with
           | true, 1 => 2
           | false, 2 => 3
           | _, st => st)) ∧
    (∀ (new : Fin 4), Taken 0 s →
       Ends (.srcWrite new) s fun e => Within s.dev e [2, 18] ∧ e.sram = s.dev.sram ∧ e.rd HRT_CTRL.SRC = new.val ∧ e.src =
         new.val ∧ e.hearth.a = s.dev.hearth.a ∧ (new ≠ 2 → e.rd HRT_STATUS.STATE = SrcState new s)) ∧
    (Taken 0 s → s.dev.rd HRT_STATUS.STATE ≠ 4 ∨ s.dev.hearth.loadedSince = false →
       Does .faultClr s [] fun e => e.hearth = s.dev.hearth) ∧
    (Taken 0 s → s.dev.rd HRT_STATUS.STATE = 4 → s.dev.hearth.loadedSince = true →
       Ends .faultClr s fun e => e.valid = true ∧ e.hearth.a = s.dev.hearth.a) ∧
    (s.dev.booted = true → s.dev.pd 0 = true → s.dev.rd HRT_STATUS.STATE = 1 → s.dev.src = 1 →
       Does (.hostLockWrite true) s
         [(HRT_CTRL.HOST_LOCK, 1), (HRT_STATUS.STATE, 2), (HRT_EVENT.STATE_CHG, 1), (HRT_STATUS.TRACEABLE, 1)]
         fun e => e.hearth.a = s.dev.hearth.a) ∧
    (s.dev.booted = true → s.dev.pd 0 = true → s.dev.rd HRT_STATUS.STATE = 2 → s.dev.src = 1 →
       Does (.hostLockWrite false) s
         [(HRT_CTRL.HOST_LOCK, 0), (HRT_STATUS.STATE, 3), (HRT_EVENT.STATE_CHG, 1)]
         fun e => e.hearth.holdFr = 0 ∧ e.hearth.a = s.dev.hearth.a) ∧
    (s.dev.booted = true → s.dev.pd 0 = true → s.dev.rd HRT_STATUS.STATE = 2 → s.dev.pst = 0 → s.dev.isRef = false →
     s.dev.isFirst = false →
       Does (.srcWrite 0) s
         [(HRT_CTRL.SRC, 0), (HRT_STATUS.STATE, 0), (HRT_EVENT.STATE_CHG, 1), (HRT_STATUS.TRACEABLE, 0),
          (PEG_SYNC_STATUS.REF, 0), (PEG_SYNC_STATUS.FIRST, 0)]
         fun e => e.src = 0 ∧ e.hearth.a = s.dev.hearth.a) ∧
    (s.dev.booted = true → s.dev.pd 0 = true → s.dev.rd HRT_STATUS.STATE = 4 → s.dev.hearth.loadedSince = true →
     s.dev.valid = true → s.dev.src = 0 →
       Does .faultClr s
         [(HRT_STATUS.VALID, 1), (HRT_STATUS.STATE, 0), (HRT_EVENT.STATE_CHG, 1), (HRT_STATUS.TRACEABLE, 0)]
         fun e => e.hearth.a = s.dev.hearth.a) ∧
    (s.dev.rd HRT_STATUS.STATE = 2 → s.dev.src = 1 → s.dev.rd HRT_HOST_WDOG.FRAMES ≤ s.dev.hearth.wdogFr →
       Does .hostWdog s
         [(HRT_STATUS.STATE, 3), (HRT_EVENT.STATE_CHG, 1), (HRT_EVENT.HOST_WDOG, 1)]
         fun e => e.hearth.a = s.dev.hearth.a) ∧
    (s.dev.rd HRT_STATUS.STATE = 3 → s.dev.rd HRT_HOLD_LIMIT.FRAMES ≠ 0 →
     s.dev.rd HRT_HOLD_LIMIT.FRAMES ≤ s.dev.hearth.holdFr → s.dev.on HRT_STATUS.TRACEABLE = true →
       Does .holdExpired s [(HRT_STATUS.TRACEABLE, 0), (HRT_EVENT.HOLD_EXPIRED, 1)] fun e => e.hearth = s.dev.hearth) ∧
    (s.dev.rd HRT_STATUS.STATE = 2 → s.dev.src = 3 → s.dev.rd HRT_PPS_IN_CFG.MISS * 8000 ≤ s.dev.hearth.ppsFr →
       Does .ppsMiss s
         [(HRT_STATUS.STATE, 3), (HRT_EVENT.STATE_CHG, 1), (HRT_EVENT.PPS_MISS, 1)]
         fun e => e.hearth.a = s.dev.hearth.a)

/-- A copy that the two others outvote takes their state, with its counter and VOTE_FIX (here with the Sheepdog off; with it
on, contributor 11 is filled too). Three different copies take the state of copy A, the Hearth goes to FAULT and VALID
falls; the parts follow as R41 says (`validChanged`). An edge of PPS_IN at mote m is captured less 3 CLK and COMP (R48,
R53); with another source than PPS it does nothing else. PPS_OUT and FSYNC_OUT end with their width where that ends in
the frame in progress (R49, R50). A frame event, here with no slew running, finds the Hearth in the first CLK of the next
era-extended frame (R33, R34); with it every part does its work of the frame event. -/
def Obligations.HearthVotePulsesAndFrames : Prop :=
  ∀ s : State,
    (∀ (x : HCopy), s.dev.hearth.running = true → s.dev.hearth.b = s.dev.hearth.a → s.dev.hearth.c = s.dev.hearth.a →
     x ≠ s.dev.hearth.a → s.dev.pd 1 = false →
       Does (.hearthVoteFix 0 x) s
         [(HRT_VOTE_CNT.FIX_A, min (s.dev.rd HRT_VOTE_CNT.FIX_A + 1) 255), (HRT_EVENT.VOTE_FIX, 1)]
         fun e => e.hearth = s.dev.hearth) ∧
    (∀ (x : HCopy), s.dev.hearth.running = true → s.dev.hearth.b = s.dev.hearth.a → s.dev.hearth.c = s.dev.hearth.a →
     x ≠ s.dev.hearth.a → s.dev.pd 1 = false →
       Does (.hearthVoteFix 1 x) s
         [(HRT_VOTE_CNT.FIX_B, min (s.dev.rd HRT_VOTE_CNT.FIX_B + 1) 255), (HRT_EVENT.VOTE_FIX, 1)]
         fun e => e.hearth = s.dev.hearth) ∧
    (∀ (x : HCopy), s.dev.hearth.running = true → s.dev.hearth.b = s.dev.hearth.a → s.dev.hearth.c = s.dev.hearth.a →
     x ≠ s.dev.hearth.a → s.dev.pd 1 = false →
       Does (.hearthVoteFix 2 x) s
         [(HRT_VOTE_CNT.FIX_C, min (s.dev.rd HRT_VOTE_CNT.FIX_C + 1) 255), (HRT_EVENT.VOTE_FIX, 1)]
         fun e => e.hearth = s.dev.hearth) ∧
    (∀ (a : HCopy) (b : HCopy) (c : HCopy), s.dev.hearth.running = true → a ≠ b → b ≠ c → a ≠ c → a.t / frMt = s.dev.frame →
     s.dev.rd HRT_STATUS.STATE ≠ 4 →
       Ends (.hearthFault a b c) s fun e => ∃ d, e = validChanged d ∧ d.rd HRT_STATUS.STATE = 4 ∧ d.rd HRT_STATUS.VALID = 0
         ∧ d.rd HRT_STATUS.TRACEABLE = 0 ∧ d.rd HRT_EVENT.HEARTH_FAULT = 1 ∧ d.hearth.a = a ∧ d.hearth.b = a ∧ d.hearth.c = a
         ∧ d.hearth.loadedSince = false) ∧
    (∀ (m : Mote), s.dev.on HRT_PPS_IN_CFG.EN = true → s.dev.src ≠ 3 →
       Does (.ppsEdge m) s
         [(HRT_PPS_CAP_LO.CAP, uns 68 (((atMote m s.dev).nowExt : Int) - 48 - sgn 16 (s.dev.rd HRT_PPS_IN_CFG.COMP)) % 2 ^ 32),
          (HRT_PPS_CAP_HI.CAP, uns 68 (((atMote m s.dev).nowExt : Int) - 48 - sgn 16 (s.dev.rd HRT_PPS_IN_CFG.COMP)) / 2 ^ 32 %
            2 ^ 32)]
         fun e => e.hearth.ppsFr = 0) ∧
    (∀ (k : Nat), s.dev.hearth.ppsEnd = some k → s.dev.clkDue k = true →
       Does .ppsOutEnd s [] fun e => e.hearth.ppsOn = false ∧ e.hearth.ppsActive = false) ∧
    (s.dev.hearth.fsyncOn = true → s.dev.clkDue s.dev.hearth.fsyncEnd = true →
       Does .fsyncOutEnd s [] fun e => e.hearth.fsyncOn = false ∧ e.hearth.fsyncActive = false) ∧
    (∀ (gpi : BitVec 16), s.dev.hearth.running = true → s.dev.booted = true → s.dev.hearth.a.t < 2 ^ 64 →
     s.dev.hearth.a.era < 16 → s.dev.hearth.a.frac < 2 ^ 32 → s.dev.hearth.a.rate.natAbs ≤ 13743895 →
     s.dev.hearth.slewInc = 0 →
       Ends (.frameEvent gpi) s fun e => ∃ d, e = frameEvent (boundsAt d.frameExt) gpi.toNat d ∧ d.now % frMt ≤ 16 ∧
         d.frameExt = (s.dev.frameExt + 1) % 2 ^ 48 ∧ d.sram = s.dev.sram)

/-! ### Rations, tiers and Bivouac (spec/03) -/

/-- The words of retention SRAM but those of ks are the same. -/
abbrev RamElse (d e : Dev) (ks : List Nat) : Prop := ∀ k : Fin 16384, k.val ∉ ks → e.ramWord k.val = d.ramWord k.val

/-- A conversion of the ADC sequence (Table 3.1) shows its reading (R56, R57) and joins the sums of its frame; a low
FEED_VSENSE sample extends the run that R65 counts. A loss is declared once LOSS_N samples in a row are low (R65): LOSS,
its event and counters, the loss record sealed by its CRC (R68), and a gasp queued on CH0 as R67 allows, else skipped.
Later copies follow 1 fr apart or are given up; the first that leaves raises GASP_SENT. -/
def Obligations.FeedSamplesLossAndGasp : Prop :=
  ∀ s : State,
    (∀ (k : Fin 8) (code : Int), s.dev.hearth.running = true → k = 0 ∨ k = 2 ∨ k = 4 → code < 4096 →
       Does (.adcConversion k false code) s
         [(MON_FEED_V.RAW, code.toNat)]
         fun e => e.rat.sumV = s.dev.rat.sumV + code.toNat ∧ e.rat.nV = s.dev.rat.nV + 1 ∧ e.rat.lowRun = (if code.toNat *
           s.dev.rd MON_VSCALE.PER_CODE < s.dev.rd RAT_THR_LOSS.LOSS * 100000 then s.dev.rat.lowRun + 1 else 0) ∧ e.rat.sumI =
           s.dev.rat.sumI) ∧
    (∀ (k : Fin 8) (code : Int), s.dev.hearth.running = true → k = 1 ∨ k = 3 ∨ k = 5 →
       Does (.adcConversion k false code) s
         []
         fun e => e.rat.sumI = s.dev.rat.sumI + code.toNat ∧ e.rat.nI = s.dev.rat.nI + 1 ∧ e.rat.sumV = s.dev.rat.sumV ∧
           e.rat.lowRun = s.dev.rat.lowRun) ∧
    (∀ (code : Int), s.dev.hearth.running = true →
       Does (.adcConversion 6 false code) s
         [(MON_CELL_V.VALUE, code.toNat * s.dev.rd MON_CSCALE.PER_CODE / 1000 % 2 ^ 16)]
         fun e => e.rat = if s.dev.ratOn RAT_STATUS.LOSS then
           { s.dev.rat with cellMin := min s.dev.rat.cellMin (code.toNat * s.dev.rd MON_CSCALE.PER_CODE / 1000 % 2 ^ 16) }
           else s.dev.rat) ∧
    (∀ (q : Int), s.dev.hearth.running = true →
       Does (.adcConversion 7 false q) s
         [(MON_TEMP_MAX.QDEG, uns 12 (tempMax (s.dev.rat.temps.set (s.dev.frame % 4) q))),
          (MON_TEMP.temps, setBits (s.dev.rd MON_TEMP.temps) (8 * (s.dev.frame % 4)) 8 (uns 8 (q.tdiv 4)))]
         fun e => e.rat.temps = s.dev.rat.temps.set (s.dev.frame % 4) q) ∧
    (∀ (m : Mote), s.dev.rd RAT_THR_LOSS.LOSS_N ≤ s.dev.rat.lowRun → s.dev.ratOn RAT_STATUS.LOSS = false →
     s.dev.chan.length = 4 →
       Ends (.feedLoss m) s fun e => Within s.dev e [3, 8, 9, 10, 11, 16, 21, 25, 28] ∧ e.ratOn RAT_STATUS.LOSS = true ∧ e.rd RAT_EVENT.FEED_LOSS
         = 1 ∧ e.rd RAT_EVENT.LOSS_RECORD = 1 ∧ e.rd RAT_LOSS_CNT.LOSSES = min (s.dev.rd RAT_LOSS_CNT.LOSSES + 1) 65535 ∧
         e.ramWord 0 = 0x4C4F5353 ∧ e.ramWord 1 = (s.dev.rat.losses + 1) % 2 ^ 32 ∧ e.ramWord 2 = (atMote m s.dev).now % 2 ^
         32 ∧ e.ramWord 3 = (atMote m s.dev).now / 2 ^ 32 % 2 ^ 32 ∧ e.ramWord 5 = s.dev.feedP % 2 ^ 32 ∧ e.ramWord 7 =
         e.rd RAT_RIDE.MS ∧ e.ramWord 10 = 0 ∧ e.ramWord 15 = crc32 (ramBytes e 15) ∧ (s.dev.gaspOk = true → (e.ch
         0).expq.length = (s.dev.ch 0).expq.length + 1 ∧ bit (e.ramWord 4) 9 = false) ∧ (s.dev.gaspOk = false → e.rd
         RAT_EVENT.GASP_SKIPPED = 1 ∧ bit (e.ramWord 4) 9 = true ∧ (e.ch 0).expq = (s.dev.ch 0).expq)) ∧
    (∀ (m : Mote), s.dev.gaspLink = true → 0 < s.dev.rat.gaspLeft → s.dev.rat.gaspNext ≤ (atMote m s.dev).nowExt →
     s.dev.chan.length = 4 →
       Does (.gaspCopyDue m) s
         []
         fun e => (e.ch 0).expq = (s.dev.ch 0).expq ++ [{ data := gaspFrame s.dev, src := 6, tc := 7, gasp := true }] ∧
           e.rat.gaspLeft = s.dev.rat.gaspLeft - 1 ∧ e.rat.gaspNext = (atMote m s.dev).nowExt + frMt) ∧
    (∀ (m : Mote), s.dev.gaspLink = false → 0 < s.dev.rat.gaspLeft → s.dev.rat.gaspNext ≤ (atMote m s.dev).nowExt →
       Ends (.gaspCopyDue m) s fun e => Only s.dev e [RAT_EVENT.GASP_SKIPPED] ∧ e.rd RAT_EVENT.GASP_SKIPPED = 1 ∧
         e.rat.gaspLeft = 0 ∧ bit (e.ramWord 4) 9 = true ∧ e.ramWord 15 = crc32 (ramBytes e 15)) ∧
    (s.dev.rat.gaspOut = true → bit (s.dev.ramWord 4) 8 = false →
       Ends .gaspSent s fun e => Only s.dev e [RAT_EVENT.GASP_SENT] ∧ e.rd RAT_EVENT.GASP_SENT = 1 ∧ bit (e.ramWord 4) 8 =
         true ∧ e.ramWord 15 = crc32 (ramBytes e 15) ∧ RamElse s.dev e [4, 15])

/-- REF_HOLD_FR frames after HOST_PWR_EN falls REFOUT_EN clears and PD4 goes off, unless a step up that powers it is announced
meanwhile (DEDUCED, assumption log 24); REF_DELAY_FR frames after it rises, 80 frames in the boot that powered PD4, REFOUT_EN
is set (R72, R85). A read of RAT_RET_DATA answers the addressed word, a write stores it outside the loss record and is refused
inside it; the address advances in either case (R68, RAT_RET_ADDR). -/
def Obligations.HostPowerAndRetention : Prop :=
  ∀ s : State,
    (∀ (n : Nat), s.dev.rat.refDown = some n → s.dev.rd RAT_HOST_CFG.REF_HOLD_FR ≤ n → s.dev.hostDue = true →
       Does .refoutStop s [(CLK_CTRL.REFOUT_EN, 0)] fun e => e.rat.refDown = none ∧ e.pd 4 = s.dev.pd 4) ∧
    (∀ (n : Nat), s.dev.rat.refDown = some n → s.dev.rd RAT_HOST_CFG.REF_HOLD_FR ≤ n → s.dev.hostDue = false →
       Does .refoutStop s
         [(CLK_CTRL.REFOUT_EN, 0), (RAT_DOM_STATUS.PD_ON, putBit (s.dev.rd RAT_DOM_STATUS.PD_ON) 4 false)]
         fun e => e.pd 4 = false ∧ e.rat.refDown = none ∧ e.host.released = false) ∧
    (∀ (n : Nat), s.dev.rat.refUp = some n → s.dev.rd RAT_HOST_CFG.REF_DELAY_FR ≤ n → s.dev.boot.step ≠ 3 →
       Does .refoutStart s [(CLK_CTRL.REFOUT_EN, 1)] fun e => e.rat.refUp = none ∧ e.boot.step = 4) ∧
    (∀ (n : Nat), s.dev.rat.refUp = some n → s.dev.boot.step = 3 → s.dev.clkDue (s.dev.boot.stepClk + 80 * frClk) = true →
       Does .refoutStart s [(CLK_CTRL.REFOUT_EN, 1)] fun e => e.rat.refUp = none ∧ e.boot.step = 4) ∧
    (s.dev.booted = true →
       Does .retDataRead s
         [(RAT_RET_ADDR.WORD, (s.dev.rd RAT_RET_ADDR.WORD + 1) % 2 ^ RAT_RET_ADDR.WORD.w)]
         fun e => e.outs = [.read (BitVec.ofNat 32 (s.dev.ramWord (s.dev.rd RAT_RET_ADDR.WORD)))]) ∧
    (∀ (src : BusSrc) (v : Word), Reaches src s → 16 ≤ s.dev.rd RAT_RET_ADDR.WORD →
       Ends (.retDataWrite src v) s fun e => Only s.dev e [RAT_RET_ADDR.WORD] ∧ e.rd RAT_RET_ADDR.WORD = (s.dev.rd
         RAT_RET_ADDR.WORD + 1) % 2 ^ RAT_RET_ADDR.WORD.w ∧ e.ramWord (s.dev.rd RAT_RET_ADDR.WORD) = v.toNat ∧ RamElse s.dev e
         [s.dev.rd RAT_RET_ADDR.WORD]) ∧
    (∀ (src : BusSrc) (v : Word), Reaches src s → s.dev.rd RAT_RET_ADDR.WORD < 16 →
       Does (.retDataWrite src v) s
         [(GLB_BADWR.COUNT, min (s.dev.rd GLB_BADWR.COUNT + 1) (2 ^ 32 - 1)), (GLB_BADWR_INFO.OFFSET, RAT_RET_DATA.addr),
          (GLB_BADWR_INFO.SRC, srcCode src), (GLB_BADWR_INFO.FN, srcFn src),
          (RAT_RET_ADDR.WORD, s.dev.rd RAT_RET_ADDR.WORD + 1)]
         fun _ => True)

/-- BIV_REQ and the wake time are taken as written; a reached timer wakes a part in Bivouac whose caps allow it: WAKE, a wake
of source TIMER, a restore announced for LIFELINE (R74), which LIFELINE ends 2 rounds later with TIER_DONE (R75). -/
def Obligations.BivouacAndWake : Prop :=
  ∀ s : State,
    (Taken 0 s → Does .bivReq s [(RAT_CTRL.BIV_REQ, 1)] fun e => e.rat = s.dev.rat) ∧
    (∀ (hi : Word), Taken 0 s →
       Does (.bivTimerWrite hi) s
         [(RAT_BIV_TIMER_HI.TIME, hi.toNat)]
         fun e => e.rat.timer = some (hi.toNat * 2 ^ 32 + s.dev.rd RAT_BIV_TIMER_LO.TIME)) ∧
    (∀ (m : Mote) (t : Nat), s.dev.rat.timer = some t → t ≤ (atMote m s.dev).now → s.dev.valid = true →
     s.dev.booted = true → 4 ≤ s.dev.tier → s.dev.rat.wakeFr = none → s.dev.capsHold = false →
     s.dev.on RAT_BIV_CFG.WAKE_TIMER = true → s.dev.rat.shadow = none → s.dev.on RAT_DOM_STATUS.PMEM_SR = true →
       Ends (.wakeTimer m) s fun e => e.rd RAT_WAKE_SRC.SRC = 8 ∧ e.rd RAT_BIV_CFG.WAKE_TIMER = 0 ∧ e.rd RAT_CTRL.BIV_REQ =
         0 ∧ e.rd RAT_EVENT.WAKE = 1 ∧ e.rat.wakeFr.isSome = true ∧ e.rat.announced = 3 ∧ e.rd RAT_STATUS.PHASE = 2 ∧ e.rd
         RAT_STATUS.BIV_CAUSE = 0 ∧ e.sram = s.dev.sram) ∧
    (∀ (n : Nat), s.dev.rat.wakeFr = some n → 33 ≤ n → s.dev.booted = true → s.dev.rat.sfEv = true →
     s.dev.ratGet RAT_STATUS.TARGET < 4 →
       Ends .wakeRestoreApply s fun e => e.tier = 3 ∧ e.rd RAT_EVENT.TIER_DONE = 1 ∧ e.rd RAT_TIER_CNT.UP = min (s.dev.rd
         RAT_TIER_CNT.UP + 1) 65535 ∧ e.rat.wakeFr = none ∧
         (((s.dev.chan.drop 1).all fun c => (c.queues.flatten ++ c.expq).all fun x => !x.gasp) = true → e.sram = s.dev.sram))

/-! ### Reset, boot and the image (spec/04) -/

/-- A power-on reset clears everything but what pins show; a cold reset and SYS_RESET_N leave PD0 alone powered, a warm reset
every domain as it is; both keep the retention SRAM and the Hearth, release nothing else than the Keep codes say, and
report their cause (Tables 4.1, 4.2, R76, R77, R79). -/
def Obligations.ResetsBegin : Prop :=
  ∀ s : State,
    (Ends .powerOnReset s fun e => Within {} e [8, 9, 10, 11, 20] ∧ e.sram = [] ∧ e.hearth = {} ∧ e.rat = {} ∧ e.boot.kind =
       some .por ∧ e.boot.asserted = true ∧ e.boot.porLow = true) ∧
    (s.dev.boot.porLow = false →
       Ends .sysResetN s fun e => e.boot.kind = some .cold ∧ e.boot.asserted = true ∧ e.boot.sysLow = true ∧ e.rd
         RST_CAUSE.LAST = 2 ∧ e.rd RST_CAUSE.COUNT = (s.dev.rd RST_CAUSE.COUNT + 1) % 65536 ∧ e.rd RAT_DOM_STATUS.PD_ON = 1 ∧
         e.sram = s.dev.sram ∧ e.hearth.a = s.dev.hearth.a ∧ e.hearth.running = s.dev.hearth.running ∧ e.holds = false) ∧
    (Taken 0 s → s.dev.boot.kind = none →
       Ends .cold s fun e => e.boot.kind = some .cold ∧ e.boot.asserted = true ∧ e.rd RST_CAUSE.LAST = 4 ∧ e.rd
         RST_CAUSE.COUNT = (s.dev.rd RST_CAUSE.COUNT + 1) % 65536 ∧ e.rd RAT_DOM_STATUS.PD_ON = 1 ∧ e.sram = s.dev.sram ∧
         e.hearth.a = s.dev.hearth.a ∧ e.rat.announced = 2 ∧ e.rat.bootFirst = true ∧ e.holds = false) ∧
    (Taken 0 s → s.dev.boot.kind = none →
       Ends .warm s fun e => e.boot.kind = some .warm ∧ e.boot.asserted = true ∧ e.rd RST_CAUSE.LAST = 16 ∧ e.rd
         RST_CAUSE.COUNT = (s.dev.rd RST_CAUSE.COUNT + 1) % 65536 ∧ e.rd RST_BOOT_STATUS.STATE = 11 ∧ e.rd
         RAT_DOM_STATUS.PD_ON = s.dev.rd RAT_DOM_STATUS.PD_ON ∧ e.sram = s.dev.sram ∧ e.hearth.a = s.dev.hearth.a ∧ e.tier =
         s.dev.tier ∧ e.rat.announced = s.dev.rat.announced ∧ e.holds = false)

/-- A power-on reset ends in OTP, then PLL_WAIT; PLL lock starts the Hearth; a cold and a warm reset end in POWER_UP (Table
4.4), a cold one while SYS_RESET_N is high (R77). There PERST_N is read if PD4 is powered (R107). -/
def Obligations.ResetsEnd : Prop :=
  ∀ s : State,
    (s.dev.boot.porLow = true → s.dev.boot.sysLow = false →
       Does .porEnd s
         [(FLD_SMB_STATUS.ADDR, 0x58 + s.dev.fld.smbPins.toNat), (RST_BOOT_STATUS.STATE, 1)]
         fun e => e.boot.porLow = false ∧ e.hearth = s.dev.hearth) ∧
    (∀ (key : Option Bytes) (requireTag : Bool), s.dev.bootSt = 1 → s.dev.boot.porLow = false →
     s.dev.boot.kind = some .por →
       Does (.otpDone key requireTag) s
         [(RST_OTP.KEY_PROG, if key.isSome then 1 else 0), (RST_OTP.REQUIRE_TAG, if requireTag then 1 else 0),
          (RST_BOOT_STATUS.STATE, 2), (RST_BOOT_STATUS.XREF_WAIT, 1)]
         fun e => e.boot.otpKey = key.getD []) ∧
    (s.dev.bootSt = 2 →
       Ends .pllLock s fun e => Within s.dev e [1, 4, 5, 6, 16, 18, 21, 26, 32] ∧ e.sram = s.dev.sram ∧ e.boot.asserted = false ∧ e.boot.frames
         = 0 ∧ e.rd RST_BOOT_STATUS.STATE = 3 ∧ e.rd PMC_STATUS.INIT_DONE = 0 ∧ e.rd CLK_STATUS.PLL_LOCK = 1 ∧ e.rd
         RST_BOOT_STATUS.XREF_WAIT = 0 ∧ e.hearth.running = true ∧ e.hearth.a = s.dev.hearth.a ∧ e.boot.pllOnce = true) ∧
    (s.dev.boot.sysLow = true → s.dev.boot.asserted = true → s.dev.boot.kind = some .cold → s.dev.boot.pllOnce = true →
       Ends .sysResetRelease s fun e => Within s.dev e [4, 5, 6, 16, 18, 21, 26, 32] ∧ e.sram = s.dev.sram ∧ e.boot.asserted = false ∧
         e.boot.frames = 0 ∧ e.rd RST_BOOT_STATUS.STATE = 3 ∧ e.rd PMC_STATUS.INIT_DONE = 0 ∧ e.boot.sysLow = false ∧
         e.boot.step = 0 ∧ e.boot.stepClk = s.dev.hearth.clk) ∧
    (s.dev.boot.sysLow = false → s.dev.boot.asserted = true → s.dev.boot.kind = some .cold → s.dev.boot.pllOnce = true →
       Ends .coldResetEnd s fun e => Within s.dev e [4, 5, 6, 16, 18, 21, 26, 32] ∧ e.sram = s.dev.sram ∧ e.boot.asserted = false ∧
         e.boot.frames = 0 ∧ e.rd RST_BOOT_STATUS.STATE = 3 ∧ e.rd PMC_STATUS.INIT_DONE = 0 ∧ e.boot.step = 0) ∧
    (s.dev.boot.sysLow = true → Does .coldResetEnd s [] fun e => e.boot = s.dev.boot) ∧
    (s.dev.bootSt = 11 → s.dev.boot.kind = some .warm →
       Ends .warmEnd s fun e => Within s.dev e [4, 5, 6, 16, 18, 21, 26, 32] ∧ e.sram = s.dev.sram ∧ e.boot.asserted = false ∧ e.boot.frames =
         0 ∧ e.rd RST_BOOT_STATUS.STATE = 3 ∧ e.rd PMC_STATUS.INIT_DONE = 0 ∧ e.boot.step = 2)

/-- PD1 at tP, PD2 1 fr after it, then, 8 fr after that with packet memory initialised, PD3, PD5 and PD4 with HOST_PWR_EN, each
when its time has come and its rails are good (R83, R85); a rail that is not good is shown in RAIL_WAIT. -/
def Obligations.PowerUpOrder : Prop :=
  ∀ s : State,
    (s.dev.boot.asserted = false → s.dev.bootSt = 3 → s.dev.boot.step = 0 → s.dev.clkDue s.dev.boot.stepClk = true →
     s.dev.boot.rails.getD 1 false = true →
       Ends .powerUpStep s fun e => e.pd 1 = true ∧ e.boot.step = 1 ∧ e.boot.stepClk = s.dev.boot.stepClk ∧ e.rd
         RST_BOOT_STATUS.RAIL_WAIT = 0 ∧ e.rd RST_BOOT_STATUS.STATE = 3 ∧ e.sram = s.dev.sram) ∧
    (s.dev.boot.asserted = false → s.dev.bootSt = 3 → s.dev.boot.step = 1 →
     s.dev.clkDue (s.dev.boot.stepClk + frClk) = true → s.dev.boot.rails.getD 2 false = true →
       Ends .powerUpStep s fun e => e.pd 2 = true ∧ e.boot.step = 2 ∧ e.boot.stepClk = s.dev.boot.stepClk + frClk ∧ e.rd
         RST_BOOT_STATUS.RAIL_WAIT = 0 ∧ e.sram = s.dev.sram) ∧
    (s.dev.boot.asserted = false → s.dev.bootSt = 3 → s.dev.boot.step = 2 →
     s.dev.clkDue (s.dev.boot.stepClk + 8 * frClk) = true → s.dev.on PMC_STATUS.INIT_DONE = true →
     s.dev.boot.kind = some .cold → s.dev.boot.wakeBoot = false → s.dev.railsMissing = [] →
       Ends .powerUpStep s fun e => e.pd 3 = true ∧ e.pd 4 = true ∧ e.pd 5 = true ∧ e.boot.step = 3 ∧ e.rat.hostPwr = true ∧
         e.rd RST_BOOT_STATUS.STATE = 4 ∧ e.sram = s.dev.sram) ∧
    (s.dev.boot.asserted = false → s.dev.bootSt = 3 → s.dev.boot.step < 3 → s.dev.clkDue s.dev.stepDue = false →
       Does .powerUpStep s [] fun e => e.boot = s.dev.boot ∧ e.hearth = s.dev.hearth) ∧
    (s.dev.boot.asserted = false → s.dev.bootSt = 3 → s.dev.boot.step = 0 → s.dev.clkDue s.dev.boot.stepClk = true →
     s.dev.boot.rails.getD 1 false = false →
       Does .powerUpStep s [(RST_BOOT_STATUS.RAIL_WAIT, 2)] fun e => e.boot = s.dev.boot) ∧
    (∀ (k : Fin 7), s.dev.rd RST_BOOT_STATUS.RAIL_WAIT = 0 →
       Does (.railGood k) s [] fun e => e.boot.rails = s.dev.boot.rails.set k true) ∧
    (s.dev.rd RST_BOOT_STATUS.RAIL_WAIT ≠ 0 → s.dev.boot.step = 0 → s.dev.boot.rails.length = 7 →
       Ends (.railGood 1) s fun e => e.boot.rails = s.dev.boot.rails.set 1 true ∧ e.pd 1 = true ∧ e.boot.step = 1 ∧
         e.boot.stepClk = s.dev.hearth.clk ∧ e.rd RST_BOOT_STATUS.RAIL_WAIT = 0) ∧
    (s.dev.bootSt = 3 → s.dev.boot.step = 2 → s.dev.boot.asserted = false → s.dev.on PMC_STATUS.INIT_DONE = false →
     s.dev.clkDue s.dev.stepDue = true →
       Ends .pmemInitDone s fun e => Within s.dev e [16, 21] ∧ e.sram = s.dev.sram ∧ e.rd PMC_STATUS.INIT_DONE = 1 ∧ e.boot =
         s.dev.boot)

/-- FIND reports each slot (Table 4.9) and orders the candidates, the higher GEN first, A before B on a tie (R96), and reads the
first whole; flash that does not answer reads as all ones, which is a BLANK slot (R86); VERIFY takes the first that passes
and drops one that does not; APPLY reports what it applied. ADMIT evaluates R222; without a valid slot DEFAULTS reports
CFG_DEFAULTED and HOLD (R101); BOOT_DONE comes at the next frame event, in RUN or in HOLD, and RELEASE leads from HOLD to
RUN (R89, R102). -/
def Obligations.BootSlotsAndEnds : Prop :=
  ∀ s : State,
    (∀ (slotA : Bytes) (slotB : Bytes) (cal : Bytes), s.dev.bootSt = 4 →
     findCode (s.dev.on RST_OTP.REQUIRE_TAG) (flashTaken 64 slotA) = 0 →
     findCode (s.dev.on RST_OTP.REQUIRE_TAG) (flashTaken 64 slotB) = 0 →
       Does (.findDone slotA slotB cal) s
         [(RST_SLOT_A.RESULT, 0), (RST_SLOT_A_GEN.GEN, u32 (flashTaken 64 slotA) 8), (RST_SLOT_B.RESULT, 0),
          (RST_SLOT_B_GEN.GEN, u32 (flashTaken 64 slotB) 8), (RST_BOOT_STATUS.STATE, 5)]
         fun e => e.boot.cands = (if u32 (flashTaken 64 slotB) 8 ≤ u32 (flashTaken 64 slotA) 8 then [1, 2] else [2, 1]) ∧
           e.boot.calPage = flashTaken 4096 cal ∧ e.outs =
           [if u32 (flashTaken 64 slotB) 8 ≤ u32 (flashTaken 64 slotA) 8 then
              .flashRead 0x6C 0x100000 (imgLen (flashTaken 64 slotA))
            else .flashRead 0x6C 0x500000 (imgLen (flashTaken 64 slotB))]) ∧
    (∀ (slotA : Bytes) (slotB : Bytes) (cal : Bytes), s.dev.bootSt = 4 →
     findCode (s.dev.on RST_OTP.REQUIRE_TAG) (flashTaken 64 slotA) ≠ 0 →
     findCode (s.dev.on RST_OTP.REQUIRE_TAG) (flashTaken 64 slotB) ≠ 0 →
       Does (.findDone slotA slotB cal) s
         [(RST_SLOT_A.RESULT, findCode (s.dev.on RST_OTP.REQUIRE_TAG) (flashTaken 64 slotA)),
          (RST_SLOT_A_GEN.GEN, if findCode (s.dev.on RST_OTP.REQUIRE_TAG) (flashTaken 64 slotA) = 3 then 0 else
            u32 (flashTaken 64 slotA) 8),
          (RST_SLOT_B.RESULT, findCode (s.dev.on RST_OTP.REQUIRE_TAG) (flashTaken 64 slotB)),
          (RST_SLOT_B_GEN.GEN, if findCode (s.dev.on RST_OTP.REQUIRE_TAG) (flashTaken 64 slotB) = 3 then 0 else
            u32 (flashTaken 64 slotB) 8),
          (RST_BOOT_STATUS.STATE, 8)]
         fun e => e.boot.cands = [] ∧ e.outs = []) ∧
    (∀ (cal : Bytes), s.dev.bootSt = 4 →
       Does (.findDone [] [] cal) s
         [(RST_SLOT_A.RESULT, 3), (RST_SLOT_A_GEN.GEN, 0), (RST_SLOT_B.RESULT, 3), (RST_SLOT_B_GEN.GEN, 0),
          (RST_BOOT_STATUS.STATE, 8)]
         fun e => e.boot.cands = []) ∧
    (∀ (bs : Bytes), s.dev.bootSt = 5 → s.dev.boot.cands = [1, 2] →
     (flashTaken (imgLen s.dev.boot.hdrA) bs).take 64 = s.dev.boot.hdrA →
     verifyCode (s.dev.on RST_OTP.KEY_PROG) s.dev.boot.otpKey (flashTaken (imgLen s.dev.boot.hdrA) bs) = (1, 65535) →
       Does (.verifyDone bs) s
         [(RST_SLOT_B.RESULT, 2), (RST_BOOT_STATUS.STATE, 6),
          (RST_BOOT_STATUS.CAL_SRC, if calOk s.dev.boot.calPage then 0 else
            if (records (flashTaken (imgLen s.dev.boot.hdrA) bs)).any (fun r => r.ty == 0x20) then 1 else 2),
          (RST_EVENT.CAL_DEFAULT, if calOk s.dev.boot.calPage then s.dev.rd RST_EVENT.CAL_DEFAULT else 1)]
         fun e => e.boot.cands = [1] ∧ e.boot.image = flashTaken (imgLen s.dev.boot.hdrA) bs ∧ e.boot.applied = 0 ∧
           e.boot.applyClk = s.dev.hearth.clk) ∧
    (∀ (bs : Bytes), s.dev.bootSt = 5 → s.dev.boot.cands = [1, 2] →
     (flashTaken (imgLen s.dev.boot.hdrA) bs).take 64 = s.dev.boot.hdrA →
     checkOk (flashTaken (imgLen s.dev.boot.hdrA) bs) = false →
       Does (.verifyDone bs) s
         [(RST_SLOT_A.RESULT, 8), (RST_SLOT_A.FAIL_REC, 65535), (RST_BOOT_STATUS.STATE, 5)]
         fun e => e.boot.cands = [2] ∧ e.outs = [.flashRead 0x6C 0x500000 (imgLen s.dev.boot.hdrB)]) ∧
    (∀ (slotA : Bytes) (slotB : Bytes) (cal : Bytes), s.dev.bootSt = 4 →
       Ends (.findDone slotA slotB cal) s fun e => Within s.dev e [4] ∧ e.sram = s.dev.sram ∧ e.rd RST_SLOT_A.RESULT = findCode
         (s.dev.on RST_OTP.REQUIRE_TAG) (flashTaken 64 slotA) ∧ e.rd RST_SLOT_B.RESULT = findCode (s.dev.on
         RST_OTP.REQUIRE_TAG) (flashTaken 64 slotB) ∧ (∀ sl : Nat, e.boot.cands.contains sl = true ↔ sl = 1 ∧ e.rd
         RST_SLOT_A.RESULT = 0 ∨ sl = 2 ∧ e.rd RST_SLOT_B.RESULT = 0) ∧ e.rd RST_BOOT_STATUS.STATE = (if e.boot.cands = [] then
         8 else 5)) ∧
    (∀ (bs : Bytes) (sl : Nat) (rest : List Nat) (hdr : Bytes), s.dev.bootSt = 5 → s.dev.boot.cands = sl :: rest →
     sl = 1 ∧ hdr = s.dev.boot.hdrA ∨ sl = 2 ∧ hdr = s.dev.boot.hdrB → (flashTaken (imgLen hdr) bs).take 64 = hdr →
       Ends (.verifyDone bs) s fun e => Within s.dev e [4] ∧ e.sram = s.dev.sram ∧
         (if (verifyCode (s.dev.on RST_OTP.KEY_PROG) s.dev.boot.otpKey (flashTaken (imgLen hdr) bs)).1 = 1 then
            e.rd RST_BOOT_STATUS.STATE = 6 ∧ e.boot.cands = [sl] ∧ e.boot.image = flashTaken (imgLen hdr) bs
          else e.rd RST_BOOT_STATUS.STATE = (if rest = [] then 8 else 5) ∧ e.boot.cands = rest)) ∧
    (s.dev.bootSt = 6 → s.dev.boot.cands = [1] →
       Ends .applyDone s fun e => e.rd RST_BOOT_STATUS.STATE = 7 ∧ e.rd RST_SLOT_A.RESULT = 1 ∧ e.rd RST_BOOT_STATUS.SLOT = 1 ∧
         e.rd RST_BOOT_GEN.GEN = u32 s.dev.boot.image 8 % 2 ^ 32) ∧
    (s.dev.bootSt = 6 → s.dev.boot.cands = [2] →
       Ends .applyDone s fun e => Only (applyTo s.dev.applyActs.length { s.dev with outs := [] }) e [RST_SLOT_B.RESULT,
         RST_BOOT_STATUS.SLOT, RST_BOOT_GEN.GEN, RST_BOOT_STATUS.TAG_CHECKED, RST_BOOT_STATUS.TAG_UNCHECKED,
         RST_BOOT_STATUS.STATE] ∧ e.rd RST_BOOT_STATUS.STATE = 7 ∧ e.rd RST_SLOT_B.RESULT = 1 ∧ e.rd RST_BOOT_STATUS.SLOT =
         2 ∧ e.rd RST_BOOT_GEN.GEN = u32 s.dev.boot.image 8 % 2 ^ 32) ∧
    (s.dev.bootSt = 7 → s.dev.boot.ready = false →
       Ends .admitDone s fun e => Within s.dev e [4, 16] ∧ e.sram = s.dev.sram ∧ e.boot.ready = true ∧ e.rd
         PMC_STATUS.LAST_SRC = 0 ∧ ((e.rd RST_BOOT_STATUS.OVERBOOK = 1 ∧ e.rd RST_EVENT.OVERBOOK = 1 ∧ e.rd
         PMC_STATUS.LAST_RESULT = 2) ∨ (e.rd PMC_STATUS.LAST_RESULT = 1 ∧ e.rd RST_BOOT_STATUS.OVERBOOK = s.dev.rd
         RST_BOOT_STATUS.OVERBOOK))) ∧
    (s.dev.bootSt = 8 → s.dev.boot.ready = false → calOk s.dev.boot.calPage = false →
       Ends .defaultsDone s fun e => Only (romDefaults s.dev) e [RST_BOOT_STATUS.CFG_DEFAULTED, RST_BOOT_STATUS.HOLD,
         RST_BOOT_STATUS.CAL_SRC, RST_EVENT.DEFAULTED, RST_EVENT.CAL_DEFAULT] ∧ e.rd RST_BOOT_STATUS.CFG_DEFAULTED = 1 ∧
         e.rd RST_BOOT_STATUS.HOLD = 1 ∧ e.rd RST_BOOT_STATUS.CAL_SRC = 2 ∧ e.rd RST_EVENT.DEFAULTED = 1 ∧
         e.rd RST_EVENT.CAL_DEFAULT = 1 ∧ e.rd RST_BOOT_STATUS.STATE = 8 ∧ e.boot.ready = true ∧ e.sram = s.dev.sram) ∧
    (s.dev.bootSt = 8 → s.dev.boot.ready = false →
       Ends .defaultsDone s fun e => e.rd RST_BOOT_STATUS.CFG_DEFAULTED = 1 ∧ e.rd RST_BOOT_STATUS.HOLD = 1 ∧ e.rd
         RST_EVENT.DEFAULTED = 1 ∧ e.boot.ready = true) ∧
    (s.dev.boot.ready = true → s.dev.boot.due = true → s.dev.bootSt = 7 ∨ s.dev.bootSt = 8 →
       Ends .bootDone s fun e => e.rd RST_EVENT.BOOT_DONE = 1 ∧ e.rd RST_BOOT_STATUS.STATE = (if s.dev.on
         RST_BOOT_STATUS.HOLD then 9 else 10) ∧ e.rd RST_BOOT_TIME.FR = s.dev.boot.frames % 2 ^ RST_BOOT_TIME.FR.w ∧
         e.boot.kind = none ∧ e.rat.shadow = none ∧ e.booted = true ∧ e.sram = s.dev.sram) ∧
    (Taken 0 s → s.dev.bootSt = 9 → s.dev.boot.release = false →
       Does .release s [] fun e => e.boot.release = true ∧ e.boot.due = false) ∧
    (s.dev.bootSt = 9 → s.dev.boot.release = true → s.dev.boot.due = true →
       Ends .holdExit s fun e => e.rd RST_BOOT_STATUS.HOLD = 0 ∧ e.rd RST_BOOT_STATUS.STATE = 10 ∧ e.boot.release = false ∧
         e.sram = s.dev.sram)

/-! ### Host interface and the Kennel (spec/05) -/

/-- PERST_N, a hot reset, a link-down and LINK_EN cleared each take the link down, put every ACTIVE function into the Kennel
with a new epoch, clear VF Enable and the interrupt set-up (R109, R118, Table 5.8). A release of PERST_N is seen while PD4
is powered, early without REFOUT_READY (R107); REFOUT is ready after 8 fr; the link then comes up at the speed and width
that the limits allow (R108). -/
def Obligations.HostResetsAndLink : Prop :=
  ∀ s : State,
    (s.dev.pd 4 = true → s.dev.on HIF_STATUS.PERST = false →
       Ends .perstAssert s fun e => Within s.dev e [5, 6, 16, 18, 21, 26, 32] ∧ e.sram = s.dev.sram ∧ e.rd HIF_STATUS.DL_UP = 0
         ∧ e.rd HIF_STATUS.VF_ENABLE = 0 ∧ e.rd HIF_STATUS.NUMVFS = 0 ∧ e.rd INT_FN0_MASK.MASK = 2 ^ 21 - 1 ∧ e.hearth =
         s.dev.hearth ∧ (s.dev.fnState 0 = 1 → e.fnState 0 = 2 ∧ e.epoch 0 = (s.dev.epoch 0 + 1) % 256) ∧ e.rd
         HIF_STATUS.PERST = 1 ∧ e.rd HIF_EVENT.PERST = 1 ∧ e.host.perstLow = true ∧ e.host.released = false) ∧
    (s.dev.on HIF_STATUS.DL_UP = true →
       Ends .hifLinkDown s fun e => Within s.dev e [5, 6, 16, 18, 21, 26, 32] ∧ e.sram = s.dev.sram ∧ e.rd HIF_STATUS.DL_UP = 0
         ∧ e.rd HIF_STATUS.VF_ENABLE = 0 ∧ e.rd HIF_STATUS.NUMVFS = 0 ∧ e.rd INT_FN0_MASK.MASK = 2 ^ 21 - 1 ∧ e.hearth =
         s.dev.hearth ∧ (s.dev.fnState 0 = 1 → e.fnState 0 = 2 ∧ e.epoch 0 = (s.dev.epoch 0 + 1) % 256) ∧ e.rd
         HIF_EVENT.LINK_DOWN = 1) ∧
    (s.dev.on HIF_STATUS.DL_UP = true →
       Ends .hotReset s fun e => Within s.dev e [5, 6, 16, 18, 21, 26, 32] ∧ e.sram = s.dev.sram ∧ e.rd HIF_STATUS.DL_UP = 0 ∧
         e.rd HIF_STATUS.VF_ENABLE = 0 ∧ e.rd HIF_STATUS.NUMVFS = 0 ∧ e.rd INT_FN0_MASK.MASK = 2 ^ 21 - 1 ∧ e.hearth =
         s.dev.hearth ∧ (s.dev.fnState 0 = 1 → e.fnState 0 = 2 ∧ e.epoch 0 = (s.dev.epoch 0 + 1) % 256) ∧ e.rd
         HIF_EVENT.LINK_DOWN = 1 ∧ e.rd HIF_EVENT.HOT_RESET = 1) ∧
    (Taken 4 s → s.dev.on HIF_CTRL.LINK_EN = true → s.dev.on HIF_STATUS.DL_UP = true →
       Ends .linkEnClear s fun e => Within s.dev e [5, 6, 16, 18, 21, 26, 32] ∧ e.sram = s.dev.sram ∧ e.rd HIF_STATUS.DL_UP = 0
         ∧ e.rd HIF_STATUS.VF_ENABLE = 0 ∧ e.rd HIF_STATUS.NUMVFS = 0 ∧ e.rd INT_FN0_MASK.MASK = 2 ^ 21 - 1 ∧ e.hearth =
         s.dev.hearth ∧ (s.dev.fnState 0 = 1 → e.fnState 0 = 2 ∧ e.epoch 0 = (s.dev.epoch 0 + 1) % 256) ∧ e.rd
         HIF_CTRL.LINK_EN = 0) ∧
    (s.dev.pd 4 = true → s.dev.on HIF_STATUS.PERST = true → s.dev.on HIF_STATUS.REFOUT_READY = true →
       Does .perstRelease s
         [(HIF_STATUS.PERST, 0)]
         fun e => e.host.perstLow = false ∧ e.host.released = true ∧ e.host.subsys = s.dev.word HIF_SUBSYS.addr) ∧
    (s.dev.pd 4 = true → s.dev.on HIF_STATUS.PERST = true → s.dev.on HIF_STATUS.REFOUT_READY = false →
       Does .perstRelease s
         [(HIF_STATUS.PERST, 0), (HIF_EVENT.PERST_EARLY, 1)]
         fun e => e.host.perstLow = false ∧ e.host.released = true) ∧
    (s.dev.on CLK_STATUS.REFOUT_ON = true → 8 ≤ s.dev.host.refFr →
       Does .refoutReady s [(HIF_STATUS.REFOUT_READY, 1)] fun e => e.host = s.dev.host) ∧
    (∀ (speed : Fin 8) (width : Fin 8), s.dev.pd 4 = true → s.dev.on HIF_STATUS.PERST = false →
     s.dev.on HIF_STATUS.REFOUT_READY = true → s.dev.on HIF_CTRL.LINK_EN = true → s.dev.on HIF_STATUS.DL_UP = false →
       Does (.hifLinkUp speed width) s
         [(HIF_STATUS.DL_UP, 1),
          (HIF_STATUS.SPEED, min speed.val (s.dev.rd HIF_CTRL.MAX_SPEED + 1) % 2 ^ HIF_STATUS.SPEED.w),
          (HIF_STATUS.WIDTH, min width.val (s.dev.rd HIF_CTRL.MAX_WIDTH) % 2 ^ HIF_STATUS.WIDTH.w), (HIF_EVENT.LINK_UP, 1)]
         fun e => e.host = s.dev.host)

/-- VF Enable makes VFs ACTIVE or HELD, an FLR or HOLD puts an ACTIVE one into the Kennel with a new epoch and no other (Table
5.6, R118); KENNEL_DONE leaves it once the purge has ended, the wire holds no frame of the function and no job runs, and
says how long it took (R120). Configuration Requests act from BOOT_DONE on (R88). -/
def Obligations.Functions : Prop :=
  ∀ s : State,
    (∀ (f : Fin 16), s.dev.booted = true → f ≠ 0 → s.dev.fnState f.val = 1 →
       Ends (.flr f) s fun e => Within s.dev e [5, 6, 16, 18, 21, 26, 32] ∧ e.sram = s.dev.sram ∧ e.fnState f.val = 2 ∧ e.epoch
         f.val = (s.dev.epoch f.val + 1) % 256 ∧ e.rd HIF_KENNEL_CNT.CAUSES = min (s.dev.rd HIF_KENNEL_CNT.CAUSES + 1) 65535 ∧
         (∀ g : Fin 16, g ≠ f → e.fnState g.val = s.dev.fnState g.val ∧ e.epoch g.val = s.dev.epoch g.val) ∧ e.rd
         HIF_EVENT.VF_FLR = 1) ∧
    (∀ (f : Fin 16), Taken 4 s → f ≠ 0 → s.dev.fnState f.val = 1 → s.dev.holdOf f.val = false →
       Ends (.vfHoldSet f) s fun e => Within s.dev e [5, 6, 16, 18, 21, 26, 32] ∧ e.sram = s.dev.sram ∧ e.fnState f.val = 2 ∧
         e.epoch f.val = (s.dev.epoch f.val + 1) % 256 ∧ e.rd HIF_KENNEL_CNT.CAUSES = min (s.dev.rd HIF_KENNEL_CNT.CAUSES + 1)
         65535 ∧ (∀ g : Fin 16, g ≠ f → e.fnState g.val = s.dev.fnState g.val ∧ e.epoch g.val = s.dev.epoch g.val) ∧ e.holdOf
         f.val = true) ∧
    (∀ (f : Fin 16), Taken 4 s → f ≠ 0 → s.dev.fnState f.val = 3 →
       Ends (.vfHoldClear f) s fun e => Only s.dev e [HIF_VF_HOLD.HOLD, HIF_VF_STATE.VF] ∧ e.sram = s.dev.sram ∧ e.holdOf
         f.val = false ∧ e.fnState f.val = (if s.dev.vfEnabled f.val then 1 else 0)) ∧
    (∀ (num : Fin 16), s.dev.booted = true → s.dev.fnState 0 ≠ 0 → s.dev.on HIF_STATUS.VF_ENABLE = false →
       Ends (.vfEnable num) s fun e => Within s.dev e [5] ∧ e.sram = s.dev.sram ∧ e.rd HIF_STATUS.VF_ENABLE = 1 ∧ e.rd
         HIF_STATUS.NUMVFS = num.val ∧ e.rd HIF_EVENT.VF_ENABLE_CHG = 1 ∧ (∀ f : Fin 16, f ≠ 0 → e.fnState f.val = (if f.val ≤
         num.val ∧ s.dev.fnState f.val = 0 then (if s.dev.holdOf f.val then 3 else 1) else s.dev.fnState f.val))) ∧
    (s.dev.booted = true → s.dev.fnState 0 ≠ 0 → s.dev.on HIF_STATUS.VF_ENABLE = true →
       Ends .vfEnableClear s fun e => Within s.dev e [5, 6, 16, 18, 21, 26, 32] ∧ e.sram = s.dev.sram ∧ e.rd
         HIF_STATUS.VF_ENABLE = 0 ∧ e.rd HIF_STATUS.NUMVFS = 0 ∧ e.rd HIF_EVENT.VF_ENABLE_CHG = 1 ∧ e.fnState 0 =
         s.dev.fnState 0 ∧ (∀ f : Fin 16, f ≠ 0 → e.fnState f.val = (if s.dev.fnState f.val = 1 then 2 else if s.dev.fnState
         f.val = 3 then 0 else s.dev.fnState f.val))) ∧
    (∀ (f : Fin 16) (m : Mote), s.dev.fnState f.val = 2 → s.dev.kennelEnd f.val ≤ (atMote m s.dev).hearth.clk →
     wireHolds f.val s.dev = false → s.dev.cmpDraining (fun r => s.dev.ringFn r == some f.val) = false →
       Ends (.kennelDone f m) s fun e => Within s.dev e [5, 16, 21] ∧ e.sram = s.dev.sram ∧ e.rd HIF_KENNEL_STAT.FN = (if
         (s.dev.fn f.val).kAll then 0 else f.val) ∧ e.rd HIF_KENNEL_STAT.CAUSE = (s.dev.fn f.val).kCause % 2 ^
         HIF_KENNEL_STAT.CAUSE.w ∧ e.rd HIF_KENNEL_STAT.FR = min (((atMote m s.dev).hearth.clk - (s.dev.fn f.val).kT0 +
         65535) / 65536) 4095 ∧ e.rd HIF_EVENT.KENNEL_DONE = 1 ∧ e.fnState f.val = (if
         s.dev.holdOf f.val then 3 else if f ≠ 0 ∧ s.dev.vfEnabled f.val = false then 0 else 1)) ∧
    (∀ (f : Fin 16) (m : Mote), s.dev.fnState f.val = 2 → (atMote m s.dev).hearth.clk < s.dev.kennelEnd f.val →
       Does (.kennelDone f m) s [] fun e => e.host = s.dev.host)

/-- An assignment that fits is taken, another is refused (R114); interrupt masks are per function (R116); a D-state change and
an unsupported request are reported (R112, R125); configuration requests act on their function, and answer retry before
BOOT_DONE (R88). One to a VF that is not enabled is answered as unsupported (the model's choice, assumption log 66). -/
def Obligations.FunctionSetUp : Prop :=
  ∀ s : State,
    (∀ (src : BusSrc) (f : Fin 16) (which : Fin 3) (x : Word), Reaches src s → f ≠ 0 →
     regBad (assignOff f.val which.val) x.toNat s.dev = false →
     assignFits f.val which.val (s.dev.setWord (assignOff f.val which.val) x.toNat) = true →
     s.dev.fnState f.val = 0 ∨ s.dev.fnState f.val = 3 →
       Ends (.fnAssign src f which x) s fun e => Only s.dev e [⟨assignOff f.val which.val, 0, 32⟩] ∧ e.sram = s.dev.sram ∧
         e.word (assignOff f.val which.val) = x.toNat ∧ e.host = s.dev.host) ∧
    (∀ (src : BusSrc) (f : Fin 16) (which : Fin 3) (x : Word), Reaches src s →
     assignFits f.val which.val (s.dev.setWord (assignOff f.val which.val) x.toNat) = false →
       Does (.fnAssign src f which x) s
         [(GLB_BADWR.COUNT, min (s.dev.rd GLB_BADWR.COUNT + 1) (2 ^ 32 - 1)),
          (GLB_BADWR_INFO.OFFSET, (assignOff f.val which.val)), (GLB_BADWR_INFO.SRC, srcCode src),
          (GLB_BADWR_INFO.FN, srcFn src), (HIF_EVENT.ASSIGN_REFUSED, 1)]
         fun _ => True) ∧
    (∀ (x : BitVec 21), Taken 1 s →
       Does (.intMaskWrite 0 x) s
         [(INT_FN0_MASK.MASK, x.toNat)]
         fun e => (s.dev.rd INT_FN0_STATUS.BLOCK = 0 → e.host = s.dev.host ∧ e.outs = [])) ∧
    (∀ (f : Fin 16) (x : BitVec 21), s.dev.booted = true → f ≠ 0 → s.dev.aperture f.val = true → x.toNat < 16 →
     s.dev.host.fns.length = 16 → Does (.intMaskWrite f x) s [] fun e => (e.fn f.val).vfMask = x.toNat) ∧
    (∀ (f : Fin 16) (d3 : Bool), s.dev.booted = true → s.dev.fnState f.val ≠ 0 → f ≠ 0 → (s.dev.fn f.val).d3 ≠ d3 →
     d3 = true ∨ (s.dev.fn f.val).bme = false → s.dev.host.fns.length = 16 →
       Does (.dstateChange f d3) s [(HIF_EVENT.DSTATE_CHG, 1)] fun e => (e.fn f.val).d3 = d3) ∧
    (∀ (d3 : Bool), s.dev.booted = true → s.dev.fnState 0 ≠ 0 → (s.dev.fn 0).d3 ≠ d3 →
     d3 = true ∨ (s.dev.fn 0).bme = false → s.dev.host.fns.length = 16 →
       Does (.dstateChange 0 d3) s
         [(HIF_EVENT.DSTATE_CHG, 1), (HIF_STATUS.PF0_DSTATE, if d3 then 3 else 0)]
         fun e => (e.fn 0).d3 = d3) ∧
    (∀ (f : Fin 16), s.dev.booted = true → s.dev.closedVf f.val = true →
       Does (.unsupportedRequest f) s
         [(HIF_UR_CNT.COUNT, min (s.dev.rd HIF_UR_CNT.COUNT + 1) 65535)]
         fun e => e.outs = [.unsupported]) ∧
    (∀ (f : Fin 16) (off : Nat), s.dev.booted = true → s.dev.fnState f.val ≠ 0 →
       Does (.configRequest f (.read off)) s
         []
         fun e => (off = 0 → e.outs = [.read (if f = 0 then 0x04C71F3C#32 else 0xFFFFFFFF#32)]) ∧ (off = 8 → e.outs = [.read
           0x028000B1#32]) ∧ (off = 0x2C → e.outs = [.read (BitVec.ofNat 32 s.dev.host.subsys)]) ∧ e.host = s.dev.host) ∧
    (∀ (f : Fin 16) (mse : Bool) (bme : Bool), s.dev.booted = true → s.dev.fnState f.val ≠ 0 →
     s.dev.fnLive f.val = true ∨ bme = false → s.dev.host.fns.length = 16 →
       Does (.configRequest f (.command mse bme)) s [] fun e => (e.fn f.val).mse = mse ∧ (e.fn f.val).bme = bme) ∧
    (∀ (f : Fin 16) (q : CfgReq), s.dev.booted = true → s.dev.fnState f.val = 0 →
       Does (.configRequest f q) s
         [(HIF_UR_CNT.COUNT, min (s.dev.rd HIF_UR_CNT.COUNT + 1) 65535)]
         fun e => e.outs = [.unsupported] ∧ e.host = s.dev.host) ∧
    (∀ (f : Fin 16) (q : CfgReq), s.dev.booted = false →
       Does (.configRequest f q) s [(HIF_STATUS.CRS, 1)] fun e => e.outs = [.cfgRetry] ∧ e.host = s.dev.host)

/-- No request line holds a request (R152). -/
abbrev NoRequests (s : State) : Prop := ∀ l ∈ s.dev.host.prq, l.q = []

/-- The one outstanding read is of function 0, of its epoch, for use u; no other waits. -/
abbrev OneRead (t : Nat) (u : Use) (s : State) : Prop :=
  s.dev.host.reads = [{ tag := t, fn := 0, epoch := 0, use := u }] ∧ s.dev.epoch 0 = 0 ∧ s.dev.host.wants = [] ∧ NoRequests s

/-- Only ring r is set up. -/
abbrev OnlyRing (r : Nat) (s : State) : Prop := s.dev.host.rings.map (·.1) = [r]

/-- No upset stands in the queue SRAM of a channel (Table 18.3). -/
abbrev QueuesClean (s : State) : Prop := ∀ n : Fin 4, s.dev.queueBad n.val = false

/-- A completion timeout and a poisoned completion are counted and reported (R106); a descriptor fetch that fails stops its
ring with the cause in DMA_RING_ERR (R131). Owned descriptors of a fetch are taken in order and the first unowned one
stops the fetch (R130); payload joins its descriptor (R121); a freed descriptor tag lets the ring fetch (R132). -/
def Obligations.FetchPayloadAndFailures : Prop :=
  ∀ s : State,
    (∀ (t : Nat) (r : Nat) (n : Nat), OneRead t (.desc r n) s →
       Ends (.cplTimeout t) s fun e => e.rd HIF_CTO_CNT.COUNT = min (s.dev.rd HIF_CTO_CNT.COUNT + 1) 65535 ∧ e.rd
         HIF_EVENT.CPL_TIMEOUT = 1 ∧ Out.aer 0 false ∈ e.outs ∧ e.rd DMA_EVENT.RING_ERR = 1 ∧ e.rd DMA_RING_ERR.RING = r % 2 ^ DMA_RING_ERR.RING.w ∧ e.rd
         DMA_RING_ERR.CAUSE = 1 ∧ e.rd DMA_FETCH_ERR_CNT.COUNT = min (s.dev.rd DMA_FETCH_ERR_CNT.COUNT + 1) (2 ^
         DMA_FETCH_ERR_CNT.COUNT.w - 1)) ∧
    (∀ (t : Nat) (r : Nat) (n : Nat), OneRead t (.desc r n) s →
       Ends (.poisoned t) s fun e => e.rd HIF_POISON_CNT.COUNT = min (s.dev.rd HIF_POISON_CNT.COUNT + 1) 65535 ∧ e.rd
         HIF_EVENT.POISONED = 1 ∧ Out.aer 0 true ∈ e.outs ∧ e.rd DMA_EVENT.RING_ERR = 1 ∧ e.rd DMA_RING_ERR.CAUSE = 0) ∧
    (∀ (t : Nat) (timedOut : Bool) (r : Nat) (n : Nat), OneRead t (.desc r n) s → OnlyRing r s → (s.dev.ring r).st = 2 →
     (s.dev.ring r).taken = [] → r < 128 →
       Ends (.fetchFail t timedOut) s fun e => e.rd DMA_EVENT.RING_ERR = 1 ∧ e.rd DMA_RING_ERR.RING = r % 2 ^
         DMA_RING_ERR.RING.w ∧ e.rd DMA_RING_ERR.CAUSE = (if timedOut then 1 else 0) ∧ (e.ring r).err = true) ∧
    (∀ (t : Nat) (bs : Bytes) (r : Nat) (n : Nat), OneRead t (.desc r n) s → OnlyRing r s → ringKind r = 1 → (s.dev.ring r).st = 2 →
     (s.dev.ring r).rxq = [] → (s.dev.ring r).taken = [] → (s.dev.ring r).prod = ((s.dev.ring r).cons + n) % 65536 →
     (s.dev.ring r).cyclic = false → n ≤ 8 → (s.dev.ring r).cons < 65536 → bs.length = 32 * n →
     ((List.range n).all fun i => bit ((descWords bs i).getD 7 0) 31) = true →
       Ends (.descFetch t bs) s fun e => (e.ring r).taken.map (·.w) = (List.range n).map (descWords bs) ∧ e.host.reads.all
         (fun x => match x.use with | .desc q _ => q ≠ r | _ => true) = true ∧ e.rd DMA_NOTOWN_CNT.COUNT = s.dev.rd
         DMA_NOTOWN_CNT.COUNT) ∧
    (∀ (t : Nat) (bs : Bytes) (r : Nat) (n : Nat), OneRead t (.desc r n) s → OnlyRing r s → ringKind r = 1 → (s.dev.ring r).st = 2 →
     (s.dev.ring r).rxq = [] → (s.dev.ring r).taken = [] → (s.dev.ring r).cyclic = false → 0 < n → bs.length = 32 * n →
     bit ((descWords bs 0).getD 7 0) 31 = false →
       Ends (.descFetch t bs) s fun e => (e.ring r).taken = [] ∧ (e.ring r).notOwn = true ∧ e.rd DMA_NOTOWN_CNT.COUNT = min
         (s.dev.rd DMA_NOTOWN_CNT.COUNT + 1) (2 ^ 32 - 1) ∧ e.rd DMA_EVENT.NOTOWN = 1) ∧
    (∀ (t : Nat) (bs : Bytes) (r : Nat) (n : Nat) (off : Nat) (z : Desc),
     OneRead t (.pay r (s.dev.ring r).cons off n) s → OnlyRing r s → QueuesClean s → ringKind r = 0 →
     (s.dev.ring r).taken = [z] → z.begun = true → z.done = false → z.entered = false → n < z.need →
     (s.dev.ring r).cons < 65536 → bs.length = n →
       Ends (.completion t bs) s fun e => (e.ring r).taken.map (fun y => (y.need, y.got, y.w, y.done)) = [(z.need - n, z.got
         ++ [(off, bs)], z.w, false)] ∧ e.host.reads.all (fun x => match x.use with | .pay .. => false | _ => true) = true) ∧
    (∀ (t : Nat) (bs : Bytes) (f : Nat) (ep : Nat) (u : Use),
     s.dev.host.reads = [{ tag := t, fn := f, epoch := ep, orphan := true, use := u }] → s.dev.host.rings = [] →
     s.dev.host.wants = [] → NoRequests s → QueuesClean s →
       Ends (.completion t bs) s fun e => e.host.reads = [] ∧ e.host.rings = []) ∧
    (∀ (ring : Fin 432), s.dev.host.rings = [(ring.val, { st := 2, prod := 2, tagWait := true })] → s.dev.host.reads = [] →
     s.dev.host.wants = [] → NoRequests s → s.dev.ringFn ring.val = some 0 → ringKind ring.val = 1 → s.dev.fnLive 0 = true →
     0 < s.dev.rd (DMA_FNf_DTAGS.QUOTA 0) →
       Ends (.tagWaitEnd ring) s fun e => e.fetching ring.val = true ∧ (e.ring ring.val).tagWait = false)

/-! ### Descriptor rings and DMA (spec/06) -/

/-- The command at the head of function f's mailbox is y, with opcode op, none was accepted before, and its reserved bits are 0;
f issues requests, and it is its mailbox's turn (R147). -/
abbrev MbxHead (op : Nat) (f : Fin 16) (y : Desc) (s : State) : Prop :=
  (s.dev.ring (416 + f.val)).taken = [y] ∧ y.done = false ∧ bits (y.dw 0) 0 8 = op ∧ bits (y.dw 0) 16 16 = 0 ∧
    bits (y.dw 7) 16 14 = 0 ∧ s.dev.fnLive f.val = true ∧ (s.dev.fn f.val).last = none ∧ s.dev.host.fns.length = 16 ∧
    s.dev.mbxTurn = some f.val ∧ (s.dev.ring (416 + f.val)).closing = false ∧ s.dev.outWaits (416 + f.val) = false ∧ NoRequests s

/-- No ring but the mailbox of f and those of rs is set up. -/
abbrev RingsIn (f : Fin 16) (rs : List Nat) (s : State) : Prop := ∀ x ∈ s.dev.host.rings, x.1 = 416 + f.val ∨ x.1 ∈ rs

/-- The command has been returned with status st and results r0 and r1 (R147, R148). -/
abbrev MbxBack (f : Fin 16) (y : Desc) (st r0 r1 : Nat) (s : State) (e : Dev) : Prop :=
  let x := s.dev.ring (416 + f.val)
  (e.fn f.val).last = some (bits (y.dw 0) 8 8, r0, r1) ∧ (e.ring (416 + f.val)).cons = (x.cons + 1) % 65536 ∧
    (e.ring (416 + f.val)).taken = [] ∧
    Out.hostWrite f.val (x.at x.cons + 16) (leBytes 4 r0 ++ leBytes 4 r1 ++ leBytes 4 st) false ∈ e.outs

/-- A PROD doorbell within the ring moves PROD, one beyond it is counted bad, one to a cyclic ring does nothing (R127);
MBX_BASE_LO, MBX_BASE_HI and MBX_RESET set a mailbox up and take it down; what it has fetched completes first (R128). -/
def Obligations.Doorbells : Prop :=
  ∀ s : State,
    (∀ (f : Fin 16) (slot : Fin 417) (x : Word) (r : Nat), Taken 1 s → s.dev.aperture f.val = true →
     s.dev.slotRing f.val slot.val = some r → x.toNat < 65536 → (s.dev.ring r).cyclic = false →
     (x.toNat + 65536 - (s.dev.ring r).consumed) % 65536 ≤ ringLen (s.dev.ring r).size →
       Ends (.doorbell f slot x) s fun e => (e.ring r).prod = x.toNat ∧ (e.ring r).cons = (s.dev.ring r).cons ∧ (e.ring
         r).notOwn = false) ∧
    (∀ (f : Fin 16) (slot : Fin 417) (x : Word) (r : Nat), Taken 1 s → s.dev.aperture f.val = true →
     s.dev.slotRing f.val slot.val = some r → x.toNat < 65536 → (s.dev.ring r).cyclic = false →
     ringLen (s.dev.ring r).size < (x.toNat + 65536 - (s.dev.ring r).consumed) % 65536 →
       Does (.doorbell f slot x) s
         [(DMA_DB_BAD_CNT.COUNT, min (s.dev.rd DMA_DB_BAD_CNT.COUNT + 1) (2 ^ 32 - 1)), (DMA_EVENT.DB_BAD, 1)]
         fun e => e.host = s.dev.host) ∧
    (∀ (f : Fin 16) (slot : Fin 417) (x : Word), Taken 1 s → s.dev.aperture f.val = true →
     s.dev.slotRing f.val slot.val = none → x.toNat < 65536 →
       Does (.doorbell f slot x) s
         [(DMA_DB_BAD_CNT.COUNT, min (s.dev.rd DMA_DB_BAD_CNT.COUNT + 1) (2 ^ 32 - 1)), (DMA_EVENT.DB_BAD, 1)]
         fun e => e.host = s.dev.host) ∧
    (∀ (f : Fin 16) (x : BitVec 30), Taken 1 s → s.dev.aperture f.val = true → (s.dev.ring (416 + f.val)).st = 0 →
     s.dev.host.fns.length = 16 → Does (.mbxBaseLo f x) s [] fun e => (e.fn f.val).mbxLo = some x.toNat) ∧
    (∀ (f : Fin 16) (x : BitVec 30) (lo : Nat), Taken 1 s → s.dev.aperture f.val = true →
     (s.dev.ring (416 + f.val)).st = 0 → (s.dev.fn f.val).mbxLo = some lo → bits x.toNat 22 3 ≤ 6 →
     s.dev.host.fns.length = 16 →
       Does (.mbxBaseHi f x) s
         []
         fun e => (e.fn f.val).mbxLo = none ∧ e.ring (416 + f.val) =
           { st := 2, base := lo * 4096 + bits x.toNat 0 22 * 2 ^ 42, size := bits x.toNat 22 3, vec := bits x.toNat 25 5 }) ∧
    (∀ (f : Fin 16) (slot : Fin 417) (x : Word), Taken 1 s → s.dev.aperture f.val = true →
     s.dev.cyclicSlot f.val slot.val = true → Does (.doorbell f slot x) s [] fun e => e.host = s.dev.host) ∧
    (∀ (f : Fin 16), Taken 1 s → s.dev.aperture f.val = true → s.dev.host.fns.length = 16 →
     (s.dev.ring (416 + f.val)).taken = [] →
       Ends (.mbxReset f 0) s fun e => Only s.dev e [HIF_TAGS.READS_OUT, HIF_TAGS.ORPHANS, HIF_DESC_INFLIGHT.COUNT] ∧ e.sram
         = s.dev.sram ∧ e.ring (416 + f.val) = {} ∧ (e.fn f.val).mbxLo = none ∧ (e.fn f.val).last = none) ∧
    (∀ (f : Fin 16), Taken 1 s → s.dev.aperture f.val = true → s.dev.host.fns.length = 16 →
     (s.dev.ring (416 + f.val)).taken ≠ [] →
       Does (.mbxReset f 0) s
         []
         fun e => e.ring (416 + f.val) = { s.dev.ring (416 + f.val) with closing := true } ∧ (e.fn f.val).mbxLo = none)

/-- The command at the head of a mailbox is returned with its status and results (R147, R148): NOP; RING_SETUP stores the
set-up; RING_ENABLE and RING_DISABLE answer the run state they lead to (Table 4.10); RING_QUERY the view; TIME the voted
Hearth; RESOURCES what the function holds. -/
def Obligations.MailboxCommands : Prop :=
  ∀ s : State,
    (∀ (f : Fin 16) (y : Desc), MbxHead 0 f y s → RingsIn f [] s → Ends (.nop f) s fun e => MbxBack f y 0 0 0 s e) ∧
    (∀ (f : Fin 16) (y : Desc) (r : Nat), MbxHead 1 f y s → RingsIn f [r] s → s.dev.argRing f.val (y.dw 1) = some r →
     (y.dw 2 + y.dw 3 * 2 ^ 32) % 4096 = 0 → cfgOk f.val r (y.dw 4) (y.dw 5) = true → (s.dev.ring r).st = 0 →
       Ends (.ringSetup f) s fun e => MbxBack f y 0 0 0 s e ∧ (e.ring r).base = y.dw 2 + y.dw 3 * 2 ^ 32 ∧ (e.ring r).size =
         bits (y.dw 4) 0 4 ∧ (e.ring r).vec = bits (y.dw 4) 4 8 ∧ (e.ring r).dest = bits (y.dw 5) 6 3 ∧ (e.ring r).st = 0 ∧
         (e.ring r).prod = 0 ∧ (e.ring r).cons = 0) ∧
    (∀ (f : Fin 16) (y : Desc) (r : Nat), MbxHead 2 f y s → RingsIn f [r] s → s.dev.argRing f.val (y.dw 1) = some r → (s.dev.ring r).st = 0 →
     (s.dev.ring r).taken = [] → (s.dev.ring r).rxq = [] → s.dev.pd 1 = true → ringKind r ≠ 2 → ringKind r ≠ 3 →
       Ends (.ringEnable f) s fun e => MbxBack f y 0 1 0 s e ∧ (e.ring r).st = 2) ∧
    (∀ (f : Fin 16) (y : Desc) (r : Nat), MbxHead 3 f y s → RingsIn f [r] s → s.dev.argRing f.val (y.dw 1) = some r → (s.dev.ring r).st = 2 →
     (s.dev.ring r).taken = [] → (s.dev.ring r).rxq = [] →
       Ends (.ringDisable f) s fun e => MbxBack f y 0 3 0 s e ∧ (e.ring r).st ≠ 2) ∧
    (∀ (f : Fin 16) (y : Desc) (r : Nat), MbxHead 4 f y s → RingsIn f [r] s → s.dev.argRing f.val (y.dw 1) = some r →
       Ends (.ringQuery f) s fun e => MbxBack f y 0 ((ringView r s.dev).1) ((ringView r s.dev).2) s e) ∧
    (∀ (f : Fin 16) (y : Desc), MbxHead 5 f y s → RingsIn f [] s →
       Ends (.time f) s fun e => MbxBack f y 0 (s.dev.now % 2 ^ 32) (s.dev.now / 2 ^ 32) s e) ∧
    (∀ (f : Fin 16) (y : Desc), MbxHead 6 f y s → RingsIn f [] s →
       Ends (.resources f) s fun e => MbxBack f y 0 (s.dev.res0 f.val) (s.dev.res1 f.val) s e)

/-- A merged message goes out at the end of its gap (R135); a frame without descriptors is dropped at the end of its stall
budget, unless descriptors for it are on their way (R141, R142); LAUNCH_DUE brings the Hearth to its mote (R138); a stopping ring that holds nothing is OFF (R150). A
request of an audio channel that needs one reads a burst (R151, R303), or overflows a line that holds four; a written map
waits for its line (R152); buffers show their half point and return at their full point (R144). -/
def Obligations.RingTimersAndAudioRings : Prop :=
  ∀ s : State,
    (∀ (ring : Fin 432) (m : Mote) (t : Nat) (f : Nat), (s.dev.ring ring.val).msgAt = some t →
     (s.dev.ring ring.val).msgWait = true → t + (s.dev.ring ring.val).gap ≤ (atMote m s.dev).nowExt →
     s.dev.ringFn ring.val = some f →
       Does (.coalExpiry ring m) s
         []
         fun e => (e.ring ring.val).msgAt = some (atMote m s.dev).nowExt ∧ (e.ring ring.val).msgWait = false ∧ ((s.dev.fn
           f).msixEn = true → s.dev.fnLive f = true → (s.dev.fn f).msixMask = false → ((s.dev.fn f).ent (s.dev.ring
           ring.val).vec).masked = false → e.outs = [.msix f (s.dev.ring ring.val).vec ((s.dev.fn f).ent (s.dev.ring
           ring.val).vec).addr ((s.dev.fn f).ent (s.dev.ring ring.val).vec).data])) ∧
    (∀ (ring : Fin 432) (m : Mote) (it : RxItem) (dl : Nat) (f : Nat), (s.dev.ring ring.val).rxq = [it] →
     it.stall = some dl → dl ≤ (atMote m s.dev).nowExt → it.n = 0 → ringKind ring.val ≠ 5 → (s.dev.ring ring.val).awaits = false → s.dev.ringFn ring.val = some f →
       Ends (.stallExpiry ring m) s fun e => e.rd DMA_RX_NODESC_DROP.COUNT = min (s.dev.rd DMA_RX_NODESC_DROP.COUNT + 1) (2
         ^ 32 - 1) ∧ e.rd DMA_EVENT.RX_NODESC_DROP = 1 ∧ (e.ring ring.val).rxq = []) ∧
    (∀ (ring : Fin 432) (m : Mote) (it : RxItem) (dl : Nat) (f : Nat), (s.dev.ring ring.val).rxq = [it] →
     it.stall = some dl → dl ≤ (atMote m s.dev).nowExt → 0 < it.n → ringKind ring.val ≠ 5 → (s.dev.ring ring.val).awaits = false → s.dev.ringFn ring.val = some f →
       Ends (.stallExpiry ring m) s fun e => e.rd DMA_RX_STALL_DROP.COUNT = min (s.dev.rd DMA_RX_STALL_DROP.COUNT + 1) (2 ^
         32 - 1) ∧ e.rd DMA_EVENT.RX_STALL_DROP = 1 ∧ (e.ring ring.val).rxq = []) ∧
    (∀ (m : Mote), Does (.launchDue m) s [] fun e => e.now = (atMote m s.dev).now ∧ e.host = s.dev.host) ∧
    (∀ (ring : Fin 432), (s.dev.ring ring.val).st = 3 → (s.dev.ring ring.val).quiet = true → ringKind ring.val ≠ 2 →
     ringKind ring.val ≠ 3 → Ends (.ringQuiescence ring) s fun e => (e.ring ring.val).st = 0 ∧ (e.ring ring.val).taken = []) ∧
    (∀ (ring : Fin 432), Taken 1 s →
       Does (.ringSelWrite ring) s
         [(DMA_RING_SEL.RING, ring.val), (⟨DMA_RING_VIEW0.addr, 0, 32⟩, (ringView ring.val s.dev).1 % 2 ^ 32),
          (⟨DMA_RING_VIEW1.addr, 0, 32⟩, (ringView ring.val s.dev).2 % 2 ^ 32),
          (⟨DMA_RING_VIEW2.addr, 0, 32⟩, (s.dev.ring ring.val).base / 2 ^ 32 % 2 ^ 32),
          (⟨DMA_RING_VIEW3.addr, 0, 32⟩, ((s.dev.ring ring.val).vec + (s.dev.ring ring.val).coal * 2 ^ 8 + (if (s.dev.ring ring.val).earlyWb then 2 ^ 16 else 0) + (if (s.dev.ring ring.val).cyclic then 2 ^ 17 else 0) + (if (s.dev.ring ring.val).dir then 2 ^ 18 else 0) + (s.dev.ring ring.val).dest * 2 ^ 19 + (s.dev.ring ring.val).cycM1 * 2 ^ 22) % 2 ^ 32)]
         fun _ => True) ∧
    (∀ (ring : Fin 432) (y : Desc) (f : Nat), (s.dev.ring ring.val).taken = [y] → (s.dev.ring ring.val).cyclic = false →
     y.done = false → y.begun = true → y.half = false → bit (y.dw 2) 16 = true →
     y.halfAt (s.dev.audSample ring.val) ≤ y.pos → y.pos < y.len → s.dev.ringFn ring.val = some f →
       Ends (.audioHalfPoint ring) s fun e => (e.ring ring.val).taken = [{ y with half := true }] ∧ (s.dev.fnLive f = true →
         s.dev.outWaits ring.val = false → Out.hostWrite f ((s.dev.ring ring.val).at ((s.dev.ring
         ring.val).cons % 65536) + 24) (leBytes 4 (bits (y.dw 6) 0 4 + 16)) false ∈ e.outs)) ∧
    (∀ (ring : Fin 432) (y : Desc) (f : Nat), (s.dev.ring ring.val).taken = [y] → (s.dev.ring ring.val).cyclic = false →
     y.done = false → y.begun = true → y.len ≤ y.pos → s.dev.ringFn ring.val = some f → s.dev.fnLive f = true → s.dev.outWaits ring.val = false →
       Ends (.audioFullPoint ring) s fun e => (e.ring ring.val).taken = [] ∧ (e.ring ring.val).cons = ((s.dev.ring
         ring.val).cons + 1) % 65536) ∧
    (∀ (line : Fin 16) (ring : Fin 432) (m : Mote) (y : Desc) (f : Nat), ringKind ring.val = 2 →
     bits (s.dev.host.prqMap.getD line.val 0) 0 6 = prqSource false (s.dev.audPort ring.val) →
     bits (s.dev.host.prqMap.getD line.val 0) 6 3 = 0 → bit (s.dev.host.prqMap.getD line.val 0) 9 = true →
     (atMote m s.dev).neediest false (s.dev.audPort ring.val) = some (audCh ring.val) → s.dev.pd 1 = true →
     (s.dev.ring ring.val).st = 2 → (s.dev.ring ring.val).cyclic = false → (s.dev.ring ring.val).taken = [y] →
     y.done = false → y.need + 16 ≤ y.len → y.addr % 4 = 0 → (y.addr + y.need) % 4096 ≤ 4080 →
     s.dev.ringFn ring.val = some f → s.dev.fnLive f = true → s.dev.tagFree f = true → 16 ≤ (s.dev.fn f).mrrs →
     (s.dev.host.prq.getD line.val {}).map = none → (s.dev.host.prq.getD line.val {}).later = [] → NoRequests s →
     s.dev.host.wants = [] → s.dev.host.prq.length = 16 →
       Ends (.prqRequest line ring m) s fun e => (e.host.prq.getD line.val {}).q = [] ∧ (e.ring ring.val).taken =
         [{ y with begun := true, need := y.need + 16 }] ∧ Out.memRead f s.dev.newTag (y.addr + y.need) 16 ∈ e.outs) ∧
    (∀ (line : Fin 16) (ring : Fin 432) (m : Mote) (f : Nat), ringKind ring.val = 2 →
     bits (s.dev.host.prqMap.getD line.val 0) 0 6 = prqSource false (s.dev.audPort ring.val) →
     bit (s.dev.host.prqMap.getD line.val 0) 9 = true →
     (atMote m s.dev).neediest false (s.dev.audPort ring.val) = some (audCh ring.val) → s.dev.pd 1 = true →
     (s.dev.ring ring.val).st = 2 → s.dev.ringFn ring.val = some f → s.dev.fnState f = 1 →
     (s.dev.host.prq.getD line.val {}).map = none → 4 ≤ (s.dev.host.prq.getD line.val {}).q.length →
       Does (.prqRequest line ring m) s
         [(DMA_PRQ_OVF_CNT.COUNT, min (s.dev.rd DMA_PRQ_OVF_CNT.COUNT + 1) 65535), (DMA_PRQ_OVF_CNT.LINE, line.val),
          (DMA_EVENT.PRQ_OVF, 1)]
         fun e => e.host = s.dev.host) ∧
    (∀ (line : Fin 16) (v : Nat), (s.dev.host.prq.getD line.val {}).map = some v →
     (s.dev.host.prq.getD line.val {}).q = [] → s.dev.host.prqMap.length = 16 →
       Ends (.prqMapApply line) s fun e => e.host.prqMap.getD line.val 0 = v ∧ (e.host.prq.getD line.val {}).map = none)

/-! ### Channels (spec/07) -/

/-- Insertion, removal, settling, a transmit fault, its retry and loss of signal are shown and raised as R157 says; a removal
without IGNORE_ABS takes the link down. STARTING passes to ON when lane and module allow it (R156); the link rises when the
PCS has held good state for UP_FR frames and falls as R158 says, reported with its cause; quiescence ends STOPPING (R156,
Table 4.10). -/
def Obligations.ModulesRunAndLink : Prop :=
  ∀ s : State,
    (∀ (n : Fin 4), s.dev.pd 1 = true → (s.dev.ch n).modIn = false → s.dev.chan.length = 4 →
       Does (.modIn n) s
         [(CHn_STATUS.MOD_PRESENT n, 1), (CHn_EVENT.MOD_IN n, 1)]
         fun e => (e.ch n).modIn = true ∧ (e.ch n).modOk = false ∧ (e.ch n).modFr = 0) ∧
    (∀ (n : Fin 4), s.dev.pd 1 = true → (s.dev.ch n).modIn = true → s.dev.on (CHn_MOD_CFG.IGNORE_ABS n) = true →
     s.dev.chan.length = 4 →
       Does (.modOut n) s
         [(CHn_STATUS.MOD_PRESENT n, 0), (CHn_EVENT.MOD_OUT n, 1)]
         fun e => (e.ch n).modIn = false ∧ (e.ch n).modOk = false) ∧
    (∀ (n : Fin 4), s.dev.pd 1 = true → (s.dev.ch n).modIn = true → s.dev.on (CHn_MOD_CFG.IGNORE_ABS n) = false →
     s.dev.on (CHn_STATUS.LINK n) = true → s.dev.chan.length = 4 →
       Ends (.modOut n) s fun e => e.rd (CHn_STATUS.MOD_PRESENT n) = 0 ∧ e.rd (CHn_EVENT.MOD_OUT n) = 1 ∧ e.rd
         (CHn_STATUS.LINK n) = 0 ∧ e.rd (CHn_EVENT.LINK_DOWN n) = 1 ∧ (e.ch n).modIn = false ∧ (e.ch n).cur = none) ∧
    (∀ (n : Fin 4), (s.dev.ch n).modIn = true → s.dev.rd (CHn_MOD_CFG.INSERT_FR n) ≤ (s.dev.ch n).modFr →
     s.dev.chan.length = 4 → Does (.moduleSettled n) s [] fun e => (e.ch n).modOk = true) ∧
    (∀ (n : Fin 4), (s.dev.ch n).txflt = false → s.dev.chan.length = 4 →
       Does (.txFault ⟨n, .rise⟩) s [] fun e => (e.ch n).txflt = true ∧ (e.ch n).fltFr = 0) ∧
    (∀ (n : Fin 4), s.dev.pd 1 = true → (s.dev.ch n).txflt = true → 2 ≤ (s.dev.ch n).fltFr →
     s.dev.on (CHn_STATUS.TX_FAULT n) = false →
       Does (.txFault ⟨n, .held⟩) s [(CHn_STATUS.TX_FAULT n, 1), (CHn_EVENT.TX_FAULT n, 1)] fun e => e.chan = s.dev.chan) ∧
    (∀ (n : Fin 4), s.dev.chan.length = 4 → Does (.txFault ⟨n, .fall⟩) s [] fun e => (e.ch n).txflt = false) ∧
    (∀ (n : Fin 4) (src : BusSrc), Taken 1 s →
       Does (.faultRetry n src) s
         [(CHn_STATUS.TX_FAULT n, if (s.dev.ch n).txflt then s.dev.rd (CHn_STATUS.TX_FAULT n) else 0)]
         fun e => e.chan = s.dev.chan) ∧
    (∀ (n : Fin 4) (b : Bool), s.dev.pd 1 = true → s.dev.chan.length = 4 →
       Does (.losChange n b) s
         [(CHn_STATUS.LOS n, if b then 1 else 0), (CHn_STATUS.MOD_PRESENT n, if (s.dev.ch n).modIn then 1 else 0)]
         fun e => (e.ch n).los = b) ∧
    (∀ (n : Fin 4), s.dev.chRun n = 1 → s.dev.bitOf RAT_DOM_STATUS.LANE_ON n = true → s.dev.txPermit n = true →
       Does (.channelOn n) s
         [(CLK_STATUS.LANE_LOCK, putBit (s.dev.rd CLK_STATUS.LANE_LOCK) n true), (CHn_STATUS.RUN n, 2)]
         fun e => e.chan = s.dev.chan) ∧
    (∀ (n : Fin 4), s.dev.chRun n = 3 → s.dev.chan.length = 4 → (s.dev.ch n).cur = none → (s.dev.ch n).pre = none →
     (s.dev.ch n).asm = none →
       Does (.channelStopped n) s
         [(CHn_STATUS.RUN n, 0), (CHn_STATUS.BLOCK_LOCK n, 0), (CHn_STATUS.HI_BER n, 0), (CHn_STATUS.LOCAL_FAULT n, 0),
          (CHn_STATUS.REMOTE_FAULT n, 0), (CHn_EVENT.STOPPED n, 1)]
         fun e => (e.ch n).asm = none) ∧
    (∀ (n : Fin 4), s.dev.chRun n = 4 → s.dev.chan.length = 4 → (s.dev.ch n).cur = none → (s.dev.ch n).pre = none →
     (s.dev.ch n).asm = none →
       Does (.channelStopped n) s
         [(CHn_STATUS.RUN n, 1), (CHn_STATUS.BLOCK_LOCK n, 0), (CHn_STATUS.HI_BER n, 0), (CHn_STATUS.LOCAL_FAULT n, 0),
          (CHn_STATUS.REMOTE_FAULT n, 0), (CHn_EVENT.STOPPED n, 1),
          (CHn_STATUS.RATE_NOW n, if s.dev.tier10g n then 0 else s.dev.rd (CHn_CTRL.RATE n))]
         fun e => (e.ch n).rate = s.dev.rd (CHn_CTRL.RATE n) ∧ (e.ch n).loop = s.dev.rd (CHn_CTRL.LOOP n)) ∧
    (∀ (n : Fin 4), s.dev.pcsRuns n = true → s.dev.modHere n = true → s.dev.chan.length = 4 →
       Does (.linkUp ⟨n, false⟩) s
         [(CHn_STATUS.BLOCK_LOCK n, 1), (CHn_STATUS.HI_BER n, 0), (CHn_STATUS.LOCAL_FAULT n, 0)]
         fun e => (e.ch n).goodFr = some ((s.dev.ch n).goodFr.getD 0)) ∧
    (∀ (n : Fin 4) (k : Nat), s.dev.chRun n = 2 → s.dev.pcsRuns n = true → s.dev.on (CHn_STATUS.LINK n) = false →
     s.dev.modHere n = true → (s.dev.ch n).goodFr = some k → s.dev.rd (CHn_LINK_CFG.UP_FR n) ≤ k →
     s.dev.rd (CHn_PREEMPT_STATUS.VERIFY n) ≠ 1 →
       Does (.linkUp ⟨n, true⟩) s
         [(CHn_STATUS.LINK n, 1), (CHn_EVENT.LINK_UP n, 1)]
         fun e => e.chan = s.dev.chan) ∧
    (∀ (n : Fin 4) (cause : LinkCause), s.dev.pcsRuns n = true → s.dev.on (CHn_STATUS.LINK n) = true →
     s.dev.rd (CHn_PREEMPT_STATUS.VERIFY n) < 2 → s.dev.fenced n = false → s.dev.chan.length = 4 → (s.dev.ch n).cur = none →
     (s.dev.ch n).pre = none → (s.dev.ch n).asm = none →
       Ends (.linkDown n cause) s fun e => Only s.dev e [CHn_STATUS.LINK n, CHn_EVENT.LINK_DOWN n, CHn_STATUS.BLOCK_LOCK n,
         CHn_STATUS.HI_BER n, CHn_EVENT.HI_BER n, CHn_STATUS.LOCAL_FAULT n, CHn_STATi.COUNT n 44, CHn_STAT_HALF1.HALF n,
         CHn_EVENT.STAT_HALF n] ∧ e.sram = s.dev.sram ∧ e.rd (CHn_STATUS.LINK n) = 0 ∧ e.rd (CHn_EVENT.LINK_DOWN n) = 1 ∧ e.rd
         (CHn_STATi.COUNT n 44) = (s.dev.rd (CHn_STATi.COUNT n 44) + 1) % 2 ^ 32 ∧ (cause = .blockLock → e.rd
         (CHn_STATUS.BLOCK_LOCK n) = 0) ∧ (cause = .hiBer → e.rd (CHn_STATUS.HI_BER n) = 1 ∧ e.rd (CHn_EVENT.HI_BER n) = 1) ∧
         (cause = .localFault → e.rd (CHn_STATUS.LOCAL_FAULT n) = 1))

/-- A frame or mPacket reaches the receiver of channel n, whose PCS had no errored block and corrected nothing before it. -/
abbrev Heard (n : Fin 4) (pcs : Pcs) (s : State) : Prop :=
  s.dev.hears n = true ∧ pcs.blocks = 0 ∧ (s.dev.ch n).fecNow = 0 ∧ QueuesClean s

/-- It passed check 1. -/
abbrev Passed (n : Fin 4) (pcs : Pcs) (s : State) : Prop :=
  Heard n pcs s ∧ pcs.ok = true ∧ (s.dev.ch n).recal = false

/-- The part after the lookup of the frame (R180). -/
abbrev LookedUp (n : Fin 4) (m : Mote) (data : Bytes) (s : State) : Dev := (lookup n data (atMote m s.dev)).2

/-- A frame that a check stops is counted at that check and goes no further; its lookup counts all the same (Table 7.2, R180); a
first fragment is held for reassembly (R169); a frame that passes and is decided for one channel is queued there, stamped with
its source (R185); a frame for a dead channel is not heard (R381). -/
def Obligations.Reception : Prop :=
  ∀ s : State,
    (∀ (n : Fin 4) (m : Mote) (pcs : Pcs) (data : Bytes), Heard n pcs s → pcs.ok = false →
       Ends (.rxFrame n m .express pcs data) s fun e => Only s.dev e [CHn_STATi.COUNT n 14, CHn_STAT_HALF0.HALF n,
         CHn_EVENT.STAT_HALF n] ∧ e.sram = s.dev.sram ∧ e.rd (CHn_STATi.COUNT n 14) = (s.dev.rd (CHn_STATi.COUNT n 14) + 1) %
         2 ^ 32) ∧
    (∀ (n : Fin 4) (m : Mote) (pcs : Pcs) (data : Bytes), Passed n pcs s → data.length < 64 →
       Ends (.rxFrame n m .express pcs data) s fun e => Only (LookedUp n m data s) e [CHn_STATi.COUNT n 9,
         CHn_STAT_HALF0.HALF n, CHn_STATi.COUNT n 10, CHn_EVENT.STAT_HALF n] ∧ e.sram = s.dev.sram ∧ (fcsOk data = true → e.rd
         (CHn_STATi.COUNT n 9) = (s.dev.rd (CHn_STATi.COUNT n 9) + 1) % 2 ^ 32) ∧ (fcsOk data = false → e.rd
         (CHn_STATi.COUNT n 10) = (s.dev.rd (CHn_STATi.COUNT n 10) + 1) % 2 ^ 32)) ∧
    (∀ (n : Fin 4) (m : Mote) (pcs : Pcs) (data : Bytes), Passed n pcs s → 64 ≤ data.length →
     s.dev.rd (CHn_MAX_LEN.MAX n) < data.length →
       Ends (.rxFrame n m .express pcs data) s fun e => Only (LookedUp n m data s) e [CHn_STATi.COUNT n 11,
         CHn_STAT_HALF0.HALF n, CHn_STATi.COUNT n 12, CHn_EVENT.STAT_HALF n] ∧ e.sram = s.dev.sram ∧ (fcsOk data = true → e.rd
         (CHn_STATi.COUNT n 11) = (s.dev.rd (CHn_STATi.COUNT n 11) + 1) % 2 ^ 32) ∧ (fcsOk data = false → e.rd
         (CHn_STATi.COUNT n 12) = (s.dev.rd (CHn_STATi.COUNT n 12) + 1) % 2 ^ 32)) ∧
    (∀ (n : Fin 4) (m : Mote) (pcs : Pcs) (data : Bytes), Passed n pcs s → 64 ≤ data.length →
     data.length ≤ s.dev.rd (CHn_MAX_LEN.MAX n) → fcsOk data = false →
       Ends (.rxFrame n m .express pcs data) s fun e => Only (LookedUp n m data s) e [CHn_STATi.COUNT n 13,
         CHn_STAT_HALF0.HALF n, CHn_EVENT.STAT_HALF n] ∧ e.sram = s.dev.sram ∧ e.rd (CHn_STATi.COUNT n 13) = (s.dev.rd
         (CHn_STATi.COUNT n 13) + 1) % 2 ^ 32) ∧
    (∀ (n : Fin 4) (m : Mote) (pcs : Pcs) (data : Bytes), Passed n pcs s →
       Ends (.rxFrame n m .other pcs data) s fun e => Only s.dev e [CHn_STATi.COUNT n 20, CHn_STAT_HALF0.HALF n,
         CHn_EVENT.STAT_HALF n] ∧ e.sram = s.dev.sram ∧ e.rd (CHn_STATi.COUNT n 20) = (s.dev.rd (CHn_STATi.COUNT n 20) + 1) %
         2 ^ 32) ∧
    (∀ (n : Fin 4) (frame : Fin 4) (m : Mote) (pcs : Pcs) (data : Bytes), Passed n pcs s →
     s.dev.on (CHn_PREEMPT_CFG.EN n) = true → (s.dev.ch n).asm = none → s.dev.chan.length = 4 → data.length ≤ 64 →
       Ends (.rxFrame n m (.start frame true true) pcs data) s fun e => Within s.dev e [16, 21] ∧ e.sram = s.dev.sram ∧
         (e.ch n).asm = some { frame := frame, data := data, ts := s.dev.rxStamp n (atMote m s.dev).nowExt, tsOk := s.dev.valid }) ∧
    (∀ (n : Fin 4) (m : Mote) (pkt : MPkt) (pcs : Pcs) (data : Bytes), s.dev.rxLive n = false → QueuesClean s →
       Does (.rxFrame n m pkt pcs data) s [] fun e => e.chan = s.dev.chan ∧ e.host = s.dev.host) ∧
    (∀ (n : Fin 4) (m : Mote) (pcs : Pcs) (data : Bytes) (k : Fin 4) (q : Decision), Passed n pcs s → pcs.ovf = false →
     64 ≤ data.length → data.length ≤ s.dev.rd (CHn_MAX_LEN.MAX n) →
     fcsOk data = true → beAt data 12 2 ≠ 0x8808 → n ≠ 0 → (lookup n data (atMote m s.dev)).1 = q → q.kind = 0 →
     q.mask = 2 ^ k.val → q.tc < 8 → q.frer = false → q.follow = false → s.dev.fenced k = false →
     (s.dev.ch k).fencing = false → s.dev.chRun k = 2 → data.length ≤ s.dev.rd (CHn_MAX_LEN.MAX k) →
     (s.dev.alloc data.length).isSome = true → s.dev.beFull (cellsFor data.length) = false →
     ((∀ c ∈ s.dev.chan, c.queues.length = 8)) → s.dev.chan.length = 4 →
       Ends (.rxFrame n m .express pcs data) s fun e => ((e.ch k).queues.getD q.tc []).map (fun x => (x.data, x.src, x.tc))
         = ((s.dev.ch k).queues.getD q.tc []).map (fun x => (x.data, x.src, x.tc)) ++ [(data, n.val, q.tc)] ∧ e.rd
         (CHn_STATi.COUNT n 0) = (s.dev.rd (CHn_STATi.COUNT n 0) + 1) % 2 ^ 32 ∧ e.rd (CHn_STATi.COUNT n 1) = (s.dev.rd
         (CHn_STATi.COUNT n 1) + data.length) % 2 ^ 32)

/-- XOFF ends with quanta 0 at LO and is refreshed at half its time above LO (R165); a received pause or PFC frame is counted and stops
what it may until its time ends (R166). -/
def Obligations.PauseBothWays : Prop :=
  ∀ s : State,
    (∀ (n : Fin 4), s.dev.rd (CHn_PAUSE_CFG.MODE n) = 1 → s.dev.on (CHn_STATUS.XOFF n) = true →
     s.dev.measure n none ≤ s.dev.rd (CHn_PAUSE_WM.LO n) → s.dev.pm.beXoff = false → s.dev.chan.length = 4 →
       Does (.xoffEnd n) s [(CHn_STATUS.XOFF n, 0)] fun e => (e.ch n).ctlq = (s.dev.ch n).ctlq ++ [(.pause, 0, 0)]) ∧
    (∀ (n : Fin 4) (m : Mote), s.dev.rd (CHn_PAUSE_CFG.MODE n) = 1 → s.dev.on (CHn_STATUS.XOFF n) = true →
     (s.dev.ch n).xoffT.getD 8 0 + s.dev.quantaMt n (s.dev.rd (CHn_PAUSE_QUANTA.TX_QUANTA n)) / 2 ≤ (atMote m s.dev).nowExt →
     s.dev.rd (CHn_PAUSE_WM.LO n) < s.dev.measure n none → (s.dev.ch n).xoffT.length = 9 → s.dev.chan.length = 4 →
       Does (.pauseRefresh n m) s
         []
         fun e => (e.ch n).ctlq = (s.dev.ch n).ctlq ++ [(.pause, 0, s.dev.rd (CHn_PAUSE_QUANTA.TX_QUANTA n))] ∧ (e.ch
           n).xoffT.getD 8 0 = (atMote m s.dev).nowExt) ∧
    (∀ (n : Fin 4) (quanta : BitVec 16) (m : Mote), s.dev.rd (CHn_PAUSE_CFG.MODE n) = 1 →
     s.dev.on (CHn_PAUSE_CFG.RX_HONOR n) = true → (s.dev.ch n).pauseT.length = 9 → s.dev.hears n = true →
     s.dev.chan.length = 4 →
       Ends (.pauseRx n quanta m) s fun e => Only s.dev e [CHn_STATUS.RX_PAUSED n, CHn_STATi.COUNT n 5, CHn_STAT_HALF0.HALF
         n, CHn_EVENT.STAT_HALF n, CHn_STATi.COUNT n 7] ∧ e.sram = s.dev.sram ∧ e.rd (CHn_STATUS.RX_PAUSED n) = (if quanta = 0
         then 0 else 1) ∧ (e.ch n).pauseT.getD 8 0 = (atMote m s.dev).nowExt + s.dev.quantaMt n quanta.toNat ∧ e.rd
         (CHn_STATi.COUNT n 5) = (s.dev.rd (CHn_STATi.COUNT n 5) + 1) % 2 ^ 32 ∧ e.rd (CHn_STATi.COUNT n 7) = (s.dev.rd
         (CHn_STATi.COUNT n 7) + quanta.toNat) % 2 ^ 32) ∧
    (∀ (n : Fin 4) (k : Fin 8) (qs : List (BitVec 16)) (m : Mote), s.dev.rd (CHn_PAUSE_CFG.MODE n) = 2 →
     s.dev.on (CHn_PAUSE_CFG.RX_HONOR n) = true → s.dev.bitOf (CHn_PAUSE_CFG.RX_IGNORE n) k = false →
     (s.dev.ch n).pauseT.length = 9 → s.dev.hears n = true → s.dev.chan.length = 4 →
       Ends (.pfcRx n (1#8 <<< k.val) qs m) s fun e => Only s.dev e [CHn_STATUS.PFC_RX_PAUSED n, CHn_STATi.COUNT n 6,
         CHn_STAT_HALF0.HALF n, CHn_EVENT.STAT_HALF n, CHn_STATi.COUNT n 7] ∧ e.sram = s.dev.sram ∧ e.rd
         (CHn_STATUS.PFC_RX_PAUSED n) = putBit (s.dev.rd (CHn_STATUS.PFC_RX_PAUSED n)) k ((qs.getD k 0) != 0) ∧ (e.ch
         n).pauseT.getD k 0 = (atMote m s.dev).nowExt + s.dev.quantaMt n (qs.getD k 0).toNat ∧ e.rd (CHn_STATi.COUNT n 6) =
         (s.dev.rd (CHn_STATi.COUNT n 6) + 1) % 2 ^ 32) ∧
    (∀ (n : Fin 4) (k : Fin 9) (m : Mote), k ≠ 8 → (s.dev.ch n).pauseT.getD k 0 ≤ (atMote m s.dev).nowExt →
       Does (.pauseEnd n k m) s
         [(CHn_STATUS.PFC_RX_PAUSED n, putBit (s.dev.rd (CHn_STATUS.PFC_RX_PAUSED n)) k false)]
         fun _ => True) ∧
    (∀ (n : Fin 4) (m : Mote), (s.dev.ch n).pauseT.getD 8 0 ≤ (atMote m s.dev).nowExt →
       Does (.pauseEnd n 8 m) s [(CHn_STATUS.RX_PAUSED n, 0)] fun _ => True)

/-- Enabling preemption verifies it, three attempts of VERIFY_MS long; a respond mPacket makes it active, a missing one fails; a verify
mPacket is answered (R170, Table 7.3). -/
def Obligations.Preemption : Prop :=
  ∀ s : State,
    (∀ (n : Fin 4), Taken 1 s → s.dev.on (CHn_PREEMPT_CFG.EN n) = false → s.dev.rd (CHn_PREEMPT_STATUS.VERIFY n) = 0 →
     s.dev.on (CHn_STATUS.LINK n) = true → s.dev.on (CHn_PREEMPT_CFG.VERIFY_DIS n) = false → s.dev.chan.length = 4 →
       Does (.preemptEnable n) s
         [(CHn_PREEMPT_CFG.EN n, 1), (CHn_PREEMPT_STATUS.VERIFY n, 2), (CHn_PREEMPT_STATUS.ACTIVE n, 0),
          (CHn_PREEMPT_STATUS.HOLD n, 0), (CHn_PREEMPT_STATUS.ATTEMPTS n, 1)]
         fun e => (e.ch n).mpq = (s.dev.ch n).mpq.filter (· != .verify) ++ [.verify] ∧ (e.ch n).verT =
           some (s.dev.hearth.clk + s.dev.rd (CHn_PREEMPT_CFG.VERIFY_MS n) * 524288)) ∧
    (∀ (n : Fin 4), Taken 1 s → s.dev.on (CHn_PREEMPT_CFG.EN n) = false → s.dev.rd (CHn_PREEMPT_STATUS.VERIFY n) = 0 →
     s.dev.on (CHn_STATUS.LINK n) = true → s.dev.on (CHn_PREEMPT_CFG.VERIFY_DIS n) = true →
       Does (.preemptEnable n) s
         [(CHn_PREEMPT_CFG.EN n, 1), (CHn_PREEMPT_STATUS.VERIFY n, 5), (CHn_PREEMPT_STATUS.ACTIVE n, 1),
          (CHn_PREEMPT_STATUS.HOLD n, if (s.dev.gate n).hold then 1 else 0)]
         fun e => (e.ch n).mpq = (s.dev.ch n).mpq.filter (· != .verify)) ∧
    (∀ (n : Fin 4), Taken 1 s → s.dev.on (CHn_PREEMPT_CFG.EN n) = true → s.dev.chan.length = 4 →
       Does (.preemptDisable n) s
         [(CHn_PREEMPT_CFG.EN n, 0), (CHn_PREEMPT_STATUS.VERIFY n, 0), (CHn_PREEMPT_STATUS.ACTIVE n, 0),
          (CHn_PREEMPT_STATUS.HOLD n, 0)]
         fun e => e.ch n = { s.dev.ch n with mpq := [], verT := none }) ∧
    (∀ (n : Fin 4) (m : Mote) (t : Nat), s.dev.rd (CHn_PREEMPT_STATUS.VERIFY n) = 2 → (s.dev.ch n).verT = some t →
     t ≤ (atMote m s.dev).hearth.clk → s.dev.rd (CHn_PREEMPT_STATUS.ATTEMPTS n) < 3 → s.dev.chan.length = 4 →
       Does (.verifyTimer ⟨n, m⟩) s
         [(CHn_PREEMPT_STATUS.ATTEMPTS n, s.dev.rd (CHn_PREEMPT_STATUS.ATTEMPTS n) + 1)]
         fun e => (e.ch n).mpq = (s.dev.ch n).mpq ++ [.verify] ∧ (e.ch n).verT =
           some ((atMote m s.dev).hearth.clk + s.dev.rd (CHn_PREEMPT_CFG.VERIFY_MS n) * 524288)) ∧
    (∀ (n : Fin 4) (m : Mote) (t : Nat), s.dev.rd (CHn_PREEMPT_STATUS.VERIFY n) = 2 → (s.dev.ch n).verT = some t →
     t ≤ (atMote m s.dev).hearth.clk → 3 ≤ s.dev.rd (CHn_PREEMPT_STATUS.ATTEMPTS n) → s.dev.chan.length = 4 →
       Does (.verifyTimer ⟨n, m⟩) s
         [(CHn_PREEMPT_STATUS.VERIFY n, 4), (CHn_PREEMPT_STATUS.ACTIVE n, 0), (CHn_PREEMPT_STATUS.HOLD n, 0),
          (CHn_EVENT.VERIFY_FAIL n, 1)]
         fun e => (e.ch n).verT = none) ∧
    (∀ (n : Fin 4), s.dev.on (CHn_PREEMPT_CFG.EN n) = true → s.dev.hears n = true → s.dev.chan.length = 4 →
       Ends (.verifyRx n) s fun e => Only s.dev e [CHn_STATi.COUNT n 22, CHn_STAT_HALF0.HALF n, CHn_EVENT.STAT_HALF n] ∧
         e.sram = s.dev.sram ∧ (e.ch n).mpq = (s.dev.ch n).mpq ++ [.respond] ∧ e.rd (CHn_STATi.COUNT n 22) = (s.dev.rd
         (CHn_STATi.COUNT n 22) + 1) % 2 ^ 32) ∧
    (∀ (n : Fin 4), s.dev.on (CHn_PREEMPT_CFG.EN n) = true → s.dev.rd (CHn_PREEMPT_STATUS.VERIFY n) = 2 →
     s.dev.hears n = true →
       Ends (.respondRx n) s fun e => Only s.dev e [CHn_PREEMPT_STATUS.VERIFY n, CHn_PREEMPT_STATUS.ACTIVE n,
         CHn_PREEMPT_STATUS.HOLD n, CHn_EVENT.VERIFY_OK n, CHn_STATi.COUNT n 23, CHn_STAT_HALF0.HALF n, CHn_EVENT.STAT_HALF n]
         ∧ e.sram = s.dev.sram ∧ e.rd (CHn_PREEMPT_STATUS.VERIFY n) = 3 ∧ e.rd (CHn_PREEMPT_STATUS.ACTIVE n) = 1 ∧ e.rd
         (CHn_EVENT.VERIFY_OK n) = 1 ∧ e.rd (CHn_STATi.COUNT n 23) = (s.dev.rd (CHn_STATi.COUNT n 23) + 1) % 2 ^ 32)

/-- The frame that R186 chooses goes on the wire at its mote, or preempts a preemptable one, whose mPacket ends (R168); its end
counts it (Table 7.4); with LOOP = 1 it comes back to the own receiver (R155); a read of TXTS0 latches the stamp words (R164);
a frame that matches a wake filter in LISTEN wakes the part (R172, R74). No stored error stands or comes here. -/
def Obligations.Transmission : Prop :=
  ∀ s : State,
    (∀ (n : Fin 4) (m : Mote) (k : Nat) (x : Sys2Proof.Machine.Frm), s.dev.canStart n = true → s.dev.canFinish n = false →
     (s.dev.ch n).cur = none → (atMote m s.dev).nextTx n false = .queue k x → s.dev.poisoned x = false →
     s.dev.pm.upsets = [] → s.dev.chan.length = 4 →
       Does (.txFrameStart n [] m) s
         []
         fun e => (e.ch n).cur = some
           { kind := if s.dev.pmacClass n k then .pmac else .express, frm := x, first := (atMote m s.dev).nowExt,
             start := (atMote m s.dev).nowExt, tsOk := s.dev.valid, code := if s.dev.pmacClass n k then (s.dev.ch n).smd else 0 }
           ∧ (e.ch n).queues = (s.dev.ch n).queues.modify k (·.drop 1)) ∧
    (∀ (n : Fin 4) (m : Mote) (k : Nat) (x : Sys2Proof.Machine.Frm) (w : Wire), s.dev.canStart n = true →
     s.dev.canFinish n = false → (s.dev.ch n).cur = some w → s.dev.on (CHn_PREEMPT_STATUS.ACTIVE n) = true →
     (atMote m s.dev).mayPreempt n w = true → (atMote m s.dev).nextTx n true = .queue k x → s.dev.poisoned x = false →
     (s.dev.ch n).loop ≠ 1 → s.dev.pm.upsets = [] → s.dev.chan.length = 4 →
       Ends (.txFrameStart n [] m) s fun e => Only s.dev e [CHn_STATi.COUNT n 32, CHn_STATi.COUNT n 33,
         CHn_STAT_HALF1.HALF n, CHn_EVENT.STAT_HALF n] ∧ e.sram = s.dev.sram ∧ (e.ch n).pre = some
         { w with sent := w.sent + (atMote m s.dev).sentNow n w, frags := w.frags + 1 } ∧ (e.ch n).cur.map (·.frm) = some x ∧
         e.outs = [.mpacket n (if w.frags = 0 then .start w.code true true else .cont w.code (Fin.ofNat 4 (w.frags - 1)) true true)
           ((w.frm.data.drop w.sent).take ((atMote m s.dev).sentNow n w))] ∧ e.rd (CHn_STATi.COUNT
         n 32) = (s.dev.rd (CHn_STATi.COUNT n 32) + 1) % 2 ^ 32) ∧
    (∀ (n : Fin 4) (m : Mote) (w : Wire), (s.dev.ch n).cur = some w → (s.dev.ch n).loop ≠ 1 → w.kind = .express →
     s.dev.poisoned w.frm = false → w.frm.host = none → w.frm.llb = none → w.frm.gasp = false → s.dev.fenced n = false →
     QueuesClean s → s.dev.chan.length = 4 →
       Ends (.txFrameEnd n m) s fun e => (e.ch n).cur = none ∧ Out.tx n w.frm.data ∈ e.outs ∧ e.rd (CHn_STATi.COUNT n
         24) = (s.dev.rd (CHn_STATi.COUNT n 24) + 1) % 2 ^ 32 ∧ e.rd (CHn_STATi.COUNT n 25) = (s.dev.rd (CHn_STATi.COUNT n 25)
         + w.frm.data.length) % 2 ^ 32) ∧
    (∀ (n : Fin 4) (m : Mote) (w : Wire), (s.dev.ch n).cur = some w → (s.dev.ch n).loop ≠ 1 → w.kind = .pause →
     (s.dev.ch n).recalDue = false → s.dev.fenced n = false → QueuesClean s → s.dev.chan.length = 4 →
       Ends (.txFrameEnd n m) s fun e => Only s.dev e [CHn_STATi.COUNT n 29, CHn_STAT_HALF0.HALF n, CHn_EVENT.STAT_HALF n] ∧
         e.sram = s.dev.sram ∧ (e.ch n).cur = none ∧ e.outs = [.tx n w.frm.data] ∧ e.rd (CHn_STATi.COUNT n 29) =
         (s.dev.rd (CHn_STATi.COUNT n 29) + 1) % 2 ^ 32) ∧
    (∀ (n : Fin 4) (m : Mote) (w : Wire), (s.dev.ch n).cur = some w → (s.dev.ch n).loop = 1 → w.kind = .pause →
     (s.dev.ch n).recalDue = false → (s.dev.ch n).recal = false → s.dev.rxLive n = true → s.dev.fenced n = false →
     64 ≤ w.frm.data.length → w.frm.data.length ≤ s.dev.rd (CHn_MAX_LEN.MAX n) → fcsOk w.frm.data = true →
     beAt w.frm.data 12 2 = 0x8808 → beAt w.frm.data 14 2 = 1 → QueuesClean s → s.dev.chan.length = 4 →
       Ends (.txFrameEnd n m) s fun e => (e.ch n).cur = none ∧ e.outs = [.looped n .express w.start w.frm.data] ∧
         e.rd (CHn_STATi.COUNT n 29) = (s.dev.rd (CHn_STATi.COUNT n 29) + 1) % 2 ^ 32 ∧
         e.rd (CHn_STATi.COUNT n 5) = (s.dev.rd (CHn_STATi.COUNT n 5) + 1) % 2 ^ 32) ∧
    (∀ (n : Fin 4), Taken 1 s → s.dev.chan.length = 4 →
       Does (.txts0Read n) s
         [(⟨CHn_PTP_TXTS1.addr n, 0, 32⟩, (s.dev.ch n).ptp.getD 0 0 % 2 ^ 32),
          (⟨CHn_PTP_TXTS2.addr n, 0, 32⟩, (s.dev.ch n).ptp.getD 1 0 % 2 ^ 32),
          (⟨CHn_PTP_TXTS3.addr n, 0, 32⟩, (s.dev.ch n).ptp.getD 2 0 % 2 ^ 32)]
         fun e => e.outs = [.read (BitVec.ofNat 32 (s.dev.rd (CHn_PTP_TXTS0.SEC_LO n)))] ∧ (e.ch n).ptp.getD 2 0 = (s.dev.ch
           n).ptp.getD 2 0 % 2 ^ 20) ∧
    (∀ (data : Bytes), s.dev.tier = 4 → s.dev.rat.wakeFr = none → s.dev.patternHit data = true → s.dev.booted = true →
     s.dev.on RAT_BIV_CFG.WAKE_PAT = true → s.dev.capsHold = false → s.dev.rat.shadow = none →
       Ends (.patternWake data) s fun e => e.rd RAT_WAKE_SRC.SRC = 1 ∧ e.rd RAT_EVENT.WAKE = 1 ∧ e.rd RAT_CTRL.BIV_REQ = 0 ∧
         e.rat.wakeFr.isSome = true ∧ e.rat.announced = 3)

/-! ### Classifier, gate schedules, replication, packet memory (spec/08 to spec/10) -/

/-- The staging buffer g holds entry ix. -/
abbrev Stages (g : Stage) (ix : Nat) : Bool := g.held && g.idx == ix

/-- A write to entry ix drops the words of another entry that the buffer g held. -/
abbrev Loses (g : Stage) (ix : Nat) : Bool := g.held && g.dirty && g.idx != ix

/-- The staged words of entry ix, or those of the entry as it stands. -/
abbrev ClsWords (mk : Bool) (ix : Fin 4096) (s : State) : List Nat :=
  if Stages (s.dev.stage mk) ix then (s.dev.stage mk).w else s.dev.entWords mk ix

/-- The same for a stream entry. -/
abbrev FreWords (st : Fin 1024) (s : State) : List Nat :=
  if Stages s.dev.tab.fre st then s.dev.tab.fre.w else s.dev.strmWords st

/-- A write of an entry word goes to the staging buffer of its store, which drops another entry it held (R182); a commit that
keeps R181 puts the staged words into lookups with a new GEN, another is refused and counted. Stream words are staged and
committed as R211 says, a new mode clears the history (R212); a recovering stream that passed nothing for RESET_FR frames
takes any number (R208); the latent check, at every LATENT_SF-th superframe event, compares passed and duplicate counts
(R209). -/
def Obligations.EntriesAndStreams : Prop :=
  ∀ s : State,
    (∀ (ix : Fin 4096) (k : Fin 16) (x : Word), Taken 1 s →
       Does (.clsEntryWrite false ix k x) s
         [(CLS_STATUS.STAGE_EX, ix.val), (CLS_STATUS.STAGE_EX_DIRTY, 1),
          (CLS_STAGE_LOST.COUNT, if Loses s.dev.tab.ex ix then min (s.dev.rd CLS_STAGE_LOST.COUNT + 1) (2 ^ 32 - 1) else
            s.dev.rd CLS_STAGE_LOST.COUNT),
          (CLS_EVENT.STAGE_LOST, if Loses s.dev.tab.ex ix then 1 else s.dev.rd CLS_EVENT.STAGE_LOST)]
         fun e => e.tab.ex = { idx := ix, held := true, dirty := true, w := (ClsWords false ix s).set k x.toNat } ∧
           e.tab.msk = s.dev.tab.msk) ∧
    (∀ (ix : Fin 4096) (k : Fin 16) (x : Word), Taken 1 s → ix.val < 256 →
       Does (.clsEntryWrite true ix k x) s
         [(CLS_STATUS.STAGE_MK, ix.val), (CLS_STATUS.STAGE_MK_DIRTY, 1),
          (CLS_STAGE_LOST.COUNT, if Loses s.dev.tab.msk ix then min (s.dev.rd CLS_STAGE_LOST.COUNT + 1) (2 ^ 32 - 1) else
            s.dev.rd CLS_STAGE_LOST.COUNT),
          (CLS_EVENT.STAGE_LOST, if Loses s.dev.tab.msk ix then 1 else s.dev.rd CLS_EVENT.STAGE_LOST)]
         fun e => e.tab.msk = { idx := ix, held := true, dirty := true, w := (ClsWords true ix s).set k x.toNat } ∧
           e.tab.ex = s.dev.tab.ex) ∧
    (∀ (masked : Bool) (ix : Fin 4096) (ctrl : Word), Taken 1 s → (masked = true → ix.val < 256) →
     (ClsWords masked ix s).length = ctrlIdx masked → entryOk s.dev.flowOk masked (ClsWords masked ix s) ctrl.toNat = true →
       Ends (.clsCommit masked ix ctrl) s fun e => Within s.dev e [12, 132, 133, 134, 135, 136, 137, 138, 139, 140] ∧ e.sram
         = s.dev.sram ∧ e.entWords masked ix = (ClsWords masked ix s).map (· % 2 ^ 32) ∧ e.entCtrl masked ix = ctrl.toNat % 2
         + (bits (s.dev.entCtrl masked ix) 8 8 + 1) % 256 * 256 ∧ e.stage masked =
         { s.dev.stage masked with dirty := (s.dev.stage masked).dirty && !Stages (s.dev.stage masked) ix } ∧ e.rd CLS_ENTRY_REJ.COUNT =
         s.dev.rd CLS_ENTRY_REJ.COUNT) ∧
    (∀ (masked : Bool) (ix : Fin 4096) (ctrl : Word), Taken 1 s → (masked = true → ix.val < 256) →
     entryOk s.dev.flowOk masked (ClsWords masked ix s) ctrl.toNat = false →
       Ends (.clsCommit masked ix ctrl) s fun e => Only s.dev e [CLS_ENTRY_REJ.COUNT, CLS_EVENT.ENTRY_REJ,
         CLS_STATUS.STAGE_EX, CLS_STATUS.STAGE_EX_DIRTY, CLS_STATUS.STAGE_MK, CLS_STATUS.STAGE_MK_DIRTY] ∧ e.sram =
         s.dev.sram ∧ e.rd CLS_ENTRY_REJ.COUNT = min (s.dev.rd CLS_ENTRY_REJ.COUNT + 1) (2 ^ 32 - 1) ∧ e.rd
         CLS_EVENT.ENTRY_REJ = 1 ∧ (Stages (s.dev.stage masked) ix = true → e.stage masked =
         { s.dev.stage masked with dirty := false, w := s.dev.entWords masked ix })) ∧
    (∀ (src : BusSrc) (st : Fin 1024) (k : Fin 7) (x : Word), Reaches src s → s.dev.pd 1 = true → k.val < 4 →
       Does (.freEntryWrite src st k x) s
         [(FRE_STATUS.STAGE, st.val), (FRE_STATUS.STAGE_DIRTY, 1),
          (FRE_STAGE_LOST.COUNT, if Loses s.dev.tab.fre st then min (s.dev.rd FRE_STAGE_LOST.COUNT + 1) (2 ^
            FRE_STAGE_LOST.COUNT.w - 1) else s.dev.rd FRE_STAGE_LOST.COUNT),
          (FRE_EVENT.STAGE_LOST, if Loses s.dev.tab.fre st then 1 else s.dev.rd FRE_EVENT.STAGE_LOST)]
         fun e => e.tab.fre = { idx := st, held := true, dirty := true, w := (FreWords st s).set k x.toNat }) ∧
    (∀ (src : BusSrc) (st : Fin 1024) (k : Fin 7) (x : Word), Reaches src s → s.dev.pd 1 = true → 4 ≤ k.val →
       Does (.freEntryWrite src st k x) s
         [(GLB_BADWR.COUNT, min (s.dev.rd GLB_BADWR.COUNT + 1) (2 ^ 32 - 1)), (GLB_BADWR_INFO.OFFSET, (strmOff st k)),
          (GLB_BADWR_INFO.SRC, srcCode src), (GLB_BADWR_INFO.FN, srcFn src)]
         fun e => e.tab = s.dev.tab) ∧
    (∀ (st : Fin 1024) (ctrl : Word), Taken 1 s → (FreWords st s).length = 4 → strmOk (FreWords st s) ctrl.toNat = true →
       Ends (.freCommit st ctrl) s fun e => Only s.dev e [FRE_STATUS.STAGE, FRE_STATUS.STAGE_DIRTY, ⟨strmOff st 0, 0, 32⟩,
         ⟨strmOff st 1, 0, 32⟩, ⟨strmOff st 2, 0, 32⟩, ⟨strmOff st 3, 0, 32⟩, ⟨strmOff st 4, 0, 32⟩, ⟨strmOff st 5, 0, 32⟩,
         ⟨strmOff st 6, 0, 32⟩, ⟨strmOff st 7, 0, 32⟩] ∧ e.sram = s.dev.sram ∧ e.strmWords st = (FreWords st s).map (· % 2 ^
         32) ∧ bit (e.sw st 7) 0 = bit ctrl.toNat 0 ∧ bits (e.sw st 7) 8 8 = (bits (s.dev.sw st 7) 8 8 + 1) % 256 ∧
         e.tab.fre = { s.dev.tab.fre with dirty := s.dev.tab.fre.dirty && !Stages s.dev.tab.fre st } ∧ (bit ctrl.toNat 1 =
         true → e.seqNext st = bits ((FreWords st s).getD 1 0) 0 16) ∧ (bit
         ctrl.toNat 2 = true → e.takeAny st = true ∧ e.history st = 0)) ∧
    (∀ (st : Fin 1024) (ctrl : Word), Taken 1 s → strmOk (FreWords st s) ctrl.toNat = false →
       Ends (.freCommit st ctrl) s fun e => Only s.dev e [FRE_ENTRY_REJ.COUNT, FRE_EVENT.ENTRY_REJ, FRE_STATUS.STAGE,
         FRE_STATUS.STAGE_DIRTY] ∧ e.sram = s.dev.sram ∧ e.rd FRE_ENTRY_REJ.COUNT = min (s.dev.rd FRE_ENTRY_REJ.COUNT + 1) (2 ^
         FRE_ENTRY_REJ.COUNT.w - 1) ∧ e.rd FRE_EVENT.ENTRY_REJ = 1 ∧ (Stages s.dev.tab.fre st = true → e.tab.fre =
         { s.dev.tab.fre with dirty := false, w := s.dev.strmWords st })) ∧
    (∀ (st : Fin 1024), s.dev.sValid st = true → s.dev.sMode st = 2 → s.dev.takeAny st = false →
     bits (s.dev.sw st 0) 10 11 ≤ (s.dev.strm st).idleFr →
       Ends (.recovReset st) s fun e => Only s.dev e [⟨strmOff st 7, 0, 32⟩, ⟨0x290014 + 64 * st.val, 0, 32⟩,
         FRE_EVENT.RECOV_RESET] ∧ e.sram = s.dev.sram ∧ e.takeAny st = true ∧ e.rd FRE_EVENT.RECOV_RESET = 1 ∧ e.word
         (0x290014 + 64 * st.val) = min (s.dev.word (0x290014 + 64 * st.val) + 1) (2 ^ 32 - 1)) ∧
    (s.dev.rat.sfEv = false ∨ s.dev.tab.latentN < s.dev.rd FRE_CFG.LATENT_SF →
       Does .latentCheck s [] fun e => e.tab = s.dev.tab) ∧
    (∀ (st : Fin 1024), s.dev.rat.sfEv = true → s.dev.rd FRE_CFG.LATENT_SF ≤ s.dev.tab.latentN →
     s.dev.validStreams = [st.val] → s.dev.sMode st = 2 → bit (s.dev.sw st 0) 23 = true → (s.dev.strm st).p ≠ 0 →
       Ends .latentCheck s fun e => Only s.dev e [⟨strmOff st 7, 0, 32⟩, FRE_EVENT.LATENT] ∧ e.sram = s.dev.sram ∧ bit (e.sw
         st 7) 4 = decide (((s.dev.strm st).p : Int) * (bits (s.dev.sw st 0) 21 2 + 1) - (s.dev.strm st).dd > (s.dev.strm
         st).p * (bits (s.dev.sw st 0) 21 2 + 1) / 4 + 2) ∧ (e.strm st).p = 0 ∧ (e.strm st).dd = 0 ∧ e.tab.latentN = 0 ∧ (bit (e.sw st 7) 4 = true
         → e.rd FRE_EVENT.LATENT = 1))

/-- A commit gives the first result of R195 that applies: not ON, busy, Hearth invalid, a faulty list with its entry; one that
passes all and admission arms the engine, or sets the swap time, at the first cycle start at or after now + 2 fr. CANCEL
and EN cleared undo it. -/
def Obligations.GateCommit : Prop :=
  ∀ s : State,
    (∀ (n : Fin 4), Taken 1 s → s.dev.rd (CHn_GATE_STATUS.RUN n) ≠ 2 ∨ s.dev.fenced n = true →
       Does (.gateCommit n) s
         [(CHn_GATE_COMMIT_STAT.RESULT n, 8), (CHn_GATE_COMMIT_STAT.BANK n, s.dev.adminBank n % 2),
          (CHn_GATE_COMMIT_STAT.BAD_ENTRY n, 0), (CHn_GATE_CTRL.COMMIT n, 0), (CHn_GATE_EVENT.COMMIT_DONE n, 1)]
         fun e => e.chan = s.dev.chan) ∧
    (∀ (n : Fin 4), Taken 1 s → s.dev.rd (CHn_GATE_STATUS.RUN n) = 2 → s.dev.fenced n = false →
     (s.dev.gate n).st = 1 ∨ (s.dev.gate n).st = 3 →
       Does (.gateCommit n) s
         [(CHn_GATE_COMMIT_STAT.RESULT n, 5), (CHn_GATE_COMMIT_STAT.BANK n, s.dev.adminBank n % 2),
          (CHn_GATE_COMMIT_STAT.BAD_ENTRY n, 0), (CHn_GATE_CTRL.COMMIT n, 0), (CHn_GATE_EVENT.COMMIT_DONE n, 1)]
         fun e => e.chan = s.dev.chan) ∧
    (∀ (n : Fin 4), Taken 1 s → s.dev.rd (CHn_GATE_STATUS.RUN n) = 2 → s.dev.fenced n = false → (s.dev.gate n).st ≠ 1 →
     (s.dev.gate n).st ≠ 3 → s.dev.valid = false →
       Does (.gateCommit n) s
         [(CHn_GATE_COMMIT_STAT.RESULT n, 6), (CHn_GATE_COMMIT_STAT.BANK n, s.dev.adminBank n % 2),
          (CHn_GATE_COMMIT_STAT.BAD_ENTRY n, 0), (CHn_GATE_CTRL.COMMIT n, 0), (CHn_GATE_EVENT.COMMIT_DONE n, 1)]
         fun e => e.chan = s.dev.chan) ∧
    (∀ (n : Fin 4) (bad : Nat), Taken 1 s → s.dev.rd (CHn_GATE_STATUS.RUN n) = 2 → s.dev.fenced n = false →
     (s.dev.gate n).st ≠ 1 → (s.dev.gate n).st ≠ 3 → s.dev.valid = true → s.dev.listBad n (s.dev.adminBank n) = some bad →
       Does (.gateCommit n) s
         [(CHn_GATE_COMMIT_STAT.RESULT n, 3), (CHn_GATE_COMMIT_STAT.BANK n, s.dev.adminBank n % 2),
          (CHn_GATE_COMMIT_STAT.BAD_ENTRY n, bad % 1024), (CHn_GATE_CTRL.COMMIT n, 0), (CHn_GATE_EVENT.COMMIT_DONE n, 1)]
         fun e => e.chan = s.dev.chan) ∧
    (∀ (n : Fin 4), Taken 1 s → s.dev.rd (CHn_GATE_STATUS.RUN n) = 2 → s.dev.fenced n = false → (s.dev.gate n).st = 0 →
     s.dev.valid = true → s.dev.listBad n (s.dev.adminBank n) = none →
     (admission (s.dev.banksWith n) (s.dev.slotCosts s.dev.peg.oper) s.dev).passed = true → s.dev.chan.length = 4 →
       Ends (.gateCommit n) s fun e => Only s.dev e [CHn_GATE_STATUS.GSTATE n, CHn_GATE_STATUS.OPER_BANK n,
         CHn_GATE_STATUS.HAVE_LIST n, CHn_GATE_STATUS.GATES n, CHn_GATE_STATUS.ENTRY n, CHn_GATE_STATUS.HOLD n,
         CHn_PREEMPT_STATUS.HOLD n, CHn_GATE_COMMIT_STAT.RESULT n, CHn_GATE_COMMIT_STAT.BANK n, CHn_GATE_COMMIT_STAT.BAD_ENTRY
         n, CHn_GATE_SWAP_T_LO.T n, CHn_GATE_SWAP_T_HI.T n, CHn_GATE_CTRL.COMMIT n, CHn_GATE_EVENT.COMMIT_DONE n,
         PMC_LAST_SUM.SLOTS, PMC_TERM_CHn.SLOTS 0, PMC_TERM_CHn.SLOTS 1, PMC_TERM_CHn.SLOTS 2, PMC_TERM_CHn.SLOTS 3,
         PMC_TERM_PEG.SLOTS, PMC_STATUS.LAST_RESULT, PMC_STATUS.LAST_SRC, PMC_STATUS.LAST_CH, PMC_SHORTFALL.SLOTS,
         PMC_ADMITTED.SLOTS, PMC_GUAR_LATCH.GUAR] ∧ e.sram = s.dev.sram ∧ e.rd (CHn_GATE_COMMIT_STAT.RESULT n) = 1 ∧ e.rd
         (CHn_GATE_EVENT.COMMIT_DONE n) = 1 ∧ (e.gate n).st = 1 ∧ (e.gate n).oper = some (s.dev.adminBank n) ∧ (e.gate
         n).start = s.dev.bankStart n (s.dev.adminBank n) (s.dev.nowExt + 2 * frMt) ∧ e.rd PMC_STATUS.LAST_RESULT = 1) ∧
    (∀ (n : Fin 4), Taken 1 s → s.dev.rd (CHn_GATE_STATUS.RUN n) = 2 → s.dev.fenced n = false → (s.dev.gate n).st = 2 →
     s.dev.valid = true → s.dev.listBad n (s.dev.adminBank n) = none →
     (admission (s.dev.banksWith n) (s.dev.slotCosts s.dev.peg.oper) s.dev).passed = true → s.dev.chan.length = 4 →
       Ends (.gateCommit n) s fun e => Within s.dev e [8, 9, 10, 11, 16] ∧ e.sram = s.dev.sram ∧ e.rd
         (CHn_GATE_COMMIT_STAT.RESULT n) = 1 ∧ (e.gate n).st = 3 ∧ (e.gate n).oper = (s.dev.gate n).oper ∧ (e.gate n).pend =
         some (s.dev.adminBank n) ∧ (e.gate n).swapT = s.dev.bankStart n (s.dev.adminBank n) (s.dev.nowExt + 2 * frMt)) ∧
    (∀ (n : Fin 4), Taken 1 s → (s.dev.gate n).st = 1 → s.dev.chan.length = 4 →
       Ends (.gateCancel n) s fun e => Only s.dev e [CHn_GATE_STATUS.GSTATE n, CHn_GATE_STATUS.OPER_BANK n,
         CHn_GATE_STATUS.HAVE_LIST n, CHn_GATE_STATUS.GATES n, CHn_GATE_STATUS.ENTRY n, CHn_GATE_STATUS.HOLD n,
         CHn_PREEMPT_STATUS.HOLD n, CHn_GATE_COMMIT_STAT.RESULT n, CHn_GATE_EVENT.FALLBACK_ENTER n] ∧ e.sram = s.dev.sram ∧
         (e.gate n).st = 0 ∧ (e.gate n).oper = none ∧ e.rd (CHn_GATE_COMMIT_STAT.RESULT n) = 7 ∧ e.rd
         (CHn_GATE_EVENT.FALLBACK_ENTER n) = 1 ∧ e.rd (CHn_GATE_STATUS.GSTATE n) = 0) ∧
    (∀ (n : Fin 4), Taken 1 s → (s.dev.gate n).st = 3 → s.dev.chan.length = 4 →
       Ends (.gateCancel n) s fun e => Only s.dev e [CHn_GATE_STATUS.GSTATE n, CHn_GATE_STATUS.OPER_BANK n,
         CHn_GATE_STATUS.HAVE_LIST n, CHn_GATE_STATUS.GATES n, CHn_GATE_STATUS.ENTRY n, CHn_GATE_STATUS.HOLD n,
         CHn_PREEMPT_STATUS.HOLD n, CHn_GATE_COMMIT_STAT.RESULT n] ∧ e.sram = s.dev.sram ∧ (e.gate n).st = 2 ∧ (e.gate n).pend
         = none ∧ (e.gate n).oper = (s.dev.gate n).oper ∧ e.rd (CHn_GATE_COMMIT_STAT.RESULT n) = 7) ∧
    (∀ (n : Fin 4), Taken 1 s → (s.dev.gate n).st ≠ 0 → s.dev.chan.length = 4 →
       Ends (.gateDisable n) s fun e => Only s.dev e [CHn_GATE_STATUS.GSTATE n, CHn_GATE_STATUS.OPER_BANK n,
         CHn_GATE_STATUS.HAVE_LIST n, CHn_GATE_STATUS.GATES n, CHn_GATE_STATUS.ENTRY n, CHn_GATE_STATUS.HOLD n,
         CHn_PREEMPT_STATUS.HOLD n, CHn_GATE_COMMIT_STAT.RESULT n, CHn_GATE_EVENT.FALLBACK_ENTER n, CHn_GATE_STATUS.RUN n,
         CHn_GATE_CTRL.EN n] ∧ e.sram = s.dev.sram ∧ (e.gate n).st = 0 ∧ (e.gate n).pend = none ∧ e.rd (CHn_GATE_STATUS.RUN n)
         = runDisable (s.dev.rd (CHn_GATE_STATUS.RUN n)) ∧ e.rd (CHn_GATE_CTRL.EN n) = 0 ∧ e.rd (CHn_GATE_EVENT.FALLBACK_ENTER n) = 1 ∧ e.rd (CHn_GATE_STATUS.GATES n) =
         s.dev.fbGates n)

/-- The end of entry 0 of bank b of channel n in a run begun at t. -/
abbrev FirstEnd (n : Fin 4) (b t : Nat) (s : State) : Nat := (turnOf (s.dev.bankLay n b) t (s.dev.bankCycle n b) t 0).2

/-- An armed list starts with entry 0 at its time, a pending one swaps in (Table 8.5), unless a step is announced (R62);
the next entry takes effect at its start with its gates and its operation (R190, R191); an outvoted copy is mended, copies
without majority fence the channel (R198); a CAL window recalibrates the lane (R192). -/
def Obligations.GateLists : Prop :=
  ∀ s : State,
    (∀ (n : Fin 4) (m : Mote) (b : Nat), (s.dev.gate n).oper = some b → (s.dev.gate n).st = 1 →
     (s.dev.gate n).start ≤ (atMote m s.dev).nowExt → (atMote m s.dev).nowExt < FirstEnd n b (s.dev.gate n).start s →
     s.dev.chan.length = 4 →
       Ends (.gateListStart n m) s fun e => Within s.dev e [8, 9, 10, 11] ∧ e.sram = s.dev.sram ∧ (e.gate n).st = 2 ∧
         (e.gate n).oper = some b ∧ (e.gate n).entry = 0 ∧ (e.gate n).gates = entGates (s.dev.bankLay n b) 0 ∧ e.rd
         (CHn_GATE_EVENT.SWAPPED n) = 1 ∧ e.rd (CHn_GATE_STATUS.GSTATE n) = 2 ∧ e.rd (CHn_GATE_STATUS.GATES n) = (entGates
         (s.dev.bankLay n b) 0) % 256) ∧
    (∀ (n : Fin 4) (m : Mote) (b : Nat), (s.dev.gate n).pend = some b → (s.dev.gate n).st = 3 →
     (s.dev.gate n).swapT ≤ (atMote m s.dev).nowExt → (atMote m s.dev).nowExt < FirstEnd n b (s.dev.gate n).swapT s →
     s.dev.stepping = false → s.dev.chan.length = 4 →
       Ends (.gateSwap n m) s fun e => Within s.dev e [8, 9, 10, 11] ∧ e.sram = s.dev.sram ∧ (e.gate n).st = 2 ∧ (e.gate
         n).oper = some b ∧ (e.gate n).pend = none ∧ (e.gate n).start = (s.dev.gate n).swapT ∧ (e.gate n).gates = entGates
         (s.dev.bankLay n b) 0 ∧ e.rd (CHn_GATE_EVENT.SWAPPED n) = 1) ∧
    (∀ (n : Fin 4) (m : Mote) (b : Nat), (s.dev.gate n).pend = some b → (s.dev.gate n).st = 3 →
     (s.dev.gate n).swapT ≤ (atMote m s.dev).nowExt → s.dev.stepping = true → s.dev.chan.length = 4 →
       Ends (.gateSwap n m) s fun e => Only s.dev e [CHn_GATE_STATUS.GSTATE n, CHn_GATE_STATUS.OPER_BANK n,
         CHn_GATE_STATUS.HAVE_LIST n, CHn_GATE_STATUS.GATES n, CHn_GATE_STATUS.ENTRY n, CHn_GATE_STATUS.HOLD n,
         CHn_PREEMPT_STATUS.HOLD n, CHn_GATE_SWAP_T_LO.T n, CHn_GATE_SWAP_T_HI.T n, CHn_GATE_EVENT.SWAP_DEFERRED n] ∧ e.sram =
         s.dev.sram ∧ (e.gate n).st = 3 ∧ (e.gate n).pend = some b ∧ (e.gate n).swapT = (atMote m s.dev).bankStart n b (atMote
         m s.dev).nextSf ∧ e.rd (CHn_GATE_EVENT.SWAP_DEFERRED n) = 1) ∧
    (∀ (n : Fin 4) (m : Mote) (b : Nat) (k : Nat), (s.dev.gate n).oper = some b → (s.dev.gate n).st = 2 ∨
     (s.dev.gate n).st = 3 → (s.dev.gate n).endT ≤ (atMote m s.dev).nowExt →
     coverIdx (s.dev.bankLay n b) (((s.dev.gate n).endT - (s.dev.gate n).start) % s.dev.bankCycle n b) = k →
     (atMote m s.dev).nowExt < (turnOf (s.dev.bankLay n b) (s.dev.gate n).start (s.dev.bankCycle n b) (s.dev.gate n).endT k).2 →
     s.dev.chan.length = 4 →
       Ends (.gateEntryStart n m) s fun e => Within s.dev e [8, 9, 10, 11] ∧ e.sram = s.dev.sram ∧ (e.gate n).entry = k ∧
         (e.gate n).st = (s.dev.gate n).st ∧ (e.gate n).gates = entGates (s.dev.bankLay n b) k ∧ (e.gate n).hold =
         (if entOp (s.dev.bankLay n b) k = 1 then true else if entOp (s.dev.bankLay n b) k = 2 then false else (s.dev.gate
         n).hold) ∧ (e.gate n).cal = (entOp (s.dev.bankLay n b) k == 3)) ∧
    (∀ (n : Fin 4) (m : Mote), (atMote m s.dev).nowExt < (s.dev.gate n).endT →
       Does (.gateEntryStart n m) s [] fun e => e.chan = s.dev.chan) ∧
    (∀ (n : Fin 4) (k : Fin 3) (w : GateWord), s.dev.pd 1 = true → (s.dev.ch n).gb = (s.dev.ch n).ga →
     (s.dev.ch n).gc = (s.dev.ch n).ga → ((s.dev.ch n).ga.upset w).word ≠ (s.dev.ch n).ga.word → s.dev.chan.length = 4 →
       Ends (.gateVoteFix n k w) s fun e => Only s.dev e [CHn_GATE_VOTE.FIX_A n, CHn_GATE_VOTE.FIX_B n,
         CHn_GATE_VOTE.FIX_C n, CHn_GATE_EVENT.VOTE_FIX n, SHD_PENj.PEN 3] ∧ e.sram = s.dev.sram ∧ e.rd
         (CHn_GATE_EVENT.VOTE_FIX n) = 1 ∧ (k = 0 → e.rd (CHn_GATE_VOTE.FIX_A n) = min (s.dev.rd (CHn_GATE_VOTE.FIX_A n) + 1)
         255) ∧ (k = 1 → e.rd (CHn_GATE_VOTE.FIX_B n) = min (s.dev.rd (CHn_GATE_VOTE.FIX_B n) + 1) 255) ∧ (k = 2 → e.rd
         (CHn_GATE_VOTE.FIX_C n) = min (s.dev.rd (CHn_GATE_VOTE.FIX_C n) + 1) 255) ∧ e.chan = s.dev.chan) ∧
    (∀ (n : Fin 4), s.dev.pd 1 = true → s.dev.chan.length = 4 →
       Ends (.gateNomaj n) s fun e => e.rd (CHn_GATE_VOTE.NOMAJ n) = min (s.dev.rd (CHn_GATE_VOTE.NOMAJ n) + 1) 255 ∧ e.rd
         (CHn_STATUS.FENCED n) = 1 ∧ bit (e.causes n) 0 = true ∧ (s.dev.causes n = 0 → (e.ch n).fencing = true ∧ (e.gate n).st
         = 0 ∧ (∀ k : Fin 8, (e.ch n).queues.getD k [] = []))) ∧
    (∀ (n : Fin 4) (m : Mote), s.dev.wireIdle n = true → s.dev.bitOf RAT_DOM_STATUS.LANE_ON n = true → 10067 ≤ (atMote m s.dev).calLeft n → (s.dev.ch n).recal = false →
     s.dev.chan.length = 4 → Does (.calRecalStart n m) s [(CHn_GATE_STATUS.CAL_ACTIVE n, 1)] fun e => (e.ch n).recal = true) ∧
    (∀ (n : Fin 4), (s.dev.ch n).recal = true → s.dev.chan.length = 4 →
       Does (.calRecalEnd n) s [(CHn_GATE_STATUS.CAL_ACTIVE n, 0)] fun e => (e.ch n).recal = false ∧ (e.ch n).recalFr = 0)

/-- Refreshes that guaranteed work puts off are owed and paid, the eighth forced and counted (R219); an overdue recalibration is
forced once the wire is idle, and counted (R230); the scrub reads the cell that is due in an idle slot, logs what it finds and
goes on (R217, R220); CHECK reports the sum of R222 without taking it. -/
def Obligations.PacketMemory : Prop :=
  ∀ s : State,
    (∀ (bank : Fin 4) (paid : Nat), s.dev.pd 2 = true → s.dev.on RAT_DOM_STATUS.PMEM_SR = false →
     s.dev.pm.owed.getD bank 0 - paid = 7 → s.dev.pm.owed.length = 4 →
       Ends (.refreshForced ⟨bank, paid, 1⟩) s fun e => Only s.dev e [PMC_REF_FORCED.COUNT, PMC_EVENT.REF_FORCED,
         PMC_REF_OWED_MAX.OWED, SHD_PENj.PEN 4] ∧ e.sram = s.dev.sram ∧ e.rd PMC_REF_FORCED.COUNT = min (s.dev.rd
         PMC_REF_FORCED.COUNT + 1) (2 ^ PMC_REF_FORCED.COUNT.w - 1) ∧ e.rd PMC_EVENT.REF_FORCED = 1 ∧ e.rd
         PMC_REF_OWED_MAX.OWED = max (s.dev.rd PMC_REF_OWED_MAX.OWED) 8 ∧ e.pm.owed.getD bank 0 = 7) ∧
    (∀ (bank : Fin 4) (paid : Nat), s.dev.pd 2 = true → s.dev.on RAT_DOM_STATUS.PMEM_SR = false →
     s.dev.pm.owed.getD bank 0 - paid < 7 → s.dev.pm.owed.length = 4 →
       Does (.refreshForced ⟨bank, paid, 1⟩) s
         [(PMC_REF_OWED_MAX.OWED, max (s.dev.rd PMC_REF_OWED_MAX.OWED) (s.dev.pm.owed.getD bank 0 - paid + 1))]
         fun e => e.pm.owed.getD bank 0 = s.dev.pm.owed.getD bank 0 - paid + 1) ∧
    (∀ (bank : Fin 4) (paid : Nat), s.dev.pd 2 = true → s.dev.on RAT_DOM_STATUS.PMEM_SR = false →
     s.dev.pm.owed.length = 4 →
       Does (.refreshForced ⟨bank, paid, 0⟩) s [] fun e => e.pm.owed.getD bank 0 = s.dev.pm.owed.getD bank 0 - paid) ∧
    (∀ (bank : Fin 4) (paid taken : Nat), s.dev.pd 2 = false ∨ s.dev.on RAT_DOM_STATUS.PMEM_SR = true →
       Does (.refreshForced ⟨bank, paid, taken⟩) s [] fun e => e.pm = s.dev.pm) ∧
    (∀ (w : Fin 32) (y : BitVec 8) (m : Mote), s.dev.scrubRuns = true → s.dev.pm.upsets = [] → s.dev.pm.scrubPos + 1 < cellCount →
     s.dev.scrubDue s.dev.pm.scrubPos ≤ (atMote m s.dev).nowExt →
       Ends (.scrubCellDue ⟨[{ cell := s.dev.pm.scrubPos, word := w, syn := y }], true⟩ m) s fun e => Within s.dev e [16, 21] ∧
         e.sram = s.dev.sram ∧ e.rd PMC_SCRUB_STAT.POS = s.dev.pm.scrubPos + 1 ∧ e.pm.scrubPos = s.dev.pm.scrubPos + 1 ∧
         e.pm.upsets = [] ∧ e.rd PMC_ECC_LOG.CELL = s.dev.pm.scrubPos ∧ e.rd PMC_ECC_LOG.WORD = w.val
         ∧ e.rd PMC_ECC_LOG.UE = 0 ∧ e.rd PMC_ECC_LOG.SRC = 1 ∧ e.rd PMC_ECC_SYN.SYNDROME = y.toNat ∧ e.rd PMC_ECC_CE.COUNT =
         min (s.dev.rd PMC_ECC_CE.COUNT + 1) (2 ^ PMC_ECC_CE.COUNT.w - 1) ∧ e.rd PMC_EVENT.ECC_CE = 1) ∧
    (∀ (m : Mote), s.dev.scrubRuns = true → s.dev.scrubDue s.dev.pm.scrubPos ≤ (atMote m s.dev).nowExt →
       Does (.scrubCellDue ⟨[], false⟩ m) s [(PMC_STATUS.SCRUB_BEHIND, 1)] fun e => e.pm.scrubPos = s.dev.pm.scrubPos) ∧
    (∀ (m : Mote), s.dev.scrubRuns = true → s.dev.pm.upsets = [] → s.dev.pm.scrubPos + 1 = cellCount →
     s.dev.scrubDue s.dev.pm.scrubPos ≤ (atMote m s.dev).nowExt →
       Ends (.scrubCellDue ⟨[], true⟩ m) s fun e => Within s.dev e [16, 21] ∧ e.sram = s.dev.sram ∧ e.rd PMC_SCRUB_STAT.POS = 0 ∧
         e.rd PMC_SCRUB_STAT.PASSES = (s.dev.rd PMC_SCRUB_STAT.PASSES + 1) % 2 ^ PMC_SCRUB_STAT.PASSES.w ∧ e.rd
         PMC_EVENT.SCRUB_PASS = 1 ∧ e.rd PMC_STATUS.SCRUB_BEHIND = 0 ∧ e.pm.passT = max (s.dev.pm.passT + passMt
         s.dev.pm.passH) (atMote m s.dev).nowExt) ∧
    (∀ (ch : Fin 8), Taken 2 s → 4 < ch.val →
       Does (.admissionCheck ch) s
         [(GLB_BADWR.COUNT, min (s.dev.rd GLB_BADWR.COUNT + 1) (2 ^ 32 - 1)), (GLB_BADWR_INFO.OFFSET, PMC_CTRL.addr),
          (GLB_BADWR_INFO.SRC, srcCode .pcie), (GLB_BADWR_INFO.FN, srcFn .pcie)]
         fun e => e.pm = s.dev.pm) ∧
    (∀ (ch : Fin 8), Taken 2 s → ch.val ≤ 4 →
       Ends (.admissionCheck ch) s fun e => Only s.dev e [PMC_CTRL.CHECK_CH, PMC_EVENT.OVERBOOK, PMC_EVENT.CHECK_DONE,
         PMC_LAST_SUM.SLOTS, PMC_TERM_CHn.SLOTS 0, PMC_TERM_CHn.SLOTS 1, PMC_TERM_CHn.SLOTS 2, PMC_TERM_CHn.SLOTS 3,
         PMC_TERM_PEG.SLOTS, PMC_STATUS.LAST_RESULT, PMC_STATUS.LAST_SRC, PMC_STATUS.LAST_CH, PMC_SHORTFALL.SLOTS] ∧ e.sram =
         s.dev.sram ∧ e.rd PMC_LAST_SUM.SLOTS = (admission (s.dev.banksWith ch) (s.dev.slotCosts s.dev.peg.oper) s.dev).total
         % 2 ^ PMC_LAST_SUM.SLOTS.w ∧ e.rd PMC_STATUS.LAST_RESULT = (if (admission (s.dev.banksWith ch) (s.dev.slotCosts
         s.dev.peg.oper) s.dev).passed then 1 else 2) ∧ e.rd PMC_STATUS.LAST_SRC = 3 ∧ e.rd PMC_EVENT.CHECK_DONE = 1 ∧ e.rd
         PMC_ADMITTED.SLOTS = s.dev.rd PMC_ADMITTED.SLOTS ∧ e.pm = s.dev.pm) ∧
    (∀ (lane : Fin 7) (m : Mote), lane.val < 4 → s.dev.pd 1 = true → s.dev.bitOf RAT_DOM_STATUS.LANE_ON lane = true →
     8008 ≤ (s.dev.ch lane).recalFr → (s.dev.ch lane).recal = false → (s.dev.ch lane).recalDue = false →
     s.dev.wireIdle lane = true → s.dev.chan.length = 4 →
       Ends (.recalForced lane m) s fun e => Only s.dev e [PMC_RECAL_FORCED.LANES, PMC_EVENT.RECAL_FORCED,
         CHn_GATE_STATUS.CAL_ACTIVE lane, SHD_PENj.PEN 4] ∧ e.sram = s.dev.sram ∧ e.rd PMC_RECAL_FORCED.LANES = setBits
         (s.dev.rd PMC_RECAL_FORCED.LANES) (4 * lane) 4 (min (bits (s.dev.rd PMC_RECAL_FORCED.LANES) (4 * lane) 4 + 1) 15) ∧
         e.rd PMC_EVENT.RECAL_FORCED = 1 ∧ e.rd (CHn_GATE_STATUS.CAL_ACTIVE lane) = 1 ∧ (e.ch lane).recal = true) ∧
    (∀ (lane : Fin 7) (m : Mote), lane.val < 4 → s.dev.pd 1 = true → s.dev.bitOf RAT_DOM_STATUS.LANE_ON lane = true →
     8008 ≤ (s.dev.ch lane).recalFr → (s.dev.ch lane).recal = false → (s.dev.ch lane).recalDue = false →
     s.dev.wireIdle lane = false → s.dev.chan.length = 4 →
       Ends (.recalForced lane m) s fun e => Only s.dev e [PMC_RECAL_FORCED.LANES, PMC_EVENT.RECAL_FORCED,
         SHD_PENj.PEN 4] ∧ e.sram = s.dev.sram ∧ e.rd PMC_EVENT.RECAL_FORCED = 1 ∧ (e.ch lane).recal = false ∧
         (e.ch lane).recalDue = true) ∧
    (∀ (m : Mote), s.dev.on RAT_DOM_STATUS.PEG_LANES_ON = true → 8000 ≤ s.dev.peg.recalA → (atMote m s.dev).pegIdle = true →
       Ends (.recalForced 4 m) s fun e => Only s.dev e [PMC_RECAL_FORCED.LANES, PMC_EVENT.RECAL_FORCED, SHD_PENj.PEN 4] ∧
         e.sram = s.dev.sram ∧ e.rd PMC_EVENT.RECAL_FORCED = 1 ∧ e.peg.recalA = 0 ∧ e.rd PMC_RECAL_FORCED.LANES = setBits
         (s.dev.rd PMC_RECAL_FORCED.LANES) 16 4 (min (bits (s.dev.rd PMC_RECAL_FORCED.LANES) 16 4 + 1) 15)) ∧
    (∀ (m : Mote), s.dev.on RAT_DOM_STATUS.PEG_LANES_ON = true → 8000 ≤ s.dev.peg.recalB → (atMote m s.dev).pegIdle = true →
       Ends (.recalForced 5 m) s fun e => Only s.dev e [PMC_RECAL_FORCED.LANES, PMC_EVENT.RECAL_FORCED, SHD_PENj.PEN 4] ∧
         e.sram = s.dev.sram ∧ e.rd PMC_EVENT.RECAL_FORCED = 1 ∧ e.peg.recalB = 0 ∧ e.rd PMC_RECAL_FORCED.LANES = setBits
         (s.dev.rd PMC_RECAL_FORCED.LANES) 20 4 (min (bits (s.dev.rd PMC_RECAL_FORCED.LANES) 20 4 + 1) 15)) ∧
    (∀ (m : Mote), s.dev.laneOn = true → 8000 ≤ s.dev.lsh.recalFr → (atMote m s.dev).laneRecal = false →
       Ends (.recalForced 6 m) s fun e => Only s.dev e [PMC_RECAL_FORCED.LANES, PMC_EVENT.RECAL_FORCED, SHD_PENj.PEN 4] ∧
         e.sram = s.dev.sram ∧ e.rd PMC_EVENT.RECAL_FORCED = 1 ∧ e.lsh.recalFr = 0 ∧ e.lsh.recalTo = (atMote m
         s.dev).nowExt + 10067 ∧ e.rd PMC_RECAL_FORCED.LANES = setBits (s.dev.rd
         PMC_RECAL_FORCED.LANES) 24 4 (min (bits (s.dev.rd PMC_RECAL_FORCED.LANES) 24 4 + 1) 15))

/-! ### Pegline (spec/11 and spec/12) -/

/-- The device with slot k of the round in progress begun (R236). -/
abbrev SlotNow (k : Fin 64) (s : State) : Dev :=
  (atMote (k % 4 * 262144) s.dev).pegMod fun p => { p with slot := k, round := s.dev.frameExt / 16 * 16 }

/-- The slot k can begin: it lies in this frame, and the one before has been judged; no buffer has an upset word. -/
abbrev SlotDue (k : Fin 64) (s : State) : Prop :=
  s.dev.rd PEG_STATUS.RUN = 2 ∧ s.dev.peg.active = false ∧ s.dev.frameExt % 16 = k.val / 4 ∧ s.dev.peg.silent.length = 64 ∧
    s.dev.pm.upsets = []

/-- Both channels carry the slot frame bs from the action point of slot k on, coded for the line (R234, R236, R238). -/
abbrev BothSend (k : Fin 64) (s : State) (bs : Bytes) : List Out :=
  [.peg false (SlotNow k s).actionPoint ((SlotNow k s).lineOf bs), .peg true (SlotNow k s).actionPoint ((SlotNow k s).lineOf bs)]

/-- Pegline is in SYNC on a bus, in a slot in which it does not send, and data is a copy of 48 payload bytes whose check word is good. -/
abbrev CopyOk (data : Bytes) (s : State) : Prop :=
  s.dev.rd PEG_STATUS.RUN = 2 ∧ s.dev.pst = 3 ∧ s.dev.peg.active = true ∧ s.dev.peg.sending = false ∧ s.dev.chain = false ∧
    (s.dev.parseCopy data).2.2.2 = true ∧ (s.dev.parseCopy data).2.2.1.length = 48 ∧ QueuesClean s

/-- In SYNC the device sends on both channels what the schedule gives the slot: its SYNC frame (R259), DATA of the flow, an
IDLE frame in an owned spare slot, a claim (Table 11.6); in COLDSTART its cold-start frame (R262). A copy that passes the
checks of Table 11.4 is counted and used, another is counted by the first it fails (R241); an expected slot without a copy
is missed (R242). -/
def Obligations.PeglineSlots : Prop :=
  ∀ s : State,
    (∀ (k : Fin 64), SlotDue k s → s.dev.pst = 3 → (s.dev.opSlot k).type = 2 → (s.dev.opSlot k).owner = s.dev.node →
     (s.dev.opSlot k).paths = 3 →
       Does (.pegSlotStart k) s
         [(PEG_TX_FRAMES.COUNT, min (s.dev.rd (PEG_TX_FRAMES.COUNT) + 2) (2 ^ (PEG_TX_FRAMES.COUNT).w - 1))]
         fun e => e.outs = BothSend k s ((SlotNow k s).slotFrame 1 false false (syncPayload (s.dev.frameExt / 16) s.dev)) ∧ e.peg.slot = k ∧
           e.peg.sending = true ∧ e.peg.active = true) ∧
    (∀ (k : Fin 64), SlotDue k s → s.dev.pst = 3 → (s.dev.opSlot k).type = 0 → (s.dev.opSlot k).voice = false →
     (s.dev.opSlot k).owner = s.dev.node → s.dev.peg.flowq = [] → (s.dev.opSlot k).paths = 3 →
       Does (.pegSlotStart k) s
         [(PEG_TX_FRAMES.COUNT, min (s.dev.rd (PEG_TX_FRAMES.COUNT) + 2) (2 ^ (PEG_TX_FRAMES.COUNT).w - 1))]
         fun e => e.outs = BothSend k s ((SlotNow k s).slotFrame 0 false false (List.replicate (s.dev.opSlot k).payload 0)) ∧ e.peg.slot = k ∧
           e.peg.sending = true ∧ e.peg.active = true) ∧
    (∀ (k : Fin 64), SlotDue k s → s.dev.pst = 3 → (s.dev.opSlot k).type = 1 → s.dev.chain = false →
     s.dev.spareOwner k = some s.dev.node → s.dev.peg.claim = 0 → s.dev.peg.flowq = [] → (s.dev.opSlot k).paths = 3 →
       Does (.pegSlotStart k) s
         [(PEG_TX_FRAMES.COUNT, min (s.dev.rd (PEG_TX_FRAMES.COUNT) + 2) (2 ^ (PEG_TX_FRAMES.COUNT).w - 1))]
         fun e => e.outs = BothSend k s ((SlotNow k s).slotFrame 3 false false (List.replicate 48 0)) ∧ e.peg.slot = k ∧ e.peg.sending = true ∧ e.peg.active = true) ∧
    (∀ (k : Fin 64), SlotDue k s → s.dev.pst = 3 → (s.dev.opSlot k).type = 1 → s.dev.chain = false → s.dev.peg.claim = 1 →
     s.dev.peg.claimS = k → (s.dev.opSlot k).paths = 3 →
       Does (.pegSlotStart k) s
         [(PEG_TX_FRAMES.COUNT, min (s.dev.rd (PEG_TX_FRAMES.COUNT) + 2) (2 ^ (PEG_TX_FRAMES.COUNT).w - 1))]
         fun e => e.outs = BothSend k s ((SlotNow k s).slotFrame 3 false false (List.replicate 48 0)) ∧ e.peg.slot = k ∧ e.peg.sending = true ∧ e.peg.active = true ∧
           e.peg.claim = 2 ∧ e.peg.clOk = 0 ∧ e.peg.clBad = false ∧ e.peg.clFrame = (SlotNow k s).slotFrame 3 false false
           (List.replicate 48 0)) ∧
    (∀ (k : Fin 64), SlotDue k s → s.dev.pst = 3 → (s.dev.opSlot k).type = 3 → (s.dev.opSlot k).owner = s.dev.node →
     s.dev.peg.ackDue = [] → s.dev.peg.msgs = [] → ((∀ r : Fin 16, (s.dev.ring (400 + r)).st = 0)) →
     24 ≤ (s.dev.opSlot k).payload → (s.dev.opSlot k).paths = 3 →
       Does (.pegSlotStart k) s
         [(PEG_TX_FRAMES.COUNT, min (s.dev.rd (PEG_TX_FRAMES.COUNT) + 2) (2 ^ (PEG_TX_FRAMES.COUNT).w - 1))]
         fun e => e.outs = BothSend k s ((SlotNow k s).slotFrame 2 false false (List.replicate (s.dev.opSlot k).payload 0)) ∧ e.peg.slot = k ∧
           e.peg.sending = true ∧ e.peg.active = true) ∧
    (∀ (k : Fin 64), SlotDue k s → s.dev.pst = 3 → (s.dev.opSlot k).type ≠ 1 → (s.dev.opSlot k).owner ≠ s.dev.node →
       Does (.pegSlotStart k) s
         []
         fun e => e.outs = [] ∧ e.peg.slot = k ∧ e.peg.sending = false ∧ e.peg.active = true ∧ e.peg.used = false) ∧
    (∀ (k : Fin 64), SlotDue k s → s.dev.pst = 2 → (s.dev.opSlot k).type = 2 → (s.dev.opSlot k).owner = s.dev.node →
     s.dev.csOk = true → s.dev.peg.loading = false → s.dev.peg.csFrom ≤ s.dev.frameExt / 16 →
     s.dev.rd PEG_SYNC_STATUS.CS_COUNT < 16 → (s.dev.opSlot k).paths = 3 →
       Does (.pegSlotStart k) s
         [(PEG_TX_FRAMES.COUNT, min (s.dev.rd (PEG_TX_FRAMES.COUNT) + 2) (2 ^ (PEG_TX_FRAMES.COUNT).w - 1)),
          (PEG_CS_SENT.COUNT, min (s.dev.rd (PEG_CS_SENT.COUNT) + 1) (2 ^ (PEG_CS_SENT.COUNT).w - 1)),
          (PEG_SYNC_STATUS.CS_COUNT, min (s.dev.rd PEG_SYNC_STATUS.CS_COUNT + 1) 16)]
         fun e => e.outs = BothSend k s ((SlotNow k s).slotFrame 1 true false (syncPayload (s.dev.frameExt / 16) s.dev)) ∧ e.peg.slot = k ∧
           e.peg.sending = true ∧ e.peg.active = true) ∧
    (∀ (chB : Bool) (t : Int) (data : Bytes), CopyOk data s →
     (s.dev.timeOk ((s.dev.frameExt * frMt : Nat) + t) data) = true →
     (s.dev.hdrOk s.dev.peg.slot s.dev.roundIx (s.dev.parseCopy data).1 (s.dev.parseCopy data).2.1 (s.dev.parseCopy
       data).2.2.1) = true →
     bits (s.dev.parseCopy data).1 30 2 = 0 → (s.dev.opSlot s.dev.peg.slot).type = 0 →
     (s.dev.opSlot s.dev.peg.slot).rx = false → s.dev.peg.copyA = none → s.dev.peg.copyB = none → s.dev.peg.used = false →
       Does (.pegSlotReceive chB t true data) s
         [(rxGood chB, min (s.dev.rd (rxGood chB) + 1) (2 ^ (rxGood chB).w - 1))]
         fun e => e.peg.resp = (s.dev.peg.resp || !bit (s.dev.parseCopy data).1 14) ∧ (if chB then e.peg.seenB = true ∧
           e.peg.copyB.isSome = true ∧ e.peg.used = (s.dev.peg.seenA || !bit (s.dev.opSlot s.dev.peg.slot).paths 0) else
           e.peg.seenA = true ∧ e.peg.copyA.isSome = true ∧ e.peg.used = true)) ∧
    (∀ (chB : Bool) (t : Int) (data : Bytes), CopyOk data s →
     (s.dev.timeOk ((s.dev.frameExt * frMt : Nat) + t) data) = false → s.dev.peg.copyB = none →
       Does (.pegSlotReceive chB t true data) s
         [(PEG_RX_TIME.COUNT, min (s.dev.rd (PEG_RX_TIME.COUNT) + 1) (2 ^ (PEG_RX_TIME.COUNT).w - 1))]
         fun e => (if chB then e.peg.seenB = true else e.peg.seenA = true) ∧ e.peg.copyA = s.dev.peg.copyA) ∧
    (∀ (chB : Bool) (t : Int) (data : Bytes), CopyOk data s →
     (s.dev.timeOk ((s.dev.frameExt * frMt : Nat) + t) data) = true → s.dev.peg.copyB = none →
       Does (.pegSlotReceive chB t false data) s
         [(rxCrc chB, min (s.dev.rd (rxCrc chB) + 1) (2 ^ (rxCrc chB).w - 1))]
         fun e => (if chB then e.peg.seenB = true else e.peg.seenA = true) ∧ e.peg.copyA = s.dev.peg.copyA) ∧
    (∀ (chB : Bool) (t : Int) (data : Bytes), CopyOk data s →
     (s.dev.timeOk ((s.dev.frameExt * frMt : Nat) + t) data) = true →
     (s.dev.hdrOk s.dev.peg.slot s.dev.roundIx (s.dev.parseCopy data).1 (s.dev.parseCopy data).2.1 (s.dev.parseCopy
       data).2.2.1) = false →
     s.dev.peg.copyB = none →
       Does (.pegSlotReceive chB t true data) s
         [(PEG_RX_HDR.COUNT, min (s.dev.rd (PEG_RX_HDR.COUNT) + 1) (2 ^ (PEG_RX_HDR.COUNT).w - 1))]
         fun e => (if chB then e.peg.seenB = true else e.peg.seenA = true) ∧ e.peg.copyA = s.dev.peg.copyA) ∧
    (∀ (k : Fin 64), s.dev.pst = 3 → s.dev.peg.active = true → s.dev.peg.slot = k → s.dev.peg.sending = false →
     s.dev.peg.used = false → s.dev.peg.copyB = none → s.dev.expected k = true →
       Ends (.pegSlotMiss k) s fun e => e.rd PEG_SLOT_MISS.COUNT = min (s.dev.rd PEG_SLOT_MISS.COUNT + 1) (2 ^
         PEG_SLOT_MISS.COUNT.w - 1) ∧ e.rd PEG_EVENT.SLOT_MISS = 1 ∧ e.peg.used = true ∧ e.peg.slot = k ∧ e.sram = s.dev.sram) ∧
    (∀ (k : Fin 64), s.dev.pst = 3 → s.dev.peg.active = true → s.dev.peg.slot = k → s.dev.peg.sending = false →
     s.dev.peg.used = false → s.dev.peg.copyB = none → s.dev.expected k = true → (s.dev.opSlot k).type = 0 →
     (s.dev.opSlot k).voice = true → (s.dev.opSlot k).rx = true → s.dev.frameExt / 16 ≤ s.dev.peg.round / 16 →
       Does (.pegSlotMiss k) s
         [(PEG_SLOT_MISS.COUNT, min (s.dev.rd (PEG_SLOT_MISS.COUNT) + 1) (2 ^ (PEG_SLOT_MISS.COUNT).w - 1)),
          (PEG_EVENT.SLOT_MISS, 1)]
         fun e => e.peg.used = true ∧ (∀ j : Fin 64, j.val < (s.dev.opSlot k).vcnt → (s.dev.opSlot k).vbase + j.val < 64 →
           (e.peg.vNext.find? fun x => x.1 == (s.dev.opSlot k).vbase + j.val) = some ((s.dev.opSlot k).vbase + j.val,
           List.replicate 16 none)))

/-- A commit gives the first result of R244 that applies; accepted, its bank is pending with the swap time; CANCEL drops it.
At its time the pending bank becomes operational, spare owners of slots that are not SPARE in both schedules are cleared,
and SWAPPED is reported (R245). -/
def Obligations.PeglineSchedule : Prop :=
  ∀ s : State,
    (Taken 1 s → s.dev.peg.pend ≠ none →
       Does .pegSchedCommit s
         [(PEG_SCHED_STAT.RESULT, 5), (PEG_SCHED_CTRL.COMMIT, 0), (PEG_EVENT.SCHED_DONE, 1)]
         fun e => e.peg = s.dev.peg) ∧
    (Taken 1 s → s.dev.peg.pend = none → s.dev.valid = false →
       Does .pegSchedCommit s
         [(PEG_SCHED_STAT.RESULT, 6), (PEG_SCHED_CTRL.COMMIT, 0), (PEG_EVENT.SCHED_DONE, 1)]
         fun e => e.peg = s.dev.peg) ∧
    (∀ (swT : Nat), Taken 1 s → s.dev.peg.pend = none → s.dev.valid = true →
     swT = s.dev.hearth.a.era * 2 ^ 64 + s.dev.rd PEG_SCHED_SWAP_HI.T * 2 ^ 32 + s.dev.rd PEG_SCHED_SWAP_LO.T →
     swT % (1024 * frMt) ≠ 0 ∨ swT < s.dev.nowExt + 2 * frMt →
       Does .pegSchedCommit s
         [(PEG_SCHED_STAT.RESULT, 8), (PEG_SCHED_CTRL.COMMIT, 0), (PEG_EVENT.SCHED_DONE, 1)]
         fun e => e.peg = s.dev.peg) ∧
    (∀ (swT : Nat), Taken 1 s → s.dev.peg.pend = none → s.dev.valid = true →
     swT = s.dev.hearth.a.era * 2 ^ 64 + s.dev.rd PEG_SCHED_SWAP_HI.T * 2 ^ 32 + s.dev.rd PEG_SCHED_SWAP_LO.T →
     swT % (1024 * frMt) = 0 → s.dev.nowExt + 2 * frMt ≤ swT → s.dev.chain = true →
     s.dev.rd PEG_CHAIN_CFG.GUARD * 64 < 2 * s.dev.rd PEG_SYNC_WIN.W →
       Does .pegSchedCommit s
         [(PEG_SCHED_STAT.RESULT, 9), (PEG_SCHED_CTRL.COMMIT, 0), (PEG_EVENT.SCHED_DONE, 1)]
         fun e => e.peg = s.dev.peg) ∧
    (∀ (swT : Nat) (k : Nat), Taken 1 s → s.dev.peg.pend = none → s.dev.valid = true →
     swT = s.dev.hearth.a.era * 2 ^ 64 + s.dev.rd PEG_SCHED_SWAP_HI.T * 2 ^ 32 + s.dev.rd PEG_SCHED_SWAP_LO.T →
     swT % (1024 * frMt) = 0 → s.dev.nowExt + 2 * frMt ≤ swT →
     (s.dev.chain = false ∨ 2 * s.dev.rd PEG_SYNC_WIN.W ≤ s.dev.rd PEG_CHAIN_CFG.GUARD * 64) →
     s.dev.schedBad s.dev.adminSched = some k →
       Does .pegSchedCommit s
         [(PEG_SCHED_STAT.RESULT, 3), (PEG_SCHED_STAT.BAD_SLOT, k % 64), (PEG_SCHED_CTRL.COMMIT, 0),
          (PEG_EVENT.SCHED_DONE, 1)]
         fun e => e.peg = s.dev.peg) ∧
    (∀ (swT : Nat), Taken 1 s → s.dev.peg.pend = none → s.dev.valid = true →
     swT = s.dev.hearth.a.era * 2 ^ 64 + s.dev.rd PEG_SCHED_SWAP_HI.T * 2 ^ 32 + s.dev.rd PEG_SCHED_SWAP_LO.T →
     swT % (1024 * frMt) = 0 → s.dev.nowExt + 2 * frMt ≤ swT →
     (s.dev.chain = false ∨ 2 * s.dev.rd PEG_SYNC_WIN.W ≤ s.dev.rd PEG_CHAIN_CFG.GUARD * 64) →
     s.dev.schedBad s.dev.adminSched = none →
     (admission ((List.range 4).map s.dev.bankNow) (s.dev.slotCosts (some s.dev.adminSched)) s.dev).passed = true →
       Ends .pegSchedCommit s fun e => Within s.dev e [8, 9, 10, 11, 16, 18] ∧ e.sram = s.dev.sram ∧ e.rd
         PEG_SCHED_STAT.RESULT = 1 ∧ e.rd PEG_SCHED_STAT.PENDING = 1 ∧ e.rd PEG_EVENT.SCHED_DONE = 1 ∧ e.peg =
         { s.dev.peg with pend := some s.dev.adminSched, swapT := swT }) ∧
    (Taken 1 s → s.dev.peg.pend ≠ none →
       Does .pegSchedCancel s
         [(PEG_SCHED_STAT.RESULT, 7), (PEG_SCHED_STAT.PENDING, 0)]
         fun e => e.peg = { s.dev.peg with pend := none }) ∧
    (∀ (k : Nat), s.dev.peg.pend = some k → s.dev.peg.swapT ≤ s.dev.nowExt →
       Ends .pegSchedSwap s fun e => e.peg.oper = some k ∧ e.peg.pend = none ∧ e.peg.asm = [] ∧ e.peg.msgAsm = [] ∧ e.peg.skip = [] ∧ e.peg.segOff = [] ∧ e.rd
         PEG_SCHED_STAT.OPER_BANK = k % 2 ∧ e.rd PEG_SCHED_STAT.PENDING = 0 ∧ e.rd PEG_SCHED_STAT.RESULT = 2 ∧ e.rd
         PEG_EVENT.SCHED_SWAPPED = 1 ∧ e.rd PEG_SYNC_SCHED_CRC.CRC = e.schedCrc ∧ (∀ j : Fin 64, e.spareOwner j = if
         (s.dev.peg.oper.any fun a => (s.dev.slotEnt a j).type == 1) = true ∧ (s.dev.slotEnt k j).type = 1 then
         s.dev.spareOwner j else none))

/-- A whole message goes into its ring and is acknowledged, once (R251, R252); one not acknowledged in ACK_RND rounds is sent
again, and given up with NO_ACK after RETRIES repeats (R250). A spare slot is claimed only as R254 allows, released by its
owner, and freed after 32 silent rounds (R255). -/
def Obligations.PeglineMessagesAndSpares : Prop :=
  ∀ s : State,
    (∀ (n : Fin 32) (y : PegIn) (z : Desc) (f : Nat), s.dev.peg.inbox = [y] → y.node = n.val → y.wrote = false →
     s.dev.msgTakes n = true → y.ring = s.dev.msgRing n → (s.dev.ring y.ring).taken = [z] → z.begun = false →
     s.dev.ringFn y.ring = some f → msgDescOk z = true → s.dev.peg.ackDue = [] → s.dev.peg.lastRx.length = 32 →
     (s.dev.fn f).bme = true → s.dev.on HIF_STATUS.DL_UP = true → s.dev.paced true y.ring = false →
     s.dev.outWaits y.ring = false → s.dev.pm.upsets = [] → s.dev.poisoned { cells := y.cells } = false →
       Ends (.msgDeliver n) s fun e => e.peg.inbox = [] ∧ e.peg.lastRx.getD n none = some y.seq ∧ e.peg.ackDue = [n.val] ∧
         (∀ c ∈ reqChunks (max 1 (min (s.dev.fn f).mps 512)) (min y.data.length (bits (z.dw 2) 0 16) + 1) z.addr 0
           (min y.data.length (bits (z.dw 2) 0 16)),
           Out.hostWrite f c.1 (slice (y.data.take (min y.data.length (bits (z.dw 2) 0 16))) c.2.1 c.2.2) (s.dev.fn f).relax ∈
           e.outs) ∧ e.rd PEG_MSG_REJ.COUNT = s.dev.rd PEG_MSG_REJ.COUNT) ∧
    (∀ (n : Fin 32) (y : PegIn), s.dev.peg.inbox = [y] → y.node = n.val → y.wrote = false →
     s.dev.bitOf PEG_MSG_ROUTE_EN.EN n = false → s.dev.ringFn (s.dev.msgRing n) = none →
       Ends (.msgDeliver n) s fun e => Within s.dev e [16, 18, 21] ∧ e.sram = s.dev.sram ∧ e.rd PEG_MSG_REJ.COUNT =
         min (s.dev.rd (PEG_MSG_REJ.COUNT) + 1) (2 ^ (PEG_MSG_REJ.COUNT).w - 1) ∧ e.peg = { s.dev.peg with inbox := [] } ∧
         e.outs = []) ∧
    (∀ (dest : Fin 32) (x : PegMsg) (rd : Nat), s.dev.pst = 3 → s.dev.peg.msgs = [x] → x.dest = dest.val →
     x.sent = some rd → rd + s.dev.rd PEG_MSG_CFG.ACK_RND ≤ s.dev.frameExt / 16 → x.reps < s.dev.rd PEG_MSG_CFG.RETRIES →
       Does (.msgAckTimeout dest) s
         []
         fun e => e.peg = { s.dev.peg with msgs := [{ x with off := 0, sent := none, reps := x.reps + 1,
                                                             after := rd + s.dev.rd PEG_MSG_CFG.ACK_RND + 1 }] }) ∧
    (∀ (dest : Fin 32) (x : PegMsg) (rd : Nat), s.dev.pst = 3 → s.dev.peg.msgs = [x] → x.dest = dest.val →
     x.sent = some rd → rd + s.dev.rd PEG_MSG_CFG.ACK_RND ≤ s.dev.frameExt / 16 → s.dev.rd PEG_MSG_CFG.RETRIES ≤ x.reps →
     s.dev.peg.synDue.length = 32 →
       Ends (.msgAckTimeout dest) s fun e => e.peg.msgs = [] ∧ e.peg.synDue.getD dest false = true ∧ e.rd
         PEG_MSG_NOACK.COUNT = min (s.dev.rd PEG_MSG_NOACK.COUNT + 1) (2 ^ PEG_MSG_NOACK.COUNT.w - 1) ∧ e.rd
         PEG_EVENT.MSG_NOACK = 1) ∧
    (∀ (k : Fin 64), Taken 1 s → s.dev.on PEG_SPARE_CTRL.CLAIM = false → s.dev.pst = 3 → (s.dev.opSlot k).type = 1 →
     (s.dev.opSlot k).paths ≠ 0 → s.dev.spareOwner k = none → 33 ≤ s.dev.peg.silent.getD k 0 →
       Does (.spareClaim k) s
         [(PEG_SPARE_CTRL.SLOT, k.val), (PEG_SPARE_CTRL.CLAIM, 1), (PEG_SPARE_CTRL.RESULT, 0)]
         fun e => e.peg = { s.dev.peg with claim := 1, claimS := k }) ∧
    (∀ (k : Fin 64), Taken 1 s → s.dev.on PEG_SPARE_CTRL.CLAIM = false →
     s.dev.pst ≠ 3 ∨ (s.dev.opSlot k).type ≠ 1 ∨ (s.dev.opSlot k).paths = 0 ∨ (s.dev.spareOwner k).isSome = true ∨ s.dev.peg.silent.getD k 0 < 33 →
       Does (.spareClaim k) s [(PEG_SPARE_CTRL.SLOT, k.val), (PEG_SPARE_CTRL.RESULT, 3)] fun e => e.peg = s.dev.peg) ∧
    (s.dev.peg.claim = 3 → s.dev.peg.backoff = 0 → s.dev.spareOwner s.dev.peg.claimS = none →
       Does .claimBackoffEnd s [] fun e => e.peg = { s.dev.peg with claim := 1 }) ∧
    (∀ (k : Fin 64), Taken 1 s → s.dev.spareOwner k = some s.dev.node →
       Ends (.spareRelease k) s fun e => Only s.dev e [PEG_SPARE_CTRL.SLOT, PEG_SPARE_OWNk.OWN (k / 4), PEG_EVENT.SPARE_CHG]
         ∧ e.sram = s.dev.sram ∧ e.spareOwner k = none ∧ (∀ j : Fin 64, j ≠ k → e.spareOwner j = s.dev.spareOwner j) ∧ e.rd
         PEG_EVENT.SPARE_CHG = 1 ∧ e.peg = s.dev.peg) ∧
    (∀ (k : Fin 64) (o : Nat), s.dev.spareOwner k = some o → 32 ≤ s.dev.peg.silent.getD k 0 →
       Ends (.spareLapse k) s fun e => Only s.dev e [PEG_SPARE_OWNk.OWN (k / 4), PEG_EVENT.SPARE_CHG] ∧ e.sram = s.dev.sram
         ∧ e.spareOwner k = none ∧ (∀ j : Fin 64, j ≠ k → e.spareOwner j = s.dev.spareOwner j) ∧ e.rd PEG_EVENT.SPARE_CHG = 1
         ∧ e.peg = s.dev.peg)

/-- Pegline passes to ON and to OFF as Table 4.10 says; the listen timer of 2,048 + 16 × NODE_ID fr leads to COLDSTART in a
node that may cold-start and to LONE in another (R258, R262); sixteen cold-start frames without a response lead to LONE; a
round without a correction is counted, and LOSS_RND of them lose sync (Table 12.2); a round with one value corrects by it
(R266, R267). In chain mode a probe is answered with an echo that carries this node’s delay for the opposite port (R269);
an echo for the last probe measures the link and the delay (R270); a break and a heal of the ring are reported after 3
rounds (R272). -/
def Obligations.PeglineStartUpAndChain : Prop :=
  ∀ s : State,
    (s.dev.rd PEG_STATUS.RUN = 1 → Does .pegOn s [(PEG_STATUS.RUN, 2)] fun e => e.peg = s.dev.peg) ∧
    (s.dev.rd PEG_STATUS.RUN = 3 →
       Does .pegStopped s
         [(PEG_STATUS.RUN, 0), (PEG_STATUS.LANE_A_UP, 0), (PEG_STATUS.LANE_B_UP, 0), (PEG_LINK_P0.VALID, 0),
          (PEG_LINK_P1.VALID, 0)]
         fun e => e.peg.active = false ∧ e.peg.sending = false) ∧
    (s.dev.pst = 1 → 2048 + 16 * s.dev.node ≤ s.dev.peg.listenFr → s.dev.csOk = true →
       Ends .listenTimeout s fun e => Within s.dev e [14, 18] ∧ e.sram = s.dev.sram ∧ e.pst = 2 ∧ e.rd PEG_SYNC_STATUS.GRID
         = 0 ∧ e.rd PEG_SYNC_STATUS.NO_CORR = 0 ∧ e.rd PEG_SYNC_STATUS.WEAK = 0 ∧ e.rd PEG_SYNC_EVENT.COLDSTART = 1 ∧ e.rd
         PEG_SYNC_STATUS.CS_COUNT = 0 ∧ e.peg.csFrom = (s.dev.frameExt + 15) / 16) ∧
    (s.dev.pst = 1 → 2048 + 16 * s.dev.node ≤ s.dev.peg.listenFr → s.dev.csOk = false →
       Ends .listenTimeout s fun e => Within s.dev e [14, 18] ∧ e.sram = s.dev.sram ∧ e.pst = 4 ∧ e.rd PEG_SYNC_STATUS.GRID
         = 0 ∧ e.rd PEG_SYNC_STATUS.NO_CORR = 0 ∧ e.rd PEG_SYNC_STATUS.WEAK = 0 ∧ e.rd PEG_SYNC_EVENT.LONE = 1 ∧ e.rd
         PEG_SYNC_STATUS.LONE_FAULT = 1 - s.dev.rd PEG_CFG.SOLO_OK) ∧
    (s.dev.pst = 2 → s.dev.rd PEG_SYNC_STATUS.CS_COUNT = 16 → s.dev.peg.csFrom + 17 ≤ s.dev.frameExt / 16 →
       Ends .coldstartTimeout s fun e => Within s.dev e [14, 18] ∧ e.sram = s.dev.sram ∧ e.pst = 4 ∧ e.rd
         PEG_SYNC_STATUS.GRID = 0 ∧ e.rd PEG_SYNC_STATUS.NO_CORR = 0 ∧ e.rd PEG_SYNC_STATUS.WEAK = 0 ∧ e.rd
         PEG_SYNC_EVENT.LONE = 1 ∧ e.rd PEG_SYNC_STATUS.LONE_FAULT = 1 - s.dev.rd PEG_CFG.SOLO_OK) ∧
    (s.dev.pst = 3 → s.dev.chain = false → s.dev.ownSync = false → s.dev.peg.dev = [] → 1 ≤ s.dev.rd PEG_SYNC_CFG.MIN_VALS →
     s.dev.isRef = false → s.dev.isFirst = false → s.dev.src ≠ 2 →
     s.dev.rd PEG_SYNC_STATUS.NO_CORR + 1 < s.dev.rd PEG_SYNC_CFG.LOSS_RND →
       Ends .syncRoundCompute s fun e => Within s.dev e [18] ∧ e.sram = s.dev.sram ∧ e.pst = 3 ∧ e.rd
         PEG_SYNC_STATUS.NO_CORR = min (s.dev.rd PEG_SYNC_STATUS.NO_CORR + 1) 255 ∧ e.rd PEG_SYNC_NVALS.OFF_N = 0 ∧ (∀ k : Fin
         8, e.rd (PEG_SYNC_DEVk.D k) = 0x80000000) ∧ e.hearth = s.dev.hearth) ∧
    (s.dev.pst = 3 → s.dev.chain = false → s.dev.ownSync = false → s.dev.peg.dev = [] → 1 ≤ s.dev.rd PEG_SYNC_CFG.MIN_VALS →
     s.dev.isRef = false → s.dev.isFirst = false → s.dev.src ≠ 2 →
     s.dev.rd PEG_SYNC_CFG.LOSS_RND ≤ s.dev.rd PEG_SYNC_STATUS.NO_CORR + 1 → s.dev.rd PEG_SYNC_CFG.LOSS_RND ≤ 255 →
       Ends .syncRoundCompute s fun e => Within s.dev e [14, 18] ∧ e.sram = s.dev.sram ∧ e.pst = 1 ∧ e.rd
         PEG_SYNC_STATUS.GRID = 0 ∧ e.rd PEG_SYNC_EVENT.SYNC_LOST = 1 ∧ e.peg.listenFr = 0 ∧ e.rd PEG_SYNC_LOSS.COUNT = min
         (s.dev.rd PEG_SYNC_LOSS.COUNT + 1) (2 ^ 32 - 1)) ∧
    (∀ (j : Fin 8) (v : Int), s.dev.pst = 3 → s.dev.chain = false → s.dev.ownSync = false → s.dev.isRef = false →
     s.dev.isFirst = false → s.dev.src ≠ 2 → s.dev.peg.dev = [(j.val, v)] → s.dev.peg.refs = [] → s.dev.peg.prev = [] →
     s.dev.rd PEG_SYNC_CFG.MIN_VALS = 1 → v.natAbs ≤ s.dev.rd PEG_SYNC_WIN.W →
       Ends .syncRoundCompute s fun e => Within s.dev e [18] ∧ e.sram = s.dev.sram ∧ e.pst = 3 ∧ e.rd
         PEG_SYNC_STATUS.NO_CORR = 0 ∧ e.rd PEG_SYNC_NVALS.OFF_N = 1 ∧ e.rd PEG_SYNC_NVALS.RATE_N = 0 ∧ e.rd
         PEG_SYNC_OFFSET.VALUE = uns 32 (-v) ∧ e.peg.sentN = 1 ∧ e.peg.prev = [(j.val, v)] ∧ e.hearth = s.dev.hearth) ∧
    (∀ (p : Fin 2) (q : Nat) (turn : Nat) (m : Mote), s.dev.probes p = true → turn ≤ 262144 → s.dev.isFirst = true →
       Does (.probeReceive p q turn m) s [] fun e => e.outs = [.echo p q (some s.dev.node) turn 0]) ∧
    (∀ (p : Fin 2) (q : Nat) (turn : Nat) (m : Mote), s.dev.probes p = true → turn ≤ 262144 → s.dev.isFirst = false →
     s.dev.on (dlyOk (p == 0)) = true →
       Does (.probeReceive p q turn m) s
         []
         fun e => e.outs = [.echo p q (some (s.dev.rd (dlyFn (p == 0)))) turn (s.dev.rd (dlyMt (p == 0)) + 768)]) ∧
    (∀ (p : Fin 2) (q : Nat) (fn : Nat) (dn : Nat) (turn : Nat) (m : Mote) (rtt : Int), s.dev.probes p = true →
     (s.dev.peg.ports.getD p {}).wait = true → (s.dev.peg.ports.getD p {}).seq = q →
     (s.dev.peg.ports.getD p {}).rtts = [] → s.dev.peg.ports.length = 2 →
     rtt = (((atMote m s.dev).nowExt / 8 * 8 : Nat) : Int) - ((s.dev.peg.ports.getD p {}).sentAt / 8 * 8 : Nat) - turn →
       Ends (.echoReceive p q (some (fn, dn)) turn m) s fun e => Only s.dev e [linkMt p, linkOk p, dlyMt (p == 1), dlyFn (p
         == 1), dlyOk (p == 1)] ∧ e.sram = s.dev.sram ∧ (e.peg.ports.getD p {}).wait = false ∧ (e.peg.ports.getD p {}).rtts =
         [rtt] ∧ e.rd (linkMt p) = uns 24 (rtt.tdiv 2) ∧ e.rd (linkOk p) = 1 ∧ e.rd (dlyMt (p == 1)) = uns 24 (dn + rtt.tdiv
         2) ∧ e.rd (dlyFn (p == 1)) = fn % 32 ∧ e.rd (dlyOk (p == 1)) = 1) ∧
    (s.dev.on PEG_CFG.RING = true → s.dev.on PEG_SYNC_STATUS.RING_OK = true →
     3 ≤ s.dev.peg.ringA ∨ 3 ≤ s.dev.peg.ringB ∨ s.dev.on PEG_STATUS.LANE_A_UP = false ∨ s.dev.on PEG_STATUS.LANE_B_UP = false →
       Does .ringBreak s [(PEG_SYNC_STATUS.RING_OK, 0), (PEG_SYNC_EVENT.RING_BREAK, 1)] fun e => e.peg =
         { s.dev.peg with ringBoth := 0 }) ∧
    (s.dev.on PEG_CFG.RING = true → s.dev.on PEG_SYNC_STATUS.RING_OK = false → 3 ≤ s.dev.peg.ringBoth →
       Does .ringHeal s [(PEG_SYNC_STATUS.RING_OK, 1), (PEG_SYNC_EVENT.RING_HEAL, 1)] fun e => e.peg = s.dev.peg)

/-! ### The Leash pair (spec/13) -/

/-- Table 13.5: an eligible device passes to STANDBY and an ineligible one to OFF; after two frame events in CLAIMING it
takes, which grants the roles, sets the lease expiry and counts the take (R286, R287, R291); RELEASE, or the expiry while
LAPSING, ends the hold (R292); a claimant that sees the partner hold yields and backs off (R290). -/
def Obligations.LeashToken : Prop :=
  ∀ s : State,
    (s.dev.lst = 0 → s.dev.eligibleNow = true →
       Does .leashEligible s
         [(LSH_STATUS.STATE, 1), (LSH_STATUS.HOLD_OUT, 0), (LSH_STATUS.ELIGIBLE, if s.dev.lsh.renew then 1 else 0)]
         fun e => e.lsh = { s.dev.lsh with relEv := 0, lowEv := 0, renewEv := 0, lowAll := !s.dev.on LSH_STATUS.HOLD_IN,
                                           everUp := s.dev.on LSH_STATUS.LANE_UP }) ∧
    (s.dev.lst = 1 ∨ s.dev.lst = 2 → s.dev.eligibleNow = false →
       Does .leashIneligible s
         [(LSH_STATUS.STATE, 0), (LSH_STATUS.HOLD_OUT, 0), (LSH_STATUS.ELIGIBLE, 0)]
         fun e => e.lsh = s.dev.lsh) ∧
    (s.dev.lst = 2 → 2 ≤ s.dev.lsh.claimEv →
       Ends .leashTake s fun e => e.lst = 3 ∧ e.rd LSH_STATUS.HOLD_OUT = 1 ∧ e.holds = true ∧ e.rd PEG_SYNC_STATUS.ROLE = 1
         ∧ e.lsh.expiry = s.dev.nowExt + s.dev.leaseFr * frMt ∧ e.rd LSH_TAKE_T_LO.T = s.dev.now % 2 ^ 32 ∧ e.rd
         LSH_TAKE_T_HI.T = s.dev.now / 2 ^ 32 ∧ e.rd LSH_EVENT.TAKEN = 1 ∧ e.rd LSH_TAKES.COUNT = min (s.dev.rd
         LSH_TAKES.COUNT + 1) (2 ^ 32 - 1) ∧ e.rd FRE_EVENT.TAKEOVER = 1 ∧ e.rd FLD_GPI_LATCH.LATCH = s.dev.rd
         FLD_GPI_LATCH.LATCH ||| s.dev.rd LSH_PEER_ALARM.ALARMS % 65536) ∧
    (∀ (m : Mote), s.dev.lst = 4 → s.dev.lsh.expiry ≤ (atMote m s.dev).nowExt →
       Ends (.leaseExpiry m) s fun e => e.lst = 1 ∧ e.rd LSH_STATUS.HOLD_OUT = 0 ∧ e.holds = false ∧ e.rd
         PEG_SYNC_STATUS.ROLE = 0 ∧ e.rd LSH_EVENT.RELEASED = 1 ∧ e.rd LSH_RELEASES.COUNT = min (s.dev.rd LSH_RELEASES.COUNT +
         1) (2 ^ 32 - 1) ∧ e.lsh.relEv = 0 ∧ (s.dev.laneTx = true → (e.lsh.txq.getLast?.map fun x => x.1) = some 1)) ∧
    (Taken 0 s → (s.dev.lst = 3 ∨ s.dev.lst = 4) →
       Ends .leashRelease s fun e => e.lst = 1 ∧ e.rd LSH_STATUS.HOLD_OUT = 0 ∧ e.holds = false ∧ e.rd PEG_SYNC_STATUS.ROLE
         = 0 ∧ e.rd LSH_EVENT.RELEASED = 1 ∧ e.rd LSH_RELEASES.COUNT = min (s.dev.rd LSH_RELEASES.COUNT + 1) (2 ^ 32 - 1) ∧
         e.lsh.relEv = 0 ∧ (s.dev.laneTx = true → (e.lsh.txq.getLast?.map fun x => x.1) = some 1)) ∧
    (∀ (b : Bool), s.dev.on LSH_STATUS.HOLD_IN = !b → b = false ∨ s.dev.lst ≠ 2 →
       Does (.holdInChange b) s
         [(LSH_STATUS.HOLD_IN, if b then 1 else 0)]
         fun e => e.lsh.lowEv = 0 ∧ e.lsh.highIdle = 0 ∧ e.lsh.lowAll = false ∧ e.lsh.bivFall = (!b && decide (4 ≤ s.dev.tier))) ∧
    (s.dev.on LSH_STATUS.HOLD_IN = false → s.dev.lst = 2 → s.dev.peerPresent = true →
     s.dev.on LSH_STATUS.PEER_HOLDING = true →
       Does (.holdInChange true) s
         [(LSH_STATUS.HOLD_IN, 1), (LSH_STATUS.STATE, 1), (LSH_STATUS.HOLD_OUT, 0), (LSH_EVENT.CLAIM_YIELD, 1),
          (LSH_YIELDS.COUNT, min (s.dev.rd LSH_YIELDS.COUNT + 1) (2 ^ 32 - 1))]
         fun e => (∃ r, 1 ≤ r ∧ r ≤ 8 ∧ e.lsh.backoff = some (s.dev.frameExt + 4 * r))) ∧
    (∀ (fr : Nat), s.dev.lsh.backoff = some fr → fr ≤ s.dev.frameExt →
       Does .backoffEnd s [] fun e => e.lsh = { s.dev.lsh with backoff := none }) ∧
    (s.dev.lineFaulty = true → Does .lineFault s [(LSH_EVENT.LINE_FAULT, 1)] fun e => e.lsh = s.dev.lsh)

/-- The bytes of a mirror frame of type ty, count n and payload p (R277). -/
abbrev MirrorFrame (ty n : Nat) (p : Bytes) : Bytes :=
  let b := beBytes 4 (ty * 2 ^ 28 + n * 2 ^ 16 + p.length) ++ p
  b ++ beBytes 4 (crc32 b)

/-- A STATUS payload of a partner in state st with health h, flags fl and node nd (Table 13.2). -/
abbrev StatusBytes (t st h fl nd : Nat) : Bytes :=
  beBytes 8 t ++ [BitVec.ofNat 8 st, BitVec.ofNat 8 h, BitVec.ofNat 8 fl, 0, 0, 0, BitVec.ofNat 8 nd, 0]

/-- The mirror lane is powered and does not recalibrate at mote m (R276). -/
abbrev LaneHears (m : Mote) (s : State) : Prop := s.dev.laneOn = true ∧ (atMote m s.dev).laneRecal = false

/-- A due mirror frame goes out with its header, count and check word (R277); a good STATUS frame shows the partner, a SEQ
frame notes its sequence numbers, a STATE frame its configuration (R280, R281, R294), a bad one is counted; lane up and
down are shown (R276); a fall of LSH_HOLD_IN in Bivouac wakes the device (R295). -/
def Obligations.LeashMirror : Prop :=
  ∀ s : State,
    (∀ (ty : Nat) (p : Bytes) (rest : List (Nat × Bytes)), s.dev.lsh.txq = (ty, p) :: rest → 1 ≤ ty → ty ≤ 3 →
     s.dev.lsh.seqTx.length = 3 → s.dev.laneTx = true → s.dev.laneRecal = false → s.dev.pm.upsets = [] →
       Does .mirrorSend s
         []
         fun e => e.outs = [.mirror ([(true, 0xFB#8)] ++ (MirrorFrame ty (s.dev.lsh.seqTx.getD (ty - 1) 0) p).map (fun b => (false, b))
           ++ [(true, 0xFD#8)])] ∧ e.lsh.txq = rest ∧
           e.lsh.seqTx.getD (ty - 1) 0 = (s.dev.lsh.seqTx.getD (ty - 1) 0 + 1) % 256) ∧
    (∀ (n : Nat) (t : Nat) (st : Nat) (h : Nat) (fl : Nat) (nd : Nat) (m : Mote), LaneHears m s → n < 256 → h < 256 →
     fl < 4 → nd < 32 →
       Does (.mirrorReceive true (MirrorFrame 1 n (StatusBytes t st h fl nd)) m) s
         [(LSH_RX_FRAMES.COUNT, min (s.dev.rd LSH_RX_FRAMES.COUNT + 1) (2 ^ 32 - 1)), (LSH_STATUS.PEER_PRESENT, 1),
          (LSH_STATUS.LANE_UP, 1), (LSH_EVENT.LANE_UP, if s.dev.on LSH_STATUS.LANE_UP then s.dev.rd LSH_EVENT.LANE_UP else 1),
          (LSH_STATUS.PEER_HEALTH, h), (LSH_STATUS.PEER_RANK, fl % 2), (LSH_STATUS.PEER_HOLDING, 0),
          (LSH_STATUS.PEER_HEALTHY, if bit fl 1 = true ∧ s.dev.rd LSH_HEALTH.MIN ≤ h then 1 else 0)]
         fun e => e.lsh.goodFr = 0 ∧ e.lsh.pElig = bit fl 1 ∧ e.lsh.pNode = nd ∧ e.lsh.renewEv = s.dev.lsh.renewEv) ∧
    (∀ (n : Nat) (t : Nat) (h : Nat) (nd : Nat) (m : Mote), LaneHears m s → n < 256 → h < 256 → nd < 32 →
     s.dev.lst = 1 →
       Ends (.mirrorReceive true (MirrorFrame 1 n (StatusBytes t 3 h 24 nd)) m) s fun e => Within s.dev e [20] ∧ e.sram =
         s.dev.sram ∧ e.rd LSH_STATUS.PEER_HOLDING = 1 ∧ e.lsh.renewEv = 0 ∧ e.lsh.renewAge = some 0 ∧ e.lsh.peerRel = false ∧
         e.rd LSH_PEER_RENEW_LO.T = (atMote m s.dev).now % 2 ^ 32 ∧ e.rd LSH_PEER_RENEW_HI.T = (atMote m s.dev).now / 2 ^ 32 ∧
         e.lst = s.dev.lst) ∧
    (∀ (n : Nat) (st : Fin 1024) (v : BitVec 16) (m : Mote), LaneHears m s → n < 256 →
       Does (.mirrorReceive true (MirrorFrame 2 n (beBytes 4 (st.val * 2 ^ 22 + v.toNat))) m) s
         [(LSH_RX_FRAMES.COUNT, min (s.dev.rd LSH_RX_FRAMES.COUNT + 1) (2 ^ 32 - 1)), (LSH_STATUS.PEER_PRESENT, 1),
          (LSH_STATUS.LANE_UP, 1), (LSH_EVENT.LANE_UP, if s.dev.on LSH_STATUS.LANE_UP then s.dev.rd LSH_EVENT.LANE_UP else 1),
          (LSH_STATUS.PEER_HEALTHY, if s.dev.lsh.pElig = true ∧ s.dev.rd LSH_HEALTH.MIN ≤ s.dev.rd LSH_STATUS.PEER_HEALTH then 1 else 0),
          (LSH_SEQ_AGE.FR, 0)]
         fun e => (e.strm st).mirror = some v.toNat) ∧
    (∀ (n : Nat) (p : Bytes) (m : Mote), LaneHears m s → n < 256 → p.length = 96 →
       Ends (.mirrorReceive true (MirrorFrame 3 n p) m) s fun e => Within s.dev e [20] ∧ e.sram = s.dev.sram ∧ e.rd
         LSH_PEER_GEN.VALUE = beNat (slice p 0 4) ∧ e.rd LSH_PEER_SCHED_CRC.VALUE = beNat (slice p 8 4) ∧ e.rd
         LSH_PEER_ALARM.ALARMS = beNat (slice p 12 4) % 2 ^ 17 ∧ e.rd LSH_STATUS.ROLE_MATCH = (if slice p 20 64 =
         s.dev.spareTable then 1 else 0)) ∧
    (∀ (symOk : Bool) (bs : Bytes) (m : Mote), s.dev.laneOn = true →
     symOk = false ∨ beNat (bs.drop (bs.length - 4)) ≠ crc32 (bs.take (bs.length - 4)) →
       Does (.mirrorReceive symOk bs m) s
         [(LSH_RX_ERR.COUNT, min (s.dev.rd LSH_RX_ERR.COUNT + 1) (2 ^ 32 - 1))]
         fun e => e.lsh = s.dev.lsh) ∧
    (s.dev.laneOn = true → s.dev.peerPresent = true → s.dev.on LSH_STATUS.LANE_UP = false →
       Does .laneUp s [(LSH_STATUS.LANE_UP, 1), (LSH_EVENT.LANE_UP, 1)] fun e => e.lsh = { s.dev.lsh with everUp := true }) ∧
    (s.dev.on LSH_STATUS.LANE_UP = true →
       Does .laneDown s
         [(LSH_STATUS.LANE_UP, 0), (LSH_EVENT.LANE_DOWN, 1),
          (LSH_LANE_DOWN.COUNT, min (s.dev.rd LSH_LANE_DOWN.COUNT + 1) (2 ^ 32 - 1))]
         fun e => e.lsh = s.dev.lsh) ∧
    (s.dev.leaseWake = true → s.dev.booted = true → s.dev.rat.wakeFr = none → s.dev.capsHold = false →
     s.dev.on RAT_BIV_CFG.WAKE_LEASE = true → s.dev.rat.shadow = none → s.dev.on RAT_DOM_STATUS.PMEM_SR = true →
       Ends .wakeLease s fun e => e.lsh.bivFall = false ∧ e.rd RAT_WAKE_SRC.SRC = 16 ∧ e.rd RAT_CTRL.BIV_REQ = 0 ∧ e.rd
         RAT_EVENT.WAKE = 1 ∧ e.rat.wakeFr.isSome = true ∧ e.rat.announced = 3 ∧ e.rd RAT_STATUS.PHASE = 2 ∧ e.sram =
         s.dev.sram)

/-! ### Voice ports and the service speaker (spec/14) -/

/-- A STARTING port with a valid configuration is ON with two frames in each slip buffer (R298, R300); a tick adds one frame
to its output buffer, with the next sample of each running channel (R298, R302); a frame on the wire sends the oldest and
takes one in (R297, R300); a slave locks and loses lock (R299); a frame of the wrong length is counted (R310); a stopped
port reports STOPPED (R311). -/
def Obligations.VoicePorts : Prop :=
  ∀ s : State,
    (∀ (p : Fin 8) (n : Nat), s.dev.sapRun p = 1 → s.dev.on (SAPp_STATUS.CFG_BAD p) = false →
     s.dev.sapDiv p (s.dev.port p) = some n → s.dev.sap.ports.length = 8 →
       Does (.sapPortOn p) s
         [(SAPp_STATUS.RUN p, 2), (SAPp_STATUS.BCLK_DIV p, n % 2 ^ (SAPp_STATUS.BCLK_DIV p).w), (SAPp_STATUS.LOCKED p, 0),
          (SAPp_STATUS.FILL p, 2)]
         fun e => (e.port p).tick = s.dev.tickIx (s.dev.port p).hz ∧ (e.port p).outQ = List.replicate 2 (List.replicate
           (s.dev.port p).slots 0) ∧ (e.port p).inQ.length = 2) ∧
    (∀ (p : Fin 9) (m : Mote), 2 ≤ s.dev.sapRun p → s.dev.sapHears p = false → p.val < 8 →
     (s.dev.port p).tick ≠ (atMote m s.dev).tickIx (s.dev.port p).hz →
     (s.dev.port p).iec = false ∨ s.dev.on (SAP_IECq_CFG.TX_EN (p - 6)) = true → s.dev.sap.ports.length = 8 →
     s.dev.acRunning false p = [] → s.dev.acRunning true p = [] → (s.dev.port p).outQ.length < 4 →
       Does (.sapTick p m) s
         [(SAPp_STATUS.FILL p, (s.dev.port p).outQ.length + 1)]
         fun e => (e.port p).outQ = (s.dev.port p).outQ ++ [List.replicate (s.dev.port p).slots 0] ∧ (e.port p).tick =
           (atMote m s.dev).tickIx (s.dev.port p).hz) ∧
    (∀ (p : Fin 9) (m : Mote) (k : Fin 64) (x : Staged) (rest : List Staged), 2 ≤ s.dev.sapRun p →
     (s.dev.port p).iec = false → (s.dev.port p).master = false → p.val < 8 →
     (s.dev.port p).tick ≠ (atMote m s.dev).tickIx (s.dev.port p).hz → s.dev.on (SAPp_STATUS.LOCKED p) = false →
     s.dev.acRunning false p = [k.val] → s.dev.acRunning true p = [] → (s.dev.port p).outQ.length < 4 →
     (s.dev.ac false k).src = 0 → (s.dev.ac false k).cell = x :: rest → (s.dev.ac false k).hold = none → x.mark = none →
     (s.dev.ac false k).dip = false → s.dev.rd (fadeField false k) = 0 → s.dev.rd (runField false k) = 2 →
     s.dev.sapRun p = 2 → s.dev.sap.biv = false → s.dev.pm.upsets = [] →
       Ends (.sapTick p m) s fun e => (e.port p).outQ = (s.dev.port p).outQ ++ [(List.replicate (s.dev.port p).slots 0).set
         (s.dev.ac false k).slot ((Smp.ofBytes (s.dev.ac false k).cont (s.dev.ac false k).codec x.bs).word (s.dev.ac false
         k).codec (s.dev.port p).wordBits)] ∧ (e.ac false k).cell = rest ∧ e.rd (SAPp_XRUN.UNDER p) = s.dev.rd
         (SAPp_XRUN.UNDER p)) ∧
    (∀ (p : Fin 8), 2 ≤ s.dev.sapRun p → (s.dev.port p).iec = false → (s.dev.port p).master = false →
     s.dev.on (SAPp_STATUS.LOCKED p) = false →
       Does (.sapLock p) s [(SAPp_STATUS.LOCKED p, 1), (SAPp_EVENT.LOCK p, 1)] fun e => e.sap = s.dev.sap) ∧
    (∀ (p : Fin 8), 2 ≤ s.dev.sapRun p → (s.dev.port p).iec = false → (s.dev.port p).master = false →
     s.dev.on (SAPp_STATUS.LOCKED p) = true →
       Does (.sapLockLost p) s [(SAPp_STATUS.LOCKED p, 0), (SAPp_EVENT.LOCK_LOST p, 1)] fun e => e.sap = s.dev.sap) ∧
    (∀ (p : Fin 8) (v : Nat) (w : List Nat) (rest : List (List Nat)), 2 ≤ s.dev.sapRun p → (s.dev.port p).iec = false →
     s.dev.sapHears p = true → (s.dev.port p).outQ = w :: rest → (s.dev.port p).txRest = (0, 0) →
     (s.dev.port p).rxRest = (0, 0) → (s.dev.port p).inQ.length < 4 → (s.dev.port p).frameBits = 32 → rest.length < 4 →
     v < 2 ^ 32 → ((∀ y ∈ w, y % 2 ^ (32 - (s.dev.port p).slotBits) = 0)) → w.length = (s.dev.port p).slots →
     ((∀ y ∈ w, y < 2 ^ 32)) →
       Does (.sapWireFrame p (.serial v)) s
         [(SAPp_STATUS.FILL p, rest.length)]
         fun e => e.outs = [.sap p (s.dev.port p).frameBits (s.dev.driven p) (frameVal (s.dev.port p) w) (s.dev.port p).clocks] ∧ (e.port p).outQ
           = rest ∧ (e.port p).inQ = (s.dev.port p).inQ ++ [some (frameWords (s.dev.port p) v)]) ∧
    (∀ (p : Fin 8) (len : Nat) (v : Nat), 2 ≤ s.dev.sapRun p → (s.dev.port p).iec = false → (s.dev.port p).master = false →
     s.dev.on (SAPp_STATUS.LOCKED p) = true → len ≠ (s.dev.port p).frameBits → s.dev.sap.ports.length = 8 →
       Ends (.partialFrame p len v) s fun e => e.rd (SAPp_ERR.PARTIAL p) = min (s.dev.rd (SAPp_ERR.PARTIAL p) + 1) (2 ^
         (SAPp_ERR.PARTIAL p).w - 1) ∧ e.rd (SAPp_EVENT.PARTIAL p) = 1 ∧ ((s.dev.port p).guarded = true → (e.port p).txRest =
         (0, 0) ∧ (e.port p).rxRest = (0, 0))) ∧
    (∀ (p : Fin 8), s.dev.sapRun p = 3 → s.dev.portFaded p = true → s.dev.sap.ports.length = 8 →
       Ends (.sapStopped p) s fun e => e.sapRun p = 0 ∧ e.rd (SAPp_EVENT.STOPPED p) = 1 ∧ e.rd (SAPp_STATUS.LOCKED p) = 0 ∧
         e.rd (SAPp_STATUS.FILL p) = 0 ∧ (e.port p).outQ = [] ∧ (∀ k : Fin 64, e.acLive false k = true → (s.dev.ac false
         k).port ≠ p.val))

/-- A STARTING audio channel whose port takes it and which competes with none is ON, ramping in (R301, R312); the end of a
fade-out is its quiescence (R312); an IEC receiver locks and loses lock, and the end of a block stores its channel status
(R307). -/
def Obligations.AudioChannelsAndIec : Prop :=
  ∀ s : State,
    (∀ (inp : Bool) (k : Fin 64), s.dev.rd (runField inp k) = 1 → s.dev.portTakes (s.dev.ac inp k) = true →
     ((∀ j : Fin 64, j ≠ k → s.dev.rd (runField inp j) ≠ 0 → acClash inp (s.dev.ac inp k) (s.dev.ac inp j) = false)) →
       Does (.sapChannelOn inp k) s
         [(runField inp k, 2), (fadeField inp k, 3)]
         fun e => (e.ac inp k).map = (s.dev.ac inp k).map ∧ (e.ac inp k).gPos = 0 ∧ (e.ac inp k).gLen = 1) ∧
    (∀ (inp : Bool) (k : Fin 64) (j : Fin 64), s.dev.rd (runField inp k) = 1 → s.dev.portTakes (s.dev.ac inp k) = true →
     (s.dev.ac inp k).port < 8 → j < k → s.dev.rd (runField inp j) ≠ 0 → s.dev.rd (runField inp j) ≠ 3 →
     acClash inp (s.dev.ac inp k) (s.dev.ac inp j) = true →
       Does (.sapChannelOn inp k) s [(SAPp_EVENT.SLOT_CONFLICT (s.dev.ac inp k).port, 1)] fun e => e.sap = s.dev.sap) ∧
    (∀ (inp : Bool) (k : Fin 64), s.dev.rd (runField inp k) = 3 → s.dev.rd (fadeField inp k) = 2 →
       Does (.fadeDone inp k) s
         [(runField inp k, 0)]
         fun e => (e.ac inp k).map = (s.dev.ac inp k).map ∧ (e.ac inp k).cell = (s.dev.ac inp k).cell) ∧
    (∀ (p : Fin 8), 2 ≤ s.dev.sapRun p → (s.dev.port p).iec = true → s.dev.on (SAP_IECq_CFG.RX_EN (p - 6)) = true →
     s.dev.on (SAPp_STATUS.LOCKED p) = false →
       Does (.iecLock p) s [(SAPp_STATUS.LOCKED p, 1), (SAPp_EVENT.LOCK p, 1)] fun e => e.sap = s.dev.sap) ∧
    (∀ (p : Fin 8), 2 ≤ s.dev.sapRun p → (s.dev.port p).iec = true → s.dev.on (SAP_IECq_CFG.RX_EN (p - 6)) = true →
     s.dev.on (SAPp_STATUS.LOCKED p) = true →
       Does (.iecLockLost p) s [(SAPp_STATUS.LOCKED p, 0), (SAPp_EVENT.LOCK_LOST p, 1)] fun e => e.sap = s.dev.sap) ∧
    (∀ (p : Fin 8), 2 ≤ s.dev.sapRun p → (s.dev.port p).iec = true → s.dev.on (SAP_IECq_CFG.RX_EN (p - 6)) = true →
     s.dev.on (SAPp_STATUS.LOCKED p) = true → (s.dev.port p).csA.length = 192 → 6 ≤ p.val → s.dev.sap.ports.length = 8 →
       Ends (.iecBlockEnd p) s fun e => (∀ j : Fin 6, e.rd (SAP_IECq_CS_RXAk.BYTES (p - 6) j) = leNat (slice (csBytes
         (s.dev.port p).csA) (4 * j) 4) ∧ e.rd (SAP_IECq_CS_RXBk.BYTES (p - 6) j) = leNat (slice (csBytes (s.dev.port p).csB)
         (4 * j) 4)) ∧ (e.port p).csA = [] ∧ (e.port p).csB = []) ∧
    (∀ (p : Fin 8) (w : List Nat) (rest : List (List Nat)), 2 ≤ s.dev.sapRun p → (s.dev.port p).iec = true →
     s.dev.on (SAP_IECq_CFG.TX_EN (p - 6)) = true → (s.dev.port p).outQ = w :: rest → rest.length < 4 →
       Does (.sapWireFrame p (.iec true none)) s
         [(SAPp_STATUS.FILL p, rest.length)]
         fun e => (∃ a b, e.outs = [.iec p ((s.dev.port p).txIdx == 0) a b]) ∧ (e.port p).outQ = rest ∧ (e.port p).txIdx =
           ((s.dev.port p).txIdx + 1) % 192)

/-- Table 14.6: an enable ramps up, a disable ramps down, a ramp completes; 1.8 A in a switch trips with the kind that R315
tells; the fifth trip latches FAULT; a retry follows 800 frames later, 8,000 frames of clean play clear the count,
FAULT_CLR clears the fault (R316); its tick plays its sample (R314); VSPK gates the bridge (R406). -/
def Obligations.ServiceSpeaker : Prop :=
  ∀ s : State,
    (s.dev.booted = true → s.dev.run = true → s.dev.pd 5 = true → s.dev.spkSt = 0 → s.dev.spkPower = true →
       Does .spkEnable s
         [(SPK_CTRL.EN, 1), (SPK_STATUS.TIER_MUTED, 0), (SPK_STATUS.RUN, 2), (SPK_STATUS.STATE, 1)]
         fun e => e.spk.fr = 0 ∧ e.spk.gN = 0 ∧ e.spk.rLen = 8 * s.dev.rd SPK_CFG.RAMP_MS ∧ e.spk.rate = s.dev.rd SPK_CFG.RATE) ∧
    (s.dev.booted = true → s.dev.run = true → s.dev.pd 5 = true → s.dev.spkSt = 2 →
       Does .spkDisable s
         [(SPK_CTRL.EN, 0), (SPK_STATUS.RUN, 3), (SPK_STATUS.STATE, 3)]
         fun e => e.spk.fr = 0 ∧ e.spk.rLen = 8 * s.dev.rd SPK_CFG.RAMP_MS ∧ e.sap = s.dev.sap) ∧
    (s.dev.spkSt = 1 → s.dev.spk.rLen ≤ s.dev.spk.fr →
       Does .spkRampDone s [(SPK_STATUS.STATE, 2)] fun e => e.spk.fr = 0 ∧ e.sap = s.dev.sap) ∧
    (s.dev.spkSt = 3 → s.dev.spk.rLen ≤ s.dev.spk.fr → s.dev.rd SPK_STATUS.RUN = 3 →
       Ends .spkRampDone s fun e => e.spkSt = 0 ∧ e.rd SPK_STATUS.RUN = 0 ∧ e.rd SPK_EVENT.STOPPED = 1 ∧ (∀ k : Fin 64,
         e.acLive false k = true → (s.dev.ac false k).port ≠ 8)) ∧
    (∀ (high : Bool) (legN : Bool) (diag : Nat) (m : Mote), s.dev.spkDrives = true → s.dev.rd SPK_STATUS.TRIPS < 4 →
       Ends (.spkTrip high legN diag m) s fun e => Only s.dev e [SPK_STATUS.KIND, SPK_STATUS.STATE, SPK_STATUS.TRIPS,
         SPK_EVENT.TRIP, SPK_TRIP_CNT.LOAD, SPK_TRIP_CNT.GND, SPK_TRIP_CNT.SUPPLY] ∧ e.sram = s.dev.sram ∧ e.rd
         SPK_STATUS.KIND = (if 900 ≤ diag then 1 else (if high then 2 else 4) + (if legN then 1 else 0)) ∧ e.rd SPK_EVENT.TRIP
         = 1 ∧ e.rd (if 900 ≤ diag then SPK_TRIP_CNT.LOAD else if high then SPK_TRIP_CNT.GND else SPK_TRIP_CNT.SUPPLY) = min
         (s.dev.rd (if 900 ≤ diag then SPK_TRIP_CNT.LOAD else if high then SPK_TRIP_CNT.GND else SPK_TRIP_CNT.SUPPLY) + 1) (2
         ^ ((if 900 ≤ diag then SPK_TRIP_CNT.LOAD else if high then SPK_TRIP_CNT.GND else SPK_TRIP_CNT.SUPPLY)).w - 1) ∧ e.rd
         SPK_STATUS.TRIPS = s.dev.rd SPK_STATUS.TRIPS + 1 ∧ e.spk.fr = 0 ∧ e.spkSt = 4 ∧ e.sap = s.dev.sap) ∧
    (∀ (high : Bool) (legN : Bool) (diag : Nat) (m : Mote), s.dev.spkDrives = true → s.dev.rd SPK_STATUS.TRIPS = 4 →
       Ends (.spkTrip high legN diag m) s fun e => Within s.dev e [24] ∧ e.sram = s.dev.sram ∧ e.spkSt = 5 ∧ e.rd
         SPK_STATUS.FAULT = 1 ∧ e.rd SPK_EVENT.FAULT = 1 ∧ e.rd SPK_STATUS.TRIPS = 5) ∧
    (∀ (deg : Int), 140 ≤ deg → 1 ≤ s.dev.spkSt → s.dev.spkSt ≤ 3 → s.dev.rd SPK_STATUS.TRIPS < 4 →
       Ends (.spkThermalTrip deg) s fun e => Only s.dev e [SPK_STATUS.KIND, SPK_STATUS.STATE, SPK_STATUS.TRIPS,
         SPK_EVENT.TRIP, SPK_TRIP_CNT.THERMAL, SPK_TEMP.DEG, SPK_STATUS.HOT] ∧ e.sram = s.dev.sram ∧ e.rd SPK_STATUS.KIND = 6
         ∧ e.rd SPK_EVENT.TRIP = 1 ∧ e.rd SPK_TRIP_CNT.THERMAL = min (s.dev.rd SPK_TRIP_CNT.THERMAL + 1) (2 ^
         (SPK_TRIP_CNT.THERMAL).w - 1) ∧ e.rd SPK_STATUS.TRIPS = s.dev.rd SPK_STATUS.TRIPS + 1 ∧ e.spk.fr = 0 ∧ e.spkSt = 4 ∧
         e.rd SPK_TEMP.DEG = uns 8 deg ∧ e.rd SPK_STATUS.HOT = 1) ∧
    (∀ (deg : Int), deg ≤ 120 →
       Does (.spkThermalRelease deg) s [(SPK_TEMP.DEG, uns 8 deg), (SPK_STATUS.HOT, 0)] fun e => e.spk = s.dev.spk) ∧
    (s.dev.spkSt = 4 → 800 ≤ s.dev.spk.fr → s.dev.on SPK_CTRL.EN = true → s.dev.on SPK_STATUS.HOT = false →
       Does .spkRetry s [(SPK_STATUS.STATE, 1), (SPK_STATUS.RUN, 2), (SPK_EVENT.RETRY, 1)] fun e => e.spk.fr = 0 ∧ e.spk.gN = 0 ∧ e.sap = s.dev.sap) ∧
    (s.dev.spkSt = 2 → 8000 ≤ s.dev.spk.fr → s.dev.spk.clean = false → s.dev.rd SPK_STATUS.TRIPS ≠ 0 →
       Does .spkRecovered s [(SPK_STATUS.TRIPS, 0), (SPK_EVENT.RECOVERED, 1)] fun e => e.sap = s.dev.sap) ∧
    (Taken 5 s → s.dev.spkSt = 5 → s.dev.on SPK_CTRL.EN = false →
       Ends .spkFaultClr s fun e => e.spkSt = 0 ∧ e.rd SPK_STATUS.FAULT = 0 ∧ e.rd SPK_STATUS.TRIPS = 0 ∧ e.rd
         SPK_STATUS.RUN = 0) ∧
    (∀ (m : Mote), s.dev.spkDrives = true → s.dev.spk.tick ≠ (atMote m s.dev).tickIx s.dev.spkHz →
     s.dev.acRunning false 8 = [] →
       Does (.sapTick 8 m) s
         []
         fun e => e.outs = [.spk 0] ∧ e.spk.tick = (atMote m s.dev).tickIx s.dev.spkHz ∧ e.spk.vPos = s.dev.spk.vPos + 1) ∧
    (Does .vspkLow s [] fun e => e.spk = { s.dev.spk with low := true }) ∧
    (Does .vspkGood s [] fun e => e.spk = { s.dev.spk with low := false })

/-! ### The lifeline bridge (spec/15) -/

/-- A channel in STARTING is ON at a round event with a valid template, else refused, or held where an audio input feeds its
voice channel (R321, R322, R331); its packet falls due once a
round of packets, and is sent by the device with the token (R320, R323, R324); one not begun in time is dropped (R325); a
received packet is taken or counted bad (R326, R327); silence is reported (R328); event copies go out one a round (R330);
stopping ends at quiescence (R331). -/
def Obligations.LifelineBridge : Prop :=
  ∀ s : State,
    (∀ (c : Fin 17), c.val < 16 → s.dev.llbRun c = 1 → s.dev.tplOk c = true →
     (s.dev.tplLocal c = false ∨ s.dev.sapFeeds (s.dev.vchTx c) = false) → s.dev.frame % 16 = 0 →
       Ends (.llbChannelStart c) s fun e => Only s.dev e [LLB_CH_RUN0.RUN, LLB_CH_RUN1.RUN, LLB_STATUS.ACTIVE,
         LLB_STATUS.SENDING] ∧ e.sram = s.dev.sram ∧ e.llbRun c = 2 ∧ (∀ j : Fin 16, j.val ≠ c.val → e.llbRun j = s.dev.llbRun
         j)) ∧
    (∀ (c : Fin 17), c.val < 16 → s.dev.llbRun c = 1 → s.dev.tplOk c = false →
       Ends (.llbChannelStart c) s fun e => Only s.dev e [LLB_CH_RUN0.RUN, LLB_CH_RUN1.RUN, LLB_STATUS.BAD_CH, LLB_CH_EN.EN,
         LLB_EVENT.TPL_BAD] ∧ e.sram = s.dev.sram ∧ e.llbRun c = 0 ∧ (∀ j : Fin 16, j.val ≠ c.val → e.llbRun j = s.dev.llbRun
         j) ∧ e.rd LLB_STATUS.BAD_CH = c ∧ e.bitOf LLB_CH_EN.EN c = false ∧ e.rd LLB_EVENT.TPL_BAD = 1 ∧ e.llb = s.dev.llb) ∧
    (∀ (c : Fin 17), c.val < 16 → s.dev.llbRun c = 1 → s.dev.tplOk c = true → s.dev.tplLocal c = true →
     s.dev.sapFeeds (s.dev.vchTx c) = true → (s.dev.lc c).conf = false →
       Does (.llbChannelStart c) s [(LLB_EVENT.CONFLICT, 1)] fun e => e.llbRun c = 1) ∧
    (s.dev.rd LLB_STATUS.EV_RUN = 1 → s.dev.evTplOk = false →
       Does (.llbChannelStart 16) s
         [(LLB_STATUS.EV_RUN, 0), (LLB_STATUS.BAD_CH, 16), (LLB_CTRL.EV_EN, 0), (LLB_EVENT.TPL_BAD, 1)]
         fun e => e.llb = s.dev.llb) ∧
    (s.dev.rd LLB_STATUS.EV_RUN = 1 → s.dev.evTplOk = true → s.dev.frame % 16 = 0 →
       Does (.llbChannelStart 16) s [(LLB_STATUS.EV_RUN, 2)] fun e => e.llb = s.dev.llb) ∧
    (∀ (c : Fin 16) (r : Nat), s.dev.llbDue c = some r → (s.dev.lc c).act = true → (s.dev.lc c).lastR ≠ some r →
     s.dev.holds = true → (s.dev.chRun 0 = 1 ∨ s.dev.chRun 0 = 2) → s.dev.fenced 0 = false → (s.dev.ch 0).fencing = false →
     62 + 16 * s.dev.ptime c ≤ s.dev.rd (CHn_MAX_LEN.MAX 0) → (s.dev.ch 0).queues.length = 8 → s.dev.chan.length = 4 →
     s.dev.llb.chs.length = 16 → QueuesClean s →
       Ends (.llbPacketDue c) s fun e => (e.lc c).lastR = some r ∧ (e.lc c).mark = false ∧ (((e.ch 0).queues.getD (s.dev.rd
         LLB_CFG.TC) []).any fun x => x.data == s.dev.llbPacket c (s.dev.llbCodes c r) (r / s.dev.ptime c % 65536) (16 * r % 2
         ^ 32) (s.dev.lc c).mark ++ leBytes 4 (crc32 (s.dev.llbPacket c (s.dev.llbCodes c r) (r / s.dev.ptime c % 65536) (16 *
         r % 2 ^ 32) (s.dev.lc c).mark))) = true) ∧
    (∀ (c : Fin 17) (x : Sys2Proof.Machine.Frm), c.val < 16 → ((s.dev.ch 0).queues.flatMap id) = [x] → x.llb = some c.val →
     x.qFr + 16 * s.dev.ptime c ≤ s.dev.frameExt → s.dev.chan.length = 4 → s.dev.pm.sentIds = [] →
       Ends (.llbTxDrop c) s fun e => Within s.dev e [184, 16, 21, 25] ∧ e.sram = s.dev.sram ∧ e.word (0x2E1000 + 32 * c + 4
         * 1) = min (s.dev.word (0x2E1000 + 32 * c + 4 * 1) + 1) (2 ^ 32 - 1) ∧ e.rd LLB_EVENT.TX_DROP = 1 ∧ ((e.ch
         0).queues.flatMap id) = []) ∧
    (∀ (c : Fin 16) (data : Bytes), s.dev.llbMatch data = some c.val → s.dev.llbGood c data = none →
       Does (.llbRxPacket c data) s
         [(⟨0x2E1000 + 32 * c + 4 * 6, 0, 32⟩, min (s.dev.word (0x2E1000 + 32 * c + 4 * 6) + 1) (2 ^ 32 - 1))]
         fun e => e.llb = s.dev.llb) ∧
    (∀ (c : Fin 16) (data : Bytes) (ul : Nat), s.dev.llbMatch data = some c.val → s.dev.llbGood c data = some ul →
     (s.dev.lc c).act = true → (s.dev.lc c).anchor = none → (s.dev.lc c).silent = false → s.dev.tplSsrc c = 0 →
     (s.dev.lc c).ssrc = none → (s.dev.lc c).seqs = [] → s.dev.anchorFrame c + (ul - 20) ≤ s.dev.frameExt + 257 →
     s.dev.llb.chs.length = 16 →
       Ends (.llbRxPacket c data) s fun e => Only s.dev e [⟨0x2E1000 + 32 * c + 4 * 2, 0, 32⟩] ∧ e.sram = s.dev.sram ∧ (e.lc
         c).good = (slice data ((rxIpOff data).getD 14 + 40) (ul - 20)).map (·.toNat) ∧ (e.lc c).ssrc = some (beAt data
         ((rxIpOff data).getD 14 + 36) 4) ∧ (e.lc c).quiet = 0 ∧ (e.lc c).seqs.head? = some (beAt data ((rxIpOff data).getD 14
         + 30) 2) ∧ e.word (0x2E1000 + 32 * c + 4 * 2) = min (s.dev.word (0x2E1000 + 32 * c + 4 * 2) + 1) (2 ^ 32 - 1)) ∧
    (∀ (c : Fin 16), (s.dev.lc c).act = true → (s.dev.lc c).silent = false → s.dev.silentRnd c ≤ (s.dev.lc c).quiet →
     (s.dev.rd LLB_STATUS.EV_RUN ≠ 2) →
       Does (.rxSilent c) s
         [(LLB_EVENT.RX_SILENT, 1)]
         fun e => (e.lc c).silent = true ∧ (e.lc c).anchor = none ∧ (e.lc c).ssrc = none) ∧
    (∀ (y : LlbEv), s.dev.llb.evq = [y] → y.due ≤ s.dev.frameExt → s.dev.holds = true →
       Ends .evCopyDue s fun e => e.llb.evq = (if y.left ≤ 1 then [] else
         [{ y with copy := y.copy + 1, left := y.left - 1, due := y.due + 16 }]) ∧ e.host.nextId = s.dev.host.nextId + 1) ∧
    (∀ (y : LlbEv), s.dev.llb.evq = [y] → y.due ≤ s.dev.frameExt → s.dev.holds = false → byteAt y.body 1 ≠ 7 → y.left ≤ 1 →
       Does .evCopyDue s [] fun e => e.llb.evq = []) ∧
    (∀ (c : Fin 17), c.val < 16 → s.dev.llbRun c = 3 → (s.dev.lc c).build = none →
       Ends (.llbStopped c) s fun e => Only s.dev e [LLB_CH_RUN0.RUN, LLB_CH_RUN1.RUN] ∧ e.sram = s.dev.sram ∧ e.llbRun c =
         0 ∧ (∀ j : Fin 16, j.val ≠ c.val → e.llbRun j = s.dev.llbRun j) ∧ e.llb = s.dev.llb) ∧
    (s.dev.rd LLB_STATUS.EV_RUN = 3 → s.dev.llb.evq = [] →
       Does (.llbStopped 16) s [(LLB_STATUS.EV_RUN, 0)] fun e => e.llb = s.dev.llb)

/-! ### The compression engine (spec/16) -/

/-- With a job accepted (Table 16.2), the engine runs it: its fields, ring and context (R334, R335). A first job starts its
context, a compression stream with its wrapper header (R337); a save writes its blob (R345); a job refused by Table 16.2
is returned BAD_DESC. -/
def Obligations.CompressionJobs : Prop :=
  ∀ s : State,
    (∀ (r : Nat) (cnt : Nat) (y : Desc), s.dev.rd CMP_STATUS.RUN = 2 → s.dev.cmp.job = none →
     s.dev.nextJob = some (r, cnt, y) → s.dev.cmpAvail = true →
     s.dev.cmpAccept (cmpJobOf r cnt ((s.dev.ringFn r).getD 0) y) y = true → s.dev.cmp.ctx.length = 16 →
     (cmpJobOf r cnt ((s.dev.ringFn r).getD 0) y).op = 0 → (cmpJobOf r cnt ((s.dev.ringFn r).getD 0) y).first = true →
     10 ≤ (cmpJobOf r cnt ((s.dev.ringFn r).getD 0) y).dstLen → 384 ≤ r → r < 400 →
       Ends .cmpCompressStatic s fun e => (e.cmp.job.map fun j => [j.ring, j.cnt, j.op, j.src, j.srcLen, j.dst, j.dstLen]) =
         some [r, cnt, 0, (cmpJobOf r cnt ((s.dev.ringFn r).getD 0) y).src, (cmpJobOf r cnt ((s.dev.ringFn r).getD 0)
         y).srcLen, (cmpJobOf r cnt ((s.dev.ringFn r).getD 0) y).dst, (cmpJobOf r cnt ((s.dev.ringFn r).getD 0) y).dstLen] ∧
         e.cmp.last = r ∧ e.on CMP_STATUS.BUSY = true ∧ e.rd CMP_STATUS.CUR_CTX = (r - 384) % 16 ∧ e.cx (ctxOf r) =
         { cxFirst 0 (cmpJobOf r cnt ((s.dev.ringFn r).getD 0) y).wrap with tout := (wrapHeader (cmpJobOf r cnt ((s.dev.ringFn r).getD 0) y).wrap).length }) ∧
    (∀ (r : Nat) (cnt : Nat) (y : Desc), s.dev.rd CMP_STATUS.RUN = 2 → s.dev.cmp.job = none →
     s.dev.nextJob = some (r, cnt, y) → s.dev.cmpAvail = true →
     s.dev.cmpAccept (cmpJobOf r cnt ((s.dev.ringFn r).getD 0) y) y = true → s.dev.cmp.ctx.length = 16 →
     (cmpJobOf r cnt ((s.dev.ringFn r).getD 0) y).op = 1 → (cmpJobOf r cnt ((s.dev.ringFn r).getD 0) y).first = false →
     384 ≤ r →
       Ends .cmpCompressDynamic s fun e => (e.cmp.job.map fun j => [j.ring, j.cnt, j.op, j.src, j.srcLen, j.dst, j.dstLen])
         = some [r, cnt, 1, (cmpJobOf r cnt ((s.dev.ringFn r).getD 0) y).src, (cmpJobOf r cnt ((s.dev.ringFn r).getD 0)
         y).srcLen, (cmpJobOf r cnt ((s.dev.ringFn r).getD 0) y).dst, (cmpJobOf r cnt ((s.dev.ringFn r).getD 0) y).dstLen] ∧
         e.cmp.last = r ∧ e.on CMP_STATUS.BUSY = true ∧ e.rd CMP_STATUS.CUR_CTX = (r - 384) % 16 ∧ e.cmp.ctx = s.dev.cmp.ctx) ∧
    (∀ (r : Nat) (cnt : Nat) (y : Desc), s.dev.rd CMP_STATUS.RUN = 2 → s.dev.cmp.job = none →
     s.dev.nextJob = some (r, cnt, y) → s.dev.cmpAvail = true →
     s.dev.cmpAccept (cmpJobOf r cnt ((s.dev.ringFn r).getD 0) y) y = true → s.dev.cmp.ctx.length = 16 →
     (cmpJobOf r cnt ((s.dev.ringFn r).getD 0) y).op = 2 → (cmpJobOf r cnt ((s.dev.ringFn r).getD 0) y).first = true →
     384 ≤ r → r < 400 →
       Ends .cmpDecompress s fun e => (e.cmp.job.map fun j => [j.ring, j.cnt, j.op, j.src, j.srcLen, j.dst, j.dstLen]) =
         some [r, cnt, 2, (cmpJobOf r cnt ((s.dev.ringFn r).getD 0) y).src, (cmpJobOf r cnt ((s.dev.ringFn r).getD 0)
         y).srcLen, (cmpJobOf r cnt ((s.dev.ringFn r).getD 0) y).dst, (cmpJobOf r cnt ((s.dev.ringFn r).getD 0) y).dstLen] ∧
         e.cmp.last = r ∧ e.on CMP_STATUS.BUSY = true ∧ e.rd CMP_STATUS.CUR_CTX = (r - 384) % 16 ∧ e.cx (ctxOf r) = cxFirst 2
         (cmpJobOf r cnt ((s.dev.ringFn r).getD 0) y).wrap) ∧
    (∀ (r : Nat) (cnt : Nat) (y : Desc), s.dev.rd CMP_STATUS.RUN = 2 → s.dev.cmp.job = none →
     s.dev.nextJob = some (r, cnt, y) → s.dev.cmpAvail = true →
     s.dev.cmpAccept (cmpJobOf r cnt ((s.dev.ringFn r).getD 0) y) y = true → s.dev.cmp.ctx.length = 16 →
     (cmpJobOf r cnt ((s.dev.ringFn r).getD 0) y).op = 3 → 384 ≤ r →
       Ends .cmpSave s fun e => (e.cmp.job.map fun j => [j.ring, j.cnt, j.op, j.src, j.srcLen, j.dst, j.dstLen]) = some [r,
         cnt, 3, (cmpJobOf r cnt ((s.dev.ringFn r).getD 0) y).src, (cmpJobOf r cnt ((s.dev.ringFn r).getD 0) y).srcLen,
         (cmpJobOf r cnt ((s.dev.ringFn r).getD 0) y).dst, (cmpJobOf r cnt ((s.dev.ringFn r).getD 0) y).dstLen] ∧ e.cmp.last =
         r ∧ e.on CMP_STATUS.BUSY = true ∧ e.rd CMP_STATUS.CUR_CTX = (r - 384) % 16 ∧ e.cmp.ctx = s.dev.cmp.ctx ∧
         (e.cmp.job.bind fun j => j.fin) = some 0) ∧
    (∀ (r : Nat) (cnt : Nat) (y : Desc), s.dev.rd CMP_STATUS.RUN = 2 → s.dev.cmp.job = none →
     s.dev.nextJob = some (r, cnt, y) → s.dev.cmpAvail = true →
     s.dev.cmpAccept (cmpJobOf r cnt ((s.dev.ringFn r).getD 0) y) y = true → s.dev.cmp.ctx.length = 16 →
     (cmpJobOf r cnt ((s.dev.ringFn r).getD 0) y).op = 4 → 384 ≤ r →
       Ends .cmpRestore s fun e => (e.cmp.job.map fun j => [j.ring, j.cnt, j.op, j.src, j.srcLen, j.dst, j.dstLen]) = some
         [r, cnt, 4, (cmpJobOf r cnt ((s.dev.ringFn r).getD 0) y).src, (cmpJobOf r cnt ((s.dev.ringFn r).getD 0) y).srcLen,
         (cmpJobOf r cnt ((s.dev.ringFn r).getD 0) y).dst, (cmpJobOf r cnt ((s.dev.ringFn r).getD 0) y).dstLen] ∧ e.cmp.last =
         r ∧ e.on CMP_STATUS.BUSY = true ∧ e.rd CMP_STATUS.CUR_CTX = (r - 384) % 16 ∧ e.cmp.ctx = s.dev.cmp.ctx ∧
         (e.cmp.job.bind fun j => j.fin) = none) ∧
    (∀ (r : Nat) (cnt : Nat) (y : Desc), s.dev.rd CMP_STATUS.RUN = 2 → s.dev.cmp.job = none →
     s.dev.nextJob = some (r, cnt, y) → s.dev.cmpAvail = true →
     s.dev.cmpAccept (cmpJobOf r cnt ((s.dev.ringFn r).getD 0) y) y = false →
     (cmpJobOf r cnt ((s.dev.ringFn r).getD 0) y).op = 3 →
       Ends .cmpSave s fun e => e.cmp.job = none ∧ e.cmp.last = r ∧ e.cmp.ctx = s.dev.cmp.ctx ∧ e.rd CMP_JOBS.COUNT = min
         (s.dev.rd CMP_JOBS.COUNT + 1) (2 ^ 32 - 1))

/-- A block that two encodings fail is a hard failure (R338); one that fails the proof falls back to a stored block (R338); a
job that has ended is returned and the engine is free (R339, R341); one stopped for its cause is returned ABORT and its
context emptied (R342); a restore takes its blob or fails (R345); quiescence stops the engine (R344). -/
def Obligations.CompressionProgress : Prop :=
  ∀ s : State,
    (∀ (j : CmpJob), s.dev.cmp.job = some j → j.fin = none → j.op < 2 → min 32768 (j.srcLen - j.used) ≤ j.inp.length →
     j.used < j.srcLen → ctxOf j.ring < 16 → s.dev.cmp.ctx.length = 16 → s.dev.pm.upsets = [] →
       Ends (.cmpBlockDone 2) s fun e => (e.cmp.job.bind fun x => x.fin) = some 6 ∧ e.cx (ctxOf j.ring) = {} ∧ e.rd
         CMP_HARD.COUNT = min (s.dev.rd CMP_HARD.COUNT + 1) (2 ^ CMP_HARD.COUNT.w - 1) ∧ e.rd CMP_EVENT.HARD_FAIL = 1 ∧ e.rd
         CMP_FALLBACK.COUNT = min (s.dev.rd CMP_FALLBACK.COUNT + 1) (2 ^ CMP_FALLBACK.COUNT.w - 1) ∧ e.rd
         CMP_BLOCKS.COUNT = s.dev.rd CMP_BLOCKS.COUNT) ∧
    (∀ (j : CmpJob), s.dev.cmp.job = some j → j.fin = none → j.op < 2 → j.srcLen - j.used ≤ 32768 →
     j.srcLen ≤ j.used + j.inp.length → j.used < j.srcLen → ctxOf j.ring < 16 → j.obits.length < 8 →
     j.made + (j.srcLen - j.used) + 32 ≤ j.dstLen → s.dev.pm.upsets = [] →
       Ends (.cmpBlockDone 1) s fun e => (e.cmp.job.map fun x => (x.fin, x.vf, x.used, x.blocks)) = some (some 0, true,
         j.srcLen, j.blocks + 1) ∧ e.rd CMP_FALLBACK.COUNT = min (s.dev.rd CMP_FALLBACK.COUNT + 1) (2 ^ CMP_FALLBACK.COUNT.w -
         1) ∧ e.rd CMP_EVENT.FALLBACK = 1 ∧ e.rd CMP_LAST_FB.CTX = ctxOf j.ring % 16 ∧ e.rd CMP_BLOCKS.COUNT = min (s.dev.rd
         CMP_BLOCKS.COUNT + 1) (2 ^ CMP_BLOCKS.COUNT.w - 1)) ∧
    (∀ (u : Fin 3) (j : CmpJob) (b : Bool), s.dev.cmp.job = some j → j.fin = none → j.op = 2 → j.made < j.dstLen →
     (s.dev.cx (ctxOf j.ring)).phase = 1 → (s.dev.cx (ctxOf j.ring)).bits.take 3 = [b, true, true] → j.used ≤ j.srcLen →
     j.inp ≠ [] → ctxOf j.ring < 16 → s.dev.cmp.ctx.length = 16 → s.dev.pm.upsets = [] →
       Ends (.cmpBlockDone u) s fun e => (e.cmp.job.bind fun x => x.fin) = some 8 ∧ e.cx (ctxOf j.ring) = {}) ∧
    (∀ (j : CmpJob) (st : Nat), s.dev.cmp.job = some j → j.fin = some st → j.stop ≠ some 0 →
     (st = 0 ∨ st = 6 ∨ st = 7 ∨ st = 8) →
       Ends .cmpJobEnd s fun e => e.cmp.job = none ∧ e.on CMP_STATUS.BUSY = false ∧ e.cmp.ctx = s.dev.cmp.ctx ∧ e.rd
         CMP_JOBS.COUNT = min (s.dev.rd CMP_JOBS.COUNT + 1) (2 ^ 32 - 1) ∧ (st = 7 → e.rd CMP_EVENT.OUT_FULL = 1) ∧ (st = 8 →
         e.rd CMP_EVENT.DATA_ERR = 1 ∧ e.rd CMP_DATA_ERR.COUNT = min (s.dev.rd CMP_DATA_ERR.COUNT + 1) (2 ^
         CMP_DATA_ERR.COUNT.w - 1))) ∧
    (∀ (j : CmpJob), s.dev.cmp.job = some j → j.fin = none → j.op = 4 → j.stop ≠ some 0 → 34816 ≤ j.inp.length →
     ctxOf j.ring < 16 → s.dev.cmp.ctx.length = 16 →
       Ends .cmpJobEnd s fun e => e.cmp.job = none ∧ e.cx (ctxOf j.ring) = (if blobOk j.inp then blobCtx j.inp else {}) ∧
         (blobOk j.inp = false → e.rd CMP_EVENT.DATA_ERR = 1)) ∧
    (∀ (j : CmpJob), s.dev.cmp.job = some j → (j.stop = some 1 ∨ j.stop = some 2) → j.op < 3 → j.fin = none →
     ctxOf j.ring < 16 → s.dev.cmp.ctx.length = 16 → s.dev.cmpAtBoundary j = true →
       Ends .cmpJobStop s fun e => e.cmp.job = none ∧ e.on CMP_STATUS.BUSY = false ∧ e.cx (ctxOf j.ring) = {} ∧ e.rd
         CMP_ABORTS.COUNT = min (s.dev.rd CMP_ABORTS.COUNT + 1) (2 ^ CMP_ABORTS.COUNT.w - 1) ∧ e.rd CMP_EVENT.JOB_ABORT = 1) ∧
    (∀ (j : CmpJob), s.dev.cmp.job = some j → j.stop = some 0 → ctxOf j.ring < 16 → s.dev.cmp.ctx.length = 16 →
       Ends .cmpJobStop s fun e => e.cmp.job = none ∧ e.cx (ctxOf j.ring) = {} ∧ e.rd CMP_JOBS.COUNT = s.dev.rd
         CMP_JOBS.COUNT ∧ e.outs = []) ∧
    (s.dev.cmp.job = none → s.dev.rd CMP_STATUS.RUN = 3 →
       Does .cmpStopped s [(CMP_STATUS.RUN, 0)] fun e => e.cmp = s.dev.cmp)

/-! ### Field interfaces (spec/17) -/

/-- A command of software to the idle Guyline is taken, and the line is ready for it (R350, R351). -/
abbrev LineFree (s : State) : Prop :=
  Taken 0 s ∧ s.dev.on FLD_GL_STATUS.BUSY = false ∧ s.dev.on FLD_GL_CTRL.GO = false ∧ s.dev.glReady = true

/-- A transaction of kind op that sends bs and reads n bytes is on the line, with its lows (R347, R348). -/
abbrev OnLine (op : Nat) (bs : Bytes) (n : Nat) : List Out := [.guyline op bs (glLows bs n)]

/-- The code of an end (R350, R351). -/
abbrev EndCode (e : GlEnd) : Nat :=
  match e with
  | .ok => 1
  | .read _ _ => 1
  | .noPresence => 2
  | .collision => 4
  | .busLow => 8
  | .status b => if b = 0xA5#8 then 1 else 5

/-- GO starts a transaction of its kind on an idle line, and waits where the line is not ready (R350, R351); a WRITE without the token ends TOKEN, one of a bad length ends
BAD (R351, R352); a transaction ends with its result, a collision is tried again after a backoff of 8 to 64 fr, up to
RETRIES times (R350); a search pass lists what it finds (R354); an attach pulse is noted and a search by the OX4 follows
(R353). -/
def Obligations.Guyline : Prop :=
  ∀ s : State,
    (∀ (incr : Bool) (fn : Fin 256) (len : Fin 128), LineFree s →
       Does (.glReset incr fn len) s
         [(FLD_GL_CTRL.OP, 0), (FLD_GL_CTRL.INCR, if incr then 1 else 0), (FLD_GL_CTRL.FN, fn.val),
          (FLD_GL_CTRL.LEN, len.val), (FLD_GL_CTRL.GO, 1), (FLD_GL_STATUS.BUSY, 1)]
         fun e => (e.fld.gl.map fun g => (g.who, g.op, g.tries, g.start, g.wait)) = some (.soft, 0, 0, s.dev.nowExt, none) ∧
           e.outs = OnLine 0 [] 0) ∧
    (∀ (incr : Bool) (fn : Fin 256) (len : Fin 128), Taken 0 s → s.dev.on FLD_GL_STATUS.BUSY = false →
     s.dev.on FLD_GL_CTRL.GO = false → s.dev.glReady = false →
       Does (.glReset incr fn len) s
         [(FLD_GL_CTRL.OP, 0), (FLD_GL_CTRL.INCR, if incr then 1 else 0), (FLD_GL_CTRL.FN, fn.val),
          (FLD_GL_CTRL.LEN, len.val), (FLD_GL_CTRL.GO, 1), (FLD_GL_STATUS.BUSY, 1)]
         fun e => (e.fld.gl.map fun g => (g.who, g.op, g.idle)) = some (.soft, 0, true) ∧ e.outs = []) ∧
    (∀ (fn : Fin 256) (len : Fin 128), LineFree s →
       Does (.glSearch true fn len) s
         [(FLD_GL_CTRL.OP, 1), (FLD_GL_CTRL.INCR, 1), (FLD_GL_CTRL.FN, fn.val), (FLD_GL_CTRL.LEN, len.val),
          (FLD_GL_CTRL.GO, 1), (FLD_GL_STATUS.BUSY, 1), (FLD_GL_STATUS.DISTURBED, 0), (FLD_GL_STATUS.OVERFLOW, 0)]
         fun e => (e.fld.gl.map fun g => (g.who, g.op, g.tries, g.start, g.wait)) = some (.soft, 1, 0, s.dev.nowExt, none) ∧
           e.outs = OnLine 1 [0xE5] 0) ∧
    (∀ (fn : Fin 256) (len : Fin 128), LineFree s → s.dev.rd FLD_GL_STATUS.COUNT ≤ 64 →
       Ends (.glSearch false fn len) s fun e => (e.fld.gl.map fun g => (g.who, g.op, g.tries, g.start, g.wait)) = some
         (.soft, 1, 0, s.dev.nowExt, none) ∧ e.rd FLD_GL_STATUS.COUNT = 0 ∧ e.rd FLD_GL_STATUS.LAST_DISC = 127 ∧ e.rd
         FLD_GL_STATUS.DISTURBED = 0 ∧ e.rd FLD_GL_STATUS.OVERFLOW = 0 ∧ (∀ j : Fin 64, j.val < s.dev.rd FLD_GL_STATUS.COUNT →
         e.rd (FLD_GL_ID.ID j 0) = 0 ∧ e.rd (FLD_GL_ID.ID j 1) = 0 ∧ e.rd (FLD_GL_ID.ID j 2) = 0)) ∧
    (∀ (incr : Bool) (fn : Fin 256) (len : Fin 128), LineFree s → 1 ≤ len.val → len.val ≤ 64 →
       Does (.glRead incr fn len) s
         [(FLD_GL_CTRL.OP, 2), (FLD_GL_CTRL.INCR, if incr then 1 else 0), (FLD_GL_CTRL.FN, fn.val),
          (FLD_GL_CTRL.LEN, len.val), (FLD_GL_CTRL.GO, 1), (FLD_GL_STATUS.BUSY, 1)]
         fun e => (e.fld.gl.map fun g => (g.who, g.op, g.tries, g.start, g.wait)) = some (.soft, 2, 0, s.dev.nowExt, none) ∧
           e.outs = OnLine 2 (glHead s.dev.glTid fn (s.dev.rd FLD_GL_ADDR.ADDR)) (len + 2)) ∧
    (∀ (incr : Bool) (fn : Fin 256) (len : Fin 128), Taken 0 s → s.dev.on FLD_GL_STATUS.BUSY = false →
     s.dev.on FLD_GL_CTRL.GO = false → len.val = 0 ∨ 64 < len.val →
       Does (.glRead incr fn len) s
         [(FLD_GL_CTRL.OP, 2), (FLD_GL_CTRL.INCR, if incr then 1 else 0), (FLD_GL_CTRL.FN, fn.val),
          (FLD_GL_CTRL.LEN, len.val), (FLD_GL_STATUS.RESULT, 9), (FLD_GL_CTRL.GO, 0), (FLD_EVENT.GL_DONE, 1)]
         fun e => e.fld = s.dev.fld ∧ e.outs = []) ∧
    (∀ (incr : Bool) (fn : Fin 256) (len : Fin 128), LineFree s → 1 ≤ len.val → len.val ≤ 32 →
     s.dev.holds = true →
       Does (.glWrite incr fn len) s
         [(FLD_GL_CTRL.OP, 3), (FLD_GL_CTRL.INCR, if incr then 1 else 0), (FLD_GL_CTRL.FN, fn.val),
          (FLD_GL_CTRL.LEN, len.val), (FLD_GL_CTRL.GO, 1), (FLD_GL_STATUS.BUSY, 1)]
         fun e => (e.fld.gl.map fun g => (g.who, g.op, g.tries, g.start, g.wait)) = some (.soft, 3, 0, s.dev.nowExt, none) ∧
           e.outs = OnLine 3 (glWriteFrame s.dev.glTid fn (s.dev.rd FLD_GL_ADDR.ADDR) (s.dev.glBuf len)) 1) ∧
    (∀ (incr : Bool) (fn : Fin 256) (len : Fin 128), Taken 0 s → s.dev.on FLD_GL_STATUS.BUSY = false →
     s.dev.on FLD_GL_CTRL.GO = false → 1 ≤ len.val → len.val ≤ 32 → s.dev.holds = false →
       Does (.glWrite incr fn len) s
         [(FLD_GL_CTRL.OP, 3), (FLD_GL_CTRL.INCR, if incr then 1 else 0), (FLD_GL_CTRL.FN, fn.val),
          (FLD_GL_CTRL.LEN, len.val), (FLD_GL_STATUS.RESULT, 6), (FLD_GL_CTRL.GO, 0), (FLD_EVENT.GL_DONE, 1)]
         fun e => e.fld = s.dev.fld ∧ e.outs = []) ∧
    (∀ (end_ : GlEnd) (g : Gl), s.dev.fld.gl = some g → g.who = .soft → g.op = 0 ∨ g.op = 3 → g.wait = none → g.idle = false →
     end_ = .busLow ∨ end_ = .noPresence ∧ s.dev.on FLD_GL_STATUS.PRESENT = false ∨ s.dev.on FLD_GL_STATUS.PRESENT = true ∧
       (end_ = .ok ∧ g.op = 0 ∨ g.op = 3 ∧ ∃ b, end_ = .status b) →
     s.dev.fld.glq = [] → s.dev.fld.held = none →
       Does (.glDone end_) s
         [(FLD_GL_STATUS.RESULT, EndCode end_), (FLD_GL_CTRL.GO, 0), (FLD_EVENT.GL_DONE, 1), (FLD_GL_STATUS.BUSY, 0)]
         fun e => e.fld.gl = none) ∧
    (∀ (data : Bytes) (crc : BitVec 16) (g : Gl), s.dev.fld.gl = some g → g.who = .soft → g.op = 2 → g.wait = none →
     g.idle = false → g.rd = data.length + 2 → data.length ≤ 64 → crc16 (g.head ++ data) = crc.toNat →
     s.dev.fld.glq = [] → s.dev.fld.held = none →
       Ends (.glDone (.read data crc)) s fun e => Within s.dev e [28] ∧ e.sram = s.dev.sram ∧ e.rd FLD_GL_STATUS.RESULT = 1 ∧ e.rd
         FLD_EVENT.GL_DONE = 1 ∧ e.rd FLD_GL_STATUS.BUSY = 0 ∧ e.rd FLD_GL_STATUS.PRESENT = 1 ∧ (∀ k : Fin 16, e.rd
         (FLD_GL_BUFk.BYTES k) = if 4 * k.val < data.length then leNat (slice data (4 * k) 4) else s.dev.rd (FLD_GL_BUFk.BYTES
         k))) ∧
    (∀ (data : Bytes) (crc : BitVec 16) (g : Gl), s.dev.fld.gl = some g → g.who = .soft → g.op = 2 → g.wait = none →
     g.idle = false → g.rd = data.length + 2 → crc16 (g.head ++ data) ≠ crc.toNat → s.dev.rd FLD_GL_CFG.RETRIES ≤ g.tries →
     s.dev.fld.glq = [] → s.dev.fld.held = none →
       Does (.glDone (.read data crc)) s
         [(FLD_GL_STATUS.RESULT, 3), (FLD_GL_CTRL.GO, 0), (FLD_EVENT.GL_DONE, 1), (FLD_GL_STATUS.BUSY, 0),
          (FLD_GL_STATUS.PRESENT, 1)]
         fun e => e.fld.gl = none) ∧
    (∀ (g : Gl), s.dev.fld.gl = some g → g.wait = none → g.idle = false → s.dev.on FLD_GL_CFG.SHARED = true →
     g.tries < s.dev.rd FLD_GL_CFG.RETRIES →
       Does (.glDone .collision) s
         [(FLD_GL_CNT.COLL, min (s.dev.rd FLD_GL_CNT.COLL + 1) (2 ^ FLD_GL_CNT.COLL.w - 1))]
         fun e => ∃ r, 1 ≤ r ∧ r ≤ 8 ∧ e.fld.gl = some { g with tries := g.tries + 1, wait := some (8 * r) }) ∧
    (∀ (g : Gl), s.dev.fld.gl = some g → g.wait = some 0 → g.op ≠ 1 → s.dev.glReady = true →
       Does .glBackoffEnd s
         [(FLD_GL_STATUS.BUSY, 1)]
         fun e => e.fld.gl = some { g with start := s.dev.nowExt, wait := none, idle := false } ∧ e.outs =
           OnLine g.op g.bs g.rd) ∧
    (∀ (g : Gl), s.dev.fld.gl = some g → g.wait = some 0 → g.op = 1 → g.from_ = none → s.dev.glReady = true →
     s.dev.rd FLD_GL_STATUS.COUNT ≤ 64 →
       Ends .glBackoffEnd s fun e => Within s.dev e [28] ∧ e.sram = s.dev.sram ∧ e.rd FLD_GL_STATUS.COUNT = 0 ∧ e.rd
         FLD_GL_STATUS.LAST_DISC = 127 ∧ e.rd FLD_GL_STATUS.BUSY = 1 ∧ e.outs = OnLine 1 g.bs g.rd) ∧
    (∀ (subs : List (Bool × Bool)) (g : Gl) (id_ : Nat) (disc : Nat), s.dev.fld.gl = some g → g.op = 1 → g.wait = none →
     g.idle = false → subs.length = 96 → s.dev.rd FLD_GL_STATUS.LAST_DISC = 127 →
     passRun (-1) s.dev.fld.prev subs 0 0 (-1) = .found id_ disc → disc < 96 → idOk id_ = true →
     s.dev.rd FLD_GL_STATUS.COUNT = 0 → s.dev.fld.glq = [] →
       Ends (.glSearchPass true subs) s fun e => e.fld.prev = id_ ∧ e.rd FLD_GL_STATUS.COUNT = 1 ∧ e.rd (FLD_GL_ID.ID 0 0) =
         id_ / 2 ^ 64 % 2 ^ 32 ∧ e.rd (FLD_GL_ID.ID 0 1) = id_ / 2 ^ 32 % 2 ^ 32 ∧ e.rd (FLD_GL_ID.ID 0 2) = id_ % 2 ^ 32 ∧
         e.rd FLD_GL_STATUS.LAST_DISC = disc ∧ e.rd FLD_GL_STATUS.BUSY = 1 ∧ (e.fld.gl.map fun x => x.op) = some 1 ∧
         e.outs = .glPass (passLows id_) :: OnLine g.op g.bs g.rd) ∧
    (s.dev.fld.gl = none → s.dev.fld.held = none →
       Does .glAttach s
         [(FLD_EVENT.GL_ATTACH, 1)]
         fun e => e.fld = { s.dev.fld with glUp := s.dev.nowExt, autoIn := s.dev.fld.autoIn ++ [1024] }) ∧
    (∀ (g : Gl), s.dev.fld.gl = some g → s.dev.fld.held = none → g.op ≠ 1 → g.wait = none → g.idle = false →
       Does .glAttach s [] fun e => e.fld = s.dev.fld) ∧
    (s.dev.fld.autoIn.contains 0 = true → s.dev.glReady = true → s.dev.on FLD_GL_CFG.AUTO = true → s.dev.fld.gl = none → s.dev.fld.glq = [] →
     s.dev.rd FLD_GL_STATUS.COUNT ≤ 64 →
       Ends .autoSearch s fun e => Within s.dev e [28] ∧ e.sram = s.dev.sram ∧ (e.fld.gl.map fun g => (g.who, g.op)) = some
         (.search, 1) ∧ e.fld.autoIn = s.dev.fld.autoIn.filter (· != 0) ∧ e.rd FLD_GL_STATUS.BUSY = 1 ∧ e.rd FLD_GL_STATUS.COUNT = 0 ∧
         e.outs = OnLine 1 [0xE5] 0)

/-- Table 17.3: a written start is refused when its conditions do not hold, a due automatic one begins PREP (R361); PREP ends
with V0 and I0, LOAD with VA and VB, RECOVER with the results of R362; the test is done once its record is written;
software aborts it; every 512 fr the cell is checked (R363); EOL_CLR clears the end-of-life bits (R360). -/
def Obligations.SagTest : Prop :=
  ∀ s : State,
    (Taken 0 s → s.dev.on FLD_CELL_CTRL.SAG_START = false → s.dev.sagSt = 0 → s.dev.sagReady = false →
       Does .sagStart s
         [(FLD_CELL_STATUS.SAG_STATE, 0), (FLD_CELL_STATUS.SAG_RESULT, 9), (FLD_CELL_CTRL.SAG_START, 0)]
         fun e => e.fld.sag = {}) ∧
    (Taken 0 s → s.dev.on FLD_CELL_CTRL.SAG_START = false → s.dev.sagSt = 0 → s.dev.sagReady = true →
       Does .sagStart s [(FLD_CELL_CTRL.SAG_START, 1)] fun e => e.fld = s.dev.fld) ∧
    (s.dev.sagSt = 0 → s.dev.sagDue = true → s.dev.sagReady = true →
       Does .sagAutoStart s [(FLD_CELL_STATUS.SAG_STATE, 1)] fun e => e.fld.sag = {}) ∧
    (s.dev.sagSt = 1 → 8000 ≤ s.dev.fld.sag.fr →
       Does .sagLoadOn s
         [(FLD_CELL_STATUS.SAG_STATE, 2)]
         fun e => e.fld.sag = { s.dev.fld.sag with v0 := meanOf (sumUp s.dev.fld.sag.hist),
                                                   i0 := meanOf (sumUp s.dev.fld.sag.histI), fr := 0 }) ∧
    (s.dev.sagSt = 2 → 16000 ≤ s.dev.fld.sag.fr →
       Does .sagLoadOff s
         [(FLD_CELL_STATUS.SAG_STATE, 3)]
         fun e => e.fld.sag = { s.dev.fld.sag with vb := meanOf (sumUp s.dev.fld.sag.hist), fr := 0 }) ∧
    (∀ (v0 : Nat) (va : Nat) (vb : Nat) (r : Nat), s.dev.sagSt = 3 → 8 ≤ s.dev.fld.sag.fr → v0 = s.dev.fld.sag.v0 →
     va = meanOf s.dev.fld.sag.va → vb = s.dev.fld.sag.vb → r = s.dev.rd FLD_SAG_CFG.LOAD_MOHM → vb < va →
     va < v0 → va / r ≠ 0 → s.dev.holds = true → s.dev.fld.gl = none → s.dev.fld.glq = [] →
       Ends .sagCompute s fun e => Within s.dev e [28] ∧ e.sram = s.dev.sram ∧ e.sagSt = 4 ∧ e.rd FLD_SAG_V0.VALUE = v0 % 2 ^ 32 ∧
         e.rd FLD_SAG_VA.VALUE = va % 2 ^ 32 ∧ e.rd FLD_SAG_VB.VALUE = vb % 2 ^ 32 ∧ e.rd FLD_CELL_ESR.VALUE = (v0 -
         va) * 1000 / (va / r) % 2 ^ 32 ∧ e.rd FLD_CELL_C.VALUE = ((va + vb) / 2 / r) * 15992 * 125 / (va - vb) % 2 ^ 32 ∧
         e.rd FLD_CELL_LAST_T.VALUE = s.dev.frameExt / 8000 % 2 ^ 32 ∧ e.rd FLD_CELL_CFG.CYC_PEND = min (s.dev.rd
         FLD_CELL_CFG.CYC_PEND + 1) 255 ∧ (e.fld.gl.map fun g => (g.who, g.op)) = some (.life, 3)) ∧
    (s.dev.sagSt = 3 → 8 ≤ s.dev.fld.sag.fr →
     s.dev.fld.sag.v0 ≤ meanOf s.dev.fld.sag.va ∨ meanOf s.dev.fld.sag.va ≤ s.dev.fld.sag.vb ∨
       meanOf s.dev.fld.sag.va / s.dev.rd FLD_SAG_CFG.LOAD_MOHM = 0 →
       Does .sagCompute s
         [(FLD_CELL_STATUS.SAG_STATE, 0), (FLD_CELL_STATUS.SAG_RESULT, 8), (FLD_CELL_CTRL.SAG_START, 0)]
         fun e => e.fld.sag = {}) ∧
    (s.dev.sagSt = 4 → s.dev.holds = false ∨ s.dev.fld.gl = none ∧ s.dev.fld.glq = [] →
       Does .sagDone s
         [(FLD_CELL_STATUS.SAG_STATE, 0), (FLD_CELL_STATUS.SAG_RESULT, 1), (FLD_CELL_CTRL.SAG_START, 0),
          (FLD_EVENT.SAG_DONE, 1)]
         fun e => e.fld.sag = {}) ∧
    (Taken 0 s → 1 ≤ s.dev.sagSt → s.dev.sagSt ≤ 3 →
       Does .sagAbort s
         [(FLD_CELL_STATUS.SAG_STATE, 0), (FLD_CELL_STATUS.SAG_RESULT, 7), (FLD_CELL_CTRL.SAG_START, 0),
          (FLD_EVENT.SAG_ABORT, 1)]
         fun e => e.fld.sag = {} ∧ e.fld.gl = s.dev.fld.gl) ∧
    (1 ≤ s.dev.sagSt → s.dev.sagSt ≤ 3 → 512 ≤ s.dev.fld.sag.chk → s.dev.fld.gl = none → s.dev.fld.glq = [] →
     s.dev.glReady = true →
       Ends .sagCheck s fun e => Only s.dev e [FLD_GL_STATUS.BUSY] ∧ e.sram = s.dev.sram ∧ e.fld.sag.chk = s.dev.fld.sag.chk
         - 512 ∧ (e.fld.gl.map fun g => (g.who, g.op)) = some (.check, 2) ∧ e.rd FLD_GL_STATUS.BUSY = 1 ∧ e.outs = OnLine 2
         (glHead s.dev.cellId 0x4D 0) 3) ∧
    (Taken 0 s →
       Does .eolClr s
         [(FLD_CELL_STATUS.EOL, 0), (FLD_CELL_STATUS.EOL_C, 0), (FLD_CELL_STATUS.EOL_ESR, 0), (FLD_CELL_STATUS.EOL_CYC, 0)]
         fun e => e.fld = s.dev.fld)

/-- The SMBus target answers, and no image is being applied (R97, R369). -/
abbrev SmbOn (s : State) : Prop := s.dev.boot.porLow = false ∧ s.dev.bootSt ≠ 6

/-- An input active for a multiple of REMIND_S is reported again (R366); a latch bit clears while its input is inactive
(R367); a relay write drives the pins of the holder (R368); the SMBus commands of Table 17.5 answer, act and advance
REG_ADDR, and are NACKed and counted on a bad PEC, address or key (R369, R370). -/
def Obligations.AlarmsAndSmbus : Prop :=
  ∀ s : State,
    (∀ (k : Fin 16) (a : Nat), (s.dev.fld.gpis.getD k {}).act = some a → s.dev.rd FLD_GPI_STORM_CFG.REMIND_S ≠ 0 →
     (s.dev.fld.gpis.getD k {}).deb = true → (s.dev.fld.gpis.getD k {}).storm = false → a < s.dev.frameExt →
     (s.dev.frameExt - a) % (s.dev.rd FLD_GPI_STORM_CFG.REMIND_S * 8000) = 0 → s.dev.rd LLB_STATUS.EV_RUN ≠ 2 →
       Does (.gpiRemind k) s [(FLD_EVENT.GPI_REMIND, 1)] fun e => e.fld = s.dev.fld) ∧
    (∀ (w : BitVec 16), Taken 0 s →
       Does (.gpiLatchClear w) s
         [(FLD_GPI_LATCH.LATCH, s.dev.rd FLD_GPI_LATCH.LATCH &&& (65535 ^^^ (w.toNat &&& (65535 ^^^ s.dev.gpiDeb))))]
         fun e => e.fld = s.dev.fld) ∧
    (∀ (v : BitVec 8), Taken 0 s →
       Does (.gpoWrite v) s
         [(FLD_GPO.OUT, v.toNat)]
         fun e => (settle s.dev e).rd FLD_GPO.LEVEL = (if s.dev.holds = true ∧ s.dev.boot.asserted = false then 255 ^^^
           v.toNat else 255)) ∧
    (∀ (a : Nat), SmbOn s → a < 0x90000 →
       Does (.smbSetAddr true a) s [] fun e => e.outs = [.smb true 0] ∧ e.fld = { s.dev.fld with smbReg := a }) ∧
    (∀ (a : Nat), SmbOn s → 0x90000 ≤ a →
       Does (.smbSetAddr true a) s
         [(FLD_SMB_STATUS.ERR, min (s.dev.rd FLD_SMB_STATUS.ERR + 1) (2 ^ FLD_SMB_STATUS.ERR.w - 1))]
         fun e => e.outs = [.smb false 0] ∧ e.fld = s.dev.fld) ∧
    (SmbOn s → s.dev.smbShut s.dev.fld.smbReg = false → s.dev.fld.smbReg % 4 = 0 → s.dev.fld.smbReg ≠ RAT_RET_DATA.addr →
     s.dev.fld.smbReg < 0x20000 ∨ 0x30000 ≤ s.dev.fld.smbReg →
       Ends (.smbRegRead true) s fun e => Only s.dev e [⟨s.dev.fld.smbReg, 0, 32⟩] ∧ e.sram = s.dev.sram ∧ e.outs = [.smb true
         (s.dev.peek s.dev.fld.smbReg % 2 ^ 32)] ∧ e.fld = { s.dev.fld with smbReg := s.dev.fld.smbReg + 4 }) ∧
    (SmbOn s → s.dev.smbShut s.dev.fld.smbReg = true →
       Does (.smbRegRead true) s
         [(FLD_SMB_STATUS.ERR, min (s.dev.rd FLD_SMB_STATUS.ERR + 1) (2 ^ FLD_SMB_STATUS.ERR.w - 1))]
         fun e => e.outs = [.smb false 0] ∧ e.fld = s.dev.fld) ∧
    (SmbOn s → s.dev.fld.smbReg = 0x20 → s.dev.smbShut 0x20 = false →
       Does (.smbRegRead true) s
         []
         fun e => e.outs = [.smb true (s.dev.peek s.dev.fld.smbReg)] ∧ e.fld = { s.dev.fld with smbReg := s.dev.fld.smbReg + 4 }) ∧
    (SmbOn s →
       Does (.smbRegRead false) s
         [(FLD_SMB_STATUS.ERR, min (s.dev.rd FLD_SMB_STATUS.ERR + 1) (2 ^ FLD_SMB_STATUS.ERR.w - 1))]
         fun e => e.outs = [.smb false 0] ∧ e.fld = s.dev.fld) ∧
    (∀ (v : Word), SmbOn s → s.dev.fld.smbReg / 0x4000 = 0 → s.dev.smbShut s.dev.fld.smbReg = false →
     s.dev.fld.smbReg % 4 = 0 → s.dev.pd 0 = true → regBad s.dev.fld.smbReg v.toNat s.dev = false →
       Ends (.smbRegWrite true v) s fun e => Only s.dev e [⟨s.dev.fld.smbReg, 0, 32⟩] ∧ e.sram = s.dev.sram ∧ e.outs = [.smb
         true 0] ∧ e.fld = { s.dev.fld with smbReg := s.dev.fld.smbReg + 4 } ∧ e.word s.dev.fld.smbReg =
         (rowAt s.dev.fld.smbReg).elim 0 (·.stored true (s.dev.word s.dev.fld.smbReg) v.toNat)) ∧
    (∀ (v : Word), SmbOn s → s.dev.smbShut s.dev.fld.smbReg = false → smbWritable s.dev.fld.smbReg = true →
       Ends (.smbRegWrite true v) s fun e => e = smbNext (smbAck 0 (regWrite .smbus (s.dev.fld.smbReg % 4 != 0)
         s.dev.fld.smbReg v.toNat { s.dev with outs := [] }))) ∧
    (∀ (v : Word), SmbOn s → s.dev.smbShut s.dev.fld.smbReg = true ∨ smbWritable s.dev.fld.smbReg = false →
       Does (.smbRegWrite true v) s
         [(FLD_SMB_STATUS.ERR, min (s.dev.rd FLD_SMB_STATUS.ERR + 1) (2 ^ FLD_SMB_STATUS.ERR.w - 1))]
         fun e => e.outs = [.smb false 0] ∧ e.fld = s.dev.fld) ∧
    (∀ (v : Word), SmbOn s → s.dev.fld.smbReg = FLD_GPO.addr → v.toNat < 256 →
     s.dev.smbShut FLD_GPO.addr = false →
       Ends (.smbRegWrite true v) s fun e => Only s.dev e [⟨FLD_GPO.addr, 0, 32⟩] ∧ e.sram = s.dev.sram ∧ e.outs = [.smb
         true 0] ∧ e.fld = { s.dev.fld with smbReg := s.dev.fld.smbReg + 4 } ∧ e.rd FLD_GPO.OUT = v.toNat ∧ e.rd FLD_GPO.LEVEL
         = s.dev.rd FLD_GPO.LEVEL) ∧
    (SmbOn s →
       Does (.smbStatusRead true) s
         []
         fun e => e.outs = [.smb true (s.dev.bootSt + b2n (s.dev.on RST_BOOT_STATUS.HOLD) * 16 + b2n (s.dev.on
           RST_BOOT_STATUS.CFG_DEFAULTED) * 32 + b2n (s.dev.ratOn RAT_STATUS.LOSS) * 64 + b2n s.dev.holds * 128)] ∧ e.fld =
           s.dev.fld) ∧
    (∀ (key : Byte), SmbOn s → key ≠ 0xA5#8 →
       Does (.smbColdReset true key) s
         [(FLD_SMB_STATUS.ERR, min (s.dev.rd FLD_SMB_STATUS.ERR + 1) (2 ^ FLD_SMB_STATUS.ERR.w - 1))]
         fun e => e.outs = [.smb false 0] ∧ e.boot = s.dev.boot) ∧
    (SmbOn s → s.dev.boot.kind = none →
       Ends (.smbColdReset true 0xA5) s fun e => e.boot.asserted = true ∧ e.boot.kind = some .cold ∧ Out.smb true 0 ∈ e.outs) ∧
    (SmbOn s → s.dev.boot.kind = none → s.dev.booted = true →
       Ends (.smbWarmReset true 0xA5) s fun e => e.boot.asserted = true ∧ e.boot.kind = some .warm ∧ Out.smb true 0 ∈ e.outs) ∧
    (SmbOn s → s.dev.booted = true → 4 ≤ s.dev.tier → s.dev.rat.wakeFr = none → s.dev.capsHold = false →
     s.dev.on RAT_BIV_CFG.WAKE_SMB = true → s.dev.rat.shadow = none → s.dev.on RAT_DOM_STATUS.PMEM_SR = true →
       Ends (.smbWake true 0xA5) s fun e => e.rd RAT_WAKE_SRC.SRC = 32 ∧ e.rd RAT_EVENT.WAKE = 1 ∧ e.rat.wakeFr.isSome =
         true ∧ e.rat.announced = 3 ∧ e.rd RAT_STATUS.PHASE = 2 ∧ e.outs = [.smb true 0]) ∧
    (s.dev.boot.porLow = false →
       Does .smbClockLow s
         [(FLD_SMB_STATUS.ERR, min (s.dev.rd FLD_SMB_STATUS.ERR + 1) (2 ^ FLD_SMB_STATUS.ERR.w - 1))]
         fun e => e.fld = s.dev.fld ∧ e.outs = [])

/-- The RESULT code of an end (R371). -/
abbrev I2cRes (e : I2cEnd) : Nat :=
  match e with
  | .ok _ => 1
  | .noModule => 2
  | .nackAddr => 3
  | .nackData => 4
  | .timeout => 5
  | .stuck => 6

/-- GO of a module controller starts its transaction, or ends it when no module is there; an end stores what was read and its
result (R371); a flash command is sent, refused in a locked region, and completes (R372, R373); the TAP instructions leave
the pins, drive them or float them (R374). -/
def Obligations.ModulesFlashAndTap : Prop :=
  ∀ s : State,
    (∀ (port : Fin 2) (v : Word), Taken 0 s → s.dev.on (FLD_MI2Cm_CMD.GO port) = false → bit v.toNat 3 = false →
     regBad (FLD_MI2Cm_CMD.addr port) (v.toNat ||| 1) s.dev = false →
     (s.dev.chan.getD (2 * port.val + bits v.toNat 1 1) {}).modOk = true →
       Ends (.mi2cGo port v) s fun e => Only s.dev e [⟨FLD_MI2Cm_CMD.addr port, 0, 32⟩] ∧ e.sram = s.dev.sram ∧ e.on
         (FLD_MI2Cm_CMD.GO port) = true ∧ e.rd (FLD_MI2Cm_CMD.OFFSET port) = bits v.toNat 8 8 ∧ e.rd (FLD_MI2Cm_CMD.LEN port)
         = bits v.toNat 16 8 ∧ e.outs = [.mi2c port (e.word (FLD_MI2Cm_CMD.addr port)) []] ∧ e.fld = s.dev.fld) ∧
    (∀ (port : Fin 2) (v : Word), Taken 0 s → s.dev.on (FLD_MI2Cm_CMD.GO port) = false → bit v.toNat 3 = false →
     regBad (FLD_MI2Cm_CMD.addr port) (v.toNat ||| 1) s.dev = false →
     (s.dev.chan.getD (2 * port.val + bits v.toNat 1 1) {}).modOk = false →
       Ends (.mi2cGo port v) s fun e => Only s.dev e [⟨FLD_MI2Cm_CMD.addr port, 0, 32⟩, mi2cEvent port] ∧ e.sram =
         s.dev.sram ∧ e.on (FLD_MI2Cm_CMD.GO port) = false ∧ e.rd (FLD_MI2Cm_CMD.RESULT port) = 2 ∧ e.rd (mi2cEvent port) = 1
         ∧ e.outs = []) ∧
    (∀ (port : Fin 2) (v : Word), Taken 0 s → s.dev.on (FLD_MI2Cm_CMD.GO port) = false → bit v.toNat 3 = true →
     regBad (FLD_MI2Cm_CMD.addr port) (v.toNat ||| 1) s.dev = false →
     (s.dev.chan.getD (2 * port.val + bits v.toNat 1 1) {}).modOk = true →
       Ends (.mi2cGo port v) s fun e => Only s.dev e [⟨FLD_MI2Cm_CMD.addr port, 0, 32⟩] ∧ e.sram = s.dev.sram ∧ e.on
         (FLD_MI2Cm_CMD.GO port) = true ∧ e.outs = [.mi2c port (e.word (FLD_MI2Cm_CMD.addr port)) (s.dev.mi2cData port (bits
         v.toNat 16 8))] ∧ e.fld = s.dev.fld) ∧
    (∀ (v : Word), Taken 0 s → s.dev.on FLD_QSPI_CMD.GO = false → regBad FLD_QSPI_CMD.addr (v.toNat ||| 1) s.dev = false →
     bits v.toNat 1 2 ≠ 1 ∨ s.dev.qspiLocked = false →
       Ends (.qspiGo v) s fun e => Only s.dev e [⟨FLD_QSPI_CMD.addr, 0, 32⟩] ∧ e.sram = s.dev.sram ∧ e.on FLD_QSPI_CMD.GO =
         true ∧ e.outs = [.qspi (e.word FLD_QSPI_CMD.addr) (s.dev.rd FLD_QSPI_ADDR.ADDR) (if bit v.toNat 3 then s.dev.qspiData
         (bits v.toNat 20 9) else [])]) ∧
    (∀ (v : Word), Taken 0 s → s.dev.on FLD_QSPI_CMD.GO = false → bit v.toNat 3 = false →
     regBad FLD_QSPI_CMD.addr (v.toNat ||| 1) s.dev = false → bits v.toNat 1 2 = 0 →
       Ends (.qspiGo v) s fun e => Only s.dev e [⟨FLD_QSPI_CMD.addr, 0, 32⟩] ∧ e.sram = s.dev.sram ∧ e.on FLD_QSPI_CMD.GO =
         true ∧ e.rd FLD_QSPI_CMD.OPCODE = bits v.toNat 8 8 ∧ e.outs = [.qspi (e.word FLD_QSPI_CMD.addr) (s.dev.rd
         FLD_QSPI_ADDR.ADDR) []]) ∧
    (∀ (v : Word), Taken 0 s → s.dev.on FLD_QSPI_CMD.GO = false → bit v.toNat 3 = false →
     regBad FLD_QSPI_CMD.addr (v.toNat ||| 1) s.dev = false → bits v.toNat 1 2 = 1 → s.dev.qspiLocked = true →
       Ends (.qspiGo v) s fun e => Only s.dev e [⟨FLD_QSPI_CMD.addr, 0, 32⟩, FLD_QSPI_CFG.RESULT, FLD_EVENT.QSPI_DONE] ∧
         e.sram = s.dev.sram ∧ e.on FLD_QSPI_CMD.GO = false ∧ e.rd FLD_QSPI_CFG.RESULT = 2 ∧ e.rd FLD_EVENT.QSPI_DONE = 1 ∧
         e.outs = []) ∧
    (∀ (port : Fin 2) (data : Bytes), s.dev.on (FLD_MI2Cm_CMD.GO port) = true → s.dev.on (FLD_MI2Cm_CMD.DIR port) = false →
     data.length = s.dev.rd (FLD_MI2Cm_CMD.LEN port) → data.length ≤ 128 →
       Ends (.mi2cDone port (.ok data)) s fun e => Within s.dev e [28] ∧ e.sram = s.dev.sram ∧ e.rd (FLD_MI2Cm_CMD.RESULT
         port) = 1 ∧ e.on (FLD_MI2Cm_CMD.GO port) = false ∧ e.rd (mi2cEvent port) = 1 ∧ (∀ k : Fin 32, 4 * k.val + 4 ≤
         data.length → e.rd (FLD_MI2Cm_DATAk.DATA port k) = leNat (slice data (4 * k) 4))) ∧
    (∀ (port : Fin 2), s.dev.on (FLD_MI2Cm_CMD.GO port) = true →
       Does (.mi2cDone port .nackAddr) s
         [(FLD_MI2Cm_CMD.RESULT port, 3), (FLD_MI2Cm_CMD.GO port, 0), (mi2cEvent port, 1)]
         fun e => e.fld = s.dev.fld) ∧
    (∀ (port : Fin 2) (end_ : I2cEnd), s.dev.on (FLD_MI2Cm_CMD.GO port) = true →
     (I2cRes end_ = 1 → s.dev.on (FLD_MI2Cm_CMD.DIR port) = true) →
       Does (.mi2cDone port end_) s
         [(FLD_MI2Cm_CMD.RESULT port, I2cRes end_), (FLD_MI2Cm_CMD.GO port, 0), (mi2cEvent port, 1)]
         fun e => e.fld = s.dev.fld) ∧
    (∀ (data : Bytes), s.dev.on FLD_QSPI_CMD.GO = true → s.dev.on FLD_QSPI_CMD.DIR = true →
       Does (.qspiDone data) s
         [(FLD_QSPI_CFG.RESULT, 1), (FLD_QSPI_CMD.GO, 0), (FLD_EVENT.QSPI_DONE, 1)]
         fun e => e.fld = s.dev.fld) ∧
    (∀ (data : Bytes), s.dev.on FLD_QSPI_CMD.GO = true → s.dev.on FLD_QSPI_CMD.DIR = false →
     data.length = s.dev.rd FLD_QSPI_CMD.LEN → data.length ≤ 256 →
       Ends (.qspiDone data) s fun e => Within s.dev e [28] ∧ e.sram = s.dev.sram ∧ e.rd FLD_QSPI_CFG.RESULT = 1 ∧ e.on
         FLD_QSPI_CMD.GO = false ∧ e.rd FLD_EVENT.QSPI_DONE = 1 ∧ (∀ k : Fin 64, 4 * k.val + 4 ≤ data.length → e.rd
         (FLD_QSPI_DATAk.DATA k) = leNat (slice data (4 * k) 4))) ∧
    (Does .tapBypass s [] fun e => e.fld = { s.dev.fld with tap := .none }) ∧
    (Does .tapIdcode s [] fun e => e.fld = { s.dev.fld with tap := .none } ∧ e.outs = [.idcode 0x104C733D]) ∧
    (Does .tapSamplePreload s [] fun e => e.fld = { s.dev.fld with tap := .none }) ∧
    (Does .tapExtest s [] fun e => e.fld = { s.dev.fld with tap := .boundary }) ∧
    (Does .tapClamp s [] fun e => e.fld = { s.dev.fld with tap := .boundary }) ∧
    (Does .tapHighz s [] fun e => e.fld = { s.dev.fld with tap := .highz })

/-! ### Faults, health and the Sheepdog; lanes (spec/18, 07, 12) -/

/-- FENCE puts a channel in FENCING with cause SW: reported at t0, its reception dropped, every queue freed, its gate engine
fallen back (Table 18.4, R381); a further cause is added; once nothing is left the fence completes, raising CH_FAULT for a
fault cause; a lift is taken at the next frame event if its causes allow it, refused otherwise (R382); a lane unlocked for
8 fr fences with cause LANE (Table 18.3). -/
def Obligations.Fences : Prop :=
  ∀ s : State,
    (∀ (n : Fin 4), Taken 1 s → s.dev.causes n = 0 → s.dev.chan.length = 4 →
       Ends (.fence n) s fun e => e.causes n = 32 ∧ e.rd (CHn_STATUS.FENCED n) = 1 ∧ (e.ch n).fencing = true ∧ (e.ch n).asm
         = none ∧ (∀ k : Fin 8, (e.ch n).queues.getD k [] = []) ∧ (e.ch n).expq = [] ∧ (e.ch n).cur = (s.dev.ch n).cur ∧ e.rd
         (SHD_FENCE_RPTn_T_LO.T n) = s.dev.now % 2 ^ 32 ∧ e.rd (SHD_FENCE_RPTn_T_HI.T n) = s.dev.now / 2 ^ 32 % 2 ^ 32 ∧ e.rd
         (SHD_FENCE_RPTn_RX.CAUSES n) = 32 ∧ (e.gate n).st = 0 ∧ (∀ k : Fin 4, k ≠ n → e.causes k = s.dev.causes k) ∧
         (((s.dev.ch n).queues.flatMap id ++ (s.dev.ch n).expq).all (fun x => !x.gasp) = true → e.sram = s.dev.sram)) ∧
    (∀ (n : Fin 4), Taken 1 s → s.dev.causes n ≠ 0 → s.dev.chan.length = 4 →
       Ends (.fence n) s fun e => Only s.dev e [SHD_FENCE_STAT.CH, CHn_STATUS.FENCED n, SHD_FENCE_RPTn_RX.CAUSES n] ∧ e.sram
         = s.dev.sram ∧ e.causes n = putBit (s.dev.causes n) 5 true ∧ (e.ch n).fencing = (s.dev.ch n).fencing ∧ (e.ch
         n).queues = (s.dev.ch n).queues ∧ bit (e.rd (SHD_FENCE_RPTn_RX.CAUSES n)) 5 = true) ∧
    (∀ (n : Fin 4), (s.dev.ch n).fencing = true → (s.dev.ch n).cur = none → (s.dev.ch n).pre = none →
     (s.dev.ch n).queues = List.replicate 8 [] → (s.dev.ch n).expq = [] → s.dev.host.fns.length = 16 →
     s.dev.chan.length = 4 →
       Ends (.fenceComplete n) s fun e => Only s.dev e [SHD_FENCE_STAT.CH, CHn_STATUS.FENCED n, SHD_EVENT.CH_FAULT] ∧ e.sram
         = s.dev.sram ∧ (e.ch n).fencing = false ∧ e.causes n = s.dev.causes n ∧ bit (bits (e.rd SHD_FENCE_STAT.CH) (8 *
         n.val) 8) 7 = false ∧ (s.dev.faultFence n = true → e.rd SHD_EVENT.CH_FAULT = 1) ∧ (∀ f : Fin 16, f ≠ 0 →
         (s.dev.carriesTx n f = true ∨ s.dev.carriesRx n f = true) → bit (e.fn f).vfStatus 3 = true)) ∧
    (∀ (n : Fin 4), Taken 1 s →
       Does (.lift n) s
         []
         fun e => e.shd = { s.dev.shd with lift := s.dev.shd.lift.set n true, armed := s.dev.shd.armed.set n false }) ∧
    (∀ (n : Fin 4), s.dev.shd.armed.getD n false = true → s.dev.causes n % 64 ≠ 0 → bit (s.dev.causes n) 6 = false →
     (bit (s.dev.causes n) 2 = true → s.dev.bitOf CLK_STATUS.LANE_LOCK n = true) →
     (bit (s.dev.causes n) 3 = true → s.dev.lbResult n = 1) → (s.dev.ch n).fencing = false → s.dev.chan.length = 4 →
       Ends (.liftApply n) s fun e => Within s.dev e [8, 9, 10, 11, 21] ∧ e.sram = s.dev.sram ∧ e.causes n = 0 ∧ e.rd
         (CHn_STATUS.FENCED n) = 0 ∧ e.rd SHD_EVENT.LIFT_DONE = 1 ∧ (∀ k : Fin 4, k ≠ n → e.causes k = s.dev.causes k) ∧
         e.shd.armed.getD n false = false) ∧
    (∀ (n : Fin 4), s.dev.shd.armed.getD n false = true →
     bit (s.dev.causes n) 2 = true ∧ s.dev.bitOf CLK_STATUS.LANE_LOCK n = false ∨ bit (s.dev.causes n) 3 = true ∧
       s.dev.lbResult n ≠ 1 →
       Does (.liftApply n) s
         [(SHD_EVENT.LIFT_REFUSED, 1)]
         fun e => e.chan = s.dev.chan ∧ e.shd.armed.getD n false = false ∧ e.shd.lift.getD n false = false) ∧
    (∀ (n : Fin 4), s.dev.shd.armed.getD n false = true → s.dev.causes n = 64 →
       Does (.liftApply n) s [] fun e => e.chan = s.dev.chan) ∧
    (∀ (n : Fin 4) (m : Mote), s.dev.bitOf RAT_DOM_STATUS.LANE_ON n = true → s.dev.bitOf CLK_STATUS.LANE_LOCK n = true →
     s.dev.chan.length = 4 →
       Does (.laneUnlock n m) s
         [(CLK_STATUS.LANE_LOCK, putBit (s.dev.rd CLK_STATUS.LANE_LOCK) n false), (CLK_EVENT.LANE_UNLOCK, 1)]
         fun e => (e.ch n).unlockT = some (atMote m s.dev).nowExt) ∧
    (∀ (n : Fin 4), s.dev.bitOf RAT_DOM_STATUS.LANE_ON n = true → s.dev.chan.length = 4 →
       Does (.laneRelock n) s
         [(CLK_STATUS.LANE_LOCK, putBit (s.dev.rd CLK_STATUS.LANE_LOCK) n true)]
         fun e => (e.ch n).unlockT = none) ∧
    (∀ (n : Fin 4) (m : Mote) (t : Nat), s.dev.bitOf RAT_DOM_STATUS.LANE_ON n = true → (s.dev.ch n).unlockT = some t →
     t + 8 * frMt ≤ (atMote m s.dev).nowExt → s.dev.chan.length = 4 →
       Ends (.laneFenceTimeout n m) s fun e => bit (e.causes n) 2 = true ∧ e.rd (CHn_STATUS.FENCED n) = 1 ∧ (e.ch n).unlockT
         = none ∧ (s.dev.causes n = 0 → (e.ch n).cur = none ∧ (e.ch n).pre = none ∧ e.rd (SHD_FENCE_RPTn_T_LO.T n) = (atMote m
         s.dev).now % 2 ^ 32)) ∧
    (∀ (n : Fin 4), s.dev.on (CHn_STATUS.REMOTE_FAULT n) = false → s.dev.pcsRuns n = true →
       Does (.remoteFaultReceived n) s
         [(CHn_STATUS.REMOTE_FAULT n, 1), (CHn_EVENT.REMOTE_FAULT n, 1)]
         fun e => e.chan = s.dev.chan) ∧
    (∀ (n : Fin 4), Does (.remoteFaultCleared n) s [(CHn_STATUS.REMOTE_FAULT n, 0)] fun e => e.chan = s.dev.chan) ∧
    (s.dev.peg.ports.length = 2 →
       Does (.pegLaneSyncLost true) s
         [(PEG_STATUS.LANE_B_UP, 0), (linkOk 0, 0)]
         fun e => (e.peg.ports.getD 0 {}).rtts = [] ∧ (e.peg.ports.getD 0 {}).wait = false) ∧
    (s.dev.peg.ports.length = 2 →
       Does (.pegLaneSyncLost false) s
         [(PEG_STATUS.LANE_A_UP, 0), (linkOk 1, 0)]
         fun e => (e.peg.ports.getD 1 {}).rtts = [] ∧ (e.peg.ports.getD 1 {}).wait = false) ∧
    (∀ (chB : Bool), s.dev.on RAT_DOM_STATUS.PEG_LANES_ON = true →
       Does (.pegLaneSyncGained chB) s
         [((if chB then PEG_STATUS.LANE_B_UP else PEG_STATUS.LANE_A_UP), 1)]
         fun e => e.peg = s.dev.peg)

/-- A decay step takes max(1, bucket / 16) from each bucket (R378); the lane next in turn is tested from its superframe event
for 1 fr, a failure fences an OFF channel with cause LOOPBACK (R377); a table parity error is recorded, fills bucket 15
and acts as Table 18.5 says; TAKE latches the report of Table 18.8 (R391). -/
def Obligations.HealthAndTests : Prop :=
  ∀ s : State,
    (s.dev.pd 1 = true → s.dev.sfNow (s.dev.rd SHD_CFG.DECAY_SF) = true → s.dev.shd.decayed ≠ some s.dev.sfIx →
       Ends .bucketDecay s fun e => Only s.dev e [SHD_PENj.PEN 2, SHD_PENj.PEN 3, SHD_PENj.PEN 4] ∧ e.sram = s.dev.sram ∧ (∀
         k : Fin 20, e.pen k = if 11 ≤ k.val then s.dev.pen k - max 1 (s.dev.pen k / 16) else s.dev.pen k) ∧ e.shd.decayed =
         some s.dev.sfIx) ∧
    (∀ (n : Fin 4), s.dev.pd 1 = true → s.dev.on SHD_CTRL.LB_EN = true → s.dev.sfNow (s.dev.rd SHD_CFG.LB_SF) = true →
     s.dev.shd.tested ≠ some s.dev.sfIx → s.dev.on SHD_STATUS.TEST_BUSY = false → s.dev.testable n = true →
     (s.dev.shd.turn + 1) % 4 = n.val →
       Does .loopbackStart s
         [(SHD_STATUS.TEST_BUSY, 1), (SHD_STATUS.TEST_LANE, n.val)]
         fun e => e.shd = { s.dev.shd with tested := some s.dev.sfIx, turn := n.val, testFr := s.dev.frameExt } ∧ e.chan =
           s.dev.chan) ∧
    (∀ (n : Fin 4), s.dev.on SHD_STATUS.TEST_BUSY = true → s.dev.rd SHD_STATUS.TEST_LANE = n →
     s.dev.shd.testFr < s.dev.frameExt → s.dev.on (CHn_CTRL.EN n) = false →
       Ends (.loopbackEnd 1) s fun e => Only s.dev e [SHD_STATUS.TEST_BUSY, SHD_LB_RESULT.RESULT, SHD_LB_RESULT.TESTS] ∧
         e.sram = s.dev.sram ∧ e.rd SHD_STATUS.TEST_BUSY = 0 ∧ e.lbResult n = 1 ∧ (∀ k : Fin 4, k ≠ n → e.lbResult k =
         s.dev.lbResult k) ∧ e.rd SHD_LB_RESULT.TESTS = (s.dev.rd SHD_LB_RESULT.TESTS + 1) % 2 ^ SHD_LB_RESULT.TESTS.w ∧
         e.chan = s.dev.chan) ∧
    (∀ (n : Fin 4) (res : Fin 4), s.dev.on SHD_STATUS.TEST_BUSY = true → s.dev.rd SHD_STATUS.TEST_LANE = n →
     s.dev.shd.testFr < s.dev.frameExt → s.dev.chRun n = 0 → s.dev.on (CHn_CTRL.EN n) = false → res ≠ 1 →
       Ends (.loopbackEnd res) s fun e => e.rd SHD_STATUS.TEST_BUSY = 0 ∧ e.lbResult n = res.val ∧ e.rd SHD_EVENT.LB_FAIL =
         1 ∧ bit (e.causes n) 3 = true ∧ e.rd (CHn_STATUS.FENCED n) = 1) ∧
    (∀ (off : Nat) (ix : Fin 4096), s.dev.pd 1 = true → 0x210000 + 32 * ix.val ≤ off → off < 0x210000 + 32 * ix.val + 32 →
       Ends (.tableParityError off) s fun e => Only s.dev e [SHD_TBL_ERR.WINDOW, SHD_TBL_ERR.WORD, SHD_TBL_ERR.COUNT,
         SHD_EVENT.TABLE_ERR, SHD_PENj.PEN 3, ⟨entOff false ix 7, 0, 32⟩] ∧ e.sram = s.dev.sram ∧ e.pen 15 = min 255
         (s.dev.pen 15 + s.dev.weight 15) ∧ bit (e.entCtrl false ix) 0 = false ∧ (∀ k : Fin 7, (e.entWords false ix).getD k 0
         = (s.dev.entWords false ix).getD k 0) ∧ e.shd.errs = min (s.dev.shd.errs + 1) 65535 ∧ e.rd SHD_TBL_ERR.WINDOW = 0 ∧
         e.rd SHD_TBL_ERR.WORD = (off - 0x210000) / 4 % 2 ^ SHD_TBL_ERR.WORD.w) ∧
    (∀ (off : Nat) (n : Fin 4) (b : Fin 2), s.dev.pd 1 = true → 0x200000 + 0x4000 * n.val + 0x2000 * b.val ≤ off →
     off < 0x200000 + 0x4000 * n.val + 0x2000 * b.val + 0x2000 → (s.dev.gate n).oper = some b.val → s.dev.chan.length = 4 →
       Ends (.tableParityError off) s fun e => e.pen 15 = min 255 (s.dev.pen 15 + s.dev.weight 15) ∧ (e.fenced n = true ∧
         bit (e.causes n) 4 = true) ∧ (e.gate n).oper = none ∧ (s.dev.causes n = 0 → (e.gate n).st = 0) ∧ e.rd
         SHD_TBL_ERR.WINDOW = 3) ∧
    (∀ (off : Nat) (b : Fin 2) (sl : Fin 64), s.dev.pd 1 = true → s.dev.peg.oper = some b.val →
     0x2C0000 + 0x400 * b.val + 16 * sl.val ≤ off → off < 0x2C0000 + 0x400 * b.val + 16 * sl.val + 16 →
       Does (.tableParityError off) s
         [(SHD_TBL_ERR.WINDOW, 4), (SHD_TBL_ERR.WORD, (off - 0x2C0000) / 4),
          (SHD_TBL_ERR.COUNT, min (s.dev.rd SHD_TBL_ERR.COUNT + 1) (2 ^ SHD_TBL_ERR.COUNT.w - 1)), (SHD_EVENT.TABLE_ERR, 1),
          (SHD_PENj.PEN 3, setBits (s.dev.rd (SHD_PENj.PEN 3)) 24 8 (min 255 (s.dev.pen 15 + s.dev.weight 15)))]
         fun e => e.peg.badSlots = s.dev.peg.badSlots ++ [sl.val]) ∧
    (∀ (off : Nat) (c : Fin 16), s.dev.pd 1 = true → 0x2E0000 + 128 * c.val ≤ off → off < 0x2E0000 + 128 * c.val + 128 →
     s.dev.llbRun c ≠ 0 →
       Ends (.tableParityError off) s fun e => e.pen 15 = min 255 (s.dev.pen 15 + s.dev.weight 15) ∧ e.rd SHD_TBL_ERR.WINDOW
         = 5 ∧ e.rd LLB_STATUS.BAD_CH = c.val ∧ e.rd LLB_EVENT.TPL_BAD = 1 ∧ e.llbRun c = 0 ∧ e.bitOf LLB_CH_EN.EN c = false) ∧
    (∀ (off : Nat), s.dev.pd 1 = false → Does (.tableParityError off) s [] fun e => e.shd = s.dev.shd) ∧
    (∀ (m : Mote), Taken 1 s → s.dev.shd.minScore < 256 → s.dev.shd.lowSf < 2 ^ 24 → s.dev.shd.errs < 2 ^ 16 →
       Ends (.reportTake m) s fun e => Only s.dev e [SHD_REPORTw.WORD 0, SHD_REPORTw.WORD 1, SHD_REPORTw.WORD 2,
         SHD_REPORTw.WORD 3, SHD_REPORTw.WORD 4, SHD_REPORTw.WORD 5, SHD_REPORTw.WORD 6, SHD_REPORTw.WORD 7,
         SHD_REPORT_CTRL.TAKE, SHD_EVENT.REPORT_READY] ∧ e.sram = s.dev.sram ∧ e.rd (SHD_REPORTw.WORD 0) = 1 + s.dev.rd
         SHD_STATUS.SCORE * 2 ^ 8 + s.dev.rd SHD_STATUS.WORST * 2 ^ 16 + s.dev.tier * 2 ^ 21 + b2n s.dev.holds * 2 ^ 24 + b2n
         s.dev.valid * 2 ^ 25 ∧ e.rd (SHD_REPORTw.WORD 1) = s.dev.rd SHD_FAULT.FAULT ∧ e.rd (SHD_REPORTw.WORD 2) = (atMote m
         s.dev).now % 2 ^ 32 ∧ e.rd (SHD_REPORTw.WORD 3) = (atMote m s.dev).now / 2 ^ 32 % 2 ^ 32 ∧ e.rd (SHD_REPORTw.WORD 7)
         = crc32 ((List.range 7).flatMap fun w => leBytes 4 (e.rd (SHD_REPORTw.WORD w))) ∧ e.rd SHD_EVENT.REPORT_READY = 1 ∧
         e.rd SHD_REPORT_CTRL.TAKE = 0 ∧ e.shd =
         { s.dev.shd with errs := 0, minScore := s.dev.rd SHD_STATUS.SCORE, lowSf := 0 })

/-! ### Register accesses (spec/01, 19) -/

/-- The words of GLB_BADWR and GLB_BADWR_INFO after a refused write of `src` at `off`. -/
abbrev BadWrote (s : State) (src : BusSrc) (off : Nat) : List (Field × Nat) :=
  [(GLB_BADWR.COUNT, min (s.dev.rd GLB_BADWR.COUNT + 1) (2 ^ 32 - 1)), (GLB_BADWR_INFO.OFFSET, off),
    (GLB_BADWR_INFO.SRC, srcCode src), (GLB_BADWR_INFO.FN, srcFn src)]

/-- A 32-bit write reaches the register at `off` of PF0 BAR0, aligned, and none of R4, R5, R188 and R392 refuses it. -/
abbrev Accepted (s : State) (off : Nat) (v : Word) : Prop :=
  s.dev.booted = true ∧ off < 0x200000 ∧ off % 4 = 0 ∧ regBad off v.toNat s.dev = false ∧ bankClosed off s.dev = false ∧
    (off < 0x14100 ∨ 0x14200 ≤ off)

/-- An accepted write stores RW fields and clears the W1C bits written 1, and then the register's own action follows (R6); in a
block without actions (GLB, CLS, FRE) that is all. A write to a register of a domain that is off stores its RW fields, or
counts as OFF_ACCESS where it carries an action (R3, R58); a reserved offset, a narrow or unaligned write, a reserved bit
or a value out of range is refused and described in GLB_BADWR (R3, R5, R392, R394), and a refused GO of HRT_ADJ_CTRL under
PEGLINE or PPS raises SRC_CONFLICT as well (R46); a read answers the word, clears RCLR fields in a domain that is on, and
reads 0 at a reserved offset; a narrow read answers the bytes it addresses (R3, R6, R392); nothing completes before
BOOT_DONE (R88). -/
def Obligations.RegisterAccesses : Prop :=
  ∀ s : State,
    (∀ (v : Word), s.dev.booted = true → s.dev.pd 0 = true →
       Does (.registerWrite .bar0 false 0x14 v) s [(GLB_SCRATCH.DATA, v.toNat)] fun e => e.outs = []) ∧
    (∀ (off : Nat) (v : Word), Accepted s off v → s.dev.pd (domOf off) = true → [0, 12, 14].contains (off / 0x4000) = true →
       Ends (.registerWrite .bar0 false off v) s fun e => Only s.dev e [⟨off, 0, 32⟩] ∧ e.sram = s.dev.sram ∧ e.word off =
         (rowAt off).elim 0 (·.stored true (s.dev.word off) v.toNat) ∧ e.outs = []) ∧
    (∀ (off : Nat) (v : Word), Accepted s off v → s.dev.pd (domOf off) = true → ownStore off = false →
       Ends (.registerWrite .bar0 false off v) s fun e =>
         e = regHook .pcie off (s.dev.word off) v.toNat (regStore true off v.toNat { s.dev with outs := [] })) ∧
    (∀ (off : Nat) (v : Word), Accepted s off v → s.dev.pd (domOf off) = false →
     v.toNat &&& actionMask off = 0 → off < 0x18040 ∨ 0x18080 ≤ off →
       Ends (.registerWrite .bar0 false off v) s fun e => Only s.dev e [⟨off, 0, 32⟩] ∧ e.sram = s.dev.sram ∧ e.word off =
         (rowAt off).elim 0 (·.stored false (s.dev.word off) v.toNat) ∧ e.outs = []) ∧
    (∀ (off : Nat) (v : Word), Accepted s off v → s.dev.pd (domOf off) = false → v.toNat &&& actionMask off ≠ 0 →
     off < 0x18040 ∨ 0x18080 ≤ off →
       Ends (.registerWrite .bar0 false off v) s fun e => Only s.dev e [⟨off, 0, 32⟩, RAT_OFFACC.COUNT, RAT_OFFACC.DOMAIN,
         RAT_EVENT.OFF_ACCESS] ∧ e.sram = s.dev.sram ∧ e.rd RAT_OFFACC.COUNT = min (s.dev.rd RAT_OFFACC.COUNT + 1) (2 ^ 16 -
         1) ∧ e.rd RAT_OFFACC.DOMAIN = domOf off ∧ e.rd RAT_EVENT.OFF_ACCESS = 1) ∧
    (∀ (narrow : Bool) (off : Nat) (v : Word), s.dev.booted = true → off < 0x200000 →
     narrow = true ∨ off % 4 ≠ 0 ∨ rowAt off = none ∨ regBad off v.toNat s.dev = true ∧ (off < 0x14100 ∨ 0x14200 ≤ off) ∧
       (off ≠ HRT_ADJ_CTRL.addr ∨ v.toNat % 2 = 0 ∨ s.dev.src < 2) →
       Does (.registerWrite .bar0 narrow off v) s (BadWrote s .pcie off) fun e => e.outs = []) ∧
    (∀ (v : Word), s.dev.booted = true → 2 ≤ s.dev.src → v.toNat % 2 = 1 → regBad HRT_ADJ_CTRL.addr v.toNat s.dev = true →
       Does (.registerWrite .bar0 false HRT_ADJ_CTRL.addr v) s
         ((HRT_EVENT.SRC_CONFLICT, 1) :: BadWrote s .pcie HRT_ADJ_CTRL.addr)
         fun e => e.hearth = s.dev.hearth) ∧
    (∀ (off : Nat) (v : Word), s.dev.booted = true → 0x14100 ≤ off → off < 0x14200 → regBad off v.toNat s.dev = true →
       Ends (.registerWrite .bar0 false off v) s fun e => Only s.dev e (HIF_EVENT.ASSIGN_REFUSED :: (BadWrote s .pcie
         off).map (·.1)) ∧ e.sram = s.dev.sram ∧ e.rd GLB_BADWR.COUNT = min (s.dev.rd GLB_BADWR.COUNT + 1) (2 ^ 32 - 1) ∧ e.rd
         GLB_BADWR_INFO.OFFSET = off ∧ e.outs = []) ∧
    (∀ (off : Nat) (v : Word), s.dev.booted = true → 0x200000 ≤ off → off < 2 ^ 22 → winOf off = .gap →
       Does (.registerWrite .bar0 false off v) s (BadWrote s .pcie off) fun e => e.outs = []) ∧
    (∀ (off : Nat) (v : Word) (n : Nat) (b : Nat), s.dev.booted = true → s.dev.pd 1 = true → winOf off = .gate n b →
     s.dev.bankBusy n b = false → 0x200000 ≤ off → off % 4 = 0 →
       Does (.registerWrite .bar0 false off v) s [(⟨off, 0, 32⟩, v.toNat)] fun e => e.tab = s.dev.tab) ∧
    (∀ (sl : Fin 417) (v : Word), s.dev.booted = true →
       Ends (.registerWrite .bar2 false (64 * sl.val) v) s fun e => e = doorbell 0 sl v.toNat { s.dev with outs := [] }) ∧
    (∀ (f : Fin 16) (off : Nat) (v : Word), s.dev.booted = true → s.dev.aperture f = true → off < 2 ^ 22 →
       Does (.registerWrite (.vf f) true off v) s (BadWrote s (.vf f) off) fun e => e.outs = []) ∧
    (∀ (sp : Space) (narrow : Bool) (off : Nat) (v : Word), s.dev.booted = false →
       Does (.registerWrite sp narrow off v) s [] fun e => e.outs = []) ∧
    (s.dev.booted = true → s.dev.pd 0 = true →
       Does (.rclrRead .bar0 false 4) s
         [(GLB_BADWR.COUNT, 0)]
         fun e => e.outs = [.read (BitVec.ofNat 32 (s.dev.rd GLB_BADWR.COUNT))]) ∧
    (∀ (narrow : Bool) (off : Nat), s.dev.booted = true → narrow = true ∨ off % 4 ≠ 0 →
       Does (.rclrRead .bar0 narrow off) s
         []
         fun e => e.outs = [.read (BitVec.ofNat 32 (s.dev.peekWord (off / 4 * 4) / 2 ^ (8 * (off % 4))))]) ∧
    (∀ (off : Nat), s.dev.booted = true → off < 0x200000 → off % 4 = 0 → rowAt off = none →
       Does (.rclrRead .bar0 false off) s [] fun e => e.outs = [.read 0]) ∧
    (∀ (off : Nat), s.dev.booted = true → 0x200000 ≤ off → off % 4 = 0 → s.dev.pd 1 = true → winOf off = .count →
       Does (.rclrRead .bar0 false off) s [(⟨off, 0, 32⟩, 0)] fun e => e.outs = [.read (BitVec.ofNat 32 (s.dev.word off))]) ∧
    (∀ (sp : Space) (narrow : Bool) (off : Nat), s.dev.booted = false →
       Does (.rclrRead sp narrow off) s [] fun e => e.outs = [])

/-! ### Rules stated whole (spec/02, 19, 20) -/

/-- While the source in force is PEGLINE or PPS, a software write to HRT_RATE, whatever its value and by whatever way, changes
nothing but HRT_EVENT.SRC_CONFLICT, which it raises: GLB_BADWR does not count it. A write of GO to HRT_ADJ_CTRL starts no
adjustment: GO stays, SRC_CONFLICT rises, and MODE and SLEW_PPM are written, subject to R5 (reserved bits read 0). -/
def Obligations.RateWriteUnderAnotherSource : Prop :=
  ∀ s : State,
    (∀ (src : BusSrc) (v : Word), 2 ≤ s.dev.src → Reaches src s →
       Does (.hrtRateWrite src v) s [(HRT_EVENT.SRC_CONFLICT, 1)] fun e => e.hearth = s.dev.hearth) ∧
    (∀ (v : Word), 2 ≤ s.dev.src → Taken 0 s →
       Does (.registerWrite .bar0 false HRT_RATE.addr v) s [(HRT_EVENT.SRC_CONFLICT, 1)] fun e => e.hearth = s.dev.hearth) ∧
    (∀ (src : BusSrc) (slew : Bool) (ppm : Fin 512), 2 ≤ s.dev.src → Reaches src s → 1 ≤ ppm.val → ppm.val ≤ 500 →
       Does (.adjGo src slew ppm) s
         [(HRT_ADJ_CTRL.MODE, b2n slew), (HRT_ADJ_CTRL.SLEW_PPM, ppm.val), (HRT_EVENT.SRC_CONFLICT, 1)]
         fun e => e.hearth = s.dev.hearth) ∧
    (∀ (src : BusSrc) (slew : Bool) (ppm : Fin 512), 2 ≤ s.dev.src → Reaches src s → (ppm.val < 1 ∨ 500 < ppm.val) →
       Does (.adjGo src slew ppm) s ((HRT_EVENT.SRC_CONFLICT, 1) :: BadWrote s src HRT_ADJ_CTRL.addr)
         fun e => e.hearth = s.dev.hearth) ∧
    (∀ (v : Word), 2 ≤ s.dev.src → Taken 0 s → v.toNat % 2 = 1 → regBad HRT_ADJ_CTRL.addr v.toNat s.dev = false →
       Does (.registerWrite .bar0 false HRT_ADJ_CTRL.addr v) s
         [(HRT_ADJ_CTRL.MODE, bits v.toNat 1 1), (HRT_ADJ_CTRL.SLEW_PPM, bits v.toNat 2 9), (⟨HRT_ADJ_CTRL.addr, 11, 21⟩, 0),
          (HRT_EVENT.SRC_CONFLICT, 1)]
         fun e => e.hearth = s.dev.hearth)

/-- TAKE captures the voted Hearth at its mote and clears; a read of the low half of a pair answers it and latches the high
half as it stands in the same CLK, and a read of the high half answers what is latched, whatever pair of R53 it is. -/
def Obligations.SnapshotAndPairedReads : Prop :=
  ∀ s : State,
    (∀ (m : Mote), Taken 0 s →
       Does (.snapTake m) s
         [(HRT_SNAP_LO.SNAP, (atMote m s.dev).now % 2 ^ 32), (HRT_SNAP_HI.SNAP, (atMote m s.dev).now / 2 ^ 32 % 2 ^ 32),
          (HRT_SNAP_CTRL.TAKE, 0)]
         fun e => e.latch = s.dev.latch) ∧
    (∀ (m : Mote), s.dev.booted = true →
       Does (.hrtNowRead .now m) s
         []
         fun e => e.outs = [.read (BitVec.ofNat 32 (atMote m s.dev).now)] ∧ e.latched HRT_NOW_HI.addr = (atMote m s.dev).now /
           2 ^ 32 % 2 ^ 32) ∧
    (∀ (m : Mote), s.dev.booted = true →
       Does (.hrtNowRead .snap m) s
         []
         fun e => e.outs = [.read (BitVec.ofNat 32 (s.dev.rd HRT_SNAP_LO.SNAP))] ∧ e.latched HRT_SNAP_HI.addr = s.dev.rd
           HRT_SNAP_HI.SNAP) ∧
    (∀ (m : Mote), s.dev.booted = true →
       Does (.hrtNowRead .cap m) s
         []
         fun e => e.outs = [.read (BitVec.ofNat 32 (s.dev.rd HRT_PPS_CAP_LO.CAP))] ∧ e.latched HRT_PPS_CAP_HI.addr = s.dev.rd
           HRT_PPS_CAP_HI.CAP) ∧
    (∀ (m : Mote), s.dev.booted = true →
       Does (.hrtNowRead .left m) s
         []
         fun e => e.outs = [.read (BitVec.ofNat 32 (uns 48 ((atMote m s.dev).hearth.a.left.tdiv (2 ^ 32))))] ∧ e.latched
           HRT_SLEW_LEFT_HI.addr = uns 48 ((atMote m s.dev).hearth.a.left.tdiv (2 ^ 32)) / 2 ^ 32 % 2 ^ 32) ∧
    (∀ (off hi : Nat), s.dev.booted = true → s.dev.pd (domOf off) = true → pairHigh off = some hi →
       Does (.rclrRead .bar0 false off) s
         []
         fun e => e.outs = [.read (BitVec.ofNat 32 (s.dev.liveWord off))] ∧ e.latched hi = s.dev.liveWord hi % 2 ^ 32 ∧
           e.hearth = s.dev.hearth) ∧
    (∀ (off : Nat), s.dev.booted = true → isPairHigh off = true →
       Does (.rclrRead .bar0 false off) s
         []
         fun e => e.outs = [.read (BitVec.ofNat 32 (s.dev.latched off))] ∧ e.latch = s.dev.latch ∧ e.hearth = s.dev.hearth)

/-- A reserved offset of PF0 BAR0 reads 0 and a write to it changes nothing but GLB_BADWR, which counts and describes it, by
every way, in every tier and in every domain state; 0x08_4000 to 0x1F_FFFF and the gaps of the window range are reserved. -/
def Obligations.ReservedOffsets : Prop :=
  (∀ off : Nat, 0x84000 ≤ off → off < 0x200000 → rowAt off = none) ∧
  ∀ off : Nat, off < 2 ^ 22 → (if off < 0x200000 then rowAt (off / 4 * 4) = none else winOf (off / 4 * 4) = .gap) →
    (∀ d : Dev, d.peek off = 0) ∧
    (∀ (src : BusSrc) (narrow : Bool) (v : Nat) (d : Dev), regWrite src narrow off v d = badWr src off d) ∧
    ∀ s : State, s.dev.booted = true →
      (∀ narrow : Bool, Does (.rclrRead .bar0 narrow off) s [] fun e => e.outs = [.read 0]) ∧
      ∀ (narrow : Bool) (v : Word), Does (.registerWrite .bar0 narrow off v) s
        [(GLB_BADWR.COUNT, min (s.dev.rd GLB_BADWR.COUNT + 1) (2 ^ 32 - 1)), (GLB_BADWR_INFO.OFFSET, off),
          (GLB_BADWR_INFO.SRC, 0), (GLB_BADWR_INFO.FN, 0)] fun e => e.outs = []

/-- While the lane of CHn is gated off by the tier, TXDISn is released; it is released too while the channel is OFF or may not
transmit (R157), and pulled low otherwise; after every step with PD1 on, CHn_STATUS.TXDIS tells the same. -/
def Obligations.TxdisReleased : Prop :=
  (∀ (d : Dev) (n : Fin 4), d.fld.tap = .none →
    (d.bitOf RAT_DOM_STATUS.LANE_ON n = false → d.pin (.txdis n) = .released) ∧
    (d.chRun n = 0 ∨ d.txPermit n = false → d.pin (.txdis n) = .released) ∧
    (d.bitOf RAT_DOM_STATUS.LANE_ON n = true → d.chRun n ≠ 0 → d.txPermit n = true → d.pin (.txdis n) = .low)) ∧
  ∀ (s t : State) (n : Fin 4), step s = .next t → t.dev.pd 1 = true → t.dev.fld.tap = .none →
    (t.dev.on (CHn_STATUS.TXDIS n) = true ↔ t.dev.pin (.txdis n) = .released)

/-! ### The machine as a whole -/

/-- For every command c and every state, a step with c at the front of the queue is exec of c with the queue's rest (the queue
is the model's own). -/
def Obligations.StepRunsFrontCommand : Prop :=
  ∀ (c : Instr) (rest : List Instr) (dev : Dev),
    step { dev := dev, pending := c :: rest } = exec c { dev := dev, pending := rest }

/-- Every command answers, in every state, a next state with the same queue, whose outputs and views have followed (`settle`):
no command faults or is refused. A failed condition is no effect. -/
def Obligations.EveryCommandCompletes : Prop :=
  ∀ (c : Instr) (s : State), ∃ d : Dev, exec c s = .next { s with dev := settle s.dev d }

/-- With nothing queued, a step is one CLK in which only the clock acts: a Hearth that stands leaves everything as it is, a
running one advances each copy as R33 says, here within its frame and with no slew; in APPLY the words of that CLK take
effect as well (R97). The model's choice (assumption log 1). -/
def Obligations.EmptyQueueTicks : Prop :=
  ∀ dev : Dev,
    (dev.hearth.running = false → dev.bootSt ≠ 6 →
      step { dev := dev, pending := [] } = .next { dev := settle dev { dev with outs := [] }, pending := [] }) ∧
    (dev.hearth.running = true → dev.bootSt ≠ 6 → dev.on HRT_STATUS.SLEWING = false →
      (HCopy.clk dev.hearth.slewInc dev.hearth.a).t / frMt = dev.hearth.a.t / frMt →
      (HCopy.clk dev.hearth.slewInc dev.hearth.a).era = dev.hearth.a.era →
      ∃ e : Dev, step { dev := dev, pending := [] } = .next { dev := settle dev e, pending := [] } ∧
        e.hearth.a = HCopy.clk dev.hearth.slewInc dev.hearth.a ∧ e.hearth.b = HCopy.clk dev.hearth.slewInc dev.hearth.b ∧
        e.hearth.c = HCopy.clk dev.hearth.slewInc dev.hearth.c ∧ e.hearth.clk = dev.hearth.clk + 1 ∧ Only dev e [] ∧
        e.sram = dev.sram ∧ e.outs = []) ∧
    (dev.bootSt = 6 →
      step { dev := dev, pending := [] } =
        .next { dev := settle dev (clkTick (applyTo (dev.hearth.clk + 1 - dev.boot.applyClk) { dev with outs := [] })), pending := [] })

/-- At reset every register reads its reset value; retention SRAM lists nothing; nothing is queued; the part is in the first
boot state with a power-on reset asserted; the score is 255, every GPO is open, REFOUT stands still, no token is held.
(Values the manual does not give are the model's: the log rows named in NOTES.md.) -/
def Obligations.ResetState : Prop :=
  (∀ o : Nat, State.reset.dev.word o = (resetWord o).toNat) ∧ State.reset.dev.sram = [] ∧ State.reset.pending = [] ∧
    State.reset.dev.rd GLB_ID.STEP = 0xB1 ∧ State.reset.dev.rd GLB_ID.DEVICE = 0x4C7 ∧ State.reset.dev.rd SHD_STATUS.SCORE = 255 ∧
    State.reset.dev.rd RST_BOOT_STATUS.STATE = 1 ∧ State.reset.dev.holds = false ∧
    (∀ n : Fin 8, State.reset.dev.pin (.gpo n) = .released) ∧ State.reset.dev.pin .refout = .low ∧
    (∀ n : Fin 4, State.reset.dev.pin (.txdis n) = .released)

/-- At reset the relays follow the token (R368), the charger its enable, the loss and the sag test (R73), and REFOUT its
enable, domain and resets (R28). -/
def Obligations.SettledAtReset : Prop :=
  State.reset.dev.settled

/-- After every step, from any state that meets it, the relays follow the token (R368), the charger its enable, the loss and
the sag test (R73), and REFOUT its enable, domain and resets (R28), whatever the command was. -/
def Obligations.SettledAfterEveryStep : Prop :=
  ∀ s t : State, s.dev.settled → step s = .next t → t.dev.settled

/-- After every step with PD1 on, SHD_FAULT is the word of Table 18.7 of the state reached. -/
def Obligations.FaultBitsFollow : Prop :=
  ∀ s t : State, step s = .next t → t.dev.pd 1 = true → t.dev.rd SHD_FAULT.FAULT = t.dev.faultWord

/-- A write or read of the retention port, a register write to it, and the words it leaves keep retention SRAM in its
canonical form, and no other command of the port family changes a word but the addressed one. -/
def Obligations.RetentionForm : Prop :=
  ∀ (s t : State), Memory.wf s.dev.sram = true →
    ((∃ src v, exec (.retDataWrite src v) s = .next t) ∨ exec .retDataRead s = .next t ∨
      ∃ narrow v, exec (.registerWrite .bar0 narrow RAT_RET_DATA.addr v) s = .next t) →
    Memory.wf t.dev.sram = true ∧ ∀ k : Nat, k ≠ s.dev.rd RAT_RET_ADDR.WORD → t.dev.ramWord k = s.dev.ramWord k

/-- An evaluation shows, of the caps of R59, the largest as TARGET; a feed cap in force is kept while its HOLD threshold is
met, a better one needs its ENTER; an invalid Hearth caps the tier at LEAN, a software request asks for its Bivouac. -/
def Obligations.CapsOfEvaluation : Prop :=
  ∀ d : Dev, d.rat.shadow = none →
    let e := capsCompute d
    e.rd RAT_STATUS.TARGET = max (d.rd RAT_CTRL.CEIL) (max (e.rd RAT_STATUS.CAP_FEED) (max (e.rd RAT_STATUS.CAP_THERM)
      (max (e.rd RAT_STATUS.CAP_LOSS) (max (2 * e.rd RAT_STATUS.CAP_HEARTH) (bivCap d))))) ∧
    e.rd RAT_STATUS.CAP_HEARTH = (if d.valid then 0 else 1) ∧
    (d.on RAT_CTRL.BIV_REQ = true → 4 + d.rd RAT_CTRL.BIV_MODE ≤ e.rd RAT_STATUS.TARGET) ∧
    (d.rd RAT_STATUS.CAP_FEED ≤ 1 → d.rd RAT_THR_TRIM.HOLD ≤ d.feedV → e.rd RAT_STATUS.CAP_FEED ≤ 1) ∧
    (1 < d.rd RAT_STATUS.CAP_FEED → d.feedV < d.rd RAT_THR_FULL.ENTER → d.feedV < d.rd RAT_THR_TRIM.ENTER →
      2 ≤ e.rd RAT_STATUS.CAP_FEED) ∧
    (d.rd RAT_STATUS.CAP_FEED = 3 → d.rd RAT_THR_LEAN.ENTER ≤ d.feedV → e.rd RAT_STATUS.CAP_FEED ≤ 2) ∧
    (∀ g : Field, g.off ≠ RAT_STATUS.addr → Field.apart RAT_EVENT.THERM_CAP g = true → Field.apart RAT_EVENT.CELL_LOW g = true →
      e.rd g = d.rd g)

/-- A write by VF f to its aperture leaves every other function as it was, and the base, size, producer index and fetched
descriptors of every ring that is not its own; of the registers it can move only the counters and events of GLB, HIF and
DMA before the interrupts that follow; time, tables, channels and the packet memory stand. -/
def Obligations.FunctionIsolation : Prop :=
  ∀ s : State,
    ∀ (f : Fin 16) (narrow : Bool) (off : Nat) (v : Word), f ≠ 0 → s.dev.booted = true →
      Ends (.registerWrite (.vf f) narrow off v) s fun e => Within s.dev e [0, 5, 6] ∧ e.sram = s.dev.sram ∧ (∀ g : Fin 16,
        g ≠ f → e.fn g = s.dev.fn g) ∧ (∀ r : Fin 432, r.val ≠ 416 + f.val → (∀ sl : Fin 417, s.dev.slotRing f sl ≠ some
        r.val) → (e.ring r).base = (s.dev.ring r).base ∧ (e.ring r).size = (s.dev.ring r).size ∧ (e.ring r).prod = (s.dev.ring
        r).prod ∧ (e.ring r).taken = (s.dev.ring r).taken) ∧ e.hearth = s.dev.hearth ∧ e.tab = s.dev.tab ∧ e.chan = s.dev.chan
        ∧ e.pm = s.dev.pm ∧ e.lsh = s.dev.lsh
end

