-- ==== Sys2Proof/Laws/Cells.lean ====
section
/-!
SUPPORT. Laws/Cells.lean: reading after writing a sparse file, and the canonical form that every write keeps.
-/

namespace Sys2Proof.Machine

variable {α : Type}

theorem cellRead_cellDrop (dflt : Nat → α) (m : List (Nat × α)) (k j : Nat) :
    cellRead dflt (cellDrop m k) j = if j = k then dflt k else cellRead dflt m j := by
  induction m with
  | nil => by_cases h : j = k <;> simp [cellDrop, cellRead, h]
  | cons x m ih =>
    obtain ⟨a, w⟩ := x
    simp only [cellDrop]
    by_cases hk : k = a
    · subst hk
      by_cases hj : j = k
      · subst hj; simp [ih]
      · simp [cellRead, ih, hj]
    · by_cases hj : j = k
      · subst hj; simp [hk, cellRead, ih]
      · simp [hk, cellRead, ih, hj]

theorem cellRead_cellPut_drop (dflt : Nat → α) (m : List (Nat × α)) (k j : Nat) (v : α) :
    cellRead dflt (cellPut (cellDrop m k) k v) j = if j = k then v else cellRead dflt m j := by
  induction m with
  | nil => by_cases h : j = k <;> simp [cellDrop, cellPut, cellRead, h]
  | cons x m ih =>
    obtain ⟨a, w⟩ := x
    simp only [cellDrop]
    by_cases hk : k = a
    · subst hk
      by_cases hj : j = k
      · subst hj; simp [ih]
      · simp [cellRead, ih, hj]
    · by_cases hlt : k < a
      · by_cases hj : j = k
        · simp [hk, hlt, cellPut, cellRead, hj]
        · simp [hk, hlt, cellPut, cellRead, hj, cellRead_cellDrop]
      · by_cases hj : j = k
        · subst hj; simp [hk, hlt, cellPut, cellRead, ih]
        · simp [hk, hlt, cellPut, cellRead, ih, hj]

/-- A read after a write: the value written at its key, what stood everywhere else. -/
theorem cellRead_cellWrite [DecidableEq α] (dflt : Nat → α) (m : List (Nat × α)) (k j : Nat) (v : α) :
    cellRead dflt (cellWrite dflt m k v) j = if j = k then v else cellRead dflt m j := by
  unfold cellWrite
  split
  · next h => rw [cellRead_cellDrop]; simp [h]
  · exact cellRead_cellPut_drop dflt m k j v

theorem cellsAbove_trans {k a : Nat} {m : List (Nat × α)} (h : cellsAbove a m = true) (hk : k < a) :
    cellsAbove k m = true := by
  induction m with
  | nil => rfl
  | cons x m ih =>
    simp only [cellsAbove, Bool.and_eq_true, decide_eq_true_eq] at h ⊢
    exact ⟨Nat.lt_trans hk h.1, ih h.2⟩

theorem cellsAbove_cellDrop {k a : Nat} {m : List (Nat × α)} (h : cellsAbove k m = true) :
    cellsAbove k (cellDrop m a) = true := by
  induction m with
  | nil => rfl
  | cons x m ih =>
    obtain ⟨b, w⟩ := x
    simp only [cellsAbove, Bool.and_eq_true, decide_eq_true_eq] at h
    simp only [cellDrop]
    split
    · exact ih h.2
    · simp [cellsAbove, h.1, ih h.2]

theorem cellsWf_cellDrop [DecidableEq α] {dflt : Nat → α} {m : List (Nat × α)} (k : Nat) (h : cellsWf dflt m = true) :
    cellsWf dflt (cellDrop m k) = true := by
  induction m with
  | nil => rfl
  | cons x m ih =>
    obtain ⟨a, w⟩ := x
    simp only [cellsWf, Bool.and_eq_true] at h
    simp only [cellDrop]
    split
    · exact ih h.2
    · simp only [cellsWf, Bool.and_eq_true]
      exact ⟨⟨h.1.1, cellsAbove_cellDrop h.1.2⟩, ih h.2⟩

theorem cellsAbove_cellPut {k a : Nat} {v : α} {m : List (Nat × α)} (h : cellsAbove a m = true) (hk : a < k) :
    cellsAbove a (cellPut m k v) = true := by
  induction m with
  | nil => simp [cellPut, cellsAbove, hk]
  | cons x m ih =>
    obtain ⟨b, w⟩ := x
    simp only [cellsAbove, Bool.and_eq_true, decide_eq_true_eq] at h
    simp only [cellPut]
    split
    · simp [cellsAbove, hk, h.1, h.2]
    · simp [cellsAbove, h.1, ih h.2]

theorem cellsWf_cellPut [DecidableEq α] {dflt : Nat → α} {m : List (Nat × α)} {k : Nat} {v : α}
    (h : cellsWf dflt m = true) (hv : v ≠ dflt k) :
    cellsWf dflt (cellPut (cellDrop m k) k v) = true := by
  induction m with
  | nil => simp [cellDrop, cellPut, cellsWf, cellsAbove, hv]
  | cons x m ih =>
    obtain ⟨a, w⟩ := x
    simp only [cellsWf, Bool.and_eq_true] at h
    simp only [cellDrop]
    split
    · exact ih h.2
    · next hne =>
      simp only [cellPut]
      split
      · next hlt =>
        simp only [cellsWf, cellsAbove, Bool.and_eq_true, decide_eq_true_eq]
        exact ⟨⟨hv, hlt, cellsAbove_trans (cellsAbove_cellDrop h.1.2) hlt⟩,
          ⟨by simpa using h.1.1, cellsAbove_cellDrop h.1.2⟩, cellsWf_cellDrop k h.2⟩
      · next hge =>
        simp only [cellsWf, Bool.and_eq_true]
        exact ⟨⟨h.1.1, cellsAbove_cellPut (cellsAbove_cellDrop h.1.2) (by omega)⟩, ih h.2⟩

/-- Every write keeps the canonical form. -/
theorem cellsWf_cellWrite [DecidableEq α] {dflt : Nat → α} {m : List (Nat × α)} (k : Nat) (v : α)
    (h : cellsWf dflt m = true) : cellsWf dflt (cellWrite dflt m k v) = true := by
  unfold cellWrite
  split
  · exact cellsWf_cellDrop k h
  · next hv => exact cellsWf_cellPut h hv

end Sys2Proof.Machine
end

