-- ==== Sys2Proof/Laws/Fields.lean ====
section
/-!
SUPPORT. Laws/Fields.lean: reading a field after writing a field, the words of the register file after a write, and the
canonical form of the register file.
-/

namespace Sys2Proof.Machine

/-! ### Bits -/

theorem testBit_bits (x lo w i : Nat) : (bits x lo w).testBit i = (decide (i < w) && x.testBit (lo + i)) := by
  simp [bits, Nat.testBit_mod_two_pow, Nat.testBit_div_two_pow, Nat.add_comm]

theorem testBit_setBits (x lo w v i : Nat) :
    (setBits x lo w v).testBit i = if lo ≤ i ∧ i < lo + w then v.testBit (i - lo) else x.testBit i := by
  have h1 : x % 2 ^ lo < 2 ^ lo := Nat.mod_lt _ (Nat.two_pow_pos _)
  have h2 : 2 ^ lo * (v % 2 ^ w) + x % 2 ^ lo < 2 ^ (lo + w) := by
    have := Nat.mod_lt v (Nat.two_pow_pos w)
    calc 2 ^ lo * (v % 2 ^ w) + x % 2 ^ lo < 2 ^ lo * (v % 2 ^ w) + 2 ^ lo := by omega
      _ = 2 ^ lo * (v % 2 ^ w + 1) := by ring
      _ ≤ 2 ^ lo * 2 ^ w := Nat.mul_le_mul_left _ (by omega)
      _ = 2 ^ (lo + w) := by rw [Nat.pow_add]
  have e : setBits x lo w v = 2 ^ (lo + w) * (x / 2 ^ (lo + w)) + (2 ^ lo * (v % 2 ^ w) + x % 2 ^ lo) := by
    unfold setBits; ring
  rw [e, Nat.testBit_two_pow_mul_add _ h2, Nat.testBit_two_pow_mul_add _ h1]
  simp only [Nat.testBit_mod_two_pow, Nat.testBit_div_two_pow]
  by_cases a : i < lo
  · simp [a, show ¬ lo ≤ i by omega, show i < lo + w by omega]
  · by_cases b : i < lo + w
    · simp [a, b, show lo ≤ i by omega, show i - lo < w by omega]
    · simp [b, show i - (lo + w) + (lo + w) = i by omega]

theorem bits_setBits_same (x lo w v : Nat) : bits (setBits x lo w v) lo w = v % 2 ^ w := by
  apply Nat.eq_of_testBit_eq
  intro i
  rw [testBit_bits, testBit_setBits, Nat.testBit_mod_two_pow]
  by_cases h : i < w <;> simp [h]

theorem bits_setBits_disjoint (x lo w v l2 w2 : Nat) (h : l2 + w2 ≤ lo ∨ lo + w ≤ l2) :
    bits (setBits x lo w v) l2 w2 = bits x l2 w2 := by
  apply Nat.eq_of_testBit_eq
  intro i
  rw [testBit_bits, testBit_bits, testBit_setBits]
  by_cases hi : i < w2
  · rw [if_neg (by omega)]
  · simp [hi]

theorem bits_mod (x n lo w : Nat) (h : lo + w ≤ n) : bits (x % 2 ^ n) lo w = bits x lo w := by
  apply Nat.eq_of_testBit_eq
  intro i
  rw [testBit_bits, testBit_bits, Nat.testBit_mod_two_pow]
  by_cases hi : i < w
  · simp [hi, show lo + i < n by omega]
  · simp [hi]

theorem bits_lt (x lo w : Nat) : bits x lo w < 2 ^ w := Nat.mod_lt _ (Nat.two_pow_pos _)

/-! ### Words and fields -/

/-- The words after a word is set. -/
theorem word_setWord (d : Dev) (o v p : Nat) : (d.setWord o v).word p = if p = o then v % 2 ^ 32 else d.word p := by
  simp only [Dev.word, Dev.setWord, cellRead_cellWrite]
  split <;> simp [BitVec.toNat_ofNat]

theorem word_wr_ne (d : Dev) (f : Field) (v o : Nat) (h : o ≠ f.off) : (d.wr f v).word o = d.word o := by
  simp [Dev.wr, word_setWord, h]

theorem word_lt (d : Dev) (o : Nat) : d.word o < 2 ^ 32 := (cellRead resetWord d.regs o).isLt

/-- A field just written reads as its low bits. -/
theorem rd_wr_same (d : Dev) (f : Field) (v : Nat) (h : f.lo + f.w ≤ 32) : (d.wr f v).rd f = v % 2 ^ f.w := by
  simp only [Dev.rd, Dev.wr, word_setWord, if_pos]
  rw [bits_mod _ 32 _ _ h, bits_setBits_same]

/-- A field of another register stands. -/
theorem rd_wr_off (d : Dev) (f g : Field) (v : Nat) (h : g.off ≠ f.off) : (d.wr f v).rd g = d.rd g := by
  simp [Dev.rd, word_wr_ne _ _ _ _ h]

/-- Another field of the same register stands. -/
theorem rd_wr_disjoint (d : Dev) (f g : Field) (v : Nat) (hg : g.lo + g.w ≤ 32)
    (h : g.lo + g.w ≤ f.lo ∨ f.lo + f.w ≤ g.lo) : (d.wr f v).rd g = d.rd g := by
  by_cases e : g.off = f.off
  · simp only [Dev.rd, Dev.wr, word_setWord, e, if_pos]
    rw [bits_mod _ 32 _ _ hg, bits_setBits_disjoint _ _ _ _ _ _ h]
  · exact rd_wr_off d f g v e

theorem rd_wr_apart (d : Dev) (f g : Field) (v : Nat) (h : Field.apart f g = true) : (d.wr f v).rd g = d.rd g := by
  simp only [Field.apart, Bool.or_eq_true, bne_iff_ne, Bool.and_eq_true, decide_eq_true_eq] at h
  rcases h with h | ⟨h1, h2⟩
  · exact rd_wr_off d f g v h
  · exact rd_wr_disjoint d f g v h1 h2

theorem rd_wrB_apart (d : Dev) (f g : Field) (b : Bool) (h : Field.apart f g = true) : (d.wrB f b).rd g = d.rd g :=
  rd_wr_apart d f g _ h

theorem on_wr_apart (d : Dev) (f g : Field) (v : Nat) (h : Field.apart f g = true) : (d.wr f v).on g = d.on g := by
  simp [Dev.on, rd_wr_apart d f g v h]

theorem on_wrB_apart (d : Dev) (f g : Field) (b : Bool) (h : Field.apart f g = true) : (d.wrB f b).on g = d.on g :=
  on_wr_apart d f g _ h

theorem rd_ev_apart (d : Dev) (f g : Field) (h : Field.apart f g = true) : (d.ev f).rd g = d.rd g := rd_wr_apart d f g 1 h

theorem on_ev_apart (d : Dev) (f g : Field) (h : Field.apart f g = true) : (d.ev f).on g = d.on g := on_wr_apart d f g 1 h

theorem rd_sat_apart (d : Dev) (f g : Field) (n : Nat) (h : Field.apart f g = true) : (d.sat f n).rd g = d.rd g :=
  rd_wr_apart d f g _ h

/-- A one-bit field written from a truth value reads as it. -/
theorem on_wrB_same (d : Dev) (f : Field) (b : Bool) (h : f.lo + f.w ≤ 32) (hw : 0 < f.w) : (d.wrB f b).on f = b := by
  have : 1 < 2 ^ f.w := Nat.one_lt_two_pow (by omega)
  unfold Dev.on Dev.wrB
  rw [rd_wr_same d f _ h]
  cases b
  · simp
  · rw [if_pos rfl, Nat.mod_eq_of_lt this]; rfl

theorem on_ev_same (d : Dev) (f : Field) (h : f.lo + f.w ≤ 32) (hw : 0 < f.w) : (d.ev f).on f = true := by
  have := on_wrB_same d f true h hw
  simpa [Dev.wrB, Dev.ev] using this

/-- A saturating counter (R7). -/
theorem rd_sat_same (d : Dev) (f : Field) (n : Nat) (h : f.lo + f.w ≤ 32) :
    (d.sat f n).rd f = min (d.rd f + n) (2 ^ f.w - 1) := by
  unfold Dev.sat
  rw [rd_wr_same d f _ h]
  have := Nat.two_pow_pos f.w
  exact Nat.mod_eq_of_lt (by omega)

theorem bitOf_wr_apart (d : Dev) (f g : Field) (v n : Nat) (h : Field.apart f g = true) :
    (d.wr f v).bitOf g n = d.bitOf g n := by
  simp [Dev.bitOf, rd_wr_apart d f g v h]

/-! ### Registers alone -/

/-- A field of a register file. -/
def rdR (r : List (Nat × Word)) (g : Field) : Nat := bits (cellRead resetWord r g.off).toNat g.lo g.w

/-- A register file with a field written. -/
def wrR (r : List (Nat × Word)) (f : Field) (v : Nat) : List (Nat × Word) := (Dev.wr { regs := r } f v).regs

theorem rd_eq (d : Dev) (g : Field) : d.rd g = rdR d.regs g := rfl
theorem on_eq (d : Dev) (g : Field) : d.on g = (rdR d.regs g != 0) := rfl
theorem wr_regs (d : Dev) (f : Field) (v : Nat) : (d.wr f v).regs = wrR d.regs f v := rfl
theorem wrB_regs (d : Dev) (f : Field) (b : Bool) : (d.wrB f b).regs = wrR d.regs f (if b then 1 else 0) := rfl
theorem ev_regs (d : Dev) (f : Field) : (d.ev f).regs = wrR d.regs f 1 := rfl
theorem sat_regs (d : Dev) (f : Field) (n : Nat) :
    (d.sat f n).regs = wrR d.regs f (min (rdR d.regs f + n) (2 ^ f.w - 1)) := rfl
theorem evIf_regs (d : Dev) (c : Bool) (f : Field) : (d.evIf c f).regs = if c then wrR d.regs f 1 else d.regs := by
  cases c <;> rfl

theorem rdR_same (r : List (Nat × Word)) (f : Field) (v : Nat) (h : f.lo + f.w ≤ 32) : rdR (wrR r f v) f = v % 2 ^ f.w :=
  rd_wr_same { regs := r } f v h

theorem rdR_apart (r : List (Nat × Word)) (f g : Field) (v : Nat) (h : Field.apart f g = true) :
    rdR (wrR r f v) g = rdR r g := rd_wr_apart { regs := r } f g v h

theorem rdR_lt (r : List (Nat × Word)) (g : Field) : rdR r g < 2 ^ g.w := bits_lt _ _ _

/-! ### The canonical form -/

theorem setWord_wf (d : Dev) (o v : Nat) (h : cellsWf resetWord d.regs = true) :
    cellsWf resetWord (d.setWord o v).regs = true := cellsWf_cellWrite o _ h

theorem wr_wf (d : Dev) (f : Field) (v : Nat) (h : cellsWf resetWord d.regs = true) :
    cellsWf resetWord (d.wr f v).regs = true := setWord_wf d _ _ h

end Sys2Proof.Machine
end

