-- ==== Sys2Proof/Laws/Settle.lean ====
section
/-!
SUPPORT. Laws/Settle.lean: what follows every command leaves alone: every field that is not shown, and every part of the state
but for registers, outputs, functions and what a stop of REFOUT resets.
-/

namespace Sys2Proof.Machine

/-- From d to e, every field that is not shown stands, and so do the retention SRAM and the parts settling never touches. -/
def Kept (d e : Dev) : Prop :=
  (∀ g : Field, shownField g = false → e.rd g = d.rd g) ∧ e.sram = d.sram ∧ e.frozen = d.frozen ∧ e.freeIx = d.freeIx ∧
    e.hearth = d.hearth ∧ e.rat = d.rat ∧ e.boot = d.boot ∧ e.tab = d.tab ∧ e.lsh = d.lsh ∧ e.sap = d.sap ∧
    e.spk = d.spk ∧ e.llb = d.llb ∧ e.fld = d.fld ∧ e.shd = d.shd

variable {d e : Dev}

theorem Kept.refl (d : Dev) : Kept d d := by simp [Kept]

/-- A field of the shown set is apart from a field outside it. -/
theorem apart_of_block {f g : Field} (hf : f.off / 0x4000 = 5 ∨ f.off / 0x4000 = 32) (hg : shownField g = false) :
    Field.apart f g = true := by
  unfold Field.apart
  by_cases e : g.off = f.off
  · simp only [shownField, Bool.or_eq_false_iff, beq_eq_false_iff_ne] at hg
    rw [e] at hg
    omega
  · simp [e]

theorem apart_of_list {f g : Field} (hf : f ∈ shownList) (hg : shownField g = false) : Field.apart f g = true := by
  simp only [shownField, Bool.or_eq_false_iff, List.any_eq_false] at hg
  simpa using hg.2 f hf

theorem Kept.wr {f : Field} {v : Nat} (hf : f.off / 0x4000 = 5 ∨ f.off / 0x4000 = 32) (h : Kept d e) : Kept d (e.wr f v) :=
  ⟨fun g hg => (rd_wr_apart e f g v (apart_of_block hf hg)).trans (h.1 g hg), h.2⟩

theorem Kept.wrL {f : Field} {v : Nat} (hf : f ∈ shownList) (h : Kept d e) : Kept d (e.wr f v) :=
  ⟨fun g hg => (rd_wr_apart e f g v (apart_of_list hf hg)).trans (h.1 g hg), h.2⟩

theorem Kept.evIf {f : Field} {c : Bool} (hf : f.off / 0x4000 = 5 ∨ f.off / 0x4000 = 32) (h : Kept d e) : Kept d (e.evIf c f) := by
  cases c
  · exact h
  · exact h.wr hf

theorem Kept.hostMod {f : HostIf → HostIf} (h : Kept d e) : Kept d (e.hostMod f) := h

theorem Kept.emit {o : Out} (h : Kept d e) : Kept d (e.emit o) := h

theorem Kept.ite {c : Prop} [Decidable c] {x y : Dev} (hx : Kept d x) (hy : Kept d y) : Kept d (if c then x else y) := by
  split
  · exact hx
  · exact hy

theorem Kept.iteB {c : Bool} {x y : Dev} (hx : Kept d x) (hy : Kept d y) : Kept d (if c then x else y) := by
  split
  · exact hx
  · exact hy

theorem Kept.foldl {α : Type} {f : Dev → α → Dev} (l : List α) (hf : ∀ a ∈ l, ∀ e, Kept d e → Kept d (f e a)) (h : Kept d e) :
    Kept d (l.foldl f e) := by
  induction l generalizing e with
  | nil => exact h
  | cons a l ih => exact ih (fun b hb => hf b (List.mem_cons_of_mem _ hb)) (hf a (by simp) e h)

theorem Kept.forN {n : Nat} {f : Nat → Dev → Dev} (hf : ∀ k, k < n → ∀ e, Kept d e → Kept d (f k e)) (h : Kept d e) :
    Kept d (forN n f e) :=
  Kept.foldl (List.range n) (fun a ha e he => hf a (by simpa using ha) e he) h

/-! ### The host interface -/

theorem Kept.msixSend {f v : Nat} (h : Kept d e) : Kept d (msixSend f v e) := by
  unfold Machine.msixSend
  repeat' (first | exact h | apply Kept.ite)

theorem Kept.blockEvent {b : Nat} (h : Kept d e) : Kept d (blockEvent b e) := by
  unfold Machine.blockEvent
  refine Kept.ite h (Kept.ite ?_ (Kept.msixSend ?_)) <;> exact h.wr (by decide)

theorem Kept.setFnState {f v : Nat} (h : Kept d e) : Kept d (setFnState f v e) := by
  unfold Machine.setFnState
  exact Kept.ite (h.wr (by decide)) (h.wr (by decide))

theorem Kept.bumpEpoch {f : Nat} (hf : f < 16) (h : Kept d e) : Kept d (bumpEpoch f e) := by
  unfold Machine.bumpEpoch
  refine h.wr (Or.inl ?_)
  show (0x14024 + 0x4 * (f / 4)) / 0x4000 = 5
  omega

theorem Kept.cfgDefault {f : Nat} (h : Kept d e) : Kept d (cfgDefault f e) := by
  unfold Machine.cfgDefault
  exact Kept.ite (Kept.wr (by decide) h) h

theorem Kept.tagSync (h : Kept d e) : Kept d (tagSync e) := by
  unfold Machine.tagSync
  exact ((h.wr (by decide)).wr (by decide)).wr (by decide)

theorem Kept.cmpSync (h : Kept d e) : Kept d (cmpSync e) := by
  have key : ∀ x, Kept d x → Kept d (match x.cmp.job with
      | some j => ((x.wrB CMP_STATUS.BUSY true).wr CMP_STATUS.CUR_CTX (j.ring - 384)).wr CMP_STATUS.CUR_FN j.fn
      | none => ((x.wrB CMP_STATUS.BUSY false).wr CMP_STATUS.CUR_CTX 0).wr CMP_STATUS.CUR_FN 0) := by
    intro x hx
    split
    · refine Kept.wrL ?_ (Kept.wrL ?_ (Kept.wrL ?_ hx)) <;> decide
    · refine Kept.wrL ?_ (Kept.wrL ?_ (Kept.wrL ?_ hx)) <;> decide
  exact key _ (Kept.wrL (f := CMP_CTX_STATE.STATE) (by decide) h)

theorem Kept.cmpMod {f : Cmp → Cmp} (h : Kept d e) : Kept d (e.cmpMod f) := h

theorem Kept.evIfL {f : Field} {c : Bool} (hf : f ∈ shownList) (h : Kept d e) : Kept d (e.evIf c f) := by
  cases c
  · exact h
  · exact h.wrL hf

theorem Kept.cmpKennel {p : Nat → Bool} (h : Kept d e) : Kept d (cmpKennel p e) := by
  unfold Machine.cmpKennel cmpEmpty
  refine Kept.cmpSync (Kept.evIfL (by decide) (Kept.cmpMod ?_))
  exact Kept.iteB (c := e.cmpDraining p) h h

theorem Kept.ringMod {r : Nat} {f : Ring → Ring} (h : Kept d e) : Kept d (e.ringMod r f) := h

theorem Kept.pmMod {f : Pmem → Pmem} (h : Kept d e) : Kept d (e.pmMod f) := h

theorem Kept.retireCell {k : Nat} (h : Kept d e) : Kept d (retireCell k e) := by
  unfold Machine.retireCell
  refine Kept.ite ?_ (Kept.wrL (by decide) (Kept.pmMod h))
  exact Kept.wrL (by decide) (Kept.wrL (by decide) (Kept.wrL (by decide) (Kept.pmMod (Kept.pmMod h))))

theorem Kept.retireWorn (h : Kept d e) : Kept d (retireWorn e) := by
  unfold Machine.retireWorn
  exact Kept.ite (Kept.foldl _ (fun k _ x hx => hx.retireCell) h) h

theorem Kept.pmemSync (h : Kept d e) : Kept d (pmemSync e) := by
  unfold Machine.pmemSync
  have key : ∀ x a b, Kept d x → Kept d (((x.wr PMC_FREE_CELLS.CELLS a).wr PMC_BE_CELLS.CELLS b)) := fun x a b hx =>
    Kept.wrL (by decide) (Kept.wrL (by decide) hx)
  refine Kept.ite (Kept.pmMod (Kept.wrL (f := PMC_EVENT.BE_XOFF) (by decide) ?_)) (Kept.ite (Kept.pmMod ?_) ?_) <;>
    exact Kept.pmMod (key _ _ _ (Kept.retireWorn (Kept.pmMod h)))

theorem Kept.purgeFrames {f : Nat} {xs : List Frm} (h : Kept d e) : Kept d (purgeFrames f xs e) := by
  have key : ∀ x n, Kept d x → Kept d (x.sat HIF_KENNEL_DROP.FRAMES n) := fun x n hx => Kept.wr (by decide) hx
  unfold Machine.purgeFrames
  exact Kept.pmemSync (key _ _ (Kept.pmMod h))

theorem Kept.purgeRings {f : Nat} (h : Kept d e) : Kept d (purgeRings f e) :=
  Kept.purgeFrames (Kept.foldl _ (fun _ _ _ hx => hx.ringMod) h)

theorem Kept.purgeQueues {f : Nat} (h : Kept d e) : Kept d (purgeQueues f e) := Kept.purgeFrames h

theorem Kept.purgePeg {f : Nat} {m : List Nat} (h : Kept d e) : Kept d (purgePeg f m e) := Kept.purgeFrames h

theorem Kept.kennelOne {f c : Nat} {all : Bool} (hf : f < 16) (h : Kept d e) : Kept d (kennelOne f c all e) := by
  unfold Machine.kennelOne
  refine Kept.ite ?_ h
  refine Kept.tagSync (Kept.cmpKennel (Kept.purgePeg (Kept.hostMod (Kept.purgeRings (Kept.purgeQueues (Kept.tagSync ?_))))))
  refine Kept.hostMod ?_
  have h1 : Kept d (Machine.setFnState f 2 (Machine.bumpEpoch f e)) := (h.bumpEpoch hf).setFnState
  exact Kept.hostMod (Kept.hostMod (Kept.ite h1 h1.cfgDefault))

theorem Kept.kennelAll {c : Nat} (h : Kept d e) : Kept d (kennelAll c e) := by
  unfold Machine.kennelAll
  exact Kept.forN (fun f hf x hx => hx.kennelOne hf) (Kept.wr (by decide) h)

theorem Kept.vfEnableOff {c : Nat} {all : Bool} (h : Kept d e) : Kept d (vfEnableOff c all e) := by
  unfold Machine.vfEnableOff
  refine Kept.forN (fun k hk x hx => Kept.ite hx.setFnState (hx.kennelOne (by omega))) ?_
  exact Kept.evIf (by decide) ((Kept.wr (by decide) (Kept.wr (by decide) h)))

theorem Kept.intReset (h : Kept d e) : Kept d (intReset e) := by
  unfold Machine.intReset
  refine Kept.forN (fun k hk x hx => hx.wr (Or.inr ?_)) (Kept.wr (by decide) h)
  show (0x80010 + 0x4 * k) / 0x4000 = 32
  omega

theorem Kept.convReset (h : Kept d e) : Kept d (convReset e) := by
  unfold Machine.convReset allFnClear linkOff
  refine Kept.intReset (Kept.forN (fun f _ x hx => Kept.hostMod (Kept.hostMod hx)) (Kept.cfgDefault
    (Kept.vfEnableOff (Kept.kennelAll (Kept.evIf (by decide) ?_)))))
  exact Kept.wr (by decide) (Kept.wr (by decide) (Kept.wr (by decide) h))

theorem Kept.refoutLost (h : Kept d e) : Kept d (refoutLost e) := by
  unfold Machine.refoutLost
  have h1 : Kept d ((e.wrB HIF_STATUS.REFOUT_READY false).hostMod fun h => { h with refFr := 0 }) :=
    Kept.hostMod (Kept.wr (by decide) h)
  exact Kept.iteB (Kept.hostMod h1.convReset) h1

/-! ### Settling -/

theorem Kept.refoutShow (h : Kept d e) : Kept d (refoutShow e) := by
  unfold Machine.refoutShow
  have h1 : Kept d (e.wrB CLK_STATUS.REFOUT_ON e.refoutRuns) := Kept.wrL (by decide) h
  exact Kept.ite h1.refoutLost h1

theorem Kept.mclkShow (h : Kept d e) : Kept d (mclkShow e) := Kept.wrL (by decide) h

theorem Kept.txdisShow {n : Nat} (hn : n < 4) (h : Kept d e) : Kept d (txdisShow n e) := by
  refine Kept.wrL ?_ h
  match n, hn with
  | 0, _ => decide
  | 1, _ => decide
  | 2, _ => decide
  | 3, _ => decide

theorem Kept.vfViews (h : Kept d e) : Kept d (vfViews e) := by
  unfold Machine.vfViews
  refine Kept.forN (fun k hk x hx => ?_) h
  refine Kept.wr (by decide) (Kept.wr (Or.inr ?_) (Kept.wr (Or.inr ?_) hx))
  · show (0x80104 + 0x4 * k) / 0x4000 = 32
    omega
  · show (0x80104 + 0x4 * k) / 0x4000 = 32
    omega

theorem Kept.runNext {f : Field} {o : Dev} (hf : f ∈ shownList) (h : Kept d e) : Kept d (runNext f o e) := by
  unfold Machine.runNext
  exact Kept.ite h (Kept.ite (h.wrL hf) (Kept.ite (h.wrL hf) h))

theorem Kept.runsShow {o : Dev} (h : Kept d e) : Kept d (runsShow o e) := by
  unfold Machine.runsShow
  have gate : ∀ n, n < 4 → CHn_GATE_STATUS.RUN n ∈ shownList := by decide
  have h1 : Kept d (if e.pd 1 then Machine.forN 4 (fun n => Machine.runNext (CHn_GATE_STATUS.RUN n) o) e else e) :=
    Kept.iteB (Kept.forN (fun n hn x hx => hx.runNext (gate n hn)) h) h
  have h2 := h1.runNext (f := LSH_STATUS.RUN) (o := o) (by decide)
  exact Kept.ite (h2.runNext (by decide)) h2

theorem Kept.pegLanesShow (h : Kept d e) : Kept d (pegLanesShow e) := by
  unfold Machine.pegLanesShow
  exact Kept.wrL (by decide) (Kept.wrL (by decide) h)

theorem Kept.viewsShow (h : Kept d e) : Kept d (viewsShow e) := by
  unfold Machine.viewsShow
  have h1 : Kept d ((Machine.pegLanesShow e).wrB HIF_STATUS.CRS ((Machine.pegLanesShow e).pd 4 && !(Machine.pegLanesShow e).booted)) :=
    Kept.wr (by decide) h.pegLanesShow
  have h2 (x : Dev) (hx : Kept d x) : Kept d (if x.pd 2 then x.wr PMC_ADMIT_LIMIT.LIMIT (admitLimit (x.rd PMC_ADMIT_LIMIT.PCT)) else x) :=
    Kept.iteB (Kept.wrL (by decide) hx) hx
  have h3 := h2 _ h1
  refine Kept.iteB (Kept.wrL (by decide) (Kept.vfViews (Kept.wrL (by decide) (Kept.forN (fun n hn x hx => hx.txdisShow hn) h3)))) h3

theorem Kept.faultUpdate (h : Kept d e) : Kept d (faultUpdate e) := by
  unfold Machine.faultUpdate
  have h1 : Kept d (e.wr SHD_FAULT.FAULT e.faultWord) := Kept.wrL (by decide) h
  exact Kept.iteB (Kept.ite h1 (Kept.wrL (by decide) (Kept.wrL (by decide) h1))) h

theorem Kept.intShow {o : Dev} (h : Kept d e) : Kept d (intShow o e) := by
  unfold Machine.intShow
  exact Kept.iteB (Kept.forN (fun b _ x hx => Kept.iteB hx.blockEvent hx) h) h

theorem Kept.gpoUpdate (h : Kept d e) : Kept d (gpoUpdate e) := Kept.wrL (by decide) (Kept.wrL (by decide) h)

theorem Kept.chgUpdate (h : Kept d e) : Kept d (chgUpdate e) := Kept.wrL (by decide) (Kept.wrL (by decide) h)

/-- What follows a command leaves every field that is not shown, and the parts that settling never touches. -/
theorem settle_kept (old d : Dev) : Kept d (settle old d) :=
  ((((((((Kept.refl d).runsShow).refoutShow).mclkShow).viewsShow).faultUpdate).intShow).gpoUpdate).chgUpdate

theorem settle_rd (old d : Dev) (g : Field) (h : shownField g = false) : (settle old d).rd g = d.rd g := (settle_kept old d).1 g h

theorem settle_on (old d : Dev) (g : Field) (h : shownField g = false) : (settle old d).on g = d.on g := by
  simp [Dev.on, settle_rd old d g h]

@[simp] theorem settle_sram (old d : Dev) : (settle old d).sram = d.sram := (settle_kept old d).2.1
@[simp] theorem settle_freeIx (old d : Dev) : (settle old d).freeIx = d.freeIx := (settle_kept old d).2.2.2.1
@[simp] theorem settle_hearth (old d : Dev) : (settle old d).hearth = d.hearth := (settle_kept old d).2.2.2.2.1
@[simp] theorem settle_rat (old d : Dev) : (settle old d).rat = d.rat := (settle_kept old d).2.2.2.2.2.1
@[simp] theorem settle_boot (old d : Dev) : (settle old d).boot = d.boot := (settle_kept old d).2.2.2.2.2.2.1
@[simp] theorem settle_tab (old d : Dev) : (settle old d).tab = d.tab := (settle_kept old d).2.2.2.2.2.2.2.1
@[simp] theorem settle_lsh (old d : Dev) : (settle old d).lsh = d.lsh := (settle_kept old d).2.2.2.2.2.2.2.2.1
@[simp] theorem settle_sap (old d : Dev) : (settle old d).sap = d.sap := (settle_kept old d).2.2.2.2.2.2.2.2.2.1
@[simp] theorem settle_spk (old d : Dev) : (settle old d).spk = d.spk := (settle_kept old d).2.2.2.2.2.2.2.2.2.2.1
@[simp] theorem settle_llb (old d : Dev) : (settle old d).llb = d.llb := (settle_kept old d).2.2.2.2.2.2.2.2.2.2.2.1
@[simp] theorem settle_fld (old d : Dev) : (settle old d).fld = d.fld := (settle_kept old d).2.2.2.2.2.2.2.2.2.2.2.2.1
@[simp] theorem settle_shd (old d : Dev) : (settle old d).shd = d.shd := (settle_kept old d).2.2.2.2.2.2.2.2.2.2.2.2.2

end Sys2Proof.Machine
end

