-- ==== Sys2Proof/Laws/State.lean ====
section
/-!
SUPPORT. Laws/State.lean: which part of the state each update changes, one lemma per part and update, and what the updates
of other parts leave of the fields of registers.
-/

namespace Sys2Proof.Machine

variable (d : Dev)

@[simp] theorem setWord_frozen (o v : Nat) : (d.setWord o v).frozen = d.frozen := rfl
@[simp] theorem setWord_latch (o v : Nat) : (d.setWord o v).latch = d.latch := rfl
@[simp] theorem setWord_sram (o v : Nat) : (d.setWord o v).sram = d.sram := rfl
@[simp] theorem setWord_outs (o v : Nat) : (d.setWord o v).outs = d.outs := rfl
@[simp] theorem setWord_freeIx (o v : Nat) : (d.setWord o v).freeIx = d.freeIx := rfl
@[simp] theorem setWord_hearth (o v : Nat) : (d.setWord o v).hearth = d.hearth := rfl
@[simp] theorem setWord_rat (o v : Nat) : (d.setWord o v).rat = d.rat := rfl
@[simp] theorem setWord_boot (o v : Nat) : (d.setWord o v).boot = d.boot := rfl
@[simp] theorem setWord_host (o v : Nat) : (d.setWord o v).host = d.host := rfl
@[simp] theorem setWord_chan (o v : Nat) : (d.setWord o v).chan = d.chan := rfl
@[simp] theorem setWord_tab (o v : Nat) : (d.setWord o v).tab = d.tab := rfl
@[simp] theorem setWord_pm (o v : Nat) : (d.setWord o v).pm = d.pm := rfl
@[simp] theorem setWord_peg (o v : Nat) : (d.setWord o v).peg = d.peg := rfl
@[simp] theorem setWord_lsh (o v : Nat) : (d.setWord o v).lsh = d.lsh := rfl
@[simp] theorem setWord_sap (o v : Nat) : (d.setWord o v).sap = d.sap := rfl
@[simp] theorem setWord_spk (o v : Nat) : (d.setWord o v).spk = d.spk := rfl
@[simp] theorem setWord_llb (o v : Nat) : (d.setWord o v).llb = d.llb := rfl
@[simp] theorem setWord_cmp (o v : Nat) : (d.setWord o v).cmp = d.cmp := rfl
@[simp] theorem setWord_fld (o v : Nat) : (d.setWord o v).fld = d.fld := rfl
@[simp] theorem setWord_shd (o v : Nat) : (d.setWord o v).shd = d.shd := rfl

@[simp] theorem wr_frozen (f : Field) (v : Nat) : (d.wr f v).frozen = d.frozen := rfl
@[simp] theorem wr_latch (f : Field) (v : Nat) : (d.wr f v).latch = d.latch := rfl
@[simp] theorem wr_sram (f : Field) (v : Nat) : (d.wr f v).sram = d.sram := rfl
@[simp] theorem wr_outs (f : Field) (v : Nat) : (d.wr f v).outs = d.outs := rfl
@[simp] theorem wr_freeIx (f : Field) (v : Nat) : (d.wr f v).freeIx = d.freeIx := rfl
@[simp] theorem wr_hearth (f : Field) (v : Nat) : (d.wr f v).hearth = d.hearth := rfl
@[simp] theorem wr_rat (f : Field) (v : Nat) : (d.wr f v).rat = d.rat := rfl
@[simp] theorem wr_boot (f : Field) (v : Nat) : (d.wr f v).boot = d.boot := rfl
@[simp] theorem wr_host (f : Field) (v : Nat) : (d.wr f v).host = d.host := rfl
@[simp] theorem wr_chan (f : Field) (v : Nat) : (d.wr f v).chan = d.chan := rfl
@[simp] theorem wr_tab (f : Field) (v : Nat) : (d.wr f v).tab = d.tab := rfl
@[simp] theorem wr_pm (f : Field) (v : Nat) : (d.wr f v).pm = d.pm := rfl
@[simp] theorem wr_peg (f : Field) (v : Nat) : (d.wr f v).peg = d.peg := rfl
@[simp] theorem wr_lsh (f : Field) (v : Nat) : (d.wr f v).lsh = d.lsh := rfl
@[simp] theorem wr_sap (f : Field) (v : Nat) : (d.wr f v).sap = d.sap := rfl
@[simp] theorem wr_spk (f : Field) (v : Nat) : (d.wr f v).spk = d.spk := rfl
@[simp] theorem wr_llb (f : Field) (v : Nat) : (d.wr f v).llb = d.llb := rfl
@[simp] theorem wr_cmp (f : Field) (v : Nat) : (d.wr f v).cmp = d.cmp := rfl
@[simp] theorem wr_fld (f : Field) (v : Nat) : (d.wr f v).fld = d.fld := rfl
@[simp] theorem wr_shd (f : Field) (v : Nat) : (d.wr f v).shd = d.shd := rfl

@[simp] theorem wrB_frozen (f : Field) (b : Bool) : (d.wrB f b).frozen = d.frozen := rfl
@[simp] theorem wrB_latch (f : Field) (b : Bool) : (d.wrB f b).latch = d.latch := rfl
@[simp] theorem wrB_sram (f : Field) (b : Bool) : (d.wrB f b).sram = d.sram := rfl
@[simp] theorem wrB_outs (f : Field) (b : Bool) : (d.wrB f b).outs = d.outs := rfl
@[simp] theorem wrB_freeIx (f : Field) (b : Bool) : (d.wrB f b).freeIx = d.freeIx := rfl
@[simp] theorem wrB_hearth (f : Field) (b : Bool) : (d.wrB f b).hearth = d.hearth := rfl
@[simp] theorem wrB_rat (f : Field) (b : Bool) : (d.wrB f b).rat = d.rat := rfl
@[simp] theorem wrB_boot (f : Field) (b : Bool) : (d.wrB f b).boot = d.boot := rfl
@[simp] theorem wrB_host (f : Field) (b : Bool) : (d.wrB f b).host = d.host := rfl
@[simp] theorem wrB_chan (f : Field) (b : Bool) : (d.wrB f b).chan = d.chan := rfl
@[simp] theorem wrB_tab (f : Field) (b : Bool) : (d.wrB f b).tab = d.tab := rfl
@[simp] theorem wrB_pm (f : Field) (b : Bool) : (d.wrB f b).pm = d.pm := rfl
@[simp] theorem wrB_peg (f : Field) (b : Bool) : (d.wrB f b).peg = d.peg := rfl
@[simp] theorem wrB_lsh (f : Field) (b : Bool) : (d.wrB f b).lsh = d.lsh := rfl
@[simp] theorem wrB_sap (f : Field) (b : Bool) : (d.wrB f b).sap = d.sap := rfl
@[simp] theorem wrB_spk (f : Field) (b : Bool) : (d.wrB f b).spk = d.spk := rfl
@[simp] theorem wrB_llb (f : Field) (b : Bool) : (d.wrB f b).llb = d.llb := rfl
@[simp] theorem wrB_cmp (f : Field) (b : Bool) : (d.wrB f b).cmp = d.cmp := rfl
@[simp] theorem wrB_fld (f : Field) (b : Bool) : (d.wrB f b).fld = d.fld := rfl
@[simp] theorem wrB_shd (f : Field) (b : Bool) : (d.wrB f b).shd = d.shd := rfl

@[simp] theorem ev_frozen (f : Field) : (d.ev f).frozen = d.frozen := rfl
@[simp] theorem ev_latch (f : Field) : (d.ev f).latch = d.latch := rfl
@[simp] theorem ev_sram (f : Field) : (d.ev f).sram = d.sram := rfl
@[simp] theorem ev_outs (f : Field) : (d.ev f).outs = d.outs := rfl
@[simp] theorem ev_freeIx (f : Field) : (d.ev f).freeIx = d.freeIx := rfl
@[simp] theorem ev_hearth (f : Field) : (d.ev f).hearth = d.hearth := rfl
@[simp] theorem ev_rat (f : Field) : (d.ev f).rat = d.rat := rfl
@[simp] theorem ev_boot (f : Field) : (d.ev f).boot = d.boot := rfl
@[simp] theorem ev_host (f : Field) : (d.ev f).host = d.host := rfl
@[simp] theorem ev_chan (f : Field) : (d.ev f).chan = d.chan := rfl
@[simp] theorem ev_tab (f : Field) : (d.ev f).tab = d.tab := rfl
@[simp] theorem ev_pm (f : Field) : (d.ev f).pm = d.pm := rfl
@[simp] theorem ev_peg (f : Field) : (d.ev f).peg = d.peg := rfl
@[simp] theorem ev_lsh (f : Field) : (d.ev f).lsh = d.lsh := rfl
@[simp] theorem ev_sap (f : Field) : (d.ev f).sap = d.sap := rfl
@[simp] theorem ev_spk (f : Field) : (d.ev f).spk = d.spk := rfl
@[simp] theorem ev_llb (f : Field) : (d.ev f).llb = d.llb := rfl
@[simp] theorem ev_cmp (f : Field) : (d.ev f).cmp = d.cmp := rfl
@[simp] theorem ev_fld (f : Field) : (d.ev f).fld = d.fld := rfl
@[simp] theorem ev_shd (f : Field) : (d.ev f).shd = d.shd := rfl

@[simp] theorem sat_frozen (f : Field) (n : Nat) : (d.sat f n).frozen = d.frozen := rfl
@[simp] theorem sat_latch (f : Field) (n : Nat) : (d.sat f n).latch = d.latch := rfl
@[simp] theorem sat_sram (f : Field) (n : Nat) : (d.sat f n).sram = d.sram := rfl
@[simp] theorem sat_outs (f : Field) (n : Nat) : (d.sat f n).outs = d.outs := rfl
@[simp] theorem sat_freeIx (f : Field) (n : Nat) : (d.sat f n).freeIx = d.freeIx := rfl
@[simp] theorem sat_hearth (f : Field) (n : Nat) : (d.sat f n).hearth = d.hearth := rfl
@[simp] theorem sat_rat (f : Field) (n : Nat) : (d.sat f n).rat = d.rat := rfl
@[simp] theorem sat_boot (f : Field) (n : Nat) : (d.sat f n).boot = d.boot := rfl
@[simp] theorem sat_host (f : Field) (n : Nat) : (d.sat f n).host = d.host := rfl
@[simp] theorem sat_chan (f : Field) (n : Nat) : (d.sat f n).chan = d.chan := rfl
@[simp] theorem sat_tab (f : Field) (n : Nat) : (d.sat f n).tab = d.tab := rfl
@[simp] theorem sat_pm (f : Field) (n : Nat) : (d.sat f n).pm = d.pm := rfl
@[simp] theorem sat_peg (f : Field) (n : Nat) : (d.sat f n).peg = d.peg := rfl
@[simp] theorem sat_lsh (f : Field) (n : Nat) : (d.sat f n).lsh = d.lsh := rfl
@[simp] theorem sat_sap (f : Field) (n : Nat) : (d.sat f n).sap = d.sap := rfl
@[simp] theorem sat_spk (f : Field) (n : Nat) : (d.sat f n).spk = d.spk := rfl
@[simp] theorem sat_llb (f : Field) (n : Nat) : (d.sat f n).llb = d.llb := rfl
@[simp] theorem sat_cmp (f : Field) (n : Nat) : (d.sat f n).cmp = d.cmp := rfl
@[simp] theorem sat_fld (f : Field) (n : Nat) : (d.sat f n).fld = d.fld := rfl
@[simp] theorem sat_shd (f : Field) (n : Nat) : (d.sat f n).shd = d.shd := rfl

@[simp] theorem wrap_frozen (f : Field) (n : Nat) : (d.wrap f n).frozen = d.frozen := rfl
@[simp] theorem wrap_latch (f : Field) (n : Nat) : (d.wrap f n).latch = d.latch := rfl
@[simp] theorem wrap_sram (f : Field) (n : Nat) : (d.wrap f n).sram = d.sram := rfl
@[simp] theorem wrap_outs (f : Field) (n : Nat) : (d.wrap f n).outs = d.outs := rfl
@[simp] theorem wrap_freeIx (f : Field) (n : Nat) : (d.wrap f n).freeIx = d.freeIx := rfl
@[simp] theorem wrap_hearth (f : Field) (n : Nat) : (d.wrap f n).hearth = d.hearth := rfl
@[simp] theorem wrap_rat (f : Field) (n : Nat) : (d.wrap f n).rat = d.rat := rfl
@[simp] theorem wrap_boot (f : Field) (n : Nat) : (d.wrap f n).boot = d.boot := rfl
@[simp] theorem wrap_host (f : Field) (n : Nat) : (d.wrap f n).host = d.host := rfl
@[simp] theorem wrap_chan (f : Field) (n : Nat) : (d.wrap f n).chan = d.chan := rfl
@[simp] theorem wrap_tab (f : Field) (n : Nat) : (d.wrap f n).tab = d.tab := rfl
@[simp] theorem wrap_pm (f : Field) (n : Nat) : (d.wrap f n).pm = d.pm := rfl
@[simp] theorem wrap_peg (f : Field) (n : Nat) : (d.wrap f n).peg = d.peg := rfl
@[simp] theorem wrap_lsh (f : Field) (n : Nat) : (d.wrap f n).lsh = d.lsh := rfl
@[simp] theorem wrap_sap (f : Field) (n : Nat) : (d.wrap f n).sap = d.sap := rfl
@[simp] theorem wrap_spk (f : Field) (n : Nat) : (d.wrap f n).spk = d.spk := rfl
@[simp] theorem wrap_llb (f : Field) (n : Nat) : (d.wrap f n).llb = d.llb := rfl
@[simp] theorem wrap_cmp (f : Field) (n : Nat) : (d.wrap f n).cmp = d.cmp := rfl
@[simp] theorem wrap_fld (f : Field) (n : Nat) : (d.wrap f n).fld = d.fld := rfl
@[simp] theorem wrap_shd (f : Field) (n : Nat) : (d.wrap f n).shd = d.shd := rfl

@[simp] theorem putBitOf_frozen (f : Field) (n : Nat) (b : Bool) : (d.putBitOf f n b).frozen = d.frozen := rfl
@[simp] theorem putBitOf_latch (f : Field) (n : Nat) (b : Bool) : (d.putBitOf f n b).latch = d.latch := rfl
@[simp] theorem putBitOf_sram (f : Field) (n : Nat) (b : Bool) : (d.putBitOf f n b).sram = d.sram := rfl
@[simp] theorem putBitOf_outs (f : Field) (n : Nat) (b : Bool) : (d.putBitOf f n b).outs = d.outs := rfl
@[simp] theorem putBitOf_freeIx (f : Field) (n : Nat) (b : Bool) : (d.putBitOf f n b).freeIx = d.freeIx := rfl
@[simp] theorem putBitOf_hearth (f : Field) (n : Nat) (b : Bool) : (d.putBitOf f n b).hearth = d.hearth := rfl
@[simp] theorem putBitOf_rat (f : Field) (n : Nat) (b : Bool) : (d.putBitOf f n b).rat = d.rat := rfl
@[simp] theorem putBitOf_boot (f : Field) (n : Nat) (b : Bool) : (d.putBitOf f n b).boot = d.boot := rfl
@[simp] theorem putBitOf_host (f : Field) (n : Nat) (b : Bool) : (d.putBitOf f n b).host = d.host := rfl
@[simp] theorem putBitOf_chan (f : Field) (n : Nat) (b : Bool) : (d.putBitOf f n b).chan = d.chan := rfl
@[simp] theorem putBitOf_tab (f : Field) (n : Nat) (b : Bool) : (d.putBitOf f n b).tab = d.tab := rfl
@[simp] theorem putBitOf_pm (f : Field) (n : Nat) (b : Bool) : (d.putBitOf f n b).pm = d.pm := rfl
@[simp] theorem putBitOf_peg (f : Field) (n : Nat) (b : Bool) : (d.putBitOf f n b).peg = d.peg := rfl
@[simp] theorem putBitOf_lsh (f : Field) (n : Nat) (b : Bool) : (d.putBitOf f n b).lsh = d.lsh := rfl
@[simp] theorem putBitOf_sap (f : Field) (n : Nat) (b : Bool) : (d.putBitOf f n b).sap = d.sap := rfl
@[simp] theorem putBitOf_spk (f : Field) (n : Nat) (b : Bool) : (d.putBitOf f n b).spk = d.spk := rfl
@[simp] theorem putBitOf_llb (f : Field) (n : Nat) (b : Bool) : (d.putBitOf f n b).llb = d.llb := rfl
@[simp] theorem putBitOf_cmp (f : Field) (n : Nat) (b : Bool) : (d.putBitOf f n b).cmp = d.cmp := rfl
@[simp] theorem putBitOf_fld (f : Field) (n : Nat) (b : Bool) : (d.putBitOf f n b).fld = d.fld := rfl
@[simp] theorem putBitOf_shd (f : Field) (n : Nat) (b : Bool) : (d.putBitOf f n b).shd = d.shd := rfl

@[simp] theorem emit_regs (o : Out) : (d.emit o).regs = d.regs := rfl
@[simp] theorem emit_frozen (o : Out) : (d.emit o).frozen = d.frozen := rfl
@[simp] theorem emit_latch (o : Out) : (d.emit o).latch = d.latch := rfl
@[simp] theorem emit_sram (o : Out) : (d.emit o).sram = d.sram := rfl
@[simp] theorem emit_freeIx (o : Out) : (d.emit o).freeIx = d.freeIx := rfl
@[simp] theorem emit_hearth (o : Out) : (d.emit o).hearth = d.hearth := rfl
@[simp] theorem emit_rat (o : Out) : (d.emit o).rat = d.rat := rfl
@[simp] theorem emit_boot (o : Out) : (d.emit o).boot = d.boot := rfl
@[simp] theorem emit_host (o : Out) : (d.emit o).host = d.host := rfl
@[simp] theorem emit_chan (o : Out) : (d.emit o).chan = d.chan := rfl
@[simp] theorem emit_tab (o : Out) : (d.emit o).tab = d.tab := rfl
@[simp] theorem emit_pm (o : Out) : (d.emit o).pm = d.pm := rfl
@[simp] theorem emit_peg (o : Out) : (d.emit o).peg = d.peg := rfl
@[simp] theorem emit_lsh (o : Out) : (d.emit o).lsh = d.lsh := rfl
@[simp] theorem emit_sap (o : Out) : (d.emit o).sap = d.sap := rfl
@[simp] theorem emit_spk (o : Out) : (d.emit o).spk = d.spk := rfl
@[simp] theorem emit_llb (o : Out) : (d.emit o).llb = d.llb := rfl
@[simp] theorem emit_cmp (o : Out) : (d.emit o).cmp = d.cmp := rfl
@[simp] theorem emit_fld (o : Out) : (d.emit o).fld = d.fld := rfl
@[simp] theorem emit_shd (o : Out) : (d.emit o).shd = d.shd := rfl
@[simp] theorem emit_word (o : Out) (p : Nat) : (d.emit o).word p = d.word p := rfl
@[simp] theorem emit_rd (o : Out) (g : Field) : (d.emit o).rd g = d.rd g := rfl
@[simp] theorem emit_on (o : Out) (g : Field) : (d.emit o).on g = d.on g := rfl
@[simp] theorem emit_bitOf (o : Out) (g : Field) (i : Nat) : (d.emit o).bitOf g i = d.bitOf g i := rfl
@[simp] theorem emit_pd (o : Out) (i : Nat) : (d.emit o).pd i = d.pd i := rfl

@[simp] theorem ramSet_regs (k v : Nat) : (d.ramSet k v).regs = d.regs := rfl
@[simp] theorem ramSet_frozen (k v : Nat) : (d.ramSet k v).frozen = d.frozen := rfl
@[simp] theorem ramSet_latch (k v : Nat) : (d.ramSet k v).latch = d.latch := rfl
@[simp] theorem ramSet_outs (k v : Nat) : (d.ramSet k v).outs = d.outs := rfl
@[simp] theorem ramSet_freeIx (k v : Nat) : (d.ramSet k v).freeIx = d.freeIx := rfl
@[simp] theorem ramSet_hearth (k v : Nat) : (d.ramSet k v).hearth = d.hearth := rfl
@[simp] theorem ramSet_rat (k v : Nat) : (d.ramSet k v).rat = d.rat := rfl
@[simp] theorem ramSet_boot (k v : Nat) : (d.ramSet k v).boot = d.boot := rfl
@[simp] theorem ramSet_host (k v : Nat) : (d.ramSet k v).host = d.host := rfl
@[simp] theorem ramSet_chan (k v : Nat) : (d.ramSet k v).chan = d.chan := rfl
@[simp] theorem ramSet_tab (k v : Nat) : (d.ramSet k v).tab = d.tab := rfl
@[simp] theorem ramSet_pm (k v : Nat) : (d.ramSet k v).pm = d.pm := rfl
@[simp] theorem ramSet_peg (k v : Nat) : (d.ramSet k v).peg = d.peg := rfl
@[simp] theorem ramSet_lsh (k v : Nat) : (d.ramSet k v).lsh = d.lsh := rfl
@[simp] theorem ramSet_sap (k v : Nat) : (d.ramSet k v).sap = d.sap := rfl
@[simp] theorem ramSet_spk (k v : Nat) : (d.ramSet k v).spk = d.spk := rfl
@[simp] theorem ramSet_llb (k v : Nat) : (d.ramSet k v).llb = d.llb := rfl
@[simp] theorem ramSet_cmp (k v : Nat) : (d.ramSet k v).cmp = d.cmp := rfl
@[simp] theorem ramSet_fld (k v : Nat) : (d.ramSet k v).fld = d.fld := rfl
@[simp] theorem ramSet_shd (k v : Nat) : (d.ramSet k v).shd = d.shd := rfl
@[simp] theorem ramSet_word (k v : Nat) (p : Nat) : (d.ramSet k v).word p = d.word p := rfl
@[simp] theorem ramSet_rd (k v : Nat) (g : Field) : (d.ramSet k v).rd g = d.rd g := rfl
@[simp] theorem ramSet_on (k v : Nat) (g : Field) : (d.ramSet k v).on g = d.on g := rfl
@[simp] theorem ramSet_bitOf (k v : Nat) (g : Field) (i : Nat) : (d.ramSet k v).bitOf g i = d.bitOf g i := rfl
@[simp] theorem ramSet_pd (k v : Nat) (i : Nat) : (d.ramSet k v).pd i = d.pd i := rfl

@[simp] theorem hearthMod_regs (f : Hearth → Hearth) : (d.hearthMod f).regs = d.regs := rfl
@[simp] theorem hearthMod_frozen (f : Hearth → Hearth) : (d.hearthMod f).frozen = d.frozen := rfl
@[simp] theorem hearthMod_latch (f : Hearth → Hearth) : (d.hearthMod f).latch = d.latch := rfl
@[simp] theorem hearthMod_sram (f : Hearth → Hearth) : (d.hearthMod f).sram = d.sram := rfl
@[simp] theorem hearthMod_outs (f : Hearth → Hearth) : (d.hearthMod f).outs = d.outs := rfl
@[simp] theorem hearthMod_freeIx (f : Hearth → Hearth) : (d.hearthMod f).freeIx = d.freeIx := rfl
@[simp] theorem hearthMod_hearth (f : Hearth → Hearth) : (d.hearthMod f).hearth = f d.hearth := rfl
@[simp] theorem hearthMod_rat (f : Hearth → Hearth) : (d.hearthMod f).rat = d.rat := rfl
@[simp] theorem hearthMod_boot (f : Hearth → Hearth) : (d.hearthMod f).boot = d.boot := rfl
@[simp] theorem hearthMod_host (f : Hearth → Hearth) : (d.hearthMod f).host = d.host := rfl
@[simp] theorem hearthMod_chan (f : Hearth → Hearth) : (d.hearthMod f).chan = d.chan := rfl
@[simp] theorem hearthMod_tab (f : Hearth → Hearth) : (d.hearthMod f).tab = d.tab := rfl
@[simp] theorem hearthMod_pm (f : Hearth → Hearth) : (d.hearthMod f).pm = d.pm := rfl
@[simp] theorem hearthMod_peg (f : Hearth → Hearth) : (d.hearthMod f).peg = d.peg := rfl
@[simp] theorem hearthMod_lsh (f : Hearth → Hearth) : (d.hearthMod f).lsh = d.lsh := rfl
@[simp] theorem hearthMod_sap (f : Hearth → Hearth) : (d.hearthMod f).sap = d.sap := rfl
@[simp] theorem hearthMod_spk (f : Hearth → Hearth) : (d.hearthMod f).spk = d.spk := rfl
@[simp] theorem hearthMod_llb (f : Hearth → Hearth) : (d.hearthMod f).llb = d.llb := rfl
@[simp] theorem hearthMod_cmp (f : Hearth → Hearth) : (d.hearthMod f).cmp = d.cmp := rfl
@[simp] theorem hearthMod_fld (f : Hearth → Hearth) : (d.hearthMod f).fld = d.fld := rfl
@[simp] theorem hearthMod_shd (f : Hearth → Hearth) : (d.hearthMod f).shd = d.shd := rfl
@[simp] theorem hearthMod_word (f : Hearth → Hearth) (p : Nat) : (d.hearthMod f).word p = d.word p := rfl
@[simp] theorem hearthMod_rd (f : Hearth → Hearth) (g : Field) : (d.hearthMod f).rd g = d.rd g := rfl
@[simp] theorem hearthMod_on (f : Hearth → Hearth) (g : Field) : (d.hearthMod f).on g = d.on g := rfl
@[simp] theorem hearthMod_bitOf (f : Hearth → Hearth) (g : Field) (i : Nat) : (d.hearthMod f).bitOf g i = d.bitOf g i := rfl
@[simp] theorem hearthMod_pd (f : Hearth → Hearth) (i : Nat) : (d.hearthMod f).pd i = d.pd i := rfl

@[simp] theorem ratMod_regs (f : Rat → Rat) : (d.ratMod f).regs = d.regs := rfl
@[simp] theorem ratMod_frozen (f : Rat → Rat) : (d.ratMod f).frozen = d.frozen := rfl
@[simp] theorem ratMod_latch (f : Rat → Rat) : (d.ratMod f).latch = d.latch := rfl
@[simp] theorem ratMod_sram (f : Rat → Rat) : (d.ratMod f).sram = d.sram := rfl
@[simp] theorem ratMod_outs (f : Rat → Rat) : (d.ratMod f).outs = d.outs := rfl
@[simp] theorem ratMod_freeIx (f : Rat → Rat) : (d.ratMod f).freeIx = d.freeIx := rfl
@[simp] theorem ratMod_hearth (f : Rat → Rat) : (d.ratMod f).hearth = d.hearth := rfl
@[simp] theorem ratMod_rat (f : Rat → Rat) : (d.ratMod f).rat = f d.rat := rfl
@[simp] theorem ratMod_boot (f : Rat → Rat) : (d.ratMod f).boot = d.boot := rfl
@[simp] theorem ratMod_host (f : Rat → Rat) : (d.ratMod f).host = d.host := rfl
@[simp] theorem ratMod_chan (f : Rat → Rat) : (d.ratMod f).chan = d.chan := rfl
@[simp] theorem ratMod_tab (f : Rat → Rat) : (d.ratMod f).tab = d.tab := rfl
@[simp] theorem ratMod_pm (f : Rat → Rat) : (d.ratMod f).pm = d.pm := rfl
@[simp] theorem ratMod_peg (f : Rat → Rat) : (d.ratMod f).peg = d.peg := rfl
@[simp] theorem ratMod_lsh (f : Rat → Rat) : (d.ratMod f).lsh = d.lsh := rfl
@[simp] theorem ratMod_sap (f : Rat → Rat) : (d.ratMod f).sap = d.sap := rfl
@[simp] theorem ratMod_spk (f : Rat → Rat) : (d.ratMod f).spk = d.spk := rfl
@[simp] theorem ratMod_llb (f : Rat → Rat) : (d.ratMod f).llb = d.llb := rfl
@[simp] theorem ratMod_cmp (f : Rat → Rat) : (d.ratMod f).cmp = d.cmp := rfl
@[simp] theorem ratMod_fld (f : Rat → Rat) : (d.ratMod f).fld = d.fld := rfl
@[simp] theorem ratMod_shd (f : Rat → Rat) : (d.ratMod f).shd = d.shd := rfl
@[simp] theorem ratMod_word (f : Rat → Rat) (p : Nat) : (d.ratMod f).word p = d.word p := rfl
@[simp] theorem ratMod_rd (f : Rat → Rat) (g : Field) : (d.ratMod f).rd g = d.rd g := rfl
@[simp] theorem ratMod_on (f : Rat → Rat) (g : Field) : (d.ratMod f).on g = d.on g := rfl
@[simp] theorem ratMod_bitOf (f : Rat → Rat) (g : Field) (i : Nat) : (d.ratMod f).bitOf g i = d.bitOf g i := rfl
@[simp] theorem ratMod_pd (f : Rat → Rat) (i : Nat) : (d.ratMod f).pd i = d.pd i := rfl

@[simp] theorem bootMod_regs (f : Boot → Boot) : (d.bootMod f).regs = d.regs := rfl
@[simp] theorem bootMod_frozen (f : Boot → Boot) : (d.bootMod f).frozen = d.frozen := rfl
@[simp] theorem bootMod_latch (f : Boot → Boot) : (d.bootMod f).latch = d.latch := rfl
@[simp] theorem bootMod_sram (f : Boot → Boot) : (d.bootMod f).sram = d.sram := rfl
@[simp] theorem bootMod_outs (f : Boot → Boot) : (d.bootMod f).outs = d.outs := rfl
@[simp] theorem bootMod_freeIx (f : Boot → Boot) : (d.bootMod f).freeIx = d.freeIx := rfl
@[simp] theorem bootMod_hearth (f : Boot → Boot) : (d.bootMod f).hearth = d.hearth := rfl
@[simp] theorem bootMod_rat (f : Boot → Boot) : (d.bootMod f).rat = d.rat := rfl
@[simp] theorem bootMod_boot (f : Boot → Boot) : (d.bootMod f).boot = f d.boot := rfl
@[simp] theorem bootMod_host (f : Boot → Boot) : (d.bootMod f).host = d.host := rfl
@[simp] theorem bootMod_chan (f : Boot → Boot) : (d.bootMod f).chan = d.chan := rfl
@[simp] theorem bootMod_tab (f : Boot → Boot) : (d.bootMod f).tab = d.tab := rfl
@[simp] theorem bootMod_pm (f : Boot → Boot) : (d.bootMod f).pm = d.pm := rfl
@[simp] theorem bootMod_peg (f : Boot → Boot) : (d.bootMod f).peg = d.peg := rfl
@[simp] theorem bootMod_lsh (f : Boot → Boot) : (d.bootMod f).lsh = d.lsh := rfl
@[simp] theorem bootMod_sap (f : Boot → Boot) : (d.bootMod f).sap = d.sap := rfl
@[simp] theorem bootMod_spk (f : Boot → Boot) : (d.bootMod f).spk = d.spk := rfl
@[simp] theorem bootMod_llb (f : Boot → Boot) : (d.bootMod f).llb = d.llb := rfl
@[simp] theorem bootMod_cmp (f : Boot → Boot) : (d.bootMod f).cmp = d.cmp := rfl
@[simp] theorem bootMod_fld (f : Boot → Boot) : (d.bootMod f).fld = d.fld := rfl
@[simp] theorem bootMod_shd (f : Boot → Boot) : (d.bootMod f).shd = d.shd := rfl
@[simp] theorem bootMod_word (f : Boot → Boot) (p : Nat) : (d.bootMod f).word p = d.word p := rfl
@[simp] theorem bootMod_rd (f : Boot → Boot) (g : Field) : (d.bootMod f).rd g = d.rd g := rfl
@[simp] theorem bootMod_on (f : Boot → Boot) (g : Field) : (d.bootMod f).on g = d.on g := rfl
@[simp] theorem bootMod_bitOf (f : Boot → Boot) (g : Field) (i : Nat) : (d.bootMod f).bitOf g i = d.bitOf g i := rfl
@[simp] theorem bootMod_pd (f : Boot → Boot) (i : Nat) : (d.bootMod f).pd i = d.pd i := rfl

@[simp] theorem hostMod_regs (f : HostIf → HostIf) : (d.hostMod f).regs = d.regs := rfl
@[simp] theorem hostMod_frozen (f : HostIf → HostIf) : (d.hostMod f).frozen = d.frozen := rfl
@[simp] theorem hostMod_latch (f : HostIf → HostIf) : (d.hostMod f).latch = d.latch := rfl
@[simp] theorem hostMod_sram (f : HostIf → HostIf) : (d.hostMod f).sram = d.sram := rfl
@[simp] theorem hostMod_outs (f : HostIf → HostIf) : (d.hostMod f).outs = d.outs := rfl
@[simp] theorem hostMod_freeIx (f : HostIf → HostIf) : (d.hostMod f).freeIx = d.freeIx := rfl
@[simp] theorem hostMod_hearth (f : HostIf → HostIf) : (d.hostMod f).hearth = d.hearth := rfl
@[simp] theorem hostMod_rat (f : HostIf → HostIf) : (d.hostMod f).rat = d.rat := rfl
@[simp] theorem hostMod_boot (f : HostIf → HostIf) : (d.hostMod f).boot = d.boot := rfl
@[simp] theorem hostMod_host (f : HostIf → HostIf) : (d.hostMod f).host = f d.host := rfl
@[simp] theorem hostMod_chan (f : HostIf → HostIf) : (d.hostMod f).chan = d.chan := rfl
@[simp] theorem hostMod_tab (f : HostIf → HostIf) : (d.hostMod f).tab = d.tab := rfl
@[simp] theorem hostMod_pm (f : HostIf → HostIf) : (d.hostMod f).pm = d.pm := rfl
@[simp] theorem hostMod_peg (f : HostIf → HostIf) : (d.hostMod f).peg = d.peg := rfl
@[simp] theorem hostMod_lsh (f : HostIf → HostIf) : (d.hostMod f).lsh = d.lsh := rfl
@[simp] theorem hostMod_sap (f : HostIf → HostIf) : (d.hostMod f).sap = d.sap := rfl
@[simp] theorem hostMod_spk (f : HostIf → HostIf) : (d.hostMod f).spk = d.spk := rfl
@[simp] theorem hostMod_llb (f : HostIf → HostIf) : (d.hostMod f).llb = d.llb := rfl
@[simp] theorem hostMod_cmp (f : HostIf → HostIf) : (d.hostMod f).cmp = d.cmp := rfl
@[simp] theorem hostMod_fld (f : HostIf → HostIf) : (d.hostMod f).fld = d.fld := rfl
@[simp] theorem hostMod_shd (f : HostIf → HostIf) : (d.hostMod f).shd = d.shd := rfl
@[simp] theorem hostMod_word (f : HostIf → HostIf) (p : Nat) : (d.hostMod f).word p = d.word p := rfl
@[simp] theorem hostMod_rd (f : HostIf → HostIf) (g : Field) : (d.hostMod f).rd g = d.rd g := rfl
@[simp] theorem hostMod_on (f : HostIf → HostIf) (g : Field) : (d.hostMod f).on g = d.on g := rfl
@[simp] theorem hostMod_bitOf (f : HostIf → HostIf) (g : Field) (i : Nat) : (d.hostMod f).bitOf g i = d.bitOf g i := rfl
@[simp] theorem hostMod_pd (f : HostIf → HostIf) (i : Nat) : (d.hostMod f).pd i = d.pd i := rfl

@[simp] theorem chMod_regs (n : Nat) (f : Chan → Chan) : (d.chMod n f).regs = d.regs := rfl
@[simp] theorem chMod_frozen (n : Nat) (f : Chan → Chan) : (d.chMod n f).frozen = d.frozen := rfl
@[simp] theorem chMod_latch (n : Nat) (f : Chan → Chan) : (d.chMod n f).latch = d.latch := rfl
@[simp] theorem chMod_sram (n : Nat) (f : Chan → Chan) : (d.chMod n f).sram = d.sram := rfl
@[simp] theorem chMod_outs (n : Nat) (f : Chan → Chan) : (d.chMod n f).outs = d.outs := rfl
@[simp] theorem chMod_freeIx (n : Nat) (f : Chan → Chan) : (d.chMod n f).freeIx = d.freeIx := rfl
@[simp] theorem chMod_hearth (n : Nat) (f : Chan → Chan) : (d.chMod n f).hearth = d.hearth := rfl
@[simp] theorem chMod_rat (n : Nat) (f : Chan → Chan) : (d.chMod n f).rat = d.rat := rfl
@[simp] theorem chMod_boot (n : Nat) (f : Chan → Chan) : (d.chMod n f).boot = d.boot := rfl
@[simp] theorem chMod_host (n : Nat) (f : Chan → Chan) : (d.chMod n f).host = d.host := rfl
@[simp] theorem chMod_tab (n : Nat) (f : Chan → Chan) : (d.chMod n f).tab = d.tab := rfl
@[simp] theorem chMod_pm (n : Nat) (f : Chan → Chan) : (d.chMod n f).pm = d.pm := rfl
@[simp] theorem chMod_peg (n : Nat) (f : Chan → Chan) : (d.chMod n f).peg = d.peg := rfl
@[simp] theorem chMod_lsh (n : Nat) (f : Chan → Chan) : (d.chMod n f).lsh = d.lsh := rfl
@[simp] theorem chMod_sap (n : Nat) (f : Chan → Chan) : (d.chMod n f).sap = d.sap := rfl
@[simp] theorem chMod_spk (n : Nat) (f : Chan → Chan) : (d.chMod n f).spk = d.spk := rfl
@[simp] theorem chMod_llb (n : Nat) (f : Chan → Chan) : (d.chMod n f).llb = d.llb := rfl
@[simp] theorem chMod_cmp (n : Nat) (f : Chan → Chan) : (d.chMod n f).cmp = d.cmp := rfl
@[simp] theorem chMod_fld (n : Nat) (f : Chan → Chan) : (d.chMod n f).fld = d.fld := rfl
@[simp] theorem chMod_shd (n : Nat) (f : Chan → Chan) : (d.chMod n f).shd = d.shd := rfl
@[simp] theorem chMod_word (n : Nat) (f : Chan → Chan) (p : Nat) : (d.chMod n f).word p = d.word p := rfl
@[simp] theorem chMod_rd (n : Nat) (f : Chan → Chan) (g : Field) : (d.chMod n f).rd g = d.rd g := rfl
@[simp] theorem chMod_on (n : Nat) (f : Chan → Chan) (g : Field) : (d.chMod n f).on g = d.on g := rfl
@[simp] theorem chMod_bitOf (n : Nat) (f : Chan → Chan) (g : Field) (i : Nat) : (d.chMod n f).bitOf g i = d.bitOf g i := rfl
@[simp] theorem chMod_pd (n : Nat) (f : Chan → Chan) (i : Nat) : (d.chMod n f).pd i = d.pd i := rfl

@[simp] theorem tabMod_regs (f : Tables → Tables) : (d.tabMod f).regs = d.regs := rfl
@[simp] theorem tabMod_frozen (f : Tables → Tables) : (d.tabMod f).frozen = d.frozen := rfl
@[simp] theorem tabMod_latch (f : Tables → Tables) : (d.tabMod f).latch = d.latch := rfl
@[simp] theorem tabMod_sram (f : Tables → Tables) : (d.tabMod f).sram = d.sram := rfl
@[simp] theorem tabMod_outs (f : Tables → Tables) : (d.tabMod f).outs = d.outs := rfl
@[simp] theorem tabMod_freeIx (f : Tables → Tables) : (d.tabMod f).freeIx = d.freeIx := rfl
@[simp] theorem tabMod_hearth (f : Tables → Tables) : (d.tabMod f).hearth = d.hearth := rfl
@[simp] theorem tabMod_rat (f : Tables → Tables) : (d.tabMod f).rat = d.rat := rfl
@[simp] theorem tabMod_boot (f : Tables → Tables) : (d.tabMod f).boot = d.boot := rfl
@[simp] theorem tabMod_host (f : Tables → Tables) : (d.tabMod f).host = d.host := rfl
@[simp] theorem tabMod_chan (f : Tables → Tables) : (d.tabMod f).chan = d.chan := rfl
@[simp] theorem tabMod_tab (f : Tables → Tables) : (d.tabMod f).tab = f d.tab := rfl
@[simp] theorem tabMod_pm (f : Tables → Tables) : (d.tabMod f).pm = d.pm := rfl
@[simp] theorem tabMod_peg (f : Tables → Tables) : (d.tabMod f).peg = d.peg := rfl
@[simp] theorem tabMod_lsh (f : Tables → Tables) : (d.tabMod f).lsh = d.lsh := rfl
@[simp] theorem tabMod_sap (f : Tables → Tables) : (d.tabMod f).sap = d.sap := rfl
@[simp] theorem tabMod_spk (f : Tables → Tables) : (d.tabMod f).spk = d.spk := rfl
@[simp] theorem tabMod_llb (f : Tables → Tables) : (d.tabMod f).llb = d.llb := rfl
@[simp] theorem tabMod_cmp (f : Tables → Tables) : (d.tabMod f).cmp = d.cmp := rfl
@[simp] theorem tabMod_fld (f : Tables → Tables) : (d.tabMod f).fld = d.fld := rfl
@[simp] theorem tabMod_shd (f : Tables → Tables) : (d.tabMod f).shd = d.shd := rfl
@[simp] theorem tabMod_word (f : Tables → Tables) (p : Nat) : (d.tabMod f).word p = d.word p := rfl
@[simp] theorem tabMod_rd (f : Tables → Tables) (g : Field) : (d.tabMod f).rd g = d.rd g := rfl
@[simp] theorem tabMod_on (f : Tables → Tables) (g : Field) : (d.tabMod f).on g = d.on g := rfl
@[simp] theorem tabMod_bitOf (f : Tables → Tables) (g : Field) (i : Nat) : (d.tabMod f).bitOf g i = d.bitOf g i := rfl
@[simp] theorem tabMod_pd (f : Tables → Tables) (i : Nat) : (d.tabMod f).pd i = d.pd i := rfl

@[simp] theorem pmMod_regs (f : Pmem → Pmem) : (d.pmMod f).regs = d.regs := rfl
@[simp] theorem pmMod_frozen (f : Pmem → Pmem) : (d.pmMod f).frozen = d.frozen := rfl
@[simp] theorem pmMod_latch (f : Pmem → Pmem) : (d.pmMod f).latch = d.latch := rfl
@[simp] theorem pmMod_sram (f : Pmem → Pmem) : (d.pmMod f).sram = d.sram := rfl
@[simp] theorem pmMod_outs (f : Pmem → Pmem) : (d.pmMod f).outs = d.outs := rfl
@[simp] theorem pmMod_freeIx (f : Pmem → Pmem) : (d.pmMod f).freeIx = d.freeIx := rfl
@[simp] theorem pmMod_hearth (f : Pmem → Pmem) : (d.pmMod f).hearth = d.hearth := rfl
@[simp] theorem pmMod_rat (f : Pmem → Pmem) : (d.pmMod f).rat = d.rat := rfl
@[simp] theorem pmMod_boot (f : Pmem → Pmem) : (d.pmMod f).boot = d.boot := rfl
@[simp] theorem pmMod_host (f : Pmem → Pmem) : (d.pmMod f).host = d.host := rfl
@[simp] theorem pmMod_chan (f : Pmem → Pmem) : (d.pmMod f).chan = d.chan := rfl
@[simp] theorem pmMod_tab (f : Pmem → Pmem) : (d.pmMod f).tab = d.tab := rfl
@[simp] theorem pmMod_pm (f : Pmem → Pmem) : (d.pmMod f).pm = f d.pm := rfl
@[simp] theorem pmMod_peg (f : Pmem → Pmem) : (d.pmMod f).peg = d.peg := rfl
@[simp] theorem pmMod_lsh (f : Pmem → Pmem) : (d.pmMod f).lsh = d.lsh := rfl
@[simp] theorem pmMod_sap (f : Pmem → Pmem) : (d.pmMod f).sap = d.sap := rfl
@[simp] theorem pmMod_spk (f : Pmem → Pmem) : (d.pmMod f).spk = d.spk := rfl
@[simp] theorem pmMod_llb (f : Pmem → Pmem) : (d.pmMod f).llb = d.llb := rfl
@[simp] theorem pmMod_cmp (f : Pmem → Pmem) : (d.pmMod f).cmp = d.cmp := rfl
@[simp] theorem pmMod_fld (f : Pmem → Pmem) : (d.pmMod f).fld = d.fld := rfl
@[simp] theorem pmMod_shd (f : Pmem → Pmem) : (d.pmMod f).shd = d.shd := rfl
@[simp] theorem pmMod_word (f : Pmem → Pmem) (p : Nat) : (d.pmMod f).word p = d.word p := rfl
@[simp] theorem pmMod_rd (f : Pmem → Pmem) (g : Field) : (d.pmMod f).rd g = d.rd g := rfl
@[simp] theorem pmMod_on (f : Pmem → Pmem) (g : Field) : (d.pmMod f).on g = d.on g := rfl
@[simp] theorem pmMod_bitOf (f : Pmem → Pmem) (g : Field) (i : Nat) : (d.pmMod f).bitOf g i = d.bitOf g i := rfl
@[simp] theorem pmMod_pd (f : Pmem → Pmem) (i : Nat) : (d.pmMod f).pd i = d.pd i := rfl

@[simp] theorem pegMod_regs (f : Peg → Peg) : (d.pegMod f).regs = d.regs := rfl
@[simp] theorem pegMod_frozen (f : Peg → Peg) : (d.pegMod f).frozen = d.frozen := rfl
@[simp] theorem pegMod_latch (f : Peg → Peg) : (d.pegMod f).latch = d.latch := rfl
@[simp] theorem pegMod_sram (f : Peg → Peg) : (d.pegMod f).sram = d.sram := rfl
@[simp] theorem pegMod_outs (f : Peg → Peg) : (d.pegMod f).outs = d.outs := rfl
@[simp] theorem pegMod_freeIx (f : Peg → Peg) : (d.pegMod f).freeIx = d.freeIx := rfl
@[simp] theorem pegMod_hearth (f : Peg → Peg) : (d.pegMod f).hearth = d.hearth := rfl
@[simp] theorem pegMod_rat (f : Peg → Peg) : (d.pegMod f).rat = d.rat := rfl
@[simp] theorem pegMod_boot (f : Peg → Peg) : (d.pegMod f).boot = d.boot := rfl
@[simp] theorem pegMod_host (f : Peg → Peg) : (d.pegMod f).host = d.host := rfl
@[simp] theorem pegMod_chan (f : Peg → Peg) : (d.pegMod f).chan = d.chan := rfl
@[simp] theorem pegMod_tab (f : Peg → Peg) : (d.pegMod f).tab = d.tab := rfl
@[simp] theorem pegMod_pm (f : Peg → Peg) : (d.pegMod f).pm = d.pm := rfl
@[simp] theorem pegMod_peg (f : Peg → Peg) : (d.pegMod f).peg = f d.peg := rfl
@[simp] theorem pegMod_lsh (f : Peg → Peg) : (d.pegMod f).lsh = d.lsh := rfl
@[simp] theorem pegMod_sap (f : Peg → Peg) : (d.pegMod f).sap = d.sap := rfl
@[simp] theorem pegMod_spk (f : Peg → Peg) : (d.pegMod f).spk = d.spk := rfl
@[simp] theorem pegMod_llb (f : Peg → Peg) : (d.pegMod f).llb = d.llb := rfl
@[simp] theorem pegMod_cmp (f : Peg → Peg) : (d.pegMod f).cmp = d.cmp := rfl
@[simp] theorem pegMod_fld (f : Peg → Peg) : (d.pegMod f).fld = d.fld := rfl
@[simp] theorem pegMod_shd (f : Peg → Peg) : (d.pegMod f).shd = d.shd := rfl
@[simp] theorem pegMod_word (f : Peg → Peg) (p : Nat) : (d.pegMod f).word p = d.word p := rfl
@[simp] theorem pegMod_rd (f : Peg → Peg) (g : Field) : (d.pegMod f).rd g = d.rd g := rfl
@[simp] theorem pegMod_on (f : Peg → Peg) (g : Field) : (d.pegMod f).on g = d.on g := rfl
@[simp] theorem pegMod_bitOf (f : Peg → Peg) (g : Field) (i : Nat) : (d.pegMod f).bitOf g i = d.bitOf g i := rfl
@[simp] theorem pegMod_pd (f : Peg → Peg) (i : Nat) : (d.pegMod f).pd i = d.pd i := rfl

@[simp] theorem lshMod_regs (f : Leash → Leash) : (d.lshMod f).regs = d.regs := rfl
@[simp] theorem lshMod_frozen (f : Leash → Leash) : (d.lshMod f).frozen = d.frozen := rfl
@[simp] theorem lshMod_latch (f : Leash → Leash) : (d.lshMod f).latch = d.latch := rfl
@[simp] theorem lshMod_sram (f : Leash → Leash) : (d.lshMod f).sram = d.sram := rfl
@[simp] theorem lshMod_outs (f : Leash → Leash) : (d.lshMod f).outs = d.outs := rfl
@[simp] theorem lshMod_freeIx (f : Leash → Leash) : (d.lshMod f).freeIx = d.freeIx := rfl
@[simp] theorem lshMod_hearth (f : Leash → Leash) : (d.lshMod f).hearth = d.hearth := rfl
@[simp] theorem lshMod_rat (f : Leash → Leash) : (d.lshMod f).rat = d.rat := rfl
@[simp] theorem lshMod_boot (f : Leash → Leash) : (d.lshMod f).boot = d.boot := rfl
@[simp] theorem lshMod_host (f : Leash → Leash) : (d.lshMod f).host = d.host := rfl
@[simp] theorem lshMod_chan (f : Leash → Leash) : (d.lshMod f).chan = d.chan := rfl
@[simp] theorem lshMod_tab (f : Leash → Leash) : (d.lshMod f).tab = d.tab := rfl
@[simp] theorem lshMod_pm (f : Leash → Leash) : (d.lshMod f).pm = d.pm := rfl
@[simp] theorem lshMod_peg (f : Leash → Leash) : (d.lshMod f).peg = d.peg := rfl
@[simp] theorem lshMod_lsh (f : Leash → Leash) : (d.lshMod f).lsh = f d.lsh := rfl
@[simp] theorem lshMod_sap (f : Leash → Leash) : (d.lshMod f).sap = d.sap := rfl
@[simp] theorem lshMod_spk (f : Leash → Leash) : (d.lshMod f).spk = d.spk := rfl
@[simp] theorem lshMod_llb (f : Leash → Leash) : (d.lshMod f).llb = d.llb := rfl
@[simp] theorem lshMod_cmp (f : Leash → Leash) : (d.lshMod f).cmp = d.cmp := rfl
@[simp] theorem lshMod_fld (f : Leash → Leash) : (d.lshMod f).fld = d.fld := rfl
@[simp] theorem lshMod_shd (f : Leash → Leash) : (d.lshMod f).shd = d.shd := rfl
@[simp] theorem lshMod_word (f : Leash → Leash) (p : Nat) : (d.lshMod f).word p = d.word p := rfl
@[simp] theorem lshMod_rd (f : Leash → Leash) (g : Field) : (d.lshMod f).rd g = d.rd g := rfl
@[simp] theorem lshMod_on (f : Leash → Leash) (g : Field) : (d.lshMod f).on g = d.on g := rfl
@[simp] theorem lshMod_bitOf (f : Leash → Leash) (g : Field) (i : Nat) : (d.lshMod f).bitOf g i = d.bitOf g i := rfl
@[simp] theorem lshMod_pd (f : Leash → Leash) (i : Nat) : (d.lshMod f).pd i = d.pd i := rfl

@[simp] theorem spkMod_regs (f : Spk → Spk) : (d.spkMod f).regs = d.regs := rfl
@[simp] theorem spkMod_frozen (f : Spk → Spk) : (d.spkMod f).frozen = d.frozen := rfl
@[simp] theorem spkMod_latch (f : Spk → Spk) : (d.spkMod f).latch = d.latch := rfl
@[simp] theorem spkMod_sram (f : Spk → Spk) : (d.spkMod f).sram = d.sram := rfl
@[simp] theorem spkMod_outs (f : Spk → Spk) : (d.spkMod f).outs = d.outs := rfl
@[simp] theorem spkMod_freeIx (f : Spk → Spk) : (d.spkMod f).freeIx = d.freeIx := rfl
@[simp] theorem spkMod_hearth (f : Spk → Spk) : (d.spkMod f).hearth = d.hearth := rfl
@[simp] theorem spkMod_rat (f : Spk → Spk) : (d.spkMod f).rat = d.rat := rfl
@[simp] theorem spkMod_boot (f : Spk → Spk) : (d.spkMod f).boot = d.boot := rfl
@[simp] theorem spkMod_host (f : Spk → Spk) : (d.spkMod f).host = d.host := rfl
@[simp] theorem spkMod_chan (f : Spk → Spk) : (d.spkMod f).chan = d.chan := rfl
@[simp] theorem spkMod_tab (f : Spk → Spk) : (d.spkMod f).tab = d.tab := rfl
@[simp] theorem spkMod_pm (f : Spk → Spk) : (d.spkMod f).pm = d.pm := rfl
@[simp] theorem spkMod_peg (f : Spk → Spk) : (d.spkMod f).peg = d.peg := rfl
@[simp] theorem spkMod_lsh (f : Spk → Spk) : (d.spkMod f).lsh = d.lsh := rfl
@[simp] theorem spkMod_sap (f : Spk → Spk) : (d.spkMod f).sap = d.sap := rfl
@[simp] theorem spkMod_spk (f : Spk → Spk) : (d.spkMod f).spk = f d.spk := rfl
@[simp] theorem spkMod_llb (f : Spk → Spk) : (d.spkMod f).llb = d.llb := rfl
@[simp] theorem spkMod_cmp (f : Spk → Spk) : (d.spkMod f).cmp = d.cmp := rfl
@[simp] theorem spkMod_fld (f : Spk → Spk) : (d.spkMod f).fld = d.fld := rfl
@[simp] theorem spkMod_shd (f : Spk → Spk) : (d.spkMod f).shd = d.shd := rfl
@[simp] theorem spkMod_word (f : Spk → Spk) (p : Nat) : (d.spkMod f).word p = d.word p := rfl
@[simp] theorem spkMod_rd (f : Spk → Spk) (g : Field) : (d.spkMod f).rd g = d.rd g := rfl
@[simp] theorem spkMod_on (f : Spk → Spk) (g : Field) : (d.spkMod f).on g = d.on g := rfl
@[simp] theorem spkMod_bitOf (f : Spk → Spk) (g : Field) (i : Nat) : (d.spkMod f).bitOf g i = d.bitOf g i := rfl
@[simp] theorem spkMod_pd (f : Spk → Spk) (i : Nat) : (d.spkMod f).pd i = d.pd i := rfl

@[simp] theorem llbMod_regs (f : Llb → Llb) : (d.llbMod f).regs = d.regs := rfl
@[simp] theorem llbMod_frozen (f : Llb → Llb) : (d.llbMod f).frozen = d.frozen := rfl
@[simp] theorem llbMod_latch (f : Llb → Llb) : (d.llbMod f).latch = d.latch := rfl
@[simp] theorem llbMod_sram (f : Llb → Llb) : (d.llbMod f).sram = d.sram := rfl
@[simp] theorem llbMod_outs (f : Llb → Llb) : (d.llbMod f).outs = d.outs := rfl
@[simp] theorem llbMod_freeIx (f : Llb → Llb) : (d.llbMod f).freeIx = d.freeIx := rfl
@[simp] theorem llbMod_hearth (f : Llb → Llb) : (d.llbMod f).hearth = d.hearth := rfl
@[simp] theorem llbMod_rat (f : Llb → Llb) : (d.llbMod f).rat = d.rat := rfl
@[simp] theorem llbMod_boot (f : Llb → Llb) : (d.llbMod f).boot = d.boot := rfl
@[simp] theorem llbMod_host (f : Llb → Llb) : (d.llbMod f).host = d.host := rfl
@[simp] theorem llbMod_chan (f : Llb → Llb) : (d.llbMod f).chan = d.chan := rfl
@[simp] theorem llbMod_tab (f : Llb → Llb) : (d.llbMod f).tab = d.tab := rfl
@[simp] theorem llbMod_pm (f : Llb → Llb) : (d.llbMod f).pm = d.pm := rfl
@[simp] theorem llbMod_peg (f : Llb → Llb) : (d.llbMod f).peg = d.peg := rfl
@[simp] theorem llbMod_lsh (f : Llb → Llb) : (d.llbMod f).lsh = d.lsh := rfl
@[simp] theorem llbMod_sap (f : Llb → Llb) : (d.llbMod f).sap = d.sap := rfl
@[simp] theorem llbMod_spk (f : Llb → Llb) : (d.llbMod f).spk = d.spk := rfl
@[simp] theorem llbMod_llb (f : Llb → Llb) : (d.llbMod f).llb = f d.llb := rfl
@[simp] theorem llbMod_cmp (f : Llb → Llb) : (d.llbMod f).cmp = d.cmp := rfl
@[simp] theorem llbMod_fld (f : Llb → Llb) : (d.llbMod f).fld = d.fld := rfl
@[simp] theorem llbMod_shd (f : Llb → Llb) : (d.llbMod f).shd = d.shd := rfl
@[simp] theorem llbMod_word (f : Llb → Llb) (p : Nat) : (d.llbMod f).word p = d.word p := rfl
@[simp] theorem llbMod_rd (f : Llb → Llb) (g : Field) : (d.llbMod f).rd g = d.rd g := rfl
@[simp] theorem llbMod_on (f : Llb → Llb) (g : Field) : (d.llbMod f).on g = d.on g := rfl
@[simp] theorem llbMod_bitOf (f : Llb → Llb) (g : Field) (i : Nat) : (d.llbMod f).bitOf g i = d.bitOf g i := rfl
@[simp] theorem llbMod_pd (f : Llb → Llb) (i : Nat) : (d.llbMod f).pd i = d.pd i := rfl

@[simp] theorem cmpMod_regs (f : Cmp → Cmp) : (d.cmpMod f).regs = d.regs := rfl
@[simp] theorem cmpMod_frozen (f : Cmp → Cmp) : (d.cmpMod f).frozen = d.frozen := rfl
@[simp] theorem cmpMod_latch (f : Cmp → Cmp) : (d.cmpMod f).latch = d.latch := rfl
@[simp] theorem cmpMod_sram (f : Cmp → Cmp) : (d.cmpMod f).sram = d.sram := rfl
@[simp] theorem cmpMod_outs (f : Cmp → Cmp) : (d.cmpMod f).outs = d.outs := rfl
@[simp] theorem cmpMod_freeIx (f : Cmp → Cmp) : (d.cmpMod f).freeIx = d.freeIx := rfl
@[simp] theorem cmpMod_hearth (f : Cmp → Cmp) : (d.cmpMod f).hearth = d.hearth := rfl
@[simp] theorem cmpMod_rat (f : Cmp → Cmp) : (d.cmpMod f).rat = d.rat := rfl
@[simp] theorem cmpMod_boot (f : Cmp → Cmp) : (d.cmpMod f).boot = d.boot := rfl
@[simp] theorem cmpMod_host (f : Cmp → Cmp) : (d.cmpMod f).host = d.host := rfl
@[simp] theorem cmpMod_chan (f : Cmp → Cmp) : (d.cmpMod f).chan = d.chan := rfl
@[simp] theorem cmpMod_tab (f : Cmp → Cmp) : (d.cmpMod f).tab = d.tab := rfl
@[simp] theorem cmpMod_pm (f : Cmp → Cmp) : (d.cmpMod f).pm = d.pm := rfl
@[simp] theorem cmpMod_peg (f : Cmp → Cmp) : (d.cmpMod f).peg = d.peg := rfl
@[simp] theorem cmpMod_lsh (f : Cmp → Cmp) : (d.cmpMod f).lsh = d.lsh := rfl
@[simp] theorem cmpMod_sap (f : Cmp → Cmp) : (d.cmpMod f).sap = d.sap := rfl
@[simp] theorem cmpMod_spk (f : Cmp → Cmp) : (d.cmpMod f).spk = d.spk := rfl
@[simp] theorem cmpMod_llb (f : Cmp → Cmp) : (d.cmpMod f).llb = d.llb := rfl
@[simp] theorem cmpMod_cmp (f : Cmp → Cmp) : (d.cmpMod f).cmp = f d.cmp := rfl
@[simp] theorem cmpMod_fld (f : Cmp → Cmp) : (d.cmpMod f).fld = d.fld := rfl
@[simp] theorem cmpMod_shd (f : Cmp → Cmp) : (d.cmpMod f).shd = d.shd := rfl
@[simp] theorem cmpMod_word (f : Cmp → Cmp) (p : Nat) : (d.cmpMod f).word p = d.word p := rfl
@[simp] theorem cmpMod_rd (f : Cmp → Cmp) (g : Field) : (d.cmpMod f).rd g = d.rd g := rfl
@[simp] theorem cmpMod_on (f : Cmp → Cmp) (g : Field) : (d.cmpMod f).on g = d.on g := rfl
@[simp] theorem cmpMod_bitOf (f : Cmp → Cmp) (g : Field) (i : Nat) : (d.cmpMod f).bitOf g i = d.bitOf g i := rfl
@[simp] theorem cmpMod_pd (f : Cmp → Cmp) (i : Nat) : (d.cmpMod f).pd i = d.pd i := rfl

@[simp] theorem fldMod_regs (f : Fld → Fld) : (d.fldMod f).regs = d.regs := rfl
@[simp] theorem fldMod_frozen (f : Fld → Fld) : (d.fldMod f).frozen = d.frozen := rfl
@[simp] theorem fldMod_latch (f : Fld → Fld) : (d.fldMod f).latch = d.latch := rfl
@[simp] theorem fldMod_sram (f : Fld → Fld) : (d.fldMod f).sram = d.sram := rfl
@[simp] theorem fldMod_outs (f : Fld → Fld) : (d.fldMod f).outs = d.outs := rfl
@[simp] theorem fldMod_freeIx (f : Fld → Fld) : (d.fldMod f).freeIx = d.freeIx := rfl
@[simp] theorem fldMod_hearth (f : Fld → Fld) : (d.fldMod f).hearth = d.hearth := rfl
@[simp] theorem fldMod_rat (f : Fld → Fld) : (d.fldMod f).rat = d.rat := rfl
@[simp] theorem fldMod_boot (f : Fld → Fld) : (d.fldMod f).boot = d.boot := rfl
@[simp] theorem fldMod_host (f : Fld → Fld) : (d.fldMod f).host = d.host := rfl
@[simp] theorem fldMod_chan (f : Fld → Fld) : (d.fldMod f).chan = d.chan := rfl
@[simp] theorem fldMod_tab (f : Fld → Fld) : (d.fldMod f).tab = d.tab := rfl
@[simp] theorem fldMod_pm (f : Fld → Fld) : (d.fldMod f).pm = d.pm := rfl
@[simp] theorem fldMod_peg (f : Fld → Fld) : (d.fldMod f).peg = d.peg := rfl
@[simp] theorem fldMod_lsh (f : Fld → Fld) : (d.fldMod f).lsh = d.lsh := rfl
@[simp] theorem fldMod_sap (f : Fld → Fld) : (d.fldMod f).sap = d.sap := rfl
@[simp] theorem fldMod_spk (f : Fld → Fld) : (d.fldMod f).spk = d.spk := rfl
@[simp] theorem fldMod_llb (f : Fld → Fld) : (d.fldMod f).llb = d.llb := rfl
@[simp] theorem fldMod_cmp (f : Fld → Fld) : (d.fldMod f).cmp = d.cmp := rfl
@[simp] theorem fldMod_fld (f : Fld → Fld) : (d.fldMod f).fld = f d.fld := rfl
@[simp] theorem fldMod_shd (f : Fld → Fld) : (d.fldMod f).shd = d.shd := rfl
@[simp] theorem fldMod_word (f : Fld → Fld) (p : Nat) : (d.fldMod f).word p = d.word p := rfl
@[simp] theorem fldMod_rd (f : Fld → Fld) (g : Field) : (d.fldMod f).rd g = d.rd g := rfl
@[simp] theorem fldMod_on (f : Fld → Fld) (g : Field) : (d.fldMod f).on g = d.on g := rfl
@[simp] theorem fldMod_bitOf (f : Fld → Fld) (g : Field) (i : Nat) : (d.fldMod f).bitOf g i = d.bitOf g i := rfl
@[simp] theorem fldMod_pd (f : Fld → Fld) (i : Nat) : (d.fldMod f).pd i = d.pd i := rfl

@[simp] theorem shdMod_regs (f : Shd → Shd) : (d.shdMod f).regs = d.regs := rfl
@[simp] theorem shdMod_frozen (f : Shd → Shd) : (d.shdMod f).frozen = d.frozen := rfl
@[simp] theorem shdMod_latch (f : Shd → Shd) : (d.shdMod f).latch = d.latch := rfl
@[simp] theorem shdMod_sram (f : Shd → Shd) : (d.shdMod f).sram = d.sram := rfl
@[simp] theorem shdMod_outs (f : Shd → Shd) : (d.shdMod f).outs = d.outs := rfl
@[simp] theorem shdMod_freeIx (f : Shd → Shd) : (d.shdMod f).freeIx = d.freeIx := rfl
@[simp] theorem shdMod_hearth (f : Shd → Shd) : (d.shdMod f).hearth = d.hearth := rfl
@[simp] theorem shdMod_rat (f : Shd → Shd) : (d.shdMod f).rat = d.rat := rfl
@[simp] theorem shdMod_boot (f : Shd → Shd) : (d.shdMod f).boot = d.boot := rfl
@[simp] theorem shdMod_host (f : Shd → Shd) : (d.shdMod f).host = d.host := rfl
@[simp] theorem shdMod_chan (f : Shd → Shd) : (d.shdMod f).chan = d.chan := rfl
@[simp] theorem shdMod_tab (f : Shd → Shd) : (d.shdMod f).tab = d.tab := rfl
@[simp] theorem shdMod_pm (f : Shd → Shd) : (d.shdMod f).pm = d.pm := rfl
@[simp] theorem shdMod_peg (f : Shd → Shd) : (d.shdMod f).peg = d.peg := rfl
@[simp] theorem shdMod_lsh (f : Shd → Shd) : (d.shdMod f).lsh = d.lsh := rfl
@[simp] theorem shdMod_sap (f : Shd → Shd) : (d.shdMod f).sap = d.sap := rfl
@[simp] theorem shdMod_spk (f : Shd → Shd) : (d.shdMod f).spk = d.spk := rfl
@[simp] theorem shdMod_llb (f : Shd → Shd) : (d.shdMod f).llb = d.llb := rfl
@[simp] theorem shdMod_cmp (f : Shd → Shd) : (d.shdMod f).cmp = d.cmp := rfl
@[simp] theorem shdMod_fld (f : Shd → Shd) : (d.shdMod f).fld = d.fld := rfl
@[simp] theorem shdMod_shd (f : Shd → Shd) : (d.shdMod f).shd = f d.shd := rfl
@[simp] theorem shdMod_word (f : Shd → Shd) (p : Nat) : (d.shdMod f).word p = d.word p := rfl
@[simp] theorem shdMod_rd (f : Shd → Shd) (g : Field) : (d.shdMod f).rd g = d.rd g := rfl
@[simp] theorem shdMod_on (f : Shd → Shd) (g : Field) : (d.shdMod f).on g = d.on g := rfl
@[simp] theorem shdMod_bitOf (f : Shd → Shd) (g : Field) (i : Nat) : (d.shdMod f).bitOf g i = d.bitOf g i := rfl
@[simp] theorem shdMod_pd (f : Shd → Shd) (i : Nat) : (d.shdMod f).pd i = d.pd i := rfl

/-! ### The outputs of the command before are gone -/

@[simp] theorem outs_regs (x : List Out) : Dev.regs { d with outs := x } = d.regs := rfl
@[simp] theorem outs_frozen (x : List Out) : Dev.frozen { d with outs := x } = d.frozen := rfl
@[simp] theorem outs_latch (x : List Out) : Dev.latch { d with outs := x } = d.latch := rfl
@[simp] theorem outs_sram (x : List Out) : Dev.sram { d with outs := x } = d.sram := rfl
@[simp] theorem outs_freeIx (x : List Out) : Dev.freeIx { d with outs := x } = d.freeIx := rfl
@[simp] theorem outs_hearth (x : List Out) : Dev.hearth { d with outs := x } = d.hearth := rfl
@[simp] theorem outs_rat (x : List Out) : Dev.rat { d with outs := x } = d.rat := rfl
@[simp] theorem outs_boot (x : List Out) : Dev.boot { d with outs := x } = d.boot := rfl
@[simp] theorem outs_host (x : List Out) : Dev.host { d with outs := x } = d.host := rfl
@[simp] theorem outs_chan (x : List Out) : Dev.chan { d with outs := x } = d.chan := rfl
@[simp] theorem outs_tab (x : List Out) : Dev.tab { d with outs := x } = d.tab := rfl
@[simp] theorem outs_pm (x : List Out) : Dev.pm { d with outs := x } = d.pm := rfl
@[simp] theorem outs_peg (x : List Out) : Dev.peg { d with outs := x } = d.peg := rfl
@[simp] theorem outs_lsh (x : List Out) : Dev.lsh { d with outs := x } = d.lsh := rfl
@[simp] theorem outs_sap (x : List Out) : Dev.sap { d with outs := x } = d.sap := rfl
@[simp] theorem outs_spk (x : List Out) : Dev.spk { d with outs := x } = d.spk := rfl
@[simp] theorem outs_llb (x : List Out) : Dev.llb { d with outs := x } = d.llb := rfl
@[simp] theorem outs_cmp (x : List Out) : Dev.cmp { d with outs := x } = d.cmp := rfl
@[simp] theorem outs_fld (x : List Out) : Dev.fld { d with outs := x } = d.fld := rfl
@[simp] theorem outs_shd (x : List Out) : Dev.shd { d with outs := x } = d.shd := rfl
@[simp] theorem outs_word (x : List Out) (p : Nat) : Dev.word { d with outs := x } p = d.word p := rfl
@[simp] theorem outs_rd (x : List Out) (p : Field) : Dev.rd { d with outs := x } p = d.rd p := rfl
@[simp] theorem outs_on (x : List Out) (p : Field) : Dev.on { d with outs := x } p = d.on p := rfl
@[simp] theorem outs_pd (x : List Out) (p : Nat) : Dev.pd { d with outs := x } p = d.pd p := rfl
@[simp] theorem outs_bitOf (x : List Out) (g : Field) (i : Nat) : Dev.bitOf { d with outs := x } g i = d.bitOf g i := rfl
@[simp] theorem outs_booted (x : List Out) : Dev.booted { d with outs := x } = d.booted := rfl
@[simp] theorem outs_run (x : List Out) : Dev.run { d with outs := x } = d.run := rfl
@[simp] theorem outs_src (x : List Out) : Dev.src { d with outs := x } = d.src := rfl
@[simp] theorem outs_tier (x : List Out) : Dev.tier { d with outs := x } = d.tier := rfl
@[simp] theorem outs_valid (x : List Out) : Dev.valid { d with outs := x } = d.valid := rfl

end Sys2Proof.Machine
end

