-- ==== Sys2Proof/Laws/Does.lean ====
section
/-!
SUPPORT. Laws/Does.lean: how a statement about a command comes from one about its effect; what the shared operations do: the
writes of a list of fields, refused and dropped accesses, the ways of software, the Hearth brought to a mote.
-/

namespace Sys2Proof.Machine

/-! ### From the effect to the command -/

/-- Every device is one without outputs, with outputs put back. -/
theorem exists_outs (dev : Dev) : ∃ (x : List Out) (d : Dev), dev = { d with outs := x } ∧ d.outs = [] :=
  ⟨dev.outs, { dev with outs := [] }, rfl, rfl⟩

/-- The state of a command's outcome is its effect on the device without outputs, settled. -/
theorem ends_of {c : Instr} {d : Dev} {x : List Out} {p : List Instr} {f : Dev → Dev} {P : Dev → Prop} (hd : d.outs = [])
    (hx : ∀ s, exec c s = s.run f) (hp : P (f d)) : Ends c ⟨{ d with outs := x }, p⟩ P := by
  refine ⟨f d, ?_, hp⟩
  rw [hx]
  have e : ({ d with outs := [] } : Dev) = d := by cases d; simp at hd; subst hd; rfl
  simp only [State.run, Dev.command, e]

/-- The same with the list of fields it wrote. -/
theorem does_of {c : Instr} {d : Dev} {x : List Out} {p : List Instr} {f : Dev → Dev} {ws : List (Field × Nat)}
    {P : Dev → Prop} (hd : d.outs = []) (hx : ∀ s, exec c s = s.run f) (hw : Wrote d (f d) ws) (hp : P (f d)) :
    Does c ⟨{ d with outs := x }, p⟩ ws P := by
  obtain ⟨e, h1, h2⟩ := ends_of (P := fun e => Wrote d e ws ∧ P e) hd hx ⟨hw, hp⟩ (x := x) (p := p)
  exact ⟨e, h1, h2.1, h2.2⟩

/-! ### Lists of writes -/

theorem wrote_nil (d e : Dev) (hs : e.sram = d.sram) (hr : e.regs = d.regs) : Wrote d e [] :=
  ⟨hs, by simp, fun g _ => by simp [Dev.rd, Dev.word, hr]⟩

theorem wrote_wr (d : Dev) (f : Field) (v : Nat) (h : f.lo + f.w ≤ 32) : Wrote d (d.wr f v) [(f, v % 2 ^ f.w)] :=
  ⟨rfl, by simp [rd_wr_same d f v h], fun g hg => rd_wr_apart d f g v (hg (f, v % 2 ^ f.w) (by simp))⟩

/-- One write list after another, over other fields. -/
theorem Wrote.append {d e g : Dev} {xs ys : List (Field × Nat)} (h1 : Wrote d e xs) (h2 : Wrote e g ys)
    (hd : ∀ x ∈ xs, ∀ y ∈ ys, Field.apart y.1 x.1 = true) : Wrote d g (xs ++ ys) := by
  refine ⟨h2.1.trans h1.1, ?_, ?_⟩
  · intro x hx
    rcases List.mem_append.mp hx with hx | hx
    · rw [h2.2.2 x.1 (fun y hy => hd x hx y hy), h1.2.1 x hx]
    · exact h2.2.1 x hx
  · intro f hf
    rw [h2.2.2 f (fun y hy => hf y (List.mem_append_right _ hy)), h1.2.2 f (fun y hy => hf y (List.mem_append_left _ hy))]

/-- A write list says in particular what stands. -/
theorem Wrote.only {d e : Dev} {ws : List (Field × Nat)} (h : Wrote d e ws) : Only d e (ws.map (·.1)) := by
  intro g hg
  exact h.2.2 g fun x hx => hg x.1 (List.mem_map_of_mem hx)

/-! ### Refused and dropped accesses -/

theorem badWr_wrote (src : BusSrc) (off : Nat) (d : Dev) (h : off < 2 ^ 22) :
    Wrote d (badWr src off d)
      [(GLB_BADWR.COUNT, min (d.rd GLB_BADWR.COUNT + 1) (2 ^ 32 - 1)), (GLB_BADWR_INFO.OFFSET, off),
       (GLB_BADWR_INFO.SRC, srcCode src), (GLB_BADWR_INFO.FN, srcFn src)] := by
  have a := wrote_wr d GLB_BADWR.COUNT (min (d.rd GLB_BADWR.COUNT + 1) (2 ^ 32 - 1)) (by decide)
  have b := wrote_wr (d.sat GLB_BADWR.COUNT) GLB_BADWR_INFO.OFFSET off (by decide)
  have c := wrote_wr ((d.sat GLB_BADWR.COUNT).wr GLB_BADWR_INFO.OFFSET off) GLB_BADWR_INFO.SRC (srcCode src) (by decide)
  have e := wrote_wr (((d.sat GLB_BADWR.COUNT).wr GLB_BADWR_INFO.OFFSET off).wr GLB_BADWR_INFO.SRC (srcCode src))
    GLB_BADWR_INFO.FN (srcFn src) (by decide)
  have h1 : min (d.rd GLB_BADWR.COUNT + 1) (2 ^ 32 - 1) % 2 ^ GLB_BADWR.COUNT.w = min (d.rd GLB_BADWR.COUNT + 1) (2 ^ 32 - 1) :=
    Nat.mod_eq_of_lt (by show _ < 2 ^ 32; omega)
  have h2 : off % 2 ^ GLB_BADWR_INFO.OFFSET.w = off := Nat.mod_eq_of_lt h
  have h3 : srcCode src % 2 ^ GLB_BADWR_INFO.SRC.w = srcCode src := by cases src <;> rfl
  have h4 : srcFn src % 2 ^ GLB_BADWR_INFO.FN.w = srcFn src := by
    cases src <;> first | rfl | exact Nat.mod_eq_of_lt (by show _ < 16; simp only [srcFn]; omega)
  rw [h1] at a; rw [h2] at b; rw [h3] at c; rw [h4] at e
  have ap : ∀ {f g : Field} {v w : Nat}, Field.apart g f = true →
      ∀ x ∈ [(f, v)], ∀ y ∈ [(g, w)], Field.apart y.1 x.1 = true := by
    intro f g v w hfg x hx y hy
    simp only [List.mem_singleton] at hx hy
    rw [hx, hy]; exact hfg
  exact a.append (b.append (c.append e (ap (by decide))) (by simp only [List.forall_mem_cons,
    List.not_mem_nil, false_implies, implies_true, and_true]; decide)) (by simp only [List.forall_mem_cons, List.not_mem_nil, false_implies, implies_true, and_true]; decide)

theorem offAccess_only (k : Nat) (d : Dev) :
    Only d (offAccess k d) [RAT_OFFACC.COUNT, RAT_OFFACC.DOMAIN, RAT_EVENT.OFF_ACCESS] := by
  intro g hg
  have h1 := hg RAT_OFFACC.COUNT (by simp)
  have h2 := hg RAT_OFFACC.DOMAIN (by simp)
  have h3 := hg RAT_EVENT.OFF_ACCESS (by simp)
  simp only [offAccess, Dev.ev, Dev.sat]
  rw [rd_wr_apart _ _ _ _ h3, rd_wr_apart _ _ _ _ h2, rd_wr_apart _ _ _ _ h1]

/-! ### The ways of software -/

theorem ifBooted_true {f : Dev → Dev} {d : Dev} (h : d.booted = true) : ifBooted f d = f d := by simp [ifBooted, h]

theorem ifBooted_false {f : Dev → Dev} {d : Dev} (h : d.booted = false) : ifBooted f d = d := by simp [ifBooted, h]

theorem soft_taken {k : Nat} {f : Dev → Dev} {d : Dev} (hb : d.booted = true) (hk : d.pd k = true) : soft k f d = f d := by
  simp [soft, ifBooted, action, hb, hk]

theorem soft_off {k : Nat} {f : Dev → Dev} {d : Dev} (hb : d.booted = true) (hk : d.pd k = false) :
    soft k f d = offAccess k d := by simp [soft, ifBooted, action, hb, hk]

theorem softFrom_reached {src : BusSrc} {f : Dev → Dev} {d : Dev} (h : src = .smbus ∨ src = .image ∨ d.booted = true) :
    softFrom src f d = f d := by
  rcases h with rfl | rfl | h
  · rfl
  · rfl
  · cases src <;> simp [softFrom, ifBooted, h]

theorem inDomain_on {k : Nat} {f : Dev → Dev} {d : Dev} (h : d.pd k = true) : inDomain k f d = f d := by simp [inDomain, h]

/-! ### The Hearth brought to a mote -/

/-- Only the Hearth moves. -/
theorem atMote_eq (m : Nat) (d : Dev) : ∃ h : Hearth, atMote m d = { d with hearth := h } := by
  unfold atMote
  dsimp only
  split
  · exact ⟨_, rfl⟩
  · exact ⟨d.hearth, rfl⟩

@[simp] theorem atMote_regs (m : Nat) (d : Dev) : (atMote m d).regs = d.regs := by
  obtain ⟨h, e⟩ := atMote_eq m d; rw [e]

@[simp] theorem atMote_sram (m : Nat) (d : Dev) : (atMote m d).sram = d.sram := by
  obtain ⟨h, e⟩ := atMote_eq m d; rw [e]

@[simp] theorem atMote_chan (m : Nat) (d : Dev) : (atMote m d).chan = d.chan := by
  obtain ⟨h, e⟩ := atMote_eq m d; rw [e]

@[simp] theorem atMote_rd (m : Nat) (d : Dev) (g : Field) : (atMote m d).rd g = d.rd g := by
  simp [Dev.rd, Dev.word]

/-! ### A choice between two devices -/

theorem ite_regs (c : Prop) [Decidable c] (x y : Dev) : (if c then x else y).regs = if c then x.regs else y.regs := by
  split <;> rfl

theorem ite_sram (c : Prop) [Decidable c] (x y : Dev) : (if c then x else y).sram = if c then x.sram else y.sram := by
  split <;> rfl

theorem ite_hearth (c : Prop) [Decidable c] (x y : Dev) : (if c then x else y).hearth = if c then x.hearth else y.hearth := by
  split <;> rfl

/-! ### Retention SRAM -/

theorem ramSet_wf (d : Dev) (k v : Nat) (h : Memory.wf d.sram = true) : Memory.wf (d.ramSet k v).sram = true :=
  cellsWf_cellWrite k _ h

theorem ramWord_ramSet (d : Dev) (k v j : Nat) : (d.ramSet k v).ramWord j = if j = k then v % 2 ^ 32 else d.ramWord j := by
  simp only [Dev.ramWord, Dev.ramSet, cellRead_cellWrite]
  split <;> simp

end Sys2Proof.Machine
end

