-- ==== Sys2Proof/Machine/Balls.lean ====
section
/-!
DEFINITION. Machine/Balls.lean: the balls of the package and what each carries (spec/20_pins_package_and_electrical.md, R397,
R398, Tables 20.1 and 20.2). No command touches them.
-/

namespace Sys2Proof.Machine

/-- The row letters in the order of their row indices 1 to 35 (R397). -/
def rowNames : List String :=
  ["A", "B", "C", "D", "E", "F", "G", "H", "J", "K", "L", "M", "N", "P", "T", "U", "V", "W"] ++
  ["Y", "AA", "AB", "AC", "AD", "AE", "AF", "AG", "AH", "AJ", "AK", "AL", "AM", "AN", "AP", "AT", "AU"]

/-- A ball: row index and column, each 1 to 35 (R397). -/
structure Ball where
  row : Nat
  col : Nat
  deriving DecidableEq, Repr

/-- Every ball of the package. -/
def balls : List Ball := (List.range 35).flatMap fun r => (List.range 35).map fun c => ⟨r + 1, c + 1⟩

/-- The name of a ball, for example AU14. -/
def Ball.name (b : Ball) : String := rowNames.getD (b.row - 1) "" ++ toString b.col

/-- The ball at a row name and a column. -/
def ballAt (r : String) (c : Nat) : Ball := ⟨rowNames.idxOf r + 1, c⟩

/-- The supplies (Table 20.2). -/
inductive Rail where
  | vddCore | vddPmem | vppPmem | vddSerdes | vddaSerdes | vddAon | vddioA | vddioB | vspk | vssSpk | vss
  deriving DecidableEq, Repr

/-- Row and column lie in a checkerboard block. -/
def Ball.checker (b : Ball) (r0 r1 : Nat) : Bool :=
  decide (r0 ≤ b.row ∧ b.row ≤ r1 ∧ 10 ≤ b.col ∧ b.col ≤ 26 ∧ (b.row + b.col) % 2 = 0)

/-- A ball lies in the row r, at the columns c0 to c1. -/
def Ball.inRow (b : Ball) (r c0 c1 : Nat) : Bool := b.row == r && decide (c0 ≤ b.col ∧ b.col ≤ c1)

/-- The rail of a ball that Table 20.2 names. -/
def Ball.rail? (b : Ball) : Option Rail :=
  if b.checker 10 22 then some .vddCore
  else if b.checker 24 28 then some .vddPmem
  else if b.row = 29 ∧ b.col ∈ [10, 12, 14, 16] then some .vppPmem
  else if b.inRow 4 2 23 || b.inRow 32 2 15 then some .vddSerdes
  else if b.inRow 5 6 23 || b.inRow 31 4 15 then some .vddaSerdes
  else if b.col = 3 ∧ b.row ∈ [18, 19, 20, 21] then some .vddAon
  else if b.col = 4 ∧ b.row ∈ [6, 8, 10, 12, 14, 16, 18, 20, 22, 24, 26, 28, 30] then some .vddioA
  else if (b.col = 5 ∧ b.row ∈ [16, 18, 20, 22]) ∨ (b.col = 32 ∧ b.row ∈ [6, 8, 10, 12, 14, 16, 18, 20, 22, 24, 26]) ∨
      (b.row = 34 ∧ b.col ∈ [19, 20]) ∨ (b.row = 2 ∧ b.col ∈ [25, 28]) then some .vddioB
  else if b.inRow 34 30 34 then some .vspk
  else if b.inRow 33 30 34 || (b.row == 35 && b.col == 32) then some .vssSpk
  else none

/-- Signals at consecutive columns of one row. -/
def along (r : String) (c : Nat) (xs : List String) : List (String × Ball) :=
  (List.range xs.length).map fun i => (xs.getD i "", ballAt r (c + i))

/-- Signals at consecutive rows of one column. -/
def down (r : String) (c : Nat) (xs : List String) : List (String × Ball) :=
  (List.range xs.length).map fun i => (xs.getD i "", ⟨rowNames.idxOf r + 1 + i, c⟩)

/-- The names of n signals, numbered from 0. -/
def numbered (pre post : String) (n : Nat) : List String := (List.range n).map fun i => pre ++ toString i ++ post

/-- The pair of a differential signal. -/
def pairNames (s : String) : List String := [s ++ "_P", s ++ "_N"]

/-- Four differential signals in one row, three columns apart from column 2 on. -/
def lanes4 (r pre post : String) : List (String × Ball) :=
  (List.range 4).flatMap fun n => along r (2 + 3 * n) (pairNames (pre ++ toString n ++ post))

/-- The lanes, the lease line and the host (Table 20.1). -/
def laneBalls : List (String × Ball) :=
  lanes4 "A" "CH" "_TX" ++ lanes4 "C" "CH" "_RX" ++
  along "A" 24 (pairNames "PEG_A") ++ along "A" 27 (pairNames "PEG_B") ++
  along "A" 15 (pairNames "PEG_LA_TX") ++ along "A" 18 (pairNames "PEG_LB_TX") ++
  along "C" 15 (pairNames "PEG_LA_RX") ++ along "C" 18 (pairNames "PEG_LB_RX") ++
  along "A" 21 (pairNames "LSH_TX") ++ along "C" 21 (pairNames "LSH_RX") ++
  down "W" 1 ["LSH_HOLD_OUT", "LSH_HOLD_IN"] ++
  lanes4 "AU" "PCIE_TX" "" ++ lanes4 "AP" "PCIE_RX" "" ++
  along "AU" 14 (pairNames "REFOUT") ++ along "AT" 17 ["PERST_N", "HOST_PWR_EN"]

/-- The signals of one cage, in the order of their balls. -/
def cageNames (n : Nat) : List String :=
  let s := toString n
  ["MOD" ++ s ++ "_ABS", "LOS" ++ s, "TXFLT" ++ s, "TXDIS" ++ s, "MOD" ++ s ++ "_SCL", "MOD" ++ s ++ "_SDA"]

/-- Clocks, time, sense inputs, field and management pins (Table 20.1). -/
def fieldBalls : List (String × Ball) :=
  down "E" 34 ((List.range 4).flatMap cageNames) ++
  down "E" 1 ["XREF", "POR_N", "SYS_RESET_N", "PPS_IN", "PPS_OUT", "FSYNC_OUT", "FEED_VSENSE", "FEED_ISENSE", "CELL_VSENSE"] ++
  down "T" 1 ["GL_DQ", "SAG_EN", "CHG_EN"] ++ down "E" 35 (numbered "GPI" "" 16) ++ down "AB" 35 (numbered "GPO" "" 8) ++
  down "AA" 1 ["SMB_SCL", "SMB_SDA", "SMB_ADDR0", "SMB_ADDR1", "TCK", "TMS", "TDI", "TDO", "TRST_N"] ++
  down "AK" 1 (["QSPI_CLK", "QSPI_CS_N"] ++ numbered "QSPI_IO" "" 4)

/-- The four signals of voice port p. -/
def sapNames (p : Nat) : List String := ["_BCLK", "_FS", "_TXD", "_RXD"].map fun s => "SAP" ++ toString p ++ s

/-- The voice ports, their clocks and the speaker (Table 20.1). -/
def voiceBalls : List (String × Ball) :=
  down "H" 2 ((List.range 6).flatMap sapNames) ++ down "H" 3 (sapNames 6 ++ sapNames 7) ++ down "U" 3 ["MCLK_A", "MCLK_B"] ++
  along "AU" 30 ["SPK_P", "SPK_P"] ++ along "AU" 33 ["SPK_N", "SPK_N"]

/-- The signals and their balls (Table 20.1). -/
def signalBalls : List (String × Ball) := laneBalls ++ fieldBalls ++ voiceBalls

/-- What a ball carries. -/
inductive Carries where
  | signal (name : String)
  | supply (r : Rail)
  deriving DecidableEq, Repr

/-- Every ball that neither table names is VSS (R398). -/
def Ball.carries (b : Ball) : Carries :=
  match signalBalls.find? fun x => x.2 == b with
  | some (s, _) => .signal s
  | none => .supply (b.rail?.getD .vss)

end Sys2Proof.Machine
end

