-- ==== Sys2Proof/WellFormed.lean ====
section
/-!
DEFINITION. WellFormed.lean: which commands can be: operands inside the ranges that the spec gives them.
-/

namespace Sys2Proof

/-- A VF aperture belongs to a VF (R111). -/
def spaceOk (sp : Space) : Bool :=
  match sp with
  | .bar0 | .bar2 => true
  | .vf f => f != 0

/-- BAR0 has 4 MiB, BAR2 64 KiB, a VF aperture 32 KiB (R111). -/
def spaceSize (sp : Space) : Nat :=
  match sp with
  | .bar0 => 0x400000
  | .bar2 => 0x10000
  | .vf _ => 0x8000

/-- A Hearth copy holds HT64, 32 fraction bits, a 32-bit rate and a 16-bit era (R33). -/
def copyOk (x : Machine.HCopy) : Bool :=
  decide (x.t < 2 ^ 64) && decide (x.frac < 2 ^ 32) && decide (x.era < 2 ^ 16) && decide (-2 ^ 31 ≤ x.rate) && decide (x.rate < 2 ^ 31)

/-- A write to PF0's registers does not come from a VF (R111). -/
def srcOk (src : BusSrc) : Bool :=
  match src with
  | .vf _ => false
  | .pcie | .smbus | .image => true

/-- A conversion code has 12 bits (R55). -/
def adcCode (c : Int) : Bool := decide (0 ≤ c) && decide (c < 4096)

/-- A temperature code is signed (Table 3.1). -/
def tempCode (c : Int) : Bool := decide (-2048 ≤ c) && decide (c < 2048)

/-- The checks of each command's operands. -/
def Instr.wellFormed (i : Instr) : Bool :=
  match i with
  | .registerWrite sp _ off _ => spaceOk sp && decide (off < spaceSize sp)
  | .rclrRead sp _ off => spaceOk sp && decide (off < spaceSize sp)
  | .hearthVoteFix _ x => copyOk x
  | .hearthFault a b c => copyOk a && copyOk b && copyOk c
  | .hrtRateWrite src _ => srcOk src
  | .adjGo src _ _ => srcOk src
  | .mclkDenWrite src _ _ => srcOk src
  | .adcConversion k sag code =>
    if sag then adcCode code else if k.val = 7 then tempCode code else adcCode code
  | .retDataWrite src _ => srcOk src
  | .otpDone key _ => key.all fun k => k.length == 32
  | .findDone a b cal => decide (64 ≤ a.length) && decide (64 ≤ b.length) && decide (cal.length ≤ 4096)
  | .verifyDone image => decide (64 ≤ image.length)
  | .hifLinkUp speed width => decide (1 ≤ speed.val) && decide (speed.val ≤ 5) && decide (width.val ≤ 4)
  | .vfEnable num => num != 0
  | .vfHoldSet f => f != 0
  | .vfHoldClear f => f != 0
  | .fnAssign src _ _ _ => srcOk src
  | .completion _ data => decide (data.length ≤ 4096)
  | .intMaskWrite f x => f == 0 || decide (x.toNat < 16)
  | .unsupportedRequest f => f != 0
  | .doorbell f slot _ => f == 0 || decide (slot.val < 225)
  | .descFetch _ data => data.length % 32 == 0
  | .pfcRx _ _ qs _ => qs.length == 8
  | .clsEntryWrite masked i k _ => if masked then decide (i.val < 256) && k.val != 15 else decide (k.val < 7)
  | .clsCommit masked i _ => !masked || decide (i.val < 256)
  | .freEntryWrite src _ _ _ => srcOk src
  | .faultRetry _ src => srcOk src
  | .probeReceive _ seq turn _ => decide (seq < 256) && decide (turn < 2 ^ 24)
  | .echoReceive _ seq down turn _ =>
    decide (seq < 256) && decide (turn < 2 ^ 24) && down.all fun x => decide (x.1 < 32) && decide (x.2 < 2 ^ 24)
  | .partialFrame _ len v => decide (v < 2 ^ len)
  | .glSearchPass _ subs => decide (subs.length ≤ 96)
  | .smbSetAddr _ a => decide (a < 2 ^ 32)
  | .qspiDone data => decide (data.length ≤ 256)
  | .tableParityError off => off % 4 == 0 && decide (0x200000 ≤ off) && decide (off < 0x2E0880)
  | .loopbackEnd res => decide (res.val ≠ 0)
  | .xrefLoss | .heldBound | .xrefReturned | .xrefBack | .frameEvent _ | .jumpApply | .slewApply | .slewDone
  | .load | .loadApply | .faultClr | .srcWrite _ | .hostLockWrite _ | .hostWdog | .holdExpired | .ppsEdge _
  | .ppsMiss | .ppsOutEnd | .fsyncOutEnd | .snapTake _ | .hrtNowRead _ _ | .feedLoss _ | .gaspCopyDue _
  | .gaspSent | .refoutStop | .refoutStart | .bivReq | .bivTimerWrite _ | .wakeTimer _ | .wakeRestoreApply
  | .retDataRead | .powerOnReset | .porEnd | .pllLock | .sysResetN | .sysResetRelease | .cold | .warm
  | .coldResetEnd | .warmEnd | .railGood _ | .powerUpStep | .pmemInitDone | .applyDone | .admitDone
  | .defaultsDone | .bootDone | .release | .holdExit | .perstAssert | .perstRelease | .refoutReady
  | .hifLinkDown | .hotReset | .linkEnClear | .configRequest _ _ | .flr _ | .vfEnableClear | .kennelDone _ _
  | .cplTimeout _ | .poisoned _ | .dstateChange _ _ | .mbxBaseLo _ _ | .mbxBaseHi _ _ | .mbxReset _ _
  | .fetchFail _ _ | .tagWaitEnd _ | .coalExpiry _ _ | .launchDue _ | .stallExpiry _ _ | .audioHalfPoint _
  | .audioFullPoint _ | .nop _ | .ringSetup _ | .ringEnable _ | .ringDisable _ | .ringQuery _ | .time _
  | .resources _ | .ringQuiescence _ | .prqRequest _ _ _ | .prqMapApply _ | .ringSelWrite _ | .channelOn _
  | .channelStopped _ | .modIn _ | .modOut _ | .moduleSettled _ | .txFault _ | .linkUp _
  | .linkDown _ _ | .rxFrame _ _ _ _ _ | .patternWake _ | .pauseRefresh _ _ | .xoffEnd _ | .pauseRx _ _ _
  | .pauseEnd _ _ _ | .txFrameStart _ _ _ | .txFrameEnd _ _ | .preemptEnable _ | .preemptDisable _
  | .verifyTimer _ | .verifyRx _ | .respondRx _ | .txts0Read _ | .gateEntryStart _ _ | .calRecalStart _ _
  | .calRecalEnd _ | .gateCommit _ | .gateCancel _ | .gateListStart _ _ | .gateSwap _ _ | .gateDisable _
  | .gateVoteFix _ _ _ | .gateNomaj _ | .freCommit _ _ | .recovReset _ | .latentCheck | .refreshForced _
  | .scrubCellDue _ _ | .admissionCheck _ | .recalForced _ _ | .pegSlotStart _ | .pegSlotReceive _ _ _ _
  | .pegSlotMiss _ | .msgDeliver _ | .msgAckTimeout _ | .pegSchedCommit | .pegSchedCancel | .pegSchedSwap
  | .spareClaim _ | .claimBackoffEnd | .spareRelease _ | .spareLapse _ | .pegOn | .pegStopped | .listenTimeout
  | .coldstartTimeout | .syncRoundCompute | .ringBreak | .ringHeal | .mirrorSend | .mirrorReceive _ _ _
  | .laneUp | .laneDown | .leashEligible | .leashIneligible | .leashTake | .leaseExpiry _ | .leashRelease
  | .holdInChange _ | .backoffEnd | .lineFault | .wakeLease | .sapPortOn _ | .sapTick _ _ | .sapLock _
  | .sapLockLost _ | .sapStopped _ | .sapChannelOn _ _ | .fadeDone _ _ | .iecLock _ | .iecLockLost _
  | .iecBlockEnd _ | .spkEnable | .spkDisable | .spkRampDone | .spkTrip _ _ _ _ | .spkThermalTrip _
  | .spkThermalRelease _ | .spkRetry | .spkRecovered | .spkFaultClr | .vspkLow | .vspkGood | .llbChannelStart _
  | .llbPacketDue _ | .llbTxDrop _ | .llbRxPacket _ _ | .rxSilent _ | .evCopyDue | .llbStopped _
  | .cmpCompressStatic | .cmpCompressDynamic | .cmpDecompress | .cmpSave | .cmpRestore | .cmpBlockDone _
  | .cmpJobEnd | .cmpJobStop | .cmpStopped | .glReset _ _ _ | .glSearch _ _ _ | .glRead _ _ _ | .glWrite _ _ _
  | .glDone _ | .glBackoffEnd | .glAttach | .autoSearch | .sagStart | .sagAutoStart | .sagLoadOn | .sagLoadOff
  | .sagCompute | .sagDone | .sagAbort | .sagCheck | .eolClr | .gpiRemind _ | .gpiLatchClear _ | .gpoWrite _
  | .smbRegRead _ | .smbRegWrite _ _ | .smbStatusRead _ | .smbColdReset _ _ | .smbWarmReset _ _ | .smbWake _ _
  | .smbClockLow | .mi2cGo _ _ | .mi2cDone _ _ | .qspiGo _ | .tapBypass | .tapIdcode | .tapSamplePreload
  | .tapExtest | .tapClamp | .tapHighz | .bucketDecay | .loopbackStart | .laneFenceTimeout _ _ | .fence _
  | .fenceComplete _ | .lift _ | .liftApply _ | .reportTake _ | .pegLaneSyncLost _ | .pegLaneSyncGained _
  | .remoteFaultReceived _ | .remoteFaultCleared _ | .losChange _ _ | .laneUnlock _ _ | .laneRelock _
  | .sapWireFrame _ _ => true

end Sys2Proof
end

