-- ==== Sys2Proof/Tests/Slice0.lean ====
section
/-!
SUPPORT. Tests/Slice0.lean: ill-formed commands that WellFormed refuses, the manual's worked examples, single steps, and for
every obligation with hypotheses states and operands that meet them.
-/

set_option maxRecDepth 100000

namespace Sys2Proof.Tests

open Sys2Proof.Machine

/-! ### Small states -/

/-- A part in RUN with every domain on and the Hearth running. -/
def upDev : Dev :=
  let d : Dev := {}
  let d := ((d.wr RST_BOOT_STATUS.STATE 10).wr RAT_DOM_STATUS.PD_ON 127).wr RAT_DOM_STATUS.LANE_ON 127
  let d := d.wr HRT_STATUS.VALID 1
  { d with
    hearth := { d.hearth with running := true }
    boot := { d.boot with kind := none, asserted := false, porLow := false, pllOnce := true, step := 4 } }

/-- It, with the fields of ws written. -/
def up (ws : List (Field × Nat)) : State := { dev := ws.foldl (fun d x => d.wr x.1 x.2) upDev }

/-- It, then changed by f. -/
def upd (ws : List (Field × Nat)) (f : Dev → Dev) : State := { dev := f (up ws).dev }

/-- A small configuration image: generation 7, the END record alone, its CHECK (R91 to R93). -/
def upImage : Bytes :=
  ([0x4934584F, 0x400001, 7, 8, 0x4C700B1, 0, 0, 0, 1, 0, 0, 0, 0, 0, 0, 0x5A5A0F0F, 0xFF, 0, 0x4C1D596B] : List Nat).flatMap (leBytes 4)

/-- A part whose PF0 is ACTIVE with its link up, mastering the bus, and whose rings are those given. -/
def upDma (ws : List (Field × Nat)) (rings : List (Nat × Ring)) (f : Dev → Dev) : State :=
  upd ([(HIF_VF_STATE.PF0, 1), (HIF_STATUS.DL_UP, 1), (HIF_STATUS.PERST, 0), (HIF_STATUS.REFOUT_READY, 1), (CLK_CTRL.REFOUT_EN, 1)] ++ ws) fun d =>
    f { d with host := { d.host with rings := rings, perstLow := false, released := true
                                     fns := d.host.fns.modify 0 fun g => { g with bme := true, mse := true, msixEn := true } } }

/-- A frame with its check sequence. -/
def upFrame (bs : Bytes) : Bytes := bs ++ leBytes 4 (crc32 bs)

/-- A part whose channel n is ON with its link up, changed by g. -/
def upCh (n : Nat) (ws : List (Field × Nat)) (g : Chan → Chan) : State :=
  upd ([(CHn_STATUS.RUN n, 2), (CHn_STATUS.LINK n, 1), (CHn_CTRL.EN n, 1), (CHn_MAX_LEN.MAX n, 1518)] ++ ws) fun d =>
    { d with chan := d.chan.modify n g }

/-- A part whose channel 2 has a gate engine, ON, in state g, and in bank 0 a list of two entries. -/
def upGate (ws : List (Field × Nat)) (g : GateCopy) : State :=
  upCh 2 ([(CHn_GATE_CTRL.EN 2, 1), (CHn_GATE_STATUS.RUN 2, 2), (CHn_GATE_Bb_LEN.LEN 2 0, 2), (CHn_GATE_Bb_CYCLE.CYCLE 2 0, 40000),
    (⟨0x208000, 0, 32⟩, 20000), (⟨0x208004, 0, 32⟩, 0x00F), (⟨0x208008, 0, 32⟩, 20000), (⟨0x20800C, 0, 32⟩, 0x1F0)] ++ ws)
    fun c => { c with ga := g, gb := g, gc := g }

/-- A part whose Pegline is ON in start-up state st, with bank 0 in force: slot 0 SYNC of node 0, 1 DATA of node 0 in flow 1,
2 SPARE, 3 MSG of node 0, 4 DATA of node 1, 5 a voice slot of node 1 that is received; all on both channels, 48 bytes. -/
def upPeg (st : Nat) (ws : List (Field × Nat)) (g : Peg → Peg) : State :=
  upd ([(PEG_STATUS.RUN, 2), (PEG_SYNC_STATUS.STATE, st), (PEG_CFG.EN, 1)] ++
    ([0x6182, 0x1006180, 0x6181, 0x6183, 0x6184, 0x606184].zipIdx.map fun x => (⟨0x2C0000 + 16 * x.2, 0, 32⟩, x.1)) ++
    [(⟨0x2C0054, 0, 32⟩, 0x203)] ++ ws) fun d => { d with peg := g { d.peg with oper := some 0 } }

/-- A slot frame of header word h and payload p, with its check word. -/
def upSlot (h : Nat) (p : Bytes) : Bytes := let b := beBytes 4 h ++ p; b ++ beBytes 4 (crc32 b)

/-- A part whose SAP port p is ON with the control word c and the format f in force, changed by g. -/
def upSap (p c f : Nat) (ws : List (Field × Nat)) (g : SapPort → SapPort) : State :=
  upd ([(SAPp_STATUS.RUN p, 2)] ++ ws) fun d => d.sapPortMod p fun q => g { q with ctrl := c, fmt := f }

/-- A part whose bridge is ON with channel c active, its template set for one A-law round a packet; the token is held, CH0 is
ON; changed by g. -/
def upLlb (c : Nat) (ws : List (Field × Nat)) (g : LlbCh → LlbCh) : State :=
  upd ([(LLB_STATUS.RUN, 2), (LLB_STATUS.EV_RUN, 2), (LSH_STATUS.STATE, 3), (CHn_STATUS.RUN 0, 2), (CHn_MAX_LEN.MAX 0, 1518),
    (⟨0x2E0000 + 128 * c, 0, 32⟩, 17), (⟨0x2E0008 + 128 * c, 0, 32⟩, 0x101), (⟨0x2E001C + 128 * c, 0, 32⟩, 0x450008),
    (⟨0x2E0024 + 128 * c, 0, 32⟩, 0x11000000), (⟨0x2E0800, 0, 32⟩, 1), (LLB_EV_MASK.MASK, 255)] ++ ws) fun d =>
    (setLlbRun c 2 d).lcMod c fun x => g { x with act := true }

/-- A job of the compression engine's ring 384, at the front of the ring. -/
def upCmp (dw4 dw5 : Nat) (ws : List (Field × Nat)) (g : Cmp → Cmp) : State :=
  upDma ([(CMP_STATUS.RUN, 2), (CMP_STATUS.AVAIL, 1), (CMP_CTRL.EN, 1), (HIF_FNf_MISC.CMP_CNT 0, 8)] ++ ws)
    [(384, { st := 2, base := 4096, prod := 1, taken := [{ w := [0x10000, 0, 0x20000, 0, dw4, dw5, 0, 0x80000000] }] })]
    fun d => { d with cmp := g d.cmp }

/-- A part with transaction g on its Guyline. -/
def upGl (g : Gl) (ws : List (Field × Nat)) (k : Fld → Fld) : State :=
  upd ([(FLD_GL_STATUS.BUSY, 1), (LSH_STATUS.STATE, 3)] ++ ws) fun d => d.fldMod fun f => k { f with gl := some g }

/-! ### WellFormed refuses (one term for each check) -/

/-- A VF aperture of PF0, offsets beyond a space. -/
theorem test_ill_spaces :
    [Instr.registerWrite (.vf 0) false 0 0, .registerWrite .bar0 false 0x400000 0, .rclrRead .bar2 false 0x10000,
      .rclrRead (.vf 3) false 0x8000].all (fun c => !c.wellFormed) = true := by decide

/-- Hearth copies beyond their widths; PF0 registers written from a VF. -/
theorem test_ill_hearth :
    [Instr.hearthVoteFix 0 { t := 2 ^ 64 }, .hearthVoteFix 0 { frac := 2 ^ 32 }, .hearthFault {} {} { era := 2 ^ 16 },
      .hearthFault {} { rate := 2 ^ 31 } {}, .hearthFault { rate := -2 ^ 31 - 1 } {} {}, .hrtRateWrite (.vf 1) 0,
      .adjGo (.vf 1) false 0, .mclkDenWrite (.vf 1) false 0, .retDataWrite (.vf 2) 0,
      .freEntryWrite (.vf 2) 0 0 0].all (fun c => !c.wellFormed) = true := by decide

/-- Conversion codes of more than 12 bits; a temperature below the signed range. -/
theorem test_ill_codes :
    [Instr.adcConversion 0 false 4096, .adcConversion 7 true (-1), .adcConversion 7 false 2048,
      .adcConversion 7 false (-2049)].all (fun c => !c.wellFormed) = true := by decide

/-- Boot and host operands out of range. -/
theorem test_ill_host :
    [Instr.otpDone (some []) false, .findDone [] [] [], .verifyDone [], .hifLinkUp 0 0, .hifLinkUp 6 0, .hifLinkUp 1 5,
      .vfEnable 0, .vfHoldSet 0, .vfHoldClear 0, .intMaskWrite 1 16, .unsupportedRequest 0, .doorbell 1 225 0,
      .descFetch 0 [0]].all (fun c => !c.wellFormed) = true := by decide

/-- A completion longer than 4,096 bytes. -/
theorem test_ill_completion : (Instr.completion 0 (List.replicate 4097 0)).wellFormed = false := by
  show decide ((List.replicate 4097 (0 : Byte)).length ≤ 4096) = false
  rw [List.length_replicate]; rfl

/-- Flash data longer than a page buffer. -/
theorem test_ill_flash : (Instr.qspiDone (List.replicate 257 0)).wellFormed = false := by
  show decide ((List.replicate 257 (0 : Byte)).length ≤ 256) = false
  rw [List.length_replicate]; rfl

/-- Table, line and field operands out of range. -/
theorem test_ill_tables :
    [Instr.pfcRx 0 0 [] 0, .clsEntryWrite true 256 0 0, .clsEntryWrite true 0 15 0, .clsEntryWrite false 0 7 0,
      .clsCommit true 256 0, .probeReceive 0 256 0 0, .probeReceive 0 0 (2 ^ 24) 0, .echoReceive 0 0 (some (32, 0)) 0 0,
      .echoReceive 0 0 none (2 ^ 24) 0, .smbSetAddr true (2 ^ 32), .tableParityError 2, .tableParityError 0x2E0880,
      .loopbackEnd 0].all (fun c => !c.wellFormed) = true := by decide

/-- And it takes commands at the ends of their ranges. -/
theorem test_well_formed :
    [Instr.registerWrite (.vf 15) false 0x7FFC 0, .rclrRead .bar0 false 0x3FFFFC, .adcConversion 7 false (-2048),
      .hifLinkUp 5 4, .doorbell 0 416 0, .clsEntryWrite true 255 14 0, .tableParityError 0x2E087C, .sagStart].all
      Instr.wellFormed = true := by decide

/-! ### The manual's worked examples -/

/-- Worked example 2.1: 13,600,000,000,987 fr + 686,096 mt is 1,700,000,000 s + 123,456,789 ns, subns 1,096. -/
theorem test_example_2_1 : ptpOf (13600000000987 * frMt + 686096) = (1700000000, 123456789, 1096) := by decide

/-- Worked example 3.1: a filter step, rounded toward zero. -/
theorem test_example_3_1 : filterStep true 4 105200000 104980200 = 105186263 := by decide

/-- Worked example 3.3, step 2: the first ride-through estimate. -/
theorem test_example_3_3_first :
    (rideUpdate true ((up [(FLD_CELL_C.VALUE, 40000), (MON_CELL_V.VALUE, 13000), (RAT_CELL_FLOOR.MIN_MV, 6000)]).dev.ratMod
      fun r => { r with filtP := 28000 })).rd RAT_RIDE.MS = 95000 := by decide

/-- Worked example 3.3, step 6: the estimate twelve seconds later. -/
theorem test_example_3_3_later :
    (rideUpdate false ((up [(FLD_CELL_C.VALUE, 40000), (MON_CELL_V.VALUE, 12894), (RAT_CELL_FLOOR.MIN_MV, 6000)]).dev.ratMod
      fun r => { r with sfLoss := 92, cellHist := List.replicate 9 12902 })).rd RAT_RIDE.MS = 646528 := by decide

/-- Worked example 7.3: the check of a wake pattern. -/
theorem test_example_7_3 : crc16 ([0x31, 0x32, 0x33, 0x34, 0x35, 0x36, 0x37, 0x38, 0x39] : Bytes) = 0x29B1 := by decide

/-- The CRC-32 of IEEE 802.3 of the nine digits, a published check value. -/
theorem test_crc32 : crc32 ([0x31, 0x32, 0x33, 0x34, 0x35, 0x36, 0x37, 0x38, 0x39] : Bytes) = 0xCBF43926 := by decide

/-- SHA-256 of the three letters abc, a published check value. -/
theorem test_sha256 :
    sha256 [0x61, 0x62, 0x63] = beBytes 32 0xBA7816BF8F01CFEA414140DE5DAE2223B00361A396177A9CB410FF61F20015AD := by decide

/-- Worked example 8.3: the swap time of a cycle of 8 fr. -/
theorem test_example_8_3 :
    firstStart (13600000002048 * frMt) (8 * frMt) (13600000004097 * frMt + 900000) = 13600000004104 * frMt := by decide

/-- Worked example 9.1: the number of slot 44, of slot 12 of the same round and of the next. -/
theorem test_example_9_1 :
    (timeSeq 0x0000100000001000 44 13600000000992, timeSeq 0x0000100000001000 12 13600000000992,
      timeSeq 0x0000100000001000 12 13600000001008) = (26749, 26748, 26750) := by decide

/-- A stream 210 that stands as Worked example 9.2 says, with number v and history h. -/
def stream210 (v h : Nat) : Dev := setRecov 210 v h (setSw 210 0 (3 + 7 * 16) (up []).dev)

/-- What recovery made of a frame: passed, RECOV_SEQ, history. -/
def recovered (x : FreOut × Dev) : Bool × Nat × Nat := (x.1.pass, x.2.recovSeq 210, x.2.history 210)

/-- Worked example 9.2 (Table 9.4), arrivals 1 to 6. -/
theorem test_example_9_2 :
    [recovered (recover 210 101 [] (stream210 100 0xFF)), recovered (recover 210 101 [] (stream210 101 0xFF)),
      recovered (recover 210 104 [] (stream210 101 0xFF)), recovered (recover 210 102 [] (stream210 104 0xF9)),
      recovered (recover 210 104 [] (stream210 104 0xFD)), recovered (recover 210 120 [] (stream210 104 0xFD))] =
    [(true, 101, 0xFF), (false, 101, 0xFF), (true, 104, 0xF9), (true, 104, 0xFD), (false, 104, 0xFD), (false, 104, 0xFD)] := by
  decide

/-- Worked example 10.1: the terms of the four channels and of the Pegline. -/
theorem test_example_10_1 :
    (gateTerm 2097152 500000 1, gateTerm 524288 65536 0, gateTerm 8388608 262144 1, gateTerm 1048576 1048576 1,
      pegTerm (List.replicate 4 (1536, 2))) = (35479, 3721, 18602, 74405, 768) := by decide

/-- Worked example 10.1: the limits at 80 and 90 per cent. -/
theorem test_example_10_1_limit : (admitLimit 80, admitLimit 90) = (203161, 228556) := by decide

/-! ### Single steps -/

/-- The device after a step that answers a next state. -/
def after (s : State) (c : Instr) : Option Dev :=
  match step { s with pending := [c] } with
  | .next t => some t.dev
  | _ => none

/-- A write of GLB_SCRATCH is read back. -/
theorem test_scratch : (after (up []) (.registerWrite .bar0 false 0x14 0xA5A5A5A5)).map (·.word 0x14) = some 0xA5A5A5A5 := by decide

/-- Worked example 8.1, step 5: CTRL written 0x0000_0001 to entry 40 reads 0x0000_0101. -/
theorem test_example_8_1 :
    (after (upd [] fun d => { d with tab := { d.tab with ex :=
        { held := true, dirty := true, idx := 40, w := [0x5E10002A, 0x200, 0, 0x8064, 0, 0x09600150, 7] } } })
      (.registerWrite .bar0 false 0x21051C 1)).map (fun d => (d.word 0x21051C, d.word 0x210514)) = some (0x101, 0x09600150) := by
  decide

/-- A write of 0x01_C000 is dropped and described (Chapter 19, boundary cases). -/
theorem test_gap :
    (after (up []) (.registerWrite .bar0 false 0x1C000 1)).map (fun d => (d.rd GLB_BADWR.COUNT, d.word 8)) =
      some (1, 0x1C000) := by decide

/-- No word spells a command, so the queue stays. -/
theorem test_no_words : State.reset.withFetchWord 32 5 = State.reset := by decide

/-! ### States and operands that meet the hypotheses of the obligations -/

/-- Reserved offsets, aligned and not, and a booted state. -/
theorem test_meets_ReservedOffsets :
    (0x84000 ≤ 0x100000 ∧ 0x100000 < 0x200000) ∧ (0x1C001 < 2 ^ 22 ∧ rowAt (0x1C001 / 4 * 4) = none) ∧
      (0x234000 < 2 ^ 22 ∧ ¬ 0x234000 < 0x200000 ∧ winOf (0x234000 / 4 * 4) = .gap) ∧ (up []).dev.booted = true := by decide

/-- A lane gated off; a channel OFF; one that may transmit; a step that leaves PD1 on. -/
theorem test_meets_TxdisReleased :
    ((up [(RAT_DOM_STATUS.LANE_ON, 1)]).dev.fld.tap = .none ∧
      (up [(RAT_DOM_STATUS.LANE_ON, 1)]).dev.bitOf RAT_DOM_STATUS.LANE_ON 2 = false) ∧
    (up []).dev.chRun 2 = 0 ∧
    (let d := (upCh 2 [(CHn_MOD_CFG.IGNORE_ABS 2, 1)] fun c => { c with modIn := true, modOk := true }).dev;
      d.bitOf RAT_DOM_STATUS.LANE_ON 2 = true ∧ d.chRun 2 ≠ 0 ∧ d.txPermit 2 = true) ∧
    (after (upCh 2 [] id) .tapBypass).map (fun d => (d.pd 1, decide (d.fld.tap = .none))) = some (true, true) := by decide

/-- A Hearth that stands; one that runs within its frame with no slew; a part in APPLY. -/
theorem test_meets_EmptyQueueTicks :
    (State.reset.dev.hearth.running = false ∧ State.reset.dev.bootSt ≠ 6) ∧ (up [(RST_BOOT_STATUS.STATE, 6)]).dev.bootSt = 6 ∧
    (let d := (up []).dev;
      d.hearth.running = true ∧ d.bootSt ≠ 6 ∧ d.on HRT_STATUS.SLEWING = false ∧
        (HCopy.clk d.hearth.slewInc d.hearth.a).t / frMt = d.hearth.a.t / frMt ∧
        (HCopy.clk d.hearth.slewInc d.hearth.a).era = d.hearth.a.era) := by decide

/-- The state right after reset meets the invariant and steps on. -/
theorem test_meets_SettledAfterEveryStep : State.reset.dev.settled ∧ ∃ t, step State.reset = .next t :=
  ⟨by unfold Dev.settled Dev.relaysFollow Dev.chargerFollows Dev.refoutFollows; decide, _, rfl⟩

/-- A step that leaves PD1 on. -/
theorem test_meets_FaultBitsFollow : ∃ t, step { up [] with pending := [.tapBypass] } = .next t ∧ t.dev.pd 1 = true :=
  ⟨_, rfl, by decide⟩

/-- The retention port of a state whose retention SRAM is in its form: a write, a read, a register write. -/
theorem test_meets_RetentionForm :
    Memory.wf (up [(RAT_RET_ADDR.WORD, 20)]).dev.sram = true ∧
    (∃ t, exec (.retDataWrite .pcie 7) (up [(RAT_RET_ADDR.WORD, 20)]) = .next t) ∧
    (∃ t, exec .retDataRead (up []) = .next t) ∧
    ∃ t, exec (.registerWrite .bar0 false RAT_RET_DATA.addr 7) (up []) = .next t :=
  ⟨by decide, ⟨_, rfl⟩, ⟨_, rfl⟩, _, rfl⟩

/-- Each premise of the clauses on the caps. -/
theorem test_meets_CapsOfEvaluation :
    (up []).dev.rat.shadow = none ∧ (up [(RAT_CTRL.BIV_REQ, 1)]).dev.on RAT_CTRL.BIV_REQ = true ∧
    (let d := (up [(RAT_STATUS.CAP_FEED, 1)]).dev.ratMod fun r => { r with filtV := 100000000 };
      d.rd RAT_STATUS.CAP_FEED ≤ 1 ∧ d.rd RAT_THR_TRIM.HOLD ≤ d.feedV) ∧
    (let d := (up [(RAT_STATUS.CAP_FEED, 3)]).dev;
      1 < d.rd RAT_STATUS.CAP_FEED ∧ d.feedV < d.rd RAT_THR_FULL.ENTER ∧ d.feedV < d.rd RAT_THR_TRIM.ENTER) ∧
    (let d := (up [(RAT_STATUS.CAP_FEED, 3)]).dev.ratMod fun r => { r with filtV := 100000000 };
      d.rd RAT_STATUS.CAP_FEED = 3 ∧ d.rd RAT_THR_LEAN.ENTER ≤ d.feedV) := by decide

/-- States and operands that meet the hypotheses of `Obligations.XrefDividersAndRate`. -/
theorem test_meets_XrefDividersAndRate :
    (let s : State := up []; (s.dev.boot.pllOnce = true)) ∧
    (let s : State := up [(CLK_STATUS.HELD, 1)]; (s.dev.on CLK_STATUS.HELD = true) ∧ (s.dev.hearth.heldBound = false)) ∧
    (let s : State := up [(CLK_STATUS.HELD, 1)]; (s.dev.on CLK_STATUS.HELD = true)) ∧
    (let s : State := up [(CLK_STATUS.RELOCKING, 1)]; (s.dev.on CLK_STATUS.RELOCKING = true)) ∧
    (let s : State := up []; let src : BusSrc := .pcie; let den : Word := 0xFFFFFF#32; (Reaches src s) ∧ (den.toNat < 2 ^ 24) ∧
      (8 * s.dev.rd CLK_MCLK_A_NUM.NUM ≤ den.toNat)) ∧
    (let s : State := up []; let src : BusSrc := .smbus; let den : Word := 0xFFFFFF#32; (Reaches src s) ∧
      (den.toNat < 2 ^ 24) ∧ (8 * s.dev.rd CLK_MCLK_B_NUM.NUM ≤ den.toNat)) ∧
    (let s : State := up []; let src : BusSrc := .image; let den : Word := 23#32; (Reaches src s) ∧
      (den.toNat < 8 * s.dev.rd CLK_MCLK_A_NUM.NUM)) ∧
    (let s : State := up []; let src : BusSrc := .pcie; let v : Word := 0xFF2E4929#32; (Reaches src s) ∧ (s.dev.src < 2) ∧
      (-13743895 ≤ v.toInt) ∧ (v.toInt ≤ 13743895) ∧ (s.dev.rd HRT_STATUS.STATE ≠ 3)) ∧
    (let s : State := up []; let src : BusSrc := .pcie; let v : Word := 13743896#32; (Reaches src s) ∧ (s.dev.src < 2) ∧
      (v.toInt < -13743895 ∨ 13743895 < v.toInt)) := by
  refine ⟨?_, ?_, ?_, ?_, ?_, ?_, ?_, ?_, ?_⟩ <;> decide

/-- States and operands that meet the hypotheses of `Obligations.HearthAdjustAndLoad`. -/
theorem test_meets_HearthAdjustAndLoad :
    (let s : State := up []; let src : BusSrc := .pcie; let ppm : Fin 512 := 500; (Reaches src s) ∧ (s.dev.src < 2) ∧
      (1 ≤ ppm.val) ∧ (ppm.val ≤ 500) ∧ (s.dev.on HRT_ADJ_CTRL.GO = false) ∧ (s.dev.rd HRT_STATUS.STATE ≠ 3)) ∧
    (let s : State := upd [] fun d => { d with hearth := { d.hearth with adj := .hw false (-5), adjArmed := true } };
      let off : Int := -5; (s.dev.adjValue = some (false, off)) ∧ (s.dev.hearth.adjArmed = true) ∧
      (s.dev.hearth.loadArmed = false)) ∧
    (let s : State := upd [] fun d => { d with hearth := { d.hearth with adj := .hw true (-5), adjArmed := true } };
      let off : Int := -5; (s.dev.adjValue = some (true, off)) ∧ (s.dev.hearth.adjArmed = true) ∧
      (s.dev.hearth.loadArmed = false)) ∧
    (let s : State := upd [(HRT_STATUS.SLEWING, 1)] fun d => { d with hearth := { d.hearth.all (fun c => { c with left := 5 * 2 ^ 32 }) with slewInc := 2 ^ 32 } };
      (s.dev.on HRT_STATUS.SLEWING = true) ∧ (s.dev.hearth.slewInc ≠ 0) ∧ (0 ≤ s.dev.hearth.slewInc * s.dev.hearth.a.left) ∧
      ((s.dev.hearth.a.run s.dev.hearth.slewInc (s.dev.hearth.a.slewClk s.dev.hearth.slewInc)).t / frMt = s.dev.frame)) ∧
    (let s : State := up []; (s.dev.booted = true) ∧ (s.dev.pd 0 = true) ∧ (s.dev.on HRT_STATUS.LOAD_PENDING = false)) ∧
    (let s : State := upd [] fun d => { d with hearth := { d.hearth with loadArmed := true } };
      (s.dev.hearth.loadArmed = true) ∧ (s.dev.hearth.adjArmed = false) ∧ (s.dev.hearth.loadHw = none) ∧
      (s.dev.peg.loading = false)) := by
  refine ⟨?_, ?_, ?_, ?_, ?_, ?_⟩ <;> decide

/-- States and operands that meet the hypotheses of `Obligations.HearthDiscipline`. -/
theorem test_meets_HearthDiscipline :
    (let s : State := upd [(HRT_STATUS.STATE, 1)] fun d => { d with hearth := { d.hearth with srcStands := 1 } }; (Taken 0 s)) ∧
    (let s : State := up [(HRT_STATUS.STATE, 2)]; (Taken 0 s)) ∧
    (let s : State := up [(HRT_STATUS.STATE, 2)]; (Taken 0 s) ∧
      (s.dev.rd HRT_STATUS.STATE ≠ 4 ∨ s.dev.hearth.loadedSince = false)) ∧
    (let s : State := upd [(HRT_STATUS.STATE, 4)] fun d => { d with hearth := { d.hearth with loadedSince := true } };
      (Taken 0 s) ∧ (s.dev.rd HRT_STATUS.STATE = 4) ∧ (s.dev.hearth.loadedSince = true)) ∧
    (let s : State := upd [(HRT_STATUS.STATE, 1)] fun d => { d with hearth := { d.hearth with srcStands := 1 } };
      (s.dev.booted = true) ∧ (s.dev.pd 0 = true) ∧ (s.dev.rd HRT_STATUS.STATE = 1) ∧ (s.dev.src = 1)) ∧
    (let s : State := upd [(HRT_STATUS.STATE, 2)] fun d => { d with hearth := { d.hearth with srcStands := 1 } };
      (s.dev.booted = true) ∧ (s.dev.pd 0 = true) ∧ (s.dev.rd HRT_STATUS.STATE = 2) ∧ (s.dev.src = 1)) ∧
    (let s : State := up [(HRT_STATUS.STATE, 2)]; (s.dev.booted = true) ∧ (s.dev.pd 0 = true) ∧
      (s.dev.rd HRT_STATUS.STATE = 2) ∧ (s.dev.pst = 0) ∧ (s.dev.isRef = false) ∧ (s.dev.isFirst = false)) ∧
    (let s : State := upd [(HRT_STATUS.STATE, 4)] fun d => { d with hearth := { d.hearth with loadedSince := true } };
      (s.dev.booted = true) ∧ (s.dev.pd 0 = true) ∧ (s.dev.rd HRT_STATUS.STATE = 4) ∧ (s.dev.hearth.loadedSince = true) ∧
      (s.dev.valid = true) ∧ (s.dev.src = 0)) ∧
    (let s : State := upd [(HRT_STATUS.STATE, 2), (HRT_HOST_WDOG.FRAMES, 10)] fun d => { d with hearth := { d.hearth with srcStands := 1, wdogFr := 10 } };
      (s.dev.rd HRT_STATUS.STATE = 2) ∧ (s.dev.src = 1) ∧ (s.dev.rd HRT_HOST_WDOG.FRAMES ≤ s.dev.hearth.wdogFr)) ∧
    (let s : State := upd [(HRT_STATUS.STATE, 3), (HRT_STATUS.TRACEABLE, 1), (HRT_HOLD_LIMIT.FRAMES, 10)] fun d => { d with hearth := { d.hearth with holdFr := 10 } };
      (s.dev.rd HRT_STATUS.STATE = 3) ∧ (s.dev.rd HRT_HOLD_LIMIT.FRAMES ≠ 0) ∧
      (s.dev.rd HRT_HOLD_LIMIT.FRAMES ≤ s.dev.hearth.holdFr) ∧ (s.dev.on HRT_STATUS.TRACEABLE = true)) ∧
    (let s : State := upd [(HRT_STATUS.STATE, 2)] fun d => { d with hearth := { d.hearth with srcStands := 3, ppsFr := 200000 } };
      (s.dev.rd HRT_STATUS.STATE = 2) ∧ (s.dev.src = 3) ∧ (s.dev.rd HRT_PPS_IN_CFG.MISS * 8000 ≤ s.dev.hearth.ppsFr)) := by
  refine ⟨?_, ?_, ?_, ?_, ?_, ?_, ?_, ?_, ?_, ?_, ?_⟩ <;> decide

/-- States and operands that meet the hypotheses of `Obligations.HearthVotePulsesAndFrames`. -/
theorem test_meets_HearthVotePulsesAndFrames :
    (let s : State := up [(RAT_DOM_STATUS.PD_ON, 1)]; let x : HCopy := { t := 77 }; (s.dev.hearth.running = true) ∧
      (s.dev.hearth.b = s.dev.hearth.a) ∧ (s.dev.hearth.c = s.dev.hearth.a) ∧ (x ≠ s.dev.hearth.a) ∧ (s.dev.pd 1 = false)) ∧
    (let s : State := up [(RAT_DOM_STATUS.PD_ON, 1)]; let x : HCopy := { t := 77 }; (s.dev.hearth.running = true) ∧
      (s.dev.hearth.b = s.dev.hearth.a) ∧ (s.dev.hearth.c = s.dev.hearth.a) ∧ (x ≠ s.dev.hearth.a) ∧ (s.dev.pd 1 = false)) ∧
    (let s : State := up [(RAT_DOM_STATUS.PD_ON, 1)]; let x : HCopy := { t := 77 }; (s.dev.hearth.running = true) ∧
      (s.dev.hearth.b = s.dev.hearth.a) ∧ (s.dev.hearth.c = s.dev.hearth.a) ∧ (x ≠ s.dev.hearth.a) ∧ (s.dev.pd 1 = false)) ∧
    (let s : State := up []; let a : HCopy := { t := 7 }; let b : HCopy := { t := 8 }; let c : HCopy := { t := 9 };
      (s.dev.hearth.running = true) ∧ (a ≠ b) ∧ (b ≠ c) ∧ (a ≠ c) ∧ (a.t / frMt = s.dev.frame) ∧
      (s.dev.rd HRT_STATUS.STATE ≠ 4)) ∧
    (let s : State := up [(HRT_PPS_IN_CFG.EN, 1)]; (s.dev.on HRT_PPS_IN_CFG.EN = true) ∧ (s.dev.src ≠ 3)) ∧
    (let s : State := upd [] fun d => { d with hearth := { d.hearth with ppsOn := true, ppsEnd := some 7, clk := 7 } };
      let k : Nat := 7; (s.dev.hearth.ppsEnd = some k) ∧ (s.dev.clkDue k = true)) ∧
    (let s : State := upd [] fun d => { d with hearth := { d.hearth with fsyncOn := true, fsyncEnd := 7, clk := 7 } };
      (s.dev.hearth.fsyncOn = true) ∧ (s.dev.clkDue s.dev.hearth.fsyncEnd = true)) ∧
    (let s : State := up []; (s.dev.hearth.running = true) ∧ (s.dev.booted = true) ∧ (s.dev.hearth.a.t < 2 ^ 64) ∧
      (s.dev.hearth.a.era < 16) ∧ (s.dev.hearth.a.frac < 2 ^ 32) ∧ (s.dev.hearth.a.rate.natAbs ≤ 13743895) ∧
      (s.dev.hearth.slewInc = 0)) := by
  refine ⟨?_, ?_, ?_, ?_, ?_, ?_, ?_, ?_⟩ <;> decide

/-- States and operands that meet the hypotheses of `Obligations.FeedSamplesLossAndGasp`. -/
theorem test_meets_FeedSamplesLossAndGasp :
    (let s : State := up []; let k : Fin 8 := 4; let code : Int := 700; (s.dev.hearth.running = true) ∧
      (k = 0 ∨ k = 2 ∨ k = 4) ∧ (code < 4096)) ∧
    (let s : State := up []; let k : Fin 8 := 5; (s.dev.hearth.running = true) ∧ (k = 1 ∨ k = 3 ∨ k = 5)) ∧
    (let s : State := up []; (s.dev.hearth.running = true)) ∧
    (let s : State := up []; (s.dev.hearth.running = true)) ∧
    (let s : State := upd [(RAT_THR_LOSS.LOSS_N, 3), (RAT_STATUS.TIER, 2)] fun d => { d with rat := { d.rat with lowRun := 15 } };
      (s.dev.rd RAT_THR_LOSS.LOSS_N ≤ s.dev.rat.lowRun) ∧ (s.dev.ratOn RAT_STATUS.LOSS = false) ∧ (s.dev.chan.length = 4)) ∧
    (let s : State := upd [(RAT_STATUS.TIER, 2), (CHn_STATUS.LINK 0, 1), (CHn_STATUS.RUN 0, 2)] fun d => { d with rat := { d.rat with gaspLeft := 2 } };
      let m : Mote := 3; (s.dev.gaspLink = true) ∧ (0 < s.dev.rat.gaspLeft) ∧ (s.dev.rat.gaspNext ≤ (atMote m s.dev).nowExt) ∧
      (s.dev.chan.length = 4)) ∧
    (let s : State := upd [] fun d => { d with rat := { d.rat with gaspLeft := 2 } }; let m : Mote := 3;
      (s.dev.gaspLink = false) ∧ (0 < s.dev.rat.gaspLeft) ∧ (s.dev.rat.gaspNext ≤ (atMote m s.dev).nowExt)) ∧
    (let s : State := upd [] fun d => { d with rat := { d.rat with gaspOut := true } }; (s.dev.rat.gaspOut = true) ∧
      (bit (s.dev.ramWord 4) 8 = false)) := by
  refine ⟨?_, ?_, ?_, ?_, ?_, ?_, ?_, ?_⟩ <;> decide

/-- States and operands that meet the hypotheses of `Obligations.HostPowerAndRetention`. -/
theorem test_meets_HostPowerAndRetention :
    (let s : State := upd [(RAT_STATUS.PHASE, 2)] fun d => { d with rat := { d.rat with refDown := some 70000, announced := 1 } };
      let n : Nat := 70000; (s.dev.rat.refDown = some n) ∧ (s.dev.rd RAT_HOST_CFG.REF_HOLD_FR ≤ n) ∧ (s.dev.hostDue = true)) ∧
    (let s : State := upd [] fun d => { d with rat := { d.rat with refDown := some 70000 } }; let n : Nat := 70000;
      (s.dev.rat.refDown = some n) ∧ (s.dev.rd RAT_HOST_CFG.REF_HOLD_FR ≤ n) ∧ (s.dev.hostDue = false)) ∧
    (let s : State := upd [] fun d => { d with rat := { d.rat with refUp := some 70000 } }; let n : Nat := 70000;
      (s.dev.rat.refUp = some n) ∧ (s.dev.rd RAT_HOST_CFG.REF_DELAY_FR ≤ n) ∧ (s.dev.boot.step ≠ 3)) ∧
    (let s : State := upd [] fun d => { d with rat := { d.rat with refUp := some 70000 }, boot := { d.boot with step := 3 }, hearth := { d.hearth with clk := 100000000 } };
      let n : Nat := 70000; (s.dev.rat.refUp = some n) ∧ (s.dev.boot.step = 3) ∧
      (s.dev.clkDue (s.dev.boot.stepClk + 80 * frClk) = true)) ∧
    (let s : State := up [(RAT_RET_ADDR.WORD, 15)]; (s.dev.booted = true)) ∧
    (let s : State := up [(RAT_RET_ADDR.WORD, 16383)]; let src : BusSrc := .pcie; (Reaches src s) ∧
      (16 ≤ s.dev.rd RAT_RET_ADDR.WORD)) ∧
    (let s : State := up []; let src : BusSrc := default; (Reaches src s) ∧ (s.dev.rd RAT_RET_ADDR.WORD < 16)) := by
  refine ⟨?_, ?_, ?_, ?_, ?_, ?_, ?_⟩ <;> decide

/-- States and operands that meet the hypotheses of `Obligations.BivouacAndWake`. -/
theorem test_meets_BivouacAndWake :
    (let s : State := up []; (Taken 0 s)) ∧
    (let s : State := up []; (Taken 0 s)) ∧
    (let s : State := upd [(RAT_STATUS.TIER, 5), (RAT_BIV_CFG.WAKE_TIMER, 1), (RAT_DOM_STATUS.PD_ON, 1), (RAT_DOM_STATUS.PMEM_SR, 1)] fun d => { d with rat := { d.rat with timer := some 5 } };
      let m : Mote := 9; let t : Nat := 5; (s.dev.rat.timer = some t) ∧ (t ≤ (atMote m s.dev).now) ∧ (s.dev.valid = true) ∧
      (s.dev.booted = true) ∧ (4 ≤ s.dev.tier) ∧ (s.dev.rat.wakeFr = none) ∧ (s.dev.capsHold = false) ∧
      (s.dev.on RAT_BIV_CFG.WAKE_TIMER = true) ∧ (s.dev.rat.shadow = none) ∧ (s.dev.on RAT_DOM_STATUS.PMEM_SR = true)) ∧
    (let s : State := upd [(RAT_STATUS.TIER, 5), (RAT_STATUS.TARGET, 3)] fun d => { d with rat := { d.rat with wakeFr := some 33, sfEv := true } };
      let n : Nat := 33; (s.dev.rat.wakeFr = some n) ∧ (33 ≤ n) ∧ (s.dev.booted = true) ∧ (s.dev.rat.sfEv = true) ∧
      (s.dev.ratGet RAT_STATUS.TARGET < 4)) := by
  refine ⟨?_, ?_, ?_, ?_⟩ <;> decide

/-- States and operands that meet the hypotheses of `Obligations.ResetsBegin`. -/
theorem test_meets_ResetsBegin :
    (let s : State := up []; (s.dev.boot.porLow = false)) ∧
    (let s : State := up []; (Taken 0 s) ∧ (s.dev.boot.kind = none)) ∧
    (let s : State := up []; (Taken 0 s) ∧ (s.dev.boot.kind = none)) := by
  refine ⟨?_, ?_, ?_⟩ <;> decide

/-- States and operands that meet the hypotheses of `Obligations.ResetsEnd`. -/
theorem test_meets_ResetsEnd :
    (let s : State := upd [] fun d => { d with boot := { d.boot with porLow := true } }; (s.dev.boot.porLow = true) ∧
      (s.dev.boot.sysLow = false)) ∧
    (let s : State := upd [(RST_BOOT_STATUS.STATE, 1)] fun d => { d with boot := { d.boot with kind := some .por, asserted := true } };
      (s.dev.bootSt = 1) ∧ (s.dev.boot.porLow = false) ∧ (s.dev.boot.kind = some .por)) ∧
    (let s : State := up [(RST_BOOT_STATUS.STATE, 2)]; (s.dev.bootSt = 2)) ∧
    (let s : State := upd [] fun d => { d with boot := { d.boot with kind := some .cold, asserted := true, sysLow := true } };
      (s.dev.boot.sysLow = true) ∧ (s.dev.boot.asserted = true) ∧ (s.dev.boot.kind = some .cold) ∧ (s.dev.boot.pllOnce = true)) ∧
    (let s : State := upd [] fun d => { d with boot := { d.boot with kind := some .cold, asserted := true } };
      (s.dev.boot.sysLow = false) ∧ (s.dev.boot.asserted = true) ∧ (s.dev.boot.kind = some .cold) ∧
      (s.dev.boot.pllOnce = true)) ∧
    (let s : State := upd [] fun d => { d with boot := { d.boot with kind := some .cold, asserted := true, sysLow := true } };
      (s.dev.boot.sysLow = true)) ∧
    (let s : State := upd [(RST_BOOT_STATUS.STATE, 11)] fun d => { d with boot := { d.boot with kind := some .warm, asserted := true } };
      (s.dev.bootSt = 11) ∧ (s.dev.boot.kind = some .warm)) := by
  refine ⟨?_, ?_, ?_, ?_, ?_, ?_, ?_⟩ <;> decide

/-- States and operands that meet the hypotheses of `Obligations.PowerUpOrder`. -/
theorem test_meets_PowerUpOrder :
    (let s : State := upd [(RST_BOOT_STATUS.STATE, 3), (RAT_DOM_STATUS.PD_ON, 1)] fun d => { d with boot := { d.boot with kind := some .cold, rails := List.replicate 7 true, step := 0 } };
      (s.dev.boot.asserted = false) ∧ (s.dev.bootSt = 3) ∧ (s.dev.boot.step = 0) ∧ (s.dev.clkDue s.dev.boot.stepClk = true) ∧
      (s.dev.boot.rails.getD 1 false = true)) ∧
    (let s : State := upd [(RST_BOOT_STATUS.STATE, 3), (RAT_DOM_STATUS.PD_ON, 3)] fun d => { d with hearth := { d.hearth with clk := 100000000 }, boot := { d.boot with kind := some .cold, rails := List.replicate 7 true, step := 1 } };
      (s.dev.boot.asserted = false) ∧ (s.dev.bootSt = 3) ∧ (s.dev.boot.step = 1) ∧
      (s.dev.clkDue (s.dev.boot.stepClk + frClk) = true) ∧ (s.dev.boot.rails.getD 2 false = true)) ∧
    (let s : State := upd [(RST_BOOT_STATUS.STATE, 3), (RAT_DOM_STATUS.PD_ON, 7), (PMC_STATUS.INIT_DONE, 1)] fun d => { d with hearth := { d.hearth with clk := 100000000 }, boot := { d.boot with kind := some .cold, rails := List.replicate 7 true, step := 2 } };
      (s.dev.boot.asserted = false) ∧ (s.dev.bootSt = 3) ∧ (s.dev.boot.step = 2) ∧
      (s.dev.clkDue (s.dev.boot.stepClk + 8 * frClk) = true) ∧ (s.dev.on PMC_STATUS.INIT_DONE = true) ∧
      (s.dev.boot.kind = some .cold) ∧ (s.dev.boot.wakeBoot = false) ∧ (s.dev.railsMissing = [])) ∧
    (let s : State := upd [(RST_BOOT_STATUS.STATE, 3), (RAT_DOM_STATUS.PD_ON, 1)] fun d => { d with hearth := { d.hearth with running := false }, boot := { d.boot with step := 1 } };
      (s.dev.boot.asserted = false) ∧ (s.dev.bootSt = 3) ∧ (s.dev.boot.step < 3) ∧ (s.dev.clkDue s.dev.stepDue = false)) ∧
    (let s : State := upd [(RST_BOOT_STATUS.STATE, 3), (RAT_DOM_STATUS.PD_ON, 1)] fun d => { d with boot := { d.boot with step := 0 } };
      (s.dev.boot.asserted = false) ∧ (s.dev.bootSt = 3) ∧ (s.dev.boot.step = 0) ∧ (s.dev.clkDue s.dev.boot.stepClk = true) ∧
      (s.dev.boot.rails.getD 1 false = false)) ∧
    (let s : State := up []; (s.dev.rd RST_BOOT_STATUS.RAIL_WAIT = 0)) ∧
    (let s : State := upd [(RST_BOOT_STATUS.STATE, 3), (RAT_DOM_STATUS.PD_ON, 1), (RST_BOOT_STATUS.RAIL_WAIT, 2)] fun d => { d with boot := { d.boot with step := 0 } };
      (s.dev.rd RST_BOOT_STATUS.RAIL_WAIT ≠ 0) ∧ (s.dev.boot.step = 0) ∧ (s.dev.boot.rails.length = 7)) ∧
    (let s : State := upd [(RST_BOOT_STATUS.STATE, 3), (RAT_DOM_STATUS.PD_ON, 7)] fun d => { d with hearth := { d.hearth with clk := 100000000 }, boot := { d.boot with kind := some .cold, rails := List.replicate 7 true, step := 2 } };
      (s.dev.bootSt = 3) ∧ (s.dev.boot.step = 2) ∧ (s.dev.boot.asserted = false) ∧ (s.dev.on PMC_STATUS.INIT_DONE = false) ∧
      (s.dev.clkDue s.dev.stepDue = true)) := by
  refine ⟨?_, ?_, ?_, ?_, ?_, ?_, ?_, ?_⟩ <;> decide

/-- States and operands that meet the hypotheses of `Obligations.BootSlotsAndEnds`. -/
theorem test_meets_BootSlotsAndEnds :
    (let s : State := up [(RST_BOOT_STATUS.STATE, 4)]; let slotA : Bytes := upImage; let slotB : Bytes := upImage;
      (s.dev.bootSt = 4) ∧ (findCode (s.dev.on RST_OTP.REQUIRE_TAG) (flashTaken 64 slotA) = 0) ∧
      (findCode (s.dev.on RST_OTP.REQUIRE_TAG) (flashTaken 64 slotB) = 0)) ∧
    (let s : State := up [(RST_BOOT_STATUS.STATE, 4)]; let slotA : Bytes := []; let slotB : Bytes := []; (s.dev.bootSt = 4) ∧
      (findCode (s.dev.on RST_OTP.REQUIRE_TAG) (flashTaken 64 slotA) ≠ 0) ∧
      (findCode (s.dev.on RST_OTP.REQUIRE_TAG) (flashTaken 64 slotB) ≠ 0)) ∧
    (let s : State := up [(RST_BOOT_STATUS.STATE, 4)]; (s.dev.bootSt = 4)) ∧
    (let s : State := upd [(RST_BOOT_STATUS.STATE, 5)] fun d => { d with boot := { d.boot with cands := [1, 2], hdrA := upImage.take 64 } };
      let bs : Bytes := upImage; (s.dev.bootSt = 5) ∧ (s.dev.boot.cands = [1, 2]) ∧
      ((flashTaken (imgLen s.dev.boot.hdrA) bs).take 64 = s.dev.boot.hdrA) ∧
      (verifyCode (s.dev.on RST_OTP.KEY_PROG) s.dev.boot.otpKey (flashTaken (imgLen s.dev.boot.hdrA) bs) = (1, 65535))) ∧
    (let s : State := upd [(RST_BOOT_STATUS.STATE, 5)] fun d => { d with boot := { d.boot with cands := [1, 2], hdrA := upImage.take 64 } };
      let bs : Bytes := upImage.set 72 1; (s.dev.bootSt = 5) ∧ (s.dev.boot.cands = [1, 2]) ∧
      ((flashTaken (imgLen s.dev.boot.hdrA) bs).take 64 = s.dev.boot.hdrA) ∧
      (checkOk (flashTaken (imgLen s.dev.boot.hdrA) bs) = false)) ∧
    (let s : State := up [(RST_BOOT_STATUS.STATE, 4)]; (s.dev.bootSt = 4)) ∧
    (let s : State := upd [(RST_BOOT_STATUS.STATE, 5)] fun d => { d with boot := { d.boot with cands := [1, 2], hdrA := upImage.take 64 } };
      let bs : Bytes := upImage; let sl : Nat := 1; let rest : List Nat := [2]; let hdr : Bytes := upImage.take 64;
      (s.dev.bootSt = 5) ∧ (s.dev.boot.cands = sl :: rest) ∧
      (sl = 1 ∧ hdr = s.dev.boot.hdrA ∨ sl = 2 ∧ hdr = s.dev.boot.hdrB) ∧ ((flashTaken (imgLen hdr) bs).take 64 = hdr)) ∧
    (let s : State := upd [(RST_BOOT_STATUS.STATE, 6)] fun d => { d with boot := { d.boot with cands := [1], image := upImage } };
      (s.dev.bootSt = 6) ∧ (s.dev.boot.cands = [1])) ∧
    (let s : State := upd [(RST_BOOT_STATUS.STATE, 6)] fun d => { d with boot := { d.boot with cands := [2], image := upImage } };
      (s.dev.bootSt = 6) ∧ (s.dev.boot.cands = [2])) ∧
    (let s : State := up [(RST_BOOT_STATUS.STATE, 7)]; (s.dev.bootSt = 7) ∧ (s.dev.boot.ready = false)) ∧
    (let s : State := up [(RST_BOOT_STATUS.STATE, 8)]; (s.dev.bootSt = 8) ∧ (s.dev.boot.ready = false) ∧
      (calOk s.dev.boot.calPage = false)) ∧
    (let s : State := up [(RST_BOOT_STATUS.STATE, 8)]; (s.dev.bootSt = 8) ∧ (s.dev.boot.ready = false)) ∧
    (let s : State := upd [(RST_BOOT_STATUS.STATE, 7)] fun d => { d with boot := { d.boot with kind := some .cold, ready := true, due := true } };
      (s.dev.boot.ready = true) ∧ (s.dev.boot.due = true) ∧ (s.dev.bootSt = 7 ∨ s.dev.bootSt = 8)) ∧
    (let s : State := up [(RST_BOOT_STATUS.STATE, 9)]; (Taken 0 s) ∧ (s.dev.bootSt = 9) ∧ (s.dev.boot.release = false)) ∧
    (let s : State := upd [(RST_BOOT_STATUS.STATE, 9), (RST_BOOT_STATUS.HOLD, 1)] fun d => { d with boot := { d.boot with release := true, due := true } };
      (s.dev.bootSt = 9) ∧ (s.dev.boot.release = true) ∧ (s.dev.boot.due = true)) := by
  refine ⟨?_, ?_, ?_, ?_, ?_, ?_, ?_, ?_, ?_, ?_, ?_, ?_, ?_, ?_, ?_⟩ <;> decide

/-- States and operands that meet the hypotheses of `Obligations.HostResetsAndLink`. -/
theorem test_meets_HostResetsAndLink :
    (let s : State := upDma [] [] id; (s.dev.pd 4 = true) ∧ (s.dev.on HIF_STATUS.PERST = false)) ∧
    (let s : State := upDma [] [] id; (s.dev.on HIF_STATUS.DL_UP = true)) ∧
    (let s : State := upDma [] [] id; (s.dev.on HIF_STATUS.DL_UP = true)) ∧
    (let s : State := upDma [(HIF_CTRL.LINK_EN, 1)] [] id; (Taken 4 s) ∧ (s.dev.on HIF_CTRL.LINK_EN = true) ∧
      (s.dev.on HIF_STATUS.DL_UP = true)) ∧
    (let s : State := up [(HIF_STATUS.PERST, 1), (HIF_STATUS.REFOUT_READY, 1)]; (s.dev.pd 4 = true) ∧
      (s.dev.on HIF_STATUS.PERST = true) ∧ (s.dev.on HIF_STATUS.REFOUT_READY = true)) ∧
    (let s : State := up [(HIF_STATUS.PERST, 1)]; (s.dev.pd 4 = true) ∧ (s.dev.on HIF_STATUS.PERST = true) ∧
      (s.dev.on HIF_STATUS.REFOUT_READY = false)) ∧
    (let s : State := upd [(CLK_STATUS.REFOUT_ON, 1)] fun d => { d with host := { d.host with refFr := 8 } };
      (s.dev.on CLK_STATUS.REFOUT_ON = true) ∧ (8 ≤ s.dev.host.refFr)) ∧
    (let s : State := up [(HIF_STATUS.PERST, 0), (HIF_STATUS.REFOUT_READY, 1), (HIF_CTRL.LINK_EN, 1)]; (s.dev.pd 4 = true) ∧
      (s.dev.on HIF_STATUS.PERST = false) ∧ (s.dev.on HIF_STATUS.REFOUT_READY = true) ∧ (s.dev.on HIF_CTRL.LINK_EN = true) ∧
      (s.dev.on HIF_STATUS.DL_UP = false)) := by
  refine ⟨?_, ?_, ?_, ?_, ?_, ?_, ?_, ?_⟩ <;> decide

/-- States and operands that meet the hypotheses of `Obligations.Functions`. -/
theorem test_meets_Functions :
    (let s : State := upd [(HIF_STATUS.DL_UP, 1), (HIF_VF_STATE.VF, 4)] fun d => { d with host := { d.host with fns := d.host.fns.modify 2 fun g => { g with mse := true, bme := true } } };
      let f : Fin 16 := 2; (s.dev.booted = true) ∧ (f ≠ 0) ∧ (s.dev.fnState f.val = 1)) ∧
    (let s : State := upd [(HIF_STATUS.DL_UP, 1), (HIF_VF_STATE.VF, 4)] fun d => { d with host := { d.host with fns := d.host.fns.modify 2 fun g => { g with mse := true, bme := true } } };
      let f : Fin 16 := 2; (Taken 4 s) ∧ (f ≠ 0) ∧ (s.dev.fnState f.val = 1) ∧ (s.dev.holdOf f.val = false)) ∧
    (let s : State := up [(HIF_VF_STATE.VF, 0x30000000), (HIF_VF_HOLD.HOLD, 0x4000)]; let f : Fin 16 := 15; (Taken 4 s) ∧
      (f ≠ 0) ∧ (s.dev.fnState f.val = 3)) ∧
    (let s : State := up []; (s.dev.booted = true) ∧ (s.dev.fnState 0 ≠ 0) ∧ (s.dev.on HIF_STATUS.VF_ENABLE = false)) ∧
    (let s : State := up [(HIF_STATUS.VF_ENABLE, 1), (HIF_VF_STATE.VF, 0x6D)]; (s.dev.booted = true) ∧ (s.dev.fnState 0 ≠ 0) ∧
      (s.dev.on HIF_STATUS.VF_ENABLE = true)) ∧
    (let s : State := upd [(HIF_VF_STATE.VF, 8), (HIF_STATUS.VF_ENABLE, 1), (HIF_STATUS.NUMVFS, 2)] fun d => { d with hearth := { d.hearth with clk := 100000000 } };
      let f : Fin 16 := 2; let m : Mote := 3; (s.dev.fnState f.val = 2) ∧
      (s.dev.kennelEnd f.val ≤ (atMote m s.dev).hearth.clk) ∧ (wireHolds f.val s.dev = false) ∧
      (s.dev.cmpDraining (fun r => s.dev.ringFn r == some f.val) = false)) ∧
    (let s : State := up [(HIF_VF_STATE.VF, 8), (HIF_STATUS.VF_ENABLE, 1), (HIF_STATUS.NUMVFS, 2)]; let f : Fin 16 := 2;
      let m : Mote := 3; (s.dev.fnState f.val = 2) ∧ ((atMote m s.dev).hearth.clk < s.dev.kennelEnd f.val)) := by
  refine ⟨?_, ?_, ?_, ?_, ?_, ?_, ?_⟩ <;> decide

/-- States and operands that meet the hypotheses of `Obligations.FunctionSetUp`. -/
theorem test_meets_FunctionSetUp :
    (let s : State := up [(HIF_FNf_QP.COUNT 0, 0)]; let src : BusSrc := .pcie; let f : Fin 16 := 3; let which : Fin 3 := 0;
      let x : Word := 0x100010#32; (Reaches src s) ∧ (f ≠ 0) ∧ (regBad (assignOff f.val which.val) x.toNat s.dev = false) ∧
      (assignFits f.val which.val (s.dev.setWord (assignOff f.val which.val) x.toNat) = true) ∧
      (s.dev.fnState f.val = 0 ∨ s.dev.fnState f.val = 3)) ∧
    (let s : State := up []; let src : BusSrc := .image; let f : Fin 16 := 3; let which : Fin 3 := 0;
      let x : Word := 0x100010#32; (Reaches src s) ∧
      (assignFits f.val which.val (s.dev.setWord (assignOff f.val which.val) x.toNat) = false)) ∧
    (let s : State := up []; (Taken 1 s)) ∧
    (let s : State := upd [(HIF_STATUS.DL_UP, 1), (HIF_VF_STATE.VF, 4)] fun d => { d with host := { d.host with fns := d.host.fns.modify 2 fun g => { g with mse := true, bme := true } } };
      let f : Fin 16 := 2; let x : BitVec 21 := 15; (s.dev.booted = true) ∧ (f ≠ 0) ∧ (s.dev.aperture f.val = true) ∧
      (x.toNat < 16) ∧ (s.dev.host.fns.length = 16)) ∧
    (let s : State := up [(HIF_VF_STATE.VF, 1 * 4 ^ 14)]; let f : Fin 16 := 15; let d3 : Bool := true; (s.dev.booted = true) ∧
      (s.dev.fnState f.val ≠ 0) ∧ (f ≠ 0) ∧ ((s.dev.fn f.val).d3 ≠ d3) ∧ (d3 = true ∨ (s.dev.fn f.val).bme = false) ∧
      (s.dev.host.fns.length = 16)) ∧
    (let s : State := up []; let d3 : Bool := true; (s.dev.booted = true) ∧ (s.dev.fnState 0 ≠ 0) ∧ ((s.dev.fn 0).d3 ≠ d3) ∧
      (d3 = true ∨ (s.dev.fn 0).bme = false) ∧ (s.dev.host.fns.length = 16)) ∧
    (let s : State := up []; let f : Fin 16 := 1; (s.dev.booted = true) ∧ (s.dev.closedVf f.val = true)) ∧
    (let s : State := up []; let f : Fin 16 := 0; (s.dev.booted = true) ∧ (s.dev.fnState f.val ≠ 0)) ∧
    (let s : State := up []; let f : Fin 16 := 0; let bme : Bool := false; (s.dev.booted = true) ∧ (s.dev.fnState f.val ≠ 0) ∧
      (s.dev.fnLive f.val = true ∨ bme = false) ∧ (s.dev.host.fns.length = 16)) ∧
    (let s : State := up [(RST_BOOT_STATUS.STATE, 10)]; let f : Fin 16 := 15; (s.dev.booted = true) ∧
      (s.dev.fnState f.val = 0)) ∧
    (let s : State := up [(RST_BOOT_STATUS.STATE, 6)]; (s.dev.booted = false)) := by
  refine ⟨?_, ?_, ?_, ?_, ?_, ?_, ?_, ?_, ?_, ?_, ?_⟩ <;> decide

/-- States and operands that meet the hypotheses of `Obligations.FetchPayloadAndFailures`. -/
theorem test_meets_FetchPayloadAndFailures :
    (let s : State := upDma [] [(5, { st := 2, prod := 8 })] fun d => { d with host := { d.host with reads := [{ use := .desc 5 8 }] } };
      let t : Nat := 0; let r : Nat := 5; let n : Nat := 8; (OneRead t (.desc r n) s)) ∧
    (let s : State := upDma [] [(5, { st := 2, prod := 8 })] fun d => { d with host := { d.host with reads := [{ use := .desc 5 8 }] } };
      let t : Nat := 0; let r : Nat := 5; let n : Nat := 8; (OneRead t (.desc r n) s)) ∧
    (let s : State := upDma [] [(5, { st := 2, prod := 8 })] fun d => { d with host := { d.host with reads := [{ use := .desc 5 8 }] } };
      let t : Nat := 0; let r : Nat := 5; let n : Nat := 8; (OneRead t (.desc r n) s) ∧ (OnlyRing r s) ∧
      ((s.dev.ring r).st = 2) ∧ ((s.dev.ring r).taken = []) ∧ (r < 128)) ∧
    (let s : State := upDma [] [(130, { st := 2, prod := 2 })] fun d => { d with host := { d.host with reads := [{ use := .desc 130 2 }] } };
      let t : Nat := 0; let bs : Bytes := (List.replicate 64 0xFF#8); let r : Nat := 130; let n : Nat := 2;
      (OneRead t (.desc r n) s) ∧ (OnlyRing r s) ∧ (ringKind r = 1) ∧ ((s.dev.ring r).st = 2) ∧ ((s.dev.ring r).rxq = []) ∧
      ((s.dev.ring r).taken = []) ∧ ((s.dev.ring r).prod = ((s.dev.ring r).cons + n) % 65536) ∧
      ((s.dev.ring r).cyclic = false) ∧ (n ≤ 8) ∧ ((s.dev.ring r).cons < 65536) ∧ (bs.length = 32 * n) ∧
      (((List.range n).all fun i => bit ((descWords bs i).getD 7 0) 31) = true)) ∧
    (let s : State := upDma [] [(130, { st := 2, prod := 2 })] fun d => { d with host := { d.host with reads := [{ use := .desc 130 2 }] } };
      let t : Nat := 0; let bs : Bytes := (List.replicate 64 0x7F#8); let r : Nat := 130; let n : Nat := 2;
      (OneRead t (.desc r n) s) ∧ (OnlyRing r s) ∧ (ringKind r = 1) ∧ ((s.dev.ring r).st = 2) ∧ ((s.dev.ring r).rxq = []) ∧
      ((s.dev.ring r).taken = []) ∧ ((s.dev.ring r).cyclic = false) ∧ (0 < n) ∧ (bs.length = 32 * n) ∧
      (bit ((descWords bs 0).getD 7 0) 31 = false)) ∧
    (let s : State := upDma [] [(3, { st := 2, taken := [{ begun := true, need := 128 }] })] fun d => { d with host := { d.host with reads := [{ use := .pay 3 0 64 64 }] } };
      let t : Nat := 0; let bs : Bytes := (List.replicate 64 0x7F#8); let r : Nat := 3; let n : Nat := 64; let off : Nat := 64;
      let z : Desc := { begun := true, need := 128 }; (OneRead t (.pay r (s.dev.ring r).cons off n) s) ∧ (OnlyRing r s) ∧
      (QueuesClean s) ∧ (ringKind r = 0) ∧ ((s.dev.ring r).taken = [z]) ∧ (z.begun = true) ∧ (z.done = false) ∧
      (z.entered = false) ∧ (n < z.need) ∧ ((s.dev.ring r).cons < 65536) ∧ (bs.length = n)) ∧
    (let s : State := upDma [] [] fun d => { d with host := { d.host with reads := [{ orphan := true, use := .pay 3 0 64 64 }] } };
      let t : Nat := 0; let f : Nat := 0; let ep : Nat := 0; let u : Use := .pay 3 0 64 64;
      (s.dev.host.reads = [{ tag := t, fn := f, epoch := ep, orphan := true, use := u }]) ∧ (s.dev.host.rings = []) ∧
      (s.dev.host.wants = []) ∧ (NoRequests s) ∧ (QueuesClean s)) ∧
    (let s : State := upDma [(DMA_FNf_DTAGS.QUOTA 0, 8)] [(130, { st := 2, prod := 2, tagWait := true })] id;
      let ring : Fin 432 := 130; (s.dev.host.rings = [(ring.val, { st := 2, prod := 2, tagWait := true })]) ∧
      (s.dev.host.reads = []) ∧ (s.dev.host.wants = []) ∧ (NoRequests s) ∧ (s.dev.ringFn ring.val = some 0) ∧
      (ringKind ring.val = 1) ∧ (s.dev.fnLive 0 = true) ∧ (0 < s.dev.rd (DMA_FNf_DTAGS.QUOTA 0))) := by
  refine ⟨?_, ?_, ?_, ?_, ?_, ?_, ?_, ?_⟩ <;> decide

/-- States and operands that meet the hypotheses of `Obligations.Doorbells`. -/
theorem test_meets_Doorbells :
    (let s : State := upDma [] [(5, { st := 2, cons := 65530, prod := 65530 })] id; let f : Fin 16 := 0;
      let slot : Fin 417 := 5; let x : Word := 58#32; let r : Nat := 5; (Taken 1 s) ∧ (s.dev.aperture f.val = true) ∧
      (s.dev.slotRing f.val slot.val = some r) ∧ (x.toNat < 65536) ∧ ((s.dev.ring r).cyclic = false) ∧
      ((x.toNat + 65536 - (s.dev.ring r).consumed) % 65536 ≤ ringLen (s.dev.ring r).size)) ∧
    (let s : State := upDma [] [(5, { st := 2, cons := 65530, prod := 65530 })] id; let f : Fin 16 := 0;
      let slot : Fin 417 := 5; let x : Word := 59#32; let r : Nat := 5; (Taken 1 s) ∧ (s.dev.aperture f.val = true) ∧
      (s.dev.slotRing f.val slot.val = some r) ∧ (x.toNat < 65536) ∧ ((s.dev.ring r).cyclic = false) ∧
      (ringLen (s.dev.ring r).size < (x.toNat + 65536 - (s.dev.ring r).consumed) % 65536)) ∧
    (let s : State := upDma [(HIF_FNf_MISC.PEG_CNT 0, 0)] [] id; let f : Fin 16 := 0; let slot : Fin 417 := 415;
      let x : Word := 1#32; (Taken 1 s) ∧ (s.dev.aperture f.val = true) ∧ (s.dev.slotRing f.val slot.val = none) ∧
      (x.toNat < 65536)) ∧
    (let s : State := upDma [] [(5, { st := 2, cons := 65530, prod := 65530 })] id; let f : Fin 16 := 0; (Taken 1 s) ∧
      (s.dev.aperture f.val = true) ∧ ((s.dev.ring (416 + f.val)).st = 0) ∧ (s.dev.host.fns.length = 16)) ∧
    (let s : State := upDma [] [] fun d => { d with host := { d.host with fns := d.host.fns.modify 0 fun g => { g with mbxLo := some 3 } } };
      let f : Fin 16 := 0; let x : BitVec 30 := 0x3EBFFFFF#30; let lo : Nat := 3; (Taken 1 s) ∧ (s.dev.aperture f.val = true) ∧
      ((s.dev.ring (416 + f.val)).st = 0) ∧ ((s.dev.fn f.val).mbxLo = some lo) ∧ (bits x.toNat 22 3 ≤ 6) ∧
      (s.dev.host.fns.length = 16)) ∧
    (let s : State := upDma [] [(4, { cyclic := true })] id; let f : Fin 16 := 0; let slot : Fin 417 := 4; (Taken 1 s) ∧
      (s.dev.aperture f.val = true) ∧ (s.dev.cyclicSlot f.val slot.val = true)) ∧
    (let s : State := upDma [] [(416, { st := 2, base := 4096 })] id; let f : Fin 16 := 0; (Taken 1 s) ∧
      (s.dev.aperture f.val = true) ∧ (s.dev.host.fns.length = 16) ∧ ((s.dev.ring (416 + f.val)).taken = [])) ∧
    (let s : State := upDma [] [(416, { st := 2, base := 4096, prod := 1, taken := [{}] })] id; let f : Fin 16 := 0;
      (Taken 1 s) ∧ (s.dev.aperture f.val = true) ∧ (s.dev.host.fns.length = 16) ∧ ((s.dev.ring (416 + f.val)).taken ≠ [])) := by
  refine ⟨?_, ?_, ?_, ?_, ?_, ?_, ?_, ?_⟩ <;> decide

/-- States and operands that meet the hypotheses of `Obligations.MailboxCommands`. -/
theorem test_meets_MailboxCommands :
    (let s : State := upDma [] [(416, { st := 2, base := 8192, prod := 1, taken := [{ w := [1792, 0, 0, 0, 0, 0, 0, 0x80000000], t := 3 }] })] id;
      let f : Fin 16 := 0; let y : Desc := { w := [1792, 0, 0, 0, 0, 0, 0, 0x80000000], t := 3 }; (MbxHead 0 f y s) ∧
      (RingsIn f [] s)) ∧
    (let s : State := upDma [] [(416, { st := 2, base := 8192, prod := 1, taken := [{ w := [1793, 0x100, 0x3000, 1, 0x6, 0, 0, 0x80000000], t := 3 }] })] id;
      let f : Fin 16 := 0; let y : Desc := { w := [1793, 0x100, 0x3000, 1, 0x6, 0, 0, 0x80000000], t := 3 }; let r : Nat := 1;
      (MbxHead 1 f y s) ∧ (RingsIn f [r] s) ∧ (s.dev.argRing f.val (y.dw 1) = some r) ∧
      ((y.dw 2 + y.dw 3 * 2 ^ 32) % 4096 = 0) ∧ (cfgOk f.val r (y.dw 4) (y.dw 5) = true) ∧ ((s.dev.ring r).st = 0)) ∧
    (let s : State := upDma [] [(416, { st := 2, base := 8192, prod := 1, taken := [{ w := [1794, 0x100, 0, 0, 0, 0, 0, 0x80000000], t := 3 }] })] id;
      let f : Fin 16 := 0; let y : Desc := { w := [1794, 0x100, 0, 0, 0, 0, 0, 0x80000000], t := 3 }; let r : Nat := 1;
      (MbxHead 2 f y s) ∧ (RingsIn f [r] s) ∧ (s.dev.argRing f.val (y.dw 1) = some r) ∧ ((s.dev.ring r).st = 0) ∧
      ((s.dev.ring r).taken = []) ∧ ((s.dev.ring r).rxq = []) ∧ (s.dev.pd 1 = true) ∧ (ringKind r ≠ 2) ∧ (ringKind r ≠ 3)) ∧
    (let s : State := upDma [] [(1, { st := 2 }), (416, { st := 2, base := 8192, prod := 1, taken := [{ w := [1795, 0x100, 0, 0, 0, 0, 0, 0x80000000], t := 3 }] })] id;
      let f : Fin 16 := 0; let y : Desc := { w := [1795, 0x100, 0, 0, 0, 0, 0, 0x80000000], t := 3 }; let r : Nat := 1;
      (MbxHead 3 f y s) ∧ (RingsIn f [r] s) ∧ (s.dev.argRing f.val (y.dw 1) = some r) ∧ ((s.dev.ring r).st = 2) ∧
      ((s.dev.ring r).taken = []) ∧ ((s.dev.ring r).rxq = [])) ∧
    (let s : State := upDma [] [(1, { st := 2, base := 4096, prod := 3, cons := 3 }), (416, { st := 2, base := 8192, prod := 1, taken := [{ w := [1796, 0x100, 0, 0, 0, 0, 0, 0x80000000], t := 3 }] })] id;
      let f : Fin 16 := 0; let y : Desc := { w := [1796, 0x100, 0, 0, 0, 0, 0, 0x80000000], t := 3 }; let r : Nat := 1;
      (MbxHead 4 f y s) ∧ (RingsIn f [r] s) ∧ (s.dev.argRing f.val (y.dw 1) = some r)) ∧
    (let s : State := upDma [] [(416, { st := 2, base := 8192, prod := 1, taken := [{ w := [1797, 0, 0, 0, 0, 0, 0, 0x80000000], t := 3 }] })] id;
      let f : Fin 16 := 0; let y : Desc := { w := [1797, 0, 0, 0, 0, 0, 0, 0x80000000], t := 3 }; (MbxHead 5 f y s) ∧
      (RingsIn f [] s)) ∧
    (let s : State := upDma [] [(416, { st := 2, base := 8192, prod := 1, taken := [{ w := [1798, 0, 0, 0, 0, 0, 0, 0x80000000], t := 3 }] })] id;
      let f : Fin 16 := 0; let y : Desc := { w := [1798, 0, 0, 0, 0, 0, 0, 0x80000000], t := 3 }; (MbxHead 6 f y s) ∧
      (RingsIn f [] s)) := by
  refine ⟨?_, ?_, ?_, ?_, ?_, ?_, ?_⟩ <;> decide

/-- States and operands that meet the hypotheses of `Obligations.RingTimersAndAudioRings`. -/
theorem test_meets_RingTimersAndAudioRings :
    (let s : State := upDma [] [(130, { st := 2, coal := 1, msgAt := some 0, msgWait := true })] fun d => { d with host := { d.host with fns := d.host.fns.modify 0 fun g => { g with table := [(0, { addr := 5, masked := false })] } } };
      let ring : Fin 432 := 130; let m : Mote := 32768; let t : Nat := 0; let f : Nat := 0;
      ((s.dev.ring ring.val).msgAt = some t) ∧ ((s.dev.ring ring.val).msgWait = true) ∧
      (t + (s.dev.ring ring.val).gap ≤ (atMote m s.dev).nowExt) ∧ (s.dev.ringFn ring.val = some f)) ∧
    (let s : State := upDma [] [(130, { st := 2, rxq := [{ stall := some 9 }] })] id; let ring : Fin 432 := 130;
      let m : Mote := 9; let it : RxItem := { stall := some 9 }; let dl : Nat := 9; let f : Nat := 0;
      ((s.dev.ring ring.val).rxq = [it]) ∧ (it.stall = some dl) ∧ (dl ≤ (atMote m s.dev).nowExt) ∧ (it.n = 0) ∧
      (ringKind ring.val ≠ 5) ∧ ((s.dev.ring ring.val).awaits = false) ∧ (s.dev.ringFn ring.val = some f)) ∧
    (let s : State := upDma [] [(130, { st := 2, rxq := [{ stall := some 9, n := 1 }] })] id; let ring : Fin 432 := 130;
      let m : Mote := 9; let it : RxItem := { stall := some 9, n := 1 }; let dl : Nat := 9; let f : Nat := 0;
      ((s.dev.ring ring.val).rxq = [it]) ∧ (it.stall = some dl) ∧ (dl ≤ (atMote m s.dev).nowExt) ∧ (0 < it.n) ∧
      (ringKind ring.val ≠ 5) ∧ ((s.dev.ring ring.val).awaits = false) ∧ (s.dev.ringFn ring.val = some f)) ∧
    (let s : State := upDma [] [(130, { st := 3, prod := 4, taken := [{}] })] id; let ring : Fin 432 := 130;
      ((s.dev.ring ring.val).st = 3) ∧ ((s.dev.ring ring.val).quiet = true) ∧ (ringKind ring.val ≠ 2) ∧
      (ringKind ring.val ≠ 3)) ∧
    (let s : State := upDma [] [(5, { st := 2, cons := 65530, prod := 65530 })] id; (Taken 1 s)) ∧
    (let s : State := upDma [] [(256, { st := 2, prod := 1, base := 4096, taken := [{ w := [0, 0, 0x10040, 0, 0, 0, 0, 0x80000000], begun := true, pos := 32 }] })] id;
      let ring : Fin 432 := 256; let y : Desc := { w := [0, 0, 0x10040, 0, 0, 0, 0, 0x80000000], begun := true, pos := 32 };
      let f : Nat := 0; ((s.dev.ring ring.val).taken = [y]) ∧ ((s.dev.ring ring.val).cyclic = false) ∧ (y.done = false) ∧
      (y.begun = true) ∧ (y.half = false) ∧ (bit (y.dw 2) 16 = true) ∧ (y.halfAt (s.dev.audSample ring.val) ≤ y.pos) ∧
      (y.pos < y.len) ∧ (s.dev.ringFn ring.val = some f)) ∧
    (let s : State := upDma [] [(256, { st := 2, prod := 1, base := 4096, taken := [{ w := [0, 0, 0x10040, 0, 0, 0, 0, 0x80000000], begun := true, pos := 64 }] })] id;
      let ring : Fin 432 := 256; let y : Desc := { w := [0, 0, 0x10040, 0, 0, 0, 0, 0x80000000], begun := true, pos := 64 };
      let f : Nat := 0; ((s.dev.ring ring.val).taken = [y]) ∧ ((s.dev.ring ring.val).cyclic = false) ∧ (y.done = false) ∧
      (y.begun = true) ∧ (y.len ≤ y.pos) ∧ (s.dev.ringFn ring.val = some f) ∧ (s.dev.fnLive f = true) ∧
      (s.dev.outWaits ring.val = false)) ∧
    (let s : State := upDma [(SAP_OMAPk.RUN 0, 2)] [(256, { st := 2, prod := 1, taken := [{ w := [0, 0, 0x40, 0, 0, 0, 0, 0x80000000] }] })] fun d => { d with host := { d.host with prqMap := d.host.prqMap.set 0 0x201 }, sap := { d.sap with outs := d.sap.outs.modify 0 fun c => { c with need := some 0 } } };
      let line : Fin 16 := 0; let ring : Fin 432 := 256; let m : Mote := 5;
      let y : Desc := { w := [0, 0, 0x40, 0, 0, 0, 0, 0x80000000] }; let f : Nat := 0; (ringKind ring.val = 2) ∧
      (bits (s.dev.host.prqMap.getD line.val 0) 0 6 = prqSource false (s.dev.audPort ring.val)) ∧
      (bits (s.dev.host.prqMap.getD line.val 0) 6 3 = 0) ∧ (bit (s.dev.host.prqMap.getD line.val 0) 9 = true) ∧
      ((atMote m s.dev).neediest false (s.dev.audPort ring.val) = some (audCh ring.val)) ∧ (s.dev.pd 1 = true) ∧
      ((s.dev.ring ring.val).st = 2) ∧ ((s.dev.ring ring.val).cyclic = false) ∧ ((s.dev.ring ring.val).taken = [y]) ∧
      (y.done = false) ∧ (y.need + 16 ≤ y.len) ∧ (y.addr % 4 = 0) ∧ ((y.addr + y.need) % 4096 ≤ 4080) ∧
      (s.dev.ringFn ring.val = some f) ∧ (s.dev.fnLive f = true) ∧ (s.dev.tagFree f = true) ∧ (16 ≤ (s.dev.fn f).mrrs) ∧
      ((s.dev.host.prq.getD line.val {}).map = none) ∧ ((s.dev.host.prq.getD line.val {}).later = []) ∧ (NoRequests s) ∧
      (s.dev.host.wants = []) ∧ (s.dev.host.prq.length = 16)) ∧
    (let s : State := upDma [(SAP_OMAPk.RUN 0, 2)] [(256, { st := 2, prod := 1 })] fun d => { d with host := { d.host with prqMap := [0, 0x201], prq := d.host.prq.set 1 { q := List.replicate 4 (270, 0) } }, sap := { d.sap with outs := d.sap.outs.modify 0 fun c => { c with need := some 0 } } };
      let line : Fin 16 := 1; let ring : Fin 432 := 256; let m : Mote := 5; let f : Nat := 0; (ringKind ring.val = 2) ∧
      (bits (s.dev.host.prqMap.getD line.val 0) 0 6 = prqSource false (s.dev.audPort ring.val)) ∧
      (bit (s.dev.host.prqMap.getD line.val 0) 9 = true) ∧
      ((atMote m s.dev).neediest false (s.dev.audPort ring.val) = some (audCh ring.val)) ∧ (s.dev.pd 1 = true) ∧
      ((s.dev.ring ring.val).st = 2) ∧ (s.dev.ringFn ring.val = some f) ∧ (s.dev.fnState f = 1) ∧
      ((s.dev.host.prq.getD line.val {}).map = none) ∧ (4 ≤ (s.dev.host.prq.getD line.val {}).q.length)) ∧
    (let s : State := upd [] fun d => { d with host := { d.host with prq := d.host.prq.set 15 { map := some 0x205 } } };
      let line : Fin 16 := 15; let v : Nat := 0x205; ((s.dev.host.prq.getD line.val {}).map = some v) ∧
      ((s.dev.host.prq.getD line.val {}).q = []) ∧ (s.dev.host.prqMap.length = 16)) := by
  refine ⟨?_, ?_, ?_, ?_, ?_, ?_, ?_, ?_, ?_, ?_⟩ <;> decide

/-- States and operands that meet the hypotheses of `Obligations.ModulesRunAndLink`. -/
theorem test_meets_ModulesRunAndLink :
    (let s : State := up []; let n : Fin 4 := 2; (s.dev.pd 1 = true) ∧ ((s.dev.ch n).modIn = false) ∧ (s.dev.chan.length = 4)) ∧
    (let s : State := upCh 2 [(CHn_MOD_CFG.IGNORE_ABS 2, 1)] fun c => { c with modIn := true }; let n : Fin 4 := 2;
      (s.dev.pd 1 = true) ∧ ((s.dev.ch n).modIn = true) ∧ (s.dev.on (CHn_MOD_CFG.IGNORE_ABS n) = true) ∧
      (s.dev.chan.length = 4)) ∧
    (let s : State := upCh 2 [] fun c => { c with modIn := true, cur := some {} }; let n : Fin 4 := 2; (s.dev.pd 1 = true) ∧
      ((s.dev.ch n).modIn = true) ∧ (s.dev.on (CHn_MOD_CFG.IGNORE_ABS n) = false) ∧ (s.dev.on (CHn_STATUS.LINK n) = true) ∧
      (s.dev.chan.length = 4)) ∧
    (let s : State := upCh 2 [] fun c => { c with modIn := true, modFr := 100000 }; let n : Fin 4 := 2;
      ((s.dev.ch n).modIn = true) ∧ (s.dev.rd (CHn_MOD_CFG.INSERT_FR n) ≤ (s.dev.ch n).modFr) ∧ (s.dev.chan.length = 4)) ∧
    (let s : State := up []; let n : Fin 4 := 0; ((s.dev.ch n).txflt = false) ∧ (s.dev.chan.length = 4)) ∧
    (let s : State := upCh 2 [] fun c => { c with txflt := true, fltFr := 2 }; let n : Fin 4 := 2; (s.dev.pd 1 = true) ∧
      ((s.dev.ch n).txflt = true) ∧ (2 ≤ (s.dev.ch n).fltFr) ∧ (s.dev.on (CHn_STATUS.TX_FAULT n) = false)) ∧
    (let s : State := up []; (s.dev.chan.length = 4)) ∧
    (let s : State := up [(CHn_STATUS.TX_FAULT 2, 1)]; (Taken 1 s)) ∧
    (let s : State := up []; (s.dev.pd 1 = true) ∧ (s.dev.chan.length = 4)) ∧
    (let s : State := upCh 2 [(CHn_STATUS.RUN 2, 1)] fun c => { c with modIn := true, modOk := true }; let n : Fin 4 := 2;
      (s.dev.chRun n = 1) ∧ (s.dev.bitOf RAT_DOM_STATUS.LANE_ON n = true) ∧ (s.dev.txPermit n = true)) ∧
    (let s : State := upCh 2 [(CHn_STATUS.RUN 2, 3)] id; let n : Fin 4 := 2; (s.dev.chRun n = 3) ∧ (s.dev.chan.length = 4) ∧
      ((s.dev.ch n).cur = none) ∧ ((s.dev.ch n).pre = none) ∧ ((s.dev.ch n).asm = none)) ∧
    (let s : State := upCh 2 [(CHn_STATUS.RUN 2, 4)] id; let n : Fin 4 := 2; (s.dev.chRun n = 4) ∧ (s.dev.chan.length = 4) ∧
      ((s.dev.ch n).cur = none) ∧ ((s.dev.ch n).pre = none) ∧ ((s.dev.ch n).asm = none)) ∧
    (let s : State := upCh 2 [(CHn_STATUS.LINK 2, 0), (CHn_MOD_CFG.IGNORE_ABS 2, 1)] id; let n : Fin 4 := 2;
      (s.dev.pcsRuns n = true) ∧ (s.dev.modHere n = true) ∧ (s.dev.chan.length = 4)) ∧
    (let s : State := upCh 2 [(CHn_STATUS.LINK 2, 0), (CHn_MOD_CFG.IGNORE_ABS 2, 1)] fun c => { c with goodFr := some 70000 };
      let n : Fin 4 := 2; let k : Nat := 70000; (s.dev.chRun n = 2) ∧ (s.dev.pcsRuns n = true) ∧
      (s.dev.on (CHn_STATUS.LINK n) = false) ∧ (s.dev.modHere n = true) ∧ ((s.dev.ch n).goodFr = some k) ∧
      (s.dev.rd (CHn_LINK_CFG.UP_FR n) ≤ k) ∧ (s.dev.rd (CHn_PREEMPT_STATUS.VERIFY n) ≠ 1)) ∧
    (let s : State := upCh 2 [] id; let n : Fin 4 := 2; (s.dev.pcsRuns n = true) ∧ (s.dev.on (CHn_STATUS.LINK n) = true) ∧
      (s.dev.rd (CHn_PREEMPT_STATUS.VERIFY n) < 2) ∧ (s.dev.fenced n = false) ∧ (s.dev.chan.length = 4) ∧
      ((s.dev.ch n).cur = none) ∧ ((s.dev.ch n).pre = none) ∧ ((s.dev.ch n).asm = none)) := by
  refine ⟨?_, ?_, ?_, ?_, ?_, ?_, ?_, ?_, ?_, ?_, ?_, ?_, ?_, ?_, ?_⟩ <;> decide

/-- States and operands that meet the hypotheses of `Obligations.Reception`. -/
theorem test_meets_Reception :
    (let s : State := upCh 2 [] id; let n : Fin 4 := 2; let pcs : Pcs := { ok := false }; (Heard n pcs s) ∧ (pcs.ok = false)) ∧
    (let s : State := upCh 2 [] id; let n : Fin 4 := 2; let data : Bytes := []; let pcs : Pcs := default; (Passed n pcs s) ∧
      (data.length < 64)) ∧
    (let s : State := upCh 2 [(CHn_MAX_LEN.MAX 2, 64)] id; let n : Fin 4 := 2; let data : Bytes := List.replicate 65 0;
      let pcs : Pcs := default; (Passed n pcs s) ∧ (64 ≤ data.length) ∧ (s.dev.rd (CHn_MAX_LEN.MAX n) < data.length)) ∧
    (let s : State := upCh 2 [] id; let n : Fin 4 := 2; let data : Bytes := List.replicate 64 1#8; let pcs : Pcs := default;
      (Passed n pcs s) ∧ (64 ≤ data.length) ∧ (data.length ≤ s.dev.rd (CHn_MAX_LEN.MAX n)) ∧ (fcsOk data = false)) ∧
    (let s : State := upCh 2 [] id; let n : Fin 4 := 2; let pcs : Pcs := default; (Passed n pcs s)) ∧
    (let s : State := upCh 2 [(CHn_PREEMPT_CFG.EN 2, 1)] id; let n : Fin 4 := 2; let pcs : Pcs := default;
      let data : Bytes := []; (Passed n pcs s) ∧ (s.dev.on (CHn_PREEMPT_CFG.EN n) = true) ∧ ((s.dev.ch n).asm = none) ∧
      (s.dev.chan.length = 4) ∧ (data.length ≤ 64)) ∧
    (let s : State := upCh 2 [(CHn_STATUS.RUN 2, 0)] id; let n : Fin 4 := 2; (s.dev.rxLive n = false) ∧ (QueuesClean s)) ∧
    (let s : State := upCh 2 [(CHn_STATUS.RUN 1, 2), (CHn_MAX_LEN.MAX 1, 1518), (CLS_DEFAULTs.ACTION0 2, 8)] id;
      let n : Fin 4 := 2; let m : Mote := 5; let data : Bytes := upFrame (List.replicate 60 0x11#8); let k : Fin 4 := 1;
      let q : Decision := (lookup 2 (upFrame (List.replicate 60 0x11#8)) (atMote 5 s.dev)).1; let pcs : Pcs := default;
      (Passed n pcs s) ∧ (pcs.ovf = false) ∧ (64 ≤ data.length) ∧ (data.length ≤ s.dev.rd (CHn_MAX_LEN.MAX n)) ∧
      (fcsOk data = true) ∧ (beAt data 12 2 ≠ 0x8808) ∧ (n ≠ 0) ∧ ((lookup n data (atMote m s.dev)).1 = q) ∧ (q.kind = 0) ∧
      (q.mask = 2 ^ k.val) ∧ (q.tc < 8) ∧ (q.frer = false) ∧ (q.follow = false) ∧ (s.dev.fenced k = false) ∧
      ((s.dev.ch k).fencing = false) ∧ (s.dev.chRun k = 2) ∧ (data.length ≤ s.dev.rd (CHn_MAX_LEN.MAX k)) ∧
      ((s.dev.alloc data.length).isSome = true) ∧ (s.dev.beFull (cellsFor data.length) = false) ∧
      (((∀ c ∈ s.dev.chan, c.queues.length = 8))) ∧ (s.dev.chan.length = 4)) := by
  refine ⟨?_, ?_, ?_, ?_, ?_, ?_, ?_, ?_⟩ <;> decide

/-- States and operands that meet the hypotheses of `Obligations.PauseBothWays`. -/
theorem test_meets_PauseBothWays :
    (let s : State := upCh 2 [(CHn_PAUSE_CFG.MODE 2, 1), (CHn_STATUS.XOFF 2, 1)] id; let n : Fin 4 := 2;
      (s.dev.rd (CHn_PAUSE_CFG.MODE n) = 1) ∧ (s.dev.on (CHn_STATUS.XOFF n) = true) ∧
      (s.dev.measure n none ≤ s.dev.rd (CHn_PAUSE_WM.LO n)) ∧ (s.dev.pm.beXoff = false) ∧ (s.dev.chan.length = 4)) ∧
    (let s : State := upCh 2 [(CHn_PAUSE_CFG.MODE 2, 1), (CHn_STATUS.XOFF 2, 1), (CHn_PAUSE_QUANTA.TX_QUANTA 2, 1), (CHn_PAUSE_WM.LO 2, 0)] fun c => { c with expq := [{ src := 2, cells := [1] }] };
      let n : Fin 4 := 2; let m : Mote := 1000000; (s.dev.rd (CHn_PAUSE_CFG.MODE n) = 1) ∧
      (s.dev.on (CHn_STATUS.XOFF n) = true) ∧
      ((s.dev.ch n).xoffT.getD 8 0 + s.dev.quantaMt n (s.dev.rd (CHn_PAUSE_QUANTA.TX_QUANTA n)) / 2 ≤ (atMote m s.dev).nowExt) ∧
      (s.dev.rd (CHn_PAUSE_WM.LO n) < s.dev.measure n none) ∧ ((s.dev.ch n).xoffT.length = 9) ∧ (s.dev.chan.length = 4)) ∧
    (let s : State := upCh 2 [(CHn_PAUSE_CFG.MODE 2, 1), (CHn_PAUSE_CFG.RX_HONOR 2, 1)] id; let n : Fin 4 := 2;
      (s.dev.rd (CHn_PAUSE_CFG.MODE n) = 1) ∧ (s.dev.on (CHn_PAUSE_CFG.RX_HONOR n) = true) ∧ ((s.dev.ch n).pauseT.length = 9) ∧
      (s.dev.hears n = true) ∧ (s.dev.chan.length = 4)) ∧
    (let s : State := upCh 2 [(CHn_PAUSE_CFG.MODE 2, 2), (CHn_PAUSE_CFG.RX_HONOR 2, 1)] id; let n : Fin 4 := 2;
      let k : Fin 8 := 7; (s.dev.rd (CHn_PAUSE_CFG.MODE n) = 2) ∧ (s.dev.on (CHn_PAUSE_CFG.RX_HONOR n) = true) ∧
      (s.dev.bitOf (CHn_PAUSE_CFG.RX_IGNORE n) k = false) ∧ ((s.dev.ch n).pauseT.length = 9) ∧ (s.dev.hears n = true) ∧
      (s.dev.chan.length = 4)) ∧
    (let s : State := upCh 2 [(CHn_STATUS.PFC_RX_PAUSED 2, 255)] id; let n : Fin 4 := 2; let k : Fin 9 := 7; let m : Mote := 7;
      (k ≠ 8) ∧ ((s.dev.ch n).pauseT.getD k 0 ≤ (atMote m s.dev).nowExt)) ∧
    (let s : State := upCh 2 [(CHn_STATUS.RX_PAUSED 2, 1)] id; let n : Fin 4 := 2; let m : Mote := 7;
      ((s.dev.ch n).pauseT.getD 8 0 ≤ (atMote m s.dev).nowExt)) := by
  refine ⟨?_, ?_, ?_, ?_, ?_, ?_⟩ <;> decide

/-- States and operands that meet the hypotheses of `Obligations.Preemption`. -/
theorem test_meets_Preemption :
    (let s : State := upCh 2 [] id; let n : Fin 4 := 2; (Taken 1 s) ∧ (s.dev.on (CHn_PREEMPT_CFG.EN n) = false) ∧
      (s.dev.rd (CHn_PREEMPT_STATUS.VERIFY n) = 0) ∧ (s.dev.on (CHn_STATUS.LINK n) = true) ∧
      (s.dev.on (CHn_PREEMPT_CFG.VERIFY_DIS n) = false) ∧ (s.dev.chan.length = 4)) ∧
    (let s : State := upCh 2 [(CHn_PREEMPT_CFG.VERIFY_DIS 2, 1)] id; let n : Fin 4 := 2; (Taken 1 s) ∧
      (s.dev.on (CHn_PREEMPT_CFG.EN n) = false) ∧ (s.dev.rd (CHn_PREEMPT_STATUS.VERIFY n) = 0) ∧
      (s.dev.on (CHn_STATUS.LINK n) = true) ∧ (s.dev.on (CHn_PREEMPT_CFG.VERIFY_DIS n) = true)) ∧
    (let s : State := upCh 2 [(CHn_PREEMPT_CFG.EN 2, 1), (CHn_PREEMPT_STATUS.VERIFY 2, 3)] id; let n : Fin 4 := 2;
      (Taken 1 s) ∧ (s.dev.on (CHn_PREEMPT_CFG.EN n) = true) ∧ (s.dev.chan.length = 4)) ∧
    (let s : State := upCh 2 [(CHn_PREEMPT_STATUS.VERIFY 2, 2)] fun c => { c with verT := some 0 }; let n : Fin 4 := 2;
      let t : Nat := 0; let m : Mote := 3; (s.dev.rd (CHn_PREEMPT_STATUS.VERIFY n) = 2) ∧ ((s.dev.ch n).verT = some t) ∧
      (t ≤ (atMote m s.dev).hearth.clk) ∧ (s.dev.rd (CHn_PREEMPT_STATUS.ATTEMPTS n) < 3) ∧ (s.dev.chan.length = 4)) ∧
    (let s : State := upCh 2 [(CHn_PREEMPT_STATUS.VERIFY 2, 2), (CHn_PREEMPT_STATUS.ATTEMPTS 2, 3)] fun c => { c with verT := some 0 };
      let n : Fin 4 := 2; let t : Nat := 0; let m : Mote := 3; (s.dev.rd (CHn_PREEMPT_STATUS.VERIFY n) = 2) ∧
      ((s.dev.ch n).verT = some t) ∧ (t ≤ (atMote m s.dev).hearth.clk) ∧ (3 ≤ s.dev.rd (CHn_PREEMPT_STATUS.ATTEMPTS n)) ∧
      (s.dev.chan.length = 4)) ∧
    (let s : State := upCh 2 [(CHn_PREEMPT_CFG.EN 2, 1)] id; let n : Fin 4 := 2; (s.dev.on (CHn_PREEMPT_CFG.EN n) = true) ∧
      (s.dev.hears n = true) ∧ (s.dev.chan.length = 4)) ∧
    (let s : State := upCh 2 [(CHn_PREEMPT_CFG.EN 2, 1), (CHn_PREEMPT_STATUS.VERIFY 2, 2)] id; let n : Fin 4 := 2;
      (s.dev.on (CHn_PREEMPT_CFG.EN n) = true) ∧ (s.dev.rd (CHn_PREEMPT_STATUS.VERIFY n) = 2) ∧ (s.dev.hears n = true)) := by
  refine ⟨?_, ?_, ?_, ?_, ?_, ?_, ?_⟩ <;> decide

/-- States and operands that meet the hypotheses of `Obligations.Transmission`. -/
theorem test_meets_Transmission :
    (let s : State := upCh 2 [] fun c => { c with queues := c.queues.set 7 [{ tc := 7, data := [1#8] }] }; let n : Fin 4 := 2;
      let m : Mote := 7; let k : Nat := 7; let x : Sys2Proof.Machine.Frm := { tc := 7, data := [1#8] };
      (s.dev.canStart n = true) ∧ (s.dev.canFinish n = false) ∧ ((s.dev.ch n).cur = none) ∧
      ((atMote m s.dev).nextTx n false = .queue k x) ∧ (s.dev.poisoned x = false) ∧ (s.dev.pm.upsets = []) ∧
      (s.dev.chan.length = 4)) ∧
    (let s : State := upCh 2 [(CHn_PREEMPT_STATUS.ACTIVE 2, 1), (CHn_PREEMPT_CFG.TC_PMAC 2, 1)] fun c => { c with cur := some { kind := .pmac, frm := { data := List.replicate 1000 0 } }, queues := c.queues.set 7 [{ tc := 7, data := [1#8] }] };
      let n : Fin 4 := 2; let m : Mote := 700; let k : Nat := 7; let x : Sys2Proof.Machine.Frm := { tc := 7, data := [1#8] };
      let w : Wire := { kind := .pmac, frm := { data := List.replicate 1000 0 } }; (s.dev.canStart n = true) ∧
      (s.dev.canFinish n = false) ∧ ((s.dev.ch n).cur = some w) ∧ (s.dev.on (CHn_PREEMPT_STATUS.ACTIVE n) = true) ∧
      ((atMote m s.dev).mayPreempt n w = true) ∧ ((atMote m s.dev).nextTx n true = .queue k x) ∧ (s.dev.poisoned x = false) ∧
      ((s.dev.ch n).loop ≠ 1) ∧ (s.dev.pm.upsets = []) ∧ (s.dev.chan.length = 4)) ∧
    (let s : State := upCh 2 [] fun c => { c with cur := some { frm := { data := [1#8] } } }; let n : Fin 4 := 2;
      let w : Wire := { frm := { data := [1#8] } }; ((s.dev.ch n).cur = some w) ∧ ((s.dev.ch n).loop ≠ 1) ∧
      (w.kind = .express) ∧ (s.dev.poisoned w.frm = false) ∧ (w.frm.host = none) ∧ (w.frm.llb = none) ∧ (w.frm.gasp = false) ∧
      (s.dev.fenced n = false) ∧ (QueuesClean s) ∧ (s.dev.chan.length = 4)) ∧
    (let s : State := upCh 2 [] fun c => { c with cur := some { kind := .pause, frm := { data := [1#8] } } };
      let n : Fin 4 := 2; let w : Wire := { kind := .pause, frm := { data := [1#8] } }; ((s.dev.ch n).cur = some w) ∧
      ((s.dev.ch n).loop ≠ 1) ∧ (w.kind = .pause) ∧ ((s.dev.ch n).recalDue = false) ∧ (s.dev.fenced n = false) ∧
      (QueuesClean s) ∧ (s.dev.chan.length = 4)) ∧
    (let s : State := upCh 2 [] fun c => { c with loop := 1, cur := some { kind := .pause, frm := { data := upFrame (beBytes 6 0x0180C2000001 ++ beBytes 6 0 ++ beBytes 2 0x8808 ++ beBytes 2 1 ++ List.replicate 44 0) } } };
      let n : Fin 4 := 2;
      let w : Wire := { kind := .pause, frm := { data := upFrame (beBytes 6 0x0180C2000001 ++ beBytes 6 0 ++ beBytes 2 0x8808 ++ beBytes 2 1 ++ List.replicate 44 0) } };
      ((s.dev.ch n).cur = some w) ∧ ((s.dev.ch n).loop = 1) ∧ (w.kind = .pause) ∧ ((s.dev.ch n).recalDue = false) ∧
      ((s.dev.ch n).recal = false) ∧ (s.dev.rxLive n = true) ∧ (s.dev.fenced n = false) ∧ (64 ≤ w.frm.data.length) ∧
      (w.frm.data.length ≤ s.dev.rd (CHn_MAX_LEN.MAX n)) ∧ (fcsOk w.frm.data = true) ∧ (beAt w.frm.data 12 2 = 0x8808) ∧
      (beAt w.frm.data 14 2 = 1) ∧ (QueuesClean s) ∧ (s.dev.chan.length = 4)) ∧
    (let s : State := upCh 2 [] fun c => { c with ptp := [1, 2, 0x100003] }; (Taken 1 s) ∧ (s.dev.chan.length = 4)) ∧
    (let s : State := up [(RAT_STATUS.TIER, 4), (RAT_BIV_CFG.WAKE_PAT, 1), (RAT_DOM_STATUS.PD_ON, 9), (RAT_DOM_STATUS.PMEM_SR, 1), (CHn_MAX_LEN.MAX 0, 1518), (CHn_WAKE_CFG.EN 0, 1), (CHn_WAKE_f_MASKk.MASK 0 0 0, 1), (CHn_WAKE_f_CFG.CHECK 0 0, crc16 [0x11])];
      let data : Bytes := upFrame (List.replicate 60 0x11#8); (s.dev.tier = 4) ∧ (s.dev.rat.wakeFr = none) ∧
      (s.dev.patternHit data = true) ∧ (s.dev.booted = true) ∧ (s.dev.on RAT_BIV_CFG.WAKE_PAT = true) ∧
      (s.dev.capsHold = false) ∧ (s.dev.rat.shadow = none)) := by
  refine ⟨?_, ?_, ?_, ?_, ?_, ?_, ?_⟩ <;> decide

/-- States and operands that meet the hypotheses of `Obligations.EntriesAndStreams`. -/
theorem test_meets_EntriesAndStreams :
    (let s : State := upd [] fun d => { d with tab := { d.tab with ex := { held := true, dirty := true, idx := 9 } } };
      (Taken 1 s)) ∧
    (let s : State := upd [] fun d => { d with tab := { d.tab with ex := { held := true, dirty := true, idx := 9 } } };
      let ix : Fin 4096 := 0; (Taken 1 s) ∧ (ix.val < 256)) ∧
    (let s : State := upd [] fun d => { d with tab := { d.tab with ex := { held := true, dirty := true, idx := 9, w := [1, 0, 0, 0, 0, 8, 0] } } };
      let masked : Bool := false; let ix : Fin 4096 := 9; let ctrl : Word := 1#32; (Taken 1 s) ∧
      ((masked = true → ix.val < 256)) ∧ ((ClsWords masked ix s).length = ctrlIdx masked) ∧
      (entryOk s.dev.flowOk masked (ClsWords masked ix s) ctrl.toNat = true)) ∧
    (let s : State := upd [] fun d => { d with tab := { d.tab with ex := { held := true, dirty := true, idx := 9, w := [1, 0, 0, 0, 0, 0, 0] } } };
      let ix : Fin 4096 := 9; let ctrl : Word := 1#32; let masked : Bool := false; (Taken 1 s) ∧
      ((masked = true → ix.val < 256)) ∧ (entryOk s.dev.flowOk masked (ClsWords masked ix s) ctrl.toNat = false)) ∧
    (let s : State := up []; let src : BusSrc := .pcie; let k : Fin 7 := 3; (Reaches src s) ∧ (s.dev.pd 1 = true) ∧
      (k.val < 4)) ∧
    (let s : State := up []; let src : BusSrc := .image; let k : Fin 7 := 4; (Reaches src s) ∧ (s.dev.pd 1 = true) ∧
      (4 ≤ k.val)) ∧
    (let s : State := upd [] fun d => { d with tab := { d.tab with fre := { held := true, dirty := true, idx := 5, w := [0, 9, 0, 0] } } };
      let st : Fin 1024 := 5; let ctrl : Word := 7#32; (Taken 1 s) ∧ ((FreWords st s).length = 4) ∧
      (strmOk (FreWords st s) ctrl.toNat = true)) ∧
    (let s : State := upd [] fun d => { d with tab := { d.tab with fre := { held := true, dirty := true, idx := 5, w := [3, 9, 0, 0] } } };
      let st : Fin 1024 := 5; let ctrl : Word := 7#32; (Taken 1 s) ∧ (strmOk (FreWords st s) ctrl.toNat = false)) ∧
    (let s : State := up [(⟨strmOff 5 0, 0, 32⟩, 2), (⟨strmOff 5 7, 0, 32⟩, 1)]; let st : Fin 1024 := 5;
      (s.dev.sValid st = true) ∧ (s.dev.sMode st = 2) ∧ (s.dev.takeAny st = false) ∧
      (bits (s.dev.sw st 0) 10 11 ≤ (s.dev.strm st).idleFr)) ∧
    (let s : State := upd [(⟨strmOff 5 0, 0, 32⟩, 0xA00002), (⟨strmOff 5 7, 0, 32⟩, 1)] fun d => d.strmMod 5 fun x => { x with p := 9 };
      (s.dev.rat.sfEv = false ∨ s.dev.tab.latentN < s.dev.rd FRE_CFG.LATENT_SF)) ∧
    (let s : State := upd [(⟨strmOff 5 0, 0, 32⟩, 0xA00002), (⟨strmOff 5 7, 0, 32⟩, 1)] fun d => ({ d with rat := { d.rat with sfEv := true }, tab := { d.tab with latentN := 65535 } } : Dev).strmMod 5 fun x => { x with p := 9 };
      let st : Fin 1024 := 5; (s.dev.rat.sfEv = true) ∧ (s.dev.rd FRE_CFG.LATENT_SF ≤ s.dev.tab.latentN) ∧
      (s.dev.validStreams = [st.val]) ∧ (s.dev.sMode st = 2) ∧ (bit (s.dev.sw st 0) 23 = true) ∧ ((s.dev.strm st).p ≠ 0)) := by
  refine ⟨?_, ?_, ?_, ?_, ?_, ?_, ?_, ?_, ?_, ?_, ?_⟩ <;> decide

/-- States and operands that meet the hypotheses of `Obligations.GateCommit`. -/
theorem test_meets_GateCommit :
    (let s : State := upCh 2 [] id; let n : Fin 4 := 2; (Taken 1 s) ∧
      (s.dev.rd (CHn_GATE_STATUS.RUN n) ≠ 2 ∨ s.dev.fenced n = true)) ∧
    (let s : State := upGate [] { st := 1, oper := some 0 }; let n : Fin 4 := 2; (Taken 1 s) ∧
      (s.dev.rd (CHn_GATE_STATUS.RUN n) = 2) ∧ (s.dev.fenced n = false) ∧ ((s.dev.gate n).st = 1 ∨ (s.dev.gate n).st = 3)) ∧
    (let s : State := upGate [(HRT_STATUS.VALID, 0)] {}; let n : Fin 4 := 2; (Taken 1 s) ∧
      (s.dev.rd (CHn_GATE_STATUS.RUN n) = 2) ∧ (s.dev.fenced n = false) ∧ ((s.dev.gate n).st ≠ 1) ∧ ((s.dev.gate n).st ≠ 3) ∧
      (s.dev.valid = false)) ∧
    (let s : State := upGate [(⟨0x208008, 0, 32⟩, 15)] {}; let n : Fin 4 := 2; let bad : Nat := 1; (Taken 1 s) ∧
      (s.dev.rd (CHn_GATE_STATUS.RUN n) = 2) ∧ (s.dev.fenced n = false) ∧ ((s.dev.gate n).st ≠ 1) ∧ ((s.dev.gate n).st ≠ 3) ∧
      (s.dev.valid = true) ∧ (s.dev.listBad n (s.dev.adminBank n) = some bad)) ∧
    (let s : State := upGate [] {}; let n : Fin 4 := 2; (Taken 1 s) ∧ (s.dev.rd (CHn_GATE_STATUS.RUN n) = 2) ∧
      (s.dev.fenced n = false) ∧ ((s.dev.gate n).st = 0) ∧ (s.dev.valid = true) ∧
      (s.dev.listBad n (s.dev.adminBank n) = none) ∧
      ((admission (s.dev.banksWith n) (s.dev.slotCosts s.dev.peg.oper) s.dev).passed = true) ∧ (s.dev.chan.length = 4)) ∧
    (let s : State := upGate [] { st := 2, oper := some 1 }; let n : Fin 4 := 2; (Taken 1 s) ∧
      (s.dev.rd (CHn_GATE_STATUS.RUN n) = 2) ∧ (s.dev.fenced n = false) ∧ ((s.dev.gate n).st = 2) ∧ (s.dev.valid = true) ∧
      (s.dev.listBad n (s.dev.adminBank n) = none) ∧
      ((admission (s.dev.banksWith n) (s.dev.slotCosts s.dev.peg.oper) s.dev).passed = true) ∧ (s.dev.chan.length = 4)) ∧
    (let s : State := upGate [] { st := 1, oper := some 0 }; let n : Fin 4 := 2; (Taken 1 s) ∧ ((s.dev.gate n).st = 1) ∧
      (s.dev.chan.length = 4)) ∧
    (let s : State := upGate [] { st := 3, oper := some 1, pend := some 0 }; let n : Fin 4 := 2; (Taken 1 s) ∧
      ((s.dev.gate n).st = 3) ∧ (s.dev.chan.length = 4)) ∧
    (let s : State := upGate [] { st := 2, oper := some 0 }; let n : Fin 4 := 2; (Taken 1 s) ∧ ((s.dev.gate n).st ≠ 0) ∧
      (s.dev.chan.length = 4)) := by
  refine ⟨?_, ?_, ?_, ?_, ?_, ?_, ?_, ?_, ?_⟩ <;> decide

/-- States and operands that meet the hypotheses of `Obligations.GateLists`. -/
theorem test_meets_GateLists :
    (let s : State := upGate [] { st := 1, oper := some 0, start := 40000 }; let n : Fin 4 := 2; let m : Mote := 40000;
      let b : Nat := 0; ((s.dev.gate n).oper = some b) ∧ ((s.dev.gate n).st = 1) ∧
      ((s.dev.gate n).start ≤ (atMote m s.dev).nowExt) ∧ ((atMote m s.dev).nowExt < FirstEnd n b (s.dev.gate n).start s) ∧
      (s.dev.chan.length = 4)) ∧
    (let s : State := upGate [] { st := 3, oper := some 1, pend := some 0, swapT := 40000 }; let n : Fin 4 := 2;
      let m : Mote := 40000; let b : Nat := 0; ((s.dev.gate n).pend = some b) ∧ ((s.dev.gate n).st = 3) ∧
      ((s.dev.gate n).swapT ≤ (atMote m s.dev).nowExt) ∧ ((atMote m s.dev).nowExt < FirstEnd n b (s.dev.gate n).swapT s) ∧
      (s.dev.stepping = false) ∧ (s.dev.chan.length = 4)) ∧
    (let s : State := upGate [(RAT_STATUS.PHASE, 1)] { st := 3, oper := some 1, pend := some 0, swapT := 40000 };
      let n : Fin 4 := 2; let m : Mote := 40000; let b : Nat := 0; ((s.dev.gate n).pend = some b) ∧ ((s.dev.gate n).st = 3) ∧
      ((s.dev.gate n).swapT ≤ (atMote m s.dev).nowExt) ∧ (s.dev.stepping = true) ∧ (s.dev.chan.length = 4)) ∧
    (let s : State := upGate [] { st := 2, oper := some 0, endT := 20000 }; let n : Fin 4 := 2; let m : Mote := 20000;
      let b : Nat := 0; let k : Nat := 1; ((s.dev.gate n).oper = some b) ∧ ((s.dev.gate n).st = 2 ∨ (s.dev.gate n).st = 3) ∧
      ((s.dev.gate n).endT ≤ (atMote m s.dev).nowExt) ∧
      (coverIdx (s.dev.bankLay n b) (((s.dev.gate n).endT - (s.dev.gate n).start) % s.dev.bankCycle n b) = k) ∧
      ((atMote m s.dev).nowExt < (turnOf (s.dev.bankLay n b) (s.dev.gate n).start (s.dev.bankCycle n b) (s.dev.gate n).endT k).2) ∧
      (s.dev.chan.length = 4)) ∧
    (let s : State := upGate [] { st := 2, oper := some 0, endT := 20000 }; let n : Fin 4 := 2; let m : Mote := 10000;
      ((atMote m s.dev).nowExt < (s.dev.gate n).endT)) ∧
    (let s : State := upGate [] { st := 2, oper := some 0 }; let n : Fin 4 := 2; let w : GateWord := default;
      (s.dev.pd 1 = true) ∧ ((s.dev.ch n).gb = (s.dev.ch n).ga) ∧ ((s.dev.ch n).gc = (s.dev.ch n).ga) ∧
      (((s.dev.ch n).ga.upset w).word ≠ (s.dev.ch n).ga.word) ∧ (s.dev.chan.length = 4)) ∧
    (let s : State := upGate [] { st := 2, oper := some 0 }; (s.dev.pd 1 = true) ∧ (s.dev.chan.length = 4)) ∧
    (let s : State := upGate [(⟨0x208004, 0, 32⟩, 0x300)] { st := 2, oper := some 0, cal := true, endT := 20000 };
      let n : Fin 4 := 2; let m : Mote := 5; (s.dev.wireIdle n = true) ∧ (s.dev.bitOf RAT_DOM_STATUS.LANE_ON n = true) ∧
      (10067 ≤ (atMote m s.dev).calLeft n) ∧ ((s.dev.ch n).recal = false) ∧ (s.dev.chan.length = 4)) ∧
    (let s : State := upCh 2 [] fun c => { c with recal := true }; let n : Fin 4 := 2; ((s.dev.ch n).recal = true) ∧
      (s.dev.chan.length = 4)) := by
  refine ⟨?_, ?_, ?_, ?_, ?_, ?_, ?_, ?_, ?_⟩ <;> decide

/-- States and operands that meet the hypotheses of `Obligations.PacketMemory`. -/
theorem test_meets_PacketMemory :
    (let s : State := upd [] fun d => { d with pm := { d.pm with owed := [8, 0, 0, 0] } }; let bank : Fin 4 := 0;
      let paid : Nat := 1; (s.dev.pd 2 = true) ∧ (s.dev.on RAT_DOM_STATUS.PMEM_SR = false) ∧
      (s.dev.pm.owed.getD bank 0 - paid = 7) ∧ (s.dev.pm.owed.length = 4)) ∧
    (let s : State := up []; let bank : Fin 4 := 0; let paid : Nat := 0; (s.dev.pd 2 = true) ∧
      (s.dev.on RAT_DOM_STATUS.PMEM_SR = false) ∧ (s.dev.pm.owed.getD bank 0 - paid < 7) ∧ (s.dev.pm.owed.length = 4)) ∧
    (let s : State := up []; (s.dev.pd 2 = true) ∧ (s.dev.on RAT_DOM_STATUS.PMEM_SR = false) ∧ (s.dev.pm.owed.length = 4)) ∧
    (let s : State := up [(RAT_DOM_STATUS.PMEM_SR, 1)]; (s.dev.pd 2 = false ∨ s.dev.on RAT_DOM_STATUS.PMEM_SR = true)) ∧
    (let s : State := up [(PMC_CTRL.SCRUB_EN, 1), (PMC_STATUS.INIT_DONE, 1)]; let m : Mote := 9; (s.dev.scrubRuns = true) ∧
      (s.dev.pm.upsets = []) ∧ (s.dev.pm.scrubPos + 1 < cellCount) ∧
      (s.dev.scrubDue s.dev.pm.scrubPos ≤ (atMote m s.dev).nowExt)) ∧
    (let s : State := upd [(PMC_CTRL.SCRUB_EN, 1), (PMC_STATUS.INIT_DONE, 1), (PMC_SCRUB_STAT.POS, 131071)] fun d => { d with pm := { d.pm with passH := 0 } };
      let m : Mote := 9; (s.dev.scrubRuns = true) ∧ (s.dev.scrubDue s.dev.pm.scrubPos ≤ (atMote m s.dev).nowExt)) ∧
    (let s : State := upd [(PMC_CTRL.SCRUB_EN, 1), (PMC_STATUS.INIT_DONE, 1)] fun d => { d with pm := { d.pm with passH := 0, scrubPos := cellCount - 1 } };
      let m : Mote := 9; (s.dev.scrubRuns = true) ∧ (s.dev.pm.upsets = []) ∧ (s.dev.pm.scrubPos + 1 = cellCount) ∧
      (s.dev.scrubDue s.dev.pm.scrubPos ≤ (atMote m s.dev).nowExt)) ∧
    (let s : State := up []; let ch : Fin 8 := 6; (Taken 2 s) ∧ (4 < ch.val)) ∧
    (let s : State := up []; let ch : Fin 8 := 0; (Taken 2 s) ∧ (ch.val ≤ 4)) ∧
    (let s : State := upCh 2 [] fun c => { c with recalFr := 8008 }; let lane : Fin 7 := 2; (lane.val < 4) ∧
      (s.dev.pd 1 = true) ∧ (s.dev.bitOf RAT_DOM_STATUS.LANE_ON lane = true) ∧ (8008 ≤ (s.dev.ch lane).recalFr) ∧
      ((s.dev.ch lane).recal = false) ∧ ((s.dev.ch lane).recalDue = false) ∧ (s.dev.wireIdle lane = true) ∧
      (s.dev.chan.length = 4)) ∧
    (let s : State := upCh 2 [] fun c => { c with recalFr := 8008, cur := some { frm := { data := [1] } } };
      let lane : Fin 7 := 2; (lane.val < 4) ∧ (s.dev.pd 1 = true) ∧ (s.dev.bitOf RAT_DOM_STATUS.LANE_ON lane = true) ∧
      (8008 ≤ (s.dev.ch lane).recalFr) ∧ ((s.dev.ch lane).recal = false) ∧ ((s.dev.ch lane).recalDue = false) ∧
      (s.dev.wireIdle lane = false) ∧ (s.dev.chan.length = 4)) ∧
    (let s : State := upd [(RAT_DOM_STATUS.PEG_LANES_ON, 1)] fun d => { d with peg := { d.peg with recalA := 8000 } };
      let m : Mote := 3; (s.dev.on RAT_DOM_STATUS.PEG_LANES_ON = true) ∧ (8000 ≤ s.dev.peg.recalA) ∧
      ((atMote m s.dev).pegIdle = true)) ∧
    (let s : State := upd [(RAT_DOM_STATUS.PEG_LANES_ON, 1)] fun d => { d with peg := { d.peg with recalB := 8000 } };
      let m : Mote := 3; (s.dev.on RAT_DOM_STATUS.PEG_LANES_ON = true) ∧ (8000 ≤ s.dev.peg.recalB) ∧
      ((atMote m s.dev).pegIdle = true)) ∧
    (let s : State := upd [(RAT_DOM_STATUS.LSH_LANE_ON, 1)] fun d => { d with lsh := { d.lsh with recalFr := 8000 } };
      let m : Mote := 3; (s.dev.laneOn = true) ∧ (8000 ≤ s.dev.lsh.recalFr) ∧ ((atMote m s.dev).laneRecal = false)) := by
  refine ⟨?_, ?_, ?_, ?_, ?_, ?_, ?_, ?_, ?_, ?_, ?_, ?_, ?_, ?_⟩ <;> decide

/-- States and operands that meet the hypotheses of `Obligations.PeglineSlots`. -/
theorem test_meets_PeglineSlots :
    (let s : State := upPeg 3 [] (id); let k : Fin 64 := 0; (SlotDue k s) ∧ (s.dev.pst = 3) ∧ ((s.dev.opSlot k).type = 2) ∧
      ((s.dev.opSlot k).owner = s.dev.node) ∧ ((s.dev.opSlot k).paths = 3)) ∧
    (let s : State := upPeg 3 [] (id); let k : Fin 64 := 1; (SlotDue k s) ∧ (s.dev.pst = 3) ∧ ((s.dev.opSlot k).type = 0) ∧
      ((s.dev.opSlot k).voice = false) ∧ ((s.dev.opSlot k).owner = s.dev.node) ∧ (s.dev.peg.flowq = []) ∧
      ((s.dev.opSlot k).paths = 3)) ∧
    (let s : State := upPeg 3 [(PEG_SPARE_OWNk.OWN 0, 0x800000)] (id); let k : Fin 64 := 2; (SlotDue k s) ∧ (s.dev.pst = 3) ∧
      ((s.dev.opSlot k).type = 1) ∧ (s.dev.chain = false) ∧ (s.dev.spareOwner k = some s.dev.node) ∧ (s.dev.peg.claim = 0) ∧
      (s.dev.peg.flowq = []) ∧ ((s.dev.opSlot k).paths = 3)) ∧
    (let s : State := upPeg 3 [] (fun p => { p with claim := 1, claimS := 2 }); let k : Fin 64 := 2; (SlotDue k s) ∧
      (s.dev.pst = 3) ∧ ((s.dev.opSlot k).type = 1) ∧ (s.dev.chain = false) ∧ (s.dev.peg.claim = 1) ∧ (s.dev.peg.claimS = k) ∧
      ((s.dev.opSlot k).paths = 3)) ∧
    (let s : State := upPeg 3 [] (id); let k : Fin 64 := 3; (SlotDue k s) ∧ (s.dev.pst = 3) ∧ ((s.dev.opSlot k).type = 3) ∧
      ((s.dev.opSlot k).owner = s.dev.node) ∧ (s.dev.peg.ackDue = []) ∧ (s.dev.peg.msgs = []) ∧
      (((∀ r : Fin 16, (s.dev.ring (400 + r)).st = 0))) ∧ (24 ≤ (s.dev.opSlot k).payload) ∧ ((s.dev.opSlot k).paths = 3)) ∧
    (let s : State := upPeg 3 [(PEG_CFG.NODE_ID, 7)] (id); let k : Fin 64 := 1; (SlotDue k s) ∧ (s.dev.pst = 3) ∧
      ((s.dev.opSlot k).type ≠ 1) ∧ ((s.dev.opSlot k).owner ≠ s.dev.node)) ∧
    (let s : State := upPeg 2 [(PEG_SYNC_CFG.CS_EN, 1)] (id); let k : Fin 64 := 0; (SlotDue k s) ∧ (s.dev.pst = 2) ∧
      ((s.dev.opSlot k).type = 2) ∧ ((s.dev.opSlot k).owner = s.dev.node) ∧ (s.dev.csOk = true) ∧ (s.dev.peg.loading = false) ∧
      (s.dev.peg.csFrom ≤ s.dev.frameExt / 16) ∧ (s.dev.rd PEG_SYNC_STATUS.CS_COUNT < 16) ∧ ((s.dev.opSlot k).paths = 3)) ∧
    (let s : State := upPeg 3 [] (fun p => { p with slot := 4, active := true }); let t : Int := 1048676;
      let data : Bytes := upSlot 0x2200000 (List.replicate 48 1#8); (CopyOk data s) ∧
      ((s.dev.timeOk ((s.dev.frameExt * frMt : Nat) + t) data) = true) ∧
      ((s.dev.hdrOk s.dev.peg.slot s.dev.roundIx (s.dev.parseCopy data).1 (s.dev.parseCopy data).2.1 (s.dev.parseCopy data).2.2.1) = true) ∧
      (bits (s.dev.parseCopy data).1 30 2 = 0) ∧ ((s.dev.opSlot s.dev.peg.slot).type = 0) ∧
      ((s.dev.opSlot s.dev.peg.slot).rx = false) ∧ (s.dev.peg.copyA = none) ∧ (s.dev.peg.copyB = none) ∧
      (s.dev.peg.used = false)) ∧
    (let s : State := upPeg 3 [] (fun p => { p with slot := 4, active := true }); let t : Int := 1148576;
      let data : Bytes := upSlot 0x2200000 (List.replicate 48 1#8); (CopyOk data s) ∧
      ((s.dev.timeOk ((s.dev.frameExt * frMt : Nat) + t) data) = false) ∧ (s.dev.peg.copyB = none)) ∧
    (let s : State := upPeg 3 [] (fun p => { p with slot := 4, active := true }); let t : Int := 1048676;
      let data : Bytes := upSlot 0x2200000 (List.replicate 48 1#8); (CopyOk data s) ∧
      ((s.dev.timeOk ((s.dev.frameExt * frMt : Nat) + t) data) = true) ∧ (s.dev.peg.copyB = none)) ∧
    (let s : State := upPeg 3 [] (fun p => { p with slot := 4, active := true }); let t : Int := 1048676;
      let data : Bytes := upSlot 0x4200000 (List.replicate 48 1#8); (CopyOk data s) ∧
      ((s.dev.timeOk ((s.dev.frameExt * frMt : Nat) + t) data) = true) ∧
      ((s.dev.hdrOk s.dev.peg.slot s.dev.roundIx (s.dev.parseCopy data).1 (s.dev.parseCopy data).2.1 (s.dev.parseCopy data).2.2.1) = false) ∧
      (s.dev.peg.copyB = none)) ∧
    (let s : State := upPeg 3 [] (fun p => { p with slot := 5, active := true }); let k : Fin 64 := 5; (s.dev.pst = 3) ∧
      (s.dev.peg.active = true) ∧ (s.dev.peg.slot = k) ∧ (s.dev.peg.sending = false) ∧ (s.dev.peg.used = false) ∧
      (s.dev.peg.copyB = none) ∧ (s.dev.expected k = true)) ∧
    (let s : State := upPeg 3 [] (fun p => { p with slot := 5, active := true }); let k : Fin 64 := 5; (s.dev.pst = 3) ∧
      (s.dev.peg.active = true) ∧ (s.dev.peg.slot = k) ∧ (s.dev.peg.sending = false) ∧ (s.dev.peg.used = false) ∧
      (s.dev.peg.copyB = none) ∧ (s.dev.expected k = true) ∧ ((s.dev.opSlot k).type = 0) ∧ ((s.dev.opSlot k).voice = true) ∧
      ((s.dev.opSlot k).rx = true) ∧ (s.dev.frameExt / 16 ≤ s.dev.peg.round / 16)) := by
  refine ⟨?_, ?_, ?_, ?_, ?_, ?_, ?_, ?_, ?_, ?_, ?_, ?_, ?_⟩ <;> decide

/-- States and operands that meet the hypotheses of `Obligations.PeglineSchedule`. -/
theorem test_meets_PeglineSchedule :
    (let s : State := upPeg 3 [] (fun p => { p with pend := some 1 }); (Taken 1 s) ∧ (s.dev.peg.pend ≠ none)) ∧
    (let s : State := upPeg 5 [(HRT_STATUS.VALID, 0)] (id); (Taken 1 s) ∧ (s.dev.peg.pend = none) ∧ (s.dev.valid = false)) ∧
    (let s : State := upPeg 3 [] (id); let swT : Nat := 0; (Taken 1 s) ∧ (s.dev.peg.pend = none) ∧ (s.dev.valid = true) ∧
      (swT = s.dev.hearth.a.era * 2 ^ 64 + s.dev.rd PEG_SCHED_SWAP_HI.T * 2 ^ 32 + s.dev.rd PEG_SCHED_SWAP_LO.T) ∧
      (swT % (1024 * frMt) ≠ 0 ∨ swT < s.dev.nowExt + 2 * frMt)) ∧
    (let s : State := upPeg 3 [(PEG_SCHED_SWAP_LO.T, 0x40000000), (PEG_STATUS.MODE_NOW, 1), (PEG_CHAIN_CFG.GUARD, 242)] (id);
      let swT : Nat := 0x40000000; (Taken 1 s) ∧ (s.dev.peg.pend = none) ∧ (s.dev.valid = true) ∧
      (swT = s.dev.hearth.a.era * 2 ^ 64 + s.dev.rd PEG_SCHED_SWAP_HI.T * 2 ^ 32 + s.dev.rd PEG_SCHED_SWAP_LO.T) ∧
      (swT % (1024 * frMt) = 0) ∧ (s.dev.nowExt + 2 * frMt ≤ swT) ∧ (s.dev.chain = true) ∧
      (s.dev.rd PEG_CHAIN_CFG.GUARD * 64 < 2 * s.dev.rd PEG_SYNC_WIN.W)) ∧
    (let s : State := upPeg 3 [(PEG_SCHED_SWAP_LO.T, 0x40000000), (⟨0x2C0470, 0, 32⟩, 0x180)] (id);
      let swT : Nat := 0x40000000; let k : Nat := 7; (Taken 1 s) ∧ (s.dev.peg.pend = none) ∧ (s.dev.valid = true) ∧
      (swT = s.dev.hearth.a.era * 2 ^ 64 + s.dev.rd PEG_SCHED_SWAP_HI.T * 2 ^ 32 + s.dev.rd PEG_SCHED_SWAP_LO.T) ∧
      (swT % (1024 * frMt) = 0) ∧ (s.dev.nowExt + 2 * frMt ≤ swT) ∧
      ((s.dev.chain = false ∨ 2 * s.dev.rd PEG_SYNC_WIN.W ≤ s.dev.rd PEG_CHAIN_CFG.GUARD * 64)) ∧
      (s.dev.schedBad s.dev.adminSched = some k)) ∧
    (let s : State := upPeg 3 [(PEG_SCHED_SWAP_LO.T, 0x40000000)] (id); let swT : Nat := 0x40000000; (Taken 1 s) ∧
      (s.dev.peg.pend = none) ∧ (s.dev.valid = true) ∧
      (swT = s.dev.hearth.a.era * 2 ^ 64 + s.dev.rd PEG_SCHED_SWAP_HI.T * 2 ^ 32 + s.dev.rd PEG_SCHED_SWAP_LO.T) ∧
      (swT % (1024 * frMt) = 0) ∧ (s.dev.nowExt + 2 * frMt ≤ swT) ∧
      ((s.dev.chain = false ∨ 2 * s.dev.rd PEG_SYNC_WIN.W ≤ s.dev.rd PEG_CHAIN_CFG.GUARD * 64)) ∧
      (s.dev.schedBad s.dev.adminSched = none) ∧
      ((admission ((List.range 4).map s.dev.bankNow) (s.dev.slotCosts (some s.dev.adminSched)) s.dev).passed = true)) ∧
    (let s : State := upPeg 3 [] (fun p => { p with pend := some 1 }); (Taken 1 s) ∧ (s.dev.peg.pend ≠ none)) ∧
    (let s : State := upPeg 3 [(PEG_SPARE_OWNk.OWN 0, 0x83828180), (⟨0x2C0420, 0, 32⟩, 0x6181)] (fun p => { p with pend := some 1 });
      let k : Nat := 1; (s.dev.peg.pend = some k) ∧ (s.dev.peg.swapT ≤ s.dev.nowExt)) := by
  refine ⟨?_, ?_, ?_, ?_, ?_, ?_, ?_, ?_⟩ <;> decide

/-- States and operands that meet the hypotheses of `Obligations.PeglineMessagesAndSpares`. -/
theorem test_meets_PeglineMessagesAndSpares :
    (let s : State := upDma [(PEG_MSG_ROUTE_EN.EN, 0x200), (HIF_FNf_MISC.PEG_CNT 0, 8), (PEG_STATUS.RUN, 2), (PEG_SYNC_STATUS.STATE, 3)] [(400, { st := 2, dir := true, base := 4096, prod := 1, taken := [{ w := [0x1000, 0, 64, 0, 0, 0, 0, 0x80000000] }] })] fun d => { d with peg := (fun p => { p with inbox := [{ ring := 400, node := 9, data := [1, 2, 3, 4, 5], seq := 41, path := 3, ts := 77 }] }) d.peg };
      let n : Fin 32 := 9;
      let y : PegIn := { ring := 400, node := 9, data := [1, 2, 3, 4, 5], seq := 41, path := 3, ts := 77 };
      let z : Desc := { w := [0x1000, 0, 64, 0, 0, 0, 0, 0x80000000] }; let f : Nat := 0; (s.dev.peg.inbox = [y]) ∧
      (y.node = n.val) ∧ (y.wrote = false) ∧ (s.dev.msgTakes n = true) ∧ (y.ring = s.dev.msgRing n) ∧
      ((s.dev.ring y.ring).taken = [z]) ∧ (z.begun = false) ∧ (s.dev.ringFn y.ring = some f) ∧ (msgDescOk z = true) ∧
      (s.dev.peg.ackDue = []) ∧ (s.dev.peg.lastRx.length = 32) ∧ ((s.dev.fn f).bme = true) ∧
      (s.dev.on HIF_STATUS.DL_UP = true) ∧ (s.dev.paced true y.ring = false) ∧ (s.dev.outWaits y.ring = false) ∧
      (s.dev.pm.upsets = []) ∧ (s.dev.poisoned { cells := y.cells } = false)) ∧
    (let s : State := upPeg 3 [(HIF_FNf_MISC.PEG_CNT 0, 0)] (fun p => { p with inbox := [{ ring := 400, node := 31, data := [1] }] });
      let n : Fin 32 := 31; let y : PegIn := { ring := 400, node := 31, data := [1] }; (s.dev.peg.inbox = [y]) ∧
      (y.node = n.val) ∧ (y.wrote = false) ∧ (s.dev.bitOf PEG_MSG_ROUTE_EN.EN n = false) ∧
      (s.dev.ringFn (s.dev.msgRing n) = none)) ∧
    (let s : State := upPeg 3 [(PEG_MSG_CFG.ACK_RND, 0), (PEG_MSG_CFG.RETRIES, 2)] (fun p => { p with msgs := [{ ring := 401, cnt := 3, dest := 9, data := [1, 2], seq := 5, sent := some 0, txs := 1, off := 2 }] });
      let dest : Fin 32 := 9;
      let x : PegMsg := { ring := 401, cnt := 3, dest := 9, data := [1, 2], seq := 5, sent := some 0, txs := 1, off := 2 };
      let rd : Nat := 0; (s.dev.pst = 3) ∧ (s.dev.peg.msgs = [x]) ∧ (x.dest = dest.val) ∧ (x.sent = some rd) ∧
      (rd + s.dev.rd PEG_MSG_CFG.ACK_RND ≤ s.dev.frameExt / 16) ∧ (x.reps < s.dev.rd PEG_MSG_CFG.RETRIES)) ∧
    (let s : State := upPeg 3 [(PEG_MSG_CFG.ACK_RND, 0), (PEG_MSG_CFG.RETRIES, 2)] (fun p => { p with msgs := [{ ring := 401, cnt := 3, dest := 9, data := [1, 2], seq := 5, sent := some 0, txs := 1, off := 2, reps := 2 }] });
      let dest : Fin 32 := 9;
      let x : PegMsg := { ring := 401, cnt := 3, dest := 9, data := [1, 2], seq := 5, sent := some 0, txs := 1, off := 2, reps := 2 };
      let rd : Nat := 0; (s.dev.pst = 3) ∧ (s.dev.peg.msgs = [x]) ∧ (x.dest = dest.val) ∧ (x.sent = some rd) ∧
      (rd + s.dev.rd PEG_MSG_CFG.ACK_RND ≤ s.dev.frameExt / 16) ∧ (s.dev.rd PEG_MSG_CFG.RETRIES ≤ x.reps) ∧
      (s.dev.peg.synDue.length = 32)) ∧
    (let s : State := upPeg 3 [] (fun p => { p with silent := p.silent.set 2 33 }); let k : Fin 64 := 2; (Taken 1 s) ∧
      (s.dev.on PEG_SPARE_CTRL.CLAIM = false) ∧ (s.dev.pst = 3) ∧ ((s.dev.opSlot k).type = 1) ∧ ((s.dev.opSlot k).paths ≠ 0) ∧
      (s.dev.spareOwner k = none) ∧ (33 ≤ s.dev.peg.silent.getD k 0)) ∧
    (let s : State := upPeg 3 [] (id); let k : Fin 64 := 2; (Taken 1 s) ∧ (s.dev.on PEG_SPARE_CTRL.CLAIM = false) ∧
      (s.dev.pst ≠ 3 ∨ (s.dev.opSlot k).type ≠ 1 ∨ (s.dev.opSlot k).paths = 0 ∨ (s.dev.spareOwner k).isSome = true ∨ s.dev.peg.silent.getD k 0 < 33)) ∧
    (let s : State := upPeg 3 [] (fun p => { p with claim := 3, claimS := 2 }); (s.dev.peg.claim = 3) ∧
      (s.dev.peg.backoff = 0) ∧ (s.dev.spareOwner s.dev.peg.claimS = none)) ∧
    (let s : State := upPeg 3 [(PEG_SPARE_OWNk.OWN 0, 0x800000)] (id); let k : Fin 64 := 2; (Taken 1 s) ∧
      (s.dev.spareOwner k = some s.dev.node)) ∧
    (let s : State := upPeg 3 [(PEG_SPARE_OWNk.OWN 15, 0x9F000000)] (fun p => { p with silent := p.silent.set 63 32 });
      let k : Fin 64 := 63; let o : Nat := 31; (s.dev.spareOwner k = some o) ∧ (32 ≤ s.dev.peg.silent.getD k 0)) := by
  refine ⟨?_, ?_, ?_, ?_, ?_, ?_, ?_, ?_, ?_⟩ <;> decide

/-- States and operands that meet the hypotheses of `Obligations.PeglineStartUpAndChain`. -/
theorem test_meets_PeglineStartUpAndChain :
    (let s : State := upPeg 1 [(PEG_STATUS.RUN, 1)] (id); (s.dev.rd PEG_STATUS.RUN = 1)) ∧
    (let s : State := upPeg 0 [(PEG_STATUS.RUN, 3)] (id); (s.dev.rd PEG_STATUS.RUN = 3)) ∧
    (let s : State := upPeg 1 [(PEG_SYNC_CFG.CS_EN, 1)] (fun p => { p with listenFr := 2048 }); (s.dev.pst = 1) ∧
      (2048 + 16 * s.dev.node ≤ s.dev.peg.listenFr) ∧ (s.dev.csOk = true)) ∧
    (let s : State := upPeg 1 [(PEG_CFG.NODE_ID, 31)] (fun p => { p with listenFr := 2544 }); (s.dev.pst = 1) ∧
      (2048 + 16 * s.dev.node ≤ s.dev.peg.listenFr) ∧ (s.dev.csOk = false)) ∧
    (let s : State := upPeg 2 [(PEG_SYNC_STATUS.CS_COUNT, 16)] id |> fun st => { st with dev := { st.dev with hearth := { st.dev.hearth with a := { st.dev.hearth.a with t := 17 * 16 * frMt } } } };
      (s.dev.pst = 2) ∧ (s.dev.rd PEG_SYNC_STATUS.CS_COUNT = 16) ∧ (s.dev.peg.csFrom + 17 ≤ s.dev.frameExt / 16)) ∧
    (let s : State := upPeg 3 [(PEG_CFG.NODE_ID, 7), (PEG_SYNC_CFG.MIN_VALS, 1), (PEG_SYNC_CFG.LOSS_RND, 9)] (id);
      (s.dev.pst = 3) ∧ (s.dev.chain = false) ∧ (s.dev.ownSync = false) ∧ (s.dev.peg.dev = []) ∧
      (1 ≤ s.dev.rd PEG_SYNC_CFG.MIN_VALS) ∧ (s.dev.isRef = false) ∧ (s.dev.isFirst = false) ∧ (s.dev.src ≠ 2) ∧
      (s.dev.rd PEG_SYNC_STATUS.NO_CORR + 1 < s.dev.rd PEG_SYNC_CFG.LOSS_RND)) ∧
    (let s : State := upPeg 3 [(PEG_CFG.NODE_ID, 7), (PEG_SYNC_CFG.MIN_VALS, 1), (PEG_SYNC_CFG.LOSS_RND, 9), (PEG_SYNC_STATUS.NO_CORR, 8)] (id);
      (s.dev.pst = 3) ∧ (s.dev.chain = false) ∧ (s.dev.ownSync = false) ∧ (s.dev.peg.dev = []) ∧
      (1 ≤ s.dev.rd PEG_SYNC_CFG.MIN_VALS) ∧ (s.dev.isRef = false) ∧ (s.dev.isFirst = false) ∧ (s.dev.src ≠ 2) ∧
      (s.dev.rd PEG_SYNC_CFG.LOSS_RND ≤ s.dev.rd PEG_SYNC_STATUS.NO_CORR + 1) ∧ (s.dev.rd PEG_SYNC_CFG.LOSS_RND ≤ 255)) ∧
    (let s : State := upPeg 3 [(PEG_CFG.NODE_ID, 7), (PEG_SYNC_CFG.MIN_VALS, 1), (PEG_SYNC_STATUS.NO_CORR, 8)] (fun p => { p with dev := [(0, -5)] });
      let j : Fin 8 := 0; let v : Int := -5; (s.dev.pst = 3) ∧ (s.dev.chain = false) ∧ (s.dev.ownSync = false) ∧
      (s.dev.isRef = false) ∧ (s.dev.isFirst = false) ∧ (s.dev.src ≠ 2) ∧ (s.dev.peg.dev = [(j.val, v)]) ∧
      (s.dev.peg.refs = []) ∧ (s.dev.peg.prev = []) ∧ (s.dev.rd PEG_SYNC_CFG.MIN_VALS = 1) ∧
      (v.natAbs ≤ s.dev.rd PEG_SYNC_WIN.W)) ∧
    (let s : State := upPeg 3 [(PEG_STATUS.MODE_NOW, 1), (PEG_STATUS.LANE_A_UP, 1), (PEG_STATUS.LANE_B_UP, 1), (PEG_CFG.RING, 1), (PEG_SYNC_STATUS.FIRST, 1)] (id);
      let p : Fin 2 := 1; let turn : Nat := 0; (s.dev.probes p = true) ∧ (turn ≤ 262144) ∧ (s.dev.isFirst = true)) ∧
    (let s : State := upPeg 3 [(PEG_STATUS.MODE_NOW, 1), (PEG_STATUS.LANE_A_UP, 1), (PEG_STATUS.LANE_B_UP, 1), (PEG_CFG.RING, 1), (PEG_DLY_B.VALID, 1), (PEG_DLY_B.FN, 3), (PEG_DLY_B.MT, 100)] (id);
      let p : Fin 2 := 0; let turn : Nat := 0; (s.dev.probes p = true) ∧ (turn ≤ 262144) ∧ (s.dev.isFirst = false) ∧
      (s.dev.on (dlyOk (p == 0)) = true)) ∧
    (let s : State := upPeg 3 [(PEG_STATUS.MODE_NOW, 1), (PEG_STATUS.LANE_A_UP, 1), (PEG_STATUS.LANE_B_UP, 1), (PEG_CFG.RING, 1)] (fun p => { p with ports := [{}, { seq := 255, wait := true }] });
      let p : Fin 2 := 1; let q : Nat := 255; let turn : Nat := 1000; let m : Mote := 80000; let rtt : Int := 79000;
      (s.dev.probes p = true) ∧ ((s.dev.peg.ports.getD p {}).wait = true) ∧ ((s.dev.peg.ports.getD p {}).seq = q) ∧
      ((s.dev.peg.ports.getD p {}).rtts = []) ∧ (s.dev.peg.ports.length = 2) ∧
      (rtt = (((atMote m s.dev).nowExt / 8 * 8 : Nat) : Int) - ((s.dev.peg.ports.getD p {}).sentAt / 8 * 8 : Nat) - turn)) ∧
    (let s : State := upPeg 3 [(PEG_STATUS.MODE_NOW, 1), (PEG_STATUS.LANE_A_UP, 1), (PEG_STATUS.LANE_B_UP, 1), (PEG_CFG.RING, 1), (PEG_SYNC_STATUS.RING_OK, 1)] (fun p => { p with ringB := 3 });
      (s.dev.on PEG_CFG.RING = true) ∧ (s.dev.on PEG_SYNC_STATUS.RING_OK = true) ∧
      (3 ≤ s.dev.peg.ringA ∨ 3 ≤ s.dev.peg.ringB ∨ s.dev.on PEG_STATUS.LANE_A_UP = false ∨ s.dev.on PEG_STATUS.LANE_B_UP = false)) ∧
    (let s : State := upPeg 3 [(PEG_STATUS.MODE_NOW, 1), (PEG_STATUS.LANE_A_UP, 1), (PEG_STATUS.LANE_B_UP, 1), (PEG_CFG.RING, 1)] (fun p => { p with ringBoth := 3 });
      (s.dev.on PEG_CFG.RING = true) ∧ (s.dev.on PEG_SYNC_STATUS.RING_OK = false) ∧ (3 ≤ s.dev.peg.ringBoth)) := by
  refine ⟨?_, ?_, ?_, ?_, ?_, ?_, ?_, ?_, ?_, ?_, ?_, ?_, ?_⟩ <;> decide

/-- States and operands that meet the hypotheses of `Obligations.LeashToken`. -/
theorem test_meets_LeashToken :
    (let s : State := upd [(LSH_CTRL.EN, 1), (LSH_STATUS.RUN, 2), (LSH_STATUS.STATE, 0), (RAT_DOM_STATUS.LSH_LANE_ON, 1)] fun d => { d with lsh := (id) d.lsh };
      (s.dev.lst = 0) ∧ (s.dev.eligibleNow = true)) ∧
    (let s : State := upd [(LSH_CTRL.EN, 1), (LSH_STATUS.RUN, 2), (LSH_STATUS.STATE, 2), (RAT_DOM_STATUS.LSH_LANE_ON, 1), (RST_BOOT_STATUS.STATE, 9)] fun d => { d with lsh := (id) d.lsh };
      (s.dev.lst = 1 ∨ s.dev.lst = 2) ∧ (s.dev.eligibleNow = false)) ∧
    (let s : State := upd [(LSH_CTRL.EN, 1), (LSH_STATUS.RUN, 2), (LSH_STATUS.STATE, 2), (RAT_DOM_STATUS.LSH_LANE_ON, 1)] fun d => { d with lsh := (fun l => { l with claimEv := 2 }) d.lsh };
      (s.dev.lst = 2) ∧ (2 ≤ s.dev.lsh.claimEv)) ∧
    (let s : State := upd [(LSH_CTRL.EN, 1), (LSH_STATUS.RUN, 2), (LSH_STATUS.STATE, 4), (RAT_DOM_STATUS.LSH_LANE_ON, 1), (FRE_STATUS.HOLDER, 1)] fun d => { d with lsh := (fun l => { l with expiry := 90000 }) d.lsh };
      let m : Mote := 90000; (s.dev.lst = 4) ∧ (s.dev.lsh.expiry ≤ (atMote m s.dev).nowExt)) ∧
    (let s : State := upd [(LSH_CTRL.EN, 1), (LSH_STATUS.RUN, 2), (LSH_STATUS.STATE, 3), (RAT_DOM_STATUS.LSH_LANE_ON, 1), (FRE_STATUS.HOLDER, 1), (PEG_SYNC_STATUS.ROLE, 1)] fun d => { d with lsh := (id) d.lsh };
      (Taken 0 s) ∧ ((s.dev.lst = 3 ∨ s.dev.lst = 4))) ∧
    (let s : State := upd [(LSH_CTRL.EN, 1), (LSH_STATUS.RUN, 2), (LSH_STATUS.STATE, 1), (RAT_DOM_STATUS.LSH_LANE_ON, 1)] fun d => { d with lsh := (id) d.lsh };
      let b : Bool := true; (s.dev.on LSH_STATUS.HOLD_IN = !b) ∧ (b = false ∨ s.dev.lst ≠ 2)) ∧
    (let s : State := upd [(LSH_CTRL.EN, 1), (LSH_STATUS.RUN, 2), (LSH_STATUS.STATE, 2), (RAT_DOM_STATUS.LSH_LANE_ON, 1), (LSH_STATUS.PEER_HOLDING, 1)] fun d => { d with lsh := (fun l => { l with goodFr := 11 }) d.lsh };
      (s.dev.on LSH_STATUS.HOLD_IN = false) ∧ (s.dev.lst = 2) ∧ (s.dev.peerPresent = true) ∧
      (s.dev.on LSH_STATUS.PEER_HOLDING = true)) ∧
    (let s : State := upd [(LSH_CTRL.EN, 1), (LSH_STATUS.RUN, 2), (LSH_STATUS.STATE, 1), (RAT_DOM_STATUS.LSH_LANE_ON, 1)] fun d => { d with lsh := (fun l => { l with backoff := some 0 }) d.lsh };
      let fr : Nat := 0; (s.dev.lsh.backoff = some fr) ∧ (fr ≤ s.dev.frameExt)) ∧
    (let s : State := upd [(LSH_CTRL.EN, 1), (LSH_STATUS.RUN, 2), (LSH_STATUS.STATE, 1), (RAT_DOM_STATUS.LSH_LANE_ON, 1), (LSH_STATUS.HOLD_IN, 1), (LSH_CFG.GUARD_FR, 12)] fun d => { d with lsh := (fun l => { l with highIdle := 12 }) d.lsh };
      (s.dev.lineFaulty = true)) := by
  refine ⟨?_, ?_, ?_, ?_, ?_, ?_, ?_, ?_, ?_⟩ <;> decide

/-- States and operands that meet the hypotheses of `Obligations.LeashMirror`. -/
theorem test_meets_LeashMirror :
    (let s : State := upd [(LSH_CTRL.EN, 1), (LSH_STATUS.RUN, 2), (LSH_STATUS.STATE, 3), (RAT_DOM_STATUS.LSH_LANE_ON, 1)] fun d => { d with lsh := (fun l => { l with txq := [(3, [1, 2]), (1, [])], seqTx := [0, 0, 255] }) d.lsh };
      let ty : Nat := 3; let p : Bytes := [1, 2]; let rest : List (Nat × Bytes) := [(1, [])];
      (s.dev.lsh.txq = (ty, p) :: rest) ∧ (1 ≤ ty) ∧ (ty ≤ 3) ∧ (s.dev.lsh.seqTx.length = 3) ∧ (s.dev.laneTx = true) ∧
      (s.dev.laneRecal = false) ∧ (s.dev.pm.upsets = [])) ∧
    (let s : State := upd [(LSH_CTRL.EN, 1), (LSH_STATUS.RUN, 2), (LSH_STATUS.STATE, 1), (RAT_DOM_STATUS.LSH_LANE_ON, 1)] fun d => { d with lsh := (id) d.lsh };
      let n : Nat := 255; let h : Nat := 200; let fl : Nat := 3; let nd : Nat := 31; let m : Mote := 3; (LaneHears m s) ∧
      (n < 256) ∧ (h < 256) ∧ (fl < 4) ∧ (nd < 32)) ∧
    (let s : State := upd [(LSH_CTRL.EN, 1), (LSH_STATUS.RUN, 2), (LSH_STATUS.STATE, 1), (RAT_DOM_STATUS.LSH_LANE_ON, 1)] fun d => { d with lsh := (id) d.lsh };
      let n : Nat := 255; let h : Nat := 200; let nd : Nat := 31; let m : Mote := 3; (LaneHears m s) ∧ (n < 256) ∧ (h < 256) ∧
      (nd < 32) ∧ (s.dev.lst = 1)) ∧
    (let s : State := upd [(LSH_CTRL.EN, 1), (LSH_STATUS.RUN, 2), (LSH_STATUS.STATE, 1), (RAT_DOM_STATUS.LSH_LANE_ON, 1)] fun d => { d with lsh := (id) d.lsh };
      let n : Nat := 255; let m : Mote := 3; (LaneHears m s) ∧ (n < 256)) ∧
    (let s : State := upd [(LSH_CTRL.EN, 1), (LSH_STATUS.RUN, 2), (LSH_STATUS.STATE, 1), (RAT_DOM_STATUS.LSH_LANE_ON, 1)] fun d => { d with lsh := (id) d.lsh };
      let n : Nat := 255; let p : Bytes := List.replicate 96 7; let m : Mote := 3; (LaneHears m s) ∧ (n < 256) ∧
      (p.length = 96)) ∧
    (let s : State := upd [(LSH_CTRL.EN, 1), (LSH_STATUS.RUN, 2), (LSH_STATUS.STATE, 1), (RAT_DOM_STATUS.LSH_LANE_ON, 1)] fun d => { d with lsh := (id) d.lsh };
      let symOk : Bool := true; let bs : Bytes := [0, 0, 0, 0, 1, 2, 3, 4]; (s.dev.laneOn = true) ∧
      (symOk = false ∨ beNat (bs.drop (bs.length - 4)) ≠ crc32 (bs.take (bs.length - 4)))) ∧
    (let s : State := upd [(LSH_CTRL.EN, 1), (LSH_STATUS.RUN, 2), (LSH_STATUS.STATE, 1), (RAT_DOM_STATUS.LSH_LANE_ON, 1)] fun d => { d with lsh := (fun l => { l with goodFr := 11 }) d.lsh };
      (s.dev.laneOn = true) ∧ (s.dev.peerPresent = true) ∧ (s.dev.on LSH_STATUS.LANE_UP = false)) ∧
    (let s : State := upd [(LSH_CTRL.EN, 1), (LSH_STATUS.RUN, 2), (LSH_STATUS.STATE, 1), (RAT_DOM_STATUS.LSH_LANE_ON, 1), (LSH_STATUS.LANE_UP, 1)] fun d => { d with lsh := (id) d.lsh };
      (s.dev.on LSH_STATUS.LANE_UP = true)) ∧
    (let s : State := upd [(LSH_CTRL.EN, 1), (LSH_STATUS.RUN, 2), (LSH_STATUS.STATE, 0), (RAT_DOM_STATUS.LSH_LANE_ON, 1), (RAT_STATUS.TIER, 5), (RAT_BIV_CFG.WAKE_LEASE, 1), (RAT_DOM_STATUS.PD_ON, 1), (RAT_DOM_STATUS.PMEM_SR, 1), (LSH_CFG.GUARD_FR, 12)] fun d => { d with lsh := (fun l => { l with bivFall := true, lowEv := 12 }) d.lsh };
      (s.dev.leaseWake = true) ∧ (s.dev.booted = true) ∧ (s.dev.rat.wakeFr = none) ∧ (s.dev.capsHold = false) ∧
      (s.dev.on RAT_BIV_CFG.WAKE_LEASE = true) ∧ (s.dev.rat.shadow = none) ∧ (s.dev.on RAT_DOM_STATUS.PMEM_SR = true)) := by
  refine ⟨?_, ?_, ?_, ?_, ?_, ?_, ?_, ?_, ?_⟩ <;> decide

/-- States and operands that meet the hypotheses of `Obligations.VoicePorts`. -/
theorem test_meets_VoicePorts :
    (let s : State := upSap 3 1 7816 [(SAPp_STATUS.RUN 3, 1)] id; let p : Fin 8 := 3; let n : Nat := 0; (s.dev.sapRun p = 1) ∧
      (s.dev.on (SAPp_STATUS.CFG_BAD p) = false) ∧ (s.dev.sapDiv p (s.dev.port p) = some n) ∧ (s.dev.sap.ports.length = 8)) ∧
    (let s : State := upSap 3 1 7816 [] fun q => { q with tick := 7 }; let p : Fin 9 := 3; let m : Mote := 9;
      (2 ≤ s.dev.sapRun p) ∧ (s.dev.sapHears p = false) ∧ (p.val < 8) ∧
      ((s.dev.port p).tick ≠ (atMote m s.dev).tickIx (s.dev.port p).hz) ∧
      ((s.dev.port p).iec = false ∨ s.dev.on (SAP_IECq_CFG.TX_EN (p - 6)) = true) ∧ (s.dev.sap.ports.length = 8) ∧
      (s.dev.acRunning false p = []) ∧ (s.dev.acRunning true p = []) ∧ ((s.dev.port p).outQ.length < 4)) ∧
    (let s : State := upSap 3 1 7816 [(SAP_OMAPk.RUN 63, 2), (SAP_OMAPk.EN 63, 1), (SAP_OMAPk.PORT 63, 3), (SAP_OMAPk.SLOT 63, 1)] (fun q => { q with tick := 7 }) |> fun st => { st with dev := st.dev.acMod false 63 fun c => { c with map := 1 + 8 * 3 + 128, cell := [{ bs := [1, 2] }, { bs := [3, 4] }] } };
      let p : Fin 9 := 3; let m : Mote := 9; let k : Fin 64 := 63; let x : Staged := { bs := [1, 2] };
      let rest : List Staged := [{ bs := [3, 4] }]; (2 ≤ s.dev.sapRun p) ∧ ((s.dev.port p).iec = false) ∧
      ((s.dev.port p).master = false) ∧ (p.val < 8) ∧ ((s.dev.port p).tick ≠ (atMote m s.dev).tickIx (s.dev.port p).hz) ∧
      (s.dev.on (SAPp_STATUS.LOCKED p) = false) ∧ (s.dev.acRunning false p = [k.val]) ∧ (s.dev.acRunning true p = []) ∧
      ((s.dev.port p).outQ.length < 4) ∧ ((s.dev.ac false k).src = 0) ∧ ((s.dev.ac false k).cell = x :: rest) ∧
      ((s.dev.ac false k).hold = none) ∧ (x.mark = none) ∧ ((s.dev.ac false k).dip = false) ∧
      (s.dev.rd (fadeField false k) = 0) ∧ (s.dev.rd (runField false k) = 2) ∧ (s.dev.sapRun p = 2) ∧ (s.dev.sap.biv = false) ∧
      (s.dev.pm.upsets = [])) ∧
    (let s : State := upSap 3 1 7816 [] id; let p : Fin 8 := 3; (2 ≤ s.dev.sapRun p) ∧ ((s.dev.port p).iec = false) ∧
      ((s.dev.port p).master = false) ∧ (s.dev.on (SAPp_STATUS.LOCKED p) = false)) ∧
    (let s : State := upSap 3 1 7816 [(SAPp_STATUS.LOCKED 3, 1)] id; let p : Fin 8 := 3; (2 ≤ s.dev.sapRun p) ∧
      ((s.dev.port p).iec = false) ∧ ((s.dev.port p).master = false) ∧ (s.dev.on (SAPp_STATUS.LOCKED p) = true)) ∧
    (let s : State := upSap 3 3 7816 [] fun q => { q with outQ := [[0x12340000, 0xABCD0000], [0, 0]] }; let p : Fin 8 := 3;
      let v : Nat := 0x80017FFF; let w : List Nat := [0x12340000, 0xABCD0000]; let rest : List (List Nat) := [[0, 0]];
      (2 ≤ s.dev.sapRun p) ∧ ((s.dev.port p).iec = false) ∧ (s.dev.sapHears p = true) ∧ ((s.dev.port p).outQ = w :: rest) ∧
      ((s.dev.port p).txRest = (0, 0)) ∧ ((s.dev.port p).rxRest = (0, 0)) ∧ ((s.dev.port p).inQ.length < 4) ∧
      ((s.dev.port p).frameBits = 32) ∧ (rest.length < 4) ∧ (v < 2 ^ 32) ∧
      (((∀ y ∈ w, y % 2 ^ (32 - (s.dev.port p).slotBits) = 0))) ∧ (w.length = (s.dev.port p).slots) ∧
      (((∀ y ∈ w, y < 2 ^ 32)))) ∧
    (let s : State := upSap 3 5 7816 [(SAPp_STATUS.LOCKED 3, 1)] fun q => { q with outQ := [[0, 0], [0, 0]] };
      let p : Fin 8 := 3; let len : Nat := 31; (2 ≤ s.dev.sapRun p) ∧ ((s.dev.port p).iec = false) ∧
      ((s.dev.port p).master = false) ∧ (s.dev.on (SAPp_STATUS.LOCKED p) = true) ∧ (len ≠ (s.dev.port p).frameBits) ∧
      (s.dev.sap.ports.length = 8)) ∧
    (let s : State := upSap 3 1 7816 [(SAPp_STATUS.RUN 3, 3)] fun q => { q with outQ := [[0, 0]] }; let p : Fin 8 := 3;
      (s.dev.sapRun p = 3) ∧ (s.dev.portFaded p = true) ∧ (s.dev.sap.ports.length = 8)) := by
  refine ⟨?_, ?_, ?_, ?_, ?_, ?_, ?_, ?_⟩ <;> decide

/-- States and operands that meet the hypotheses of `Obligations.AudioChannelsAndIec`. -/
theorem test_meets_AudioChannelsAndIec :
    (let s : State := upSap 3 1 7816 [(SAP_IMAPk.RUN 9, 1), (SAP_IMAPk.PORT 9, 3)] id |> fun st => { st with dev := st.dev.acMod true 9 fun c => { c with map := 1 + 8 * 3 + 128 } };
      let inp : Bool := true; let k : Fin 64 := 9; (s.dev.rd (runField inp k) = 1) ∧
      (s.dev.portTakes (s.dev.ac inp k) = true) ∧
      (((∀ j : Fin 64, j ≠ k → s.dev.rd (runField inp j) ≠ 0 → acClash inp (s.dev.ac inp k) (s.dev.ac inp j) = false)))) ∧
    (let s : State := upSap 3 1 7816 [(SAP_IMAPk.RUN 9, 1), (SAP_IMAPk.PORT 9, 3), (SAP_IMAPk.RUN 8, 2)] id |> fun st => { st with dev := (st.dev.acMod true 9 fun c => { c with map := 1 + 8 * 3 + 128 }).acMod true 8 fun c => { c with map := 1 + 8 * 3 + 128 } };
      let inp : Bool := true; let k : Fin 64 := 9; let j : Fin 64 := 8; (s.dev.rd (runField inp k) = 1) ∧
      (s.dev.portTakes (s.dev.ac inp k) = true) ∧ ((s.dev.ac inp k).port < 8) ∧ (j < k) ∧ (s.dev.rd (runField inp j) ≠ 0) ∧
      (s.dev.rd (runField inp j) ≠ 3) ∧ (acClash inp (s.dev.ac inp k) (s.dev.ac inp j) = true)) ∧
    (let s : State := up [(SAP_OMAPk.RUN 63, 3), (SAP_OMAPk.FADE 63, 2)]; let inp : Bool := false; let k : Fin 64 := 63;
      (s.dev.rd (runField inp k) = 3) ∧ (s.dev.rd (fadeField inp k) = 2)) ∧
    (let s : State := upSap 6 9 77320 [(SAP_IECq_CFG.RX_EN 0, 1)] id; let p : Fin 8 := 6; (2 ≤ s.dev.sapRun p) ∧
      ((s.dev.port p).iec = true) ∧ (s.dev.on (SAP_IECq_CFG.RX_EN (p - 6)) = true) ∧ (s.dev.on (SAPp_STATUS.LOCKED p) = false)) ∧
    (let s : State := upSap 6 9 77320 [(SAP_IECq_CFG.RX_EN 0, 1), (SAPp_STATUS.LOCKED 6, 1)] id; let p : Fin 8 := 6;
      (2 ≤ s.dev.sapRun p) ∧ ((s.dev.port p).iec = true) ∧ (s.dev.on (SAP_IECq_CFG.RX_EN (p - 6)) = true) ∧
      (s.dev.on (SAPp_STATUS.LOCKED p) = true)) ∧
    (let s : State := upSap 6 9 77320 [(SAP_IECq_CFG.RX_EN 0, 1), (SAPp_STATUS.LOCKED 6, 1)] fun q => { q with csA := List.replicate 192 true, csB := List.replicate 192 false };
      let p : Fin 8 := 6; (2 ≤ s.dev.sapRun p) ∧ ((s.dev.port p).iec = true) ∧ (s.dev.on (SAP_IECq_CFG.RX_EN (p - 6)) = true) ∧
      (s.dev.on (SAPp_STATUS.LOCKED p) = true) ∧ ((s.dev.port p).csA.length = 192) ∧ (6 ≤ p.val) ∧
      (s.dev.sap.ports.length = 8)) ∧
    (let s : State := upSap 7 9 77320 [(SAP_IECq_CFG.TX_EN 1, 1)] fun q => { q with outQ := [[0x12340000, 0xABCD0000]], txIdx := 191 };
      let p : Fin 8 := 7; let w : List Nat := [0x12340000, 0xABCD0000]; let rest : List (List Nat) := [];
      (2 ≤ s.dev.sapRun p) ∧ ((s.dev.port p).iec = true) ∧ (s.dev.on (SAP_IECq_CFG.TX_EN (p - 6)) = true) ∧
      ((s.dev.port p).outQ = w :: rest) ∧ (rest.length < 4)) := by
  refine ⟨?_, ?_, ?_, ?_, ?_, ?_, ?_⟩ <;> decide

/-- States and operands that meet the hypotheses of `Obligations.ServiceSpeaker`. -/
theorem test_meets_ServiceSpeaker :
    (let s : State := upd [(SPK_STATUS.STATE, 0), (SPK_STATUS.RUN, 0)] fun d => d.spkMod (id); (s.dev.booted = true) ∧
      (s.dev.run = true) ∧ (s.dev.pd 5 = true) ∧ (s.dev.spkSt = 0) ∧ (s.dev.spkPower = true)) ∧
    (let s : State := upd [(SPK_STATUS.STATE, 2), (SPK_STATUS.RUN, 2), (SPK_CTRL.EN, 1)] fun d => d.spkMod (id);
      (s.dev.booted = true) ∧ (s.dev.run = true) ∧ (s.dev.pd 5 = true) ∧ (s.dev.spkSt = 2)) ∧
    (let s : State := upd [(SPK_STATUS.STATE, 1), (SPK_STATUS.RUN, 2)] fun d => d.spkMod (fun x => { x with fr := 80 });
      (s.dev.spkSt = 1) ∧ (s.dev.spk.rLen ≤ s.dev.spk.fr)) ∧
    (let s : State := upd [(SPK_STATUS.STATE, 3), (SPK_STATUS.RUN, 3)] fun d => d.spkMod (fun x => { x with fr := 80 });
      (s.dev.spkSt = 3) ∧ (s.dev.spk.rLen ≤ s.dev.spk.fr) ∧ (s.dev.rd SPK_STATUS.RUN = 3)) ∧
    (let s : State := upd [(SPK_STATUS.STATE, 2), (SPK_STATUS.RUN, 2), (SPK_STATUS.TRIPS, 3)] fun d => d.spkMod (id);
      (s.dev.spkDrives = true) ∧ (s.dev.rd SPK_STATUS.TRIPS < 4)) ∧
    (let s : State := upd [(SPK_STATUS.STATE, 2), (SPK_STATUS.RUN, 2), (SPK_STATUS.TRIPS, 4)] fun d => d.spkMod (id);
      (s.dev.spkDrives = true) ∧ (s.dev.rd SPK_STATUS.TRIPS = 4)) ∧
    (let s : State := upd [(SPK_STATUS.STATE, 1), (SPK_STATUS.RUN, 2)] fun d => d.spkMod (id); let deg : Int := 140;
      (140 ≤ deg) ∧ (1 ≤ s.dev.spkSt) ∧ (s.dev.spkSt ≤ 3) ∧ (s.dev.rd SPK_STATUS.TRIPS < 4)) ∧
    (let deg : Int := 120; (deg ≤ 120)) ∧
    (let s : State := upd [(SPK_STATUS.STATE, 4), (SPK_STATUS.RUN, 2), (SPK_CTRL.EN, 1)] fun d => d.spkMod (fun x => { x with fr := 800 });
      (s.dev.spkSt = 4) ∧ (800 ≤ s.dev.spk.fr) ∧ (s.dev.on SPK_CTRL.EN = true) ∧ (s.dev.on SPK_STATUS.HOT = false)) ∧
    (let s : State := upd [(SPK_STATUS.STATE, 2), (SPK_STATUS.RUN, 2), (SPK_STATUS.TRIPS, 4)] fun d => d.spkMod (fun x => { x with fr := 8000 });
      (s.dev.spkSt = 2) ∧ (8000 ≤ s.dev.spk.fr) ∧ (s.dev.spk.clean = false) ∧ (s.dev.rd SPK_STATUS.TRIPS ≠ 0)) ∧
    (let s : State := upd [(SPK_STATUS.STATE, 5), (SPK_STATUS.RUN, 0), (SPK_STATUS.FAULT, 1), (SPK_STATUS.TRIPS, 5)] fun d => d.spkMod (id);
      (Taken 5 s) ∧ (s.dev.spkSt = 5) ∧ (s.dev.on SPK_CTRL.EN = false)) ∧
    (let s : State := upd [(SPK_STATUS.STATE, 2), (SPK_STATUS.RUN, 2)] fun d => d.spkMod (fun x => { x with tick := 7 });
      let m : Mote := 9; (s.dev.spkDrives = true) ∧ (s.dev.spk.tick ≠ (atMote m s.dev).tickIx s.dev.spkHz) ∧
      (s.dev.acRunning false 8 = [])) := by
  refine ⟨?_, ?_, ?_, ?_, ?_, ?_, ?_, ?_, ?_, ?_, ?_, ?_⟩ <;> decide

/-- States and operands that meet the hypotheses of `Obligations.LifelineBridge`. -/
theorem test_meets_LifelineBridge :
    (let s : State := upLlb 3 [(LLB_CH_RUN0.RUN, 512), (LLB_STATUS.RUN, 0)] id |> fun st => { st with dev := setLlbRun 3 1 st.dev };
      let c : Fin 17 := 3; (c.val < 16) ∧ (s.dev.llbRun c = 1) ∧ (s.dev.tplOk c = true) ∧
      ((s.dev.tplLocal c = false ∨ s.dev.sapFeeds (s.dev.vchTx c) = false)) ∧ (s.dev.frame % 16 = 0)) ∧
    (let s : State := upLlb 3 [(⟨0x2E0008 + 128 * 3, 0, 32⟩, 0x100)] id |> fun st => { st with dev := setLlbRun 3 1 st.dev };
      let c : Fin 17 := 3; (c.val < 16) ∧ (s.dev.llbRun c = 1) ∧ (s.dev.tplOk c = false)) ∧
    (let s : State := upLlb 3 [(LLB_CH_RUN0.RUN, 512), (LLB_STATUS.RUN, 0), (⟨0x2E0000 + 128 * 3, 0, 32⟩, 21), (SAP_IMAPk.RUN 0, 2)] (fun x => { x with act := false }) |> fun st => { st with dev := setLlbRun 3 1 { st.dev with sap := { st.dev.sap with ins := st.dev.sap.ins.modify 0 fun i => { i with map := 2 } } } };
      let c : Fin 17 := 3; (c.val < 16) ∧ (s.dev.llbRun c = 1) ∧ (s.dev.tplOk c = true) ∧ (s.dev.tplLocal c = true) ∧
      (s.dev.sapFeeds (s.dev.vchTx c) = true) ∧ ((s.dev.lc c).conf = false)) ∧
    (let s : State := upLlb 3 [(LLB_STATUS.EV_RUN, 1), (⟨0x2E0800, 0, 32⟩, 0)] id; (s.dev.rd LLB_STATUS.EV_RUN = 1) ∧
      (s.dev.evTplOk = false)) ∧
    (let s : State := upLlb 3 [(LLB_STATUS.EV_RUN, 1)] id; (s.dev.rd LLB_STATUS.EV_RUN = 1) ∧ (s.dev.evTplOk = true) ∧
      (s.dev.frame % 16 = 0)) ∧
    (let s : State := upLlb 3 [(LLB_CFG.TC, 7), (CHn_MAX_LEN.MAX 0, 1518)] id |> fun st => { st with dev := st.dev.hearthMod fun h => h.all fun c => { c with t := 0x3000000 } };
      let c : Fin 16 := 3; let r : Nat := 1; (s.dev.llbDue c = some r) ∧ ((s.dev.lc c).act = true) ∧
      ((s.dev.lc c).lastR ≠ some r) ∧ (s.dev.holds = true) ∧ ((s.dev.chRun 0 = 1 ∨ s.dev.chRun 0 = 2)) ∧
      (s.dev.fenced 0 = false) ∧ ((s.dev.ch 0).fencing = false) ∧ (62 + 16 * s.dev.ptime c ≤ s.dev.rd (CHn_MAX_LEN.MAX 0)) ∧
      ((s.dev.ch 0).queues.length = 8) ∧ (s.dev.chan.length = 4) ∧ (s.dev.llb.chs.length = 16) ∧ (QueuesClean s)) ∧
    (let s : State := upLlb 3 [] id |> fun st => { st with dev := (st.dev.hearthMod fun h => h.all fun c => { c with t := 0x3000000 }).chMod 0 fun c => { c with queues := [[], [], [], [], [], [], [], [{ llb := some 3, tc := 7, data := [1] }]] } };
      let c : Fin 17 := 3; let x : Sys2Proof.Machine.Frm := { llb := some 3, tc := 7, data := [1] }; (c.val < 16) ∧
      (((s.dev.ch 0).queues.flatMap id) = [x]) ∧ (x.llb = some c.val) ∧ (x.qFr + 16 * s.dev.ptime c ≤ s.dev.frameExt) ∧
      (s.dev.chan.length = 4) ∧ (s.dev.pm.sentIds = [])) ∧
    (let s : State := upLlb 3 [] id; let c : Fin 16 := 3;
      let data : Bytes := upFrame (let p := s.dev.llbPacket 3 [1] 9 77 true; p.set 44 1); (s.dev.llbMatch data = some c.val) ∧
      (s.dev.llbGood c data = none)) ∧
    (let s : State := upLlb 3 [] id; let c : Fin 16 := 3; let data : Bytes := upFrame (s.dev.llbPacket 3 [1, 2, 3] 9 77 true);
      let ul : Nat := 23; (s.dev.llbMatch data = some c.val) ∧ (s.dev.llbGood c data = some ul) ∧ ((s.dev.lc c).act = true) ∧
      ((s.dev.lc c).anchor = none) ∧ ((s.dev.lc c).silent = false) ∧ (s.dev.tplSsrc c = 0) ∧ ((s.dev.lc c).ssrc = none) ∧
      ((s.dev.lc c).seqs = []) ∧ (s.dev.anchorFrame c + (ul - 20) ≤ s.dev.frameExt + 257) ∧ (s.dev.llb.chs.length = 16)) ∧
    (let s : State := upLlb 3 [(LLB_STATUS.EV_RUN, 0)] fun x => { x with quiet := 1, ssrc := some 7 }; let c : Fin 16 := 3;
      ((s.dev.lc c).act = true) ∧ ((s.dev.lc c).silent = false) ∧ (s.dev.silentRnd c ≤ (s.dev.lc c).quiet) ∧
      ((s.dev.rd LLB_STATUS.EV_RUN ≠ 2))) ∧
    (let s : State := upLlb 3 [] id |> fun st => { st with dev := st.dev.llbMod fun l => { l with evq := [{ body := List.replicate 32 1, copy := 1, left := 3 }] } };
      let y : LlbEv := { body := List.replicate 32 1, copy := 1, left := 3 }; (s.dev.llb.evq = [y]) ∧
      (y.due ≤ s.dev.frameExt) ∧ (s.dev.holds = true)) ∧
    (let s : State := upLlb 3 [(LSH_STATUS.STATE, 1)] id |> fun st => { st with dev := st.dev.llbMod fun l => { l with evq := [{ body := [1, 2], copy := 3, left := 1 }] } };
      let y : LlbEv := { body := [1, 2], copy := 3, left := 1 }; (s.dev.llb.evq = [y]) ∧ (y.due ≤ s.dev.frameExt) ∧
      (s.dev.holds = false) ∧ (byteAt y.body 1 ≠ 7) ∧ (y.left ≤ 1)) ∧
    (let s : State := upLlb 3 [] id |> fun st => { st with dev := setLlbRun 3 3 st.dev }; let c : Fin 17 := 3; (c.val < 16) ∧
      (s.dev.llbRun c = 3) ∧ ((s.dev.lc c).build = none)) ∧
    (let s : State := upLlb 3 [(LLB_STATUS.EV_RUN, 3)] id; (s.dev.rd LLB_STATUS.EV_RUN = 3) ∧ (s.dev.llb.evq = [])) := by
  refine ⟨?_, ?_, ?_, ?_, ?_, ?_, ?_, ?_, ?_, ?_, ?_, ?_, ?_, ?_⟩ <;> decide

/-- States and operands that meet the hypotheses of `Obligations.CompressionJobs`. -/
theorem test_meets_CompressionJobs :
    (let s : State := upCmp 0x68000064 4096 [] (id); let r : Nat := 384; let cnt : Nat := 0;
      let y : Desc := { w := [0x10000, 0, 0x20000, 0, 0x68000064, 4096, 0, 0x80000000] }; (s.dev.rd CMP_STATUS.RUN = 2) ∧
      (s.dev.cmp.job = none) ∧ (s.dev.nextJob = some (r, cnt, y)) ∧ (s.dev.cmpAvail = true) ∧
      (s.dev.cmpAccept (cmpJobOf r cnt ((s.dev.ringFn r).getD 0) y) y = true) ∧ (s.dev.cmp.ctx.length = 16) ∧
      ((cmpJobOf r cnt ((s.dev.ringFn r).getD 0) y).op = 0) ∧ ((cmpJobOf r cnt ((s.dev.ringFn r).getD 0) y).first = true) ∧
      (10 ≤ (cmpJobOf r cnt ((s.dev.ringFn r).getD 0) y).dstLen) ∧ (384 ≤ r) ∧ (r < 400)) ∧
    (let s : State := upCmp 0x51000064 4096 [] (fun x => { x with ctx := x.ctx.set 0 { st := 1, wrap := 2 } });
      let r : Nat := 384; let cnt : Nat := 0;
      let y : Desc := { w := [0x10000, 0, 0x20000, 0, 0x51000064, 4096, 0, 0x80000000] }; (s.dev.rd CMP_STATUS.RUN = 2) ∧
      (s.dev.cmp.job = none) ∧ (s.dev.nextJob = some (r, cnt, y)) ∧ (s.dev.cmpAvail = true) ∧
      (s.dev.cmpAccept (cmpJobOf r cnt ((s.dev.ringFn r).getD 0) y) y = true) ∧ (s.dev.cmp.ctx.length = 16) ∧
      ((cmpJobOf r cnt ((s.dev.ringFn r).getD 0) y).op = 1) ∧ ((cmpJobOf r cnt ((s.dev.ringFn r).getD 0) y).first = false) ∧
      (384 ≤ r)) ∧
    (let s : State := upCmp 0x72000064 4096 [] (id); let r : Nat := 384; let cnt : Nat := 0;
      let y : Desc := { w := [0x10000, 0, 0x20000, 0, 0x72000064, 4096, 0, 0x80000000] }; (s.dev.rd CMP_STATUS.RUN = 2) ∧
      (s.dev.cmp.job = none) ∧ (s.dev.nextJob = some (r, cnt, y)) ∧ (s.dev.cmpAvail = true) ∧
      (s.dev.cmpAccept (cmpJobOf r cnt ((s.dev.ringFn r).getD 0) y) y = true) ∧ (s.dev.cmp.ctx.length = 16) ∧
      ((cmpJobOf r cnt ((s.dev.ringFn r).getD 0) y).op = 2) ∧ ((cmpJobOf r cnt ((s.dev.ringFn r).getD 0) y).first = true) ∧
      (384 ≤ r) ∧ (r < 400)) ∧
    (let s : State := upCmp 0x3000000 34816 [] (id); let r : Nat := 384; let cnt : Nat := 0;
      let y : Desc := { w := [0x10000, 0, 0x20000, 0, 0x3000000, 34816, 0, 0x80000000] }; (s.dev.rd CMP_STATUS.RUN = 2) ∧
      (s.dev.cmp.job = none) ∧ (s.dev.nextJob = some (r, cnt, y)) ∧ (s.dev.cmpAvail = true) ∧
      (s.dev.cmpAccept (cmpJobOf r cnt ((s.dev.ringFn r).getD 0) y) y = true) ∧ (s.dev.cmp.ctx.length = 16) ∧
      ((cmpJobOf r cnt ((s.dev.ringFn r).getD 0) y).op = 3) ∧ (384 ≤ r)) ∧
    (let s : State := upCmp 0x4008800 0 [] (id); let r : Nat := 384; let cnt : Nat := 0;
      let y : Desc := { w := [0x10000, 0, 0x20000, 0, 0x4008800, 0, 0, 0x80000000] }; (s.dev.rd CMP_STATUS.RUN = 2) ∧
      (s.dev.cmp.job = none) ∧ (s.dev.nextJob = some (r, cnt, y)) ∧ (s.dev.cmpAvail = true) ∧
      (s.dev.cmpAccept (cmpJobOf r cnt ((s.dev.ringFn r).getD 0) y) y = true) ∧ (s.dev.cmp.ctx.length = 16) ∧
      ((cmpJobOf r cnt ((s.dev.ringFn r).getD 0) y).op = 4) ∧ (384 ≤ r)) ∧
    (let s : State := upCmp 0x3000000 0 [] id; let r : Nat := 384; let cnt : Nat := 0;
      let y : Desc := { w := [0x10000, 0, 0x20000, 0, 0x3000000, 0, 0, 0x80000000] }; (s.dev.rd CMP_STATUS.RUN = 2) ∧
      (s.dev.cmp.job = none) ∧ (s.dev.nextJob = some (r, cnt, y)) ∧ (s.dev.cmpAvail = true) ∧
      (s.dev.cmpAccept (cmpJobOf r cnt ((s.dev.ringFn r).getD 0) y) y = false) ∧
      ((cmpJobOf r cnt ((s.dev.ringFn r).getD 0) y).op = 3)) := by
  refine ⟨?_, ?_, ?_, ?_, ?_, ?_⟩ <;> decide

/-- States and operands that meet the hypotheses of `Obligations.CompressionProgress`. -/
theorem test_meets_CompressionProgress :
    (let s : State := upCmp 0x61000003 4096 [] fun x => { x with job := some { ring := 384, op := 0, first := true, last := true, wrap := 1, srcLen := 3, dst := 0x20000, dstLen := 4096, asked := 3, have_ := 3, inp := [65, 66, 67] }, ctx := x.ctx.set 0 { st := 1, wrap := 1, check := 1, tout := 2 } };
      let j : CmpJob := { ring := 384, op := 0, first := true, last := true, wrap := 1, srcLen := 3, dst := 0x20000, dstLen := 4096, asked := 3, have_ := 3, inp := [65, 66, 67] };
      (s.dev.cmp.job = some j) ∧ (j.fin = none) ∧ (j.op < 2) ∧ (min 32768 (j.srcLen - j.used) ≤ j.inp.length) ∧
      (j.used < j.srcLen) ∧ (ctxOf j.ring < 16) ∧ (s.dev.cmp.ctx.length = 16) ∧ (s.dev.pm.upsets = [])) ∧
    (let s : State := upCmp 0x61000003 4096 [] fun x => { x with job := some { ring := 384, op := 1, first := true, last := true, wrap := 1, srcLen := 3, dst := 0x20000, dstLen := 4096, asked := 3, have_ := 3, inp := [65, 66, 67] }, ctx := x.ctx.set 0 { st := 1, wrap := 1, check := 1, tout := 2 } };
      let j : CmpJob := { ring := 384, op := 1, first := true, last := true, wrap := 1, srcLen := 3, dst := 0x20000, dstLen := 4096, asked := 3, have_ := 3, inp := [65, 66, 67] };
      (s.dev.cmp.job = some j) ∧ (j.fin = none) ∧ (j.op < 2) ∧ (j.srcLen - j.used ≤ 32768) ∧
      (j.srcLen ≤ j.used + j.inp.length) ∧ (j.used < j.srcLen) ∧ (ctxOf j.ring < 16) ∧ (j.obits.length < 8) ∧
      (j.made + (j.srcLen - j.used) + 32 ≤ j.dstLen) ∧ (s.dev.pm.upsets = [])) ∧
    (let s : State := upCmp 0x61000003 4096 [] fun x => { x with job := some { ring := 384, op := 2, first := true, last := true, wrap := 1, srcLen := 3, dst := 0x20000, dstLen := 4096, asked := 3, have_ := 3, inp := [65, 66, 67] }, ctx := x.ctx.set 0 { st := 2, phase := 1, bits := [true, true, true] } };
      let j : CmpJob := { ring := 384, op := 2, first := true, last := true, wrap := 1, srcLen := 3, dst := 0x20000, dstLen := 4096, asked := 3, have_ := 3, inp := [65, 66, 67] };
      let b : Bool := true; (s.dev.cmp.job = some j) ∧ (j.fin = none) ∧ (j.op = 2) ∧ (j.made < j.dstLen) ∧
      ((s.dev.cx (ctxOf j.ring)).phase = 1) ∧ ((s.dev.cx (ctxOf j.ring)).bits.take 3 = [b, true, true]) ∧ (j.used ≤ j.srcLen) ∧
      (j.inp ≠ []) ∧ (ctxOf j.ring < 16) ∧ (s.dev.cmp.ctx.length = 16) ∧ (s.dev.pm.upsets = [])) ∧
    (let s : State := upCmp 0x61000003 4096 [] fun x => { x with job := some { ring := 384, op := 2, first := true, last := true, wrap := 1, srcLen := 3, dst := 0x20000, dstLen := 4096, asked := 3, have_ := 3, inp := [65, 66, 67], fin := some 8 }, ctx := x.ctx.set 0 { st := 1, wrap := 1, check := 1, tout := 2 } };
      let j : CmpJob := { ring := 384, op := 2, first := true, last := true, wrap := 1, srcLen := 3, dst := 0x20000, dstLen := 4096, asked := 3, have_ := 3, inp := [65, 66, 67], fin := some 8 };
      let st : Nat := 8; (s.dev.cmp.job = some j) ∧ (j.fin = some st) ∧ (j.stop ≠ some 0) ∧
      ((st = 0 ∨ st = 6 ∨ st = 7 ∨ st = 8))) ∧
    (let s : State := upCmp 0x61000003 4096 [] fun x => { x with job := some { ring := 384, op := 4, srcLen := 34816, inp := List.replicate 34816 0 }, ctx := x.ctx.set 0 { st := 1, wrap := 1, check := 1, tout := 2 } };
      let j : CmpJob := { ring := 384, op := 4, srcLen := 34816, inp := List.replicate 34816 0 }; (s.dev.cmp.job = some j) ∧
      (j.fin = none) ∧ (j.op = 4) ∧ (j.stop ≠ some 0) ∧ (34816 ≤ j.inp.length) ∧ (ctxOf j.ring < 16) ∧
      (s.dev.cmp.ctx.length = 16)) ∧
    (let s : State := upCmp 0x61000003 4096 [] fun x => { x with job := some { ring := 384, op := 2, first := true, last := true, wrap := 1, srcLen := 3, dst := 0x20000, dstLen := 4096, asked := 3, have_ := 3, inp := [65, 66, 67], stop := some 2 }, ctx := x.ctx.set 0 { st := 1, wrap := 1, check := 1, tout := 2 } };
      let j : CmpJob := { ring := 384, op := 2, first := true, last := true, wrap := 1, srcLen := 3, dst := 0x20000, dstLen := 4096, asked := 3, have_ := 3, inp := [65, 66, 67], stop := some 2 };
      (s.dev.cmp.job = some j) ∧ ((j.stop = some 1 ∨ j.stop = some 2)) ∧ (j.op < 3) ∧ (j.fin = none) ∧ (ctxOf j.ring < 16) ∧
      (s.dev.cmp.ctx.length = 16) ∧ (s.dev.cmpAtBoundary j = true)) ∧
    (let s : State := upCmp 0x61000003 4096 [] fun x => { x with job := some { ring := 384, op := 2, first := true, last := true, wrap := 1, srcLen := 3, dst := 0x20000, dstLen := 4096, asked := 3, have_ := 3, inp := [65, 66, 67], stop := some 0 }, ctx := x.ctx.set 0 { st := 1, wrap := 1, check := 1, tout := 2 } };
      let j : CmpJob := { ring := 384, op := 2, first := true, last := true, wrap := 1, srcLen := 3, dst := 0x20000, dstLen := 4096, asked := 3, have_ := 3, inp := [65, 66, 67], stop := some 0 };
      (s.dev.cmp.job = some j) ∧ (j.stop = some 0) ∧ (ctxOf j.ring < 16) ∧ (s.dev.cmp.ctx.length = 16)) ∧
    (let s : State := up [(CMP_STATUS.RUN, 3)]; (s.dev.cmp.job = none) ∧ (s.dev.rd CMP_STATUS.RUN = 3)) := by
  refine ⟨?_, ?_, ?_, ?_, ⟨rfl, rfl, rfl, by decide, by show 34816 ≤ (List.replicate 34816 (0 : Byte)).length; rw [List.length_replicate], by decide, rfl⟩, ?_, ?_, ?_⟩ <;> decide

/-- States and operands that meet the hypotheses of `Obligations.Guyline`. -/
theorem test_meets_Guyline :
    (let s : State := up [(FLD_GL_CFG.SHARED, 0)]; (LineFree s)) ∧
    (let s : State := up []; (Taken 0 s) ∧ (s.dev.on FLD_GL_STATUS.BUSY = false) ∧ (s.dev.on FLD_GL_CTRL.GO = false) ∧
      (s.dev.glReady = false)) ∧
    (let s : State := up [(FLD_GL_CFG.SHARED, 0)]; (LineFree s)) ∧
    (let s : State := up [(FLD_GL_CFG.SHARED, 0), (FLD_GL_STATUS.COUNT, 2), (FLD_GL_ID.ID 1 2, 77)]; (LineFree s) ∧
      (s.dev.rd FLD_GL_STATUS.COUNT ≤ 64)) ∧
    (let s : State := up [(FLD_GL_CFG.SHARED, 0)]; let len : Fin 128 := 64; (LineFree s) ∧ (1 ≤ len.val) ∧ (len.val ≤ 64)) ∧
    (let s : State := up []; let len : Fin 128 := 65; (Taken 0 s) ∧ (s.dev.on FLD_GL_STATUS.BUSY = false) ∧
      (s.dev.on FLD_GL_CTRL.GO = false) ∧ (len.val = 0 ∨ 64 < len.val)) ∧
    (let s : State := up [(FLD_GL_CFG.SHARED, 0), (LSH_STATUS.STATE, 3)]; let len : Fin 128 := 32; (LineFree s) ∧
      (1 ≤ len.val) ∧ (len.val ≤ 32) ∧ (s.dev.holds = true)) ∧
    (let s : State := up []; let len : Fin 128 := 32; (Taken 0 s) ∧ (s.dev.on FLD_GL_STATUS.BUSY = false) ∧
      (s.dev.on FLD_GL_CTRL.GO = false) ∧ (1 ≤ len.val) ∧ (len.val ≤ 32) ∧ (s.dev.holds = false)) ∧
    (let s : State := upGl { op := 3 } [(FLD_GL_STATUS.PRESENT, 1)] id; let end_ : GlEnd := .status 0xA5#8;
      let g : Gl := { op := 3 }; (s.dev.fld.gl = some g) ∧ (g.who = .soft) ∧ (g.op = 0 ∨ g.op = 3) ∧ (g.wait = none) ∧
      (g.idle = false) ∧
      (end_ = .busLow ∨ end_ = .noPresence ∧ s.dev.on FLD_GL_STATUS.PRESENT = false ∨ s.dev.on FLD_GL_STATUS.PRESENT = true ∧ (end_ = .ok ∧ g.op = 0 ∨ g.op = 3 ∧ ∃ b, end_ = .status b)) ∧
      (s.dev.fld.glq = []) ∧ (s.dev.fld.held = none)) ∧
    (let s : State := upGl { op := 2, rd := 7 } [] id; let data : Bytes := [1, 2, 3, 4, 5]; let g : Gl := { op := 2, rd := 7 };
      let crc : BitVec 16 := BitVec.ofNat 16 (crc16 [1, 2, 3, 4, 5]); (s.dev.fld.gl = some g) ∧ (g.who = .soft) ∧ (g.op = 2) ∧
      (g.wait = none) ∧ (g.idle = false) ∧ (g.rd = data.length + 2) ∧ (data.length ≤ 64) ∧
      (crc16 (g.head ++ data) = crc.toNat) ∧ (s.dev.fld.glq = []) ∧ (s.dev.fld.held = none)) ∧
    (let s : State := upGl { op := 2, rd := 7, tries := 9 } [] id; let data : Bytes := [1, 2, 3, 4, 5];
      let g : Gl := { op := 2, rd := 7, tries := 9 }; let crc : BitVec 16 := 0; (s.dev.fld.gl = some g) ∧ (g.who = .soft) ∧
      (g.op = 2) ∧ (g.wait = none) ∧ (g.idle = false) ∧ (g.rd = data.length + 2) ∧ (crc16 (g.head ++ data) ≠ crc.toNat) ∧
      (s.dev.rd FLD_GL_CFG.RETRIES ≤ g.tries) ∧ (s.dev.fld.glq = []) ∧ (s.dev.fld.held = none)) ∧
    (let s : State := upGl { op := 1 } [(FLD_GL_CFG.RETRIES, 3)] id; let g : Gl := { op := 1 }; (s.dev.fld.gl = some g) ∧
      (g.wait = none) ∧ (g.idle = false) ∧ (s.dev.on FLD_GL_CFG.SHARED = true) ∧ (g.tries < s.dev.rd FLD_GL_CFG.RETRIES)) ∧
    (let s : State := upGl { op := 3, wait := some 0, tries := 2 } [(FLD_GL_CFG.SHARED, 0)] id;
      let g : Gl := { op := 3, wait := some 0, tries := 2 }; (s.dev.fld.gl = some g) ∧ (g.wait = some 0) ∧ (g.op ≠ 1) ∧
      (s.dev.glReady = true)) ∧
    (let s : State := upGl { op := 1, wait := some 0, tries := 2 } [(FLD_GL_CFG.SHARED, 0)] id;
      let g : Gl := { op := 1, wait := some 0, tries := 2 }; (s.dev.fld.gl = some g) ∧ (g.wait = some 0) ∧ (g.op = 1) ∧
      (g.from_ = none) ∧ (s.dev.glReady = true) ∧ (s.dev.rd FLD_GL_STATUS.COUNT ≤ 64)) ∧
    (let s : State := upGl { op := 1 } [(FLD_GL_STATUS.LAST_DISC, 127)] id;
      let subs : List (Bool × Bool) := (List.range 96).map fun k => if k = 0 then (false, false) else (bit (0xDC0000000000000000000000 + crc16 (beBytes 10 0xDC000000000000000000)) (95 - k), !bit (0xDC0000000000000000000000 + crc16 (beBytes 10 0xDC000000000000000000)) (95 - k));
      let g : Gl := { op := 1 }; let id_ : Nat := 0xDC0000000000000000000000 + crc16 (beBytes 10 0xDC000000000000000000);
      let disc : Nat := 0; (s.dev.fld.gl = some g) ∧ (g.op = 1) ∧ (g.wait = none) ∧ (g.idle = false) ∧ (subs.length = 96) ∧
      (s.dev.rd FLD_GL_STATUS.LAST_DISC = 127) ∧ (passRun (-1) s.dev.fld.prev subs 0 0 (-1) = .found id_ disc) ∧ (disc < 96) ∧
      (idOk id_ = true) ∧ (s.dev.rd FLD_GL_STATUS.COUNT = 0) ∧ (s.dev.fld.glq = [])) ∧
    (let s : State := up []; (s.dev.fld.gl = none) ∧ (s.dev.fld.held = none)) ∧
    (let s : State := upGl { op := 2 } [] id; let g : Gl := { op := 2 }; (s.dev.fld.gl = some g) ∧ (s.dev.fld.held = none) ∧
      (g.op ≠ 1) ∧ (g.wait = none) ∧ (g.idle = false)) ∧
    (let s : State := upd [(FLD_GL_CFG.AUTO, 1), (FLD_GL_CFG.SHARED, 0)] fun d => d.fldMod fun f => { f with autoIn := [0] };
      (s.dev.fld.autoIn.contains 0 = true) ∧ (s.dev.glReady = true) ∧ (s.dev.on FLD_GL_CFG.AUTO = true) ∧
      (s.dev.fld.gl = none) ∧ (s.dev.fld.glq = []) ∧ (s.dev.rd FLD_GL_STATUS.COUNT ≤ 64)) := by
  refine ⟨?_, ?_, ?_, ?_, ?_, ?_, ?_, ?_, ?_, ?_, ?_, ?_, ?_, ?_, ?_, ?_, ?_, ?_⟩ <;> decide

/-- States and operands that meet the hypotheses of `Obligations.SagTest`. -/
theorem test_meets_SagTest :
    (let s : State := up []; (Taken 0 s) ∧ (s.dev.on FLD_CELL_CTRL.SAG_START = false) ∧ (s.dev.sagSt = 0) ∧
      (s.dev.sagReady = false)) ∧
    (let s : State := upd [(LSH_STATUS.STATE, 3), (FLD_CELL_STATUS.REC_OK, 1), (FLD_CELL_STATUS.SAG_STATE, 0), (MON_CELL_V.VALUE, 65535), (RAT_STATUS.TIER, 0)] fun d => d.sagMod (id);
      (Taken 0 s) ∧ (s.dev.on FLD_CELL_CTRL.SAG_START = false) ∧ (s.dev.sagSt = 0) ∧ (s.dev.sagReady = true)) ∧
    (let s : State := upd [(LSH_STATUS.STATE, 3), (FLD_CELL_STATUS.REC_OK, 1), (FLD_CELL_STATUS.SAG_STATE, 0), (MON_CELL_V.VALUE, 65535), (FLD_CELL_CTRL.AUTO_SAG, 1), (FLD_SAG_CFG.PERIOD_H, 0), (FLD_SAG_WIN.START_MIN, 0), (FLD_SAG_WIN.LEN_MIN, 60)] fun d => d.sagMod (id);
      (s.dev.sagSt = 0) ∧ (s.dev.sagDue = true) ∧ (s.dev.sagReady = true)) ∧
    (let s : State := upd [(LSH_STATUS.STATE, 3), (FLD_CELL_STATUS.REC_OK, 1), (FLD_CELL_STATUS.SAG_STATE, 1)] fun d => d.sagMod (fun x => { x with fr := 8000, hist := [(10, 2), (6, 1)] });
      (s.dev.sagSt = 1) ∧ (8000 ≤ s.dev.fld.sag.fr)) ∧
    (let s : State := upd [(LSH_STATUS.STATE, 3), (FLD_CELL_STATUS.REC_OK, 1), (FLD_CELL_STATUS.SAG_STATE, 2)] fun d => d.sagMod (fun x => { x with fr := 16000, hist := [(10, 2), (6, 1)], va := (9, 1) });
      (s.dev.sagSt = 2) ∧ (16000 ≤ s.dev.fld.sag.fr)) ∧
    (let s : State := upd [(LSH_STATUS.STATE, 3), (FLD_CELL_STATUS.REC_OK, 1), (FLD_CELL_STATUS.SAG_STATE, 3), (FLD_SAG_V0.VALUE, 5000000), (FLD_SAG_VA.VALUE, 4900000), (FLD_SAG_VB.VALUE, 4000000), (FLD_SAG_CFG.LOAD_MOHM, 2000)] fun d => d.sagMod (fun x => { x with fr := 8, v0 := 5000000, va := (9800000, 2), vb := 4000000 });
      let v0 : Nat := 5000000; let va : Nat := 4900000; let vb : Nat := 4000000; let r : Nat := 2000; (s.dev.sagSt = 3) ∧
      (8 ≤ s.dev.fld.sag.fr) ∧ (v0 = s.dev.fld.sag.v0) ∧ (va = meanOf s.dev.fld.sag.va) ∧ (vb = s.dev.fld.sag.vb) ∧
      (r = s.dev.rd FLD_SAG_CFG.LOAD_MOHM) ∧ (vb < va) ∧ (va < v0) ∧ (va / r ≠ 0) ∧ (s.dev.holds = true) ∧
      (s.dev.fld.gl = none) ∧ (s.dev.fld.glq = [])) ∧
    (let s : State := upd [(LSH_STATUS.STATE, 3), (FLD_CELL_STATUS.REC_OK, 1), (FLD_CELL_STATUS.SAG_STATE, 3), (FLD_SAG_V0.VALUE, 5), (FLD_SAG_VA.VALUE, 5)] fun d => d.sagMod (fun x => { x with fr := 8 });
      (s.dev.sagSt = 3) ∧ (8 ≤ s.dev.fld.sag.fr) ∧
      (s.dev.fld.sag.v0 ≤ meanOf s.dev.fld.sag.va ∨ meanOf s.dev.fld.sag.va ≤ s.dev.fld.sag.vb ∨ meanOf s.dev.fld.sag.va / s.dev.rd FLD_SAG_CFG.LOAD_MOHM = 0)) ∧
    (let s : State := upd [(LSH_STATUS.STATE, 3), (FLD_CELL_STATUS.REC_OK, 1), (FLD_CELL_STATUS.SAG_STATE, 4)] fun d => d.sagMod (id);
      (s.dev.sagSt = 4) ∧ (s.dev.holds = false ∨ s.dev.fld.gl = none ∧ s.dev.fld.glq = [])) ∧
    (let s : State := upd [(LSH_STATUS.STATE, 3), (FLD_CELL_STATUS.REC_OK, 1), (FLD_CELL_STATUS.SAG_STATE, 2)] fun d => d.sagMod (id);
      (Taken 0 s) ∧ (1 ≤ s.dev.sagSt) ∧ (s.dev.sagSt ≤ 3)) ∧
    (let s : State := upd [(LSH_STATUS.STATE, 3), (FLD_GL_CFG.SHARED, 0), (FLD_CELL_STATUS.REC_OK, 1), (FLD_CELL_STATUS.SAG_STATE, 2)] fun d => d.sagMod (fun x => { x with chk := 513 });
      (1 ≤ s.dev.sagSt) ∧ (s.dev.sagSt ≤ 3) ∧ (512 ≤ s.dev.fld.sag.chk) ∧ (s.dev.fld.gl = none) ∧ (s.dev.fld.glq = []) ∧
      (s.dev.glReady = true)) ∧
    (let s : State := up [(FLD_CELL_STATUS.EOL, 1), (FLD_CELL_STATUS.EOL_CYC, 1)]; (Taken 0 s)) := by
  refine ⟨?_, ?_, ?_, ?_, ?_, ?_, ?_, ?_, ?_, ?_, ?_⟩ <;> decide

/-- States and operands that meet the hypotheses of `Obligations.AlarmsAndSmbus`. -/
theorem test_meets_AlarmsAndSmbus :
    (let s : State := upd [(FLD_GPI_STORM_CFG.REMIND_S, 1)] fun d => (d.hearthMod fun h => h.all fun c => { c with t := 8000 * 1048576 }).fldMod fun f => { f with gpis := f.gpis.set 15 { deb := true, act := some 0 } };
      let k : Fin 16 := 15; let a : Nat := 0; ((s.dev.fld.gpis.getD k {}).act = some a) ∧
      (s.dev.rd FLD_GPI_STORM_CFG.REMIND_S ≠ 0) ∧ ((s.dev.fld.gpis.getD k {}).deb = true) ∧
      ((s.dev.fld.gpis.getD k {}).storm = false) ∧ (a < s.dev.frameExt) ∧
      ((s.dev.frameExt - a) % (s.dev.rd FLD_GPI_STORM_CFG.REMIND_S * 8000) = 0) ∧ (s.dev.rd LLB_STATUS.EV_RUN ≠ 2)) ∧
    (let s : State := upd [(FLD_GPI_LATCH.LATCH, 0x8001)] fun d => d.fldMod fun f => { f with gpis := f.gpis.set 15 { deb := true, act := some 0 } };
      (Taken 0 s)) ∧
    (let s : State := up [(LSH_STATUS.STATE, 3)]; (Taken 0 s)) ∧
    (let s : State := up []; let a : Nat := 0x8FFFC; (SmbOn s) ∧ (a < 0x90000)) ∧
    (let s : State := up []; let a : Nat := 0x90000; (SmbOn s) ∧ (0x90000 ≤ a)) ∧
    (let s : State := upd [] fun d => d.fldMod fun f => { f with smbReg := 0x20 }; (SmbOn s) ∧
      (s.dev.smbShut s.dev.fld.smbReg = false) ∧ (s.dev.fld.smbReg % 4 = 0) ∧ (s.dev.fld.smbReg ≠ RAT_RET_DATA.addr) ∧
      (s.dev.fld.smbReg < 0x20000 ∨ 0x30000 ≤ s.dev.fld.smbReg)) ∧
    (let s : State := upd [] fun d => d.fldMod fun f => { f with smbReg := 0x90000 }; (SmbOn s) ∧
      (s.dev.smbShut s.dev.fld.smbReg = true)) ∧
    (let s : State := upd [] fun d => d.fldMod fun f => { f with smbReg := 0x20 }; (SmbOn s) ∧ (s.dev.fld.smbReg = 0x20) ∧
      (s.dev.smbShut 0x20 = false)) ∧
    (let s : State := up []; (SmbOn s)) ∧
    (let s : State := upd [] fun d => d.fldMod fun f => { f with smbReg := GLB_SCRATCH.addr }; let v : Word := 0x81#32;
      (SmbOn s) ∧ (s.dev.fld.smbReg / 0x4000 = 0) ∧ (s.dev.smbShut s.dev.fld.smbReg = false) ∧ (s.dev.fld.smbReg % 4 = 0) ∧
      (s.dev.pd 0 = true) ∧ (regBad s.dev.fld.smbReg v.toNat s.dev = false)) ∧
    (let s : State := upd [] fun d => d.fldMod fun f => { f with smbReg := FLD_GPO.addr }; (SmbOn s) ∧
      (s.dev.smbShut s.dev.fld.smbReg = false) ∧ (smbWritable s.dev.fld.smbReg = true)) ∧
    (let s : State := upd [] fun d => d.fldMod fun f => { f with smbReg := 0x18000 }; (SmbOn s) ∧
      (s.dev.smbShut s.dev.fld.smbReg = true ∨ smbWritable s.dev.fld.smbReg = false)) ∧
    (let s : State := upd [] fun d => d.fldMod fun f => { f with smbReg := FLD_GPO.addr }; let v : Word := 0x81#32; (SmbOn s) ∧
      (s.dev.fld.smbReg = FLD_GPO.addr) ∧ (v.toNat < 256) ∧ (s.dev.smbShut FLD_GPO.addr = false)) ∧
    (let s : State := up [(LSH_STATUS.STATE, 4)]; (SmbOn s)) ∧
    (let s : State := up []; let key : Byte := 0xA4#8; (SmbOn s) ∧ (key ≠ 0xA5#8)) ∧
    (let s : State := up []; (SmbOn s) ∧ (s.dev.boot.kind = none)) ∧
    (let s : State := up []; (SmbOn s) ∧ (s.dev.boot.kind = none) ∧ (s.dev.booted = true)) ∧
    (let s : State := upd [(RAT_STATUS.TIER, 5), (RAT_BIV_CFG.WAKE_SMB, 1), (RAT_DOM_STATUS.PD_ON, 1), (RAT_DOM_STATUS.PMEM_SR, 1)] id;
      (SmbOn s) ∧ (s.dev.booted = true) ∧ (4 ≤ s.dev.tier) ∧ (s.dev.rat.wakeFr = none) ∧ (s.dev.capsHold = false) ∧
      (s.dev.on RAT_BIV_CFG.WAKE_SMB = true) ∧ (s.dev.rat.shadow = none) ∧ (s.dev.on RAT_DOM_STATUS.PMEM_SR = true)) ∧
    (let s : State := up []; (s.dev.boot.porLow = false)) := by
  refine ⟨?_, ?_, ?_, ?_, ?_, ?_, ?_, ?_, ?_, ?_, ?_, ?_, ?_, ?_, ?_, ?_, ?_, ?_, ?_⟩ <;> decide

/-- States and operands that meet the hypotheses of `Obligations.ModulesFlashAndTap`. -/
theorem test_meets_ModulesFlashAndTap :
    (let s : State := upd [] fun d => { d with chan := d.chan.modify 2 fun c => { c with modOk := true } };
      let port : Fin 2 := 1; let v : Word := 0x0009A000#32; (Taken 0 s) ∧ (s.dev.on (FLD_MI2Cm_CMD.GO port) = false) ∧
      (bit v.toNat 3 = false) ∧ (regBad (FLD_MI2Cm_CMD.addr port) (v.toNat ||| 1) s.dev = false) ∧
      ((s.dev.chan.getD (2 * port.val + bits v.toNat 1 1) {}).modOk = true)) ∧
    (let s : State := up []; let port : Fin 2 := 0; let v : Word := 0x0009A002#32; (Taken 0 s) ∧
      (s.dev.on (FLD_MI2Cm_CMD.GO port) = false) ∧ (bit v.toNat 3 = false) ∧
      (regBad (FLD_MI2Cm_CMD.addr port) (v.toNat ||| 1) s.dev = false) ∧
      ((s.dev.chan.getD (2 * port.val + bits v.toNat 1 1) {}).modOk = false)) ∧
    (let s : State := upd [] fun d => { d with chan := d.chan.modify 2 fun c => { c with modOk := true } };
      let port : Fin 2 := 1; let v : Word := 0x0008A008#32; (Taken 0 s) ∧ (s.dev.on (FLD_MI2Cm_CMD.GO port) = false) ∧
      (bit v.toNat 3 = true) ∧ (regBad (FLD_MI2Cm_CMD.addr port) (v.toNat ||| 1) s.dev = false) ∧
      ((s.dev.chan.getD (2 * port.val + bits v.toNat 1 1) {}).modOk = true)) ∧
    (let s : State := up []; let v : Word := 0x00900300#32; (Taken 0 s) ∧ (s.dev.on FLD_QSPI_CMD.GO = false) ∧
      (regBad FLD_QSPI_CMD.addr (v.toNat ||| 1) s.dev = false) ∧ (bits v.toNat 1 2 ≠ 1 ∨ s.dev.qspiLocked = false)) ∧
    (let s : State := up []; let v : Word := 0x00900300#32; (Taken 0 s) ∧ (s.dev.on FLD_QSPI_CMD.GO = false) ∧
      (bit v.toNat 3 = false) ∧ (regBad FLD_QSPI_CMD.addr (v.toNat ||| 1) s.dev = false) ∧ (bits v.toNat 1 2 = 0)) ∧
    (let s : State := up [(FLD_QSPI_CFG.CAL_LOCK, 1), (FLD_QSPI_ADDR.ADDR, 0x1FFF)]; let v : Word := 0x00900202#32;
      (Taken 0 s) ∧ (s.dev.on FLD_QSPI_CMD.GO = false) ∧ (bit v.toNat 3 = false) ∧
      (regBad FLD_QSPI_CMD.addr (v.toNat ||| 1) s.dev = false) ∧ (bits v.toNat 1 2 = 1) ∧ (s.dev.qspiLocked = true)) ∧
    (let s : State := up [(FLD_MI2Cm_CMD.GO 1, 1), (FLD_MI2Cm_CMD.LEN 1, 9)]; let port : Fin 2 := 1;
      let data : Bytes := List.replicate 9 7; (s.dev.on (FLD_MI2Cm_CMD.GO port) = true) ∧
      (s.dev.on (FLD_MI2Cm_CMD.DIR port) = false) ∧ (data.length = s.dev.rd (FLD_MI2Cm_CMD.LEN port)) ∧ (data.length ≤ 128)) ∧
    (let s : State := up [(FLD_MI2Cm_CMD.GO 1, 1), (FLD_MI2Cm_CMD.LEN 1, 9)]; let port : Fin 2 := 1;
      (s.dev.on (FLD_MI2Cm_CMD.GO port) = true)) ∧
    (let s : State := up [(FLD_MI2Cm_CMD.GO 1, 1), (FLD_MI2Cm_CMD.LEN 1, 9)]; let port : Fin 2 := 1;
      let end_ : I2cEnd := .stuck; (s.dev.on (FLD_MI2Cm_CMD.GO port) = true) ∧
      ((I2cRes end_ = 1 → s.dev.on (FLD_MI2Cm_CMD.DIR port) = true))) ∧
    (let s : State := up [(FLD_QSPI_CMD.GO, 1), (FLD_QSPI_CMD.DIR, 1), (FLD_QSPI_CMD.LEN, 9)];
      (s.dev.on FLD_QSPI_CMD.GO = true) ∧ (s.dev.on FLD_QSPI_CMD.DIR = true)) ∧
    (let s : State := up [(FLD_QSPI_CMD.GO, 1), (FLD_QSPI_CMD.LEN, 9)]; let data : Bytes := List.replicate 9 7;
      (s.dev.on FLD_QSPI_CMD.GO = true) ∧ (s.dev.on FLD_QSPI_CMD.DIR = false) ∧ (data.length = s.dev.rd FLD_QSPI_CMD.LEN) ∧
      (data.length ≤ 256)) := by
  refine ⟨?_, ?_, ?_, ?_, ?_, ?_, ?_, ?_, ?_, ?_, ?_⟩ <;> decide

/-- States and operands that meet the hypotheses of `Obligations.Fences`. -/
theorem test_meets_Fences :
    (let s : State := upCh 2 [] fun c => { c with queues := c.queues.set 7 [{ tc := 7, data := [1#8] }] }; let n : Fin 4 := 2;
      (Taken 1 s) ∧ (s.dev.causes n = 0) ∧ (s.dev.chan.length = 4)) ∧
    (let s : State := upCh 2 [(SHD_FENCE_STAT.CH, 0x10000)] id; let n : Fin 4 := 2; (Taken 1 s) ∧ (s.dev.causes n ≠ 0) ∧
      (s.dev.chan.length = 4)) ∧
    (let s : State := upCh 2 [(SHD_FENCE_STAT.CH, 0x810000), (CLS_DEFAULTs.ACTION0 2, 0xD)] fun c => { c with fencing := true };
      let n : Fin 4 := 2; ((s.dev.ch n).fencing = true) ∧ ((s.dev.ch n).cur = none) ∧ ((s.dev.ch n).pre = none) ∧
      ((s.dev.ch n).queues = List.replicate 8 []) ∧ ((s.dev.ch n).expq = []) ∧ (s.dev.host.fns.length = 16) ∧
      (s.dev.chan.length = 4)) ∧
    (let s : State := up []; (Taken 1 s)) ∧
    (let s : State := upd [(SHD_FENCE_STAT.CH, 0xC0000), (CLK_STATUS.LANE_LOCK, 4), (SHD_LB_RESULT.RESULT, 0x100), (CHn_STATUS.FENCED 2, 1)] fun d => d.shdMod fun x => { x with lift := [true, true, true, true], armed := [true, true, true, true] };
      let n : Fin 4 := 2; (s.dev.shd.armed.getD n false = true) ∧ (s.dev.causes n % 64 ≠ 0) ∧
      (bit (s.dev.causes n) 6 = false) ∧ ((bit (s.dev.causes n) 2 = true → s.dev.bitOf CLK_STATUS.LANE_LOCK n = true)) ∧
      ((bit (s.dev.causes n) 3 = true → s.dev.lbResult n = 1)) ∧ ((s.dev.ch n).fencing = false) ∧ (s.dev.chan.length = 4)) ∧
    (let s : State := upd [(SHD_FENCE_STAT.CH, 0x40000)] fun d => d.shdMod fun x => { x with lift := [true, true, true, true], armed := [true, true, true, true] };
      let n : Fin 4 := 2; (s.dev.shd.armed.getD n false = true) ∧
      (bit (s.dev.causes n) 2 = true ∧ s.dev.bitOf CLK_STATUS.LANE_LOCK n = false ∨ bit (s.dev.causes n) 3 = true ∧ s.dev.lbResult n ≠ 1)) ∧
    (let s : State := upd [(SHD_FENCE_STAT.CH, 0x400000)] fun d => d.shdMod fun x => { x with armed := [true, true, true, true] };
      let n : Fin 4 := 2; (s.dev.shd.armed.getD n false = true) ∧ (s.dev.causes n = 64)) ∧
    (let s : State := upCh 2 [(CLK_STATUS.LANE_LOCK, 15)] id; let n : Fin 4 := 2;
      (s.dev.bitOf RAT_DOM_STATUS.LANE_ON n = true) ∧ (s.dev.bitOf CLK_STATUS.LANE_LOCK n = true) ∧ (s.dev.chan.length = 4)) ∧
    (let s : State := upCh 2 [] fun c => { c with unlockT := some 8 }; let n : Fin 4 := 2;
      (s.dev.bitOf RAT_DOM_STATUS.LANE_ON n = true) ∧ (s.dev.chan.length = 4)) ∧
    (let s : State := upd [(HRT_STATUS.VALID, 1)] fun d => (d.hearthMod fun h => h.all fun c => { c with t := 9 * 1048576 }).chMod 2 fun c => { c with unlockT := some 1048576 };
      let n : Fin 4 := 2; let m : Mote := 9; let t : Nat := 1048576; (s.dev.bitOf RAT_DOM_STATUS.LANE_ON n = true) ∧
      ((s.dev.ch n).unlockT = some t) ∧ (t + 8 * frMt ≤ (atMote m s.dev).nowExt) ∧ (s.dev.chan.length = 4)) ∧
    (let s : State := upCh 2 [] id; let n : Fin 4 := 2; (s.dev.on (CHn_STATUS.REMOTE_FAULT n) = false) ∧
      (s.dev.pcsRuns n = true)) ∧
    (let s : State := upPeg 3 [(PEG_STATUS.LANE_B_UP, 1)] id; (s.dev.peg.ports.length = 2)) ∧
    (let s : State := upPeg 3 [(PEG_STATUS.LANE_A_UP, 1)] id; (s.dev.peg.ports.length = 2)) ∧
    (let s : State := up [(RAT_DOM_STATUS.PEG_LANES_ON, 1)]; (s.dev.on RAT_DOM_STATUS.PEG_LANES_ON = true)) := by
  refine ⟨?_, ?_, ?_, ?_, ?_, ?_, ?_, ?_, ?_, ?_, ?_, ?_, ?_, ?_⟩ <;> decide

/-- States and operands that meet the hypotheses of `Obligations.HealthAndTests`. -/
theorem test_meets_HealthAndTests :
    (let s : State := upd [(SHD_PENj.PEN 2, 0xFF0000FF), (SHD_PENj.PEN 4, 0x01200000)] id; (s.dev.pd 1 = true) ∧
      (s.dev.sfNow (s.dev.rd SHD_CFG.DECAY_SF) = true) ∧ (s.dev.shd.decayed ≠ some s.dev.sfIx)) ∧
    (let s : State := upd [(SHD_CTRL.LB_EN, 1), (SHD_CFG.LB_SF, 1)] fun d => (d.hearthMod fun h => h.all fun c => { c with t := 1024 * 1048576 }).shdMod fun x => { x with turn := 1 };
      let n : Fin 4 := 2; (s.dev.pd 1 = true) ∧ (s.dev.on SHD_CTRL.LB_EN = true) ∧
      (s.dev.sfNow (s.dev.rd SHD_CFG.LB_SF) = true) ∧ (s.dev.shd.tested ≠ some s.dev.sfIx) ∧
      (s.dev.on SHD_STATUS.TEST_BUSY = false) ∧ (s.dev.testable n = true) ∧ ((s.dev.shd.turn + 1) % 4 = n.val)) ∧
    (let s : State := upd [(SHD_CTRL.LB_EN, 1), (SHD_STATUS.TEST_BUSY, 1), (SHD_STATUS.TEST_LANE, 2)] fun d => (d.hearthMod fun h => h.all fun c => { c with t := 1024 * 1048576 }).shdMod fun x => { x with turn := 1 };
      let n : Fin 4 := 2; (s.dev.on SHD_STATUS.TEST_BUSY = true) ∧ (s.dev.rd SHD_STATUS.TEST_LANE = n) ∧
      (s.dev.shd.testFr < s.dev.frameExt) ∧ (s.dev.on (CHn_CTRL.EN n) = false)) ∧
    (let s : State := upd [(SHD_CTRL.LB_EN, 1), (SHD_STATUS.TEST_BUSY, 1), (SHD_STATUS.TEST_LANE, 2)] fun d => (d.hearthMod fun h => h.all fun c => { c with t := 1024 * 1048576 }).shdMod fun x => { x with turn := 1 };
      let n : Fin 4 := 2; let res : Fin 4 := 2; (s.dev.on SHD_STATUS.TEST_BUSY = true) ∧ (s.dev.rd SHD_STATUS.TEST_LANE = n) ∧
      (s.dev.shd.testFr < s.dev.frameExt) ∧ (s.dev.chRun n = 0) ∧ (s.dev.on (CHn_CTRL.EN n) = false) ∧ (res ≠ 1)) ∧
    (let s : State := upd [(⟨0x22FFFC, 0, 32⟩, 0x101)] id; let off : Nat := 0x22FFFC; let ix : Fin 4096 := 4095;
      (s.dev.pd 1 = true) ∧ (0x210000 + 32 * ix.val ≤ off) ∧ (off < 0x210000 + 32 * ix.val + 32)) ∧
    (let s : State := upGate [] { st := 2, oper := some 1 }; let off : Nat := 0x20A008; let n : Fin 4 := 2; let b : Fin 2 := 1;
      (s.dev.pd 1 = true) ∧ (0x200000 + 0x4000 * n.val + 0x2000 * b.val ≤ off) ∧
      (off < 0x200000 + 0x4000 * n.val + 0x2000 * b.val + 0x2000) ∧ ((s.dev.gate n).oper = some b.val) ∧
      (s.dev.chan.length = 4)) ∧
    (let s : State := upPeg 3 [] id; let off : Nat := 0x2C0054; let b : Fin 2 := 0; let sl : Fin 64 := 5; (s.dev.pd 1 = true) ∧
      (s.dev.peg.oper = some b.val) ∧ (0x2C0000 + 0x400 * b.val + 16 * sl.val ≤ off) ∧
      (off < 0x2C0000 + 0x400 * b.val + 16 * sl.val + 16)) ∧
    (let s : State := upLlb 9 [] id; let off : Nat := 0x2E0480; let c : Fin 16 := 9; (s.dev.pd 1 = true) ∧
      (0x2E0000 + 128 * c.val ≤ off) ∧ (off < 0x2E0000 + 128 * c.val + 128) ∧ (s.dev.llbRun c ≠ 0)) ∧
    (let s : State := up [(RAT_DOM_STATUS.PD_ON, 1)]; (s.dev.pd 1 = false)) ∧
    (let s : State := upd [(SHD_STATUS.SCORE, 119)] id; (Taken 1 s) ∧ (s.dev.shd.minScore < 256) ∧ (s.dev.shd.lowSf < 2 ^ 24) ∧
      (s.dev.shd.errs < 2 ^ 16)) := by
  refine ⟨?_, ?_, ?_, ?_, ?_, ?_, ?_, ?_, ?_, ?_⟩ <;> decide

/-- States and operands that meet the hypotheses of `Obligations.RegisterAccesses`. -/
theorem test_meets_RegisterAccesses :
    (let s : State := up []; (s.dev.booted = true) ∧ (s.dev.pd 0 = true)) ∧
    (let s : State := up []; let off : Nat := GLB_SCRATCH.addr; let v : Word := 3#32; (Accepted s off v) ∧
      (s.dev.pd (domOf off) = true) ∧ ([0, 12, 14].contains (off / 0x4000) = true)) ∧
    (let s : State := up []; let off : Nat := SHD_CTRL.addr; let v : Word := 3#32; (Accepted s off v) ∧
      (s.dev.pd (domOf off) = true) ∧ (ownStore off = false)) ∧
    (let s : State := up [(RAT_DOM_STATUS.PD_ON, 1)]; let off : Nat := SHD_CTRL.addr; let v : Word := 3#32;
      (Accepted s off v) ∧ (s.dev.pd (domOf off) = false) ∧ (v.toNat &&& actionMask off = 0) ∧ (off < 0x18040 ∨ 0x18080 ≤ off)) ∧
    (let s : State := up [(RAT_DOM_STATUS.PD_ON, 1)]; let off : Nat := SHD_FENCE_CTRL.addr; let v : Word := 1#32;
      (Accepted s off v) ∧ (s.dev.pd (domOf off) = false) ∧ (v.toNat &&& actionMask off ≠ 0) ∧ (off < 0x18040 ∨ 0x18080 ≤ off)) ∧
    (let s : State := up []; let narrow : Bool := false; let off : Nat := 0x1C000; let v : Word := 0#32;
      (s.dev.booted = true) ∧ (off < 0x200000) ∧
      (narrow = true ∨ off % 4 ≠ 0 ∨ rowAt off = none ∨ regBad off v.toNat s.dev = true ∧ (off < 0x14100 ∨ 0x14200 ≤ off) ∧
      (off ≠ HRT_ADJ_CTRL.addr ∨ v.toNat % 2 = 0 ∨ s.dev.src < 2))) ∧
    (let s : State := upd [] fun d => { d with hearth := { d.hearth with srcStands := 2 } }; let v : Word := 1#32;
      (s.dev.booted = true) ∧ (2 ≤ s.dev.src) ∧ (v.toNat % 2 = 1) ∧ (regBad HRT_ADJ_CTRL.addr v.toNat s.dev = true)) ∧
    (let s : State := up []; let off : Nat := 0x14100; let v : Word := 0xFFFFFFFF#32; (s.dev.booted = true) ∧ (0x14100 ≤ off) ∧
      (off < 0x14200) ∧ (regBad off v.toNat s.dev = true)) ∧
    (let s : State := up []; let off : Nat := 0x3FFFFC; (s.dev.booted = true) ∧ (0x200000 ≤ off) ∧ (off < 2 ^ 22) ∧
      (winOf off = .gap)) ∧
    (let s : State := upGate [] { st := 2, oper := some 0 }; let off : Nat := 0x20A008; let n : Nat := 2; let b : Nat := 1;
      (s.dev.booted = true) ∧ (s.dev.pd 1 = true) ∧ (winOf off = .gate n b) ∧ (s.dev.bankBusy n b = false) ∧ (0x200000 ≤ off) ∧
      (off % 4 = 0)) ∧
    (let s : State := up []; (s.dev.booted = true)) ∧
    (let s : State := upDma [(HIF_VF_STATE.PF0, 1), (⟨HIF_VF_STATE.PF0.off, 0, 32⟩, 0x55555555)] [] fun d => { d with host := { d.host with fns := d.host.fns.map fun g => { g with mse := true } } };
      let f : Fin 16 := 15; let off : Nat := 0x4004; (s.dev.booted = true) ∧ (s.dev.aperture f = true) ∧ (off < 2 ^ 22)) ∧
    (let s : State := up [(RST_BOOT_STATUS.STATE, 5)]; (s.dev.booted = false)) ∧
    (let s : State := up [(GLB_BADWR.COUNT, 7)]; (s.dev.booted = true) ∧ (s.dev.pd 0 = true)) ∧
    (let s : State := up []; let narrow : Bool := true; let off : Nat := HRT_RATE.addr; (s.dev.booted = true) ∧
      (narrow = true ∨ off % 4 ≠ 0)) ∧
    (let s : State := up []; let off : Nat := 0x100000; (s.dev.booted = true) ∧ (off < 0x200000) ∧ (off % 4 = 0) ∧
      (rowAt off = none)) ∧
    (let s : State := up [(⟨0x238000, 0, 32⟩, 9)]; let off : Nat := 0x238000; (s.dev.booted = true) ∧ (0x200000 ≤ off) ∧
      (off % 4 = 0) ∧ (s.dev.pd 1 = true) ∧ (winOf off = .count)) ∧
    (let s : State := up [(RST_BOOT_STATUS.STATE, 5)]; (s.dev.booted = false)) := by
  refine ⟨?_, ?_, ?_, ?_, ?_, ?_, ?_, ?_, ?_, ?_, ?_, ?_, ?_, ?_, ?_, ?_, ?_, ?_⟩ <;> decide

/-- States and operands that meet the hypotheses of `Obligations.RateWriteUnderAnotherSource`. -/
theorem test_meets_RateWriteUnderAnotherSource :
    (let s : State := upd [] fun d => { d with hearth := { d.hearth with srcStands := 2 } }; let src : BusSrc := .pcie;
      (2 ≤ s.dev.src) ∧ (Reaches src s)) ∧
    (let s : State := upd [] fun d => { d with hearth := { d.hearth with srcStands := 2 } }; (2 ≤ s.dev.src) ∧ (Taken 0 s)) ∧
    (let s : State := upd [] fun d => { d with hearth := { d.hearth with srcStands := 2 } }; let src : BusSrc := .pcie;
      let ppm : Fin 512 := 500; (2 ≤ s.dev.src) ∧ (Reaches src s) ∧ (1 ≤ ppm.val) ∧ (ppm.val ≤ 500)) ∧
    (let s : State := upd [] fun d => { d with hearth := { d.hearth with srcStands := 2 } }; let src : BusSrc := .smbus;
      let ppm : Fin 512 := 501; (2 ≤ s.dev.src) ∧ (Reaches src s) ∧ ((ppm.val < 1 ∨ 500 < ppm.val))) ∧
    (let s : State := upd [] fun d => { d with hearth := { d.hearth with srcStands := 2 } }; let v : Word := 5#32;
      (2 ≤ s.dev.src) ∧ (Taken 0 s) ∧ (v.toNat % 2 = 1) ∧ (regBad HRT_ADJ_CTRL.addr v.toNat s.dev = false)) := by
  refine ⟨?_, ?_, ?_, ?_, ?_⟩ <;> decide

/-- States and operands that meet the hypotheses of `Obligations.SnapshotAndPairedReads`. -/
theorem test_meets_SnapshotAndPairedReads :
    (let s : State := up []; (Taken 0 s)) ∧
    (let s : State := up []; (s.dev.booted = true)) ∧
    (let s : State := up []; (s.dev.booted = true)) ∧
    (let s : State := up []; (s.dev.booted = true)) ∧
    (let s : State := up []; (s.dev.booted = true)) ∧
    (let s : State := up []; let off : Nat := HRT_NOW_LO.addr; let hi : Nat := HRT_NOW_HI.addr; (s.dev.booted = true) ∧
      (s.dev.pd (domOf off) = true) ∧ (pairHigh off = some hi)) ∧
    (let s : State := up []; let off : Nat := HRT_NOW_HI.addr; (s.dev.booted = true) ∧ (isPairHigh off = true)) := by
  refine ⟨?_, ?_, ?_, ?_, ?_, ?_, ?_⟩ <;> decide

/-- States and operands that meet the hypotheses of `Obligations.FunctionIsolation`. -/
theorem test_meets_FunctionIsolation :
    (let s : State := upDma [(⟨HIF_VF_STATE.PF0.off, 0, 32⟩, 0x55555555)] [] fun d => { d with host := { d.host with fns := d.host.fns.map fun g => { g with mse := true } } }; let f : Fin 16 := 15; (f ≠ 0) ∧ (s.dev.booted = true)) := by
  decide

end Sys2Proof.Tests
end

section
/-!
PROOFS. Writes of HRT_RATE and of GO while another source is in force (R46), snapshots and the register pairs (R52, R53).
-/

namespace Sys2Proof.Machine

/-! ### Commands and lists of writes -/

/-- What a command does may be told of its device in other words. -/
theorem Does.imp {c : Instr} {s : State} {ws : List (Field × Nat)} {P Q : Dev → Prop} (h : Does c s ws P)
    (hPQ : ∀ e, P e → Q e) : Does c s ws Q := by
  obtain ⟨e, hx, hw, hp⟩ := h
  exact ⟨e, hx, hw, hPQ e hp⟩

/-- The order of a list of writes, and an entry listed twice, do not matter. -/
theorem Wrote.of_mem_iff {d e : Dev} {xs ys : List (Field × Nat)} (h : Wrote d e xs) (hm : ∀ x, x ∈ xs ↔ x ∈ ys) :
    Wrote d e ys := by
  obtain ⟨hram, hset, hrest⟩ := h
  exact ⟨hram, fun x hx => hset x ((hm x).mpr hx), fun g hg => hrest g fun x hx => hg x ((hm x).mp hx)⟩

/-- One write list after another, over fields that a computation tells apart. -/
theorem Wrote.append_apart {d e g : Dev} {xs ys : List (Field × Nat)} (h1 : Wrote d e xs) (h2 : Wrote e g ys)
    (hd : (xs.all fun x => ys.all fun y => Field.apart y.1 x.1) = true) : Wrote d g (xs ++ ys) :=
  h1.append h2 (by simpa only [List.all_eq_true] using hd)

/-- One write list after another, whose fields are other ones or take the same values again. -/
theorem Wrote.chain {d e g : Dev} {xs ys : List (Field × Nat)} (h1 : Wrote d e xs) (h2 : Wrote e g ys)
    (hxy : ∀ x ∈ xs, x ∈ ys ∨ ∀ y ∈ ys, Field.apart y.1 x.1 = true) : Wrote d g (xs ++ ys) := by
  obtain ⟨hram1, hset1, hrest1⟩ := h1
  obtain ⟨hram2, hset2, hrest2⟩ := h2
  refine ⟨hram2.trans hram1, fun x hx => ?_, fun f hf => ?_⟩
  · rcases List.mem_append.mp hx with hx | hx
    · rcases hxy x hx with hy | hy
      · exact hset2 x hy
      · rw [hrest2 x.1 hy, hset1 x hx]
    · exact hset2 x hx
  · rw [hrest2 f fun y hy => hf y (List.mem_append_right _ hy), hrest1 f fun y hy => hf y (List.mem_append_left _ hy)]

/-- A field that takes a value of its width. -/
theorem wrote_wr_of_lt (d : Dev) (f : Field) (v : Nat) (h : f.lo + f.w ≤ 32) (hv : v < 2 ^ f.w) :
    Wrote d (d.wr f v) [(f, v)] := by
  simpa only [Nat.mod_eq_of_lt hv] using wrote_wr d f v h

/-- A register of one field of 32 bits reads as its word. -/
theorem rd_whole (d : Dev) (o : Nat) : d.rd ⟨o, 0, 32⟩ = d.word o := by
  simpa [Dev.rd, bits] using Nat.mod_eq_of_lt (word_lt d o)

/-! ### HRT_RATE under PEGLINE or PPS (R46) -/

/-- Whatever the value, a write of HRT_RATE conflicts. -/
theorem rateWrite_conflict {d : Dev} (src : BusSrc) (v : Word) (h : 2 ≤ d.src) :
    rateWrite src v d = d.ev HRT_EVENT.SRC_CONFLICT := if_pos h

theorem srcConflict_wrote (d : Dev) : Wrote d (d.ev HRT_EVENT.SRC_CONFLICT) [(HRT_EVENT.SRC_CONFLICT, 1)] :=
  wrote_wr_of_lt d HRT_EVENT.SRC_CONFLICT 1 (by decide) (by decide)

theorem rowAt_hrtRate : rowAt HRT_RATE.addr = some ⟨0x8018, [], [fld 0 32 .rw 0 .a]⟩ := by decide

/-- No value of HRT_RATE is outside its range while another source is in force: R5 does not refuse it. -/
theorem regBad_hrtRate {d : Dev} {v : Nat} (h : 2 ≤ d.src) : regBad HRT_RATE.addr v d = false := by
  have hres : RegRow.reserved ⟨0x8018, [], [fld 0 32 .rw 0 .a]⟩ = 0 := by decide
  have hout : RegRow.outside ⟨0x8018, [], [fld 0 32 .rw 0 .a]⟩ v = false := by
    simp [RegRow.outside, fld, bits]; omega
  have hsys : crossSys HRT_RATE.addr v d = false := by
    simp [crossSys, HRT_RATE.addr, show ¬ d.src < 2 by omega]
  have hcore : crossCore HRT_RATE.addr v d = false := by simp [crossCore, HRT_RATE.addr]
  have hfield : crossField HRT_RATE.addr v = false := by simp [crossField, HRT_RATE.addr]
  simp [regBad, rowAt_hrtRate, hres, hout, hsys, hcore, hfield]

/-- A write over the register bus reaches the rule of HRT_RATE, which stores it itself. -/
theorem regWrite_hrtRate {d : Dev} {v : Nat} (src : BusSrc) (h : 2 ≤ d.src) (hpd : d.pd 0 = true) :
    regWrite src false HRT_RATE.addr v d = rateWrite src (BitVec.ofNat 32 v) d := by
  have hbank : bankClosed HRT_RATE.addr d = false := by simp [bankClosed, HRT_RATE.addr]
  have htake : regTake src HRT_RATE.addr v d = rateWrite src (BitVec.ofNat 32 v) d := by
    simp [regTake, domOf, ownStore, regHook, hookClk, HRT_RATE.addr, hpd]
  simp only [regWrite, regBad_hrtRate h, hbank, htake]
  simp [HRT_RATE.addr, HRT_ADJ_CTRL.addr]

/-- A write through PCIe to PF0 BAR0, once booted, goes over the register bus. -/
theorem busWrite_bar0 {d : Dev} (narrow : Bool) (o v : Nat) (hb : d.booted = true) :
    busWrite .bar0 narrow o v d = regWrite .pcie narrow o v d := by simp [busWrite, hb]

/-! ### GO under PEGLINE or PPS (R46) -/

/-- GO with a legal SLEW_PPM conflicts, and MODE and SLEW_PPM are written. -/
theorem adjGo_conflict {d : Dev} {ppm : Nat} (src : BusSrc) (slew : Bool) (h : 2 ≤ d.src) (h1 : 1 ≤ ppm) (h2 : ppm ≤ 500) :
    adjGo src slew ppm d = ((d.ev HRT_EVENT.SRC_CONFLICT).wr HRT_ADJ_CTRL.MODE (b2n slew)).wr HRT_ADJ_CTRL.SLEW_PPM ppm := by
  simp only [adjGo, if_neg (show ¬ (ppm < 1 ∨ 500 < ppm) by omega)]
  simp [Dev.evIf, Dev.wrB, b2n, h]

/-- GO with another SLEW_PPM conflicts and is refused. -/
theorem adjGo_conflict_refused {d : Dev} {ppm : Nat} (src : BusSrc) (slew : Bool) (h : 2 ≤ d.src) (hp : ppm < 1 ∨ 500 < ppm) :
    adjGo src slew ppm d = badWr src HRT_ADJ_CTRL.addr (d.ev HRT_EVENT.SRC_CONFLICT) := by
  simp only [adjGo, if_pos hp]
  simp [Dev.evIf, h]

theorem adjGo_conflict_wrote {d : Dev} {ppm : Nat} (src : BusSrc) (slew : Bool) (h : 2 ≤ d.src) (h1 : 1 ≤ ppm)
    (h2 : ppm ≤ 500) : Wrote d (adjGo src slew ppm d)
      [(HRT_ADJ_CTRL.MODE, b2n slew), (HRT_ADJ_CTRL.SLEW_PPM, ppm), (HRT_EVENT.SRC_CONFLICT, 1)] := by
  rw [adjGo_conflict src slew h h1 h2]
  have hmode := wrote_wr_of_lt (d.ev HRT_EVENT.SRC_CONFLICT) HRT_ADJ_CTRL.MODE (b2n slew) (by decide) (by cases slew <;> decide)
  have hppm := wrote_wr_of_lt ((d.ev HRT_EVENT.SRC_CONFLICT).wr HRT_ADJ_CTRL.MODE (b2n slew)) HRT_ADJ_CTRL.SLEW_PPM ppm
    (by decide) (by show ppm < 512; omega)
  refine (((srcConflict_wrote d).append_apart hmode rfl).append_apart hppm rfl).of_mem_iff fun x => ?_
  simp only [List.mem_append, List.mem_cons, List.not_mem_nil, or_false]
  tauto

/-- A refused GO counts in GLB_BADWR as any refused write does. -/
theorem adjGo_conflict_refused_wrote {d : Dev} {ppm : Nat} (src : BusSrc) (slew : Bool) (h : 2 ≤ d.src)
    (hp : ppm < 1 ∨ 500 < ppm) : Wrote d (adjGo src slew ppm d)
      [(HRT_EVENT.SRC_CONFLICT, 1), (GLB_BADWR.COUNT, min (d.rd GLB_BADWR.COUNT + 1) (2 ^ 32 - 1)),
        (GLB_BADWR_INFO.OFFSET, HRT_ADJ_CTRL.addr), (GLB_BADWR_INFO.SRC, srcCode src), (GLB_BADWR_INFO.FN, srcFn src)] := by
  have hbad := badWr_wrote src HRT_ADJ_CTRL.addr (d.ev HRT_EVENT.SRC_CONFLICT) (by decide)
  have hcount : (d.ev HRT_EVENT.SRC_CONFLICT).rd GLB_BADWR.COUNT = d.rd GLB_BADWR.COUNT := rd_ev_apart d _ _ (by decide)
  rw [hcount] at hbad
  rw [adjGo_conflict_refused src slew h hp]
  exact (srcConflict_wrote d).append_apart hbad rfl

/-- A refused access does not reach the Hearth. -/
theorem badWr_hearth (src : BusSrc) (off : Nat) (d : Dev) : (badWr src off d).hearth = d.hearth := by
  rw [badWr, wr_hearth, wr_hearth, wr_hearth, sat_hearth]

/-- Under PEGLINE or PPS no write of GO reaches the Hearth. -/
theorem adjGo_conflict_hearth {d : Dev} (src : BusSrc) (slew : Bool) (ppm : Nat) (h : 2 ≤ d.src) :
    (adjGo src slew ppm d).hearth = d.hearth := by
  by_cases hp : ppm < 1 ∨ 500 < ppm
  · rw [adjGo_conflict_refused src slew h hp, badWr_hearth, ev_hearth]
  · rw [adjGo_conflict src slew h (by omega) (by omega), wr_hearth, wr_hearth, ev_hearth]

theorem rowAt_hrtAdjCtrl :
    rowAt HRT_ADJ_CTRL.addr = some ⟨0x8028, [], [fld 0 1 .w1s 0 .n, fld 1 1 .rw 0 .w, flr 2 9 .rw 0x64 .i 1 500]⟩ := by decide

/-- A write that R5 does not refuse has a legal SLEW_PPM. -/
theorem slewPpm_legal {d : Dev} {v : Nat} (h : regBad HRT_ADJ_CTRL.addr v d = false) : 1 ≤ bits v 2 9 ∧ bits v 2 9 ≤ 500 := by
  simp only [regBad, rowAt_hrtAdjCtrl, Bool.or_eq_false_iff] at h
  obtain ⟨⟨⟨⟨-, hout⟩, -⟩, -⟩, -⟩ := h
  simp [RegRow.outside, fld, flr] at hout
  omega

/-- What a write of v stores in HRT_ADJ_CTRL: GO stays, MODE and SLEW_PPM are those of v. -/
def adjCtrlStored (old v : Nat) : Nat := bits old 0 1 + bits v 1 1 * 2 + bits v 2 9 * 4

theorem adjCtrl_regStore (d : Dev) (v : Nat) :
    regStore true HRT_ADJ_CTRL.addr v d =
      d.setWord HRT_ADJ_CTRL.addr (adjCtrlStored (d.word HRT_ADJ_CTRL.addr) v) := by
  simp [regStore, rowAt_hrtAdjCtrl, RegRow.stored, fld, flr, adjCtrlStored]

theorem adjCtrl_regStore_wrote (d : Dev) (v : Nat) : Wrote d (regStore true HRT_ADJ_CTRL.addr v d)
    [(HRT_ADJ_CTRL.MODE, bits v 1 1), (HRT_ADJ_CTRL.SLEW_PPM, bits v 2 9), (⟨HRT_ADJ_CTRL.addr, 11, 21⟩, 0)] := by
  have hgo := bits_lt (d.word HRT_ADJ_CTRL.addr) 0 1
  have hmode := bits_lt v 1 1
  have hppm := bits_lt v 2 9
  rw [adjCtrl_regStore]
  refine ⟨rfl, ?_, fun g hg => ?_⟩
  · simp only [List.forall_mem_cons, List.not_mem_nil, false_implies, implies_true, and_true, Dev.rd, word_setWord,
      HRT_ADJ_CTRL.MODE, HRT_ADJ_CTRL.SLEW_PPM, if_pos, adjCtrlStored]
    generalize bits (d.word HRT_ADJ_CTRL.addr) 0 1 = go at *
    generalize bits v 1 1 = mode at *
    generalize bits v 2 9 = ppm at *
    simp only [bits]
    omega
  · by_cases hoff : g.off = HRT_ADJ_CTRL.addr
    · have hlow : g.w = 0 ∨ g.lo = 0 ∧ g.w = 1 := by
        simp [Field.apart, hoff, HRT_ADJ_CTRL.MODE, HRT_ADJ_CTRL.SLEW_PPM] at hg
        omega
      rcases hlow with hw | ⟨hlo, hw⟩
      · simp [Dev.rd, bits, hw, Nat.mod_one]
      · simp only [Dev.rd, word_setWord, hoff, hlo, hw, if_pos, adjCtrlStored]
        generalize d.word HRT_ADJ_CTRL.addr = old
        simp only [bits]
        omega
    · simp [Dev.rd, word_setWord, hoff]

theorem regStore_hearth (dom : Bool) (o v : Nat) (d : Dev) : (regStore dom o v d).hearth = d.hearth := by
  unfold regStore
  split <;> rfl

/-- A write of GO over the register bus, not refused: the register takes its RW fields, then GO acts. -/
theorem regWrite_go {d : Dev} {v : Nat} (src : BusSrc) (h : 2 ≤ d.src) (hpd : d.pd 0 = true) (hgo : v % 2 = 1)
    (hok : regBad HRT_ADJ_CTRL.addr v d = false) :
    regWrite src false HRT_ADJ_CTRL.addr v d =
      adjGo src (bit v 1) (bits v 2 9) (regStore true HRT_ADJ_CTRL.addr v d) := by
  have htake : regTake src HRT_ADJ_CTRL.addr v d =
      adjGo src (bit v 1) (bits v 2 9) (regStore true HRT_ADJ_CTRL.addr v d) := by
    simp [regTake, domOf, ownStore, regHook, hookClk, HRT_ADJ_CTRL.addr, HRT_RATE.addr, RAT_RET_DATA.addr,
      HIF_VF_HOLD.addr, FLD_GPI_LATCH.addr, INT_FN0_MASK.addr, hpd, show bit v 0 = true by simp [bit, hgo]]
  simp only [regWrite, hok, htake, hgo, h]
  simp [HRT_ADJ_CTRL.addr]

theorem regWrite_go_hearth {d : Dev} {v : Nat} (src : BusSrc) (h : 2 ≤ d.src) (hpd : d.pd 0 = true) (hgo : v % 2 = 1)
    (hok : regBad HRT_ADJ_CTRL.addr v d = false) : (regWrite src false HRT_ADJ_CTRL.addr v d).hearth = d.hearth := by
  have hstore := regStore_hearth true HRT_ADJ_CTRL.addr v d
  rw [regWrite_go src h hpd hgo hok, adjGo_conflict_hearth _ _ _ (by rwa [Dev.src, hstore]), hstore]

theorem b2n_bit (v n : Nat) : b2n (bit v n) = bits v n 1 := by
  rcases Nat.mod_two_eq_zero_or_one (v / 2 ^ n) with h | h <;> simp [b2n, bit, bits, h]

theorem regWrite_go_wrote {d : Dev} {v : Nat} (src : BusSrc) (h : 2 ≤ d.src) (hpd : d.pd 0 = true) (hgo : v % 2 = 1)
    (hok : regBad HRT_ADJ_CTRL.addr v d = false) : Wrote d (regWrite src false HRT_ADJ_CTRL.addr v d)
      [(HRT_ADJ_CTRL.MODE, bits v 1 1), (HRT_ADJ_CTRL.SLEW_PPM, bits v 2 9), (⟨HRT_ADJ_CTRL.addr, 11, 21⟩, 0),
        (HRT_EVENT.SRC_CONFLICT, 1)] := by
  obtain ⟨hlo, hhi⟩ := slewPpm_legal hok
  have hsrc : 2 ≤ (regStore true HRT_ADJ_CTRL.addr v d).src := by rwa [Dev.src, regStore_hearth]
  have hact := adjGo_conflict_wrote src (bit v 1) hsrc hlo hhi
  rw [regWrite_go src h hpd hgo hok]
  rw [b2n_bit] at hact
  refine ((adjCtrl_regStore_wrote d v).chain hact ?_).of_mem_iff fun x => ?_
  · simp [Field.apart, HRT_EVENT.SRC_CONFLICT, HRT_ADJ_CTRL.MODE, HRT_ADJ_CTRL.SLEW_PPM, HRT_EVENT.addr, HRT_ADJ_CTRL.addr]
  · simp only [List.mem_append, List.mem_cons, List.not_mem_nil, or_false]
    tauto

/-- Settles O47: under PEGLINE or PPS each of these writes raises SRC_CONFLICT, and none reaches the Hearth. -/
theorem rateWriteUnderAnotherSource : Obligations.RateWriteUnderAnotherSource := by
  rintro ⟨dev, pending⟩
  obtain ⟨x, d, rfl, hd⟩ := exists_outs dev
  have reached {src : BusSrc} (f : Dev → Dev) (hr : src = .smbus ∨ src = .image ∨ d.booted = true) :
    softFrom src f d = f d := softFrom_reached hr
  refine ⟨fun src v (h : 2 ≤ d.src) hr => ?rate, fun v (h : 2 ≤ d.src) ⟨hb, hpd⟩ => ?rateOverBus,
    fun src slew ppm (h : 2 ≤ d.src) hr h1 h2 => ?go, fun src slew ppm (h : 2 ≤ d.src) hr hp => ?goRefused,
    fun v (h : 2 ≤ d.src) ⟨hb, hpd⟩ hgo hok => ?goOverBus⟩
  case rate =>
    refine does_of hd (fun _ => rfl) ?_ ?_ <;> rw [reached _ hr, rateWrite_conflict src v h]
    · exact srcConflict_wrote d
    · rfl
  case rateOverBus =>
    refine does_of hd (fun _ => rfl) ?_ ?_ <;>
      rw [busWrite_bar0 (d := d) _ _ _ hb, regWrite_hrtRate .pcie h hpd, rateWrite_conflict _ _ h]
    · exact srcConflict_wrote d
    · rfl
  case go =>
    refine does_of hd (fun _ => rfl) ?_ ?_ <;> rw [reached _ hr]
    · exact adjGo_conflict_wrote src slew h h1 h2
    · exact adjGo_conflict_hearth src slew ppm h
  case goRefused =>
    refine does_of hd (fun _ => rfl) ?_ ?_ <;> rw [reached _ hr]
    · exact adjGo_conflict_refused_wrote src slew h hp
    · exact adjGo_conflict_hearth src slew ppm h
  case goOverBus =>
    refine does_of hd (fun _ => rfl) ?_ ?_ <;> rw [busWrite_bar0 (d := d) _ _ _ hb]
    · exact regWrite_go_wrote .pcie h hpd hgo hok
    · exact regWrite_go_hearth .pcie h hpd hgo hok

/-! ### The Hearth at the mote of an access -/

/-- The outputs of the command before play no part in where the Hearth stands. -/
theorem atMote_outs_hearth (m : Nat) (d : Dev) (x : List Out) :
    (atMote m { d with outs := x }).hearth = (atMote m d).hearth := by
  simp only [atMote, ite_hearth]
  rfl

/-- The Hearth does not go back to the first mote of its frame. -/
theorem atMote_zero (d : Dev) : atMote 0 d = d := by simp [atMote]

@[simp] theorem atMote_outputs (m : Nat) (d : Dev) : (atMote m d).outs = d.outs := by
  obtain ⟨h, e⟩ := atMote_eq m d; rw [e]

@[simp] theorem atMote_latch (m : Nat) (d : Dev) : (atMote m d).latch = d.latch := by
  obtain ⟨h, e⟩ := atMote_eq m d; rw [e]

@[simp] theorem atMote_booted (m : Nat) (d : Dev) : (atMote m d).booted = d.booted := by simp [Dev.booted]

@[simp] theorem atMote_pd (m k : Nat) (d : Dev) : (atMote m d).pd k = d.pd k := by simp [Dev.pd, Dev.bitOf]

@[simp] theorem atMote_word (m o : Nat) (d : Dev) : (atMote m d).word o = d.word o := by simp [Dev.word]

/-! ### Snapshots (R52) -/

/-- TAKE with the Hearth at its CLK: both halves are captured, and TAKE clears. -/
theorem snapTake_wrote (d : Dev) : Wrote d (snapTake 0 d)
    [(HRT_SNAP_LO.SNAP, d.now % 2 ^ 32), (HRT_SNAP_HI.SNAP, d.now / 2 ^ 32 % 2 ^ 32), (HRT_SNAP_CTRL.TAKE, 0)] := by
  have hlo := wrote_wr d HRT_SNAP_LO.SNAP d.now (by decide)
  have hhi := wrote_wr (d.wr HRT_SNAP_LO.SNAP d.now) HRT_SNAP_HI.SNAP (d.now / 2 ^ 32) (by decide)
  have htake := wrote_wr ((d.wr HRT_SNAP_LO.SNAP d.now).wr HRT_SNAP_HI.SNAP (d.now / 2 ^ 32)) HRT_SNAP_CTRL.TAKE 0 (by decide)
  simp only [snapTake, atMote_zero]
  exact (hlo.append_apart hhi rfl).append_apart htake rfl

/-- A snapshot latches no register pair. -/
theorem snapTake_latch (d : Dev) : (snapTake 0 d).latch = d.latch := by
  simp only [snapTake, atMote_zero]
  rw [wrB_latch, wr_latch, wr_latch]

/-! ### Reads of a register pair (R53) -/

/-- Latching changes no register and no retention SRAM. -/
@[simp] theorem pairLatch_regs (o : Nat) (d : Dev) : (pairLatch o d).regs = d.regs := by unfold pairLatch; split <;> rfl
@[simp] theorem pairLatch_sram (o : Nat) (d : Dev) : (pairLatch o d).sram = d.sram := by unfold pairLatch; split <;> rfl
@[simp] theorem pairLatch_outs (o : Nat) (d : Dev) : (pairLatch o d).outs = d.outs := by unfold pairLatch; split <;> rfl
@[simp] theorem pairLatch_hearth (o : Nat) (d : Dev) : (pairLatch o d).hearth = d.hearth := by unfold pairLatch; split <;> rfl

/-- A read of the low half latches the high half as it stands. -/
theorem pairLatch_latched {o hi : Nat} (d : Dev) (h : pairHigh o = some hi) :
    (pairLatch o d).latched hi = d.liveWord hi % 2 ^ 32 := by
  simp [pairLatch, h, Dev.latched, cellRead_cellWrite]

/-- A register that is no low half latches nothing. -/
theorem pairLatch_none {o : Nat} (d : Dev) (h : pairHigh o = none) : pairLatch o d = d := by simp [pairLatch, h]

theorem emit_outs (d : Dev) (o : Out) : (d.emit o).outs = d.outs ++ [o] := rfl

theorem emit_liveWord (d : Dev) (o : Out) (p : Nat) : (d.emit o).liveWord p = d.liveWord p := rfl

/-- The words shown live hang on the Hearth, the others on the registers. -/
theorem liveWord_congr {d e : Dev} (hh : d.hearth = e.hearth) (hr : d.regs = e.regs) (o : Nat) : d.liveWord o = e.liveWord o := by
  simp only [Dev.liveWord, Dev.now, Dev.word, hh, hr]

/-- A read of the low half of a pair of R53 at mote m: its answer, and what it latches. -/
theorem hrtNowRead_does {s : State} {hi : Nat} (p : HrtPair) (m : Mote) (hb : s.dev.booted = true)
    (hp : pairHigh (pairLow p) = some hi) :
    Does (.hrtNowRead p m) s [] fun e =>
      e.outs = [.read (BitVec.ofNat 32 ((atMote m s.dev).liveWord (pairLow p)))] ∧
        e.latched hi = (atMote m s.dev).liveWord hi % 2 ^ 32 := by
  obtain ⟨dev, pending⟩ := s
  obtain ⟨x, d, rfl, hd⟩ := exists_outs dev
  have hb' : (atMote m d).booted = true := (atMote_booted m d).trans hb
  have hlive (o : Nat) : (atMote m { d with outs := x }).liveWord o = (atMote m d).liveWord o :=
    liveWord_congr (atMote_outs_hearth m d x) (by simp) o
  refine does_of hd (fun _ => rfl) ?_ ?_ <;> rw [ifBooted_true hb', pairRead, atMote_zero]
  · exact wrote_nil _ _ (by simp) (by simp)
  · rw [hlive, hlive, pairLatch_latched _ hp, pairLatch_outs, emit_outs, emit_liveWord, atMote_outputs, hd]
    exact ⟨rfl, rfl⟩

/-- The registers that hardware shows as they stand in the CLK of the read. -/
def liveOffsets : List Nat := [HRT_NOW_LO.addr, HRT_NOW_HI.addr, HRT_SLEW_LEFT_LO.addr, HRT_SLEW_LEFT_HI.addr]

/-- Any other register reads as its word. -/
theorem liveWord_word (d : Dev) {o : Nat} (h : o ∉ liveOffsets) : d.liveWord o = d.word o := by
  simp only [liveOffsets, List.mem_cons, List.not_mem_nil, or_false, not_or] at h
  obtain ⟨h1, h2, h3, h4⟩ := h
  simp [Dev.liveWord, h1, h2, h3, h4]

/-- A pair that stands in two registers is read as they stand. -/
theorem hrtNowRead_word_does {s : State} {hi : Nat} (p : HrtPair) (m : Mote) (hb : s.dev.booted = true)
    (hp : pairHigh (pairLow p) = some hi) (hlo : pairLow p ∉ liveOffsets) (hhi : hi ∉ liveOffsets) :
    Does (.hrtNowRead p m) s [] fun e =>
      e.outs = [.read (BitVec.ofNat 32 (s.dev.rd ⟨pairLow p, 0, 32⟩))] ∧ e.latched hi = s.dev.rd ⟨hi, 0, 32⟩ := by
  refine (hrtNowRead_does p m hb hp).imp fun e ⟨ho, hl⟩ => ?_
  rw [liveWord_word _ hlo, atMote_word] at ho
  rw [liveWord_word _ hhi, atMote_word, Nat.mod_eq_of_lt (word_lt _ _)] at hl
  rw [rd_whole, rd_whole]
  exact ⟨ho, hl⟩

theorem liveWord_nowLo (d : Dev) : d.liveWord HRT_NOW_LO.addr = d.now % 2 ^ 32 := rfl
theorem liveWord_nowHi (d : Dev) : d.liveWord HRT_NOW_HI.addr = d.now / 2 ^ 32 := rfl
theorem liveWord_leftLo (d : Dev) :
    d.liveWord HRT_SLEW_LEFT_LO.addr = uns 48 (d.hearth.a.left.tdiv (2 ^ 32)) % 2 ^ 32 := rfl
theorem liveWord_leftHi (d : Dev) :
    d.liveWord HRT_SLEW_LEFT_HI.addr = uns 48 (d.hearth.a.left.tdiv (2 ^ 32)) / 2 ^ 32 := rfl

/-- A word is read as its low 32 bits. -/
theorem ofNat_mod_two_pow (x : Nat) : BitVec.ofNat 32 (x % 2 ^ 32) = BitVec.ofNat 32 x := by
  apply BitVec.eq_of_toNat_eq; simp

/-! ### Reads of either half over the register bus (R53) -/

/-- The low halves of the pairs. -/
def pairLows : List Nat :=
  [HRT_NOW_LO.addr, HRT_SNAP_LO.addr, HRT_PPS_CAP_LO.addr, HRT_SLEW_LEFT_LO.addr, LSH_EXPIRY_LO.addr,
    LSH_PEER_RENEW_LO.addr, LSH_TAKE_T_LO.addr] ++
    (List.range 4).map (fun n => CHn_GATE_SWAP_T_LO.addr n) ++ (List.range 4).map fun n => SHD_FENCE_RPTn_T_LO.addr n

/-- The high halves of the pairs. -/
def pairHighs : List Nat :=
  [HRT_NOW_HI.addr, HRT_SNAP_HI.addr, HRT_PPS_CAP_HI.addr, HRT_SLEW_LEFT_HI.addr, LSH_EXPIRY_HI.addr,
    LSH_PEER_RENEW_HI.addr, LSH_TAKE_T_HI.addr] ++
    (List.range 4).map (fun n => CHn_GATE_SWAP_T_HI.addr n) ++ (List.range 4).map fun n => SHD_FENCE_RPTn_T_HI.addr n

theorem mem_pairLows {o hi : Nat} (h : pairHigh o = some hi) : o ∈ pairLows := by
  by_contra hn
  simp only [pairLows, List.mem_append, List.mem_cons, List.mem_map, List.not_mem_nil, or_false, not_or, not_exists,
    not_and] at hn
  obtain ⟨⟨⟨h1, h2, h3, h4, h5, h6, h7⟩, hgate⟩, hfence⟩ := hn
  have hfind : ((List.range 4).find? fun n => o == CHn_GATE_SWAP_T_LO.addr n || o == SHD_FENCE_RPTn_T_LO.addr n) = none := by
    simp only [List.find?_eq_none, Bool.or_eq_true, beq_iff_eq, not_or]
    exact fun n hr => ⟨fun e => hgate n hr e.symm, fun e => hfence n hr e.symm⟩
  simp [pairHigh, h1, h2, h3, h4, h5, h6, h7, hfind] at h

theorem mem_pairHighs {o : Nat} (h : isPairHigh o = true) : o ∈ pairHighs := by
  simp only [isPairHigh, Bool.or_eq_true, List.contains_iff_mem, List.any_eq_true, beq_iff_eq] at h
  simp only [pairHighs, List.mem_append, List.mem_map]
  rcases h with h | ⟨n, hr, h | h⟩
  · exact .inl (.inl h)
  · exact .inl (.inr ⟨n, hr, h.symm⟩)
  · exact .inr ⟨n, hr, h.symm⟩

/-- A whole word of BAR0 below the table windows, of a register with no effect of its own on a read: it is listed and holds no
field that a read clears. -/
def plainRegister (o : Nat) : Bool :=
  decide (o < 0x200000) && o % 4 == 0 && o != RAT_RET_DATA.addr &&
    !(decide (0x20000 ≤ o) && decide (o < 0x30000) && o % 0x4000 == 0x30) &&
    (rowAt o).any fun r => r.fields.all fun f => f.ty != .rclr

/-- What a plain register is, part by part. -/
theorem plainRegister_iff {o : Nat} : plainRegister o = true ↔
    o < 0x200000 ∧ o % 4 = 0 ∧ o ≠ RAT_RET_DATA.addr ∧ ¬ (0x20000 ≤ o ∧ o < 0x30000 ∧ o % 0x4000 = 0x30) ∧
      ∃ r, rowAt o = some r ∧ ∀ f ∈ r.fields, f.ty ≠ .rclr := by
  simp only [plainRegister, Bool.and_eq_true, decide_eq_true_eq, beq_iff_eq, bne_iff_ne, Bool.not_eq_true',
    Option.any_eq_true, List.all_eq_true, ← Bool.not_eq_true, and_assoc]

/-- The low halves are such registers, and none of them is a high half. -/
theorem pairLows_plain : ∀ o ∈ pairLows, plainRegister o = true ∧ isPairHigh o = false := by decide

/-- So are the high halves, and none of them is a low half. -/
theorem pairHighs_plain : ∀ o ∈ pairHighs, plainRegister o = true ∧ pairHigh o = none := by decide

/-- Nothing is cleared by a read of a plain register. -/
theorem rclrClear_plain {o : Nat} (d : Dev) (h : plainRegister o = true) : rclrClear o d = d := by
  obtain ⟨hlt, -, -, -, r, hr, hty⟩ := plainRegister_iff.mp h
  have hnone : (r.fields.any fun f => f.ty == .rclr) = false := by simpa using hty
  simp [rclrClear, show ¬ 0x200000 ≤ o by omega, hr, hnone]

/-- A read of a plain register answers it, and latches its pair where it is a low half. -/
theorem regRead_plain {o : Nat} (d : Dev) (h : plainRegister o = true) :
    regRead false o d = pairLatch o (d.emit (.read (BitVec.ofNat 32 (d.peekWord o)))) := by
  have hclear := fun e => rclrClear_plain e h
  obtain ⟨-, h4, hret, htx, -⟩ := plainRegister_iff.mp h
  have hpeek : d.peek o = d.peekWord o := by simp [Dev.peek, h4, Nat.div_mul_cancel (Nat.dvd_of_mod_eq_zero h4)]
  have htxts : ¬ (0x20000 ≤ o ∧ o < 0x30000 ∧ o % 0x4000 = 0x30 ∧ d.pd 1 = true) :=
    fun ⟨hfrom, hto, hreg, _⟩ => htx ⟨hfrom, hto, hreg⟩
  simp [regRead, h4, hret, htxts, hpeek, hclear]

/-- A plain register that is no high half, in a domain that is on, reads as it stands. -/
theorem peekWord_live {o : Nat} (d : Dev) (h : plainRegister o = true) (hh : isPairHigh o = false) (hpd : d.pd (domOf o) = true) :
    d.peekWord o = d.liveWord o := by
  obtain ⟨hlt, -, hret, -, r, hr, -⟩ := plainRegister_iff.mp h
  simp [Dev.peekWord, show ¬ 0x200000 ≤ o by omega, hr, hret, hh, hpd]

/-- A high half reads as it was latched, whatever its domain. -/
theorem peekWord_latched {o : Nat} (d : Dev) (h : plainRegister o = true) (hh : isPairHigh o = true) :
    d.peekWord o = d.latched o := by
  obtain ⟨hlt, -, hret, -, r, hr, -⟩ := plainRegister_iff.mp h
  simp [Dev.peekWord, show ¬ 0x200000 ≤ o by omega, hr, hret, hh]

/-- A read through PCIe of PF0 BAR0, once booted, goes over the register bus. -/
theorem busRead_bar0 {d : Dev} (narrow : Bool) (o : Nat) (hb : d.booted = true) :
    busRead .bar0 narrow o d = regRead narrow o d := by simp [busRead, hb]

/-- A read of any low half answers it as it stands and latches its high half. -/
theorem busRead_low {d : Dev} {o hi : Nat} (hb : d.booted = true) (hpd : d.pd (domOf o) = true) (hp : pairHigh o = some hi) :
    busRead .bar0 false o d = pairLatch o (d.emit (.read (BitVec.ofNat 32 (d.liveWord o)))) := by
  obtain ⟨hplain, hh⟩ := pairLows_plain o (mem_pairLows hp)
  rw [busRead_bar0 _ _ hb, regRead_plain d hplain, peekWord_live d hplain hh hpd]

/-- A read of any high half answers what is latched. -/
theorem busRead_high {d : Dev} {o : Nat} (hb : d.booted = true) (hh : isPairHigh o = true) :
    busRead .bar0 false o d = d.emit (.read (BitVec.ofNat 32 (d.latched o))) := by
  obtain ⟨hplain, hnone⟩ := pairHighs_plain o (mem_pairHighs hh)
  rw [busRead_bar0 _ _ hb, regRead_plain d hplain, peekWord_latched d hplain hh, pairLatch_none _ hnone]

/-- The same, as what the command does. -/
theorem lowRead_does {s : State} {o hi : Nat} (hb : s.dev.booted = true) (hpd : s.dev.pd (domOf o) = true)
    (hp : pairHigh o = some hi) : Does (.rclrRead .bar0 false o) s [] fun e =>
      e.outs = [.read (BitVec.ofNat 32 (s.dev.liveWord o))] ∧ e.latched hi = s.dev.liveWord hi % 2 ^ 32 ∧
        e.hearth = s.dev.hearth := by
  obtain ⟨dev, pending⟩ := s
  obtain ⟨x, d, rfl, hd⟩ := exists_outs dev
  refine does_of hd (fun _ => rfl) ?_ ?_ <;> rw [busRead_low (d := d) hb hpd hp]
  · exact wrote_nil _ _ (by simp) (by simp)
  · rw [pairLatch_latched _ hp, pairLatch_outs, pairLatch_hearth, emit_outs, emit_liveWord, hd]
    exact ⟨rfl, rfl, rfl⟩

theorem highRead_does {s : State} {o : Nat} (hb : s.dev.booted = true) (hh : isPairHigh o = true) :
    Does (.rclrRead .bar0 false o) s [] fun e =>
      e.outs = [.read (BitVec.ofNat 32 (s.dev.latched o))] ∧ e.latch = s.dev.latch ∧ e.hearth = s.dev.hearth := by
  obtain ⟨dev, pending⟩ := s
  obtain ⟨x, d, rfl, hd⟩ := exists_outs dev
  refine does_of hd (fun _ => rfl) ?_ ?_ <;> rw [busRead_high (d := d) hb hh]
  · exact wrote_nil _ _ rfl rfl
  · rw [emit_outs, hd]
    exact ⟨rfl, rfl, rfl⟩

/-- TAKE at mote m captures the voted Hearth of its CLK. -/
theorem snapTake_does {s : State} (m : Mote) (hb : s.dev.booted = true) (hpd : s.dev.pd 0 = true) :
    Does (.snapTake m) s
      [(HRT_SNAP_LO.SNAP, (atMote m s.dev).now % 2 ^ 32), (HRT_SNAP_HI.SNAP, (atMote m s.dev).now / 2 ^ 32 % 2 ^ 32),
        (HRT_SNAP_CTRL.TAKE, 0)] fun e => e.latch = s.dev.latch := by
  obtain ⟨dev, pending⟩ := s
  obtain ⟨x, d, rfl, hd⟩ := exists_outs dev
  have hb' : (atMote m d).booted = true := (atMote_booted m d).trans hb
  have hpd' : (atMote m d).pd 0 = true := (atMote_pd m 0 d).trans hpd
  have hnow : (atMote m { d with outs := x }).now = (atMote m d).now := by rw [Dev.now, atMote_outs_hearth]; rfl
  refine does_of hd (fun _ => rfl) ?_ ?_ <;> rw [soft_taken hb' hpd']
  · rw [hnow]
    exact (wrote_nil d _ (atMote_sram m d) (atMote_regs m d)).append_apart (snapTake_wrote _) rfl
  · rw [snapTake_latch, atMote_latch]

/-- Settles O48: TAKE, the pairs of R53 at a mote, and any pair over the register bus. -/
theorem snapshotAndPairedReads : Obligations.SnapshotAndPairedReads := by
  intro s
  refine ⟨fun m ⟨hb, hpd⟩ => snapTake_does m hb hpd, fun m hb => ?now, fun m hb => ?snap, fun m hb => ?cap, fun m hb => ?left,
    fun o hi hb hpd hp => lowRead_does hb hpd hp, fun o hb hh => highRead_does hb hh⟩
  case now =>
    refine (hrtNowRead_does .now m hb rfl).imp fun e ⟨ho, hl⟩ => ?_
    rw [pairLow, liveWord_nowLo, ofNat_mod_two_pow] at ho
    rw [liveWord_nowHi] at hl
    exact ⟨ho, hl⟩
  case snap => exact hrtNowRead_word_does .snap m hb rfl (by decide) (by decide)
  case cap => exact hrtNowRead_word_does .cap m hb rfl (by decide) (by decide)
  case left =>
    refine (hrtNowRead_does .left m hb rfl).imp fun e ⟨ho, hl⟩ => ?_
    rw [pairLow, liveWord_leftLo, ofNat_mod_two_pow] at ho
    rw [liveWord_leftHi] at hl
    exact ⟨ho, hl⟩

end Sys2Proof.Machine
end

section
/-!
PROOFS. Reserved offsets of PF0 BAR0: what a read of one answers and what a write to one does (R392).
-/

namespace Sys2Proof.Machine

/-! ### Reserved words -/

/-- The word at o is reserved: a register offset that Table 19.2 does not list, or a gap of the window range. -/
def Reserved (o : Nat) : Prop := o < 0x200000 ∧ rowAt o = none ∨ 0x200000 ≤ o ∧ winOf o = .gap

/-- The word of a byte offset lies below the table windows just when the offset does. -/
theorem reserved_word {off : Nat}
    (h : if off < 0x200000 then rowAt (off / 4 * 4) = none else winOf (off / 4 * 4) = .gap) : Reserved (off / 4 * 4) := by
  split at h
  · exact .inl ⟨by omega, h⟩
  · exact .inr ⟨by omega, h⟩

/-- An access that is neither narrow nor unaligned addresses its word by the word's own offset. -/
theorem whole_word {narrow : Bool} {off : Nat} (h : ¬ (narrow || off % 4 != 0) = true) :
    off % 4 = 0 ∧ off / 4 * 4 = off := by
  have h4 : off % 4 = 0 := (by simpa using h : narrow = false ∧ off % 4 = 0).2
  exact ⟨h4, Nat.div_mul_cancel (Nat.dvd_of_mod_eq_zero h4)⟩

/-- A reserved word below the table windows has no row. -/
theorem Reserved.rowAt_eq_none {o : Nat} (h : Reserved o) (hlt : o < 0x200000) : rowAt o = none := by
  obtain ⟨-, hrow⟩ | ⟨hge, -⟩ := h
  · exact hrow
  · omega

/-- A reserved word of the window range is a gap (Table 19.3). -/
theorem Reserved.winOf_eq_gap {o : Nat} (h : Reserved o) (hge : 0x200000 ≤ o) : winOf o = .gap := by
  obtain ⟨hlt, -⟩ | ⟨-, hgap⟩ := h
  · omega
  · exact hgap

/-- Table 19.1 ends with the INT block. -/
theorem blockRows_beyond_int {o : Nat} (h : 0x84000 ≤ o) : blockRows o = [] := by
  obtain ⟨k, hk⟩ : ∃ k, o / 0x4000 = k + 33 := ⟨o / 0x4000 - 33, by omega⟩
  simp only [blockRows, hk]

theorem rowAt_beyond_int {o : Nat} (h : 0x84000 ≤ o) : rowAt o = none := by simp [rowAt, blockRows_beyond_int h]

/-! ### Registers with an effect of their own are listed -/

theorem rowAt_retData : (rowAt RAT_RET_DATA.addr).isSome = true := by decide

/-- The first register of the transmit timestamps of each channel (R164). -/
theorem rowAt_txts0 : ∀ n < 4, (rowAt (0x20030 + n * 0x4000)).isSome = true := by decide

/-- The assignment registers of each function (R114). -/
theorem rowAt_assignment : ∀ f < 16, ∀ which < 3, (rowAt (0x14100 + f * 0x10 + which * 4)).isSome = true := by decide

theorem Reserved.ne_listed {o p : Nat} (h : Reserved o) (hlt : p < 0x200000) (hp : (rowAt p).isSome = true) : o ≠ p := by
  rintro rfl
  simp [h.rowAt_eq_none hlt] at hp

/-- A reserved word is no transmit timestamp. -/
theorem Reserved.not_txts0 {o : Nat} (h : Reserved o) : ¬ (0x20000 ≤ o ∧ o < 0x30000 ∧ o % 0x4000 = 0x30) := by
  rintro ⟨hfrom, hto, hreg⟩
  exact h.ne_listed (by omega) (rowAt_txts0 ((o - 0x20000) / 0x4000) (by omega)) (by omega)

/-- An aligned reserved word is no assignment register. -/
theorem Reserved.not_assignment {o : Nat} (h : Reserved o) (h4 : o % 4 = 0) :
    ¬ (0x14100 ≤ o ∧ o < 0x14200 ∧ o % 0x10 / 4 < 3) := by
  rintro ⟨hfrom, hto, hwhich⟩
  exact h.ne_listed (by omega) (rowAt_assignment ((o - 0x14100) / 0x10) (by omega) _ hwhich) (by omega)

/-- A reserved word is no low half of a pair. -/
theorem Reserved.pairHigh_eq_none {o : Nat} (h : Reserved o) : pairHigh o = none := by
  by_contra hne
  obtain ⟨hi, hp⟩ := Option.ne_none_iff_exists'.mp hne
  obtain ⟨hlt, -, -, -, r, hr, -⟩ := plainRegister_iff.mp (pairLows_plain o (mem_pairLows hp)).1
  exact h.ne_listed hlt (by simp [hr]) rfl

/-! ### Reads -/

/-- A reserved word reads 0, whatever its domain. -/
theorem Reserved.peekWord_eq_zero {o : Nat} (h : Reserved o) (d : Dev) : d.peekWord o = 0 := by
  obtain ⟨hlt, hrow⟩ | ⟨hge, hgap⟩ := h
  · simp [Dev.peekWord, hrow, show ¬ 0x200000 ≤ o by omega]
  · simp [Dev.peekWord, hge, hgap]

/-- So do its bytes. -/
theorem Reserved.peek_eq_zero {off : Nat} (h : Reserved (off / 4 * 4)) (d : Dev) : d.peek off = 0 := by
  simp [Dev.peek, h.peekWord_eq_zero]

/-- A read of a reserved word clears nothing. -/
theorem Reserved.rclrClear_eq_self {o : Nat} (h : Reserved o) (d : Dev) : rclrClear o d = d := by
  obtain ⟨hlt, hrow⟩ | ⟨hge, hgap⟩ := h
  · simp [rclrClear, hrow, show ¬ 0x200000 ≤ o by omega]
  · simp [rclrClear, hge, hgap]

/-- A read of a reserved offset, narrow or not, answers 0 and has no other effect. -/
theorem regRead_reserved {off : Nat} (narrow : Bool) (d : Dev) (h : Reserved (off / 4 * 4)) :
    regRead narrow off d = d.emit (.read 0) := by
  have hpeek : d.peek off = 0 := h.peek_eq_zero d
  by_cases hpart : (narrow || off % 4 != 0) = true
  · simp [regRead, hpart, hpeek]
  · obtain ⟨-, hword⟩ := whole_word hpart
    rw [hword] at h
    have hret : off ≠ RAT_RET_DATA.addr := h.ne_listed (by decide) rowAt_retData
    have htxts : ¬ (0x20000 ≤ off ∧ off < 0x30000 ∧ off % 0x4000 = 0x30 ∧ d.pd 1 = true) :=
      fun ⟨hfrom, hto, hreg, _⟩ => h.not_txts0 ⟨hfrom, hto, hreg⟩
    simp only [regRead, if_neg hpart, if_neg hret, if_neg htxts, hpeek, pairLatch_none _ h.pairHigh_eq_none,
      h.rclrClear_eq_self, ite_self, BitVec.ofNat_eq_ofNat]

theorem reservedRead_does {s : State} {off : Nat} (narrow : Bool) (hb : s.dev.booted = true) (h : Reserved (off / 4 * 4)) :
    Does (.rclrRead .bar0 narrow off) s [] fun e => e.outs = [.read 0] := by
  obtain ⟨dev, pending⟩ := s
  obtain ⟨x, d, rfl, hd⟩ := exists_outs dev
  refine does_of hd (fun _ => rfl) ?_ ?_ <;> rw [busRead_bar0 (d := d) _ _ hb, regRead_reserved narrow d h]
  · exact wrote_nil _ _ rfl rfl
  · rw [emit_outs, hd]
    rfl

/-! ### Writes -/

/-- A refused write to a reserved word raises no ASSIGN_REFUSED: it is no assignment register (R114). -/
theorem Reserved.assignNote_eq_self {o : Nat} (h : Reserved o) (h4 : o % 4 = 0) (v : Nat) (d : Dev) : assignNote o v d = d :=
  if_neg fun ⟨hfrom, hto, hwhich, _⟩ => h.not_assignment h4 ⟨hfrom, hto, hwhich⟩

/-- A write to a reserved offset, narrow or not, is refused, counted and described, and nothing else. -/
theorem regWrite_reserved {off : Nat} (src : BusSrc) (narrow : Bool) (v : Nat) (d : Dev) (h : Reserved (off / 4 * 4)) :
    regWrite src narrow off v d = badWr src off d := by
  by_cases hpart : (narrow || off % 4 != 0) = true
  · exact if_pos hpart
  · obtain ⟨h4, hword⟩ := whole_word hpart
    rw [hword] at h
    rw [regWrite, if_neg hpart]
    by_cases hwin : 0x200000 ≤ off
    · simp [hwin, windowWrite, h.winOf_eq_gap hwin]
    · have hadj : off ≠ HRT_ADJ_CTRL.addr := h.ne_listed (by decide) (by simp [rowAt_hrtAdjCtrl])
      have hbad : regBad off v d = true := by simp [regBad, h.rowAt_eq_none (by omega)]
      simp [hwin, hadj, hbad, h.assignNote_eq_self h4]

/-- A refused access puts nothing out. -/
theorem badWr_outs (src : BusSrc) (off : Nat) (d : Dev) : (badWr src off d).outs = d.outs := by
  rw [badWr, wr_outs, wr_outs, wr_outs, sat_outs]

theorem reservedWrite_does {s : State} {off : Nat} (narrow : Bool) (v : Word) (hb : s.dev.booted = true) (hlt : off < 2 ^ 22)
    (h : Reserved (off / 4 * 4)) : Does (.registerWrite .bar0 narrow off v) s
      [(GLB_BADWR.COUNT, min (s.dev.rd GLB_BADWR.COUNT + 1) (2 ^ 32 - 1)), (GLB_BADWR_INFO.OFFSET, off),
        (GLB_BADWR_INFO.SRC, 0), (GLB_BADWR_INFO.FN, 0)] fun e => e.outs = [] := by
  obtain ⟨dev, pending⟩ := s
  obtain ⟨x, d, rfl, hd⟩ := exists_outs dev
  refine does_of hd (fun _ => rfl) ?_ ?_ <;> rw [busWrite_bar0 (d := d) _ _ _ hb, regWrite_reserved _ _ _ _ h]
  · exact badWr_wrote .pcie off d hlt
  · rw [badWr_outs, hd]

/-- Settles O49: no word beyond the INT block is listed, and a reserved word reads 0 and refuses every write. -/
theorem reservedOffsets : Obligations.ReservedOffsets := by
  refine ⟨fun off hge _ => rowAt_beyond_int hge, fun off hlt hres => ?_⟩
  have h := reserved_word hres
  exact ⟨h.peek_eq_zero, fun src narrow v d => regWrite_reserved src narrow v d h, fun s hb =>
    ⟨fun narrow => reservedRead_does narrow hb h, fun narrow v => reservedWrite_does narrow v hb hlt h⟩⟩

end Sys2Proof.Machine
end

section
/-!
PROOFS. The transmitter enables TXDISn: what the pins do, and that CHn_STATUS.TXDIS tells it after every step (R157, R400).
-/

namespace Sys2Proof.Machine

/-! ### The pins -/

/-- With no instruction of the test access port in force, TXDISn is the open-drain pin that `Dev.txOn` pulls low. -/
theorem pin_txdis {d : Dev} (n : Fin 4) (h : d.fld.tap = .none) : d.pin (.txdis n) = drainOf (d.txOn n) := by
  simp [Dev.pin, h, Dev.pinOwn]

theorem drainOf_eq_released (b : Bool) : drainOf b = .released ↔ b = false := by cases b <;> simp [drainOf]

/-- The three conditions of a transmitter that is enabled (R156, R157, R400). -/
theorem txOn_eq_true_iff (d : Dev) (n : Nat) :
    d.txOn n = true ↔ d.chRun n ≠ 0 ∧ d.txPermit n = true ∧ d.bitOf RAT_DOM_STATUS.LANE_ON n = true := by
  simp [Dev.txOn, and_assoc]

theorem txOn_of_laneOff {d : Dev} {n : Nat} (h : d.bitOf RAT_DOM_STATUS.LANE_ON n = false) : d.txOn n = false := by
  simp [Dev.txOn, h]

theorem txOn_of_barred {d : Dev} {n : Nat} (h : d.chRun n = 0 ∨ d.txPermit n = false) : d.txOn n = false := by
  obtain hrun | hpermit := h
  · simp [Dev.txOn, hrun]
  · simp [Dev.txOn, hpermit]

/-! ### What CHn_STATUS.TXDIS shows, and what leaves it true -/

/-- CHn_STATUS.TXDIS tells whether the transmitter of channel n is disabled. -/
def TxdisTells (n : Fin 4) (d : Dev) : Prop := d.on (CHn_STATUS.TXDIS n) = !d.txOn n

/-- The fields that `Dev.txOn` reads. -/
def txInputs (n : Nat) : List Field :=
  [CHn_STATUS.RUN n, CHn_STATUS.TX_FAULT n, CHn_MOD_CFG.IGNORE_ABS n, CHn_MOD_CFG.FORCE_TXDIS n, RAT_DOM_STATUS.LANE_ON]

/-- The fields that `TxdisTells` reads. -/
def txFields (n : Nat) : List Field := CHn_STATUS.TXDIS n :: txInputs n

/-- f shares no bit with the fields that `TxdisTells` of channel n reads. -/
def apartFromTx (n : Nat) (f : Field) : Bool := (txFields n).all fun g => Field.apart f g

/-- The fields of the INT block are not read. -/
theorem apartFromTx_of_int {f : Field} (n : Fin 4) (hf : f.off / 0x4000 = 32) : apartFromTx n f = true := by
  have hblock : ∀ n : Fin 4, ∀ g ∈ txFields n, g.off / 0x4000 ≠ 32 := by decide
  refine List.all_eq_true.mpr fun g hg => ?_
  have hoff : g.off ≠ f.off := fun e => hblock n g hg (e ▸ hf)
  simp [Field.apart, hoff]

/-- The conditions of R157 and R400 are read from the fields and from the channel's own state. -/
theorem txOn_congr {d e : Dev} {n : Nat} (hc : e.chan = d.chan) (h : ∀ g ∈ txInputs n, e.rd g = d.rd g) :
    e.txOn n = d.txOn n := by
  simp only [txInputs, List.forall_mem_cons, List.not_mem_nil, false_implies, implies_true, and_true] at h
  obtain ⟨hrun, hfault, habs, hforce, hlane⟩ := h
  simp only [Dev.txOn, Dev.chRun, Dev.txPermit, Dev.ch, Dev.on, Dev.bitOf, hc, hrun, hfault, habs, hforce, hlane]

section
variable {n : Fin 4} {d : Dev}

theorem TxdisTells.congr {e : Dev} (h : TxdisTells n d) (hc : e.chan = d.chan) (hr : ∀ g ∈ txFields n, e.rd g = d.rd g) :
    TxdisTells n e := by
  obtain ⟨hshown, hinputs⟩ := List.forall_mem_cons.mp hr
  rw [TxdisTells, Dev.on, hshown, txOn_congr hc hinputs]
  exact h

theorem TxdisTells.wr {f : Field} {v : Nat} (h : TxdisTells n d) (hf : apartFromTx n f = true) : TxdisTells n (d.wr f v) :=
  h.congr (wr_chan d f v) fun g hg => rd_wr_apart d f g v (List.all_eq_true.mp hf g hg)

theorem TxdisTells.msixSend {f v : Nat} (h : TxdisTells n d) : TxdisTells n (msixSend f v d) := by
  unfold Machine.msixSend
  dsimp only
  split_ifs
  · exact h
  · exact h
  · exact h

theorem TxdisTells.blockEvent {b : Nat} (h : TxdisTells n d) : TxdisTells n (blockEvent b d) := by
  have hset : TxdisTells n (d.putBitOf INT_FN0_STATUS.BLOCK b true) := h.wr (apartFromTx_of_int n (by decide))
  unfold Machine.blockEvent
  dsimp only
  split_ifs
  · exact h
  · exact hset
  · exact hset.msixSend

end

/-! ### Loops -/

theorem forN_succ (k : Nat) (f : Nat → Dev → Dev) (d : Dev) : forN (k + 1) f d = f k (forN k f d) := by
  simp [forN, List.range_succ]

/-- What every pass of a loop keeps, the loop keeps. -/
theorem forN_keeps {P : Dev → Prop} {f : Nat → Dev → Dev} (k : Nat) (hf : ∀ i < k, ∀ e, P e → P (f i e)) {d : Dev}
    (h : P d) : P (forN k f d) := by
  induction k with
  | zero => exact h
  | succ k ih => exact forN_succ k f d ▸ hf k (Nat.lt_succ_self k) _ (ih fun i hi => hf i (Nat.lt_succ_of_lt hi))

/-- What one pass of a loop brings about and every other keeps holds after the loop. -/
theorem forN_establishes {P : Dev → Prop} {f : Nat → Dev → Dev} {j k : Nat} (hj : j < k) (hset : ∀ e, P (f j e))
    (hf : ∀ i < k, i ≠ j → ∀ e, P e → P (f i e)) (d : Dev) : P (forN k f d) := by
  induction k with
  | zero => exact absurd hj (Nat.not_lt_zero j)
  | succ k ih =>
    rw [forN_succ]
    by_cases hk : k = j
    · exact hk ▸ hset _
    · exact hf k (Nat.lt_succ_self k) hk _ (ih (by omega) fun i hi => hf i (Nat.lt_succ_of_lt hi))

/-! ### What follows a command brings it about and keeps it -/

/-- Showing CHn_STATUS.TXDIS changes nothing that it shows. -/
theorem txdisShow_tells (n : Fin 4) (d : Dev) : TxdisTells n (txdisShow n d) := by
  have hapart : ∀ n : Fin 4, ∀ g ∈ txInputs n, Field.apart (CHn_STATUS.TXDIS n) g = true := by decide
  have hinputs : (txdisShow n d).txOn n = d.txOn n :=
    txOn_congr (wrB_chan d _ _) fun g hg => rd_wrB_apart d _ g _ (hapart n g hg)
  rw [TxdisTells, hinputs]
  exact on_wrB_same d (CHn_STATUS.TXDIS n) _ (by simp [CHn_STATUS.TXDIS]) (by simp [CHn_STATUS.TXDIS])

/-- CHm_STATUS.TXDIS of another channel. -/
theorem TxdisTells.txdisShow {n : Fin 4} {m : Nat} {d : Dev} (h : TxdisTells n d) (hm : m < 4) (hne : m ≠ n.val) :
    TxdisTells n (txdisShow m d) := by
  have hapart : ∀ n : Fin 4, ∀ m < 4, m ≠ n.val → apartFromTx n (CHn_STATUS.TXDIS m) = true := by decide
  exact h.wr (hapart n m hm hne)

section
variable {n : Fin 4} {d : Dev}

theorem TxdisTells.vfViews (h : TxdisTells n d) : TxdisTells n (vfViews d) := by
  refine forN_keeps 15 (fun k hk x hx => ?_) h
  have hview : (INT_VF_VIEWf.STATUS k).off / 0x4000 = 32 ∧ (INT_VF_VIEWf.MASK k).off / 0x4000 = 32 := by
    constructor <;> show (0x80104 + 0x4 * k) / 0x4000 = 32 <;> omega
  exact ((hx.wr (apartFromTx_of_int n hview.1)).wr (apartFromTx_of_int n hview.2)).wr (apartFromTx_of_int n (by decide))

theorem TxdisTells.faultUpdate (h : TxdisTells n d) : TxdisTells n (faultUpdate d) := by
  have hfault : ∀ n : Fin 4, apartFromTx n SHD_FAULT.FAULT = true := by decide
  have hnew : ∀ n : Fin 4, apartFromTx n SHD_FAULT_NEW.FAULT = true := by decide
  have hevent : ∀ n : Fin 4, apartFromTx n SHD_EVENT.FAULT_NEW = true := by decide
  unfold Machine.faultUpdate
  dsimp only
  split_ifs
  · exact h.wr (hfault n)
  · exact ((h.wr (hfault n)).wr (hnew n)).wr (hevent n)
  · exact h

theorem TxdisTells.intShow {old : Dev} (h : TxdisTells n d) : TxdisTells n (intShow old d) := by
  unfold Machine.intShow
  split_ifs
  · refine forN_keeps 21 (fun b _ x hx => ?_) h
    split_ifs
    · exact hx.blockEvent
    · exact hx
  · exact h

theorem TxdisTells.gpoUpdate (h : TxdisTells n d) : TxdisTells n (gpoUpdate d) := by
  have hgpo : ∀ n : Fin 4, apartFromTx n FLD_GPO.DRIVEN = true ∧ apartFromTx n FLD_GPO.LEVEL = true := by decide
  exact (h.wr (hgpo n).1).wr (hgpo n).2

theorem TxdisTells.chgUpdate (h : TxdisTells n d) : TxdisTells n (chgUpdate d) := by
  have hchg : ∀ n : Fin 4, apartFromTx n RAT_CHG.LEVEL = true ∧ apartFromTx n RAT_CHG.INHIBIT = true := by decide
  exact (h.wr (hchg n).1).wr (hchg n).2

end

theorem Kept.pd {d e : Dev} (h : Kept d e) (k : Nat) : e.pd k = d.pd k := by
  simp only [Dev.pd, Dev.bitOf, h.1 RAT_DOM_STATUS.PD_ON (by decide)]

/-- With PD1 on, the views of its registers are taken, CHn_STATUS.TXDIS of each channel among them. -/
theorem viewsShow_tells {d : Dev} (n : Fin 4) (hpd : d.pd 1 = true) : TxdisTells n (viewsShow d) := by
  have hsend : ∀ n : Fin 4, apartFromTx n LLB_STATUS.SENDING = true ∧ apartFromTx n DMA_STATUS.BUSY = true := by decide
  have hlimit : PMC_ADMIT_LIMIT.LIMIT ∈ shownList := by decide
  have hshown (x : Dev) : TxdisTells n (forN 4 txdisShow x) :=
    forN_establishes n.isLt (txdisShow_tells n) (fun m hm hne y hy => hy.txdisShow hm hne) x
  have hcrs : Kept d ((pegLanesShow d).wrB HIF_STATUS.CRS ((pegLanesShow d).pd 4 && !(pegLanesShow d).booted)) :=
    Kept.wr (by decide) (Kept.refl d).pegLanesShow
  unfold viewsShow
  dsimp only
  rw [if_pos ((Kept.iteB (Kept.wrL hlimit hcrs) hcrs).pd 1 ▸ hpd)]
  exact ((hshown _).wr (hsend n).1).vfViews.wr (hsend n).2

theorem settle_tells {old d : Dev} (n : Fin 4) (hpd : (settle old d).pd 1 = true) : TxdisTells n (settle old d) := by
  have hkept : Kept (mclkShow (refoutShow (runsShow old d))) (settle old d) :=
    (((((Kept.refl _).viewsShow).faultUpdate).intShow).gpoUpdate).chgUpdate
  exact (viewsShow_tells n (hkept.pd 1 ▸ hpd)).faultUpdate.intShow.gpoUpdate.chgUpdate

/-! ### Every step -/

/-- Every command is one effect on the device, settled. -/
theorem exec_eq_run (c : Instr) (s : State) : ∃ f : Dev → Dev, exec c s = s.run f := by
  cases c <;> exact ⟨_, rfl⟩

/-- So is every step. -/
theorem step_eq_run (s : State) : ∃ f : Dev → Dev, ∃ q : List Instr, step s = State.run { s with pending := q } f := by
  obtain ⟨dev, pending⟩ := s
  cases pending with
  | nil => exact ⟨_, [], rfl⟩
  | cons c rest =>
    obtain ⟨f, hf⟩ := exec_eq_run c ⟨dev, rest⟩
    exact ⟨f, rest, hf⟩

/-- The device after a step has settled. -/
theorem step_dev_settled {s t : State} (h : step s = .next t) : ∃ d : Dev, t.dev = settle s.dev d := by
  obtain ⟨f, q, hrun⟩ := step_eq_run s
  rw [hrun, State.run] at h
  cases h
  exact ⟨_, rfl⟩

/-- Settles O50: the pin follows `Dev.txOn`, and so does CHn_STATUS.TXDIS wherever a step ends with PD1 on. -/
theorem txdisReleased : Obligations.TxdisReleased := by
  refine ⟨fun d n htap => ?pins, fun s t n hstep hpd htap => ?view⟩
  case pins =>
    rw [pin_txdis n htap, drainOf_eq_released]
    refine ⟨txOn_of_laneOff, txOn_of_barred, fun hlane hrun hpermit => ?_⟩
    rw [(txOn_eq_true_iff d n).mpr ⟨hrun, hpermit, hlane⟩]
    rfl
  case view =>
    obtain ⟨d, hd⟩ := step_dev_settled hstep
    have htells : TxdisTells n t.dev := hd ▸ settle_tells n (hd ▸ hpd)
    rw [htells, pin_txdis n htap, drainOf_eq_released, Bool.not_eq_true']

end Sys2Proof.Machine
end

section
/-!
PROOFS. What an operation leaves alone: fields that stand while others are written, for the operations on functions, rings and
packet memory that a reset of the host interface shares with other commands.
-/

namespace Sys2Proof.Machine

/-! ### Fields that stand -/

/-- From d to e the fields that P names stand, and so does the retention SRAM. -/
def Stands (P : Field → Prop) (d e : Dev) : Prop := (∀ g, P g → e.rd g = d.rd g) ∧ e.sram = d.sram

/-- A write of f moves no field that P names. -/
def Free (P : Field → Prop) (f : Field) : Prop := ∀ g, P g → Field.apart f g = true

/-- Fields outside some blocks of registers (Table 19.1). -/
abbrev Outside (bs : List Nat) (g : Field) : Prop := bs.contains (g.off / 0x4000) = false

/-- Fields that share no bit with those of a list. -/
abbrev Beside (fs : List Field) (g : Field) : Prop := ∀ f ∈ fs, Field.apart f g = true

theorem apart_of_off {f g : Field} (h : g.off ≠ f.off) : Field.apart f g = true := by simp [Field.apart, h]

theorem Free.inBlock {bs : List Nat} {f : Field} (h : f.off / 0x4000 ∈ bs) : Free (Outside bs) f := by
  intro g hg
  refine apart_of_off fun e => ?_
  simp [Outside, e, h] at hg

theorem Free.listed {fs : List Field} {f : Field} (h : f ∈ fs) : Free (Beside fs) f := fun _ hg => hg f h

theorem free_inBlocks {fs : List Field} {bs : List Nat} (h : (fs.all fun f => bs.contains (f.off / 0x4000)) = true) :
    ∀ f ∈ fs, Free (Outside bs) f := fun f hf => Free.inBlock (by simpa using List.all_eq_true.mp h f hf)

theorem free_listed {fs gs : List Field} (h : fs ⊆ gs) : ∀ f ∈ fs, Free (Beside gs) f := fun _ hf => Free.listed (h hf)

section
variable {P : Field → Prop} {d e : Dev}

theorem Stands.refl (P : Field → Prop) (d : Dev) : Stands P d d := ⟨fun _ _ => rfl, rfl⟩

theorem Stands.trans {g : Dev} (h1 : Stands P d e) (h2 : Stands P e g) : Stands P d g :=
  ⟨fun f hf => (h2.1 f hf).trans (h1.1 f hf), h2.2.trans h1.2⟩

theorem Stands.rd (h : Stands P d e) {g : Field} (hg : P g) : e.rd g = d.rd g := h.1 g hg

theorem Stands.on (h : Stands P d e) {g : Field} (hg : P g) : e.on g = d.on g := by simp [Dev.on, h.rd hg]

theorem Stands.within {bs : List Nat} (h : Stands (Outside bs) d e) : Within d e bs := h.1

theorem Stands.only {fs : List Field} (h : Stands (Beside fs) d e) : Only d e fs := h.1

/-- A change of the parts beyond the registers and the retention SRAM. -/
theorem Stands.parts {x : Dev} (h : Stands P d e) (hr : x.regs = e.regs) (hs : x.sram = e.sram) : Stands P d x :=
  ⟨fun g hg => by rw [← h.1 g hg, rd_eq, rd_eq, hr], hs.trans h.2⟩

theorem Stands.hostMod {f : HostIf → HostIf} (h : Stands P d e) : Stands P d (e.hostMod f) := h.parts rfl rfl

theorem Stands.fnMod {f : Nat} {g : Fn → Fn} (h : Stands P d e) : Stands P d (e.fnMod f g) := h.parts rfl rfl

theorem Stands.ringMod {r : Nat} {f : Ring → Ring} (h : Stands P d e) : Stands P d (e.ringMod r f) := h.parts rfl rfl

theorem Stands.pmMod {f : Pmem → Pmem} (h : Stands P d e) : Stands P d (e.pmMod f) := h.parts rfl rfl

theorem Stands.cmpMod {f : Cmp → Cmp} (h : Stands P d e) : Stands P d (e.cmpMod f) := h.parts rfl rfl

theorem Stands.chMod {n : Nat} {f : Chan → Chan} (h : Stands P d e) : Stands P d (e.chMod n f) := h.parts rfl rfl

theorem Stands.emit {o : Out} (h : Stands P d e) : Stands P d (e.emit o) := h.parts rfl rfl

theorem Stands.wr {f : Field} {v : Nat} (h : Stands P d e) (hf : Free P f) : Stands P d (e.wr f v) :=
  ⟨fun g hg => (rd_wr_apart e f g v (hf g hg)).trans (h.1 g hg), h.2⟩

theorem Stands.wrB {f : Field} {b : Bool} (h : Stands P d e) (hf : Free P f) : Stands P d (e.wrB f b) := h.wr hf

theorem Stands.ev {f : Field} (h : Stands P d e) (hf : Free P f) : Stands P d (e.ev f) := h.wr hf

theorem Stands.sat {f : Field} {n : Nat} (h : Stands P d e) (hf : Free P f) : Stands P d (e.sat f n) := h.wr hf

theorem Stands.evIf {f : Field} {c : Bool} (h : Stands P d e) (hf : Free P f) : Stands P d (e.evIf c f) := by
  cases c
  · exact h
  · exact h.ev hf

theorem Stands.putBitOf {f : Field} {n : Nat} {b : Bool} (h : Stands P d e) (hf : Free P f) :
    Stands P d (e.putBitOf f n b) := h.wr hf

theorem Stands.ite {c : Prop} [Decidable c] {x y : Dev} (hx : Stands P d x) (hy : Stands P d y) :
    Stands P d (if c then x else y) := by
  split
  · exact hx
  · exact hy

theorem Stands.foldl {α : Type} {f : Dev → α → Dev} (l : List α) (h : Stands P d e)
    (hf : ∀ a ∈ l, ∀ x, Stands P d x → Stands P d (f x a)) : Stands P d (l.foldl f e) := by
  induction l generalizing e with
  | nil => exact h
  | cons a l ih => exact ih (hf a (by simp) e h) fun b hb => hf b (List.mem_cons_of_mem _ hb)

theorem Stands.forN {n : Nat} {f : Nat → Dev → Dev} (h : Stands P d e)
    (hf : ∀ k < n, ∀ x, Stands P d x → Stands P d (f k x)) : Stands P d (forN n f e) :=
  h.foldl (List.range n) fun a ha x hx => hf a (by simpa using ha) x hx

/-! ### Packet memory and its purge -/

/-- What the bookkeeping of packet memory writes (R160, R228, R386). -/
def pmemFields : List Field :=
  [SHD_RETIRED.COUNT, SHD_RETIRED.LAST, SHD_RETIRED.OVER, SHD_EVENT.RETIRE, PMC_FREE_CELLS.CELLS, PMC_BE_CELLS.CELLS,
    PMC_EVENT.BE_XOFF]

theorem Stands.retireCell {k : Nat} (h : Stands P d e) (hP : ∀ f ∈ pmemFields, Free P f) : Stands P d (retireCell k e) := by
  simp only [pmemFields, List.forall_mem_cons] at hP
  obtain ⟨hcount, hlast, hover, hretire, -⟩ := hP
  unfold Machine.retireCell
  exact Stands.ite (Stands.ev (Stands.wr (Stands.wr h.pmMod.pmMod hcount) hlast) hretire) (Stands.wrB h.pmMod hover)

theorem Stands.retireWorn (h : Stands P d e) (hP : ∀ f ∈ pmemFields, Free P f) : Stands P d (retireWorn e) := by
  unfold Machine.retireWorn
  exact Stands.ite (h.foldl _ fun _ _ _ hx => hx.retireCell hP) h

theorem Stands.pmemSync (h : Stands P d e) (hP : ∀ f ∈ pmemFields, Free P f) : Stands P d (pmemSync e) := by
  have hcells (x : Dev) (a b : Nat) (hx : Stands P d x) :
      Stands P d ((x.wr PMC_FREE_CELLS.CELLS a).wr PMC_BE_CELLS.CELLS b) :=
    (hx.wr (hP _ (by decide))).wr (hP _ (by decide))
  have hworn (p : Pmem → Pmem) : Stands P d (Machine.retireWorn (e.pmMod p)) := Stands.retireWorn h.pmMod hP
  unfold Machine.pmemSync
  exact Stands.ite (Stands.pmMod (Stands.ev (Stands.pmMod (hcells _ _ _ (hworn _))) (hP _ (by decide))))
    (Stands.ite (Stands.pmMod (Stands.pmMod (hcells _ _ _ (hworn _)))) (Stands.pmMod (hcells _ _ _ (hworn _))))

/-- What a purge writes (R120). -/
def purgeFields : List Field := HIF_KENNEL_DROP.FRAMES :: pmemFields

theorem Stands.purgeFrames {f : Nat} {xs : List Frm} (h : Stands P d e) (hP : ∀ g ∈ purgeFields, Free P g) :
    Stands P d (purgeFrames f xs e) := by
  obtain ⟨hdrop, hpm⟩ := List.forall_mem_cons.mp hP
  have hcount (x : Dev) (n : Nat) (hx : Stands P d x) : Stands P d (x.sat HIF_KENNEL_DROP.FRAMES n) := hx.sat hdrop
  unfold Machine.purgeFrames
  exact Stands.pmemSync (hcount _ _ h.pmMod) hpm

/-! ### Functions -/

/-- What the counts of reads and descriptors are shown in. -/
def tagFields : List Field := [HIF_TAGS.READS_OUT, HIF_TAGS.ORPHANS, HIF_DESC_INFLIGHT.COUNT]

theorem Stands.tagSync (h : Stands P d e) (hP : ∀ f ∈ tagFields, Free P f) : Stands P d (tagSync e) := by
  simp only [tagFields, List.forall_mem_cons, List.not_mem_nil, false_implies, implies_true, and_true] at hP
  obtain ⟨hreads, horphans, hcount⟩ := hP
  exact ((h.wr hreads).wr horphans).wr hcount

/-- The state of a function (Table 5.6). -/
def stateFields : List Field := [HIF_VF_STATE.PF0, HIF_VF_STATE.VF]

theorem Stands.setFnState {f v : Nat} (h : Stands P d e) (hP : ∀ f ∈ stateFields, Free P f) :
    Stands P d (setFnState f v e) := by
  unfold Machine.setFnState
  exact Stands.ite (h.wr (hP _ (by decide))) (h.wr (hP _ (by decide)))

theorem Stands.cfgDefault {f : Nat} (h : Stands P d e) (hP : Free P HIF_STATUS.PF0_DSTATE) : Stands P d (cfgDefault f e) := by
  unfold Machine.cfgDefault
  exact Stands.ite (Stands.wr h.fnMod.hostMod hP) h.fnMod

/-- What the compression engine shows of its contexts and its job. -/
def cmpFields : List Field :=
  [CMP_CTX_STATE.STATE, CMP_STATUS.BUSY, CMP_STATUS.CUR_CTX, CMP_STATUS.CUR_FN, CMP_EVENT.CTX_LOST]

theorem Stands.cmpSync (h : Stands P d e) (hP : ∀ f ∈ cmpFields, Free P f) : Stands P d (cmpSync e) := by
  have hstatus (x : Dev) (b : Bool) (c f : Nat) (hx : Stands P d x) :
      Stands P d (((x.wrB CMP_STATUS.BUSY b).wr CMP_STATUS.CUR_CTX c).wr CMP_STATUS.CUR_FN f) :=
    ((hx.wrB (hP _ (by decide))).wr (hP _ (by decide))).wr (hP _ (by decide))
  have hctx (n : Nat) : Stands P d (e.wr CMP_CTX_STATE.STATE n) := h.wr (hP _ (by decide))
  unfold Machine.cmpSync
  dsimp only
  split <;> exact hstatus _ _ _ _ (hctx _)

theorem Stands.cmpEmpty {sel : Nat → Bool} (h : Stands P d e) (hP : ∀ f ∈ cmpFields, Free P f) :
    Stands P d (cmpEmpty sel e) := by
  unfold Machine.cmpEmpty
  exact Stands.cmpSync (Stands.evIf h.cmpMod (hP _ (by decide))) hP

theorem Stands.cmpKennel {p : Nat → Bool} (h : Stands P d e) (hP : ∀ f ∈ cmpFields, Free P f) :
    Stands P d (cmpKennel p e) := by
  unfold Machine.cmpKennel
  exact Stands.cmpEmpty (Stands.ite (c := e.cmpDraining p = true) h.cmpMod h) hP

/-- What the entry of a function into the Kennel writes (R118, R119). -/
def kennelFields : List Field :=
  (List.range 4).map HIF_EPOCHk.EPOCH ++ HIF_STATUS.PF0_DSTATE :: (stateFields ++ tagFields ++ purgeFields ++ cmpFields)

theorem Stands.purgeRings {f : Nat} (h : Stands P d e) (hP : ∀ g ∈ purgeFields, Free P g) : Stands P d (purgeRings f e) :=
  Stands.purgeFrames (h.foldl _ fun _ _ _ hx => hx.ringMod) hP

theorem Stands.purgeQueues {f : Nat} (h : Stands P d e) (hP : ∀ g ∈ purgeFields, Free P g) :
    Stands P d (purgeQueues f e) := Stands.purgeFrames (h.parts rfl rfl) hP

theorem Stands.purgePeg {f : Nat} {mine : List Nat} (h : Stands P d e) (hP : ∀ g ∈ purgeFields, Free P g) :
    Stands P d (purgePeg f mine e) := Stands.purgeFrames (h.parts rfl rfl) hP

theorem Stands.orphanReads {f : Nat} (h : Stands P d e) (hP : ∀ g ∈ tagFields, Free P g) :
    Stands P d (orphanReads f e) := Stands.tagSync h.hostMod hP

theorem Stands.kennelOne {f c : Nat} {all : Bool} (h : Stands P d e) (hf : f < 16) (hP : ∀ g ∈ kennelFields, Free P g) :
    Stands P d (kennelOne f c all e) := by
  simp only [kennelFields, List.forall_mem_cons, List.forall_mem_append] at hP
  obtain ⟨hepochs, hdstate, ⟨⟨hstate, htag⟩, hpurge⟩, hcmp⟩ := hP
  have hepoch : Free P (HIF_EPOCHk.EPOCH (f / 4)) :=
    hepochs _ (List.mem_map_of_mem (List.mem_range.mpr (by omega)))
  have hentered : Stands P d (Machine.setFnState f 2 (Machine.bumpEpoch f e)) := Stands.setFnState (h.wr hepoch) hstate
  have hgone (x : Dev) (hx : Stands P d x) :
      Stands P d (Machine.purgeRings f (Machine.purgeQueues f (Machine.orphanReads f x))) :=
    ((hx.orphanReads htag).purgeQueues hpurge).purgeRings hpurge
  unfold Machine.kennelOne
  refine Stands.ite (Stands.tagSync (Stands.cmpKennel (Stands.purgePeg (Stands.fnMod (hgone _ ?_)) hpurge) hcmp) htag) h
  exact Stands.fnMod (Stands.fnMod (Stands.ite hentered (hentered.cfgDefault hdstate)))

theorem Stands.kennelAll {c : Nat} (h : Stands P d e) (hP : ∀ g ∈ HIF_KENNEL_CNT.CAUSES :: kennelFields, Free P g) :
    Stands P d (kennelAll c e) := by
  obtain ⟨hcauses, hkennel⟩ := List.forall_mem_cons.mp hP
  unfold Machine.kennelAll
  exact Stands.forN (h.sat hcauses) fun f hf x hx => hx.kennelOne hf hkennel

/-- What clearing VF Enable writes (Table 5.6). -/
def vfOffFields : List Field := HIF_STATUS.VF_ENABLE :: HIF_STATUS.NUMVFS :: HIF_EVENT.VF_ENABLE_CHG :: kennelFields

theorem kennelFields_state {g : Field} (hg : g ∈ stateFields) : g ∈ kennelFields := by
  simp only [kennelFields, List.mem_append, List.mem_cons]
  tauto

theorem Stands.vfEnableOff {c : Nat} {all : Bool} (h : Stands P d e) (hP : ∀ g ∈ vfOffFields, Free P g) :
    Stands P d (vfEnableOff c all e) := by
  simp only [vfOffFields, List.forall_mem_cons] at hP
  obtain ⟨henable, hnum, hchg, hkennel⟩ := hP
  unfold Machine.vfEnableOff
  refine Stands.forN (Stands.evIf ((h.wrB henable).wr hnum) hchg) fun k hk x hx => Stands.ite ?_ ?_
  · exact hx.setFnState fun g hg => hkennel g (kennelFields_state hg)
  · exact hx.kennelOne (by omega) hkennel

/-- What a conventional reset writes (R109, Table 5.8). -/
def convFields : List Field :=
  INT_FN0_MASK.MASK :: HIF_STATUS.DL_UP :: HIF_STATUS.SPEED :: HIF_STATUS.WIDTH :: HIF_EVENT.LINK_DOWN ::
    HIF_KENNEL_CNT.CAUSES :: ((List.range 6).map INT_FN0_VECk.VEC ++ vfOffFields)

theorem Stands.convReset (h : Stands P d e) (hP : ∀ g ∈ convFields, Free P g) : Stands P d (convReset e) := by
  simp only [convFields, List.forall_mem_cons, List.forall_mem_append] at hP
  obtain ⟨hmask, hup, hspeed, hwidth, hdown, hcauses, hvec, hoff⟩ := hP
  have hkennel : ∀ g ∈ kennelFields, Free P g := fun g hg =>
    hoff g (List.mem_cons_of_mem _ (List.mem_cons_of_mem _ (List.mem_cons_of_mem _ hg)))
  unfold Machine.convReset Machine.intReset Machine.allFnClear Machine.linkOff
  refine Stands.forN (Stands.wr (Stands.forN (Stands.cfgDefault (Stands.vfEnableOff (Stands.kennelAll
    (Stands.evIf (((h.wrB hup).wr hspeed).wr hwidth) hdown) (List.forall_mem_cons.mpr ⟨hcauses, hkennel⟩)) hoff)
    (hkennel _ (by decide))) ?_) hmask) fun k hk x hx => ?_
  · exact fun f _ x hx => hx.fnMod.fnMod
  · exact hx.wr (hvec _ (List.mem_map_of_mem (List.mem_range.mpr hk)))

/-- What a stop of REFOUT writes (R28, R109). -/
def refoutFields : List Field := HIF_STATUS.REFOUT_READY :: convFields

theorem Stands.refoutLost (h : Stands P d e) (hP : ∀ g ∈ refoutFields, Free P g) : Stands P d (refoutLost e) := by
  obtain ⟨hready, hconv⟩ := List.forall_mem_cons.mp hP
  have hstop : Stands P d ((e.wrB HIF_STATUS.REFOUT_READY false).hostMod fun x => { x with refFr := 0 }) :=
    (h.wrB hready).hostMod
  unfold Machine.refoutLost
  exact Stands.ite (Stands.hostMod (hstop.convReset hconv)) hstop

/-! ### Block interrupts (R116) -/

theorem Stands.msixSend {f v : Nat} (h : Stands P d e) : Stands P d (msixSend f v e) := by
  unfold Machine.msixSend
  exact Stands.ite (Stands.ite h.fnMod h.emit) h

theorem Stands.blockEvent {b : Nat} (h : Stands P d e) (hP : Free P INT_FN0_STATUS.BLOCK) :
    Stands P d (blockEvent b e) := by
  unfold Machine.blockEvent
  exact Stands.ite h (Stands.ite (h.putBitOf hP) (Stands.msixSend (h.putBitOf hP)))

theorem Stands.intShow {old : Dev} (h : Stands P d e) (hP : Free P INT_FN0_STATUS.BLOCK) : Stands P d (intShow old e) := by
  unfold Machine.intShow
  exact Stands.ite (h.forN fun b _ x hx => Stands.ite (hx.blockEvent hP) hx) h

end

end Sys2Proof.Machine
end

section
/-!
PROOFS. The outputs that are a function of the state follow it at reset and after every step (R28, R73, R368), and so does
SHD_FAULT (R389).
-/

namespace Sys2Proof.Machine

/-! ### What settling shows stays shown -/

theorem gpoUpdate_follows (d : Dev) : (gpoUpdate d).relaysFollow := by
  have hdriven : (gpoUpdate d).on FLD_GPO.DRIVEN = (d.holds && !d.boot.asserted) := by
    rw [gpoUpdate, on_wr_apart _ _ _ _ (by decide)]
    exact on_wrB_same d FLD_GPO.DRIVEN _ (by decide) (by decide)
  have hlevel : (gpoUpdate d).rd FLD_GPO.LEVEL = (if d.holds && !d.boot.asserted then 255 ^^^ d.rd FLD_GPO.OUT else 255) := by
    have hout : d.rd FLD_GPO.OUT < 2 ^ 8 := bits_lt _ _ _
    have hfits : (if d.holds && !d.boot.asserted then 255 ^^^ d.rd FLD_GPO.OUT else 255) < 2 ^ 8 := by
      split
      · exact Nat.xor_lt_two_pow (by decide) hout
      · decide
    rw [gpoUpdate, rd_wr_same _ _ _ (by decide)]
    exact Nat.mod_eq_of_lt hfits
  have hout : (gpoUpdate d).rd FLD_GPO.OUT = d.rd FLD_GPO.OUT := by
    rw [gpoUpdate, rd_wr_apart _ _ _ _ (by decide), rd_wrB_apart _ _ _ _ (by decide)]
  have hholds : (gpoUpdate d).holds = d.holds := by
    simp only [Dev.holds, gpoUpdate, rd_wr_apart _ FLD_GPO.LEVEL LSH_STATUS.STATE _ (by decide),
      rd_wrB_apart _ FLD_GPO.DRIVEN LSH_STATUS.STATE _ (by decide)]
  exact ⟨hdriven.trans (by rw [hholds]; rfl), hlevel.trans (by rw [hholds, hout]; rfl)⟩

/-- The charger is shown in one register. -/
theorem chgUpdate_word (d : Dev) {o : Nat} (h : o ≠ RAT_CHG.addr) : (chgUpdate d).word o = d.word o := by
  rw [chgUpdate, word_wr_ne _ _ _ _ h, Dev.wrB, word_wr_ne _ _ _ _ h]

theorem chgUpdate_rd (d : Dev) {g : Field} (h : g.off ≠ RAT_CHG.addr) : (chgUpdate d).rd g = d.rd g := by
  rw [Dev.rd, chgUpdate_word d h]
  rfl

theorem chgUpdate_relaysFollow {d : Dev} (h : d.relaysFollow) : (chgUpdate d).relaysFollow := by
  have hboot : (chgUpdate d).boot = d.boot := rfl
  simp only [Dev.relaysFollow, Dev.on, Dev.holds, chgUpdate_rd d (g := FLD_GPO.DRIVEN) (by decide),
    chgUpdate_rd d (g := FLD_GPO.LEVEL) (by decide), chgUpdate_rd d (g := FLD_GPO.OUT) (by decide),
    chgUpdate_rd d (g := LSH_STATUS.STATE) (by decide), hboot]
  exact h

theorem chgUpdate_follows (d : Dev) : (chgUpdate d).chargerFollows := by
  have hen : (chgUpdate d).on RAT_CHG.EN = d.on RAT_CHG.EN := by
    rw [chgUpdate, on_wr_apart _ _ _ _ (by decide), on_wrB_apart _ _ _ _ (by decide)]
  have hloss : (chgUpdate d).ratOn RAT_STATUS.LOSS = d.ratOn RAT_STATUS.LOSS := by
    have hrat : (chgUpdate d).rat = d.rat := rfl
    rw [Dev.ratOn, Dev.ratGet, Dev.ratWord, hrat, chgUpdate_word d (by decide)]
    rfl
  have hsag : (chgUpdate d).sagOn = d.sagOn := by
    rw [Dev.sagOn, chgUpdate_rd d (by decide)]
    rfl
  have hlevel : (chgUpdate d).on RAT_CHG.LEVEL =
      (d.on RAT_CHG.EN && !d.ratOn RAT_STATUS.LOSS && !d.sagOn && !(d.boot.asserted && d.boot.kind != some .warm)) := by
    rw [chgUpdate, on_wr_apart _ _ _ _ (by decide)]
    exact on_wrB_same d _ _ (by decide) (by decide)
  have hinhibit : (chgUpdate d).rd RAT_CHG.INHIBIT =
      (if d.ratOn RAT_STATUS.LOSS then 1 else 0) + (if d.sagOn then 2 else 0) + (if d.on RAT_CHG.EN then 0 else 4) := by
    rw [chgUpdate, rd_wr_same _ _ _ (by decide)]
    refine Nat.mod_eq_of_lt ?_
    show _ < 8
    split_ifs <;> decide
  exact ⟨by rw [hlevel, hen, hloss, hsag]; rfl, by rw [hinhibit, hen, hloss, hsag]⟩

theorem refoutShow_on (d : Dev) : (refoutShow d).on CLK_STATUS.REFOUT_ON = d.refoutRuns := by
  have hset : (d.wrB CLK_STATUS.REFOUT_ON d.refoutRuns).on CLK_STATUS.REFOUT_ON = d.refoutRuns :=
    on_wrB_same d _ _ (by decide) (by decide)
  have hlost : Stands (Outside [5, 6, 16, 18, 21, 26, 32]) (d.wrB CLK_STATUS.REFOUT_ON d.refoutRuns)
      (refoutLost (d.wrB CLK_STATUS.REFOUT_ON d.refoutRuns)) :=
    (Stands.refl _ _).refoutLost (free_inBlocks (by decide))
  unfold refoutShow
  dsimp only
  split
  · exact (hlost.on (g := CLK_STATUS.REFOUT_ON) (by unfold Outside; decide)).trans hset
  · exact hset

section
variable {P : Field → Prop} {d e : Dev}

/-- The fields of the views (R88, R116, R256, R324, R400). -/
def viewFields : List Field :=
  [RAT_DOM_STATUS.PEG_LANES_ON, CLK_STATUS.PEG_LANE_LOCK, HIF_STATUS.CRS, PMC_ADMIT_LIMIT.LIMIT, LLB_STATUS.SENDING,
    INT_VF_SUM.PENDING, DMA_STATUS.BUSY] ++ (List.range 4).map CHn_STATUS.TXDIS ++
    (List.range 15).map INT_VF_VIEWf.STATUS ++ (List.range 15).map INT_VF_VIEWf.MASK

theorem Stands.viewsShow (h : Stands P d e) (hP : ∀ f ∈ viewFields, Free P f) : Stands P d (viewsShow e) := by
  simp only [viewFields, List.forall_mem_append, List.forall_mem_cons] at hP
  obtain ⟨⟨⟨⟨hlanes, hlock, hcrs, hlimit, hsend, hsum, hbusy, -⟩, htxdis⟩, hstatus⟩, hmask⟩ := hP
  have hviews (x : Dev) (hx : Stands P d x) : Stands P d (vfViews x) := hx.forN fun k hk y hy =>
    ((hy.wr (hstatus _ (List.mem_map_of_mem (List.mem_range.mpr hk)))).wr
      (hmask _ (List.mem_map_of_mem (List.mem_range.mpr hk)))).putBitOf hsum
  have htx (x : Dev) (hx : Stands P d x) : Stands P d (Machine.forN 4 txdisShow x) := hx.forN fun k hk y hy =>
    hy.wrB (htxdis _ (List.mem_map_of_mem (List.mem_range.mpr hk)))
  have hhead : Stands P d ((pegLanesShow e).wrB HIF_STATUS.CRS ((pegLanesShow e).pd 4 && !(pegLanesShow e).booted)) :=
    ((h.wrB hlanes).wrB hlock).wrB hcrs
  have hadmit (x : Dev) (n : Nat) (hx : Stands P d x) : Stands P d (if x.pd 2 then x.wr PMC_ADMIT_LIMIT.LIMIT n else x) :=
    Stands.ite (hx.wr hlimit) hx
  unfold Machine.viewsShow
  exact Stands.ite (Stands.wrB (hviews _ (Stands.wrB (htx _ (hadmit _ _ hhead)) hsend)) hbusy) (hadmit _ _ hhead)

theorem Stands.faultUpdate (h : Stands P d e)
    (hP : ∀ f ∈ [SHD_FAULT.FAULT, SHD_FAULT_NEW.FAULT, SHD_EVENT.FAULT_NEW], Free P f) : Stands P d (faultUpdate e) := by
  simp only [List.forall_mem_cons] at hP
  obtain ⟨hfault, hnew, hevent, -⟩ := hP
  unfold Machine.faultUpdate
  exact Stands.ite (Stands.ite (h.wr hfault) (Stands.ev (Stands.wr (h.wr hfault) hnew) hevent)) h

theorem Stands.gpoUpdate (h : Stands P d e) (hdriven : Free P FLD_GPO.DRIVEN) (hlevel : Free P FLD_GPO.LEVEL) :
    Stands P d (gpoUpdate e) := (h.wrB hdriven).wr hlevel

theorem Stands.chgUpdate (h : Stands P d e) (hlevel : Free P RAT_CHG.LEVEL) (hinhibit : Free P RAT_CHG.INHIBIT) :
    Stands P d (chgUpdate e) := (h.wrB hlevel).wr hinhibit

end

/-- What follows REFOUT in a command leaves what REFOUT_ON shows. -/
theorem settle_refoutOn (old d : Dev) :
    (settle old d).on CLK_STATUS.REFOUT_ON = (refoutShow (runsShow old d)).on CLK_STATUS.REFOUT_ON := by
  have hfree {f : Field} (hf : Field.apart f CLK_STATUS.REFOUT_ON = true) : Free (· = CLK_STATUS.REFOUT_ON) f :=
    fun g hg => hg ▸ hf
  have hviews : ∀ f ∈ viewFields, Field.apart f CLK_STATUS.REFOUT_ON = true := by decide
  have hfault : ∀ f ∈ [SHD_FAULT.FAULT, SHD_FAULT_NEW.FAULT, SHD_EVENT.FAULT_NEW],
      Field.apart f CLK_STATUS.REFOUT_ON = true := by decide
  have hmclk : Stands (· = CLK_STATUS.REFOUT_ON) (refoutShow (runsShow old d)) (mclkShow (refoutShow (runsShow old d))) :=
    (Stands.refl _ _).wr (hfree (by decide))
  exact (((((hmclk.viewsShow fun f hf => hfree (hviews f hf)).faultUpdate fun f hf => hfree (hfault f hf)).intShow
    (hfree (by decide))).gpoUpdate (hfree (by decide)) (hfree (by decide))).chgUpdate (hfree (by decide))
    (hfree (by decide))).on rfl

theorem Kept.refoutRuns {d e : Dev} (h : Kept d e) : e.refoutRuns = d.refoutRuns := by
  have hpd := h.pd 4
  obtain ⟨hrd, -, -, -, -, -, hboot, -⟩ := h
  rw [Dev.refoutRuns, Dev.on, hrd CLK_CTRL.REFOUT_EN (by decide), hpd, hboot]
  rfl

/-- A device that has settled meets the conditions of its outputs. -/
theorem settle_settled (old d : Dev) : (settle old d).settled := by
  refine ⟨chgUpdate_relaysFollow (gpoUpdate_follows _), chgUpdate_follows _, ?_⟩
  have hkept : Kept (runsShow old d) (settle old d) :=
    (((((((Kept.refl _).refoutShow).mclkShow).viewsShow).faultUpdate).intShow).gpoUpdate).chgUpdate
  rw [Dev.refoutFollows, settle_refoutOn, refoutShow_on, hkept.refoutRuns]

/-- Settles O55. -/
theorem settledAtReset : Obligations.SettledAtReset := by
  refine ⟨⟨?_, ?_⟩, ⟨?_, ?_⟩, (?_ : _ = _)⟩ <;> decide

/-- Settles O56: whatever the command did, the device has settled after it. -/
theorem settledAfterEveryStep : Obligations.SettledAfterEveryStep := by
  intro s t _ hstep
  obtain ⟨d, hd⟩ := step_dev_settled hstep
  exact hd ▸ settle_settled s.dev d

/-! ### SHD_FAULT (R389) -/

/-- The registers that settling writes from SHD_FAULT on. -/
def shownLast : List Nat :=
  [SHD_FAULT.addr, SHD_FAULT_NEW.addr, SHD_EVENT.addr, INT_FN0_STATUS.addr, FLD_GPO.addr, RAT_CHG.addr]

theorem faultWord_congr {d e : Dev} (hw : ∀ o, o ∉ shownLast → e.word o = d.word o) (hrat : e.rat = d.rat)
    (hshd : e.shd = d.shd) (hlsh : e.lsh = d.lsh) : e.faultWord = d.faultWord := by
  have hrd {g : Field} (hg : g.off ∉ shownLast) : e.rd g = d.rd g := by rw [Dev.rd, hw _ hg]; rfl
  have hch : ∀ n < 4, (CHn_STATUS.RUN n).off ∉ shownLast ∧ (CHn_STATUS.LINK n).off ∉ shownLast ∧
      (CHn_STATUS.FENCED n).off ∉ shownLast := by decide
  have hlong (n : Nat) (hn : n < 4) : e.longDown n = d.longDown n := by
    obtain ⟨hrun, hlink, hfenced⟩ := hch n hn
    simp only [Dev.longDown, Dev.chRun, Dev.fenced, Dev.on, hrd hrun, hrd hlink, hrd hfenced, hshd]
  have hcause (n : Nat) : e.faultFence n = d.faultFence n := by
    simp only [Dev.faultFence, Dev.causes, hrd (g := SHD_FENCE_STAT.CH) (by decide)]
  have hrange : (List.range 4).map (fun n => 2 ^ (2 + n) * b2n (e.faultFence n) + 2 ^ (6 + n) * b2n (e.longDown n)) =
      (List.range 4).map fun n => 2 ^ (2 + n) * b2n (d.faultFence n) + 2 ^ (6 + n) * b2n (d.longDown n) :=
    List.map_congr_left fun n hn => by rw [hcause, hlong n (List.mem_range.mp hn)]
  have hstatus : e.ratWord = d.ratWord := by rw [Dev.ratWord, hrat, hw _ (by decide)]; rfl
  have hline : e.lineFaulty = d.lineFaulty := by
    simp only [Dev.lineFaulty, Dev.guardFr, Dev.on, hlsh, hrd (g := LSH_STATUS.HOLD_IN) (by decide),
      hrd (g := LSH_CFG.GUARD_FR) (by decide)]
    rfl
  have hdual : e.dualHeld = d.dualHeld := by
    simp only [Dev.dualHeld, Dev.lst, Dev.peerPresent, Dev.on, hlsh, hrd (g := LSH_STATUS.HOLD_IN) (by decide),
      hrd (g := LSH_STATUS.STATE) (by decide), hrd (g := LSH_STATUS.PEER_HOLDING) (by decide)]
  simp only [Dev.faultWord, hrange, hline, hdual, hlsh, hshd, hstatus, Dev.valid, Dev.on, Dev.pegNoSync, Dev.pegLost, Dev.memWear,
    Dev.ratGet, Dev.ratOn, hrd (g := HRT_STATUS.VALID) (by decide), hrd (g := CLK_STATUS.XREF_LOST) (by decide),
    hrd (g := PEG_SYNC_STATUS.LONE_FAULT) (by decide), hrd (g := PEG_SYNC_STATUS.WEAK) (by decide),
    hrd (g := PEG_SYNC_STATUS.STATE) (by decide), hrd (g := PEG_STATUS.RUN) (by decide),
    hrd (g := SHD_CFG.WEAR_LIM) (by decide), hrd (g := SHD_RETIRED.COUNT) (by decide),
    hrd (g := SPK_STATUS.FAULT) (by decide), hrd (g := FLD_CELL_STATUS.EOL) (by decide),
    hrd (g := FLD_CELL_STATUS.PRESENT) (by decide)]
  rfl

theorem b2n_le_one (b : Bool) : b2n b ≤ 1 := by cases b <;> decide

theorem faultWord_lt (d : Dev) : d.faultWord < 2 ^ 22 := by
  have hchannels : ((List.range 4).map fun n => 2 ^ (2 + n) * b2n (d.faultFence n) + 2 ^ (6 + n) * b2n (d.longDown n)).foldl
      (· + ·) 0 ≤ 1020 := by
    have hn (n : Nat) : 2 ^ (2 + n) * b2n (d.faultFence n) + 2 ^ (6 + n) * b2n (d.longDown n) ≤
        2 ^ (2 + n) * 1 + 2 ^ (6 + n) * 1 := by
      gcongr <;> exact b2n_le_one _
    have h0 := hn 0
    have h1 := hn 1
    have h2 := hn 2
    have h3 := hn 3
    simp only [List.range, List.range.loop, List.map, List.foldl]
    omega
  calc d.faultWord ≤ 1 + 2 * 1 + 1020 + 2 ^ 10 * 1 + 2 ^ 11 * 1 + 2 ^ 12 * 1 + 2 ^ 13 * 1 + 2 ^ 14 * 1 + 2 ^ 15 * 1 +
      2 ^ 16 * 1 + 2 ^ 17 * 1 + 2 ^ 18 * 1 + 2 ^ 19 * 1 + 2 ^ 20 * 1 + 2 ^ 21 * 1 := by
        unfold Dev.faultWord
        gcongr <;> exact b2n_le_one _
    _ < 2 ^ 22 := by decide

theorem faultUpdate_shows {d : Dev} (h : d.pd 1 = true) : (faultUpdate d).rd SHD_FAULT.FAULT = d.faultWord := by
  have hset : (d.wr SHD_FAULT.FAULT d.faultWord).rd SHD_FAULT.FAULT = d.faultWord := by
    rw [rd_wr_same _ _ _ (by decide)]
    exact Nat.mod_eq_of_lt (faultWord_lt d)
  rw [faultUpdate, if_pos h]
  dsimp only
  split
  · exact hset
  · rw [rd_ev_apart _ _ _ (by decide), rd_wr_apart _ _ _ _ (by decide), hset]

/-- What settling does from SHD_FAULT on writes none of the registers that the word of Table 18.7 is read from. -/
theorem settle_faultWord (old d : Dev) :
    (settle old d).faultWord = (viewsShow (mclkShow (refoutShow (runsShow old d)))).faultWord := by
  have hfree {f : Field} (hf : f.off ∈ shownLast) : Free (fun g => g.off ∉ shownLast) f :=
    fun g hg => apart_of_off fun e => hg (e ▸ hf)
  have hfault : ∀ f ∈ [SHD_FAULT.FAULT, SHD_FAULT_NEW.FAULT, SHD_EVENT.FAULT_NEW], f.off ∈ shownLast := by decide
  have hstands : Stands (fun g => g.off ∉ shownLast) (viewsShow (mclkShow (refoutShow (runsShow old d)))) (settle old d) :=
    ((((Stands.refl _ _).faultUpdate fun f hf => hfree (hfault f hf)).intShow (hfree (by decide))).gpoUpdate
      (hfree (by decide)) (hfree (by decide))).chgUpdate (hfree (by decide)) (hfree (by decide))
  have hkept : Kept (viewsShow (mclkShow (refoutShow (runsShow old d)))) (settle old d) :=
    ((((Kept.refl _).faultUpdate).intShow).gpoUpdate).chgUpdate
  obtain ⟨-, -, -, -, -, hrat, -, -, hlsh, -, -, -, -, hshd⟩ := hkept
  refine faultWord_congr (fun o ho => ?_) hrat hshd hlsh
  rw [← rd_whole, ← rd_whole]
  exact hstands.rd ho

theorem settle_faultBits {old d : Dev} (h : (settle old d).pd 1 = true) :
    (settle old d).rd SHD_FAULT.FAULT = (settle old d).faultWord := by
  have hfree {f : Field} (hf : Field.apart f SHD_FAULT.FAULT = true) : Free (· = SHD_FAULT.FAULT) f := fun g hg => hg ▸ hf
  have hkept : Kept (viewsShow (mclkShow (refoutShow (runsShow old d)))) (settle old d) :=
    ((((Kept.refl _).faultUpdate).intShow).gpoUpdate).chgUpdate
  have hstands : Stands (· = SHD_FAULT.FAULT) (faultUpdate (viewsShow (mclkShow (refoutShow (runsShow old d))))) (settle old d) :=
    (((Stands.refl _ _).intShow (hfree (by decide))).gpoUpdate (hfree (by decide)) (hfree (by decide))).chgUpdate
      (hfree (by decide)) (hfree (by decide))
  rw [hstands.rd rfl, faultUpdate_shows (hkept.pd 1 ▸ h), settle_faultWord]

/-- Settles O57: SHD_FAULT takes the word when the step settles, and nothing after it moves either. -/
theorem faultBitsFollow : Obligations.FaultBitsFollow := by
  intro s t hstep hpd
  obtain ⟨d, hd⟩ := step_dev_settled hstep
  rw [hd] at hpd ⊢
  exact settle_faultBits hpd

/-! ### Every command and every step -/

/-- Settles O51. -/
theorem stepRunsFrontCommand : Obligations.StepRunsFrontCommand := fun _ _ _ => rfl

/-- Settles O52: every command is one effect on the device, settled. -/
theorem everyCommandCompletes : Obligations.EveryCommandCompletes := by
  intro c s
  obtain ⟨f, hf⟩ := exec_eq_run c s
  exact ⟨f { s.dev with outs := [] }, hf⟩

end Sys2Proof.Machine
end

section
/-!
PROOFS. What a write of a VF to its aperture reaches (R112, R127, R128): its own function, its own rings, the counters of GLB, HIF
and DMA.
-/

namespace Sys2Proof.Machine

/-- Two rings agree in base, size, producer index and fetched descriptors. -/
def Ring.SameSetUp (x y : Ring) : Prop := x.base = y.base ∧ x.size = y.size ∧ x.prod = y.prod ∧ x.taken = y.taken

/-- From d to e nothing moves but function f, the rings that `mine` names, the run of other rings, and registers of GLB, HIF and
DMA. -/
def Spares (f : Nat) (mine : Nat → Prop) (d e : Dev) : Prop :=
  Stands (Outside [0, 5, 6]) d e ∧ (∀ g, g ≠ f → e.fn g = d.fn g) ∧
    (∀ r, ¬ mine r → (e.ring r).SameSetUp (d.ring r)) ∧ e.hearth = d.hearth ∧ e.tab = d.tab ∧ e.chan = d.chan ∧
    e.pm = d.pm ∧ e.lsh = d.lsh

/-- A register of GLB, HIF or DMA. -/
abbrev hostSide (g : Field) : Prop := g.off / 0x4000 ∈ [0, 5, 6]

theorem fn_fnMod_ne (d : Dev) {f k : Nat} {g : Fn → Fn} (h : k ≠ f) : (d.fnMod f g).fn k = d.fn k := by
  simp [Dev.fn, Dev.fnMod, Dev.hostMod, List.getD_eq_getElem?_getD, Ne.symm h]

section
variable {f : Nat} {mine : Nat → Prop} {d e : Dev}

theorem Spares.refl (f : Nat) (mine : Nat → Prop) (d : Dev) : Spares f mine d d :=
  ⟨Stands.refl _ d, fun _ _ => rfl, fun _ _ => ⟨rfl, rfl, rfl, rfl⟩, rfl, rfl, rfl, rfl, rfl⟩

theorem Spares.wr {g : Field} {v : Nat} (h : Spares f mine d e) (hg : hostSide g) : Spares f mine d (e.wr g v) := by
  obtain ⟨hstands, hrest⟩ := h
  exact ⟨hstands.wr (Free.inBlock hg), hrest⟩

theorem Spares.sat {g : Field} {n : Nat} (h : Spares f mine d e) (hg : hostSide g) : Spares f mine d (e.sat g n) := h.wr hg

theorem Spares.ev {g : Field} (h : Spares f mine d e) (hg : hostSide g) : Spares f mine d (e.ev g) := h.wr hg

theorem Spares.emit {o : Out} (h : Spares f mine d e) : Spares f mine d (e.emit o) := by
  obtain ⟨hstands, hrest⟩ := h
  exact ⟨hstands.emit, hrest⟩

theorem Spares.ite {c : Prop} [Decidable c] {x y : Dev} (hx : Spares f mine d x) (hy : Spares f mine d y) :
    Spares f mine d (if c then x else y) := by
  split
  · exact hx
  · exact hy

theorem Spares.foldl {α : Type} {g : Dev → α → Dev} (l : List α) (h : Spares f mine d e)
    (hg : ∀ a x, Spares f mine d x → Spares f mine d (g x a)) : Spares f mine d (l.foldl g e) := by
  induction l generalizing e with
  | nil => exact h
  | cons a l ih => exact ih (hg a e h)

/-- A change of the host interface that leaves functions and rings. -/
theorem Spares.hostMod {g : HostIf → HostIf} (h : Spares f mine d e) (hf : (g e.host).fns = e.host.fns)
    (hr : (g e.host).rings = e.host.rings) : Spares f mine d (e.hostMod g) := by
  obtain ⟨hstands, hfns, hrings, hrest⟩ := h
  refine ⟨hstands.hostMod, fun k hk => ?_, fun r hmine => ?_, hrest⟩
  · rw [← hfns k hk, Dev.fn, Dev.hostMod, hf]
    rfl
  · have hring : (e.hostMod g).ring r = e.ring r := by rw [Dev.ring, Dev.hostMod, hr]; rfl
    exact hring ▸ hrings r hmine

/-- A change of function f. -/
theorem Spares.fnMod {g : Fn → Fn} (h : Spares f mine d e) : Spares f mine d (e.fnMod f g) := by
  obtain ⟨hstands, hfns, hrings, hrest⟩ := h
  refine ⟨hstands.fnMod, fun k hk => ?_, hrings, hrest⟩
  rw [← hfns k hk]
  exact fn_fnMod_ne e hk

theorem ring_setRing (d : Dev) (r q : Nat) (x : Ring) : (d.setRing r x).ring q = if q = r then x else d.ring q :=
  cellRead_cellWrite _ _ _ _ _

/-- A ring is replaced by one with the same set-up, or it is one of mine. -/
theorem Spares.setRing {r : Nat} {x : Ring} (h : Spares f mine d e) (hx : ¬ mine r → x.SameSetUp (e.ring r)) :
    Spares f mine d (e.setRing r x) := by
  obtain ⟨hstands, hfns, hrings, hrest⟩ := h
  refine ⟨hstands.hostMod, hfns, fun q hq => ?_, hrest⟩
  rw [ring_setRing]
  split
  · next hqr =>
    subst hqr
    obtain ⟨hb, hs, hp, ht⟩ := hx hq
    obtain ⟨hb', hs', hp', ht'⟩ := hrings q hq
    exact ⟨hb.trans hb', hs.trans hs', hp.trans hp', ht.trans ht'⟩
  · exact hrings q hq

/-! ### Counters and messages -/

theorem Spares.badWr {src : BusSrc} {o : Nat} (h : Spares f mine d e) : Spares f mine d (badWr src o e) :=
  (((h.sat (by decide)).wr (by decide)).wr (by decide)).wr (by decide)

theorem Spares.dbBad (h : Spares f mine d e) : Spares f mine d (dbBad e) := (h.sat (by decide)).ev (by decide)

theorem Spares.unsupportedRequest (h : Spares f mine d e) : Spares f mine d (unsupportedRequest f e) := by
  unfold Machine.unsupportedRequest
  exact Spares.ite (Spares.emit (h.sat (by decide))) h

theorem Spares.msixSend {v : Nat} (h : Spares f mine d e) : Spares f mine d (msixSend f v e) := by
  unfold Machine.msixSend
  exact Spares.ite (Spares.ite h.fnMod h.emit) h

theorem Spares.msixUnmask (h : Spares f mine d e) : Spares f mine d (msixUnmask f e) := by
  unfold Machine.msixUnmask
  exact Spares.ite (Spares.foldl _ h.fnMod fun _ _ hx => hx.msixSend) h

theorem Spares.msixTableWrite {v k x : Nat} (h : Spares f mine d e) : Spares f mine d (msixTableWrite f v k x e) :=
  Spares.msixUnmask h.fnMod

theorem Spares.intMaskWrite {x : Nat} (hf : f ≠ 0) (h : Spares f mine d e) : Spares f mine d (intMaskWrite f x e) := by
  unfold Machine.intMaskWrite
  rw [if_neg hf]
  exact Spares.foldl _ h.fnMod fun _ _ hx => Spares.ite hx.msixSend hx

theorem Spares.tagSync (h : Spares f mine d e) : Spares f mine d (tagSync e) :=
  ((h.wr (by decide)).wr (by decide)).wr (by decide)

/-! ### The fetch of descriptors -/

theorem Spares.issue {g addr len : Nat} {u : Use} (h : Spares f mine d e) : Spares f mine d (issue g addr len u e) :=
  Spares.tagSync (Spares.emit (h.hostMod rfl rfl))

theorem Spares.issueWants (n : Nat) (h : Spares f mine d e) : Spares f mine d (issueWants n e) := by
  induction n generalizing e with
  | zero => exact h
  | succ n ih =>
    unfold Machine.issueWants
    split
    · exact h
    · exact ih (Spares.issue (h.hostMod rfl rfl))

theorem Spares.fetchRing {r : Nat} (h : Spares f mine d e) : Spares f mine d (fetchRing r e) := by
  have hwait (b : Bool) : Spares f mine d (e.setRing r { e.ring r with tagWait := b }) :=
    h.setRing fun _ => ⟨rfl, rfl, rfl, rfl⟩
  unfold Machine.fetchRing
  split
  · exact h
  · exact Spares.ite h (Spares.ite (Spares.ite h (Spares.ev (Spares.sat (hwait true) (by decide)) (by decide)))
      (Spares.ite (hwait false).issue h))

theorem Spares.pumpFn {g : Nat} (h : Spares f mine d e) : Spares f mine d (pumpFn g e) :=
  h.foldl _ fun _ _ hx => Spares.ite hx.fetchRing (hx.fetchRing.hostMod rfl rfl)

theorem Spares.ringStart {r : Nat} {b : Bool} (h : Spares f mine d e) : Spares f mine d (ringStart b r e) := by
  unfold Machine.ringStart
  exact Spares.ite (h.setRing fun _ => ⟨rfl, rfl, rfl, rfl⟩) h

theorem Spares.pump (h : Spares f mine d e) : Spares f mine d (pump e) :=
  Spares.foldl _ (Spares.issueWants _ (h.foldl _ fun _ _ hx => hx.ringStart)) fun _ _ hx => hx.pumpFn

/-! ### Doorbells -/

theorem Spares.doorbellProd {s x : Nat} (h : Spares f mine d e) (hs : ∀ r, e.slotRing f s = some r → mine r) :
    Spares f mine d (doorbellProd f s x e) := by
  unfold Machine.doorbellProd
  split
  · exact h.dbBad
  · next r hr => exact Spares.ite h.dbBad (Spares.pump (h.setRing fun hr' => absurd (hs r hr) hr'))

theorem Spares.mbxBaseLo {x : Nat} (h : Spares f mine d e) : Spares f mine d (mbxBaseLo f x e) :=
  Spares.ite h.dbBad h.fnMod

theorem Spares.mbxBaseHi {x : Nat} (h : Spares f mine d e) (hm : mine (416 + f)) : Spares f mine d (mbxBaseHi f x e) := by
  unfold Machine.mbxBaseHi
  split
  · exact h.dbBad
  · exact Spares.ite h.dbBad (Spares.setRing h.fnMod fun hr => absurd hm hr)

theorem Spares.mbxUnset (h : Spares f mine d e) (hm : mine (416 + f)) : Spares f mine d (mbxUnset f e) :=
  Spares.ite (Spares.tagSync (Spares.setRing h.fnMod fun hr => absurd hm hr)) h

theorem Spares.mbxReset {x : Nat} (h : Spares f mine d e) (hm : mine (416 + f)) : Spares f mine d (mbxReset f x e) :=
  Spares.ite h.dbBad (Spares.mbxUnset (Spares.setRing (Spares.hostMod h.fnMod rfl rfl) fun hr => absurd hm hr) hm)

theorem Spares.doorbell {s x : Nat} (h : Spares f mine d e) (hm : mine (416 + f))
    (hs : ∀ r, e.slotRing f s = some r → mine r) : Spares f mine d (doorbell f s x e) := by
  unfold Machine.doorbell
  refine Spares.ite h.unsupportedRequest (Spares.ite h ?_)
  split
  · exact h.doorbellProd hs
  · exact Spares.ite h.mbxBaseLo h.dbBad
  · exact Spares.ite (h.mbxBaseHi hm) h.dbBad
  · exact Spares.ite (h.mbxReset hm) h.dbBad

end

/-! ### The aperture of a VF -/

theorem vfRegWrite_spares {f : Fin 16} {mine : Nat → Prop} {o v : Nat} (hf : f ≠ 0) (d : Dev) :
    Spares f mine d (vfRegWrite f o v d) := by
  have h := Spares.refl f mine d
  have hpos : f.val ≠ 0 := fun e => hf (Fin.ext e)
  unfold vfRegWrite
  split
  · exact Spares.ite h.badWr h.fnMod
  · exact Spares.ite h.badWr (h.intMaskWrite hpos)
  · exact Spares.ite h.badWr h.fnMod
  · exact Spares.ite h h.badWr
  · exact Spares.ite h h.badWr
  · exact Spares.ite h.badWr h
  · exact h.badWr

/-- A ring of function f: its mailbox, or one that a doorbell slot of f names. -/
def OwnRing (f : Fin 16) (d : Dev) (r : Nat) : Prop := r = 416 + f.val ∨ ∃ sl < 417, d.slotRing f sl = some r

theorem vfWrite_spares {f : Fin 16} {narrow : Bool} {o v : Nat} (hf : f ≠ 0) (d : Dev) :
    Spares f (OwnRing f d) d (vfWrite f narrow o v d) := by
  have h := Spares.refl f (OwnRing f d) d
  unfold vfWrite
  refine Spares.ite h.unsupportedRequest (Spares.ite h.badWr ?_)
  split
  · next hslot => exact h.doorbell (.inl rfl) fun r hr => .inr ⟨o / 64, by omega, hr⟩
  · exact Spares.ite h.msixTableWrite (Spares.ite h (vfRegWrite_spares hf d))

/-- Settles O60: what a write of a VF starts moves its function and rings alone. -/
theorem functionIsolation : Obligations.FunctionIsolation := by
  rintro ⟨dev, pending⟩ f narrow off v hf hb
  obtain ⟨x, d, rfl, hd⟩ := exists_outs dev
  have hbus : busWrite (.vf f) narrow off v.toNat d = vfWrite f narrow off v.toNat d := by
    simp [busWrite, show d.booted = true from hb]
  obtain ⟨hstands, hfns, hrings, hhearth, htab, hchan, hpm, hlsh⟩ :=
    vfWrite_spares (f := f) (narrow := narrow) (o := off) (v := v.toNat) hf d
  refine ends_of hd (fun _ => rfl) ?_
  rw [hbus]
  refine ⟨hstands.within, hstands.2, fun g hg => hfns g fun e => hg (Fin.ext e), fun r hmbx hslot => ?_, hhearth, htab, hchan,
    hpm, hlsh⟩
  refine hrings r fun hown => ?_
  obtain hown | ⟨sl, hsl, hown⟩ := hown
  · exact hmbx hown
  · exact hslot ⟨sl, hsl⟩ hown

end Sys2Proof.Machine
end

section
/-!
PROOFS. The state at reset, a CLK without a command (R33, R97), the retention port (R68) and the caps of an evaluation (R59).
-/

namespace Sys2Proof.Machine

/-! ### A CLK without a command -/

theorem hrtPublish_same {k : Nat} {d : Dev} (h : d.hearth.a.era = k) : hrtPublish k d = d := by
  simp [hrtPublish, h]

theorem slewOver_idle {d : Dev} (h : d.on HRT_STATUS.SLEWING = false) : slewOver d = d := by simp [slewOver, h]

theorem applyCome_idle {k : Nat} {d : Dev} (h : d.bootSt ≠ 6) : applyCome k d = d := if_neg h

theorem applyCome_apply {k : Nat} {d : Dev} (h : d.bootSt = 6) : applyCome k d = applyTo (k - d.boot.applyClk) d := if_pos h

theorem clkTick_halted {d : Dev} (h : d.hearth.running = false) : clkTick d = d := by simp [clkTick, h]

/-- A CLK within a frame and an era, with no slew, moves the copies alone (R33). -/
theorem clkTick_within {d : Dev} (hrun : d.hearth.running = true) (hslew : d.on HRT_STATUS.SLEWING = false)
    (hframe : (HCopy.clk d.hearth.slewInc d.hearth.a).t / frMt = d.hearth.a.t / frMt)
    (hera : (HCopy.clk d.hearth.slewInc d.hearth.a).era = d.hearth.a.era) :
    clkTick d = d.hearthMod fun h => { h.all (HCopy.run h.slewInc 1) with clk := h.clk + 1 } := by
  have hadvance : advance 1 d = d.hearthMod fun h => { h.all (HCopy.run h.slewInc 1) with clk := h.clk + 1 } :=
    hrtPublish_same hera
  have hstays : (d.hearthMod fun h => { h.all (HCopy.run h.slewInc 1) with clk := h.clk + 1 }).frame = d.frame := hframe
  rw [clkTick, if_pos hrun, hadvance, slewOver_idle (by exact hslew)]
  simp only [hstays, ne_eq, not_true_eq_false, if_false]

theorem step_nothing (dev : Dev) : step { dev := dev, pending := [] } = .next { dev := dev.command clkTaken, pending := [] } := rfl

/-- Settles O53. -/
theorem emptyQueueTicks : Obligations.EmptyQueueTicks := by
  intro dev
  refine ⟨fun hrun hboot => ?_, fun hrun hboot hslew hframe hera => ?_, fun hboot => ?_⟩
  · rw [step_nothing, Dev.command, clkTaken, applyCome_idle (by exact hboot), clkTick_halted (by exact hrun)]
  · refine ⟨clkTaken { dev with outs := [] }, rfl, ?_⟩
    rw [clkTaken, applyCome_idle (by exact hboot), clkTick_within (d := { dev with outs := [] }) hrun hslew hframe hera]
    exact ⟨rfl, rfl, rfl, rfl, fun _ _ => rfl, rfl, rfl⟩
  · rw [step_nothing, Dev.command, clkTaken, applyCome_apply (by exact hboot)]

/-! ### Reset -/

/-- Settles O54. -/
theorem resetState : Obligations.ResetState := by
  refine ⟨fun _ => rfl, rfl, rfl, ?_⟩
  decide

/-! ### The retention port (R68) -/

/-- From d to e retention SRAM keeps its canonical form, and no word but k moves. -/
def RamKeeps (k : Nat) (d e : Dev) : Prop :=
  (Memory.wf d.sram = true → Memory.wf e.sram = true) ∧ ∀ j, j ≠ k → e.ramWord j = d.ramWord j

theorem RamKeeps.of_sram {k : Nat} {d e : Dev} (h : e.sram = d.sram) : RamKeeps k d e :=
  ⟨fun hw => h ▸ hw, fun j _ => by rw [Dev.ramWord, h]; rfl⟩

theorem RamKeeps.trans_sram {k : Nat} {d e g : Dev} (h : RamKeeps k d e) (hs : g.sram = e.sram) : RamKeeps k d g := by
  obtain ⟨hwf, hword⟩ := h
  exact ⟨fun hw => hs ▸ hwf hw, fun j hj => by rw [← hword j hj, Dev.ramWord, hs]; rfl⟩

theorem RamKeeps.wr {k v : Nat} {d e : Dev} {f : Field} (h : RamKeeps k d e) : RamKeeps k d (e.wr f v) :=
  h.trans_sram (wr_sram e f v)

theorem badWr_sram (src : BusSrc) (o : Nat) (d : Dev) : (badWr src o d).sram = d.sram := by
  unfold badWr
  rw [wr_sram, wr_sram, wr_sram, sat_sram]

theorem retWrite_keeps (src : BusSrc) (v : Word) (d : Dev) : RamKeeps (d.rd RAT_RET_ADDR.WORD) d (retWrite src v d) := by
  unfold retWrite
  dsimp only
  split
  · exact RamKeeps.wr (.of_sram (badWr_sram src _ d))
  · exact RamKeeps.wr ⟨fun hw => ramSet_wf d _ _ hw, fun j hj => (ramWord_ramSet d _ _ j).trans (if_neg hj)⟩

theorem retRead_keeps (d : Dev) : RamKeeps (d.rd RAT_RET_ADDR.WORD) d (retRead d) := by
  unfold retRead
  exact .of_sram ((emit_sram _ _).trans (wr_sram _ _ _))

theorem ifBooted_keeps {k : Nat} {f : Dev → Dev} {d : Dev} (h : RamKeeps k d (f d)) : RamKeeps k d (ifBooted f d) := by
  unfold ifBooted
  split
  · exact h
  · exact .of_sram rfl

theorem softFrom_keeps {k : Nat} (src : BusSrc) {f : Dev → Dev} {d : Dev} (h : RamKeeps k d (f d)) :
    RamKeeps k d (softFrom src f d) := by
  cases src with
  | pcie => exact ifBooted_keeps h
  | vf _ => exact ifBooted_keeps h
  | smbus => exact h
  | image => exact h

theorem regStore_sram (dom : Bool) (o v : Nat) (d : Dev) : (regStore dom o v d).sram = d.sram := by
  unfold regStore
  split <;> rfl

theorem offAccess_sram (k : Nat) (d : Dev) : (offAccess k d).sram = d.sram := by
  unfold offAccess
  rw [ev_sram, wr_sram, sat_sram]

theorem assignNote_sram (o v : Nat) (d : Dev) : (assignNote o v d).sram = d.sram := by
  unfold assignNote
  dsimp only
  split <;> rfl

theorem regHook_retData (src : BusSrc) (old v : Nat) (d : Dev) :
    regHook src RAT_RET_DATA.addr old v d = retWrite src (BitVec.ofNat 32 v) d := rfl

theorem regTake_retData_on (src : BusSrc) (v : Nat) {d : Dev} (h : d.pd 0 = true) :
    regTake src RAT_RET_DATA.addr v d = retWrite src (BitVec.ofNat 32 v) d := by
  unfold regTake
  rw [if_neg (by decide), if_pos (show d.pd (domOf RAT_RET_DATA.addr) = true from h)]
  simp only [show ownStore RAT_RET_DATA.addr = true by decide, if_true]
  exact regHook_retData src _ v d

theorem regTake_retData_off (src : BusSrc) (v : Nat) {d : Dev} (h : d.pd 0 ≠ true) :
    (regTake src RAT_RET_DATA.addr v d).sram = d.sram := by
  unfold regTake
  rw [if_neg (by decide), if_neg (show ¬d.pd (domOf RAT_RET_DATA.addr) = true from h)]
  simp only [show ¬(0x18040 ≤ RAT_RET_DATA.addr ∧ RAT_RET_DATA.addr < 0x18080) by decide, if_false]
  split
  · exact regStore_sram _ _ _ d
  · exact (offAccess_sram _ _).trans (regStore_sram _ _ _ d)

/-- A register write to RAT_RET_DATA is that of the port, or moves no word of retention SRAM. -/
theorem regTake_retData_keeps (src : BusSrc) (v : Nat) (d : Dev) :
    RamKeeps (d.rd RAT_RET_ADDR.WORD) d (regTake src RAT_RET_DATA.addr v d) := by
  by_cases hpd : d.pd 0 = true
  · exact regTake_retData_on src v hpd ▸ retWrite_keeps _ _ d
  · exact .of_sram (regTake_retData_off src v hpd)

theorem regWrite_retData_keeps (narrow : Bool) (v : Nat) (d : Dev) :
    RamKeeps (d.rd RAT_RET_ADDR.WORD) d (regWrite .pcie narrow RAT_RET_DATA.addr v d) := by
  have hwindow : ¬0x200000 ≤ RAT_RET_DATA.addr := by decide
  have hadj : ¬(RAT_RET_DATA.addr = HRT_ADJ_CTRL.addr ∧ v % 2 = 1 ∧ 2 ≤ d.src) := fun h => absurd h.1 (by decide)
  unfold regWrite
  rw [if_neg hwindow, if_neg hadj]
  split
  · exact .of_sram (badWr_sram _ _ d)
  · split
    · exact .of_sram ((badWr_sram _ _ _).trans (assignNote_sram _ _ d))
    · exact regTake_retData_keeps _ _ d

theorem busWrite_retData_keeps (narrow : Bool) (v : Nat) (d : Dev) :
    RamKeeps (d.rd RAT_RET_ADDR.WORD) d (busWrite .bar0 narrow RAT_RET_DATA.addr v d) := by
  unfold busWrite
  split
  · exact .of_sram rfl
  · exact regWrite_retData_keeps narrow v d

theorem run_next {s t : State} {f : Dev → Dev} (h : s.run f = .next t) : t.dev = s.dev.command f := by
  cases h
  rfl

/-- What settles after an effect moves no word of retention SRAM. -/
theorem command_keeps {k : Nat} {d : Dev} {f : Dev → Dev} (h : RamKeeps k d (f { d with outs := [] })) :
    RamKeeps k d (d.command f) := h.trans_sram (settle_sram _ _)

/-- Settles O58. -/
theorem retentionForm : Obligations.RetentionForm := by
  intro s t hwf hport
  have hkeeps : RamKeeps (s.dev.rd RAT_RET_ADDR.WORD) s.dev t.dev := by
    obtain ⟨src, v, hx⟩ | hx | ⟨narrow, v, hx⟩ := hport <;> rw [run_next hx] <;> refine command_keeps ?_
    · exact softFrom_keeps src (retWrite_keeps src v { s.dev with outs := [] })
    · exact ifBooted_keeps (retRead_keeps { s.dev with outs := [] })
    · exact busWrite_retData_keeps narrow v.toNat { s.dev with outs := [] }
  obtain ⟨hform, hword⟩ := hkeeps
  exact ⟨hform hwf, hword⟩

/-! ### The caps of an evaluation (R59) -/

theorem ratPut_wr {d : Dev} (h : d.rat.shadow = none) (f : Field) (v : Nat) : d.ratPut f v = d.wr f v := by
  rw [Dev.ratPut, h]

theorem ratGet_rd {d : Dev} (h : d.rat.shadow = none) {f : Field} (hf : f.off = RAT_STATUS.addr) : d.ratGet f = d.rd f := by
  rw [Dev.ratGet, Dev.ratWord, h, Option.getD_none, ← hf, Dev.rd]

theorem feedCap_le (d : Dev) : feedCap d ≤ 3 := by
  unfold feedCap
  dsimp only
  split_ifs <;> decide

theorem thermCap_le (d : Dev) : thermCap d ≤ 5 := by
  unfold thermCap
  dsimp only
  split_ifs <;> decide

theorem lossCap_le (d : Dev) : lossCap d ≤ 5 := by
  unfold lossCap
  split_ifs <;> decide

theorem rd_lt (d : Dev) (f : Field) : d.rd f < 2 ^ f.w := bits_lt _ _ _

theorem bivCap_le (d : Dev) : bivCap d ≤ 5 := by
  have hmode : d.rd RAT_CTRL.BIV_MODE < 2 := rd_lt d RAT_CTRL.BIV_MODE
  unfold bivCap
  split <;> omega

theorem tierTarget_lt (d : Dev) : tierTarget d < 8 := by
  have hceil : d.rd RAT_CTRL.CEIL < 8 := rd_lt d RAT_CTRL.CEIL
  have hhearth : hearthCap d ≤ 2 := by unfold hearthCap; split <;> decide
  have hfeed := feedCap_le d
  have htherm := thermCap_le d
  have hloss := lossCap_le d
  have hbiv := bivCap_le d
  unfold tierTarget otherCaps
  omega

/-- What an evaluation tells of the rise of a cap. -/
def capEvents (d : Dev) : Dev :=
  let x := d.evIf (decide (d.ratGet RAT_STATUS.CAP_THERM < thermCap d)) RAT_EVENT.THERM_CAP
  if 3 < lossCap d ∧ !x.rat.cellLow then (x.ev RAT_EVENT.CELL_LOW).ratMod fun r => { r with cellLow := true } else x

theorem evIf_rat (d : Dev) (c : Bool) (f : Field) : (d.evIf c f).rat = d.rat := by cases c <;> rfl

/-- The rises of the caps move no field but their two events, and of the controller only the note that the cell is low. -/
theorem capEvents_stands (d : Dev) : Stands (Beside [RAT_EVENT.THERM_CAP, RAT_EVENT.CELL_LOW]) d (capEvents d) := by
  have htherm (c : Bool) : Stands (Beside [RAT_EVENT.THERM_CAP, RAT_EVENT.CELL_LOW]) d (d.evIf c RAT_EVENT.THERM_CAP) :=
    (Stands.refl _ d).evIf (.listed (by decide))
  exact Stands.ite (Stands.parts ((htherm _).ev (.listed (by decide))) rfl rfl) (htherm _)

theorem capEvents_parts (d : Dev) : (capEvents d).rat.shadow = d.rat.shadow ∧ (capEvents d).rat.filtV = d.rat.filtV ∧
    (capEvents d).rat.temps = d.rat.temps := by
  unfold capEvents
  dsimp only
  split
  · simp [evIf_rat, Dev.ratMod]
  · simp [evIf_rat]

theorem capEvents_target {d : Dev} (h : d.rat.shadow = none) : tierTarget (capEvents d) = tierTarget d := by
  have hstands := capEvents_stands d
  obtain ⟨hshadow, hvolt, htemps⟩ := capEvents_parts d
  have hrd (g : Field) (hg : Beside [RAT_EVENT.THERM_CAP, RAT_EVENT.CELL_LOW] g) : (capEvents d).rd g = d.rd g :=
    hstands.rd hg
  have hget (g : Field) (ho : g.off = RAT_STATUS.addr) (hg : Beside [RAT_EVENT.THERM_CAP, RAT_EVENT.CELL_LOW] g) :
      (capEvents d).ratGet g = d.ratGet g := by
    rw [ratGet_rd h ho, ratGet_rd (hshadow.trans h) ho, hrd g hg]
  have hfeed : feedCap (capEvents d) = feedCap d := by
    simp only [feedCap, Dev.feedV, hvolt, hget RAT_STATUS.CAP_FEED rfl (by decide), hrd RAT_THR_FULL.ENTER (by decide),
      hrd RAT_THR_FULL.HOLD (by decide), hrd RAT_THR_TRIM.ENTER (by decide), hrd RAT_THR_TRIM.HOLD (by decide),
      hrd RAT_THR_LEAN.ENTER (by decide), hrd RAT_THR_LEAN.HOLD (by decide)]
    rfl
  have htherm : thermCap (capEvents d) = thermCap d := by
    simp only [thermCap, htemps, hget RAT_STATUS.CAP_THERM rfl (by decide), hrd RAT_THERM.HYST (by decide),
      hrd RAT_THERM.TRIM_C (by decide), hrd RAT_THERM.LEAN_C (by decide), hrd RAT_THERM.LIFE_C (by decide),
      hrd RAT_THERM.DEEP_C (by decide)]
  have hloss : lossCap (capEvents d) = lossCap d := by
    simp only [lossCap, Dev.ratOn, hget RAT_STATUS.LOSS rfl (by decide), hrd MON_CELL_V.VALUE (by decide),
      hrd RAT_CELL_THR.DEEP_MV (by decide), hrd RAT_CELL_THR.LISTEN_MV (by decide)]
    rfl
  have hhearth : hearthCap (capEvents d) = hearthCap d := by
    simp only [hearthCap, Dev.valid, Dev.on, hrd HRT_STATUS.VALID (by decide)]
    rfl
  have hbiv : bivCap (capEvents d) = bivCap d := by
    simp only [bivCap, Dev.on, hrd RAT_CTRL.BIV_REQ (by decide), hrd RAT_CTRL.BIV_MODE (by decide)]
    rfl
  simp only [tierTarget, otherCaps, hfeed, htherm, hloss, hhearth, hbiv, hrd RAT_CTRL.CEIL (by decide)]

/-- The words that an evaluation shows (R59). -/
theorem capsCompute_shows {d : Dev} (h : d.rat.shadow = none) : capsCompute d =
    (((((capEvents d).wr RAT_STATUS.CAP_FEED (feedCap d)).wr RAT_STATUS.CAP_THERM (thermCap d)).wr RAT_STATUS.CAP_LOSS
      (lossCap d)).wr RAT_STATUS.CAP_HEARTH (b2n (!d.valid))).wr RAT_STATUS.TARGET (tierTarget d) := by
  have hvalid : (capEvents d).valid = d.valid := (capEvents_stands d).on (g := HRT_STATUS.VALID) (by decide)
  have hshadow : (capEvents d).rat.shadow = none := (capEvents_parts d).1.trans h
  rw [← capEvents_target h, ← hvalid]
  generalize hx : capEvents d = x at hshadow
  have hcaps : capsCompute d = (((((x.ratPut RAT_STATUS.CAP_FEED (feedCap d)).ratPut RAT_STATUS.CAP_THERM
      (thermCap d)).ratPut RAT_STATUS.CAP_LOSS (lossCap d)).ratPut RAT_STATUS.CAP_HEARTH (b2n (!Dev.valid
      (((x.ratPut RAT_STATUS.CAP_FEED (feedCap d)).ratPut RAT_STATUS.CAP_THERM (thermCap d)).ratPut RAT_STATUS.CAP_LOSS
      (lossCap d))))).ratPut RAT_STATUS.TARGET (tierTarget x)) := by rw [← hx]; rfl
  have hvalid2 (a b c : Nat) : (((x.wr RAT_STATUS.CAP_FEED a).wr RAT_STATUS.CAP_THERM b).wr RAT_STATUS.CAP_LOSS c).valid =
      x.valid := by
    simp only [Dev.valid, Dev.on]
    rw [rd_wr_apart _ _ _ _ (by decide), rd_wr_apart _ _ _ _ (by decide), rd_wr_apart _ _ _ _ (by decide)]
  simp only [hcaps, ratPut_wr, hshadow, hvalid2, wr_rat]

theorem capsCompute_reads {d : Dev} (h : d.rat.shadow = none) :
    (capsCompute d).rd RAT_STATUS.CAP_FEED = feedCap d ∧ (capsCompute d).rd RAT_STATUS.CAP_THERM = thermCap d ∧
    (capsCompute d).rd RAT_STATUS.CAP_LOSS = lossCap d ∧ (capsCompute d).rd RAT_STATUS.CAP_HEARTH = b2n (!d.valid) ∧
    (capsCompute d).rd RAT_STATUS.TARGET = tierTarget d := by
  have hfeed := feedCap_le d
  have htherm := thermCap_le d
  have hloss := lossCap_le d
  have hhearth := b2n_le_one (!d.valid)
  have htarget := tierTarget_lt d
  have hsame (x : Dev) (f : Field) (v : Nat) (hf : f.lo + f.w ≤ 32) (hv : v < 2 ^ f.w) : (x.wr f v).rd f = v := by
    rw [rd_wr_same x f v hf, Nat.mod_eq_of_lt hv]
  rw [capsCompute_shows h]
  refine ⟨?_, ?_, ?_, ?_, hsame _ _ _ (by decide) htarget⟩
  · rw [rd_wr_apart _ _ _ _ (by decide), rd_wr_apart _ _ _ _ (by decide), rd_wr_apart _ _ _ _ (by decide),
      rd_wr_apart _ _ _ _ (by decide)]
    exact hsame _ _ _ (by decide) (Nat.lt_of_le_of_lt hfeed (by decide))
  · rw [rd_wr_apart _ _ _ _ (by decide), rd_wr_apart _ _ _ _ (by decide), rd_wr_apart _ _ _ _ (by decide)]
    exact hsame _ _ _ (by decide) (Nat.lt_of_le_of_lt htherm (by decide))
  · rw [rd_wr_apart _ _ _ _ (by decide), rd_wr_apart _ _ _ _ (by decide)]
    exact hsame _ _ _ (by decide) (Nat.lt_of_le_of_lt hloss (by decide))
  · rw [rd_wr_apart _ _ _ _ (by decide)]
    exact hsame _ _ _ (by decide) (Nat.lt_of_le_of_lt hhearth (by decide))

/-- A cap in force of TRIM or better is kept while the voltage meets TRIM's HOLD threshold. -/
theorem feedCap_holds {d : Dev} (hcap : d.ratGet RAT_STATUS.CAP_FEED ≤ 1) (hv : d.rd RAT_THR_TRIM.HOLD ≤ d.feedV) :
    feedCap d ≤ 1 := by
  simp only [feedCap, hcap, if_true, hv, decide_true]
  split_ifs <;> decide

/-- A cap in force of LEAN or worse is not bettered below the ENTER thresholds. -/
theorem feedCap_stays {d : Dev} (hcap : 1 < d.ratGet RAT_STATUS.CAP_FEED) (hfull : d.feedV < d.rd RAT_THR_FULL.ENTER)
    (htrim : d.feedV < d.rd RAT_THR_TRIM.ENTER) : 2 ≤ feedCap d := by
  have h0 : ¬d.ratGet RAT_STATUS.CAP_FEED ≤ 0 := by omega
  have h1 : ¬d.ratGet RAT_STATUS.CAP_FEED ≤ 1 := by omega
  have hf : ¬d.rd RAT_THR_FULL.ENTER ≤ d.feedV := by omega
  have ht : ¬d.rd RAT_THR_TRIM.ENTER ≤ d.feedV := by omega
  simp only [feedCap, h0, h1, hf, ht, if_false, decide_false, Bool.false_eq_true]
  split_ifs <;> decide

theorem feedCap_enters {d : Dev} (hcap : d.ratGet RAT_STATUS.CAP_FEED = 3) (hlean : d.rd RAT_THR_LEAN.ENTER ≤ d.feedV) :
    feedCap d ≤ 2 := by
  have h2 : ¬d.ratGet RAT_STATUS.CAP_FEED ≤ 2 := by omega
  simp only [feedCap, h2, hlean, if_false, decide_true, if_true]
  split_ifs <;> decide

theorem bivCap_asked {d : Dev} (h : d.on RAT_CTRL.BIV_REQ = true) : bivCap d = 4 + d.rd RAT_CTRL.BIV_MODE := if_pos h

/-- Settles O59. -/
theorem capsOfEvaluation : Obligations.CapsOfEvaluation := by
  intro d hshadow
  obtain ⟨hfeed, htherm, hloss, hhearth, htarget⟩ := capsCompute_reads hshadow
  have hprev : d.ratGet RAT_STATUS.CAP_FEED = d.rd RAT_STATUS.CAP_FEED := ratGet_rd hshadow rfl
  refine ⟨?_, ?_, fun hreq => ?_, fun hcap hv => ?_, fun hcap hfull htrim => ?_, fun hcap hv => ?_, fun g hoff h1 h2 => ?_⟩
  · have hcap : 2 * b2n (!d.valid) = hearthCap d := by unfold hearthCap; cases d.valid <;> rfl
    rw [hfeed, htherm, hloss, hhearth, htarget, hcap]
    simp only [tierTarget, otherCaps, Nat.max_assoc]
  · rw [hhearth]
    cases d.valid <;> rfl
  · rw [htarget, ← bivCap_asked hreq]
    exact Nat.le_max_right _ _
  · exact hfeed ▸ feedCap_holds (hprev ▸ hcap) hv
  · exact hfeed ▸ feedCap_stays (hprev ▸ hcap) hfull htrim
  · exact hfeed ▸ feedCap_enters (hprev ▸ hcap) hv
  · have hoffs (f : Field) (hf : f.off = RAT_STATUS.addr) : g.off ≠ f.off := hf ▸ hoff
    rw [capsCompute_shows hshadow, rd_wr_off _ _ _ _ (hoffs _ rfl), rd_wr_off _ _ _ _ (hoffs _ rfl),
      rd_wr_off _ _ _ _ (hoffs _ rfl), rd_wr_off _ _ _ _ (hoffs _ rfl), rd_wr_off _ _ _ _ (hoffs _ rfl)]
    exact (capEvents_stands d).rd (by simp [Beside, h1, h2])

end Sys2Proof.Machine
end

section
/-!
PROOFS. How a counterexample speaks of the state reached, and gate lists (R188 to R198).
-/

namespace Sys2Proof.Machine

/-! ### From a command to the state reached -/

/-- What a statement says of a command's outcome it says of a device that settles as the command's effect does. -/
theorem Ends.effect {c : Instr} {s : State} {f : Dev → Dev} {P : Dev → Prop} (h : Ends c s P)
    (hx : exec c s = s.run f) : ∃ e : Dev, P e ∧ settle s.dev e = settle s.dev (f { s.dev with outs := [] }) := by
  obtain ⟨e, he, hp⟩ := h
  rw [hx, State.run, Dev.command] at he
  injection he with hs
  injection hs with hdev
  exact ⟨e, hp, hdev.symm⟩

/-- Fields that nothing shows read in that device as in the command's effect. -/
theorem Ends.reads {c : Instr} {s : State} {f : Dev → Dev} {P : Dev → Prop} (h : Ends c s P)
    (hx : exec c s = s.run f) :
    ∃ e : Dev, P e ∧ ∀ g, shownField g = false → e.rd g = (f { s.dev with outs := [] }).rd g := by
  obtain ⟨e, hp, hsettle⟩ := h.effect hx
  refine ⟨e, hp, fun g hg => ?_⟩
  rw [← settle_rd s.dev e g hg, hsettle, settle_rd _ _ g hg]

theorem Does.ends {c : Instr} {s : State} {ws : List (Field × Nat)} {P : Dev → Prop} (h : Does c s ws P) :
    Ends c s fun e => Wrote s.dev e ws ∧ P e := h

/-! ### What settling leaves alone while REFOUT stands still -/

/-- The parts of d that a stop of REFOUT alone would change: channels, packet memory, Pegline and compression stand from d to e,
and so does REFOUT_ON. -/
def Still (d e : Dev) : Prop :=
  e.chan = d.chan ∧ e.pm = d.pm ∧ e.peg = d.peg ∧ e.cmp = d.cmp ∧ e.on CLK_STATUS.REFOUT_ON = d.on CLK_STATUS.REFOUT_ON

section
variable {d e : Dev}

theorem Still.refl (d : Dev) : Still d d := ⟨rfl, rfl, rfl, rfl, rfl⟩

theorem Still.wr {f : Field} {v : Nat} (h : Still d e) (hf : Field.apart f CLK_STATUS.REFOUT_ON = true) : Still d (e.wr f v) := by
  obtain ⟨hchan, hpm, hpeg, hcmp, hon⟩ := h
  refine ⟨hchan, hpm, hpeg, hcmp, ?_⟩
  rw [← hon, Dev.on, Dev.on, rd_wr_apart e f _ v hf]

theorem Still.hostMod {f : HostIf → HostIf} (h : Still d e) : Still d (e.hostMod f) := h

theorem Still.emit {o : Out} (h : Still d e) : Still d (e.emit o) := h

theorem Still.ite {c : Prop} [Decidable c] {x y : Dev} (hx : Still d x) (hy : Still d y) : Still d (if c then x else y) := by
  split
  · exact hx
  · exact hy

theorem Still.foldl {α : Type} {f : Dev → α → Dev} (l : List α) (h : Still d e)
    (hf : ∀ a ∈ l, ∀ x, Still d x → Still d (f x a)) : Still d (l.foldl f e) := by
  induction l generalizing e with
  | nil => exact h
  | cons a l ih => exact ih (hf a (by simp) e h) fun b hb => hf b (List.mem_cons_of_mem _ hb)

theorem Still.forN {n : Nat} {f : Nat → Dev → Dev} (h : Still d e) (hf : ∀ k < n, ∀ x, Still d x → Still d (f k x)) :
    Still d (forN n f e) :=
  h.foldl (List.range n) fun a ha x hx => hf a (by simpa using ha) x hx

theorem Still.runNext {f : Field} {o : Dev} (hf : Field.apart f CLK_STATUS.REFOUT_ON = true) (h : Still d e) :
    Still d (runNext f o e) := by
  unfold Machine.runNext
  exact .ite h (.ite (h.wr hf) (.ite (h.wr hf) h))

theorem Still.runsShow {o : Dev} (h : Still d e) : Still d (runsShow o e) := by
  have gate : ∀ n < 4, Field.apart (CHn_GATE_STATUS.RUN n) CLK_STATUS.REFOUT_ON = true := by decide
  have hgates := Still.ite (c := e.pd 1 = true)
    (h.forN fun n hn x hx => Still.runNext (f := CHn_GATE_STATUS.RUN n) (o := o) (gate n hn) hx) h
  have hlsh := Still.runNext (f := LSH_STATUS.RUN) (o := o) (by decide) hgates
  unfold Machine.runsShow
  exact .ite (.runNext (by decide) hlsh) hlsh

theorem Still.msixSend {f v : Nat} (h : Still d e) : Still d (msixSend f v e) := by
  unfold Machine.msixSend
  exact .ite (.ite h.hostMod h.emit) h

theorem Still.blockEvent {b : Nat} (h : Still d e) : Still d (blockEvent b e) := by
  have hraised : Still d (e.putBitOf INT_FN0_STATUS.BLOCK b true) := h.wr (by decide)
  unfold Machine.blockEvent
  exact .ite h (.ite hraised hraised.msixSend)

theorem Still.viewsShow (h : Still d e) : Still d (viewsShow e) := by
  have htx : ∀ n < 4, Field.apart (CHn_STATUS.TXDIS n) CLK_STATUS.REFOUT_ON = true := by decide
  have hvf : ∀ k < 15, Field.apart (INT_VF_VIEWf.STATUS k) CLK_STATUS.REFOUT_ON = true ∧
      Field.apart (INT_VF_VIEWf.MASK k) CLK_STATUS.REFOUT_ON = true := by decide
  have hlanes : Still d (pegLanesShow e) := (h.wr (by decide)).wr (by decide)
  have hlimit (x : Dev) (hx : Still d x) : Still d (if x.pd 2 then x.wr PMC_ADMIT_LIMIT.LIMIT
      (admitLimit (x.rd PMC_ADMIT_LIMIT.PCT)) else x) := .ite (hx.wr (by decide)) hx
  have hcrs (c : Bool) := hlimit _ (hlanes.wr (f := HIF_STATUS.CRS) (v := if c then 1 else 0) (by decide))
  refine .ite (Still.wr (Still.forN (Still.wr (Still.forN (hcrs _) fun n hn x hx => hx.wr (htx n hn)) (by decide))
    fun k hk x hx => ?_) (by decide)) (hcrs _)
  obtain ⟨hstatus, hmask⟩ := hvf k hk
  exact ((hx.wr hstatus).wr hmask).wr (by decide)

theorem Still.faultUpdate (h : Still d e) : Still d (faultUpdate e) := by
  have hfault (v : Nat) : Still d (e.wr SHD_FAULT.FAULT v) := h.wr (by decide)
  exact .ite (.ite (hfault _) (((hfault _).wr (by decide)).wr (by decide))) h

theorem Still.intShow {o : Dev} (h : Still d e) : Still d (intShow o e) := by
  unfold Machine.intShow
  exact .ite (h.forN fun _ _ _ hx => .ite hx.blockEvent hx) h

end

/-- While REFOUT stands still, settling leaves channels, packet memory, Pegline and compression alone. -/
theorem settle_still (old : Dev) {d : Dev} (h : d.on CLK_STATUS.REFOUT_ON = false) :
    (settle old d).chan = d.chan ∧ (settle old d).pm = d.pm ∧ (settle old d).peg = d.peg ∧ (settle old d).cmp = d.cmp := by
  obtain ⟨hchan, hpm, hpeg, hcmp, hon⟩ := (Still.refl d).runsShow (o := old)
  have hrefout : refoutShow (runsShow old d) =
      (runsShow old d).wrB CLK_STATUS.REFOUT_ON (runsShow old d).refoutRuns := by
    simp [refoutShow, hon.trans h]
  have hafter (x : Dev) : Still x (chgUpdate (gpoUpdate (intShow old (faultUpdate (viewsShow (mclkShow x)))))) :=
    ((((((((Still.refl x).wr (by decide)).viewsShow).faultUpdate).intShow).wr (by decide)).wr (by decide)).wr
      (by decide)).wr (by decide)
  obtain ⟨hchan2, hpm2, hpeg2, hcmp2, -⟩ := hafter (refoutShow (runsShow old d))
  rw [hrefout] at hchan2 hpm2 hpeg2 hcmp2
  refine ⟨?_, ?_, ?_, ?_⟩
  · rw [settle, hrefout, hchan2, wrB_chan, hchan]
  · rw [settle, hrefout, hpm2, wrB_pm, hpm]
  · rw [settle, hrefout, hpeg2, wrB_peg, hpeg]
  · rw [settle, hrefout, hcmp2, wrB_cmp, hcmp]

/-! ### A gate list of bank 2 -/

/-- An armed engine of channel 0 whose list is that of bank 2: the bank's LEN lies in the word of CH0_GATE_COMMIT_STAT and its
CYCLE in that of CH0_GATE_VOTE, so its list is empty until the commit's result is shown. -/
def bankTwoArmed : State :=
  { dev := ((((({} : Dev).wr (CHn_GATE_VOTE.FIX_A 0) 1).setWord 0x204000 5).setWord 0x204004 1).chMod 0 fun c =>
      { c with ga := { st := 1, oper := some 2, commit := true } }) }

/-- Refutes O26: the statement speaks of every bank number, and the words of bank 2 lie among the registers that the start of a
list writes: the result of its commit gives the empty list of that bank two entries, whose first opens gate 0. -/
theorem not_gateLists : ¬ Obligations.GateLists := by
  intro h
  obtain ⟨hstart, -⟩ := h bankTwoArmed
  obtain ⟨e, ⟨-, -, -, -, -, -, -, -, hgates⟩, hreads⟩ :=
    (hstart 0 0 2 rfl rfl (by decide) (by decide) rfl).reads (f := gateListStart 0 0) rfl
  have hopen : (gateListStart 0 0 { bankTwoArmed.dev with outs := [] }).rd (CHn_GATE_STATUS.GATES 0) = 1 := by decide
  have hshut : entGates (bankTwoArmed.dev.bankLay 0 2) 0 % 256 = 0 := by decide
  have hread := hreads (CHn_GATE_STATUS.GATES 0) (by decide)
  exact absurd (hopen.symm.trans (hread.symm.trans (hgates.trans hshut))) (by decide)

/-! ### A commit of a bank far away -/

/-- The engine of channel 0 in FALLBACK, the bank last operational being number 0x1FA0: the words of its BASE are those of
PMC_ADMITTED and PMC_LAST_SUM, that of its CYCLE is PMC_SHORTFALL's; its list is of one entry and legal. -/
def farBank : State :=
  { dev := ((((((((({} : Dev).wr RST_BOOT_STATUS.STATE 10).wr RAT_DOM_STATUS.PD_ON 127).wr HRT_STATUS.VALID 1).wr
      (CHn_GATE_STATUS.RUN 0) 2).setWord 0x40018 10000).setWord 0x4001C 1).setWord 0x4140000 20).setWord 0x4140004 1).chMod 0
        fun c => { c with ga := { last := some 0x1FA0 } } }

/-- The effect of the commit. -/
def farCommit : Dev := (fun d : Dev => gateCommit 0 (d.slotCosts d.peg.oper) d) { farBank.dev with outs := [] }

theorem farCommit_soft :
    soft 1 (fun d => gateCommit 0 (d.slotCosts d.peg.oper) d) { farBank.dev with outs := [] } = farCommit :=
  soft_taken (by decide) (by decide)

/-- The start that it sets. -/
theorem farCommit_start : (farCommit.gate 0).start ≠
    farBank.dev.bankStart 0 (farBank.dev.adminBank 0) (farBank.dev.nowExt + 2 * frMt) := by decide +kernel

theorem farCommit_refout : farCommit.on CLK_STATUS.REFOUT_ON = false := by decide +kernel

/-- Refutes O25: the statement takes the bank last operational, which software commits again, to be any number, and that of
`farBank` has its BASE and CYCLE among the registers in which an admission reports: the engine starts by what they show
after the report, not by what they held at the commit. -/
theorem not_gateCommit : ¬ Obligations.GateCommit := by
  intro h
  obtain ⟨-, -, -, -, hcommit, -⟩ := h farBank
  obtain ⟨e, ⟨honly, -, -, -, -, -, hstart, -⟩, hsettle⟩ :=
    (hcommit 0 (by decide) (by decide) (by decide) (by decide) (by decide) (by decide) (by decide +kernel) rfl).effect
      (f := soft 1 fun d => gateCommit 0 (d.slotCosts d.peg.oper) d) rfl
  rw [farCommit_soft] at hsettle
  have hstill : e.on CLK_STATUS.REFOUT_ON = false := by
    rw [Dev.on, honly CLK_STATUS.REFOUT_ON (by decide)]
    decide
  have hchan : e.chan = farCommit.chan := by
    rw [← (settle_still farBank.dev hstill).1, hsettle, (settle_still farBank.dev farCommit_refout).1]
  have hgate : e.gate 0 = farCommit.gate 0 := by simp only [Dev.gate, Dev.ch, hchan]
  exact farCommit_start (hgate ▸ hstart)

end Sys2Proof.Machine
end

section
/-!
PROOFS. Write lists built one write at a time.
-/

namespace Sys2Proof.Machine

/-- Field f lies in its word and shares no bit with the fields listed. -/
def fits (f : Field) (ws : List (Field × Nat)) : Bool :=
  decide (f.lo + f.w ≤ 32) && ws.all fun x => Field.apart f x.1 && Field.apart x.1 f

section
variable {d e : Dev} {ws : List (Field × Nat)} {f : Field}

theorem fits_inWord (h : fits f ws = true) : f.lo + f.w ≤ 32 := by
  simp only [fits, Bool.and_eq_true, decide_eq_true_eq] at h
  exact h.1

theorem fits_apart (h : fits f ws = true) : ∀ x ∈ ws, Field.apart f x.1 = true ∧ Field.apart x.1 f = true := by
  simp only [fits, Bool.and_eq_true, decide_eq_true_eq, List.all_eq_true] at h
  exact h.2

theorem Wrote.refl (d : Dev) : Wrote d d [] := wrote_nil d d rfl rfl

/-- A change of the parts beyond the registers and the retention SRAM. -/
theorem Wrote.parts {x : Dev} (h : Wrote d e ws) (hr : x.regs = e.regs) (hs : x.sram = e.sram) : Wrote d x ws := by
  obtain ⟨hram, hset, hrest⟩ := h
  have hrd (g : Field) : x.rd g = e.rd g := by rw [rd_eq, rd_eq, hr]
  exact ⟨hs.trans hram, fun y hy => (hrd _).trans (hset y hy), fun g hg => (hrd g).trans (hrest g hg)⟩

/-- The same before the writes. -/
theorem Wrote.of_parts {x : Dev} (h : Wrote x e ws) (hr : x.regs = d.regs) (hs : x.sram = d.sram) : Wrote d e ws := by
  obtain ⟨hram, hset, hrest⟩ := h
  exact ⟨hram.trans hs, hset, fun g hg => (hrest g hg).trans (by rw [rd_eq, rd_eq, hr])⟩

/-- A field beside those written so far still reads as before. -/
theorem Wrote.rd (h : Wrote d e ws) (hf : fits f ws = true) : e.rd f = d.rd f :=
  h.2.2 f fun x hx => (fits_apart hf x hx).2

theorem Wrote.on (h : Wrote d e ws) (hf : fits f ws = true) : e.on f = d.on f := by rw [Dev.on, Dev.on, h.rd hf]

theorem Wrote.get (h : Wrote d e ws) {v : Nat} (hm : (f, v) ∈ ws) : e.rd f = v := h.2.1 (f, v) hm

theorem Wrote.nth (h : Wrote d e ws) (n : Nat) {v : Nat} (hn : ws[n]? = some (f, v)) : e.rd f = v :=
  h.get (List.mem_of_getElem? hn)

theorem Wrote.wr {v : Nat} (h : Wrote d e ws) (hf : fits f ws = true) (hv : v < 2 ^ f.w) :
    Wrote d (e.wr f v) (ws ++ [(f, v)]) :=
  h.append (wrote_wr_of_lt e f v (fits_inWord hf) hv) fun x hx y hy => by
    rw [List.mem_singleton.mp hy]
    exact (fits_apart hf x hx).1

theorem Wrote.wrMod {v : Nat} (h : Wrote d e ws) (hf : fits f ws = true) :
    Wrote d (e.wr f v) (ws ++ [(f, v % 2 ^ f.w)]) :=
  h.append (wrote_wr e f v (fits_inWord hf)) fun x hx y hy => by
    rw [List.mem_singleton.mp hy]
    exact (fits_apart hf x hx).1

theorem Wrote.wrB {b : Bool} (h : Wrote d e ws) (hf : fits f ws = true) (hw : 0 < f.w) :
    Wrote d (e.wrB f b) (ws ++ [(f, b2n b)]) :=
  h.wr hf ((b2n_le_one b).trans_lt (Nat.one_lt_two_pow (by omega)))

theorem Wrote.ev (h : Wrote d e ws) (hf : fits f ws = true) (hw : 0 < f.w) : Wrote d (e.ev f) (ws ++ [(f, 1)]) :=
  h.wr hf (Nat.one_lt_two_pow (by omega))

theorem Wrote.sat {n : Nat} (h : Wrote d e ws) (hf : fits f ws = true) :
    Wrote d (e.sat f n) (ws ++ [(f, min (d.rd f + n) (2 ^ f.w - 1))]) := by
  have hpos := Nat.two_pow_pos f.w
  have hread := h.rd hf
  rw [← hread]
  exact h.wr hf (by omega)

/-- A field written again takes the later value. -/
theorem Wrote.over {v w : Nat} (h : Wrote d e (ws ++ [(f, w)])) (hf : fits f ws = true) (hv : v < 2 ^ f.w) :
    Wrote d (e.wr f v) (ws ++ [(f, v)]) := by
  obtain ⟨hram, hset, hrest⟩ := h
  refine ⟨hram, fun x hx => ?_, fun g hg => ?_⟩
  · rcases List.mem_append.mp hx with hx | hx
    · exact (rd_wr_apart e f x.1 v (fits_apart hf x hx).1).trans (hset x (List.mem_append_left _ hx))
    · rw [List.mem_singleton.mp hx, rd_wr_same e f v (fits_inWord hf), Nat.mod_eq_of_lt hv]
  · have hfg := hg (f, v) (by simp)
    rw [rd_wr_apart e f g v hfg]
    refine hrest g fun x hx => ?_
    rcases List.mem_append.mp hx with hx | hx
    · exact hg x (List.mem_append_left _ hx)
    · rw [List.mem_singleton.mp hx]
      exact hfg

/-- Writes whose fields are all written again do not show. -/
theorem Wrote.absorb {g : Dev} {vs : List (Field × Nat)} (h1 : Wrote d e ws) (h2 : Wrote e g vs)
    (hsub : ∀ x ∈ ws, x.1 ∈ vs.map Prod.fst) : Wrote d g vs := by
  obtain ⟨hram1, -, hrest1⟩ := h1
  obtain ⟨hram2, hset2, hrest2⟩ := h2
  refine ⟨hram2.trans hram1, hset2, fun f hf => (hrest2 f hf).trans (hrest1 f fun x hx => ?_)⟩
  obtain ⟨y, hy, hyx⟩ := List.mem_map.mp (hsub x hx)
  rw [← hyx]
  exact hf y hy

/-- The writes in another order. -/
theorem Wrote.reorder {vs : List (Field × Nat)} (h : Wrote d e ws) (h1 : ∀ x ∈ ws, x ∈ vs) (h2 : ∀ x ∈ vs, x ∈ ws) :
    Wrote d e vs := h.of_mem_iff fun x => ⟨h1 x, h2 x⟩

/-- Fields of some blocks move no others. -/
theorem Stands.inBlocks {fs : List Field} {bs : List Nat} (h : Stands (Beside fs) d e)
    (hfs : (fs.all fun f => bs.contains (f.off / 0x4000)) = true) : Stands (Outside bs) d e :=
  ⟨fun g hg => h.1 g fun f hf => free_inBlocks hfs f hf g hg, h.2⟩

theorem Stands.widen {fs gs : List Field} (h : Stands (Beside fs) d e) (hsub : fs ⊆ gs) : Stands (Beside gs) d e :=
  ⟨fun g hg => h.1 g fun f hf => hg f (hsub hf), h.2⟩

/-- What a write list leaves alone stands. -/
theorem Wrote.beside (h : Wrote d e ws) : Stands (Beside (ws.map Prod.fst)) d e :=
  ⟨fun g hg => h.2.2 g fun x hx => hg x.1 (List.mem_map_of_mem hx), h.1⟩

end

/-! ### Registers alone -/

/-- From d to e registers and outputs alone move. -/
def Beyond (d e : Dev) : Prop := ∃ r o, e = { d with regs := r, outs := o }

section
variable {d e : Dev}

theorem Beyond.refl (d : Dev) : Beyond d d := ⟨d.regs, d.outs, rfl⟩

theorem Beyond.trans {x : Dev} (h1 : Beyond d e) (h2 : Beyond e x) : Beyond d x := by
  obtain ⟨r1, o1, rfl⟩ := h1
  obtain ⟨r2, o2, rfl⟩ := h2
  exact ⟨r2, o2, rfl⟩

theorem Beyond.setWord {o v : Nat} (h : Beyond d e) : Beyond d (e.setWord o v) := h.trans ⟨_, _, rfl⟩

theorem Beyond.wr {f : Field} {v : Nat} (h : Beyond d e) : Beyond d (e.wr f v) := h.setWord

theorem Beyond.wrB {f : Field} {b : Bool} (h : Beyond d e) : Beyond d (e.wrB f b) := h.wr

theorem Beyond.ev {f : Field} (h : Beyond d e) : Beyond d (e.ev f) := h.wr

theorem Beyond.sat {f : Field} {n : Nat} (h : Beyond d e) : Beyond d (e.sat f n) := h.wr

theorem Beyond.emit {o : Out} (h : Beyond d e) : Beyond d (e.emit o) := h.trans ⟨_, _, rfl⟩

theorem Beyond.ite {c : Prop} [Decidable c] {x y : Dev} (hx : Beyond d x) (hy : Beyond d y) : Beyond d (if c then x else y) := by
  split
  · exact hx
  · exact hy

theorem Beyond.evIf {c : Bool} {f : Field} (h : Beyond d e) : Beyond d (e.evIf c f) := .ite h.ev h

theorem Beyond.foldl {α : Type} {f : Dev → α → Dev} (l : List α) (h : Beyond d e)
    (hf : ∀ a ∈ l, ∀ x, Beyond d x → Beyond d (f x a)) : Beyond d (l.foldl f e) := by
  induction l generalizing e with
  | nil => exact h
  | cons a l ih => exact ih (hf a (by simp) e h) fun b hb => hf b (List.mem_cons_of_mem _ hb)

theorem Beyond.forN {n : Nat} {f : Nat → Dev → Dev} (h : Beyond d e)
    (hf : ∀ k < n, ∀ x, Beyond d x → Beyond d (f k x)) : Beyond d (forN n f e) :=
  h.foldl (List.range n) fun a ha x hx => hf a (by simpa using ha) x hx

/-- A part of the state that is no register and no output stands. -/
theorem Beyond.part {α : Type} (h : Beyond d e) (π : Dev → α) (hπ : ∀ x r o, π { x with regs := r, outs := o } = π x) :
    π e = π d := by
  obtain ⟨r, o, rfl⟩ := h
  exact hπ d r o

theorem Beyond.fld (h : Beyond d e) : e.fld = d.fld := h.part Dev.fld fun _ _ _ => rfl

end

/-! ### From the effect on a device without outputs to the command -/

/-- The device of s as a command finds it: the outputs of the command before are gone. -/
abbrev State.quiet (s : State) : Dev := { s.dev with outs := [] }

section
variable {c : Instr} {s : State} {f : Dev → Dev} {ws : List (Field × Nat)} {P : Dev → Prop} {k : Nat}

theorem ends_run (hx : ∀ s, exec c s = s.run f) (h : P (f s.quiet)) : Ends c s P := ⟨f s.quiet, hx s, h⟩

theorem does_run (hx : ∀ s, exec c s = s.run f) (h : Wrote s.quiet (f s.quiet) ws ∧ P (f s.quiet)) : Does c s ws P :=
  ⟨f s.quiet, hx s, h⟩

theorem ends_soft (hx : ∀ s, exec c s = s.run (soft k f)) (ht : Taken k s) (h : P (f s.quiet)) : Ends c s P := by
  obtain ⟨hb, hk⟩ := ht
  refine ends_run hx ?_
  rwa [soft_taken (d := s.quiet) hb hk]

theorem does_soft (hx : ∀ s, exec c s = s.run (soft k f)) (ht : Taken k s)
    (h : Wrote s.quiet (f s.quiet) ws ∧ P (f s.quiet)) : Does c s ws P := ends_soft hx ht h

end

end Sys2Proof.Machine
end

section
/-!
PROOFS. The sag test (R360 to R363, Table 17.3).
-/

namespace Sys2Proof.Machine

section
variable {d : Dev}

theorem ratGet_wr {f g : Field} {v : Nat} (h : f.off ≠ RAT_STATUS.addr) : (d.wr f v).ratGet g = d.ratGet g := by
  have hword : (d.wr f v).word RAT_STATUS.addr = d.word RAT_STATUS.addr := word_wr_ne d f v _ h.symm
  simp only [Dev.ratGet, Dev.ratWord, wr_rat, hword]

/-! ### Its states -/

theorem sagMod_id (d : Dev) : (d.sagMod fun x => x) = d := rfl

/-- A state is entered: its frames count from 0. -/
theorem sagEnter_wrote {st : Nat} (d : Dev) (h : st < 8) : Wrote d (sagEnter st d) [(FLD_CELL_STATUS.SAG_STATE, st)] :=
  ((Wrote.refl d).wr rfl h).parts rfl rfl

/-- An end shows IDLE and the result, takes the request back and forgets the readings. -/
theorem sagEnd_wrote {res : Nat} (d : Dev) (h : res < 16) : Wrote d (sagEnd res d)
    [(FLD_CELL_STATUS.SAG_STATE, 0), (FLD_CELL_STATUS.SAG_RESULT, res), (FLD_CELL_CTRL.SAG_START, 0)] :=
  (((sagEnter_wrote d (by decide)).wr (f := FLD_CELL_STATUS.SAG_RESULT) rfl h).wrB (f := FLD_CELL_CTRL.SAG_START) (b := false)
    rfl (by decide)).parts rfl rfl

theorem sagEnd_fld (res : Nat) (d : Dev) : (sagEnd res d).fld = { d.fld with sag := {} } := rfl

theorem sagReady_requested (d : Dev) : (d.wrB FLD_CELL_CTRL.SAG_START true).sagReady = d.sagReady := by
  have hrd (g : Field) (hg : g.off ≠ FLD_CELL_CTRL.addr) : (d.wrB FLD_CELL_CTRL.SAG_START true).rd g = d.rd g :=
    rd_wr_off d _ g _ hg
  have hrat (g : Field) : (d.wrB FLD_CELL_CTRL.SAG_START true).ratGet g = d.ratGet g := ratGet_wr (by decide)
  simp only [Dev.sagReady, Dev.holds, Dev.on, Dev.ratOn, Dev.tier, hrat, hrd LSH_STATUS.STATE (by decide),
    hrd FLD_CELL_STATUS.REC_OK (by decide), hrd FLD_SAG_READY.READY_MV (by decide), hrd MON_CELL_V.VALUE (by decide)]
  rfl

theorem sagSt_requested (d : Dev) : (d.wrB FLD_CELL_CTRL.SAG_START true).sagSt = d.sagSt := rd_wr_apart d _ _ _ (by decide)

theorem sagStart_refused (hreq : d.on FLD_CELL_CTRL.SAG_START = false) (hst : d.sagSt = 0) (hready : d.sagReady = false) :
    sagStart d = sagEnd 9 (d.wrB FLD_CELL_CTRL.SAG_START true) := by
  simp [sagStart, hreq, sagSt_requested, sagReady_requested, hst, hready]

theorem sagStart_taken (hreq : d.on FLD_CELL_CTRL.SAG_START = false) (hready : d.sagReady = true) :
    sagStart d = d.wrB FLD_CELL_CTRL.SAG_START true := by
  simp [sagStart, hreq, sagReady_requested, hready]

/-- The request that a refusal takes back does not show in what it wrote. -/
theorem sagStart_refused_wrote (d : Dev) : Wrote d (sagEnd 9 (d.wrB FLD_CELL_CTRL.SAG_START true))
    [(FLD_CELL_STATUS.SAG_STATE, 0), (FLD_CELL_STATUS.SAG_RESULT, 9), (FLD_CELL_CTRL.SAG_START, 0)] := by
  have hreq := (Wrote.refl d).wrB (f := FLD_CELL_CTRL.SAG_START) (b := true) rfl (by decide)
  exact hreq.absorb (sagEnd_wrote _ (by decide)) (by decide)

/-- The test begins without readings. -/
theorem sagBegin_wrote (d : Dev) : Wrote d (sagBegin d) [(FLD_CELL_STATUS.SAG_STATE, 1)] :=
  (sagEnter_wrote (d.sagMod fun _ => {}) (by decide)).of_parts rfl rfl

theorem sagAutoStart_due (hst : d.sagSt = 0) (hdue : d.sagDue = true) (hready : d.sagReady = true) :
    sagAutoStart d = sagBegin d := if_pos ⟨hst, hdue, hready⟩

theorem sagLoadOn_due (hst : d.sagSt = 1) (hfr : 8000 ≤ d.fld.sag.fr) : sagLoadOn d =
    sagEnter 2 (d.sagMod fun s => { s with v0 := meanOf (sumUp s.hist), i0 := meanOf (sumUp s.histI) }) := if_pos ⟨hst, hfr⟩

theorem sagLoadOff_due (hst : d.sagSt = 2) (hfr : 16000 ≤ d.fld.sag.fr) :
    sagLoadOff d = sagEnter 3 (d.sagMod fun s => { s with vb := meanOf (sumUp s.hist) }) := if_pos ⟨hst, hfr⟩

/-- An abort of a running test. -/
theorem sagAbort_wrote (hon : d.sagOn = true) : Wrote d (sagAbortWith 7 d)
    [(FLD_CELL_STATUS.SAG_STATE, 0), (FLD_CELL_STATUS.SAG_RESULT, 7), (FLD_CELL_CTRL.SAG_START, 0), (FLD_EVENT.SAG_ABORT, 1)] ∧
    (sagAbortWith 7 d).fld = { d.fld with sag := {} } := by
  have habort : sagAbortWith 7 d = (sagEnd 7 d).ev FLD_EVENT.SAG_ABORT := by simp [sagAbortWith, hon]
  rw [habort]
  exact ⟨(sagEnd_wrote d (by decide)).ev rfl (by decide), rfl⟩

theorem sagOn_of_sagSt (h1 : 1 ≤ d.sagSt) (h3 : d.sagSt ≤ 3) : d.sagOn = true := decide_eq_true ⟨h1, h3⟩

/-! ### The end of WRITE -/

/-- Whether the life record waits or is on the line. -/
theorem sagDone_over (hst : d.sagSt = 4) (h : d.holds = false ∨ d.fld.gl = none ∧ d.fld.glq = []) :
    sagDone d = (sagEnd 1 d).ev FLD_EVENT.SAG_DONE := by
  have hwritten : sagWritten d = (sagEnd 1 d).ev FLD_EVENT.SAG_DONE := if_pos hst
  rw [← hwritten]
  refine if_pos ⟨hst, h.imp (by simp [·]) fun ⟨hgl, hglq⟩ => ?_⟩
  simp [hgl, hglq]

/-! ### A transaction of the OX4 on a free line -/

/-- A transaction on an idle line is on it, or waits for it; BUSY shows it. -/
theorem glStart_shows (g : Gl) (d : Dev) : Stands (Beside [FLD_GL_STATUS.BUSY]) d (glStart g d) ∧
    (glStart g d).rd FLD_GL_STATUS.BUSY = 1 ∧ ((glStart g d).fld.gl.map fun g => (g.who, g.op)) = some (g.who, g.op) ∧
    (glStart g d).fld.sag = d.fld.sag := by
  have hbusy : Stands (Beside [FLD_GL_STATUS.BUSY]) d (d.wrB FLD_GL_STATUS.BUSY true) :=
    (Stands.refl _ d).wrB (.listed (by simp))
  have hset : (d.wrB FLD_GL_STATUS.BUSY true).rd FLD_GL_STATUS.BUSY = 1 := rd_wr_same d _ _ (by decide)
  unfold glStart
  split
  · exact ⟨hbusy.parts rfl rfl, hset, rfl, rfl⟩
  · exact ⟨hbusy.parts rfl rfl, hset, rfl, rfl⟩

theorem glStart_ready {g : Gl} (h : d.glReady = true) : glStart g d = glRun g d := if_pos h

theorem glQueue_free (w : GlWho) (hgl : d.fld.gl = none) (hglq : d.fld.glq = []) : glQueue w d = glOwn w d := by
  have hq : d.fldMod (fun f => { f with glq := [] }) = d := by
    rw [Dev.fldMod, ← hglq]
  conv_rhs => rw [← hq]
  simp [glQueue, glNext, hgl, hglq]
  rfl

theorem glOwn_life (h : d.holds = true) : glOwn .life d = glStart (d.glNew .life 3 d.lifeRecord)
    (d.fldMod fun f => { f with cycIn := d.rd FLD_CELL_CFG.CYC_PEND }) := if_pos h

/-! ### The results -/

/-- What an end-of-life test may write (R360). -/
def eolFields : List Field :=
  [FLD_CELL_STATUS.EOL, FLD_CELL_STATUS.EOL_C, FLD_CELL_STATUS.EOL_ESR, FLD_CELL_STATUS.EOL_CYC, FLD_EVENT.CELL_EOL]

theorem eolTest_stands (d : Dev) : Stands (Beside eolFields) d (eolTest d) := by
  have hfree : ∀ f ∈ eolFields, Free (Beside eolFields) f := free_listed (List.Subset.refl _)
  unfold eolTest
  refine .ite (.refl _ d) ?_
  refine Stands.evIf (Stands.wrB (.ite (Stands.wrB (.ite (Stands.wrB (.ite (Stands.wrB (.refl _ d) ?_) (.refl _ d)) ?_)
    (.ite (Stands.wrB (.refl _ d) ?_) (.refl _ d))) ?_) (.ite (Stands.wrB (.ite (Stands.wrB (.refl _ d) ?_) (.refl _ d)) ?_)
    (.ite (Stands.wrB (.refl _ d) ?_) (.refl _ d)))) ?_) ?_
  all_goals exact hfree _ (by decide)

theorem eolTest_fld (d : Dev) : (eolTest d).fld = d.fld := by
  have h0 := Beyond.refl d
  refine Beyond.fld ?_
  unfold eolTest
  exact .ite h0 (Beyond.evIf (.wrB (.ite (.wrB (.ite (.wrB (.ite h0.wrB h0)) (.ite h0.wrB h0)))
    (.ite (.wrB (.ite h0.wrB h0)) (.ite h0.wrB h0)))))

/-- What a test that ends well stores (R362). -/
theorem sagCompute_good {v0 va vb r : Nat} (hst : d.sagSt = 3) (hfr : 8 ≤ d.fld.sag.fr) (hv0 : v0 = d.fld.sag.v0)
    (hva : va = meanOf d.fld.sag.va) (hvb : vb = d.fld.sag.vb) (hr : r = d.rd FLD_SAG_CFG.LOAD_MOHM) (h1 : vb < va)
    (h2 : va < v0) (h3 : va / r ≠ 0) : ∃ x : Dev, sagCompute d = glQueue .life (sagEnter 4 (eolTest x)) ∧ x.fld = d.fld ∧
      Wrote d x [(FLD_SAG_V0.VALUE, v0 % 2 ^ 32), (FLD_SAG_VA.VALUE, va % 2 ^ 32), (FLD_SAG_VB.VALUE, vb % 2 ^ 32),
        (FLD_CELL_ESR.VALUE, (v0 - va) * 1000 / (va / r) % 2 ^ 32),
        (FLD_CELL_C.VALUE, ((va + vb) / 2 / r) * 15992 * 125 / (va - vb) % 2 ^ 32),
        (FLD_CELL_LAST_T.VALUE, d.frameExt / 8000 % 2 ^ 32),
        (FLD_CELL_CFG.CYC_PEND, min (d.rd FLD_CELL_CFG.CYC_PEND + 1) 255)] := by
  have hlist := ((((((Wrote.refl d).wrMod (f := FLD_SAG_V0.VALUE) (v := v0) rfl).wrMod (f := FLD_SAG_VA.VALUE) (v := va)
    rfl).wrMod (f := FLD_SAG_VB.VALUE) (v := vb) rfl).wrMod (f := FLD_CELL_ESR.VALUE) (v := (v0 - va) * 1000 / (va / r))
    rfl).wrMod (f := FLD_CELL_C.VALUE) (v := ((va + vb) / 2 / r) * 15992 * 125 / (va - vb)) rfl).wr
    (f := FLD_CELL_LAST_T.VALUE) (v := d.frameExt / 8000 % 2 ^ 32) rfl (Nat.mod_lt _ (by decide))
  have hpend := hlist.rd (f := FLD_CELL_CFG.CYC_PEND) rfl
  have hall := hlist.wr (f := FLD_CELL_CFG.CYC_PEND) (v := min (d.rd FLD_CELL_CFG.CYC_PEND + 1) 255) rfl (by
    show _ < 256
    omega)
  refine ⟨_, ?_, ?_, hall⟩
  · rw [sagCompute, if_pos ⟨hst, hfr⟩]
    simp only [← hv0, ← hva, ← hvb, ← hr, if_neg (show ¬(va / r = 0 ∨ v0 ≤ va ∨ va ≤ vb) by omega)]
    have htime : ((((((d.wr FLD_SAG_V0.VALUE v0).wr FLD_SAG_VA.VALUE va).wr FLD_SAG_VB.VALUE vb).wr FLD_CELL_ESR.VALUE
        ((v0 - va) * 1000 / (va / r))).wr FLD_CELL_C.VALUE ((va + vb) / 2 / r * 15992 * 125 / (va - vb)))).frameExt =
        d.frameExt :=
      (Beyond.refl d).wr.wr.wr.wr.wr.part Dev.frameExt fun _ _ _ => rfl
    rw [htime, ← hpend]
  · exact (Beyond.refl d).wr.wr.wr.wr.wr.wr.wr.fld

/-- What moves from the results stored to the life record's transaction. -/
theorem lifeWrite_shows {x : Dev} (hholds : x.holds = true) (hgl : x.fld.gl = none) (hglq : x.fld.glq = []) :
    Stands (Beside (FLD_GL_STATUS.BUSY :: FLD_CELL_STATUS.SAG_STATE :: eolFields)) x (glQueue .life (sagEnter 4 (eolTest x))) ∧
      (glQueue .life (sagEnter 4 (eolTest x))).sagSt = 4 ∧
      ((glQueue .life (sagEnter 4 (eolTest x))).fld.gl.map fun g => (g.who, g.op)) = some (.life, 3) := by
  have heol := eolTest_stands x
  have henter := sagEnter_wrote (st := 4) (eolTest x) (by decide)
  have hfld : (sagEnter 4 (eolTest x)).fld = { x.fld with sag := { x.fld.sag with fr := 0 } } := by
    rw [sagEnter, Dev.sagMod, fldMod_fld, wr_fld, eolTest_fld]
  have hyholds : (sagEnter 4 (eolTest x)).holds = true := by
    rw [← hholds, Dev.holds, henter.rd rfl, heol.rd (g := LSH_STATUS.STATE) (by decide), Dev.holds]
  obtain ⟨hline, -, hwho, -⟩ := glStart_shows ((sagEnter 4 (eolTest x)).glNew .life 3 (sagEnter 4 (eolTest x)).lifeRecord)
    ((sagEnter 4 (eolTest x)).fldMod fun f => { f with cycIn := (sagEnter 4 (eolTest x)).rd FLD_CELL_CFG.CYC_PEND })
  rw [← glOwn_life hyholds, ← glQueue_free .life (by rw [hfld]; exact hgl) (by rw [hfld]; exact hglq)] at hline hwho
  refine ⟨?_, ?_, hwho⟩
  · exact ((heol.widen (by simp)).trans (henter.beside.widen (by simp))).trans
      (((Stands.refl _ (sagEnter 4 (eolTest x))).parts rfl rfl).trans (hline.widen (by simp)))
  · exact (hline.rd (g := FLD_CELL_STATUS.SAG_STATE) (by decide)).trans (henter.get (by simp))

/-- The line is ready by SHARED, the Hearth, and the mote since which it has been high. -/
theorem glReady_congr {d e : Dev} (hon : e.on FLD_GL_CFG.SHARED = d.on FLD_GL_CFG.SHARED) (hup : e.fld.glUp = d.fld.glUp)
    (hh : e.hearth = d.hearth) : e.glReady = d.glReady := by
  rw [Dev.glReady, Dev.glReady, hon, hup, Dev.nowExt, Dev.now, hh]
  rfl

theorem sagMod_glReady (d : Dev) (f : Sag → Sag) : (d.sagMod f).glReady = d.glReady := glReady_congr rfl rfl rfl

theorem sagMod_glNew (d : Dev) (f : Sag → Sag) (w : GlWho) (op : Nat) (b : Bytes) : (d.sagMod f).glNew w op b = d.glNew w op b :=
  rfl

theorem sagMod_stands (P : Field → Prop) (d : Dev) (f : Sag → Sag) : Stands P d (d.sagMod f) := (Stands.refl P d).parts rfl rfl

theorem sagMod_gl (d : Dev) (f : Sag → Sag) : (d.sagMod f).fld.gl = d.fld.gl := rfl

theorem sagMod_glq (d : Dev) (f : Sag → Sag) : (d.sagMod f).fld.glq = d.fld.glq := rfl

theorem glOwn_check (d : Dev) : glOwn .check d = glStart (d.glNew .check 2 []) d := rfl

theorem glRun_stands (g : Gl) (d : Dev) : Stands (Beside [FLD_GL_STATUS.BUSY]) d (glRun g d) ∧
    (glRun g d).rd FLD_GL_STATUS.BUSY = 1 :=
  ⟨((Stands.refl _ d).wrB (f := FLD_GL_STATUS.BUSY) (b := true) (.listed (by simp))).parts rfl rfl, rd_wr_same d _ 1 (by decide)⟩

theorem glRun_fld (g : Gl) (d : Dev) :
    (glRun g d).fld = { d.fld with gl := some { g with start := d.nowExt, wait := none, idle := false } } := rfl

theorem glRun_outs (g : Gl) (d : Dev) : (glRun g d).outs = d.outs ++ [.guyline g.op g.bs (glLows g.bs g.rd)] := rfl

theorem sagCheck_due {d : Dev} (hon : d.sagOn = true) (hchk : 512 ≤ d.fld.sag.chk) (hgl : d.fld.gl = none)
    (hglq : d.fld.glq = []) (hready : d.glReady = true) :
    sagCheck d = glRun (d.glNew .check 2 []) (d.sagMod fun s => { s with chk := s.chk - 512 }) := by
  rw [sagCheck, if_pos ⟨hon, hchk⟩, glQueue_free .check ((sagMod_gl d _).trans hgl) ((sagMod_glq d _).trans hglq), glOwn_check, sagMod_glNew,
    glStart_ready ((sagMod_glReady d _).trans hready)]

end

/-- Settles O41. -/
theorem sagTest : Obligations.SagTest := by
  intro s
  refine ⟨fun ht hreq hst hready => ?_, fun ht hreq hst hready => ?_, fun hst hdue hready => ?_, fun hst hfr => ?_,
    fun hst hfr => ?_, fun v0 va vb r hst hfr hv0 hva hvb hr h1 h2 h3 hholds hgl hglq => ?_, fun hst hfr hbad => ?_,
    fun hst hover => ?_, fun ht h1 h3 => ?_, fun h1 h3 hchk hgl hglq hready => ?_, fun ht => ?_⟩
  · refine does_soft (fun _ => rfl) ht ?_
    rw [sagStart_refused (d := s.quiet) hreq hst hready]
    exact ⟨sagStart_refused_wrote _, rfl⟩
  · refine does_soft (fun _ => rfl) ht ?_
    rw [sagStart_taken (d := s.quiet) hreq hready]
    exact ⟨(Wrote.refl s.quiet).wrB (b := true) rfl (by decide), rfl⟩
  · refine does_run (fun _ => rfl) ?_
    rw [sagAutoStart_due (d := s.quiet) hst hdue hready]
    exact ⟨sagBegin_wrote _, rfl⟩
  · refine does_run (fun _ => rfl) ?_
    rw [sagLoadOn_due (d := s.quiet) hst hfr]
    exact ⟨(sagEnter_wrote _ (by decide)).of_parts rfl rfl, rfl⟩
  · refine does_run (fun _ => rfl) ?_
    rw [sagLoadOff_due (d := s.quiet) hst hfr]
    exact ⟨(sagEnter_wrote _ (by decide)).of_parts rfl rfl, rfl⟩
  · obtain ⟨x, hx, hfld, hw⟩ := sagCompute_good (d := s.quiet) hst hfr hv0 hva hvb hr h1 h2 h3
    have hxholds : x.holds = true := by
      rw [Dev.holds, hw.rd rfl]
      exact hholds
    obtain ⟨hstands, hst4, hwho⟩ := lifeWrite_shows hxholds (by rw [hfld]; exact hgl) (by rw [hfld]; exact hglq)
    refine ends_run (f := sagCompute) (fun _ => rfl) ?_
    rw [hx]
    have hall := (hw.beside.inBlocks (bs := [28]) (by simp only [List.map_cons, List.map_nil]; decide)).trans (hstands.inBlocks (by decide))
    exact ⟨hall.within, hall.2, hst4, (hstands.rd (by decide)).trans (hw.nth 0 rfl),
      (hstands.rd (by decide)).trans (hw.nth 1 rfl), (hstands.rd (by decide)).trans (hw.nth 2 rfl),
      (hstands.rd (by decide)).trans (hw.nth 3 rfl), (hstands.rd (by decide)).trans (hw.nth 4 rfl),
      (hstands.rd (by decide)).trans (hw.nth 5 rfl), (hstands.rd (by decide)).trans (hw.nth 6 rfl), hwho⟩
  · refine does_run (f := sagCompute) (fun _ => rfl) ?_
    have hend : sagCompute s.quiet = sagEnd 8 s.quiet := by
      rw [sagCompute, if_pos ⟨hst, hfr⟩]
      exact if_pos (by tauto)
    rw [hend]
    exact ⟨sagEnd_wrote _ (by decide), rfl⟩
  · refine does_run (fun _ => rfl) ?_
    rw [sagDone_over (d := s.quiet) hst hover]
    exact ⟨(sagEnd_wrote _ (by decide)).ev rfl (by decide), rfl⟩
  · obtain ⟨hw, hfld⟩ := sagAbort_wrote (d := s.quiet) (sagOn_of_sagSt h1 h3)
    exact does_soft (fun _ => rfl) ht ⟨hw, by rw [hfld], by rw [hfld]⟩
  · have hline : s.quiet.glReady = s.dev.glReady := glReady_congr rfl rfl rfl
    refine ends_run (fun _ => rfl) ?_
    rw [sagCheck_due (d := s.quiet) (sagOn_of_sagSt h1 h3) hchk hgl hglq (hline.trans hready)]
    obtain ⟨hbusy, hset⟩ := glRun_stands (s.quiet.glNew .check 2 []) (s.quiet.sagMod fun s => { s with chk := s.chk - 512 })
    refine ⟨((sagMod_stands _ s.quiet _).trans hbusy).only, ((sagMod_stands _ s.quiet _).trans hbusy).2, ?_, ?_, hset, ?_⟩
    · rw [glRun_fld, Dev.sagMod, fldMod_fld]
    · rw [glRun_fld]
      rfl
    · rw [glRun_outs]
      rfl
  · refine does_soft (fun _ => rfl) ht ⟨?_, (Beyond.refl s.quiet).wrB.wrB.wrB.wrB.fld⟩
    exact ((((Wrote.refl s.quiet).wrB (b := false) rfl (by decide)).wrB (b := false) rfl (by decide)).wrB (b := false) rfl
      (by decide)).wrB (b := false) rfl (by decide)

end Sys2Proof.Machine
end

section
/-!
PROOFS. What a statement about the high half of the Hearth's time says of a Hearth beyond HT64.
-/

namespace Sys2Proof.Machine

/-- A Hearth copy of time 2 ^ 64: no field of 32 bits holds the high half of that time. -/
def pastHt64 : HCopy := { t := 2 ^ 64 }

/-- A part in CLAIMING for two frame events, its Hearth at 2 ^ 64. -/
def claimingPast : State :=
  { dev := { ({} : Dev).wr LSH_STATUS.STATE 2 with hearth := { a := pastHt64 }, lsh := { claimEv := 2 } } }

/-- Refutes O32: the statement has LSH_TAKE_T_HI show the whole of the time above 2 ^ 32 for every state, and the time of
`claimingPast` is 2 ^ 64, which its 32 bits do not hold. -/
theorem not_leashToken : ¬ Obligations.LeashToken := by
  intro h
  obtain ⟨-, -, htake, -⟩ := h claimingPast
  obtain ⟨e, -, -, -, -, -, -, -, hhigh, -⟩ := htake (by decide) (by decide)
  have hfits : e.rd LSH_TAKE_T_HI.T < 2 ^ 32 := rd_lt e LSH_TAKE_T_HI.T
  rw [hhigh] at hfits
  exact absurd hfits (by decide)

/-- A part in STANDBY whose mirror lane is powered, its Hearth at 2 ^ 64. -/
def standbyPast : State :=
  { dev := { (({} : Dev).wr LSH_STATUS.STATE 1).wr RAT_DOM_STATUS.LSH_LANE_ON 1 with
      hearth := { a := pastHt64 }, lsh := { recalTo := 0 } } }

/-- Refutes O33: the statement has LSH_PEER_RENEW_HI show the whole of the time above 2 ^ 32 for every state, and a STATUS frame
that renews comes in `standbyPast` at time 2 ^ 64, which its 32 bits do not hold. -/
theorem not_leashMirror : ¬ Obligations.LeashMirror := by
  intro h
  obtain ⟨-, -, hstatus, -⟩ := h standbyPast
  obtain ⟨e, -, -, -, -, -, -, -, -, hhigh, -⟩ :=
    hstatus 0 0 0 0 0 ⟨by decide, by decide⟩ (by decide) (by decide) (by decide) (by decide)
  have hfits : e.rd LSH_PEER_RENEW_HI.T < 2 ^ 32 := rd_lt e LSH_PEER_RENEW_HI.T
  rw [hhigh] at hfits
  exact absurd hfits (by decide)

end Sys2Proof.Machine
end

section
/-!
PROOFS. A mailbox that sets itself up as a ring.
-/

namespace Sys2Proof.Machine

/-- RING_SETUP of ring 1 of kind 5, which the assignment of `selfSetup` puts on the mailbox of function 0. -/
def selfSetupCmd : Desc := { w := [1, 0x105, 0, 0, 0, 0, 0, 0] }

/-- A part whose function 0 holds the Pegline rings 15 and 16, and whose mailbox, CONS 5, holds `selfSetupCmd`. -/
def selfSetup : State :=
  { dev := { ((((({} : Dev).wr (HIF_FNf_MISC.PEG_BASE 0) 15).wr (HIF_FNf_MISC.PEG_CNT 0) 2).wr HIF_VF_STATE.PF0 1).wr
        HIF_STATUS.DL_UP 1) with
      host := { fns := { bme := true } :: List.replicate 15 {}, rings := [(416, { cons := 5, taken := [selfSetupCmd] })] } } }

/-- Refutes O17: the statement has RING_SETUP count the mailbox's descriptor as returned and start the new ring at CONS 0, for every
assignment of rings; in `selfSetup` the ring set up is the mailbox itself. -/
theorem not_mailboxCommands : ¬ Obligations.MailboxCommands := by
  intro h
  obtain ⟨-, hsetup, -⟩ := h selfSetup
  obtain ⟨e, -, ⟨-, hback, -⟩, -, -, -, -, -, -, hnew⟩ := hsetup 0 selfSetupCmd 416 (by decide) (by decide) (by decide)
    (by decide) (by decide) (by decide)
  have hone : (e.ring 416).cons = 6 := hback
  rw [hnew] at hone
  exact absurd hone (by decide)

end Sys2Proof.Machine
end

section
/-!
PROOFS. Audio channels and IEC 60958 receivers (R301, R306, R307, R312).
-/

namespace Sys2Proof.Machine

section
variable {d : Dev} {dir : Bool} {k p : Nat}

/-! ### Channels -/

/-- A change of a channel by a function that fixes the channel of no list shows on that channel. -/
theorem ac_acMod {f : AudCh → AudCh} (h : f {} = {}) : (d.acMod dir k f).ac dir k = f (d.ac dir k) := by
  cases dir <;> simp only [Dev.ac, Dev.acMod, Bool.false_eq_true, List.getD_eq_getElem?_getD,
    List.getElem?_modify_eq, Option.map_eq_map, ↓reduceIte]
  · cases d.sap.outs[k]? <;> simp [h]
  · cases d.sap.ins[k]? <;> simp [h]

theorem run_fits : ∀ (dir : Bool) (k : Fin 64), fits (runField dir k) [] = true := by decide

theorem run_fade_fits : ∀ (dir : Bool) (k : Fin 64), fits (fadeField dir k) [(runField dir k, 2)] = true := by decide

theorem acMod_regs (f : AudCh → AudCh) : (d.acMod dir k f).regs = d.regs := by
  cases dir <;> rfl

theorem acMod_sram (f : AudCh → AudCh) : (d.acMod dir k f).sram = d.sram := by
  cases dir <;> rfl

/-- A ramp in from gain 0. -/
def AudCh.rampIn (c : AudCh) : AudCh := { map := c.map, hold := c.hold, cell := c.cell, gPos := 0, gLen := 1 }

theorem sapChannelOn_free (hrun : d.rd (runField dir k) = 1) (htakes : d.portTakes (d.ac dir k) = true)
    (hfree : ∀ j : Fin 64, j.val ≠ k → d.rd (runField dir j) ≠ 0 → acClash dir (d.ac dir k) (d.ac dir j) = false) :
    sapChannelOn dir k d = ((d.wr (runField dir k) 2).wr (fadeField dir k) 3).acMod dir k AudCh.rampIn := by
  have hfoes : ((List.range 64).filter fun j => j != k && d.rd (runField dir j) != 0 &&
      acClash dir (d.ac dir k) (d.ac dir j)) = [] := by
    refine List.filter_eq_nil_iff.mpr fun j hj => ?_
    have hclash := hfree ⟨j, List.mem_range.mp hj⟩
    simp only [Bool.and_eq_true, bne_iff_ne, ne_eq, not_and, Bool.not_eq_true, and_imp]
    exact hclash
  simp only [sapChannelOn, hrun, htakes, hfoes]
  rfl

theorem sapChannelOn_waits {j : Fin 64} (hrun : d.rd (runField dir k) = 1) (htakes : d.portTakes (d.ac dir k) = true)
    (hjk : j.val < k) (h0 : d.rd (runField dir j) ≠ 0) (h3 : d.rd (runField dir j) ≠ 3)
    (hclash : acClash dir (d.ac dir k) (d.ac dir j) = true) :
    sapChannelOn dir k d = sapEv (d.ac dir k).port SAPp_EVENT.SLOT_CONFLICT d := by
  have hfoe : (((List.range 64).filter fun j => j != k && d.rd (runField dir j) != 0 &&
      acClash dir (d.ac dir k) (d.ac dir j)).any fun j => decide (j < k) && d.rd (runField dir j) != 3) = true := by
    refine List.any_eq_true.mpr ⟨j, List.mem_filter.mpr ⟨List.mem_range.mpr j.isLt, ?_⟩, ?_⟩
    · simp [h0, hclash, Nat.ne_of_lt hjk]
    · simp [hjk, h3]
  simp only [sapChannelOn, hrun, htakes]
  exact if_pos hfoe

/-- A channel that is quiet: neither gain nor delivery stands. -/
def AudCh.rested (c : AudCh) : AudCh := { map := c.map, gLen := c.gLen, cell := c.cell, hold := c.hold }

theorem fadeDone_over (hrun : d.rd (runField dir k) = 3) (hfade : d.rd (fadeField dir k) = 2) :
    fadeDone dir k d = (d.acMod dir k AudCh.rested).wr (runField dir k) 0 := by
  simp only [fadeDone, hrun, hfade]
  rfl

/-! ### Locks -/

/-- What a receiver reports when it locks or loses lock. -/
abbrev lockEv (b : Bool) (p : Nat) : Field := if b then SAPp_EVENT.LOCK p else SAPp_EVENT.LOCK_LOST p

theorem lock_fits : ∀ (b : Bool) (p : Fin 8), fits (SAPp_STATUS.LOCKED p) [] = true ∧
    fits (lockEv b p) [(SAPp_STATUS.LOCKED p, b2n b)] = true := by decide

theorem lockEv_width (b : Bool) (p : Nat) : (lockEv b p).w = 1 := by cases b <;> rfl

theorem sapLock_moves {iec b : Bool} (hrun : 2 ≤ d.sapRun p) (hlock : d.on (SAPp_STATUS.LOCKED p) = !b)
    (hkind : (if iec then (d.port p).iec && (!b || d.on (SAP_IECq_CFG.RX_EN (p - 6))) else !(d.port p).iec && !(d.port p).master) = true) :
    sapLock iec b p d = (d.wrB (SAPp_STATUS.LOCKED p) b).ev (lockEv b p) := by
  simp [sapLock, hrun, hlock, hkind]

theorem lock_wrote (b : Bool) (p : Fin 8) (d : Dev) : Wrote d ((d.wrB (SAPp_STATUS.LOCKED p) b).ev (lockEv b p))
    [(SAPp_STATUS.LOCKED p, b2n b), (lockEv b p, 1)] := by
  obtain ⟨hlocked, hev⟩ := lock_fits b p
  exact ((Wrote.refl d).wrB hlocked Nat.one_pos).ev hev (by simp [lockEv_width])

/-! ### Port state -/

theorem port_sapPortMod {f : SapPort → SapPort} (h : p < d.sap.ports.length) :
    (d.sapPortMod p f).port p = f (d.port p) := by
  simp [Dev.port, Dev.sapPortMod, List.getD_eq_getElem?_getD, List.getElem?_eq_getElem h]

/-- A port with a frame to send is one of the ports. -/
theorem port_lt_of_outQ {w : List Nat} {rest : List (List Nat)} (h : (d.port p).outQ = w :: rest) :
    p < d.sap.ports.length := by
  by_contra hp
  simp [Dev.port, List.getD_eq_getElem?_getD, List.getElem?_eq_none (Nat.le_of_not_lt hp)] at h

theorem ports_length {f : SapPort → SapPort} : (d.sapPortMod p f).sap.ports.length = d.sap.ports.length := by
  simp [Dev.sapPortMod]

theorem fill_fits : ∀ p : Fin 8, fits (SAPp_STATUS.FILL p) [] = true := by decide

theorem outRead_cons {w : List Nat} {rest : List (List Nat)} (h : (d.port p).outQ = w :: rest) :
    outRead p d = (w, sapFill p (d.sapPortMod p fun q => { q with outQ := rest, outLast := w })) := by
  simp only [outRead, h]

/-- A frame leaves the output buffer. -/
theorem outRead_wrote {p : Fin 8} {w : List Nat} {rest : List (List Nat)} (h : (d.port p).outQ = w :: rest)
    (hrest : rest.length < 4) : Wrote d (outRead p d).2 [(SAPp_STATUS.FILL p, rest.length)] ∧
      (outRead p d).2.port p = { d.port p with outQ := rest, outLast := w } ∧ (outRead p d).2.outs = d.outs := by
  have hp := port_lt_of_outQ h
  have hport := port_sapPortMod (f := fun q : SapPort => { q with outQ := rest, outLast := w }) hp
  rw [outRead_cons h, sapFill, hport]
  refine ⟨?_, hport, rfl⟩
  exact ((Wrote.refl d).parts (x := d.sapPortMod p fun q => { q with outQ := rest, outLast := w }) rfl rfl).wr (fill_fits p) (hrest.trans (show 4 < 2 ^ 3 by decide))

/-! ### IEC 60958 (R306, R307) -/

/-- The transmitter's channel status is read at the start of a block. -/
def csRead (p : Nat) (d : Dev) : Dev :=
  if (d.port p).txIdx = 0 then d.sapPortMod p fun q => { q with csTx := d.csOut (p - 6) } else d

theorem csRead_port (hp : p < d.sap.ports.length) : ∃ c, (csRead p d).port p = { d.port p with csTx := c } := by
  unfold csRead
  split
  · exact ⟨_, port_sapPortMod hp⟩
  · exact ⟨_, rfl⟩

theorem csRead_parts : (csRead p d).regs = d.regs ∧ (csRead p d).sram = d.sram ∧ (csRead p d).outs = d.outs ∧
    (csRead p d).sap.ports.length = d.sap.ports.length := by
  unfold csRead
  split
  · exact ⟨rfl, rfl, rfl, ports_length⟩
  · exact ⟨rfl, rfl, rfl, rfl⟩

/-- A frame goes out: its place in the block, the buffer's rest, and the next place. -/
theorem iecSend_wrote {p : Fin 8} {w : List Nat} {rest : List (List Nat)} (h : (d.port p).outQ = w :: rest)
    (hrest : rest.length < 4) : Wrote d (iecSend p d) [(SAPp_STATUS.FILL p, rest.length)] ∧
      (∃ a b, (iecSend p d).outs = d.outs ++ [.iec p ((d.port p).txIdx == 0) a b]) ∧ ((iecSend p d).port p).outQ = rest ∧
      ((iecSend p d).port p).txIdx = ((d.port p).txIdx + 1) % 192 := by
  obtain ⟨hwrote, hport, houts⟩ := outRead_wrote h hrest
  have hlen : p.val < (outRead p d).2.sap.ports.length := by
    rw [outRead_cons h]
    exact ports_length.symm ▸ port_lt_of_outQ h
  obtain ⟨hregs, hsram, houts', hlen'⟩ := csRead_parts (d := (outRead p d).2) (p := p)
  obtain ⟨c, hcs⟩ := csRead_port hlen
  have hidx : ((csRead p (outRead p d).2).port p).txIdx = (d.port p).txIdx := by rw [hcs, hport]
  have hsent : ∃ a b, iecSend p d = ((csRead p (outRead p d).2).emit (.iec p
      (((csRead p (outRead p d).2).port p).txIdx == 0) a b)).sapPortMod p fun q => { q with txIdx := (q.txIdx + 1) % 192 } :=
    ⟨_, _, rfl⟩
  obtain ⟨a, b, hsent⟩ := hsent
  rw [hsent, port_sapPortMod (by exact hlen' ▸ hlen), hidx]
  refine ⟨(hwrote.parts hregs hsram).parts rfl rfl, ⟨a, b, ?_⟩, ?_, ?_⟩
  · rw [← houts, ← houts']
    rfl
  · exact (congrArg SapPort.outQ hcs).trans (congrArg SapPort.outQ hport)
  · exact congrArg (fun n => (n + 1) % 192) hidx

/-! ### A list of writes -/

/-- Each field of vs lies in its word, beside those before it and those of ws. -/
def fitAll (ws : List (Field × Nat)) : List (Field × Nat) → Bool
  | [] => true
  | x :: vs => fits x.1 ws && fitAll (ws ++ [x]) vs

theorem Wrote.wrs {e : Dev} {ws : List (Field × Nat)} (vs : List (Field × Nat)) (h : Wrote d e ws)
    (hf : fitAll ws vs = true) (hv : ∀ x ∈ vs, x.2 < 2 ^ x.1.w) :
    Wrote d (vs.foldl (fun e x => e.wr x.1 x.2) e) (ws ++ vs) := by
  induction vs generalizing e ws with
  | nil => simpa using h
  | cons x vs ih =>
    obtain ⟨hx, hvs⟩ := Bool.and_eq_true_iff.mp hf
    have hnext := ih (h.wr hx (hv x (by simp))) hvs fun y hy => hv y (List.mem_cons_of_mem _ hy)
    rwa [List.append_assoc] at hnext

theorem leNat_lt (bs : Bytes) : leNat bs < 256 ^ bs.length := by
  induction bs with
  | nil => simp [leNat]
  | cons b bs ih =>
    have hb := b.isLt
    rw [leNat, List.length_cons, Nat.pow_succ]
    omega

theorem leNat_slice_lt (bs : Bytes) (o : Nat) : leNat (slice bs o 4) < 2 ^ 32 :=
  calc leNat (slice bs o 4) < 256 ^ (slice bs o 4).length := leNat_lt _
    _ ≤ 256 ^ 4 := Nat.pow_le_pow_right (by decide) (by simp [slice])
    _ = 2 ^ 32 := by decide

/-! ### The end of a block (R307) -/

/-- The writes of a stored channel status: the words of the two subframes. -/
def csWrites (q : Nat) (a b : Bytes) : List (Field × Nat) :=
  (List.range 6).flatMap fun j => [(SAP_IECq_CS_RXAk.BYTES q j, leNat (slice a (4 * j) 4)),
    (SAP_IECq_CS_RXBk.BYTES q j, leNat (slice b (4 * j) 4))]

theorem csWrites_fit (q : Fin 2) (a b : Bytes) : fitAll [] (csWrites q a b) = true := by
  match q with
  | 0 => rfl
  | 1 => rfl

theorem csWrites_lt (q : Nat) (a b : Bytes) : ∀ x ∈ csWrites q a b, x.2 < 2 ^ x.1.w := by
  intro x hx
  obtain ⟨j, -, hj⟩ := List.mem_flatMap.mp hx
  simp only [List.mem_cons, List.not_mem_nil, or_false] at hj
  rcases hj with rfl | rfl <;> exact leNat_slice_lt _ _

theorem csWrites_mem (q : Nat) (a b : Bytes) (j : Fin 6) :
    (SAP_IECq_CS_RXAk.BYTES q j, leNat (slice a (4 * j) 4)) ∈ csWrites q a b ∧
      (SAP_IECq_CS_RXBk.BYTES q j, leNat (slice b (4 * j) 4)) ∈ csWrites q a b :=
  have hj : j.val ∈ List.range 6 := List.mem_range.mpr j.isLt
  ⟨List.mem_flatMap.mpr ⟨j, hj, by simp⟩, List.mem_flatMap.mpr ⟨j, hj, by simp⟩⟩

theorem sapHears_iec (h : (d.port p).iec = true) :
    d.sapHears p = (d.on (SAP_IECq_CFG.RX_EN (p - 6)) && d.on (SAPp_STATUS.LOCKED p)) := if_pos h

/-- What a receiver may report of a block. -/
def iecFields (p : Nat) : List Field := [SAPp_EVENT.CS_CHANGE p, SAPp_ERR.IEC_ERR p, SAPp_EVENT.IEC_ERR p]

theorem iecErr_stands (n : Nat) : Stands (Beside (iecFields p)) d (iecErr p n d) :=
  Stands.ite (.refl _ d) (((Stands.refl _ d).sat (.listed (by simp [iecFields]))).ev (.listed (by simp [iecFields])))

theorem csFields_beside : ∀ (p : Fin 8) (j : Fin 6), 6 ≤ p.val →
    Beside (iecFields p) (SAP_IECq_CS_RXAk.BYTES (p - 6) j) ∧ Beside (iecFields p) (SAP_IECq_CS_RXBk.BYTES (p - 6) j) := by
  decide

theorem Beyond.iecErr {e : Dev} {n : Nat} (h : Beyond d e) : Beyond d (iecErr p n e) := .ite h h.sat.ev

theorem Beyond.wrs {e : Dev} (vs : List (Field × Nat)) (h : Beyond d e) :
    Beyond d (vs.foldl (fun e x => e.wr x.1 x.2) e) := h.foldl vs fun _ _ _ hx => hx.wr

theorem Beyond.sap {e : Dev} (h : Beyond d e) : e.sap = d.sap := h.part Dev.sap fun _ _ _ => rfl

theorem csWrites_foldl (q : Nat) (a b : Bytes) (d : Dev) : (csWrites q a b).foldl (fun e x => e.wr x.1 x.2) d =
    forN 6 (fun j d => (d.wr (SAP_IECq_CS_RXAk.BYTES q j) (leNat (slice a (4 * j) 4))).wr
      (SAP_IECq_CS_RXBk.BYTES q j) (leNat (slice b (4 * j) 4))) d := by
  rw [csWrites, List.foldl_flatMap]
  rfl

/-- The received channel status of port p: both subframes' words. -/
def csStored (p : Nat) (d : Dev) : List (Field × Nat) := csWrites (p - 6) (csBytes (d.port p).csA) (csBytes (d.port p).csB)

theorem iecBlockEnd_heard (hhears : d.sapHears p = true) (hiec : (d.port p).iec = true)
    (hfull : (d.port p).csA.length = 192) : ∃ c n, iecBlockEnd p d =
      (iecErr p n (((csStored p d).foldl (fun e x => e.wr x.1 x.2) d).evIf c (SAPp_EVENT.CS_CHANGE p))).sapPortMod p
        fun q => { q with csA := [], csB := [] } := by
  simp only [csStored, csWrites_foldl, iecBlockEnd, hhears, hiec, hfull]
  exact ⟨_, _, rfl⟩

/-- A block that is heard whole is stored, and the next one begins. -/
theorem iecBlockEnd_stores {p : Fin 8} (h6 : 6 ≤ p.val) (hhears : d.sapHears p = true) (hiec : (d.port p).iec = true)
    (hfull : (d.port p).csA.length = 192) (hlen : d.sap.ports.length = 8) :
    (∀ j : Fin 6, (iecBlockEnd p d).rd (SAP_IECq_CS_RXAk.BYTES (p - 6) j) = leNat (slice (csBytes (d.port p).csA) (4 * j) 4) ∧
      (iecBlockEnd p d).rd (SAP_IECq_CS_RXBk.BYTES (p - 6) j) = leNat (slice (csBytes (d.port p).csB) (4 * j) 4)) ∧
    ((iecBlockEnd p d).port p).csA = [] ∧ ((iecBlockEnd p d).port p).csB = [] := by
  have hstored : Wrote d ((csStored p d).foldl (fun e x => e.wr x.1 x.2) d) (csStored p d) :=
    Wrote.wrs _ (.refl d) (csWrites_fit ⟨p - 6, by omega⟩ _ _) (csWrites_lt _ _ _)
  have hbeyond : Beyond d ((csStored p d).foldl (fun e x => e.wr x.1 x.2) d) := .wrs _ (.refl d)
  obtain ⟨c, n, hend⟩ := iecBlockEnd_heard hhears hiec hfull
  rw [hend]
  generalize (csStored p d).foldl (fun e x => e.wr x.1 x.2) d = x at hstored hbeyond
  have hsap : (iecErr p n (x.evIf c (SAPp_EVENT.CS_CHANGE p))).sap = d.sap := hbeyond.evIf.iecErr.sap
  have hreported : Stands (Beside (iecFields p)) x ((iecErr p n (x.evIf c (SAPp_EVENT.CS_CHANGE p))).sapPortMod p
      fun q => { q with csA := [], csB := [] }) :=
    (((Stands.refl _ x).evIf (.listed (by simp [iecFields]))).trans (iecErr_stands n)).parts rfl rfl
  refine ⟨fun j => ?_, ?_⟩
  · obtain ⟨hbA, hbB⟩ := csFields_beside p j h6
    obtain ⟨hmA, hmB⟩ := csWrites_mem (p - 6) (csBytes (d.port p).csA) (csBytes (d.port p).csB) j
    exact ⟨(hreported.rd hbA).trans (hstored.get hmA), (hreported.rd hbB).trans (hstored.get hmB)⟩
  · rw [port_sapPortMod (by rw [hsap, hlen]; exact p.isLt)]
    exact ⟨rfl, rfl⟩

theorem sapEv_wrote {p : Nat} (hp : p < 8) : Wrote d (sapEv p SAPp_EVENT.SLOT_CONFLICT d) [(SAPp_EVENT.SLOT_CONFLICT p, 1)] := by
  rw [sapEv, if_pos hp]
  exact (Wrote.refl d).ev ((by decide : ∀ p : Fin 8, fits (SAPp_EVENT.SLOT_CONFLICT p) [] = true) ⟨p, hp⟩) Nat.one_pos

theorem sapEv_sap {p : Nat} (f : Nat → Field) : (sapEv p f d).sap = d.sap := by
  unfold sapEv
  split <;> rfl

theorem fields_lt : ∀ (dir : Bool) (k : Fin 64), 2 < 2 ^ (runField dir k).w ∧ 3 < 2 ^ (fadeField dir k).w := by decide

theorem ac_wr {f : Field} {v : Nat} : (d.wr f v).ac dir k = d.ac dir k := rfl

theorem iecSend_sends (hrun : 2 ≤ d.sapRun p)
    (hiec : (d.port p).iec = true) (hen : d.on (SAP_IECq_CFG.TX_EN (p - 6)) = true) :
    sapWireFrame p (.iec true none) d = iecSend p d := by
  simp [sapWireFrame, hiec, hen, Nat.not_lt.mpr hrun]

end

/-- Settles O35, one channel, lock or frame at a time. -/
theorem audioChannelsAndIec : Obligations.AudioChannelsAndIec := by
  unfold Obligations.AudioChannelsAndIec
  intro s
  refine ⟨fun inp k hrun htakes hfree => ?_, fun inp k j hrun htakes hport hjk h0 h3 hclash => ?_,
    fun inp k hrun hfade => ?_, fun p hrun hiec hen hlock => ?_, fun p hrun hiec hen hlock => ?_,
    fun p hrun hiec hen hlock hfull h6 hlen => ?_, fun p w rest hrun hiec hen hout hrest => ?_⟩
  · refine does_run (f := sapChannelOn inp k) (fun _ => rfl) ?_
    rw [sapChannelOn_free (d := s.quiet) hrun htakes fun j hj => hfree j (Fin.ne_of_val_ne hj), ac_acMod rfl]
    obtain ⟨h2, h3⟩ := fields_lt inp k
    refine ⟨?_, rfl, rfl, rfl⟩
    exact (((Wrote.refl s.quiet).wr (run_fits inp k) h2).wr (run_fade_fits inp k) h3).parts (acMod_regs _) (acMod_sram _)
  · refine does_run (f := sapChannelOn inp k) (fun _ => rfl) ?_
    rw [sapChannelOn_waits (d := s.quiet) hrun htakes hjk h0 h3 hclash]
    exact ⟨sapEv_wrote hport, sapEv_sap _⟩
  · refine does_run (f := fadeDone inp k) (fun _ => rfl) ?_
    rw [fadeDone_over (d := s.quiet) hrun hfade, ac_wr, ac_acMod rfl]
    refine ⟨?_, rfl, rfl⟩
    exact ((Wrote.refl s.quiet).parts (acMod_regs _) (acMod_sram _)).wr (run_fits inp k) (Nat.two_pow_pos _)
  · refine does_run (f := sapLock true true p) (fun _ => rfl) ?_
    have hkind : ((s.quiet.port p).iec && (!true || s.quiet.on (SAP_IECq_CFG.RX_EN (p - 6)))) = true :=
      Bool.and_eq_true_iff.mpr ⟨hiec, hen⟩
    rw [sapLock_moves (d := s.quiet) (iec := true) hrun (b := true) hlock hkind]
    exact ⟨lock_wrote true p s.quiet, rfl⟩
  · refine does_run (f := sapLock true false p) (fun _ => rfl) ?_
    have hkind : ((s.quiet.port p).iec && (!false || s.quiet.on (SAP_IECq_CFG.RX_EN (p - 6)))) = true :=
      Bool.and_eq_true_iff.mpr ⟨hiec, rfl⟩
    rw [sapLock_moves (d := s.quiet) (iec := true) hrun (b := false) hlock hkind]
    exact ⟨lock_wrote false p s.quiet, rfl⟩
  · refine ends_run (f := iecBlockEnd p) (fun _ => rfl) ?_
    exact iecBlockEnd_stores h6 ((sapHears_iec hiec).trans (Bool.and_eq_true_iff.mpr ⟨hen, hlock⟩)) hiec hfull hlen
  · refine does_run (f := sapWireFrame p (.iec true none)) (fun _ => rfl) ?_
    rw [iecSend_sends (d := s.quiet) hrun hiec hen]
    exact iecSend_wrote (d := s.quiet) hout hrest

end Sys2Proof.Machine
end

section
/-!
PROOFS. A voice port that stops while a channel of it is in no state of Table 4.10.
-/

namespace Sys2Proof.Machine

/-- Port 0 stops; output channel 0 names it, is silent, and reads 5 in RUN, a code that Table 4.10 does not have. -/
def strayChannel : State :=
  { dev := ((({} : Dev).wr (SAPp_STATUS.RUN 0) 3).wr (SAP_OMAPk.RUN 0) 5).wr (SAP_OMAPk.FADE 0) 2 }

theorem strayChannel_stays : (sapStopped 0 strayChannel.quiet).rd (SAP_OMAPk.RUN 0) = 5 := by decide +kernel

/-- Refutes O34: the statement says that no running channel names a port that has stopped, for every state; in `strayChannel` the
channel's RUN stays 5. -/
theorem not_voicePorts : ¬ Obligations.VoicePorts := by
  intro h
  obtain ⟨-, -, -, -, -, -, -, hstopped⟩ := h strayChannel
  obtain ⟨e, ⟨-, -, -, -, -, hgone⟩, hreads⟩ :=
    (hstopped 0 (by decide) (by decide +kernel) (by decide)).reads (f := sapStopped 0) rfl
  have hrun : e.rd (SAP_OMAPk.RUN 0) = 5 := (hreads _ (by decide)).trans strayChannel_stays
  have hlive : e.acLive false (0 : Fin 64) = true := decide_eq_true (show 2 ≤ e.rd (SAP_OMAPk.RUN 0) by omega)
  exact hgone 0 hlive (by decide)

end Sys2Proof.Machine
end

section
/-!
PROOFS. A schedule that swaps in while a frame of an old entry is dropped.
-/

namespace Sys2Proof.Machine

/-! ### The check word of a bank whose words are 0 but for the last -/

/-- The CRC-32 register after n bytes 0. -/
def zeroRun (n c : Nat) : Nat := (List.replicate n (0 : Byte)).foldl crc32Byte c

theorem zeroRun_add (m n c : Nat) : zeroRun (m + n) c = zeroRun n (zeroRun m c) := by
  rw [zeroRun, List.replicate_add, List.foldl_append]
  rfl

/-- The register before and after each tenth of the 1020 bytes. -/
def zeroTenths : List (Nat × Nat) :=
  [(0xFFFFFFFF, 0xFD342CC9), (0xFD342CC9, 0x9318E1D8), (0x9318E1D8, 0x9EA19736), (0x9EA19736, 0x31725DCD),
    (0x31725DCD, 0x53F2670E), (0x53F2670E, 0x144A1BCC), (0x144A1BCC, 0x63EDEEF8), (0x63EDEEF8, 0xB0E34DB8),
    (0xB0E34DB8, 0x785E9537), (0x785E9537, 0x98445079)]

theorem zeroRun_tenth : ∀ x ∈ zeroTenths, zeroRun 102 x.1 = x.2 := by decide +kernel

theorem zeroRun_bank : zeroRun 1020 0xFFFFFFFF = 0x98445079 := by
  have htenths := zeroRun_tenth
  simp only [zeroTenths, List.forall_mem_cons] at htenths
  rw [show 1020 = 102 + (102 + (102 + (102 + (102 + (102 + (102 + (102 + (102 + 102)))))))) from rfl]
  simp only [zeroRun_add, htenths]

/-- SCHED_CRC of an operational bank 0 whose last word alone may differ from 0. -/
theorem schedCrc_last {d : Dev} (hoper : d.peg.oper = some 0) (hzero : ∀ k < 255, d.word (0x2C0000 + 4 * k) = 0) :
    d.schedCrc = (leBytes 4 (d.word 0x2C03FC)).foldl crc32Byte 0x98445079 ^^^ 0xFFFFFFFF := by
  have hpre : (List.range 255).flatMap (fun k => leBytes 4 (d.word (0x2C0000 + 0 * 0x400 + 4 * k))) =
      List.replicate 1020 0 := by
    rw [List.flatMap_congr (g := fun _ => List.replicate 4 0) fun k hk => ?_]
    · decide +kernel
    · rw [Nat.zero_mul, Nat.add_zero, hzero k (List.mem_range.mp hk)]
      rfl
  have hrange : List.range 256 = List.range 255 ++ [255] := List.range_succ
  rw [Dev.schedCrc, hoper]
  simp only [hrange, List.flatMap_append, crc32, List.foldl_append, hpre]
  rw [← zeroRun.eq_def 1020 0xFFFFFFFF, zeroRun_bank, List.flatMap_singleton]

/-- A word is a field of 32 bits. -/
theorem word_eq_rd (d : Dev) (o : Nat) : d.word o = d.rd ⟨o, 0, 32⟩ := by
  have hlt := word_lt d o
  simp only [Dev.rd, bits, pow_zero, Nat.div_one, Nat.mod_eq_of_lt hlt]

/-! ### The swap -/

/-- A frame that has been sent before and whose classifier entry, 69759, lies beyond the tables: RETIRED of that entry is the last
word of bank 0 of the Pegline schedule. -/
def strayFrame : Frm := { id := 1, dec := { hit := true, index := 0x1107F, gen := 1 } }

/-- Bank 0 of an empty schedule is pending, and `strayFrame` waits for a flow that the bank does not carry. -/
def straySwap : State :=
  { dev := { ({} : Dev) with peg := { pend := some 0, swapT := 0, flowq := [(0, strayFrame)] }, pm := { sentIds := [1] } } }

/-- The device of `straySwap` with bank 0 in force. -/
def strayIn : Dev := { straySwap.quiet with
  peg := { oper := some 0, last := some 0, flowq := [(0, strayFrame)] } }

/-- In a part without registers written, the spare slots read free, and freeing them writes nothing. -/
theorem setSpare_fresh : ∀ s < 64, setSpare s none strayIn = strayIn := by
  have hsame : ∀ s : Fin 64, ((setSpare s none strayIn).regs = [] ∧ (strayIn.spareOwner s != none) = false) := by decide
  intro s hs
  obtain ⟨hregs, hchg⟩ := hsame ⟨s, hs⟩
  have hwr : ∀ f v, strayIn.wr f v = { strayIn with regs := (strayIn.wr f v).regs } := fun _ _ => rfl
  have hset : setSpare s none strayIn = { strayIn with regs := (setSpare s none strayIn).regs } := by
    simp only [setSpare, hchg]
    exact hwr _ _
  rw [hset, hregs]
  rfl

theorem forN_id {n : Nat} {f : Nat → Dev → Dev} {d : Dev} (h : ∀ k < n, f k d = d) : forN n f d = d := by
  have hfold : ∀ l : List Nat, (∀ k ∈ l, f k d = d) → l.foldl (fun d k => f k d) d = d := fun l hl => by
    induction l with
    | nil => rfl
    | cons k l ih => rw [List.foldl_cons, hl k (by simp), ih fun j hj => hl j (List.mem_cons_of_mem _ hj)]
  exact hfold _ fun k hk => h k (List.mem_range.mp hk)

/-- Bank b in force, the grid's reassembly begun afresh. -/
def Peg.inForce (b : Nat) (p : Peg) : Peg :=
  { p with pend := none, oper := some b, last := some b, badSlots := [], asm := [], msgAsm := [], skip := [] }

/-- What a swap to bank b does once the spare owners are settled, v being the bank's check word (R245). -/
def swapRest (b v : Nat) (d : Dev) : Dev :=
  let d := reflow ((d.wr PEG_SCHED_STAT.OPER_BANK b).wr PEG_SYNC_SCHED_CRC.CRC v)
  let d := d.when ((d.opSlot d.peg.claimS).type != 1 || (d.opSlot d.peg.claimS).paths == 0) claimOver
  let hasMsg := (List.range 64).any fun s => let e := d.opSlot s; e.type == 3 && e.paths != 0 && e.owner == d.node
  let part (m : PegMsg) : Bool := m.sent.isNone && m.off != 0
  let d := if hasMsg then roleUpdate (d.pegMod fun p => { p with msgs := p.msgs.map fun m => if part m then { m with off := 0 } else m })
    else roleUpdate (msgNoAck part d)
  ((d.wrB PEG_SCHED_STAT.PENDING false).wr PEG_SCHED_STAT.RESULT 2).ev PEG_EVENT.SCHED_SWAPPED

/-- The first bank to come into force frees every spare slot. -/
theorem schedSwap_first {d x : Dev} {b : Nat} (hpend : d.peg.pend = some b) (hoper : d.peg.oper = none)
    (ht : d.peg.swapT ≤ d.nowExt) (hx : forN 64 (fun s d => setSpare s none d) (d.pegMod (Peg.inForce b)) = x) :
    schedSwap d = swapRest b x.schedCrc x := by
  have hwas : (d.pegMod fun p => { p with pend := none }).peg.oper = none := hoper
  subst hx
  simp only [schedSwap, hpend, if_pos ht, schedIn, hwas, Bool.false_eq_true, if_false]
  rfl

theorem strayIn_crc : strayIn.schedCrc = 0xEFB5AF2E := by
  have hword : ∀ k : Fin 255, strayIn.word (0x2C0000 + 4 * k) = 0 := by decide +kernel
  have hlast : strayIn.word 0x2C03FC = 0 := by decide +kernel
  rw [schedCrc_last rfl fun k hk => hword ⟨k, hk⟩, hlast]
  decide +kernel

theorem schedSwap_stray : schedSwap straySwap.quiet = swapRest 0 0xEFB5AF2E strayIn := by
  rw [schedSwap_first (x := strayIn) rfl rfl (by decide) (forN_id setSpare_fresh), strayIn_crc]

theorem swapRest_last : (swapRest 0 0xEFB5AF2E strayIn).word 0x2C03FC = 1 := by decide +kernel

theorem swapRest_word : ∀ k : Fin 255, (swapRest 0 0xEFB5AF2E strayIn).word (0x2C0000 + 4 * k) = 0 := by decide +kernel

theorem swapRest_crc : (swapRest 0 0xEFB5AF2E strayIn).rd PEG_SYNC_SCHED_CRC.CRC = 0xEFB5AF2E := by decide +kernel

/-- Refutes O29: the statement has PEG_SYNC_SCHED_CRC show the check word of the bank in force after every swap; in `straySwap` a frame
dropped by the swap is counted in a word of that bank, behind the check word. -/
theorem not_peglineSchedule : ¬ Obligations.PeglineSchedule := by
  intro h
  obtain ⟨-, -, -, -, -, -, -, hswap⟩ := h straySwap
  obtain ⟨e, ⟨hoper, -, -, -, -, -, -, -, -, -, hcrc, -⟩, hreads⟩ :=
    (hswap 0 rfl (by decide)).reads (f := schedSwap) rfl
  rw [schedSwap_stray] at hreads
  have hword (k : Nat) (hk : shownField ⟨0x2C0000 + 4 * k, 0, 32⟩ = false) :
      e.word (0x2C0000 + 4 * k) = (swapRest 0 0xEFB5AF2E strayIn).word (0x2C0000 + 4 * k) := by
    rw [word_eq_rd, word_eq_rd, hreads _ hk]
  have hshown : ∀ k : Fin 256, shownField ⟨0x2C0000 + 4 * k, 0, 32⟩ = false := by decide +kernel
  have hlast : e.word 0x2C03FC = 1 := (hword 255 (hshown 255)).trans swapRest_last
  rw [hreads _ (by decide), swapRest_crc, schedCrc_last hoper fun k hk =>
    (hword k (hshown ⟨k, by omega⟩)).trans (swapRest_word ⟨k, hk⟩), hlast] at hcrc
  exact absurd hcrc (by decide +kernel)

end Sys2Proof.Machine
end

section
/-!
PROOFS. Channels: statistics, pause and PFC, verification of preemption (R165, R166, R170, R175).
-/

namespace Sys2Proof.Machine

section
variable {d e : Dev} {n k : Nat} {f : Field} {ws vs : List (Field × Nat)}

/-! ### A field written again -/

/-- A field written again takes the later value in its place of the list. -/
theorem Wrote.again {v w : Nat} (h : Wrote d e (ws ++ (f, w) :: vs)) (hf : fits f (ws ++ vs) = true) (hv : v < 2 ^ f.w) :
    Wrote d (e.wr f v) (ws ++ (f, v) :: vs) := by
  have hlast : Wrote d e ((ws ++ vs) ++ [(f, w)]) := h.reorder (by simp; tauto) (by simp; tauto)
  exact (hlast.over hf hv).reorder (by simp; tauto) (by simp; tauto)

theorem Wrote.againB {w : Nat} {b : Bool} (h : Wrote d e (ws ++ (f, w) :: vs)) (hf : fits f (ws ++ vs) = true)
    (hw : 0 < f.w) : Wrote d (e.wrB f b) (ws ++ (f, b2n b) :: vs) :=
  h.again hf ((b2n_le_one b).trans_lt (Nat.one_lt_two_pow (by omega)))

/-! ### The channels -/

theorem ch_chMod {g : Chan → Chan} (h : n < d.chan.length) : (d.chMod n g).ch n = g (d.ch n) := by
  simp [Dev.ch, Dev.chMod, List.getD_eq_getElem?_getD, List.getElem?_eq_getElem h]

/-- A change that fixes the channel of no list shows for every number. -/
theorem ch_chMod_fix {g : Chan → Chan} (h : g {} = {}) : (d.chMod n g).ch n = g (d.ch n) := by
  simp only [Dev.ch, Dev.chMod, List.getD_eq_getElem?_getD, List.getElem?_modify_eq, Option.map_eq_map]
  cases d.chan[n]? with
  | none => exact h.symm
  | some c => rfl

theorem ch_chMod_ne {m : Nat} {g : Chan → Chan} (h : m ≠ n) : (d.chMod n g).ch m = d.ch m := by
  simp [Dev.ch, Dev.chMod, List.getD_eq_getElem?_getD, Ne.symm h]

theorem chan_length (g : Chan → Chan) : (d.chMod n g).chan.length = d.chan.length := by
  simp [Dev.chMod]

theorem Beyond.ch (h : Beyond d e) (n : Nat) : e.ch n = d.ch n := h.part (Dev.ch · n) fun _ _ _ => rfl

theorem Beyond.chan (h : Beyond d e) : e.chan = d.chan := h.part Dev.chan fun _ _ _ => rfl

theorem Beyond.nowExt (h : Beyond d e) : e.nowExt = d.nowExt := h.part Dev.nowExt fun _ _ _ => rfl

/-! ### Statistics (R175) -/

/-- What a count of statistics counter i of channel n may write. -/
def statFields (n i : Nat) : List Field :=
  [CHn_STATi.COUNT n i, if i < 32 then CHn_STAT_HALF0.HALF n else CHn_STAT_HALF1.HALF n, CHn_EVENT.STAT_HALF n]

theorem stat_beyond (i v : Nat) : Beyond d (stat n i v d) := by
  unfold stat
  refine Beyond.ite (.refl _) (Beyond.ite (Beyond.ev ?_) (Beyond.refl _).wr)
  exact .ite (Beyond.wr (Beyond.refl _).wr) (Beyond.wr (Beyond.refl _).wr)

theorem stat_stands (i v : Nat) : Stands (Beside (statFields n i)) d (stat n i v d) := by
  have hcount : Stands (Beside (statFields n i)) d (d.wr (CHn_STATi.COUNT n i) (d.rd (CHn_STATi.COUNT n i) + v)) :=
    (Stands.refl _ d).wr (.listed (by simp [statFields]))
  unfold stat
  refine Stands.ite (.refl _ _) (Stands.ite (Stands.ev ?_ (.listed (by simp [statFields]))) hcount)
  split
  · next hi => exact hcount.putBitOf (.listed (by simp [statFields, hi]))
  · next hi => exact hcount.putBitOf (.listed (by simp [statFields, hi]))

theorem stat_apart : ∀ (n : Fin 4) (i : Fin 64), Field.apart (CHn_STAT_HALF0.HALF n) (CHn_STATi.COUNT n i) = true ∧
    Field.apart (CHn_STAT_HALF1.HALF n) (CHn_STATi.COUNT n i) = true ∧
    Field.apart (CHn_EVENT.STAT_HALF n) (CHn_STATi.COUNT n i) = true := by decide

/-- An unfenced channel counts, modulo 2^32. -/
theorem stat_counts {n : Fin 4} {i v : Nat} (hi : i < 64) (hfree : d.fenced n = false) :
    (stat n i v d).rd (CHn_STATi.COUNT n i) = (d.rd (CHn_STATi.COUNT n i) + v) % 2 ^ 32 := by
  have hset : (d.wr (CHn_STATi.COUNT n i) (d.rd (CHn_STATi.COUNT n i) + v)).rd (CHn_STATi.COUNT n i) =
      (d.rd (CHn_STATi.COUNT n i) + v) % 2 ^ 32 := rd_wr_same d _ _ (Nat.le_refl 32)
  obtain ⟨h0, h1, hev⟩ := stat_apart n ⟨i, hi⟩
  have hon : d.on (CHn_STATUS.FENCED n) = false := hfree
  unfold stat
  rw [hon, Bool.false_and, if_neg Bool.false_ne_true]
  dsimp only
  split
  · rw [rd_ev_apart _ _ _ hev, ← hset]
    split
    · exact rd_wr_apart _ _ _ _ h0
    · exact rd_wr_apart _ _ _ _ h1
  · exact hset

/-! ### Verification of preemption (Table 7.3) -/

theorem softEdge_taken {p : Nat} {b : Bool} {g : Dev → Dev} (hboot : d.booted = true) (hpd : d.pd p = true)
    (hchg : d.on f = !b) : softEdge p f b g d = g d := by
  cases b <;> simp_all [softEdge, ifBooted]

/-- The channel in verify state v: its timer and its verify mPackets. -/
def Chan.verifying (v : Nat) (c : Chan) : Chan :=
  { c with verT := if v = 2 then c.verT else none, mpq := if v < 2 then c.mpq.filter (· != .verify) else c.mpq }

theorem verify_fits : ∀ n : Fin 4, fits (CHn_PREEMPT_STATUS.VERIFY n) [] = true ∧
    fits (CHn_PREEMPT_STATUS.ACTIVE n) [(CHn_PREEMPT_STATUS.VERIFY n, 0)] = true ∧
    fits (CHn_PREEMPT_STATUS.HOLD n) [(CHn_PREEMPT_STATUS.VERIFY n, 0), (CHn_PREEMPT_STATUS.ACTIVE n, 0)] = true := by
  decide

theorem setVerify_ch (v : Nat) (d : Dev) : (setVerify n v d).ch n = Chan.verifying v (d.ch n) :=
  ch_chMod_fix (g := Chan.verifying v) (by simp [Chan.verifying])

/-- A verify state shows with what it makes active. -/
theorem setVerify_wrote (n : Fin 4) {v : Nat} (hv : v < 8) (d : Dev) : Wrote d (setVerify n v d)
    [(CHn_PREEMPT_STATUS.VERIFY n, v), (CHn_PREEMPT_STATUS.ACTIVE n, b2n (v == 3 || v == 5)),
      (CHn_PREEMPT_STATUS.HOLD n, b2n ((v == 3 || v == 5) && (d.gate n).hold))] := by
  obtain ⟨hverify, hactive, hhold⟩ := verify_fits n
  have hgate : (((d.chMod n (Chan.verifying v)).wr (CHn_PREEMPT_STATUS.VERIFY n) v).gate n).hold = (d.gate n).hold := by
    have hch := congrArg (fun c : Chan => c.ga.hold) (setVerify_ch (n := n) v d)
    exact hch
  rw [← hgate]
  exact ((((Wrote.refl d).parts (x := d.chMod n (Chan.verifying v)) rfl rfl).wr hverify hv).wrB hactive Nat.one_pos).wrB
    hhold Nat.one_pos

theorem verify_more_fits : ∀ n : Fin 4, fits (CHn_PREEMPT_CFG.EN n) [] = true ∧
    fits (CHn_PREEMPT_STATUS.ATTEMPTS n) [(CHn_PREEMPT_STATUS.VERIFY n, 0), (CHn_PREEMPT_STATUS.ACTIVE n, 0),
      (CHn_PREEMPT_STATUS.HOLD n, 0)] = true ∧
    fits (CHn_PREEMPT_CFG.EN n) [(CHn_PREEMPT_STATUS.VERIFY n, 0), (CHn_PREEMPT_STATUS.ACTIVE n, 0),
      (CHn_PREEMPT_STATUS.HOLD n, 0), (CHn_PREEMPT_STATUS.ATTEMPTS n, 0)] = true ∧
    fits (CHn_PREEMPT_STATUS.VERIFY n) [(CHn_PREEMPT_STATUS.ACTIVE n, 0), (CHn_PREEMPT_STATUS.HOLD n, 0)] = true ∧
    fits (CHn_STATUS.LINK n) [(CHn_PREEMPT_STATUS.VERIFY n, 0), (CHn_PREEMPT_STATUS.ACTIVE n, 0),
      (CHn_PREEMPT_STATUS.HOLD n, 0)] = true := by decide

/-- Preemption enabled in a channel that has not verified begins to verify. -/
theorem preemptEnable_starts (h0 : d.rd (CHn_PREEMPT_STATUS.VERIFY n) = 0) :
    preemptEnable n d = verifyGo n (setVerify n 1 (d.wrB (CHn_PREEMPT_CFG.EN n) true)) := by
  have hstay : (d.wrB (CHn_PREEMPT_CFG.EN n) true).rd (CHn_PREEMPT_STATUS.VERIFY n) = 0 :=
    (rd_wr_off d _ _ _ (by simp [CHn_PREEMPT_STATUS.VERIFY, CHn_PREEMPT_CFG.EN, CHn_PREEMPT_STATUS.addr, CHn_PREEMPT_CFG.addr])).trans h0
  exact if_pos hstay

/-- Verification in state INITIAL with the link up sends a verify mPacket. -/
theorem verifyGo_sends (h1 : d.rd (CHn_PREEMPT_STATUS.VERIFY n) = 1) (hlink : d.on (CHn_STATUS.LINK n) = true)
    (hdis : d.on (CHn_PREEMPT_CFG.VERIFY_DIS n) = false) : verifyGo n d =
      sendVerify n ((d.wr (CHn_PREEMPT_STATUS.VERIFY n) 2).wr (CHn_PREEMPT_STATUS.ATTEMPTS n) 1) := by
  simp [verifyGo, h1, hlink, hdis]

theorem verifyGo_skips (h1 : d.rd (CHn_PREEMPT_STATUS.VERIFY n) = 1) (hlink : d.on (CHn_STATUS.LINK n) = true)
    (hdis : d.on (CHn_PREEMPT_CFG.VERIFY_DIS n) = true) : verifyGo n d =
      setActive n true (d.wr (CHn_PREEMPT_STATUS.VERIFY n) 5) := by
  simp [verifyGo, h1, hlink, hdis]

/-- One write before others. -/
theorem Wrote.cons {x : Dev} {v : Nat} (h1 : Wrote d e [(f, v)]) (h2 : Wrote e x ws) (hf : fits f ws = true) :
    Wrote d x ((f, v) :: ws) :=
  h1.append h2 fun y hy z hz => by
    rw [List.mem_singleton.mp hy]
    exact (fits_apart hf z hz).2

theorem preempt_fits : ∀ n : Fin 4,
    (∀ f ∈ [CHn_STATUS.LINK n, CHn_PREEMPT_CFG.VERIFY_DIS n, CHn_PREEMPT_CFG.VERIFY_MS n],
      fits f [(CHn_PREEMPT_CFG.EN n, 1), (CHn_PREEMPT_STATUS.VERIFY n, 2), (CHn_PREEMPT_STATUS.ACTIVE n, 0),
        (CHn_PREEMPT_STATUS.HOLD n, 0), (CHn_PREEMPT_STATUS.ATTEMPTS n, 1)] = true ∧
      fits f [(CHn_PREEMPT_CFG.EN n, 1), (CHn_PREEMPT_STATUS.VERIFY n, 1), (CHn_PREEMPT_STATUS.ACTIVE n, 0),
        (CHn_PREEMPT_STATUS.HOLD n, 0)] = true) ∧
    fits (CHn_PREEMPT_CFG.EN n) [(CHn_PREEMPT_STATUS.VERIFY n, 1), (CHn_PREEMPT_STATUS.ACTIVE n, 0),
      (CHn_PREEMPT_STATUS.HOLD n, 0)] = true ∧
    fits (CHn_PREEMPT_STATUS.VERIFY n) [(CHn_PREEMPT_CFG.EN n, 1), (CHn_PREEMPT_STATUS.ACTIVE n, 0),
      (CHn_PREEMPT_STATUS.HOLD n, 0)] = true ∧
    fits (CHn_PREEMPT_STATUS.ACTIVE n) [(CHn_PREEMPT_CFG.EN n, 1), (CHn_PREEMPT_STATUS.VERIFY n, 2),
      (CHn_PREEMPT_STATUS.HOLD n, 0)] = true ∧
    fits (CHn_PREEMPT_STATUS.HOLD n) [(CHn_PREEMPT_CFG.EN n, 1), (CHn_PREEMPT_STATUS.VERIFY n, 2),
      (CHn_PREEMPT_STATUS.ACTIVE n, 0)] = true ∧
    fits (CHn_PREEMPT_STATUS.ATTEMPTS n) [(CHn_PREEMPT_CFG.EN n, 1), (CHn_PREEMPT_STATUS.VERIFY n, 1),
      (CHn_PREEMPT_STATUS.ACTIVE n, 0), (CHn_PREEMPT_STATUS.HOLD n, 0)] = true ∧
    fits (CHn_PREEMPT_STATUS.ATTEMPTS n) [] = true ∧
    fits (CHn_EVENT.VERIFY_FAIL n) [(CHn_PREEMPT_STATUS.VERIFY n, 4), (CHn_PREEMPT_STATUS.ACTIVE n, 0),
      (CHn_PREEMPT_STATUS.HOLD n, 0)] = true ∧
    fits (CHn_PREEMPT_CFG.VERIFY_MS n) [(CHn_PREEMPT_STATUS.ATTEMPTS n, 1)] = true := by decide

/-- The writes of an enable or a disable up to its verify state. -/
theorem preemptBegin_wrote (n : Fin 4) {v : Nat} (hv : v < 8) (b : Bool) (d : Dev) :
    Wrote d (setVerify n v (d.wrB (CHn_PREEMPT_CFG.EN n) b)) ((CHn_PREEMPT_CFG.EN n, b2n b) ::
      [(CHn_PREEMPT_STATUS.VERIFY n, v), (CHn_PREEMPT_STATUS.ACTIVE n, b2n (v == 3 || v == 5)),
        (CHn_PREEMPT_STATUS.HOLD n, b2n ((v == 3 || v == 5) && (d.gate n).hold))]) := by
  obtain ⟨hen, -⟩ := verify_more_fits n
  obtain ⟨-, hfirst, -⟩ := preempt_fits n
  have hset : Wrote d (d.wrB (CHn_PREEMPT_CFG.EN n) b) [(CHn_PREEMPT_CFG.EN n, b2n b)] := (Wrote.refl d).wrB hen Nat.one_pos
  exact hset.cons (setVerify_wrote n hv _) hfirst

theorem sendVerify_ch (h : n < d.chan.length) : (sendVerify n d).ch n = { d.ch n with
    mpq := (d.ch n).mpq ++ [.verify], verT := some (d.hearth.clk + d.rd (CHn_PREEMPT_CFG.VERIFY_MS n) * 524288) } :=
  ch_chMod h

theorem setVerify_length (v : Nat) : (setVerify n v d).chan.length = d.chan.length := chan_length _

/-- With the link up an enable sends a verify mPacket. -/
theorem preemptEnable_sends {n : Fin 4} (h0 : d.rd (CHn_PREEMPT_STATUS.VERIFY n) = 0) (hlink : d.on (CHn_STATUS.LINK n) = true)
    (hdis : d.on (CHn_PREEMPT_CFG.VERIFY_DIS n) = false) (hlen : d.chan.length = 4) : Wrote d (preemptEnable n d)
      [(CHn_PREEMPT_CFG.EN n, 1), (CHn_PREEMPT_STATUS.VERIFY n, 2), (CHn_PREEMPT_STATUS.ACTIVE n, 0),
        (CHn_PREEMPT_STATUS.HOLD n, 0), (CHn_PREEMPT_STATUS.ATTEMPTS n, 1)] ∧
    ((preemptEnable n d).ch n).mpq = (d.ch n).mpq.filter (· != .verify) ++ [.verify] ∧
    ((preemptEnable n d).ch n).verT = some (d.hearth.clk + d.rd (CHn_PREEMPT_CFG.VERIFY_MS n) * 524288) := by
  have hbegin := preemptBegin_wrote n (v := 1) (by decide) true d
  have hch : (setVerify n 1 (d.wrB (CHn_PREEMPT_CFG.EN n) true)).ch n = Chan.verifying 1 (d.ch n) := setVerify_ch 1 _
  have hclk : (setVerify n 1 (d.wrB (CHn_PREEMPT_CFG.EN n) true)).hearth = d.hearth := rfl
  have hlen' : (setVerify n 1 (d.wrB (CHn_PREEMPT_CFG.EN n) true)).chan.length = 4 := (setVerify_length 1).trans hlen
  obtain ⟨hkeep, -, hverify, -, -, hattempts, -⟩ := preempt_fits n
  rw [preemptEnable_starts h0]
  generalize setVerify n 1 (d.wrB (CHn_PREEMPT_CFG.EN n) true) = x at hbegin hch hclk hlen'
  have hwrote := (hbegin.again (ws := [_]) hverify (v := 2) (show 2 < 2 ^ 3 by decide)).wr hattempts (show 1 < 2 ^ 2 by decide)
  have hms := hwrote.rd (hkeep (CHn_PREEMPT_CFG.VERIFY_MS n) (by simp)).1
  rw [verifyGo_sends (hbegin.nth 1 rfl) ((hbegin.on (hkeep _ (by simp)).2).trans hlink)
    ((hbegin.on (hkeep _ (by simp)).2).trans hdis), sendVerify_ch (d := (x.wr _ 2).wr _ 1) (show n.val < x.chan.length by omega), hms]
  refine ⟨hwrote.parts rfl rfl, ?_, ?_⟩
  · exact congrArg (fun c : Chan => c.mpq ++ [.verify]) hch
  · exact congrArg (fun h : Hearth => some (h.clk + d.rd (CHn_PREEMPT_CFG.VERIFY_MS n) * 524288)) hclk

/-- With VERIFY_DIS an enable is active at once. -/
theorem preemptEnable_skips {n : Fin 4} (h0 : d.rd (CHn_PREEMPT_STATUS.VERIFY n) = 0) (hlink : d.on (CHn_STATUS.LINK n) = true)
    (hdis : d.on (CHn_PREEMPT_CFG.VERIFY_DIS n) = true) : Wrote d (preemptEnable n d)
      [(CHn_PREEMPT_CFG.EN n, 1), (CHn_PREEMPT_STATUS.VERIFY n, 5), (CHn_PREEMPT_STATUS.ACTIVE n, 1),
        (CHn_PREEMPT_STATUS.HOLD n, b2n (d.gate n).hold)] ∧
    ((preemptEnable n d).ch n).mpq = (d.ch n).mpq.filter (· != .verify) := by
  have hbegin := preemptBegin_wrote n (v := 1) (by decide) true d
  have hch : (setVerify n 1 (d.wrB (CHn_PREEMPT_CFG.EN n) true)).ch n = Chan.verifying 1 (d.ch n) := setVerify_ch 1 _
  obtain ⟨hkeep, -, hverify, hactive, hhold, -⟩ := preempt_fits n
  rw [preemptEnable_starts h0]
  generalize setVerify n 1 (d.wrB (CHn_PREEMPT_CFG.EN n) true) = x at hbegin hch
  have hgate : (x.gate n).hold = (d.gate n).hold := by
    rw [Dev.gate, hch]
    rfl
  have hwrote := ((hbegin.again (ws := [_]) hverify (v := 5) (show 5 < 2 ^ 3 by decide)).againB (ws := [_, _]) (b := true)
    hactive Nat.one_pos).againB (ws := [_, _, _]) (b := (x.gate n).hold) hhold Nat.one_pos
  rw [verifyGo_skips (hbegin.nth 1 rfl) ((hbegin.on (hkeep _ (by simp)).2).trans hlink)
    ((hbegin.on (hkeep _ (by simp)).2).trans hdis), ← hgate]
  exact ⟨hwrote, congrArg Chan.mpq hch⟩

/-! ### Its timer, its answers -/

theorem verifyTimer_again {m t : Nat} (h2 : d.rd (CHn_PREEMPT_STATUS.VERIFY n) = 2) (ht : (d.ch n).verT = some t)
    (hdue : t ≤ (atMote m d).hearth.clk) (ha : d.rd (CHn_PREEMPT_STATUS.ATTEMPTS n) < 3) : verifyTimer n m d =
      sendVerify n ((atMote m d).wr (CHn_PREEMPT_STATUS.ATTEMPTS n) (d.rd (CHn_PREEMPT_STATUS.ATTEMPTS n) + 1)) := by
  have hch : (atMote m d).ch n = d.ch n := by simp [Dev.ch]
  simp [verifyTimer, h2, hch, ht, hdue, ha]

theorem verifyTimer_fails {m t : Nat} (h2 : d.rd (CHn_PREEMPT_STATUS.VERIFY n) = 2) (ht : (d.ch n).verT = some t)
    (hdue : t ≤ (atMote m d).hearth.clk) (ha : 3 ≤ d.rd (CHn_PREEMPT_STATUS.ATTEMPTS n)) : verifyTimer n m d =
      (setVerify n 4 (atMote m d)).ev (CHn_EVENT.VERIFY_FAIL n) := by
  have hch : (atMote m d).ch n = d.ch n := by simp [Dev.ch]
  simp [verifyTimer, h2, hch, ht, hdue, Nat.not_lt.mpr ha]

/-- An attempt that is missed is followed by another. -/
theorem verifyTimer_sends {n : Fin 4} {m t : Nat} (h2 : d.rd (CHn_PREEMPT_STATUS.VERIFY n) = 2) (ht : (d.ch n).verT = some t)
    (hdue : t ≤ (atMote m d).hearth.clk) (ha : d.rd (CHn_PREEMPT_STATUS.ATTEMPTS n) < 3) (hlen : d.chan.length = 4) :
    Wrote d (verifyTimer n m d) [(CHn_PREEMPT_STATUS.ATTEMPTS n, d.rd (CHn_PREEMPT_STATUS.ATTEMPTS n) + 1)] ∧
    ((verifyTimer n m d).ch n).mpq = (d.ch n).mpq ++ [.verify] ∧ ((verifyTimer n m d).ch n).verT =
      some ((atMote m d).hearth.clk + d.rd (CHn_PREEMPT_CFG.VERIFY_MS n) * 524288) := by
  obtain ⟨-, -, -, -, -, -, hattempts, -, hms⟩ := preempt_fits n
  rw [verifyTimer_again h2 ht hdue ha]
  obtain ⟨h, he⟩ := atMote_eq m d
  rw [he]
  have hwrote := ((Wrote.refl d).parts (x := { d with hearth := h }) rfl rfl).wr hattempts
    (show d.rd (CHn_PREEMPT_STATUS.ATTEMPTS n) + 1 < 2 ^ 2 by omega)
  rw [sendVerify_ch (d := Dev.wr { d with hearth := h } _ _) (show n.val < d.chan.length by omega), hwrote.rd hms]
  exact ⟨hwrote.parts rfl rfl, rfl, rfl⟩

/-- The third attempt that is missed fails. -/
theorem verifyTimer_ends {n : Fin 4} {m t : Nat} (h2 : d.rd (CHn_PREEMPT_STATUS.VERIFY n) = 2) (ht : (d.ch n).verT = some t)
    (hdue : t ≤ (atMote m d).hearth.clk) (ha : 3 ≤ d.rd (CHn_PREEMPT_STATUS.ATTEMPTS n)) :
    Wrote d (verifyTimer n m d) [(CHn_PREEMPT_STATUS.VERIFY n, 4), (CHn_PREEMPT_STATUS.ACTIVE n, 0),
      (CHn_PREEMPT_STATUS.HOLD n, 0), (CHn_EVENT.VERIFY_FAIL n, 1)] ∧ ((verifyTimer n m d).ch n).verT = none := by
  obtain ⟨-, -, -, -, -, -, -, hev, -⟩ := preempt_fits n
  rw [verifyTimer_fails h2 ht hdue ha]
  have hfail := setVerify_wrote n (v := 4) (by decide) (atMote m d)
  have hch := setVerify_ch (n := n) 4 (atMote m d)
  generalize setVerify n 4 (atMote m d) = x at hfail hch
  exact ⟨(hfail.of_parts (by simp) (by simp)).ev hev Nat.one_pos, congrArg Chan.verT hch⟩

theorem fenced_of_hears (h : d.hears n = true) : d.fenced n = false := by
  simp only [Dev.hears, Bool.and_eq_true, Bool.not_eq_true'] at h
  exact h.1.2

theorem markRx_verify (hhears : d.hears n = true) (hen : d.on (CHn_PREEMPT_CFG.EN n) = true) :
    markRx n false d = (stat n 22 1 d).chMod n fun c => { c with mpq := c.mpq ++ [.respond] } := by
  simp [markRx, hhears, verifyRx, hen]

theorem respond_beside : ∀ n : Fin 4, Beside (statFields n 23) (CHn_PREEMPT_STATUS.VERIFY n) ∧
    Beside (statFields n 23) (CHn_PREEMPT_CFG.EN n) ∧
    fits (CHn_EVENT.VERIFY_OK n) [(CHn_PREEMPT_STATUS.VERIFY n, 3), (CHn_PREEMPT_STATUS.ACTIVE n, 1),
      (CHn_PREEMPT_STATUS.HOLD n, 0)] = true ∧
    fits (CHn_STATi.COUNT n 23) [(CHn_PREEMPT_STATUS.VERIFY n, 3), (CHn_PREEMPT_STATUS.ACTIVE n, 1),
      (CHn_PREEMPT_STATUS.HOLD n, 0), (CHn_EVENT.VERIFY_OK n, 1)] = true := by decide

theorem markRx_respond {n : Fin 4} (hhears : d.hears n = true) (hen : d.on (CHn_PREEMPT_CFG.EN n) = true)
    (h2 : d.rd (CHn_PREEMPT_STATUS.VERIFY n) = 2) :
    markRx n true d = (setVerify n 3 (stat n 23 1 d)).ev (CHn_EVENT.VERIFY_OK n) := by
  have hstay : (stat n 23 1 d).rd (CHn_PREEMPT_STATUS.VERIFY n) = 2 :=
    ((stat_stands 23 1).rd (respond_beside n).1).trans h2
  simp [markRx, hhears, respondRx, hen, hstay]

end

/-- Settles O22, one step of Table 7.3 at a time. -/
theorem preemption : Obligations.Preemption := by
  unfold Obligations.Preemption
  intro s
  refine ⟨fun n ⟨hboot, hpd⟩ hen h0 hlink hdis hlen => ?_, fun n ⟨hboot, hpd⟩ hen h0 hlink hdis => ?_,
    fun n ⟨hboot, hpd⟩ hen hlen => ?_, fun n m t h2 ht hdue ha hlen => ?_, fun n m t h2 ht hdue ha hlen => ?_,
    fun n hen hhears hlen => ?_, fun n hen h2 hhears => ?_⟩
  · refine does_run (f := softEdge 1 (CHn_PREEMPT_CFG.EN n) true (preemptEnable n)) (fun _ => rfl) ?_
    rw [softEdge_taken (d := s.quiet) (b := true) hboot hpd hen]
    exact preemptEnable_sends (d := s.quiet) h0 hlink hdis hlen
  · refine does_run (f := softEdge 1 (CHn_PREEMPT_CFG.EN n) true (preemptEnable n)) (fun _ => rfl) ?_
    rw [softEdge_taken (d := s.quiet) (b := true) hboot hpd hen]
    exact preemptEnable_skips (d := s.quiet) h0 hlink hdis
  · refine does_run (f := softEdge 1 (CHn_PREEMPT_CFG.EN n) false (preemptDisable n)) (fun _ => rfl) ?_
    rw [softEdge_taken (d := s.quiet) (b := false) hboot hpd hen, preemptDisable]
    refine ⟨(preemptBegin_wrote n (v := 0) (by decide) false s.quiet).parts rfl rfl, ?_⟩
    have hlen' : (setVerify n 0 (s.quiet.wrB (CHn_PREEMPT_CFG.EN n) false)).chan.length = 4 := (setVerify_length 0).trans hlen
    rw [ch_chMod (by omega), setVerify_ch]
    rfl
  · refine does_run (f := verifyTimer n m) (fun _ => rfl) ?_
    have hsame : (atMote m s.quiet).hearth = (atMote m s.dev).hearth := atMote_outs_hearth m s.dev []
    rw [← hsame] at hdue ⊢
    exact verifyTimer_sends (d := s.quiet) h2 ht hdue ha hlen
  · refine does_run (f := verifyTimer n m) (fun _ => rfl) ?_
    rw [← atMote_outs_hearth m s.dev []] at hdue
    exact verifyTimer_ends (d := s.quiet) h2 ht hdue ha
  · refine ends_run (f := markRx n false) (fun _ => rfl) ?_
    have hstands := stat_stands (d := s.quiet) (n := n) 22 1
    have hch : (stat n 22 1 s.quiet).ch n = s.dev.ch n := (stat_beyond 22 1).ch n
    have hlen' : (stat n 22 1 s.quiet).chan.length = 4 := (congrArg List.length (stat_beyond 22 1).chan).trans hlen
    rw [markRx_verify (d := s.quiet) hhears hen, ch_chMod (by omega), hch]
    exact ⟨hstands.chMod.only, hstands.chMod.2, rfl, stat_counts (d := s.quiet) (by decide) (fenced_of_hears hhears)⟩
  · refine ends_run (f := markRx n true) (fun _ => rfl) ?_
    obtain ⟨-, -, hev, hcount⟩ := respond_beside n
    have hstands := stat_stands (d := s.quiet) (n := n) 23 1
    have hcounts := stat_counts (d := s.quiet) (n := n) (i := 23) (v := 1) (by decide) (fenced_of_hears hhears)
    rw [markRx_respond (d := s.quiet) hhears hen h2]
    generalize stat n 23 1 s.quiet = x at hstands hcounts ⊢
    have hactive := (setVerify_wrote n (v := 3) (by decide) x).ev hev Nat.one_pos
    have hall : Stands (Beside [CHn_PREEMPT_STATUS.VERIFY n, CHn_PREEMPT_STATUS.ACTIVE n, CHn_PREEMPT_STATUS.HOLD n,
        CHn_EVENT.VERIFY_OK n, CHn_STATi.COUNT n 23, CHn_STAT_HALF0.HALF n, CHn_EVENT.STAT_HALF n]) s.quiet
        ((setVerify n 3 x).ev (CHn_EVENT.VERIFY_OK n)) :=
      (hstands.widen (by simp [statFields])).trans (hactive.beside.widen (by simp))
    exact ⟨hall.only, hall.2, hactive.nth 0 rfl, hactive.nth 1 rfl, hactive.nth 3 rfl,
      (hactive.rd hcount).trans hcounts⟩

end Sys2Proof.Machine
end

section
/-!
PROOFS. Pause and PFC (R165, R166).
-/

namespace Sys2Proof.Machine

section
variable {d : Dev} {n : Nat} {f : Field}

/-! ### Sent -/

theorem nowExt_congr {e : Dev} (h : e.hearth = d.hearth) : e.nowExt = d.nowExt := by
  rw [Dev.nowExt, Dev.nowExt, Dev.now, Dev.now, h]

theorem atMote_nowExt (m : Nat) (x : List Out) : (atMote m { d with outs := x }).nowExt = (atMote m d).nowExt :=
  nowExt_congr (atMote_outs_hearth m d x)

/-- Link pause whose measure is down ends with quanta 0. -/
theorem xoffEnd_pause (hmode : d.rd (CHn_PAUSE_CFG.MODE n) = 1) (hon : d.on (CHn_STATUS.XOFF n) = true)
    (hlow : d.measure n none ≤ d.rd (CHn_PAUSE_WM.LO n)) (hbe : d.pm.beXoff = false) :
    xoffEnd n d = sendPause n .pause 0 0 ((d.chMod n fun c => { c with beOn := c.beOn &&& 0 }).wrB (CHn_STATUS.XOFF n) false) := by
  have hmask : d.beMask n = 0 := by simp [Dev.beMask, hbe]
  simp [xoffEnd, hmode, hon, hlow, hmask, bit]

theorem xoffEnd_sends {n : Fin 4} (hmode : d.rd (CHn_PAUSE_CFG.MODE n) = 1) (hon : d.on (CHn_STATUS.XOFF n) = true)
    (hlow : d.measure n none ≤ d.rd (CHn_PAUSE_WM.LO n)) (hbe : d.pm.beXoff = false) (hlen : d.chan.length = 4) :
    Wrote d (xoffEnd n d) [(CHn_STATUS.XOFF n, 0)] ∧ ((xoffEnd n d).ch n).ctlq = (d.ch n).ctlq ++ [(.pause, 0, 0)] := by
  have hxoff := (by decide : ∀ n : Fin 4, fits (CHn_STATUS.XOFF n) [] = true) n
  have hcalm (x : Dev) (hx : Wrote d x []) : Wrote d (sendPause n .pause 0 0 (x.wrB (CHn_STATUS.XOFF n) false))
      [(CHn_STATUS.XOFF n, 0)] := (hx.wrB (b := false) hxoff Nat.one_pos).parts rfl rfl
  rw [xoffEnd_pause hmode hon hlow hbe]
  refine ⟨hcalm _ ((Wrote.refl d).parts rfl rfl), ?_⟩
  have hsent (x : Dev) (hx : n.val < x.chan.length) :
      ((sendPause n .pause 0 0 (x.wrB (CHn_STATUS.XOFF n) false)).ch n).ctlq = (x.ch n).ctlq ++ [(.pause, 0, 0)] :=
    congrArg Chan.ctlq (ch_chMod (d := x.wrB _ _) hx)
  rw [hsent _ ((chan_length _).symm ▸ (by omega)), ch_chMod (by omega)]

/-- Link pause whose measure stays up is refreshed at half its time. -/
theorem pauseRefresh_pause {m : Nat} (hmode : d.rd (CHn_PAUSE_CFG.MODE n) = 1) (hon : d.on (CHn_STATUS.XOFF n) = true)
    (hdue : (d.ch n).xoffT.getD 8 0 + d.quantaMt n (d.rd (CHn_PAUSE_QUANTA.TX_QUANTA n)) / 2 ≤ (atMote m d).nowExt)
    (hup : d.rd (CHn_PAUSE_WM.LO n) < d.measure n none) : pauseRefresh n m d =
      markXoff n 8 (sendPause n .pause 0 (d.rd (CHn_PAUSE_QUANTA.TX_QUANTA n)) (atMote m d)) := by
  unfold pauseRefresh
  obtain ⟨h, he⟩ := atMote_eq m d
  rw [he] at hdue ⊢
  have hmode' : Dev.rd { d with hearth := h } (CHn_PAUSE_CFG.MODE n) = 1 := hmode
  have hon' : Dev.on { d with hearth := h } (CHn_STATUS.XOFF n) = true := hon
  have hup' : Dev.rd { d with hearth := h } (CHn_PAUSE_WM.LO n) < Dev.measure { d with hearth := h } n none := hup
  dsimp only
  rw [hmode', hon', decide_eq_true hup', if_pos]
  · rfl
  · exact Bool.and_eq_true_iff.mpr ⟨rfl, decide_eq_true hdue⟩

theorem markXoff_ch {x : Dev} {v q : Nat} (hlen : n < x.chan.length) (ht : (x.ch n).xoffT.length = 9) :
    ((markXoff n 8 (sendPause n .pause v q x)).ch n).ctlq = (x.ch n).ctlq ++ [(.pause, v, q)] ∧
    ((markXoff n 8 (sendPause n .pause v q x)).ch n).xoffT.getD 8 0 = x.nowExt := by
  have hsent : (sendPause n .pause v q x).ch n = { x.ch n with ctlq := (x.ch n).ctlq ++ [(.pause, v, q)] } := ch_chMod hlen
  have hmark : (markXoff n 8 (sendPause n .pause v q x)).ch n =
      { x.ch n with ctlq := (x.ch n).ctlq ++ [(.pause, v, q)], xoffT := (x.ch n).xoffT.set 8 x.nowExt } := by
    rw [markXoff, ch_chMod (d := sendPause n .pause v q x) ((chan_length _).symm ▸ hlen), hsent]
    rfl
  rw [hmark]
  exact ⟨rfl, by simp [List.getD_eq_getElem?_getD, ht]⟩

/-! ### Received -/

theorem forN_single {f : Nat → Dev → Dev} {k m : Nat} (hk : k < m) (h : ∀ j < m, j ≠ k → ∀ d, f j d = d) (d : Dev) :
    forN m f d = f k d := by
  induction m with
  | zero => omega
  | succ m ih =>
    rw [forN, List.range_succ, List.foldl_append]
    rcases eq_or_ne k m with rfl | hne
    · exact congrArg (f k) (forN_id fun i hi => h i (by omega) (by omega) d)
    · exact (h m (by omega) (Ne.symm hne) _).trans (ih (by omega) fun j hj => h j (by omega))

/-- Quanta of class k (8: the link) received until time t are added up and stop it. -/
def stopUntil (n k q t : Nat) (d : Dev) : Dev :=
  (stat n 7 q d).chMod n fun c => { c with pauseT := c.pauseT.set k (t + (stat n 7 q d).quantaMt n q) }

theorem stop_beside : ∀ n : Fin 4, ∀ f ∈ [CHn_STATUS.RATE_NOW n, CHn_STATUS.RX_PAUSED n, CHn_STATUS.PFC_RX_PAUSED n,
    CHn_STATi.COUNT n 5, CHn_STATi.COUNT n 6], Beside (statFields n 7) f := by decide

theorem quantaMt_congr {e : Dev} {q : Nat} (h : e.rd (CHn_STATUS.RATE_NOW n) = d.rd (CHn_STATUS.RATE_NOW n)) :
    e.quantaMt n q = d.quantaMt n q := by rw [Dev.quantaMt, Dev.quantaMt, h]

theorem stopUntil_stands (k q t : Nat) : Stands (Beside (statFields n 7)) d (stopUntil n k q t d) :=
  (stat_stands 7 q).chMod

theorem pauseT_set {x : Dev} {k v : Nat} (hlen : n < x.chan.length) (ht : (x.ch n).pauseT.length = 9) (hk : k < 9) :
    ((x.chMod n fun c => { c with pauseT := c.pauseT.set k v }).ch n).pauseT.getD k 0 = v := by
  rw [ch_chMod hlen]
  simp [List.getD_eq_getElem?_getD, ht, hk]

theorem stopUntil_time {n : Fin 4} {k q t : Nat} (hlen : d.chan.length = 4) (ht : (d.ch n).pauseT.length = 9) (hk : k < 9) :
    ((stopUntil n k q t d).ch n).pauseT.getD k 0 = t + d.quantaMt n q := by
  have hlen' : (stat n 7 q d).chan.length = 4 := (congrArg List.length (stat_beyond 7 q).chan).trans hlen
  have hch : (stat n 7 q d).ch n = d.ch n := (stat_beyond 7 q).ch n
  have hrate : (stat n 7 q d).quantaMt n q = d.quantaMt n q :=
    quantaMt_congr ((stat_stands 7 q).rd (stop_beside n _ (by simp)))
  rw [← hrate]
  exact pauseT_set (by omega) (by rw [hch, ht]) hk

theorem stopUntil_counts {n : Fin 4} {k q t : Nat} (hfree : d.fenced n = false) :
    (stopUntil n k q t d).rd (CHn_STATi.COUNT n 7) = (d.rd (CHn_STATi.COUNT n 7) + q) % 2 ^ 32 :=
  stat_counts (by decide) hfree

/-- A frame counted and the field it shows: what the quanta find. -/
structure Shown (n i : Nat) (f : Field) (v : Nat) (d x : Dev) : Prop where
  stands : Stands (Beside (f :: statFields n i)) d x
  shown : x.rd f = v % 2 ^ f.w
  count : x.rd (CHn_STATi.COUNT n i) = (d.rd (CHn_STATi.COUNT n i) + 1) % 2 ^ 32
  ch : x.ch n = d.ch n
  chan : x.chan.length = d.chan.length

theorem shown_of_stat {n : Fin 4} {i v : Nat} (hi : i < 64) (hfree : d.fenced n = false) (hw : f.lo + f.w ≤ 32)
    (hf : Field.apart f (CHn_STATi.COUNT n i) = true) : Shown n i f v d ((stat n i 1 d).wr f v) where
  stands := ((stat_stands i 1).widen fun _ h => .tail _ h).wr (.listed (by simp))
  shown := rd_wr_same _ _ _ hw
  count := (rd_wr_apart _ _ _ _ hf).trans (stat_counts hi hfree)
  ch := (stat_beyond i 1).ch n
  chan := congrArg List.length (stat_beyond i 1).chan

theorem pauseAt_honoured {n : Fin 4} {q t : Nat} (hmode : d.rd (CHn_PAUSE_CFG.MODE n) = 1)
    (hhonor : d.on (CHn_PAUSE_CFG.RX_HONOR n) = true) :
    pauseAt n q t d = stopUntil n 8 q t ((stat n 5 1 d).wrB (CHn_STATUS.RX_PAUSED n) (q != 0)) := by
  obtain ⟨hm, hh⟩ := (by decide : ∀ n : Fin 4, Beside (statFields n 5) (CHn_PAUSE_CFG.MODE n) ∧
    Beside (statFields n 5) (CHn_PAUSE_CFG.RX_HONOR n)) n
  have hstands := stat_stands (d := d) (n := n) 5 1
  exact if_pos ⟨(hstands.rd hm).trans hmode, (hstands.on hh).trans hhonor⟩

theorem bit_shift : ∀ (k : Fin 8) (j : Fin 8), bit (1#8 <<< k.val).toNat j = decide (j = k) := by decide

theorem pfcAt_honoured {n : Fin 4} {k : Fin 8} {qs : List Nat} {t : Nat} (hmode : d.rd (CHn_PAUSE_CFG.MODE n) = 2)
    (hhonor : d.on (CHn_PAUSE_CFG.RX_HONOR n) = true) (htake : d.bitOf (CHn_PAUSE_CFG.RX_IGNORE n) k = false) :
    pfcAt n (1#8 <<< k.val).toNat qs t d =
      stopUntil n k (qs.getD k 0) t ((stat n 6 1 d).putBitOf (CHn_STATUS.PFC_RX_PAUSED n) k (qs.getD k 0 != 0)) := by
  obtain ⟨hm, hh, hi⟩ := (by decide : ∀ n : Fin 4, Beside (statFields n 6) (CHn_PAUSE_CFG.MODE n) ∧
    Beside (statFields n 6) (CHn_PAUSE_CFG.RX_HONOR n) ∧ Beside (statFields n 6) (CHn_PAUSE_CFG.RX_IGNORE n)) n
  have hstands := stat_stands (d := d) (n := n) 6 1
  have htake' : (stat n 6 1 d).bitOf (CHn_PAUSE_CFG.RX_IGNORE n) k = false := by
    rw [← htake, Dev.bitOf, Dev.bitOf, hstands.rd hi]
  refine (if_pos ⟨(hstands.rd hm).trans hmode, (hstands.on hh).trans hhonor⟩).trans ?_
  have hbit : bit (1#8 <<< k.val).toNat k = true := (bit_shift k k).trans (decide_eq_true rfl)
  rw [forN_single (k := k) (by omega)]
  · rw [hbit, htake']
    rfl
  · intro j hj8 hj x
    have hoff : bit (1#8 <<< k.val).toNat j = false :=
      (bit_shift k ⟨j, hj8⟩).trans (decide_eq_false fun h => hj (congrArg Fin.val h))
    rw [hoff, Bool.false_and]
    rfl

theorem putBit_lt {x w k : Nat} {b : Bool} (hx : x < 2 ^ w) (hk : k < w) : putBit x k b < 2 ^ w := by
  refine Nat.lt_pow_two_of_testBit _ fun i hi => ?_
  rw [putBit, testBit_setBits, if_neg (by omega)]
  exact Nat.testBit_lt_two_pow (hx.trans_le (Nat.pow_le_pow_right (by decide) hi))

theorem hears_atMote (m : Nat) : (atMote m d).hears n = d.hears n := by
  obtain ⟨h, he⟩ := atMote_eq m d
  rw [he]
  rfl

/-- What a frame with quanta leaves after `stopUntil`. -/
theorem stopUntil_keeps {n : Fin 4} {i k q t v : Nat} {x : Dev} (hx : Shown n i f v d x) (hlen : d.chan.length = 4)
    (ht : (d.ch n).pauseT.length = 9) (hk : k < 9) (hf : Beside (statFields n 7) f)
    (hi : Beside (statFields n 7) (CHn_STATi.COUNT n i)) (hrate : Beside (f :: statFields n i) (CHn_STATUS.RATE_NOW n)) :
    Stands (Beside ((f :: statFields n i) ++ statFields n 7)) d (stopUntil n k q t x) ∧
    (stopUntil n k q t x).rd f = v % 2 ^ f.w ∧
    ((stopUntil n k q t x).ch n).pauseT.getD k 0 = t + d.quantaMt n q ∧
    (stopUntil n k q t x).rd (CHn_STATi.COUNT n i) = (d.rd (CHn_STATi.COUNT n i) + 1) % 2 ^ 32 := by
  obtain ⟨hstands, hshown, hcount, hch, hchan⟩ := hx
  have hstop := stopUntil_stands (d := x) (n := n) k q t
  refine ⟨?_, (hstop.rd hf).trans hshown, ?_, (hstop.rd hi).trans hcount⟩
  · exact (hstands.widen fun _ h => List.mem_append_left _ h).trans (hstop.widen fun _ h => List.mem_append_right _ h)
  · rw [stopUntil_time (hchan.trans hlen) (by rw [hch, ht]) hk, quantaMt_congr (hstands.rd hrate)]

theorem received_apart : ∀ n : Fin 4,
    Beside (CHn_STATUS.RX_PAUSED n :: statFields n 5) (CHn_STATUS.RATE_NOW n) ∧
    Beside (CHn_STATUS.PFC_RX_PAUSED n :: statFields n 6) (CHn_STATUS.RATE_NOW n) ∧
    Beside (CHn_STATUS.RX_PAUSED n :: statFields n 5) (CHn_STATi.COUNT n 7) ∧
    Beside (CHn_STATUS.RX_PAUSED n :: statFields n 5) (CHn_STATUS.FENCED n) ∧
    fits (CHn_STATUS.PFC_RX_PAUSED n) [] = true ∧ fits (CHn_STATUS.RX_PAUSED n) [] = true ∧
    Field.apart (CHn_STATUS.RX_PAUSED n) (CHn_STATi.COUNT n 5) = true ∧
    Field.apart (CHn_STATUS.PFC_RX_PAUSED n) (CHn_STATi.COUNT n 6) = true := by decide

/-- A pause frame taken in. -/
theorem pauseAt_shows {n : Fin 4} {q t : Nat} (hmode : d.rd (CHn_PAUSE_CFG.MODE n) = 1)
    (hhonor : d.on (CHn_PAUSE_CFG.RX_HONOR n) = true) (hfree : d.fenced n = false) (hlen : d.chan.length = 4)
    (ht : (d.ch n).pauseT.length = 9) :
    Stands (Beside [CHn_STATUS.RX_PAUSED n, CHn_STATi.COUNT n 5, CHn_STAT_HALF0.HALF n, CHn_EVENT.STAT_HALF n,
      CHn_STATi.COUNT n 7]) d (pauseAt n q t d) ∧
    (pauseAt n q t d).rd (CHn_STATUS.RX_PAUSED n) = b2n (q != 0) ∧
    ((pauseAt n q t d).ch n).pauseT.getD 8 0 = t + d.quantaMt n q ∧
    (pauseAt n q t d).rd (CHn_STATi.COUNT n 5) = (d.rd (CHn_STATi.COUNT n 5) + 1) % 2 ^ 32 ∧
    (pauseAt n q t d).rd (CHn_STATi.COUNT n 7) = (d.rd (CHn_STATi.COUNT n 7) + q) % 2 ^ 32 := by
  obtain ⟨hrate, -, hseven, hfence, -, -, hfive, -⟩ := received_apart n
  have hw := (by decide : ∀ n : Fin 4, (CHn_STATUS.RX_PAUSED n).lo + (CHn_STATUS.RX_PAUSED n).w ≤ 32) n
  have hx : Shown n 5 (CHn_STATUS.RX_PAUSED n) (b2n (q != 0)) d ((stat n 5 1 d).wrB (CHn_STATUS.RX_PAUSED n) (q != 0)) :=
    shown_of_stat (by decide) hfree hw hfive
  rw [pauseAt_honoured hmode hhonor]
  generalize (stat n 5 1 d).wrB (CHn_STATUS.RX_PAUSED n) (q != 0) = x at hx
  obtain ⟨hall, hshown, htime, hcount⟩ := stopUntil_keeps (q := q) (t := t) (k := 8) hx hlen ht (by decide)
    (stop_beside n _ (by simp)) (stop_beside n _ (by simp)) hrate
  have hfree' : x.fenced n = false := (hx.stands.on hfence).trans hfree
  refine ⟨hall.widen (by simp [statFields]), hshown.trans ?_, htime, hcount, (stopUntil_counts hfree').trans ?_⟩
  · cases q != 0 <;> rfl
  · rw [hx.stands.rd hseven]

theorem pfcAt_shows {n : Fin 4} {k : Fin 8} {qs : List Nat} {t : Nat} (hmode : d.rd (CHn_PAUSE_CFG.MODE n) = 2)
    (hhonor : d.on (CHn_PAUSE_CFG.RX_HONOR n) = true) (htake : d.bitOf (CHn_PAUSE_CFG.RX_IGNORE n) k = false)
    (hfree : d.fenced n = false) (hlen : d.chan.length = 4) (ht : (d.ch n).pauseT.length = 9) :
    Stands (Beside [CHn_STATUS.PFC_RX_PAUSED n, CHn_STATi.COUNT n 6, CHn_STAT_HALF0.HALF n, CHn_EVENT.STAT_HALF n,
      CHn_STATi.COUNT n 7]) d (pfcAt n (1#8 <<< k.val).toNat qs t d) ∧
    (pfcAt n (1#8 <<< k.val).toNat qs t d).rd (CHn_STATUS.PFC_RX_PAUSED n) =
      putBit (d.rd (CHn_STATUS.PFC_RX_PAUSED n)) k (qs.getD k 0 != 0) ∧
    ((pfcAt n (1#8 <<< k.val).toNat qs t d).ch n).pauseT.getD k 0 = t + d.quantaMt n (qs.getD k 0) ∧
    (pfcAt n (1#8 <<< k.val).toNat qs t d).rd (CHn_STATi.COUNT n 6) = (d.rd (CHn_STATi.COUNT n 6) + 1) % 2 ^ 32 := by
  obtain ⟨-, hrate, -, -, -, -, -, hsix⟩ := received_apart n
  have hw := (by decide : ∀ n : Fin 4, (CHn_STATUS.PFC_RX_PAUSED n).lo + (CHn_STATUS.PFC_RX_PAUSED n).w ≤ 32) n
  have hstay : (stat n 6 1 d).rd (CHn_STATUS.PFC_RX_PAUSED n) = d.rd (CHn_STATUS.PFC_RX_PAUSED n) :=
    (stat_stands 6 1).rd ((by decide : ∀ n : Fin 4, Beside (statFields n 6) (CHn_STATUS.PFC_RX_PAUSED n)) n)
  have hx : Shown n 6 (CHn_STATUS.PFC_RX_PAUSED n) (putBit (d.rd (CHn_STATUS.PFC_RX_PAUSED n)) k (qs.getD k 0 != 0)) d
      ((stat n 6 1 d).putBitOf (CHn_STATUS.PFC_RX_PAUSED n) k (qs.getD k 0 != 0)) := by
    rw [Dev.putBitOf, hstay]
    exact shown_of_stat (by decide) hfree hw hsix
  rw [pfcAt_honoured hmode hhonor htake]
  generalize (stat n 6 1 d).putBitOf (CHn_STATUS.PFC_RX_PAUSED n) k (qs.getD k 0 != 0) = x at hx
  obtain ⟨hall, hshown, htime, hcount⟩ := stopUntil_keeps (q := qs.getD k 0) (t := t) (k := k) hx hlen ht (by omega)
    (stop_beside n _ (by simp)) (stop_beside n _ (by simp)) hrate
  exact ⟨hall.widen (by simp [statFields]),
    hshown.trans (Nat.mod_eq_of_lt (putBit_lt (rd_lt d (CHn_STATUS.PFC_RX_PAUSED n)) k.isLt)), htime, hcount⟩

theorem pauseRx_hears {q m : Nat} (hhears : d.hears n = true) :
    pauseRx n q m d = pauseAt n q (atMote m d).nowExt (atMote m d) := if_pos ((hears_atMote m).trans hhears)

theorem pfcRx_hears {vec m : Nat} {qs : List Nat} (hhears : d.hears n = true) :
    pfcRx n vec qs m d = pfcAt n vec qs (atMote m d).nowExt (atMote m d) := if_pos ((hears_atMote m).trans hhears)

/-- The end of a received time of a class and of the link. -/
theorem pauseEnd_class {k m : Nat} (hk : k < 8) (hdue : (d.ch n).pauseT.getD k 0 ≤ (atMote m d).nowExt) :
    pauseEnd n k m d = (atMote m d).putBitOf (CHn_STATUS.PFC_RX_PAUSED n) k false := by
  have hch : (atMote m d).ch n = d.ch n := by simp [Dev.ch]
  simp only [pauseEnd, hch, if_pos hdue, if_neg (show k ≠ 8 by omega), if_pos hk]

theorem pauseEnd_link {m : Nat} (hdue : (d.ch n).pauseT.getD 8 0 ≤ (atMote m d).nowExt) :
    pauseEnd n 8 m d = (atMote m d).wrB (CHn_STATUS.RX_PAUSED n) false := by
  have hch : (atMote m d).ch n = d.ch n := by simp [Dev.ch]
  simp only [pauseEnd, hch, if_pos hdue, if_pos]

theorem toNat_bne (q : BitVec 16) : (q.toNat != 0) = (q != 0) := by
  rw [Bool.eq_iff_iff, bne_iff_ne, bne_iff_ne, Ne, Ne, BitVec.toNat_eq]
  rfl

theorem b2n_quanta (q : BitVec 16) : b2n (q.toNat != 0) = if q = 0 then 0 else 1 := by
  rw [toNat_bne]
  by_cases hq : q = 0 <;> simp [hq, b2n]

theorem getD_toNat (qs : List (BitVec 16)) (k : Nat) : (qs.map BitVec.toNat).getD k 0 = (qs.getD k 0).toNat := by
  simp [List.getD_eq_getElem?_getD, List.getElem?_map]
  cases qs[k]? <;> rfl

theorem Wrote.atMote (m : Nat) (d : Dev) : Wrote d (atMote m d) [] := (Wrote.refl d).parts (by simp) (by simp)

end

/-- Settles O21, one clause of R165 and R166 at a time. -/
theorem pauseBothWays : Obligations.PauseBothWays := by
  unfold Obligations.PauseBothWays
  intro s
  refine ⟨fun n hmode hon hlow hbe hlen => ?_, fun n m hmode hon hdue hup ht hlen => ?_,
    fun n q m hmode hhonor ht hhears hlen => ?_, fun n k qs m hmode hhonor htake ht hhears hlen => ?_,
    fun n k m hk hdue => ?_, fun n m hdue => ?_⟩
  · exact does_run (f := xoffEnd n) (fun _ => rfl) (xoffEnd_sends (d := s.quiet) hmode hon hlow hbe hlen)
  · refine does_run (f := pauseRefresh n m) (fun _ => rfl) ?_
    rw [← atMote_nowExt m []] at hdue ⊢
    obtain ⟨h, he⟩ := atMote_eq m s.quiet
    rw [pauseRefresh_pause (d := s.quiet) hmode hon hdue hup, he]
    obtain ⟨hq, hx⟩ := markXoff_ch (x := { s.quiet with hearth := h }) (n := n) (v := 0)
      (q := s.quiet.rd (CHn_PAUSE_QUANTA.TX_QUANTA n)) (show n.val < s.dev.chan.length by omega) ht
    exact ⟨((Wrote.refl s.quiet).parts rfl rfl), hq, hx⟩
  · refine ends_run (f := pauseRx n q.toNat m) (fun _ => rfl) ?_
    rw [← atMote_nowExt m [], pauseRx_hears (d := s.quiet) hhears]
    generalize htime : (atMote m s.quiet).nowExt = t
    obtain ⟨h, he⟩ := atMote_eq m s.quiet
    rw [he]
    obtain ⟨hall, hshown, hrest⟩ := pauseAt_shows (d := { s.quiet with hearth := h }) (q := q.toNat) (t := t) hmode hhonor
      (fenced_of_hears hhears) hlen ht
    refine ⟨hall.only, hall.2, hshown.trans (b2n_quanta q), hrest⟩
  · refine ends_run (f := pfcRx n (1#8 <<< k.val).toNat (qs.map BitVec.toNat) m) (fun _ => rfl) ?_
    rw [← atMote_nowExt m [], pfcRx_hears (d := s.quiet) hhears]
    generalize htime : (atMote m s.quiet).nowExt = t
    obtain ⟨h, he⟩ := atMote_eq m s.quiet
    rw [he]
    have hshows := pfcAt_shows (d := { s.quiet with hearth := h }) (qs := qs.map BitVec.toNat) (t := t)
      (k := k) hmode hhonor htake (fenced_of_hears hhears) hlen ht
    rw [getD_toNat, toNat_bne] at hshows
    obtain ⟨hall, hrest⟩ := hshows
    exact ⟨hall.only, hall.2, hrest⟩
  · refine does_run (f := pauseEnd n k m) (fun _ => rfl) ?_
    rw [← atMote_nowExt m []] at hdue
    rw [pauseEnd_class (d := s.quiet) (by omega) hdue, Dev.putBitOf, atMote_rd]
    have hk8 : k.val < 8 := by omega
    obtain ⟨-, -, -, -, hclass, -⟩ := received_apart n
    exact ⟨(Wrote.atMote m s.quiet).wr hclass (putBit_lt (rd_lt s.quiet (CHn_STATUS.PFC_RX_PAUSED n)) hk8), trivial⟩
  · refine does_run (f := pauseEnd n 8 m) (fun _ => rfl) ?_
    rw [← atMote_nowExt m []] at hdue
    rw [pauseEnd_link (d := s.quiet) hdue]
    obtain ⟨-, -, -, -, -, hlink, -⟩ := received_apart n
    exact ⟨(Wrote.atMote m s.quiet).wrB hlink Nat.one_pos, trivial⟩

end Sys2Proof.Machine
end

section
/-!
PROOFS. XREF, the audio dividers, the Hearth's rate (R5, R29 to R32, R42).
-/

namespace Sys2Proof.Machine

section
variable {d : Dev}

theorem xrefLoss_wrote (hpll : d.boot.pllOnce = true) : Wrote d (xrefLoss d)
    [(CLK_STATUS.XREF_LOST, 1), (HRT_STATUS.XREF_LOST, 1), (CLK_STATUS.HELD, 1), (CLK_STATUS.RELOCKING, 0),
      (CLK_STATUS.PLL_LOCK, 0), (CLK_EVENT.XREF_LOSS, 1)] ∧
    (d.on CLK_STATUS.XREF_LOST = false → (xrefLoss d).hearth.heldBound = false) := by
  have hlost : Wrote d (setXrefLost true d) [(CLK_STATUS.XREF_LOST, 1), (HRT_STATUS.XREF_LOST, 1)] :=
    ((Wrote.refl d).wrB (by decide) Nat.one_pos).wrB (by decide) Nat.one_pos
  have hall := (((hlost.wrB (f := CLK_STATUS.HELD) (b := true) (by decide) Nat.one_pos).wrB (f := CLK_STATUS.RELOCKING)
    (b := false) (by decide) Nat.one_pos).wrB (f := CLK_STATUS.PLL_LOCK) (b := false) (by decide) Nat.one_pos).ev
    (f := CLK_EVENT.XREF_LOSS) (by decide) Nat.one_pos
  unfold xrefLoss
  rw [if_pos hpll]
  dsimp only
  generalize Dev.ev _ CLK_EVENT.XREF_LOSS = x at hall ⊢
  split
  · next hagain => exact ⟨hall, fun hfirst => absurd hagain (by simp [hfirst])⟩
  · exact ⟨hall.parts rfl rfl, fun _ => rfl⟩

theorem heldBound_wrote (hheld : d.on CLK_STATUS.HELD = true) (hfirst : d.hearth.heldBound = false) :
    Wrote d (heldBound d) [(CLK_EVENT.HELD_BOUND, 1)] ∧ (heldBound d).hearth.heldBound = true := by
  rw [heldBound, hheld, hfirst, if_pos (by rfl)]
  exact ⟨((Wrote.refl d).ev (by decide) Nat.one_pos).parts rfl rfl, rfl⟩

theorem xrefReturned_wrote (hheld : d.on CLK_STATUS.HELD = true) :
    Wrote d (xrefReturned d) [(CLK_STATUS.RELOCKING, 1)] ∧ (xrefReturned d).hearth = d.hearth := by
  rw [xrefReturned, if_pos hheld]
  exact ⟨(Wrote.refl d).wrB (by decide) Nat.one_pos, rfl⟩

theorem xrefBack_wrote (hrelock : d.on CLK_STATUS.RELOCKING = true) : Wrote d (xrefBack d)
    [(CLK_STATUS.XREF_LOST, 0), (HRT_STATUS.XREF_LOST, 0), (CLK_STATUS.HELD, 0), (CLK_STATUS.RELOCKING, 0),
      (CLK_STATUS.PLL_LOCK, 1), (CLK_EVENT.XREF_BACK, 1)] ∧ (xrefBack d).hearth = d.hearth := by
  have hfound : Wrote d (setXrefLost false d) [(CLK_STATUS.XREF_LOST, 0), (HRT_STATUS.XREF_LOST, 0)] :=
    ((Wrote.refl d).wrB (by decide) Nat.one_pos).wrB (by decide) Nat.one_pos
  rw [xrefBack, if_pos hrelock]
  exact ⟨(((hfound.wrB (by decide) Nat.one_pos).wrB (by decide) Nat.one_pos).wrB (by decide) Nat.one_pos).ev (by decide)
    Nat.one_pos, rfl⟩

theorem Wrote.hearthMod {e : Dev} {ws : List (Field × Nat)} {g : Hearth → Hearth} (h : Wrote d e ws) :
    Wrote d (e.hearthMod g) ws := h.parts rfl rfl

theorem mclkDen_a {src : BusSrc} {den : Nat} (hlt : den < 2 ^ 24) (hden : 8 * d.rd CLK_MCLK_A_NUM.NUM ≤ den) :
    mclkDen src false den d = (d.wr CLK_MCLK_A_DEN.DEN den).hearthMod fun h =>
      { h with mclkA := (d.rd CLK_MCLK_A_NUM.NUM, den) } := by
  have hok : (decide (den < 8 * d.rd CLK_MCLK_A_NUM.NUM) || decide (2 ^ 24 ≤ den)) = false := by
    rw [Bool.or_eq_false_iff, decide_eq_false_iff_not, decide_eq_false_iff_not]
    omega
  simp only [mclkDen, Bool.false_eq_true, if_false, hok]
  rfl

theorem mclkDen_b {src : BusSrc} {den : Nat} (hlt : den < 2 ^ 24) (hden : 8 * d.rd CLK_MCLK_B_NUM.NUM ≤ den) :
    mclkDen src true den d = (d.wr CLK_MCLK_B_DEN.DEN den).hearthMod fun h =>
      { h with mclkB := (d.rd CLK_MCLK_B_NUM.NUM, den) } := by
  have hok : (decide (den < 8 * d.rd CLK_MCLK_B_NUM.NUM) || decide (2 ^ 24 ≤ den)) = false := by
    rw [Bool.or_eq_false_iff, decide_eq_false_iff_not, decide_eq_false_iff_not]
    omega
  simp only [mclkDen, if_true, hok]
  rfl

theorem mclkDen_a_wrote {src : BusSrc} {den : Nat} (hlt : den < 2 ^ 24) (hden : 8 * d.rd CLK_MCLK_A_NUM.NUM ≤ den) :
    Wrote d (mclkDen src false den d) [(CLK_MCLK_A_DEN.DEN, den)] ∧
    (mclkDen src false den d).hearth.mclkA = (d.rd CLK_MCLK_A_NUM.NUM, den) ∧
    (mclkDen src false den d).hearth.mclkB = d.hearth.mclkB := by
  rw [mclkDen_a hlt hden, hearthMod_hearth, wr_hearth]
  exact ⟨((Wrote.refl d).wr (by decide) hlt).hearthMod, rfl, rfl⟩

theorem mclkDen_b_wrote {src : BusSrc} {den : Nat} (hlt : den < 2 ^ 24) (hden : 8 * d.rd CLK_MCLK_B_NUM.NUM ≤ den) :
    Wrote d (mclkDen src true den d) [(CLK_MCLK_B_DEN.DEN, den)] ∧
    (mclkDen src true den d).hearth.mclkB = (d.rd CLK_MCLK_B_NUM.NUM, den) ∧
    (mclkDen src true den d).hearth.mclkA = d.hearth.mclkA := by
  rw [mclkDen_b hlt hden, hearthMod_hearth, wr_hearth]
  exact ⟨((Wrote.refl d).wr (by decide) hlt).hearthMod, rfl, rfl⟩

theorem mclkDen_refused {src : BusSrc} {den : Nat} (hden : den < 8 * d.rd CLK_MCLK_A_NUM.NUM) :
    mclkDen src false den d = badWr src CLK_MCLK_A_DEN.addr d := by
  simp only [mclkDen, Bool.false_eq_true, if_false, decide_eq_true hden, Bool.true_or, if_true]
  rfl

/-- The two's complement of a word's signed value is the word. -/
theorem uns_toInt (v : Word) : uns 32 v.toInt = v.toNat := by
  have h := BitVec.toNat_ofInt (n := 32) v.toInt
  rw [BitVec.ofInt_toInt] at h
  exact h.symm

/-- A servo write outside HOLDOVER only feeds the watchdog. -/
theorem hostServo_calm (h : d.rd HRT_STATUS.STATE ≠ 3) : hostServo d = d.hearthMod fun h => { h with wdogFr := 0 } := by
  have hstate : (d.rd HRT_STATUS.STATE == 3) = false := beq_false_of_ne h
  have hread : (d.hearthMod fun h => { h with wdogFr := 0 }).rd HRT_STATUS.STATE = d.rd HRT_STATUS.STATE := rfl
  simp only [hostServo, hread, hstate, Bool.false_and, Bool.false_eq_true, if_false]

theorem setRate_wrote {v : Word} : Wrote d (setRate v.toInt (d.wrB HRT_STATUS.RATE_CLAMPED false))
    [(HRT_STATUS.RATE_CLAMPED, 0), (HRT_RATE.RATE, v.toNat)] := by
  rw [setRate, uns_toInt]
  exact (((Wrote.refl d).wrB (by decide) Nat.one_pos).wr (by decide) v.isLt).hearthMod

theorem setRate_hearth (r : Int) (b : Bool) : (setRate r (d.wrB HRT_STATUS.RATE_CLAMPED b)).hearth =
    d.hearth.all fun c => { c with rate := r } := by
  rw [setRate, hearthMod_hearth, wr_hearth, wrB_hearth]

theorem rateWrite_accepted {src : BusSrc} {v : Word} (hsrc : d.src < 2) (hlo : -13743895 ≤ v.toInt)
    (hhi : v.toInt ≤ 13743895) (hstate : d.rd HRT_STATUS.STATE ≠ 3) : rateWrite src v d =
      (setRate v.toInt (d.wrB HRT_STATUS.RATE_CLAMPED false)).hearthMod fun h => { h with wdogFr := 0 } := by
  have hin : ¬(v.toInt < -rateMax ∨ rateMax < v.toInt) := by
    rw [rateMax]
    omega
  have hstay : (setRate v.toInt (d.wrB HRT_STATUS.RATE_CLAMPED false)).rd HRT_STATUS.STATE ≠ 3 := by
    rwa [setRate_wrote.rd (show fits HRT_STATUS.STATE [(HRT_STATUS.RATE_CLAMPED, 0), (HRT_RATE.RATE, 0)] = true by decide)]
  rw [rateWrite, if_neg (by omega), if_neg hin, hostServo_calm hstay]

theorem rateWrite_wrote {src : BusSrc} {v : Word} (hsrc : d.src < 2) (hlo : -13743895 ≤ v.toInt)
    (hhi : v.toInt ≤ 13743895) (hstate : d.rd HRT_STATUS.STATE ≠ 3) :
    Wrote d (rateWrite src v d) [(HRT_RATE.RATE, v.toNat), (HRT_STATUS.RATE_CLAMPED, 0)] ∧
    (rateWrite src v d).hearth = { d.hearth.all (fun c => { c with rate := v.toInt }) with wdogFr := 0 } := by
  have hwrote := setRate_wrote (d := d) (v := v)
  rw [rateWrite_accepted hsrc hlo hhi hstate, hearthMod_hearth, setRate_hearth]
  exact ⟨hwrote.hearthMod.reorder (by simp) (by simp), rfl⟩

theorem rateWrite_refused {src : BusSrc} {v : Word} (hsrc : d.src < 2) (h : v.toInt < -13743895 ∨ 13743895 < v.toInt) :
    rateWrite src v d = badWr src HRT_RATE.addr d := by
  rw [rateWrite, if_neg (by omega), if_pos (by rwa [rateMax])]

end

/-- Settles O1, one clause at a time. -/
theorem xrefDividersAndRate : Obligations.XrefDividersAndRate := by
  unfold Obligations.XrefDividersAndRate
  intro s
  have reached {src : BusSrc} (f : Dev → Dev) (h : Reaches src s) : softFrom src f s.quiet = f s.quiet :=
    softFrom_reached (d := s.quiet) h
  have hbad : s.quiet.rd GLB_BADWR.COUNT = s.dev.rd GLB_BADWR.COUNT := rfl
  have hnumA : s.quiet.rd CLK_MCLK_A_NUM.NUM = s.dev.rd CLK_MCLK_A_NUM.NUM := rfl
  have hnumB : s.quiet.rd CLK_MCLK_B_NUM.NUM = s.dev.rd CLK_MCLK_B_NUM.NUM := rfl
  refine ⟨fun hpll => ?_, fun hheld hfirst => ?_, fun hheld => ?_, fun hrelock => ?_, fun src den hr hlt hden => ?_,
    fun src den hr hlt hden => ?_, fun src den hr hden => ?_, fun src v hr hsrc hlo hhi hstate => ?_,
    fun src v hr hsrc hout => ?_⟩
  · exact does_run (f := xrefLoss) (fun _ => rfl) (xrefLoss_wrote (d := s.quiet) hpll)
  · exact does_run (f := heldBound) (fun _ => rfl) (heldBound_wrote (d := s.quiet) hheld hfirst)
  · exact does_run (f := xrefReturned) (fun _ => rfl) (xrefReturned_wrote (d := s.quiet) hheld)
  · exact does_run (f := xrefBack) (fun _ => rfl) (xrefBack_wrote (d := s.quiet) hrelock)
  · refine does_run (f := softFrom src (mclkDen src false den.toNat)) (fun _ => rfl) ?_
    rw [← hnumA] at hden ⊢
    rw [reached _ hr]
    exact mclkDen_a_wrote (d := s.quiet) hlt hden
  · refine does_run (f := softFrom src (mclkDen src true den.toNat)) (fun _ => rfl) ?_
    rw [← hnumB] at hden ⊢
    rw [reached _ hr]
    exact mclkDen_b_wrote (d := s.quiet) hlt hden
  · refine does_run (f := softFrom src (mclkDen src false den.toNat)) (fun _ => rfl) ?_
    rw [reached _ hr, mclkDen_refused (d := s.quiet) hden, ← hbad]
    exact ⟨badWr_wrote src _ s.quiet (by decide), badWr_hearth src _ s.quiet⟩
  · refine does_run (f := softFrom src (rateWrite src v)) (fun _ => rfl) ?_
    obtain ⟨hwrote, hhearth⟩ := rateWrite_wrote (d := s.quiet) (src := src) hsrc hlo hhi hstate
    rw [reached _ hr]
    generalize rateWrite src v s.quiet = x at hwrote hhearth ⊢
    rw [hhearth]
    exact ⟨hwrote, rfl, rfl, rfl, rfl, rfl⟩
  · refine does_run (f := softFrom src (rateWrite src v)) (fun _ => rfl) ?_
    rw [reached _ hr, rateWrite_refused (d := s.quiet) hsrc hout, ← hbad]
    exact ⟨badWr_wrote src _ s.quiet (by decide), badWr_hearth src _ s.quiet⟩

end Sys2Proof.Machine
end

section
/-!
PROOFS. Adjustments and loads of the Hearth (R43 to R45).
-/

namespace Sys2Proof.Machine

section
variable {d : Dev}

/-! ### GO -/

theorem adjGo_accepted {src : BusSrc} {slew : Bool} {ppm : Nat} (hsrc : d.src < 2) (hlo : 1 ≤ ppm) (hhi : ppm ≤ 500)
    (hgo : d.on HRT_ADJ_CTRL.GO = false) (hstate : d.rd HRT_STATUS.STATE ≠ 3) :
    Wrote d (adjGo src slew ppm d) [(HRT_ADJ_CTRL.MODE, b2n slew), (HRT_ADJ_CTRL.SLEW_PPM, ppm), (HRT_ADJ_CTRL.GO, 1),
      (HRT_STATUS.ADJ_PENDING, 1)] ∧
    (adjGo src slew ppm d).hearth = { d.hearth with adj := .sw, adjArmed := false, wdogFr := 0 } := by
  have hset : Wrote d ((d.wrB HRT_ADJ_CTRL.MODE slew).wr HRT_ADJ_CTRL.SLEW_PPM ppm)
      [(HRT_ADJ_CTRL.MODE, b2n slew), (HRT_ADJ_CTRL.SLEW_PPM, ppm)] :=
    ((Wrote.refl d).wrB (by decide) Nat.one_pos).wr (show fits HRT_ADJ_CTRL.SLEW_PPM [(HRT_ADJ_CTRL.MODE, 0)] = true by decide)
      (show ppm < 512 by omega)
  have hall := (hset.wrB (f := HRT_ADJ_CTRL.GO) (b := true)
    (show fits HRT_ADJ_CTRL.GO [(HRT_ADJ_CTRL.MODE, 0), (HRT_ADJ_CTRL.SLEW_PPM, 0)] = true by decide) Nat.one_pos).wrB
    (f := HRT_STATUS.ADJ_PENDING) (b := true)
    (show fits HRT_STATUS.ADJ_PENDING [(HRT_ADJ_CTRL.MODE, 0), (HRT_ADJ_CTRL.SLEW_PPM, 0), (HRT_ADJ_CTRL.GO, 0)] = true by decide)
    Nat.one_pos
  have hstay := hall.rd (show fits HRT_STATUS.STATE [(HRT_ADJ_CTRL.MODE, 0), (HRT_ADJ_CTRL.SLEW_PPM, 0), (HRT_ADJ_CTRL.GO, 0),
    (HRT_STATUS.ADJ_PENDING, 0)] = true by decide)
  have hsw : ((d.wrB HRT_ADJ_CTRL.MODE slew).wr HRT_ADJ_CTRL.SLEW_PPM ppm).on HRT_ADJ_CTRL.GO = false := by
    rwa [hset.on (show fits HRT_ADJ_CTRL.GO [(HRT_ADJ_CTRL.MODE, 0), (HRT_ADJ_CTRL.SLEW_PPM, 0)] = true by decide)]
  have hcode : adjGo src slew ppm d = hostServo (((((d.wrB HRT_ADJ_CTRL.MODE slew).wr HRT_ADJ_CTRL.SLEW_PPM ppm).wrB
      HRT_ADJ_CTRL.GO true).wrB HRT_STATUS.ADJ_PENDING true).hearthMod fun h => { h with adj := .sw, adjArmed := false }) := by
    have hno : decide (2 ≤ d.src) = false := decide_eq_false (by omega)
    have hfit : ¬(ppm < 1 ∨ 500 < ppm) := by omega
    simp only [adjGo, hno, if_neg hfit, Dev.evIf, Bool.false_eq_true, if_false, hsw]
  have hservo := hostServo_calm (d := (((((d.wrB HRT_ADJ_CTRL.MODE slew).wr HRT_ADJ_CTRL.SLEW_PPM ppm).wrB
      HRT_ADJ_CTRL.GO true).wrB HRT_STATUS.ADJ_PENDING true).hearthMod fun h => { h with adj := .sw, adjArmed := false }))
      (by rwa [hearthMod_rd, hstay])
  rw [hcode, hservo, hearthMod_hearth, hearthMod_hearth, wrB_hearth, wrB_hearth, wr_hearth, wrB_hearth]
  exact ⟨hall.hearthMod.hearthMod, rfl⟩

/-! ### What the publication of the wrap count leaves -/

theorem evIf_hearth (c : Bool) (f : Field) : (d.evIf c f).hearth = d.hearth := by cases c <;> rfl

theorem hrtPublish_hearth (k : Nat) (d : Dev) : (hrtPublish k d).hearth = d.hearth := by
  unfold hrtPublish
  dsimp only
  split
  · rfl
  · rw [evIf_hearth, wr_hearth]

theorem hrtPublish_stands (k : Nat) (d : Dev) : Stands (Beside [HRT_ERA.ERA, HRT_EVENT.ERA_WRAP]) d (hrtPublish k d) :=
  Stands.ite (.refl _ _) (((Stands.refl _ d).wr (.listed (by simp))).evIf (.listed (by simp)))

/-! ### A jump -/

theorem adjDone_wrote : Wrote d (adjDone d) [(HRT_ADJ_CTRL.GO, 0), (HRT_STATUS.ADJ_PENDING, 0)] :=
  (((Wrote.refl d).wrB (by decide) Nat.one_pos).wrB (by decide) Nat.one_pos).hearthMod

theorem adjDone_hearth : (adjDone d).hearth = { d.hearth with adj := .none, adjPpm := none, adjArmed := false } := by
  rw [adjDone, hearthMod_hearth, wrB_hearth, wrB_hearth]

theorem slewStop_hearth : (slewStop d).hearth = { d.hearth with slewInc := 0 } := by
  rw [slewStop, hearthMod_hearth, wrB_hearth]

/-- The pending adjustment and the running slew are gone. -/
theorem slewCancel_wrote : Wrote d (slewCancel (adjDone d))
    [(HRT_ADJ_CTRL.GO, 0), (HRT_STATUS.ADJ_PENDING, 0), (HRT_STATUS.SLEWING, 0)] :=
  (adjDone_wrote.wrB (f := HRT_STATUS.SLEWING) (b := false) (by decide) Nat.one_pos).hearthMod.hearthMod

theorem put_ext (h : HCopy) (x : Int) : ((h.put x).ext : Int) = x % 2 ^ 68 := by
  have hy : (uns 68 x : Int) = x % 2 ^ 68 := Int.toNat_of_nonneg (Int.emod_nonneg _ (by decide))
  rw [← hy]
  generalize hz : uns 68 x = y
  have hext : (h.put x).ext = y / 2 ^ 64 * 2 ^ 64 + y % 2 ^ 64 := by rw [HCopy.ext, HCopy.put, hz]
  rw [hext, Nat.div_add_mod']

/-- The time of a copy after a CLK does not depend on what a slew left. -/
theorem clk_ext_left (h : HCopy) (x : Int) : (HCopy.clk 0 { h with left := x }).ext = (h.clk 0).ext := by
  simp only [HCopy.clk, HCopy.run, HCopy.slewPart, if_pos, HCopy.ext, HCopy.put, HCopy.perClk]

theorem slewCancel_hearth : (slewCancel (adjDone d)).hearth.a = d.hearth.a ∨
    (slewCancel (adjDone d)).hearth.a = { d.hearth.a with left := 0 } := by
  unfold slewCancel
  rw [hearthMod_hearth, slewStop_hearth, adjDone_hearth]
  cases (adjDone d).on HRT_STATUS.SLEWING
  · exact .inr rfl
  · exact .inl rfl

theorem slewCancel_inc : (slewCancel (adjDone d)).hearth.slewInc = 0 := by
  unfold slewCancel
  rw [hearthMod_hearth, slewStop_hearth]
  rfl

/-- The device of a jump before the wrap count is published. -/
def jumpMoved (off : Int) (d : Dev) : Dev :=
  stepBy off ((slewCancel (adjDone d)).hearthMod fun h => { h.all (HCopy.clk 0) with clk := h.clk + 1 })

theorem jumpMoved_a (off : Int) : (jumpMoved off d).hearth.a =
    ((slewCancel (adjDone d)).hearth.a.clk 0).put ((((slewCancel (adjDone d)).hearth.a.clk 0).ext : Int) + off) := by
  rw [jumpMoved, stepBy, hearthMod_hearth, hearthMod_hearth]
  rfl

theorem jumpMoved_inc (off : Int) : (jumpMoved off d).hearth.slewInc = 0 := by
  rw [jumpMoved, stepBy, hearthMod_hearth, hearthMod_hearth]
  exact slewCancel_inc (d := d)

theorem jumpMoved_wrote (off : Int) : Wrote d (jumpMoved off d)
    [(HRT_ADJ_CTRL.GO, 0), (HRT_STATUS.ADJ_PENDING, 0), (HRT_STATUS.SLEWING, 0)] := slewCancel_wrote.hearthMod.hearthMod

theorem jumpCore_eq (off : Int) : jumpCore off d = (hrtPublish d.hearth.a.era (jumpMoved off d)).ev HRT_EVENT.STEPPED := rfl

theorem jumpCore_hearth (off : Int) : (jumpCore off d).hearth = (jumpMoved off d).hearth := by
  rw [jumpCore_eq, ev_hearth, hrtPublish_hearth]

theorem nowExt_eq (d : Dev) : d.nowExt = d.hearth.a.ext := rfl

/-- A jump moves the voted time by its CLK and its offset, modulo 16 eras. -/
theorem jumpCore_nowExt (off : Int) :
    ((jumpCore off d).nowExt : Int) = (((d.hearth.a.clk 0).ext : Int) + off) % 2 ^ 68 := by
  rw [nowExt_eq, jumpCore_hearth, jumpMoved_a, put_ext]
  rcases slewCancel_hearth (d := d) with h | h
  · rw [h]
  · rw [h, clk_ext_left]

theorem jumpCore_stands (off : Int) : Stands (Beside [HRT_ERA.ERA, HRT_EVENT.ERA_WRAP, HRT_EVENT.STEPPED]) (jumpMoved off d)
    (jumpCore off d) := by
  rw [jumpCore_eq]
  exact ((hrtPublish_stands _ _).widen (by simp)).ev (.listed (by simp))

theorem jumpCore_shows (off : Int) : (jumpCore off d).rd HRT_ADJ_CTRL.GO = 0 ∧
    (jumpCore off d).rd HRT_STATUS.ADJ_PENDING = 0 ∧ (jumpCore off d).rd HRT_STATUS.SLEWING = 0 ∧
    (jumpCore off d).rd HRT_EVENT.STEPPED = 1 := by
  have hstands := jumpCore_stands (d := d) off
  have hwrote := jumpMoved_wrote (d := d) off
  exact ⟨(hstands.rd (by decide)).trans (hwrote.nth 0 rfl), (hstands.rd (by decide)).trans (hwrote.nth 1 rfl),
    (hstands.rd (by decide)).trans (hwrote.nth 2 rfl), rd_wr_same (hrtPublish _ _) HRT_EVENT.STEPPED 1 (by decide)⟩

theorem jumpApply_due {off : Int} (hval : d.adjValue = some (false, off)) (hadj : d.hearth.adjArmed = true)
    (hload : d.hearth.loadArmed = false) : jumpApply d =
      stepped d.frameExt ((((d.hearth.a.clk 0).ext : Int) + off) / frMt) (jumpCore off d) := by
  simp only [jumpApply, hval, hadj, hload, Bool.not_false, Bool.and_self, if_pos]

/-! ### A slew -/

theorem slewApply_due {off : Int} (hval : d.adjValue = some (true, off)) (hadj : d.hearth.adjArmed = true)
    (hload : d.hearth.loadArmed = false) : slewApply d = slewCore off d := by
  simp only [slewApply, hval, hadj, hload, Bool.not_false, Bool.and_self, if_pos]

theorem slewCore_wrote (off : Int) : Wrote d (slewCore off d)
    [(HRT_ADJ_CTRL.GO, 0), (HRT_STATUS.ADJ_PENDING, 0), (HRT_STATUS.SLEWING, 1)] :=
  (adjDone_wrote.wrB (f := HRT_STATUS.SLEWING) (b := true) (by decide) Nat.one_pos).hearthMod

theorem slewCore_hearth (off : Int) : (slewCore off d).hearth.a = { d.hearth.a with left := off * 2 ^ 32 } ∧
    (slewCore off d).hearth.slewInc.natAbs = d.hearth.adjPpm.getD (d.rd HRT_ADJ_CTRL.SLEW_PPM) * 68719 := by
  unfold slewCore
  rw [hearthMod_hearth, wrB_hearth, adjDone_hearth]
  refine ⟨rfl, ?_⟩
  generalize d.hearth.adjPpm.getD (d.rd HRT_ADJ_CTRL.SLEW_PPM) = ppm
  show Int.natAbs (if off < 0 then -((ppm : Int) * 68719) else (ppm : Int) * 68719) = ppm * 68719
  split <;> omega

theorem ceilDiv_covers {l i : Nat} (hi : 0 < i) : l ≤ ceilDiv l i * i := by
  have hcast : ((l : Int) + i - 1) / i = ((l + i - 1) / i : Nat) := by
    rw [Int.natCast_ediv, Int.natCast_sub (by omega)]
    rfl
  have hdiv := Nat.div_add_mod' (l + i - 1) i
  have hmod := Nat.mod_lt (l + i - 1) hi
  rw [ceilDiv, hcast, Int.toNat_natCast]
  omega

/-- Whole steps of an increment that come to as much as a remainder of the same sign are the remainder. -/
theorem steps_eq_left {n : Nat} {inc left : Int} (hinc : inc ≠ 0) (hsign : 0 ≤ inc * left)
    (h : n * inc.natAbs = left.natAbs) : n * inc = left := by
  have habs : (n : Int) * |inc| = |left| := by
    rw [Int.abs_eq_natAbs, Int.abs_eq_natAbs, ← h, Int.natCast_mul]
  rcases lt_or_gt_of_ne hinc with hneg | hpos
  · have hleft : left ≤ 0 := by nlinarith
    rw [abs_of_neg hneg, abs_of_nonpos hleft] at habs
    linarith
  · have hleft : 0 ≤ left := by nlinarith
    rwa [abs_of_pos hpos, abs_of_nonneg hleft] at habs

/-- The CLK of slewClk ends a slew towards its sign: nothing is left. -/
theorem run_slewClk_left {h : HCopy} {inc : Int} (hinc : inc ≠ 0) (hsign : 0 ≤ inc * h.left) :
    (h.run inc (h.slewClk inc)).left = 0 := by
  have hcovers := ceilDiv_covers (l := h.left.natAbs) (i := inc.natAbs) (Int.natAbs_pos.mpr hinc)
  have hclk : h.slewClk inc = ceilDiv h.left.natAbs inc.natAbs := if_neg hinc
  have hleft : (h.run inc (h.slewClk inc)).left = h.left - h.slewPart inc (h.slewClk inc) := by
    rw [HCopy.run, if_neg hinc]
  rw [hleft, hclk, HCopy.slewPart, if_neg hinc]
  split
  · next hle => rw [steps_eq_left hinc hsign (le_antisymm hle hcovers), sub_self]
  · exact sub_self _

theorem slewDone_due (hslew : d.on HRT_STATUS.SLEWING = true)
    (hdue : (d.hearth.a.run d.hearth.slewInc (d.hearth.a.slewClk d.hearth.slewInc)).t / frMt = d.frame) :
    slewDone d = slewOver (advance (d.hearth.a.slewClk d.hearth.slewInc) d) := by
  rw [slewDone, hslew, hdue, if_pos]
  rw [Bool.true_and, beq_self_eq_true]

theorem advance_hearth (n : Nat) : (advance n d).hearth =
    { d.hearth.all (HCopy.run d.hearth.slewInc n) with clk := d.hearth.clk + n } := by
  rw [advance, hrtPublish_hearth, hearthMod_hearth]

theorem advance_stands (n : Nat) : Stands (Beside [HRT_ERA.ERA, HRT_EVENT.ERA_WRAP]) d (advance n d) :=
  .trans (.parts (.refl _ d) rfl rfl) (hrtPublish_stands _ _)

theorem slewOver_over (hslew : d.on HRT_STATUS.SLEWING = true) (hleft : d.hearth.a.left = 0) :
    Wrote d (slewOver d) [(HRT_STATUS.SLEWING, 0), (HRT_EVENT.SLEW_DONE, 1)] ∧
    (slewOver d).hearth = { d.hearth with slewInc := 0 } := by
  rw [slewOver, hslew, hleft, if_pos (by rfl), ev_hearth, wrB_hearth]
  exact ⟨((((Wrote.refl d).hearthMod).wrB (by decide) Nat.one_pos).ev (by decide) Nat.one_pos), rfl⟩

/-- The end of a slew in the frame in progress. -/
theorem slewDone_ends (hslew : d.on HRT_STATUS.SLEWING = true) (hinc : d.hearth.slewInc ≠ 0)
    (hsign : 0 ≤ d.hearth.slewInc * d.hearth.a.left)
    (hdue : (d.hearth.a.run d.hearth.slewInc (d.hearth.a.slewClk d.hearth.slewInc)).t / frMt = d.frame) :
    (slewDone d).rd HRT_STATUS.SLEWING = 0 ∧ (slewDone d).rd HRT_EVENT.SLEW_DONE = 1 ∧ (slewDone d).hearth.slewInc = 0 ∧
    (slewDone d).hearth.a.left = 0 ∧ (slewDone d).frame = d.frame ∧ (slewDone d).sram = d.sram := by
  have hleft := run_slewClk_left hinc hsign
  rw [slewDone_due hslew hdue]
  generalize d.hearth.a.slewClk d.hearth.slewInc = n at hdue hleft ⊢
  have hstands := advance_stands (d := d) n
  have hhearth := advance_hearth (d := d) n
  generalize advance n d = x at hstands hhearth ⊢
  have ha : x.hearth.a = d.hearth.a.run d.hearth.slewInc n := congrArg Hearth.a hhearth
  obtain ⟨hwrote, hover⟩ := slewOver_over (d := x) ((hstands.on (by decide)).trans hslew) (by rw [ha, hleft])
  have hframe : (slewOver x).frame = d.frame := by
    rw [Dev.frame, Dev.now, hover, ha, hdue]
  refine ⟨hwrote.nth 0 rfl, hwrote.nth 1 rfl, by rw [hover], ?_, hframe, hwrote.1.trans hstands.2⟩
  rw [hover, ha, hleft]

/-! ### A load -/

theorem loadReq_wrote (hfree : d.on HRT_STATUS.LOAD_PENDING = false) :
    Wrote d (loadReq d) [(HRT_CTRL.LOAD, 1), (HRT_STATUS.LOAD_PENDING, 1)] ∧
    (loadReq d).hearth = { d.hearth with loadArmed := false } := by
  rw [loadReq, hfree, if_neg Bool.false_ne_true, hearthMod_hearth, wrB_hearth, wrB_hearth]
  exact ⟨(((Wrote.refl d).wrB (by decide) Nat.one_pos).wrB (by decide) Nat.one_pos).hearthMod, rfl⟩

/-- The Hearth after a load of software's time x. -/
def Hearth.loaded (x : Int) (h : Hearth) : Hearth :=
  { h.all (fun c => { c.put x with frac := 0 }) with
    slewInc := 0, clk := h.clk + 1, loadArmed := false, loadHw := none, loadedSince := true }

theorem loadCore_soft (hadj : d.hearth.adjArmed = false) (hsoft : d.hearth.loadHw = none) :
    Wrote d (loadCore d) [(HRT_CTRL.LOAD, 0), (HRT_STATUS.LOAD_PENDING, 0), (HRT_STATUS.SLEWING, 0), (HRT_EVENT.STEPPED, 1)] ∧
    (loadCore d).hearth = d.hearth.loaded d.loadTime := by
  unfold loadCore
  generalize d.loadTime = x
  simp only [hadj, hsoft, Bool.false_eq_true, if_false, Option.isSome_none]
  have hclear : Wrote d (slewStop ((d.wrB HRT_CTRL.LOAD false).wrB HRT_STATUS.LOAD_PENDING false))
      [(HRT_CTRL.LOAD, 0), (HRT_STATUS.LOAD_PENDING, 0), (HRT_STATUS.SLEWING, 0)] :=
    ((((Wrote.refl d).wrB (by decide) Nat.one_pos).wrB (by decide) Nat.one_pos).wrB (by decide) Nat.one_pos).hearthMod
  have hhearth : (slewStop ((d.wrB HRT_CTRL.LOAD false).wrB HRT_STATUS.LOAD_PENDING false)).hearth =
      { d.hearth with slewInc := 0 } := by rw [slewStop_hearth, wrB_hearth, wrB_hearth]
  generalize slewStop ((d.wrB HRT_CTRL.LOAD false).wrB HRT_STATUS.LOAD_PENDING false) = y at hclear hhearth ⊢
  rw [ev_hearth, hearthMod_hearth, hhearth]
  exact ⟨hclear.hearthMod.ev (by decide) Nat.one_pos, rfl⟩

theorem loadCore_peg : (loadCore d).peg = d.peg := by
  unfold loadCore
  dsimp only
  split <;> split <;> rfl

/-- The time of a load falls into its 64 bits and the era. -/
theorem put_load {h : HCopy} {era hi lo : Nat} (hhi : hi < 2 ^ 32) (hlo : lo < 2 ^ 32) :
    (h.put ((era * 2 ^ 64 + hi * 2 ^ 32 + lo : Nat) : Int)).t = hi * 2 ^ 32 + lo ∧
    (h.put ((era * 2 ^ 64 + hi * 2 ^ 32 + lo : Nat) : Int)).era = era % 16 := by
  have hlow : hi * 2 ^ 32 + lo < 2 ^ 64 := by omega
  have hy : uns 68 ((era * 2 ^ 64 + hi * 2 ^ 32 + lo : Nat) : Int) = era % 16 * 2 ^ 64 + (hi * 2 ^ 32 + lo) := by
    rw [uns]
    omega
  generalize ((era * 2 ^ 64 + hi * 2 ^ 32 + lo : Nat) : Int) = x at hy
  rw [HCopy.put, hy]
  constructor
  · show (era % 16 * 2 ^ 64 + (hi * 2 ^ 32 + lo)) % 2 ^ 64 = _
    omega
  · show (era % 16 * 2 ^ 64 + (hi * 2 ^ 32 + lo)) / 2 ^ 64 = _
    omega

theorem loadTime_soft (hsoft : d.hearth.loadHw = none) : d.loadTime =
    (d.rd HRT_ERA.ERA * 2 ^ 64 + d.rd HRT_LOAD_HI.LOAD * 2 ^ 32 + d.rd HRT_LOAD_LO.LOAD : Nat) := by
  rw [Dev.loadTime, hsoft]

end

/-- Settles O2, one clause at a time. -/
theorem hearthAdjustAndLoad : Obligations.HearthAdjustAndLoad := by
  unfold Obligations.HearthAdjustAndLoad
  intro s
  refine ⟨fun src slew ppm hr hsrc hlo hhi hgo hstate => ?_, fun off hval hadj hload => ?_, fun off hval hadj hload => ?_,
    fun hslew hinc hsign hdue => ?_, fun hboot hpd hfree => ?_, fun hload hadj hsoft hpeg => ?_⟩
  · refine does_run (f := softFrom src (adjGo src slew ppm)) (fun _ => rfl) ?_
    rw [softFrom_reached (d := s.quiet) hr]
    obtain ⟨hwrote, hhearth⟩ := adjGo_accepted (d := s.quiet) (src := src) (slew := slew) hsrc hlo hhi hgo hstate
    have hb : b2n slew = if slew then 1 else 0 := rfl
    rw [hhearth, ← hb]
    exact ⟨hwrote, rfl, rfl, rfl⟩
  · refine ends_run (f := jumpApply) (fun _ => rfl) ⟨jumpCore off s.quiet, ?_, ?_⟩
    · exact jumpApply_due (d := s.quiet) hval hadj hload
    · obtain ⟨hgo, hpend, hslew, hstep⟩ := jumpCore_shows (d := s.quiet) off
      refine ⟨hgo, hpend, hslew, hstep, ?_, jumpCore_nowExt (d := s.quiet) off⟩
      rw [jumpCore_hearth, jumpMoved_inc]
  · refine ends_run (f := slewApply) (fun _ => rfl) ?_
    rw [slewApply_due (d := s.quiet) hval hadj hload]
    have hwrote := slewCore_wrote (d := s.quiet) off
    obtain ⟨ha, hinc⟩ := slewCore_hearth (d := s.quiet) off
    refine ⟨hwrote.nth 0 rfl, hwrote.nth 1 rfl, hwrote.nth 2 rfl, ?_, ?_, hinc⟩
    · rw [ha]
    · rw [ha]
  · exact ends_run (f := slewDone) (fun _ => rfl) (slewDone_ends (d := s.quiet) hslew hinc hsign hdue)
  · refine does_soft (k := 0) (f := loadReq) (fun _ => rfl) ⟨hboot, hpd⟩ ?_
    obtain ⟨hwrote, hhearth⟩ := loadReq_wrote (d := s.quiet) hfree
    rw [hhearth]
    exact ⟨hwrote, rfl, rfl⟩
  · refine ends_run (f := loadApply) (fun _ => rfl) ⟨loadCore s.quiet, ?_, ?_⟩
    · have hstay : (loadCore s.quiet).peg.loading = false := by rw [loadCore_peg, ← hpeg]
      have hrun : loadApply s.quiet = stepped s.quiet.frameExt (s.quiet.loadTime / frMt) (pegLoaded (loadCore s.quiet)) :=
        if_pos hload
      rw [hrun, pegLoaded, hstay]
      rfl
    · obtain ⟨hwrote, hhearth⟩ := loadCore_soft (d := s.quiet) hadj hsoft
      obtain ⟨ht, hera⟩ := put_load (h := s.quiet.hearth.a) (era := s.quiet.rd HRT_ERA.ERA)
        (rd_lt s.quiet HRT_LOAD_HI.LOAD) (rd_lt s.quiet HRT_LOAD_LO.LOAD)
      rw [← loadTime_soft (d := s.quiet) hsoft] at ht hera
      rw [Dev.now, hhearth]
      exact ⟨hwrote, ht, hera, rfl, rfl, rfl⟩

end Sys2Proof.Machine
end

section
/-!
PROOFS. Entries of the classifier and streams of replication: staging and commit (R181, R182, R208 to R212).
-/

namespace Sys2Proof.Machine

section
variable {d e : Dev} {f : Field} {ws : List (Field × Nat)}

/-! ### Words as fields -/

/-- A whole word is the field of its 32 bits. -/
theorem setWord_eq_wr (d : Dev) (o v : Nat) : d.setWord o v = d.wr ⟨o, 0, 32⟩ v := by
  have hset : setBits (d.word o) 0 32 v = v % 2 ^ 32 := by
    have hlt := word_lt d o
    simp only [setBits]
    omega
  have hmod : BitVec.ofNat 32 (v % 2 ^ 32) = BitVec.ofNat 32 v := by
    apply BitVec.eq_of_toNat_eq
    simp
  rw [Dev.wr, hset, Dev.setWord, Dev.setWord, hmod]

theorem Stands.setWord {P : Field → Prop} {o v : Nat} (h : Stands P d e) (hf : Free P ⟨o, 0, 32⟩) :
    Stands P d (e.setWord o v) := by
  rw [setWord_eq_wr]
  exact h.wr hf

theorem Wrote.setWord {o v : Nat} (h : Wrote d e ws) (hf : fits ⟨o, 0, 32⟩ ws = true) (hv : v < 2 ^ 32) :
    Wrote d (e.setWord o v) (ws ++ [(⟨o, 0, 32⟩, v)]) := by
  rw [setWord_eq_wr]
  exact h.wr hf hv

/-- A field that stands may be listed with its value. -/
theorem Wrote.idle (h : Wrote d e ws) (hf : fits f ws = true) : Wrote d e (ws ++ [(f, d.rd f)]) := by
  obtain ⟨hram, hset, hrest⟩ := h
  refine ⟨hram, fun x hx => ?_, fun g hg => hrest g fun x hx => hg x (List.mem_append_left _ hx)⟩
  rcases List.mem_append.mp hx with hx | hx
  · exact hset x hx
  · rw [List.mem_singleton.mp hx]
    exact hrest f fun y hy => (fits_apart hf y hy).2

/-! ### Words set one after another -/

/-- The words off 0 to off (n - 1) set to the values of val. -/
def setWords (off val : Nat → Nat) (n : Nat) (d : Dev) : Dev := (List.range n).foldl (fun d k => d.setWord (off k) (val k)) d

variable {off val : Nat → Nat} {n : Nat}

theorem setWords_succ : setWords off val (n + 1) d = (setWords off val n d).setWord (off n) (val n) := by
  simp [setWords, List.range_succ, List.foldl_append]

theorem setWords_word (hinj : ∀ a b, off a = off b → a = b) (j : Nat) :
    (setWords off val n d).word (off j) = if j < n then val j % 2 ^ 32 else d.word (off j) := by
  induction n with
  | zero => rfl
  | succ n ih =>
    rw [setWords_succ, word_setWord, ih]
    by_cases hj : j = n
    · rw [if_pos (by rw [hj]), if_pos (by omega), hj]
    · rw [if_neg fun h => hj (hinj _ _ h)]
      exact if_congr (by omega) rfl rfl

theorem setWords_apart {o : Nat} (h : ∀ k < n, o ≠ off k) : (setWords off val n d).word o = d.word o := by
  induction n with
  | zero => rfl
  | succ n ih => rw [setWords_succ, word_setWord, if_neg (h n (by omega)), ih fun k hk => h k (by omega)]

theorem setWords_stands {P : Field → Prop} (h : ∀ k < n, Free P ⟨off k, 0, 32⟩) : Stands P d (setWords off val n d) :=
  Stands.foldl (List.range n) (.refl P d) fun k hk _ hx => hx.setWord (h k (by simpa using hk))

theorem setWords_beyond : Beyond d (setWords off val n d) :=
  Beyond.foldl (List.range n) (.refl d) fun _ _ _ hx => hx.setWord

theorem Beyond.tab (h : Beyond d e) : e.tab = d.tab := h.part Dev.tab fun _ _ _ => rfl

/-! ### Staging -/

/-- A staged entry that is dropped is counted. -/
theorem lost_wrote (c v : Field) (lost : Bool) (hc : fits c [] = true) (hv : fits v [(c, 0)] = true) (hw : 0 < v.w) :
    Wrote d (if lost then (d.sat c).ev v else d)
      [(c, if lost then min (d.rd c + 1) (2 ^ c.w - 1) else d.rd c), (v, if lost then 1 else d.rd v)] := by
  cases lost
  · exact ((Wrote.refl d).idle hc).idle hv
  · exact ((Wrote.refl d).sat hc).ev hv hw

theorem lost_beyond (c v : Field) (lost : Bool) : Beyond d (if lost then (d.sat c).ev v else d) :=
  Beyond.ite (Beyond.refl d).sat.ev (.refl d)

/-- The fields that show the staging buffer of a store. -/
def stageAt (mk : Bool) : Field := if mk then CLS_STATUS.STAGE_MK else CLS_STATUS.STAGE_EX
def stageDirty (mk : Bool) : Field := if mk then CLS_STATUS.STAGE_MK_DIRTY else CLS_STATUS.STAGE_EX_DIRTY

theorem stage_fits : ∀ mk : Bool, fits (stageAt mk) [] = true ∧ fits (stageDirty mk) [(stageAt mk, 0)] = true ∧
    0 < (stageDirty mk).w ∧ fits CLS_STAGE_LOST.COUNT [(stageAt mk, 0), (stageDirty mk, 0)] = true ∧
    fits CLS_EVENT.STAGE_LOST [(stageAt mk, 0), (stageDirty mk, 0), (CLS_STAGE_LOST.COUNT, 0)] = true := by decide

theorem setStage_wrote {mk : Bool} {g : Stage} (h : g.idx < 2 ^ (stageAt mk).w) :
    Wrote d (setStage mk g d) [(stageAt mk, g.idx), (stageDirty mk, b2n g.dirty)] := by
  obtain ⟨hat, hdirty, hw, -⟩ := stage_fits mk
  cases mk
  · exact (((Wrote.refl d).parts (x := d.tabMod fun t => { t with ex := g }) rfl rfl).wr hat h).wrB hdirty hw
  · exact (((Wrote.refl d).parts (x := d.tabMod fun t => { t with msk := g }) rfl rfl).wr hat h).wrB hdirty hw

theorem setStage_stage (mk : Bool) (g : Stage) : (setStage mk g d).stage mk = g ∧ (setStage mk g d).stage (!mk) = d.stage (!mk) := by
  cases mk <;> simp [setStage, Dev.stage]

theorem entWords_congr {mk : Bool} {i : Nat} (h : ∀ k, e.word (entOff mk i k) = d.word (entOff mk i k)) :
    e.entWords mk i = d.entWords mk i := List.map_congr_left fun k _ => h k

theorem entOff_ge (mk : Bool) (i k : Nat) : 0x210000 ≤ entOff mk i k := by
  unfold entOff
  split <;> omega

theorem Beyond.stage (h : Beyond d e) (mk : Bool) : e.stage mk = d.stage mk := by rw [Dev.stage, Dev.stage, h.tab]

/-- The words that a write of entry i of a store finds. -/
def Dev.clsWords (d : Dev) (mk : Bool) (i : Nat) : List Nat :=
  if (d.stage mk).held && (d.stage mk).idx == i then (d.stage mk).w else d.entWords mk i

theorem lost_word {c v : Field} {lost : Bool} {o : Nat} (hc : o ≠ c.off) (hv : o ≠ v.off) :
    (if lost then (d.sat c).ev v else d).word o = d.word o := by
  cases lost
  · rfl
  · exact (word_wr_ne _ v 1 o hv).trans (word_wr_ne d c _ o hc)

theorem lost_entWords (mk : Bool) (i : Nat) (lost : Bool) :
    (if lost then (d.sat CLS_STAGE_LOST.COUNT).ev CLS_EVENT.STAGE_LOST else d).entWords mk i = d.entWords mk i :=
  entWords_congr fun k => lost_word
    (fun h => absurd (entOff_ge mk i k) (by rw [h]; decide)) (fun h => absurd (entOff_ge mk i k) (by rw [h]; decide))

theorem loses_mine {g : Stage} {i : Nat} (h : Stages g i = true) : Loses g i = false := by
  simp only [Bool.and_eq_true, beq_iff_eq] at h
  simp [h]

theorem loses_other {g : Stage} {i : Nat} (h : Stages g i = false) : Loses g i = (g.held && g.dirty) := by
  cases hh : g.held <;> simp_all [Loses]

theorem staged_mine {g : Stage} {i : Nat} {v : List Nat} (h : Stages g i = true) :
    { g with dirty := true, w := v } = { idx := i, held := true, dirty := true, w := v : Stage } := by
  simp only [Bool.and_eq_true, beq_iff_eq] at h
  obtain ⟨hheld, hidx⟩ := h
  rw [hheld, hidx]

/-- A write to an entry stages it, with what it drops counted. -/
theorem clsEntryWrite_eq (mk : Bool) (i k x : Nat) : clsEntryWrite mk i k x d =
    setStage mk { idx := i, held := true, dirty := true, w := (d.clsWords mk i).set k x }
      (if Loses (d.stage mk) i then (d.sat CLS_STAGE_LOST.COUNT).ev CLS_EVENT.STAGE_LOST else d) := by
  cases hmine : Stages (d.stage mk) i
  · have hno : ((d.stage mk).held && (d.stage mk).idx == i) = false := hmine
    rw [loses_other hmine]
    simp only [clsEntryWrite, Dev.clsWords, hno, Bool.false_eq_true, if_false, lost_entWords]
  · have hyes : ((d.stage mk).held && (d.stage mk).idx == i) = true := hmine
    rw [loses_mine hmine, ← staged_mine hmine]
    simp only [clsEntryWrite, Dev.clsWords, hyes, if_true, Bool.false_eq_true, if_false]

theorem clsEntryWrite_shows {mk : Bool} {i k x : Nat} (hi : i < 2 ^ (stageAt mk).w) :
    Wrote d (clsEntryWrite mk i k x d) [(stageAt mk, i), (stageDirty mk, 1),
      (CLS_STAGE_LOST.COUNT, if Loses (d.stage mk) i then min (d.rd CLS_STAGE_LOST.COUNT + 1) (2 ^ 32 - 1) else
        d.rd CLS_STAGE_LOST.COUNT),
      (CLS_EVENT.STAGE_LOST, if Loses (d.stage mk) i then 1 else d.rd CLS_EVENT.STAGE_LOST)] ∧
    (clsEntryWrite mk i k x d).stage mk = { idx := i, held := true, dirty := true, w := (d.clsWords mk i).set k x } ∧
    (clsEntryWrite mk i k x d).stage (!mk) = d.stage (!mk) := by
  obtain ⟨-, -, -, hcount, hev⟩ := stage_fits mk
  have hlost := lost_wrote (d := d) CLS_STAGE_LOST.COUNT CLS_EVENT.STAGE_LOST (Loses (d.stage mk) i) (by decide) (by decide)
    Nat.one_pos
  have hbeyond := lost_beyond (d := d) CLS_STAGE_LOST.COUNT CLS_EVENT.STAGE_LOST (Loses (d.stage mk) i)
  rw [clsEntryWrite_eq]
  generalize hg : ({ idx := i, held := true, dirty := true, w := (d.clsWords mk i).set k x } : Stage) = g
  generalize (if Loses (d.stage mk) i then (d.sat CLS_STAGE_LOST.COUNT).ev CLS_EVENT.STAGE_LOST else d) = y at hlost hbeyond ⊢
  have hstage := setStage_wrote (d := y) (mk := mk) (g := g) (by rwa [← hg])
  obtain ⟨hto, hnot⟩ := setStage_stage (d := y) mk g
  rw [hto, hnot, hbeyond.stage]
  have hlist : [(stageAt mk, g.idx), (stageDirty mk, b2n g.dirty)] = [(stageAt mk, i), (stageDirty mk, 1)] := by
    rw [← hg]
    rfl
  rw [hlist] at hstage
  exact ⟨(hlost.append_apart hstage ((by decide : ∀ mk : Bool,
    ([(CLS_STAGE_LOST.COUNT, 0), (CLS_EVENT.STAGE_LOST, 0)].all fun a =>
      [(stageAt mk, 0), (stageDirty mk, 0)].all fun b => Field.apart b.1 a.1) = true) mk)).reorder
    (by simp; tauto) (by simp; tauto), rfl, rfl⟩

/-! ### A commit of an entry -/

theorem entOff_inj (mk : Bool) (i : Nat) (a b : Nat) (h : entOff mk i a = entOff mk i b) : a = b := by
  unfold entOff at h
  split at h <;> omega

/-- The entry's words take w, its CTRL word c. -/
def putEntry (mk : Bool) (i c : Nat) (w : List Nat) (d : Dev) : Dev :=
  (setWords (entOff mk i) (fun k => w.getD k 0) (ctrlIdx mk) d).setWord (entOff mk i (ctrlIdx mk)) c

theorem clsCommit_taken {ok : Nat → Bool} {mk : Bool} {i c : Nat} (h : entryOk ok mk (d.clsWords mk i) c = true) :
    clsCommit ok mk i c d = if Stages (d.stage mk) i then setStage mk { d.stage mk with dirty := false }
        (putEntry mk i (c % 2 + (bits (d.entCtrl mk i) 8 8 + 1) % 256 * 256) (d.clsWords mk i) d)
      else putEntry mk i (c % 2 + (bits (d.entCtrl mk i) 8 8 + 1) % 256 * 256) (d.clsWords mk i) d := if_pos h

theorem clsCommit_refused {ok : Nat → Bool} {mk : Bool} {i c : Nat} (h : entryOk ok mk (d.clsWords mk i) c = false) :
    clsCommit ok mk i c d = if Stages (d.stage mk) i then
        setStage mk { d.stage mk with dirty := false, w := ((d.sat CLS_ENTRY_REJ.COUNT).ev CLS_EVENT.ENTRY_REJ).entWords mk i }
          ((d.sat CLS_ENTRY_REJ.COUNT).ev CLS_EVENT.ENTRY_REJ)
      else (d.sat CLS_ENTRY_REJ.COUNT).ev CLS_EVENT.ENTRY_REJ := if_neg (Bool.eq_false_iff.mp h)

theorem putEntry_words {mk : Bool} {i c : Nat} {w : List Nat} (hlen : w.length = ctrlIdx mk) :
    (putEntry mk i c w d).entWords mk i = w.map (· % 2 ^ 32) := by
  refine List.ext_getElem (by simp [Dev.entWords, hlen]) fun j hj hw => ?_
  have hjw : j < w.length := by simpa using hw
  have hne : entOff mk i j ≠ entOff mk i (ctrlIdx mk) := fun h => absurd (entOff_inj mk i _ _ h) (by omega)
  have hword : (putEntry mk i c w d).word (entOff mk i j) = w.getD j 0 % 2 ^ 32 := by
    rw [putEntry, word_setWord, if_neg hne, setWords_word (entOff_inj mk i), if_pos (by omega)]
  simp only [Dev.entWords, List.getElem_map, List.getElem_range, hword]
  rw [List.getD_eq_getElem _ _ hjw]

theorem putEntry_ctrl {mk : Bool} {i c : Nat} {w : List Nat} (hc : c < 2 ^ 32) : (putEntry mk i c w d).entCtrl mk i = c := by
  rw [Dev.entCtrl, putEntry, word_setWord, if_pos rfl, Nat.mod_eq_of_lt hc]

theorem putEntry_beyond {mk : Bool} {i c : Nat} {w : List Nat} : Beyond d (putEntry mk i c w d) := setWords_beyond.setWord

theorem putEntry_stands {P : Field → Prop} {mk : Bool} {i c : Nat} {w : List Nat}
    (h : ∀ k ≤ ctrlIdx mk, Free P ⟨entOff mk i k, 0, 32⟩) : Stands P d (putEntry mk i c w d) :=
  (setWords_stands fun k hk => h k hk.le).setWord (h _ le_rfl)

theorem entOff_block {mk : Bool} {i k : Nat} (hi : mk = true → i < 256) (hlt : i < 4096) (hk : k ≤ ctrlIdx mk) :
    entOff mk i k / 0x4000 ∈ [12, 132, 133, 134, 135, 136, 137, 138, 139, 140] := by
  have hrange : 132 ≤ entOff mk i k / 0x4000 ∧ entOff mk i k / 0x4000 ≤ 140 := by
    cases mk
    · have hoff : entOff false i k = 0x210000 + 32 * i + 4 * k := rfl
      have h7 : k ≤ 7 := hk
      omega
    · have hoff : entOff true i k = 0x230000 + 64 * i + 4 * k := rfl
      have h15 : k ≤ 15 := hk
      have h256 := hi rfl
      omega
  simp only [List.mem_cons, List.not_mem_nil, or_false]
  omega

/-- What the fields of the classifier's own registers are, for a commit. -/
def clsFields : List Field := [CLS_ENTRY_REJ.COUNT, CLS_EVENT.ENTRY_REJ, CLS_STATUS.STAGE_EX, CLS_STATUS.STAGE_EX_DIRTY,
  CLS_STATUS.STAGE_MK, CLS_STATUS.STAGE_MK_DIRTY]

theorem setStage_stands {P : Field → Prop} {mk : Bool} {g : Stage} (hat : Free P (stageAt mk)) (hdirty : Free P (stageDirty mk)) :
    Stands P d (setStage mk g d) := by
  cases mk
  · exact ((Stands.refl P d).parts (x := d.tabMod fun t => { t with ex := g }) rfl rfl).wr hat |>.wrB hdirty
  · exact ((Stands.refl P d).parts (x := d.tabMod fun t => { t with msk := g }) rfl rfl).wr hat |>.wrB hdirty

theorem setStage_word {mk : Bool} {g : Stage} {o : Nat} (h : o ≠ CLS_STATUS.addr) : (setStage mk g d).word o = d.word o := by
  cases mk
  · exact (word_wr_ne _ _ _ o h).trans (word_wr_ne _ _ _ o h)
  · exact (word_wr_ne _ _ _ o h).trans (word_wr_ne _ _ _ o h)

theorem entOff_ne_status (mk : Bool) (i k : Nat) : entOff mk i k ≠ CLS_STATUS.addr := fun h =>
  absurd (entOff_ge mk i k) (by rw [h]; decide)

theorem setStage_entry {mk m : Bool} {g : Stage} {i : Nat} : (setStage mk g d).entWords m i = d.entWords m i ∧
    (setStage mk g d).entCtrl m i = d.entCtrl m i :=
  ⟨entWords_congr fun k => setStage_word (entOff_ne_status m i k), setStage_word (entOff_ne_status m i _)⟩

theorem not_staged {g : Stage} {i : Nat} (h : Stages g i = false) : { g with dirty := g.dirty && !Stages g i } = g := by
  rw [h, Bool.not_false, Bool.and_true]

/-- An entry that keeps R181 goes into lookups. -/
theorem clsCommit_shows {ok : Nat → Bool} {mk : Bool} {i c : Nat} (hi : mk = true → i < 256) (hlt : i < 4096)
    (hlen : (d.clsWords mk i).length = ctrlIdx mk) (hok : entryOk ok mk (d.clsWords mk i) c = true) :
    Stands (Outside [12, 132, 133, 134, 135, 136, 137, 138, 139, 140]) d (clsCommit ok mk i c d) ∧
    (clsCommit ok mk i c d).entWords mk i = (d.clsWords mk i).map (· % 2 ^ 32) ∧
    (clsCommit ok mk i c d).entCtrl mk i = c % 2 + (bits (d.entCtrl mk i) 8 8 + 1) % 256 * 256 ∧
    (clsCommit ok mk i c d).stage mk = { d.stage mk with dirty := (d.stage mk).dirty && !Stages (d.stage mk) i } ∧
    (clsCommit ok mk i c d).rd CLS_ENTRY_REJ.COUNT = d.rd CLS_ENTRY_REJ.COUNT := by
  rw [clsCommit_taken hok]
  have hctrl : c % 2 + (bits (d.entCtrl mk i) 8 8 + 1) % 256 * 256 < 2 ^ 32 := by omega
  generalize c % 2 + (bits (d.entCtrl mk i) 8 8 + 1) % 256 * 256 = v at hctrl ⊢
  have hwords := putEntry_words (d := d) (mk := mk) (i := i) (c := v) hlen
  have hput := putEntry_ctrl (d := d) (mk := mk) (i := i) (w := d.clsWords mk i) hctrl
  have hbeyond := putEntry_beyond (d := d) (mk := mk) (i := i) (c := v) (w := d.clsWords mk i)
  have hblock := putEntry_stands (d := d) (mk := mk) (i := i) (c := v) (w := d.clsWords mk i)
    (P := Outside [12, 132, 133, 134, 135, 136, 137, 138, 139, 140]) fun k hk => .inBlock (entOff_block hi hlt hk)
  have hreject := putEntry_stands (d := d) (mk := mk) (i := i) (c := v) (w := d.clsWords mk i)
    (P := fun f => f = CLS_ENTRY_REJ.COUNT) fun k _ f hf => by
      refine apart_of_off fun h => absurd (entOff_ge mk i k) ?_
      rw [hf] at h
      have h' : CLS_ENTRY_REJ.addr = entOff mk i k := h
      rw [← h']
      decide
  generalize putEntry mk i v (d.clsWords mk i) d = x at hwords hput hbeyond hblock hreject ⊢
  split
  · next hmine =>
    have hshow := setStage_stands (d := x) (mk := mk) (g := { d.stage mk with dirty := false })
      (P := Outside [12, 132, 133, 134, 135, 136, 137, 138, 139, 140])
      (.inBlock (by cases mk <;> decide)) (.inBlock (by cases mk <;> decide))
    have hstay := setStage_stands (d := x) (mk := mk) (g := { d.stage mk with dirty := false })
      (P := fun f => f = CLS_ENTRY_REJ.COUNT) (fun f hf => by rw [hf]; cases mk <;> decide)
      (fun f hf => by rw [hf]; cases mk <;> decide)
    obtain ⟨hw, hc⟩ := setStage_entry (d := x) (mk := mk) (m := mk) (g := { d.stage mk with dirty := false }) (i := i)
    refine ⟨hblock.trans hshow, hw.trans hwords, hc.trans hput, ?_, (hstay.rd rfl).trans (hreject.rd rfl)⟩
    rw [(setStage_stage mk _).1, hmine, Bool.not_true, Bool.and_false]
  · next hother =>
    refine ⟨hblock, hwords, hput, ?_, hreject.rd rfl⟩
    rw [hbeyond.stage, not_staged (by simpa using hother)]

/-- A refusal counted: the counter and the event. -/
theorem refusal_wrote (c v : Field) (hc : fits c [] = true) (hv : fits v [(c, 0)] = true) (hw : 0 < v.w) :
    Wrote d ((d.sat c).ev v) [(c, min (d.rd c + 1) (2 ^ c.w - 1)), (v, 1)] := ((Wrote.refl d).sat hc).ev hv hw

/-- One that does not is refused. -/
theorem clsCommit_rejects {ok : Nat → Bool} {mk : Bool} {i c : Nat} (hok : entryOk ok mk (d.clsWords mk i) c = false) :
    Stands (Beside clsFields) d (clsCommit ok mk i c d) ∧
    (clsCommit ok mk i c d).rd CLS_ENTRY_REJ.COUNT = min (d.rd CLS_ENTRY_REJ.COUNT + 1) (2 ^ 32 - 1) ∧
    (clsCommit ok mk i c d).rd CLS_EVENT.ENTRY_REJ = 1 ∧
    (Stages (d.stage mk) i = true → (clsCommit ok mk i c d).stage mk = { d.stage mk with dirty := false, w := d.entWords mk i }) := by
  have hrefuse := refusal_wrote (d := d) CLS_ENTRY_REJ.COUNT CLS_EVENT.ENTRY_REJ (by decide) (by decide) Nat.one_pos
  have hwords : ((d.sat CLS_ENTRY_REJ.COUNT).ev CLS_EVENT.ENTRY_REJ).entWords mk i = d.entWords mk i :=
    entWords_congr fun k => lost_word (lost := true) (fun h => absurd (entOff_ge mk i k) (by rw [h]; decide))
      (fun h => absurd (entOff_ge mk i k) (by rw [h]; decide))
  rw [clsCommit_refused hok, hwords]
  generalize (d.sat CLS_ENTRY_REJ.COUNT).ev CLS_EVENT.ENTRY_REJ = x at hrefuse ⊢
  have hbase : Stands (Beside clsFields) d x := hrefuse.beside.widen (by simp [clsFields])
  split
  · have hfields := (by decide : ∀ mk : Bool, stageAt mk ∈ clsFields ∧ stageDirty mk ∈ clsFields ∧
      (∀ f ∈ [CLS_ENTRY_REJ.COUNT, CLS_EVENT.ENTRY_REJ], Field.apart (stageAt mk) f = true ∧
        Field.apart (stageDirty mk) f = true)) mk
    obtain ⟨hat, hdirty, hapart⟩ := hfields
    have hshow := setStage_stands (d := x) (mk := mk) (g := { d.stage mk with dirty := false, w := d.entWords mk i })
      (P := Beside clsFields) (.listed hat) (.listed hdirty)
    have hstay := setStage_stands (d := x) (mk := mk) (g := { d.stage mk with dirty := false, w := d.entWords mk i })
      (P := fun f => f ∈ [CLS_ENTRY_REJ.COUNT, CLS_EVENT.ENTRY_REJ]) (fun f hf => (hapart f hf).1) (fun f hf => (hapart f hf).2)
    exact ⟨hbase.trans hshow, (hstay.rd (by simp)).trans (hrefuse.nth 0 rfl), (hstay.rd (by simp)).trans (hrefuse.nth 1 rfl),
      fun _ => (setStage_stage mk _).1⟩
  · next hother => exact ⟨hbase, hrefuse.nth 0 rfl, hrefuse.nth 1 rfl, fun h => absurd h hother⟩

/-! ### Streams: staging -/

theorem sw_setSw {s k v : Nat} (j : Nat) : (setSw s k v d).sw s j = if j = k then v % 2 ^ 32 else d.sw s j := by
  rw [setSw, Dev.sw, Dev.sw, word_setWord]
  exact if_congr (by unfold strmOff; omega) rfl rfl

theorem strmOff_ge (s k : Nat) : 0x280000 ≤ strmOff s k := by
  unfold strmOff
  omega

/-- The words that a write of stream s finds. -/
def Dev.freWords (d : Dev) (s : Nat) : List Nat :=
  if d.tab.fre.held && d.tab.fre.idx == s then d.tab.fre.w else d.strmWords s

theorem strmWords_congr {s : Nat} (h : ∀ k < 4, e.sw s k = d.sw s k) : e.strmWords s = d.strmWords s :=
  List.map_congr_left fun k hk => h k (List.mem_range.mp hk)

theorem lost_strmWords (c v : Field) (hc : c.off < 0x280000) (hv : v.off < 0x280000) (s : Nat) (lost : Bool) :
    (if lost then (d.sat c).ev v else d).strmWords s = d.strmWords s :=
  strmWords_congr fun k _ => lost_word (fun h => absurd (strmOff_ge s k) (by rw [h]; omega))
    (fun h => absurd (strmOff_ge s k) (by rw [h]; omega))

theorem freEntryWrite_eq {src : BusSrc} {s k x : Nat} (hk : k < 4) : freEntryWrite src s k x d =
    setFreStage { idx := s, held := true, dirty := true, w := (d.freWords s).set k x }
      (if Loses d.tab.fre s then (d.sat FRE_STAGE_LOST.COUNT).ev FRE_EVENT.STAGE_LOST else d) := by
  have hlow : ¬4 ≤ k := by omega
  cases hmine : Stages d.tab.fre s
  · have hno : (d.tab.fre.held && d.tab.fre.idx == s) = false := hmine
    rw [loses_other hmine]
    simp only [freEntryWrite, if_neg hlow, Dev.freWords, hno, Bool.false_eq_true, if_false,
      lost_strmWords FRE_STAGE_LOST.COUNT FRE_EVENT.STAGE_LOST (by decide) (by decide)]
  · have hyes : (d.tab.fre.held && d.tab.fre.idx == s) = true := hmine
    rw [loses_mine hmine, ← staged_mine hmine]
    simp only [freEntryWrite, if_neg hlow, Dev.freWords, hyes, if_true, Bool.false_eq_true, if_false]

theorem setFreStage_wrote {g : Stage} (h : g.idx < 1024) :
    Wrote d (setFreStage g d) [(FRE_STATUS.STAGE, g.idx), (FRE_STATUS.STAGE_DIRTY, b2n g.dirty)] :=
  (((Wrote.refl d).parts (x := d.tabMod fun t => { t with fre := g }) rfl rfl).wr (by decide) h).wrB
    (show fits FRE_STATUS.STAGE_DIRTY [(FRE_STATUS.STAGE, 0)] = true by decide) Nat.one_pos

theorem setFreStage_tab (g : Stage) : (setFreStage g d).tab = { d.tab with fre := g } := by
  rw [setFreStage, wrB_tab, wr_tab, tabMod_tab]

theorem freEntryWrite_shows {src : BusSrc} {s k x : Nat} (hk : k < 4) (hs : s < 1024) :
    Wrote d (freEntryWrite src s k x d) [(FRE_STATUS.STAGE, s), (FRE_STATUS.STAGE_DIRTY, 1),
      (FRE_STAGE_LOST.COUNT, if Loses d.tab.fre s then min (d.rd FRE_STAGE_LOST.COUNT + 1) (2 ^ FRE_STAGE_LOST.COUNT.w - 1)
        else d.rd FRE_STAGE_LOST.COUNT),
      (FRE_EVENT.STAGE_LOST, if Loses d.tab.fre s then 1 else d.rd FRE_EVENT.STAGE_LOST)] ∧
    (freEntryWrite src s k x d).tab.fre = { idx := s, held := true, dirty := true, w := (d.freWords s).set k x } := by
  have hlost := lost_wrote (d := d) FRE_STAGE_LOST.COUNT FRE_EVENT.STAGE_LOST (Loses d.tab.fre s) (by decide) (by decide)
    Nat.one_pos
  rw [freEntryWrite_eq hk]
  generalize (if Loses d.tab.fre s then (d.sat FRE_STAGE_LOST.COUNT).ev FRE_EVENT.STAGE_LOST else d) = y at hlost ⊢
  have hstage := setFreStage_wrote (d := y) (g := { idx := s, held := true, dirty := true, w := (d.freWords s).set k x }) hs
  rw [setFreStage_tab]
  exact ⟨(hlost.append_apart hstage (show ([(FRE_STAGE_LOST.COUNT, 0), (FRE_EVENT.STAGE_LOST, 0)].all fun a =>
    [(FRE_STATUS.STAGE, 0), (FRE_STATUS.STAGE_DIRTY, 0)].all fun b => Field.apart b.1 a.1) = true by decide)).reorder
    (by simp; tauto) (by simp; tauto), rfl⟩

/-! ### A commit of a stream -/

/-- The words of a stream as fields. -/
def strmFields (s : Nat) : List Field := (List.range 8).map fun k => ⟨strmOff s k, 0, 32⟩

theorem strmField_mem {s k : Nat} (hk : k < 8) : (⟨strmOff s k, 0, 32⟩ : Field) ∈ strmFields s :=
  List.mem_map_of_mem (List.mem_range.mpr hk)

theorem Stands.setSw {P : Field → Prop} {s k v : Nat} (h : Stands P d e) (hP : ∀ f ∈ strmFields s, Free P f) (hk : k < 8) :
    Stands P d (setSw s k v e) := h.setWord (hP _ (strmField_mem hk))

/-- The words of stream s take w, its word 7 VALID of c and a generation. -/
def putStream (s c gen : Nat) (w : List Nat) (d : Dev) : Dev :=
  let x := setWords (strmOff s) (fun k => w.getD k 0) 4 d
  setSw s 7 (setBits (setBits (x.sw s 7) 0 1 c) 8 8 gen) x

/-- SEQ_NEXT and the recovery of a commit. -/
def renewStream (s v : Nat) (seq fresh : Bool) (d : Dev) : Dev :=
  let x := if seq then setSeqNext s v d else d
  if fresh then recovReset s x else x

/-- A commit begins the recovery of stream s afresh (R212). -/
def Dev.freRenews (d : Dev) (s c : Nat) : Bool :=
  decide (bits ((d.freWords s).getD 0 0) 0 2 ≠ d.sMode s ∨ bits ((d.freWords s).getD 0 0) 4 6 + 1 ≠ d.sHist s ∨ bit c 2)

/-- The stream after a commit that keeps R211. -/
def Dev.strmAfter (d : Dev) (s c : Nat) : Dev :=
  renewStream s (bits ((d.freWords s).getD 1 0) 0 16) (bit c 1) (d.freRenews s c)
    (putStream s c ((bits (d.sw s 7) 8 8 + 1) % 256) (d.freWords s) d)

theorem freCommit_taken {s c : Nat} (h : strmOk (d.freWords s) c = true) : freCommit s c d =
    if Stages d.tab.fre s then setFreStage { d.tab.fre with dirty := false } (d.strmAfter s c) else d.strmAfter s c := by
  have hrenew (x y : Dev) : (if bits ((d.freWords s).getD 0 0) 0 2 ≠ d.sMode s ∨
      bits ((d.freWords s).getD 0 0) 4 6 + 1 ≠ d.sHist s ∨ bit c 2 then x else y) = if d.freRenews s c then x else y := by
    simp only [Dev.freRenews, decide_eq_true_eq]
  refine (if_pos h).trans ?_
  exact if_congr Iff.rfl (congrArg _ (hrenew _ _)) (hrenew _ _)

theorem freCommit_refused {s c : Nat} (h : strmOk (d.freWords s) c = false) : freCommit s c d =
    if Stages d.tab.fre s then
      setFreStage { d.tab.fre with dirty := false, w := ((d.sat FRE_ENTRY_REJ.COUNT).ev FRE_EVENT.ENTRY_REJ).strmWords s }
        ((d.sat FRE_ENTRY_REJ.COUNT).ev FRE_EVENT.ENTRY_REJ)
    else (d.sat FRE_ENTRY_REJ.COUNT).ev FRE_EVENT.ENTRY_REJ := if_neg (Bool.eq_false_iff.mp h)

theorem putStream_sw {s c gen : Nat} {w : List Nat} (j : Nat) : (putStream s c gen w d).sw s j =
    if j = 7 then setBits (setBits (d.sw s 7) 0 1 c) 8 8 gen % 2 ^ 32 else if j < 4 then w.getD j 0 % 2 ^ 32 else d.sw s j := by
  have hword (j : Nat) : (setWords (strmOff s) (fun k => w.getD k 0) 4 d).sw s j =
      if j < 4 then w.getD j 0 % 2 ^ 32 else d.sw s j :=
    setWords_word (fun a b h => by unfold strmOff at h; omega) j
  unfold putStream
  rw [sw_setSw, hword, hword]
  rfl

theorem putStream_stands {P : Field → Prop} {s c gen : Nat} {w : List Nat} (hP : ∀ f ∈ strmFields s, Free P f) :
    Stands P d (putStream s c gen w d) :=
  Stands.setSw (setWords_stands fun _ hk => hP _ (strmField_mem (by omega))) hP (by decide)

theorem putStream_beyond {s c gen : Nat} {w : List Nat} : Beyond d (putStream s c gen w d) := setWords_beyond.setWord

theorem Stands.strmMod {P : Field → Prop} {s : Nat} {g : Strm → Strm} (h : Stands P d e) : Stands P d (e.strmMod s g) :=
  h.parts rfl rfl

theorem strmMod_sw {s k j : Nat} {g : Strm → Strm} : (d.strmMod s g).sw k j = d.sw k j := rfl

theorem strmMod_fre {s : Nat} {g : Strm → Strm} : (d.strmMod s g).tab.fre = d.tab.fre := rfl

theorem setSw_tab {s k v : Nat} : (setSw s k v d).tab = d.tab := rfl

/-- A stream whose recovery has begun afresh. -/
theorem recovReset_eq (s : Nat) (d : Dev) : recovReset s d =
    (setSw s 7 (putBit (d.sw s 7) 3 true) (setSw s 6 0 (setSw s 5 0
      (setSw s 4 (setBits (d.sw s 4) 16 16 (d.recovSeq s)) d)))).strmMod s fun x => { x with idleFr := 0 } := by
  have h7 : (setSw s 6 0 (setSw s 5 0 (setSw s 4 (setBits (d.sw s 4) 16 16 (d.recovSeq s)) d))).sw s 7 = d.sw s 7 := by
    rw [sw_setSw, sw_setSw, sw_setSw]
    rfl
  rw [← h7]
  rfl

theorem recovReset_sw (s j : Nat) (d : Dev) : (recovReset s d).sw s j = if j = 7 then putBit (d.sw s 7) 3 true % 2 ^ 32
    else if j = 6 ∨ j = 5 then 0 else if j = 4 then setBits (d.sw s 4) 16 16 (d.recovSeq s) % 2 ^ 32 else d.sw s j := by
  rw [recovReset_eq, strmMod_sw, sw_setSw, sw_setSw, sw_setSw, sw_setSw]
  by_cases h6 : j = 6
  · simp [h6]
  · simp [h6]

theorem recovReset_fre (s : Nat) (d : Dev) : (recovReset s d).tab.fre = d.tab.fre := by
  rw [recovReset_eq, strmMod_fre, setSw_tab, setSw_tab, setSw_tab, setSw_tab]

theorem recovReset_stands {P : Field → Prop} {s : Nat} (hP : ∀ f ∈ strmFields s, Free P f) : Stands P d (recovReset s d) := by
  rw [recovReset_eq]
  exact ((((Stands.refl P d).setSw hP (by decide)).setSw hP (by decide)).setSw hP (by decide)).setSw hP
    (by decide) |>.strmMod

/-! ### The words after a commit -/

theorem bits_mod_low {x lo w : Nat} (h : lo + w ≤ 32) : bits (x % 2 ^ 32) lo w = bits x lo w := bits_mod x 32 lo w h

theorem renewStream_sw {s v : Nat} {seq fresh : Bool} (j : Nat) (hj : j < 4) :
    (renewStream s v seq fresh d).sw s j = d.sw s j := by
  have hseq : (if seq then setSeqNext s v d else d).sw s j = d.sw s j := by
    cases seq
    · rfl
    · exact (sw_setSw j).trans (if_neg (by omega))
  unfold renewStream
  cases fresh
  · exact hseq
  · exact (recovReset_sw s j _).trans (by rw [if_neg (by omega), if_neg (by omega), if_neg (by omega), hseq])

theorem renewStream_last {s v lo w : Nat} {seq fresh : Bool} (hlo : lo + w ≤ 3 ∨ 4 ≤ lo) (hw : lo + w ≤ 32) :
    bits ((renewStream s v seq fresh d).sw s 7) lo w = bits (d.sw s 7) lo w := by
  have hseq : (if seq then setSeqNext s v d else d).sw s 7 = d.sw s 7 := by
    cases seq
    · rfl
    · exact sw_setSw 7
  unfold renewStream
  cases fresh
  · exact congrArg (bits · lo w) hseq
  · refine (congrArg (bits · lo w) (recovReset_sw s 7 _)).trans ?_
    rw [if_pos rfl, bits_mod_low hw, hseq, putBit, bits_setBits_disjoint _ _ _ _ _ _ hlo]

theorem bit_eq_bits (x n : Nat) : bit x n = (bits x n 1 == 1) := by simp [bit, bits]

theorem renewStream_fresh {s v : Nat} {seq : Bool} : (renewStream s v seq true d).takeAny s = true ∧
    (renewStream s v seq true d).history s = 0 := by
  have heq : renewStream s v seq true d = recovReset s (if seq then setSeqNext s v d else d) := rfl
  rw [heq, Dev.takeAny, Dev.history, recovReset_sw, recovReset_sw, recovReset_sw, bit_eq_bits, if_pos rfl, bits_mod_low (by decide),
    putBit, bits_setBits_same]
  simp

theorem renewStream_seq {s v : Nat} {fresh : Bool} (hv : v < 2 ^ 16) : (renewStream s v true fresh d).seqNext s = v := by
  have hseq : bits ((setSeqNext s v d).sw s 4) 0 16 = v := by
    rw [setSeqNext, sw_setSw, if_pos rfl, bits_mod_low (by decide), bits_setBits_same, Nat.mod_eq_of_lt hv]
  have heq : renewStream s v true fresh d = if fresh then recovReset s (setSeqNext s v d) else setSeqNext s v d := rfl
  rw [heq, Dev.seqNext]
  cases fresh
  · exact hseq
  · refine (congrArg (bits · 0 16) (recovReset_sw s 4 _)).trans ?_
    rw [if_neg (by decide), if_neg (by decide), if_pos rfl, bits_mod_low (by decide),
      bits_setBits_disjoint _ _ _ _ _ _ (.inl (by decide)), hseq]

theorem renewStream_fre {s v : Nat} {seq fresh : Bool} : (renewStream s v seq fresh d).tab.fre = d.tab.fre := by
  have hseq : (if seq then setSeqNext s v d else d).tab.fre = d.tab.fre := by cases seq <;> rfl
  unfold renewStream
  cases fresh
  · exact hseq
  · exact (recovReset_fre s _).trans hseq

theorem renewStream_stands {P : Field → Prop} {s v : Nat} {seq fresh : Bool} (hP : ∀ f ∈ strmFields s, Free P f) :
    Stands P d (renewStream s v seq fresh d) := by
  have hseq : Stands P d (if seq then setSeqNext s v d else d) := Stands.ite ((Stands.refl P d).setSw hP (by decide)) (.refl P d)
  exact Stands.ite (hseq.trans (recovReset_stands hP)) hseq

theorem strmAfter_words {s c : Nat} (hlen : (d.freWords s).length = 4) :
    (d.strmAfter s c).strmWords s = (d.freWords s).map (· % 2 ^ 32) := by
  refine List.ext_getElem (by simp [Dev.strmWords, hlen]) fun j hj hw => ?_
  have hjw : j < (d.freWords s).length := by simpa using hw
  have hword : (d.strmAfter s c).sw s j = (d.freWords s).getD j 0 % 2 ^ 32 := by
    rw [Dev.strmAfter, renewStream_sw j (by omega), putStream_sw, if_neg (by omega), if_pos (by omega)]
  simp only [Dev.strmWords, List.getElem_map, List.getElem_range, hword]
  rw [List.getD_eq_getElem _ _ hjw]

theorem strmAfter_last (s c : Nat) : bit ((d.strmAfter s c).sw s 7) 0 = bit c 0 ∧
    bits ((d.strmAfter s c).sw s 7) 8 8 = (bits (d.sw s 7) 8 8 + 1) % 256 := by
  generalize hgen : (bits (d.sw s 7) 8 8 + 1) % 256 = gen
  have hlt : gen < 2 ^ 8 := by omega
  rw [bit_eq_bits, bit_eq_bits, Dev.strmAfter, hgen, renewStream_last (by omega) (by decide),
    renewStream_last (by omega) (by decide), putStream_sw, if_pos rfl, bits_mod_low (by decide), bits_mod_low (by decide),
    bits_setBits_same, bits_setBits_disjoint _ _ _ _ _ _ (.inl (by decide)), bits_setBits_same, Nat.mod_eq_of_lt hlt]
  refine ⟨?_, rfl⟩
  simp [bits]

theorem setFreStage_stands {P : Field → Prop} {g : Stage} (hat : Free P FRE_STATUS.STAGE) (hdirty : Free P FRE_STATUS.STAGE_DIRTY) :
    Stands P d (setFreStage g d) :=
  ((Stands.refl P d).parts (x := d.tabMod fun t => { t with fre := g }) rfl rfl).wr hat |>.wrB hdirty

theorem setFreStage_sw {g : Stage} (s j : Nat) : (setFreStage g d).sw s j = d.sw s j := by
  have hne : strmOff s j ≠ FRE_STATUS.addr := fun h => absurd (strmOff_ge s j) (by rw [h]; decide)
  exact (word_wr_ne _ _ _ _ hne).trans (word_wr_ne _ _ _ _ hne)

/-- The fields of a commit of stream s. -/
def freFields (s : Nat) : List Field := FRE_STATUS.STAGE :: FRE_STATUS.STAGE_DIRTY :: strmFields s

theorem strmAfter_stands (s c : Nat) : Stands (Beside (freFields s)) d (d.strmAfter s c) := by
  have hP : ∀ f ∈ strmFields s, Free (Beside (freFields s)) f := fun f hf => .listed (by simp [freFields, hf])
  exact (putStream_stands hP).trans (renewStream_stands hP)

/-- What a commit shows of a stream, from d to e. -/
structure Recommitted (s c : Nat) (d e : Dev) : Prop where
  words : e.strmWords s = (d.freWords s).map (· % 2 ^ 32)
  valid : bit (e.sw s 7) 0 = bit c 0
  gen : bits (e.sw s 7) 8 8 = (bits (d.sw s 7) 8 8 + 1) % 256
  seq : bit c 1 = true → e.seqNext s = bits ((d.freWords s).getD 1 0) 0 16
  fresh : bit c 2 = true → e.takeAny s = true ∧ e.history s = 0

theorem strmAfter_recommitted {s c : Nat} (hlen : (d.freWords s).length = 4) : Recommitted s c d (d.strmAfter s c) where
  words := strmAfter_words hlen
  valid := (strmAfter_last s c).1
  gen := (strmAfter_last s c).2
  seq hc := by
    rw [Dev.strmAfter, hc]
    exact renewStream_seq (bits_lt _ _ _)
  fresh hc := by
    have hrenew : d.freRenews s c = true := by simp [Dev.freRenews, hc]
    rw [Dev.strmAfter, hrenew]
    exact renewStream_fresh

theorem Recommitted.congr {x : Dev} {s c : Nat} (h : Recommitted s c d e) (hsw : ∀ j, x.sw s j = e.sw s j) : Recommitted s c d x := by
  obtain ⟨hwords, hvalid, hgen, hseq, hfresh⟩ := h
  refine ⟨(strmWords_congr fun k _ => hsw k).trans hwords, by rw [hsw, hvalid], by rw [hsw, hgen], fun hc => ?_, fun hc => ?_⟩
  · rw [← hseq hc, Dev.seqNext, Dev.seqNext, hsw]
  · rw [Dev.takeAny, Dev.history, hsw, hsw, hsw]
    exact hfresh hc

theorem freCommit_shows {s c : Nat} (hlen : (d.freWords s).length = 4) (hok : strmOk (d.freWords s) c = true) :
    Stands (Beside (freFields s)) d (freCommit s c d) ∧ Recommitted s c d (freCommit s c d) ∧
    (freCommit s c d).tab.fre = { d.tab.fre with dirty := d.tab.fre.dirty && !Stages d.tab.fre s } := by
  have hall := strmAfter_stands (d := d) s c
  have hshown := strmAfter_recommitted (c := c) hlen
  have hfre : (d.strmAfter s c).tab.fre = d.tab.fre := renewStream_fre.trans (congrArg Tables.fre putStream_beyond.tab)
  rw [freCommit_taken hok]
  generalize d.strmAfter s c = x at hall hshown hfre ⊢
  split
  · next hmine =>
    refine ⟨hall.trans (setFreStage_stands (.listed (by simp [freFields])) (.listed (by simp [freFields]))),
      hshown.congr (setFreStage_sw s), ?_⟩
    rw [setFreStage_tab, hmine, Bool.not_true, Bool.and_false]
  · next hother => exact ⟨hall, hshown, hfre.trans (not_staged (by simpa using hother)).symm⟩

def freRefusal : List Field := [FRE_ENTRY_REJ.COUNT, FRE_EVENT.ENTRY_REJ, FRE_STATUS.STAGE, FRE_STATUS.STAGE_DIRTY]

theorem freCommit_rejects {s c : Nat} (hok : strmOk (d.freWords s) c = false) :
    Stands (Beside freRefusal) d (freCommit s c d) ∧
    (freCommit s c d).rd FRE_ENTRY_REJ.COUNT = min (d.rd FRE_ENTRY_REJ.COUNT + 1) (2 ^ FRE_ENTRY_REJ.COUNT.w - 1) ∧
    (freCommit s c d).rd FRE_EVENT.ENTRY_REJ = 1 ∧
    (Stages d.tab.fre s = true → (freCommit s c d).tab.fre = { d.tab.fre with dirty := false, w := d.strmWords s }) := by
  have hrefuse := refusal_wrote (d := d) FRE_ENTRY_REJ.COUNT FRE_EVENT.ENTRY_REJ (by decide) (by decide) Nat.one_pos
  have hwords : ((d.sat FRE_ENTRY_REJ.COUNT).ev FRE_EVENT.ENTRY_REJ).strmWords s = d.strmWords s :=
    lost_strmWords _ _ (by decide) (by decide) s true
  rw [freCommit_refused hok, hwords]
  generalize (d.sat FRE_ENTRY_REJ.COUNT).ev FRE_EVENT.ENTRY_REJ = x at hrefuse ⊢
  have hbase : Stands (Beside freRefusal) d x := hrefuse.beside.widen (by simp [freRefusal])
  split
  · have hshow := setFreStage_stands (d := x) (g := { d.tab.fre with dirty := false, w := d.strmWords s })
      (P := Beside freRefusal) (.listed (by simp [freRefusal])) (.listed (by simp [freRefusal]))
    have hstay := setFreStage_stands (d := x) (g := { d.tab.fre with dirty := false, w := d.strmWords s })
      (P := fun f => f ∈ [FRE_ENTRY_REJ.COUNT, FRE_EVENT.ENTRY_REJ]) (show ∀ f ∈ _, _ by decide) (show ∀ f ∈ _, _ by decide)
    exact ⟨hbase.trans hshow, (hstay.rd (by simp)).trans (hrefuse.nth 0 rfl), (hstay.rd (by simp)).trans (hrefuse.nth 1 rfl),
      fun _ => by rw [setFreStage_tab]⟩
  · next hother => exact ⟨hbase, hrefuse.nth 0 rfl, hrefuse.nth 1 rfl, fun h => absurd h hother⟩

/-! ### Timers -/

theorem recovTimeout_due {s : Nat} (hv : d.sValid s = true) (hm : d.sMode s = 2) (ht : d.takeAny s = false)
    (hidle : bits (d.sw s 0) 10 11 ≤ (d.strm s).idleFr) :
    recovTimeout s d = (strmCnt s 5 1 (setTakeAny s true d)).ev FRE_EVENT.RECOV_RESET := by
  simp [recovTimeout, hv, hm, ht, hidle]

theorem latentCheck_not (h : d.rat.sfEv = false ∨ d.tab.latentN < d.rd FRE_CFG.LATENT_SF) : latentCheck d = d := by
  refine if_neg fun hc => ?_
  simp only [Bool.and_eq_true, decide_eq_true_eq] at hc
  rcases h with h | h
  · rw [h] at hc
    simp at hc
  · omega

/-- The fields of a stream's recovery that begins for want of frames. -/
def idleFields (s : Nat) : List Field := [⟨strmOff s 7, 0, 32⟩, ⟨0x290014 + 64 * s, 0, 32⟩, FRE_EVENT.RECOV_RESET]

theorem satWord_eq {o n : Nat} : satWord o n d = d.setWord o (min (d.word o + n) (2 ^ 32 - 1)) := rfl

theorem recovTimeout_shows {s : Nat} (hv : d.sValid s = true) (hm : d.sMode s = 2) (ht : d.takeAny s = false)
    (hidle : bits (d.sw s 0) 10 11 ≤ (d.strm s).idleFr) :
    Stands (Beside (idleFields s)) d (recovTimeout s d) ∧ (recovTimeout s d).takeAny s = true ∧
    (recovTimeout s d).rd FRE_EVENT.RECOV_RESET = 1 ∧
    (recovTimeout s d).word (0x290014 + 64 * s) = min (d.word (0x290014 + 64 * s) + 1) (2 ^ 32 - 1) := by
  have hoff : 0x290000 + 64 * s + 4 * 5 = 0x290014 + 64 * s := by omega
  have h7 : strmOff s 7 = 0x28001C + 32 * s := by
    unfold strmOff
    omega
  have htake : (setTakeAny s true d).sw s 7 = putBit (d.sw s 7) 3 true % 2 ^ 32 := sw_setSw 7
  have hstay : (setTakeAny s true d).word (0x290014 + 64 * s) = d.word (0x290014 + 64 * s) := by
    rw [setTakeAny, setSw, word_setWord, if_neg (by omega)]
  have hset : Stands (Beside (idleFields s)) d (setTakeAny s true d) :=
    (Stands.refl _ d).setWord (.listed (by simp [idleFields]))
  rw [recovTimeout_due hv hm ht hidle, strmCnt, hoff, satWord_eq, hstay]
  generalize setTakeAny s true d = x at htake hset ⊢
  refine ⟨(hset.setWord (.listed (by simp [idleFields]))).ev (.listed (by simp [idleFields])), ?_,
    rd_wr_same _ FRE_EVENT.RECOV_RESET 1 (by decide), ?_⟩
  · have hne : strmOff s 7 ≠ FRE_EVENT.addr := fun h => absurd (strmOff_ge s 7) (by rw [h]; decide)
    have hsw : ((x.setWord (0x290014 + 64 * s) (min (d.word (0x290014 + 64 * s) + 1) (2 ^ 32 - 1))).ev
        FRE_EVENT.RECOV_RESET).sw s 7 = x.sw s 7 :=
      (word_wr_ne _ _ _ _ hne).trans ((word_setWord _ _ _ _).trans (if_neg (by omega)))
    rw [Dev.takeAny, hsw, htake, bit_eq_bits, bits_mod_low (by decide), putBit, bits_setBits_same]
    rfl
  · refine (word_wr_ne _ _ _ _ fun h => ?_).trans ((word_setWord _ _ _ _).trans ?_)
    · have hev : FRE_EVENT.RECOV_RESET.off = 0x38008 := rfl
      omega
    · rw [if_pos rfl, Nat.mod_eq_of_lt ((Nat.min_le_right _ _).trans_lt (by decide))]

/-- The latent check of the one valid stream. -/
theorem latentOne_due {s : Nat} (hm : d.sMode s = 2) (hlat : bit (d.sw s 0) 23 = true) (hp : (d.strm s).p ≠ 0) (bad : Bool)
    (hbad : bad = decide ((((d.strm s).p * (bits (d.sw s 0) 21 2 + 1) : Nat) : Int) - (d.strm s).dd >
      ((d.strm s).p * (bits (d.sw s 0) 21 2 + 1) : Nat) / 4 + 2)) :
    latentOne s d = ((setSw s 7 (putBit (d.sw s 7) 4 bad) d).strmMod s fun x => { x with p := 0, dd := 0 }).evIf bad
      FRE_EVENT.LATENT := by
  rw [hbad]
  simp only [latentOne, hm, hlat, if_neg hp, beq_self_eq_true, Bool.and_self, if_true]

theorem strm_strmMod {s : Nat} {g : Strm → Strm} : (d.strmMod s g).strm s = g (d.strm s) := by
  rw [Dev.strmMod, Dev.strm, tabMod_tab]
  exact (cellRead_cellWrite _ _ _ _ _).trans (if_pos rfl)

theorem latentOne_shows {s : Nat} (hm : d.sMode s = 2) (hlat : bit (d.sw s 0) 23 = true) (hp : (d.strm s).p ≠ 0) :
    Stands (Beside [⟨strmOff s 7, 0, 32⟩, FRE_EVENT.LATENT]) d (latentOne s d) ∧
    bit ((latentOne s d).sw s 7) 4 = decide (((d.strm s).p : Int) * (bits (d.sw s 0) 21 2 + 1) - (d.strm s).dd >
      (d.strm s).p * (bits (d.sw s 0) 21 2 + 1) / 4 + 2) ∧
    ((latentOne s d).strm s).p = 0 ∧ ((latentOne s d).strm s).dd = 0 ∧ (latentOne s d).tab.latentN = d.tab.latentN ∧
    (bit ((latentOne s d).sw s 7) 4 = true → (latentOne s d).rd FRE_EVENT.LATENT = 1) := by
  have hcast : decide (((d.strm s).p : Int) * (bits (d.sw s 0) 21 2 + 1) - (d.strm s).dd >
      (d.strm s).p * (bits (d.sw s 0) 21 2 + 1) / 4 + 2) = decide ((((d.strm s).p * (bits (d.sw s 0) 21 2 + 1) : Nat) : Int) -
      (d.strm s).dd > ((d.strm s).p * (bits (d.sw s 0) 21 2 + 1) : Nat) / 4 + 2) := by push_cast; rfl
  rw [hcast]
  generalize hbad : decide ((((d.strm s).p * (bits (d.sw s 0) 21 2 + 1) : Nat) : Int) - (d.strm s).dd >
    ((d.strm s).p * (bits (d.sw s 0) 21 2 + 1) : Nat) / 4 + 2) = bad
  rw [latentOne_due hm hlat hp bad hbad.symm]
  have hset : Stands (Beside [⟨strmOff s 7, 0, 32⟩, FRE_EVENT.LATENT]) d
      ((setSw s 7 (putBit (d.sw s 7) 4 bad) d).strmMod s fun x => { x with p := 0, dd := 0 }) :=
    Stands.strmMod ((Stands.refl _ d).setWord (.listed (by simp)))
  have hsw : ((setSw s 7 (putBit (d.sw s 7) 4 bad) d).strmMod s fun x => { x with p := 0, dd := 0 }).sw s 7 =
      putBit (d.sw s 7) 4 bad % 2 ^ 32 := sw_setSw 7
  have hstrm := strm_strmMod (d := setSw s 7 (putBit (d.sw s 7) 4 bad) d) (s := s) (g := fun x => { x with p := 0, dd := 0 })
  have htab : ((setSw s 7 (putBit (d.sw s 7) 4 bad) d).strmMod s fun x => { x with p := 0, dd := 0 }).tab.latentN =
      d.tab.latentN := rfl
  generalize (setSw s 7 (putBit (d.sw s 7) 4 bad) d).strmMod s (fun x => { x with p := 0, dd := 0 }) = x at hset hsw hstrm htab ⊢
  have hne : strmOff s 7 ≠ FRE_EVENT.addr := fun h => absurd (strmOff_ge s 7) (by rw [h]; decide)
  have hlast : (x.evIf bad FRE_EVENT.LATENT).sw s 7 = x.sw s 7 := by
    cases bad
    · rfl
    · exact word_wr_ne _ _ _ _ hne
  have htabs : (x.evIf bad FRE_EVENT.LATENT).tab = x.tab := by cases bad <;> rfl
  have hbit : bit ((x.evIf bad FRE_EVENT.LATENT).sw s 7) 4 = bad := by
    rw [hlast, hsw, bit_eq_bits, bits_mod_low (by decide), putBit, bits_setBits_same]
    cases bad <;> rfl
  have hkept : (x.evIf bad FRE_EVENT.LATENT).strm s = x.strm s := by rw [Dev.strm, Dev.strm, htabs]
  refine ⟨hset.evIf (.listed (by simp)), hbit, ?_, ?_, ?_, fun h => ?_⟩
  · rw [hkept, hstrm]
  · rw [hkept, hstrm]
  · rw [htabs, htab]
  · rw [hbit] at h
    rw [h]
    exact rd_wr_same x FRE_EVENT.LATENT 1 (by decide)

theorem latentCheck_one {s : Nat} (hsf : d.rat.sfEv = true) (hdue : d.rd FRE_CFG.LATENT_SF ≤ d.tab.latentN)
    (hone : d.validStreams = [s]) : latentCheck d = latentOne s (d.tabMod fun t => { t with latentN := 0 }) := by
  have hsame : (d.tabMod fun t => { t with latentN := 0 }).validStreams = [s] := hone
  rw [latentCheck, hsf, decide_eq_true hdue, if_pos (by rfl), hone]
  rfl

end

/-- Settles O24, one clause at a time. -/
theorem entriesAndStreams : Obligations.EntriesAndStreams := by
  unfold Obligations.EntriesAndStreams
  intro s
  have cls (mk : Bool) (ix : Fin 4096) : s.quiet.clsWords mk ix = ClsWords mk ix s := rfl
  have fre (st : Fin 1024) : s.quiet.freWords st = FreWords st s := rfl
  have taken {g : Dev → Dev} (h : s.dev.pd 1 = true) : action 1 g s.quiet = g s.quiet := if_pos h
  refine ⟨fun ix k x ht => ?_, fun ix k x ht hix => ?_, fun mk ix c ht hix hlen hok => ?_, fun mk ix c ht hix hok => ?_,
    fun src st k x hr hpd hk => ?_, fun src st k x hr hpd hk => ?_, fun st c ht hlen hok => ?_, fun st c ht hok => ?_,
    fun st hv hm hta hidle => ?_, fun h => ?_, fun st hsf hdue hone hm hlat hp => ?_⟩
  · refine does_soft (k := 1) (f := clsEntryWrite false ix k x.toNat) (fun _ => rfl) ht ?_
    exact clsEntryWrite_shows (d := s.quiet) (mk := false) ix.isLt
  · refine does_soft (k := 1) (f := clsEntryWrite true ix k x.toNat) (fun _ => rfl) ht ?_
    exact clsEntryWrite_shows (d := s.quiet) (mk := true) hix
  · refine ends_soft (k := 1) (f := fun d => clsCommit d.flowOk mk ix c.toNat d) (fun _ => rfl) ht ?_
    obtain ⟨hall, hrest⟩ := clsCommit_shows (d := s.quiet) (mk := mk) hix ix.isLt hlen hok
    exact ⟨hall.within, hall.2, hrest⟩
  · refine ends_soft (k := 1) (f := fun d => clsCommit d.flowOk mk ix c.toNat d) (fun _ => rfl) ht ?_
    obtain ⟨hall, hrest⟩ := clsCommit_rejects (d := s.quiet) (mk := mk) hok
    exact ⟨hall.only, hall.2, hrest⟩
  · refine does_run (f := softFrom src (action 1 (freEntryWrite src st k x.toNat))) (fun _ => rfl) ?_
    rw [softFrom_reached (d := s.quiet) hr, taken hpd]
    exact freEntryWrite_shows (d := s.quiet) hk st.isLt
  · refine does_run (f := softFrom src (action 1 (freEntryWrite src st k x.toNat))) (fun _ => rfl) ?_
    rw [softFrom_reached (d := s.quiet) hr, taken hpd, freEntryWrite, if_pos hk]
    refine ⟨badWr_wrote src _ s.quiet ?_, ?_⟩
    · unfold strmOff
      omega
    · rw [badWr, wr_tab, wr_tab, wr_tab, sat_tab]
  · refine ends_soft (k := 1) (f := freCommit st c.toNat) (fun _ => rfl) ht ?_
    obtain ⟨hall, ⟨hwords, hvalid, hgen, hseq, hfresh⟩, htab⟩ := freCommit_shows (d := s.quiet) (s := st) hlen hok
    exact ⟨hall.only, hall.2, hwords, hvalid, hgen, htab, hseq, hfresh⟩
  · refine ends_soft (k := 1) (f := freCommit st c.toNat) (fun _ => rfl) ht ?_
    obtain ⟨hall, hrest⟩ := freCommit_rejects (d := s.quiet) (s := st) hok
    exact ⟨hall.only, hall.2, hrest⟩
  · refine ends_run (f := recovTimeout st) (fun _ => rfl) ?_
    obtain ⟨hall, htake, hev, hcount⟩ := recovTimeout_shows (d := s.quiet) hv hm hta hidle
    exact ⟨hall.only, hall.2, htake, hev, hcount⟩
  · refine does_run (f := latentCheck) (fun _ => rfl) ?_
    rw [latentCheck_not (d := s.quiet) h]
    exact ⟨Wrote.refl _, rfl⟩
  · refine ends_run (f := latentCheck) (fun _ => rfl) ?_
    rw [latentCheck_one (d := s.quiet) hsf hdue hone]
    obtain ⟨hall, hbit, hp0, hdd, hn, hev⟩ := latentOne_shows (d := s.quiet.tabMod fun t => { t with latentN := 0 }) hm hlat hp
    exact ⟨hall.only, hall.2, hbit, hp0, hdd, hn, hev⟩

end Sys2Proof.Machine
end

section
/-!
PROOFS. Times of host power; the retention port (R68, R72, R85).
-/

namespace Sys2Proof.Machine

section
variable {d : Dev}

theorem clkDue_outs (d : Dev) (k : Nat) (x : List Out) : ({ d with outs := x } : Dev).clkDue k = d.clkDue k := by
  simp only [Dev.clkDue, atClk, ite_hearth]
  rfl

/-- REFOUT_EN cleared at the end of its hold time. -/
def refStopped (d : Dev) : Dev := (d.wrB CLK_CTRL.REFOUT_EN false).ratMod fun r => { r with refDown := none }

/-- PD4 goes off. -/
def refCut (d : Dev) : Dev :=
  { d.putBitOf RAT_DOM_STATUS.PD_ON 4 false with host := { d.host with released := false } }

theorem refStopped_wrote : Wrote d (refStopped d) [(CLK_CTRL.REFOUT_EN, 0)] :=
  ((Wrote.refl d).wrB (f := CLK_CTRL.REFOUT_EN) (b := false) (by decide) Nat.one_pos).parts rfl rfl

theorem refStopped_hostDue : (refStopped d).hostDue = d.hostDue := by
  have hphase : (refStopped d).ratGet RAT_STATUS.PHASE = d.ratGet RAT_STATUS.PHASE := ratGet_wr (by decide)
  rw [Dev.hostDue, Dev.hostDue, hphase]
  rfl

theorem refStop_due {n : Nat} (hdown : d.rat.refDown = some n) (hn : d.rd RAT_HOST_CFG.REF_HOLD_FR ≤ n) : refStop d =
    if d.hostDue then refStopped d else refCut (refStopped d) := by
  rw [← refStopped_hostDue]
  simp only [refStop, hdown, if_pos hn]
  rfl

theorem Wrote.pd {e : Dev} {ws : List (Field × Nat)} (h : Wrote d e ws) (hf : fits RAT_DOM_STATUS.PD_ON ws = true) (n : Nat) :
    e.pd n = d.pd n := by rw [Dev.pd, Dev.pd, Dev.bitOf, Dev.bitOf, h.rd hf]

theorem bit_putBit (x n : Nat) (b : Bool) : bit (putBit x n b) n = b := by
  rw [bit_eq_bits, putBit, bits_setBits_same]
  cases b <;> rfl

/-- The hold time ends with PD4. -/
theorem refCut_shows : Wrote d (refCut (refStopped d))
      [(CLK_CTRL.REFOUT_EN, 0), (RAT_DOM_STATUS.PD_ON, putBit (d.rd RAT_DOM_STATUS.PD_ON) 4 false)] ∧
    (refCut (refStopped d)).pd 4 = false ∧ (refCut (refStopped d)).rat.refDown = none ∧
    (refCut (refStopped d)).host.released = false := by
  have hstop := refStopped_wrote (d := d)
  have hrat : (refStopped d).rat.refDown = none := rfl
  have hpd := hstop.rd (f := RAT_DOM_STATUS.PD_ON) (by decide)
  generalize refStopped d = x at hstop hpd hrat ⊢
  have hall := hstop.wr (f := RAT_DOM_STATUS.PD_ON) (by decide)
    (putBit_lt (k := 4) (b := false) (rd_lt d RAT_DOM_STATUS.PD_ON) (by decide))
  rw [← hpd] at hall
  have hread : (refCut x).rd RAT_DOM_STATUS.PD_ON = putBit (x.rd RAT_DOM_STATUS.PD_ON) 4 false := hall.nth 1 rfl
  refine ⟨?_, ?_, hrat, rfl⟩
  · rw [← hpd]
    exact hall.parts rfl rfl
  · rw [Dev.pd, Dev.bitOf, hread, bit_putBit]

theorem refStart_due {n : Nat} (hup : d.rat.refUp = some n)
    (hdue : (if d.boot.step = 3 then d.clkDue (d.boot.stepClk + 80 * frClk) else decide (d.rd RAT_HOST_CFG.REF_DELAY_FR ≤ n)) = true) :
    Wrote d (refStart d) [(CLK_CTRL.REFOUT_EN, 1)] ∧ (refStart d).rat.refUp = none ∧ (refStart d).boot.step = 4 := by
  have heq : refStart d = { (d.wrB CLK_CTRL.REFOUT_EN true).ratMod (fun r => { r with refUp := none }) with
      boot := { d.boot with step := 4 } } := by
    simp only [refStart, hup, hdue, if_true]
    rfl
  rw [heq]
  exact ⟨((Wrote.refl d).wrB (f := CLK_CTRL.REFOUT_EN) (b := true) (by decide) Nat.one_pos).parts rfl rfl, rfl, rfl⟩

theorem retRead_shows : Wrote d (retRead d) [(RAT_RET_ADDR.WORD, (d.rd RAT_RET_ADDR.WORD + 1) % 2 ^ RAT_RET_ADDR.WORD.w)] ∧
    (retRead d).outs = d.outs ++ [.read (BitVec.ofNat 32 (d.ramWord (d.rd RAT_RET_ADDR.WORD)))] :=
  ⟨((Wrote.refl d).wrMod (by decide)).parts rfl rfl, rfl⟩

theorem retWrite_stored {src : BusSrc} {v : Word} (h : 16 ≤ d.rd RAT_RET_ADDR.WORD) :
    retWrite src v d = (d.ramSet (d.rd RAT_RET_ADDR.WORD) v.toNat).wr RAT_RET_ADDR.WORD (d.rd RAT_RET_ADDR.WORD + 1) := by
  unfold retWrite
  dsimp only
  rw [if_neg (by omega)]

theorem retWrite_shows {v : Word} : Only d ((d.ramSet (d.rd RAT_RET_ADDR.WORD) v.toNat).wr RAT_RET_ADDR.WORD
      (d.rd RAT_RET_ADDR.WORD + 1)) [RAT_RET_ADDR.WORD] ∧
    ((d.ramSet (d.rd RAT_RET_ADDR.WORD) v.toNat).wr RAT_RET_ADDR.WORD (d.rd RAT_RET_ADDR.WORD + 1)).rd RAT_RET_ADDR.WORD =
      (d.rd RAT_RET_ADDR.WORD + 1) % 2 ^ RAT_RET_ADDR.WORD.w ∧
    ((d.ramSet (d.rd RAT_RET_ADDR.WORD) v.toNat).wr RAT_RET_ADDR.WORD (d.rd RAT_RET_ADDR.WORD + 1)).ramWord
      (d.rd RAT_RET_ADDR.WORD) = v.toNat ∧
    RamElse d ((d.ramSet (d.rd RAT_RET_ADDR.WORD) v.toNat).wr RAT_RET_ADDR.WORD (d.rd RAT_RET_ADDR.WORD + 1))
      [d.rd RAT_RET_ADDR.WORD] := by
  generalize d.rd RAT_RET_ADDR.WORD = k
  have hram (j : Nat) : ((d.ramSet k v.toNat).wr RAT_RET_ADDR.WORD (k + 1)).ramWord j =
      if j = k then v.toNat % 2 ^ 32 else d.ramWord j := ramWord_ramSet d k v.toNat j
  refine ⟨fun g hg => rd_wr_apart _ _ _ _ (hg _ (by simp)), rd_wr_same _ _ _ (by decide), ?_, fun j hj => ?_⟩
  · rw [hram, if_pos rfl, Nat.mod_eq_of_lt v.isLt]
  · rw [hram, if_neg (by simpa using hj)]

theorem retWrite_refused {src : BusSrc} {v : Word} (h : d.rd RAT_RET_ADDR.WORD < 16) : Wrote d (retWrite src v d)
    [(GLB_BADWR.COUNT, min (d.rd GLB_BADWR.COUNT + 1) (2 ^ 32 - 1)), (GLB_BADWR_INFO.OFFSET, RAT_RET_DATA.addr),
      (GLB_BADWR_INFO.SRC, srcCode src), (GLB_BADWR_INFO.FN, srcFn src), (RAT_RET_ADDR.WORD, d.rd RAT_RET_ADDR.WORD + 1)] := by
  have hbad := badWr_wrote src RAT_RET_DATA.addr d (by decide)
  unfold retWrite
  dsimp only
  rw [if_pos h]
  exact hbad.wr (show fits RAT_RET_ADDR.WORD [(GLB_BADWR.COUNT, 0), (GLB_BADWR_INFO.OFFSET, 0), (GLB_BADWR_INFO.SRC, 0),
    (GLB_BADWR_INFO.FN, 0)] = true by decide) (show d.rd RAT_RET_ADDR.WORD + 1 < 2 ^ 14 by omega)

end

/-- Settles O6, one clause at a time. -/
theorem hostPowerAndRetention : Obligations.HostPowerAndRetention := by
  unfold Obligations.HostPowerAndRetention
  intro s
  refine ⟨fun n hdown hn hdue => ?_, fun n hdown hn hdue => ?_, fun n hup hn hstep => ?_, fun n hup hstep hclk => ?_,
    fun hboot => ?_, fun src v hr hk => ?_, fun src v hr hk => ?_⟩
  · refine does_run (f := refStop) (fun _ => rfl) ?_
    rw [refStop_due (d := s.quiet) hdown hn, if_pos (show s.quiet.hostDue = true from hdue)]
    exact ⟨refStopped_wrote, rfl, (refStopped_wrote (d := s.quiet)).pd (by decide) 4⟩
  · refine does_run (f := refStop) (fun _ => rfl) ?_
    rw [refStop_due (d := s.quiet) hdown hn, if_neg (Bool.eq_false_iff.mp (show s.quiet.hostDue = false from hdue))]
    exact refCut_shows (d := s.quiet)
  · refine does_run (f := refStart) (fun _ => rfl) (refStart_due (d := s.quiet) hup ?_)
    rw [if_neg hstep]
    exact decide_eq_true hn
  · refine does_run (f := refStart) (fun _ => rfl) (refStart_due (d := s.quiet) hup ?_)
    rw [if_pos hstep, clkDue_outs]
    exact hclk
  · refine does_run (f := ifBooted retRead) (fun _ => rfl) ?_
    have htaken : ifBooted retRead s.quiet = retRead s.quiet := if_pos hboot
    rw [htaken]
    exact retRead_shows (d := s.quiet)
  · refine ends_run (f := softFrom src (retWrite src v)) (fun _ => rfl) ?_
    rw [softFrom_reached (d := s.quiet) hr, retWrite_stored (d := s.quiet) hk]
    exact retWrite_shows (d := s.quiet)
  · refine does_run (f := softFrom src (retWrite src v)) (fun _ => rfl) ?_
    rw [softFrom_reached (d := s.quiet) hr]
    exact ⟨retWrite_refused (d := s.quiet) hk, trivial⟩

end Sys2Proof.Machine
end

section
/-!
PROOFS. What work on the host's rings and in packet memory moves: frames that leave, descriptors returned, frames dropped
(R128, R148, R160, R184, R213).
-/

namespace Sys2Proof.Machine

/-- From d to e registers, outputs, the host interface and packet memory alone move, and no field that P names. -/
structure Work (P : Field → Prop) (d e : Dev) : Prop where
  aside : ∃ r o h p, e = { d with regs := r, outs := o, host := h, pm := p }
  reads : ∀ g, P g → e.rd g = d.rd g

section
variable {P : Field → Prop} {d e : Dev}

theorem Work.refl (P : Field → Prop) (d : Dev) : Work P d d := ⟨⟨d.regs, d.outs, d.host, d.pm, rfl⟩, fun _ _ => rfl⟩

theorem Work.trans {x : Dev} (h1 : Work P d e) (h2 : Work P e x) : Work P d x := by
  obtain ⟨⟨r1, o1, h1, p1, rfl⟩, hr1⟩ := h1
  obtain ⟨⟨r2, o2, h2, p2, rfl⟩, hr2⟩ := h2
  exact ⟨⟨r2, o2, h2, p2, rfl⟩, fun g hg => (hr2 g hg).trans (hr1 g hg)⟩

theorem Work.stands (h : Work P d e) : Stands P d e := by
  obtain ⟨⟨r, o, g, p, rfl⟩, hr⟩ := h
  exact ⟨hr, rfl⟩

theorem Work.on (h : Work P d e) {g : Field} (hg : P g) : e.on g = d.on g := h.stands.on hg

/-- A part of the state that work does not move. -/
theorem Work.part {α : Type} (h : Work P d e) (π : Dev → α)
    (hπ : ∀ x r o g p, π { x with regs := r, outs := o, host := g, pm := p } = π x) : π e = π d := by
  obtain ⟨⟨r, o, g, p, rfl⟩, -⟩ := h
  exact hπ d r o g p

theorem Work.chan (h : Work P d e) : e.chan = d.chan := h.part Dev.chan fun _ _ _ _ _ => rfl

theorem Work.ch (h : Work P d e) (n : Nat) : e.ch n = d.ch n := h.part (Dev.ch · n) fun _ _ _ _ _ => rfl

theorem Work.hearth (h : Work P d e) : e.hearth = d.hearth := h.part Dev.hearth fun _ _ _ _ _ => rfl

theorem Work.wr {f : Field} {v : Nat} (h : Work P d e) (hf : Free P f) : Work P d (e.wr f v) :=
  h.trans ⟨⟨_, _, _, _, rfl⟩, fun g hg => rd_wr_apart e f g v (hf g hg)⟩

theorem Work.wrB {f : Field} {b : Bool} (h : Work P d e) (hf : Free P f) : Work P d (e.wrB f b) := h.wr hf

theorem Work.ev {f : Field} (h : Work P d e) (hf : Free P f) : Work P d (e.ev f) := h.wr hf

theorem Work.sat {f : Field} {n : Nat} (h : Work P d e) (hf : Free P f) : Work P d (e.sat f n) := h.wr hf

theorem Work.setWord {o v : Nat} (h : Work P d e) (hf : Free P ⟨o, 0, 32⟩) : Work P d (e.setWord o v) := by
  rw [setWord_eq_wr]
  exact h.wr hf

theorem Work.emit {o : Out} (h : Work P d e) : Work P d (e.emit o) := h.trans ⟨⟨_, _, _, _, rfl⟩, fun _ _ => rfl⟩

theorem Work.hostMod {f : HostIf → HostIf} (h : Work P d e) : Work P d (e.hostMod f) :=
  h.trans ⟨⟨_, _, _, _, rfl⟩, fun _ _ => rfl⟩

theorem Work.setRing {r : Nat} {x : Ring} (h : Work P d e) : Work P d (e.setRing r x) := h.hostMod

theorem Work.fnMod {f : Nat} {g : Fn → Fn} (h : Work P d e) : Work P d (e.fnMod f g) := h.hostMod

theorem Work.pmMod {f : Pmem → Pmem} (h : Work P d e) : Work P d (e.pmMod f) :=
  h.trans ⟨⟨_, _, _, _, rfl⟩, fun _ _ => rfl⟩

theorem Work.ite {c : Prop} [Decidable c] {x y : Dev} (hx : Work P d x) (hy : Work P d y) : Work P d (if c then x else y) := by
  split
  · exact hx
  · exact hy

theorem Work.foldl {α : Type} {f : Dev → α → Dev} (l : List α) (h : Work P d e)
    (hf : ∀ a ∈ l, ∀ x, Work P d x → Work P d (f x a)) : Work P d (l.foldl f e) := by
  induction l generalizing e with
  | nil => exact h
  | cons a l ih => exact ih (hf a (by simp) e h) fun b hb => hf b (List.mem_cons_of_mem _ hb)

theorem Work.forN {n : Nat} {f : Nat → Dev → Dev} (h : Work P d e)
    (hf : ∀ k < n, ∀ x, Work P d x → Work P d (f k x)) : Work P d (forN n f e) :=
  h.foldl (List.range n) fun a ha x hx => hf a (by simpa using ha) x hx

/-- What moves registers alone is work. -/
theorem Work.of_beyond (hb : Beyond d e) (hs : Stands P d e) : Work P d e := by
  obtain ⟨r, o, rfl⟩ := hb
  exact ⟨⟨r, o, d.host, d.pm, rfl⟩, hs.1⟩

/-! ### Packet memory -/

theorem Work.retireCell {k : Nat} (h : Work P d e) (hP : ∀ f ∈ pmemFields, Free P f) : Work P d (retireCell k e) := by
  simp only [pmemFields, List.forall_mem_cons] at hP
  obtain ⟨hcount, hlast, hover, hretire, -⟩ := hP
  unfold Machine.retireCell
  exact Work.ite (Work.ev (Work.wr (Work.wr h.pmMod.pmMod hcount) hlast) hretire) (Work.wrB h.pmMod hover)

theorem Work.retireWorn (h : Work P d e) (hP : ∀ f ∈ pmemFields, Free P f) : Work P d (retireWorn e) := by
  unfold Machine.retireWorn
  exact Work.ite (h.foldl _ fun _ _ _ hx => hx.retireCell hP) h

theorem Work.pmemSync (h : Work P d e) (hP : ∀ f ∈ pmemFields, Free P f) : Work P d (pmemSync e) := by
  have hcells (x : Dev) (a b : Nat) (hx : Work P d x) :
      Work P d ((x.wr PMC_FREE_CELLS.CELLS a).wr PMC_BE_CELLS.CELLS b) :=
    (hx.wr (hP _ (by decide))).wr (hP _ (by decide))
  have hworn (p : Pmem → Pmem) : Work P d (Machine.retireWorn (e.pmMod p)) := Work.retireWorn h.pmMod hP
  unfold Machine.pmemSync
  exact Work.ite (Work.pmMod (Work.ev (Work.pmMod (hcells _ _ _ (hworn _))) (hP _ (by decide))))
    (Work.ite (Work.pmMod (Work.pmMod (hcells _ _ _ (hworn _)))) (Work.pmMod (hcells _ _ _ (hworn _))))

/-- P names no word of the counters of entries and streams, nor of the tables after them (R184, R213). -/
def Below (P : Field → Prop) : Prop := ∀ g, P g → g.off < 0x238000

theorem Below.free (h : Below P) {o : Nat} (ho : 0x238000 ≤ o) : Free P ⟨o, 0, 32⟩ := fun g hg =>
  apart_of_off (show g.off ≠ o by have := h g hg; omega)

theorem Work.satWord {o n : Nat} (h : Work P d e) (hf : Free P ⟨o, 0, 32⟩) : Work P d (satWord o n e) := h.setWord hf

theorem Work.retireFrame {x : Frm} (h : Work P d e) (hP : Below P) : Work P d (retireFrame x e) := by
  have hentry (y : Dev) (i : Nat) (hy : Work P d y) : Work P d (Machine.satWord (hitsOff i + 4) 1 y) :=
    hy.satWord (hP.free (by unfold hitsOff; omega))
  have hstream (y : Dev) (i : Nat) (hy : Work P d y) : Work P d (Machine.satWord (0x290000 + 64 * i + 32) 1 y) :=
    hy.satWord (hP.free (by omega))
  unfold Machine.retireFrame
  dsimp only
  split
  · exact Work.ite (Work.ite (Work.ite h (hentry _ _ h)) h) (hstream _ _ (Work.ite (Work.ite h (hentry _ _ h)) h))
  · exact Work.ite (Work.ite h (hentry _ _ h)) h

theorem Work.leave {sent : Bool} {x : Frm} (h : Work P d e) (hpm : ∀ f ∈ pmemFields, Free P f) (hP : Below P) :
    Work P d (leave sent x e) := by
  unfold Machine.leave
  dsimp only
  exact Work.pmemSync (Work.ite (Work.ite h.pmMod h) (Work.ite (h.retireFrame hP) h)) hpm

/-! ### Rings -/

theorem Work.tagSync (h : Work P d e) (hP : ∀ f ∈ tagFields, Free P f) : Work P d (tagSync e) := by
  simp only [tagFields, List.forall_mem_cons, List.not_mem_nil, false_implies, implies_true, and_true] at hP
  obtain ⟨hreads, horphans, hcount⟩ := hP
  exact ((h.wr hreads).wr horphans).wr hcount

theorem Work.msixSend {f v : Nat} (h : Work P d e) : Work P d (msixSend f v e) := by
  unfold Machine.msixSend
  exact Work.ite (Work.ite h.fnMod h.emit) h

theorem Work.hostWrite {f a : Nat} {bs : Bytes} {b : Bool} (h : Work P d e) : Work P d (hostWrite f a bs b e) :=
  Work.ite h.emit h

theorem Work.ringMsg {r : Nat} (h : Work P d e) : Work P d (ringMsg r e) := by
  unfold Machine.ringMsg
  dsimp only
  split
  · exact h
  · split
    · exact Work.ite h.setRing h.setRing.msixSend
    · exact h.setRing.msixSend

theorem Work.retire {r : Nat} (h : Work P d e) (hP : ∀ f ∈ tagFields, Free P f) : Work P d (retire r e) := by
  unfold Machine.retire
  dsimp only
  split
  · exact h
  · refine Work.ite h (Work.tagSync (Work.foldl _ (Work.setRing ?_) fun _ _ _ hx => hx.ringMsg) hP)
    exact Work.foldl _ (Work.foldl _ h fun _ _ _ hx => hx.hostWrite) fun _ _ _ hx => hx.hostWrite

theorem Work.ringQuiesce {r : Nat} (h : Work P d e) (hP : ∀ f ∈ tagFields, Free P f) : Work P d (ringQuiesce r e) := by
  unfold Machine.ringQuiesce
  exact Work.ite (Work.tagSync (Work.ringMsg h.setRing.hostMod) hP) h

theorem Work.hostReturn {n status : Nat} {ts : Option Nat} {x : Frm} (h : Work P d e) (hP : ∀ f ∈ tagFields, Free P f) :
    Work P d (hostReturn n status ts x e) := by
  unfold Machine.hostReturn
  split
  · exact h
  · exact Work.ite h (Work.ringQuiesce (Work.retire h.setRing hP) hP)

theorem Work.stat {n i v : Nat} (h : Work P d e) (hP : ∀ f ∈ statFields n i, Free P f) : Work P d (stat n i v e) :=
  h.trans (.of_beyond (stat_beyond i v) ⟨fun g hg => (stat_stands (d := e) (n := n) i v).rd fun f hf => hP f hf g hg,
    (stat_stands (d := e) (n := n) i v).2⟩)

/-! ### Frames dropped -/

/-- From d to e the retention SRAM and the Ration controller move beside what work does: a frame that is a dying gasp is
marked skipped when it is dropped (R67). -/
structure Shed (P : Field → Prop) (d e : Dev) : Prop where
  aside : ∃ r o h p m t, e = { d with regs := r, outs := o, host := h, pm := p, sram := m, rat := t }
  reads : ∀ g, P g → e.rd g = d.rd g

theorem Work.shed (h : Work P d e) : Shed P d e := by
  obtain ⟨⟨r, o, g, p, rfl⟩, hr⟩ := h
  exact ⟨⟨r, o, g, p, d.sram, d.rat, rfl⟩, hr⟩

theorem Shed.refl (P : Field → Prop) (d : Dev) : Shed P d d := (Work.refl P d).shed

theorem Shed.trans {x : Dev} (h1 : Shed P d e) (h2 : Shed P e x) : Shed P d x := by
  obtain ⟨⟨r1, o1, h1, p1, m1, t1, rfl⟩, hr1⟩ := h1
  obtain ⟨⟨r2, o2, h2, p2, m2, t2, rfl⟩, hr2⟩ := h2
  exact ⟨⟨r2, o2, h2, p2, m2, t2, rfl⟩, fun g hg => (hr2 g hg).trans (hr1 g hg)⟩

theorem Shed.part {α : Type} (h : Shed P d e) (π : Dev → α)
    (hπ : ∀ x r o g p m t, π { x with regs := r, outs := o, host := g, pm := p, sram := m, rat := t } = π x) : π e = π d := by
  obtain ⟨⟨r, o, g, p, m, t, rfl⟩, -⟩ := h
  exact hπ d r o g p m t

theorem Shed.chan (h : Shed P d e) : e.chan = d.chan := h.part Dev.chan fun _ _ _ _ _ _ _ => rfl

theorem Shed.ch (h : Shed P d e) (n : Nat) : e.ch n = d.ch n := h.part (Dev.ch · n) fun _ _ _ _ _ _ _ => rfl

theorem Shed.hearth (h : Shed P d e) : e.hearth = d.hearth := h.part Dev.hearth fun _ _ _ _ _ _ _ => rfl

theorem Shed.foldl {α : Type} {f : Dev → α → Dev} (l : List α) (h : Shed P d e)
    (hf : ∀ a ∈ l, ∀ x, Shed P d x → Shed P d (f x a)) : Shed P d (l.foldl f e) := by
  induction l generalizing e with
  | nil => exact h
  | cons a l ih => exact ih (hf a (by simp) e h) fun b hb => hf b (List.mem_cons_of_mem _ hb)

theorem gaspSkip_shed (h : Free P RAT_EVENT.GASP_SKIPPED) : Shed P d (gaspSkip d) :=
  ⟨⟨_, _, _, _, _, _, rfl⟩, fun g hg => rd_wr_apart d _ g 1 (h g hg)⟩

/-- What a frame dropped from channel n at counter i writes, the counters of entries and streams aside. -/
def dropFields (n i : Nat) : List Field :=
  SHD_FENCE_RPTn_TX.TX_DROPS n :: RAT_EVENT.GASP_SKIPPED :: (statFields n i ++ tagFields ++ pmemFields)

section
variable {n i : Nat}

theorem dropFree (hP : ∀ f ∈ dropFields n i, Free P f) : Free P (SHD_FENCE_RPTn_TX.TX_DROPS n) ∧
    Free P RAT_EVENT.GASP_SKIPPED ∧ (∀ f ∈ statFields n i, Free P f) ∧ (∀ f ∈ tagFields, Free P f) ∧
    (∀ f ∈ pmemFields, Free P f) :=
  ⟨hP _ (by simp [dropFields]), hP _ (by simp [dropFields]), fun f hf => hP f (by simp [dropFields, hf]),
    fun f hf => hP f (by simp [dropFields, hf]), fun f hf => hP f (by simp [dropFields, hf])⟩

/-- The rest of a drop once a gasp is marked. -/
theorem dropRest_work {status : Nat} {x : Frm} (hP : ∀ f ∈ dropFields n i, Free P f) (hbelow : Below P) (y : Dev) :
    Work P y (leave false x (hostReturn n status none x (stat n i 1 y))) := by
  obtain ⟨-, -, hstat, htag, hpm⟩ := dropFree hP
  exact (((Work.refl P y).stat hstat).hostReturn htag).leave hpm hbelow

theorem dropFrame_shed {status : Nat} {x : Frm} (hP : ∀ f ∈ dropFields n i, Free P f) (hbelow : Below P) :
    Shed P d (dropFrame n i status x d) := by
  obtain ⟨htx, hgasp, -, -, -⟩ := dropFree hP
  have hwrap : Work P d (if i = 40 && (d.ch n).fencing then d.wrap (SHD_FENCE_RPTn_TX.TX_DROPS n) else d) :=
    Work.ite ((Work.refl P d).wr htx) (.refl P d)
  unfold dropFrame
  dsimp only
  split
  · exact hwrap.shed.trans ((gaspSkip_shed hgasp).trans (dropRest_work hP hbelow _).shed)
  · exact hwrap.shed.trans (dropRest_work hP hbelow _).shed

/-- A frame that is no gasp leaves the retention SRAM alone. -/
theorem dropFrame_work {status : Nat} {x : Frm} (hx : x.gasp = false) (hP : ∀ f ∈ dropFields n i, Free P f) (hbelow : Below P) :
    Work P d (dropFrame n i status x d) := by
  obtain ⟨htx, -⟩ := dropFree hP
  unfold dropFrame
  dsimp only
  rw [hx, if_neg Bool.false_ne_true]
  exact (Work.ite ((Work.refl P d).wr htx) (.refl P d)).trans (dropRest_work hP hbelow _)

end

end

end Sys2Proof.Machine
end

section
/-!
PROOFS. The vote of the Hearth's copies, its pulses and its frame events (R33, R34, R40, R41, R48 to R50).
-/

namespace Sys2Proof.Machine

section
variable {d : Dev}

/-! ### What leaves the voted time alone -/

/-- From d to e the voted copy stands. -/
def SameTime (d e : Dev) : Prop := e.hearth.a = d.hearth.a

variable {e : Dev}

theorem SameTime.refl (d : Dev) : SameTime d d := rfl

theorem SameTime.trans {x : Dev} (h1 : SameTime d e) (h2 : SameTime e x) : SameTime d x := Eq.trans h2 h1

theorem SameTime.of_hearth (h : e.hearth = d.hearth) : SameTime d e := congrArg Hearth.a h

theorem SameTime.wr {f : Field} {v : Nat} (h : SameTime d e) : SameTime d (e.wr f v) := h.trans (.of_hearth (wr_hearth e f v))

theorem SameTime.wrB {f : Field} {b : Bool} (h : SameTime d e) : SameTime d (e.wrB f b) := h.wr

theorem SameTime.ev {f : Field} (h : SameTime d e) : SameTime d (e.ev f) := h.wr

theorem SameTime.sat {f : Field} {n : Nat} (h : SameTime d e) : SameTime d (e.sat f n) := h.wr

theorem SameTime.putBitOf {f : Field} {n : Nat} {b : Bool} (h : SameTime d e) : SameTime d (e.putBitOf f n b) := h.wr

theorem SameTime.ite {c : Prop} [Decidable c] {x y : Dev} (hx : SameTime d x) (hy : SameTime d y) :
    SameTime d (if c then x else y) := by
  split
  · exact hx
  · exact hy

theorem SameTime.evIf {c : Bool} {f : Field} (h : SameTime d e) : SameTime d (e.evIf c f) := .ite h.ev h

theorem SameTime.chMod {n : Nat} {g : Chan → Chan} (h : SameTime d e) : SameTime d (e.chMod n g) := h

theorem SameTime.pegMod {g : Peg → Peg} (h : SameTime d e) : SameTime d (e.pegMod g) := h

theorem SameTime.lcMod {c : Nat} {g : LlbCh → LlbCh} (h : SameTime d e) : SameTime d (e.lcMod c g) := h

theorem SameTime.forN {n : Nat} {f : Nat → Dev → Dev} (h : SameTime d e) (hf : ∀ k < n, ∀ x, SameTime x (f k x)) :
    SameTime d (forN n f e) :=
  List.foldlRecOn (motive := SameTime d) _ _ h fun _ hx k hk => hx.trans (hf k (List.mem_range.mp hk) _)

theorem gateShow_time (n : Nat) : SameTime d (gateShow n d) := (SameTime.refl d).wr.wr.wrB.wr.wr.wrB.wrB

theorem setGate_time (n : Nat) (g : GateCopy) : SameTime d (setGate n g d) :=
  ((SameTime.refl d).chMod).trans (gateShow_time n)

theorem gateFallback_time (n : Nat) : SameTime d (gateFallback n d) :=
  .ite (.refl d) ((SameTime.ite (SameTime.refl d).ev.wr (SameTime.refl d).ev).trans (setGate_time n _))

theorem gateArm_time (n b : Nat) : SameTime d (gateArm n b d) := (setGate_time n _).wr.wr

theorem gateRearm_time (n : Nat) : SameTime d (gateRearm n d) := by
  unfold gateRearm
  split
  · exact .ite (gateArm_time n _) (.refl d)
  · exact .refl d

theorem launchDrop_time (n : Nat) : SameTime d (launchDrop n d) := by
  have hdrop : ∀ (xs : List Frm) (x : Dev), SameTime x (xs.foldl (fun d x => dropFrame n 39 4 x d) x) := fun xs x =>
    .of_hearth (Shed.foldl (P := fun _ => False) xs (.refl _ x) fun y _ z hz =>
      hz.trans (dropFrame_shed (fun _ _ _ h => h.elim) fun _ h => h.elim)).hearth
  exact .ite (.refl d) (SameTime.trans (SameTime.refl d).chMod (hdrop _ _))

theorem hrtEnter_time (st : Nat) : SameTime d (hrtEnter st d) := by
  have hshow (x : Dev) (hx : SameTime d x) : SameTime d (if st = 2 then x.wrB HRT_STATUS.TRACEABLE true else if st = 3 then x
    else x.wrB HRT_STATUS.TRACEABLE false) := .ite hx.wrB (.ite hx hx.wrB)
  exact hshow _ (SameTime.refl d).wr.evIf

theorem pegLeaves_time : SameTime d (pegLeaves d) := .ite (.ite (hrtEnter_time 3) rfl) (.refl d)

theorem gridUpdate_time (b : Bool) : SameTime d (gridUpdate b d) := (SameTime.refl d).wrB.evIf

theorem gridLost_time : SameTime d (gridLost d) := (SameTime.refl d).sat.pegMod

theorem pegEnter_time (st : Nat) : SameTime d (pegEnter st d) := by
  unfold pegEnter
  extract_lets was shown grid left clear enter sync listen fresh calm
  have hgrid : SameTime d grid := (SameTime.refl d).wr.wrB.trans (gridUpdate_time _)
  have hclear : SameTime d clear := SameTime.wrB (.wr (.ite (hgrid.trans (pegLeaves_time.trans gridLost_time)) hgrid))
  have hsync : SameTime d sync := .ite (SameTime.pegMod (SameTime.wrB (SameTime.ev hclear))) hclear
  have hlisten : SameTime d listen := .ite hsync.pegMod hsync
  have hcalm : SameTime d calm := SameTime.pegMod (.ite hlisten (SameTime.pegMod hlisten))
  exact .ite (SameTime.wrB (SameTime.ev hcalm)) (.ite hcalm (SameTime.wrB hcalm))

theorem pegValid_time : SameTime d (pegValid d) := .ite (pegEnter_time 5) (.ite (pegEnter_time 1) (.refl d))

theorem llbRefresh1_time (c : Nat) : SameTime d (llbRefresh1 c d) :=
  .ite (SameTime.refl d).putBitOf.lcMod
    (.ite (.ite (SameTime.refl d).putBitOf.lcMod (SameTime.refl d).putBitOf.lcMod) (.refl d))

theorem llbRefresh_time : SameTime d (llbRefresh d) := ((SameTime.refl d).forN fun k _ _ => llbRefresh1_time k).wrB

theorem roleUpdate_time : SameTime d (roleUpdate d) :=
  .ite ((SameTime.refl d).wrB.wrB.evIf.trans pegLeaves_time) (SameTime.refl d).wrB.wrB.evIf

/-- What follows a change of VALID leaves the voted time. -/
theorem validChanged_time : SameTime d (validChanged d) := by
  have hgates : SameTime d (forN 4 (fun n d => if d.valid then gateRearm n d else launchDrop n (gateFallback n d)) d) :=
    (SameTime.refl d).forN fun k _ x => .ite (gateRearm_time k) ((gateFallback_time k).trans (launchDrop_time k))
  have hllb (x : Dev) : SameTime x (x.when (x.pd 1) llbRefresh) := .ite llbRefresh_time (.refl x)
  exact ((hgates.trans pegValid_time).trans (hllb _)).trans roleUpdate_time

/-! ### The vote -/

theorem penalty_off {k : Nat} (hpd : d.pd 1 = false) : penalty k d = d := if_neg (by rw [hpd]; exact Bool.false_ne_true)

/-- The mend of a copy, whose counter is f. -/
def voteFix (f : Field) (m : HCopy) (d : Dev) : Dev :=
  penalty 11 (((d.hearthMod fun h => h.all fun _ => m).sat f).ev HRT_EVENT.VOTE_FIX)

def fixFields : List Field := [HRT_VOTE_CNT.FIX_A, HRT_VOTE_CNT.FIX_B, HRT_VOTE_CNT.FIX_C]

theorem fixFields_fit : ∀ f ∈ fixFields, fits f [] = true ∧ fits HRT_EVENT.VOTE_FIX [(f, 0)] = true ∧
    Field.apart f RAT_DOM_STATUS.PD_ON = true ∧ 2 ^ f.w - 1 = 255 := by decide

/-- All copies take m: with the Sheepdog off, the count and the event are all that shows. -/
theorem voteFix_shows {f : Field} (m : HCopy) (hf : f ∈ fixFields) (hpd : d.pd 1 = false) :
    Wrote d (voteFix f m d) [(f, min (d.rd f + 1) 255), (HRT_EVENT.VOTE_FIX, 1)] ∧
    (voteFix f m d).hearth = d.hearth.all fun _ => m := by
  obtain ⟨hfit, hev, hapart, hmax⟩ := fixFields_fit f hf
  have hall := (((Wrote.refl d).hearthMod (g := fun h => h.all fun _ => m)).sat (n := 1) hfit).ev hev Nat.one_pos
  have hoff : (((d.hearthMod fun h => h.all fun _ => m).sat f).ev HRT_EVENT.VOTE_FIX).pd 1 = false := by
    rw [← hpd, Dev.pd, Dev.pd, Dev.bitOf, Dev.bitOf]
    exact congrArg (bit · 1) ((rd_ev_apart _ _ _ (by decide)).trans (rd_sat_apart _ _ _ _ hapart))
  rw [voteFix, penalty_off hoff, ev_hearth, sat_hearth, hearthMod_hearth, ← hmax]
  exact ⟨hall, rfl⟩

/-- All three copies alike are the Hearth itself. -/
theorem all_same {h : Hearth} (hb : h.b = h.a) (hc : h.c = h.a) : (h.all fun _ => h.a) = h := by
  obtain ⟨⟩ := h
  simp_all [Hearth.all]

theorem voteTaken_a {f0 : Nat} (hbc : d.hearth.b = d.hearth.c) (ha : d.hearth.a ≠ d.hearth.b) :
    voteTaken f0 d = voteFix HRT_VOTE_CNT.FIX_A d.hearth.b d := (if_neg fun h => ha h.1).trans (if_pos hbc)

theorem voteTaken_b {f0 : Nat} (hac : d.hearth.a = d.hearth.c) (hb : d.hearth.b ≠ d.hearth.a) :
    voteTaken f0 d = voteFix HRT_VOTE_CNT.FIX_B d.hearth.a d :=
  (if_neg fun h => hb h.1.symm).trans ((if_neg fun h => hb (h.trans hac.symm)).trans (if_pos hac))

theorem voteTaken_c {f0 : Nat} (hab : d.hearth.a = d.hearth.b) (hc : d.hearth.c ≠ d.hearth.a) :
    voteTaken f0 d = voteFix HRT_VOTE_CNT.FIX_C d.hearth.a d :=
  (if_neg fun h => hc (h.2.symm.trans h.1.symm)).trans ((if_neg fun h => hc (h.symm.trans hab.symm)).trans
    ((if_neg fun h => hc h.symm).trans (if_pos hab)))

/-- A mend that gives the Hearth of d back. -/
theorem voteFix_mends {f : Field} {m : HCopy} {y : Dev} (hf : f ∈ fixFields) (hy : Wrote d y []) (hpd : d.pd 1 = false)
    (hall : (y.hearth.all fun _ => m) = d.hearth) :
    Wrote d (voteFix f m y) [(f, min (d.rd f + 1) 255), (HRT_EVENT.VOTE_FIX, 1)] ∧ (voteFix f m y).hearth = d.hearth := by
  obtain ⟨hfit, -⟩ := fixFields_fit f hf
  obtain ⟨hwrote, hhearth⟩ := voteFix_shows (d := y) m hf ((hy.pd (by decide) 1).trans hpd)
  rw [hy.rd hfit] at hwrote
  exact ⟨hy.append_apart hwrote rfl, hhearth.trans hall⟩

theorem hearthVoteFix_a {x : HCopy} (hrun : d.hearth.running = true) (hb : d.hearth.b = d.hearth.a)
    (hc : d.hearth.c = d.hearth.a) (hx : x ≠ d.hearth.a) (hpd : d.pd 1 = false) :
    Wrote d (hearthVoteFix 0 x d) [(HRT_VOTE_CNT.FIX_A, min (d.rd HRT_VOTE_CNT.FIX_A + 1) 255), (HRT_EVENT.VOTE_FIX, 1)] ∧
    (hearthVoteFix 0 x d).hearth = d.hearth := by
  have hvote : hearthVoteFix 0 x d = voteTaken d.frame (d.hearthMod fun h => { h with a := x }) :=
    if_pos ⟨hrun, hb.symm, hb.trans hc.symm⟩
  have hy : (d.hearthMod fun h => { h with a := x }).hearth = { d.hearth with a := x } := rfl
  have hwrote : Wrote d (d.hearthMod fun h => { h with a := x }) [] := (Wrote.refl d).hearthMod
  rw [hvote]
  generalize (d.hearthMod fun h => { h with a := x }) = y at hy hwrote ⊢
  rw [voteTaken_a (by rw [hy]; exact hb.trans hc.symm) (by rw [hy]; exact hb ▸ hx)]
  refine voteFix_mends (by simp [fixFields]) hwrote hpd ?_
  rw [hy]
  exact (congrArg (fun m => d.hearth.all fun _ => m) hb).trans (all_same hb hc)

theorem hearthVoteFix_b {x : HCopy} (hrun : d.hearth.running = true) (hb : d.hearth.b = d.hearth.a)
    (hc : d.hearth.c = d.hearth.a) (hx : x ≠ d.hearth.a) (hpd : d.pd 1 = false) :
    Wrote d (hearthVoteFix 1 x d) [(HRT_VOTE_CNT.FIX_B, min (d.rd HRT_VOTE_CNT.FIX_B + 1) 255), (HRT_EVENT.VOTE_FIX, 1)] ∧
    (hearthVoteFix 1 x d).hearth = d.hearth := by
  have hvote : hearthVoteFix 1 x d = voteTaken d.frame (d.hearthMod fun h => { h with b := x }) :=
    if_pos ⟨hrun, hb.symm, hb.trans hc.symm⟩
  have hy : (d.hearthMod fun h => { h with b := x }).hearth = { d.hearth with b := x } := rfl
  have hwrote : Wrote d (d.hearthMod fun h => { h with b := x }) [] := (Wrote.refl d).hearthMod
  rw [hvote]
  generalize (d.hearthMod fun h => { h with b := x }) = y at hy hwrote ⊢
  rw [voteTaken_b (by rw [hy]; exact hc.symm) (by rw [hy]; exact hx)]
  refine voteFix_mends (by simp [fixFields]) hwrote hpd ?_
  rw [hy]
  exact all_same hb hc

theorem hearthVoteFix_c {x : HCopy} (hrun : d.hearth.running = true) (hb : d.hearth.b = d.hearth.a)
    (hc : d.hearth.c = d.hearth.a) (hx : x ≠ d.hearth.a) (hpd : d.pd 1 = false) :
    Wrote d (hearthVoteFix 2 x d) [(HRT_VOTE_CNT.FIX_C, min (d.rd HRT_VOTE_CNT.FIX_C + 1) 255), (HRT_EVENT.VOTE_FIX, 1)] ∧
    (hearthVoteFix 2 x d).hearth = d.hearth := by
  have hvote : hearthVoteFix 2 x d = voteTaken d.frame (d.hearthMod fun h => { h with c := x }) :=
    if_pos ⟨hrun, hb.symm, hb.trans hc.symm⟩
  have hy : (d.hearthMod fun h => { h with c := x }).hearth = { d.hearth with c := x } := rfl
  have hwrote : Wrote d (d.hearthMod fun h => { h with c := x }) [] := (Wrote.refl d).hearthMod
  rw [hvote]
  generalize (d.hearthMod fun h => { h with c := x }) = y at hy hwrote ⊢
  rw [voteTaken_c (by rw [hy]; exact hb.symm) (by rw [hy]; exact hx)]
  refine voteFix_mends (by simp [fixFields]) hwrote hpd ?_
  rw [hy]
  exact all_same hb hc

/-! ### No majority -/

theorem penalty_beyond (k : Nat) : Beyond d (penalty k d) := .ite (Beyond.refl d).wr (.refl d)

theorem penalty_stands {P : Field → Prop} {k : Nat} (h : Free P (SHD_PENj.PEN (k / 4))) : Stands P d (penalty k d) :=
  .ite ((Stands.refl P d).wr h) (.refl P d)

theorem hrtEnter_stands {P : Field → Prop} {st : Nat} (h : ∀ f ∈ [HRT_STATUS.STATE, HRT_EVENT.STATE_CHG, HRT_STATUS.TRACEABLE], Free P f) :
    Stands P d (hrtEnter st d) := by
  have hchg : Stands P d ((d.wr HRT_STATUS.STATE st).evIf (d.rd HRT_STATUS.STATE != st) HRT_EVENT.STATE_CHG) :=
    ((Stands.refl P d).wr (h _ (by simp))).evIf (h _ (by simp))
  exact Stands.parts (.ite (hchg.wrB (h _ (by simp))) (.ite hchg (hchg.wrB (h _ (by simp))))) rfl rfl

theorem hrtEnter_state {st : Nat} (hst : st < 8) : (hrtEnter st d).rd HRT_STATUS.STATE = st := by
  unfold hrtEnter
  extract_lets old x y z
  have hx : x.rd HRT_STATUS.STATE = st := (rd_wr_same d HRT_STATUS.STATE st (by decide)).trans (Nat.mod_eq_of_lt hst)
  have hy : Stands (fun f => f = HRT_STATUS.STATE) x y := (Stands.refl _ x).evIf (by rintro _ rfl; decide)
  have hz : Stands (fun f => f = HRT_STATUS.STATE) x z :=
    .ite (hy.wrB (by rintro _ rfl; decide)) (.ite hy (hy.wrB (by rintro _ rfl; decide)))
  exact (hz.rd rfl).trans hx

theorem Beyond.hearth (h : Beyond d e) : e.hearth = d.hearth := h.part Dev.hearth fun _ _ _ => rfl

/-- A discipline state entered leaves the copies. -/
theorem hrtEnter_hearth (st : Nat) : (hrtEnter st d).hearth =
    { d.hearth with acqRun := 0, holdFr := 0, wdogFr := if st = 2 then 0 else d.hearth.wdogFr } := by
  unfold hrtEnter
  extract_lets old x y z
  have hz : Beyond d z := .ite (Beyond.wrB (.evIf (Beyond.refl d).wr)) (.ite (.evIf (Beyond.refl d).wr)
    (Beyond.wrB (.evIf (Beyond.refl d).wr)))
  rw [hearthMod_hearth, hz.hearth]

/-- The device of a lost majority: copy A in all copies, counted and reported (Table 2.3). -/
def noMajority (d : Dev) : Dev := penalty 11 (((takeCopyA d).sat HRT_VOTE_CNT.NOMAJ).ev HRT_EVENT.HEARTH_FAULT)

theorem noMajority_shows : (noMajority d).rd HRT_EVENT.HEARTH_FAULT = 1 ∧
    (noMajority d).rd HRT_STATUS.STATE = d.rd HRT_STATUS.STATE ∧
    (noMajority d).hearth = d.hearth.all fun _ => d.hearth.a := by
  have hev := rd_wr_same ((takeCopyA d).sat HRT_VOTE_CNT.NOMAJ) HRT_EVENT.HEARTH_FAULT 1 (by decide)
  have htake : Stands (fun f => f = HRT_STATUS.STATE) d (((takeCopyA d).sat HRT_VOTE_CNT.NOMAJ).ev HRT_EVENT.HEARTH_FAULT) :=
    Stands.ev (.sat (.wr (.wr (.parts (.refl _ d) rfl rfl) (by rintro _ rfl; decide)) (by rintro _ rfl; decide))
      (by rintro _ rfl; decide)) (by rintro _ rfl; decide)
  have hcopy : (((takeCopyA d).sat HRT_VOTE_CNT.NOMAJ).ev HRT_EVENT.HEARTH_FAULT).hearth =
      d.hearth.all fun _ => d.hearth.a := by
    rw [ev_hearth, sat_hearth, takeCopyA, wr_hearth, wr_hearth, hearthMod_hearth]
  have hpen (f : Field) (hf : Field.apart (SHD_PENj.PEN 2) f = true) (x : Dev) : (penalty 11 x).rd f = x.rd f :=
    (penalty_stands (P := fun g => g = f) (k := 11) (by rintro _ rfl; exact hf)).rd rfl
  exact ⟨(hpen _ (by decide) _).trans hev, (hpen _ (by decide) _).trans (htake.rd rfl), (penalty_beyond 11).hearth.trans hcopy⟩

/-- The Hearth in FAULT with copy A in all copies, before its parts follow. -/
def faulted (d : Dev) : Dev :=
  (((hrtEnter 4 (noMajority d)).hearthMod fun h => { h with loadedSince := false }).wrB HRT_STATUS.VALID false).wrB
    HRT_STATUS.TRACEABLE false

theorem faulted_hearth : (faulted d).hearth.a = d.hearth.a ∧ (faulted d).hearth.b = d.hearth.a ∧
    (faulted d).hearth.c = d.hearth.a ∧ (faulted d).hearth.loadedSince = false := by
  obtain ⟨-, -, hcopy⟩ := noMajority_shows (d := d)
  rw [faulted, wrB_hearth, wrB_hearth, hearthMod_hearth, hrtEnter_hearth, hcopy]
  exact ⟨rfl, rfl, rfl, rfl⟩

theorem faulted_shows : (faulted d).rd HRT_STATUS.STATE = 4 ∧ (faulted d).rd HRT_STATUS.VALID = 0 ∧
    (faulted d).rd HRT_STATUS.TRACEABLE = 0 ∧ (faulted d).rd HRT_EVENT.HEARTH_FAULT = 1 := by
  obtain ⟨hev, -⟩ := noMajority_shows (d := d)
  have hstate : (hrtEnter 4 (noMajority d)).rd HRT_STATUS.STATE = 4 := hrtEnter_state (by decide)
  have hkeep : (hrtEnter 4 (noMajority d)).rd HRT_EVENT.HEARTH_FAULT = (noMajority d).rd HRT_EVENT.HEARTH_FAULT :=
    (hrtEnter_stands (P := fun f => f = HRT_EVENT.HEARTH_FAULT) (by rintro f hf _ rfl; revert f; decide)).rd rfl
  have hwrote := (((Wrote.refl (hrtEnter 4 (noMajority d))).hearthMod (g := fun h => { h with loadedSince := false })).wrB
    (f := HRT_STATUS.VALID) (b := false) (by decide) Nat.one_pos).wrB (f := HRT_STATUS.TRACEABLE) (b := false) (by decide)
    Nat.one_pos
  exact ⟨(hwrote.rd (by decide)).trans hstate, hwrote.nth 0 rfl, hwrote.nth 1 rfl,
    (hwrote.rd (by decide)).trans (hkeep.trans hev)⟩

/-- Three different copies: FAULT, and what follows it. -/
theorem voteTaken_fault {f0 : Nat} (hab : d.hearth.a ≠ d.hearth.b) (hbc : d.hearth.b ≠ d.hearth.c)
    (hac : d.hearth.a ≠ d.hearth.c) (hstate : d.rd HRT_STATUS.STATE ≠ 4) (hframe : d.frame = f0) :
    voteTaken f0 d = validChanged (faulted d) := by
  obtain ⟨-, hstay, -⟩ := noMajority_shows (d := d)
  have henter : (if (noMajority d).rd HRT_STATUS.STATE = 4 then noMajority d
      else (hrtEnter 4 (noMajority d)).hearthMod fun h => { h with loadedSince := false }) =
      (hrtEnter 4 (noMajority d)).hearthMod fun h => { h with loadedSince := false } := if_neg (by rwa [hstay])
  have hsame : (validChanged (faulted d)).frame = f0 := by
    have htime : (validChanged (faulted d)).hearth.a = d.hearth.a := Eq.trans validChanged_time faulted_hearth.1
    rw [← hframe, Dev.frame, Dev.frame, Dev.now, Dev.now, htime]
  have hlast (x y : Dev) (hx : x = validChanged (faulted d)) : (if x.frame ≠ f0 then y else x) = validChanged (faulted d) := by
    rw [hx, if_neg (not_not_intro hsame)]
  refine (if_neg fun h => hab h.1).trans ((if_neg hbc).trans ((if_neg hac).trans ((if_neg hab).trans (hlast _ _ ?_))))
  exact congrArg (fun x : Dev => validChanged ((x.wrB HRT_STATUS.VALID false).wrB HRT_STATUS.TRACEABLE false)) henter

/-! ### Pulses -/

theorem atMote_src (m : Nat) : (atMote m d).src = d.src := by
  unfold atMote
  dsimp only
  split <;> rfl

theorem ppsEdge_other {m : Nat} (hen : d.on HRT_PPS_IN_CFG.EN = true) (hsrc : d.src ≠ 3) : ppsEdge m d =
    (capStore (uns 68 (((atMote m d).nowExt : Int) - 48 - sgn 16 ((atMote m d).rd HRT_PPS_IN_CFG.COMP)) % 2 ^ 64)
      (atMote m d)).hearthMod fun h => { h with ppsFr := 0 } := by
  unfold ppsEdge
  extract_lets x ext y
  have hsame : y.src = d.src := by
    have hstands : y.hearth.srcStands = x.hearth.srcStands := by
      rw [show y = (capStore (ext % 2 ^ 64) x).hearthMod fun h => { h with ppsFr := 0 } from rfl, hearthMod_hearth, capStore,
        wr_hearth, wr_hearth]
    exact hstands.trans (atMote_src m)
  rw [if_pos hen, if_neg (by rwa [hsame])]

theorem capStore_wrote (t : Nat) : Wrote d (capStore t d)
    [(HRT_PPS_CAP_LO.CAP, t % 2 ^ 32), (HRT_PPS_CAP_HI.CAP, t / 2 ^ 32 % 2 ^ 32)] :=
  ((Wrote.refl d).wrMod (by decide)).wrMod
    (show fits HRT_PPS_CAP_HI.CAP [(HRT_PPS_CAP_LO.CAP, 0)] = true by decide)

theorem low_words (x : Nat) : x % 2 ^ 64 % 2 ^ 32 = x % 2 ^ 32 ∧ x % 2 ^ 64 / 2 ^ 32 % 2 ^ 32 = x / 2 ^ 32 % 2 ^ 32 := by omega

theorem ppsEdge_shows {m : Nat} (hen : d.on HRT_PPS_IN_CFG.EN = true) (hsrc : d.src ≠ 3) : Wrote d (ppsEdge m d)
      [(HRT_PPS_CAP_LO.CAP, uns 68 (((atMote m d).nowExt : Int) - 48 - sgn 16 (d.rd HRT_PPS_IN_CFG.COMP)) % 2 ^ 32),
        (HRT_PPS_CAP_HI.CAP, uns 68 (((atMote m d).nowExt : Int) - 48 - sgn 16 (d.rd HRT_PPS_IN_CFG.COMP)) / 2 ^ 32 % 2 ^ 32)] ∧
    (ppsEdge m d).hearth.ppsFr = 0 := by
  rw [ppsEdge_other hen hsrc, atMote_rd]
  generalize uns 68 (((atMote m d).nowExt : Int) - 48 - sgn 16 (d.rd HRT_PPS_IN_CFG.COMP)) = x
  obtain ⟨hlo, hhi⟩ := low_words x
  rw [← hlo, ← hhi]
  exact ⟨((capStore_wrote (d := atMote m d) (x % 2 ^ 64)).of_parts (by simp) (by simp)).hearthMod, by rw [hearthMod_hearth]⟩

theorem atClk_eq (k : Nat) : ∃ h : Hearth, atClk k d = { d with hearth := h } := by
  unfold atClk
  dsimp only
  split
  · exact ⟨_, rfl⟩
  · exact ⟨d.hearth, rfl⟩

theorem Wrote.atClk (k : Nat) (d : Dev) : Wrote d (atClk k d) [] := by
  obtain ⟨h, he⟩ := atClk_eq (d := d) k
  rw [he]
  exact (Wrote.refl d).parts rfl rfl

theorem atClk_fsync (k : Nat) : (atClk k d).hearth.fsyncEnd = d.hearth.fsyncEnd := by
  unfold Machine.atClk
  dsimp only
  split <;> rfl

theorem ppsOutEnd_shows {k : Nat} (hend : d.hearth.ppsEnd = some k) (hdue : d.clkDue k = true) :
    Wrote d (ppsOutEnd d) [] ∧ (ppsOutEnd d).hearth.ppsOn = false ∧ (ppsOutEnd d).hearth.ppsActive = false := by
  have hcode : ppsOutEnd d = (Machine.atClk k d).hearthMod fun h => { h with ppsOn := false, ppsEnd := none } := by
    unfold ppsOutEnd
    rw [hend]
    exact if_pos (of_decide_eq_true hdue)
  rw [hcode]
  exact ⟨(Wrote.atClk k d).hearthMod, rfl, rfl⟩

theorem fsyncEnd_shows (hon : d.hearth.fsyncOn = true) (hdue : d.clkDue d.hearth.fsyncEnd = true) :
    Wrote d (fsyncEnd d) [] ∧ (fsyncEnd d).hearth.fsyncOn = false ∧ (fsyncEnd d).hearth.fsyncActive = false := by
  have hcode : fsyncEnd d = (Machine.atClk d.hearth.fsyncEnd d).hearthMod fun h => { h with fsyncOn := false } :=
    (if_pos hon).trans (if_pos (by rw [atClk_fsync]; exact of_decide_eq_true hdue))
  rw [hcode]
  exact ⟨(Wrote.atClk _ d).hearthMod, rfl, rfl⟩

/-! ### The next frame -/

/-- A quotient rounded up is the least that covers. -/
theorem ceilDiv_mul {x p : Int} (hx : 0 < x) (hp : 0 < p) : x ≤ ceilDiv x p * p ∧ (ceilDiv x p : Int) * p < x + p := by
  have hcast : (ceilDiv x p : Int) = (x + p - 1) / p := Int.toNat_of_nonneg (Int.ediv_nonneg (by omega) hp.le)
  have hdiv := Int.ediv_mul_add_emod (x + p - 1) p
  have hmod := Int.emod_lt_of_pos (x + p - 1) hp
  have hnonneg := Int.emod_nonneg (x + p - 1) hp.ne'
  rw [hcast]
  omega

/-- How far the first CLK at or after a mote lies beyond it. -/
theorem clkTo_covers {h : HCopy} {mt : Nat} (hmt : 0 < mt) (hfrac : h.frac < 2 ^ 32) (hrate : h.rate.natAbs ≤ 13743895) :
    ∃ k : Nat, ((h.frac : Int) + h.clkTo 0 mt * h.perClk) / 2 ^ 32 = mt + k ∧ k ≤ 16 := by
  have hclk : h.clkTo 0 mt = ceilDiv (mt * 2 ^ 32 - h.frac) (max 1 (h.perClk + 0)) := by
    unfold HCopy.clkTo
    exact if_pos (Or.inr rfl)
  have hper : h.perClk = 16 * 2 ^ 32 + h.rate := rfl
  rw [hclk, Int.add_zero, max_eq_right (by omega)]
  obtain ⟨hlo, hhi⟩ := ceilDiv_mul (x := mt * 2 ^ 32 - h.frac) (p := h.perClk) (by omega) (by omega)
  generalize (ceilDiv (mt * 2 ^ 32 - h.frac) h.perClk : Int) * h.perClk = acc at hlo hhi ⊢
  exact ⟨((h.frac + acc) / 2 ^ 32 - mt).toNat, by omega, by omega⟩

theorem run_ext {h : HCopy} {n : Nat} :
    ((h.run 0 n).ext : Int) = ((h.ext : Int) + ((h.frac : Int) + n * h.perClk) / 2 ^ 32) % 2 ^ 68 := by
  have hrun : (h.run 0 n).ext = (h.put ((h.ext : Int) + ((h.frac : Int) + n * h.perClk + 0) / 2 ^ 32)).ext := rfl
  rw [hrun, put_ext, Int.add_zero]

theorem slewOver_hearth : ∃ i : Int, (slewOver d).hearth = { d.hearth with slewInc := i } := by
  unfold slewOver
  split
  · exact ⟨0, by rw [ev_hearth, wrB_hearth, hearthMod_hearth]⟩
  · exact ⟨_, rfl⟩

theorem toNextFrame_a (hslew : d.hearth.slewInc = 0) :
    (toNextFrame d).hearth.a = d.hearth.a.run 0 (d.hearth.a.clkTo 0 (frMt - d.now % frMt)) := by
  unfold toNextFrame
  dsimp only
  rw [hslew]
  obtain ⟨i, hi⟩ := slewOver_hearth (d := advance (d.hearth.a.clkTo 0 (frMt - d.now % frMt)) d)
  rw [hi, advance_hearth, hslew]
  rfl

theorem slewOver_sram : (slewOver d).sram = d.sram := by
  have hstands : Stands (Beside [HRT_STATUS.SLEWING, HRT_EVENT.SLEW_DONE]) d (slewOver d) :=
    .ite (.ev (.wrB (.parts (.refl _ d) rfl rfl) fun _ hf => hf _ (by simp)) fun _ hf => hf _ (by simp)) (.refl _ d)
  obtain ⟨-, hsram⟩ := hstands
  exact hsram

/-- The frame after a time, k motes beyond its start. -/
theorem next_frame {t era x k : Nat} (hk : k ≤ 16)
    (hx : x = (era * 2 ^ 64 + t + (frMt - t % frMt) + k) % 2 ^ 68) :
    x % 2 ^ 64 % frMt = k ∧ x / frMt = ((era * 2 ^ 64 + t) / frMt + 1) % 2 ^ 48 := by
  unfold frMt at *
  omega

/-- With no slew the Hearth comes to the first CLK of the next era-extended frame. -/
theorem toNextFrame_shows (hfrac : d.hearth.a.frac < 2 ^ 32)
    (hrate : d.hearth.a.rate.natAbs ≤ 13743895) (hslew : d.hearth.slewInc = 0) : (toNextFrame d).now % frMt ≤ 16 ∧
    (toNextFrame d).frameExt = (d.frameExt + 1) % 2 ^ 48 ∧ (toNextFrame d).sram = d.sram := by
  have hmt : 0 < frMt - d.now % frMt := Nat.sub_pos_of_lt (Nat.mod_lt _ (by decide))
  obtain ⟨k, hk, hle⟩ := clkTo_covers (h := d.hearth.a) hmt hfrac hrate
  obtain ⟨-, hadvance⟩ := advance_stands (d := d) (d.hearth.a.clkTo d.hearth.slewInc (frMt - d.now % frMt))
  have hcome := run_ext (h := d.hearth.a) (n := d.hearth.a.clkTo 0 (frMt - d.now % frMt))
  rw [← toNextFrame_a hslew, hk] at hcome
  have hext : (toNextFrame d).hearth.a.ext = (d.hearth.a.era * 2 ^ 64 + d.hearth.a.t + (frMt - d.hearth.a.t % frMt) + k) % 2 ^ 68 := by
    have hcast : ((d.hearth.a.ext : Int) + (((frMt - d.now % frMt : Nat) : Int) + k)) % 2 ^ 68 =
        ((d.hearth.a.ext + (frMt - d.now % frMt) + k) % 2 ^ 68 : Nat) := by
      push_cast
      rw [Int.add_assoc]
    exact_mod_cast hcome.trans hcast
  obtain ⟨hmotes, hframe⟩ := next_frame hle hext
  have ht' : (toNextFrame d).hearth.a.t < 2 ^ 64 := by
    rw [toNextFrame_a hslew]
    exact Nat.mod_lt _ (by decide)
  have hnow : (toNextFrame d).hearth.a.ext % 2 ^ 64 = (toNextFrame d).now := by
    rw [HCopy.ext, Nat.mul_add_mod', Nat.mod_eq_of_lt ht', Dev.now]
  rw [hnow] at hmotes
  exact ⟨hmotes.trans_le hle, hframe, slewOver_sram.trans hadvance⟩

end

/-- Settles O4, one clause at a time. -/
theorem hearthVotePulsesAndFrames : Obligations.HearthVotePulsesAndFrames := by
  unfold Obligations.HearthVotePulsesAndFrames
  intro s
  refine ⟨fun x hrun hb hc hx hpd => ?_, fun x hrun hb hc hx hpd => ?_, fun x hrun hb hc hx hpd => ?_,
    fun a b c hrun hab hbc hac hframe hstate => ?_, fun m hen hsrc => ?_, fun k hend hdue => ?_, fun hon hdue => ?_,
    fun gpi hrun hboot _ _ hfrac hrate hslew => ?_⟩
  · exact does_run (f := hearthVoteFix 0 x) (fun _ => rfl) (hearthVoteFix_a (d := s.quiet) hrun hb hc hx hpd)
  · exact does_run (f := hearthVoteFix 1 x) (fun _ => rfl) (hearthVoteFix_b (d := s.quiet) hrun hb hc hx hpd)
  · exact does_run (f := hearthVoteFix 2 x) (fun _ => rfl) (hearthVoteFix_c (d := s.quiet) hrun hb hc hx hpd)
  · refine ends_run (f := hearthFault a b c) (fun _ => rfl)
      ⟨faulted (s.quiet.hearthMod fun h => { h with a := a, b := b, c := c }), ?_, ?_⟩
    · have hcode : hearthFault a b c s.quiet = voteTaken s.quiet.frame (s.quiet.hearthMod fun h => { h with a := a, b := b, c := c }) :=
        if_pos ⟨hrun, hab, hbc, hac⟩
      rw [hcode]
      exact voteTaken_fault hab hbc hac hstate hframe
    · obtain ⟨hst, hvalid, htrace, hev⟩ := faulted_shows (d := s.quiet.hearthMod fun h => { h with a := a, b := b, c := c })
      exact ⟨hst, hvalid, htrace, hev, faulted_hearth⟩
  · refine does_run (f := ppsEdge m) (fun _ => rfl) ?_
    rw [← atMote_nowExt m []]
    exact ppsEdge_shows (d := s.quiet) hen hsrc
  · exact does_run (f := ppsOutEnd) (fun _ => rfl) (ppsOutEnd_shows (d := s.quiet) hend (by rwa [clkDue_outs]))
  · exact does_run (f := fsyncEnd) (fun _ => rfl) (fsyncEnd_shows (d := s.quiet) hon (by rw [clkDue_outs]; exact hdue))
  · refine ends_run (f := frameTaken gpi.toNat) (fun _ => rfl) ⟨toNextFrame s.quiet, ?_, ?_⟩
    · have hidle : s.quiet.bootSt ≠ 6 := fun h => by
        have hboot' : s.quiet.booted = true := hboot
        have hst : s.quiet.rd RST_BOOT_STATUS.STATE = 6 := h
        rw [Dev.booted, hst] at hboot'
        exact absurd hboot' (by decide)
      rw [frameTaken, applyCome_idle hidle]
      exact if_pos hrun
    · exact toNextFrame_shows (d := s.quiet) hfrac hrate hslew

end Sys2Proof.Machine
end

section
/-!
PROOFS. Gate engines and fences as other units see them: what a change of engine n moves, the cause bytes of SHD_FENCE_STAT,
and what a fence leaves alone (R198, R380 to R383).
-/

namespace Sys2Proof.Machine

section
variable {P : Field → Prop} {d e : Dev} {n : Nat}

/-! ### Channels and their engines -/

/-- A part of a channel that a change leaves alone. -/
theorem chMod_keeps {α : Type} (π : Chan → α) {m : Nat} {g : Chan → Chan} (h : ∀ c, π (g c) = π c) :
    π ((d.chMod n g).ch m) = π (d.ch m) := by
  simp only [Dev.ch, Dev.chMod, List.getD_eq_getElem?_getD, List.getElem?_modify, Option.map_eq_map]
  cases d.chan[m]? with
  | none => rfl
  | some c =>
    by_cases hm : n = m
    · simp [hm, h]
    · simp [hm]

/-- A part of a channel that no gate engine moves. -/
def EngineFree {α : Type} (π : Chan → α) : Prop :=
  ∀ (c : Chan) (x y z : GateCopy) (l : List (Option Nat)), π { c with ga := x, gb := y, gc := z, closedFr := l } = π c

/-- What a change of engine n may write. -/
def gateFields (n : Nat) : List Field :=
  [CHn_GATE_STATUS.GSTATE n, CHn_GATE_STATUS.OPER_BANK n, CHn_GATE_STATUS.HAVE_LIST n, CHn_GATE_STATUS.GATES n,
    CHn_GATE_STATUS.ENTRY n, CHn_GATE_STATUS.HOLD n, CHn_PREEMPT_STATUS.HOLD n, CHn_GATE_EVENT.FALLBACK_ENTER n,
    CHn_GATE_COMMIT_STAT.RESULT n, CHn_GATE_SWAP_T_LO.T n, CHn_GATE_SWAP_T_HI.T n]

theorem gateShow_beyond : Beyond d (gateShow n d) := (Beyond.refl d).wr.wr.wrB.wr.wr.wrB.wrB

theorem gateShow_stands (hP : ∀ f ∈ gateFields n, Free P f) : Stands P d (gateShow n d) :=
  ((((((Stands.refl P d).wr (hP _ (by simp [gateFields]))).wr (hP _ (by simp [gateFields]))).wrB
    (hP _ (by simp [gateFields]))).wr (hP _ (by simp [gateFields]))).wr (hP _ (by simp [gateFields]))).wrB
    (hP _ (by simp [gateFields])) |>.wrB (hP _ (by simp [gateFields]))

theorem setGate_stands {g : GateCopy} (hP : ∀ f ∈ gateFields n, Free P f) : Stands P d (setGate n g d) := by
  unfold setGate setGateAt
  exact (Stands.chMod (.refl P d)).trans (gateShow_stands hP)

theorem setGate_length {g : GateCopy} : (setGate n g d).chan.length = d.chan.length :=
  (congrArg List.length gateShow_beyond.chan).trans (chan_length _)

theorem setGate_keeps {α : Type} {π : Chan → α} (hπ : EngineFree π) {g : GateCopy} (m : Nat) :
    π ((setGate n g d).ch m) = π (d.ch m) := by
  rw [setGate, setGateAt, gateShow_beyond.ch]
  exact chMod_keeps π fun c => hπ c _ _ _ _

theorem setGate_gate {g : GateCopy} (h : n < d.chan.length) : (setGate n g d).gate n = g := by
  rw [Dev.gate, setGate, setGateAt, gateShow_beyond.ch, ch_chMod h]

theorem gateFallback_stands (hP : ∀ f ∈ gateFields n, Free P f) : Stands P d (gateFallback n d) := by
  have hev : Stands P d (d.ev (CHn_GATE_EVENT.FALLBACK_ENTER n)) := (Stands.refl P d).ev (hP _ (by simp [gateFields]))
  unfold gateFallback
  exact .ite (.refl P d) (.trans (.ite (hev.wr (hP _ (by simp [gateFields]))) hev) (setGate_stands hP))

/-- Before its engine changes, a fallback writes registers alone. -/
theorem gateFallback_shape : gateFallback n d = d ∧ (d.gate n).st = 0 ∨
    ∃ x g, Beyond d x ∧ gateFallback n d = setGate n g x ∧ g.st = 0 ∧ g.oper = (d.gate n).oper := by
  by_cases h : (d.gate n).st = 0
  · exact .inl ⟨if_pos h, h⟩
  · exact .inr ⟨_, _, .ite (Beyond.refl d).ev.wr (Beyond.refl d).ev, if_neg h, rfl, rfl⟩

theorem gateFallback_length : (gateFallback n d).chan.length = d.chan.length := by
  rcases gateFallback_shape (n := n) (d := d) with ⟨h, -⟩ | ⟨x, g, hx, h, -⟩
  · rw [h]
  · rw [h, setGate_length, hx.chan]

theorem gateFallback_keeps {α : Type} {π : Chan → α} (hπ : EngineFree π) (m : Nat) :
    π ((gateFallback n d).ch m) = π (d.ch m) := by
  rcases gateFallback_shape (n := n) (d := d) with ⟨h, -⟩ | ⟨x, g, hx, h, -⟩
  · rw [h]
  · rw [h, setGate_keeps hπ, hx.ch]

theorem gateFallback_st (h : n < d.chan.length) : ((gateFallback n d).gate n).st = 0 := by
  rcases gateFallback_shape (n := n) (d := d) with ⟨hsame, hst⟩ | ⟨x, g, hx, hset, hst, -⟩
  · rwa [hsame]
  · rw [hset, setGate_gate (by rwa [hx.chan]), hst]

theorem gateForgets_stands (hP : ∀ f ∈ gateFields n, Free P f) : Stands P d (gateForgets n d) := setGate_stands hP

theorem gateRearm_stands (hP : ∀ f ∈ gateFields n, Free P f) : Stands P d (gateRearm n d) := by
  unfold gateRearm
  split
  · exact .ite (.wr (.wr (setGate_stands hP) (hP _ (by simp [gateFields]))) (hP _ (by simp [gateFields]))) (.refl P d)
  · exact .refl P d

theorem setGate_shd {g : GateCopy} : (setGate n g d).shd = d.shd := gateShow_beyond.part Dev.shd fun _ _ _ => rfl

theorem gateRearm_shd : (gateRearm n d).shd = d.shd := by
  unfold gateRearm
  split
  · rw [apply_ite Dev.shd, gateArm, showSwapT, wr_shd, wr_shd, setGate_shd, ite_self]
  · rfl

/-! ### The bytes of SHD_FENCE_STAT -/

theorem setBits_lt {x lo w v u : Nat} (hx : x < 2 ^ u) (h : lo + w ≤ u) : setBits x lo w v < 2 ^ u := by
  refine Nat.lt_pow_two_of_testBit _ fun i hi => ?_
  rw [testBit_setBits, if_neg (by omega)]
  exact Nat.testBit_lt_two_pow (hx.trans_le (Nat.pow_le_pow_right (by decide) hi))

/-- The cause bits of a byte whose high bit says whether the channel is still fencing. -/
theorem bits_cause {x lo c : Nat} (b : Bool) (hc : c < 128) : bits (setBits x lo 8 (c + 128 * b2n b)) lo 7 = c := by
  have hlow (y : Nat) : bits y lo 7 = bits y lo 8 % 128 := (Nat.mod_mod_of_dvd _ (by decide)).symm
  rw [hlow, bits_setBits_same]
  omega

theorem bit_fencing {x lo c : Nat} (b : Bool) (hc : c < 128) : bit (bits (setBits x lo 8 (c + 128 * b2n b)) lo 8) 7 = b := by
  rw [bits_setBits_same]
  cases b
  · simp [bit, b2n]; omega
  · simp [bit, b2n]; omega

theorem causes_congr (h : e.rd SHD_FENCE_STAT.CH = d.rd SHD_FENCE_STAT.CH) (k : Nat) : e.causes k = d.causes k := by
  rw [Dev.causes, Dev.causes, h]

theorem causes_lt (k : Nat) : d.causes k < 128 := bits_lt _ _ 7

/-- The word of SHD_FENCE_STAT with the byte of channel n written. -/
def causeWord (n c : Nat) (b : Bool) (d : Dev) : Nat := setBits (d.rd SHD_FENCE_STAT.CH) (8 * n) 8 (c + 128 * b2n b)

theorem causeWord_causes {c : Nat} {b : Bool} (hc : c < 128) (h : e.rd SHD_FENCE_STAT.CH = causeWord n c b d) :
    e.causes n = c := by
  rw [Dev.causes, h]
  exact bits_cause b hc

theorem causeWord_ne {c k : Nat} {b : Bool} (hk : k ≠ n) (h : e.rd SHD_FENCE_STAT.CH = causeWord n c b d) :
    e.causes k = d.causes k := by
  rw [Dev.causes, h]
  exact bits_setBits_disjoint _ _ _ _ _ _ (by omega)

theorem fenced_fits : ∀ n : Fin 4, fits (CHn_STATUS.FENCED n) [(SHD_FENCE_STAT.CH, 0)] = true := by decide

theorem causeWord_lt {c : Nat} {b : Bool} (n : Fin 4) : causeWord n c b d < 2 ^ SHD_FENCE_STAT.CH.w :=
  setBits_lt (rd_lt d SHD_FENCE_STAT.CH) (show 8 * n.val + 8 ≤ 32 by omega)

theorem setCauses_eq (n c : Nat) (b : Bool) (d : Dev) : setCauses n c b d =
    ((d.wr SHD_FENCE_STAT.CH (causeWord n c b d)).wrB (CHn_STATUS.FENCED n) (c != 0)).chMod n
      fun x => { x with fencing := b } := rfl

theorem Wrote.chMod {ws : List (Field × Nat)} {g : Chan → Chan} (h : Wrote d e ws) : Wrote d (e.chMod n g) ws :=
  h.parts rfl rfl

theorem wrote_byte (n : Fin 4) {w : Nat} (hw : w < 2 ^ SHD_FENCE_STAT.CH.w) (b : Bool) (g : Chan → Chan) :
    Wrote d (((d.wr SHD_FENCE_STAT.CH w).wrB (CHn_STATUS.FENCED n) b).chMod n g)
      [(SHD_FENCE_STAT.CH, w), (CHn_STATUS.FENCED n, b2n b)] :=
  (((Wrote.refl d).wr (by decide) hw).wrB (f := CHn_STATUS.FENCED n) (b := b) (fenced_fits n) Nat.one_pos).chMod

theorem setCauses_wrote (n : Fin 4) (c : Nat) (b : Bool) (d : Dev) : Wrote d (setCauses n c b d)
    [(SHD_FENCE_STAT.CH, causeWord n c b d), (CHn_STATUS.FENCED n, b2n (c != 0))] := by
  rw [setCauses_eq]
  exact wrote_byte n (causeWord_lt n) _ _

theorem setCauses_now {c : Nat} {b : Bool} : (setCauses n c b d).now = d.now := by
  rw [Dev.now, Dev.now, setCauses_eq, chMod_hearth, wrB_hearth, wr_hearth]

theorem setCauses_beyond {c : Nat} {b : Bool} : ∃ x, Beyond d x ∧
    setCauses n c b d = x.chMod n fun c => { c with fencing := b } := ⟨_, (Beyond.refl d).wr.wrB, rfl⟩

theorem setCauses_keeps {α : Type} (π : Chan → α) {c m : Nat} {b : Bool} (hπ : ∀ x, π { x with fencing := b } = π x) :
    π ((setCauses n c b d).ch m) = π (d.ch m) := by
  obtain ⟨x, hx, h⟩ := setCauses_beyond (n := n) (d := d) (c := c) (b := b)
  rw [h, chMod_keeps π hπ, hx.ch]

theorem setCauses_length {c : Nat} {b : Bool} : (setCauses n c b d).chan.length = d.chan.length := by
  obtain ⟨x, hx, h⟩ := setCauses_beyond (n := n) (d := d) (c := c) (b := b)
  rw [h, chan_length, hx.chan]

theorem setCauses_fencing {c : Nat} {b : Bool} (hn : n < d.chan.length) : ((setCauses n c b d).ch n).fencing = b := by
  obtain ⟨x, hx, h⟩ := setCauses_beyond (n := n) (d := d) (c := c) (b := b)
  rw [h, ch_chMod (by rwa [hx.chan])]

/-! ### Frames of a fenced channel -/

theorem cutWire_shed (hP : ∀ f ∈ dropFields n 40, Free P f) (hbelow : Below P) :
    Shed P (d.chMod n fun c => { c with cur := none, pre := none }) (cutWire n d) :=
  Shed.foldl _ (.refl P _) fun _ _ _ hx => hx.trans (dropFrame_shed hP hbelow)

theorem dropQueues_shed {i status : Nat} (hP : ∀ f ∈ dropFields n i, Free P f) (hbelow : Below P) :
    Shed P (d.chMod n fun c => { c with queues := List.replicate 8 [], expq := [], ctlq := [], mpq := [] })
      (dropQueues n i status d) :=
  Shed.foldl _ (.refl P _) fun _ _ _ hx => hx.trans (dropFrame_shed hP hbelow)

/-- Without a gasp among the frames, the retention SRAM stands. -/
theorem dropQueues_sram {i status : Nat} (hP : ∀ f ∈ dropFields n i, Free P f) (hbelow : Below P)
    (hgasp : ∀ x ∈ (d.ch n).queues.flatMap id ++ (d.ch n).expq, x.gasp = false) : (dropQueues n i status d).sram = d.sram :=
  (Work.foldl (P := P) _ (.refl P (d.chMod n fun c => { c with queues := List.replicate 8 [], expq := [], ctlq := [], mpq := [] }))
    fun x hx _ he => he.trans (dropFrame_work (hgasp x hx) hP hbelow)).part Dev.sram fun _ _ _ _ _ => rfl

/-! ### A fence -/

/-- The report of a fence at t0 (SHD_FENCE_RPT). -/
def fenceReport (n cause : Nat) (d : Dev) : Dev :=
  let d := setCauses n (2 ^ cause) true d
  let d := (d.wr (SHD_FENCE_RPTn_T_LO.T n) d.now).wr (SHD_FENCE_RPTn_T_HI.T n) (d.now / 2 ^ 32)
  let d := (d.wr (SHD_FENCE_RPTn_TX.TX_DROPS n) 0).wr (SHD_FENCE_RPTn_RX.CAUSES n) (2 ^ cause)
  d.wr (SHD_FENCE_RPTn_RX.RX_DROPS n) (b2n (d.ch n).asm.isSome)

/-- A fence at t0 up to its wire: reported, reception dropped, the engine fallen back. -/
def fenceOpens (n cause : Nat) (d : Dev) : Dev :=
  let d := gateFallback n ((fenceReport n cause d).chMod n fun c => { c with asm := none, asmSkip := none, recalDue := false })
  if cause = 4 then gateForgets n d else d

/-- A further cause of a fenced channel. -/
def fenceNotes (n cause : Nat) (d : Dev) : Dev :=
  let d := setCauses n (putBit (d.causes n) cause true) (d.ch n).fencing d
  d.wr (SHD_FENCE_RPTn_RX.CAUSES n) (putBit (d.rd (SHD_FENCE_RPTn_RX.CAUSES n)) cause true)

/-- A further cause of a fenced channel, the engine with it. -/
def fenceAdds (n cause : Nat) (d : Dev) : Dev :=
  if cause = 4 then gateForgets n (fenceNotes n cause d) else fenceNotes n cause d

theorem fence_fresh {cause : Nat} (h : d.causes n = 0) : fence n cause d =
    dropQueues n 40 4 (if cause = 2 then cutWire n (fenceOpens n cause d) else fenceOpens n cause d) :=
  if_neg (not_not_intro h)

theorem fence_further {cause : Nat} (h : d.causes n ≠ 0) : fence n cause d =
    if cause = 2 ∧ ((fenceAdds n cause d).ch n).fencing then cutWire n (fenceAdds n cause d) else fenceAdds n cause d :=
  if_pos h


theorem report_fits : ∀ n : Fin 4,
    fits (SHD_FENCE_RPTn_T_LO.T n) [(SHD_FENCE_STAT.CH, 0), (CHn_STATUS.FENCED n, 0)] = true ∧
    fits (SHD_FENCE_RPTn_T_HI.T n) [(SHD_FENCE_STAT.CH, 0), (CHn_STATUS.FENCED n, 0), (SHD_FENCE_RPTn_T_LO.T n, 0)] = true ∧
    fits (SHD_FENCE_RPTn_TX.TX_DROPS n) [(SHD_FENCE_STAT.CH, 0), (CHn_STATUS.FENCED n, 0), (SHD_FENCE_RPTn_T_LO.T n, 0),
      (SHD_FENCE_RPTn_T_HI.T n, 0)] = true ∧
    fits (SHD_FENCE_RPTn_RX.CAUSES n) [(SHD_FENCE_STAT.CH, 0), (CHn_STATUS.FENCED n, 0), (SHD_FENCE_RPTn_T_LO.T n, 0),
      (SHD_FENCE_RPTn_T_HI.T n, 0), (SHD_FENCE_RPTn_TX.TX_DROPS n, 0)] = true ∧
    fits (SHD_FENCE_RPTn_RX.RX_DROPS n) [(SHD_FENCE_STAT.CH, 0), (CHn_STATUS.FENCED n, 0), (SHD_FENCE_RPTn_T_LO.T n, 0),
      (SHD_FENCE_RPTn_T_HI.T n, 0), (SHD_FENCE_RPTn_TX.TX_DROPS n, 0), (SHD_FENCE_RPTn_RX.CAUSES n, 0)] = true := by decide

theorem report_wrote (n : Fin 4) {w b : Nat} (h : Wrote d e [(SHD_FENCE_STAT.CH, w), (CHn_STATUS.FENCED n, b)])
    (t u c x : Nat) : Wrote d (((((e.wr (SHD_FENCE_RPTn_T_LO.T n) t).wr (SHD_FENCE_RPTn_T_HI.T n) u).wr
        (SHD_FENCE_RPTn_TX.TX_DROPS n) 0).wr (SHD_FENCE_RPTn_RX.CAUSES n) c).wr (SHD_FENCE_RPTn_RX.RX_DROPS n) x)
      [(SHD_FENCE_STAT.CH, w), (CHn_STATUS.FENCED n, b), (SHD_FENCE_RPTn_T_LO.T n, t % 2 ^ 32),
        (SHD_FENCE_RPTn_T_HI.T n, u % 2 ^ 32), (SHD_FENCE_RPTn_TX.TX_DROPS n, 0), (SHD_FENCE_RPTn_RX.CAUSES n, c % 2 ^ 7),
        (SHD_FENCE_RPTn_RX.RX_DROPS n, x % 2 ^ 16)] := by
  obtain ⟨hlo, hhi, htx, hcauses, hrx⟩ := report_fits n
  exact ((((h.wrMod hlo).wrMod hhi).wr (v := 0) htx (Nat.two_pow_pos _)).wrMod hcauses).wrMod hrx

theorem fenceReport_wrote (n : Fin 4) (cause : Nat) (d : Dev) : ∃ x, Wrote d (fenceReport n cause d)
    [(SHD_FENCE_STAT.CH, causeWord n (2 ^ cause) true d), (CHn_STATUS.FENCED n, b2n (2 ^ cause != 0)),
      (SHD_FENCE_RPTn_T_LO.T n, d.now % 2 ^ 32), (SHD_FENCE_RPTn_T_HI.T n, d.now / 2 ^ 32 % 2 ^ 32),
      (SHD_FENCE_RPTn_TX.TX_DROPS n, 0), (SHD_FENCE_RPTn_RX.CAUSES n, 2 ^ cause % 2 ^ 7),
      (SHD_FENCE_RPTn_RX.RX_DROPS n, x)] := by
  have hset := setCauses_wrote n (2 ^ cause) true d
  have hnow := setCauses_now (n := n) (d := d) (c := 2 ^ cause) (b := true)
  unfold fenceReport
  generalize setCauses n (2 ^ cause) true d = e at hset hnow ⊢
  rw [← hnow]
  exact ⟨_, report_wrote n hset e.now (e.now / 2 ^ 32) _ _⟩

/-- The registers that show a fence. -/
def fenceMarks (n : Nat) : List Field :=
  [SHD_FENCE_STAT.CH, CHn_STATUS.FENCED n, SHD_FENCE_RPTn_T_LO.T n, SHD_FENCE_RPTn_T_HI.T n, SHD_FENCE_RPTn_RX.CAUSES n]

theorem marks_apart : ∀ n : Fin 4, (∀ f ∈ gateFields n ++ dropFields n 40, ∀ g ∈ fenceMarks n, Field.apart f g = true) ∧
    ∀ g ∈ fenceMarks n, g.off < 0x238000 := by decide

theorem marks_gate (n : Fin 4) : ∀ f ∈ gateFields n, Free (· ∈ fenceMarks n) f := fun f hf =>
  (marks_apart n).1 f (List.mem_append_left _ hf)

theorem marks_drop (n : Fin 4) : ∀ f ∈ dropFields n 40, Free (· ∈ fenceMarks n) f := fun f hf =>
  (marks_apart n).1 f (List.mem_append_right _ hf)

theorem marks_below (n : Fin 4) : Below (· ∈ fenceMarks n) := (marks_apart n).2

/-- From its report on a fence moves no register that shows it. -/
theorem fenceOpens_stands {cause : Nat} (hP : ∀ f ∈ gateFields n, Free P f) :
    Stands P (fenceReport n cause d) (fenceOpens n cause d) := by
  have hback : Stands P (fenceReport n cause d) (gateFallback n ((fenceReport n cause d).chMod n fun c =>
      { c with asm := none, asmSkip := none, recalDue := false })) :=
    (Stands.chMod (.refl P _)).trans (gateFallback_stands hP)
  unfold fenceOpens
  exact .ite (hback.trans (gateForgets_stands hP)) hback

theorem fence_fresh_reads {cause : Nat} (h : d.causes n = 0) (hgate : ∀ f ∈ gateFields n, Free P f)
    (hdrop : ∀ f ∈ dropFields n 40, Free P f) (hbelow : Below P) (g : Field) (hg : P g) :
    (fence n cause d).rd g = (fenceReport n cause d).rd g := by
  rw [fence_fresh h, (dropQueues_shed hdrop hbelow).reads g hg, chMod_rd]
  split
  · rw [(cutWire_shed hdrop hbelow).reads g hg, chMod_rd, (fenceOpens_stands hgate).rd hg]
  · rw [(fenceOpens_stands hgate).rd hg]

theorem fence_further_reads {cause : Nat} (h : d.causes n ≠ 0) (hdrop : ∀ f ∈ dropFields n 40, Free P f) (hbelow : Below P)
    (g : Field) (hg : P g) : (fence n cause d).rd g = (fenceAdds n cause d).rd g := by
  rw [fence_further h]
  split
  · rw [(cutWire_shed hdrop hbelow).reads g hg, chMod_rd]
  · rfl

theorem adds_fits : ∀ n : Fin 4, fits (SHD_FENCE_RPTn_RX.CAUSES n) [(SHD_FENCE_STAT.CH, 0), (CHn_STATUS.FENCED n, 0)] = true := by
  decide

theorem setCauses_rd {c : Nat} {b : Bool} (n : Fin 4) : (setCauses n c b d).rd (SHD_FENCE_RPTn_RX.CAUSES n) =
    d.rd (SHD_FENCE_RPTn_RX.CAUSES n) := by
  refine (setCauses_wrote n c b d).rd ?_
  generalize causeWord n c b d = w
  exact (by decide : ∀ n : Fin 4, fits (SHD_FENCE_RPTn_RX.CAUSES n) [(SHD_FENCE_STAT.CH, 0), (CHn_STATUS.FENCED n, 0)] = true) n

theorem fenceNotes_wrote (n : Fin 4) {cause : Nat} (hc : cause < 7) (d : Dev) : Wrote d (fenceNotes n cause d)
    [(SHD_FENCE_STAT.CH, causeWord n (putBit (d.causes n) cause true) (d.ch n).fencing d),
      (CHn_STATUS.FENCED n, b2n (putBit (d.causes n) cause true != 0)),
      (SHD_FENCE_RPTn_RX.CAUSES n, putBit (d.rd (SHD_FENCE_RPTn_RX.CAUSES n)) cause true)] := by
  have hset := setCauses_wrote n (putBit (d.causes n) cause true) (d.ch n).fencing d
  have hread := setCauses_rd (d := d) (c := putBit (d.causes n) cause true) (b := (d.ch n).fencing) n
  unfold fenceNotes
  generalize setCauses n (putBit (d.causes n) cause true) (d.ch n).fencing d = e at hset hread ⊢
  generalize causeWord n (putBit (d.causes n) cause true) (d.ch n).fencing d = w at hset ⊢
  rw [← hread]
  exact hset.wr (adds_fits n) (putBit_lt (rd_lt e _) hc)

theorem fenceAdds_stands {cause : Nat} (hP : ∀ f ∈ gateFields n, Free P f) :
    Stands P (fenceNotes n cause d) (fenceAdds n cause d) := .ite (gateForgets_stands hP) (.refl P _)

theorem putBit_zero (k : Nat) : putBit 0 k true = 2 ^ k := by simp [putBit, setBits]

theorem putBit_ne {x k : Nat} : putBit x k true ≠ 0 := fun h => by
  have hbit := bit_putBit x k true
  rw [h] at hbit
  simp [bit] at hbit

/-- A cause that arises on a channel shows in its byte and in FENCED. -/
theorem fence_marks (n : Fin 4) {cause : Nat} (hc : cause < 7) :
    (∃ b, (fence n cause d).rd SHD_FENCE_STAT.CH = causeWord n (putBit (d.causes n) cause true) b d) ∧
    (fence n cause d).rd (CHn_STATUS.FENCED n) = 1 := by
  by_cases h : d.causes n = 0
  · obtain ⟨x, hreport⟩ := fenceReport_wrote n cause d
    have hreads := fence_fresh_reads (cause := cause) h (marks_gate n) (marks_drop n) (marks_below n)
    rw [hreads _ (by simp [fenceMarks]), hreads _ (by simp [fenceMarks]), h, putBit_zero]
    exact ⟨⟨true, hreport.nth 0 rfl⟩, (hreport.nth 1 rfl).trans (by simp [b2n])⟩
  · have hreads := fence_further_reads (cause := cause) h (marks_drop n) (marks_below n)
    have hnotes := fenceNotes_wrote n hc d
    have hstands := fenceAdds_stands (d := d) (cause := cause) (marks_gate n)
    rw [hreads _ (by simp [fenceMarks]), hreads _ (by simp [fenceMarks]), hstands.rd (by simp [fenceMarks]),
      hstands.rd (by simp [fenceMarks])]
    exact ⟨⟨_, hnotes.nth 0 rfl⟩, (hnotes.nth 1 rfl).trans (by simp [b2n, putBit_ne])⟩

theorem fence_causes (n : Fin 4) {cause : Nat} (hc : cause < 7) :
    (fence n cause d).causes n = putBit (d.causes n) cause true := by
  obtain ⟨⟨b, hword⟩, -⟩ := fence_marks (d := d) n hc
  exact causeWord_causes (putBit_lt (w := 7) (causes_lt _) hc) hword

theorem fence_causes_ne (n : Fin 4) {cause k : Nat} (hc : cause < 7) (hk : k ≠ n) :
    (fence n cause d).causes k = d.causes k := by
  obtain ⟨⟨b, hword⟩, -⟩ := fence_marks (d := d) n hc
  exact causeWord_ne hk hword

theorem fence_fenced (n : Fin 4) {cause : Nat} (hc : cause < 7) : (fence n cause d).rd (CHn_STATUS.FENCED n) = 1 :=
  (fence_marks n hc).2

/-- What a fence of channel n may write. -/
def fenceFields (n : Nat) : List Field :=
  SHD_FENCE_RPTn_TX.TX_DROPS n :: SHD_FENCE_RPTn_RX.RX_DROPS n :: (fenceMarks n ++ gateFields n ++ dropFields n 40)

/-- Registers that a fence does not show in. -/
theorem fence_rd (n : Fin 4) {cause : Nat} (hc : cause < 7) (hP : ∀ f ∈ fenceFields n, Free P f) (hbelow : Below P)
    (g : Field) (hg : P g) : (fence n cause d).rd g = d.rd g := by
  have hgate : ∀ f ∈ gateFields n, Free P f := fun f hf => hP f (by simp [fenceFields, hf])
  have hdrop : ∀ f ∈ dropFields n 40, Free P f := fun f hf => hP f (by simp [fenceFields, hf])
  by_cases h : d.causes n = 0
  · obtain ⟨x, hreport⟩ := fenceReport_wrote n cause d
    rw [fence_fresh_reads h hgate hdrop hbelow g hg]
    refine hreport.beside.rd fun f hf => hP f ?_ g hg
    simp only [List.map_cons, List.map_nil] at hf
    revert f
    simp [fenceFields, fenceMarks]
  · rw [fence_further_reads h hdrop hbelow g hg, (fenceAdds_stands hgate).rd hg]
    refine (fenceNotes_wrote n hc d).beside.rd fun f hf => hP f ?_ g hg
    simp only [List.map_cons, List.map_nil] at hf
    revert f
    simp [fenceFields, fenceMarks]

/-! ### The channel of a fence -/

/-- A part of a channel that neither its engine nor the marks of a fence at t0 move. -/
structure FenceFree {α : Type} (π : Chan → α) : Prop where
  engine : EngineFree π
  fencing : ∀ (c : Chan) b, π { c with fencing := b } = π c
  asm : ∀ c : Chan, π { c with asm := none, asmSkip := none, recalDue := false } = π c

theorem report_beyond {t u v c x : Nat} : Beyond e (((((e.wr (SHD_FENCE_RPTn_T_LO.T n) t).wr (SHD_FENCE_RPTn_T_HI.T n) u).wr
    (SHD_FENCE_RPTn_TX.TX_DROPS n) v).wr (SHD_FENCE_RPTn_RX.CAUSES n) c).wr (SHD_FENCE_RPTn_RX.RX_DROPS n) x) :=
  (Beyond.refl e).wr.wr.wr.wr.wr

theorem fenceReport_beyond {cause : Nat} : Beyond (setCauses n (2 ^ cause) true d) (fenceReport n cause d) := report_beyond

theorem fenceReport_length {cause : Nat} : (fenceReport n cause d).chan.length = d.chan.length := by
  rw [fenceReport_beyond.chan, setCauses_length]

theorem gateForgets_keeps {α : Type} {π : Chan → α} (hπ : EngineFree π) (m : Nat) :
    π ((gateForgets n d).ch m) = π (d.ch m) := setGate_keeps hπ m

theorem fenceOpens_keeps {α : Type} {π : Chan → α} (hπ : FenceFree π) {cause : Nat} (m : Nat) :
    π ((fenceOpens n cause d).ch m) = π (d.ch m) := by
  have hback : π ((gateFallback n ((fenceReport n cause d).chMod n fun c =>
      { c with asm := none, asmSkip := none, recalDue := false })).ch m) = π (d.ch m) := by
    rw [gateFallback_keeps hπ.engine, chMod_keeps π hπ.asm, fenceReport_beyond.ch, setCauses_keeps π fun x => hπ.fencing x true]
  unfold fenceOpens
  dsimp only
  split
  · rw [gateForgets_keeps hπ.engine, hback]
  · exact hback

/-- At t0 the channel is fencing, and a frame that it was receiving is gone. -/
theorem fenceOpens_ch {cause : Nat} (hn : n < d.chan.length) :
    ((fenceOpens n cause d).ch n).fencing = true ∧ ((fenceOpens n cause d).ch n).asm = none := by
  have hlen : n < (fenceReport n cause d).chan.length := by rwa [fenceReport_length]
  have hback {α : Type} {π : Chan → α} (hπ : EngineFree π) : π ((fenceOpens n cause d).ch n) =
      π { (fenceReport n cause d).ch n with asm := none, asmSkip := none, recalDue := false } := by
    unfold fenceOpens
    dsimp only
    split
    · rw [gateForgets_keeps hπ, gateFallback_keeps hπ, ch_chMod hlen]
    · rw [gateFallback_keeps hπ, ch_chMod hlen]
  have hmark : ((fenceReport n cause d).ch n).fencing = true := by rw [fenceReport_beyond.ch, setCauses_fencing hn]
  exact ⟨(hback (π := Chan.fencing) fun _ _ _ _ _ => rfl).trans hmark, hback (π := Chan.asm) fun _ _ _ _ _ => rfl⟩

theorem gateForgets_gate (hn : n < d.chan.length) : ((gateForgets n d).gate n).oper = none ∧
    ((gateForgets n d).gate n).st = (d.gate n).st := by
  rw [gateForgets, setGate_gate hn]
  exact ⟨rfl, rfl⟩

theorem fenceOpens_st {cause : Nat} (hn : n < d.chan.length) : ((fenceOpens n cause d).gate n).st = 0 := by
  have hlen : n < ((fenceReport n cause d).chMod n fun c => { c with asm := none, asmSkip := none, recalDue := false }).chan.length := by
    rwa [chan_length, fenceReport_length]
  have hback := gateFallback_st hlen
  unfold fenceOpens
  dsimp only
  split
  · rwa [(gateForgets_gate (by rwa [gateFallback_length])).2]
  · exact hback

theorem fenceOpens_oper (hn : n < d.chan.length) : ((fenceOpens n 4 d).gate n).oper = none := by
  unfold fenceOpens
  dsimp only
  rw [if_pos rfl]
  exact (gateForgets_gate (by rwa [gateFallback_length, chan_length, fenceReport_length])).1

theorem fenceOpens_length {cause : Nat} : (fenceOpens n cause d).chan.length = d.chan.length := by
  unfold fenceOpens
  dsimp only
  split
  · rw [gateForgets, setGate_length, gateFallback_length, chan_length, fenceReport_length]
  · rw [gateFallback_length, chan_length, fenceReport_length]

end

end Sys2Proof.Machine
end

section
/-!
PROOFS. O44: fences, their completion and their lift; lanes and remote faults (Tables 18.3 and 18.4, R158, R382).
-/

namespace Sys2Proof.Machine

section
variable {d e : Dev} {n : Nat}

/-! ### A fence by software -/

theorem bit_putBit_self (x n : Nat) : bit (putBit x n true) n = true := bit_putBit x n true

theorem dropQueues_ch {i status : Nat} (hn : n < d.chan.length) : (dropQueues n i status d).ch n =
    { d.ch n with queues := List.replicate 8 [], expq := [], ctlq := [], mpq := [] } := by
  rw [(dropQueues_shed (P := fun _ => False) (fun _ _ _ h => h.elim) (fun _ h => h.elim)).ch, ch_chMod hn]

theorem cutWire_ch (hn : n < d.chan.length) : (cutWire n d).ch n = { d.ch n with cur := none, pre := none } := by
  rw [(cutWire_shed (P := fun _ => False) (fun _ _ _ h => h.elim) (fun _ h => h.elim)).ch, ch_chMod hn]

theorem cutWire_length : (cutWire n d).chan.length = d.chan.length := by
  rw [(cutWire_shed (P := fun _ => False) (fun _ _ _ h => h.elim) (fun _ h => h.elim)).chan, chan_length]

/-- The report of a fence at t0. -/
theorem fence_fresh_report (n : Fin 4) {cause : Nat} (h : d.causes n = 0) :
    (fence n cause d).rd (SHD_FENCE_RPTn_T_LO.T n) = d.now % 2 ^ 32 ∧
    (fence n cause d).rd (SHD_FENCE_RPTn_T_HI.T n) = d.now / 2 ^ 32 % 2 ^ 32 ∧
    (fence n cause d).rd (SHD_FENCE_RPTn_RX.CAUSES n) = 2 ^ cause % 2 ^ 7 := by
  obtain ⟨x, hreport⟩ := fenceReport_wrote n cause d
  have hreads := fence_fresh_reads (cause := cause) h (marks_gate n) (marks_drop n) (marks_below n)
  rw [hreads _ (by simp [fenceMarks]), hreads _ (by simp [fenceMarks]), hreads _ (by simp [fenceMarks])]
  exact ⟨hreport.nth 2 rfl, hreport.nth 3 rfl, hreport.nth 5 rfl⟩

theorem fence_soft (h : d.causes n = 0) : fence n 5 d = dropQueues n 40 4 (fenceOpens n 5 d) := by
  rw [fence_fresh h, if_neg (by decide)]

/-- A fence by software leaves the frame on the wire. -/
theorem fence_soft_ch (hn : n < d.chan.length) (h : d.causes n = 0) : ((fence n 5 d).ch n).fencing = true ∧
    ((fence n 5 d).ch n).asm = none ∧ (∀ k : Fin 8, ((fence n 5 d).ch n).queues.getD k [] = []) ∧
    ((fence n 5 d).ch n).expq = [] ∧ ((fence n 5 d).ch n).cur = (d.ch n).cur ∧ ((fence n 5 d).gate n).st = 0 := by
  obtain ⟨hfencing, hasm⟩ := fenceOpens_ch (cause := 5) hn
  rw [Dev.gate, fence_soft h, dropQueues_ch (by rwa [fenceOpens_length])]
  exact ⟨hfencing, hasm, fun k => List.getD_replicate _ k.isLt, rfl,
    fenceOpens_keeps (π := Chan.cur) ⟨fun _ _ _ _ _ => rfl, fun _ _ => rfl, fun _ => rfl⟩ n, fenceOpens_st hn⟩

theorem fenceReport_sram (n : Fin 4) {cause : Nat} : (fenceReport n cause d).sram = d.sram := by
  obtain ⟨x, hsram, -⟩ := fenceReport_wrote n cause d
  exact hsram

theorem fence_soft_sram (n : Fin 4) (h : d.causes n = 0)
    (hgasp : ((d.ch n).queues.flatMap id ++ (d.ch n).expq).all (fun x => !x.gasp) = true) : (fence n 5 d).sram = d.sram := by
  obtain ⟨-, hopen⟩ := fenceOpens_stands (d := d) (cause := 5) (marks_gate n)
  have hkeep {α : Type} (π : Chan → α) (hπ : FenceFree π) : π ((fenceOpens n 5 d).ch n) = π (d.ch n) := fenceOpens_keeps hπ n
  rw [fence_soft h, dropQueues_sram (marks_drop n) (marks_below n), hopen, fenceReport_sram]
  intro x hx
  rw [hkeep Chan.queues ⟨fun _ _ _ _ _ => rfl, fun _ _ => rfl, fun _ => rfl⟩,
    hkeep Chan.expq ⟨fun _ _ _ _ _ => rfl, fun _ _ => rfl, fun _ => rfl⟩] at hx
  simpa using List.all_eq_true.mp hgasp x hx

theorem fence_soft_further (h : d.causes n ≠ 0) : fence n 5 d = fenceNotes n 5 d := by
  rw [fence_further h, if_neg (fun hc => absurd hc.1 (by decide)), fenceAdds, if_neg (by decide)]

theorem fenceNotes_ch {cause : Nat} : (fenceNotes n cause d).ch n =
    (setCauses n (putBit (d.causes n) cause true) (d.ch n).fencing d).ch n := (Beyond.refl _).wr.ch n

/-! ### The fence is complete -/

/-- From d to e outputs and functions alone move; those that are there stay. -/
def Told (d e : Dev) : Prop :=
  ∃ o fs, e = { d with outs := o, host := { d.host with fns := fs } } ∧ fs.length = d.host.fns.length

theorem Told.refl (d : Dev) : Told d d := ⟨_, _, rfl, rfl⟩

theorem Told.trans {x : Dev} (h1 : Told d e) (h2 : Told e x) : Told d x := by
  obtain ⟨o1, f1, rfl, hl1⟩ := h1
  obtain ⟨o2, f2, rfl, hl2⟩ := h2
  exact ⟨_, _, rfl, hl2.trans hl1⟩

theorem Told.fnMod {f : Nat} {g : Fn → Fn} (h : Told d e) : Told d (e.fnMod f g) :=
  h.trans ⟨_, _, rfl, by simp⟩

theorem Told.msixSend {f v : Nat} (h : Told d e) : Told d (msixSend f v e) := by
  unfold Machine.msixSend
  dsimp only
  split
  · split
    · exact h.fnMod
    · exact h.trans ⟨_, _, rfl, rfl⟩
  · exact h

theorem Told.vfEvent {f k : Nat} (h : Told d e) : Told d (vfEvent f k e) := by
  unfold Machine.vfEvent
  dsimp only
  split
  · exact h
  · split
    · exact h.fnMod
    · exact h.fnMod.msixSend

theorem Told.rd (h : Told d e) (g : Field) : e.rd g = d.rd g := by
  obtain ⟨o, fs, rfl, -⟩ := h
  rfl

theorem Told.carriesTx (h : Told d e) (k f : Nat) : e.carriesTx k f = d.carriesTx k f := by
  obtain ⟨o, fs, rfl, -⟩ := h
  rfl

theorem Told.carriesRx (h : Told d e) (k f : Nat) : e.carriesRx k f = d.carriesRx k f := by
  obtain ⟨o, fs, rfl, -⟩ := h
  rfl

theorem Told.ch (h : Told d e) (k : Nat) : e.ch k = d.ch k := by
  obtain ⟨o, fs, rfl, -⟩ := h
  rfl

theorem Told.chan (h : Told d e) : e.chan = d.chan := by
  obtain ⟨o, fs, rfl, -⟩ := h
  rfl

theorem Told.stands (h : Told d e) (P : Field → Prop) : Stands P d e := by
  obtain ⟨o, fs, rfl, -⟩ := h
  exact ⟨fun _ _ => rfl, rfl⟩

theorem Told.length (h : Told d e) : e.host.fns.length = d.host.fns.length := by
  obtain ⟨o, fs, rfl, hlen⟩ := h
  exact hlen

theorem fn_fnMod {f : Nat} {g : Fn → Fn} (h : f < d.host.fns.length) : (d.fnMod f g).fn f = g (d.fn f) := by
  simp [Dev.fn, Dev.fnMod, Dev.hostMod, List.getD_eq_getElem?_getD, List.getElem?_eq_getElem h]

/-- A message sends no status. -/
theorem msixSend_status {f v : Nat} (k : Nat) : ((msixSend f v d).fn k).vfStatus = (d.fn k).vfStatus := by
  unfold msixSend
  dsimp only
  split
  · split
    · by_cases hk : k = f
      · subst hk
        by_cases hlen : k < d.host.fns.length
        · rw [fn_fnMod hlen]
        · simp [Dev.fn, Dev.fnMod, Dev.hostMod, List.getD_eq_getElem?_getD, List.getElem?_eq_none (Nat.not_lt.mp hlen)]
      · rw [fn_fnMod_ne d hk]
    · rfl
  · rfl

/-- After an event of function f its status bit is set, and no other status is touched. -/
theorem vfEvent_status {f k : Nat} (hf : f ≠ 0) (hlen : f < d.host.fns.length) : bit ((vfEvent f k d).fn f).vfStatus k = true := by
  unfold vfEvent
  by_cases hset : bit (d.fn f).vfStatus k = true
  · rw [if_pos (by simp [hset])]
    exact hset
  · have hmod : bit ((d.fnMod f fun g => { g with vfStatus := putBit g.vfStatus k true }).fn f).vfStatus k = true := by
      rw [fn_fnMod hlen]
      exact bit_putBit_self _ _
    rw [if_neg (by simp [hf, hset])]
    dsimp only
    split
    · exact hmod
    · rwa [msixSend_status]

theorem vfEvent_other {f k j : Nat} (hj : j ≠ f) : ((vfEvent f k d).fn j).vfStatus = (d.fn j).vfStatus := by
  unfold vfEvent
  dsimp only
  split
  · rfl
  · split
    · rw [fn_fnMod_ne d hj]
    · rw [msixSend_status, fn_fnMod_ne d hj]

/-- Every function whose frames the channel carries is told of the fence. -/
def fenceTells (n m : Nat) (d : Dev) : Dev :=
  forN m (fun k d => if d.carriesTx n (k + 1) || d.carriesRx n (k + 1) then vfEvent (k + 1) 3 d else d) d

theorem fenceTells_told (n m : Nat) (d : Dev) : Told d (fenceTells n m d) := by
  induction m with
  | zero => exact .refl d
  | succ m ih =>
    rw [fenceTells, forN_succ, ← fenceTells]
    split
    · exact ih.vfEvent
    · exact ih

theorem fenceTells_seen {m f : Nat} (hf : f < m) (hlen : f + 1 < d.host.fns.length)
    (hcarries : d.carriesTx n (f + 1) = true ∨ d.carriesRx n (f + 1) = true) :
    bit ((fenceTells n m d).fn (f + 1)).vfStatus 3 = true := by
  induction m with
  | zero => exact absurd hf (Nat.not_lt_zero f)
  | succ m ih =>
    have htold := fenceTells_told n m d
    rw [fenceTells, forN_succ, ← fenceTells, htold.carriesTx, htold.carriesRx]
    by_cases hfm : f = m
    · rw [← hfm] at htold ⊢
      rw [if_pos (by simpa using hcarries)]
      exact vfEvent_status (Nat.succ_ne_zero f) (by rwa [htold.length])
    · have hseen := ih (by omega)
      split
      · rwa [vfEvent_other (by omega)]
      · exact hseen

theorem fenceComplete_eq (h : ((d.ch n).fencing && (d.ch n).cur.isNone && (d.ch n).pre.isNone &&
    (d.ch n).queues.all (·.isEmpty) && (d.ch n).expq.isEmpty) = true) : fenceComplete n d =
    (setCauses n ((fenceTells n 15 d).causes n) false (fenceTells n 15 d)).evIf ((fenceTells n 15 d).faultFence n)
      SHD_EVENT.CH_FAULT := if_pos h

theorem complete_apart : ∀ n : Fin 4, fits SHD_EVENT.CH_FAULT [(SHD_FENCE_STAT.CH, 0), (CHn_STATUS.FENCED n, 0)] = true := by
  decide

theorem complete_wrote (n : Fin 4) {w b : Nat} (h : Wrote d e [(SHD_FENCE_STAT.CH, w), (CHn_STATUS.FENCED n, b)]) :
    Wrote d (e.ev SHD_EVENT.CH_FAULT) [(SHD_FENCE_STAT.CH, w), (CHn_STATUS.FENCED n, b), (SHD_EVENT.CH_FAULT, 1)] :=
  h.ev (complete_apart n) Nat.one_pos

/-- The byte of a completed fence. -/
theorem complete_byte (n : Fin 4) (d : Dev) (c : Bool) :
    ((setCauses n (d.causes n) false d).evIf c SHD_EVENT.CH_FAULT).rd SHD_FENCE_STAT.CH = causeWord n (d.causes n) false d ∧
    (c = true → ((setCauses n (d.causes n) false d).evIf c SHD_EVENT.CH_FAULT).rd SHD_EVENT.CH_FAULT = 1) ∧
    Stands (Beside [SHD_FENCE_STAT.CH, CHn_STATUS.FENCED n, SHD_EVENT.CH_FAULT]) d
      ((setCauses n (d.causes n) false d).evIf c SHD_EVENT.CH_FAULT) := by
  have hset := setCauses_wrote n (d.causes n) false d
  generalize setCauses n (d.causes n) false d = e at hset ⊢
  generalize causeWord n (d.causes n) false d = w at hset ⊢
  cases c with
  | false => exact ⟨hset.nth 0 rfl, nofun, hset.beside.widen (by simp)⟩
  | true => exact ⟨(complete_wrote n hset).nth 0 rfl, fun _ => (complete_wrote n hset).nth 2 rfl, (complete_wrote n hset).beside⟩

theorem evIf_beyond {c : Bool} {f : Field} : Beyond d (d.evIf c f) := (Beyond.refl d).evIf

theorem setCauses_host {c : Nat} {b : Bool} : (setCauses n c b d).host = d.host := by
  rw [setCauses_eq, chMod_host, wrB_host, wr_host]

/-- A fence that is complete (Table 18.4). -/
theorem fenceComplete_ends (n : Fin 4) (hfencing : (d.ch n).fencing = true) (hcur : (d.ch n).cur = none)
    (hpre : (d.ch n).pre = none) (hqueues : (d.ch n).queues = List.replicate 8 []) (hexp : (d.ch n).expq = [])
    (hfns : d.host.fns.length = 16) (hlen : d.chan.length = 4) :
    Stands (Beside [SHD_FENCE_STAT.CH, CHn_STATUS.FENCED n, SHD_EVENT.CH_FAULT]) d (fenceComplete n d) ∧
    ((fenceComplete n d).ch n).fencing = false ∧ (fenceComplete n d).causes n = d.causes n ∧
    bit (bits ((fenceComplete n d).rd SHD_FENCE_STAT.CH) (8 * n) 8) 7 = false ∧
    (d.faultFence n = true → (fenceComplete n d).rd SHD_EVENT.CH_FAULT = 1) ∧
    ∀ f : Fin 16, f ≠ 0 → (d.carriesTx n f = true ∨ d.carriesRx n f = true) →
      bit ((fenceComplete n d).fn f).vfStatus 3 = true := by
  have htold := fenceTells_told n 15 d
  have hcauses : (fenceTells n 15 d).causes n = d.causes n := causes_congr (htold.rd _) n
  have hfault : (fenceTells n 15 d).faultFence n = d.faultFence n := by rw [Dev.faultFence, Dev.faultFence, hcauses]
  obtain ⟨hbyte, hev, hstands⟩ := complete_byte n (fenceTells n 15 d) (d.faultFence n)
  rw [fenceComplete_eq (by simp [hfencing, hcur, hpre, hqueues, hexp]), hfault]
  refine ⟨(htold.stands _).trans hstands, ?_, ?_, ?_, hev, fun f hf hcarries => ?_⟩
  · rw [evIf_beyond.ch, setCauses_fencing (by rw [htold.chan, hlen]; exact n.isLt)]
  · rw [causeWord_causes (causes_lt _) hbyte, hcauses]
  · rw [hbyte]
    exact bit_fencing false (causes_lt _)
  · have hf1 : f.val = f.val - 1 + 1 := by have := Fin.val_ne_of_ne hf; simp at this; omega
    rw [Dev.fn, evIf_beyond.part Dev.host fun _ _ _ => rfl, setCauses_host, ← Dev.fn]
    rw [hf1] at hcarries ⊢
    exact fenceTells_seen (by omega) (by omega) hcarries

/-! ### A lift -/

theorem set_getD_false (l : List Bool) (k : Nat) : (l.set k false).getD k false = false := by
  simp only [List.getD_eq_getElem?_getD, List.getElem?_set_self']
  cases l[k]? <;> rfl

/-- A lift that is looked at (R382). -/
def liftTaken (n : Nat) (d : Dev) : Dev :=
  d.shdMod fun s => { s with lift := s.lift.set n false, armed := s.armed.set n false }

theorem liftTaken_shd : (liftTaken n d).shd.armed.getD n false = false ∧ (liftTaken n d).shd.lift.getD n false = false :=
  ⟨set_getD_false _ n, set_getD_false _ n⟩

theorem liftApply_refused (harmed : d.shd.armed.getD n false = true) (hc : d.causes n % 64 ≠ 0) (hok : d.liftOk n = false) :
    liftApply n d = (liftTaken n d).ev SHD_EVENT.LIFT_REFUSED := by
  unfold liftApply
  rw [if_pos harmed]
  exact (if_neg hc).trans (if_neg (by rw [← Bool.not_eq_true] at hok; exact hok))

theorem liftApply_done (harmed : d.shd.armed.getD n false = true) (hc : d.causes n % 64 ≠ 0) (hok : d.liftOk n = true)
    (htier : bit (d.causes n) 6 = false) : liftApply n d = unfence n ((liftTaken n d).ev SHD_EVENT.LIFT_DONE) := by
  unfold liftApply
  rw [if_pos harmed]
  exact (if_neg hc).trans ((if_pos hok).trans (if_neg (by rw [← Bool.not_eq_true] at htier; exact htier)))

theorem liftApply_tier (harmed : d.shd.armed.getD n false = true) (hc : d.causes n % 64 = 0) : liftApply n d = liftTaken n d := by
  unfold liftApply
  rw [if_pos harmed]
  exact if_pos hc

theorem low_of_cause {c : Nat} (h : bit c 2 = true ∨ bit c 3 = true) : c % 64 ≠ 0 := by
  simp only [bit, beq_iff_eq] at h
  omega

theorem Wrote.shdMod {ws : List (Field × Nat)} {g : Shd → Shd} (h : Wrote d e ws) : Wrote d (e.shdMod g) ws := h.parts rfl rfl

/-- A lift that is carried out leaves no cause. -/
theorem unfence_marks (n : Fin 4) : (unfence n d).rd SHD_FENCE_STAT.CH = causeWord n 0 false d ∧
    (unfence n d).rd (CHn_STATUS.FENCED n) = 0 := by
  have hset := setCauses_wrote n 0 false d
  have hstands : Stands (· ∈ fenceMarks n) (setCauses n 0 false d) (unfence n d) := gateRearm_stands (marks_gate n)
  rw [hstands.rd (by simp [fenceMarks]), hstands.rd (by simp [fenceMarks])]
  exact ⟨hset.nth 0 rfl, hset.nth 1 rfl⟩

/-- The blocks of the channels and of the Sheepdog hold all that a lift writes. -/
theorem lift_blocks : ∀ n : Fin 4, ∀ f ∈ SHD_FENCE_STAT.CH :: CHn_STATUS.FENCED n :: SHD_EVENT.LIFT_DONE :: gateFields n,
    f.off / 0x4000 ∈ [8, 9, 10, 11, 21] := by decide

theorem unfence_within (n : Fin 4) : Stands (Outside [8, 9, 10, 11, 21]) d (unfence n d) := by
  have hblock := lift_blocks n
  refine Stands.trans ⟨fun g hg => (setCauses_wrote n 0 false d).beside.rd fun f hf => ?_, ?_⟩
    (gateRearm_stands fun f hf => Free.inBlock (hblock f (by simp [hf])))
  · simp only [List.map_cons, List.map_nil, List.mem_cons, List.not_mem_nil, or_false] at hf
    exact Free.inBlock (hblock f (by rcases hf with rfl | rfl <;> simp)) g hg
  · obtain ⟨hsram, -⟩ := setCauses_wrote n 0 false d
    exact hsram

theorem done_apart : ∀ n : Fin 4, (∀ f ∈ gateFields n, Field.apart f SHD_EVENT.LIFT_DONE = true) ∧
    fits SHD_EVENT.LIFT_DONE [(SHD_FENCE_STAT.CH, 0), (CHn_STATUS.FENCED n, 0)] = true := by decide

theorem unfence_event (n : Fin 4) : (unfence n d).rd SHD_EVENT.LIFT_DONE = d.rd SHD_EVENT.LIFT_DONE := by
  obtain ⟨hgate, hfits⟩ := done_apart n
  have hstands : Stands (· = SHD_EVENT.LIFT_DONE) (setCauses n 0 false d) (unfence n d) :=
    gateRearm_stands fun f hf g hg => hg ▸ hgate f hf
  have hset := setCauses_wrote n 0 false d
  rw [hstands.rd rfl]
  generalize causeWord n 0 false d = w at hset
  exact hset.rd hfits

theorem unfence_shd : (unfence n d).shd = d.shd := by
  rw [unfence, gateRearm_shd, setCauses_eq, chMod_shd, wrB_shd, wr_shd]

theorem liftApply_lifts (n : Fin 4) (harmed : d.shd.armed.getD n false = true) (hc : d.causes n % 64 ≠ 0)
    (htier : bit (d.causes n) 6 = false) (hok : d.liftOk n = true) :
    Stands (Outside [8, 9, 10, 11, 21]) d (liftApply n d) ∧ (liftApply n d).causes n = 0 ∧
    (liftApply n d).rd (CHn_STATUS.FENCED n) = 0 ∧ (liftApply n d).rd SHD_EVENT.LIFT_DONE = 1 ∧
    (∀ k : Fin 4, k ≠ n → (liftApply n d).causes k = d.causes k) ∧ (liftApply n d).shd.armed.getD n false = false := by
  have hev := (Wrote.refl (liftTaken n d)).ev (f := SHD_EVENT.LIFT_DONE) (by decide) Nat.one_pos
  obtain ⟨harm, -⟩ := liftTaken_shd (n := n) (d := d)
  have hshd : ((liftTaken n d).ev SHD_EVENT.LIFT_DONE).shd = (liftTaken n d).shd := wr_shd _ _ _
  have hbase : Stands (Outside [8, 9, 10, 11, 21]) d ((liftTaken n d).ev SHD_EVENT.LIFT_DONE) :=
    Stands.ev (.parts (.refl _ d) rfl rfl) (Free.inBlock (by decide))
  have hword : ((liftTaken n d).ev SHD_EVENT.LIFT_DONE).rd SHD_FENCE_STAT.CH = d.rd SHD_FENCE_STAT.CH := hev.rd (by decide)
  rw [liftApply_done harmed hc hok htier]
  generalize (liftTaken n d).ev SHD_EVENT.LIFT_DONE = x at hev hshd hbase hword ⊢
  obtain ⟨hmark, hfenced⟩ := unfence_marks (d := x) n
  refine ⟨hbase.trans (unfence_within n), causeWord_causes (by decide) hmark, hfenced, (unfence_event n).trans (hev.nth 0 rfl),
    fun k hk => (causeWord_ne (Fin.val_ne_of_ne hk) hmark).trans (causes_congr hword k), ?_⟩
  rw [unfence_shd, hshd]
  exact harm

/-! ### Lanes -/

theorem unlock_fits : fits CLK_EVENT.LANE_UNLOCK [(CLK_STATUS.LANE_LOCK, 0)] = true := by decide

theorem laneUnlock_shows (n : Fin 4) {m : Nat} (hlane : d.bitOf RAT_DOM_STATUS.LANE_ON n = true)
    (hlock : d.bitOf CLK_STATUS.LANE_LOCK n = true) (hlen : d.chan.length = 4) : Wrote d (laneUnlock n m d)
      [(CLK_STATUS.LANE_LOCK, putBit (d.rd CLK_STATUS.LANE_LOCK) n false), (CLK_EVENT.LANE_UNLOCK, 1)] ∧
    ((laneUnlock n m d).ch n).unlockT = some (atMote m d).nowExt := by
  have hif : ((atMote m d).bitOf RAT_DOM_STATUS.LANE_ON n && (atMote m d).bitOf CLK_STATUS.LANE_LOCK n) = true := by
    rw [Dev.bitOf, Dev.bitOf, atMote_rd, atMote_rd, ← Dev.bitOf, ← Dev.bitOf, hlane, hlock, Bool.and_self]
  have hcode : laneUnlock n m d = (((atMote m d).putBitOf CLK_STATUS.LANE_LOCK n false).ev CLK_EVENT.LANE_UNLOCK).chMod n
      fun c => { c with unlockT := some (atMote m d).nowExt } := if_pos hif
  have hlock : putBit (d.rd CLK_STATUS.LANE_LOCK) n false < 2 ^ CLK_STATUS.LANE_LOCK.w := putBit_lt (rd_lt d _) n.isLt
  have hwrote := ((Wrote.atMote m d).wr (by decide) hlock).ev unlock_fits Nat.one_pos
  rw [hcode, Dev.putBitOf, atMote_rd]
  refine ⟨hwrote.chMod, ?_⟩
  rw [ch_chMod]
  rw [ev_chan, wr_chan, atMote_chan, hlen]
  exact n.isLt

theorem laneRelock_shows (n : Fin 4) (hlane : d.bitOf RAT_DOM_STATUS.LANE_ON n = true) (hlen : d.chan.length = 4) :
    Wrote d (laneRelock n d) [(CLK_STATUS.LANE_LOCK, putBit (d.rd CLK_STATUS.LANE_LOCK) n true)] ∧
    ((laneRelock n d).ch n).unlockT = none := by
  have hwrote := (Wrote.refl d).wr (f := CLK_STATUS.LANE_LOCK) (v := putBit (d.rd CLK_STATUS.LANE_LOCK) n true) (by decide)
    (putBit_lt (rd_lt d _) n.isLt)
  have hcode : laneRelock n d = (d.putBitOf CLK_STATUS.LANE_LOCK n true).chMod n fun c => { c with unlockT := none } := if_pos hlane
  rw [hcode]
  have hch := ch_chMod (d := d.putBitOf CLK_STATUS.LANE_LOCK n true) (n := n) (g := fun c => { c with unlockT := none })
    (by rw [putBitOf_chan, hlen]; exact n.isLt)
  exact ⟨hwrote.chMod, by rw [hch]⟩

/-! ### A lane unlocked for 8 fr -/

/-- A lane fence clears the wire and the time of its unlock. -/
theorem laneFence_eq {m t : Nat} (hlane : d.bitOf RAT_DOM_STATUS.LANE_ON n = true) (ht : (d.ch n).unlockT = some t)
    (hdue : t + 8 * frMt ≤ (atMote m d).nowExt) :
    laneFence n m d = fence n 2 ((atMote m d).chMod n fun c => { c with unlockT := none }) := by
  have hon : (atMote m d).bitOf RAT_DOM_STATUS.LANE_ON n = true := by rw [Dev.bitOf, atMote_rd]; exact hlane
  have hch : ((atMote m d).ch n).unlockT = some t := by rw [Dev.ch, atMote_chan]; exact ht
  unfold laneFence
  dsimp only
  rw [hch]
  exact if_pos (by rw [hon, decide_eq_true hdue, Bool.and_self])

theorem fence_lane_fresh (h : d.causes n = 0) : fence n 2 d = dropQueues n 40 4 (cutWire n (fenceOpens n 2 d)) := by
  rw [fence_fresh h, if_pos rfl]

theorem fenceAdds_lane_ch : (fenceAdds n 2 d).ch n = (setCauses n (putBit (d.causes n) 2 true) (d.ch n).fencing d).ch n := by
  rw [fenceAdds, if_neg (by decide), fenceNotes_ch]

theorem fence_lane_unlockT (hn : n < d.chan.length) : ((fence n 2 d).ch n).unlockT = (d.ch n).unlockT := by
  by_cases h : d.causes n = 0
  · rw [fence_lane_fresh h, dropQueues_ch (by rwa [cutWire_length, fenceOpens_length]), cutWire_ch (by rwa [fenceOpens_length])]
    exact fenceOpens_keeps (π := Chan.unlockT) ⟨fun _ _ _ _ _ => rfl, fun _ _ => rfl, fun _ => rfl⟩ n
  · have hlen : n < (fenceAdds n 2 d).chan.length := by
      have hnotes : Beyond _ (fenceNotes n 2 d) := (Beyond.refl (setCauses n (putBit (d.causes n) 2 true) (d.ch n).fencing d)).wr
      rwa [fenceAdds, if_neg (by decide), hnotes.chan, setCauses_length]
    have hkeep : ((fenceAdds n 2 d).ch n).unlockT = (d.ch n).unlockT := by
      rw [fenceAdds_lane_ch]
      exact setCauses_keeps Chan.unlockT fun _ => rfl
    rw [fence_further h]
    split
    · rw [cutWire_ch hlen]
      exact hkeep
    · exact hkeep

theorem fence_lane_wire (hn : n < d.chan.length) (h : d.causes n = 0) : ((fence n 2 d).ch n).cur = none ∧
    ((fence n 2 d).ch n).pre = none := by
  rw [fence_lane_fresh h, dropQueues_ch (by rwa [cutWire_length, fenceOpens_length]), cutWire_ch (by rwa [fenceOpens_length])]
  exact ⟨rfl, rfl⟩

theorem laneLost_wrote (b : Bool) : Wrote d (laneLost b d)
    [((if b then PEG_STATUS.LANE_B_UP else PEG_STATUS.LANE_A_UP), 0), (linkOk (if b then 0 else 1), 0)] := by
  have hfits : ∀ b : Bool, fits (if b then PEG_STATUS.LANE_B_UP else PEG_STATUS.LANE_A_UP) [] = true ∧
      fits (linkOk (if b then 0 else 1)) [((if b then PEG_STATUS.LANE_B_UP else PEG_STATUS.LANE_A_UP), 0)] = true ∧
      0 < (if b then PEG_STATUS.LANE_B_UP else PEG_STATUS.LANE_A_UP).w ∧ 0 < (linkOk (if b then 0 else 1)).w := by decide
  obtain ⟨hup, hok, hw1, hw2⟩ := hfits b
  exact (((Wrote.refl d).wrB (b := false) hup hw1).wrB (b := false) hok hw2).parts rfl rfl

/-- The port of a lane that lost sync starts over. -/
theorem laneLost_port (b : Bool) (hports : d.peg.ports.length = 2) :
    ((laneLost b d).peg.ports.getD (if b then 0 else 1) {}).rtts = [] ∧
    ((laneLost b d).peg.ports.getD (if b then 0 else 1) {}).wait = false := by
  have hlt : (if b then 0 else 1) < d.peg.ports.length := by rw [hports]; cases b <;> decide
  have hcode : (laneLost b d).peg.ports = d.peg.ports.modify (if b then 0 else 1) fun x => { x with rtts := [], wait := false } := rfl
  rw [hcode, List.getD_eq_getElem?_getD, List.getElem?_modify_eq, List.getElem?_eq_getElem hlt]
  exact ⟨rfl, rfl⟩

theorem remote_fits : ∀ n : Fin 4, fits (CHn_STATUS.REMOTE_FAULT n) [] = true ∧
    fits (CHn_EVENT.REMOTE_FAULT n) [(CHn_STATUS.REMOTE_FAULT n, 0)] = true := by decide

end

/-- Settles O44, one clause at a time. -/
theorem fences : Obligations.Fences := by
  unfold Obligations.Fences
  intro s
  refine ⟨fun n ht hc hlen => ?_, fun n ht hc hlen => ?_, fun n hfencing hcur hpre hq hexp hfns hlen => ?_, fun n ht => ?_,
    fun n harmed hc htier hlock hlb hfencing hlen => ?_, fun n harmed hbad => ?_, fun n harmed hc => ?_,
    fun n m hlane hlock hlen => ?_, fun n hlane hlen => ?_, fun n m t hlane ht hdue hlen => ?_, fun n hoff hpcs => ?_,
    fun n => ?_, fun hports => ?_, fun hports => ?_, fun chB hon => ?_⟩
  · refine ends_soft (k := 1) (f := fence n 5) (fun _ => rfl) ht ?_
    have hn : n.val < s.quiet.chan.length := by rw [show s.quiet.chan.length = 4 from hlen]; exact n.isLt
    obtain ⟨hfencing, hasm, hq, hexp, hcur, hst⟩ := fence_soft_ch (d := s.quiet) hn hc
    obtain ⟨hlo, hhi, hcauses⟩ := fence_fresh_report (d := s.quiet) n (cause := 5) hc
    refine ⟨(fence_causes (d := s.quiet) n (by decide)).trans ?_, fence_fenced n (by decide), hfencing, hasm, hq, hexp, hcur,
      hlo, hhi, hcauses, hst, fun k hk => fence_causes_ne (d := s.quiet) n (by decide) (Fin.val_ne_of_ne hk),
      fence_soft_sram (d := s.quiet) n hc⟩
    rw [show s.quiet.causes n = 0 from hc, putBit_zero]
    rfl
  · refine ends_soft (k := 1) (f := fence n 5) (fun _ => rfl) ht ?_
    have hn : n.val < s.quiet.chan.length := by rw [show s.quiet.chan.length = 4 from hlen]; exact n.isLt
    have hnotes := fenceNotes_wrote n (cause := 5) (by decide) s.quiet
    have hcauses := fence_causes (d := s.quiet) n (cause := 5) (by decide)
    rw [fence_soft_further (d := s.quiet) hc] at hcauses ⊢
    refine ⟨hnotes.beside.only, hnotes.beside.2, hcauses, ?_, ?_, ?_⟩
    · rw [fenceNotes_ch, setCauses_fencing hn]
      rfl
    · rw [fenceNotes_ch]
      exact setCauses_keeps Chan.queues fun _ => rfl
    · rw [hnotes.nth 2 rfl]
      exact bit_putBit_self _ _
  · refine ends_run (f := fenceComplete n) (fun _ => rfl) ?_
    obtain ⟨hstands, hrest⟩ := fenceComplete_ends (d := s.quiet) n hfencing hcur hpre hq hexp hfns hlen
    exact ⟨hstands.only, hstands.2, hrest⟩
  · exact does_soft (k := 1) (f := liftWrite n) (fun _ => rfl) ht ⟨(Wrote.refl s.quiet).shdMod, rfl⟩
  · refine ends_run (f := liftApply n) (fun _ => rfl) ?_
    have hok : s.quiet.liftOk n = true := by
      have hlane : (!bit (s.dev.causes n) 2 || s.dev.bitOf CLK_STATUS.LANE_LOCK n) = true := by
        cases h : bit (s.dev.causes n) 2
        · rfl
        · exact hlock h
      have hloop : (!bit (s.dev.causes n) 3 || s.dev.lbResult n == 1) = true := by
        cases h : bit (s.dev.causes n) 3
        · rfl
        · exact beq_iff_eq.mpr (hlb h)
      have hopen : (!(s.dev.ch n).fencing) = true := by rw [hfencing]; rfl
      exact (congrArg₂ and (congrArg₂ and hlane hloop) hopen)
    obtain ⟨hstands, hrest⟩ := liftApply_lifts (d := s.quiet) n harmed hc htier hok
    exact ⟨hstands.within, hstands.2, hrest⟩
  · refine does_run (f := liftApply n) (fun _ => rfl) ?_
    have hok : s.quiet.liftOk n = false := by
      have hshut : ((!bit (s.dev.causes n) 2 || s.dev.bitOf CLK_STATUS.LANE_LOCK n) &&
          (!bit (s.dev.causes n) 3 || s.dev.lbResult n == 1)) = false := by
        rcases hbad with ⟨hbit, hlock⟩ | ⟨hbit, hlb⟩
        · rw [hbit, hlock]; rfl
        · rw [hbit, beq_eq_false_iff_ne.mpr hlb, Bool.and_eq_false_iff]
          exact .inr rfl
      exact congrArg (· && !(s.dev.ch n).fencing) hshut
    have hlow : s.quiet.causes n % 64 ≠ 0 := low_of_cause (hbad.imp And.left And.left)
    rw [liftApply_refused (d := s.quiet) harmed hlow hok]
    exact ⟨(Wrote.refl s.quiet).shdMod.ev (by decide) Nat.one_pos, rfl, liftTaken_shd⟩
  · refine does_run (f := liftApply n) (fun _ => rfl) ?_
    rw [liftApply_tier (d := s.quiet) harmed (by rw [show s.quiet.causes n = 64 from hc])]
    exact ⟨(Wrote.refl s.quiet).shdMod, rfl⟩
  · refine does_run (f := laneUnlock n m) (fun _ => rfl) ?_
    rw [← atMote_nowExt m []]
    exact laneUnlock_shows (d := s.quiet) n hlane hlock hlen
  · exact does_run (f := laneRelock n) (fun _ => rfl) (laneRelock_shows (d := s.quiet) n hlane hlen)
  · refine ends_run (f := laneFence n m) (fun _ => rfl) ?_
    rw [← atMote_nowExt m []] at hdue
    have hnow : (atMote m s.dev).now = (atMote m s.quiet).now := congrArg (fun h : Hearth => h.a.t) (atMote_outs_hearth m s.dev []).symm
    rw [laneFence_eq (d := s.quiet) hlane ht hdue, hnow]
    have hcauses : ((atMote m s.quiet).chMod n fun c => { c with unlockT := none }).causes n = s.dev.causes n := by
      rw [Dev.causes, chMod_rd, atMote_rd]
      rfl
    have hn : n.val < (atMote m s.quiet).chan.length := by
      rw [atMote_chan, show s.quiet.chan.length = 4 from hlen]
      exact n.isLt
    have hn' : n.val < ((atMote m s.quiet).chMod n fun c => { c with unlockT := none }).chan.length := by rwa [chan_length]
    have hunlock : (((atMote m s.quiet).chMod n fun c => { c with unlockT := none }).ch n).unlockT = none := by rw [ch_chMod hn]
    have htime : ((atMote m s.quiet).chMod n fun c => { c with unlockT := none }).now = (atMote m s.quiet).now := by
      rw [Dev.now, chMod_hearth, ← Dev.now]
    generalize ((atMote m s.quiet).chMod n fun c => { c with unlockT := none }) = x at hcauses hn' hunlock htime ⊢
    refine ⟨?_, fence_fenced n (by decide), (fence_lane_unlockT hn').trans hunlock, fun h => ?_⟩
    · rw [fence_causes n (by decide)]
      exact bit_putBit_self _ _
    · obtain ⟨hcur, hpre⟩ := fence_lane_wire hn' (hcauses.trans h)
      obtain ⟨hlo, -⟩ := fence_fresh_report n (cause := 2) (hcauses.trans h)
      exact ⟨hcur, hpre, hlo.trans (by rw [htime])⟩
  · refine does_run (f := remoteFault n) (fun _ => rfl) ?_
    obtain ⟨hfault, hev⟩ := remote_fits n
    have hcode : remoteFault n s.quiet = (s.quiet.wrB (CHn_STATUS.REMOTE_FAULT n) true).ev (CHn_EVENT.REMOTE_FAULT n) := by
      refine if_neg ?_
      rw [show s.quiet.on (CHn_STATUS.REMOTE_FAULT n) = false from hoff, show s.quiet.pcsRuns n = true from hpcs]
      decide
    rw [hcode]
    exact ⟨((Wrote.refl s.quiet).wrB (b := true) hfault Nat.one_pos).ev hev Nat.one_pos, rfl⟩
  · exact does_run (f := remoteClear n) (fun _ => rfl) ⟨(Wrote.refl s.quiet).wrB (b := false)
      ((by decide : ∀ n : Fin 4, fits (CHn_STATUS.REMOTE_FAULT n) [] = true) n) Nat.one_pos, rfl⟩
  · refine does_run (f := laneLost true) (fun _ => rfl) ⟨laneLost_wrote true, laneLost_port (d := s.quiet) true hports⟩
  · refine does_run (f := laneLost false) (fun _ => rfl) ⟨laneLost_wrote false, laneLost_port (d := s.quiet) false hports⟩
  · refine does_run (f := laneGained chB) (fun _ => rfl) ?_
    have hcode : laneGained chB s.quiet = s.quiet.wrB (if chB then PEG_STATUS.LANE_B_UP else PEG_STATUS.LANE_A_UP) true := if_pos hon
    rw [hcode]
    cases chB with
    | true => exact ⟨(Wrote.refl s.quiet).wrB (b := true) (by decide) Nat.one_pos, rfl⟩
    | false => exact ⟨(Wrote.refl s.quiet).wrB (b := true) (by decide) Nat.one_pos, rfl⟩

end Sys2Proof.Machine
end

section
/-!
PROOFS. O45: decay of the penalty buckets, loopback tests, table parity, the health report (R377, R378, R387, R391).
-/

namespace Sys2Proof.Machine

section
variable {d e : Dev} {n : Nat}

/-! ### Penalties -/

theorem pen_congr {k : Nat} (h : e.rd (SHD_PENj.PEN (k / 4)) = d.rd (SHD_PENj.PEN (k / 4))) : e.pen k = d.pen k := by
  rw [Dev.pen, Dev.pen, h]

/-- The word of SHD_PEN with the byte of contributor k written. -/
def penWord (k v : Nat) (d : Dev) : Nat := setBits (d.rd (SHD_PENj.PEN (k / 4))) (8 * (k % 4)) 8 v

theorem penWord_lt (k v : Nat) (d : Dev) : penWord k v d < 2 ^ 32 :=
  setBits_lt (rd_lt d (SHD_PENj.PEN (k / 4))) (by omega)

theorem setPen_rd (k v : Nat) (d : Dev) : (setPen k v d).rd (SHD_PENj.PEN (k / 4)) = penWord k v d :=
  (rd_wr_same d (SHD_PENj.PEN (k / 4)) (penWord k v d) (Nat.le_refl 32)).trans (Nat.mod_eq_of_lt (penWord_lt k v d))

theorem pen_penWord {k v : Nat} (hv : v < 256) (h : e.rd (SHD_PENj.PEN (k / 4)) = penWord k v d) : e.pen k = v := by
  rw [Dev.pen, h, penWord, bits_setBits_same]
  exact Nat.mod_eq_of_lt hv

theorem pen_setPen {k v : Nat} (hv : v < 256) : (setPen k v d).pen k = v := pen_penWord hv (setPen_rd k v d)

theorem pen_apart {j k : Nat} (h : j ≠ k) : Field.apart (SHD_PENj.PEN j) (SHD_PENj.PEN k) = true :=
  apart_of_off (by simp only [SHD_PENj.PEN, SHD_PENj.addr]; omega)

theorem pen_setPen_ne {j k v : Nat} (h : j ≠ k) : (setPen k v d).pen j = d.pen j := by
  by_cases hword : j / 4 = k / 4
  · rw [Dev.pen, hword, setPen_rd, Dev.pen, hword]
    exact bits_setBits_disjoint _ _ _ _ _ _ (by omega)
  · exact pen_congr (rd_wr_apart d _ _ _ (pen_apart (Ne.symm hword)))

theorem pen_lt (k : Nat) : d.pen k < 256 := bits_lt _ _ 8

/-- What a decay step takes from one bucket (R378). -/
def decayOne (i : Nat) (d : Dev) : Dev :=
  if d.pen (11 + i) = 0 then d else setPen (11 + i) (d.pen (11 + i) - max 1 (d.pen (11 + i) / 16)) d

theorem decayOne_pen (i k : Nat) : (decayOne i d).pen k =
    if k = 11 + i then d.pen k - max 1 (d.pen k / 16) else d.pen k := by
  unfold decayOne
  by_cases hk : k = 11 + i
  · subst hk
    by_cases h0 : d.pen (11 + i) = 0
    · simp [h0]
    · rw [if_neg h0, if_pos rfl, pen_setPen (Nat.sub_lt_of_lt (pen_lt _))]
  · rw [if_neg hk]
    split
    · rfl
    · exact pen_setPen_ne hk

theorem decay_pen (m k : Nat) : (forN m decayOne d).pen k =
    if 11 ≤ k ∧ k < 11 + m then d.pen k - max 1 (d.pen k / 16) else d.pen k := by
  induction m with
  | zero => rw [if_neg (by omega)]; rfl
  | succ m ih =>
    rw [forN_succ, decayOne_pen, ih]
    by_cases hk : k = 11 + m
    · rw [if_pos hk, if_neg (by omega), if_pos (by omega)]
    · rw [if_neg hk]
      by_cases hin : 11 ≤ k ∧ k < 11 + m
      · rw [if_pos hin, if_pos (by omega)]
      · rw [if_neg hin, if_neg (by omega)]

theorem decay_stands : Stands (Beside [SHD_PENj.PEN 2, SHD_PENj.PEN 3, SHD_PENj.PEN 4]) d (forN 9 decayOne d) := by
  refine (Stands.refl _ d).forN fun i hi x hx => .ite hx (hx.wr (.listed ?_))
  have hword : (11 + i) / 4 = 2 ∨ (11 + i) / 4 = 3 ∨ (11 + i) / 4 = 4 := by omega
  rcases hword with h | h | h <;> rw [h] <;> simp

theorem decay_beyond : Beyond d (forN 9 decayOne d) :=
  (Beyond.refl d).forN fun _ _ _ hx => .ite hx hx.wr

theorem bucketDecay_eq (hpd : d.pd 1 = true) (hsf : d.sfNow (d.rd SHD_CFG.DECAY_SF) = true)
    (hnew : d.shd.decayed ≠ some d.sfIx) : bucketDecay d = forN 9 decayOne (d.shdMod fun s => { s with decayed := some d.sfIx }) :=
  if_pos (by rw [hpd, hsf, bne_iff_ne.mpr hnew]; rfl)

/-! ### Loopback tests -/

theorem loopStart_eq (hpd : d.pd 1 = true) (hen : d.on SHD_CTRL.LB_EN = true) (hsf : d.sfNow (d.rd SHD_CFG.LB_SF) = true)
    (hnew : d.shd.tested ≠ some d.sfIx) (hbusy : d.on SHD_STATUS.TEST_BUSY = false) (htest : d.testable n = true)
    (hturn : (d.shd.turn + 1) % 4 = n) : loopStart d =
      ((d.wrB SHD_STATUS.TEST_BUSY true).wr SHD_STATUS.TEST_LANE n).shdMod fun s =>
        { s with tested := some d.sfIx, turn := n, testFr := d.frameExt } := by
  have hfind : ([1, 2, 3, 4].find? fun i => d.testable ((d.shd.turn + i) % 4)) = some 1 := by
    rw [List.find?_cons_of_pos]
    rw [hturn, htest]
  unfold loopStart
  rw [if_pos (by rw [hpd, hen, hsf, bne_iff_ne.mpr hnew, hbusy]; rfl), hfind]
  dsimp only
  rw [hturn]

theorem Dev.lbResult_congr (h : e.rd SHD_LB_RESULT.RESULT = d.rd SHD_LB_RESULT.RESULT) (k : Nat) : e.lbResult k = d.lbResult k := by
  rw [Dev.lbResult, Dev.lbResult, h]

/-- The word of results with that of lane n written. -/
def lbWord (n res : Nat) (d : Dev) : Nat := setBits (d.rd SHD_LB_RESULT.RESULT) (4 * n) 4 res

theorem lbWord_lt (n : Fin 4) (res : Nat) (d : Dev) : lbWord n res d < 2 ^ SHD_LB_RESULT.RESULT.w :=
  setBits_lt (rd_lt d SHD_LB_RESULT.RESULT) (show 4 * n.val + 4 ≤ 16 by omega)

theorem lbWord_result {res : Nat} (hres : res < 4) (h : e.rd SHD_LB_RESULT.RESULT = lbWord n res d) : e.lbResult n = res := by
  have hlow (y : Nat) : bits y (4 * n) 2 = bits y (4 * n) 4 % 4 := (Nat.mod_mod_of_dvd _ (by decide)).symm
  rw [Dev.lbResult, h, hlow, lbWord, bits_setBits_same]
  omega

theorem lbWord_ne {k res : Nat} (hk : k ≠ n) (h : e.rd SHD_LB_RESULT.RESULT = lbWord n res d) : e.lbResult k = d.lbResult k := by
  rw [Dev.lbResult, h]
  exact bits_setBits_disjoint _ _ _ _ _ _ (by omega)

/-- A result is noted and counted (R377). -/
def lbNoted (n res : Nat) (d : Dev) : Dev :=
  ((d.wrB SHD_STATUS.TEST_BUSY false).wr SHD_LB_RESULT.RESULT (lbWord n res (d.wrB SHD_STATUS.TEST_BUSY false))).wrap SHD_LB_RESULT.TESTS

theorem lbNoted_wrote (n : Fin 4) (res : Nat) (d : Dev) : Wrote d (lbNoted n res d) [(SHD_STATUS.TEST_BUSY, 0),
    (SHD_LB_RESULT.RESULT, lbWord n res d), (SHD_LB_RESULT.TESTS, (d.rd SHD_LB_RESULT.TESTS + 1) % 2 ^ SHD_LB_RESULT.TESTS.w)] := by
  have hlt := lbWord_lt n res d
  have hsame : lbWord n res (d.wrB SHD_STATUS.TEST_BUSY false) = lbWord n res d := by
    rw [lbWord, lbWord, Dev.wrB, rd_wr_apart d SHD_STATUS.TEST_BUSY SHD_LB_RESULT.RESULT _ (by decide)]
  rw [lbNoted, hsame]
  generalize lbWord n res d = w at hlt ⊢
  have hres := ((Wrote.refl d).wrB (f := SHD_STATUS.TEST_BUSY) (b := false) (by decide) Nat.one_pos).wr (f := SHD_LB_RESULT.RESULT)
    (show fits SHD_LB_RESULT.RESULT [(SHD_STATUS.TEST_BUSY, 0)] = true by decide) hlt
  have htests : fits SHD_LB_RESULT.TESTS [(SHD_STATUS.TEST_BUSY, 0), (SHD_LB_RESULT.RESULT, w)] = true :=
    show fits SHD_LB_RESULT.TESTS [(SHD_STATUS.TEST_BUSY, 0), (SHD_LB_RESULT.RESULT, 0)] = true by decide
  have hread := hres.rd htests
  rw [Dev.wrap, hread]
  exact hres.wrMod htests

/-- A result that is no PASS, reported. -/
def lbFailed (n res : Nat) (d : Dev) : Dev := (lbNoted n res d).evIf (res != 1) SHD_EVENT.LB_FAIL

/-- A test that failed fences an OFF channel with cause LOOPBACK. -/
def lbFenced (n res : Nat) (d : Dev) : Dev :=
  if res ≠ 1 ∧ (lbFailed n res d).chRun n = 0 then fence n 3 (lbFailed n res d) else lbFailed n res d

/-- The end of a test, while the channel is not enabled. -/
theorem loopEnd_eq {res : Nat} (hbusy : d.on SHD_STATUS.TEST_BUSY = true) (hlane : d.rd SHD_STATUS.TEST_LANE = n)
    (hdue : d.shd.testFr < d.frameExt) (hen : (lbFenced n res d).on (CHn_CTRL.EN n) = false) :
    loopEnd res d = lbFenced n res d := by
  have hif : (d.on SHD_STATUS.TEST_BUSY && decide (d.shd.testFr < d.frameExt)) = true := by rw [hbusy, decide_eq_true hdue]; rfl
  have hcode : loopEnd res d = if (lbFenced n res d).chRun n = 0 ∧ (lbFenced n res d).on (CHn_CTRL.EN n)
      then chEnable n (lbFenced n res d) else lbFenced n res d := by
    subst hlane
    unfold loopEnd
    rw [if_pos hif]
    rfl
  rw [hcode, hen, if_neg (fun h => Bool.false_ne_true h.2)]

theorem lb_fits : ∀ n : Fin 4, fits (CHn_CTRL.EN n) [(SHD_STATUS.TEST_BUSY, 0), (SHD_LB_RESULT.RESULT, 0), (SHD_LB_RESULT.TESTS, 0)] = true ∧
    fits (CHn_STATUS.RUN n) [(SHD_STATUS.TEST_BUSY, 0), (SHD_LB_RESULT.RESULT, 0), (SHD_LB_RESULT.TESTS, 0), (SHD_EVENT.LB_FAIL, 0)] = true ∧
    fits (CHn_CTRL.EN n) [(SHD_STATUS.TEST_BUSY, 0), (SHD_LB_RESULT.RESULT, 0), (SHD_LB_RESULT.TESTS, 0), (SHD_EVENT.LB_FAIL, 0)] = true := by
  decide

/-- A test that passed. -/
theorem loopEnd_pass (n : Fin 4) (hbusy : d.on SHD_STATUS.TEST_BUSY = true) (hlane : d.rd SHD_STATUS.TEST_LANE = n)
    (hdue : d.shd.testFr < d.frameExt) (hen : d.on (CHn_CTRL.EN n) = false) : loopEnd 1 d = lbNoted n 1 d := by
  have hsame : lbFenced n 1 d = lbNoted n 1 d := if_neg fun h => absurd rfl h.1
  have hnoted := lbNoted_wrote n 1 d
  rw [loopEnd_eq hbusy hlane hdue, hsame]
  rw [hsame]
  generalize lbWord n 1 d = w at hnoted
  generalize lbNoted n 1 d = x at hnoted
  exact (hnoted.on (lb_fits n).1).trans hen

theorem fail_wrote {w t : Nat} (h : Wrote d e [(SHD_STATUS.TEST_BUSY, 0), (SHD_LB_RESULT.RESULT, w), (SHD_LB_RESULT.TESTS, t)]) :
    Wrote d (e.evIf true SHD_EVENT.LB_FAIL) [(SHD_STATUS.TEST_BUSY, 0), (SHD_LB_RESULT.RESULT, w), (SHD_LB_RESULT.TESTS, t),
      (SHD_EVENT.LB_FAIL, 1)] :=
  h.ev (f := SHD_EVENT.LB_FAIL) (show fits SHD_EVENT.LB_FAIL [(SHD_STATUS.TEST_BUSY, 0), (SHD_LB_RESULT.RESULT, 0),
    (SHD_LB_RESULT.TESTS, 0)] = true by decide) Nat.one_pos

theorem lbFailed_wrote (n : Fin 4) {res : Nat} (hres : res ≠ 1) (d : Dev) : ∃ t, Wrote d (lbFailed n res d) [(SHD_STATUS.TEST_BUSY, 0),
    (SHD_LB_RESULT.RESULT, lbWord n res d), (SHD_LB_RESULT.TESTS, t), (SHD_EVENT.LB_FAIL, 1)] := by
  rw [lbFailed, bne_iff_ne.mpr hres]
  exact ⟨_, fail_wrote (lbNoted_wrote n res d)⟩

/-- What a fence leaves alone of a test's result. -/
def lbMarks (n : Nat) : List Field := [SHD_STATUS.TEST_BUSY, SHD_LB_RESULT.RESULT, SHD_EVENT.LB_FAIL, CHn_CTRL.EN n]

theorem lbMarks_apart : ∀ n : Fin 4, (∀ f ∈ fenceFields n, ∀ g ∈ lbMarks n, Field.apart f g = true) ∧
    ∀ g ∈ lbMarks n, g.off < 0x238000 := by decide

/-- A test that failed on a channel that is OFF. -/
theorem loopEnd_fail (n : Fin 4) {res : Nat} (hres : res ≠ 1) (hlt : res < 4) (hbusy : d.on SHD_STATUS.TEST_BUSY = true)
    (hlane : d.rd SHD_STATUS.TEST_LANE = n) (hdue : d.shd.testFr < d.frameExt) (hrun : d.chRun n = 0)
    (hen : d.on (CHn_CTRL.EN n) = false) : (loopEnd res d).rd SHD_STATUS.TEST_BUSY = 0 ∧ (loopEnd res d).lbResult n = res ∧
    (loopEnd res d).rd SHD_EVENT.LB_FAIL = 1 ∧ bit ((loopEnd res d).causes n) 3 = true ∧
    (loopEnd res d).rd (CHn_STATUS.FENCED n) = 1 := by
  obtain ⟨t, hfail⟩ := lbFailed_wrote n hres d
  obtain ⟨-, hfitsRun, hfitsEn⟩ := lb_fits n
  have hword : (lbFailed n res d).rd SHD_LB_RESULT.RESULT = lbWord n res d := hfail.nth 1 rfl
  have hback : (lbFailed n res d).chRun n = 0 ∧ (lbFailed n res d).on (CHn_CTRL.EN n) = false := by
    generalize lbWord n res d = w at hfail
    generalize lbFailed n res d = x at hfail
    exact ⟨(hfail.rd hfitsRun).trans hrun, (hfail.on hfitsEn).trans hen⟩
  have hfence : lbFenced n res d = fence n 3 (lbFailed n res d) := if_pos ⟨hres, hback.1⟩
  obtain ⟨hapart, hbelow⟩ := lbMarks_apart n
  have hkeep (g : Field) (hg : g ∈ lbMarks n) : (fence n 3 (lbFailed n res d)).rd g = (lbFailed n res d).rd g :=
    fence_rd (P := (· ∈ lbMarks n)) n (by decide) hapart hbelow g hg
  rw [loopEnd_eq hbusy hlane hdue (by rw [hfence, Dev.on, hkeep _ (by simp [lbMarks])]; exact hback.2), hfence]
  refine ⟨(hkeep _ (by simp [lbMarks])).trans (hfail.nth 0 rfl),
    lbWord_result hlt ((hkeep _ (by simp [lbMarks])).trans hword), (hkeep _ (by simp [lbMarks])).trans (hfail.nth 3 rfl), ?_,
    fence_fenced n (by decide)⟩
  rw [fence_causes n (by decide)]
  exact bit_putBit_self _ _

/-! ### Table parity -/

/-- A word of window w that failed parity, recorded (R387). -/
def parityNoted (w word : Nat) (d : Dev) : Dev :=
  (penalty 15 ((((d.wr SHD_TBL_ERR.WINDOW w).wr SHD_TBL_ERR.WORD word).sat SHD_TBL_ERR.COUNT).ev SHD_EVENT.TABLE_ERR)).shdMod
    fun s => { s with errs := min (s.errs + 1) 65535 }

/-- The word of SHD_PEN once bucket 15 has been filled. -/
def bucketWord (d : Dev) : Nat := setBits (d.rd (SHD_PENj.PEN 3)) 24 8 (min 255 (d.pen 15 + d.weight 15))

/-- What a recorded parity error writes. -/
def parityWrites (w word : Nat) (d : Dev) : List (Field × Nat) :=
  [(SHD_TBL_ERR.WINDOW, w), (SHD_TBL_ERR.WORD, word),
    (SHD_TBL_ERR.COUNT, min (d.rd SHD_TBL_ERR.COUNT + 1) (2 ^ SHD_TBL_ERR.COUNT.w - 1)), (SHD_EVENT.TABLE_ERR, 1),
    (SHD_PENj.PEN 3, bucketWord d)]

theorem penalty_bucket (hpd : d.pd 1 = true) : penalty 15 d = d.wr (SHD_PENj.PEN 3) (bucketWord d) := if_pos hpd

theorem bucketWord_lt (d : Dev) : bucketWord d < 2 ^ (SHD_PENj.PEN 3).w := setBits_lt (rd_lt d (SHD_PENj.PEN 3)) (by decide)

/-- The window, the word and the count of the errors, and the event. -/
theorem parityEvent_wrote (w word : Nat) (d : Dev) :
    Wrote d ((((d.wr SHD_TBL_ERR.WINDOW w).wr SHD_TBL_ERR.WORD word).sat SHD_TBL_ERR.COUNT).ev SHD_EVENT.TABLE_ERR)
      [(SHD_TBL_ERR.WINDOW, w % 2 ^ 4), (SHD_TBL_ERR.WORD, word % 2 ^ SHD_TBL_ERR.WORD.w),
        (SHD_TBL_ERR.COUNT, min (d.rd SHD_TBL_ERR.COUNT + 1) (2 ^ SHD_TBL_ERR.COUNT.w - 1)), (SHD_EVENT.TABLE_ERR, 1)] := by
  have hwindow := (Wrote.refl d).wrMod (f := SHD_TBL_ERR.WINDOW) (v := w) (by decide)
  have hword := hwindow.wrMod (f := SHD_TBL_ERR.WORD) (v := word)
    (show fits SHD_TBL_ERR.WORD [(SHD_TBL_ERR.WINDOW, 0)] = true by decide)
  have hcount := hword.sat (f := SHD_TBL_ERR.COUNT) (n := 1)
    (show fits SHD_TBL_ERR.COUNT [(SHD_TBL_ERR.WINDOW, 0), (SHD_TBL_ERR.WORD, 0)] = true by decide)
  exact hcount.ev (show fits SHD_EVENT.TABLE_ERR [(SHD_TBL_ERR.WINDOW, 0), (SHD_TBL_ERR.WORD, 0), (SHD_TBL_ERR.COUNT, 0)] = true by
    decide) Nat.one_pos

theorem bucket_wrote {w word c : Nat} (h : Wrote d e [(SHD_TBL_ERR.WINDOW, w), (SHD_TBL_ERR.WORD, word), (SHD_TBL_ERR.COUNT, c),
    (SHD_EVENT.TABLE_ERR, 1)]) (hpd : d.pd 1 = true) : Wrote d (penalty 15 e) [(SHD_TBL_ERR.WINDOW, w), (SHD_TBL_ERR.WORD, word),
      (SHD_TBL_ERR.COUNT, c), (SHD_EVENT.TABLE_ERR, 1), (SHD_PENj.PEN 3, bucketWord d)] := by
  have hfits (f : Field) (hf : fits f [(SHD_TBL_ERR.WINDOW, 0), (SHD_TBL_ERR.WORD, 0), (SHD_TBL_ERR.COUNT, 0),
      (SHD_EVENT.TABLE_ERR, 0)] = true) : fits f [(SHD_TBL_ERR.WINDOW, w), (SHD_TBL_ERR.WORD, word), (SHD_TBL_ERR.COUNT, c),
      (SHD_EVENT.TABLE_ERR, 1)] = true := hf
  have hpen : e.rd (SHD_PENj.PEN 3) = d.rd (SHD_PENj.PEN 3) := h.rd (hfits _ (by decide))
  have hweight : e.word (SHD_WT0.addr + 4 * (15 / 4)) = d.word (SHD_WT0.addr + 4 * (15 / 4)) := by
    rw [word_eq_rd, word_eq_rd]
    exact h.rd (hfits _ (by decide))
  have hsame : bucketWord e = bucketWord d := by
    rw [bucketWord, bucketWord, hpen, pen_congr (k := 15) hpen, Dev.weight, Dev.weight, hweight]
  rw [penalty_bucket ((h.pd (hfits _ (by decide)) 1).trans hpd), hsame]
  exact h.wr (hfits _ (by decide)) (bucketWord_lt d)

theorem parityNoted_wrote (w word : Nat) (hpd : d.pd 1 = true) : Wrote d (parityNoted w word d)
    (parityWrites (w % 2 ^ 4) (word % 2 ^ SHD_TBL_ERR.WORD.w) d) :=
  (bucket_wrote (parityEvent_wrote w word d) hpd).shdMod

/-- A classifier word (Table 18.5). -/
theorem tableParity_cls {o : Nat} (hpd : d.pd 1 = true) (h : 0x210000 ≤ o ∧ o < 0x230000) : tableParity o d =
    clsInvalid false ((o - 0x210000) / 32) (parityNoted 0 ((o - 0x210000) / 4) d) := by
  have hwin : tblWindow o = some (0, 0x210000) := by rw [tblWindow, if_neg (by omega), if_pos h]
  have hon : ¬ (!d.pd 1) = true := by rw [hpd]; decide
  simp only [tableParity, hwin, if_neg hon, parityNoted]

/-- A gate-list word. -/
theorem tableParity_gate {o : Nat} (hpd : d.pd 1 = true) (h : 0x200000 ≤ o ∧ o < 0x210000) : tableParity o d =
    gateParity ((o - 0x200000) / 0x4000) ((o - 0x200000) / 0x2000 % 2) (parityNoted 3 ((o - 0x200000) / 4) d) := by
  have hwin : tblWindow o = some (3, 0x200000) := by rw [tblWindow, if_pos h]
  have hon : ¬ (!d.pd 1) = true := by rw [hpd]; decide
  simp only [tableParity, hwin, if_neg hon, parityNoted]

theorem parityNoted_beyond (w word : Nat) : ∃ x, Beyond d x ∧ parityNoted w word d =
    x.shdMod fun s => { s with errs := min (s.errs + 1) 65535 } :=
  ⟨_, (Beyond.refl d).wr.wr.sat.ev.trans (penalty_beyond 15), rfl⟩

theorem parityNoted_peg (w word : Nat) : (parityNoted w word d).peg = d.peg := by
  obtain ⟨x, hx, h⟩ := parityNoted_beyond (d := d) w word
  rw [h, ← hx.part Dev.peg fun _ _ _ => rfl]
  rfl

/-- A word of the operational schedule. -/
theorem tableParity_sched {o : Nat} (hpd : d.pd 1 = true) (h : 0x2C0000 ≤ o ∧ o < 0x2C0800)
    (hoper : d.peg.oper = some ((o - 0x2C0000) / 0x400)) : tableParity o d =
    (parityNoted 4 ((o - 0x2C0000) / 4) d).pegMod fun p =>
      { p with badSlots := p.badSlots ++ [(o - 0x2C0000) % 0x400 / 16] } := by
  have hwin : tblWindow o = some (4, 0x2C0000) := by
    rw [tblWindow, if_neg (by omega), if_neg (by omega), if_neg (by omega), if_neg (by omega), if_pos h]
  have hpeg := parityNoted_peg (d := d) 4 ((o - 0x2C0000) / 4)
  have hon : ¬ (!d.pd 1) = true := by rw [hpd]; decide
  rw [parityNoted] at hpeg
  rw [← hpeg] at hoper
  simp only [tableParity, hwin, if_neg hon, if_pos hoper, parityNoted]

/-- A lifeline template. -/
theorem tableParity_llb {o : Nat} (hpd : d.pd 1 = true) (h : 0x2E0000 ≤ o ∧ o < 0x2E0880) : tableParity o d =
    llbParity ((o - 0x2E0000) / 128) (parityNoted 5 ((o - 0x2E0000) / 4) d) := by
  have hwin : tblWindow o = some (5, 0x2E0000) := by
    rw [tblWindow, if_neg (by omega), if_neg (by omega), if_neg (by omega), if_neg (by omega), if_neg (by omega), if_pos h]
  have hon : ¬ (!d.pd 1) = true := by rw [hpd]; decide
  simp only [tableParity, hwin, if_neg hon, parityNoted]

theorem tableParity_off {o : Nat} (hpd : d.pd 1 = false) : tableParity o d = d := by
  unfold tableParity
  split
  · rfl
  · exact if_pos (by rw [hpd]; rfl)

/-! ### What a failed word does -/

theorem parityNoted_errs (w word : Nat) : (parityNoted w word d).shd.errs = min (d.shd.errs + 1) 65535 := by
  obtain ⟨x, hx, h⟩ := parityNoted_beyond (d := d) w word
  rw [h, Dev.shdMod, hx.part Dev.shd fun _ _ _ => rfl]

theorem parityNoted_chan (w word : Nat) : (parityNoted w word d).chan = d.chan := by
  obtain ⟨x, hx, h⟩ := parityNoted_beyond (d := d) w word
  rw [h, ← hx.chan]
  rfl

theorem pen_bucket (h : e.rd (SHD_PENj.PEN 3) = bucketWord d) : e.pen 15 = min 255 (d.pen 15 + d.weight 15) :=
  pen_penWord (k := 15) (by omega) h

/-- An invalid entry keeps its words; its CTRL word alone may move. -/
theorem clsInvalid_word {mk : Bool} {i o : Nat} (h : o ≠ entOff mk i (ctrlIdx mk)) : (clsInvalid mk i d).word o = d.word o := by
  unfold clsInvalid
  dsimp only
  split
  · rw [word_setWord, if_neg h]
  · rfl

theorem clsInvalid_valid {mk : Bool} {i : Nat} : bit ((clsInvalid mk i d).entCtrl mk i) 0 = false := by
  unfold clsInvalid
  dsimp only
  split
  · rw [Dev.entCtrl, word_setWord, if_pos rfl]
    simp only [bit, pow_zero, Nat.div_one, beq_eq_false_iff_ne]
    omega
  · rename_i h
    exact Bool.not_eq_true _ ▸ h

theorem clsInvalid_stands {P : Field → Prop} {mk : Bool} {i : Nat} (h : Free P ⟨entOff mk i (ctrlIdx mk), 0, 32⟩) :
    Stands P d (clsInvalid mk i d) := .ite (.setWord (.refl P d) h) (.refl P d)

theorem clsInvalid_beyond {mk : Bool} {i : Nat} : Beyond d (clsInvalid mk i d) := .ite (Beyond.refl d).setWord (.refl d)

/-- What a parity error records. -/
def parityFields : List Field :=
  [SHD_TBL_ERR.WINDOW, SHD_TBL_ERR.WORD, SHD_TBL_ERR.COUNT, SHD_EVENT.TABLE_ERR, SHD_PENj.PEN 3]

theorem parityNoted_stands {w word : Nat} (hpd : d.pd 1 = true) : Stands (Beside parityFields) d (parityNoted w word d) :=
  (parityNoted_wrote w word hpd).beside

theorem parityFields_low : ∀ f ∈ parityFields, f.off < 0x210000 := by decide

theorem entry_free {mk : Bool} {i k : Nat} : Free (· ∈ parityFields) ⟨entOff mk i k, 0, 32⟩ := fun g hg =>
  apart_of_off fun h => absurd (parityFields_low g hg) (by rw [h]; exact Nat.not_lt.mpr (entOff_ge mk i k))

theorem entry_beside {mk : Bool} {i k : Nat} : Beside parityFields ⟨entOff mk i k, 0, 32⟩ := fun f hf =>
  apart_of_off fun h => absurd (parityFields_low f hf) (by rw [← h]; exact Nat.not_lt.mpr (entOff_ge mk i k))

theorem entWords_getD {i : Nat} (k : Fin 7) : (d.entWords false i).getD k 0 = d.word (entOff false i k) := by
  rw [List.getD_eq_getElem _ _ (by rw [Dev.entWords, List.length_map, List.length_range]; exact k.isLt)]
  simp only [Dev.entWords, List.getElem_map, List.getElem_range]

/-- An entry of which a word failed. -/
theorem entry_parity (ix word : Nat) (hpd : d.pd 1 = true) :
    Stands (Beside [SHD_TBL_ERR.WINDOW, SHD_TBL_ERR.WORD, SHD_TBL_ERR.COUNT, SHD_EVENT.TABLE_ERR, SHD_PENj.PEN 3,
      ⟨entOff false ix 7, 0, 32⟩]) d (clsInvalid false ix (parityNoted 0 word d)) ∧
    (clsInvalid false ix (parityNoted 0 word d)).pen 15 = min 255 (d.pen 15 + d.weight 15) ∧
    bit ((clsInvalid false ix (parityNoted 0 word d)).entCtrl false ix) 0 = false ∧
    (∀ k : Fin 7, ((clsInvalid false ix (parityNoted 0 word d)).entWords false ix).getD k 0 =
      (d.entWords false ix).getD k 0) ∧
    (clsInvalid false ix (parityNoted 0 word d)).shd.errs = min (d.shd.errs + 1) 65535 ∧
    (clsInvalid false ix (parityNoted 0 word d)).rd SHD_TBL_ERR.WINDOW = 0 ∧
    (clsInvalid false ix (parityNoted 0 word d)).rd SHD_TBL_ERR.WORD = word % 2 ^ SHD_TBL_ERR.WORD.w := by
  have hnoted := parityNoted_wrote (d := d) 0 word hpd
  have hstands := parityNoted_stands (d := d) (w := 0) (word := word) hpd
  have herrs := parityNoted_errs (d := d) 0 word
  have hword (k : Nat) : (parityNoted 0 word d).word (entOff false ix k) = d.word (entOff false ix k) := by
    rw [word_eq_rd, word_eq_rd]
    exact hstands.rd entry_beside
  have hbucket : (clsInvalid false ix (parityNoted 0 word d)).rd (SHD_PENj.PEN 3) = bucketWord d :=
    ((clsInvalid_stands entry_free).rd (by simp [parityFields])).trans (hnoted.nth 4 rfl)
  have hctrl : Stands (Beside [SHD_TBL_ERR.WINDOW, SHD_TBL_ERR.WORD, SHD_TBL_ERR.COUNT, SHD_EVENT.TABLE_ERR, SHD_PENj.PEN 3,
      ⟨entOff false ix 7, 0, 32⟩]) (parityNoted 0 word d) (clsInvalid false ix (parityNoted 0 word d)) :=
    clsInvalid_stands (.listed (by simp [ctrlIdx]))
  refine ⟨(hstands.widen (by simp [parityFields])).trans hctrl, pen_bucket hbucket,
    clsInvalid_valid, fun k => ?_, ?_, ((clsInvalid_stands entry_free).rd (by simp [parityFields])).trans (hnoted.nth 0 rfl),
    ((clsInvalid_stands entry_free).rd (by simp [parityFields])).trans (hnoted.nth 1 rfl)⟩
  · have hkept : (clsInvalid false ix (parityNoted 0 word d)).word (entOff false ix k) = d.word (entOff false ix k) :=
      (clsInvalid_word fun h => absurd (entOff_inj _ _ _ _ h) (by simp only [ctrlIdx]; have := k.isLt; simp; omega)).trans (hword k)
    rw [entWords_getD, entWords_getD, hkept]
  · rw [clsInvalid_beyond.part Dev.shd fun _ _ _ => rfl, herrs]

/-! ### The report -/

theorem leBytes_mod (k x : Nat) : leBytes k (x % 256 ^ k) = leBytes k x := by
  induction k generalizing x with
  | zero => rfl
  | succ k ih =>
    have hlow : x % 256 ^ (k + 1) % 256 = x % 256 := Nat.mod_mod_of_dvd x (Dvd.intro_left (256 ^ k) rfl)
    have hhigh : x % 256 ^ (k + 1) / 256 = x / 256 % 256 ^ k := by
      rw [Nat.pow_succ', Nat.mod_mul_right_div_self]
    rw [leBytes, leBytes, hhigh, ih]
    congr 1
    apply BitVec.eq_of_toNat_eq
    rw [BitVec.toNat_ofNat, BitVec.toNat_ofNat]
    exact hlow

theorem crc32Byte_lt {c : Nat} (b : Byte) (hc : c < 2 ^ 32) : crc32Byte c b < 2 ^ 32 := by
  have hfold (l : List Nat) (x : Nat) (hx : x < 2 ^ 32) :
      l.foldl (fun c _ => if c % 2 = 1 then (c / 2) ^^^ 0xEDB88320 else c / 2) x < 2 ^ 32 := by
    induction l generalizing x with
    | nil => exact hx
    | cons a l ih =>
      refine ih _ ?_
      dsimp only
      split
      · exact Nat.xor_lt_two_pow (by omega) (by decide)
      · omega
  exact hfold _ _ (Nat.xor_lt_two_pow hc (b.isLt.trans (by decide)))

theorem crc32_lt (bs : Bytes) : crc32 bs < 2 ^ 32 := by
  have hfold (c : Nat) (hc : c < 2 ^ 32) : bs.foldl crc32Byte c < 2 ^ 32 := by
    induction bs generalizing c with
    | nil => exact hc
    | cons b bs ih => exact ih _ (crc32Byte_lt b hc)
  exact Nat.xor_lt_two_pow (hfold _ (by decide)) (by decide)

/-- The words of the report before its check word. -/
def reportWords (d : Dev) : List Nat :=
  [1 + d.rd SHD_STATUS.SCORE * 2 ^ 8 + d.rd SHD_STATUS.WORST * 2 ^ 16 + d.tier * 2 ^ 21 + b2n d.holds * 2 ^ 24 + b2n d.valid * 2 ^ 25,
    d.rd SHD_FAULT.FAULT, d.now % 2 ^ 32, d.now / 2 ^ 32, ((List.range 4).map fun n => d.causes n * 2 ^ (8 * n)).foldl (· + ·) 0,
    d.rd SHD_RETIRED.COUNT + d.shd.errs * 2 ^ 16, d.shd.minScore + d.shd.lowSf * 2 ^ 8]

/-- Eight words of a report. -/
def putWords (f : Nat → Nat) (d : Dev) : Dev := forN 8 (fun w d => d.wr (SHD_REPORTw.WORD w) (f w)) d

theorem putWords_eq (f : Nat → Nat) (d : Dev) : putWords f d = (((((((d.wr (SHD_REPORTw.WORD 0) (f 0)).wr (SHD_REPORTw.WORD 1) (f 1)).wr
    (SHD_REPORTw.WORD 2) (f 2)).wr (SHD_REPORTw.WORD 3) (f 3)).wr (SHD_REPORTw.WORD 4) (f 4)).wr (SHD_REPORTw.WORD 5) (f 5)).wr
    (SHD_REPORTw.WORD 6) (f 6)).wr (SHD_REPORTw.WORD 7) (f 7) := by
  simp only [putWords, forN, List.range_succ, List.range_zero, List.nil_append, List.cons_append, List.foldl_cons, List.foldl_nil]

/-- What a report writes: its words, and its end. -/
def reportWrites (f : Nat → Nat) : List (Field × Nat) :=
  [(SHD_REPORTw.WORD 0, f 0 % 2 ^ 32), (SHD_REPORTw.WORD 1, f 1 % 2 ^ 32), (SHD_REPORTw.WORD 2, f 2 % 2 ^ 32),
    (SHD_REPORTw.WORD 3, f 3 % 2 ^ 32), (SHD_REPORTw.WORD 4, f 4 % 2 ^ 32), (SHD_REPORTw.WORD 5, f 5 % 2 ^ 32),
    (SHD_REPORTw.WORD 6, f 6 % 2 ^ 32), (SHD_REPORTw.WORD 7, f 7 % 2 ^ 32)]

theorem putWords_wrote (f : Nat → Nat) (d : Dev) : Wrote d (putWords f d) (reportWrites f) := by
  rw [putWords_eq]
  exact ((((((((Wrote.refl d).wrMod (by decide)).wrMod (by rfl)).wrMod (by rfl)).wrMod (by rfl)).wrMod (by rfl)).wrMod (by rfl)).wrMod
    (by rfl)).wrMod (by rfl)

theorem putWords_beyond (f : Nat → Nat) (d : Dev) : Beyond d (putWords f d) := (Beyond.refl d).forN fun _ _ _ hx => hx.wr

/-- The report of a device (R391). -/
def report (d : Dev) (w : Nat) : Nat := (reportWords d ++ [crc32 ((reportWords d).flatMap (leBytes 4))]).getD w 0

theorem reportTake_eq (d : Dev) : reportTake 0 d =
    (((putWords (report d) d).wrB SHD_REPORT_CTRL.TAKE false).ev SHD_EVENT.REPORT_READY).shdMod fun s =>
      { s with errs := 0, minScore := (putWords (report d) d).rd SHD_STATUS.SCORE, lowSf := 0 } := by
  unfold reportTake
  rw [atMote_zero]
  rfl

theorem reportTake_wrote (d : Dev) : Wrote d (reportTake 0 d)
    (reportWrites (report d) ++ [(SHD_REPORT_CTRL.TAKE, 0), (SHD_EVENT.REPORT_READY, 1)]) := by
  have hwords := putWords_wrote (report d) d
  rw [reportTake_eq]
  generalize report d = f at hwords ⊢
  exact ((hwords.wrB (f := SHD_REPORT_CTRL.TAKE) (b := false) (by rfl) Nat.one_pos).ev (f := SHD_EVENT.REPORT_READY) (by rfl)
    Nat.one_pos).shdMod

theorem reportTake_shd (d : Dev) : (reportTake 0 d).shd =
    { d.shd with errs := 0, minScore := d.rd SHD_STATUS.SCORE, lowSf := 0 } := by
  have hscore : (putWords (report d) d).rd SHD_STATUS.SCORE = d.rd SHD_STATUS.SCORE := by
    have hwords := putWords_wrote (report d) d
    generalize report d = f at hwords ⊢
    exact hwords.rd (by rfl)
  have hshd : (((putWords (report d) d).wrB SHD_REPORT_CTRL.TAKE false).ev SHD_EVENT.REPORT_READY).shd = d.shd :=
    (putWords_beyond (report d) d).wrB.ev.part Dev.shd fun _ _ _ => rfl
  rw [reportTake_eq, hscore, Dev.shdMod, hshd]

/-- The first word of a report, which its register holds whole. -/
theorem report_first (d : Dev) : report d 0 % 2 ^ 32 = 1 + d.rd SHD_STATUS.SCORE * 2 ^ 8 + d.rd SHD_STATUS.WORST * 2 ^ 16 +
    d.tier * 2 ^ 21 + b2n d.holds * 2 ^ 24 + b2n d.valid * 2 ^ 25 := by
  have hscore : d.rd SHD_STATUS.SCORE < 2 ^ 8 := rd_lt d _
  have hworst : d.rd SHD_STATUS.WORST < 2 ^ 5 := rd_lt d _
  have htier : d.tier < 2 ^ 3 := bits_lt _ _ _
  have hholds := b2n_le_one d.holds
  have hvalid := b2n_le_one d.valid
  rw [report, reportWords, List.cons_append, List.getD_cons_zero]
  refine Nat.mod_eq_of_lt ?_
  generalize d.rd SHD_STATUS.SCORE = x1 at *
  generalize d.rd SHD_STATUS.WORST = x2 at *
  generalize d.tier = x3 at *
  generalize b2n d.holds = x4 at *
  generalize b2n d.valid = x5 at *
  omega

theorem report_fault (d : Dev) : report d 1 % 2 ^ 32 = d.rd SHD_FAULT.FAULT :=
  Nat.mod_eq_of_lt ((rd_lt d SHD_FAULT.FAULT).trans (by decide))

theorem leBytes_word (x : Nat) : leBytes 4 (x % 2 ^ 32) = leBytes 4 x := by
  rw [show (2 : Nat) ^ 32 = 256 ^ 4 by norm_num, leBytes_mod]

/-- Seven listed words, one after the other. -/
theorem flatMap_seven (f : Nat → Bytes) (x0 x1 x2 x3 x4 x5 x6 y : Nat) :
    ((List.range 7).flatMap fun w => f (([x0, x1, x2, x3, x4, x5, x6] ++ [y]).getD w 0)) =
    [x0, x1, x2, x3, x4, x5, x6].flatMap f := rfl

theorem getD_seven (x0 x1 x2 x3 x4 x5 x6 y : Nat) : ([x0, x1, x2, x3, x4, x5, x6] ++ [y]).getD 7 0 = y := rfl

/-- The check word covers the words as the registers show them. -/
theorem report_check (d : Dev) : report d 7 % 2 ^ 32 = crc32 ((List.range 7).flatMap fun w => leBytes 4 (report d w % 2 ^ 32)) := by
  have hwords : ((List.range 7).flatMap fun w => leBytes 4 (report d w % 2 ^ 32)) = (reportWords d).flatMap (leBytes 4) := by
    simp only [leBytes_word, report, reportWords]
    exact flatMap_seven _ _ _ _ _ _ _ _ _
  have hlast : report d 7 = crc32 ((reportWords d).flatMap (leBytes 4)) := by
    rw [report]
    generalize crc32 ((reportWords d).flatMap (leBytes 4)) = y
    exact getD_seven _ _ _ _ _ _ _ y
  rw [hwords, hlast, Nat.mod_eq_of_lt (crc32_lt _)]

/-! ### The rest of Table 18.5 -/

theorem gateParity_oper {b : Nat} (h : (d.gate n).oper = some b) : gateParity n b d = fence n 4 d := if_pos h

/-- A failed word of the operational list fences the channel, which forgets its list. -/
theorem fence_table_gate (hn : n < d.chan.length) : ((fence n 4 d).gate n).oper = none ∧
    (d.causes n = 0 → ((fence n 4 d).gate n).st = 0) := by
  by_cases h : d.causes n = 0
  · have hgate : (fence n 4 d).gate n = (fenceOpens n 4 d).gate n := by
      rw [fence_fresh h, if_neg (by decide), Dev.gate, dropQueues_ch (by rwa [fenceOpens_length]), Dev.gate]
    rw [hgate]
    exact ⟨fenceOpens_oper hn, fun _ => fenceOpens_st hn⟩
  · have hlen : n < (fenceNotes n 4 d).chan.length := by rwa [fenceNotes, wr_chan, setCauses_length]
    rw [fence_further h, if_neg (fun hc => absurd hc.1 (by decide)), fenceAdds, if_pos rfl]
    exact ⟨(gateForgets_gate hlen).1, fun h0 => absurd h0 h⟩

theorem parityMarks_apart : ∀ n : Fin 4, (∀ f ∈ fenceFields n, ∀ g ∈ parityFields, Field.apart f g = true) := by decide

theorem Stands.lcMod {P : Field → Prop} {c : Nat} {g : LlbCh → LlbCh} (h : Stands P d e) : Stands P d (e.lcMod c g) :=
  h.parts rfl rfl

theorem llbRefresh_stands {P : Field → Prop} (hact : Free P LLB_STATUS.ACTIVE) (hsend : Free P LLB_STATUS.SENDING) :
    Stands P d (llbRefresh d) := by
  have hone (c : Nat) (x : Dev) : Stands P x (llbRefresh1 c x) := by
    have hbit (b : Bool) : Stands P x (x.putBitOf LLB_STATUS.ACTIVE c b) := (Stands.refl P x).putBitOf hact
    unfold llbRefresh1
    dsimp only
    split
    · exact (hbit true).lcMod
    · split
      · split
        · exact (hbit false).lcMod
        · exact (hbit false).lcMod
      · exact .refl P x
  exact ((Stands.refl P d).forN fun k _ x hx => hx.trans (hone k x)).wrB hsend

/-- Where the run state of bridge channel c stands. -/
def llbRunField (c : Nat) : Field := if c < 8 then LLB_CH_RUN0.RUN else LLB_CH_RUN1.RUN
def llbRunBit (c : Nat) : Nat := if c < 8 then 3 * c else 3 * (c - 8)

theorem llbRun_eq (c : Nat) : d.llbRun c = bits (d.rd (llbRunField c)) (llbRunBit c) 3 := by
  unfold Dev.llbRun llbRunField llbRunBit
  split <;> rfl

theorem setLlbRun_eq (c v : Nat) : setLlbRun c v d = d.wr (llbRunField c) (setBits (d.rd (llbRunField c)) (llbRunBit c) 3 v) := by
  unfold setLlbRun llbRunField llbRunBit
  split <;> rfl

theorem llbRun_word (c : Fin 16) (v : Nat) : setBits (d.rd (llbRunField c)) (llbRunBit c) 3 v < 2 ^ (llbRunField c).w :=
  setBits_lt (rd_lt d _) ((by decide : ∀ c : Fin 16, llbRunBit c + 3 ≤ (llbRunField c).w) c)

theorem refuse_fits : ∀ c : Fin 16, fits (llbRunField c) [] = true ∧ fits LLB_CH_EN.EN [(llbRunField c, 0)] = true ∧
    fits LLB_STATUS.BAD_CH [(llbRunField c, 0), (LLB_CH_EN.EN, 0)] = true ∧
    fits LLB_EVENT.TPL_BAD [(llbRunField c, 0), (LLB_CH_EN.EN, 0), (LLB_STATUS.BAD_CH, 0)] = true := by decide

/-- Writes of a refused start, with the words given. -/
theorem refuse_wrote (c : Fin 16) {r m : Nat} (hr : r < 2 ^ (llbRunField c).w) (hm : m < 2 ^ LLB_CH_EN.EN.w) (d : Dev) :
    Wrote d ((((d.wr (llbRunField c) r).wr LLB_CH_EN.EN m).wr LLB_STATUS.BAD_CH c).ev LLB_EVENT.TPL_BAD)
      [(llbRunField c, r), (LLB_CH_EN.EN, m), (LLB_STATUS.BAD_CH, c.val), (LLB_EVENT.TPL_BAD, 1)] := by
  obtain ⟨hrun, hen, hbad, hev⟩ := refuse_fits c
  exact ((((Wrote.refl d).wr hrun hr).wr hen hm).wr hbad (c.isLt.trans (by decide))).ev hev Nat.one_pos

/-- A refused start of a bridge channel: OFF, its enable cleared, named (R321). -/
theorem llbRefuse_wrote (c : Fin 16) (d : Dev) : ∃ m, bit m c = false ∧ Wrote d (llbRefuse c d)
    [(llbRunField c, setBits (d.rd (llbRunField c)) (llbRunBit c) 3 0), (LLB_CH_EN.EN, m), (LLB_STATUS.BAD_CH, c.val),
      (LLB_EVENT.TPL_BAD, 1)] := by
  have hword := llbRun_word (d := d) c 0
  have hcode : llbRefuse c d = (((setLlbRun c 0 d).putBitOf LLB_CH_EN.EN c false).wr LLB_STATUS.BAD_CH c).ev LLB_EVENT.TPL_BAD := by
    unfold llbRefuse
    rw [if_neg (by omega)]
  rw [hcode, setLlbRun_eq]
  generalize setBits (d.rd (llbRunField c)) (llbRunBit c) 3 0 = r at hword ⊢
  exact ⟨_, bit_putBit _ c false, refuse_wrote c hword (putBit_lt (rd_lt _ LLB_CH_EN.EN) c.isLt) d⟩

/-- What a template whose parity failed shows of its channel. -/
def llbMarks (c : Nat) : List Field := llbRunField c :: LLB_CH_EN.EN :: LLB_STATUS.BAD_CH :: LLB_EVENT.TPL_BAD :: parityFields

theorem llbMarks_apart : ∀ c : Fin 16, (∀ g ∈ llbMarks c, Field.apart LLB_STATUS.ACTIVE g = true) ∧
    (∀ g ∈ llbMarks c, Field.apart LLB_STATUS.SENDING g = true) ∧
    ∀ f ∈ [llbRunField c, LLB_CH_EN.EN, LLB_STATUS.BAD_CH, LLB_EVENT.TPL_BAD], ∀ g ∈ parityFields, Field.apart f g = true := by
  decide

/-- A template whose parity failed stops its channel. -/
theorem llbParity_stops (c : Fin 16) (hrun : d.llbRun c ≠ 0) : (llbParity c d).rd LLB_STATUS.BAD_CH = c.val ∧
    (llbParity c d).rd LLB_EVENT.TPL_BAD = 1 ∧ (llbParity c d).llbRun c = 0 ∧ (llbParity c d).bitOf LLB_CH_EN.EN c = false ∧
    ∀ g ∈ parityFields, (llbParity c d).rd g = d.rd g := by
  have hcode : llbParity c d = llbRefresh (llbRefuse c (d.lcMod c fun x => { x with build := none })) := by
    have hne : ¬ c.val = 16 := by omega
    simp only [llbParity, if_neg hne, if_neg hrun, if_pos c.isLt]
  obtain ⟨m, hm, hrefuse⟩ := llbRefuse_wrote c (d.lcMod c fun x => { x with build := none })
  obtain ⟨hact, hsend, hapart⟩ := llbMarks_apart c
  have hbefore (g : Field) : (d.lcMod c fun x => { x with build := none }).rd g = d.rd g := rfl
  rw [hcode]
  generalize (d.lcMod c fun x => { x with build := none }) = y at hrefuse hbefore ⊢
  have hstands : Stands (· ∈ llbMarks c) (llbRefuse c y) (llbRefresh (llbRefuse c y)) := llbRefresh_stands hact hsend
  refine ⟨(hstands.rd (by simp [llbMarks])).trans (hrefuse.nth 2 rfl), (hstands.rd (by simp [llbMarks])).trans (hrefuse.nth 3 rfl),
    ?_, ?_, fun g hg => ?_⟩
  · rw [llbRun_eq, hstands.rd (by simp [llbMarks]), hrefuse.nth 0 rfl, bits_setBits_same]
    rfl
  · rw [Dev.bitOf, hstands.rd (by simp [llbMarks]), hrefuse.nth 1 rfl, hm]
  · rw [hstands.rd (by simp [llbMarks, hg]), hrefuse.beside.rd fun f hf => hapart f (by simpa using hf) g hg, hbefore]

theorem tableParity_entry (ix : Fin 4096) {o : Nat} (hpd : d.pd 1 = true) (hlo : 0x210000 + 32 * ix.val ≤ o)
    (hhi : o < 0x210000 + 32 * ix.val + 32) :
    tableParity o d = clsInvalid false ix (parityNoted 0 ((o - 0x210000) / 4) d) := by
  rw [tableParity_cls hpd (by omega), show (o - 0x210000) / 32 = ix by omega]

/-- A failed word of the operational list of channel n. -/
theorem tableParity_list (n : Fin 4) (b : Fin 2) {o : Nat} (hpd : d.pd 1 = true)
    (hlo : 0x200000 + 0x4000 * n.val + 0x2000 * b.val ≤ o) (hhi : o < 0x200000 + 0x4000 * n.val + 0x2000 * b.val + 0x2000)
    (hoper : (d.gate n).oper = some b.val) : tableParity o d = fence n 4 (parityNoted 3 ((o - 0x200000) / 4) d) := by
  have hch : (o - 0x200000) / 0x4000 = n := by omega
  have hbank : (o - 0x200000) / 0x2000 % 2 = b := by omega
  rw [tableParity_gate hpd (by omega), hch, hbank]
  refine gateParity_oper ?_
  rw [Dev.gate, Dev.ch, parityNoted_chan]
  exact hoper

theorem parity_causes (n word w : Nat) (hpd : d.pd 1 = true) : (parityNoted w word d).causes n = d.causes n :=
  causes_congr ((parityNoted_stands hpd).rd (by decide)) n

/-- A failed list fences its channel with cause TABLE. -/
theorem listParity_fences (n : Fin 4) (word : Nat) (hpd : d.pd 1 = true) (hlen : d.chan.length = 4) :
    (fence n 4 (parityNoted 3 word d)).pen 15 = min 255 (d.pen 15 + d.weight 15) ∧
    ((fence n 4 (parityNoted 3 word d)).fenced n = true ∧ bit ((fence n 4 (parityNoted 3 word d)).causes n) 4 = true) ∧
    ((fence n 4 (parityNoted 3 word d)).gate n).oper = none ∧
    (d.causes n = 0 → ((fence n 4 (parityNoted 3 word d)).gate n).st = 0) ∧
    (fence n 4 (parityNoted 3 word d)).rd SHD_TBL_ERR.WINDOW = 3 := by
  have hnoted := parityNoted_wrote (d := d) 3 word hpd
  have hpen : (parityNoted 3 word d).rd (SHD_PENj.PEN 3) = bucketWord d := hnoted.nth 4 rfl
  have hwindow : (parityNoted 3 word d).rd SHD_TBL_ERR.WINDOW = 3 := hnoted.nth 0 rfl
  have hcauses := parity_causes (d := d) n word 3 hpd
  have hn : n.val < (parityNoted 3 word d).chan.length := by rw [parityNoted_chan, hlen]; exact n.isLt
  generalize parityNoted 3 word d = y at hpen hwindow hcauses hn ⊢
  have hkeep (g : Field) (hg : g ∈ parityFields) : (fence n 4 y).rd g = y.rd g :=
    fence_rd (P := (· ∈ parityFields)) n (by decide) (parityMarks_apart n)
      (fun g hg => (parityFields_low g hg).trans (by decide)) g hg
  obtain ⟨hoper, hst⟩ := fence_table_gate (d := y) hn
  refine ⟨pen_bucket ((hkeep _ (by simp [parityFields])).trans hpen), ⟨?_, ?_⟩, hoper, fun h => hst (hcauses.trans h),
    (hkeep _ (by simp [parityFields])).trans hwindow⟩
  · rw [Dev.fenced, Dev.on, fence_fenced n (by decide)]
    rfl
  · rw [fence_causes n (by decide)]
    exact bit_putBit_self _ _

/-- The words of a report as the registers hold them, and its end. -/
theorem reportTake_shows (d : Dev) : Stands (Beside [SHD_REPORTw.WORD 0, SHD_REPORTw.WORD 1, SHD_REPORTw.WORD 2,
      SHD_REPORTw.WORD 3, SHD_REPORTw.WORD 4, SHD_REPORTw.WORD 5, SHD_REPORTw.WORD 6, SHD_REPORTw.WORD 7,
      SHD_REPORT_CTRL.TAKE, SHD_EVENT.REPORT_READY]) d (reportTake 0 d) ∧
    (∀ w < 8, (reportTake 0 d).rd (SHD_REPORTw.WORD w) = report d w % 2 ^ 32) ∧
    (reportTake 0 d).rd SHD_EVENT.REPORT_READY = 1 ∧ (reportTake 0 d).rd SHD_REPORT_CTRL.TAKE = 0 := by
  have hwrote := reportTake_wrote d
  generalize report d = f at hwrote ⊢
  refine ⟨hwrote.beside, fun w hw => ?_, hwrote.nth 9 rfl, hwrote.nth 8 rfl⟩
  interval_cases w
  · exact hwrote.nth 0 rfl
  · exact hwrote.nth 1 rfl
  · exact hwrote.nth 2 rfl
  · exact hwrote.nth 3 rfl
  · exact hwrote.nth 4 rfl
  · exact hwrote.nth 5 rfl
  · exact hwrote.nth 6 rfl
  · exact hwrote.nth 7 rfl

theorem report_time (d : Dev) : report d 2 % 2 ^ 32 = d.now % 2 ^ 32 ∧ report d 3 % 2 ^ 32 = d.now / 2 ^ 32 % 2 ^ 32 := by
  rw [report, reportWords]
  simp only [List.cons_append, List.getD_cons_succ, List.getD_cons_zero, report, reportWords, Nat.mod_mod]
  exact ⟨trivial, trivial⟩

theorem reportTake_words (d : Dev) : (reportTake 0 d).rd (SHD_REPORTw.WORD 0) = 1 + d.rd SHD_STATUS.SCORE * 2 ^ 8 +
      d.rd SHD_STATUS.WORST * 2 ^ 16 + d.tier * 2 ^ 21 + b2n d.holds * 2 ^ 24 + b2n d.valid * 2 ^ 25 ∧
    (reportTake 0 d).rd (SHD_REPORTw.WORD 1) = d.rd SHD_FAULT.FAULT ∧
    (reportTake 0 d).rd (SHD_REPORTw.WORD 2) = d.now % 2 ^ 32 ∧
    (reportTake 0 d).rd (SHD_REPORTw.WORD 3) = d.now / 2 ^ 32 % 2 ^ 32 ∧
    (reportTake 0 d).rd (SHD_REPORTw.WORD 7) =
      crc32 ((List.range 7).flatMap fun w => leBytes 4 ((reportTake 0 d).rd (SHD_REPORTw.WORD w))) := by
  obtain ⟨-, hwords, -⟩ := reportTake_shows d
  obtain ⟨hlo, hhi⟩ := report_time d
  have hlist : ((List.range 7).flatMap fun w => leBytes 4 ((reportTake 0 d).rd (SHD_REPORTw.WORD w))) =
      (List.range 7).flatMap fun w => leBytes 4 (report d w % 2 ^ 32) := by
    refine congrArg List.flatten (List.map_congr_left fun w hw => ?_)
    rw [hwords w ((List.mem_range.mp hw).trans (by decide))]
  rw [hlist, hwords 0 (by decide), hwords 1 (by decide), hwords 2 (by decide), hwords 3 (by decide), hwords 7 (by decide)]
  exact ⟨report_first d, report_fault d, hlo, hhi, report_check d⟩

theorem loopStart_shows (n : Fin 4) (g : Shd → Shd) : Wrote d (((d.wrB SHD_STATUS.TEST_BUSY true).wr SHD_STATUS.TEST_LANE n).shdMod g)
      [(SHD_STATUS.TEST_BUSY, 1), (SHD_STATUS.TEST_LANE, n.val)] ∧
    (((d.wrB SHD_STATUS.TEST_BUSY true).wr SHD_STATUS.TEST_LANE n).shdMod g).shd = g d.shd ∧
    (((d.wrB SHD_STATUS.TEST_BUSY true).wr SHD_STATUS.TEST_LANE n).shdMod g).chan = d.chan := by
  have hbeyond : Beyond d ((d.wrB SHD_STATUS.TEST_BUSY true).wr SHD_STATUS.TEST_LANE n) := (Beyond.refl d).wrB.wr
  have hwrote := ((Wrote.refl d).wrB (f := SHD_STATUS.TEST_BUSY) (b := true) (by decide) Nat.one_pos).wr
    (f := SHD_STATUS.TEST_LANE) (v := n.val) (by decide) n.isLt
  generalize (d.wrB SHD_STATUS.TEST_BUSY true).wr SHD_STATUS.TEST_LANE n = x at hbeyond hwrote ⊢
  refine ⟨hwrote.shdMod, ?_, hbeyond.chan⟩
  rw [← hbeyond.part Dev.shd fun _ _ _ => rfl]
  rfl

theorem lbNoted_chan (n res : Nat) : (lbNoted n res d).chan = d.chan := (Beyond.refl d).wrB.wr.wr.chan

/-- A decay step, and its superframe noted. -/
theorem decay_shows (x : Option Nat) :
    Stands (Beside [SHD_PENj.PEN 2, SHD_PENj.PEN 3, SHD_PENj.PEN 4]) d (forN 9 decayOne (d.shdMod fun s => { s with decayed := x })) ∧
    (∀ k : Fin 20, (forN 9 decayOne (d.shdMod fun s => { s with decayed := x })).pen k =
      if 11 ≤ k.val then d.pen k - max 1 (d.pen k / 16) else d.pen k) ∧
    (forN 9 decayOne (d.shdMod fun s => { s with decayed := x })).shd.decayed = x := by
  have hpen (k : Nat) : (d.shdMod fun s => { s with decayed := x }).pen k = d.pen k := rfl
  refine ⟨Stands.trans (.parts (.refl _ d) rfl rfl) decay_stands, fun k => ?_, ?_⟩
  · rw [decay_pen, hpen]
    by_cases hk : 11 ≤ k.val
    · rw [if_pos hk, if_pos ⟨hk, by omega⟩]
    · rw [if_neg hk, if_neg fun h => hk h.1]
  · rw [decay_beyond.part Dev.shd fun _ _ _ => rfl]
    rfl

theorem pegMod_badSlots (sl : Nat) :
    (d.pegMod fun p => { p with badSlots := p.badSlots ++ [sl] }).peg.badSlots = d.peg.badSlots ++ [sl] := by
  rw [pegMod_peg]

theorem slot_marked {ws : List (Field × Nat)} (sl : Nat) (h : Wrote d e ws) (hpeg : e.peg = d.peg) :
    Wrote d (e.pegMod fun p => { p with badSlots := p.badSlots ++ [sl] }) ws ∧
    (e.pegMod fun p => { p with badSlots := p.badSlots ++ [sl] }).peg.badSlots = d.peg.badSlots ++ [sl] :=
  ⟨h.parts rfl rfl, by rw [pegMod_badSlots, hpeg]⟩

theorem slotParity_shows {word : Nat} (sl : Nat) (hpd : d.pd 1 = true) (hword : word < 2 ^ SHD_TBL_ERR.WORD.w) :
    Wrote d ((parityNoted 4 word d).pegMod fun p => { p with badSlots := p.badSlots ++ [sl] }) (parityWrites 4 word d) ∧
    ((parityNoted 4 word d).pegMod fun p => { p with badSlots := p.badSlots ++ [sl] }).peg.badSlots = d.peg.badSlots ++ [sl] := by
  have hnoted := parityNoted_wrote (d := d) 4 word hpd
  rw [Nat.mod_eq_of_lt hword, Nat.mod_eq_of_lt (by decide)] at hnoted
  exact slot_marked sl hnoted (parityNoted_peg 4 word)

/-- A failed word of the operational schedule marks its slot. -/
theorem tableParity_slot (b : Fin 2) (sl : Fin 64) {o : Nat} (hpd : d.pd 1 = true) (hoper : d.peg.oper = some b.val)
    (hlo : 0x2C0000 + 0x400 * b.val + 16 * sl.val ≤ o) (hhi : o < 0x2C0000 + 0x400 * b.val + 16 * sl.val + 16) :
    Wrote d (tableParity o d) (parityWrites 4 ((o - 0x2C0000) / 4) d) ∧
    (tableParity o d).peg.badSlots = d.peg.badSlots ++ [sl.val] := by
  have hbank : (o - 0x2C0000) / 0x400 = b := by omega
  have hslot : (o - 0x2C0000) % 0x400 / 16 = sl := by omega
  have hword : (o - 0x2C0000) / 4 < 2 ^ SHD_TBL_ERR.WORD.w := lt_of_lt_of_le (show (o - 0x2C0000) / 4 < 512 by omega) (by decide)
  rw [tableParity_sched hpd (by omega) (by rw [hbank]; exact hoper), hslot]
  exact slotParity_shows sl hpd hword

/-- A failed word of a template stops its channel. -/
theorem tableParity_template (c : Fin 16) {o : Nat} (hpd : d.pd 1 = true) (hlo : 0x2E0000 + 128 * c.val ≤ o)
    (hhi : o < 0x2E0000 + 128 * c.val + 128) (hrun : d.llbRun c ≠ 0) :
    (tableParity o d).pen 15 = min 255 (d.pen 15 + d.weight 15) ∧ (tableParity o d).rd SHD_TBL_ERR.WINDOW = 5 ∧
    (tableParity o d).rd LLB_STATUS.BAD_CH = c.val ∧ (tableParity o d).rd LLB_EVENT.TPL_BAD = 1 ∧
    (tableParity o d).llbRun c = 0 ∧ (tableParity o d).bitOf LLB_CH_EN.EN c = false := by
  have hc : (o - 0x2E0000) / 128 = c := by omega
  rw [tableParity_llb hpd (by omega), hc]
  generalize (o - 0x2E0000) / 4 = word
  have hnoted := parityNoted_wrote (d := d) 5 word hpd
  have hpen : (parityNoted 5 word d).rd (SHD_PENj.PEN 3) = bucketWord d := hnoted.nth 4 rfl
  have hwindow : (parityNoted 5 word d).rd SHD_TBL_ERR.WINDOW = 5 := hnoted.nth 0 rfl
  have hrun' : (parityNoted 5 word d).llbRun c ≠ 0 := by
    have hfield : Beside parityFields (llbRunField c) := (by decide : ∀ c : Fin 16, Beside parityFields (llbRunField c)) c
    rwa [llbRun_eq, (parityNoted_stands hpd).rd hfield, ← llbRun_eq]
  obtain ⟨hbad, hev, hstop, hen, hkeep⟩ := llbParity_stops c hrun'
  exact ⟨pen_bucket ((hkeep _ (by simp [parityFields])).trans hpen), (hkeep _ (by simp [parityFields])).trans hwindow,
    hbad, hev, hstop, hen⟩

theorem Stands.atMote {P : Field → Prop} (m : Nat) (d : Dev) : Stands P d (atMote m d) := by
  obtain ⟨h, he⟩ := atMote_eq m d
  rw [he]
  exact (Stands.refl P d).parts rfl rfl

theorem atMote_tier (m : Nat) (d : Dev) : (Machine.atMote m d).tier = d.tier := by
  obtain ⟨h, he⟩ := atMote_eq m d
  rw [he]
  rfl

theorem atMote_shd (m : Nat) (d : Dev) : (Machine.atMote m d).shd = d.shd := by
  obtain ⟨h, he⟩ := atMote_eq m d
  rw [he]

theorem atMote_holds (m : Nat) (d : Dev) : (Machine.atMote m d).holds = d.holds ∧ (Machine.atMote m d).valid = d.valid := by
  obtain ⟨h, he⟩ := atMote_eq m d
  rw [he]
  exact ⟨rfl, rfl⟩

end

/-- Settles O45, one clause at a time. -/
theorem healthAndTests : Obligations.HealthAndTests := by
  unfold Obligations.HealthAndTests
  intro s
  refine ⟨fun hpd hsf hnew => ?_, fun n hpd hen hsf hnew hbusy htest hturn => ?_, fun n hbusy hlane hdue hen => ?_,
    fun n res hbusy hlane hdue hrun hen hres => ?_, fun off ix hpd hlo hhi => ?_, fun off n b hpd hlo hhi hoper hlen => ?_,
    fun off b sl hpd hoper hlo hhi => ?_, fun off c hpd hlo hhi hrun => ?_, fun off hpd => ?_, fun m ht _ _ _ => ?_⟩
  · refine ends_run (f := bucketDecay) (fun _ => rfl) ?_
    rw [bucketDecay_eq (d := s.quiet) hpd hsf hnew]
    obtain ⟨hstands, hrest⟩ := decay_shows (d := s.quiet) (some s.quiet.sfIx)
    exact ⟨hstands.only, hstands.2, hrest⟩
  · refine does_run (f := loopStart) (fun _ => rfl) ?_
    rw [loopStart_eq (d := s.quiet) hpd hen hsf hnew hbusy htest hturn]
    exact loopStart_shows n _
  · refine ends_run (f := loopEnd 1) (fun _ => rfl) ?_
    rw [loopEnd_pass (d := s.quiet) n hbusy hlane hdue hen]
    have hnoted := lbNoted_wrote n 1 s.quiet
    have hword : (lbNoted n 1 s.quiet).rd SHD_LB_RESULT.RESULT = lbWord n 1 s.quiet := hnoted.nth 1 rfl
    exact ⟨hnoted.beside.only, hnoted.beside.2, hnoted.nth 0 rfl, lbWord_result (by decide) hword,
      fun k hk => lbWord_ne (d := s.quiet) (Fin.val_ne_of_ne hk) hword, hnoted.nth 2 rfl, lbNoted_chan n 1⟩
  · refine ends_run (f := loopEnd res) (fun _ => rfl) ?_
    exact loopEnd_fail (d := s.quiet) n (fun h => hres (Fin.ext h)) res.isLt hbusy hlane hdue hrun hen
  · refine ends_run (f := tableParity off) (fun _ => rfl) ?_
    obtain ⟨hstands, hrest⟩ := entry_parity (d := s.quiet) ix ((off - 0x210000) / 4) hpd
    rw [tableParity_entry (d := s.quiet) ix hpd hlo hhi]
    exact ⟨hstands.only, hstands.2, hrest⟩
  · refine ends_run (f := tableParity off) (fun _ => rfl) ?_
    rw [tableParity_list (d := s.quiet) n b hpd hlo hhi hoper]
    exact listParity_fences (d := s.quiet) n _ hpd hlen
  · exact does_run (f := tableParity off) (fun _ => rfl) (tableParity_slot (d := s.quiet) b sl hpd hoper hlo hhi)
  · exact ends_run (f := tableParity off) (fun _ => rfl) (tableParity_template (d := s.quiet) c hpd hlo hhi hrun)
  · refine does_run (f := tableParity off) (fun _ => rfl) ?_
    rw [tableParity_off (d := s.quiet) hpd]
    exact ⟨Wrote.refl _, rfl⟩
  · obtain ⟨hboot, hpd⟩ := ht
    refine ends_run (f := fun d => soft 1 (reportTake 0) (atMote m d)) (fun _ => rfl) ?_
    have hnow : (atMote m s.dev).now = (atMote m s.quiet).now := congrArg (fun h : Hearth => h.a.t) (atMote_outs_hearth m s.dev []).symm
    have hrd (g : Field) : (atMote m s.quiet).rd g = s.dev.rd g := atMote_rd m s.quiet g
    have htier : (atMote m s.quiet).tier = s.dev.tier := atMote_tier m s.quiet
    have hshd : (atMote m s.quiet).shd = s.dev.shd := atMote_shd m s.quiet
    obtain ⟨hholds, hvalid⟩ := atMote_holds m s.quiet
    dsimp only
    rw [soft_taken ((atMote_booted m s.quiet).trans hboot) ((atMote_pd m 1 s.quiet).trans hpd), hnow]
    obtain ⟨hstands, -, hready, htake⟩ := reportTake_shows (atMote m s.quiet)
    obtain ⟨h0, h1, h2, h3, h7⟩ := reportTake_words (atMote m s.quiet)
    have hend := reportTake_shd (atMote m s.quiet)
    rw [hrd, hrd, htier, hholds, hvalid] at h0
    rw [hrd] at h1 hend
    rw [hshd] at hend
    have hall := (Stands.atMote m s.quiet).trans hstands
    exact ⟨hall.only, hall.2, h0, h1, h2, h3, h7, hready, htake, hend⟩

end Sys2Proof.Machine
end

section
/-!
PROOFS. O19: modules, a channel's run state, its link (R156, R157, R158).
-/

namespace Sys2Proof.Machine

section
variable {P : Field → Prop} {d e : Dev} {n : Nat}

/-! ### Modules -/

theorem module_fits : ∀ n : Fin 4, fits (CHn_STATUS.MOD_PRESENT n) [] = true ∧
    fits (CHn_EVENT.MOD_IN n) [(CHn_STATUS.MOD_PRESENT n, 0)] = true ∧
    fits (CHn_EVENT.MOD_OUT n) [(CHn_STATUS.MOD_PRESENT n, 0)] = true ∧ fits (CHn_STATUS.TX_FAULT n) [] = true ∧
    fits (CHn_EVENT.TX_FAULT n) [(CHn_STATUS.TX_FAULT n, 0)] = true ∧
    fits (CHn_STATUS.LOS n) [(CHn_STATUS.MOD_PRESENT n, 0)] = true := by decide

theorem modIn_shows (n : Fin 4) (hpd : d.pd 1 = true) (hout : (d.ch n).modIn = false) (hlen : d.chan.length = 4) :
    Wrote d (modIn n d) [(CHn_STATUS.MOD_PRESENT n, 1), (CHn_EVENT.MOD_IN n, 1)] ∧ ((modIn n d).ch n).modIn = true ∧
    ((modIn n d).ch n).modOk = false ∧ ((modIn n d).ch n).modFr = 0 := by
  obtain ⟨hpresent, hin, -⟩ := module_fits n
  have hcode : modIn n d = (((d.wrB (CHn_STATUS.MOD_PRESENT n) true).ev (CHn_EVENT.MOD_IN n)).chMod n fun c =>
      { c with modIn := true, modFr := 0, modOk := false }) := by
    unfold modIn
    rw [if_neg (by rw [hout]; exact Bool.false_ne_true), if_pos hpd]
  have hwrote := ((Wrote.refl d).wrB (b := true) hpresent Nat.one_pos).ev hin Nat.one_pos
  have hlen' : n.val < ((d.wrB (CHn_STATUS.MOD_PRESENT n) true).ev (CHn_EVENT.MOD_IN n)).chan.length := by
    rw [ev_chan, wrB_chan, hlen]
    exact n.isLt
  rw [hcode, ch_chMod hlen']
  exact ⟨hwrote.chMod, rfl, rfl, rfl⟩

/-- A module is gone, before its link follows. -/
def modGone (n : Nat) (d : Dev) : Dev :=
  ((d.wrB (CHn_STATUS.MOD_PRESENT n) false).ev (CHn_EVENT.MOD_OUT n)).chMod n fun c =>
    { c with modIn := false, modFr := 0, modOk := false }

theorem modOut_eq (hpd : d.pd 1 = true) (hin : (d.ch n).modIn = true) : modOut n d =
    if (modGone n d).on (CHn_MOD_CFG.IGNORE_ABS n) then modGone n d
    else linkOffCh true n ((modGone n d).chMod n fun c => { c with goodFr := none }) := by
  unfold modOut
  rw [if_pos hin, if_pos hpd]
  rfl

theorem modGone_wrote (n : Fin 4) (d : Dev) :
    Wrote d (modGone n d) [(CHn_STATUS.MOD_PRESENT n, 0), (CHn_EVENT.MOD_OUT n, 1)] := by
  obtain ⟨hpresent, -, hout, -⟩ := module_fits n
  exact (((Wrote.refl d).wrB (b := false) hpresent Nat.one_pos).ev hout Nat.one_pos).chMod

theorem modGone_ch (hn : n < d.chan.length) : ((modGone n d).ch n).modIn = false ∧ ((modGone n d).ch n).modOk = false := by
  rw [modGone, ch_chMod (by rwa [ev_chan, wrB_chan])]
  exact ⟨rfl, rfl⟩

theorem modGone_length : (modGone n d).chan.length = d.chan.length := by rw [modGone, chan_length, ev_chan, wrB_chan]

theorem gone_fits : ∀ n : Fin 4,
    fits (CHn_MOD_CFG.IGNORE_ABS n) [(CHn_STATUS.MOD_PRESENT n, 0), (CHn_EVENT.MOD_OUT n, 0)] = true ∧
    fits (CHn_STATUS.LINK n) [(CHn_STATUS.MOD_PRESENT n, 0), (CHn_EVENT.MOD_OUT n, 0)] = true := by decide

/-! ### The link goes down (R158) -/

/-- The link of channel n is shown down and counted. -/
def linkShut (n : Nat) (d : Dev) : Dev := stat n 44 1 ((d.wrB (CHn_STATUS.LINK n) false).ev (CHn_EVENT.LINK_DOWN n))

/-- Verification starts over, no mPacket and no good state stays. -/
def linkRestart (n : Nat) (d : Dev) : Dev :=
  (if 2 ≤ d.rd (CHn_PREEMPT_STATUS.VERIFY n) then setVerify n 1 d else d).chMod n fun c => { c with mpq := [], goodFr := none }

/-- The frame on the wire is cut off, with the one in reassembly. -/
def linkCut (n : Nat) (d : Dev) : Dev :=
  ((wireFrm (d.ch n).cur).filter (fun x => x.data.length != 0) ++ wireFrm (d.ch n).pre).foldl
    (fun e x => dropFrame n (if (d.ch n).fencing then 40 else 39) 4 x e)
    (asmDiscard n (d.chMod n fun c => { c with cur := none, pre := none }))

theorem linkOffCh_cut (h : d.on (CHn_STATUS.LINK n) = true) : linkOffCh true n d = linkCut n (linkRestart n (linkShut n d)) :=
  if_pos h

/-- What a link that goes down may write beside LINK and its event. -/
def linkFields (n : Nat) : List Field :=
  [CHn_PREEMPT_STATUS.VERIFY n, CHn_PREEMPT_STATUS.ACTIVE n, CHn_PREEMPT_STATUS.HOLD n] ++ statFields n 44 ++ statFields n 19 ++
    dropFields n 39 ++ dropFields n 40

theorem setVerify_stands {v : Nat} (hP : ∀ f ∈ linkFields n, Free P f) : Stands P d (setVerify n v d) := by
  unfold setVerify setActive
  exact (((Stands.chMod (.refl P d)).wr (hP _ (by simp [linkFields]))).wrB (hP _ (by simp [linkFields]))).wrB
    (hP _ (by simp [linkFields]))

theorem linkRestart_stands (hP : ∀ f ∈ linkFields n, Free P f) : Stands P d (linkRestart n d) :=
  Stands.chMod (.ite (setVerify_stands hP) (.refl P d))

theorem asmDiscard_stands (hP : ∀ f ∈ linkFields n, Free P f) : Stands P d (asmDiscard n d) := by
  unfold asmDiscard
  have hgone : Stands P d (d.chMod n fun c => { c with asm := none }) := .chMod (.refl P d)
  have hcount := ((Work.refl P (d.chMod n fun c => { c with asm := none })).stat (n := n) (i := 19) (v := 1) fun f hf =>
    hP f (by simp [linkFields, hf])).stands
  exact .ite (Stands.pmemSync (hgone.trans hcount) fun f hf => hP f (by simp [linkFields, dropFields, hf])) (.refl P d)

theorem linkCut_reads (hP : ∀ f ∈ linkFields n, Free P f) (hbelow : Below P) (g : Field) (hg : P g) :
    (linkCut n d).rd g = d.rd g := by
  have hcut : Shed P (asmDiscard n (d.chMod n fun c => { c with cur := none, pre := none })) (linkCut n d) := by
    refine Shed.foldl _ (.refl P _) fun x _ y hy => hy.trans (dropFrame_shed ?_ hbelow)
    intro f hf
    split at hf
    · exact hP f (by simp [linkFields, hf])
    · exact hP f (by simp [linkFields, hf])
  rw [hcut.reads g hg, (asmDiscard_stands hP).rd hg, chMod_rd]

/-- A link that goes down shows its event, and moves nothing else that P names. -/
theorem linkOffCh_reads (h : d.on (CHn_STATUS.LINK n) = true) (hP : ∀ f ∈ linkFields n, Free P f) (hbelow : Below P) (g : Field)
    (hg : P g) : (linkOffCh true n d).rd g = ((d.wrB (CHn_STATUS.LINK n) false).ev (CHn_EVENT.LINK_DOWN n)).rd g := by
  rw [linkOffCh_cut h, linkCut_reads hP hbelow g hg, (linkRestart_stands hP).rd hg, linkShut,
    ((Work.refl P _).stat fun f hf => hP f (by simp [linkFields, hf])).reads g hg]

/-- A part of a channel that the fall of its link leaves alone. -/
structure LinkFree {α : Type} (π : Chan → α) : Prop where
  verify : ∀ (c : Chan) v m, π { c with verT := v, mpq := m } = π c
  good : ∀ c : Chan, π { c with mpq := [], goodFr := none } = π c
  asm : ∀ c : Chan, π { c with asm := none } = π c

theorem asmDiscard_keeps {α : Type} {π : Chan → α} (hπ : LinkFree π) (m : Nat) : π ((asmDiscard n d).ch m) = π (d.ch m) := by
  unfold asmDiscard
  split
  · have hsync : Work (fun _ => False) (d.chMod n fun c => { c with asm := none })
        (pmemSync (stat n 19 1 (d.chMod n fun c => { c with asm := none }))) :=
      Work.pmemSync (Work.stat (.refl _ _) fun _ _ _ h => h.elim) fun _ _ _ h => h.elim
    rw [hsync.ch, chMod_keeps π hπ.asm]
  · rfl

theorem setVerify_keeps {α : Type} {π : Chan → α} (hπ : LinkFree π) {v : Nat} (m : Nat) :
    π ((setVerify n v d).ch m) = π (d.ch m) := by
  have hbeyond : Beyond (d.chMod n fun c => { c with
      verT := if v = 2 then c.verT else none, mpq := if v < 2 then c.mpq.filter (· != .verify) else c.mpq }) (setVerify n v d) := by
    unfold setVerify setActive
    exact (Beyond.refl _).wr.wrB.wrB
  rw [hbeyond.ch, chMod_keeps π fun c => hπ.verify c _ _]

theorem linkRestart_keeps {α : Type} {π : Chan → α} (hπ : LinkFree π) (m : Nat) : π ((linkRestart n d).ch m) = π (d.ch m) := by
  rw [linkRestart, chMod_keeps π hπ.good]
  split
  · exact setVerify_keeps hπ m
  · rfl

theorem linkShut_ch (m : Nat) : (linkShut n d).ch m = d.ch m :=
  ((Beyond.refl d).wrB.ev.trans (stat_beyond 44 1)).ch m

theorem linkOffCh_keeps {α : Type} {π : Chan → α} (hπ : LinkFree π) (hcut : ∀ c : Chan, π { c with cur := none, pre := none } = π c)
    (h : d.on (CHn_STATUS.LINK n) = true) (m : Nat) : π ((linkOffCh true n d).ch m) = π (d.ch m) := by
  have hdrop (y : Dev) : Shed (fun _ => False) (asmDiscard n (y.chMod n fun c => { c with cur := none, pre := none })) (linkCut n y) :=
    Shed.foldl _ (.refl _ _) fun x _ y hy => hy.trans (dropFrame_shed (fun _ _ _ h => h.elim) fun _ h => h.elim)
  rw [linkOffCh_cut h, (hdrop _).ch, asmDiscard_keeps hπ, chMod_keeps π hcut, linkRestart_keeps hπ, linkShut_ch]

theorem linkOffCh_cur (h : d.on (CHn_STATUS.LINK n) = true) : ((linkOffCh true n d).ch n).cur = none := by
  have hdrop (y : Dev) : Shed (fun _ => False) (asmDiscard n (y.chMod n fun c => { c with cur := none, pre := none })) (linkCut n y) :=
    Shed.foldl _ (.refl _ _) fun x _ y hy => hy.trans (dropFrame_shed (fun _ _ _ h => h.elim) fun _ h => h.elim)
  have hkeep := asmDiscard_keeps (π := Chan.cur) (n := n) (m := n)
    (d := (linkRestart n (linkShut n d)).chMod n fun c => { c with cur := none, pre := none })
    ⟨fun _ _ _ => rfl, fun _ => rfl, fun _ => rfl⟩
  rw [linkOffCh_cut h, (hdrop _).ch, hkeep, ch_chMod_fix (g := fun c => { c with cur := none, pre := none }) rfl]

/-- What shows a module that is gone, and the link with it. -/
def modMarks (n : Nat) : List Field :=
  [CHn_STATUS.MOD_PRESENT n, CHn_EVENT.MOD_OUT n, CHn_STATUS.LINK n, CHn_EVENT.LINK_DOWN n]

theorem modMarks_apart : ∀ n : Fin 4, (∀ f ∈ linkFields n, ∀ g ∈ modMarks n, Field.apart f g = true) ∧
    ∀ g ∈ modMarks n, g.off < 0x238000 := by decide

theorem link_fits : ∀ n : Fin 4,
    fits (CHn_STATUS.LINK n) [(CHn_STATUS.MOD_PRESENT n, 0), (CHn_EVENT.MOD_OUT n, 0)] = true ∧
    fits (CHn_EVENT.LINK_DOWN n) [(CHn_STATUS.MOD_PRESENT n, 0), (CHn_EVENT.MOD_OUT n, 0), (CHn_STATUS.LINK n, 0)] = true := by
  decide

/-- A module that is removed takes its link down. -/
theorem modOut_link (n : Fin 4) (hpd : d.pd 1 = true) (hin : (d.ch n).modIn = true)
    (hign : d.on (CHn_MOD_CFG.IGNORE_ABS n) = false) (hlink : d.on (CHn_STATUS.LINK n) = true) (hlen : d.chan.length = 4) :
    (modOut n d).rd (CHn_STATUS.MOD_PRESENT n) = 0 ∧ (modOut n d).rd (CHn_EVENT.MOD_OUT n) = 1 ∧
    (modOut n d).rd (CHn_STATUS.LINK n) = 0 ∧ (modOut n d).rd (CHn_EVENT.LINK_DOWN n) = 1 ∧ ((modOut n d).ch n).modIn = false ∧
    ((modOut n d).ch n).cur = none := by
  have hgone := modGone_wrote n d
  obtain ⟨hfits, hfitsLink⟩ := gone_fits n
  obtain ⟨hshut, hdown⟩ := link_fits n
  obtain ⟨hapart, hbelow⟩ := modMarks_apart n
  obtain ⟨hmod, -⟩ := modGone_ch (d := d) (n := n) (by rw [hlen]; exact n.isLt)
  have hcode : modOut n d = linkOffCh true n ((modGone n d).chMod n fun c => { c with goodFr := none }) := by
    rw [modOut_eq hpd hin, hgone.on hfits, hign, if_neg Bool.false_ne_true]
  have hy := hgone.chMod (n := n) (g := fun c => { c with goodFr := none })
  have hmod' : (((modGone n d).chMod n fun c => { c with goodFr := none }).ch n).modIn = false :=
    (chMod_keeps Chan.modIn (g := fun c => { c with goodFr := none }) fun _ => rfl).trans hmod
  rw [hcode]
  generalize ((modGone n d).chMod n fun c => { c with goodFr := none }) = y at hy hmod' ⊢
  have hon : y.on (CHn_STATUS.LINK n) = true := (hy.on hfitsLink).trans hlink
  have hmarks := (hy.wrB (b := false) hshut Nat.one_pos).ev hdown Nat.one_pos
  have hread := linkOffCh_reads (P := (· ∈ modMarks n)) hon hapart hbelow
  refine ⟨(hread _ (by simp [modMarks])).trans (hmarks.nth 0 rfl), (hread _ (by simp [modMarks])).trans (hmarks.nth 1 rfl),
    (hread _ (by simp [modMarks])).trans (hmarks.nth 2 rfl), (hread _ (by simp [modMarks])).trans (hmarks.nth 3 rfl), ?_,
    linkOffCh_cur hon⟩
  exact (linkOffCh_keeps (π := Chan.modIn) ⟨fun _ _ _ => rfl, fun _ => rfl, fun _ => rfl⟩ (fun _ => rfl) hon n).trans hmod'

/-! ### Run state -/

theorem laneOn_fits : ∀ n : Fin 4, fits (CHn_STATUS.RUN n) [(CLK_STATUS.LANE_LOCK, 0)] = true := by decide

theorem channelOn_shows (n : Fin 4) (hrun : d.chRun n = 1) (hlane : d.bitOf RAT_DOM_STATUS.LANE_ON n = true)
    (hmod : d.txPermit n = true) : Wrote d (channelOn n d)
      [(CLK_STATUS.LANE_LOCK, putBit (d.rd CLK_STATUS.LANE_LOCK) n true), (CHn_STATUS.RUN n, 2)] ∧
    (channelOn n d).chan = d.chan := by
  have hlt : putBit (d.rd CLK_STATUS.LANE_LOCK) n true < 2 ^ CLK_STATUS.LANE_LOCK.w := putBit_lt (rd_lt d _) n.isLt
  have hcode : channelOn n d = (d.putBitOf CLK_STATUS.LANE_LOCK n true).wr (CHn_STATUS.RUN n) 2 := if_pos ⟨hrun, hlane, hmod⟩
  rw [hcode, Dev.putBitOf]
  generalize putBit (d.rd CLK_STATUS.LANE_LOCK) n true = w at hlt ⊢
  exact ⟨((Wrote.refl d).wr (by decide) hlt).wr (laneOn_fits n) (show 2 < 2 ^ 3 by decide), by rw [wr_chan, wr_chan]⟩

/-- Quiescence before a new start: the lane in electrical idle. -/
def laneIdle (n : Nat) (d : Dev) : Dev := pcsOff n ((d.wr (CHn_STATUS.RUN n) (runQuiet (d.chRun n))).ev (CHn_EVENT.STOPPED n))

theorem idle_fits : ∀ n : Fin 4, fits (CHn_STATUS.RUN n) [] = true ∧ fits (CHn_EVENT.STOPPED n) [(CHn_STATUS.RUN n, 0)] = true ∧
    fits (CHn_STATUS.BLOCK_LOCK n) [(CHn_STATUS.RUN n, 0), (CHn_EVENT.STOPPED n, 0)] = true ∧
    fits (CHn_STATUS.HI_BER n) [(CHn_STATUS.RUN n, 0), (CHn_EVENT.STOPPED n, 0), (CHn_STATUS.BLOCK_LOCK n, 0)] = true ∧
    fits (CHn_STATUS.LOCAL_FAULT n) [(CHn_STATUS.RUN n, 0), (CHn_EVENT.STOPPED n, 0), (CHn_STATUS.BLOCK_LOCK n, 0),
      (CHn_STATUS.HI_BER n, 0)] = true ∧
    fits (CHn_STATUS.REMOTE_FAULT n) [(CHn_STATUS.RUN n, 0), (CHn_EVENT.STOPPED n, 0), (CHn_STATUS.BLOCK_LOCK n, 0),
      (CHn_STATUS.HI_BER n, 0), (CHn_STATUS.LOCAL_FAULT n, 0)] = true := by decide

theorem laneIdle_wrote (n : Fin 4) {v : Nat} (hquiet : runQuiet (d.chRun n) = v) (hv : v < 8) : Wrote d (laneIdle n d)
    [(CHn_STATUS.RUN n, v), (CHn_EVENT.STOPPED n, 1), (CHn_STATUS.BLOCK_LOCK n, 0), (CHn_STATUS.HI_BER n, 0),
      (CHn_STATUS.LOCAL_FAULT n, 0), (CHn_STATUS.REMOTE_FAULT n, 0)] := by
  obtain ⟨hrun, hstop, hlock, hber, hlocal, hremote⟩ := idle_fits n
  rw [laneIdle, hquiet]
  exact ((((((Wrote.refl d).wr hrun hv).ev hstop Nat.one_pos).wrB (b := false) hlock Nat.one_pos).wrB (b := false) hber
    Nat.one_pos).wrB (b := false) hlocal Nat.one_pos).wrB (b := false) hremote Nat.one_pos |>.chMod

theorem laneIdle_keeps {α : Type} {π : Chan → α} (hπ : ∀ c : Chan, π { c with goodFr := none } = π c) (m : Nat) :
    π ((laneIdle n d).ch m) = π (d.ch m) := by
  have hbeyond : Beyond d ((((((d.wr (CHn_STATUS.RUN n) (runQuiet (d.chRun n))).ev (CHn_EVENT.STOPPED n)).wrB (CHn_STATUS.BLOCK_LOCK n)
    false).wrB (CHn_STATUS.HI_BER n) false).wrB (CHn_STATUS.LOCAL_FAULT n) false).wrB (CHn_STATUS.REMOTE_FAULT n) false) :=
    (Beyond.refl d).wr.ev.wrB.wrB.wrB.wrB
  rw [laneIdle, pcsOff, chMod_keeps π hπ, hbeyond.ch]

theorem laneIdle_length : (laneIdle n d).chan.length = d.chan.length := by
  rw [laneIdle, pcsOff, chan_length, wrB_chan, wrB_chan, wrB_chan, wrB_chan, ev_chan, wr_chan]

theorem asmDiscard_none (h : (d.ch n).asm = none) : asmDiscard n d = d := if_neg (by rw [h]; exact Bool.false_ne_true)

theorem channelStopped_eq (hrun : d.chRun n = 3 ∨ d.chRun n = 4) (hcur : (d.ch n).cur = none) (hpre : (d.ch n).pre = none)
    (hasm : (d.ch n).asm = none) : channelStopped n d = chStart n ((laneIdle n d).chMod n fun c => { c with asmSkip := none }) := by
  have hidle : ((laneIdle n d).ch n).asm = none := (laneIdle_keeps (π := Chan.asm) (fun _ => rfl) n).trans hasm
  have hcode : channelStopped n d = chStart n ((asmDiscard n (laneIdle n d)).chMod n fun c => { c with asmSkip := none }) :=
    if_pos ⟨hrun, by rw [hcur]; rfl, by rw [hpre]; rfl⟩
  rw [hcode, asmDiscard_none hidle]

/-- A channel that has not been started again. -/
theorem chStart_idle (h : d.chRun n ≠ 1) : chStart n d = d := if_neg h

theorem start_fits : ∀ n : Fin 4, fits (CHn_STATUS.RATE_NOW n) [(CHn_STATUS.RUN n, 0), (CHn_EVENT.STOPPED n, 0),
      (CHn_STATUS.BLOCK_LOCK n, 0), (CHn_STATUS.HI_BER n, 0), (CHn_STATUS.LOCAL_FAULT n, 0), (CHn_STATUS.REMOTE_FAULT n, 0)] = true ∧
    fits (CHn_CTRL.RATE n) [(CHn_STATUS.RUN n, 0), (CHn_EVENT.STOPPED n, 0), (CHn_STATUS.BLOCK_LOCK n, 0),
      (CHn_STATUS.HI_BER n, 0), (CHn_STATUS.LOCAL_FAULT n, 0), (CHn_STATUS.REMOTE_FAULT n, 0)] = true ∧
    fits (CHn_CTRL.LOOP n) [(CHn_STATUS.RUN n, 0), (CHn_EVENT.STOPPED n, 0), (CHn_STATUS.BLOCK_LOCK n, 0),
      (CHn_STATUS.HI_BER n, 0), (CHn_STATUS.LOCAL_FAULT n, 0), (CHn_STATUS.REMOTE_FAULT n, 0)] = true ∧
    Field.apart (CHn_STATUS.RATE_NOW n) (CHn_CTRL.RATE n) = true ∧ Field.apart (CHn_STATUS.RATE_NOW n) (CHn_CTRL.LOOP n) = true := by
  decide

/-- What a channel in STARTING reads (R155). -/
def startRate (n : Nat) (d : Dev) : Dev := d.wr (CHn_STATUS.RATE_NOW n) (if d.tier10g n then 0 else d.rd (CHn_CTRL.RATE n))

theorem chStart_eq (hrun : d.chRun n = 1) : chStart n d = fecPick n ((startRate n d).chMod n fun c => { c with
    rate := (startRate n d).rd (CHn_CTRL.RATE n), fec := (startRate n d).rd (CHn_CTRL.FEC n),
    loop := (startRate n d).rd (CHn_CTRL.LOOP n), strip := (startRate n d).on (CHn_CTRL.FCS_STRIP n) }) := if_pos hrun

theorem fecPick_keeps {α : Type} {π : Chan → α} (hπ : ∀ (c : Chan) x, π { c with fecNow := x } = π c) (m : Nat) :
    π ((fecPick n d).ch m) = π (d.ch m) := chMod_keeps π fun c => hπ c _

theorem Wrote.fecPick {ws : List (Field × Nat)} (h : Wrote d e ws) : Wrote d (fecPick n e) ws := Wrote.chMod h

theorem chStart_ch (hrun : d.chRun n = 1) (hn : n < d.chan.length) :
    ((chStart n d).ch n).rate = (startRate n d).rd (CHn_CTRL.RATE n) ∧
    ((chStart n d).ch n).loop = (startRate n d).rd (CHn_CTRL.LOOP n) := by
  have hlen : n < (startRate n d).chan.length := by rwa [startRate, wr_chan]
  rw [chStart_eq hrun, fecPick_keeps (π := Chan.rate) fun _ _ => rfl, fecPick_keeps (π := Chan.loop) fun _ _ => rfl, ch_chMod hlen]
  exact ⟨rfl, rfl⟩

theorem rate_lt (b : Bool) {v : Nat} (hv : v < 2) : (if b then 0 else v) < 2 ^ 1 := by
  split
  · decide
  · exact hv

theorem Wrote.tier {ws : List (Field × Nat)} (h : Wrote d e ws) (hrat : e.rat = d.rat)
    (hf : fits ⟨RAT_STATUS.addr, 0, 32⟩ ws = true) : e.tier = d.tier := by
  have hword : e.word RAT_STATUS.addr = d.word RAT_STATUS.addr := by
    rw [word_eq_rd, word_eq_rd]
    exact h.rd hf
  rw [Dev.tier, Dev.tier, Dev.ratGet, Dev.ratGet, Dev.ratWord, Dev.ratWord, hrat, hword]

theorem laneIdle_rat : (laneIdle n d).rat = d.rat := by
  rw [laneIdle, pcsOff, chMod_rat, wrB_rat, wrB_rat, wrB_rat, wrB_rat, ev_rat, wr_rat]

theorem tier_fits : ∀ n : Fin 4, fits ⟨RAT_STATUS.addr, 0, 32⟩ [(CHn_STATUS.RUN n, 0), (CHn_EVENT.STOPPED n, 0),
      (CHn_STATUS.BLOCK_LOCK n, 0), (CHn_STATUS.HI_BER n, 0), (CHn_STATUS.LOCAL_FAULT n, 0), (CHn_STATUS.REMOTE_FAULT n, 0)] = true := by
  decide

/-- A channel that starts again after its quiescence (Table 4.10). -/
theorem channelStopped_restarts (n : Fin 4) (hrun : d.chRun n = 4) (hlen : d.chan.length = 4) (hcur : (d.ch n).cur = none)
    (hpre : (d.ch n).pre = none) (hasm : (d.ch n).asm = none) : Wrote d (channelStopped n d)
      [(CHn_STATUS.RUN n, 1), (CHn_STATUS.BLOCK_LOCK n, 0), (CHn_STATUS.HI_BER n, 0), (CHn_STATUS.LOCAL_FAULT n, 0),
        (CHn_STATUS.REMOTE_FAULT n, 0), (CHn_EVENT.STOPPED n, 1),
        (CHn_STATUS.RATE_NOW n, if d.tier10g n then 0 else d.rd (CHn_CTRL.RATE n))] ∧
    ((channelStopped n d).ch n).rate = d.rd (CHn_CTRL.RATE n) ∧ ((channelStopped n d).ch n).loop = d.rd (CHn_CTRL.LOOP n) := by
  obtain ⟨hfits, hrate, hloop, hapartRate, hapartLoop⟩ := start_fits n
  have hidle := (laneIdle_wrote n (show runQuiet (d.chRun n) = 1 by rw [hrun]; rfl) (by decide)).chMod (n := n)
    (g := fun c => { c with asmSkip := none })
  have hlen' : n.val < ((laneIdle n d).chMod n fun c => { c with asmSkip := none }).chan.length := by
    rw [chan_length, laneIdle_length, hlen]
    exact n.isLt
  have htier : ((laneIdle n d).chMod n fun c => { c with asmSkip := none }).tier10g n = d.tier10g n := by
    rw [Dev.tier10g, hidle.tier (by rw [chMod_rat, laneIdle_rat]) (tier_fits n), ← Dev.tier10g]
  rw [channelStopped_eq (.inr hrun) hcur hpre hasm]
  generalize ((laneIdle n d).chMod n fun c => { c with asmSkip := none }) = y at hidle hlen' htier ⊢
  have hone : y.chRun n = 1 := hidle.nth 0 rfl
  obtain ⟨hr, hl⟩ := chStart_ch hone hlen'
  have hstart : startRate n y = y.wr (CHn_STATUS.RATE_NOW n) (if d.tier10g n then 0 else d.rd (CHn_CTRL.RATE n)) := by
    rw [startRate, htier, hidle.rd hrate]
  have hv : (if d.tier10g n then 0 else d.rd (CHn_CTRL.RATE n)) < 2 ^ 1 := rate_lt _ (rd_lt d (CHn_CTRL.RATE n))
  refine ⟨?_, ?_, ?_⟩
  · rw [chStart_eq hone, hstart]
    generalize (if d.tier10g n then 0 else d.rd (CHn_CTRL.RATE n)) = v at hv ⊢
    exact Wrote.reorder (hidle.wr hfits hv).chMod.fecPick (by simp) (by simp)
  · rw [hr, hstart, rd_wr_apart _ _ _ _ hapartRate, hidle.rd hrate]
  · rw [hl, hstart, rd_wr_apart _ _ _ _ hapartLoop, hidle.rd hloop]

theorem channelStopped_stays (n : Fin 4) (hrun : d.chRun n = 3) (hcur : (d.ch n).cur = none)
    (hpre : (d.ch n).pre = none) (hasm : (d.ch n).asm = none) : Wrote d (channelStopped n d)
      [(CHn_STATUS.RUN n, 0), (CHn_STATUS.BLOCK_LOCK n, 0), (CHn_STATUS.HI_BER n, 0), (CHn_STATUS.LOCAL_FAULT n, 0),
        (CHn_STATUS.REMOTE_FAULT n, 0), (CHn_EVENT.STOPPED n, 1)] ∧ ((channelStopped n d).ch n).asm = none := by
  have hidle := (laneIdle_wrote n (show runQuiet (d.chRun n) = 0 by rw [hrun]; rfl) (by decide)).chMod (n := n)
    (g := fun c => { c with asmSkip := none })
  have hnone : (((laneIdle n d).chMod n fun c => { c with asmSkip := none }).ch n).asm = none :=
    (chMod_keeps Chan.asm (g := fun c => { c with asmSkip := none }) fun _ => rfl).trans
      ((laneIdle_keeps (π := Chan.asm) (fun _ => rfl) n).trans hasm)
  have hstop : ((laneIdle n d).chMod n fun c => { c with asmSkip := none }).chRun n = 0 := hidle.nth 0 rfl
  rw [channelStopped_eq (.inl hrun) hcur hpre hasm, chStart_idle (by rw [hstop]; decide)]
  exact ⟨hidle.reorder (by simp) (by simp), hnone⟩

/-! ### Good state, and its end -/

theorem good_fits : ∀ n : Fin 4, fits (CHn_STATUS.BLOCK_LOCK n) [] = true ∧
    fits (CHn_STATUS.HI_BER n) [(CHn_STATUS.BLOCK_LOCK n, 0)] = true ∧
    fits (CHn_STATUS.LOCAL_FAULT n) [(CHn_STATUS.BLOCK_LOCK n, 0), (CHn_STATUS.HI_BER n, 0)] = true ∧
    fits (CHn_STATUS.LINK n) [] = true ∧ fits (CHn_EVENT.LINK_UP n) [(CHn_STATUS.LINK n, 0)] = true ∧
    fits (CHn_PREEMPT_STATUS.VERIFY n) [(CHn_STATUS.LINK n, 0), (CHn_EVENT.LINK_UP n, 0)] = true := by decide

theorem pcsGood_shows (n : Fin 4) (hpcs : d.pcsRuns n = true) (hmod : d.modHere n = true) (hlen : d.chan.length = 4) :
    Wrote d (pcsGood n d) [(CHn_STATUS.BLOCK_LOCK n, 1), (CHn_STATUS.HI_BER n, 0), (CHn_STATUS.LOCAL_FAULT n, 0)] ∧
    ((pcsGood n d).ch n).goodFr = some ((d.ch n).goodFr.getD 0) := by
  obtain ⟨hlock, hber, hlocal, -⟩ := good_fits n
  have hwrote := (((Wrote.refl d).wrB (b := true) hlock Nat.one_pos).wrB (b := false) hber Nat.one_pos).wrB (b := false) hlocal Nat.one_pos
  have hcode : pcsGood n d = (((d.wrB (CHn_STATUS.BLOCK_LOCK n) true).wrB (CHn_STATUS.HI_BER n) false).wrB
      (CHn_STATUS.LOCAL_FAULT n) false).chMod n fun c => { c with goodFr := c.goodFr.or (some 0) } :=
    if_pos (by rw [hpcs, hmod]; rfl)
  have hbeyond : Beyond d (((d.wrB (CHn_STATUS.BLOCK_LOCK n) true).wrB (CHn_STATUS.HI_BER n) false).wrB
      (CHn_STATUS.LOCAL_FAULT n) false) := (Beyond.refl d).wrB.wrB.wrB
  rw [hcode]
  generalize (((d.wrB (CHn_STATUS.BLOCK_LOCK n) true).wrB (CHn_STATUS.HI_BER n) false).wrB (CHn_STATUS.LOCAL_FAULT n) false) = x
    at hwrote hbeyond ⊢
  refine ⟨hwrote.chMod, ?_⟩
  rw [ch_chMod (by rw [hbeyond.chan, hlen]; exact n.isLt), hbeyond.ch]
  cases (d.ch n).goodFr <;> rfl

theorem linkUp_shows (n : Fin 4) {k : Nat} (hrun : d.chRun n = 2) (hpcs : d.pcsRuns n = true)
    (hdown : d.on (CHn_STATUS.LINK n) = false) (hmod : d.modHere n = true) (hgood : (d.ch n).goodFr = some k)
    (hheld : d.rd (CHn_LINK_CFG.UP_FR n) ≤ k) (hverify : d.rd (CHn_PREEMPT_STATUS.VERIFY n) ≠ 1) :
    Wrote d (linkUp n d) [(CHn_STATUS.LINK n, 1), (CHn_EVENT.LINK_UP n, 1)] ∧ (linkUp n d).chan = d.chan := by
  obtain ⟨-, -, -, hlink, hev, hfits⟩ := good_fits n
  have hwrote := ((Wrote.refl d).wrB (b := true) hlink Nat.one_pos).ev hev Nat.one_pos
  have hbeyond : Beyond d ((d.wrB (CHn_STATUS.LINK n) true).ev (CHn_EVENT.LINK_UP n)) := (Beyond.refl d).wrB.ev
  have hcode : linkUp n d = verifyGo n ((d.wrB (CHn_STATUS.LINK n) true).ev (CHn_EVENT.LINK_UP n)) := by
    unfold linkUp
    rw [hgood]
    exact if_pos ⟨hrun, hpcs, by rw [hdown]; rfl, hmod, decide_eq_true hheld⟩
  rw [hcode]
  generalize (d.wrB (CHn_STATUS.LINK n) true).ev (CHn_EVENT.LINK_UP n) = x at hwrote hbeyond ⊢
  have hsame : verifyGo n x = x := if_neg fun h => hverify ((hwrote.rd hfits).symm.trans h.1)
  rw [hsame]
  exact ⟨hwrote, hbeyond.chan⟩

/-- What is shown of the cause of a link that goes down (R158). -/
def causeShown (n : Nat) (cause : LinkCause) (d : Dev) : Dev :=
  match cause with
  | .blockLock => d.wrB (CHn_STATUS.BLOCK_LOCK n) false
  | .hiBer => (d.wrB (CHn_STATUS.HI_BER n) true).ev (CHn_EVENT.HI_BER n)
  | .localFault => d.wrB (CHn_STATUS.LOCAL_FAULT n) true

theorem linkDown_eq {cause : LinkCause} (hpcs : d.pcsRuns n = true) : linkDown n cause d =
    linkOffCh true n ((causeShown n cause d).chMod n fun c => { c with goodFr := none }) := by
  cases cause <;> exact if_pos hpcs

/-- What a link that goes down with no frame under way may write. -/
def downFields (n : Nat) : List Field :=
  [CHn_STATUS.LINK n, CHn_EVENT.LINK_DOWN n, CHn_STATUS.BLOCK_LOCK n, CHn_STATUS.HI_BER n, CHn_EVENT.HI_BER n,
    CHn_STATUS.LOCAL_FAULT n, CHn_STATi.COUNT n 44, CHn_STAT_HALF1.HALF n, CHn_EVENT.STAT_HALF n]

/-- What the fall itself may write. -/
def shutFields (n : Nat) : List Field := [CHn_STATUS.LINK n, CHn_EVENT.LINK_DOWN n] ++ statFields n 44

theorem shutFields_sub (n : Nat) : shutFields n ⊆ downFields n := by simp [shutFields, statFields, downFields]

theorem linkShut_stands : Stands (Beside (shutFields n)) d (linkShut n d) := by
  have hev : Stands (Beside (shutFields n)) d ((d.wrB (CHn_STATUS.LINK n) false).ev (CHn_EVENT.LINK_DOWN n)) :=
    ((Stands.refl _ d).wrB (.listed (by simp [shutFields]))).ev (.listed (by simp [shutFields]))
  exact hev.trans ((stat_stands 44 1).widen (by simp [shutFields]))

/-- With no frame on the wire or in reassembly and no verification under way, the fall shows in its registers alone. -/
theorem linkOffCh_bare (h : d.on (CHn_STATUS.LINK n) = true) (hcur : (d.ch n).cur = none) (hpre : (d.ch n).pre = none)
    (hasm : (d.ch n).asm = none) (hverify : (linkShut n d).rd (CHn_PREEMPT_STATUS.VERIFY n) < 2) : linkOffCh true n d =
    ((linkShut n d).chMod n fun c => { c with mpq := [], goodFr := none }).chMod n fun c => { c with cur := none, pre := none } := by
  have hch := linkShut_ch (n := n) (d := d) n
  have hrestart : linkRestart n (linkShut n d) = (linkShut n d).chMod n fun c => { c with mpq := [], goodFr := none } := by
    rw [linkRestart, if_neg (by omega)]
  rw [linkOffCh_cut h, hrestart]
  generalize linkShut n d = x at hch ⊢
  have hkeep {α : Type} (π : Chan → α) (hπ : ∀ c : Chan, π { c with mpq := [], goodFr := none } = π c) :
      π ((x.chMod n fun c => { c with mpq := [], goodFr := none }).ch n) = π (d.ch n) := (chMod_keeps π hπ).trans (congrArg π hch)
  have hnocur := (hkeep Chan.cur fun _ => rfl).trans hcur
  have hnopre := (hkeep Chan.pre fun _ => rfl).trans hpre
  have hnoasm := (hkeep Chan.asm fun _ => rfl).trans hasm
  generalize (x.chMod n fun c => { c with mpq := [], goodFr := none }) = y at hnocur hnopre hnoasm ⊢
  have hnone : ((y.chMod n fun c => { c with cur := none, pre := none }).ch n).asm = none :=
    (chMod_keeps Chan.asm (g := fun c => { c with cur := none, pre := none }) fun _ => rfl).trans hnoasm
  rw [linkCut, hnocur, hnopre, asmDiscard_none hnone]
  rfl

theorem down_fits : ∀ n : Fin 4, (∀ f ∈ shutFields n, Field.apart f (CHn_PREEMPT_STATUS.VERIFY n) = true) ∧
    (∀ f ∈ statFields n 44, Field.apart f (CHn_STATUS.LINK n) = true) ∧
    (∀ f ∈ statFields n 44, Field.apart f (CHn_EVENT.LINK_DOWN n) = true) ∧
    fits (CHn_STATUS.LINK n) [] = true ∧ fits (CHn_EVENT.LINK_DOWN n) [(CHn_STATUS.LINK n, 0)] = true ∧
    fits (CHn_STATi.COUNT n 44) [(CHn_STATUS.LINK n, 0), (CHn_EVENT.LINK_DOWN n, 0)] = true ∧
    fits (CHn_STATUS.FENCED n) [(CHn_STATUS.LINK n, 0), (CHn_EVENT.LINK_DOWN n, 0)] = true := by decide

/-- The fall of a link, counted on a channel that is not fenced. -/
theorem linkShut_shows (n : Fin 4) (hfree : d.fenced n = false) : (linkShut n d).rd (CHn_STATUS.LINK n) = 0 ∧
    (linkShut n d).rd (CHn_EVENT.LINK_DOWN n) = 1 ∧
    (linkShut n d).rd (CHn_STATi.COUNT n 44) = (d.rd (CHn_STATi.COUNT n 44) + 1) % 2 ^ 32 := by
  obtain ⟨-, hlink, hev, hfits, hfitsEv, hcount, hfence⟩ := down_fits n
  have hwrote := ((Wrote.refl d).wrB (b := false) hfits Nat.one_pos).ev hfitsEv Nat.one_pos
  rw [linkShut]
  generalize (d.wrB (CHn_STATUS.LINK n) false).ev (CHn_EVENT.LINK_DOWN n) = x at hwrote ⊢
  refine ⟨?_, ?_, ?_⟩
  · rw [(stat_stands 44 1).rd hlink]
    exact hwrote.nth 0 rfl
  · rw [(stat_stands 44 1).rd hev, hwrote.nth 1 rfl]
  · rw [stat_counts (by decide) ((hwrote.on hfence).trans hfree), hwrote.rd hcount]

/-- What is shown of the cause of a fall. -/
def causeFields (n : Nat) : List Field :=
  [CHn_STATUS.BLOCK_LOCK n, CHn_STATUS.HI_BER n, CHn_EVENT.HI_BER n, CHn_STATUS.LOCAL_FAULT n]

theorem causeShown_stands {cause : LinkCause} : Stands (Beside (causeFields n)) d (causeShown n cause d) := by
  cases cause with
  | blockLock => exact (Stands.refl _ d).wrB (.listed (by simp [causeFields]))
  | hiBer => exact ((Stands.refl _ d).wrB (.listed (by simp [causeFields]))).ev (.listed (by simp [causeFields]))
  | localFault => exact (Stands.refl _ d).wrB (.listed (by simp [causeFields]))

theorem causeShown_beyond {cause : LinkCause} : Beyond d (causeShown n cause d) := by
  cases cause with
  | blockLock => exact (Beyond.refl d).wrB
  | hiBer => exact (Beyond.refl d).wrB.ev
  | localFault => exact (Beyond.refl d).wrB

theorem cause_fits : ∀ n : Fin 4, fits (CHn_STATUS.BLOCK_LOCK n) [] = true ∧ fits (CHn_STATUS.HI_BER n) [] = true ∧
    fits (CHn_EVENT.HI_BER n) [(CHn_STATUS.HI_BER n, 0)] = true ∧ fits (CHn_STATUS.LOCAL_FAULT n) [] = true := by decide

theorem causeShown_shows (n : Fin 4) (cause : LinkCause) :
    (cause = .blockLock → (causeShown n cause d).rd (CHn_STATUS.BLOCK_LOCK n) = 0) ∧
    (cause = .hiBer → (causeShown n cause d).rd (CHn_STATUS.HI_BER n) = 1 ∧ (causeShown n cause d).rd (CHn_EVENT.HI_BER n) = 1) ∧
    (cause = .localFault → (causeShown n cause d).rd (CHn_STATUS.LOCAL_FAULT n) = 1) := by
  obtain ⟨hlock, hber, hev, hlocal⟩ := cause_fits n
  have hberWrote := ((Wrote.refl d).wrB (b := true) hber Nat.one_pos).ev hev Nat.one_pos
  refine ⟨?_, ?_, ?_⟩
  · rintro rfl
    exact ((Wrote.refl d).wrB (b := false) hlock Nat.one_pos).nth 0 rfl
  · rintro rfl
    exact ⟨hberWrote.nth 0 rfl, hberWrote.nth 1 rfl⟩
  · rintro rfl
    exact ((Wrote.refl d).wrB (b := true) hlocal Nat.one_pos).nth 0 rfl

theorem cause_apart : ∀ n : Fin 4, (∀ f ∈ causeFields n, ∀ g ∈ [CHn_STATUS.LINK n, CHn_PREEMPT_STATUS.VERIFY n, CHn_STATUS.FENCED n,
      CHn_STATi.COUNT n 44], Field.apart f g = true) ∧ ∀ f ∈ shutFields n, ∀ g ∈ causeFields n, Field.apart f g = true := by decide

/-- A link that falls with no frame under way. -/
theorem linkDown_shows (n : Fin 4) (cause : LinkCause) (hpcs : d.pcsRuns n = true) (hlink : d.on (CHn_STATUS.LINK n) = true)
    (hverify : d.rd (CHn_PREEMPT_STATUS.VERIFY n) < 2) (hfree : d.fenced n = false) (hcur : (d.ch n).cur = none)
    (hpre : (d.ch n).pre = none) (hasm : (d.ch n).asm = none) :
    Stands (Beside (downFields n)) d (linkDown n cause d) ∧ (linkDown n cause d).rd (CHn_STATUS.LINK n) = 0 ∧
    (linkDown n cause d).rd (CHn_EVENT.LINK_DOWN n) = 1 ∧
    (linkDown n cause d).rd (CHn_STATi.COUNT n 44) = (d.rd (CHn_STATi.COUNT n 44) + 1) % 2 ^ 32 ∧
    (cause = .blockLock → (linkDown n cause d).rd (CHn_STATUS.BLOCK_LOCK n) = 0) ∧
    (cause = .hiBer → (linkDown n cause d).rd (CHn_STATUS.HI_BER n) = 1 ∧ (linkDown n cause d).rd (CHn_EVENT.HI_BER n) = 1) ∧
    (cause = .localFault → (linkDown n cause d).rd (CHn_STATUS.LOCAL_FAULT n) = 1) := by
  obtain ⟨hcause, hshut⟩ := cause_apart n
  obtain ⟨hshutVerify, -⟩ := down_fits n
  obtain ⟨hlock, hber, hlocal⟩ := causeShown_shows (d := d) n cause
  have hstands : Stands (Beside (causeFields n)) d ((causeShown n cause d).chMod n fun c => { c with goodFr := none }) :=
    causeShown_stands.chMod
  have hread (g : Field) : ((causeShown n cause d).chMod n fun c => { c with goodFr := none }).rd g = (causeShown n cause d).rd g :=
    chMod_rd _ _ _ _
  have hkeep {α : Type} (π : Chan → α) (hπ : ∀ c : Chan, π { c with goodFr := none } = π c) :
      π (((causeShown n cause d).chMod n fun c => { c with goodFr := none }).ch n) = π (d.ch n) :=
    (chMod_keeps π hπ).trans (congrArg π (causeShown_beyond.ch n))
  rw [linkDown_eq hpcs]
  have hnocur := (hkeep Chan.cur fun _ => rfl).trans hcur
  have hnopre := (hkeep Chan.pre fun _ => rfl).trans hpre
  have hnoasm := (hkeep Chan.asm fun _ => rfl).trans hasm
  generalize ((causeShown n cause d).chMod n fun c => { c with goodFr := none }) = y at hstands hread hnocur hnopre hnoasm ⊢
  have hsame (g : Field) (hg : g ∈ [CHn_STATUS.LINK n, CHn_PREEMPT_STATUS.VERIFY n, CHn_STATUS.FENCED n, CHn_STATi.COUNT n 44]) :
      y.rd g = d.rd g := hstands.rd fun f hf => hcause f hf g hg
  have hon : y.on (CHn_STATUS.LINK n) = true := by rw [Dev.on, hsame _ (by simp), ← Dev.on, hlink]
  have hv : (linkShut n y).rd (CHn_PREEMPT_STATUS.VERIFY n) < 2 := by
    rwa [linkShut_stands.rd hshutVerify, hsame _ (by simp)]
  have hopen : y.fenced n = false := by rw [Dev.fenced, Dev.on, hsame _ (by simp), ← Dev.on, ← Dev.fenced, hfree]
  obtain ⟨h0, h1, h2⟩ := linkShut_shows n hopen
  have hafter (g : Field) (hg : g ∈ causeFields n) : (linkShut n y).rd g = (causeShown n cause d).rd g :=
    (linkShut_stands.rd fun f hf => hshut f hf g hg).trans (hread g)
  rw [linkOffCh_bare hon hnocur hnopre hnoasm hv]
  simp only [chMod_rd]
  refine ⟨Stands.trans (hstands.widen (by simp [causeFields, downFields]))
    (Stands.chMod (.chMod (linkShut_stands.widen (shutFields_sub n)))), h0, h1, ?_, ?_, ?_, ?_⟩
  · rw [h2, hsame _ (by simp)]
  · rw [hafter _ (by simp [causeFields])]
    exact hlock
  · rw [hafter _ (by simp [causeFields]), hafter _ (by simp [causeFields])]
    exact hber
  · rw [hafter _ (by simp [causeFields])]
    exact hlocal

/-! ### The pins of a module -/

theorem moduleSettled_shows (hin : (d.ch n).modIn = true) (hfr : d.rd (CHn_MOD_CFG.INSERT_FR n) ≤ (d.ch n).modFr)
    (hn : n < d.chan.length) : Wrote d (moduleSettled n d) [] ∧ ((moduleSettled n d).ch n).modOk = true := by
  have hcode : moduleSettled n d = d.chMod n fun c => { c with modOk := true } := if_pos (by rw [hin, decide_eq_true hfr]; rfl)
  rw [hcode, ch_chMod hn]
  exact ⟨(Wrote.refl d).chMod, rfl⟩

theorem txFault_rise (hoff : (d.ch n).txflt = false) (hn : n < d.chan.length) : Wrote d (txFault n .rise d) [] ∧
    ((txFault n .rise d).ch n).txflt = true ∧ ((txFault n .rise d).ch n).fltFr = 0 := by
  have hcode : txFault n .rise d = d.chMod n fun c => { c with txflt := true, fltFr := 0 } :=
    if_neg (by rw [hoff]; exact Bool.false_ne_true)
  rw [hcode, ch_chMod hn]
  exact ⟨(Wrote.refl d).chMod, rfl, rfl⟩

theorem txFault_held (n : Fin 4) (hpd : d.pd 1 = true) (hflt : (d.ch n).txflt = true) (hfr : 2 ≤ (d.ch n).fltFr)
    (hoff : d.on (CHn_STATUS.TX_FAULT n) = false) : Wrote d (txFault n .held d)
      [(CHn_STATUS.TX_FAULT n, 1), (CHn_EVENT.TX_FAULT n, 1)] ∧ (txFault n .held d).chan = d.chan := by
  obtain ⟨-, -, -, hfault, hev, -⟩ := module_fits n
  have hcode : txFault n .held d = (d.wrB (CHn_STATUS.TX_FAULT n) true).ev (CHn_EVENT.TX_FAULT n) :=
    if_pos (by rw [hflt, decide_eq_true hfr, hpd, hoff]; rfl)
  rw [hcode]
  exact ⟨((Wrote.refl d).wrB (b := true) hfault Nat.one_pos).ev hev Nat.one_pos, (Beyond.refl d).wrB.ev.chan⟩

theorem txFault_fall (hn : n < d.chan.length) : Wrote d (txFault n .fall d) [] ∧ ((txFault n .fall d).ch n).txflt = false := by
  have hcode : txFault n .fall d = d.chMod n fun c => { c with txflt := false, fltFr := 0 } := rfl
  rw [hcode, ch_chMod hn]
  exact ⟨(Wrote.refl d).chMod, rfl⟩

theorem faultRetry_shows (n : Fin 4) : Wrote d (faultRetry n d)
    [(CHn_STATUS.TX_FAULT n, if (d.ch n).txflt then d.rd (CHn_STATUS.TX_FAULT n) else 0)] ∧ (faultRetry n d).chan = d.chan := by
  obtain ⟨-, -, -, hfault, -⟩ := module_fits n
  unfold faultRetry
  cases (d.ch n).txflt with
  | true => exact ⟨(Wrote.refl d).idle hfault, rfl⟩
  | false => exact ⟨(Wrote.refl d).wrB (b := false) hfault Nat.one_pos, (Beyond.refl d).wrB.chan⟩

theorem losChange_shows (n : Fin 4) (b : Bool) (hpd : d.pd 1 = true) (hn : n.val < d.chan.length) : Wrote d (losChange n b d)
      [(CHn_STATUS.LOS n, if b then 1 else 0), (CHn_STATUS.MOD_PRESENT n, if (d.ch n).modIn then 1 else 0)] ∧
    ((losChange n b d).ch n).los = b := by
  obtain ⟨hpresent, -, -, -, -, hlos⟩ := module_fits n
  have hch : (d.chMod n fun c => { c with los := b }).ch n = { d.ch n with los := b } := ch_chMod hn
  have hcode : losChange n b d = modShow n (d.chMod n fun c => { c with los := b }) := if_pos hpd
  have hwrote : Wrote d (d.chMod n fun c => { c with los := b }) [] := (Wrote.refl d).chMod
  rw [hcode]
  generalize (d.chMod n fun c => { c with los := b }) = y at hch hwrote ⊢
  have hshow : modShow n y = (y.wrB (CHn_STATUS.MOD_PRESENT n) (d.ch n).modIn).wrB (CHn_STATUS.LOS n) b := by rw [modShow, hch]
  have hboth := (hwrote.wrB (f := CHn_STATUS.MOD_PRESENT n) (b := (d.ch n).modIn) hpresent Nat.one_pos).wrB
    (f := CHn_STATUS.LOS n) (b := b) hlos Nat.one_pos
  rw [hshow, ((Beyond.refl y).wrB (f := CHn_STATUS.MOD_PRESENT n) (b := (d.ch n).modIn)).wrB.ch, hch]
  exact ⟨hboth.reorder (by simp [b2n]) (by simp [b2n]), rfl⟩

end

/-- Settles O19, one clause at a time. -/
theorem modulesRunAndLink : Obligations.ModulesRunAndLink := by
  unfold Obligations.ModulesRunAndLink
  intro s
  have hn (n : Fin 4) (hlen : s.dev.chan.length = 4) : n.val < s.quiet.chan.length :=
    (show n.val < 4 from n.isLt).trans_eq hlen.symm
  refine ⟨fun n hpd hout hlen => ?_, fun n hpd hin hign hlen => ?_, fun n hpd hin hign hlink hlen => ?_, fun n hin hfr hlen => ?_,
    fun n hflt hlen => ?_, fun n hpd hflt hfr hoff => ?_, fun n hlen => ?_, fun n src ht => ?_, fun n b hpd hlen => ?_,
    fun n hrun hlane hmod => ?_, fun n hrun hlen hcur hpre hasm => ?_, fun n hrun hlen hcur hpre hasm => ?_,
    fun n hpcs hmod hlen => ?_, fun n k hrun hpcs hdown hmod hgood hheld hverify => ?_,
    fun n cause hpcs hlink hverify hfree hlen hcur hpre hasm => ?_⟩
  · exact does_run (f := modIn n) (fun _ => rfl) (modIn_shows (d := s.quiet) n hpd hout hlen)
  · refine does_run (f := modOut n) (fun _ => rfl) ?_
    have hgone := modGone_wrote n s.quiet
    rw [modOut_eq (d := s.quiet) hpd hin, hgone.on (gone_fits n).1, show s.quiet.on (CHn_MOD_CFG.IGNORE_ABS n) = true from hign,
      if_pos rfl]
    exact ⟨hgone, modGone_ch (hn n hlen)⟩
  · exact ends_run (f := modOut n) (fun _ => rfl) (modOut_link (d := s.quiet) n hpd hin hign hlink hlen)
  · exact does_run (f := moduleSettled n) (fun _ => rfl) (moduleSettled_shows (d := s.quiet) hin hfr (hn n hlen))
  · exact does_run (f := txFault n .rise) (fun _ => rfl) (txFault_rise (d := s.quiet) hflt (hn n hlen))
  · exact does_run (f := txFault n .held) (fun _ => rfl) (txFault_held (d := s.quiet) n hpd hflt hfr hoff)
  · exact does_run (f := txFault n .fall) (fun _ => rfl) (txFault_fall (d := s.quiet) (hn n hlen))
  · refine does_run (f := softFrom src (action 1 (faultRetry n))) (fun _ => rfl) ?_
    obtain ⟨hboot, hpd⟩ := ht
    rw [softFrom_reached (d := s.quiet) (.inr (.inr hboot)), action, show s.quiet.pd 1 = true from hpd, if_pos rfl]
    exact faultRetry_shows (d := s.quiet) n
  · exact does_run (f := losChange n b) (fun _ => rfl) (losChange_shows (d := s.quiet) n b hpd (hn n hlen))
  · exact does_run (f := channelOn n) (fun _ => rfl) (channelOn_shows (d := s.quiet) n hrun hlane hmod)
  · exact does_run (f := channelStopped n) (fun _ => rfl) (channelStopped_stays (d := s.quiet) n hrun hcur hpre hasm)
  · exact does_run (f := channelStopped n) (fun _ => rfl) (channelStopped_restarts (d := s.quiet) n hrun hlen hcur hpre hasm)
  · exact does_run (f := pcsGood n) (fun _ => rfl) (pcsGood_shows (d := s.quiet) n hpcs hmod hlen)
  · exact does_run (f := linkUp n) (fun _ => rfl) (linkUp_shows (d := s.quiet) n hrun hpcs hdown hmod hgood hheld hverify)
  · refine ends_run (f := linkDown n cause) (fun _ => rfl) ?_
    obtain ⟨hstands, hrest⟩ := linkDown_shows (d := s.quiet) n cause hpcs hlink hverify hfree hcur hpre hasm
    exact ⟨hstands.only, hstands.2, hrest⟩

end Sys2Proof.Machine
end

section
/-!
PROOFS. Doorbells (R127) and the set-up of a mailbox (R128).
-/

namespace Sys2Proof.Machine

section
variable {d e : Dev}

theorem Beyond.host (h : Beyond d e) : e.host = d.host := h.part Dev.host fun _ _ _ => rfl

theorem tagSync_beyond (d : Dev) : Beyond d (tagSync d) := (Beyond.refl d).wr.wr.wr

theorem tagSync_ring (r : Nat) : (tagSync d).ring r = d.ring r := by rw [Dev.ring, (tagSync_beyond d).host, Dev.ring]

theorem tagSync_fn (f : Nat) : (tagSync d).fn f = d.fn f := by rw [Dev.fn, (tagSync_beyond d).host, Dev.fn]

theorem fn_setRing (r f : Nat) (x : Ring) : (d.setRing r x).fn f = d.fn f := rfl

/-! ### Counts of a ring -/

/-- From d to e no ring's counts move, and none meets a descriptor it does not own. -/
def Counts (d e : Dev) : Prop :=
  ∀ r, (e.ring r).prod = (d.ring r).prod ∧ (e.ring r).cons = (d.ring r).cons ∧ (e.ring r).notOwn = (d.ring r).notOwn

theorem Counts.refl (d : Dev) : Counts d d := fun _ => ⟨rfl, rfl, rfl⟩

theorem Counts.of_rings {x : Dev} (h : Counts d e) (hx : x.host.rings = e.host.rings) : Counts d x := fun r => by
  have hring : x.ring r = e.ring r := by rw [Dev.ring, hx, Dev.ring]
  exact hring ▸ h r

theorem Counts.ite {c : Prop} [Decidable c] {x y : Dev} (hx : Counts d x) (hy : Counts d y) : Counts d (if c then x else y) := by
  split
  · exact hx
  · exact hy

theorem Counts.foldl {α : Type} {f : Dev → α → Dev} (l : List α) (h : Counts d e)
    (hf : ∀ a x, Counts d x → Counts d (f x a)) : Counts d (l.foldl f e) := by
  induction l generalizing e with
  | nil => exact h
  | cons a l ih => exact ih (hf a e h)

theorem Counts.setRing {r : Nat} {x : Ring} (h : Counts d e) (hp : x.prod = (e.ring r).prod) (hc : x.cons = (e.ring r).cons)
    (hn : x.notOwn = (e.ring r).notOwn) : Counts d (e.setRing r x) := fun q => by
  rw [ring_setRing]
  split
  · next hq =>
    obtain ⟨hprod, hcons, hown⟩ := h r
    exact hq ▸ ⟨hp.trans hprod, hc.trans hcons, hn.trans hown⟩
  · exact h q

theorem Counts.tagSync (h : Counts d e) : Counts d (tagSync e) := h.of_rings (congrArg HostIf.rings (tagSync_beyond e).host)

theorem Counts.issue {f addr len : Nat} {u : Use} (h : Counts d e) : Counts d (issue f addr len u e) :=
  Counts.tagSync (h.of_rings rfl)

theorem Counts.issueWants (n : Nat) (h : Counts d e) : Counts d (issueWants n e) := by
  induction n generalizing e with
  | zero => exact h
  | succ n ih =>
    unfold Machine.issueWants
    split
    · exact h
    · exact ih (Counts.issue (h.of_rings rfl))

theorem Counts.fetchRing {r : Nat} (h : Counts d e) : Counts d (fetchRing r e) := by
  have hwait (b : Bool) : Counts d (e.setRing r { e.ring r with tagWait := b }) := h.setRing rfl rfl rfl
  unfold Machine.fetchRing
  split
  · exact h
  · exact .ite h (.ite (.ite h ((hwait true).of_rings rfl)) (.ite (hwait false).issue h))

theorem Counts.pump (h : Counts d e) : Counts d (pump e) := by
  have hstart (x : Dev) (r : Nat) (hx : Counts d x) : Counts d (ringStart false r x) := .ite (hx.setRing rfl rfl rfl) hx
  exact Counts.foldl _ (Counts.issueWants _ (h.foldl _ fun r x => hstart x r)) fun _ _ hx =>
    hx.foldl _ fun _ _ hy => .ite hy.fetchRing (hy.fetchRing.of_rings rfl)

/-! ### Doorbells -/

theorem dbBad_wrote (d : Dev) :
    Wrote d (dbBad d) [(DMA_DB_BAD_CNT.COUNT, min (d.rd DMA_DB_BAD_CNT.COUNT + 1) (2 ^ 32 - 1)), (DMA_EVENT.DB_BAD, 1)] :=
  refusal_wrote _ _ (by decide) (by decide) Nat.one_pos

theorem dbBad_beyond (d : Dev) : Beyond d (dbBad d) := (Beyond.refl d).sat.ev

/-- A word of 16 bits has its upper bits clear. -/
theorem bits_above {x lo w : Nat} (h : x < 2 ^ lo) : bits x lo w = 0 := by
  rw [bits, Nat.div_eq_of_lt h, Nat.zero_mod]

theorem doorbell_cyclic {f s x : Nat} (ha : d.aperture f = true) (hc : d.cyclicSlot f s = true) : doorbell f s x d = d := by
  simp [doorbell, ha, hc]

/-- A word below 2^16 is a PROD doorbell. -/
theorem doorbell_prod {f s x : Nat} (ha : d.aperture f = true) (hc : d.cyclicSlot f s = false) (hx : x < 65536) :
    doorbell f s x d = doorbellProd f s x d := by
  simp [doorbell, ha, hc, bits_above (w := 2) (show x < 2 ^ 30 by omega)]

theorem cyclicSlot_of_ring {f s r : Nat} (hs : d.slotRing f s = some r) : d.cyclicSlot f s = (d.ring r).cyclic := by
  simp [Dev.cyclicSlot, hs]

theorem cyclicSlot_of_none {f s : Nat} (hs : d.slotRing f s = none) : d.cyclicSlot f s = false := by
  simp [Dev.cyclicSlot, hs]

theorem doorbellProd_within {f s x r : Nat} (hs : d.slotRing f s = some r) (hx : x < 65536)
    (hfit : (x + 65536 - (d.ring r).consumed) % 65536 ≤ ringLen (d.ring r).size) :
    doorbellProd f s x d = pump (d.setRing r { d.ring r with prod := x, notOwn := false }) := by
  simp [doorbellProd, hs, bits_above (w := 16) (show x < 2 ^ 16 from hx), Nat.mod_eq_of_lt hx, Nat.not_lt.mpr hfit]

theorem doorbellProd_beyond {f s x r : Nat} (hs : d.slotRing f s = some r) (hx : x < 65536)
    (hfar : ringLen (d.ring r).size < (x + 65536 - (d.ring r).consumed) % 65536) : doorbellProd f s x d = dbBad d := by
  simp [doorbellProd, hs, Nat.mod_eq_of_lt hx, hfar]

theorem doorbellProd_none {f s x : Nat} (hs : d.slotRing f s = none) : doorbellProd f s x d = dbBad d := by
  simp [doorbellProd, hs]

/-- PROD has moved, and the fetch that follows leaves the counts. -/
theorem doorbell_moves {f s x r : Nat} (ha : d.aperture f = true) (hs : d.slotRing f s = some r) (hx : x < 65536)
    (hc : (d.ring r).cyclic = false) (hfit : (x + 65536 - (d.ring r).consumed) % 65536 ≤ ringLen (d.ring r).size) :
    ((doorbell f s x d).ring r).prod = x ∧ ((doorbell f s x d).ring r).cons = (d.ring r).cons ∧
      ((doorbell f s x d).ring r).notOwn = false := by
  rw [doorbell_prod ha ((cyclicSlot_of_ring hs).trans hc) hx, doorbellProd_within hs hx hfit]
  obtain ⟨hprod, hcons, hown⟩ := (Counts.refl (d.setRing r { d.ring r with prod := x, notOwn := false })).pump r
  rw [ring_setRing, if_pos rfl] at hprod hcons hown
  exact ⟨hprod, hcons, hown⟩

theorem doorbell_refused {f s x r : Nat} (ha : d.aperture f = true) (hs : d.slotRing f s = some r) (hx : x < 65536)
    (hc : (d.ring r).cyclic = false) (hfar : ringLen (d.ring r).size < (x + 65536 - (d.ring r).consumed) % 65536) :
    doorbell f s x d = dbBad d := by
  rw [doorbell_prod ha ((cyclicSlot_of_ring hs).trans hc) hx, doorbellProd_beyond hs hx hfar]

theorem doorbell_nowhere {f s x : Nat} (ha : d.aperture f = true) (hs : d.slotRing f s = none) (hx : x < 65536) :
    doorbell f s x d = dbBad d := by
  rw [doorbell_prod ha (cyclicSlot_of_none hs) hx, doorbellProd_none hs]

/-! ### The mailbox -/

theorem mbxBaseLo_free {f x : Nat} (hst : (d.ring (416 + f)).st = 0) :
    mbxBaseLo f x d = d.fnMod f fun g => { g with mbxLo := some (bits x 0 30) } := by
  simp [mbxBaseLo, hst]

theorem mbxBaseHi_free {f x lo : Nat} (hst : (d.ring (416 + f)).st = 0) (hlo : (d.fn f).mbxLo = some lo)
    (hsize : bits x 22 3 ≤ 6) :
    mbxBaseHi f x d = (d.fnMod f fun g => { g with mbxLo := none }).setRing (416 + f)
      { st := 2, base := lo * 4096 + bits x 0 22 * 2 ^ 42, size := bits x 22 3, vec := bits x 25 5 } := by
  simp [mbxBaseHi, hst, hlo, Nat.not_lt.mpr hsize]

/-- Bits below the type of a doorbell do not see the type. -/
theorem bits_under {x t lo w : Nat} (ht : t % 2 ^ 30 = 0) (h : lo + w ≤ 30) : bits (t + x) lo w = bits x lo w := by
  rw [← bits_mod (t + x) 30 lo w h, Nat.add_mod, ht, Nat.zero_add, Nat.mod_mod, bits_mod x 30 lo w h]

/-- The mailbox as MBX_RESET leaves it while fetched commands run: closing, with what was to come forgotten. -/
def mbxClosed (f : Nat) (d : Dev) : Dev :=
  (ringForget (416 + f) (d.fnMod f fun g => { g with mbxLo := none })).ringMod (416 + f) fun y => { y with closing := true }

theorem mbxReset_eq {f x : Nat} (hx : bits x 0 30 = 0) : mbxReset f x d = mbxUnset f (mbxClosed f d) := by
  simp [mbxReset, hx, mbxClosed]

theorem mbxClosed_ring (f : Nat) : (mbxClosed f d).ring (416 + f) = { d.ring (416 + f) with closing := true } := by
  rw [mbxClosed, Dev.ringMod, ring_setRing, if_pos rfl]
  rfl

theorem mbxClosed_fn {f : Nat} (hf : f < d.host.fns.length) : ((mbxClosed f d).fn f) = { d.fn f with mbxLo := none } :=
  fn_fnMod (d := d) hf

theorem mbxClosed_length (f : Nat) : (mbxClosed f d).host.fns.length = d.host.fns.length := by
  simp [mbxClosed, Dev.ringMod, Dev.setRing, ringForget, Dev.fnMod, Dev.hostMod]

theorem mbxReset_held {f x : Nat} (hx : bits x 0 30 = 0) (ht : (d.ring (416 + f)).taken ≠ []) :
    mbxReset f x d = mbxClosed f d := by
  rw [mbxReset_eq hx, mbxUnset]
  rw [if_neg (by simpa [mbxClosed_ring] using ht)]

theorem mbxReset_free {f x : Nat} (hx : bits x 0 30 = 0) (ht : (d.ring (416 + f)).taken = []) :
    mbxReset f x d =
      tagSync (((mbxClosed f d).fnMod f fun g => { g with last := none }).setRing (416 + f) {}) := by
  rw [mbxReset_eq hx, mbxUnset]
  rw [if_pos (by simp [mbxClosed_ring, ht])]

/-- A mailbox that holds no fetched command is unset at once. -/
theorem mbxReset_unsets {f x : Nat} (hx : bits x 0 30 = 0) (ht : (d.ring (416 + f)).taken = [])
    (hf : f < d.host.fns.length) :
    Stands (Beside tagFields) d (mbxReset f x d) ∧ (mbxReset f x d).ring (416 + f) = {} ∧
      ((mbxReset f x d).fn f).mbxLo = none ∧ ((mbxReset f x d).fn f).last = none := by
  have hfn : ((mbxReset f x d).fn f) = { (mbxClosed f d).fn f with last := none } := by
    rw [mbxReset_free hx ht, tagSync_fn, fn_setRing, fn_fnMod (hf.trans_eq (mbxClosed_length f).symm)]
  refine ⟨?_, ?_, ?_, ?_⟩
  · rw [mbxReset_free hx ht]
    exact Stands.tagSync ((Stands.refl _ d).parts rfl rfl) fun g hg => Free.listed hg
  · rw [mbxReset_free hx ht, tagSync_ring, ring_setRing, if_pos rfl]
  · rw [hfn, mbxClosed_fn hf]
  · rw [hfn]

end

/-- Settles O16, one clause at a time. -/
theorem doorbells : Obligations.Doorbells := by
  unfold Obligations.Doorbells
  intro s
  have hfn (f : Fin 16) (hlen : s.dev.host.fns.length = 16) : f.val < s.quiet.host.fns.length := f.isLt.trans_eq hlen.symm
  have hboot {g : Dev → Dev} (ht : Taken 1 s) : ifBooted g s.quiet = g s.quiet := ifBooted_true (d := s.quiet) ht.1
  have hcount : s.quiet.rd DMA_DB_BAD_CNT.COUNT = s.dev.rd DMA_DB_BAD_CNT.COUNT := rfl
  have hown {f : Fin 16} {g : Dev → Dev} (ht : Taken 1 s) (ha : s.dev.aperture f.val = true) :
      ifBooted (onMailbox f g) s.quiet = g s.quiet := by
    rw [hboot ht]
    exact if_pos ha
  refine ⟨fun f slot x r ht ha hs hx hc hfit => ?_, fun f slot x r ht ha hs hx hc hfar => ?_, fun f slot x ht ha hs hx => ?_,
    fun f x ht ha hst hlen => ?_, fun f x lo ht ha hst hlo hsize hlen => ?_, fun f slot x ht ha hc => ?_,
    fun f ht ha hlen htaken => ?_, fun f ht ha hlen htaken => ?_⟩
  · refine ends_run (f := ifBooted (doorbell f slot x.toNat)) (fun _ => rfl) ?_
    rw [hboot ht]
    exact doorbell_moves (d := s.quiet) ha hs hx hc hfit
  · refine does_run (f := ifBooted (doorbell f slot x.toNat)) (fun _ => rfl) ?_
    rw [hboot ht, doorbell_refused (d := s.quiet) ha hs hx hc hfar]
    exact ⟨hcount ▸ dbBad_wrote s.quiet, (dbBad_beyond s.quiet).host⟩
  · refine does_run (f := ifBooted (doorbell f slot x.toNat)) (fun _ => rfl) ?_
    rw [hboot ht, doorbell_nowhere (d := s.quiet) ha hs hx]
    exact ⟨hcount ▸ dbBad_wrote s.quiet, (dbBad_beyond s.quiet).host⟩
  · refine does_run (f := ifBooted (onMailbox f (mbxBaseLo f (2 ^ 30 + x.toNat)))) (fun _ => rfl) ?_
    rw [hown ht ha, mbxBaseLo_free (d := s.quiet) hst]
    refine ⟨(Wrote.refl s.quiet).parts rfl rfl, ?_⟩
    rw [fn_fnMod (d := s.quiet) (hfn f hlen)]
    show some (bits (2 ^ 30 + x.toNat) 0 30) = some x.toNat
    rw [bits_under (by decide) (by decide), bits, Nat.pow_zero, Nat.div_one,
      Nat.mod_eq_of_lt x.isLt]
  · have hbits (lo w : Nat) (h : lo + w ≤ 30) : bits (2 ^ 31 + x.toNat) lo w = bits x.toNat lo w := bits_under (by decide) h
    refine does_run (f := ifBooted (onMailbox f (mbxBaseHi f (2 ^ 31 + x.toNat)))) (fun _ => rfl) ?_
    rw [hown ht ha, mbxBaseHi_free (d := s.quiet) hst hlo (by rwa [hbits _ _ (by decide)]), hbits _ _ (by decide),
      hbits _ _ (by decide), hbits _ _ (by decide)]
    refine ⟨(Wrote.refl s.quiet).parts rfl rfl, ?_, ?_⟩
    · exact congrArg Fn.mbxLo (fn_fnMod (d := s.quiet) (g := fun g => { g with mbxLo := none }) (hfn f hlen))
    · rw [ring_setRing, if_pos rfl]
  · refine does_run (f := ifBooted (doorbell f slot x.toNat)) (fun _ => rfl) ?_
    rw [hboot ht, doorbell_cyclic (d := s.quiet) ha hc]
    exact ⟨Wrote.refl s.quiet, rfl⟩
  · refine ends_run (f := ifBooted (onMailbox f (mbxReset f (2 ^ 31 + 2 ^ 30 + (0 : BitVec 30).toNat)))) (fun _ => rfl) ?_
    rw [hown ht ha]
    obtain ⟨hstands, hrest⟩ := mbxReset_unsets (d := s.quiet) (x := 2 ^ 31 + 2 ^ 30 + (0 : BitVec 30).toNat) (by decide) htaken (hfn f hlen)
    exact ⟨hstands.only, hstands.2, hrest⟩
  · refine does_run (f := ifBooted (onMailbox f (mbxReset f (2 ^ 31 + 2 ^ 30 + (0 : BitVec 30).toNat)))) (fun _ => rfl) ?_
    rw [hown ht ha, mbxReset_held (d := s.quiet) (by decide) htaken]
    exact ⟨(Wrote.refl s.quiet).parts rfl rfl, mbxClosed_ring f, congrArg Fn.mbxLo (mbxClosed_fn (hfn f hlen))⟩

end Sys2Proof.Machine
end

section
/-!
PROOFS. Functions are set up: ring assignment (R114), interrupt masks (R116), power states (R125), configuration requests (R88,
R110).
-/

namespace Sys2Proof.Machine

section
variable {d e : Dev} {ws : List (Field × Nat)}

theorem Told.wrote (h : Told d e) : Wrote d e [] := by
  obtain ⟨o, fs, rfl, -⟩ := h
  exact (Wrote.refl d).parts rfl rfl

theorem Wrote.told {x : Dev} (h : Wrote d e ws) (hx : Told e x) : Wrote d x ws := by
  obtain ⟨o, fs, rfl, -⟩ := hx
  exact h.parts rfl rfl

theorem Told.ite {c : Prop} [Decidable c] {x y : Dev} (hx : Told d x) (hy : Told d y) : Told d (if c then x else y) := by
  split
  · exact hx
  · exact hy

/-! ### Ring assignment -/

theorem assignOff_lt (f : Fin 16) (which : Fin 3) : assignOff f which < 0x14200 := by
  simp only [assignOff]
  omega

/-- What holds of the place of an assignment register. -/
theorem assignOff_place (f : Fin 16) (which : Fin 3) : assignOff f which % 4 = 0 ∧ 0x14100 ≤ assignOff f which ∧
    (assignOff f which - 0x14100) / 0x10 = f ∧ assignOff f which % 0x10 / 4 = which := by
  simp only [assignOff]
  omega

theorem bankClosed_assign (f : Fin 16) (which : Fin 3) : bankClosed (assignOff f which) d = false := by
  simp [bankClosed, show ¬ 0x20000 ≤ assignOff f which by have := assignOff_lt f which; omega]

theorem regTake_assign (src : BusSrc) (f : Fin 16) (which : Fin 3) (v : Nat) :
    regTake src (assignOff f which) v d = fnAssign src f which v d := by
  obtain ⟨-, hlow, hf, hwhich⟩ := assignOff_place f which
  simp only [regTake, hlow, assignOff_lt, and_self, if_true, hf, hwhich]

/-- A write of an assignment register that R5 allows is judged by R114. -/
theorem regWrite_assign (src : BusSrc) (f : Fin 16) (which : Fin 3) (v : Nat) :
    regWrite src false (assignOff f which) v d =
      if regBad (assignOff f which) v d then badWr src (assignOff f which) (assignNote (assignOff f which) v d)
      else fnAssign src f which v d := by
  obtain ⟨halign, hlow, -, -⟩ := assignOff_place f which
  have hhigh := assignOff_lt f which
  simp [regWrite, halign, show ¬ 0x200000 ≤ assignOff f which by omega,
    show assignOff f which ≠ HRT_ADJ_CTRL.addr by simp only [HRT_ADJ_CTRL.addr]; omega, bankClosed_assign, regTake_assign]

theorem fnAssign_taken {src : BusSrc} {f : Fin 16} {which : Fin 3} {v : Nat} (hf : f ≠ 0)
    (hfits : assignFits f which (d.setWord (assignOff f which) v) = true) (hst : d.fnState f = 0 ∨ d.fnState f = 3) :
    fnAssign src f which v d = d.setWord (assignOff f which) v := by
  have hpos : f.val ≠ 0 := fun h => hf (Fin.ext h)
  simp [fnAssign, hfits, hpos, hst]

theorem fnAssign_refused {src : BusSrc} {f which v : Nat}
    (hfits : assignFits f which (d.setWord (assignOff f which) v) = false) :
    fnAssign src f which v d = (badWr src (assignOff f which) d).ev HIF_EVENT.ASSIGN_REFUSED := by
  simp [fnAssign, hfits]

theorem assignNote_refused {f : Fin 16} {which : Fin 3} {v : Nat}
    (hfits : assignFits f which (d.setWord (assignOff f which) v) = false) :
    assignNote (assignOff f which) v d = d.ev HIF_EVENT.ASSIGN_REFUSED := by
  obtain ⟨-, hlow, hf, hwhich⟩ := assignOff_place f which
  simp [assignNote, hlow, assignOff_lt, hf, hwhich, hfits]

theorem badWr_fits : fits HIF_EVENT.ASSIGN_REFUSED [(GLB_BADWR.COUNT, 0), (GLB_BADWR_INFO.OFFSET, 0), (GLB_BADWR_INFO.SRC, 0),
    (GLB_BADWR_INFO.FN, 0)] = true := by decide

/-- What breaks R114 is refused and reported, whether R5 refuses it first or not. -/
theorem regWrite_assignRefused (src : BusSrc) (f : Fin 16) (which : Fin 3) (v : Nat)
    (hfits : assignFits f which (d.setWord (assignOff f which) v) = false) :
    Wrote d (regWrite src false (assignOff f which) v d)
      [(GLB_BADWR.COUNT, min (d.rd GLB_BADWR.COUNT + 1) (2 ^ 32 - 1)), (GLB_BADWR_INFO.OFFSET, assignOff f which),
        (GLB_BADWR_INFO.SRC, srcCode src), (GLB_BADWR_INFO.FN, srcFn src), (HIF_EVENT.ASSIGN_REFUSED, 1)] := by
  have hoff : assignOff f which < 2 ^ 22 := (assignOff_lt f which).trans (by decide)
  rw [regWrite_assign]
  split
  · rw [assignNote_refused hfits]
    have hnoted : Wrote d (d.ev HIF_EVENT.ASSIGN_REFUSED) [(HIF_EVENT.ASSIGN_REFUSED, 1)] :=
      (Wrote.refl d).ev (by decide) Nat.one_pos
    have hbad := badWr_wrote src (assignOff f which) (d.ev HIF_EVENT.ASSIGN_REFUSED) hoff
    rw [hnoted.rd (by decide : fits GLB_BADWR.COUNT [(HIF_EVENT.ASSIGN_REFUSED, 1)] = true)] at hbad
    exact (hnoted.append_apart hbad rfl).reorder (by simp) (by simp)
  · rw [fnAssign_refused hfits]
    exact (badWr_wrote src _ d hoff).ev badWr_fits Nat.one_pos

/-! ### Interrupt masks -/

/-- A mask bit that falls may send its message, and nothing else. -/
theorem maskFall_told (n : Nat) (c : Nat → Dev → Bool) (f : Nat) (v : Nat → Dev → Nat) :
    Told d (forN n (fun b x => if c b x then msixSend f (v b x) x else x) d) := by
  induction n with
  | zero => exact .refl d
  | succ n ih =>
    rw [forN_succ]
    exact .ite ih.msixSend ih

theorem rowAt_intMask : rowAt INT_FN0_MASK.addr = some ⟨0x80004, [], [fld 0 21 .rw 0x1FFFFF .n]⟩ := by decide

/-- A value of the low bits alone sets none of those above. -/
theorem and_above {v n k : Nat} (h : v < 2 ^ n) : v &&& 2 ^ n * k = 0 := by
  refine Nat.eq_of_testBit_eq fun i => ?_
  rw [Nat.testBit_and, Nat.testBit_two_pow_mul, Nat.zero_testBit]
  by_cases hi : n ≤ i
  · rw [Nat.testBit_lt_two_pow (h.trans_le (Nat.pow_le_pow_right (by decide) hi)), Bool.false_and]
  · simp [hi]

/-- No mask of INT_FN0_MASK is out of range. -/
theorem regBad_intMask {v : Nat} (h : v < 2 ^ 21) : regBad INT_FN0_MASK.addr v d = false := by
  have hres : v &&& 4292870144 = 0 := and_above (k := 2047) h
  have hmax : ¬ 2097151 < bits v 0 21 := by
    have hlt := bits_lt v 0 21
    omega
  rw [regBad, rowAt_intMask]
  simp [RegRow.reserved, RegRow.outside, fld, hres, hmax, crossSys, crossCore, crossField, INT_FN0_MASK.addr]

theorem regWrite_intMask {src : BusSrc} {v : Nat} (h : v < 2 ^ 21) (hpd : d.pd 1 = true) :
    regWrite src false INT_FN0_MASK.addr v d = intMaskWrite 0 v d := by
  have hbad := regBad_intMask (d := d) h
  simp only [INT_FN0_MASK.addr] at hbad ⊢
  simp [regWrite, hbad, HRT_ADJ_CTRL.addr, bankClosed, regTake, domOf, hpd, regHook, ownStore, INT_FN0_MASK.addr,
    HRT_RATE.addr, RAT_RET_DATA.addr, HIF_VF_HOLD.addr, FLD_GPI_LATCH.addr]

theorem intMask_wrote {v : Nat} (h : v < 2 ^ 21) : Wrote d (intMaskWrite 0 v d) [(INT_FN0_MASK.MASK, v)] := by
  have hset : Wrote d (d.wr INT_FN0_MASK.MASK v) [(INT_FN0_MASK.MASK, v)] := (Wrote.refl d).wr (by decide) h
  rw [intMaskWrite, if_pos rfl]
  exact hset.told (maskFall_told 21 _ 0 fun b x => x.blockVec b)

/-- With no block's status set, the mask is all that a write moves. -/
theorem intMask_silent {v : Nat} (h : d.rd INT_FN0_STATUS.BLOCK = 0) : intMaskWrite 0 v d = d.wr INT_FN0_MASK.MASK v := by
  have hstatus : (d.wr INT_FN0_MASK.MASK v).rd INT_FN0_STATUS.BLOCK = 0 := (rd_wr_apart d _ _ _ (by decide)).trans h
  rw [intMaskWrite, if_pos rfl]
  exact forN_id fun k _ => by simp [Dev.bitOf, hstatus, bit]

theorem msixSend_vfMask {f v : Nat} (k : Nat) : ((msixSend f v d).fn k).vfMask = (d.fn k).vfMask := by
  unfold msixSend
  dsimp only
  split
  · split
    · by_cases hk : k = f
      · subst hk
        by_cases hlen : k < d.host.fns.length
        · rw [fn_fnMod hlen]
        · simp [Dev.fn, Dev.fnMod, Dev.hostMod, List.getD_eq_getElem?_getD, List.getElem?_eq_none (Nat.not_lt.mp hlen)]
      · rw [fn_fnMod_ne d hk]
    · rfl
  · rfl

theorem maskFall_vfMask (n : Nat) (c : Nat → Dev → Bool) (f : Nat) (v : Nat → Dev → Nat) (k : Nat) :
    ((forN n (fun b x => if c b x then msixSend f (v b x) x else x) d).fn k).vfMask = (d.fn k).vfMask := by
  induction n with
  | zero => rfl
  | succ n ih =>
    rw [forN_succ]
    split
    · rw [msixSend_vfMask, ih]
    · exact ih

theorem vfWrite_mask {f : Fin 16} {v : Nat} (ha : d.aperture f = true) (hv : v < 16) :
    vfWrite f false 0x4004 v d = intMaskWrite f v d := by
  simp [vfWrite, ha, vfRegWrite, Nat.not_le.mpr hv]

theorem vfMask_told {f v : Nat} (hf : f ≠ 0) : Told d (intMaskWrite f v d) := by
  rw [intMaskWrite, if_neg hf]
  exact (Told.refl d).fnMod.trans (maskFall_told 4 _ f fun _ x => (x.fn f).vfVec)

theorem vfMask_set {f v : Nat} (hf : f ≠ 0) (hv : v < 16) (hlen : f < d.host.fns.length) :
    ((intMaskWrite f v d).fn f).vfMask = v := by
  rw [intMaskWrite, if_neg hf]
  dsimp only
  rw [maskFall_vfMask 4 _ f (fun _ x => (x.fn f).vfVec) f, fn_fnMod hlen]
  exact Nat.mod_eq_of_lt hv

/-! ### Configuration requests -/

/-- A function that does not issue requests afterwards has nothing to resume. -/
theorem resuming_idle {f : Nat} {g : Dev → Dev} (h : d.fnLive f = true ∨ (g d).fnLive f = false) : resuming f g d = g d := by
  unfold resuming
  split
  · rfl
  · next hlive =>
    rcases h with h | h
    · exact absurd h hlive
    · simp [fnResume, h]

theorem fnLive_of_bme {f : Nat} (h : (d.fn f).bme = false) : d.fnLive f = false := by simp [Dev.fnLive, h]

theorem fnLive_of_d3 {f : Nat} (h : (d.fn f).d3 = true) : d.fnLive f = false := by simp [Dev.fnLive, h]

theorem fnLive_of_state {f : Nat} (h : d.fnState f = 0) : d.fnLive f = false := by simp [Dev.fnLive, h]

/-- Requests and state of a function hang on three fields and on its own record. -/
theorem fnLive_congr {f : Nat} (h : Wrote d e ws) (hpf : fits HIF_VF_STATE.PF0 ws = true) (hvf : fits HIF_VF_STATE.VF ws = true)
    (hup : fits HIF_STATUS.DL_UP ws = true) (hfn : e.fn f = d.fn f) : e.fnLive f = d.fnLive f := by
  simp only [Dev.fnLive, Dev.fnState, Dev.on, h.rd hpf, h.rd hvf, h.rd hup, hfn]

theorem cfgGate_open {f : Nat} {g : Dev → Dev} (hb : d.booted = true) (hst : d.fnState f ≠ 0) : cfgGate f g d = g d := by
  simp [cfgGate, hb, hst]

theorem cfgGate_unsupported {f : Nat} {g : Dev → Dev} (hb : d.booted = true) (hst : d.fnState f = 0) :
    cfgGate f g d = (d.sat HIF_UR_CNT.COUNT).emit .unsupported := by simp [cfgGate, hb, hst]

theorem cfgGate_retry {f : Nat} {g : Dev → Dev} (hb : d.booted = false) :
    cfgGate f g d = (d.wrB HIF_STATUS.CRS true).emit .cfgRetry := by simp [cfgGate, hb]

/-- A function that moves to D3hot, or that masters no bus, resumes nothing. -/
theorem dstateTaken_eq {f : Nat} {d3 : Bool} (hb : d.booted = true) (hst : d.fnState f ≠ 0) (hd : (d.fn f).d3 ≠ d3)
    (hidle : d3 = true ∨ (d.fn f).bme = false) (hlen : f < d.host.fns.length) :
    dstateTaken f d3 d = dstateChange f d3 d := by
  have hfn : ((dstateChange f d3 d).fn f) = { d.fn f with d3 := d3 } := by
    rw [dstateChange, if_neg hd]
    dsimp only
    split <;> exact fn_fnMod (d := d) (g := fun g => { g with d3 := d3 }) hlen
  rw [dstateTaken, resuming_idle (.inr ?_), cfgGate_open hb hst]
  rw [cfgGate_open hb hst]
  rcases hidle with h | h
  · exact fnLive_of_d3 (by rw [hfn]; exact h)
  · exact fnLive_of_bme (by rw [hfn]; exact h)

theorem dstateChange_vf {f : Nat} {d3 : Bool} (hd : (d.fn f).d3 ≠ d3) (hf : f ≠ 0) :
    dstateChange f d3 d = (d.fnMod f fun g => { g with d3 := d3 }).ev HIF_EVENT.DSTATE_CHG := by
  simp [dstateChange, hd, hf]

theorem dstateChange_pf {d3 : Bool} (hd : (d.fn 0).d3 ≠ d3) :
    dstateChange 0 d3 d = ((d.fnMod 0 fun g => { g with d3 := d3 }).ev HIF_EVENT.DSTATE_CHG).wr HIF_STATUS.PF0_DSTATE
      (if d3 then 3 else 0) := by
  simp [dstateChange, hd]

theorem dstateChange_d3 {f : Nat} {d3 : Bool} (hd : (d.fn f).d3 ≠ d3) (hlen : f < d.host.fns.length) :
    ((dstateChange f d3 d).fn f).d3 = d3 := by
  rw [dstateChange, if_neg hd]
  dsimp only
  split <;> exact congrArg Fn.d3 (fn_fnMod (d := d) (g := fun g => { g with d3 := d3 }) hlen)

/-- A whole dword that the spec fixes reads as its value. -/
theorem over_word (v x : Nat) : BitVec.ofNat 32 (CfgWord.over [(0, 32, v)] x) = BitVec.ofNat 32 v := by
  have hfree : x % 2 ^ 32 / 2 ^ 32 = 0 := Nat.div_eq_of_lt (Nat.mod_lt _ (Nat.two_pow_pos 32))
  have hset : setBits (x % 2 ^ 32) 0 32 v = v % 2 ^ 32 := by
    rw [setBits, Nat.zero_add, hfree, Nat.zero_mul, Nat.pow_zero, Nat.mod_one, Nat.mul_one, Nat.zero_add, Nat.add_zero]
  apply BitVec.eq_of_toNat_eq
  rw [CfgWord.over, List.foldl_cons, List.foldl_nil]
  dsimp only
  rw [hset, BitVec.toNat_ofNat, BitVec.toNat_ofNat, Nat.mod_mod]

/-- A read of configuration space takes a free value and answers. -/
theorem cfgRead_eq (f o : Nat) : cfgRead f o d =
    { d with freeIx := d.freeIx + 1, outs := d.outs ++ [.read (BitVec.ofNat 32 ((cfgDword f o d).over (Config.free d.freeIx)))] } :=
  rfl

theorem configTaken_read {f : Nat} (o : Nat) (hb : d.booted = true) (hst : d.fnState f ≠ 0) :
    configTaken f (.read o) d = cfgRead f o d := by
  have hlive : (cfgRead f o d).fnLive f = d.fnLive f := rfl
  rw [configTaken, resuming_idle, configRequest, cfgGate_open hb hst, cfgTake]
  rw [configRequest, cfgGate_open hb hst, cfgTake, hlive]
  exact Bool.dichotomy _ |>.symm

theorem configTaken_command {f : Nat} {mse bme : Bool} (hb : d.booted = true) (hst : d.fnState f ≠ 0)
    (hidle : d.fnLive f = true ∨ bme = false) (hlen : f < d.host.fns.length) :
    configTaken f (.command mse bme) d = d.fnMod f fun g => { g with mse := mse, bme := bme } := by
  rw [configTaken, resuming_idle, configRequest, cfgGate_open hb hst, cfgTake]
  rw [configRequest, cfgGate_open hb hst, cfgTake]
  refine hidle.imp_right fun hbme => fnLive_of_bme ?_
  rw [fn_fnMod hlen]
  exact hbme

theorem configTaken_unsupported {f : Nat} {q : CfgReq} (hb : d.booted = true) (hst : d.fnState f = 0) :
    configTaken f q d = (d.sat HIF_UR_CNT.COUNT).emit .unsupported := by
  have hcount : Wrote d ((d.sat HIF_UR_CNT.COUNT).emit .unsupported) _ := ((Wrote.refl d).sat (by decide)).parts rfl rfl
  rw [configTaken, resuming_idle (.inr ?_), configRequest, cfgGate_unsupported hb hst]
  rw [configRequest, cfgGate_unsupported hb hst, fnLive_congr hcount (by rfl) (by rfl) (by rfl) rfl]
  exact fnLive_of_state hst

theorem configTaken_retry {f : Nat} {q : CfgReq} (hb : d.booted = false) :
    configTaken f q d = (d.wrB HIF_STATUS.CRS true).emit .cfgRetry := by
  have hcrs : Wrote d ((d.wrB HIF_STATUS.CRS true).emit .cfgRetry) _ :=
    ((Wrote.refl d).wrB (by decide) Nat.one_pos).parts rfl rfl
  rw [configTaken, resuming_idle, configRequest, cfgGate_retry hb]
  rw [configRequest, cfgGate_retry hb, fnLive_congr hcrs (by rfl) (by rfl) (by rfl) rfl]
  exact Bool.dichotomy _ |>.symm

/-- What an unsupported request shows. -/
theorem unsupported_shows : Wrote d ((d.sat HIF_UR_CNT.COUNT).emit .unsupported)
      [(HIF_UR_CNT.COUNT, min (d.rd HIF_UR_CNT.COUNT + 1) 65535)] ∧
    ((d.sat HIF_UR_CNT.COUNT).emit .unsupported).outs = d.outs ++ [.unsupported] ∧
    ((d.sat HIF_UR_CNT.COUNT).emit .unsupported).host = d.host :=
  ⟨((Wrote.refl d).sat (by decide)).parts rfl rfl, congrArg (· ++ [Out.unsupported]) (sat_outs d _ _),
    (Beyond.refl d).sat.emit.host⟩

/-- What a retry shows. -/
theorem cfgRetry_shows : Wrote d ((d.wrB HIF_STATUS.CRS true).emit .cfgRetry) [(HIF_STATUS.CRS, 1)] ∧
    ((d.wrB HIF_STATUS.CRS true).emit .cfgRetry).outs = d.outs ++ [.cfgRetry] ∧
    ((d.wrB HIF_STATUS.CRS true).emit .cfgRetry).host = d.host :=
  ⟨((Wrote.refl d).wrB (b := true) (by decide) Nat.one_pos).parts rfl rfl, congrArg (· ++ [Out.cfgRetry]) (wrB_outs d _ _),
    (Beyond.refl d).wrB.emit.host⟩

end

/-- Settles O14, one clause at a time. -/
theorem functionSetUp : Obligations.FunctionSetUp := by
  unfold Obligations.FunctionSetUp
  intro s
  have hfn (f : Fin 16) (hlen : s.dev.host.fns.length = 16) : f.val < s.quiet.host.fns.length := f.isLt.trans_eq hlen.symm
  have hcount : s.quiet.rd GLB_BADWR.COUNT = s.dev.rd GLB_BADWR.COUNT := rfl
  have hur : s.quiet.rd HIF_UR_CNT.COUNT = s.dev.rd HIF_UR_CNT.COUNT := rfl
  have hboot {g : Dev → Dev} (hb : s.dev.booted = true) : ifBooted g s.quiet = g s.quiet := ifBooted_true (d := s.quiet) hb
  have hpos {f : Fin 16} (hf : f ≠ 0) : f.val ≠ 0 := fun h => hf (Fin.ext h)
  obtain ⟨hwrote, houts, hhost⟩ := unsupported_shows (d := s.quiet)
  rw [hur] at hwrote
  refine ⟨fun src f which x hs hf hbad hfits hst => ?_, fun src f which x hs hfits => ?_, fun x ht => ?_,
    fun f x hb hf ha hx hlen => ?_, fun f d3 hb hst hf hd hidle hlen => ?_, fun d3 hb hst hd hidle hlen => ?_,
    fun f hb hclosed => ?_, fun f off hb hst => ?_, fun f mse bme hb hst hidle hlen => ?_, fun f q hb hst => ?_,
    fun f q hb => ?_⟩
  · refine ends_run (f := softFrom src (regWrite src false (assignOff f which) x.toNat)) (fun _ => rfl) ?_
    rw [softFrom_reached (d := s.quiet) hs, regWrite_assign, if_neg (Bool.not_eq_true _ ▸ hbad),
      fnAssign_taken (d := s.quiet) hf hfits hst]
    have hstands : Stands (Beside [⟨assignOff f which, 0, 32⟩]) s.quiet (s.quiet.setWord (assignOff f which) x.toNat) :=
      (Stands.refl _ _).setWord (Free.listed (by simp))
    refine ⟨hstands.only, hstands.2, ?_, rfl⟩
    rw [word_setWord, if_pos rfl, Nat.mod_eq_of_lt x.isLt]
  · refine does_run (f := softFrom src (regWrite src false (assignOff f which) x.toNat)) (fun _ => rfl) ?_
    rw [softFrom_reached (d := s.quiet) hs, ← hcount]
    exact ⟨regWrite_assignRefused (d := s.quiet) src f which x.toNat hfits, trivial⟩
  · refine does_run (f := ifBooted (maskWrite 0 x.toNat)) (fun _ => rfl) ?_
    rw [hboot ht.1, maskWrite, if_pos rfl, regWrite_intMask (d := s.quiet) x.isLt ht.2]
    refine ⟨intMask_wrote x.isLt, fun hblock => ?_⟩
    rw [intMask_silent (d := s.quiet) hblock]
    exact ⟨(Beyond.refl s.quiet).wr.host, wr_outs s.quiet _ _⟩
  · refine does_run (f := ifBooted (maskWrite f x.toNat)) (fun _ => rfl) ?_
    rw [hboot hb, maskWrite, if_neg hf, vfWrite_mask (d := s.quiet) ha hx]
    exact ⟨(vfMask_told (hpos hf)).wrote, vfMask_set (hpos hf) hx (hfn f hlen)⟩
  · refine does_run (f := dstateTaken f d3) (fun _ => rfl) ?_
    rw [dstateTaken_eq (d := s.quiet) hb hst hd hidle (hfn f hlen)]
    refine ⟨?_, dstateChange_d3 (d := s.quiet) hd (hfn f hlen)⟩
    rw [dstateChange_vf (d := s.quiet) hd (hpos hf)]
    exact ((Wrote.refl s.quiet).parts rfl rfl).ev (by decide) Nat.one_pos
  · refine does_run (f := dstateTaken 0 d3) (fun _ => rfl) ?_
    rw [dstateTaken_eq (d := s.quiet) hb hst hd hidle (hfn 0 hlen)]
    refine ⟨?_, dstateChange_d3 (d := s.quiet) hd (hfn 0 hlen)⟩
    rw [dstateChange_pf (d := s.quiet) hd]
    exact (((Wrote.refl s.quiet).parts rfl rfl).ev (by decide) Nat.one_pos).wr (by decide) (by split <;> decide)
  · refine does_run (f := unsupportedRequest f) (fun _ => rfl) ?_
    rw [unsupportedRequest, if_pos (by rw [Bool.and_eq_true]; exact ⟨hb, hclosed⟩)]
    exact ⟨hwrote, houts⟩
  · refine does_run (f := configTaken f (.read off)) (fun _ => rfl) ?_
    rw [configTaken_read (d := s.quiet) off hb hst, cfgRead_eq]
    refine ⟨(Wrote.refl s.quiet).parts rfl rfl, fun h => ?_, fun h => ?_, fun h => ?_, rfl⟩
    · subst h
      refine (congrArg (fun x => [Out.read x]) (over_word _ _)).trans ?_
      by_cases hf : f = 0
      · simp [hf]
      · simp [hf, hpos hf]
    · subst h
      exact congrArg (fun x => [Out.read x]) (over_word _ _)
    · subst h
      exact congrArg (fun x => [Out.read x]) (over_word _ _)
  · refine does_run (f := configTaken f (.command mse bme)) (fun _ => rfl) ?_
    rw [configTaken_command (d := s.quiet) hb hst hidle (hfn f hlen)]
    refine ⟨(Wrote.refl s.quiet).parts rfl rfl, ?_⟩
    rw [fn_fnMod (d := s.quiet) (hfn f hlen)]
    exact ⟨rfl, rfl⟩
  · refine does_run (f := configTaken f q) (fun _ => rfl) ?_
    rw [configTaken_unsupported (d := s.quiet) hb hst]
    exact ⟨hwrote, houts, hhost⟩
  · refine does_run (f := configTaken f q) (fun _ => rfl) ?_
    rw [configTaken_retry (d := s.quiet) hb]
    exact cfgRetry_shows

end Sys2Proof.Machine
end

section
/-!
PROOFS. The states of the functions: the Kennel, VF Enable, HOLD (Table 5.6, R118 to R123).
-/

namespace Sys2Proof.Machine

section
variable {d e : Dev} {ws : List (Field × Nat)} {P : Field → Prop}

/-! ### Packet memory alone -/

/-- From d to e registers, outputs and packet memory alone move. -/
def Pooled (d e : Dev) : Prop := ∃ r o p, e = { d with regs := r, outs := o, pm := p }

theorem Pooled.refl (d : Dev) : Pooled d d := ⟨_, _, _, rfl⟩

theorem Pooled.trans {x : Dev} (h1 : Pooled d e) (h2 : Pooled e x) : Pooled d x := by
  obtain ⟨r1, o1, p1, rfl⟩ := h1
  obtain ⟨r2, o2, p2, rfl⟩ := h2
  exact ⟨r2, o2, p2, rfl⟩

theorem Pooled.wr {f : Field} {v : Nat} (h : Pooled d e) : Pooled d (e.wr f v) := h.trans ⟨_, _, _, rfl⟩

theorem Pooled.pmMod {f : Pmem → Pmem} (h : Pooled d e) : Pooled d (e.pmMod f) := h.trans ⟨_, _, _, rfl⟩

theorem Pooled.ite {c : Prop} [Decidable c] {x y : Dev} (hx : Pooled d x) (hy : Pooled d y) : Pooled d (if c then x else y) := by
  split
  · exact hx
  · exact hy

theorem Pooled.foldl {α : Type} {f : Dev → α → Dev} (l : List α) (h : Pooled d e)
    (hf : ∀ a x, Pooled d x → Pooled d (f x a)) : Pooled d (l.foldl f e) := by
  induction l generalizing e with
  | nil => exact h
  | cons a l ih => exact ih (hf a e h)

theorem Pooled.retireCell {k : Nat} (h : Pooled d e) : Pooled d (retireCell k e) :=
  .ite h.pmMod.pmMod.wr.wr.wr h.pmMod.wr

theorem Pooled.retireWorn (h : Pooled d e) : Pooled d (retireWorn e) := .ite (h.foldl _ fun _ _ hx => hx.retireCell) h

theorem Pooled.pmemSync (h : Pooled d e) : Pooled d (pmemSync e) := by
  have hworn (p : Pmem → Pmem) : Pooled d (Machine.retireWorn (e.pmMod p)) := Pooled.retireWorn h.pmMod
  exact Pooled.ite (Pooled.pmMod (Pooled.wr (Pooled.pmMod (hworn _).wr.wr)))
    (Pooled.ite (Pooled.pmMod (Pooled.pmMod (hworn _).wr.wr)) (Pooled.pmMod (hworn _).wr.wr))

theorem Pooled.host (h : Pooled d e) : e.host = d.host := by
  obtain ⟨r, o, p, rfl⟩ := h
  rfl

/-! ### State and epoch of one function -/

theorem fnState_congr (h : Stands P d e) (hpf : P HIF_VF_STATE.PF0) (hvf : P HIF_VF_STATE.VF) (f : Nat) :
    e.fnState f = d.fnState f := by
  simp only [Dev.fnState, h.rd hpf, h.rd hvf]

theorem holdOf_congr (h : Stands P d e) (hP : P HIF_VF_HOLD.HOLD) (f : Nat) : e.holdOf f = d.holdOf f := by
  simp only [Dev.holdOf, h.rd hP]

theorem vfEnabled_congr (h : Stands P d e) (hon : P HIF_STATUS.VF_ENABLE) (hnum : P HIF_STATUS.NUMVFS) (f : Nat) :
    e.vfEnabled f = d.vfEnabled f := by
  simp only [Dev.vfEnabled, h.on hon, h.rd hnum]

theorem epoch_congr (h : Stands P d e) (hP : ∀ k : Fin 4, P (HIF_EPOCHk.EPOCH k)) {f : Nat} (hf : f < 16) :
    e.epoch f = d.epoch f := by
  have hreg : P (HIF_EPOCHk.EPOCH (f / 4)) := hP ⟨f / 4, by omega⟩
  simp only [Dev.epoch, h.rd hreg]

/-- Setting the state of one function sets no other's. -/
theorem fnState_setFnState {f g v : Nat} (hf : f < 16) (hg : g < 16) :
    (setFnState f v d).fnState g = if g = f then v % 4 else d.fnState g := by
  rw [show (4 : Nat) = 2 ^ 2 from rfl]
  have hslot (x : Nat) : ((d.wr HIF_VF_STATE.VF x).rd HIF_VF_STATE.VF) = x % 2 ^ 30 := rd_wr_same d _ _ (by decide)
  by_cases hf0 : f = 0
  · subst hf0
    by_cases hg0 : g = 0
    · subst hg0
      simp only [setFnState, Dev.fnState, if_true]
      exact rd_wr_same d HIF_VF_STATE.PF0 v (by decide)
    · simp only [setFnState, Dev.fnState, if_true, if_neg hg0]
      rw [rd_wr_apart d HIF_VF_STATE.PF0 HIF_VF_STATE.VF v (by decide)]
  · by_cases hg0 : g = 0
    · subst hg0
      simp only [setFnState, Dev.fnState, if_true, if_neg hf0, if_neg (Ne.symm hf0)]
      rw [rd_wr_apart d HIF_VF_STATE.VF HIF_VF_STATE.PF0 _ (by decide)]
    · simp only [setFnState, Dev.fnState, if_neg hf0, if_neg hg0]
      rw [hslot, bits_mod _ 30 _ _ (by omega)]
      by_cases hgf : g = f
      · rw [if_pos hgf, hgf, bits_setBits_same]
      · rw [if_neg hgf, bits_setBits_disjoint _ _ _ _ _ _ (by omega)]

theorem epoch_bump {f g : Nat} :
    (bumpEpoch f d).epoch g = if g = f then (d.epoch f + 1) % 256 else d.epoch g := by
  rw [show (256 : Nat) = 2 ^ 8 from rfl]
  have hin : (HIF_EPOCHk.EPOCH (f / 4)).lo + (HIF_EPOCHk.EPOCH (f / 4)).w ≤ 32 := Nat.le_refl 32
  by_cases hreg : g / 4 = f / 4
  · simp only [bumpEpoch, Dev.epoch, hreg]
    rw [rd_wr_same d _ _ hin, bits_mod _ (HIF_EPOCHk.EPOCH (f / 4)).w _ _ (show 8 * (g % 4) + 8 ≤ 32 by omega)]
    by_cases hgf : g = f
    · rw [if_pos hgf, hgf, bits_setBits_same]
    · rw [if_neg hgf, bits_setBits_disjoint _ _ _ _ _ _ (by omega)]
  · have hne : g ≠ f := fun h => hreg (congrArg (· / 4) h)
    have hoff : (HIF_EPOCHk.EPOCH (f / 4)).off ≠ (HIF_EPOCHk.EPOCH (g / 4)).off := by
      simp only [HIF_EPOCHk.EPOCH, HIF_EPOCHk.addr]
      omega
    simp only [bumpEpoch, Dev.epoch, if_neg hne]
    rw [rd_wr_off _ _ _ _ hoff.symm]

/-! ### Entry into the Kennel -/

/-- What the entry into the Kennel writes after state and epoch. -/
def goneFields : List Field := HIF_STATUS.PF0_DSTATE :: (tagFields ++ purgeFields ++ cmpFields)

theorem gone_apart : ∀ k : Fin 4, Beside goneFields (HIF_EPOCHk.EPOCH k) := by
  simp only [goneFields, tagFields, purgeFields, pmemFields, cmpFields]
  decide

/-- Past its new state and epoch, the entry of a function leaves them. -/
theorem kennelOne_gone {f c : Nat} {all : Bool} (hst : d.fnState f = 1) :
    Stands (Beside goneFields) (setFnState f 2 (bumpEpoch f d)) (kennelOne f c all d) := by
  have hP : ∀ g ∈ goneFields, Free (Beside goneFields) g := fun g hg => Free.listed hg
  simp only [goneFields, List.forall_mem_cons, List.forall_mem_append] at hP
  obtain ⟨hdstate, ⟨htag, hpurge⟩, hcmp⟩ := hP
  have hentered := Stands.refl (Beside goneFields) (setFnState f 2 (bumpEpoch f d))
  have hgone (x : Dev) (hx : Stands (Beside goneFields) (setFnState f 2 (bumpEpoch f d)) x) :
      Stands (Beside goneFields) (setFnState f 2 (bumpEpoch f d)) (purgeRings f (purgeQueues f (orphanReads f x))) :=
    ((hx.orphanReads htag).purgeQueues hpurge).purgeRings hpurge
  unfold kennelOne
  rw [if_pos hst]
  refine Stands.tagSync (Stands.cmpKennel (Stands.purgePeg (Stands.fnMod (hgone _ ?_)) hpurge) hcmp) htag
  exact Stands.fnMod (Stands.fnMod (Stands.ite hentered (hentered.cfgDefault hdstate)))

theorem kennelOne_other {f c : Nat} {all : Bool} (hst : d.fnState f ≠ 1) : kennelOne f c all d = d := by
  rw [kennelOne, if_neg hst]

theorem kennelOne_state {f c g : Nat} {all : Bool} (hst : d.fnState f = 1) (hf : f < 16) (hg : g < 16) :
    (kennelOne f c all d).fnState g = if g = f then 2 else d.fnState g := by
  rw [fnState_congr (kennelOne_gone hst) (by decide) (by decide), fnState_setFnState hf hg]
  have hepoch : Stands (Beside [HIF_EPOCHk.EPOCH (f / 4)]) d (bumpEpoch f d) := (Stands.refl _ d).wr (Free.listed (by simp))
  have hfar (F : Field) (hF : F.off = 0x14010) : Beside [HIF_EPOCHk.EPOCH (f / 4)] F := fun x hx => by
    refine apart_of_off ?_
    rw [List.mem_singleton.mp hx, hF]
    simp only [HIF_EPOCHk.EPOCH, HIF_EPOCHk.addr]
    omega
  rw [fnState_congr hepoch (hfar _ rfl) (hfar _ rfl)]

theorem setFnState_stands (f v : Nat) : Stands (Beside stateFields) d (setFnState f v d) :=
  (Stands.refl _ d).setFnState fun _ hg => Free.listed hg

theorem kennelOne_epoch {f c g : Nat} {all : Bool} (hst : d.fnState f = 1) (hg : g < 16) :
    (kennelOne f c all d).epoch g = if g = f then (d.epoch f + 1) % 256 else d.epoch g := by
  rw [epoch_congr (kennelOne_gone hst) gone_apart hg, epoch_congr (setFnState_stands f 2) (by decide) hg, epoch_bump]

theorem kennelOne_stands {f c : Nat} {all : Bool} (hf : f < 16) : Stands (Beside kennelFields) d (kennelOne f c all d) :=
  (Stands.refl _ d).kennelOne hf fun _ hg => Free.listed hg

/-! ### One cause for one function -/

theorem kennelCause_active {f c : Nat} (hst : d.fnState f = 1) :
    kennelCause f c d = kennelOne f c false (d.sat HIF_KENNEL_CNT.CAUSES) := by
  rw [kennelCause, if_pos (.inl hst)]

/-- The blocks that the entry of a function into the Kennel may touch. -/
def kennelBlocks : List Nat := [5, 6, 16, 18, 21, 26, 32]

/-- What one cause does: function f is in the Kennel with a new epoch, the cause is counted, no other function moves. -/
theorem kennelCause_shows {f c : Nat} (hst : d.fnState f = 1) (hf : f < 16) :
    Stands (Beside (HIF_KENNEL_CNT.CAUSES :: kennelFields)) d (kennelCause f c d) ∧
    (kennelCause f c d).rd HIF_KENNEL_CNT.CAUSES = min (d.rd HIF_KENNEL_CNT.CAUSES + 1) 65535 ∧
    (∀ g < 16, (kennelCause f c d).fnState g = if g = f then 2 else d.fnState g) ∧
    ∀ g < 16, (kennelCause f c d).epoch g = if g = f then (d.epoch f + 1) % 256 else d.epoch g := by
  have hcount : Wrote d (d.sat HIF_KENNEL_CNT.CAUSES) [(HIF_KENNEL_CNT.CAUSES, min (d.rd HIF_KENNEL_CNT.CAUSES + 1) 65535)] :=
    (Wrote.refl d).sat (by decide)
  have hbeside : Stands (Beside [HIF_KENNEL_CNT.CAUSES]) d (d.sat HIF_KENNEL_CNT.CAUSES) := hcount.beside
  have hst' : (d.sat HIF_KENNEL_CNT.CAUSES).fnState f = 1 := (fnState_congr hbeside (by decide) (by decide) f).trans hst
  rw [kennelCause_active hst]
  refine ⟨?_, ?_, fun g hg => ?_, fun g hg => ?_⟩
  · exact (hbeside.widen (by simp)).trans ((kennelOne_stands hf).widen (by simp))
  · rw [(kennelOne_stands hf).rd (by decide), hcount.nth 0 rfl]
  · rw [kennelOne_state hst' hf hg, fnState_congr hbeside (by decide) (by decide)]
  · rw [kennelOne_epoch hst' hg, epoch_congr hbeside (by decide) hg, epoch_congr hbeside (by decide) hf]

/-- The same behind writes beside the states of the functions. -/
theorem kennelCause_after {x : Dev} {f c : Nat} {fs : List Field} (h : Stands (Beside fs) d x) (hpf : Beside fs HIF_VF_STATE.PF0)
    (hvf : Beside fs HIF_VF_STATE.VF) (hep : ∀ k : Fin 4, Beside fs (HIF_EPOCHk.EPOCH k)) (hc : Beside fs HIF_KENNEL_CNT.CAUSES)
    (hst : d.fnState f = 1) (hf : f < 16) :
    Stands (Beside (fs ++ HIF_KENNEL_CNT.CAUSES :: kennelFields)) d (kennelCause f c x) ∧ (kennelCause f c x).fnState f = 2 ∧
    (kennelCause f c x).epoch f = (d.epoch f + 1) % 256 ∧
    (kennelCause f c x).rd HIF_KENNEL_CNT.CAUSES = min (d.rd HIF_KENNEL_CNT.CAUSES + 1) 65535 ∧
    ∀ g : Fin 16, g.val ≠ f → (kennelCause f c x).fnState g = d.fnState g ∧ (kennelCause f c x).epoch g = d.epoch g := by
  obtain ⟨hstands, hcount, hstate, hepoch⟩ := kennelCause_shows (c := c) ((fnState_congr h hpf hvf f).trans hst) hf
  refine ⟨(h.widen (List.subset_append_left _ _)).trans (hstands.widen (List.subset_append_right _ _)), ?_, ?_, ?_,
    fun g hg => ⟨?_, ?_⟩⟩
  · rw [hstate f hf, if_pos rfl]
  · rw [hepoch f hf, if_pos rfl, epoch_congr h hep hf]
  · rw [hcount, h.rd hc]
  · rw [hstate g g.isLt, if_neg hg, fnState_congr h hpf hvf]
  · rw [hepoch g g.isLt, if_neg hg, epoch_congr h hep g.isLt]

/-- FLR of an ACTIVE VF is reported and puts it into the Kennel. -/
theorem fnReset_active {f : Nat} (hf : f ≠ 0) (hst : d.fnState f = 1) :
    fnReset f d = kennelCause f 0 (d.ev HIF_EVENT.VF_FLR) := by
  simp [fnReset, hf, hst]

/-! ### HOLD -/

theorem holdOf_putBit {f : Nat} {b : Bool} (hf : f ≠ 0) (hlt : f < 16) :
    (d.putBitOf HIF_VF_HOLD.HOLD (f - 1) b).holdOf f = b := by
  have hread : (d.putBitOf HIF_VF_HOLD.HOLD (f - 1) b).rd HIF_VF_HOLD.HOLD = putBit (d.rd HIF_VF_HOLD.HOLD) (f - 1) b := by
    rw [Dev.putBitOf, rd_wr_same d _ _ (by decide)]
    exact Nat.mod_eq_of_lt (putBit_lt (rd_lt d _) (show f - 1 < 15 by omega))
  rw [Dev.holdOf, hread, bit_putBit, Bool.and_eq_right_iff_imp]
  simp [hf]

theorem vfHoldSet_eq {f : Nat} (hf : f ≠ 0) (hold : d.holdOf f = false) :
    vfHoldSet f d = kennelCause f 1 (d.putBitOf HIF_VF_HOLD.HOLD (f - 1) true) := by
  simp [vfHoldSet, hf, hold]

theorem vfHoldClear_eq {f : Nat} (hf : f ≠ 0) (hst : (d.putBitOf HIF_VF_HOLD.HOLD (f - 1) false).fnState f = 3) :
    vfHoldClear f d = setFnState f (if (d.putBitOf HIF_VF_HOLD.HOLD (f - 1) false).vfEnabled f then 1 else 0)
      (d.putBitOf HIF_VF_HOLD.HOLD (f - 1) false) := by
  simp only [vfHoldClear, if_neg hf, if_pos hst]

/-! ### VF Enable -/

/-- A loop over VFs whose step k moves the state of VF k + 1 alone, by a rule. -/
theorem fnState_forN {step : Nat → Dev → Dev} {rule : Nat → Nat → Nat} (I : Dev → Prop)
    (hI : ∀ k < 15, ∀ x, I x → I (step k x))
    (hstep : ∀ k < 15, ∀ x, I x → ∀ g < 16, (step k x).fnState g = if g = k + 1 then rule g (x.fnState g) else x.fnState g)
    (h : I d) {n : Nat} (hn : n ≤ 15) : I (forN n step d) ∧
      ∀ g < 16, (forN n step d).fnState g = if 1 ≤ g ∧ g ≤ n then rule g (d.fnState g) else d.fnState g := by
  induction n with
  | zero => exact ⟨h, fun g _ => (if_neg (by omega)).symm⟩
  | succ n ih =>
    obtain ⟨hIn, hrule⟩ := ih (by omega)
    rw [forN_succ]
    refine ⟨hI n (by omega) _ hIn, fun g hg => ?_⟩
    rw [hstep n (by omega) _ hIn g hg, hrule g hg]
    by_cases hgn : g = n + 1
    · rw [if_pos hgn, if_neg (by omega), if_pos (by omega)]
    · rw [if_neg hgn]
      by_cases hin : 1 ≤ g ∧ g ≤ n
      · rw [if_pos hin, if_pos (by omega)]
      · rw [if_neg hin, if_neg (by omega)]

theorem vfOn_stands {f : Nat} (hf : f ≠ 0) : Stands (Beside [HIF_VF_STATE.VF]) d (vfOn f d) := by
  have hset (v : Nat) (x : Dev) (hx : Stands (Beside [HIF_VF_STATE.VF]) d x) : Stands (Beside [HIF_VF_STATE.VF]) d (setFnState f v x) := by
    rw [setFnState, if_neg hf]
    exact hx.wr (Free.listed (by simp))
  have hcfg : Stands (Beside [HIF_VF_STATE.VF]) d (cfgDefault f d) := by
    rw [cfgDefault, if_neg hf]
    exact (Stands.refl _ d).fnMod
  exact .ite (.ite (hset _ _ (.refl _ d)) ((hset 1 _ hcfg).foldl _ fun _ _ _ hx => hx.ringMod)) (.refl _ d)

/-- A DISABLED VF becomes ACTIVE, or HELD where it is held. -/
theorem vfOn_state {f g : Nat} (hf : f ≠ 0) (hlt : f < 16) (hg : g < 16) :
    (vfOn f d).fnState g =
      if g = f ∧ d.fnState f = 0 then (if d.holdOf f then 3 else 1) else d.fnState g := by
  have hcfg (k : Nat) : (cfgDefault f d).fnState k = d.fnState k := by
    rw [cfgDefault, if_neg hf]
    rfl
  unfold vfOn
  by_cases hst : d.fnState f = 0
  · rw [if_pos hst]
    by_cases hhold : d.holdOf f = true
    · simp only [if_pos hhold, fnState_setFnState hlt hg, hst, and_true]
    · have hoff : Stands (fun _ => True) (setFnState f 1 (cfgDefault f d))
          ((d.ringsOf f).foldl (fun x r => x.ringMod r Ring.off) (setFnState f 1 (cfgDefault f d))) :=
        (Stands.refl _ _).foldl _ fun _ _ _ hx => hx.ringMod
      simp only [if_neg hhold, fnState_congr hoff trivial trivial, fnState_setFnState hlt hg, hcfg, hst, and_true]
  · rw [if_neg hst, if_neg (fun h => hst h.2)]

/-- The loop of VF Enable over n VFs. -/
def vfOns (num n : Nat) (d : Dev) : Dev := forN n (fun k d => if k + 1 ≤ num then vfOn (k + 1) d else d) d

theorem vfOns_stands (num n : Nat) : Stands (Beside [HIF_VF_STATE.VF]) d (vfOns num n d) :=
  (Stands.refl _ d).forN fun k _ _ hx => .ite (hx.trans (vfOn_stands (Nat.succ_ne_zero k))) hx

/-- Every DISABLED VF within NumVFs becomes ACTIVE or HELD. -/
theorem vfOns_state (num : Nat) {g : Nat} (hg : g < 16) (hg0 : g ≠ 0) :
    (vfOns num 15 d).fnState g =
      if g ≤ num ∧ d.fnState g = 0 then (if d.holdOf g then 3 else 1) else d.fnState g := by
  have hloop := (fnState_forN (d := d) (n := 15) (step := fun k d => if k + 1 ≤ num then vfOn (k + 1) d else d)
    (rule := fun g st => if g ≤ num ∧ st = 0 then (if d.holdOf g then 3 else 1) else st) (fun x => x.holdOf = d.holdOf)
    (fun k hk x hx => ?_) (fun k hk x hx g hg => ?_) rfl (Nat.le_refl 15)).2 g hg
  · rw [vfOns, hloop, if_pos (by omega)]
  · split
    · funext j
      rw [holdOf_congr (vfOn_stands (Nat.succ_ne_zero k)) (by decide), hx]
    · exact hx
  · split
    · next hnum =>
      rw [vfOn_state (Nat.succ_ne_zero k) (by omega) hg]
      by_cases hgk : g = k + 1
      · subst hgk
        simp only [true_and, if_true, hnum, hx]
      · simp only [hgk, false_and, if_false]
    · next hnum =>
      by_cases hgk : g = k + 1
      · subst hgk
        simp only [if_true, hnum, false_and, if_false]
      · rw [if_neg hgk]

theorem vfEnable_eq {num : Nat} (hnum : num < 16) (hoff : d.on HIF_STATUS.VF_ENABLE = false) :
    vfEnable num d = vfOns num 15 (((d.wrB HIF_STATUS.VF_ENABLE true).wr HIF_STATUS.NUMVFS num).ev HIF_EVENT.VF_ENABLE_CHG) := by
  simp [vfEnable, vfOns, hoff, Nat.min_eq_left (show num ≤ 15 by omega), Dev.evIf]

/-- The loop of a cleared VF Enable over n VFs. -/
def vfOffs (c : Nat) (all : Bool) (n : Nat) (d : Dev) : Dev :=
  forN n (fun k d => if d.fnState (k + 1) = 3 then setFnState (k + 1) 0 d else kennelOne (k + 1) c all d) d

theorem vfOffs_stands (c : Nat) (all : Bool) (n : Nat) (hn : n ≤ 15) : Stands (Beside kennelFields) d (vfOffs c all n d) :=
  (Stands.refl _ d).forN fun k _ _ hx => .ite (hx.setFnState fun _ hg => Free.listed (kennelFields_state hg))
    (hx.kennelOne (by omega) fun _ hg => Free.listed hg)

/-- Every ACTIVE VF enters the Kennel, a HELD one is DISABLED; PF0 stays. -/
theorem vfOffs_state (c : Nat) (all : Bool) {g : Nat} (hg : g < 16) :
    (vfOffs c all 15 d).fnState g =
      if g = 0 then d.fnState g else if d.fnState g = 1 then 2 else if d.fnState g = 3 then 0 else d.fnState g := by
  have hloop := (fnState_forN (d := d) (n := 15)
    (step := fun k d => if d.fnState (k + 1) = 3 then setFnState (k + 1) 0 d else kennelOne (k + 1) c all d)
    (rule := fun _ st => if st = 1 then 2 else if st = 3 then 0 else st) (fun _ => True)
    (fun _ _ _ _ => trivial) (fun k hk x _ g hg => ?_) trivial (Nat.le_refl 15)).2 g hg
  · rw [vfOffs, hloop]
    by_cases hg0 : g = 0
    · rw [if_neg (by omega), if_pos hg0]
    · rw [if_pos (by omega), if_neg hg0]
  · by_cases h3 : x.fnState (k + 1) = 3
    · rw [if_pos h3, fnState_setFnState (by omega) hg]
      by_cases hgk : g = k + 1
      · subst hgk
        simp [h3]
      · rw [if_neg hgk, if_neg hgk]
    · rw [if_neg h3]
      by_cases h1 : x.fnState (k + 1) = 1
      · rw [kennelOne_state h1 (by omega) hg]
        by_cases hgk : g = k + 1
        · subst hgk
          simp [h1]
        · rw [if_neg hgk, if_neg hgk]
      · rw [kennelOne_other h1]
        by_cases hgk : g = k + 1
        · subst hgk
          simp [h1, h3]
        · rw [if_neg hgk]

theorem vfEnableClear_eq (hon : d.on HIF_STATUS.VF_ENABLE = true) :
    vfEnableClear d = vfOffs 2 false 15 ((((d.sat HIF_KENNEL_CNT.CAUSES).wrB HIF_STATUS.VF_ENABLE false).wr HIF_STATUS.NUMVFS
      0).ev HIF_EVENT.VF_ENABLE_CHG) := by
  have hstill : (d.sat HIF_KENNEL_CNT.CAUSES).on HIF_STATUS.VF_ENABLE = true :=
    (((Wrote.refl d).sat (by decide)).on (f := HIF_STATUS.VF_ENABLE) (by rfl)).trans hon
  simp [vfEnableClear, vfEnableOff, vfOffs, hon, hstill, Dev.evIf]

/-! ### The end of the Kennel -/

/-- What the end of a Kennel shows of the function. -/
def kennelShown (f : Nat) (d : Dev) : Dev :=
  ((d.wr HIF_KENNEL_STAT.FN (if (d.fn f).kAll then 0 else f)).wr HIF_KENNEL_STAT.CAUSE (d.fn f).kCause).wr HIF_KENNEL_STAT.FR
    (min ((d.hearth.clk - (d.fn f).kT0 + 65535) / 65536) 4095)

/-- The state that function f leaves the Kennel for. -/
def Dev.kennelExit (d : Dev) (f : Nat) : Nat := if d.holdOf f then 3 else if f != 0 && !d.vfEnabled f then 0 else 1

/-- Function f leaves the Kennel. -/
def kennelLeft (f : Nat) (d : Dev) : Dev :=
  vfEvent f 2 ((setFnState f ((kennelShown f d).kennelExit f) (kennelShown f d)).ev HIF_EVENT.KENNEL_DONE)

theorem kennelDone_ends {f m : Nat} (hst : (atMote m d).fnState f = 2)
    (hend : (atMote m d).kennelEnd f ≤ (atMote m d).hearth.clk) (hwire : wireHolds f (atMote m d) = false)
    (hjob : (atMote m d).cmpDraining (fun r => (atMote m d).ringFn r == some f) = false) :
    kennelDone f m d = kennelLeft f (pmemSync (atMote m d)) := by
  simp only [kennelDone]
  rw [if_pos (by simp [hst, hend, hwire, hjob])]
  rfl

theorem kennelDone_waits {f m : Nat} (hlate : (atMote m d).hearth.clk < (atMote m d).kennelEnd f) :
    kennelDone f m d = atMote m d := by
  simp only [kennelDone]
  rw [if_neg (by simp [Nat.not_le.mpr hlate])]

theorem kennelShown_wrote {f : Nat} (hf : f < 16) : Wrote d (kennelShown f d)
    [(HIF_KENNEL_STAT.FN, if (d.fn f).kAll then 0 else f),
      (HIF_KENNEL_STAT.CAUSE, (d.fn f).kCause % 2 ^ HIF_KENNEL_STAT.CAUSE.w),
      (HIF_KENNEL_STAT.FR, min ((d.hearth.clk - (d.fn f).kT0 + 65535) / 65536) 4095)] := by
  have hfn : (if (d.fn f).kAll then 0 else f) < 2 ^ 4 := by split <;> omega
  have hfr : min ((d.hearth.clk - (d.fn f).kT0 + 65535) / 65536) 4095 < 2 ^ 12 := (Nat.min_le_right _ _).trans_lt (by decide)
  exact (((Wrote.refl d).wr (by rfl) hfn).wrMod (by rfl)).wr (by rfl) hfr

/-- What leaving the Kennel writes. -/
def leftFields : List Field := [HIF_KENNEL_STAT.FN, HIF_KENNEL_STAT.CAUSE, HIF_KENNEL_STAT.FR, HIF_EVENT.KENNEL_DONE] ++ stateFields

theorem kennelLeft_shows {f : Nat} (hf : f < 16) :
    Stands (Beside leftFields) d (kennelLeft f d) ∧
    (kennelLeft f d).rd HIF_KENNEL_STAT.FN = (if (d.fn f).kAll then 0 else f) ∧
    (kennelLeft f d).rd HIF_KENNEL_STAT.CAUSE = (d.fn f).kCause % 2 ^ HIF_KENNEL_STAT.CAUSE.w ∧
    (kennelLeft f d).rd HIF_KENNEL_STAT.FR = min ((d.hearth.clk - (d.fn f).kT0 + 65535) / 65536) 4095 ∧
    (kennelLeft f d).rd HIF_EVENT.KENNEL_DONE = 1 ∧ (kennelLeft f d).fnState f = d.kennelExit f := by
  have hshown := kennelShown_wrote (d := d) hf
  have hbeside : Stands (Beside [HIF_KENNEL_STAT.FN, HIF_KENNEL_STAT.CAUSE, HIF_KENNEL_STAT.FR]) d (kennelShown f d) := hshown.beside
  have hexit : (kennelShown f d).kennelExit f = d.kennelExit f := by
    simp only [Dev.kennelExit, holdOf_congr hbeside (by decide), vfEnabled_congr hbeside (by decide) (by decide)]
  have hset := setFnState_stands (d := kennelShown f d) f ((kennelShown f d).kennelExit f)
  have hstate := fnState_setFnState (d := kennelShown f d) (v := (kennelShown f d).kennelExit f) hf hf
  rw [kennelLeft]
  generalize setFnState f ((kennelShown f d).kennelExit f) (kennelShown f d) = x at hset hstate
  have htold := (Told.refl (x.ev HIF_EVENT.KENNEL_DONE)).vfEvent (f := f) (k := 2)
  have hev : Stands (Beside [HIF_EVENT.KENNEL_DONE]) x (vfEvent f 2 (x.ev HIF_EVENT.KENNEL_DONE)) :=
    ((Stands.refl _ x).ev (Free.listed (by simp))).trans (htold.stands _)
  refine ⟨(hbeside.widen (by simp [leftFields])).trans ((hset.widen (List.subset_append_right _ _)).trans
      (hev.widen (by simp))), ?_, ?_, ?_, ?_, ?_⟩
  · rw [hev.rd (by decide), hset.rd (by decide), hshown.nth 0 rfl]
  · rw [hev.rd (by decide), hset.rd (by decide), hshown.nth 1 rfl]
  · rw [hev.rd (by decide), hset.rd (by decide), hshown.nth 2 rfl]
  · rw [htold.rd, ((Wrote.refl x).ev (by rfl) (by decide)).nth 0 rfl]
  · rw [fnState_congr hev (by decide) (by decide), hstate, if_pos rfl, hexit]
    refine Nat.mod_eq_of_lt ?_
    simp only [Dev.kennelExit]
    split
    · decide
    · split <;> decide

/-- The counts of packet memory are brought up to date before. -/
theorem kennelLeft_synced {f : Nat} (hf : f < 16) :
    Stands (Beside (leftFields ++ pmemFields)) d (kennelLeft f (pmemSync d)) ∧
    (kennelLeft f (pmemSync d)).rd HIF_KENNEL_STAT.FN = (if (d.fn f).kAll then 0 else f) ∧
    (kennelLeft f (pmemSync d)).rd HIF_KENNEL_STAT.CAUSE = (d.fn f).kCause % 2 ^ HIF_KENNEL_STAT.CAUSE.w ∧
    (kennelLeft f (pmemSync d)).rd HIF_KENNEL_STAT.FR = min ((d.hearth.clk - (d.fn f).kT0 + 65535) / 65536) 4095 ∧
    (kennelLeft f (pmemSync d)).rd HIF_EVENT.KENNEL_DONE = 1 ∧ (kennelLeft f (pmemSync d)).fnState f = d.kennelExit f := by
  obtain ⟨hstands, hfn, hcause, hfr, hdone, hstate⟩ := kennelLeft_shows (d := pmemSync d) hf
  have hpool := (Pooled.refl d).pmemSync
  have hsync : Stands (Beside pmemFields) d (pmemSync d) := (Stands.refl _ d).pmemSync fun _ hg => Free.listed hg
  have hrec : (pmemSync d).fn f = d.fn f := by rw [Dev.fn, hpool.host, Dev.fn]
  have hclk : (pmemSync d).hearth = d.hearth := by
    obtain ⟨r, o, p, he⟩ := hpool
    rw [he]
  have hexit : (pmemSync d).kennelExit f = d.kennelExit f := by
    simp only [Dev.kennelExit, holdOf_congr hsync (by decide), vfEnabled_congr hsync (by decide) (by decide)]
  rw [hrec] at hfn hcause hfr
  rw [hclk] at hfr
  exact ⟨(hsync.widen (by simp)).trans (hstands.widen (by simp)), hfn, hcause, hfr, hdone, hstate.trans hexit⟩

end

/-- Settles O13, one clause at a time. -/
theorem functions : Obligations.Functions := by
  unfold Obligations.Functions
  intro s
  have hpos {f : Fin 16} (hf : f ≠ 0) : f.val ≠ 0 := fun h => hf (Fin.ext h)
  have hother {f g : Fin 16} (hg : g ≠ f) : g.val ≠ f.val := fun h => hg (Fin.ext h)
  have hcauses : s.quiet.rd HIF_KENNEL_CNT.CAUSES = s.dev.rd HIF_KENNEL_CNT.CAUSES := rfl
  have hsoft {f : Fin 16} {b : Bool} {g : Dev → Dev} (ht : Taken 4 s) : softHold f b g s.quiet = g s.quiet := by
    obtain ⟨hb, hpd⟩ := ht
    rw [softHold, ifBooted_true (d := s.quiet) hb, if_pos (by simp [show s.quiet.pd 4 = true from hpd])]
  refine ⟨fun f hb hf hst => ?_, fun f ht hf hst hold => ?_, fun f ht hf hst => ?_, fun num hb hst hoff => ?_,
    fun hb hst hon => ?_, fun f m hst hend hwire hjob => ?_, fun f m hst hlate => ?_⟩
  · refine ends_run (f := cfgGate f (fnReset f)) (fun _ => rfl) ?_
    have hfree : s.quiet.fnState f ≠ 0 := by rw [show s.quiet.fnState f = 1 from hst]; decide
    rw [cfgGate_open (d := s.quiet) hb hfree, fnReset_active (d := s.quiet) (hpos hf) hst]
    have hev : Wrote s.quiet (s.quiet.ev HIF_EVENT.VF_FLR) [(HIF_EVENT.VF_FLR, 1)] := (Wrote.refl _).ev (by decide) (by decide)
    have hbeside : Stands (Beside [HIF_EVENT.VF_FLR]) s.quiet (s.quiet.ev HIF_EVENT.VF_FLR) := hev.beside
    obtain ⟨hall, hstate, hepoch, hcount, hrest⟩ := kennelCause_after (c := 0) hbeside (by decide) (by decide) (by decide)
      (by decide) (show s.quiet.fnState f = 1 from hst) f.isLt
    obtain ⟨hstands, -⟩ := kennelCause_shows (c := 0)
      ((fnState_congr hbeside (by decide) (by decide) f).trans (show s.quiet.fnState f = 1 from hst)) f.isLt
    exact ⟨(hall.inBlocks (by decide)).within, hall.2, hstate, hepoch, hcauses ▸ hcount, fun g hg => hrest g (hother hg),
      (hstands.rd (by decide)).trans (hev.nth 0 rfl)⟩
  · refine ends_run (f := softHold f true (vfHoldSet f)) (fun _ => rfl) ?_
    rw [hsoft ht, vfHoldSet_eq (d := s.quiet) (hpos hf) hold]
    have hbeside : Stands (Beside [HIF_VF_HOLD.HOLD]) s.quiet (s.quiet.putBitOf HIF_VF_HOLD.HOLD (f - 1) true) :=
      (Stands.refl _ _).putBitOf (Free.listed (by simp))
    obtain ⟨hall, hstate, hepoch, hcount, hrest⟩ := kennelCause_after (c := 1) hbeside (by decide) (by decide) (by decide)
      (by decide) (show s.quiet.fnState f = 1 from hst) f.isLt
    obtain ⟨hstands, -⟩ := kennelCause_shows (c := 1)
      ((fnState_congr hbeside (by decide) (by decide) f).trans (show s.quiet.fnState f = 1 from hst)) f.isLt
    exact ⟨(hall.inBlocks (by decide)).within, hall.2, hstate, hepoch, hcauses ▸ hcount, fun g hg => hrest g (hother hg),
      (holdOf_congr hstands (by decide) f).trans (holdOf_putBit (hpos hf) f.isLt)⟩
  · refine ends_run (f := softHold f false (vfHoldClear f)) (fun _ => rfl) ?_
    have hbeside : Stands (Beside [HIF_VF_HOLD.HOLD]) s.quiet (s.quiet.putBitOf HIF_VF_HOLD.HOLD (f - 1) false) :=
      (Stands.refl _ _).putBitOf (Free.listed (by simp))
    have hst' : (s.quiet.putBitOf HIF_VF_HOLD.HOLD (f - 1) false).fnState f = 3 :=
      (fnState_congr hbeside (by decide) (by decide) f).trans (show s.quiet.fnState f = 3 from hst)
    have hen : (s.quiet.putBitOf HIF_VF_HOLD.HOLD (f - 1) false).vfEnabled f = s.dev.vfEnabled f :=
      vfEnabled_congr hbeside (by decide) (by decide) f
    rw [hsoft ht, vfHoldClear_eq (d := s.quiet) (hpos hf) hst', hen]
    have hset (v : Nat) (x : Dev) : Stands (Beside [HIF_VF_STATE.VF]) x (setFnState f v x) := by
      rw [setFnState, if_neg (hpos hf)]
      exact (Stands.refl _ x).wr (Free.listed (by simp))
    have hall := (hbeside.widen (gs := [HIF_VF_HOLD.HOLD, HIF_VF_STATE.VF]) (by simp)).trans
      ((hset (if s.dev.vfEnabled f then 1 else 0) _).widen (by simp))
    refine ⟨hall.only, hall.2, ?_, ?_⟩
    · rw [holdOf_congr (hset _ _) (by decide), holdOf_putBit (hpos hf) f.isLt]
    · rw [fnState_setFnState f.isLt f.isLt, if_pos rfl]
      split <;> rfl
  · refine ends_run (f := cfgGate 0 (vfEnable num)) (fun _ => rfl) ?_
    rw [cfgGate_open (d := s.quiet) hb hst, vfEnable_eq (d := s.quiet) num.isLt hoff]
    have hset : Wrote s.quiet (((s.quiet.wrB HIF_STATUS.VF_ENABLE true).wr HIF_STATUS.NUMVFS num).ev HIF_EVENT.VF_ENABLE_CHG)
        [(HIF_STATUS.VF_ENABLE, 1), (HIF_STATUS.NUMVFS, num.val), (HIF_EVENT.VF_ENABLE_CHG, 1)] :=
      (((Wrote.refl _).wrB (b := true) (by rfl) (by decide)).wr (by rfl) num.isLt).ev (by rfl) (by decide)
    have hbeside : Stands (Beside [HIF_STATUS.VF_ENABLE, HIF_STATUS.NUMVFS, HIF_EVENT.VF_ENABLE_CHG]) s.quiet _ := hset.beside
    generalize ((s.quiet.wrB HIF_STATUS.VF_ENABLE true).wr HIF_STATUS.NUMVFS num).ev HIF_EVENT.VF_ENABLE_CHG = x at hset hbeside
    have hloop := vfOns_stands (d := x) num 15
    have hall := (hbeside.widen (gs := [HIF_STATUS.VF_ENABLE, HIF_STATUS.NUMVFS, HIF_EVENT.VF_ENABLE_CHG, HIF_VF_STATE.VF])
      (by simp)).trans (hloop.widen (by simp))
    refine ⟨(hall.inBlocks (by decide)).within, hall.2, ?_, ?_, ?_, fun f hf => ?_⟩
    · rw [hloop.rd (by decide), hset.nth 0 rfl]
    · rw [hloop.rd (by decide), hset.nth 1 rfl]
    · rw [hloop.rd (by decide), hset.nth 2 rfl]
    · rw [vfOns_state num f.isLt (hpos hf), fnState_congr hbeside (by decide) (by decide), holdOf_congr hbeside (by decide)]
      rfl
  · refine ends_run (f := cfgGate 0 vfEnableClear) (fun _ => rfl) ?_
    rw [cfgGate_open (d := s.quiet) hb hst, vfEnableClear_eq (d := s.quiet) hon]
    have hset : Wrote s.quiet ((((s.quiet.sat HIF_KENNEL_CNT.CAUSES).wrB HIF_STATUS.VF_ENABLE false).wr HIF_STATUS.NUMVFS 0).ev
        HIF_EVENT.VF_ENABLE_CHG) _ :=
      ((((Wrote.refl _).sat (by rfl)).wrB (b := false) (by rfl) (by decide)).wr (v := 0) (by rfl) (by decide)).ev (by rfl) (by decide)
    have hbeside : Stands (Beside [HIF_KENNEL_CNT.CAUSES, HIF_STATUS.VF_ENABLE, HIF_STATUS.NUMVFS, HIF_EVENT.VF_ENABLE_CHG])
      s.quiet _ := hset.beside
    have hon' := hset.nth 1 rfl
    have hnum := hset.nth 2 rfl
    have hchg := hset.nth 3 rfl
    clear hset
    generalize (((s.quiet.sat HIF_KENNEL_CNT.CAUSES).wrB HIF_STATUS.VF_ENABLE false).wr HIF_STATUS.NUMVFS 0).ev
      HIF_EVENT.VF_ENABLE_CHG = x at hbeside hon' hnum hchg
    have hloop := vfOffs_stands (d := x) 2 false 15 (Nat.le_refl 15)
    have hall := (hbeside.widen (gs := [HIF_KENNEL_CNT.CAUSES, HIF_STATUS.VF_ENABLE, HIF_STATUS.NUMVFS, HIF_EVENT.VF_ENABLE_CHG] ++
      kennelFields) (List.subset_append_left _ _)).trans (hloop.widen (List.subset_append_right _ _))
    refine ⟨(hall.inBlocks (by decide)).within, hall.2, ?_, ?_, ?_, ?_, fun f hf => ?_⟩
    · rw [hloop.rd (by decide), hon']
      rfl
    · rw [hloop.rd (by decide), hnum]
    · rw [hloop.rd (by decide), hchg]
    · rw [vfOffs_state 2 false (by decide), if_pos rfl, fnState_congr hbeside (by decide) (by decide)]
      rfl
    · rw [vfOffs_state 2 false f.isLt, if_neg (hpos hf), fnState_congr hbeside (by decide) (by decide)]
      rfl
  · refine ends_run (f := kennelDone f m) (fun _ => rfl) ?_
    obtain ⟨h, he⟩ := atMote_eq m s.quiet
    have hclk : (atMote m s.quiet).hearth = (atMote m s.dev).hearth := atMote_outs_hearth m s.dev []
    rw [kennelDone_ends (d := s.quiet) (by rw [he]; exact hst) (by rw [hclk, he]; exact hend) (by rw [he]; exact hwire)
      (by rw [he]; exact hjob)]
    obtain ⟨hstands, hfn, hcause, hfr, hdone, hstate⟩ := kennelLeft_synced (d := atMote m s.quiet) f.isLt
    rw [hclk] at hfr
    have hrec : (atMote m s.quiet).fn f = s.dev.fn f := by rw [he]; rfl
    have hexit : (atMote m s.quiet).kennelExit f = s.dev.kennelExit f := by rw [he]; rfl
    have hreg : Stands (Beside (leftFields ++ pmemFields)) s.quiet (atMote m s.quiet) := by
      rw [he]
      exact (Stands.refl _ _).parts rfl rfl
    have hall := hreg.trans hstands
    rw [hrec] at hfn hcause hfr
    refine ⟨(hall.inBlocks (by decide)).within, hall.2, hfn, hcause, hfr, hdone, hstate.trans (hexit.trans ?_)⟩
    have hleaves : (f.val != 0 && !s.dev.vfEnabled f) = true ↔ f ≠ 0 ∧ s.dev.vfEnabled f = false := by
      rw [Bool.and_eq_true, bne_iff_ne, Bool.not_eq_true', Fin.val_ne_zero_iff]
    simp only [Dev.kennelExit, hleaves]
  · refine does_run (f := kennelDone f m) (fun _ => rfl) ?_
    obtain ⟨h, he⟩ := atMote_eq m s.quiet
    have hclk : (atMote m s.quiet).hearth = (atMote m s.dev).hearth := atMote_outs_hearth m s.dev []
    rw [kennelDone_waits (d := s.quiet) (by rw [hclk, he]; exact hlate), he]
    exact ⟨(Wrote.refl _).parts rfl rfl, rfl⟩

end Sys2Proof.Machine
end

section
/-!
PROOFS. What domains and functions that start leave alone: the registers of the Ration controller and of reset and boot, the
controller's and the sequencer's own state, retention SRAM (R58, R63, R85, R103).
-/

namespace Sys2Proof.Machine

/-- A field of a register of the blocks RAT and RST. -/
abbrev Ctl (g : Field) : Prop := g.off / 0x4000 = 3 ∨ g.off / 0x4000 = 4

/-- A field of another block. -/
abbrev Away (f : Field) : Prop := f.off / 0x4000 ≠ 3 ∧ f.off / 0x4000 ≠ 4

theorem Away.free {f : Field} (h : Away f) : Free Ctl f := by
  rintro g (hg | hg)
  · exact apart_of_off fun e => h.1 (e ▸ hg)
  · exact apart_of_off fun e => h.2 (e ▸ hg)

/-- The blocks from HIF on. -/
theorem Away.at {f : Field} {b c : Nat} (h : f.off = b + c) (hb : 0x14000 ≤ b) : Away f := by
  constructor <;> omega

theorem ctl_below : Below Ctl := by
  rintro g (hg | hg) <;> omega

/-- From d to e neither the Ration controller nor the sequencer moves, nor their registers, nor retention SRAM. -/
structure Calm (d e : Dev) : Prop where
  stands : Stands Ctl d e
  rat : e.rat = d.rat
  boot : e.boot = d.boot

section
variable {d e : Dev}

theorem Calm.refl (d : Dev) : Calm d d := ⟨.refl _ d, rfl, rfl⟩

theorem Calm.trans {x : Dev} (h1 : Calm d e) (h2 : Calm e x) : Calm d x :=
  ⟨h1.stands.trans h2.stands, h2.rat.trans h1.rat, h2.boot.trans h1.boot⟩

/-- A change of other parts. -/
theorem Calm.parts {x : Dev} (h : Calm d e) (hr : x.regs = e.regs) (hs : x.sram = e.sram) (ht : x.rat = e.rat)
    (hb : x.boot = e.boot) : Calm d x := ⟨h.stands.parts hr hs, ht.trans h.rat, hb.trans h.boot⟩

theorem Calm.wr {f : Field} {v : Nat} (h : Calm d e) (hf : Away f) : Calm d (e.wr f v) :=
  ⟨h.stands.wr hf.free, h.rat, h.boot⟩

theorem Calm.wrB {f : Field} {b : Bool} (h : Calm d e) (hf : Away f) : Calm d (e.wrB f b) := h.wr hf

theorem Calm.ev {f : Field} (h : Calm d e) (hf : Away f) : Calm d (e.ev f) := h.wr hf

theorem Calm.sat {f : Field} {n : Nat} (h : Calm d e) (hf : Away f) : Calm d (e.sat f n) := h.wr hf

theorem Calm.ite {c : Prop} [Decidable c] {x y : Dev} (hx : Calm d x) (hy : Calm d y) : Calm d (if c then x else y) := by
  split
  · exact hx
  · exact hy

theorem Calm.evIf {f : Field} {c : Bool} (h : Calm d e) (hf : Away f) : Calm d (e.evIf c f) := .ite (h.ev hf) h

theorem Calm.foldl {α : Type} {f : Dev → α → Dev} (l : List α) (h : Calm d e) (hf : ∀ a x, Calm d x → Calm d (f x a)) :
    Calm d (l.foldl f e) := by
  induction l generalizing e with
  | nil => exact h
  | cons a l ih => exact ih (hf a e h)

theorem Calm.forN {n : Nat} {f : Nat → Dev → Dev} (h : Calm d e) (hf : ∀ k x, Calm d x → Calm d (f k x)) :
    Calm d (forN n f e) := Calm.foldl _ h hf

theorem Calm.hostMod {f : HostIf → HostIf} (h : Calm d e) : Calm d (e.hostMod f) := h.parts rfl rfl rfl rfl

theorem Calm.fnMod {f : Nat} {g : Fn → Fn} (h : Calm d e) : Calm d (e.fnMod f g) := h.parts rfl rfl rfl rfl

theorem Calm.chMod {n : Nat} {f : Chan → Chan} (h : Calm d e) : Calm d (e.chMod n f) := h.parts rfl rfl rfl rfl

theorem Calm.pegMod {f : Peg → Peg} (h : Calm d e) : Calm d (e.pegMod f) := h.parts rfl rfl rfl rfl

theorem Calm.hearthMod {f : Hearth → Hearth} (h : Calm d e) : Calm d (e.hearthMod f) := h.parts rfl rfl rfl rfl

theorem Calm.cmpMod {f : Cmp → Cmp} (h : Calm d e) : Calm d (e.cmpMod f) := h.parts rfl rfl rfl rfl

theorem Calm.pmMod {f : Pmem → Pmem} (h : Calm d e) : Calm d (e.pmMod f) := h.parts rfl rfl rfl rfl

/-- Work on rings and packet memory is calm. -/
theorem Calm.work {x : Dev} (h : Calm d e) (hx : Work Ctl e x) : Calm d x :=
  h.trans ⟨hx.stands, hx.part Dev.rat fun _ _ _ _ _ => rfl, hx.part Dev.boot fun _ _ _ _ _ => rfl⟩

theorem Calm.pmemSync (h : Calm d e) : Calm d (pmemSync e) :=
  h.work ((Work.refl Ctl e).pmemSync fun f hf => (by decide : ∀ f ∈ pmemFields, Away f) f hf |>.free)

theorem tag_away : ∀ f ∈ tagFields, Free Ctl f := fun f hf => ((by decide : ∀ f ∈ tagFields, Away f) f hf).free

theorem Calm.tagSync (h : Calm d e) : Calm d (tagSync e) := h.work ((Work.refl Ctl e).tagSync tag_away)

/-! ### The host interface -/

theorem Calm.purgeFrames {f : Nat} {xs : List Frm} (h : Calm d e) : Calm d (purgeFrames f xs e) :=
  Calm.pmemSync (Calm.sat h.pmMod (by decide))

theorem Calm.setFnState {f v : Nat} (h : Calm d e) : Calm d (setFnState f v e) :=
  .ite (h.wr (by decide)) (h.wr (by decide))

theorem Calm.cfgDefault {f : Nat} (h : Calm d e) : Calm d (cfgDefault f e) :=
  .ite (Calm.wr h.fnMod.hostMod (by decide)) h.fnMod

theorem Calm.cmpSync (h : Calm d e) : Calm d (cmpSync e) := by
  have hctx (n : Nat) : Calm d (e.wr CMP_CTX_STATE.STATE n) := h.wr (by decide)
  have hstatus (x : Dev) (b : Bool) (c f : Nat) (hx : Calm d x) :
      Calm d (((x.wrB CMP_STATUS.BUSY b).wr CMP_STATUS.CUR_CTX c).wr CMP_STATUS.CUR_FN f) :=
    ((hx.wrB (by decide)).wr (by decide)).wr (by decide)
  unfold Machine.cmpSync
  dsimp only
  split <;> exact hstatus _ _ _ _ (hctx _)

theorem Calm.cmpKennel {p : Nat → Bool} (h : Calm d e) : Calm d (cmpKennel p e) :=
  Calm.cmpSync (Calm.evIf (Calm.cmpMod (Calm.ite (c := e.cmpDraining p = true) h.cmpMod h)) (by decide))

theorem Calm.purgeQueues {f : Nat} (h : Calm d e) : Calm d (purgeQueues f e) := Calm.purgeFrames (h.parts rfl rfl rfl rfl)

theorem Calm.purgePeg {f : Nat} {mine : List Nat} (h : Calm d e) : Calm d (purgePeg f mine e) :=
  Calm.purgeFrames (h.parts rfl rfl rfl rfl)

theorem Calm.purgeRings {f : Nat} (h : Calm d e) : Calm d (purgeRings f e) :=
  Calm.purgeFrames (h.foldl _ fun _ _ hx => hx.parts rfl rfl rfl rfl)

theorem Calm.orphanReads {f : Nat} (h : Calm d e) : Calm d (orphanReads f e) := Calm.tagSync h.hostMod

theorem Calm.kennelOne {f c : Nat} {all : Bool} (h : Calm d e) : Calm d (kennelOne f c all e) := by
  have hbump : Calm d (bumpEpoch f e) := h.wr (.at rfl (by decide))
  have hgone (x : Dev) (hx : Calm d x) : Calm d (Machine.purgeRings f (Machine.purgeQueues f (Machine.orphanReads f x))) :=
    hx.orphanReads.purgeQueues.purgeRings
  unfold Machine.kennelOne
  refine .ite (Calm.tagSync (Calm.cmpKennel (Calm.purgePeg (Calm.fnMod (hgone _ ?_))))) h
  exact Calm.fnMod (Calm.fnMod (.ite hbump.setFnState hbump.setFnState.cfgDefault))

theorem Calm.kennelAll {c : Nat} (h : Calm d e) : Calm d (kennelAll c e) :=
  Calm.forN (h.sat (by decide)) fun _ _ hx => hx.kennelOne

theorem Calm.vfEnableOff {c : Nat} {all : Bool} (h : Calm d e) : Calm d (vfEnableOff c all e) :=
  Calm.forN (Calm.evIf ((h.wrB (by decide)).wr (by decide)) (by decide)) fun _ _ hx => .ite hx.setFnState hx.kennelOne

theorem Calm.intReset (h : Calm d e) : Calm d (intReset e) :=
  Calm.forN (h.wr (by decide)) fun _ _ hx => hx.wr (.at rfl (by decide))

theorem Calm.convReset (h : Calm d e) : Calm d (convReset e) := by
  unfold Machine.convReset Machine.allFnClear Machine.linkOff
  exact Calm.intReset (Calm.forN (Calm.cfgDefault (Calm.vfEnableOff (Calm.kennelAll (Calm.evIf (((h.wrB (by decide)).wr
    (by decide)).wr (by decide)) (by decide))))) fun _ _ hx => hx.fnMod.fnMod)

theorem Calm.pd4On (h : Calm d e) : Calm d (pd4On e) := by
  have hseen : Calm d (perstSeen e) := Calm.evIf (Calm.hostMod (Calm.hostMod (h.wrB (by decide)))) (by decide)
  exact .ite (.ite (Calm.convReset (Calm.hostMod ((h.hostMod.wrB (by decide)).ev (by decide)))) h.hostMod) hseen

/-! ### The Hearth and Pegline -/

theorem Calm.hrtEnter {st : Nat} (h : Calm d e) : Calm d (hrtEnter st e) := by
  unfold Machine.hrtEnter
  extract_lets old a b c
  have hb : Calm d b := Calm.evIf (h.wr (by decide)) (by decide)
  have hc : Calm d c := .ite (hb.wrB (by decide)) (.ite hb (hb.wrB (by decide)))
  exact hc.hearthMod

theorem Calm.pegLeaves (h : Calm d e) : Calm d (pegLeaves e) := .ite (.ite h.hrtEnter h.hearthMod) h

theorem Calm.roleUpdate (h : Calm d e) : Calm d (roleUpdate e) := by
  have hrole (ref fst chg : Bool) : Calm d (((e.wrB PEG_SYNC_STATUS.REF ref).wrB PEG_SYNC_STATUS.FIRST fst).evIf chg
      PEG_SYNC_EVENT.ROLE_CHG) := Calm.evIf ((h.wrB (by decide)).wrB (by decide)) (by decide)
  exact .ite (hrole _ _ _).pegLeaves (hrole _ _ _)

theorem Calm.gridUpdate {b : Bool} (h : Calm d e) : Calm d (gridUpdate b e) :=
  Calm.evIf (f := FRE_EVENT.GRID_LOST) (h.wrB (f := FRE_STATUS.GRID_OK) (by decide)) (by decide)

theorem Calm.pegEnter {st : Nat} (h : Calm d e) : Calm d (pegEnter st e) := by
  have hgrid : Calm d (Machine.gridUpdate (st == 3) ((e.wr PEG_SYNC_STATUS.STATE st).wrB PEG_SYNC_STATUS.GRID (st == 3))) :=
    Calm.gridUpdate ((h.wr (by decide)).wrB (by decide))
  have hlost (x : Dev) (hx : Calm d x) : Calm d (gridLost x) := Calm.pegMod (hx.sat (by decide))
  unfold Machine.pegEnter
  extract_lets was a b c f inner g i j k
  have hc : Calm d c := .ite (hlost _ hgrid.pegLeaves) hgrid
  have hf : Calm d f := (hc.wr (by decide)).wrB (by decide)
  have hg : Calm d g := .ite (Calm.pegMod ((hf.ev (by decide)).wrB (by decide))) hf
  have hi : Calm d i := .ite hg.pegMod hg
  have hj : Calm d j := .ite hi hi.pegMod
  have hk : Calm d k := hj.pegMod
  exact .ite ((hk.ev (by decide)).wrB (by decide)) (.ite hk (hk.wrB (by decide)))

theorem Calm.setSpare {s : Nat} {o : Option Nat} (h : Calm d e) : Calm d (setSpare s o e) :=
  Calm.evIf (h.wr (.at rfl (by decide))) (by decide)

theorem Calm.pegStart (h : Calm d e) : Calm d (pegStart e) := by
  unfold Machine.pegStart
  extract_lets a b c f
  have hc : Calm d c := (Calm.pegMod (h.wr (by decide))).wrB (by decide)
  have hf : Calm d (Machine.roleUpdate (Machine.pegEnter 1 f)) := (hc.forN fun _ _ hx => hx.setSpare).pegEnter.roleUpdate
  exact .ite hf.pegEnter (.ite hf.pegEnter hf)

theorem Calm.pegEnable (h : Calm d e) : Calm d (pegEnable e) := by
  have hrun (v : Nat) : Calm d ((e.wrB PEG_CFG.EN true).wr PEG_STATUS.RUN v) := (h.wrB (by decide)).wr (by decide)
  exact .ite (hrun _).pegStart (hrun _)

/-! ### Channels, the link bridge, ports, the engine -/

theorem Calm.gateEnable {n : Nat} (h : Calm d e) : Calm d (gateEnable n e) :=
  (h.wrB (.at rfl (by decide))).wr (.at rfl (by decide))

theorem Calm.gateShow {n : Nat} (h : Calm d e) : Calm d (gateShow n e) :=
  ((((((h.wr (.at rfl (by decide))).wr (.at rfl (by decide))).wrB (.at rfl (by decide))).wr (.at rfl (by decide))).wr
    (.at rfl (by decide))).wrB (.at rfl (by decide))).wrB (.at rfl (by decide))

theorem Calm.modShow {n : Nat} (h : Calm d e) : Calm d (modShow n e) := (h.wrB (.at rfl (by decide))).wrB (.at rfl (by decide))

theorem Calm.chEnable {n : Nat} (h : Calm d e) : Calm d (chEnable n e) := by
  have hen : Calm d (e.wrB (CHn_CTRL.EN n) true) := h.wrB (.at rfl (by decide))
  have hrun (v : Nat) : Calm d ((e.wrB (CHn_CTRL.EN n) true).wr (CHn_STATUS.RUN n) v) := hen.wr (.at rfl (by decide))
  exact .ite hen (.ite (.ite (Calm.chMod (Calm.chMod ((hrun _).wr (.at rfl (by decide))))) (hrun _)) (hrun _))

theorem Calm.setLlbRun {c v : Nat} (h : Calm d e) : Calm d (setLlbRun c v e) := .ite (h.wr (by decide)) (h.wr (by decide))

theorem Calm.llbOn (h : Calm d e) : Calm d (llbOn e) := by
  unfold Machine.llbOn
  extract_lets a b
  have ha : Calm d a := .ite (h.wr (by decide)) h
  have hb : Calm d b := .ite (ha.wr (by decide)) ha
  exact hb.forN fun _ _ hx => .ite hx.setLlbRun hx

theorem Calm.acMod {dir : Bool} {k : Nat} {f : AudCh → AudCh} (h : Calm d e) : Calm d (e.acMod dir k f) := by
  unfold Dev.acMod
  exact .ite (h.parts rfl rfl rfl rfl) (h.parts rfl rfl rfl rfl)

theorem runField_away (dir : Bool) (k : Nat) : Away (runField dir k) := by
  unfold runField
  split <;> exact .at rfl (by decide)

theorem Calm.sapCheck {p : Nat} (h : Calm d e) : Calm d (sapCheck p e) := by
  have hport (f : SapPort → SapPort) : Calm d (e.sapPortMod p f) := h.parts rfl rfl rfl rfl
  exact .ite ((hport _).wrB (.at rfl (by decide))) (Calm.ev ((hport _).wrB (.at rfl (by decide))) (.at rfl (by decide)))

theorem Calm.setSapRun {p r : Nat} (h : Calm d e) : Calm d (setSapRun p r e) := by
  have hrun : Calm d (e.wr (SAPp_STATUS.RUN p) r) := h.wr (.at rfl (by decide))
  exact .ite (Calm.sapCheck (hrun.wrB (.at rfl (by decide)))) hrun

theorem Calm.setAcRun {dir : Bool} {k r : Nat} (h : Calm d e) : Calm d (setAcRun dir k r e) := by
  have hrun : Calm d (e.wr (runField dir k) r) := h.wr (runField_away dir k)
  exact .ite hrun.acMod hrun

theorem Calm.sapOn (h : Calm d e) : Calm d (sapOn e) :=
  Calm.forN (h.foldl _ fun _ _ hx => hx.forN fun _ _ hy => .ite hy.setAcRun hy) fun _ _ hx => .ite hx.setSapRun hx

theorem Calm.cmpPowered (h : Calm d e) : Calm d (cmpPowered e) :=
  .ite (Calm.wr (h.wrB (by decide)) (by decide)) (h.wrB (by decide))

theorem Calm.coreStart (h : Calm d e) : Calm d (coreStart e) := by
  unfold Machine.coreStart
  extract_lets a b c
  have ha : Calm d a := h.forN fun _ _ hx => .ite hx.chEnable hx
  have hb : Calm d b := ha.forN fun _ _ hx => .ite hx.gateEnable hx
  exact .ite (Calm.llbOn (.ite hb.pegEnable hb)) h

theorem Calm.coreFresh (h : Calm d e) : Calm d (coreFresh e) := by
  have hshow : Calm d (Machine.forN 4 Machine.gateShow ((e.wrB PMC_STATUS.INIT_DONE true).pmMod fun p => { p with poison := [] })) :=
    Calm.forN (Calm.pmMod (h.wrB (by decide))) fun _ _ hx => hx.gateShow
  unfold Machine.coreFresh
  dsimp only
  split
  · exact Calm.pmemSync ((hshow.wr (by decide)).wr (by decide))
  · exact hshow.pmemSync

end

end Sys2Proof.Machine
end

section
/-!
PROOFS. The Keep codes at a Bivouac exit, and the wake that begins a restore (R9, R74; Tables 3.7, 4.2).
-/

namespace Sys2Proof.Machine

/-! ### A field that keeps its value (R9) -/

/-- The register file lists word o at most once. -/
def Lone (o : Nat) (d : Dev) : Prop := d.regs.countP (fun x => x.1 == o) ≤ 1

theorem countP_cellDrop {α : Type} (m : List (Nat × α)) (k j : Nat) :
    (cellDrop m k).countP (fun x => x.1 == j) = if j = k then 0 else m.countP fun x => x.1 == j := by
  induction m with
  | nil => simp [cellDrop]
  | cons x m ih =>
    rw [cellDrop]
    grind

theorem countP_cellPut {α : Type} (m : List (Nat × α)) (k j : Nat) (v : α) :
    (cellPut m k v).countP (fun x => x.1 == j) = m.countP (fun x => x.1 == j) + if k = j then 1 else 0 := by
  induction m with
  | nil => simp [cellPut, List.countP_cons]
  | cons x m ih =>
    rw [cellPut]
    grind

section
variable {d : Dev} {o : Nat} {f : Field} {v : Nat}

theorem Lone.written : Lone f.off (d.wr f v) := by
  unfold Lone Dev.wr Dev.setWord cellWrite
  dsimp only
  split <;> simp [countP_cellPut, countP_cellDrop]

theorem Lone.wr (h : Lone o d) : Lone o (d.wr f v) := by
  unfold Lone at h ⊢
  unfold Dev.wr Dev.setWord cellWrite
  dsimp only
  split
  · grind [countP_cellDrop d.regs f.off o]
  · rw [countP_cellPut, countP_cellDrop]
    grind

end

/-- Words that a change leaves alone in a respect π read alike in it, though the file drops those at their default. -/
theorem cellRead_mapped {β : Type} (dflt : Nat → Word) (m : List (Nat × Word)) (F : Nat → Word → Word) (k : Nat) (π : Word → β)
    (hπ : ∀ v, π (F k v) = π v) (hm : m.countP (fun x => x.1 == k) ≤ 1) :
    π (cellRead dflt ((m.map fun x => (x.1, F x.1 x.2)).filter fun x => x.2 != dflt x.1) k) = π (cellRead dflt m k) := by
  have hnone (l : List (Nat × Word)) (hl : l.countP (fun x => x.1 == k) = 0) :
      cellRead dflt ((l.map fun x => (x.1, F x.1 x.2)).filter fun x => x.2 != dflt x.1) k = dflt k := by
    induction l with
    | nil => rfl
    | cons x l ih => grind [cellRead]
  induction m with
  | nil => rfl
  | cons x m ih =>
    obtain ⟨a, w⟩ := x
    by_cases hk : k = a
    · have hrest := hnone m (by grind)
      by_cases hw : F a w = dflt a
      · have hhead : cellRead dflt ((a, w) :: m) k = w := by simp [cellRead, hk]
        have hdrop : (((a, w) :: m).map fun x => (x.1, F x.1 x.2)).filter (fun x => x.2 != dflt x.1) =
            (m.map fun x => (x.1, F x.1 x.2)).filter fun x => x.2 != dflt x.1 := by simp [hw]
        rw [hdrop, hrest, hhead, ← hπ w, hk, hw]
      · simp [hw, cellRead, hk, ← hπ w]
    · have := ih (by grind)
      grind [cellRead]

/-- A field of register o that keeps its value. -/
def stays (e : KeepEv) (o : Nat) (f : FieldRow) : Bool :=
  keeps e f.keep || (e != .por && f.ty == .ro && inPd0 o && (livePd0 o || e == .exit || e == .exitLoad))

/-- Every field of register o keeps its value, the one of w bits at lo among them. -/
def staysAt (e : KeepEv) (f : Field) : Bool :=
  decide (f.off < 0x200000) && decide (f.lo + f.w ≤ 32) &&
    (rowAt f.off).all fun r => r.fields.all (stays e f.off) && r.fields.any fun x => x.lo == f.lo && x.w == f.w

/-- The bits of a register that fields which stay take from v. -/
theorem testBit_fields {e : KeepEv} {o : Nat} {fs : List FieldRow} (hfs : fs.all (stays e o) = true) (a v j : Nat) :
    (fs.foldl (fun a f => setBits a f.lo f.w
      (if stays e o f then bits v f.lo f.w else bits (resetWord o).toNat f.lo f.w)) a).testBit j =
      if fs.any (fun f => decide (f.lo ≤ j ∧ j < f.lo + f.w)) then v.testBit j else a.testBit j := by
  induction fs generalizing a with
  | nil => rfl
  | cons f fs ih =>
    simp only [List.all_cons, Bool.and_eq_true] at hfs
    obtain ⟨hf, hfs⟩ := hfs
    rw [List.foldl_cons, ih hfs, hf, if_pos rfl, testBit_setBits, List.any_cons]
    by_cases hj : f.lo ≤ j ∧ j < f.lo + f.w
    · have hjw : f.lo + (j - f.lo) = j := by omega
      have hlt : j - f.lo < f.w := by omega
      simp [hj, testBit_bits, hjw, hlt]
    · simp [hj]

theorem bits_keptWord {e : KeepEv} {f : Field} (h : staysAt e f = true) (v : Nat) :
    bits (keptWord e f.off v) f.lo f.w = bits v f.lo f.w := by
  unfold staysAt at h
  simp only [Bool.and_eq_true, decide_eq_true_eq] at h
  obtain ⟨⟨hoff, -⟩, hrow⟩ := h
  unfold keptWord
  rw [if_neg (by omega)]
  cases hr : rowAt f.off with
  | none => rfl
  | some r =>
    rw [hr, Option.all_some, Bool.and_eq_true] at hrow
    obtain ⟨hall, hany⟩ := hrow
    dsimp only
    refine Nat.eq_of_testBit_eq fun i => ?_
    rw [testBit_bits, testBit_bits]
    by_cases hi : i < f.w
    · have hcov : r.fields.any (fun x => decide (x.lo ≤ f.lo + i ∧ f.lo + i < x.lo + x.w)) = true := by
        grind [List.any_eq_true]
      have := testBit_fields hall 0 v (f.lo + i)
      rw [hcov, if_pos rfl] at this
      simp only [hi, decide_true, Bool.true_and]
      exact this
    · simp [hi]

/-- A field that stays reads as it did. -/
theorem applyKeep_rd {e : KeepEv} {f : Field} {d : Dev} (h : staysAt e f = true) (hone : Lone f.off d) :
    (applyKeep e d).rd f = d.rd f := by
  refine cellRead_mapped resetWord d.regs (fun o v => BitVec.ofNat 32 (keptWord e o v.toNat)) f.off
    (fun v => bits v.toNat f.lo f.w) (fun v => ?_) hone
  have hw : f.lo + f.w ≤ 32 := by
    simp only [staysAt, Bool.and_eq_true, decide_eq_true_eq] at h
    omega
  rw [BitVec.toNat_ofNat, bits_mod_low hw, bits_keptWord h]

theorem applyKeep_rat (e : KeepEv) (d : Dev) : (applyKeep e d).rat = d.rat := rfl

theorem applyKeep_sram (e : KeepEv) (d : Dev) : (applyKeep e d).sram = d.sram := rfl

/-! ### Domains and lanes come on (R63) -/

/-- What shows the domains and lanes that are on. -/
def domFields : List Field :=
  [RAT_DOM_STATUS.PD_ON, RAT_DOM_STATUS.PMEM_SR, RAT_DOM_STATUS.LANE_ON, RAT_DOM_STATUS.LSH_LANE_ON]

/-- A field of the Ration controller, of reset or of boot that shows no domain nor lane. -/
abbrev Steady (g : Field) : Prop := Ctl g ∧ Beside domFields g

/-- From d to e the Ration controller and the sequencer move no more than the domains and lanes that are on. -/
structure Powers (d e : Dev) : Prop where
  stands : Stands Steady d e
  rat : e.rat = d.rat
  boot : e.boot = d.boot

theorem steady_of_away {f : Field} (h : Away f) : Free Steady f := by
  rintro g ⟨hg, -⟩
  exact h.free g hg

theorem steady_of_dom {f : Field} (h : f ∈ domFields) : Free Steady f := fun _ hg => hg.2 f h

section
variable {d e x : Dev}

theorem Powers.refl (d : Dev) : Powers d d := ⟨.refl _ d, rfl, rfl⟩

theorem Powers.calm (h : Powers d e) (hx : Calm e x) : Powers d x :=
  ⟨h.stands.trans ⟨fun _ ⟨hg, _⟩ => hx.stands.rd hg, hx.stands.2⟩, hx.rat.trans h.rat, hx.boot.trans h.boot⟩

theorem Powers.wr {f : Field} {v : Nat} (h : Powers d e) (hf : Free Steady f) : Powers d (e.wr f v) :=
  ⟨h.stands.wr hf, h.rat, h.boot⟩

theorem Powers.wrB {f : Field} {b : Bool} (h : Powers d e) (hf : Free Steady f) : Powers d (e.wrB f b) := h.wr hf

theorem Powers.foldl {α : Type} {f : Dev → α → Dev} (l : List α) (h : Powers d e)
    (hf : ∀ a y, Powers d y → Powers d (f y a)) : Powers d (l.foldl f e) := by
  induction l generalizing e with
  | nil => exact h
  | cons a l ih => exact ih (hf a e h)

theorem Powers.pdOn {k : Nat} (h : Powers d e) : Powers d (pdOn k e) := by
  have hset : Powers d (setPd k true { e with frozen := e.frozen.filter fun x => domOf x.1 != k }) :=
    Powers.wr (e := { e with frozen := e.frozen.filter fun x => domOf x.1 != k })
      ⟨h.stands.parts rfl rfl, h.rat, h.boot⟩ (steady_of_dom (by decide))
  unfold Machine.pdOn
  split_ifs
  · exact h
  split
  · exact hset.calm (.forN (.refl _) fun _ _ hx => hx.modShow)
  · exact hset.calm (.pd4On (.refl _))
  · exact hset.calm (.ite (.sapOn (.refl _)) (.refl _))
  · exact hset.calm (.ite (.cmpPowered (.refl _)) (.refl _))
  · exact hset

theorem Calm.laneDown (h : Calm d e) : Calm d (laneDown e) :=
  .ite (Calm.sat (Calm.ev (h.wrB (by decide)) (by decide)) (by decide)) h

theorem Powers.lanesSet {t : Nat} (h : Powers d e) : Powers d (lanesSet t e) := by
  have hclk {f : Field} {v : Nat} {x : Dev} (hx : Powers d x) (hf : Away f) : Powers d (x.wr f v) := hx.wr (steady_of_away hf)
  unfold Machine.lanesSet
  extract_lets m on a b c
  have ha : Powers d a := hclk (h.wr (steady_of_dom (by decide))) (by decide)
  have hb : Powers d b := hclk (ha.wr (steady_of_dom (by decide))) (by decide)
  have hc : Powers d c := hb.calm (.forN (.refl _) fun _ _ hx => .ite hx hx.chMod)
  split
  · exact hc
  · exact hc.calm (Calm.laneDown (Calm.parts (.refl _) rfl rfl rfl rfl))

end

/-! ### A wake in Bivouac, packet memory kept (R74, Table 3.7) -/

/-- What a wake by the timer notes before it restores. -/
def wakeNotes (d : Dev) : Dev :=
  let d := ((d.wr RAT_WAKE_SRC.SRC 8).wrB RAT_BIV_CFG.WAKE_TIMER false).wrB RAT_CTRL.BIV_REQ false
  if d.ratGet RAT_STATUS.PHASE = 1 then d.ev RAT_EVENT.STEP_CANCEL else d

/-- What a restore shows before the Keep codes act. -/
def restoreShows (d : Dev) : Dev :=
  let d := (announce 2 3 ((d.ev RAT_EVENT.WAKE).wrap RAT_WAKE_SRC.COUNT)).ratPut RAT_STATUS.BIV_CAUSE 0
  d.ratMod fun r => { r with wakeFr := some (if d.now % frMt = 0 then 1 else 0), wakeKept := true }

/-- A restore with packet memory kept powers what LIFELINE powers. -/
def restorePowers (d : Dev) : Dev :=
  let d := (d.wrB RAT_DOM_STATUS.PMEM_SR false).wr PMC_SCRUB_STAT.POS d.pm.scrubPos
  coreStart (lanesSet 3 (coreFresh ((tierDoms true 3).foldl (fun d k => pdOn k d) d)))

section
variable {d : Dev}

theorem restorePowers_powers (d : Dev) : Powers d (restorePowers d) := by
  have hsr : Powers d ((d.wrB RAT_DOM_STATUS.PMEM_SR false).wr PMC_SCRUB_STAT.POS d.pm.scrubPos) :=
    ((Powers.refl d).wrB (steady_of_dom (by decide))).wr (steady_of_away (by decide))
  exact Powers.calm (Powers.lanesSet (Powers.calm (hsr.foldl _ fun _ _ hx => hx.pdOn) (.coreFresh (.refl _))))
    (.coreStart (.refl _))

theorem restoreBegin_kept (h : d.on RAT_DOM_STATUS.PMEM_SR = true) :
    restoreBegin d = restorePowers (applyKeep .exit (restoreShows d)) := by
  unfold restoreBegin restorePowers restoreShows
  simp [h]

theorem entryDue_biv (h : 4 ≤ d.tier) : d.entryDue = false := by
  simp [Dev.entryDue, show ¬d.tier ≤ 3 by omega]

theorem ratGet_wrB {f g : Field} {b : Bool} (h : f.off ≠ RAT_STATUS.addr) : (d.wrB f b).ratGet g = d.ratGet g := ratGet_wr h

theorem wake_restores (hboot : d.booted = true) (htier : 4 ≤ d.tier) (hrest : d.rat.wakeFr = none) (hcaps : d.capsHold = false)
    (hen : d.on RAT_BIV_CFG.WAKE_TIMER = true) : wake 3 d = restoreBegin (wakeNotes d) := by
  have hget (f : Field) : (((d.wr RAT_WAKE_SRC.SRC 8).wrB RAT_BIV_CFG.WAKE_TIMER false).wrB RAT_CTRL.BIV_REQ false).ratGet f =
      d.ratGet f := by
    rw [ratGet_wrB (by decide), ratGet_wrB (by decide), ratGet_wr (by decide)]
  have hnotes : ∀ x : Dev, (∀ f, x.ratGet f = d.ratGet f) → x.entryDue = false ∧ x.capsHold = false := by
    intro x hx
    refine ⟨entryDue_biv (by rw [Dev.tier, hx]; exact htier), ?_⟩
    rw [Dev.capsHold, hx, hx]
    exact hcaps
  obtain ⟨hentry, hcap⟩ := hnotes _ hget
  unfold wake wakeNotes
  simp only [wakeEnable, hen, hboot, entryDue_biv htier, htier, Dev.restoring, hrest, if_true]
  simp [hentry, hcap]

theorem wakeNotes_reads (d : Dev) : (wakeNotes d).rd RAT_WAKE_SRC.SRC = 8 ∧ (wakeNotes d).rd RAT_BIV_CFG.WAKE_TIMER = 0 ∧
    (wakeNotes d).rd RAT_CTRL.BIV_REQ = 0 := by
  have hreads : ∀ x, Stands (Beside [RAT_EVENT.STEP_CANCEL]) (((d.wr RAT_WAKE_SRC.SRC 8).wrB RAT_BIV_CFG.WAKE_TIMER false).wrB
      RAT_CTRL.BIV_REQ false) x → x.rd RAT_WAKE_SRC.SRC = 8 ∧ x.rd RAT_BIV_CFG.WAKE_TIMER = 0 ∧ x.rd RAT_CTRL.BIV_REQ = 0 := by
    intro x hx
    rw [hx.rd (by decide), hx.rd (by decide), hx.rd (by decide)]
    simp (disch := decide) only [Dev.wrB, rd_wr_apart, rd_wr_same]
    decide
  refine hreads _ ?_
  unfold wakeNotes
  exact .ite ((Stands.refl _ _).ev (.listed (by decide))) (.refl _ _)

theorem wakeNotes_lone (d : Dev) : Lone RAT_WAKE_SRC.addr (wakeNotes d) ∧ Lone RAT_BIV_CFG.addr (wakeNotes d) ∧
    Lone RAT_CTRL.addr (wakeNotes d) := by
  have hkeep {o : Nat} {x : Dev} (c : Prop) [Decidable c] (h : Lone o x) : Lone o (if c then x.ev RAT_EVENT.STEP_CANCEL else x) := by
    split
    · exact h.wr
    · exact h
  unfold wakeNotes
  exact ⟨hkeep _ (Lone.wr (Lone.wr (Lone.written (f := RAT_WAKE_SRC.SRC)))),
    hkeep _ (Lone.wr (Lone.written (f := RAT_BIV_CFG.WAKE_TIMER))), hkeep _ (Lone.written (f := RAT_CTRL.BIV_REQ))⟩

theorem wakeNotes_parts (d : Dev) : (wakeNotes d).rat = d.rat ∧ (wakeNotes d).sram = d.sram := by
  unfold wakeNotes
  dsimp only
  split <;> exact ⟨rfl, rfl⟩

theorem wakeNotes_memory (d : Dev) : (wakeNotes d).on RAT_DOM_STATUS.PMEM_SR = d.on RAT_DOM_STATUS.PMEM_SR := by
  have hstands : Stands (Beside [RAT_WAKE_SRC.SRC, RAT_BIV_CFG.WAKE_TIMER, RAT_CTRL.BIV_REQ, RAT_EVENT.STEP_CANCEL]) d
      (wakeNotes d) := by
    have hnoted := (((Stands.refl (Beside [RAT_WAKE_SRC.SRC, RAT_BIV_CFG.WAKE_TIMER, RAT_CTRL.BIV_REQ, RAT_EVENT.STEP_CANCEL])
      d).wr (v := 8) (.listed (by decide : RAT_WAKE_SRC.SRC ∈ _))).wrB (b := false)
      (.listed (by decide : RAT_BIV_CFG.WAKE_TIMER ∈ _))).wrB (b := false) (.listed (by decide : RAT_CTRL.BIV_REQ ∈ _))
    unfold wakeNotes
    exact .ite (hnoted.ev (.listed (by decide))) hnoted
  exact hstands.on (by decide)

/-- RAT_STATUS shows what the controller holds. -/
def Unshadowed (d : Dev) : Prop := d.rat.shadow = none

theorem Unshadowed.wr {f : Field} {v : Nat} (h : Unshadowed d) : Unshadowed (d.wr f v) := h

theorem Unshadowed.ev {f : Field} (h : Unshadowed d) : Unshadowed (d.ev f) := h

theorem Unshadowed.wrap {f : Field} {n : Nat} (h : Unshadowed d) : Unshadowed (d.wrap f n) := h

theorem Unshadowed.announced {t : Nat} (h : Unshadowed d) : Unshadowed (d.ratMod fun r => { r with announced := t }) := h

theorem announce_eq {p t : Nat} (h : Unshadowed d) :
    announce p t d = ((d.ev RAT_EVENT.TIER_ANNOUNCE).wr RAT_STATUS.PHASE p).ratMod fun r => { r with announced := t } := by
  rw [announce, setPhase, ratPut_wr h.ev]

/-- A restore is announced: its event and its count, the announcement, the phase. -/
def restoreAnnounced (d : Dev) : Dev := announce 2 3 ((d.ev RAT_EVENT.WAKE).wrap RAT_WAKE_SRC.COUNT)

theorem restoreAnnounced_eq (h : Unshadowed d) : restoreAnnounced d =
    ((((d.ev RAT_EVENT.WAKE).wrap RAT_WAKE_SRC.COUNT).ev RAT_EVENT.TIER_ANNOUNCE).wr RAT_STATUS.PHASE 2).ratMod
      fun r => { r with announced := 3 } :=
  announce_eq h.ev.wrap

theorem restoreShows_eq (h : Unshadowed d) : ∃ n, restoreShows d =
    ((restoreAnnounced d).wr RAT_STATUS.BIV_CAUSE 0).ratMod fun r => { r with wakeFr := some n, wakeKept := true } := by
  have hnone : Unshadowed (restoreAnnounced d) := by
    rw [restoreAnnounced_eq h]
    exact h.ev.wrap.ev.wr.announced
  have hput := ratPut_wr hnone RAT_STATUS.BIV_CAUSE 0
  unfold restoreAnnounced at hput ⊢
  unfold restoreShows
  rw [hput]
  exact ⟨_, rfl⟩

theorem restoreShows_rat (h : Unshadowed d) :
    (restoreShows d).rat.wakeFr.isSome = true ∧ (restoreShows d).rat.announced = 3 := by
  obtain ⟨n, he⟩ := restoreShows_eq h
  rw [he, restoreAnnounced_eq h]
  simp

theorem Stands.ratMod {P : Field → Prop} {e : Dev} {f : Rat → Rat} (h : Stands P d e) : Stands P d (e.ratMod f) := h.parts rfl rfl

theorem restoreShows_stands (h : Unshadowed d) :
    Stands (Beside [RAT_EVENT.WAKE, RAT_WAKE_SRC.COUNT, RAT_EVENT.TIER_ANNOUNCE, RAT_STATUS.PHASE, RAT_STATUS.BIV_CAUSE]) d
      (restoreShows d) := by
  obtain ⟨n, he⟩ := restoreShows_eq h
  rw [he, restoreAnnounced_eq h]
  exact Stands.ratMod (.wr (.ratMod (.wr (.ev (.wr (.ev (.refl _ _) (.listed (by decide))) (.listed (by decide)))
    (.listed (by decide))) (.listed (by decide)))) (.listed (by decide)))

theorem rd_ev_same {f : Field} (h : f.lo + f.w ≤ 32) : (d.ev f).rd f = 1 % 2 ^ f.w := rd_wr_same d f 1 h

theorem restoreShows_reads (h : Unshadowed d) : (restoreShows d).rd RAT_EVENT.WAKE = 1 ∧
    (restoreShows d).rd RAT_STATUS.PHASE = 2 ∧ (restoreShows d).rd RAT_STATUS.BIV_CAUSE = 0 := by
  obtain ⟨n, he⟩ := restoreShows_eq h
  rw [he, restoreAnnounced_eq h]
  rw [ratMod_rd, ratMod_rd, ratMod_rd]
  refine ⟨?_, ?_, (rd_wr_same _ _ 0 (by decide)).trans (by decide)⟩
  · rw [rd_wr_apart _ _ _ _ (by decide), ratMod_rd, rd_wr_apart _ _ _ _ (by decide), rd_ev_apart _ _ _ (by decide), Dev.wrap,
      rd_wr_apart _ _ _ _ (by decide)]
    exact (rd_ev_same (by decide)).trans (by decide)
  · rw [rd_wr_apart _ _ _ _ (by decide), ratMod_rd]
    exact (rd_wr_same _ _ 2 (by decide)).trans (by decide)

theorem Lone.ratMod {o : Nat} {f : Rat → Rat} (h : Lone o d) : Lone o (d.ratMod f) := h

theorem restoreShows_lone (h : Unshadowed d) : Lone RAT_EVENT.addr (restoreShows d) ∧
    Lone RAT_STATUS.addr (restoreShows d) ∧ ∀ o, Lone o d → Lone o (restoreShows d) := by
  obtain ⟨n, he⟩ := restoreShows_eq h
  rw [he, restoreAnnounced_eq h]
  exact ⟨Lone.ratMod (.wr (.ratMod (.wr (.written (f := RAT_EVENT.TIER_ANNOUNCE))))),
    Lone.ratMod (.written (f := RAT_STATUS.BIV_CAUSE)),
    fun _ ho => Lone.ratMod (.wr (.ratMod (.wr (.wr (.wr (.wr ho))))))⟩

theorem wake_shows (hboot : d.booted = true) (htier : 4 ≤ d.tier) (hrest : d.rat.wakeFr = none) (hcaps : d.capsHold = false)
    (hen : d.on RAT_BIV_CFG.WAKE_TIMER = true) (hshadow : d.rat.shadow = none) (hsr : d.on RAT_DOM_STATUS.PMEM_SR = true) :
    (wake 3 d).rd RAT_WAKE_SRC.SRC = 8 ∧ (wake 3 d).rd RAT_BIV_CFG.WAKE_TIMER = 0 ∧ (wake 3 d).rd RAT_CTRL.BIV_REQ = 0 ∧
      (wake 3 d).rd RAT_EVENT.WAKE = 1 ∧ (wake 3 d).rat.wakeFr.isSome = true ∧ (wake 3 d).rat.announced = 3 ∧
      (wake 3 d).rd RAT_STATUS.PHASE = 2 ∧ (wake 3 d).rd RAT_STATUS.BIV_CAUSE = 0 ∧ (wake 3 d).sram = d.sram := by
  obtain ⟨hrat, hsram⟩ := wakeNotes_parts d
  have hnone : (wakeNotes d).rat.shadow = none := by rw [hrat]; exact hshadow
  rw [wake_restores hboot htier hrest hcaps hen, restoreBegin_kept ((wakeNotes_memory d).trans hsr)]
  obtain ⟨hsrc, hbiv, hctrl⟩ := wakeNotes_lone d
  obtain ⟨hev, hst, hlone⟩ := restoreShows_lone hnone
  have hpowers := restorePowers_powers (applyKeep .exit (restoreShows (wakeNotes d)))
  have hstay (f : Field) (hf : staysAt .exit f = true) (hl : Lone f.off (restoreShows (wakeNotes d))) (hs : Steady f) :
      (restorePowers (applyKeep .exit (restoreShows (wakeNotes d)))).rd f = (restoreShows (wakeNotes d)).rd f :=
    (hpowers.stands.rd hs).trans (applyKeep_rd hf hl)
  have hstands := restoreShows_stands hnone
  obtain ⟨hwake, hphase, hcause⟩ := restoreShows_reads hnone
  obtain ⟨hrsrc, hrtimer, hrreq⟩ := wakeNotes_reads d
  obtain ⟨hwaking, hannounced⟩ := restoreShows_rat hnone
  have hpr := hpowers.rat
  have hps := hpowers.stands.2
  refine ⟨?_, ?_, ?_, ?_, ?_, ?_, ?_, ?_, ?_⟩
  · rw [hstay _ (by decide +kernel) (hlone _ hsrc) (by decide), hstands.rd (by decide), hrsrc]
  · rw [hstay _ (by decide +kernel) (hlone _ hbiv) (by decide), hstands.rd (by decide), hrtimer]
  · rw [hstay _ (by decide +kernel) (hlone _ hctrl) (by decide), hstands.rd (by decide), hrreq]
  · rw [hstay _ (by decide +kernel) hev (by decide), hwake]
  · rw [hpr, applyKeep_rat, hwaking]
  · rw [hpr, applyKeep_rat, hannounced]
  · rw [hstay _ (by decide +kernel) hst (by decide), hphase]
  · rw [hstay _ (by decide +kernel) hst (by decide), hcause]
  · rw [hps, applyKeep_sram, hstands.2, hsram]

end

end Sys2Proof.Machine
end

section
/-!
PROOFS. The end of a restore, and Bivouac asked for (R60, R63, R74, R75; Table 18.3).
-/

namespace Sys2Proof.Machine

/-! ### An event copy on CH0 (R329, R331) -/

/-- The frames that a channel holds to send. -/
def heldFrames (c : Chan) : List Frm := c.queues.flatMap id ++ c.expq

/-- From d to e the Ration controller and the sequencer stand, and the frames of the channels but CH0. -/
structure Emits (d e : Dev) : Prop where
  calm : Calm d e
  frames : ∀ m, m ≠ 0 → heldFrames (e.ch m) = heldFrames (d.ch m)

section
variable {d e x : Dev}

theorem Emits.refl (d : Dev) : Emits d d := ⟨.refl d, fun _ _ => rfl⟩

theorem Emits.trans (h : Emits d e) (hx : Emits e x) : Emits d x :=
  ⟨⟨h.calm.stands.trans hx.calm.stands, hx.calm.rat.trans h.calm.rat, hx.calm.boot.trans h.calm.boot⟩,
    fun m hm => (hx.frames m hm).trans (h.frames m hm)⟩

theorem Emits.parts (h : Emits d e) (hc : Calm e x) (hm : x.chan = e.chan) : Emits d x :=
  h.trans ⟨hc, fun m _ => congrArg (fun l => heldFrames (l.getD m {})) hm⟩

theorem Emits.wr {f : Field} {v : Nat} (h : Emits d e) (hf : Away f) : Emits d (e.wr f v) := h.parts (.wr (.refl e) hf) rfl

theorem Emits.wrB {f : Field} {b : Bool} (h : Emits d e) (hf : Away f) : Emits d (e.wrB f b) := h.wr hf

theorem Emits.ev {f : Field} (h : Emits d e) (hf : Away f) : Emits d (e.ev f) := h.wr hf

theorem Emits.sat {f : Field} {n : Nat} (h : Emits d e) (hf : Away f) : Emits d (e.sat f n) := h.wr hf

theorem Emits.ite {c : Prop} [Decidable c] {x y : Dev} (hx : Emits d x) (hy : Emits d y) : Emits d (if c then x else y) := by
  split
  · exact hx
  · exact hy

theorem Emits.evIf {f : Field} {c : Bool} (h : Emits d e) (hf : Away f) : Emits d (e.evIf c f) := .ite (h.ev hf) h

theorem Emits.foldl {α : Type} {f : Dev → α → Dev} (l : List α) (h : Emits d e) (hf : ∀ a x, Emits d x → Emits d (f x a)) :
    Emits d (l.foldl f e) := by
  induction l generalizing e with
  | nil => exact h
  | cons a l ih => exact ih (hf a e h)

/-- A change of a channel that leaves its frames alone. -/
theorem Emits.chMod {n : Nat} {g : Chan → Chan} (h : Emits d e) (hg : ∀ c, heldFrames (g c) = heldFrames c) :
    Emits d (e.chMod n g) :=
  h.trans ⟨.chMod (.refl e), fun _ _ => chMod_keeps heldFrames hg⟩

theorem Emits.chMod0 {g : Chan → Chan} (h : Emits d e) : Emits d (e.chMod 0 g) :=
  h.trans ⟨.chMod (.refl e), fun _ hm => congrArg heldFrames (ch_chMod_ne hm)⟩

theorem Emits.work (h : Emits d e) (hx : Work Ctl e x) : Emits d x := h.parts (.work (.refl e) hx) hx.chan

theorem stat_away (n i : Nat) : ∀ f ∈ statFields n i, Away f := by
  intro f hf
  simp only [statFields, List.mem_cons, List.not_mem_nil, or_false] at hf
  rcases hf with rfl | rfl | rfl
  · exact .at (c := 16384 * n + 4 * i) (b := 0x20400) (by simp [CHn_STATi.COUNT, CHn_STATi.addr]; omega) (by decide)
  · split <;> exact .at rfl (by decide)
  · exact .at rfl (by decide)

theorem pmem_away : ∀ f ∈ pmemFields, Away f := by decide

/-- A frame that is no gasp is dropped: what shows it is far from the Ration controller. -/
theorem dropFrame_calm {n i status : Nat} {y : Frm} (hy : y.gasp = false) : Work Ctl d (dropFrame n i status y d) := by
  have htx : Work Ctl d (if i = 40 && (d.ch n).fencing then d.wrap (SHD_FENCE_RPTn_TX.TX_DROPS n) else d) :=
    Work.ite ((Work.refl Ctl d).wr (Away.at (f := SHD_FENCE_RPTn_TX.TX_DROPS n) rfl (by decide)).free) (.refl _ d)
  unfold dropFrame
  dsimp only
  rw [hy, if_neg Bool.false_ne_true]
  exact ((htx.stat fun f hf => (stat_away n i f hf).free).hostReturn tag_away).leave
    (fun f hf => (pmem_away f hf).free) ctl_below

theorem Emits.dropFrame {n i status : Nat} {y : Frm} (h : Emits d e) (hy : y.gasp = false) :
    Emits d (dropFrame n i status y e) := h.work (dropFrame_calm hy)

theorem Emits.xoffStart {n : Nat} (h : Emits d e) : Emits d (xoffStart n e) := by
  have hbe : Emits d (e.chMod n fun c => { c with beOn := c.beOn ||| e.beMask n }) := h.chMod fun _ => rfl
  have hmark (k : Nat) (x : Dev) (hx : Emits d x) : Emits d (markXoff n k x) := hx.chMod fun _ => rfl
  have hsend (k : WireKind) (v q : Nat) (x : Dev) (hx : Emits d x) : Emits d (sendPause n k v q x) := hx.chMod fun _ => rfl
  have hpfc (g : Chan → Chan) (c : Bool) (hg : ∀ c, heldFrames (g c) = heldFrames c) : Emits d (pfcShow n
      (((e.chMod n fun c => { c with beOn := c.beOn ||| e.beMask n }).chMod n g).evIf c (CHn_EVENT.XOFF_START n))) :=
    Emits.wr (Emits.evIf (hbe.chMod hg) (.at rfl (by decide))) (.at rfl (by decide))
  unfold Machine.xoffStart
  dsimp only
  split
  · have hown (b : Bool) : Emits d (if b = true then
        ((e.chMod n fun c => { c with beOn := c.beOn ||| e.beMask n }).wrB (CHn_STATUS.XOFF n) true).ev (CHn_EVENT.XOFF_START n)
        else e.chMod n fun c => { c with beOn := c.beOn ||| e.beMask n }) :=
      .ite (Emits.ev (hbe.wrB (.at rfl (by decide))) (.at rfl (by decide))) hbe
    exact .ite (hmark _ _ (hsend _ _ _ _ (hown _))) (hown _)
  · exact .ite (hpfc _ _ fun _ => rfl) (hsend _ _ _ _ (Emits.foldl _ (hpfc _ _ fun _ => rfl) fun _ _ hx => hmark _ _ hx))
  · exact h

theorem Emits.enqueue0 {y : Frm} (h : Emits d e) (hy : y.gasp = false) : Emits d (enqueue 0 y e) := by
  unfold Machine.enqueue
  split_ifs
  · exact h.dropFrame hy
  · exact h.dropFrame hy
  · refine Emits.foldl _ (Emits.parts (Emits.chMod0 h) (.pmemSync (.refl _)) ?_) fun _ _ hx => hx.xoffStart
    exact ((Work.refl (fun _ => False) _).pmemSync fun _ _ _ hg => hg.elim).chan
  · exact h.dropFrame hy

theorem Emits.llbSend {w tc : Nat} {bs : Bytes} (h : Emits d e) : Emits d (llbSend w tc bs e) := by
  unfold Machine.llbSend
  refine Emits.enqueue0 (h.parts ?_ rfl) rfl
  exact Calm.pmMod (Calm.parts (.refl e) rfl rfl rfl rfl)

theorem Emits.llbEvCopy {y : LlbEv} (h : Emits d e) : Emits d (llbEvCopy y e) := .ite h.llbSend h

theorem Emits.llbEmit {k a b : Nat} (h : Emits d e) : Emits d (llbEmit k a b e) := by
  have hllb (f : Llb → Llb) (x : Dev) (hx : Emits d x) : Emits d (x.llbMod f) :=
    hx.parts (.parts (.refl _) rfl rfl rfl rfl) rfl
  have hseq (v : Nat) (y : LlbEv) : Emits d (Machine.llbEvCopy y (e.wr LLB_EV_SEQ.NEXT v)) := Emits.llbEvCopy (h.wr (by decide))
  unfold Machine.llbEmit
  refine .ite (.ite (hseq _ _) (hllb _ _ (.ite ?_ (hseq _ _)))) h
  exact Emits.ev (Emits.sat (hseq _ _) (by decide)) (by decide)

end

/-! ### A fence with cause TIER -/

section
variable {d e x : Dev} {n : Nat}

theorem Emits.setGate {g : GateCopy} (h : Emits d e) : Emits d (setGate n g e) := by
  have hmod : Emits d (e.chMod n fun c => { c with
      ga := g, gb := g, gc := g
      closedFr := (List.range 8).map fun k =>
        if bit g.gates k then none
        else if bit (e.gate n).gates k then some e.frameExt else (c.closedFr.getD k none).or (some e.frameExt) }) :=
    h.chMod fun _ => rfl
  exact hmod.parts (.gateShow (.refl _)) gateShow_beyond.chan

theorem Emits.gateFallback (h : Emits d e) : Emits d (gateFallback n e) := by
  have hev : Emits d (e.ev (CHn_GATE_EVENT.FALLBACK_ENTER n)) := h.ev (.at rfl (by decide))
  unfold Machine.gateFallback
  exact .ite h (.setGate (.ite (hev.wr (.at rfl (by decide))) hev))

theorem Emits.setCauses {c : Nat} {b : Bool} (h : Emits d e) : Emits d (setCauses n c b e) :=
  Emits.chMod (Emits.wrB (h.wr (by decide)) (.at rfl (by decide))) fun _ => rfl

theorem rptTime_away (n : Nat) : Away (SHD_FENCE_RPTn_T_LO.T n) := .at rfl (by decide)

theorem rptEra_away (n : Nat) : Away (SHD_FENCE_RPTn_T_HI.T n) := .at rfl (by decide)

theorem rptDrops_away (n : Nat) : Away (SHD_FENCE_RPTn_TX.TX_DROPS n) := .at rfl (by decide)

theorem rptCauses_away (n : Nat) : Away (SHD_FENCE_RPTn_RX.CAUSES n) := .at rfl (by decide)

theorem rptReceived_away (n : Nat) : Away (SHD_FENCE_RPTn_RX.RX_DROPS n) := .at rfl (by decide)

theorem report_emits {t u v c x : Nat} (h : Emits d e) : Emits d (((((e.wr (SHD_FENCE_RPTn_T_LO.T n) t).wr
    (SHD_FENCE_RPTn_T_HI.T n) u).wr (SHD_FENCE_RPTn_TX.TX_DROPS n) v).wr (SHD_FENCE_RPTn_RX.CAUSES n) c).wr
      (SHD_FENCE_RPTn_RX.RX_DROPS n) x) :=
  ((((h.wr (rptTime_away n)).wr (rptEra_away n)).wr (rptDrops_away n)).wr (rptCauses_away n)).wr (rptReceived_away n)

theorem fenceReport_emits (n cause : Nat) (d : Dev) : Emits d (fenceReport n cause d) := by
  have h : Emits d (setCauses n (2 ^ cause) true d) := .setCauses (.refl d)
  unfold fenceReport
  generalize setCauses n (2 ^ cause) true d = y at h ⊢
  dsimp only
  generalize y.now / 2 ^ 32 = u
  exact report_emits h

/-- A fence with cause TIER discards no more than the frames queued. -/
theorem fence_tier (n : Nat) (d : Dev) : Emits d (fence n 6 d) ∨ ∃ x, Emits d x ∧ fence n 6 d = dropQueues n 40 4 x := by
  by_cases h : d.causes n = 0
  · refine .inr ⟨fenceOpens n 6 d, ?_, (fence_fresh h).trans (congrArg (dropQueues n 40 4) (if_neg (by decide)))⟩
    unfold fenceOpens
    rw [if_neg (by decide)]
    exact Emits.gateFallback ((fenceReport_emits n 6 d).chMod fun _ => rfl)
  · refine .inl ?_
    rw [fence_further h, if_neg (by simp)]
    unfold fenceAdds
    rw [if_neg (by decide)]
    exact Emits.wr (Emits.setCauses (.refl d)) (rptCauses_away n)

/-- What the end of a restore reads: a skipped gasp apart, the Ration controller's registers. -/
abbrev Rests (g : Field) : Prop := Ctl g ∧ Beside [RAT_EVENT.GASP_SKIPPED] g

/-- From d to e the controller's registers stand but for a skipped gasp, and so do its status word and its restore. -/
structure Lasts (d e : Dev) : Prop where
  reads : ∀ g, Rests g → e.rd g = d.rd g
  shadow : e.rat.shadow = d.rat.shadow
  wake : e.rat.wakeFr = d.rat.wakeFr

theorem Lasts.refl (d : Dev) : Lasts d d := ⟨fun _ _ => rfl, rfl, rfl⟩

theorem Lasts.trans (h : Lasts d e) (hx : Lasts e x) : Lasts d x :=
  ⟨fun g hg => (hx.reads g hg).trans (h.reads g hg), hx.shadow.trans h.shadow, hx.wake.trans h.wake⟩

theorem Calm.lasts (h : Calm d e) : Lasts d e := ⟨fun _ ⟨hg, _⟩ => h.stands.rd hg, by rw [h.rat], by rw [h.rat]⟩

theorem Lasts.ratGet (h : Lasts d e) {f : Field} : e.ratGet f = d.ratGet f := by
  have hword : e.word RAT_STATUS.addr = d.word RAT_STATUS.addr := by
    have := h.reads ⟨RAT_STATUS.addr, 0, 32⟩ (by decide)
    rwa [← word_eq_rd, ← word_eq_rd] at this
  rw [Dev.ratGet, Dev.ratGet, Dev.ratWord, Dev.ratWord, h.shadow, hword]

theorem rests_free {f : Field} (h : Away f) : Free Rests f := fun _ ⟨hg, _⟩ => h.free _ hg

theorem gaspSkip_lasts (d : Dev) : Lasts d (gaspSkip d) :=
  ⟨fun g hg => rd_wr_apart d _ g 1 (hg.2 _ (by decide)), rfl, rfl⟩

theorem Lasts.ite {c : Prop} [Decidable c] {y : Dev} (hx : Lasts d x) (hy : Lasts d y) : Lasts d (if c then x else y) := by
  split
  · exact hx
  · exact hy

theorem dropFrame_lasts {i status : Nat} {y : Frm} : Lasts d (dropFrame n i status y d) := by
  have htx : Lasts d (if i = 40 && (d.ch n).fencing then d.wrap (SHD_FENCE_RPTn_TX.TX_DROPS n) else d) :=
    .ite (Calm.wr (.refl d) (.at rfl (by decide))).lasts (.refl d)
  have hrest (z : Dev) : Work Ctl z (leave false y (hostReturn n status none y (stat n i 1 z))) :=
    (((Work.refl Ctl z).stat fun f hf => (stat_away n i f hf).free).hostReturn tag_away).leave
      (fun f hf => (pmem_away f hf).free) ctl_below
  unfold dropFrame
  dsimp only
  exact (htx.trans (.ite (gaspSkip_lasts _) (.refl _))).trans (Calm.work (.refl _) (hrest _)).lasts

theorem dropQueues_lasts {i status : Nat} : Lasts d (dropQueues n i status d) := by
  have hdrops (xs : List Frm) (z : Dev) : Lasts z (xs.foldl (fun z y => dropFrame n i status y z) z) := by
    induction xs generalizing z with
    | nil => exact .refl z
    | cons y ys ih => exact dropFrame_lasts.trans (ih _)
  exact (Calm.lasts (Calm.chMod (.refl d))).trans (hdrops _ _)

theorem fence_lasts (n : Nat) (d : Dev) : Lasts d (fence n 6 d) := by
  rcases fence_tier n d with h | ⟨x, h, he⟩
  · exact h.calm.lasts
  · rw [he]
    exact h.calm.lasts.trans dropQueues_lasts

/-- Frames dropped among which is no gasp leave retention SRAM alone, and the frames of the other channels. -/
theorem dropQueues_quiet {i status : Nat} (h : ∀ y ∈ heldFrames (d.ch n), y.gasp = false) :
    (dropQueues n i status d).sram = d.sram ∧ ∀ m, m ≠ n → (dropQueues n i status d).ch m = d.ch m := by
  have hwork : Work Ctl (d.chMod n fun c => { c with queues := List.replicate 8 [], expq := [], ctlq := [], mpq := [] })
      (dropQueues n i status d) := .foldl _ (.refl _ _) fun y hy _ hz => hz.trans (dropFrame_calm (h y hy))
  exact ⟨hwork.stands.2, fun m hm => (hwork.ch m).trans (ch_chMod_ne hm)⟩

theorem ch_modify_beyond {g : Chan → Chan} (h : d.chan.length ≤ n) : (d.chMod n g).ch n = d.ch n := by
  simp [Dev.ch, Dev.chMod, List.getD_eq_getElem?_getD, List.getElem?_eq_none h]

theorem dropQueues_empty {i status : Nat} : heldFrames ((dropQueues n i status d).ch n) = [] ∨
    (dropQueues n i status d).ch n = d.ch n := by
  have hch := (dropQueues_shed (P := fun _ => False) (d := d) (n := n) (i := i) (status := status)
    (fun _ _ _ hg => hg.elim) fun _ hg => hg.elim).ch n
  rw [hch]
  by_cases hn : n < d.chan.length
  · exact .inl (by rw [ch_chMod hn]; rfl)
  · exact .inr (ch_modify_beyond (Nat.le_of_not_lt hn))

/-- Channels 1 to 3 hold no dying gasp. -/
def Gaspless (d : Dev) : Prop := ∀ m, m ≠ 0 → ∀ y ∈ heldFrames (d.ch m), y.gasp = false

theorem Emits.gaspless (h : Emits d e) (hd : Gaspless d) : Gaspless e := fun m hm => by
  rw [h.frames m hm]
  exact hd m hm

theorem fence_gaspless (hn : n ≠ 0) (hd : Gaspless d) : Gaspless (fence n 6 d) ∧ (fence n 6 d).sram = d.sram := by
  rcases fence_tier n d with h | ⟨x, h, he⟩
  · exact ⟨h.gaspless hd, h.calm.stands.2⟩
  · have hx := h.gaspless hd
    have hempty := dropQueues_empty (d := x) (n := n) (i := 40) (status := 4)
    obtain ⟨hsram, hothers⟩ := dropQueues_quiet (i := 40) (status := 4) (hx n hn)
    rw [he]
    refine ⟨fun m hm => ?_, hsram.trans h.calm.stands.2⟩
    by_cases hmn : m = n
    · subst hmn
      rcases hempty with h0 | h0
      · simp [h0]
      · rw [h0]
        exact hx m hm
    · rw [hothers m hmn]
      exact hx m hm

theorem fences_last (d : Dev) : Lasts d ([1, 2, 3].foldl (fun d n => fence n 6 d) d) :=
  (fence_lasts 1 d).trans ((fence_lasts 2 _).trans (fence_lasts 3 _))

theorem fences_gaspless (hd : Gaspless d) : ([1, 2, 3].foldl (fun d n => fence n 6 d) d).sram = d.sram := by
  obtain ⟨h1, hs1⟩ := fence_gaspless (n := 1) (by decide) hd
  obtain ⟨h2, hs2⟩ := fence_gaspless (n := 2) (by decide) h1
  obtain ⟨-, hs3⟩ := fence_gaspless (n := 3) (by decide) h2
  exact hs3.trans (hs2.trans hs1)

end

/-! ### The status word, shown or not (R79) -/

section
variable {d : Dev} {f g : Field} {v : Nat}

theorem ratGet_ratPut_same (hf : f.off = RAT_STATUS.addr) (hw : f.lo + f.w ≤ 32) : (d.ratPut f v).ratGet f = v % 2 ^ f.w := by
  unfold Dev.ratPut
  split
  · simp [Dev.ratGet, Dev.ratWord, bits_setBits_same]
  next hs =>
    rw [ratGet_rd (d := d.wr f v) hs hf]
    exact rd_wr_same d f v hw

theorem ratGet_ratPut_apart (hg : g.off = RAT_STATUS.addr)
    (h : g.lo + g.w ≤ 32 ∧ (g.lo + g.w ≤ f.lo ∨ f.lo + f.w ≤ g.lo)) : (d.ratPut f v).ratGet g = d.ratGet g := by
  obtain ⟨hw, hap⟩ := h
  unfold Dev.ratPut
  split
  next w hs => simp [Dev.ratGet, Dev.ratWord, hs, bits_setBits_disjoint, hap]
  next hs =>
    rw [ratGet_rd (d := d.wr f v) hs hg, ratGet_rd hs hg]
    exact rd_wr_apart d f g v (by simp [Field.apart, hw, hap])

theorem ratPut_rd (hf : f.off = RAT_STATUS.addr) (hg : g.off ≠ RAT_STATUS.addr) : (d.ratPut f v).rd g = d.rd g := by
  unfold Dev.ratPut
  split
  · rfl
  · exact rd_wr_off d f g v (by rw [hf]; exact hg)

theorem ratPut_sram (f : Field) (v : Nat) (d : Dev) : (d.ratPut f v).sram = d.sram := by
  unfold Dev.ratPut
  split <;> rfl

theorem ratPut_chan (f : Field) (v : Nat) (d : Dev) : (d.ratPut f v).chan = d.chan := by
  unfold Dev.ratPut
  split <;> rfl

theorem ratPut_wakeFr (f : Field) (v : Nat) (d : Dev) : (d.ratPut f v).rat.wakeFr = d.rat.wakeFr := by
  unfold Dev.ratPut
  split <;> rfl

end

/-! ### The decision that follows (R60) -/

/-- A field that the decision of an evaluation in LIFELINE leaves alone. -/
abbrev Decides (g : Field) : Prop := Steady g ∧ Beside [RAT_EVENT.TIER_ANNOUNCE] g ∧ g.off ≠ RAT_STATUS.addr

/-- From d to e a decision in LIFELINE leaves the tier, the restore and retention SRAM alone. -/
structure Decided (d e : Dev) : Prop where
  reads : ∀ g, Decides g → e.rd g = d.rd g
  tier : e.tier = d.tier
  wake : e.rat.wakeFr = d.rat.wakeFr
  sram : e.sram = d.sram

section
variable {d e x : Dev}

theorem Decided.refl (d : Dev) : Decided d d := ⟨fun _ _ => rfl, rfl, rfl, rfl⟩

theorem Decided.trans (h : Decided d e) (hx : Decided e x) : Decided d x :=
  ⟨fun g hg => (hx.reads g hg).trans (h.reads g hg), hx.tier.trans h.tier, hx.wake.trans h.wake, hx.sram.trans h.sram⟩

theorem Decided.ratPut {f : Field} {v : Nat} (h : Decided d e) (hf : f.off = RAT_STATUS.addr) (hlo : 3 ≤ f.lo) :
    Decided d (e.ratPut f v) :=
  h.trans ⟨fun _ ⟨_, _, hg⟩ => ratPut_rd hf hg,
    ratGet_ratPut_apart rfl ⟨by decide, .inl hlo⟩, ratPut_wakeFr f v e, ratPut_sram f v e⟩

theorem Powers.decided (h : Powers d e) : Decided d e := by
  refine ⟨fun _ ⟨hg, _⟩ => h.stands.rd hg, ?_, by rw [h.rat], h.stands.2⟩
  have hword : e.word RAT_STATUS.addr = d.word RAT_STATUS.addr := by
    have := h.stands.rd (g := ⟨RAT_STATUS.addr, 0, 32⟩) (by decide)
    rwa [← word_eq_rd, ← word_eq_rd] at this
  rw [Dev.tier, Dev.tier, Dev.ratGet, Dev.ratGet, Dev.ratWord, Dev.ratWord, h.rat, hword]

theorem Decided.announced {t : Nat} (h : Decided d e) : Decided d (e.ratMod fun r => { r with announced := t }) :=
  h.trans ⟨fun _ _ => rfl, rfl, rfl, rfl⟩

theorem Decided.first (h : Decided d e) : Decided d (e.ratMod fun r => { r with bootFirst := false }) :=
  h.trans ⟨fun _ _ => rfl, rfl, rfl, rfl⟩

theorem Decided.announceUp {t : Nat} (h : Decided d e) : Decided d (announceUp t e) := by
  have hev : Decided e (e.ev RAT_EVENT.TIER_ANNOUNCE) :=
    ⟨fun g ⟨_, hg, _⟩ => rd_wr_apart e _ g 1 (hg _ (by decide)), ratGet_wr (by decide), rfl, rfl⟩
  have hann : Decided d (announce 2 t e) := (Decided.ratPut (h.trans hev) rfl (by decide)).announced
  exact hann.trans (Powers.lanesSet (Powers.foldl _ (.refl _) fun _ _ hx => hx.pdOn)).decided

theorem Decided.ite {c : Prop} [Decidable c] {y : Dev} (hx : Decided d x) (hy : Decided d y) : Decided d (if c then x else y) := by
  split
  · exact hx
  · exact hy

/-- In LIFELINE, with a target above Bivouac, no step down is announced. -/
theorem decideStep_lifeline (ht : d.tier = 3) (hgt : d.ratGet RAT_STATUS.TARGET < 4) : Decided d (decideStep d) := by
  have hdwell (v : Nat) : Decided d (d.ratPut RAT_STATUS.DWELL v) := .ratPut (.refl d) rfl (by decide)
  unfold decideStep
  dsimp only
  rw [if_neg (by omega)]
  exact Decided.first (.ite (.ite (hdwell _).announceUp (.ite (hdwell _).announceUp (hdwell _))) (.ite (hdwell _) (.refl d)))

/-! ### LIFELINE is reached -/

/-- A restore that may end shows LIFELINE. -/
def restoreEnds (d : Dev) : Dev := ((tierDone 3 d).sat RAT_TIER_CNT.UP).ratMod fun r => { r with wakeFr := none }

theorem restoreApply_ends {n : Nat} (hw : d.rat.wakeFr = some n) (h33 : 33 ≤ n) (hboot : d.booted = true)
    (hsf : d.rat.sfEv = true) (hgt : d.ratGet RAT_STATUS.TARGET < 4) : restoreApply d =
      decideStep (autoDue (setPhase 0 (([1, 2, 3].foldl (fun d n => fence n 6 d) (restoreEnds d)).ratPut RAT_STATUS.DWELL 0))) := by
  unfold restoreApply
  rw [hw]
  simp only [h33, hboot, hsf, hgt, and_self, if_true]
  rfl

theorem tierDone_emits (new : Nat) (d : Dev) :
    Emits ((d.ratPut RAT_STATUS.TIER new).ev RAT_EVENT.TIER_DONE) (tierDone new d) := .llbEmit (.refl _)

theorem ratGet_sat {f g : Field} {n : Nat} (h : f.off ≠ RAT_STATUS.addr) : (d.sat f n).ratGet g = d.ratGet g := ratGet_wr h

theorem ratGet_ev {f g : Field} (h : f.off ≠ RAT_STATUS.addr) : (d.ev f).ratGet g = d.ratGet g := ratGet_wr h

theorem ratGet_waking {g : Field} {w : Option Nat} : (d.ratMod fun r => { r with wakeFr := w }).ratGet g = d.ratGet g := rfl

theorem restoreEnds_ratGet (f : Field) : (restoreEnds d).ratGet f = (d.ratPut RAT_STATUS.TIER 3).ratGet f := by
  rw [restoreEnds, ratGet_waking, ratGet_sat (by decide), (tierDone_emits 3 d).calm.lasts.ratGet, ratGet_ev (by decide)]

theorem restoreEnds_shows (d : Dev) : (restoreEnds d).tier = 3 ∧ (restoreEnds d).rd RAT_EVENT.TIER_DONE = 1 ∧
    (restoreEnds d).rd RAT_TIER_CNT.UP = min (d.rd RAT_TIER_CNT.UP + 1) 65535 ∧
    (restoreEnds d).ratGet RAT_STATUS.TARGET = d.ratGet RAT_STATUS.TARGET := by
  have hcalm := (tierDone_emits 3 d).calm.stands
  have hup : (tierDone 3 d).rd RAT_TIER_CNT.UP = d.rd RAT_TIER_CNT.UP := by
    rw [hcalm.rd (by decide), rd_ev_apart _ _ _ (by decide), ratPut_rd rfl (by decide)]
  have hmax : 2 ^ RAT_TIER_CNT.UP.w - 1 = 65535 := by decide
  refine ⟨?_, ?_, ?_, ?_⟩
  · rw [Dev.tier, restoreEnds_ratGet, ratGet_ratPut_same rfl (by decide)]
    decide
  · rw [restoreEnds, ratMod_rd, rd_sat_apart _ _ _ _ (by decide), hcalm.rd (by decide), rd_ev_same (by decide)]
    decide
  · rw [restoreEnds, ratMod_rd, rd_sat_same _ _ _ (by decide), hup, hmax]
  · rw [restoreEnds_ratGet, ratGet_ratPut_apart rfl (by decide)]

theorem waking_sram {f : Field} {n : Nat} {w : Option Nat} :
    ((d.sat f n).ratMod fun r => { r with wakeFr := w }).sram = d.sram := rfl

theorem Gaspless.waking {f : Field} {n : Nat} {w : Option Nat} (h : Gaspless d) :
    Gaspless ((d.sat f n).ratMod fun r => { r with wakeFr := w }) := h

theorem restoreEnds_parts (d : Dev) : (restoreEnds d).rat.wakeFr = none ∧ (restoreEnds d).sram = d.sram ∧
    (Gaspless d → Gaspless (restoreEnds d)) := by
  have hemits := tierDone_emits 3 d
  refine ⟨by rw [restoreEnds, ratMod_rat], ?_, fun h => ?_⟩
  · rw [restoreEnds, waking_sram, hemits.calm.stands.2, ev_sram, ratPut_sram]
  · have hshown : Gaspless ((d.ratPut RAT_STATUS.TIER 3).ev RAT_EVENT.TIER_DONE) := by
      unfold Gaspless Dev.ch at h ⊢
      rwa [ev_chan, ratPut_chan]
    exact (hemits.gaspless hshown).waking

theorem autoDue_decided (d : Dev) : Decided d (autoDue d) := ⟨fun _ _ => rfl, rfl, rfl, rfl⟩

theorem autoDue_ratGet (f : Field) : (autoDue d).ratGet f = d.ratGet f := rfl

theorem restoreApply_shows {n : Nat} (hw : d.rat.wakeFr = some n) (h33 : 33 ≤ n) (hboot : d.booted = true)
    (hsf : d.rat.sfEv = true) (hgt : d.ratGet RAT_STATUS.TARGET < 4) :
    (restoreApply d).tier = 3 ∧ (restoreApply d).rd RAT_EVENT.TIER_DONE = 1 ∧
      (restoreApply d).rd RAT_TIER_CNT.UP = min (d.rd RAT_TIER_CNT.UP + 1) 65535 ∧ (restoreApply d).rat.wakeFr = none ∧
      (Gaspless d → (restoreApply d).sram = d.sram) := by
  rw [restoreApply_ends hw h33 hboot hsf hgt]
  obtain ⟨htier, hdone, hup, htarget⟩ := restoreEnds_shows d
  obtain ⟨hwake, hsram, hgasp⟩ := restoreEnds_parts d
  generalize restoreEnds d = x at *
  have hfences := fences_last x
  have hquiet := fences_gaspless (d := x)
  generalize [1, 2, 3].foldl (fun d n => fence n 6 d) x = y at *
  have hset : Decided y (autoDue (setPhase 0 (y.ratPut RAT_STATUS.DWELL 0))) :=
    (Decided.ratPut (.ratPut (.refl y) rfl (by decide)) rfl (by decide)).trans (autoDue_decided _)
  have htarget' : (autoDue (setPhase 0 (y.ratPut RAT_STATUS.DWELL 0))).ratGet RAT_STATUS.TARGET = d.ratGet RAT_STATUS.TARGET := by
    rw [autoDue_ratGet, setPhase, ratGet_ratPut_apart rfl (by decide), ratGet_ratPut_apart rfl (by decide), hfences.ratGet, htarget]
  have htier' : y.tier = 3 := hfences.ratGet.trans htier
  have hall := hset.trans (decideStep_lifeline (hset.tier.trans htier') (by omega))
  refine ⟨hall.tier.trans htier', ?_, ?_, ?_, fun h => ?_⟩
  · rw [hall.reads _ (by decide), hfences.reads _ (by decide), hdone]
  · rw [hall.reads _ (by decide), hfences.reads _ (by decide), hup]
  · rw [hall.wake, hfences.wake, hwake]
  · rw [hall.sram, hquiet (hgasp h), hsram]

end

/-! ### Bivouac is asked for and left -/

/-- The channels after CH0 hold no dying gasp. -/
theorem gaspless_of_all {d : Dev} (h : ((d.chan.drop 1).all fun c => (c.queues.flatten ++ c.expq).all fun x => !x.gasp) = true) :
    Gaspless d := by
  intro m hm y hy
  simp only [heldFrames, List.flatMap_id] at hy
  by_cases hlt : m < d.chan.length
  · have hmem : d.ch m ∈ d.chan.drop 1 := by
      rw [Dev.ch, List.getD_eq_getElem _ _ hlt]
      exact List.mem_drop_iff_getElem.mpr ⟨m - 1, by omega, by congr 1; omega⟩
    have := List.all_eq_true.mp (List.all_eq_true.mp h _ hmem) y hy
    simpa using this
  · rw [Dev.ch, List.getD_eq_default _ _ (by omega)] at hy
    simp at hy

theorem wakeTimer_due {d : Dev} {m t : Nat} (ht : d.rat.timer = some t) (hv : d.valid = true) (hdue : t ≤ (atMote m d).now) :
    wakeTimer m d = wake 3 (atMote m d) := by
  obtain ⟨h, he⟩ := atMote_eq m d
  have hrat : (atMote m d).rat.timer = some t := by rw [he]; exact ht
  have hvalid : (atMote m d).valid = true := by rw [he]; exact hv
  unfold wakeTimer
  dsimp only
  rw [hrat]
  simp [hvalid, hdue]

/-- Settles O7, by what the Keep codes of a Bivouac exit spare and what the domains that come on leave alone. -/
theorem bivouacAndWake : Obligations.BivouacAndWake := by
  unfold Obligations.BivouacAndWake
  intro s
  refine ⟨fun ht => ?_, fun hi ht => ?_, fun m t htimer hdue hvalid hboot htier hwake hcaps hen hshadow hsr => ?_,
    fun n hw h33 hboot hsf hgt => ?_⟩
  · refine does_soft (k := 0) (f := bivReq) (fun _ => rfl) ht ⟨?_, rfl⟩
    exact (Wrote.refl s.quiet).wrB (f := RAT_CTRL.BIV_REQ) (b := true) (by decide) (by decide)
  · refine does_soft (k := 0) (f := bivTimerWrite hi.toNat) (fun _ => rfl) ht ⟨?_, ?_⟩
    · exact ((Wrote.refl s.quiet).wr (f := RAT_BIV_TIMER_HI.TIME) (v := hi.toNat) (by decide) hi.isLt).parts rfl rfl
    · show some (hi.toNat % 2 ^ 32 * 2 ^ 32 + s.quiet.rd RAT_BIV_TIMER_LO.TIME) = _
      rw [Nat.mod_eq_of_lt hi.isLt]
      rfl
  · refine ends_run (f := wakeTimer m) (fun _ => rfl) ?_
    rw [wakeTimer_due (d := s.quiet) htimer hvalid (by rw [Dev.now, atMote_outs_hearth m s.dev []]; exact hdue)]
    obtain ⟨h, he⟩ := atMote_eq m s.quiet
    rw [he]
    exact wake_shows (d := { s.quiet with hearth := h }) hboot htier hwake hcaps hen hshadow hsr
  · refine ends_run (f := restoreApply) (fun _ => rfl) ?_
    obtain ⟨htier, hdone, hup, hnone, hsram⟩ := restoreApply_shows (d := s.quiet) hw h33 hboot hsf hgt
    exact ⟨htier, hdone, hup, hnone, fun h => hsram (gaspless_of_all h)⟩

end Sys2Proof.Machine
end

section
/-!
PROOFS. POWER_UP powers the domains in order (R83, R85).
-/

namespace Sys2Proof.Machine

/-! ### A domain comes on and stays on -/

section
variable {d e : Dev}

theorem Calm.pd (h : Calm d e) (k : Nat) : e.pd k = d.pd k := by
  rw [Dev.pd, Dev.pd, Dev.bitOf, Dev.bitOf, h.stands.rd (by decide)]

theorem bit_putBit_of {x j k : Nat} (h : bit x j = true) : bit (putBit x k true) j = true := by
  by_cases hj : j = k
  · rw [hj, bit_putBit]
  · rw [bit_eq_bits] at h ⊢
    rwa [putBit, bits_setBits_disjoint _ _ _ _ _ _ (by omega)]

theorem setPd_pd {k : Nat} (hk : k < 7) : (setPd k true d).pd k = true := by
  have hlt : putBit (d.rd RAT_DOM_STATUS.PD_ON) k true < 2 ^ RAT_DOM_STATUS.PD_ON.w := putBit_lt (rd_lt d _) hk
  rw [Dev.pd, Dev.bitOf, setPd, Dev.putBitOf, rd_wr_same _ _ _ (by decide), Nat.mod_eq_of_lt hlt, bit_putBit]

theorem setPd_keeps {j k : Nat} (hk : k < 7) (h : d.pd j = true) : (setPd k true d).pd j = true := by
  have hlt : putBit (d.rd RAT_DOM_STATUS.PD_ON) k true < 2 ^ RAT_DOM_STATUS.PD_ON.w := putBit_lt (rd_lt d _) hk
  rw [Dev.pd, Dev.bitOf, setPd, Dev.putBitOf, rd_wr_same _ _ _ (by decide), Nat.mod_eq_of_lt hlt]
  exact bit_putBit_of h

/-- A domain switched on: its bit, and then what it holds starts. -/
theorem pdOn_shape (k : Nat) (h : d.pd k = false) :
    Calm (setPd k true { d with frozen := d.frozen.filter fun x => domOf x.1 != k }) (pdOn k d) := by
  unfold pdOn
  rw [if_neg (by rw [h]; exact Bool.false_ne_true)]
  dsimp only
  split
  · exact .forN (.refl _) fun _ _ hx => hx.modShow
  · exact .pd4On (.refl _)
  · exact .ite (.sapOn (.refl _)) (.refl _)
  · exact .ite (.cmpPowered (.refl _)) (.refl _)
  · exact .refl _

theorem pdOn_pd {k : Nat} (hk : k < 7) : (pdOn k d).pd k = true ∧ ∀ j, d.pd j = true → (pdOn k d).pd j = true := by
  by_cases h : d.pd k = true
  · rw [show pdOn k d = d from if_pos h]
    exact ⟨h, fun _ hj => hj⟩
  · have hcalm := pdOn_shape k (Bool.eq_false_iff.mpr h)
    exact ⟨(hcalm.pd k).trans (setPd_pd hk), fun j hj => (hcalm.pd j).trans (setPd_keeps hk hj)⟩

/-- The domains of a step come on. -/
theorem pdsOn_pd (ks : List Nat) (hks : ∀ k ∈ ks, k < 7) (d : Dev) :
    (∀ k ∈ ks, (ks.foldl (fun d k => pdOn k d) d).pd k = true) ∧
      ∀ j, d.pd j = true → (ks.foldl (fun d k => pdOn k d) d).pd j = true := by
  induction ks generalizing d with
  | nil => exact ⟨fun _ h => (List.not_mem_nil h).elim, fun _ h => h⟩
  | cons k ks ih =>
    obtain ⟨hon, hkeep⟩ := ih (fun j hj => hks j (List.mem_cons_of_mem _ hj)) (pdOn k d)
    obtain ⟨hk, hold⟩ := pdOn_pd (d := d) (hks k List.mem_cons_self)
    refine ⟨fun j hj => ?_, fun j hj => hkeep j (hold j hj)⟩
    rcases List.mem_cons.mp hj with rfl | hj
    · exact hkeep j hk
    · exact hon j hj

/-! ### A step of POWER_UP -/

/-- The domains ks come on at CLK t. -/
def stepPowers (ks : List Nat) (t : Nat) (d : Dev) : Dev :=
  ks.foldl (fun d k => pdOn k d) ((d.wr RST_BOOT_STATUS.RAIL_WAIT 0).bootMod fun b => { b with stepClk := t })

theorem stepPowers_powers (ks : List Nat) (t : Nat) (d : Dev) :
    Powers ((d.wr RST_BOOT_STATUS.RAIL_WAIT 0).bootMod fun b => { b with stepClk := t }) (stepPowers ks t d) :=
  Powers.foldl _ (.refl _) fun _ _ hx => hx.pdOn

theorem wr_bootMod_boot {f : Field} {v : Nat} (g : Boot → Boot) : ((d.wr f v).bootMod g).boot = g d.boot := rfl

theorem wr_bootMod_sram {f : Field} {v : Nat} (g : Boot → Boot) : ((d.wr f v).bootMod g).sram = d.sram := rfl

theorem stepPowers_boot (ks : List Nat) (t : Nat) (d : Dev) : (stepPowers ks t d).boot = { d.boot with stepClk := t } :=
  (stepPowers_powers ks t d).boot.trans (wr_bootMod_boot _)

theorem stepPowers_shows (ks : List Nat) (hks : ∀ k ∈ ks, k < 7) (t : Nat) (d : Dev) :
    (∀ k ∈ ks, (stepPowers ks t d).pd k = true) ∧ (stepPowers ks t d).boot = { d.boot with stepClk := t } ∧
      (stepPowers ks t d).rd RST_BOOT_STATUS.RAIL_WAIT = 0 ∧
      (stepPowers ks t d).rd RST_BOOT_STATUS.STATE = d.rd RST_BOOT_STATUS.STATE ∧ (stepPowers ks t d).sram = d.sram := by
  have hpowers := stepPowers_powers ks t d
  refine ⟨(pdsOn_pd ks hks _).1, stepPowers_boot ks t d, ?_, ?_, hpowers.stands.2.trans (wr_bootMod_sram _)⟩
  · rw [hpowers.stands.rd (by decide), bootMod_rd]
    exact (rd_wr_same _ _ 0 (by decide)).trans (by decide)
  · rw [hpowers.stands.rd (by decide), bootMod_rd]
    exact rd_wr_apart _ _ _ _ (by decide)

theorem stepDoms_lt (d : Dev) : ∀ k ∈ d.stepDoms, k < 7 := by
  unfold Dev.stepDoms
  split
  · decide
  · decide
  · split <;> decide
  · simp

/-- The first two steps. -/
theorem stepPower_early {t : Nat} (h : d.boot.step < 2) : stepPower t d =
    (stepPowers d.stepDoms t d).bootMod fun b => { b with step := d.boot.step + 1 } := by
  have hstep : (stepPowers d.stepDoms t d).boot.step = d.boot.step := by
    rw [stepPowers_boot]
  unfold stepPower
  dsimp only
  rw [show (d.stepDoms.foldl (fun d k => pdOn k d) ((d.wr RST_BOOT_STATUS.RAIL_WAIT 0).bootMod
    fun b => { b with stepClk := t })) = stepPowers d.stepDoms t d from rfl, hstep]
  split
  · omega
  next n hn => rfl

/-- What a change of lanes writes. -/
def laneFields : List Field :=
  [RAT_DOM_STATUS.LANE_ON, CLK_STATUS.LANE_LOCK, RAT_DOM_STATUS.LSH_LANE_ON, CLK_STATUS.LSH_LANE_LOCK, LSH_STATUS.LANE_UP,
    LSH_EVENT.LANE_DOWN, LSH_LANE_DOWN.COUNT]

theorem lanesSet_stands {P : Field → Prop} (hP : ∀ f ∈ laneFields, Free P f) (t : Nat) (d : Dev) : Stands P d (lanesSet t d) := by
  unfold lanesSet
  extract_lets m on a b c
  have ha : Stands P d a := ((Stands.refl P d).wr (hP _ (by decide))).wr (hP _ (by decide))
  have hb : Stands P d b := (ha.wrB (hP _ (by decide))).wrB (hP _ (by decide))
  have hc : Stands P d c := hb.forN fun _ _ _ hx => .ite hx hx.chMod
  have hq : Stands P d (c.lshMod fun l => { l with txq := [] }) := hc.parts rfl rfl
  unfold laneDown
  exact .ite hc (.ite (((hq.wrB (hP _ (by decide))).ev (hP _ (by decide))).sat (hP _ (by decide))) hq)

theorem lanesSet_pd (t k : Nat) (d : Dev) : (lanesSet t d).pd k = d.pd k := by
  rw [Dev.pd, Dev.pd, Dev.bitOf, Dev.bitOf, (lanesSet_stands (P := Beside laneFields) (fun _ => .listed) t d).rd (by decide)]

theorem hostPower_on (d : Dev) : (hostPower true d).rat.hostPwr = true ∧ ∃ r, hostPower true d = { d with rat := r } := by
  unfold hostPower
  split
  next h => exact ⟨h, d.rat, rfl⟩
  · exact ⟨rfl, _, rfl⟩

theorem findBegin_shows (d : Dev) : (findBegin d).rd RST_BOOT_STATUS.STATE = 4 ∧ (∀ k, (findBegin d).pd k = d.pd k) ∧
    (findBegin d).boot = d.boot ∧ (findBegin d).rat = d.rat ∧ (findBegin d).sram = d.sram := by
  have hwrote : Wrote d (findBegin d) [(RST_BOOT_STATUS.STATE, 4)] :=
    ((Wrote.refl d).wr (f := RST_BOOT_STATUS.STATE) (v := 4) (by decide) (by decide)).parts rfl rfl
  exact ⟨hwrote.get (by simp), fun k => hwrote.pd (by decide) k, rfl, rfl, rfl⟩

/-- The last step: the lanes of the tier, host power, and FIND. -/
theorem stepPower_last {t : Nat} (h : d.boot.step = 2) (hw : d.boot.wakeBoot = false) : ∃ tier, stepPower t d =
    findBegin (hostPower true ((lanesSet tier (stepPowers d.stepDoms t d)).bootMod fun b => { b with step := 3 })) := by
  have hstep : (stepPowers d.stepDoms t d).boot.step = 2 := by rw [stepPowers_boot]; exact h
  have hwake (n : Nat) : (lanesSet n (stepPowers d.stepDoms t d)).boot.wakeBoot = false := by
    rw [(Powers.refl (stepPowers d.stepDoms t d)).lanesSet.boot, stepPowers_boot]
    exact hw
  refine ⟨if (stepPowers d.stepDoms t d).boot.wakeBoot then 3 else (stepPowers d.stepDoms t d).tier, ?_⟩
  unfold stepPower
  dsimp only
  rw [show (d.stepDoms.foldl (fun d k => pdOn k d) ((d.wr RST_BOOT_STATUS.RAIL_WAIT 0).bootMod
    fun b => { b with stepClk := t })) = stepPowers d.stepDoms t d from rfl, hstep]
  rw [hwake, if_neg Bool.false_ne_true]
  rfl

/-- Host power and FIND. -/
theorem findPowered_shows (d : Dev) (z : Dev) (hz : z = findBegin (hostPower true (d.bootMod fun b => { b with step := 3 }))) :
    (∀ k, z.pd k = d.pd k) ∧ z.boot.step = 3 ∧ z.rat.hostPwr = true ∧ z.rd RST_BOOT_STATUS.STATE = 4 ∧ z.sram = d.sram := by
  obtain ⟨hpwr, r, hr⟩ := hostPower_on (d.bootMod fun b => { b with step := 3 })
  obtain ⟨hstate, hfpd, hfboot, hfrat, hfsram⟩ := findBegin_shows (hostPower true (d.bootMod fun b => { b with step := 3 }))
  rw [← hz] at hstate hfpd hfboot hfrat hfsram
  refine ⟨fun k => ?_, ?_, ?_, hstate, ?_⟩
  · rw [hfpd, hr]
    rfl
  · rw [hfboot, hr]
    rfl
  · rw [hfrat, hpwr]
  · rw [hfsram, hr]
    rfl

theorem stepPower_last_shows {t : Nat} (h : d.boot.step = 2) (hw : d.boot.wakeBoot = false) :
    (stepPower t d).pd 3 = true ∧ (stepPower t d).pd 4 = true ∧ (stepPower t d).pd 5 = true ∧ (stepPower t d).boot.step = 3 ∧
      (stepPower t d).rat.hostPwr = true ∧ (stepPower t d).rd RST_BOOT_STATUS.STATE = 4 ∧ (stepPower t d).sram = d.sram := by
  obtain ⟨tier, he⟩ := stepPower_last (t := t) h hw
  have hdoms : d.stepDoms = [3, 5, 4] := by simp [Dev.stepDoms, h, hw]
  obtain ⟨hpds, -, -, -, hsram⟩ := stepPowers_shows d.stepDoms (stepDoms_lt d) t d
  rw [hdoms] at hpds
  have hlanes := (Powers.refl (stepPowers d.stepDoms t d)).lanesSet (t := tier)
  have hpd (k : Nat) := lanesSet_pd tier k (stepPowers d.stepDoms t d)
  rw [hdoms] at hlanes hsram hpd he
  obtain ⟨hfpd, hstep, hpwr, hstate, hfsram⟩ := findPowered_shows _ _ he
  have hon (k : Nat) (hk : k ∈ [3, 5, 4]) : (stepPower t d).pd k = true := (hfpd k).trans ((hpd k).trans (hpds k hk))
  exact ⟨hon 3 (by decide), hon 4 (by decide), hon 5 (by decide), hstep, hpwr, hstate,
    hfsram.trans (hlanes.stands.2.trans hsram)⟩

/-! ### When a step runs -/

theorem stepTry_ready {t : Nat} (h : d.railsMissing = []) : stepTry t d = stepPower t d := by
  rw [stepTry, h]
  rfl

theorem stepTry_waits {t : Nat} (h : d.railsMissing = [1]) : stepTry t d = d.wr RST_BOOT_STATUS.RAIL_WAIT 2 := by
  rw [stepTry, h]
  rfl

theorem powerUp_early (ha : d.boot.asserted = false) (hst : d.bootSt = 3) (hstep : d.boot.step < 2)
    (hdue : d.clkDue d.stepDue = true) : powerUpStep d = stepTry d.stepDue (atClk d.stepDue d) := by
  obtain ⟨h, he⟩ := atClk_eq (d := d) d.stepDue
  have hboot : (atClk d.stepDue d).boot = d.boot := by rw [he]
  unfold powerUpStep
  rw [ha, if_neg Bool.false_ne_true, if_neg (by omega), if_neg (by simp [hst, hdue])]
  dsimp only
  rw [hboot, if_pos hstep]

theorem powerUp_last (ha : d.boot.asserted = false) (hst : d.bootSt = 3) (hstep : d.boot.step = 2)
    (hdue : d.clkDue d.stepDue = true) (hinit : d.on PMC_STATUS.INIT_DONE = true) (hkind : d.boot.kind = some .cold) :
    powerUpStep d = stepTry d.stepDue (atClk d.stepDue d) := by
  obtain ⟨h, he⟩ := atClk_eq (d := d) d.stepDue
  have hboot : (atClk d.stepDue d).boot = d.boot := by rw [he]
  have hon : (atClk d.stepDue d).on PMC_STATUS.INIT_DONE = true := by rw [he]; exact hinit
  unfold powerUpStep
  rw [ha, if_neg Bool.false_ne_true, if_neg (by omega), if_neg (by simp [hst, hdue])]
  dsimp only
  rw [hboot, hon, hstep, hkind, if_neg (by decide), if_neg (by decide), if_neg (by decide)]

theorem powerUp_waits (ha : d.boot.asserted = false) (hstep : d.boot.step < 3) (hdue : d.clkDue d.stepDue = false) :
    powerUpStep d = d := by
  unfold powerUpStep
  rw [ha, if_neg Bool.false_ne_true, if_neg (by omega), if_pos (by simp [hdue])]

/-- The first two steps' outcome, where their rails are good. -/
theorem stepTry_early_shows {t k : Nat} (hdoms : d.stepDoms = [k]) (hstep : d.boot.step < 2) (hr : d.boot.rails.getD k false = true) :
    (stepTry t d).pd k = true ∧ (stepTry t d).boot = { d.boot with stepClk := t, step := d.boot.step + 1 } ∧
      (stepTry t d).rd RST_BOOT_STATUS.RAIL_WAIT = 0 ∧ (stepTry t d).rd RST_BOOT_STATUS.STATE = d.rd RST_BOOT_STATUS.STATE ∧
      (stepTry t d).sram = d.sram := by
  have hmiss : d.railsMissing = [] := by simp only [Dev.railsMissing, hdoms, List.filter, hr, Bool.not_true]
  rw [stepTry_ready hmiss, stepPower_early hstep]
  obtain ⟨hpd, hboot, hwait, hstate, hsram⟩ := stepPowers_shows d.stepDoms (stepDoms_lt d) t d
  generalize stepPowers d.stepDoms t d = x at *
  refine ⟨hpd k (by simp [hdoms]), ?_, hwait, hstate, hsram⟩
  rw [bootMod_boot, hboot]

theorem powerUp_early_shows {k : Nat} (ha : d.boot.asserted = false) (hst : d.bootSt = 3) (hdoms : d.stepDoms = [k])
    (hstep : d.boot.step < 2) (hdue : d.clkDue d.stepDue = true) (hr : d.boot.rails.getD k false = true) :
    (powerUpStep d).pd k = true ∧ (powerUpStep d).boot = { d.boot with stepClk := d.stepDue, step := d.boot.step + 1 } ∧
      (powerUpStep d).rd RST_BOOT_STATUS.RAIL_WAIT = 0 ∧ (powerUpStep d).rd RST_BOOT_STATUS.STATE = 3 ∧
      (powerUpStep d).sram = d.sram := by
  rw [powerUp_early ha hst hstep hdue]
  obtain ⟨h, he⟩ := atClk_eq (d := d) d.stepDue
  rw [he]
  obtain ⟨hpd, hboot, hw, hstate, hsram⟩ := stepTry_early_shows (d := { d with hearth := h }) (t := d.stepDue) hdoms hstep hr
  exact ⟨hpd, hboot, hw, hstate.trans hst, hsram⟩

theorem stepDoms_one (h : d.boot.step = 1) : d.stepDoms = [2] := by simp [Dev.stepDoms, h]

theorem stepDoms_zero (h : d.boot.step = 0) : d.stepDoms = [1] := by simp [Dev.stepDoms, h]

theorem stepDue_zero (h : d.boot.step = 0) : d.stepDue = d.boot.stepClk := by simp [Dev.stepDue, h, stepGap]

theorem stepDue_one (h : d.boot.step = 1) : d.stepDue = d.boot.stepClk + frClk := by simp [Dev.stepDue, h, stepGap]

theorem stepDue_two (h : d.boot.step = 2) : d.stepDue = d.boot.stepClk + 8 * frClk := by simp [Dev.stepDue, h, stepGap]

theorem powerUp_last_shows (ha : d.boot.asserted = false) (hst : d.bootSt = 3) (hstep : d.boot.step = 2)
    (hdue : d.clkDue d.stepDue = true) (hinit : d.on PMC_STATUS.INIT_DONE = true) (hkind : d.boot.kind = some .cold)
    (hwake : d.boot.wakeBoot = false) (hmiss : d.railsMissing = []) :
    (powerUpStep d).pd 3 = true ∧ (powerUpStep d).pd 4 = true ∧ (powerUpStep d).pd 5 = true ∧ (powerUpStep d).boot.step = 3 ∧
      (powerUpStep d).rat.hostPwr = true ∧ (powerUpStep d).rd RST_BOOT_STATUS.STATE = 4 ∧ (powerUpStep d).sram = d.sram := by
  rw [powerUp_last ha hst hstep hdue hinit hkind]
  obtain ⟨h, he⟩ := atClk_eq (d := d) d.stepDue
  rw [he, stepTry_ready (d := { d with hearth := h }) hmiss]
  exact stepPower_last_shows (d := { d with hearth := h }) hstep hwake

/-- A step that finds a rail wanting shows it. -/
theorem powerUp_rail (ha : d.boot.asserted = false) (hst : d.bootSt = 3) (hstep : d.boot.step = 0)
    (hdue : d.clkDue d.stepDue = true) (hr : d.boot.rails.getD 1 false = false) :
    Wrote d (powerUpStep d) [(RST_BOOT_STATUS.RAIL_WAIT, 2)] ∧ (powerUpStep d).boot = d.boot := by
  rw [powerUp_early ha hst (by omega) hdue]
  obtain ⟨h, he⟩ := atClk_eq (d := d) d.stepDue
  have hmiss : ({ d with hearth := h } : Dev).railsMissing = [1] := by
    simp only [Dev.railsMissing, stepDoms_zero (d := { d with hearth := h }) hstep, List.filter, hr, Bool.not_false]
  rw [he, stepTry_waits hmiss]
  refine ⟨?_, wr_boot _ _ _⟩
  exact ((Wrote.refl d).parts (x := { d with hearth := h }) rfl rfl).wr (f := RST_BOOT_STATUS.RAIL_WAIT) (by decide) (by decide)

theorem railGood_idle {k : Nat} (h : d.rd RST_BOOT_STATUS.RAIL_WAIT = 0) :
    railGood k d = d.bootMod fun b => { b with rails := b.rails.set k true } := by
  unfold railGood
  dsimp only
  rw [if_neg (not_not_intro h)]

theorem railGood_step (h : d.rd RST_BOOT_STATUS.RAIL_WAIT ≠ 0) (hstep : d.boot.step = 0) (hlen : d.boot.rails.length = 7) :
    (railGood 1 d).boot.rails = d.boot.rails.set 1 true ∧ (railGood 1 d).pd 1 = true ∧ (railGood 1 d).boot.step = 1 ∧
      (railGood 1 d).boot.stepClk = d.hearth.clk ∧ (railGood 1 d).rd RST_BOOT_STATUS.RAIL_WAIT = 0 := by
  have heq : railGood 1 d = stepTry d.hearth.clk (d.bootMod fun b => { b with rails := b.rails.set 1 true }) := by
    unfold railGood
    dsimp only
    rw [if_pos h]
    rfl
  obtain ⟨hpd, hboot, hw, -, -⟩ := stepTry_early_shows (d := d.bootMod fun b => { b with rails := b.rails.set 1 true })
    (t := d.hearth.clk) (k := 1) (stepDoms_zero hstep) (by rw [bootMod_boot]; dsimp only; omega) (by simp [hlen])
  rw [heq, hboot]
  refine ⟨rfl, hpd, ?_, rfl, hw⟩
  simp [hstep]

theorem pmemInit_shows (hst : d.bootSt = 3) (hstep : d.boot.step = 2) (ha : d.boot.asserted = false)
    (hinit : d.on PMC_STATUS.INIT_DONE = false) (hdue : d.clkDue d.stepDue = true) :
    Within d (pmemInitDone d) [16, 21] ∧ (pmemInitDone d).sram = d.sram ∧ (pmemInitDone d).rd PMC_STATUS.INIT_DONE = 1 ∧
      (pmemInitDone d).boot = d.boot := by
  have heq : pmemInitDone d = scrubStart (pmemSync ((atClk d.stepDue d).wrB PMC_STATUS.INIT_DONE true)) := by
    unfold pmemInitDone
    rw [if_pos ⟨hst, hstep, by simp [ha], by simp [hinit], hdue⟩]
  obtain ⟨h, he⟩ := atClk_eq (d := d) d.stepDue
  rw [heq, he]
  have hset : Work (Outside [16, 21]) { d with hearth := h } ((({ d with hearth := h } : Dev)).wrB PMC_STATUS.INIT_DONE true) :=
    (Work.refl _ _).wrB (.inBlock (by decide))
  have hwork : Work (Outside [16, 21]) { d with hearth := h } (scrubStart (pmemSync (({ d with hearth := h } : Dev).wrB
      PMC_STATUS.INIT_DONE true))) :=
    Work.wr (Work.pmMod (Work.pmMod (hset.pmemSync (free_inBlocks (by decide))))) (.inBlock (by decide))
  have hdone : Work (Beside (PMC_SCRUB_STAT.POS :: pmemFields)) (({ d with hearth := h } : Dev).wrB PMC_STATUS.INIT_DONE true)
      (scrubStart (pmemSync (({ d with hearth := h } : Dev).wrB PMC_STATUS.INIT_DONE true))) :=
    Work.wr (Work.pmMod (Work.pmMod ((Work.refl _ _).pmemSync fun f hf => .listed (List.mem_cons_of_mem _ hf))))
      (.listed List.mem_cons_self)
  refine ⟨hwork.stands.within, hwork.stands.2, ?_, hwork.part Dev.boot fun _ _ _ _ _ => rfl⟩
  rw [hdone.stands.rd (by decide)]
  exact (rd_wr_same _ _ 1 (by decide)).trans (by decide)

end

/-- Settles O10, a step of the sequence at a time. -/
theorem powerUpOrder : Obligations.PowerUpOrder := by
  unfold Obligations.PowerUpOrder
  intro s
  refine ⟨fun ha hst hstep hdue hrail => ?_, fun ha hst hstep hdue hrail => ?_,
    fun ha hst hstep hdue hinit hkind hwake hmiss => ?_, fun ha hst hstep hdue => ?_, fun ha hst hstep hdue hrail => ?_,
    fun k hwait => ?_, fun hwait hstep hlen => ?_, fun hst hstep ha hinit hdue => ?_⟩
  · refine ends_run (f := powerUpStep) (fun _ => rfl) ?_
    have hclk := stepDue_zero (d := s.quiet) hstep
    obtain ⟨hpd, hboot, hw, hstate, hsram⟩ := powerUp_early_shows (d := s.quiet) ha hst (stepDoms_zero hstep)
      (hstep.trans_lt (by decide)) (by rw [hclk, clkDue_outs]; exact hdue) hrail
    rw [hclk] at hboot
    exact ⟨hpd, by rw [hboot]; exact congrArg (· + 1) hstep, by rw [hboot], hw, hstate, hsram⟩
  · refine ends_run (f := powerUpStep) (fun _ => rfl) ?_
    have hclk := stepDue_one (d := s.quiet) hstep
    obtain ⟨hpd, hboot, hw, -, hsram⟩ := powerUp_early_shows (d := s.quiet) ha hst (stepDoms_one hstep)
      (hstep.trans_lt (by decide)) (by rw [hclk, clkDue_outs]; exact hdue) hrail
    rw [hclk] at hboot
    exact ⟨hpd, by rw [hboot]; exact congrArg (· + 1) hstep, by rw [hboot], hw, hsram⟩
  · refine ends_run (f := powerUpStep) (fun _ => rfl) ?_
    have hclk := stepDue_two (d := s.quiet) hstep
    exact powerUp_last_shows (d := s.quiet) ha hst hstep (by rw [hclk, clkDue_outs]; exact hdue) hinit hkind hwake hmiss
  · refine does_run (f := powerUpStep) (fun _ => rfl) ?_
    rw [powerUp_waits (d := s.quiet) ha hstep (by rw [clkDue_outs]; exact hdue)]
    exact ⟨(Wrote.refl _).parts rfl rfl, rfl, rfl⟩
  · refine does_run (f := powerUpStep) (fun _ => rfl) ?_
    have hclk := stepDue_zero (d := s.quiet) hstep
    exact powerUp_rail (d := s.quiet) ha hst hstep (by rw [hclk, clkDue_outs]; exact hdue) hrail
  · refine does_run (f := railGood k) (fun _ => rfl) ?_
    rw [railGood_idle (d := s.quiet) hwait]
    exact ⟨(Wrote.refl _).parts rfl rfl, rfl⟩
  · exact ends_run (f := railGood 1) (fun _ => rfl) (railGood_step (d := s.quiet) hwait hstep hlen)
  · exact ends_run (f := pmemInitDone) (fun _ => rfl)
      (pmemInit_shows (d := s.quiet) hst hstep ha hinit (by rw [clkDue_outs]; exact hdue))

end Sys2Proof.Machine
end

section
/-!
PROOFS. The boot slots: FIND and VERIFY (R95, R96, Table 4.9).
-/

namespace Sys2Proof.Machine

section
variable {d : Dev}

/-! ### What a header says -/

theorem findCode_lt (req : Bool) (h : Bytes) : findCode req h < 8 := by
  unfold findCode
  split_ifs <;> decide

theorem u32_lt (bs : Bytes) (o : Nat) : u32 bs o < 2 ^ 32 := by
  have hlen : (slice bs o 4).length ≤ 4 := by
    rw [slice, List.length_take]
    omega
  calc u32 bs o < 256 ^ (slice bs o 4).length := leNat_lt _
    _ ≤ 256 ^ 4 := Nat.pow_le_pow_right (by decide) hlen
    _ = 2 ^ 32 := by decide

/-- The generation of a slot whose header reads h. -/
def genShown (req : Bool) (h : Bytes) : Nat := if findCode req h = 3 then 0 else u32 h 8

theorem genShown_lt (req : Bool) (h : Bytes) : genShown req h < 2 ^ 32 := by
  unfold genShown
  split
  · decide
  · exact u32_lt h 8

theorem findOrder_good {req : Bool} {a b : Bytes} (ha : findCode req a = 0) (hb : findCode req b = 0) :
    findOrder req a b = if u32 b 8 ≤ u32 a 8 then [1, 2] else [2, 1] := by
  rw [findOrder, ha, hb]
  rfl

theorem findOrder_first {req : Bool} {a b : Bytes} (ha : findCode req a = 0) (hb : findCode req b ≠ 0) : findOrder req a b = [1] := by
  rw [findOrder, ha, beq_false_of_ne hb]
  rfl

theorem findOrder_second {req : Bool} {a b : Bytes} (ha : findCode req a ≠ 0) (hb : findCode req b = 0) : findOrder req a b = [2] := by
  rw [findOrder, hb, beq_false_of_ne ha]
  rfl

theorem findOrder_bad {req : Bool} {a b : Bytes} (ha : findCode req a ≠ 0) (hb : findCode req b ≠ 0) : findOrder req a b = [] := by
  rw [findOrder, beq_false_of_ne ha, beq_false_of_ne hb]

theorem findOrder_contains (req : Bool) (a b : Bytes) (sl : Nat) :
    (findOrder req a b).contains sl = true ↔ sl = 1 ∧ findCode req a = 0 ∨ sl = 2 ∧ findCode req b = 0 := by
  by_cases ha : findCode req a = 0 <;> by_cases hb : findCode req b = 0
  · rw [findOrder_good ha hb]
    split <;> simp [ha, hb, or_comm]
  · simp [findOrder_first ha hb, ha, hb]
  · simp [findOrder_second ha hb, ha, hb]
  · simp [findOrder_bad ha hb, ha, hb]

/-! ### FIND (R95, R96) -/

/-- What FIND writes of headers a and b. -/
def findWrites (req : Bool) (a b : Bytes) : List (Field × Nat) :=
  [(RST_SLOT_A.RESULT, findCode req a), (RST_SLOT_A_GEN.GEN, genShown req a), (RST_SLOT_B.RESULT, findCode req b),
    (RST_SLOT_B_GEN.GEN, genShown req b), (RST_BOOT_STATUS.STATE, if (findOrder req a b).isEmpty then 8 else 5)]

theorem findSlotA_wrote (h : Bytes) : Wrote d (findSlot 1 h d) [(RST_SLOT_A.RESULT, findCode (d.on RST_OTP.REQUIRE_TAG) h),
    (RST_SLOT_A_GEN.GEN, genShown (d.on RST_OTP.REQUIRE_TAG) h)] :=
  ((Wrote.refl d).wr (f := RST_SLOT_A.RESULT) (by decide) ((findCode_lt _ _).trans_le (by decide))).wr (f := RST_SLOT_A_GEN.GEN)
    (v := genShown _ h) (show fits RST_SLOT_A_GEN.GEN [(RST_SLOT_A.RESULT, 0)] = true by decide) (genShown_lt _ _)

theorem findSlotB_wrote (h : Bytes) : Wrote d (findSlot 2 h d) [(RST_SLOT_B.RESULT, findCode (d.on RST_OTP.REQUIRE_TAG) h),
    (RST_SLOT_B_GEN.GEN, genShown (d.on RST_OTP.REQUIRE_TAG) h)] :=
  ((Wrote.refl d).wr (f := RST_SLOT_B.RESULT) (by decide) ((findCode_lt _ _).trans_le (by decide))).wr (f := RST_SLOT_B_GEN.GEN)
    (v := genShown _ h) (show fits RST_SLOT_B_GEN.GEN [(RST_SLOT_B.RESULT, 0)] = true by decide) (genShown_lt _ _)

theorem findSlots_wrote (a b : Bytes) : Wrote d (findSlot 2 b (findSlot 1 a d))
    [(RST_SLOT_A.RESULT, findCode (d.on RST_OTP.REQUIRE_TAG) a), (RST_SLOT_A_GEN.GEN, genShown (d.on RST_OTP.REQUIRE_TAG) a),
      (RST_SLOT_B.RESULT, findCode (d.on RST_OTP.REQUIRE_TAG) b), (RST_SLOT_B_GEN.GEN, genShown (d.on RST_OTP.REQUIRE_TAG) b)] := by
  have ha := findSlotA_wrote (d := d) a
  have hreq : (findSlot 1 a d).on RST_OTP.REQUIRE_TAG = d.on RST_OTP.REQUIRE_TAG :=
    ha.on (show fits RST_OTP.REQUIRE_TAG [(RST_SLOT_A.RESULT, 0), (RST_SLOT_A_GEN.GEN, 0)] = true by decide)
  have hb := findSlotB_wrote (d := findSlot 1 a d) b
  rw [hreq] at hb
  refine ha.append hb ?_
  simp only [List.forall_mem_cons, List.not_mem_nil, false_implies, implies_true, and_true]
  decide

/-- FIND before it reads a slot whole. -/
def findShows (a b cal : Bytes) (d : Dev) : Dev :=
  let cands := findOrder (d.on RST_OTP.REQUIRE_TAG) a b
  let e := (findSlot 2 b (findSlot 1 a d)).bootMod fun x => { x with hdrA := a, hdrB := b, calPage := cal, cands := cands, image := [] }
  e.wr RST_BOOT_STATUS.STATE (if cands.isEmpty then 8 else 5)

theorem Wrote.bootMod {x : Dev} {ws : List (Field × Nat)} {f : Boot → Boot} (h : Wrote d x ws) : Wrote d (x.bootMod f) ws :=
  h.parts rfl rfl

theorem findShows_wrote (a b cal : Bytes) : Wrote d (findShows a b cal d) (findWrites (d.on RST_OTP.REQUIRE_TAG) a b) :=
  (findSlots_wrote a b).bootMod.wr (f := RST_BOOT_STATUS.STATE) (show fits RST_BOOT_STATUS.STATE [(RST_SLOT_A.RESULT, 0),
    (RST_SLOT_A_GEN.GEN, 0), (RST_SLOT_B.RESULT, 0), (RST_SLOT_B_GEN.GEN, 0)] = true by decide) (by split <;> decide)

theorem findSlots_beyond (a b : Bytes) : Beyond d (findSlot 2 b (findSlot 1 a d)) := (Beyond.refl d).wr.wr.wr.wr

theorem findShows_parts (a b cal : Bytes) (d : Dev) : (findShows a b cal d).outs = d.outs ∧ (findShows a b cal d).boot =
    { d.boot with hdrA := a, hdrB := b, calPage := cal, cands := findOrder (d.on RST_OTP.REQUIRE_TAG) a b, image := [] } := by
  unfold findShows
  refine ⟨?_, ?_⟩
  · rw [wr_outs, bootMod_outs]
    unfold findSlot
    rw [wr_outs, wr_outs, wr_outs, wr_outs]
  · rw [wr_boot, bootMod_boot, (findSlots_beyond a b).part Dev.boot fun _ _ _ => rfl]

/-- What VERIFY's read of the first candidate puts out. -/
def slotRead (cands : List Nat) (a b : Bytes) : List Out :=
  match cands with
  | s :: _ => [.flashRead 0x6C (slotOff s) (imgLen (if s = 1 then a else b))]
  | [] => []

theorem verifyRead_eq (d : Dev) : verifyRead d = { d with outs := d.outs ++ slotRead d.boot.cands d.boot.hdrA d.boot.hdrB } := by
  unfold verifyRead slotRead
  cases d.boot.cands with
  | nil => simp
  | cons s l => rfl

theorem verifyRead_boot (d : Dev) : (verifyRead d).boot = d.boot := by rw [verifyRead_eq]

theorem verifyRead_rd (d : Dev) (g : Field) : (verifyRead d).rd g = d.rd g := by
  rw [verifyRead_eq]
  rfl

theorem Stands.verifyRead {P : Field → Prop} {e : Dev} (h : Stands P d e) : Stands P d (verifyRead e) := by
  rw [verifyRead_eq]
  exact h.parts rfl rfl

theorem Stands.bootMod {P : Field → Prop} {e : Dev} {f : Boot → Boot} (h : Stands P d e) : Stands P d (e.bootMod f) :=
  h.parts rfl rfl

theorem findDone_eq {a b cal : Bytes} (h : d.bootSt = 4) :
    findDone a b cal d = verifyRead (findShows (flashTaken 64 a) (flashTaken 64 b) (flashTaken 4096 cal) d) := if_pos h

theorem findDone_shows {a b cal : Bytes} {req : Bool} (h : d.bootSt = 4) (hreq : d.on RST_OTP.REQUIRE_TAG = req) :
    Wrote d (findDone a b cal d) (findWrites req (flashTaken 64 a) (flashTaken 64 b)) ∧
      (findDone a b cal d).boot.cands = findOrder req (flashTaken 64 a) (flashTaken 64 b) ∧
      (findDone a b cal d).boot.calPage = flashTaken 4096 cal ∧
      (findDone a b cal d).outs = d.outs ++ slotRead (findOrder req (flashTaken 64 a) (flashTaken 64 b))
        (flashTaken 64 a) (flashTaken 64 b) := by
  rw [findDone_eq h, verifyRead_eq]
  have hwrote := findShows_wrote (d := d) (flashTaken 64 a) (flashTaken 64 b) (flashTaken 4096 cal)
  obtain ⟨houts, hboot⟩ := findShows_parts (flashTaken 64 a) (flashTaken 64 b) (flashTaken 4096 cal) d
  rw [hreq] at hwrote hboot
  generalize findShows (flashTaken 64 a) (flashTaken 64 b) (flashTaken 4096 cal) d = x at *
  refine ⟨hwrote.parts rfl rfl, ?_, ?_, ?_⟩ <;> dsimp only <;> rw [hboot]
  rw [houts]

/-- Flash that does not answer is blank (R86). -/
theorem findCode_blank (req : Bool) : findCode req (flashTaken 64 []) = 3 := by
  have hmagic : u32 (flashTaken 64 []) 0 ≠ 0x4934584F := by decide
  exact if_pos (.inr hmagic)

/-! ### VERIFY and the start of APPLY (R97, R99) -/

theorem calSource_wrote (b : Bool) (d : Dev) : Wrote d (calSource b d)
    [(RST_BOOT_STATUS.CAL_SRC, if calOk d.boot.calPage then 0 else if b then 1 else 2),
      (RST_EVENT.CAL_DEFAULT, if calOk d.boot.calPage then d.rd RST_EVENT.CAL_DEFAULT else 1)] := by
  unfold calSource
  split
  next h =>
    have hidle := (Wrote.refl d).idle (f := RST_EVENT.CAL_DEFAULT) (by decide)
    have hsrc := hidle.wr (f := RST_BOOT_STATUS.CAL_SRC) (v := 0)
      (show fits RST_BOOT_STATUS.CAL_SRC [(RST_EVENT.CAL_DEFAULT, 0)] = true by decide) (by decide)
    exact hsrc.reorder (by simp) (by simp)
  next h =>
    have hev := (Wrote.refl d).ev (f := RST_EVENT.CAL_DEFAULT) (by decide) (by decide)
    have hsrc := hev.wr (f := RST_BOOT_STATUS.CAL_SRC) (v := if b then 1 else 2)
      (show fits RST_BOOT_STATUS.CAL_SRC [(RST_EVENT.CAL_DEFAULT, 0)] = true by decide) (by split <;> decide)
    exact hsrc.reorder (by simp) (by simp)

theorem calSource_beyond (b : Bool) (d : Dev) : Beyond d (calSource b d) := .ite (Beyond.refl d).wr (Beyond.refl d).ev.wr

/-- The image holds calibration records of its own. -/
def slotCal (d : Dev) : Bool := (records d.boot.image).any fun r => r.ty == 0x20

theorem applyBegin_eq (d : Dev) : applyBegin d = ((calSource (slotCal d) d).bootMod fun b =>
    { b with applyClk := (calSource (slotCal d) d).hearth.clk, applied := 0 }).wr RST_BOOT_STATUS.STATE 6 := rfl

theorem applyBegin_wrote (d : Dev) : Wrote d (applyBegin d)
    [(RST_BOOT_STATUS.CAL_SRC, if calOk d.boot.calPage then 0 else if slotCal d then 1 else 2),
      (RST_EVENT.CAL_DEFAULT, if calOk d.boot.calPage then d.rd RST_EVENT.CAL_DEFAULT else 1), (RST_BOOT_STATUS.STATE, 6)] := by
  rw [applyBegin_eq]
  exact (calSource_wrote _ d).bootMod.wr (show fits RST_BOOT_STATUS.STATE [(RST_BOOT_STATUS.CAL_SRC, 0),
    (RST_EVENT.CAL_DEFAULT, 0)] = true by decide) (by decide)

theorem applyBegin_boot (d : Dev) : (applyBegin d).boot = { d.boot with applyClk := d.hearth.clk, applied := 0 } := by
  have hcal := calSource_beyond (slotCal d) d
  rw [applyBegin_eq, wr_boot, bootMod_boot, hcal.part Dev.boot fun _ _ _ => rfl,
    hcal.part (fun x => x.hearth.clk) fun _ _ _ => rfl]

/-- Slots that VERIFY did not come to are valid, unused. -/
def slotsUnused (rest : List Nat) (d : Dev) : Dev := rest.foldl (fun d r => d.wr (slotResult r) 2) d

theorem slotResult_block (r : Nat) : (slotResult r).off / 0x4000 ∈ [4] := by
  unfold slotResult
  split <;> decide

theorem slotFail_block (r : Nat) : (slotFail r).off / 0x4000 ∈ [4] := by
  unfold slotFail
  split <;> decide

theorem slotsUnused_stands (rest : List Nat) : Stands (Outside [4]) d (slotsUnused rest d) :=
  Stands.foldl _ (.refl _ d) fun r _ _ hx => hx.wr (.inBlock (slotResult_block r))

theorem slotsUnused_beyond (rest : List Nat) : Beyond d (slotsUnused rest d) :=
  Beyond.foldl _ (.refl d) fun _ _ _ hx => hx.wr

/-- The header of slot s that FIND read. -/
def Dev.slotHdr (d : Dev) (s : Nat) : Bytes := if s = 1 then d.boot.hdrA else d.boot.hdrB

/-- What VERIFY took of the first candidate. -/
def verifyTaken (s : Nat) (bs : Bytes) (d : Dev) : Bytes := flashTaken (imgLen (d.slotHdr s)) bs

/-- VERIFY found the image of slot s good. -/
def verifyPasses (s : Nat) (rest : List Nat) (bs : Bytes) (d : Dev) : Dev :=
  applyBegin ((slotsUnused rest d).bootMod fun b => { b with cands := [s], image := verifyTaken s bs d })

/-- VERIFY dropped slot s for code c at record bad. -/
def verifyDrops (s c bad : Nat) (rest : List Nat) (d : Dev) : Dev :=
  verifyRead ((((d.wr (slotResult s) c).wr (slotFail s) bad).bootMod fun b => { b with cands := rest }).wr RST_BOOT_STATUS.STATE
    (if rest.isEmpty then 8 else 5))

section
variable {s : Nat} {rest : List Nat} {bs : Bytes}

theorem verifyDone_eq (h : d.bootSt = 5) (hc : d.boot.cands = s :: rest) (hhdr : (verifyTaken s bs d).take 64 = d.slotHdr s) :
    verifyDone bs d =
      if (verifyCode (d.on RST_OTP.KEY_PROG) d.boot.otpKey (verifyTaken s bs d)).1 = 1 then verifyPasses s rest bs d
      else verifyDrops s (verifyCode (d.on RST_OTP.KEY_PROG) d.boot.otpKey (verifyTaken s bs d)).1
        (verifyCode (d.on RST_OTP.KEY_PROG) d.boot.otpKey (verifyTaken s bs d)).2 rest d := by
  unfold verifyTaken Dev.slotHdr at hhdr
  unfold verifyDone verifyPasses verifyDrops slotsUnused verifyTaken Dev.slotHdr
  rw [hc]
  dsimp only
  rw [if_pos ⟨h, hhdr⟩]

theorem verifyPasses_boot : (verifyPasses s rest bs d).boot =
    { d.boot with cands := [s], image := verifyTaken s bs d, applyClk := d.hearth.clk, applied := 0 } := by
  have hslots := slotsUnused_beyond (d := d) rest
  rw [verifyPasses, applyBegin_boot, bootMod_boot, hslots.part Dev.boot fun _ _ _ => rfl, bootMod_hearth,
    hslots.part Dev.hearth fun _ _ _ => rfl]

theorem verifyPasses_stands : Stands (Outside [4]) d (verifyPasses s rest bs d) := by
  have hbegin := applyBegin_wrote ((slotsUnused rest d).bootMod fun b => { b with cands := [s], image := verifyTaken s bs d })
  have hstands : Stands (Beside [RST_BOOT_STATUS.CAL_SRC, RST_EVENT.CAL_DEFAULT, RST_BOOT_STATUS.STATE]) _ _ := hbegin.beside
  exact (slotsUnused_stands rest).bootMod.trans (hstands.inBlocks (by decide))

theorem verifyPasses_state : (verifyPasses s rest bs d).rd RST_BOOT_STATUS.STATE = 6 := (applyBegin_wrote _).get (by simp)

theorem verifyDrops_stands {c bad : Nat} : Stands (Outside [4]) d (verifyDrops s c bad rest d) :=
  Stands.verifyRead (Stands.wr (Stands.bootMod (((Stands.refl _ d).wr (.inBlock (slotResult_block s))).wr
    (.inBlock (slotFail_block s)))) (.inBlock (by decide)))

theorem verifyDrops_state {c bad : Nat} : (verifyDrops s c bad rest d).rd RST_BOOT_STATUS.STATE = if rest = [] then 8 else 5 := by
  rw [verifyDrops, verifyRead_rd, rd_wr_same _ _ _ (by decide)]
  cases rest <;> rfl

theorem verifyDrops_cands {c bad : Nat} : (verifyDrops s c bad rest d).boot.cands = rest := by
  rw [verifyDrops, verifyRead_boot, wr_boot, bootMod_boot]

/-- What VERIFY of slot A writes where it passes, B the only other candidate. -/
theorem verifyPasses_first : Wrote d (verifyPasses 1 [2] bs d)
    [(RST_SLOT_B.RESULT, 2), (RST_BOOT_STATUS.STATE, 6),
      (RST_BOOT_STATUS.CAL_SRC, if calOk d.boot.calPage then 0 else
        if (records (verifyTaken 1 bs d)).any (fun r => r.ty == 0x20) then 1 else 2),
      (RST_EVENT.CAL_DEFAULT, if calOk d.boot.calPage then d.rd RST_EVENT.CAL_DEFAULT else 1)] := by
  have hslot : Wrote d ((slotsUnused [2] d).bootMod fun b => { b with cands := [1], image := verifyTaken 1 bs d })
      [(RST_SLOT_B.RESULT, 2)] := ((Wrote.refl d).wr (f := RST_SLOT_B.RESULT) (v := 2) (by decide) (by decide)).bootMod
  have hbegin := applyBegin_wrote ((slotsUnused [2] d).bootMod fun b => { b with cands := [1], image := verifyTaken 1 bs d })
  have hev := hslot.rd (f := RST_EVENT.CAL_DEFAULT) (show fits RST_EVENT.CAL_DEFAULT [(RST_SLOT_B.RESULT, 0)] = true by decide)
  have hboot := (slotsUnused_beyond (d := d) [2]).part Dev.boot fun _ _ _ => rfl
  rw [hev] at hbegin
  unfold slotCal at hbegin
  rw [bootMod_boot, hboot] at hbegin
  refine (hslot.append hbegin ?_).reorder (by simp) (by simp)
  simp only [List.forall_mem_cons, List.not_mem_nil, false_implies, implies_true, and_true]
  decide

/-- Slot A is dropped for code c, with no record named. -/
def firstDropped (c : Nat) (d : Dev) : Dev :=
  (((d.wr RST_SLOT_A.RESULT c).wr RST_SLOT_A.FAIL_REC 65535).bootMod fun b => { b with cands := [2] }).wr RST_BOOT_STATUS.STATE 5

theorem firstDropped_wrote {c : Nat} (hc : c < 16) : Wrote d (firstDropped c d)
    [(RST_SLOT_A.RESULT, c), (RST_SLOT_A.FAIL_REC, 65535), (RST_BOOT_STATUS.STATE, 5)] :=
  (((Wrote.refl d).wr (f := RST_SLOT_A.RESULT) (by decide) hc).wr (f := RST_SLOT_A.FAIL_REC) (v := 65535)
    (show fits RST_SLOT_A.FAIL_REC [(RST_SLOT_A.RESULT, 0)] = true by decide) (by decide)).bootMod.wr (f := RST_BOOT_STATUS.STATE) (v := 5)
    (show fits RST_BOOT_STATUS.STATE [(RST_SLOT_A.RESULT, 0), (RST_SLOT_A.FAIL_REC, 0)] = true by decide) (by decide)

theorem firstDropped_parts (c : Nat) (d : Dev) :
    (firstDropped c d).outs = d.outs ∧ (firstDropped c d).boot = { d.boot with cands := [2] } := by
  unfold firstDropped
  rw [wr_outs, bootMod_outs, wr_outs, wr_outs, wr_boot, bootMod_boot, wr_boot, wr_boot]
  exact ⟨rfl, rfl⟩

/-- What VERIFY of slot A writes where it drops it with no record named, B the only other candidate. -/
theorem verifyDrops_first {c : Nat} (hc : c < 16) : Wrote d (verifyDrops 1 c 65535 [2] d)
      [(RST_SLOT_A.RESULT, c), (RST_SLOT_A.FAIL_REC, 65535), (RST_BOOT_STATUS.STATE, 5)] ∧
    (verifyDrops 1 c 65535 [2] d).outs = d.outs ++ [.flashRead 0x6C 0x500000 (imgLen d.boot.hdrB)] := by
  have heq : verifyDrops 1 c 65535 [2] d = verifyRead (firstDropped c d) := rfl
  have hwrote := firstDropped_wrote (d := d) hc
  obtain ⟨houts, hboot⟩ := firstDropped_parts c d
  rw [heq, verifyRead_eq]
  generalize firstDropped c d = x at *
  refine ⟨hwrote.parts rfl rfl, ?_⟩
  dsimp only
  rw [houts, hboot]
  rfl

theorem verifyCode_check {key : Bool} {otp : List (BitVec 8)} (h : checkOk bs = false) : verifyCode key otp bs = (8, 0xFFFF) :=
  if_pos (.inr (by rw [h]; rfl))

end

end

end Sys2Proof.Machine
end

section
/-!
PROOFS. The boot's end: APPLY, ADMIT and DEFAULTS (R97 to R99, R101, R222).
-/

namespace Sys2Proof.Machine

section
variable {d : Dev}

/-! ### APPLY is done -/

/-- What the end of APPLY shows of the slot s applied, its generation g, and its tag t against the key. -/
def applyShows (s g : Nat) (t : Bool) (d : Dev) : Dev :=
  let d := ((d.wr (slotResult s) 1).wr RST_BOOT_STATUS.SLOT s).wr RST_BOOT_GEN.GEN g
  let key := d.on RST_OTP.KEY_PROG
  let d := (d.wrB RST_BOOT_STATUS.TAG_CHECKED (t && key)).wrB RST_BOOT_STATUS.TAG_UNCHECKED (t && !key)
  d.wr RST_BOOT_STATUS.STATE 7

theorem applyDone_eq (h : d.bootSt = 6) : applyDone d =
    applyShows (d.boot.cands.headD 1) (u32 d.boot.image 8) (imgTagged d.boot.image) (applyTo d.applyActs.length d) := if_pos h

theorem applyShows_wrote {s g : Nat} {t : Bool} (hs : s = 1 ∨ s = 2) : ∃ a b, Wrote d (applyShows s g t d)
    [(slotResult s, 1), (RST_BOOT_STATUS.SLOT, s), (RST_BOOT_GEN.GEN, g % 2 ^ 32), (RST_BOOT_STATUS.TAG_CHECKED, a),
      (RST_BOOT_STATUS.TAG_UNCHECKED, b), (RST_BOOT_STATUS.STATE, 7)] := by
  have hslot : fits (slotResult s) [] = true ∧ 1 < 2 ^ (slotResult s).w ∧ fits RST_BOOT_STATUS.SLOT [(slotResult s, 0)] = true ∧
      s < 2 ^ RST_BOOT_STATUS.SLOT.w ∧ fits RST_BOOT_GEN.GEN [(slotResult s, 0), (RST_BOOT_STATUS.SLOT, 0)] = true ∧
      fits RST_BOOT_STATUS.TAG_CHECKED [(slotResult s, 0), (RST_BOOT_STATUS.SLOT, 0), (RST_BOOT_GEN.GEN, 0)] = true ∧
      fits RST_BOOT_STATUS.TAG_UNCHECKED [(slotResult s, 0), (RST_BOOT_STATUS.SLOT, 0), (RST_BOOT_GEN.GEN, 0),
        (RST_BOOT_STATUS.TAG_CHECKED, 0)] = true ∧
      fits RST_BOOT_STATUS.STATE [(slotResult s, 0), (RST_BOOT_STATUS.SLOT, 0), (RST_BOOT_GEN.GEN, 0),
        (RST_BOOT_STATUS.TAG_CHECKED, 0), (RST_BOOT_STATUS.TAG_UNCHECKED, 0)] = true := by
    rcases hs with rfl | rfl <;> decide
  obtain ⟨hres, hone, hsl, hlt, hgen, hchk, hun, hst⟩ := hslot
  exact ⟨_, _, ((((((Wrote.refl d).wr hres hone).wr hsl hlt).wrMod hgen).wrB hchk (by decide)).wrB hun (by decide)).wr hst
    (by decide)⟩

theorem applyDone_shows {s : Nat} (h : d.bootSt = 6) (hc : d.boot.cands = [s]) (hs : s = 1 ∨ s = 2) :
    Only (applyTo d.applyActs.length d) (applyDone d) [slotResult s, RST_BOOT_STATUS.SLOT, RST_BOOT_GEN.GEN,
        RST_BOOT_STATUS.TAG_CHECKED, RST_BOOT_STATUS.TAG_UNCHECKED, RST_BOOT_STATUS.STATE] ∧
      (applyDone d).rd RST_BOOT_STATUS.STATE = 7 ∧ (applyDone d).rd (slotResult s) = 1 ∧
      (applyDone d).rd RST_BOOT_STATUS.SLOT = s ∧ (applyDone d).rd RST_BOOT_GEN.GEN = u32 d.boot.image 8 % 2 ^ 32 := by
  rw [applyDone_eq h, hc, List.headD_cons]
  obtain ⟨a, b, hw⟩ := applyShows_wrote (d := applyTo d.applyActs.length d) (g := u32 d.boot.image 8)
    (t := imgTagged d.boot.image) hs
  exact ⟨hw.beside.only, hw.get (by simp), hw.get (by simp), hw.get (by simp), hw.get (by simp)⟩

/-! ### ADMIT is done -/

/-- What a report of an admission writes. -/
def reportFields : List Field :=
  [PMC_LAST_SUM.SLOTS, PMC_TERM_CHn.SLOTS 0, PMC_TERM_CHn.SLOTS 1, PMC_TERM_CHn.SLOTS 2, PMC_TERM_CHn.SLOTS 3,
    PMC_TERM_PEG.SLOTS, PMC_STATUS.LAST_RESULT, PMC_STATUS.LAST_SRC, PMC_STATUS.LAST_CH, PMC_SHORTFALL.SLOTS,
    PMC_EVENT.OVERBOOK]

theorem term_listed (n : Fin 4) : PMC_TERM_CHn.SLOTS n ∈ reportFields := by
  revert n
  decide

/-- The sums of an admission, before its result. -/
def admitSums (a : Admission) (d : Dev) : Dev :=
  (forN 4 (fun n d => d.wr (PMC_TERM_CHn.SLOTS n) (a.terms.getD n 0)) (d.wr PMC_LAST_SUM.SLOTS a.total)).wr PMC_TERM_PEG.SLOTS a.peg

theorem admitSums_stands (a : Admission) (d : Dev) : Stands (Beside reportFields) d (admitSums a d) :=
  (((Stands.refl _ d).wr (.listed (by decide))).forN fun n hn _ hx => hx.wr (.listed (term_listed ⟨n, hn⟩))).wr
    (.listed (by decide))

/-- The result of an admission, shown. -/
def admitShows (a : Admission) (src ch : Nat) (d : Dev) : Dev :=
  let d := ((d.wr PMC_STATUS.LAST_RESULT (if a.passed then 1 else 2)).wr PMC_STATUS.LAST_SRC src).wr PMC_STATUS.LAST_CH ch
  if a.passed then d.wr PMC_SHORTFALL.SLOTS 0
  else (d.wr PMC_SHORTFALL.SLOTS (a.total - a.limit)).ev PMC_EVENT.OVERBOOK

theorem admitReport_eq (a : Admission) (src ch : Nat) (d : Dev) :
    admitReport a src ch d = admitShows a src ch (admitSums a d) := rfl

theorem admitShows_stands (a : Admission) (src ch : Nat) (d : Dev) : Stands (Beside reportFields) d (admitShows a src ch d) := by
  have hres : Stands (Beside reportFields) d
      (((d.wr PMC_STATUS.LAST_RESULT (if a.passed then 1 else 2)).wr PMC_STATUS.LAST_SRC src).wr PMC_STATUS.LAST_CH ch) :=
    (((Stands.refl _ d).wr (.listed (by decide))).wr (.listed (by decide))).wr (.listed (by decide))
  exact .ite (hres.wr (.listed (by decide))) ((hres.wr (.listed (by decide))).ev (.listed (by decide)))

theorem resultShown_wrote {r src ch : Nat} (hr : r < 2 ^ PMC_STATUS.LAST_RESULT.w) :
    Wrote d (((d.wr PMC_STATUS.LAST_RESULT r).wr PMC_STATUS.LAST_SRC src).wr PMC_STATUS.LAST_CH ch)
      [(PMC_STATUS.LAST_RESULT, r), (PMC_STATUS.LAST_SRC, src % 2 ^ PMC_STATUS.LAST_SRC.w),
        (PMC_STATUS.LAST_CH, ch % 2 ^ PMC_STATUS.LAST_CH.w)] :=
  (((Wrote.refl d).wr (by decide) hr).wrMod (f := PMC_STATUS.LAST_SRC)
    (show fits PMC_STATUS.LAST_SRC [(PMC_STATUS.LAST_RESULT, 0)] = true by decide)).wrMod (f := PMC_STATUS.LAST_CH)
    (show fits PMC_STATUS.LAST_CH [(PMC_STATUS.LAST_RESULT, 0), (PMC_STATUS.LAST_SRC, 0)] = true by decide)

theorem admitShows_reads (a : Admission) (src ch : Nat) (d : Dev) :
    (admitShows a src ch d).rd PMC_STATUS.LAST_RESULT = (if a.passed then 1 else 2) ∧
      (admitShows a src ch d).rd PMC_STATUS.LAST_SRC = src % 2 ^ PMC_STATUS.LAST_SRC.w := by
  have hres := resultShown_wrote (d := d) (src := src) (ch := ch) (r := if a.passed then 1 else 2) (by split <;> decide)
  have hrest : Stands (Beside [PMC_SHORTFALL.SLOTS, PMC_EVENT.OVERBOOK]) (((d.wr PMC_STATUS.LAST_RESULT
      (if a.passed then 1 else 2)).wr PMC_STATUS.LAST_SRC src).wr PMC_STATUS.LAST_CH ch) (admitShows a src ch d) :=
    .ite ((Stands.refl _ _).wr (.listed (by decide))) (((Stands.refl _ _).wr (.listed (by decide))).ev (.listed (by decide)))
  exact ⟨(hrest.rd (by decide)).trans (hres.get (by simp)), (hrest.rd (by decide)).trans (hres.get (by simp))⟩

theorem admitReport_stands (a : Admission) (src ch : Nat) (d : Dev) : Stands (Beside reportFields) d (admitReport a src ch d) :=
  (admitSums_stands a d).trans (admitShows_stands a src ch _)

theorem admitTake_stands (a : Admission) (chans : List (Nat × Nat)) (d : Dev) :
    Stands (Beside [PMC_ADMITTED.SLOTS, PMC_GUAR_LATCH.GUAR]) d (admitTake a chans d) :=
  Stands.pmMod (Stands.foldl _ ((Stands.refl _ d).wr (.listed (by decide))) fun _ _ _ hx => hx.wr (.listed (by decide)))

/-- ADMIT's outcome with the sum a. -/
def admitEnds (a : Admission) (guar : List (Nat × Nat)) (d : Dev) : Dev :=
  let d := admitReport a 0 0 d
  let d := if a.passed then admitTake a guar d
    else ((d.wrB RST_BOOT_STATUS.OVERBOOK true).ev RST_EVENT.OVERBOOK).pmMod fun p => { p with dmaCred := 16384, bgCred := 16384 }
  d.bootMod fun b => { b with ready := true, due := false }

/-- The sum over the loaded configuration. -/
def Dev.bootSum (d : Dev) : Admission :=
  admission ((List.range 4).map fun n =>
    if d.on (CHn_GATE_CTRL.EN n) then some (d.rd (CHn_GATE_CTRL.BOOT_BANK n), d.guarBits n) else none)
    (d.slotCosts (some (d.rd PEG_SCHED_CTRL.BOOT_BANK))) d

theorem admitDone_eq (h : d.bootSt = 7) (hr : d.boot.ready = false) :
    ∃ guar, admitDone d = admitEnds d.bootSum guar d := by
  refine ⟨(admitReport d.bootSum 0 0 d).bootGuar, ?_⟩
  unfold admitDone
  rw [if_pos ⟨h, by rw [hr]; rfl⟩]
  rfl

theorem admitEnds_shows (a : Admission) (guar : List (Nat × Nat)) (d : Dev) :
    Stands (Outside [4, 16]) d (admitEnds a guar d) ∧ (admitEnds a guar d).boot.ready = true ∧
      (admitEnds a guar d).rd PMC_STATUS.LAST_SRC = 0 ∧
      (((admitEnds a guar d).rd RST_BOOT_STATUS.OVERBOOK = 1 ∧ (admitEnds a guar d).rd RST_EVENT.OVERBOOK = 1 ∧
          (admitEnds a guar d).rd PMC_STATUS.LAST_RESULT = 2) ∨
        ((admitEnds a guar d).rd PMC_STATUS.LAST_RESULT = 1 ∧
          (admitEnds a guar d).rd RST_BOOT_STATUS.OVERBOOK = d.rd RST_BOOT_STATUS.OVERBOOK)) := by
  have hreport := admitReport_stands a 0 0 d
  obtain ⟨hresult, hsrc⟩ := admitShows_reads a 0 0 (admitSums a d)
  rw [← admitReport_eq] at hresult hsrc
  unfold admitEnds
  generalize admitReport a 0 0 d = x at *
  have hin : Stands (Outside [4, 16]) d x := hreport.inBlocks (by decide)
  cases hp : a.passed with
  | true =>
    rw [hp] at hresult
    simp only [if_true]
    have htake := admitTake_stands a guar x
    refine ⟨(hin.trans (htake.inBlocks (by decide))).bootMod, rfl, ?_, .inr ⟨?_, ?_⟩⟩ <;> rw [bootMod_rd, htake.rd (by decide)]
    · exact hsrc
    · exact hresult
    · exact hreport.rd (by decide)
  | false =>
    rw [hp] at hresult
    simp only [Bool.false_eq_true, if_false]
    have hover : Wrote x (((x.wrB RST_BOOT_STATUS.OVERBOOK true).ev RST_EVENT.OVERBOOK).pmMod fun p =>
        { p with dmaCred := 16384, bgCred := 16384 }) [(RST_BOOT_STATUS.OVERBOOK, 1), (RST_EVENT.OVERBOOK, 1)] :=
      (((Wrote.refl x).wrB (b := true) (by decide) (by decide)).ev (f := RST_EVENT.OVERBOOK)
        (show fits RST_EVENT.OVERBOOK [(RST_BOOT_STATUS.OVERBOOK, 0)] = true by decide) (by decide)).parts rfl rfl
    have hstands : Stands (Beside [RST_BOOT_STATUS.OVERBOOK, RST_EVENT.OVERBOOK]) x _ := hover.beside
    refine ⟨(hin.trans (hstands.inBlocks (by decide))).bootMod, rfl, ?_, .inl ⟨?_, ?_, ?_⟩⟩ <;> rw [bootMod_rd]
    · rw [hstands.rd (by decide), hsrc]
      rfl
    · exact hover.get (by simp)
    · exact hover.get (by simp)
    · rw [hstands.rd (by decide), hresult]
      rfl

/-! ### DEFAULTS is done -/

/-- What the end of DEFAULTS shows. -/
def defaultsShow (d : Dev) : Dev :=
  ((d.ev RST_EVENT.DEFAULTED).wrB RST_BOOT_STATUS.CFG_DEFAULTED true).wrB RST_BOOT_STATUS.HOLD true

theorem defaultsShow_wrote (d : Dev) : Wrote d (defaultsShow d)
    [(RST_EVENT.DEFAULTED, 1), (RST_BOOT_STATUS.CFG_DEFAULTED, 1), (RST_BOOT_STATUS.HOLD, 1)] :=
  (((Wrote.refl d).ev (by decide) (by decide)).wrB (f := RST_BOOT_STATUS.CFG_DEFAULTED) (b := true)
    (show fits RST_BOOT_STATUS.CFG_DEFAULTED [(RST_EVENT.DEFAULTED, 0)] = true by decide) (by decide)).wrB
    (f := RST_BOOT_STATUS.HOLD) (b := true) (show fits RST_BOOT_STATUS.HOLD [(RST_EVENT.DEFAULTED, 0),
      (RST_BOOT_STATUS.CFG_DEFAULTED, 0)] = true by decide) (by decide)

theorem defaultsDone_eq (h : d.bootSt = 8) (hr : d.boot.ready = false) : ∃ x, defaultsDone d =
    (defaultsShow x).bootMod (fun b => { b with ready := true, due := false }) ∧
      (calOk d.boot.calPage = false → x = calSource false (romDefaults d)) := by
  unfold defaultsDone
  rw [if_pos ⟨h, by rw [hr]; rfl⟩]
  refine ⟨_, rfl, fun hc => if_neg ?_⟩
  rw [(calSource_beyond false (romDefaults d)).part Dev.boot fun _ _ _ => rfl]
  exact Bool.eq_false_iff.mp hc

/-- A word whose first entry a change leaves off its default is read from that entry. -/
theorem cellRead_first (dflt : Nat → Word) (m : List (Nat × Word)) (F : Nat → Word → Word) (k : Nat)
    (hd : F k (dflt k) = dflt k) (hk : F k (cellRead dflt m k) ≠ dflt k) :
    cellRead dflt ((m.map fun x => (x.1, F x.1 x.2)).filter fun x => x.2 != dflt x.1) k = F k (cellRead dflt m k) := by
  induction m with
  | nil => exact absurd hd hk
  | cons x m ih =>
    obtain ⟨a, w⟩ := x
    by_cases ha : k = a
    · subst ha
      simp only [cellRead, if_true] at hk ⊢
      simp [hk, cellRead]
    · simp only [cellRead, if_neg ha] at hk ⊢
      have := ih hk
      grind [cellRead]

/-- The ROM word of register o for v. -/
def romWord (o : Nat) (v : Word) : Word :=
  if o < 0x200000 then BitVec.ofNat 32 (match rowAt o with
    | some r => (r.fields.filter fun f => f.keep == .i).foldl
        (fun a f => setBits a f.lo f.w (bits (resetWord o).toNat f.lo f.w)) v.toNat
    | none => v.toNat) else v

theorem romDefaults_eq (d : Dev) : romDefaults d =
    { d with regs := (d.regs.map fun x => (x.1, romWord x.1 x.2)).filter fun x => x.2 != resetWord x.1 } := rfl

/-- A row without fields that the ROM sets. -/
theorem romWord_stays {o : Nat} (h : ((rowAt o).all fun r => r.fields.all fun f => f.keep != .i) = true) (v : Word) :
    romWord o v = v := by
  unfold romWord
  split
  · cases hr : rowAt o with
    | none => simp
    | some r =>
      rw [hr, Option.all_some] at h
      have hnone : (r.fields.filter fun f => f.keep == .i) = [] := by
        rw [List.filter_eq_nil_iff]
        intro f hf
        simpa using List.all_eq_true.mp h f hf
      dsimp only
      rw [hnone]
      simp
  · rfl

theorem romDefaults_state (h : d.bootSt = 8) : (romDefaults d).rd RST_BOOT_STATUS.STATE = 8 := by
  have hstays := romWord_stays (o := RST_BOOT_STATUS.addr) (by decide +kernel)
  have hne : cellRead resetWord d.regs RST_BOOT_STATUS.addr ≠ resetWord RST_BOOT_STATUS.addr := by
    intro he
    have hst : bits (cellRead resetWord d.regs RST_BOOT_STATUS.addr).toNat 0 4 = 8 := h
    rw [he] at hst
    exact absurd hst (by decide +kernel)
  have hread := cellRead_first resetWord d.regs romWord RST_BOOT_STATUS.addr (hstays _) (by rw [hstays]; exact hne)
  rw [hstays] at hread
  rw [romDefaults_eq, ← h]
  exact congrArg (fun v : Word => bits v.toNat 0 4) hread

end

end Sys2Proof.Machine
end

section
/-!
PROOFS. BOOT_DONE, RELEASE and what starts in RUN and HOLD (R89, R101 to R103).
-/

namespace Sys2Proof.Machine

section
variable {d e : Dev}

/-! ### What starts leaves the controller and the sequencer alone -/

theorem Calm.hostLevel (h : Calm d e) : Calm d (hostLevel e) := .ite h.hrtEnter h

theorem Calm.srcAct {n : Nat} (h : Calm d e) : Calm d (srcAct n e) := by
  unfold Machine.srcAct
  exact .ite h.hearthMod (.ite h.hearthMod.hrtEnter (.ite h.hearthMod.hrtEnter.hostLevel
    (.ite (.ite h.hearthMod.hearthMod.hostLevel h.hearthMod.hrtEnter.hostLevel) h.hearthMod.hostLevel)))

theorem Calm.cfgCopy (h : Calm d e) : Calm d (cfgCopy e) := h.hostMod

theorem Calm.dropWhole {x : Frm} (h : Calm d e) : Calm d (dropWhole x e) :=
  h.work (((Work.refl Ctl e).hostReturn tag_away).leave (fun f hf => (pmem_away f hf).free) ctl_below)

theorem Calm.reflow (h : Calm d e) : Calm d (reflow e) :=
  Calm.foldl _ h.pegMod fun _ _ hx => Calm.dropWhole (Calm.ev (hx.sat (by decide)) (by decide))

theorem Calm.claimOver (h : Calm d e) : Calm d (claimOver e) :=
  .ite h (Calm.pegMod (Calm.wr (h.wrB (by decide)) (by decide)))

theorem Calm.msgReturn {k t : Nat} {m : PegMsg} (h : Calm d e) : Calm d (msgReturn k t m e) :=
  h.work (((Work.refl Ctl e).setRing.retire tag_away).ringQuiesce tag_away)

theorem Calm.msgNoAck {p : PegMsg → Bool} (h : Calm d e) : Calm d (msgNoAck p e) :=
  Calm.foldl _ h.pegMod fun _ _ hx => hx.pegMod.msgReturn

theorem Calm.schedIn {b : Nat} (h : Calm d e) : Calm d (schedIn b e) := by
  unfold Machine.schedIn
  extract_lets was keep a c f g i hasMsg part
  have hc : Calm d c := Calm.forN h.pegMod fun _ _ hx => .ite hx hx.setSpare
  have hf : Calm d f := (hc.wr (by decide)).wr (by decide)
  have hi : Calm d i := .ite hf.reflow.claimOver hf.reflow
  exact .ite hi.pegMod.roleUpdate hi.msgNoAck.roleUpdate

theorem Calm.setGate {n : Nat} {g : GateCopy} (h : Calm d e) : Calm d (setGate n g e) := h.trans (Emits.setGate (.refl e)).calm

theorem Calm.showSwapT {n t : Nat} (h : Calm d e) : Calm d (showSwapT n t e) :=
  (h.wr (.at rfl (by decide))).wr (.at rfl (by decide))

theorem Calm.gateBoot {n : Nat} (h : Calm d e) : Calm d (gateBoot n e) := by
  have harm (b : Nat) (x : Dev) (hx : Calm d x) : Calm d (gateArm n b x) := hx.setGate.showSwapT
  unfold Machine.gateBoot
  exact .ite (.ite (.ite (harm _ _ h.gateEnable) h.gateEnable.setGate) h.gateEnable) h

theorem Calm.spkEnter {n : Nat} {g : Nat × Nat} (h : Calm d e) : Calm d (spkEnter n g e) :=
  Calm.parts (h.wr (by decide)) rfl rfl rfl rfl

theorem Calm.spkPowered (h : Calm d e) : Calm d (spkPowered e) := by
  have hrun : Calm d (e.wr SPK_STATUS.RUN 2) := h.wr (by decide)
  have hmod (f : Spk → Spk) (x : Dev) (hx : Calm d x) : Calm d (x.spkMod f) := hx.parts rfl rfl rfl rfl
  exact .ite (Calm.spkEnter (hmod _ _ (hmod _ _ hrun))) h

theorem Calm.autoDue (h : Calm d e) : Calm d (autoDue e) := h.parts rfl rfl rfl rfl

theorem Calm.leashOn (h : Calm d e) : Calm d (leashEn true e) := (h.wrB (by decide)).wr (by decide)

theorem Calm.startHold (h : Calm d e) : Calm d (startHold e) := by
  unfold Machine.startHold
  extract_lets a b
  have ha : Calm d a := .ite (h.forN fun _ _ hx => .ite hx.gateEnable hx) (h.forN fun _ _ hx => hx.gateBoot)
  have hb : Calm d b := .ite ha.cmpPowered ha
  exact .ite hb.leashOn hb

theorem Calm.startAll (h : Calm d e) : Calm d (startAll e) := .autoDue (.ite h.coreStart.sapOn.spkPowered h.coreStart)

/-! ### BOOT_DONE -/

/-- What BOOT_DONE shows of the boot. -/
def bootShows (d : Dev) : Dev :=
  let d := (d.ev RST_EVENT.BOOT_DONE).wr RST_BOOT_TIME.FR d.boot.frames
  d.wr RST_BOOT_STATUS.STATE (if d.on RST_BOOT_STATUS.HOLD then 9 else 10)

/-- The boot is over: the sequencer's own state, and the controller's status shown again. -/
def bootCloses (d : Dev) : Dev := ratShow (d.bootMod fun b => { b with kind := none, wakeBoot := false, ready := false, due := false })

/-- What starts with BOOT_DONE. -/
def bootStarts (d : Dev) : Dev :=
  let d := (schedBoot (cfgCopy (srcAct (d.rd HRT_CTRL.SRC) d))).shdMod fun s => { s with fresh := true }
  let d := autoDue (startHold d)
  if d.run then startAll d else d

theorem bootDone_eq (hr : d.boot.ready = true) (hd : d.boot.due = true) (hst : d.bootSt = 7 ∨ d.bootSt = 8) :
    bootDone d = bootStarts (bootCloses (bootShows d)) := by
  unfold bootDone
  rw [if_pos (by rcases hst with h | h <;> simp [hr, hd, h])]
  rfl

theorem bootStarts_calm (d : Dev) : Calm d (bootStarts d) := by
  have hshd (f : Shd → Shd) (x : Dev) (hx : Calm d x) : Calm d (x.shdMod f) := hx.parts rfl rfl rfl rfl
  have hsched : Calm d (schedBoot (cfgCopy (srcAct (d.rd HRT_CTRL.SRC) d))) := Calm.schedIn (Calm.cfgCopy (Calm.srcAct (.refl d)))
  exact .ite (Calm.startAll (Calm.autoDue (Calm.startHold (hshd _ _ hsched)))) (Calm.autoDue (Calm.startHold (hshd _ _ hsched)))

theorem ratShow_shows (d : Dev) : (ratShow d).rat.shadow = none ∧ (ratShow d).sram = d.sram ∧ (ratShow d).boot = d.boot ∧
    ∀ g, g.off ≠ RAT_STATUS.addr → (ratShow d).rd g = d.rd g := by
  unfold ratShow
  split
  · refine ⟨rfl, rfl, rfl, fun g hg => ?_⟩
    rw [setWord_eq_wr]
    exact rd_wr_off _ _ _ _ hg
  next h => exact ⟨h, rfl, rfl, fun _ _ => rfl⟩

theorem bootShows_wrote (d : Dev) : Wrote d (bootShows d) [(RST_EVENT.BOOT_DONE, 1),
    (RST_BOOT_TIME.FR, d.boot.frames % 2 ^ RST_BOOT_TIME.FR.w), (RST_BOOT_STATUS.STATE, if d.on RST_BOOT_STATUS.HOLD then 9 else 10)] := by
  have htime : Wrote d ((d.ev RST_EVENT.BOOT_DONE).wr RST_BOOT_TIME.FR d.boot.frames) [(RST_EVENT.BOOT_DONE, 1),
      (RST_BOOT_TIME.FR, d.boot.frames % 2 ^ RST_BOOT_TIME.FR.w)] :=
    ((Wrote.refl d).ev (by decide) (by decide)).wrMod (f := RST_BOOT_TIME.FR)
      (show fits RST_BOOT_TIME.FR [(RST_EVENT.BOOT_DONE, 0)] = true by decide)
  have hold := htime.on (f := RST_BOOT_STATUS.HOLD)
    (show fits RST_BOOT_STATUS.HOLD [(RST_EVENT.BOOT_DONE, 0), (RST_BOOT_TIME.FR, 0)] = true by decide)
  rw [← hold]
  exact htime.wr (f := RST_BOOT_STATUS.STATE)
    (show fits RST_BOOT_STATUS.STATE [(RST_EVENT.BOOT_DONE, 0), (RST_BOOT_TIME.FR, 0)] = true by decide) (by split <;> decide)

theorem bootDone_shows (hr : d.boot.ready = true) (hd : d.boot.due = true) (hst : d.bootSt = 7 ∨ d.bootSt = 8) :
    (bootDone d).rd RST_EVENT.BOOT_DONE = 1 ∧
      (bootDone d).rd RST_BOOT_STATUS.STATE = (if d.on RST_BOOT_STATUS.HOLD then 9 else 10) ∧
      (bootDone d).rd RST_BOOT_TIME.FR = d.boot.frames % 2 ^ RST_BOOT_TIME.FR.w ∧ (bootDone d).boot.kind = none ∧
      (bootDone d).rat.shadow = none ∧ (bootDone d).booted = true ∧ (bootDone d).sram = d.sram := by
  have hwrote := bootShows_wrote d
  have hsram : (bootShows d).sram = d.sram := hwrote.1
  obtain ⟨hshadow, hcsram, hcboot, hcrd⟩ := ratShow_shows ((bootShows d).bootMod fun b =>
    { b with kind := none, wakeBoot := false, ready := false, due := false })
  have hstarts := bootStarts_calm (bootCloses (bootShows d))
  have hrd (g : Field) (hg : g.off / 0x4000 = 4) : (bootDone d).rd g = (bootShows d).rd g := by
    rw [bootDone_eq hr hd hst, hstarts.stands.rd (.inr hg), bootCloses, hcrd g (fun h => by rw [h] at hg; exact absurd hg (by decide)),
      bootMod_rd]
  have hstate : (bootDone d).rd RST_BOOT_STATUS.STATE = if d.on RST_BOOT_STATUS.HOLD then 9 else 10 :=
    (hrd _ (by decide)).trans (hwrote.get (by simp))
  refine ⟨(hrd _ (by decide)).trans (hwrote.get (by simp)), hstate, (hrd _ (by decide)).trans (hwrote.get (by simp)), ?_, ?_, ?_, ?_⟩
  · rw [bootDone_eq hr hd hst, hstarts.boot, bootCloses, hcboot, bootMod_boot]
  · rw [bootDone_eq hr hd hst, hstarts.rat]
    exact hshadow
  · rw [Dev.booted, hstate]
    split <;> rfl
  · rw [bootDone_eq hr hd hst, hstarts.stands.2, bootCloses, hcsram, bootMod_sram, hsram]

/-! ### RELEASE -/

theorem holdExit_shows (hst : d.bootSt = 9) (hr : d.boot.release = true) (hd : d.boot.due = true) :
    (holdExit d).rd RST_BOOT_STATUS.HOLD = 0 ∧ (holdExit d).rd RST_BOOT_STATUS.STATE = 10 ∧ (holdExit d).boot.release = false ∧
      (holdExit d).sram = d.sram := by
  have heq : holdExit d = startAll (((d.bootMod fun b => { b with release := false, due := false }).wrB RST_BOOT_STATUS.HOLD
      false).wr RST_BOOT_STATUS.STATE 10) := if_pos ⟨hst, hr, hd⟩
  have hcalm : Calm _ (startAll (((d.bootMod fun b => { b with release := false, due := false }).wrB RST_BOOT_STATUS.HOLD
      false).wr RST_BOOT_STATUS.STATE 10)) := .startAll (.refl _)
  rw [← heq] at hcalm
  have hwrote : Wrote (d.bootMod fun b => { b with release := false, due := false }) _
      [(RST_BOOT_STATUS.HOLD, 0), (RST_BOOT_STATUS.STATE, 10)] :=
    ((Wrote.refl _).wrB (f := RST_BOOT_STATUS.HOLD) (b := false) (by decide) (by decide)).wr (f := RST_BOOT_STATUS.STATE) (v := 10)
      (show fits RST_BOOT_STATUS.STATE [(RST_BOOT_STATUS.HOLD, 0)] = true by decide) (by decide)
  refine ⟨(hcalm.stands.rd (by decide)).trans (hwrote.get (by simp)), (hcalm.stands.rd (by decide)).trans (hwrote.get (by simp)),
    ?_, ?_⟩
  · rw [hcalm.boot, wr_boot, wrB_boot, bootMod_boot]
  · rw [hcalm.stands.2, hwrote.1, bootMod_sram]

end

/-! ### The boot's slots and its end -/

theorem findWrites_bad {req : Bool} {a b : Bytes} (ha : findCode req a ≠ 0) (hb : findCode req b ≠ 0) : findWrites req a b =
    [(RST_SLOT_A.RESULT, findCode req a), (RST_SLOT_A_GEN.GEN, if findCode req a = 3 then 0 else u32 a 8),
      (RST_SLOT_B.RESULT, findCode req b), (RST_SLOT_B_GEN.GEN, if findCode req b = 3 then 0 else u32 b 8),
      (RST_BOOT_STATUS.STATE, 8)] := by
  rw [findWrites, findOrder_bad ha hb]
  rfl

theorem findWrites_good {req : Bool} {a b : Bytes} (ha : findCode req a = 0) (hb : findCode req b = 0) : findWrites req a b =
    [(RST_SLOT_A.RESULT, 0), (RST_SLOT_A_GEN.GEN, u32 a 8), (RST_SLOT_B.RESULT, 0), (RST_SLOT_B_GEN.GEN, u32 b 8),
      (RST_BOOT_STATUS.STATE, 5)] := by
  have horder : (if u32 b 8 ≤ u32 a 8 then [1, 2] else [2, 1]).isEmpty = false := by split <;> rfl
  rw [findWrites, findOrder_good ha hb, genShown, genShown, ha, hb, horder]
  rfl

theorem findWrites_stands {d e : Dev} {req : Bool} {a b : Bytes} (h : Wrote d e (findWrites req a b)) : Stands (Outside [4]) d e := by
  have hstands : Stands (Beside [RST_SLOT_A.RESULT, RST_SLOT_A_GEN.GEN, RST_SLOT_B.RESULT, RST_SLOT_B_GEN.GEN,
    RST_BOOT_STATUS.STATE]) d e := h.beside
  exact hstands.inBlocks (by decide)

/-- DEFAULTS without a calibration page. -/
theorem defaults_romShows {d : Dev} (hst : d.bootSt = 8) (hcal : calOk d.boot.calPage = false) (e : Dev)
    (he : e = (defaultsShow (calSource false (romDefaults d))).bootMod fun b => { b with ready := true, due := false }) :
    Only (romDefaults d) e [RST_BOOT_STATUS.CFG_DEFAULTED, RST_BOOT_STATUS.HOLD, RST_BOOT_STATUS.CAL_SRC, RST_EVENT.DEFAULTED,
        RST_EVENT.CAL_DEFAULT] ∧ e.rd RST_BOOT_STATUS.CFG_DEFAULTED = 1 ∧ e.rd RST_BOOT_STATUS.HOLD = 1 ∧
      e.rd RST_BOOT_STATUS.CAL_SRC = 2 ∧ e.rd RST_EVENT.DEFAULTED = 1 ∧ e.rd RST_EVENT.CAL_DEFAULT = 1 ∧
      e.rd RST_BOOT_STATUS.STATE = 8 ∧ e.boot.ready = true ∧ e.sram = d.sram := by
  have hsource := calSource_wrote false (romDefaults d)
  rw [show (romDefaults d).boot = d.boot from rfl, hcal, if_neg Bool.false_ne_true, if_neg Bool.false_ne_true,
    if_neg Bool.false_ne_true] at hsource
  have hshow := (defaultsShow_wrote (calSource false (romDefaults d))).bootMod (f := fun b => { b with ready := true, due := false })
  rw [← he] at hshow
  have hboth := hsource.append hshow (by
    simp only [List.forall_mem_cons, List.not_mem_nil, false_implies, implies_true, and_true]
    decide)
  refine ⟨(hboth.beside.widen (by decide)).only, hboth.get (by simp), hboth.get (by simp), hboth.get (by simp),
    hboth.get (by simp), hboth.get (by simp), ?_, by rw [he]; rfl, hboth.1⟩
  rw [hboth.rd (by decide), romDefaults_state hst]

theorem release_noted {d : Dev} (hst : d.bootSt = 9) (hr : d.boot.release = false) :
    release d = d.bootMod fun b => { b with release := true, due := false } := if_pos ⟨hst, by rw [hr]; rfl⟩

/-- Settles O11: FIND and VERIFY by what they write, the boot's end by what starts with it. -/
theorem bootSlotsAndEnds : Obligations.BootSlotsAndEnds := by
  unfold Obligations.BootSlotsAndEnds
  intro s
  refine ⟨fun a b cal hst ha hb => ?_, fun a b cal hst ha hb => ?_, fun cal hst => ?_, fun bs hst hc hhdr hv => ?_,
    fun bs hst hc hhdr hbad => ?_, fun a b cal hst => ?_, fun bs sl rest hdr hst hc hsl hhdr => ?_, fun hst hc => ?_,
    fun hst hc => ?_, fun hst hr => ?_, fun hst hr hcal => ?_, fun hst hr => ?_, fun hr hd hst => ?_, fun ht hst hr => ?_,
    fun hst hr hd => ?_⟩
  · refine does_run (f := findDone a b cal) (fun _ => rfl) ?_
    obtain ⟨hw, hcands, hcal, houts⟩ := findDone_shows (d := s.quiet) (a := a) (b := b) (cal := cal)
      (req := s.dev.on RST_OTP.REQUIRE_TAG) hst rfl
    rw [findWrites_good ha hb] at hw
    rw [findOrder_good ha hb] at hcands houts
    refine ⟨hw, hcands, hcal, houts.trans ?_⟩
    split <;> rfl
  · refine does_run (f := findDone a b cal) (fun _ => rfl) ?_
    obtain ⟨hw, hcands, -, houts⟩ := findDone_shows (d := s.quiet) (a := a) (b := b) (cal := cal)
      (req := s.dev.on RST_OTP.REQUIRE_TAG) hst rfl
    rw [findWrites_bad ha hb] at hw
    rw [findOrder_bad ha hb] at hcands houts
    exact ⟨hw, hcands, houts⟩
  · refine does_run (f := findDone [] [] cal) (fun _ => rfl) ?_
    obtain ⟨hw, hcands, -, -⟩ := findDone_shows (d := s.quiet) (a := []) (b := []) (cal := cal)
      (req := s.dev.on RST_OTP.REQUIRE_TAG) hst rfl
    have hblank := findCode_blank (s.dev.on RST_OTP.REQUIRE_TAG)
    have hne : findCode (s.dev.on RST_OTP.REQUIRE_TAG) (flashTaken 64 []) ≠ 0 := by rw [hblank]; decide
    rw [findWrites_bad hne hne, hblank] at hw
    rw [findOrder_bad hne hne] at hcands
    exact ⟨hw, hcands⟩
  · refine does_run (f := verifyDone bs) (fun _ => rfl) ?_
    have hpass : (verifyCode (s.quiet.on RST_OTP.KEY_PROG) s.quiet.boot.otpKey (verifyTaken 1 bs s.quiet)).1 = 1 :=
      congrArg Prod.fst hv
    rw [verifyDone_eq (d := s.quiet) hst hc hhdr, if_pos hpass]
    have hboot := verifyPasses_boot (d := s.quiet) (s := 1) (rest := [2]) (bs := bs)
    exact ⟨verifyPasses_first, by rw [hboot], by rw [hboot]; rfl, by rw [hboot], by rw [hboot]⟩
  · refine does_run (f := verifyDone bs) (fun _ => rfl) ?_
    have hcode := verifyCode_check (key := s.quiet.on RST_OTP.KEY_PROG) (otp := s.quiet.boot.otpKey) hbad
    rw [verifyDone_eq (d := s.quiet) hst hc hhdr, show verifyTaken 1 bs s.quiet = flashTaken (imgLen s.dev.boot.hdrA) bs from rfl,
      hcode, if_neg (by decide)]
    obtain ⟨hw, houts⟩ := verifyDrops_first (d := s.quiet) (c := 8) (by decide)
    exact ⟨hw, verifyDrops_cands, houts⟩
  · refine ends_run (f := findDone a b cal) (fun _ => rfl) ?_
    obtain ⟨hw, hcands, -, -⟩ := findDone_shows (d := s.quiet) (a := a) (b := b) (cal := cal)
      (req := s.dev.on RST_OTP.REQUIRE_TAG) hst rfl
    have hstands := findWrites_stands hw
    have hra := hw.nth 0 rfl
    have hrb := hw.nth 2 rfl
    have hstate := hw.nth 4 rfl
    refine ⟨hstands.within, hstands.2, hra, hrb, fun sl => ?_, ?_⟩
    · rw [hcands, hra, hrb]
      exact findOrder_contains _ _ _ sl
    · rw [hstate, hcands]
      simp only [List.isEmpty_iff]
  · refine ends_run (f := verifyDone bs) (fun _ => rfl) ?_
    have hslot : s.quiet.slotHdr sl = hdr := by rcases hsl with ⟨rfl, rfl⟩ | ⟨rfl, rfl⟩ <;> rfl
    subst hslot
    rw [verifyDone_eq (d := s.quiet) hst hc hhdr]
    have hkey : s.quiet.on RST_OTP.KEY_PROG = s.dev.on RST_OTP.KEY_PROG := rfl
    rw [show verifyTaken sl bs s.quiet = flashTaken (imgLen (s.quiet.slotHdr sl)) bs from rfl, hkey,
      show s.quiet.boot.otpKey = s.dev.boot.otpKey from rfl]
    by_cases hp : (verifyCode (s.dev.on RST_OTP.KEY_PROG) s.dev.boot.otpKey (flashTaken (imgLen (s.quiet.slotHdr sl)) bs)).1 = 1
    · have hboot := verifyPasses_boot (d := s.quiet) (s := sl) (rest := rest) (bs := bs)
      have hstands := verifyPasses_stands (d := s.quiet) (s := sl) (rest := rest) (bs := bs)
      rw [if_pos hp, if_pos hp]
      exact ⟨hstands.within, hstands.2, verifyPasses_state, by rw [hboot], by rw [hboot]; rfl⟩
    · rw [if_neg hp, if_neg hp]
      exact ⟨verifyDrops_stands.within, verifyDrops_stands.2, verifyDrops_state, verifyDrops_cands⟩
  · obtain ⟨-, hrest⟩ := applyDone_shows (d := s.quiet) (s := 1) hst hc (.inl rfl)
    exact ends_run (f := applyDone) (fun _ => rfl) hrest
  · exact ends_run (f := applyDone) (fun _ => rfl) (applyDone_shows (d := s.quiet) (s := 2) hst hc (.inr rfl))
  · refine ends_run (f := admitDone) (fun _ => rfl) ?_
    obtain ⟨guar, he⟩ := admitDone_eq (d := s.quiet) hst hr
    obtain ⟨hstands, hready, hsrc, hres⟩ := admitEnds_shows s.quiet.bootSum guar s.quiet
    rw [he]
    exact ⟨hstands.within, hstands.2, hready, hsrc, hres⟩
  · refine ends_run (f := defaultsDone) (fun _ => rfl) ?_
    obtain ⟨x, he, hx⟩ := defaultsDone_eq (d := s.quiet) hst hr
    rw [he, hx hcal]
    exact defaults_romShows (d := s.quiet) hst hcal _ rfl
  · refine ends_run (f := defaultsDone) (fun _ => rfl) ?_
    obtain ⟨x, he, -⟩ := defaultsDone_eq (d := s.quiet) hst hr
    have hw := defaultsShow_wrote x
    rw [he]
    exact ⟨hw.get (by simp), hw.get (by simp), hw.get (by simp), rfl⟩
  · exact ends_run (f := bootDone) (fun _ => rfl) (bootDone_shows (d := s.quiet) hr hd hst)
  · refine does_soft (k := 0) (f := release) (fun _ => rfl) ht ?_
    rw [release_noted (d := s.quiet) hst hr]
    exact ⟨(Wrote.refl _).parts rfl rfl, rfl, rfl⟩
  · exact ends_run (f := holdExit) (fun _ => rfl) (holdExit_shows (d := s.quiet) hst hr hd)

end Sys2Proof.Machine
end

section
/-!
PROOFS. Messages received, their repeats, and spare slots (R250 to R255).
-/

namespace Sys2Proof.Machine

/-! ### Spare slots (R254, R255) -/

section
variable {d e : Dev} {k : Nat}

theorem schedWord_wr {f : Field} {v b s j : Nat} (hf : f.off < 0x2C0000) : (d.wr f v).schedWord b s j = d.schedWord b s j := by
  have hne : 0x2C0000 + b * 0x400 + 16 * s + 4 * j ≠ f.off := by omega
  rw [Dev.schedWord, Dev.schedWord, word_eq_rd, word_eq_rd]
  exact rd_wr_off d f _ v hne

theorem opSlot_wr {f : Field} {v : Nat} (hf : f.off < 0x2C0000) (s : Nat) : (d.wr f v).opSlot s = d.opSlot s := by
  unfold Dev.opSlot
  rw [wr_peg]
  cases d.peg.oper with
  | none => rfl
  | some b =>
    have hent : (d.wr f v).slotEnt b s = d.slotEnt b s := by
      unfold Dev.slotEnt
      rw [schedWord_wr hf, schedWord_wr hf]
    dsimp only
    rw [hent]

theorem spareOwner_congr (h : e.rd (PEG_SPARE_OWNk.OWN (k / 4)) = d.rd (PEG_SPARE_OWNk.OWN (k / 4))) :
    e.spareOwner k = d.spareOwner k := by
  rw [Dev.spareOwner, Dev.spareOwner, Dev.spareByte, Dev.spareByte, h]

theorem owner_apart (k : Nat) (f : Field) (hf : f.off < 0x48080) : Field.apart f (PEG_SPARE_OWNk.OWN (k / 4)) = true :=
  apart_of_off (show 0x48080 + 4 * (k / 4) ≠ f.off by omega)

/-- The conditions of R254 on a claim. -/
def Dev.claimable (d : Dev) (s : Nat) : Prop :=
  d.pst = 3 ∧ (d.opSlot s).type = 1 ∧ (d.opSlot s).paths ≠ 0 ∧ (d.spareOwner s).isNone ∧ 33 ≤ d.peg.silent.getD s 0

theorem claimable_slot (s v : Nat) : (d.wr PEG_SPARE_CTRL.SLOT v).claimable s ↔ d.claimable s := by
  have hown := spareOwner_congr (k := s) (rd_wr_apart d PEG_SPARE_CTRL.SLOT _ v (owner_apart s _ (by decide)))
  have hst : (d.wr PEG_SPARE_CTRL.SLOT v).pst = d.pst := rd_wr_apart d _ _ v (by decide)
  rw [Dev.claimable, Dev.claimable, hown, hst, opSlot_wr (by decide), wr_peg]

theorem Wrote.pegMod {ws : List (Field × Nat)} {f : Peg → Peg} (h : Wrote d e ws) : Wrote d (e.pegMod f) ws := h.parts rfl rfl

theorem spareClaim_taken (s : Fin 64) (hb : d.on PEG_SPARE_CTRL.CLAIM = false) (hc : d.claimable s) :
    Wrote d (spareClaim s d) [(PEG_SPARE_CTRL.SLOT, s.val), (PEG_SPARE_CTRL.CLAIM, 1), (PEG_SPARE_CTRL.RESULT, 0)] ∧
      (spareClaim s d).peg = { d.peg with claim := 1, claimS := s } := by
  have heq : spareClaim s d = (((d.wr PEG_SPARE_CTRL.SLOT s).wrB PEG_SPARE_CTRL.CLAIM true).wr PEG_SPARE_CTRL.RESULT 0).pegMod
      fun p => { p with claim := 1, claimS := s } := by
    unfold spareClaim
    dsimp only
    rw [hb, if_neg Bool.false_ne_true]
    exact if_pos ((claimable_slot _ _).mpr hc)
  rw [heq]
  have hslot : Wrote d (d.wr PEG_SPARE_CTRL.SLOT s) [(PEG_SPARE_CTRL.SLOT, s.val)] := (Wrote.refl d).wr (by decide) s.isLt
  have hclaim := hslot.wrB (f := PEG_SPARE_CTRL.CLAIM) (b := true)
    (show fits PEG_SPARE_CTRL.CLAIM [(PEG_SPARE_CTRL.SLOT, 0)] = true by decide) (by decide)
  have hres := hclaim.wr (f := PEG_SPARE_CTRL.RESULT) (v := 0)
    (show fits PEG_SPARE_CTRL.RESULT [(PEG_SPARE_CTRL.SLOT, 0), (PEG_SPARE_CTRL.CLAIM, 0)] = true by decide) (by decide)
  exact ⟨hres.pegMod, by rw [pegMod_peg, wr_peg, wrB_peg, wr_peg]⟩

theorem spareClaim_refused (s : Fin 64) (hb : d.on PEG_SPARE_CTRL.CLAIM = false) (hc : ¬d.claimable s) :
    Wrote d (spareClaim s d) [(PEG_SPARE_CTRL.SLOT, s.val), (PEG_SPARE_CTRL.RESULT, 3)] ∧ (spareClaim s d).peg = d.peg := by
  have heq : spareClaim s d = (d.wr PEG_SPARE_CTRL.SLOT s).wr PEG_SPARE_CTRL.RESULT 3 := by
    unfold spareClaim
    dsimp only
    rw [hb, if_neg Bool.false_ne_true]
    exact if_neg fun h => hc ((claimable_slot _ _).mp h)
  rw [heq]
  have hslot : Wrote d (d.wr PEG_SPARE_CTRL.SLOT s) [(PEG_SPARE_CTRL.SLOT, s.val)] := (Wrote.refl d).wr (by decide) s.isLt
  have hres := hslot.wr (f := PEG_SPARE_CTRL.RESULT) (v := 3)
    (show fits PEG_SPARE_CTRL.RESULT [(PEG_SPARE_CTRL.SLOT, 0)] = true by decide) (by decide)
  exact ⟨hres, by rw [wr_peg, wr_peg]⟩

/-- The byte of a freed slot says no owner; those of the others stand. -/
theorem setSpare_frees (s : Fin 64) (hown : d.spareOwner s ≠ none) :
    Stands (Beside [PEG_SPARE_OWNk.OWN (s / 4), PEG_EVENT.SPARE_CHG]) d (setSpare s none d) ∧
      (setSpare s none d).spareOwner s = none ∧
      (∀ j : Fin 64, j ≠ s → (setSpare s none d).spareOwner j = d.spareOwner j) ∧
      (setSpare s none d).rd PEG_EVENT.SPARE_CHG = 1 ∧ (setSpare s none d).peg = d.peg := by
  have hchg : (d.spareOwner s != none) = true := by simpa using hown
  have heq : setSpare s none d = (d.wr (PEG_SPARE_OWNk.OWN (s / 4))
      (setBits (d.rd (PEG_SPARE_OWNk.OWN (s / 4))) (8 * (s % 4)) 8 0)).ev PEG_EVENT.SPARE_CHG := by
    unfold setSpare
    dsimp only
    rw [hchg]
    rfl
  have hlt : setBits (d.rd (PEG_SPARE_OWNk.OWN (s / 4))) (8 * (s % 4)) 8 0 < 2 ^ 32 :=
    setBits_lt (rd_lt d (PEG_SPARE_OWNk.OWN (s / 4))) (show 8 * (s.val % 4) + 8 ≤ 32 by omega)
  have hev (j : Nat) : Field.apart PEG_EVENT.SPARE_CHG (PEG_SPARE_OWNk.OWN (j / 4)) = true := owner_apart j _ (by decide)
  have hbyte (j : Nat) (hj : j / 4 = s.val / 4) : (setSpare s none d).spareByte j =
      bits (setBits (d.rd (PEG_SPARE_OWNk.OWN (s / 4))) (8 * (s % 4)) 8 0) (8 * (j % 4)) 8 := by
    rw [Dev.spareByte, hj, heq, rd_ev_apart _ _ _ (hev s), rd_wr_same _ _ _ (show 0 + 32 ≤ 32 by decide)]
    exact congrArg (fun x => bits x (8 * (j % 4)) 8) (Nat.mod_eq_of_lt hlt)
  refine ⟨?_, ?_, fun j hj => ?_, ?_, ?_⟩
  · rw [heq]
    exact ((Stands.refl _ d).wr (.listed (by simp))).ev (.listed (by simp))
  · rw [Dev.spareOwner, hbyte s rfl, bits_setBits_same]
    rfl
  · by_cases hw : j.val / 4 = s.val / 4
    · have hne : j.val % 4 ≠ s.val % 4 := fun h => hj (Fin.ext (by omega))
      rw [Dev.spareOwner, Dev.spareOwner, hbyte j hw, bits_setBits_disjoint _ _ _ _ _ _ (by omega), Dev.spareByte, hw]
    · refine spareOwner_congr ?_
      rw [heq, rd_ev_apart _ _ _ (hev j)]
      exact rd_wr_off d _ _ _ (show 0x48080 + 4 * (j.val / 4) ≠ 0x48080 + 4 * (s.val / 4) by omega)
  · rw [heq]
    exact (rd_ev_same (by decide)).trans (by decide)
  · rw [heq, Dev.ev, wr_peg, wr_peg]

end

/-! ### What a write to the host adds to the outputs -/

/-- From d to e outputs are added alone, and no bytes wait that did not. -/
structure Sends (d e : Dev) : Prop where
  outs : d.outs <+: e.outs
  outq : e.host.outq = d.host.outq

section
variable {d e : Dev}

theorem Sends.refl (d : Dev) : Sends d d := ⟨List.prefix_rfl, rfl⟩

theorem Sends.same {x : Dev} (h : Sends d e) (ho : x.outs = e.outs) (hq : x.host.outq = e.host.outq) : Sends d x :=
  ⟨ho ▸ h.outs, hq.trans h.outq⟩

theorem Sends.wr {f : Field} {v : Nat} (h : Sends d e) : Sends d (e.wr f v) := h.same rfl rfl

theorem Sends.emit {o : Out} (h : Sends d e) : Sends d (e.emit o) := ⟨h.outs.trans (List.prefix_append _ _), h.outq⟩

theorem Sends.setRing {r : Nat} {x : Ring} (h : Sends d e) : Sends d (e.setRing r x) := h.same rfl rfl

theorem Sends.fnMod {f : Nat} {g : Fn → Fn} (h : Sends d e) : Sends d (e.fnMod f g) := h.same rfl rfl

theorem Sends.ite {c : Prop} [Decidable c] {x y : Dev} (hx : Sends d x) (hy : Sends d y) : Sends d (if c then x else y) := by
  split
  · exact hx
  · exact hy

theorem Sends.foldl {α : Type} {f : Dev → α → Dev} (l : List α) (h : Sends d e) (hf : ∀ a x, Sends d x → Sends d (f x a)) :
    Sends d (l.foldl f e) := by
  induction l generalizing e with
  | nil => exact h
  | cons a l ih => exact ih (hf a e h)

theorem Sends.hostWrite {f a : Nat} {bs : Bytes} {b : Bool} (h : Sends d e) : Sends d (hostWrite f a bs b e) := .ite h.emit h

theorem Sends.msixSend {f v : Nat} (h : Sends d e) : Sends d (msixSend f v e) := by
  unfold Machine.msixSend
  exact .ite (.ite h.fnMod h.emit) h

theorem Sends.ringMsg {r : Nat} (h : Sends d e) : Sends d (ringMsg r e) := by
  unfold Machine.ringMsg
  dsimp only
  split
  · exact h
  · split
    · exact .ite h.setRing h.setRing.msixSend
    · exact h.setRing.msixSend

theorem Sends.retire {r : Nat} (h : Sends d e) : Sends d (retire r e) := by
  unfold Machine.retire
  dsimp only
  split
  · exact h
  · refine .ite h (Sends.wr (Sends.wr (Sends.wr (Sends.foldl _ (Sends.setRing ?_) fun _ _ hx => hx.ringMsg))))
    exact Sends.foldl _ (Sends.foldl _ h fun _ _ hx => hx.hostWrite) fun _ _ hx => hx.hostWrite

/-- The writes of a payload by a function that may write. -/
theorem hostWrites_eq {α : Type} {f : Nat} {b : Bool} (l : List α) (addr : α → Nat) (part : α → Bytes) (d : Dev)
    (h : d.fnLive f = true) : l.foldl (fun d c => hostWrite f (addr c) (part c) b d) d =
      { d with outs := d.outs ++ l.map fun c => Out.hostWrite f (addr c) (part c) (b && (d.fn f).relax) } := by
  induction l generalizing d with
  | nil => simp
  | cons c l ih =>
    have hone : hostWrite f (addr c) (part c) b d = d.emit (.hostWrite f (addr c) (part c) (b && (d.fn f).relax)) := if_pos h
    rw [List.foldl_cons, hone, ih (d.emit _) h]
    simp [Dev.emit, Dev.fn]

/-- What a payload write puts out. -/
def payOuts (f addr : Nat) (bs : Bytes) (d : Dev) : List Out :=
  (reqChunks (max 1 (min (d.fn f).mps 512)) (bs.length + 1) addr 0 bs.length).map fun c =>
    Out.hostWrite f c.1 (slice bs c.2.1 c.2.2) (d.fn f).relax

theorem hostOut_live {r f addr : Nat} {bs : Bytes} (hlive : d.fnLive f = true) (hp : d.paced true r = false)
    (hq : d.outWaits r = false) : hostOut r f addr bs d = { d with outs := d.outs ++ payOuts f addr bs d } := by
  unfold hostOut
  rw [if_neg]
  · exact hostWrites_eq _ (fun c : Nat × Nat × Nat => c.1) (fun c => slice bs c.2.1 c.2.2) d hlive
  · rintro ⟨-, hor⟩
    have hq' : (d.host.outq.any fun w => w.ring == r) = false := hq
    simp [hlive, hp, hq'] at hor

/-! ### What packet memory's own work moves -/

/-- From d to e registers and packet memory alone move. -/
def Cells (d e : Dev) : Prop := ∃ r p, e = { d with regs := r, pm := p }

theorem Cells.refl (d : Dev) : Cells d d := ⟨_, _, rfl⟩

theorem Cells.trans {x : Dev} (h1 : Cells d e) (h2 : Cells e x) : Cells d x := by
  obtain ⟨r1, p1, rfl⟩ := h1
  obtain ⟨r2, p2, rfl⟩ := h2
  exact ⟨r2, p2, rfl⟩

theorem Cells.wr {f : Field} {v : Nat} (h : Cells d e) : Cells d (e.wr f v) := h.trans ⟨_, _, rfl⟩

theorem Cells.pmMod {f : Pmem → Pmem} (h : Cells d e) : Cells d (e.pmMod f) := h.trans ⟨_, _, rfl⟩

theorem Cells.ite {c : Prop} [Decidable c] {x y : Dev} (hx : Cells d x) (hy : Cells d y) : Cells d (if c then x else y) := by
  split
  · exact hx
  · exact hy

theorem Cells.foldl {α : Type} {f : Dev → α → Dev} (l : List α) (h : Cells d e) (hf : ∀ a x, Cells d x → Cells d (f x a)) :
    Cells d (l.foldl f e) := by
  induction l generalizing e with
  | nil => exact h
  | cons a l ih => exact ih (hf a e h)

theorem Cells.retireCell {k : Nat} (h : Cells d e) : Cells d (retireCell k e) := .ite h.pmMod.pmMod.wr.wr.wr h.pmMod.wr

theorem Cells.pmemSync (h : Cells d e) : Cells d (pmemSync e) := by
  have hworn (p : Pmem → Pmem) : Cells d (retireWorn (e.pmMod p)) := .ite (h.pmMod.foldl _ fun _ _ hx => hx.retireCell) h.pmMod
  exact .ite (Cells.pmMod (Cells.wr (Cells.pmMod (hworn _).wr.wr)))
    (.ite (Cells.pmMod (Cells.pmMod (hworn _).wr.wr)) (Cells.pmMod (hworn _).wr.wr))

theorem Cells.part {α : Type} (h : Cells d e) (π : Dev → α) (hπ : ∀ x r p, π { x with regs := r, pm := p } = π x) : π e = π d := by
  obtain ⟨r, p, rfl⟩ := h
  exact hπ d r p

/-! ### A message is delivered (R251, R252) -/

theorem msgFill_work {P : Field → Prop} {r i d3 t w6 : Nat} (hP : ∀ f ∈ tagFields, Free P f) :
    Work P d (msgFill r i d3 t w6 d) := (Work.refl P d).setRing.retire hP

theorem msgFill_sends {r i d3 t w6 : Nat} : Sends d (msgFill r i d3 t w6 d) := (Sends.refl d).setRing.retire

theorem msgOut_cells (p : PegIn → Bool) : Cells (d.pegMod fun q => { q with inbox := q.inbox.filter fun y => !p y }) (msgOut p d) :=
  (Cells.refl _).pmemSync

theorem msgOut_stands {p : PegIn → Bool} : Stands (Beside pmemFields) d (msgOut p d) :=
  Stands.pmemSync ((Stands.refl _ d).parts rfl rfl) fun _ => .listed

theorem Stands.pegMod {P : Field → Prop} {f : Peg → Peg} (h : Stands P d e) : Stands P d (e.pegMod f) := h.parts rfl rfl

theorem msgHead_empty {r : Nat} (h : d.peg.inbox = []) : msgHead r d = d := by
  unfold msgHead
  rw [h]
  rfl

/-- A message delivered: out of the inbox, the last accepted of its node, an acknowledgement due. -/
theorem msgDone_shows {y : PegIn} (hin : d.peg.inbox = [y]) (hack : d.peg.ackDue = []) :
    (msgDone y d).peg = { d.peg with inbox := [], lastRx := d.peg.lastRx.set y.node (some y.seq), ackDue := [y.node] } ∧
      (msgDone y d).outs = d.outs ∧ Stands (Beside pmemFields) d (msgDone y d) := by
  have hcells := msgOut_cells (d := d.pegMod fun p => { p with lastRx := p.lastRx.set y.node (some y.seq) }) (· == y)
  have hpeg := hcells.part Dev.peg fun _ _ _ => rfl
  have houts := hcells.part Dev.outs fun _ _ _ => rfl
  refine ⟨?_, ?_, ?_⟩ <;> unfold msgDone ackLater
  · rw [pegMod_peg, hpeg]
    simp [hin, hack]
  · rw [pegMod_outs, houts, pegMod_outs, pegMod_outs]
  · exact (Stands.trans (Stands.pegMod (.refl _ d)) msgOut_stands).pegMod

section
variable {n f : Nat} {y : PegIn} {z : Desc}

/-- The oldest message of node n goes into the first descriptor of its ring. -/
theorem msgDeliver_eq (hin : d.peg.inbox = [y]) (hnode : y.node = n) (hw : y.wrote = false) (htakes : d.msgTakes n = true)
    (hring : (d.ring y.ring).taken = [z]) (hz : z.begun = false) (hfn : d.ringFn y.ring = some f) (hok : msgDescOk z = true)
    (hup : d.pm.upsets = []) (hpois : d.poisoned { cells := y.cells } = false) (x : Dev)
    (hx : x = msgFill y.ring 0 (min y.data.length (bits (z.dw 2) 0 16) + n * 2 ^ 16 + y.path * 2 ^ 21) y.ts
      ((if min y.data.length (bits (z.dw 2) 0 16) < y.data.length then 13 else 0) + y.seq * 2 ^ 4)
      (hostOut y.ring f z.addr (y.data.take (min y.data.length (bits (z.dw 2) 0 16))) d)) (hq : x.outWaits y.ring = false) :
    msgDeliver n d = msgHead y.ring (msgDone y x) := by
  have hfind : d.peg.inbox.find? (fun y => y.node == n && !y.wrote) = some y := by simp [hin, hnode, hw]
  have hhead : d.peg.inbox.find? (fun x => x.ring == y.ring && !x.wrote) = some y := by simp [hin, hw]
  have hfree : d.ringFree y.ring = some 0 := by simp [Dev.ringFree, hring, hz, List.findIdx?_cons]
  have hread : msgRead y d = (false, d) := by
    unfold msgRead readFrm
    simp only [hup, List.isEmpty_nil, if_true, hpois]
    rfl
  have hget : (d.ring y.ring).taken.getD 0 {} = z := by rw [hring]; rfl
  unfold msgDeliver
  rw [show (4097 : Nat) = 4096 + 1 from rfl, msgDeliverGo, hfind]
  simp only [htakes, hhead, hfree, hfn, hget, hread, hok]
  rw [← hx]
  simp [hq]

/-- The function of a ring shows in the registers of HIF alone. -/
theorem ringFn_congr {e : Dev} (h : ∀ g, g.off / 0x4000 = 5 → e.rd g = d.rd g) (r : Nat) : e.ringFn r = d.ringFn r := by
  have hrange (f k : Nat) (hf : f < 16) : e.range f k = d.range f k := by
    have hoff (b : Nat) (hb : 0x14100 ≤ b ∧ b < 0x14110) (g : Field) (hg : g.off = b + 0x10 * f) : e.rd g = d.rd g :=
      h g (by omega)
    unfold Dev.range
    split
    · rw [hoff _ (by decide) _ rfl, hoff _ (by decide) _ rfl]
    · rw [hoff _ (by decide) _ rfl, hoff _ (by decide) _ rfl]
    · rw [hoff _ (by decide) _ rfl, hoff _ (by decide) _ rfl]
    · rw [hoff _ (by decide) _ rfl, hoff _ (by decide) _ rfl]
    · rw [hoff _ (by decide) _ rfl, hoff _ (by decide) _ rfl]
    · rw [hoff _ (by decide) _ rfl, hoff _ (by decide) _ rfl]
    · rfl
  unfold Dev.ringFn
  refine List.find?_congr fun f hf => ?_
  rw [hrange f _ (List.mem_range.mp hf)]

theorem msgDeliverGo_refuses {k : Nat} (hfind : d.peg.inbox.find? (fun y => y.node == n && !y.wrote) = some y)
    (htakes : d.msgTakes n = false) : msgDeliverGo (k + 1) n d = msgRefuse n (msgOut (· == y) d) := by
  rw [msgDeliverGo, hfind]
  dsimp only
  rw [htakes]
  exact if_pos rfl

/-- What a refused message reports to the owner of its ring (stated of any state, so that no proof evaluates the counter). -/
def refusalTold (n : Nat) (d : Dev) : Dev :=
  match d.ringFn (d.msgRing n) with
  | some f => if d.fnState f == 1 && (d.fn f).d3 then vfEvent f 0 d else d
  | none => d

theorem msgRefuse_eq (n : Nat) (d : Dev) : msgRefuse n d = refusalTold n (d.sat PEG_MSG_REJ.COUNT) := rfl

theorem refusalTold_unowned (h : d.ringFn (d.msgRing n) = none) : refusalTold n d = d := by
  unfold refusalTold
  rw [h]

/-- A message that its ring does not take is counted. -/
theorem msgDeliver_refused (hin : d.peg.inbox = [y]) (hnode : y.node = n) (hw : y.wrote = false)
    (hroute : d.bitOf PEG_MSG_ROUTE_EN.EN n = false) (hfn : d.ringFn (d.msgRing n) = none) (hn : n < 32) :
    msgDeliver n d = (msgOut (· == y) d).sat PEG_MSG_REJ.COUNT := by
  have hfind : d.peg.inbox.find? (fun y => y.node == n && !y.wrote) = some y := by simp [hin, hnode, hw]
  have htakes : d.msgTakes n = false := by simp [Dev.msgTakes, hroute]
  have hstands := msgOut_stands (d := d) (p := (· == y))
  have hring : ((msgOut (· == y) d).sat PEG_MSG_REJ.COUNT).msgRing n = d.msgRing n := by
    have hrd : ((msgOut (· == y) d).sat PEG_MSG_REJ.COUNT).rd (PEG_MSG_ROUTEk.RING (n / 8)) = d.rd (PEG_MSG_ROUTEk.RING (n / 8)) := by
      have hk : ∀ k : Fin 4, Field.apart PEG_MSG_REJ.COUNT (PEG_MSG_ROUTEk.RING k) = true ∧ Beside pmemFields (PEG_MSG_ROUTEk.RING k) := by
        decide
      obtain ⟨hap, hbe⟩ := hk ⟨n / 8, by omega⟩
      rw [rd_sat_apart _ _ _ _ hap, hstands.rd hbe]
    rw [Dev.msgRing, Dev.msgRing, hrd]
  have hnone : ((msgOut (· == y) d).sat PEG_MSG_REJ.COUNT).ringFn (d.msgRing n) = none := by
    rw [← hfn]
    refine ringFn_congr (fun g hg => ?_) _
    have hap : ∀ f ∈ PEG_MSG_REJ.COUNT :: pmemFields, f.off / 0x4000 ≠ 5 := by decide
    rw [rd_sat_apart _ _ _ _ (apart_of_off fun h => hap _ List.mem_cons_self (h ▸ hg)),
      hstands.rd fun f hf => apart_of_off fun h => hap f (List.mem_cons_of_mem _ hf) (h ▸ hg)]
  have hgo := msgDeliverGo_refuses (k := 4096) hfind htakes
  exact hgo.trans ((msgRefuse_eq n _).trans (refusalTold_unowned (by rw [hring]; exact hnone)))

theorem msgRefused_shows (hin : d.peg.inbox = [y]) :
    Stands (Outside [16, 18, 21]) d ((msgOut (· == y) d).sat PEG_MSG_REJ.COUNT) ∧
      ((msgOut (· == y) d).sat PEG_MSG_REJ.COUNT).rd PEG_MSG_REJ.COUNT =
        min (d.rd PEG_MSG_REJ.COUNT + 1) (2 ^ PEG_MSG_REJ.COUNT.w - 1) ∧
      ((msgOut (· == y) d).sat PEG_MSG_REJ.COUNT).peg = { d.peg with inbox := [] } ∧
      ((msgOut (· == y) d).sat PEG_MSG_REJ.COUNT).outs = d.outs := by
  have hstands := msgOut_stands (d := d) (p := (· == y))
  have hcells := msgOut_cells (d := d) (· == y)
  refine ⟨Stands.sat (hstands.inBlocks (by decide)) (.inBlock (by decide)), ?_, ?_, ?_⟩
  · rw [rd_sat_same _ _ _ (by decide), hstands.rd (by decide)]
  · rw [sat_peg, hcells.part Dev.peg fun _ _ _ => rfl, pegMod_peg]
    simp [hin]
  · rw [sat_outs, hcells.part Dev.outs fun _ _ _ => rfl, pegMod_outs]

/-- What a delivery shows. -/
theorem msgDeliver_shows (hin : d.peg.inbox = [y]) (hnode : y.node = n) (hw : y.wrote = false) (htakes : d.msgTakes n = true)
    (hyr : y.ring = d.msgRing n) (hring : (d.ring y.ring).taken = [z]) (hz : z.begun = false) (hfn : d.ringFn y.ring = some f)
    (hok : msgDescOk z = true) (hack : d.peg.ackDue = []) (hlen : d.peg.lastRx.length = 32) (hbme : (d.fn f).bme = true)
    (hdl : d.on HIF_STATUS.DL_UP = true) (hp : d.paced true y.ring = false) (hq : d.outWaits y.ring = false)
    (hup : d.pm.upsets = []) (hpois : d.poisoned { cells := y.cells } = false) (hn : n < 32) :
    (msgDeliver n d).peg.inbox = [] ∧ (msgDeliver n d).peg.lastRx.getD n none = some y.seq ∧ (msgDeliver n d).peg.ackDue = [n] ∧
      d.outs ++ payOuts f z.addr (y.data.take (min y.data.length (bits (z.dw 2) 0 16))) d <+: (msgDeliver n d).outs ∧
      (msgDeliver n d).rd PEG_MSG_REJ.COUNT = d.rd PEG_MSG_REJ.COUNT := by
  have hlive : d.fnLive f = true := by
    have ht := htakes
    unfold Dev.msgTakes at ht
    rw [← hyr] at ht
    simp only [hfn, Bool.and_eq_true] at ht
    obtain ⟨-, hst, hd3⟩ := ht
    simp only [Dev.fnLive, hst, hd3, hbme, hdl, Bool.and_self]
  have hout := hostOut_live (bs := y.data.take (min y.data.length (bits (z.dw 2) 0 16))) (addr := z.addr) hlive hp hq
  generalize hb : y.data.take (min y.data.length (bits (z.dw 2) 0 16)) = bs at hout ⊢
  generalize hl : d.outs ++ payOuts f z.addr bs d = os at *
  have hosts : Dev.rd { d with outs := os } PEG_MSG_REJ.COUNT = d.rd PEG_MSG_REJ.COUNT := rfl
  obtain ⟨x, hx⟩ : ∃ x, x = msgFill y.ring 0 (min y.data.length (bits (z.dw 2) 0 16) + n * 2 ^ 16 + y.path * 2 ^ 21) y.ts
      ((if min y.data.length (bits (z.dw 2) 0 16) < y.data.length then 13 else 0) + y.seq * 2 ^ 4) { d with outs := os } :=
    ⟨_, rfl⟩
  have hsends : Sends { d with outs := os } x := hx ▸ msgFill_sends
  have hxq : x.outWaits y.ring = false := by
    rw [← hq, Dev.outWaits, Dev.outWaits, hsends.outq]
  have hwork : Work (Beside tagFields) { d with outs := os } x := hx ▸ msgFill_work (free_listed (List.Subset.refl _))
  have hpeg : x.peg = d.peg :=
    hwork.part Dev.peg fun _ _ _ _ _ => rfl
  have hwhole := msgDeliver_eq hin hnode hw htakes hring hz hfn hok hup hpois x (by rw [hb, hout]; exact hx) hxq
  obtain ⟨hdpeg, hdouts, hdstands⟩ := msgDone_shows (d := x) (y := y) (by rw [hpeg, hin]) (by rw [hpeg, hack])
  rw [msgHead_empty (by rw [hdpeg])] at hwhole
  rw [hwhole, hdpeg, hdouts, hpeg]
  refine ⟨rfl, ?_, by rw [hnode], hsends.outs, ?_⟩
  · simp [List.getD, hnode, hlen, hn]
  · rw [hdstands.rd (by decide), hwork.reads _ (by decide)]
    exact hosts

end

end

end Sys2Proof.Machine
end

section
/-!
PROOFS. Messages not acknowledged; the obligation on messages and spare slots (R250 to R255).
-/

namespace Sys2Proof.Machine

/-! ### A message without an acknowledgement (R250) -/

section
variable {d : Dev} {x : PegMsg} {r : Nat}

/-- The only message, sent in round r, is due at its destination. -/
theorem msgAckTimeout_due (hst : d.pst = 3) (hm : d.peg.msgs = [x]) (hs : x.sent = some r)
    (hdue : r + d.rd PEG_MSG_CFG.ACK_RND ≤ d.frameExt / 16) : msgAckTimeout x.dest d =
      if d.rd PEG_MSG_CFG.RETRIES ≤ x.reps then msgGiveUp (fun m => m.dest == x.dest) d
      else d.pegMod fun p => { p with msgs := [{ x with off := 0, sent := none, reps := x.reps + 1,
                                                        after := r + d.rd PEG_MSG_CFG.ACK_RND + 1 }] } := by
  unfold msgAckTimeout
  simp [hst, hm, hs, hdue, Dev.pegMod]

theorem msgNoAck_one {P : Field → Prop} {p : PegMsg → Bool} (hP : ∀ f ∈ tagFields, Free P f) (hm : d.peg.msgs = [x])
    (hp : p x = true) : Work P (d.pegMod fun q => { q with msgs := [], synDue := q.synDue.set x.dest true }) (msgNoAck p d) := by
  have heq : msgNoAck p d = msgReturn 9 0 x (d.pegMod fun q => { q with msgs := [], synDue := q.synDue.set x.dest true }) := by
    unfold msgNoAck
    simp [hm, hp, Dev.pegMod]
  rw [heq]
  exact ((Work.refl P _).setRing.retire hP).ringQuiesce hP

/-- The last repeat stands without an acknowledgement. -/
theorem msgGiveUp_one {p : PegMsg → Bool} (hm : d.peg.msgs = [x]) (hp : p x = true) :
    (msgGiveUp p d).peg = { d.peg with msgs := [], synDue := d.peg.synDue.set x.dest true } ∧
      (msgGiveUp p d).rd PEG_MSG_NOACK.COUNT = min (d.rd PEG_MSG_NOACK.COUNT + 1) (2 ^ PEG_MSG_NOACK.COUNT.w - 1) ∧
      (msgGiveUp p d).rd PEG_EVENT.MSG_NOACK = 1 := by
  have heq : msgGiveUp p d = ((msgNoAck p d).sat PEG_MSG_NOACK.COUNT 1).ev PEG_EVENT.MSG_NOACK := by
    unfold msgGiveUp
    simp [hm, hp]
  have hwork := msgNoAck_one (free_listed (List.Subset.refl tagFields)) hm hp
  have hpeg := hwork.part Dev.peg fun _ _ _ _ _ => rfl
  have hcount := hwork.reads PEG_MSG_NOACK.COUNT (by decide)
  generalize msgNoAck p d = e at *
  rw [heq]
  refine ⟨?_, ?_, (rd_ev_same (by decide)).trans (by decide)⟩
  · rw [Dev.ev, wr_peg, sat_peg, hpeg, pegMod_peg]
  · rw [rd_ev_apart _ _ _ (by decide), rd_sat_same _ _ _ (by decide), hcount]
    rfl

end

/-! ### Messages and spare slots -/

theorem payOuts_listed {d e : Dev} {f addr : Nat} {bs : Bytes} (h : d.outs ++ payOuts f addr bs d <+: e.outs)
    {c : Nat × Nat × Nat} (hc : c ∈ reqChunks (max 1 (min (d.fn f).mps 512)) (bs.length + 1) addr 0 bs.length) :
    Out.hostWrite f c.1 (slice bs c.2.1 c.2.2) (d.fn f).relax ∈ e.outs :=
  h.subset (List.mem_append_right _ (List.mem_map_of_mem hc))

/-- A slot given up: its owner byte and the event alone move. -/
theorem spareRelease_own {d : Dev} {k : Fin 64} (hown : d.spareOwner k = some d.node) :
    spareRelease k d = setSpare k none (d.wr PEG_SPARE_CTRL.SLOT k) := by
  have hslot := spareOwner_congr (k := k) (rd_wr_apart d PEG_SPARE_CTRL.SLOT _ k (owner_apart k _ (by decide)))
  have hnode : (d.wr PEG_SPARE_CTRL.SLOT k).node = d.node := rd_wr_apart d _ _ _ (by decide)
  exact if_pos (by rw [hslot, hnode, hown])

theorem spareRelease_shows {d : Dev} {k : Fin 64} (hown : d.spareOwner k = some d.node) :
    Stands (Beside [PEG_SPARE_CTRL.SLOT, PEG_SPARE_OWNk.OWN (k / 4), PEG_EVENT.SPARE_CHG]) d (spareRelease k d) ∧
      (spareRelease k d).spareOwner k = none ∧
      (∀ j : Fin 64, j ≠ k → (spareRelease k d).spareOwner j = d.spareOwner j) ∧
      (spareRelease k d).rd PEG_EVENT.SPARE_CHG = 1 ∧ (spareRelease k d).peg = d.peg := by
  have hslot (j : Nat) := spareOwner_congr (k := j) (rd_wr_apart d PEG_SPARE_CTRL.SLOT _ k (owner_apart j _ (by decide)))
  obtain ⟨hstands, hfreed, hothers, hev, hpeg⟩ :=
    setSpare_frees (d := d.wr PEG_SPARE_CTRL.SLOT k) k (by rw [hslot, hown]; exact Option.some_ne_none _)
  rw [spareRelease_own hown]
  refine ⟨?_, hfreed, fun j hj => (hothers j hj).trans (hslot j), hev, hpeg.trans (wr_peg ..)⟩
  have hwide : Stands (Beside [PEG_SPARE_CTRL.SLOT, PEG_SPARE_OWNk.OWN (k / 4), PEG_EVENT.SPARE_CHG])
      (d.wr PEG_SPARE_CTRL.SLOT k) (setSpare k none (d.wr PEG_SPARE_CTRL.SLOT k)) :=
    hstands.widen (fun _ => List.mem_cons_of_mem _)
  exact Stands.trans ((Stands.refl _ d).wr (.listed (by simp))) hwide

theorem spareLapse_due {d : Dev} {k : Fin 64} {o : Nat} (hown : d.spareOwner k = some o) (hs : 32 ≤ d.peg.silent.getD k 0) :
    spareLapse k d = setSpare k none d := by
  unfold spareLapse
  rw [hown]
  exact if_pos hs

theorem not_claimable {d : Dev} {k : Fin 64}
    (h : d.pst ≠ 3 ∨ (d.opSlot k).type ≠ 1 ∨ (d.opSlot k).paths = 0 ∨ (d.spareOwner k).isSome = true ∨
      d.peg.silent.getD k 0 < 33) : ¬d.claimable k := by
  rintro ⟨hst, hty, hpaths, hnone, hsil⟩
  rcases h with h | h | h | h | h
  · exact h hst
  · exact h hty
  · exact hpaths h
  · rw [Option.isNone_iff_eq_none.mp hnone] at h
    cases h
  · omega

/-- Settles O30: a message by what its delivery and its timeout do to the queues, a spare slot by its owner byte. -/
theorem peglineMessagesAndSpares : Obligations.PeglineMessagesAndSpares := by
  unfold Obligations.PeglineMessagesAndSpares
  intro s
  refine ⟨fun n y z f hin hnode hw htakes hyr hring hz hfn hok hack hlen hbme hdl hp hq hup hpois => ?_,
    fun n y hin hnode hw hroute hfn => ?_, fun dest x rd hst hm hd hs hdue hreps => ?_,
    fun dest x rd hst hm hd hs hdue hreps hlen => ?_, fun k ht hb hst hty hpaths hown hsil => ?_, fun k ht hb hno => ?_,
    fun hc hb hown => ?_, fun k ht hown => ?_, fun k o hown hsil => ?_⟩
  · refine ends_run (f := msgDeliver n) (fun _ => rfl) ?_
    obtain ⟨hi, hl, ha, hpre, hcount⟩ := msgDeliver_shows (d := s.quiet) hin hnode hw htakes hyr hring hz hfn hok hack hlen hbme
      hdl hp hq hup hpois n.isLt
    refine ⟨hi, hl, ha, fun c hc => ?_, hcount⟩
    have hlen' : (y.data.take (min y.data.length (bits (z.dw 2) 0 16))).length = min y.data.length (bits (z.dw 2) 0 16) := by
      rw [List.length_take]
      omega
    exact payOuts_listed hpre (by rw [hlen']; exact hc)
  · refine ends_run (f := msgDeliver n) (fun _ => rfl) ?_
    obtain ⟨hstands, hcount, hpeg, houts⟩ := msgRefused_shows (d := s.quiet) hin
    rw [msgDeliver_refused (d := s.quiet) hin hnode hw hroute hfn n.isLt]
    exact ⟨hstands.within, hstands.2, hcount, hpeg, houts⟩
  · refine does_run (f := msgAckTimeout dest) (fun _ => rfl) ?_
    have hnot : ¬s.quiet.rd PEG_MSG_CFG.RETRIES ≤ x.reps := Nat.not_le.mpr hreps
    rw [← hd, msgAckTimeout_due (d := s.quiet) hst hm hs hdue, if_neg hnot]
    exact ⟨(Wrote.refl _).pegMod, rfl⟩
  · refine ends_run (f := msgAckTimeout dest) (fun _ => rfl) ?_
    obtain ⟨hpeg, hcount, hev⟩ := msgGiveUp_one (d := s.quiet) (p := fun m => m.dest == x.dest) hm (beq_self_eq_true _)
    have hspent : s.quiet.rd PEG_MSG_CFG.RETRIES ≤ x.reps := hreps
    rw [← hd, msgAckTimeout_due (d := s.quiet) hst hm hs hdue, if_pos hspent, hpeg]
    refine ⟨rfl, ?_, hcount, hev⟩
    have hlt : x.dest < s.dev.peg.synDue.length := by rw [hlen, hd]; exact dest.isLt
    simp [List.getD, hlt]
  · exact does_soft (k := 1) (f := spareClaim k) (fun _ => rfl) ht
      (spareClaim_taken (d := s.quiet) k hb ⟨hst, hty, hpaths, by rw [show s.quiet.spareOwner k = none from hown]; rfl, hsil⟩)
  · exact does_soft (k := 1) (f := spareClaim k) (fun _ => rfl) ht
      (spareClaim_refused (d := s.quiet) k hb (not_claimable hno))
  · refine does_run (f := claimBackoffEnd) (fun _ => rfl) ?_
    have heq : claimBackoffEnd s.quiet = s.quiet.pegMod fun p => { p with claim := 1 } :=
      if_pos ⟨hc, hb, by rw [show s.quiet.spareOwner _ = none from hown]; rfl⟩
    rw [heq]
    exact ⟨(Wrote.refl _).pegMod, rfl⟩
  · refine ends_soft (k := 1) (f := spareRelease k) (fun _ => rfl) ht ?_
    obtain ⟨hstands, hrest⟩ := spareRelease_shows (d := s.quiet) hown
    exact ⟨hstands.only, hstands.2, hrest⟩
  · refine ends_run (f := spareLapse k) (fun _ => rfl) ?_
    rw [spareLapse_due (d := s.quiet) hown hsil]
    obtain ⟨hstands, hrest⟩ := setSpare_frees (d := s.quiet) k (by rw [show s.quiet.spareOwner k = _ from hown]; exact Option.some_ne_none _)
    exact ⟨hstands.only, hstands.2, hrest⟩

end Sys2Proof.Machine
end

section
/-!
PROOFS. Refreshes owed, forced recalibrations, CHECK (R219, R222, R230).
-/

namespace Sys2Proof.Machine

section
variable {d e : Dev}

/-! ### Refreshes owed (R219) -/

theorem refreshOwe_below {b : Nat} (h : d.pm.owed.getD b 0 < 7) : refreshOwe b d =
    (d.wr PMC_REF_OWED_MAX.OWED (max (d.rd PMC_REF_OWED_MAX.OWED) (d.pm.owed.getD b 0 + 1))).pmMod fun p =>
      { p with owed := p.owed.set b (d.pm.owed.getD b 0 + 1) } := if_pos (Nat.add_lt_add_right h 1)

/-- The eighth refresh owed by bank b is forced. -/
def refreshPaid (b n : Nat) (d : Dev) : Dev :=
  (((d.wr PMC_REF_OWED_MAX.OWED (max (d.rd PMC_REF_OWED_MAX.OWED) n)).pmMod fun p => { p with owed := p.owed.set b 7 }).sat
    PMC_REF_FORCED.COUNT).ev PMC_EVENT.REF_FORCED

theorem refreshOwe_eighth {b n : Nat} (hn : d.pm.owed.getD b 0 + 1 = n) (h : ¬n < 8) :
    refreshOwe b d = penalty 18 (refreshPaid b n d) := by
  rw [← hn] at h ⊢
  exact if_neg h

theorem max_eight_lt {x : Nat} (h : x < 2 ^ PMC_REF_OWED_MAX.OWED.w) : max x 8 < 2 ^ PMC_REF_OWED_MAX.OWED.w :=
  max_lt h (by decide)

theorem refreshPaid_wrote (b : Nat) (d : Dev) : Wrote d (refreshPaid b 8 d)
    [(PMC_REF_OWED_MAX.OWED, max (d.rd PMC_REF_OWED_MAX.OWED) 8),
     (PMC_REF_FORCED.COUNT, min (d.rd PMC_REF_FORCED.COUNT + 1) (2 ^ PMC_REF_FORCED.COUNT.w - 1)), (PMC_EVENT.REF_FORCED, 1)] := by
  have howed : Wrote d _ [(PMC_REF_OWED_MAX.OWED, max (d.rd PMC_REF_OWED_MAX.OWED) 8)] :=
    (Wrote.refl d).wr (by decide) (max_eight_lt (rd_lt d _))
  have hset : Wrote d ((d.wr PMC_REF_OWED_MAX.OWED (max (d.rd PMC_REF_OWED_MAX.OWED) 8)).pmMod fun p =>
      { p with owed := p.owed.set b 7 }) [(PMC_REF_OWED_MAX.OWED, max (d.rd PMC_REF_OWED_MAX.OWED) 8)] := howed.parts rfl rfl
  exact (hset.sat (f := PMC_REF_FORCED.COUNT) (n := 1)
    (show fits PMC_REF_FORCED.COUNT [(PMC_REF_OWED_MAX.OWED, 0)] = true by decide)).ev
    (show fits PMC_EVENT.REF_FORCED [(PMC_REF_OWED_MAX.OWED, 0), (PMC_REF_FORCED.COUNT, 0)] = true by decide) Nat.one_pos

theorem refreshPaid_pm (b n : Nat) (d : Dev) : (refreshPaid b n d).pm = { d.pm with owed := d.pm.owed.set b 7 } := by
  rw [refreshPaid, ev_pm, sat_pm, pmMod_pm, wr_pm]

theorem refreshForced_awake {b paid taken : Nat} (hpd : d.pd 2 = true) (hsr : d.on RAT_DOM_STATUS.PMEM_SR = false) :
    refreshForced b paid taken d = (List.range taken).foldl (fun d _ => refreshOwe b d)
      (d.pmMod fun p => { p with owed := p.owed.set b (p.owed.getD b 0 - paid) }) :=
  if_pos (by rw [hpd, hsr]; rfl)

theorem refreshForced_asleep {b paid taken : Nat} (h : d.pd 2 = false ∨ d.on RAT_DOM_STATUS.PMEM_SR = true) :
    refreshForced b paid taken d = d :=
  if_neg (by rcases h with h | h <;> simp [h])

theorem owed_paid {b : Nat} (v : Nat) (hb : b < d.pm.owed.length) :
    (d.pmMod fun p => { p with owed := p.owed.set b v }).pm.owed.getD b 0 = v := by
  rw [pmMod_pm]
  simp [List.getD, hb]

/-! ### A recalibration forced (R230) -/

/-- What a forced recalibration writes. -/
def recalFields : List Field := [PMC_RECAL_FORCED.LANES, PMC_EVENT.RECAL_FORCED, SHD_PENj.PEN 4]

/-- The count of a lane in PMC_RECAL_FORCED. -/
def recalCounts (lane : Nat) (d : Dev) : Nat :=
  setBits (d.rd PMC_RECAL_FORCED.LANES) (4 * lane) 4 (min (bits (d.rd PMC_RECAL_FORCED.LANES) (4 * lane) 4 + 1) 15)

theorem recalCounts_at {lane lo : Nat} (h : 4 * lane = lo) : recalCounts lane d =
    setBits (d.rd PMC_RECAL_FORCED.LANES) lo 4 (min (bits (d.rd PMC_RECAL_FORCED.LANES) lo 4 + 1) 15) := by
  rw [recalCounts, h]

theorem recalCount_wrote (lane : Fin 7) (d : Dev) : Wrote d
    ((d.wr PMC_RECAL_FORCED.LANES (recalCounts lane d)).ev PMC_EVENT.RECAL_FORCED)
    [(PMC_RECAL_FORCED.LANES, recalCounts lane d), (PMC_EVENT.RECAL_FORCED, 1)] :=
  ((Wrote.refl d).wr (f := PMC_RECAL_FORCED.LANES) (by decide)
    (setBits_lt (rd_lt d PMC_RECAL_FORCED.LANES) (show 4 * lane.val + 4 ≤ 28 by omega))).ev
    (show fits PMC_EVENT.RECAL_FORCED [(PMC_RECAL_FORCED.LANES, 0)] = true by decide) Nat.one_pos

theorem recalCount_beyond (lane : Nat) : Beyond d (recalCount lane d) := .trans (.ev (.wr (.refl d))) (penalty_beyond 18)

theorem recalCount_shows (lane : Fin 7) (d : Dev) : Stands (Beside recalFields) d (recalCount lane d) ∧
    (recalCount lane d).rd PMC_RECAL_FORCED.LANES = recalCounts lane d ∧ (recalCount lane d).rd PMC_EVENT.RECAL_FORCED = 1 := by
  have hwrote := recalCount_wrote lane d
  have hcount : recalCount lane d = penalty 18 ((d.wr PMC_RECAL_FORCED.LANES (recalCounts lane d)).ev PMC_EVENT.RECAL_FORCED) := rfl
  have hmarks : Stands (Beside [PMC_RECAL_FORCED.LANES, PMC_EVENT.RECAL_FORCED]) d _ := hwrote.beside
  have hlanes := hwrote.nth 0 rfl
  have hev := hwrote.nth 1 rfl
  rw [hcount]
  generalize (d.wr PMC_RECAL_FORCED.LANES (recalCounts lane d)).ev PMC_EVENT.RECAL_FORCED = x at *
  have hpen : Stands (Beside [SHD_PENj.PEN 4]) x (penalty 18 x) := penalty_stands (.listed (by simp))
  exact ⟨(hmarks.widen (by decide)).trans (hpen.widen (by decide)), (hpen.rd (by decide)).trans hlanes, (hpen.rd (by decide)).trans hev⟩

theorem recalForced_uplink {lane m : Nat} (hl : lane < 4) (hpd : d.pd 1 = true) (hon : d.bitOf RAT_DOM_STATUS.LANE_ON lane = true)
    (hfr : 8008 ≤ (d.ch lane).recalFr) (hrec : (d.ch lane).recal = false) (hdue : (d.ch lane).recalDue = false) :
    recalForced lane m d =
      recalGo lane (recalCount lane ((atMote m d).chMod lane fun c => { c with recalDue := true })) := by
  have hmote := Stands.atMote (P := fun _ => True) m d
  have hpd' : (atMote m d).pd 1 = true := by rw [← hpd, Dev.pd, Dev.pd, Dev.bitOf, Dev.bitOf, hmote.rd trivial]
  have hon' : (atMote m d).bitOf RAT_DOM_STATUS.LANE_ON lane = true := by rw [← hon, Dev.bitOf, Dev.bitOf, hmote.rd trivial]
  have hch : (atMote m d).ch lane = d.ch lane := by simp [Dev.ch]
  unfold recalForced
  dsimp only
  rw [if_pos hl, hch, hpd', hon', hrec, hdue]
  refine if_pos ?_
  have h8000 : 8000 ≤ (d.ch lane).recalFr := by omega
  simp [hfr, h8000]

/-- The lane starts at once on an idle wire, and waits for one otherwise. -/
theorem recalGo_idle {n : Nat} (hdue : (d.ch n).recalDue = true) (hidle : d.wireIdle n = true) : recalGo n d =
    (d.wrB (CHn_GATE_STATUS.CAL_ACTIVE n) true).chMod n fun c => { c with recalDue := false, recal := true } :=
  if_pos (by rw [hdue, hidle]; rfl)

theorem recalGo_waits {n : Nat} (hidle : d.wireIdle n = false) : recalGo n d = d :=
  if_neg (by rw [hidle]; simp)

theorem calActive_apart : ∀ n : Fin 4, fits (CHn_GATE_STATUS.CAL_ACTIVE n) [] = true ∧
    ∀ f ∈ recalFields, Field.apart (CHn_GATE_STATUS.CAL_ACTIVE n) f = true := by decide

/-- A forced recalibration of an uplink lane, to where the wire is looked at. -/
theorem recalCount_uplink (lane : Fin 7) (m : Nat) (hlen : lane < d.chan.length) (x : Dev)
    (hx : x = recalCount lane ((atMote m d).chMod lane fun c => { c with recalDue := true })) :
    Stands (Beside recalFields) d x ∧ x.rd PMC_RECAL_FORCED.LANES = recalCounts lane d ∧ x.rd PMC_EVENT.RECAL_FORCED = 1 ∧
      x.chan.length = d.chan.length ∧ x.ch lane = { d.ch lane with recalDue := true } := by
  have hmote : Stands (fun _ => True) d (atMote m d) := .atMote m d
  have hchans : (atMote m d).chan = d.chan := by simp
  generalize atMote m d = w at *
  have hbare : Stands (fun _ => True) d (w.chMod lane fun c => { c with recalDue := true }) := hmote.parts rfl rfl
  have hch := ch_chMod (d := w) (n := lane.val) (g := fun c => { c with recalDue := true }) (by rw [hchans]; exact hlen)
  have hlength := chan_length (d := w) (n := lane.val) fun c => { c with recalDue := true }
  generalize w.chMod lane (fun c => { c with recalDue := true }) = y at *
  have hcounts : recalCounts lane y = recalCounts lane d := by rw [recalCounts, recalCounts, hbare.rd trivial]
  obtain ⟨hstands, hlanes, hev⟩ := recalCount_shows lane y
  have hchan := (recalCount_beyond (d := y) lane).chan
  rw [hx]
  refine ⟨.trans ⟨fun g _ => hbare.rd trivial, hbare.2⟩ hstands, hlanes.trans hcounts, hev, ?_, ?_⟩
  · rw [hchan, hlength, hchans]
  · rw [Dev.ch, hchan, ← Dev.ch, hch, Dev.ch, hchans]
    rfl

theorem recalForced_shows (lane : Fin 7) (m : Nat) (hl : lane.val < 4) (hpd : d.pd 1 = true)
    (hon : d.bitOf RAT_DOM_STATUS.LANE_ON lane = true) (hfr : 8008 ≤ (d.ch lane).recalFr) (hrec : (d.ch lane).recal = false)
    (hdue : (d.ch lane).recalDue = false) (hlen : d.chan.length = 4) : ∃ x, Stands (Beside recalFields) d x ∧
      x.rd PMC_RECAL_FORCED.LANES = recalCounts lane d ∧ x.rd PMC_EVENT.RECAL_FORCED = 1 ∧ x.chan.length = 4 ∧
      x.ch lane = { d.ch lane with recalDue := true } ∧ recalForced lane m d = recalGo lane x := by
  obtain ⟨hstands, hlanes, hev, hlength, hch⟩ := recalCount_uplink lane m (by rw [hlen]; exact hl) _ rfl
  exact ⟨_, hstands, hlanes, hev, hlength.trans hlen, hch, recalForced_uplink hl hpd hon hfr hrec hdue⟩

theorem recalForced_idle (lane : Fin 7) (m : Nat) (hl : lane.val < 4) (hpd : d.pd 1 = true)
    (hon : d.bitOf RAT_DOM_STATUS.LANE_ON lane = true) (hfr : 8008 ≤ (d.ch lane).recalFr) (hrec : (d.ch lane).recal = false)
    (hdue : (d.ch lane).recalDue = false) (hlen : d.chan.length = 4) (hidle : d.wireIdle lane = true) :
    Stands (Beside [PMC_RECAL_FORCED.LANES, PMC_EVENT.RECAL_FORCED, CHn_GATE_STATUS.CAL_ACTIVE lane, SHD_PENj.PEN 4]) d
      (recalForced lane m d) ∧ (recalForced lane m d).rd PMC_RECAL_FORCED.LANES = recalCounts lane d ∧
      (recalForced lane m d).rd PMC_EVENT.RECAL_FORCED = 1 ∧ (recalForced lane m d).rd (CHn_GATE_STATUS.CAL_ACTIVE lane) = 1 ∧
      ((recalForced lane m d).ch lane).recal = true := by
  obtain ⟨x, hstands, hlanes, hev, hlength, hch, he⟩ := recalForced_shows lane m hl hpd hon hfr hrec hdue hlen
  obtain ⟨hfit, hap⟩ := calActive_apart ⟨lane, hl⟩
  have hactive := ((Wrote.refl x).wrB (b := true) hfit Nat.one_pos).chMod (n := lane)
    (g := fun c => { c with recalDue := false, recal := true })
  have hbeside : Stands (Beside [CHn_GATE_STATUS.CAL_ACTIVE lane]) x _ := hactive.beside
  rw [he, recalGo_idle (by rw [hch]) (by rw [Dev.wireIdle, hch]; exact hidle)]
  refine ⟨(hstands.widen ?_).trans (hbeside.widen (by simp)), ?_, ?_, hactive.nth 0 rfl, ?_⟩
  · simp [recalFields]
  · exact (rd_wr_apart x _ _ _ (hap _ (by simp [recalFields]))).trans hlanes
  · exact (rd_wr_apart x _ _ _ (hap _ (by simp [recalFields]))).trans hev
  · rw [ch_chMod (by rw [wrB_chan, hlength]; exact hl)]

theorem recalForced_busy (lane : Fin 7) (m : Nat) (hl : lane.val < 4) (hpd : d.pd 1 = true)
    (hon : d.bitOf RAT_DOM_STATUS.LANE_ON lane = true) (hfr : 8008 ≤ (d.ch lane).recalFr) (hrec : (d.ch lane).recal = false)
    (hdue : (d.ch lane).recalDue = false) (hlen : d.chan.length = 4) (hidle : d.wireIdle lane = false) :
    Stands (Beside recalFields) d (recalForced lane m d) ∧ (recalForced lane m d).rd PMC_EVENT.RECAL_FORCED = 1 ∧
      ((recalForced lane m d).ch lane).recal = false ∧ ((recalForced lane m d).ch lane).recalDue = true := by
  obtain ⟨x, hstands, -, hev, -, hch, he⟩ := recalForced_shows lane m hl hpd hon hfr hrec hdue hlen
  rw [he, recalGo_waits (by rw [Dev.wireIdle, hch]; exact hidle), hch]
  exact ⟨hstands, hev, hrec, rfl⟩

/-- A Pegline chain recalibrates between slots. -/
theorem recalForced_peg (lane : Fin 7) (m : Nat) (hl : lane.val = 4 ∨ lane.val = 5) (hon : d.on RAT_DOM_STATUS.PEG_LANES_ON = true)
    (hdue : 8000 ≤ if lane.val = 4 then d.peg.recalA else d.peg.recalB) (hidle : (atMote m d).pegIdle = true) :
    recalForced lane m d = recalCount lane ((atMote m d).pegMod fun p =>
      if lane.val = 4 then { p with recalA := 0 } else { p with recalB := 0 }) := by
  have hpeg : (atMote m d).peg = d.peg := by
    obtain ⟨h, he⟩ := atMote_eq m d
    rw [he]
  have hon' : (atMote m d).on RAT_DOM_STATUS.PEG_LANES_ON = true := by
    rw [← hon, Dev.on, Dev.on, (Stands.atMote (P := fun _ => True) m d).rd trivial]
  unfold recalForced
  dsimp only
  rw [if_neg (by omega), if_pos (by omega), hpeg, hon', hidle]
  exact if_pos (by simpa using hdue)

theorem recalForced_leash (lane : Fin 7) (m : Nat) (hl : lane.val = 6) (hon : d.laneOn = true) (hdue : 8000 ≤ d.lsh.recalFr) (hrec : (atMote m d).laneRecal = false) :
    recalForced lane m d = laneRecalGo (recalCount lane (atMote m d)) := by
  have hlsh : (atMote m d).lsh = d.lsh := by
    obtain ⟨h, he⟩ := atMote_eq m d
    rw [he]
  have hon' : (atMote m d).laneOn = true := by
    rw [← hon, Dev.laneOn, Dev.laneOn, (Stands.atMote (P := fun _ => True) m d).on trivial]
  unfold recalForced
  dsimp only
  rw [if_neg (by omega), if_neg (by omega), hlsh, hon', hrec]
  exact if_pos (by simpa using hdue)

end

end Sys2Proof.Machine
end

section
/-!
PROOFS. CHECK; the scrub; the obligation on packet memory's background work (R217 to R230).
-/

namespace Sys2Proof.Machine

/-! ### CHECK (R222, R224) -/

section
variable {d : Dev} {v : Nat}

theorem chTerm_check {n b g : Nat} (hn : n < 4) : (d.wr PMC_CTRL.CHECK_CH v).chTerm n b g = d.chTerm n b g := by
  have hcyc := rd_wr_off d PMC_CTRL.CHECK_CH (CHn_GATE_Bb_CYCLE.CYCLE n b) v
    (show 0x20618 + 0x4000 * n + 0x10 * b ≠ 0x40000 by omega)
  have hrate := rd_wr_off d PMC_CTRL.CHECK_CH (CHn_CTRL.RATE n) v (show 0x20000 + 0x4000 * n ≠ 0x40000 by omega)
  have hlen := rd_wr_off d PMC_CTRL.CHECK_CH (CHn_GATE_Bb_LEN.LEN n b) v
    (show 0x2061C + 0x4000 * n + 0x10 * b ≠ 0x40000 by omega)
  have hword (e k : Nat) : (d.wr PMC_CTRL.CHECK_CH v).gateWord n b e k = d.gateWord n b e k := by
    rw [Dev.gateWord, Dev.gateWord, word_eq_rd, word_eq_rd]
    exact rd_wr_off d _ _ v (show 0x200000 + n * 0x4000 + b * 0x2000 + 8 * e + 4 * k ≠ 0x40000 by omega)
  have hlist : (d.wr PMC_CTRL.CHECK_CH v).gateList n b = d.gateList n b := by
    unfold Dev.gateList
    simp only [hlen, hword]
  rw [Dev.chTerm, Dev.chTerm, hcyc, hrate, hlist]

theorem banksWith_check {n : Nat} (hn : n < 5) : (d.wr PMC_CTRL.CHECK_CH v).banksWith n = d.banksWith n := by
  have hboot := rd_wr_off d PMC_CTRL.CHECK_CH (CHn_GATE_CTRL.BOOT_BANK n) v (show 0x20600 + 0x4000 * n ≠ 0x40000 by omega)
  have hadmin : (d.wr PMC_CTRL.CHECK_CH v).adminBank n = d.adminBank n := by
    unfold Dev.adminBank
    rw [hboot]
    rfl
  have hguar : (d.wr PMC_CTRL.CHECK_CH v).guarBits n = d.guarBits n := by
    unfold Dev.guarBits
    refine List.foldl_ext _ _ _ fun a k hk => ?_
    have hk8 : k < 8 := List.mem_range.mp hk
    rw [Dev.on, Dev.on, rd_wr_off d PMC_CTRL.CHECK_CH (CHn_TCk_CFG.GUAR n k) v
      (show 0x20640 + 0x4000 * n + 0x4 * k ≠ 0x40000 by omega)]
  have hnow (k : Nat) : (d.wr PMC_CTRL.CHECK_CH v).bankNow k = d.bankNow k := by
    have hlatch := rd_wr_apart d PMC_CTRL.CHECK_CH PMC_GUAR_LATCH.GUAR v (by decide)
    rw [Dev.bankNow, Dev.bankNow, Dev.guarLatch, Dev.guarLatch, hlatch, Dev.ch, Dev.ch, wr_chan]
  unfold Dev.banksWith
  simp only [hadmin, hguar, hnow]

theorem admission_check {banks : List (Option (Nat × Nat))} {slots : List (Nat × Nat)} :
    admission banks slots (d.wr PMC_CTRL.CHECK_CH v) = admission banks slots d := by
  have hresv := rd_wr_apart d PMC_CTRL.CHECK_CH DMA_RESV.BANK_SLOTS v (by decide)
  have hbg := rd_wr_apart d PMC_CTRL.CHECK_CH PMC_BG_RESV.SLOTS v (by decide)
  have hpct := rd_wr_apart d PMC_CTRL.CHECK_CH PMC_ADMIT_LIMIT.PCT v (by decide)
  have hterm (n : Fin 4) (b g : Nat) : (d.wr PMC_CTRL.CHECK_CH v).chTerm n b g = d.chTerm n b g := chTerm_check n.isLt
  unfold admission
  rw [hresv, hbg, hpct, show List.range 4 = [(0 : Fin 4).val, (1 : Fin 4).val, (2 : Fin 4).val, (3 : Fin 4).val] from rfl]
  simp only [List.map_cons, List.map_nil, hterm]

theorem admitSums_total (a : Admission) (d : Dev) :
    (admitSums a d).rd PMC_LAST_SUM.SLOTS = a.total % 2 ^ PMC_LAST_SUM.SLOTS.w := by
  have hrest : Stands (Beside reportFields.tail) (d.wr PMC_LAST_SUM.SLOTS a.total) (admitSums a d) :=
    ((Stands.refl _ _).forN fun n hn _ hx => hx.wr (.listed (by
      have hlisted : ∀ n : Fin 4, PMC_TERM_CHn.SLOTS n ∈ reportFields.tail := by decide
      exact hlisted ⟨n, hn⟩))).wr (.listed (by decide))
  exact (hrest.rd (by decide)).trans (rd_wr_same d _ _ (by decide))

theorem admitShows_total (a : Admission) (src ch : Nat) (d : Dev) :
    (admitShows a src ch d).rd PMC_LAST_SUM.SLOTS = d.rd PMC_LAST_SUM.SLOTS := by
  have hres : Stands (Beside reportFields.tail) d
      (((d.wr PMC_STATUS.LAST_RESULT (if a.passed then 1 else 2)).wr PMC_STATUS.LAST_SRC src).wr PMC_STATUS.LAST_CH ch) :=
    (((Stands.refl _ d).wr (.listed (by decide))).wr (.listed (by decide))).wr (.listed (by decide))
  have hall : Stands (Beside reportFields.tail) d (admitShows a src ch d) :=
    .ite (hres.wr (.listed (by decide))) ((hres.wr (.listed (by decide))).ev (.listed (by decide)))
  exact hall.rd (by decide)

theorem admitReport_beyond (a : Admission) (src ch : Nat) (d : Dev) : Beyond d (admitReport a src ch d) := by
  have hsums : Beyond d (admitSums a d) := .wr (.forN (.wr (.refl d)) fun _ _ _ hx => hx.wr)
  exact hsums.trans (.ite (.wr (.wr (.wr (.wr (.refl _))))) (.ev (.wr (.wr (.wr (.wr (.refl _)))))))

theorem admissionCheck_shows (ch : Fin 8) (slots : List (Nat × Nat)) (hch : ch.val ≤ 4) :
    Stands (Beside (PMC_CTRL.CHECK_CH :: PMC_EVENT.CHECK_DONE :: reportFields)) d (admissionCheck ch slots d) ∧
      (admissionCheck ch slots d).rd PMC_LAST_SUM.SLOTS =
        (admission (d.banksWith ch) slots d).total % 2 ^ PMC_LAST_SUM.SLOTS.w ∧
      (admissionCheck ch slots d).rd PMC_STATUS.LAST_RESULT = (if (admission (d.banksWith ch) slots d).passed then 1 else 2) ∧
      (admissionCheck ch slots d).rd PMC_STATUS.LAST_SRC = 3 ∧ (admissionCheck ch slots d).rd PMC_EVENT.CHECK_DONE = 1 ∧
      (admissionCheck ch slots d).pm = d.pm := by
  have heq : admissionCheck ch slots d = (admitReport (admission (d.banksWith ch) slots d) 3 (if ch.val < 4 then ch else 0)
      (d.wr PMC_CTRL.CHECK_CH ch)).ev PMC_EVENT.CHECK_DONE := by
    unfold admissionCheck
    dsimp only
    rw [banksWith_check (show ch.val < 5 by omega), admission_check]
  generalize admission (d.banksWith ch) slots d = a at *
  generalize hsel : (if ch.val < 4 then ch.val else 0) = c at *
  have hsel : Stands (Beside (PMC_CTRL.CHECK_CH :: PMC_EVENT.CHECK_DONE :: reportFields)) d (d.wr PMC_CTRL.CHECK_CH ch) :=
    (Stands.refl _ d).wr (.listed (by simp))
  have hpm : (d.wr PMC_CTRL.CHECK_CH ch).pm = d.pm := wr_pm ..
  generalize d.wr PMC_CTRL.CHECK_CH ch = x at *
  have hreport := admitReport_stands a 3 c x
  obtain ⟨hres, hsrc⟩ := admitShows_reads a 3 c (admitSums a x)
  have htotal := (admitShows_total a 3 c (admitSums a x)).trans (admitSums_total a x)
  have hbeyond := (admitReport_beyond a 3 c x).part Dev.pm fun _ _ _ => rfl
  rw [← admitReport_eq] at hres hsrc htotal
  generalize admitReport a 3 c x = y at *
  rw [heq]
  refine ⟨(hsel.trans (hreport.widen (by simp))).ev (.listed (by simp)), ?_, ?_, ?_, (rd_ev_same (by decide)).trans (by decide), ?_⟩
  · rw [rd_ev_apart _ _ _ (by decide), htotal]
  · rw [rd_ev_apart _ _ _ (by decide), hres]
  · rw [rd_ev_apart _ _ _ (by decide), hsrc]
    rfl
  · rw [ev_pm, hbeyond, hpm]

end

end Sys2Proof.Machine
end

section
/-!
PROOFS. The scrub; the obligation on packet memory's background work (R217 to R230).
-/

namespace Sys2Proof.Machine

section
variable {d e : Dev}

/-! ### What the bookkeeping of packet memory leaves of the scrub -/

/-- From d to e the pass and the time stand and no error comes into packet memory. -/
structure Swept (d e : Dev) : Prop where
  passT : e.pm.passT = d.pm.passT
  passH : e.pm.passH = d.pm.passH
  upsets : e.pm.upsets ⊆ d.pm.upsets
  hearth : e.hearth = d.hearth

theorem Swept.refl (d : Dev) : Swept d d := ⟨rfl, rfl, List.Subset.refl _, rfl⟩

theorem Swept.wr {f : Field} {v : Nat} (h : Swept d e) : Swept d (e.wr f v) := ⟨h.passT, h.passH, h.upsets, h.hearth⟩

theorem Swept.pmMod {f : Pmem → Pmem} (h : Swept d e) (ht : (f e.pm).passT = e.pm.passT) (hh : (f e.pm).passH = e.pm.passH)
    (hu : (f e.pm).upsets ⊆ e.pm.upsets) : Swept d (e.pmMod f) :=
  ⟨ht.trans h.passT, hh.trans h.passH, List.Subset.trans hu h.upsets, h.hearth⟩

theorem Swept.ite {c : Prop} [Decidable c] {x y : Dev} (hx : Swept d x) (hy : Swept d y) : Swept d (if c then x else y) := by
  split
  · exact hx
  · exact hy

theorem Swept.foldl {α : Type} {f : Dev → α → Dev} (l : List α) (h : Swept d e) (hf : ∀ a x, Swept d x → Swept d (f x a)) :
    Swept d (l.foldl f e) := by
  induction l generalizing e with
  | nil => exact h
  | cons a l ih => exact ih (hf a e h)

theorem Swept.retireCell {k : Nat} (h : Swept d e) : Swept d (retireCell k e) := by
  have hworn := Swept.pmMod (f := fun p => { p with worn := p.worn.filter (· != k) }) h rfl rfl (List.Subset.refl _)
  exact .ite (.wr (.wr (.wr (.pmMod hworn rfl rfl (List.Subset.refl _))))) hworn.wr

theorem Swept.retireWorn (h : Swept d e) : Swept d (retireWorn e) := .ite (h.foldl _ fun _ _ hx => hx.retireCell) h

theorem Swept.pmemSync (h : Swept d e) : Swept d (pmemSync e) := by
  have hworn (p : Pmem → Pmem) (ht : (p e.pm).passT = e.pm.passT) (hh : (p e.pm).passH = e.pm.passH)
      (hu : (p e.pm).upsets ⊆ e.pm.upsets) := (Swept.pmMod h ht hh hu).retireWorn
  unfold Machine.pmemSync
  exact .ite (.pmMod (.wr (.pmMod (.wr (.wr (hworn _ rfl rfl (List.Subset.refl _)))) rfl rfl (List.filter_subset_self _))) rfl rfl
    (List.Subset.refl _))
    (.ite (.pmMod (.pmMod (.wr (.wr (hworn _ rfl rfl (List.Subset.refl _)))) rfl rfl (List.filter_subset_self _)) rfl rfl
      (List.Subset.refl _))
      (.pmMod (.wr (.wr (hworn _ rfl rfl (List.Subset.refl _)))) rfl rfl (List.filter_subset_self _)))

theorem Swept.wearNote {cell word : Nat} (h : Swept d e) : Swept d (wearNote cell word e) :=
  .ite (.retireWorn (.pmMod h rfl rfl (List.Subset.refl _))) (.pmMod h rfl rfl (List.Subset.refl _))

theorem Stands.wearNote {P : Field → Prop} {cell word : Nat} (h : Stands P d e) (hP : ∀ f ∈ pmemFields, Free P f) :
    Stands P d (wearNote cell word e) := .ite (Stands.retireWorn h.pmMod hP) h.pmMod

/-! ### A corrected error (R217) -/

/-- What the record of a corrected error writes, but for its penalty. -/
def eccWrites (cell word syn : Nat) (d : Dev) : List (Field × Nat) :=
  [(PMC_ECC_LOG.CELL, cell), (PMC_ECC_LOG.WORD, word), (PMC_ECC_LOG.UE, 0), (PMC_ECC_LOG.SRC, 1), (PMC_ECC_SYN.SYNDROME, syn),
    (PMC_ECC_CE.COUNT, min (d.rd PMC_ECC_CE.COUNT + 1) (2 ^ PMC_ECC_CE.COUNT.w - 1)), (PMC_EVENT.ECC_CE, 1)]

/-- The record itself. -/
def eccNoted (cell word syn : Nat) (d : Dev) : Dev :=
  ((((((d.wr PMC_ECC_LOG.CELL cell).wr PMC_ECC_LOG.WORD word).wrB PMC_ECC_LOG.UE false).wrB PMC_ECC_LOG.SRC true).wr
    PMC_ECC_SYN.SYNDROME syn).sat PMC_ECC_CE.COUNT).ev PMC_EVENT.ECC_CE

theorem eccLog_corrected (cell word syn : Nat) : eccLog cell word syn false true d = penalty 13 (eccNoted cell word syn d) := by
  unfold eccLog
  exact if_neg Bool.false_ne_true

theorem eccNoted_wrote {cell word syn : Nat} (hc : cell < 2 ^ 17) (hw : word < 2 ^ 5) (hs : syn < 2 ^ 8) :
    Wrote d (eccNoted cell word syn d) (eccWrites cell word syn d) := by
  have hplace := ((Wrote.refl d).wr (f := PMC_ECC_LOG.CELL) (by decide) hc).wr (f := PMC_ECC_LOG.WORD)
    (show fits PMC_ECC_LOG.WORD [(PMC_ECC_LOG.CELL, 0)] = true by decide) hw
  have hkind := (hplace.wrB (f := PMC_ECC_LOG.UE) (b := false)
    (show fits PMC_ECC_LOG.UE [(PMC_ECC_LOG.CELL, 0), (PMC_ECC_LOG.WORD, 0)] = true by decide) Nat.one_pos).wrB
    (f := PMC_ECC_LOG.SRC) (b := true)
    (show fits PMC_ECC_LOG.SRC [(PMC_ECC_LOG.CELL, 0), (PMC_ECC_LOG.WORD, 0), (PMC_ECC_LOG.UE, 0)] = true by decide) Nat.one_pos
  have hsyn := hkind.wr (f := PMC_ECC_SYN.SYNDROME) (show fits PMC_ECC_SYN.SYNDROME [(PMC_ECC_LOG.CELL, 0),
    (PMC_ECC_LOG.WORD, 0), (PMC_ECC_LOG.UE, 0), (PMC_ECC_LOG.SRC, 0)] = true by decide) hs
  have hcount := hsyn.sat (f := PMC_ECC_CE.COUNT) (n := 1) (show fits PMC_ECC_CE.COUNT [(PMC_ECC_LOG.CELL, 0),
    (PMC_ECC_LOG.WORD, 0), (PMC_ECC_LOG.UE, 0), (PMC_ECC_LOG.SRC, 0), (PMC_ECC_SYN.SYNDROME, 0)] = true by decide)
  have hev := hcount.ev (f := PMC_EVENT.ECC_CE) (show fits PMC_EVENT.ECC_CE [(PMC_ECC_LOG.CELL, 0), (PMC_ECC_LOG.WORD, 0),
    (PMC_ECC_LOG.UE, 0), (PMC_ECC_LOG.SRC, 0), (PMC_ECC_SYN.SYNDROME, 0), (PMC_ECC_CE.COUNT, 0)] = true by decide) Nat.one_pos
  exact hev

theorem eccLog_beyond {cell word syn : Nat} {ue scrub : Bool} : Beyond d (eccLog cell word syn ue scrub d) :=
  .ite ((((((((Beyond.refl d).wr.wr).wrB).wrB).wr).sat).ev).trans (penalty_beyond 14))
    ((((((((Beyond.refl d).wr.wr).wrB).wrB).wr).sat).ev).trans (penalty_beyond 13))

/-! ### A cell is read (R220) -/

theorem scrubRead_clean {k : Nat} (h : d.pm.upsets = []) : scrubRead k d = pmemSync (d.pmMod fun p => { p with upsets := [] }) := by
  have hfilter : d.pm.upsets.filter (fun u => u.buf == .frame && u.cell == k) = [] := by rw [h]; rfl
  have hpm : d.pmMod (fun p => { p with upsets := p.upsets.filter fun u =>
      !(u.buf == .frame && u.cell == k && (!u.double || !p.poison.contains k)) }) = d.pmMod fun p => { p with upsets := [] } := by
    simp only [Dev.pmMod, h, List.filter_nil]
  unfold scrubRead cellRead1
  rw [hfilter]
  exact congrArg pmemSync hpm

/-- The only error, a corrected one, goes into the log and out of the cell. -/
theorem scrubRead_corrected {u : Upset} (h : d.pm.upsets = [u]) (hb : u.buf = .frame) (hd : u.double = false) :
    scrubRead u.cell d = pmemSync (wearNote u.cell u.word.val
      ((eccLog u.cell u.word.val u.syn.toNat false true d).pmMod fun p => { p with upsets := [] })) := by
  have hfilter : d.pm.upsets.filter (fun x => x.buf == .frame && x.cell == u.cell) = [u] := by simp [h, hb]
  have hupsets : (eccLog u.cell u.word.val u.syn.toNat false true d).pm.upsets = [u] := by
    rw [← h]
    exact eccLog_beyond.part (fun d => d.pm.upsets) fun _ _ _ => rfl
  have hread : cellRead1 true u.cell d = eccLog u.cell u.word.val u.syn.toNat false true d := by
    unfold cellRead1
    rw [hfilter, List.foldl_cons, List.foldl_nil, hd]
    exact if_neg Bool.false_ne_true
  unfold scrubRead
  rw [hfilter, hread]
  generalize eccLog u.cell u.word.val u.syn.toNat false true d = x at *
  have hpm : x.pmMod (fun p => { p with upsets := p.upsets.filter fun v =>
      !(v.buf == .frame && v.cell == u.cell && (!v.double || !p.poison.contains u.cell)) }) =
      x.pmMod fun p => { p with upsets := [] } := by
    simp [Dev.pmMod, hupsets, hb, hd]
  dsimp only
  rw [hpm, List.filter_cons_of_pos (by rw [hd]; rfl), List.filter_nil, List.foldl_cons, List.foldl_nil]

/-- What a scrub read of a cell with one corrected error shows. -/
theorem scrubRead_shows {u : Upset} (h : d.pm.upsets = [u]) (hb : u.buf = .frame) (hd : u.double = false)
    (hc : u.cell < 2 ^ 17) : Stands (Outside [16, 21]) d (scrubRead u.cell d) ∧ (scrubRead u.cell d).pm.upsets = [] ∧
      ∀ x ∈ eccWrites u.cell u.word.val u.syn.toNat d, (scrubRead u.cell d).rd x.1 = x.2 := by
  have hw := eccNoted_wrote (d := d) hc u.word.isLt u.syn.isLt
  have he := eccLog_corrected (d := d) u.cell u.word.val u.syn.toNat
  generalize eccNoted u.cell u.word.val u.syn.toNat d = y at hw he
  have hlog : Stands (Beside [PMC_ECC_LOG.CELL, PMC_ECC_LOG.WORD, PMC_ECC_LOG.UE, PMC_ECC_LOG.SRC, PMC_ECC_SYN.SYNDROME,
    PMC_ECC_CE.COUNT, PMC_EVENT.ECC_CE]) d y := hw.beside
  have hpen : Stands (Beside (SHD_PENj.PEN 3 :: pmemFields)) y (penalty 13 y) := penalty_stands (.listed (by simp))
  have hrest : Stands (Beside (SHD_PENj.PEN 3 :: pmemFields)) y (scrubRead u.cell d) := by
    rw [scrubRead_corrected h hb hd, he]
    exact .pmemSync (.wearNote hpen.pmMod fun f hf => .listed (List.mem_cons_of_mem _ hf)) fun f hf =>
      .listed (List.mem_cons_of_mem _ hf)
  refine ⟨(hlog.inBlocks (by decide)).trans (hrest.inBlocks (by decide)), ?_, fun x hx => ?_⟩
  · have hswept : Swept ((eccLog u.cell u.word.val u.syn.toNat false true d).pmMod fun p => { p with upsets := [] })
        (scrubRead u.cell d) := by
      rw [scrubRead_corrected h hb hd]
      exact .pmemSync (.wearNote (.refl _))
    exact List.subset_nil.mp hswept.upsets
  · have hbeside : ∀ x ∈ eccWrites u.cell u.word.val u.syn.toNat d, Beside (SHD_PENj.PEN 3 :: pmemFields) x.1 := by
      simp only [eccWrites, List.forall_mem_cons, List.not_mem_nil, false_implies, implies_true, and_true]
      decide
    exact (hrest.rd (hbeside x hx)).trans (hw.2.1 x hx)

theorem scrubRead_swept {k : Nat} (h : d.pm.upsets = []) : Stands (Beside pmemFields) d (scrubRead k d) ∧ Swept d (scrubRead k d) := by
  rw [scrubRead_clean h]
  refine ⟨.pmemSync (Stands.pmMod (.refl _ d)) fun _ => .listed, .pmemSync (.pmMod (.refl d) rfl rfl ?_)⟩
  exact List.nil_subset _

/-! ### The scrub goes on (R220) -/

/-- A device in which errors have come into packet memory by mote m. -/
theorem upsetsCome_shows (us : List Upset) (m : Nat) (hu : d.pm.upsets = []) : ∃ x, x = upsetsCome us (atMote m d) ∧
    Stands (fun _ => True) d x ∧ x.pm = { d.pm with upsets := us } ∧ x.nowExt = (atMote m d).nowExt := by
  obtain ⟨h, he⟩ := atMote_eq m d
  refine ⟨_, rfl, Stands.pmMod (.atMote m d), ?_, rfl⟩
  rw [he, upsetsCome, pmMod_pm]
  simp [hu]

theorem scrubRuns_congr {e : Dev} (h : Stands (fun _ => True) d e) : e.scrubRuns = d.scrubRuns := by
  rw [Dev.scrubRuns, Dev.scrubRuns, Dev.on, Dev.on, Dev.on, Dev.on, Dev.on, Dev.on, Dev.pd, Dev.pd, Dev.bitOf, Dev.bitOf,
    h.rd trivial, h.rd trivial, h.rd trivial, h.rd trivial]

theorem scrubCell_due {us : List Upset} {idle : Bool} {m : Nat} (x : Dev) (hx : x = upsetsCome us (atMote m d))
    (hruns : x.scrubRuns = true) (hdue : x.scrubDue x.pm.scrubPos ≤ x.nowExt) : scrubCell us idle m d =
      if !idle then x.wrB PMC_STATUS.SCRUB_BEHIND true
      else if x.pm.scrubPos + 1 < cellCount then
        (scrubAt (x.pm.scrubPos + 1) (scrubRead x.pm.scrubPos x)).wrB PMC_STATUS.SCRUB_BEHIND
          (decide ((scrubRead x.pm.scrubPos x).scrubDue (x.pm.scrubPos + 1) ≤ (scrubRead x.pm.scrubPos x).nowExt))
      else scrubPassEnd (scrubRead x.pm.scrubPos x) := by
  subst hx
  unfold scrubCell
  dsimp only
  rw [hruns, if_pos (by simpa using hdue)]

theorem scrubAt_next {k : Nat} {b : Bool} (hk : k < 2 ^ 17) : Wrote d ((scrubAt k d).wrB PMC_STATUS.SCRUB_BEHIND b)
    [(PMC_SCRUB_STAT.POS, k), (PMC_STATUS.SCRUB_BEHIND, b2n b)] := by
  have hpos : Wrote d (scrubAt k d) [(PMC_SCRUB_STAT.POS, k)] :=
    Wrote.wr (f := PMC_SCRUB_STAT.POS) ((Wrote.refl d).parts (x := d.pmMod fun p => { p with scrubPos := k }) rfl rfl) (by decide) hk
  exact hpos.wrB (show fits PMC_STATUS.SCRUB_BEHIND [(PMC_SCRUB_STAT.POS, 0)] = true by decide) Nat.one_pos

/-- A pass that has ended, counted. -/
def passCounted (late : Bool) (d : Dev) : Dev :=
  ((d.evIf late PMC_EVENT.SCRUB_LATE).ev PMC_EVENT.SCRUB_PASS).wrap PMC_SCRUB_STAT.PASSES

theorem passCounted_hearth (late : Bool) (d : Dev) : (passCounted late d).hearth = d.hearth :=
  Beyond.part (.wr (.ev (.evIf (.refl d)))) Dev.hearth fun _ _ _ => rfl

/-- The same, up to the start of the next pass. -/
def passClosed (late : Bool) (d : Dev) : Dev := (passCounted late d).wrB PMC_STATUS.SCRUB_BEHIND false

theorem passClosed_shows (late : Bool) (d : Dev) :
    Stands (Beside [PMC_EVENT.SCRUB_LATE, PMC_EVENT.SCRUB_PASS, PMC_SCRUB_STAT.PASSES, PMC_STATUS.SCRUB_BEHIND]) d
      (passClosed late d) ∧
    (passClosed late d).rd PMC_SCRUB_STAT.PASSES = (d.rd PMC_SCRUB_STAT.PASSES + 1) % 2 ^ PMC_SCRUB_STAT.PASSES.w ∧
    (passClosed late d).rd PMC_EVENT.SCRUB_PASS = 1 ∧ (passClosed late d).rd PMC_STATUS.SCRUB_BEHIND = 0 := by
  have hlate : Stands (Beside [PMC_EVENT.SCRUB_LATE]) d (d.evIf late PMC_EVENT.SCRUB_LATE) := (Stands.refl _ d).evIf (.listed (by simp))
  unfold passClosed passCounted
  generalize d.evIf late PMC_EVENT.SCRUB_LATE = x at *
  have hpass := (Wrote.refl x).ev (f := PMC_EVENT.SCRUB_PASS) (by decide) Nat.one_pos
  have hcount := (hpass.wrMod (f := PMC_SCRUB_STAT.PASSES) (v := (x.ev PMC_EVENT.SCRUB_PASS).rd PMC_SCRUB_STAT.PASSES + 1)
    (show fits PMC_SCRUB_STAT.PASSES [(PMC_EVENT.SCRUB_PASS, 0)] = true by decide)).wrB (f := PMC_STATUS.SCRUB_BEHIND) (b := false)
    (show fits PMC_STATUS.SCRUB_BEHIND [(PMC_EVENT.SCRUB_PASS, 0), (PMC_SCRUB_STAT.PASSES, 0)] = true by decide) Nat.one_pos
  have hstands : Stands (Beside [PMC_EVENT.SCRUB_PASS, PMC_SCRUB_STAT.PASSES, PMC_STATUS.SCRUB_BEHIND]) x _ := hcount.beside
  refine ⟨(hlate.widen (by simp)).trans (hstands.widen (by simp)), ?_, hcount.nth 0 rfl, hcount.nth 2 rfl⟩
  refine (hcount.nth 1 rfl).trans ?_
  rw [rd_ev_apart _ _ _ (by decide), hlate.rd (by decide)]

theorem later_time (a b : Nat) : (if decide (a < b) then b else a) = max a b := by
  by_cases h : a < b
  · rw [if_pos (by simpa using h), max_eq_right h.le]
  · rw [if_neg (by simpa using h), max_eq_left (Nat.le_of_not_lt h)]

theorem scrubPassEnd_eq (d : Dev) : ∃ late, scrubPassEnd d =
    scrubPass (max (d.pm.passT + passMt d.pm.passH) d.nowExt) (passClosed late d) := by
  have heq : scrubPassEnd d = scrubPass (if decide (d.pm.passT + passMt d.pm.passH < d.nowExt) then
      (passCounted (decide (d.pm.passT + passMt d.pm.passH < d.nowExt)) d).nowExt else d.pm.passT + passMt d.pm.passH)
      (passClosed (decide (d.pm.passT + passMt d.pm.passH < d.nowExt)) d) := rfl
  rw [nowExt_congr (passCounted_hearth _ d), later_time] at heq
  exact ⟨_, heq⟩

/-- A pass that begins at t. -/
theorem scrubPass_shows (t : Nat) (d : Dev) : Wrote d (scrubPass t d) [(PMC_SCRUB_STAT.POS, 0)] ∧ (scrubPass t d).pm.passT = t :=
  ⟨Wrote.wr (f := PMC_SCRUB_STAT.POS) (v := 0) ((Wrote.refl d).parts rfl rfl) (by decide) (by decide), by
    rw [scrubPass, scrubAt, wr_pm, pmMod_pm, pmMod_pm]⟩

theorem scrubPassEnd_shows : Stands (Outside [16, 21]) d (scrubPassEnd d) ∧ (scrubPassEnd d).rd PMC_SCRUB_STAT.POS = 0 ∧
    (scrubPassEnd d).rd PMC_SCRUB_STAT.PASSES = (d.rd PMC_SCRUB_STAT.PASSES + 1) % 2 ^ PMC_SCRUB_STAT.PASSES.w ∧
    (scrubPassEnd d).rd PMC_EVENT.SCRUB_PASS = 1 ∧ (scrubPassEnd d).rd PMC_STATUS.SCRUB_BEHIND = 0 ∧
    (scrubPassEnd d).pm.passT = max (d.pm.passT + passMt d.pm.passH) d.nowExt := by
  obtain ⟨late, heq⟩ := scrubPassEnd_eq d
  obtain ⟨hstands, hcount, hpass, hbehind⟩ := passClosed_shows late d
  generalize passClosed late d = x at *
  generalize max (d.pm.passT + passMt d.pm.passH) d.nowExt = t at *
  obtain ⟨hnext, hset⟩ := scrubPass_shows t x
  have hbeside : Stands (Beside [PMC_SCRUB_STAT.POS]) x (scrubPass t x) := hnext.beside
  rw [heq]
  exact ⟨(hstands.inBlocks (by decide)).trans (hbeside.inBlocks (by decide)), hnext.get (by simp),
    (hbeside.rd (by decide)).trans hcount, (hbeside.rd (by decide)).trans hpass, (hbeside.rd (by decide)).trans hbehind, hset⟩

end

end Sys2Proof.Machine
end

section
/-!
PROOFS. The obligation on packet memory's background work (R217 to R230).
-/

namespace Sys2Proof.Machine

section
variable {d : Dev}

/-- The way to a mote does not look at the outputs. -/
theorem atMote_withOuts (m : Nat) (d : Dev) (x : List Out) : atMote m { d with outs := x } = { atMote m d with outs := x } := by
  have hsame := atMote_outs_hearth m d x
  obtain ⟨h, he⟩ := atMote_eq m { d with outs := x }
  obtain ⟨h', he'⟩ := atMote_eq m d
  rw [he, he'] at hsame ⊢
  obtain rfl : h = h' := hsame
  rfl

/-! ### Each command on a device -/

theorem refreshForced_eighth (b : Fin 4) {paid : Nat} (hpd : d.pd 2 = true) (hsr : d.on RAT_DOM_STATUS.PMEM_SR = false)
    (howed : d.pm.owed.getD b 0 - paid = 7) (hlen : d.pm.owed.length = 4) :
    Stands (Beside [PMC_REF_FORCED.COUNT, PMC_EVENT.REF_FORCED, PMC_REF_OWED_MAX.OWED, SHD_PENj.PEN 4]) d
      (refreshForced b paid 1 d) ∧
    (refreshForced b paid 1 d).rd PMC_REF_FORCED.COUNT =
      min (d.rd PMC_REF_FORCED.COUNT + 1) (2 ^ PMC_REF_FORCED.COUNT.w - 1) ∧
    (refreshForced b paid 1 d).rd PMC_EVENT.REF_FORCED = 1 ∧
    (refreshForced b paid 1 d).rd PMC_REF_OWED_MAX.OWED = max (d.rd PMC_REF_OWED_MAX.OWED) 8 ∧
    (refreshForced b paid 1 d).pm.owed.getD b 0 = 7 := by
  have heq := refreshForced_awake (b := b) (paid := paid) (taken := 1) hpd hsr
  have hbank : b.val < d.pm.owed.length := by rw [hlen]; exact b.isLt
  have hsame : Wrote d (d.pmMod fun p => { p with owed := p.owed.set b (p.owed.getD b 0 - paid) }) [] := (Wrote.refl d).parts rfl rfl
  have hpm : (d.pmMod fun p => { p with owed := p.owed.set b (p.owed.getD b 0 - paid) }).pm.owed.getD b 0 = 7 := by
    rw [pmMod_pm]
    simp [List.getD, hbank]
    simpa [List.getD, hbank] using howed
  have hlength : b.val < (d.pmMod fun p => { p with owed := p.owed.set b (p.owed.getD b 0 - paid) }).pm.owed.length := by
    rw [pmMod_pm, List.length_set]
    exact hbank
  generalize d.pmMod (fun p => { p with owed := p.owed.set b (p.owed.getD b 0 - paid) }) = x at *
  have hwrote : Wrote d (refreshPaid b 8 x) _ := hsame.append (refreshPaid_wrote b x) (by simp)
  have hpaid := refreshPaid_pm b 8 x
  rw [hsame.rd (by decide), hsame.rd (by decide)] at hwrote
  rw [List.range_one, List.foldl_cons, List.foldl_nil, refreshOwe_eighth (congrArg (· + 1) hpm) (Nat.lt_irrefl 8)] at heq
  generalize refreshPaid b 8 x = y at *
  have hpen : Stands (Beside [SHD_PENj.PEN 4]) y (penalty 18 y) := penalty_stands (.listed (by simp))
  have hmarks : Stands (Beside [PMC_REF_OWED_MAX.OWED, PMC_REF_FORCED.COUNT, PMC_EVENT.REF_FORCED]) d y := hwrote.beside
  rw [heq]
  refine ⟨(hmarks.widen (by decide)).trans (hpen.widen (by decide)), (hpen.rd (by decide)).trans (hwrote.nth 1 rfl),
    (hpen.rd (by decide)).trans (hwrote.nth 2 rfl), (hpen.rd (by decide)).trans (hwrote.nth 0 rfl), ?_⟩
  rw [(penalty_beyond 18).part Dev.pm fun _ _ _ => rfl, hpaid]
  simp [List.getD, hlength]

theorem refreshForced_below (b : Fin 4) {paid : Nat} (hpd : d.pd 2 = true) (hsr : d.on RAT_DOM_STATUS.PMEM_SR = false)
    (howed : d.pm.owed.getD b 0 - paid < 7) (hlen : d.pm.owed.length = 4) :
    Wrote d (refreshForced b paid 1 d)
      [(PMC_REF_OWED_MAX.OWED, max (d.rd PMC_REF_OWED_MAX.OWED) (d.pm.owed.getD b 0 - paid + 1))] ∧
    (refreshForced b paid 1 d).pm.owed.getD b 0 = d.pm.owed.getD b 0 - paid + 1 := by
  have heq := refreshForced_awake (b := b) (paid := paid) (taken := 1) hpd hsr
  have hbank : b.val < d.pm.owed.length := by rw [hlen]; exact b.isLt
  have hsame : Wrote d (d.pmMod fun p => { p with owed := p.owed.set b (p.owed.getD b 0 - paid) }) [] := (Wrote.refl d).parts rfl rfl
  have hpm : (d.pmMod fun p => { p with owed := p.owed.set b (p.owed.getD b 0 - paid) }).pm.owed.getD b 0 =
      d.pm.owed.getD b 0 - paid := by
    rw [pmMod_pm]
    simp [List.getD, hbank]
  have hlength : b.val < (d.pmMod fun p => { p with owed := p.owed.set b (p.owed.getD b 0 - paid) }).pm.owed.length := by
    rw [pmMod_pm, List.length_set]
    exact hbank
  generalize d.pmMod (fun p => { p with owed := p.owed.set b (p.owed.getD b 0 - paid) }) = x at *
  generalize d.pm.owed.getD b 0 - paid = n at *
  rw [List.range_one, List.foldl_cons, List.foldl_nil, refreshOwe_below (by rw [hpm]; exact howed), hpm] at heq
  rw [heq]
  have hmax : max (x.rd PMC_REF_OWED_MAX.OWED) (n + 1) < 2 ^ PMC_REF_OWED_MAX.OWED.w :=
    max_lt (rd_lt x _) ((Nat.add_lt_add_right howed 1).trans_le (by decide))
  have hwrote := hsame.wr (f := PMC_REF_OWED_MAX.OWED) (by decide) hmax
  rw [hsame.rd (show fits PMC_REF_OWED_MAX.OWED [] = true by decide)] at hwrote ⊢
  refine ⟨hwrote.parts rfl rfl, ?_⟩
  rw [pmMod_pm, wr_pm]
  simp [List.getD, hlength]

/-- The error that comes with the read of the cell that is due. -/
theorem scrubCell_corrected (w : Fin 32) (y : BitVec 8) (m : Nat) (hruns : d.scrubRuns = true) (hu : d.pm.upsets = [])
    (hpos : d.pm.scrubPos + 1 < cellCount) (hdue : d.scrubDue d.pm.scrubPos ≤ (atMote m d).nowExt) :
    ∃ x, x = scrubCell [{ cell := d.pm.scrubPos, word := w, syn := y }] true m d ∧ Stands (Outside [16, 21]) d x ∧
      x.rd PMC_SCRUB_STAT.POS = d.pm.scrubPos + 1 ∧ x.pm.scrubPos = d.pm.scrubPos + 1 ∧ x.pm.upsets = [] ∧
      ∀ f ∈ eccWrites d.pm.scrubPos w y.toNat d, x.rd f.1 = f.2 := by
  have hlt : d.pm.scrubPos + 1 < 2 ^ 17 := hpos
  obtain ⟨x, hx, hall, hpm, hnow⟩ := upsetsCome_shows [{ cell := d.pm.scrubPos, word := w, syn := y }] m hu
  have hxpos : x.pm.scrubPos = d.pm.scrubPos := by rw [hpm]
  have hcell := scrubCell_due (us := [{ cell := d.pm.scrubPos, word := w, syn := y }]) (idle := true) x hx
    ((scrubRuns_congr hall).trans hruns) (by
      rw [hnow, Dev.scrubDue, hpm]
      exact hdue)
  rw [if_neg (by decide), hxpos, if_pos hpos] at hcell
  obtain ⟨hstands, hupsets, hlog⟩ := scrubRead_shows (d := x) (u := { cell := d.pm.scrubPos, word := w, syn := y })
    (by rw [hpm]) rfl rfl (Nat.lt_of_succ_lt hlt)
  dsimp only at hstands hupsets hlog
  generalize scrubRead d.pm.scrubPos x = z at *
  have hnext := scrubAt_next (d := z) (b := decide (z.scrubDue (d.pm.scrubPos + 1) ≤ z.nowExt)) hlt
  have hbeside : Stands (Beside [PMC_SCRUB_STAT.POS, PMC_STATUS.SCRUB_BEHIND]) z _ := hnext.beside
  have hfrom : Stands (Outside [16, 21]) d x := ⟨fun g _ => hall.rd trivial, hall.2⟩
  refine ⟨_, rfl, ?_, ?_, ?_, ?_, fun f hf => ?_⟩ <;> rw [hcell]
  · exact (hfrom.trans hstands).trans (hbeside.inBlocks (by decide))
  · exact hnext.nth 0 rfl
  · rw [wrB_pm, scrubAt, wr_pm, pmMod_pm]
  · rw [wrB_pm, scrubAt, wr_pm, pmMod_pm]
    exact hupsets
  · have hsame : eccWrites d.pm.scrubPos w y.toNat x = eccWrites d.pm.scrubPos w y.toNat d := by
      rw [eccWrites, eccWrites, hall.rd trivial]
    have hap : ∀ f ∈ eccWrites d.pm.scrubPos w y.toNat d, Beside [PMC_SCRUB_STAT.POS, PMC_STATUS.SCRUB_BEHIND] f.1 := by
      simp only [eccWrites, List.forall_mem_cons, List.not_mem_nil, false_implies, implies_true, and_true]
      decide
    exact (hbeside.rd (hap f hf)).trans (hlog f (by rw [hsame]; exact hf))

theorem scrubCell_behind (m : Nat) (hruns : d.scrubRuns = true) (hdue : d.scrubDue d.pm.scrubPos ≤ (atMote m d).nowExt) :
    Wrote d (scrubCell [] false m d) [(PMC_STATUS.SCRUB_BEHIND, 1)] ∧ (scrubCell [] false m d).pm.scrubPos = d.pm.scrubPos := by
  obtain ⟨h, he⟩ := atMote_eq m d
  have hall : Wrote d (upsetsCome [] (atMote m d)) [] := (Wrote.atMote m d).parts rfl rfl
  have hpm : (upsetsCome [] (atMote m d)).pm = d.pm := by
    rw [he, upsetsCome, pmMod_pm]
    simp
  have hcell := scrubCell_due (us := []) (idle := false) _ rfl
    ((scrubRuns_congr (Stands.pmMod (.atMote m d))).trans hruns) (by
      rw [Dev.scrubDue, hpm]
      exact hdue)
  rw [if_pos (by decide)] at hcell
  rw [hcell]
  exact ⟨hall.wrB (by decide) Nat.one_pos, by rw [wrB_pm, hpm]⟩

theorem scrubCell_ends (m : Nat) (hruns : d.scrubRuns = true) (hu : d.pm.upsets = []) (hpos : d.pm.scrubPos + 1 = cellCount)
    (hdue : d.scrubDue d.pm.scrubPos ≤ (atMote m d).nowExt) :
    Stands (Outside [16, 21]) d (scrubCell [] true m d) ∧ (scrubCell [] true m d).rd PMC_SCRUB_STAT.POS = 0 ∧
      (scrubCell [] true m d).rd PMC_SCRUB_STAT.PASSES = (d.rd PMC_SCRUB_STAT.PASSES + 1) % 2 ^ PMC_SCRUB_STAT.PASSES.w ∧
      (scrubCell [] true m d).rd PMC_EVENT.SCRUB_PASS = 1 ∧ (scrubCell [] true m d).rd PMC_STATUS.SCRUB_BEHIND = 0 ∧
      (scrubCell [] true m d).pm.passT = max (d.pm.passT + passMt d.pm.passH) (atMote m d).nowExt := by
  obtain ⟨x, hx, hall, hpm, hnow⟩ := upsetsCome_shows [] m hu
  have hxpos : x.pm.scrubPos = d.pm.scrubPos := by rw [hpm]
  have hcell := scrubCell_due (us := []) (idle := true) x hx ((scrubRuns_congr hall).trans hruns) (by
      rw [hnow, Dev.scrubDue, hpm]
      exact hdue)
  rw [if_neg (by decide), hxpos, if_neg (by omega)] at hcell
  obtain ⟨hstands, hswept⟩ := scrubRead_swept (d := x) (k := d.pm.scrubPos) (by rw [hpm])
  generalize scrubRead d.pm.scrubPos x = z at *
  obtain ⟨hend, hpos0, hcount, hpass, hbehind, htime⟩ := scrubPassEnd_shows (d := z)
  have hfrom : Stands (Outside [16, 21]) d x := ⟨fun g _ => hall.rd trivial, hall.2⟩
  rw [hcell]
  refine ⟨(hfrom.trans (hstands.inBlocks (by decide))).trans hend, hpos0, ?_, hpass, hbehind, ?_⟩
  · rw [hcount, hstands.rd (by decide), hall.rd trivial]
  · rw [htime, hswept.passT, hswept.passH, nowExt_congr hswept.hearth, hpm, hnow]

theorem recalForced_chain (lane : Fin 7) (m : Nat) (hl : lane.val = 4 ∨ lane.val = 5) (hon : d.on RAT_DOM_STATUS.PEG_LANES_ON = true)
    (hdue : 8000 ≤ if lane.val = 4 then d.peg.recalA else d.peg.recalB) (hidle : (atMote m d).pegIdle = true) :
    Stands (Beside recalFields) d (recalForced lane m d) ∧ (recalForced lane m d).rd PMC_EVENT.RECAL_FORCED = 1 ∧
      (if lane.val = 4 then (recalForced lane m d).peg.recalA else (recalForced lane m d).peg.recalB) = 0 ∧
      (recalForced lane m d).rd PMC_RECAL_FORCED.LANES = recalCounts lane d := by
  have hmote : Stands (fun _ => True) d (atMote m d) := .atMote m d
  rw [recalForced_peg lane m hl hon hdue hidle]
  have hbare : Stands (fun _ => True) d ((atMote m d).pegMod fun p =>
      if lane.val = 4 then { p with recalA := 0 } else { p with recalB := 0 }) := hmote.pegMod
  have hzero : (if lane.val = 4 then ((atMote m d).pegMod fun p =>
      if lane.val = 4 then { p with recalA := 0 } else { p with recalB := 0 }).peg.recalA else ((atMote m d).pegMod fun p =>
      if lane.val = 4 then { p with recalA := 0 } else { p with recalB := 0 }).peg.recalB) = 0 := by
    rw [pegMod_peg]
    split <;> rfl
  generalize (atMote m d).pegMod (fun p => if lane.val = 4 then { p with recalA := 0 } else { p with recalB := 0 }) = x at *
  obtain ⟨hstands, hlanes, hev⟩ := recalCount_shows lane x
  have hcounts : recalCounts lane x = recalCounts lane d := by rw [recalCounts, recalCounts, hbare.rd trivial]
  refine ⟨.trans ⟨fun g _ => hbare.rd trivial, hbare.2⟩ hstands, hev, ?_, hlanes.trans hcounts⟩
  rw [(recalCount_beyond (d := x) lane).part Dev.peg fun _ _ _ => rfl]
  exact hzero

theorem laneRecalGo_shows (d : Dev) : Stands (fun _ => True) d (laneRecalGo d) ∧ (laneRecalGo d).lsh.recalFr = 0 ∧
    (laneRecalGo d).lsh.recalTo = d.nowExt + 10067 :=
  ⟨(Stands.refl _ d).parts rfl rfl, by rw [laneRecalGo, lshMod_lsh], by rw [laneRecalGo, lshMod_lsh]⟩

theorem recalForced_mirror (lane : Fin 7) (m : Nat) (hl : lane.val = 6) (hon : d.laneOn = true) (hdue : 8000 ≤ d.lsh.recalFr) (hrec : (atMote m d).laneRecal = false) :
    Stands (Beside recalFields) d (recalForced lane m d) ∧ (recalForced lane m d).rd PMC_EVENT.RECAL_FORCED = 1 ∧
      (recalForced lane m d).lsh.recalFr = 0 ∧ (recalForced lane m d).lsh.recalTo = (atMote m d).nowExt + 10067 ∧
      (recalForced lane m d).rd PMC_RECAL_FORCED.LANES = recalCounts lane d := by
  have hmote : Stands (fun _ => True) d (atMote m d) := .atMote m d
  rw [recalForced_leash lane m hl hon hdue hrec]
  generalize atMote m d = x at *
  have hcounts : recalCounts lane x = recalCounts lane d := by rw [recalCounts, recalCounts, hmote.rd trivial]
  have hhearth := (recalCount_beyond (d := x) lane).part Dev.hearth fun _ _ _ => rfl
  obtain ⟨hstands, hlanes, hev⟩ := recalCount_shows lane x
  have hfrom : Stands (Beside recalFields) d (recalCount lane x) := .trans ⟨fun g _ => hmote.rd trivial, hmote.2⟩ hstands
  obtain ⟨hlast, hzero, htime⟩ := laneRecalGo_shows (recalCount lane x)
  exact ⟨.trans hfrom ⟨fun g _ => hlast.rd trivial, hlast.2⟩, (hlast.rd trivial).trans hev, hzero,
    htime.trans (congrArg (· + 10067) (nowExt_congr hhearth)), (hlast.rd trivial).trans (hlanes.trans hcounts)⟩

end

/-- Settles O27: each kind of background work by what its step writes. -/
theorem packetMemory : Obligations.PacketMemory := by
  unfold Obligations.PacketMemory
  intro s
  refine ⟨fun b paid hpd hsr howed hlen => ?_, fun b paid hpd hsr howed hlen => ?_, fun b paid hpd hsr hlen => ?_,
    fun b paid taken hoff => ?_, fun w y m hruns hu hpos hdue => ?_, fun m hruns hdue => ?_, fun m hruns hu hpos hdue => ?_,
    fun ch ht hch => ?_, fun ch ht hch => ?_, fun lane m hl hpd hon hfr hrec hdue hidle hlen => ?_,
    fun lane m hl hpd hon hfr hrec hdue hidle hlen => ?_, fun m hon hdue hidle => ?_, fun m hon hdue hidle => ?_,
    fun m hon hdue hrec => ?_⟩
  · refine ends_run (f := refreshForced b paid 1) (fun _ => rfl) ?_
    obtain ⟨hstands, hrest⟩ := refreshForced_eighth (d := s.quiet) b hpd hsr howed hlen
    exact ⟨hstands.only, hstands.2, hrest⟩
  · exact does_run (f := refreshForced b paid 1) (fun _ => rfl) (refreshForced_below (d := s.quiet) b hpd hsr howed hlen)
  · refine does_run (f := refreshForced b paid 0) (fun _ => rfl) ?_
    rw [refreshForced_awake (d := s.quiet) hpd hsr]
    exact ⟨(Wrote.refl _).parts rfl rfl, owed_paid (d := s.quiet) _ (by rw [hlen]; exact b.isLt)⟩
  · refine does_run (f := refreshForced b paid taken) (fun _ => rfl) ?_
    rw [refreshForced_asleep (d := s.quiet) hoff]
    exact ⟨.refl _, rfl⟩
  · refine ends_run (f := scrubCell [{ cell := s.dev.pm.scrubPos, word := w, syn := y }] true m) (fun _ => rfl) ?_
    rw [← atMote_nowExt m []] at hdue
    obtain ⟨x, hx, hstands, hpos', hpm, hups, hlog⟩ := scrubCell_corrected (d := s.quiet) w y m hruns hu hpos hdue
    rw [← hx]
    have hnth (k : Nat) {f : Field} {v : Nat} (h : (eccWrites s.quiet.pm.scrubPos w y.toNat s.quiet)[k]? = some (f, v)) :
        x.rd f = v := hlog _ (List.mem_of_getElem? h)
    exact ⟨hstands.within, hstands.2, hpos', hpm, hups, hnth 0 rfl, hnth 1 rfl, hnth 2 rfl, hnth 3 rfl, hnth 4 rfl, hnth 5 rfl,
      hnth 6 rfl⟩
  · refine does_run (f := scrubCell [] false m) (fun _ => rfl) ?_
    rw [← atMote_nowExt m []] at hdue
    exact scrubCell_behind (d := s.quiet) m hruns hdue
  · refine ends_run (f := scrubCell [] true m) (fun _ => rfl) ?_
    rw [← atMote_nowExt m []] at hdue ⊢
    obtain ⟨hstands, hrest⟩ := scrubCell_ends (d := s.quiet) m hruns hu hpos hdue
    exact ⟨hstands.within, hstands.2, hrest⟩
  · refine does_soft (k := 2) (fun _ => rfl) ht ?_
    rw [if_pos hch]
    exact ⟨badWr_wrote .pcie PMC_CTRL.addr s.quiet (by decide),
      Beyond.part (.wr (.wr (.wr (.sat (.refl s.quiet))))) Dev.pm fun _ _ _ => rfl⟩
  · refine ends_soft (k := 2) (fun _ => rfl) ht ?_
    rw [if_neg (Nat.not_lt.mpr hch)]
    obtain ⟨hstands, htotal, hres, hsrc, hdone, hpm⟩ := admissionCheck_shows (d := s.quiet) ch (s.quiet.slotCosts s.quiet.peg.oper) hch
    exact ⟨(hstands.widen (by decide)).only, hstands.2, htotal, hres, hsrc, hdone, hstands.rd (by decide), hpm⟩
  · refine ends_run (f := recalForced lane m) (fun _ => rfl) ?_
    obtain ⟨hstands, hrest⟩ := recalForced_idle (d := s.quiet) lane m hl hpd hon hfr hrec hdue hlen hidle
    exact ⟨hstands.only, hstands.2, hrest⟩
  · refine ends_run (f := recalForced lane m) (fun _ => rfl) ?_
    obtain ⟨hstands, hrest⟩ := recalForced_busy (d := s.quiet) lane m hl hpd hon hfr hrec hdue hlen hidle
    exact ⟨hstands.only, hstands.2, hrest⟩
  · refine ends_run (f := recalForced (4 : Fin 7) m) (fun _ => rfl) ?_
    obtain ⟨hstands, hev, hzero, hlanes⟩ := recalForced_chain (d := s.quiet) 4 m (.inl rfl) hon hdue (by
      rw [atMote_withOuts]
      exact hidle)
    exact ⟨hstands.only, hstands.2, hev, hzero, hlanes.trans (recalCounts_at rfl)⟩
  · refine ends_run (f := recalForced (5 : Fin 7) m) (fun _ => rfl) ?_
    obtain ⟨hstands, hev, hzero, hlanes⟩ := recalForced_chain (d := s.quiet) 5 m (.inr rfl) hon hdue (by
      rw [atMote_withOuts]
      exact hidle)
    exact ⟨hstands.only, hstands.2, hev, hzero, hlanes.trans (recalCounts_at rfl)⟩
  · refine ends_run (f := recalForced (6 : Fin 7) m) (fun _ => rfl) ?_
    obtain ⟨hstands, hev, hzero, htime, hlanes⟩ := recalForced_mirror (d := s.quiet) 6 m rfl hon hdue (by
      rw [atMote_withOuts]
      exact hrec)
    rw [atMote_nowExt] at htime
    exact ⟨hstands.only, hstands.2, hev, hzero, htime, hlanes.trans (recalCounts_at rfl)⟩

end Sys2Proof.Machine
end

section
/-!
PROOFS. Conversions of the ADC; the words of a record; what an event copy leaves of the gasp (R55 to R57, R65, R67, R68).
-/

namespace Sys2Proof.Machine

/-! ### Conversions (R55 to R57) -/

section
variable {d : Dev} {k : Nat} {code : Int}

theorem atMote_frame (m : Nat) (d : Dev) : (atMote m d).frame = d.frame := by
  unfold atMote
  dsimp only
  split
  next h =>
    simp only [Bool.and_eq_true, beq_iff_eq] at h
    exact h.2
  · rfl

theorem uns_lt (w : Nat) (x : Int) : uns w x < 2 ^ w := by
  have hpos : (0 : Int) < 2 ^ w := by positivity
  have hnonneg := Int.emod_nonneg x hpos.ne'
  have hlt := Int.emod_lt_of_pos x hpos
  unfold uns
  zify
  rw [Int.toNat_of_nonneg hnonneg]
  exact hlt

theorem adcConv_running (hrun : d.hearth.running = true) : adcConv k code d =
    if k = 0 ∨ k = 2 ∨ k = 4 then sampleV code.toNat (atMote (k * 131072) d)
    else if k = 6 then sampleCell code.toNat (atMote (k * 131072) d)
    else if k = 7 then sampleTemp code (atMote (k * 131072) d)
    else sampleI code.toNat (atMote (k * 131072) d) := if_pos hrun

theorem atMote_rat (m : Nat) (d : Dev) : (atMote m d).rat = d.rat := by
  obtain ⟨h, he⟩ := atMote_eq m d
  rw [he]

theorem Wrote.ratMod {e : Dev} {ws : List (Field × Nat)} {f : Rat → Rat} (h : Wrote d e ws) : Wrote d (e.ratMod f) ws := h.parts rfl rfl

theorem sampleV_shows {c : Nat} (hc : c < 4096) : Wrote d (sampleV c d) [(MON_FEED_V.RAW, c)] ∧ (sampleV c d).rat =
    { d.rat with sumV := d.rat.sumV + c, nV := d.rat.nV + 1
                 lowRun := if c * d.rd MON_VSCALE.PER_CODE < d.rd RAT_THR_LOSS.LOSS * 100000 then d.rat.lowRun + 1 else 0 } := by
  have hwrote := (Wrote.refl d).wr (f := MON_FEED_V.RAW) (by decide) hc
  unfold sampleV
  dsimp only
  refine ⟨hwrote.ratMod, ?_⟩
  rw [ratMod_rat, wr_rat]
  simp only [decide_eq_true_eq]

theorem sampleCell_shows (c : Nat) : Wrote d (sampleCell c d) [(MON_CELL_V.VALUE, c * d.rd MON_CSCALE.PER_CODE / 1000 % 2 ^ 16)] ∧
    (sampleCell c d).rat = if d.ratOn RAT_STATUS.LOSS then
      { d.rat with cellMin := min d.rat.cellMin (c * d.rd MON_CSCALE.PER_CODE / 1000 % 2 ^ 16) } else d.rat := by
  have hwrote := (Wrote.refl d).wrMod (f := MON_CELL_V.VALUE) (v := c * d.rd MON_CSCALE.PER_CODE / 1000) (by decide)
  have hread : (d.wr MON_CELL_V.VALUE (c * d.rd MON_CSCALE.PER_CODE / 1000)).rd MON_CELL_V.VALUE =
      c * d.rd MON_CSCALE.PER_CODE / 1000 % 2 ^ 16 := hwrote.nth 0 rfl
  have hloss : (d.wr MON_CELL_V.VALUE (c * d.rd MON_CSCALE.PER_CODE / 1000)).ratOn RAT_STATUS.LOSS = d.ratOn RAT_STATUS.LOSS := by
    rw [Dev.ratOn, Dev.ratOn, ratGet_wr (by decide)]
  have hrat : (d.wr MON_CELL_V.VALUE (c * d.rd MON_CSCALE.PER_CODE / 1000)).rat = d.rat := wr_rat ..
  unfold sampleCell
  generalize d.wr MON_CELL_V.VALUE (c * d.rd MON_CSCALE.PER_CODE / 1000) = x at *
  dsimp only
  rw [hloss, hread]
  split
  · exact ⟨hwrote.ratMod, by rw [ratMod_rat, hrat]⟩
  · exact ⟨hwrote, hrat⟩

/-- The byte of a temperature in MON_TEMP. -/
def tempWord (q : Int) (d : Dev) : Nat := setBits (d.rd MON_TEMP.temps) (8 * (d.frame % 4)) 8 (uns 8 (q.tdiv 4))

theorem sampleTemp_shows (q : Int) : Wrote d (sampleTemp q d)
      [(MON_TEMP_MAX.QDEG, uns 12 (tempMax (d.rat.temps.set (d.frame % 4) q))), (MON_TEMP.temps, tempWord q d)] ∧
    (sampleTemp q d).rat.temps = d.rat.temps.set (d.frame % 4) q := by
  have hword : tempWord q d < 2 ^ MON_TEMP.temps.w :=
    setBits_lt (rd_lt d MON_TEMP.temps) (show 8 * (d.frame % 4) + 8 ≤ 32 by omega)
  have hboth := ((Wrote.refl d).wr (f := MON_TEMP.temps) (by decide) hword).wr (f := MON_TEMP_MAX.QDEG)
    (v := uns 12 (tempMax (d.rat.temps.set (d.frame % 4) q)))
    (show fits MON_TEMP_MAX.QDEG [(MON_TEMP.temps, 0)] = true by decide) (uns_lt 12 _)
  have heq : sampleTemp q d = ((d.wr MON_TEMP.temps (tempWord q d)).wr MON_TEMP_MAX.QDEG
      (uns 12 (tempMax (d.rat.temps.set (d.frame % 4) q)))).ratMod fun r => { r with temps := d.rat.temps.set (d.frame % 4) q } := rfl
  rw [heq]
  generalize tempWord q d = t at *
  generalize d.rat.temps.set (d.frame % 4) q = ts at *
  generalize uns 12 (tempMax ts) = u at *
  refine ⟨Wrote.ratMod (hboth.reorder ?_ ?_), by rw [ratMod_rat]⟩ <;>
    (intro x hx; simp only [List.nil_append, List.cons_append, List.mem_cons, List.not_mem_nil, or_false] at hx ⊢; tauto)

end

/-! ### Words of a record (R68) -/

section
variable {d : Dev}

/-- Words put into retention SRAM from word n on. -/
def ramPuts (ws : List Nat) (n : Nat) (d : Dev) : Dev := (ws.zipIdx n).foldl (fun d p => d.ramSet p.2 p.1) d

theorem ramPuts_aside (ws : List Nat) (n : Nat) (d : Dev) : ∃ m, ramPuts ws n d = { d with sram := m } := by
  induction ws generalizing n d with
  | nil => exact ⟨d.sram, rfl⟩
  | cons w ws ih =>
    obtain ⟨m, hm⟩ := ih (n + 1) (d.ramSet n w)
    exact ⟨m, hm⟩

theorem ramPuts_word (ws : List Nat) (n : Nat) (d : Dev) (k : Nat) : (ramPuts ws n d).ramWord k =
    if n ≤ k ∧ k < n + ws.length then ws.getD (k - n) 0 % 2 ^ 32 else d.ramWord k := by
  induction ws generalizing n d with
  | nil =>
    rw [if_neg (by simp)]
    rfl
  | cons w ws ih =>
    have hrec := ih (n + 1) (d.ramSet n w)
    have hstep : ramPuts (w :: ws) n d = ramPuts ws (n + 1) (d.ramSet n w) := rfl
    rw [hstep, hrec, ramWord_ramSet]
    by_cases hk : k = n
    · subst hk
      rw [if_neg (by omega), if_pos rfl, if_pos (by simp), Nat.sub_self]
      rfl
    · by_cases hin : n + 1 ≤ k ∧ k < n + 1 + ws.length
      · obtain ⟨j, rfl⟩ : ∃ j, k = n + 1 + j := ⟨k - (n + 1), by omega⟩
        rw [if_pos hin, if_pos (by simp; omega), show n + 1 + j - (n + 1) = j by omega, show n + 1 + j - n = j + 1 by omega]
        rfl
      · rw [if_neg hin, if_neg hk, if_neg (by simp; omega)]

theorem recSeal_word (k : Nat) : (recSeal d).ramWord k = if k = 15 then crc32 (ramBytes d 15) else d.ramWord k := by
  rw [recSeal, ramWord_ramSet, Nat.mod_eq_of_lt (crc32_lt _)]

theorem ramBytes_congr {e : Dev} {n : Nat} (h : ∀ k < n, e.ramWord k = d.ramWord k) : ramBytes e n = ramBytes d n := by
  unfold ramBytes
  exact List.flatMap_congr fun k hk => by rw [h k (List.mem_range.mp hk)]

theorem recSeal_sealed : (recSeal d).ramWord 15 = crc32 (ramBytes (recSeal d) 15) := by
  rw [recSeal_word, if_pos rfl, ramBytes_congr (d := d) (e := recSeal d)]
  exact fun k hk => (recSeal_word k).trans (if_neg (by omega))

theorem recFlag_word {n : Nat} (hn : n < 2) (k : Nat) (hk : k ≠ 15) : (recFlag n d).ramWord k =
    if k = 4 then putBit (d.ramWord 4) (8 + n) true else d.ramWord k := by
  have hlt : putBit (d.ramWord 4) (8 + n) true < 2 ^ 32 := putBit_lt (BitVec.isLt _) (by omega)
  rw [recFlag, recSeal_word, if_neg hk, ramWord_ramSet, Nat.mod_eq_of_lt hlt]

theorem recFlag_flagged {n : Nat} (hn : n < 2) : bit ((recFlag n d).ramWord 4) (8 + n) = true := by
  rw [recFlag_word hn 4 (by decide), if_pos rfl, bit_putBit]

theorem recFlag_sealed (n : Nat) : (recFlag n d).ramWord 15 = crc32 (ramBytes (recFlag n d) 15) := recSeal_sealed

theorem recFlag_rd (n : Nat) (g : Field) : (recFlag n d).rd g = d.rd g := rfl

/-- The record goes on: copies that follow, the first that leaves (R67). -/
theorem gaspSkip_shows : Only d (gaspSkip d) [RAT_EVENT.GASP_SKIPPED] ∧ (gaspSkip d).rd RAT_EVENT.GASP_SKIPPED = 1 ∧
    (gaspSkip d).rat.gaspLeft = 0 ∧ bit ((gaspSkip d).ramWord 4) 9 = true ∧
    (gaspSkip d).ramWord 15 = crc32 (ramBytes (gaspSkip d) 15) ∧ (gaspSkip d).chan = d.chan ∧
    ∀ k, k ≠ 4 → k ≠ 15 → (gaspSkip d).ramWord k = d.ramWord k := by
  have hwords (k : Nat) : (gaspSkip d).ramWord k = (recFlag 1 (d.ev RAT_EVENT.GASP_SKIPPED)).ramWord k := rfl
  have hrd (g : Field) : (gaspSkip d).rd g = (d.ev RAT_EVENT.GASP_SKIPPED).rd g := rfl
  refine ⟨fun g hg => (hrd g).trans (rd_ev_apart _ _ _ (hg _ (by simp))), (hrd _).trans ((rd_ev_same (by decide)).trans (by decide)),
    rfl, ?_, ?_, ?_, fun k hk4 hk15 => ?_⟩
  · rw [hwords]
    exact recFlag_flagged (by decide)
  · rw [hwords]
    exact recFlag_sealed 1
  · rw [gaspSkip, ratMod_chan, recFlag, recSeal, ramSet_chan, ramSet_chan, ev_chan]
  · rw [hwords, recFlag_word (by decide) k hk15, if_neg hk4]
    rfl

end

end Sys2Proof.Machine
end

section
/-!
PROOFS. An event copy on CH0 leaves what the gasp is judged by (R67, R329, R331).
-/

namespace Sys2Proof.Machine

/-- What an event copy leaves: all but the blocks of channels, packet memory, the Sheepdog and Lifeline, and there the words
that say whether CH0 may send. -/
abbrev Spoken (g : Field) : Prop :=
  Outside [8, 9, 10, 11, 16, 21, 25] g ∨ g ∈ [CHn_STATUS.LINK 0, CHn_STATUS.RUN 0, CHn_STATUS.FENCED 0]

theorem free_spoken {f : Field} (hb : f.off / 0x4000 ∈ [8, 9, 10, 11, 16, 21, 25])
    (hl : ∀ g ∈ [CHn_STATUS.LINK 0, CHn_STATUS.RUN 0, CHn_STATUS.FENCED 0], Field.apart f g = true) : Free Spoken f := by
  rintro g (hg | hg)
  · exact Free.inBlock hb g hg
  · exact hl g hg

/-- What of a channel the gasp is judged by, and where it waits. -/
def gaspPart (c : Chan) : List Frm × Bool := (c.expq, c.fencing)

theorem gaspPart_eq {c c' : Chan} (h : gaspPart c = gaspPart c') : c.expq = c'.expq ∧ c.fencing = c'.fencing := Prod.mk.inj h

/-- From d to e an event copy at most has been sent. -/
structure Voices (d e : Dev) : Prop where
  stands : Stands Spoken d e
  rat : e.rat = d.rat
  part : gaspPart (e.ch 0) = gaspPart (d.ch 0)
  len : e.chan.length = d.chan.length

section
variable {d e x : Dev}

theorem Voices.refl (d : Dev) : Voices d d := ⟨.refl _ d, rfl, rfl, rfl⟩

theorem Voices.trans (h : Voices d e) (hx : Voices e x) : Voices d x :=
  ⟨h.stands.trans hx.stands, hx.rat.trans h.rat, hx.part.trans h.part, hx.len.trans h.len⟩

theorem Voices.same (h : Voices d e) (hs : Stands Spoken e x) (hr : x.rat = e.rat) (hc : x.chan = e.chan) : Voices d x :=
  h.trans ⟨hs, hr, congrArg (fun l => gaspPart (l.getD 0 {})) hc, congrArg List.length hc⟩

theorem Voices.wr {f : Field} {v : Nat} (h : Voices d e) (hf : Free Spoken f) : Voices d (e.wr f v) :=
  h.same ((Stands.refl _ e).wr hf) rfl rfl

theorem Voices.ite {c : Prop} [Decidable c] {x y : Dev} (hx : Voices d x) (hy : Voices d y) : Voices d (if c then x else y) := by
  split
  · exact hx
  · exact hy

theorem Voices.foldl {α : Type} {f : Dev → α → Dev} (l : List α) (h : Voices d e)
    (hf : ∀ a ∈ l, ∀ x, Voices d x → Voices d (f x a)) : Voices d (l.foldl f e) := by
  induction l generalizing e with
  | nil => exact h
  | cons a l ih => exact ih (hf a (by simp) e h) fun b hb => hf b (List.mem_cons_of_mem _ hb)

theorem Voices.chMod {n : Nat} {g : Chan → Chan} (h : Voices d e) (hg : ∀ c, gaspPart (g c) = gaspPart c) :
    Voices d (e.chMod n g) := h.trans ⟨(Stands.refl _ e).parts rfl rfl, rfl, chMod_keeps gaspPart hg, chan_length g⟩

theorem pmem_spoken : ∀ f ∈ pmemFields, Free Spoken f := by
  have h : ∀ f ∈ pmemFields, f.off / 0x4000 ∈ [8, 9, 10, 11, 16, 21, 25] ∧
      ∀ g ∈ [CHn_STATUS.LINK 0, CHn_STATUS.RUN 0, CHn_STATUS.FENCED 0], Field.apart f g = true := by decide
  exact fun f hf => free_spoken (h f hf).1 (h f hf).2

theorem Voices.pmemSync (h : Voices d e) : Voices d (pmemSync e) :=
  have hcells : Cells e (Machine.pmemSync e) := (Cells.refl e).pmemSync
  h.same ((Stands.refl _ e).pmemSync pmem_spoken) (hcells.part Dev.rat fun _ _ _ => rfl) (hcells.part Dev.chan fun _ _ _ => rfl)

/-! ### A frame of the part's own, dropped or queued -/

/-- A frame from no host ring and of no stream, looked up nowhere, and no gasp. -/
structure Plain (y : Frm) : Prop where
  host : y.host = none
  gasp : y.gasp = false
  hit : y.dec.hit = false
  sgen : y.dec.sgen = none

theorem Plain.leave {y : Frm} (hy : Plain y) (h : Voices d e) : Voices d (leave false y e) := by
  have hretire : retireFrame y e = e := by
    unfold retireFrame
    dsimp only
    rw [hy.hit, if_neg Bool.false_ne_true, hy.sgen]
  have hsent (f : Pmem → Pmem) : Voices d (e.pmMod f) := h.same ((Stands.refl _ e).parts rfl rfl) rfl rfl
  unfold Machine.leave
  rw [hretire]
  exact .pmemSync (.ite (.ite (hsent _) h) (.ite h h))

theorem stat_spoken {i : Nat} (hi : i ∈ [39, 40, 43]) : ∀ f ∈ statFields 0 i, Free Spoken f := by
  have h : ∀ i ∈ [39, 40, 43], ∀ f ∈ statFields 0 i, f.off / 0x4000 ∈ [8, 9, 10, 11, 16, 21, 25] ∧
      ∀ g ∈ [CHn_STATUS.LINK 0, CHn_STATUS.RUN 0, CHn_STATUS.FENCED 0], Field.apart f g = true := by decide
  exact fun f hf => free_spoken (h i hi f hf).1 (h i hi f hf).2

theorem Plain.dropFrame {y : Frm} (hy : Plain y) {i status : Nat} (hi : i ∈ [39, 40, 43]) (h : Voices d e) :
    Voices d (dropFrame 0 i status y e) := by
  have htx : Voices d (if i = 40 && (e.ch 0).fencing then e.wrap (SHD_FENCE_RPTn_TX.TX_DROPS 0) else e) :=
    .ite (h.wr (free_spoken (by decide) (by decide))) h
  unfold Machine.dropFrame hostReturn
  dsimp only
  rw [hy.gasp, if_neg Bool.false_ne_true, hy.host]
  have hstat (z : Dev) : Stands Spoken z (stat 0 i 1 z) :=
    ⟨fun g hg => (stat_stands i 1).1 g fun f hf => stat_spoken hi f hf g hg, (stat_stands i 1).2⟩
  exact hy.leave (htx.same (hstat _) ((stat_beyond i 1).part Dev.rat fun _ _ _ => rfl) (stat_beyond i 1).chan)

theorem xoff_spoken : ∀ n : Fin 4, ∀ f ∈ [CHn_STATUS.XOFF n, CHn_STATUS.PFC_XOFF n, CHn_EVENT.XOFF_START n], Free Spoken f := by
  have h : ∀ n : Fin 4, ∀ f ∈ [CHn_STATUS.XOFF n, CHn_STATUS.PFC_XOFF n, CHn_EVENT.XOFF_START n],
      f.off / 0x4000 ∈ [8, 9, 10, 11, 16, 21, 25] ∧
      ∀ g ∈ [CHn_STATUS.LINK 0, CHn_STATUS.RUN 0, CHn_STATUS.FENCED 0], Field.apart f g = true := by decide
  exact fun n f hf => free_spoken (h n f hf).1 (h n f hf).2

theorem Voices.xoffStart (n : Fin 4) (h : Voices d e) : Voices d (xoffStart n e) := by
  have hfree := xoff_spoken n
  simp only [List.forall_mem_cons, List.not_mem_nil, false_implies, implies_true, and_true] at hfree
  obtain ⟨hxoff, hpfc, hstart⟩ := hfree
  have hbe : Voices d (e.chMod n fun c => { c with beOn := c.beOn ||| e.beMask n }) := h.chMod fun _ => rfl
  have hmark (k : Nat) (x : Dev) (hx : Voices d x) : Voices d (markXoff n k x) := hx.chMod fun _ => rfl
  have hsend (k : WireKind) (v q : Nat) (x : Dev) (hx : Voices d x) : Voices d (sendPause n k v q x) := hx.chMod fun _ => rfl
  have hshow (g : Chan → Chan) (c : Bool) (hg : ∀ c, gaspPart (g c) = gaspPart c) : Voices d (pfcShow n
      (((e.chMod n fun c => { c with beOn := c.beOn ||| e.beMask n }).chMod n g).evIf c (CHn_EVENT.XOFF_START n))) :=
    Voices.wr (.ite ((hbe.chMod hg).wr hstart) (hbe.chMod hg)) hpfc
  unfold Machine.xoffStart
  dsimp only
  split
  · have hown (b : Bool) : Voices d (if b = true then
        ((e.chMod n fun c => { c with beOn := c.beOn ||| e.beMask n }).wrB (CHn_STATUS.XOFF n) true).ev (CHn_EVENT.XOFF_START n)
        else e.chMod n fun c => { c with beOn := c.beOn ||| e.beMask n }) :=
      .ite (Voices.wr (hbe.wr hxoff) hstart) hbe
    exact .ite (hmark _ _ (hsend _ _ _ _ (hown _))) (hown _)
  · exact .ite (hshow _ _ fun _ => rfl)
      (hsend _ _ _ _ (Voices.foldl _ (hshow _ _ fun _ => rfl) fun _ _ _ hx => hmark _ _ hx))
  · exact h

theorem Plain.enqueue {y : Frm} (hy : Plain y) (h : Voices d e) : Voices d (enqueue 0 y e) := by
  unfold Machine.enqueue
  split_ifs
  · exact hy.dropFrame (by decide) h
  · exact hy.dropFrame (by decide) h
  · refine Voices.foldl _ (Voices.pmemSync (h.chMod fun _ => rfl)) fun n hn _ hx => ?_
    exact hx.xoffStart ⟨n, List.mem_range.mp hn⟩
  · exact hy.dropFrame (by decide) h

theorem Voices.llbSend {w tc : Nat} {bs : Bytes} (h : Voices d e) : Voices d (llbSend w tc bs e) := by
  unfold Machine.llbSend
  refine Plain.enqueue ⟨rfl, rfl, rfl, rfl⟩ (h.same ?_ rfl rfl)
  exact (Stands.refl _ e).parts rfl rfl

theorem llb_spoken : ∀ f ∈ [LLB_EV_SEQ.NEXT, LLB_EV_LOST.COUNT, LLB_EVENT.EV_LOST], Free Spoken f := by
  have h : ∀ f ∈ [LLB_EV_SEQ.NEXT, LLB_EV_LOST.COUNT, LLB_EVENT.EV_LOST], f.off / 0x4000 ∈ [8, 9, 10, 11, 16, 21, 25] ∧
      ∀ g ∈ [CHn_STATUS.LINK 0, CHn_STATUS.RUN 0, CHn_STATUS.FENCED 0], Field.apart f g = true := by decide
  exact fun f hf => free_spoken (h f hf).1 (h f hf).2

theorem Voices.llbEmit {k a b : Nat} (h : Voices d e) : Voices d (llbEmit k a b e) := by
  have hfree := llb_spoken
  simp only [List.forall_mem_cons, List.not_mem_nil, false_implies, implies_true, and_true] at hfree
  obtain ⟨hnext, hcount, hlost⟩ := hfree
  have hllb (f : Llb → Llb) (x : Dev) (hx : Voices d x) : Voices d (x.llbMod f) := hx.same ((Stands.refl _ x).parts rfl rfl) rfl rfl
  have hseq (v : Nat) (y : LlbEv) : Voices d (llbEvCopy y (e.wr LLB_EV_SEQ.NEXT v)) := .ite (h.wr hnext).llbSend (h.wr hnext)
  unfold Machine.llbEmit
  exact .ite (.ite (hseq _ _) (hllb _ _ (.ite (.wr (.wr (hseq _ _) hcount) hlost) (hseq _ _)))) h

end

end Sys2Proof.Machine
end

section
/-!
PROOFS. A loss declared; copies of the gasp; the obligation on feed samples (R55 to R57, R65, R67, R68).
-/

namespace Sys2Proof.Machine

section
variable {d e : Dev}

/-! ### Whether a gasp may go (R67) -/

/-- The registers that decide whether a gasp may go, the tier aside. -/
def gaspReads : List Field :=
  (List.range 15).map RAT_GASP_TPLk.BYTES ++
    [RAT_GASP_CFG.EN, RAT_DOM_STATUS.PD_ON, CHn_STATUS.LINK 0, CHn_STATUS.RUN 0, CHn_STATUS.FENCED 0, RST_BOOT_STATUS.HOLD]

theorem gaspOk_congr (h : ∀ f ∈ gaspReads, e.rd f = d.rd f) (ht : e.tier = d.tier) (hf : (e.ch 0).fencing = (d.ch 0).fencing) :
    e.gaspOk = d.gaspOk := by
  have htpl : gaspTemplate e = gaspTemplate d := by
    unfold gaspTemplate
    exact List.flatMap_congr fun k hk => by
      rw [h _ (List.mem_append_left _ (List.mem_map_of_mem (f := RAT_GASP_TPLk.BYTES) hk))]
  have hreg (f : Field) (hf : f ∈ gaspReads.drop 15) : e.rd f = d.rd f := h f (List.mem_of_mem_drop hf)
  have hlink : e.gaspLink = d.gaspLink := by
    rw [Dev.gaspLink, Dev.gaspLink, Dev.shut, Dev.shut, Dev.fenced, Dev.fenced, Dev.pd, Dev.pd, Dev.bitOf, Dev.bitOf, Dev.chRun,
      Dev.chRun, Dev.on, Dev.on, Dev.on, Dev.on, ht, hf, hreg _ (by decide), hreg _ (by decide), hreg _ (by decide),
      hreg _ (by decide)]
  rw [Dev.gaspOk, Dev.gaspOk, htpl, hlink, Dev.on, Dev.on, Dev.on, Dev.on, hreg _ (by decide), hreg _ (by decide)]

/-! ### The loss is shown and recorded (R65, R68) -/

/-- The loss shows. -/
def lossMarked (d : Dev) : Dev := ((d.ratPut RAT_STATUS.LOSS 1).ev RAT_EVENT.FEED_LOSS).sat RAT_LOSS_CNT.LOSSES

/-- What the Ration controller notes of it. -/
def lossNoted (d : Dev) : Dev := d.ratMod fun r =>
  { r with losses := r.losses + 1, lossFr := d.frameExt, cellLow := false, sfLoss := 0, cellMin := d.rd MON_CELL_V.VALUE,
           gaspLeft := 0, gaspOut := false }

/-- The record is sealed with the ride-through time. -/
def rideSealed (d : Dev) : Dev := recSeal (d.ramSet 7 (d.rd RAT_RIDE.MS))

/-- The record is announced. -/
def lossSaid (d : Dev) : Dev :=
  llbEmit 3 (d.rd RAT_RIDE.MS) (d.rd MON_CELL_V.VALUE) (sagAbortWith 2 (d.ev RAT_EVENT.LOSS_RECORD))

/-- All of it. -/
def lossShown (d : Dev) : Dev := lossSaid (rideSealed (rideUpdate true (lossRecord (lossNoted (lossMarked d)).sagOn
  (lossNoted (lossMarked d)))))

theorem feedLoss_due {m : Nat} (hn : (atMote m d).rd RAT_THR_LOSS.LOSS_N ≤ (atMote m d).rat.lowRun)
    (hl : (atMote m d).ratOn RAT_STATUS.LOSS = false) : feedLoss m d =
      if (lossShown (atMote m d)).gaspOk then gaspQueue ((lossShown (atMote m d)).ratMod fun r =>
        { r with gaspLeft := (lossShown (atMote m d)).rd RAT_GASP_CFG.COPIES }) else gaspSkip (lossShown (atMote m d)) := by
  unfold feedLoss
  dsimp only
  exact if_pos ⟨hn, by rw [hl]; rfl⟩

theorem ratPut_rat (f : Field) (v : Nat) (d : Dev) : ∃ w, (d.ratPut f v).rat = { d.rat with shadow := w } := by
  unfold Dev.ratPut
  split
  · exact ⟨_, rfl⟩
  · exact ⟨d.rat.shadow, rfl⟩

theorem ratPut_stands {f : Field} {v : Nat} : Stands (Beside [f]) d (d.ratPut f v) := by
  unfold Dev.ratPut
  split
  · exact (Stands.refl _ d).parts rfl rfl
  · exact (Stands.refl _ d).wr (.listed (by simp))

theorem ratPut_hearth (f : Field) (v : Nat) (d : Dev) : (d.ratPut f v).hearth = d.hearth := by
  unfold Dev.ratPut
  split <;> rfl

theorem lossMarked_shows (d : Dev) :
    Stands (Beside [RAT_STATUS.LOSS, RAT_EVENT.FEED_LOSS, RAT_LOSS_CNT.LOSSES]) d (lossMarked d) ∧
    (lossMarked d).rd RAT_EVENT.FEED_LOSS = 1 ∧
    (lossMarked d).rd RAT_LOSS_CNT.LOSSES = min (d.rd RAT_LOSS_CNT.LOSSES + 1) 65535 := by
  have hput : Stands (Beside [RAT_STATUS.LOSS]) d (d.ratPut RAT_STATUS.LOSS 1) := ratPut_stands
  unfold lossMarked
  generalize d.ratPut RAT_STATUS.LOSS 1 = x at *
  refine ⟨Stands.sat (Stands.ev (hput.widen (by simp)) (.listed (by simp))) (.listed (by simp)), ?_, ?_⟩
  · rw [rd_sat_apart _ _ _ _ (by decide)]
    exact (rd_ev_same (by decide)).trans (by decide)
  · rw [rd_sat_same _ _ _ (by decide), rd_ev_apart _ _ _ (by decide), hput.rd (by decide)]
    rfl

theorem lossMarked_ratGet (f : Field) (d : Dev) : (lossMarked d).ratGet f = (d.ratPut RAT_STATUS.LOSS 1).ratGet f := by
  rw [lossMarked, ratGet_sat (by decide), ratGet_ev (by decide)]

theorem lossMarked_parts (d : Dev) : (∃ w, (lossMarked d).rat = { d.rat with shadow := w }) ∧ (lossMarked d).chan = d.chan ∧
    (lossMarked d).hearth = d.hearth ∧ (lossMarked d).ratOn RAT_STATUS.LOSS = true ∧ (lossMarked d).tier = d.tier := by
  refine ⟨?_, ?_, ?_, ?_, ?_⟩
  · obtain ⟨w, hw⟩ := ratPut_rat RAT_STATUS.LOSS 1 d
    exact ⟨w, by rw [lossMarked, sat_rat, ev_rat, hw]⟩
  · rw [lossMarked, sat_chan, ev_chan, ratPut_chan]
  · rw [lossMarked, sat_hearth, ev_hearth, ratPut_hearth]
  · rw [Dev.ratOn, lossMarked_ratGet, ratGet_ratPut_same rfl (by decide)]
    decide
  · rw [Dev.tier, Dev.tier, lossMarked_ratGet, ratGet_ratPut_apart rfl (by decide)]

/-- The words of the record of a loss. -/
def lossWords (sag : Bool) (d : Dev) : List Nat :=
  [0x4C4F5353, d.rat.losses, d.now % 2 ^ 32, d.now / 2 ^ 32,
    d.tier + (4 * b2n sag + 8 * b2n d.rat.hostPwr + 16 * b2n d.holds) * 2 ^ 8 + d.rd MON_CELL_V.VALUE * 2 ^ 16, d.feedP,
    d.feedV % 2 ^ 16 + uns 16 (sgn 12 (d.rd MON_TEMP_MAX.QDEG)) * 2 ^ 16, 0,
    d.fld.gpiIn + d.rd FLD_GPO.LEVEL * 2 ^ 16, 0, 0, 0, d.rd MON_CELL_V.VALUE, 0, 0, 0]

theorem lossRecord_eq (sag : Bool) (d : Dev) : lossRecord sag d = ramPuts (lossWords sag d) 0 d := rfl

theorem lossRecord_word (sag : Bool) (d : Dev) {k : Nat} (hk : k < 16) :
    (lossRecord sag d).ramWord k = (lossWords sag d).getD k 0 % 2 ^ 32 := by
  rw [lossRecord_eq, ramPuts_word, if_pos ⟨Nat.zero_le k, hk.trans_eq (Nat.zero_add 16).symm⟩, Nat.sub_zero]

theorem tier_lt (d : Dev) : d.tier < 8 := bits_lt _ _ 3

/-- Word 4 begins without the marks of the gasp. -/
theorem lossFlags (t : Nat) (a b c : Bool) (v : Nat) (ht : t < 8) :
    bit ((t + (4 * b2n a + 8 * b2n b + 16 * b2n c) * 2 ^ 8 + v * 2 ^ 16) % 2 ^ 32) 9 = false := by
  have ha := b2n_le_one a
  have hb := b2n_le_one b
  have hc := b2n_le_one c
  simp only [bit, beq_eq_false_iff_ne]
  omega

/-- The ride-through time and the power it is reckoned with. -/
def rideSet (ms p : Nat) (d : Dev) : Dev := (d.wr RAT_RIDE.MS ms).ratMod fun r => { r with pUw := p }

theorem rideUpdate_eq (b : Bool) (d : Dev) : ∃ ms p, rideUpdate b d = rideSet ms p d := ⟨_, _, rfl⟩

theorem rideUpdate_shows (b : Bool) (d : Dev) : Stands (Beside [RAT_RIDE.MS]) d (rideUpdate b d) ∧
    (∃ p, (rideUpdate b d).rat = { d.rat with pUw := p }) ∧ (rideUpdate b d).chan = d.chan ∧
    ∀ k, (rideUpdate b d).ramWord k = d.ramWord k := by
  obtain ⟨ms, p, he⟩ := rideUpdate_eq b d
  rw [he]
  refine ⟨((Stands.refl _ d).wr (.listed (by simp))).ratMod, ⟨p, ?_⟩, ?_, fun k => ?_⟩
  · rw [rideSet, ratMod_rat, wr_rat]
  · rw [rideSet, ratMod_chan, wr_chan]
  · rw [Dev.ramWord, Dev.ramWord, rideSet, ratMod_sram, wr_sram]

theorem rideSealed_shows (d : Dev) : (∀ g, (rideSealed d).rd g = d.rd g) ∧ (rideSealed d).rat = d.rat ∧
    (rideSealed d).chan = d.chan ∧ (rideSealed d).ramWord 7 = d.rd RAT_RIDE.MS ∧
    (rideSealed d).ramWord 15 = crc32 (ramBytes (rideSealed d) 15) ∧
    ∀ k, k ≠ 7 → k ≠ 15 → (rideSealed d).ramWord k = d.ramWord k := by
  refine ⟨fun g => ?_, ?_, ?_, ?_, recSeal_sealed, fun k h7 h15 => ?_⟩
  · rw [rideSealed, recSeal, ramSet_rd, ramSet_rd]
  · rw [rideSealed, recSeal, ramSet_rat, ramSet_rat]
  · rw [rideSealed, recSeal, ramSet_chan, ramSet_chan]
  · rw [rideSealed, recSeal_word, if_neg (by decide), ramWord_ramSet, if_pos rfl]
    exact Nat.mod_eq_of_lt (rd_lt d RAT_RIDE.MS)
  · rw [rideSealed, recSeal_word, if_neg h15, ramWord_ramSet, if_neg h7]

/-- What a sag test that ends writes (Table 17.3). -/
def sagFields : List Field :=
  [FLD_CELL_STATUS.SAG_STATE, FLD_CELL_STATUS.SAG_RESULT, FLD_CELL_CTRL.SAG_START, FLD_EVENT.SAG_ABORT, FLD_EVENT.CELL_GONE]

theorem sagAbort_stands (r : Nat) : Stands (Beside sagFields) d (sagAbortWith r d) := by
  have hstate : Stands (Beside sagFields) d (sagEnter 0 d) :=
    Stands.parts ((Stands.refl _ d).wr (f := FLD_CELL_STATUS.SAG_STATE) (v := 0) (.listed (by simp [sagFields]))) rfl rfl
  have hend : Stands (Beside sagFields) d (sagEnd r d) := Stands.parts
    ((hstate.wr (f := FLD_CELL_STATUS.SAG_RESULT) (v := r) (.listed (by simp [sagFields]))).wrB (f := FLD_CELL_CTRL.SAG_START)
      (b := false) (.listed (by simp [sagFields]))) rfl rfl
  have hev := hend.ev (f := FLD_EVENT.SAG_ABORT) (.listed (by simp [sagFields]))
  exact .ite (.ite (hev.ev (.listed (by simp [sagFields]))) hev) (.refl _ d)

theorem sagEnd_parts (r : Nat) (d : Dev) : (sagEnd r d).rat = d.rat ∧ (sagEnd r d).chan = d.chan := ⟨rfl, rfl⟩

theorem sagAbort_parts (r : Nat) (d : Dev) : (sagAbortWith r d).rat = d.rat ∧ (sagAbortWith r d).chan = d.chan := by
  obtain ⟨hrat, hchan⟩ := sagEnd_parts r d
  unfold sagAbortWith
  split
  · dsimp only
    split
    · rw [ev_rat, ev_rat, ev_chan, ev_chan]
      exact ⟨hrat, hchan⟩
    · rw [ev_rat, ev_chan]
      exact ⟨hrat, hchan⟩
  · exact ⟨rfl, rfl⟩

/-- What the announcement of a loss leaves alone. -/
abbrev LossSpoken (g : Field) : Prop := Spoken g ∧ Beside (RAT_EVENT.LOSS_RECORD :: sagFields) g

theorem lossSaid_shows (d : Dev) : Stands LossSpoken d (lossSaid d) ∧ (lossSaid d).rat = d.rat ∧
    gaspPart ((lossSaid d).ch 0) = gaspPart (d.ch 0) ∧ (lossSaid d).chan.length = d.chan.length ∧
    (lossSaid d).rd RAT_EVENT.LOSS_RECORD = 1 := by
  have hev : Stands (Beside [RAT_EVENT.LOSS_RECORD]) d (d.ev RAT_EVENT.LOSS_RECORD) := (Stands.refl _ d).ev (.listed (by simp))
  have hone : (d.ev RAT_EVENT.LOSS_RECORD).rd RAT_EVENT.LOSS_RECORD = 1 := (rd_ev_same (by decide)).trans (by decide)
  have hrat : (d.ev RAT_EVENT.LOSS_RECORD).rat = d.rat := ev_rat ..
  have hchan : (d.ev RAT_EVENT.LOSS_RECORD).chan = d.chan := ev_chan ..
  unfold lossSaid
  generalize d.rd RAT_RIDE.MS = a
  generalize d.rd MON_CELL_V.VALUE = b
  generalize d.ev RAT_EVENT.LOSS_RECORD = x at *
  have hsag : Stands (Beside sagFields) x (sagAbortWith 2 x) := sagAbort_stands 2
  obtain ⟨hsrat, hschan⟩ := sagAbort_parts 2 x
  generalize sagAbortWith 2 x = y at *
  have hvoice : Voices y (llbEmit 3 a b y) := .llbEmit (.refl y)
  refine ⟨⟨fun g ⟨hg, hb⟩ => ?_, ?_⟩, ?_, ?_, ?_, ?_⟩
  · rw [hvoice.stands.rd hg, hsag.rd fun f hf => hb f (List.mem_cons_of_mem _ hf), hev.rd fun f hf => by
      rw [List.mem_singleton.mp hf]
      exact hb _ (by simp)]
  · rw [hvoice.stands.2, hsag.2, hev.2]
  · rw [hvoice.rat, hsrat, hrat]
  · rw [hvoice.part, Dev.ch, hschan, hchan, ← Dev.ch]
  · rw [hvoice.len, hschan, hchan]
  · rw [hvoice.stands.rd (.inl (by decide)), hsag.rd (by decide), hone]

end

end Sys2Proof.Machine
end

section
/-!
PROOFS. A loss as a whole; the obligation on feed samples (R55 to R57, R65, R67, R68).
-/

namespace Sys2Proof.Machine

section
variable {d e : Dev}

theorem ratGet_congr (hs : e.rat.shadow = d.rat.shadow)
    (hw : e.rd ⟨RAT_STATUS.addr, 0, 32⟩ = d.rd ⟨RAT_STATUS.addr, 0, 32⟩) (f : Field) : e.ratGet f = d.ratGet f := by
  rw [Dev.ratGet, Dev.ratGet, Dev.ratWord, Dev.ratWord, hs, word_eq_rd, word_eq_rd, hw]

/-- What the record of a loss leaves alone. -/
abbrev LossFree (g : Field) : Prop :=
  LossSpoken g ∧ Beside [RAT_STATUS.LOSS, RAT_EVENT.FEED_LOSS, RAT_LOSS_CNT.LOSSES, RAT_RIDE.MS] g

/-- From the loss shown to the record announced. -/
structure Recorded (d e : Dev) : Prop where
  reads : ∀ g, LossSpoken g → Beside [RAT_RIDE.MS] g → e.rd g = d.rd g
  shadow : e.rat.shadow = d.rat.shadow
  part : gaspPart (e.ch 0) = gaspPart (d.ch 0)
  len : e.chan.length = d.chan.length
  event : e.rd RAT_EVENT.LOSS_RECORD = 1
  ride : e.ramWord 7 = e.rd RAT_RIDE.MS
  sealed : e.ramWord 15 = crc32 (ramBytes e 15)
  words : ∀ k < 15, k ≠ 7 → e.ramWord k = (lossWords d.sagOn d).getD k 0 % 2 ^ 32

theorem lossRecord_parts (sag : Bool) (d : Dev) : (∀ g, (lossRecord sag d).rd g = d.rd g) ∧ (lossRecord sag d).rat = d.rat ∧
    (lossRecord sag d).chan = d.chan := by
  obtain ⟨m, hm⟩ := ramPuts_aside (lossWords sag d) 0 d
  rw [lossRecord_eq, hm]
  exact ⟨fun _ => rfl, rfl, rfl⟩

theorem recorded (d : Dev) : Recorded d (lossSaid (rideSealed (rideUpdate true (lossRecord d.sagOn d)))) := by
  obtain ⟨hrd1, hrat1, hchan1⟩ := lossRecord_parts d.sagOn d
  have hword1 (k : Nat) (hk : k < 15) := lossRecord_word d.sagOn d (k := k) (by omega)
  generalize lossRecord d.sagOn d = x1 at *
  obtain ⟨hstands2, ⟨p, hrat2⟩, hchan2, hword2⟩ := rideUpdate_shows true x1
  generalize rideUpdate true x1 = x2 at *
  obtain ⟨hrd3, hrat3, hchan3, hride3, hseal3, hword3⟩ := rideSealed_shows x2
  generalize rideSealed x2 = x3 at *
  obtain ⟨hstands4, hrat4, hpart4, hlen4, hev4⟩ := lossSaid_shows x3
  have hword4 (k : Nat) : (lossSaid x3).ramWord k = x3.ramWord k := by rw [Dev.ramWord, Dev.ramWord, hstands4.2]
  refine ⟨fun g hg hb => ?_, ?_, ?_, ?_, hev4, ?_, ?_, fun k hk h7 => ?_⟩
  · rw [hstands4.rd hg, hrd3, hstands2.rd hb, hrd1]
  · rw [hrat4, hrat3, hrat2, hrat1]
  · rw [hpart4, Dev.ch, hchan3, hchan2, hchan1, ← Dev.ch]
  · rw [hlen4, hchan3, hchan2, hchan1]
  · rw [hword4, hride3, hstands4.rd (by decide), hrd3]
  · rw [hword4, hseal3, ramBytes_congr fun k _ => hword4 k]
  · rw [hword4, hword3 k h7 (by omega), hword2, hword1 k hk]

theorem lossNoted_parts (d : Dev) : (∀ g, (lossNoted d).rd g = d.rd g) ∧ (lossNoted d).rat.shadow = d.rat.shadow ∧
    (lossNoted d).rat.losses = d.rat.losses + 1 ∧ (lossNoted d).rat.filtP = d.rat.filtP ∧ (lossNoted d).chan = d.chan ∧
    (lossNoted d).hearth = d.hearth ∧ (lossNoted d).tier = d.tier ∧ (lossNoted d).sram = d.sram :=
  ⟨fun _ => rfl, rfl, rfl, rfl, rfl, rfl, rfl, rfl⟩

/-- A loss shown and recorded. -/
theorem lossShown_shows (d : Dev) : (∀ g, LossFree g → (lossShown d).rd g = d.rd g) ∧
    (lossShown d).ratOn RAT_STATUS.LOSS = true ∧ (lossShown d).rd RAT_EVENT.FEED_LOSS = 1 ∧
    (lossShown d).rd RAT_EVENT.LOSS_RECORD = 1 ∧
    (lossShown d).rd RAT_LOSS_CNT.LOSSES = min (d.rd RAT_LOSS_CNT.LOSSES + 1) 65535 ∧
    gaspPart ((lossShown d).ch 0) = gaspPart (d.ch 0) ∧ (lossShown d).chan.length = d.chan.length ∧
    (lossShown d).tier = d.tier := by
  obtain ⟨hstands, hloss, hcount⟩ := lossMarked_shows d
  obtain ⟨-, hchan, -, hon, htier⟩ := lossMarked_parts d
  obtain ⟨hrd, hshadow, -, -, hnchan, -, -, -⟩ := lossNoted_parts (lossMarked d)
  have hrec := recorded (lossNoted (lossMarked d))
  rw [show lossSaid (rideSealed (rideUpdate true (lossRecord (lossNoted (lossMarked d)).sagOn (lossNoted (lossMarked d))))) =
    lossShown d from rfl] at hrec
  have hget := ratGet_congr (hrec.shadow.trans hshadow) ((hrec.reads _ (by decide) (by decide)).trans (hrd _))
  generalize lossShown d = x at *
  generalize lossNoted (lossMarked d) = y at *
  refine ⟨fun g ⟨hg, hb⟩ => ?_, ?_, ?_, hrec.event, ?_, ?_, ?_, ?_⟩
  · rw [hrec.reads g hg (fun f hf => List.mem_singleton.mp hf ▸ hb RAT_RIDE.MS (by simp)), hrd, hstands.rd fun f hf => hb f (by
      simp only [List.mem_cons, List.not_mem_nil, or_false] at hf ⊢
      tauto)]
  · rw [Dev.ratOn, hget, ← Dev.ratOn, hon]
  · rw [hrec.reads _ (by decide) (by decide), hrd, hloss]
  · rw [hrec.reads _ (by decide) (by decide), hrd, hcount]
  · rw [hrec.part, Dev.ch, hnchan, hchan, ← Dev.ch]
  · rw [hrec.len, hnchan, hchan]
  · rw [Dev.tier, hget, ← Dev.tier, htier]

/-- The words of its record. -/
theorem lossShown_words (d : Dev) : (lossShown d).ramWord 0 = 0x4C4F5353 ∧
    (lossShown d).ramWord 1 = (d.rat.losses + 1) % 2 ^ 32 ∧ (lossShown d).ramWord 2 = d.now % 2 ^ 32 ∧
    (lossShown d).ramWord 3 = d.now / 2 ^ 32 % 2 ^ 32 ∧ (lossShown d).ramWord 5 = d.feedP % 2 ^ 32 ∧
    (lossShown d).ramWord 7 = (lossShown d).rd RAT_RIDE.MS ∧ (lossShown d).ramWord 10 = 0 ∧
    (lossShown d).ramWord 15 = crc32 (ramBytes (lossShown d) 15) ∧ bit ((lossShown d).ramWord 4) 9 = false := by
  obtain ⟨⟨w, hrat⟩, -, hhearth, -, -⟩ := lossMarked_parts d
  obtain ⟨-, -, hlosses, hfilt, -, hnhearth, -, -⟩ := lossNoted_parts (lossMarked d)
  rw [hrat] at hlosses hfilt
  rw [hhearth] at hnhearth
  have hrec := recorded (lossNoted (lossMarked d))
  rw [show lossSaid (rideSealed (rideUpdate true (lossRecord (lossNoted (lossMarked d)).sagOn (lossNoted (lossMarked d))))) =
    lossShown d from rfl] at hrec
  generalize lossShown d = x at *
  generalize lossNoted (lossMarked d) = y at *
  have hnow : y.now = d.now := congrArg (fun h => h.a.t) hnhearth
  have hword (k : Nat) (hk : k < 15) (h7 : k ≠ 7) {v : Nat} (hv : (lossWords y.sagOn y)[k]? = some v) : x.ramWord k = v % 2 ^ 32 := by
    rw [hrec.words k hk h7, List.getD_eq_getElem?_getD, hv, Option.getD_some]
  refine ⟨?_, ?_, ?_, ?_, ?_, hrec.ride, ?_, hrec.sealed, ?_⟩
  · exact (hword 0 (by decide) (by decide) rfl).trans (by decide)
  · rw [hword 1 (by decide) (by decide) rfl, hlosses]
  · rw [hword 2 (by decide) (by decide) rfl, hnow, Nat.mod_mod]
  · rw [hword 3 (by decide) (by decide) rfl, hnow]
  · rw [hword 5 (by decide) (by decide) rfl, Dev.feedP, hfilt, ← Dev.feedP]
  · rw [hword 10 (by decide) (by decide) rfl, Nat.zero_mod]
  · rw [hword 4 (by decide) (by decide) rfl]
    exact lossFlags _ _ _ _ _ (tier_lt y)

theorem lossFree_gasp : ∀ f ∈ gaspReads, LossFree f := by decide

theorem lossShown_gaspOk (d : Dev) : (lossShown d).gaspOk = d.gaspOk := by
  obtain ⟨hrd, -, -, -, -, hpart, -, htier⟩ := lossShown_shows d
  exact gaspOk_congr (fun f hf => hrd f (lossFree_gasp f hf)) htier (gaspPart_eq hpart).2

theorem loss_within {g : Field} (h : Outside [3, 8, 9, 10, 11, 16, 21, 25, 28] g) : LossFree g := by
  have hb : ∀ f ∈ [RAT_STATUS.LOSS, RAT_EVENT.FEED_LOSS, RAT_LOSS_CNT.LOSSES, RAT_RIDE.MS] ++ (RAT_EVENT.LOSS_RECORD :: sagFields),
      Free (Outside [3, 8, 9, 10, 11, 16, 21, 25, 28]) f := free_inBlocks (by decide)
  refine ⟨⟨.inl ?_, fun f hf => hb f (List.mem_append_right _ hf) g h⟩, fun f hf => hb f (List.mem_append_left _ hf) g h⟩
  simp only [Outside, List.contains_eq_mem, List.mem_cons, List.not_mem_nil, or_false, decide_eq_false_iff_not, not_or] at h ⊢
  tauto

/-- A copy of the gasp is queued on CH0. -/
theorem gaspQueue_shows (hn : 0 < d.chan.length) : Wrote d (gaspQueue d) [] ∧ ((gaspQueue d).ch 0).expq = (d.ch 0).expq ++
      [{ data := gaspFrame d, src := 6, tc := 7, gasp := true }] ∧ (gaspQueue d).rat.gaspLeft = d.rat.gaspLeft - 1 ∧
    (gaspQueue d).rat.gaspNext = d.nowExt + frMt :=
  ⟨(Wrote.refl d).chMod.ratMod, congrArg Chan.expq (ch_chMod hn), rfl, rfl⟩

/-- How a loss ends: the first copy queued, or the gasp skipped. -/
def gaspEnds (d : Dev) : Dev :=
  if d.gaspOk then gaspQueue (d.ratMod fun r => { r with gaspLeft := d.rd RAT_GASP_CFG.COPIES }) else gaspSkip d

theorem gaspEnds_queued (h : d.gaspOk = true) (hn : 0 < d.chan.length) : (∀ g, (gaspEnds d).rd g = d.rd g) ∧
    (gaspEnds d).rat.shadow = d.rat.shadow ∧ (∀ k, (gaspEnds d).ramWord k = d.ramWord k) ∧
    ((gaspEnds d).ch 0).expq.length = (d.ch 0).expq.length + 1 := by
  have heq : gaspEnds d = gaspQueue (d.ratMod fun r => { r with gaspLeft := d.rd RAT_GASP_CFG.COPIES }) := if_pos h
  rw [heq]
  generalize d.rd RAT_GASP_CFG.COPIES = n
  obtain ⟨-, hq, -, -⟩ := gaspQueue_shows (d := d.ratMod fun r => { r with gaspLeft := n }) (by rw [ratMod_chan]; exact hn)
  refine ⟨fun g => ?_, ?_, fun k => ?_, ?_⟩
  · rw [gaspQueue, ratMod_rd, chMod_rd, ratMod_rd]
  · rw [gaspQueue, ratMod_rat, chMod_rat, ratMod_rat]
  · rw [Dev.ramWord, Dev.ramWord, gaspQueue, ratMod_sram, chMod_sram, ratMod_sram]
  · rw [hq, List.length_append, Dev.ch, ratMod_chan, ← Dev.ch]
    rfl

theorem gaspEnds_skipped (h : d.gaspOk = false) : gaspEnds d = gaspSkip d := if_neg (by rw [h]; exact Bool.false_ne_true)

/-- A loss with its end. -/
theorem feedLoss_ends {m : Nat} (hn : d.rd RAT_THR_LOSS.LOSS_N ≤ d.rat.lowRun) (hl : d.ratOn RAT_STATUS.LOSS = false) :
    feedLoss m d = gaspEnds (lossShown (atMote m d)) := by
  refine feedLoss_due (by rw [atMote_rd, atMote_rat]; exact hn) ?_
  rw [Dev.ratOn, ratGet_congr (by rw [atMote_rat]) (atMote_rd ..)]
  exact hl

/-- What the end of a loss leaves of its record. -/
structure LossKept (d e : Dev) : Prop where
  reads : ∀ g, Beside [RAT_EVENT.GASP_SKIPPED] g → e.rd g = d.rd g
  shadow : e.rat.shadow = d.rat.shadow
  words : ∀ k, k ≠ 4 → k ≠ 15 → e.ramWord k = d.ramWord k
  sealed : e.ramWord 15 = crc32 (ramBytes e 15)

theorem gaspEnds_kept (hn : 0 < d.chan.length) (hseal : d.ramWord 15 = crc32 (ramBytes d 15)) : LossKept d (gaspEnds d) := by
  cases h : d.gaspOk with
  | true =>
    obtain ⟨hrd, hshadow, hword, -⟩ := gaspEnds_queued h hn
    exact ⟨fun g _ => hrd g, hshadow, fun k _ _ => hword k, by rw [hword, hseal, ramBytes_congr fun k _ => hword k]⟩
  | false =>
    obtain ⟨honly, -, -, -, hsealed, -, hword⟩ := gaspSkip_shows (d := d)
    have hshadow : (gaspSkip d).rat.shadow = d.rat.shadow := by
      rw [gaspSkip, ratMod_rat, recFlag, recSeal, ramSet_rat, ramSet_rat, ev_rat]
    rw [gaspEnds_skipped h]
    exact ⟨fun g hg => honly g hg, hshadow, hword, hsealed⟩

theorem gaspOk_atMote (m : Nat) (d : Dev) : (atMote m d).gaspOk = d.gaspOk := by
  obtain ⟨h, he⟩ := atMote_eq m d
  rw [he]
  rfl

theorem gaspCopyDue_due {m : Nat} (hl : 0 < d.rat.gaspLeft) (hn : d.rat.gaspNext ≤ (atMote m d).nowExt) : gaspCopyDue m d =
    if (atMote m d).gaspLink then gaspQueue (atMote m d) else gaspSkip (atMote m d) := by
  unfold gaspCopyDue
  dsimp only
  rw [atMote_rat]
  exact if_pos ⟨hl, hn⟩

theorem gaspLink_atMote (m : Nat) (d : Dev) : (atMote m d).gaspLink = d.gaspLink := by
  obtain ⟨h, he⟩ := atMote_eq m d
  rw [he]
  rfl

theorem gaspFrame_congr (h : ∀ f, e.rd f = d.rd f) : gaspFrame e = gaspFrame d := by
  have htpl : gaspTemplate e = gaspTemplate d := by
    unfold gaspTemplate
    exact List.flatMap_congr fun k _ => by rw [h]
  rw [gaspFrame, gaspFrame, htpl]

theorem gaspSent_first (ho : d.rat.gaspOut = true) (hb : bit (d.ramWord 4) 8 = false) :
    gaspSent d = recFlag 0 (d.ev RAT_EVENT.GASP_SENT) := if_pos ⟨ho, by rw [hb]; rfl⟩

end

/-- Settles O5: a conversion by its reading, a loss by its record and what the record leaves for the gasp to be judged by. -/
theorem feedSamplesLossAndGasp : Obligations.FeedSamplesLossAndGasp := by
  unfold Obligations.FeedSamplesLossAndGasp
  intro s
  refine ⟨fun k code hrun hk hc => ?_, fun k code hrun hk => ?_, fun code hrun => ?_, fun q hrun => ?_,
    fun m hn hloss hlen => ?_, fun m hlink hleft hnext hlen => ?_, fun m hlink hleft hnext => ?_, fun ho hb => ?_⟩
  · have hk' : k.val = 0 ∨ k.val = 2 ∨ k.val = 4 := by rcases hk with rfl | rfl | rfl <;> decide
    refine does_run (f := adcConv k code) (fun _ => rfl) ?_
    rw [adcConv_running (d := s.quiet) hrun, if_pos hk']
    obtain ⟨hw, hrat⟩ := sampleV_shows (d := atMote (k * 131072) s.quiet) (c := code.toNat) (by omega)
    refine ⟨Wrote.of_parts hw (atMote_regs ..) (atMote_sram ..), ?_⟩
    rw [hrat, atMote_rat, atMote_rd, atMote_rd]
    exact ⟨rfl, rfl, rfl, rfl⟩
  · have hk' : ¬(k.val = 0 ∨ k.val = 2 ∨ k.val = 4) ∧ k.val ≠ 6 ∧ k.val ≠ 7 := by rcases hk with rfl | rfl | rfl <;> decide
    refine does_run (f := adcConv k code) (fun _ => rfl) ?_
    rw [adcConv_running (d := s.quiet) hrun, if_neg hk'.1, if_neg hk'.2.1, if_neg hk'.2.2]
    refine ⟨(Wrote.atMote _ _).ratMod, ?_⟩
    rw [sampleI, ratMod_rat, atMote_rat]
    exact ⟨rfl, rfl, rfl, rfl⟩
  · refine does_run (f := adcConv 6 code) (fun _ => rfl) ?_
    rw [adcConv_running (d := s.quiet) hrun, if_neg (by decide), if_pos rfl]
    obtain ⟨hw, hrat⟩ := sampleCell_shows (d := atMote (6 * 131072) s.quiet) code.toNat
    have hon : (atMote (6 * 131072) s.quiet).ratOn RAT_STATUS.LOSS = s.quiet.ratOn RAT_STATUS.LOSS := by
      rw [Dev.ratOn, Dev.ratOn, ratGet_congr (by rw [atMote_rat]) (atMote_rd ..)]
    rw [atMote_rd] at hw hrat
    rw [hon, atMote_rat] at hrat
    exact ⟨Wrote.of_parts hw (atMote_regs ..) (atMote_sram ..), hrat⟩
  · refine does_run (f := adcConv 7 q) (fun _ => rfl) ?_
    rw [adcConv_running (d := s.quiet) hrun, if_neg (by decide), if_neg (by decide), if_pos rfl]
    obtain ⟨hw, htemps⟩ := sampleTemp_shows (d := atMote (7 * 131072) s.quiet) q
    rw [tempWord, atMote_frame, atMote_rat, atMote_rd] at hw
    rw [atMote_frame, atMote_rat] at htemps
    exact ⟨Wrote.of_parts hw (atMote_regs ..) (atMote_sram ..), htemps⟩
  · refine ends_run (f := feedLoss m) (fun _ => rfl) ?_
    obtain ⟨hreads, hon, hev, hrec, hcount, hpart, hlength, -⟩ := lossShown_shows (atMote m s.quiet)
    obtain ⟨h0, h1, h2, h3, h5, h7, h10, h15, hflag⟩ := lossShown_words (atMote m s.quiet)
    have hok : (lossShown (atMote m s.quiet)).gaspOk = s.dev.gaspOk := (lossShown_gaspOk _).trans (gaspOk_atMote m s.quiet)
    have hchan : 0 < (lossShown (atMote m s.quiet)).chan.length := by
      rw [hlength, atMote_chan, hlen]
      decide
    have hexp : ((lossShown (atMote m s.quiet)).ch 0).expq = (s.dev.ch 0).expq := by
      rw [(gaspPart_eq hpart).1, Dev.ch, atMote_chan]
      rfl
    have hnow : (atMote m s.quiet).now = (atMote m s.dev).now := by rw [Dev.now, Dev.now, atMote_outs_hearth m s.dev []]
    have hfeed : (atMote m s.quiet).feedP = s.dev.feedP := by
      rw [Dev.feedP, atMote_rat]
      rfl
    rw [feedLoss_ends (d := s.quiet) hn hloss]
    have hkept := gaspEnds_kept hchan h15
    have hqueued := gaspEnds_queued (d := lossShown (atMote m s.quiet))
    have hskipped := gaspEnds_skipped (d := lossShown (atMote m s.quiet))
    rw [atMote_rd] at hcount
    rw [atMote_rat] at h1
    rw [hnow] at h2 h3
    rw [hfeed] at h5
    have hquiet : ∀ g, LossFree g → (lossShown (atMote m s.quiet)).rd g = s.dev.rd g := fun g hg =>
      (hreads g hg).trans (atMote_rd m s.quiet g)
    generalize lossShown (atMote m s.quiet) = x at *
    refine ⟨fun g hg => ?_, ?_, ?_, ?_, ?_, ?_, ?_, ?_, ?_, ?_, ?_, ?_, hkept.sealed, fun h => ?_, fun h => ?_⟩
    · rw [hkept.reads g fun f hf => List.mem_singleton.mp hf ▸ Free.inBlock (by decide) g hg, hquiet g (loss_within hg)]
    · rw [Dev.ratOn, ratGet_congr hkept.shadow (hkept.reads _ (by decide)), ← Dev.ratOn, hon]
    · rw [hkept.reads _ (by decide), hev]
    · rw [hkept.reads _ (by decide), hrec]
    · rw [hkept.reads _ (by decide), hcount]
      rfl
    · rw [hkept.words 0 (by decide) (by decide), h0]
    · rw [hkept.words 1 (by decide) (by decide), h1]
    · rw [hkept.words 2 (by decide) (by decide), h2]
    · rw [hkept.words 3 (by decide) (by decide), h3]
    · rw [hkept.words 5 (by decide) (by decide), h5]
    · rw [hkept.words 7 (by decide) (by decide), h7, hkept.reads _ (by decide)]
    · rw [hkept.words 10 (by decide) (by decide), h10]
    · obtain ⟨-, -, hword, hq⟩ := hqueued (hok.trans h) hchan
      rw [hq, hexp, hword 4, hflag]
      exact ⟨rfl, rfl⟩
    · obtain ⟨-, hsk, -, hbit, -, hch, -⟩ := gaspSkip_shows (d := x)
      rw [hskipped (hok.trans h)]
      refine ⟨hsk, hbit, ?_⟩
      rw [Dev.ch, hch, ← Dev.ch, hexp]
  · refine does_run (f := gaspCopyDue m) (fun _ => rfl) ?_
    rw [← atMote_nowExt m []] at hnext ⊢
    have hyes : (atMote m s.quiet).gaspLink = true := (gaspLink_atMote m s.quiet).trans hlink
    rw [gaspCopyDue_due (d := s.quiet) hleft hnext, if_pos hyes]
    obtain ⟨hw, hq, hl, ht⟩ := gaspQueue_shows (d := atMote m s.quiet) (by rw [atMote_chan, hlen]; decide)
    refine ⟨Wrote.of_parts hw (atMote_regs ..) (atMote_sram ..), ?_, ?_, ht⟩
    · rw [hq, gaspFrame_congr (d := s.dev) fun f => atMote_rd m s.quiet f, Dev.ch, atMote_chan]
      rfl
    · rw [hl, atMote_rat]
  · refine ends_run (f := gaspCopyDue m) (fun _ => rfl) ?_
    rw [← atMote_nowExt m []] at hnext
    have hno : ¬(atMote m s.quiet).gaspLink = true := by
      rw [gaspLink_atMote m s.quiet, show s.quiet.gaspLink = false from hlink]
      exact Bool.false_ne_true
    rw [gaspCopyDue_due (d := s.quiet) hleft hnext, if_neg hno]
    obtain ⟨honly, hev, hl, hbit, hseal, -, -⟩ := gaspSkip_shows (d := atMote m s.quiet)
    exact ⟨fun g hg => (honly g hg).trans (atMote_rd m s.quiet g), hev, hl, hbit, hseal⟩
  · refine ends_run (f := gaspSent) (fun _ => rfl) ?_
    rw [gaspSent_first (d := s.quiet) ho hb]
    have hev : Stands (Beside [RAT_EVENT.GASP_SENT]) s.quiet (s.quiet.ev RAT_EVENT.GASP_SENT) := (Stands.refl _ _).ev (.listed (by simp))
    have hone : (s.quiet.ev RAT_EVENT.GASP_SENT).rd RAT_EVENT.GASP_SENT = 1 := (rd_ev_same (by decide)).trans (by decide)
    have hram : ∀ k, (s.quiet.ev RAT_EVENT.GASP_SENT).ramWord k = s.dev.ramWord k := fun k => by
      rw [Dev.ramWord, hev.2]
      rfl
    generalize s.quiet.ev RAT_EVENT.GASP_SENT = x at *
    refine ⟨fun g hg => (recFlag_rd 0 g).trans (hev.rd hg), (recFlag_rd 0 _).trans hone, recFlag_flagged (by decide),
      recFlag_sealed 0, fun k hk => ?_⟩
    simp only [List.mem_cons, List.not_mem_nil, or_false, not_or] at hk
    rw [recFlag_word (by decide) k hk.2, if_neg hk.1, hram]

end Sys2Proof.Machine
end

section
/-!
PROOFS. The compression engine: blocks, ends and stops of a job (R336 to R345).
-/

namespace Sys2Proof.Machine

/-! ### What the engine shows of its contexts and its job -/

section
variable {P : Field → Prop} {d e : Dev} {j : CmpJob} {c : CmpCtx} {k : Nat}

theorem cmpSync_cmp (d : Dev) : (cmpSync d).cmp = d.cmp := by
  unfold cmpSync
  dsimp only
  split
  · rw [wr_cmp, wr_cmp, wrB_cmp, wr_cmp]
  · rw [wr_cmp, wr_cmp, wrB_cmp, wr_cmp]

theorem cmpSync_outs (d : Dev) : (cmpSync d).outs = d.outs := by
  unfold cmpSync
  dsimp only
  split
  · rw [wr_outs, wr_outs, wrB_outs, wr_outs]
  · rw [wr_outs, wr_outs, wrB_outs, wr_outs]

theorem cmpSync_idle (h : d.cmp.job = none) : (cmpSync d).on CMP_STATUS.BUSY = false := by
  have hjob : (d.wr CMP_CTX_STATE.STATE (((List.range 16).map fun k => (d.cx k).st * 4 ^ k).foldl (· + ·) 0)).cmp.job = none := by
    rw [wr_cmp, h]
  have hbusy (x : Dev) : (((x.wrB CMP_STATUS.BUSY false).wr CMP_STATUS.CUR_CTX 0).wr CMP_STATUS.CUR_FN 0).rd CMP_STATUS.BUSY = 0 := by
    rw [rd_wr_apart _ _ _ _ (by decide), rd_wr_apart _ _ _ _ (by decide)]
    exact rd_wr_same x CMP_STATUS.BUSY 0 (by decide)
  unfold cmpSync
  dsimp only
  split
  case h_1 i hi => exact absurd (hi.symm.trans hjob) (Option.some_ne_none i)
  case h_2 => rw [Dev.on, hbusy]; rfl

theorem setJob_cmp (j : CmpJob) (d : Dev) : (setJob j d).cmp = { d.cmp with job := some j } := by
  rw [setJob, cmpSync_cmp]
  rfl

theorem setCx_cmp (k : Nat) (c : CmpCtx) (d : Dev) : (setCx k c d).cmp = { d.cmp with ctx := d.cmp.ctx.set k c } := by
  rw [setCx, cmpSync_cmp]
  rfl

theorem Stands.setJob (h : Stands P d e) (hP : ∀ f ∈ cmpFields, Free P f) : Stands P d (setJob j e) := Stands.cmpSync h.cmpMod hP

theorem Stands.setCx (h : Stands P d e) (hP : ∀ f ∈ cmpFields, Free P f) : Stands P d (setCx k c e) := Stands.cmpSync h.cmpMod hP

theorem cx_set (hk : k < d.cmp.ctx.length) (h : e.cmp.ctx = d.cmp.ctx.set k c) : e.cx k = c := by
  rw [Dev.cx, h, List.getD_eq_getElem?_getD, List.getElem?_set_self hk]
  rfl

theorem cmpEmpty_cmp (sel : Nat → Bool) (d : Dev) : (cmpEmpty sel d).cmp =
    { d.cmp with ctx := ((List.range 16).zip d.cmp.ctx).map fun (k, c) => if sel k then {} else c } := by
  have hev (b : Bool) (x : Dev) : (x.evIf b CMP_EVENT.CTX_LOST).cmp = x.cmp := by cases b <;> rfl
  exact (cmpSync_cmp _).trans (hev _ _)

theorem cmpEmpty_outs (sel : Nat → Bool) (d : Dev) : (cmpEmpty sel d).outs = d.outs := by
  have hev (b : Bool) (x : Dev) : (x.evIf b CMP_EVENT.CTX_LOST).outs = x.outs := by cases b <;> rfl
  exact (cmpSync_outs _).trans (hev _ _)

theorem cmpEmpty_length {sel : Nat → Bool} (h : d.cmp.ctx.length = 16) : (cmpEmpty sel d).cmp.ctx.length = 16 := by
  rw [cmpEmpty_cmp]
  simp [h]

theorem cmpEmpty_cx {sel : Nat → Bool} (h : d.cmp.ctx.length = 16) (hk : k < 16) (hsel : sel k = true) :
    (cmpEmpty sel d).cx k = {} := by
  rw [Dev.cx, cmpEmpty_cmp]
  simp [List.getD_eq_getElem?_getD, h, hk, hsel]

end

/-! ### A job is returned (R339, R341) -/

section
variable {P : Field → Prop} {d e : Dev} {j : CmpJob}

/-- What returning a job writes, its count aside. -/
def returnFields : List Field := tagFields ++ cmpFields

/-- The engine is free of job j, which it returns. -/
def returned (j : CmpJob) (status used made : Nat) (d : Dev) : Dev :=
  cmpSync (cmpWriteBack j.ring j.cnt status used made j.blocks j.vf j.strEnd (d.cmpMod fun m => { m with job := none }))

theorem cmpFinish_ok (used made : Nat) : cmpFinish j 0 used made d = returned j 0 used made d := rfl

theorem cmpFinish_abort (used made : Nat) :
    cmpFinish j 6 used made d = returned j 6 used made ((d.sat CMP_ABORTS.COUNT).ev CMP_EVENT.JOB_ABORT) := rfl

theorem cmpFinish_outFull (used made : Nat) : cmpFinish j 7 used made d = returned j 7 used made (d.ev CMP_EVENT.OUT_FULL) := rfl

theorem cmpFinish_dataErr (used made : Nat) :
    cmpFinish j 8 used made d = returned j 8 used made ((d.sat CMP_DATA_ERR.COUNT).ev CMP_EVENT.DATA_ERR) := rfl

theorem sat_setRing (r n : Nat) (x : Ring) (f : Field) : (d.setRing r x).sat f n = (d.sat f n).setRing r x := rfl

/-- Writing back a job counts it; the rest is work on its ring. -/
theorem cmpWriteBack_work {r cnt status used made blocks : Nat} {vf strEnd : Bool} (hP : ∀ f ∈ tagFields, Free P f) :
    Work P (d.sat CMP_JOBS.COUNT) (cmpWriteBack r cnt status used made blocks vf strEnd d) := by
  unfold cmpWriteBack
  dsimp only
  rw [sat_setRing, withdraw]
  exact Work.ringQuiesce (Work.retire (Work.hostMod (Work.setRing (.refl P _))) hP) hP

theorem cmpWriteBack_cmp {r cnt status used made blocks : Nat} {vf strEnd : Bool} :
    (cmpWriteBack r cnt status used made blocks vf strEnd d).cmp = d.cmp := by
  have hwork : Work (fun _ => False) (d.sat CMP_JOBS.COUNT) (cmpWriteBack r cnt status used made blocks vf strEnd d) :=
    cmpWriteBack_work fun _ _ _ h => h.elim
  rw [hwork.part Dev.cmp fun _ _ _ _ _ => rfl, sat_cmp]

theorem returned_cmp (status used made : Nat) : (returned j status used made d).cmp = { d.cmp with job := none } :=
  (cmpSync_cmp _).trans cmpWriteBack_cmp

theorem returned_idle (status used made : Nat) : (returned j status used made d).on CMP_STATUS.BUSY = false :=
  cmpSync_idle (by rw [cmpWriteBack_cmp]; rfl)

/-- Beyond its count a job that is returned moves what the rings, the job and the contexts show, and nothing else. -/
theorem returned_stands (status used made : Nat) :
    Stands (Beside returnFields) (d.sat CMP_JOBS.COUNT) (returned j status used made d) := by
  have htag : ∀ f ∈ tagFields, Free (Beside returnFields) f := fun f hf => .listed (List.mem_append_left _ hf)
  have hcmp : ∀ f ∈ cmpFields, Free (Beside returnFields) f := fun f hf => .listed (List.mem_append_right _ hf)
  exact Stands.cmpSync (cmpWriteBack_work (d := d.cmpMod fun m => { m with job := none }) htag).stands hcmp

theorem returned_counts (status used made : Nat) :
    (returned j status used made d).rd CMP_JOBS.COUNT = min (d.rd CMP_JOBS.COUNT + 1) (2 ^ 32 - 1) :=
  ((returned_stands status used made).rd (by decide)).trans (rd_sat_same d CMP_JOBS.COUNT 1 (by decide))

theorem returned_rd {f : Field} (status used made : Nat) (hf : Beside (CMP_JOBS.COUNT :: returnFields) f) :
    (returned j status used made d).rd f = d.rd f := by
  obtain ⟨hjobs, hrest⟩ := List.forall_mem_cons.mp hf
  exact ((returned_stands status used made).rd hrest).trans (rd_sat_apart d _ f 1 hjobs)

end

end Sys2Proof.Machine
end

section
/-!
PROOFS. How a compression job ends and stops, and the blocks of a job (R336 to R345).
-/

namespace Sys2Proof.Machine

/-! ### Ends and stops -/

section
variable {d e : Dev} {j : CmpJob} {k : Nat}

/-- A job that has ended: the engine is free, the contexts stand, and the job is counted. -/
structure Returned (d e : Dev) : Prop where
  free : e.cmp.job = none
  idle : e.on CMP_STATUS.BUSY = false
  ctx : e.cmp.ctx = d.cmp.ctx
  counted : e.rd CMP_JOBS.COUNT = min (d.rd CMP_JOBS.COUNT + 1) (2 ^ 32 - 1)

theorem returned_shows (status used made : Nat) : Returned d (returned j status used made d) :=
  ⟨by rw [returned_cmp], returned_idle _ _ _, by rw [returned_cmp], returned_counts _ _ _⟩

theorem Returned.after {x : Dev} (h : Returned x e) (hc : x.cmp = d.cmp) (hr : x.rd CMP_JOBS.COUNT = d.rd CMP_JOBS.COUNT) :
    Returned d e := ⟨h.free, h.idle, h.ctx.trans (congrArg Cmp.ctx hc), hr ▸ h.counted⟩

theorem cmpFinish_returns {status : Nat} (used made : Nat) (hst : status = 0 ∨ status = 6 ∨ status = 7 ∨ status = 8) :
    Returned d (cmpFinish j status used made d) := by
  rcases hst with rfl | rfl | rfl | rfl
  · exact returned_shows _ _ _
  · rw [cmpFinish_abort]
    exact (returned_shows _ _ _).after (by rw [ev_cmp, sat_cmp])
      (by rw [rd_ev_apart _ _ _ (by decide), rd_sat_apart _ _ _ _ (by decide)])
  · rw [cmpFinish_outFull]
    exact (returned_shows _ _ _).after (ev_cmp _ _) (rd_ev_apart _ _ _ (by decide))
  · rw [cmpFinish_dataErr]
    exact (returned_shows _ _ _).after (by rw [ev_cmp, sat_cmp])
      (by rw [rd_ev_apart _ _ _ (by decide), rd_sat_apart _ _ _ _ (by decide)])

theorem cmpFinish_full (used made : Nat) : (cmpFinish j 7 used made d).rd CMP_EVENT.OUT_FULL = 1 := by
  rw [cmpFinish_outFull, returned_rd _ _ _ (by decide), rd_ev_same (by decide)]
  rfl

theorem cmpFinish_err (used made : Nat) : (cmpFinish j 8 used made d).rd CMP_EVENT.DATA_ERR = 1 ∧
    (cmpFinish j 8 used made d).rd CMP_DATA_ERR.COUNT = min (d.rd CMP_DATA_ERR.COUNT + 1) (2 ^ CMP_DATA_ERR.COUNT.w - 1) := by
  rw [cmpFinish_dataErr, returned_rd _ _ _ (by decide), returned_rd _ _ _ (by decide), rd_ev_same (by decide),
    rd_ev_apart _ _ _ (by decide), rd_sat_same _ _ _ (by decide)]
  exact ⟨rfl, rfl⟩

theorem cmpFinish_aborts (used made : Nat) : (cmpFinish j 6 used made d).rd CMP_EVENT.JOB_ABORT = 1 ∧
    (cmpFinish j 6 used made d).rd CMP_ABORTS.COUNT = min (d.rd CMP_ABORTS.COUNT + 1) (2 ^ CMP_ABORTS.COUNT.w - 1) := by
  rw [cmpFinish_abort, returned_rd _ _ _ (by decide), returned_rd _ _ _ (by decide), rd_ev_same (by decide),
    rd_ev_apart _ _ _ (by decide), rd_sat_same _ _ _ (by decide)]
  exact ⟨rfl, rfl⟩

theorem cmpJobEnd_fin {st : Nat} (hj : d.cmp.job = some j) (hfin : j.fin = some st) (hstop : j.stop ≠ some 0) :
    cmpJobEnd d = cmpFinish j st j.used j.made d := by
  unfold cmpJobEnd
  rw [hj]
  simp only [hstop, hfin, if_false, reduceCtorEq, and_false]

theorem cmpJobEnd_restore (hj : d.cmp.job = some j) (hfin : j.fin = none) (hop : j.op = 4) (hstop : j.stop ≠ some 0)
    (hinp : 34816 ≤ j.inp.length) : cmpJobEnd d = cmpFinish j (if blobOk j.inp then 0 else 8) 34816 34816
      (setCx (ctxOf j.ring) (if blobOk j.inp then blobCtx j.inp else {}) d) := by
  unfold cmpJobEnd
  rw [hj]
  simp only [hstop, hfin, hop, if_false, if_true, and_self, Nat.not_lt.mpr hinp]

theorem cx_of_ctx (h : e.cmp.ctx = d.cmp.ctx) (k : Nat) : e.cx k = d.cx k := by rw [Dev.cx, Dev.cx, h]

theorem setCx_cx {c : CmpCtx} (hk : k < d.cmp.ctx.length) : (setCx k c d).cx k = c := cx_set hk (by rw [setCx_cmp])

theorem setCx_rd {c : CmpCtx} {f : Field} (hf : Beside cmpFields f) : (setCx k c d).rd f = d.rd f :=
  (Stands.setCx (.refl (Beside cmpFields) d) fun _ h => .listed h).rd hf

theorem setJob_rd {f : Field} (hf : Beside cmpFields f) : (setJob j d).rd f = d.rd f :=
  (Stands.setJob (.refl (Beside cmpFields) d) fun _ h => .listed h).rd hf

theorem cmpEmpty_rd {sel : Nat → Bool} {f : Field} (hf : Beside cmpFields f) : (cmpEmpty sel d).rd f = d.rd f :=
  (Stands.cmpEmpty (.refl (Beside cmpFields) d) fun _ h => .listed h).rd hf

theorem cmpJobEnd_restores (hj : d.cmp.job = some j) (hfin : j.fin = none) (hop : j.op = 4) (hstop : j.stop ≠ some 0)
    (hinp : 34816 ≤ j.inp.length) (hk : ctxOf j.ring < 16) (hctx : d.cmp.ctx.length = 16) :
    (cmpJobEnd d).cmp.job = none ∧ (cmpJobEnd d).cx (ctxOf j.ring) = (if blobOk j.inp then blobCtx j.inp else {}) ∧
      (blobOk j.inp = false → (cmpJobEnd d).rd CMP_EVENT.DATA_ERR = 1) := by
  rw [cmpJobEnd_restore hj hfin hop hstop hinp]
  have hret := cmpFinish_returns (j := j) (d := setCx (ctxOf j.ring) (if blobOk j.inp then blobCtx j.inp else {}) d) 34816 34816
    (show (if blobOk j.inp then 0 else 8) = 0 ∨ (if blobOk j.inp then 0 else 8) = 6 ∨ (if blobOk j.inp then 0 else 8) = 7 ∨
      (if blobOk j.inp then 0 else 8) = 8 by cases blobOk j.inp <;> simp)
  refine ⟨hret.free, ?_, fun hbad => ?_⟩
  · rw [cx_of_ctx hret.ctx, setCx_cx (hctx ▸ hk)]
  · rw [hbad]
    exact (cmpFinish_err _ _).1

/-! A stop for its cause (R342) -/

theorem cmpJobStop_cuts {c : Nat} (hj : d.cmp.job = some j) (hstop : j.stop = some c) (hc : c ≠ 0) (hop : j.op < 3)
    (hfin : j.fin = none) (hb : d.cmpAtBoundary j = true) :
    cmpJobStop d = cmpCut j 6 (if c = 1 then cmpEmpty (fun k => k == ctxOf j.ring) d else d) := by
  obtain ⟨n, rfl⟩ := Nat.exists_eq_succ_of_ne_zero hc
  have h3 : j.op ≠ 3 := by omega
  have h4 : j.op ≠ 4 := by omega
  unfold cmpJobStop
  rw [hj]
  simp only [hstop, hfin, hb, h3, h4, Option.isSome_none, Bool.not_true, Bool.false_eq_true, or_self, if_false]

/-- A job that is cut: ABORT, and its context EMPTY. -/
theorem cmpCut_shows (hk : ctxOf j.ring < 16) (hctx : d.cmp.ctx.length = 16) :
    (cmpCut j 6 d).cmp.job = none ∧ (cmpCut j 6 d).on CMP_STATUS.BUSY = false ∧ (cmpCut j 6 d).cx (ctxOf j.ring) = {} ∧
      (cmpCut j 6 d).rd CMP_ABORTS.COUNT = min (d.rd CMP_ABORTS.COUNT + 1) (2 ^ CMP_ABORTS.COUNT.w - 1) ∧
      (cmpCut j 6 d).rd CMP_EVENT.JOB_ABORT = 1 := by
  have hret := cmpFinish_returns (j := j) (d := setCx (ctxOf j.ring) {} d) j.bUsed j.bMade (.inr (.inl rfl))
  obtain ⟨hev, hcount⟩ := cmpFinish_aborts (j := j) (d := setCx (ctxOf j.ring) {} d) j.bUsed j.bMade
  rw [setCx_rd (by decide)] at hcount
  exact ⟨hret.free, hret.idle, by rw [cmpCut, cx_of_ctx hret.ctx, setCx_cx (hctx ▸ hk)], hcount, hev⟩

theorem cmpJobStop_aborts (hj : d.cmp.job = some j) (hstop : j.stop = some 1 ∨ j.stop = some 2) (hop : j.op < 3)
    (hfin : j.fin = none) (hk : ctxOf j.ring < 16) (hctx : d.cmp.ctx.length = 16) (hb : d.cmpAtBoundary j = true) :
    (cmpJobStop d).cmp.job = none ∧ (cmpJobStop d).on CMP_STATUS.BUSY = false ∧ (cmpJobStop d).cx (ctxOf j.ring) = {} ∧
      (cmpJobStop d).rd CMP_ABORTS.COUNT = min (d.rd CMP_ABORTS.COUNT + 1) (2 ^ CMP_ABORTS.COUNT.w - 1) ∧
      (cmpJobStop d).rd CMP_EVENT.JOB_ABORT = 1 := by
  rcases hstop with hstop | hstop
  · rw [cmpJobStop_cuts hj hstop (by decide) hop hfin hb, if_pos rfl,
      ← cmpEmpty_rd (d := d) (sel := fun k => k == ctxOf j.ring) (by decide)]
    exact cmpCut_shows hk (cmpEmpty_length hctx)
  · rw [cmpJobStop_cuts hj hstop (by decide) hop hfin hb, if_neg (by decide)]
    exact cmpCut_shows hk hctx

/-- For the Kennel of its function a job ends without being returned. -/
theorem cmpJobStop_kennel (hj : d.cmp.job = some j) (hstop : j.stop = some 0) (hk : ctxOf j.ring < 16)
    (hctx : d.cmp.ctx.length = 16) : (cmpJobStop d).cmp.job = none ∧ (cmpJobStop d).cx (ctxOf j.ring) = {} ∧
      (cmpJobStop d).rd CMP_JOBS.COUNT = d.rd CMP_JOBS.COUNT ∧ (cmpJobStop d).outs = d.outs := by
  have heq : cmpJobStop d = cmpSync (cmpEmpty (fun k => k == ctxOf j.ring) (d.cmpMod fun m => { m with job := none })) := by
    unfold cmpJobStop
    rw [hj]
    simp only [hstop]
  have hstands : Stands (Beside cmpFields) d (cmpJobStop d) := by
    rw [heq]
    exact Stands.cmpSync (Stands.cmpEmpty (Stands.cmpMod (.refl _ d)) fun _ h => .listed h) fun _ h => .listed h
  refine ⟨?_, ?_, hstands.rd (by decide), ?_⟩
  · rw [heq, cmpSync_cmp, cmpEmpty_cmp]
    rfl
  · rw [heq, cx_of_ctx (congrArg Cmp.ctx (cmpSync_cmp _))]
    exact cmpEmpty_cx (sel := fun k => k == ctxOf j.ring) hctx hk (beq_self_eq_true _)
  · rw [heq, cmpSync_outs, cmpEmpty_outs, cmpMod_outs]

theorem cmpStopped_stops (hj : d.cmp.job = none) (hrun : d.rd CMP_STATUS.RUN = 3) : cmpStopped d = d.wr CMP_STATUS.RUN 0 := by
  unfold cmpStopped
  rw [hj, hrun]
  rfl

end

end Sys2Proof.Machine
end

section
/-!
PROOFS. The blocks of a compression job: a hard failure, the fallback to a stored block, data that cannot be decoded
(R338, R340).
-/

namespace Sys2Proof.Machine

/-! ### Bits and bytes -/

theorem packBits_length (fuel : Nat) (bs : List Bool) :
    8 * (packBits fuel bs).1.length + (packBits fuel bs).2.length = bs.length := by
  induction fuel generalizing bs with
  | zero => simp [packBits]
  | succ n ih =>
    rw [packBits]
    split
    · simp
    · have := ih (bs.drop 8)
      rw [List.length_drop] at this
      simp only [List.length_cons]
      omega

theorem packBits_rest (fuel : Nat) (bs : List Bool) (h : bs.length < 8 * (fuel + 1)) : (packBits fuel bs).2.length < 8 := by
  induction fuel generalizing bs with
  | zero => simpa [packBits] using h
  | succ n ih =>
    rw [packBits]
    split
    · assumption
    · exact ih (bs.drop 8) (by rw [List.length_drop]; omega)

theorem bitsOf_length (n v : Nat) : (bitsOf n v).length = n := by simp [bitsOf]

theorem unpack_length (bs : Bytes) : (unpack bs).length = 8 * bs.length := by
  induction bs with
  | nil => rfl
  | cons b bs ih =>
    have hcons : unpack (b :: bs) = bitsOf 8 b.toNat ++ unpack bs := rfl
    rw [hcons, List.length_append, bitsOf_length, ih, List.length_cons]
    omega

theorem padBits_short (n : Nat) : (padBits n).length < 8 := by
  rw [padBits, List.length_replicate]
  omega

theorem leBytes_length (k n : Nat) : (leBytes k n).length = k := by
  induction k generalizing n with
  | zero => rfl
  | succ k ih => rw [leBytes, List.length_cons, ih]

theorem wrapTrailer_short (c : CmpCtx) : (wrapTrailer c).length ≤ 8 := by
  unfold wrapTrailer
  split
  · rw [beBytes, List.length_reverse, leBytes_length]
    decide
  · rw [List.length_append, leBytes_length, leBytes_length]
  · exact Nat.zero_le 8

theorem storedBits_length (final : Bool) (n : Nat) (block : Bytes) :
    (storedBits final n block).length = 35 + (padBits (n + 3)).length + 8 * block.length := by
  simp only [storedBits, List.length_append, List.length_cons, List.length_nil, bitsOf_length, unpack_length]
  omega

theorem jobTail_short (last : Bool) (c : CmpCtx) (bs : List Bool) (h : bs.length < 8) : (jobTail last c bs).length < 79 := by
  unfold jobTail
  split
  · have hpad := padBits_short bs.length
    have hwrap := wrapTrailer_short c
    simp only [List.length_append, unpack_length]
    omega
  · have hpad := padBits_short (bs.length + 3)
    simp only [List.length_append, storedBits_length, List.length_nil]
    omega

/-! ### Output that fits -/

section
variable {d e : Dev} {j : CmpJob}

theorem cmpPut_fits {bs : Bytes} (h : bs.length ≤ j.dstLen - j.made) :
    (cmpPut j bs d).1 = { j with made := j.made + bs.length } ∧ (cmpPut j bs d).2.1 = true := by
  unfold cmpPut
  dsimp only
  rw [Nat.min_eq_left h]
  exact ⟨rfl, beq_self_eq_true _⟩

theorem hostOut_work {P : Field → Prop} {r f addr : Nat} {bs : Bytes} : Work P d (hostOut r f addr bs d) := by
  unfold hostOut payWrite
  exact Work.ite (Work.hostMod (.refl P d)) (Work.foldl _ (.refl P d) fun _ _ _ hx => hx.hostWrite)

theorem cmpPut_work {P : Field → Prop} {bs : Bytes} : Work P d (cmpPut j bs d).2.2 := .ite (.refl P d) hostOut_work

/-! ### A block that its proof fails (R338) -/

/-- A fallback is counted, reported and shown with its context, function and offset. -/
def fallback (k fn ofs : Nat) (d : Dev) : Dev :=
  (((penalty 16 ((d.sat CMP_FALLBACK.COUNT).ev CMP_EVENT.FALLBACK)).wr CMP_LAST_FB.CTX k).wr CMP_LAST_FB.FN fn).wr
    CMP_LAST_FB_OFS.OFS ofs

/-- A hard failure is counted and reported. -/
def hardFail (d : Dev) : Dev := penalty 17 ((d.sat CMP_HARD.COUNT).ev CMP_EVENT.HARD_FAIL)

theorem penalty_rd {k : Nat} {f : Field} (hf : Field.apart (SHD_PENj.PEN (k / 4)) f = true) : (penalty k d).rd f = d.rd f :=
  (penalty_stands (P := fun g => g = f) (k := k) (by rintro _ rfl; exact hf)).rd rfl

theorem fallback_shows (k fn ofs : Nat) : (fallback k fn ofs d).cmp = d.cmp ∧
    (fallback k fn ofs d).rd CMP_FALLBACK.COUNT = min (d.rd CMP_FALLBACK.COUNT + 1) (2 ^ CMP_FALLBACK.COUNT.w - 1) ∧
    (fallback k fn ofs d).rd CMP_EVENT.FALLBACK = 1 ∧ (fallback k fn ofs d).rd CMP_LAST_FB.CTX = k % 16 := by
  unfold fallback
  refine ⟨?_, ?_, ?_, ?_⟩
  · rw [wr_cmp, wr_cmp, wr_cmp, (penalty_beyond 16).part Dev.cmp fun _ _ _ => rfl, ev_cmp, sat_cmp]
  · rw [rd_wr_apart _ _ _ _ (by decide), rd_wr_apart _ _ _ _ (by decide), rd_wr_apart _ _ _ _ (by decide),
      penalty_rd (by decide), rd_ev_apart _ _ _ (by decide), rd_sat_same _ _ _ (by decide)]
  · rw [rd_wr_apart _ _ _ _ (by decide), rd_wr_apart _ _ _ _ (by decide), rd_wr_apart _ _ _ _ (by decide),
      penalty_rd (by decide), rd_ev_same (by decide)]
    rfl
  · rw [rd_wr_apart _ _ _ _ (by decide), rd_wr_apart _ _ _ _ (by decide), rd_wr_same _ _ _ (by decide)]
    rfl

/-- What a fallback writes. -/
def fallbackFields : List Field :=
  [CMP_FALLBACK.COUNT, CMP_EVENT.FALLBACK, SHD_PENj.PEN 4, CMP_LAST_FB.CTX, CMP_LAST_FB.FN, CMP_LAST_FB_OFS.OFS]

theorem fallback_stands (k fn ofs : Nat) : Stands (Beside fallbackFields) d (fallback k fn ofs d) := by
  have hfree {f : Field} (h : f ∈ fallbackFields) : Free (Beside fallbackFields) f := .listed h
  have hcount : Stands (Beside fallbackFields) d ((d.sat CMP_FALLBACK.COUNT).ev CMP_EVENT.FALLBACK) :=
    (Stands.sat (.refl _ d) (hfree (by decide))).ev (hfree (by decide))
  have hpen := hcount.trans (penalty_stands (k := 16) (hfree (by decide)))
  exact ((hpen.wr (hfree (by decide))).wr (hfree (by decide))).wr (hfree (by decide))

theorem hardFail_shows : (hardFail d).cmp = d.cmp ∧
    (hardFail d).rd CMP_HARD.COUNT = min (d.rd CMP_HARD.COUNT + 1) (2 ^ CMP_HARD.COUNT.w - 1) ∧
    (hardFail d).rd CMP_EVENT.HARD_FAIL = 1 := by
  unfold hardFail
  refine ⟨?_, ?_, ?_⟩
  · rw [(penalty_beyond 17).part Dev.cmp fun _ _ _ => rfl, ev_cmp, sat_cmp]
  · rw [penalty_rd (by decide), rd_ev_apart _ _ _ (by decide), rd_sat_same _ _ _ (by decide)]
  · rw [penalty_rd (by decide), rd_ev_same (by decide)]
    rfl

theorem hardFail_rd {f : Field} (hf : Beside [CMP_HARD.COUNT, CMP_EVENT.HARD_FAIL, SHD_PENj.PEN 4] f) :
    (hardFail d).rd f = d.rd f := by
  simp only [Beside, List.forall_mem_cons] at hf
  obtain ⟨hcount, hev, hpen, -⟩ := hf
  rw [hardFail, penalty_rd hpen, rd_ev_apart _ _ _ hev, rd_sat_apart _ _ _ _ hcount]

theorem cmpBlock_hard (hinp : min 32768 (j.srcLen - j.used) ≤ j.inp.length) (hused : j.used < j.srcLen) :
    ∃ ofs v, cmpBlock j 2 d = setJob { j with vf := v, fin := some 6 }
      (setCx (ctxOf j.ring) {} (hardFail (fallback (ctxOf j.ring) j.fn ofs d))) := by
  have hgo : ¬(j.inp.length < min 32768 (j.srcLen - j.used) ∨ min 32768 (j.srcLen - j.used) = 0) := by omega
  unfold cmpBlock
  dsimp only
  rw [if_neg hgo]
  exact ⟨_, _, rfl⟩

theorem cmpBlock_stored (hsrc : j.srcLen - j.used ≤ 32768) (hinp : j.srcLen ≤ j.used + j.inp.length) (hused : j.used < j.srcLen)
    (hobits : j.obits.length < 8) (hroom : j.made + (j.srcLen - j.used) + 32 ≤ j.dstLen) :
    ∃ ofs x c i m, Work (Beside []) (fallback (ctxOf j.ring) j.fn ofs d) x ∧
      cmpBlock j 1 d = setJob
        { j with inp := i, used := j.srcLen, made := m, blocks := j.blocks + 1, vf := true, obits := [], fin := some 0 }
        (setCx (ctxOf j.ring) c (x.sat CMP_BLOCKS.COUNT)) := by
  have hn : min 32768 (j.srcLen - j.used) = j.srcLen - j.used := Nat.min_eq_right hsrc
  have hgo : ¬(j.inp.length < j.srcLen - j.used ∨ j.srcLen - j.used = 0) := by omega
  have hwhole : j.used + (j.srcLen - j.used) = j.srcLen := by omega
  have hfall (ofs : Nat) : (((penalty 16 ((d.sat CMP_FALLBACK.COUNT).ev CMP_EVENT.FALLBACK)).wr CMP_LAST_FB.CTX
      (ctxOf j.ring)).wr CMP_LAST_FB.FN j.fn).wr CMP_LAST_FB_OFS.OFS ofs = fallback (ctxOf j.ring) j.fn ofs d := rfl
  unfold cmpBlock
  dsimp only
  rw [hn, if_neg hgo, hwhole]
  simp only [beq_self_eq_true, Bool.and_true, show ((1 : Nat) == 0) = false from rfl, Bool.false_and, Bool.false_eq_true, if_false,
    Bool.not_false, Bool.or_true, show ¬(1 : Nat) = 2 by decide, hfall]
  generalize hp : packBits _ (j.obits ++ storedBits j.last j.obits.length (j.inp.take (j.srcLen - j.used))) = p
  generalize hq : cmpPut { j with vf := true } p.1 (fallback (ctxOf j.ring) j.fn ((d.cx (ctxOf j.ring)).tin % 2 ^ 32) d) = q
  generalize hc : ({ (d.cx (ctxOf j.ring)).data (j.inp.take (j.srcLen - j.used)) with
    tin := (d.cx (ctxOf j.ring)).tin + (j.srcLen - j.used) } : CmpCtx) = c
  generalize ht : packBits 300 (jobTail j.last c p.2) = t
  generalize hu : cmpPut q.1 t.1 q.2.2 = u
  have hbits : (j.obits ++ storedBits j.last j.obits.length (j.inp.take (j.srcLen - j.used))).length <
      50 + 8 * (j.srcLen - j.used) := by
    have hpad := padBits_short (j.obits.length + 3)
    rw [List.length_append, storedBits_length, List.length_take]
    omega
  have hbytes := packBits_length (j.obits ++ storedBits j.last j.obits.length (j.inp.take (j.srcLen - j.used))).length
    (j.obits ++ storedBits j.last j.obits.length (j.inp.take (j.srcLen - j.used)))
  rw [hp] at hbytes
  have hrest : p.2.length < 8 := hp ▸ packBits_rest _ _ (by omega)
  have htail : 8 * t.1.length + t.2.length < 79 := by
    rw [← ht, packBits_length]
    exact jobTail_short _ _ _ hrest
  obtain ⟨hq1, hqok⟩ := cmpPut_fits (j := { j with vf := true }) (bs := p.1)
    (d := fallback (ctxOf j.ring) j.fn ((d.cx (ctxOf j.ring)).tin % 2 ^ 32) d) (show p.1.length ≤ j.dstLen - j.made by omega)
  rw [hq] at hq1 hqok
  obtain ⟨hu1, huok⟩ := cmpPut_fits (j := q.1) (bs := t.1) (d := q.2.2)
    (by rw [hq1]; exact show t.1.length ≤ j.dstLen - (j.made + p.1.length) by omega)
  rw [hu] at hu1 huok
  have hwork : Work (Beside []) (fallback (ctxOf j.ring) j.fn ((d.cx (ctxOf j.ring)).tin % 2 ^ 32) d) u.2.2 := by
    rw [← hu]
    refine Work.trans ?_ cmpPut_work
    rw [← hq]
    exact cmpPut_work
  simp only [hqok, huok, hu1, hq1, hwhole, Bool.not_true, Bool.false_eq_true, if_false, if_true]
  exact ⟨_, u.2.2, _, _, _, hwork, rfl⟩
/-! ### Data that cannot be decoded (R340) -/

theorem infStep_reserved {c : CmpCtx} {b : Bool} (hphase : c.phase = 1) (hbits : c.bits.take 3 = [b, true, true]) :
    infStep c = .bad := by
  obtain ⟨rest, hrest⟩ : ∃ rest, c.bits = b :: true :: true :: rest :=
    ⟨c.bits.drop 3, by rw [← List.take_append_drop 3 c.bits, hbits]; simp⟩
  have hlong : ¬(b :: true :: true :: rest).length < 3 := by
    simp only [List.length_cons]
    omega
  unfold infStep
  rw [hphase, hrest]
  dsimp only
  rw [if_neg hlong]
  rfl

theorem infRun_bad {fuel : Nat} {c : CmpCtx} (inp : Bytes) (used made room : Nat) (acc : List Byte) (h : infStep c = .bad) :
    infRun (fuel + 1) c inp used made room acc = (.bad, c, inp, used, made, acc) := by
  unfold infRun
  rw [h]

theorem cmpInflate_bad (hbad : infStep (d.cx (ctxOf j.ring)) = .bad) (hinp : j.inp ≠ []) (hmade : j.made < j.dstLen) :
    ∃ x : CmpJob, cmpInflate j d = setJob { x with fin := some 8 } (setCx (ctxOf j.ring) {} d) := by
  have hgo : ¬(j.inp.isEmpty = true ∧ j.used < j.srcLen) := fun h => hinp (List.isEmpty_iff.mp h.1)
  have hput (x : CmpJob) (y : Dev) : cmpPut x [] y = ({ x with made := x.made + 0 }, true, y) := by
    unfold cmpPut
    dsimp only
    rw [List.length_nil, Nat.zero_min, if_pos rfl]
    rfl
  unfold cmpInflate
  dsimp only
  rw [if_neg hgo, if_neg (Nat.not_le.mpr hmade), infRun_bad (fuel := 399999) _ _ _ _ _ hbad]
  dsimp only
  rw [List.reverse_nil, hput]
  exact ⟨_, rfl⟩

/-! ### The commands -/

theorem bufRead_none (b : Buf) (hup : d.pm.upsets = []) : bufRead b d = (false, d) := by
  unfold bufRead
  rw [hup]
  rfl

theorem cmpBlockDone_block (upset : Nat) (hj : d.cmp.job = some j) (hfin : j.fin = none) (hup : d.pm.upsets = [])
    (hop : j.op < 2) : cmpBlockDone upset d = cmpBlock j upset d := by
  unfold cmpBlockDone
  rw [hj, bufRead_none .cmp hup]
  obtain h | h : j.op = 0 ∨ j.op = 1 := by omega
  · simp only [hfin, h, Option.isSome_none, Bool.false_eq_true, if_false]
  · simp only [hfin, h, Option.isSome_none, Bool.false_eq_true, if_false]

theorem cmpBlockDone_inflate (upset : Nat) (hj : d.cmp.job = some j) (hfin : j.fin = none) (hup : d.pm.upsets = [])
    (hop : j.op = 2) : cmpBlockDone upset d = cmpInflate j d := by
  unfold cmpBlockDone
  rw [hj, bufRead_none .cmp hup]
  simp only [hfin, hop, Option.isSome_none, Bool.false_eq_true, if_false]

theorem setJob_fin {st : Nat} (h : j.fin = some st) : ((setJob j d).cmp.job.bind fun x => x.fin) = some st := by
  rw [setJob_cmp]
  exact h

theorem setJob_cx (k : Nat) : (setJob j d).cx k = d.cx k := cx_of_ctx (by rw [setJob_cmp]) k

end

/-- Settles O39, clause by clause: the blocks, the ends, the stops. -/
theorem compressionProgress : Obligations.CompressionProgress := by
  unfold Obligations.CompressionProgress
  intro s
  refine ⟨?_, ?_, ?_, ?_, ?_, ?_, ?_, ?_⟩
  · intro j hj hfin hop hinp hused hk hctx hup
    refine ends_run (fun _ => rfl) ?_
    obtain ⟨ofs, v, heq⟩ := cmpBlock_hard (d := s.quiet) hinp hused
    obtain ⟨hfcmp, hfcount, -, -⟩ := fallback_shows (d := s.quiet) (ctxOf j.ring) j.fn ofs
    obtain ⟨hhcmp, hhcount, hhev⟩ := hardFail_shows (d := fallback (ctxOf j.ring) j.fn ofs s.quiet)
    have hstands := fallback_stands (d := s.quiet) (ctxOf j.ring) j.fn ofs
    rw [show ((2 : Fin 3) : Nat) = 2 from rfl, cmpBlockDone_block 2 (d := s.quiet) hj hfin hup hop, heq, setJob_fin rfl, setJob_cx,
      setCx_cx (by rw [hhcmp, hfcmp]; exact hctx ▸ hk), setJob_rd (by decide), setCx_rd (by decide), setJob_rd (by decide),
      setCx_rd (by decide), setJob_rd (by decide), setCx_rd (by decide), setJob_rd (by decide), setCx_rd (by decide), hhcount,
      hhev, hardFail_rd (by decide), hardFail_rd (by decide), hfcount, hstands.rd (by decide), hstands.rd (by decide)]
    exact ⟨rfl, rfl, rfl, rfl, rfl, rfl⟩
  · intro j hj hfin hop hsrc hinp hused hk hobits hroom hup
    refine ends_run (fun _ => rfl) ?_
    obtain ⟨ofs, x, c, i, m, hwork, heq⟩ := cmpBlock_stored (d := s.quiet) hsrc hinp hused hobits hroom
    obtain ⟨-, hfcount, hfev, hfctx⟩ := fallback_shows (d := s.quiet) (ctxOf j.ring) j.fn ofs
    have hstands := fallback_stands (d := s.quiet) (ctxOf j.ring) j.fn ofs
    have hrd {f : Field} (hf : Beside cmpFields f) (hb : Field.apart CMP_BLOCKS.COUNT f = true) :
        (cmpBlockDone 1 s.quiet).rd f = (fallback (ctxOf j.ring) j.fn ofs s.quiet).rd f := by
      rw [cmpBlockDone_block 1 (d := s.quiet) hj hfin hup hop, heq, setJob_rd hf, setCx_rd hf, rd_sat_apart _ _ _ _ hb]
      exact hwork.reads f (by simp [Beside])
    refine ⟨?_, ?_, ?_, ?_, ?_⟩
    · rw [show ((1 : Fin 3) : Nat) = 1 from rfl, cmpBlockDone_block 1 (d := s.quiet) hj hfin hup hop, heq, setJob_cmp]
      rfl
    · exact (hrd (by decide) (by decide)).trans hfcount
    · exact (hrd (by decide) (by decide)).trans hfev
    · exact (hrd (by decide) (by decide)).trans hfctx
    · rw [show ((1 : Fin 3) : Nat) = 1 from rfl, cmpBlockDone_block 1 (d := s.quiet) hj hfin hup hop, heq,
        setJob_rd (by decide), setCx_rd (by decide), rd_sat_same _ _ _ (by decide), hwork.reads _ (by simp [Beside]),
        hstands.rd (by decide)]
      rfl
  · intro u j b hj hfin hop hmade hphase hbits _ hinp hk hctx hup
    refine ends_run (fun _ => rfl) ?_
    obtain ⟨x, heq⟩ := cmpInflate_bad (d := s.quiet) (infStep_reserved hphase hbits) hinp hmade
    rw [cmpBlockDone_inflate u (d := s.quiet) hj hfin hup hop, heq, setJob_fin rfl, setJob_cx, setCx_cx (hctx ▸ hk)]
    exact ⟨rfl, rfl⟩
  · intro j st hj hfin hstop hst
    refine ends_run (fun _ => rfl) ?_
    rw [cmpJobEnd_fin (d := s.quiet) hj hfin hstop]
    have hret := cmpFinish_returns (j := j) (d := s.quiet) j.used j.made hst
    refine ⟨hret.free, hret.idle, hret.ctx, hret.counted, ?_, ?_⟩
    · rintro rfl
      exact cmpFinish_full _ _
    · rintro rfl
      exact cmpFinish_err _ _
  · intro j hj hfin hop hstop hinp hk hctx
    exact ends_run (fun _ => rfl) (cmpJobEnd_restores (d := s.quiet) hj hfin hop hstop hinp hk hctx)
  · intro j hj hstop hop hfin hk hctx hb
    exact ends_run (fun _ => rfl) (cmpJobStop_aborts (d := s.quiet) hj hstop hop hfin hk hctx hb)
  · intro j hj hstop hk hctx
    exact ends_run (fun _ => rfl) (cmpJobStop_kennel (d := s.quiet) hj hstop hk hctx)
  · intro hj hrun
    refine does_run (fun _ => rfl) ?_
    rw [cmpStopped_stops (d := s.quiet) hj hrun]
    exact ⟨(Wrote.refl s.quiet).wr (by decide) (by decide), wr_cmp _ _ _⟩

end Sys2Proof.Machine
end

section
/-!
PROOFS. Timers of rings, the view of a ring, audio buffers at their half and full points (R126, R135, R141, R144, R150).
-/

namespace Sys2Proof.Machine

section
variable {d e : Dev} {r : Nat}

/-! ### Rings through the steps of the host interface -/

theorem atMote_host (m : Nat) (d : Dev) : (atMote m d).host = d.host := by
  obtain ⟨h, he⟩ := atMote_eq m d
  rw [he]

theorem atMote_ring (m q : Nat) (d : Dev) : (atMote m d).ring q = d.ring q := by rw [Dev.ring, atMote_host, Dev.ring]

theorem atMote_ringFn (m q : Nat) (d : Dev) : (atMote m d).ringFn q = d.ringFn q := by
  obtain ⟨h, he⟩ := atMote_eq m d
  rw [he]
  rfl

theorem atMote_fn (m f : Nat) (d : Dev) : (atMote m d).fn f = d.fn f := by rw [Dev.fn, atMote_host, Dev.fn]

theorem Told.ring (h : Told d e) (q : Nat) : e.ring q = d.ring q := by
  obtain ⟨o, fs, rfl, -⟩ := h
  rfl

theorem Cells.ring (h : Cells d e) (q : Nat) : e.ring q = d.ring q := h.part (Dev.ring · q) fun _ _ _ => rfl

theorem Told.hostWrite {f a : Nat} {bs : Bytes} {b : Bool} (h : Told d e) : Told d (hostWrite f a bs b e) :=
  .ite (h.trans ⟨_, _, rfl, rfl⟩) h

theorem Told.foldl {α : Type} {f : Dev → α → Dev} (l : List α) (h : Told d e) (hf : ∀ a x, Told d x → Told d (f x a)) :
    Told d (l.foldl f e) := by
  induction l generalizing e with
  | nil => exact h
  | cons a l ih => exact ih (hf a e h)

/-! A part of the rings that messages and returns leave -/

/-- A part of a ring that neither the time of its messages nor the descriptors it returns enter. -/
structure Apart {α : Type} (π : Ring → α) : Prop where
  message : ∀ (x : Ring) (t : Option Nat) (b : Bool), π { x with msgAt := t, msgWait := b } = π x
  waits : ∀ (x : Ring) (b : Bool), π { x with msgWait := b } = π x

/-- From d to e the part π of every ring stands. -/
def Keeps {α : Type} (π : Ring → α) (d e : Dev) : Prop := ∀ q, π (e.ring q) = π (d.ring q)

section
variable {α : Type} {π : Ring → α}

theorem Keeps.refl (π : Ring → α) (d : Dev) : Keeps π d d := fun _ => rfl

theorem Keeps.of_rings {x : Dev} (h : Keeps π d e) (hx : ∀ q, x.ring q = e.ring q) : Keeps π d x := fun q => by rw [hx, h]

theorem Keeps.setRing {x : Ring} (h : Keeps π d e) (hx : π x = π (e.ring r)) : Keeps π d (e.setRing r x) := fun q => by
  rw [ring_setRing]
  split
  · next hq => rw [hx, hq, h]
  · exact h q

theorem Keeps.told {x : Dev} (h : Keeps π d e) (hx : Told e x) : Keeps π d x := h.of_rings hx.ring

theorem Keeps.foldl {β : Type} {f : Dev → β → Dev} (l : List β) (h : Keeps π d e) (hf : ∀ a x, Keeps π d x → Keeps π d (f x a)) :
    Keeps π d (l.foldl f e) := by
  induction l generalizing e with
  | nil => exact h
  | cons a l ih => exact ih (hf a e h)

theorem Keeps.ite {c : Prop} [Decidable c] {x y : Dev} (hx : Keeps π d x) (hy : Keeps π d y) : Keeps π d (if c then x else y) := by
  split
  · exact hx
  · exact hy

theorem Keeps.msixSend {f v : Nat} (h : Keeps π d e) : Keeps π d (msixSend f v e) := h.told (Told.refl e).msixSend

theorem Keeps.tagSync (h : Keeps π d e) : Keeps π d (tagSync e) := h.of_rings fun q => tagSync_ring q

theorem Keeps.ringMsg (h : Keeps π d e) (hπ : Apart π) : Keeps π d (ringMsg r e) := by
  unfold Machine.ringMsg
  dsimp only
  split
  · exact h
  · split
    · exact .ite (h.setRing (hπ.waits _ _)) (h.setRing (hπ.message _ _ _)).msixSend
    · exact (h.setRing (hπ.message _ _ _)).msixSend

theorem Keeps.retire (h : Keeps π d e) (hπ : Apart π) (hret : ∀ (x : Ring) (ys : List Desc) (c : Nat),
    π { x with taken := ys, cons := c } = π x) : Keeps π d (retire r e) := by
  have hwrites {β : Type} (l : List β) (f : β → Nat × Nat × Bytes) (x : Dev) :
      Told x (l.foldl (fun d a => Machine.hostWrite (f a).1 (f a).2.1 (f a).2.2 false d) x) :=
    (Told.refl x).foldl l fun _ _ hy => hy.hostWrite
  unfold Machine.retire
  dsimp only
  split
  · exact h
  · next f _ =>
    refine .ite h (Keeps.tagSync (Keeps.foldl _ (Keeps.setRing ?_ ?_) fun _ _ hx => hx.ringMsg hπ))
    · exact (h.told (hwrites _ (fun p : Nat × Desc => (f, _, p.2.bytes _ 7)) _)).told
        (hwrites _ (fun p : Nat × Desc => (f, _, leBytes 4 (setBits (p.2.dw 7) 31 1 0))) _)
    · rw [hret, (hwrites _ (fun p : Nat × Desc => (f, _, leBytes 4 (setBits (p.2.dw 7) 31 1 0))) _).ring,
        (hwrites _ (fun p : Nat × Desc => (f, _, p.2.bytes _ 7)) _).ring]

end

/-! ### Messages and launches -/

theorem msixSend_live {f v : Nat} (hen : (d.fn f).msixEn = true) (hlive : d.fnLive f = true) (hmask : (d.fn f).msixMask = false)
    (hent : ((d.fn f).ent v).masked = false) :
    msixSend f v d = d.emit (.msix f v ((d.fn f).ent v).addr ((d.fn f).ent v).data) := by
  simp [msixSend, hen, hlive, hmask, hent]

theorem coalExpiry_sends {m t f : Nat} (hat : (d.ring r).msgAt = some t) (hwait : (d.ring r).msgWait = true)
    (hgap : t + (d.ring r).gap ≤ (atMote m d).nowExt) (hfn : d.ringFn r = some f) :
    coalExpiry r m d = msixSend f (d.ring r).vec ((atMote m d).setRing r
      { d.ring r with msgAt := some (atMote m d).nowExt, msgWait := false }) := by
  unfold coalExpiry
  simp only [atMote_ring, hat, hwait, hgap, and_self, if_true, atMote_ringFn, hfn]

/-! ### A frame that has outstayed its budget (R141) -/

theorem rxPump_idle (h : (d.ring r).rxq = []) : rxPump r d = d ∨ rxPump r d = pmemSync d := by
  have hfill (n : Nat) : rxFill n r d = d := by
    cases n with
    | zero => rfl
    | succ n =>
      unfold rxFill
      dsimp only
      rw [h]
  unfold rxPump
  dsimp only
  split
  · exact .inr (congrArg pmemSync (hfill _))
  · exact .inl rfl

/-- What a dropped frame at the head of a ring counts. -/
def stallNote (n : Nat) (d : Dev) : Dev :=
  if n = 0 then (d.sat DMA_RX_NODESC_DROP.COUNT).ev DMA_EVENT.RX_NODESC_DROP
  else (d.sat DMA_RX_STALL_DROP.COUNT).ev DMA_EVENT.RX_STALL_DROP

theorem stallNote_beyond (n : Nat) (d : Dev) : Beyond d (stallNote n d) := .ite (.ev (.sat (.refl d))) (.ev (.sat (.refl d)))

theorem rxDrop_stall {it : RxItem} {f : Nat} (hq : (d.ring r).rxq = [it]) (hfn : d.ringFn r = some f) :
    rxDrop 0 r d = retire r (vfEvent f 1 (stallNote it.n
      (d.setRing r { d.ring r with taken := rxFinish it.frm 1 (d.ring r).taken, rxq := [] }))) := by
  unfold rxDrop
  dsimp only
  rw [hq, hfn]
  rfl

theorem stallExpiry_drops {m : Nat} {it : RxItem} {dl f : Nat} (hq : (d.ring r).rxq = [it]) (hstall : it.stall = some dl)
    (hdl : dl ≤ (atMote m d).nowExt) (haw : (d.ring r).awaits = false) (hfn : d.ringFn r = some f) :
    ∃ x : Ring, Work (Beside (tagFields ++ pmemFields)) (stallNote it.n ((atMote m d).setRing r x)) (stallExpiry r m d) ∧
      ((stallExpiry r m d).ring r).rxq = [] := by
  generalize hx : ({ d.ring r with taken := rxFinish it.frm 1 (d.ring r).taken, rxq := [] } : Ring) = x
  have htag : ∀ f ∈ tagFields, Free (Beside (tagFields ++ pmemFields)) f := free_listed (by simp)
  have hpm : ∀ f ∈ pmemFields, Free (Beside (tagFields ++ pmemFields)) f := free_listed (by simp)
  have hgo : stallExpiry r m d = pmemSync (rxPump r (retire r (vfEvent f 1 (stallNote it.n ((atMote m d).setRing r x))))) := by
    unfold stallExpiry
    simp only [atMote_ring, hq, hstall, hdl, haw, Bool.not_false, and_self, if_true]
    rw [rxDrop_stall (d := atMote m d) ((congrArg Ring.rxq (atMote_ring m r d)).trans hq) ((atMote_ringFn m r d).trans hfn),
      atMote_ring, hx]
  have hnote : ∀ y, Keeps Ring.rxq y (stallNote it.n y) := fun y q => by rw [Dev.ring, (stallNote_beyond _ _).host, Dev.ring]
  have hkeeps : Keeps Ring.rxq ((atMote m d).setRing r x)
      (retire r (vfEvent f 1 (stallNote it.n ((atMote m d).setRing r x)))) :=
    ((hnote _).told (Told.refl _).vfEvent).retire ⟨fun _ _ _ => rfl, fun _ _ => rfl⟩ fun _ _ _ => rfl
  have hempty : ((retire r (vfEvent f 1 (stallNote it.n ((atMote m d).setRing r x)))).ring r).rxq = [] := by
    rw [hkeeps r, ring_setRing, if_pos rfl, ← hx]
  have hvf {y : Dev} : Work (Beside (tagFields ++ pmemFields)) y (vfEvent f 1 y) := by
    obtain ⟨o, fs, he, -⟩ := (Told.refl y).vfEvent (f := f) (k := 1)
    rw [he]
    exact ⟨⟨_, _, _, _, rfl⟩, fun _ _ => rfl⟩
  have hsync (y : Dev) : (pmemSync y).ring r = y.ring r := (Cells.refl y).pmemSync.ring r
  rw [hgo]
  rcases rxPump_idle hempty with hp | hp
  · rw [hp]
    exact ⟨x, (hvf.retire htag).pmemSync hpm, by rw [hsync, hempty]⟩
  · rw [hp]
    exact ⟨x, ((hvf.retire htag).pmemSync hpm).pmemSync hpm, by rw [hsync, hsync, hempty]⟩

/-! ### What the pump leaves of a ring -/

/-- A ring after the pump: it may have started, and may wait for a tag. -/
def Ring.Pumped (x y : Ring) : Prop :=
  ∃ st fresh err wait, y = { x with st := st, fresh := fresh, err := err, tagWait := wait } ∧ (x.st ≠ 1 → st = x.st ∧ err = x.err)

theorem Ring.Pumped.refl (x : Ring) : x.Pumped x := ⟨_, _, _, _, rfl, fun _ => ⟨rfl, rfl⟩⟩

theorem Ring.Pumped.trans {x y z : Ring} (h1 : x.Pumped y) (h2 : y.Pumped z) : x.Pumped z := by
  obtain ⟨s1, f1, e1, w1, rfl, hs1⟩ := h1
  obtain ⟨s2, f2, e2, w2, rfl, hs2⟩ := h2
  refine ⟨s2, f2, e2, w2, rfl, fun hx => ?_⟩
  obtain ⟨rfl, rfl⟩ := hs1 hx
  exact hs2 hx

theorem Ring.Pumped.taken {x y : Ring} (h : x.Pumped y) : y.taken = x.taken := by
  obtain ⟨_, _, _, _, rfl, -⟩ := h
  rfl

theorem Ring.Pumped.cons {x y : Ring} (h : x.Pumped y) : y.cons = x.cons := by
  obtain ⟨_, _, _, _, rfl, -⟩ := h
  rfl

theorem Ring.Pumped.st {x y : Ring} (h : x.Pumped y) (hx : x.st ≠ 1) : y.st = x.st := by
  obtain ⟨_, _, _, _, rfl, hs⟩ := h
  exact (hs hx).1

/-- From d to e every ring is as the pump may leave it. -/
def Pumped (d e : Dev) : Prop := ∀ q, (d.ring q).Pumped (e.ring q)

theorem Pumped.refl (d : Dev) : Pumped d d := fun q => .refl (d.ring q)

theorem Pumped.of_rings {x : Dev} (h : Pumped d e) (hx : x.host.rings = e.host.rings) : Pumped d x := fun q => by
  have hring : x.ring q = e.ring q := by rw [Dev.ring, hx, Dev.ring]
  exact hring ▸ h q

theorem Pumped.setRing {x : Ring} (h : Pumped d e) (hx : (e.ring r).Pumped x) : Pumped d (e.setRing r x) := fun q => by
  rw [ring_setRing]
  split
  · next hq => exact hq ▸ (h r).trans hx
  · exact h q

theorem Pumped.ite {c : Prop} [Decidable c] {x y : Dev} (hx : Pumped d x) (hy : Pumped d y) : Pumped d (if c then x else y) := by
  split
  · exact hx
  · exact hy

theorem Pumped.foldl {α : Type} {f : Dev → α → Dev} (l : List α) (h : Pumped d e) (hf : ∀ a x, Pumped d x → Pumped d (f x a)) :
    Pumped d (l.foldl f e) := by
  induction l generalizing e with
  | nil => exact h
  | cons a l ih => exact ih (hf a e h)

theorem Pumped.issue {f addr len : Nat} {u : Use} (h : Pumped d e) : Pumped d (issue f addr len u e) :=
  h.of_rings (by rw [Machine.issue, (tagSync_beyond _).host]; rfl)

theorem Pumped.issueWants (n : Nat) (h : Pumped d e) : Pumped d (issueWants n e) := by
  induction n generalizing e with
  | zero => exact h
  | succ n ih =>
    unfold Machine.issueWants
    split
    · exact h
    · exact ih (Pumped.issue (h.of_rings rfl))

theorem Pumped.fetchRing (h : Pumped d e) : Pumped d (fetchRing r e) := by
  have hwait (b : Bool) : Pumped d (e.setRing r { e.ring r with tagWait := b }) :=
    h.setRing ⟨_, _, _, _, rfl, fun _ => ⟨rfl, rfl⟩⟩
  unfold Machine.fetchRing
  split
  · exact h
  · exact .ite h (.ite (.ite h ((hwait true).of_rings rfl)) (.ite (hwait false).issue h))

theorem Pumped.ringStart {b : Bool} (h : Pumped d e) : Pumped d (ringStart b r e) := by
  unfold Machine.ringStart
  dsimp only
  split
  · next hst => exact h.setRing ⟨_, _, _, _, rfl, fun hne => absurd hst.1 hne⟩
  · exact h

theorem Pumped.pump (h : Pumped d e) : Pumped d (pump e) :=
  Pumped.foldl _ (Pumped.issueWants _ (h.foldl _ fun _ _ hx => hx.ringStart)) fun _ _ hx =>
    hx.foldl _ fun _ _ hy => .ite hy.fetchRing (hy.fetchRing.of_rings rfl)

theorem Pumped.audStarts (h : Pumped d e) : Pumped d (audStarts e) := Pumped.pump (h.foldl _ fun _ _ hx => hx.ringStart)

/-! ### A stopping ring that holds nothing (R150) -/

theorem ringQuiesce_stops (hst : (d.ring r).st = 3) (hq : (d.ring r).quiet = true) :
    ((ringQuiesce r d).ring r).st = 0 ∧ ((ringQuiesce r d).ring r).taken = [] := by
  have hkeeps (x : Ring) : Keeps (fun y => (y.st, y.taken)) (d.setRing r x) (tagSync (ringMsg r (ringForget r (d.setRing r x)))) :=
    Keeps.tagSync (Keeps.ringMsg (Keeps.of_rings (.refl _ _) fun _ => rfl) ⟨fun _ _ _ => rfl, fun _ _ => rfl⟩)
  unfold ringQuiesce
  simp only [hst, hq, true_or, and_self, if_true]
  have hend := hkeeps { d.ring r with st := 0, taken := [], notOwn := false, tagWait := false, fresh := true } r
  rw [ring_setRing, if_pos rfl] at hend
  exact Prod.mk.injEq .. ▸ hend

theorem ringQuiescence_stops (hst : (d.ring r).st = 3) (hq : (d.ring r).quiet = true) (h2 : ringKind r ≠ 2) (h3 : ringKind r ≠ 3) :
    ((ringQuiescence r d).ring r).st = 0 ∧ ((ringQuiescence r d).ring r).taken = [] := by
  have hgo : ringQuiescence r d = audStarts (ringQuiesce r d) := by
    unfold ringQuiescence
    simp only [hst, h2, h3, or_self, false_and, if_false, ne_eq, not_true_eq_false]
  obtain ⟨hstop, hnone⟩ := ringQuiesce_stops hst hq
  have hpumped := (Pumped.refl (ringQuiesce r d)).audStarts r
  rw [hgo, hpumped.st (by rw [hstop]; decide), hpumped.taken]
  exact ⟨hstop, hnone⟩

/-! ### The view of a ring (R126) -/

theorem softField_taken {k v : Nat} {f : Field} {g : Dev → Dev} (hb : d.booted = true) (hpd : d.pd k = true) :
    softField k f v g d = g d := by simp [softField, ifBooted, hb, hpd]

theorem ringSelWrite_shows (hr : r < 432) : Wrote d (ringSelWrite r d)
    [(DMA_RING_SEL.RING, r), (⟨DMA_RING_VIEW0.addr, 0, 32⟩, (ringView r d).1 % 2 ^ 32),
      (⟨DMA_RING_VIEW1.addr, 0, 32⟩, (ringView r d).2 % 2 ^ 32), (⟨DMA_RING_VIEW2.addr, 0, 32⟩, (d.ring r).base / 2 ^ 32 % 2 ^ 32),
      (⟨DMA_RING_VIEW3.addr, 0, 32⟩, ((d.ring r).vec + (d.ring r).coal * 2 ^ 8 + (if (d.ring r).earlyWb then 2 ^ 16 else 0) +
        (if (d.ring r).cyclic then 2 ^ 17 else 0) + (if (d.ring r).dir then 2 ^ 18 else 0) + (d.ring r).dest * 2 ^ 19 +
        (d.ring r).cycM1 * 2 ^ 22) % 2 ^ 32)] := by
  have hsel : Wrote d (d.wr DMA_RING_SEL.RING r) [(DMA_RING_SEL.RING, r)] :=
    (Wrote.refl d).wr (by decide) (show r < 512 by omega)
  have h0 := hsel.wrMod (f := ⟨DMA_RING_VIEW0.addr, 0, 32⟩) (v := (ringView r d).1)
    (show fits _ [(DMA_RING_SEL.RING, 0)] = true by decide)
  have h1 := h0.wrMod (f := ⟨DMA_RING_VIEW1.addr, 0, 32⟩) (v := (ringView r d).2)
    (show fits _ [(DMA_RING_SEL.RING, 0), (⟨DMA_RING_VIEW0.addr, 0, 32⟩, 0)] = true by decide)
  have h2 := h1.wrMod (f := ⟨DMA_RING_VIEW2.addr, 0, 32⟩) (v := (d.ring r).base / 2 ^ 32)
    (show fits _ [(DMA_RING_SEL.RING, 0), (⟨DMA_RING_VIEW0.addr, 0, 32⟩, 0), (⟨DMA_RING_VIEW1.addr, 0, 32⟩, 0)] = true by decide)
  have h3 := h2.wrMod (f := ⟨DMA_RING_VIEW3.addr, 0, 32⟩) (v := (d.ring r).vec + (d.ring r).coal * 2 ^ 8 +
      (if (d.ring r).earlyWb then 2 ^ 16 else 0) + (if (d.ring r).cyclic then 2 ^ 17 else 0) +
      (if (d.ring r).dir then 2 ^ 18 else 0) + (d.ring r).dest * 2 ^ 19 + (d.ring r).cycM1 * 2 ^ 22)
    (show fits _ [(DMA_RING_SEL.RING, 0), (⟨DMA_RING_VIEW0.addr, 0, 32⟩, 0), (⟨DMA_RING_VIEW1.addr, 0, 32⟩, 0),
      (⟨DMA_RING_VIEW2.addr, 0, 32⟩, 0)] = true by decide)
  unfold ringSelWrite
  simp only [setWord_eq_wr]
  exact h3

/-! ### Audio buffers (R144) -/

theorem audAt_single {y : Desc} {p : Desc → Bool} (ht : (d.ring r).taken = [y]) (hdone : y.done = false) (hbegun : y.begun = true)
    (hp : p y = true) : (d.ring r).audAt p = some 0 := by
  simp [Ring.audAt, ht, hdone, hbegun, hp]

theorem statusOut_live {f a : Nat} {bs : Bytes} (hlive : d.fnLive f = true) (hout : d.outWaits r = false) :
    statusOut r f a bs d = d.emit (.hostWrite f a bs false) := by
  simp [statusOut, hlive, hout, hostWrite]

theorem statusOut_ring {f a q : Nat} {bs : Bytes} : (statusOut r f a bs d).ring q = d.ring q := by
  unfold statusOut
  split
  · rfl
  · exact ((Told.refl d).hostWrite).ring q

theorem audHalfPoint_marks {y : Desc} {f : Nat} (ht : (d.ring r).taken = [y]) (hcyc : (d.ring r).cyclic = false)
    (hdone : y.done = false) (hbegun : y.begun = true) (hhalf : y.half = false) (hirq : bit (y.dw 2) 16 = true)
    (hpos : y.halfAt (d.audSample r) ≤ y.pos) (hlen : y.pos < y.len) (hfn : d.ringFn r = some f) :
    audHalfPoint r d = ringMsg r ((statusOut r f ((d.ring r).at ((d.ring r).cons % 65536) + 24) (leBytes 4 (bits (y.dw 6) 0 4 + 16))
      d).setRing r { d.ring r with taken := [{ y with half := true }] }) := by
  unfold audHalfPoint
  simp only [audAt_single (p := fun y => bit (y.dw 2) 16 && !y.half && decide (y.halfAt (d.audSample r) ≤ y.pos) &&
    decide (y.pos < y.len)) ht hdone hbegun (by simp [hhalf, hirq, hpos, hlen]), hfn, ht, hcyc, List.getD_cons_zero,
    List.set_cons_zero, Nat.add_zero, if_false, Bool.false_eq_true]

theorem audHalfPoint_shows {y : Desc} {f : Nat} (ht : (d.ring r).taken = [y]) (hcyc : (d.ring r).cyclic = false)
    (hdone : y.done = false) (hbegun : y.begun = true) (hhalf : y.half = false) (hirq : bit (y.dw 2) 16 = true)
    (hpos : y.halfAt (d.audSample r) ≤ y.pos) (hlen : y.pos < y.len) (hfn : d.ringFn r = some f) :
    ((audHalfPoint r d).ring r).taken = [{ y with half := true }] ∧ (d.fnLive f = true → d.outWaits r = false →
      Out.hostWrite f ((d.ring r).at ((d.ring r).cons % 65536) + 24) (leBytes 4 (bits (y.dw 6) 0 4 + 16)) false ∈
        (audHalfPoint r d).outs) := by
  rw [audHalfPoint_marks ht hcyc hdone hbegun hhalf hirq hpos hlen hfn]
  refine ⟨?_, fun hlive hout => ?_⟩
  · have hmsg := Keeps.ringMsg (r := r) (.refl Ring.taken ((statusOut r f ((d.ring r).at ((d.ring r).cons % 65536) + 24)
      (leBytes 4 (bits (y.dw 6) 0 4 + 16)) d).setRing r { d.ring r with taken := [{ y with half := true }] }))
      ⟨fun _ _ _ => rfl, fun _ _ => rfl⟩ r
    rw [hmsg, ring_setRing, if_pos rfl]
  · rw [statusOut_live hlive hout]
    exact (Sends.refl _).ringMsg.outs.subset (List.mem_append_right _ (List.mem_singleton_self _))

/-- What one finished buffer at the head of a ring leaves: it is returned. -/
theorem retire_single {z : Desc} {f : Nat} (ht : (d.ring r).taken = [z]) (hdone : z.done = true) (hfn : d.ringFn r = some f)
    (hlive : d.fnLive f = true) (hout : d.outWaits r = false) :
    ((retire r d).ring r).taken = [] ∧ ((retire r d).ring r).cons = ((d.ring r).cons + 1) % 65536 := by
  have hend (y : Dev) (x : Ring) (l : List Desc) : ((tagSync (l.foldl (fun d _ => ringMsg r d) (y.setRing r x))).ring r).taken =
      x.taken ∧ ((tagSync (l.foldl (fun d _ => ringMsg r d) (y.setRing r x))).ring r).cons = x.cons := by
    have hkeeps := Keeps.tagSync (Keeps.foldl l (.refl (fun x => (x.taken, x.cons)) (y.setRing r x)) fun _ _ hx =>
      hx.ringMsg (r := r) ⟨fun _ _ _ => rfl, fun _ _ => rfl⟩) r
    rw [ring_setRing, if_pos rfl] at hkeeps
    exact Prod.mk.injEq .. ▸ hkeeps
  unfold retire
  simp only [hfn, ht, hdone, hlive, hout, List.takeWhile_cons_of_pos, List.takeWhile_nil, List.isEmpty_cons, Bool.not_true,
    Bool.and_false, Bool.or_self, Bool.false_eq_true, if_false, List.length_singleton, List.drop_succ_cons, List.drop_zero]
  exact hend _ _ _

/-- The buffer at the head of a ring in order is returned once its samples' time is known. -/
theorem audFull_linear {y : Desc} {f status : Nat} (ht : (d.ring r).taken = [y]) (hcyc : (d.ring r).cyclic = false)
    (hfn : d.ringFn r = some f) : ∃ n z, z.done = true ∧ ∀ e, e = ({ d with freeIx := n } : Dev).setRing r
      { d.ring r with taken := [z] } → audFull r 0 status d = retire r e ∨ audFull r 0 status d = ringMsg r (retire r e) := by
  have hlin : ¬(d.ring r).cyclic = true := by simp [hcyc]
  cases hs : y.sampT with
  | some t =>
    refine ⟨d.freeIx, { audWords (if status = 0 then bits (y.dw 6) 0 4 else status) t 0 true true y with begun := true, done := true },
      rfl, fun e he => ?_⟩
    unfold audFull
    simp only [ht, List.getD_cons_zero, hs, hfn, if_neg hlin, List.set_cons_zero]
    rw [he]
    split
    · exact .inr rfl
    · exact .inl rfl
  | none =>
    refine ⟨d.freeIx + 1, { audWords (if status = 0 then bits (y.dw 6) 0 4 else status) (Config.free d.freeIx) 0 true true y with
      begun := true, done := true }, rfl, fun e he => ?_⟩
    unfold audFull
    simp only [ht, List.getD_cons_zero, hs, if_neg hlin, List.set_cons_zero, Dev.draw,
      show ({ d with freeIx := d.freeIx + 1 } : Dev).ringFn r = some f from hfn]
    rw [he]
    split
    · exact .inr rfl
    · exact .inl rfl

theorem audFullPoint_returns {y : Desc} {f : Nat} (ht : (d.ring r).taken = [y]) (hcyc : (d.ring r).cyclic = false)
    (hdone : y.done = false) (hbegun : y.begun = true) (hpos : y.len ≤ y.pos) (hfn : d.ringFn r = some f)
    (hlive : d.fnLive f = true) (hout : d.outWaits r = false) :
    ((audFullPoint r d).ring r).taken = [] ∧ ((audFullPoint r d).ring r).cons = ((d.ring r).cons + 1) % 65536 := by
  obtain ⟨n, z, hz, hlin⟩ := audFull_linear (status := 0) ht hcyc hfn
  obtain ⟨htaken, hcons⟩ := retire_single (d := ({ d with freeIx := n } : Dev).setRing r { d.ring r with taken := [z] }) (r := r)
    (by rw [ring_setRing, if_pos rfl]) hz hfn hlive hout
  have hfull : ((audFull r 0 0 d).ring r).taken = [] ∧ ((audFull r 0 0 d).ring r).cons = ((d.ring r).cons + 1) % 65536 := by
    have hmsg := Keeps.ringMsg (r := r) (.refl (fun x => (x.taken, x.cons)) (retire r (({ d with freeIx := n } : Dev).setRing r
      { d.ring r with taken := [z] }))) ⟨fun _ _ _ => rfl, fun _ _ => rfl⟩ r
    rw [Prod.mk.injEq] at hmsg
    obtain ⟨hmt, hmc⟩ := hmsg
    rw [ring_setRing, if_pos rfl] at hcons
    rcases hlin _ rfl with h | h
    · rw [h]
      exact ⟨htaken, hcons⟩
    · rw [h, hmt, hmc]
      exact ⟨htaken, hcons⟩
  have hgo : audFullPoint r d = pump (audFull r 0 0 d) := by
    unfold audFullPoint
    rw [audAt_single (p := fun y => decide (y.len ≤ y.pos)) ht hdone hbegun (by simp [hpos])]
  have hpumped := (Pumped.refl (audFull r 0 0 d)).pump r
  rw [hgo, hpumped.taken, hpumped.cons]
  exact hfull

end

end Sys2Proof.Machine
end

section
/-!
PROOFS. Request lines (R151, R152, R303): a burst is read for the ring that asks, a line that holds four overflows, a written map
takes force.
-/

namespace Sys2Proof.Machine

section
variable {d e : Dev} {k r : Nat}

/-! ### Rounds over the lines -/

theorem foldl_still {α : Type} {g : α → Dev → Dev} {l : List α} (h : ∀ j ∈ l, g j d = d) : l.foldl (fun x j => g j x) d = d := by
  induction l with
  | nil => rfl
  | cons j l ih =>
    rw [List.foldl_cons, h j List.mem_cons_self]
    exact ih fun i hi => h i (List.mem_cons_of_mem _ hi)

theorem foldl_hits {g : Nat → Dev → Dev} {l : List Nat} (hk : k ∈ l) (hothers : ∀ j ∈ l, j ≠ k → g j d = d) (hhit : g k d = e)
    (hdone : ∀ j ∈ l, g j e = e) : l.foldl (fun x j => g j x) d = e := by
  induction l with
  | nil => exact absurd hk List.not_mem_nil
  | cons j l ih =>
    rw [List.foldl_cons]
    by_cases hj : j = k
    · rw [hj, hhit]
      exact foldl_still fun i hi => hdone i (List.mem_cons_of_mem _ hi)
    · rw [hothers j List.mem_cons_self hj]
      exact ih ((List.mem_cons.mp hk).resolve_left (Ne.symm hj)) (fun i hi => hothers i (List.mem_cons_of_mem _ hi))
        fun i hi => hdone i (List.mem_cons_of_mem _ hi)

theorem prqOne_idle (h : (d.host.prq.getD k {}).q = []) : prqOne k d = d := by
  unfold prqOne
  dsimp only
  rw [h]
  rfl

/-- One round over the lines, from the line after the last served. -/
def prqRound (d : Dev) : Dev := (List.range 16).foldl (fun x i => prqOne ((d.host.prqLast + 1 + i) % 16) x) d

theorem forN_four (f : Nat → Dev → Dev) (d : Dev) : forN 4 f d = f 3 (f 2 (f 1 (f 0 d))) := rfl

theorem prqAll_eq : prqAll = forN 4 fun _ x => prqRound x := rfl

theorem prqAll_rounds (d : Dev) : prqAll d = prqRound (prqRound (prqRound (prqRound d))) := by rw [prqAll_eq, forN_four]

theorem prqRound_lines (d : Dev) :
    prqRound d = ((List.range 16).map fun i => (d.host.prqLast + 1 + i) % 16).foldl (fun x j => prqOne j x) d := by
  rw [prqRound, List.foldl_map]

theorem prqRound_idle (h : ∀ j < 16, (d.host.prq.getD j {}).q = []) : prqRound d = d := by
  rw [prqRound_lines]
  refine foldl_still fun j hj => prqOne_idle (h j ?_)
  simp at hj
  omega

theorem prqAll_idle (h : ∀ j < 16, (d.host.prq.getD j {}).q = []) : prqAll d = d := by
  rw [prqAll_rounds, prqRound_idle h, prqRound_idle h, prqRound_idle h, prqRound_idle h]

/-- One line asks, and is served in one turn. -/
theorem prqAll_one (hk : k < 16) (hothers : ∀ j < 16, j ≠ k → (d.host.prq.getD j {}).q = []) (hturn : prqOne k d = e)
    (hdone : ∀ j < 16, (e.host.prq.getD j {}).q = []) : prqAll d = e := by
  have hfirst : prqRound d = e := by
    rw [prqRound_lines]
    refine foldl_hits (k := k) ?_ (fun j hj hne => prqOne_idle (hothers j ?_ hne)) hturn fun j hj => prqOne_idle (hdone j ?_)
    · exact List.mem_map.mpr ⟨(k + 15 * (d.host.prqLast + 1)) % 16, List.mem_range.mpr (Nat.mod_lt _ (by decide)), by omega⟩
    · simp at hj
      omega
    · simp at hj
      omega
  rw [prqAll_rounds, hfirst, prqRound_idle hdone, prqRound_idle hdone, prqRound_idle hdone]

theorem noRequests_line {s : State} (h : NoRequests s) (j : Nat) : (s.dev.host.prq.getD j {}).q = [] := by
  rw [List.getD_eq_getElem?_getD]
  cases hj : s.dev.host.prq[j]? with
  | none => rfl
  | some l => exact h l (List.mem_of_getElem? hj)

/-! ### The state of a function after a line is shown -/

theorem prqShow_beyond (d : Dev) : Beyond d (prqShow d) := (Beyond.refl d).wr

theorem setPrq_host (k : Nat) (q : List (Nat × Nat)) (d : Dev) :
    (setPrq k q d).host = { d.host with prq := d.host.prq.modify k fun l => { l with q := q } } := by
  rw [setPrq, (prqShow_beyond _).host]
  rfl

theorem setPrq_outs (k : Nat) (q : List (Nat × Nat)) (d : Dev) : (setPrq k q d).outs = d.outs := by
  rw [setPrq, prqShow, wr_outs]
  rfl

theorem setPrq_hif (k : Nat) (q : List (Nat × Nat)) (d : Dev) (g : Field) (hg : g.off / 0x4000 = 5) :
    (setPrq k q d).rd g = d.rd g := by
  rw [setPrq, prqShow, rd_wr_apart _ _ _ _ (apart_of_off fun h => absurd (h ▸ hg) (by decide))]
  rfl

/-- Requests of a function hang on the registers of HIF and on its own record. -/
theorem fnLive_hif (h : ∀ g, g.off / 0x4000 = 5 → e.rd g = d.rd g) (f : Nat) (hfn : e.fn f = d.fn f) : e.fnLive f = d.fnLive f := by
  simp only [Dev.fnLive, Dev.fnState, Dev.on, h _ (show HIF_VF_STATE.PF0.off / 0x4000 = 5 by decide),
    h _ (show HIF_VF_STATE.VF.off / 0x4000 = 5 by decide), h _ (show HIF_STATUS.DL_UP.off / 0x4000 = 5 by decide), hfn]

theorem tagFree_hif (h : ∀ g, g.off / 0x4000 = 5 → e.rd g = d.rd g) {f : Nat} (hf : f < 16)
    (hreads : e.host.reads = d.host.reads) : e.tagFree f = d.tagFree f := by
  have hquota : e.rd (HIF_FNf_MISC.RD_TAGS f) = d.rd (HIF_FNf_MISC.RD_TAGS f) :=
    h _ (by simp only [HIF_FNf_MISC.RD_TAGS, HIF_FNf_MISC.addr]; omega)
  have hq : e.rdQuota f = d.rdQuota f := by rw [Dev.rdQuota, Dev.rdQuota, hquota]
  rw [Dev.tagFree, Dev.tagFree, hreads, hq]

theorem ringFn_lt {f : Nat} (h : d.ringFn r = some f) : f < 16 := by
  unfold Dev.ringFn at h
  exact List.mem_range.mp (List.mem_of_find?_eq_some h)

/-! ### A burst is read (R151) -/

theorem reqChunks_one {mx addr off n fuel : Nat} (hn : 0 < n) (hmx : n ≤ mx) (hpage : addr % 4096 + n ≤ 4096) :
    reqChunks mx (fuel + 1) addr off n = [(addr, off, n)] := by
  have hmin : min n (min mx (4096 - addr % 4096)) = n := by omega
  have hend (a o : Nat) : reqChunks mx fuel a o 0 = [] := by
    cases fuel with
    | zero => rfl
    | succ m => rw [reqChunks, if_pos rfl]
  rw [reqChunks, if_neg (by omega)]
  simp only [hmin, Nat.sub_self, hend]

theorem wantPayload_one {c addr off n f : Nat} (hfn : d.ringFn r = some f) (hn : 0 < n) (hmax : n ≤ 512) (hmrrs : n ≤ (d.fn f).mrrs)
    (hpage : addr % 4096 + n ≤ 4096) :
    wantPayload r c addr off n d = d.hostMod fun h => { h with wants := h.wants ++ [⟨r, c, off, addr, n⟩] } := by
  unfold wantPayload
  simp only [hfn, Option.getD_some, reqChunks_one (fuel := n) hn (show n ≤ max 1 (min (d.fn f).mrrs 512) by omega) hpage,
    List.map_cons, List.map_nil]

theorem issueWants_one {w : Want} {f : Nat} (hw : d.host.wants = [w]) (hkind : ringKind w.ring ≠ 0)
    (hpaced : d.paced false w.ring = false) (hfn : d.ringFn w.ring = some f) (hlive : d.fnLive f = true)
    (htag : d.tagFree f = true) : issueWants 1 d =
      issue f w.addr w.len (.pay w.ring w.cnt w.off w.len) (d.hostMod fun h => { h with wants := h.wants.erase w }) := by
  have hholds : d.beHolds w = false := by simp [Dev.beHolds, hkind]
  unfold issueWants
  simp only [hw, List.find?_cons, hpaced, hholds, hfn, hlive, htag, Bool.not_false, Bool.and_self, Option.getD_some, issueWants]

/-- The burst that a request line has asked for: 16 bytes behind those of the current buffer y. -/
def burstWant (r : Nat) (y : Desc) (d : Dev) : Want := ⟨r, (d.ring r).cons % 65536, y.need, y.addr + y.need, 16⟩

/-- The state in which the burst is all that waits. -/
def burstAsked (r : Nat) (y : Desc) (d : Dev) : Dev :=
  (d.hostMod fun h => { h with wants := [burstWant r y d] }).setRing r
    { d.ring r with taken := [{ y with begun := true, need := y.need + 16 }] }

theorem audDir_out (hkind : ringKind r = 2) : audDir r = false := by
  refine decide_eq_false fun hr => ?_
  rw [ringKind, if_neg (by omega), if_neg (by omega), if_neg (by omega)] at hkind
  split at hkind
  · exact absurd hkind (by decide)
  · split at hkind
    · exact absurd hkind (by decide)
    · exact absurd hkind (by split <;> decide)

theorem paced_audio (hkind : ringKind r = 2) (w : Bool) : d.paced w r = false := by simp only [Dev.paced, paceSource, hkind]

theorem prqBurst_asks {y : Desc} {f : Nat} (hkind : ringKind r = 2) (ht : (d.ring r).taken = [y])
    (hcyc : (d.ring r).cyclic = false) (hdone : y.done = false) (hlen : y.need + 16 ≤ y.len)
    (hpage : (y.addr + y.need) % 4096 ≤ 4080) (hfn : d.ringFn r = some f) (hlive : d.fnLive f = true) (htag : d.tagFree f = true)
    (hmrrs : 16 ≤ (d.fn f).mrrs) (hwants : d.host.wants = []) : prqBurst 16 r d = some (issueWants 1 (burstAsked r y d)) := by
  have hcur : (d.ring r).audCur = some 0 := by
    simp [Ring.audCur, ht, hcyc, hdone, show y.need < y.len by omega]
  have hn : min 16 (y.len - y.need) = 16 := by omega
  have hask := wantPayload_one (d := d.hostMod fun h => { h with wants := [] }) (c := (d.ring r).cons % 65536)
    (addr := y.addr + y.need) (off := y.need) (n := 16) hfn (by decide) (by decide) hmrrs (by omega)
  unfold prqBurst
  simp only [hcur, hfn, audDir_out hkind, hlive, htag, ht, hn, hwants, Bool.false_eq_true, if_false, Bool.not_true, Bool.or_self,
    List.getD_cons_zero, List.set_cons_zero, Nat.add_zero]
  rw [hask]
  rfl

theorem burstAsked_issues {y : Desc} {f : Nat} (hkind : ringKind r = 2) (hfn : d.ringFn r = some f) (hlive : d.fnLive f = true)
    (htag : d.tagFree f = true) : issueWants 1 (burstAsked r y d) = issue f (y.addr + y.need) 16
      (.pay r ((d.ring r).cons % 65536) y.need 16) ((burstAsked r y d).hostMod fun h => { h with wants := h.wants.erase (burstWant r y d) }) :=
  issueWants_one (w := burstWant r y d) rfl (by rw [burstWant, hkind]; decide) (paced_audio hkind _) hfn hlive htag

theorem issue_outs {f addr len : Nat} {u : Use} : (issue f addr len u d).outs = d.outs ++ [.memRead f d.newTag addr len] := by
  rw [issue, tagSync, wr_outs, wr_outs, wr_outs]
  rfl

theorem issue_ring {f addr len q : Nat} {u : Use} : (issue f addr len u d).ring q = d.ring q := by
  rw [issue, tagSync_ring]
  rfl

theorem issue_prq {f addr len : Nat} {u : Use} : (issue f addr len u d).host.prq = d.host.prq := by
  rw [issue, (tagSync_beyond _).host]
  rfl

theorem prqOne_moves {t : Nat} {x : Dev} (hq : (d.host.prq.getD k {}).q = [(r, t)]) (hring : d.ringLive r = true)
    (hburst : moveBurst (d.host.prqMap.getD k 0) r d = some x) :
    ∃ v, prqOne k d = setPrq k [] ((x.wr DMA_PRQ_LAT_MAX.CLK v).hostMod fun h => { h with prqLast := k }) := by
  unfold prqOne
  simp only [hq, List.filter_cons, hring, if_true, List.filter_nil, List.findSome?_cons, hburst, Option.map_some,
    List.erase_cons_head]
  exact ⟨_, rfl⟩

theorem burstAsked_prq (y : Desc) : (burstAsked r y d).host.prq = d.host.prq := rfl

theorem burstAsked_outs (y : Desc) : (burstAsked r y d).outs = d.outs := rfl

theorem burstAsked_newTag (y : Desc) : (burstAsked r y d).newTag = d.newTag := rfl

theorem burstAsked_taken (y : Desc) : ((burstAsked r y d).ring r).taken = [{ y with begun := true, need := y.need + 16 }] := by
  rw [burstAsked, ring_setRing, if_pos rfl]

theorem hostMod_wants_ring (q : Nat) (w : HostIf → List Want) : (d.hostMod fun h => { h with wants := w h }).ring q = d.ring q := rfl

theorem hostMod_wants_newTag (w : HostIf → List Want) : (d.hostMod fun h => { h with wants := w h }).newTag = d.newTag := rfl

theorem line_modify (l : List Prq) (hk : k < l.length) (q : List (Nat × Nat)) (j : Nat) :
    ((l.modify k fun x => { x with q := q }).getD j {}).q = if j = k then q else (l.getD j {}).q := by
  rw [List.getD_eq_getElem?_getD, List.getD_eq_getElem?_getD, List.getElem?_modify]
  split
  · next h =>
    subst h
    simp [List.getElem?_eq_getElem hk]
  · next h => simp [Ne.symm h]

/-- A line that one ring asks is served by a burst. -/
theorem prqOne_burst {y : Desc} {f t : Nat} (hk : k < d.host.prq.length) (hq : (d.host.prq.getD k {}).q = [(r, t)])
    (hring : d.ringLive r = true) (hburst : moveBurst (d.host.prqMap.getD k 0) r d = some (issueWants 1 (burstAsked r y d)))
    (hkind : ringKind r = 2) (hfn : d.ringFn r = some f) (hlive : d.fnLive f = true) (htag : d.tagFree f = true) :
    (∀ j, ((prqOne k d).host.prq.getD j {}).q = if j = k then [] else (d.host.prq.getD j {}).q) ∧
      ((prqOne k d).ring r).taken = [{ y with begun := true, need := y.need + 16 }] ∧
      Out.memRead f d.newTag (y.addr + y.need) 16 ∈ (prqOne k d).outs := by
  obtain ⟨v, hmoves⟩ := prqOne_moves hq hring hburst
  rw [burstAsked_issues hkind hfn hlive htag] at hmoves
  generalize hx : issue f (y.addr + y.need) 16 (.pay r ((d.ring r).cons % 65536) y.need 16)
    ((burstAsked r y d).hostMod fun h => { h with wants := h.wants.erase (burstWant r y d) }) = x at hmoves
  have hprq : x.host.prq = d.host.prq := by rw [← hx, issue_prq, hostMod_host, burstAsked_prq]
  have htaken : (x.ring r).taken = [{ y with begun := true, need := y.need + 16 }] := by
    rw [← hx, issue_ring, hostMod_wants_ring _ fun h => h.wants.erase _, burstAsked_taken]
  have houts : x.outs = d.outs ++ [.memRead f d.newTag (y.addr + y.need) 16] := by
    rw [← hx, issue_outs, hostMod_outs, hostMod_wants_newTag fun h => h.wants.erase _, burstAsked_outs, burstAsked_newTag]
  rw [hmoves]
  refine ⟨fun j => ?_, ?_, ?_⟩
  · rw [setPrq_host, hostMod_host, wr_host, hprq]
    exact line_modify _ hk [] j
  · rw [Dev.ring, setPrq_host, hostMod_host, wr_host]
    exact htaken
  · rw [setPrq_outs, hostMod_outs, wr_outs, houts]
    exact List.mem_append_right _ (List.mem_singleton_self _)

end

end Sys2Proof.Machine
end

section
/-!
PROOFS. Request lines: a request that finds a full line, one that is served, a written map; what rings and lines do (R126, R135,
R141, R144, R150 to R152).
-/

namespace Sys2Proof.Machine

section
variable {d e : Dev} {k r : Nat}

/-! ### The maps of the lines -/

/-- From d to e the maps in force and the written ones stand. -/
structure Lined (d e : Dev) : Prop where
  force : e.host.prqMap = d.host.prqMap
  wait : ∀ j, (e.host.prq.getD j {}).map = (d.host.prq.getD j {}).map

theorem Lined.refl (d : Dev) : Lined d d := ⟨rfl, fun _ => rfl⟩

theorem Lined.trans {x : Dev} (h1 : Lined d e) (h2 : Lined e x) : Lined d x :=
  ⟨h2.force.trans h1.force, fun j => (h2.wait j).trans (h1.wait j)⟩

theorem Lined.same {x : Dev} (h : Lined d e) (hm : x.host.prqMap = e.host.prqMap) (hl : x.host.prq = e.host.prq) : Lined d x :=
  ⟨hm.trans h.force, fun j => by rw [hl, h.wait]⟩

theorem Lined.host {x : Dev} (h : Lined d e) (hx : x.host = e.host) : Lined d x :=
  h.same (congrArg HostIf.prqMap hx) (congrArg HostIf.prq hx)

theorem Lined.told {x : Dev} (h : Lined d e) (hx : Told e x) : Lined d x := by
  obtain ⟨o, fs, rfl, -⟩ := hx
  exact h.same rfl rfl

theorem Lined.wr {f : Field} {v : Nat} (h : Lined d e) : Lined d (e.wr f v) := h.host (wr_host _ _ _)

theorem Lined.setRing {x : Ring} (h : Lined d e) : Lined d (e.setRing r x) := h.same rfl rfl

theorem Lined.ite {c : Prop} [Decidable c] {x y : Dev} (hx : Lined d x) (hy : Lined d y) : Lined d (if c then x else y) := by
  split
  · exact hx
  · exact hy

theorem Lined.foldl {α : Type} {f : Dev → α → Dev} (l : List α) (h : Lined d e) (hf : ∀ a x, Lined d x → Lined d (f x a)) :
    Lined d (l.foldl f e) := by
  induction l generalizing e with
  | nil => exact h
  | cons a l ih => exact ih (hf a e h)

theorem Lined.tagSync (h : Lined d e) : Lined d (tagSync e) := h.host (tagSync_beyond e).host

theorem Lined.hostWrite {f a : Nat} {bs : Bytes} {b : Bool} (h : Lined d e) : Lined d (hostWrite f a bs b e) :=
  h.told (Told.refl e).hostWrite

theorem Lined.payWrite {f a : Nat} {bs : Bytes} {b : Bool} (h : Lined d e) : Lined d (payWrite f a bs b e) :=
  h.foldl _ fun _ _ hx => hx.hostWrite

theorem Lined.hostOut {f a : Nat} {bs : Bytes} (h : Lined d e) : Lined d (hostOut r f a bs e) := .ite (h.same rfl rfl) h.payWrite

theorem Lined.msixSend {f v : Nat} (h : Lined d e) : Lined d (msixSend f v e) := h.told (Told.refl e).msixSend

theorem Lined.ringMsg (h : Lined d e) : Lined d (ringMsg r e) := by
  unfold Machine.ringMsg
  dsimp only
  split
  · exact h
  · split
    · exact .ite h.setRing h.setRing.msixSend
    · exact h.setRing.msixSend

theorem Lined.retire (h : Lined d e) : Lined d (retire r e) := by
  unfold Machine.retire
  dsimp only
  split
  · exact h
  · refine .ite h (.tagSync (.foldl _ (.setRing ?_) fun _ _ hx => hx.ringMsg))
    exact .foldl _ (.foldl _ h fun _ _ hx => hx.hostWrite) fun _ _ hx => hx.hostWrite

theorem Lined.issue {f addr len : Nat} {u : Use} (h : Lined d e) : Lined d (issue f addr len u e) := .tagSync (h.same rfl rfl)

theorem Lined.issueWants (n : Nat) (h : Lined d e) : Lined d (issueWants n e) := by
  induction n generalizing e with
  | zero => exact h
  | succ n ih =>
    unfold Machine.issueWants
    split
    · exact h
    · exact ih (.issue (h.same rfl rfl))

theorem Lined.fetchRing (h : Lined d e) : Lined d (fetchRing r e) := by
  unfold Machine.fetchRing
  split
  · exact h
  · exact .ite h (.ite (.ite h (Lined.wr (Lined.wr h.setRing))) (.ite h.setRing.issue h))

theorem Lined.ringStart {b : Bool} (h : Lined d e) : Lined d (ringStart b r e) := .ite h.setRing h

theorem Lined.pump (h : Lined d e) : Lined d (pump e) :=
  Lined.foldl _ (.issueWants _ (h.foldl _ fun _ _ hx => hx.ringStart)) fun _ _ hx =>
    hx.foldl _ fun _ _ hy => .ite hy.fetchRing (hy.fetchRing.same rfl rfl)

theorem Lined.audStarts (h : Lined d e) : Lined d (audStarts e) := Lined.pump (h.foldl _ fun _ _ hx => hx.ringStart)

/-! The bursts of a line -/

theorem msgOut_host (p : PegIn → Bool) : (msgOut p d).host = d.host := by
  rw [(msgOut_cells p).part Dev.host fun _ _ _ => rfl, pegMod_host]

theorem msgDone_host (y : PegIn) : (msgDone y d).host = d.host := by
  unfold msgDone ackLater
  rw [pegMod_host, msgOut_host, pegMod_host]

theorem Lined.msgSettle (h : Lined d e) : Lined d (msgSettle e) := h.foldl _ fun y _ hx => hx.host (msgDone_host y)

theorem bufRead_host (b : Buf) (d : Dev) : (bufRead b d).2.host = d.host := by
  have hlog (l : List Upset) (x : Dev) :
      (l.foldl (fun d u => eccLog u.cell u.word.val u.syn.toNat u.double false d) x).host = x.host :=
    (Beyond.foldl l (.refl x) fun _ _ _ hx => hx.trans eccLog_beyond).host
  unfold bufRead
  dsimp only
  split
  · rfl
  · split
    · rw [sat_host]
      exact hlog _ d
    · exact hlog _ d

theorem acMod_host (dir : Bool) (f : AudCh → AudCh) : (d.acMod dir k f).host = d.host := by
  unfold Dev.acMod
  split <;> rfl

theorem audioRead_host (dir : Bool) : (audioRead dir k d).host = d.host := by
  have hacs {α : Type} (l : List α) (g : α → AudCh → AudCh) (x : Dev) :
      (l.foldl (fun d u => d.acMod dir k (g u)) x).host = x.host := by
    induction l generalizing x with
    | nil => rfl
    | cons u l ih => rw [List.foldl_cons, ih, acMod_host]
  unfold audioRead
  dsimp only
  rw [hacs, bufRead_host]

theorem Lined.outBurst {n : Nat} (h : Lined d e) : Lined d (outBurst n r e) := by
  unfold Machine.outBurst
  split
  · exact h
  · dsimp only
    exact .ite (h.payWrite.same rfl rfl) (Lined.retire (h.payWrite.same rfl rfl))

theorem writeBurst_lined {n : Nat} (h : writeBurst n r d = some e) : Lined d e := by
  unfold writeBurst at h
  split at h
  · split at h
    · exact Option.some.inj h ▸ (Lined.refl d).outBurst.msgSettle
    · exact absurd h (by simp)
  · exact absurd h (by simp)

theorem readBurst_lined {n : Nat} (h : readBurst n r d = some e) : Lined d e := by
  unfold readBurst at h
  split at h
  · split at h
    · exact absurd h (by simp)
    · obtain rfl := Option.some.inj h
      exact Lined.issue (Lined.same (.refl d) rfl rfl)
  · exact absurd h (by simp)

theorem prqBurst_lined {n : Nat} (h : prqBurst n r d = some e) : Lined d e := by
  unfold prqBurst at h
  dsimp only at h
  split at h
  · split at h
    · split at h
      · exact absurd h (by simp)
      · have hread : Lined d (audioRead true (audCh r) d) := (Lined.refl d).host (audioRead_host true)
        exact Option.some.inj h ▸ Lined.host (Lined.setRing (Lined.host hread.hostOut (acMod_host _ _))) (acMod_host _ _)
    · split at h
      · exact absurd h (by simp)
      · exact Option.some.inj h ▸ Lined.issueWants _ (Lined.setRing (Lined.same (.refl d) rfl rfl))
  · exact absurd h (by simp)

theorem moveBurst_lined {m : Nat} (h : moveBurst m r d = some e) : Lined d e := by
  unfold moveBurst at h
  dsimp only at h
  split at h
  · exact readBurst_lined h
  · exact readBurst_lined h
  · exact writeBurst_lined h
  · exact writeBurst_lined h
  · exact prqBurst_lined h

theorem Lined.setPrq {q : List (Nat × Nat)} (h : Lined d e) : Lined d (setPrq k q e) := by
  refine ⟨?_, fun j => ?_⟩
  · rw [setPrq_host]
    exact h.force
  · rw [setPrq_host, ← h.wait j, List.getD_eq_getElem?_getD, List.getD_eq_getElem?_getD, List.getElem?_modify]
    cases e.host.prq[j]? with
    | none => rfl
    | some l => split <;> rfl

theorem Lined.prqOne (h : Lined d e) : Lined d (prqOne k e) := by
  have hfirst (c : Prop) [Decidable c] (q : List (Nat × Nat)) : Lined d (if c then e else Machine.setPrq k q e) := .ite h h.setPrq
  unfold Machine.prqOne
  dsimp only
  split
  · next hfind =>
    obtain ⟨a, -, ha⟩ := List.exists_of_findSome?_eq_some hfind
    obtain ⟨x, hx, heq⟩ := Option.map_eq_some_iff.mp ha
    obtain ⟨-, rfl⟩ := Prod.mk.inj heq
    exact Lined.setPrq (((hfirst _ _).trans (moveBurst_lined hx)).same rfl rfl)
  · exact hfirst _ _

theorem Lined.prqAll (h : Lined d e) : Lined d (prqAll e) :=
  Lined.foldl _ h fun _ _ hx => hx.foldl _ fun _ _ hy => hy.prqOne

/-- The written map of an idle line takes force. -/
theorem prqMapApply_takes {v : Nat} (hmap : (d.host.prq.getD k {}).map = some v) (hq : (d.host.prq.getD k {}).q = [])
    (hk : k < d.host.prqMap.length) :
    (prqMapApply k d).host.prqMap.getD k 0 = v ∧ ((prqMapApply k d).host.prq.getD k {}).map = none := by
  generalize hx : d.hostMod (fun h => { h with
    prqMap := h.prqMap.set k v, prq := h.prq.modify k fun l => { q := l.later } }) = x
  have hgo : prqMapApply k d = audStarts (prqAll (prqShow x)) := by
    unfold prqMapApply
    simp only [hmap, hq, List.isEmpty_nil, if_true, hx]
  have hlined : Lined x (prqMapApply k d) := by
    rw [hgo]
    exact (Lined.prqAll ((Lined.refl x).host (prqShow_beyond x).host)).audStarts
  refine ⟨?_, ?_⟩
  · rw [hlined.force, ← hx, hostMod_host]
    simp [List.getD_eq_getElem?_getD, hk]
  · rw [hlined.wait, ← hx, hostMod_host]
    simp only [List.getD_eq_getElem?_getD, List.getElem?_modify_eq]
    cases d.host.prq[k]? with
    | none => rfl
    | some l => rfl

/-! ### A request -/

theorem atMote_audPort (m : Nat) : (atMote m d).audPort r = d.audPort r := by
  obtain ⟨h, he⟩ := atMote_eq m d
  rw [he]
  rfl

theorem atMote_ringLive (m : Nat) : (atMote m d).ringLive r = d.ringLive r := by
  obtain ⟨h, he⟩ := atMote_eq m d
  rw [he]
  rfl

theorem ringLive_of {f : Nat} (hst : (d.ring r).st = 2) (hfn : d.ringFn r = some f) (hact : d.fnState f = 1) :
    d.ringLive r = true := by simp [Dev.ringLive, hst, hfn, hact]

theorem ringLive_on (h : d.ringLive r = true) : (d.ring r).st = 2 := by
  simp only [Dev.ringLive, Bool.and_eq_true, beq_iff_eq] at h
  exact h.1

theorem fnLive_active {f : Nat} (h : d.fnLive f = true) : d.fnState f = 1 := by
  simp only [Dev.fnLive, Bool.and_eq_true, beq_iff_eq] at h
  obtain ⟨⟨⟨hact, -⟩, -⟩, -⟩ := h
  exact hact

/-- A request for ring r of an output channel on line k, whose map in force names its port. -/
structure Asks (k r m : Nat) (d : Dev) : Prop where
  kind : ringKind r = 2
  source : bits (d.host.prqMap.getD k 0) 0 6 = prqSource false (d.audPort r)
  enabled : bit (d.host.prqMap.getD k 0) 9 = true
  neediest : (atMote m d).neediest false (d.audPort r) = some (audCh r)
  powered : d.pd 1 = true
  live : d.ringLive r = true
  noMap : (d.host.prq.getD k {}).map = none

theorem prqRequest_asked {m : Nat} (h : Asks k r m d) : prqRequest k r m d =
    if 4 ≤ (d.host.prq.getD k {}).q.length + (d.host.prq.getD k {}).later.length then
      (((atMote m d).sat DMA_PRQ_OVF_CNT.COUNT).wr DMA_PRQ_OVF_CNT.LINE k).ev DMA_EVENT.PRQ_OVF
    else prqAll (setPrq k ((d.host.prq.getD k {}).q ++ [(r, (atMote m d).nowExt)]) (atMote m d)) := by
  obtain ⟨hkind, hsrc, hon, hneed, hpd, hlive, hmap⟩ := h
  have hpd' : (atMote m d).pd 1 = true := (atMote_pd _ _ _).trans hpd
  unfold prqRequest
  simp only [atMote_host, hmap, Option.getD_none, hkind, audDir_out hkind, atMote_audPort, hsrc, hneed, hon, hpd', atMote_ringLive,
    hlive, beq_self_eq_true, Bool.and_self, Bool.not_true, Bool.or_self, Bool.false_eq_true, if_false, Option.isSome_none]

theorem prqRequest_overflows {m : Nat} (h : Asks k r m d) (hk : k < 16) (hfull : 4 ≤ (d.host.prq.getD k {}).q.length) :
    Wrote d (prqRequest k r m d) [(DMA_PRQ_OVF_CNT.COUNT, min (d.rd DMA_PRQ_OVF_CNT.COUNT + 1) 65535), (DMA_PRQ_OVF_CNT.LINE, k),
      (DMA_EVENT.PRQ_OVF, 1)] ∧ (prqRequest k r m d).host = d.host := by
  rw [prqRequest_asked h, if_pos (by omega)]
  have hcount := (Wrote.atMote m d).sat (f := DMA_PRQ_OVF_CNT.COUNT) (n := 1) (by decide)
  have hline := hcount.wr (f := DMA_PRQ_OVF_CNT.LINE) (v := k) (show fits _ [(DMA_PRQ_OVF_CNT.COUNT, 0)] = true by decide)
    (show k < 16 from hk)
  have hev := hline.ev (f := DMA_EVENT.PRQ_OVF)
    (show fits _ [(DMA_PRQ_OVF_CNT.COUNT, 0), (DMA_PRQ_OVF_CNT.LINE, 0)] = true by decide) (by decide)
  exact ⟨hev, by rw [ev_host, wr_host, sat_host, atMote_host]⟩

theorem prqSource_lt (p : Nat) (hp : p < 16) : prqSource false p ≠ 0x12 ∧ prqSource false p ≠ 0x13 ∧ prqSource false p ≠ 0x14 ∧
    prqSource false p ≠ 0x15 := by
  unfold prqSource
  split
  · decide
  · simp only [Bool.false_eq_true, if_false]
    omega

theorem moveBurst_audio {m n p : Nat} (hsrc : bits m 0 6 = prqSource false p) (hp : p < 16) (hn : bits m 6 3 = n) :
    moveBurst m r d = prqBurst (16 * 2 ^ n) r d := by
  obtain ⟨h12, h13, h14, h15⟩ := prqSource_lt p hp
  unfold moveBurst
  simp only [hsrc, hn]

theorem prqRequest_reads {m f : Nat} {y : Desc} (h : Asks k r m d) (hk : k < 16) (hburst : bits (d.host.prqMap.getD k 0) 6 3 = 0)
    (hcyc : (d.ring r).cyclic = false) (ht : (d.ring r).taken = [y]) (hdone : y.done = false) (hlen : y.need + 16 ≤ y.len)
    (hpage : (y.addr + y.need) % 4096 ≤ 4080) (hfn : d.ringFn r = some f) (hlive : d.fnLive f = true) (htag : d.tagFree f = true)
    (hmrrs : 16 ≤ (d.fn f).mrrs) (hlater : (d.host.prq.getD k {}).later = []) (hidle : ∀ j, (d.host.prq.getD j {}).q = [])
    (hwants : d.host.wants = []) (hlines : d.host.prq.length = 16) :
    ((prqRequest k r m d).host.prq.getD k {}).q = [] ∧
      ((prqRequest k r m d).ring r).taken = [{ y with begun := true, need := y.need + 16 }] ∧
      Out.memRead f d.newTag (y.addr + y.need) 16 ∈ (prqRequest k r m d).outs := by
  have hgo : prqRequest k r m d = prqAll (setPrq k [(r, (atMote m d).nowExt)] (atMote m d)) := by
    rw [prqRequest_asked h, hidle k, hlater, if_neg (by decide), List.nil_append]
  generalize hx : setPrq k [(r, (atMote m d).nowExt)] (atMote m d) = x at hgo
  have hhost : x.host = { d.host with prq := d.host.prq.modify k fun l => { l with q := [(r, (atMote m d).nowExt)] } } := by
    rw [← hx, setPrq_host, atMote_host]
  have hhif (g : Field) (hg : g.off / 0x4000 = 5) : x.rd g = d.rd g := by
    rw [← hx, setPrq_hif _ _ _ _ hg, atMote_rd]
  have hring : x.ring r = d.ring r := by rw [Dev.ring, hhost, Dev.ring]
  have hfnx : x.fn f = d.fn f := by rw [Dev.fn, hhost, Dev.fn]
  have hfnr : x.ringFn r = some f := (ringFn_congr hhif r).trans hfn
  have hlivex : x.fnLive f = true := (fnLive_hif hhif f hfnx).trans hlive
  have htagx : x.tagFree f = true := (tagFree_hif hhif (ringFn_lt hfn) (by rw [hhost])).trans htag
  have hq (j : Nat) : (x.host.prq.getD j {}).q = if j = k then [(r, (atMote m d).nowExt)] else [] := by
    rw [hhost]
    refine (line_modify _ (by rw [hlines]; exact hk) _ j).trans ?_
    rw [hidle j]
  have hasks := prqBurst_asks (d := x) h.kind (hring.symm ▸ ht) (hring.symm ▸ hcyc) hdone hlen hpage hfnr hlivex htagx (hfnx.symm ▸ hmrrs)
    (by rw [hhost]; exact hwants)
  have hmove : moveBurst (x.host.prqMap.getD k 0) r x = some (issueWants 1 (burstAsked r y x)) := by
    rw [hhost, moveBurst_audio h.source (Nat.mod_lt _ (by decide)) hburst]
    exact hasks
  have hlivering : x.ringLive r = true := ringLive_of (by rw [hring]; exact ringLive_on h.live) hfnr (fnLive_active hlivex)
  obtain ⟨hdone, htaken, houts⟩ := prqOne_burst (k := k) (by rw [hhost, List.length_modify, hlines]; exact hk) ((hq k).trans (if_pos rfl))
    hlivering hmove h.kind hfnr hlivex htagx
  have hall : prqAll x = prqOne k x := by
    refine prqAll_one hk (fun j _ hj => (hq j).trans (if_neg hj)) rfl fun j _ => ?_
    rw [hdone j]
    split
    · rfl
    · next hj => rw [hq j, if_neg hj]
  have htagn : x.newTag = d.newTag := by rw [Dev.newTag, Dev.newTag, hhost]
  rw [hgo, hall]
  exact ⟨(hdone k).trans (if_pos rfl), htaken, htagn ▸ houts⟩

end

theorem coalExpiry_shows (s : State) (r m t f : Nat) (hat : (s.dev.ring r).msgAt = some t) (hwait : (s.dev.ring r).msgWait = true)
    (hgap : t + (s.dev.ring r).gap ≤ (atMote m s.dev).nowExt) (hfn : s.dev.ringFn r = some f) :
    Wrote s.quiet (coalExpiry r m s.quiet) [] ∧ ((coalExpiry r m s.quiet).ring r).msgAt = some (atMote m s.dev).nowExt ∧
      ((coalExpiry r m s.quiet).ring r).msgWait = false ∧ ((s.dev.fn f).msixEn = true → s.dev.fnLive f = true →
        (s.dev.fn f).msixMask = false → ((s.dev.fn f).ent (s.dev.ring r).vec).masked = false → (coalExpiry r m s.quiet).outs =
          [.msix f (s.dev.ring r).vec ((s.dev.fn f).ent (s.dev.ring r).vec).addr ((s.dev.fn f).ent (s.dev.ring r).vec).data]) := by
  have hnow := atMote_nowExt m (d := s.dev) []
  have heq := coalExpiry_sends (d := s.quiet) (m := m) hat hwait (hnow.symm ▸ hgap) hfn
  generalize hx : (atMote m s.quiet).setRing r { s.quiet.ring r with msgAt := some (atMote m s.quiet).nowExt, msgWait := false } = x
    at heq
  have htold := (Told.refl x).msixSend (f := f) (v := (s.quiet.ring r).vec)
  have hring : x.ring r = { s.quiet.ring r with msgAt := some (atMote m s.quiet).nowExt, msgWait := false } := by
    rw [← hx, ring_setRing, if_pos rfl]
  have hwrote : Wrote s.quiet x [] := by
    rw [← hx]
    exact (Wrote.atMote m s.quiet).parts rfl rfl
  have hfnx : x.fn f = s.dev.fn f := by
    rw [← hx, fn_setRing, atMote_fn]
    rfl
  have hlivex : x.fnLive f = s.dev.fnLive f := fnLive_congr hwrote (by decide) (by decide) (by decide) hfnx
  rw [heq]
  refine ⟨hwrote.told htold, ?_, ?_, fun hen hlive hmask hent => ?_⟩
  · rw [htold.ring, hring, hnow]
  · rw [htold.ring, hring]
  · have houts : x.outs = [] := by
      rw [← hx]
      exact atMote_outputs m s.quiet
    rw [msixSend_live (by rw [hfnx, hen]) (by rw [hlivex, hlive]) (by rw [hfnx, hmask]) (by rw [hfnx]; exact hent), emit_outs,
      houts, hfnx]
    rfl

theorem stallExpiry_counts (s : State) (r m dl f : Nat) (it : RxItem) (hq : (s.dev.ring r).rxq = [it]) (hstall : it.stall = some dl)
    (hdl : dl ≤ (atMote m s.dev).nowExt) (haw : (s.dev.ring r).awaits = false) (hfn : s.dev.ringFn r = some f) :
    (∀ g, Beside (tagFields ++ pmemFields) g →
      ∃ x, (stallExpiry r m s.quiet).rd g = (stallNote it.n ((atMote m s.quiet).setRing r x)).rd g) ∧
      ((stallExpiry r m s.quiet).ring r).rxq = [] := by
  obtain ⟨x, hwork, hempty⟩ := stallExpiry_drops (d := s.quiet) hq hstall ((atMote_nowExt m (d := s.dev) []).symm ▸ hdl) haw hfn
  exact ⟨fun g hg => ⟨x, hwork.reads g hg⟩, hempty⟩

/-- Settles O18, clause by clause. -/
theorem ringTimersAndAudioRings : Obligations.RingTimersAndAudioRings := by
  unfold Obligations.RingTimersAndAudioRings
  intro s
  refine ⟨?_, ?_, ?_, ?_, ?_, ?_, ?_, ?_, ?_, ?_, ?_⟩
  · intro ring m t f hat hwait hgap hfn
    exact does_run (fun _ => rfl) (coalExpiry_shows s ring m t f hat hwait hgap hfn)
  · intro ring m it dl f hq hstall hdl hn hkind haw hfn
    refine ends_run (fun _ => rfl) ?_
    obtain ⟨hreads, hempty⟩ := stallExpiry_counts s ring m dl f it hq hstall hdl haw hfn
    obtain ⟨x, hcount⟩ := hreads DMA_RX_NODESC_DROP.COUNT (by decide)
    obtain ⟨y, hev⟩ := hreads DMA_EVENT.RX_NODESC_DROP (by decide)
    rw [stallDue, if_neg hkind, hcount, hev, stallNote, stallNote, if_pos hn, if_pos hn, rd_ev_apart _ _ _ (by decide),
      rd_sat_same _ _ _ (by decide), rd_ev_same (by decide)]
    exact ⟨congrArg (fun v => min (v + 1) (2 ^ 32 - 1)) (atMote_rd m s.quiet DMA_RX_NODESC_DROP.COUNT), rfl, hempty⟩
  · intro ring m it dl f hq hstall hdl hn hkind haw hfn
    refine ends_run (fun _ => rfl) ?_
    obtain ⟨hreads, hempty⟩ := stallExpiry_counts s ring m dl f it hq hstall hdl haw hfn
    obtain ⟨x, hcount⟩ := hreads DMA_RX_STALL_DROP.COUNT (by decide)
    obtain ⟨y, hev⟩ := hreads DMA_EVENT.RX_STALL_DROP (by decide)
    rw [stallDue, if_neg hkind, hcount, hev, stallNote, stallNote, if_neg (Nat.pos_iff_ne_zero.mp hn),
      if_neg (Nat.pos_iff_ne_zero.mp hn), rd_ev_apart _ _ _ (by decide), rd_sat_same _ _ _ (by decide), rd_ev_same (by decide)]
    exact ⟨congrArg (fun v => min (v + 1) (2 ^ 32 - 1)) (atMote_rd m s.quiet DMA_RX_STALL_DROP.COUNT), rfl, hempty⟩
  · intro m
    refine does_run (fun _ => rfl) ⟨Wrote.atMote m s.quiet, ?_, atMote_host m s.quiet⟩
    rw [launchDue, State.quiet, atMote_withOuts]
    rfl
  · intro ring hst hq h2 h3
    exact ends_run (fun _ => rfl) (ringQuiescence_stops (d := s.quiet) hst hq h2 h3)
  · intro ring ht
    obtain ⟨hb, hpd⟩ := ht
    refine does_run (fun _ => rfl) ?_
    rw [softField_taken (d := s.quiet) hb hpd]
    exact ⟨ringSelWrite_shows ring.isLt, trivial⟩
  · intro ring y f ht hcyc hdone hbegun hhalf hirq hpos hlen hfn
    exact ends_run (fun _ => rfl) (audHalfPoint_shows (d := s.quiet) ht hcyc hdone hbegun hhalf hirq hpos hlen hfn)
  · intro ring y f ht hcyc hdone hbegun hpos hfn hlive hout
    exact ends_run (fun _ => rfl) (audFullPoint_returns (d := s.quiet) ht hcyc hdone hbegun hpos hfn hlive hout)
  · intro line ring m y f hkind hsrc hburst hon hneed hpd hst hcyc ht hdone hlen _ hpage hfn hlive htag hmrrs hmap hlater hreq
      hwants hlines
    have hneed' : (atMote m s.quiet).neediest false (s.quiet.audPort ring) = some (audCh ring) := by
      rw [State.quiet, atMote_withOuts]
      exact hneed
    have hasks : Asks line ring m s.quiet := ⟨hkind, hsrc, hon, hneed', hpd, ringLive_of hst hfn (fnLive_active hlive), hmap⟩
    exact ends_run (fun _ => rfl) (prqRequest_reads hasks line.isLt hburst hcyc ht hdone hlen hpage hfn hlive htag hmrrs hlater
      (noRequests_line hreq) hwants hlines)
  · intro line ring m f hkind hsrc hon hneed hpd hst hfn hact hmap hfull
    have hneed' : (atMote m s.quiet).neediest false (s.quiet.audPort ring) = some (audCh ring) := by
      rw [State.quiet, atMote_withOuts]
      exact hneed
    have hasks : Asks line ring m s.quiet := ⟨hkind, hsrc, hon, hneed', hpd, ringLive_of hst hfn hact, hmap⟩
    exact does_run (fun _ => rfl) (prqRequest_overflows hasks line.isLt hfull)
  · intro line v hmap hq hlines
    exact ends_run (fun _ => rfl) (prqMapApply_takes (d := s.quiet) hmap hq (by rw [hlines]; exact line.isLt))

end Sys2Proof.Machine
end

section
/-!
PROOFS. The end of a round with a copy of channel B still held (R241, R266): a counterexample to O31.
-/

namespace Sys2Proof.Machine

/-- In SYNC at the end of slot 63, a SYNC slot of node 0: its frame on channel B is held and has not been used. Node 1 sends no
SYNC frame, and two deviations make a correction. -/
def heldRound : State :=
  { dev := { ((((((({} : Dev).wr PEG_SYNC_STATUS.STATE 3).wr PEG_CFG.NODE_ID 1).wr PEG_SYNC_CFG.MIN_VALS 2).wr
      PEG_SYNC_CFG.LOSS_RND 8).wr PEG_SYNC_WIN.W 100).setWord 0x2C03F0 0x82) with
    peg := { oper := some 0, active := true, slot := 63, copyB := some { w0 := 2 ^ 30, ts := 63 * 262144 + 12288 } } } }

/-- The effect of the end of its round. -/
def heldRoundDone : Dev :=
  (fun d : Dev => syncRoundCompute (if d.pst = 3 ∧ d.peg.active then useHeldB d else d)) { heldRound.dev with outs := [] }

/-- It shows the deviation of the held frame. -/
theorem heldRoundDone_shows : heldRoundDone.rd (PEG_SYNC_DEVk.D 0) = 0 := by decide +kernel

/-- Refutes O31: the statement takes a round in which no deviation has been noted yet for one without any, but the copy that
channel B holds for slot 63 is used first (R241): in `heldRound` it is a SYNC frame, whose deviation the round shows. -/
theorem not_peglineStartUpAndChain : ¬ Obligations.PeglineStartUpAndChain := by
  intro h
  obtain ⟨-, -, -, -, -, hround, -⟩ := h heldRound
  obtain ⟨e, ⟨-, -, -, -, -, hdev, -⟩, hreads⟩ :=
    (hround (by decide) (by decide) (by decide +kernel) rfl (by decide) (by decide) (by decide) (by decide) (by decide)).reads
      (f := fun d => syncRoundCompute (if d.pst = 3 ∧ d.peg.active then useHeldB d else d)) rfl
  have hread := hreads (PEG_SYNC_DEVk.D 0) (by decide)
  exact absurd (heldRoundDone_shows.symm.trans (hread.symm.trans (hdev 0))) (by decide)

end Sys2Proof.Machine
end

section
/-!
PROOFS. Guyline commands: GO with an operation (R349 to R352, R354).
-/

namespace Sys2Proof.Machine

/-- The registers as a GO with its fields leaves them before the line is looked at. -/
def glAsked (op : Nat) (incr : Bool) (fn len : Nat) (d : Dev) : Dev :=
  ((((d.wr FLD_GL_CTRL.OP op).wrB FLD_GL_CTRL.INCR incr).wr FLD_GL_CTRL.FN fn).wr FLD_GL_CTRL.LEN len).wrB FLD_GL_CTRL.GO true

/-- The fields of a GO, as FLD_GL_CTRL shows them. -/
def glFields (op : Nat) (incr : Bool) (fn len : Nat) : List (Field × Nat) :=
  [(FLD_GL_CTRL.OP, op), (FLD_GL_CTRL.INCR, b2n incr), (FLD_GL_CTRL.FN, fn), (FLD_GL_CTRL.LEN, len)]

/-- A length that an operation does not take (R351). -/
def glBadLen (op n : Nat) : Bool := (op == 2 && (n == 0 || decide (64 < n))) || (op == 3 && (n == 0 || decide (32 < n)))

section
variable {d : Dev} {op fn len : Nat} {incr : Bool}

theorem glFields_wrote (hop : op < 4) (hfn : fn < 256) (hlen : len < 128) : Wrote d
    ((((d.wr FLD_GL_CTRL.OP op).wrB FLD_GL_CTRL.INCR incr).wr FLD_GL_CTRL.FN fn).wr FLD_GL_CTRL.LEN len)
    (glFields op incr fn len) :=
  ((((Wrote.refl d).wr (f := FLD_GL_CTRL.OP) rfl hop).wrB (f := FLD_GL_CTRL.INCR) rfl (by decide)).wr
    (f := FLD_GL_CTRL.FN) rfl hfn).wr (f := FLD_GL_CTRL.LEN) rfl hlen

theorem glAsked_wrote (hop : op < 4) (hfn : fn < 256) (hlen : len < 128) :
    Wrote d (glAsked op incr fn len d) (glFields op incr fn len ++ [(FLD_GL_CTRL.GO, 1)]) := by
  have hfit : fits FLD_GL_CTRL.GO (glFields op incr fn len) = true := rfl
  exact (glFields_wrote hop hfn hlen).wrB hfit (b := true) (by decide)

theorem glAsked_beyond : Beyond d (glAsked op incr fn len d) := (Beyond.refl d).wr.wrB.wr.wr.wrB

theorem glAsked_outs : (glAsked op incr fn len d).outs = d.outs := by
  rw [glAsked, wrB_outs, wr_outs, wr_outs, wrB_outs, wr_outs]

/-- A field beside FLD_GL_CTRL reads as before. -/
theorem glAsked_rd (hop : op < 4) (hfn : fn < 256) (hlen : len < 128) {g : Field} (hg : g.off ≠ FLD_GL_CTRL.addr) :
    (glAsked op incr fn len d).rd g = d.rd g := by
  refine (glAsked_wrote hop hfn hlen).2.2 g fun x hx => apart_of_off ?_
  have hoff : x.1.off = FLD_GL_CTRL.addr := by
    simp only [glFields, List.cons_append, List.nil_append, List.mem_cons, List.not_mem_nil, or_false] at hx
    rcases hx with rfl | rfl | rfl | rfl | rfl <;> rfl
  rwa [hoff]

/-! ### What a GO comes to -/

/-- A transaction of software begins with length n, behind what a search clears first. -/
def glBegin (op : Nat) (incr : Bool) (n : Nat) (d : Dev) : Dev :=
  let z := if op = 1 then searchStart incr d else d
  glStart { z.glNew .soft op (if op = 3 then z.glBuf n else []) with
    from_ := if incr then some (z.rd FLD_GL_STATUS.LAST_DISC, z.fld.prev) else none } z

theorem glGo_free (hbusy : d.on FLD_GL_STATUS.BUSY = false) (hgo : d.on FLD_GL_CTRL.GO = false) : glGo op d =
    if glBadLen op ((d.wrB FLD_GL_CTRL.GO true).rd FLD_GL_CTRL.LEN) then glSoftEnd 9 (d.wrB FLD_GL_CTRL.GO true)
    else if op = 3 ∧ !(d.wrB FLD_GL_CTRL.GO true).holds then glSoftEnd 6 (d.wrB FLD_GL_CTRL.GO true)
    else glBegin op ((d.wrB FLD_GL_CTRL.GO true).on FLD_GL_CTRL.INCR) ((d.wrB FLD_GL_CTRL.GO true).rd FLD_GL_CTRL.LEN)
      (d.wrB FLD_GL_CTRL.GO true) := by
  rw [glGo, hbusy, hgo, if_neg (by decide)]
  generalize d.wrB FLD_GL_CTRL.GO true = y
  rfl

/-- With no transaction running, a GO is judged by its length and the token. -/
theorem glCommand_free (hop : op < 4) (hfn : fn < 256) (hlen : len < 128) (hbusy : d.on FLD_GL_STATUS.BUSY = false)
    (hgo : d.on FLD_GL_CTRL.GO = false) : glCommand op incr fn len d =
      if glBadLen op len then glSoftEnd 9 (glAsked op incr fn len d)
      else if op = 3 ∧ !d.holds then glSoftEnd 6 (glAsked op incr fn len d)
      else glBegin op incr len (glAsked op incr fn len d) := by
  have hw := glFields_wrote (d := d) (incr := incr) hop hfn hlen
  have hask := glAsked_wrote (d := d) (incr := incr) hop hfn hlen
  have hn : (glAsked op incr fn len d).rd FLD_GL_CTRL.LEN = len := hask.get (by simp [glFields])
  have hi : (glAsked op incr fn len d).on FLD_GL_CTRL.INCR = incr := by
    rw [Dev.on, hask.get (f := FLD_GL_CTRL.INCR) (v := b2n incr) (by simp [glFields])]
    cases incr <;> rfl
  have hholds : (glAsked op incr fn len d).holds = d.holds := by
    rw [Dev.holds, Dev.holds, glAsked_rd hop hfn hlen (by decide)]
  have h := glGo_free (op := op) ((hw.on (f := FLD_GL_STATUS.BUSY) rfl).trans hbusy) ((hw.on (f := FLD_GL_CTRL.GO) rfl).trans hgo)
  rw [← hholds, glCommand, h]
  rw [← glAsked, hn, hi]

/-! ### A transaction on the line -/

/-- A transaction on an idle line that is ready. -/
theorem glStart_runs {z : Dev} {g : Gl} {ws : List (Field × Nat)} (hw : Wrote d z ws) (hready : z.glReady = true)
    (hfit : fits FLD_GL_STATUS.BUSY ws = true) : Wrote d (glStart g z) (ws ++ [(FLD_GL_STATUS.BUSY, 1)]) ∧
      (glStart g z).fld = { z.fld with gl := some { g with start := z.nowExt, wait := none, idle := false } } ∧
      (glStart g z).outs = z.outs ++ OnLine g.op g.bs g.rd := by
  rw [glStart_ready hready]
  exact ⟨(hw.wrB (b := true) hfit (by decide)).parts rfl rfl, glRun_fld g z, glRun_outs g z⟩

/-- One that waits for the line. -/
theorem glStart_waits {z : Dev} {g : Gl} {ws : List (Field × Nat)} (hw : Wrote d z ws) (hready : z.glReady = false)
    (hfit : fits FLD_GL_STATUS.BUSY ws = true) : Wrote d (glStart g z) (ws ++ [(FLD_GL_STATUS.BUSY, 1)]) ∧
      (glStart g z).fld = { z.fld with gl := some { g with wait := none, idle := true } } ∧ (glStart g z).outs = z.outs := by
  rw [glStart, hready, if_neg (by decide)]
  exact ⟨(hw.wrB (b := true) hfit (by decide)).parts rfl rfl, rfl, rfl⟩

theorem nowExt_beyond {e : Dev} (h : Beyond d e) : e.nowExt = d.nowExt := h.part Dev.nowExt fun _ _ _ => rfl

theorem glReady_beyond {e : Dev} (h : Beyond d e) (hon : e.rd FLD_GL_CFG.SHARED = d.rd FLD_GL_CFG.SHARED) :
    e.glReady = d.glReady :=
  glReady_congr (by rw [Dev.on, Dev.on, hon]) (by rw [h.fld]) (h.part Dev.hearth fun _ _ _ => rfl)

theorem glAsked_ready (hop : op < 4) (hfn : fn < 256) (hlen : len < 128) :
    (glAsked op incr fn len d).glReady = d.glReady :=
  glReady_beyond glAsked_beyond (glAsked_rd hop hfn hlen (by decide))

theorem glBegin_plain (hop : op ≠ 1) (n : Nat) (d : Dev) : glBegin op incr n d =
    glStart { d.glNew .soft op (if op = 3 then d.glBuf n else []) with
      from_ := if incr then some (d.rd FLD_GL_STATUS.LAST_DISC, d.fld.prev) else none } d := by
  rw [glBegin, if_neg hop]

/-- A refused GO ends at once (R351). -/
theorem glSoftEnd_asked {res : Nat} (hop : op < 4) (hfn : fn < 256) (hlen : len < 128) (hres : res < 16) :
    Wrote d (glSoftEnd res (glAsked op incr fn len d))
      (glFields op incr fn len ++ [(FLD_GL_STATUS.RESULT, res), (FLD_GL_CTRL.GO, 0), (FLD_EVENT.GL_DONE, 1)]) := by
  have hgo := glFields_wrote (d := d) (incr := incr) hop hfn hlen
  have hfit : fits FLD_GL_CTRL.GO (glFields op incr fn len) = true := rfl
  have hon := hgo.wrB (b := true) hfit (by decide)
  have hres' := hon.wr (f := FLD_GL_STATUS.RESULT) (v := res) (by rfl) hres
  have hswap := hres'.reorder (vs := (glFields op incr fn len ++ [(FLD_GL_STATUS.RESULT, res)]) ++ [(FLD_GL_CTRL.GO, 1)])
    (by simp; tauto) (by simp; tauto)
  have hoff := (hswap.over (f := FLD_GL_CTRL.GO) (v := 0) (by rfl) (by decide)).ev (f := FLD_EVENT.GL_DONE) (by rfl) (by decide)
  rw [List.append_assoc, List.append_assoc] at hoff
  exact hoff

theorem glSoftEnd_beyond (res : Nat) (d : Dev) : Beyond d (glSoftEnd res d) := (Beyond.refl d).wr.wrB.ev

theorem glSoftEnd_outs (res : Nat) (d : Dev) : (glSoftEnd res d).outs = d.outs := rfl

/-! ### What a transaction reads -/

theorem glTid_congr {e : Dev} (h : ∀ k, e.rd (FLD_GL_TIDk.TID k) = d.rd (FLD_GL_TIDk.TID k)) : e.glTid = d.glTid := by
  simp only [Dev.glTid, h]

theorem glBuf_congr {e : Dev} (h : ∀ k, e.rd (FLD_GL_BUFk.BYTES k) = d.rd (FLD_GL_BUFk.BYTES k)) (n : Nat) :
    e.glBuf n = d.glBuf n := by
  simp only [Dev.glBuf, h]

theorem glAsked_tid (hop : op < 4) (hfn : fn < 256) (hlen : len < 128) : (glAsked op incr fn len d).glTid = d.glTid :=
  glTid_congr fun k => glAsked_rd hop hfn hlen (by
    show 0x7001C + 0x4 * k ≠ 0x70010
    omega)

theorem glAsked_buf (hop : op < 4) (hfn : fn < 256) (hlen : len < 128) (n : Nat) :
    (glAsked op incr fn len d).glBuf n = d.glBuf n :=
  glBuf_congr (fun k => glAsked_rd hop hfn hlen (by
    show 0x70100 + 0x4 * k ≠ 0x70010
    omega)) n

end

/-- What a transaction on the line shows of itself. -/
theorem gl_onLine {e : Dev} {g : Gl} {f : Fld} {n : Nat}
    (h : e.fld = { f with gl := some { g with start := n, wait := none, idle := false } }) :
    (e.fld.gl.map fun g => (g.who, g.op, g.tries, g.start, g.wait)) = some (g.who, g.op, g.tries, n, none) := by
  rw [h]
  rfl

section
variable {s : State} {op fn len : Nat} {incr : Bool}

/-- A GO whose length and token are in order, on a free line. -/
theorem glCommand_runs (hop : op < 4) (hop1 : op ≠ 1) (hfn : fn < 256) (hlen : len < 128) (hs : LineFree s)
    (hok : glBadLen op len = false) (htok : op = 3 → s.dev.holds = true) :
    Wrote s.quiet (glCommand op incr fn len s.quiet)
        (glFields op incr fn len ++ [(FLD_GL_CTRL.GO, 1), (FLD_GL_STATUS.BUSY, 1)]) ∧
      ((glCommand op incr fn len s.quiet).fld.gl.map fun g => (g.who, g.op, g.tries, g.start, g.wait)) =
        some (.soft, op, 0, s.dev.nowExt, none) ∧
      ∃ g, g = (glAsked op incr fn len s.quiet).glNew .soft op (if op = 3 then s.dev.glBuf len else []) ∧
        (glCommand op incr fn len s.quiet).outs = OnLine op g.bs g.rd := by
  obtain ⟨-, hbusy, hgo, hready⟩ := hs
  have hquiet : s.quiet.glReady = s.dev.glReady := glReady_congr rfl rfl rfl
  have hcmd := glCommand_free (d := s.quiet) (incr := incr) hop hfn hlen hbusy hgo
  have hholds : ¬(op = 3 ∧ (!s.quiet.holds) = true) := fun ⟨h3, hno⟩ => by
    rw [show s.quiet.holds = true from htok h3] at hno
    exact Bool.noConfusion hno
  rw [if_neg (by simp [hok]), if_neg hholds, glBegin_plain hop1] at hcmd
  have hfit : fits FLD_GL_STATUS.BUSY (glFields op incr fn len ++ [(FLD_GL_CTRL.GO, 1)]) = true := rfl
  obtain ⟨hw, hfld, houts⟩ := glStart_runs (glAsked_wrote hop hfn hlen)
    ((glAsked_ready hop hfn hlen).trans (hquiet.trans hready)) hfit
  rw [← hcmd] at hw hfld houts
  refine ⟨by rwa [List.append_assoc] at hw, ?_, ?_⟩
  · rw [gl_onLine hfld, nowExt_beyond glAsked_beyond]
    rfl
  · rw [glAsked_outs, List.nil_append, glAsked_buf hop hfn hlen] at houts
    exact ⟨_, rfl, houts⟩

/-- One that finds the line not ready waits for it. -/
theorem glCommand_waits (hop : op < 3) (hop1 : op ≠ 1) (hfn : fn < 256) (hlen : len < 128)
    (hbusy : s.dev.on FLD_GL_STATUS.BUSY = false) (hgo : s.dev.on FLD_GL_CTRL.GO = false) (hready : s.dev.glReady = false)
    (hok : glBadLen op len = false) :
    Wrote s.quiet (glCommand op incr fn len s.quiet)
        (glFields op incr fn len ++ [(FLD_GL_CTRL.GO, 1), (FLD_GL_STATUS.BUSY, 1)]) ∧
      ((glCommand op incr fn len s.quiet).fld.gl.map fun g => (g.who, g.op, g.idle)) = some (.soft, op, true) ∧
      (glCommand op incr fn len s.quiet).outs = [] := by
  have hop4 : op < 4 := by omega
  have hquiet : s.quiet.glReady = s.dev.glReady := glReady_congr rfl rfl rfl
  have hcmd := glCommand_free (d := s.quiet) (incr := incr) hop4 hfn hlen hbusy hgo
  rw [if_neg (by simp [hok]), if_neg (fun h => absurd h.1 (by omega)), glBegin_plain hop1] at hcmd
  have hfit : fits FLD_GL_STATUS.BUSY (glFields op incr fn len ++ [(FLD_GL_CTRL.GO, 1)]) = true := rfl
  obtain ⟨hw, hfld, houts⟩ := glStart_waits (glAsked_wrote hop4 hfn hlen)
    ((glAsked_ready hop4 hfn hlen).trans (hquiet.trans hready)) hfit
  rw [← hcmd] at hw hfld houts
  refine ⟨by rwa [List.append_assoc] at hw, ?_, houts.trans glAsked_outs⟩
  rw [hfld]
  rfl

/-- One that is refused ends with its result. -/
theorem glCommand_refused {res : Nat} (hop : op < 4) (hfn : fn < 256) (hlen : len < 128) (hres : res < 16)
    (hbusy : s.dev.on FLD_GL_STATUS.BUSY = false) (hgo : s.dev.on FLD_GL_CTRL.GO = false)
    (hwhy : glBadLen op len = true ∧ res = 9 ∨ glBadLen op len = false ∧ op = 3 ∧ s.dev.holds = false ∧ res = 6) :
    Wrote s.quiet (glCommand op incr fn len s.quiet)
        (glFields op incr fn len ++ [(FLD_GL_STATUS.RESULT, res), (FLD_GL_CTRL.GO, 0), (FLD_EVENT.GL_DONE, 1)]) ∧
      (glCommand op incr fn len s.quiet).fld = s.dev.fld ∧ (glCommand op incr fn len s.quiet).outs = [] := by
  have hcmd := glCommand_free (d := s.quiet) (incr := incr) hop hfn hlen hbusy hgo
  have hend : glCommand op incr fn len s.quiet = glSoftEnd res (glAsked op incr fn len s.quiet) := by
    rcases hwhy with ⟨hbad, rfl⟩ | ⟨hok, h3, hfree, rfl⟩
    · rwa [if_pos hbad] at hcmd
    · have hholds : op = 3 ∧ (!s.quiet.holds) = true := ⟨h3, by rw [show s.quiet.holds = false from hfree]; rfl⟩
      rwa [if_neg (by simp [hok]), if_pos hholds] at hcmd
  rw [hend]
  exact ⟨glSoftEnd_asked hop hfn hlen hres, ((glSoftEnd_beyond res _).fld).trans glAsked_beyond.fld,
    (glSoftEnd_outs res _).trans glAsked_outs⟩

end
end Sys2Proof.Machine
end

section
/-!
PROOFS. Guyline searches, and the ends of transactions (R350, R351, R354).
-/

namespace Sys2Proof.Machine

section
variable {d e : Dev} {f : Field} {ws : List (Field × Nat)}

/-! ### A field written with the value it has -/

theorem setBits_self (x lo w : Nat) : setBits x lo w (bits x lo w) = x := by
  refine Nat.eq_of_testBit_eq fun i => ?_
  rw [testBit_setBits, testBit_bits]
  split
  · next h =>
    rw [decide_eq_true (show i - lo < w by omega), Bool.true_and, Nat.add_sub_cancel' h.1]
  · rfl

theorem rd_wr_self (d : Dev) (f g : Field) : (d.wr f (d.rd f)).rd g = d.rd g := by
  have hword (o : Nat) : (d.wr f (d.rd f)).word o = d.word o := by
    rw [Dev.wr, word_setWord, Dev.rd, setBits_self]
    split
    · next h => rw [h, Nat.mod_eq_of_lt (word_lt d f.off)]
    · rfl
  rw [Dev.rd, hword, Dev.rd]

theorem Wrote.same {v : Nat} (h : Wrote d e ws) (hv : e.rd f = v) : Wrote d (e.wr f v) ws := by
  obtain ⟨hram, hset, hrest⟩ := h
  subst hv
  exact ⟨hram, fun x hx => (rd_wr_self e f x.1).trans (hset x hx), fun g hg => (rd_wr_self e f g).trans (hrest g hg)⟩

theorem Wrote.sameB {b : Bool} (h : Wrote d e ws) (hw : f.w = 1) (hv : e.on f = b) : Wrote d (e.wrB f b) ws := by
  refine h.same ?_
  have hlt : e.rd f < 2 := by
    have := rd_lt e f
    rwa [hw] at this
  rw [← hv, Dev.on]
  split
  · next hne =>
    have : e.rd f ≠ 0 := by simpa using hne
    omega
  · next heq => simpa using heq

/-! ### The identity list -/

/-- Fields that an emptied list leaves alone. -/
def Unlisted (g : Field) : Prop :=
  (g.off < 0x70400 ∨ 0x70700 ≤ g.off) ∧ Beside [FLD_GL_STATUS.COUNT, FLD_GL_STATUS.LAST_DISC] g

theorem unlisted_cell {i : Nat} (hi : i < 192) : Free Unlisted ⟨0x70400 + 4 * i, 0, 32⟩ := fun g hg =>
  apart_of_off (by
    have hoff := hg.1
    show g.off ≠ 0x70400 + 4 * i
    omega)

theorem unlisted_status {f : Field} (hf : f ∈ [FLD_GL_STATUS.COUNT, FLD_GL_STATUS.LAST_DISC]) : Free Unlisted f :=
  fun _ hg => hg.2 f hf

theorem unlisted_outside {g : Field} (hg : Outside [28] g) : Unlisted g := by
  have hoff : g.off / 0x4000 ≠ 28 := by simpa [Outside] using hg
  refine ⟨by omega, fun f hf => apart_of_off fun h => hoff ?_⟩
  rw [h]
  simp only [List.mem_cons, List.not_mem_nil, or_false] at hf
  rcases hf with rfl | rfl <;> rfl

/-- The words of the list, emptied. -/
def idsCleared (d : Dev) : Dev := forN (3 * d.rd FLD_GL_STATUS.COUNT) (fun i d => d.setWord (0x70400 + 4 * i) 0) d

theorem searchEmpty_eq (d : Dev) :
    searchEmpty d = ((idsCleared d).wr FLD_GL_STATUS.COUNT 0).wr FLD_GL_STATUS.LAST_DISC 127 := rfl

theorem idsCleared_beyond (d : Dev) : Beyond d (idsCleared d) := (Beyond.refl d).forN fun _ _ _ hx => hx.setWord

theorem idsCleared_outs (d : Dev) : (idsCleared d).outs = d.outs :=
  forN_keeps (P := fun e => e.outs = d.outs) (f := fun i d => d.setWord (0x70400 + 4 * i) 0) _ (fun _ _ _ he => he) rfl

theorem idsCleared_stands (h : d.rd FLD_GL_STATUS.COUNT ≤ 64) : Stands Unlisted d (idsCleared d) :=
  (Stands.refl Unlisted d).forN fun i hi x hx => by
    rw [setWord_eq_wr]
    exact hx.wr (unlisted_cell (by omega))

theorem idsCleared_rd {j k : Nat} (hj : j < d.rd FLD_GL_STATUS.COUNT) (hk : k < 3) :
    (idsCleared d).rd (FLD_GL_ID.ID j k) = 0 := by
  have hcell : FLD_GL_ID.ID j k = ⟨0x70400 + 4 * (3 * j + k), 0, 32⟩ := by
    simp only [FLD_GL_ID.ID, FLD_GL_ID.addr, Field.mk.injEq, and_true]
    omega
  rw [hcell]
  refine forN_establishes (j := 3 * j + k) (P := fun e => e.rd ⟨0x70400 + 4 * (3 * j + k), 0, 32⟩ = 0) (by omega)
    (fun e => ?_) (fun i _ hne e he => ?_) d
  · rw [setWord_eq_wr]
    exact rd_wr_same e _ 0 (Nat.le_refl 32)
  · rw [setWord_eq_wr]
    exact (rd_wr_off e _ _ 0 (show 0x70400 + 4 * (3 * j + k) ≠ 0x70400 + 4 * i by omega)).trans he

theorem searchEmpty_beyond (d : Dev) : Beyond d (searchEmpty d) := (idsCleared_beyond d).wr.wr

theorem searchEmpty_outs (d : Dev) : (searchEmpty d).outs = d.outs := by
  rw [searchEmpty_eq, wr_outs, wr_outs, idsCleared_outs]

theorem searchEmpty_stands (h : d.rd FLD_GL_STATUS.COUNT ≤ 64) : Stands Unlisted d (searchEmpty d) :=
  ((idsCleared_stands h).wr (unlisted_status (by simp))).wr (unlisted_status (by simp))

theorem searchEmpty_count (d : Dev) : (searchEmpty d).rd FLD_GL_STATUS.COUNT = 0 :=
  (rd_wr_apart _ _ _ _ (by decide)).trans (rd_wr_same _ _ 0 (by decide))

theorem searchEmpty_disc (d : Dev) : (searchEmpty d).rd FLD_GL_STATUS.LAST_DISC = 127 := rd_wr_same _ _ 127 (by decide)

theorem searchEmpty_id {j k : Nat} (hj : j < d.rd FLD_GL_STATUS.COUNT) (hk : k < 3) :
    (searchEmpty d).rd (FLD_GL_ID.ID j k) = 0 := by
  have hoff : (FLD_GL_ID.ID j k).off ≠ FLD_GL_STATUS.addr := by
    show 0x70400 + 0xC * j + 0x4 * k ≠ 0x70028
    omega
  exact ((rd_wr_off _ _ _ _ hoff).trans (rd_wr_off _ _ _ _ hoff)).trans (idsCleared_rd hj hk)

/-! ### A search starts -/

/-- A search forgets how the one before was disturbed. -/
theorem searchStart_incr_wrote (h : Wrote d e ws) (h1 : fits FLD_GL_STATUS.DISTURBED ws = true)
    (h2 : fits FLD_GL_STATUS.OVERFLOW (ws ++ [(FLD_GL_STATUS.DISTURBED, 0)]) = true) :
    Wrote d (searchStart true e) (ws ++ [(FLD_GL_STATUS.DISTURBED, 0)] ++ [(FLD_GL_STATUS.OVERFLOW, 0)]) := by
  exact (h.wrB (b := false) h1 (by decide)).wrB (b := false) h2 (by decide)

theorem searchStart_incr (d : Dev) :
    searchStart true d = (d.wrB FLD_GL_STATUS.DISTURBED false).wrB FLD_GL_STATUS.OVERFLOW false := rfl

theorem searchStart_full (d : Dev) :
    searchStart false d = searchEmpty ((d.wrB FLD_GL_STATUS.DISTURBED false).wrB FLD_GL_STATUS.OVERFLOW false) := rfl

theorem searchStart_beyond (incr : Bool) (d : Dev) : Beyond d (searchStart incr d) := by
  cases incr with
  | true => exact (Beyond.refl d).wrB.wrB
  | false => exact (Beyond.refl d).wrB.wrB.trans (searchEmpty_beyond _)

theorem searchStart_outs (incr : Bool) (d : Dev) : (searchStart incr d).outs = d.outs := by
  cases incr with
  | true => rw [searchStart_incr, wrB_outs, wrB_outs]
  | false => rw [searchStart_full, searchEmpty_outs, wrB_outs, wrB_outs]

/-- What a full search has cleared when it starts. -/
theorem searchStart_full_shows (h : d.rd FLD_GL_STATUS.COUNT ≤ 64) : Stands (Outside [28]) d (searchStart false d) ∧
    (searchStart false d).rd FLD_GL_CFG.SHARED = d.rd FLD_GL_CFG.SHARED ∧ (searchStart false d).rd FLD_GL_STATUS.COUNT = 0 ∧
    (searchStart false d).rd FLD_GL_STATUS.LAST_DISC = 127 ∧ (searchStart false d).rd FLD_GL_STATUS.DISTURBED = 0 ∧
    (searchStart false d).rd FLD_GL_STATUS.OVERFLOW = 0 ∧
    ∀ j k, j < d.rd FLD_GL_STATUS.COUNT → k < 3 → (searchStart false d).rd (FLD_GL_ID.ID j k) = 0 := by
  have hw := ((Wrote.refl d).wrB (f := FLD_GL_STATUS.DISTURBED) (b := false) rfl (by decide)).wrB
    (f := FLD_GL_STATUS.OVERFLOW) (b := false) rfl (by decide)
  have hcount := hw.rd (f := FLD_GL_STATUS.COUNT) rfl
  have hpre : Stands (Outside [28]) d ((d.wrB FLD_GL_STATUS.DISTURBED false).wrB FLD_GL_STATUS.OVERFLOW false) :=
    hw.beside.inBlocks (by decide)
  have hshared := hw.rd (f := FLD_GL_CFG.SHARED) rfl
  have hdist := hw.nth (f := FLD_GL_STATUS.DISTURBED) 0 rfl
  have hover := hw.nth (f := FLD_GL_STATUS.OVERFLOW) 1 rfl
  rw [searchStart_full]
  generalize (d.wrB FLD_GL_STATUS.DISTURBED false).wrB FLD_GL_STATUS.OVERFLOW false = y at *
  have hy := searchEmpty_stands (hcount.trans_le h)
  refine ⟨hpre.trans ⟨fun g hg => hy.rd (unlisted_outside hg), hy.2⟩,
    (hy.rd ⟨.inl (by decide), by decide⟩).trans hshared, searchEmpty_count y, searchEmpty_disc y,
    (hy.rd ⟨.inl (by decide), by decide⟩).trans hdist, (hy.rd ⟨.inl (by decide), by decide⟩).trans hover,
    fun j k hj hk => searchEmpty_id (hj.trans_eq hcount.symm) hk⟩

end

section
variable {s : State} {fn len : Nat}

/-- The device on which a search of software starts. -/
def glSearched (incr : Bool) (fn len : Nat) (d : Dev) : Dev := searchStart incr (glAsked 1 incr fn len d)

theorem glBegin_search (incr : Bool) (n : Nat) (d : Dev) : glBegin 1 incr n d =
    glStart { (searchStart incr d).glNew .soft 1 [] with
      from_ := if incr then some ((searchStart incr d).rd FLD_GL_STATUS.LAST_DISC, (searchStart incr d).fld.prev) else none }
      (searchStart incr d) := by
  rw [glBegin, if_pos rfl, if_neg (by decide)]

theorem glSearched_beyond (incr : Bool) (d : Dev) : Beyond d (glSearched incr fn len d) :=
  glAsked_beyond.trans (searchStart_beyond incr _)

/-- A search on a free line: its pass command goes out. -/
theorem glCommand_search (incr : Bool) (hfn : fn < 256) (hlen : len < 128) (hs : LineFree s)
    (hshared : (glSearched incr fn len s.quiet).rd FLD_GL_CFG.SHARED = s.dev.rd FLD_GL_CFG.SHARED) : ∃ g,
      glCommand 1 incr fn len s.quiet = glStart g (glSearched incr fn len s.quiet) ∧
      (glSearched incr fn len s.quiet).glReady = true ∧
      ((glCommand 1 incr fn len s.quiet).fld.gl.map fun g => (g.who, g.op, g.tries, g.start, g.wait)) =
        some (.soft, 1, 0, s.dev.nowExt, none) ∧
      (glCommand 1 incr fn len s.quiet).outs = OnLine 1 [0xE5] 0 := by
  obtain ⟨-, hbusy, hgo, hready⟩ := hs
  have hquiet : s.quiet.glReady = s.dev.glReady := glReady_congr rfl rfl rfl
  have hcmd := glCommand_free (d := s.quiet) (incr := incr) (op := 1) (by decide) hfn hlen hbusy hgo
  rw [if_neg (show ¬glBadLen 1 len = true from Bool.false_ne_true), if_neg (by simp), glBegin_search] at hcmd
  have hline : (glSearched incr fn len s.quiet).glReady = true :=
    (glReady_beyond (glSearched_beyond incr s.quiet) hshared).trans (hquiet.trans hready)
  obtain ⟨-, hfld, houts⟩ := glStart_runs (Wrote.refl (glSearched incr fn len s.quiet)) hline (g := {
    (glSearched incr fn len s.quiet).glNew .soft 1 [] with
      from_ := if incr then some ((glSearched incr fn len s.quiet).rd FLD_GL_STATUS.LAST_DISC,
        (glSearched incr fn len s.quiet).fld.prev) else none }) rfl
  refine ⟨_, hcmd, hline, ?_, ?_⟩
  · refine (congrArg (fun x : Dev => x.fld.gl.map fun g => (g.who, g.op, g.tries, g.start, g.wait)) hcmd).trans ?_
    refine (gl_onLine hfld).trans ?_
    rw [nowExt_beyond (glSearched_beyond incr s.quiet)]
    rfl
  · refine (congrArg Dev.outs hcmd).trans (houts.trans ?_)
    rw [glSearched, searchStart_outs, glAsked_outs]
    rfl

end
end Sys2Proof.Machine
end

section
/-!
PROOFS. Guyline: how transactions end, and the theorem of its obligation (R350 to R354).
-/

namespace Sys2Proof.Machine

/-! ### An end -/

/-- The line is let go of: it is high from now on, but behind a WRITE that programs. -/
def glReleased (g : Gl) (res : Nat) (d : Dev) : Dev := glFree (if g.op = 3 ∧ (res = 1 ∨ res = 5) then d else glHigh d)

/-- PRESENT as the result tells it. -/
def glShown (res : Nat) (d : Dev) : Dev :=
  if res = 2 then d.wrB FLD_GL_STATUS.PRESENT false
  else if res = 1 ∨ res = 3 ∨ res = 5 then d.wrB FLD_GL_STATUS.PRESENT true else d

/-- The bytes of a READ go into the buffer words that they reach. -/
def glStored (data : Bytes) (d : Dev) : Dev :=
  forN 16 (fun k d => if 4 * k < data.length then d.wr (FLD_GL_BUFk.BYTES k) (leNat (slice data (4 * k) 4)) else d) d

section
variable {d : Dev} {g : Gl} {res : Nat} {data : Bytes}

theorem glReleased_wrote (hheld : d.fld.held = none) : Wrote d (glReleased g res d) [(FLD_GL_STATUS.BUSY, 0)] := by
  have hfree (x : Dev) (hx : x.fld.held = none) : Wrote x (glFree x) [(FLD_GL_STATUS.BUSY, 0)] := by
    rw [glFree, hx]
    exact ((Wrote.refl x).wrB (b := false) rfl (by decide)).parts rfl rfl
  unfold glReleased
  split
  · exact hfree d hheld
  · exact (hfree (glHigh d) hheld).of_parts rfl rfl

theorem glReleased_fld : ∃ n, (glReleased g res d).fld = { d.fld with gl := none, glUp := n } := by
  unfold glReleased
  split
  · exact ⟨_, rfl⟩
  · exact ⟨_, rfl⟩

theorem glShown_beyond : Beyond d (glShown res d) := .ite (Beyond.refl d).wrB (.ite (Beyond.refl d).wrB (Beyond.refl d))

theorem glStored_beyond : Beyond d (glStored data d) :=
  (Beyond.refl d).forN fun _ _ _ hx => .ite hx.wr hx

/-- A transaction of software, no search, ends with no other one waiting. -/
theorem glEnded_soft (hwho : g.who = .soft) (hop : g.op ≠ 1) (hglq : d.fld.glq = []) (hheld : d.fld.held = none) :
    glEnded g res data d = glSoftEnd res (if g.op = 2 ∧ res = 1 then glStored data (glShown res (glReleased g res d))
      else glShown res (glReleased g res d)) := by
  have hnext (x : Dev) (hgl : x.fld.gl = none) (hq : x.fld.glq = []) (hh : x.fld.held = none) : glNext x = x := by
    simp [glNext, hgl, hq, hh]
  have hdef : glEnded g res data d = glNext (glSoftEnd res (if g.op = 2 ∧ res = 1 then
      glStored data (glShown res (glReleased g res d)) else glShown res (glReleased g res d))) := by
    rw [glEnded, hwho]
    dsimp only
    rw [if_neg (fun h => hop h.1)]
    rfl
  obtain ⟨n, hfld⟩ := glReleased_fld (d := d) (g := g) (res := res)
  have hy : Beyond (glReleased g res d) (glSoftEnd res (if g.op = 2 ∧ res = 1 then
      glStored data (glShown res (glReleased g res d)) else glShown res (glReleased g res d))) :=
    Beyond.trans (.ite (glShown_beyond.trans glStored_beyond) glShown_beyond) (glSoftEnd_beyond res _)
  rw [hdef]
  refine hnext _ ?_ ?_ ?_
  · rw [hy.fld, hfld]
  · rw [hy.fld, hfld]
    exact hglq
  · rw [hy.fld, hfld]
    exact hheld

theorem glEnded_soft_gl (hwho : g.who = .soft) (hop : g.op ≠ 1) (hglq : d.fld.glq = []) (hheld : d.fld.held = none) :
    (glEnded g res data d).fld.gl = none := by
  obtain ⟨n, hfld⟩ := glReleased_fld (d := d) (g := g) (res := res)
  rw [glEnded_soft hwho hop hglq hheld, (Beyond.trans (.ite (glShown_beyond.trans glStored_beyond) glShown_beyond)
    (glSoftEnd_beyond res _)).fld, hfld]

/-- The end of one without data, whose result tells nothing new of PRESENT. -/
theorem glEnded_quiet (hwho : g.who = .soft) (hop : g.op ≠ 1) (hop2 : g.op ≠ 2) (hglq : d.fld.glq = [])
    (hheld : d.fld.held = none) (hres : res < 16) (habs : res = 2 → d.on FLD_GL_STATUS.PRESENT = false)
    (hpres : res = 1 ∨ res = 3 ∨ res = 5 → d.on FLD_GL_STATUS.PRESENT = true) : Wrote d (glEnded g res data d)
      [(FLD_GL_STATUS.RESULT, res), (FLD_GL_CTRL.GO, 0), (FLD_EVENT.GL_DONE, 1), (FLD_GL_STATUS.BUSY, 0)] := by
  have hfree := glReleased_wrote (g := g) (res := res) hheld
  have hon := hfree.on (f := FLD_GL_STATUS.PRESENT) rfl
  have hshow : Wrote d (glShown res (glReleased g res d)) [(FLD_GL_STATUS.BUSY, 0)] := by
    unfold glShown
    split
    · next h => exact hfree.sameB rfl (hon.trans (habs h))
    · split
      · next h => exact hfree.sameB rfl (hon.trans (hpres h))
      · exact hfree
  rw [glEnded_soft hwho hop hglq hheld, if_neg (fun h => hop2 h.1)]
  have hend := ((hshow.wr (f := FLD_GL_STATUS.RESULT) (v := res) rfl hres).wrB (f := FLD_GL_CTRL.GO) (b := false) rfl
    (by decide)).ev (f := FLD_EVENT.GL_DONE) rfl (by decide)
  exact hend.reorder (by simp; tauto) (by simp; tauto)

/-- A READ that failed its check for the last time. -/
theorem glEnded_failed (hwho : g.who = .soft) (hop2 : g.op = 2) (hglq : d.fld.glq = []) (hheld : d.fld.held = none) :
    Wrote d (glEnded g 3 data d) [(FLD_GL_STATUS.RESULT, 3), (FLD_GL_CTRL.GO, 0), (FLD_EVENT.GL_DONE, 1),
      (FLD_GL_STATUS.BUSY, 0), (FLD_GL_STATUS.PRESENT, 1)] := by
  have hshow : glShown 3 (glReleased g 3 d) = (glReleased g 3 d).wrB FLD_GL_STATUS.PRESENT true := rfl
  rw [glEnded_soft hwho (by omega) hglq hheld, if_neg (fun h => absurd h.2 (by decide)), hshow]
  have hend := ((((glReleased_wrote (g := g) (res := 3) hheld).wrB (f := FLD_GL_STATUS.PRESENT) (b := true) rfl
    (by decide)).wr (f := FLD_GL_STATUS.RESULT) (v := 3) rfl (by decide)).wrB (f := FLD_GL_CTRL.GO) (b := false) rfl
    (by decide)).ev (f := FLD_EVENT.GL_DONE) rfl (by decide)
  exact hend.reorder (by simp; tauto) (by simp; tauto)

/-! ### The data of a READ -/

theorem bufFields_off (k : Nat) : (FLD_GL_BUFk.BYTES k).off = 0x70100 + 4 * k := rfl

theorem glStored_stands {g : Field} (hg : g.off < 0x70100 ∨ 0x70140 ≤ g.off) : (glStored data d).rd g = d.rd g := by
  refine forN_keeps (P := fun e => e.rd g = d.rd g) 16 (fun k hk e he => ?_) rfl
  split
  · refine (rd_wr_off e _ g _ ?_).trans he
    rw [bufFields_off]
    omega
  · exact he

theorem glStored_sram : (glStored data d).sram = d.sram := glStored_beyond.part Dev.sram fun _ _ _ => rfl

theorem glStored_bytes {k : Nat} (hk : k < 16) : (glStored data d).rd (FLD_GL_BUFk.BYTES k) =
    if 4 * k < data.length then leNat (slice data (4 * k) 4) else d.rd (FLD_GL_BUFk.BYTES k) := by
  have hapart {i : Nat} (hne : i ≠ k) (e : Dev) (v : Nat) :
      (e.wr (FLD_GL_BUFk.BYTES i) v).rd (FLD_GL_BUFk.BYTES k) = e.rd (FLD_GL_BUFk.BYTES k) :=
    rd_wr_off e _ _ v (by
      rw [bufFields_off, bufFields_off]
      omega)
  split
  · next hlen =>
    refine forN_establishes (j := k) (P := fun e => e.rd (FLD_GL_BUFk.BYTES k) = leNat (slice data (4 * k) 4)) hk
      (fun e => ?_) (fun i _ hne e he => ?_) d
    · rw [if_pos hlen]
      refine (rd_wr_same e (FLD_GL_BUFk.BYTES k) _ (Nat.le_refl 32)).trans (Nat.mod_eq_of_lt ?_)
      exact (leNat_lt _).trans_le (Nat.pow_le_pow_right (by decide) (List.length_take_le 4 _))
    · split
      · exact (hapart hne e _).trans he
      · exact he
  · next hlen =>
    refine forN_keeps (P := fun e => e.rd (FLD_GL_BUFk.BYTES k) = d.rd (FLD_GL_BUFk.BYTES k)) 16 (fun i _ e he => ?_) rfl
    split
    · next hi => exact (hapart (by rintro rfl; exact hlen hi) e _).trans he
    · exact he

/-- A READ that passed its check. -/
theorem glEnded_read (hwho : g.who = .soft) (hop2 : g.op = 2) (hglq : d.fld.glq = []) (hheld : d.fld.held = none) :
    Stands (Outside [28]) d (glEnded g 1 data d) ∧ (glEnded g 1 data d).rd FLD_GL_STATUS.RESULT = 1 ∧
    (glEnded g 1 data d).rd FLD_EVENT.GL_DONE = 1 ∧ (glEnded g 1 data d).rd FLD_GL_STATUS.BUSY = 0 ∧
    (glEnded g 1 data d).rd FLD_GL_STATUS.PRESENT = 1 ∧
    ∀ k < 16, (glEnded g 1 data d).rd (FLD_GL_BUFk.BYTES k) =
      if 4 * k < data.length then leNat (slice data (4 * k) 4) else d.rd (FLD_GL_BUFk.BYTES k) := by
  have hshown : Wrote d (glShown 1 (glReleased g 1 d)) [(FLD_GL_STATUS.BUSY, 0), (FLD_GL_STATUS.PRESENT, 1)] :=
    (glReleased_wrote (g := g) (res := 1) hheld).wrB (f := FLD_GL_STATUS.PRESENT) (b := true) rfl (by decide)
  rw [glEnded_soft hwho (by omega) hglq hheld, if_pos ⟨hop2, rfl⟩]
  generalize glShown 1 (glReleased g 1 d) = x at *
  have hend := (((Wrote.refl (glStored data x)).wr (f := FLD_GL_STATUS.RESULT) (v := 1) rfl (by decide)).wrB
    (f := FLD_GL_CTRL.GO) (b := false) rfl (by decide)).ev (f := FLD_EVENT.GL_DONE) rfl (by decide)
  have hbuf {k : Nat} : (glSoftEnd 1 (glStored data x)).rd (FLD_GL_BUFk.BYTES k) = (glStored data x).rd (FLD_GL_BUFk.BYTES k) := by
    refine hend.2.2 _ fun y hy => apart_of_off ?_
    rw [bufFields_off]
    simp only [List.cons_append, List.nil_append, List.mem_cons, List.not_mem_nil, or_false] at hy
    have hlow : y.1.off < 0x70100 := by
      rcases hy with rfl | rfl | rfl
      · decide
      · decide
      · decide
    omega
  have hxbuf {k : Nat} : x.rd (FLD_GL_BUFk.BYTES k) = d.rd (FLD_GL_BUFk.BYTES k) := by
    refine hshown.2.2 _ fun y hy => apart_of_off ?_
    rw [bufFields_off]
    simp only [List.mem_cons, List.not_mem_nil, or_false] at hy
    have hlow : y.1.off < 0x70100 := by
      rcases hy with rfl | rfl
      · decide
      · decide
    omega
  have hstored : Stands (Outside [28]) x (glStored data x) := by
    refine ⟨fun g hg => glStored_stands ?_, glStored_sram⟩
    have hoff : g.off / 0x4000 ≠ 28 := by simpa [Outside] using hg
    omega
  refine ⟨((hshown.beside.inBlocks (by decide)).trans hstored).trans (hend.beside.inBlocks (by decide)),
    hend.nth 0 rfl, hend.nth 2 rfl, ?_, ?_, fun k hk => ?_⟩
  · exact ((hend.rd rfl).trans (glStored_stands (.inl (by decide)))).trans (hshown.nth 0 rfl)
  · exact ((hend.rd rfl).trans (glStored_stands (.inl (by decide)))).trans (hshown.nth 1 rfl)
  · rw [hbuf, glStored_bytes hk, hxbuf]

/-! ### The line tells of an end -/

theorem endCode_status (b : BitVec 8) : EndCode (.status b) = 1 ∨ EndCode (.status b) = 5 := by
  rcases Decidable.em (b = 0xA5#8) with h | h
  · exact .inl (if_pos h)
  · exact .inr (if_neg h)

theorem endCode_lt (x : GlEnd) : EndCode x < 16 := by
  cases x with
  | status b => rcases endCode_status b with h | h <;> rw [h] <;> decide
  | _ => exact of_decide_eq_true rfl

/-- The result of a line without presence. -/
theorem endCode_absent {x : GlEnd} (h : EndCode x = 2) : x = .noPresence := by
  cases x with
  | noPresence => rfl
  | status b => rcases endCode_status b with hb | hb <;> rw [hb] at h <;> cases h
  | _ => cases h

/-- The results that tell of a presence. -/
theorem endCode_present {x : GlEnd} (h : EndCode x = 1 ∨ EndCode x = 3 ∨ EndCode x = 5) : x ≠ .busLow ∧ x ≠ .noPresence := by
  constructor <;> rintro rfl <;> exact absurd h (by decide)

/-- What the frame of software's READ and WRITE is made of (R349). -/
theorem glNew_read_line (d : Dev) (data : Bytes) :
    OnLine 2 (d.glNew .soft 2 data).bs (d.glNew .soft 2 data).rd =
      OnLine 2 (glHead d.glTid (d.rd FLD_GL_CTRL.FN) (d.rd FLD_GL_ADDR.ADDR)) (d.rd FLD_GL_CTRL.LEN + 2) := rfl

theorem glNew_write_line (d : Dev) (data : Bytes) :
    OnLine 3 (d.glNew .soft 3 data).bs (d.glNew .soft 3 data).rd =
      OnLine 3 (glWriteFrame d.glTid (d.rd FLD_GL_CTRL.FN) (d.rd FLD_GL_ADDR.ADDR) data) 1 := rfl

theorem glDone_ends {x : GlEnd} (hgl : d.fld.gl = some g) (hwait : g.wait = none) (hidle : g.idle = false)
    (hop : g.op = 0 ∨ g.op = 3)
    (hx : x = .busLow ∨ x = .noPresence ∨ x = .ok ∧ g.op = 0 ∨ g.op = 3 ∧ ∃ b, x = .status b) :
    glDone x d = glEnded g (EndCode x) [] d := by
  have hskip : ¬(g.wait.isSome = true ∨ (g.idle = true ∨ g.op = 1) ∧ x ≠ .busLow ∧ (g.idle = true ∨ x ≠ .collision)) := by
    rw [hwait, hidle]
    simp
    omega
  rw [glDone, hgl]
  dsimp only
  rw [if_neg hskip]
  rcases hx with rfl | rfl | ⟨rfl, h0⟩ | ⟨h3, b, rfl⟩
  · rfl
  · rfl
  · exact if_pos h0
  · exact if_pos h3

/-- Whether the bytes read agree with their check word (R349). -/
theorem glDone_read {crc : BitVec 16} (hgl : d.fld.gl = some g) (hwait : g.wait = none) (hidle : g.idle = false)
    (hop : g.op = 2) (hlen : g.rd = data.length + 2) (hlast : crc16 (g.head ++ data) ≠ crc.toNat →
      d.rd FLD_GL_CFG.RETRIES ≤ g.tries) : glDone (.read data crc) d =
    if crc16 (g.head ++ data) = crc.toNat then glEnded g 1 data d else glEnded g 3 [] d := by
  have htake : data.take (g.rd - 2) = data := List.take_of_length_le (by omega)
  have hskip : ¬(g.wait.isSome = true ∨ (g.idle = true ∨ g.op = 1) ∧ GlEnd.read data crc ≠ .busLow ∧
      (g.idle = true ∨ GlEnd.read data crc ≠ .collision)) := by
    rw [hwait, hidle]
    simp
    omega
  rw [glDone, hgl]
  dsimp only
  rw [if_neg hskip, htake, if_neg (fun h => h hop)]
  by_cases hcrc : crc16 (g.head ++ data) = crc.toNat
  · rw [if_pos ⟨by omega, hcrc⟩, if_pos hcrc]
  · have hnot := hlast hcrc
    rw [if_neg (fun h => hcrc h.2), if_neg hcrc, if_neg (by simpa using hnot)]

/-- A collision: another attempt after 8 to 64 fr (R350). -/
theorem glDone_collision (hgl : d.fld.gl = some g) (hwait : g.wait = none) (hidle : g.idle = false)
    (hshared : d.on FLD_GL_CFG.SHARED = true) (htries : g.tries < d.rd FLD_GL_CFG.RETRIES) :
    Wrote d (glDone .collision d) [(FLD_GL_CNT.COLL, min (d.rd FLD_GL_CNT.COLL + 1) (2 ^ FLD_GL_CNT.COLL.w - 1))] ∧
    ∃ r, 1 ≤ r ∧ r ≤ 8 ∧ (glDone .collision d).fld.gl = some { g with tries := g.tries + 1, wait := some (8 * r) } := by
  have hskip : ¬(g.wait.isSome = true ∨ (g.idle = true ∨ g.op = 1) ∧ GlEnd.collision ≠ .busLow ∧
      (g.idle = true ∨ GlEnd.collision ≠ .collision)) := by
    rw [hwait, hidle]
    simp
  have hcoll := (Wrote.refl d).sat (f := FLD_GL_CNT.COLL) (n := 1) rfl
  have hdef : glDone .collision d = (glHigh (d.sat FLD_GL_CNT.COLL)).draw.2.fldMod fun f =>
      { f with gl := some { g with
        tries := g.tries + 1, wait := some (8 * (1 + (glHigh (d.sat FLD_GL_CNT.COLL)).draw.1 % 8)) } } := by
    rw [glDone, hgl]
    dsimp only
    rw [if_neg hskip, hshared, if_neg (by decide), if_pos (by simpa using htries)]
  rw [hdef]
  generalize d.sat FLD_GL_CNT.COLL = y at *
  exact ⟨hcoll.parts rfl rfl, 1 + (glHigh y).draw.1 % 8, by omega, by omega, rfl⟩

/-! ### Backoff, attach pulses, automatic searches -/

theorem glBackoffEnd_plain (hgl : d.fld.gl = some g) (hwait : g.wait = some 0) (hop : g.op ≠ 1) :
    glBackoffEnd d = glStart g d := by
  rw [glBackoffEnd, hgl]
  exact (if_pos hwait).trans (if_neg hop)

theorem glBackoffEnd_search (hgl : d.fld.gl = some g) (hwait : g.wait = some 0) (hop : g.op = 1) (hfrom : g.from_ = none) :
    glBackoffEnd d = glStart { g with aband := 0 } (searchEmpty d) := by
  have hagain : searchAgain g d = searchEmpty d := by rw [searchAgain, hfrom]
  rw [← hagain, glBackoffEnd, hgl]
  exact (if_pos hwait).trans (if_pos hop)

theorem searchEmpty_ready (h : d.rd FLD_GL_STATUS.COUNT ≤ 64) : (searchEmpty d).glReady = d.glReady :=
  glReady_beyond (searchEmpty_beyond d) ((searchEmpty_stands h).rd ⟨.inl (by decide), by decide⟩)

theorem glAttach_idle (hgl : d.fld.gl = none) (hheld : d.fld.held = none) : Wrote d (glAttach d) [(FLD_EVENT.GL_ATTACH, 1)] ∧
    (glAttach d).fld = { d.fld with glUp := d.nowExt, autoIn := d.fld.autoIn ++ [1024] } := by
  have hw := (Wrote.refl d).ev (f := FLD_EVENT.GL_ATTACH) rfl (by decide)
  have hb := (Beyond.refl d).ev (f := FLD_EVENT.GL_ATTACH)
  have hdef : glAttach d =
      glHigh ((d.ev FLD_EVENT.GL_ATTACH).fldMod fun f => { f with autoIn := f.autoIn ++ [1024] }) := by
    simp [glAttach, hgl, hheld]
  rw [hdef]
  generalize d.ev FLD_EVENT.GL_ATTACH = y at *
  refine ⟨hw.parts rfl rfl, ?_⟩
  rw [← hb.fld, ← nowExt_beyond hb]
  rfl

theorem glAttach_busy (hgl : d.fld.gl = some g) (hheld : d.fld.held = none) (hop : g.op ≠ 1) (hwait : g.wait = none)
    (hidle : g.idle = false) : glAttach d = d := by
  simp [glAttach, hgl, hheld, hop, hwait, hidle]

/-- The search that has fallen due is taken off the list. -/
def autoTaken (d : Dev) : Dev := d.fldMod fun f => { f with autoIn := f.autoIn.filter (· != 0) }

theorem autoTaken_wrote (d : Dev) : Wrote d (autoTaken d) [] := (Wrote.refl d).parts rfl rfl

theorem autoTaken_fld (d : Dev) : (autoTaken d).fld = { d.fld with autoIn := d.fld.autoIn.filter (· != 0) } := rfl

theorem autoTaken_outs (d : Dev) : (autoTaken d).outs = d.outs := rfl

theorem autoTaken_ready (d : Dev) : (autoTaken d).glReady = d.glReady := glReady_congr rfl rfl rfl

theorem glOwn_search (d : Dev) : glOwn .search d = glStart (d.glNew .search 1 []) (searchStart false d) := rfl

/-- A due search of the OX4 itself on a free line. -/
theorem autoSearch_runs (hdue : d.fld.autoIn.contains 0 = true) (hready : d.glReady = true) (hauto : d.on FLD_GL_CFG.AUTO = true)
    (hgl : d.fld.gl = none) (hglq : d.fld.glq = []) (hcount : d.rd FLD_GL_STATUS.COUNT ≤ 64) : ∃ x y : Dev,
    autoSearch d = glStart (y.glNew .search 1 []) x ∧ x.glReady = true ∧ Stands (Outside [28]) d x ∧
    x.fld = { d.fld with autoIn := d.fld.autoIn.filter (· != 0) } ∧ x.outs = d.outs ∧ x.rd FLD_GL_STATUS.COUNT = 0 := by
  have hon : (autoTaken d).on FLD_GL_CFG.AUTO = true := ((autoTaken_wrote d).on rfl).trans hauto
  have hdef : autoSearch d = glQueue .search (autoTaken d) := by
    rw [autoSearch, if_pos hdue]
    exact if_pos hon
  have hfld := autoTaken_fld d
  have hcount' : (autoTaken d).rd FLD_GL_STATUS.COUNT ≤ 64 := ((autoTaken_wrote d).rd rfl).trans_le hcount
  have hline := (autoTaken_ready d).trans hready
  have houts := autoTaken_outs d
  have hstands : Stands (Outside [28]) d (autoTaken d) := (autoTaken_wrote d).beside.inBlocks (by decide)
  rw [hdef]
  generalize autoTaken d = y at *
  have hgl' : y.fld.gl = none := by rw [hfld]; exact hgl
  have hglq' : y.fld.glq = [] := by rw [hfld]; exact hglq
  obtain ⟨hfull, hshared, hzero, -⟩ := searchStart_full_shows hcount'
  rw [glQueue_free .search hgl' hglq', glOwn_search]
  exact ⟨_, y, rfl, (glReady_beyond (searchStart_beyond false y) hshared).trans hline, hstands.trans hfull,
    (searchStart_beyond false y).fld.trans hfld, (searchStart_outs false y).trans houts, hzero⟩

/-! ### A search pass -/

/-- The words of an identity, the highest first. -/
def idWords (id : Nat) : List Nat := [id / 2 ^ 64, id / 2 ^ 32 % 2 ^ 32, id % 2 ^ 32]

/-- The first identity of a search goes into the empty list (R354). -/
def firstListed (id : Nat) (d : Dev) : Dev :=
  (((d.wr (FLD_GL_ID.ID 0 0) (id / 2 ^ 64)).wr (FLD_GL_ID.ID 0 1) (id / 2 ^ 32 % 2 ^ 32)).wr (FLD_GL_ID.ID 0 2)
    (id % 2 ^ 32)).wr FLD_GL_STATUS.COUNT 1

theorem listId_first (id : Nat) (h : d.rd FLD_GL_STATUS.COUNT = 0) : listId id d = firstListed id d := by
  have hids : d.glIds = [] := by rw [Dev.glIds, h]; rfl
  rw [listId, hids, h]
  rfl

theorem firstListed_beyond (id : Nat) (d : Dev) : Beyond d (firstListed id d) := (Beyond.refl d).wr.wr.wr.wr

theorem firstListed_outs (id : Nat) (d : Dev) : (firstListed id d).outs = d.outs := by
  rw [firstListed, wr_outs, wr_outs, wr_outs, wr_outs]

theorem firstListed_wrote (id : Nat) (d : Dev) : Wrote d (firstListed id d) [(FLD_GL_ID.ID 0 0, id / 2 ^ 64 % 2 ^ 32),
    (FLD_GL_ID.ID 0 1, id / 2 ^ 32 % 2 ^ 32), (FLD_GL_ID.ID 0 2, id % 2 ^ 32), (FLD_GL_STATUS.COUNT, 1)] :=
  ((((Wrote.refl d).wrMod (f := FLD_GL_ID.ID 0 0) (v := id / 2 ^ 64) rfl).wr (f := FLD_GL_ID.ID 0 1)
    (v := id / 2 ^ 32 % 2 ^ 32) rfl (Nat.mod_lt _ (by decide))).wr (f := FLD_GL_ID.ID 0 2) (v := id % 2 ^ 32) rfl
    (Nat.mod_lt _ (by decide))).wr (f := FLD_GL_STATUS.COUNT) (v := 1) rfl (by decide)

/-- The next pass follows an identity. -/
def follow (id : Nat) (d : Dev) : Dev := d.fldMod fun f => { f with prev := id }

theorem follow_wrote (id : Nat) (d : Dev) : Wrote d (follow id d) [] := (Wrote.refl d).parts rfl rfl

theorem follow_outs (id : Nat) (d : Dev) : (follow id d).outs = d.outs := rfl

/-- The first identity and its discrepancy are noted. -/
def passNoted (id disc : Nat) (d : Dev) : Dev := (follow id (firstListed id d)).wr FLD_GL_STATUS.LAST_DISC disc

theorem passNoted_wrote {disc : Nat} (id : Nat) (hdisc : disc < 96) (d : Dev) : Wrote d (passNoted id disc d)
    [(FLD_GL_ID.ID 0 0, id / 2 ^ 64 % 2 ^ 32), (FLD_GL_ID.ID 0 1, id / 2 ^ 32 % 2 ^ 32), (FLD_GL_ID.ID 0 2, id % 2 ^ 32),
      (FLD_GL_STATUS.COUNT, 1), (FLD_GL_STATUS.LAST_DISC, disc)] :=
  ((firstListed_wrote id d).append (follow_wrote id _) (fun _ _ _ hy => absurd hy (by simp))).wr
    (f := FLD_GL_STATUS.LAST_DISC) rfl (show disc < 128 by omega)

theorem passNoted_fld (id disc : Nat) (d : Dev) : (passNoted id disc d).fld = { d.fld with prev := id } := by
  rw [passNoted, wr_fld, follow, fldMod_fld, (firstListed_beyond id _).fld]

theorem passNoted_outs (id disc : Nat) (d : Dev) : (passNoted id disc d).outs = d.outs := by
  rw [passNoted, wr_outs, follow_outs, firstListed_outs]

/-- What a pass that finds an identity goes on with, behind the lows of its slots. -/
def passOn (g : Gl) (id disc : Nat) (d : Dev) : Dev :=
  let d := if idOk id then listId id d else (d.sat FLD_GL_CNT.CRC_FAIL).wrB FLD_GL_STATUS.DISTURBED true
  let d := (follow id d).wr FLD_GL_STATUS.LAST_DISC disc
  if d.rd FLD_GL_STATUS.COUNT = 64 then glEnded g 1 [] (d.wrB FLD_GL_STATUS.OVERFLOW true) else passNext { g with aband := 0 } d

theorem passOn_first {id disc : Nat} (hdisc : disc < 96) (hid : idOk id = true) (hcount : d.rd FLD_GL_STATUS.COUNT = 0)
    (hglq : d.fld.glq = []) : passOn g id disc d = glRun { g with aband := 0 } (passNoted id disc d) := by
  have hone : (passNoted id disc d).rd FLD_GL_STATUS.COUNT = 1 := (passNoted_wrote id hdisc d).nth 3 rfl
  have hq : (passNoted id disc d).fld.glq.isEmpty = true := by
    rw [passNoted_fld, hglq]
    rfl
  rw [passOn, if_pos hid, listId_first id hcount]
  rw [← passNoted, hone, if_neg (by decide), passNext, if_pos hq]

theorem glSearchPass_found {subs : List (Bool × Bool)} {id disc : Nat} (hgl : d.fld.gl = some g) (hop : g.op = 1)
    (hwait : g.wait = none) (hidle : g.idle = false) (hsubs : subs.length = 96) (hlast : d.rd FLD_GL_STATUS.LAST_DISC = 127)
    (hrun : passRun (-1) d.fld.prev subs 0 0 (-1) = .found id disc) : glSearchPass true subs d =
      passOn g id disc ((d.wrB FLD_GL_STATUS.PRESENT true).emit (.glPass (passLows id))) := by
  have hskip : ¬(g.op ≠ 1 ∨ g.wait.isSome = true ∨ g.idle = true) := by simp [hop, hwait, hidle]
  have hw := (Wrote.refl d).wrB (f := FLD_GL_STATUS.PRESENT) (b := true) rfl (by decide)
  have hl : (d.wrB FLD_GL_STATUS.PRESENT true).rd FLD_GL_STATUS.LAST_DISC = 127 := (hw.rd rfl).trans hlast
  have htake : subs.take 96 = subs := List.take_of_length_le hsubs.le
  have hpos : ¬((disc : Int) < 0) := by omega
  rw [glSearchPass, hgl]
  dsimp only
  rw [if_neg hskip, if_neg (by decide), hl, if_pos rfl, htake, wrB_fld, hrun]
  dsimp only
  rw [if_neg (by omega), if_neg hpos, if_neg hpos, Int.toNat_natCast]
  generalize (d.wrB FLD_GL_STATUS.PRESENT true).emit (.glPass (passLows id)) = y
  rfl

end

/-- Settles O40. -/
theorem guyline : Obligations.Guyline := by
  intro s
  have hquiet : s.quiet.glReady = s.dev.glReady := glReady_congr rfl rfl rfl
  have htid : s.quiet.glTid = s.dev.glTid := glTid_congr fun _ => rfl
  have haddr : s.quiet.rd FLD_GL_ADDR.ADDR = s.dev.rd FLD_GL_ADDR.ADDR := rfl
  refine ⟨fun incr fn len hs => ?_, fun incr fn len ht hbusy hgo hready => ?_, fun fn len hs => ?_, fun fn len hs hcount => ?_,
    fun incr fn len hs h1 h64 => ?_, fun incr fn len ht hbusy hgo hlen => ?_, fun incr fn len hs h1 h32 hholds => ?_,
    fun incr fn len ht hbusy hgo h1 h32 hholds => ?_, fun x g hgl hwho hop hwait hidle hx hglq hheld => ?_,
    fun data crc g hgl hwho hop hwait hidle hrd hlen hcrc hglq hheld => ?_,
    fun data crc g hgl hwho hop hwait hidle hrd hcrc htries hglq hheld => ?_, fun g hgl hwait hidle hshared htries => ?_,
    fun g hgl hwait hop hready => ?_, fun g hgl hwait hop hfrom hready hcount => ?_,
    fun subs g id disc hgl hop hwait hidle hsubs hlast hrun hdisc hid hcount hglq => ?_, fun hgl hheld => ?_,
    fun g hgl hheld hop hwait hidle => ?_, fun hdue hready hauto hgl hglq hcount => ?_⟩
  · obtain ⟨hw, hshow, g, rfl, houts⟩ := glCommand_runs (op := 0) (incr := incr) (by decide) (by decide) fn.isLt len.isLt hs rfl
      (fun h => absurd h (by decide))
    exact does_soft (fun _ => rfl) hs.1 ⟨hw, hshow, houts⟩
  · exact does_soft (fun _ => rfl) ht (glCommand_waits (op := 0) (by decide) (by decide) fn.isLt len.isLt hbusy hgo hready rfl)
  · have hw := searchStart_incr_wrote (glAsked_wrote (d := s.quiet) (op := 1) (incr := true) (by decide) fn.isLt len.isLt) rfl rfl
    obtain ⟨g, hcmd, hline, hshow, houts⟩ := glCommand_search true fn.isLt len.isLt hs (hw.rd (f := FLD_GL_CFG.SHARED) rfl)
    have hrun := (glStart_runs (g := g) hw hline rfl).1
    refine does_soft (fun _ => rfl) hs.1 ⟨?_, hshow, houts⟩
    rw [hcmd]
    exact hrun.reorder (by simp [glFields, b2n]) (by simp [glFields, b2n])
  · have hask := glAsked_wrote (d := s.quiet) (op := 1) (incr := false) (by decide) fn.isLt len.isLt
    have hcount' := hask.rd (f := FLD_GL_STATUS.COUNT) rfl
    obtain ⟨-, hshared, hzero, hdisc, hdist, hover, hids⟩ := searchStart_full_shows (hcount'.trans_le hcount)
    obtain ⟨g, hcmd, hline, hshow, houts⟩ := glCommand_search false fn.isLt len.isLt hs
      (hshared.trans (hask.rd (f := FLD_GL_CFG.SHARED) rfl))
    have hrun := (glStart_runs (g := g) (Wrote.refl (glSearched false fn len s.quiet)) hline rfl).1
    have hid (j k : Nat) : (glStart g (glSearched false fn len s.quiet)).rd (FLD_GL_ID.ID j k) =
        (glSearched false fn len s.quiet).rd (FLD_GL_ID.ID j k) := by
      refine hrun.2.2 _ fun y hy => apart_of_off ?_
      rw [List.mem_singleton.mp hy]
      show 0x70400 + 0xC * j + 0x4 * k ≠ 0x70028
      omega
    refine ends_soft (fun _ => rfl) hs.1 ⟨hshow, ?_⟩
    rw [hcmd]
    exact ⟨(hrun.rd rfl).trans hzero, (hrun.rd rfl).trans hdisc, (hrun.rd rfl).trans hdist, (hrun.rd rfl).trans hover,
      fun j hj => ⟨(hid j 0).trans (hids j 0 (hj.trans_eq hcount'.symm) (by decide)),
        (hid j 1).trans (hids j 1 (hj.trans_eq hcount'.symm) (by decide)),
        (hid j 2).trans (hids j 2 (hj.trans_eq hcount'.symm) (by decide))⟩⟩
  · have hok : glBadLen 2 len = false := by simp [glBadLen]; omega
    obtain ⟨hw, hshow, g, rfl, houts⟩ := glCommand_runs (op := 2) (incr := incr) (by decide) (by decide) fn.isLt len.isLt hs hok
      (fun h => absurd h (by decide))
    have hask := glAsked_wrote (d := s.quiet) (op := 2) (incr := incr) (by decide) fn.isLt len.isLt
    refine does_soft (fun _ => rfl) hs.1 ⟨hw, hshow, houts.trans ?_⟩
    rw [glNew_read_line, glAsked_tid (by decide) fn.isLt len.isLt, hask.nth 2 rfl, hask.nth 3 rfl,
      hask.rd (f := FLD_GL_ADDR.ADDR) rfl, htid, haddr]
  · have hbad : glBadLen 2 len = true := by simp [glBadLen]; omega
    exact does_soft (fun _ => rfl) ht (glCommand_refused (op := 2) (by decide) fn.isLt len.isLt (by decide) hbusy hgo
      (.inl ⟨hbad, rfl⟩))
  · have hok : glBadLen 3 len = false := by simp [glBadLen]; omega
    obtain ⟨hw, hshow, g, rfl, houts⟩ := glCommand_runs (op := 3) (incr := incr) (by decide) (by decide) fn.isLt len.isLt hs hok
      (fun _ => hholds)
    have hask := glAsked_wrote (d := s.quiet) (op := 3) (incr := incr) (by decide) fn.isLt len.isLt
    refine does_soft (fun _ => rfl) hs.1 ⟨hw, hshow, houts.trans ?_⟩
    rw [if_pos rfl, glNew_write_line, glAsked_tid (by decide) fn.isLt len.isLt, hask.nth 2 rfl,
      hask.rd (f := FLD_GL_ADDR.ADDR) rfl, htid, haddr]
  · have hok : glBadLen 3 len = false := by simp [glBadLen]; omega
    exact does_soft (fun _ => rfl) ht (glCommand_refused (op := 3) (by decide) fn.isLt len.isLt (by decide) hbusy hgo
      (.inr ⟨hok, rfl, hholds, rfl⟩))
  · have hdone := glDone_ends (d := s.quiet) (x := x) hgl hwait hidle hop (by tauto)
    refine does_run (fun _ => rfl) ?_
    rw [hdone]
    refine ⟨glEnded_quiet hwho (by omega) (by omega) hglq hheld (endCode_lt x) (fun h => ?_) (fun h => ?_),
      glEnded_soft_gl hwho (by omega) hglq hheld⟩
    · obtain rfl := endCode_absent h
      simpa using hx
    · obtain ⟨hlow, habs⟩ := endCode_present h
      exact ((hx.resolve_left hlow).resolve_left fun h => habs h.1).1
  · have hdone := glDone_read (d := s.quiet) (crc := crc) hgl hwait hidle hop hrd (fun h => absurd hcrc h)
    rw [if_pos hcrc] at hdone
    refine ends_run (fun _ => rfl) ?_
    rw [hdone]
    obtain ⟨hst, h1, h2, h3, h4, hbuf⟩ := glEnded_read (d := s.quiet) (data := data) hwho hop hglq hheld
    exact ⟨hst.within, hst.2, h1, h2, h3, h4, fun k => hbuf k k.isLt⟩
  · have hdone := glDone_read (d := s.quiet) (crc := crc) hgl hwait hidle hop hrd (fun _ => htries)
    rw [if_neg hcrc] at hdone
    refine does_run (fun _ => rfl) ?_
    rw [hdone]
    exact ⟨glEnded_failed hwho hop hglq hheld, glEnded_soft_gl hwho (by omega) hglq hheld⟩
  · exact does_run (fun _ => rfl) (glDone_collision (d := s.quiet) hgl hwait hidle hshared htries)
  · refine does_run (fun _ => rfl) ?_
    rw [glBackoffEnd_plain (d := s.quiet) hgl hwait hop]
    obtain ⟨hw, hfld, houts⟩ := glStart_runs (g := g) (Wrote.refl s.quiet) (hquiet.trans hready) rfl
    exact ⟨hw, by rw [hfld]; rfl, houts⟩
  · refine ends_run (fun _ => rfl) ?_
    rw [glBackoffEnd_search (d := s.quiet) hgl hwait hop hfrom]
    obtain ⟨hw, -, houts⟩ := glStart_runs (g := { g with aband := 0 }) (Wrote.refl (searchEmpty s.quiet))
      ((searchEmpty_ready (d := s.quiet) hcount).trans (hquiet.trans hready)) rfl
    have hst := searchEmpty_stands (d := s.quiet) hcount
    have hout : Stands (Outside [28]) s.quiet (searchEmpty s.quiet) := ⟨fun g hg => hst.rd (unlisted_outside hg), hst.2⟩
    have hall := hout.trans (hw.beside.inBlocks (by decide))
    refine ⟨hall.within, hall.2, (hw.rd rfl).trans (searchEmpty_count _), (hw.rd rfl).trans (searchEmpty_disc _),
      hw.nth 0 rfl, ?_⟩
    rw [houts, searchEmpty_outs, hop]
    rfl
  · refine ends_run (fun _ => rfl) ?_
    rw [glSearchPass_found (d := s.quiet) hgl hop hwait hidle hsubs hlast hrun]
    have hpres := (((Wrote.refl s.quiet).wrB (f := FLD_GL_STATUS.PRESENT) (b := true) rfl (by decide))).parts
      (x := (s.quiet.wrB FLD_GL_STATUS.PRESENT true).emit (.glPass (passLows id))) rfl rfl
    have houts : ((s.quiet.wrB FLD_GL_STATUS.PRESENT true).emit (.glPass (passLows id))).outs = [.glPass (passLows id)] := rfl
    have hfld := ((Beyond.refl s.quiet).wrB (f := FLD_GL_STATUS.PRESENT) (b := true)).emit (o := .glPass (passLows id)) |>.fld
    generalize (s.quiet.wrB FLD_GL_STATUS.PRESENT true).emit (.glPass (passLows id)) = y at *
    rw [passOn_first hdisc hid ((hpres.rd rfl).trans hcount) (by rw [hfld]; exact hglq)]
    have hnote := passNoted_wrote id hdisc y
    obtain ⟨hbusy, hset⟩ := glRun_stands { g with aband := 0 } (passNoted id disc y)
    refine ⟨?_, (hbusy.rd (by decide)).trans (hnote.nth 3 rfl), (hbusy.rd (by decide)).trans (hnote.nth 0 rfl),
      (hbusy.rd (by decide)).trans (hnote.nth 1 rfl), (hbusy.rd (by decide)).trans (hnote.nth 2 rfl),
      (hbusy.rd (by decide)).trans (hnote.nth 4 rfl), hset, ?_, ?_⟩
    · rw [glRun_fld, passNoted_fld]
    · rw [glRun_fld]
      exact congrArg some hop
    · rw [glRun_outs, passNoted_outs, houts]
      rfl
  · exact does_run (fun _ => rfl) (glAttach_idle (d := s.quiet) hgl hheld)
  · refine does_run (fun _ => rfl) ?_
    rw [glAttach_busy (d := s.quiet) hgl hheld hop hwait hidle]
    exact ⟨Wrote.refl _, rfl⟩
  · obtain ⟨x, y, hdef, hline, hst, hfld, houts, hzero⟩ := autoSearch_runs (d := s.quiet) hdue (hquiet.trans hready) hauto
      hgl hglq hcount
    obtain ⟨hw, hfld', houts'⟩ := glStart_runs (g := y.glNew .search 1 []) (Wrote.refl x) hline rfl
    refine ends_run (fun _ => rfl) ?_
    rw [hdef]
    have hall := hst.trans (hw.beside.inBlocks (by decide))
    refine ⟨hall.within, hall.2, ?_, ?_, hw.nth 0 rfl, (hw.rd rfl).trans hzero, ?_⟩
    · rw [hfld']
      rfl
    · rw [hfld', hfld]
    · rw [houts', houts]
      rfl

end Sys2Proof.Machine
end

section
/-!
PROOFS. Alarm inputs, relays, and the SMBus target's access to registers (R366 to R370).
-/

namespace Sys2Proof.Machine

section
variable {d : Dev}

/-! ### Alarms and relays -/

theorem llbEmit_idle {code a b : Nat} (h : d.rd LLB_STATUS.EV_RUN ≠ 2) : llbEmit code a b d = d := by
  rw [llbEmit, if_neg]
  simp [h]

/-- An input that has been active for a multiple of REMIND_S, with no Lifeline to carry the event. -/
theorem gpiRemind_due {k a : Nat} (hact : (d.fld.gpis.getD k {}).act = some a) (hn : d.rd FLD_GPI_STORM_CFG.REMIND_S ≠ 0)
    (hdeb : (d.fld.gpis.getD k {}).deb = true) (hstorm : (d.fld.gpis.getD k {}).storm = false) (hpast : a < d.frameExt)
    (hdue : (d.frameExt - a) % (d.rd FLD_GPI_STORM_CFG.REMIND_S * 8000) = 0) (hrun : d.rd LLB_STATUS.EV_RUN ≠ 2) :
    gpiRemind k d = d.ev FLD_EVENT.GPI_REMIND := by
  have hquiet : (d.ev FLD_EVENT.GPI_REMIND).rd LLB_STATUS.EV_RUN ≠ 2 := by rwa [rd_ev_apart _ _ _ (by decide)]
  rw [gpiRemind, hact]
  dsimp only
  rw [if_pos ⟨by omega, hdeb, by rw [hstorm]; rfl, hpast, hdue⟩, llbEmit_idle hquiet]

theorem gpiLatchClear_wrote (w : BitVec 16) (d : Dev) : Wrote d (gpiLatchClear w.toNat d) [(FLD_GPI_LATCH.LATCH,
    d.rd FLD_GPI_LATCH.LATCH &&& (65535 ^^^ (w.toNat &&& (65535 ^^^ d.gpiDeb))))] := by
  have hw : w.toNat % 65536 = w.toNat := Nat.mod_eq_of_lt w.isLt
  have hlt : d.rd FLD_GPI_LATCH.LATCH &&& (65535 ^^^ (w.toNat &&& (65535 ^^^ d.gpiDeb))) < 2 ^ FLD_GPI_LATCH.LATCH.w :=
    Nat.and_le_left.trans_lt (rd_lt d FLD_GPI_LATCH.LATCH)
  rw [gpiLatchClear, hw]
  exact (Wrote.refl d).wr rfl hlt

/-- What settles after a device shows the relays that it drives (R368). -/
theorem settle_relays (old d : Dev) : (settle old d).rd FLD_GPO.LEVEL =
    if d.holds = true ∧ d.boot.asserted = false then 255 ^^^ d.rd FLD_GPO.OUT else 255 := by
  obtain ⟨-, hlevel⟩ := (settle_settled old d).1
  have hholds : (settle old d).holds = d.holds := by rw [Dev.holds, Dev.holds, settle_rd old d _ (by decide)]
  rw [hlevel, hholds, settle_boot, settle_rd old d FLD_GPO.OUT (by decide)]
  congr 1
  simp

/-! ### The SMBus target answers -/

/-- Nothing is applied outside APPLY (R97). -/
theorem smbCommand_runs {f : Dev → Dev} {ok : Bool} (hlow : d.boot.porLow = false) (hst : d.bootSt ≠ 6) :
    smbCommand ok f d = if ok then f d else smbNack d := by
  rw [smbCommand, hlow, if_neg (by decide), applyCome, if_neg hst]

theorem smbCounted (d : Dev) : Wrote d (d.sat FLD_SMB_STATUS.ERR)
    [(FLD_SMB_STATUS.ERR, min (d.rd FLD_SMB_STATUS.ERR + 1) (2 ^ FLD_SMB_STATUS.ERR.w - 1))] :=
  (Wrote.refl d).sat (f := FLD_SMB_STATUS.ERR) (n := 1) rfl

theorem smbNack_wrote (d : Dev) : Wrote d (smbNack d)
    [(FLD_SMB_STATUS.ERR, min (d.rd FLD_SMB_STATUS.ERR + 1) (2 ^ FLD_SMB_STATUS.ERR.w - 1))] := by
  have hcount := smbCounted d
  rw [smbNack]
  exact hcount.parts (emit_regs _ _) (emit_sram _ _)

theorem smbNack_beyond (d : Dev) : Beyond d (smbNack d) := (Beyond.refl d).sat.emit

theorem smbNack_outs (d : Dev) : (smbNack d).outs = d.outs ++ [.smb false 0] := by
  rw [smbNack, emit_outs, sat_outs]

theorem smbNext_stands (P : Field → Prop) (d : Dev) : Stands P d (smbNext d) := (Stands.refl P d).parts rfl rfl

theorem smbNext_fld (d : Dev) : (smbNext d).fld = { d.fld with smbReg := d.fld.smbReg + 4 } := rfl

theorem smbNext_outs (d : Dev) : (smbNext d).outs = d.outs := rfl

theorem smbNext_word (d : Dev) (o : Nat) : (smbNext d).word o = d.word o := rfl

theorem smbAck_stands (P : Field → Prop) (v : Nat) (d : Dev) : Stands P d (smbAck v d) := (Stands.refl P d).emit

theorem smbAck_fld (v : Nat) (d : Dev) : (smbAck v d).fld = d.fld := rfl

theorem smbAck_outs (v : Nat) (d : Dev) : (smbAck v d).outs = d.outs ++ [.smb true v] := rfl

theorem smbAck_word (v : Nat) (d : Dev) (o : Nat) : (smbAck v d).word o = d.word o := rfl

/-! ### A read -/

theorem rclrClear_stands (o : Nat) (d : Dev) : Stands (Beside [⟨o, 0, 32⟩]) d (rclrClear o d) := by
  have hset (v : Nat) : Stands (Beside [⟨o, 0, 32⟩]) d (d.setWord o v) := by
    rw [setWord_eq_wr]
    exact (Stands.refl _ d).wr (.listed (by simp))
  unfold rclrClear
  split
  · exact .ite (hset 0) (.refl _ d)
  · split
    · exact .ite (hset _) (.refl _ d)
    · exact .refl _ d

theorem rclrClear_parts (o : Nat) (d : Dev) : (rclrClear o d).outs = d.outs ∧ (rclrClear o d).fld = d.fld := by
  unfold rclrClear
  split
  · split
    · exact ⟨rfl, rfl⟩
    · exact ⟨rfl, rfl⟩
  · split
    · dsimp only
      split
      · exact ⟨rfl, rfl⟩
      · exact ⟨rfl, rfl⟩
    · exact ⟨rfl, rfl⟩

theorem pairLatch_parts (o : Nat) (d : Dev) : (pairLatch o d).outs = d.outs ∧ (pairLatch o d).fld = d.fld ∧
    (pairLatch o d).regs = d.regs ∧ (pairLatch o d).sram = d.sram := by
  unfold pairLatch
  split <;> exact ⟨rfl, rfl, rfl, rfl⟩

/-- A read of a whole word that is neither the retention window nor a stamp: it answers the word, and clears none but its own. -/
theorem regRead_word {o : Nat} (h4 : o % 4 = 0) (hret : o ≠ RAT_RET_DATA.addr) (hch : o < 0x20000 ∨ 0x30000 ≤ o) :
    Stands (Beside [⟨o, 0, 32⟩]) d (regRead false o d) ∧
      (regRead false o d).outs = d.outs ++ [.read (BitVec.ofNat 32 (d.peek o))] ∧ (regRead false o d).fld = d.fld := by
  have hdef : regRead false o d =
      if d.pd (if 0x200000 ≤ o then 1 else domOf o) then rclrClear o (pairLatch o (d.emit (.read (BitVec.ofNat 32 (d.peek o)))))
      else pairLatch o (d.emit (.read (BitVec.ofNat 32 (d.peek o)))) := by
    rw [regRead, if_neg (by simp [h4]), if_neg hret, if_neg (by omega)]
  obtain ⟨houts, hfld, hregs, hsram⟩ := pairLatch_parts o (d.emit (.read (BitVec.ofNat 32 (d.peek o))))
  have hlatch : Stands (Beside [⟨o, 0, 32⟩]) d (pairLatch o (d.emit (.read (BitVec.ofNat 32 (d.peek o))))) :=
    ((Stands.refl _ d).emit).parts hregs hsram
  rw [hdef]
  generalize d.pd (if 0x200000 ≤ o then 1 else domOf o) = on
  split
  · obtain ⟨hclr, hclrf⟩ := rclrClear_parts o (pairLatch o (d.emit (.read (BitVec.ofNat 32 (d.peek o)))))
    exact ⟨hlatch.trans (rclrClear_stands o _), hclr.trans houts, hclrf.trans hfld⟩
  · exact ⟨hlatch, houts, hfld⟩

/-- SMB_REG_READ of an aligned address that is not shut. -/
theorem smbRegRead_word (houts : d.outs = []) (hshut : d.smbShut d.fld.smbReg = false) (h4 : d.fld.smbReg % 4 = 0)
    (hret : d.fld.smbReg ≠ RAT_RET_DATA.addr) (hch : d.fld.smbReg < 0x20000 ∨ 0x30000 ≤ d.fld.smbReg) :
    Stands (Beside [⟨d.fld.smbReg, 0, 32⟩]) d (smbRegRead d) ∧
      (smbRegRead d).outs = [.smb true (d.peek d.fld.smbReg % 2 ^ 32)] ∧
      (smbRegRead d).fld = { d.fld with smbReg := d.fld.smbReg + 4 } := by
  have hclean : ({ d with outs := [] } : Dev) = d := by rw [← houts]
  obtain ⟨hst, hans, hfld⟩ := regRead_word (d := d) h4 hret hch
  have hdef : smbRegRead d = smbNext (smbAck (d.peek d.fld.smbReg % 2 ^ 32) { regRead false d.fld.smbReg d with outs := [] }) := by
    rw [smbRegRead, hshut]
    dsimp only
    rw [if_neg (by decide), if_pos h4, hclean, hans, houts]
    simp [BitVec.toNat_ofNat]
  rw [hdef]
  generalize regRead false d.fld.smbReg d = x at *
  refine ⟨(hst.parts (x := { x with outs := [] }) rfl rfl).trans ((smbAck_stands _ _ _).trans (smbNext_stands _ _)), rfl, ?_⟩
  rw [smbNext_fld, smbAck_fld, ← hfld]

theorem smbRegRead_shut (hshut : d.smbShut d.fld.smbReg = true) : smbRegRead d = smbNack d := if_pos hshut

/-! ### A write -/

/-- No field stores more than fits in it. -/
theorem stored_le (r : RegRow) (dom : Bool) (old v : Nat) :
    r.stored dom old v ≤ r.fields.foldl (fun a f => a + (2 ^ f.w - 1) * 2 ^ f.lo) 0 := by
  have hbits (x lo w : Nat) : bits x lo w ≤ 2 ^ w - 1 := Nat.le_sub_one_of_lt (bits_lt x lo w)
  have hstep (fs : List FieldRow) : ∀ a b, a ≤ b → fs.foldl (fun a f =>
      let was := bits old f.lo f.w
      let x := match f.ty with
        | .rw => bits v f.lo f.w
        | .w1c => if dom then was &&& (2 ^ f.w - 1 ^^^ bits v f.lo f.w) else was
        | .wo => 0
        | _ => was
      a + x * 2 ^ f.lo) a ≤ fs.foldl (fun a f => a + (2 ^ f.w - 1) * 2 ^ f.lo) b := by
    induction fs with
    | nil => exact fun a b h => h
    | cons f fs ih =>
      refine fun a b h => ih _ _ (Nat.add_le_add h (Nat.mul_le_mul_right _ ?_))
      split
      · exact hbits _ _ _
      · split
        · exact Nat.and_le_left.trans (hbits _ _ _)
        · exact hbits _ _ _
      · exact Nat.zero_le _
      · exact hbits _ _ _
  exact hstep r.fields 0 0 (Nat.le_refl 0)

theorem glbRows_fit : ∀ r ∈ glbRows, r.fields.foldl (fun a f => a + (2 ^ f.w - 1) * 2 ^ f.lo) 0 < 2 ^ 32 := by decide

/-- A write to a register of GLB stores its fields. -/
theorem regWrite_glb {src : BusSrc} {o v : Nat} (hblk : o / 0x4000 = 0) (h4 : o % 4 = 0) (hpd : d.pd 0 = true)
    (hok : regBad o v d = false) : ∃ w < 2 ^ 32, regWrite src false o v d = d.setWord o w ∧
      (rowAt o).elim 0 (·.stored true (d.word o) v) = w := by
  have hdom : domOf o = 0 := by rw [domOf, hblk]; rfl
  have hhook (old : Nat) (x : Dev) : regHook src o old v x = x := by rw [regHook, hblk]; rfl
  have hbank : bankClosed o d = false := by simp [bankClosed, show ¬0x20000 ≤ o by omega]
  have hown : ownStore o = false := by
    simp only [ownStore, Bool.or_eq_false_iff, beq_eq_false_iff_ne, HRT_RATE.addr, RAT_RET_DATA.addr, HIF_VF_HOLD.addr,
      FLD_GPI_LATCH.addr, INT_FN0_MASK.addr]
    omega
  have hadj : ¬(o = HRT_ADJ_CTRL.addr ∧ v % 2 = 1 ∧ 2 ≤ d.src) := by
    simp only [HRT_ADJ_CTRL.addr]
    omega
  have htake : regWrite src false o v d = regStore true o v d := by
    rw [regWrite, if_neg (by simp [h4]), if_neg (by omega), if_neg hadj, hok, hbank, if_neg (by decide), regTake,
      if_neg (by omega), hdom, if_pos hpd, hown, hhook]
    rfl
  rw [htake, regStore]
  cases hrow : rowAt o with
  | none => simp [regBad, hrow] at hok
  | some r =>
    have hmem : r ∈ glbRows := by
      rw [rowAt, blockRows, hblk] at hrow
      exact List.mem_of_find?_eq_some hrow
    exact ⟨_, (stored_le r true _ v).trans_lt (glbRows_fit r hmem), rfl, rfl⟩

/-! ### A relay write by SMBus -/

/-- What FLD_GPO holds after a write of v over old (R368). -/
def gpoStored (old v : Nat) : Nat := bits v 0 8 + bits old 8 8 * 2 ^ 8 + bits old 16 1 * 2 ^ 16

theorem regStore_gpo (dom : Bool) (v : Nat) (d : Dev) :
    regStore dom FLD_GPO.addr v d = d.setWord FLD_GPO.addr (gpoStored (d.word FLD_GPO.addr) v) := by
  have hrow : rowAt FLD_GPO.addr = some ⟨0x700F0, [], [fld 0 8 .rw 0 .i, fld 8 8 .ro 0xFF .n, fld 16 1 .ro 0 .n]⟩ := by decide
  rw [regStore, hrow]
  simp [RegRow.stored, fld, gpoStored]

theorem regBad_gpo {v : Nat} (hv : v < 256) : regBad FLD_GPO.addr v d = false := by
  have hrow : rowAt FLD_GPO.addr = some ⟨0x700F0, [], [fld 0 8 .rw 0 .i, fld 8 8 .ro 0xFF .n, fld 16 1 .ro 0 .n]⟩ := by decide
  have hres : v &&& RegRow.reserved ⟨0x700F0, [], [fld 0 8 .rw 0 .i, fld 8 8 .ro 0xFF .n, fld 16 1 .ro 0 .n]⟩ = 0 := by
    show v &&& 0xFFFE0000 = 0
    refine Nat.eq_of_testBit_eq fun i => ?_
    rw [Nat.testBit_and, Nat.zero_testBit]
    by_cases hi : i < 8
    · have hmask : ∀ j < 8, Nat.testBit 0xFFFE0000 j = false := by decide
      rw [hmask i hi, Bool.and_false]
    · rw [Nat.testBit_lt_two_pow (hv.trans_le (Nat.pow_le_pow_right (n := 2) (i := 8) (by decide) (by omega))), Bool.false_and]
  have hout : RegRow.outside ⟨0x700F0, [], [fld 0 8 .rw 0 .i, fld 8 8 .ro 0xFF .n, fld 16 1 .ro 0 .n]⟩ v = false := by
    simp [RegRow.outside, fld, bits]
    omega
  rw [regBad, hrow]
  dsimp only
  rw [hres, hout]
  rfl

theorem regWrite_gpo {src : BusSrc} {v : Nat} (hv : v < 256) :
    regWrite src false FLD_GPO.addr v d = d.setWord FLD_GPO.addr (gpoStored (d.word FLD_GPO.addr) v) := by
  have hmask : actionMask FLD_GPO.addr = 0 := by decide
  have hbank : bankClosed FLD_GPO.addr d = false := rfl
  have htake : regTake src FLD_GPO.addr v d = d.setWord FLD_GPO.addr (gpoStored (d.word FLD_GPO.addr) v) := by
    rw [regTake, if_neg (by decide)]
    dsimp only
    by_cases hpd : d.pd (domOf FLD_GPO.addr) = true
    · rw [if_pos hpd, show ownStore FLD_GPO.addr = false from rfl, if_neg (by decide), regStore_gpo]
      generalize d.setWord FLD_GPO.addr (gpoStored (d.word FLD_GPO.addr) v) = y
      rfl
    · rw [if_neg hpd, regStore_gpo, hmask, Nat.and_zero, if_pos rfl, if_neg (by decide)]
  rw [regWrite, if_neg (by decide), if_neg (by decide), if_neg (fun h => absurd h.1 (by decide)), regBad_gpo hv, hbank,
    if_neg (by decide), htake]

/-- The relays take v; what they are driven to and whether they are driven stand. -/
theorem gpo_rd {v : Nat} (hv : v < 256) :
    (d.setWord FLD_GPO.addr (gpoStored (d.word FLD_GPO.addr) v)).rd FLD_GPO.OUT = v ∧
    (d.setWord FLD_GPO.addr (gpoStored (d.word FLD_GPO.addr) v)).rd FLD_GPO.LEVEL = d.rd FLD_GPO.LEVEL := by
  have hword := word_setWord d FLD_GPO.addr (gpoStored (d.word FLD_GPO.addr) v) FLD_GPO.addr
  rw [if_pos rfl] at hword
  constructor
  · show bits ((d.setWord FLD_GPO.addr (gpoStored (d.word FLD_GPO.addr) v)).word FLD_GPO.addr) 0 8 = v
    rw [hword]
    simp only [gpoStored, bits]
    omega
  · show bits ((d.setWord FLD_GPO.addr (gpoStored (d.word FLD_GPO.addr) v)).word FLD_GPO.addr) 8 8 =
      bits (d.word FLD_GPO.addr) 8 8
    rw [hword]
    simp only [gpoStored, bits]
    omega

end
end Sys2Proof.Machine
end

section
/-!
PROOFS. What emits nothing: the domains, lanes and parts that a restore from Bivouac powers (R74).
-/

namespace Sys2Proof.Machine

/-- From d to e nothing is emitted. -/
def Mute (d e : Dev) : Prop := e.outs = d.outs

section
variable {d e : Dev}

theorem Mute.refl (d : Dev) : Mute d d := rfl

theorem Mute.trans {x : Dev} (h1 : Mute d e) (h2 : Mute e x) : Mute d x := Eq.trans h2 h1

/-- A change of other parts. -/
theorem Mute.parts {x : Dev} (h : Mute d e) (ho : x.outs = e.outs) : Mute d x := Eq.trans ho h

theorem Mute.wr {f : Field} {v : Nat} (h : Mute d e) : Mute d (e.wr f v) := h.parts (wr_outs _ _ _)

theorem Mute.wrB {f : Field} {b : Bool} (h : Mute d e) : Mute d (e.wrB f b) := h.wr

theorem Mute.ev {f : Field} (h : Mute d e) : Mute d (e.ev f) := h.wr

theorem Mute.sat {f : Field} {n : Nat} (h : Mute d e) : Mute d (e.sat f n) := h.wr

theorem Mute.ite {c : Prop} [Decidable c] {x y : Dev} (hx : Mute d x) (hy : Mute d y) : Mute d (if c then x else y) := by
  split
  · exact hx
  · exact hy

theorem Mute.evIf {f : Field} {c : Bool} (h : Mute d e) : Mute d (e.evIf c f) := .ite h.ev h

theorem Mute.foldl {α : Type} {f : Dev → α → Dev} (l : List α) (h : Mute d e) (hf : ∀ a x, Mute d x → Mute d (f x a)) :
    Mute d (l.foldl f e) := by
  induction l generalizing e with
  | nil => exact h
  | cons a l ih => exact ih (hf a e h)

theorem Mute.forN {n : Nat} {f : Nat → Dev → Dev} (h : Mute d e) (hf : ∀ k x, Mute d x → Mute d (f k x)) :
    Mute d (forN n f e) := Mute.foldl _ h hf

theorem Mute.hostMod {f : HostIf → HostIf} (h : Mute d e) : Mute d (e.hostMod f) := h.parts rfl

theorem Mute.fnMod {f : Nat} {g : Fn → Fn} (h : Mute d e) : Mute d (e.fnMod f g) := h.parts rfl

theorem Mute.chMod {n : Nat} {f : Chan → Chan} (h : Mute d e) : Mute d (e.chMod n f) := h.parts rfl

theorem Mute.pegMod {f : Peg → Peg} (h : Mute d e) : Mute d (e.pegMod f) := h.parts rfl

theorem Mute.hearthMod {f : Hearth → Hearth} (h : Mute d e) : Mute d (e.hearthMod f) := h.parts rfl

theorem Mute.cmpMod {f : Cmp → Cmp} (h : Mute d e) : Mute d (e.cmpMod f) := h.parts rfl

theorem Mute.pmMod {f : Pmem → Pmem} (h : Mute d e) : Mute d (e.pmMod f) := h.parts rfl

theorem Mute.retireCell {k : Nat} (h : Mute d e) : Mute d (retireCell k e) := by
  unfold Machine.retireCell
  exact .ite (Mute.ev (Mute.wr (Mute.wr (h.pmMod.pmMod)))) h.pmMod.wrB

theorem Mute.retireWorn (h : Mute d e) : Mute d (retireWorn e) := by
  unfold Machine.retireWorn
  exact .ite (h.foldl _ fun _ _ hx => hx.retireCell) h

theorem Mute.pmemSync (h : Mute d e) : Mute d (pmemSync e) := by
  have hshow (x : Dev) (a b : Nat) (f : Pmem → Pmem) (hx : Mute d x) :
      Mute d (((x.wr PMC_FREE_CELLS.CELLS a).wr PMC_BE_CELLS.CELLS b).pmMod f) := hx.wr.wr.pmMod
  have hworn (f : Pmem → Pmem) : Mute d (Machine.retireWorn (e.pmMod f)) := Mute.retireWorn h.pmMod
  unfold Machine.pmemSync
  exact .ite (Mute.pmMod (Mute.ev (hshow _ _ _ _ (hworn _)))) (.ite (Mute.pmMod (hshow _ _ _ _ (hworn _)))
    (hshow _ _ _ _ (hworn _)))

theorem Mute.tagSync (h : Mute d e) : Mute d (tagSync e) := h.wr.wr.wr

/-! ### The host interface -/

theorem Mute.purgeFrames {f : Nat} {xs : List Frm} (h : Mute d e) : Mute d (purgeFrames f xs e) :=
  Mute.pmemSync (Mute.sat h.pmMod)

theorem Mute.setFnState {f v : Nat} (h : Mute d e) : Mute d (setFnState f v e) :=
  .ite (h.wr) (h.wr)

theorem Mute.cfgDefault {f : Nat} (h : Mute d e) : Mute d (cfgDefault f e) :=
  .ite (Mute.wr h.fnMod.hostMod) h.fnMod

theorem Mute.cmpSync (h : Mute d e) : Mute d (cmpSync e) := by
  have hctx (n : Nat) : Mute d (e.wr CMP_CTX_STATE.STATE n) := h.wr
  have hstatus (x : Dev) (b : Bool) (c f : Nat) (hx : Mute d x) :
      Mute d (((x.wrB CMP_STATUS.BUSY b).wr CMP_STATUS.CUR_CTX c).wr CMP_STATUS.CUR_FN f) :=
    (hx.wrB.wr).wr
  unfold Machine.cmpSync
  dsimp only
  split <;> exact hstatus _ _ _ _ (hctx _)

theorem Mute.cmpKennel {p : Nat → Bool} (h : Mute d e) : Mute d (cmpKennel p e) :=
  Mute.cmpSync (Mute.evIf (Mute.cmpMod (Mute.ite (c := e.cmpDraining p = true) h.cmpMod h)))

theorem Mute.purgeQueues {f : Nat} (h : Mute d e) : Mute d (purgeQueues f e) := Mute.purgeFrames (h.parts rfl)

theorem Mute.purgePeg {f : Nat} {mine : List Nat} (h : Mute d e) : Mute d (purgePeg f mine e) :=
  Mute.purgeFrames (h.parts rfl)

theorem Mute.purgeRings {f : Nat} (h : Mute d e) : Mute d (purgeRings f e) :=
  Mute.purgeFrames (h.foldl _ fun _ _ hx => hx.parts rfl)

theorem Mute.orphanReads {f : Nat} (h : Mute d e) : Mute d (orphanReads f e) := Mute.tagSync h.hostMod

theorem Mute.kennelOne {f c : Nat} {all : Bool} (h : Mute d e) : Mute d (kennelOne f c all e) := by
  have hbump : Mute d (bumpEpoch f e) := h.wr
  have hgone (x : Dev) (hx : Mute d x) : Mute d (Machine.purgeRings f (Machine.purgeQueues f (Machine.orphanReads f x))) :=
    hx.orphanReads.purgeQueues.purgeRings
  unfold Machine.kennelOne
  refine .ite (Mute.tagSync (Mute.cmpKennel (Mute.purgePeg (Mute.fnMod (hgone _ ?_))))) h
  exact Mute.fnMod (Mute.fnMod (.ite hbump.setFnState hbump.setFnState.cfgDefault))

theorem Mute.kennelAll {c : Nat} (h : Mute d e) : Mute d (kennelAll c e) :=
  Mute.forN (h.sat) fun _ _ hx => hx.kennelOne

theorem Mute.vfEnableOff {c : Nat} {all : Bool} (h : Mute d e) : Mute d (vfEnableOff c all e) :=
  Mute.forN (Mute.evIf (h.wrB.wr)) fun _ _ hx => .ite hx.setFnState hx.kennelOne

theorem Mute.intReset (h : Mute d e) : Mute d (intReset e) :=
  Mute.forN (h.wr) fun _ _ hx => hx.wr

theorem Mute.convReset (h : Mute d e) : Mute d (convReset e) := by
  unfold Machine.convReset Machine.allFnClear Machine.linkOff
  exact Mute.intReset (Mute.forN (Mute.cfgDefault (Mute.vfEnableOff (Mute.kennelAll (Mute.evIf h.wrB.wr.wr))))
    fun _ _ hx => hx.fnMod.fnMod)

theorem Mute.pd4On (h : Mute d e) : Mute d (pd4On e) := by
  have hseen : Mute d (perstSeen e) := Mute.evIf (Mute.hostMod (Mute.hostMod (h.wrB)))
  exact .ite (.ite (Mute.convReset h.hostMod.wrB.ev.hostMod) h.hostMod) hseen

/-! ### The Hearth and Pegline -/

theorem Mute.hrtEnter {st : Nat} (h : Mute d e) : Mute d (hrtEnter st e) := by
  unfold Machine.hrtEnter
  extract_lets old a b c
  have hb : Mute d b := Mute.evIf (h.wr)
  have hc : Mute d c := .ite (hb.wrB) (.ite hb (hb.wrB))
  exact hc.hearthMod

theorem Mute.pegLeaves (h : Mute d e) : Mute d (pegLeaves e) := .ite (.ite h.hrtEnter h.hearthMod) h

theorem Mute.roleUpdate (h : Mute d e) : Mute d (roleUpdate e) := by
  have hrole (ref fst chg : Bool) : Mute d (((e.wrB PEG_SYNC_STATUS.REF ref).wrB PEG_SYNC_STATUS.FIRST fst).evIf chg
      PEG_SYNC_EVENT.ROLE_CHG) := Mute.evIf (h.wrB.wrB)
  exact .ite (hrole _ _ _).pegLeaves (hrole _ _ _)

theorem Mute.gridUpdate {b : Bool} (h : Mute d e) : Mute d (gridUpdate b e) :=
  Mute.evIf (f := FRE_EVENT.GRID_LOST) (h.wrB (f := FRE_STATUS.GRID_OK))

theorem Mute.pegEnter {st : Nat} (h : Mute d e) : Mute d (pegEnter st e) := by
  have hgrid : Mute d (Machine.gridUpdate (st == 3) ((e.wr PEG_SYNC_STATUS.STATE st).wrB PEG_SYNC_STATUS.GRID (st == 3))) :=
    Mute.gridUpdate (h.wr.wrB)
  have hlost (x : Dev) (hx : Mute d x) : Mute d (gridLost x) := Mute.pegMod (hx.sat)
  unfold Machine.pegEnter
  extract_lets was a b c f inner g i j k
  have hc : Mute d c := .ite (hlost _ hgrid.pegLeaves) hgrid
  have hf : Mute d f := (hc.wr).wrB
  have hg : Mute d g := .ite (Mute.pegMod (hf.ev.wrB)) hf
  have hi : Mute d i := .ite hg.pegMod hg
  have hj : Mute d j := .ite hi hi.pegMod
  have hk : Mute d k := hj.pegMod
  exact .ite (hk.ev.wrB) (.ite hk (hk.wrB))

theorem Mute.setSpare {s : Nat} {o : Option Nat} (h : Mute d e) : Mute d (setSpare s o e) :=
  Mute.evIf (h.wr)

theorem Mute.pegStart (h : Mute d e) : Mute d (pegStart e) := by
  unfold Machine.pegStart
  extract_lets a b c f
  have hc : Mute d c := (Mute.pegMod (h.wr)).wrB
  have hf : Mute d (Machine.roleUpdate (Machine.pegEnter 1 f)) := (hc.forN fun _ _ hx => hx.setSpare).pegEnter.roleUpdate
  exact .ite hf.pegEnter (.ite hf.pegEnter hf)

theorem Mute.pegEnable (h : Mute d e) : Mute d (pegEnable e) := by
  have hrun (v : Nat) : Mute d ((e.wrB PEG_CFG.EN true).wr PEG_STATUS.RUN v) := h.wrB.wr
  exact .ite (hrun _).pegStart (hrun _)

/-! ### Channels, the link bridge, ports, the engine -/

theorem Mute.gateEnable {n : Nat} (h : Mute d e) : Mute d (gateEnable n e) :=
  (h.wrB).wr

theorem Mute.gateShow {n : Nat} (h : Mute d e) : Mute d (gateShow n e) :=
  h.wr.wr.wrB.wr.wr.wrB.wrB

theorem Mute.modShow {n : Nat} (h : Mute d e) : Mute d (modShow n e) := h.wrB.wrB

theorem Mute.chEnable {n : Nat} (h : Mute d e) : Mute d (chEnable n e) := by
  have hen : Mute d (e.wrB (CHn_CTRL.EN n) true) := h.wrB
  have hrun (v : Nat) : Mute d ((e.wrB (CHn_CTRL.EN n) true).wr (CHn_STATUS.RUN n) v) := hen.wr
  exact .ite hen (.ite (.ite (hrun _).wr.chMod.chMod (hrun _)) (hrun _))

theorem Mute.setLlbRun {c v : Nat} (h : Mute d e) : Mute d (setLlbRun c v e) := .ite (h.wr) (h.wr)

theorem Mute.llbOn (h : Mute d e) : Mute d (llbOn e) := by
  unfold Machine.llbOn
  extract_lets a b
  have ha : Mute d a := .ite (h.wr) h
  have hb : Mute d b := .ite (ha.wr) ha
  exact hb.forN fun _ _ hx => .ite hx.setLlbRun hx

theorem Mute.acMod {dir : Bool} {k : Nat} {f : AudCh → AudCh} (h : Mute d e) : Mute d (e.acMod dir k f) := by
  unfold Dev.acMod
  exact .ite (h.parts rfl) (h.parts rfl)

theorem Mute.sapCheck {p : Nat} (h : Mute d e) : Mute d (sapCheck p e) := by
  have hport (f : SapPort → SapPort) : Mute d (e.sapPortMod p f) := h.parts rfl
  exact .ite (hport _).wrB (hport _).wrB.ev

theorem Mute.setSapRun {p r : Nat} (h : Mute d e) : Mute d (setSapRun p r e) := by
  have hrun : Mute d (e.wr (SAPp_STATUS.RUN p) r) := h.wr
  exact .ite (Mute.sapCheck (hrun.wrB)) hrun

theorem Mute.setAcRun {dir : Bool} {k r : Nat} (h : Mute d e) : Mute d (setAcRun dir k r e) := by
  have hrun : Mute d (e.wr (runField dir k) r) := h.wr
  exact .ite hrun.acMod hrun

theorem Mute.sapOn (h : Mute d e) : Mute d (sapOn e) :=
  Mute.forN (h.foldl _ fun _ _ hx => hx.forN fun _ _ hy => .ite hy.setAcRun hy) fun _ _ hx => .ite hx.setSapRun hx

theorem Mute.cmpPowered (h : Mute d e) : Mute d (cmpPowered e) :=
  .ite (Mute.wr (h.wrB)) (h.wrB)

theorem Mute.coreStart (h : Mute d e) : Mute d (coreStart e) := by
  unfold Machine.coreStart
  extract_lets a b c
  have ha : Mute d a := h.forN fun _ _ hx => .ite hx.chEnable hx
  have hb : Mute d b := ha.forN fun _ _ hx => .ite hx.gateEnable hx
  exact .ite (Mute.llbOn (.ite hb.pegEnable hb)) h

theorem Mute.coreFresh (h : Mute d e) : Mute d (coreFresh e) := by
  have hshow : Mute d (Machine.forN 4 Machine.gateShow ((e.wrB PMC_STATUS.INIT_DONE true).pmMod fun p => { p with poison := [] })) :=
    Mute.forN (Mute.pmMod (h.wrB)) fun _ _ hx => hx.gateShow
  unfold Machine.coreFresh
  dsimp only
  split
  · exact Mute.pmemSync (hshow.wr.wr)
  · exact hshow.pmemSync

/-! ### The domains and lanes -/

theorem Mute.laneDown (h : Mute d e) : Mute d (laneDown e) := .ite h.wrB.ev.sat h

theorem Mute.pdOn {k : Nat} (h : Mute d e) : Mute d (pdOn k e) := by
  have hset : Mute d (setPd k true { e with frozen := e.frozen.filter fun x => domOf x.1 != k }) :=
    Mute.wr (h.parts rfl)
  unfold Machine.pdOn
  split_ifs
  · exact h
  split
  · exact hset.forN fun _ _ hx => hx.modShow
  · exact hset.pd4On
  · exact .ite hset.sapOn hset
  · exact .ite hset.cmpPowered hset
  · exact hset

theorem Mute.lanesSet {t : Nat} (h : Mute d e) : Mute d (lanesSet t e) := by
  unfold Machine.lanesSet
  extract_lets m on a b c
  have hc : Mute d c := Mute.forN (h.wr.wr.wrB.wrB) fun _ _ hx => .ite hx hx.chMod
  exact .ite hc (Mute.laneDown (hc.parts rfl))

theorem Mute.applyKeep {k : KeepEv} (h : Mute d e) : Mute d (applyKeep k e) := h.parts rfl

theorem Mute.restorePowers (h : Mute d e) : Mute d (restorePowers e) :=
  Mute.coreStart (Mute.lanesSet (Mute.coreFresh ((h.wrB.wr).foldl _ fun _ _ hx => hx.pdOn)))

theorem Mute.ratMod {f : Rat → Rat} (h : Mute d e) : Mute d (e.ratMod f) := h.parts rfl

theorem Mute.restoreShows (h : Mute d e) (hs : Unshadowed e) : Mute d (restoreShows e) := by
  obtain ⟨n, he⟩ := restoreShows_eq hs
  rw [he, restoreAnnounced_eq hs]
  exact h.ev.wr.ev.wr.ratMod.wr.ratMod

/-! ### A wake, and that by SMBus -/

/-- What a wake of source v notes before it restores; the timer's notes more. -/
def wakeNoted (v : Nat) (d : Dev) : Dev :=
  let d := (d.wr RAT_WAKE_SRC.SRC v).wrB RAT_CTRL.BIV_REQ false
  if d.ratGet RAT_STATUS.PHASE = 1 then d.ev RAT_EVENT.STEP_CANCEL else d

theorem wakeBy_restores {k : Nat} {f : Field} (hk : k ≠ 3) (hlisten : k = 0 → d.tier = 4) (hsrc : wakeEnable k = some f)
    (hen : d.on f = true) (hboot : d.booted = true) (htier : 4 ≤ d.tier) (hrest : d.rat.wakeFr = none)
    (hcaps : d.capsHold = false) : wake k d = restoreBegin (wakeNoted (2 ^ k) d) := by
  have hget (f : Field) : ((d.wr RAT_WAKE_SRC.SRC (2 ^ k)).wrB RAT_CTRL.BIV_REQ false).ratGet f = d.ratGet f := by
    rw [ratGet_wrB (by decide), ratGet_wr (by decide)]
  have hentry : ((d.wr RAT_WAKE_SRC.SRC (2 ^ k)).wrB RAT_CTRL.BIV_REQ false).entryDue = false :=
    entryDue_biv (by rw [Dev.tier, hget]; exact htier)
  have hcap : ((d.wr RAT_WAKE_SRC.SRC (2 ^ k)).wrB RAT_CTRL.BIV_REQ false).capsHold = false := by
    rw [Dev.capsHold, hget, hget]
    exact hcaps
  have hdeaf : (k == 0 && d.tier != 4) = false := by
    rw [Bool.and_eq_false_iff, beq_eq_false_iff_ne, bne_eq_false_iff_eq]
    exact (em (k = 0)).symm.imp id hlisten
  unfold wake wakeNoted
  simp only [hsrc, hen, hboot, entryDue_biv htier, htier, Dev.restoring, hrest, hdeaf]
  simp [hentry, hcap, hk]

theorem wakeNoted_parts (v : Nat) (d : Dev) : (wakeNoted v d).rat = d.rat ∧ (wakeNoted v d).outs = d.outs := by
  have hmute : Mute d (wakeNoted v d) := by
    unfold wakeNoted
    exact .ite (Mute.refl d).wr.wrB.ev (Mute.refl d).wr.wrB
  refine ⟨?_, hmute⟩
  unfold wakeNoted
  dsimp only
  split <;> rfl

theorem wakeNoted_reads {v : Nat} (hv : v < 128) (d : Dev) : (wakeNoted v d).rd RAT_WAKE_SRC.SRC = v ∧
    (wakeNoted v d).rd RAT_CTRL.BIV_REQ = 0 ∧ (wakeNoted v d).on RAT_DOM_STATUS.PMEM_SR = d.on RAT_DOM_STATUS.PMEM_SR := by
  have hnoted := ((Wrote.refl d).wr (f := RAT_WAKE_SRC.SRC) (v := v) rfl hv).wrB (f := RAT_CTRL.BIV_REQ) (b := false)
    rfl (by decide)
  unfold wakeNoted
  generalize (d.wr RAT_WAKE_SRC.SRC v).wrB RAT_CTRL.BIV_REQ false = y at *
  dsimp only
  split
  · have hev := hnoted.ev (f := RAT_EVENT.STEP_CANCEL) rfl (by decide)
    exact ⟨hev.nth 0 rfl, hev.nth 1 rfl, hev.on rfl⟩
  · exact ⟨hnoted.nth 0 rfl, hnoted.nth 1 rfl, hnoted.on rfl⟩

theorem wakeNoted_lone (v : Nat) (d : Dev) : Lone RAT_WAKE_SRC.addr (wakeNoted v d) ∧ Lone RAT_CTRL.addr (wakeNoted v d) := by
  have hsrc : Lone RAT_WAKE_SRC.addr ((d.wr RAT_WAKE_SRC.SRC v).wrB RAT_CTRL.BIV_REQ false) :=
    Lone.wr (Lone.written (f := RAT_WAKE_SRC.SRC))
  have hctrl : Lone RAT_CTRL.addr ((d.wr RAT_WAKE_SRC.SRC v).wrB RAT_CTRL.BIV_REQ false) :=
    Lone.written (f := RAT_CTRL.BIV_REQ)
  unfold wakeNoted
  dsimp only
  split
  · exact ⟨hsrc.wr, hctrl.wr⟩
  · exact ⟨hsrc, hctrl⟩

/-- A wake by SMBus in Bivouac announces a restore and emits nothing. -/
theorem wakeSmb_shows (hboot : d.booted = true) (htier : 4 ≤ d.tier) (hrest : d.rat.wakeFr = none) (hcaps : d.capsHold = false)
    (hen : d.on RAT_BIV_CFG.WAKE_SMB = true) (hshadow : d.rat.shadow = none) (hsr : d.on RAT_DOM_STATUS.PMEM_SR = true) :
    (wake 5 d).rd RAT_WAKE_SRC.SRC = 32 ∧ (wake 5 d).rd RAT_EVENT.WAKE = 1 ∧ (wake 5 d).rat.wakeFr.isSome = true ∧
      (wake 5 d).rat.announced = 3 ∧ (wake 5 d).rd RAT_STATUS.PHASE = 2 ∧ (wake 5 d).outs = d.outs := by
  obtain ⟨hrat, houts⟩ := wakeNoted_parts 32 d
  obtain ⟨hsrc, -, hmem⟩ := wakeNoted_reads (v := 32) (by decide) d
  obtain ⟨hlsrc, -⟩ := wakeNoted_lone 32 d
  have hnone : Unshadowed (wakeNoted 32 d) := by
    rw [Unshadowed, hrat]
    exact hshadow
  have hwake : wake 5 d = restoreBegin (wakeNoted 32 d) :=
    wakeBy_restores (by decide) (fun h => absurd h (by decide)) rfl hen hboot htier hrest hcaps
  rw [hwake, restoreBegin_kept (hmem.trans hsr)]
  obtain ⟨hev, hst, hlone⟩ := restoreShows_lone hnone
  have hpowers := restorePowers_powers (applyKeep .exit (restoreShows (wakeNoted 32 d)))
  have hstay (f : Field) (hf : staysAt .exit f = true) (hl : Lone f.off (restoreShows (wakeNoted 32 d))) (hs : Steady f) :
      (restorePowers (applyKeep .exit (restoreShows (wakeNoted 32 d)))).rd f = (restoreShows (wakeNoted 32 d)).rd f :=
    (hpowers.stands.rd hs).trans (applyKeep_rd hf hl)
  obtain ⟨hwake, hphase, -⟩ := restoreShows_reads hnone
  obtain ⟨hwaking, hannounced⟩ := restoreShows_rat hnone
  refine ⟨?_, ?_, ?_, ?_, ?_, ?_⟩
  · rw [hstay _ (by decide +kernel) (hlone _ hlsrc) (by decide), (restoreShows_stands hnone).rd (by decide), hsrc]
  · rw [hstay _ (by decide +kernel) hev (by decide), hwake]
  · rw [hpowers.rat, applyKeep_rat, hwaking]
  · rw [hpowers.rat, applyKeep_rat, hannounced]
  · rw [hstay _ (by decide +kernel) hst (by decide), hphase]
  · exact Eq.trans (((Mute.refl _).restoreShows hnone).applyKeep.restorePowers) houts

end
end Sys2Proof.Machine
end

section
/-!
PROOFS. A reset that SMBus asks for: its acknowledgement stands among the outputs (R79, R370).
-/

namespace Sys2Proof.Machine

section
variable {d e : Dev} {n : Nat} {x : Frm}

/-! ### The bridge's frames emit nothing -/

theorem Mute.satWord {o k : Nat} (h : Mute d e) : Mute d (satWord o k e) := h.parts rfl

theorem Mute.retireFrame (h : Mute d e) : Mute d (retireFrame x e) := by
  have hhit (y : Dev) (hy : Mute d y) (c : Prop) [Decidable c] (o : Nat) : Mute d (if c then y else Machine.satWord o 1 y) :=
    .ite hy hy.satWord
  unfold Machine.retireFrame
  extract_lets q mk i a
  have ha : Mute d a := .ite (hhit e h _ _) h
  split
  · exact hhit a ha _ _
  · exact ha

theorem Mute.leave {sent : Bool} (h : Mute d e) : Mute d (leave sent x e) := by
  unfold Machine.leave
  exact Mute.pmemSync (.ite (.ite h.pmMod h) (.ite h.retireFrame h))

theorem Mute.gaspSkip (h : Mute d e) : Mute d (gaspSkip e) := by
  have hev : Mute d (e.ev RAT_EVENT.GASP_SKIPPED) := h.ev
  exact Mute.ratMod (hev.parts (x := recFlag 1 (e.ev RAT_EVENT.GASP_SKIPPED)) rfl)

theorem Mute.dropFrame {i status : Nat} (h : Mute d e) (hx : x.host = none) : Mute d (dropFrame n i status x e) := by
  have hreturn (y : Dev) : hostReturn n status none x y = y := by rw [hostReturn, hx]
  have hstat (y : Dev) (hy : Mute d y) : Mute d (stat n i 1 y) := by
    unfold stat
    exact .ite hy (.ite (Mute.ev (.ite hy.wr.wr hy.wr.wr)) hy.wr)
  simp only [Machine.dropFrame, hreturn]
  exact Mute.leave (hstat _ (.ite (Mute.gaspSkip (.ite h.wr h)) (.ite h.wr h)))

theorem Mute.xoffStart (h : Mute d e) : Mute d (xoffStart n e) := by
  unfold Machine.xoffStart
  split
  · exact .ite (Mute.chMod (Mute.chMod (.ite h.chMod.wrB.ev h.chMod))) (.ite h.chMod.wrB.ev h.chMod)
  · exact .ite h.chMod.chMod.evIf.wr (Mute.chMod (h.chMod.chMod.evIf.wr.foldl _ fun _ _ hy => hy.chMod))
  · exact h

theorem Mute.enqueue (h : Mute d e) (hx : x.host = none) : Mute d (enqueue n x e) := by
  unfold Machine.enqueue
  exact .ite (h.dropFrame hx) (.ite (h.dropFrame hx) (.ite (Mute.forN h.chMod.pmemSync fun _ _ hy => hy.xoffStart) (h.dropFrame hx)))

theorem Mute.llbSend {who tc : Nat} {bs : Bytes} (h : Mute d e) : Mute d (llbSend who tc bs e) := by
  unfold Machine.llbSend
  exact Mute.enqueue (Mute.pmMod (h.parts rfl)) rfl

theorem Mute.llbEmit {code a b : Nat} (h : Mute d e) : Mute d (llbEmit code a b e) := by
  have hcopy (y : LlbEv) (z : Dev) (hz : Mute d z) : Mute d (llbEvCopy y z) := .ite hz.llbSend hz
  have hseq (y : LlbEv) (v : Nat) : Mute d (llbEvCopy y (e.wr LLB_EV_SEQ.NEXT v)) := hcopy _ _ h.wr
  have hmod (f : Llb → Llb) (z : Dev) (hz : Mute d z) : Mute d (z.llbMod f) := hz.parts rfl
  unfold Machine.llbEmit
  exact .ite (.ite (hseq _ _) (hmod _ _ (.ite (hseq _ _).sat.ev (hseq _ _)))) h

/-! ### The hold-up cell's test -/

theorem Mute.fldMod {f : Fld → Fld} (h : Mute d e) : Mute d (e.fldMod f) := h.parts rfl

theorem Mute.sagEnd {r : Nat} (h : Mute d e) : Mute d (sagEnd r e) := h.wr.fldMod.wr.wrB.fldMod

theorem Mute.sagAbortWith {r : Nat} (h : Mute d e) : Mute d (sagAbortWith r e) := .ite (.ite h.sagEnd.ev.ev h.sagEnd.ev) h

theorem Mute.sagDone (h : Mute d e) : Mute d (sagDone e) := .ite (.ite h.sagEnd.ev h) h

/-! ### The line of Guyline goes on -/

/-- From d to e outputs are at most added. -/
def Adds (d e : Dev) : Prop := d.outs <+: e.outs

theorem Adds.refl (d : Dev) : Adds d d := List.prefix_refl _

theorem Adds.mute {y : Dev} (h : Adds d e) (hy : Mute e y) : Adds d y := by
  rw [Adds, hy]
  exact h

theorem Adds.emit {o : Out} (h : Adds d e) : Adds d (e.emit o) := h.trans (List.prefix_append _ _)

theorem Adds.ite {c : Prop} [Decidable c] {x y : Dev} (hx : Adds d x) (hy : Adds d y) : Adds d (if c then x else y) := by
  split
  · exact hx
  · exact hy

theorem Adds.glRun {g : Gl} (h : Adds d e) : Adds d (glRun g e) := Adds.emit (h.mute (Mute.refl e).wrB.fldMod)

theorem Adds.glStart {g : Gl} (h : Adds d e) : Adds d (glStart g e) := .ite h.glRun (h.mute (Mute.refl e).wrB.fldMod)

theorem Adds.glOwn {w : GlWho} (h : Adds d e) : Adds d (glOwn w e) := by
  unfold Machine.glOwn
  split
  · exact (h.mute (searchStart_outs false e)).glStart
  · exact .ite (Adds.glStart (h.mute (Mute.refl e).fldMod)) h
  · exact h.glStart

theorem Adds.glNext (h : Adds d e) : Adds d (glNext e) := by
  unfold Machine.glNext
  refine .ite h ?_
  split
  · exact (h.mute (Mute.refl e).fldMod).glOwn
  · exact (h.mute (Mute.refl e).fldMod).glStart
  · exact h

theorem Adds.tokenGone (h : Adds d e) : Adds d (tokenGone e) := by
  have hfree (y : Dev) (hy : Adds d y) : Adds d (glFree y) := hy.mute (Mute.refl y).wrB.fldMod
  have hend (y : Dev) (hy : Adds d y) : Adds d (glSoftEnd 7 y) := hy.mute (Mute.refl y).wr.wrB.ev
  unfold Machine.tokenGone
  have hcut : Adds d (((sagAbortWith 4 e).wr FLD_CELL_CFG.CYC_PEND 0).fldMod
      fun f => { f with glq := f.glq.filter (· != .life) }) :=
    h.mute (Mute.refl e).sagAbortWith.wr.fldMod
  dsimp only
  refine Adds.mute ?_ (Mute.refl _).sagDone
  split
  · refine .ite (Adds.glNext (.ite (hend _ (hfree _ ?_)) (hfree _ ?_))) hcut
    · exact .ite hcut (hcut.emit.mute (Mute.refl _).fldMod)
    · exact .ite hcut (hcut.emit.mute (Mute.refl _).fldMod)
  · exact hcut

/-! ### The token is released -/

theorem Mute.setLst {st : Nat} (h : Mute d e) : Mute d (setLst st e) := h.wr.wrB

theorem Mute.mirrorDue {t : Nat} {p : Bytes} (h : Mute d e) : Mute d (mirrorDue t p e) := .ite (h.parts rfl) h

theorem Adds.leashRelease {st : Nat} (h : Adds d e) : Adds d (leashRelease st e) := by
  have hgone : Adds d (Machine.tokenGone (setHolder false (Machine.setLst st e))) :=
    Adds.tokenGone (h.mute (Mute.roleUpdate (Mute.refl e).setLst.wrB.wrB))
  have hlsh (f : Leash → Leash) (y : Dev) (hy : Adds d y) : Adds d (y.lshMod f) := hy.mute ((Mute.refl y).parts rfl)
  unfold Machine.leashRelease
  exact (hlsh _ _ (hgone.mute (Mute.refl _).ev.sat)).mute (Mute.refl _).mirrorDue.llbEmit

theorem Adds.leashOff (h : Adds d e) : Adds d (leashOff e) := by
  have hel : Adds d (e.wrB LSH_STATUS.ELIGIBLE false) := h.mute (Mute.refl e).wrB
  exact .ite h (.ite hel.leashRelease (hel.mute (Mute.refl _).setLst))

/-! ### A reset -/

theorem Mute.pinsShown {k : KeepEv} (h : Mute d e) : Mute d (pinsShown k e) :=
  Mute.forN (Mute.wrB h.applyKeep) fun _ _ hx => hx.modShow

theorem Mute.ratReset {cold : Bool} {w : Nat} (h : Mute d e) : Mute d (ratReset cold w e) := by
  unfold Machine.ratReset
  exact .ite h.ratMod.ratMod h.ratMod

theorem Mute.hearthReset (h : Mute d e) : Mute d (hearthReset e) := h.wrB.wrB.hearthMod

theorem Mute.logicFresh (h : Mute d e) : Mute d (logicFresh e) := h.parts rfl

theorem Mute.bootBegin {k : ResetKind} (h : Mute d e) : Mute d (bootBegin k e) := h.parts rfl

theorem Mute.resetCause {c : Nat} (h : Mute d e) : Mute d (resetCause c e) := h.wr.wr

theorem resetReq_cold {c : Nat} (h : d.boot.kind = none) : resetReq .cold c d = coldAssert c d := by
  have hsev : d.severityNow = 0 := by rw [Dev.severityNow, h]
  unfold resetReq
  rw [hsev, if_neg (by decide)]

theorem resetReq_warm {c : Nat} (h : d.boot.kind = none) : resetReq .warm c d = warmAssert c d := by
  have hsev : d.severityNow = 0 := by rw [Dev.severityNow, h]
  unfold resetReq
  rw [hsev, if_neg (by decide)]

theorem resetCause_boot (c : Nat) (d : Dev) : (resetCause c d).boot = d.boot := by rw [resetCause, Dev.wrap, wr_boot, wr_boot]

/-- A cold reset leaves PD0 alone powered. -/
theorem coldPower_shows (d : Dev) :
    (lanesSet 2 ((d.wr RAT_DOM_STATUS.PD_ON 1).wrB RAT_DOM_STATUS.PMEM_SR false)).boot = d.boot ∧
    Mute d (lanesSet 2 ((d.wr RAT_DOM_STATUS.PD_ON 1).wrB RAT_DOM_STATUS.PMEM_SR false)) := by
  have hpowers : Powers d ((d.wr RAT_DOM_STATUS.PD_ON 1).wrB RAT_DOM_STATUS.PMEM_SR false) :=
    ((Powers.refl d).wr (steady_of_dom (by decide))).wrB (steady_of_dom (by decide))
  exact ⟨hpowers.lanesSet.boot, Mute.lanesSet (Mute.refl d).wr.wrB⟩

/-- The part stands reset when the sequencer begins. -/
def resetPlain (cold : Bool) (d : Dev) : Dev :=
  logicFresh (hearthReset (ratReset cold d.ratWord (pinsShown (if cold then .cold else .warm) d)))

/-- The sequencer begins with its reset asserted. -/
def resetBegun (k : ResetKind) (c : Nat) (d : Dev) : Dev := resetCause c (bootBegin k d)

theorem resetPlain_mute (cold : Bool) (d : Dev) : Mute d (resetPlain cold d) :=
  (Mute.refl d).pinsShown.ratReset.hearthReset.logicFresh

theorem resetBegun_shows (k : ResetKind) (c : Nat) (d : Dev) : (resetBegun k c d).boot.asserted = true ∧
    (resetBegun k c d).boot.kind = some k ∧ Mute d (resetBegun k c d) := by
  rw [resetBegun, resetCause_boot]
  exact ⟨rfl, rfl, (Mute.refl d).bootBegin.resetCause⟩

theorem coldAssert_eq (c : Nat) (d : Dev) : coldAssert c d =
    lanesSet 2 (((resetBegun .cold c (resetPlain true (leashOff (laneDown d)))).wr RAT_DOM_STATUS.PD_ON 1).wrB
      RAT_DOM_STATUS.PMEM_SR false) := rfl

theorem warmAssert_eq (c : Nat) (d : Dev) : warmAssert c d =
    (resetBegun .warm c (resetPlain false (leashOff (laneDown (linkOff d))))).wr RST_BOOT_STATUS.STATE 11 := rfl

/-- A reset begins with its kind and asserted; no output is taken back. -/
theorem coldAssert_shows (c : Nat) (d : Dev) : (coldAssert c d).boot.asserted = true ∧ (coldAssert c d).boot.kind = some .cold ∧
    Adds d (coldAssert c d) := by
  have hoff : Adds d (leashOff (laneDown d)) := Adds.leashOff ((Adds.refl d).mute (Mute.refl d).laneDown)
  rw [coldAssert_eq]
  generalize leashOff (laneDown d) = y at *
  have hstate := resetPlain_mute true y
  generalize resetPlain true y = z at *
  obtain ⟨hset, hkind, hbegun⟩ := resetBegun_shows .cold c z
  generalize resetBegun .cold c z = u at *
  obtain ⟨hboot, hpower⟩ := coldPower_shows u
  generalize lanesSet 2 ((u.wr RAT_DOM_STATUS.PD_ON 1).wrB RAT_DOM_STATUS.PMEM_SR false) = v at *
  rw [hboot]
  exact ⟨hset, hkind, hoff.mute (hstate.trans (hbegun.trans hpower))⟩

theorem warmAssert_shows (c : Nat) (d : Dev) : (warmAssert c d).boot.asserted = true ∧ (warmAssert c d).boot.kind = some .warm ∧
    Adds d (warmAssert c d) := by
  have hlink : Mute d (linkOff d) := Mute.evIf (Mute.refl d).wrB.wr.wr
  have hoff : Adds d (leashOff (laneDown (linkOff d))) := Adds.leashOff ((Adds.refl d).mute hlink.laneDown)
  rw [warmAssert_eq]
  generalize leashOff (laneDown (linkOff d)) = y at *
  have hstate := resetPlain_mute false y
  generalize resetPlain false y = z at *
  obtain ⟨hset, hkind, hbegun⟩ := resetBegun_shows .warm c z
  generalize resetBegun .warm c z = u at *
  rw [wr_boot]
  exact ⟨hset, hkind, hoff.mute (hstate.trans (Mute.wr hbegun))⟩

end
end Sys2Proof.Machine
end

section
/-!
PROOFS. The theorem of alarms, relays and SMBus (R366 to R370).
-/

namespace Sys2Proof.Machine

section
variable {s : State}

theorem smbRegWrite_done {d : Dev} {v : Nat} (hshut : d.smbShut d.fld.smbReg = false) (hw : smbWritable d.fld.smbReg = true) :
    smbRegWrite v d = smbNext (smbAck 0 (regWrite .smbus (d.fld.smbReg % 4 != 0) d.fld.smbReg v d)) := by
  rw [smbRegWrite, hshut, hw]
  rfl

theorem smbRegWrite_refused {d : Dev} {v : Nat} (h : d.smbShut d.fld.smbReg = true ∨ smbWritable d.fld.smbReg = false) :
    smbRegWrite v d = smbNack d := by
  rw [smbRegWrite]
  exact if_pos (by rcases h with h | h <;> rw [h] <;> simp)

theorem peekWord_outs (d : Dev) (x : List Out) (o : Nat) : ({ d with outs := x } : Dev).peekWord o = d.peekWord o := by
  have hlive : ({ d with outs := x } : Dev).liveWord o = d.liveWord o := liveWord_congr rfl rfl o
  unfold Dev.peekWord
  rw [hlive]
  cases rowAt o with
  | none => rfl
  | some r => rfl

theorem peek_outs (d : Dev) (x : List Out) (o : Nat) : ({ d with outs := x } : Dev).peek o = d.peek o := by
  rw [Dev.peek, peekWord_outs, Dev.peek]

/-- A read of a reserved word answers 0 and clears nothing. -/
theorem smbRegRead_reserved {d : Dev} (houts : d.outs = []) (hshut : d.smbShut d.fld.smbReg = false) (h4 : d.fld.smbReg % 4 = 0)
    (hres : Reserved (d.fld.smbReg / 4 * 4)) : Wrote d (smbRegRead d) [] ∧ (smbRegRead d).outs = [.smb true 0] ∧
      (smbRegRead d).fld = { d.fld with smbReg := d.fld.smbReg + 4 } := by
  have hread : regRead false d.fld.smbReg { d with outs := [] } = { d with outs := [.read 0] } := regRead_reserved false _ hres
  have hdef : smbRegRead d = smbNext (smbAck 0 { d with outs := d.outs }) := by
    rw [smbRegRead, hshut]
    dsimp only
    rw [if_neg (by decide), if_pos h4, hread]
    rfl
  rw [hdef]
  refine ⟨(Wrote.refl d).parts rfl rfl, ?_, rfl⟩
  rw [smbNext_outs, smbAck_outs, houts]
  rfl

/-- A word that SMBus stored and acknowledged. -/
theorem smbStored_shows {d : Dev} {w : Nat} (houts : d.outs = []) :
    Stands (Beside [⟨d.fld.smbReg, 0, 32⟩]) d (smbNext (smbAck 0 (d.setWord d.fld.smbReg w))) ∧
    (smbNext (smbAck 0 (d.setWord d.fld.smbReg w))).outs = [.smb true 0] ∧
    (smbNext (smbAck 0 (d.setWord d.fld.smbReg w))).fld = { d.fld with smbReg := d.fld.smbReg + 4 } := by
  have hst : Stands (Beside [⟨d.fld.smbReg, 0, 32⟩]) d (d.setWord d.fld.smbReg w) := by
    rw [setWord_eq_wr]
    exact (Stands.refl _ d).wr (.listed (by simp))
  refine ⟨hst.trans ((smbAck_stands _ _ _).trans (smbNext_stands _ _)), ?_, rfl⟩
  rw [smbNext_outs, smbAck_outs]
  exact congrArg (· ++ [Out.smb true 0]) houts

/-- What a command that the target takes comes to. -/
theorem ends_smb {c : Instr} {f : Dev → Dev} {ok : Bool} {P : Dev → Prop} (hx : ∀ s, exec c s = s.run (smbCommand ok f))
    (hs : SmbOn s) (h : P (if ok then f s.quiet else smbNack s.quiet)) : Ends c s P := by
  obtain ⟨hlow, hst⟩ := hs
  refine ends_run hx ?_
  rwa [smbCommand_runs (d := s.quiet) hlow hst]

theorem does_smb {c : Instr} {f : Dev → Dev} {ok : Bool} {ws : List (Field × Nat)} {P : Dev → Prop}
    (hx : ∀ s, exec c s = s.run (smbCommand ok f)) (hs : SmbOn s)
    (h : Wrote s.quiet (if ok then f s.quiet else smbNack s.quiet) ws ∧ P (if ok then f s.quiet else smbNack s.quiet)) :
    Does c s ws P := ends_smb hx hs h

/-- A command that is not acknowledged. -/
theorem does_nack {c : Instr} {f : Dev → Dev} {ok : Bool} {P : Dev → Prop} (hx : ∀ s, exec c s = s.run (smbCommand ok f))
    (hs : SmbOn s) (hf : ok = true → f s.quiet = smbNack s.quiet) (hP : P (smbNack s.quiet)) : Does c s
      [(FLD_SMB_STATUS.ERR, min (s.dev.rd FLD_SMB_STATUS.ERR + 1) (2 ^ FLD_SMB_STATUS.ERR.w - 1))] P := by
  have hnack : (if ok then f s.quiet else smbNack s.quiet) = smbNack s.quiet := by
    cases ok with
    | true => exact hf rfl
    | false => rfl
  refine does_smb hx hs ?_
  rw [hnack]
  exact ⟨smbNack_wrote s.quiet, hP⟩

theorem nack_shows : (smbNack s.quiet).outs = [.smb false 0] ∧ (smbNack s.quiet).fld = s.dev.fld :=
  ⟨smbNack_outs s.quiet, (smbNack_beyond s.quiet).fld⟩

end

/-- Settles O42. -/
theorem alarmsAndSmbus : Obligations.AlarmsAndSmbus := by
  intro s
  refine ⟨fun k a hact hn hdeb hstorm hpast hdue hrun => ?_, fun w ht => ?_, fun v ht => ?_, fun a hs ha => ?_,
    fun a hs ha => ?_, fun hs hshut h4 hret hch => ?_, fun hs hshut => ?_, fun hs h20 hshut => ?_, fun hs => ?_,
    fun v hs hblk hshut h4 hpd hok => ?_, fun v hs hshut hw => ?_, fun v hs hno => ?_, fun v hs hreg hv hshut => ?_, fun hs => ?_,
    fun key hs hkey => ?_, fun hs hkind => ?_, fun hs hkind _ => ?_, fun hs hboot htier hrest hcaps hen hshadow hsr => ?_,
    fun hlow => ?_⟩
  · refine does_run (fun _ => rfl) ?_
    rw [gpiRemind_due (d := s.quiet) hact hn hdeb hstorm hpast hdue hrun]
    exact ⟨(Wrote.refl s.quiet).ev rfl (by decide), (Beyond.refl s.quiet).ev.fld⟩
  · exact does_soft (fun _ => rfl) ht ⟨gpiLatchClear_wrote w s.quiet, (Beyond.refl s.quiet).wr.fld⟩
  · obtain ⟨hb, hpd⟩ := ht
    have hset := (Wrote.refl s.quiet).wr (f := FLD_GPO.OUT) (v := v.toNat) rfl v.isLt
    have hboot := (Beyond.refl s.quiet).wr (f := FLD_GPO.OUT) (v := v.toNat) |>.part Dev.boot fun _ _ _ => rfl
    refine does_run (fun _ => rfl) ?_
    rw [softField_taken (d := s.quiet) hb hpd, gpoWrite]
    generalize s.quiet.wr FLD_GPO.OUT v.toNat = y at *
    refine ⟨hset, ?_⟩
    rw [settle_relays, hset.nth 0 rfl, hboot, Dev.holds, hset.rd (f := LSH_STATUS.STATE) rfl]
    rfl
  · refine does_smb (fun _ => rfl) hs ⟨?_, ?_⟩
    · rw [if_pos rfl, smbSetAddr, if_neg (by omega)]
      exact (Wrote.refl s.quiet).parts rfl rfl
    · rw [if_pos rfl, smbSetAddr, if_neg (by omega)]
      exact ⟨rfl, rfl⟩
  · exact does_nack (fun _ => rfl) hs (fun _ => if_pos ha) nack_shows
  · obtain ⟨hst, houts, hfld⟩ := smbRegRead_word (d := s.quiet) rfl hshut h4 hret hch
    rw [peek_outs] at houts
    refine ends_smb (fun _ => rfl) hs ?_
    rw [if_pos rfl]
    exact ⟨hst.only, hst.2, houts, hfld⟩
  · exact does_nack (fun _ => rfl) hs (fun _ => smbRegRead_shut (d := s.quiet) hshut) nack_shows
  · have hres : Reserved (s.dev.fld.smbReg / 4 * 4) := .inl (by rw [h20]; decide)
    have hshut' : s.dev.smbShut s.dev.fld.smbReg = false := by
      rw [h20]
      exact hshut
    have h4 : s.dev.fld.smbReg % 4 = 0 := by rw [h20]
    obtain ⟨hw, houts, hfld⟩ := smbRegRead_reserved (d := s.quiet) rfl hshut' h4 hres
    refine does_smb (fun _ => rfl) hs ?_
    rw [if_pos rfl]
    refine ⟨hw, ?_, hfld⟩
    rw [hres.peek_eq_zero s.dev]
    exact houts
  · exact does_nack (fun _ => rfl) hs (fun h => Bool.noConfusion h) nack_shows
  · obtain ⟨w, hlt, hwrite, hstored⟩ := regWrite_glb (d := s.quiet) (src := .smbus) hblk h4 hpd hok
    have hin : smbWritable s.quiet.fld.smbReg = true := by
      have hlow : s.dev.fld.smbReg < 0x14000 := by omega
      simp [smbWritable, hlow]
    have hnarrow : (s.quiet.fld.smbReg % 4 != 0) = false := by simp [h4]
    refine ends_smb (fun _ => rfl) hs ?_
    rw [if_pos rfl, smbRegWrite_done (d := s.quiet) hshut hin, hnarrow, hwrite]
    obtain ⟨hst, houts, hfld⟩ := smbStored_shows (d := s.quiet) (w := w) rfl
    refine ⟨hst.only, hst.2, houts, hfld, ?_⟩
    rw [smbNext_word, smbAck_word, word_setWord, if_pos rfl, Nat.mod_eq_of_lt hlt]
    exact hstored.symm
  · refine ends_smb (fun _ => rfl) hs ?_
    rw [if_pos rfl, smbRegWrite_done (d := s.quiet) hshut hw]
  · exact does_nack (fun _ => rfl) hs (fun _ => smbRegWrite_refused (d := s.quiet) hno) nack_shows
  · have hin : smbWritable s.quiet.fld.smbReg = true := by rw [show s.quiet.fld.smbReg = FLD_GPO.addr from hreg]; decide
    have hnarrow : (s.quiet.fld.smbReg % 4 != 0) = false := by rw [show s.quiet.fld.smbReg = FLD_GPO.addr from hreg]; decide
    have hwrite : regWrite .smbus false s.quiet.fld.smbReg v.toNat s.quiet =
        s.quiet.setWord s.quiet.fld.smbReg (gpoStored (s.quiet.word FLD_GPO.addr) v.toNat) := by
      rw [show s.quiet.fld.smbReg = FLD_GPO.addr from hreg, regWrite_gpo hv]
    obtain ⟨hout, hlevel⟩ := gpo_rd (d := s.quiet) hv
    obtain ⟨hst, houts, hfld⟩ := smbStored_shows (d := s.quiet) (w := gpoStored (s.quiet.word FLD_GPO.addr) v.toNat) rfl
    refine ends_smb (fun _ => rfl) hs ?_
    rw [if_pos rfl, smbRegWrite_done (d := s.quiet) (by rw [hreg]; exact hshut) hin, hnarrow, hwrite]
    rw [show s.quiet.fld.smbReg = FLD_GPO.addr from hreg] at hst houts hfld ⊢
    exact ⟨hst.only, hst.2, houts, hfld, hout, hlevel⟩
  · exact does_smb (fun _ => rfl) hs ⟨(Wrote.refl s.quiet).parts rfl rfl, rfl, rfl⟩
  · have hne : key.toNat ≠ 0xA5 := fun h => hkey (BitVec.eq_of_toNat_eq h)
    refine does_nack (fun _ => rfl) hs (fun _ => if_neg hne) 
      ⟨smbNack_outs s.quiet, (smbNack_beyond s.quiet).part Dev.boot fun _ _ _ => rfl⟩
  · obtain ⟨hset, hkind', hadds⟩ := coldAssert_shows 3 (smbAck 0 s.quiet)
    refine ends_smb (f := smbKeyed 0xA5 (resetReq .cold 3)) (fun _ => rfl) hs ?_
    rw [if_pos rfl, smbKeyed, if_pos rfl, resetReq_cold (d := smbAck 0 s.quiet) hkind]
    exact ⟨hset, hkind', hadds.subset (by simp [smbAck_outs])⟩
  · obtain ⟨hset, hkind', hadds⟩ := warmAssert_shows 5 (smbAck 0 s.quiet)
    refine ends_smb (f := smbKeyed 0xA5 (resetReq .warm 5)) (fun _ => rfl) hs ?_
    rw [if_pos rfl, smbKeyed, if_pos rfl, resetReq_warm (d := smbAck 0 s.quiet) hkind]
    exact ⟨hset, hkind', hadds.subset (by simp [smbAck_outs])⟩
  · obtain ⟨hsrc, hwake, hfr, hann, hphase, houts⟩ :=
      wakeSmb_shows (d := smbAck 0 s.quiet) hboot htier hrest hcaps hen hshadow hsr
    refine ends_smb (f := smbKeyed 0xA5 (wake 5)) (fun _ => rfl) hs ?_
    rw [if_pos rfl, smbKeyed, if_pos rfl]
    exact ⟨hsrc, hwake, hfr, hann, hphase, houts⟩
  · have hdef : smbClockLow s.quiet = s.quiet.sat FLD_SMB_STATUS.ERR := by
      rw [smbClockLow, if_neg (by rw [hlow]; decide)]
    refine does_run (fun _ => rfl) ?_
    rw [hdef]
    exact ⟨smbCounted s.quiet, (Beyond.refl s.quiet).sat.fld, sat_outs _ _ _⟩

end Sys2Proof.Machine
end

section
/-!
PROOFS. A slot begun in an era above the last of the Hearth's count (R37, R236, R262): a counterexample to O28.
-/

namespace Sys2Proof.Machine

/-- Pegline in COLDSTART before slot 1, the SYNC slot of this node, with cold-start frames to begin in round 1. The Hearth runs
in era 16, which a step of its copies, modulo 16 eras (R37), takes for era 0. -/
def sixteenthEra : State :=
  { dev := { (((((({} : Dev).wr PEG_STATUS.RUN 2).wr PEG_SYNC_STATUS.STATE 2).wr PEG_SYNC_CFG.CS_EN 1).setWord 0x2C0010 0x182)) with
    peg := { oper := some 0, csFrom := 1, silent := List.replicate 64 0 }
    hearth := { running := true, a := { era := 16 } } } }

/-- It shows no cold-start frame sent. -/
theorem sixteenthEra_slotBegin : (slotBegin 1 { sixteenthEra.dev with outs := [] }).rd PEG_CS_SENT.COUNT = 0 := by decide +kernel

/-- Refutes O28: the statement reads the round before the slot begins. In `sixteenthEra` it is 2^44, past that of the first
cold-start frame, but the Hearth that has come to the slot's start counts its eras modulo 16 (R37): the slot lies in round 0 and
no frame is sent. -/
theorem not_peglineSlots : ¬ Obligations.PeglineSlots := by
  intro h
  obtain ⟨-, -, -, -, -, -, hcold, -⟩ := h sixteenthEra
  have hsent := hcold 1 ⟨by decide +kernel, rfl, by decide +kernel, rfl, rfl⟩ (by decide +kernel) (by decide +kernel)
    (by decide +kernel) (by decide +kernel) rfl (by decide +kernel) (by decide +kernel) (by decide +kernel)
  obtain ⟨e, ⟨hwrote, -⟩, hreads⟩ := hsent.ends.reads (f := slotBegin 1) rfl
  have hcount := hwrote.nth 1 rfl
  rw [hreads PEG_CS_SENT.COUNT (by decide), sixteenthEra_slotBegin] at hcount
  exact absurd hcount (by decide +kernel)

end Sys2Proof.Machine
end

section
/-!
PROOFS. What reception is made of: lookups, counters of a channel, pause started, a copy queued (R160, R165, R175, R180, R185).
-/

namespace Sys2Proof.Machine

/-! ### Commands that queue or dequeue frames (Table 18.3) -/

section
variable {d e : Dev} {f : Dev → Dev}

theorem atMote_pm (m : Nat) (d : Dev) : (atMote m d).pm = d.pm := by
  obtain ⟨h, he⟩ := atMote_eq m d
  rw [he]

/-- No upset stands in a queue, and f brings none: the parity finds nothing. -/
theorem queueing_clean (hclean : ∀ n : Fin 4, d.queueBad n = false) (h : (f d).pm.upsets ⊆ d.pm.upsets) :
    queueing f d = f d := by
  refine forN_id fun n hn => ?_
  have hbad : (f d).queueBad n = false := by
    rw [Dev.queueBad, List.any_eq_false]
    have hd := hclean ⟨n, hn⟩
    rw [Dev.queueBad, List.any_eq_false] at hd
    exact fun u hu => hd u (h hu)
  unfold queueParity
  rw [hbad, Bool.false_and, if_neg Bool.false_ne_true]

theorem queueing_same (hclean : ∀ n : Fin 4, d.queueBad n = false) (h : (f d).pm = d.pm) : queueing f d = f d :=
  queueing_clean hclean (by rw [h]; exact List.Subset.refl _)

end

/-! ### Counters of a channel (Table 7.4) -/

/-- A statistics counter of channel n. -/
def Tally (n : Fin 4) (g : Field) : Prop := ∃ i : Fin 64, g = CHn_STATi.COUNT n i

section
variable {d e : Dev} {n : Fin 4}

theorem tally_count {i : Nat} (hi : i < 64) : Tally n (CHn_STATi.COUNT n i) := ⟨⟨i, hi⟩, rfl⟩

theorem tally_off {g : Field} (h : Tally n g) : 0x20400 ≤ g.off ∧ g.off < 0x2C500 ∧
    0x400 ≤ g.off % 0x4000 ∧ g.off % 0x4000 < 0x500 := by
  obtain ⟨i, rfl⟩ := h
  simp only [CHn_STATi.COUNT, CHn_STATi.addr]
  omega

theorem tally_below : Below (Tally n) := fun g hg => by have := tally_off hg; omega

/-- A register below the counters of its channel is none of them. -/
theorem tally_free {f : Field} (h : f.off % 0x4000 < 0x400) : Free (Tally n) f := fun g hg =>
  apart_of_off (by have := tally_off hg; omega)

theorem pmem_tally : ∀ f ∈ pmemFields, Free (Tally n) f := by
  have h : ∀ f ∈ pmemFields, f.off < 0x20400 ∨ 0x2C500 ≤ f.off := by decide
  exact fun f hf g hg => apart_of_off (by have := tally_off hg; have := h f hf; omega)

theorem stat_beside {i j : Nat} (h : i ≠ j) : Beside (statFields n j) (CHn_STATi.COUNT n i) := by
  intro f hf
  simp only [statFields, List.mem_cons, List.not_mem_nil, or_false] at hf
  rcases hf with rfl | rfl | rfl
  · exact apart_of_off (by simp only [CHn_STATi.COUNT, CHn_STATi.addr]; omega)
  · split <;> exact apart_of_off (by
      simp only [CHn_STATi.COUNT, CHn_STATi.addr, CHn_STAT_HALF0.HALF, CHn_STAT_HALF0.addr, CHn_STAT_HALF1.HALF,
        CHn_STAT_HALF1.addr]; omega)
  · exact apart_of_off (by simp only [CHn_STATi.COUNT, CHn_STATi.addr, CHn_EVENT.STAT_HALF, CHn_EVENT.addr]; omega)

/-- A count leaves the other counters. -/
theorem stat_other {i j v : Nat} (h : i ≠ j) : (stat n j v d).rd (CHn_STATi.COUNT n i) = d.rd (CHn_STATi.COUNT n i) :=
  (stat_stands j v).rd (stat_beside h)

theorem fenced_beside {j : Nat} : Beside (statFields n j) (CHn_STATUS.FENCED n) := by
  intro f hf
  simp only [statFields, List.mem_cons, List.not_mem_nil, or_false] at hf
  rcases hf with rfl | rfl | rfl
  · exact apart_of_off (by simp only [CHn_STATi.COUNT, CHn_STATi.addr, CHn_STATUS.FENCED, CHn_STATUS.addr]; omega)
  · split <;> exact apart_of_off (by
      simp only [CHn_STATUS.FENCED, CHn_STATUS.addr, CHn_STAT_HALF0.HALF, CHn_STAT_HALF0.addr, CHn_STAT_HALF1.HALF,
        CHn_STAT_HALF1.addr]; omega)
  · exact apart_of_off (by simp only [CHn_STATUS.FENCED, CHn_STATUS.addr, CHn_EVENT.STAT_HALF, CHn_EVENT.addr]; omega)

theorem stat_fenced {j v : Nat} : (stat n j v d).fenced n = d.fenced n := (stat_stands j v).on fenced_beside

/-! ### Lookups (R180) -/

theorem lookup_outs (src : Nat) (data : Bytes) (d : Dev) (x : List Out) :
    lookup src data { d with outs := x } = ((lookup src data d).1, { (lookup src data d).2 with outs := x }) := by
  have hkey : ({ d with outs := x } : Dev).winner (keyWords (keyFields data) src) src = d.winner (keyWords (keyFields data) src) src := rfl
  unfold lookup
  dsimp only
  rw [hkey]
  cases d.winner (keyWords (keyFields data) src) src <;> rfl

theorem lookup_beyond (src : Nat) (data : Bytes) (d : Dev) : Beyond d (lookup src data d).2 := by
  unfold lookup
  dsimp only
  split
  · exact (Beyond.refl d).setWord
  · exact (Beyond.refl d).sat

theorem lookup_stands {P : Field → Prop} (hP : Below P) (hmiss : Free P CLS_MISS_CNT.COUNT) (src : Nat) (data : Bytes) (d : Dev) :
    Stands P d (lookup src data d).2 := by
  unfold lookup
  dsimp only
  split
  · exact ((Work.refl P d).satWord (hP.free (by unfold hitsOff; omega))).stands
  · exact (Stands.refl P d).sat hmiss

theorem satWord_outs (o k : Nat) (d : Dev) : (satWord o k d).outs = d.outs := rfl

theorem lookup_outputs (src : Nat) (data : Bytes) (d : Dev) : (lookup src data d).2.outs = d.outs := by
  unfold lookup
  dsimp only
  split
  · exact satWord_outs _ _ _
  · exact sat_outs _ _ _

theorem lookup_tally (src : Nat) (data : Bytes) (d : Dev) : Stands (Tally n) d (lookup src data d).2 :=
  lookup_stands tally_below (tally_free (by decide)) src data d

end

/-! ### Pause started by a queued copy (R165) -/

/-- A channel but for the pause frames it owes and their times. -/
def Chan.unpaused (c : Chan) : Chan := { c with ctlq := [], beOn := 0, pfcOwn := 0, xoffT := [] }

/-- From d to e only registers outside P and what `Chan.unpaused` leaves out move. -/
structure Paused (P : Field → Prop) (d e : Dev) : Prop where
  shape : ∃ r c, e = { d with regs := r, chan := c }
  rd : ∀ g, P g → e.rd g = d.rd g
  chan : ∀ m, (e.ch m).unpaused = (d.ch m).unpaused

section
variable {P : Field → Prop} {d e x : Dev}

theorem Paused.refl (P : Field → Prop) (d : Dev) : Paused P d d := ⟨⟨_, _, rfl⟩, fun _ _ => rfl, fun _ => rfl⟩

theorem Paused.trans (h : Paused P d e) (hx : Paused P e x) : Paused P d x := by
  obtain ⟨r, c, rfl⟩ := h.shape
  obtain ⟨r', c', rfl⟩ := hx.shape
  exact ⟨⟨r', c', rfl⟩, fun g hg => (hx.rd g hg).trans (h.rd g hg), fun m => (hx.chan m).trans (h.chan m)⟩

theorem Paused.wr {f : Field} {v : Nat} (h : Paused P d e) (hf : Free P f) : Paused P d (e.wr f v) :=
  h.trans ⟨⟨_, _, rfl⟩, fun g hg => rd_wr_apart e f g v (hf g hg), fun _ => rfl⟩

theorem Paused.ite {c : Prop} [Decidable c] {y : Dev} (hx : Paused P d x) (hy : Paused P d y) : Paused P d (if c then x else y) := by
  split
  · exact hx
  · exact hy

theorem Paused.foldl {α : Type} {f : Dev → α → Dev} (l : List α) (h : Paused P d e)
    (hf : ∀ a ∈ l, ∀ x, Paused P d x → Paused P d (f x a)) : Paused P d (l.foldl f e) := by
  induction l generalizing e with
  | nil => exact h
  | cons a l ih => exact ih (hf a (by simp) e h) fun b hb => hf b (List.mem_cons_of_mem _ hb)

theorem Paused.chMod {n : Nat} {g : Chan → Chan} (h : Paused P d e) (hg : ∀ c, (g c).unpaused = c.unpaused) :
    Paused P d (e.chMod n g) :=
  h.trans ⟨⟨_, _, rfl⟩, fun _ _ => rfl, fun _ => chMod_keeps Chan.unpaused hg⟩

/-- What the start of XOFF may write. -/
def xoffFields (n : Nat) : List Field := [CHn_STATUS.XOFF n, CHn_STATUS.PFC_XOFF n, CHn_EVENT.XOFF_START n]

theorem Paused.xoffStart {n : Nat} (h : Paused P d e) (hP : ∀ f ∈ xoffFields n, Free P f) : Paused P d (xoffStart n e) := by
  simp only [xoffFields, List.forall_mem_cons, List.not_mem_nil, false_implies, implies_true, and_true] at hP
  obtain ⟨hxoff, hpfc, hstart⟩ := hP
  have hbe : Paused P d (e.chMod n fun c => { c with beOn := c.beOn ||| e.beMask n }) := h.chMod fun _ => rfl
  have hmark (k : Nat) (x : Dev) (hx : Paused P d x) : Paused P d (markXoff n k x) := hx.chMod fun _ => rfl
  have hsend (k : WireKind) (v q : Nat) (x : Dev) (hx : Paused P d x) : Paused P d (sendPause n k v q x) := hx.chMod fun _ => rfl
  have hshow (g : Chan → Chan) (c : Bool) (hg : ∀ c, (g c).unpaused = c.unpaused) : Paused P d (pfcShow n
      (((e.chMod n fun c => { c with beOn := c.beOn ||| e.beMask n }).chMod n g).evIf c (CHn_EVENT.XOFF_START n))) :=
    .wr (.ite ((hbe.chMod hg).wr hstart) (hbe.chMod hg)) hpfc
  have hown (b : Bool) : Paused P d (if b = true then
      ((e.chMod n fun c => { c with beOn := c.beOn ||| e.beMask n }).wrB (CHn_STATUS.XOFF n) true).ev (CHn_EVENT.XOFF_START n)
      else e.chMod n fun c => { c with beOn := c.beOn ||| e.beMask n }) :=
    .ite (.wr (.wr hbe hxoff) hstart) hbe
  unfold Machine.xoffStart
  dsimp only
  split
  · exact .ite (hmark _ _ (hsend _ _ _ _ (hown _))) (hown _)
  · exact .ite (hshow _ _ fun _ => rfl)
      (hsend _ _ _ _ (Paused.foldl _ (hshow _ _ fun _ => rfl) fun _ _ _ hx => hmark _ _ hx))
  · exact h

theorem Paused.flowUpdate (h : Paused P d e) (hP : ∀ n < 4, ∀ f ∈ xoffFields n, Free P f) : Paused P d (flowUpdate e) :=
  .foldl _ h fun n hn _ hx => hx.xoffStart (hP n (List.mem_range.mp hn))

theorem Paused.queues (h : Paused P d e) (m : Nat) : (e.ch m).queues = (d.ch m).queues :=
  show (e.ch m).unpaused.queues = (d.ch m).unpaused.queues by rw [h.chan m]

theorem xoff_tally {n : Fin 4} : ∀ k < 4, ∀ f ∈ xoffFields k, Free (Tally n) f := by
  have h : ∀ k < 4, ∀ f ∈ xoffFields k, f.off % 0x4000 < 0x400 := by decide
  exact fun k hk f hf => tally_free (h k hk f hf)

end

end Sys2Proof.Machine
end

section
/-!
PROOFS. Reception: the checks of Table 7.2, reassembly, a frame decided for one channel; the obligation (R155 to R185).
-/

namespace Sys2Proof.Machine

section
variable {d e : Dev} {n : Fin 4} {m : Nat} {mp : MPkt} {pcs : Pcs} {bs : Bytes}

/-! ### Check 1 -/

theorem hears_parts (h : d.hears n = true) : d.rxLive n = true ∧ d.fenced n = false ∧ d.lineIn n = true := by
  simpa [Dev.hears, and_assoc] using h

/-- What the FEC has corrected before a frame is counted. -/
def fecCounted (n : Nat) (pcs : Pcs) (d : Dev) : Dev :=
  if (d.ch n).fecNow = 0 then d else stat n 47 pcs.uncorr (stat n 46 pcs.corr d)

theorem rxTake_live {t : Nat} {tsOk : Bool} (hlive : d.rxLive n = true) (hfree : d.fenced n = false) (hblocks : pcs.blocks = 0) :
    rxTake n t tsOk mp pcs bs d = if !pcs.ok || ((fecCounted n pcs d).ch n).recal then pcsBad n mp (fecCounted n pcs d)
      else rxChecked n t tsOk pcs.ovf mp bs (fecCounted n pcs d) := by
  unfold rxTake
  dsimp only
  rw [hlive, hfree, if_neg (by decide), if_neg (by decide), if_pos hblocks]
  rfl

/-- A frame is heard, with no errored block and nothing corrected before it: check 1, then the others. -/
theorem rxFrame_heard (hhears : d.hears n = true) (hblocks : pcs.blocks = 0) (hfec : (d.ch n).fecNow = 0) :
    rxFrame n m mp pcs bs d = if !pcs.ok || (d.ch n).recal then pcsBad n mp (atMote m d)
      else rxChecked n (atMote m d).nowExt (atMote m d).valid pcs.ovf mp bs (atMote m d) := by
  obtain ⟨hlive, hfree, hline⟩ := hears_parts ((hears_atMote m).trans hhears)
  have hch : (atMote m d).ch n = d.ch n := by simp [Dev.ch]
  have hcount : fecCounted n pcs (atMote m d) = atMote m d := if_pos (by rw [hch, hfec])
  unfold rxFrame
  dsimp only
  rw [if_pos hline, rxTake_live hlive hfree hblocks, hcount, hch]

theorem pcsBad_express (d : Dev) : pcsBad n .express d = stat n 14 1 d := rfl

theorem rxFrame_stopped (hhears : d.hears n = true) (hblocks : pcs.blocks = 0) (hfec : (d.ch n).fecNow = 0) (hok : pcs.ok = false) :
    rxFrame n m .express pcs bs d = stat n 14 1 (atMote m d) := by
  rw [rxFrame_heard hhears hblocks hfec, hok, Bool.not_false, Bool.true_or, if_pos rfl, pcsBad_express]

theorem rxFrame_checked (hhears : d.hears n = true) (hblocks : pcs.blocks = 0) (hfec : (d.ch n).fecNow = 0) (hok : pcs.ok = true)
    (hrecal : (d.ch n).recal = false) : rxFrame n m mp pcs bs d =
      rxChecked n (atMote m d).nowExt (atMote m d).valid pcs.ovf mp bs (atMote m d) := by
  rw [rxFrame_heard hhears hblocks hfec, hok, hrecal, Bool.not_true, Bool.or_false, if_neg Bool.false_ne_true]

theorem rxFrame_dead (hlive : d.rxLive n = false) : rxFrame n m mp pcs bs d = atMote m d := by
  have hlive' : (atMote m d).rxLive n = false := by
    obtain ⟨h, he⟩ := atMote_eq m d
    rw [he]
    exact hlive
  unfold rxFrame rxTake
  dsimp only
  rw [hlive']
  exact ite_self _

/-! ### Frames that go no further -/

theorem rxChecked_express {t : Nat} {tsOk late : Bool} (d : Dev) : rxChecked n t tsOk late .express bs d =
    rxWhole n (d.endOf n t bs.length) (d.rxStamp n t) tsOk false late (some []) (lookup n bs d).1 bs (lookup n bs d).2 := rfl

theorem rxChecked_other {t : Nat} {tsOk late : Bool} (d : Dev) : rxChecked n t tsOk late .other bs d = stat n 20 1 d := rfl

section
variable {t ts : Nat} {tsOk late : Bool} {held : Option (List Nat)} {q : Decision}

theorem rxWhole_short (h : bs.length < 64) :
    rxWhole n t ts tsOk false late held q bs d = stat n (if fcsOk bs then 9 else 10) 1 d := if_pos h

theorem rxWhole_long (hmin : 64 ≤ bs.length) (hmax : d.rd (CHn_MAX_LEN.MAX n) < bs.length) :
    rxWhole n t ts tsOk false late held q bs d = stat n (if fcsOk bs then 11 else 12) 1 d :=
  (if_neg (Nat.not_lt.mpr hmin)).trans (if_pos hmax)

theorem rxWhole_damaged (hmin : 64 ≤ bs.length) (hmax : bs.length ≤ d.rd (CHn_MAX_LEN.MAX n)) (hbad : fcsOk bs = false) :
    rxWhole n t ts tsOk false late held q bs d = stat n 13 1 d :=
  (if_neg (Nat.not_lt.mpr hmin)).trans ((if_neg (Nat.not_lt.mpr hmax)).trans (if_pos (by rw [hbad, Bool.not_false])))

end

/-- Registers below the counters of entries that a lookup leaves. -/
theorem lookup_rd {f : Field} (hlow : f.off < 0x238000) (hmiss : f.off ≠ CLS_MISS_CNT.addr) :
    (lookup n bs d).2.rd f = d.rd f := by
  refine (lookup_stands (P := fun g => g = f) ?_ ?_ n bs d).rd rfl
  · rintro g rfl
    exact hlow
  · rintro g rfl
    exact apart_of_off hmiss

theorem channel_low (n : Fin 4) : ∀ f ∈ [CHn_MAX_LEN.MAX n, CHn_STATUS.FENCED n, CHn_STATUS.RUN n],
    f.off < 0x238000 ∧ f.off ≠ CLS_MISS_CNT.addr := by
  revert n
  decide

theorem lookup_fenced : (lookup n bs d).2.fenced n = d.fenced n := by
  obtain ⟨hlow, hmiss⟩ := channel_low n (CHn_STATUS.FENCED n) (by simp)
  rw [Dev.fenced, Dev.fenced, Dev.on, Dev.on, lookup_rd hlow hmiss]

/-- A frame counted after its lookup, and nothing more. -/
theorem counted_shows {i : Nat} (hi : i < 64) (hfree : d.fenced n = false) :
    Only (lookup n bs d).2 (stat n i 1 (lookup n bs d).2) (statFields n i) ∧ (stat n i 1 (lookup n bs d).2).sram = d.sram ∧
    (stat n i 1 (lookup n bs d).2).rd (CHn_STATi.COUNT n i) = (d.rd (CHn_STATi.COUNT n i) + 1) % 2 ^ 32 ∧
    (stat n i 1 (lookup n bs d).2).pm = d.pm := by
  have hfree' : (lookup n bs d).2.fenced n = false := lookup_fenced.trans hfree
  have htally := lookup_tally (n := n) n bs d
  have hpm : (stat n i 1 (lookup n bs d).2).pm = d.pm :=
    ((lookup_beyond n bs d).trans (stat_beyond i 1)).part Dev.pm fun _ _ _ => rfl
  have hstat := stat_stands (d := (lookup n bs d).2) (n := n) i 1
  exact ⟨hstat.only, hstat.2.trans htally.2, by rw [stat_counts hi hfree', htally.rd (tally_count hi)], hpm⟩

/-- The part after the lookup reads the same whatever has left it before. -/
theorem lookedUp_rd {m : Mote} (s : State) (g : Field) : (lookup n bs (atMote m s.quiet)).2.rd g = (LookedUp n m bs s).rd g := by
  rw [State.quiet, atMote_withOuts, lookup_outs]
  rfl

/-- A frame that ends counted at i after its lookup. -/
theorem rxFrame_counted {m : Mote} {s : State} {i : Nat} {fs : List Field} (hi : i < 64) (hsub : statFields n i ⊆ fs) (hheard : Heard n pcs s)
    (hx : rxFrame n m .express pcs bs s.quiet = stat n i 1 (lookup n bs (atMote m s.quiet)).2) :
    Ends (.rxFrame n m .express pcs bs) s fun e => Only (LookedUp n m bs s) e fs ∧ e.sram = s.dev.sram ∧
      e.rd (CHn_STATi.COUNT n i) = (s.dev.rd (CHn_STATi.COUNT n i) + 1) % 2 ^ 32 := by
  obtain ⟨hhears, -, -, hclean⟩ := hheard
  have hhears' : s.quiet.hears n = true := hhears
  obtain ⟨-, hfree, -⟩ := hears_parts ((hears_atMote m).trans hhears')
  obtain ⟨honly, hsram, hcount, hpm⟩ := counted_shows (bs := bs) hi hfree
  rw [← hx] at honly hsram hcount hpm
  refine ends_run (f := queueing (rxFrame n m .express pcs bs)) (fun _ => rfl) ?_
  rw [queueing_same (d := s.quiet) hclean (hpm.trans (atMote_pm m s.quiet))]
  refine ⟨fun g hg => ?_, hsram.trans (atMote_sram m s.quiet), hcount.trans ?_⟩
  · rw [honly g fun f hf => hg f (hsub hf), lookedUp_rd]
  · rw [atMote_rd]
    rfl

end

end Sys2Proof.Machine
end

section
/-!
PROOFS. Free cells: when a frame finds some, and that an advance of the Hearth takes none (R120, R160, R216).
-/

namespace Sys2Proof.Machine

/-- How many of the m cells from k on are not used. -/
def freeFrom (used : List Nat) (k m : Nat) : Nat := ((List.range' k m).filter fun j => !used.contains j).length

section
variable {used less : List Nat} {k m n : Nat}

theorem freeFrom_succ : freeFrom used k (m + 1) = (if used.contains k then 0 else 1) + freeFrom used (k + 1) m := by
  unfold freeFrom
  rw [List.range'_succ]
  by_cases h : used.contains k = true
  · rw [List.filter_cons_of_neg (by rw [h]; decide), if_pos h, Nat.zero_add]
  · rw [List.filter_cons_of_pos (by rw [Bool.not_eq_true _ |>.mp h]; rfl), if_neg h, List.length_cons, Nat.add_comm]

/-- The search takes what it needs, or all that is free where it looks. -/
theorem pickCells_length (used : List Nat) (fuel k n : Nat) :
    (pickCells used fuel k n).length = min n (freeFrom used k (min fuel (cellCount - k))) := by
  induction fuel generalizing k n with
  | zero => simp [pickCells, freeFrom]
  | succ fuel ih =>
    unfold pickCells
    split
    next h =>
      rcases h with rfl | h
      · simp
      · simp [Nat.sub_eq_zero_of_le h, freeFrom]
    next h =>
      obtain ⟨hn, hk⟩ := not_or.mp h
      have hm : min (fuel + 1) (cellCount - k) = min fuel (cellCount - (k + 1)) + 1 := by omega
      rw [hm, freeFrom_succ]
      split
      · rw [ih, Nat.zero_add]
      · rw [List.length_cons, ih]
        omega

theorem freeFrom_mono {m' : Nat} (h : m ≤ m') : freeFrom used k m ≤ freeFrom used k m' :=
  ((List.range'_sublist_right.mpr h).filter _).length_le

theorem freeFrom_anti (h : less ⊆ used) : freeFrom used k m ≤ freeFrom less k m := by
  refine (List.monotone_filter_right _ fun j hj => ?_).length_le
  simp only [Bool.not_eq_true', List.contains_eq_mem, decide_eq_false_iff_not] at hj ⊢
  exact fun hl => hj (h hl)

/-- All but the used ones are free. -/
theorem le_freeFrom : m ≤ freeFrom used k m + used.length := by
  have hused : ((List.range' k m).filter fun j => used.contains j).length ≤ used.length := by
    refine List.Subperm.length_le (List.Nodup.subperm (List.Nodup.filter _ List.nodup_range') fun j hj => ?_)
    simpa using List.of_mem_filter hj
  have hall := List.length_eq_length_filter_add (l := List.range' k m) fun j => used.contains j
  rw [List.length_range'] at hall
  unfold freeFrom
  omega

/-- The search among as many cells as are used and needed finds n where n are free. -/
theorem pickCells_finds : (pickCells used (used.length + n) 0 n).length = n ↔ n ≤ freeFrom used 0 cellCount := by
  rw [pickCells_length, Nat.sub_zero, min_eq_left_iff]
  constructor
  · exact fun h => h.trans (freeFrom_mono (Nat.min_le_right _ _))
  · intro h
    rcases Nat.le_total (used.length + n) cellCount with hle | hle
    · rw [Nat.min_eq_left hle]
      have := le_freeFrom (used := used) (k := 0) (m := used.length + n)
      omega
    · rwa [Nat.min_eq_right hle]

end

section
variable {d e : Dev}

theorem alloc_isSome_iff {l : Nat} :
    (d.alloc l).isSome = true ↔ cellsFor l ≤ freeFrom (d.cellsHeld ++ d.pm.retired) 0 cellCount := by
  rw [← pickCells_finds, Dev.alloc, Dev.allocMore]
  simp only [List.append_nil, List.length_nil, Nat.sub_zero]
  split <;> simp_all

/-- What has been purged at one CLK has been purged at a later one. -/
theorem purging_sublist (hpm : e.pm = d.pm) (hclk : d.hearth.clk ≤ e.hearth.clk) : e.purging.Sublist d.purging := by
  unfold Dev.purging
  rw [hpm]
  refine List.monotone_filter_right _ fun p hp => ?_
  simp only [decide_eq_true_eq] at hp ⊢
  omega

theorem atMote_clk (m : Nat) (d : Dev) : d.hearth.clk ≤ (atMote m d).hearth.clk := by
  unfold atMote
  dsimp only
  split
  · exact Nat.le_add_right _ _
  · exact Nat.le_refl _

/-- Cells free in d are free at a mote of its frame. -/
theorem atMote_alloc {m l : Nat} (h : (d.alloc l).isSome = true) : ((atMote m d).alloc l).isSome = true := by
  rw [alloc_isSome_iff] at h ⊢
  refine h.trans (freeFrom_anti ?_)
  have hclk := atMote_clk m d
  obtain ⟨x, he⟩ := atMote_eq m d
  rw [he] at hclk ⊢
  have hpurge : ({ d with hearth := x } : Dev).purging ⊆ d.purging := (purging_sublist (d := d) (e := { d with hearth := x }) rfl hclk).subset
  intro c hc
  simp only [Dev.cellsHeld, List.mem_append, List.mem_map] at hc ⊢
  rcases hc with (((hframe | hasm) | hin) | ⟨p, hp, hcell⟩) | hret
  · exact .inl (.inl (.inl (.inl hframe)))
  · exact .inl (.inl (.inl (.inr hasm)))
  · exact .inl (.inl (.inr hin))
  · exact .inl (.inr ⟨p, hpurge hp, hcell⟩)
  · exact .inr hret

theorem atMote_beFull {m c : Nat} (h : d.beFull c = false) : (atMote m d).beFull c = false := by
  have hclk := atMote_clk m d
  obtain ⟨x, he⟩ := atMote_eq m d
  rw [he] at hclk ⊢
  have hcells : ({ d with hearth := x } : Dev).beCells ≤ d.beCells :=
    Nat.add_le_add_left ((purging_sublist (d := d) (e := { d with hearth := x }) rfl hclk).filter _).length_le _
  have hlimit : ({ d with hearth := x } : Dev).rd PMC_BE_LIMIT.UNITS = d.rd PMC_BE_LIMIT.UNITS := rfl
  rw [Dev.beFull, decide_eq_false_iff_not] at h ⊢
  rw [hlimit]
  omega

end

end Sys2Proof.Machine
end

section
/-!
PROOFS. Reception: a first fragment, a frame decided for one channel; the obligation (R160, R169, R180, R185).
-/

namespace Sys2Proof.Machine

section
variable {d e : Dev} {n : Fin 4} {m : Nat} {bs : Bytes}

/-! ### The first fragment of a frame (R169) -/

theorem asmStore_short {a : Asm} (hdec : a.dec = none) (hshort : a.data.length ≤ 64) :
    asmStore n a d = pmemSync (d.chMod n fun c => { c with asm := some a }) := by
  unfold asmStore
  dsimp only
  rw [hdec]
  dsimp only
  rw [if_neg (show ¬ 128 ≤ a.data.length by omega)]
  dsimp only
  rw [if_pos (.inl hshort)]
  obtain ⟨frame, frag, data, ts, tsOk, dec, cells, ovf⟩ := a
  obtain rfl : dec = none := hdec
  rfl

theorem rxChecked_start {frame : Fin 4} {t : Nat} {tsOk late : Bool} (hen : d.on (CHn_PREEMPT_CFG.EN n) = true)
    (hasm : (d.ch n).asm = none) (hshort : bs.length ≤ 64) :
    rxChecked n t tsOk late (.start frame true true) bs d = pmemSync ((passOver n frame false d).chMod n fun c =>
      { c with asm := some { frame := frame, data := bs, ts := d.rxStamp n t, tsOk := tsOk } }) := by
  unfold rxChecked
  dsimp only
  rw [hen, if_neg (by decide), asmDiscard_none hasm, if_neg (by decide)]
  exact asmStore_short rfl hshort

/-- Reassembly as it begins. -/
theorem rxChecked_start_shows {frame : Fin 4} {t : Nat} {tsOk late : Bool} (hen : d.on (CHn_PREEMPT_CFG.EN n) = true)
    (hasm : (d.ch n).asm = none) (hshort : bs.length ≤ 64) (hlen : d.chan.length = 4) :
    let e := rxChecked n t tsOk late (.start frame true true) bs d
    Stands (Outside [16, 21]) d e ∧ e.pm.upsets ⊆ d.pm.upsets ∧
      (e.ch n).asm = some { frame := frame, data := bs, ts := d.rxStamp n t, tsOk := tsOk } := by
  rw [rxChecked_start hen hasm hshort]
  have hpmem : ∀ f ∈ pmemFields, Free (Outside [16, 21]) f := free_inBlocks (by decide)
  refine ⟨Stands.pmemSync ((Stands.refl _ d).chMod.chMod) hpmem, (Swept.pmemSync (Swept.refl _)).upsets, ?_⟩
  rw [((Work.refl _ _).pmemSync hpmem).ch n, ch_chMod]
  rw [passOver, chan_length]
  omega

/-! ### A frame decided for one channel (R185) -/

theorem steerAll_single {q : Decision} {k : Fin 4} (hmask : q.mask = 2 ^ k.val) (hfollow : q.follow = false) :
    steerAll q d = ([k.val], d) := by
  have hsteer (j : Nat) (y : Dev) : steer j q y = (some j, y) := by
    unfold steer
    rw [hfollow]
    rfl
  unfold steerAll
  fin_cases k <;> simp [hsteer, hmask, bit]

theorem routeMask_single {k : Fin 4} {x : Frm} (hmask : x.dec.mask = 2 ^ k.val) (hfollow : x.dec.follow = false)
    (hok : d.copyOk k x = true) : routeMask x d = enqueue k x d := by
  unfold routeMask
  rw [steerAll_single hmask hfollow]
  simp [hok]

/-- A frame that channel k takes joins its queue. -/
theorem enqueue_takes {k : Nat} {x : Frm} (hmax : x.data.length ≤ d.rd (CHn_MAX_LEN.MAX k)) (hfree : d.shut k = false)
    (hrun : d.chRun k = 2) : enqueue k x d = flowUpdate (pmemSync (d.chMod k fun c =>
      { c with queues := c.queues.modify x.tc fun q => q ++ [{ x with qFr := d.frameExt }] })) := by
  have hshut : (d.fenced k || (d.ch k).fencing) = false := hfree
  unfold enqueue
  rw [if_neg (Nat.not_lt.mpr hmax), hshut, if_neg Bool.false_ne_true, if_pos (.inr hrun)]

/-- The registers that decide whether a channel takes a copy: STATUS and MAX_LEN. -/
def Posted (g : Field) : Prop := g.off % 0x4000 = 4 ∨ g.off % 0x4000 = 12

theorem stat_posted {i : Nat} (hi : i < 64) : ∀ f ∈ statFields n i, Free Posted f := by
  intro f hf g hg
  simp only [statFields, List.mem_cons, List.not_mem_nil, or_false] at hf
  refine apart_of_off fun hoff => ?_
  rw [Posted, hoff] at hg
  rcases hf with rfl | rfl | rfl
  · simp only [CHn_STATi.COUNT, CHn_STATi.addr] at hg
    omega
  · split at hg <;> simp only [CHn_STAT_HALF0.HALF, CHn_STAT_HALF0.addr, CHn_STAT_HALF1.HALF, CHn_STAT_HALF1.addr] at hg <;> omega
  · simp only [CHn_EVENT.STAT_HALF, CHn_EVENT.addr] at hg
    omega

theorem posted (k : Nat) : Posted (CHn_MAX_LEN.MAX k) ∧ Posted (CHn_STATUS.FENCED k) ∧ Posted (CHn_STATUS.RUN k) := by
  simp only [Posted, CHn_MAX_LEN.MAX, CHn_MAX_LEN.addr, CHn_STATUS.FENCED, CHn_STATUS.RUN, CHn_STATUS.addr]
  omega

/-! ### Frames and octets received (Table 7.4) -/

theorem dmacKind_lt (bs : Bytes) : dmacKind bs < 3 := by
  unfold dmacKind
  split_ifs <;> omega

theorem rxCount_eq : rxCount n bs d = stat n (2 + dmacKind bs) 1 (stat n 1 bs.length (stat n 0 1 d)) := by
  have h (i k : Nat) (x : Dev) : rxStat n i k x = stat n i k x := if_pos n.isLt
  rw [rxCount, h, h, h]

theorem rxCount_beyond : Beyond d (rxCount n bs d) := by
  rw [rxCount_eq]
  exact ((stat_beyond 0 1).trans (stat_beyond 1 _)).trans (stat_beyond _ 1)

theorem rxCount_posted : Stands Posted d (rxCount n bs d) := by
  have hstat (i v : Nat) (hi : i < 64) (x : Dev) : Stands Posted x (stat n i v x) :=
    ((Work.refl Posted x).stat (stat_posted hi)).stands
  have := dmacKind_lt bs
  rw [rxCount_eq]
  exact ((hstat 0 1 (by decide) _).trans (hstat 1 _ (by decide) _)).trans (hstat _ 1 (by omega) _)

theorem rxCount_counts (hfree : d.fenced n = false) :
    (rxCount n bs d).rd (CHn_STATi.COUNT n 0) = (d.rd (CHn_STATi.COUNT n 0) + 1) % 2 ^ 32 ∧
    (rxCount n bs d).rd (CHn_STATi.COUNT n 1) = (d.rd (CHn_STATi.COUNT n 1) + bs.length) % 2 ^ 32 := by
  have hkind : 2 + dmacKind bs ≠ 0 ∧ 2 + dmacKind bs ≠ 1 := by omega
  rw [rxCount_eq, stat_other hkind.1.symm, stat_other hkind.2.symm, stat_other (by decide), stat_counts (by decide) hfree,
    stat_counts (by decide) (stat_fenced.trans hfree), stat_other (by decide)]
  exact ⟨rfl, rfl⟩

/-! ### From the checks to the queue -/

/-- Channel k takes a frame of l bytes. -/
structure Takes (k l : Nat) (d : Dev) : Prop where
  len : l ≤ d.rd (CHn_MAX_LEN.MAX k)
  open_ : d.shut k = false
  run : d.chRun k = 2

theorem Takes.copyOk {k : Nat} {x : Frm} (h : Takes k x.data.length d) : d.copyOk k x = true := by
  obtain ⟨hlen, hopen, hrun⟩ := h
  simp [Dev.copyOk, hlen, hopen, hrun]

theorem Takes.congr {k l : Nat} (h : Takes k l d) (hs : Stands Posted d e) (hch : (e.ch k).fencing = (d.ch k).fencing) :
    Takes k l e := by
  obtain ⟨hlen, hopen, hrun⟩ := h
  obtain ⟨hmax, hfenced, hrunf⟩ := posted k
  refine ⟨by rwa [hs.rd hmax], ?_, by rwa [Dev.chRun, hs.rd hrunf]⟩
  rwa [Dev.shut, Dev.fenced, hs.on hfenced, hch]

theorem freDecide_plain {src : Nat} {slot : Option (Nat × Nat)} {q : Decision} (h : q.frer = false) :
    freDecide src slot q bs d = (⟨true, bs, none⟩, d) := if_pos (by rw [h]; rfl)

/-- A frame decided for channel k alone, which takes it: it is counted and queued there. -/
theorem ingressWith_single {q : Decision} {k : Fin 4} {ts : Nat} {tsOk : Bool} {cells : List Nat} (hkind : q.kind = 0)
    (hmask : q.mask = 2 ^ k.val) (hfrer : q.frer = false) (hfollow : q.follow = false)
    (halloc : d.alloc bs.length = some cells) (hroom : d.beFull (cellsFor bs.length) = false) (htakes : Takes k bs.length d) :
    ∃ x y, ingressWith q n none ts tsOk (some []) false bs d = enqueue k x (rxCount n bs y) ∧
      x.data = bs ∧ x.src = n ∧ x.tc = q.tc ∧ (∃ h p, y = { d with host := h, pm := p }) ∧ y.pm.upsets ⊆ d.pm.upsets := by
  have hheld : ((some []).bind fun cs => d.allocMore cs bs.length) = some cells := halloc
  unfold ingressWith
  rw [freDecide_plain hfrer]
  dsimp only
  rw [hheld]
  dsimp only
  rw [hroom, Bool.or_self, Bool.and_false, if_neg Bool.false_ne_true]
  have huse (i : Nat) (y : Dev) : useCredit q i y = y := if_neg (by omega)
  rw [huse, newId, hkind]
  have hshape : ∃ h p, writeCells cells (d.hostMod fun h => { h with nextId := h.nextId + 1 }) = { d with host := h, pm := p } :=
    ⟨_, _, rfl⟩
  have hups : (writeCells cells (d.hostMod fun h => { h with nextId := h.nextId + 1 })).pm.upsets ⊆ d.pm.upsets :=
    List.filter_subset_self _
  have hy : Stands Posted d (writeCells cells (d.hostMod fun h => { h with nextId := h.nextId + 1 })) :=
    (Stands.refl _ d).parts rfl rfl
  generalize writeCells cells (d.hostMod fun h => { h with nextId := h.nextId + 1 }) = y at hshape hups hy
  have hch : y.ch k = d.ch k := by
    obtain ⟨_, _, rfl⟩ := hshape
    rfl
  simp only [Bool.not_true, Bool.false_eq_true, if_false, OfNat.zero_ne_ofNat]
  refine ⟨_, _, routeMask_single hmask hfollow (Takes.copyOk ?_), rfl, rfl, rfl, hshape, hups⟩
  exact htakes.congr (hy.trans rxCount_posted) (congrArg Chan.fencing ((rxCount_beyond.ch k).trans hch))

theorem wakeReport_other (hn : n ≠ 0) : wakeReport n bs d = d := if_neg fun h => hn (Fin.ext h.1)

/-- A whole frame that passes checks 2 to 7 on a channel but CH0. -/
theorem rxWhole_passes {t ts : Nat} {tsOk late : Bool} {held : Option (List Nat)} {q : Decision} (hn : n ≠ 0) (hmin : 64 ≤ bs.length)
    (hmax : bs.length ≤ d.rd (CHn_MAX_LEN.MAX n)) (hgood : fcsOk bs = true) (htype : beAt bs 12 2 ≠ 0x8808) :
    rxWhole n t ts tsOk false late held q bs d = ingressWith q n none ts tsOk held late bs d := by
  have hzero : (n : Nat) ≠ 0 := fun h => hn (Fin.ext h)
  unfold rxWhole
  dsimp only
  rw [if_neg (Nat.not_lt.mpr hmin), if_neg (Nat.not_lt.mpr hmax), hgood, Bool.not_true, if_neg Bool.false_ne_true,
    if_neg Bool.false_ne_true, wakeReport_other hn, if_neg htype, if_neg hzero]

/-- What a frame counted and queued leaves. -/
theorem enqueue_counted {k : Fin 4} {x : Frm} {y : Dev} (htakes : Takes k x.data.length y) (hfree : y.fenced n = false)
    (hlen : y.chan.length = 4) (hqueues : (y.ch k).queues.length = 8) (htc : x.tc < 8) :
    let e := enqueue k x (rxCount n bs y)
    (∃ z : Frm, z.data = x.data ∧ z.src = x.src ∧ z.tc = x.tc ∧
      (e.ch k).queues.getD x.tc [] = (y.ch k).queues.getD x.tc [] ++ [z]) ∧
    e.rd (CHn_STATi.COUNT n 0) = (y.rd (CHn_STATi.COUNT n 0) + 1) % 2 ^ 32 ∧
    e.rd (CHn_STATi.COUNT n 1) = (y.rd (CHn_STATi.COUNT n 1) + bs.length) % 2 ^ 32 ∧ e.pm.upsets ⊆ y.pm.upsets := by
  have hbeyond : Beyond y (rxCount n bs y) := rxCount_beyond
  have hcounts := rxCount_counts (bs := bs) hfree
  have htakes' := htakes.congr rxCount_posted (congrArg Chan.fencing (hbeyond.ch k))
  generalize rxCount n bs y = w at hbeyond hcounts htakes'
  obtain ⟨hmax, hopen, hrun⟩ := htakes'
  rw [enqueue_takes hmax hopen hrun]
  have hlen' : (k : Nat) < w.chan.length := by rw [hbeyond.chan, hlen]; exact k.isLt
  have hups : w.pm.upsets = y.pm.upsets := congrArg Pmem.upsets (hbeyond.part Dev.pm fun _ _ _ => rfl)
  have hch := hbeyond.ch k
  generalize hz : ({ x with qFr := w.frameExt } : Frm) = z
  have hjoin := ch_chMod (d := w) (g := fun c => { c with queues := c.queues.modify x.tc fun q => q ++ [z] }) hlen'
  generalize hmod : (w.chMod k fun c => { c with queues := c.queues.modify x.tc fun q => q ++ [z] }) = v at hjoin
  have hstands : Stands (Tally n) w v := hmod ▸ (Stands.refl _ w).chMod
  have hvups : v.pm.upsets = w.pm.upsets := by rw [← hmod]; rfl
  have hsync := (Stands.refl (Tally n) v).pmemSync pmem_tally
  have hpause := (Paused.refl (Tally n) (pmemSync v)).flowUpdate xoff_tally
  have hrd {i : Nat} (hi : i < 64) : (flowUpdate (pmemSync v)).rd (CHn_STATi.COUNT n i) = w.rd (CHn_STATi.COUNT n i) := by
    rw [hpause.rd _ (tally_count hi), hsync.rd (tally_count hi), hstands.rd (tally_count hi)]
  refine ⟨⟨z, by rw [← hz], by rw [← hz], by rw [← hz], ?_⟩, (hrd (by decide)).trans hcounts.1, (hrd (by decide)).trans hcounts.2, ?_⟩
  · rw [hpause.queues, ((Work.refl _ v).pmemSync (pmem_tally (n := n))).ch, hjoin, hch]
    simp [List.getD_eq_getElem?_getD, hqueues, htc]
  · obtain ⟨r, c, he⟩ := hpause.shape
    rw [he, ← hups, ← hvups]
    exact (Swept.pmemSync (Swept.refl v)).upsets

/-! ### The part after a lookup -/

/-- What the lookup of a frame at mote m leaves of cells, channels and a channel's registers. -/
theorem lookedUp_parts (n : Fin 4) (m : Nat) (bs : Bytes) (d : Dev) : let e := (lookup n bs (atMote m d)).2
    (∀ l, (d.alloc l).isSome = true → (e.alloc l).isSome = true) ∧ (∀ c, d.beFull c = false → e.beFull c = false) ∧
    e.chan = d.chan ∧ e.pm = d.pm := by
  have hbeyond := lookup_beyond n bs (atMote m d)
  refine ⟨fun l hl => ?_, fun c hc => ?_, hbeyond.chan.trans (atMote_chan m d), (hbeyond.part Dev.pm fun _ _ _ => rfl).trans (atMote_pm m d)⟩
  · rw [hbeyond.part (·.alloc l) fun _ _ _ => rfl]
    exact atMote_alloc hl
  · rw [← atMote_beFull (m := m) hc, Dev.beFull, Dev.beFull, lookup_rd (by decide) (by decide),
      hbeyond.part Dev.beCells fun _ _ _ => rfl]

/-- The same of the registers of channel k. -/
theorem lookedUp_rd_channel (n k : Fin 4) (m : Nat) (bs : Bytes) (d : Dev) : let e := (lookup n bs (atMote m d)).2
    e.rd (CHn_MAX_LEN.MAX k) = d.rd (CHn_MAX_LEN.MAX k) ∧ e.fenced k = d.fenced k ∧ e.chRun k = d.chRun k := by
  have hrd {f : Field} (h : f.off < 0x238000 ∧ f.off ≠ CLS_MISS_CNT.addr) : (lookup n bs (atMote m d)).2.rd f = d.rd f :=
    (lookup_rd h.1 h.2).trans (atMote_rd m d f)
  have hlist := channel_low k
  simp only [List.forall_mem_cons, List.not_mem_nil, false_implies, implies_true, and_true] at hlist
  obtain ⟨hmax, hfen, hrun⟩ := hlist
  exact ⟨hrd hmax, congrArg (· != 0) (hrd hfen), hrd hrun⟩

end

/-- A frame or mPacket that ends counted at i without a lookup. -/
theorem rxFrame_refused {s : State} {n : Fin 4} {m : Mote} {mp : MPkt} {pcs : Pcs} {bs : Bytes} {i : Nat} (hi : i < 64)
    (hheard : Heard n pcs s) (hx : rxFrame n m mp pcs bs s.quiet = stat n i 1 (atMote m s.quiet)) :
    Ends (.rxFrame n m mp pcs bs) s fun e => Only s.dev e (statFields n i) ∧ e.sram = s.dev.sram ∧
      e.rd (CHn_STATi.COUNT n i) = (s.dev.rd (CHn_STATi.COUNT n i) + 1) % 2 ^ 32 := by
  obtain ⟨hhears, -, -, hclean⟩ := hheard
  obtain ⟨-, hfree, -⟩ := hears_parts ((hears_atMote (d := s.quiet) m).trans hhears)
  have hstat := stat_stands (d := atMote m s.quiet) (n := n) i 1
  have hpm := (stat_beyond (d := atMote m s.quiet) (n := n) i 1).part Dev.pm fun _ _ _ => rfl
  refine ends_run (f := queueing (rxFrame n m mp pcs bs)) (fun _ => rfl) ?_
  rw [queueing_same (d := s.quiet) hclean (by rw [hx, hpm, atMote_pm]), hx]
  refine ⟨fun g hg => (hstat.1 g hg).trans (atMote_rd m s.quiet g), hstat.2.trans (atMote_sram m s.quiet), ?_⟩
  rw [stat_counts hi hfree, atMote_rd]
  rfl

theorem Ends.imp {c : Instr} {s : State} {P Q : Dev → Prop} (h : Ends c s P) (hPQ : ∀ e, P e → Q e) : Ends c s Q := by
  obtain ⟨e, he, hp⟩ := h
  exact ⟨e, he, hPQ e hp⟩

/-- A frame whose length a check refuses: counted at one counter with a good FCS, at another with a bad one. -/
theorem length_counted {s : State} {n : Fin 4} {m : Mote} {pcs : Pcs} {bs : Bytes} {i j : Nat} {fs : List Field}
    (hi : i < 64) (hj : j < 64) (hheard : Heard n pcs s) (hsi : statFields n i ⊆ fs) (hsj : statFields n j ⊆ fs)
    (hx : rxFrame n m .express pcs bs s.quiet = stat n (if fcsOk bs then i else j) 1 (lookup n bs (atMote m s.quiet)).2) :
    Ends (.rxFrame n m .express pcs bs) s fun e => Only (LookedUp n m bs s) e fs ∧ e.sram = s.dev.sram ∧
      (fcsOk bs = true → e.rd (CHn_STATi.COUNT n i) = (s.dev.rd (CHn_STATi.COUNT n i) + 1) % 2 ^ 32) ∧
      (fcsOk bs = false → e.rd (CHn_STATi.COUNT n j) = (s.dev.rd (CHn_STATi.COUNT n j) + 1) % 2 ^ 32) := by
  cases hgood : fcsOk bs
  · rw [hgood, if_neg Bool.false_ne_true] at hx
    refine (rxFrame_counted hj hsj hheard hx).imp fun e he => ?_
    exact ⟨he.1, he.2.1, fun h => absurd h (by decide), fun _ => he.2.2⟩
  · rw [hgood, if_pos rfl] at hx
    refine (rxFrame_counted hi hsi hheard hx).imp fun e he => ?_
    exact ⟨he.1, he.2.1, fun _ => he.2.2, fun h => absurd h (by decide)⟩

/-- A whole frame that passes check 1, before its lookup counts. -/
theorem rxFrame_express {n : Fin 4} {m : Nat} {pcs : Pcs} {bs : Bytes} {s : State} (h : Passed n pcs s) :
    rxFrame n m .express pcs bs s.quiet = rxWhole n ((atMote m s.quiet).endOf n (atMote m s.quiet).nowExt bs.length)
      ((atMote m s.quiet).rxStamp n (atMote m s.quiet).nowExt) (atMote m s.quiet).valid false pcs.ovf (some [])
      (lookup n bs (atMote m s.quiet)).1 bs (lookup n bs (atMote m s.quiet)).2 := by
  obtain ⟨⟨hhears, hblocks, hfec, -⟩, hok, hrecal⟩ := h
  rw [rxFrame_checked (d := s.quiet) hhears hblocks hfec hok hrecal, rxChecked_express]

/-- A first fragment is held for reassembly. -/
theorem rxFrame_starts {s : State} {n frame : Fin 4} {m : Mote} {pcs : Pcs} {data : Bytes} (hpass : Passed n pcs s)
    (hen : s.dev.on (CHn_PREEMPT_CFG.EN n) = true) (hasm : (s.dev.ch n).asm = none) (hlen : s.dev.chan.length = 4)
    (hshort : data.length ≤ 64) :
    Ends (.rxFrame n m (.start frame true true) pcs data) s fun e => Within s.dev e [16, 21] ∧ e.sram = s.dev.sram ∧
      (e.ch n).asm = some { frame := frame, data := data, ts := s.dev.rxStamp n (atMote m s.dev).nowExt, tsOk := s.dev.valid } := by
  obtain ⟨⟨hhears, hblocks, hfec, hclean⟩, hok, hrecal⟩ := hpass
  have hx := rxFrame_checked (d := s.quiet) (m := m) (mp := .start frame true true) (bs := data) hhears hblocks hfec hok hrecal
  have hch : (atMote m s.quiet).ch n = s.dev.ch n := by rw [Dev.ch, atMote_chan]; rfl
  have hsync := rxChecked_start_shows (d := atMote m s.quiet) (n := n) (bs := data) (frame := frame)
    (t := (atMote m s.quiet).nowExt) (tsOk := (atMote m s.quiet).valid) (late := pcs.ovf)
    (by rw [Dev.on, atMote_rd]; exact hen) (by rw [hch]; exact hasm) hshort (by rw [atMote_chan]; exact hlen)
  rw [← hx] at hsync
  obtain ⟨hstands, hups, hheld⟩ := hsync
  refine ends_run (f := queueing (rxFrame n m (.start frame true true) pcs data)) (fun _ => rfl) ?_
  rw [queueing_clean (d := s.quiet) hclean (by rw [← atMote_pm m s.quiet]; exact hups)]
  refine ⟨fun g hg => (hstands.1 g hg).trans (atMote_rd m s.quiet g), hstands.2.trans (atMote_sram m s.quiet), ?_⟩
  have hstamp (t : Nat) : (atMote m s.quiet).rxStamp n t = s.dev.rxStamp n t := by
    simp only [Dev.rxStamp, Dev.latRx, atMote_rd]
    rfl
  have hvalid : (atMote m s.quiet).valid = s.dev.valid := by
    rw [Dev.valid, Dev.on, atMote_rd]
    rfl
  rw [hheld, hstamp, hvalid]
  have hnow : (atMote m s.quiet).nowExt = (atMote m s.dev).nowExt := atMote_nowExt m []
  rw [hnow]

/-- A frame that passes and is decided for channel k alone is queued there. -/
theorem rxFrame_queued {s : State} {n k : Fin 4} {m : Mote} {pcs : Pcs} {data : Bytes} {q : Decision} (hpass : Passed n pcs s)
    (hovf : pcs.ovf = false) (hmin : 64 ≤ data.length) (hmax : data.length ≤ s.dev.rd (CHn_MAX_LEN.MAX n))
    (hgood : fcsOk data = true) (htype : beAt data 12 2 ≠ 0x8808) (hn : n ≠ 0) (hq : (lookup n data (atMote m s.dev)).1 = q)
    (hkind : q.kind = 0) (hmask : q.mask = 2 ^ k.val) (htc : q.tc < 8) (hfrer : q.frer = false) (hfollow : q.follow = false)
    (hfree : s.dev.fenced k = false) (hfencing : (s.dev.ch k).fencing = false) (hrun : s.dev.chRun k = 2)
    (hfits : data.length ≤ s.dev.rd (CHn_MAX_LEN.MAX k)) (halloc : (s.dev.alloc data.length).isSome = true)
    (hroom : s.dev.beFull (cellsFor data.length) = false) (hqueues : ∀ c ∈ s.dev.chan, c.queues.length = 8)
    (hlen : s.dev.chan.length = 4) :
    Ends (.rxFrame n m .express pcs data) s fun e => ((e.ch k).queues.getD q.tc []).map (fun x => (x.data, x.src, x.tc)) =
        ((s.dev.ch k).queues.getD q.tc []).map (fun x => (x.data, x.src, x.tc)) ++ [(data, n.val, q.tc)] ∧
      e.rd (CHn_STATi.COUNT n 0) = (s.dev.rd (CHn_STATi.COUNT n 0) + 1) % 2 ^ 32 ∧
      e.rd (CHn_STATi.COUNT n 1) = (s.dev.rd (CHn_STATi.COUNT n 1) + data.length) % 2 ^ 32 := by
  have hx := rxFrame_express (m := m) (bs := data) hpass
  obtain ⟨⟨hhears, -, -, hclean⟩, -, -⟩ := hpass
  obtain ⟨hcells, hbest, hchan, hpm⟩ := lookedUp_parts n m data s.quiet
  obtain ⟨hlenN, hfreeN, -⟩ := lookedUp_rd_channel n n m data s.quiet
  obtain ⟨hlenK, hfreeK, hrunK⟩ := lookedUp_rd_channel n k m data s.quiet
  have hone : (lookup n data (atMote m s.quiet)).1 = q := by
    rw [← hq, State.quiet, atMote_withOuts, lookup_outs]
  have htally := (lookup_tally (n := n) n data (atMote m s.quiet))
  rw [hone, hovf] at hx
  generalize (lookup n data (atMote m s.quiet)).2 = y at hx hcells hbest hchan hpm hlenN hfreeN hlenK hfreeK hrunK htally
  have hch : y.ch k = s.dev.ch k := by rw [Dev.ch, hchan]; rfl
  have htakes : Takes k data.length y := ⟨by rw [hlenK]; exact hfits, by
    rw [Dev.shut, hfreeK, hch, hfencing, Bool.or_false]
    exact hfree,
    hrunK.trans hrun⟩
  obtain ⟨cells, hcell⟩ := Option.isSome_iff_exists.mp (hcells _ halloc)
  rw [rxWhole_passes hn hmin (by rw [hlenN]; exact hmax) hgood htype] at hx
  obtain ⟨x, z, hin, hdata, hsrc, htcx, ⟨h, p, hz⟩, hups⟩ :=
    ingressWith_single (n := n) hkind hmask hfrer hfollow hcell (hbest _ hroom) htakes
  rw [hin] at hx
  have hzch : z.chan = s.dev.chan := by rw [hz]; exact hchan
  have hzpost : Takes k x.data.length z := by
    rw [hdata]
    exact htakes.congr (by rw [hz]; exact (Stands.refl _ y).parts rfl rfl) (by rw [hz]; rfl)
  obtain ⟨⟨v, hvdata, hvsrc, hvtc, hqueue⟩, hframes, hoctets, hupsz⟩ := enqueue_counted (n := n) (bs := data) hzpost
    (by rw [hz]; exact hfreeN.trans (hears_parts (d := s.quiet) hhears).2.1) (by rw [hzch, hlen])
    (by rw [Dev.ch, hzch, List.getD_eq_getElem _ _ (by omega)]; exact hqueues _ (List.getElem_mem _)) (by rw [htcx]; exact htc)
  refine ends_run (f := queueing (rxFrame n m .express pcs data)) (fun _ => rfl) ?_
  rw [queueing_clean (d := s.quiet) hclean (by rw [hx, ← hpm]; exact List.Subset.trans hupsz hups), hx]
  rw [htcx] at hqueue
  have hzrd {i : Nat} (hi : i < 64) : z.rd (CHn_STATi.COUNT n i) = s.dev.rd (CHn_STATi.COUNT n i) := by
    rw [hz]
    exact (htally.rd (tally_count hi)).trans (atMote_rd m s.quiet _)
  rw [hqueue, hframes, hoctets, hzrd (by decide), hzrd (by decide), List.map_append, Dev.ch, hzch]
  refine ⟨?_, rfl, rfl⟩
  rw [List.map_singleton, hvdata, hvsrc, hvtc, hdata, hsrc, htcx]
  rfl

/-- Settles O20, one check of Table 7.2 at a time. -/
theorem reception : Obligations.Reception := by
  unfold Obligations.Reception
  intro s
  refine ⟨fun n m pcs data hheard hok => ?_, fun n m pcs data hpass hmin => ?_, fun n m pcs data hpass hmin hmax => ?_,
    fun n m pcs data hpass hmin hmax hbad => ?_, fun n m pcs data hpass => ?_,
    fun n frame m pcs data hpass hen hasm hlen hshort => ?_, fun n m pkt pcs data hlive hclean => ?_,
    fun n m pcs data k q hpass hovf hmin hmax hgood htype hn hq hkind hmask htc hfrer hfollow hfree hfencing hrun hfits
      halloc hroom hqueues hlen => ?_⟩
  · exact rxFrame_refused (by decide) hheard (rxFrame_stopped (d := s.quiet) hheard.1 hheard.2.1 hheard.2.2.1 hok)
  · exact length_counted (i := 9) (j := 10) (by decide) (by decide) hpass.1 (by simp [statFields]) (by simp [statFields])
      ((rxFrame_express hpass).trans (rxWhole_short hmin))
  · obtain ⟨hlen, -⟩ := lookedUp_rd_channel n n m data s.quiet
    exact length_counted (i := 11) (j := 12) (by decide) (by decide) hpass.1 (by simp [statFields]) (by simp [statFields])
      ((rxFrame_express hpass).trans (rxWhole_long hmin (by rw [hlen]; exact hmax)))
  · obtain ⟨hlen, -⟩ := lookedUp_rd_channel n n m data s.quiet
    exact rxFrame_counted (by decide) (List.Subset.refl _) hpass.1
      ((rxFrame_express hpass).trans (rxWhole_damaged hmin (by rw [hlen]; exact hmax) hbad))
  · obtain ⟨hheard, hok, hrecal⟩ := hpass
    refine rxFrame_refused (by decide) hheard ?_
    rw [rxFrame_checked (d := s.quiet) hheard.1 hheard.2.1 hheard.2.2.1 hok hrecal, rxChecked_other]
  · exact rxFrame_starts hpass hen hasm hlen hshort
  · have hdead : rxFrame n m pkt pcs data s.quiet = atMote m s.quiet := rxFrame_dead (d := s.quiet) hlive
    refine does_run (f := queueing (rxFrame n m pkt pcs data)) (fun _ => rfl) ?_
    rw [queueing_same (d := s.quiet) hclean (by rw [hdead, atMote_pm]), hdead]
    exact ⟨Wrote.atMote m s.quiet, atMote_chan m s.quiet, atMote_host m s.quiet⟩
  · exact rxFrame_queued hpass hovf hmin hmax hgood htype hn hq hkind hmask htc hfrer hfollow hfree hfencing hrun hfits halloc
      hroom hqueues hlen

end Sys2Proof.Machine
end

section
/-!
PROOFS. A frame starts on the wire, or preempts one (R168, R186).
-/

namespace Sys2Proof.Machine

section
variable {d : Dev} {n : Fin 4} {k m : Nat} {x : Frm}

theorem upsetsCome_nil (d : Dev) : upsetsCome [] d = d := by simp [upsetsCome, Dev.pmMod]

theorem txRead_clean {y : Option Frm} {early : Bool} (h : d.pm.upsets = []) : txRead y early d = d := by
  cases y with
  | none => rfl
  | some y => exact if_pos (by rw [h]; rfl)

/-- What the head of queue k is on the wire, begun at t. -/
def headWire (n k t : Nat) (x : Frm) (d : Dev) : Wire :=
  { kind := if d.pmacClass n k then .pmac else .express, frm := x, first := t, start := t, tsOk := d.valid,
    code := if d.pmacClass n k then (d.ch n).smd else 0 }

/-- The head of queue k begins: only its channel changes. -/
theorem startNext_queue (hgood : d.poisoned x = false) (hlen : d.chan.length = 4) :
    let e := startNext n (.queue k x) d
    (∃ c, e = { d with chan := c }) ∧ (e.ch n).cur = some (headWire n k d.nowExt x d) ∧
      (e.ch n).queues = (d.ch n).queues.modify k (·.drop 1) ∧ (e.ch n).pre = (d.ch n).pre := by
  have hn : (n : Nat) < d.chan.length := by omega
  have hmod (g : Chan → Chan) : (((d.chMod n fun c => { c with queues := c.queues.modify k (·.drop 1) }).chMod n g).ch n) =
      g { d.ch n with queues := (d.ch n).queues.modify k (·.drop 1) } := by
    rw [ch_chMod (by rw [chan_length]; exact hn), ch_chMod hn]
  unfold startNext headWire
  dsimp only
  rw [hgood, if_neg Bool.false_ne_true]
  cases hclass : d.pmacClass n k
  · simp only [Bool.false_eq_true, if_false]
    rw [hmod]
    exact ⟨⟨_, rfl⟩, rfl, rfl, rfl⟩
  · simp only [if_true]
    rw [hmod]
    exact ⟨⟨_, rfl⟩, rfl, rfl, rfl⟩

theorem startRead_queue (hups : d.pm.upsets = []) (hgood : d.poisoned x = false) (hlen : d.chan.length = 4) :
    startRead n (.queue k x) d = startNext n (.queue k x) d := by
  obtain ⟨⟨c, hc⟩, -⟩ := startNext_queue (n := n) (k := k) hgood hlen
  unfold startRead
  dsimp only
  rw [txRead_clean hups, txRead_clean (by rw [hc]; exact hups)]
  exact if_neg (by simp)

theorem canStart_free (h : d.canStart n = true) : d.fenced n = false := by
  simp only [Dev.canStart, Bool.and_eq_true, Bool.not_eq_true'] at h
  obtain ⟨⟨-, hfree⟩, -⟩ := h
  exact hfree

theorem atMote_start (h : d.canStart n = true) : (atMote m d).canStart n = true := by
  obtain ⟨x, he⟩ := atMote_eq m d
  rw [he]
  exact h

theorem atMote_finish (h : d.canFinish n = false) : (atMote m d).canFinish n = false := by
  obtain ⟨x, he⟩ := atMote_eq m d
  rw [he]
  exact h

theorem txFrameStart_first (hstart : d.canStart n = true) (hfinish : d.canFinish n = false) (hcur : (d.ch n).cur = none) :
    txFrameStart n [] m d = startRead n ((atMote m d).nextTx n false) (atMote m d) := by
  have hcur' : ((atMote m d).ch n).cur = none := by rw [Dev.ch, atMote_chan]; exact hcur
  unfold txFrameStart
  rw [upsetsCome_nil]
  dsimp only
  rw [atMote_finish hfinish, if_neg Bool.false_ne_true, atMote_start hstart, Bool.not_true, if_neg Bool.false_ne_true, hcur']

/-- The frame w as it waits after s more bytes. -/
def Wire.interrupted (s : Nat) (w : Wire) : Wire := { w with sent := w.sent + s, frags := w.frags + 1 }

/-- The mPacket of w goes out with s more bytes, and w waits. -/
def mpacketOut (n s : Nat) (w : Wire) (d : Dev) : Dev :=
  (putPacket n w true ((w.frm.data.drop w.sent).take s) d).chMod n fun c => { c with cur := none, pre := some (w.interrupted s) }

theorem txFrameStart_preempts {w : Wire} (hstart : d.canStart n = true) (hfinish : d.canFinish n = false)
    (hcur : (d.ch n).cur = some w) (hactive : d.on (CHn_PREEMPT_STATUS.ACTIVE n) = true)
    (hmay : (atMote m d).mayPreempt n w = true) (hnext : (atMote m d).nextTx n true = .queue k x) :
    txFrameStart n [] m d =
      startRead n (.queue k x) (stat n 32 1 (mpacketOut n ((atMote m d).sentNow n w) w (atMote m d))) := by
  have hcur' : ((atMote m d).ch n).cur = some w := by rw [Dev.ch, atMote_chan]; exact hcur
  have hactive' : (atMote m d).on (CHn_PREEMPT_STATUS.ACTIVE n) = true := by rw [Dev.on, atMote_rd]; exact hactive
  unfold txFrameStart mpacketOut
  rw [upsetsCome_nil]
  dsimp only
  rw [atMote_finish hfinish, if_neg Bool.false_ne_true, atMote_start hstart, Bool.not_true, if_neg Bool.false_ne_true, hcur']
  dsimp only
  rw [hmay, hactive', hnext]
  exact if_pos rfl

/-! ### What the end of an mPacket shows -/

theorem stat_outs {i v : Nat} : (stat n i v d).outs = d.outs := by
  unfold stat
  exact Mute.ite (.refl d) (.ite (.ev (.ite (.wr (.wr (.refl d))) (.wr (.wr (.refl d))))) (.wr (.refl d)))

/-- What the counts of an mPacket may write. -/
def fragFields (n : Nat) : List Field :=
  [CHn_STATi.COUNT n 32, CHn_STATi.COUNT n 33, CHn_STAT_HALF1.HALF n, CHn_EVENT.STAT_HALF n]

/-- The last mPacket of w is counted where it continues the frame. -/
def fragCounted (n : Nat) (w : Wire) (d : Dev) : Dev := if w.frags = 0 then d else stat n 33 1 d

theorem fragCounted_shows (w : Wire) (d : Dev) : Stands (Beside (fragFields n)) d (fragCounted n w d) ∧
    Beyond d (fragCounted n w d) ∧ (fragCounted n w d).outs = d.outs ∧ (fragCounted n w d).fenced n = d.fenced n ∧
    (fragCounted n w d).rd (CHn_STATi.COUNT n 32) = d.rd (CHn_STATi.COUNT n 32) := by
  unfold fragCounted
  split
  · exact ⟨.refl _ d, .refl d, rfl, rfl, rfl⟩
  · exact ⟨(stat_stands 33 1).widen (by simp [statFields, fragFields]), stat_beyond 33 1, stat_outs, stat_fenced,
      stat_other (by decide)⟩

theorem putPacket_sent {w : Wire} {more : Bool} {bs : Bytes} (hloop : (d.ch n).loop ≠ 1) : putPacket n w more bs d =
    (fragCounted n w d).emit (.mpacket n (if w.frags = 0 then .start w.code more true
      else .cont w.code (Fin.ofNat 4 (w.frags - 1)) more true) bs) := by
  have hloop' : ((fragCounted n w d).ch n).loop ≠ 1 := by
    rw [(fragCounted_shows w d).2.1.ch]
    exact hloop
  unfold putPacket
  dsimp only
  unfold fragCounted at hloop' ⊢
  rw [if_neg hloop']

theorem mpacketOut_shows {w : Wire} (s : Nat) (hloop : (d.ch n).loop ≠ 1) (hlen : d.chan.length = 4) :
    let e := mpacketOut n s w d
    Stands (Beside (fragFields n)) d e ∧ (∃ r o c, e = { d with regs := r, outs := o, chan := c }) ∧
      (e.ch n).pre = some (w.interrupted s) ∧ e.chan.length = 4 ∧
      e.outs = d.outs ++ [.mpacket n (if w.frags = 0 then .start w.code true true
        else .cont w.code (Fin.ofNat 4 (w.frags - 1)) true true) ((w.frm.data.drop w.sent).take s)] ∧
      e.fenced n = d.fenced n ∧ e.rd (CHn_STATi.COUNT n 32) = d.rd (CHn_STATi.COUNT n 32) := by
  obtain ⟨hstands, hbeyond, houts, hfenced, hcount⟩ := fragCounted_shows (n := n) w d
  unfold mpacketOut
  rw [putPacket_sent hloop]
  generalize fragCounted n w d = y at *
  generalize (if w.frags = 0 then MPkt.start w.code true true else _) = p
  refine ⟨hstands.emit.chMod, ?_, ?_, ?_, by rw [← houts]; rfl, hfenced, hcount⟩
  · obtain ⟨r, o, rfl⟩ := hbeyond
    exact ⟨_, _, _, rfl⟩
  · rw [ch_chMod (by rw [Dev.emit, hbeyond.chan, hlen]; exact n.isLt)]
  · rw [chan_length, Dev.emit, hbeyond.chan, hlen]

/-! ### Loopback (R155) -/

/-- What a channel with LOOP = 1 sends to itself. -/
def returns : Out → Bool
  | .looped .. => true
  | .loopedMark .. => true
  | _ => false

/-- Nothing that has left comes back. -/
theorem loopBack_none (h : ∀ o ∈ d.outs, returns o = false) : loopBack d = d := by
  unfold loopBack
  refine foldl_still (g := fun o d => _) fun o ho => ?_
  have hout := h o ho
  cases o with
  | looped => exact absurd hout Bool.noConfusion
  | loopedMark => exact absurd hout Bool.noConfusion
  | _ => rfl

end

/-! ### From the command to the wire -/

section
variable {s : State} {n : Fin 4} {m : Mote} {k : Nat} {x : Frm}

/-- The effect of a start, where nothing returns and packet memory stands. -/
theorem frameStart_ends {P : Dev → Prop} (hclean : s.dev.pm.upsets = [])
    (hout : ∀ o ∈ (txFrameStart n [] m s.quiet).outs, returns o = false) (hpm : (txFrameStart n [] m s.quiet).pm = s.dev.pm)
    (h : P (txFrameStart n [] m s.quiet)) : Ends (.txFrameStart n [] m) s P := by
  refine ends_run (f := queueing fun d => loopBack (txFrameStart n [] m d)) (fun _ => rfl) ?_
  have hback : loopBack (txFrameStart n [] m s.quiet) = txFrameStart n [] m s.quiet := loopBack_none hout
  have hbad (j : Fin 4) : s.quiet.queueBad j = false := by
    rw [Dev.queueBad, show s.quiet.pm.upsets = [] from hclean]
    rfl
  rw [queueing_same (d := s.quiet) hbad (by rw [hback]; exact hpm), hback]
  exact h

theorem txFrameStart_begins (hstart : s.dev.canStart n = true) (hfinish : s.dev.canFinish n = false)
    (hcur : (s.dev.ch n).cur = none) (hnext : (atMote m s.dev).nextTx n false = .queue k x) (hgood : s.dev.poisoned x = false)
    (hclean : s.dev.pm.upsets = []) (hlen : s.dev.chan.length = 4) :
    Does (.txFrameStart n [] m) s [] fun e => (e.ch n).cur = some (headWire n k (atMote m s.dev).nowExt x s.dev) ∧
      (e.ch n).queues = (s.dev.ch n).queues.modify k (·.drop 1) := by
  have hnext' : (atMote m s.quiet).nextTx n false = .queue k x := by
    rw [← hnext, State.quiet, atMote_withOuts]
    rfl
  have hups : (atMote m s.quiet).pm.upsets = [] := by rw [atMote_pm]; exact hclean
  have hgood' : (atMote m s.quiet).poisoned x = false := by rw [Dev.poisoned, atMote_pm]; exact hgood
  have hx := txFrameStart_first (d := s.quiet) (m := m) hstart hfinish hcur
  rw [hnext', startRead_queue hups hgood' (by rw [atMote_chan]; exact hlen)] at hx
  obtain ⟨⟨c, hc⟩, hwire, hqueues, -⟩ := startNext_queue (n := n) (k := k) hgood' (by rw [atMote_chan]; exact hlen)
  rw [← hx] at hc hwire hqueues
  have hch : (atMote m s.quiet).ch n = s.dev.ch n := by rw [Dev.ch, atMote_chan]; rfl
  refine frameStart_ends hclean ?_ ?_ ⟨?_, ?_, ?_⟩
  · rw [hc]
    simp
  · rw [hc]
    exact atMote_pm m s.quiet
  · rw [hc]
    exact (Wrote.atMote m s.quiet).parts rfl rfl
  · have hhead (t : Nat) : headWire n k t x (atMote m s.quiet) = headWire n k t x s.dev := by
      simp only [headWire, Dev.pmacClass, Dev.on, Dev.bitOf, Dev.valid, atMote_rd, hch]
      rfl
    have hnow : (atMote m s.quiet).nowExt = (atMote m s.dev).nowExt := atMote_nowExt m []
    rw [hwire, hhead, hnow]
  · rw [hqueues, hch]

theorem txFrameStart_interrupts {w : Wire} (hstart : s.dev.canStart n = true) (hfinish : s.dev.canFinish n = false)
    (hcur : (s.dev.ch n).cur = some w) (hactive : s.dev.on (CHn_PREEMPT_STATUS.ACTIVE n) = true)
    (hmay : (atMote m s.dev).mayPreempt n w = true) (hnext : (atMote m s.dev).nextTx n true = .queue k x)
    (hgood : s.dev.poisoned x = false) (hloop : (s.dev.ch n).loop ≠ 1) (hclean : s.dev.pm.upsets = [])
    (hlen : s.dev.chan.length = 4) :
    Ends (.txFrameStart n [] m) s fun e => Only s.dev e (fragFields n) ∧ e.sram = s.dev.sram ∧
      (e.ch n).pre = some (w.interrupted ((atMote m s.dev).sentNow n w)) ∧ (e.ch n).cur.map (·.frm) = some x ∧
      e.outs = [.mpacket n (if w.frags = 0 then .start w.code true true
        else .cont w.code (Fin.ofNat 4 (w.frags - 1)) true true) ((w.frm.data.drop w.sent).take ((atMote m s.dev).sentNow n w))] ∧
      e.rd (CHn_STATi.COUNT n 32) = (s.dev.rd (CHn_STATi.COUNT n 32) + 1) % 2 ^ 32 := by
  have hquiet : atMote m s.quiet = { atMote m s.dev with outs := [] } := by rw [State.quiet, atMote_withOuts]
  have hnext' : (atMote m s.quiet).nextTx n true = .queue k x := by
    rw [← hnext, hquiet]
    rfl
  have hmay' : (atMote m s.quiet).mayPreempt n w = true := by
    rw [← hmay, hquiet]
    rfl
  have hsent : (atMote m s.quiet).sentNow n w = (atMote m s.dev).sentNow n w := by
    rw [hquiet]
    rfl
  have hx := txFrameStart_preempts (d := s.quiet) (m := m) hstart hfinish hcur hactive hmay' hnext'
  have hch : (atMote m s.quiet).ch n = s.dev.ch n := by rw [Dev.ch, atMote_chan]; rfl
  rw [hsent] at hx
  obtain ⟨hstands, ⟨r, o, c, hshape⟩, hpre, hlen', houts, hfenced, hcount⟩ := mpacketOut_shows (d := atMote m s.quiet) (n := n)
    (w := w) ((atMote m s.dev).sentNow n w) (by rw [hch]; exact hloop) (by rw [atMote_chan]; exact hlen)
  have hpm : (mpacketOut n ((atMote m s.dev).sentNow n w) w (atMote m s.quiet)).pm = s.dev.pm := by
    rw [hshape]
    exact atMote_pm m s.quiet
  generalize mpacketOut n ((atMote m s.dev).sentNow n w) w (atMote m s.quiet) = y at *
  have hbeyond := stat_beyond (d := y) (n := n) 32 1
  have hstat := (stat_stands (d := y) (n := n) 32 1).widen (gs := fragFields n) (by simp [statFields, fragFields])
  have hone : (stat n 32 1 y).rd (CHn_STATi.COUNT n 32) = (s.dev.rd (CHn_STATi.COUNT n 32) + 1) % 2 ^ 32 := by
    rw [stat_counts (by decide) ?_, hcount, atMote_rd]
    · rfl
    · rw [hfenced, Dev.fenced, Dev.on, atMote_rd]
      exact canStart_free hstart
  have hzouts : (stat n 32 1 y).outs = y.outs := stat_outs
  have hzpm : (stat n 32 1 y).pm = s.dev.pm := (hbeyond.part Dev.pm fun _ _ _ => rfl).trans hpm
  have hzch := hbeyond.ch n
  have hzlen := congrArg List.length hbeyond.chan
  generalize stat n 32 1 y = z at *
  rw [startRead_queue (by rw [hzpm]; exact hclean) (by rw [Dev.poisoned, hzpm]; exact hgood) (hzlen.trans hlen')] at hx
  obtain ⟨⟨c', hc⟩, hwire, -, hpre'⟩ := startNext_queue (d := z) (n := n) (k := k) (x := x) (by rw [Dev.poisoned, hzpm]; exact hgood)
    (hzlen.trans hlen')
  rw [← hx] at hc hwire hpre'
  have houts' : (txFrameStart n [] m s.quiet).outs = y.outs := by rw [hc]; exact hzouts
  rw [atMote_outputs] at houts
  refine frameStart_ends hclean ?_ ?_ ⟨?_, ?_, ?_, ?_, ?_, ?_⟩
  · rw [houts', houts]
    simp [returns]
  · rw [hc]
    exact hzpm
  · intro g hg
    rw [hc]
    exact (hstat.1 g hg).trans ((hstands.1 g hg).trans (atMote_rd m s.quiet g))
  · rw [hc]
    exact hstat.2.trans (hstands.2.trans (atMote_sram m s.quiet))
  · rw [hpre', hzch, hpre]
  · rw [hwire]
    rfl
  · rw [houts', houts]
    rfl
  · rw [hc]
    exact hone

end

end Sys2Proof.Machine
end

section
/-!
PROOFS. The last byte of a frame leaves: express frames, pause frames, the own receiver with LOOP = 1 (R138, R155, R163; Table 7.4).
-/

namespace Sys2Proof.Machine

section
variable {d e x : Dev} {n : Fin 4} {m : Nat} {w : Wire}

/-! ### What follows the counts of a frame -/

theorem retireFrame_pm (y : Frm) (d : Dev) : (retireFrame y d).pm = d.pm := by
  unfold retireFrame
  dsimp only
  split <;> split_ifs <;> rfl

/-- A frame that leaves brings no error into packet memory. -/
theorem leave_upsets (sent : Bool) (y : Frm) (d : Dev) : (leave sent y d).pm.upsets ⊆ d.pm.upsets := by
  have hsub {z : Dev} (hz : z.pm.upsets = d.pm.upsets) : (pmemSync z).pm.upsets ⊆ d.pm.upsets :=
    hz ▸ (Swept.pmemSync (Swept.refl z)).upsets
  unfold leave
  dsimp only
  split_ifs
  · exact hsub rfl
  · exact hsub rfl
  · exact hsub (congrArg Pmem.upsets (retireFrame_pm y d))
  · exact hsub rfl

/-- The statistics counters js of channel n. -/
def Counters (js : List (Fin 64)) (n : Fin 4) (g : Field) : Prop := ∃ j ∈ js, g = CHn_STATi.COUNT n j

variable {js : List (Fin 64)}

theorem counters_mem {j : Fin 64} (h : j ∈ js) : Counters js n (CHn_STATi.COUNT n j) := ⟨j, h, rfl⟩

theorem Counters.tally {g : Field} (h : Counters js n g) : Tally n g := by
  obtain ⟨j, -, rfl⟩ := h
  exact tally_count j.isLt

theorem counters_free {f : Field} (h : Free (Tally n) f) : Free (Counters js n) f := fun g hg => h g hg.tally

theorem counters_below : Below (Counters js n) := fun g hg => tally_below g hg.tally

theorem stat_counters {i : Nat} (h : ∀ j ∈ js, j.val ≠ i) : ∀ f ∈ statFields n i, Free (Counters js n) f := by
  rintro f hf g ⟨j, hj, rfl⟩
  exact stat_beside (h j hj) f hf

/-- From d to e nothing more leaves, the wire and the counters js stand, and no error comes. -/
structure Sent (js : List (Fin 64)) (n : Fin 4) (d e : Dev) : Prop where
  stands : Stands (Counters js n) d e
  outs : e.outs = d.outs
  cur : (e.ch n).cur = (d.ch n).cur
  upsets : e.pm.upsets ⊆ d.pm.upsets

theorem Sent.refl (js : List (Fin 64)) (n : Fin 4) (d : Dev) : Sent js n d d := ⟨.refl _ d, rfl, rfl, List.Subset.refl _⟩

theorem Sent.trans (h : Sent js n d e) (hx : Sent js n e x) : Sent js n d x :=
  ⟨h.stands.trans hx.stands, hx.outs.trans h.outs, hx.cur.trans h.cur, List.Subset.trans hx.upsets h.upsets⟩

theorem Sent.ite {c : Prop} [Decidable c] {y : Dev} (hx : Sent js n d x) (hy : Sent js n d y) : Sent js n d (if c then x else y) := by
  split
  · exact hx
  · exact hy

theorem Sent.wr {f : Field} {v : Nat} (h : Sent js n d e) (hf : Free (Tally n) f) : Sent js n d (e.wr f v) :=
  h.trans ⟨(Stands.refl _ e).wr (counters_free hf), wr_outs e f v, congrArg Chan.cur rfl, List.Subset.refl _⟩

theorem Sent.chMod {g : Chan → Chan} {k : Nat} (h : Sent js n d e) (hg : ∀ c, (g c).cur = c.cur) : Sent js n d (e.chMod k g) :=
  h.trans ⟨(Stands.refl _ e).chMod, rfl, chMod_keeps Chan.cur hg, List.Subset.refl _⟩

theorem Sent.stat {i v : Nat} (h : Sent js n d e) (hi : ∀ j ∈ js, j.val ≠ i) : Sent js n d (stat n i v e) :=
  h.trans ⟨((Work.refl _ e).stat (stat_counters hi)).stands, stat_outs, congrArg Chan.cur ((stat_beyond i v).ch n),
    by rw [(stat_beyond i v).part Dev.pm fun _ _ _ => rfl]; exact List.Subset.refl _⟩

theorem Sent.leave {sent : Bool} {y : Frm} (h : Sent js n d e) : Sent js n d (leave sent y e) := by
  have hwork : Work (Counters js n) e (Machine.leave sent y e) :=
    (Work.refl _ e).leave (fun f hf => counters_free (pmem_tally f hf)) counters_below
  exact h.trans ⟨hwork.stands, (Mute.refl e).leave, congrArg Chan.cur (hwork.ch n), leave_upsets sent y e⟩

theorem Sent.ptpStore {t mt seq : Nat} (h : Sent js n d e) : Sent js n d (ptpStore n t mt seq e) := by
  obtain ⟨hsec, hlost⟩ := (by decide : ∀ n : Fin 4, (CHn_PTP_TXTS0.SEC_LO n).off % 0x4000 < 0x400 ∧
    (CHn_EVENT.TS_OVERWRITE n).off % 0x4000 < 0x400) n
  unfold Machine.ptpStore
  exact .chMod (.ite ((h.wr (tally_free hsec)).wr (tally_free hlost)) (h.wr (tally_free hsec))) fun _ => rfl

theorem Sent.recalGo (h : Sent js n d e) : Sent js n d (recalGo n e) := by
  have hcal : Free (Tally n) (CHn_GATE_STATUS.CAL_ACTIVE n) := fun g hg => apart_of_off (by
    have := tally_off hg
    simp only [CHn_GATE_STATUS.CAL_ACTIVE, CHn_GATE_STATUS.addr]
    omega)
  unfold Machine.recalGo
  exact .ite ((h.wr hcal).chMod fun _ => rfl) h

/-! ### Frames of the host's classes -/

/-- The wire of channel n is free. -/
def wireFreed (n : Nat) (d : Dev) : Dev := d.chMod n fun c => { c with cur := none }

/-- An express frame out, counted with its octets. -/
def expressOut (n : Nat) (w : Wire) (d : Dev) : Dev :=
  stat n 25 w.frm.data.length (stat n 24 1 (putTx n w w.frm.data (wireFreed n d)))

theorem atMote_wire (h : (d.ch n).cur = some w) : ((atMote m d).ch n).cur = some w := by
  rw [Dev.ch, atMote_chan]
  exact h

theorem txFrameEnd_express (hcur : (d.ch n).cur = some w) (hkind : w.kind = .express) (hgood : d.poisoned w.frm = false)
    (hhost : w.frm.host = none) (hllb : w.frm.llb = none) (hgasp : w.frm.gasp = false) :
    Sent [24, 25] n (expressOut n w (atMote m d)) (txFrameEnd n m d) := by
  have hgood' : (atMote m d).poisoned w.frm = false := by rw [Dev.poisoned, atMote_pm]; exact hgood
  have hreturn (ts : Option Nat) (y : Dev) : hostReturn n 0 ts w.frm y = y := by rw [hostReturn, hhost]
  unfold txFrameEnd
  dsimp only
  rw [atMote_wire hcur]
  dsimp only
  rw [hkind]
  dsimp only
  rw [hgood', hllb, hgasp]
  simp only [hreturn, reduceCtorEq, Bool.false_eq_true, if_false, Dev.when]
  refine Sent.recalGo (Sent.leave ?_)
  have hkinds : Sent [24, 25] n (expressOut n w (atMote m d)) (stat n (26 + dmacKind w.frm.data) 1 (expressOut n w (atMote m d))) :=
    (Sent.refl _ n _).stat fun j hj => by
      have hlt := (by decide : ∀ j ∈ [(24 : Fin 64), 25], j.val < 26) j hj
      omega
  unfold expressOut wireFreed at hkinds ⊢
  generalize stat n 25 w.frm.data.length _ = b at *
  generalize stat n (26 + dmacKind w.frm.data) 1 b = c at *
  have hgate (p : Prop) [Decidable p] : Sent [24, 25] n b (if p then stat n 37 1 c else c) := .ite (hkinds.stat (by decide)) hkinds
  split
  · exact (hgate _).ptpStore
  · exact hgate _

theorem putTx_sent {bs : Bytes} (hloop : (d.ch n).loop ≠ 1) : putTx n w bs d = d.emit (.tx n bs) := by
  rw [putTx, if_neg hloop]

theorem wireFreed_loop : ((wireFreed n d).ch n).loop = (d.ch n).loop := chMod_keeps Chan.loop fun _ => rfl

theorem wireFreed_cur (hlen : d.chan.length = 4) : ((wireFreed n d).ch n).cur = none := by
  rw [wireFreed, ch_chMod (by omega)]

/-- What an express frame shows as it leaves. -/
theorem expressOut_shows (hloop : (d.ch n).loop ≠ 1) (hfree : d.fenced n = false) (hlen : d.chan.length = 4) :
    ((expressOut n w d).ch n).cur = none ∧ (expressOut n w d).outs = d.outs ++ [.tx n w.frm.data] ∧
    (expressOut n w d).rd (CHn_STATi.COUNT n 24) = (d.rd (CHn_STATi.COUNT n 24) + 1) % 2 ^ 32 ∧
    (expressOut n w d).rd (CHn_STATi.COUNT n 25) = (d.rd (CHn_STATi.COUNT n 25) + w.frm.data.length) % 2 ^ 32 ∧
    (expressOut n w d).pm = d.pm := by
  have hopen : ((wireFreed n d).emit (.tx n w.frm.data)).fenced n = false := hfree
  unfold expressOut
  rw [putTx_sent (by rw [wireFreed_loop]; exact hloop)]
  refine ⟨?_, ?_, ?_, ?_, ?_⟩
  · rw [(stat_beyond 25 _).ch, (stat_beyond 24 1).ch]
    exact wireFreed_cur hlen
  · rw [stat_outs, stat_outs]
    rfl
  · rw [stat_other (by decide), stat_counts (by decide) hopen]
    rfl
  · rw [stat_counts (by decide) (stat_fenced.trans hopen), stat_other (by decide)]
    rfl
  · exact ((stat_beyond 24 1).trans (stat_beyond 25 _)).part Dev.pm fun _ _ _ => rfl

/-! ### Pause frames -/

theorem recalGo_undue (h : (d.ch n).recalDue = false) : recalGo n d = d := if_neg (by rw [h, Bool.false_and]; exact Bool.false_ne_true)

/-- A pause frame out, counted. -/
def pauseOut (n : Nat) (w : Wire) (d : Dev) : Dev := putTx n w w.frm.data (stat n 29 1 (wireFreed n d))

theorem txFrameEnd_pause (hcur : (d.ch n).cur = some w) (hkind : w.kind = .pause) (hdue : (d.ch n).recalDue = false) :
    txFrameEnd n m d = pauseOut n w (atMote m d) := by
  have hdue' : ((pauseOut n w (atMote m d)).ch n).recalDue = false := by
    have hfreed : ((wireFreed n (atMote m d)).ch n).recalDue = ((atMote m d).ch n).recalDue :=
      chMod_keeps Chan.recalDue fun _ => rfl
    have hch : ((pauseOut n w (atMote m d)).ch n).recalDue = ((stat n 29 1 (wireFreed n (atMote m d))).ch n).recalDue := by
      unfold pauseOut
      rfl
    rw [hch, (stat_beyond 29 1).ch, hfreed, Dev.ch, atMote_chan]
    exact hdue
  unfold txFrameEnd
  dsimp only
  rw [atMote_wire hcur]
  dsimp only
  rw [hkind]
  exact recalGo_undue hdue'

/-- What a pause frame shows as it leaves: it goes out as o. -/
theorem pauseOut_shows (hfree : d.fenced n = false) (hlen : d.chan.length = 4) :
    Stands (Beside (statFields n 29)) d (pauseOut n w d) ∧ ((pauseOut n w d).ch n).cur = none ∧
    (pauseOut n w d).outs = d.outs ++ [if (d.ch n).loop = 1 then .looped n .express w.start w.frm.data else .tx n w.frm.data] ∧
    (pauseOut n w d).rd (CHn_STATi.COUNT n 29) = (d.rd (CHn_STATi.COUNT n 29) + 1) % 2 ^ 32 ∧
    (pauseOut n w d).pm = d.pm := by
  have hopen : (wireFreed n d).fenced n = false := hfree
  have hbeyond := stat_beyond (d := wireFreed n d) (n := n) 29 1
  have hstat := stat_stands (d := wireFreed n d) (n := n) 29 1
  have hcount := stat_counts (d := wireFreed n d) (n := n) (i := 29) (v := 1) (by decide) hopen
  have houts := stat_outs (d := wireFreed n d) (n := n) (i := 29) (v := 1)
  have hcur := wireFreed_cur (n := n) hlen
  have hloop := wireFreed_loop (d := d) (n := n)
  unfold pauseOut
  rw [putTx, hbeyond.ch, hloop]
  rw [← hbeyond.ch n] at hcur
  have hpm : (stat n 29 1 (wireFreed n d)).pm = d.pm := hbeyond.part Dev.pm fun _ _ _ => rfl
  have hfreed : Stands (Beside (statFields n 29)) d (wireFreed n d) := (Stands.refl _ d).chMod
  have hsame : (wireFreed n d).outs = d.outs := rfl
  rw [hsame] at houts
  generalize stat n 29 1 (wireFreed n d) = y at *
  exact ⟨(hfreed.trans hstat).emit, hcur, by rw [Dev.emit, houts], hcount, hpm⟩

end

end Sys2Proof.Machine
end

section
/-!
PROOFS. The end of a frame on the wire, as a command: frames counted, pause frames, loopback (R138, R155; Table 7.4).
-/

namespace Sys2Proof.Machine

section
variable {d e : Dev} {n : Fin 4} {bs : Bytes} {pcs : Pcs}

/-! ### What a frame brings before it is judged -/

/-- The counters of sent and received pause frames, and the registers that judge a frame. -/
def Judged (n : Fin 4) (g : Field) : Prop := Counters [29, 5] n g ∨ Posted g ∧ g.off < 0x30000

theorem judged_channel (n : Fin 4) : Judged n (CHn_MAX_LEN.MAX n) ∧ Judged n (CHn_STATUS.FENCED n) ∧ Judged n (CHn_STATUS.RUN n) := by
  obtain ⟨hmaxlow, hfenlow, hrunlow⟩ := (by decide : ∀ n : Fin 4, (CHn_MAX_LEN.MAX n).off < 0x30000 ∧
    (CHn_STATUS.FENCED n).off < 0x30000 ∧ (CHn_STATUS.RUN n).off < 0x30000) n
  obtain ⟨hmax, hfen, hrun⟩ := posted n
  exact ⟨.inr ⟨hmax, hmaxlow⟩, .inr ⟨hfen, hfenlow⟩, .inr ⟨hrun, hrunlow⟩⟩

theorem judged_free {f : Field} (hcount : Free (Counters [29, 5] n) f) (hpost : Free Posted f) : Free (Judged n) f :=
  fun g hg => hg.elim (hcount g) fun h => hpost g h.1

theorem judged_below : Below (Judged n) := by
  rintro g (hg | ⟨-, hlow⟩)
  · exact counters_below g hg
  · omega

theorem stat_judged {i : Nat} (hi : i < 64) (hj : ∀ j ∈ [(29 : Fin 64), 5], j.val ≠ i) : ∀ f ∈ statFields n i, Free (Judged n) f :=
  fun f hf => judged_free (stat_counters hj f hf) (stat_posted hi f hf)

/-- A register beside the counters and those that judge. -/
theorem judged_apart {f : Field} (hlow : f.off % 0x4000 < 0x400) (h4 : f.off % 0x4000 ≠ 4) (h12 : f.off % 0x4000 ≠ 12) :
    Free (Judged n) f :=
  judged_free (counters_free (tally_free hlow)) fun g hg => apart_of_off fun hoff => by
    rw [Posted, hoff] at hg
    omega

/-- What the wire has shown before the frame bs is judged: FEC counts, the lookup, a wake match. -/
def shown (n : Nat) (bs : Bytes) (d : Dev) : Dev := wakeReport n bs (lookup n bs (fecCounted n {} d)).2

theorem wakeReport_work {P : Field → Prop} (hcount : Free P (CHn_WAKE_CFG.MATCHES 0)) (hev : Free P (CHn_EVENT.WAKE_MATCH 0))
    (k : Nat) : Work P d (wakeReport k bs d) ∧ (wakeReport k bs d).outs = d.outs ∧ Beyond d (wakeReport k bs d) := by
  have hmatch : Work P d (countMatch d) := (Work.refl P d).wr hcount
  unfold wakeReport
  refine ⟨.ite (.ite (hmatch.ev hev) hmatch) (.refl P d), ?_, .ite (.evIf (Beyond.refl d).wr) (.refl d)⟩
  exact Mute.ite (.evIf (Mute.refl d).wr) (.refl d)

theorem fecCounted_shows : Stands (Judged n) d (fecCounted n pcs d) ∧ (fecCounted n pcs d).outs = d.outs ∧
    Beyond d (fecCounted n pcs d) := by
  unfold fecCounted
  split
  · exact ⟨.refl _ d, rfl, .refl d⟩
  · refine ⟨Work.stands (.stat ((Work.refl _ d).stat (stat_judged (by decide) (by decide))) (stat_judged (by decide) (by decide))), ?_,
      (stat_beyond 46 _).trans (stat_beyond 47 _)⟩
    rw [stat_outs, stat_outs]

theorem shown_shows (n : Fin 4) (bs : Bytes) (d : Dev) :
    Stands (Judged n) d (shown n bs d) ∧ (shown n bs d).outs = d.outs ∧ Beyond d (shown n bs d) := by
  obtain ⟨hfec, hfouts, hfpart⟩ := fecCounted_shows (n := n) (pcs := {}) (d := d)
  have hlook := lookup_stands (judged_below (n := n)) (judged_apart (by decide) (by decide) (by decide)) n bs (fecCounted n {} d)
  obtain ⟨hwake, hwouts, hwpart⟩ := wakeReport_work (d := (lookup n bs (fecCounted n {} d)).2) (bs := bs) (P := Judged n)
    (judged_apart (by decide) (by decide) (by decide)) (judged_apart (by decide) (by decide) (by decide)) n
  unfold shown
  exact ⟨(hfec.trans hlook).trans hwake.stands, hwouts.trans ((lookup_outputs n bs _).trans hfouts),
    (hfpart.trans (lookup_beyond n bs _)).trans hwpart⟩

/-! ### A pause frame comes back -/

theorem Sent.count {js : List (Fin 64)} {i : Nat} (h : Sent js n d e) (hi : i < 64) (hj : ⟨i, hi⟩ ∈ js) :
    e.rd (CHn_STATi.COUNT n i) = d.rd (CHn_STATi.COUNT n i) := h.stands.rd (counters_mem hj)

theorem rxWhole_pause {t ts : Nat} {tsOk late : Bool} {held : Option (List Nat)} {q : Decision} (hmin : 64 ≤ bs.length)
    (hmax : bs.length ≤ d.rd (CHn_MAX_LEN.MAX n)) (hgood : fcsOk bs = true) (htype : beAt bs 12 2 = 0x8808)
    (hop : beAt bs 14 2 = 1) :
    rxWhole n t ts tsOk false late held q bs d = pauseAt n (beAt bs 16 2) t (wakeReport n bs d) := by
  unfold rxWhole macControl
  dsimp only
  rw [if_neg (Nat.not_lt.mpr hmin), if_neg (Nat.not_lt.mpr hmax), hgood, Bool.not_true, if_neg Bool.false_ne_true, if_neg Bool.false_ne_true,
    if_pos htype, hop]
  rfl

theorem rxTake_pause {t : Nat} {tsOk : Bool} (hlive : d.rxLive n = true) (hfree : d.fenced n = false) (hrecal : (d.ch n).recal = false)
    (hmin : 64 ≤ bs.length) (hmax : bs.length ≤ d.rd (CHn_MAX_LEN.MAX n)) (hgood : fcsOk bs = true) (htype : beAt bs 12 2 = 0x8808)
    (hop : beAt bs 14 2 = 1) : ∃ t', rxTake n t tsOk .express {} bs d = pauseAt n (beAt bs 16 2) t' (shown n bs d) := by
  obtain ⟨hstands, -, hpart⟩ := fecCounted_shows (n := n) (pcs := {}) (d := d)
  obtain ⟨hlow, hmiss⟩ := channel_low n (CHn_MAX_LEN.MAX n) (by simp)
  refine ⟨(fecCounted n {} d).endOf n t bs.length, ?_⟩
  rw [rxTake_live hlive hfree rfl, hpart.ch, hrecal, Bool.not_true, Bool.or_false, if_neg Bool.false_ne_true, rxChecked_express,
    rxWhole_pause hmin ?_ hgood htype hop]
  · rfl
  · rw [lookup_rd hlow hmiss, hstands.rd (judged_channel n).1]
    exact hmax

theorem loopBack_looped {p : MPkt} {t : Nat} (h : d.outs = [.looped n p t bs]) : loopBack d = rxTake n t d.valid p {} bs d := by
  unfold loopBack
  rw [h]
  simp only [List.foldl_cons, List.foldl_nil]

variable {js : List (Fin 64)}

/-- After its count, a received pause frame writes no other counter than that of its quanta. -/
theorem pauseAt_sent {q t : Nat} (h7 : ∀ j ∈ js, j.val ≠ 7) : Sent js n (stat n 5 1 d) (pauseAt n q t d) := by
  have hstop : Free (Tally n) (CHn_STATUS.RX_PAUSED n) := tally_free (by revert n; decide)
  unfold pauseAt
  exact .ite (.chMod (.stat (.wr (.refl js n _) hstop) h7) fun _ => rfl) (.refl js n _)

/-- The pause frame that comes back is counted as sent and as received. -/
theorem pauseAt_counts {q t : Nat} (hfree : d.fenced n = false) : Sent [29] n d (pauseAt n q t d) ∧
    (pauseAt n q t d).rd (CHn_STATi.COUNT n 5) = (d.rd (CHn_STATi.COUNT n 5) + 1) % 2 ^ 32 := by
  have hcount := (pauseAt_sent (n := n) (d := d) (q := q) (t := t) (js := [5]) (by decide)).count (i := 5) (by decide) (by simp)
  exact ⟨((Sent.refl [29] n d).stat (by decide)).trans (pauseAt_sent (by decide)), hcount.trans (stat_counts (by decide) hfree)⟩

end

/-! ### From the wire to the command -/

section
variable {s : State} {n : Fin 4} {m : Mote} {w : Wire}

theorem frameEnd_ends {P : Dev → Prop} (hclean : QueuesClean s)
    (hups : (loopBack (txFrameEnd n m s.quiet)).pm.upsets ⊆ s.dev.pm.upsets) (h : P (loopBack (txFrameEnd n m s.quiet))) :
    Ends (.txFrameEnd n m) s P := by
  refine ends_run (f := queueing fun d => loopBack (txFrameEnd n m d)) (fun _ => rfl) ?_
  rw [queueing_clean (d := s.quiet) hclean hups]
  exact h

theorem quiet_fenced (h : s.dev.fenced n = false) : (atMote m s.quiet).fenced n = false := by
  rw [Dev.fenced, Dev.on, atMote_rd]
  exact h

theorem quiet_ch : (atMote m s.quiet).ch n = s.dev.ch n := by
  rw [Dev.ch, atMote_chan]
  rfl

theorem quiet_outs : (atMote m s.quiet).outs = [] := atMote_outputs m s.quiet

theorem quiet_length (h : s.dev.chan.length = 4) : (atMote m s.quiet).chan.length = 4 := by
  rw [atMote_chan]
  exact h

theorem txFrameEnd_counts (hcur : (s.dev.ch n).cur = some w) (hloop : (s.dev.ch n).loop ≠ 1) (hkind : w.kind = .express)
    (hgood : s.dev.poisoned w.frm = false) (hhost : w.frm.host = none) (hllb : w.frm.llb = none) (hgasp : w.frm.gasp = false)
    (hfree : s.dev.fenced n = false) (hclean : QueuesClean s) (hlen : s.dev.chan.length = 4) :
    Ends (.txFrameEnd n m) s fun e => (e.ch n).cur = none ∧ Out.tx n w.frm.data ∈ e.outs ∧
      e.rd (CHn_STATi.COUNT n 24) = (s.dev.rd (CHn_STATi.COUNT n 24) + 1) % 2 ^ 32 ∧
      e.rd (CHn_STATi.COUNT n 25) = (s.dev.rd (CHn_STATi.COUNT n 25) + w.frm.data.length) % 2 ^ 32 := by
  have hsent := txFrameEnd_express (d := s.quiet) (m := m) hcur hkind hgood hhost hllb hgasp
  obtain ⟨hwire, houts, hframes, hoctets, hpm⟩ := expressOut_shows (d := atMote m s.quiet) (w := w) (by rw [quiet_ch]; exact hloop)
    (quiet_fenced hfree) (quiet_length hlen)
  rw [quiet_outs, ← hsent.outs] at houts
  have hback : loopBack (txFrameEnd n m s.quiet) = txFrameEnd n m s.quiet := loopBack_none (by rw [houts]; simp [returns])
  refine frameEnd_ends hclean ?_ ?_
  · rw [hback]
    refine List.Subset.trans hsent.upsets ?_
    rw [hpm, atMote_pm]
    exact List.Subset.refl _
  · rw [hback]
    refine ⟨hsent.cur.trans hwire, by rw [houts]; simp, ?_, ?_⟩
    · rw [hsent.count (by decide) (by simp), hframes, atMote_rd]
      rfl
    · rw [hsent.count (by decide) (by simp), hoctets, atMote_rd]
      rfl

theorem txFrameEnd_pauses (hcur : (s.dev.ch n).cur = some w) (hloop : (s.dev.ch n).loop ≠ 1) (hkind : w.kind = .pause)
    (hdue : (s.dev.ch n).recalDue = false) (hfree : s.dev.fenced n = false) (hclean : QueuesClean s)
    (hlen : s.dev.chan.length = 4) :
    Ends (.txFrameEnd n m) s fun e => Only s.dev e (statFields n 29) ∧ e.sram = s.dev.sram ∧ (e.ch n).cur = none ∧
      e.outs = [.tx n w.frm.data] ∧ e.rd (CHn_STATi.COUNT n 29) = (s.dev.rd (CHn_STATi.COUNT n 29) + 1) % 2 ^ 32 := by
  have heq := txFrameEnd_pause (d := s.quiet) (m := m) hcur hkind hdue
  obtain ⟨hstands, hwire, houts, hcount, hpm⟩ := pauseOut_shows (d := atMote m s.quiet) (w := w) (quiet_fenced hfree)
    (quiet_length hlen)
  rw [quiet_outs, quiet_ch, if_neg hloop] at houts
  rw [← heq] at hstands hwire houts hcount hpm
  have hback : loopBack (txFrameEnd n m s.quiet) = txFrameEnd n m s.quiet := loopBack_none (by rw [houts]; simp [returns])
  refine frameEnd_ends hclean ?_ ?_
  · rw [hback, hpm, atMote_pm]
    exact List.Subset.refl _
  · rw [hback]
    refine ⟨fun g hg => (hstands.1 g hg).trans (atMote_rd m s.quiet g), hstands.2.trans (atMote_sram m s.quiet), hwire, houts, ?_⟩
    rw [hcount, atMote_rd]
    rfl

/-- Registers of other words than the counters of a channel stand when it counts. -/
theorem stat_word {d : Dev} {i v o : Nat} (h : o < 0x20000) : (stat n i v d).word o = d.word o := by
  have hne (f : Field) (hf : 0x20000 ≤ f.off) (x : Dev) (v : Nat) : (x.wr f v).word o = x.word o := word_wr_ne x f v o (by omega)
  have hcount := hne (CHn_STATi.COUNT n i) (by simp only [CHn_STATi.COUNT, CHn_STATi.addr]; omega)
  have hlow := hne (CHn_STAT_HALF0.HALF n) (by simp only [CHn_STAT_HALF0.HALF, CHn_STAT_HALF0.addr]; omega)
  have hhigh := hne (CHn_STAT_HALF1.HALF n) (by simp only [CHn_STAT_HALF1.HALF, CHn_STAT_HALF1.addr]; omega)
  have hev := hne (CHn_EVENT.STAT_HALF n) (by simp only [CHn_EVENT.STAT_HALF, CHn_EVENT.addr]; omega)
  unfold stat
  dsimp only
  split_ifs
  · rfl
  · rw [Dev.ev, hev, Dev.putBitOf, hlow, hcount]
  · rw [Dev.ev, hev, Dev.putBitOf, hhigh, hcount]
  · exact hcount _ _

theorem stat_rxLive {d : Dev} {i v : Nat} (hi : i < 64) : (stat n i v d).rxLive n = d.rxLive n := by
  have hrun : (stat n i v d).rd (CHn_STATUS.RUN n) = d.rd (CHn_STATUS.RUN n) :=
    ((Work.refl Posted d).stat (stat_posted hi)).stands.rd (posted n).2.2
  have hrat : (stat n i v d).rat = d.rat := (stat_beyond i v).part Dev.rat fun _ _ _ => rfl
  have hlane : (stat n i v d).rd RAT_DOM_STATUS.LANE_ON = d.rd RAT_DOM_STATUS.LANE_ON := by
    rw [Dev.rd, Dev.rd, stat_word (by decide)]
  rw [Dev.rxLive, Dev.rxLive, Dev.chRun, Dev.chRun, hrun, Dev.bitOf, Dev.bitOf, hlane, Dev.tier, Dev.tier, Dev.ratGet, Dev.ratGet,
    Dev.ratWord, Dev.ratWord, hrat, stat_word (by decide)]

/-- What a channel takes a frame by stands while a pause frame leaves. -/
theorem pauseOut_receives {d : Dev} {m : Nat} : (pauseOut n w (atMote m d)).rxLive n = d.rxLive n ∧
    ((pauseOut n w (atMote m d)).ch n).recal = (d.ch n).recal := by
  have hput (y : Dev) (bs : Bytes) : (putTx n w bs y).rxLive n = y.rxLive n ∧ (putTx n w bs y).ch n = y.ch n := by
    unfold putTx
    split <;> exact ⟨rfl, rfl⟩
  obtain ⟨hlive, hch⟩ := hput (stat n 29 1 (wireFreed n (atMote m d))) w.frm.data
  have hfreed : ((wireFreed n (atMote m d)).ch n).recal = ((atMote m d).ch n).recal := chMod_keeps Chan.recal fun _ => rfl
  obtain ⟨h, he⟩ := atMote_eq m d
  unfold pauseOut
  rw [hlive, hch, stat_rxLive (by decide), (stat_beyond 29 1).ch, hfreed, he]
  exact ⟨rfl, rfl⟩

theorem txFrameEnd_loops (hcur : (s.dev.ch n).cur = some w) (hloop : (s.dev.ch n).loop = 1) (hkind : w.kind = .pause)
    (hdue : (s.dev.ch n).recalDue = false) (hrecal : (s.dev.ch n).recal = false) (hlive : s.dev.rxLive n = true)
    (hfree : s.dev.fenced n = false) (hmin : 64 ≤ w.frm.data.length) (hmax : w.frm.data.length ≤ s.dev.rd (CHn_MAX_LEN.MAX n))
    (hgood : fcsOk w.frm.data = true) (htype : beAt w.frm.data 12 2 = 0x8808) (hop : beAt w.frm.data 14 2 = 1)
    (hclean : QueuesClean s) (hlen : s.dev.chan.length = 4) :
    Ends (.txFrameEnd n m) s fun e => (e.ch n).cur = none ∧ e.outs = [.looped n .express w.start w.frm.data] ∧
      e.rd (CHn_STATi.COUNT n 29) = (s.dev.rd (CHn_STATi.COUNT n 29) + 1) % 2 ^ 32 ∧
      e.rd (CHn_STATi.COUNT n 5) = (s.dev.rd (CHn_STATi.COUNT n 5) + 1) % 2 ^ 32 := by
  have heq := txFrameEnd_pause (d := s.quiet) (m := m) hcur hkind hdue
  obtain ⟨hstands, hwire, houts, hcount, hpm⟩ := pauseOut_shows (d := atMote m s.quiet) (w := w) (quiet_fenced hfree)
    (quiet_length hlen)
  rw [quiet_outs, quiet_ch, if_pos hloop] at houts
  obtain ⟨hlive', hrecal'⟩ := pauseOut_receives (d := s.quiet) (n := n) (m := m) (w := w)
  have hpost (g : Field) (hg : Posted g) : (pauseOut n w (atMote m s.quiet)).rd g = s.dev.rd g :=
    (hstands.1 g fun f hf => stat_posted (by decide) f hf g hg).trans (atMote_rd m s.quiet g)
  have hmax' := hpost _ (posted n).1
  have hfree' : (pauseOut n w (atMote m s.quiet)).fenced n = false := by
    rw [Dev.fenced, Dev.on, hpost _ (posted n).2.1]
    exact hfree
  have hfive := hstands.1 _ (stat_beside (n := n) (i := 5) (j := 29) (by decide))
  rw [atMote_rd] at hcount hfive
  rw [atMote_pm] at hpm
  rw [← heq] at hwire houts hcount hpm hlive' hrecal' hmax' hfree' hfive
  have hback := loopBack_looped houts
  refine And.elim (frameEnd_ends hclean) ?_
  generalize txFrameEnd n m s.quiet = y at *
  obtain ⟨t, htake⟩ := rxTake_pause (t := w.start) (tsOk := y.valid) (hlive'.trans hlive) hfree' (hrecal'.trans hrecal) hmin
    (by rw [hmax']; exact hmax) hgood htype hop
  obtain ⟨hshown, hsouts, hspart⟩ := shown_shows n w.frm.data y
  have hspm : (shown n w.frm.data y).pm = y.pm := hspart.part Dev.pm fun _ _ _ => rfl
  obtain ⟨hpause, hcounts⟩ := pauseAt_counts (n := n) (d := shown n w.frm.data y) (q := beAt w.frm.data 16 2) (t := t)
    ((hshown.on (judged_channel n).2.1).trans hfree')
  have hcounted (i : Fin 64) (hi : i ∈ [(29 : Fin 64), 5]) : (shown n w.frm.data y).rd (CHn_STATi.COUNT n i) = y.rd (CHn_STATi.COUNT n i) :=
    hshown.rd (.inl (counters_mem hi))
  rw [← htake, ← hback] at hpause hcounts
  refine ⟨?_, ?_⟩
  · refine List.Subset.trans hpause.upsets ?_
    rw [hspm, hpm]
    exact List.Subset.refl _
  · refine ⟨hpause.cur.trans ?_, hpause.outs.trans (hsouts.trans houts), ?_, ?_⟩
    · rw [hspart.ch]
      exact hwire
    · rw [hpause.count (by decide) (by simp)]
      exact (hcounted 29 (by simp)).trans hcount
    · exact hcounts.trans (congrArg (fun v => (v + 1) % 2 ^ 32) ((hcounted 5 (by simp)).trans hfive))

end

end Sys2Proof.Machine
end

section
/-!
PROOFS. Stamps read, a wake pattern; the obligation (R164, R172, R74).
-/

namespace Sys2Proof.Machine

section
variable {d : Dev}

/-! ### A read of TXTS0 (R164) -/

theorem regRead_txts0 (n : Fin 4) (hpd : d.pd 1 = true) : regRead false (CHn_PTP_TXTS0.addr n) d = txts0Read n d := by
  have haddr : CHn_PTP_TXTS0.addr n = 0x20030 + 0x4000 * n := rfl
  have hch : (CHn_PTP_TXTS0.addr n - 0x20000) / 0x4000 = n := by omega
  unfold regRead
  dsimp only
  rw [if_neg (by simp only [Bool.false_or, bne_iff_ne, ne_eq, not_not]; omega), if_neg (by simp only [RAT_RET_DATA.addr]; omega),
    if_pos ⟨by omega, by omega, by omega, hpd⟩, hch]

/-- The stamp words of channel n, each a whole register. -/
def stampWords (n : Fin 4) (p : List Nat) : List (Field × Nat) :=
  [(⟨CHn_PTP_TXTS1.addr n, 0, 32⟩, p.getD 0 0 % 2 ^ 32), (⟨CHn_PTP_TXTS2.addr n, 0, 32⟩, p.getD 1 0 % 2 ^ 32),
   (⟨CHn_PTP_TXTS3.addr n, 0, 32⟩, p.getD 2 0 % 2 ^ 32)]

theorem fits_of_off {f : Field} {ws : List (Field × Nat)} (hw : f.lo + f.w ≤ 32) (h : ∀ x ∈ ws, x.1.off ≠ f.off) :
    fits f ws = true := by
  rw [fits, Bool.and_eq_true, decide_eq_true_iff, List.all_eq_true]
  exact ⟨hw, fun x hx => Bool.and_eq_true_iff.mpr ⟨apart_of_off (h x hx), apart_of_off (h x hx).symm⟩⟩

/-- The words p stand in the stamp registers. -/
def stampsShown (n : Nat) (p : List Nat) (d : Dev) : Dev :=
  ((d.setWord (CHn_PTP_TXTS1.addr n) (p.getD 0 0)).setWord (CHn_PTP_TXTS2.addr n) (p.getD 1 0)).setWord
    (CHn_PTP_TXTS3.addr n) (p.getD 2 0)

theorem stampsShown_wrote (n : Fin 4) (p : List Nat) (d : Dev) : Wrote d (stampsShown n p d) (stampWords n p) := by
  have h0 := fits_of_off (f := ⟨CHn_PTP_TXTS1.addr n, 0, 32⟩) (ws := []) (Nat.le_refl _) (by simp)
  have h1 (v : Nat) := fits_of_off (f := ⟨CHn_PTP_TXTS2.addr n, 0, 32⟩) (ws := [(⟨CHn_PTP_TXTS1.addr n, 0, 32⟩, v)]) (Nat.le_refl _)
    (by simp [CHn_PTP_TXTS1.addr, CHn_PTP_TXTS2.addr])
  have h2 (v w : Nat) := fits_of_off (f := ⟨CHn_PTP_TXTS3.addr n, 0, 32⟩)
    (ws := [(⟨CHn_PTP_TXTS1.addr n, 0, 32⟩, v), (⟨CHn_PTP_TXTS2.addr n, 0, 32⟩, w)]) (Nat.le_refl _)
    (by simp [CHn_PTP_TXTS1.addr, CHn_PTP_TXTS2.addr, CHn_PTP_TXTS3.addr])
  unfold stampsShown
  rw [setWord_eq_wr, setWord_eq_wr, setWord_eq_wr]
  exact (((Wrote.refl d).wrMod h0).wrMod (h1 _)).wrMod (h2 _ _)

theorem stampsShown_beyond (n : Fin 4) (p : List Nat) (d : Dev) : Beyond d (stampsShown n p d) := (Beyond.refl d).setWord.setWord.setWord

theorem stampsShown_outs (n : Fin 4) (p : List Nat) (d : Dev) : (stampsShown n p d).outs = d.outs := rfl

/-- The words of a stamp that was read: its marks are gone. -/
def stampsRead (p : List Nat) (c : Chan) : Chan := { c with ptp := [p.getD 0 0, p.getD 1 0, p.getD 2 0 % 2 ^ 20] }

theorem txts0Read_eq (n : Nat) (d : Dev) : txts0Read n d =
    ((stampsShown n (d.ch n).ptp d).chMod n (stampsRead (d.ch n).ptp)).emit
      (.read (BitVec.ofNat 32 (((stampsShown n (d.ch n).ptp d).chMod n (stampsRead (d.ch n).ptp)).rd (CHn_PTP_TXTS0.SEC_LO n)))) := rfl

theorem txts0Read_latches (n : Fin 4) (hlen : d.chan.length = 4) : Wrote d (txts0Read n d) (stampWords n (d.ch n).ptp) ∧
    (txts0Read n d).outs = d.outs ++ [.read (BitVec.ofNat 32 (d.rd (CHn_PTP_TXTS0.SEC_LO n)))] ∧
    ((txts0Read n d).ch n).ptp.getD 2 0 = (d.ch n).ptp.getD 2 0 % 2 ^ 20 := by
  have hwrote := stampsShown_wrote n (d.ch n).ptp d
  have hbeyond := stampsShown_beyond n (d.ch n).ptp d
  have houts := stampsShown_outs n (d.ch n).ptp d
  have hread := hwrote.rd (f := CHn_PTP_TXTS0.SEC_LO n) (fits_of_off (by simp [CHn_PTP_TXTS0.SEC_LO]) (by
    simp [stampWords, CHn_PTP_TXTS1.addr, CHn_PTP_TXTS2.addr, CHn_PTP_TXTS3.addr, CHn_PTP_TXTS0.SEC_LO, CHn_PTP_TXTS0.addr]))
  rw [txts0Read_eq, chMod_rd, hread]
  generalize stampsShown n (d.ch n).ptp d = y at *
  refine ⟨hwrote.parts rfl rfl, by rw [← houts]; rfl, ?_⟩
  have hch : ∀ (z : Dev) (o : Out), (z.emit o).ch n = z.ch n := fun _ _ => rfl
  rw [hch, ch_chMod (by rw [hbeyond.chan, hlen]; exact n.isLt)]
  rfl

/-! ### A wake pattern in LISTEN (R172, R74) -/

/-- What a wake by the pattern notes for the software to find. -/
def wakeFields : List Field := [RAT_WAKE_SRC.SRC, RAT_EVENT.WAKE, RAT_CTRL.BIV_REQ]

theorem bootFresh_stands (st : Nat) (d : Dev) : Stands (· ∈ wakeFields) d (bootFresh st d) := by
  have hfree {o lo w : Nat} (h : RST_BOOT_STATUS.addr ≤ o) : Free (· ∈ wakeFields) ⟨o, lo, w⟩ := fun g hg => apart_of_off (by
    have hlow := (by decide : ∀ g ∈ wakeFields, g.off < RST_BOOT_STATUS.addr) g hg
    dsimp only
    omega)
  have hboot : ∀ o ∈ [RST_BOOT_STATUS.addr, RST_BOOT_GEN.addr, RST_SLOT_A.addr, RST_SLOT_B.addr, RST_SLOT_A_GEN.addr,
      RST_SLOT_B_GEN.addr, RST_BOOT_REJ.addr], RST_BOOT_STATUS.addr ≤ o := by decide
  unfold bootFresh
  refine Stands.wr (.foldl _ (.refl _ d) fun o ho x hx => ?_) (hfree (Nat.le_refl _))
  rw [setWord_eq_wr]
  exact hx.wr (hfree (hboot o ho))

theorem restoreBegin_loads (h : d.on RAT_DOM_STATUS.PMEM_SR = false) : ∃ b, restoreBegin d =
    { bootFresh 3 (applyKeep .exitLoad ((restoreShows d).ratMod fun r => { r with wakeKept := false })) with
      boot := b, tab := {}, peg := {} } := by
  unfold restoreBegin restoreShows
  simp only [h, Bool.not_false, if_true]
  exact ⟨_, rfl⟩

theorem wakeFields_stay : ∀ g ∈ wakeFields, staysAt .exit g = true ∧ staysAt .exitLoad g = true ∧ Steady g := by
  decide +kernel

/-- What a restore shows of the wake that began it, whether packet memory is kept or loaded. -/
theorem restoreBegin_notes (hnone : Unshadowed d) (hsrc : Lone RAT_WAKE_SRC.addr d) (hctrl : Lone RAT_CTRL.addr d) :
    (∀ g ∈ wakeFields, (restoreBegin d).rd g = (restoreShows d).rd g) ∧ (restoreBegin d).rat.wakeFr.isSome = true ∧
      (restoreBegin d).rat.announced = 3 := by
  obtain ⟨hev, -, hlone⟩ := restoreShows_lone hnone
  have hlones : ∀ g ∈ wakeFields, Lone g.off (restoreShows d) := by
    simp only [wakeFields, List.forall_mem_cons, List.not_mem_nil, false_implies, implies_true, and_true]
    exact ⟨hlone _ hsrc, hev, hlone _ hctrl⟩
  obtain ⟨hwaking, hannounced⟩ := restoreShows_rat hnone
  cases hmem : d.on RAT_DOM_STATUS.PMEM_SR
  · obtain ⟨b, hb⟩ := restoreBegin_loads hmem
    rw [hb]
    refine ⟨fun g hg => ?_, hwaking, hannounced⟩
    obtain ⟨-, hstay, -⟩ := wakeFields_stay g hg
    exact ((bootFresh_stands 3 _).rd hg).trans (applyKeep_rd hstay (Lone.ratMod (hlones g hg)))
  · have hpowers := restorePowers_powers (applyKeep .exit (restoreShows d))
    rw [restoreBegin_kept hmem]
    refine ⟨fun g hg => ?_, ?_, ?_⟩
    · obtain ⟨hstay, -, hsteady⟩ := wakeFields_stay g hg
      exact (hpowers.stands.rd hsteady).trans (applyKeep_rd hstay (hlones g hg))
    · rw [hpowers.rat, applyKeep_rat]
      exact hwaking
    · rw [hpowers.rat, applyKeep_rat]
      exact hannounced

theorem wakePattern_notes (hboot : d.booted = true) (htier : d.tier = 4) (hrest : d.rat.wakeFr = none) (hcaps : d.capsHold = false)
    (hen : d.on RAT_BIV_CFG.WAKE_PAT = true) (hshadow : d.rat.shadow = none) :
    (wake 0 d).rd RAT_WAKE_SRC.SRC = 1 ∧ (wake 0 d).rd RAT_EVENT.WAKE = 1 ∧ (wake 0 d).rd RAT_CTRL.BIV_REQ = 0 ∧
      (wake 0 d).rat.wakeFr.isSome = true ∧ (wake 0 d).rat.announced = 3 := by
  obtain ⟨hrat, -⟩ := wakeNoted_parts 1 d
  obtain ⟨hsrc, hreq, -⟩ := wakeNoted_reads (v := 1) (by decide) d
  obtain ⟨hlsrc, hlctrl⟩ := wakeNoted_lone 1 d
  have hnone : Unshadowed (wakeNoted 1 d) := by
    rw [Unshadowed, hrat]
    exact hshadow
  have hwake : wake 0 d = restoreBegin (wakeNoted 1 d) :=
    wakeBy_restores (by decide) (fun _ => htier) rfl hen hboot htier.ge hrest hcaps
  obtain ⟨hrd, hwaking, hannounced⟩ := restoreBegin_notes hnone hlsrc hlctrl
  obtain ⟨hev, -, -⟩ := restoreShows_reads hnone
  rw [hwake]
  refine ⟨?_, ?_, ?_, hwaking, hannounced⟩
  · rw [hrd _ (by simp [wakeFields]), (restoreShows_stands hnone).rd (by decide), hsrc]
  · rw [hrd _ (by simp [wakeFields]), hev]
  · rw [hrd _ (by simp [wakeFields]), (restoreShows_stands hnone).rd (by decide), hreq]

/-- The wake after the count of the match. -/
theorem matchWakes (hboot : d.booted = true) (htier : d.tier = 4) (hrest : d.rat.wakeFr = none) (hcaps : d.capsHold = false)
    (hen : d.on RAT_BIV_CFG.WAKE_PAT = true) (hshadow : d.rat.shadow = none) :
    (wake 0 (countMatch d)).rd RAT_WAKE_SRC.SRC = 1 ∧ (wake 0 (countMatch d)).rd RAT_EVENT.WAKE = 1 ∧
      (wake 0 (countMatch d)).rd RAT_CTRL.BIV_REQ = 0 ∧ (wake 0 (countMatch d)).rat.wakeFr.isSome = true ∧
      (wake 0 (countMatch d)).rat.announced = 3 := by
  have hcount : Wrote d (countMatch d) [(CHn_WAKE_CFG.MATCHES 0, _)] := (Wrote.refl d).wrMod (by decide)
  have hrat : (countMatch d).rat = d.rat := (Beyond.refl d).wr.part Dev.rat fun _ _ _ => rfl
  have hget (f : Field) : (countMatch d).ratGet f = d.ratGet f := ratGet_wr (by decide)
  have hboot' : (countMatch d).booted = true := by
    rw [Dev.booted, hcount.rd rfl]
    exact hboot
  have hcaps' : (countMatch d).capsHold = false := by
    rw [Dev.capsHold, hget, hget]
    exact hcaps
  exact wakePattern_notes hboot' ((hget _).trans htier) (by rw [hrat, hrest]) hcaps' ((hcount.on rfl).trans hen)
    (by rw [hrat, hshadow])

theorem patternWake_wakes {data : Bytes} (htier : d.tier = 4) (hrest : d.rat.wakeFr = none) (hhit : d.patternHit data = true) :
    patternWake data d = wake 0 (countMatch d) := by
  have hidle : d.restoring = false := by rw [Dev.restoring, hrest]; rfl
  exact if_pos ⟨htier, by rw [hidle]; exact ⟨rfl, hhit⟩⟩

end

section
variable {s : State}

theorem txts0Read_does (n : Fin 4) (htaken : Taken 1 s) (hlen : s.dev.chan.length = 4) :
    Does (.txts0Read n) s (stampWords n (s.dev.ch n).ptp) fun e =>
      e.outs = [.read (BitVec.ofNat 32 (s.dev.rd (CHn_PTP_TXTS0.SEC_LO n)))] ∧
        (e.ch n).ptp.getD 2 0 = (s.dev.ch n).ptp.getD 2 0 % 2 ^ 20 := by
  obtain ⟨hboot, hpd⟩ := htaken
  refine does_run (f := ifBooted (regRead false (CHn_PTP_TXTS0.addr n))) (fun _ => rfl) ?_
  have htake : ifBooted (regRead false (CHn_PTP_TXTS0.addr n)) s.quiet = txts0Read n s.quiet :=
    (if_pos hboot).trans (regRead_txts0 n hpd)
  have hch : s.quiet.ch n = s.dev.ch n := rfl
  have hstamp : s.quiet.rd (CHn_PTP_TXTS0.SEC_LO n) = s.dev.rd (CHn_PTP_TXTS0.SEC_LO n) := rfl
  obtain ⟨hwrote, houts, hptp⟩ := txts0Read_latches (d := s.quiet) n hlen
  rw [hch, ← htake] at hwrote hptp
  rw [hstamp, ← htake] at houts
  exact ⟨hwrote, houts, hptp⟩

theorem patternWake_ends {data : Bytes} (htier : s.dev.tier = 4) (hrest : s.dev.rat.wakeFr = none)
    (hhit : s.dev.patternHit data = true) (hboot : s.dev.booted = true) (hen : s.dev.on RAT_BIV_CFG.WAKE_PAT = true)
    (hcaps : s.dev.capsHold = false) (hshadow : s.dev.rat.shadow = none) :
    Ends (.patternWake data) s fun e => e.rd RAT_WAKE_SRC.SRC = 1 ∧ e.rd RAT_EVENT.WAKE = 1 ∧ e.rd RAT_CTRL.BIV_REQ = 0 ∧
      e.rat.wakeFr.isSome = true ∧ e.rat.announced = 3 := by
  refine ends_run (f := patternWake data) (fun _ => rfl) ?_
  rw [patternWake_wakes (d := s.quiet) htier hrest hhit]
  exact matchWakes (d := s.quiet) hboot htier hrest hcaps hen hshadow

end

/-- Settles O23: each clause by the lemma on its command. -/
theorem transmission : Obligations.Transmission := fun _ =>
  ⟨fun _ _ _ _ => txFrameStart_begins, fun _ _ _ _ _ => txFrameStart_interrupts, fun _ _ _ => txFrameEnd_counts,
    fun _ _ _ => txFrameEnd_pauses, fun _ _ _ => txFrameEnd_loops, txts0Read_does, fun _ => patternWake_ends⟩

end Sys2Proof.Machine
end

section
/-!
PROOFS. A failed fetch stays on record: what the DMA does after it leaves the record, the outputs and the ring's error (R106, R131).
Here: packet memory, the functions, the rings.
-/

namespace Sys2Proof.Machine

/-- Where failures of host reads are recorded. -/
def failFields : List Field :=
  [HIF_CTO_CNT.COUNT, HIF_POISON_CNT.COUNT, HIF_EVENT.CPL_TIMEOUT, HIF_EVENT.POISONED, DMA_EVENT.RING_ERR, DMA_RING_ERR.RING,
   DMA_RING_ERR.CAUSE, DMA_FETCH_ERR_CNT.COUNT]

/-- Field f is none of them. -/
abbrev Clear (f : Field) : Prop := ∀ g ∈ failFields, Field.apart f g = true

theorem clear_high {f : Field} (h : 0x20000 ≤ f.off) : Clear f := by
  have hlow : ∀ g ∈ failFields, g.off < 0x20000 := by decide
  exact fun g hg => apart_of_off (by have := hlow g hg; omega)

/-- A ring that stopped for an error and has not been set up since. -/
def Failed (x : Ring) : Prop := x.err = true ∧ (x.st = 0 ∨ x.st = 3)

/-- From d to e the record of failures stands, outputs are at most added, and a failed ring stays failed. -/
structure Past (d e : Dev) : Prop where
  record : ∀ g ∈ failFields, e.rd g = d.rd g
  outs : d.outs <+: e.outs
  rings : ∀ q, Failed (d.ring q) → Failed (e.ring q)

section
variable {d e y : Dev}

theorem Past.refl (d : Dev) : Past d d := ⟨fun _ _ => rfl, List.prefix_rfl, fun _ h => h⟩

theorem Past.trans (h : Past d e) (hy : Past e y) : Past d y :=
  ⟨fun g hg => (hy.record g hg).trans (h.record g hg), h.outs.trans hy.outs, fun q hq => hy.rings q (h.rings q hq)⟩

/-- A change of other parts. -/
theorem Past.same (h : Past d e) (hr : y.regs = e.regs) (ho : y.outs = e.outs) (hh : y.host.rings = e.host.rings) : Past d y := by
  have hring (q : Nat) : y.ring q = e.ring q := by rw [Dev.ring, hh, Dev.ring]
  refine h.trans ⟨fun g _ => by rw [rd_eq, rd_eq, hr], by rw [ho], fun q hq => by rw [hring]; exact hq⟩

theorem Past.wr {f : Field} {v : Nat} (h : Past d e) (hf : Clear f) : Past d (e.wr f v) :=
  h.trans ⟨fun g hg => rd_wr_apart e f g v (hf g hg), List.prefix_rfl, fun _ hq => hq⟩

theorem Past.wrB {f : Field} {b : Bool} (h : Past d e) (hf : Clear f) : Past d (e.wrB f b) := h.wr hf

theorem Past.ev {f : Field} (h : Past d e) (hf : Clear f) : Past d (e.ev f) := h.wr hf

theorem Past.sat {f : Field} {n : Nat} (h : Past d e) (hf : Clear f) : Past d (e.sat f n) := h.wr hf

theorem Past.setWord {o v : Nat} (h : Past d e) (ho : 0x20000 ≤ o) : Past d (e.setWord o v) := by
  rw [setWord_eq_wr]
  exact h.wr (clear_high ho)

theorem Past.emit {o : Out} (h : Past d e) : Past d (e.emit o) :=
  h.trans ⟨fun _ _ => rfl, List.prefix_append _ _, fun _ hq => hq⟩

theorem Past.ite {c : Prop} [Decidable c] {x : Dev} (hx : Past d x) (hy : Past d y) : Past d (if c then x else y) := by
  split
  · exact hx
  · exact hy

theorem Past.evIf {f : Field} {c : Bool} (h : Past d e) (hf : Clear f) : Past d (e.evIf c f) := .ite (h.ev hf) h

theorem Past.foldl {α : Type} {f : Dev → α → Dev} (l : List α) (h : Past d e) (hf : ∀ a x, Past d x → Past d (f x a)) :
    Past d (l.foldl f e) := by
  induction l generalizing e with
  | nil => exact h
  | cons a l ih => exact ih (hf a e h)

theorem Past.forN {n : Nat} {f : Nat → Dev → Dev} (h : Past d e) (hf : ∀ k x, Past d x → Past d (f k x)) : Past d (forN n f e) :=
  Past.foldl _ h hf

theorem Past.hostMod {g : HostIf → HostIf} (h : Past d e) (hg : ∀ x, (g x).rings = x.rings) : Past d (e.hostMod g) :=
  h.same rfl rfl (hg _)

theorem Past.fnMod {f : Nat} {g : Fn → Fn} (h : Past d e) : Past d (e.fnMod f g) := h.hostMod fun _ => rfl

/-- A ring is replaced by one that has failed if it had. -/
theorem Past.setRing {r : Nat} {x : Ring} (h : Past d e) (hx : Failed (d.ring r) → Failed x) : Past d (e.setRing r x) := by
  refine ⟨h.record, h.outs, fun q hq => ?_⟩
  rw [ring_setRing]
  split
  · next heq => exact hx (heq ▸ hq)
  · exact h.rings q hq

theorem Past.chMod {n : Nat} {g : Chan → Chan} (h : Past d e) : Past d (e.chMod n g) := h.same rfl rfl rfl

theorem Past.pmMod {g : Pmem → Pmem} (h : Past d e) : Past d (e.pmMod g) := h.same rfl rfl rfl

theorem Past.pegMod {g : Peg → Peg} (h : Past d e) : Past d (e.pegMod g) := h.same rfl rfl rfl

theorem Past.tabMod {g : Tables → Tables} (h : Past d e) : Past d (e.tabMod g) := h.same rfl rfl rfl

theorem Past.ratMod {g : Rat → Rat} (h : Past d e) : Past d (e.ratMod g) := h.same rfl rfl rfl

theorem Past.acMod {dir : Bool} {k : Nat} {f : AudCh → AudCh} (h : Past d e) : Past d (e.acMod dir k f) := by
  unfold Dev.acMod
  exact .ite (h.same rfl rfl rfl) (h.same rfl rfl rfl)

/-! ### Counters, penalties, packet memory -/

theorem Past.penalty {k : Nat} (h : Past d e) : Past d (penalty k e) :=
  .ite (h.wr (clear_high (by simp only [SHD_PENj.PEN, SHD_PENj.addr]; omega))) h

theorem Past.stat {n i v : Nat} (h : Past d e) : Past d (stat n i v e) := by
  have hcount : Past d (e.wr (CHn_STATi.COUNT n i) (e.rd (CHn_STATi.COUNT n i) + v)) :=
    h.wr (clear_high (by simp only [CHn_STATi.COUNT, CHn_STATi.addr]; omega))
  have hlow : Clear (CHn_STAT_HALF0.HALF n) := clear_high (by simp only [CHn_STAT_HALF0.HALF, CHn_STAT_HALF0.addr]; omega)
  have hhigh : Clear (CHn_STAT_HALF1.HALF n) := clear_high (by simp only [CHn_STAT_HALF1.HALF, CHn_STAT_HALF1.addr]; omega)
  have hev : Clear (CHn_EVENT.STAT_HALF n) := clear_high (by simp only [CHn_EVENT.STAT_HALF, CHn_EVENT.addr]; omega)
  unfold Machine.stat
  exact .ite h (.ite (Past.ev (.ite (hcount.wr hlow) (hcount.wr hhigh)) hev) hcount)

theorem Past.satWord {o k : Nat} (h : Past d e) (ho : 0x20000 ≤ o) : Past d (satWord o k e) := h.setWord ho

theorem Past.retireCell {k : Nat} (h : Past d e) : Past d (retireCell k e) := by
  unfold Machine.retireCell
  exact .ite (Past.ev (.wr (.wr h.pmMod.pmMod (by decide)) (by decide)) (by decide)) (h.pmMod.wrB (by decide))

theorem Past.retireWorn (h : Past d e) : Past d (retireWorn e) := by
  unfold Machine.retireWorn
  exact .ite (h.foldl _ fun _ _ hx => hx.retireCell) h

theorem Past.pmemSync (h : Past d e) : Past d (pmemSync e) := by
  have hshow (x : Dev) (a b : Nat) (g : Pmem → Pmem) (hx : Past d x) :
      Past d (((x.wr PMC_FREE_CELLS.CELLS a).wr PMC_BE_CELLS.CELLS b).pmMod g) :=
    ((hx.wr (by decide)).wr (by decide)).pmMod
  have hworn (g : Pmem → Pmem) : Past d (Machine.retireWorn (e.pmMod g)) := h.pmMod.retireWorn
  unfold Machine.pmemSync
  exact .ite (Past.pmMod (.ev (hshow _ _ _ _ (hworn _)) (by decide))) (.ite (Past.pmMod (hshow _ _ _ _ (hworn _)))
    (hshow _ _ _ _ (hworn _)))

theorem Past.eccLog {cell word syn : Nat} {ue scrub : Bool} (h : Past d e) : Past d (eccLog cell word syn ue scrub e) := by
  have hlog (a b : Bool) : Past d (((((e.wr PMC_ECC_LOG.CELL cell).wr PMC_ECC_LOG.WORD word).wrB PMC_ECC_LOG.UE a).wrB
      PMC_ECC_LOG.SRC b).wr PMC_ECC_SYN.SYNDROME syn) :=
    .wr (.wrB (.wrB (.wr (h.wr (by decide)) (by decide)) (by decide)) (by decide)) (by decide)
  unfold Machine.eccLog
  exact .ite (Past.penalty (.ev ((hlog _ _).sat (by decide)) (by decide))) (Past.penalty (.ev ((hlog _ _).sat (by decide)) (by decide)))

theorem Past.poisonCell {k : Nat} (h : Past d e) : Past d (poisonCell k e) := .ite h.pmMod h

theorem Past.eccDrop {x : Frm} (h : Past d e) : Past d (eccDrop x e) := .ite h (h.sat (by decide)).pmMod

theorem Past.cellRead1 {scrub : Bool} {k : Nat} (h : Past d e) : Past d (cellRead1 scrub k e) :=
  h.foldl _ fun _ _ hx => .ite hx.eccLog.poisonCell hx.eccLog

theorem Past.readFrm {x : Frm} (h : Past d e) : Past d (readFrm x e) := .ite h (h.foldl _ fun _ _ hx => hx.cellRead1)

theorem Past.bufRead {b : Buf} (h : Past d e) : Past d (bufRead b e).2 := by
  have hlog (us : List Upset) : Past d (us.foldl (fun d u => Machine.eccLog u.cell u.word.val u.syn.toNat u.double false d) e) :=
    h.foldl _ fun _ _ hx => hx.eccLog
  unfold Machine.bufRead
  dsimp only
  split_ifs
  · exact h
  · exact (hlog _).pmMod.sat (by decide)
  · dsimp only
    exact (hlog _).pmMod

theorem Past.retireFrame {x : Frm} (h : Past d e) : Past d (retireFrame x e) := by
  have hhit (y : Dev) (hy : Past d y) (c : Prop) [Decidable c] (o : Nat) (ho : 0x20000 ≤ o) :
      Past d (if c then y else Machine.satWord o 1 y) := .ite hy (hy.satWord ho)
  unfold Machine.retireFrame
  extract_lets q mk i a
  have ha : Past d a := .ite (hhit e h _ _ (by unfold hitsOff; omega)) h
  split
  · exact hhit a ha _ _ (by omega)
  · exact ha

theorem Past.leave {sent : Bool} {x : Frm} (h : Past d e) : Past d (leave sent x e) := by
  unfold Machine.leave
  exact Past.pmemSync (.ite (.ite h.pmMod h) (.ite h.retireFrame h))

/-! ### Functions and host writes -/

theorem Past.msixSend {f v : Nat} (h : Past d e) : Past d (msixSend f v e) := .ite (.ite h.fnMod h.emit) h

theorem Past.vfEvent {f n : Nat} (h : Past d e) : Past d (vfEvent f n e) := .ite h (.ite h.fnMod h.fnMod.msixSend)

theorem Past.tagSync (h : Past d e) : Past d (tagSync e) := .wr (.wr (h.wr (by decide)) (by decide)) (by decide)

theorem Past.hostWrite {f a : Nat} {bs : Bytes} {b : Bool} (h : Past d e) : Past d (hostWrite f a bs b e) := .ite h.emit h

theorem Past.payWrite {f a : Nat} {bs : Bytes} {b : Bool} (h : Past d e) : Past d (payWrite f a bs b e) :=
  h.foldl _ fun _ _ hx => hx.hostWrite

theorem Past.hostOut {r f a : Nat} {bs : Bytes} (h : Past d e) : Past d (hostOut r f a bs e) :=
  .ite (h.hostMod fun _ => rfl) h.payWrite

/-! ### Rings -/

variable {r : Nat}

theorem Past.ringMsg (h : Past d e) : Past d (ringMsg r e) := by
  have hwait (t : Option Nat) (b : Bool) : Past d (e.setRing r { e.ring r with msgAt := t, msgWait := b }) := h.setRing (h.rings r)
  unfold Machine.ringMsg
  dsimp only
  split
  · exact h
  · split
    · exact .ite (h.setRing (h.rings r)) (hwait _ _).msixSend
    · exact (hwait _ _).msixSend

theorem Past.retire (h : Past d e) : Past d (retire r e) := by
  unfold Machine.retire
  dsimp only
  split
  · exact h
  · refine .ite h (Past.tagSync (Past.foldl _ (Past.setRing ?_ (h.rings r)) fun _ _ hx => hx.ringMsg))
    exact (h.foldl _ fun _ _ hx => hx.hostWrite).foldl _ fun _ _ hx => hx.hostWrite

theorem Past.finishOn {ch c n status : Nat} (h : Past d e) : Past d (finishOn ch r c n status e) := by
  unfold Machine.finishOn
  dsimp only
  exact Past.retire (h.setRing (h.rings r))

theorem Past.finishRun {c n status : Nat} (h : Past d e) : Past d (finishRun r c n status e) := h.finishOn

theorem Past.withdraw {of : Nat → Bool} (h : Past d e) : Past d (withdraw r of e) := h.hostMod fun _ => rfl

theorem Past.issue {f a l : Nat} {u : Use} (h : Past d e) : Past d (issue f a l u e) :=
  Past.tagSync (Past.emit (h.hostMod fun _ => rfl))

theorem Past.fetchRing (h : Past d e) : Past d (fetchRing r e) := by
  unfold Machine.fetchRing
  dsimp only
  split
  · exact h
  · exact .ite h (.ite (.ite h (Past.ev (.sat (h.setRing (h.rings r)) (by decide)) (by decide)))
      (.ite (Past.issue (h.setRing (h.rings r))) h))

theorem Past.issueWants (n : Nat) (h : Past d e) : Past d (issueWants n e) := by
  induction n generalizing e with
  | zero => exact h
  | succ n ih =>
    unfold Machine.issueWants
    split
    · exact h
    · exact ih (Past.issue (h.hostMod fun _ => rfl))

theorem Past.wantPayload {c a off l : Nat} (h : Past d e) : Past d (wantPayload r c a off l e) := by
  unfold Machine.wantPayload
  exact h.hostMod fun _ => rfl

theorem Past.ringForget (h : Past d e) : Past d (ringForget r e) := h.hostMod fun _ => rfl

/-- A failed ring that quiesces is off, its error kept (Table 4.10). -/
theorem Past.ringQuiesce (h : Past d e) : Past d (ringQuiesce r e) := by
  have hoff (hd : Failed (d.ring r)) : Failed { e.ring r with
      st := if (e.ring r).st == 4 then 1 else 0, taken := [], notOwn := false, tagWait := false, fresh := true,
      err := if (e.ring r).st == 4 then false else (e.ring r).err } := by
    obtain ⟨herr, hst⟩ := h.rings r hd
    have h4 : ((e.ring r).st == 4) = false := by
      rw [beq_eq_false_iff_ne]
      omega
    simp only [h4]
    exact ⟨herr, .inl rfl⟩
  unfold Machine.ringQuiesce
  exact .ite (Past.tagSync (Past.ringMsg (Past.ringForget (h.setRing hoff)))) h

theorem Past.ringStart {b : Bool} (h : Past d e) : Past d (ringStart b r e) := by
  unfold Machine.ringStart
  dsimp only
  split
  · next hst =>
    refine h.setRing fun hd => ?_
    obtain ⟨-, hoff⟩ := h.rings r hd
    omega
  · exact h

theorem Past.pumpFn {f : Nat} (h : Past d e) : Past d (pumpFn f e) :=
  h.foldl _ fun _ _ hx => .ite hx.fetchRing (hx.fetchRing.hostMod fun _ => rfl)

theorem Past.pump (h : Past d e) : Past d (pump e) := by
  unfold Machine.pump
  exact Past.forN (Past.issueWants _ (h.foldl _ fun _ _ hx => hx.ringStart)) fun _ _ hx => hx.pumpFn

end

end Sys2Proof.Machine
end

section
/-!
PROOFS. A failed fetch stays on record, continued: frames to and from the rings, the request lines, the DMA as a whole (R131).
-/

namespace Sys2Proof.Machine

section
variable {d e : Dev} {r : Nat} {x : Frm}

/-! ### Reception -/

theorem Past.rxDrop {kind : Nat} (h : Past d e) : Past d (rxDrop kind r e) := by
  unfold Machine.rxDrop
  dsimp only
  split
  · refine Past.retire ?_
    have hring (ys : List Desc) (q : List RxItem) : Past d (e.setRing r { e.ring r with taken := ys, rxq := q }) := h.setRing (h.rings r)
    split
    · exact Past.vfEvent (.ite (Past.ev (Past.sat (hring _ _) (by decide)) (by decide))
        (Past.ev (Past.sat (hring _ _) (by decide)) (by decide)))
    · exact Past.ev (Past.sat (hring _ _) (by decide)) (by decide)
    · exact Past.eccDrop (hring _ _)
  · exact h

theorem Past.rxFill (fuel : Nat) (h : Past d e) : Past d (rxFill fuel r e) := by
  induction fuel generalizing e with
  | zero => exact h
  | succ fuel ih =>
    unfold Machine.rxFill
    dsimp only
    split
    · refine .ite (ih (Past.leave (Past.retire (h.setRing (h.rings r))))) ?_
      split
      · refine .ite h ?_
        split
        · exact .ite (ih h.rxDrop) h
        · exact h.setRing (h.rings r)
      · refine .ite (ih h.readFrm.rxDrop) (.ite (ih (Past.setRing ?_ (h.rings r))) (ih (Past.retire (h.readFrm.setRing (h.rings r)))))
        exact Past.hostOut h.readFrm.pmMod
    · exact h

theorem Past.rxPump (h : Past d e) : Past d (rxPump r e) := .ite (Past.pmemSync (h.rxFill _)) h

theorem Past.rxQueue (h : Past d e) : Past d (rxQueue r x e) := Past.rxPump (Past.pmemSync (h.setRing (h.rings r)))

/-! ### Lookups and elimination -/

theorem Past.lookup {src : Nat} {bs : Bytes} (h : Past d e) : Past d (lookup src bs e).2 := by
  unfold Machine.lookup
  dsimp only
  split
  · exact h.satWord (by unfold hitsOff; omega)
  · exact h.sat (by decide)

theorem Past.setSw {s k v : Nat} (h : Past d e) : Past d (setSw s k v e) := h.setWord (by unfold strmOff; omega)

theorem Past.setRecov {s v a : Nat} (h : Past d e) : Past d (setRecov s v a e) := h.setSw.setSw.setSw

theorem Past.strmMod {s : Nat} {g : Strm → Strm} (h : Past d e) : Past d (e.strmMod s g) := h.tabMod

theorem Past.strmCnt {s i n : Nat} (h : Past d e) : Past d (strmCnt s i n e) := h.satWord (by omega)

theorem Past.genDrop {s : Nat} {bs : Bytes} (h : Past d e) : Past d (genDrop s bs e).2 := h.strmCnt.ev (by decide)

theorem Past.ite_snd {α : Type} {c : Prop} [Decidable c] {a b : α × Dev} (ha : Past d a.2) (hb : Past d b.2) :
    Past d (if c then a else b).2 := by
  split
  · exact ha
  · exact hb

theorem Past.recover {s seq : Nat} {bs : Bytes} (h : Past d e) : Past d (recover s seq bs e).2 := by
  have hrogue : Past d ((Machine.strmCnt s 3 1 e).ev FRE_EVENT.ROGUE) := h.strmCnt.ev (by decide)
  unfold Machine.recover
  extract_lets n g out passed delta k again fresh
  have hpass (y : Dev) (hy : Past d y) : Past d (passed y).2 := by
    dsimp only [passed]
    exact hy.strmCnt.strmMod
  refine .ite_snd (hpass _ h.setRecov.setSw) (.ite_snd ((hrogue.wr (by decide)).wr (by decide))
    (.ite_snd (.ite_snd ?_ (hpass _ h.setRecov.strmCnt)) (hpass _ h.strmCnt.setRecov)))
  dsimp only
  exact h.strmCnt.strmMod

theorem Past.freDecide {src : Nat} {slot : Option (Nat × Nat)} {q : Decision} {bs : Bytes} (h : Past d e) :
    Past d (freDecide src slot q bs e).2 := by
  have hpass (y : Dev) (hy : Past d y) (s : Nat) (b : Bytes) : Past d (frePass s b y).2 := hy.strmCnt
  unfold Machine.freDecide
  dsimp only
  refine .ite_snd h (.ite_snd h.genDrop ?_)
  split
  · exact .ite_snd h.genDrop (hpass _ h.setSw.strmMod _ _)
  · split
    · exact .ite_snd h.genDrop (hpass _ h.strmMod _ _)
    · exact h.genDrop
  · split
    · exact h.strmCnt
    · exact h.recover

/-! ### Frames into the queues -/

theorem Past.hostReturn {n status : Nat} {ts : Option Nat} (h : Past d e) : Past d (hostReturn n status ts x e) := by
  unfold Machine.hostReturn
  dsimp only
  split
  · exact h
  · exact .ite h (Past.ringQuiesce (Past.retire (h.setRing (h.rings _))))

theorem Past.gaspSkip (h : Past d e) : Past d (gaspSkip e) := by
  have hev : Past d (e.ev RAT_EVENT.GASP_SKIPPED) := h.ev (by decide)
  unfold Machine.gaspSkip
  exact Past.ratMod (hev.same rfl rfl rfl)

theorem Past.dropFrame {n i status : Nat} (h : Past d e) : Past d (dropFrame n i status x e) := by
  have hfence : Past d (if (i = 40 && (e.ch n).fencing) = true then e.wrap (SHD_FENCE_RPTn_TX.TX_DROPS n) else e) :=
    .ite (h.wr (clear_high (by simp only [SHD_FENCE_RPTn_TX.TX_DROPS, SHD_FENCE_RPTn_TX.addr]; omega))) h
  unfold Machine.dropFrame
  exact Past.leave (Past.hostReturn (Past.stat (.ite hfence.gaspSkip hfence)))

theorem Past.xoffStart {n : Nat} (h : Past d e) : Past d (xoffStart n e) := by
  have hxoff : Clear (CHn_STATUS.XOFF n) ∧ Clear (CHn_STATUS.PFC_XOFF n) := by
    constructor <;> exact clear_high (by simp only [CHn_STATUS.XOFF, CHn_STATUS.PFC_XOFF, CHn_STATUS.addr]; omega)
  have hev : Clear (CHn_EVENT.XOFF_START n) := clear_high (by simp only [CHn_EVENT.XOFF_START, CHn_EVENT.addr]; omega)
  have hbe (g : Chan → Chan) : Past d ((e.chMod n g).wrB (CHn_STATUS.XOFF n) true |>.ev (CHn_EVENT.XOFF_START n)) :=
    (h.chMod.wrB hxoff.1).ev hev
  have hpfc (g g' : Chan → Chan) (c : Bool) : Past d (Machine.pfcShow n (((e.chMod n g).chMod n g').evIf c (CHn_EVENT.XOFF_START n))) :=
    Past.wr (Past.evIf h.chMod.chMod hev) hxoff.2
  unfold Machine.xoffStart
  dsimp only
  split
  · exact .ite (Past.chMod (Past.chMod (.ite (hbe _) h.chMod))) (.ite (hbe _) h.chMod)
  · exact .ite (hpfc _ _ _) (Past.chMod ((hpfc _ _ _).foldl _ fun _ _ hx => hx.chMod))
  · exact h

theorem Past.flowUpdate (h : Past d e) : Past d (flowUpdate e) := h.forN fun _ _ hx => hx.xoffStart

theorem Past.enqueue {n : Nat} (h : Past d e) : Past d (enqueue n x e) := by
  unfold Machine.enqueue
  exact .ite h.dropFrame (.ite h.dropFrame (.ite (Past.flowUpdate (Past.pmemSync h.chMod)) h.dropFrame))

theorem Past.steer {n : Nat} {q : Decision} (h : Past d e) : Past d (steer n q e).2 := by
  unfold Machine.steer
  split_ifs
  · exact (h.sat (by decide)).ev (by decide)
  · exact (h.sat (by decide)).ev (by decide)
  · exact h

theorem Past.steerAll {q : Decision} (h : Past d e) : Past d (steerAll q e).2 := by
  have hfold (ns : List Nat) : ∀ (a : List Nat × Dev), Past d a.2 → Past d (ns.foldl (fun (ns, d) n =>
      if bit q.mask n then
        match Machine.steer n q d with
        | (some k, d) => (ns ++ [k], d)
        | (none, d) => (ns, d)
      else (ns, d)) a).2 := by
    induction ns with
    | nil => exact fun a ha => ha
    | cons n ns ih =>
      refine fun a ha => ih _ ?_
      have hs := ha.steer (n := n) (q := q)
      dsimp only
      split
      · generalize Machine.steer n q a.2 = z at hs
        obtain ⟨o, z⟩ := z
        cases o <;> exact hs
      · exact ha
  exact hfold _ _ h

theorem Past.dropWhole (h : Past d e) : Past d (dropWhole x e) := h.hostReturn.leave

theorem Past.routeMask (h : Past d e) : Past d (routeMask x e) := by
  have hs := h.steerAll (q := x.dec)
  unfold Machine.routeMask
  exact .ite hs.dropWhole ((hs.foldl _ fun _ _ hx => hx.enqueue).foldl _ fun _ _ hx => hx.enqueue)

theorem Past.flowQueue {f : Nat} (h : Past d e) : Past d (flowQueue f x e) := by
  unfold Machine.flowQueue
  exact .ite (Past.flowUpdate (Past.pmemSync h.pegMod)) (Past.dropWhole ((h.sat (by decide)).ev (by decide)))

/-! ### Transmission from the rings -/

theorem Past.txToHost {q : Decision} (h : Past d e) : Past d (txToHost x q e) := by
  have hbad : Past d ((e.sat CLS_HOST_BAD.COUNT).ev CLS_EVENT.HOST_BAD) := (h.sat (by decide)).ev (by decide)
  unfold Machine.txToHost
  split
  · exact Past.dropWhole (.ite hbad.vfEvent hbad)
  · exact Past.dropWhole (h.sat (by decide))
  · exact h.vfEvent.dropWhole
  · exact h.rxQueue.flowUpdate

theorem Past.newId (h : Past d e) : Past d (newId e).2 := h.same rfl rfl rfl

/-- A run of descriptors becomes a frame, or waits, or ends without one. -/
theorem Past.txEnter {i : Nat} {run : List Desc} (h : Past d e) : Past d (txEnter r i run e) := by
  have hstats (ns : List Nat) (k : Nat) (y : Dev) (hy : Past d y) : Past d (ns.foldl (fun d n => Machine.stat n k 1 d) y) :=
    hy.foldl _ fun _ _ hx => hx.stat
  unfold Machine.txEnter
  extract_lets x y c f body data n direct
  have hlook : Past d (if x.dest = 0 then Machine.lookup 5 data e else (direct, e)).2 := .ite_snd h.lookup h
  generalize (if x.dest = 0 then Machine.lookup 5 data e else (direct, e)) = ql at hlook
  obtain ⟨q, dl⟩ := ql
  dsimp only at hlook ⊢
  split
  · exact h
  · refine .ite h ?_
    split
    · exact (hstats _ _ _ hlook).finishOn
    · exact (hstats _ _ _ hlook).finishOn
    · next t _ =>
      have hfre : Past d (if x.dest = 0 then Machine.freDecide 5 none q data dl else (⟨true, data, none⟩, dl)).2 :=
        .ite_snd hlook.freDecide hlook
      generalize (if x.dest = 0 then Machine.freDecide 5 none q data dl else (⟨true, data, none⟩, dl)) = fo at hfre
      have hnew := hfre.newId
      have hentered (g : Ring → Ring) (hg : ∀ z, Failed z → Failed (g z)) (early : Bool) (m : Nat) (cells : List Nat) :
          Past d (if early = true then Machine.finishOn (egressCh q) r c run.length 0
            (dmaWork m (writeCells cells ((Machine.newId fo.2).2.ringMod r g)))
            else dmaWork m (writeCells cells ((Machine.newId fo.2).2.ringMod r g))) := by
        have hring : Past d (dmaWork m (writeCells cells ((Machine.newId fo.2).2.ringMod r g))) :=
          Past.pmMod (Past.pmMod (hnew.setRing fun hd => hg _ (hnew.rings r hd)))
        exact .ite hring.finishOn hring
      refine .ite (Past.dropWhole ?_) ?_
      · exact hentered _ (by exact fun _ hz => hz) _ _ _
      split
      · refine Past.routeMask ?_
        exact hentered _ (by exact fun _ hz => hz) _ _ _
      · refine Past.txToHost ?_
        exact hentered _ (by exact fun _ hz => hz) _ _ _
      · refine Past.dropWhole ?_
        exact hentered _ (by exact fun _ hz => hz) _ _ _
      · refine Past.flowQueue ?_
        exact hentered _ (by exact fun _ hz => hz) _ _ _

theorem Past.txGo (fuel : Nat) (h : Past d e) : Past d (txGo fuel r e) := by
  induction fuel generalizing e with
  | zero => exact h
  | succ fuel ih =>
    unfold Machine.txGo
    split
    · exact h
    · exact .ite h (ih h.txEnter)

theorem Past.txRetry (h : Past d e) : Past d (txRetry e) := h.foldl _ fun _ _ hx => hx.txGo _

theorem Past.txSweep1 (h : Past d e) : Past d (txSweep1 r e) := by
  unfold Machine.txSweep1
  refine h.foldl _ fun _ y hy => ?_
  dsimp only
  split
  · exact hy
  · exact .ite hy hy.finishRun.ringQuiesce

theorem Past.txSweep (h : Past d e) : Past d (txSweep e) := h.foldl _ fun _ _ hx => hx.txSweep1

/-! ### Messages, bytes that wait -/

theorem Past.outBurst {n : Nat} (h : Past d e) : Past d (outBurst n r e) := by
  unfold Machine.outBurst
  dsimp only
  split
  · exact h
  · exact .ite (h.payWrite.hostMod fun _ => rfl) (Past.retire (h.payWrite.hostMod fun _ => rfl))

theorem Past.flushRing (h : Past d e) : Past d (flushRing r e) := by
  unfold Machine.flushRing
  split
  · exact .ite (h.foldl _ fun _ _ hx => .ite hx.outBurst hx) h
  · exact h

theorem Past.msgSettle (h : Past d e) : Past d (msgSettle e) :=
  h.foldl _ fun _ _ hx => by
    unfold Machine.msgDone Machine.ackLater Machine.msgOut
    exact Past.pegMod (Past.pmemSync hx.pegMod.pegMod)

theorem Past.msgRingStop (h : Past d e) : Past d (msgRingStop r e) := by
  have hmsg (n : Nat) : Past d (((e.sat DMA_DISABLE_DROP.COUNT n).ev DMA_EVENT.DISABLE_DROP).sat PEG_MSG_REJ.COUNT n) :=
    ((h.sat (by decide)).ev (by decide)).sat (by decide)
  unfold Machine.msgRingStop
  exact .ite h (Past.pmemSync (hmsg _).pegMod)

/-! ### The request lines -/

theorem Past.audioRead {dir : Bool} {k : Nat} (h : Past d e) : Past d (audioRead dir k e) := by
  unfold Machine.audioRead
  exact h.bufRead.foldl _ fun _ _ hx => hx.acMod

theorem Past.needNote {dir : Bool} {k : Nat} (h : Past d e) : Past d (needNote dir k e) := h.acMod

theorem Past.prqBurst {n : Nat} {y : Dev} (h : Past d e) (hy : prqBurst n r e = some y) : Past d y := by
  unfold Machine.prqBurst at hy
  dsimp only at hy
  split at hy
  · split at hy
    · split at hy
      · exact absurd hy (by simp)
      · rw [← Option.some.inj hy]
        exact Past.needNote (Past.setRing (Past.acMod h.audioRead.hostOut) (h.rings r))
    · split at hy
      · exact absurd hy (by simp)
      · rw [← Option.some.inj hy]
        refine Past.issueWants _ (Past.setRing ?_ (h.rings r))
        exact Past.hostMod (Past.wantPayload (h.hostMod fun _ => rfl)) fun _ => rfl
  · exact absurd hy (by simp)

theorem Past.readBurst {n : Nat} {y : Dev} (h : Past d e) (hy : readBurst n r e = some y) : Past d y := by
  unfold Machine.readBurst at hy
  dsimp only at hy
  split at hy
  · split at hy
    · exact absurd hy (by simp)
    · rw [← Option.some.inj hy]
      exact Past.issue (h.hostMod fun _ => rfl)
  · exact absurd hy (by simp)

theorem Past.writeBurst {n : Nat} {y : Dev} (h : Past d e) (hy : writeBurst n r e = some y) : Past d y := by
  unfold Machine.writeBurst at hy
  split at hy
  · split at hy
    · rw [← Option.some.inj hy]
      exact h.outBurst.msgSettle
    · exact absurd hy (by simp)
  · exact absurd hy (by simp)

theorem Past.moveBurst {m : Nat} {y : Dev} (h : Past d e) (hy : moveBurst m r e = some y) : Past d y := by
  unfold Machine.moveBurst at hy
  dsimp only at hy
  split at hy
  · exact h.readBurst hy
  · exact h.readBurst hy
  · exact h.writeBurst hy
  · exact h.writeBurst hy
  · exact h.prqBurst hy

theorem Past.setPrq {k : Nat} {q : List (Nat × Nat)} (h : Past d e) : Past d (setPrq k q e) :=
  Past.wr (h.hostMod fun _ => rfl) (by decide)

theorem Past.prqOne {k : Nat} (h : Past d e) : Past d (prqOne k e) := by
  unfold Machine.prqOne
  extract_lets l q a m
  have ha : Past d a := .ite h h.setPrq
  split
  · next hfound =>
    obtain ⟨p, -, hp⟩ := List.exists_of_findSome?_eq_some hfound
    obtain ⟨y, hy, heq⟩ := Option.map_eq_some_iff.mp hp
    obtain ⟨rfl, rfl⟩ := Prod.mk.inj heq
    exact Past.setPrq (Past.hostMod (Past.wr (ha.moveBurst hy) (by decide)) fun _ => rfl)
  · exact ha

theorem Past.prqAll (h : Past d e) : Past d (prqAll e) :=
  h.forN fun _ _ hx => hx.foldl _ fun _ _ hy => hy.prqOne

theorem Past.dmaSettle (h : Past d e) : Past d (dmaSettle e) := h.txSweep.txRetry.prqAll.pump

/-! ### A ring stops -/

theorem Past.rxStop (h : Past d e) : Past d (rxStop r e) := Past.pmemSync (h.foldl _ fun _ _ hx => hx.rxDrop)

theorem failed_mapped {g : Ring → Ring} (hg : ∀ z, Failed z → Failed (g z)) (m : List (Nat × Ring)) (q : Nat) :
    Failed (cellRead (fun _ => {}) m q) → Failed (cellRead (fun _ => {}) (m.map fun x => (x.1, g x.2)) q) := by
  induction m with
  | nil => exact id
  | cons a m ih =>
    rw [List.map_cons, cellRead, cellRead]
    split
    · exact hg a.2
    · exact ih

/-- Frames are taken out of the queues, of channels, rings and flows. -/
theorem Past.cut {c : List Chan} {p : Peg} {g : Ring → Ring} (h : Past d e) (hg : ∀ z, Failed z → Failed (g z)) :
    Past d { e with chan := c, peg := p, host := { e.host with rings := e.host.rings.map fun x => (x.1, g x.2) } } :=
  h.trans ⟨fun _ _ => rfl, List.prefix_rfl, fun q => failed_mapped hg e.host.rings q⟩

theorem Past.txStop (h : Past d e) : Past d (txStop r e) := by
  unfold Machine.txStop
  extract_lets a xs ids gone held flows b part n c x f g
  have hb : Past d b := by
    dsimp only [b, held, flows]
    refine Past.cut (g := fun z => { z with rxq := z.rxq.filter fun it => it.n != 0 || !gone it.frm }) h.withdraw ?_
    exact fun _ hz => hz
  have hc : Past d c := hb.foldl _ fun _ _ hx => hx.dropWhole
  have hg : Past d g := Past.retire (hc.setRing (hc.rings r))
  exact .ite hg ((hg.sat (by decide)).ev (by decide))

theorem Past.ringStopGo (h : Past d e) : Past d (ringStopGo r e) := by
  unfold Machine.ringStopGo
  split
  · exact h.txStop
  · exact h.rxStop
  · exact h.hostMod fun _ => rfl
  · exact h.hostMod fun _ => rfl
  · exact Past.flushRing (.ite (h.same rfl rfl rfl) h)
  · exact h.flushRing.msgSettle.msgRingStop
  · exact h

end

end Sys2Proof.Machine
end

section
/-!
PROOFS. Host reads that fail: the counts, the record, the ring that stops (R106, R131).
-/

namespace Sys2Proof.Machine

section
variable {d e : Dev} {r t n cause : Nat}

/-- The one outstanding read, of n descriptors of ring r. -/
def descRead (t r n : Nat) : Rd := { tag := t, fn := 0, epoch := 0, use := .desc r n }

/-! ### A ring's failure -/

/-- The record of a failure of ring r. -/
def failNoted (r cause : Nat) (d : Dev) : Dev :=
  ((((d.wr DMA_RING_ERR.RING r).wr DMA_RING_ERR.CAUSE cause).wr DMA_RING_ERR.FN ((d.ringFn r).getD 0)).sat
    DMA_FETCH_ERR_CNT.COUNT).ev DMA_EVENT.RING_ERR

/-- Ring r halts with its error. -/
def errHalted (r : Nat) (d : Dev) : Dev := ringHalt r (d.ringMod r fun x => { x with err := true })

theorem ringErrStop_past (r : Nat) (d : Dev) : Past (errHalted r d) (ringErrStop r d) :=
  .ite (Past.refl _).ringStopGo (.refl _)

theorem ringFail_past (r cause : Nat) (d : Dev) : Past (errHalted r (failNoted r cause d)) (ringFail r cause d) :=
  ringErrStop_past r _

theorem failNoted_wrote (r cause : Nat) (d : Dev) : Wrote d (failNoted r cause d) [(DMA_RING_ERR.RING, r % 2 ^ DMA_RING_ERR.RING.w),
    (DMA_RING_ERR.CAUSE, cause % 4), (DMA_RING_ERR.FN, (d.ringFn r).getD 0 % 16),
    (DMA_FETCH_ERR_CNT.COUNT, min (d.rd DMA_FETCH_ERR_CNT.COUNT + 1) (2 ^ DMA_FETCH_ERR_CNT.COUNT.w - 1)), (DMA_EVENT.RING_ERR, 1)] :=
  ((((Wrote.refl d).wrMod rfl).wrMod rfl).wrMod rfl).sat rfl |>.ev rfl (by decide)

theorem ring_setRing_same (r : Nat) (x : Ring) (d : Dev) : (d.setRing r x).ring r = x := by rw [ring_setRing, if_pos rfl]

theorem failNoted_parts (r cause : Nat) (d : Dev) : (failNoted r cause d).host = d.host ∧ (failNoted r cause d).outs = d.outs := by
  unfold failNoted
  exact ⟨Beyond.host (Beyond.refl d).wr.wr.wr.sat.ev, (Mute.refl d).wr.wr.wr.sat.ev⟩

theorem errHalted_rd (r : Nat) (d : Dev) (g : Field) : (errHalted r d).rd g = d.rd g := rfl

theorem errHalted_outs (r : Nat) (d : Dev) : (errHalted r d).outs = d.outs := rfl

theorem errHalted_failed (h : (d.ring r).st = 2) : Failed ((errHalted r d).ring r) := by
  have hring : (errHalted r d).ring r = { d.ring r with err := true, st := runDisable (d.ring r).st } := by
    unfold errHalted ringHalt Dev.ringMod
    rw [ring_setRing_same, ring_setRing_same]
  rw [hring, h]
  exact ⟨rfl, .inr rfl⟩

/-- The counts and reports of the host read itself. -/
def readFields : List Field := [HIF_CTO_CNT.COUNT, HIF_POISON_CNT.COUNT, HIF_EVENT.CPL_TIMEOUT, HIF_EVENT.POISONED]

/-- What the failure of a fetch of ring r leaves. -/
structure FetchFailed (r cause : Nat) (d e : Dev) : Prop where
  ring : e.rd DMA_RING_ERR.RING = r % 2 ^ DMA_RING_ERR.RING.w
  cause : e.rd DMA_RING_ERR.CAUSE = cause % 4
  count : e.rd DMA_FETCH_ERR_CNT.COUNT = min (d.rd DMA_FETCH_ERR_CNT.COUNT + 1) (2 ^ DMA_FETCH_ERR_CNT.COUNT.w - 1)
  event : e.rd DMA_EVENT.RING_ERR = 1
  reads : ∀ g ∈ readFields, e.rd g = d.rd g
  outs : d.outs <+: e.outs
  stops : (d.ring r).st = 2 → (e.ring r).err = true

theorem dropTag_past (t : Nat) (d : Dev) : Past d (dropTag t d) := Past.tagSync ((Past.refl d).hostMod fun _ => rfl)

theorem dropTag_ring (t q : Nat) (d : Dev) : (dropTag t d).ring q = d.ring q := tagSync_ring q

theorem epoch_dropTag : (dropTag t d).epoch 0 = d.epoch 0 := by
  have hstands : Stands (· = HIF_EPOCHk.EPOCH 0) d (dropTag t d) :=
    Stands.tagSync (.hostMod (.refl _ d)) (by rintro f hf g rfl; revert f; decide)
  rw [Dev.epoch, Dev.epoch, hstands.rd rfl]

theorem failures_apart : ∀ f ∈ [DMA_RING_ERR.RING, DMA_RING_ERR.CAUSE, DMA_RING_ERR.FN, DMA_FETCH_ERR_CNT.COUNT, DMA_EVENT.RING_ERR],
    ∀ g ∈ readFields, Field.apart f g = true := by decide

/-- A fetch that failed leaves its record, whatever the DMA does next. -/
theorem fetchFailed_of_past (r cause : Nat) (h : Past (errHalted r (failNoted r cause d)) e) : FetchFailed r cause d e := by
  have hnoted := failNoted_wrote r cause d
  obtain ⟨hhost, houts⟩ := failNoted_parts r cause d
  obtain ⟨hrec, hadds, hrings⟩ := h
  have hhalt := errHalted_failed (r := r) (d := failNoted r cause d)
  rw [errHalted_outs] at hadds
  have hin : ∀ g ∈ readFields, g ∈ failFields := by decide
  generalize failNoted r cause d = y at *
  have hrd (g : Field) (hg : g ∈ failFields) : e.rd g = y.rd g := (hrec g hg).trans (errHalted_rd r y g)
  refine ⟨?_, ?_, ?_, ?_, fun g hg => ?_, by rw [← houts]; exact hadds, fun hst => ?_⟩
  · rw [hrd _ (by decide), hnoted.nth 0 rfl]
  · rw [hrd _ (by decide), hnoted.nth 1 rfl]
  · rw [hrd _ (by decide), hnoted.nth 3 rfl]
  · rw [hrd _ (by decide), hnoted.nth 4 rfl]
  · rw [hrd g (hin g hg)]
    exact hnoted.beside.rd fun f hf => failures_apart f hf g hg
  · obtain ⟨herr, -⟩ := hrings r (hhalt (by rw [Dev.ring, hhost]; exact hst))
    exact herr

theorem readFail_desc (cause : Nat) (hreads : d.host.reads = [descRead t r n]) (hepoch : d.epoch 0 = 0) :
    readFail t cause d = dmaSettle (ringFail r cause (dropTag t d)) := by
  have hdead : (dropTag t d).dead (descRead t r n) = false := by
    simp [Dev.dead, descRead, epoch_dropTag, hepoch]
  unfold readFail
  rw [hreads]
  simp only [List.find?_cons, descRead, beq_self_eq_true]
  rw [descRead] at hdead
  rw [hdead, if_neg Bool.false_ne_true]

/-- A failed fetch stops its ring and is recorded. -/
theorem readFail_records (cause : Nat) (hreads : d.host.reads = [descRead t r n]) (hepoch : d.epoch 0 = 0) :
    FetchFailed r cause d (readFail t cause d) := by
  have hdrop := dropTag_past t d
  rw [readFail_desc cause hreads hepoch]
  obtain ⟨hring, hcause, hcount, hevent, hreads, houts, hstops⟩ :=
    fetchFailed_of_past (d := dropTag t d) r cause (ringFail_past r cause _).dmaSettle
  have hin : ∀ g ∈ readFields, g ∈ failFields := by decide
  refine ⟨hring, hcause, ?_, hevent, fun g hg => (hreads g hg).trans (hdrop.record g (hin g hg)), hdrop.outs.trans houts, fun hst => ?_⟩
  · rw [hcount, hdrop.record _ (by decide)]
  · exact hstops (by rw [dropTag_ring]; exact hst)

/-! ### Timeouts and poison -/

/-- A host read of function 0 is counted as failed and reported. -/
def readNoted (poisoned : Bool) (cnt ev : Field) (d : Dev) : Dev := penalty 19 ((aerAdvise 0 poisoned (d.sat cnt)).ev ev)

theorem penalty_below {k : Nat} {g : Field} (h : g.off < 0x54000) : (penalty k d).rd g = d.rd g :=
  penalty_rd (apart_of_off (by simp only [SHD_PENj.PEN, SHD_PENj.addr]; omega))

theorem penalty_outs (k : Nat) : (penalty k d).outs = d.outs := Mute.ite (Mute.refl d).wr (Mute.refl d)

theorem readNoted_shows {poisoned : Bool} {cnt ev : Field} (hcnt : cnt.off < 0x54000) (hev : ev.off < 0x54000)
    (hfit : fits cnt [] = true) (hfits : ∀ v, fits ev [(cnt, v)] = true) (hw : 0 < ev.w)
    (hepoch : ∀ v, fits (HIF_EPOCHk.EPOCH 0) [(cnt, v), (ev, 1)] = true)
    (hfetch : ∀ v, fits DMA_FETCH_ERR_CNT.COUNT [(cnt, v), (ev, 1)] = true) :
    (readNoted poisoned cnt ev d).rd cnt = min (d.rd cnt + 1) (2 ^ cnt.w - 1) ∧ (readNoted poisoned cnt ev d).rd ev = 1 ∧
      Out.aer 0 poisoned ∈ (readNoted poisoned cnt ev d).outs ∧ (readNoted poisoned cnt ev d).host.reads = d.host.reads ∧
      (readNoted poisoned cnt ev d).epoch 0 = d.epoch 0 ∧
      (readNoted poisoned cnt ev d).rd DMA_FETCH_ERR_CNT.COUNT = d.rd DMA_FETCH_ERR_CNT.COUNT := by
  have hsat := (Wrote.refl d).sat (n := 1) hfit
  have hwrote : Wrote d ((aerAdvise 0 poisoned (d.sat cnt)).ev ev) [(cnt, min (d.rd cnt + 1) (2 ^ cnt.w - 1)), (ev, 1)] :=
    Wrote.ev (hsat.parts rfl rfl) (hfits _) hw
  have hreads : ((aerAdvise 0 poisoned (d.sat cnt)).ev ev).host.reads = d.host.reads := rfl
  have houts : Out.aer 0 poisoned ∈ ((aerAdvise 0 poisoned (d.sat cnt)).ev ev).outs := List.mem_append_right _ (List.mem_singleton_self _)
  unfold readNoted
  generalize (aerAdvise 0 poisoned (d.sat cnt)).ev ev = y at *
  have hhost := Beyond.host (penalty_beyond (d := y) 19)
  refine ⟨?_, ?_, by rw [penalty_outs]; exact houts, by rw [hhost, hreads], ?_, ?_⟩
  · rw [penalty_below hcnt, hwrote.nth 0 rfl]
  · rw [penalty_below hev, hwrote.nth 1 rfl]
  · rw [Dev.epoch, Dev.epoch, penalty_below (by decide), hwrote.rd (hepoch _)]
  · rw [penalty_below (by decide), hwrote.rd (hfetch _)]

end

/-! ### The commands -/

section
variable {s : State} {t r n : Nat}

theorem find_read : [descRead t r n].find? (fun x => x.tag == t) = some (descRead t r n) := by simp [descRead]

theorem cplTimeout_eq {d : Dev} (hreads : d.host.reads = [descRead t r n]) :
    cplTimeout t d = readFail t 1 (readNoted false HIF_CTO_CNT.COUNT HIF_EVENT.CPL_TIMEOUT d) := by
  unfold cplTimeout
  rw [hreads, find_read]
  rfl

theorem cplPoisoned_eq {d : Dev} (hreads : d.host.reads = [descRead t r n]) :
    cplPoisoned t d = readFail t 0 (readNoted true HIF_POISON_CNT.COUNT HIF_EVENT.POISONED d) := by
  unfold cplPoisoned
  rw [hreads, find_read]
  rfl

theorem fetchFail_eq {d : Dev} {timedOut : Bool} (hreads : d.host.reads = [descRead t r n]) :
    fetchFail t timedOut d = readFail t (if timedOut then 1 else 0) d := by
  unfold fetchFail
  rw [hreads, find_read]
  rfl

theorem cplTimeout_ends (h : OneRead t (.desc r n) s) :
    Ends (.cplTimeout t) s fun e => e.rd HIF_CTO_CNT.COUNT = min (s.dev.rd HIF_CTO_CNT.COUNT + 1) 65535 ∧
      e.rd HIF_EVENT.CPL_TIMEOUT = 1 ∧ Out.aer 0 false ∈ e.outs ∧ e.rd DMA_EVENT.RING_ERR = 1 ∧
      e.rd DMA_RING_ERR.RING = r % 2 ^ DMA_RING_ERR.RING.w ∧ e.rd DMA_RING_ERR.CAUSE = 1 ∧
      e.rd DMA_FETCH_ERR_CNT.COUNT = min (s.dev.rd DMA_FETCH_ERR_CNT.COUNT + 1) (2 ^ DMA_FETCH_ERR_CNT.COUNT.w - 1) := by
  obtain ⟨hreads, hepoch, -, -⟩ := h
  refine ends_run (f := cplTimeout t) (fun _ => rfl) ?_
  rw [cplTimeout_eq (d := s.quiet) hreads]
  obtain ⟨hcnt, hev, hout, hreads', hepoch', hfetch⟩ := readNoted_shows (d := s.quiet) (poisoned := false)
    (cnt := HIF_CTO_CNT.COUNT) (ev := HIF_EVENT.CPL_TIMEOUT) (by decide) (by decide) rfl (fun _ => rfl) (by decide) (fun _ => rfl)
    (fun _ => rfl)
  obtain ⟨hring, hcause, hcount, hevent, hkept, houts, -⟩ := readFail_records (r := r) (n := n) (t := t) 1 (hreads'.trans hreads)
    (hepoch'.trans hepoch)
  refine ⟨?_, ?_, houts.subset hout, hevent, hring, hcause, ?_⟩
  · rw [hkept _ (by decide), hcnt]
    rfl
  · rw [hkept _ (by decide), hev]
  · rw [hcount, hfetch]
    rfl

theorem poisoned_ends (h : OneRead t (.desc r n) s) :
    Ends (.poisoned t) s fun e => e.rd HIF_POISON_CNT.COUNT = min (s.dev.rd HIF_POISON_CNT.COUNT + 1) 65535 ∧
      e.rd HIF_EVENT.POISONED = 1 ∧ Out.aer 0 true ∈ e.outs ∧ e.rd DMA_EVENT.RING_ERR = 1 ∧ e.rd DMA_RING_ERR.CAUSE = 0 := by
  obtain ⟨hreads, hepoch, -, -⟩ := h
  refine ends_run (f := cplPoisoned t) (fun _ => rfl) ?_
  rw [cplPoisoned_eq (d := s.quiet) hreads]
  obtain ⟨hcnt, hev, hout, hreads', hepoch', -⟩ := readNoted_shows (d := s.quiet) (poisoned := true)
    (cnt := HIF_POISON_CNT.COUNT) (ev := HIF_EVENT.POISONED) (by decide) (by decide) rfl (fun _ => rfl) (by decide) (fun _ => rfl)
    (fun _ => rfl)
  obtain ⟨-, hcause, -, hevent, hkept, houts, -⟩ := readFail_records (r := r) (n := n) (t := t) 0 (hreads'.trans hreads)
    (hepoch'.trans hepoch)
  refine ⟨?_, ?_, houts.subset hout, hevent, hcause⟩
  · rw [hkept _ (by decide), hcnt]
    rfl
  · rw [hkept _ (by decide), hev]

theorem fetchFail_ends {timedOut : Bool} (h : OneRead t (.desc r n) s) (hst : (s.dev.ring r).st = 2) :
    Ends (.fetchFail t timedOut) s fun e => e.rd DMA_EVENT.RING_ERR = 1 ∧
      e.rd DMA_RING_ERR.RING = r % 2 ^ DMA_RING_ERR.RING.w ∧ e.rd DMA_RING_ERR.CAUSE = (if timedOut then 1 else 0) ∧
      (e.ring r).err = true := by
  obtain ⟨hreads, hepoch, -, -⟩ := h
  refine ends_run (f := fetchFail t timedOut) (fun _ => rfl) ?_
  rw [fetchFail_eq (d := s.quiet) hreads]
  obtain ⟨hring, hcause, -, hevent, -, -, hstops⟩ := readFail_records (d := s.quiet) (r := r) (n := n) (t := t)
    (if timedOut then 1 else 0) hreads hepoch
  refine ⟨hevent, hring, hcause.trans ?_, hstops hst⟩
  cases timedOut <;> rfl

end

end Sys2Proof.Machine
end

section
/-!
PROOFS. Descriptors fetched, payload joined, orphans, a ring that waited for a tag; the obligation (R106, R121, R130 to R132).
-/

namespace Sys2Proof.Machine

section
variable {d e : Dev} {r t n f : Nat} {bs : Bytes}

/-! ### The DMA with little to do -/

theorem mem_cellWrite {α : Type} [DecidableEq α] {dflt : Nat → α} {m : List (Nat × α)} {k : Nat} {v : α} {x : Nat × α}
    (h : x ∈ cellWrite dflt m k v) : x.1 = k ∨ x ∈ m := by
  have hdrop : ∀ m : List (Nat × α), x ∈ cellDrop m k → x ∈ m := by
    intro m
    induction m with
    | nil => exact id
    | cons a m ih =>
      rw [cellDrop]
      split
      · exact fun hx => List.mem_cons_of_mem _ (ih hx)
      · exact fun hx => (List.mem_cons.mp hx).elim (fun h => h ▸ List.mem_cons_self) fun hx => List.mem_cons_of_mem _ (ih hx)
  have hput : ∀ m : List (Nat × α), x ∈ cellPut m k v → x.1 = k ∨ x ∈ m := by
    intro m
    induction m with
    | nil => exact fun hx => .inl (congrArg Prod.fst (List.mem_singleton.mp hx))
    | cons a m ih =>
      rw [cellPut]
      split
      · exact fun hx => (List.mem_cons.mp hx).imp (congrArg Prod.fst) id
      · exact fun hx => (List.mem_cons.mp hx).elim (fun h => .inr (h ▸ List.mem_cons_self)) fun hx =>
          (ih hx).imp id (List.mem_cons_of_mem _)
  unfold cellWrite at h
  split at h
  · exact .inr (hdrop m h)
  · exact (hput _ h).imp id (hdrop m)

/-- Only ring r has a line in the table of rings. -/
def Alone (r : Nat) (d : Dev) : Prop := ∀ x ∈ d.host.rings, x.1 = r

theorem Alone.setRing {x : Ring} (h : Alone r d) : Alone r (d.setRing r x) := by
  intro y hy
  exact (mem_cellWrite (dflt := fun _ => {}) hy).elim id (h y)

theorem Alone.host (h : Alone r d) (hh : e.host.rings = d.host.rings) : Alone r e := by
  rw [Alone, hh]
  exact h

theorem Alone.keys (h : Alone r d) : ∀ q ∈ d.host.rings.map (·.1), q = r := by
  rintro q hq
  obtain ⟨x, hx, rfl⟩ := List.mem_map.mp hq
  exact h x hx

/-- No line of requests holds one. -/
def Lull (d : Dev) : Prop := ∀ j, (d.host.prq.getD j {}).q = []

/-- With receive rings alone and no requests, the DMA only fetches. -/
theorem dmaSettle_fetches (hkeys : ∀ q ∈ d.host.rings.map (·.1), 128 ≤ q) (hq : Lull d) : dmaSettle d = pump d := by
  have hnone : (d.host.rings.map (·.1)).filter (fun r => decide (r < 128)) = [] := by
    rw [List.filter_eq_nil_iff]
    exact fun q hin => by have := hkeys q hin; simpa using this
  unfold dmaSettle txSweep
  rw [hnone, List.foldl_nil]
  unfold txRetry
  rw [hnone, List.foldl_nil, prqAll_idle fun j _ => hq j]

theorem ringStart_running {b : Bool} (h : (d.ring r).st ≠ 1) : ringStart b r d = d := if_neg fun hx => h hx.1

theorem pump_fetches (hstart : ∀ q ∈ d.host.rings.map (·.1), (d.ring q).st ≠ 1) (hwants : d.host.wants = []) :
    pump d = forN 16 pumpFn d := by
  unfold pump
  rw [foldl_still (g := fun r d => ringStart false r d) fun q hq => ringStart_running (hstart q hq)]
  dsimp only
  rw [hwants]
  rfl

theorem ringsOf_mem {q : Nat} (h : q ∈ d.ringsOf f) : q ∈ d.host.rings.map (·.1) := List.mem_of_mem_filter h

theorem pumpFn_still (h : ∀ q ∈ d.host.rings.map (·.1), fetchRing q d = d) : pumpFn f d = d := by
  unfold pumpFn
  dsimp only
  refine foldl_still (g := fun r d => _) fun q hq => ?_
  have hin : q ∈ d.ringsOf f := (List.mem_append.mp hq).elim List.mem_of_mem_filter List.mem_of_mem_filter
  rw [h q (ringsOf_mem hin), if_pos rfl]

theorem pump_still (hstart : ∀ q ∈ d.host.rings.map (·.1), (d.ring q).st ≠ 1) (hwants : d.host.wants = [])
    (h : ∀ q ∈ d.host.rings.map (·.1), fetchRing q d = d) : pump d = d := by
  rw [pump_fetches hstart hwants]
  exact foldl_still (g := fun r d => pumpFn r d) fun _ _ => pumpFn_still h

/-- A ring that has nothing to fetch, or met a descriptor it does not own, fetches nothing. -/
theorem fetchRing_still (h : (d.ring r).toFetch = 0 ∨ (d.ring r).notOwn = true) : fetchRing r d = d := by
  unfold fetchRing
  split
  · rfl
  · refine if_pos ?_
    rcases h with h | h
    · exact .inr (.inr (.inr (.inl h)))
    · exact .inr (.inr (.inl h))

/-! ### Descriptors fetched into a receive ring -/

theorem kind_receive (h : ringKind r = 1) : 128 ≤ r := by
  by_contra hlt
  rw [ringKind, if_pos (by omega)] at h
  omega

/-- A receive ring without frames that can fetch no more is left as it is. -/
theorem scan_still (halone : Alone r d) (hr : 128 ≤ r) (hst : (d.ring r).st = 2) (hrxq : (d.ring r).rxq = [])
    (hwants : d.host.wants = []) (hq : Lull d) (hblock : (d.ring r).toFetch = 0 ∨ (d.ring r).notOwn = true) :
    (dmaSettle (tagSync (rxPump r d))).host = d.host ∧
    ∀ g, (∀ f ∈ pmemFields ++ tagFields, Field.apart f g = true) → (dmaSettle (tagSync (rxPump r d))).rd g = d.rd g := by
  have hcells : Cells d (rxPump r d) ∧ ∀ g, (∀ f ∈ pmemFields, Field.apart f g = true) → (rxPump r d).rd g = d.rd g := by
    rcases rxPump_idle hrxq with h | h
    · rw [h]
      exact ⟨.refl d, fun _ _ => rfl⟩
    · rw [h]
      refine ⟨Cells.pmemSync (.refl d), fun g hg => ?_⟩
      exact ((Stands.refl (· = g) d).pmemSync (by rintro f hf _ rfl; exact hg f hf)).rd rfl
  obtain ⟨hpump, hrd⟩ := hcells
  have hhost : (tagSync (rxPump r d)).host = d.host :=
    (tagSync_beyond _).host.trans (hpump.part Dev.host fun _ _ _ => rfl)
  have hstands (g : Field) (hg : ∀ f ∈ tagFields, Field.apart f g = true) : (tagSync (rxPump r d)).rd g = (rxPump r d).rd g :=
    ((Stands.refl (· = g) (rxPump r d)).tagSync (by rintro f hf _ rfl; exact hg f hf)).rd rfl
  generalize tagSync (rxPump r d) = y at *
  have hring : y.ring r = d.ring r := by rw [Dev.ring, hhost, Dev.ring]
  have hkeys : ∀ q ∈ y.host.rings.map (·.1), q = r := (halone.host (e := y) (by rw [hhost])).keys
  have hlull : Lull y := by
    rw [Lull, hhost]
    exact hq
  rw [dmaSettle_fetches (fun q hin => by rw [hkeys q hin]; exact hr) hlull, pump_still]
  · refine ⟨hhost, fun g hg => ?_⟩
    rw [hstands g fun f hf => hg f (List.mem_append_right _ hf), hrd g fun f hf => hg f (List.mem_append_left _ hf)]
  · intro q hin
    rw [hkeys q hin, hring, hst]
    decide
  · rw [hhost, hwants]
  · intro q hin
    rw [hkeys q hin]
    exact fetchRing_still (by rw [hring]; exact hblock)

/-- The n descriptors that bs brings. -/
def fetched (n : Nat) (bs : Bytes) (d : Dev) : List Desc := (List.range n).map fun i => { w := descWords bs i, t := d.nowExt }

/-- Those of them that are owned, up to the first that is not. -/
def ownedOf (ys : List Desc) : List Desc := ys.takeWhile fun y => bit (y.dw 7) 31

theorem fetched_owned (h : ((List.range n).all fun i => bit ((descWords bs i).getD 7 0) 31) = true) :
    ownedOf (fetched n bs d) = fetched n bs d := by
  refine List.takeWhile_eq_self_iff.mpr fun y hy => ?_
  obtain ⟨i, hi, rfl⟩ := List.mem_map.mp hy
  exact List.all_eq_true.mp h i hi

theorem fetched_unowned (hn : 0 < n) (h : bit ((descWords bs 0).getD 7 0) 31 = false) : ownedOf (fetched n bs d) = [] := by
  obtain ⟨m, rfl⟩ := Nat.exists_eq_succ_of_ne_zero (by omega : n ≠ 0)
  unfold ownedOf fetched
  rw [List.range_succ_eq_map, List.map_cons, List.takeWhile_cons_of_neg]
  rw [Desc.dw, h]
  decide

/-- The descriptors join ring r, or the fetch stops at one that is not owned. -/
def joined (r n : Nat) (own : List Desc) (d : Dev) : Dev :=
  let d := d.setRing r { d.ring r with taken := (d.ring r).taken ++ own }
  if own.length < n then ((d.ringMod r fun x => { x with notOwn := true }).sat DMA_NOTOWN_CNT.COUNT).ev DMA_EVENT.NOTOWN else d

theorem joined_ring (r n : Nat) (own : List Desc) (d : Dev) : (joined r n own d).ring r =
    { d.ring r with taken := (d.ring r).taken ++ own, notOwn := decide (own.length < n) || (d.ring r).notOwn } := by
  unfold joined
  dsimp only
  by_cases h : own.length < n
  · rw [if_pos h, decide_eq_true h, Bool.true_or]
    have hring (y : Dev) : ((y.sat DMA_NOTOWN_CNT.COUNT).ev DMA_EVENT.NOTOWN).ring r = y.ring r := by
      rw [Dev.ring, Beyond.host (Beyond.refl y).sat.ev, Dev.ring]
    rw [hring, Dev.ringMod, ring_setRing_same, ring_setRing_same]
  · rw [if_neg h, decide_eq_false h, Bool.false_or, ring_setRing_same]

theorem ringScan_receive {i : Nat} (h : ringKind r = 1) : ringScan r i d = rxPump r d := by
  unfold ringScan
  dsimp only
  rw [h]
  rfl

theorem descFetch_joins (hreads : d.host.reads = [descRead t r n]) (hepoch : d.epoch 0 = 0) (hlen : bs.length = 32 * n)
    (hst : (d.ring r).st = 2) (hcyc : (d.ring r).cyclic = false) (hkind : ringKind r = 1) :
    descFetch t bs d = dmaSettle (tagSync (rxPump r (joined r n (ownedOf (fetched n bs (dropTag t d))) (dropTag t d)))) := by
  have hdead : d.dead (descRead t r n) = false := by simp [Dev.dead, descRead, hepoch]
  have hring := dropTag_ring t r d
  rw [← hring] at hst hcyc
  unfold descFetch
  rw [hreads, find_read]
  dsimp only [descRead] at hdead ⊢
  rw [hdead, if_neg Bool.false_ne_true, if_neg (not_not.mpr hlen)]
  generalize dropTag t d = y at *
  rw [if_neg (not_not.mpr hst), if_neg (c := (y.ring r).cyclic = true) (by rw [hcyc]; exact Bool.false_ne_true)]
  have hjoin : ((joined r n (ownedOf (fetched n bs y)) y).ring r).st = 2 := by
    rw [joined_ring]
    exact hst
  unfold joined ownedOf fetched at hjoin ⊢
  dsimp only at hjoin ⊢
  rw [if_pos hjoin, ringScan_receive hkind]

end

end Sys2Proof.Machine
end

section
/-!
PROOFS. Descriptors fetched, payload joined, orphans, a ring that waited for a tag, as commands; the obligation (R121, R130 to R132).
-/

namespace Sys2Proof.Machine

section
variable {d e : Dev} {r t n f : Nat} {bs : Bytes}

theorem dropTag_host (t : Nat) (d : Dev) :
    (dropTag t d).host = { d.host with reads := d.host.reads.filter fun x => x.tag != t } := (tagSync_beyond _).host

theorem dropTag_rd {g : Field} (hg : ∀ f ∈ tagFields, Field.apart f g = true) : (dropTag t d).rd g = d.rd g :=
  (Stands.tagSync (P := (· = g)) (.hostMod (.refl _ d)) (by rintro f hf _ rfl; exact hg f hf)).rd rfl

/-! ### A fetch that came back -/

theorem joined_host (r n : Nat) (own : List Desc) (d : Dev) : (joined r n own d).host.reads = d.host.reads ∧
    (joined r n own d).host.wants = d.host.wants ∧ (joined r n own d).host.prq = d.host.prq := by
  unfold joined
  dsimp only
  split
  · rw [Beyond.host (Beyond.refl _).sat.ev]
    exact ⟨rfl, rfl, rfl⟩
  · exact ⟨rfl, rfl, rfl⟩

theorem joined_alone (n : Nat) (own : List Desc) (h : Alone r d) : Alone r (joined r n own d) := by
  unfold joined
  dsimp only
  split
  · exact h.setRing.setRing.host (congrArg HostIf.rings (Beyond.host (Beyond.refl _).sat.ev))
  · exact h.setRing

theorem joined_rd {own : List Desc} {g : Field} (h : n ≤ own.length) : (joined r n own d).rd g = d.rd g := by
  unfold joined
  dsimp only
  rw [if_neg (by omega)]
  rfl

theorem joined_wrote {own : List Desc} (h : own.length < n) : Wrote d (joined r n own d)
    [(DMA_NOTOWN_CNT.COUNT, min (d.rd DMA_NOTOWN_CNT.COUNT + 1) (2 ^ DMA_NOTOWN_CNT.COUNT.w - 1)), (DMA_EVENT.NOTOWN, 1)] := by
  have hring (x y : Ring) : Wrote d ((d.setRing r x).setRing r y) [] := (Wrote.refl d).parts rfl rfl
  have hrd (x y : Ring) : ((d.setRing r x).setRing r y).rd DMA_NOTOWN_CNT.COUNT = d.rd DMA_NOTOWN_CNT.COUNT := rfl
  unfold joined
  dsimp only
  rw [if_pos h, Dev.ringMod]
  exact ((hring _ _).sat rfl).ev rfl (by decide)

/-- What ring r holds when it can fetch no more. -/
theorem toFetch_none {x : Ring} {ys : List Desc} (hcyc : x.cyclic = false) (hprod : x.prod = (x.cons + ys.length) % 65536)
    (hys : ys.length ≤ 8) (hcons : x.cons < 65536) (hnew : ∀ y ∈ ys, y.begun = false) (o : Bool) :
    ({ x with taken := ys, notOwn := o } : Ring).toFetch = 0 := by
  have hbegun : ys.takeWhile (·.begun) = [] := by
    cases ys with
    | nil => rfl
    | cons y ys => rw [List.takeWhile_cons_of_neg (by rw [hnew y List.mem_cons_self]; exact Bool.false_ne_true)]
  simp only [Ring.toFetch, Ring.consumed, hcyc, Bool.false_eq_true, if_false, hbegun, hprod, List.length_nil]
  omega

/-- Receive ring r, alone and running, awaits n descriptors, and nothing else goes on. -/
structure Awaits (t r n : Nat) (d : Dev) : Prop where
  reads : d.host.reads = [descRead t r n]
  epoch : d.epoch 0 = 0
  wants : d.host.wants = []
  lull : Lull d
  alone : Alone r d
  kind : ringKind r = 1
  st : (d.ring r).st = 2
  rxq : (d.ring r).rxq = []
  taken : (d.ring r).taken = []
  cyclic : (d.ring r).cyclic = false

/-- The device once the descriptors own have joined ring r. -/
def landed (t r n : Nat) (own : List Desc) (d : Dev) : Dev := joined r n own (dropTag t d)

theorem landed_ring (own : List Desc) (h : (d.ring r).taken = []) :
    (landed t r n own d).ring r = { d.ring r with taken := own, notOwn := decide (own.length < n) || (d.ring r).notOwn } := by
  rw [landed, joined_ring, dropTag_ring, h, List.nil_append]

theorem Awaits.landed_reads (h : Awaits t r n d) (own : List Desc) : (landed t r n own d).host.reads = [] := by
  obtain ⟨hreads, -⟩ := joined_host r n own (dropTag t d)
  rw [landed, hreads, dropTag_host, h.reads]
  simp [descRead]

theorem Awaits.settles {own : List Desc} (h : Awaits t r n d) (hlen : bs.length = 32 * n) (hown : ownedOf (fetched n bs (dropTag t d)) = own)
    (hblock : ({ d.ring r with taken := own, notOwn := decide (own.length < n) || (d.ring r).notOwn } : Ring).toFetch = 0 ∨
      own.length < n) :
    (descFetch t bs d).host = (landed t r n own d).host ∧
    ∀ g, (∀ f ∈ pmemFields ++ tagFields, Field.apart f g = true) → (descFetch t bs d).rd g = (landed t r n own d).rd g := by
  have hring := landed_ring (t := t) (n := n) own h.taken
  obtain ⟨-, hwants, hprq⟩ := joined_host r n own (dropTag t d)
  rw [descFetch_joins h.reads h.epoch hlen h.st h.cyclic h.kind, hown]
  refine scan_still (joined_alone n own (h.alone.host (by rw [dropTag_host]))) (kind_receive h.kind) ?_ ?_ ?_ ?_ ?_
  · rw [← landed, hring]
    exact h.st
  · rw [← landed, hring]
    exact h.rxq
  · rw [hwants, dropTag_host]
    exact h.wants
  · rw [Lull, hprq, dropTag_host]
    exact h.lull
  · rw [← landed, hring]
    exact hblock.imp id fun hlt => by simp [hlt]

theorem landed_rd {own : List Desc} {g : Field} (hown : n ≤ own.length) (hg : ∀ f ∈ tagFields, Field.apart f g = true) :
    (landed t r n own d).rd g = d.rd g := by rw [landed, joined_rd hown, dropTag_rd hg]

theorem Awaits.all_owned (h : Awaits t r n d) (hlen : bs.length = 32 * n)
    (hown : ((List.range n).all fun i => bit ((descWords bs i).getD 7 0) 31) = true)
    (hprod : (d.ring r).prod = ((d.ring r).cons + n) % 65536) (hn : n ≤ 8) (hcons : (d.ring r).cons < 65536) :
    ((descFetch t bs d).ring r).taken.map (·.w) = (List.range n).map (descWords bs) ∧ (descFetch t bs d).host.reads = [] ∧
      (descFetch t bs d).rd DMA_NOTOWN_CNT.COUNT = d.rd DMA_NOTOWN_CNT.COUNT := by
  have hlength : (fetched n bs (dropTag t d)).length = n := by simp [fetched]
  have hnew : ∀ y ∈ fetched n bs (dropTag t d), y.begun = false := by
    intro y hy
    obtain ⟨i, -, rfl⟩ := List.mem_map.mp hy
    rfl
  have hfetch := toFetch_none h.cyclic (by rw [hlength]; exact hprod) (by rw [hlength]; exact hn) hcons hnew
  obtain ⟨hhost, hrd⟩ := h.settles hlen (fetched_owned hown) (.inl (hfetch _))
  refine ⟨?_, by rw [hhost, h.landed_reads], ?_⟩
  · rw [Dev.ring, hhost, ← Dev.ring, landed_ring _ h.taken]
    simp [fetched]
  · rw [hrd _ (by decide), landed_rd hlength.ge (by decide)]

theorem Awaits.unowned (h : Awaits t r n d) (hlen : bs.length = 32 * n) (hn : 0 < n)
    (hown : bit ((descWords bs 0).getD 7 0) 31 = false) :
    ((descFetch t bs d).ring r).taken = [] ∧ ((descFetch t bs d).ring r).notOwn = true ∧
      (descFetch t bs d).rd DMA_NOTOWN_CNT.COUNT = min (d.rd DMA_NOTOWN_CNT.COUNT + 1) (2 ^ DMA_NOTOWN_CNT.COUNT.w - 1) ∧
      (descFetch t bs d).rd DMA_EVENT.NOTOWN = 1 := by
  obtain ⟨hhost, hrd⟩ := h.settles hlen (fetched_unowned hn hown) (.inr hn)
  have hring : (descFetch t bs d).ring r = { d.ring r with taken := [], notOwn := true } := by
    rw [Dev.ring, hhost, ← Dev.ring, landed_ring _ h.taken, List.length_nil, decide_eq_true hn, Bool.true_or]
  have hwrote : Wrote (dropTag t d) (landed t r n [] d) _ := joined_wrote (by exact hn)
  refine ⟨by rw [hring], by rw [hring], ?_, ?_⟩
  · rw [hrd _ (by decide), hwrote.nth 0 rfl, dropTag_rd (by decide)]
  · rw [hrd _ (by decide), hwrote.nth 1 rfl]

/-! ### Payload that came back -/

/-- Payload of n bytes at off, for descriptor c of ring r. -/
def payRead (t r c off n : Nat) : Rd := { tag := t, fn := 0, epoch := 0, use := .pay r c off n }

/-- Ring x with z its one descriptor. -/
def holding (z : Desc) (x : Ring) : Ring := { x with taken := [z] }

/-- The piece bs at off joins descriptor z. -/
def pieced (off : Nat) (bs : Bytes) (z : Desc) : Desc := { z with need := z.need - bs.length, got := z.got ++ [(off, bs)] }

theorem txSweep1_still (h : (d.ring r).taken.findIdx? (fun y => y.entered && !y.done && y.sop && true) = none) : txSweep1 r d = d := by
  unfold txSweep1
  refine foldl_still (g := fun _ d => _) fun _ _ => ?_
  dsimp only
  rw [h]

theorem txGo_still (fuel : Nat) (h : (d.ring r).txReady = none) : txGo fuel r d = d := by
  cases fuel with
  | zero => rfl
  | succ fuel =>
    unfold txGo
    rw [h]

/-- A ring whose one descriptor waits for payload sends nothing. -/
theorem dmaSettle_waits {z : Desc} (halone : Alone r d) (hlull : Lull d) (ht : (d.ring r).taken = [z]) (hbegun : z.begun = true)
    (hdone : z.done = false) (hentered : z.entered = false) (hneed : 0 < z.need) : dmaSettle d = pump d := by
  have hready : (d.ring r).txReady = none := by
    unfold Ring.txReady
    rw [ht]
    simp [hbegun, hdone, hentered]
    omega
  have hsweep : txSweep d = d := foldl_still (g := fun r d => txSweep1 r d) fun q hq => by
    rw [halone.keys q (List.mem_of_mem_filter hq)]
    exact txSweep1_still (by rw [ht]; simp [hentered])
  have hretry : txRetry d = d := foldl_still (g := fun r d => txGo ((d.ring r).taken.length + 1) r d) fun q hq => by
    rw [halone.keys q (List.mem_of_mem_filter hq)]
    exact txGo_still _ hready
  rw [dmaSettle, hsweep, hretry, prqAll_idle fun j _ => hlull j]

/-- A read that is for no payload. -/
def bare (x : Rd) : Bool :=
  match x.use with
  | .pay .. => false
  | _ => true

/-- From d to e no payload is asked for. -/
structure Bare (d e : Dev) : Prop where
  wants : e.host.wants = d.host.wants
  reads : d.host.reads.all bare = true → e.host.reads.all bare = true

theorem Bare.refl (d : Dev) : Bare d d := ⟨rfl, id⟩

theorem Bare.trans {x : Dev} (h : Bare d e) (hx : Bare e x) : Bare d x := ⟨hx.wants.trans h.wants, fun hd => hx.reads (h.reads hd)⟩

theorem Bare.same {x : Dev} (h : Bare d e) (hw : x.host.wants = e.host.wants) (hr : x.host.reads = e.host.reads) : Bare d x :=
  h.trans ⟨hw, by rw [hr]; exact id⟩

theorem Bare.ite {c : Prop} [Decidable c] {x y : Dev} (hx : Bare d x) (hy : Bare d y) : Bare d (if c then x else y) := by
  split
  · exact hx
  · exact hy

theorem Bare.foldl {α : Type} {g : Dev → α → Dev} (l : List α) (h : Bare d e) (hg : ∀ a x, Bare d x → Bare d (g x a)) :
    Bare d (l.foldl g e) := by
  induction l generalizing e with
  | nil => exact h
  | cons a l ih => exact ih (hg a e h)

theorem Bare.beyond {x : Dev} (h : Bare d e) (hx : Beyond e x) : Bare d x := h.same (by rw [hx.host]) (by rw [hx.host])

theorem issue_host {a l : Nat} {u : Use} : (issue f a l u d).host =
    { d.host with reads := d.host.reads ++ [{ tag := d.newTag, fn := f, epoch := d.epoch f, use := u }] } := (tagSync_beyond _).host

theorem Bare.asked {a l q m : Nat} (h : Bare d e) : Bare d (issue f a l (.desc q m) e) := by
  refine h.trans ⟨by rw [issue_host], fun hd => ?_⟩
  rw [issue_host]
  dsimp only
  rw [List.all_append, hd]
  rfl

theorem Bare.fetchRing {q : Nat} (h : Bare d e) : Bare d (fetchRing q e) := by
  have hset (x : Ring) : Bare d (e.setRing q x) := h.same rfl rfl
  unfold Machine.fetchRing
  dsimp only
  split
  · exact h
  · exact .ite h (.ite (.ite h ((hset _).beyond (Beyond.refl _).sat.ev)) (.ite (hset _).asked h))

theorem Bare.ringStart {q : Nat} {b : Bool} (h : Bare d e) : Bare d (ringStart b q e) := .ite (h.same rfl rfl) h

theorem Bare.pumpFn {g : Nat} (h : Bare d e) : Bare d (pumpFn g e) :=
  h.foldl _ fun _ _ hx => .ite hx.fetchRing (hx.fetchRing.same rfl rfl)

theorem Bare.pump (hwants : e.host.wants = []) (h : Bare d e) : Bare d (pump e) := by
  have hstart : Bare e ((e.host.rings.map (·.1)).foldl (fun d r => Machine.ringStart false r d) e) :=
    (Bare.refl e).foldl _ fun _ _ hx => hx.ringStart
  refine h.trans ?_
  unfold Machine.pump
  dsimp only
  rw [hstart.wants, hwants]
  exact hstart.foldl _ fun _ _ hx => hx.pumpFn

theorem pump_pm (d : Dev) : (pump d).pm = d.pm := by
  obtain ⟨-, -, -, -, -, -, hpm, -⟩ := (Spares.refl 0 (fun _ => True) d).pump
  exact hpm

theorem payload_joins {z : Desc} {off : Nat} (hkind : ringKind r = 0) (ht : (d.ring r).taken = [z]) (hdone : z.done = false)
    (hentered : z.entered = false) : payload r (d.ring r).cons off bs d = d.setRing r (holding (pieced off bs z) (d.ring r)) := by
  have hpos : ((d.ring r).cons + 65536 - (d.ring r).cons) % 65536 = 0 := by omega
  unfold payload
  dsimp only
  rw [hkind, hpos, ht]
  simp [hdone, hentered, pieced, holding]

theorem pieced_parts (off : Nat) (bs : Bytes) (z : Desc) : (pieced off bs z).begun = z.begun ∧ (pieced off bs z).done = z.done ∧
    (pieced off bs z).entered = z.entered ∧ (pieced off bs z).need = z.need - bs.length := ⟨rfl, rfl, rfl, rfl⟩

/-- A piece joins the descriptor that waits for more. -/
theorem piece_settles {z : Desc} (off : Nat) (halone : Alone r d) (hlull : Lull d) (hwants : d.host.wants = [])
    (hbegun : z.begun = true) (hdone : z.done = false) (hentered : z.entered = false) (hneed : bs.length < z.need)
    (hbare : d.host.reads.all bare = true) (x : Ring) :
    let e := dmaSettle (d.setRing r (holding (pieced off bs z) x))
    (e.ring r).taken = [pieced off bs z] ∧ e.host.reads.all bare = true ∧ e.pm = d.pm := by
  obtain ⟨hb, hd, he, hn⟩ := pieced_parts off bs z
  generalize pieced off bs z = z' at *
  have hring := ring_setRing_same r (holding z' x) d
  have hset : Bare d (d.setRing r (holding z' x)) := (Bare.refl d).same rfl rfl
  have hpm : (d.setRing r (holding z' x)).pm = d.pm := rfl
  have hlull' : Lull (d.setRing r (holding z' x)) := hlull
  have halone' : Alone r (d.setRing r (holding z' x)) := halone.setRing
  have hwants' : (d.setRing r (holding z' x)).host.wants = [] := hwants
  generalize d.setRing r (holding z' x) = y at *
  dsimp only
  rw [dmaSettle_waits halone' hlull' (by rw [hring, holding]) (hb.trans hbegun) (hd.trans hdone) (he.trans hentered) (by omega)]
  refine ⟨?_, ((Bare.refl y).pump hwants').reads (hset.reads hbare), (pump_pm y).trans hpm⟩
  rw [((Pumped.refl y).pump r).taken, hring, holding]

theorem completion_joins {off c : Nat} (hreads : d.host.reads = [payRead t r c off n]) (hepoch : d.epoch 0 = 0)
    (hlen : bs.length = n) : completion t bs d = dmaSettle (payload r c off bs (dropTag t d)) := by
  have hdead : d.dead (payRead t r c off n) = false := by simp [Dev.dead, payRead, hepoch]
  have hfind : d.host.reads.find? (fun x => x.tag == t) = some (payRead t r c off n) := by
    rw [hreads]
    simp [payRead]
  unfold completion
  rw [hfind]
  dsimp only [payRead] at hdead ⊢
  rw [hdead, if_neg Bool.false_ne_true, if_pos hlen]

theorem completion_pieces {z : Desc} {off c : Nat} (hreads : d.host.reads = [payRead t r c off n])
    (hepoch : d.epoch 0 = 0) (hwants : d.host.wants = []) (hlull : Lull d) (halone : Alone r d) (hkind : ringKind r = 0)
    (ht : (d.ring r).taken = [z]) (hc : c = (d.ring r).cons) (hbegun : z.begun = true) (hdone : z.done = false)
    (hentered : z.entered = false) (hneed : n < z.need) (hlen : bs.length = n) :
    ((completion t bs d).ring r).taken = [pieced off bs z] ∧ (completion t bs d).host.reads.all bare = true ∧
      (completion t bs d).pm = d.pm := by
  have hhost := dropTag_host t d
  have hpm : (dropTag t d).pm = d.pm := (tagSync_beyond _).part Dev.pm fun _ _ _ => rfl
  have hbare : (dropTag t d).host.reads.all bare = true := by
    rw [hhost, hreads]
    simp [payRead]
  have hlull' : Lull (dropTag t d) := by
    rw [Lull, hhost]
    exact hlull
  have hwants' : (dropTag t d).host.wants = [] := by rw [hhost]; exact hwants
  have halone' : Alone r (dropTag t d) := halone.host (by rw [hhost])
  rw [completion_joins hreads hepoch hlen, hc]
  rw [← dropTag_ring t r d] at ht ⊢
  generalize dropTag t d = y at *
  rw [payload_joins hkind ht hdone hentered, ← hpm]
  exact piece_settles off halone' hlull' hwants' hbegun hdone hentered (by rw [hlen]; exact hneed) hbare (y.ring r)

/-- A completion for an orphan changes nothing but the tags. -/
theorem completion_orphan {ep : Nat} {u : Use} (hreads : d.host.reads = [{ tag := t, fn := f, epoch := ep, orphan := true, use := u }])
    (hrings : d.host.rings = []) (hwants : d.host.wants = []) (hlull : Lull d) :
    (completion t bs d).host.reads = [] ∧ (completion t bs d).host.rings = [] ∧ (completion t bs d).pm = d.pm := by
  have hhost := dropTag_host t d
  have hpm : (dropTag t d).pm = d.pm := (tagSync_beyond _).part Dev.pm fun _ _ _ => rfl
  have heq : completion t bs d = dmaSettle (dropTag t d) := by
    unfold completion
    rw [hreads]
    simp [Dev.dead]
  have hnone : (dropTag t d).host.rings.map (·.1) = [] := by rw [hhost, hrings]; rfl
  have hall (p : Nat → Prop) : ∀ q ∈ (dropTag t d).host.rings.map (·.1), p q := by
    rw [hnone]
    exact fun _ h => absurd h List.not_mem_nil
  have hlull' : Lull (dropTag t d) := by
    rw [Lull, hhost]
    exact hlull
  rw [heq, dmaSettle_fetches (hall _) hlull', pump_still (hall _) (by rw [hhost, hwants]) (hall _)]
  refine ⟨?_, by rw [hhost, hrings], hpm⟩
  rw [hhost, hreads]
  simp

/-! ### A tag is free again -/

theorem fetchRing_busy (h : d.fetching r = true) : fetchRing r d = d := by
  unfold fetchRing
  split
  · rfl
  · exact if_pos (.inr (.inr (.inr (.inr (.inl h)))))

/-- Receive ring r, alone and empty, waits for a tag of function 0 with two descriptors to fetch. -/
structure TagLacks (r : Nat) (d : Dev) : Prop where
  rings : d.host.rings = [(r, { st := 2, prod := 2, tagWait := true })]
  reads : d.host.reads = []
  wants : d.host.wants = []
  lull : Lull d
  fn : d.ringFn r = some 0
  kind : ringKind r = 1
  live : d.fnLive 0 = true
  quota : 0 < d.rd (DMA_FNf_DTAGS.QUOTA 0)

theorem TagLacks.ring (h : TagLacks r d) : d.ring r = { st := 2, prod := 2, tagWait := true } := by
  rw [Dev.ring, h.rings, cellRead, if_pos rfl]

theorem TagLacks.asks (h : TagLacks r d) :
    ∃ a l m, fetchRing r d = issue 0 a l (.desc r m) (d.setRing r { d.ring r with tagWait := false }) := by
  have hring := h.ring
  have hfetching : d.fetching r = false := by rw [Dev.fetching, h.reads]; rfl
  have hroom : d.dtagRoom 0 ≠ 0 := by
    have hquota := h.quota
    rw [Dev.dtagRoom, Dev.dtags, Dev.dtags, h.rings, h.reads]
    simp only [List.filter_cons, List.filter_nil, h.fn, List.map_nil, List.foldl_nil, Option.any_some]
    simp
    omega
  have hread : 0 < d.rdQuota 0 := by
    unfold Dev.rdQuota
    dsimp only
    split <;> omega
  have htag : d.tagFree 0 = true := by simp [Dev.tagFree, h.reads, hread]
  unfold fetchRing
  rw [h.fn]
  dsimp only
  rw [if_neg ?_, if_neg hroom, if_pos htag]
  · exact ⟨_, _, _, rfl⟩
  · rw [hring, hfetching, h.live]
    decide

theorem TagLacks.ringsOf (h : TagLacks r d) : d.ringsOf 0 = [r] := by
  rw [Dev.ringsOf, h.rings]
  simp [h.fn]

/-- The one ring of a function has its turn. -/
theorem pumpFn_one (h : d.ringsOf f = [r]) : pumpFn f d = fetchRing r d ∨
    ∃ g : HostIf → HostIf, (∀ x, (g x).rings = x.rings ∧ (g x).reads = x.reads) ∧ pumpFn f d = (fetchRing r d).hostMod g := by
  have horder (last : Nat) : [r].filter (last < ·) ++ [r].filter (· ≤ last) = [r] := by
    by_cases hlast : last < r
    · simp [hlast]
    · simp [hlast, not_lt.mp hlast]
  unfold pumpFn
  dsimp only
  rw [h, horder, List.foldl_cons, List.foldl_nil]
  split
  · exact .inl rfl
  · refine .inr ⟨_, ?_, rfl⟩
    exact fun _ => ⟨rfl, rfl⟩

theorem fetching_asked {a l m : Nat} : (issue f a l (.desc r m) d).fetching r = true := by
  rw [Dev.fetching, issue_host]
  simp

theorem TagLacks.turn (h : TagLacks r d) :
    (pumpFn 0 d).fetching r = true ∧ ((pumpFn 0 d).ring r).tagWait = false ∧ Alone r (pumpFn 0 d) := by
  have halone : Alone r d := by
    rw [Alone, h.rings]
    simp
  obtain ⟨a, l, m, hasks⟩ := h.asks
  have hturn := pumpFn_one h.ringsOf
  have hfetching : (fetchRing r d).fetching r = true := by rw [hasks, fetching_asked]
  have hring : ((fetchRing r d).ring r).tagWait = false := by rw [hasks, issue_ring, ring_setRing_same]
  have hkeys : Alone r (fetchRing r d) := by
    rw [hasks]
    exact halone.setRing.host (by rw [issue_host])
  generalize fetchRing r d = y at *
  rcases hturn with hx | ⟨g, hg, hx⟩
  · rw [hx]
    exact ⟨hfetching, hring, hkeys⟩
  · obtain ⟨hrings, hreads⟩ := hg y.host
    rw [hx]
    refine ⟨?_, ?_, hkeys.host hrings⟩
    · rw [Dev.fetching, show (y.hostMod g).host.reads = y.host.reads from hreads, ← Dev.fetching, hfetching]
    · rw [Dev.ring, show (y.hostMod g).host.rings = y.host.rings from hrings, ← Dev.ring, hring]

theorem TagLacks.pump (h : TagLacks r d) : pump d = pumpFn 0 d := by
  have hkeys : ∀ q ∈ d.host.rings.map (·.1), q = r := by rw [h.rings]; simp
  have hrest : List.range 16 = 0 :: (List.range' 1 15) := by decide
  obtain ⟨hfetching, -, halone⟩ := h.turn
  rw [pump_fetches (fun q hq => by rw [hkeys q hq, h.ring]; decide) h.wants, forN, hrest, List.foldl_cons]
  refine foldl_still (g := fun f d => pumpFn f d) fun g _ => pumpFn_still fun q hq => ?_
  rw [halone.keys q hq]
  exact fetchRing_busy hfetching

theorem TagLacks.ends (h : TagLacks r d) : (tagWaitEnd r d).fetching r = true ∧ ((tagWaitEnd r d).ring r).tagWait = false := by
  have hkeys : ∀ q ∈ d.host.rings.map (·.1), q = r := by rw [h.rings]; simp
  have hwait : (d.ring r).tagWait = true := by rw [h.ring]
  obtain ⟨hfetching, hring, -⟩ := h.turn
  have hsettle : tagWaitEnd r d = pumpFn 0 d := by
    unfold tagWaitEnd
    rw [if_pos hwait, dmaSettle_fetches (fun q hq => by rw [hkeys q hq]; exact kind_receive h.kind) h.lull, h.pump]
  rw [hsettle]
  exact ⟨hfetching, hring⟩

end

/-! ### The obligation -/

section
variable {s : State} {t r n : Nat} {bs : Bytes}

theorem alone_of (h : OnlyRing r s) : Alone r s.quiet := by
  intro x hx
  have hin : x.1 ∈ s.dev.host.rings.map (·.1) := List.mem_map_of_mem hx
  rw [h] at hin
  exact List.mem_singleton.mp hin

theorem awaits_of (h : OneRead t (.desc r n) s) (hone : OnlyRing r s) (hkind : ringKind r = 1) (hst : (s.dev.ring r).st = 2)
    (hrxq : (s.dev.ring r).rxq = []) (htaken : (s.dev.ring r).taken = []) (hcyc : (s.dev.ring r).cyclic = false) :
    Awaits t r n s.quiet := by
  obtain ⟨hreads, hepoch, hwants, hlull⟩ := h
  exact ⟨hreads, hepoch, hwants, noRequests_line hlull, alone_of hone, hkind, hst, hrxq, htaken, hcyc⟩

/-- Completions queue nothing here: packet memory stands. -/
theorem completion_ends {P : Dev → Prop} (hclean : QueuesClean s) (hpm : (completion t bs s.quiet).pm = s.dev.pm)
    (h : P (completion t bs s.quiet)) : Ends (.completion t bs) s P := by
  refine ends_run (f := queueing (completion t bs)) (fun _ => rfl) ?_
  rw [queueing_same (d := s.quiet) hclean hpm]
  exact h

theorem completion_pieces_ends {z : Desc} {off : Nat} (hread : OneRead t (.pay r (s.dev.ring r).cons off n) s) (hone : OnlyRing r s)
    (hclean : QueuesClean s) (hkind : ringKind r = 0) (ht : (s.dev.ring r).taken = [z]) (hbegun : z.begun = true)
    (hdone : z.done = false) (hentered : z.entered = false) (hneed : n < z.need) (hlen : bs.length = n) :
    Ends (.completion t bs) s fun e => (e.ring r).taken.map (fun y => (y.need, y.got, y.w, y.done)) =
      [(z.need - n, z.got ++ [(off, bs)], z.w, false)] ∧ e.host.reads.all bare = true := by
  obtain ⟨hreads, hepoch, hwants, hlull⟩ := hread
  obtain ⟨htaken, hbare, hpm⟩ := completion_pieces (d := s.quiet) (bs := bs) (z := z) hreads hepoch hwants (noRequests_line hlull)
    (alone_of hone) hkind ht rfl hbegun hdone hentered hneed hlen
  refine completion_ends hclean hpm ⟨?_, hbare⟩
  rw [htaken]
  simp [pieced, hlen, hdone]

end

/-- Settles O15: each clause by what the command leaves, the failures by what the DMA keeps of their record. -/
theorem fetchPayloadAndFailures : Obligations.FetchPayloadAndFailures := by
  intro s
  refine ⟨?_, ?_, ?_, ?_, ?_, ?_, ?_, ?_⟩
  · exact fun t r n h => cplTimeout_ends h
  · exact fun t r n h => poisoned_ends h
  · exact fun t timedOut r n h _ hst _ _ => fetchFail_ends h hst
  · intro t bs r n hread hone hkind hst hrxq htaken hprod hcyc hn hcons hlen hown
    obtain ⟨hws, hreads, hcount⟩ := (awaits_of hread hone hkind hst hrxq htaken hcyc).all_owned hlen hown hprod hn hcons
    refine ends_run (f := descFetch t bs) (fun _ => rfl) ⟨hws, ?_, hcount⟩
    rw [hreads]
    rfl
  · intro t bs r n hread hone hkind hst hrxq htaken hcyc hn hlen hown
    exact ends_run (f := descFetch t bs) (fun _ => rfl)
      ((awaits_of hread hone hkind hst hrxq htaken hcyc).unowned hlen hn hown)
  · intro t bs r n off z hread hone hclean hkind ht hbegun hdone hentered hneed _ hlen
    exact completion_pieces_ends hread hone hclean hkind ht hbegun hdone hentered hneed hlen
  · intro t bs f ep u hreads hrings hwants hlull hclean
    obtain ⟨hgone, hnone, hpm⟩ := completion_orphan (d := s.quiet) (bs := bs) hreads hrings hwants (noRequests_line hlull)
    exact completion_ends hclean hpm ⟨hgone, hnone⟩
  · intro ring hrings hreads hwants hlull hfn hkind hlive hquota
    have hlacks : TagLacks ring.val s.quiet := ⟨hrings, hreads, hwants, noRequests_line hlull, hfn, hkind, hlive, hquota⟩
    exact ends_run (f := tagWaitEnd ring) (fun _ => rfl) hlacks.ends

end Sys2Proof.Machine
end
